-- ==== Sys2Proof/Word.lean ====
section
/-! DEFINITION. The word types of the manual (spec/00: bits, words, bytes) and their plainest
arithmetic. -/

namespace Sys2Proof

/-- A register word (R30: every register is 32 bits wide). -/
abbrev Word := BitVec 32

/-- A byte. -/
abbrev Byte := BitVec 8

/-- The low 32 bits of a natural number. -/
abbrev wordOf (n : Nat) : Word := BitVec.ofNat 32 n

/-- The word that holds a signed number in two's complement. -/
abbrev wordOfInt (x : Int) : Word := BitVec.ofInt 32 x

/-- A field of a register: byte offset of the register in its page, highest and lowest bit. -/
structure Fld where
  off : Nat
  hi : Nat
  lo : Nat
deriving DecidableEq, Repr

/-- Width of a field in bits. -/
def Fld.width (f : Fld) : Nat := f.hi + 1 - f.lo

end Sys2Proof
end

