-- ==== Sys2Proof/Syntax.lean ====
section
/-! DEFINITION. The commands the block takes: one constructor per row of spec/opcode_table.json,
with the operands its rule names, and the operand types. -/

namespace Sys2Proof

/-- Who makes an access: the KIND and OWNER of PG_LEASE (R35). -/
inductive Writer where
  | apc (h : Fin 4)
  | spc
  | spcB
  | reck (k : Fin 32)
  | session (n : Fin 1024)
  | remote (a : Fin 4096)
deriving DecidableEq, Repr

/-- The response codes of R56. -/
inductive Code where
  | ok | writeRefused | noPage | domainResting | busy | badLength | timeout | integrity
deriving DecidableEq, Repr

/-- The 3-bit value of a response code (R56). -/
def Code.num : Code → Nat
  | .ok => 0
  | .writeRefused => 1
  | .noPage => 2
  | .domainResting => 3
  | .busy => 4
  | .badLength => 5
  | .timeout => 6
  | .integrity => 7

/-- A candidate's election tuple (R70): PRIO, CLASS and fabric address, compared in this order. -/
structure Tuple where
  prio : Nat
  cls : Nat
  addr : Nat
deriving DecidableEq, Repr

/-- A time message (R71 to R74, R434): the master it originates at, the sender's hops to that master, the CMSN and
CROSS_SITE flags, the sender's beam time T of this frame and its arrival time R of the frame numbered ECHO, in
1/256 ns. -/
structure TimeMsg where
  master : Nat
  hops : Nat
  cmsn : Bool
  crossSite : Bool
  sent : Nat
  got : Nat
  echo : Nat
deriving DecidableEq, Repr

/-- A PTP message (R77) with the port, domain and transport (0: IEEE 802.3, 1: UDP/IPv4, 2: UDP/IPv6) it
came by, and what it leaves in the slave clock: whether the port is in SLAVE state, the offset from the PTP
master in ns, the time of the PTP timescale now in 1/256 ns, and currentUtcOffset where the message is an
Announce. -/
structure PtpMsg where
  port : Fin 2
  domain : Fin 256
  transport : Fin 3
  slave : Bool
  offset : Int
  time : Nat
  utc : Option Int
deriving DecidableEq, Repr

/-- What calls for a step (R79): a follower in ACQUIRE, or an imported reference of the master, the 1PPS or
PTP, with the shift in 1/256 ns. -/
inductive StepReq where
  | follower
  | reference (pps : Bool) (shift : Int)
deriving DecidableEq, Repr

/-- A HEARTBEAT frame's payload (R119). -/
structure Heartbeat where
  stat : Fin 256
  flags : Fin 256
  vp : Fin 256
  vn : Fin 256
  ntc : Fin 65536
  vce : Fin 65536
deriving DecidableEq, Repr


/-- What the ECC check of a memory word finds (R201, R203). -/
inductive Ecc where
  | clean | corrected | double
deriving DecidableEq, Repr

/-- Bead counts, P and Q (R281). -/
structure PQ where
  p : Int := 0
  q : Int := 0
deriving DecidableEq, Repr

/-- A RENEW message (R289). -/
structure Renew where
  new : Bool
  fine : Bool
  boot : Nat
  rseq : Nat
  treq : Nat
  hold : PQ
  rel : PQ
  capPos : PQ
  capNeg : PQ
deriving DecidableEq, Repr

/-- An ACK message (R289). -/
structure BeadAck where
  code : Nat
  hepoch : Nat
  rseq : Nat
  expiry : Nat
  lease : PQ
  target : PQ
  lseq : Nat
deriving DecidableEq, Repr

/-- A lease in the ledger (R280, R290): BOOT, last RSEQ, expiry in ns, amount, what the last RENEW
reported, and the target last answered. -/
structure LedgerEntry where
  boot : Nat
  rseq : Nat
  exp : Nat
  lease : PQ
  fine : Bool
  capPos : PQ
  capNeg : PQ
  ans : PQ
deriving DecidableEq, Repr

/-- The changes of one ledger step (R283): the totals after it and the entries it changes, `none` where
one is deleted. -/
structure LedgerStep where
  pool : PQ
  minted : PQ
  retired : PQ
  retPend : PQ
  leases : List (Nat × Option LedgerEntry)
deriving DecidableEq, Repr

/-- A ledger (R280 to R283): the last step, the totals, the leases by device address. -/
structure Ledger where
  lseq : Nat := 0
  pool : PQ := {}
  minted : PQ := {}
  retired : PQ := {}
  retPend : PQ := {}
  leases : List (Nat × LedgerEntry) := []
deriving DecidableEq, Repr

/-- A home-to-home message (R282 to R285): a step, its acknowledgement, HOME_HB with a digest and the
LSEQ it states, the whole ledger, a request for it, and a request for a missing step. -/
inductive HomeMsg where
  | repl (hepoch lseq : Nat) (st : LedgerStep)
  | replAck (hepoch lseq : Nat)
  | hb (hepoch lseq : Nat) (digest : Option (Nat × Nat))
  | copy (hepoch : Nat) (l : Ledger)
  | copyReq (hepoch : Nat)
  | ask (hepoch lseq : Nat)
deriving DecidableEq, Repr

/-- What a home's answer carries (R283, R285): REPL_ACK, the request for the steps from an LSEQ on, the request
for the ledger. -/
inductive HomeAsk where
  | ack
  | step
  | copy
deriving DecidableEq, Repr

/-- A CAN frame (R321, R324): IDE, FDF, BRS, ESI, remote, identifier with a base identifier in
[28:18], DLC, data bytes. -/
structure CanFrame where
  ide : Bool
  fdf : Bool
  brs : Bool
  esi : Bool := false
  rtr : Bool := false
  id : Nat
  dlc : Nat
  data : List Nat
deriving DecidableEq, Repr

/-- How a transmission attempt ends (R327, R329): sent, arbitration lost, an error, or no
acknowledgement. -/
inductive TxRes where
  | sent | lost | error | noAck
deriving DecidableEq, Repr

/-- What the converter reads of a thermal sense input (R361, R362): the code x of an NTC, or the diode
voltages V₁₀, V₄₀, V₁₆₀ in nV. -/
inductive ThSample where
  | code (x : Fin 65536)
  | diode (v10 v40 v160 : Nat)
deriving DecidableEq, Repr

/-- How a PMBus read ends after its retry (R512): a value, not acknowledged, or a bad packet error code. -/
inductive PmbRes where
  | ok (v : Nat) | nack | pec
deriving DecidableEq, Repr

/-- The results of a housekeeping round (R364): the 64 inputs, the temperatures of RD, FD0 to FD3 and CF
in 1/16 °C, the 48 supply monitors in mV, the stepper supplies of the field dies in 10 mV, and what READ_VOUT of
each slot answers (R512). -/
structure HkRound where
  ts : List ThSample
  die : List Int
  sup : List Nat
  vm : List Nat
  vout : List PmbRes
deriving DecidableEq, Repr

/-- A level change of a pulse counter's line: the new level, and for how many consecutive 10 ns samples it has held
(R382). -/
structure LineChange where
  level : Bool
  held : Nat
deriving DecidableEq, Repr

/-- What one 10 ns sample of a pulse counter's lines shows (R382): the changes of lines a and b that have held for the
filter's samples or have ended sooner, and the level of line b. -/
structure CntEdges where
  a : Option LineChange := none
  b : Option LineChange := none
  lineB : Bool := false
deriving DecidableEq, Repr

/-- What a stepper channel senses over an estimate of the load angle (R377): for coils A and B the chopper duty, the
current and its slope. -/
structure CoilSense where
  duty : Int × Int
  cur : Int × Int
  slope : Int × Int
deriving DecidableEq, Repr

/-- The body of a parcel (R433): bytes, or one of the bead messages whose layout the manual does not
give. -/
inductive FabBody where
  | bytes (l : List Nat)
  | notice (reason : Nat) (amt : PQ)
  | home (m : HomeMsg)
deriving DecidableEq, Repr

/-- A parcel (R422): VC, WAKE, FLOOD, DET_A, DET_B, DIR_A, DIR_B, LEN, LSN, KIND, TTL, DST, SRC, TAG, body. -/
structure Parcel where
  vc : Nat
  wake : Bool := false
  flood : Bool := false
  detA : Bool := false
  detB : Bool := false
  dirA : Bool := false
  dirB : Bool := false
  len : Nat
  lsn : Nat := 0
  kind : Nat
  ttl : Nat := 192
  dst : Nat
  src : Nat
  tag : Nat := 0
  body : FabBody
deriving DecidableEq, Repr

/-- A HELLO (R424). -/
structure Hello where
  sysId : Nat
  addr : Nat
  link : Nat
  na : Nat
  nb : Nat
  seen : Bool
  fec : Bool
  boot : Nat
  ms : Nat
deriving DecidableEq, Repr

/-- A STATUS (R424). -/
structure LinkStatus where
  ack : Nat
  nak : Bool
  freed : List Nat
deriving DecidableEq, Repr

/-- A TUNNEL parcel's fields as a gate reads them (R464): CODE, ESESS, CHAN, FRAG, TSESS, payload bytes. -/
structure TunMsg where
  code : Nat := 0
  esess : Nat
  chan : Nat
  frag : Nat := 0
  tsess : Nat := 0
  data : List Nat := []
deriving DecidableEq, Repr

/-- What the read of a label copy gives (R485): the label last written, a copy whose CRC fails, or a valid copy of
another label. -/
inductive LabelRead where
  | good | bad | other
deriving DecidableEq, Repr

/-- What an NVMe drive completes or reports (R472 to R475): its initialisation (generation, lanes, 64 KiB
blocks, whether the namespace's format is right, volatile write cache), a namespace command's status, an
asynchronous notice, the SMART log, or another command with its status. -/
inductive NvmeEv where
  | ready (speed width blocks : Nat) (nsOk vwc : Bool)
  | ns (status : Nat)
  | notice
  | smart (wear temp : Nat)
  | done (status : Nat)
deriving DecidableEq, Repr

/-- A TALLY_REPL parcel's fields (R489). -/
structure ReplPart where
  orig : Nat
  cls : Nat
  frag : Nat
  nfrag : Nat
  ofs : Nat
  data : List Nat
deriving DecidableEq, Repr

/-- What a PMBus slot answers in a poll (R512): STATUS_WORD, and READ_IIN in mA. -/
structure PmbRead where
  status : PmbRes
  iin : PmbRes
deriving DecidableEq, Repr

/-- What the memory self-test finds of a memory (R565): MEM_ID, failing words, rows that need a spare, address and
bit of the last failure. -/
structure MemTest where
  id : Nat
  words : Nat
  rows : Nat
  addr : Nat
  bit : Nat
deriving DecidableEq, Repr

/-- The commands of spec/opcode_table.json. -/
inductive Instr where
  /-- R39. A write to a register that has no row of its own, handled under its access code, the lease rules and R615. -/
  | registerWrite (w : Writer) (p off : Fin 4096) (size : Fin 3) (v : Word)
  /-- R36. A write of 1 to PG_CTL.LOCK locks every WL register of the page until its domain resets. -/
  | pgCtlLock (w : Writer) (p : Fin 4096)
  /-- R46. A write of 1 to PG_CTL.DISCARD drops every staged word of the page. -/
  | pgCtlDiscard (w : Writer) (p : Fin 4096)
  /-- R47. A write of LEASE_REQ grants, renews or refuses the page lease and discards the staged words on a grant. -/
  | leaseReq (w : Writer) (p : Fin 4096) (time : Fin 256)
  /-- R50. The owner releases its lease, which discards the staged words and sets LEASE_LOST. -/
  | leaseRel (w : Writer) (p : Fin 4096)
  /-- R52. A write of PG_CTL.EN enables or disables the block, and is refused whole while SHUTTING. -/
  | pgCtlEnable (w : Writer) (p : Fin 4096) (en : Bool)
  /-- R53. A write of PG_CTL.PWR_REQ keeps awake, wakes or releases the page's domain. -/
  | pwrReqWrite (w : Writer) (p : Fin 4096) (r : Fin 4) (en : Option Bool)
  /-- R43. A commit request is checked for lease, pending apply, generation and block rules, then moves the staged words to a pending set. -/
  | pgCommit (w : Writer) (p : Fin 4096) (gen : Word)
  /-- R43. At the page's apply point the pending set is written to the active registers in one step and PG_GEN advances. -/
  | commitApply (p : Fin 4096)
  /-- R38. A write of PG_INJ arms or disarms an injection point, or is refused with INJ_DENIED. -/
  | injArm (w : Writer) (p : Fin 4096) (shots point : Fin 256)
  /-- R49. A session or remote lease counts REMAIN to 0 and expires. -/
  | leaseExpire (p : Fin 4096) (ms : Fin 65536)
  /-- R50. The lease owner resets, faults, closes or becomes unreachable, and the lease ends. -/
  | leaseOwnerLost (w : Writer)
  /-- R54. A transaction reaches a page of a resting domain and gets DOMAIN_RESTING, or wakes the domain with WAKE. -/
  | restPageAccess (w : Writer) (p off : Fin 4096) (v : Option Word) (wake : Bool)
  /-- R55. A draining domain completes its accepted transactions and becomes RESTING. -/
  | domainDrained (i : Fin 8)
  /-- R33. A local access is unanswered for 100 µs and raises an access fault. -/
  | localAccessTimeout (w : Writer) (p off : Fin 4096)
  /-- R55. A remote transaction to a page times out with TIMEOUT. -/
  | remoteTimeout (w : Writer) (p : Fin 4096)
  /-- R59. A pending router line is asserted at its destination, waking it if WAKE = 1. -/
  | eventLineDeliver (n : Fin 256)
  /-- R66. A read of BEAM.NOW_NS latches the seconds and the fraction in the same tick. -/
  | nowNsRead (w : Writer)
  /-- R67. A write of 1 to BEAM.SNAP captures time, lock state and holdover in one tick. -/
  | snap (w : Writer)
  /-- R68. At the next whole second a BEAM commit applies, stepping the beam if it held staged words. -/
  | beamSetApply
  /-- R71. A time message is sent on each UP link every millisecond. -/
  | timeMessageTx
  /-- R73. A received time message gives link delay and offset, and updates the servo and lock state. -/
  | timeMessageRx (link : Fin 4) (m : TimeMsg)
  /-- R71. No message from the master has arrived for 3 ms; the master is declared lost and a new election follows. -/
  | masterLoss
  /-- R74. No time message from the parent has arrived for 3 ms; the parent is declared lost. -/
  | parentLoss
  /-- R70. An ELECT flood with a candidate tuple is received and taken into the election. -/
  | electRx (t : Tuple) (isMaster early : Bool)
  /-- R71. A candidate whose tuple has been lower than the master's for 10 s takes over. -/
  | masterTakeover (t : Tuple)
  /-- R74. The offset has stayed within 1 µs for 100 ms and the lock goes from ACQUIRE to COARSE. -/
  | acquireDwell
  /-- R74. The offset has stayed within 10 ns for 1 s and a follower enters FINE. -/
  | coarseDwell
  /-- R74. A master that has held mastership for 2 s enters FINE. -/
  | masterFineDwell
  /-- R74. The offset has exceeded 15 ns for 10 ms and a follower falls to COARSE. -/
  | fineLossDwell
  /-- R74. HOLD_LIM or the drift bound elapses in holdover and the device falls to FREE. -/
  | holdoverExpire
  /-- R74. The correction has stayed within ±190 ppm for 1 s and CORR_LIMIT clears. -/
  | corrLimitClear
  /-- R76. An edge on BEAM_PPS_IN is timestamped and judged for validity. -/
  | ppsInEdge (falling : Bool) (spacing : Option Nat)
  /-- R76. 1.5 s pass without a 1PPS edge and the 1PPS becomes invalid. -/
  | ppsTimeout
  /-- R77. A PTP message received on the selected port updates the slave clock. -/
  | ptpMessage (m : PtpMsg)
  /-- R79. The beam is called to step and the step waits while any rod has its gates on. -/
  | beamStep (r : StepReq)
  /-- R80. A waiting step applies in the tick after the last rod reaches a gates-off state. -/
  | stepApply
  /-- R82. A beam second boundary passes, raising SECOND and BEAM_PPS_OUT. -/
  | beamSecond
  /-- R83. A carrier generator marks a period boundary, and its rods' period frames follow. -/
  | carrierBoundary (g : Fin 24) (n : Option (Fin 24))
  /-- R83. A generator with MID_EN = 1 marks a mid-period frame. -/
  | midFrame (g n : Fin 24)
  /-- R86. A newly enabled generator emits its first boundary on its anchor grid. -/
  | cgStart (g : Fin 24)
  /-- R85. A CROSS generator that waits for fine lock starts once fine lock is reached. -/
  | cgLockStart (g : Fin 24)
  /-- R88. The device floods its gang entries once per second. -/
  | gangTx
  /-- R88. A received GANG flood is compared with the device's own gang entries. -/
  | gangRx (id period anchor : Nat)
  /-- R88. A mismatch has been absent for 2 s and a waiting gang generator may start. -/
  | gangMismatchClear (g : Fin 24)
  /-- R89. A SAMPLE_SYNC_IN edge is judged against the window and replaces the sampling boundary. -/
  | sampleSyncEdge (t : Nat)
  /-- R107. At the cutoff the rod applies commits, takes armed references and computes and releases the segment's edge list. -/
  | updateCutoff (n : Fin 24)
  /-- R108. A write to REF_AB changes the shadow values of phases a and b. -/
  | refAbWrite (w : Writer) (n : Fin 24) (v : Word)
  /-- R108. A write to REF_C changes phase c and arms the shadow set for a cutoff. -/
  | refCWrite (w : Writer) (n : Fin 24) (v : Word)
  /-- R113. At the update point after DESCENT ends the outer gates go off, the inner ones 1 µs later, with a CANCEL. -/
  | modulationEnd (n : Fin 24)
  /-- R125. Released edges are packed into EDGE frames and sent to the enabled links. -/
  | edgeFrameTx (k : Fin 288)
  /-- R123. A TIME frame with the link time of its arrival is sent every TIME_PER. -/
  | timeFrameTx (k : Fin 288)
  /-- R122. A PING is sent every PING_PER, or every 10 µs while the filter is short. -/
  | pingTx (k : Fin 288)
  /-- R122. An ECHO gives a round-trip sample for the delay filter. -/
  | echoRx (k : Fin 288) (tag : Fin 256) (tta : Fin 65536) (elapsed : Nat)
  /-- R133. A heartbeat that passes its CRC updates link status, edge-loss checks, driver faults and UVLO checks. -/
  | heartbeatRx (k : Fin 288) (hb : Heartbeat)
  /-- R133. A FAULT ordered set is decoded, records its code and fires the trip path. -/
  | faultSetRx (k : Fin 288) (code : Fin 256)
  /-- R129. 25 symbols after the first TRIP_OFF, TRIP_OFF follows on the T2 and T3 links. -/
  | tripInnerOff (n : Fin 24)
  /-- R134. A write of REQ_CTL with GO = 1 sends a register request to a driver, or is refused while GO = 1. -/
  | gateReq (w : Writer) (n : Fin 24) (v : Word)
  /-- R134. A driver's RSP completes the request and sets RSP. -/
  | rspRx (k : Fin 288) (status : Fin 256) (data : List Byte)
  /-- R134. No valid RSP arrives within 21 µs and the request is resent or ends in TIMEOUT. -/
  | gateReqRetry (n : Fin 24)
  /-- R135. 64 consecutive valid uplink symbols take a training link to SYNC. -/
  | linkSymbolLock (k : Fin 288)
  /-- R135. 1 ms passes in TRAIN without symbol lock, or in SYNC without reaching UP, and the link goes LOST. -/
  | linkTrainTimeout (k : Fin 288)
  /-- R135. No heartbeat passes its CRC for 3.0 µs, the link goes LOST and the trip path fires. -/
  | linkLost (k : Fin 288)
  /-- R135. 100 µs after LOST the link returns to TRAIN. -/
  | linkRetrain (k : Fin 288)
  /-- R141. A window comparator fires after its filter time and warns, trips or causes a descent. -/
  | comparatorFire (n : Fin 24) (k : Fin 16) (v : Int) (since : Nat)
  /-- R140. The comparator's input returns inside the hysteresis band and it re-arms. -/
  | comparatorRearm (n : Fin 24) (k : Fin 19) (v : Int)
  /-- R142. A di/dt detector fires and raises the fault cause DIDT. -/
  | didtFire (n : Fin 24) (x : Fin 3) (v : Int)
  /-- R143. A blanking window closes and masked detectors that are asserted fire. -/
  | blankClose (n : Fin 24) (x : Fin 3) (cmps : List (Fin 16 × Int × Nat)) (v : Int)
  /-- R158. CMD.START runs the trip-path test, identity read and CLEAR before PRECHARGE, or is refused. -/
  | rodStart (w : Writer) (n : Fin 24)
  /-- R413. The trip-path test before a START passes or fails within 10 µs. -/
  | tripPathTest (n : Fin 24)
  /-- R164. The identity reads of three positions complete, start new life records if needed and let START proceed. -/
  | idReadDone (n : Fin 24)
  /-- R158. CMD.RUN starts diagnostics or closes the breaker on the way to RUN. -/
  | rodRun (w : Writer) (n : Fin 24)
  /-- R158. CMD.STOP starts a normal stop from PRECHARGE, READY or RUN. -/
  | rodStop (w : Writer) (n : Fin 24)
  /-- R148. CMD.CLEAR takes a rod from FAULT to OFF when no cause remains. -/
  | rodClear (w : Writer) (n : Fin 24)
  /-- R145. CMD.TRIP raises the fault cause SW_TRIP. -/
  | swTrip (w : Writer) (n : Fin 24)
  /-- R152. CMD.CLR_LOCKOUT clears LOCKOUT and PC_SHORTS. -/
  | clrLockout (w : Writer) (n : Fin 24)
  /-- R150. At 1τ V_dc is checked for a short or a too-fast charge. -/
  | precharge1tau (n : Fin 24)
  /-- R150. At 3τ V_dc is checked and the contactor is commanded closed or PC_SLOW raised. -/
  | precharge3tau (n : Fin 24)
  /-- R152. 60 s after a short the hold-off ends. -/
  | holdoffEnd (n : Fin 24)
  /-- R617. Contactor and breaker feedback are sampled every 10 µs and advance the sequencer. -/
  | feedbackSample (n : Fin 24) (cont brk : Bool)
  /-- R145. Contactor or breaker feedback does not follow within CONT_TIME or BRK_TIME. -/
  | feedbackTimeout (n : Fin 24) (brk : Bool)
  /-- R617. V_dc and V_s conditions are evaluated at a slot write or every 10 µs. -/
  | voltageEval (n : Fin 24)
  /-- R149. After 20 ms in STEP = ENERGISE the rod enters RUN. -/
  | energiseDone (n : Fin 24)
  /-- R160. A diagnostic step ends after DIAG_SETTLE and the phase voltages are judged. -/
  | diagStepEnd (n : Fin 24)
  /-- R157. The descent factor reaches 0 with small currents and the rod leaves DESCENT for GATES_OFF. -/
  | descentEnd (n : Fin 24)
  /-- R157. DESCENT has not ended DESC_TIME + 100 ms after entry. -/
  | descTimeout (n : Fin 24)
  /-- R155. The DC link is not below DIS_VSAFE after DIS_LIM and DIS_FAIL is raised. -/
  | disLimExpire (n : Fin 24)
  /-- R155. The discharge command turns off after DIS_STOP and DIS_ABANDON is set. -/
  | disStopExpire (n : Fin 24)
  /-- R167. Each millisecond the rainflow counter takes TJ_EST and counts closed cycles and damage. -/
  | rainflowTick (n : Fin 24)
  /-- R169. Every 60 s the rod sets LIFE_SNAP. -/
  | lifeSnap (n : Fin 24)
  /-- R181. A trigger event becomes pending or is taken by a waiting sequencer entry. -/
  | acqTrigger (k : Fin 4) (c : Fin 12) (src : Fin 2)
  /-- R179. A write of ACQ.SWTRIG raises a software trigger for a converter. -/
  | softwareTrigger (w : Writer) (k : Fin 4) (v : Word)
  /-- R177. The sequencer starts a conversion at its sampling instant, slipping if late. -/
  | seqConversion (k : Fin 4) (c : Fin 12)
  /-- R183. A conversion writes its result slot and the sequencer advances. -/
  | conversionDone (k : Fin 4) (c : Fin 12) (samples : List Int)
  /-- R182. A write of URG enqueues an urgent conversion, or is refused when the queue is full. -/
  | urgentRequest (w : Writer) (k : Fin 4) (c : Fin 12) (v : Word)
  /-- R178. A write to a sequencer table word takes effect at once unless it lies in the active range. -/
  | seqTableWrite (w : Writer) (k : Fin 4) (c : Fin 12) (e : Fin 64) (i : Fin 2) (v : Word)
  /-- R174. An awake converter with free time converts a calibration reference and corrects a slice. -/
  | calConversion (k : Fin 4) (c : Fin 12) (slice : Fin 4)
  /-- R174. An awake converter has made no reference conversion for 100 ms. -/
  | calStarved (k : Fin 4) (c : Fin 12)
  /-- R175. A napping sequencer wakes its converter 25 µs before its next trigger instant. -/
  | converterWake (k : Fin 4) (c : Fin 12)
  /-- R175. A waking converter becomes ready and delayed instants run. -/
  | converterReady (k : Fin 4) (c : Fin 12)
  /-- R188. A matching released edge counts and may start a capture. -/
  | digitizerEdge (k : Fin 4) (d : Fin 2) (rod : Fin 6) (pos : Fin 12) (on : Bool) (t : Nat)
  /-- R188. A timed capture starts when the beam nanoseconds equal TD_TIME_NS. -/
  | timedCaptureStart (k : Fin 4) (d : Fin 2)
  /-- R189. A capture completes its samples in the capture buffer. -/
  | captureEnd (k : Fin 4) (d : Fin 2) (samples : List Int)
  /-- R190. The digitizer extracts F0 to F2 of a capture and feeds the life record. -/
  | featureExtract (k : Fin 4) (d : Fin 2)
  /-- R192. A completed capture record is copied to the APC ring when room exists. -/
  | drainRecord (k : Fin 4)
  /-- R194. A napping digitizer wakes after TD_EVERY − 16 edges or before a timed capture. -/
  | digitizerWake (k : Fin 4) (d : Fin 2)
  /-- R213. A write of EN = 1 starts a stopped reckoner at ENTRY. -/
  | reckEnable (w : Writer) (k : Fin 32)
  /-- R213. A write of EN = 0 stops a reckoner after its outstanding stores and spill. -/
  | reckDisable (w : Writer) (k : Fin 32)
  /-- R213. A stopping reckoner completes its stores and spill and reaches STOPPED. -/
  | reckStopped (k : Fin 32)
  /-- R212. CTL.CLR_FATAL takes a fatal reckoner to STOPPED. -/
  | clrFatal (w : Writer) (k : Fin 32)
  /-- R203. An access to MEM_DATA reads or writes IRAM or DRAM and advances MEM_ADDR. -/
  | memDataAccess (w : Writer) (k : Fin 32) (wr : Option Word) (ecc : Ecc)
  /-- R209. A write of RECK.SWTRIG raises an event on a software source. -/
  | reckSwtrig (w : Writer) (k : Fin 32) (v : Word)
  /-- R209. A trigger event adds to PEND and counts an overrun if the program runs. -/
  | reckTriggerEvent (k : Fin 32) (i : Fin 4)
  /-- R210. A sleeping reckoner wakes on a pending source in its mask and continues after WAITF. -/
  | reckWake (k : Fin 32)
  /-- R208. The spill engine completes a spill or fill and the CALL or RET completes. -/
  | spillComplete (k : Fin 32) (ecc : Ecc)
  /-- R216. A sleeping reckoner's migration to the spare core starts. -/
  | migrationStart (k : Fin 32)
  /-- R216. A migration completes and the reckoner sleeps or runs on its new core. -/
  | migrationDone (k : Fin 32)
  /-- R219. An unlisted opcode, function or field takes the ILLEGAL trap. -/
  | illegalInstruction (k : Fin 32) (ecc : Ecc)
  /-- R225. Integer add. -/
  | add (k : Fin 32)
  /-- R225. Integer add with carry. -/
  | adc (k : Fin 32)
  /-- R225. Integer subtract. -/
  | sub (k : Fin 32)
  /-- R225. Integer subtract with borrow. -/
  | sbc (k : Fin 32)
  /-- R225. Integer negate. -/
  | neg (k : Fin 32)
  /-- R225. Compare, setting flags only. -/
  | cmp (k : Fin 32)
  /-- R225. Bitwise AND. -/
  | and (k : Fin 32)
  /-- R225. Bitwise OR. -/
  | or (k : Fin 32)
  /-- R225. Bitwise XOR. -/
  | xor (k : Fin 32)
  /-- R226. Shift left by a register amount. -/
  | shl (k : Fin 32)
  /-- R226. Logical shift right by a register amount. -/
  | shr (k : Fin 32)
  /-- R226. Arithmetic shift right by a register amount. -/
  | shra (k : Fin 32)
  /-- R225. Low 32 bits of a product. -/
  | mul (k : Fin 32)
  /-- R225. High 32 bits of a signed product. -/
  | mulh (k : Fin 32)
  /-- R225. High 32 bits of an unsigned product. -/
  | mulhu (k : Fin 32)
  /-- R229. Signed division with defined edge results. -/
  | div (k : Fin 32)
  /-- R229. Unsigned division. -/
  | divu (k : Fin 32)
  /-- R229. Signed remainder. -/
  | rem (k : Fin 32)
  /-- R229. Unsigned remainder. -/
  | remu (k : Fin 32)
  /-- R225. Signed minimum. -/
  | min (k : Fin 32)
  /-- R225. Signed maximum. -/
  | max (k : Fin 32)
  /-- R225. Signed clamp between two registers. -/
  | limit (k : Fin 32)
  /-- R225. Select one of two registers by a condition code. -/
  | sel (k : Fin 32)
  /-- R225. Count leading zeros. -/
  | clz (k : Fin 32)
  /-- R225. Sign-extend the low half-word. -/
  | exth (k : Fin 32)
  /-- R225. Sign-extend the high half-word. -/
  | exthh (k : Fin 32)
  /-- R225. Pack two half-words. -/
  | packh (k : Fin 32)
  /-- R227. Saturating add. -/
  | adds (k : Fin 32)
  /-- R227. Saturating subtract. -/
  | subs (k : Fin 32)
  /-- R227. Saturating negate. -/
  | negs (k : Fin 32)
  /-- R227. Absolute value modulo 2³². -/
  | abs (k : Fin 32)
  /-- R227. Saturating absolute value. -/
  | abss (k : Fin 32)
  /-- R228. Saturating shift left. -/
  | shls (k : Fin 32)
  /-- R227. Saturate to 16 bits. -/
  | sath (k : Fin 32)
  /-- R228. Q31 multiply with rounding and saturation. -/
  | qmul (k : Fin 32)
  /-- R228. Q31 multiply-accumulate. -/
  | qmac (k : Fin 32)
  /-- R228. Q31 multiply-subtract. -/
  | qmsu (k : Fin 32)
  /-- R229. Q31 division. -/
  | qdiv (k : Fin 32)
  /-- R232. Binary32 add. -/
  | fadd (k : Fin 32)
  /-- R232. Binary32 subtract. -/
  | fsub (k : Fin 32)
  /-- R232. Binary32 multiply. -/
  | fmul (k : Fin 32)
  /-- R232. Binary32 divide, never trapping. -/
  | fdiv (k : Fin 32)
  /-- R232. Fused multiply-add. -/
  | fma (k : Fin 32)
  /-- R232. Fused multiply-subtract. -/
  | fms (k : Fin 32)
  /-- R232. Binary32 square root. -/
  | fsqrt (k : Fin 32)
  /-- R232. IEEE minimumNumber. -/
  | fmin (k : Fin 32)
  /-- R232. IEEE maximumNumber. -/
  | fmax (k : Fin 32)
  /-- R232. Clear the sign bit. -/
  | fabs (k : Fin 32)
  /-- R232. Invert the sign bit. -/
  | fneg (k : Fin 32)
  /-- R232. Floating-point compare setting the condition flags. -/
  | fcmp (k : Fin 32)
  /-- R232. Floating-point clamp. -/
  | flim (k : Fin 32)
  /-- R232. Binary32 to INT32. -/
  | ftoi (k : Fin 32)
  /-- R232. INT32 to binary32. -/
  | itof (k : Fin 32)
  /-- R232. Binary32 to Q31. -/
  | ftoq (k : Fin 32)
  /-- R232. Q31 to binary32. -/
  | qtof (k : Fin 32)
  /-- R238. Sine and cosine of an angle into a pair. -/
  | sincos (k : Fin 32)
  /-- R238. Clarke transform of a triple. -/
  | clarke (k : Fin 32)
  /-- R238. Inverse Clarke transform of a pair. -/
  | iclarke (k : Fin 32)
  /-- R238. Park transform. -/
  | park (k : Fin 32)
  /-- R238. Inverse Park transform. -/
  | ipark (k : Fin 32)
  /-- R240. One PID step on a memory block. -/
  | pidf (k : Fin 32) (ecc : Ecc)
  /-- R233. Add a sign-extended immediate. -/
  | addi (k : Fin 32)
  /-- R233. AND with a zero-extended immediate. -/
  | andi (k : Fin 32)
  /-- R233. OR with a zero-extended immediate. -/
  | ori (k : Fin 32)
  /-- R233. XOR with a zero-extended immediate. -/
  | xori (k : Fin 32)
  /-- R233. Load an immediate into the upper half. -/
  | lui (k : Fin 32)
  /-- R233. Compare with an immediate. -/
  | cmpi (k : Fin 32)
  /-- R226. Shift left by an immediate. -/
  | shli (k : Fin 32)
  /-- R226. Logical shift right by an immediate. -/
  | shri (k : Fin 32)
  /-- R226. Arithmetic shift right by an immediate. -/
  | shrai (k : Fin 32)
  /-- R234. Load a word. -/
  | ld (k : Fin 32) (e : Ecc)
  /-- R234. Store a word. -/
  | st (k : Fin 32)
  /-- R235. Conditional branch. -/
  | brc (k : Fin 32)
  /-- R235. Branch if zero. -/
  | bz (k : Fin 32)
  /-- R235. Branch if not zero. -/
  | bnz (k : Fin 32)
  /-- R206. Call into a new column, spilling if needed. -/
  | call (k : Fin 32)
  /-- R236. No effect. -/
  | nop (k : Fin 32)
  /-- R205. Read a special register. -/
  | mfs (k : Fin 32)
  /-- R205. Write a special register. -/
  | mts (k : Fin 32)
  /-- R235. Jump to a register target. -/
  | jr (k : Fin 32)
  /-- R236. Call to a register target. -/
  | callr (k : Fin 32)
  /-- R207. Return to the caller column, filling if needed, or return from a trap in c7. -/
  | ret (k : Fin 32)
  /-- R236. Take the SOFT trap. -/
  | trap (k : Fin 32)
  /-- R210. Complete board stores and sleep until a source in the mask is pending. -/
  | waitf (k : Fin 32)
  /-- R245. A pass mark starts an inner-loop run, or is skipped as late. -/
  | loopRun (n : Fin 24)
  /-- R246. An inner-loop run completes and writes the rod's reference set. -/
  | loopRunComplete (n : Fin 24)
  /-- R249. A write to IREF_D stages the d-axis reference. -/
  | irefDWrite (w : Writer) (n : Fin 24) (v : Word)
  /-- R249. A write to IREF_Q stages the q axis and makes the pair available. -/
  | irefQWrite (w : Writer) (n : Fin 24) (v : Word)
  /-- R249. A write to THETA_NS or OMEGA stages part of the angle set. -/
  | angleStageWrite (w : Writer) (n : Fin 24) (omega : Bool) (v : Word)
  /-- R249. A write to THETA makes the angle set available and clears ANG_OLD. -/
  | thetaWrite (w : Writer) (n : Fin 24) (v : Word)
  /-- R252. A write to a learner bin, refused while the learner is enabled. -/
  | learnerBinWrite (w : Writer) (n : Fin 24) (b : Fin 4096) (v : Word)
  /-- R254. LRN_CTL.CLR sets all 4,096 bins to 0. -/
  | lrnClr (w : Writer) (n : Fin 24) (v : Word)
  /-- R269. A write to M_OFS sets REF_OK, or is refused while the source is PCNT. -/
  | mOfsWrite (w : Writer) (n : Fin 24) (v : Word)
  /-- R289. The device sends a RENEW every 100 ms while it has or requests a lease. -/
  | renewSend
  /-- R291. 20 ms pass without an ACK and the same RSEQ is resent. -/
  | renewRetry
  /-- R290. The acting home handles a RENEW: new lease, renewal, release and grant, or refusal. -/
  | renewRx (src : Fin 4096) (m : Renew)
  /-- R291. The device takes the ledger's count from an ACK and places its beads. -/
  | beadAckRx (src : Fin 4096) (m : BeadAck)
  /-- R292. A reclaim NOTICE takes a lapsed device to NONE. -/
  | noticeRx (reason : Fin 65536)
  /-- R286. HOME_CMD MINT adds to the pool and MINTED. -/
  | mint (w : Writer)
  /-- R286. HOME_CMD RETIRE adds to RET_PEND. -/
  | retire (w : Writer)
  /-- R286. HOME_CMD CANCEL_RETIRE sets RET_PEND to 0. -/
  | cancelRetire (w : Writer)
  /-- R296. HOME_CMD RECONCILE copies one replica over the other and clears FROZEN. -/
  | reconcile (w : Writer)
  /-- R287. Every 1 ms the acting home retires pending beads and reclaims lapsed leases. -/
  | ledgerTick
  /-- R288. Every 10 ms the home recomputes every device's target. -/
  | targetRecompute
  /-- R283. The standby applies a REPL step in LSEQ order and acknowledges it. -/
  | replRx (hepoch lseq : Nat) (st : LedgerStep)
  /-- R283. A REPL_ACK commits the acting home's step. -/
  | replAckRx (hepoch lseq : Nat) (want : HomeAsk)
  /-- R296. Each home sends HOME_HB every 5 ms, with a digest once a second. -/
  | homeHbTx (digest : Bool)
  /-- R296. A HOME_HB is received and its digest compared, freezing on a difference. -/
  | homeHbRx (hepoch lseq : Nat) (digest : Option (Nat × Nat)) (eccOk : Bool)
  /-- R284. A home copies the other home's ledger after a role change. -/
  | ledgerCopyRx (hepoch : Nat) (l : Ledger)
  /-- R284. The peer home has been silent for 30 ms; the home goes SOLO, takes over or becomes LOST. -/
  | peerSilent
  /-- R293. The beam reaches expiry − RAMP without renewal and the placement ramp starts. -/
  | rampStart
  /-- R293. Each millisecond in RAMP the placement is scaled toward 0. -/
  | rampTick
  /-- R292. The device's lease reaches expiry and lapses with placement 0. -/
  | leaseLapse
  /-- R292. 50 ms after expiry a lapsed device returns to NONE. -/
  | lapseTimeout
  /-- R310. A cell-estimator round starts at its beam time, or is skipped on overrun. -/
  | estimatorRound
  /-- R308. A round completes, writes outputs and health weights, and a snapshot. -/
  | roundComplete
  /-- R309. CELL_CMD.LOAD writes SOC and health into the selected cell. -/
  | cellLoad (w : Writer)
  /-- R309. CELL_CMD.RESET restarts the selected cell as new. -/
  | cellReset (w : Writer)
  /-- R307. CELL_CMD.EXCLUDE excludes the selected cell. -/
  | cellExclude (w : Writer)
  /-- R307. CELL_CMD.INCLUDE ends a commanded exclusion. -/
  | cellInclude (w : Writer)
  /-- R317. Enabling the estimator checks every chemistry table in use. -/
  | ceaEnable (w : Writer)
  /-- R313. A write of EIS.REQ makes rods due for an impedance run. -/
  | eisReq (w : Writer) (v : Word)
  /-- R315. A due rod idle for IDLE_HOLD starts a run and sends SAMPLE_PLAN. -/
  | eisStart (r : Fin 24)
  /-- R315. At t₀ − 50 ms the plan is checked as acknowledged or aborted. -/
  | eisPlanDeadline (r : Fin 24)
  /-- R315. At t₀ the multisine injection starts. -/
  | eisInjectStart (r : Fin 24)
  /-- R315. At t₀ + 10 s current amplitudes start. -/
  | eisMeasureStart (r : Fin 24)
  /-- R315. At the end of MEASURE the injection stops and results are collected. -/
  | eisMeasureEnd (r : Fin 24)
  /-- R315. 5 s after MEASURE without all results the run aborts. -/
  | eisCollectTimeout (r : Fin 24)
  /-- R324. A received CAN frame is filtered and queued. -/
  | canFrameRx (n : Fin 32) (f : CanFrame) (sof : Nat)
  /-- R327. A frame transmission ends, sent or retried. -/
  | canFrameTxDone (n : Fin 32) (r : TxRes) (sof : Nat)
  /-- R327. TXW_CTL.PUSH copies a frame into the transmit FIFO. -/
  | txPush (w : Writer) (n : Fin 32) (v : Word)
  /-- R328. CMD.ABORT_HEAD removes the FIFO head frame. -/
  | abortHead (w : Writer) (n : Fin 32)
  /-- R326. CMD.RX0_POP removes the head of RXQ0. -/
  | rx0Pop (w : Writer) (n : Fin 32)
  /-- R326. CMD.RX1_POP removes the head of RXQ1. -/
  | rx1Pop (w : Writer) (n : Fin 32)
  /-- R329. CMD.BO_RECOVER permits recovery from bus-off. -/
  | boRecover (w : Writer) (n : Fin 32)
  /-- R329. 128 × 11 recessive bits end bus-off. -/
  | busOffRecovery (n : Fin 32)
  /-- R323. DWELL passes without a complete frame and detection tries the next candidate. -/
  | rateDwellTimeout (n : Fin 32)
  /-- R330. CTL.SLEEP written 1 or 0 puts the controller to sleep or wakes it. -/
  | sleepRequest (w : Writer) (n : Fin 32) (on : Bool)
  /-- R330. The FIFO empties or 100 ms pass, then the bus idles, and the controller is ASLEEP. -/
  | enterAsleep (n : Fin 32)
  /-- R332. The always-on watch sees a waking edge or frame and wakes the segment. -/
  | watchWake (n : Fin 32) (f : Option CanFrame)
  /-- R332. A non-matching frame or 2 ms without one stops the watch oscillator. -/
  | watchFalse (n : Fin 32)
  /-- R330. A disabled controller ends its frame in progress and reaches OFF. -/
  | controllerShutDone (n : Fin 32)
  /-- R335. A TIME_REF falls due and is offered from the slot. -/
  | timeRefDue (n : Fin 32)
  /-- R335. CMD.TREF_NOW makes a TIME_REF due at once. -/
  | trefNow (w : Writer) (n : Fin 32)
  /-- R334. The watch controller sends WAKE UNAVAILABLE on MB0 every 10 s. -/
  | unavailableTx
  /-- R340. The LAST frame does not arrive within 100 ms and the message is dropped. -/
  | messageStall (n : Fin 32) (a : Fin 24) (cls : Fin 9)
  /-- R345. A complete REPORT CELLS is delivered to the estimator. -/
  | reportCellsRx (n : Fin 32)
  /-- R347. A complete ALARM is acknowledged and written to the ring once. -/
  | alarmRx (n : Fin 32)
  /-- R341. A WAKE_REQ message goes to the ring. -/
  | wakeReqRx (n : Fin 32)
  /-- R341. A BALANCE ACK goes to the ring. -/
  | balanceAckRx (n : Fin 32)
  /-- R350. A SAMPLE_PLAN ACK goes to the EIS block. -/
  | samplePlanAckRx (n : Fin 32)
  /-- R351. A BURST_UPLOAD EIS_RESULT is taken by the EIS block. -/
  | eisResultRx (n : Fin 32)
  /-- R355. An IDENT RESPONSE is verified and compared with the stored KEY_ID. -/
  | identResponseRx (n : Fin 32)
  /-- R357. A LIFE RESPONSE is verified and its throughput compared with the rod's tallies. -/
  | lifeResponseRx (n : Fin 32)
  /-- R353. CMD.IDENT_ALL challenges every address. -/
  | identAll (w : Writer) (n : Fin 32)
  /-- R353. CMD.LIFE_ALL sends LIFE challenges. -/
  | lifeAll (w : Writer) (n : Fin 32)
  /-- R353. IDENT_PER hours pass and IDENT challenges are sent. -/
  | identPeriodic (n : Fin 32)
  /-- R353. LIFE_PER minutes pass and LIFE challenges are sent. -/
  | lifePeriodic (n : Fin 32)
  /-- R353. 500 ms pass without an answer and the MPE challenges again. -/
  | challengeTimeout (n : Fin 32) (a : Fin 24) (life : Bool)
  /-- R364. Every 100 ms the field dies read thermal, supply and die sensors and evaluate limits. -/
  | housekeepingRound (r : HkRound)
  /-- R365. At each whole second the 1-second means and rates are formed and rate limits evaluated. -/
  | rateEval
  /-- R371. A write of 1 to a thermal latch clears it only when the source is below warning. -/
  | latchClear (w : Writer) (reg : Fin 4) (v : Word)
  /-- R373. Once per second in REST FD0 compares TS0–TS15 with TRIP_HI. -/
  | restThermCheck (ts : List ThSample)
  /-- R375. A write to TARGET starts a trapezoidal move, clipped or refused. -/
  | stepTarget (w : Writer) (n : Fin 32) (v : Word)
  /-- R376. CMD.STOP decelerates the channel to rest. -/
  | stepStop (w : Writer) (n : Fin 32)
  /-- R376. CMD.HALT stops the channel at once. -/
  | stepHalt (w : Writer) (n : Fin 32)
  /-- R376. CMD.HOME moves to a stall and sets the home position. -/
  | stepHome (w : Writer) (n : Fin 32)
  /-- R376. A write to POS sets the position at rest, or is refused in motion. -/
  | stepPosWrite (w : Writer) (n : Fin 32) (v : Word)
  /-- R375. Every 1 µs the profile is recomputed and a move may end. -/
  | stepperTick (n : Fin 32)
  /-- R377. Every 1 ms in motion the load angle is estimated and I_SET adjusted. -/
  | loadAngleEstimate (n : Fin 32) (c : CoilSense)
  /-- R379. STANDSTILL_T after a move the coils enter standstill mode. -/
  | standstillEntry (n : Fin 32)
  /-- R380. A coil current below half its set-point for 2 ms stops the channel. -/
  | coilOpenDetect (n : Fin 32) (coilB : Bool) (cur us : Nat)
  /-- R380. A current above 1.25 × I_MAX for 10 µs releases the outputs. -/
  | overcurrentDetect (n : Fin 32) (cur us : Nat)
  /-- R381. A disabled channel ends its deceleration and releases its outputs. -/
  | stepperShutDone (n : Fin 32)
  /-- R382. A filtered line change is counted, or flagged as illegal or overrate. -/
  | pcntEdge (n : Fin 16) (e : CntEdges)
  /-- R383. A write to COUNT sets the count and shifts the observer. -/
  | countWrite (w : Writer) (n : Fin 16) (v : Word)
  /-- R384. Every 1 µs the tracking observer updates position, speed and acceleration. -/
  | observerUpdate (n : Fin 16)
  /-- R391. Every 125 µs the safety kernel applies demands, runs monitors and checks outputs. -/
  | safetyCycle (rb : Fin 16) (busy : Fin 262144)
  /-- R393. Every 10 µs under the SGR block TRIP_OFF is resent on all links. -/
  | sgrTripResend (r : Fin 24)
  /-- R401. A filtered SAFE_IN level is taken after 1.0 ms. -/
  | safeInLevel (i : Fin 8) (v : Bool)
  /-- R401. A pair's filtered levels differ for longer than DISC and a latching demand is made. -/
  | pairDiscrepancy (m : Fin 4)
  /-- R404. A valid SAFE_RST pulse clears LATCH bits of rods with no cause present. -/
  | safetyReset (ms : Nat)
  /-- R403. SAFE_RST has been high for more than 3,000 ms and JAMMED is set. -/
  | resetJammed
  /-- R407. A safe message is sent every TX_PER and on a change of DEMAND. -/
  | safeMsgTx
  /-- R408. A safe-message copy is checked, accepted and paired. -/
  | safeMsgRx (eth : Bool) (b : List Nat)
  /-- R409. No twin arrives within PAIR_WIN and the copy is accepted as single. -/
  | pairWinExpire (j : Fin 16)
  /-- R409. Messages on one network only for SINGLE_LIM latch MSG_SINGLE. -/
  | singleLimExpire (j : Fin 16)
  /-- R409. No copy accepted for WDT ms latches MSG_WDT. -/
  | safeMsgWdt (j : Fin 16)
  /-- R410. The checker's outputs differ from the main core's and a pair fault latches. -/
  | lockstepMismatch (pc : Word)
  /-- R410. A double-bit error in pair memory is a pair fault. -/
  | pairEccError (e : Ecc) (addr : Fin 131072) (pc : Word)
  /-- R410. The kernel kicks the watchdog outside its window and a pair fault latches. -/
  | pairWdtFault (pc : Word)
  /-- R413. A day of the AON counter passes and TEST_AGE increments, possibly setting TEST_DUE. -/
  | testAgeTick
  /-- R502. The scrubber completes a pass over pair memory. -/
  | scrubPass (e : Ecc) (addr : Fin 131072) (pc : Word)
  /-- R418. Block lock held for 1 ms takes a training link to HELLO. -/
  | fabBlockLock (l : Fin 4)
  /-- R418. A HELLO is sent every 10 µs in HELLO and every 1 ms while UP. -/
  | helloTx (l : Fin 4)
  /-- R420. A peer's HELLO is checked and moves the link to RESYNC or FAULT. -/
  | helloRx (l : Fin 4) (h : Option Hello)
  /-- R418. 20 ms without a valid HELLO returns the link to TRAIN. -/
  | helloTimeout (l : Fin 4)
  /-- R418. Once per second a faulted link rechecks its peer's HELLO. -/
  | faultRecheck (l : Fin 4)
  /-- R418. RESYNC does not complete within 1 ms and the link goes to HOLD. -/
  | resyncTimeout (l : Fin 4)
  /-- R418. Block lock lost for 10 µs takes the link to HOLD. -/
  | blockLockLoss (l : Fin 4)
  /-- R418. 20 µs without a frame passing its CRC takes the link to HOLD. -/
  | linkSilent (l : Fin 4)
  /-- R418. The hold time elapses and the link returns to TRAIN. -/
  | holdEnd (l : Fin 4)
  /-- R421. A link has trained for 150 ms and COORD_OK may be reached. -/
  | coordWaitExpire (l : Fin 4)
  /-- R425. A parcel is accepted in sequence and forwarded, flooded or delivered. -/
  | parcelRx (l : Fin 4) (p : Option Parcel)
  /-- R424. A STATUS frame is sent at least once per microsecond. -/
  | statusTx (l : Fin 4)
  /-- R426. A STATUS returns credits, acknowledges parcels and may start a replay. -/
  | statusRx (l : Fin 4) (m : LinkStatus)
  /-- R425. A parcel unacknowledged for 10 µs is replayed. -/
  | replayTimeout (l : Fin 4)
  /-- R427. A RESYNC_REQ is answered once the VCs drain. -/
  | resyncReqRx (l : Fin 4) (mask : Fin 16) (next : Fin 4096)
  /-- R427. A RESYNC_ACK restores full credits on the VCs. -/
  | resyncAckRx (l : Fin 4) (mask : Fin 16) (freed : List Nat)
  /-- R427. RESYNC_REQ is resent every 10 µs until answered. -/
  | resyncReqResend (l : Fin 4)
  /-- R435. The device floods ANNOUNCE every 100 ms. -/
  | announceTx
  /-- R440. An ANNOUNCE updates DISC, the link map and BOOT notices. -/
  | announceRx (l : Fin 4)
  /-- R435. A candidate floods ELECT every 10 ms and on a tuple change. -/
  | electTx
  /-- R440. No ANNOUNCE for UNREACH_MS declares a device unreachable. -/
  | deviceUnreachable (a : Fin 4096)
  /-- R436. A board request is executed and answered with a BRSP. -/
  | breqRx (l : Fin 5) (e : Ecc)
  /-- R437. A board response completes its descriptor. -/
  | brspRx (l : Fin 5)
  /-- R437. A write of TXQ_WR hands descriptors to the transaction engine. -/
  | txqWrWrite (w : Writer) (v : Word)
  /-- R437. A fabric request without response completes with TIMEOUT. -/
  | txnTimeout (tag : Fin 65536)
  /-- R439. A parcel not taken by its consumer within 10 ms is discarded. -/
  | deliverDrop (l : Fin 5)
  /-- R442. 50 ms after COORD_OK the device takes the lowest tuple heard as master. -/
  | masterTake
  /-- R450. A TCP connection's first record reaches the session port and is passed on or refused. -/
  | connectionArrival (k : Fin 2) (data : List Nat)
  /-- R450. A TLS record is decrypted or closes the session on an AEAD failure. -/
  | recordRx (n : Fin 1024) (ct : Nat) (m : Option (List Nat))
  /-- R459. 1.0 µs after decryption the gate answers or passes the request. -/
  | gateDecision (n : Fin 1024)
  /-- R452. A READ request reads a page burst. -/
  | sessionRead (n : Fin 1024)
  /-- R456. A WRITE request writes a page burst under the grant's rights. -/
  | sessionWrite (n : Fin 1024)
  /-- R463. OPEN_TUNNEL opens a channel to another device. -/
  | openTunnel (n : Fin 1024)
  /-- R465. CLOSE_TUNNEL closes a channel. -/
  | closeTunnel (n : Fin 1024)
  /-- R462. A SERVICE request is written to the service ring. -/
  | service (n : Fin 1024)
  /-- R458. Every 1 ms each bucket refills at its rate. -/
  | tokenRefill
  /-- R460. No request for IDLE seconds closes the session. -/
  | sessionIdle (n : Fin 1024)
  /-- R460. The peer closes or TCP resets and the session closes. -/
  | sessionPeerClose (n : Fin 1024) (reset : Bool)
  /-- R460. SESS_CMD.OPEN opens a session slot with its keys. -/
  | sessOpen (w : Writer)
  /-- R460. SESS_CMD.CLOSE closes the selected session. -/
  | sessClose (w : Writer)
  /-- R463. SESS_CMD.REFUSE refuses a waiting tunnel request. -/
  | sessRefuse (w : Writer)
  /-- R462. SVC_RSP_CTL.GO sends firmware's reply to a SERVICE request. -/
  | serviceReply (w : Writer) (v : Word)
  /-- R463. A TUNNEL OPEN raises TUN_REQ at the target. -/
  | tunnelOpenRx (src : Fin 4096) (m : TunMsg)
  /-- R463. An OPEN_ACK answers the OPEN_TUNNEL request. -/
  | tunnelOpenAckRx (src : Fin 4096) (m : TunMsg)
  /-- R464. A tunnelled request, joined if fragmented, is handled by the target's gate. -/
  | tunnelReqRx (src : Fin 4096) (m : TunMsg)
  /-- R464. A tunnelled response returns to the client. -/
  | tunnelRspRx (src : Fin 4096) (m : TunMsg)
  /-- R465. A TUNNEL CLOSE closes the channel or tunnel session. -/
  | tunnelCloseRx (src : Fin 4096) (m : TunMsg)
  /-- R463. No answer within TUN_TMO ends OPEN_TUNNEL with TIMEOUT. -/
  | tunnelTimeout (n : Fin 1024) (c : Fin 16)
  /-- R464. A message part waits 10 ms without its partner and is discarded. -/
  | fragmentTimeout
  /-- R467. KEYS command SHA256. -/
  | sha256 (w : Writer)
  /-- R467. KEYS command ED_SIGN. -/
  | edSign (w : Writer) (slot : Fin 256)
  /-- R467. KEYS command ED_VERIFY. -/
  | edVerify (w : Writer) (slot : Fin 256)
  /-- R467. KEYS command X25519. -/
  | x25519 (w : Writer) (slot : Fin 256)
  /-- R467. KEYS command GCM_SEAL. -/
  | gcmSeal (w : Writer) (slot : Fin 256)
  /-- R467. KEYS command GCM_OPEN. -/
  | gcmOpen (w : Writer) (slot : Fin 256)
  /-- R467. KEYS command RANDOM. -/
  | random (w : Writer)
  /-- R467. KEYS command GEN. -/
  | keyGen (w : Writer) (slot : Fin 256) (ty : Fin 16)
  /-- R467. KEYS command IMPORT. -/
  | keyImport (w : Writer) (slot : Fin 256) (ty : Fin 16)
  /-- R467. KEYS command ERASE. -/
  | keyErase (w : Writer) (slot : Fin 256)
  /-- R467. A KEYS command completes with its RESULT. -/
  | cryptoDone
  /-- R467. An entropy health test fails or recovers after 1,024 samples. -/
  | entHealth (fail : Bool)
  /-- R483. A post descriptor is taken and its record appended or refused. -/
  | postTake (z : Option (List Nat))
  /-- R483. A flush round starts on FLUSH_MS, a SYNC post or another trigger. -/
  | flushRound
  /-- R483. TALLY.CMD.FLUSH starts a flush round. -/
  | cmdFlush (w : Writer)
  /-- R483. A flush round's commit word is durable and DUR_RSEQ advances. -/
  | flushRoundDone
  /-- R484. At each whole second a CHARGE record and a SEAL are appended and flushed. -/
  | seal (zs : List (Option (List Nat)))
  /-- R485. TALLY.EN = 1 opens the store with label, commit word and recovery. -/
  | storeOpen (a b : LabelRead)
  /-- R485. The store opening completes and writes RESTART. -/
  | storeOpenDone
  /-- R486. EN = 0 or REST entry seals, flushes and closes the store. -/
  | storeClose
  /-- R479. CMD.FORMAT writes a new label and clears every class. -/
  | format (w : Writer)
  /-- R487. RD_CTL.GO copies bytes of a block to APC memory. -/
  | storeRead (w : Writer) (v : Word)
  /-- R489. A replicated record is reassembled and appended at the peer. -/
  | tallyReplRx (src : Fin 4096) (m : ReplPart)
  /-- R489. A replication acknowledgement releases a record. -/
  | tallyReplAckRx (src : Fin 4096) (c : Fin 6) (orig : Nat)
  /-- R489. A record unacknowledged for 1 s is resent. -/
  | tallyReplResend (c : Fin 6) (rseq : Nat)
  /-- R475. An NVMe command exceeds CAP.TO, is aborted and fails the drive. -/
  | nvmeCmdTimeout (k : Fin 2)
  /-- R475. An NVMe command completes, with an error status failing the drive. -/
  | nvmeCompletion (k : Fin 2) (e : NvmeEv)
  /-- R474. NS_CMD CREATE makes a namespace. -/
  | nsCreate (w : Writer) (k : Fin 2)
  /-- R474. NS_CMD DELETE removes a namespace. -/
  | nsDelete (w : Writer) (k : Fin 2)
  /-- R474. NS_CMD ATTACH attaches a namespace. -/
  | nsAttach (w : Writer) (k : Fin 2)
  /-- R499. WDT_CFG.EN = 1 arms the APC watchdog. -/
  | wdtArm (w : Writer) (period : Fin 65536)
  /-- R499. A write to WDT_KICK reloads the watchdog or sets WDT_KEY. -/
  | wdtKick (w : Writer) (v : Word)
  /-- R499. Half of PERIOD remains and WDT_HALF is set. -/
  | wdtHalf
  /-- R499. The watchdog reaches 0 and resets the RD domain. -/
  | wdtExpire
  /-- R498. MTIME reaches MTIMECMP and a timer interrupt becomes pending. -/
  | timerInterrupt (h : Fin 4)
  /-- R496. A double-bit memory error faults the hart or poisons the line. -/
  | eccDoubleError (ddr : Bool) (addr : Fin 1099511627776) (hart : Option (Fin 4))
  /-- R549. APC.CTL.HART_EN releases a hart at ENTRY. -/
  | hartRelease (w : Writer) (en : Fin 16)
  /-- R504. JTAG instruction IDCODE. -/
  | idcode
  /-- R504. JTAG instruction SAMPLE/PRELOAD. -/
  | samplePreload
  /-- R506. JTAG EXTEST takes the pins and demands SGR on all rods. -/
  | extest
  /-- R506. JTAG EXTEST_PULSE, with the SCAN demand. -/
  | extestPulse
  /-- R506. JTAG EXTEST_TRAIN, with the SCAN demand. -/
  | extestTrain
  /-- R506. JTAG CLAMP, with the SCAN demand. -/
  | clamp
  /-- R506. JTAG HIGHZ, with the SCAN demand. -/
  | highz
  /-- R504. JTAG debug transport control. -/
  | dtmcs
  /-- R505. A DMI access to the debug module, refused by life-cycle state. -/
  | dmi (a : Fin 128) (wr : Bool) (v : Word) (h : Option (Fin 6))
  /-- R504. JTAG BYPASS. -/
  | bypass
  /-- R506. The TAP passes Test-Logic-Reset and the SCAN demand ends. -/
  | tapReset
  /-- R507. The debugger halts a hart or the pair's main core. -/
  | debugHalt (h : Fin 6)
  /-- R507. A halted core resumes. -/
  | debugResume (h : Fin 6)
  /-- R511. The slots are enabled in ascending order, waiting for PG and DELAY. -/
  | powerUpSequence (revs : List Nat)
  /-- R511. A slot's PG rises and the sequence moves on. -/
  | pgRise (i : Fin 8)
  /-- R530. A slot's PG has not risen within 10 ms and the sequence fails. -/
  | pgTimeout (i : Fin 8)
  /-- R530. 100 ms after a failure the sequence runs again, or the device returns to DEEP. -/
  | sequenceRetry
  /-- R513. A PG falls for 10 µs and the slot's domains are reset and retried. -/
  | supplyLoss (i : Fin 8)
  /-- R512. Every 10 ms the supply manager reads STATUS_WORD and READ_IIN. -/
  | pmbusPoll (r : List PmbRead)
  /-- R512. PMB_ALERT_L asserts and status is read and cleared. -/
  | pmbAlert (r : List PmbRes)
  /-- R515. VAUX below 17 V for 200 µs hands the feed to VBAK. -/
  | handoverDecision (vaux vbak : Fin 65536)
  /-- R515. 50 µs after hand-over PATH = BAK. -/
  | handoverDone
  /-- R515. VAUX above 19 V for 500 ms returns the feed. -/
  | returnDecision
  /-- R515. 50 µs after the return PATH = AUX. -/
  | returnDone
  /-- R515. VBAK below 9.0 V for 1 ms forces entry to DEEP. -/
  | vbakLowDeep (vbak : Fin 65536)
  /-- R517. Every 10 ms on VBAK the backup charge and time are added. -/
  | backupTallyTick
  /-- R519. A crystal becomes ready. -/
  | crystalReady (x : Fin 3)
  /-- R519. A ready crystal stops for 10 µs. -/
  | crystalFail (x : Fin 3)
  /-- R520. A PLL loses lock for 10 µs and resets the domains it clocks. -/
  | pllUnlock (i : Fin 3)
  /-- R529. The main crystal is not ready within 20 ms and the RD runs degraded. -/
  | degradedStart
  /-- R523. A write of REST.REQ.TARGET starts a request or is a CMD wake. -/
  | restRequest (w : Writer) (t : Fin 8)
  /-- R523. REQ.ABORT ends a waiting request. -/
  | restAbort (w : Writer)
  /-- R523. Entry conditions do not hold within ENTRY_TMO and the request fails. -/
  | requestTimeout
  /-- R524. Entry conditions hold and the device enters QUIET. -/
  | enterQuiet (stop : Option (Fin 8))
  /-- R524. Entry conditions hold and the device runs the REST entry steps. -/
  | enterRest (stop : Option (Fin 8))
  /-- R524. Entry conditions hold and the device enters DEEP. -/
  | enterDeep (stop : Option (Fin 8))
  /-- R525. A wake cause latches and starts a wake or stops an entry. -/
  | wakeCause (c : Fin 8)
  /-- R526. The device reaches WAKE_TO after a wake. -/
  | wakeComplete (us : Fin 1048576)
  /-- R522. LINGER ms after its last access a woken domain rests again. -/
  | domainLingerExpire (i : Fin 8)
  /-- R533. The AON counter equals ALARM. -/
  | aonAlarm
  /-- R598. VAON crosses its threshold and resets all domains. -/
  | powerOnReset (sel : Fin 4) (vaux vbak : Fin 65536) (testEn : Bool)
  /-- R536. RESET_L low for 1 µs or more resets the domains and samples PROF_SEL. -/
  | resetPin (sel : Fin 4) (testEn : Bool)
  /-- R535. A write of SYS.RST_CMD with the right KEY resets its scope. -/
  | softwareReset (w : Writer) (key : Fin 65536) (scope : Fin 16)
  /-- R545. Boot checks the loader, applies a profile, trains LPDDR5 and loads the firmware. -/
  | boot (bad : Word) (mems : List MemTest) (ddr : Option (Fin 3)) (kcrcOk : Bool) (us : Fin 1048576)
  /-- R538. A write of LIFE.ADV burns the next life-cycle state and resets. -/
  | lifeAdvance (w : Writer) (key : Fin 65536) (t : Fin 8) (burn : Fin 3)
  /-- R541. CFW_CMD ERASE erases CF sectors. -/
  | cfErase (w : Writer)
  /-- R541. CFW_CMD PROGRAM writes CF bytes. -/
  | cfProgram (w : Writer)
  /-- R541. A CF operation completes with its result. -/
  | cfOpDone (ok : Bool)
  /-- R552. PROF.SEL_CMD in QUIET sets NEXT and resets. -/
  | profileSelect (w : Writer) (p : Fin 4)
  /-- R551. Loader request STATUS. -/
  | loaderStatus (w : Writer)
  /-- R551. Loader request ERASE. -/
  | loaderErase (w : Writer) (r : Fin 256) (ofs len : Word)
  /-- R551. Loader request WRITE. -/
  | loaderWrite (w : Writer) (r : Fin 256) (ofs : Word) (data : List Nat)
  /-- R551. Loader request RESET. -/
  | loaderReset (w : Writer)
  /-- R554. An event-area entry becomes durable in the CF. -/
  | eventAreaWrite
  /-- R561. A rotation slot falls and migrates or tests a core in place. -/
  | lbistSlot
  /-- R562. The reckoner does not reach SLEEP within WAIT and the slot is skipped. -/
  | slotSkip
  /-- R563. A core's self-test ends, passing or marking the core bad. -/
  | lbistTestDone (pass : Bool) (mems : List MemTest)
  /-- R568. DTE command: destructive memory self-test. -/
  | dteMemoryTest (w : Writer) (id : Fin 256)
  /-- R568. DTE command: logic self-test of a core in place. -/
  | dteLogicTest (w : Writer) (core : Fin 256)
  /-- R568. DTE command: burn the present repairs into fuses. -/
  | dteBurnRepair (w : Writer) (id : Fin 256)
  /-- R568. A DTE operation completes with its code. -/
  | dteDone (pass : Bool) (t : Option MemTest)
  /-- R573. One side of a clock crossing enters reset and the crossing discards its data. -/
  | crossingReset (i : Fin 8) (lost : List (Writer × Fin 4096 × Fin 4096))
  /-- R89. The window of ±WIN ns around an expected SAMPLE_SYNC_IN edge closes without an edge, so sampling uses the beam boundary, SYNC_MISS counts it and eight consecutive misses set SYNC_LOST. -/
  | syncMiss
  /-- R82. BEAM_PPS_OUT falls PPS_OUT.WIDTH ms after the beam second boundary at which it rose. -/
  | ppsOutWidthEnd
  /-- R149. 10 µs after the CLEAR of a START a heartbeat still shows TRIPPED = 1, and the START is refused with DENY = DRV_TRIPPED with the rod staying in OFF. -/
  | drvTrippedTimeout (n : Fin 24)
  /-- R119. An uplink frame on a gate link fails its CRC, type or length check and is discarded and counted in ERRCNT. -/
  | uplinkFrameDiscard (k : Fin 288) (frame : List Byte) (violations : Nat)
  /-- R329. A bit, stuff, form or CRC error is seen while receiving on a module bus, raising the receive error counter and, in DETECT, leaving the candidate rate. -/
  | canBusError (n : Fin 32)
  /-- R449. A plant Ethernet frame that is not session, safe-message or PTP traffic is passed to the APC receive ring, or held in the REST buffer where it wakes the RD domain. -/
  | ethFrameRx (k : Fin 2) (data : List Nat)
  /-- R471. The link or block lock of an ETH port changes, updating STAT.LINK and setting PG_EV_STAT.BLK.LINK_CHG. -/
  | ethLinkChg (k : Fin 2) (link lock : Bool)
  /-- R516. While PATH = BAK, VBAK falls below BAK_WARN, setting STAT.VBAK_LOW and PG_EV_STAT.BLK.BAK_LOW; VBAK reading at or above 9 V clears NO_BACKUP. -/
  | bakLow (vbak : Fin 65536)
  /-- R515. VAUX rises through or falls below 19 V, changing STAT.VAUX_OK and starting or restarting the return timer while in BAK. -/
  | vauxOkChange (vaux : Fin 65536)
  /-- R53. A single domain woken by PWR_REQ, a WAKE-flagged transaction or a plant frame reaches ACTIVE, applies any EN change of the waking write and completes the waiting transaction. -/
  | domainWakeDone (i : Fin 8)
  /-- R194. A waking transient digitizer becomes ready, leaving NAP for ARMED so that later matching edges are captured rather than counted BUSY. -/
  | digitizerReady (k : Fin 4) (d : Fin 2)
  /-- R402. Every 1 ms in REST the AON island samples the enabled SAFE_IN inputs and records the beam time of an input's first low sample for latching at the wake. -/
  | safeInRestSample (levels : Fin 256)
  /-- R30. A read of the low word of a register wider than 32 bits, such as a result slot W0 or RX0_W W0, latches the other words into a shadow. -/
  | lowWordRead (w : Writer) (p off : Fin 4096) (size : Fin 3)
  /-- R360. A read of MBUS MOD_STAT[a] clears its ALARM bit, which shows an alarm since the last read. -/
  | modStatRead (w : Writer) (n : Fin 32) (a : Fin 24)
deriving DecidableEq, Repr

end Sys2Proof
end

