-- ==== Sys2Proof/Config.lean ====
section
/-! DEFINITION. What an implementation fixes, and the free values: numbers the manual leaves open.
The free values are opaque constants, so a claim that holds here holds for every value of them. -/

namespace Sys2Proof.Config

/-- PG_ID.VERSION of every block (R34: "identifies the block revision and may differ between
steppings").  No value is stated, so it is an implementation constant. -/
opaque pgVersion : Nat → BitVec 12

/-- A word the manual leaves open, one for each reading of the free-value counter of the state. -/
opaque freeWord : Nat → BitVec 32

/-- The words of the VSM kernel's image in the boot ROM: IRAM words 0 to 2047, then DRAM words 0 to 511
(R255).  The manual does not print them. -/
opaque kernelWord : Nat → BitVec 32

/-- The SHA-256 digest of a ledger (R296), over its numbers in a fixed order; the manual gives no layout
to hash. -/
opaque ledgerDigest : List Int → Nat

/-- Place, 0 to 111, among the scalars of a chemistry table (R317 names them without their places): 0 the
stoichiometry at 0 %, 1 that at 100 %, 2 NIS_LIM, 3 R_NOM. -/
opaque chemScalar : Nat → Fin 112

/-- The estimator's update of a cell (R302 to R304), whose equations the manual names without giving them: from the
states and parameters, what the round has measured, and the chemistry table, the new word of each place: 0–25 the
states, 26 θ_Q, 27 θ_R, 28 i_sh, 29–64 the covariance, 65 the innovation squared. -/
opaque cellStep : List Nat → List Nat → List Nat → Nat → BitVec 32

/-- The states of a cell at its first update (R309), from what the round has measured and the table. -/
opaque cellStart : List Nat → List Nat → Nat → BitVec 32

/-- The plating margin in mV (R305), from c_n,7, η_n, c_e,n2 and the table. -/
opaque platingMargin : Nat → Nat → Nat → List Nat → BitVec 16

/-- The load angle of a stepper in degrees (R377), from the duties, currents and slopes of coils A and B, the supply
VM, and R_COIL and L_COIL; the manual gives no scale from the sensed currents to amperes. -/
opaque loadAngle : List Int → Nat → Nat → Nat → Int

/-- SYS.ID.STEP of the device (R556): 0 = A0, 1 = A1, 2 = B0, and so on. -/
opaque stepping : Nat

end Sys2Proof.Config
end

