-- ==== Sys2Proof/Machine/RegMap.lean ====
section
/-! DEFINITION. The register map: every register of every page type, with its offset, array
dimensions, writable bits by access code (R39, R615) and reset value, as the register tables of
spec/02 to spec/23 give them.  Bits that carry no access code are read-only. -/

namespace Sys2Proof.Machine

/-- The access codes that let a bit be written (R39).  A bit with no code is RO. -/
inductive Acc where
  | rw | w1c | wo1 | wl | st | sc
deriving DecidableEq, Repr

/-- One register, or one array of registers: offset of the first word, dimensions as
(count, stride in bytes) from the widest stride, writable bits by access code, reset value. -/
structure Reg where
  off : Nat
  dims : List (Nat × Nat)
  acc : List (Acc × Nat)
  reset : Nat
deriving DecidableEq, Repr

/-- Whether a byte distance falls on an element of an array with these dimensions. -/
def dimsHit : List (Nat × Nat) → Nat → Bool
  | [], x => x == 0
  | (n, st) :: ds, x => decide (x / st < n) && dimsHit ds (x % st)

/-- Whether a register (or array) holds the word at an offset. -/
def Reg.hit (r : Reg) (o : Nat) : Bool :=
  decide (r.off ≤ o) && dimsHit r.dims (o - r.off)

/-- The bits of a register that carry one access code. -/
def Reg.bits (r : Reg) (a : Acc) : Nat :=
  ((r.acc.find? (fun p => p.1 == a)).map Prod.snd).getD 0

/-- Registers of the common header (spec/02_counting_boards.md). -/
def regsHdr : List Reg := [
  ⟨0x000, [], [], 0x0⟩, -- PG_ID
  ⟨0x004, [], [(.wo1, 0x80000000), (.rw, 0x00FF0031), (.sc, 0x00000380)], 0x0⟩, -- PG_CTL
  ⟨0x008, [], [], 0x0⟩, -- PG_STAT
  ⟨0x00C, [], [(.w1c, 0xFFFF00FF)], 0x0⟩, -- PG_ERR
  ⟨0x010, [], [(.rw, 0xFFFFFFFF)], 0x0⟩, -- PG_ERRCNT
  ⟨0x014, [], [(.rw, 0xFFFF001F)], 0x0⟩, -- PG_EV_EN
  ⟨0x018, [], [(.w1c, 0xFFFF001F)], 0x0⟩, -- PG_EV_STAT
  ⟨0x01C, [], [(.rw, 0x0000FFFF)], 0x0⟩, -- PG_INJ
  ⟨0x020, [], [], 0x0⟩, -- PG_INJ_CNT
  ⟨0x024, [], [], 0x0⟩, -- PG_LEASE
  ⟨0x028, [], [], 0x0⟩, -- PG_GEN
  ⟨0x02C, [], [], 0x0⟩, -- PG_COMMIT
  ⟨0x030, [], [], 0x0⟩] -- PG_WO_MAP

/-- Registers of the SYS page (spec/02_counting_boards.md, spec/22_boot_profiles.md). -/
def regsSYS : List Reg := [
  ⟨0x040, [], [], 0x24100000⟩, -- ID
  ⟨0x044, [], [], 0x0⟩, -- RST_CAUSE
  ⟨0x048, [], [(.rw, 0xFFFF000F)], 0x0⟩, -- RST_CMD
  ⟨0x04C, [], [], 0x0⟩, -- BOOT_STAT
  ⟨0x050, [], [], 0x0⟩, -- BOOT_CNT
  ⟨0x054, [], [], 0x0⟩, -- BOOT_TIME
  ⟨0x058, [], [], 0x0⟩, -- REST_ACC
  ⟨0x05C, [], [], 0x0⟩, -- PIN
  ⟨0x060, [], [], 0x0⟩, -- EVT_HEAD
  ⟨0x064, [], [], 0x0⟩, -- EVT_OFS
  ⟨0x400, [(256, 4)], [(.wl, 0xCFFF0FFF)], 0x0⟩, -- EVR_ROUTE
  ⟨0x800, [(8, 4)], [], 0x0⟩, -- EVR_PEND
  ⟨0x820, [], [], 0x0⟩] -- EVR_UNROUTED

/-- Registers of the BEAM page (spec/03_beam.md). -/
def regsBEAM : List Reg := [
  ⟨0x040, [], [], 0x0⟩, -- NOW_NS
  ⟨0x044, [], [], 0x0⟩, -- NOW_FRAC_LAT
  ⟨0x048, [], [], 0x0⟩, -- NOW_SEC_LAT_LO
  ⟨0x04C, [], [], 0x0⟩, -- NOW_SEC_LAT_HI
  ⟨0x050, [], [(.sc, 0x00000001)], 0x0⟩, -- SNAP
  ⟨0x054, [], [], 0x0⟩, -- SNAP_NS
  ⟨0x058, [], [], 0x0⟩, -- SNAP_INFO
  ⟨0x05C, [], [], 0x0⟩, -- SNAP_SEC_LO
  ⟨0x060, [], [], 0x0⟩, -- SNAP_SEC_HI
  ⟨0x064, [], [(.st, 0xFFFFFFFF)], 0x0⟩, -- SET_NS
  ⟨0x068, [], [(.st, 0xFFFFFFFF)], 0x0⟩, -- SET_SEC_LO
  ⟨0x06C, [], [(.st, 0x0000FFFF)], 0x0⟩, -- SET_SEC_HI
  ⟨0x070, [], [(.wl, 0xFF000001), (.rw, 0x000001F0)], 0xFF000000⟩, -- CTL
  ⟨0x074, [], [], 0x0⟩, -- STAT
  ⟨0x078, [], [], 0x7000⟩, -- MASTER
  ⟨0x07C, [], [], 0x0⟩, -- OFFSET
  ⟨0x080, [], [], 0x0⟩, -- CORR
  ⟨0x084, [], [], 0x0⟩, -- PPS_IN_ERR
  ⟨0x088, [], [], 0x0⟩, -- PTP_OFFSET
  ⟨0x08C, [], [], 0x0⟩, -- PTP_UTC
  ⟨0x090, [], [(.rw, 0x000003FF)], 0x0⟩, -- PPS_OUT
  ⟨0x094, [], [(.rw, 0x000013FF)], 0x0⟩, -- PTP_CFG
  ⟨0x098, [], [(.rw, 0x0000001F)], 0x0⟩, -- HOLD_LIM
  ⟨0x09C, [], [], 0x0⟩] -- LOCK_LOSS

/-- Registers of the FRAME page (spec/03_beam.md). -/
def regsFRAME : List Reg := [
  ⟨0x040, [(24, 4)], [(.st, 0x1F3FFFFF)], 0x0⟩, -- ROD_MAP
  ⟨0x0A0, [], [(.rw, 0x9F0000FF)], 0x0⟩, -- SYNC_CTL
  ⟨0x0A4, [], [(.rw, 0x0000FFFF)], 0x0⟩, -- SYNC_DLY
  ⟨0x0A8, [], [], 0x0⟩, -- SYNC_ERR
  ⟨0x0AC, [], [], 0x0⟩, -- SYNC_MISS
  ⟨0x100, [(24, 0x20)], [(.st, 0xE0FF0000)], 0x0⟩, -- CG_CTL
  ⟨0x104, [(24, 0x20)], [(.st, 0x003FFFFF)], 0x0⟩, -- CG_PERIOD
  ⟨0x108, [(24, 0x20)], [(.st, 0xFFFFFFFF)], 0x0⟩, -- CG_ANCHOR_LO
  ⟨0x10C, [(24, 0x20)], [(.st, 0x0000FFFF)], 0x0⟩, -- CG_ANCHOR_HI
  ⟨0x110, [(24, 0x20)], [], 0x0⟩, -- CG_COUNT
  ⟨0x114, [(24, 0x20)], [], 0x0⟩, -- CG_NEXT_NS
  ⟨0x118, [(24, 0x20)], [], 0x0⟩] -- CG_STAT

/-- Registers of the ROD page (spec/04_rod_modulation.md). -/
def regsROD : List Reg := [
  ⟨0x040, [], [(.st, 0x7F01111D)], 0x0⟩, -- CFG
  ⟨0x044, [], [(.st, 0x7FFF7FFF)], 0x19001900⟩, -- DT_3L_A
  ⟨0x048, [], [(.st, 0x7FFF7FFF)], 0x19001900⟩, -- DT_3L_B
  ⟨0x04C, [], [(.st, 0x7FFF7FFF)], 0x19001900⟩, -- DT_2L
  ⟨0x050, [], [(.st, 0x00003FFF)], 0x0⟩, -- MIN_PULSE
  ⟨0x054, [], [(.st, 0xFFFF3FFF)], 0x0⟩, -- NP_CFG
  ⟨0x058, [], [(.st, 0xFFFFFFFF)], 0x0⟩, -- NP_AUX
  ⟨0x05C, [], [(.st, 0x00FFFFFF)], 0x0⟩, -- NP_SRC
  ⟨0x060, [], [(.rw, 0xFFFFFFFF)], 0x0⟩, -- REF_AB
  ⟨0x064, [], [(.rw, 0x0000FFFF)], 0x0⟩, -- REF_C
  ⟨0x068, [], [], 0x0⟩, -- ACT_AB
  ⟨0x06C, [], [], 0x0⟩, -- ACT_C
  ⟨0x070, [], [], 0x0⟩, -- ACT_ZS
  ⟨0x074, [], [], 0x0⟩, -- STATUS
  ⟨0x078, [], [], 0x0⟩, -- UPD_NS
  ⟨0x07C, [], [], 0x0⟩, -- EDGE_CNT
  ⟨0x080, [], [(.rw, 0xFFFFFFFF)], 0x0⟩, -- LATE_CNT
  ⟨0x084, [], [(.rw, 0xFFFFFFFF)], 0x0⟩, -- DROP_CNT
  ⟨0x088, [], [(.rw, 0xFFFFFFFF)], 0x0⟩, -- STRETCH_CNT
  ⟨0x08C, [], [(.rw, 0xFFFFFFFF)], 0x0⟩, -- FSTRETCH_CNT
  ⟨0x090, [], [(.rw, 0xFFFFFFFF)], 0x0⟩, -- CLIP_CNT
  ⟨0x094, [], [(.rw, 0xFFFFFFFF)], 0x0⟩, -- FALLBACK_CNT
  ⟨0x098, [], [], 0x0⟩] -- STALE_RUN

/-- Registers of the GLK page (spec/05_gate_link.md). -/
def regsGLK : List Reg := [
  ⟨0x040, [], [(.st, 0x00000FFF)], 0x0⟩, -- CTL
  ⟨0x044, [], [(.st, 0x00FFFFFF)], 0x0⟩, -- TIMING
  ⟨0x048, [], [(.sc, 0x80000000), (.rw, 0x7F00FFFF)], 0x0⟩, -- REQ_CTL
  ⟨0x04C, [], [(.rw, 0xFFFFFFFF)], 0x0⟩, -- REQ_DATA
  ⟨0x050, [], [], 0x0⟩, -- RSP
  ⟨0x054, [], [], 0x0⟩, -- UP_MAP
  ⟨0x058, [], [(.rw, 0xFFFFFFFF)], 0x0⟩, -- LOST_CNT
  ⟨0x060, [(12, 4)], [], 0x0⟩, -- LSTAT
  ⟨0x090, [(12, 4)], [], 0x0⟩, -- DLY
  ⟨0x0C0, [(12, 4)], [(.st, 0x0000FFFF)], 0x0⟩, -- ASYM
  ⟨0x0F0, [(12, 4)], [], 0x0⟩, -- HB0
  ⟨0x120, [(12, 4)], [], 0x0⟩, -- HB1
  ⟨0x150, [(12, 4)], [(.rw, 0xFFFFFFFF)], 0x0⟩] -- ERRCNT

/-- Registers of the PROT page (spec/06_power_stage.md). -/
def regsPROT : List Reg := [
  ⟨0x040, [], [(.sc, 0x0000003F)], 0x0⟩, -- CMD
  ⟨0x044, [], [(.st, 0x00131110)], 0x0⟩, -- CFG
  ⟨0x048, [], [], 0x0⟩, -- STATUS
  ⟨0x04C, [], [], 0x0⟩, -- CAUSE
  ⟨0x050, [], [], 0x0⟩, -- FIRST
  ⟨0x054, [], [], 0x0⟩, -- FIRST_NS
  ⟨0x058, [], [(.st, 0xFFFF0FFF)], 0x96⟩, -- PC_CFG
  ⟨0x05C, [], [], 0x0⟩, -- PC_LOG
  ⟨0x060, [], [(.st, 0xFFFFFFFF)], 0x0⟩, -- SEQ_CFG
  ⟨0x064, [], [(.st, 0xFFFFFFFF)], 0x10000000⟩, -- VSCALE
  ⟨0x068, [], [(.st, 0xFFFFFFFF)], 0x0⟩, -- SLOT_A
  ⟨0x06C, [], [(.st, 0x0000FFFF)], 0x0⟩, -- SLOT_B
  ⟨0x070, [], [(.st, 0xFFFF03FF)], 0x0⟩, -- DESC_CFG
  ⟨0x074, [], [(.st, 0x0FFFFFFF)], 0x0⟩, -- XCHK_CFG
  ⟨0x078, [], [(.st, 0x000FFFFF)], 0x0⟩, -- UVLO_CFG
  ⟨0x07C, [], [(.st, 0xFFFFFFFF)], 0x0⟩, -- DIAG_CFG
  ⟨0x080, [], [(.st, 0x00FFFFFF)], 0x0⟩, -- DIAG_CFG2
  ⟨0x084, [], [], 0x0⟩, -- DIAG_RES
  ⟨0x088, [], [], 0x0⟩, -- MEAS
  ⟨0x08C, [], [(.st, 0x00FFFFFF)], 0x0⟩, -- DIDT_CFG
  ⟨0x090, [(16, 4)], [(.st, 0xFFFFFFFF)], 0x7FFF8000⟩, -- CMP_TH
  ⟨0x0D0, [(16, 4)], [(.st, 0xB81FFFFF)], 0x0⟩, -- CMP_CFG
  ⟨0x110, [], [(.w1c, 0xFFFFFFFF)], 0x0⟩, -- CMP_HIT
  ⟨0x118, [], [(.st, 0xFFFFFFFF)], 0x0⟩, -- TJ_CFG
  ⟨0x11C, [], [(.st, 0xFFFF00FF)], 0x0⟩, -- TJ_AUX
  ⟨0x120, [], [(.st, 0x00FFFFFF)], 0x0⟩, -- SIG_CFG
  ⟨0x130, [(3, 8)], [(.wl, 0xFFFFFFFF)], 0x0⟩, -- MOD_ID_LO
  ⟨0x134, [(3, 8)], [(.wl, 0xFFFFFFFF)], 0x0⟩, -- MOD_ID_HI
  ⟨0x148, [(3, 4)], [], 0x0⟩, -- TJ_EST
  ⟨0x154, [(3, 4)], [(.rw, 0x0000FFFF)], 0x0⟩, -- TJ_IN
  ⟨0x160, [], [], 0x0⟩, -- LIFE_STAT
  ⟨0x164, [], [], 0x0⟩, -- RF_OVF
  ⟨0x200, [(3, 0x100), (64, 4)], [(.wl, 0xFFFFFFFF)], 0x0⟩, -- RF_BIN
  ⟨0x500, [(3, 8)], [(.wl, 0xFFFFFFFF)], 0x0⟩, -- DMG_LO
  ⟨0x504, [(3, 8)], [(.wl, 0xFFFFFFFF)], 0x0⟩, -- DMG_HI
  ⟨0x520, [(3, 16)], [(.wl, 0xFFFFFFFF)], 0x0⟩, -- SIG_BASE_A
  ⟨0x524, [(3, 16)], [(.wl, 0x0000FFFF)], 0x0⟩, -- SIG_BASE_B
  ⟨0x528, [(3, 16)], [], 0x0⟩, -- SIG_CUR_A
  ⟨0x52C, [(3, 16)], [], 0x0⟩, -- SIG_CUR_B
  ⟨0x600, [(64, 4)], [(.wl, 0xFFFFFFFF)], 0x0⟩] -- DMG_COEF

/-- Registers of the ACQ page (spec/07_acquisition.md). -/
def regsACQ : List Reg := [
  ⟨0x040, [], [], 0x0⟩, -- STATUS
  ⟨0x044, [], [(.sc, 0x00000FFF)], 0x0⟩, -- SWTRIG
  ⟨0x080, [(12, 0x20)], [(.st, 0xBF7F0000)], 0x0⟩, -- SEQ_CFG
  ⟨0x084, [(12, 0x20)], [(.st, 0xFF0FFFFF)], 0x0⟩, -- TRIG0
  ⟨0x088, [(12, 0x20)], [(.st, 0xFF0FFFFF)], 0x0⟩, -- TRIG1
  ⟨0x08C, [(12, 0x20)], [(.st, 0x0000FFFF)], 0x0⟩, -- URG_AUTO
  ⟨0x090, [(12, 0x20)], [(.rw, 0x81F00FFF)], 0x0⟩, -- URG
  ⟨0x094, [(12, 0x20)], [], 0x0⟩, -- CSTAT
  ⟨0x098, [(12, 0x20)], [(.rw, 0xFFFFFFFF)], 0x0⟩, -- CNT0
  ⟨0x09C, [(12, 0x20)], [(.rw, 0xFFFFFFFF)], 0x0⟩, -- CNT1
  ⟨0x400, [(256, 12)], [], 0x0⟩, -- SLOT_W0
  ⟨0x404, [(256, 12)], [], 0x0⟩, -- SLOT_W1
  ⟨0x408, [(256, 12)], [], 0x0⟩] -- SLOT_W2

/-- Registers of the FDC page (spec/07_acquisition.md). -/
def regsFDC : List Reg := [
  ⟨0x040, [], [(.st, 0x0FFF0FFF)], 0x0⟩, -- PWR_CTL
  ⟨0x044, [], [], 0x0⟩, -- PWR_STAT
  ⟨0x048, [], [(.st, 0x00000003)], 0x1⟩, -- CAL_CTL
  ⟨0x04C, [], [], 0x0⟩, -- CAL_STAT
  ⟨0x050, [], [(.rw, 0x0000003F)], 0x0⟩, -- CAL_SEL
  ⟨0x054, [], [], 0x0⟩, -- CAL_OFS
  ⟨0x058, [], [], 0x0⟩, -- CAL_GAIN
  ⟨0x05C, [], [], 0x0⟩, -- CAL_SKEW
  ⟨0x060, [], [(.rw, 0xFFFFFFFF)], 0x0⟩] -- FILT_SAT

/-- Registers of the TDIG page (spec/07_acquisition.md). -/
def regsTDIG : List Reg := [
  ⟨0x040, [], [(.st, 0x00000001)], 0x0⟩, -- DRAIN_CTL
  ⟨0x044, [], [(.st, 0xFFFF0000)], 0x0⟩, -- DRAIN_BASE_LO
  ⟨0x048, [], [(.st, 0x000000FF)], 0x0⟩, -- DRAIN_BASE_HI
  ⟨0x04C, [], [(.st, 0x0000FFFF)], 0x0⟩, -- DRAIN_SIZE
  ⟨0x050, [], [], 0x0⟩, -- DRAIN_WR
  ⟨0x054, [], [(.rw, 0xFFFFFFFF)], 0x0⟩, -- DRAIN_RD
  ⟨0x058, [], [], 0x0⟩, -- BUF_STAT
  ⟨0x05C, [], [], 0x0⟩, -- CAP_SEQ
  ⟨0x060, [], [(.rw, 0xFFFFFFFF)], 0x0⟩, -- OVF_CNT
  ⟨0x080, [(2, 0x20)], [(.st, 0xFFF8FC1F)], 0x0⟩, -- TD_CTL
  ⟨0x084, [(2, 0x20)], [(.st, 0x0000FFFF)], 0x0⟩, -- TD_EVERY
  ⟨0x088, [(2, 0x20)], [(.st, 0xFFFFFFFF)], 0x0⟩, -- TD_TIME_NS
  ⟨0x08C, [(2, 0x20)], [], 0x0⟩, -- TD_STAT
  ⟨0x090, [(2, 0x20)], [(.rw, 0xFFFFFFFF)], 0x0⟩, -- TD_CNT
  ⟨0x094, [(2, 0x20)], [], 0x0⟩, -- TD_FEAT0
  ⟨0x098, [(2, 0x20)], [], 0x0⟩] -- TD_FEAT1

/-- Registers of the RECK page (spec/08_reckoner_model.md). -/
def regsRECK : List Reg := [
  ⟨0x040, [], [(.sc, 0x00000001)], 0x0⟩, -- CTL
  ⟨0x044, [], [(.rw, 0x0000FFFC)], 0x0⟩, -- ENTRY
  ⟨0x048, [], [], 0x1⟩, -- STATUS
  ⟨0x04C, [], [], 0x0⟩, -- PC
  ⟨0x050, [(4, 4)], [(.st, 0x700000FF)], 0x0⟩, -- TRIG
  ⟨0x060, [], [], 0x0⟩, -- PEND
  ⟨0x064, [], [(.rw, 0xFFFFFFFF)], 0x0⟩, -- OVR_CNT
  ⟨0x068, [], [(.sc, 0x0000000F)], 0x0⟩, -- SWTRIG
  ⟨0x06C, [], [(.st, 0xFFFF00FF)], 0x0⟩, -- CARRY_CFG
  ⟨0x070, [], [(.wl, 0x00FFFFFF)], 0x0⟩, -- DRIVES
  ⟨0x074, [], [], 0x0⟩, -- TRAPINFO
  ⟨0x078, [], [], 0x0⟩, -- FATAL
  ⟨0x07C, [], [], 0x0⟩, -- FATAL_PC
  ⟨0x080, [], [(.rw, 0x8000FFFC)], 0x0⟩, -- MEM_ADDR
  ⟨0x084, [], [(.rw, 0xFFFFFFFF)], 0x0⟩, -- MEM_DATA
  ⟨0x088, [], [(.rw, 0xFFFFFFFF)], 0x0⟩, -- ECC_CNT
  ⟨0x08C, [], [], 0x0⟩, -- WAKE_CNT
  ⟨0x090, [], [], 0x0⟩, -- BUSY_LAST
  ⟨0x094, [], [(.rw, 0xFFFFFFFF)], 0x0⟩, -- BUSY_MAX
  ⟨0x098, [], [(.rw, 0xFFFFFFFF)], 0x0⟩, -- MIG_DELAY
  ⟨0x0A0, [(8, 4)], [(.rw, 0xFFFFFFFF)], 0x0⟩] -- GLOBAL

/-- Registers of the LOOP page (spec/10_grid_mode.md, spec/11_machine_mode.md). -/
def regsLOOP : List Reg := [
  ⟨0x040, [], [(.st, 0xFF0F0303)], 0x0⟩, -- CFG
  ⟨0x044, [], [(.st, 0xFFFFFFFF)], 0x0⟩, -- SLOTS
  ⟨0x048, [], [(.st, 0xFFFFFFFF)], 0x0⟩, -- I_SCALE
  ⟨0x04C, [], [(.st, 0xFFFFFFFF)], 0x0⟩, -- V_SCALE
  ⟨0x050, [], [(.st, 0xFFFFFFFF)], 0x0⟩, -- VDC_SCALE
  ⟨0x054, [], [(.st, 0xFFFFFFFF)], 0x0⟩, -- VDC_MIN
  ⟨0x058, [], [(.st, 0xFFFFFFFF)], 0x0⟩, -- KP
  ⟨0x05C, [], [(.st, 0xFFFFFFFF)], 0x0⟩, -- KI
  ⟨0x060, [], [(.st, 0xFFFFFFFF)], 0x0⟩, -- L_DEC
  ⟨0x064, [], [(.st, 0xFFFFFFFF)], 0x3F93CD3A⟩, -- U_LIM
  ⟨0x068, [], [(.st, 0x003FFFFF)], 0x0⟩, -- ANG_ADV
  ⟨0x06C, [], [(.st, 0xFFFFFFFF)], 0x0⟩, -- PQ_TAU
  ⟨0x070, [], [(.rw, 0xFFFFFFFF)], 0x0⟩, -- IREF_D
  ⟨0x074, [], [(.rw, 0xFFFFFFFF)], 0x0⟩, -- IREF_Q
  ⟨0x078, [], [(.rw, 0xFFFFFFFF)], 0x0⟩, -- THETA_NS
  ⟨0x07C, [], [(.rw, 0xFFFFFFFF)], 0x0⟩, -- OMEGA
  ⟨0x080, [], [(.rw, 0xFFFFFFFF)], 0x0⟩, -- THETA
  ⟨0x084, [], [], 0x0⟩, -- STAT
  ⟨0x088, [], [], 0x0⟩, -- ID
  ⟨0x08C, [], [], 0x0⟩, -- IQ
  ⟨0x090, [], [], 0x0⟩, -- VD
  ⟨0x094, [], [], 0x0⟩, -- VQ
  ⟨0x098, [], [], 0x0⟩, -- VDC
  ⟨0x09C, [], [], 0x0⟩, -- UD
  ⟨0x0A0, [], [], 0x0⟩, -- UQ
  ⟨0x0A4, [], [], 0x0⟩, -- XI_D
  ⟨0x0A8, [], [], 0x0⟩, -- XI_Q
  ⟨0x0AC, [], [], 0x0⟩, -- PMEAS
  ⟨0x0B0, [], [], 0x0⟩, -- QMEAS
  ⟨0x0B4, [], [], 0x3F800000⟩, -- DFACT
  ⟨0x0B8, [], [], 0x0⟩, -- RUN_NS
  ⟨0x0BC, [], [], 0x0⟩, -- DELAY_LAST
  ⟨0x0C0, [], [], 0x0⟩, -- RUN_TIME
  ⟨0x0C4, [], [(.rw, 0xFFFFFFFF)], 0x0⟩, -- SKIP_CNT
  ⟨0x0C8, [], [(.rw, 0xFFFFFFFF)], 0x0⟩, -- NAN_CNT
  ⟨0x0CC, [], [(.rw, 0xFFFFFFFF)], 0x0⟩, -- LIMIT_CNT
  ⟨0x0D0, [], [], 0x0⟩, -- PSET
  ⟨0x0D4, [], [], 0x0⟩, -- QSET
  ⟨0x0D8, [], [], 0x0⟩, -- THETA_S
  ⟨0x100, [], [(.st, 0x001F0003)], 0x0⟩, -- KCTL
  ⟨0x104, [(16, 4)], [(.st, 0xFFFFFFFF)], 0x0⟩, -- KPAR
  ⟨0x150, [], [(.rw, 0xFFFFFFFF)], 0x0⟩, -- KSTAT
  ⟨0x154, [], [(.rw, 0xFFFFFFFF)], 0x0⟩, -- K_OMEGA
  ⟨0x158, [], [(.rw, 0xFFFFFFFF)], 0x0⟩, -- K_FGRID
  ⟨0x15C, [], [(.rw, 0xFFFFFFFF)], 0x0⟩, -- K_E
  ⟨0x160, [], [(.rw, 0xFFFFFFFF)], 0x0⟩, -- K_GEN
  ⟨0x180, [], [(.rw, 0x00000003), (.sc, 0x00000004)], 0x0⟩, -- LRN_CTL
  ⟨0x184, [], [(.st, 0x0FFF000F)], 0x8⟩, -- LRN_CFG
  ⟨0x188, [], [(.st, 0xFFFFFFFF)], 0x0⟩, -- LRN_GAIN
  ⟨0x18C, [], [(.st, 0xFFFFFFFF)], 0x0⟩, -- LRN_FORGET
  ⟨0x190, [], [(.st, 0xFFFFFFFF)], 0x0⟩, -- LRN_SMOOTH
  ⟨0x194, [], [(.st, 0x00007FFF)], 0x7FFF⟩, -- LRN_LIM
  ⟨0x198, [], [], 0x0⟩, -- LRN_STAT
  ⟨0x19C, [], [(.rw, 0xFFFFFFFF)], 0x0⟩, -- LRN_SAT
  ⟨0x200, [], [(.st, 0xFFFF0FF3)], 0x0⟩, -- MCFG
  ⟨0x204, [], [(.st, 0x00FFFFFF)], 0x0⟩, -- CPR
  ⟨0x208, [], [(.rw, 0xFFFFFFFF)], 0x0⟩, -- M_OFS
  ⟨0x20C, [], [(.st, 0xFFFFFFFF)], 0x0⟩, -- RS
  ⟨0x210, [], [(.st, 0xFFFFFFFF)], 0x0⟩, -- L_D
  ⟨0x214, [], [(.st, 0xFFFFFFFF)], 0x0⟩, -- L_Q
  ⟨0x218, [], [(.st, 0xFFFFFFFF)], 0x0⟩, -- PSI
  ⟨0x21C, [], [(.st, 0xFFFFFFFF)], 0x0⟩, -- TR
  ⟨0x220, [], [(.st, 0xFFFFFFFF)], 0x0⟩, -- OBS_WC
  ⟨0x224, [], [(.st, 0xFFFFFFFF)], 0x0⟩, -- OBS_WMIN
  ⟨0x228, [], [(.st, 0xFFFFFFFF)], 0x0⟩, -- OBS_PLL_KP
  ⟨0x22C, [], [(.st, 0xFFFFFFFF)], 0x0⟩, -- OBS_PLL_KI
  ⟨0x230, [], [(.st, 0xFFFFFFFF)], 0x0⟩, -- OPEN_IREF
  ⟨0x234, [], [(.st, 0xFFFFFFFF)], 0x0⟩, -- OPEN_ACC
  ⟨0x238, [], [(.st, 0xFFFFFFFF)], 0x0⟩, -- OPEN_WMAX
  ⟨0x23C, [], [(.st, 0xFFFFFFFF)], 0x0⟩, -- HO_TOL
  ⟨0x240, [], [(.st, 0xFFFFFFFF)], 0x0⟩, -- HO_WTOL
  ⟨0x244, [], [(.st, 0xFFFFFFFF)], 0x0⟩, -- SPD_IQ
  ⟨0x248, [], [(.st, 0xFFFFFFFF)], 0x0⟩, -- SPD_WEND
  ⟨0x24C, [], [(.st, 0xFFFFFFFF)], 0x0⟩, -- LRN_WTAU
  ⟨0x250, [], [(.st, 0xFFFFFFFF)], 0x0⟩, -- LRN_IMAX
  ⟨0x254, [], [(.st, 0x0000FFFF)], 0x0⟩, -- MCFG2
  ⟨0x260, [], [], 0x0⟩, -- MSTAT
  ⟨0x264, [], [], 0x0⟩, -- ACC
  ⟨0x268, [], [], 0x0⟩, -- W_E
  ⟨0x26C, [], [], 0x0⟩, -- W_PCNT
  ⟨0x270, [], [], 0x0⟩, -- W_OBS
  ⟨0x274, [], [], 0x0⟩, -- THETA_PCNT
  ⟨0x278, [], [], 0x0⟩, -- THETA_OBS
  ⟨0x27C, [], [], 0x0⟩, -- PSI_OBS
  ⟨0x280, [], [(.rw, 0xFFFFFFFF)], 0x0⟩, -- ASRC_CNT
  ⟨0x284, [], [(.rw, 0xFFFFFFFF)], 0x0⟩, -- PCNT_FAIL_CNT
  ⟨0x288, [], [], 0x0⟩] -- LIMIT_NS

/-- Registers of the BEADS page (spec/12_beads.md). -/
def regsBEADS : List Reg := [
  ⟨0x040, [], [(.rw, 0x00FF0003)], 0x0⟩, -- CTL
  ⟨0x044, [], [(.wl, 0x0FFF0FFF)], 0x0⟩, -- HOME_CFG
  ⟨0x048, [], [], 0x0⟩, -- DEV_STAT
  ⟨0x04C, [], [], 0x0⟩, -- HOLD_P
  ⟨0x050, [], [], 0x0⟩, -- HOLD_Q
  ⟨0x054, [], [], 0x0⟩, -- PLACED_P
  ⟨0x058, [], [], 0x0⟩, -- PLACED_Q
  ⟨0x05C, [], [], 0x0⟩, -- REMAIN_P
  ⟨0x060, [], [], 0x0⟩, -- REMAIN_Q
  ⟨0x064, [], [], 0x0⟩, -- TARGET_P
  ⟨0x068, [], [], 0x0⟩, -- TARGET_Q
  ⟨0x06C, [], [], 0x0⟩, -- CAP_P_POS
  ⟨0x070, [], [], 0x0⟩, -- CAP_P_NEG
  ⟨0x074, [], [], 0x0⟩, -- CAP_Q_POS
  ⟨0x078, [], [], 0x0⟩, -- CAP_Q_NEG
  ⟨0x07C, [], [], 0x0⟩, -- EXPIRY_LO
  ⟨0x080, [], [], 0x0⟩, -- EXPIRY_HI
  ⟨0x084, [], [], 0x0⟩, -- RSEQ
  ⟨0x088, [], [], 0x0⟩, -- PLACE_GEN
  ⟨0x08C, [], [(.rw, 0xFFFFFFFF)], 0x0⟩, -- LAPSE_CNT
  ⟨0x090, [], [(.rw, 0xFFFFFFFF)], 0x0⟩, -- REFUSE_CNT
  ⟨0x094, [], [(.rw, 0xFFFFFFFF)], 0x0⟩, -- RETRY_CNT
  ⟨0x100, [(24, 4)], [(.st, 0xFFFFFFFF)], 0x0⟩, -- ROD_PLIM
  ⟨0x160, [(24, 4)], [(.st, 0xFFFFFFFF)], 0x0⟩, -- ROD_QLIM
  ⟨0x1C0, [(24, 4)], [(.rw, 0xFFFFFFFF)], 0x0⟩, -- ROD_W
  ⟨0x220, [(24, 4)], [], 0x0⟩, -- PLACE
  ⟨0x300, [], [], 0x0⟩, -- HOME_STAT
  ⟨0x304, [], [(.rw, 0x0000000F)], 0x0⟩, -- HOME_CMD
  ⟨0x308, [], [(.rw, 0xFFFFFFFF)], 0x0⟩, -- CMD_P
  ⟨0x30C, [], [(.rw, 0xFFFFFFFF)], 0x0⟩, -- CMD_Q
  ⟨0x310, [], [], 0x0⟩, -- CMD_RES
  ⟨0x314, [], [], 0x0⟩, -- POOL_P
  ⟨0x318, [], [], 0x0⟩, -- POOL_Q
  ⟨0x31C, [], [], 0x0⟩, -- RET_PEND_P
  ⟨0x320, [], [], 0x0⟩, -- RET_PEND_Q
  ⟨0x324, [], [], 0x0⟩, -- MINTED_P_LO
  ⟨0x328, [], [], 0x0⟩, -- MINTED_P_HI
  ⟨0x32C, [], [], 0x0⟩, -- MINTED_Q_LO
  ⟨0x330, [], [], 0x0⟩, -- MINTED_Q_HI
  ⟨0x334, [], [], 0x0⟩, -- RETIRED_P_LO
  ⟨0x338, [], [], 0x0⟩, -- RETIRED_P_HI
  ⟨0x33C, [], [], 0x0⟩, -- RETIRED_Q_LO
  ⟨0x340, [], [], 0x0⟩, -- RETIRED_Q_HI
  ⟨0x344, [], [], 0x0⟩, -- LSEQ_LO
  ⟨0x348, [], [], 0x0⟩, -- LSEQ_HI
  ⟨0x34C, [], [], 0x0⟩, -- LEASES
  ⟨0x350, [], [(.st, 0x00FFFFFF)], 0x0⟩, -- GRANT_STEP
  ⟨0x354, [], [(.rw, 0x00000FFF)], 0x0⟩, -- LEDGER_SEL
  ⟨0x358, [], [], 0x0⟩, -- LEDGER_E0
  ⟨0x35C, [], [], 0x0⟩, -- LEDGER_P
  ⟨0x360, [], [], 0x0⟩, -- LEDGER_Q
  ⟨0x364, [], [], 0x0⟩, -- LEDGER_EXP_LO
  ⟨0x368, [], [], 0x0⟩, -- LEDGER_EXP_HI
  ⟨0x36C, [], [], 0x0⟩, -- LEDGER_RSEQ
  ⟨0x370, [], [(.rw, 0xFFFFFFFF)], 0x0⟩, -- RECLAIM_CNT
  ⟨0x374, [], [(.rw, 0xFFFFFFFF)], 0x0⟩] -- TAKEOVER_CNT

/-- Registers of the CEA page (spec/13_cell_estimator.md). -/
def regsCEA : List Reg := [
  ⟨0x040, [], [(.st, 0x00000003)], 0x0⟩, -- CTL
  ⟨0x044, [], [], 0x0⟩, -- STAT
  ⟨0x048, [], [], 0x0⟩, -- ROUND_NS
  ⟨0x04C, [], [], 0x0⟩, -- ROUND_TIME
  ⟨0x050, [], [(.rw, 0xFFFFFFFF)], 0x0⟩, -- OVR_CNT
  ⟨0x054, [], [(.st, 0xFFFFFFFF)], 0x232803E8⟩, -- WCFG0
  ⟨0x058, [], [(.st, 0xFFFFFFFF)], 0x3E8EA60⟩, -- WCFG1
  ⟨0x05C, [], [(.st, 0xFFFFFFFF)], 0x37000A0⟩, -- WCFG2
  ⟨0x060, [], [(.st, 0xFFFFFFFF)], 0x23281B58⟩, -- WCFG3
  ⟨0x064, [], [(.st, 0xFFFFFFFF)], 0xA003C⟩, -- WCFG4
  ⟨0x068, [], [(.st, 0xFFFFFFFF)], 0x0⟩, -- ALM_CFG
  ⟨0x06C, [], [(.st, 0xFFFF0000)], 0x0⟩, -- SNAP_BASE_LO
  ⟨0x070, [], [(.st, 0x000000FF)], 0x0⟩, -- SNAP_BASE_HI
  ⟨0x074, [], [(.st, 0x0000FFFF)], 0x0⟩, -- SNAP_SIZE
  ⟨0x078, [], [], 0x0⟩, -- SNAP_WR
  ⟨0x07C, [], [(.rw, 0xFFFFFFFF)], 0x0⟩, -- SNAP_RD
  ⟨0x080, [], [(.rw, 0xFFFFFFFF)], 0x0⟩, -- SNAP_DROP
  ⟨0x084, [], [(.rw, 0x0000FFFF)], 0x0⟩, -- CELL_SEL
  ⟨0x088, [], [], 0x0⟩, -- CELL_OUT0
  ⟨0x08C, [], [], 0x0⟩, -- CELL_OUT1
  ⟨0x090, [], [], 0x0⟩, -- CELL_OUT2
  ⟨0x094, [], [], 0x0⟩, -- CELL_OUT3
  ⟨0x098, [], [(.rw, 0xFFFFFFFF)], 0x0⟩, -- CELL_INIT0
  ⟨0x09C, [], [(.rw, 0x0000FFFF)], 0x0⟩, -- CELL_INIT1
  ⟨0x0A0, [], [(.sc, 0x0000000F)], 0x0⟩, -- CELL_CMD
  ⟨0x0A4, [], [(.rw, 0xFFFFFFFF)], 0x0⟩, -- ALARM_CNT
  ⟨0x0A8, [], [(.rw, 0xFFFFFFFF)], 0x0⟩, -- DIVERGE_CNT
  ⟨0x0AC, [], [], 0x0⟩, -- CELL_CNT
  ⟨0x0B0, [], [(.rw, 0xFFFFFFFF)], 0x0⟩, -- TALLY_GAPS
  ⟨0x100, [(24, 4)], [], 0x0⟩, -- ROD_WCALC
  ⟨0x160, [(24, 4)], [], 0x0⟩, -- ROD_SUM
  ⟨0x1C0, [(24, 4)], [(.st, 0x8000FFFF)], 0x0⟩, -- TSLOT
  ⟨0x220, [(24, 4)], [(.st, 0xFFFFFFFF)], 0x0⟩, -- ISCALE
  ⟨0x280, [(24, 4)], [(.st, 0xFFFFFFFF)], 0x0⟩, -- VSCALE
  ⟨0x400, [(384, 4)], [(.st, 0xF07FF07F)], 0x0⟩, -- MOD_CFG
  ⟨0xA00, [(24, 0x30)], [], 0x0⟩, -- CHG_IN_LO
  ⟨0xA04, [(24, 0x30)], [], 0x0⟩, -- CHG_IN_HI
  ⟨0xA08, [(24, 0x30)], [], 0x0⟩, -- CHG_OUT_LO
  ⟨0xA0C, [(24, 0x30)], [], 0x0⟩, -- CHG_OUT_HI
  ⟨0xA10, [(24, 0x30)], [], 0x0⟩, -- ENERGY_LO
  ⟨0xA14, [(24, 0x30)], [], 0x0⟩, -- ENERGY_HI
  ⟨0xA18, [(24, 0x30)], [(.wl, 0xFFFFFFFF)], 0x0⟩, -- BASE_IN_LO
  ⟨0xA1C, [(24, 0x30)], [(.wl, 0xFFFFFFFF)], 0x0⟩, -- BASE_IN_HI
  ⟨0xA20, [(24, 0x30)], [(.wl, 0xFFFFFFFF)], 0x0⟩, -- BASE_OUT_LO
  ⟨0xA24, [(24, 0x30)], [(.wl, 0xFFFFFFFF)], 0x0⟩, -- BASE_OUT_HI
  ⟨0xA28, [(24, 0x30)], [(.wl, 0xFFFFFFFF)], 0x0⟩, -- BASE_E_LO
  ⟨0xA2C, [(24, 0x30)], [(.wl, 0xFFFFFFFF)], 0x0⟩] -- BASE_E_HI

/-- Registers of the EIS page (spec/13_cell_estimator.md). -/
def regsEIS : List Reg := [
  ⟨0x040, [], [(.st, 0xFFFFFFFF)], 0x0⟩, -- CTL
  ⟨0x044, [], [(.st, 0x00FFFFFF)], 0x0⟩, -- SCHED
  ⟨0x048, [], [], 0x0⟩, -- STAT
  ⟨0x04C, [], [(.sc, 0x00FFFFFF)], 0x0⟩, -- REQ
  ⟨0x050, [], [(.rw, 0xFFFFFFFF)], 0x0⟩, -- RUN_CNT
  ⟨0x054, [], [(.rw, 0xFFFFFFFF)], 0x0⟩, -- ABORT_CNT
  ⟨0x058, [], [(.st, 0x00000001)], 0x0⟩, -- RES_CTL
  ⟨0x05C, [], [(.st, 0xFFFF0000)], 0x0⟩, -- RES_BASE_LO
  ⟨0x060, [], [(.st, 0x000000FF)], 0x0⟩, -- RES_BASE_HI
  ⟨0x064, [], [(.st, 0x0000FFFF)], 0x0⟩, -- RES_SIZE
  ⟨0x068, [], [], 0x0⟩, -- RES_WR
  ⟨0x06C, [], [(.rw, 0xFFFFFFFF)], 0x0⟩, -- RES_RD
  ⟨0x100, [(24, 4)], [(.st, 0xFFFFFFFF)], 0x0⟩, -- I_RATED
  ⟨0x160, [(24, 4)], [], 0x0⟩, -- LAST_SEC
  ⟨0x1C0, [(24, 4)], [], 0x0⟩, -- RSTAT
  ⟨0x300, [(32, 4)], [(.st, 0xFFFFFFFF)], 0x0⟩] -- TONE

/-- Registers of the MBUS page (spec/14_module_bus.md). -/
def regsMBUS : List Reg := [
  ⟨0x040, [], [(.rw, 0x00001F00)], 0x0⟩, -- CTL
  ⟨0x044, [], [], 0x0⟩, -- STAT
  ⟨0x048, [], [(.sc, 0x0000007F)], 0x0⟩, -- CMD
  ⟨0x04C, [], [(.st, 0xFFFF7F7F)], 0x17F2010⟩, -- NBT
  ⟨0x050, [], [(.st, 0x1F1F0F0F)], 0x1070202⟩, -- DBT
  ⟨0x054, [], [(.st, 0x0000FF00)], 0x0⟩, -- TDC
  ⟨0x058, [], [], 0x0⟩, -- ECR
  ⟨0x05C, [], [(.rw, 0xFFFFFFFF)], 0x0⟩, -- ERRCNT
  ⟨0x060, [], [(.st, 0x00FFFFFF)], 0x0⟩, -- RATE_CFG
  ⟨0x064, [], [], 0x0⟩, -- RATE_STAT
  ⟨0x068, [], [(.st, 0x83FF00FF)], 0x0⟩, -- TREF_CFG
  ⟨0x06C, [], [(.st, 0xE000001F)], 0x0⟩, -- WAKE_CFG
  ⟨0x070, [], [(.st, 0x1FFFFFFF)], 0x200E001⟩, -- WAKE_ID
  ⟨0x074, [], [(.st, 0x1FFFFFFF)], 0x1F00FFFF⟩, -- WAKE_MASK
  ⟨0x078, [], [], 0x0⟩, -- WAKE_CAP_ID
  ⟨0x07C, [], [(.rw, 0xFFFFFFFF)], 0x0⟩, -- WAKE_CNT
  ⟨0x080, [], [], 0x0⟩, -- QSTAT
  ⟨0x084, [], [(.rw, 0xFFFFFFFF)], 0x0⟩, -- RX_OVF
  ⟨0x088, [], [(.rw, 0xFFFFFFFF)], 0x0⟩, -- RX_NOMATCH
  ⟨0x08C, [], [(.rw, 0xFFFFFFFF)], 0x0⟩, -- TX_CNT
  ⟨0x090, [], [(.st, 0xC0FFFF00)], 0x0⟩, -- MPE_CFG
  ⟨0x094, [], [(.st, 0xFF00FFFF)], 0x140003E8⟩, -- PLAN_CFG
  ⟨0x098, [], [(.st, 0xFFFFFFFF)], 0x0⟩, -- THRU_CFG
  ⟨0x09C, [], [(.rw, 0xFFFFFFFF)], 0x0⟩, -- MSG_CNT
  ⟨0x0A0, [], [(.st, 0xFFFF0000)], 0x0⟩, -- MSG_BASE_LO
  ⟨0x0A4, [], [(.st, 0x000000FF)], 0x0⟩, -- MSG_BASE_HI
  ⟨0x0A8, [], [(.st, 0x0000FFFF)], 0x0⟩, -- MSG_SIZE
  ⟨0x0AC, [], [], 0x0⟩, -- MSG_WR
  ⟨0x0B0, [], [(.rw, 0xFFFFFFFF)], 0x0⟩, -- MSG_RD
  ⟨0x0C0, [(8, 8)], [(.st, 0xFFFF7F7F)], 0x0⟩, -- RATE_CAND_N
  ⟨0x0C4, [(8, 8)], [(.st, 0x1F1F0F0F)], 0x0⟩, -- RATE_CAND_D
  ⟨0x100, [(19, 4)], [], 0x0⟩, -- RX0_W
  ⟨0x180, [(19, 4)], [], 0x0⟩, -- RX1_W
  ⟨0x200, [], [(.rw, 0x5FFFFFFF)], 0x0⟩, -- TXW_ID
  ⟨0x204, [], [(.sc, 0x80000000), (.rw, 0x0000006F)], 0x0⟩, -- TXW_CTL
  ⟨0x210, [(16, 4)], [(.rw, 0xFFFFFFFF)], 0x0⟩, -- TXW_DATA
  ⟨0x400, [(24, 4)], [(.st, 0x800003FF)], 0x0⟩, -- MAP
  ⟨0x460, [(24, 4)], [], 0x0⟩, -- MOD_STAT
  ⟨0x4C0, [(24, 8)], [(.wl, 0xFFFFFFFF)], 0x0⟩, -- KEYID_LO
  ⟨0x4C4, [(24, 8)], [(.wl, 0xFFFFFFFF)], 0x0⟩, -- KEYID_HI
  ⟨0x600, [(64, 8)], [(.st, 0xFFFFFFFF)], 0x0⟩, -- FLT_MATCH
  ⟨0x604, [(64, 8)], [(.st, 0x9FFFFFFF)], 0x0⟩] -- FLT_MASK

/-- Registers of the THERM page (spec/15_thermal_valves_counters.md). -/
def regsTHERM : List Reg := [
  ⟨0x040, [], [], 0x0⟩, -- STAT
  ⟨0x044, [], [(.w1c, 0x000000FF)], 0x0⟩, -- GRP_LATCH
  ⟨0x048, [], [(.w1c, 0xFFFFFFFF)], 0x0⟩, -- TRIP_LATCH_LO
  ⟨0x04C, [], [(.w1c, 0xFFFFFFFF)], 0x0⟩, -- TRIP_LATCH_HI
  ⟨0x050, [], [], 0x0⟩, -- WARN_LO
  ⟨0x054, [], [], 0x0⟩, -- WARN_HI
  ⟨0x058, [], [], 0x0⟩, -- BROKEN_LO
  ⟨0x05C, [], [], 0x0⟩, -- BROKEN_HI
  ⟨0x060, [], [], 0x0⟩, -- DIE_STAT
  ⟨0x064, [(6, 4)], [], 0x0⟩, -- DIE_T
  ⟨0x07C, [], [(.rw, 0xFFFFFFFF)], 0x0⟩, -- EVT_CNT
  ⟨0x080, [(8, 4)], [(.st, 0xFFFFFFFF)], 0x7FFF7FFF⟩, -- LIM_A
  ⟨0x0A0, [(8, 4)], [(.st, 0xFFFFFFFF)], 0xFFFFFFFE⟩, -- LIM_B
  ⟨0x0C0, [(8, 4)], [(.st, 0x003FFFFF)], 0x10⟩, -- LIM_C
  ⟨0x0E0, [(8, 4)], [(.st, 0xFFFFFFFF)], 0x0⟩, -- GRP_CFG
  ⟨0x100, [(64, 4)], [(.st, 0xC7730000)], 0x0⟩, -- TS_CFG
  ⟨0x200, [(64, 4)], [(.st, 0xFFFFFFFF)], 0x0⟩, -- TS_PAR
  ⟨0x300, [(64, 4)], [], 0x0⟩, -- TS_VAL
  ⟨0x400, [(64, 4)], [], 0x0⟩, -- TS_STAT
  ⟨0x500, [(4, 0x40), (16, 4)], [(.st, 0xFFFFFFFF)], 0x0⟩, -- NTC_TAB
  ⟨0x600, [], [(.st, 0x8000FF07)], 0x0⟩, -- CELL_CFG
  ⟨0x604, [], [(.w1c, 0x00FFFFFF)], 0x0⟩, -- CELL_LATCH
  ⟨0x608, [], [], 0x0⟩, -- CELL_WARN
  ⟨0x60C, [], [], 0x0⟩, -- CELL_GRP_FAULT
  ⟨0x610, [], [(.rw, 0x000F03FF)], 0x0⟩, -- CELL_SEL
  ⟨0x614, [], [], 0x0⟩, -- CELL_VAL
  ⟨0x618, [], [], 0x0⟩] -- CELL_STAT

/-- Registers of the STEPC page (spec/15_thermal_valves_counters.md). -/
def regsSTEPC : List Reg := [
  ⟨0x040, [], [(.st, 0x000000FF)], 0x0⟩, -- CHOP
  ⟨0x044, [], [], 0x0⟩, -- MOVING_MAP
  ⟨0x048, [], [], 0x0⟩, -- UNSURE_MAP
  ⟨0x04C, [], [], 0x0⟩, -- STALL_MAP
  ⟨0x050, [(4, 4)], [], 0x0⟩] -- VM

/-- Registers of the STEP page (spec/15_thermal_valves_counters.md). -/
def regsSTEP : List Reg := [
  ⟨0x040, [], [(.st, 0xFE00FFFF)], 0x80000000⟩, -- CFG
  ⟨0x044, [], [(.sc, 0x00000007)], 0x0⟩, -- CMD
  ⟨0x048, [], [], 0x0⟩, -- STATUS
  ⟨0x04C, [], [(.rw, 0xFFFFFFFF)], 0x0⟩, -- POS
  ⟨0x050, [], [(.rw, 0xFFFFFFFF)], 0x0⟩, -- TARGET
  ⟨0x054, [], [(.st, 0xFFFFFFFF)], 0x80000000⟩, -- VLIM_LO
  ⟨0x058, [], [(.st, 0xFFFFFFFF)], 0x7FFFFFFF⟩, -- VLIM_HI
  ⟨0x05C, [], [(.st, 0x00FFFFFF)], 0x0⟩, -- VMAX
  ⟨0x060, [], [(.st, 0x00FFFFFF)], 0x0⟩, -- ACC
  ⟨0x064, [], [(.st, 0x00FFFFFF)], 0x0⟩, -- DEC
  ⟨0x068, [], [(.st, 0x00FFFFFF)], 0x0⟩, -- VHOME
  ⟨0x06C, [], [(.st, 0xFFFFFFFF)], 0x0⟩, -- HOME_POS
  ⟨0x070, [], [(.st, 0xFFFFFFFF)], 0x0⟩, -- HOME_MAX
  ⟨0x074, [], [(.st, 0xFFFFFFFF)], 0x0⟩, -- I_CFG
  ⟨0x078, [], [(.st, 0xFFFFFFFF)], 0x0⟩, -- COIL
  ⟨0x07C, [], [(.st, 0x00FFFFFF)], 0x0⟩, -- EST_CFG
  ⟨0x080, [], [], 0x0⟩, -- VEL
  ⟨0x084, [], [], 0x0⟩, -- LOAD
  ⟨0x088, [], [(.rw, 0xFFFFFFFF)], 0x0⟩, -- STALL_CNT
  ⟨0x08C, [], [(.rw, 0xFFFFFFFF)], 0x0⟩] -- CLIP_CNT

/-- Registers of the PCNT page (spec/15_thermal_valves_counters.md). -/
def regsPCNT : List Reg := [
  ⟨0x040, [], [(.st, 0xF8FF0FFF)], 0x10064⟩, -- CFG
  ⟨0x044, [], [(.rw, 0xFFFFFFFF)], 0x0⟩, -- COUNT
  ⟨0x048, [], [(.st, 0xFFFFFFFF)], 0x80000000⟩, -- LIM_LO
  ⟨0x04C, [], [(.st, 0xFFFFFFFF)], 0x7FFFFFFF⟩, -- LIM_HI
  ⟨0x050, [], [(.w1c, 0x0000001F)], 0x0⟩, -- ERR
  ⟨0x054, [], [], 0x0⟩, -- EDGE_DT
  ⟨0x058, [], [], 0x0⟩, -- OBS_POS
  ⟨0x05C, [], [], 0x0⟩, -- OBS_FRAC
  ⟨0x060, [], [], 0x0⟩, -- OBS_SPD
  ⟨0x064, [], [], 0x0⟩, -- OBS_ACC
  ⟨0x068, [], [], 0x0⟩, -- LAT_CNT
  ⟨0x06C, [], [], 0x0⟩, -- LAT_SPD
  ⟨0x070, [], [], 0x0⟩, -- LAT_NS
  ⟨0x074, [], [(.rw, 0xFFFFFFFF)], 0x0⟩, -- ILL_CNT
  ⟨0x078, [], [(.rw, 0xFFFFFFFF)], 0x0⟩] -- OVR_CNT

/-- Registers of the SAFE page (spec/16_safety.md). -/
def regsSAFE : List Reg := [
  ⟨0x040, [], [(.wl, 0x00FFFFFF)], 0x0⟩, -- CFG
  ⟨0x044, [], [], 0x8⟩, -- STAT
  ⟨0x048, [], [(.wl, 0xFFFFFFFF)], 0x0⟩, -- PCRC
  ⟨0x04C, [], [], 0x0⟩, -- SGR_MAP
  ⟨0x050, [], [], 0xFFFFFF⟩, -- LATCH
  ⟨0x054, [], [], 0x0⟩, -- SPD_MAP
  ⟨0x058, [], [], 0x0⟩, -- IN_STAT
  ⟨0x05C, [], [], 0x0⟩, -- RST_STAT
  ⟨0x060, [], [], 0x0⟩, -- OUT_STAT
  ⟨0x064, [], [], 0x0⟩, -- CAUSE
  ⟨0x068, [], [], 0x0⟩, -- CAUSE_NS
  ⟨0x06C, [], [], 0x0⟩, -- CAUSE_RODS
  ⟨0x070, [], [(.wl, 0xE0FFFFFF)], 0x0⟩, -- MSG_CFG
  ⟨0x074, [], [(.wl, 0x00FFFFFF)], 0x0⟩, -- MSG_UDP
  ⟨0x078, [], [], 0x0⟩, -- MSG_TXSEQ
  ⟨0x07C, [], [(.rw, 0xFFFFFFFF)], 0x0⟩, -- MSG_ERR
  ⟨0x080, [(8, 4)], [(.wl, 0xEFFFFFFF)], 0x0⟩, -- IN_CFG
  ⟨0x0A0, [(4, 4)], [(.wl, 0xC0FFFFFF)], 0x0⟩, -- OUT_CFG
  ⟨0x100, [(24, 0x20)], [(.wl, 0x80FFFFFF)], 0x0⟩, -- MON_CFG
  ⟨0x104, [(24, 0x20)], [(.wl, 0xFFFFFFFF)], 0x0⟩, -- I2_SCALE
  ⟨0x108, [(24, 0x20)], [(.wl, 0xFFFFFFFF)], 0x0⟩, -- V_SCALE
  ⟨0x10C, [(24, 0x20)], [(.wl, 0xFFFFFFFF)], 0x0⟩, -- P_LIM
  ⟨0x110, [(24, 0x20)], [(.wl, 0xFFFFFFFF)], 0x0⟩, -- P_TOL
  ⟨0x114, [(24, 0x20)], [(.wl, 0xFFFFFFFF)], 0x0⟩, -- DEC_MIN
  ⟨0x118, [(24, 0x20)], [(.wl, 0xFFFFFFFF)], 0x0⟩, -- W_TOL
  ⟨0x11C, [(24, 0x20)], [(.wl, 0xFFFFFFFF)], 0x0⟩, -- T_TOL
  ⟨0x400, [(24, 8)], [], 0x0⟩, -- MON_P
  ⟨0x404, [(24, 8)], [], 0xFFFF0000⟩, -- MON_STAT
  ⟨0x580, [(16, 16)], [(.wl, 0xCFFFFFFF)], 0x0⟩, -- RXC_CFG
  ⟨0x584, [(16, 16)], [(.wl, 0x00FFFFFF)], 0x0⟩, -- RXC_RODS
  ⟨0x588, [(16, 16)], [(.wl, 0x0000FFFF)], 0x0⟩, -- RXC_BITS
  ⟨0x58C, [(16, 16)], [], 0x0⟩] -- RXC_STAT

/-- Registers of the SPAIR page (spec/16_safety.md). -/
def regsSPAIR : List Reg := [
  ⟨0x040, [], [], 0x0⟩, -- MODE
  ⟨0x044, [], [], 0x0⟩, -- STAT
  ⟨0x048, [], [], 0x0⟩, -- FATAL_PC
  ⟨0x04C, [], [], 0x0⟩, -- FATAL_NS
  ⟨0x050, [], [(.rw, 0x0000FFFF)], 0x0⟩, -- ECC_CNT
  ⟨0x054, [], [], 0x0⟩, -- ECC_ADDR
  ⟨0x058, [], [], 0x0⟩, -- CYCLE_LAST
  ⟨0x05C, [], [(.rw, 0x0003FFFF)], 0x0⟩, -- CYCLE_MAX
  ⟨0x060, [], [], 0x0⟩, -- WDT_KICKS
  ⟨0x064, [], [], 0x0⟩, -- REPLAY_CNT
  ⟨0x068, [], [], 0x0⟩] -- KCRC

/-- Registers of the FAB page (spec/17_fabric.md). -/
def regsFAB : List Reg := [
  ⟨0x040, [], [(.st, 0x00FF0010)], 0x0⟩, -- CFG
  ⟨0x044, [], [], 0x0⟩, -- STAT
  ⟨0x048, [], [], 0x0⟩, -- PEER
  ⟨0x04C, [], [(.st, 0x0000FFFF)], 0x0⟩, -- ASYM
  ⟨0x050, [], [], 0x0⟩, -- DLY
  ⟨0x054, [], [], 0x0⟩, -- CRED
  ⟨0x058, [], [], 0x0⟩, -- RXOCC
  ⟨0x05C, [], [(.rw, 0xFFFFFFFF)], 0x0⟩, -- REPLAY
  ⟨0x060, [], [(.rw, 0xFFFFFFFF)], 0x0⟩, -- CRCERR
  ⟨0x064, [], [(.rw, 0xFFFFFFFF)], 0x0⟩, -- DISCARD
  ⟨0x068, [], [(.rw, 0xFFFFFFFF)], 0x0⟩, -- CREDERR
  ⟨0x06C, [], [(.rw, 0xFFFFFFFF)], 0x0⟩, -- DOWN_CNT
  ⟨0x070, [], [(.rw, 0xFFFFFFFF)], 0x0⟩, -- FEC_CORR
  ⟨0x074, [], [(.rw, 0xFFFFFFFF)], 0x0⟩, -- FEC_UNCORR
  ⟨0x078, [], [], 0x0⟩, -- TXCNT
  ⟨0x07C, [], [], 0x0⟩] -- RXCNT

/-- Registers of the FABR page (spec/17_fabric.md). -/
def regsFABR : List Reg := [
  ⟨0x040, [], [(.wl, 0x7F7F0FFF)], 0x0⟩, -- ADDR_CFG
  ⟨0x044, [], [(.wl, 0xFFFFFFFF)], 0x0⟩, -- SYS_ID
  ⟨0x048, [], [], 0x0⟩, -- STAT
  ⟨0x04C, [], [(.st, 0x0000000F)], 0x0⟩, -- ARB
  ⟨0x050, [], [(.st, 0x0000FFFF)], 0x0⟩, -- TMO
  ⟨0x054, [], [(.st, 0x00003F3F)], 0x101⟩, -- SAFE_CFG
  ⟨0x058, [], [(.rw, 0xFFFFFFFF)], 0x0⟩, -- ROUTE_CNT
  ⟨0x05C, [], [(.rw, 0xFFFFFFFF)], 0x0⟩, -- NOROUTE_CNT
  ⟨0x060, [], [(.st, 0xFFFFFFE0)], 0x0⟩, -- TXQ_BASE_LO
  ⟨0x064, [], [(.st, 0x000000FF)], 0x0⟩, -- TXQ_BASE_HI
  ⟨0x068, [], [(.st, 0x0000FFFF)], 0x0⟩, -- TXQ_SIZE
  ⟨0x06C, [], [(.rw, 0x0000FFFF)], 0x0⟩, -- TXQ_WR
  ⟨0x070, [], [], 0x0⟩, -- TXQ_RD
  ⟨0x074, [], [], 0x0⟩, -- TXQ_DONE
  ⟨0x078, [], [(.rw, 0xFFFFFFFF)], 0x0⟩, -- TXN_CNT
  ⟨0x07C, [], [(.st, 0xFFFF0000)], 0x0⟩, -- BULK_BASE_LO
  ⟨0x080, [], [(.st, 0x000000FF)], 0x0⟩, -- BULK_BASE_HI
  ⟨0x084, [], [(.st, 0x0000FFFF)], 0x0⟩, -- BULK_SIZE
  ⟨0x088, [], [], 0x0⟩, -- BULK_WR
  ⟨0x08C, [], [(.rw, 0xFFFFFFFF)], 0x0⟩] -- BULK_RD

/-- Registers of the DISC page (spec/17_fabric.md). -/
def regsDISC : List Reg := [
  ⟨0x040, [], [(.st, 0x0000FFFF)], 0x0⟩, -- CTL
  ⟨0x044, [], [], 0x0⟩, -- STAT
  ⟨0x048, [], [], 0x0⟩, -- LAG
  ⟨0x04C, [], [(.rw, 0x00000FFF)], 0x0⟩, -- SEL
  ⟨0x050, [], [], 0x0⟩, -- ENTRY
  ⟨0x054, [], [], 0x0⟩, -- ENTRY_AGE
  ⟨0x058, [], [(.rw, 0xFFFFFFFF)], 0x0⟩, -- NOTICE_CNT
  ⟨0x100, [(128, 4)], [], 0x0⟩, -- REACH
  ⟨0x300, [(128, 4)], [], 0x0⟩] -- FINE

/-- Registers of the GATE page (spec/18_sessions.md). -/
def regsGATE : List Reg := [
  ⟨0x040, [], [(.st, 0x00FFFFFF)], 0x0⟩, -- CFG
  ⟨0x044, [], [], 0x0⟩, -- STAT
  ⟨0x048, [], [(.rw, 0x000003FF)], 0x0⟩, -- SESS_SEL
  ⟨0x04C, [], [], 0x0⟩, -- SESS_STAT
  ⟨0x050, [], [], 0x0⟩, -- SESS_TOKENS
  ⟨0x054, [], [], 0x0⟩, -- SESS_NOPAGE
  ⟨0x058, [], [(.sc, 0x00000007)], 0x0⟩, -- SESS_CMD
  ⟨0x05C, [], [(.rw, 0xCFFF000F)], 0x0⟩, -- OPEN_CFG
  ⟨0x060, [], [(.rw, 0x0000FFFF)], 0x0⟩, -- OPEN_REF
  ⟨0x064, [], [(.rw, 0xFFFFFFFF)], 0x0⟩, -- KEYADDR_LO
  ⟨0x068, [], [(.rw, 0xFFFFFFFF)], 0x0⟩, -- KEYADDR_HI
  ⟨0x06C, [], [], 0x0⟩, -- TUN_REQ
  ⟨0x070, [], [], 0x0⟩, -- TUN_REQ_ID_LO
  ⟨0x074, [], [], 0x0⟩, -- TUN_REQ_ID_HI
  ⟨0x078, [], [(.st, 0xFFFF0000)], 0x0⟩, -- SVC_BASE_LO
  ⟨0x07C, [], [(.st, 0x000000FF)], 0x0⟩, -- SVC_BASE_HI
  ⟨0x080, [], [(.st, 0x0000FFFF)], 0x0⟩, -- SVC_SIZE
  ⟨0x084, [], [], 0x0⟩, -- SVC_WR
  ⟨0x088, [], [(.rw, 0xFFFFFFFF)], 0x0⟩, -- SVC_RD
  ⟨0x08C, [], [(.rw, 0xFFFFFFFF)], 0x0⟩, -- SVC_RSP_LO
  ⟨0x090, [], [(.rw, 0xFFFFFFFF)], 0x0⟩, -- SVC_RSP_HI
  ⟨0x094, [], [(.sc, 0x80000000), (.rw, 0x73FF07FF)], 0x0⟩, -- SVC_RSP_CTL
  ⟨0x098, [], [(.rw, 0xFFFFFFFF)], 0x0⟩, -- SVC_RSP_TAG
  ⟨0x09C, [], [(.rw, 0xFFFFFFFF)], 0x0⟩] -- HS_REFUSED

/-- Registers of the KEYS page (spec/18_sessions.md). -/
def regsKEYS : List Reg := [
  ⟨0x040, [], [(.sc, 0x80000000), (.rw, 0x000FFF0F)], 0x0⟩, -- CMD
  ⟨0x044, [], [], 0x0⟩, -- STAT
  ⟨0x048, [], [(.rw, 0xFFFFFFFF)], 0x0⟩, -- IN_LO
  ⟨0x04C, [], [(.rw, 0xFFFFFFFF)], 0x0⟩, -- IN_HI
  ⟨0x050, [], [(.rw, 0x01FFFFFF)], 0x0⟩, -- LEN_IN
  ⟨0x054, [], [(.rw, 0xFFFFFFFF)], 0x0⟩, -- OUT_LO
  ⟨0x058, [], [(.rw, 0xFFFFFFFF)], 0x0⟩, -- OUT_HI
  ⟨0x05C, [], [(.rw, 0x0000003F)], 0x0⟩, -- SLOT_SEL
  ⟨0x060, [], [], 0x0⟩, -- SLOT_INFO
  ⟨0x064, [(16, 4)], [], 0x0⟩, -- SLOT_PUB
  ⟨0x0A4, [], [(.rw, 0xFFFFFFFF)], 0x0⟩] -- ENT_CNT

/-- Registers of the ETH page (spec/18_sessions.md). -/
def regsETH : List Reg := [
  ⟨0x040, [], [(.st, 0x0000000C)], 0x0⟩, -- CFG
  ⟨0x044, [], [], 0x0⟩, -- STAT
  ⟨0x048, [], [(.st, 0xFFFFFFFF)], 0x0⟩, -- MAC_LO
  ⟨0x04C, [], [(.st, 0x0000FFFF)], 0x0⟩, -- MAC_HI
  ⟨0x050, [], [(.st, 0xFFFFFFFF)], 0x0⟩, -- IP4
  ⟨0x054, [(4, 4)], [(.st, 0xFFFFFFFF)], 0x0⟩, -- IP6
  ⟨0x064, [], [(.st, 0x0000FFFF)], 0x0⟩, -- PORT
  ⟨0x068, [], [(.st, 0xFFFF0000)], 0x0⟩, -- RX_BASE_LO
  ⟨0x06C, [], [(.st, 0x000000FF)], 0x0⟩, -- RX_BASE_HI
  ⟨0x070, [], [(.st, 0x0000FFFF)], 0x0⟩, -- RX_SIZE
  ⟨0x074, [], [], 0x0⟩, -- RX_WR
  ⟨0x078, [], [(.rw, 0xFFFFFFFF)], 0x0⟩, -- RX_RD
  ⟨0x07C, [], [(.st, 0xFFFF0000)], 0x0⟩, -- TX_BASE_LO
  ⟨0x080, [], [(.st, 0x000000FF)], 0x0⟩, -- TX_BASE_HI
  ⟨0x084, [], [(.st, 0x0000FFFF)], 0x0⟩, -- TX_SIZE
  ⟨0x088, [], [(.rw, 0xFFFFFFFF)], 0x0⟩, -- TX_WR
  ⟨0x08C, [], [], 0x0⟩, -- TX_RD
  ⟨0x090, [], [(.rw, 0xFFFFFFFF)], 0x0⟩, -- RX_DROP
  ⟨0x094, [], [], 0x0⟩, -- RX_FRAMES
  ⟨0x098, [], [], 0x0⟩] -- TX_FRAMES

/-- Registers of the TALLY page (spec/19_tally_store.md). -/
def regsTALLY : List Reg := [
  ⟨0x040, [], [(.st, 0x0000FF03)], 0x0⟩, -- CTL
  ⟨0x044, [], [], 0x0⟩, -- STAT
  ⟨0x048, [], [(.sc, 0x00000003)], 0x0⟩, -- CMD
  ⟨0x04C, [], [(.st, 0x1FFFFFFF)], 0x0⟩, -- FMT_RING_MIN
  ⟨0x050, [], [], 0x0⟩, -- STORE_ID_LO
  ⟨0x054, [], [], 0x0⟩, -- STORE_ID_HI
  ⟨0x058, [], [], 0x0⟩, -- TOTAL
  ⟨0x05C, [], [], 0x0⟩, -- P_END
  ⟨0x060, [], [], 0x0⟩, -- RING_MIN
  ⟨0x064, [], [], 0x0⟩, -- RECOV
  ⟨0x068, [], [(.st, 0xFFFFFFFF)], 0x0⟩, -- POST_BASE_LO
  ⟨0x06C, [], [(.st, 0xFFFFFFFF)], 0x0⟩, -- POST_BASE_HI
  ⟨0x070, [], [(.st, 0x0000FFFF)], 0x0⟩, -- POST_SIZE
  ⟨0x074, [], [(.rw, 0x0000FFFF)], 0x0⟩, -- POST_WR
  ⟨0x078, [], [], 0x0⟩, -- POST_RD
  ⟨0x080, [(6, 16)], [], 0x0⟩, -- HEAD_RSEQ_LO
  ⟨0x084, [(6, 16)], [], 0x0⟩, -- HEAD_RSEQ_HI
  ⟨0x088, [(6, 16)], [], 0x0⟩, -- DUR_RSEQ_LO
  ⟨0x08C, [(6, 16)], [], 0x0⟩, -- DUR_RSEQ_HI
  ⟨0x0E0, [(6, 8)], [], 0x0⟩, -- HEAD_BSEQ
  ⟨0x0E4, [(6, 8)], [], 0x0⟩, -- HEAD_OFS
  ⟨0x110, [(6, 4)], [], 0x0⟩, -- OLD_BSEQ
  ⟨0x130, [], [], 0x0⟩, -- SEAL_CNT
  ⟨0x134, [], [], 0x0⟩, -- SEAL_NS
  ⟨0x138, [], [(.sc, 0x80000000), (.rw, 0x7001FFFF)], 0x0⟩, -- RD_CTL
  ⟨0x13C, [], [(.rw, 0xFFFFFFFF)], 0x0⟩, -- RD_BSEQ
  ⟨0x140, [], [(.rw, 0x0000FFFF)], 0x0⟩, -- RD_OFS
  ⟨0x144, [], [(.rw, 0xFFFFFFFF)], 0x0⟩, -- RD_DST_LO
  ⟨0x148, [], [(.rw, 0xFFFFFFFF)], 0x0⟩, -- RD_DST_HI
  ⟨0x14C, [], [], 0x0⟩, -- RD_RES
  ⟨0x150, [], [(.st, 0x803F0FFF)], 0x0⟩, -- REPL_CFG
  ⟨0x154, [], [], 0x0⟩, -- REPL_LAG
  ⟨0x158, [], [(.rw, 0xFFFFFFFF)], 0x0⟩] -- REFUSED

/-- Registers of the NVME page (spec/19_tally_store.md). -/
def regsNVME : List Reg := [
  ⟨0x040, [], [(.st, 0xFFFFFFFF)], 0x0⟩, -- NSID
  ⟨0x044, [], [], 0x0⟩, -- STAT
  ⟨0x048, [], [], 0x0⟩, -- CAP_BLK
  ⟨0x04C, [], [(.sc, 0x80000000), (.rw, 0x00000007)], 0x0⟩, -- NS_CMD
  ⟨0x050, [], [(.rw, 0xFFFFFFFF)], 0x0⟩, -- NS_ARG_LO
  ⟨0x054, [], [(.rw, 0xFFFFFFFF)], 0x0⟩, -- NS_ARG_HI
  ⟨0x058, [], [], 0x0⟩, -- NS_RES
  ⟨0x05C, [], [(.rw, 0xFFFFFFFF)], 0x0⟩, -- ERR_CNT
  ⟨0x060, [], [(.rw, 0xFFFFFFFF)], 0x0⟩, -- TMO_CNT
  ⟨0x064, [], [], 0x0⟩, -- WEAR
  ⟨0x068, [], [], 0x0⟩, -- TEMP
  ⟨0x06C, [], [], 0x0⟩] -- WRITTEN

/-- Registers of the APC page (spec/20_processors.md). -/
def regsAPC : List Reg := [
  ⟨0x040, [], [(.rw, 0x0000000F)], 0x1⟩, -- CTL
  ⟨0x044, [], [], 0x1⟩, -- STAT
  ⟨0x048, [], [(.rw, 0xFFFFFFFC)], 0x0⟩, -- ENTRY_LO
  ⟨0x04C, [], [(.rw, 0x000000FF)], 0x0⟩, -- ENTRY_HI
  ⟨0x050, [], [(.rw, 0x0000000F)], 0x0⟩, -- EXT_CFG
  ⟨0x054, [], [(.wo1, 0x80000000), (.rw, 0x0000FFFF)], 0x0⟩, -- WDT_CFG
  ⟨0x058, [], [(.rw, 0xFFFFFFFF)], 0x0⟩, -- WDT_KICK
  ⟨0x05C, [], [], 0x0⟩, -- WDT_REMAIN
  ⟨0x060, [], [(.rw, 0xFFFFFFFF)], 0x0⟩, -- L2_ECC_CNT
  ⟨0x064, [], [], 0x0⟩, -- L2_ECC_ADDR_LO
  ⟨0x068, [], [], 0x0⟩, -- L2_ECC_ADDR_HI
  ⟨0x06C, [], [], 0x0⟩, -- DDR_CFG
  ⟨0x070, [], [], 0x0⟩, -- DDR_STAT
  ⟨0x074, [], [(.rw, 0xFFFFFFFF)], 0x0⟩, -- DDR_ECC_CNT
  ⟨0x078, [], [], 0x0⟩, -- DDR_ECC_ADDR_LO
  ⟨0x07C, [], [], 0x0⟩, -- DDR_ECC_ADDR_HI
  ⟨0x080, [], [], 0x0⟩, -- MTIME_LO
  ⟨0x084, [], [], 0x0⟩, -- MTIME_HI
  ⟨0x088, [(4, 8)], [(.rw, 0xFFFFFFFF)], 0xFFFFFFFF⟩, -- MTIMECMP_LO
  ⟨0x08C, [(4, 8)], [(.rw, 0xFFFFFFFF)], 0xFFFFFFFF⟩, -- MTIMECMP_HI
  ⟨0x0A8, [(4, 4)], [(.rw, 0x00000001)], 0x0⟩] -- MSIP

/-- Registers of the DBG page (spec/20_processors.md). -/
def regsDBG : List Reg := [
  ⟨0x040, [], [(.wl, 0x00000003)], 0x0⟩, -- CTL
  ⟨0x044, [], [], 0x0⟩, -- STAT
  ⟨0x048, [], [(.rw, 0xFFFFFFFF)], 0x0⟩, -- REFUSED
  ⟨0x04C, [], [], 0x0⟩] -- LAST_REF

/-- Registers of the SUP page (spec/21_supplies_rest.md). -/
def regsSUP : List Reg := [
  ⟨0x040, [], [], 0x0⟩, -- STAT
  ⟨0x044, [], [], 0x0⟩, -- VAUX
  ⟨0x048, [], [], 0x0⟩, -- VBAK
  ⟨0x04C, [], [(.st, 0x0000FFFF)], 0x0⟩, -- PATH_CFG
  ⟨0x050, [], [(.wl, 0xFFFFFFFF)], 0x0⟩, -- BAK_CHG_LO
  ⟨0x054, [], [(.wl, 0xFFFFFFFF)], 0x0⟩, -- BAK_CHG_HI
  ⟨0x058, [], [(.wl, 0xFFFFFFFF)], 0x0⟩, -- BAK_TIME
  ⟨0x05C, [], [(.rw, 0xFFFFFFFF)], 0x0⟩, -- HO_CNT
  ⟨0x060, [], [(.st, 0xC0000000)], 0x0⟩, -- PMB_CFG
  ⟨0x064, [], [(.rw, 0xFFFFFFFF)], 0x0⟩, -- PMB_ERR
  ⟨0x068, [], [(.st, 0x0001EEEE)], 0x1EEEE⟩, -- IO_CFG
  ⟨0x06C, [], [(.st, 0xFFFFFFFF)], 0x433039D⟩, -- MON_LIM
  ⟨0x070, [], [(.st, 0x00000001)], 0x0⟩, -- MON_ACT
  ⟨0x074, [], [], 0x0⟩, -- MON_FLT_LO
  ⟨0x078, [], [], 0x0⟩, -- MON_FLT_HI
  ⟨0x080, [(8, 8)], [(.st, 0xF07F00FF)], 0xC0000000⟩, -- SLOT_CFG
  ⟨0x084, [(8, 8)], [(.st, 0x0003FFFF)], 0x0⟩, -- SLOT_RAILS
  ⟨0x0C0, [(8, 4)], [], 0x0⟩, -- SLOT_STAT
  ⟨0x0E0, [(8, 4)], [], 0x0⟩, -- SLOT_IIN
  ⟨0x100, [(48, 4)], [], 0x0⟩] -- MON_VAL

/-- Registers of the CLK page (spec/21_supplies_rest.md). -/
def regsCLK : List Reg := [
  ⟨0x040, [], [], 0x20000⟩, -- STAT
  ⟨0x044, [], [], 0x0⟩, -- X32K_PPM
  ⟨0x048, [], [(.rw, 0x00FFFFFF)], 0x0⟩, -- UNLOCK_CNT
  ⟨0x04C, [], [(.rw, 0x00FFFFFF)], 0x0⟩] -- XTAL_CNT

/-- Registers of the AON page (spec/21_supplies_rest.md). -/
def regsAON : List Reg := [
  ⟨0x040, [], [], 0x0⟩, -- CNT_LO
  ⟨0x044, [], [], 0x0⟩, -- CNT_HI
  ⟨0x048, [], [(.rw, 0xFFFFFFFF)], 0x0⟩, -- ALARM_LO
  ⟨0x04C, [], [(.rw, 0x0000FFFF)], 0x0⟩, -- ALARM_HI
  ⟨0x050, [], [(.rw, 0x00000001)], 0x0⟩, -- ALARM_CTL
  ⟨0x054, [], [(.rw, 0x000000FF)], 0x0⟩, -- SAFE_WAKE
  ⟨0x058, [], [], 0x0⟩, -- WATCH_STAT
  ⟨0x100, [(32, 4)], [], 0x0⟩, -- WAKE_CFG
  ⟨0x180, [(16, 4)], [(.rw, 0xFFFFFFFF)], 0x0⟩] -- SCRATCH

/-- Registers of the REST page (spec/21_supplies_rest.md). -/
def regsREST : List Reg := [
  ⟨0x040, [], [(.sc, 0x80000000), (.rw, 0x00000007)], 0x0⟩, -- REQ
  ⟨0x044, [], [(.w1c, 0x00004000)], 0x0⟩, -- STAT
  ⟨0x048, [], [(.st, 0xFF01FFFF)], 0x0⟩, -- CFG
  ⟨0x04C, [], [(.st, 0x0000003F)], 0xC7⟩, -- WAKE_EN
  ⟨0x050, [], [(.w1c, 0xFFFFFFFF)], 0x0⟩, -- WAKE_CAUSE
  ⟨0x054, [], [], 0x0⟩, -- WAKE_LAST
  ⟨0x058, [], [], 0x0⟩, -- DOM_STAT
  ⟨0x05C, [], [(.rw, 0xFFFFFFFF)], 0x0⟩, -- ENTRY_CNT
  ⟨0x060, [], [(.rw, 0xFFFFFFFF)], 0x0⟩] -- FAIL_CNT

/-- Registers of the LIFE page (spec/22_boot_profiles.md). -/
def regsLIFE : List Reg := [
  ⟨0x040, [], [], 0x0⟩, -- STATE
  ⟨0x044, [], [(.rw, 0xFFFF0007)], 0x0⟩, -- ADV
  ⟨0x048, [], [], 0x0⟩, -- ADV_RES
  ⟨0x04C, [], [], 0x0⟩, -- SERIAL_LO
  ⟨0x050, [], [], 0x0⟩, -- SERIAL_HI
  ⟨0x054, [], [], 0x0⟩, -- MAC_LO
  ⟨0x058, [], [], 0x0⟩] -- MAC_HI

/-- Registers of the PROF page (spec/22_boot_profiles.md). -/
def regsPROF : List Reg := [
  ⟨0x040, [], [], 0x0⟩, -- STAT
  ⟨0x044, [], [], 0x0⟩, -- NEXT
  ⟨0x048, [], [(.sc, 0x80000000), (.rw, 0x00000003)], 0x0⟩, -- SEL_CMD
  ⟨0x050, [(4, 8)], [], 0x0⟩, -- GEN_A
  ⟨0x054, [(4, 8)], [], 0x0⟩, -- GEN_B
  ⟨0x070, [], [], 0x0⟩, -- APPLY_ERR
  ⟨0x074, [], [], 0x0⟩, -- APPLY_LOC
  ⟨0x080, [], [(.sc, 0x80000000), (.rw, 0x00000003)], 0x0⟩, -- CFW_CMD
  ⟨0x084, [], [(.rw, 0x0FFFFFFF)], 0x0⟩, -- CFW_ADDR
  ⟨0x088, [], [(.rw, 0x0FFFFFFF)], 0x0⟩, -- CFW_LEN
  ⟨0x08C, [], [(.rw, 0xFFFFFFFF)], 0x0⟩, -- CFW_SRC_LO
  ⟨0x090, [], [(.rw, 0xFFFFFFFF)], 0x0⟩, -- CFW_SRC_HI
  ⟨0x094, [], [], 0x0⟩] -- CFW_RES

/-- Registers of the BIST page (spec/23_self_test.md). -/
def regsBIST : List Reg := [
  ⟨0x040, [], [(.st, 0x8000FFFF)], 0x0⟩, -- LB_CFG
  ⟨0x044, [], [], 0x0⟩, -- LB_STAT
  ⟨0x048, [], [], 0x0⟩, -- LB_BAD
  ⟨0x04C, [], [(.rw, 0xFFFFFFFF)], 0x0⟩, -- LB_CNT
  ⟨0x080, [(32, 4)], [], 0x0⟩, -- LB_AGE
  ⟨0x100, [(4, 16)], [(.st, 0x80FFFFFF)], 0x0⟩, -- AL_CFG
  ⟨0x104, [(4, 16)], [(.rw, 0xFFFFFFFF)], 0x0⟩, -- AL_DAC
  ⟨0x108, [(4, 16)], [(.st, 0x0000FFFF)], 0x5000⟩, -- AL_REF9
  ⟨0x10C, [(4, 16)], [(.w1c, 0x00000FFF)], 0x0⟩, -- AL_FAIL
  ⟨0x140, [], [(.rw, 0x000000FF)], 0x0⟩, -- MB_SEL
  ⟨0x144, [], [], 0x0⟩, -- MB_INFO
  ⟨0x148, [], [], 0x0⟩, -- MB_ADDR
  ⟨0x14C, [], [], 0x0⟩, -- MB_BIT
  ⟨0x160, [], [(.sc, 0x80000000), (.rw, 0x0000FF03)], 0x0⟩, -- DTE_CMD
  ⟨0x164, [], [], 0x0⟩] -- DTE_RES

/-- Registers of the INJ page (spec/23_self_test.md). -/
def regsINJ : List Reg := [
  ⟨0x040, [], [(.rw, 0x00FF0FFF)], 0x0⟩, -- CAT_SEL
  ⟨0x044, [], [], 0x0⟩, -- CAT_INFO
  ⟨0x048, [], [], 0x0⟩, -- ARMED_CNT
  ⟨0x04C, [], [(.rw, 0xFFFFFFFF)], 0x0⟩, -- DELIV_CNT
  ⟨0x050, [], [(.rw, 0xFFFFFFFF)], 0x0⟩, -- DENIED_CNT
  ⟨0x054, [], [], 0x0⟩, -- LAST
  ⟨0x058, [], [], 0x0⟩] -- LAST_NS

end Sys2Proof.Machine
end

