-- ==== Sys2Proof/Machine/RegNames.lean ====
section
/-! DEFINITION. The manual's names for registers (byte offset in the page) and their fields
(bits of a register), from the register and field tables of spec/02 to spec/23.  An array takes
its indices as arguments. -/

namespace Sys2Proof.Machine

abbrev PG.ID : Nat := 0x000
abbrev PG.ID_TYPE : Fld := ⟨PG.ID, 31, 20⟩
abbrev PG.ID_INSTANCE : Fld := ⟨PG.ID, 19, 12⟩
abbrev PG.ID_VERSION : Fld := ⟨PG.ID, 11, 0⟩
abbrev PG.CTL : Nat := 0x004
abbrev PG.CTL_LOCK : Fld := ⟨PG.CTL, 31, 31⟩
abbrev PG.CTL_LEASE_TIME : Fld := ⟨PG.CTL, 23, 16⟩
abbrev PG.CTL_DISCARD : Fld := ⟨PG.CTL, 9, 9⟩
abbrev PG.CTL_LEASE_REL : Fld := ⟨PG.CTL, 8, 8⟩
abbrev PG.CTL_LEASE_REQ : Fld := ⟨PG.CTL, 7, 7⟩
abbrev PG.CTL_PWR_REQ : Fld := ⟨PG.CTL, 5, 4⟩
abbrev PG.CTL_EN : Fld := ⟨PG.CTL, 0, 0⟩
abbrev PG.STAT : Nat := 0x008
abbrev PG.STAT_BLK : Fld := ⟨PG.STAT, 31, 16⟩
abbrev PG.STAT_INJ_ARMED : Fld := ⟨PG.STAT, 13, 13⟩
abbrev PG.STAT_LOCKED : Fld := ⟨PG.STAT, 12, 12⟩
abbrev PG.STAT_STAGED : Fld := ⟨PG.STAT, 11, 11⟩
abbrev PG.STAT_APPLY_PENDING : Fld := ⟨PG.STAT, 10, 10⟩
abbrev PG.STAT_LEASED : Fld := ⟨PG.STAT, 9, 9⟩
abbrev PG.STAT_DOMAIN : Fld := ⟨PG.STAT, 5, 4⟩
abbrev PG.STAT_SHUTTING : Fld := ⟨PG.STAT, 1, 1⟩
abbrev PG.STAT_ENABLED : Fld := ⟨PG.STAT, 0, 0⟩
abbrev PG.ERR : Nat := 0x00C
abbrev PG.ERR_BLK : Fld := ⟨PG.ERR, 31, 16⟩
abbrev PG.ERR_INJ_DENIED : Fld := ⟨PG.ERR, 7, 7⟩
abbrev PG.ERR_COMMIT_GEN : Fld := ⟨PG.ERR, 6, 6⟩
abbrev PG.ERR_STAGE_FULL : Fld := ⟨PG.ERR, 5, 5⟩
abbrev PG.ERR_LEASE : Fld := ⟨PG.ERR, 4, 4⟩
abbrev PG.ERR_SIZE : Fld := ⟨PG.ERR, 3, 3⟩
abbrev PG.ERR_BUSY : Fld := ⟨PG.ERR, 2, 2⟩
abbrev PG.ERR_WONCE : Fld := ⟨PG.ERR, 1, 1⟩
abbrev PG.ERR_WLOCK : Fld := ⟨PG.ERR, 0, 0⟩
abbrev PG.ERRCNT : Nat := 0x010
abbrev PG.ERRCNT_REFUSED : Fld := ⟨PG.ERRCNT, 31, 16⟩
abbrev PG.ERRCNT_ERRSET : Fld := ⟨PG.ERRCNT, 15, 0⟩
abbrev PG.EV_EN : Nat := 0x014
abbrev PG.EV_EN_BLK : Fld := ⟨PG.EV_EN, 31, 16⟩
abbrev PG.EV_EN_SHUT_DONE : Fld := ⟨PG.EV_EN, 4, 4⟩
abbrev PG.EV_EN_DOMAIN : Fld := ⟨PG.EV_EN, 3, 3⟩
abbrev PG.EV_EN_LEASE_LOST : Fld := ⟨PG.EV_EN, 2, 2⟩
abbrev PG.EV_EN_APPLIED : Fld := ⟨PG.EV_EN, 1, 1⟩
abbrev PG.EV_EN_ERR : Fld := ⟨PG.EV_EN, 0, 0⟩
abbrev PG.EV_STAT : Nat := 0x018
abbrev PG.EV_STAT_BLK : Fld := ⟨PG.EV_STAT, 31, 16⟩
abbrev PG.EV_STAT_SHUT_DONE : Fld := ⟨PG.EV_STAT, 4, 4⟩
abbrev PG.EV_STAT_DOMAIN : Fld := ⟨PG.EV_STAT, 3, 3⟩
abbrev PG.EV_STAT_LEASE_LOST : Fld := ⟨PG.EV_STAT, 2, 2⟩
abbrev PG.EV_STAT_APPLIED : Fld := ⟨PG.EV_STAT, 1, 1⟩
abbrev PG.EV_STAT_ERR : Fld := ⟨PG.EV_STAT, 0, 0⟩
abbrev PG.INJ : Nat := 0x01C
abbrev PG.INJ_SHOTS : Fld := ⟨PG.INJ, 15, 8⟩
abbrev PG.INJ_POINT : Fld := ⟨PG.INJ, 7, 0⟩
abbrev PG.INJ_CNT : Nat := 0x020
abbrev PG.LEASE : Nat := 0x024
abbrev PG.LEASE_KIND : Fld := ⟨PG.LEASE, 31, 30⟩
abbrev PG.LEASE_OWNER : Fld := ⟨PG.LEASE, 29, 16⟩
abbrev PG.LEASE_REMAIN : Fld := ⟨PG.LEASE, 15, 0⟩
abbrev PG.GEN : Nat := 0x028
abbrev PG.COMMIT : Nat := 0x02C
abbrev PG.COMMIT_APPLY_PENDING : Fld := ⟨PG.COMMIT, 31, 31⟩
abbrev PG.COMMIT_STAGED_WORDS : Fld := ⟨PG.COMMIT, 15, 0⟩
abbrev PG.WO_MAP : Nat := 0x030

abbrev SYS.ID : Nat := 0x040
abbrev SYS.ID_PART : Fld := ⟨SYS.ID, 31, 16⟩
abbrev SYS.ID_STEP : Fld := ⟨SYS.ID, 15, 8⟩
abbrev SYS.RST_CAUSE : Nat := 0x044
abbrev SYS.RST_CAUSE_CAUSE : Fld := ⟨SYS.RST_CAUSE, 3, 0⟩
abbrev SYS.RST_CMD : Nat := 0x048
abbrev SYS.RST_CMD_KEY : Fld := ⟨SYS.RST_CMD, 31, 16⟩
abbrev SYS.RST_CMD_SCOPE : Fld := ⟨SYS.RST_CMD, 3, 0⟩
abbrev SYS.BOOT_STAT : Nat := 0x04C
abbrev SYS.BOOT_STAT_LOADER : Fld := ⟨SYS.BOOT_STAT, 31, 31⟩
abbrev SYS.BOOT_STAT_LCAUSE : Fld := ⟨SYS.BOOT_STAT, 30, 28⟩
abbrev SYS.BOOT_STAT_FALLBACK : Fld := ⟨SYS.BOOT_STAT, 27, 27⟩
abbrev SYS.BOOT_STAT_FB_REASON : Fld := ⟨SYS.BOOT_STAT, 26, 24⟩
abbrev SYS.BOOT_STAT_PROF : Fld := ⟨SYS.BOOT_STAT, 17, 16⟩
abbrev SYS.BOOT_STAT_COPY : Fld := ⟨SYS.BOOT_STAT, 15, 15⟩
abbrev SYS.BOOT_STAT_STEP : Fld := ⟨SYS.BOOT_STAT, 3, 0⟩
abbrev SYS.BOOT_CNT : Nat := 0x050
abbrev SYS.BOOT_TIME : Nat := 0x054
abbrev SYS.BOOT_TIME_RD : Fld := ⟨SYS.BOOT_TIME, 19, 0⟩
abbrev SYS.REST_ACC : Nat := 0x058
abbrev SYS.REST_ACC_VALID : Fld := ⟨SYS.REST_ACC, 31, 31⟩
abbrev SYS.PIN : Nat := 0x05C
abbrev SYS.PIN_WAKE_FAIL_L : Fld := ⟨SYS.PIN, 2, 2⟩
abbrev SYS.PIN_PROF_SEL : Fld := ⟨SYS.PIN, 1, 0⟩
abbrev SYS.EVT_HEAD : Nat := 0x060
abbrev SYS.EVT_OFS : Nat := 0x064
abbrev SYS.EVR_ROUTE (n : Nat) : Nat := 0x400 + 4 * n
abbrev SYS.EVR_ROUTE_EN (n : Nat) : Fld := ⟨(SYS.EVR_ROUTE n), 31, 31⟩
abbrev SYS.EVR_ROUTE_WAKE (n : Nat) : Fld := ⟨(SYS.EVR_ROUTE n), 30, 30⟩
abbrev SYS.EVR_ROUTE_SRC (n : Nat) : Fld := ⟨(SYS.EVR_ROUTE n), 27, 16⟩
abbrev SYS.EVR_ROUTE_DST_KIND (n : Nat) : Fld := ⟨(SYS.EVR_ROUTE n), 11, 8⟩
abbrev SYS.EVR_ROUTE_DST_SEL (n : Nat) : Fld := ⟨(SYS.EVR_ROUTE n), 7, 0⟩
abbrev SYS.EVR_PEND (m : Nat) : Nat := 0x800 + 4 * m
abbrev SYS.EVR_UNROUTED : Nat := 0x820
abbrev SYS.EVR_UNROUTED_VALID : Fld := ⟨SYS.EVR_UNROUTED, 31, 31⟩
abbrev SYS.EVR_UNROUTED_PAGE : Fld := ⟨SYS.EVR_UNROUTED, 11, 0⟩

abbrev BEAM.NOW_NS : Nat := 0x040
abbrev BEAM.NOW_FRAC_LAT : Nat := 0x044
abbrev BEAM.NOW_SEC_LAT_LO : Nat := 0x048
abbrev BEAM.NOW_SEC_LAT_HI : Nat := 0x04C
abbrev BEAM.SNAP : Nat := 0x050
abbrev BEAM.SNAP_NS : Nat := 0x054
abbrev BEAM.SNAP_INFO : Nat := 0x058
abbrev BEAM.SNAP_INFO_LOCK : Fld := ⟨BEAM.SNAP_INFO, 9, 8⟩
abbrev BEAM.SNAP_INFO_HOLDOVER : Fld := ⟨BEAM.SNAP_INFO, 10, 10⟩
abbrev BEAM.SNAP_SEC_LO : Nat := 0x05C
abbrev BEAM.SNAP_SEC_HI : Nat := 0x060
abbrev BEAM.SET_NS : Nat := 0x064
abbrev BEAM.SET_SEC_LO : Nat := 0x068
abbrev BEAM.SET_SEC_HI : Nat := 0x06C
abbrev BEAM.CTL : Nat := 0x070
abbrev BEAM.CTL_PRIO : Fld := ⟨BEAM.CTL, 31, 24⟩
abbrev BEAM.CTL_CMSN : Fld := ⟨BEAM.CTL, 8, 8⟩
abbrev BEAM.CTL_PTP_EN : Fld := ⟨BEAM.CTL, 7, 7⟩
abbrev BEAM.CTL_PPS_POL : Fld := ⟨BEAM.CTL, 6, 6⟩
abbrev BEAM.CTL_PPS_IN_EN : Fld := ⟨BEAM.CTL, 5, 5⟩
abbrev BEAM.CTL_PPS_OUT_EN : Fld := ⟨BEAM.CTL, 4, 4⟩
abbrev BEAM.CTL_MASTER_EN : Fld := ⟨BEAM.CTL, 0, 0⟩
abbrev BEAM.STAT : Nat := 0x074
abbrev BEAM.STAT_CMSN_HOLD : Fld := ⟨BEAM.STAT, 15, 15⟩
abbrev BEAM.STAT_CROSS_SITE : Fld := ⟨BEAM.STAT, 14, 14⟩
abbrev BEAM.STAT_PTP_VALID : Fld := ⟨BEAM.STAT, 13, 13⟩
abbrev BEAM.STAT_PPS_VALID : Fld := ⟨BEAM.STAT, 12, 12⟩
abbrev BEAM.STAT_CLASS : Fld := ⟨BEAM.STAT, 11, 10⟩
abbrev BEAM.STAT_IS_MASTER : Fld := ⟨BEAM.STAT, 9, 9⟩
abbrev BEAM.STAT_CORR_LIMIT : Fld := ⟨BEAM.STAT, 8, 8⟩
abbrev BEAM.STAT_HOLDOVER : Fld := ⟨BEAM.STAT, 7, 7⟩
abbrev BEAM.STAT_STEP_PENDING : Fld := ⟨BEAM.STAT, 6, 6⟩
abbrev BEAM.STAT_LOCK : Fld := ⟨BEAM.STAT, 1, 0⟩
abbrev BEAM.MASTER : Nat := 0x078
abbrev BEAM.MASTER_VALID : Fld := ⟨BEAM.MASTER, 31, 31⟩
abbrev BEAM.MASTER_HOPS : Fld := ⟨BEAM.MASTER, 23, 16⟩
abbrev BEAM.MASTER_PARENT : Fld := ⟨BEAM.MASTER, 14, 12⟩
abbrev BEAM.MASTER_ADDR : Fld := ⟨BEAM.MASTER, 11, 0⟩
abbrev BEAM.OFFSET : Nat := 0x07C
abbrev BEAM.CORR : Nat := 0x080
abbrev BEAM.PPS_IN_ERR : Nat := 0x084
abbrev BEAM.PTP_OFFSET : Nat := 0x088
abbrev BEAM.PTP_UTC : Nat := 0x08C
abbrev BEAM.PPS_OUT : Nat := 0x090
abbrev BEAM.PPS_OUT_WIDTH : Fld := ⟨BEAM.PPS_OUT, 9, 0⟩
abbrev BEAM.PTP_CFG : Nat := 0x094
abbrev BEAM.PTP_CFG_PORT : Fld := ⟨BEAM.PTP_CFG, 12, 12⟩
abbrev BEAM.PTP_CFG_TRANSPORT : Fld := ⟨BEAM.PTP_CFG, 9, 8⟩
abbrev BEAM.PTP_CFG_DOMAIN : Fld := ⟨BEAM.PTP_CFG, 7, 0⟩
abbrev BEAM.HOLD_LIM : Nat := 0x098
abbrev BEAM.LOCK_LOSS : Nat := 0x09C

abbrev FRAME.ROD_MAP (n : Nat) : Nat := 0x040 + 4 * n
abbrev FRAME.ROD_MAP_GEN (n : Nat) : Fld := ⟨(FRAME.ROD_MAP n), 28, 24⟩
abbrev FRAME.ROD_MAP_OFFSET (n : Nat) : Fld := ⟨(FRAME.ROD_MAP n), 21, 0⟩
abbrev FRAME.SYNC_CTL : Nat := 0x0A0
abbrev FRAME.SYNC_CTL_EN : Fld := ⟨FRAME.SYNC_CTL, 31, 31⟩
abbrev FRAME.SYNC_CTL_GEN : Fld := ⟨FRAME.SYNC_CTL, 28, 24⟩
abbrev FRAME.SYNC_CTL_WIN : Fld := ⟨FRAME.SYNC_CTL, 7, 0⟩
abbrev FRAME.SYNC_DLY : Nat := 0x0A4
abbrev FRAME.SYNC_ERR : Nat := 0x0A8
abbrev FRAME.SYNC_MISS : Nat := 0x0AC
abbrev FRAME.CG_CTL (g : Nat) : Nat := 0x100 + 0x20 * g
abbrev FRAME.CG_CTL_EN (g : Nat) : Fld := ⟨(FRAME.CG_CTL g), 31, 31⟩
abbrev FRAME.CG_CTL_MID_EN (g : Nat) : Fld := ⟨(FRAME.CG_CTL g), 30, 30⟩
abbrev FRAME.CG_CTL_CROSS (g : Nat) : Fld := ⟨(FRAME.CG_CTL g), 29, 29⟩
abbrev FRAME.CG_CTL_GANG_ID (g : Nat) : Fld := ⟨(FRAME.CG_CTL g), 23, 16⟩
abbrev FRAME.CG_PERIOD (g : Nat) : Nat := 0x104 + 0x20 * g
abbrev FRAME.CG_PERIOD_PERIOD (g : Nat) : Fld := ⟨(FRAME.CG_PERIOD g), 21, 0⟩
abbrev FRAME.CG_ANCHOR_LO (g : Nat) : Nat := 0x108 + 0x20 * g
abbrev FRAME.CG_ANCHOR_HI (g : Nat) : Nat := 0x10C + 0x20 * g
abbrev FRAME.CG_ANCHOR_HI_ANCHOR (g : Nat) : Fld := ⟨(FRAME.CG_ANCHOR_HI g), 15, 0⟩
abbrev FRAME.CG_COUNT (g : Nat) : Nat := 0x110 + 0x20 * g
abbrev FRAME.CG_NEXT_NS (g : Nat) : Nat := 0x114 + 0x20 * g
abbrev FRAME.CG_STAT (g : Nat) : Nat := 0x118 + 0x20 * g
abbrev FRAME.CG_STAT_RUNNING (g : Nat) : Fld := ⟨(FRAME.CG_STAT g), 31, 31⟩
abbrev FRAME.CG_STAT_ANCHORED (g : Nat) : Fld := ⟨(FRAME.CG_STAT g), 30, 30⟩
abbrev FRAME.CG_STAT_WAIT_LOCK (g : Nat) : Fld := ⟨(FRAME.CG_STAT g), 29, 29⟩
abbrev FRAME.CG_STAT_GANG_MISMATCH (g : Nat) : Fld := ⟨(FRAME.CG_STAT g), 28, 28⟩

abbrev ROD.CFG : Nat := 0x040
abbrev ROD.CFG_STALE_LIM : Fld := ⟨ROD.CFG, 30, 24⟩
abbrev ROD.CFG_NP_EN : Fld := ⟨ROD.CFG, 16, 16⟩
abbrev ROD.CFG_REF_SRC : Fld := ⟨ROD.CFG, 12, 12⟩
abbrev ROD.CFG_MINP_MODE : Fld := ⟨ROD.CFG, 8, 8⟩
abbrev ROD.CFG_UPD_MODE : Fld := ⟨ROD.CFG, 4, 4⟩
abbrev ROD.CFG_SCHEME : Fld := ⟨ROD.CFG, 3, 2⟩
abbrev ROD.CFG_MODE : Fld := ⟨ROD.CFG, 0, 0⟩
abbrev ROD.DT_3L_A : Nat := 0x044
abbrev ROD.DT_3L_A_DT_OP : Fld := ⟨ROD.DT_3L_A, 30, 16⟩
abbrev ROD.DT_3L_A_DT_PO : Fld := ⟨ROD.DT_3L_A, 14, 0⟩
abbrev ROD.DT_3L_B : Nat := 0x048
abbrev ROD.DT_3L_B_DT_NO : Fld := ⟨ROD.DT_3L_B, 30, 16⟩
abbrev ROD.DT_3L_B_DT_ON : Fld := ⟨ROD.DT_3L_B, 14, 0⟩
abbrev ROD.DT_2L : Nat := 0x04C
abbrev ROD.DT_2L_DT_NP : Fld := ⟨ROD.DT_2L, 30, 16⟩
abbrev ROD.DT_2L_DT_PN : Fld := ⟨ROD.DT_2L, 14, 0⟩
abbrev ROD.MIN_PULSE : Nat := 0x050
abbrev ROD.NP_CFG : Nat := 0x054
abbrev ROD.NP_CFG_NP_GAIN : Fld := ⟨ROD.NP_CFG, 31, 16⟩
abbrev ROD.NP_CFG_NP_LIM : Fld := ⟨ROD.NP_CFG, 13, 0⟩
abbrev ROD.NP_AUX : Nat := 0x058
abbrev ROD.NP_AUX_NP_IDEAD : Fld := ⟨ROD.NP_AUX, 31, 16⟩
abbrev ROD.NP_AUX_NP_DPWM_LIM : Fld := ⟨ROD.NP_AUX, 15, 0⟩
abbrev ROD.NP_SRC : Nat := 0x05C
abbrev ROD.NP_SRC_I_SLOT : Fld := ⟨ROD.NP_SRC, 23, 16⟩
abbrev ROD.NP_SRC_VLO_SLOT : Fld := ⟨ROD.NP_SRC, 15, 8⟩
abbrev ROD.NP_SRC_VUP_SLOT : Fld := ⟨ROD.NP_SRC, 7, 0⟩
abbrev ROD.REF_AB : Nat := 0x060
abbrev ROD.REF_C : Nat := 0x064
abbrev ROD.ACT_AB : Nat := 0x068
abbrev ROD.ACT_C : Nat := 0x06C
abbrev ROD.ACT_ZS : Nat := 0x070
abbrev ROD.STATUS : Nat := 0x074
abbrev ROD.STATUS_ARMED : Fld := ⟨ROD.STATUS, 23, 23⟩
abbrev ROD.STATUS_SEG_HALF : Fld := ⟨ROD.STATUS, 22, 22⟩
abbrev ROD.STATUS_MID_ABSENT : Fld := ⟨ROD.STATUS, 21, 21⟩
abbrev ROD.STATUS_NP_FALLBACK : Fld := ⟨ROD.STATUS, 20, 20⟩
abbrev ROD.STATUS_REF_STALE : Fld := ⟨ROD.STATUS, 19, 19⟩
abbrev ROD.STATUS_REG_C : Fld := ⟨ROD.STATUS, 13, 12⟩
abbrev ROD.STATUS_REG_B : Fld := ⟨ROD.STATUS, 11, 10⟩
abbrev ROD.STATUS_REG_A : Fld := ⟨ROD.STATUS, 9, 8⟩
abbrev ROD.STATUS_MOD_ACTIVE : Fld := ⟨ROD.STATUS, 4, 4⟩
abbrev ROD.STATUS_STATE : Fld := ⟨ROD.STATUS, 3, 0⟩
abbrev ROD.UPD_NS : Nat := 0x078
abbrev ROD.EDGE_CNT : Nat := 0x07C
abbrev ROD.LATE_CNT : Nat := 0x080
abbrev ROD.DROP_CNT : Nat := 0x084
abbrev ROD.STRETCH_CNT : Nat := 0x088
abbrev ROD.FSTRETCH_CNT : Nat := 0x08C
abbrev ROD.CLIP_CNT : Nat := 0x090
abbrev ROD.FALLBACK_CNT : Nat := 0x094
abbrev ROD.STALE_RUN : Nat := 0x098

abbrev GLK.CTL : Nat := 0x040
abbrev GLK.CTL_LINK_EN : Fld := ⟨GLK.CTL, 11, 0⟩
abbrev GLK.TIMING : Nat := 0x044
abbrev GLK.TIMING_DLY_TOL : Fld := ⟨GLK.TIMING, 23, 16⟩
abbrev GLK.TIMING_PING_PER : Fld := ⟨GLK.TIMING, 15, 8⟩
abbrev GLK.TIMING_TIME_PER : Fld := ⟨GLK.TIMING, 7, 0⟩
abbrev GLK.REQ_CTL : Nat := 0x048
abbrev GLK.REQ_CTL_GO : Fld := ⟨GLK.REQ_CTL, 31, 31⟩
abbrev GLK.REQ_CTL_WR : Fld := ⟨GLK.REQ_CTL, 30, 30⟩
abbrev GLK.REQ_CTL_LEN : Fld := ⟨GLK.REQ_CTL, 29, 28⟩
abbrev GLK.REQ_CTL_POS : Fld := ⟨GLK.REQ_CTL, 27, 24⟩
abbrev GLK.REQ_CTL_ADDR : Fld := ⟨GLK.REQ_CTL, 15, 0⟩
abbrev GLK.REQ_DATA : Nat := 0x04C
abbrev GLK.RSP : Nat := 0x050
abbrev GLK.RSP_VALID : Fld := ⟨GLK.RSP, 31, 31⟩
abbrev GLK.RSP_CODE : Fld := ⟨GLK.RSP, 7, 0⟩
abbrev GLK.UP_MAP : Nat := 0x054
abbrev GLK.UP_MAP_STATE : Fld := ⟨GLK.UP_MAP, 11, 0⟩
abbrev GLK.LOST_CNT : Nat := 0x058
abbrev GLK.LSTAT (p : Nat) : Nat := 0x060 + 4 * p
abbrev GLK.LSTAT_LAST_FCODE (p : Nat) : Fld := ⟨(GLK.LSTAT p), 31, 24⟩
abbrev GLK.LSTAT_RETRAIN (p : Nat) : Fld := ⟨(GLK.LSTAT p), 15, 8⟩
abbrev GLK.LSTAT_DRV_OT (p : Nat) : Fld := ⟨(GLK.LSTAT p), 7, 7⟩
abbrev GLK.LSTAT_DRV_UVLO (p : Nat) : Fld := ⟨(GLK.LSTAT p), 6, 6⟩
abbrev GLK.LSTAT_DRV_DESAT (p : Nat) : Fld := ⟨(GLK.LSTAT p), 5, 5⟩
abbrev GLK.LSTAT_DRV_TRIPPED (p : Nat) : Fld := ⟨(GLK.LSTAT p), 4, 4⟩
abbrev GLK.LSTAT_TIME_OK (p : Nat) : Fld := ⟨(GLK.LSTAT p), 3, 3⟩
abbrev GLK.LSTAT_STATE (p : Nat) : Fld := ⟨(GLK.LSTAT p), 2, 0⟩
abbrev GLK.DLY (p : Nat) : Nat := 0x090 + 4 * p
abbrev GLK.DLY_DLY_SPREAD (p : Nat) : Fld := ⟨(GLK.DLY p), 31, 16⟩
abbrev GLK.DLY_DLY_MEAN (p : Nat) : Fld := ⟨(GLK.DLY p), 15, 0⟩
abbrev GLK.ASYM (p : Nat) : Nat := 0x0C0 + 4 * p
abbrev GLK.HB0 (p : Nat) : Nat := 0x0F0 + 4 * p
abbrev GLK.HB0_VN (p : Nat) : Fld := ⟨(GLK.HB0 p), 31, 24⟩
abbrev GLK.HB0_VP (p : Nat) : Fld := ⟨(GLK.HB0 p), 23, 16⟩
abbrev GLK.HB0_FLAGS (p : Nat) : Fld := ⟨(GLK.HB0 p), 15, 8⟩
abbrev GLK.HB0_STAT (p : Nat) : Fld := ⟨(GLK.HB0 p), 7, 0⟩
abbrev GLK.HB1 (p : Nat) : Nat := 0x120 + 4 * p
abbrev GLK.HB1_VCE (p : Nat) : Fld := ⟨(GLK.HB1 p), 31, 16⟩
abbrev GLK.HB1_NTC (p : Nat) : Fld := ⟨(GLK.HB1 p), 15, 0⟩
abbrev GLK.ERRCNT (p : Nat) : Nat := 0x150 + 4 * p

abbrev PROT.CMD : Nat := 0x040
abbrev PROT.CMD_CLR_LOCKOUT : Fld := ⟨PROT.CMD, 5, 5⟩
abbrev PROT.CMD_TRIP : Fld := ⟨PROT.CMD, 4, 4⟩
abbrev PROT.CMD_CLEAR : Fld := ⟨PROT.CMD, 3, 3⟩
abbrev PROT.CMD_STOP : Fld := ⟨PROT.CMD, 2, 2⟩
abbrev PROT.CMD_RUN : Fld := ⟨PROT.CMD, 1, 1⟩
abbrev PROT.CMD_START : Fld := ⟨PROT.CMD, 0, 0⟩
abbrev PROT.CFG : Nat := 0x044
abbrev PROT.CFG_TJ_SRC : Fld := ⟨PROT.CFG, 20, 20⟩
abbrev PROT.CFG_ID_J : Fld := ⟨PROT.CFG, 17, 16⟩
abbrev PROT.CFG_OPEN_EN : Fld := ⟨PROT.CFG, 12, 12⟩
abbrev PROT.CFG_DIAG_EN : Fld := ⟨PROT.CFG, 8, 8⟩
abbrev PROT.CFG_BRK_EN : Fld := ⟨PROT.CFG, 4, 4⟩
abbrev PROT.STATUS : Nat := 0x048
abbrev PROT.STATUS_DENY : Fld := ⟨PROT.STATUS, 31, 28⟩
abbrev PROT.STATUS_DESC_CAUSE : Fld := ⟨PROT.STATUS, 27, 24⟩
abbrev PROT.STATUS_STEP : Fld := ⟨PROT.STATUS, 23, 20⟩
abbrev PROT.STATUS_LOCKOUT : Fld := ⟨PROT.STATUS, 19, 19⟩
abbrev PROT.STATUS_PC_SHORTS : Fld := ⟨PROT.STATUS, 18, 17⟩
abbrev PROT.STATUS_HOLDOFF : Fld := ⟨PROT.STATUS, 16, 16⟩
abbrev PROT.STATUS_DIS_ABANDON : Fld := ⟨PROT.STATUS, 15, 15⟩
abbrev PROT.STATUS_DESC_SPD : Fld := ⟨PROT.STATUS, 14, 14⟩
abbrev PROT.STATUS_DC_LIVE : Fld := ⟨PROT.STATUS, 13, 13⟩
abbrev PROT.STATUS_CONT_FBK : Fld := ⟨PROT.STATUS, 12, 12⟩
abbrev PROT.STATUS_BRK_FBK : Fld := ⟨PROT.STATUS, 11, 11⟩
abbrev PROT.STATUS_STATE : Fld := ⟨PROT.STATUS, 3, 0⟩
abbrev PROT.CAUSE : Nat := 0x04C
abbrev PROT.FIRST : Nat := 0x050
abbrev PROT.FIRST_NS : Nat := 0x054
abbrev PROT.PC_CFG : Nat := 0x058
abbrev PROT.PC_CFG_PC_HI1 : Fld := ⟨PROT.PC_CFG, 31, 24⟩
abbrev PROT.PC_CFG_PC_MIN3 : Fld := ⟨PROT.PC_CFG, 23, 16⟩
abbrev PROT.PC_CFG_PC_TAU : Fld := ⟨PROT.PC_CFG, 11, 0⟩
abbrev PROT.PC_LOG : Nat := 0x05C
abbrev PROT.SEQ_CFG : Nat := 0x060
abbrev PROT.SEQ_CFG_CONT_TIME : Fld := ⟨PROT.SEQ_CFG, 31, 24⟩
abbrev PROT.SEQ_CFG_BRK_TIME : Fld := ⟨PROT.SEQ_CFG, 23, 16⟩
abbrev PROT.SEQ_CFG_DIS_LIM : Fld := ⟨PROT.SEQ_CFG, 15, 8⟩
abbrev PROT.SEQ_CFG_DIS_STOP : Fld := ⟨PROT.SEQ_CFG, 7, 0⟩
abbrev PROT.VSCALE : Nat := 0x064
abbrev PROT.VSCALE_VS_GAIN : Fld := ⟨PROT.VSCALE, 31, 16⟩
abbrev PROT.VSCALE_DIS_VSAFE : Fld := ⟨PROT.VSCALE, 15, 0⟩
abbrev PROT.SLOT_A : Nat := 0x068
abbrev PROT.SLOT_A_VPH : Fld := ⟨PROT.SLOT_A, 31, 24⟩
abbrev PROT.SLOT_A_VS : Fld := ⟨PROT.SLOT_A, 23, 16⟩
abbrev PROT.SLOT_A_I2 : Fld := ⟨PROT.SLOT_A, 15, 8⟩
abbrev PROT.SLOT_A_I1 : Fld := ⟨PROT.SLOT_A, 7, 0⟩
abbrev PROT.SLOT_B : Nat := 0x06C
abbrev PROT.SLOT_B_VLO : Fld := ⟨PROT.SLOT_B, 15, 8⟩
abbrev PROT.SLOT_B_VUP : Fld := ⟨PROT.SLOT_B, 7, 0⟩
abbrev PROT.DESC_CFG : Nat := 0x070
abbrev PROT.DESC_CFG_DESC_IEND : Fld := ⟨PROT.DESC_CFG, 31, 16⟩
abbrev PROT.DESC_CFG_DESC_TIME : Fld := ⟨PROT.DESC_CFG, 9, 0⟩
abbrev PROT.XCHK_CFG : Nat := 0x074
abbrev PROT.XCHK_CFG_XCHK_N : Fld := ⟨PROT.XCHK_CFG, 27, 24⟩
abbrev PROT.XCHK_CFG_XCHK_REL : Fld := ⟨PROT.XCHK_CFG, 23, 16⟩
abbrev PROT.XCHK_CFG_XCHK_ABS : Fld := ⟨PROT.XCHK_CFG, 15, 0⟩
abbrev PROT.UVLO_CFG : Nat := 0x078
abbrev PROT.UVLO_CFG_UVLO_CNT : Fld := ⟨PROT.UVLO_CFG, 19, 16⟩
abbrev PROT.UVLO_CFG_VN_MIN : Fld := ⟨PROT.UVLO_CFG, 15, 8⟩
abbrev PROT.UVLO_CFG_VP_MIN : Fld := ⟨PROT.UVLO_CFG, 7, 0⟩
abbrev PROT.DIAG_CFG : Nat := 0x07C
abbrev PROT.DIAG_CFG_DIAG_OPEN : Fld := ⟨PROT.DIAG_CFG, 31, 16⟩
abbrev PROT.DIAG_CFG_DIAG_WIN : Fld := ⟨PROT.DIAG_CFG, 15, 0⟩
abbrev PROT.DIAG_CFG2 : Nat := 0x080
abbrev PROT.DIAG_CFG2_DIAG_SETTLE : Fld := ⟨PROT.DIAG_CFG2, 23, 16⟩
abbrev PROT.DIAG_CFG2_DIAG_VMIN : Fld := ⟨PROT.DIAG_CFG2, 15, 0⟩
abbrev PROT.DIAG_RES : Nat := 0x084
abbrev PROT.MEAS : Nat := 0x088
abbrev PROT.DIDT_CFG : Nat := 0x08C
abbrev PROT.DIDT_CFG_BLANK : Fld := ⟨PROT.DIDT_CFG, 23, 16⟩
abbrev PROT.DIDT_CFG_DIDT_TH : Fld := ⟨PROT.DIDT_CFG, 15, 0⟩
abbrev PROT.CMP_TH (k : Nat) : Nat := 0x090 + 4 * k
abbrev PROT.CMP_TH_HI (k : Nat) : Fld := ⟨(PROT.CMP_TH k), 31, 16⟩
abbrev PROT.CMP_TH_LO (k : Nat) : Fld := ⟨(PROT.CMP_TH k), 15, 0⟩
abbrev PROT.CMP_CFG (k : Nat) : Nat := 0x0D0 + 4 * k
abbrev PROT.CMP_CFG_EN (k : Nat) : Fld := ⟨(PROT.CMP_CFG k), 31, 31⟩
abbrev PROT.CMP_CFG_ACT (k : Nat) : Fld := ⟨(PROT.CMP_CFG k), 29, 28⟩
abbrev PROT.CMP_CFG_BLANK (k : Nat) : Fld := ⟨(PROT.CMP_CFG k), 27, 27⟩
abbrev PROT.CMP_CFG_FILT (k : Nat) : Fld := ⟨(PROT.CMP_CFG k), 20, 16⟩
abbrev PROT.CMP_CFG_HYST (k : Nat) : Fld := ⟨(PROT.CMP_CFG k), 15, 0⟩
abbrev PROT.CMP_HIT : Nat := 0x110
abbrev PROT.CMP_HIT_LO : Fld := ⟨PROT.CMP_HIT, 31, 16⟩
abbrev PROT.CMP_HIT_HI : Fld := ⟨PROT.CMP_HIT, 15, 0⟩
abbrev PROT.TJ_CFG : Nat := 0x118
abbrev PROT.TJ_CFG_RTH : Fld := ⟨PROT.TJ_CFG, 31, 16⟩
abbrev PROT.TJ_CFG_TJ_TAU : Fld := ⟨PROT.TJ_CFG, 15, 0⟩
abbrev PROT.TJ_AUX : Nat := 0x11C
abbrev PROT.TJ_AUX_I_LSB : Fld := ⟨PROT.TJ_AUX, 31, 16⟩
abbrev PROT.TJ_AUX_RF_HYST : Fld := ⟨PROT.TJ_AUX, 7, 0⟩
abbrev PROT.SIG_CFG : Nat := 0x120
abbrev PROT.SIG_CFG_DMG_WARN : Fld := ⟨PROT.SIG_CFG, 23, 16⟩
abbrev PROT.SIG_CFG_SIG_DRIFT_LIM : Fld := ⟨PROT.SIG_CFG, 15, 8⟩
abbrev PROT.SIG_CFG_SIG_BASE_N : Fld := ⟨PROT.SIG_CFG, 7, 0⟩
abbrev PROT.MOD_ID_LO (m : Nat) : Nat := 0x130 + 8 * m
abbrev PROT.MOD_ID_HI (m : Nat) : Nat := 0x134 + 8 * m
abbrev PROT.TJ_EST (m : Nat) : Nat := 0x148 + 4 * m
abbrev PROT.TJ_IN (m : Nat) : Nat := 0x154 + 4 * m
abbrev PROT.LIFE_STAT : Nat := 0x160
abbrev PROT.LIFE_STAT_GEN2 : Fld := ⟨PROT.LIFE_STAT, 31, 24⟩
abbrev PROT.LIFE_STAT_GEN1 : Fld := ⟨PROT.LIFE_STAT, 23, 16⟩
abbrev PROT.LIFE_STAT_GEN0 : Fld := ⟨PROT.LIFE_STAT, 15, 8⟩
abbrev PROT.LIFE_STAT_SIG_DRIFT : Fld := ⟨PROT.LIFE_STAT, 6, 4⟩
abbrev PROT.LIFE_STAT_DMG_WARN : Fld := ⟨PROT.LIFE_STAT, 2, 0⟩
abbrev PROT.RF_OVF : Nat := 0x164
abbrev PROT.RF_BIN (m b : Nat) : Nat := 0x200 + 0x100 * m + 4 * b
abbrev PROT.DMG_LO (m : Nat) : Nat := 0x500 + 8 * m
abbrev PROT.DMG_HI (m : Nat) : Nat := 0x504 + 8 * m
abbrev PROT.SIG_BASE_A (m : Nat) : Nat := 0x520 + 16 * m
abbrev PROT.SIG_BASE_B (m : Nat) : Nat := 0x524 + 16 * m
abbrev PROT.SIG_CUR_A (m : Nat) : Nat := 0x528 + 16 * m
abbrev PROT.SIG_CUR_B (m : Nat) : Nat := 0x52C + 16 * m
abbrev PROT.DMG_COEF (b : Nat) : Nat := 0x600 + 4 * b

abbrev ACQ.STATUS : Nat := 0x040
abbrev ACQ.SWTRIG : Nat := 0x044
abbrev ACQ.SEQ_CFG (c : Nat) : Nat := 0x080 + 0x20 * c
abbrev ACQ.SEQ_CFG_EN (c : Nat) : Fld := ⟨(ACQ.SEQ_CFG c), 31, 31⟩
abbrev ACQ.SEQ_CFG_BASE (c : Nat) : Fld := ⟨(ACQ.SEQ_CFG c), 29, 24⟩
abbrev ACQ.SEQ_CFG_LEN (c : Nat) : Fld := ⟨(ACQ.SEQ_CFG c), 22, 16⟩
abbrev ACQ.TRIG0 (c : Nat) : Nat := 0x084 + 0x20 * c
abbrev ACQ.TRIG0_SRC (c : Nat) : Fld := ⟨(ACQ.TRIG0 c), 31, 29⟩
abbrev ACQ.TRIG0_SEL (c : Nat) : Fld := ⟨(ACQ.TRIG0 c), 28, 24⟩
abbrev ACQ.TRIG0_DLY (c : Nat) : Fld := ⟨(ACQ.TRIG0 c), 19, 0⟩
abbrev ACQ.TRIG1 (c : Nat) : Nat := 0x088 + 0x20 * c
abbrev ACQ.TRIG1_SRC (c : Nat) : Fld := ⟨(ACQ.TRIG1 c), 31, 29⟩
abbrev ACQ.TRIG1_SEL (c : Nat) : Fld := ⟨(ACQ.TRIG1 c), 28, 24⟩
abbrev ACQ.TRIG1_DLY (c : Nat) : Fld := ⟨(ACQ.TRIG1 c), 19, 0⟩
abbrev ACQ.URG_AUTO (c : Nat) : Nat := 0x08C + 0x20 * c
abbrev ACQ.URG_AUTO_SLOT_BASE (c : Nat) : Fld := ⟨(ACQ.URG_AUTO c), 15, 8⟩
abbrev ACQ.URG_AUTO_MASK (c : Nat) : Fld := ⟨(ACQ.URG_AUTO c), 7, 0⟩
abbrev ACQ.URG (c : Nat) : Nat := 0x090 + 0x20 * c
abbrev ACQ.URG_REQ (c : Nat) : Fld := ⟨(ACQ.URG c), 31, 31⟩
abbrev ACQ.URG_AVG (c : Nat) : Fld := ⟨(ACQ.URG c), 24, 20⟩
abbrev ACQ.URG_DEPTH (c : Nat) : Fld := ⟨(ACQ.URG c), 18, 16⟩
abbrev ACQ.URG_INPUT (c : Nat) : Fld := ⟨(ACQ.URG c), 11, 8⟩
abbrev ACQ.URG_SLOT (c : Nat) : Fld := ⟨(ACQ.URG c), 7, 0⟩
abbrev ACQ.CSTAT (c : Nat) : Nat := 0x094 + 0x20 * c
abbrev ACQ.CSTAT_ENTRY (c : Nat) : Fld := ⟨(ACQ.CSTAT c), 29, 24⟩
abbrev ACQ.CSTAT_REP_DONE (c : Nat) : Fld := ⟨(ACQ.CSTAT c), 23, 16⟩
abbrev ACQ.CSTAT_AWAKE (c : Nat) : Fld := ⟨(ACQ.CSTAT c), 4, 4⟩
abbrev ACQ.CSTAT_PEND1 (c : Nat) : Fld := ⟨(ACQ.CSTAT c), 3, 3⟩
abbrev ACQ.CSTAT_PEND0 (c : Nat) : Fld := ⟨(ACQ.CSTAT c), 2, 2⟩
abbrev ACQ.CSTAT_STATE (c : Nat) : Fld := ⟨(ACQ.CSTAT c), 1, 0⟩
abbrev ACQ.CNT0 (c : Nat) : Nat := 0x098 + 0x20 * c
abbrev ACQ.CNT0_SLIP (c : Nat) : Fld := ⟨(ACQ.CNT0 c), 31, 16⟩
abbrev ACQ.CNT0_TRIG_LOST (c : Nat) : Fld := ⟨(ACQ.CNT0 c), 15, 0⟩
abbrev ACQ.CNT1 (c : Nat) : Nat := 0x09C + 0x20 * c
abbrev ACQ.CNT1_URG_REFUSED (c : Nat) : Fld := ⟨(ACQ.CNT1 c), 31, 16⟩
abbrev ACQ.CNT1_PASSES (c : Nat) : Fld := ⟨(ACQ.CNT1 c), 15, 0⟩
abbrev ACQ.SLOT_W0 (s : Nat) : Nat := 0x400 + 12 * s
abbrev ACQ.SLOT_W1 (s : Nat) : Nat := 0x404 + 12 * s
abbrev ACQ.SLOT_W2 (s : Nat) : Nat := 0x408 + 12 * s

abbrev FDC.PWR_CTL : Nat := 0x040
abbrev FDC.PWR_CTL_NAP_EN : Fld := ⟨FDC.PWR_CTL, 27, 16⟩
abbrev FDC.PWR_CTL_AWAKE : Fld := ⟨FDC.PWR_CTL, 11, 0⟩
abbrev FDC.PWR_STAT : Nat := 0x044
abbrev FDC.CAL_CTL : Nat := 0x048
abbrev FDC.CAL_CTL_FREEZE : Fld := ⟨FDC.CAL_CTL, 1, 1⟩
abbrev FDC.CAL_CTL_CAL_EN : Fld := ⟨FDC.CAL_CTL, 0, 0⟩
abbrev FDC.CAL_STAT : Nat := 0x04C
abbrev FDC.CAL_STAT_STARVED : Fld := ⟨FDC.CAL_STAT, 27, 16⟩
abbrev FDC.CAL_STAT_CONVERGED : Fld := ⟨FDC.CAL_STAT, 11, 0⟩
abbrev FDC.CAL_SEL : Nat := 0x050
abbrev FDC.CAL_OFS : Nat := 0x054
abbrev FDC.CAL_GAIN : Nat := 0x058
abbrev FDC.CAL_SKEW : Nat := 0x05C
abbrev FDC.FILT_SAT : Nat := 0x060

abbrev TDIG.DRAIN_CTL : Nat := 0x040
abbrev TDIG.DRAIN_CTL_EN : Fld := ⟨TDIG.DRAIN_CTL, 0, 0⟩
abbrev TDIG.DRAIN_BASE_LO : Nat := 0x044
abbrev TDIG.DRAIN_BASE_HI : Nat := 0x048
abbrev TDIG.DRAIN_SIZE : Nat := 0x04C
abbrev TDIG.DRAIN_WR : Nat := 0x050
abbrev TDIG.DRAIN_RD : Nat := 0x054
abbrev TDIG.BUF_STAT : Nat := 0x058
abbrev TDIG.CAP_SEQ : Nat := 0x05C
abbrev TDIG.OVF_CNT : Nat := 0x060
abbrev TDIG.TD_CTL (d : Nat) : Nat := 0x080 + 0x20 * d
abbrev TDIG.TD_CTL_EN (d : Nat) : Fld := ⟨(TDIG.TD_CTL d), 31, 31⟩
abbrev TDIG.TD_CTL_LIFE_EN (d : Nat) : Fld := ⟨(TDIG.TD_CTL d), 30, 30⟩
abbrev TDIG.TD_CTL_NAP (d : Nat) : Fld := ⟨(TDIG.TD_CTL d), 29, 29⟩
abbrev TDIG.TD_CTL_TRIG (d : Nat) : Fld := ⟨(TDIG.TD_CTL d), 28, 28⟩
abbrev TDIG.TD_CTL_LEVEL (d : Nat) : Fld := ⟨(TDIG.TD_CTL d), 27, 26⟩
abbrev TDIG.TD_CTL_ROD (d : Nat) : Fld := ⟨(TDIG.TD_CTL d), 25, 23⟩
abbrev TDIG.TD_CTL_POS (d : Nat) : Fld := ⟨(TDIG.TD_CTL d), 22, 19⟩
abbrev TDIG.TD_CTL_INPUT (d : Nat) : Fld := ⟨(TDIG.TD_CTL d), 15, 10⟩
abbrev TDIG.TD_CTL_POST (d : Nat) : Fld := ⟨(TDIG.TD_CTL d), 4, 0⟩
abbrev TDIG.TD_EVERY (d : Nat) : Nat := 0x084 + 0x20 * d
abbrev TDIG.TD_TIME_NS (d : Nat) : Nat := 0x088 + 0x20 * d
abbrev TDIG.TD_STAT (d : Nat) : Nat := 0x08C + 0x20 * d
abbrev TDIG.TD_CNT (d : Nat) : Nat := 0x090 + 0x20 * d
abbrev TDIG.TD_CNT_BUSY (d : Nat) : Fld := ⟨(TDIG.TD_CNT d), 31, 16⟩
abbrev TDIG.TD_CNT_INVALID (d : Nat) : Fld := ⟨(TDIG.TD_CNT d), 15, 0⟩
abbrev TDIG.TD_FEAT0 (d : Nat) : Nat := 0x094 + 0x20 * d
abbrev TDIG.TD_FEAT0_F1 (d : Nat) : Fld := ⟨(TDIG.TD_FEAT0 d), 31, 16⟩
abbrev TDIG.TD_FEAT0_F0 (d : Nat) : Fld := ⟨(TDIG.TD_FEAT0 d), 15, 0⟩
abbrev TDIG.TD_FEAT1 (d : Nat) : Nat := 0x098 + 0x20 * d
abbrev TDIG.TD_FEAT1_FVALID (d : Nat) : Fld := ⟨(TDIG.TD_FEAT1 d), 18, 16⟩
abbrev TDIG.TD_FEAT1_F2 (d : Nat) : Fld := ⟨(TDIG.TD_FEAT1 d), 15, 0⟩

abbrev RECK.CTL : Nat := 0x040
abbrev RECK.CTL_CLR_FATAL : Fld := ⟨RECK.CTL, 0, 0⟩
abbrev RECK.ENTRY : Nat := 0x044
abbrev RECK.STATUS : Nat := 0x048
abbrev RECK.STATUS_PHYS : Fld := ⟨RECK.STATUS, 31, 27⟩
abbrev RECK.STATUS_SPARE : Fld := ⟨RECK.STATUS, 26, 26⟩
abbrev RECK.STATUS_CDEP : Fld := ⟨RECK.STATUS, 25, 18⟩
abbrev RECK.STATUS_OCC : Fld := ⟨RECK.STATUS, 17, 15⟩
abbrev RECK.STATUS_CCP : Fld := ⟨RECK.STATUS, 14, 12⟩
abbrev RECK.STATUS_LAST_SRC : Fld := ⟨RECK.STATUS, 5, 4⟩
abbrev RECK.STATUS_RESTARTED : Fld := ⟨RECK.STATUS, 3, 3⟩
abbrev RECK.STATUS_STATE : Fld := ⟨RECK.STATUS, 2, 0⟩
abbrev RECK.PC : Nat := 0x04C
abbrev RECK.TRIG (s : Nat) : Nat := 0x050 + 4 * s
abbrev RECK.TRIG_SRC (s : Nat) : Fld := ⟨(RECK.TRIG s), 30, 28⟩
abbrev RECK.TRIG_SEL (s : Nat) : Fld := ⟨(RECK.TRIG s), 7, 0⟩
abbrev RECK.PEND : Nat := 0x060
abbrev RECK.PEND_PEND : Fld := ⟨RECK.PEND, 31, 24⟩
abbrev RECK.PEND_PEND_16 : Fld := ⟨RECK.PEND, 23, 16⟩
abbrev RECK.PEND_PEND_8 : Fld := ⟨RECK.PEND, 15, 8⟩
abbrev RECK.PEND_PEND_0 : Fld := ⟨RECK.PEND, 7, 0⟩
abbrev RECK.OVR_CNT : Nat := 0x064
abbrev RECK.SWTRIG : Nat := 0x068
abbrev RECK.CARRY_CFG : Nat := 0x06C
abbrev RECK.CARRY_CFG_CARRY_BASE : Fld := ⟨RECK.CARRY_CFG, 31, 16⟩
abbrev RECK.CARRY_CFG_CARRY_CNT : Fld := ⟨RECK.CARRY_CFG, 7, 0⟩
abbrev RECK.DRIVES : Nat := 0x070
abbrev RECK.TRAPINFO : Nat := 0x074
abbrev RECK.TRAPINFO_TPC : Fld := ⟨RECK.TRAPINFO, 31, 16⟩
abbrev RECK.FATAL : Nat := 0x078
abbrev RECK.FATAL_CCP : Fld := ⟨RECK.FATAL, 18, 16⟩
abbrev RECK.FATAL_PC : Nat := 0x07C
abbrev RECK.MEM_ADDR : Nat := 0x080
abbrev RECK.MEM_DATA : Nat := 0x084
abbrev RECK.ECC_CNT : Nat := 0x088
abbrev RECK.ECC_CNT_IRAM : Fld := ⟨RECK.ECC_CNT, 31, 16⟩
abbrev RECK.ECC_CNT_DRAM : Fld := ⟨RECK.ECC_CNT, 15, 0⟩
abbrev RECK.WAKE_CNT : Nat := 0x08C
abbrev RECK.BUSY_LAST : Nat := 0x090
abbrev RECK.BUSY_MAX : Nat := 0x094
abbrev RECK.MIG_DELAY : Nat := 0x098
abbrev RECK.GLOBAL (i : Nat) : Nat := 0x0A0 + 4 * i

abbrev LOOP.CFG : Nat := 0x040
abbrev LOOP.CFG_ANG_TMO : Fld := ⟨LOOP.CFG, 31, 24⟩
abbrev LOOP.CFG_MARK_CONV : Fld := ⟨LOOP.CFG, 19, 16⟩
abbrev LOOP.CFG_ANG_SRC : Fld := ⟨LOOP.CFG, 9, 8⟩
abbrev LOOP.CFG_FF_EN : Fld := ⟨LOOP.CFG, 1, 1⟩
abbrev LOOP.CFG_DEC_EN : Fld := ⟨LOOP.CFG, 0, 0⟩
abbrev LOOP.SLOTS : Nat := 0x044
abbrev LOOP.SLOTS_VLO : Fld := ⟨LOOP.SLOTS, 31, 24⟩
abbrev LOOP.SLOTS_VUP : Fld := ⟨LOOP.SLOTS, 23, 16⟩
abbrev LOOP.I_SCALE : Nat := 0x048
abbrev LOOP.V_SCALE : Nat := 0x04C
abbrev LOOP.VDC_SCALE : Nat := 0x050
abbrev LOOP.VDC_MIN : Nat := 0x054
abbrev LOOP.KP : Nat := 0x058
abbrev LOOP.KI : Nat := 0x05C
abbrev LOOP.L_DEC : Nat := 0x060
abbrev LOOP.U_LIM : Nat := 0x064
abbrev LOOP.ANG_ADV : Nat := 0x068
abbrev LOOP.PQ_TAU : Nat := 0x06C
abbrev LOOP.IREF_D : Nat := 0x070
abbrev LOOP.IREF_Q : Nat := 0x074
abbrev LOOP.THETA_NS : Nat := 0x078
abbrev LOOP.OMEGA : Nat := 0x07C
abbrev LOOP.THETA : Nat := 0x080
abbrev LOOP.STAT : Nat := 0x084
abbrev LOOP.STAT_ANG_OLD : Fld := ⟨LOOP.STAT, 7, 7⟩
abbrev LOOP.STAT_VDC_LOW : Fld := ⟨LOOP.STAT, 6, 6⟩
abbrev LOOP.STAT_U_LIMIT : Fld := ⟨LOOP.STAT, 5, 5⟩
abbrev LOOP.STAT_SKIPPED : Fld := ⟨LOOP.STAT, 4, 4⟩
abbrev LOOP.STAT_INT_ACTIVE : Fld := ⟨LOOP.STAT, 3, 3⟩
abbrev LOOP.STAT_NAN : Fld := ⟨LOOP.STAT, 2, 2⟩
abbrev LOOP.STAT_RUNNING : Fld := ⟨LOOP.STAT, 1, 1⟩
abbrev LOOP.STAT_LRN_ACTIVE : Fld := ⟨LOOP.STAT, 0, 0⟩
abbrev LOOP.ID : Nat := 0x088
abbrev LOOP.IQ : Nat := 0x08C
abbrev LOOP.VD : Nat := 0x090
abbrev LOOP.VQ : Nat := 0x094
abbrev LOOP.VDC : Nat := 0x098
abbrev LOOP.UD : Nat := 0x09C
abbrev LOOP.UQ : Nat := 0x0A0
abbrev LOOP.XI_D : Nat := 0x0A4
abbrev LOOP.XI_Q : Nat := 0x0A8
abbrev LOOP.PMEAS : Nat := 0x0AC
abbrev LOOP.QMEAS : Nat := 0x0B0
abbrev LOOP.DFACT : Nat := 0x0B4
abbrev LOOP.RUN_NS : Nat := 0x0B8
abbrev LOOP.DELAY_LAST : Nat := 0x0BC
abbrev LOOP.RUN_TIME : Nat := 0x0C0
abbrev LOOP.SKIP_CNT : Nat := 0x0C4
abbrev LOOP.NAN_CNT : Nat := 0x0C8
abbrev LOOP.LIMIT_CNT : Nat := 0x0CC
abbrev LOOP.PSET : Nat := 0x0D0
abbrev LOOP.QSET : Nat := 0x0D4
abbrev LOOP.THETA_S : Nat := 0x0D8
abbrev LOOP.KCTL : Nat := 0x100
abbrev LOOP.KCTL_KDIV : Fld := ⟨LOOP.KCTL, 20, 16⟩
abbrev LOOP.KCTL_DAMP_REF : Fld := ⟨LOOP.KCTL, 1, 1⟩
abbrev LOOP.KCTL_EXC_MODE : Fld := ⟨LOOP.KCTL, 0, 0⟩
abbrev LOOP.KPAR (i : Nat) : Nat := 0x104 + 4 * i
abbrev LOOP.KSTAT : Nat := 0x150
abbrev LOOP.KSTAT_KVER : Fld := ⟨LOOP.KSTAT, 31, 24⟩
abbrev LOOP.KSTAT_PARAM_BAD : Fld := ⟨LOOP.KSTAT, 9, 9⟩
abbrev LOOP.KSTAT_F_LIMIT : Fld := ⟨LOOP.KSTAT, 8, 8⟩
abbrev LOOP.KSTAT_E_LIMIT : Fld := ⟨LOOP.KSTAT, 7, 7⟩
abbrev LOOP.KSTAT_ILIMIT : Fld := ⟨LOOP.KSTAT, 6, 6⟩
abbrev LOOP.KSTAT_NO_SYNC : Fld := ⟨LOOP.KSTAT, 5, 5⟩
abbrev LOOP.KSTAT_SYNC_OK : Fld := ⟨LOOP.KSTAT, 4, 4⟩
abbrev LOOP.KSTAT_KSTATE : Fld := ⟨LOOP.KSTAT, 3, 0⟩
abbrev LOOP.K_OMEGA : Nat := 0x154
abbrev LOOP.K_FGRID : Nat := 0x158
abbrev LOOP.K_E : Nat := 0x15C
abbrev LOOP.K_GEN : Nat := 0x160
abbrev LOOP.LRN_CTL : Nat := 0x180
abbrev LOOP.LRN_CTL_CLR : Fld := ⟨LOOP.LRN_CTL, 2, 2⟩
abbrev LOOP.LRN_CTL_FREEZE : Fld := ⟨LOOP.LRN_CTL, 1, 1⟩
abbrev LOOP.LRN_CTL_EN : Fld := ⟨LOOP.LRN_CTL, 0, 0⟩
abbrev LOOP.LRN_CFG : Nat := 0x184
abbrev LOOP.LRN_CFG_LEAD : Fld := ⟨LOOP.LRN_CFG, 27, 16⟩
abbrev LOOP.LRN_CFG_NBITS : Fld := ⟨LOOP.LRN_CFG, 3, 0⟩
abbrev LOOP.LRN_GAIN : Nat := 0x188
abbrev LOOP.LRN_FORGET : Nat := 0x18C
abbrev LOOP.LRN_SMOOTH : Nat := 0x190
abbrev LOOP.LRN_LIM : Nat := 0x194
abbrev LOOP.LRN_STAT : Nat := 0x198
abbrev LOOP.LRN_SAT : Nat := 0x19C
abbrev LOOP.MCFG : Nat := 0x200
abbrev LOOP.MCFG_FAIL_N : Fld := ⟨LOOP.MCFG, 31, 24⟩
abbrev LOOP.MCFG_HO_N : Fld := ⟨LOOP.MCFG, 23, 16⟩
abbrev LOOP.MCFG_PCNT : Fld := ⟨LOOP.MCFG, 11, 8⟩
abbrev LOOP.MCFG_POLES : Fld := ⟨LOOP.MCFG, 7, 4⟩
abbrev LOOP.MCFG_LRN_TQ : Fld := ⟨LOOP.MCFG, 1, 1⟩
abbrev LOOP.MCFG_MACH : Fld := ⟨LOOP.MCFG, 0, 0⟩
abbrev LOOP.CPR : Nat := 0x204
abbrev LOOP.M_OFS : Nat := 0x208
abbrev LOOP.RS : Nat := 0x20C
abbrev LOOP.L_D : Nat := 0x210
abbrev LOOP.L_Q : Nat := 0x214
abbrev LOOP.PSI : Nat := 0x218
abbrev LOOP.TR : Nat := 0x21C
abbrev LOOP.OBS_WC : Nat := 0x220
abbrev LOOP.OBS_WMIN : Nat := 0x224
abbrev LOOP.OBS_PLL_KP : Nat := 0x228
abbrev LOOP.OBS_PLL_KI : Nat := 0x22C
abbrev LOOP.OPEN_IREF : Nat := 0x230
abbrev LOOP.OPEN_ACC : Nat := 0x234
abbrev LOOP.OPEN_WMAX : Nat := 0x238
abbrev LOOP.HO_TOL : Nat := 0x23C
abbrev LOOP.HO_WTOL : Nat := 0x240
abbrev LOOP.SPD_IQ : Nat := 0x244
abbrev LOOP.SPD_WEND : Nat := 0x248
abbrev LOOP.LRN_WTAU : Nat := 0x24C
abbrev LOOP.LRN_IMAX : Nat := 0x250
abbrev LOOP.MCFG2 : Nat := 0x254
abbrev LOOP.MCFG2_ALIGN_TIME : Fld := ⟨LOOP.MCFG2, 15, 0⟩
abbrev LOOP.MSTAT : Nat := 0x260
abbrev LOOP.MSTAT_RECOVERY : Fld := ⟨LOOP.MSTAT, 7, 7⟩
abbrev LOOP.MSTAT_PCNT_BAD : Fld := ⟨LOOP.MSTAT, 6, 6⟩
abbrev LOOP.MSTAT_OBS_OK : Fld := ⟨LOOP.MSTAT, 5, 5⟩
abbrev LOOP.MSTAT_REF_OK : Fld := ⟨LOOP.MSTAT, 4, 4⟩
abbrev LOOP.MSTAT_ASRC : Fld := ⟨LOOP.MSTAT, 2, 0⟩
abbrev LOOP.ACC : Nat := 0x264
abbrev LOOP.W_E : Nat := 0x268
abbrev LOOP.W_PCNT : Nat := 0x26C
abbrev LOOP.W_OBS : Nat := 0x270
abbrev LOOP.THETA_PCNT : Nat := 0x274
abbrev LOOP.THETA_OBS : Nat := 0x278
abbrev LOOP.PSI_OBS : Nat := 0x27C
abbrev LOOP.ASRC_CNT : Nat := 0x280
abbrev LOOP.PCNT_FAIL_CNT : Nat := 0x284
abbrev LOOP.LIMIT_NS : Nat := 0x288

abbrev BEADS.CTL : Nat := 0x040
abbrev BEADS.CTL_RAMP : Fld := ⟨BEADS.CTL, 23, 16⟩
abbrev BEADS.CTL_WSRC : Fld := ⟨BEADS.CTL, 1, 1⟩
abbrev BEADS.CTL_ACCEPT : Fld := ⟨BEADS.CTL, 0, 0⟩
abbrev BEADS.HOME_CFG : Nat := 0x044
abbrev BEADS.DEV_STAT : Nat := 0x048
abbrev BEADS.DEV_STAT_BOOT : Fld := ⟨BEADS.DEV_STAT, 31, 16⟩
abbrev BEADS.DEV_STAT_WAIT_ACK : Fld := ⟨BEADS.DEV_STAT, 7, 7⟩
abbrev BEADS.DEV_STAT_FROZEN_SEEN : Fld := ⟨BEADS.DEV_STAT, 6, 6⟩
abbrev BEADS.DEV_STAT_HOME_ALT : Fld := ⟨BEADS.DEV_STAT, 5, 5⟩
abbrev BEADS.DEV_STAT_FINE : Fld := ⟨BEADS.DEV_STAT, 4, 4⟩
abbrev BEADS.DEV_STAT_LSTATE : Fld := ⟨BEADS.DEV_STAT, 2, 0⟩
abbrev BEADS.HOLD_P : Nat := 0x04C
abbrev BEADS.HOLD_Q : Nat := 0x050
abbrev BEADS.PLACED_P : Nat := 0x054
abbrev BEADS.PLACED_Q : Nat := 0x058
abbrev BEADS.REMAIN_P : Nat := 0x05C
abbrev BEADS.REMAIN_Q : Nat := 0x060
abbrev BEADS.TARGET_P : Nat := 0x064
abbrev BEADS.TARGET_Q : Nat := 0x068
abbrev BEADS.CAP_P_POS : Nat := 0x06C
abbrev BEADS.CAP_P_NEG : Nat := 0x070
abbrev BEADS.CAP_Q_POS : Nat := 0x074
abbrev BEADS.CAP_Q_NEG : Nat := 0x078
abbrev BEADS.EXPIRY_LO : Nat := 0x07C
abbrev BEADS.EXPIRY_HI : Nat := 0x080
abbrev BEADS.RSEQ : Nat := 0x084
abbrev BEADS.PLACE_GEN : Nat := 0x088
abbrev BEADS.LAPSE_CNT : Nat := 0x08C
abbrev BEADS.REFUSE_CNT : Nat := 0x090
abbrev BEADS.RETRY_CNT : Nat := 0x094
abbrev BEADS.ROD_PLIM (r : Nat) : Nat := 0x100 + 4 * r
abbrev BEADS.ROD_PLIM_P_MAX (r : Nat) : Fld := ⟨(BEADS.ROD_PLIM r), 31, 16⟩
abbrev BEADS.ROD_PLIM_P_MIN (r : Nat) : Fld := ⟨(BEADS.ROD_PLIM r), 15, 0⟩
abbrev BEADS.ROD_QLIM (r : Nat) : Nat := 0x160 + 4 * r
abbrev BEADS.ROD_QLIM_Q_MAX (r : Nat) : Fld := ⟨(BEADS.ROD_QLIM r), 31, 16⟩
abbrev BEADS.ROD_QLIM_Q_MIN (r : Nat) : Fld := ⟨(BEADS.ROD_QLIM r), 15, 0⟩
abbrev BEADS.ROD_W (r : Nat) : Nat := 0x1C0 + 4 * r
abbrev BEADS.ROD_W_W_CHG (r : Nat) : Fld := ⟨(BEADS.ROD_W r), 31, 16⟩
abbrev BEADS.ROD_W_W_DIS (r : Nat) : Fld := ⟨(BEADS.ROD_W r), 15, 0⟩
abbrev BEADS.PLACE (r : Nat) : Nat := 0x220 + 4 * r
abbrev BEADS.HOME_STAT : Nat := 0x300
abbrev BEADS.HOME_STAT_HEPOCH : Fld := ⟨BEADS.HOME_STAT, 31, 16⟩
abbrev BEADS.HOME_STAT_PEER_OK : Fld := ⟨BEADS.HOME_STAT, 5, 5⟩
abbrev BEADS.HOME_STAT_FROZEN : Fld := ⟨BEADS.HOME_STAT, 4, 4⟩
abbrev BEADS.HOME_STAT_SOLO : Fld := ⟨BEADS.HOME_STAT, 3, 3⟩
abbrev BEADS.HOME_STAT_ROLE : Fld := ⟨BEADS.HOME_STAT, 1, 0⟩
abbrev BEADS.HOME_CMD : Nat := 0x304
abbrev BEADS.HOME_CMD_OP : Fld := ⟨BEADS.HOME_CMD, 3, 0⟩
abbrev BEADS.CMD_P : Nat := 0x308
abbrev BEADS.CMD_Q : Nat := 0x30C
abbrev BEADS.CMD_RES : Nat := 0x310
abbrev BEADS.CMD_RES_DONE : Fld := ⟨BEADS.CMD_RES, 31, 31⟩
abbrev BEADS.CMD_RES_CODE : Fld := ⟨BEADS.CMD_RES, 7, 0⟩
abbrev BEADS.POOL_P : Nat := 0x314
abbrev BEADS.POOL_Q : Nat := 0x318
abbrev BEADS.RET_PEND_P : Nat := 0x31C
abbrev BEADS.RET_PEND_Q : Nat := 0x320
abbrev BEADS.MINTED_P_LO : Nat := 0x324
abbrev BEADS.MINTED_P_HI : Nat := 0x328
abbrev BEADS.MINTED_Q_LO : Nat := 0x32C
abbrev BEADS.MINTED_Q_HI : Nat := 0x330
abbrev BEADS.RETIRED_P_LO : Nat := 0x334
abbrev BEADS.RETIRED_P_HI : Nat := 0x338
abbrev BEADS.RETIRED_Q_LO : Nat := 0x33C
abbrev BEADS.RETIRED_Q_HI : Nat := 0x340
abbrev BEADS.LSEQ_LO : Nat := 0x344
abbrev BEADS.LSEQ_HI : Nat := 0x348
abbrev BEADS.LEASES : Nat := 0x34C
abbrev BEADS.GRANT_STEP : Nat := 0x350
abbrev BEADS.LEDGER_SEL : Nat := 0x354
abbrev BEADS.LEDGER_E0 : Nat := 0x358
abbrev BEADS.LEDGER_E0_VALID : Fld := ⟨BEADS.LEDGER_E0, 31, 31⟩
abbrev BEADS.LEDGER_E0_BOOT : Fld := ⟨BEADS.LEDGER_E0, 15, 0⟩
abbrev BEADS.LEDGER_P : Nat := 0x35C
abbrev BEADS.LEDGER_Q : Nat := 0x360
abbrev BEADS.LEDGER_EXP_LO : Nat := 0x364
abbrev BEADS.LEDGER_EXP_HI : Nat := 0x368
abbrev BEADS.LEDGER_RSEQ : Nat := 0x36C
abbrev BEADS.RECLAIM_CNT : Nat := 0x370
abbrev BEADS.TAKEOVER_CNT : Nat := 0x374

abbrev CEA.CTL : Nat := 0x040
abbrev CEA.CTL_EIS_FEED : Fld := ⟨CEA.CTL, 1, 1⟩
abbrev CEA.CTL_SNAP_EN : Fld := ⟨CEA.CTL, 0, 0⟩
abbrev CEA.STAT : Nat := 0x044
abbrev CEA.STAT_CHEM_BAD : Fld := ⟨CEA.STAT, 31, 24⟩
abbrev CEA.STAT_TALLY_LOCKED : Fld := ⟨CEA.STAT, 8, 8⟩
abbrev CEA.ROUND_NS : Nat := 0x048
abbrev CEA.ROUND_TIME : Nat := 0x04C
abbrev CEA.OVR_CNT : Nat := 0x050
abbrev CEA.WCFG0 : Nat := 0x054
abbrev CEA.WCFG0_SOC_HI : Fld := ⟨CEA.WCFG0, 31, 16⟩
abbrev CEA.WCFG0_SOC_LO : Fld := ⟨CEA.WCFG0, 15, 0⟩
abbrev CEA.WCFG1 : Nat := 0x058
abbrev CEA.WCFG1_SOC_BAND : Fld := ⟨CEA.WCFG1, 31, 16⟩
abbrev CEA.WCFG1_W_FULL : Fld := ⟨CEA.WCFG1, 15, 0⟩
abbrev CEA.WCFG2 : Nat := 0x05C
abbrev CEA.WCFG2_T_LIM : Fld := ⟨CEA.WCFG2, 31, 16⟩
abbrev CEA.WCFG2_T_BAND : Fld := ⟨CEA.WCFG2, 15, 0⟩
abbrev CEA.WCFG3 : Nat := 0x060
abbrev CEA.WCFG3_H_GOOD : Fld := ⟨CEA.WCFG3, 31, 16⟩
abbrev CEA.WCFG3_H_EOL : Fld := ⟨CEA.WCFG3, 15, 0⟩
abbrev CEA.WCFG4 : Nat := 0x064
abbrev CEA.WCFG4_PL_WARN : Fld := ⟨CEA.WCFG4, 31, 16⟩
abbrev CEA.WCFG4_PL_BAND : Fld := ⟨CEA.WCFG4, 15, 0⟩
abbrev CEA.ALM_CFG : Nat := 0x068
abbrev CEA.ALM_CFG_STALE_N : Fld := ⟨CEA.ALM_CFG, 31, 24⟩
abbrev CEA.ALM_CFG_ISH_N : Fld := ⟨CEA.ALM_CFG, 23, 16⟩
abbrev CEA.ALM_CFG_ISH_WARN : Fld := ⟨CEA.ALM_CFG, 15, 0⟩
abbrev CEA.SNAP_BASE_LO : Nat := 0x06C
abbrev CEA.SNAP_BASE_HI : Nat := 0x070
abbrev CEA.SNAP_SIZE : Nat := 0x074
abbrev CEA.SNAP_WR : Nat := 0x078
abbrev CEA.SNAP_RD : Nat := 0x07C
abbrev CEA.SNAP_DROP : Nat := 0x080
abbrev CEA.CELL_SEL : Nat := 0x084
abbrev CEA.CELL_OUT0 : Nat := 0x088
abbrev CEA.CELL_OUT1 : Nat := 0x08C
abbrev CEA.CELL_OUT2 : Nat := 0x090
abbrev CEA.CELL_OUT3 : Nat := 0x094
abbrev CEA.CELL_INIT0 : Nat := 0x098
abbrev CEA.CELL_INIT0_CAP_H : Fld := ⟨CEA.CELL_INIT0, 31, 16⟩
abbrev CEA.CELL_INIT0_SOC : Fld := ⟨CEA.CELL_INIT0, 15, 0⟩
abbrev CEA.CELL_INIT1 : Nat := 0x09C
abbrev CEA.CELL_INIT1_RES_H : Fld := ⟨CEA.CELL_INIT1, 15, 0⟩
abbrev CEA.CELL_CMD : Nat := 0x0A0
abbrev CEA.CELL_CMD_INCLUDE : Fld := ⟨CEA.CELL_CMD, 3, 3⟩
abbrev CEA.CELL_CMD_EXCLUDE : Fld := ⟨CEA.CELL_CMD, 2, 2⟩
abbrev CEA.CELL_CMD_RESET : Fld := ⟨CEA.CELL_CMD, 1, 1⟩
abbrev CEA.CELL_CMD_LOAD : Fld := ⟨CEA.CELL_CMD, 0, 0⟩
abbrev CEA.ALARM_CNT : Nat := 0x0A4
abbrev CEA.ALARM_CNT_SHORT : Fld := ⟨CEA.ALARM_CNT, 31, 16⟩
abbrev CEA.ALARM_CNT_PLATING : Fld := ⟨CEA.ALARM_CNT, 15, 0⟩
abbrev CEA.DIVERGE_CNT : Nat := 0x0A8
abbrev CEA.CELL_CNT : Nat := 0x0AC
abbrev CEA.TALLY_GAPS : Nat := 0x0B0
abbrev CEA.ROD_WCALC (r : Nat) : Nat := 0x100 + 4 * r
abbrev CEA.ROD_WCALC_W_CHG (r : Nat) : Fld := ⟨(CEA.ROD_WCALC r), 31, 16⟩
abbrev CEA.ROD_WCALC_W_DIS (r : Nat) : Fld := ⟨(CEA.ROD_WCALC r), 15, 0⟩
abbrev CEA.ROD_SUM (r : Nat) : Nat := 0x160 + 4 * r
abbrev CEA.TSLOT (r : Nat) : Nat := 0x1C0 + 4 * r
abbrev CEA.TSLOT_TALLY_EN (r : Nat) : Fld := ⟨(CEA.TSLOT r), 31, 31⟩
abbrev CEA.TSLOT_VS (r : Nat) : Fld := ⟨(CEA.TSLOT r), 15, 8⟩
abbrev CEA.ISCALE (r : Nat) : Nat := 0x220 + 4 * r
abbrev CEA.VSCALE (r : Nat) : Nat := 0x280 + 4 * r
abbrev CEA.MOD_CFG (j : Nat) : Nat := 0x400 + 4 * j
abbrev CEA.CHG_IN_LO (r : Nat) : Nat := 0xA00 + 0x30 * r
abbrev CEA.CHG_IN_HI (r : Nat) : Nat := 0xA04 + 0x30 * r
abbrev CEA.CHG_OUT_LO (r : Nat) : Nat := 0xA08 + 0x30 * r
abbrev CEA.CHG_OUT_HI (r : Nat) : Nat := 0xA0C + 0x30 * r
abbrev CEA.ENERGY_LO (r : Nat) : Nat := 0xA10 + 0x30 * r
abbrev CEA.ENERGY_HI (r : Nat) : Nat := 0xA14 + 0x30 * r
abbrev CEA.BASE_IN_LO (r : Nat) : Nat := 0xA18 + 0x30 * r
abbrev CEA.BASE_IN_HI (r : Nat) : Nat := 0xA1C + 0x30 * r
abbrev CEA.BASE_OUT_LO (r : Nat) : Nat := 0xA20 + 0x30 * r
abbrev CEA.BASE_OUT_HI (r : Nat) : Nat := 0xA24 + 0x30 * r
abbrev CEA.BASE_E_LO (r : Nat) : Nat := 0xA28 + 0x30 * r
abbrev CEA.BASE_E_HI (r : Nat) : Nat := 0xA2C + 0x30 * r

abbrev EIS.CTL : Nat := 0x040
abbrev EIS.CTL_IDLE_PCT : Fld := ⟨EIS.CTL, 31, 24⟩
abbrev EIS.CTL_CONC : Fld := ⟨EIS.CTL, 23, 16⟩
abbrev EIS.CTL_NPER : Fld := ⟨EIS.CTL, 15, 8⟩
abbrev EIS.CTL_AMP : Fld := ⟨EIS.CTL, 7, 0⟩
abbrev EIS.SCHED : Nat := 0x044
abbrev EIS.SCHED_IDLE_HOLD : Fld := ⟨EIS.SCHED, 23, 16⟩
abbrev EIS.SCHED_INTERVAL : Fld := ⟨EIS.SCHED, 15, 0⟩
abbrev EIS.STAT : Nat := 0x048
abbrev EIS.REQ : Nat := 0x04C
abbrev EIS.RUN_CNT : Nat := 0x050
abbrev EIS.ABORT_CNT : Nat := 0x054
abbrev EIS.RES_CTL : Nat := 0x058
abbrev EIS.RES_BASE_LO : Nat := 0x05C
abbrev EIS.RES_BASE_HI : Nat := 0x060
abbrev EIS.RES_SIZE : Nat := 0x064
abbrev EIS.RES_WR : Nat := 0x068
abbrev EIS.RES_RD : Nat := 0x06C
abbrev EIS.I_RATED (r : Nat) : Nat := 0x100 + 4 * r
abbrev EIS.LAST_SEC (r : Nat) : Nat := 0x160 + 4 * r
abbrev EIS.RSTAT (r : Nat) : Nat := 0x1C0 + 4 * r
abbrev EIS.RSTAT_ABORT (r : Nat) : Fld := ⟨(EIS.RSTAT r), 11, 8⟩
abbrev EIS.RSTAT_STATE (r : Nat) : Fld := ⟨(EIS.RSTAT r), 2, 0⟩
abbrev EIS.TONE (i : Nat) : Nat := 0x300 + 4 * i

abbrev MBUS.CTL : Nat := 0x040
abbrev MBUS.CTL_SLEEP_MSG : Fld := ⟨MBUS.CTL, 12, 12⟩
abbrev MBUS.CTL_SLEEP : Fld := ⟨MBUS.CTL, 11, 11⟩
abbrev MBUS.CTL_BO_AUTO : Fld := ⟨MBUS.CTL, 10, 10⟩
abbrev MBUS.CTL_LISTEN : Fld := ⟨MBUS.CTL, 9, 9⟩
abbrev MBUS.CTL_AUTO_RATE : Fld := ⟨MBUS.CTL, 8, 8⟩
abbrev MBUS.STAT : Nat := 0x044
abbrev MBUS.STAT_MPE_ACTIVE : Fld := ⟨MBUS.STAT, 8, 8⟩
abbrev MBUS.STAT_RATE_LOCKED : Fld := ⟨MBUS.STAT, 6, 6⟩
abbrev MBUS.STAT_ESTATE : Fld := ⟨MBUS.STAT, 5, 4⟩
abbrev MBUS.STAT_LISTEN_ONLY : Fld := ⟨MBUS.STAT, 3, 3⟩
abbrev MBUS.STAT_STATE : Fld := ⟨MBUS.STAT, 2, 0⟩
abbrev MBUS.CMD : Nat := 0x048
abbrev MBUS.CMD_TREF_NOW : Fld := ⟨MBUS.CMD, 6, 6⟩
abbrev MBUS.CMD_LIFE_ALL : Fld := ⟨MBUS.CMD, 5, 5⟩
abbrev MBUS.CMD_IDENT_ALL : Fld := ⟨MBUS.CMD, 4, 4⟩
abbrev MBUS.CMD_RX1_POP : Fld := ⟨MBUS.CMD, 3, 3⟩
abbrev MBUS.CMD_RX0_POP : Fld := ⟨MBUS.CMD, 2, 2⟩
abbrev MBUS.CMD_BO_RECOVER : Fld := ⟨MBUS.CMD, 1, 1⟩
abbrev MBUS.CMD_ABORT_HEAD : Fld := ⟨MBUS.CMD, 0, 0⟩
abbrev MBUS.NBT : Nat := 0x04C
abbrev MBUS.NBT_NBRP : Fld := ⟨MBUS.NBT, 31, 24⟩
abbrev MBUS.NBT_NTSEG1 : Fld := ⟨MBUS.NBT, 23, 16⟩
abbrev MBUS.NBT_NTSEG2 : Fld := ⟨MBUS.NBT, 14, 8⟩
abbrev MBUS.NBT_NSJW : Fld := ⟨MBUS.NBT, 6, 0⟩
abbrev MBUS.DBT : Nat := 0x050
abbrev MBUS.DBT_DBRP : Fld := ⟨MBUS.DBT, 28, 24⟩
abbrev MBUS.DBT_DTSEG1 : Fld := ⟨MBUS.DBT, 20, 16⟩
abbrev MBUS.DBT_DTSEG2 : Fld := ⟨MBUS.DBT, 11, 8⟩
abbrev MBUS.DBT_DSJW : Fld := ⟨MBUS.DBT, 3, 0⟩
abbrev MBUS.TDC : Nat := 0x054
abbrev MBUS.TDC_EN : Fld := ⟨MBUS.TDC, 15, 15⟩
abbrev MBUS.TDC_TDC_OFS : Fld := ⟨MBUS.TDC, 14, 8⟩
abbrev MBUS.ECR : Nat := 0x058
abbrev MBUS.ERRCNT : Nat := 0x05C
abbrev MBUS.ERRCNT_BUSOFF : Fld := ⟨MBUS.ERRCNT, 15, 0⟩
abbrev MBUS.RATE_CFG : Nat := 0x060
abbrev MBUS.RATE_CFG_RD_CYCLES : Fld := ⟨MBUS.RATE_CFG, 23, 16⟩
abbrev MBUS.RATE_CFG_DWELL : Fld := ⟨MBUS.RATE_CFG, 15, 8⟩
abbrev MBUS.RATE_STAT : Nat := 0x064
abbrev MBUS.RATE_STAT_LOCKED : Fld := ⟨MBUS.RATE_STAT, 31, 31⟩
abbrev MBUS.TREF_CFG : Nat := 0x068
abbrev MBUS.TREF_CFG_EN : Fld := ⟨MBUS.TREF_CFG, 31, 31⟩
abbrev MBUS.TREF_CFG_TREF_PER : Fld := ⟨MBUS.TREF_CFG, 25, 16⟩
abbrev MBUS.TREF_CFG_BUS_DLY : Fld := ⟨MBUS.TREF_CFG, 7, 0⟩
abbrev MBUS.WAKE_CFG : Nat := 0x06C
abbrev MBUS.WAKE_CFG_WATCH_EN : Fld := ⟨MBUS.WAKE_CFG, 31, 31⟩
abbrev MBUS.WAKE_CFG_WMODE : Fld := ⟨MBUS.WAKE_CFG, 30, 30⟩
abbrev MBUS.WAKE_CFG_UNAVAIL_EN : Fld := ⟨MBUS.WAKE_CFG, 29, 29⟩
abbrev MBUS.WAKE_CFG_EDGE_FILT : Fld := ⟨MBUS.WAKE_CFG, 4, 0⟩
abbrev MBUS.WAKE_ID : Nat := 0x070
abbrev MBUS.WAKE_MASK : Nat := 0x074
abbrev MBUS.WAKE_CAP_ID : Nat := 0x078
abbrev MBUS.WAKE_CAP_ID_VALID : Fld := ⟨MBUS.WAKE_CAP_ID, 31, 31⟩
abbrev MBUS.WAKE_CNT : Nat := 0x07C
abbrev MBUS.WAKE_CNT_FALSE : Fld := ⟨MBUS.WAKE_CNT, 15, 0⟩
abbrev MBUS.QSTAT : Nat := 0x080
abbrev MBUS.QSTAT_FIFO : Fld := ⟨MBUS.QSTAT, 30, 25⟩
abbrev MBUS.QSTAT_RXQ1 : Fld := ⟨MBUS.QSTAT, 24, 16⟩
abbrev MBUS.QSTAT_RXQ0 : Fld := ⟨MBUS.QSTAT, 6, 0⟩
abbrev MBUS.RX_OVF : Nat := 0x084
abbrev MBUS.RX_OVF_RXQ0 : Fld := ⟨MBUS.RX_OVF, 31, 16⟩
abbrev MBUS.RX_OVF_RXQ1 : Fld := ⟨MBUS.RX_OVF, 15, 0⟩
abbrev MBUS.RX_NOMATCH : Nat := 0x088
abbrev MBUS.TX_CNT : Nat := 0x08C
abbrev MBUS.TX_CNT_ABORTED : Fld := ⟨MBUS.TX_CNT, 31, 16⟩
abbrev MBUS.TX_CNT_REFUSED : Fld := ⟨MBUS.TX_CNT, 15, 0⟩
abbrev MBUS.MPE_CFG : Nat := 0x090
abbrev MBUS.MPE_CFG_MPE_EN : Fld := ⟨MBUS.MPE_CFG, 31, 31⟩
abbrev MBUS.MPE_CFG_RPT_RING : Fld := ⟨MBUS.MPE_CFG, 30, 30⟩
abbrev MBUS.MPE_CFG_LIFE_PER : Fld := ⟨MBUS.MPE_CFG, 23, 16⟩
abbrev MBUS.MPE_CFG_IDENT_PER : Fld := ⟨MBUS.MPE_CFG, 15, 8⟩
abbrev MBUS.PLAN_CFG : Nat := 0x094
abbrev MBUS.PLAN_CFG_REP_PHASE : Fld := ⟨MBUS.PLAN_CFG, 31, 24⟩
abbrev MBUS.PLAN_CFG_SLOT_US : Fld := ⟨MBUS.PLAN_CFG, 15, 0⟩
abbrev MBUS.THRU_CFG : Nat := 0x098
abbrev MBUS.THRU_CFG_THRU_REL : Fld := ⟨MBUS.THRU_CFG, 31, 24⟩
abbrev MBUS.THRU_CFG_THRU_ABS : Fld := ⟨MBUS.THRU_CFG, 23, 0⟩
abbrev MBUS.MSG_CNT : Nat := 0x09C
abbrev MBUS.MSG_CNT_LONG : Fld := ⟨MBUS.MSG_CNT, 31, 24⟩
abbrev MBUS.MSG_CNT_SHORT : Fld := ⟨MBUS.MSG_CNT, 23, 16⟩
abbrev MBUS.MSG_CNT_RING_DROP : Fld := ⟨MBUS.MSG_CNT, 15, 0⟩
abbrev MBUS.MSG_BASE_LO : Nat := 0x0A0
abbrev MBUS.MSG_BASE_HI : Nat := 0x0A4
abbrev MBUS.MSG_SIZE : Nat := 0x0A8
abbrev MBUS.MSG_WR : Nat := 0x0AC
abbrev MBUS.MSG_RD : Nat := 0x0B0
abbrev MBUS.RATE_CAND_N (i : Nat) : Nat := 0x0C0 + 8 * i
abbrev MBUS.RATE_CAND_D (i : Nat) : Nat := 0x0C4 + 8 * i
abbrev MBUS.RX0_W (w : Nat) : Nat := 0x100 + 4 * w
abbrev MBUS.RX1_W (w : Nat) : Nat := 0x180 + 4 * w
abbrev MBUS.TXW_ID : Nat := 0x200
abbrev MBUS.TXW_ID_IDE : Fld := ⟨MBUS.TXW_ID, 30, 30⟩
abbrev MBUS.TXW_CTL : Nat := 0x204
abbrev MBUS.TXW_CTL_PUSH : Fld := ⟨MBUS.TXW_CTL, 31, 31⟩
abbrev MBUS.TXW_CTL_BRS : Fld := ⟨MBUS.TXW_CTL, 6, 6⟩
abbrev MBUS.TXW_CTL_FDF : Fld := ⟨MBUS.TXW_CTL, 5, 5⟩
abbrev MBUS.TXW_CTL_DLC : Fld := ⟨MBUS.TXW_CTL, 3, 0⟩
abbrev MBUS.TXW_DATA (i : Nat) : Nat := 0x210 + 4 * i
abbrev MBUS.MAP (a : Nat) : Nat := 0x400 + 4 * a
abbrev MBUS.MAP_EN (a : Nat) : Fld := ⟨(MBUS.MAP a), 31, 31⟩
abbrev MBUS.MAP_MODIDX (a : Nat) : Fld := ⟨(MBUS.MAP a), 9, 0⟩
abbrev MBUS.MOD_STAT (a : Nat) : Nat := 0x460 + 4 * a
abbrev MBUS.MOD_STAT_SEEN (a : Nat) : Fld := ⟨(MBUS.MOD_STAT a), 31, 31⟩
abbrev MBUS.MOD_STAT_VERIFIED (a : Nat) : Fld := ⟨(MBUS.MOD_STAT a), 30, 30⟩
abbrev MBUS.MOD_STAT_CHANGED (a : Nat) : Fld := ⟨(MBUS.MOD_STAT a), 29, 29⟩
abbrev MBUS.MOD_STAT_THRU_MISMATCH (a : Nat) : Fld := ⟨(MBUS.MOD_STAT a), 28, 28⟩
abbrev MBUS.MOD_STAT_NO_RESP (a : Nat) : Fld := ⟨(MBUS.MOD_STAT a), 27, 27⟩
abbrev MBUS.MOD_STAT_TIME_BAD (a : Nat) : Fld := ⟨(MBUS.MOD_STAT a), 26, 26⟩
abbrev MBUS.MOD_STAT_ALARM (a : Nat) : Fld := ⟨(MBUS.MOD_STAT a), 25, 25⟩
abbrev MBUS.MOD_STAT_MAP_DUP (a : Nat) : Fld := ⟨(MBUS.MOD_STAT a), 24, 24⟩
abbrev MBUS.MOD_STAT_ADDR_CONFLICT (a : Nat) : Fld := ⟨(MBUS.MOD_STAT a), 23, 23⟩
abbrev MBUS.MOD_STAT_RSEQ (a : Nat) : Fld := ⟨(MBUS.MOD_STAT a), 7, 0⟩
abbrev MBUS.KEYID_LO (a : Nat) : Nat := 0x4C0 + 8 * a
abbrev MBUS.KEYID_HI (a : Nat) : Nat := 0x4C4 + 8 * a
abbrev MBUS.FLT_MATCH (f : Nat) : Nat := 0x600 + 8 * f
abbrev MBUS.FLT_MATCH_EN (f : Nat) : Fld := ⟨(MBUS.FLT_MATCH f), 31, 31⟩
abbrev MBUS.FLT_MATCH_IDE (f : Nat) : Fld := ⟨(MBUS.FLT_MATCH f), 30, 30⟩
abbrev MBUS.FLT_MATCH_ID (f : Nat) : Fld := ⟨(MBUS.FLT_MATCH f), 28, 0⟩
abbrev MBUS.FLT_MASK (f : Nat) : Nat := 0x604 + 8 * f
abbrev MBUS.FLT_MASK_REJECT (f : Nat) : Fld := ⟨(MBUS.FLT_MASK f), 31, 31⟩
abbrev MBUS.FLT_MASK_MASK (f : Nat) : Fld := ⟨(MBUS.FLT_MASK f), 28, 0⟩

abbrev THERM.STAT : Nat := 0x040
abbrev THERM.STAT_GRP_FAULT : Fld := ⟨THERM.STAT, 23, 16⟩
abbrev THERM.GRP_LATCH : Nat := 0x044
abbrev THERM.TRIP_LATCH_LO : Nat := 0x048
abbrev THERM.TRIP_LATCH_HI : Nat := 0x04C
abbrev THERM.WARN_LO : Nat := 0x050
abbrev THERM.WARN_HI : Nat := 0x054
abbrev THERM.BROKEN_LO : Nat := 0x058
abbrev THERM.BROKEN_HI : Nat := 0x05C
abbrev THERM.DIE_STAT : Nat := 0x060
abbrev THERM.DIE_STAT_TRIP : Fld := ⟨THERM.DIE_STAT, 21, 16⟩
abbrev THERM.DIE_STAT_WARN : Fld := ⟨THERM.DIE_STAT, 5, 0⟩
abbrev THERM.DIE_T (d : Nat) : Nat := 0x064 + 4 * d
abbrev THERM.EVT_CNT : Nat := 0x07C
abbrev THERM.LIM_A (l : Nat) : Nat := 0x080 + 4 * l
abbrev THERM.LIM_A_TRIP_HI (l : Nat) : Fld := ⟨(THERM.LIM_A l), 31, 16⟩
abbrev THERM.LIM_A_WARN_HI (l : Nat) : Fld := ⟨(THERM.LIM_A l), 15, 0⟩
abbrev THERM.LIM_B (l : Nat) : Nat := 0x0A0 + 4 * l
abbrev THERM.LIM_B_RATE_TRIP (l : Nat) : Fld := ⟨(THERM.LIM_B l), 31, 16⟩
abbrev THERM.LIM_B_RATE_WARN (l : Nat) : Fld := ⟨(THERM.LIM_B l), 15, 0⟩
abbrev THERM.LIM_C (l : Nat) : Nat := 0x0C0 + 4 * l
abbrev THERM.LIM_C_WINDOW (l : Nat) : Fld := ⟨(THERM.LIM_C l), 21, 16⟩
abbrev THERM.LIM_C_HYST (l : Nat) : Fld := ⟨(THERM.LIM_C l), 15, 0⟩
abbrev THERM.GRP_CFG (g : Nat) : Nat := 0x0E0 + 4 * g
abbrev THERM.GRP_CFG_FAULT_ACT (g : Nat) : Fld := ⟨(THERM.GRP_CFG g), 31, 31⟩
abbrev THERM.GRP_CFG_MAX_BROKEN (g : Nat) : Fld := ⟨(THERM.GRP_CFG g), 30, 24⟩
abbrev THERM.GRP_CFG_RODS (g : Nat) : Fld := ⟨(THERM.GRP_CFG g), 23, 0⟩
abbrev THERM.TS_CFG (i : Nat) : Nat := 0x100 + 4 * i
abbrev THERM.TS_CFG_MODE (i : Nat) : Fld := ⟨(THERM.TS_CFG i), 31, 30⟩
abbrev THERM.TS_CFG_LIM (i : Nat) : Fld := ⟨(THERM.TS_CFG i), 26, 24⟩
abbrev THERM.TS_CFG_GROUP (i : Nat) : Fld := ⟨(THERM.TS_CFG i), 22, 20⟩
abbrev THERM.TS_CFG_TABLE (i : Nat) : Fld := ⟨(THERM.TS_CFG i), 17, 16⟩
abbrev THERM.TS_PAR (i : Nat) : Nat := 0x200 + 4 * i
abbrev THERM.TS_PAR_BETA (i : Nat) : Fld := ⟨(THERM.TS_PAR i), 31, 16⟩
abbrev THERM.TS_PAR_R25 (i : Nat) : Fld := ⟨(THERM.TS_PAR i), 15, 0⟩
abbrev THERM.TS_PAR_N_IDEAL (i : Nat) : Fld := ⟨(THERM.TS_PAR i), 15, 0⟩
abbrev THERM.TS_VAL (i : Nat) : Nat := 0x300 + 4 * i
abbrev THERM.TS_VAL_RATE (i : Nat) : Fld := ⟨(THERM.TS_VAL i), 31, 16⟩
abbrev THERM.TS_STAT (i : Nat) : Nat := 0x400 + 4 * i
abbrev THERM.TS_STAT_RS (i : Nat) : Fld := ⟨(THERM.TS_STAT i), 31, 16⟩
abbrev THERM.TS_STAT_RATE_VALID (i : Nat) : Fld := ⟨(THERM.TS_STAT i), 6, 6⟩
abbrev THERM.TS_STAT_BROKEN (i : Nat) : Fld := ⟨(THERM.TS_STAT i), 5, 5⟩
abbrev THERM.TS_STAT_TRIP (i : Nat) : Fld := ⟨(THERM.TS_STAT i), 4, 4⟩
abbrev THERM.TS_STAT_TRIP_CAUSE (i : Nat) : Fld := ⟨(THERM.TS_STAT i), 3, 3⟩
abbrev THERM.TS_STAT_RATE_WARN (i : Nat) : Fld := ⟨(THERM.TS_STAT i), 2, 2⟩
abbrev THERM.TS_STAT_WARN (i : Nat) : Fld := ⟨(THERM.TS_STAT i), 1, 1⟩
abbrev THERM.NTC_TAB (t p : Nat) : Nat := 0x500 + 0x40 * t + 4 * p
abbrev THERM.CELL_CFG : Nat := 0x600
abbrev THERM.CELL_CFG_FAULT_ACT : Fld := ⟨THERM.CELL_CFG, 31, 31⟩
abbrev THERM.CELL_CFG_MAX_BROKEN : Fld := ⟨THERM.CELL_CFG, 15, 8⟩
abbrev THERM.CELL_CFG_LIM : Fld := ⟨THERM.CELL_CFG, 2, 0⟩
abbrev THERM.CELL_LATCH : Nat := 0x604
abbrev THERM.CELL_WARN : Nat := 0x608
abbrev THERM.CELL_GRP_FAULT : Nat := 0x60C
abbrev THERM.CELL_SEL : Nat := 0x610
abbrev THERM.CELL_SEL_MODIDX : Fld := ⟨THERM.CELL_SEL, 9, 0⟩
abbrev THERM.CELL_VAL : Nat := 0x614
abbrev THERM.CELL_STAT : Nat := 0x618

abbrev STEPC.CHOP : Nat := 0x040
abbrev STEPC.CHOP_CHOP_F : Fld := ⟨STEPC.CHOP, 7, 0⟩
abbrev STEPC.MOVING_MAP : Nat := 0x044
abbrev STEPC.UNSURE_MAP : Nat := 0x048
abbrev STEPC.STALL_MAP : Nat := 0x04C
abbrev STEPC.VM (k : Nat) : Nat := 0x050 + 4 * k

abbrev STEP.CFG : Nat := 0x040
abbrev STEP.CFG_MSTEP : Fld := ⟨STEP.CFG, 31, 28⟩
abbrev STEP.CFG_HOLD_MODE : Fld := ⟨STEP.CFG, 27, 27⟩
abbrev STEP.CFG_DIR_INV : Fld := ⟨STEP.CFG, 26, 26⟩
abbrev STEP.CFG_HOME_DIR : Fld := ⟨STEP.CFG, 25, 25⟩
abbrev STEP.CFG_STANDSTILL_T : Fld := ⟨STEP.CFG, 15, 0⟩
abbrev STEP.CMD : Nat := 0x044
abbrev STEP.CMD_HOME : Fld := ⟨STEP.CMD, 2, 2⟩
abbrev STEP.CMD_HALT : Fld := ⟨STEP.CMD, 1, 1⟩
abbrev STEP.CMD_STOP : Fld := ⟨STEP.CMD, 0, 0⟩
abbrev STEP.STATUS : Nat := 0x048
abbrev STEP.STATUS_HOME_FAIL : Fld := ⟨STEP.STATUS, 9, 9⟩
abbrev STEP.STATUS_OVERCURRENT : Fld := ⟨STEP.STATUS, 8, 8⟩
abbrev STEP.STATUS_COIL_OPEN : Fld := ⟨STEP.STATUS, 7, 7⟩
abbrev STEP.STATUS_EST_VALID : Fld := ⟨STEP.STATUS, 6, 6⟩
abbrev STEP.STATUS_CLIPPED : Fld := ⟨STEP.STATUS, 5, 5⟩
abbrev STEP.STATUS_STALL : Fld := ⟨STEP.STATUS, 4, 4⟩
abbrev STEP.STATUS_POS_OK : Fld := ⟨STEP.STATUS, 3, 3⟩
abbrev STEP.STATUS_STATE : Fld := ⟨STEP.STATUS, 2, 0⟩
abbrev STEP.POS : Nat := 0x04C
abbrev STEP.TARGET : Nat := 0x050
abbrev STEP.VLIM_LO : Nat := 0x054
abbrev STEP.VLIM_HI : Nat := 0x058
abbrev STEP.VMAX : Nat := 0x05C
abbrev STEP.ACC : Nat := 0x060
abbrev STEP.DEC : Nat := 0x064
abbrev STEP.VHOME : Nat := 0x068
abbrev STEP.HOME_POS : Nat := 0x06C
abbrev STEP.HOME_MAX : Nat := 0x070
abbrev STEP.I_CFG : Nat := 0x074
abbrev STEP.I_CFG_I_MAX : Fld := ⟨STEP.I_CFG, 31, 24⟩
abbrev STEP.I_CFG_I_HOLD : Fld := ⟨STEP.I_CFG, 23, 16⟩
abbrev STEP.I_CFG_DELTA_TGT : Fld := ⟨STEP.I_CFG, 15, 8⟩
abbrev STEP.I_CFG_I_SLEW : Fld := ⟨STEP.I_CFG, 7, 0⟩
abbrev STEP.COIL : Nat := 0x078
abbrev STEP.COIL_R_COIL : Fld := ⟨STEP.COIL, 31, 16⟩
abbrev STEP.COIL_L_COIL : Fld := ⟨STEP.COIL, 15, 0⟩
abbrev STEP.EST_CFG : Nat := 0x07C
abbrev STEP.EST_CFG_VMIN_EST : Fld := ⟨STEP.EST_CFG, 23, 0⟩
abbrev STEP.VEL : Nat := 0x080
abbrev STEP.LOAD : Nat := 0x084
abbrev STEP.LOAD_I_SET : Fld := ⟨STEP.LOAD, 7, 0⟩
abbrev STEP.STALL_CNT : Nat := 0x088
abbrev STEP.CLIP_CNT : Nat := 0x08C

abbrev PCNT.CFG : Nat := 0x040
abbrev PCNT.CFG_LIM_EN : Fld := ⟨PCNT.CFG, 31, 31⟩
abbrev PCNT.CFG_MODE : Fld := ⟨PCNT.CFG, 30, 30⟩
abbrev PCNT.CFG_DIR_INV : Fld := ⟨PCNT.CFG, 29, 29⟩
abbrev PCNT.CFG_EDGE : Fld := ⟨PCNT.CFG, 28, 27⟩
abbrev PCNT.CFG_FILT : Fld := ⟨PCNT.CFG, 23, 16⟩
abbrev PCNT.CFG_BW : Fld := ⟨PCNT.CFG, 11, 0⟩
abbrev PCNT.COUNT : Nat := 0x044
abbrev PCNT.LIM_LO : Nat := 0x048
abbrev PCNT.LIM_HI : Nat := 0x04C
abbrev PCNT.ERR : Nat := 0x050
abbrev PCNT.ERR_GAP : Fld := ⟨PCNT.ERR, 4, 4⟩
abbrev PCNT.ERR_SAT_HI : Fld := ⟨PCNT.ERR, 3, 3⟩
abbrev PCNT.ERR_SAT_LO : Fld := ⟨PCNT.ERR, 2, 2⟩
abbrev PCNT.ERR_OVERRATE : Fld := ⟨PCNT.ERR, 1, 1⟩
abbrev PCNT.ERR_ILLEGAL : Fld := ⟨PCNT.ERR, 0, 0⟩
abbrev PCNT.EDGE_DT : Nat := 0x054
abbrev PCNT.OBS_POS : Nat := 0x058
abbrev PCNT.OBS_FRAC : Nat := 0x05C
abbrev PCNT.OBS_SPD : Nat := 0x060
abbrev PCNT.OBS_ACC : Nat := 0x064
abbrev PCNT.LAT_CNT : Nat := 0x068
abbrev PCNT.LAT_SPD : Nat := 0x06C
abbrev PCNT.LAT_NS : Nat := 0x070
abbrev PCNT.ILL_CNT : Nat := 0x074
abbrev PCNT.OVR_CNT : Nat := 0x078

abbrev SAFE.CFG : Nat := 0x040
abbrev SAFE.CFG_SINGLE_LIM : Fld := ⟨SAFE.CFG, 23, 16⟩
abbrev SAFE.CFG_TEST_DAYS : Fld := ⟨SAFE.CFG, 15, 0⟩
abbrev SAFE.STAT : Nat := 0x044
abbrev SAFE.STAT_TEST_DUE : Fld := ⟨SAFE.STAT, 7, 7⟩
abbrev SAFE.STAT_PARAM_BAD : Fld := ⟨SAFE.STAT, 6, 6⟩
abbrev SAFE.STAT_JAMMED : Fld := ⟨SAFE.STAT, 5, 5⟩
abbrev SAFE.STAT_SPLIT : Fld := ⟨SAFE.STAT, 4, 4⟩
abbrev SAFE.STAT_UNLOCKED : Fld := ⟨SAFE.STAT, 3, 3⟩
abbrev SAFE.STAT_KERNEL : Fld := ⟨SAFE.STAT, 2, 2⟩
abbrev SAFE.STAT_PAIR_FAULT : Fld := ⟨SAFE.STAT, 1, 1⟩
abbrev SAFE.STAT_SAFE_OK : Fld := ⟨SAFE.STAT, 0, 0⟩
abbrev SAFE.PCRC : Nat := 0x048
abbrev SAFE.SGR_MAP : Nat := 0x04C
abbrev SAFE.LATCH : Nat := 0x050
abbrev SAFE.SPD_MAP : Nat := 0x054
abbrev SAFE.IN_STAT : Nat := 0x058
abbrev SAFE.RST_STAT : Nat := 0x05C
abbrev SAFE.OUT_STAT : Nat := 0x060
abbrev SAFE.CAUSE : Nat := 0x064
abbrev SAFE.CAUSE_NS : Nat := 0x068
abbrev SAFE.CAUSE_RODS : Nat := 0x06C
abbrev SAFE.MSG_CFG : Nat := 0x070
abbrev SAFE.MSG_CFG_TX_EN : Fld := ⟨SAFE.MSG_CFG, 31, 31⟩
abbrev SAFE.MSG_CFG_ETH_EN : Fld := ⟨SAFE.MSG_CFG, 30, 30⟩
abbrev SAFE.MSG_CFG_ETH_PORT : Fld := ⟨SAFE.MSG_CFG, 29, 29⟩
abbrev SAFE.MSG_CFG_CONN : Fld := ⟨SAFE.MSG_CFG, 23, 16⟩
abbrev SAFE.MSG_CFG_TX_PER : Fld := ⟨SAFE.MSG_CFG, 15, 8⟩
abbrev SAFE.MSG_CFG_KEY : Fld := ⟨SAFE.MSG_CFG, 7, 0⟩
abbrev SAFE.MSG_UDP : Nat := 0x074
abbrev SAFE.MSG_UDP_PAIR_WIN : Fld := ⟨SAFE.MSG_UDP, 23, 16⟩
abbrev SAFE.MSG_UDP_PORT : Fld := ⟨SAFE.MSG_UDP, 15, 0⟩
abbrev SAFE.MSG_TXSEQ : Nat := 0x078
abbrev SAFE.MSG_ERR : Nat := 0x07C
abbrev SAFE.MSG_ERR_CRC : Fld := ⟨SAFE.MSG_ERR, 31, 24⟩
abbrev SAFE.MSG_ERR_SEQ : Fld := ⟨SAFE.MSG_ERR, 23, 16⟩
abbrev SAFE.MSG_ERR_AGE : Fld := ⟨SAFE.MSG_ERR, 15, 8⟩
abbrev SAFE.MSG_ERR_DIFF : Fld := ⟨SAFE.MSG_ERR, 7, 0⟩
abbrev SAFE.IN_CFG (i : Nat) : Nat := 0x080 + 4 * i
abbrev SAFE.IN_CFG_EN (i : Nat) : Fld := ⟨(SAFE.IN_CFG i), 31, 31⟩
abbrev SAFE.IN_CFG_PAIR (i : Nat) : Fld := ⟨(SAFE.IN_CFG i), 30, 30⟩
abbrev SAFE.IN_CFG_ACT (i : Nat) : Fld := ⟨(SAFE.IN_CFG i), 29, 29⟩
abbrev SAFE.IN_CFG_DISC (i : Nat) : Fld := ⟨(SAFE.IN_CFG i), 27, 24⟩
abbrev SAFE.IN_CFG_RODS (i : Nat) : Fld := ⟨(SAFE.IN_CFG i), 23, 0⟩
abbrev SAFE.OUT_CFG (k : Nat) : Nat := 0x0A0 + 4 * k
abbrev SAFE.OUT_CFG_EN (k : Nat) : Fld := ⟨(SAFE.OUT_CFG k), 31, 31⟩
abbrev SAFE.OUT_CFG_MODE (k : Nat) : Fld := ⟨(SAFE.OUT_CFG k), 30, 30⟩
abbrev SAFE.OUT_CFG_RODS (k : Nat) : Fld := ⟨(SAFE.OUT_CFG k), 23, 0⟩
abbrev SAFE.MON_CFG (r : Nat) : Nat := 0x100 + 0x20 * r
abbrev SAFE.MON_CFG_EN (r : Nat) : Fld := ⟨(SAFE.MON_CFG r), 31, 31⟩
abbrev SAFE.MON_CFG_MON_TAU (r : Nat) : Fld := ⟨(SAFE.MON_CFG r), 23, 16⟩
abbrev SAFE.MON_CFG_MON_N (r : Nat) : Fld := ⟨(SAFE.MON_CFG r), 15, 8⟩
abbrev SAFE.MON_CFG_LAG (r : Nat) : Fld := ⟨(SAFE.MON_CFG r), 7, 0⟩
abbrev SAFE.I2_SCALE (r : Nat) : Nat := 0x104 + 0x20 * r
abbrev SAFE.V_SCALE (r : Nat) : Nat := 0x108 + 0x20 * r
abbrev SAFE.P_LIM (r : Nat) : Nat := 0x10C + 0x20 * r
abbrev SAFE.P_TOL (r : Nat) : Nat := 0x110 + 0x20 * r
abbrev SAFE.DEC_MIN (r : Nat) : Nat := 0x114 + 0x20 * r
abbrev SAFE.W_TOL (r : Nat) : Nat := 0x118 + 0x20 * r
abbrev SAFE.T_TOL (r : Nat) : Nat := 0x11C + 0x20 * r
abbrev SAFE.MON_P (r : Nat) : Nat := 0x400 + 8 * r
abbrev SAFE.MON_STAT (r : Nat) : Nat := 0x404 + 8 * r
abbrev SAFE.MON_STAT_TEST_AGE (r : Nat) : Fld := ⟨(SAFE.MON_STAT r), 31, 16⟩
abbrev SAFE.MON_STAT_LAST_FAIL (r : Nat) : Fld := ⟨(SAFE.MON_STAT r), 11, 8⟩
abbrev SAFE.MON_STAT_GATE_STUCK (r : Nat) : Fld := ⟨(SAFE.MON_STAT r), 4, 4⟩
abbrev SAFE.MON_STAT_TEST_DUE (r : Nat) : Fld := ⟨(SAFE.MON_STAT r), 3, 3⟩
abbrev SAFE.MON_STAT_TEST_FAIL (r : Nat) : Fld := ⟨(SAFE.MON_STAT r), 2, 2⟩
abbrev SAFE.MON_STAT_TEST_OK (r : Nat) : Fld := ⟨(SAFE.MON_STAT r), 1, 1⟩
abbrev SAFE.MON_STAT_ACTIVE (r : Nat) : Fld := ⟨(SAFE.MON_STAT r), 0, 0⟩
abbrev SAFE.RXC_CFG (j : Nat) : Nat := 0x580 + 16 * j
abbrev SAFE.RXC_CFG_EN (j : Nat) : Fld := ⟨(SAFE.RXC_CFG j), 31, 31⟩
abbrev SAFE.RXC_CFG_ACT (j : Nat) : Fld := ⟨(SAFE.RXC_CFG j), 30, 30⟩
abbrev SAFE.RXC_CFG_ADDR (j : Nat) : Fld := ⟨(SAFE.RXC_CFG j), 27, 16⟩
abbrev SAFE.RXC_CFG_WDT (j : Nat) : Fld := ⟨(SAFE.RXC_CFG j), 15, 8⟩
abbrev SAFE.RXC_CFG_CONN (j : Nat) : Fld := ⟨(SAFE.RXC_CFG j), 7, 0⟩
abbrev SAFE.RXC_RODS (j : Nat) : Nat := 0x584 + 16 * j
abbrev SAFE.RXC_BITS (j : Nat) : Nat := 0x588 + 16 * j
abbrev SAFE.RXC_BITS_DEMAND (j : Nat) : Fld := ⟨(SAFE.RXC_BITS j), 15, 0⟩
abbrev SAFE.RXC_STAT (j : Nat) : Nat := 0x58C + 16 * j
abbrev SAFE.RXC_STAT_VALID (j : Nat) : Fld := ⟨(SAFE.RXC_STAT j), 31, 31⟩
abbrev SAFE.RXC_STAT_SINGLE (j : Nat) : Fld := ⟨(SAFE.RXC_STAT j), 30, 30⟩
abbrev SAFE.RXC_STAT_FAB_SEEN (j : Nat) : Fld := ⟨(SAFE.RXC_STAT j), 29, 29⟩
abbrev SAFE.RXC_STAT_ETH_SEEN (j : Nat) : Fld := ⟨(SAFE.RXC_STAT j), 28, 28⟩
abbrev SAFE.RXC_STAT_SEQ (j : Nat) : Fld := ⟨(SAFE.RXC_STAT j), 15, 0⟩

abbrev SPAIR.MODE : Nat := 0x040
abbrev SPAIR.MODE_SPLIT : Fld := ⟨SPAIR.MODE, 1, 1⟩
abbrev SPAIR.MODE_LOCKSTEP : Fld := ⟨SPAIR.MODE, 0, 0⟩
abbrev SPAIR.STAT : Nat := 0x044
abbrev SPAIR.STAT_KVER : Fld := ⟨SPAIR.STAT, 15, 8⟩
abbrev SPAIR.STAT_DBG_HALTED : Fld := ⟨SPAIR.STAT, 4, 4⟩
abbrev SPAIR.STAT_KERNEL_RUN : Fld := ⟨SPAIR.STAT, 3, 3⟩
abbrev SPAIR.STAT_WDT_EXP : Fld := ⟨SPAIR.STAT, 2, 2⟩
abbrev SPAIR.STAT_ECC_FATAL : Fld := ⟨SPAIR.STAT, 1, 1⟩
abbrev SPAIR.STAT_MISMATCH : Fld := ⟨SPAIR.STAT, 0, 0⟩
abbrev SPAIR.FATAL_PC : Nat := 0x048
abbrev SPAIR.FATAL_NS : Nat := 0x04C
abbrev SPAIR.ECC_CNT : Nat := 0x050
abbrev SPAIR.ECC_ADDR : Nat := 0x054
abbrev SPAIR.CYCLE_LAST : Nat := 0x058
abbrev SPAIR.CYCLE_MAX : Nat := 0x05C
abbrev SPAIR.WDT_KICKS : Nat := 0x060
abbrev SPAIR.REPLAY_CNT : Nat := 0x064
abbrev SPAIR.KCRC : Nat := 0x068

abbrev FAB.CFG : Nat := 0x040
abbrev FAB.CFG_HOLD : Fld := ⟨FAB.CFG, 23, 16⟩
abbrev FAB.CFG_FEC : Fld := ⟨FAB.CFG, 4, 4⟩
abbrev FAB.STAT : Nat := 0x044
abbrev FAB.STAT_FAULT : Fld := ⟨FAB.STAT, 27, 24⟩
abbrev FAB.STAT_HOLD_CAUSE : Fld := ⟨FAB.STAT, 23, 20⟩
abbrev FAB.STAT_FLAP : Fld := ⟨FAB.STAT, 11, 11⟩
abbrev FAB.STAT_FEC_LOCK : Fld := ⟨FAB.STAT, 10, 10⟩
abbrev FAB.STAT_BLOCK_LOCK : Fld := ⟨FAB.STAT, 9, 9⟩
abbrev FAB.STAT_RESYNC_PEND : Fld := ⟨FAB.STAT, 8, 8⟩
abbrev FAB.STAT_STATE : Fld := ⟨FAB.STAT, 2, 0⟩
abbrev FAB.PEER : Nat := 0x048
abbrev FAB.PEER_VALID : Fld := ⟨FAB.PEER, 31, 31⟩
abbrev FAB.ASYM : Nat := 0x04C
abbrev FAB.DLY : Nat := 0x050
abbrev FAB.CRED : Nat := 0x054
abbrev FAB.CRED_VC3 : Fld := ⟨FAB.CRED, 31, 24⟩
abbrev FAB.CRED_VC2 : Fld := ⟨FAB.CRED, 23, 16⟩
abbrev FAB.CRED_VC1 : Fld := ⟨FAB.CRED, 15, 8⟩
abbrev FAB.CRED_VC0 : Fld := ⟨FAB.CRED, 7, 0⟩
abbrev FAB.RXOCC : Nat := 0x058
abbrev FAB.REPLAY : Nat := 0x05C
abbrev FAB.CRCERR : Nat := 0x060
abbrev FAB.DISCARD : Nat := 0x064
abbrev FAB.DISCARD_LEN : Fld := ⟨FAB.DISCARD, 31, 16⟩
abbrev FAB.DISCARD_KIND : Fld := ⟨FAB.DISCARD, 15, 0⟩
abbrev FAB.CREDERR : Nat := 0x068
abbrev FAB.CREDERR_ERR : Fld := ⟨FAB.CREDERR, 31, 16⟩
abbrev FAB.CREDERR_RESYNC : Fld := ⟨FAB.CREDERR, 15, 0⟩
abbrev FAB.DOWN_CNT : Nat := 0x06C
abbrev FAB.DOWN_CNT_LOST : Fld := ⟨FAB.DOWN_CNT, 15, 0⟩
abbrev FAB.FEC_CORR : Nat := 0x070
abbrev FAB.FEC_UNCORR : Nat := 0x074
abbrev FAB.TXCNT : Nat := 0x078
abbrev FAB.RXCNT : Nat := 0x07C

abbrev FABR.ADDR_CFG : Nat := 0x040
abbrev FABR.ADDR_CFG_NB : Fld := ⟨FABR.ADDR_CFG, 30, 24⟩
abbrev FABR.ADDR_CFG_NA : Fld := ⟨FABR.ADDR_CFG, 22, 16⟩
abbrev FABR.ADDR_CFG_ADDR : Fld := ⟨FABR.ADDR_CFG, 11, 0⟩
abbrev FABR.SYS_ID : Nat := 0x044
abbrev FABR.STAT : Nat := 0x048
abbrev FABR.STAT_COORD_OK : Fld := ⟨FABR.STAT, 31, 31⟩
abbrev FABR.STAT_UNCONF : Fld := ⟨FABR.STAT, 30, 30⟩
abbrev FABR.STAT_MS : Fld := ⟨FABR.STAT, 2, 0⟩
abbrev FABR.ARB : Nat := 0x04C
abbrev FABR.ARB_W2 : Fld := ⟨FABR.ARB, 3, 0⟩
abbrev FABR.TMO : Nat := 0x050
abbrev FABR.TMO_WAKE : Fld := ⟨FABR.TMO, 15, 8⟩
abbrev FABR.TMO_REQ : Fld := ⟨FABR.TMO, 7, 0⟩
abbrev FABR.SAFE_CFG : Nat := 0x054
abbrev FABR.ROUTE_CNT : Nat := 0x058
abbrev FABR.ROUTE_CNT_DETOUR : Fld := ⟨FABR.ROUTE_CNT, 31, 16⟩
abbrev FABR.ROUTE_CNT_TTL : Fld := ⟨FABR.ROUTE_CNT, 15, 0⟩
abbrev FABR.NOROUTE_CNT : Nat := 0x05C
abbrev FABR.NOROUTE_CNT_UNREACH : Fld := ⟨FABR.NOROUTE_CNT, 31, 16⟩
abbrev FABR.NOROUTE_CNT_DELIVER_DROP : Fld := ⟨FABR.NOROUTE_CNT, 15, 0⟩
abbrev FABR.TXQ_BASE_LO : Nat := 0x060
abbrev FABR.TXQ_BASE_HI : Nat := 0x064
abbrev FABR.TXQ_SIZE : Nat := 0x068
abbrev FABR.TXQ_WR : Nat := 0x06C
abbrev FABR.TXQ_RD : Nat := 0x070
abbrev FABR.TXQ_DONE : Nat := 0x074
abbrev FABR.TXN_CNT : Nat := 0x078
abbrev FABR.TXN_CNT_TIMEOUT : Fld := ⟨FABR.TXN_CNT, 31, 16⟩
abbrev FABR.TXN_CNT_LATE : Fld := ⟨FABR.TXN_CNT, 15, 0⟩
abbrev FABR.BULK_BASE_LO : Nat := 0x07C
abbrev FABR.BULK_BASE_HI : Nat := 0x080
abbrev FABR.BULK_SIZE : Nat := 0x084
abbrev FABR.BULK_WR : Nat := 0x088
abbrev FABR.BULK_RD : Nat := 0x08C

abbrev DISC.CTL : Nat := 0x040
abbrev DISC.CTL_UNREACH_MS : Fld := ⟨DISC.CTL, 15, 0⟩
abbrev DISC.STAT : Nat := 0x044
abbrev DISC.LAG : Nat := 0x048
abbrev DISC.LAG_VALID : Fld := ⟨DISC.LAG, 31, 31⟩
abbrev DISC.SEL : Nat := 0x04C
abbrev DISC.ENTRY : Nat := 0x050
abbrev DISC.ENTRY_VALID : Fld := ⟨DISC.ENTRY, 31, 31⟩
abbrev DISC.ENTRY_REACH : Fld := ⟨DISC.ENTRY, 30, 30⟩
abbrev DISC.ENTRY_MS : Fld := ⟨DISC.ENTRY, 26, 24⟩
abbrev DISC.ENTRY_BOOT : Fld := ⟨DISC.ENTRY, 15, 0⟩
abbrev DISC.ENTRY_AGE : Nat := 0x054
abbrev DISC.NOTICE_CNT : Nat := 0x058
abbrev DISC.REACH (w : Nat) : Nat := 0x100 + 4 * w
abbrev DISC.FINE (w : Nat) : Nat := 0x300 + 4 * w

abbrev GATE.CFG : Nat := 0x040
abbrev GATE.CFG_TUN_TMO : Fld := ⟨GATE.CFG, 23, 16⟩
abbrev GATE.CFG_IDLE : Fld := ⟨GATE.CFG, 15, 0⟩
abbrev GATE.STAT : Nat := 0x044
abbrev GATE.SESS_SEL : Nat := 0x048
abbrev GATE.SESS_STAT : Nat := 0x04C
abbrev GATE.SESS_STAT_OPEN : Fld := ⟨GATE.SESS_STAT, 31, 31⟩
abbrev GATE.SESS_STAT_KIND : Fld := ⟨GATE.SESS_STAT, 30, 29⟩
abbrev GATE.SESS_TOKENS : Nat := 0x050
abbrev GATE.SESS_NOPAGE : Nat := 0x054
abbrev GATE.SESS_CMD : Nat := 0x058
abbrev GATE.SESS_CMD_REFUSE : Fld := ⟨GATE.SESS_CMD, 2, 2⟩
abbrev GATE.SESS_CMD_CLOSE : Fld := ⟨GATE.SESS_CMD, 1, 1⟩
abbrev GATE.SESS_CMD_OPEN : Fld := ⟨GATE.SESS_CMD, 0, 0⟩
abbrev GATE.OPEN_CFG : Nat := 0x05C
abbrev GATE.OPEN_CFG_KIND : Fld := ⟨GATE.OPEN_CFG, 31, 30⟩
abbrev GATE.OPEN_REF : Nat := 0x060
abbrev GATE.KEYADDR_LO : Nat := 0x064
abbrev GATE.KEYADDR_HI : Nat := 0x068
abbrev GATE.TUN_REQ : Nat := 0x06C
abbrev GATE.TUN_REQ_VALID : Fld := ⟨GATE.TUN_REQ, 31, 31⟩
abbrev GATE.TUN_REQ_ID_LO : Nat := 0x070
abbrev GATE.TUN_REQ_ID_HI : Nat := 0x074
abbrev GATE.SVC_BASE_LO : Nat := 0x078
abbrev GATE.SVC_BASE_HI : Nat := 0x07C
abbrev GATE.SVC_SIZE : Nat := 0x080
abbrev GATE.SVC_WR : Nat := 0x084
abbrev GATE.SVC_RD : Nat := 0x088
abbrev GATE.SVC_RSP_LO : Nat := 0x08C
abbrev GATE.SVC_RSP_HI : Nat := 0x090
abbrev GATE.SVC_RSP_CTL : Nat := 0x094
abbrev GATE.SVC_RSP_CTL_GO : Fld := ⟨GATE.SVC_RSP_CTL, 31, 31⟩
abbrev GATE.SVC_RSP_CTL_CODE : Fld := ⟨GATE.SVC_RSP_CTL, 30, 28⟩
abbrev GATE.SVC_RSP_TAG : Nat := 0x098
abbrev GATE.HS_REFUSED : Nat := 0x09C

abbrev KEYS.CMD : Nat := 0x040
abbrev KEYS.CMD_GO : Fld := ⟨KEYS.CMD, 31, 31⟩
abbrev KEYS.CMD_TYPE : Fld := ⟨KEYS.CMD, 19, 16⟩
abbrev KEYS.CMD_SLOT : Fld := ⟨KEYS.CMD, 15, 8⟩
abbrev KEYS.CMD_OP : Fld := ⟨KEYS.CMD, 3, 0⟩
abbrev KEYS.STAT : Nat := 0x044
abbrev KEYS.STAT_ENT_FAIL : Fld := ⟨KEYS.STAT, 8, 8⟩
abbrev KEYS.STAT_BUSY : Fld := ⟨KEYS.STAT, 4, 4⟩
abbrev KEYS.STAT_RESULT : Fld := ⟨KEYS.STAT, 2, 0⟩
abbrev KEYS.IN_LO : Nat := 0x048
abbrev KEYS.IN_HI : Nat := 0x04C
abbrev KEYS.LEN_IN : Nat := 0x050
abbrev KEYS.OUT_LO : Nat := 0x054
abbrev KEYS.OUT_HI : Nat := 0x058
abbrev KEYS.SLOT_SEL : Nat := 0x05C
abbrev KEYS.SLOT_INFO : Nat := 0x060
abbrev KEYS.SLOT_INFO_TYPE : Fld := ⟨KEYS.SLOT_INFO, 2, 0⟩
abbrev KEYS.SLOT_PUB (i : Nat) : Nat := 0x064 + 4 * i
abbrev KEYS.ENT_CNT : Nat := 0x0A4

abbrev ETH.CFG : Nat := 0x040
abbrev ETH.CFG_IPV6_EN : Fld := ⟨ETH.CFG, 3, 3⟩
abbrev ETH.CFG_IPV4_EN : Fld := ⟨ETH.CFG, 2, 2⟩
abbrev ETH.STAT : Nat := 0x044
abbrev ETH.STAT_BLOCK_LOCK : Fld := ⟨ETH.STAT, 13, 13⟩
abbrev ETH.STAT_LINK : Fld := ⟨ETH.STAT, 14, 14⟩
abbrev ETH.MAC_LO : Nat := 0x048
abbrev ETH.MAC_HI : Nat := 0x04C
abbrev ETH.IP4 : Nat := 0x050
abbrev ETH.IP6 (i : Nat) : Nat := 0x054 + 4 * i
abbrev ETH.PORT : Nat := 0x064
abbrev ETH.RX_BASE_LO : Nat := 0x068
abbrev ETH.RX_BASE_HI : Nat := 0x06C
abbrev ETH.RX_SIZE : Nat := 0x070
abbrev ETH.RX_WR : Nat := 0x074
abbrev ETH.RX_RD : Nat := 0x078
abbrev ETH.TX_BASE_LO : Nat := 0x07C
abbrev ETH.TX_BASE_HI : Nat := 0x080
abbrev ETH.TX_SIZE : Nat := 0x084
abbrev ETH.TX_WR : Nat := 0x088
abbrev ETH.TX_RD : Nat := 0x08C
abbrev ETH.RX_DROP : Nat := 0x090
abbrev ETH.RX_FRAMES : Nat := 0x094
abbrev ETH.TX_FRAMES : Nat := 0x098

abbrev TALLY.CTL : Nat := 0x040
abbrev TALLY.CTL_FLUSH_MS : Fld := ⟨TALLY.CTL, 15, 8⟩
abbrev TALLY.CTL_MODE : Fld := ⟨TALLY.CTL, 1, 0⟩
abbrev TALLY.STAT : Nat := 0x044
abbrev TALLY.STAT_UNCLEAN : Fld := ⟨TALLY.STAT, 12, 12⟩
abbrev TALLY.STAT_SEAL_LATE : Fld := ⟨TALLY.STAT, 11, 11⟩
abbrev TALLY.STAT_DEGRADED : Fld := ⟨TALLY.STAT, 10, 10⟩
abbrev TALLY.STAT_STORE_FULL : Fld := ⟨TALLY.STAT, 9, 9⟩
abbrev TALLY.STAT_TALLY_FULL : Fld := ⟨TALLY.STAT, 8, 8⟩
abbrev TALLY.STAT_STORE : Fld := ⟨TALLY.STAT, 2, 0⟩
abbrev TALLY.CMD : Nat := 0x048
abbrev TALLY.CMD_FLUSH : Fld := ⟨TALLY.CMD, 1, 1⟩
abbrev TALLY.CMD_FORMAT : Fld := ⟨TALLY.CMD, 0, 0⟩
abbrev TALLY.FMT_RING_MIN : Nat := 0x04C
abbrev TALLY.STORE_ID_LO : Nat := 0x050
abbrev TALLY.STORE_ID_HI : Nat := 0x054
abbrev TALLY.TOTAL : Nat := 0x058
abbrev TALLY.P_END : Nat := 0x05C
abbrev TALLY.RING_MIN : Nat := 0x060
abbrev TALLY.RECOV : Nat := 0x064
abbrev TALLY.POST_BASE_LO : Nat := 0x068
abbrev TALLY.POST_BASE_HI : Nat := 0x06C
abbrev TALLY.POST_SIZE : Nat := 0x070
abbrev TALLY.POST_WR : Nat := 0x074
abbrev TALLY.POST_RD : Nat := 0x078
abbrev TALLY.HEAD_RSEQ_LO (c : Nat) : Nat := 0x080 + 16 * c
abbrev TALLY.HEAD_RSEQ_HI (c : Nat) : Nat := 0x084 + 16 * c
abbrev TALLY.DUR_RSEQ_LO (c : Nat) : Nat := 0x088 + 16 * c
abbrev TALLY.DUR_RSEQ_HI (c : Nat) : Nat := 0x08C + 16 * c
abbrev TALLY.HEAD_BSEQ (c : Nat) : Nat := 0x0E0 + 8 * c
abbrev TALLY.HEAD_OFS (c : Nat) : Nat := 0x0E4 + 8 * c
abbrev TALLY.OLD_BSEQ (c : Nat) : Nat := 0x110 + 4 * c
abbrev TALLY.SEAL_CNT : Nat := 0x130
abbrev TALLY.SEAL_NS : Nat := 0x134
abbrev TALLY.RD_CTL : Nat := 0x138
abbrev TALLY.RD_CTL_GO : Fld := ⟨TALLY.RD_CTL, 31, 31⟩
abbrev TALLY.RD_CTL_CLASS : Fld := ⟨TALLY.RD_CTL, 30, 28⟩
abbrev TALLY.RD_CTL_LEN : Fld := ⟨TALLY.RD_CTL, 16, 0⟩
abbrev TALLY.RD_BSEQ : Nat := 0x13C
abbrev TALLY.RD_OFS : Nat := 0x140
abbrev TALLY.RD_DST_LO : Nat := 0x144
abbrev TALLY.RD_DST_HI : Nat := 0x148
abbrev TALLY.RD_RES : Nat := 0x14C
abbrev TALLY.RD_RES_DONE : Fld := ⟨TALLY.RD_RES, 31, 31⟩
abbrev TALLY.RD_RES_CODE : Fld := ⟨TALLY.RD_RES, 2, 0⟩
abbrev TALLY.REPL_CFG : Nat := 0x150
abbrev TALLY.REPL_CFG_EN : Fld := ⟨TALLY.REPL_CFG, 31, 31⟩
abbrev TALLY.REPL_CFG_MASK : Fld := ⟨TALLY.REPL_CFG, 21, 16⟩
abbrev TALLY.REPL_CFG_PEER : Fld := ⟨TALLY.REPL_CFG, 11, 0⟩
abbrev TALLY.REPL_LAG : Nat := 0x154
abbrev TALLY.REFUSED : Nat := 0x158
abbrev TALLY.REFUSED_FULL_STOP : Fld := ⟨TALLY.REFUSED, 31, 16⟩

abbrev NVME.NSID : Nat := 0x040
abbrev NVME.STAT : Nat := 0x044
abbrev NVME.STAT_SPEED : Fld := ⟨NVME.STAT, 23, 20⟩
abbrev NVME.STAT_WIDTH : Fld := ⟨NVME.STAT, 19, 16⟩
abbrev NVME.STAT_LINK : Fld := ⟨NVME.STAT, 10, 10⟩
abbrev NVME.STAT_NS_BAD : Fld := ⟨NVME.STAT, 9, 9⟩
abbrev NVME.STAT_VWC : Fld := ⟨NVME.STAT, 8, 8⟩
abbrev NVME.STAT_STATE : Fld := ⟨NVME.STAT, 2, 0⟩
abbrev NVME.CAP_BLK : Nat := 0x048
abbrev NVME.NS_CMD : Nat := 0x04C
abbrev NVME.NS_CMD_GO : Fld := ⟨NVME.NS_CMD, 31, 31⟩
abbrev NVME.NS_CMD_OP : Fld := ⟨NVME.NS_CMD, 2, 0⟩
abbrev NVME.NS_ARG_LO : Nat := 0x050
abbrev NVME.NS_ARG_HI : Nat := 0x054
abbrev NVME.NS_RES : Nat := 0x058
abbrev NVME.NS_RES_DONE : Fld := ⟨NVME.NS_RES, 31, 31⟩
abbrev NVME.ERR_CNT : Nat := 0x05C
abbrev NVME.TMO_CNT : Nat := 0x060
abbrev NVME.WEAR : Nat := 0x064
abbrev NVME.TEMP : Nat := 0x068
abbrev NVME.WRITTEN : Nat := 0x06C

abbrev APC.CTL : Nat := 0x040
abbrev APC.CTL_HART_EN : Fld := ⟨APC.CTL, 3, 0⟩
abbrev APC.STAT : Nat := 0x044
abbrev APC.STAT_DDR_READY : Fld := ⟨APC.STAT, 12, 12⟩
abbrev APC.STAT_HALTED : Fld := ⟨APC.STAT, 11, 8⟩
abbrev APC.STAT_WFI : Fld := ⟨APC.STAT, 7, 4⟩
abbrev APC.STAT_RUNNING : Fld := ⟨APC.STAT, 3, 0⟩
abbrev APC.ENTRY_LO : Nat := 0x048
abbrev APC.ENTRY_HI : Nat := 0x04C
abbrev APC.EXT_CFG : Nat := 0x050
abbrev APC.WDT_CFG : Nat := 0x054
abbrev APC.WDT_CFG_EN : Fld := ⟨APC.WDT_CFG, 31, 31⟩
abbrev APC.WDT_CFG_PERIOD : Fld := ⟨APC.WDT_CFG, 15, 0⟩
abbrev APC.WDT_KICK : Nat := 0x058
abbrev APC.WDT_REMAIN : Nat := 0x05C
abbrev APC.L2_ECC_CNT : Nat := 0x060
abbrev APC.L2_ECC_ADDR_LO : Nat := 0x064
abbrev APC.L2_ECC_ADDR_HI : Nat := 0x068
abbrev APC.DDR_CFG : Nat := 0x06C
abbrev APC.DDR_CFG_IECC : Fld := ⟨APC.DDR_CFG, 8, 8⟩
abbrev APC.DDR_CFG_SIZE : Fld := ⟨APC.DDR_CFG, 1, 0⟩
abbrev APC.DDR_STAT : Nat := 0x070
abbrev APC.DDR_STAT_STATE : Fld := ⟨APC.DDR_STAT, 2, 0⟩
abbrev APC.DDR_ECC_CNT : Nat := 0x074
abbrev APC.DDR_ECC_ADDR_LO : Nat := 0x078
abbrev APC.DDR_ECC_ADDR_HI : Nat := 0x07C
abbrev APC.MTIME_LO : Nat := 0x080
abbrev APC.MTIME_HI : Nat := 0x084
abbrev APC.MTIMECMP_LO (h : Nat) : Nat := 0x088 + 8 * h
abbrev APC.MTIMECMP_HI (h : Nat) : Nat := 0x08C + 8 * h
abbrev APC.MSIP (h : Nat) : Nat := 0x0A8 + 4 * h

abbrev DBG.CTL : Nat := 0x040
abbrev DBG.CTL_PAIR_HOLD : Fld := ⟨DBG.CTL, 1, 1⟩
abbrev DBG.CTL_APC_OPEN : Fld := ⟨DBG.CTL, 0, 0⟩
abbrev DBG.STAT : Nat := 0x044
abbrev DBG.STAT_EXT_SCAN : Fld := ⟨DBG.STAT, 16, 16⟩
abbrev DBG.STAT_DM_ACTIVE : Fld := ⟨DBG.STAT, 5, 5⟩
abbrev DBG.REFUSED : Nat := 0x048
abbrev DBG.LAST_REF : Nat := 0x04C
abbrev DBG.LAST_REF_VALID : Fld := ⟨DBG.LAST_REF, 31, 31⟩
abbrev DBG.LAST_REF_DMI : Fld := ⟨DBG.LAST_REF, 6, 0⟩

abbrev SUP.STAT : Nat := 0x040
abbrev SUP.STAT_VBAK_LOW : Fld := ⟨SUP.STAT, 5, 5⟩
abbrev SUP.STAT_NO_BACKUP : Fld := ⟨SUP.STAT, 4, 4⟩
abbrev SUP.STAT_VAUX_OK : Fld := ⟨SUP.STAT, 3, 3⟩
abbrev SUP.STAT_PATH : Fld := ⟨SUP.STAT, 2, 0⟩
abbrev SUP.VAUX : Nat := 0x044
abbrev SUP.VAUX_VAUX : Fld := ⟨SUP.VAUX, 15, 0⟩
abbrev SUP.VBAK : Nat := 0x048
abbrev SUP.VBAK_VBAK : Fld := ⟨SUP.VBAK, 15, 0⟩
abbrev SUP.PATH_CFG : Nat := 0x04C
abbrev SUP.PATH_CFG_BAK_WARN : Fld := ⟨SUP.PATH_CFG, 15, 8⟩
abbrev SUP.PATH_CFG_AON_IQ : Fld := ⟨SUP.PATH_CFG, 7, 0⟩
abbrev SUP.BAK_CHG_LO : Nat := 0x050
abbrev SUP.BAK_CHG_HI : Nat := 0x054
abbrev SUP.BAK_TIME : Nat := 0x058
abbrev SUP.HO_CNT : Nat := 0x05C
abbrev SUP.PMB_CFG : Nat := 0x060
abbrev SUP.PMB_CFG_EN : Fld := ⟨SUP.PMB_CFG, 31, 31⟩
abbrev SUP.PMB_CFG_PEC : Fld := ⟨SUP.PMB_CFG, 30, 30⟩
abbrev SUP.PMB_ERR : Nat := 0x064
abbrev SUP.PMB_ERR_PEC : Fld := ⟨SUP.PMB_ERR, 15, 0⟩
abbrev SUP.IO_CFG : Nat := 0x068
abbrev SUP.MON_LIM : Nat := 0x06C
abbrev SUP.MON_LIM_LIM_HI : Fld := ⟨SUP.MON_LIM, 31, 16⟩
abbrev SUP.MON_LIM_LIM_LO : Fld := ⟨SUP.MON_LIM, 15, 0⟩
abbrev SUP.MON_ACT : Nat := 0x070
abbrev SUP.MON_ACT_ACT : Fld := ⟨SUP.MON_ACT, 0, 0⟩
abbrev SUP.MON_FLT_LO : Nat := 0x074
abbrev SUP.MON_FLT_HI : Nat := 0x078
abbrev SUP.SLOT_CFG (s : Nat) : Nat := 0x080 + 8 * s
abbrev SUP.SLOT_CFG_EN (s : Nat) : Fld := ⟨(SUP.SLOT_CFG s), 31, 31⟩
abbrev SUP.SLOT_CFG_REST_ON (s : Nat) : Fld := ⟨(SUP.SLOT_CFG s), 30, 30⟩
abbrev SUP.SLOT_CFG_PMB (s : Nat) : Fld := ⟨(SUP.SLOT_CFG s), 29, 29⟩
abbrev SUP.SLOT_CFG_IIN_EN (s : Nat) : Fld := ⟨(SUP.SLOT_CFG s), 28, 28⟩
abbrev SUP.SLOT_CFG_ADDR (s : Nat) : Fld := ⟨(SUP.SLOT_CFG s), 22, 16⟩
abbrev SUP.SLOT_CFG_DELAY (s : Nat) : Fld := ⟨(SUP.SLOT_CFG s), 7, 0⟩
abbrev SUP.SLOT_RAILS (s : Nat) : Nat := 0x084 + 8 * s
abbrev SUP.SLOT_STAT (s : Nat) : Nat := 0x0C0 + 4 * s
abbrev SUP.SLOT_STAT_ON (s : Nat) : Fld := ⟨(SUP.SLOT_STAT s), 31, 31⟩
abbrev SUP.SLOT_STAT_PG (s : Nat) : Fld := ⟨(SUP.SLOT_STAT s), 30, 30⟩
abbrev SUP.SLOT_STAT_PMB_OK (s : Nat) : Fld := ⟨(SUP.SLOT_STAT s), 29, 29⟩
abbrev SUP.SLOT_IIN (s : Nat) : Nat := 0x0E0 + 4 * s
abbrev SUP.MON_VAL (m : Nat) : Nat := 0x100 + 4 * m
abbrev SUP.MON_VAL_HIGH (m : Nat) : Fld := ⟨(SUP.MON_VAL m), 17, 17⟩
abbrev SUP.MON_VAL_LOW (m : Nat) : Fld := ⟨(SUP.MON_VAL m), 16, 16⟩

abbrev CLK.STAT : Nat := 0x040
abbrev CLK.STAT_RC32_IN_USE : Fld := ⟨CLK.STAT, 18, 18⟩
abbrev CLK.STAT_RC100_IN_USE : Fld := ⟨CLK.STAT, 17, 17⟩
abbrev CLK.STAT_RC16_ON : Fld := ⟨CLK.STAT, 16, 16⟩
abbrev CLK.STAT_BEAM_LOCK : Fld := ⟨CLK.STAT, 10, 10⟩
abbrev CLK.STAT_RECK_LOCK : Fld := ⟨CLK.STAT, 9, 9⟩
abbrev CLK.STAT_APC_LOCK : Fld := ⟨CLK.STAT, 8, 8⟩
abbrev CLK.STAT_X156_OK : Fld := ⟨CLK.STAT, 2, 2⟩
abbrev CLK.STAT_X32K_OK : Fld := ⟨CLK.STAT, 1, 1⟩
abbrev CLK.STAT_X25_OK : Fld := ⟨CLK.STAT, 0, 0⟩
abbrev CLK.X32K_PPM : Nat := 0x044
abbrev CLK.UNLOCK_CNT : Nat := 0x048
abbrev CLK.UNLOCK_CNT_APC : Fld := ⟨CLK.UNLOCK_CNT, 7, 0⟩
abbrev CLK.XTAL_CNT : Nat := 0x04C
abbrev CLK.XTAL_CNT_AON : Fld := ⟨CLK.XTAL_CNT, 15, 8⟩

abbrev AON.CNT_LO : Nat := 0x040
abbrev AON.CNT_HI : Nat := 0x044
abbrev AON.CNT_HI_AON : Fld := ⟨AON.CNT_HI, 15, 0⟩
abbrev AON.ALARM_LO : Nat := 0x048
abbrev AON.ALARM_HI : Nat := 0x04C
abbrev AON.ALARM_CTL : Nat := 0x050
abbrev AON.ALARM_CTL_EN : Fld := ⟨AON.ALARM_CTL, 0, 0⟩
abbrev AON.SAFE_WAKE : Nat := 0x054
abbrev AON.SAFE_WAKE_SAFE_IN : Fld := ⟨AON.SAFE_WAKE, 7, 0⟩
abbrev AON.WATCH_STAT : Nat := 0x058
abbrev AON.WAKE_CFG (n : Nat) : Nat := 0x100 + 4 * n
abbrev AON.SCRATCH (i : Nat) : Nat := 0x180 + 4 * i

abbrev REST.REQ : Nat := 0x040
abbrev REST.REQ_ABORT : Fld := ⟨REST.REQ, 31, 31⟩
abbrev REST.REQ_TARGET : Fld := ⟨REST.REQ, 2, 0⟩
abbrev REST.STAT : Nat := 0x044
abbrev REST.STAT_FAIL_SEEN : Fld := ⟨REST.STAT, 14, 14⟩
abbrev REST.STAT_WAKE_FAIL : Fld := ⟨REST.STAT, 13, 13⟩
abbrev REST.STAT_DEGRADED : Fld := ⟨REST.STAT, 12, 12⟩
abbrev REST.STAT_REQ_FAIL : Fld := ⟨REST.STAT, 11, 11⟩
abbrev REST.STAT_WAKING : Fld := ⟨REST.STAT, 10, 10⟩
abbrev REST.STAT_ENTERING : Fld := ⟨REST.STAT, 9, 9⟩
abbrev REST.STAT_PENDING : Fld := ⟨REST.STAT, 8, 8⟩
abbrev REST.STAT_TARGET : Fld := ⟨REST.STAT, 6, 4⟩
abbrev REST.STAT_STATE : Fld := ⟨REST.STAT, 2, 0⟩
abbrev REST.CFG : Nat := 0x048
abbrev REST.CFG_ENTRY_TMO : Fld := ⟨REST.CFG, 31, 24⟩
abbrev REST.CFG_WAKE_TO : Fld := ⟨REST.CFG, 16, 16⟩
abbrev REST.CFG_LINGER : Fld := ⟨REST.CFG, 15, 0⟩
abbrev REST.WAKE_EN : Nat := 0x04C
abbrev REST.WAKE_CAUSE : Nat := 0x050
abbrev REST.WAKE_LAST : Nat := 0x054
abbrev REST.DOM_STAT : Nat := 0x058
abbrev REST.DOM_STAT_AON : Fld := ⟨REST.DOM_STAT, 1, 0⟩
abbrev REST.DOM_STAT_FAB : Fld := ⟨REST.DOM_STAT, 3, 2⟩
abbrev REST.DOM_STAT_RD : Fld := ⟨REST.DOM_STAT, 5, 4⟩
abbrev REST.DOM_STAT_DDR : Fld := ⟨REST.DOM_STAT, 7, 6⟩
abbrev REST.DOM_STAT_FD0 : Fld := ⟨REST.DOM_STAT, 9, 8⟩
abbrev REST.DOM_STAT_FD1 : Fld := ⟨REST.DOM_STAT, 11, 10⟩
abbrev REST.DOM_STAT_FD2 : Fld := ⟨REST.DOM_STAT, 13, 12⟩
abbrev REST.DOM_STAT_FD3 : Fld := ⟨REST.DOM_STAT, 15, 14⟩
abbrev REST.ENTRY_CNT : Nat := 0x05C
abbrev REST.ENTRY_CNT_ABORTED : Fld := ⟨REST.ENTRY_CNT, 15, 0⟩
abbrev REST.FAIL_CNT : Nat := 0x060

abbrev LIFE.STATE : Nat := 0x040
abbrev LIFE.STATE_FUSE_PART : Fld := ⟨LIFE.STATE, 8, 8⟩
abbrev LIFE.ADV : Nat := 0x044
abbrev LIFE.ADV_KEY : Fld := ⟨LIFE.ADV, 31, 16⟩
abbrev LIFE.ADV_TARGET : Fld := ⟨LIFE.ADV, 2, 0⟩
abbrev LIFE.ADV_RES : Nat := 0x048
abbrev LIFE.ADV_RES_DONE : Fld := ⟨LIFE.ADV_RES, 31, 31⟩
abbrev LIFE.ADV_RES_CODE : Fld := ⟨LIFE.ADV_RES, 2, 0⟩
abbrev LIFE.SERIAL_LO : Nat := 0x04C
abbrev LIFE.SERIAL_HI : Nat := 0x050
abbrev LIFE.MAC_LO : Nat := 0x054
abbrev LIFE.MAC_HI : Nat := 0x058

abbrev PROF.STAT : Nat := 0x040
abbrev PROF.STAT_COPY : Fld := ⟨PROF.STAT, 2, 2⟩
abbrev PROF.NEXT : Nat := 0x044
abbrev PROF.SEL_CMD : Nat := 0x048
abbrev PROF.SEL_CMD_GO : Fld := ⟨PROF.SEL_CMD, 31, 31⟩
abbrev PROF.GEN_A (p : Nat) : Nat := 0x050 + 8 * p
abbrev PROF.GEN_B (p : Nat) : Nat := 0x054 + 8 * p
abbrev PROF.APPLY_ERR : Nat := 0x070
abbrev PROF.APPLY_ERR_VALID : Fld := ⟨PROF.APPLY_ERR, 31, 31⟩
abbrev PROF.APPLY_LOC : Nat := 0x074
abbrev PROF.CFW_CMD : Nat := 0x080
abbrev PROF.CFW_CMD_GO : Fld := ⟨PROF.CFW_CMD, 31, 31⟩
abbrev PROF.CFW_CMD_OP : Fld := ⟨PROF.CFW_CMD, 1, 0⟩
abbrev PROF.CFW_ADDR : Nat := 0x084
abbrev PROF.CFW_ADDR_CF : Fld := ⟨PROF.CFW_ADDR, 27, 0⟩
abbrev PROF.CFW_LEN : Nat := 0x088
abbrev PROF.CFW_SRC_LO : Nat := 0x08C
abbrev PROF.CFW_SRC_HI : Nat := 0x090
abbrev PROF.CFW_RES : Nat := 0x094
abbrev PROF.CFW_RES_DONE : Fld := ⟨PROF.CFW_RES, 31, 31⟩
abbrev PROF.CFW_RES_CODE : Fld := ⟨PROF.CFW_RES, 2, 0⟩

abbrev BIST.LB_CFG : Nat := 0x040
abbrev BIST.LB_CFG_EN : Fld := ⟨BIST.LB_CFG, 31, 31⟩
abbrev BIST.LB_CFG_WAIT : Fld := ⟨BIST.LB_CFG, 15, 0⟩
abbrev BIST.LB_STAT : Nat := 0x044
abbrev BIST.LB_STAT_SPARE_PHYS : Fld := ⟨BIST.LB_STAT, 28, 24⟩
abbrev BIST.LB_STAT_NEXT_PHYS : Fld := ⟨BIST.LB_STAT, 20, 16⟩
abbrev BIST.LB_STAT_STARVED : Fld := ⟨BIST.LB_STAT, 4, 4⟩
abbrev BIST.LB_STAT_STATE : Fld := ⟨BIST.LB_STAT, 2, 0⟩
abbrev BIST.LB_BAD : Nat := 0x048
abbrev BIST.LB_CNT : Nat := 0x04C
abbrev BIST.LB_CNT_PASS : Fld := ⟨BIST.LB_CNT, 31, 16⟩
abbrev BIST.LB_CNT_FAIL : Fld := ⟨BIST.LB_CNT, 15, 8⟩
abbrev BIST.LB_CNT_SKIP : Fld := ⟨BIST.LB_CNT, 7, 0⟩
abbrev BIST.LB_AGE (p : Nat) : Nat := 0x080 + 4 * p
abbrev BIST.AL_CFG (k : Nat) : Nat := 0x100 + 16 * k
abbrev BIST.AL_CFG_EN (k : Nat) : Fld := ⟨(BIST.AL_CFG k), 31, 31⟩
abbrev BIST.AL_CFG_AL_N (k : Nat) : Fld := ⟨(BIST.AL_CFG k), 23, 16⟩
abbrev BIST.AL_CFG_AL_TOL (k : Nat) : Fld := ⟨(BIST.AL_CFG k), 15, 0⟩
abbrev BIST.AL_DAC (k : Nat) : Nat := 0x104 + 16 * k
abbrev BIST.AL_DAC_DAC1 (k : Nat) : Fld := ⟨(BIST.AL_DAC k), 31, 16⟩
abbrev BIST.AL_DAC_DAC0 (k : Nat) : Fld := ⟨(BIST.AL_DAC k), 15, 0⟩
abbrev BIST.AL_REF9 (k : Nat) : Nat := 0x108 + 16 * k
abbrev BIST.AL_FAIL (k : Nat) : Nat := 0x10C + 16 * k
abbrev BIST.AL_FAIL_AL_CNT (k : Nat) : Fld := ⟨(BIST.AL_FAIL k), 31, 16⟩
abbrev BIST.MB_SEL : Nat := 0x140
abbrev BIST.MB_SEL_MEM_ID : Fld := ⟨BIST.MB_SEL, 7, 0⟩
abbrev BIST.MB_INFO : Nat := 0x144
abbrev BIST.MB_INFO_FAILED : Fld := ⟨BIST.MB_INFO, 31, 31⟩
abbrev BIST.MB_INFO_UNREPAIRED : Fld := ⟨BIST.MB_INFO, 30, 30⟩
abbrev BIST.MB_ADDR : Nat := 0x148
abbrev BIST.MB_ADDR_VALID : Fld := ⟨BIST.MB_ADDR, 31, 31⟩
abbrev BIST.MB_BIT : Nat := 0x14C
abbrev BIST.DTE_CMD : Nat := 0x160
abbrev BIST.DTE_CMD_GO : Fld := ⟨BIST.DTE_CMD, 31, 31⟩
abbrev BIST.DTE_CMD_ARG : Fld := ⟨BIST.DTE_CMD, 15, 8⟩
abbrev BIST.DTE_CMD_OP : Fld := ⟨BIST.DTE_CMD, 1, 0⟩
abbrev BIST.DTE_RES : Nat := 0x164
abbrev BIST.DTE_RES_DONE : Fld := ⟨BIST.DTE_RES, 31, 31⟩
abbrev BIST.DTE_RES_CODE : Fld := ⟨BIST.DTE_RES, 2, 0⟩

abbrev INJ.CAT_SEL : Nat := 0x040
abbrev INJ.CAT_SEL_POINT : Fld := ⟨INJ.CAT_SEL, 23, 16⟩
abbrev INJ.CAT_INFO : Nat := 0x044
abbrev INJ.CAT_INFO_VALID : Fld := ⟨INJ.CAT_INFO, 31, 31⟩
abbrev INJ.CAT_INFO_FEEDS_SAFETY : Fld := ⟨INJ.CAT_INFO, 30, 30⟩
abbrev INJ.CAT_INFO_ARMED : Fld := ⟨INJ.CAT_INFO, 29, 29⟩
abbrev INJ.CAT_INFO_SHOTS : Fld := ⟨INJ.CAT_INFO, 15, 8⟩
abbrev INJ.CAT_INFO_POINT : Fld := ⟨INJ.CAT_INFO, 7, 0⟩
abbrev INJ.ARMED_CNT : Nat := 0x048
abbrev INJ.DELIV_CNT : Nat := 0x04C
abbrev INJ.DENIED_CNT : Nat := 0x050
abbrev INJ.LAST : Nat := 0x054
abbrev INJ.LAST_VALID : Fld := ⟨INJ.LAST, 31, 31⟩
abbrev INJ.LAST_POINT : Fld := ⟨INJ.LAST, 23, 16⟩
abbrev INJ.LAST_NS : Nat := 0x058

end Sys2Proof.Machine
end

