-- ==== Sys2Proof/Machine/Tab.lean ====
section
/-! DEFINITION. Sparse tables: a list of (key, value) pairs with rising keys and no pair equal to
the value an unlisted key reads as.  The register board, memories and per-instance records are
held in this one form. -/

namespace Sys2Proof.Machine

/-- The value of a key: the listed one, else the default of the key. -/
def tabGet {α : Type} (d : Nat → α) : List (Nat × α) → Nat → α
  | [], k => d k
  | p :: r, k => if p.1 = k then p.2 else tabGet d r k

/-- The table without a key. -/
def tabDel {α : Type} (t : List (Nat × α)) (k : Nat) : List (Nat × α) :=
  t.filter (fun p => !(p.1 == k))

/-- Insert a pair before the first larger key. -/
def tabIns {α : Type} : List (Nat × α) → Nat → α → List (Nat × α)
  | [], k, v => [(k, v)]
  | p :: r, k, v => if k < p.1 then (k, v) :: p :: r else p :: tabIns r k v

/-- Write a key.  Writing the key's default removes the pair, so equal tables are equal lists. -/
def tabPut {α : Type} [DecidableEq α] (d : Nat → α) (t : List (Nat × α)) (k : Nat) (v : α) :
    List (Nat × α) :=
  if v = d k then tabDel t k else tabIns (tabDel t k) k v

/-- Keys strictly rising. -/
def tabRising {α : Type} : List (Nat × α) → Bool
  | [] => true
  | [_] => true
  | p :: q :: r => decide (p.1 < q.1) && tabRising (q :: r)

/-- The canonical form: rising keys, no listed default. -/
def tabWf {α : Type} [DecidableEq α] (d : Nat → α) (t : List (Nat × α)) : Bool :=
  tabRising t && t.all (fun p => !(decide (p.2 = d p.1)))

/-- Keep the pairs whose key satisfies a test: used when a reset returns the others to their
defaults. -/
def tabKeep {α : Type} (f : Nat → Bool) (t : List (Nat × α)) : List (Nat × α) :=
  t.filter (fun p => f p.1)

end Sys2Proof.Machine
end

