-- ==== Sys2Proof/Machine/Pages.lean ====
section
/-! DEFINITION. The page map of board space (R34, R61, R62): page numbers, types, power domains,
table memories and their owning pages, and the reset value of every word. -/

namespace Sys2Proof.Machine

/-- The power domains, in the order of REST.DOM_STAT. -/
inductive Dom where
  | aon | fab | rd | ddr | fd (k : Nat)
deriving DecidableEq, Repr

/-- Index of a domain in REST.DOM_STAT and SYS.RST_CAUSE. -/
def Dom.idx : Dom → Nat
  | .aon => 0
  | .fab => 1
  | .rd => 2
  | .ddr => 3
  | .fd k => 4 + k

/-- The types of register pages (R61). -/
inductive PType where
  | sys | life | prof | sup | clk | aon | rest | beam | frame | safe | spair | apc | dbg
  | gate | keys | tally | nvme | eth | fab | fabr | disc | beads | cea | eis | therm | stepc
  | step | pcnt | bist | inj | acq | tdig | fdc | mbus | reck | rod | loop | glk | prot
deriving DecidableEq, Repr

/-- One row of the page map: type, first page, number of instances. -/
structure PRow where
  ty : PType
  first : Nat
  count : Nat
deriving DecidableEq, Repr

/-- The page map of R61. -/
def pageMap : List PRow := [
  ⟨.sys, 0x000, 1⟩, ⟨.life, 0x001, 1⟩, ⟨.prof, 0x002, 1⟩, ⟨.sup, 0x003, 1⟩, ⟨.clk, 0x004, 1⟩,
  ⟨.aon, 0x005, 1⟩, ⟨.rest, 0x006, 1⟩, ⟨.beam, 0x008, 1⟩, ⟨.frame, 0x009, 1⟩,
  ⟨.safe, 0x010, 1⟩, ⟨.spair, 0x011, 1⟩, ⟨.apc, 0x012, 1⟩, ⟨.dbg, 0x013, 1⟩,
  ⟨.gate, 0x018, 1⟩, ⟨.keys, 0x019, 1⟩, ⟨.tally, 0x01A, 1⟩, ⟨.nvme, 0x01B, 2⟩,
  ⟨.eth, 0x01D, 2⟩, ⟨.fab, 0x020, 4⟩, ⟨.fabr, 0x024, 1⟩, ⟨.disc, 0x025, 1⟩,
  ⟨.beads, 0x028, 1⟩, ⟨.cea, 0x029, 1⟩, ⟨.eis, 0x02A, 1⟩, ⟨.therm, 0x030, 1⟩,
  ⟨.stepc, 0x031, 1⟩, ⟨.step, 0x040, 32⟩, ⟨.pcnt, 0x060, 16⟩, ⟨.bist, 0x070, 1⟩,
  ⟨.inj, 0x071, 1⟩, ⟨.acq, 0x080, 4⟩, ⟨.tdig, 0x084, 4⟩, ⟨.fdc, 0x088, 4⟩,
  ⟨.mbus, 0x0A0, 32⟩, ⟨.reck, 0x0C0, 32⟩, ⟨.rod, 0x100, 24⟩, ⟨.loop, 0x120, 24⟩,
  ⟨.glk, 0x140, 24⟩, ⟨.prot, 0x160, 24⟩]

/-- The row of the page map that lists a page. -/
def pageRow (p : Nat) : Option PRow :=
  pageMap.find? (fun r => decide (r.first ≤ p) && decide (p < r.first + r.count))

/-- The type of a register page. -/
def pageType (p : Nat) : Option PType := (pageRow p).map PRow.ty

/-- PG_ID.INSTANCE of a register page (R34). -/
def pageInst (p : Nat) : Nat := ((pageRow p).map (fun r => p - r.first)).getD 0

/-- The page that owns a table page (R62), if the page lies in a table region. -/
def tableOwner (p : Nat) : Option Nat :=
  if 0x800 ≤ p ∧ p ≤ 0x807 then some (0x080 + (p - 0x800) / 2)
  else if 0x820 ≤ p ∧ p ≤ 0x87F then some (0x120 + (p - 0x820) / 4)
  else if 0x880 ≤ p ∧ p ≤ 0x8AF then some (0x120 + (p - 0x880) / 2)
  else if 0x8B0 ≤ p ∧ p ≤ 0x8BF then some (0x088 + (p - 0x8B0) / 4)
  else if 0x900 ≤ p ∧ p ≤ 0x9FF then some 0x018
  else if 0xA00 ≤ p ∧ p ≤ 0xA3F then some 0x029
  else none

/-- The page whose header governs accesses to a page: itself, or the owner of a table page.
`none`: the page is absent (R33, R62). -/
def ownerPage (p : Nat) : Option Nat :=
  if (pageRow p).isSome then some p else tableOwner p

/-- The field die of a page (R61). -/
def fieldDie (t : PType) (i : Nat) : Nat :=
  match t with
  | .rod | .loop | .glk | .prot => i / 6
  | .step | .mbus => i / 8
  | .pcnt => i / 4
  | _ => i

/-- The power domain of a register page (R61). -/
def pageDom (p : Nat) : Dom :=
  match pageType p with
  | some t =>
    match t with
    | .sys | .life | .sup | .clk | .aon | .rest => .aon
    | .fab | .fabr | .disc => .fab
    | .step | .pcnt | .acq | .tdig | .fdc | .mbus | .rod | .loop | .glk | .prot =>
      .fd (fieldDie t (pageInst p))
    | _ => .rd
  | none => .aon

/-- The block registers of a page type. -/
def blockRegs : PType → List Reg
  | .sys => regsSYS
  | .life => regsLIFE
  | .prof => regsPROF
  | .sup => regsSUP
  | .clk => regsCLK
  | .aon => regsAON
  | .rest => regsREST
  | .beam => regsBEAM
  | .frame => regsFRAME
  | .safe => regsSAFE
  | .spair => regsSPAIR
  | .apc => regsAPC
  | .dbg => regsDBG
  | .gate => regsGATE
  | .keys => regsKEYS
  | .tally => regsTALLY
  | .nvme => regsNVME
  | .eth => regsETH
  | .fab => regsFAB
  | .fabr => regsFABR
  | .disc => regsDISC
  | .beads => regsBEADS
  | .cea => regsCEA
  | .eis => regsEIS
  | .therm => regsTHERM
  | .stepc => regsSTEPC
  | .step => regsSTEP
  | .pcnt => regsPCNT
  | .bist => regsBIST
  | .inj => regsINJ
  | .acq => regsACQ
  | .tdig => regsTDIG
  | .fdc => regsFDC
  | .mbus => regsMBUS
  | .reck => regsRECK
  | .rod => regsROD
  | .loop => regsLOOP
  | .glk => regsGLK
  | .prot => regsPROT

/-- The register at a page and offset; `none` at a reserved offset (R8). -/
def regAt (p off : Nat) : Option Reg :=
  if off < 0x040 then
    if (pageRow p).isSome then regsHdr.find? (·.hit off) else none
  else
    match pageType p with
    | some t => (blockRegs t).find? (·.hit off)
    | none => none

/-- Word index in board space: byte address of the word. -/
def bkey (p off : Nat) : Nat := p * 4096 + off

/-- The reset value of a word of board space (R7): the register tables' value; the values that
depend on the instance (ROD_MAP[n] = n × 0x0100_0000 of R83's table, RECK.STATUS.PHYS, TRIG and
DRIVES under R215); 0 for table words, whose reset the regions' own tables give as 0. -/
def resetWord (k : Nat) : Word :=
  let p := k / 4096
  let off := k % 4096
  if p = 0x009 ∧ 0x040 ≤ off ∧ off < 0x0A0 then wordOf ((off - 0x040) / 4 * 0x01000000)
  else if 0x0C0 ≤ p ∧ p < 0x0E0 ∧ off = RECK.STATUS then
    wordOf (1 + (p - 0x0C0) * 0x08000000)
  else if 0x0C0 ≤ p ∧ p < 0x0D8 ∧ off = RECK.TRIG 0 then
    wordOf (0x10000000 + (p - 0x0C0))
  else if 0x0C0 ≤ p ∧ p < 0x0D8 ∧ off = RECK.DRIVES then wordOf (2 ^ (p - 0x0C0))
  else
    match regAt p off with
    | some r => wordOf r.reset
    | none => 0

/-- Page numbers of the single-instance pages. -/
abbrev pSYS : Nat := 0x000
abbrev pLIFE : Nat := 0x001
abbrev pPROF : Nat := 0x002
abbrev pSUP : Nat := 0x003
abbrev pCLK : Nat := 0x004
abbrev pAON : Nat := 0x005
abbrev pREST : Nat := 0x006
abbrev pBEAM : Nat := 0x008
abbrev pFRAME : Nat := 0x009
abbrev pSAFE : Nat := 0x010
abbrev pSPAIR : Nat := 0x011
abbrev pAPC : Nat := 0x012
abbrev pDBG : Nat := 0x013
abbrev pGATE : Nat := 0x018
abbrev pKEYS : Nat := 0x019
abbrev pTALLY : Nat := 0x01A
abbrev pFABR : Nat := 0x024
abbrev pDISC : Nat := 0x025
abbrev pBEADS : Nat := 0x028
abbrev pCEA : Nat := 0x029
abbrev pEIS : Nat := 0x02A
abbrev pTHERM : Nat := 0x030
abbrev pSTEPC : Nat := 0x031
abbrev pBIST : Nat := 0x070
abbrev pINJ : Nat := 0x071

/-- Page numbers of the pages with several instances. -/
abbrev pNVME (i : Nat) : Nat := 0x01B + i
abbrev pETH (i : Nat) : Nat := 0x01D + i
abbrev pFAB (l : Nat) : Nat := 0x020 + l
abbrev pSTEP (n : Nat) : Nat := 0x040 + n
abbrev pPCNT (n : Nat) : Nat := 0x060 + n
abbrev pACQ (k : Nat) : Nat := 0x080 + k
abbrev pTDIG (k : Nat) : Nat := 0x084 + k
abbrev pFDC (k : Nat) : Nat := 0x088 + k
abbrev pMBUS (m : Nat) : Nat := 0x0A0 + m
abbrev pRECK (r : Nat) : Nat := 0x0C0 + r
abbrev pROD (n : Nat) : Nat := 0x100 + n
abbrev pLOOP (n : Nat) : Nat := 0x120 + n
abbrev pGLK (n : Nat) : Nat := 0x140 + n
abbrev pPROT (n : Nat) : Nat := 0x160 + n

end Sys2Proof.Machine
end

