-- ==== Sys2Proof/Machine/Outputs.lean ====
section
/-! DEFINITION. What the block sends to the outside: answers to accesses, frames, messages and
pin changes, in the order in which they are sent. -/

namespace Sys2Proof.Machine

/-- A link control frame (R424). -/
inductive Lcf where
  | status (m : LinkStatus)
  | hello (h : Hello)
  | resyncReq (mask next : Nat)
  | resyncAck (mask : Nat) (freed : List Nat)
deriving DecidableEq, Repr

/-- One output of the block. -/
inductive Out where
  /-- The answer to an access (R56): code, number of words accepted, data read. -/
  | resp (w : Writer) (code : Code) (accepted : Nat) (data : List Word)
  /-- An access fault in a local processor (R33). -/
  | accessFault (w : Writer) (page off : Nat)
  /-- A router line asserted at its destination (R59): line, DST_KIND, DST_SEL. -/
  | eventLine (n kind sel : Nat)
  /-- A parcel on link 0 to 3 (R422), its CRC right or not; link 4: handed to this device itself. -/
  | parcel (l : Nat) (p : Parcel) (crcOk : Bool)
  /-- A link control frame (R424). -/
  | lcf (l : Nat) (f : Lcf)
  /-- A level at an output pin of the block, by the pin's name. -/
  | pin (name : String) (level : Bool)
  /-- A rod's command output at its field I/O (R154): contactor, precharge, discharge, breaker. -/
  | fio (rod : Nat) (name : String) (level : Bool)
  /-- Trip ordered sets on the links of a rod at one symbol boundary (R129): the positions that get
  TRIP_OFF and those that get TRIP_HOLD. -/
  | tripSets (rod : Nat) (off hold : List Nat)
  /-- A downlink frame on a gate link (R119): the bytes from its header to its CRC, between SOF and EOF. -/
  | glFrame (link : Nat) (bytes : List Nat)
  /-- ABORT on a gate link (R120, R129): the frame in progress ends, and those behind it do not leave. -/
  | glAbort (link : Nat)
  /-- The phase test sources of a rod (R160): sourcing and sinking phase, or none. -/
  | testSource (rod : Nat) (src : Option (Nat × Nat))
  /-- A frame sent on a module bus (R327, R334). -/
  | canFrame (seg : Nat) (f : CanFrame)
  /-- The four outputs of a stepper channel (R379 to R381): 0 released, 1 all low, 2 driven. -/
  | stepOut (n mode : Nat)
  /-- A safe message sent as UDP payload on an Ethernet port (R406): port, UDP port, bytes. -/
  | udp (k port : Nat) (data : List Nat)
  /-- A session message sent to the client of a session (R451), as plaintext of one record. -/
  | sessMsg (n : Nat) (data : List Nat)
  /-- A session's connection is closed, with the TLS alert sent, if any (R450, R460). -/
  | sessClose (n : Nat) (alert : Option Nat)
  /-- A connection that is not taken (R450): the fatal alert internal_error, or a TCP reset. -/
  | connRefused (k : Nat) (alert : Bool)
  /-- The first record of a connection passed to firmware under a handle (R450). -/
  | handshake (k handle : Nat)
  /-- Bytes of the transmit ring sent on a port (R449). -/
  | ethTx (k : Nat) (data : List Nat)
  /-- A hart of the APC leaves its boot hold at an address (R508). -/
  | hartStart (hart addr : Nat)
  /-- A split core (0 SPC-A, 1 SPC-B) leaves reset at its ENTRY record's address (R545, R549). -/
  | splitStart (core addr : Nat)
  /-- An interrupt becomes pending at a hart of the APC (R498), by its bit of mip: 3 software, 7 timer, 11 machine
  external, 9 supervisor external. -/
  | hartIrq (hart code : Nat)
  /-- A namespace command sent to a drive (R472, R474): operation, and the size in 64 KiB blocks or the NSID. -/
  | nvmeNs (drive op arg : Nat)
  /-- An access fault that a memory error gives an APC hart (R496): hart, address. -/
  | memFault (hart addr : Nat)
  /-- What the TAP shifts out (R504, R505): the instruction's code and the data register's value. -/
  | tdo (code value : Nat)
  /-- A command of the PMBus host to a slot (R512): slot, command code, data byte if it has one. -/
  | pmbus (slot code : Nat) (data : Option Nat)
  /-- A reply of the resident loader (R551) to a session or to a device. -/
  | loaderReply (w : Writer) (data : List Nat)
deriving DecidableEq, Repr

end Sys2Proof.Machine
end

