-- ==== Sys2Proof/Machine/StateTypes.lean ====
section
/-! DEFINITION. The parts of the state that are not registers, one structure or inductive per
block of the manual, each plain data. -/

namespace Sys2Proof.Machine

/-- State of a power domain as PG_STAT.DOMAIN encodes it (R35, R55). -/
inductive DomSt where
  | active | draining | resting | waking
deriving DecidableEq, Repr

/-- A page lease (R47 to R50): owner, and the remaining time in ms of a session or remote
lease. -/
structure Lease where
  owner : Writer
  remain : Nat
deriving DecidableEq, Repr

/-- What a page holds beside its registers: the lease, the staged and the pending words (byte
address in board space, value), whether a commit waits for its apply point (R41 to R50), an
EN change that waits for the domain to reach ACTIVE (R53), and the beam tick in which its last lease
expired (R49). -/
structure PageX where
  lease : Option Lease := none
  staged : List (Nat × Word) := []
  pending : List (Nat × Word) := []
  applyPending : Bool := false
  enWait : Option Bool := none
  lapsed : Option Nat := none
deriving DecidableEq, Repr

/-- A beam step that waits for gates off (R80): to the parent's time, to an imported reference (the 1PPS or
PTP) with the shift it calls for, or a commissioning set with the time to set, in 1/256 ns. -/
inductive StepWait where
  | follower
  | reference (pps : Bool) (shift : Int)
  | commissioning (t : Nat)
deriving DecidableEq, Repr

/-- An access with WAKE that waits for a domain to wake (R54): writer, page and offset, the words of a write or
the count of a read, and the TAG of a board request (R436). -/
structure WaitAcc where
  w : Writer
  page : Nat
  off : Nat
  data : Option (List Word)
  count : Nat
  tag : Option Nat := none
deriving DecidableEq, Repr

/-- The beam (R63, R64) and what its rules remember: the time in units of 1/256 ns, the part of a
unit that the phase accumulator holds (in 10⁻¹² of a unit), the waiting step, the time of the last
step, the candidates heard, the runs of 1PPS edges of R76, whether the first valid 1PPS edge and the first
valid PTP time have been stepped to (R79), the offset from the parent (in 1/256 ns, unsaturated), the level of
BEAM_PPS_OUT, and the loss of SAMPLE_SYNC_IN (R89). -/
structure BeamX where
  t : Nat := 0
  rem : Nat := 0
  step : Option StepWait := none
  lastStep : Option Nat := none
  heard : List Tuple := []
  ppsGood : Nat := 0
  ppsBad : Nat := 0
  impPps : Bool := false
  impPtp : Bool := false
  offset : Int := 0
  /-- The last time message of each link: the master it names, hops, offset from its sender (R71, R74). -/
  msgs : List (Option (Nat × Nat × Int)) := [none, none, none, none]
  /-- The servo's integrator (R73), in 10⁻⁶ ppt. -/
  integ : Int := 0
  /-- Of a master that disciplines itself (R73): its settled correction in ppt, and the beam time of the last
  change of its correction. -/
  settled : Int := 0
  discAt : Nat := 0
  ppsOut : Bool := false
  syncLost : Bool := false
  /-- The latest boundaries that an edge of SAMPLE_SYNC_IN has replaced for sampling, with the time of that edge,
  newest first and at most eight, and the boundary up to which windows are judged missed (R89). -/
  syncEdges : List (Nat × Nat) := []
  syncFrom : Nat := 0
  /-- Beam steps made (R335). -/
  steps : Nat := 0
deriving DecidableEq, Repr

/-- A committed PERIOD and MID_EN of a running generator that has not loaded, and the beam time from which
it may (R86). -/
structure GenLoad where
  since : Nat
  period : Nat
  mid : Bool
deriving DecidableEq, Repr

/-- A boundary that a generator has marked: its beam time (1/256 ns), the period (1/16 tick) that began there and
whether that period has a mid frame. -/
structure GenBound where
  t : Nat
  period : Nat
  mid : Bool
deriving DecidableEq, Repr

/-- A carrier generator (R83 to R86): beam time of the next boundary (1/256 ns) and its number k, the
period (1/16 tick) and mid-frame choice in force, the loads that wait, oldest first, the latest boundaries since
the start or the last step, newest first and at most six, the boundaries marked in all, and whether a gang
mismatch keeps it stopped (R88). -/
structure GenX where
  next : Nat := 0
  k : Nat := 0
  period : Nat := 0
  mid : Bool := false
  loads : List GenLoad := []
  hist : List GenBound := []
  marks : Nat := 0
  gangStop : Bool := false
deriving DecidableEq, Repr

/-- A leg state of R93; `off`: all gates off. -/
inductive Leg where
  | off | p | o | n
deriving DecidableEq, Repr

/-- What one phase leg carries from segment to segment (R103 to R106, R616): its state after every
transition computed so far, nominal time and dead time of the last one (1/16 tick), whether
its first move was made under R106, and each gate on in
a pulse whose end is not computed: switch j, turn-on time, and whether it was judged short. -/
structure LegMem where
  st : Leg := .off
  lastT : Nat := 0
  lastDt : Nat := 0
  lastTag : Bool := false
  opened : List (Nat × Nat × Bool) := []
deriving DecidableEq, Repr

/-- The segment that begins at the next update point (R107): the update point (1/256 ns), whether it is
a mid frame, the regions of the three phases. -/
structure SegNext where
  u : Nat
  half : Bool
  regions : List Nat
deriving DecidableEq, Repr

/-- How far an accepted START has come (R158): the trip-path test, then the identity read, then the
CLEAR frames with their heartbeats. -/
inductive StartStage where
  | pathTest | idRead | clear
deriving DecidableEq, Repr

/-- A module position's life record parts that are not registers (R166 to R168): the temperature
rise of the junction (binary32), the last valid on-state voltage in mV, the residue of turning
points (1/16 °C, oldest first), the number of captures in the baseline, and their sums. -/
structure LifeX where
  dtj : Nat := 0
  vce : Nat := 0
  vceValid : Bool := false
  ntc : Int := 0
  residue : List Int := []
  lastExt : Int := 0
  baseCnt : Nat := 0
  sumA : Nat := 0
  sumB : Nat := 0
  sumC : Nat := 0
  /-- SIG_CUR holds a value of the record (R168). -/
  curOk : Bool := false
deriving DecidableEq, Repr

/-- What a rod holds beside its registers. -/
structure RodX where
  /-- The legs of phases a, b, c (R103). -/
  legs : List LegMem := [{}, {}, {}]
  /-- Update point of the latest cutoff, 1/256 ns (R108), and the segment that begins there. -/
  cutU : Option Nat := none
  segNext : Option SegNext := none
  /-- The trip path has fired since the rod last entered RUN (R129). -/
  tripped : Bool := false
  /-- TRIP_OFF on T2 and T3 is due 25 symbols after the first TRIP_OFF (R129). -/
  innerDue : Bool := false
  /-- Command outputs: contactor close, precharge, discharge, breaker close (R154). -/
  cont : Bool := false
  prech : Bool := false
  disch : Bool := false
  brk : Bool := false
  /-- Stage of an accepted START still in OFF (R158). -/
  start : Option StartStage := none
  /-- Vs₀ (R150), in codes. -/
  vs0 : Nat := 0
  /-- Beam time at which the discharge command turned on (R155), and of entry to DESCENT. -/
  disOn : Nat := 0
  descAt : Nat := 0
  /-- Descent factor at entry to DESCENT (R157), binary32. -/
  descDf0 : Nat := 0x3F800000
  /-- Consecutive period frames with the currents within DESC_IEND (R157). -/
  quietFrames : Nat := 0
  /-- Consecutive disagreements of the current sensors, per phase (R161). -/
  xchk : List Nat := [0, 0, 0]
  /-- Comparators fired and not re-armed, bit k (R140); asserted di/dt detectors, bit x (R142). -/
  fired : Nat := 0
  didt : Nat := 0
  /-- The apply point from which the filter time of each comparator counts (R140). -/
  cmpAt : List Nat := List.replicate 16 0
  /-- Blanking windows (R143): phase, stamped beam time of the edge, time of the close, in 1/16 tick. -/
  blanks : List (Nat × Nat × Nat) := []
  /-- Diagnostic step 1 to 4, and the averages found so far, three phases a step (R160). -/
  diagStep : Nat := 0
  diagV : List Int := []
  /-- Beam time at which the step began, and of each phase voltage the sum and number of the results in its last
  millisecond (R160). -/
  diagAt : Nat := 0
  diagSum : List (Int × Nat) := [(0, 0), (0, 0), (0, 0)]
  /-- Life record parts of the three positions. -/
  life : List LifeX := [{}, {}, {}]
  /-- Test sources of R160: phase that sources and phase that sinks. -/
  testSrc : Option (Nat × Nat) := none
  /-- The update point at which the modulator ends (R113), 1/256 ns. -/
  modEnd : Option Nat := none
  /-- Beam time of the last period frame (R166), and the generator and its boundary count of the last period
  frame and of the last mid frame (R84). -/
  lastFrame : Nat := 0
  frameN : Nat × Nat := (0, 0)
  midN : Nat × Nat := (0, 0)
  /-- The rod's own SPD demand that the next safety cycle takes (R156), and the beam time from which
  its descent is one under SPD. -/
  spd : Bool := false
  spdAt : Nat := 0
  /-- Attempts made of the register request in progress (R134). -/
  reqTries : Nat := 0
  /-- The identity read of a START (R164): the bytes of the positions read, and of the one in progress. -/
  idGot : List (List Nat) := []
  idCur : List Nat := []
  /-- Beam time of the entry to FAULT (R146). -/
  faultAt : Nat := 0
  /-- State before the latest change of state, and the beam time of the change (R247). -/
  prevSt : Nat := 0
  stAt : Nat := 0
  /-- Period frames since entry to DESCENT (R157), and those of them with the angle source LOST (R277). -/
  descFrames : Nat := 0
  lostFrames : Nat := 0
  /-- IREF_D at the start of the descent under SPD (R277). -/
  spdIref : Nat := 0
  /-- Entries to RUN (R247). -/
  runs : Nat := 0
deriving DecidableEq, Repr

/-- An edge-loss check of R128: SEQ of the frame, SEQs sent after it, heartbeats left, whether a
heartbeat since then showed DROP, and whether one has reported the frame's SEQ, or that of a later frame. -/
structure LossCheck where
  seq : Nat
  after : List Nat := []
  left : Nat := 2
  drop : Bool := false
  own : Bool := false
  later : Bool := false
deriving DecidableEq, Repr

/-- A frame on a downlink (R119, R120): its TYPE and the beam times of its first and after its last symbol. -/
structure GlTx where
  ty : Nat
  start : Nat
  stop : Nat
deriving DecidableEq, Repr

/-- What a gate link holds beside LSTAT (R119 to R135). -/
structure LinkX where
  /-- SEQ of the last EDGE or CANCEL frame sent (R119). -/
  seq : Nat := 0
  /-- Edges released to the link and not sent, and edges sent and not yet due: time in 1/16 tick,
  level (R125). -/
  queue : List (Nat × Bool) := []
  sent : List (Nat × Bool) := []
  /-- The frames on the downlink that have not ended, the types of the frames that wait behind edges or were aborted,
  and the payload of the last REQ (R120, R134). -/
  tx : List GlTx := []
  wait : List Nat := []
  req : List Nat := []
  /-- TAG of the last PING sent, none once it is aborted (R122), and the last TAG used. -/
  ping : Option Nat := none
  pingTag : Nat := 0
  /-- The last samples of 2 × D_down, newest first, at most 16, in 1/256 ns (R122). -/
  samples : List Int := []
  /-- Consecutive samples outside DLY_TOL of the mean (R124). -/
  outTol : Nat := 0
  /-- TIMEOK of the last three heartbeats, newest first (R124). -/
  timeoks : List Bool := []
  checks : List LossCheck := []
  /-- STAT of the last heartbeat that passed its CRC (R133). -/
  prevStat : Nat := 0
  /-- Consecutive heartbeats with low gate supplies (R144), saturating at 15. -/
  low : Nat := 0
  /-- Beam time of the last heartbeat that passed its CRC (R149). -/
  lastHb : Option Nat := none
  /-- A heartbeat since the last CLEAR frame has shown TRIPPED = 0 (R131). -/
  clearHb : Bool := false
  /-- Every heartbeat since the trip-path test began: it has shown TRIPPED = 1 and GATE = 0 (R413). -/
  testHb : Bool := false
  /-- Protocol version and capabilities read since TRAIN (R135). -/
  version : Option (Nat × Nat) := none
  /-- Consecutive heartbeats with GATE = 1 under the SGR block (R393). -/
  gateRun : Nat := 0
  /-- Beam time up to which an injection discards heartbeats (R569). -/
  deafTo : Nat := 0
deriving DecidableEq, Repr

/-- An urgent request (R182): INPUT, AVG as samples, SLOT, whether it is a protection request, and its arrival
(1/16 tick). -/
structure UrgReq where
  input : Nat
  avg : Nat
  slot : Nat
  prot : Bool
  t : Nat
deriving DecidableEq, Repr

/-- A conversion in progress (R177, R183): sampling instant (1/16 tick), slip, and the request or the
entry it serves; `last`: the last repetition of its entry (R185); `run`: its samples form a run 50 ns apart on one
input (R174); `live`: its sequencer has not been disabled since (R178). -/
structure Conv where
  t : Nat := 0
  slip : Bool := false
  urgent : Bool
  input : Nat
  avg : Nat
  slot : Nat
  mark : Bool := false
  last : Bool := false
  run : Bool := false
  live : Bool := true
deriving DecidableEq, Repr

/-- A trigger (R179 to R181): its source TRIG0 or TRIG1, its trigger instant, and the earliest sampling instant
that an edge of SAMPLE_SYNC_IN allows it, 0 without one (both in 1/16 tick). -/
structure TrigAt where
  src : Nat
  t : Nat
  least : Nat := 0
deriving DecidableEq, Repr

/-- A slice of a converter (R174): offset, gain and skew corrections (16-bit), reference
conversions. -/
structure SliceX where
  ofs : Nat := 0
  gain : Nat := 0
  skew : Nat := 0
  refs : Nat := 0
deriving DecidableEq, Repr

/-- What a converter and its sequencer hold (R172 to R182): the range in force and the position, the
repetitions done, the converter's free point and the sequencer's own (1/16 tick), the trigger taken, the pending
triggers (oldest first), the urgent queue, the conversion in progress, whether it naps and whether it is ready, the
beam times from which events of TRIG0 and TRIG1 count (1/256 ns), the input sampled last, and the slices. -/
structure ConvX where
  base : Nat := 0
  len : Nat := 0
  pos : Nat := 0
  repDone : Nat := 0
  free : Nat := 0
  seqFree : Nat := 0
  ref : Option TrigAt := none
  pend : List TrigAt := []
  urg : List UrgReq := []
  cur : Option Conv := none
  napping : Bool := false
  ready : Bool := false
  since0 : Nat := 0
  since1 : Nat := 0
  lastIn : Option Nat := none
  slices : List SliceX := [{}, {}, {}, {}]
deriving DecidableEq, Repr

/-- A capture record (R193), with its samples. -/
structure CapRec where
  seq : Nat := 0
  /-- Beam time of the edge, 1/256 ns. -/
  edge : Nat := 0
  trip : Bool := false
  withdrawn : Bool := false
  timed : Bool := false
  life : Bool := false
  rod : Nat := 0
  pos : Nat := 0
  level : Nat := 0
  input : Nat := 0
  dig : Nat := 0
  count : Nat := 0
  samples : List Int := []
  base : Int := 0
  f0 : Nat := 0
  f1 : Nat := 0
  f2 : Nat := 0
  fvalid : Nat := 0
  /-- The record is complete, its features extracted. -/
  done : Bool := false
deriving DecidableEq, Repr

/-- A transient digitizer (R188 to R194): matching edges counted since its last capture, the matching edges whose
windows have not begun (in time order) and the captures that run, each as the record it would make, and whether it
is ready or waking from its sleep. -/
structure DigX where
  count : Nat := 0
  waits : List CapRec := []
  caps : List CapRec := []
  ready : Bool := false
  waking : Bool := false
  /-- TD_CTL, TD_EVERY and TD_TIME_NS in force; a commit takes effect between captures (R189). -/
  ctl : Nat := 0
  every : Nat := 0
  timeNs : Nat := 0
  /-- Beam time from which a timed capture may start (R188). -/
  armedAt : Nat := 0
deriving DecidableEq, Repr

/-- A rod's monitor (R395 to R397): P_s while the rod is in RUN or DESCENT (binary32), SEQ and
stale cycles of its six slots, consecutive failing cycles of PLIM, RAMP and TORQUE, t_d, P₀ and ω₀ of an
SPD, and whether it latches. -/
structure MonX where
  ps : Option Nat := none
  seqs : List (Nat × Nat) := []
  fails : List Nat := [0, 0, 0]
  td : Nat := 0
  p0 : Nat := 0
  w0 : Nat := 0
  latching : Bool := false
deriving DecidableEq, Repr

/-- A connection of safe messages (R408, R409): SEQ and DEMAND of the last accepted copy, the copies that
wait for their twins, oldest first (true: from Ethernet), the beam time from which messages come singly,
and whether a copy has been accepted. -/
structure SafeConn where
  seq : Nat := 0
  demand : Nat := 0
  wait : List (Bool × List Nat) := []
  single : Option Nat := none
  heard : Bool := false
deriving DecidableEq, Repr

/-- What the safety functions hold beside the SAFE and SPAIR registers (R391 to R413). -/
structure SafeX where
  /-- Rods whose demand the next cycle applies: SGR, SPD; and those of a latching demand. -/
  pendSgr : Nat := 0
  pendSpd : Nat := 0
  pendLatch : Nat := 0
  /-- The first demand since the last reset has been recorded in CAUSE (R399). -/
  recorded : Bool := false
  /-- The AON counter at each rod's last passed trip-path test (R413). -/
  testTime : List (Option Nat) := List.replicate 24 none
  /-- Pairs in discrepancy; those of them whose inputs have been low together (R401). -/
  disc : Nat := 0
  discLow : Nat := 0
  /-- The SAFE_RST pulse is jammed (R403). -/
  jam : Bool := false
  /-- Consecutive readbacks of each SAFE_OUT that differ; outputs with a latched fault (R405). -/
  outFail : List Nat := [0, 0, 0, 0]
  outFault : Nat := 0
  /-- A boundary-scan instruction of R506 is in force. -/
  scan : Bool := false
  conns : List (Nat × SafeConn) := []
  mons : List (Nat × MonX) := []
  /-- DEMAND of the last message sent (R407). -/
  sentDemand : Nat := 0
  /-- Beam second of the last check of the parameters (R410). -/
  crcAt : Option Nat := none
  /-- First low sample of each input in REST (R402). -/
  restLow : List (Nat × Nat) := []
  /-- Boot has started the safety kernel on the pair (R545, R549). -/
  started : Bool := false
deriving DecidableEq, Repr

/-- What the device states hold beside the REST registers (R521 to R530): the state being entered
while an entry runs, the deepest state it has reached, and the state a wake goes up to. -/
structure RestX where
  entering : Nat := 0
  wakeTo : Nat := 0
  cause : Nat := 0
deriving DecidableEq, Repr

/-- A record the device posts to the tally store itself (R165, R482): class, type, body bytes, and
FLAGS DEV. -/
structure HwPost where
  cls : Nat
  ty : Nat
  body : List Nat
deriving DecidableEq, Repr

/-- What a spill engine that runs is to complete (R206 to R208): a CALL to a target, or a RET. -/
inductive SpillOp where
  | call (target : Nat)
  | ret
deriving DecidableEq, Repr

/-- A reckoner (R204 to R213) beside its page: w0 to w15 of columns c0 to c7 (word 16c + i), the
globals, the LINK words, the special registers, the column counts, the program counter, the pending
counts with the beam time of each source's latest event (1/256 ns), the mask of the WAITF it sleeps
in, a spill or fill in progress, and whether it has woken since the last WAITF. -/
structure ReckX where
  w : List Nat := List.replicate 128 0
  g : List Nat := List.replicate 8 0
  link : List Nat := List.replicate 8 0
  flags : Nat := 0
  ctrl : Nat := 0
  tpc : Nat := 0
  tcause : Nat := 0
  tcol : Nat := 0
  tvec : Nat := 0
  tinfo : Nat := 0
  tns : Nat := 0
  tsec : Nat := 0
  ccp : Nat := 0
  occ : Nat := 1
  cdep : Nat := 0
  pc : Nat := 0
  pend : List Nat := [0, 0, 0, 0]
  pendT : List Nat := [0, 0, 0, 0]
  mask : Nat := 0
  spill : Option SpillOp := none
  woke : Bool := false
deriving DecidableEq, Repr

/-- What a loop run takes at its start (R244, R249): arrival of the pass mark, sampling instant and
sample frame (1/256 ns), codes of the currents, voltages and half links, the IREF pair, the angle
set (THETA, THETA_NS, OMEGA), and the rod state at the sampling instant. -/
structure LoopIn where
  t0 : Nat
  ts : Nat
  tf : Nat
  i : List Int
  v : List Int
  vup : Int
  vlo : Int
  pair : Nat × Nat
  set : Nat × Nat × Nat
  st : Nat
deriving DecidableEq, Repr

/-- What a loop in machine mode remembers (R266 to R277): the tracked count, the latches of the latest
frames (count, speed, beam time of the frame), newest first and at most four, errors of the counter seen, slip angle, open-loop angle and
its start, observer flux and integrator, run counts, offset values collected, and the averaged speed. -/
structure MachX where
  cPrev : Option Nat := none
  lats : List (Nat × Nat × Nat) := []
  errSeen : Nat := 0
  thSl : Nat := 0
  thOpen : Nat := 0
  openAt : Nat := 0
  psiA : Nat := 0
  psiB : Nat := 0
  xObs : Nat := 0
  okRuns : Nat := 0
  failRuns : Nat := 0
  wFail : Nat := 0
  ho : List Nat := []
  wAvg : Nat := 0
deriving DecidableEq, Repr

/-- An inner loop beside LOOP[n] (R244 to R254): staged and available references and angle set, the
age of the angle set in period frames, the arrival times of pass marks not taken yet (1/256 ns), the run in
progress, the previous run's sampling instant, the rod's entries to RUN at the last run in RUN or DESCENT, whether
the last run was limited, the sample frame of the set it armed last, its
output and θ_out. -/
structure LoopX where
  irefD : Nat := 0
  pair : Nat × Nat := (0, 0)
  thNs : Nat := 0
  om : Nat := 0
  set : Nat × Nat × Nat := (0, 0, 0)
  age : Nat := 0
  marks : List Nat := []
  run : Option LoopIn := none
  prevTs : Option Nat := none
  ranIn : Nat := 0
  limited : Bool := false
  setTf : Option Nat := none
  uD : Nat := 0
  uQ : Nat := 0
  thOut : Nat := 0
  mach : MachX := {}
deriving DecidableEq, Repr

/-- The VSM kernel of a reckoner (R255 to R262): whether its image was copied into the memories,
whether IRAM still holds all of it, whether the program that runs is the kernel; then the kernel's own
data: state, wakes counted toward KDIV, the parameter set in use, the PG_GEN last seen, θ, ω_v, E, the
PLL's angle, speed and integrator, the frame from which the SYNC condition has held, PARAM_BAD, NO_SYNC,
and the power of the unlimited reference while the limit acts. -/
structure VsmX where
  rom : Bool := false
  whole : Bool := false
  runs : Bool := false
  st : Nat := 0
  wakes : Nat := 0
  pars : Option (List Nat) := none
  genSeen : Option Nat := none
  theta : Nat := 0
  omV : Nat := 0x3F800000
  e : Nat := 0
  thPll : Nat := 0
  omPll : Nat := 0x3F800000
  xPll : Nat := 0
  okSince : Option Nat := none
  bad : Bool := false
  noSync : Bool := false
  limPu : Option Nat := none
deriving DecidableEq, Repr

/-- What a pulse counter remembers beside its page (R382 to R386): the observer's position
(1/2³² count), the beam time of the last edge and its direction (true: up), the count of errors
reported, and whether it missed the edges of a rest. -/
structure PcntX where
  pos : Nat := 0
  lastEdge : Option Nat := none
  lastUp : Option Bool := none
  errs : Nat := 0
  rested : Bool := false
deriving DecidableEq, Repr

/-- A temperature sensor (R361 to R367): whether it has given a sample, last valid temperature
(1/16 °C), sum and number of the samples of the second, means of the last seconds (sum, number),
newest first, rate in 1/16 K/min as a fraction, BROKEN, WARN, RATE_WARN, cause of its trip (true:
RATE), whether a module sensor's trip is latched, and RS. -/
structure SensX where
  seen : Bool := false
  t : Int := 0
  sum : Int := 0
  n : Nat := 0
  means : List (Option (Int × Nat)) := []
  rate : Option (Int × Nat) := none
  broken : Bool := false
  warn : Bool := false
  rwarn : Bool := false
  cause : Bool := false
  trip : Bool := false
  rs : Nat := 0
deriving DecidableEq, Repr

/-- The outputs of a stepper channel. -/
inductive StepOut where
  | released | shorted | driven
deriving DecidableEq, Repr

/-- A stepper channel beside STEP[n] (R374 to R381): position in 1/(2 × 10¹²) unit and velocity in
10⁻⁶ unit per second, the electrical angle and the set-point in force, travel of a HOME, beam time from
which it has been at rest, outputs, whether a move or a stop runs. -/
structure StepX where
  x : Int := 0
  v : Int := 0
  phi : Nat := 0
  iSet : Nat := 0
  iA : Int := 0
  iB : Int := 0
  travel : Nat := 0
  restAt : Nat := 0
  outs : StepOut := .released
deriving DecidableEq, Repr

/-- A RENEW that waits for its ACK (R291): RSEQ, NEW, REL, the home it was first sent to (true: the
secondary) and the sends repeated since. -/
structure RenewOut where
  rseq : Nat
  new : Bool
  rel : PQ
  alt : Bool
  tries : Nat := 0
deriving DecidableEq, Repr

/-- What a device's bead lease holds beside the registers (R289 to R298): the release due at the next
renewal, the outstanding RENEW, the next RSEQ, the last HEPOCH accepted, the amount placed, the beam
time at which a restoring placement was at 0, and the AON agent with the lapses it recorded. -/
structure BeadX where
  rel : PQ := {}
  out : Option RenewOut := none
  next : Nat := 1
  epoch : Nat := 0
  basis : PQ := {}
  restore : Option Int := none
  agent : Bool := false
  agentLapses : Nat := 0
deriving DecidableEq, Repr

/-- What a home does when a step commits (R283): answer a device, end a home command, or give notice of
a reclaimed lease. -/
inductive HomeAct where
  | ack (dst : Nat) (m : BeadAck)
  | done
  | reclaimed (dst : Nat) (amt : PQ)
  | thawed
deriving DecidableEq, Repr

/-- A bead home (R282 to R296): the committed ledger, the ledger with every applied step, the steps
that wait for REPL_ACK with what follows their commit, the targets, whether a copy must come first,
the LSEQ and digest last sent and those that wait for a step, a RECONCILE that waits for the
peer's ledger, the steps sent that the peer has not acknowledged (R283), and whether the home was the acting one
when it took the role LOST (R284). -/
structure HomeX where
  com : Ledger := {}
  work : Ledger := {}
  pend : List (Nat × Ledger × List HomeAct) := []
  targets : List (Nat × PQ) := []
  needCopy : Bool := false
  digSent : Option (Nat × Nat) := none
  digWait : Option (Nat × Nat) := none
  recon : Bool := false
  sent : List (Nat × LedgerStep) := []
  acted : Bool := false
deriving DecidableEq, Repr

/-- A received frame in a queue (R325): beam time of its SOF in ns, and the filter. -/
structure RxFrame where
  f : CanFrame
  t : Nat
  filt : Nat
deriving DecidableEq, Repr

/-- A module-protocol message being received (R339, R340): sender, class, operation, LEN, next FSEQ, SOF
of the first frame, bytes, and whether the rest of a too long one is discarded. -/
structure OpenMsg where
  addr : Nat
  cls : Nat
  opc : Nat
  len : Nat
  next : Nat
  t : Nat
  data : List Nat
  skip : Bool := false
deriving DecidableEq, Repr

/-- A complete message that waits for its consumer (R341). -/
structure MbMsg where
  addr : Nat
  cls : Nat
  opc : Nat
  t : Nat
  data : List Nat
deriving DecidableEq, Repr

/-- An outstanding challenge (R353): address, IDENT or LIFE, nonce, challenges sent. -/
structure Chal where
  addr : Nat
  life : Bool
  nonce : List Nat
  tries : Nat := 1
deriving DecidableEq, Repr

/-- A baseline of R357: LSEQ, the module's counters, the rod's at that moment. -/
structure LifeBase where
  lseq : Nat
  mIn : Nat
  mOut : Nat
  rIn : Nat
  rOut : Nat
deriving DecidableEq, Repr

/-- What the MPE keeps of an address (R345 to R357): verified key, TEMP_MAP, alarm numbers seen, life
baseline, and the nonce and KEY_ID of the last verified identity. -/
structure ModX where
  key : List Nat := []
  tempMap : List Nat := []
  aseqs : List Nat := []
  base : Option LifeBase := none
  last : Option (List Nat × List Nat) := none
deriving DecidableEq, Repr

/-- What a controller offers to the bus: the TIME_REF or an acknowledgement of the slot, or the head of
the FIFO. -/
inductive TxSrc where
  | ref
  | ack (i : Nat)
  | head
deriving DecidableEq, Repr

/-- A CAN FD controller and its part of the MPE (R320 to R357) beside MBUS[n]: queues, FIFO, frames of
the engine that wait for space, slot, what is offered, a commanded abort, error counters, permission to
recover and the recovery sequence seen, candidate and BRS of the last good frames in detection, entry to SLEEPING, the watch
settings copied to the AON island, a wake that waits for its die, open and complete messages,
addresses, challenges, and the count of beam steps at enable. -/
structure MbX where
  q0 : List RxFrame := []
  q1 : List RxFrame := []
  fifo : List CanFrame := []
  wait : List CanFrame := []
  slotRef : Bool := false
  acks : List CanFrame := []
  offer : Option TxSrc := none
  abort : Bool := false
  tec : Nat := 0
  rec_ : Nat := 0
  boOk : Bool := false
  boSeq : Bool := false
  cand : Nat := 0
  good : List Bool := []
  sleepAt : Nat := 0
  watch : Option (Bool × Nat × Nat) := none
  wakePend : Bool := false
  open_ : List OpenMsg := []
  done : List MbMsg := []
  mods : List (Nat × ModX) := []
  chals : List Chal := []
  steps0 : Nat := 0
deriving DecidableEq, Repr

/-- A cell of the estimator (R301 to R309): whether it has had its first update, its 26 model states,
θ_Q, θ_R and i_sh, the covariance's upper triangle (binary32), consecutive rounds of high innovation,
rounds left of INIT and of DIVERGED, stale rounds, exclusions, rounds above and below ISH_WARN, and
the output record's fields. -/
structure CellX where
  started : Bool := false
  model : List Nat := []
  thQ : Nat := 0
  thR : Nat := 0
  iSh : Nat := 0
  cov : List Nat := []
  nis : Nat := 0
  init : Nat := 0
  diverged : Nat := 0
  stale : Nat := 0
  excluded : Bool := false
  cmdExcl : Bool := false
  up : Nat := 0
  down : Nat := 0
  short : Bool := false
  rec_ : List Nat := List.replicate 16 0
  /-- The high-frequency resistance of the last impedance run, in mΩ, until a round takes it (R316). -/
  hfr : Option Nat := none
deriving DecidableEq, Repr

/-- The latest report of a module that reached the estimator (R345): sample instant in ns, cell
voltages, balancing currents in mA, temperature of each cell in 1/16 °C where it has one. -/
structure ModRep where
  t : Nat
  volts : List Nat
  bal : List Nat
  temps : List (Option Int)
deriving DecidableEq, Repr

/-- The tally of a rod (R311): time of the last slot write, the accumulators in 2⁻³² of their units,
and the charge (2⁻³² µC, signed) and time since the last round's start. -/
structure TallyX where
  last : Option Nat := none
  chgIn : Nat := 0
  chgOut : Nat := 0
  energy : Nat := 0
  winQ : Int := 0
  winT : Nat := 0
  /-- The slot's writes since the start of the last round's window, newest first: beam time and current (R302). -/
  hist : List (Nat × Nat) := []
deriving DecidableEq, Repr

/-- A cell command that waits for the next round (R309): cell, 0 LOAD, 1 RESET, 2 EXCLUDE, 3 INCLUDE,
and CELL_INIT at the write. -/
structure CellCmd where
  cell : Nat
  op : Nat
  soc : Nat
  cap : Nat
  res : Nat
deriving DecidableEq, Repr

/-- The estimator's rounds (R309, R310): start of the running round and of the one before, in 1/256 ns,
rounds started, commands that wait. -/
structure CeaX where
  running : Option Nat := none
  prev : Nat := 0
  from_ : Nat := 0
  rounds : Nat := 0
  cmds : List CellCmd := []
  /-- Charge and time of each rod in the running round's window. -/
  winQ : List Int := []
  winT : List Nat := []
  /-- Whole beam periods at which a round has fallen due, and whether the device has been in REST since the last
  round's start (R310). -/
  due : Nat := 0
  rested : Bool := false
deriving DecidableEq, Repr

/-- An impedance run of a rod (R313 to R316): the beam time from which the rod has been idle, why it last
stopped being idle (an abort code), whether it injects, and whether an ended injection waits for the
next loop run; due, run number, injection start in ns, modules that have
acknowledged, amplitude of the sum of sines to scale by, sums of the current's components per tone
(binary32), time of the last slot write, cells' voltages received (cell, words). -/
structure EisX where
  idleSince : Option Nat := none
  why : Nat := 0
  inj : Bool := false
  off : Bool := false
  due : Bool := false
  run : Nat := 0
  t0 : Nat := 0
  acks : List Nat := []
  peak : Nat := 0
  re : List Nat := []
  im : List Nat := []
  lastI : Option Nat := none
  volts : List (Nat × List Nat) := []
  /-- A result record that waits for room in the ring. -/
  record : List Nat := []
deriving DecidableEq, Repr

/-- A parcel in a receive buffer or in the local queue (R426, R428, R439): the links it must still leave by,
those of them by which it enters a ring, whether a local consumer is still to take it, and whether its
route is still to be chosen. -/
structure FabEntry where
  p : Parcel
  outs : List Nat := []
  enter : List Nat := []
  wait : Bool := false
  fresh : Bool := false
deriving DecidableEq, Repr

/-- A fabric link beside FAB[l] (R417 to R428): last HELLO heard, SEEN, the wait of R421 over, beam times of
entries to HOLD, numbering and replay, FREED and LAST, resynchronisation under way and the peer's that waits,
receive buffer, staging toward this link, the turn of R428, the source served last on each VC, number of the
last TIME sent, and SEQ and arrival of the last TIME received. -/
structure FabX where
  hello : Option Hello := none
  seen : Bool := false
  waited : Bool := false
  holds : List Nat := []
  txNext : Nat := 0
  unacked : List Parcel := []
  replays : Nat := 0
  rxNext : Nat := 0
  nak : Bool := false
  freed : List Nat := [0, 0, 0, 0]
  last : List Nat := [0, 0, 0, 0]
  resync : Nat := 0
  req : Option (Nat × Nat) := none
  rx : List FabEntry := []
  stg : List Parcel := []
  turn : Nat := 0
  served : List Nat := [0, 0, 0, 0]
  timeSeq : Nat := 0
  timeRx : Nat × Nat := (0, 0)
  timeTx : List (Nat × Nat) := []
deriving DecidableEq, Repr

/-- An outstanding request of the transaction engine (R437): TAG, descriptor index, DST, COUNT, WR, WAKE,
buffer. -/
structure Txn where
  tag : Nat
  idx : Nat
  dst : Nat
  count : Nat
  wr : Bool
  wake : Bool
  buf : Nat
deriving DecidableEq, Repr

/-- What DISC keeps of a device (R440, R448): BOOT, MS, LOCK and LINKS of its last ANNOUNCE, and the beam time
of its arrival. -/
structure DiscX where
  boot : Nat
  ms : Nat
  lock : Nat
  links : Nat
  t : Nat
deriving DecidableEq, Repr

/-- The router, discovery and the transaction engine: local queue, parcels from this device to itself, the
next FSEQ of each KIND, the last FSEQ accepted of each source and KIND (key 64·SRC + KIND) with its time,
outstanding requests, last TAG, devices heard. -/
structure RouterX where
  inj : List FabEntry := []
  loop : List Parcel := []
  fseq : List (Nat × Nat) := []
  heard : List (Nat × Nat × Nat) := []
  txns : List Txn := []
  tag : Nat := 0
  disc : List (Nat × DiscX) := []
deriving DecidableEq, Repr

/-- A command that the crypto engine runs (R467): OP, TYPE, SLOT, input, length, output. -/
structure KeyCmd where
  op : Nat
  ty : Nat
  slot : Nat
  inp : Nat
  len : Nat
  out : Nat
deriving DecidableEq, Repr

/-- The key store (R466): slots in use (number, type, key bytes), and the engine's command. -/
structure KeysX where
  slots : List (Nat × Nat × List Nat) := []
  cmd : Option KeyCmd := none
deriving DecidableEq, Repr

/-- A request that has passed the gate (R459): MTYPE, WAKE, CHAN, TAG, PAGE, OFFSET, COUNT, data; `mute`: its
session has closed since, and its response is discarded. -/
structure SessReq where
  ty : Nat
  wake : Bool
  chan : Nat
  tag : Nat
  page : Nat
  off : Nat
  count : Nat
  data : List Nat
  mute : Bool := false
deriving DecidableEq, Repr

/-- A tunnel channel of an entry session (R463): number, target device, open or waiting for the answer,
target session, TAG of the OPEN_TUNNEL. -/
structure ChanX where
  c : Nat
  dst : Nat
  up : Bool
  tsess : Nat
  tag : Nat
deriving DecidableEq, Repr

/-- A session slot (R450 to R464): open, kind, entry device, channel, connection handle or entry session,
bucket, NO_PAGE answers, last close reason, traffic keys and IVs, records that wait for new keys, tunnel channels,
decrypted messages that wait for the gate, requests past the gate, TAGs of SERVICE requests without a reply. -/
structure SessX where
  isOpen : Bool := false
  kind : Nat := 0
  entry : Nat := 0
  chan : Nat := 0
  ref : Nat := 0
  bucket : Nat := 0
  nopage : Nat := 0
  reason : Nat := 0
  keys : List Nat := []
  rekey : Bool := false
  chans : List ChanX := []
  inq : List (List Nat) := []
  passed : List SessReq := []
  svc : List Nat := []
deriving DecidableEq, Repr

/-- A tunnel request that waits for firmware (R463). -/
structure TunReq where
  src : Nat
  chan : Nat
  esess : Nat
  id : List Nat
deriving DecidableEq, Repr

/-- A part of a message that waits for its partner (R464): sender, ESESS, CHAN, TSESS, TAG, whether a response,
whether the second part, bytes. -/
structure Frag where
  src : Nat
  esess : Nat
  chan : Nat
  tsess : Nat
  tag : Nat
  rsp : Bool
  second : Bool
  data : List Nat
deriving DecidableEq, Repr

/-- The gate (R463, R464): tunnel requests and message parts that wait. -/
structure GateX where
  reqs : List TunReq := []
  frags : List Frag := []
deriving DecidableEq, Repr

/-- A plant Ethernet port (R449, R450, R461): handles of the connections in handshake, frames held in REST. -/
structure EthX where
  hs : List Nat := []
  held : List (List Nat) := []
deriving DecidableEq, Repr

/-- A class of the tally store (R477, R480): next RSEQ, durable RSEQ plus 1, whether a block is open, its
BSEQ, its bytes so far, its store block (`none` once taken), the hash of the closed block before, and the
closed and open blocks held (BSEQ, store block). -/
structure ClsX where
  next : Nat := 0
  dur : Nat := 0
  live : Bool := false
  bseq : Nat := 0
  bytes : List Nat := []
  idx : Option Nat := none
  prev : List Nat := List.replicate 32 0
  held : List (Nat × Nat) := []
deriving DecidableEq, Repr

/-- The store's state as a commit word gives it (R477, R478, R483): classes, first block above the protected
area, ring blocks in use oldest first, first ring block never used, RSEQ of the last SEAL. -/
structure CoreX where
  cls : List ClsX := [{}, {}, {}, {}, {}, {}]
  pEnd : Nat := 3
  used : List Nat := []
  fresh : Nat := 3
  lastSeal : Option Nat := none
deriving DecidableEq, Repr

/-- A label (R477). -/
structure LabelX where
  storeId : List Nat
  sysId : Nat
  addr : Nat
  key : List Nat
  total : Nat
  ringMin : Nat
deriving DecidableEq, Repr

/-- A record of the store that is not durable yet or not acknowledged by the peer (R489): class, RSEQ, bytes. -/
structure TRec where
  c : Nat
  rseq : Nat
  data : List Nat
deriving DecidableEq, Repr

/-- A record being reassembled from its parcels (R489): source, class, ORIG_RSEQ, parts (FRAG, NFRAG, OFFSET, data). -/
structure ReplIn where
  src : Nat
  c : Nat
  orig : Nat
  nfrag : Nat
  parts : List (Nat × Nat × List Nat)
deriving DecidableEq, Repr

/-- The tally store and its drives' contents (R472 to R489): label, blocks by store block number, state and that
of the last commit word with its clean mark, the flush round in progress, whether another follows it, whether
T of the last durable record, records not yet durable, records not acknowledged, parts received, copies
stored for others (source, class, ORIG_RSEQ, own RSEQ), and acknowledgements that wait to be durable. -/
structure StoreX where
  label : Option LabelX := none
  disk : List (Nat × List Nat) := []
  core : CoreX := {}
  com : CoreX := {}
  clean : Bool := true
  round : Option CoreX := none
  again : Bool := false
  lastT : Nat := 0
  wait : List TRec := []
  repl : List TRec := []
  parts : List ReplIn := []
  copies : List (Nat × Nat × Nat × Nat) := []
  acks : List (Nat × Nat × Nat × Nat) := []
  /-- Namespace operation in progress on each drive. -/
  nsOp : List Nat := [0, 0]
deriving DecidableEq, Repr

/-- The processors (R496 to R500): MTIME in units of 2.5 ns, the part of a millisecond that the watchdog has
counted in the same unit, the harts released from their boot hold, those in WFI, and poisoned lines of LPDDR5. -/
structure ProcX where
  mt : Nat := 0
  wdtSub : Nat := 0
  released : Nat := 1
  wfi : Nat := 0
  poison : List Nat := []
deriving DecidableEq, Repr

/-- A power-up sequence (R511, R530): its slots, the slot whose PG it waits for, retries made, whether it waits
the 100 ms after a failure, and whether it serves one slot alone (R513). -/
structure SeqX where
  slots : List Nat
  cur : Nat
  tries : Nat := 0
  failed : Bool := false
  alone : Bool := false
deriving DecidableEq, Repr

/-- The supply manager (R510 to R517): the sequence that runs, slots whose PMBus revision is too old, the
part of BAK_CHG below 1 mC in µC, consecutive rounds of each monitor outside (positive) or inside (negative) its
limits, whether VAUX is at or above 19 V with the return timer running, domains (by index) held in reset for want of
supply, the part of a period of the 32.768 kHz crystal that has passed, in 1/390,625 (R533), and slots whose loss
waits for the sequence in progress (R513). -/
structure SupX where
  seq : Option SeqX := none
  old : Nat := 0
  chg : Nat := 0
  mon : List Int := List.replicate 48 0
  ret : Bool := false
  held : List Nat := []
  aonSub : Nat := 0
  lost : List Nat := []
deriving DecidableEq, Repr

/-- What the memory self-test keeps of a memory (R565): failing words, spare rows used, address and bit of the last
failure, whether a failure is unrepaired. -/
structure MemInfo where
  words : Nat := 0
  rows : Nat := 0
  addr : Option Nat := none
  bit : Nat := 0
  unrep : Bool := false
deriving DecidableEq, Repr

/-- A rotation slot or a direct test in progress (R561, R568): core tested, its logical reckoner, tested in place
or after a migration. -/
structure SlotX where
  core : Nat
  logical : Option Nat
  inPlace : Bool
deriving DecidableEq, Repr

/-- The self-test (R559 to R568): the slot in progress, consecutive skips of the next core, reckoners whose start
waits for the end of a test in place, reckoners due the fatal fault LBIST, memories' records, fuse rows used per
memory, consecutive misses of each converter, beam time of the last write of each die's DACs, the direct test in
progress (OP, ARG), good cores found at boot, MTIME units of each core's last pass, whether the spare is untested. -/
structure BistX where
  slot : Option SlotX := none
  skips : Nat := 0
  last : Nat := 31
  starts : List Nat := []
  fatals : List Nat := []
  info : List (Nat × MemInfo) := []
  fuses : List (Nat × Nat) := []
  miss : List (Nat × Nat) := []
  dacAt : List (Nat × Nat) := []
  dte : Option (Nat × Nat) := none
  cores : Nat := 32
  passAt : List Nat := List.replicate 32 0
  spareTest : Bool := false
deriving DecidableEq, Repr

/-- The configuration flash engine and the boot (R538 to R552): the CF operation that runs (OP, address, length,
source), whether boot is due, deferred reckoner enables, GEN applied, whether HALT or loader mode holds the rods and
the outputs, regions (by start) that an interrupted operation has left unknown, start addresses of APC hart 0, SPC-A
and SPC-B. -/
structure BootX where
  op : Option (Nat × Nat × Nat × Nat) := none
  due : Bool := true
  defer : List Nat := []
  gen : Nat := 0
  low : Bool := false
  spoiled : List Nat := []
  entry : Nat := 0
  entryA : Option Nat := none
  entryB : Option Nat := none
  /-- TEST_EN is high (R590). -/
  testEn : Bool := false
deriving DecidableEq, Repr

end Sys2Proof.Machine
end

