-- ==== Sys2Proof/Machine/State.lean ====
section
/-! DEFINITION. The state of the LAV2410: every register of board space in one sparse board, the
parts of each block that are not registers, the outputs sent, and the queue of waiting
commands. -/

namespace Sys2Proof.Machine

/-- Why a command stops with a fault.  No command of this block has a rule that stops the device:
refusals, bus faults and error flags are effects on the state. -/
inductive Fault where
  /-- Raised by no meaning of this model.  Safe: a stop only hides behaviour. -/
  | none
deriving DecidableEq, Repr

/-- Why a command is refused by the model. -/
inductive Refusal where
  /-- Raised only by an arm of `exec` for a command that has no meaning yet.  Safe. -/
  | notModelled (mnemonic : String)
deriving DecidableEq, Repr

/-- The state of the LAV2410: every register, buffer, counter, mode and pin of the manual, as plain data. -/
structure State where
  /-- Every register and table word of board space, by page × 4096 + offset (R30, R61, R62): the words that
  differ from their reset value. -/
  board : List (Nat × Word)
  /-- Leases, staged and pending words, waiting enables of the register pages (R41 to R53). -/
  pages : List (Nat × PageX)
  /-- The shadow of each wide register, by the key of its high word (R30). -/
  shadows : List (Nat × Option Word)
  /-- Accesses that wait for their domain (R54). -/
  waits : List WaitAcc
  /-- States of the power domains by index (R53); unlisted: ACTIVE. -/
  doms : List (Nat × DomSt)
  /-- The beam clock, its servo, master and parent, references and steps (R63 to R82). -/
  beam : BeamX
  /-- The carrier generators (R83 to R88). -/
  gens : List (Nat × GenX)
  /-- The rods: modulation, power stage, sequencing (R91 to R170). -/
  rods : List (Nat × RodX)
  /-- The gate links (R116 to R139). -/
  links : List (Nat × LinkX)
  /-- The safety functions (R391 to R413). -/
  safe : SafeX
  /-- The converters and their sequencers (R171 to R186). -/
  convs : List (Nat × ConvX)
  /-- The transient digitizers (R187 to R196). -/
  digs : List (Nat × DigX)
  /-- Capture records that wait for their drain (R190 to R192). -/
  caps : List (Nat × List CapRec)
  /-- LPDDR5, by physical address (R493): the bytes that are not 0. -/
  mem : List (Nat × Byte)
  /-- The common store, by word (R199). -/
  common : List (Nat × Word)
  /-- The reckoners: registers, columns, flags, triggers (R204 to R217). -/
  recks : List (Nat × ReckX)
  /-- IRAM and DRAM of the reckoners, by core × 32768 + word (R199). -/
  reckMem : List (Nat × Word)
  /-- The loops and learners of the rods (R243 to R279). -/
  loops : List (Nat × LoopX)
  /-- The VSM kernels (R254 to R263). -/
  vsms : List (Nat × VsmX)
  /-- The pulse counters (R382 to R390). -/
  pcnts : List (Nat × PcntX)
  /-- The bead agent of this device (R287 to R295). -/
  bead : BeadX
  /-- The home ledger (R280 to R286). -/
  home : HomeX
  /-- The module-bus controllers and their protocol engines (R320 to R360). -/
  mbus : List (Nat × MbX)
  /-- The cells of the estimator (R300 to R310). -/
  cells : List (Nat × CellX)
  /-- The last report of each module (R345). -/
  modReps : List (Nat × List ModRep)
  /-- Charge and energy tallies of the rods (R311, R312). -/
  tallies : List (Nat × TallyX)
  /-- The estimator: rounds and snapshots (R306 to R310). -/
  cea : CeaX
  /-- The impedance engine of each rod (R313 to R316). -/
  eis : List (Nat × EisX)
  /-- Rest requests and wakes (R522 to R527). -/
  rest : RestX
  /-- The thermal sense inputs (R361 to R371). -/
  sensors : List (Nat × SensX)
  /-- Rate and limit crossings of the thermal watch (R366, R367). -/
  crossings : List (Nat × Int × Nat)
  /-- The valve steppers (R373 to R381). -/
  steppers : List (Nat × StepX)
  /-- The fabric links: replay, credits, buffers (R416 to R428). -/
  flinks : List (Nat × FabX)
  /-- Routing, discovery, transactions of the fabric (R429 to R440). -/
  router : RouterX
  /-- The key store and the crypto engine (R466 to R468). -/
  keys : KeysX
  /-- The session slots (R456 to R463). -/
  sess : List (Nat × SessX)
  /-- Tunnels, service records, fragments of the gate (R462 to R465). -/
  gate : GateX
  /-- The plant Ethernet ports (R449, R450, R471). -/
  eths : List (Nat × EthX)
  /-- The tally store with its drives (R472 to R491). -/
  store : StoreX
  /-- Payloads of event-area entries that are not yet durable (R554). -/
  evtQueue : List (List Nat)
  /-- The configuration flash (R540): the bytes that are not 0xFF. -/
  cf : List (Nat × Byte)
  /-- Memory of the pair (R503): the bytes that are not 0. -/
  pairMem : List (Nat × Byte)
  /-- Records of the device that wait for the tally store (R483). -/
  hwPosts : List HwPost
  /-- Harts, MTIME, the watchdog, poisoned lines (R492 to R502). -/
  proc : ProcX
  /-- The supply manager (R510 to R518). -/
  sup : SupX
  /-- Self-test, repair, fuses, the direct test engine (R559 to R568). -/
  bist : BistX
  /-- Boot and the flash engine (R541 to R551). -/
  boot : BootX
  /-- Everything the device has sent: answers, frames, parcels, pins, in order.  The model's own field. -/
  out : List Out
  /-- How many free values have been taken (log 5).  The model's own field. -/
  freeCtr : Nat
  /-- The commands that wait, first in, first out. -/
  pending : List Instr
deriving DecidableEq, Repr

/-- The device after a power-on reset (R7, R535; log 3, log 4): no word differs from its reset value, every record is at
its own, and the queue is empty. -/
def State.reset : State where
  board := []
  pages := []
  shadows := []
  waits := []
  doms := []
  beam := {}
  gens := []
  rods := []
  links := []
  safe := {}
  convs := []
  digs := []
  caps := []
  mem := []
  common := []
  recks := []
  reckMem := []
  loops := []
  vsms := []
  pcnts := []
  bead := {}
  home := {}
  mbus := []
  cells := []
  modReps := []
  tallies := []
  cea := {}
  eis := []
  rest := {}
  sensors := []
  crossings := []
  steppers := []
  flinks := []
  router := {}
  keys := {}
  sess := []
  gate := {}
  eths := []
  store := {}
  evtQueue := []
  cf := []
  pairMem := []
  hwPosts := []
  proc := {}
  sup := {}
  bist := {}
  boot := {}
  out := []
  freeCtr := 0
  pending := []

end Sys2Proof.Machine
end

