-- ==== Sys2Proof/Machine/Ops.lean ====
section
/-! DEFINITION. The named operations over the register board: reading and writing registers and
fields, counters, events and errors (R30 to R40), leases, staging and commit (R41 to R50), domain
states (R53 to R55), free values, and outputs. -/

namespace Sys2Proof

/-- A field of a word. -/
def Fld.read (f : Fld) (w : Word) : Nat := w.toNat / 2 ^ f.lo % 2 ^ f.width

/-- A word with one field replaced. -/
def Fld.write (f : Fld) (w : Word) (v : Nat) : Word :=
  let x := w.toNat
  let m := v % 2 ^ f.width
  wordOf (x / 2 ^ (f.hi + 1) * 2 ^ (f.hi + 1) + m * 2 ^ f.lo + x % 2 ^ f.lo)

/-- Whether a writer is a session or a remote device (R42). -/
def Writer.isRemote : Writer → Bool
  | .session _ => true
  | .remote _ => true
  | _ => false

end Sys2Proof

namespace Sys2Proof.Machine

/-! ## Numbers -/

/-- The two's complement value of the low `n` bits of a number. -/
def sxt (n : Nat) (x : Nat) : Int :=
  let m := x % 2 ^ n
  if m < 2 ^ (n - 1) then (m : Int) else (m : Int) - (2 ^ n : Nat)

/-- The `n`-bit two's complement encoding of a signed number. -/
def enc (n : Nat) (x : Int) : Nat := (x % (2 ^ n : Nat)).toNat

/-- A number limited to a range. -/
def clampI (lo hi x : Int) : Int := if x < lo then lo else if hi < x then hi else x

/-- The `n`-bit encoding of a signed number that saturates. -/
def encSat (n : Nat) (x : Int) : Nat :=
  enc n (clampI (-(2 ^ (n - 1) : Nat)) ((2 ^ (n - 1) : Nat) - 1) x)

/-- Bits `hi` to `lo` of a number. -/
def bitsOf (x hi lo : Nat) : Nat := x / 2 ^ lo % 2 ^ (hi + 1 - lo)

/-- Bit `i` of a number. -/
def bitOf (x i : Nat) : Bool := x.testBit i

/-- 1 for true, 0 for false. -/
def b2n (b : Bool) : Nat := if b then 1 else 0

/-- The mask of the bits set in a list. -/
def maskOf (l : List Nat) : Nat := l.foldl (fun m i => m ||| 2 ^ i) 0

/-- The indices below `n` whose bit is set. -/
def bitsSet (n m : Nat) : List Nat := (List.range n).filter (fun i => m.testBit i)

/-- Signed division rounded to the nearest, halves up (R93). -/
def divRound (a b : Int) : Int := (2 * a + b) / (2 * b)

/-! ## Registers and fields -/

/-- The word of a register. -/
def State.word (s : State) (p off : Nat) : Word := tabGet resetWord s.board (bkey p off)

/-- A register as a number. -/
def State.reg (s : State) (p off : Nat) : Nat := (s.word p off).toNat

/-- Store the word of a register. -/
def State.setWord (s : State) (p off : Nat) (v : Word) : State :=
  { s with board := tabPut resetWord s.board (bkey p off) v }

/-- Store a register from a number. -/
def State.setReg (s : State) (p off v : Nat) : State := s.setWord p off (wordOf v)

/-- A field of a register, as a number. -/
def State.get (s : State) (p : Nat) (f : Fld) : Nat := f.read (s.word p f.off)

/-- A field of a register, as a signed number. -/
def State.getS (s : State) (p : Nat) (f : Fld) : Int := sxt f.width (s.get p f)

/-- Whether a one-bit field is set. -/
def State.flag (s : State) (p : Nat) (f : Fld) : Bool := s.get p f != 0

/-- Replace a field of a register. -/
def State.set (s : State) (p : Nat) (f : Fld) (v : Nat) : State :=
  s.setWord p f.off (f.write (s.word p f.off) v)

/-- Replace a field of a register by a truth value. -/
def State.setB (s : State) (p : Nat) (f : Fld) (b : Bool) : State := s.set p f (b2n b)

/-- Add to a register, wrapping. -/
def State.inc (s : State) (p off : Nat) (n : Nat := 1) : State :=
  s.setReg p off ((s.reg p off + n) % 2 ^ 32)

/-- Add to a register, saturating at 0xFFFF_FFFF. -/
def State.incSat (s : State) (p off : Nat) (n : Nat := 1) : State :=
  s.setReg p off (min (s.reg p off + n) 0xFFFFFFFF)

/-- Add to a field, saturating at its largest value. -/
def State.incF (s : State) (p : Nat) (f : Fld) (n : Nat := 1) : State :=
  s.set p f (min (s.get p f + n) (2 ^ f.width - 1))

/-- Add to a field, wrapping. -/
def State.incFW (s : State) (p : Nat) (f : Fld) (n : Nat := 1) : State :=
  s.set p f (s.get p f + n)

/-- A bit of a register. -/
def State.bit (s : State) (p off i : Nat) : Bool := (s.reg p off).testBit i

/-- Set or clear a bit of a register. -/
def State.setBit (s : State) (p off i : Nat) (b : Bool) : State := s.setB p ⟨off, i, i⟩ b

/-- A signed 32-bit register. -/
def State.regS (s : State) (p off : Nat) : Int := sxt 32 (s.reg p off)

/-- Store a signed number in a 32-bit register, saturating. -/
def State.setRegSat (s : State) (p off : Nat) (x : Int) : State := s.setReg p off (encSat 32 x)

/-- A 64-bit register over two words, low word first (R30). -/
def State.reg64 (s : State) (p off : Nat) : Nat := s.reg p off + s.reg p (off + 4) * 2 ^ 32

/-- Store a 64-bit register over two words. -/
def State.setReg64 (s : State) (p off v : Nat) : State :=
  (s.setReg p off (v % 2 ^ 32)).setReg p (off + 4) (v / 2 ^ 32 % 2 ^ 32)

/-! ## Events, errors, outputs, free values -/

/-- Bit number of a block-specific event, error or status bit in its word. -/
abbrev blk (i : Nat) : Nat := 16 + i

/-- Set a bit of PG_EV_STAT. -/
def State.ev (s : State) (p i : Nat) : State := s.setBit p PG.EV_STAT i true

/-- Set a bit of PG_ERR: PG_ERRCNT.ERRSET counts its change from 0 to 1, and PG_EV_STAT.ERR is set
at every setting (R39). -/
def State.err (s : State) (p i : Nat) : State :=
  let s1 := if s.bit p PG.ERR i then s else s.incF p PG.ERRCNT_ERRSET
  (s1.setBit p PG.ERR i true).setBit p PG.EV_STAT 0 true

/-- Send an output. -/
def State.send (s : State) (o : Out) : State := { s with out := s.out ++ [o] }

/-- Take a free value: a word the manual leaves open, and the state with the next one in place. -/
def State.free (s : State) : Nat × State :=
  ((Config.freeWord s.freeCtr).toNat, { s with freeCtr := s.freeCtr + 1 })

/-- Whether the block of a page is enabled: PG_CTL.EN as accepted. -/
def State.en (s : State) (p : Nat) : Bool := s.flag p PG.CTL_EN

/-- Whether a page is locked (R51). -/
def State.locked (s : State) (p : Nat) : Bool := s.flag p PG.CTL_LOCK

/-! ## Pages and domains -/

/-- The record of a page. -/
def State.pg (s : State) (p : Nat) : PageX := tabGet (fun _ => {}) s.pages p

/-- Store the record of a page. -/
def State.setPg (s : State) (p : Nat) (x : PageX) : State :=
  { s with pages := tabPut (fun _ => {}) s.pages p x }

/-- The state of a power domain. -/
def State.dom (s : State) (d : Dom) : DomSt := tabGet (fun _ => .active) s.doms d.idx

/-- Encoding of a domain state in PG_STAT.DOMAIN. -/
def DomSt.num : DomSt → Nat
  | .active => 0
  | .draining => 1
  | .resting => 2
  | .waking => 3

/-- The register pages of a domain. -/
def domPages (d : Dom) : List Nat :=
  (pageMap.flatMap (fun r => (List.range r.count).map (r.first + ·))).filter
    (fun p => decide (pageDom p = d))

/-- Change the state of a domain: PG_EV_STAT.DOMAIN is set on its pages, and an EN change that
waited applies when it reaches ACTIVE (R53).  A TEST_EN held high keeps RD from leaving its reset (R590). -/
def State.setDom (s : State) (d : Dom) (v : DomSt) : State :=
  if s.dom d = v ∨ (d = .rd ∧ s.boot.testEn ∧ v ≠ .resting) then s
  else
    let s1 := { s with doms := tabPut (fun _ => DomSt.active) s.doms d.idx v }
    (domPages d).foldl (fun s p => s.ev p 3) s1

/-- Whether a page is leased by someone other than the writer. -/
def State.leasedByOther (s : State) (w : Writer) (p : Nat) : Bool :=
  match (s.pg p).lease with
  | some l => decide (l.owner ≠ w)
  | none => false

/-- Whether a writer holds the lease of a page. -/
def State.holdsLease (s : State) (w : Writer) (p : Nat) : Bool :=
  match (s.pg p).lease with
  | some l => decide (l.owner = w)
  | none => false

/-- PG_LEASE as a number (R35): KIND, OWNER, REMAIN. -/
def leaseWord (l : Option Lease) : Nat :=
  match l with
  | none => 0
  | some l =>
    match l.owner with
    | .apc h => 2 ^ 30 + h.val * 2 ^ 16 + 0xFFFF
    | .spc => 2 ^ 30 + 4 * 2 ^ 16 + 0xFFFF
    | .spcB => 2 ^ 30 + 5 * 2 ^ 16 + 0xFFFF
    | .reck k => 2 ^ 30 + (8 + k.val) * 2 ^ 16 + 0xFFFF
    | .session n => 2 * 2 ^ 30 + n.val * 2 ^ 16 + min l.remain 0xFFFF
    | .remote a => 3 * 2 ^ 30 + a.val * 2 ^ 16 + min l.remain 0xFFFF

/-- End the lease of a page (R50): staged words are discarded, LEASE_LOST is set. -/
def State.endLease (s : State) (p : Nat) : State :=
  match (s.pg p).lease with
  | none => s
  | some _ => (s.setPg p { s.pg p with lease := none, staged := [] }).ev p 2

/-- Every lease of one owner ends (R50). -/
def State.ownerLost (s : State) (w : Writer) : State :=
  (s.pages.map Prod.fst).foldl (fun s p => if s.holdsLease w p then s.endLease p else s) s

/-! ## Staged words and commit -/

/-- The value a register would hold once every staged word of its page is applied (R43). -/
def State.stagedWord (s : State) (p off : Nat) : Word :=
  match ((s.pg ((ownerPage p).getD p)).staged.find? (fun e => e.1 == bkey p off)) with
  | some e => e.2
  | none => s.word p off

/-- A field of a register once every staged word is applied. -/
def State.stagedGet (s : State) (p : Nat) (f : Fld) : Nat := f.read (s.stagedWord p f.off)

/-- Stage a word on a page; a word for the same register is replaced (R41). -/
def State.stage (s : State) (p : Nat) (k : Nat) (v : Word) : State :=
  let x := s.pg p
  s.setPg p { x with staged := x.staged.filter (fun e => !(e.1 == k)) ++ [(k, v)] }

/-- Apply the pending set of a page in one step (R43): PG_GEN advances, APPLIED is set. -/
def State.applyCommit (s : State) (p : Nat) : State :=
  let x := s.pg p
  if x.applyPending then
    let s1 := x.pending.foldl
      (fun s e => { s with board := tabPut resetWord s.board e.1 e.2 }) s
    let s2 := s1.setPg p { x with pending := [], applyPending := false }
    (s2.inc p PG.GEN).ev p 1
  else s

/-! ## Writes by access code -/

/-- How an access is answered: remote writers get a response, a local write completes without a
fault (R39). -/
def State.answer (s : State) (w : Writer) (c : Code) : State := s.send (.resp w c (if c = .ok then 1 else 0) [])

/-- A refusal that names a PG_ERR bit. -/
def refuse (s : State) (p bit : Nat) (c : Code) : State × Code := (s.err p bit, c)

/-- Keep the codes whose condition holds. -/
def holds (l : List (Bool × Nat)) : List Nat := (l.filter (fun e => e.1)).map Prod.snd

/-- A refusal under several cases at once sets the PG_ERR bit of each. -/
def refuseAll (s : State) (p : Nat) (bits : List Nat) (c : Code) : State × Code :=
  (bits.foldl (fun s b => s.err p b) s, c)

/-- Mask of a word with the bits of a number. -/
def maskW (v : Word) (m : Nat) : Word := v &&& wordOf m

/-- Whether the pair runs in split mode (R412). -/
def State.split (s : State) : Bool := s.flag pSPAIR SPAIR.MODE_SPLIT

/-- Whether a writer is the safety kernel, for which the exception of R48 is made: the pair in lock-step (R503). -/
def State.kernelWrites (s : State) (w : Writer) : Bool := decide (w = .spc) && !s.split

/-- The refusal a lease makes of a write to a page (R42, R48), `none` if it makes none.  `isW1CHdr`
marks a write to PG_ERR or PG_EV_STAT, `isRwSc` a register that holds only RW, SC and RO bits. -/
def leaseRefuses (s : State) (w : Writer) (p : Nat) (isW1CHdr isRwSc : Bool) : Bool :=
  s.leasedByOther w p && !isW1CHdr && !(s.kernelWrites w && isRwSc)

/-- Write a word under its access codes (R39, R40, R48, R51, R615).  `p` is the page whose header
governs, `k` the word's key, `acc` its writable bits by code. -/
def State.codeWrite (s : State) (w : Writer) (p k : Nat) (acc : List (Acc × Nat)) (v : Word)
    (isW1CHdr : Bool) : State × Code :=
  let r : Reg := ⟨0, [], acc, 0⟩
  let old := tabGet resetWord s.board k
  let rw := r.bits .rw
  let wl := r.bits .wl
  let st := r.bits .st
  let w1c := r.bits .w1c
  let wo1 := r.bits .wo1
  let sc := r.bits .sc
  let others := rw ||| w1c ||| sc
  if leaseRefuses s w p isW1CHdr (decide (wl = 0 ∧ st = 0 ∧ wo1 = 0 ∧ w1c = 0 ∧ acc ≠ [])) then
    refuse s p 4 .writeRefused
  else if acc = [] then (s, .writeRefused)
  else if st ≠ 0 then
    if w.isRemote && !s.holdsLease w p then refuse s p 4 .writeRefused
    else if s.leasedByOther w p then refuse s p 4 .writeRefused
    else if (s.pg p).staged.all (fun e => !(e.1 == k)) ∧ 64 ≤ (s.pg p).staged.length then
      refuse s p 5 .writeRefused
    else (s.stage p k (maskW v st ||| (old &&& ~~~(wordOf st))), .ok)
  else if wl ≠ 0 ∧ s.locked p ∧ (others = 0 ∨ maskW v wl ≠ maskW old wl) then
    refuse s p 0 .writeRefused
  else
    let new := (old &&& ~~~(wordOf (rw ||| wl))) ||| maskW v (rw ||| wl)
    let new := new &&& ~~~(maskW v w1c)
    let new := new ||| maskW v wo1
    ({ s with board := tabPut resetWord s.board k new }, .ok)

/-- Codes of a word of a filter record (R186, R265): FCTL with its bits, five coefficients, four state
words that only the device writes. -/
def filterAcc (fctl o : Nat) : Option (List (Acc × Nat)) :=
  if o = 0 then some [(.st, fctl)]
  else if o < 0x18 then some [(.st, 0xFFFFFFFF)]
  else if o < 0x28 then some []
  else none

/-- Codes of a word of a grant slot (R454). -/
def grantAcc (o : Nat) : Option (List (Acc × Nat)) :=
  if o = 0 then some [(.st, 0xF03F0000)]
  else if o = 4 then some [(.st, 0x00FFFFFF)]
  else if o = 8 then some [(.st, 0xFFFF)]
  else if o = 0xC then some [(.st, 0x0FFF0FFF)]
  else if o < 0x18 then some [(.st, 0xFFFFFFFF)]
  else if o < 0x40 then none
  else some [(.st, 0xFFFFFF3F)]

/-- The access codes of a word of a table memory, with the bits that are not reserved (R8, R62): sequencer
entries (R176; twelve tables of 512 bytes in each two pages), learner bins (R252), loop filters (R265; four records
in the first page of each two), converter filters (R186), grants (R454), chemistry tables (R317; the word at
0x000C is reserved).  `none`: a reserved word. -/
def tableAcc (p off : Nat) : Option (List (Acc × Nat)) :=
  let full := 0xFFFFFFFF
  if p < 0x808 then
    if 6144 ≤ (p - 0x800) % 2 * 4096 + off then none
    else if off % 8 = 0 then some [(.rw, full)]
    else some [(.rw, 0xE1F0000F)]
  else if p < 0x880 then some [(.rw, full)]
  else if p < 0x8B0 then if (p - 0x880) % 2 = 0 ∧ off < 0x100 then filterAcc 0x80000000 (off % 64) else none
  else if p < 0x8C0 then filterAcc 0x800000FF (off % 64)
  else if p < 0xA00 then grantAcc (off % 0x400)
  else if (p - 0xA00) % 8 = 0 ∧ off = 0xC then none
  else some [(.rw, full)]

/-- Write one word of board space that no block rule treats specially: reserved offsets are ignored
(R8), registers and table words follow their access codes. -/
def State.plainWrite (s : State) (w : Writer) (p off : Nat) (v : Word) : State × Code :=
  match ownerPage p with
  | none => (s, .noPage)
  | some o =>
    let acc := if p < 0x800 then (regAt p off).map Reg.acc else tableAcc p off
    match acc with
    | none => (s, .ok)
    | some acc =>
      s.codeWrite w o (bkey p off) acc v (decide (p < 0x800 ∧ (off = PG.ERR ∨ off = PG.EV_STAT)))

/-- Count a refusal made by the page itself of a remote access (R57: PG_ERRCNT.REFUSED); NO_PAGE and
DOMAIN_RESTING are the board switch's answers. -/
def State.countRefused (s : State) (w : Writer) (p : Nat) (c : Code) : State :=
  if w.isRemote && decide (c ≠ .ok ∧ c ≠ .noPage ∧ c ≠ .domainResting) then s.incF p PG.ERRCNT_REFUSED else s

/-- Finish a write command: count a refusal and answer the writer. -/
def finish (w : Writer) (p : Nat) (r : State × Code) : State :=
  (r.1.countRefused w ((ownerPage p).getD p) r.2).answer w r.2

/-- The power domain that governs a page of board space, table pages by their owner (R62). -/
def accDom (p : Nat) : Dom := pageDom ((ownerPage p).getD p)

/-- Whether the domain of a page does not answer. -/
def State.pageRests (s : State) (p : Nat) : Bool := decide (s.dom (accDom p) ≠ .active)

/-- A local access meets a resting domain (R54): SYS records the first such page. -/
def State.restAccess (s : State) (p : Nat) : State :=
  if s.flag pSYS SYS.REST_ACC_VALID then s
  else (s.setReg pSYS SYS.REST_ACC (2 ^ 31 + p)).ev pSYS (blk 0)

/-- A write to a page whose domain rests (R54): ignored from a local writer, refused to a remote one. -/
def State.restWrite (s : State) (w : Writer) (p : Nat) : State × Code :=
  if w.isRemote then (s, .domainResting) else (s.restAccess p, .ok)

/-- The checks every write to a block register of a page makes before the block's own rule: its domain
answers (R54, R55), and no other owner's lease refuses (R48).  An SC or RW action of the SPC passes a
lease. -/
def State.actionWrite (s : State) (w : Writer) (p : Nat) (f : State → State × Code) :
    State × Code :=
  if s.pageRests p then s.restWrite w p
  else if leaseRefuses s w p false true then refuse s p 4 .writeRefused
  else f s

/-- A write that would enable or start a block while it shuts down: BUSY ranks before a lease's refusal
(R52, R57), which keeps its own error bit (R48). -/
def State.refuseShutting (s : State) (w : Writer) (p : Nat) : State × Code :=
  let s := if s.leasedByOther w p && !s.kernelWrites w then s.err p 4 else s
  refuse s p 2 .busy

end Sys2Proof.Machine
end

