-- ==== Sys2Proof/Machine/TimeCore.lean ====
section
/-! DEFINITION. Beam-time helpers, fine lock (spec/03: R75, R80), and the states of a rod (spec/06,
R149). -/

namespace Sys2Proof.Machine

/-! ## Beam time -/

/-- Store the beam's record. -/
def State.setBeam (s : State) (x : BeamX) : State := { s with beam := x }

/-- Beam seconds. -/
def State.sec (s : State) : Nat := s.beam.t / 256000000000

/-- Beam nanoseconds. -/
def State.ns (s : State) : Nat := s.beam.t / 256 % 1000000000

/-- Beam fraction, 1/256 ns. -/
def State.frac (s : State) : Nat := s.beam.t % 256

/-- Link time (R121): beam time in 1/16 tick (40/256 ns), modulo 2⁴⁸. -/
def State.linkTime (s : State) : Nat := s.beam.t / 40 % 2 ^ 48

/-- Beam time in 1/16 tick, not reduced (R107: the unit of every edge of a rod). -/
def State.uticks (s : State) : Nat := s.beam.t / 40

/-- 1 ms in units of 1/256 ns. -/
abbrev unitsMs : Nat := 256000000

/-- Whether the device counts as in fine lock: LOCK = FINE, no commissioning hold (R75), and no step
waiting (R80). -/
def State.fineLock (s : State) : Bool :=
  decide (s.get pBEAM BEAM.STAT_LOCK = 3) && !s.flag pBEAM BEAM.STAT_CMSN_HOLD &&
    !s.flag pBEAM BEAM.STAT_STEP_PENDING

/-! ## Rod states -/

/-- Rod states (ROD.STATUS.STATE). -/
abbrev stOFF : Nat := 0
abbrev stPRECHARGE : Nat := 1
abbrev stREADY : Nat := 2
abbrev stRUN : Nat := 3
abbrev stDESCENT : Nat := 4
abbrev stGATESOFF : Nat := 5
abbrev stDISCHARGE : Nat := 6
abbrev stFAULT : Nat := 7

/-- Sequencer steps (PROT.STATUS.STEP). -/
abbrev spNONE : Nat := 0
abbrev spIDREAD : Nat := 1
abbrev spPCCHARGE : Nat := 2
abbrev spCONTCLOSE : Nat := 3
abbrev spDIAG : Nat := 4
abbrev spBRKCLOSE : Nat := 5
abbrev spENERGISE : Nat := 6
abbrev spCONTOPEN : Nat := 7
abbrev spDISCHARGING : Nat := 8

/-- State of a rod. -/
def State.rodSt (s : State) (n : Nat) : Nat := s.get (pROD n) ROD.STATUS_STATE

/-- Sequencer step of a rod. -/
def State.rodStep (s : State) (n : Nat) : Nat := s.get (pPROT n) PROT.STATUS_STEP

end Sys2Proof.Machine
end

