-- ==== Sys2Proof/Machine/BeadsPlace.lean ====
section
/-! DEFINITION. The placement of a device's beads on its rods (spec/12, R288, R293 to R295), the start
of a lease (R292) and the roles of the homes (R282). -/

namespace Sys2Proof.Machine

/-! ## Apportionment (R288) -/

/-- Sum of a list. -/
def sumN (l : List Nat) : Nat := l.foldl (· + ·) 0

/-- Give one each to `n` indices of largest remainder, ties to the lowest index. -/
def giveLargest : Nat → List Nat → List Nat → List Nat
  | 0, sh, _ => sh
  | n + 1, sh, rm =>
    match rm.max? with
    | none => sh
    | some m =>
      let i := rm.findIdx (· == m)
      giveLargest n (sh.modify i (· + 1)) (rm.set i 0)

/-- apportion(m, w) of R288: floors, and what is left to the largest fractional parts, ties to the
lowest place. -/
def apportion (m : Nat) (w : List Nat) : List Nat :=
  let t := sumN w
  if t = 0 then w.map (fun _ => 0)
  else
    let sh := w.map (fun x => m * x / t)
    giveLargest (m - sumN sh) sh (w.map (fun x => m * x % t))

/-- One round of place(b) of R294 over rods (number, limit, weight, placed): `none` once nothing is
left or no rod is open. -/
def placeLoop : Nat → Nat → List (Nat × Nat × Nat) → List Nat → List Nat
  | 0, _, _, pl => pl
  | fuel + 1, left, opn, pl =>
    if left = 0 ∨ opn = [] then pl
    else
      let sh := (opn.zip (apportion left (opn.map (fun r => r.2.2))))
      let full := sh.filter (fun e => decide (e.1.2.1 ≤ pl.getD e.1.1 0 + e.2))
      if full = [] then sh.foldl (fun pl e => pl.modify e.1.1 (· + e.2)) pl
      else
        let used := sumN (full.map (fun e => e.1.2.1 - pl.getD e.1.1 0))
        placeLoop fuel (left - used)
          (opn.filter (fun r => !(full.any (fun e => decide (e.1.1 = r.1)))))
          (full.foldl (fun pl e => pl.set e.1.1 e.1.2.1) pl)

/-- place(b) of R294: the beads of each of 24 rods, from its limit and weight, 0 where not eligible. -/
def placeBeads (b : Int) (lims wts : List Nat) : List Int :=
  let opn := (List.range 24).filterMap (fun r =>
    if 0 < lims.getD r 0 ∧ 0 < wts.getD r 0 then some (r, lims.getD r 0, wts.getD r 0) else none)
  let pl := placeLoop 25 b.natAbs opn (List.replicate 24 0)
  pl.map (fun (x : Nat) => if b < 0 then -(x : Int) else (x : Int))

/-! ## Rods and capacities (R294) -/

/-- The beads' record. -/
def State.setBead (s : State) (x : BeadX) : State := { s with bead := x }

/-- Lease states (DEV_STAT.LSTATE). -/
abbrev lsNONE : Nat := 0
abbrev lsREQUEST : Nat := 1
abbrev lsHELD : Nat := 2
abbrev lsRAMP : Nat := 3
abbrev lsLAPSED : Nat := 4

/-- The device's lease state. -/
def State.lstate (s : State) : Nat := s.get pBEADS BEADS.DEV_STAT_LSTATE

/-- Set the lease state. -/
def State.setLstate (s : State) (v : Nat) : State := s.set pBEADS BEADS.DEV_STAT_LSTATE v

/-- The limit of a rod in a sign: P (`q` false) or Q. -/
def State.beadLim (s : State) (q neg : Bool) (r : Nat) : Nat :=
  let w := s.reg pBEADS (if q then BEADS.ROD_QLIM r else BEADS.ROD_PLIM r)
  if neg then w % 65536 else w / 65536

/-- The weight of a rod in a sign; for Q it is the limit. -/
def State.beadWt (s : State) (q neg : Bool) (r : Nat) : Nat :=
  if q then s.beadLim q neg r
  else
    let w := s.reg pBEADS (BEADS.ROD_W r)
    if neg then w / 65536 else w % 65536

/-- Whether a rod is eligible in a sign (R294). -/
def State.eligible (s : State) (q neg : Bool) (r : Nat) : Bool :=
  decide (s.get (pROD r) ROD.CFG_MODE = 0) && decide (s.rodSt r = stRUN) && s.fineLock &&
  decide (0 < s.beadLim q neg r) && decide (0 < s.beadWt q neg r)

/-- The limits of the eligible rods, 0 for the others. -/
def State.beadLims (s : State) (q neg : Bool) : List Nat :=
  (List.range 24).map (fun r => if s.eligible q neg r then s.beadLim q neg r else 0)

/-- A capacity (R294, R292, R298): 0 while ACCEPT = 0 or EN = 0, and under the AON agent. -/
def State.beadCap (s : State) (q neg : Bool) : Nat :=
  if s.flag pBEADS BEADS.CTL_ACCEPT && s.en pBEADS && !s.bead.agent then sumN (s.beadLims q neg) else 0

/-! ## Placement (R293, R295) -/

/-- RAMP in units of 1/256 ns. -/
def State.rampUnits (s : State) : Nat :=
  let v := s.get pBEADS BEADS.CTL_RAMP
  (if v = 0 then 10 else min v 25) * 10 * unitsMs

/-- The device's lease expiry in units of 1/256 ns. -/
def State.expiryUnits (s : State) : Nat := s.reg64 pBEADS BEADS.EXPIRY_LO * 256

/-- The placement factor over RAMP: (expiry − now) in RAMP, the restored part after it, else all. -/
def State.rampNum (s : State) : Nat :=
  let full := s.rampUnits
  if s.lstate = lsRAMP then min full (s.expiryUnits - s.beam.t)
  else
    match s.bead.restore with
    | some t0 => min full ((s.beam.t : Int) - t0).toNat
    | none => full

/-- A rod's placement scaled by a factor, toward 0. -/
def scaleBeads (x : Int) (num den : Nat) : Int :=
  if x < 0 then -((x.natAbs * num / den : Nat) : Int) else ((x.natAbs * num / den : Nat) : Int)

/-- The scaled placement of one kind. -/
def State.placeKind (s : State) (q : Bool) (b : Int) : List Int :=
  let neg := decide (b < 0)
  let wts := (List.range 24).map (fun r => s.beadWt q neg r)
  (placeBeads b (s.beadLims q neg) wts).map (fun x => scaleBeads x s.rampNum s.rampUnits)

/-- A signed sum. -/
def sumZ (l : List Int) : Int := l.foldl (· + ·) 0

/-- REMAIN follows HOLD and PLACED. -/
def State.setRemain (s : State) : State :=
  (s.setReg pBEADS BEADS.REMAIN_P (enc 32 (s.regS pBEADS BEADS.HOLD_P - s.regS pBEADS BEADS.PLACED_P))).setReg
    pBEADS BEADS.REMAIN_Q (enc 32 (s.regS pBEADS BEADS.HOLD_Q - s.regS pBEADS BEADS.PLACED_Q))

/-- The record of a rod's impedance runs. -/
def State.eisX (s : State) (r : Nat) : EisX := tabGet (fun _ => {}) s.eis r

/-- Store the record of a rod's impedance runs. -/
def State.setEisX (s : State) (r : Nat) (x : EisX) : State := { s with eis := tabPut (fun _ => {}) s.eis r x }

/-- Why a rod is not idle for impedance (R313), as the abort code of R315: 2 not in RUN, 3 fine lock, 1
beads above the limit or not configured; 0: it is idle. -/
def State.eisWhy (s : State) (r : Nat) : Nat :=
  let pct := s.get pEIS EIS.CTL_IDLE_PCT
  let pct := if pct = 0 then 20 else min pct 20
  let rated := s.reg pEIS (EIS.I_RATED r)
  if s.get (pROD r) ROD.CFG_MODE ≠ 0 ∨ s.rodSt r ≠ stRUN then 2
  else if !s.fineLock then 3
  else if pct * s.get pBEADS (BEADS.ROD_PLIM_P_MAX r) < 100 * (sxt 16 (s.reg pBEADS (BEADS.PLACE r))).natAbs then 1
  else if (List.range 32).all (fun i =>
      decide (s.reg pCEA (CEA.MOD_CFG (16 * r + i / 2)) / (if i % 2 = 1 then 65536 else 1) % 65536 < 32768)) ∨
      rated / 2 ^ 31 = 1 ∨ rated / 2 ^ 23 = 0 ∨ 0x7F800000 < rated then 1
  else 0

/-- The idle times of the rods (R313, R315) after a change of what they depend on. -/
def State.eisTrack (s : State) : State :=
  (List.range 24).foldl (fun s r =>
    let x := s.eisX r
    let c := s.eisWhy r
    if c = 0 then (if x.idleSince.isNone then s.setEisX r { x with idleSince := some s.beam.t } else s)
    else if x.idleSince.isSome then s.setEisX r { x with idleSince := none, why := c }
    else s) s

/-- A placement run (R295): PLACE, PLACED, REMAIN, PLACE_GEN, and PSET and QSET of every loop. -/
def State.placeRun (s : State) : State :=
  let ps := s.placeKind false s.bead.basis.p
  let qs := s.placeKind true s.bead.basis.q
  let s := (List.range 24).foldl (fun s r =>
    let p := ps.getD r 0
    let q := qs.getD r 0
    let s := s.setReg pBEADS (BEADS.PLACE r) (enc 16 q * 65536 + enc 16 p)
    (s.setReg (pLOOP r) LOOP.PSET (enc 32 p)).setReg (pLOOP r) LOOP.QSET (enc 32 q)) s
  let s := (s.setReg pBEADS BEADS.PLACED_P (enc 32 (sumZ ps))).setReg pBEADS BEADS.PLACED_Q (enc 32 (sumZ qs))
  let s := s.setRemain.inc pBEADS BEADS.PLACE_GEN
  let s := if s.bead.restore.isSome && decide (s.rampNum = s.rampUnits) then
      s.setBead { s.bead with restore := none } else s
  s.eisTrack

/-! ## Homes -/

/-- Addresses of the primary and the secondary home. -/
def State.homeAddr (s : State) (alt : Bool) : Nat :=
  let w := s.reg pBEADS BEADS.HOME_CFG
  if alt then w / 65536 % 4096 else w % 4096

/-- HOME_CFG names two devices. -/
def State.homesSet (s : State) : Bool := decide (s.homeAddr false ≠ s.homeAddr true)

/-- NONE to REQUEST (R292). -/
def State.beadStart (s : State) : State :=
  if s.lstate = lsNONE && s.en pBEADS && s.fineLock && s.homesSet then
    (s.setLstate lsREQUEST).setBead { s.bead with next := 1, out := none }
  else s

/-- This device's fabric address. -/
def State.addr (s : State) : Nat := s.get pFABR FABR.ADDR_CFG_ADDR

/-- Whether DISC shows a device reachable, and in fine lock. -/
def State.discReach (s : State) (a : Nat) : Bool := s.bit pDISC (DISC.REACH (a / 32)) (a % 32)
def State.discFine (s : State) (a : Nat) : Bool := s.bit pDISC (DISC.FINE (a / 32)) (a % 32)

/-- Roles of a home (HOME_STAT.ROLE). -/
abbrev hrNONE : Nat := 0
abbrev hrACTING : Nat := 1
abbrev hrSTANDBY : Nat := 2
abbrev hrLOST : Nat := 3

/-- The role of this device. -/
def State.role (s : State) : Nat := s.get pBEADS BEADS.HOME_STAT_ROLE

/-- Change the role: ROLE_CHG. -/
def State.setRole (s : State) (r : Nat) : State :=
  if s.role = r then s else (s.set pBEADS BEADS.HOME_STAT_ROLE r).ev pBEADS (blk 3)

/-- Whether this device is named as a home, and its peer. -/
def State.isHome (s : State) : Bool :=
  s.homesSet && (decide (s.addr = s.homeAddr false) || decide (s.addr = s.homeAddr true))
def State.homePeer (s : State) : Nat :=
  if s.addr = s.homeAddr false then s.homeAddr true else s.homeAddr false

/-- Cold start (R282): once both homes are in fine lock, the primary takes ACTING and the secondary
STANDBY.  A device that HOME_CFG does not name has the role NONE. -/
def State.homeRoles (s : State) : State :=
  if !s.isHome then s.setRole hrNONE
  else if s.role = hrNONE && s.isHome && s.fineLock && s.discFine s.homePeer then
    s.setRole (if s.addr = s.homeAddr false then hrACTING else hrSTANDBY)
  else s

end Sys2Proof.Machine
end

