-- ==== Sys2Proof/Machine/RodCore.lean ====
section
/-! DEFINITION. Shared operations of a rod: its state, command outputs, trip path, fault causes,
descent causes (spec/06: R145 to R158; spec/05: R129). -/

namespace Sys2Proof.Machine

/-! ## The device -/

/-- Device states (REST.STAT.STATE). -/
abbrev dvRUN : Nat := 0
abbrev dvQUIET : Nat := 1
abbrev dvREST : Nat := 2
abbrev dvDEEP : Nat := 3

/-- The device state. -/
def State.dev (s : State) : Nat := s.get pREST REST.STAT_STATE

/-! ## Rods -/

/-- The record of a rod. -/
def State.rod (s : State) (n : Nat) : RodX := tabGet (fun _ => {}) s.rods n

/-- Store the record of a rod. -/
def State.setRod (s : State) (n : Nat) (x : RodX) : State :=
  { s with rods := tabPut (fun _ => {}) s.rods n x }

/-- The record of an inner loop. -/
def State.loop (s : State) (n : Nat) : LoopX := tabGet (fun _ => {}) s.loops n

/-- Store the record of an inner loop. -/
def State.setLoop (s : State) (n : Nat) (x : LoopX) : State :=
  { s with loops := tabPut (fun _ => {}) s.loops n x }

/-- The record of a gate link k = n × 12 + p (R116). -/
def State.link (s : State) (k : Nat) : LinkX := tabGet (fun _ => {}) s.links k

/-- Store the record of a gate link. -/
def State.setLink (s : State) (k : Nat) (x : LinkX) : State :=
  { s with links := tabPut (fun _ => {}) s.links k x }

/-- The rods of field die `k`. -/
def dieRods (k : Nat) : List Nat := (List.range 6).map (6 * k + ·)

/-- Set the sequencer step. -/
def State.setStep (s : State) (n : Nat) (v : Nat) : State := s.set (pPROT n) PROT.STATUS_STEP v

/-- Whether a state shows SHUTTING (R149). -/
def shuttingSt (st : Nat) : Bool := decide (st = stDESCENT ∨ st = stGATESOFF ∨ st = stDISCHARGE)

/-- The device runs degraded, in loader mode or halted: every SAFE_OUT is low, and every rod has the SGR
block (R529, R545, R550). -/
def State.lowOuts (s : State) : Bool := s.flag pREST REST.STAT_DEGRADED || s.boot.low

/-- Every rod is held under the SGR block: in DEPLOYED while SAFE is unlocked (R414), and in those
states. -/
def State.sgrHold (s : State) : Bool :=
  (decide (s.reg pLIFE LIFE.STATE % 8 = 2) && !s.locked pSAFE) || s.lowOuts

/-- Whether field die 1 to 3 rests alone in RUN and QUIET (R522): its FDC page asks for it and every rod is in OFF. -/
def State.restsAlone (s : State) (k : Nat) : Bool :=
  decide (k ≠ 0 ∧ k < 4) && decide (s.dev ≤ dvQUIET) && decide (s.get (pFDC k) PG.CTL_PWR_REQ = 2) &&
    (dieRods k).all (fun n => decide (s.rodSt n = stOFF))

/-- A rod has come to OFF: its die may rest (R522). -/
def State.dieAlone (s : State) (k : Nat) : State :=
  if s.dom (.fd k) = .active ∧ s.restsAlone k then s.setDom (.fd k) .draining else s

/-- A transition of the rod's state machine (R149): the state and its copy, STATE_CHG, SHUTTING on
both pages, and SHUT_DONE when the rod leaves DISCHARGE or enters FAULT from a shutting state.  The SGR
block that ends a non-latching SPD is released in OFF (R394). -/
def State.setRodSt (s : State) (n : Nat) (st : Nat) : State :=
  let old := s.rodSt n
  let s := s.setRod n { s.rod n with prevSt := old, stAt := s.beam.t }
  let s := (s.set (pROD n) ROD.STATUS_STATE st).set (pPROT n) PROT.STATUS_STATE st
  let s := s.ev (pPROT n) (blk 1)
  let s := (s.setB (pROD n) PG.STAT_SHUTTING (shuttingSt st)).setB (pPROT n) PG.STAT_SHUTTING (shuttingSt st)
  let s := if shuttingSt old && !shuttingSt st then (s.ev (pROD n) 4).ev (pPROT n) 4 else s
  let s := if st = stOFF ∧ !s.bit pSAFE SAFE.LATCH n ∧ !s.sgrHold then s.setBit pSAFE SAFE.SGR_MAP n false else s
  let s := if st = stOFF then s.dieAlone (n / 6) else s
  if old ≠ st ∧ (old = stRUN ∨ st = stRUN) then s.placeRun else s

/-- Drive the contactor command. -/
def State.setCont (s : State) (n : Nat) (b : Bool) : State :=
  if (s.rod n).cont = b then s
  else (s.setRod n { s.rod n with cont := b }).send (.fio n "contactor" b)

/-- Drive the precharge command. -/
def State.setPrech (s : State) (n : Nat) (b : Bool) : State :=
  if (s.rod n).prech = b then s
  else (s.setRod n { s.rod n with prech := b }).send (.fio n "precharge" b)

/-- Drive the breaker command; a rod with BRK_EN = 0 drives it low (R585). -/
def State.setBrk (s : State) (n : Nat) (b : Bool) : State :=
  if (s.rod n).brk = b then s
  else (s.setRod n { s.rod n with brk := b }).send (.fio n "breaker" b)

/-- Drive the discharge command.  DIS_ABANDON clears when it next turns on, and the limits of R155
run from that moment. -/
def State.setDisch (s : State) (n : Nat) (b : Bool) : State :=
  if (s.rod n).disch = b then s
  else
    let s := (s.setRod n { s.rod n with disch := b }).send (.fio n "discharge" b)
    if b then
      (s.setRod n { s.rod n with disOn := s.beam.t }).set (pPROT n) PROT.STATUS_DIS_ABANDON 0
    else s

/-- The positions of the T1 and T4 switches, and of the T2 and T3 switches (R91: position p is
phase p div 4, switch p mod 4). -/
def outerPos : List Nat := [0, 3, 4, 7, 8, 11]
def innerPos : List Nat := [1, 2, 5, 6, 9, 10]

/-- The record of digitizer `i` = 2k + d. -/
def State.dig (s : State) (i : Nat) : DigX := tabGet (fun _ => {}) s.digs i

/-- Store the record of a digitizer. -/
def State.setDig (s : State) (i : Nat) (x : DigX) : State :=
  { s with digs := tabPut (fun _ => {}) s.digs i x }

/-- What a trip of rod `n` (`from_ = none`), or a CANCEL of 1/16-tick time `from_`, does to a
digitizer's captures (R189): an edge whose window has not begun is withdrawn without a record, and a capture in
progress gets the TRIP or the WITHDRAWN flag. -/
def State.digWithdraw (s : State) (n : Nat) (from_ : Option Nat) (i : Nat) : State :=
  let x := s.dig i
  let hit (c : CapRec) : Bool := decide (c.rod = n) && (match from_ with
    | none => true
    | some u => !c.timed && decide (u * 40 ≤ c.edge))
  if x.waits.isEmpty ∧ x.caps.isEmpty then s
  else
    s.setDig i { x with
      waits := x.waits.filter (fun c => !hit c)
      caps := x.caps.map (fun c =>
        if !hit c then c else if from_.isNone then { c with trip := true } else { c with withdrawn := true }) }

/-- What a trip does to link `k` (R26, R128, R129): the edges not yet due and the open edge-loss checks are dropped,
and a frame in progress ends with ABORT; a TIME, PING or CLEAR frame is sent again later (R120). -/
def State.tripLink (s : State) (k : Nat) : State :=
  let x := s.link k
  let busy := x.tx.filter (fun f => decide (s.beam.t < f.stop))
  let low := (busy.map GlTx.ty).filter (fun ty => ty == 3 || ty == 4 || ty == 6)
  let s := s.setLink k { x with
    checks := [], queue := [], sent := [], tx := []
    ping := if low.contains 4 then none else x.ping
    wait := x.wait ++ low.filter (fun ty => !x.wait.contains ty) }
  if busy.isEmpty then s else s.send (.glAbort k)

/-- Fire the rod's trip path (R26, R128, R129): trip sets on all 12 links, every edge not yet due
pre-empted, every open edge-loss check dropped, and no edge until the rod next enters RUN. -/
def State.tripPath (s : State) (n : Nat) : State :=
  let three := decide (s.get (pROD n) ROD.CFG_MODE = 0)
  let x := s.rod n
  let s := s.setRod n { x with
    tripped := true, innerDue := three, legs := [{}, {}, {}], modEnd := none,
    blanks := x.blanks.filter (fun w => decide (w.2.1 ≤ s.uticks)) }
  let s := s.set (pROD n) ROD.STATUS_MOD_ACTIVE 0
  let s := (s.digWithdraw n none (2 * (n / 6))).digWithdraw n none (2 * (n / 6) + 1)
  let s := s.send (.tripSets n (if three then outerPos else List.range 12) (if three then innerPos else []))
  (List.range 12).foldl (fun s p => s.tripLink (n * 12 + p)) s

/-- Enter FAULT (R146, R147): FIRST and FIRST_NS, outputs, PG_EV_STAT.BLK.FAULT. -/
def State.enterFault (s : State) (n : Nat) (code : Nat) : State :=
  let s := (s.setReg (pPROT n) PROT.FIRST code).setReg (pPROT n) PROT.FIRST_NS s.ns
  let s := s.setRodSt n stFAULT
  let s := s.setStep n spNONE
  let x := s.rod n
  let s := s.setRod n { x with
    start := none, xchk := [0, 0, 0], quietFrames := 0, diagStep := 0, diagV := [],
    testSrc := none }
  let s := if x.testSrc.isSome then s.send (.testSource n none) else s
  let s := ((s.setBrk n false).setCont n false).setPrech n false
  let s := s.setDisch n true
  let s := s.setRod n { s.rod n with disOn := s.beam.t, faultAt := s.beam.t }
  s.ev (pPROT n) (blk 0)

/-- One or more fault causes occur in one tick (R145, R146): the trip path fires, the bits are set,
and the rod enters FAULT with the lowest code unless it is there; a lower code in the beam tick of the entry lowers
FIRST. -/
def State.faultCause (s : State) (n : Nat) (bits : List Nat) : State :=
  match bits.min? with
  | none => s
  | some low =>
    let s := s.tripPath n
    let s := if s.rodSt n ≠ stFAULT then s.enterFault n (low + 1)
      else if s.beam.t < (s.rod n).faultAt + 640 then
        s.setReg (pPROT n) PROT.FIRST (min (s.reg (pPROT n) PROT.FIRST) (low + 1))
      else s
    s.setReg (pPROT n) PROT.CAUSE (s.reg (pPROT n) PROT.CAUSE ||| maskOf bits)

/-- Fault-cause bits of R145. -/
abbrev fcCMP : Nat := 0
abbrev fcDIDT : Nat := 1
abbrev fcDRV : Nat := 2
abbrev fcLINK : Nat := 3
abbrev fcEDGE : Nat := 4
abbrev fcUVLO : Nat := 5
abbrev fcXRANGE : Nat := 6
abbrev fcSGR : Nat := 7
abbrev fcSW : Nat := 8
abbrev fcDESCTMO : Nat := 9
abbrev fcPCFAST : Nat := 10
abbrev fcPCSLOW : Nat := 11
abbrev fcSTRING : Nat := 12
abbrev fcCONT : Nat := 13
abbrev fcBRK : Nat := 14
abbrev fcDIS : Nat := 15
abbrev fcDIAG : Nat := 16

/-- Descent-cause codes of R156. -/
abbrev dcSTOP : Nat := 1
abbrev dcLOCK : Nat := 2
abbrev dcSTALE : Nat := 3
abbrev dcTIMEOK : Nat := 4
abbrev dcXCHK : Nat := 5
abbrev dcCMP : Nat := 6
abbrev dcTHERMAL : Nat := 7
abbrev dcSPD : Nat := 8

/-- Entry to DISCHARGE, from any state (R149): contactor commanded open, STEP = CONT_OPEN. -/
def State.enterDischarge (s : State) (n : Nat) : State :=
  let s := ((s.setRodSt n stDISCHARGE).setPrech n false).setCont n false
  let s := s.setStep n spCONTOPEN
  let x := s.rod n
  let s := s.setRod n { x with diagStep := 0, diagV := [], testSrc := none, xchk := [0, 0, 0] }
  if x.testSrc.isSome then s.send (.testSource n none) else s

/-- Entry to GATES_OFF (R149): the breaker is commanded open. -/
def State.enterGatesOff (s : State) (n : Nat) : State :=
  let s := (s.setRodSt n stGATESOFF).setBrk n false
  let s := s.setStep n spNONE
  s.setRod n { s.rod n with xchk := [0, 0, 0], quietFrames := 0 }

/-- A descent cause occurs (R149, R156). -/
def State.descentCause (s : State) (n code : Nat) : State :=
  let st := s.rodSt n
  if st = stRUN then
    let s := s.setRodSt n stDESCENT
    let s := (s.set (pPROT n) PROT.STATUS_DESC_CAUSE code).setB (pPROT n) PROT.STATUS_DESC_SPD
      (decide (code ≠ dcSTOP))
    s.setRod n { s.rod n with
      descAt := s.beam.t, descDf0 := s.reg (pLOOP n) LOOP.DFACT, quietFrames := 0, descFrames := 0
      lostFrames := 0, spdIref := s.reg (pLOOP n) LOOP.IREF_D
      spd := decide (code ≠ dcSTOP), spdAt := s.beam.t }
  else if st = stDESCENT then
    if s.get (pPROT n) PROT.STATUS_DESC_CAUSE = dcSTOP ∧ code ≠ dcSTOP then
      let s := (s.set (pPROT n) PROT.STATUS_DESC_CAUSE code).set (pPROT n) PROT.STATUS_DESC_SPD 1
      s.setRod n { s.rod n with spd := true, spdAt := s.beam.t, spdIref := s.reg (pLOOP n) LOOP.IREF_D }
    else s
  else if st = stPRECHARGE then s.enterDischarge n
  else if st = stREADY then
    if (s.rod n).brk then s.enterGatesOff n else s.enterDischarge n
  else s

/-- The rods of a device. -/
def allRods : List Nat := List.range 24

/-- After a change from `s0` to `s`: where the device has left fine lock, or a step has begun to
wait, the descent cause LOCK on every rod (R15, R80, R156).  A change of fine lock places beads anew
(R294, R295), and gaining it may start a lease and the homes' roles (R282, R292). -/
def State.lockCheck (s0 s : State) : State :=
  if s0.fineLock && !s.fineLock then
    (allRods.foldl (fun s n => s.descentCause n dcLOCK) s).placeRun
  else if !s0.fineLock && s.fineLock then s.placeRun.beadStart.homeRoles
  else s

/-- Whether every rod is in a state in which a step may apply (R80). -/
def State.gatesOff (s : State) : Bool :=
  allRods.all (fun n =>
    decide (s.rodSt n = stOFF ∨ s.rodSt n = stGATESOFF ∨ s.rodSt n = stDISCHARGE ∨
      s.rodSt n = stFAULT))

/-- GLK position `p` of rod `n` in LINK_EN. -/
def State.linkEn (s : State) (n p : Nat) : Bool := (s.get (pGLK n) GLK.CTL_LINK_EN).testBit p

/-- Whether the SGR block of a rod is active (R393). -/
def State.sgrBlock (s : State) (n : Nat) : Bool := s.bit pSAFE SAFE.SGR_MAP n

/-! ## Result slots -/

/-- Result code of slot `i` of field die `k` (R183: W0[15:0], signed). -/
def State.slotVal (s : State) (k i : Nat) : Int := sxt 16 (s.reg (pACQ k) (ACQ.SLOT_W0 i))

/-- V_dc of a rod in codes (R149 "Precharge": sum of the slots SLOT_B.VUP and SLOT_B.VLO). -/
def State.vdc (s : State) (n : Nat) : Int :=
  s.slotVal (n / 6) (s.get (pPROT n) PROT.SLOT_B_VUP) +
    s.slotVal (n / 6) (s.get (pPROT n) PROT.SLOT_B_VLO)

/-- V_s of a rod on the DC-link scale: code × VS_GAIN / 4,096. -/
def State.vs (s : State) (n : Nat) : Int :=
  s.slotVal (n / 6) (s.get (pPROT n) PROT.SLOT_A_VS) * (s.get (pPROT n) PROT.VSCALE_VS_GAIN : Int) / 4096

/-- Whether the DC link is below DIS_VSAFE (R155). -/
def State.dcSafe (s : State) (n : Nat) : Bool :=
  decide (s.vdc n < (s.get (pPROT n) PROT.VSCALE_DIS_VSAFE : Int))

end Sys2Proof.Machine
end

