-- ==== Sys2Proof/Machine/AcqCore.lean ====
section
/-! DEFINITION. Converter records, and what a beam step does to the converters (spec/07, R172 to
R182). -/

namespace Sys2Proof.Machine

/-- The record of converter `c` of field die `k`. -/
def State.conv (s : State) (k c : Nat) : ConvX := tabGet (fun _ => {}) s.convs (k * 12 + c)

/-- Store the record of a converter. -/
def State.setConv (s : State) (k c : Nat) (x : ConvX) : State :=
  { s with convs := tabPut (fun _ => {}) s.convs (k * 12 + c) x }

/-- Whether the sequencer of a converter is enabled. -/
def State.seqEn (s : State) (k c : Nat) : Bool := s.flag (pACQ k) (ACQ.SEQ_CFG_EN c)

/-- Count lost triggers (R181). -/
def State.trigLost (s : State) (k c n : Nat) : State :=
  if n = 0 then s
  else (s.incF (pACQ k) (ACQ.CNT0_TRIG_LOST c) n).ev (pACQ k) (blk 13)

/-- PEND0 and PEND1 of CSTAT. -/
def State.showPend (s : State) (k c : Nat) : State :=
  let l := (s.conv k c).pend
  (s.setB (pACQ k) (ACQ.CSTAT_PEND0 c) (l.any (fun e => e.src == 0))).setB (pACQ k)
    (ACQ.CSTAT_PEND1 c) (l.any (fun e => e.src == 1))

/-- All converters: field die, converter. -/
def allConvs : List (Nat × Nat) := (List.range 4).flatMap (fun k => (List.range 12).map (fun c => (k, c)))

/-- A beam step from beam time `t0` to `t1` (R181): pending triggers with instants before the step,
and one taken whose conversion has not started, are discarded and counted; each free point moves by
the step.  Later events and timed captures (R188) count from the new time. -/
def State.acqStep (s : State) (t0 t1 : Nat) : State :=
  let d : Int := ((t1 : Int) - t0) / 40
  let mv (t : Nat) : Nat := ((t : Int) + d).toNat
  let s := { s with digs := s.digs.map (fun e => (e.1, { e.2 with armedAt := t1 })) }
  allConvs.foldl (fun s e =>
    let x := s.conv e.1 e.2
    if x = {} then s
    else
      let keep := x.pend.filter (fun p => decide (t0 ≤ p.t * 40))
      let taken := x.ref.isSome && x.cur.isNone && decide (x.repDone = 0)
      let lost := x.pend.length - keep.length + b2n taken
      let s := s.setConv e.1 e.2 { x with
        pend := keep, ref := if taken then none else x.ref,
        free := mv x.free, seqFree := mv x.seqFree, since0 := t1, since1 := t1 }
      ((s.trigLost e.1 e.2 lost).showPend e.1 e.2)) s

end Sys2Proof.Machine
end

