-- ==== Sys2Proof/Machine/InjCore.lean ====
section
/-! DEFINITION. Fault-injection points and their delivery (spec/23, R569 to R571). -/

namespace Sys2Proof.Machine

/-- The life-cycle state (LIFE.STATE): DEPLOYED is 2. -/
def State.lifeSt (s : State) : Nat := s.reg pLIFE LIFE.STATE % 8

/-- The rods of every enabled connection of the safe messages. -/
def State.rxcRods (s : State) : Nat :=
  (List.range 16).foldl (fun m j =>
    if s.flag pSAFE (SAFE.RXC_CFG_EN j) then m ||| s.reg pSAFE (SAFE.RXC_RODS j) % 2 ^ 24 else m) 0

/-- The catalogue (R569): `none` for a point that is not in it; else the rods of a point that feeds
safety, `some none` for one that does not. -/
def State.injPoint (s : State) (p k : Nat) : Option (Option Nat) :=
  match pageType p with
  | some .prot => if k < 3 then some none else if k = 3 then some (some (2 ^ pageInst p)) else none
  | some .glk => if k < 2 then some none else if k = 2 then some (some (2 ^ pageInst p)) else none
  | some .safe =>
    if k < 8 then some (some (s.get pSAFE (SAFE.IN_CFG_RODS k)))
    else if k = 8 ∨ k = 9 ∨ k = 11 then some (some s.rxcRods)
    else if k = 10 then some (some (s.get pSAFE (SAFE.OUT_CFG_RODS 0)))
    else none
  | some .spair => if k < 4 then some (some (2 ^ 24 - 1)) else none
  | some .acq => if k < 2 then some none else none
  | some .fab => if k < 2 then some none else none
  | some .therm =>
    if k = 0 then some none
    else if k = 1 then
      some (some (s.get pTHERM (THERM.GRP_CFG_RODS (s.get pTHERM (THERM.TS_CFG_GROUP 0)))))
    else none
  | some .mbus | some .apc | some .beam | some .cea | some .nvme => if k = 0 then some none else none
  | _ => none

/-- Whether R571 lets a point of these rods be armed or delivered: in DEPLOYED, only while every rod
has the SGR block. -/
def State.injSafe (s : State) (rods : Option Nat) : Bool :=
  match rods with
  | some m => decide (s.lifeSt ≠ 2) || decide (m &&& s.reg pSAFE SAFE.SGR_MAP = m)
  | none => true

/-- Count an arming or a delivery refused (R570, R571). -/
def State.injDeny (s : State) (p : Nat) : State :=
  (((s.setReg p PG.INJ 0).err p 7).incSat pINJ INJ.DENIED_CNT).ev pINJ (blk 1)

/-- Whether a point is armed. -/
def State.injArmed (s : State) (p k : Nat) : Bool :=
  decide (s.get p PG.INJ_POINT = k) && decide (s.get p PG.INJ_SHOTS ≠ 0)

/-- An occurrence that the catalogue names for a point: whether an injection is delivered (R570,
R571). -/
def State.injTake (s : State) (p k : Nat) : Bool × State :=
  if !s.injArmed p k then (false, s)
  else
    match s.injPoint p k with
    | none => (false, s)
    | some rods =>
      if !s.injSafe rods then (false, s.injDeny p)
      else
        let s := s.set p PG.INJ_SHOTS (s.get p PG.INJ_SHOTS - 1)
        let s := (s.inc p PG.INJ_CNT).incSat pINJ INJ.DELIV_CNT
        let s := s.setReg pINJ INJ.LAST (2 ^ 31 + k * 2 ^ 16 + p)
        (true, (s.setReg pINJ INJ.LAST_NS s.ns).ev pINJ (blk 0))

/-- The pages of the catalogue. -/
def injPages : List Nat :=
  (pageMap.filter (fun r => [PType.prot, .glk, .safe, .spair, .acq, .fab, .mbus, .therm, .apc, .beam, .cea,
    .nvme].contains r.ty)).flatMap (fun r => (List.range r.count).map (r.first + ·))

/-- Disarm every point of the device (R570). -/
def State.injOff (s : State) : State :=
  injPages.foldl (fun s p => if s.get p PG.INJ_SHOTS = 0 then s else s.setReg p PG.INJ 0) s

/-- Rods of the armed points that feed safety, in DEPLOYED (R571: a safety reset does not clear their
LATCH bits). -/
def State.injHeld (s : State) : Nat :=
  if s.lifeSt ≠ 2 then 0
  else injPages.foldl (fun m p =>
    if s.get p PG.INJ_SHOTS = 0 then m
    else match s.injPoint p (s.get p PG.INJ_POINT) with
      | some (some r) => m ||| r
      | _ => m) 0

end Sys2Proof.Machine
end

