-- ==== Sys2Proof/Machine/Mem.lean ====
section
/-! DEFINITION. The memories outside board space: LPDDR5 by APC physical address (R493) and the
common store by word (R199).  A byte or word that nothing has written reads 0. -/

namespace Sys2Proof.Machine

/-- A byte of LPDDR5. -/
def State.memByte (s : State) (a : Nat) : Byte := tabGet (fun _ => 0) s.mem a

/-- Write a byte of LPDDR5. -/
def State.setMemByte (s : State) (a : Nat) (v : Byte) : State :=
  { s with mem := tabPut (fun _ => 0) s.mem a v }

/-- Consecutive bytes of LPDDR5. -/
def State.memBytes (s : State) (a n : Nat) : List Nat := (List.range n).map (fun i => (s.memByte (a + i)).toNat)

/-- Write consecutive bytes of LPDDR5. -/
def State.setMemBytes (s : State) (a : Nat) (l : List Nat) : State :=
  (l.zipIdx).foldl (fun s x => s.setMemByte (a + x.2) (BitVec.ofNat 8 x.1)) s

/-- A little-endian number of `n` bytes in LPDDR5. -/
def State.memLE (s : State) (a n : Nat) : Nat :=
  (s.memBytes a n).foldr (fun b acc => b + 256 * acc) 0

/-- Bytes of a number, least significant first. -/
def leBytes (n x : Nat) : List Nat := (List.range n).map (fun i => x / 2 ^ (8 * i) % 256)

/-- The number that bytes spell, least significant first. -/
def ofLE (l : List Nat) : Nat := l.foldr (fun b acc => b + 256 * acc) 0

/-- Put a record into a ring in APC memory (R192): it never wraps, a pad record (`pad` of its length)
fills the rest of the ring before it, and the ring keeps room so that it is never wholly full.  `none`:
no room. -/
def State.ringPut (s : State) (base size wr rd : Nat) (rec_ : List Nat) (pad : Nat → List Nat) :
    Option (State × Nat) :=
  let n := rec_.length
  let gap := if size < wr + n then size - wr else 0
  let used := (wr + size - rd) % (max size 1)
  if size ≤ used + gap + n then none
  else
    let s := if gap = 0 then s else s.setMemBytes (base + wr) (pad gap)
    let at_ := if gap = 0 then wr else 0
    some (s.setMemBytes (base + at_) rec_, (at_ + n) % (max size 1))

/-- First and last address of LPDDR5 (R493). -/
abbrev ddrBase : Nat := 0x1000000000
abbrev ddrEnd : Nat := 0x1400000000

/-- A word of the common store. -/
def State.commonWord (s : State) (i : Nat) : Word := tabGet (fun _ => 0) s.common i

/-- Write a word of the common store. -/
def State.setCommon (s : State) (i : Nat) (v : Word) : State :=
  { s with common := tabPut (fun _ => 0) s.common i v }

end Sys2Proof.Machine
end

