-- ==== Sys2Proof/Machine/FabCore.lean ====
section
/-! DEFINITION. The Jenkihan router (spec/17, R419, R422 to R433): coordinates, routes, floods, receive
buffers, staging, virtual channels, credits and replay, and the sending of this device's own parcels. -/

namespace Sys2Proof.Machine

/-! ## Records -/

/-- The record of a link. -/
def State.fab (s : State) (l : Nat) : FabX := tabGet (fun _ => {}) s.flinks l

/-- Store the record of a link. -/
def State.setFab (s : State) (l : Nat) (x : FabX) : State :=
  { s with flinks := tabPut (fun _ => {}) s.flinks l x }

/-- Store the router's record. -/
def State.setRouter (s : State) (x : RouterX) : State := { s with router := x }

/-- What is kept of a device heard (R440). -/
def State.discOf (s : State) (a : Nat) : Option DiscX := (s.router.disc.find? (fun e => e.1 == a)).map Prod.snd

/-- Link states (FAB.STAT.STATE). -/
abbrev flDOWN : Nat := 0
abbrev flTRAIN : Nat := 1
abbrev flHELLO : Nat := 2
abbrev flRESYNC : Nat := 3
abbrev flUP : Nat := 4
abbrev flHOLD : Nat := 5
abbrev flFAULT : Nat := 6

/-- State of a link. -/
def State.fabSt (s : State) (l : Nat) : Nat := s.get (pFAB l) FAB.STAT_STATE

/-- Whether a fabric link is UP. -/
def State.linkUp (s : State) (l : Nat) : Bool := decide (s.fabSt l = flUP)

/-- Parcel kinds (R433). -/
abbrev kdTIME : Nat := 0x01
abbrev kdSAFE : Nat := 0x02
abbrev kdELECT : Nat := 0x03
abbrev kdGANG : Nat := 0x04
abbrev kdANNOUNCE : Nat := 0x08
abbrev kdBEAD : Nat := 0x09
abbrev kdBREQ : Nat := 0x10
abbrev kdBRSP : Nat := 0x11
abbrev kdTUNNEL : Nat := 0x18
abbrev kdTALLY : Nat := 0x19
abbrev kdBULK : Nat := 0x1A

/-- The VC of a kind (R433), `none` for one that is not listed. -/
def kindVc (k : Nat) : Option Nat :=
  match k with
  | 0x01 | 0x02 | 0x03 | 0x04 => some 0
  | 0x08 | 0x09 => some 1
  | 0x10 | 0x11 => some 2
  | 0x18 | 0x19 | 0x1A => some 3
  | _ => none

/-- Whether a parcel of this kind waits in its buffer for its consumer's own step. -/
def kindWaits (k : Nat) : Bool := k == kdANNOUNCE || k == kdBREQ || k == kdBRSP || k == kdBULK

/-- Credits B_v of a VC (R426). -/
def vcCredits (v : Nat) : Nat :=
  match v with
  | 0 => 4
  | 1 => 8
  | _ => 32

/-- Credits that a parcel occupies (R423). -/
def credits (len : Nat) : Nat := max 1 ((len + 15) / 16)

/-- Bytes of a parcel on the link. -/
def Parcel_bytes (p : Parcel) : Nat := 20 + 4 * p.len

/-! ## Coordinates (R419) -/

/-- Ring sizes. -/
def State.nA (s : State) : Nat := s.get pFABR FABR.ADDR_CFG_NA
def State.nB (s : State) : Nat := s.get pFABR FABR.ADDR_CFG_NB

/-- Whether FABR is configured. -/
def State.fabConf (s : State) : Bool :=
  decide (s.reg pFABR FABR.SYS_ID ≠ 0) && decide (1 ≤ s.nA) && decide (s.nA ≤ 64) && decide (1 ≤ s.nB) &&
    decide (s.nB ≤ 64) && decide (s.addr % 64 < s.nA) && decide (s.addr / 64 < s.nB)

/-- The ring size of a link's ring. -/
def State.ringOf (s : State) (l : Nat) : Nat := if l < 2 then s.nA else s.nB

/-- The address a number of steps along a ring: link 0 and 2 go +, 1 and 3 −. -/
def State.along (s : State) (addr l n : Nat) : Nat :=
  let a := addr % 64
  let b := addr / 64
  let na := max 1 s.nA
  let nb := max 1 s.nB
  match l with
  | 0 => (a + n) % na + 64 * b
  | 1 => (a + na - n % na) % na + 64 * b
  | 2 => a + 64 * ((b + n) % nb)
  | _ => a + 64 * ((b + nb - n % nb) % nb)

/-- The peer a link expects, and its link number (R419). -/
def State.neighbour (s : State) (l : Nat) : Nat := s.along s.addr l 1
def peerLink (l : Nat) : Nat := if l % 2 = 0 then l + 1 else l - 1

/-- Whether COORD_OK has been reached. -/
def State.coordOk (s : State) : Bool := s.flag pFABR FABR.STAT_COORD_OK

/-! ## Routes (R429 to R431) -/

/-- Whether the link map shows a device's link not UP; of this device, its own state. -/
def State.mapDown (s : State) (addr l : Nat) : Bool :=
  if addr = s.addr then !s.linkUp l
  else match s.discOf addr with
    | some d => !(d.links.testBit l)
    | none => false

/-- Whether a path of `n` hops from a device over links `l` shows a failed link. -/
def State.pathDown (s : State) (addr l n : Nat) : Bool :=
  (List.range n).any (fun i =>
    s.mapDown (s.along addr l i) l || s.mapDown (s.along addr l (i + 1)) (peerLink l))

/-- The link by which a parcel enters a ring (R429): A (`base` 0) or B (`base` 2), `d` steps of `n`. -/
def State.enterRing (s : State) (base d n : Nat) : Nat :=
  let plus := decide (d ≤ n - d)
  let ch := if plus then base else base + 1
  let ot := if plus then base + 1 else base
  let nc := if plus then d else n - d
  let no := if plus then n - d else d
  if s.pathDown s.addr ch nc && !s.pathDown s.addr ot no then ot else ch

/-- The direction bit of a link's ring set to the link's. -/
def dirFor (p : Parcel) (l : Nat) : Parcel :=
  if l < 2 then { p with dirA := decide (l = 1) } else { p with dirB := decide (l = 3) }

/-- Whether DISC has declared a device unreachable. -/
def State.discLost (s : State) (a : Nat) : Bool := (s.discOf a).isSome && !s.discReach a

/-- The link by which a parcel for another device leaves, and whether it enters a ring there, from the
link it came by (4: this device). -/
def State.nextLink (s : State) (p : Parcel) (lin : Nat) : Nat × Bool :=
  let na := max 1 s.nA
  let nb := max 1 s.nB
  let da := (p.dst % 64 + na - s.addr % 64) % na
  let db := (p.dst / 64 + nb - s.addr / 64) % nb
  if da ≠ 0 then
    if lin = 4 then (s.enterRing 0 da na, true) else ((if p.dirA then 1 else 0), false)
  else if lin < 2 ∨ lin = 4 then (s.enterRing 2 db nb, true)
  else ((if p.dirB then 3 else 2), false)

/-- Whether the detour bit of a link's ring is set. -/
def Parcel_det (p : Parcel) (l : Nat) : Bool := if l < 2 then p.detA else p.detB

/-- A parcel reversed in the ring of a link (R430). -/
def Parcel_reverse (p : Parcel) (l : Nat) : Parcel :=
  let q := dirFor p (peerLink l)
  if l < 2 then { q with detA := true } else { q with detB := true }

/-- Output link of a parcel under R430: the link, whether it enters a ring there, and the parcel; `none`:
it cannot be delivered. -/
def State.routeVia (s : State) (p : Parcel) (l : Nat) (enter : Bool) : State × Option (Parcel × Nat × Bool) :=
  if 2 ≤ l ∧ s.discLost (s.along s.addr 2 1) ∧ s.discLost (s.along s.addr 3 1) then (s, none)
  else if s.linkUp l then (s, some (dirFor p l, l, enter))
  else if Parcel_det p l then (s, none)
  else
    let s := s.incF pFABR FABR.ROUTE_CNT_DETOUR
    let o := peerLink l
    if s.linkUp o then (s, some (Parcel_reverse p l, o, true)) else (s, none)

/-- The route of a parcel for another device.  The source writes DIR_B too, as R445's example shows; the
device at which the parcel turns chooses again. -/
def State.routeOf (s : State) (p : Parcel) (lin : Nat) : State × Option (Parcel × Nat × Bool) :=
  let r := s.nextLink p lin
  let nb := max 1 s.nB
  let db := (p.dst / 64 + nb - s.addr / 64) % nb
  let p := if lin = 4 ∧ db ≠ 0 then { p with dirB := decide (s.enterRing 2 db nb = 3) } else p
  s.routeVia p r.1 r.2

/-- The answer a router or this device gives to a request in the place of its target (R430, R439). -/
def localAnswer (p : Parcel) (unreach loc : Bool) : Parcel :=
  { vc := 2, len := 1, kind := kdBRSP, dst := p.src, src := p.dst, tag := p.tag
    body := .bytes [6, b2n unreach + 2 * b2n loc, 0, 0] }

/-- Put a parcel of this device, or one it answers with, into the local queue; one for this device itself is
handed over. -/
def State.originate (s : State) (p : Parcel) : State :=
  let x := s.router
  if !p.flood && decide (p.dst = s.addr) && p.kind != kdTIME then
    if kindWaits p.kind then s.setRouter { x with loop := x.loop ++ [p] } else s.send (.parcel 4 p true)
  else s.setRouter { x with inj := x.inj ++ [{ p := p, fresh := true }] }

/-- A parcel that cannot be delivered (R430): a request is answered, any other is discarded. -/
def State.unreach (s : State) (p : Parcel) : State :=
  if p.kind = kdBREQ then s.originate (localAnswer p true (decide (p.src ≠ s.addr)))
  else s.incF pFABR FABR.NOROUTE_CNT_UNREACH

/-! ## Floods (R432) -/

/-- Reach of a flood in a ring. -/
def floodReach (radius n : Nat) : Nat := if radius = 0 then n - 1 else min radius (n - 1)

/-- Output links of a flood, and those by which it enters a ring, from the link it came by (4: this
device); links that are not UP are left out. -/
def State.floodOuts (s : State) (p : Parcel) (lin : Nat) : List Nat × List Nat :=
  let na := max 1 s.nA
  let nb := max 1 s.nB
  let ra := floodReach (p.dst % 64) na
  let rb := floodReach (p.dst / 64 % 64) nb
  let a := s.addr % 64
  let b := s.addr / 64
  let sa := p.src % 64 % na
  let sb := p.src / 64 % nb
  let ha := if p.dirA then (sa + na - a) % na else (a + na - sa) % na
  let hb := if p.dirB then (sb + nb - b) % nb else (b + nb - sb) % nb
  let turn := if 0 < rb then [2, 3] else []
  let r :=
    if lin = 4 then
      let e := (if 0 < ra then [0, 1] else []) ++ turn
      (e, e)
    else if lin < 2 then ((if ha < ra then [if p.dirA then 1 else 0] else []) ++ turn, turn)
    else ((if hb < rb then [if p.dirB then 3 else 2] else []), [])
  (r.1.filter s.linkUp, r.2.filter s.linkUp)

/-- Whether a flood is accepted (R432), and the memory of it. -/
def State.floodTake (s : State) (p : Parcel) : Bool × State :=
  let k := 64 * p.src + p.kind
  let old := s.router.heard.find? (fun e => e.1 == k)
  let new := match old with
    | none => true
    | some e =>
      let d := (p.tag + 65536 - e.2.1) % 65536
      (decide (0 < d) && decide (d < 32768)) || decide (1000 * unitsMs < s.beam.t - e.2.2)
  if new then
    let x := s.router
    (true, s.setRouter { x with heard := (x.heard.filter (fun e => !(e.1 == k))) ++ [(k, p.tag, s.beam.t)] })
  else (false, s)

/-! ## Buffers and credits (R426) -/

/-- Credits of the receive buffer of a VC that are occupied. -/
def occOf (rx : List FabEntry) (v : Nat) : Nat := sumN ((rx.filter (fun e => e.p.vc == v)).map (fun e => credits e.p.len))

/-- Store a link's receive buffer: RXOCC follows. -/
def State.setRx (s : State) (l : Nat) (rx : List FabEntry) : State :=
  (s.setFab l { s.fab l with rx := rx }).setReg (pFAB l) FAB.RXOCC
    (occOf rx 3 * 2 ^ 24 + occOf rx 2 * 2 ^ 16 + occOf rx 1 * 2 ^ 8 + occOf rx 0)

/-- Freed credits of a VC. -/
def State.addFreed (s : State) (l v n : Nat) : State :=
  let x := s.fab l
  s.setFab l { x with freed := x.freed.modify v (fun f => (f + n) % 65536) }

/-- The sender's count of a VC. -/
def credFld (v : Nat) : Fld := ⟨FAB.CRED, 8 * v + 7, 8 * v⟩

/-- Remove what no link and no consumer still needs from a receive buffer, freeing its credits; a
resynchronisation of the peer that waits for the buffers is answered (R427). -/
def State.sweep (s : State) (l : Nat) : State :=
  let x := s.fab l
  let gone := x.rx.filter (fun e => e.outs.isEmpty && !e.wait)
  let s := if gone.isEmpty then s
    else gone.foldl (fun (s : State) e => s.addFreed l e.p.vc (credits e.p.len))
      (s.setRx l (x.rx.filter (fun e => !(e.outs.isEmpty && !e.wait))))
  let x := s.fab l
  match x.req with
  | none => s
  | some (mask, next) =>
    if (x.rxNext + 4096 - next) % 4096 < 2048 ∧ x.rx.all (fun e => !(mask.testBit e.p.vc)) then
      (s.setFab l { x with req := none }).send (.lcf l (.resyncAck mask x.freed))
    else s

/-! ## Staging and sending (R428) -/

/-- The parcels of a source: link 0 to 3, or 4 for the local queue. -/
def State.srcList (s : State) (j : Nat) : List FabEntry := if j < 4 then (s.fab j).rx else s.router.inj

/-- Store the parcels of a source. -/
def State.setSrc (s : State) (j : Nat) (l : List FabEntry) : State :=
  if j < 4 then (s.setRx j l).sweep j
  else s.setRouter { s.router with inj := l.filter (fun e => e.fresh || !e.outs.isEmpty) }

/-- Whether staging toward a link has room for a parcel (R428). -/
def State.stageRoom (s : State) (o : Nat) (e : FabEntry) : Bool :=
  let v := e.p.vc
  let used := sumN (((s.fab o).stg.filter (fun p => p.vc == v)).map (fun p => credits p.len))
  let need := used + credits e.p.len + (if e.enter.contains o then vcCredits v else 0)
  decide (need ≤ 2 * vcCredits v)

/-- The parcel of a source that is next toward a link on a VC. -/
def nextFor (l : List FabEntry) (o v : Nat) : Option Nat :=
  l.findIdx? (fun e => e.p.vc == v && e.outs.contains o && !e.fresh)

/-- Move one parcel into the staging toward a link, sources of a VC in round robin; `none`: none can
move. -/
def State.stageOne (s : State) (o v : Nat) : Option State :=
  let last := (s.fab o).served.getD v 0
  let order := (List.range 5).map (fun i => (last + 1 + i) % 5)
  order.findSome? (fun j =>
    let l := s.srcList j
    match nextFor l o v with
    | none => none
    | some i =>
      match l[i]? with
      | none => none
      | some e =>
        if s.stageRoom o e then
          let s := s.setSrc j (l.set i { e with outs := e.outs.filter (· != o) })
          let x := s.fab o
          some (s.setFab o { x with stg := x.stg ++ [dirFor e.p o], served := x.served.set v j })
        else none)

/-- The time stamp of a TIME parcel is that of its start block (R417, R434). -/
def State.stampTime (s : State) (p : Parcel) : Parcel :=
  match p.body with
  | .bytes b =>
    if p.kind = kdTIME then
      { p with body := .bytes (leBytes 6 s.sec ++ leBytes 4 s.ns ++ leBytes 1 s.frac ++ b.drop 11) }
    else p
  | _ => p

/-- The sending time of a TIME frame is kept by its number (R434); the last eight are enough for a peer that answers
every frame. -/
def State.noteTime (s : State) (l : Nat) (p : Parcel) : State :=
  match p.body with
  | .bytes b =>
    if p.kind = kdTIME then
      let x := s.fab l
      s.setFab l { x with timeTx := ((ofLE ((b.drop 0x1C).take 2), s.beam.t) :: x.timeTx).take 8 }
    else s
  | _ => s

/-- Send one parcel on a link for the first time (R425, R426): numbered, debited, kept for replay. -/
def State.transmit (s : State) (l i : Nat) (p : Parcel) : State :=
  let x := s.fab l
  let p := { s.stampTime p with lsn := x.txNext }
  let s := s.setFab l { x with stg := x.stg.eraseIdx i, txNext := (x.txNext + 1) % 4096, unacked := x.unacked ++ [p] }
  let s := s.noteTime l p
  let s := s.set (pFAB l) (credFld p.vc) (s.get (pFAB l) (credFld p.vc) - credits p.len)
  let r := (s.inc (pFAB l) FAB.TXCNT).injTake (pFAB l) 0
  r.2.send (.parcel l p (!r.1))

/-- Bytes in the replay buffer. -/
def replayBytes (l : List Parcel) : Nat := sumN (l.map Parcel_bytes)

/-- The first staged parcel of a VC that its credits and the replay buffer let go. -/
def State.sendable (s : State) (l v : Nat) : Option (Nat × Parcel) :=
  let x := s.fab l
  match x.stg.findIdx? (fun p => p.vc == v) with
  | none => none
  | some i =>
    match x.stg[i]? with
    | none => none
    | some p =>
      if credits p.len ≤ s.get (pFAB l) (credFld v) ∧ x.unacked.length < 2048 ∧
          replayBytes x.unacked + Parcel_bytes p ≤ 65536 then some (i, p) else none

/-- Send one parcel on a link in order of priority (R428): VC0, VC1, then VC2 and VC3 by weight. -/
def State.sendOne (s : State) (l : Nat) : Option State :=
  if !s.linkUp l then none
  else
    match s.sendable l 0, s.sendable l 1, s.sendable l 2, s.sendable l 3 with
    | some r, _, _, _ => some (s.transmit l r.1 r.2)
    | none, some r, _, _ => some (s.transmit l r.1 r.2)
    | none, none, some r, none => some (s.transmit l r.1 r.2)
    | none, none, none, some r => some (s.transmit l r.1 r.2)
    | none, none, some r, some q =>
      let x := s.fab l
      let w := s.get pFABR FABR.ARB_W2
      let r := if x.turn < (if w = 0 then 8 else w) then r else q
      some ((s.setFab l { x with turn := (x.turn + 1) % 16 }).transmit l r.1 r.2)
    | none, none, none, none => none

/-- One move of the router: a parcel sent, or one staged. -/
def State.routerMove (s : State) : Option State :=
  match (List.range 4).findSome? (fun l => s.sendOne l) with
  | some t => some t
  | none =>
    (List.range 4).findSome? (fun o =>
      if s.linkUp o then (List.range 4).findSome? (fun v => s.stageOne o v) else none)

/-- Moves until none is left. -/
def pumpLoop : Nat → State → State
  | 0, s => s
  | n + 1, s =>
    match s.routerMove with
    | none => s
    | some t => pumpLoop n t

/-- Choose the routes of the local queue's new parcels. -/
def State.routeFresh (s : State) : State :=
  let q := s.router.inj
  let s := s.setRouter { s.router with inj := [] }
  q.foldl (fun (s : State) e =>
    let add (e : FabEntry) (s : State) : State := s.setRouter { s.router with inj := s.router.inj ++ [e] }
    if !e.fresh then add e s
    else if e.p.flood then
      let r := s.floodOuts e.p 4
      if r.1.isEmpty then s else add { p := e.p, outs := r.1, enter := r.2 } s
    else
      let r := s.routeOf e.p 4
      match r.2 with
      | some (p, o, en) => add { p := p, outs := [o], enter := if en then [o] else [] } r.1
      | none => r.1.unreach e.p) s

/-- Everything that can move moves; before COORD_OK only link control frames are sent (R421). -/
def State.pump (s : State) : State :=
  if !s.coordOk then s
  else
    let s := s.routeFresh.routeFresh
    let n := (List.range 5).foldl (fun n j => n + sumN ((s.srcList j).map (fun e => 2 * e.outs.length))) 0
    let m := (List.range 4).foldl (fun n l => n + (s.fab l).stg.length) 0
    pumpLoop (n + m) s

/-! ## This device's own parcels (R432, R433) -/

/-- Send a parcel to a device. -/
def State.fabSend (s : State) (kind dst : Nat) (body : FabBody) (len : Nat) (tag : Nat := 0)
    (wake : Bool := false) : State :=
  (s.originate { vc := (kindVc kind).getD 0, wake := wake, len := len, kind := kind, dst := dst, src := s.addr
                 tag := tag, body := body }).pump

/-- Words of a body of bytes. -/
def bodyWords (l : List Nat) : Nat := (l.length + 3) / 4

/-- Send bytes to a device. -/
def State.fabBytes (s : State) (kind dst : Nat) (l : List Nat) : State :=
  s.fabSend kind dst (.bytes l) (bodyWords l)

/-- Send a message whose length the manual does not give: 1 to 128 words (R433). -/
def State.fabOpen (s : State) (dst : Nat) (body : FabBody) : State :=
  let r := s.free
  r.2.fabSend kdBEAD dst body (r.1 % 128 + 1)

/-- Flood bytes within radii A and B (R432). -/
def State.fabFlood (s : State) (kind radius : Nat) (l : List Nat) : State :=
  let x := s.router
  let n := ((x.fseq.find? (fun e => e.1 == kind)).map Prod.snd).getD 0
  let s := s.setRouter { x with fseq := (x.fseq.filter (fun e => !(e.1 == kind))) ++ [(kind, (n + 1) % 65536)] }
  (s.originate { vc := (kindVc kind).getD 0, flood := true, len := bodyWords l, kind := kind, dst := radius
                 src := s.addr, tag := n, body := .bytes l }).pump

/-- Send a TIME parcel on one link (R434): neighbour only, TTL 1. -/
def State.fabTime (s : State) (l : Nat) (info hops maddr : Nat) : State :=
  let x := s.fab l
  let r := x.timeRx
  let b := leBytes 6 s.sec ++ leBytes 4 s.ns ++ leBytes 1 s.frac ++ leBytes 1 info ++ leBytes 2 maddr ++
    leBytes 1 hops ++ [0] ++ leBytes 6 (r.2 / 256 / 1000000000) ++ leBytes 4 (r.2 / 256 % 1000000000) ++
    leBytes 1 (r.2 % 256) ++ [0] ++ leBytes 2 x.timeSeq ++ leBytes 2 r.1
  let s := s.setFab l { x with timeSeq := (x.timeSeq + 1) % 65536 }
  let p : Parcel := { vc := 0, len := 8, kind := kdTIME, ttl := 1, dst := s.neighbour l, src := s.addr, body := .bytes b }
  (s.setRouter { s.router with inj := s.router.inj ++ [{ p := p, outs := [l], enter := [l] }] }).pump

end Sys2Proof.Machine
end

