-- ==== Sys2Proof/Machine/MbusTx.lean ====
section
/-! DEFINITION. The CAN FD controllers: their records and states, and what they offer to the bus
(spec/14, R327 to R330, R335). -/

namespace Sys2Proof.Machine

/-! ## Records and states -/

/-- The record of a controller. -/
def State.mb (s : State) (n : Nat) : MbX := tabGet (fun _ => {}) s.mbus n

/-- Store the record of a controller. -/
def State.setMb (s : State) (n : Nat) (x : MbX) : State := { s with mbus := tabPut (fun _ => {}) s.mbus n x }

/-- Controller states (MBUS.STAT.STATE). -/
abbrev mbOFF : Nat := 0
abbrev mbDETECT : Nat := 1
abbrev mbACTIVE : Nat := 2
abbrev mbBUSOFF : Nat := 3
abbrev mbSLEEPING : Nat := 4
abbrev mbASLEEP : Nat := 5

/-- State of a controller. -/
def State.mbSt (s : State) (n : Nat) : Nat := s.get (pMBUS n) MBUS.STAT_STATE

/-- Whether the engine works on a controller. -/
def State.mpeOn (s : State) (n : Nat) : Bool := s.flag (pMBUS n) MBUS.MPE_CFG_MPE_EN

/-- A change of state: STATE_CHG, MPE_ACTIVE and LISTEN_ONLY (R330). -/
def State.setMbSt (s : State) (n st : Nat) : State :=
  let p := pMBUS n
  if s.mbSt n = st then s
  else
    let s := (s.set p MBUS.STAT_STATE st).ev p (blk 2)
    let s := s.setB p MBUS.STAT_MPE_ACTIVE (s.mpeOn n && decide (st ≠ mbOFF))
    s.setB p MBUS.STAT_LISTEN_ONLY
      (decide (st = mbDETECT) || (decide (st = mbACTIVE) && s.flag p MBUS.CTL_LISTEN))

/-- Show the error counters and the error state (R329). -/
def State.showEcr (s : State) (n : Nat) : State :=
  let x := s.mb n
  let s := s.setReg (pMBUS n) MBUS.ECR (min x.tec 255 * 65536 + min x.rec_ 255)
  s.set (pMBUS n) MBUS.STAT_ESTATE
    (if s.mbSt n = mbBUSOFF then 2 else if 127 < x.tec ∨ 127 < x.rec_ then 1 else 0)

/-- RX0 and RX1 stay set while their queue holds frames (R326). -/
def State.mbusLevels (s : State) (n : Nat) : State :=
  let x := s.mb n
  let s := if x.q0 ≠ [] ∧ !s.mpeOn n then s.ev (pMBUS n) (blk 0) else s
  if x.q1 ≠ [] ∧ !s.mpeOn n then s.ev (pMBUS n) (blk 1) else s

/-! ## Transmission (R327) -/

/-- The TIME_REF identifier. -/
abbrev trefId : Nat := 0x01FF6000

/-- Arbitration order: the lower identifier wins, a base identifier before an extended one. -/
def arbKey (f : CanFrame) : Nat := 2 * f.id + b2n f.ide

/-- What wins the next arbitration of the controller: the lowest identifier of the slot and the
FIFO's head. -/
def MbX.winner (x : MbX) : Option TxSrc :=
  let c := (if x.slotRef then [(TxSrc.ref, 2 * trefId + 1)] else []) ++
    x.acks.mapIdx (fun i f => (TxSrc.ack i, arbKey f)) ++
    (match x.fifo with
    | f :: _ => [(TxSrc.head, arbKey f)]
    | [] => [])
  match (c.map Prod.snd).min? with
  | none => none
  | some m => (c.find? (fun e => e.2 == m)).map Prod.fst

/-- Whether the controller may transmit. -/
def State.mbTx (s : State) (n : Nat) : Bool :=
  (decide (s.mbSt n = mbACTIVE) || decide (s.mbSt n = mbSLEEPING)) && !s.flag (pMBUS n) MBUS.CTL_LISTEN &&
    !s.flag (pMBUS n) PG.STAT_SHUTTING

/-- An arbitration begins: the frame that is offered. -/
def State.arbitrate (s : State) (n : Nat) : State :=
  s.setMb n { s.mb n with offer := if s.mbTx n then (s.mb n).winner else none }

/-- A frame becomes ready: it is offered at once where none is. -/
def State.offerNew (s : State) (n : Nat) : State := if (s.mb n).offer.isNone then s.arbitrate n else s

/-- A TIME_REF falls due (R335): the slot takes it while the controller is ACTIVE and TREF_CFG.EN is
1. -/
def State.timeRefDue (s : State) (n : Nat) : State :=
  if s.mbSt n = mbACTIVE ∧ s.flag (pMBUS n) MBUS.TREF_CFG_EN then
    (s.setMb n { s.mb n with slotRef := true }).offerNew n
  else s

/-- A beam step makes a TIME_REF due on every segment (R335). -/
def State.timeRefAll (s : State) : State := (List.range 32).foldl (fun s n => s.timeRefDue n) s

end Sys2Proof.Machine
end

