-- ==== Sys2Proof/Machine/ThermCore.lean ====
section
/-! DEFINITION. The thermal watch's sensors, the rods its latches name, the restart of its means at a
beam step (spec/15, R365, R370), and entries that wait for the CF event area (R372, R554). -/

namespace Sys2Proof.Machine

/-- A temperature sensor: thermal sense input 0 to 63, or 64 + MODIDX × 16 + sensor. -/
def State.sens (s : State) (k : Nat) : SensX := tabGet (fun _ => {}) s.sensors k

/-- Store a sensor. -/
def State.setSens (s : State) (k : Nat) (x : SensX) : State :=
  { s with sensors := tabPut (fun _ => {}) s.sensors k x }

/-- The rods that the set latches name (R370). -/
def State.thermRods (s : State) : Nat :=
  let rods (g : Nat) : Nat := s.get pTHERM (THERM.GRP_CFG_RODS g)
  let ts := s.reg pTHERM THERM.TRIP_LATCH_LO + s.reg pTHERM THERM.TRIP_LATCH_HI * 2 ^ 32
  let m := (bitsSet 64 ts).foldl (fun m i => m ||| rods (s.get pTHERM (THERM.TS_CFG_GROUP i))) 0
  let m := (bitsSet 8 (s.reg pTHERM THERM.GRP_LATCH)).foldl (fun m g => m ||| rods g) m
  let m := m ||| s.reg pTHERM THERM.CELL_LATCH % 2 ^ 24
  if s.get pTHERM THERM.DIE_STAT_TRIP = 0 then m else 2 ^ 24 - 1

/-- The means restart, and no rate is valid, after a step of the beam (R365). -/
def State.thermStep (s : State) : State :=
  { s with sensors := s.sensors.map (fun e => (e.1, { e.2 with sum := 0, n := 0, means := [], rate := none })) }

/-- An entry for the CF event area waits to be written. -/
def State.evtPost (s : State) (payload : List Nat) : State := { s with evtQueue := s.evtQueue ++ [payload] }

end Sys2Proof.Machine
end

