-- ==== Sys2Proof/Machine/Beam.lean ====
section
/-! DEFINITION. The beam (spec/03, R63 to R89): time base, election, lock states, imported
references, steps, carrier generators, gangs and SAMPLE_SYNC_IN. -/

namespace Sys2Proof.Machine

open Host (Outcome)

/-- The device's own fabric address (FABR.ADDR_CFG.ADDR). -/
def State.ownAddr (s : State) : Nat := s.get pFABR FABR.ADDR_CFG_ADDR

/-- Whether this device is beam master. -/
def State.isMaster (s : State) : Bool := s.flag pBEAM BEAM.STAT_IS_MASTER

/-- The correction c in ppt (R64), held in BEAM.CORR. -/
def State.corr (s : State) : Int := s.regS pBEAM BEAM.CORR

/-- The clamp of c: ±200 ppm (R64). -/
abbrev corrClamp : Int := 200000000

/-- One tick of the beam clock (R64): the phase accumulator advances by 2.5 ns × (1 + c). -/
def State.beamTick (s : State) : State :=
  let x := (640 * (1000000000000 + s.corr) + (s.beam.rem : Int)).toNat
  (s.setBeam { s.beam with
      t := (s.beam.t + x / 1000000000000) % (2 ^ 48 * 256000000000), rem := x % 1000000000000 })

/-- A lock-state transition (R74): LOCK takes its value and LOCK_CHG is set. -/
def State.setLock (s : State) (v : Nat) : State := (s.set pBEAM BEAM.STAT_LOCK v).ev pBEAM (blk 0)

/-- LOCK_LOSS counts an exit from fine lock. -/
def State.lockLoss (s : State) : State := s.setReg pBEAM BEAM.LOCK_LOSS (min (s.reg pBEAM BEAM.LOCK_LOSS + 1) 0xFFFF)

/-- STAT.CLASS from the valid sources (R70), and CROSS_SITE of a master (R78). -/
def State.refreshClass (s : State) : State :=
  let pps := s.flag pBEAM BEAM.STAT_PPS_VALID
  let ptp := s.flag pBEAM BEAM.STAT_PTP_VALID
  let c := if pps then (if ptp then 0 else 1) else (if ptp then 2 else 3)
  let s := s.set pBEAM BEAM.STAT_CLASS c
  if s.isMaster then
    s.setB pBEAM BEAM.STAT_CROSS_SITE (pps && decide (s.get pBEAM BEAM.STAT_LOCK = 3))
  else s

/-! ## Carrier generators -/

/-- The record of a generator. -/
def State.gen (s : State) (g : Nat) : GenX := tabGet (fun _ => {}) s.gens g

/-- Store the record of a generator. -/
def State.setGen (s : State) (g : Nat) (x : GenX) : State :=
  { s with gens := tabPut (fun _ => {}) s.gens g x }

/-- The generator of a rod (ROD_MAP.GEN). -/
def State.genOf (s : State) (n : Nat) : Nat := s.get pFRAME (FRAME.ROD_MAP_GEN n)

/-- The rods of a generator. -/
def State.rodsOf (s : State) (g : Nat) : List Nat := allRods.filter (fun n => decide (s.genOf n = g))

/-- ANCHOR of a generator in seconds. -/
def State.anchor (s : State) (g : Nat) : Nat :=
  s.reg pFRAME (FRAME.CG_ANCHOR_LO g) + s.reg pFRAME (FRAME.CG_ANCHOR_HI g) % 2 ^ 16 * 2 ^ 32

/-- Number of the first point of an anchor grid at or after a time (R83, R86). -/
def gridFrom (anchorSec period t : Nat) : Nat :=
  let a := anchorSec * 256000000000
  let p := period * 40
  if t ≤ a ∨ p = 0 then 0 else (t - a + p - 1) / p

/-- A generator marks its next boundary (R83, R86): the latest load whose time has come takes effect there. -/
def GenX.mark (x : GenX) : GenX :=
  let due := (x.loads.filter (fun l => decide (l.since ≤ x.next))).getLast?
  let per := match due with
    | some l => l.period
    | none => x.period
  let mid := match due with
    | some l => l.mid
    | none => x.mid
  { x with
    next := x.next + per * 40, k := x.k + 1, period := per, mid := mid
    loads := x.loads.filter (fun l => decide (x.next < l.since))
    hist := (⟨x.next, per, mid⟩ :: x.hist).take 6, marks := x.marks + 1 }

/-- The boundary that began the period in progress; none before the first since the start or a step. -/
def GenX.last (x : GenX) : Option Nat := x.hist.head?.map GenBound.t

/-- Put a generator on its anchor grid: its next boundary is the first grid point at least 2.5 µs
from now, or ANCHOR if that is later (R81, R86); it runs, anchored. -/
def State.startGen (s : State) (g : Nat) : State :=
  let per := s.get pFRAME ⟨FRAME.CG_PERIOD g, 21, 0⟩
  let k := gridFrom (s.anchor g) per (s.beam.t + 640000)
  let next := s.anchor g * 256000000000 + k * per * 40
  let s := s.setGen g { s.gen g with
    next := next, k := k, period := per, mid := s.flag pFRAME (FRAME.CG_CTL_MID_EN g)
    loads := [], hist := [], gangStop := false }
  let s := (s.rodsOf g).foldl (fun (s : State) n => s.setRod n { s.rod n with cutU := none }) s
  let s := s.setReg pFRAME (FRAME.CG_NEXT_NS g) (next / 256 % 1000000000)
  let s := s.set pFRAME (FRAME.CG_STAT_RUNNING g) 1
  let s := s.set pFRAME (FRAME.CG_STAT_ANCHORED g) 1
  let s := s.set pFRAME (FRAME.CG_STAT_WAIT_LOCK g) 0
  s.ev pFRAME (blk 2)

/-- Stop a generator (R85, and EN = 0). -/
def State.stopGen (s : State) (g : Nat) : State :=
  let s := s.set pFRAME (FRAME.CG_STAT_RUNNING g) 0
  let s := s.set pFRAME (FRAME.CG_STAT_ANCHORED g) 0
  s.set pFRAME (FRAME.CG_STAT_WAIT_LOCK g) 0

/-- Start an enabled generator, or with CROSS = 1 let it wait: for its gang's mismatch to clear (R88) or for
fine lock (R85). -/
def State.tryStartGen (s : State) (g : Nat) : State :=
  if s.flag pFRAME (FRAME.CG_CTL_CROSS g) && s.flag pFRAME (FRAME.CG_STAT_GANG_MISMATCH g) then
    s.setGen g { s.gen g with gangStop := true }
  else if s.flag pFRAME (FRAME.CG_CTL_CROSS g) && !s.fineLock then
    s.set pFRAME (FRAME.CG_STAT_WAIT_LOCK g) 1
  else s.startGen g

/-- Whether a generator is running (R87). -/
def State.genRunning (s : State) (g : Nat) : Bool := s.flag pFRAME (FRAME.CG_STAT_RUNNING g)

/-- The generators. -/
def allGens : List Nat := List.range 24

/-- Whether a generator serves a rod outside OFF (R87). -/
def State.genBusy (s : State) (g : Nat) : Bool :=
  (s.rodsOf g).any (fun n => decide (s.rodSt n ≠ stOFF))

/-- The refusals that a FRAME commit meets under R87, as the PG_ERR.BLK bits they set: one that falls
under several cases sets the bit of each (DESIGN CHOICE, log 173). -/
def State.frameDenied (s : State) : List Nat :=
  let now (f : Fld) : Nat := s.get pFRAME f
  let then_ (f : Fld) : Nat := s.stagedGet pFRAME f
  let changed (o : Nat) : Bool := decide (s.word pFRAME o ≠ s.stagedWord pFRAME o)
  let running :=
    allRods.any (fun n => changed (FRAME.ROD_MAP n) && decide (s.rodSt n ≠ stOFF)) ||
    allGens.any (fun g =>
      (decide (now (FRAME.CG_CTL_EN g) = 1 ∧ then_ (FRAME.CG_CTL_EN g) = 0) && s.genBusy g) ||
      (s.genRunning g &&
        (changed (FRAME.CG_ANCHOR_LO g) || changed (FRAME.CG_ANCHOR_HI g) ||
         decide (now (FRAME.CG_CTL_CROSS g) ≠ then_ (FRAME.CG_CTL_CROSS g)) ||
         decide (now (FRAME.CG_CTL_GANG_ID g) ≠ then_ (FRAME.CG_CTL_GANG_ID g)) ||
         (changed (FRAME.CG_PERIOD g) && decide (now (FRAME.CG_CTL_CROSS g) = 1)))))
  let period (g : Nat) : Nat := then_ ⟨FRAME.CG_PERIOD g, 21, 0⟩
  let badPeriod := allGens.any (fun g =>
    decide (then_ (FRAME.CG_CTL_EN g) = 1 ∧ (period g < 64000 ∨ 3200000 < period g)))
  let badOffset :=
    allRods.any (fun n =>
      decide (24 ≤ then_ (FRAME.ROD_MAP_GEN n)) ||
      decide (then_ (FRAME.CG_CTL_EN (then_ (FRAME.ROD_MAP_GEN n))) = 1 ∧
        period (then_ (FRAME.ROD_MAP_GEN n)) ≤ then_ (FRAME.ROD_MAP_OFFSET n))) ||
    allGens.any (fun g =>
      decide (then_ (FRAME.CG_CTL_CROSS g) = 1 ∧ then_ (FRAME.CG_CTL_GANG_ID g) = 0))
  holds [(running, blk 0), (badPeriod, blk 1), (badOffset, blk 2)]

/-- What follows the apply point of a FRAME commit (R85, R86): generators newly enabled start or wait, as does
one that waited and now need not; generators disabled stop; a new PERIOD or MID_EN of a running one may load
2.5 µs later. -/
def State.frameApplied (s0 s : State) : State :=
  allGens.foldl (fun s g =>
    let was := s0.flag pFRAME (FRAME.CG_CTL_EN g)
    let is := s.flag pFRAME (FRAME.CG_CTL_EN g)
    if was && !is then s.stopGen g
    else if is && !s.genRunning g then s.tryStartGen g
    else if is && (decide (s0.get pFRAME ⟨FRAME.CG_PERIOD g, 21, 0⟩ ≠ s.get pFRAME ⟨FRAME.CG_PERIOD g, 21, 0⟩ ∨
        s0.get pFRAME (FRAME.CG_CTL_MID_EN g) ≠ s.get pFRAME (FRAME.CG_CTL_MID_EN g))) then
      s.setGen g { s.gen g with loads := (s.gen g).loads ++ [⟨s.beam.t + 640000,
        s.get pFRAME ⟨FRAME.CG_PERIOD g, 21, 0⟩, s.flag pFRAME (FRAME.CG_CTL_MID_EN g)⟩] }
    else s) s

/-- A generator marks a boundary (R83, R86): CG_COUNT, the load of a new PERIOD or MID_EN, and the
next boundary; a new PERIOD takes it off the anchor grid. -/
def State.markBoundary (s : State) (g : Nat) : State :=
  let x := s.gen g
  let y := x.mark
  let s := s.setReg pFRAME (FRAME.CG_COUNT g) (x.k % 2 ^ 32)
  let s := if y.period = x.period then s else s.set pFRAME (FRAME.CG_STAT_ANCHORED g) 0
  (s.setGen g y).setReg pFRAME (FRAME.CG_NEXT_NS g) (y.next / 256 % 1000000000)

/-! ## Steps -/

/-- Drop a waiting step (R80): nothing changes in the beam; a commissioning set sets
PG_ERR.BLK.SET_DENIED. -/
def State.dropStep (s : State) : State :=
  match s.beam.step with
  | none => s
  | some k =>
    let s1 := (s.setBeam { s.beam with step := none })
    let s2 := s1.set pBEAM BEAM.STAT_STEP_PENDING 0
    match k with
    | .commissioning _ => s2.err pBEAM (blk 0)
    | _ => s2

/-- Whether a step is to an imported reference: the 1PPS, or PTP. -/
def StepWait.isRef (k : StepWait) (pps : Bool) : Bool :=
  match k with
  | .reference b _ => b == pps
  | _ => false

/-- Drop the waiting step if it is of a follower. -/
def State.dropFollower (s : State) : State :=
  match s.beam.step with
  | some .follower => s.dropStep
  | _ => s

/-- Drop the waiting step if it is of a master: an imported reference or a commissioning set. -/
def State.dropMaster (s : State) : State :=
  match s.beam.step with
  | some (.reference _ _) => s.dropStep
  | some (.commissioning _) => s.dropStep
  | _ => s

/-- Apply a step (R79 to R81): the beam takes its new time, STEPPED is set, the servo's integrator is reset,
every running generator restarts on its anchor grid. -/
def State.applyStep (s : State) (k : StepWait) : State :=
  let wrap (x : Int) : Nat := (x % (2 ^ 48 * 256000000000 : Nat)).toNat
  let t := match k with
    | .follower => wrap ((s.beam.t : Int) - s.beam.offset)
    | .reference _ d => wrap ((s.beam.t : Int) + d)
    | .commissioning t => t
  let off := match k with
    | .follower => 0
    | _ => s.beam.offset
  let t0 := s.beam.t
  let s := (s.setBeam { s.beam with
    t := t, rem := 0, step := none, lastStep := some t, offset := off, integ := 0
    impPps := s.beam.impPps || k.isRef true, impPtp := s.beam.impPtp || k.isRef false
    syncEdges := [], syncFrom := t, steps := s.beam.steps + 1 })
  let s := (s.set pBEAM BEAM.STAT_STEP_PENDING 0).ev pBEAM (blk 3)
  let s := s.setRegSat pBEAM BEAM.OFFSET off
  let s := (s.acqStep t0 t).timeRefAll.thermStep
  allGens.foldl (fun s g => if s.genRunning g then s.startGen g else s) s

/-- Call a step (R80): it applies at once when every rod has its gates off, else it waits and the
device counts as below fine lock.  A step that waits already gives way to the new one (DESIGN CHOICE,
log 174). -/
def State.callStep (s : State) (k : StepWait) : State :=
  if s.gatesOff then s.applyStep k
  else
    let s1 := (s.setBeam { s.beam with step := some k })
    State.lockCheck s (s1.set pBEAM BEAM.STAT_STEP_PENDING 1)

/-! ## Lock states and mastership -/

/-- Own election tuple (R70). -/
def State.ownTuple (s : State) : Tuple :=
  ⟨s.get pBEAM BEAM.CTL_PRIO, s.get pBEAM BEAM.STAT_CLASS, s.ownAddr⟩

/-- Whether this device is a candidate (R70); one that runs degraded is none (R529). -/
def State.candidate (s : State) : Bool :=
  s.flag pBEAM BEAM.CTL_MASTER_EN && decide (s.get pBEAM BEAM.CTL_PRIO ≠ 255) && !s.flag pREST REST.STAT_DEGRADED

/-- Field-by-field order of tuples (R70). -/
def tupleLt (a b : Tuple) : Bool :=
  decide (a.prio < b.prio ∨ (a.prio = b.prio ∧ (a.cls < b.cls ∨ (a.cls = b.cls ∧ a.addr < b.addr))))

/-- The lowest tuple of a list. -/
def tupleMin : List Tuple → Option Tuple
  | [] => none
  | t :: r =>
    match tupleMin r with
    | none => some t
    | some u => if tupleLt u t then some u else some t

/-- Know a master: MASTER.ADDR and VALID, MASTER_CHG when either changes. -/
def State.setMaster (s : State) (valid : Bool) (addr : Nat) : State :=
  let chg := decide (s.flag pBEAM BEAM.MASTER_VALID ≠ valid ∨ s.get pBEAM BEAM.MASTER_ADDR ≠ addr)
  let s := (s.setB pBEAM BEAM.MASTER_VALID valid).set pBEAM BEAM.MASTER_ADDR addr
  if chg then s.ev pBEAM (blk 1) else s

/-- CMSN_HOLD takes a value (R69); its setting in FINE is an exit from fine lock (R75, R82). -/
def State.setCmsn (s : State) (b : Bool) : State :=
  let s := if b && !s.flag pBEAM BEAM.STAT_CMSN_HOLD && decide (s.get pBEAM BEAM.STAT_LOCK = 3) then s.lockLoss else s
  s.setB pBEAM BEAM.STAT_CMSN_HOLD b

/-- No parent. -/
def State.noParent (s : State) : State :=
  (s.set pBEAM BEAM.MASTER_PARENT 7).set pBEAM BEAM.MASTER_HOPS 0

/-- This device is elected master (R74): the rows "Device elected master". -/
def State.becomeMaster (s : State) : State :=
  if s.isMaster then s.setMaster true s.ownAddr
  else
    let s := s.dropFollower
    let s := (s.set pBEAM BEAM.STAT_IS_MASTER 1).noParent.setMaster true s.ownAddr
    let s := (s.setBeam { s.beam with impPps := false, impPtp := false, settled := s.corr, discAt := s.beam.t })
    let s := s.setCmsn (s.flag pBEAM BEAM.CTL_CMSN)
    let s := if s.get pBEAM BEAM.STAT_LOCK = 3 then (s.set pBEAM BEAM.STAT_HOLDOVER 0).setLock 3
      else s.setLock 2
    s.refreshClass

/-- The neighbours' offsets from a master's tree (R71, R74): of the links whose last time message names the
master, the one with the fewest hops, ties to the lowest link. -/
def State.offsetTo (s : State) (addr : Nat) : Option Int :=
  let l := s.beam.msgs.filterMap (fun m => m.filter (fun m => m.1 == addr))
  let h := (l.map (fun m => m.2.1)).min?
  (l.find? (fun m => some m.2.1 == h)).map (fun m => m.2.2)

/-- The servo starts to follow a parent with the correction it has (DESIGN CHOICE, log 175). -/
def State.servoStart (s : State) : State := s.setBeam { s.beam with integ := s.corr * 1000000 }

/-- Keep an offset in 1/256 ns and show it in OFFSET. -/
def State.setOffset (s : State) (x : Int) : State :=
  (s.setBeam { s.beam with offset := x }).setRegSat pBEAM BEAM.OFFSET x

/-- This device stops being master because a better tuple takes over (R71, R74): the offset is the one
measured towards the new master, a free value where no neighbour has named it yet.  LOCK_LOSS counts the exit
from FINE (DESIGN CHOICE, log 176). -/
def State.stopMaster (s : State) (addr : Nat) : State :=
  let s := s.dropMaster.servoStart
  let f := s.free
  let s := match s.offsetTo addr with
    | some o => s.setOffset o
    | none => f.2.setOffset (sxt 32 f.1)
  let s := s.set pBEAM BEAM.STAT_IS_MASTER 0
  let s := (s.set pBEAM BEAM.STAT_CMSN_HOLD 0).set pBEAM BEAM.STAT_CROSS_SITE 0
  let s := if s.get pBEAM BEAM.STAT_LOCK = 3 then s.lockLoss else s
  s.setLock (if s.beam.offset.natAbs ≤ 256000 then 2 else 1)

/-- Take a device as master (R71, R442). -/
def State.takeMaster (s : State) (t : Tuple) : State :=
  if t.addr = s.ownAddr ∧ s.candidate then s.becomeMaster
  else
    let s := if s.isMaster then s.stopMaster t.addr else s
    let s := if s.flag pBEAM BEAM.MASTER_VALID ∧ s.get pBEAM BEAM.MASTER_ADDR = t.addr then s
      else s.noParent
    s.setMaster true t.addr

/-- The tuple known for a fabric address: the device's own, or the one heard. -/
def State.tupleOf (s : State) (addr : Nat) : Option Tuple :=
  if addr = s.ownAddr ∧ s.candidate then some s.ownTuple
  else s.beam.heard.find? (fun t => t.addr == addr)

/-- Take the lowest tuple heard, the device's own among them (R70, R442). -/
def State.electLowest (s : State) : State :=
  match tupleMin ((if s.candidate then [s.ownTuple] else []) ++ s.beam.heard) with
  | none => s
  | some t => s.takeMaster t

/-- The rows of R74 for a lost parent or master: FINE goes to holdover with c frozen, ACQUIRE and
COARSE of a follower go to FREE. -/
def State.loseParent (s : State) : State :=
  let s := s.dropFollower
  let s := s.noParent
  let l := s.get pBEAM BEAM.STAT_LOCK
  if s.isMaster then s
  else if l = 3 then
    if s.flag pBEAM BEAM.STAT_HOLDOVER then s
    else (s.set pBEAM BEAM.STAT_HOLDOVER 1).ev pBEAM (blk 0)
  else if l = 0 then s
  else s.setLock 0

/-- The gains of the servo (R73), proportional and integral, in 10⁻⁶ ppt for an offset of 1/256 ns: with
ω = 2π × bandwidth and damping 0.707, 2 × 0.707 × ω and, for one message every 1 ms, ω² × 1 ms; 10 Hz in FINE,
else 100 Hz. -/
def servoGains (fine : Bool) : Int × Int :=
  if fine then (347047813, 15421257) else (3470478135, 1542125688)

/-- The servo takes one time message (R73): a PI controller on the offset.  Which of the two neighbouring
steps of 1 ppt c takes is free; the integrator keeps within the clamp (DESIGN CHOICE, log 175). -/
def State.servo (s : State) : State :=
  let g := servoGains (decide (s.get pBEAM BEAM.STAT_LOCK = 3))
  let lim := corrClamp * 1000000
  let i := clampI (-lim) lim (s.beam.integ - g.2 * s.beam.offset)
  let x := i - g.1 * s.beam.offset
  let f := s.free
  let c := clampI (-corrClamp) corrClamp (x / 1000000 + (if x % 1000000 = 0 then 0 else (f.1 % 2 : Nat)))
  let s := f.2.setBeam { f.2.beam with integ := i }
  let s := s.setRegSat pBEAM BEAM.CORR c
  if c.natAbs = 200000000 then
    let s := s.err pBEAM (blk 2)
    if s.get pBEAM BEAM.STAT_LOCK = 3 ∧ !s.isMaster then
      ((s.set pBEAM BEAM.STAT_CORR_LIMIT 1).lockLoss).setLock 2
    else s
  else s

/-- A master disciplines itself to a reference from which its beam is off by `off` (R73): its correction moves
towards it, by how much is free, at most 0.1 ppm each second and within ±10 ppm of its settled correction, the
one it had when it became master (DESIGN CHOICE, log 175). -/
def State.discipline (s : State) (off : Int) : State :=
  let f := s.free
  let s := f.2
  let dt := min (s.beam.t - s.beam.discAt) 256000000000
  let d : Int := (f.1 % (100000 * dt / 256000000000 + 1) : Nat)
  let c := s.corr - off.sign * d
  let c := clampI (s.beam.settled - 10000000) (s.beam.settled + 10000000) c
  let c := clampI (-corrClamp) corrClamp c
  let s := (s.setBeam { s.beam with discAt := s.beam.t }).setRegSat pBEAM BEAM.CORR c
  if c.natAbs = 200000000 then s.err pBEAM (blk 2) else s

/-- A follower in ACQUIRE more than 1 µs off, without a step in the last 10 s, steps to its parent's time
(R74, R79). -/
def State.followerStep (s : State) : State :=
  let recent := match s.beam.lastStep with
    | some t => decide (t ≤ s.beam.t ∧ s.beam.t < t + 2560000000000)
    | none => false
  if decide (256000 < s.beam.offset.natAbs) && !recent && s.beam.step.isNone then
    (s.callStep .follower).ev pBEAM (blk 0)
  else s

/-- The rows of R74 that an offset decides, for a follower. -/
def State.offsetRows (s : State) : State :=
  let big := decide (256000 < s.beam.offset.natAbs)
  let l := s.get pBEAM BEAM.STAT_LOCK
  if l = 0 then s.servoStart.setLock 1
  else if l = 1 then s.followerStep
  else if big then (if l = 3 then s.lockLoss else s).setLock 1
  else s

/-! ## The commands -/

/-- A read of NOW_NS (R66): the seconds and the fraction of the same tick are latched. -/
def State.readNowNs (s : State) : State × Word :=
  let s1 := s.setReg pBEAM BEAM.NOW_NS s.ns
  let s2 := s1.setReg pBEAM BEAM.NOW_FRAC_LAT s.frac
  let s3 := s2.setReg pBEAM BEAM.NOW_SEC_LAT_LO (s.sec % 2 ^ 32)
  (s3.setReg pBEAM BEAM.NOW_SEC_LAT_HI (s.sec / 2 ^ 32), wordOf s.ns)

/-- A write of 1 to SNAP (R67): the capture of time, lock state and holdover in one tick. -/
def State.snapCapture (s : State) : State :=
  let s1 := s.setReg pBEAM BEAM.SNAP_NS s.ns
  let s2 := s1.setReg pBEAM BEAM.SNAP_INFO
    (s.frac + s.get pBEAM BEAM.STAT_LOCK * 2 ^ 8 + s.get pBEAM BEAM.STAT_HOLDOVER * 2 ^ 10)
  let s3 := s2.setReg pBEAM BEAM.SNAP_SEC_LO (s.sec % 2 ^ 32)
  s3.setReg pBEAM BEAM.SNAP_SEC_HI (s.sec / 2 ^ 32)

def execSnap (w : Writer) (s : State) : Outcome State Fault Refusal :=
  .next (finish w pBEAM (s.actionWrite w pBEAM (fun s => (s.snapCapture, .ok))))

/-- The refusal a BEAM commit meets under R68. -/
def State.beamDenied (s : State) : List Nat :=
  holds [(decide ((s.pg pBEAM).staged ≠ []) && (!s.isMaster || !s.flag pBEAM BEAM.CTL_CMSN ||
    decide (999999999 < (s.stagedWord pBEAM BEAM.SET_NS).toNat)), blk 0)]

/-- The BEAM page's apply point, a whole-second boundary (R68): a commit with staged words steps the
beam to the SET registers; one without is a barrier.  A set whose device has stopped being master
steps nothing and sets SET_DENIED (R80). -/
def State.beamSetApply (s : State) : State :=
  let x := s.pg pBEAM
  if x.applyPending then
    let s := s.applyCommit pBEAM
    if x.pending = [] then s
    else if s.isMaster then
      s.callStep (.commissioning (((s.reg pBEAM BEAM.SET_SEC_LO +
        s.reg pBEAM BEAM.SET_SEC_HI % 2 ^ 16 * 2 ^ 32) * 1000000000 + s.reg pBEAM BEAM.SET_NS) * 256))
    else s.err pBEAM (blk 0)
  else s

def execBeamSetApply (s : State) : Outcome State Fault Refusal := .next s.beamSetApply

/-- A time message on each UP link (R71), with the flags of R69 and R78. -/
def execTimeMessageTx (s : State) : Outcome State Fault Refusal :=
  let s := s.refreshClass
  .next ((List.range 4).foldl (fun s l =>
    if s.linkUp l then
      s.fabTime l
        (s.get pBEAM BEAM.STAT_LOCK % 4 + 4 * s.get pBEAM BEAM.STAT_HOLDOVER + 8 * s.get pBEAM BEAM.STAT_CMSN_HOLD +
          16 * s.get pBEAM BEAM.STAT_CROSS_SITE + 32 * s.get pBEAM BEAM.STAT_IS_MASTER)
        (s.get pBEAM BEAM.MASTER_HOPS)
        (s.get pBEAM BEAM.MASTER_ADDR + 2 ^ 15 * s.get pBEAM BEAM.MASTER_VALID)
    else s) s)

/-- The parent rule: the neighbour with the fewest hops to the master, ties to the lowest link. -/
def State.adoptParent (s : State) (l hops : Nat) : State :=
  let p := s.get pBEAM BEAM.MASTER_PARENT
  let h := s.get pBEAM BEAM.MASTER_HOPS
  if p = 7 ∨ p = l ∨ hops + 1 < h ∨ (hops + 1 = h ∧ l < p) then
    (s.set pBEAM BEAM.MASTER_PARENT l).set pBEAM BEAM.MASTER_HOPS (hops + 1)
  else s

/-- The link delay that a time message gives (R434), rounded down: half of (t4 − t1) − (t3 − t2) − ASYM; `none` where the
frame it echoes is not known. -/
def State.linkDelay (s : State) (link : Nat) (m : TimeMsg) : Option Int :=
  ((s.fab link).timeTx.find? (fun e => e.1 == m.echo)).map (fun e =>
    (((s.beam.t : Int) - e.2) - ((m.sent : Int) - m.got) - s.getS (pFAB link) ⟨FAB.ASYM, 15, 0⟩) / 2)

/-- Take the link delay of a time message: FAB.DLY holds it. -/
def State.delayTake (s : State) (link : Nat) (m : TimeMsg) : State :=
  match s.linkDelay link m with
  | some d => s.setReg (pFAB link) FAB.DLY (clampI 0 0xFFFFFFFF d).toNat
  | none => s

/-- The offset from a neighbour (R71): the own beam less the sender's time and the link delay, which without a known echo
is the last one. -/
def State.offsetFrom (s : State) (link : Nat) (m : TimeMsg) : Int :=
  (s.beam.t : Int) - m.sent - (s.linkDelay link m).getD (s.reg (pFAB link) FAB.DLY)

/-- A time message arrives (R69, R71, R73, R74, R78): link delay always; from the parent, the
offset, the flags, the lock-state rows and the servo. -/
def execTimeMessageRx (link : Fin 4) (m : TimeMsg) (s : State) : Outcome State Fault Refusal :=
  let s0 := s
  let offset := s.offsetFrom link m
  let s := s.delayTake link m
  let s := s.setBeam { s.beam with msgs := s.beam.msgs.set link (some (m.master, m.hops, offset)) }
  if s.isMaster || !s.flag pBEAM BEAM.MASTER_VALID ||
      decide (m.master ≠ s.get pBEAM BEAM.MASTER_ADDR) then .next s
  else
    let s := s.adoptParent link m.hops
    if s.get pBEAM BEAM.MASTER_PARENT ≠ link.val then .next s
    else
      let s := (s.setOffset offset).setCmsn m.cmsn
      let s := s.setB pBEAM BEAM.STAT_CROSS_SITE m.crossSite
      let s := if s.flag pBEAM BEAM.STAT_HOLDOVER then
          (s.set pBEAM BEAM.STAT_HOLDOVER 0).ev pBEAM (blk 0) else s
      .next (State.lockCheck s0 (s.offsetRows.servo))

/-- No message from the master for 3 ms (R71): a follower declares it lost and forgets its tuple; an election
follows. -/
def execMasterLoss (s : State) : Outcome State Fault Refusal :=
  if s.isMaster || !s.flag pBEAM BEAM.MASTER_VALID then .next s
  else
    let a := s.get pBEAM BEAM.MASTER_ADDR
    let r := s.loseParent.setMaster false a
    .next (State.lockCheck s (r.setBeam { r.beam with heard := r.beam.heard.filter (fun t => !(t.addr == a)) }))

/-- No message from the parent for 3 ms (R74). -/
def execParentLoss (s : State) : Outcome State Fault Refusal :=
  if s.get pBEAM BEAM.MASTER_PARENT = 7 then .next s
  else .next (State.lockCheck s s.loseParent)

/-- A candidate floods its tuple (R70, R435), once it has COORD_OK (R442). -/
def execElectTx (s : State) : Outcome State Fault Refusal :=
  if s.candidate && s.coordOk then
    .next (s.fabFlood kdELECT 0 ([s.ownTuple.prio, s.ownTuple.cls] ++ leBytes 2 s.ownTuple.addr ++ [0, 0, 0, 0]))
  else .next s

/-- A tuple is heard (R70, R71, R442): it is kept; a lower one replaces the master at once until
600 ms after RESET_L, and a lower master wins at once when parts of the fabric join. -/
def execElectRx (t : Tuple) (isMaster early : Bool) (s : State) : Outcome State Fault Refusal :=
  let s0 := s
  let s := (s.setBeam { s.beam with
    heard := (s.beam.heard.filter (fun u => !(u.addr == t.addr))) ++ [t] })
  if s.flag pBEAM BEAM.MASTER_VALID && (isMaster || early) then
    let lower := match s.tupleOf (s.get pBEAM BEAM.MASTER_ADDR) with
      | some u => tupleLt t u
      | none => false
    .next (if lower then State.lockCheck s0 (s.takeMaster t) else s)
  else .next s

/-- A candidate whose tuple has been lower than the master's for 10 s takes over (R71): a candidate known, the
device itself or one heard, with a tuple still lower. -/
def execMasterTakeover (t : Tuple) (s : State) : Outcome State Fault Refusal :=
  let lower := match s.tupleOf (s.get pBEAM BEAM.MASTER_ADDR) with
    | some u => tupleLt t u
    | none => true
  .next (if s.flag pBEAM BEAM.MASTER_VALID && s.tupleOf t.addr == some t && lower then
      State.lockCheck s (s.takeMaster t) else s)

/-- 50 ms after COORD_OK, and after a master loss, the lowest tuple heard becomes master (R442). -/
def execMasterTake (s : State) : Outcome State Fault Refusal :=
  .next (State.lockCheck s s.electLowest)

/-- ACQUIRE, offset within 1 µs for 100 ms: COARSE (R74).  A follower's waiting step is dropped. -/
def execAcquireDwell (s : State) : Outcome State Fault Refusal :=
  if s.get pBEAM BEAM.STAT_LOCK = 1 ∧ s.beam.offset.natAbs ≤ 256000 then
    .next (State.lockCheck s (s.dropFollower.setLock 2))
  else .next s

/-- COARSE follower, offset within 10 ns for 1 s and c not clamped: FINE (R74). -/
def execCoarseDwell (s : State) : Outcome State Fault Refusal :=
  if s.get pBEAM BEAM.STAT_LOCK = 2 ∧ !s.isMaster ∧ s.beam.offset.natAbs ≤ 2560 ∧
      s.corr.natAbs < 200000000 then .next (State.lockCheck s (s.setLock 3))
  else .next s

/-- A master of 2 s goes from COARSE to FINE (R74). -/
def execMasterFineDwell (s : State) : Outcome State Fault Refusal :=
  if s.get pBEAM BEAM.STAT_LOCK = 2 ∧ s.isMaster then
    .next (State.lockCheck s (s.setLock 3).refreshClass)
  else .next s

/-- FINE follower, offset above 15 ns for 10 ms: COARSE (R74). -/
def execFineLossDwell (s : State) : Outcome State Fault Refusal :=
  if s.get pBEAM BEAM.STAT_LOCK = 3 ∧ !s.isMaster ∧ 3840 < s.beam.offset.natAbs then
    .next (State.lockCheck s (s.lockLoss.setLock 2))
  else .next s

/-- The end of holdover (R74): FREE, c kept. -/
def execHoldoverExpire (s : State) : Outcome State Fault Refusal :=
  if s.get pBEAM BEAM.STAT_LOCK = 3 ∧ s.flag pBEAM BEAM.STAT_HOLDOVER then
    .next (State.lockCheck s (((s.set pBEAM BEAM.STAT_HOLDOVER 0).lockLoss).setLock 0))
  else .next s

/-- c inside ±190 ppm for 1 s clears CORR_LIMIT (R74). -/
def execCorrLimitClear (s : State) : Outcome State Fault Refusal :=
  if s.corr.natAbs < 190000000 then .next (s.set pBEAM BEAM.STAT_CORR_LIMIT 0) else .next s

/-- Whether the 1PPS, or PTP, is valid. -/
def State.refValid (s : State) (pps : Bool) : Bool :=
  s.flag pBEAM (if pps then BEAM.STAT_PPS_VALID else BEAM.STAT_PTP_VALID)

/-- The first valid 1PPS edge, or the first valid PTP time, calls a step of a master that is not yet in FINE
(R79). -/
def State.importStep (s : State) (pps : Bool) (shift : Int) : State :=
  let used := if pps then s.beam.impPps else s.beam.impPtp
  if s.isMaster && s.refValid pps && decide (s.get pBEAM BEAM.STAT_LOCK ≠ 3) && !used && s.beam.step.isNone then
    s.callStep (.reference pps shift)
  else s

/-- A step to an imported reference that has become invalid is dropped (R80). -/
def State.dropReference (s : State) (pps : Bool) : State :=
  match s.beam.step with
  | some k => if k.isRef pps then s.dropStep else s
  | none => s

/-- The 1PPS becomes invalid (R76). -/
def State.ppsInvalid (s : State) : State :=
  let s := s.setBeam { s.beam with ppsGood := 0, ppsBad := 0 }
  (s.set pBEAM BEAM.STAT_PPS_VALID 0).refreshClass.dropReference true

/-- Offset of a time from the nearest second, in 1/256 ns. -/
def secOffset (t : Nat) : Int :=
  let r := t % 256000000000
  if r < 128000000000 then (r : Int) else (r : Int) - 256000000000

/-- An edge of BEAM_PPS_IN (R73, R76, R79), with its spacing from the previous one in ns, measured on the
undisciplined crystal.  PPS_IN_ERR is the offset rounded down to ns (DESIGN CHOICE, log 177). -/
def execPpsInEdge (falling : Bool) (spacing : Option Nat) (s : State) : Outcome State Fault Refusal :=
  if !s.flag pBEAM BEAM.CTL_PPS_IN_EN || decide (s.flag pBEAM BEAM.CTL_PPS_POL ≠ falling) then .next s
  else
    let i := s.injTake pBEAM 0
    let s := i.2
    let off := secOffset (s.beam.t + (if i.1 then 512000 else 0))
    let s := s.setRegSat pBEAM BEAM.PPS_IN_ERR (off / 256)
    let good := match spacing with
      | some d => decide (999900000 ≤ d ∧ d ≤ 1000100000)
      | none => false
    let runLen := if good then min (s.beam.ppsGood + 1) 3 else 1
    let bad := s.isMaster && decide (s.get pBEAM BEAM.STAT_LOCK = 3) && decide (256000 < off.natAbs)
    let badRun := if bad then s.beam.ppsBad + 1 else 0
    if 3 ≤ badRun then .next ((s.err pBEAM (blk 1)).ppsInvalid)
    else
      let s := (s.setBeam { s.beam with ppsGood := runLen, ppsBad := badRun })
      let s := if runLen = 3 then s.set pBEAM BEAM.STAT_PPS_VALID 1 else s
      let s := s.refreshClass
      let s := if s.isMaster && s.refValid true then s.discipline off else s
      .next (s.importStep true (-off))

/-- 1.5 s without an edge (R76). -/
def execPpsTimeout (s : State) : Outcome State Fault Refusal := .next s.ppsInvalid

/-- Whether the selected port, domain and transport carry a PTP message (R77, R82). -/
def State.ptpTakes (s : State) (m : PtpMsg) : Bool :=
  let tr := s.get pBEAM BEAM.PTP_CFG_TRANSPORT
  s.flag pBEAM BEAM.CTL_PTP_EN && decide (m.port.val = s.get pBEAM BEAM.PTP_CFG_PORT ∧
    m.domain.val = s.get pBEAM BEAM.PTP_CFG_DOMAIN ∧ m.transport.val = if tr = 3 then 1 else tr)

/-- A PTP message updates the slave clock (R77).  A valid PTP time calls the master's first step (R79), of whole
seconds where the 1PPS gives the phase, and disciplines the master while no 1PPS does. -/
def execPtpMessage (m : PtpMsg) (s : State) : Outcome State Fault Refusal :=
  if !s.ptpTakes m then .next s
  else
    let s := s.setRegSat pBEAM BEAM.PTP_OFFSET m.offset
    let s := match m.utc with
      | some u => s.setReg pBEAM BEAM.PTP_UTC (2 ^ 16 + enc 16 u)
      | none => s
    let valid := m.slave && decide (m.offset.natAbs < 1000)
    let s := (s.setB pBEAM BEAM.STAT_PTP_VALID valid).refreshClass
    if valid then
      let d : Int := (m.time : Int) - s.beam.t
      let pps := s.refValid true
      let s := if s.isMaster && !pps then s.discipline (-d) else s
      .next (s.importStep false (if pps then divRound d 256000000000 * 256000000000 else d))
    else .next (s.dropReference false)

/-- The beam is called to step (R74, R79, R80). -/
def execBeamStep (r : StepReq) (s : State) : Outcome State Fault Refusal :=
  match r with
  | .follower => .next (if s.get pBEAM BEAM.STAT_LOCK = 1 ∧ !s.isMaster then s.followerStep else s)
  | .reference pps d => .next (s.importStep pps d)

/-- A waiting step applies once every rod has its gates off (R80). -/
def execStepApply (s : State) : Outcome State Fault Refusal :=
  match s.beam.step with
  | some k => .next (if s.gatesOff then s.applyStep k else s)
  | none => .next s

/-- A beam second boundary (R82): SECOND, and BEAM_PPS_OUT rises while PPS_OUT_EN = 1. -/
def execBeamSecond (s : State) : Outcome State Fault Refusal :=
  let s := s.ev pBEAM (blk 2)
  if s.flag pBEAM BEAM.CTL_PPS_OUT_EN then
    .next ((s.setBeam { s.beam with ppsOut := true }).send (.pin "BEAM_PPS_OUT" true))
  else .next s

/-- BEAM_PPS_OUT falls PPS_OUT.WIDTH ms after the boundary. -/
def execPpsOutWidthEnd (s : State) : Outcome State Fault Refusal :=
  if s.beam.ppsOut then
    .next ((s.setBeam { s.beam with ppsOut := false }).send (.pin "BEAM_PPS_OUT" false))
  else .next s

/-- Fine lock reached: a CROSS generator that waits starts (R85). -/
def execCgLockStart (g : Fin 24) (s : State) : Outcome State Fault Refusal :=
  if s.flag pFRAME (FRAME.CG_STAT_WAIT_LOCK g) && s.fineLock then .next (s.tryStartGen g) else .next s

/-- The device floods its gang entries (R88, R435): one for each generator with CROSS = 1. -/
def execGangTx (s : State) : Outcome State Fault Refusal :=
  .next (allGens.foldl (fun s g =>
    if s.flag pFRAME (FRAME.CG_CTL_CROSS g) then
      s.fabFlood kdGANG 0 (leBytes 4 (s.get pFRAME (FRAME.CG_CTL_GANG_ID g)) ++
        leBytes 4 (s.reg pFRAME (FRAME.CG_PERIOD g)) ++ leBytes 8 (s.anchor g))
    else s) s)

/-- A GANG flood is compared with the device's own entries (R88). -/
def execGangRx (id period anchor : Nat) (s : State) : Outcome State Fault Refusal :=
  .next (allGens.foldl (fun s g =>
    if s.flag pFRAME (FRAME.CG_CTL_CROSS g) ∧ s.get pFRAME (FRAME.CG_CTL_GANG_ID g) = id ∧
        (s.reg pFRAME (FRAME.CG_PERIOD g) ≠ period ∨ s.anchor g ≠ anchor) then
      let s := s.set pFRAME (FRAME.CG_STAT_GANG_MISMATCH g) 1
      let s := (s.err pFRAME (blk 3)).ev pFRAME (blk 1)
      if s.genRunning g then s
      else
        (s.setGen g { s.gen g with gangStop := true }).set pFRAME (FRAME.CG_STAT_WAIT_LOCK g) 0
    else s) s)

/-- A mismatch absent for 2 s: a gang generator that was kept stopped may start (R88). -/
def execGangMismatchClear (g : Fin 24) (s : State) : Outcome State Fault Refusal :=
  let s := s.set pFRAME (FRAME.CG_STAT_GANG_MISMATCH g) 0
  let x := s.gen g
  let s := s.setGen g { x with gangStop := false }
  .next (if x.gangStop && s.flag pFRAME (FRAME.CG_CTL_EN g) && !s.genRunning g then s.tryStartGen g
    else s)

/-- Whether SAMPLE_SYNC_IN is in use (R89): enabled, a generator named, not lost. -/
def State.syncInUse (s : State) : Bool :=
  s.flag pFRAME FRAME.SYNC_CTL_EN && decide (s.get pFRAME FRAME.SYNC_CTL_GEN < 24) && !s.beam.syncLost

/-- The window of R89 in 1/256 ns. -/
def State.syncWin (s : State) : Nat :=
  (if s.get pFRAME FRAME.SYNC_CTL_WIN = 0 then 50 else s.get pFRAME FRAME.SYNC_CTL_WIN) * 256

/-- The boundaries of SYNC_CTL.GEN whose windows an edge may meet, oldest first: the latest and the next (R89). -/
def State.syncBounds (s : State) : List Nat :=
  let g := s.get pFRAME FRAME.SYNC_CTL_GEN
  if s.genRunning g then ((s.gen g).mark.hist.map GenBound.t).reverse else []

/-- The offset of a time from the expected edge time of a boundary, the boundary plus SYNC_DLY (R89). -/
def State.syncOff (s : State) (t b : Nat) : Int :=
  (t : Int) - (b + sxt 16 (s.get pFRAME ⟨FRAME.SYNC_DLY, 15, 0⟩))

/-- An edge of SAMPLE_SYNC_IN at beam time `t` (R89): inside the window of a boundary it replaces that boundary for
sampling, the first such edge alone (DESIGN CHOICE, log 182). -/
def State.syncAccept (s : State) (t : Nat) : State :=
  match s.syncBounds.find? (fun b => decide ((s.syncOff t b).natAbs ≤ s.syncWin)) with
  | some b =>
    if !s.syncInUse || s.beam.syncEdges.any (fun e => e.1 == b) then s
    else
      let s := s.setBeam { s.beam with syncEdges := ((b, t) :: s.beam.syncEdges).take 8 }
      (s.setReg pFRAME FRAME.SYNC_ERR (encSat 16 (s.syncOff t b))).set pFRAME ⟨FRAME.SYNC_MISS, 23, 16⟩ 0
  | none => s

/-- The window of a boundary closes without an edge (R89): the miss counts, and 8 in a row lose the input. -/
def execSyncMiss (s : State) : Outcome State Fault Refusal :=
  match s.syncBounds.find? (fun b => decide (s.beam.syncFrom < b ∧ (s.syncWin : Int) < s.syncOff s.beam.t b) &&
      !s.beam.syncEdges.any (fun e => e.1 == b)) with
  | some b =>
    if s.syncInUse then
      let s := s.setBeam { s.beam with syncFrom := b }
      let s := (s.incF pFRAME ⟨FRAME.SYNC_MISS, 23, 16⟩).incF pFRAME ⟨FRAME.SYNC_MISS, 15, 0⟩
      if 8 ≤ s.get pFRAME ⟨FRAME.SYNC_MISS, 23, 16⟩ then
        .next (((s.setBeam { s.beam with syncLost := true }).err pFRAME (blk 4)).ev pFRAME (blk 0))
      else .next s
    else .next s
  | none => .next s

/-- After a write of BEAM.CTL: BEAM_PPS_OUT is low while PPS_OUT_EN = 0 (R82), PTP is not valid while
PTP_EN = 0 (R77), and the master's own CMSN_HOLD follows CMSN (R69). -/
def State.beamCtlWritten (s0 s : State) : State :=
  let s := if !s.flag pBEAM BEAM.CTL_PPS_OUT_EN && s.beam.ppsOut then
      (s.setBeam { s.beam with ppsOut := false }).send (.pin "BEAM_PPS_OUT" false) else s
  let s := if !s.flag pBEAM BEAM.CTL_PTP_EN && s.refValid false then
      (s.set pBEAM BEAM.STAT_PTP_VALID 0).refreshClass.dropReference false else s
  if s.isMaster then State.lockCheck s0 (s.setCmsn (s.flag pBEAM BEAM.CTL_CMSN)) else s

/-- A write of SYNC_CTL: EN = 0 ends the loss of R89, the count of consecutive misses stays (DESIGN CHOICE,
log 178), and a change is for the windows of boundaries after it. -/
def State.syncCtlWritten (s0 s : State) : State :=
  let same := decide (s0.reg pFRAME FRAME.SYNC_CTL = s.reg pFRAME FRAME.SYNC_CTL)
  let lost := s.beam.syncLost && s.flag pFRAME FRAME.SYNC_CTL_EN
  s.setBeam { s.beam with
    syncLost := lost, syncFrom := if same then s.beam.syncFrom else s.beam.t
    syncEdges := if same then s.beam.syncEdges else [] }

end Sys2Proof.Machine
end

