-- ==== Sys2Proof/Machine/SafeCore.lean ====
section
/-! DEFINITION. SGR and the demands for the safety functions (spec/16, R392 to R394, R399, R405, R412). -/

namespace Sys2Proof.Machine

/-- Store the record of the safety functions. -/
def State.setSafe (s : State) (x : SafeX) : State := { s with safe := x }

/-- Whether a pair fault is latched. -/
def State.pairFaulted (s : State) : Bool := s.flag pSAFE SAFE.STAT_PAIR_FAULT

/-- The conditions of SAFE_OK but the trip-path tests. -/
def State.safeBase (s : State) : Bool :=
  decide (s.lifeSt = 2) && !s.split && s.locked pSAFE && !s.flag pSAFE SAFE.STAT_PARAM_BAD && !s.pairFaulted

/-- The level commanded at SAFE_OUT `k` (R393, R394, R405). -/
def State.outLevel (s : State) (k : Nat) : Bool :=
  let rods := s.get pSAFE (SAFE.OUT_CFG_RODS k)
  s.flag pSAFE SAFE.STAT_KERNEL && !s.split && !s.pairFaulted && !s.safe.scan && !s.lowOuts && s.flag pSAFE (SAFE.OUT_CFG_EN k) &&
    !s.safe.outFault.testBit k && decide (rods &&& s.reg pSAFE SAFE.SGR_MAP = 0) &&
    (!s.flag pSAFE (SAFE.OUT_CFG_MODE k) || (decide (s.reg pSAFE SAFE.LATCH = 0) && s.safeBase))

/-- Drive the safety outputs. -/
def State.driveOuts (s : State) : State :=
  (List.range 4).foldl (fun s k =>
    let v := s.outLevel k
    if s.bit pSAFE SAFE.OUT_STAT k = v then s
    else (s.setBit pSAFE SAFE.OUT_STAT k v).send
      (.pin (["SAFE_OUT0", "SAFE_OUT1", "SAFE_OUT2", "SAFE_OUT3"].getD k "SAFE_OUT3") v)) s

/-- Apply SGR to a rod: the trip path, the block, the outputs; a latching demand raises the fault cause
SGR (R393, R394). -/
def State.applySgr (s : State) (r : Nat) (fault : Bool) : State :=
  let s := (s.setBit pSAFE SAFE.SGR_MAP r true).ev pSAFE (blk 0)
  let s := if fault then s.faultCause r [fcSGR] else s.tripPath r
  s.driveOuts

/-- What a demand records (R399): a latching one sets LATCH bits; CAUSE, CAUSE_NS and CAUSE_RODS keep the first
demand after each reset.  In split mode nothing is recorded (R412). -/
def State.demandNote (s : State) (code sub idx rods : Nat) (latching : Bool) : State :=
  if s.split ∨ rods = 0 then s
  else
    let s := if latching then s.setReg pSAFE SAFE.LATCH (s.reg pSAFE SAFE.LATCH ||| rods) else s
    let s := if s.safe.recorded then s
      else
        let s := s.setReg pSAFE SAFE.CAUSE (code * 2 ^ 24 + sub * 2 ^ 16 + idx)
        let s := s.setReg pSAFE SAFE.CAUSE_NS s.ns
        s.setReg pSAFE SAFE.CAUSE_RODS rods
    s.setSafe { s.safe with recorded := true }

/-- A demand on the rods of a mask (R399), which the next safety cycle applies.  In split mode no demand is
taken (R412). -/
def State.demand (s : State) (code sub idx rods : Nat) (spd latching : Bool) : State :=
  if s.split ∨ rods = 0 then s
  else
    let s := s.demandNote code sub idx rods latching
    let x := s.safe
    s.setSafe { x with
      pendSgr := if spd then x.pendSgr else x.pendSgr ||| rods
      pendSpd := if spd then x.pendSpd ||| rods else x.pendSpd
      pendLatch := if latching then x.pendLatch ||| rods else x.pendLatch }

/-- A latching demand for SGR that the hardware applies at once, without the kernel (R212, R412). -/
def State.demandNow (s : State) (code sub idx rods : Nat) : State :=
  (bitsSet 24 rods).foldl (fun (s : State) r => s.applySgr r true) (s.demandNote code sub idx rods true)

end Sys2Proof.Machine
end

