-- ==== Sys2Proof/Machine/GateLink.lean ====
section
/-! DEFINITION. The gate links (spec/05, R116 to R139): link states, timed edges, delay measurement,
heartbeats, faults, trips and register requests. -/

namespace Sys2Proof.Machine

open Host (Outcome)

/-- Link states (LSTAT.STATE). -/
abbrev lkOFF : Nat := 0
abbrev lkTRAIN : Nat := 1
abbrev lkSYNC : Nat := 2
abbrev lkUP : Nat := 3
abbrev lkLOST : Nat := 4

/-- State of position `p` of rod `n`. -/
def State.linkSt (s : State) (n p : Nat) : Nat := s.get (pGLK n) (GLK.LSTAT_STATE p)

/-- Set the state of a link, its bit of UP_MAP, and TIME_OK, which is 1 only in UP. -/
def State.setLinkSt (s : State) (n p st : Nat) : State :=
  let was := s.flag (pGLK n) (GLK.LSTAT_TIME_OK p)
  let s := s.set (pGLK n) (GLK.LSTAT_STATE p) st
  let s := s.setBit (pGLK n) GLK.UP_MAP p (decide (st = lkUP))
  let s := s.setB (pGLK n) (GLK.LSTAT_TIME_OK p) (decide (st = lkUP))
  if was != decide (st = lkUP) then s.ev (pGLK n) (blk 4) else s

/-- What a link keeps when it leaves its frames behind: the flags of its last heartbeat (R133). -/
def LinkX.fresh (x : LinkX) : LinkX := { prevStat := x.prevStat, deafTo := x.deafTo }

/-- Entry to TRAIN (R119, R124): SEQ restarts, the delay filter is emptied, and what was read from
the driver is forgotten. -/
def State.enterTrain (s : State) (n p : Nat) : State :=
  let s := s.setLink (n * 12 + p) (s.link (n * 12 + p)).fresh
  let s := s.setReg (pGLK n) (GLK.DLY p) 0
  s.setLinkSt n p lkTRAIN

/-- Entry to LOST (R135): LOST_CNT, the event, and the fault cause LINK_LOST of an enabled link
(R145).  From UP or SYNC, PG_ERR.BLK.LINK_LOST is set. -/
def State.enterLost (s : State) (n p : Nat) : State :=
  let old := s.linkSt n p
  let s := s.setLinkSt n p lkLOST
  let s := s.incSat (pGLK n) GLK.LOST_CNT
  let s := s.ev (pGLK n) (blk 1)
  let s := if old = lkUP ∨ old = lkSYNC then s.err (pGLK n) (blk 0) else s
  s.faultCause n [fcLINK]

/-- A link goes OFF: LINK_EN cleared, or its domain rests or resets (R135, R137). -/
def State.enterLinkOff (s : State) (n p : Nat) : State :=
  (s.setLink (n * 12 + p) (s.link (n * 12 + p)).fresh).setLinkSt n p lkOFF

/-- A GLK commit that changes LINK_EN or an ASYM outside OFF is refused (R139). -/
def State.glkDenied (s : State) (n : Nat) : List Nat :=
  let changed (o : Nat) : Bool := decide (s.word (pGLK n) o ≠ s.stagedWord (pGLK n) o)
  holds [(decide (s.rodSt n ≠ stOFF) &&
    (changed GLK.CTL || (List.range 12).any (fun p => changed (GLK.ASYM p))), blk 5)]

/-! ## Delay and time -/

/-- DLY_TOL in 1/512 ns (R139: 0 = 2 ns, else 1/16 ns). -/
def State.dlyTol2 (s : State) (n : Nat) : Nat :=
  let v := s.get (pGLK n) GLK.TIMING_DLY_TOL
  (if v = 0 then 32 else v) * 32

/-- Whether the conditions of R124 hold for a link. -/
def State.linkTimed (s : State) (n p : Nat) : Bool :=
  let x := s.link (n * 12 + p)
  let lo := x.samples.foldl min (x.samples.headD 0)
  let hi := x.samples.foldl max (x.samples.headD 0)
  decide (x.samples.length = 16) &&
    (match x.samples with
     | d :: _ => decide (0 ≤ d ∧ d ≤ 51200)
     | [] => false) &&
    decide (hi - lo ≤ (s.dlyTol2 n : Int)) && decide (x.outTol < 3) &&
    decide (x.timeoks = [true, true, true])

/-- Whether the driver's version and capabilities suit the rod (R135). -/
def State.linkProto (s : State) (n p : Nat) : Bool :=
  match (s.link (n * 12 + p)).version with
  | some (v, c) => decide (v = 1) && (decide (s.get (pROD n) ROD.CFG_MODE = 1) || c.testBit 0)
  | none => false

/-- Judge TIME_OK (R124, R135): SYNC to UP, or UP to SYNC with the descent cause TIME_OK on a rod
in RUN or DESCENT. -/
def State.judgeTime (s : State) (n p : Nat) : State :=
  let st := s.linkSt n p
  if st = lkSYNC ∧ s.linkTimed n p ∧ s.linkProto n p then
    (s.setLinkSt n p lkUP).ev (pGLK n) (blk 0)
  else if st = lkUP ∧ !s.linkTimed n p then
    let s := s.setLinkSt n p lkSYNC
    if s.rodSt n = stRUN ∨ s.rodSt n = stDESCENT then s.descentCause n dcTIMEOK else s
  else s

/-- What follows a commit of the GLK page (R124, R135): links newly enabled train, links disabled go
OFF, and the others are judged by the new DLY_TOL. -/
def State.glkApplied (s0 s : State) (n : Nat) : State :=
  (List.range 12).foldl (fun s p =>
    let was := s0.linkEn n p
    let is := s.linkEn n p
    if is && !was && decide (s.linkSt n p = lkOFF) then s.enterTrain n p
    else if was && !is then s.enterLinkOff n p
    else s.judgeTime n p) s

/-! ## Frames on the wire -/

/-- One bit of the CRC-16 of R119: polynomial 0x1021. -/
def crcBit (c : Nat) : Nat := if c.testBit 15 then (2 * c % 65536) ^^^ 0x1021 else 2 * c

/-- The CRC-16 of a frame's bytes from the header to the last payload byte (R119). -/
def glCrc (l : List Nat) : Nat :=
  l.foldl (fun c b => (List.range 8).foldl (fun c _ => crcBit c) (c ^^^ (b % 256 * 256))) 0xFFFF

/-- The bytes of a frame between SOF and EOF (R119): header, payload, and the CRC, most significant byte first;
`flip` inverts the CRC. -/
def glBytes (ty seq : Nat) (payload : List Nat) (flip : Bool) : List Nat :=
  let l := (ty * 16 + seq) :: payload
  let c := if flip then 65535 - glCrc l else glCrc l
  l ++ [c / 256, c % 256]

/-- Whether an uplink frame passes its checks (R119): its CRC, a TYPE of the uplink, and the length of that type. -/
def glGood (l : List Nat) : Bool :=
  let n := l.length - 3
  let body := l.take (l.length - 2)
  let len := match l.headD 0 / 16 with
    | 8 => n == 8
    | 9 => n == 3
    | 10 => decide (1 ≤ n ∧ n ≤ 5)
    | _ => false
  decide (3 ≤ l.length) && len && decide (glCrc body = l.getD (l.length - 2) 0 * 256 + l.getD (l.length - 1) 0)

/-- A downlink frame leaves on link `k` (R119); point 0 of GLK inverts the CRC of one on position 0 (R569). -/
def State.glSend (s : State) (k ty seq : Nat) (payload : List Nat) : State :=
  let i := if k % 12 = 0 then s.injTake (pGLK (k / 12)) 0 else (false, s)
  i.2.send (.glFrame k (glBytes ty seq payload i.1))

/-- The beam time from which a downlink is free: now, or the end of the frames before (R120; DESIGN CHOICE, log
184). -/
def State.lineFrom (s : State) (k : Nat) : Nat := ((s.link k).tx.map GlTx.stop).foldl max s.beam.t

/-- Put a frame on a downlink behind those before it: five symbols of 40 ns and one for each payload byte (R117,
R119). -/
def State.lineSend (s : State) (k ty seq : Nat) (payload : List Nat) : State :=
  let x := s.link k
  let u := s.lineFrom k
  let keep := x.tx.filter (fun f => decide (s.beam.t < f.stop))
  (s.setLink k { x with tx := keep ++ [⟨ty, u, u + (payload.length + 5) * 10240⟩] }).glSend k ty seq payload

/-- A CLEAR (6), TIME (3), PING (4) or REQ (5) frame (R119, R120, R122, R123): it waits while edges wait.  L of a TIME
frame is its departure plus the downlink delay as link time (R121).  The manual does not state a PING's TAG: each
is one above the last. -/
def State.lowTx (s : State) (k ty : Nat) : State :=
  let x := s.link k
  let w := x.wait.filter (· != ty)
  if !x.queue.isEmpty then s.setLink k { x with wait := w ++ [ty] }
  else
    match ty with
    | 3 =>
      let l := (s.lineFrom k + s.get (pGLK (k / 12)) (GLK.DLY_DLY_MEAN (k % 12))) / 40 % 2 ^ 48
      (s.setLink k { x with wait := w }).lineSend k 3 0 (leBytes 6 l)
    | 4 =>
      let tag := (x.pingTag + 1) % 256
      (s.setLink k { x with wait := w, ping := some tag, pingTag := tag }).lineSend k 4 0 [tag]
    | 6 => (s.setLink k { x with wait := w }).lineSend k 6 0 []
    | _ => (s.setLink k { x with wait := w }).lineSend k 5 0 x.req

/-- The frames that wait on a downlink leave in the order of R120. -/
def State.lowPump (s : State) (k : Nat) : State :=
  [6, 3, 4, 5].foldl (fun s ty => if (s.link k).wait.contains ty then s.lowTx k ty else s) s

/-- Whether a link carries frames: SYNC or UP (R125). -/
def State.linkOpen (s : State) (n p : Nat) : Bool :=
  s.linkEn n p && decide (s.linkSt n p = lkSYNC ∨ s.linkSt n p = lkUP)

/-- TIME_FRAME_TX: a TIME frame leaves, with any frame of lower priority that waited (R120, R123). -/
def execTimeFrameTx (k : Fin 288) (s : State) : Outcome State Fault Refusal :=
  .next (if s.linkOpen (k / 12) (k % 12) then (s.lowTx k 3).lowPump k else s)

/-- PING_TX: a PING leaves, with any frame that waited (R120, R122). -/
def execPingTx (k : Fin 288) (s : State) : Outcome State Fault Refusal :=
  .next (if s.linkOpen (k / 12) (k % 12) then (s.lowTx k 4).lowPump k else s)

/-- A count of discarded frames (R119). -/
def State.countDiscard (s : State) (n p : Nat) : State :=
  s.incF (pGLK n) ⟨GLK.ERRCNT p, 15, 0⟩

/-- A sample of the delay filter (R122, R124), `d2` = 2 × D_down in 1/256 ns: the filter, DLY, the
count of samples outside DLY_TOL, and DLY_RANGE above 100 ns.  DLY_MEAN and DLY_SPREAD are rounded, halves up, and a
negative mean reads 0 (DESIGN CHOICE, log 186). -/
def State.delaySample (s : State) (n p : Nat) (d2 : Int) : State :=
  let x := s.link (n * 12 + p)
  let l := (d2 :: x.samples).take 16
  let sum := l.foldl (· + ·) 0
  let mean := divRound sum (2 * l.length)
  let spread := divRound (l.foldl max d2 - l.foldl min d2) 2
  let out := decide ((s.dlyTol2 n * l.length : Nat) < (d2 * l.length - sum).natAbs)
  let s := s.setLink (n * 12 + p)
    { x with samples := l, outTol := if out then x.outTol + 1 else 0 }
  let s := s.set (pGLK n) (GLK.DLY_DLY_MEAN p) (clampI 0 65535 mean).toNat
  let s := s.set (pGLK n) (GLK.DLY_DLY_SPREAD p) (clampI 0 65535 spread).toNat
  let s := if 51200 < d2 then s.err (pGLK n) (blk 2) else s
  s.judgeTime n p

/-- An ECHO (R122): `elapsed` is t4 − t1 in 1/256 ns.  Its TAG must be that of the last PING sent. -/
def execEchoRx (k : Fin 288) (tag : Fin 256) (tta : Fin 65536) (elapsed : Nat) (s : State) :
    Outcome State Fault Refusal :=
  let n := k.val / 12
  let p := k.val % 12
  if !s.linkOpen n p then .next s
  else if (s.link k).ping = some tag.val then
    .next (s.delaySample n p
      ((elapsed : Int) - (tta.val * 40 : Nat) + s.getS (pGLK n) ⟨GLK.ASYM p, 15, 0⟩))
  else .next (s.countDiscard n p)

/-! ## Register requests -/

/-- A command is refused (R158): DENY, PG_ERR.BLK.CMD_DENIED. -/
def State.deny (s : State) (n code : Nat) : State :=
  (s.set (pPROT n) PROT.STATUS_DENY code).err (pPROT n) (blk 0)

/-- An accepted START ends in OFF (R149). -/
def State.startFails (s : State) (n code : Nat) : State :=
  ((s.setRod n { s.rod n with start := none }).setStep n spNONE).deny n code

/-- Bytes on the wire of a request: LEN = 0 is 4 (R139). -/
def State.reqLen (s : State) (n : Nat) : Nat :=
  let v := s.get (pGLK n) GLK.REQ_CTL_LEN
  if v = 0 then 4 else v

/-- A REQ frame with this payload on link `k` (R119). -/
def State.reqSend (s : State) (k : Nat) (payload : List Nat) : State :=
  (s.setLink k { s.link k with req := payload }).lowTx k 5

/-- Send the REQ frame of the request in progress (R134). -/
def State.reqTx (s : State) (n : Nat) : State :=
  let wr := s.flag (pGLK n) GLK.REQ_CTL_WR
  let data := if wr then leBytes (s.reqLen n) (s.reg (pGLK n) GLK.REQ_DATA) else []
  s.reqSend (n * 12 + s.get (pGLK n) GLK.REQ_CTL_POS)
    ((if wr then 2 else 1) :: leBytes 2 (s.get (pGLK n) GLK.REQ_CTL_ADDR) ++ [s.reqLen n] ++ data)

/-- The position whose link an identity read uses now (R164): module positions in order, switch CFG.ID_J. -/
def State.idPos (s : State) (n : Nat) : Nat := 4 * (s.rod n).idGot.length + s.get (pPROT n) PROT.CFG_ID_J

/-- The identity read waits for an answer (R164). -/
def State.idBusy (s : State) (n : Nat) : Bool :=
  decide ((s.rod n).start = some .idRead ∧ (s.rod n).reqTries ≠ 0) && !s.flag (pGLK n) GLK.REQ_CTL_GO

/-- A failed identity read (R149, R164). -/
def State.idFails (s : State) (n : Nat) : State :=
  ((s.setRod n { s.rod n with reqTries := 0 }).err (pPROT n) (blk 7)).startFails n 8

/-- Send the next request of an identity read, of four bytes, in attempt `try_` (R134, R164). -/
def State.idReq (s : State) (n try_ : Nat) : State :=
  if s.linkSt n (s.idPos n) ≠ lkUP then s.idFails n
  else
    (s.setRod n { s.rod n with reqTries := try_ }).reqSend (n * 12 + s.idPos n)
      (1 :: leBytes 2 (0x1000 + (s.rod n).idCur.length) ++ [4])

/-- A request of firmware ends (R134): RSP, GO cleared, REQ_DONE.  An identity read that waited for it begins (R164). -/
def State.reqDone (s : State) (n code : Nat) : State :=
  let s := s.setReg (pGLK n) GLK.RSP (2 ^ 31 + code)
  let s := s.set (pGLK n) GLK.REQ_CTL_GO 0
  let s := s.setRod n { s.rod n with reqTries := 0 }
  let s := s.ev (pGLK n) (blk 3)
  if (s.rod n).start = some .idRead then s.idReq n 1 else s

/-- A request has had no answer, or its frame was aborted (R134): it is sent again, up to two more times, and then
ends in TIMEOUT; NO_LINK where its position is not UP. -/
def State.reqAgain (s : State) (n : Nat) : State :=
  let x := s.rod n
  if s.flag (pGLK n) GLK.REQ_CTL_GO then
    if s.linkSt n (s.get (pGLK n) GLK.REQ_CTL_POS) ≠ lkUP then s.reqDone n 0x10
    else if x.reqTries < 3 then (s.setRod n { x with reqTries := x.reqTries + 1 }).reqTx n
    else s.reqDone n 0x11
  else if s.idBusy n then
    if x.reqTries < 3 then s.idReq n (x.reqTries + 1) else s.idFails n
  else s

/-- GATE_REQ_RETRY: no valid RSP within 21 µs (R134). -/
def execGateReqRetry (n : Fin 24) (s : State) : Outcome State Fault Refusal := .next (s.reqAgain n)

/-- Whether the request engine of a rod is busy: GO = 1, or an identity read runs (R134, R164). -/
def State.reqBusy (s : State) (n : Nat) : Bool :=
  s.flag (pGLK n) GLK.REQ_CTL_GO || decide ((s.rod n).start = some .idRead)

/-- A write of REQ_CTL (R134): refused while GO = 1; with GO = 1 in the data it sends a request,
or ends at once in NO_LINK. -/
def State.reqCtlWrite (s : State) (w : Writer) (n : Nat) (v : Word) : State × Code :=
  s.actionWrite w (pGLK n) (fun s =>
    if s.reqBusy n then refuse s (pGLK n) (blk 4) .writeRefused
    else
      let s := s.setWord (pGLK n) GLK.REQ_CTL (v &&& wordOf 0x7F00FFFF)
      if v.getLsbD 31 then
        let s := s.set (pGLK n) GLK.RSP_VALID 0
        let pos := s.get (pGLK n) GLK.REQ_CTL_POS
        if 12 ≤ pos ∨ s.linkSt n pos ≠ lkUP then (s.reqDone n 0x10, .ok)
        else
          let s := s.set (pGLK n) GLK.REQ_CTL_GO 1
          let s := s.setRod n { s.rod n with reqTries := 1 }
          (s.reqTx n, .ok)
      else (s, .ok))

def execGateReq (w : Writer) (n : Fin 24) (v : Word) (s : State) : Outcome State Fault Refusal :=
  .next (finish w (pGLK n) (s.reqCtlWrite w n v))

/-- The answer to a request of an identity read (R164): four bytes, after the first four of which FORMAT and
USED_LEN are judged; the read of a position ends with its USED_LEN bytes. -/
def State.idTake (s : State) (n status : Nat) (data : List Nat) : State :=
  let x := s.rod n
  let got := x.idCur ++ data
  let len := ofLE ((got.drop 2).take 2)
  if status ≠ 0 then s.idFails n
  else if data.length ≠ 4 then s
  else if got.headD 0 ≠ 1 ∨ len < 16 ∨ 2048 < len then s.idFails n
  else if got.length < len then (s.setRod n { x with idCur := got }).idReq n 1
  else
    let s := s.setRod n { x with idGot := x.idGot ++ [got], idCur := [], reqTries := 0 }
    if x.idGot.length < 2 then s.idReq n 1 else s

/-- The version and the capabilities of a driver, read in SYNC (R135). -/
def State.versionRead (s : State) (n p v c : Nat) : State :=
  let s := s.setLink (n * 12 + p) { s.link (n * 12 + p) with version := some (v, c) }
  if s.linkProto n p then s.judgeTime n p else (s.err (pGLK n) (blk 3)).enterLost n p

/-- A driver's RSP (R134, R135, R164).  Until the version is read, in SYNC, it answers that read; after that the
request in progress of that position, in SYNC as in UP.  A read's bytes go to REQ_DATA, whose other bytes stay
(DESIGN CHOICE, log 187).  One longer than its type allows is discarded (R119). -/
def execRspRx (k : Fin 288) (status : Fin 256) (data : List Byte) (s : State) :
    Outcome State Fault Refusal :=
  let n := k.val / 12
  let p := k.val % 12
  let d := data.map BitVec.toNat
  if !s.linkOpen n p then .next s
  else if 4 < d.length then .next (s.countDiscard n p)
  else if (s.link k).version.isNone then
    .next (if status.val = 0 ∧ d.length = 2 then s.versionRead n p (d.getD 0 0) (d.getD 1 0) else s)
  else if s.flag (pGLK n) GLK.REQ_CTL_GO then
    if s.get (pGLK n) GLK.REQ_CTL_POS = p then
      let s := if status.val = 0 ∧ !s.flag (pGLK n) GLK.REQ_CTL_WR then
          (List.range d.length).foldl
            (fun s i => s.set (pGLK n) ⟨GLK.REQ_DATA, 8 * i + 7, 8 * i⟩ (d.getD i 0)) s
        else s
      .next (s.reqDone n status)
    else .next s
  else if s.idBusy n && decide (s.idPos n = p) then .next (s.idTake n status d)
  else .next s

/-! ## Timed edges -/

/-- The edges of the first EDGE frame of an ascending list (R125): at most four, strictly rising,
none above 65,535 units from the first. -/
def packEdges (l : List (Nat × Bool)) : List (Nat × Bool) :=
  match l with
  | [] => []
  | e :: r => e :: (r.takeWhile (fun x => decide (x.1 ≤ e.1 + 65535))).take 3

/-- Payload of an EDGE frame (R125). -/
def edgePayload (l : List (Nat × Bool)) : List Nat :=
  match l with
  | [] => []
  | e :: r =>
    let lv := (l.zipIdx.map (fun x => if x.1.2 then 2 ^ x.2 else 0)).foldl (· + ·) 0
    (r.length * 64 + lv) :: leBytes 4 (e.1 % 2 ^ 32) ++ r.flatMap (fun x => leBytes 2 (x.1 - e.1))

/-- An EDGE (1) or CANCEL (2) frame leaves ahead of every frame of lower priority (R120): one of those in progress
ends with ABORT, and they are sent again behind it, an aborted REQ as one more attempt (R134); an aborted PING gives
no sample (R122). -/
def State.highTx (s : State) (k ty seq : Nat) (payload : List Nat) : State :=
  let x := s.link k
  let low := x.tx.filter (fun f => decide (2 < f.ty ∧ s.beam.t < f.stop))
  let cut := low.any (fun f => decide (f.start ≤ s.beam.t))
  let again := (low.map GlTx.ty).filter (fun ty => !x.wait.contains ty)
  let s := s.setLink k { x with
    tx := x.tx.filter (fun f => decide (f.ty ≤ 2))
    ping := if low.any (fun f => f.ty == 4) then none else x.ping, wait := x.wait ++ again }
  let s := if low.isEmpty then s else s.send (.glAbort k)
  let s := s.lineSend k ty seq payload
  if cut && low.any (fun f => f.ty == 5) && (s.link k).version.isSome then
    ((s.setLink k { s.link k with wait := (s.link k).wait.filter (· != 5) }).lowPump k).reqAgain (k / 12)
  else s.lowPump k

/-- The SEQ of the next EDGE or CANCEL frame, the frame itself, and the check of R128 it opens. -/
def State.sendSeq (s : State) (k ty : Nat) (payload : List Nat) : State :=
  let x := s.link k
  let q := (x.seq + 1) % 16
  let checks := x.checks.map (fun c => { c with after := c.after ++ [q] })
  (s.setLink k { x with seq := q, checks := checks ++ [{ seq := q }] }).highTx k ty q payload

/-- BLANK of a rod in 1/16 tick (R143: units of 10 ns). -/
def State.blankTicks (s : State) (n : Nat) : Nat := s.get (pPROT n) PROT.DIDT_CFG_BLANK * 64

/-- An EDGE frame leaves with the first released edges of a link (R125, R143): they are sent and not
yet due, EDGE_CNT counts them, and each opens a blanking window of its phase.  Edges of a link that is
not in SYNC or UP are discarded; the SGR block refuses the frame (R393). -/
def execEdgeFrameTx (k : Fin 288) (s : State) : Outcome State Fault Refusal :=
  let n := k.val / 12
  let p := k.val % 12
  let x := s.link k
  let f := packEdges x.queue
  let s := s.setLink k { x with
    queue := x.queue.drop f.length, sent := x.sent.filter (fun e => decide (s.uticks < e.1)) }
  if f = [] ∨ !s.linkOpen n p ∨ s.sgrBlock n ∨ (s.rod n).tripped then .next s
  else
    let s := s.setLink k { s.link k with sent := (s.link k).sent ++ f }
    let s := s.inc (pROD n) ROD.EDGE_CNT f.length
    let b := s.blankTicks n
    let s := if b = 0 then s
      else s.setRod n { s.rod n with
        blanks := (s.rod n).blanks.filter (fun w => decide (s.uticks < w.2.2)) ++
          f.map (fun e => (p / 4, e.1, e.1 + b)) }
    .next (s.sendSeq k 1 (edgePayload f))

/-- CANCEL of link time `t` on one link (R113, R127): edges at `t` or after are withdrawn.  After a trip no CANCEL
leaves until the rod next enters RUN (R129). -/
def State.cancelTx (s : State) (k t : Nat) : State :=
  let x := s.link k
  let s := s.setLink k { x with
    queue := x.queue.filter (fun e => decide (e.1 < t))
    sent := x.sent.filter (fun e => decide (e.1 < t)) }
  if s.linkOpen (k / 12) (k % 12) && !s.sgrBlock (k / 12) && !(s.rod (k / 12)).tripped then s.sendSeq k 2 (leBytes 4 (t % 2 ^ 32)) else s

/-! ## Heartbeats, faults, trips -/

/-- Bits of STAT and FLAGS (R119). -/
abbrev hbTRIPPED : Nat := 7
abbrev hbTIMEOK : Nat := 6
abbrev hbGATE : Nat := 1
abbrev hbDROP : Nat := 0
abbrev hbLATE : Nat := 3
abbrev hbQFULL : Nat := 2
abbrev hbVCEVALID : Nat := 1

/-- STAT of the last heartbeat of a link. -/
def State.hbStat (s : State) (n p : Nat) : Nat := s.get (pGLK n) (GLK.HB0_STAT p)

/-- The enabled positions of a rod. -/
def State.enabledPos (s : State) (n : Nat) : List Nat :=
  (List.range 12).filter (fun p => s.linkEn n p)

/-- One open check takes a heartbeat (R128). -/
def LossCheck.take (c : LossCheck) (stat flags : Nat) : LossCheck :=
  let last := flags / 16
  { c with
    left := c.left - 1, drop := c.drop || stat.testBit hbDROP
    own := c.own || decide (last = c.seq), later := c.later || decide (last ∈ c.after) }

/-- Whether a check has failed: LATE or QFULL shown, or after two heartbeats neither the frame reported, nor a later
one with no DROP since the frame left. -/
def LossCheck.failed (c : LossCheck) (flags : Nat) : Bool :=
  flags.testBit hbLATE || flags.testBit hbQFULL ||
    (decide (c.left = 0) && !(c.own || (c.later && !c.drop)))

/-- UVLO_CNT of a rod (R144: 0 counts as 3). -/
def State.uvloCnt (s : State) (n : Nat) : Nat :=
  let v := s.get (pPROT n) PROT.UVLO_CFG_UVLO_CNT
  if v = 0 then 3 else v

/-- GATES_OFF ends when the last heartbeat of every enabled link, at most 3.0 µs old, shows GATE = 0
and the breaker is open or not in use (R149). -/
def State.gatesOffExit (s : State) (n : Nat) : State :=
  if s.rodSt n = stGATESOFF ∧
      (s.enabledPos n).all (fun p =>
        (match (s.link (n * 12 + p)).lastHb with
         | some t => decide (s.beam.t ≤ t + 768000)
         | none => false) && !(s.hbStat n p).testBit hbGATE) ∧
      (!s.flag (pPROT n) PROT.STATUS_BRK_FBK ∨ !s.flag (pPROT n) PROT.CFG_BRK_EN) then
    s.enterDischarge n
  else s

/-- The last step of an accepted START (R149): precharge commanded, Vs₀ latched.  A thermal cause that
persists ends it at once (R370). -/
def State.enterPrecharge (s : State) (n : Nat) : State :=
  let s := s.setRod n { s.rod n with start := none, vs0 := (s.vs n).toNat }
  let s := (s.setRodSt n stPRECHARGE).setPrech n true
  let s := s.setStep n spPCCHARGE
  if s.thermRods.testBit n then s.descentCause n dcTHERMAL else s

/-- Whether the links of R138 are UP and timed. -/
def State.linksReady (s : State) (n : Nat) : Bool :=
  let need := if s.get (pROD n) ROD.CFG_MODE = 0 then List.range 12 else outerPos
  need.all (fun p => s.linkEn n p && decide (s.linkSt n p = lkUP) &&
    s.flag (pGLK n) (GLK.LSTAT_TIME_OK p))

/-- A START in its CLEAR stage goes on once every enabled link has shown TRIPPED = 0 since the CLEAR
(R131, R149) with the links of R138 UP, in fine lock (R15). -/
def State.clearStage (s : State) (n : Nat) : State :=
  if (s.rod n).start = some .clear ∧
      (s.enabledPos n).all (fun p => (s.link (n * 12 + p)).clearHb) ∧ s.linksReady n then
    if s.fineLock then s.enterPrecharge n else s.startFails n 2
  else s

/-- The module position a link serves (R169 "Each rod has three module positions"). -/
def State.moduleOf (s : State) (n p : Nat) : Option Nat :=
  if p % 4 = s.get (pPROT n) PROT.CFG_ID_J then some (p / 4) else none

/-- Change the life-record part of module position `m` of a rod. -/
def State.setLife (s : State) (n m : Nat) (x : LifeX) : State :=
  s.setRod n { s.rod n with life := (s.rod n).life.set m x }

/-- The life-record part of a module position. -/
def State.life (s : State) (n m : Nat) : LifeX := (s.rod n).life.getD m {}

/-- The registers and records a heartbeat updates (R119, R133, R166). -/
def State.hbStore (s : State) (n p : Nat) (hb : Heartbeat) : State :=
  let st := hb.stat.val
  let s := s.setReg (pGLK n) (GLK.HB0 p)
    (hb.vn.val * 2 ^ 24 + hb.vp.val * 2 ^ 16 + hb.flags.val * 2 ^ 8 + st)
  let s := s.setReg (pGLK n) (GLK.HB1 p) (hb.vce.val * 2 ^ 16 + hb.ntc.val)
  let s := s.setB (pGLK n) (GLK.LSTAT_DRV_OT p) (st.testBit 2)
  let s := s.setB (pGLK n) (GLK.LSTAT_DRV_UVLO p) (st.testBit 3 || st.testBit 4)
  let s := s.setB (pGLK n) (GLK.LSTAT_DRV_DESAT p) (st.testBit 5)
  let s := s.setB (pGLK n) (GLK.LSTAT_DRV_TRIPPED p) (st.testBit 7)
  let s := s.setBit (pGLK n) GLK.UP_MAP (16 + p) (st.testBit 7)
  match s.moduleOf n p with
  | some m =>
    let x := s.life n m
    let v := hb.flags.val.testBit hbVCEVALID
    s.setLife n m { x with
      ntc := sxt 16 hb.ntc.val, vceValid := v, vce := if v then hb.vce.val else x.vce }
  | none => s

/-- The demand for SGR that three heartbeats with GATE = 1 under the SGR block latch (R393). -/
def State.gateStuck (s : State) (n : Nat) : State :=
  let s := s.set pSAFE (SAFE.MON_STAT_GATE_STUCK n) 1
  (s.err pSAFE (blk 5)).demand 7 0 0 (2 ^ n) false true

/-- A heartbeat that passes its CRC (R119, R124, R128, R131, R133, R135, R144, R149, R393, R617). -/
def State.heartbeat (s : State) (n p : Nat) (hb : Heartbeat) : State :=
  let k := n * 12 + p
  let i2 := if p = 0 then s.injTake (pPROT n) 2 else (false, s)
  let i3 := if p = 0 then i2.2.injTake (pGLK n) 2 else (false, s)
  let s := i3.2
  let stat := if i3.1 then hb.stat.val ||| 2 ^ hbGATE else hb.stat.val
  let flags := hb.flags.val
  let x := s.link k
  let newFlag := [2, 3, 4, 5].any (fun b => stat.testBit b && !x.prevStat.testBit b)
  let checks := x.checks.map (fun c => c.take stat flags)
  let lost := checks.any (fun c => c.failed flags)
  let vp := if i2.1 then 0 else hb.vp.val
  let low := decide (vp < s.get (pPROT n) PROT.UVLO_CFG_VP_MIN ∨
    hb.vn.val < s.get (pPROT n) PROT.UVLO_CFG_VN_MIN)
  let lowRun := if low then min (x.low + 1) 15 else 0
  let gateRun := if s.sgrBlock n && stat.testBit hbGATE then x.gateRun + 1 else 0
  let s := s.setLink k { x with
    checks := checks.filter (fun c => decide (c.left ≠ 0))
    prevStat := stat, low := lowRun, lastHb := some s.beam.t
    timeoks := (stat.testBit hbTIMEOK :: x.timeoks).take 3
    clearHb := !stat.testBit hbTRIPPED
    testHb := stat.testBit hbTRIPPED && !stat.testBit hbGATE
    gateRun := if gateRun = 3 then 0 else gateRun }
  let s := s.hbStore n p hb
  let s := if lost then s.err (pGLK n) (blk 1) else s
  let st := s.rodSt n
  let uvlo := decide (s.uvloCnt n ≤ lowRun) && s.linkEn n p &&
    decide (st = stPRECHARGE ∨ st = stREADY ∨ st = stRUN ∨ st = stDESCENT ∨ st = stGATESOFF)
  let s := s.faultCause n ((if newFlag then [fcDRV] else []) ++ (if lost then [fcEDGE] else []) ++
    (if uvlo then [fcUVLO] else []))
  let s := if gateRun = 3 && s.linkEn n p then s.gateStuck n else s
  ((s.judgeTime n p).clearStage n).gatesOffExit n

/-- A HEARTBEAT that passed its CRC; point 1 of GLK discards those of position 0 for 3.0 µs (R569). -/
def execHeartbeatRx (k : Fin 288) (hb : Heartbeat) (s : State) : Outcome State Fault Refusal :=
  let n := k.val / 12
  let x := s.link k
  if !s.linkOpen n (k % 12) || decide (s.beam.t < x.deafTo) then .next s
  else
    let i := if k.val % 12 = 0 then s.injTake (pGLK n) 1 else (false, s)
    .next (if i.1 then i.2.setLink k { x with deafTo := s.beam.t + 3000 * 256 } else i.2.heartbeat n (k % 12) hb)

/-- A FAULT ordered set decoded on any link of a rod (R132, R133). -/
def execFaultSetRx (k : Fin 288) (code : Fin 256) (s : State) : Outcome State Fault Refusal :=
  let n := k.val / 12
  .next (((s.set (pGLK n) (GLK.LSTAT_LAST_FCODE (k.val % 12)) code).ev (pGLK n) (blk 2)).faultCause n [fcDRV])

/-- 25 symbols after the first TRIP_OFF, TRIP_OFF follows on T2 and T3 (R129). -/
def execTripInnerOff (n : Fin 24) (s : State) : Outcome State Fault Refusal :=
  if (s.rod n).innerDue then
    .next ((s.setRod n { s.rod n with innerDue := false }).send (.tripSets n innerPos []))
  else .next s

/-! ## Link states -/

/-- 64 valid symbols (R135): TIME and PING frames, and the read of driver 0x0000 to 0x0001. -/
def execLinkSymbolLock (k : Fin 288) (s : State) : Outcome State Fault Refusal :=
  let n := k.val / 12
  let p := k.val % 12
  if s.linkSt n p = lkTRAIN then
    .next ((((s.setLinkSt n p lkSYNC).lowTx k 3).lowTx k 4).reqSend k [1, 0, 0, 2])
  else .next s

/-- 1 ms in TRAIN without symbol lock, or in SYNC without reaching UP (R135). -/
def execLinkTrainTimeout (k : Fin 288) (s : State) : Outcome State Fault Refusal :=
  let n := k.val / 12
  let p := k.val % 12
  if s.linkSt n p = lkTRAIN ∨ s.linkSt n p = lkSYNC then .next (s.enterLost n p) else .next s

/-- No heartbeat for 3.0 µs (R135). -/
def execLinkLost (k : Fin 288) (s : State) : Outcome State Fault Refusal :=
  let n := k.val / 12
  let p := k.val % 12
  if s.linkSt n p = lkUP ∨ s.linkSt n p = lkSYNC then .next (s.enterLost n p) else .next s

/-- 100 µs after LOST (R135). -/
def execLinkRetrain (k : Fin 288) (s : State) : Outcome State Fault Refusal :=
  let n := k.val / 12
  let p := k.val % 12
  if s.linkSt n p = lkLOST then
    .next ((s.incF (pGLK n) (GLK.LSTAT_RETRAIN p)).enterTrain n p)
  else .next s

/-- UPLINK_FRAME_DISCARD: a frame as it arrived, its bytes from the header to the CRC (none: only violations), and the
code violations the receiver saw (R118).  One that fails the checks of R119 is discarded and counted. -/
def execUplinkFrameDiscard (k : Fin 288) (frame : List Byte) (violations : Nat) (s : State) :
    Outcome State Fault Refusal :=
  let n := k.val / 12
  let p := k.val % 12
  let s := s.incF (pGLK n) ⟨GLK.ERRCNT p, 31, 16⟩ violations
  .next (if !frame.isEmpty && !glGood (frame.map BitVec.toNat) then s.countDiscard n p else s)

end Sys2Proof.Machine
end

