-- ==== Sys2Proof/Machine/Acq.lean ====
section
/-! DEFINITION. Acquisition (spec/07, R171 to R198): sequencers, triggers, urgent requests, result slots
and slot filters, calibration, converter power; and the transient digitizers. -/

namespace Sys2Proof.Machine

open Host (Outcome)

/-! ## Converters -/

/-- Table page and offset of word `i` of entry `e` of a sequencer table (R176). -/
def seqWordAt (k c e i : Nat) : Nat × Nat :=
  let b := c * 512 + 8 * e + 4 * i
  (0x800 + 2 * k + b / 4096, b % 4096)

/-- Word `i` of a sequencer entry. -/
def State.seqWord (s : State) (k c e i : Nat) : Nat :=
  s.reg (seqWordAt k c e i).1 (seqWordAt k c e i).2

/-- 0 stands for a count's full range. -/
def orFull (v full : Nat) : Nat := if v = 0 then full else v

/-- The fields of an entry (R176). -/
def State.seqSlot (s : State) (k c e : Nat) : Nat := bitsOf (s.seqWord k c e 0) 31 24
def State.seqRepeat (s : State) (k c e : Nat) : Nat := orFull (bitsOf (s.seqWord k c e 0) 23 16) 256
def State.seqDelay (s : State) (k c e : Nat) : Nat := bitsOf (s.seqWord k c e 0) 15 0
def State.seqWait (s : State) (k c e : Nat) : Nat := bitsOf (s.seqWord k c e 1) 31 30
def State.seqMark (s : State) (k c e : Nat) : Bool := bitOf (s.seqWord k c e 1) 29
def State.seqAvg (s : State) (k c e : Nat) : Nat := orFull (bitsOf (s.seqWord k c e 1) 24 20) 32
def State.seqInput (s : State) (k c e : Nat) : Nat := bitsOf (s.seqWord k c e 1) 3 0

/-- Whether a wait code accepts a source. -/
def waitTakes (wait src : Nat) : Bool := wait.testBit src

/-- The 1/16-tick grid instant at or after a time in 1/256 ns (R179). -/
def gridAt (t : Nat) : Nat := (t + 39) / 40

/-- The 1/16-tick grid instant at or after the beam time now. -/
def State.gridNow (s : State) : Nat := gridAt s.beam.t

/-! ## Triggers -/

/-- DLY of a trigger source in 1/16 tick. -/
def State.trigDly (s : State) (k c j : Nat) : Nat :=
  16 * s.get (pACQ k) (if j = 0 then ACQ.TRIG0_DLY c else ACQ.TRIG1_DLY c)

/-- SRC of a trigger source. -/
def State.trigSrc (s : State) (k c j : Nat) : Nat :=
  s.get (pACQ k) (if j = 0 then ACQ.TRIG0_SRC c else ACQ.TRIG1_SRC c)

/-- SEL of a trigger source: a rod, or with SRC = 3 a generator. -/
def State.trigSel (s : State) (k c j : Nat) : Nat :=
  s.get (pACQ k) (if j = 0 then ACQ.TRIG0_SEL c else ACQ.TRIG1_SEL c)

/-- The generator that a trigger source of SRC 1 to 3 follows. -/
def State.trigGen (s : State) (k c j : Nat) : Nat :=
  if s.trigSrc k c j = 3 then s.trigSel k c j else s.genOf (s.trigSel k c j)

/-- Whether SAMPLE_SYNC_IN substitutes the events of a source (R180). -/
def State.trigSub (s : State) (k c j : Nat) : Bool :=
  s.flag pFRAME FRAME.SYNC_CTL_EN && decide (s.get pFRAME FRAME.SYNC_CTL_GEN = s.trigGen k c j)

/-- The distance from a boundary to the event of a source of SRC 1 to 3 that belongs to it (R179, R180), in
1/256 ns; none where it has no such event. -/
def State.trigDist (s : State) (k c j : Nat) (b : GenBound) : Option Nat :=
  let off := s.get pFRAME (FRAME.ROD_MAP_OFFSET (s.trigSel k c j)) * 40
  match s.trigSrc k c j with
  | 1 => some off
  | 2 => if b.mid then some (off + b.period / 2 * 40) else none
  | 3 => some 0
  | _ => none

/-- The beam time from which the events of a source count. -/
def ConvX.since (x : ConvX) (j : Nat) : Nat := if j = 0 then x.since0 else x.since1
def ConvX.setSince (x : ConvX) (j t : Nat) : ConvX := if j = 0 then { x with since0 := t } else { x with since1 := t }

/-- The events of a source of SRC 1 to 3 on the boundaries marked and the next, oldest first, each with the earliest
sampling time that its edge allows (R179, R180), in 1/256 ns.  An accepted edge of SAMPLE_SYNC_IN stands for its
boundary; without one the boundary itself does, once its window is missed. -/
def State.trigEvents (s : State) (k c j : Nat) : List (Nat × Nat) :=
  let g := s.trigGen k c j
  let sub := s.trigSub k c j && !s.beam.syncLost
  if s.genRunning g then
    (s.gen g).mark.hist.reverse.filterMap (fun b =>
      (s.trigDist k c j b).bind (fun d =>
        match if sub then s.beam.syncEdges.find? (fun e => e.1 == b.t) else none with
        | some e => some (e.2 + d, e.2 + 6400)
        | none =>
          if (s.gen g).next ≤ b.t ∨ sub ∧ s.beam.syncFrom < b.t then none else some (b.t + d, 0)))
  else []

/-- The next trigger instant of a source, if the source is known in advance (R175, R179). -/
def State.knownInstant (s : State) (k c j : Nat) : Option Nat :=
  let g := s.trigGen k c j
  if s.genRunning g && !s.trigSub k c j then
    (((s.gen g).mark.mark.hist.reverse.filterMap (fun b => (s.trigDist k c j b).map (b.t + ·))).find?
      (fun u => decide ((s.conv k c).since j ≤ u))).map (fun u => gridAt u + s.trigDly k c j)
  else none

/-- The sources that a wait code names. -/
def waitSrcs (wait : Nat) : List Nat := [0, 1].filter (waitTakes wait)

/-- Whether the sequencer waits for a trigger on its entry (R177). -/
def State.seqWaits (s : State) (k c : Nat) : Bool :=
  let x := s.conv k c
  s.seqEn k c && decide (s.seqWait k c x.pos ≠ 0 ∧ x.repDone = 0) && x.ref.isNone &&
    (match x.cur with
    | some v => v.urgent || !v.live
    | none => true)

/-- The instant of the sequencer's next conversion once it is fixed, its entry's DELAY included, and the earliest
that an edge allows it (R177, R180); none while the sequencer waits, converts or is disabled. -/
def State.seqInstant (s : State) (k c : Nat) : Option (Nat × Nat) :=
  let x := s.conv k c
  let d := s.seqDelay k c x.pos * 16
  let busy := match x.cur with
    | some v => !v.urgent && v.live
    | none => false
  if !s.seqEn k c || busy then none
  else if s.seqWait k c x.pos ≠ 0 ∧ x.repDone = 0 then x.ref.map (fun r => (r.t + d, r.least))
  else some (x.seqFree + d, 0)

/-! ## Converters at work -/

/-- Whether a converter is awake (R175): its sequencer enabled and not napping, an urgent request
queued or running, or PWR_CTL.AWAKE. -/
def State.convAwake (s : State) (k c : Nat) : Bool :=
  let x := s.conv k c
  (s.seqEn k c && !x.napping) || !x.urg.isEmpty || x.cur.isSome || s.bit (pFDC k) FDC.PWR_CTL c

/-- CSTAT.STATE of a converter (R196): 0 stopped, 1 waiting for a trigger, 2 converting from the moment its instant
is fixed, 3 urgent. -/
def State.convState (s : State) (k c : Nat) : Nat :=
  match (s.conv k c).cur with
  | some v => if v.urgent then 3 else 2
  | none => if (s.seqInstant k c).isSome then 2 else if s.seqEn k c then 1 else 0

/-- Show what a converter is doing in CSTAT, STATUS and FDC.PWR_STAT; one that falls asleep is no
longer ready (R175, R196, R197). -/
def State.showConv (s : State) (k c : Nat) : State :=
  let x := s.conv k c
  let awake := s.convAwake k c
  let st := s.convState k c
  let s := s.set (pACQ k) (ACQ.CSTAT_STATE c) st
  let s := s.set (pACQ k) (ACQ.CSTAT_ENTRY c) x.pos
  let s := s.set (pACQ k) (ACQ.CSTAT_REP_DONE c) x.repDone
  let s := s.setB (pACQ k) (ACQ.CSTAT_AWAKE c) awake
  let s := s.set (pACQ k) (ACQ.URG_DEPTH c) x.urg.length
  let s := s.setBit (pACQ k) ACQ.STATUS c (s.seqEn k c ||
    (match x.cur with | some v => !v.urgent | none => false))
  let s := s.setBit (pFDC k) FDC.PWR_STAT c awake
  let s := if awake then s else s.setConv k c { s.conv k c with ready := false }
  s.showPend k c

/-- A sequencer that reaches an entry which waits takes the oldest pending trigger that the entry accepts
(R177, R181). -/
def State.seqTake (s : State) (k c : Nat) : State :=
  let x := s.conv k c
  match if s.seqWaits k c then x.pend.find? (fun p => waitTakes (s.seqWait k c x.pos) p.src) else none with
  | some p => s.setConv k c { x with ref := some p, pend := x.pend.filter (fun q => q.src != p.src) }
  | none => s

/-- A sequencer that waits on sources all known in advance naps when its next instant lies at least
100 µs ahead (R175). -/
def State.tryNap (s : State) (k c : Nat) : State :=
  let x := s.conv k c
  let known := (waitSrcs (s.seqWait k c x.pos)).map (s.knownInstant k c)
  let far := known.all (fun t => match t with
    | some t => decide (s.uticks + 640000 ≤ t)
    | none => false)
  if s.bit (pFDC k) FDC.PWR_CTL (16 + c) && s.seqWaits k c && far then
    s.setConv k c { x with napping := true }
  else s

/-- What a sequencer does at once in a new position, and what its converter then shows. -/
def State.seqSettle (s : State) (k c : Nat) : State := ((s.seqTake k c).tryNap k c).showConv k c

/-- A sequencer starts at BASE with no repetitions done (R178). -/
def State.seqStart (s : State) (k c : Nat) : State :=
  let b := s.get (pACQ k) (ACQ.SEQ_CFG_BASE c)
  let x := s.conv k c
  s.setConv k c { x with
    base := b, len := s.get (pACQ k) (ACQ.SEQ_CFG_LEN c), pos := b, repDone := 0, ref := none, pend := []
    seqFree := max x.free s.gridNow, napping := false, since0 := s.beam.t, since1 := s.beam.t }

/-- A sequencer stops (R178): a conversion in progress still writes its result. -/
def State.seqStop (s : State) (k c : Nat) : State :=
  let x := s.conv k c
  s.setConv k c { x with
    repDone := 0, ref := none, pend := [], napping := false
    cur := x.cur.map (fun v => { v with live := false }) }

/-- A trigger event (R179 to R181): the entry that waits for its source takes it, else it becomes pending and
replaces the pending one of that source. -/
def State.trigger (s : State) (k c : Nat) (e : TrigAt) : State :=
  let x := s.conv k c
  if !s.seqEn k c then s
  else if s.seqWaits k c && waitTakes (s.seqWait k c x.pos) e.src then
    (s.setConv k c { x with ref := some e }).showConv k c
  else
    let old := x.pend.any (fun p => p.src == e.src)
    let s := s.setConv k c { x with pend := x.pend.filter (fun p => p.src != e.src) ++ [e] }
    (s.trigLost k c (b2n old)).showPend k c

/-- ACQ_TRIGGER: the frame or boundary event of TRIG0 or TRIG1 that is due, one for which no trigger was made yet
(R179 to R181).  The events of SRC 4 and 5 come with SAMPLE_SYNC_EDGE and SOFTWARE_TRIGGER. -/
def execAcqTrigger (k : Fin 4) (c : Fin 12) (src : Fin 2) (s : State) : Outcome State Fault Refusal :=
  let x := s.conv k c
  match (s.trigEvents k c src).find? (fun e => decide (x.since src ≤ e.1 ∧ e.1 ≤ s.beam.t)) with
  | some e =>
    .next ((s.setConv k c (x.setSince src (e.1 + 1))).trigger k c
      ⟨src, gridAt e.1 + s.trigDly k c src, gridAt e.2⟩)
  | none => .next s

/-- An event now on every source of SRC `code` of a converter; `least`: the earliest sampling instant. -/
def State.trigOn (s : State) (code k c t least : Nat) : State :=
  [0, 1].foldl (fun s j =>
    if s.trigSrc k c j = code then s.trigger k c ⟨j, gridAt t + s.trigDly k c j, least⟩ else s) s

/-- A write of SWTRIG (R179): an event on every source with SRC = 5 of the converters named. -/
def State.swTrig (s : State) (k : Nat) (v : Word) : State :=
  (bitsSet 12 v.toNat).foldl (fun s c => s.trigOn 5 k c s.beam.t 0) s

def execSoftwareTrigger (w : Writer) (k : Fin 4) (v : Word) (s : State) : Outcome State Fault Refusal :=
  .next (finish w (pACQ k) (s.actionWrite w (pACQ k) (fun s => (s.swTrig k v, .ok))))

/-- SAMPLE_SYNC_EDGE: an edge at the ball with its time stamp (1/256 ns).  It may stand for a boundary (R89), and it
is an event of every source with SRC = 4 (R179); no sample from it lies less than 25 ns after it (R180). -/
def execSampleSyncEdge (t : Nat) (s : State) : Outcome State Fault Refusal :=
  .next (allConvs.foldl (fun s e => s.trigOn 4 e.1 e.2 t (gridAt (t + 6400))) (s.syncAccept t))

/-- Start a conversion at an instant (R172, R177): before the free point, or before what its edge allows (R180), it
moves there and slips.  The free point moves to 50 ns after its last sample. -/
def State.startConv (s : State) (k c t least : Nat) (v : Conv) : State :=
  let x := s.conv k c
  let u := max t (max x.free least)
  let f := u + v.avg * 320
  let run := decide (1 < v.avg ∨ u = x.free ∧ x.lastIn = some v.input)
  let s := s.setConv k c { x with
    cur := some { v with t := u, slip := decide (t < u), run := run }, free := f
    seqFree := if v.urgent then x.seqFree else f, lastIn := some v.input }
  if t < u then (s.incF (pACQ k) (ACQ.CNT0_SLIP c)).ev (pACQ k) (blk 12) else s

/-- The conversion that a sequencer's entry asks for. -/
def State.seqConv (s : State) (k c : Nat) : Conv :=
  let x := s.conv k c
  let e := x.pos
  { urgent := false, input := s.seqInput k c e, avg := s.seqAvg k c e, slot := s.seqSlot k c e
    mark := s.seqMark k c e, last := decide (s.seqRepeat k c e ≤ x.repDone + 1) }

/-- SEQ_CONVERSION (R177, R182): the next conversion of a converter starts once its instant has come: a queued
urgent request from the free point on, unless it arrived after the instant of the sequencer's conversion. -/
def execSeqConversion (k : Fin 4) (c : Fin 12) (s : State) : Outcome State Fault Refusal :=
  let x := s.conv k c
  if x.cur.isSome ∨ !x.ready then .next s
  else
    let due := (s.seqInstant k c).map (fun e => max (max e.1 e.2) x.free)
    match x.urg with
    | u :: rest =>
      if due.any (fun t => decide (t < u.t)) then
        match s.seqInstant k c with
        | some e => .next ((s.startConv k c e.1 e.2 (s.seqConv k c)).showConv k c)
        | none => .next s
      else if s.gridNow < max x.free u.t then .next s
      else
        .next (((s.setConv k c { x with urg := rest }).startConv k c (max x.free u.t) 0
          { urgent := true, input := u.input, avg := u.avg, slot := u.slot }).showConv k c)
    | [] =>
      match s.seqInstant k c with
      | some e =>
        if s.gridNow < max (max e.1 e.2) x.free then .next s
        else .next ((s.startConv k c e.1 e.2 (s.seqConv k c)).showConv k c)
      | none => .next (s.seqSettle k c)

/-- The result of a conversion (R173): the saturation code of the first saturated sample, else the
mean, halves towards +∞.  A sample outside the 16-bit range stands for an input beyond the
converter's range. -/
def convResult (samples : List Int) : Int × Bool :=
  match samples.find? (fun x => decide (x < -32768 ∨ 32767 < x)) with
  | some x => (if x < 0 then -32768 else 32767, true)
  | none => (divRound (samples.foldl (· + ·) 0) (max samples.length 1), false)

/-- Write a result slot (R183, R184): value, sampling instant (1/256 ns), and the flags and converter
of W2. -/
def State.writeSlot (s : State) (k i : Nat) (v : Int) (t flags conv : Nat) : State :=
  let seq := (s.reg (pACQ k) (ACQ.SLOT_W0 i) / 2 ^ 16 + 1) % 2 ^ 16
  let s := s.setReg (pACQ k) (ACQ.SLOT_W0 i) (seq * 2 ^ 16 + enc 16 v)
  let s := s.setReg (pACQ k) (ACQ.SLOT_W1 i) (t / 256 % 1000000000)
  s.setReg (pACQ k) (ACQ.SLOT_W2 i)
    (t % 256 * 2 ^ 24 + flags * 2 ^ 20 + conv * 2 ^ 16 + t / 256000000000 % 2 ^ 16)

/-- Table page and offset of word `o` of the filter record of slot `i` (R186). -/
def filtAt (k i o : Nat) : Nat × Nat := (0x8B0 + 4 * k + i / 64, i % 64 * 64 + o)

/-- A word of a filter record. -/
def State.filtReg (s : State) (k i o : Nat) : Nat := s.reg (filtAt k i o).1 (filtAt k i o).2
def State.filtS (s : State) (k i o : Nat) : Int := sxt 32 (s.filtReg k i o)
def State.setFilt (s : State) (k i o : Nat) (v : Int) : State :=
  s.setReg (filtAt k i o).1 (filtAt k i o).2 (enc 32 v)

/-- The slot filter of slot `i` runs on a new value (R186): the biquad in exact arithmetic, its state
with 16 fractional bits, the output to slot DST.  Answers the slot it wrote. -/
def State.slotFilter (s : State) (k i : Nat) (x : Int) (t : Nat) : State × List Nat :=
  let ctl := s.filtReg k i 0
  if !bitOf ctl 31 then (s, [])
  else
    let f (o : Nat) : Int := s.filtS k i o
    let xs := x * 65536
    let sum := f 0x04 * xs + f 0x08 * f 0x18 + f 0x0C * f 0x1C - f 0x10 * f 0x20 - f 0x14 * f 0x24
    let y := divRound sum 35184372088832
    let ys := clampI (-2147483648) 2147418112 (divRound sum 536870912)
    let sat := decide (y < -32768 ∨ 32767 < y)
    let s := (s.setFilt k i 0x1C (f 0x18)).setFilt k i 0x18 xs
    let s := (s.setFilt k i 0x24 (f 0x20)).setFilt k i 0x20 ys
    let s := if sat then (s.incSat (pFDC k) FDC.FILT_SAT).ev (pFDC k) (blk 1) else s
    (s.writeSlot k (ctl % 256) (clampI (-32768) 32767 y) t 1 15, [ctl % 256])

/-- A pass mark of converter `c` of a field die (R185): MARK, and a mark for every loop of the die that takes its
runs from that converter (R244). -/
def State.passMark (s : State) (k c : Nat) : State :=
  (dieRods k).foldl (fun s n =>
    if s.en (pLOOP n) && decide (s.get (pLOOP n) LOOP.CFG_MARK_CONV = c) then
      s.setLoop n { s.loop n with marks := (s.loop n).marks ++ [s.beam.t] }
    else s) (s.ev (pACQ k) (blk c))

/-- The sequencer advances after a conversion of its entry (R177, R178): the next entry, and at the end of the range
BASE again, the pass counted and any pending change of the range taken. -/
def State.seqAdvance (s : State) (k c : Nat) (v : Conv) : State :=
  let x := s.conv k c
  if !v.last then s.setConv k c { x with repDone := x.repDone + 1, ref := none }
  else if x.base + x.len ≤ x.pos + 1 then
    let b := s.get (pACQ k) (ACQ.SEQ_CFG_BASE c)
    (s.setConv k c { x with
      repDone := 0, ref := none, pos := b, base := b
      len := s.get (pACQ k) (ACQ.SEQ_CFG_LEN c) }).incFW (pACQ k) (ACQ.CNT1_PASSES c)
  else s.setConv k c { x with repDone := 0, ref := none, pos := x.pos + 1 }

/-- Four skew corrections of free values, after a run of samples 50 ns apart (R174). -/
def State.skewRun (s : State) (k c : Nat) : State :=
  (List.range 4).foldl (fun s i =>
    let (v, s) := s.free
    let x := s.conv k c
    s.setConv k c { x with slices := x.slices.set i { x.slices.getD i {} with skew := v % 65536 } }) s

/-- Whether calibration runs (R174). -/
def State.calOn (s : State) (k : Nat) : Bool :=
  s.flag (pFDC k) ⟨FDC.CAL_CTL, 0, 0⟩ && !s.flag (pFDC k) ⟨FDC.CAL_CTL, 1, 1⟩

/-- The result of a finished conversion: its slot, its filters, the pass mark after the last repetition of an entry
with MARK (R185), the sequencer's next conversion; the slots it touched. -/
def State.convEnd (s : State) (k c : Nat) (samples : List Int) (cur : Option Conv) : State × List Nat :=
  match cur with
  | none => (s, [])
  | some v =>
    let r := convResult (samples.take v.avg)
    let s := s.setConv k c { s.conv k c with cur := none }
    let flags := b2n r.2 * 8 + b2n v.urgent * 4 + b2n v.slip * 2
    let s := s.writeSlot k v.slot r.1 (v.t * 40) flags c
    let f := s.slotFilter k v.slot r.1 (v.t * 40)
    let s := f.1
    let s := if s.calOn k && v.run && !s.bit (pFDC k) FDC.CAL_STAT (16 + c) then s.skewRun k c else s
    let s := if v.mark && v.last then s.passMark k c else s
    let s := if v.urgent || !v.live then s else s.seqAdvance k c v
    (s.seqSettle k c, v.slot :: f.2)

/-- A conversion completes (R173, R183 to R186): the slot, its filter, and the sequencer.  Answers the
slots written. -/
def State.convDone (s : State) (k c : Nat) (samples : List Int) : State × List Nat :=
  s.convEnd k c samples (s.conv k c).cur

/-! ## Urgent requests -/

/-- Wake a converter that has a request and is asleep: it is ready later (R175); one that is awake
already stays ready. -/
def State.enqueue (s : State) (k c : Nat) (u : UrgReq) : State :=
  let x := s.conv k c
  let q := if u.prot then x.urg.filter UrgReq.prot ++ u :: x.urg.filter (fun r => !r.prot) else x.urg ++ [u]
  (s.setConv k c { x with urg := q }).showConv k c

/-- A refused or displaced urgent request (R182). -/
def State.urgRefused (s : State) (k c : Nat) : State :=
  ((s.incF (pACQ k) (ACQ.CNT1_URG_REFUSED c)).err (pACQ k) (blk 2)).ev (pACQ k) (blk 14)

/-- A write of URG (R182, R196). -/
def State.urgWrite (s : State) (w : Writer) (k c : Nat) (v : Word) : State × Code :=
  s.actionWrite w (pACQ k) (fun s =>
    let n := v.toNat
    let input := bitsOf n 11 8
    if !bitOf n 31 then (s, .ok)
    else if 12 ≤ input then refuse s (pACQ k) (blk 1) .writeRefused
    else if 4 ≤ (s.conv k c).urg.length then (s.urgRefused k c, .writeRefused)
    else
      let s := s.setReg (pACQ k) (ACQ.URG c) (n % 2 ^ 25 - bitsOf n 19 12 * 2 ^ 12)
      (s.enqueue k c ⟨input, orFull (bitsOf n 24 20) 32, n % 256, false, s.gridNow⟩, .ok))

def execUrgentRequest (w : Writer) (k : Fin 4) (c : Fin 12) (v : Word) (s : State) :
    Outcome State Fault Refusal := .next (finish w (pACQ k) (s.urgWrite w k c v))

/-- The firing of the comparator of input `i` of rod `n` (R182): a protection request when
URG_AUTO.MASK names the input. -/
def State.urgAuto (s : State) (n i : Nat) : State :=
  let k := n / 6
  let c := 2 * (n % 6) + i / 8
  let j := i % 8
  let mask := s.get (pACQ k) (ACQ.URG_AUTO_MASK c)
  if !mask.testBit j then s
  else
    let u : UrgReq := ⟨j, 1, s.get (pACQ k) (ACQ.URG_AUTO_SLOT_BASE c) + j, true, s.gridNow⟩
    let x := s.conv k c
    if x.urg.length < 4 then s.enqueue k c u
    else if x.urg.any (fun r => !r.prot) then
      let keep := x.urg.dropLast
      ((s.setConv k c { x with urg := keep }).urgRefused k c).enqueue k c u
    else s.urgRefused k c

/-! ## Tables and commits -/

/-- Whether an entry lies in a range in force, or in one committed and not taken, of an enabled
converter (R178). -/
def State.seqActive (s : State) (k c e : Nat) : Bool :=
  let x := s.conv k c
  let b := s.get (pACQ k) (ACQ.SEQ_CFG_BASE c)
  let l := s.get (pACQ k) (ACQ.SEQ_CFG_LEN c)
  s.seqEn k c && (decide (x.base ≤ e ∧ e < x.base + x.len) || decide (b ≤ e ∧ e < b + l))

/-- A write of a sequencer-table word (R176, R178). -/
def State.seqTableWrite (s : State) (w : Writer) (k c e i : Nat) (v : Word) : State × Code :=
  if s.seqActive k c e then refuse s (pACQ k) (blk 0) .writeRefused
  else s.plainWrite w (seqWordAt k c e i).1 (seqWordAt k c e i).2 v

def execSeqTableWrite (w : Writer) (k : Fin 4) (c : Fin 12) (e : Fin 64) (i : Fin 2) (v : Word)
    (s : State) : Outcome State Fault Refusal :=
  let p := (seqWordAt k c e i).1
  .next (finish w p (if s.pageRests p then s.restWrite w p else s.seqTableWrite w k c e i v))

/-- An ACQ commit that R178 refuses. -/
def State.acqDenied (s : State) (k : Nat) : List Nat :=
  let p := pACQ k
  let then_ (f : Fld) : Nat := s.stagedGet p f
  let bad (c : Nat) : Bool :=
    let b := then_ (ACQ.SEQ_CFG_BASE c)
    let l := then_ (ACQ.SEQ_CFG_LEN c)
    let trig (src sel : Fld) : Bool := decide (1 ≤ then_ src ∧ then_ src ≤ 3 ∧ 24 ≤ then_ sel)
    (decide (then_ (ACQ.SEQ_CFG_EN c) = 1) &&
      (decide (l = 0 ∨ 64 < l ∨ 64 < b + l) ||
        (List.range l).any (fun e => decide (12 ≤ s.seqInput k c (b + e))))) ||
    trig (ACQ.TRIG0_SRC c) (ACQ.TRIG0_SEL c) || trig (ACQ.TRIG1_SRC c) (ACQ.TRIG1_SEL c) ||
    decide (then_ (ACQ.URG_AUTO_MASK c) ≠ 0 ∧ 248 < then_ (ACQ.URG_AUTO_SLOT_BASE c))
  holds [((List.range 12).any bad, blk 1)]

/-- What follows an ACQ commit (R178): sequencers start or stop, and a changed trigger discards the
pending one of its source. -/
def State.acqApplied (s0 s : State) (k : Nat) : State :=
  (List.range 12).foldl (fun s c =>
    let drop (j o : Nat) (s : State) : State :=
      if s0.word (pACQ k) o ≠ s.word (pACQ k) o then
        let x := (s.conv k c).setSince j s.beam.t
        s.setConv k c { x with pend := x.pend.filter (fun e => e.src != j), napping := false }
      else s
    let s := drop 1 (ACQ.TRIG1 c) (drop 0 (ACQ.TRIG0 c) s)
    let was := s0.seqEn k c
    let is := s.seqEn k c
    let s := if is && !was then s.seqStart k c else if was && !is then s.seqStop k c else s
    if (s.conv k c) = {} ∧ !is then s else s.seqSettle k c) s

/-- An FDC commit that R186 refuses: it gives a filter record the DST of its own slot. -/
def State.fdcDenied (s : State) (k : Nat) : List Nat :=
  let hit := (s.pg (pFDC k)).staged.any (fun e =>
    let p := e.1 / 4096
    let o := e.1 % 4096
    decide (0x8B0 + 4 * k ≤ p ∧ p < 0x8B4 + 4 * k ∧ o % 64 = 0) &&
      decide (e.2.toNat % 256 = (p - (0x8B0 + 4 * k)) * 64 + o / 64))
  holds [(hit, blk 0)]

/-- What follows an FDC commit (R175, R186): a changed filter record loses its state, and
PWR_CTL.AWAKE wakes converters. -/
def State.fdcApplied (s0 s : State) (k : Nat) : State :=
  let s := (List.range 256).foldl (fun s i =>
    if [0x00, 0x04, 0x08, 0x0C, 0x10, 0x14].any (fun o => decide (s0.filtReg k i o ≠ s.filtReg k i o)) then
      [0x18, 0x1C, 0x20, 0x24].foldl (fun s o => s.setFilt k i o 0) s
    else s) s
  if s0.word (pFDC k) FDC.PWR_CTL = s.word (pFDC k) FDC.PWR_CTL then s
  else (List.range 12).foldl (fun s c => s.showConv k c) s

/-! ## Calibration and power -/

/-- Whether a reference conversion now, 50 ns long, delays no sampling instant that is known in advance (R174): the
next one whose instant is fixed, or of the triggers that the sequencer waits for. -/
def State.calFits (s : State) (k c : Nat) : Bool :=
  let x := s.conv k c
  let e := max x.free s.gridNow + 320
  let d := s.seqDelay k c x.pos * 16
  match s.seqInstant k c with
  | some t => decide (e ≤ max t.1 t.2)
  | none => !s.seqWaits k c || (waitSrcs (s.seqWait k c x.pos)).all (fun j =>
      match s.knownInstant k c j with
      | some t => decide (e ≤ t + d)
      | none => true)

/-- A reference conversion of a slice (R174): it takes the converter for 50 ns, its offset and gain corrections take
values the manual does not give; STARVED clears, and CONVERGED is set once every slice has made 65,536. -/
def execCalConversion (k : Fin 4) (c : Fin 12) (slice : Fin 4) (s : State) :
    Outcome State Fault Refusal :=
  let x := s.conv k c
  if !s.calOn k ∨ !s.convAwake k c ∨ !x.ready ∨ x.cur.isSome ∨ !x.urg.isEmpty ∨ !s.calFits k c then .next s
  else
    let free := max x.free s.gridNow + 320
    let (o, s) := s.free
    let (g, s) := s.free
    let y := x.slices.getD slice {}
    let sl := x.slices.set slice { y with
      ofs := o % 65536, gain := g % 65536, refs := min (y.refs + 1) 65536 }
    let s := s.setConv k c { x with slices := sl, free := free, lastIn := none }
    let s := s.setBit (pFDC k) FDC.CAL_STAT (16 + c) false
    .next (if sl.all (fun y => decide (65536 ≤ y.refs)) then s.setBit (pFDC k) FDC.CAL_STAT c true
      else s)

/-- No reference conversion for 100 ms of an awake converter (R174). -/
def execCalStarved (k : Fin 4) (c : Fin 12) (s : State) : Outcome State Fault Refusal :=
  if s.convAwake k c then
    .next (((s.setBit (pFDC k) FDC.CAL_STAT (16 + c) true).err (pFDC k) (blk 1)).ev (pFDC k) (blk 0))
  else .next s

/-- The corrections that CAL_SEL selects (R197): offset, gain or skew. -/
def State.calRead (s : State) (k : Nat) (f : SliceX → Nat) : Word :=
  let sel := s.reg (pFDC k) FDC.CAL_SEL
  if 12 ≤ sel % 16 then 0 else wordOf (f ((s.conv k (sel % 16)).slices.getD (sel / 16 % 4) {}))

/-- A napping sequencer wakes its converter (R175). -/
def execConverterWake (k : Fin 4) (c : Fin 12) (s : State) : Outcome State Fault Refusal :=
  let x := s.conv k c
  if x.napping then .next ((s.setConv k c { x with napping := false }).showConv k c) else .next s

/-- A waking converter is ready (R175): instants before this move here. -/
def execConverterReady (k : Fin 4) (c : Fin 12) (s : State) : Outcome State Fault Refusal :=
  let x := s.conv k c
  if s.convAwake k c ∧ !x.ready then
    .next (s.setConv k c { x with ready := true, free := max x.free s.gridNow })
  else .next s

/-! ## Transient digitizers -/

/-- TD_CTL in force of a digitizer: fields of its record (R189, R198). -/
def DigX.en (x : DigX) : Bool := bitOf x.ctl 31
def DigX.timed (x : DigX) : Bool := bitOf x.ctl 28
def DigX.post (x : DigX) : Nat := orFull (x.ctl % 32) 31
def DigX.everyN (x : DigX) : Nat := orFull (x.every % 65536) 65536

/-- Whether a digitizer sleeps between captures (R194). -/
def DigX.naps (x : DigX) : Bool := bitOf x.ctl 29 && decide (64 ≤ x.everyN)

/-- The first sample of a capture (R188): the 0.5 ns grid point nearest to 500 ns before its edge, or the start of a
timed one (1/256 ns). -/
def CapRec.start (r : CapRec) : Nat :=
  if r.timed then r.edge - 128000 else (r.edge - 128000 + 64) / 128 * 128

/-- The end of a capture. -/
def CapRec.stop (r : CapRec) : Nat := r.start + r.count * 128

/-- Length of a record in bytes (R193). -/
def CapRec.len (r : CapRec) : Nat := 64 + (2 * r.count + 63) / 64 * 64

/-- Show a digitizer's state in TD_STAT (0 OFF, 1 NAP, 2 ARMED, 3 CAPTURING). -/
def State.showDig (s : State) (k d : Nat) : State :=
  let x := s.dig (2 * k + d)
  let st := if !x.caps.isEmpty then 3 else if !x.en then 0 else if x.ready then 2 else 1
  s.set (pTDIG k) ⟨TDIG.TD_STAT d, 1, 0⟩ st

/-- The capture buffer of a die, oldest first. -/
def State.capBuf (s : State) (k : Nat) : List CapRec := tabGet (fun _ => []) s.caps k

/-- Bytes held or allocated in the capture buffer of a die (R192). -/
def State.capBytes (s : State) (k : Nat) : Nat :=
  ((s.capBuf k ++ (s.dig (2 * k)).caps ++ (s.dig (2 * k + 1)).caps).map CapRec.len).foldl (· + ·) 0

/-- Show the capture buffer in BUF_STAT (R198): the records complete, and the space they and the captures in progress
take. -/
def State.showBuf (s : State) (k : Nat) : State :=
  let s := s.set (pTDIG k) ⟨TDIG.BUF_STAT, 31, 16⟩ (s.capBuf k).length
  s.set (pTDIG k) ⟨TDIG.BUF_STAT, 13, 0⟩ ((s.capBytes k + 1023) / 1024)

def State.setCapBuf (s : State) (k : Nat) (l : List CapRec) : State :=
  State.showBuf { s with caps := tabPut (fun _ => []) s.caps k l } k

/-- Take the settings of the registers into force (R189).  A digitizer that is enabled, or no longer sleeps, wakes;
one disabled sleeps, and a timed one with NAP sleeps until 20 µs before its start (R194).  Edges whose windows have
not begun are dropped with EN (DESIGN CHOICE, log 47). -/
def State.digLoad (s : State) (k d : Nat) : State :=
  let x := s.dig (2 * k + d)
  let y : DigX := { x with
    ctl := s.reg (pTDIG k) (TDIG.TD_CTL d), every := s.reg (pTDIG k) (TDIG.TD_EVERY d)
    timeNs := s.reg (pTDIG k) (TDIG.TD_TIME_NS d) }
  let new := decide (x.ctl ≠ y.ctl ∨ x.every ≠ y.every ∨ x.timeNs ≠ y.timeNs)
  let sleep := !y.en || (new && y.timed && y.naps)
  let s := s.setDig (2 * k + d) { y with
    count := if x.en then x.count else 0, waits := if y.en then x.waits else []
    ready := x.ready && !sleep
    waking := !sleep && !x.ready && (x.waking || !x.en || !y.naps)
    armedAt := if new then s.beam.t else x.armedAt }
  s.showDig k d

/-- A capture's window begins (R188, R192): its record is allocated whole, or the capture is lost for
lack of room. -/
def State.digStart (s : State) (k d : Nat) (r : CapRec) : State × Bool :=
  if 8388608 < s.capBytes k + r.len then
    (((s.incSat (pTDIG k) TDIG.OVF_CNT).err (pTDIG k) (blk 1)).ev (pTDIG k) (blk 2), false)
  else
    let x := s.dig (2 * k + d)
    (((s.setDig (2 * k + d) { x with caps := x.caps ++ [r] }).showDig k d).showBuf k, true)

/-- The window of a matching edge begins (R188, R189, R192, R194).  It counts as BUSY while the digitizer is not
ready or another capture runs.  Otherwise it is captured once TD_EVERY edges have been counted, and the count
restarts with it.  Without room the digitizer stays armed. -/
def State.digEdge (s : State) (k d : Nat) (r : CapRec) : State :=
  let i := 2 * k + d
  let x := s.dig i
  if !x.ready || x.caps.any (fun c => decide (r.start < c.stop)) then
    (s.setDig i { x with count := x.count + 1 }).incF (pTDIG k) (TDIG.TD_CNT_BUSY d)
  else if x.count < x.everyN then s.setDig i { x with count := x.count + 1 }
  else
    let t := s.digStart k d r
    t.1.setDig i { t.1.dig i with count := if t.2 then 1 else x.count + 1 }

/-- The windows of a digitizer that have begun by now, in order. -/
def State.digBegin (s : State) (k d : Nat) : State :=
  let x := s.dig (2 * k + d)
  let (go, rest) := x.waits.span (fun r => decide (r.start ≤ s.beam.t))
  if go.isEmpty then s
  else go.foldl (fun s r => s.digEdge k d r) (s.setDig (2 * k + d) { x with waits := rest })

/-- The windows of all digitizers that have begun by now. -/
def State.digTick (s : State) : State :=
  s.digs.foldl (fun s e => s.digBegin (e.1 / 2) (e.1 % 2)) s

/-- DIGITIZER_EDGE: a released edge at `t` (1/16 tick); one that matches the settings in force waits for its window
(R188). -/
def execDigitizerEdge (k : Fin 4) (d : Fin 2) (rod : Fin 6) (pos : Fin 12) (on : Bool) (t : Nat)
    (s : State) : Outcome State Fault Refusal :=
  let i := 2 * k.val + d.val
  let x := s.dig i
  let lv := bitsOf x.ctl 27 26
  let hit := x.en && !x.timed && decide (bitsOf x.ctl 25 23 = rod.val ∧ bitsOf x.ctl 22 19 = pos.val) &&
    (lv == 0 || lv == 3 || (lv == 1 && on) || (lv == 2 && !on))
  if !hit then .next s
  else
    let r : CapRec :=
      { edge := t * 40, rod := k.val * 6 + rod.val, pos := pos, level := if on then 1 else 2
        input := bitsOf x.ctl 15 10, dig := d, count := 1000 + x.post * 1000, life := bitOf x.ctl 30 }
    let w := x.waits.filter (fun q => decide (q.edge ≤ r.edge)) ++ r :: x.waits.filter (fun q => decide (r.edge < q.edge))
    .next ((s.setDig i { x with waits := w }).digBegin k d)

/-- The latest beam instant at or before now whose nanoseconds are `ns` (1/256 ns). -/
def State.instantOf (s : State) (ns : Nat) : Option Nat :=
  let u := s.beam.t / 256000000000 * 256000000000 + ns * 256
  if 1000000000 ≤ ns then none
  else if u ≤ s.beam.t then some u
  else if 256000000000 ≤ u then some (u - 256000000000)
  else none

/-- TIMED_CAPTURE_START (R188, R192): the beam reaches TD_TIME_NS for the first time since the commit.  A capture
lost for lack of room leaves the digitizer armed. -/
def execTimedCaptureStart (k : Fin 4) (d : Fin 2) (s : State) : Outcome State Fault Refusal :=
  let i := 2 * k.val + d.val
  let x := s.dig i
  match s.instantOf x.timeNs with
  | some u =>
    if x.en && x.timed && x.caps.isEmpty && decide (x.armedAt < u) then
      .next ((s.setDig i { x with armedAt := u }).digStart k d
        { edge := u + 128000, timed := true, rod := k.val * 6 + bitsOf x.ctl 25 23
          pos := bitsOf x.ctl 22 19, input := bitsOf x.ctl 15 10, dig := d
          count := 1000 + x.post * 1000, life := bitOf x.ctl 30 }).1
    else .next s
  | none => .next s

/-- CAPTURE_END: the oldest capture completes (R188, R189, R192, R194).  Its samples are in the capture buffer, EN
clears after a timed one, a digitizer that naps sleeps, and settings committed meanwhile take effect. -/
def execCaptureEnd (k : Fin 4) (d : Fin 2) (samples : List Int) (s : State) :
    Outcome State Fault Refusal :=
  let i := 2 * k.val + d.val
  let x := s.dig i
  match x.caps with
  | [] => .next s
  | r :: rest =>
    let seq := s.reg (pTDIG k) TDIG.CAP_SEQ
    let nap := x.naps && !x.timed
    let s := s.setDig i { x with caps := rest, ready := x.ready && !nap, waking := x.waking && !nap }
    let s := if r.timed && decide (s.reg (pTDIG k) (TDIG.TD_CTL d) = x.ctl) then s.set (pTDIG k) (TDIG.TD_CTL_EN d) 0
      else s
    let s := s.setReg (pTDIG k) TDIG.CAP_SEQ ((seq + 1) % 2 ^ 32)
    let s := s.incFW (pTDIG k) ⟨TDIG.TD_STAT d, 31, 16⟩
    let s := s.setCapBuf k (s.capBuf k ++ [{ r with seq := seq, samples := samples }])
    .next (if rest.isEmpty then s.digLoad k d else s.showDig k d)

/-- The zero crossings of a sequence with hysteresis `h` (R190): the indices at which its sign, taken
beyond ±h, changes. -/
def crossings (h : Int) : List Int → Nat → Option Bool → List Nat
  | [], _, _ => []
  | x :: r, i, last =>
    if h < x then
      (if last = some false then [i] else []) ++ crossings h r (i + 1) (some true)
    else if x < -h then
      (if last = some true then [i] else []) ++ crossings h r (i + 1) (some false)
    else crossings h r (i + 1) last

/-- Running sums of a list (R190: the integrated current). -/
def runSums : Int → List Int → List Int
  | _, [] => []
  | a, x :: r => (a + x) :: runSums (a + x) r

/-- Features of a capture (R190) in thousandths of a code: B as a sum over 1,000 samples; `rog`: the
input is a Rogowski coil.  F0, F1, F2 with their validity. -/
def features (rog : Bool) (l : List Int) : Int × (Nat × Option Nat × Option Nat) :=
  let pre := l.take 1000
  let post := l.drop 1000
  let sumB := pre.foldl (· + ·) 0
  let y := post.map (fun x => x * 1000 - sumB)
  let maxAbs (l : List Int) : Nat := (l.map Int.natAbs).foldl max 0
  let diffs := (post.zip (post.drop 1)).map (fun p => p.2 - p.1)
  let f0 := if rog then (16 * maxAbs y + 500) / 1000 else 16 * maxAbs diffs
  let c := if rog then runSums 0 y else y
  let last := (c.reverse.take 256)
  let eSum := (last.foldl (· + ·) 0).natAbs
  let n := max last.length 1
  let f1 := if eSum < 1024 * 1000 * n then none
    else
      let num : Int := 32768 * ((maxAbs c * n : Nat) - (eSum : Int))
      some (min 0xFFFF (divRound num (eSum : Int)).toNat)
  let pk := (y.map Int.natAbs).findIdx (fun a => a == maxAbs y)
  let cr := crossings 16000 (y.drop pk) 0 none
  let f2 := if cr.length < 3 then none
    else
      let span := cr.getLastD 0 - cr.headD 0
      some ((2 * (cr.length - 1) * 200000 + 2 * span) / (4 * span))
  (divRound sumB 1000, f0, f1, f2)

/-- One feature of the life record of a module position (R168): its baseline while captures are
fewer than `n`, then an exponential mean of weight 1/64. -/
def sigStep (cur new : Nat) : Nat := (divRound (63 * (cur : Int) + new) 64).toNat

/-- The feature codes that two registers hold: peak di/dt, overshoot, ringing frequency (R170). -/
def State.sigGet (s : State) (n a b : Nat) : List Nat :=
  [s.reg (pPROT n) a % 65536, s.reg (pPROT n) a / 65536, s.reg (pPROT n) b % 65536]

/-- Store three feature codes. -/
def State.sigPut (s : State) (n a b : Nat) (v : List Nat) : State :=
  (s.setReg (pPROT n) a (v.getD 1 0 * 2 ^ 16 + v.getD 0 0)).setReg (pPROT n) b (v.getD 2 0)

/-- A capture feeds the life record of position `m` of rod `n` (R168).  A baseline that is not 0 is complete, one
that firmware has restored among them (R169).  SIG_CUR starts at the baseline, its mean is rounded, halves up, and
drift is judged on it (DESIGN CHOICE, log 189). -/
def State.lifeFeature (s : State) (n m f0 f1 f2 : Nat) : State :=
  let p := pPROT n
  let x := s.life n m
  let bn := orFull (s.get p PROT.SIG_CFG_SIG_BASE_N) 32
  let base := s.sigGet n (PROT.SIG_BASE_A m) (PROT.SIG_BASE_B m)
  if base = [0, 0, 0] ∧ x.baseCnt < bn then
    let sums := [x.sumA + f0, x.sumB + f1, x.sumC + f2]
    let s := s.setLife n m { x with
      baseCnt := x.baseCnt + 1, sumA := x.sumA + f0, sumB := x.sumB + f1, sumC := x.sumC + f2
      curOk := decide (x.baseCnt + 1 = bn) }
    if x.baseCnt + 1 = bn then
      let v := sums.map (fun v => (divRound v bn).toNat % 65536)
      (s.sigPut n (PROT.SIG_BASE_A m) (PROT.SIG_BASE_B m) v).sigPut n (PROT.SIG_CUR_A m) (PROT.SIG_CUR_B m) v
    else s
  else
    let old := if x.curOk then s.sigGet n (PROT.SIG_CUR_A m) (PROT.SIG_CUR_B m) else base
    let cur := (old.zip [f0, f1, f2]).map (fun e => sigStep e.1 e.2)
    let s := (s.setLife n m { x with curOk := true }).sigPut n (PROT.SIG_CUR_A m) (PROT.SIG_CUR_B m) cur
    let lim := orFull (s.get p PROT.SIG_CFG_SIG_DRIFT_LIM) 26
    if (List.range 3).any (fun i => decide (lim * base.getD i 0 <
        256 * ((cur.getD i 0 : Int) - base.getD i 0).natAbs)) then
      (s.setBit p PROT.LIFE_STAT (4 + m) true).ev p (blk 4)
    else s

/-- The features of the oldest capture of a digitizer that has none yet (R190, R191). -/
def execFeatureExtract (k : Fin 4) (d : Fin 2) (s : State) : Outcome State Fault Refusal :=
  match (s.capBuf k).find? (fun r => !r.done && decide (r.dig = d.val)) with
  | none => .next s
  | some r =>
    let j := r.input % 6
    let rog := decide (j < 3)
    let (b, f0, f1, f2) := features rog r.samples
    let fv := 1 + b2n f1.isSome * 2 + b2n f2.isSome * 4
    let life := r.life && rog && decide (r.pos / 4 = j) &&
      decide (fv = 7) && !r.trip && !r.withdrawn && decide (r.input / 6 + k.val * 6 = r.rod)
    let r' := { r with
      base := b, f0 := min f0 65535, f1 := f1.getD 0, f2 := min (f2.getD 0) 65535, fvalid := fv
      life := life, done := true }
    let s := s.setCapBuf k ((s.capBuf k).map (fun q => if q.seq = r.seq then r' else q))
    let s := s.setReg (pTDIG k) (TDIG.TD_FEAT0 d) (r'.f1 * 2 ^ 16 + r'.f0)
    let s := s.setReg (pTDIG k) (TDIG.TD_FEAT1 d) (fv * 2 ^ 16 + r'.f2)
    let s := s.incF (pTDIG k) (TDIG.TD_CNT_INVALID d) (b2n f1.isNone + b2n f2.isNone)
    let s := s.ev (pTDIG k) (blk 0)
    .next (if life then s.lifeFeature r.rod j r'.f0 r'.f1 r'.f2 else s)

/-- The bytes of a capture record (R193). -/
def CapRec.bytes (r : CapRec) : List Nat :=
  let flags := b2n r.trip + 2 * b2n r.withdrawn + 4 * b2n r.timed + 8 * b2n r.life
  let body := (r.samples.take r.count).flatMap (fun x => leBytes 2 (enc 16 x))
  leBytes 4 r.len ++ leBytes 4 r.seq ++ leBytes 4 (r.edge / 256 % 1000000000) ++
    leBytes 6 (r.edge / 256000000000) ++ [r.edge % 256, flags, r.rod, r.pos, r.level, r.input, r.dig,
      0, 0, 0] ++ leBytes 4 r.count ++ leBytes 2 (enc 16 r.base) ++ leBytes 2 r.f0 ++ leBytes 2 r.f1 ++
    leBytes 2 r.f2 ++ [r.fvalid] ++ List.replicate 23 0 ++ body ++
    List.replicate (r.len - 64 - body.length) 0

/-- The bytes of a pad record that fills `n` bytes (R192, R193). -/
def padBytes (n : Nat) : List Nat :=
  leBytes 4 n ++ List.replicate 15 0 ++ [16] ++ List.replicate (n - 20) 0

/-- A completed record is copied to the APC ring when there is room (R192). -/
def execDrainRecord (k : Fin 4) (s : State) : Outcome State Fault Refusal :=
  let p := pTDIG k
  match s.capBuf k with
  | [] => .next s
  | r :: rest =>
    let size := s.reg p TDIG.DRAIN_SIZE % 65536 * 65536
    let base := s.get p ⟨TDIG.DRAIN_BASE_LO, 31, 16⟩ * 65536 + s.reg p TDIG.DRAIN_BASE_HI % 256 * 2 ^ 32
    let wr := s.reg p TDIG.DRAIN_WR
    let rd := s.reg p TDIG.DRAIN_RD
    let pad := if size < wr + r.len then size - wr else 0
    let used := (wr + size - rd) % (max size 1)
    if !s.flag p TDIG.DRAIN_CTL_EN ∨ !r.done ∨ size ≤ used + pad + r.len then .next s
    else
      let s := s.setMemBytes (base + wr) (if pad = 0 then [] else padBytes pad)
      let at_ := if pad = 0 then wr else 0
      let s := s.setMemBytes (base + at_) r.bytes
      let s := s.setReg p TDIG.DRAIN_WR ((at_ + r.len) % (max size 1))
      .next ((s.setCapBuf k rest).ev p (blk 1))

/-- DIGITIZER_WAKE (R194): a sleeping digitizer wakes once TD_EVERY − 16 matching edges have been counted, or 20 µs
before its timed capture; it is ready within 10 µs (DIGITIZER_READY). -/
def execDigitizerWake (k : Fin 4) (d : Fin 2) (s : State) : Outcome State Fault Refusal :=
  let i := 2 * k.val + d.val
  let x := s.dig i
  let near := decide (x.timeNs < 1000000000 ∧
    (x.timeNs * 256 + 256000000000 - s.beam.t % 256000000000) % 256000000000 ≤ 5120000)
  if x.en && !x.ready && (if x.timed then near else decide (x.everyN ≤ x.count + 16)) then
    .next (s.setDig i { x with waking := true })
  else .next s

/-- DIGITIZER_READY: a waking digitizer is ready, NAP ends (R194). -/
def execDigitizerReady (k : Fin 4) (d : Fin 2) (s : State) : Outcome State Fault Refusal :=
  let i := 2 * k.val + d.val
  let x := s.dig i
  if x.waking then
    .next ((s.setDig i { x with ready := true, waking := false }).showDig k d)
  else .next s

/-- A TDIG commit that R198 refuses. -/
def State.tdigDenied (s : State) (k : Nat) : List Nat :=
  let p := pTDIG k
  let then_ (f : Fld) : Nat := s.stagedGet p f
  let size := then_ ⟨TDIG.DRAIN_SIZE, 15, 0⟩ * 65536
  let base := then_ ⟨TDIG.DRAIN_BASE_LO, 31, 16⟩ * 65536 + then_ ⟨TDIG.DRAIN_BASE_HI, 7, 0⟩ * 2 ^ 32
  holds [([0, 1].any (fun d => decide (then_ (TDIG.TD_CTL_EN d) = 1 ∧
      (35 < then_ (TDIG.TD_CTL_INPUT d) ∨ 5 < then_ (TDIG.TD_CTL_ROD d)))) ||
    decide (then_ TDIG.DRAIN_CTL_EN = 1 ∧ (size = 0 ∨ 2 ^ 40 < base + size)), blk 0)]

/-- What follows a TDIG commit: settings take effect unless a capture is in progress (R189). -/
def State.tdigApplied (s : State) (k : Nat) : State :=
  [0, 1].foldl (fun s d => if (s.dig (2 * k + d)).caps.isEmpty then s.digLoad k d else s) s

end Sys2Proof.Machine
end

