-- ==== Sys2Proof/Machine/Modulator.lean ====
section
/-! DEFINITION. The modulator as arithmetic (spec/04, R93 to R106, R616): zero-sequence, half-widths,
ideal states, transitions with dead time, minimum pulses.  Times are in 1/16 tick. -/

namespace Sys2Proof.Machine

/-- What a segment takes from the rod's registers (R104). -/
structure ModCfg where
  mode : Nat
  dtPO : Nat
  dtOP : Nat
  dtNO : Nat
  dtON : Nat
  dtPN : Nat
  dtNP : Nat
  minp : Nat
  stretch : Bool
deriving DecidableEq, Repr

/-- Signed division rounded to the nearest, halves towards +∞ (R97, R98), for a positive divisor. -/
def roundDiv (a b : Int) : Int := (2 * a + b) / (2 * b)

/-- The zero-sequence z of R98, in 2⁻¹⁵. -/
def zeroSeq (scheme : Nat) (a b c : Int) : Int :=
  let hi := max a (max b c)
  let lo := min a (min b c)
  if scheme = 1 then
    let d := a * a + b * b + c * c
    if d = 0 then 0 else roundDiv (-(a * b * c)) d
  else if scheme = 2 then roundDiv (-(hi + lo)) 2
  else if scheme = 3 then (if 0 ≤ hi + lo then 32768 - hi else -32768 - lo)
  else 0

/-- The half-width h of R97. -/
def halfWidth (mode : Nat) (v : Int) (period : Nat) : Nat :=
  if mode = 0 then (roundDiv ((v.natAbs * period : Nat) : Int) 65536).toNat
  else (roundDiv ((32768 + v) * (period : Int)) 131072).toNat

/-- The state a leg rests in outside the active interval, and the active state (R96, R97). -/
def idleState (mode : Nat) : Leg := if mode = 0 then .o else .n
def activeState (mode : Nat) (v : Int) : Leg :=
  if mode = 1 ∨ 0 < v then .p else if v < 0 then .n else .o

/-- Which part of a period a segment covers (R94). -/
inductive Part where
  | whole | first | second
deriving DecidableEq, Repr

/-- The ideal states of a segment (R96): the state at its start, and the changes within it, as offsets
from the start.  The active interval [m − a, m + b) is clipped to the period. -/
def idealStates (mode : Nat) (v : Int) (period : Nat) (part : Part) : Leg × List (Nat × Leg) :=
  let m := period / 2
  let h := halfWidth mode v period
  let a := min h m
  let b := min h (period - m)
  let idle := idleState mode
  let act := activeState mode v
  if act = idle ∨ (h = 0) then (idle, [])
  else
    match part with
    | .whole =>
      let tail := if m + b < period then [(m + b, idle)] else []
      if a = m then (act, tail) else (idle, (m - a, act) :: tail)
    | .first => if a = m then (act, []) else (idle, [(m - a, act)])
    | .second => if b < period - m then (act, [(b, idle)]) else (act, [])

/-- Length of a segment. -/
def partLen (period : Nat) : Part → Nat
  | .whole => period
  | .first => period / 2
  | .second => period - period / 2

/-- The part of a period that the next segment covers. -/
def partNext : Part → Part
  | .whole => .whole
  | .first => .second
  | .second => .first

/-- The gates of a leg state (R93), by switch j. -/
def legGates (mode : Nat) : Leg → List Nat
  | .off => []
  | .p => if mode = 0 then [0, 1] else [0]
  | .o => [1, 2]
  | .n => if mode = 0 then [2, 3] else [3]

/-- The gate a transition turns off and the one it turns on (R101). -/
def gateOff (mode : Nat) (f t : Leg) : Nat :=
  ((legGates mode f).find? (fun g => !(legGates mode t).contains g)).getD 0
def gateOn (mode : Nat) (f t : Leg) : Nat :=
  ((legGates mode t).find? (fun g => !(legGates mode f).contains g)).getD 0

/-- The dead time of a transition (R101). -/
def deadTime (c : ModCfg) (f t : Leg) : Nat :=
  if c.mode = 1 then (if f = .p then c.dtPN else c.dtNP)
  else if f = .p then c.dtPO
  else if f = .n then c.dtNO
  else if t = .p then c.dtOP
  else c.dtON

/-- A transition of a leg: nominal time, states, whether it may not be dropped (R102, R616), whether it is the
second of a replacement pair, and whether it has been moved under R616, and then whether the first move was made
under R106. -/
structure Tr where
  t : Nat
  frm : Leg
  dst : Leg
  pair : Bool := false
  second : Bool := false
  moved : Option Bool := none
deriving DecidableEq, Repr

/-- Whether a transition may not be dropped (R102, R616). -/
def Tr.fixed (x : Tr) : Bool := x.pair || x.moved.isSome

/-- The distance R616 sets from a moved transition's turn-on edge. -/
def ModCfg.gap (c : ModCfg) : Nat := if c.minp = 0 then 1 else c.minp

/-- The distance of the transitions of a pair whose first has dead time `d1` (R102); transitions of a leg never
fall at one time (R616), so it is one unit where both terms are 0 (DESIGN CHOICE, log 179). -/
def ModCfg.pairGap (c : ModCfg) (d1 : Nat) : Nat := if d1 + c.minp = 0 then 1 else d1 + c.minp

/-- A transition after one at `lt` with dead time `ldt`: reached by it, it moves (R616); the second of a pair
keeps its distance from the first (R102). -/
def pushAfter (c : ModCfg) (lt ldt : Nat) (tag : Bool) (x : Tr) : Tr :=
  if x.t ≤ lt then { x with t := lt + ldt + c.gap, moved := some (x.moved.getD tag) }
  else if x.second && decide (x.t < lt + c.pairGap ldt) then { x with t := lt + c.pairGap ldt }
  else x

/-- Chain a list of changes from a state (R101 to R103, R616): changes to the state held are dropped,
a direct change between P and N is replaced by two, and a transition reached by a moved one moves.
`lt` and `ldt` are the time and dead time of the transition before, `tag` whether its first move was
made under R106; from all gates off no dead time
applies. -/
def chainTr (c : ModCfg) : Leg → Nat → Nat → Bool → List Tr → List Tr
  | _, _, _, _, [] => []
  | st, lt, ldt, tag, x :: r =>
    if x.dst = st then chainTr c st lt ldt tag r
    else if st = .off then
      let y := { x with frm := .off }
      y :: chainTr c y.dst 0 0 false r
    else
      let y := pushAfter c lt ldt tag { x with frm := st }
      if c.mode = 0 ∧ ((st = .p ∧ x.dst = .n) ∨ (st = .n ∧ x.dst = .p)) then
        let d1 := deadTime c st .o
        let y1 : Tr := { y with dst := .o, pair := true }
        let y2 : Tr := { t := y.t + c.pairGap d1, frm := .o, dst := x.dst, pair := true, second := true }
        y1 :: y2 :: chainTr c x.dst y2.t (deadTime c .o x.dst) (y.moved.getD false) r
      else y :: chainTr c x.dst y.t (deadTime c st x.dst) (y.moved.getD false) r

/-- The transitions of a segment that starts at `u` (R96, R103). -/
def segTr (c : ModCfg) (st : Leg) (lt ldt : Nat) (tag : Bool) (u : Nat) (ideal : Leg × List (Nat × Leg)) : List Tr :=
  chainTr c st lt ldt tag
    (({ t := u, frm := st, dst := ideal.1 } : Tr) ::
      ideal.2.map (fun e => ({ t := u + e.1, frm := st, dst := e.2 } : Tr)))

/-- The time at which a gate is next turned off by a list of transitions. -/
def offTime (mode : Nat) (g : Nat) : List Tr → Option Nat
  | [] => none
  | x :: r => if x.frm ≠ .off ∧ gateOff mode x.frm x.dst = g then some x.t else offTime mode g r

/-- Change the transition that next turns a gate off. -/
def onOff (mode : Nat) (g : Nat) (f : Tr → Option Tr) : List Tr → List Tr
  | [] => []
  | x :: r =>
    if x.frm ≠ .off ∧ gateOff mode x.frm x.dst = g then
      match f x with
      | some y => y :: r
      | none => r
    else x :: onOff mode g f r

/-- Whether the transition that next turns a gate off may not be dropped. -/
def offFixed (mode : Nat) (g : Nat) : List Tr → Bool
  | [] => false
  | x :: r => if x.frm ≠ .off ∧ gateOff mode x.frm x.dst = g then x.fixed else offFixed mode g r

/-- Move every later transition that a moved one now reaches, in turn (R102, R616). -/
def pushAll (c : ModCfg) (lt ldt : Nat) (tag : Bool) : List Tr → List Tr
  | [] => []
  | x :: r =>
    let y := pushAfter c lt ldt tag x
    if y.t ≠ x.t ∧ x.frm ≠ .off then y :: pushAll c y.t (deadTime c y.frm y.dst) tag r
    else x :: r

/-- Move the transition that ends a pulse of gate `g` to a time, and those it then reaches. -/
def stretchEnd (c : ModCfg) (g t : Nat) : List Tr → List Tr
  | [] => []
  | x :: r =>
    if x.frm ≠ .off ∧ gateOff c.mode x.frm x.dst = g then
      { x with t := t } :: pushAll c t (deadTime c x.frm x.dst) false r
    else x :: stretchEnd c g t r

/-- What a segment of one leg gives: edges (switch j, time, level), the counts of R105 and R106, and
what the leg carries on. -/
structure LegOut where
  edges : List (Nat × Nat × Bool) := []
  drop : Nat := 0
  stretch : Nat := 0
  fstretch : Nat := 0
  mem : LegMem := {}
deriving DecidableEq, Repr

/-- The transitions of a segment in turn (R103, R105, R106).  `next` is the ideal of the segment that
follows if the references repeat, and `u'` its start; `fuel` bounds the transitions.  A pulse that is kept
although MIN_PULSE = 0 lasts one unit (DESIGN CHOICE, log 179). -/
def legRun (c : ModCfg) (next : Leg × List (Nat × Leg)) (u' : Nat) :
    Nat → List Tr → LegOut → LegOut
  | 0, _, o => o
  | _, [], o => o
  | fuel + 1, x :: r, o =>
    let st := o.mem.st
    let endState := (r.getLast?.map Tr.dst).getD x.dst
    let offAt (g lt ldt : Nat) (r : List Tr) : Option Nat :=
      match offTime c.mode g r with
      | some t => some t
      | none =>
        match r.getLast? with
        | some z => offTime c.mode g (segTr c endState z.t (deadTime c z.frm z.dst) false u' next)
        | none => offTime c.mode g (segTr c endState lt ldt false u' next)
    let count (tag : Option Bool) (o : LegOut) : LegOut :=
      match tag with
      | some true => { o with fstretch := o.fstretch + 1 }
      | some false => { o with stretch := o.stretch + 1 }
      | none => o
    let least := c.gap
    if x.frm = .off then
      let gates := legGates c.mode x.dst
      let short := gates.filter (fun g =>
        match offAt g x.t 0 r with
        | some t => decide (t < x.t + least)
        | none => false)
      if short ≠ [] ∧ (!c.stretch ∨ c.minp = 0) ∧ !short.any (fun g => offFixed c.mode g r) then
        let r' := match r with
          | [] => []
          | y :: q => { y with frm := .off } :: q
        legRun c next u' fuel r' { o with drop := o.drop + 1 }
      else
        let r' := short.foldl (fun r g => stretchEnd c g (x.t + c.gap) r) r
        let o := { o with
          edges := o.edges ++ gates.map (fun g => (g, x.t, true))
          stretch := o.stretch + short.length
          mem := { st := x.dst, lastT := x.t, lastDt := 0,
                   opened := gates.map (fun g => (g, x.t, short.contains g)) } }
        legRun c next u' fuel r' o
    else
      let gOff := gateOff c.mode x.frm x.dst
      let gOn := gateOn c.mode x.frm x.dst
      let dt := deadTime c x.frm x.dst
      let carried := o.mem.opened.find? (fun e => e.1 == gOff)
      let need := match carried with
        | some e => decide (x.t < e.2.1 + least)
        | none => false
      let forced := match carried with
        | some e => need && !e.2.2
        | none => false
      let t := match carried with
        | some e => if need then e.2.1 + least else x.t
        | none => x.t
      let r1 := if need then pushAll c t dt forced r else r
      let short : Bool := match offAt gOn t dt r1 with
        | some y => decide (t < y ∧ y < t + dt + least)
        | none => false
      if short ∧ (!c.stretch ∨ c.minp = 0) ∧ !x.fixed ∧ !offFixed c.mode gOn r1 then
        let r' := chainTr c st o.mem.lastT o.mem.lastDt o.mem.lastTag (onOff c.mode gOn (fun _ => none) r)
        legRun c next u' fuel r' { o with drop := o.drop + 1 }
      else
        let r' := if short then stretchEnd c gOn (t + dt + least) r1 else r1
        let o := count x.moved { o with
          fstretch := o.fstretch + b2nMod forced
          stretch := o.stretch + b2nMod short
          edges := o.edges ++ [(gOff, t, false), (gOn, t + dt, true)]
          mem := { st := x.dst, lastT := t, lastDt := dt, lastTag := forced || x.moved.getD false,
                   opened := (o.mem.opened.filter (fun e => e.1 != gOff && e.1 != gOn)) ++
                     [(gOn, t + dt, short)] } }
        legRun c next u' fuel r' o
where
  /-- 1 for true. -/
  b2nMod (b : Bool) : Nat := if b then 1 else 0

/-- One segment of one leg: it starts at `u` and covers `part` of a period (R96 to R106). -/
def legSegment (c : ModCfg) (mem : LegMem) (v : Int) (period : Nat) (part : Part) (u : Nat) :
    LegOut :=
  let ideal := idealStates c.mode v period part
  let next := idealStates c.mode v period (partNext part)
  let trs := segTr c mem.st mem.lastT mem.lastDt mem.lastTag u ideal
  legRun c next (u + partLen period part) 32 trs { mem := mem }

end Sys2Proof.Machine
end

