-- ==== Sys2Proof/Machine/Rod.lean ====
section
/-! DEFINITION. Rod modulation (spec/04, R91 to R115): references, the update cutoff, the end of
modulation; and the current-sensor cross-check at period-frame cutoffs (spec/06, R159, R161). -/

namespace Sys2Proof.Machine

open Host (Outcome)

/-- A counter of a rod saturates (R115). -/
def State.rodCount (s : State) (n off k : Nat) : State := if k = 0 then s else s.incSat (pROD n) off k

/-- The cases of R111 that a ROD commit falls under, as the PG_ERR.BLK bits they set. -/
def State.rodDenied (s : State) (n : Nat) : List Nat :=
  let p := pROD n
  let then_ (f : Fld) : Nat := s.stagedGet p f
  let changed (f : Fld) : Bool := decide (s.get p f ≠ then_ f)
  holds [
    (decide (s.rodSt n ≠ stOFF) && (changed ROD.CFG_MODE || changed ROD.CFG_REF_SRC ||
      decide (s.word p ROD.NP_SRC ≠ s.stagedWord p ROD.NP_SRC)), blk 1),
    ([ROD.DT_3L_A_DT_OP, ROD.DT_3L_A_DT_PO, ROD.DT_3L_B_DT_NO, ROD.DT_3L_B_DT_ON,
      ROD.DT_2L_DT_NP, ROD.DT_2L_DT_PN].any (fun f => decide (25600 < then_ f)) ||
      decide (12800 < then_ ⟨ROD.MIN_PULSE, 13, 0⟩ ∨ 8192 < then_ ROD.NP_CFG_NP_LIM ∨
        253 < then_ ROD.NP_SRC_I_SLOT), blk 0)]

/-! ## References -/

/-- The shadow set is armed (R108): a write between a cutoff and its update point is late. -/
def State.arm (s : State) (n : Nat) : State :=
  let s := s.set (pROD n) ROD.STATUS_ARMED 1
  match (s.rod n).cutU with
  | some u =>
    if s.beam.t ≤ u then (s.incSat (pROD n) ROD.LATE_CNT).ev (pROD n) (blk 0) else s
  | none => s

/-- A write of REF_AB or REF_C (R108, R109). -/
def State.refWrite (s : State) (w : Writer) (n off mask : Nat) (v : Word) : State × Code :=
  s.actionWrite w (pROD n) (fun s =>
    if s.get (pROD n) ROD.CFG_REF_SRC = 0 then refuse s (pROD n) (blk 2) .writeRefused
    else
      let s := s.setWord (pROD n) off (maskW v mask)
      (if off = ROD.REF_C then s.arm n else s, .ok))

def execRefAbWrite (w : Writer) (n : Fin 24) (v : Word) (s : State) : Outcome State Fault Refusal :=
  .next (finish w (pROD n) (s.refWrite w n ROD.REF_AB 0xFFFFFFFF v))

def execRefCWrite (w : Writer) (n : Fin 24) (v : Word) (s : State) : Outcome State Fault Refusal :=
  .next (finish w (pROD n) (s.refWrite w n ROD.REF_C 0xFFFF v))

/-! ## The cutoff -/

/-- An update point: its beam time (1/256 ns), the period of the carrier there, and whether it is a
mid frame. -/
structure UpdPoint where
  u : Nat
  period : Nat
  half : Bool
  midEn : Bool
deriving DecidableEq, Repr

/-- The update points of a rod around a boundary of its generator at beam time `b` (R83, R84, R94). -/
def framesAt (b period off : Nat) (midEn upd : Bool) : List UpdPoint :=
  let f := b + off * 40
  ⟨f, period, false, midEn⟩ ::
    (if midEn && upd then [⟨f + period / 2 * 40, period, true, midEn⟩] else [])

/-- The frames of a rod in the latest periods and the two ahead, in time order (R83, R84, R95): the period that
begins at a boundary ahead carries the PERIOD and MID_EN that load there (R86), and none lies before the first
boundary since the generator's start or a step (R81).  `upd`: with mid frames. -/
def State.frames (s : State) (n : Nat) (upd : Bool) : List UpdPoint :=
  let x := s.gen (s.genOf n)
  if s.genRunning (s.genOf n) then
    x.mark.mark.hist.reverse.flatMap (fun b =>
      framesAt b.t b.period (s.get pFRAME (FRAME.ROD_MAP_OFFSET n)) b.mid upd)
  else []

/-- The update points among them (R94). -/
def State.updates (s : State) (n : Nat) : List UpdPoint := s.frames n (s.flag (pROD n) ROD.CFG_UPD_MODE)

/-- The update point whose cutoff is reached (R107): the first one at least 2.5 µs ahead, on the tick of the
cutoff. -/
def State.nextUpdate (s : State) (n : Nat) : Option UpdPoint :=
  (s.updates n).find? (fun p => decide (s.beam.t + 639360 < p.u))

/-- The next update point of a rod, 1/256 ns; the present where its generator does not run (R113; DESIGN CHOICE,
log 180). -/
def State.updateAfter (s : State) (n : Nat) : Nat :=
  (((s.updates n).find? (fun p => decide (s.beam.t < p.u))).map UpdPoint.u).getD s.beam.t

/-- The settings of a segment (R104). -/
def State.modCfg (s : State) (n : Nat) : ModCfg :=
  let p := pROD n
  { mode := s.get p ROD.CFG_MODE
    dtPO := s.get p ROD.DT_3L_A_DT_PO, dtOP := s.get p ROD.DT_3L_A_DT_OP
    dtNO := s.get p ROD.DT_3L_B_DT_NO, dtON := s.get p ROD.DT_3L_B_DT_ON
    dtPN := s.get p ROD.DT_2L_DT_PN, dtNP := s.get p ROD.DT_2L_DT_NP
    minp := s.get p ⟨ROD.MIN_PULSE, 13, 0⟩
    stretch := s.flag p ROD.CFG_MINP_MODE }

/-- The sign of a number. -/
def sgn (x : Int) : Int := if 0 < x then 1 else if x < 0 then -1 else 0

/-- Whether a conversion has written a slot since the die's reset (R99, R184). -/
def State.slotWritten (s : State) (k i : Nat) : Bool :=
  decide (s.reg (pACQ k) (ACQ.SLOT_W0 i) ≠ 0 ∨ s.reg (pACQ k) (ACQ.SLOT_W1 i) ≠ 0 ∨ s.reg (pACQ k) (ACQ.SLOT_W2 i) ≠ 0)

/-- The references and the zero-sequence terms of a segment (R98 to R100): z, v_np, and whether a
DPWM segment falls back (`none`: not DPWM). -/
def State.zeroTerms (s : State) (n : Nat) (a b c : Int) : Int × Int × Option Bool :=
  let p := pROD n
  let die := n / 6
  let scheme := s.get p ROD.CFG_SCHEME
  let np := decide (s.get p ROD.CFG_MODE = 0) && s.flag p ROD.CFG_NP_EN
  let up := s.slotVal die (s.get p ROD.NP_SRC_VUP_SLOT)
  let lo := s.slotVal die (s.get p ROD.NP_SRC_VLO_SLOT)
  let i (k : Nat) : Int := s.slotVal die (s.get p ROD.NP_SRC_I_SLOT + k)
  let known := s.slotWritten die (s.get p ROD.NP_SRC_VUP_SLOT) && s.slotWritten die (s.get p ROD.NP_SRC_VLO_SLOT)
  let d := up - lo
  let sum := up + lo
  let dir := sgn a * i 0 + sgn b * i 1 + sgn c * i 2
  let sg := if dir.natAbs < s.get p ROD.NP_AUX_NP_IDEAD then 0 else sgn dir
  let lim : Int := s.get p ROD.NP_CFG_NP_LIM
  let raw := if !known ∨ sum ≤ 0 then 0
    else roundDiv ((s.get p ROD.NP_CFG_NP_GAIN : Int) * d * sg * 8) sum
  let vnp := if np then clampI (-lim) lim raw else 0
  let dlim := s.get p ROD.NP_AUX_NP_DPWM_LIM
  let fb := np && decide (dlim ≠ 0) && known && decide (0 < sum) &&
    decide ((dlim : Int) * sum < (d.natAbs * 32768 : Nat))
  if scheme = 3 then
    if fb then (zeroSeq 2 a b c, vnp, some true) else (zeroSeq 3 a b c, 0, some false)
  else (zeroSeq scheme a b c, vnp, none)

/-- The region code of a phase (STATUS.REG_A). -/
def regionOf (mode : Nat) (v : Int) : Nat := if mode = 1 then 0 else if 0 < v then 1 else if v < 0 then 2 else 0

/-- The edges of a segment go to the queues of its links, ascending in time (R107, R125); a link
that is not in SYNC or UP gets none. -/
def State.release (s : State) (n : Nat) (es : List (Nat × Nat × Bool)) : State :=
  let put (l : List (Nat × Bool)) (e : Nat × Bool) : List (Nat × Bool) :=
    l.takeWhile (fun x => decide (x.1 < e.1)) ++ e :: l.dropWhile (fun x => decide (x.1 < e.1))
  es.foldl (fun s e =>
    let k := n * 12 + e.1
    if s.linkOpen n e.1 then
      s.setLink k { s.link k with queue := put (s.link k).queue (e.2.1, e.2.2) }
    else s) s

/-- The cutoff of update point `u` takes a set the loop wrote: DELAY_LAST (R250). -/
def State.loopTaken (s : State) (n u : Nat) : State :=
  match (s.loop n).setTf with
  | some tf => (s.setReg (pLOOP n) LOOP.DELAY_LAST ((u - tf) / 40 % 2 ^ 23)).setLoop n
      { s.loop n with setTf := none }
  | none => s

/-- The armed references are taken, or the run of stale update points grows (R107, R108, R110). -/
def State.takeRefs (s : State) (n : Nat) : State :=
  let p := pROD n
  let running := decide (s.rodSt n = stRUN ∨ s.rodSt n = stDESCENT)
  if s.flag p ROD.STATUS_ARMED then
    let s := (s.setWord p ROD.ACT_AB (s.word p ROD.REF_AB)).setWord p ROD.ACT_C (s.word p ROD.REF_C)
    let s := (s.set p ROD.STATUS_ARMED 0).set p ROD.STATUS_REF_STALE 0
    if running then s.setReg p ROD.STALE_RUN 0 else s
  else if running then
    let old := s.reg p ROD.STALE_RUN
    let run := min (old + 1) 255
    let s := s.setReg p ROD.STALE_RUN run
    let lim := s.get p ROD.CFG_STALE_LIM
    if lim ≠ 0 ∧ lim ≤ run ∧ (old < lim ∨ !s.flag p ROD.STATUS_REF_STALE) then
      (((s.set p ROD.STATUS_REF_STALE 1).err p (blk 3)).ev p (blk 1)).descentCause n dcSTALE
    else s
  else s

/-- A segment is computed (R98 to R106) and, in RUN and DESCENT, its edges are released (R107). -/
def State.segment (s : State) (n : Nat) (p : UpdPoint) : State :=
  let pg := pROD n
  let running := decide (s.rodSt n = stRUN ∨ s.rodSt n = stDESCENT)
  let c := s.modCfg n
  let a := s.getS pg ⟨ROD.ACT_AB, 15, 0⟩
  let b := s.getS pg ⟨ROD.ACT_AB, 31, 16⟩
  let cc := s.getS pg ⟨ROD.ACT_C, 15, 0⟩
  let zt := s.zeroTerms n a b cc
  let off := zt.1 + zt.2.1
  let vs := [a, b, cc].map (fun v => v + off)
  let clipped := (vs.filter (fun v => decide (v < -32768 ∨ 32768 < v))).length
  let vs := vs.map (clampI (-32768) 32768)
  let part := if p.half then Part.second
    else if s.flag pg ROD.CFG_UPD_MODE && p.midEn then Part.first else Part.whole
  let legs := (List.range 3).map (fun x =>
    legSegment c ((s.rod n).legs.getD x {}) (vs.getD x 0) p.period part (p.u / 40))
  let s := s.setReg pg ROD.ACT_ZS (encSat 16 off)
  let s := s.setRod n { s.rod n with
    segNext := some ⟨p.u, p.half, vs.map (regionOf c.mode)⟩ }
  if running then
    let sum (f : LegOut → Nat) : Nat := (legs.map f).foldl (· + ·) 0
    let s := s.rodCount n ROD.DROP_CNT (sum LegOut.drop)
    let s := s.rodCount n ROD.STRETCH_CNT (sum LegOut.stretch)
    let s := s.rodCount n ROD.FSTRETCH_CNT (sum LegOut.fstretch)
    let s := if clipped = 0 then s else (s.rodCount n ROD.CLIP_CNT clipped).ev pg (blk 3)
    let s := match zt.2.2 with
      | some true => ((s.set pg ROD.STATUS_NP_FALLBACK 1).rodCount n ROD.FALLBACK_CNT 1).ev pg (blk 2)
      | some false => s.set pg ROD.STATUS_NP_FALLBACK 0
      | none => s
    let s := s.setRod n { s.rod n with legs := legs.map LegOut.mem }
    let s := s.set pg ROD.STATUS_MOD_ACTIVE 1
    s.release n ((List.range 3).flatMap (fun x =>
      (legs.getD x {}).edges.map (fun e => (x * 4 + e.1, e.2.1, e.2.2))))
  else s

/-- The end of modulation at update point `u` (R113): a CANCEL of `u` on every link, the outer gates off
at `u`, and in MODE = 0 the inner ones 1.0 µs later. -/
def State.endModulation (s : State) (n u : Nat) : State :=
  let ut := u / 40
  let mode := s.get (pROD n) ROD.CFG_MODE
  let s := (List.range 12).foldl (fun s p => s.cancelTx (n * 12 + p) ut) s
  let x := s.rod n
  let s := s.setRod n { x with
    modEnd := none, legs := [{}, {}, {}]
    blanks := x.blanks.filter (fun w => decide (w.2.1 < ut)) }
  let s := s.set (pROD n) ROD.STATUS_MOD_ACTIVE 0
  let s := (s.digWithdraw n (some ut) (2 * (n / 6))).digWithdraw n (some ut) (2 * (n / 6) + 1)
  s.release n (outerPos.map (fun p => (p, ut, false)) ++
    (if mode = 0 then innerPos.map (fun p => (p, ut + 6400, false)) else []))

/-- One phase of the current-sensor cross-check (R159, R161): 0 agrees or not judged, 1 disagrees,
2 exactly one sensor out of range.  With `inj`, i₂ is taken as point 3 of PROT states it (R569). -/
def State.crossCheck (s : State) (n x : Nat) (inj : Bool) : Nat :=
  let p := pPROT n
  let i1 := s.slotVal (n / 6) (s.get p PROT.SLOT_A_I1 + x)
  let far := i1 + s.get p PROT.XCHK_CFG_XCHK_ABS + 1 + (s.get p PROT.XCHK_CFG_XCHK_REL * i1.natAbs / 256 : Nat)
  let i2 := if inj then far else s.slotVal (n / 6) (s.get p PROT.SLOT_A_I2 + x)
  let inRange (i : Int) : Bool := decide (-32768 < i ∧ i < 32767)
  if inRange i1 && (inj || inRange i2) then
    let big := max i1.natAbs i2.natAbs
    let lim := s.get p PROT.XCHK_CFG_XCHK_ABS * 256 + s.get p PROT.XCHK_CFG_XCHK_REL * big
    if lim < (i1 - i2).natAbs * 256 then 1 else 0
  else if inRange i1 != inRange i2 then 2
  else 3

/-- Whether a cross-check would find exactly one sensor of a phase out of range (R161). -/
def State.crossTrips (s : State) (n : Nat) : Bool :=
  decide (s.rodSt n = stRUN ∨ s.rodSt n = stDESCENT) &&
    (List.range 3).any (fun x => decide (s.crossCheck n x ((s.injTake (pPROT n) 3).1 && x == 0) = 2))

/-- The cross-check at a period-frame cutoff in RUN and DESCENT (R159, R161). -/
def State.crossChecks (s : State) (n : Nat) : State :=
  if s.rodSt n = stRUN ∨ s.rodSt n = stDESCENT then
    let i := s.injTake (pPROT n) 3
    let s := i.2
    let r := (List.range 3).map (fun x => s.crossCheck n x (i.1 && x == 0))
    let cnt := (List.range 3).map (fun x =>
      let old := (s.rod n).xchk.getD x 0
      if r.getD x 0 = 1 then old + 1 else if r.getD x 0 = 0 then 0 else old)
    let s := s.setRod n { s.rod n with xchk := cnt }
    let lim := s.get (pPROT n) PROT.XCHK_CFG_XCHK_N
    let lim := if lim = 0 then 3 else lim
    let hit := (List.range 3).any (fun x => decide (r.getD x 0 = 1) && decide (lim ≤ cnt.getD x 0))
    let s := if hit then (s.err (pPROT n) (blk 6)).descentCause n dcXCHK else s
    if r.contains 2 then s.faultCause n [fcXRANGE] else s
  else s

/-- After a ROD commit: in MODE = 1 the regions read 0 (R115). -/
def State.rodApplied (s : State) (n : Nat) : State :=
  if s.get (pROD n) ROD.CFG_MODE = 1 then
    ((s.set (pROD n) ROD.STATUS_REG_A 0).set (pROD n) ROD.STATUS_REG_B 0).set (pROD n) ROD.STATUS_REG_C 0
  else s

/-- The update cutoff of a rod (R107): an accepted commit applies, the armed references are taken, the
segment is computed and released, and at a period frame the current sensors are compared.  A mid frame whose
cutoff ends UPD_MODE = 1 is still an update point (DESIGN CHOICE, log 30).  Each update point has one cutoff.  A trip
that the comparison finds takes precedence over the commit (R146). -/
def State.cutoff (s : State) (n : Nat) : State :=
  match s.nextUpdate n with
  | none => s
  | some p =>
   if (s.rod n).cutU = some p.u then s
   else if !p.half && s.crossTrips n then (s.setRod n { s.rod n with cutU := some p.u }).crossChecks n
   else
    let s := (s.applyCommit (pROD n)).rodApplied n
    let s := s.setRod n { s.rod n with cutU := some p.u }
    let s := s.setB (pROD n) ROD.STATUS_MID_ABSENT (s.flag (pROD n) ROD.CFG_UPD_MODE && !p.midEn)
    let s := if s.flag (pROD n) ROD.STATUS_ARMED then s.loopTaken n p.u else s
    let s := (s.takeRefs n).segment n p
    if p.half then s else s.crossChecks n

def execUpdateCutoff (n : Fin 24) (s : State) : Outcome State Fault Refusal := .next (s.cutoff n)

/-- The rod has left DESCENT for GATES_OFF: the modulator ends at the update point that followed (R113). -/
def execModulationEnd (n : Fin 24) (s : State) : Outcome State Fault Refusal :=
  match (s.rod n).modEnd with
  | some u => .next (s.endModulation n u)
  | none => .next s

/-- A frame of a rod begins at beam time `u` (R94, R115): UPD_NS, SEG_HALF and the regions are those
of the segment in progress. -/
def State.rodFrame (s : State) (n : Nat) : State :=
  match (s.rod n).segNext with
  | some q =>
    let s := s.setRod n { s.rod n with segNext := none }
    let s := s.setReg (pROD n) ROD.UPD_NS (q.u / 256 % 1000000000)
    let s := s.setB (pROD n) ROD.STATUS_SEG_HALF q.half
    let s := s.set (pROD n) ROD.STATUS_REG_A (q.regions.getD 0 0)
    let s := s.set (pROD n) ROD.STATUS_REG_B (q.regions.getD 1 0)
    s.set (pROD n) ROD.STATUS_REG_C (q.regions.getD 2 0)
  | none => s

end Sys2Proof.Machine
end

