-- ==== Sys2Proof/Machine/Sha256.lean ====
section
/-! DEFINITION. The Secure Hash Standard's two functions that the spec names, SHA-256 (06 R163,
18 R467) and the SHA-512 inside Ed25519 (18 R466), over lists of byte values.  One description serves
both: a word size in bytes, a number of rounds and four pairs of turns.  SHA-256's constants are the
upper halves of SHA-512's, so one table holds both. -/

namespace Sys2Proof.Machine

/-- What tells the two functions apart: bytes of a word, rounds, and the turns of the two sums over
working words (three rotations) and of the two over message words (two rotations, a shift). -/
structure ShaKind where
  bytes : Nat
  rounds : Nat
  sumA : List Nat
  sumE : List Nat
  old : List Nat × Nat
  late : List Nat × Nat
deriving DecidableEq, Repr

def kind256 : ShaKind := ⟨4, 64, [2, 13, 22], [6, 11, 25], ([7, 18], 3), ([17, 19], 10)⟩
def kind512 : ShaKind := ⟨8, 80, [28, 34, 39], [14, 18, 41], ([1, 8], 7), ([19, 61], 6)⟩

/-- The bits of a word. -/
abbrev ShaKind.bits (k : ShaKind) : Nat := 8 * k.bytes

/-- Round constants: four of 64 bits in each entry, first in the highest bits. -/
def shaCube : List Nat := [
  0x428a2f98d728ae227137449123ef65cdb5c0fbcfec4d3b2fe9b5dba58189dbbc,
  0x3956c25bf348b53859f111f1b605d019923f82a4af194f9bab1c5ed5da6d8118,
  0xd807aa98a303024212835b0145706fbe243185be4ee4b28c550c7dc3d5ffb4e2,
  0x72be5d74f27b896f80deb1fe3b1696b19bdc06a725c71235c19bf174cf692694,
  0xe49b69c19ef14ad2efbe4786384f25e30fc19dc68b8cd5b5240ca1cc77ac9c65,
  0x2de92c6f592b02754a7484aa6ea6e4835cb0a9dcbd41fbd476f988da831153b5,
  0x983e5152ee66dfaba831c66d2db43210b00327c898fb213fbf597fc7beef0ee4,
  0xc6e00bf33da88fc2d5a79147930aa72506ca6351e003826f142929670a0e6e70,
  0x27b70a8546d22ffc2e1b21385c26c9264d2c6dfc5ac42aed53380d139d95b3df,
  0x650a73548baf63de766a0abb3c77b2a881c2c92e47edaee692722c851482353b] ++ [
  0xa2bfe8a14cf10364a81a664bbc423001c24b8b70d0f89791c76c51a30654be30,
  0xd192e819d6ef5218d69906245565a910f40e35855771202a106aa07032bbd1b8,
  0x19a4c116b8d2d0c81e376c085141ab532748774cdf8eeb9934b0bcb5e19b48a8,
  0x391c0cb3c5c95a634ed8aa4ae3418acb5b9cca4f7763e373682e6ff3d6b2b8a3,
  0x748f82ee5defb2fc78a5636f43172f6084c87814a1f0ab728cc702081a6439ec,
  0x90befffa23631e28a4506cebde82bde9bef9a3f7b2c67915c67178f2e372532b,
  0xca273eceea26619cd186b8c721c0c207eada7dd6cde0eb1ef57d4f7fee6ed178,
  0x06f067aa72176fba0a637dc5a2c898a6113f9804bef90dae1b710b35131c471b,
  0x28db77f523047d8432caab7b40c724933c9ebe0a15c9bebc431d67c49c100d4c,
  0x4cc5d4becb3e42b6597f299cfc657e2a5fcb6fab3ad6faec6c44198c4a475817]

/-- Starting values, packed in the same way. -/
def shaSquare : List Nat := [
  0x6a09e667f3bcc908bb67ae8584caa73b3c6ef372fe94f82ba54ff53a5f1d36f1,
  0x510e527fade682d19b05688c2b3e6c1f1f83d9abfb41bd6b5be0cd19137e2179]

/-- The number that bytes spell, most significant first. -/
def ofBE (l : List Nat) : Nat := l.foldl (fun a b => a * 256 + b) 0

/-- Chunks of `k` elements, at most `fuel` of them. -/
def chunks (k : Nat) : Nat → List Nat → List (List Nat)
  | 0, _ => []
  | fuel + 1, l => if l = [] then [] else l.take k :: chunks k fuel (l.drop k)

/-- Bytes of a number, most significant first. -/
def beBytes (n x : Nat) : List Nat := (List.range n).map (fun i => x / 256 ^ (n - 1 - i) % 256)

/-- The packed constants as words of a kind: the upper bits of each. -/
def ShaKind.unpack (k : ShaKind) (l : List Nat) : List (BitVec k.bits) :=
  l.flatMap (fun x => [3, 2, 1, 0].map (fun i => BitVec.ofNat k.bits (x / 2 ^ (64 * i + 64 - k.bits))))

/-- A word turned right by each distance, summed without carry. -/
def ShaKind.turns (k : ShaKind) (x : BitVec k.bits) (ds : List Nat) : BitVec k.bits :=
  ds.foldl (fun acc d => acc ^^^ x.rotateRight d) 0

/-- The message, a byte 0x80, zeros, and the bit length in two words at the end of a block. -/
def ShaKind.padded (k : ShaKind) (msg : List Nat) : List Nat :=
  let block := 16 * k.bytes
  let tail := 2 * k.bytes
  let body := msg ++ [0x80]
  body ++ List.replicate ((2 * block - tail - body.length % block) % block) 0 ++
    beBytes tail (8 * msg.length)

/-- `n` rounds.  `con` holds the constants to come; `win` the sixteen message words to come, the next
one first, and every round appends the word that falls sixteen later; `up` is the words a to d and
`dn` the words e to h: each round shifts both by one. -/
def ShaKind.run (k : ShaKind) :
    Nat → List (BitVec k.bits) → List (BitVec k.bits) → List (BitVec k.bits) → List (BitVec k.bits) →
      List (BitVec k.bits)
  | n + 1, con, win, up, dn =>
    let word (l : List (BitVec k.bits)) (i : Nat) : BitVec k.bits := l.getD i 0
    let fresh := word win 0 + (k.turns (word win 1) k.old.1 ^^^ word win 1 >>> k.old.2) + word win 9 +
      (k.turns (word win 14) k.late.1 ^^^ word win 14 >>> k.late.2)
    let pick := word dn 2 ^^^ (word dn 0 &&& (word dn 1 ^^^ word dn 2))
    let most := (word up 0 &&& (word up 1 ||| word up 2)) ||| (word up 1 &&& word up 2)
    let feed := word dn 3 + k.turns (word dn 0) k.sumE + pick + word con 0 + word win 0
    k.run n con.tail (win.tail ++ [fresh]) ((feed + k.turns (word up 0) k.sumA + most) :: up.take 3)
      ((word up 3 + feed) :: dn.take 3)
  | 0, _, _, up, dn => up ++ dn

/-- The digest of a byte list, its words most significant byte first. -/
def ShaKind.digest (k : ShaKind) (msg : List Nat) : List Nat :=
  let m := k.padded msg
  let con := k.unpack shaCube
  let last := (chunks (16 * k.bytes) (m.length / (16 * k.bytes)) m).foldl
    (fun h b => List.zipWith (fun x y => x + y) h
      (k.run k.rounds con ((chunks k.bytes 16 b).map (fun c => BitVec.ofNat k.bits (ofBE c)))
        (h.take 4) (h.drop 4)))
    (k.unpack shaSquare)
  last.flatMap (fun x => beBytes k.bytes x.toNat)

/-- SHA-256 of bytes, as 32 bytes. -/
def sha256 (l : List Nat) : List Nat := kind256.digest l

/-- SHA-512 of bytes, as 64 bytes. -/
def sha512 (l : List Nat) : List Nat := kind512.digest l

end Sys2Proof.Machine
end

