-- ==== Sys2Proof/Machine/WakeCore.lean ====
section
/-! DEFINITION. Wake causes and the device state (spec/21, R521 to R526). -/

namespace Sys2Proof.Machine

/-- Store the record of the device states. -/
def State.setRest (s : State) (x : RestX) : State := { s with rest := x }

/-- Post a record of the device itself to the tally store (R482). -/
def State.hwPost (s : State) (x : HwPost) : State := { s with hwPosts := s.hwPosts ++ [x] }

/-! ## Clocks (R518, R519, R529) -/

/-- Change a bit of CLK.STAT. -/
def State.clk (s : State) (f : Fld) (b : Bool) : State :=
  if s.flag pCLK f = b then s else (s.setB pCLK f b).ev pCLK (blk 0)

/-- The PLLs lock on the main crystal, unless the device runs degraded. -/
def State.pllLock (s : State) : State :=
  if s.flag pCLK CLK.STAT_X25_OK && !s.flag pREST REST.STAT_DEGRADED && decide (s.dev ≠ dvDEEP) then
    let s := s.clk CLK.STAT_BEAM_LOCK true
    if s.dev = dvREST then s
    else ((s.clk CLK.STAT_RECK_LOCK true).clk CLK.STAT_APC_LOCK true).clk CLK.STAT_RC100_IN_USE false
  else s

/-- DEGRADED ends at a reset of the RD domain that finds the main crystal ready (R529); the PLLs lock on it. -/
def State.degradeEnd (s : State) : State :=
  if s.flag pCLK CLK.STAT_X25_OK && s.flag pREST REST.STAT_DEGRADED then (s.set pREST REST.STAT_DEGRADED 0).pllLock
  else s

/-! ## Wake causes (R525, R526) -/

/-- Wake causes (R525). -/
abbrev wcBUS : Nat := 0
abbrev wcTHERM : Nat := 1
abbrev wcSAFE : Nat := 2
abbrev wcTIMER : Nat := 3
abbrev wcEVENT : Nat := 4
abbrev wcPOWER : Nat := 5
abbrev wcCMD : Nat := 6
abbrev wcSTART : Nat := 7

/-- Whether a cause acts in a device state (R525); a bus wake in QUIET counts for the record only. -/
def wakeActs (b st : Nat) : Bool :=
  match b with
  | 0 => decide (st = dvREST ∨ st = dvDEEP)
  | 1 => decide (st = dvREST)
  | 2 => decide (st = dvREST ∨ st = dvDEEP)
  | 3 => decide (st = dvREST ∨ st = dvDEEP)
  | 4 => decide (st = dvREST)
  | 5 => decide (st = dvQUIET ∨ st = dvREST ∨ st = dvDEEP)
  | 6 => decide (st = dvQUIET ∨ st = dvREST)
  | _ => decide (st = dvQUIET)

/-- A wake cause arrives (R525, R526): it latches; where its bit is set in WAKE_EN (CMD and START
always) and it acts in the state reached or being entered, an entry stops and the device wakes to
WAKE_TO (a START, to RUN).  In DEEP the 16 MHz oscillator starts for the wake (R518, R527). -/
def State.wakeCause (s : State) (b : Nat) : State :=
  let s := if s.bit pREST REST.WAKE_CAUSE b then s
    else (s.setBit pREST REST.WAKE_CAUSE b true).ev pREST (blk 1)
  let en := decide (6 ≤ b) || s.bit pREST REST.WAKE_EN b
  let entering := s.flag pREST REST.STAT_ENTERING
  let acts := wakeActs b s.dev || (entering && wakeActs b s.rest.entering)
  let dst := if b = wcSTART then dvRUN else s.get pREST REST.CFG_WAKE_TO
  if en && acts && (entering || decide (dst < s.dev)) then
    let s := if entering then (s.incF pREST REST.ENTRY_CNT_ABORTED).set pREST REST.STAT_ENTERING 0
      else s
    if s.flag pREST REST.STAT_WAKING then
      s.setRest { s.rest with wakeTo := min dst s.rest.wakeTo }
    else
      let s := (s.set pREST REST.STAT_WAKING 1).setRest { s.rest with wakeTo := min dst s.dev, cause := b }
      if s.dev = dvDEEP then s.clk CLK.STAT_RC16_ON true else s
  else s

/-- A domain that rests wakes without a change of the device state (R53, R54, R522). -/
def State.wakeDom (s : State) (d : Dom) : State :=
  if s.dom d = .resting ∨ s.dom d = .draining then s.setDom d .waking else s

end Sys2Proof.Machine
end

