-- ==== Sys2Proof/Machine/Power.lean ====
section
/-! DEFINITION. Power-stage protection and sequencing (spec/06, R140 to R170), and the trip-path test
of a START (spec/16, R413). -/

namespace Sys2Proof.Machine

open Host (Outcome)

/-! ## Detectors -/

/-- Whether a blanking window of phase `x` is open (R143). -/
def State.blanked (s : State) (n x : Nat) : Bool :=
  (s.rod n).blanks.any (fun w => decide (w.1 = x) && decide (w.2.1 ≤ s.uticks) &&
    decide (s.uticks < w.2.2))

/-- Whether the window masks a comparator (R143: phase currents and phase voltage with BLANK = 1). -/
def State.cmpMasked (s : State) (n k : Nat) : Bool :=
  decide (k < 9) && s.flag (pPROT n) (PROT.CMP_CFG_BLANK k) && s.blanked n (k % 3)

/-- A comparator fires (R140, R141, R182): its bits, its urgent request, and a warning.  Answers the
state and whether a trip or a descent follows. -/
def State.cmpFire (s : State) (n k : Nat) (hi : Bool) : State × Bool × Bool :=
  let p := pPROT n
  if !s.flag p (PROT.CMP_CFG_EN k) ∨ (s.rod n).fired.testBit k then (s, false, false)
  else
    let s := s.setRod n { s.rod n with fired := (s.rod n).fired ||| 2 ^ k }
    let s := s.setBit p PROT.CMP_HIT (if hi then k else 16 + k) true
    let s := if k = 0 ∧ hi then (s.injTake p 0).2 else s
    let s := s.urgAuto n k
    match s.get p (PROT.CMP_CFG_ACT k) with
    | 0 => (s.ev p (blk 2), false, false)
    | 2 => (s, false, true)
    | _ => (s, true, false)

/-- The thresholds LO and HI in use by a comparator: bits [15:6] (R140). -/
def State.cmpLo (s : State) (n k : Nat) : Int := sxt 16 (s.reg (pPROT n) (PROT.CMP_TH k) % 65536) / 64 * 64
def State.cmpHi (s : State) (n k : Nat) : Int := sxt 16 (s.reg (pPROT n) (PROT.CMP_TH k) / 65536) / 64 * 64

/-- Whether an input of value `v` that has been beyond a threshold since beam time `since` fires a comparator now
(R140): its filter time counts from then, or from the last commit of its settings if that is later. -/
def State.cmpOver (s : State) (n k : Nat) (v : Int) (since : Nat) : Bool :=
  decide (v < s.cmpLo n k ∨ s.cmpHi n k < v) &&
    decide (max since ((s.rod n).cmpAt.getD k 0) + s.get (pPROT n) (PROT.CMP_CFG_FILT k) * 2560 ≤ s.beam.t)

/-- Whether an input lies in the re-arm band of a comparator (R140). -/
def State.cmpInside (s : State) (n k : Nat) (v : Int) : Bool :=
  let h : Int := s.get (pPROT n) (PROT.CMP_CFG_HYST k)
  decide (s.cmpLo n k + h ≤ v ∧ v ≤ s.cmpHi n k - h)

/-- Whether a Rogowski input lies beyond DIDT_TH (R142). -/
def State.didtOver (s : State) (n : Nat) (v : Int) : Bool :=
  decide (s.get (pPROT n) PROT.DIDT_CFG_DIDT_TH < v.natAbs)

/-- Detectors of one tick fire together (R146): comparators with the side crossed, and di/dt. -/
def State.detectorsFire (s : State) (n : Nat) (cmps : List (Nat × Bool)) (didt : List Nat) : State :=
  let r := cmps.foldl (fun (a : State × Bool × Bool) c =>
    let b := a.1.cmpFire n c.1 c.2
    (b.1, a.2.1 || b.2.1, a.2.2 || b.2.2)) (if didt.contains 0 then (s.injTake (pPROT n) 1).2 else s, false, false)
  let s := r.1.setRod n { r.1.rod n with didt := (r.1.rod n).didt ||| maskOf didt }
  let bits := (if r.2.1 then [fcCMP] else []) ++ (if didt = [] then [] else [fcDIDT])
  if bits = [] then (if r.2.2 then s.descentCause n dcCMP else s) else s.faultCause n bits

/-- COMPARATOR_FIRE: the input of comparator `k` is `v`, beyond a threshold since beam time `since` (R140, R141). -/
def execComparatorFire (n : Fin 24) (k : Fin 16) (v : Int) (since : Nat) (s : State) : Outcome State Fault Refusal :=
  if s.cmpOver n k v since && !s.cmpMasked n k then
    .next (s.detectorsFire n [(k.val, decide (s.cmpHi n k < v))] [])
  else .next s

/-- COMPARATOR_REARM: the input of a comparator is `v`, and in its band it re-arms; indices 16 to 18 are the di/dt
detectors of phases a to c, whose output falls (R140, R142). -/
def execComparatorRearm (n : Fin 24) (k : Fin 19) (v : Int) (s : State) : Outcome State Fault Refusal :=
  let x := s.rod n
  let clr (m i : Nat) : Nat := if m.testBit i then m - 2 ^ i else m
  .next (if k.val < 16 then
      if s.cmpInside n k v then s.setRod n { x with fired := clr x.fired k } else s
    else if s.didtOver n v then s
    else s.setRod n { x with didt := clr x.didt (k - 16) })

/-- DIDT_FIRE: the Rogowski input of phase `x` is `v` (R142). -/
def execDidtFire (n : Fin 24) (x : Fin 3) (v : Int) (s : State) : Outcome State Fault Refusal :=
  if s.didtOver n v && !s.blanked n x then .next (s.detectorsFire n [] [x.val]) else .next s

/-- BLANK_CLOSE: a blanking window of phase `x` has closed (R143), with the values of the masked comparators' inputs
and since when each is beyond a threshold, and of the phase's Rogowski input: the detectors asserted at the close
fire at once. -/
def execBlankClose (n : Fin 24) (x : Fin 3) (cmps : List (Fin 16 × Int × Nat)) (v : Int) (s : State) :
    Outcome State Fault Refusal :=
  let s := s.setRod n { s.rod n with
    blanks := (s.rod n).blanks.filter (fun w => decide (w.1 ≠ x.val) || decide (s.uticks < w.2.2)) }
  if s.blanked n x then .next s
  else
    let mine := cmps.filter (fun c => decide (c.1.val < 9) && decide (c.1.val % 3 = x.val) &&
      s.cmpOver n c.1 c.2.1 c.2.2)
    .next (s.detectorsFire n (mine.map (fun c => (c.1.val, decide (s.cmpHi n c.1 < c.2.1))))
      (if s.didtOver n v then [x.val] else []))

/-! ## Commits (R170) -/

/-- The cases of R170 that a PROT commit falls under, as the PG_ERR.BLK bits they set. -/
def State.protDenied (s : State) (n : Nat) : List Nat :=
  let p := pPROT n
  let then_ (f : Fld) : Nat := s.stagedGet p f
  let changed (o : Nat) : Bool := decide (s.word p o ≠ s.stagedWord p o)
  holds [
    (decide (then_ PROT.PC_CFG_PC_TAU = 0 ∨ 200 < then_ PROT.DIDT_CFG_BLANK ∨ 253 < then_ PROT.SLOT_A_I1 ∨
      253 < then_ PROT.SLOT_A_I2 ∨ 253 < then_ PROT.SLOT_A_VPH), blk 1),
    (decide (s.rodSt n ≠ stOFF) && (changed PROT.SLOT_A || changed PROT.SLOT_B ||
      changed PROT.VSCALE || decide (s.get p PROT.CFG_ID_J ≠ then_ PROT.CFG_ID_J)), blk 2)]

/-- After a PROT commit a comparator with EN = 0 is re-armed, and one with changed settings counts its filter time
from the apply point (R140). -/
def State.protApplied (s0 s : State) (n : Nat) : State :=
  let p := pPROT n
  let off := (List.range 16).filter (fun k => !s.flag p (PROT.CMP_CFG_EN k))
  let new (k : Nat) : Bool := decide (s0.word p (PROT.CMP_TH k) ≠ s.word p (PROT.CMP_TH k) ∨
    s0.word p (PROT.CMP_CFG k) ≠ s.word p (PROT.CMP_CFG k))
  s.setRod n { s.rod n with
    fired := maskOf ((bitsSet 16 (s.rod n).fired).filter (fun k => !off.contains k))
    cmpAt := (List.range 16).map (fun k => if new k then s.beam.t else (s.rod n).cmpAt.getD k 0) }

/-! ## Commands (R158) -/

/-- Entry to OFF from DISCHARGE or by a successful CLEAR (R149, R155): discharge off, DIS_ABANDON
cleared. -/
def State.enterOff (s : State) (n : Nat) : State :=
  let s := (s.setDisch n false).set (pPROT n) PROT.STATUS_DIS_ABANDON 0
  (s.setRodSt n stOFF).setStep n spNONE

/-- Whether the gate supplies of an enabled link are low (R144). -/
def State.uvloLow (s : State) (n : Nat) : Bool :=
  (s.enabledPos n).any (fun p => decide (s.uvloCnt n ≤ (s.link (n * 12 + p)).low))

/-- The reasons that refuse a START (R158). -/
def State.startReasons (s : State) (n : Nat) : List Nat :=
  if s.rodSt n ≠ stOFF ∨ (s.rod n).start.isSome ∨ s.dev = dvREST then [10]
  else
    let p := pPROT n
    holds [(!s.en p, 1), (!s.fineLock, 2), (!s.linksReady n, 3), (s.flag p PROT.STATUS_LOCKOUT, 5),
      (s.flag p PROT.STATUS_HOLDOFF, 6), (!s.locked p, 9), (s.uvloLow n, 11)]

/-- Whether V_dc is below DIAG_VMIN. -/
def State.noVdc (s : State) (n : Nat) : Bool :=
  decide (s.vdc n < (s.get (pPROT n) PROT.DIAG_CFG2_DIAG_VMIN : Int))

/-- The reasons that refuse a RUN (R158, R160). -/
def State.runReasons (s : State) (n : Nat) : List Nat :=
  if s.rodSt n ≠ stREADY ∨ s.rodStep n ≠ spNONE then [10]
  else holds [(!s.en (pPROT n), 1), (!s.fineLock, 2), (!s.linksReady n, 3),
    (s.flag (pPROT n) PROT.CFG_DIAG_EN && s.noVdc n, 12)]

/-- Whether the safety reset of R148 has been given: the rod's LATCH bit is clear. -/
def State.sgrResetOk (s : State) (n : Nat) : Bool := s.split || !s.bit pSAFE SAFE.LATCH n

/-- Whether a CLEAR succeeds (R148). -/
def State.clearOk (s : State) (n : Nat) : Bool :=
  let p := pPROT n
  decide ((s.rod n).fired = 0) && decide ((s.rod n).didt = 0) &&
    (s.enabledPos n).all (fun q => decide (s.linkSt n q = lkUP) &&
      [2, 3, 4, 5].all (fun b => !(s.hbStat n q).testBit b)) &&
    decide (s.flag p PROT.STATUS_CONT_FBK = (s.rod n).cont) &&
    (!s.flag p PROT.CFG_BRK_EN || decide (s.flag p PROT.STATUS_BRK_FBK = (s.rod n).brk)) &&
    (s.dcSafe n || s.flag p PROT.STATUS_DIS_ABANDON) &&
    (!s.bit p PROT.CAUSE fcSGR || s.sgrResetOk n)

/-- A refusal for one of several reasons: the manual does not rank them, so the code shown is a free
choice among those that hold. -/
def State.denyOne (s : State) (n : Nat) (multi : Bool) (l : List Nat) : State × Code :=
  if multi then (s.deny n 15, .writeRefused)
  else
    match l with
    | [c] => (s.deny n c, .writeRefused)
    | _ =>
      let f := s.free
      (f.2.deny n (l.getD (f.1 % l.length) 0), .writeRefused)

/-- An accepted START (R149, R158, R413): the trip path fires, and in QUIET the device wakes. -/
def State.startRod (s : State) (n : Nat) : State :=
  let s := s.tripPath n
  let s := (s.enabledPos n).foldl (fun s p =>
    s.setLink (n * 12 + p) { s.link (n * 12 + p) with testHb := false }) s
  let s := s.setRod n { s.rod n with start := some .pathTest }
  if s.dev = dvQUIET then s.wakeCause wcSTART else s

/-- The AC side is energised: the breaker is commanded closed, or with BRK_EN = 0 the rod goes on to
ENERGISE (R149). -/
def State.energiseSide (s : State) (n : Nat) : State :=
  if s.flag (pPROT n) PROT.CFG_BRK_EN then (s.setBrk n true).setStep n spBRKCLOSE
  else s.setStep n spENERGISE

/-- The source and sink of a diagnostic step (R160). -/
def diagSource (k : Nat) : Option (Nat × Nat) :=
  match k with
  | 2 => some (0, 1)
  | 3 => some (1, 2)
  | 4 => some (2, 0)
  | _ => none

/-- Drive the test sources of a rod. -/
def State.setTestSrc (s : State) (n : Nat) (v : Option (Nat × Nat)) : State :=
  if (s.rod n).testSrc = v then s
  else (s.setRod n { s.rod n with testSrc := v }).send (.testSource n v)

/-- An accepted RUN (R149, R160). -/
def State.runRod (s : State) (n : Nat) : State :=
  if s.flag (pPROT n) PROT.CFG_DIAG_EN then
    (s.setRod n { s.rod n with
      diagStep := 1, diagV := [], diagAt := s.beam.t, diagSum := [(0, 0), (0, 0), (0, 0)] }).setStep n spDIAG
  else s.energiseSide n

/-- A successful CLEAR (R148). -/
def State.clearRod (s : State) (n : Nat) : State :=
  let s := s.setReg (pPROT n) PROT.CAUSE 0
  s.enterOff n

/-- The command bits of CMD (R158), in the order in which one of several acts. -/
inductive RodCmd where
  | trip | stop | clear | clrLockout | start | run
deriving DecidableEq, Repr

/-- The bit of a command in CMD. -/
def RodCmd.bit : RodCmd → Nat
  | .trip => 4
  | .stop => 2
  | .clear => 3
  | .clrLockout => 5
  | .start => 0
  | .run => 1

/-- The first command of a CMD write (R158). -/
def firstCmd (bits : Nat) : Option RodCmd :=
  [RodCmd.trip, .stop, .clear, .clrLockout, .start, .run].find? (fun c => bits.testBit c.bit)

/-- One command acts or is refused (R158); `multi`: the write had several bits, which sets DENY = MULTI also where the
command acts and the writer gets OK (DESIGN CHOICE, log 188). -/
def State.rodCmd (s : State) (n : Nat) (multi : Bool) (c : RodCmd) : State × Code :=
  let st := s.rodSt n
  let ok (s : State) : State × Code := (if multi then s.deny n 15 else s, .ok)
  match c with
  | .trip => ok (s.faultCause n [fcSW])
  | .stop => if st = stOFF ∨ st = stFAULT then s.denyOne n multi [10]
    else ok (s.descentCause n dcSTOP)
  | .clear => if st ≠ stFAULT then s.denyOne n multi [10]
    else if s.clearOk n then ok (s.clearRod n) else s.denyOne n multi [7]
  | .clrLockout => ok ((s.set (pPROT n) PROT.STATUS_LOCKOUT 0).set (pPROT n) PROT.STATUS_PC_SHORTS 0)
  | .start => match s.startReasons n with
    | [] => ok (s.startRod n)
    | l => s.denyOne n multi l
  | .run => match s.runReasons n with
    | [] => ok (s.runRod n)
    | l => s.denyOne n multi l

/-- A write of PROT[n].CMD (R158); BUSY ranks before a lease's refusal (R57). -/
def State.cmdWrite (s : State) (w : Writer) (n : Nat) (v : Word) : State × Code :=
  let bits := v.toNat % 64
  match firstCmd bits with
  | none => s.actionWrite w (pPROT n) (fun s => (s, .ok))
  | some c =>
    let multi := decide (bits ≠ 2 ^ c.bit)
    if (c = .start ∨ c = .run) ∧ shuttingSt (s.rodSt n) ∧ !s.pageRests (pPROT n) then
      (if multi then s.deny n 15 else s).refuseShutting w (pPROT n)
    else s.actionWrite w (pPROT n) (fun s => s.rodCmd n multi c)

/-- A write of CMD with one bit. -/
def State.oneCmd (s : State) (w : Writer) (n : Nat) (c : RodCmd) : State :=
  finish w (pPROT n) (s.cmdWrite w n (wordOf (2 ^ c.bit)))

def execRodStart (w : Writer) (n : Fin 24) (s : State) : Outcome State Fault Refusal := .next (s.oneCmd w n .start)

def execRodRun (w : Writer) (n : Fin 24) (s : State) : Outcome State Fault Refusal := .next (s.oneCmd w n .run)

def execRodStop (w : Writer) (n : Fin 24) (s : State) : Outcome State Fault Refusal := .next (s.oneCmd w n .stop)

def execRodClear (w : Writer) (n : Fin 24) (s : State) : Outcome State Fault Refusal := .next (s.oneCmd w n .clear)

def execSwTrip (w : Writer) (n : Fin 24) (s : State) : Outcome State Fault Refusal := .next (s.oneCmd w n .trip)

def execClrLockout (w : Writer) (n : Fin 24) (s : State) : Outcome State Fault Refusal :=
  .next (s.oneCmd w n .clrLockout)

/-! ## START: trip-path test, identity, CLEAR -/

/-- The end of the trip-path test (R413): it passes when every enabled link has shown TRIPPED = 1 and
GATE = 0; the identity read begins, after a request of firmware in progress (R164). -/
def execTripPathTest (n : Fin 24) (s : State) : Outcome State Fault Refusal :=
  if (s.rod n).start ≠ some .pathTest then .next s
  else
    let st := SAFE.MON_STAT n
    if (s.enabledPos n).all (fun p => (s.link (n * 12 + p)).testHb) then
      let s := s.setSafe { s.safe with
        testTime := s.safe.testTime.set n (some (s.reg64 pAON AON.CNT_LO)) }
      let s := s.setReg pSAFE st (s.reg pSAFE st % 65536)
      let s := (s.set pSAFE (SAFE.MON_STAT_TEST_OK n) 1).set pSAFE (SAFE.MON_STAT_TEST_FAIL n) 0
      let s := s.set pSAFE (SAFE.MON_STAT_TEST_DUE n) 0
      let s := (s.setRod n { s.rod n with start := some .idRead, idGot := [], idCur := [] }).setStep n spIDREAD
      .next (if s.flag (pGLK n) GLK.REQ_CTL_GO then s else s.idReq n 1)
    else
      .next (((s.set pSAFE (SAFE.MON_STAT_TEST_FAIL n) 1).err pSAFE (blk 6)).startFails n 4)

/-- Whether identity bytes pass R164: FORMAT, and USED_LEN bytes read, 16 to 2,048. -/
def idOk (l : List Nat) : Bool :=
  let len := ofLE ((l.drop 2).take 2)
  decide (l.headD 0 = 1) && decide (16 ≤ len ∧ len ≤ 2048) && decide (len ≤ l.length)

/-- MOD_ID of identity bytes (R163). -/
def modId (l : List Nat) : Nat := ofLE ((sha256 (l.take (ofLE ((l.drop 2).take 2)))).take 8)

/-- Body of a PM_LIFE record (R165, R482): rod, position, then the life registers as little-endian
words in register order. -/
def State.pmLife (s : State) (n m : Nat) : List Nat :=
  let p := pPROT n
  let regs := [PROT.MOD_ID_LO m, PROT.MOD_ID_HI m] ++ (List.range 64).map (PROT.RF_BIN m) ++
    [PROT.DMG_LO m, PROT.DMG_HI m, PROT.SIG_BASE_A m, PROT.SIG_BASE_B m, PROT.SIG_CUR_A m,
     PROT.SIG_CUR_B m]
  [n, m] ++ regs.flatMap (fun o => leBytes 4 (s.reg p o))

/-- A changed MOD_ID starts a new life record at a position (R165, R169). -/
def State.moduleChange (s : State) (n m id : Nat) : State :=
  let p := pPROT n
  let old := s.reg64 p (PROT.MOD_ID_LO m)
  if id = old ∧ old ≠ 0 then s
  else
    let s := s.hwPost ⟨5, 0x11, s.pmLife n m⟩
    let s := (List.range 64).foldl (fun s b => s.setReg p (PROT.RF_BIN m b) 0) s
    let s := s.setReg64 p (PROT.DMG_LO m) 0
    let s := (s.setReg p (PROT.SIG_BASE_A m) 0).setReg p (PROT.SIG_BASE_B m) 0
    let s := s.setReg64 p (PROT.MOD_ID_LO m) id
    let s := s.setLife n m { s.life n m with baseCnt := 0, sumA := 0, sumB := 0, sumC := 0, curOk := false }
    let s := s.incFW p ⟨PROT.LIFE_STAT, 15 + 8 * m, 8 + 8 * m⟩
    (s.ev p (blk 3)).ev p (blk 5)

/-- CLEAR on every enabled link (R131); the SGR block refuses the frames (R393). -/
def State.sendClears (s : State) (n : Nat) : State :=
  (s.enabledPos n).foldl (fun s p =>
    let k := n * 12 + p
    let s := s.setLink k { s.link k with clearHb := false }
    if s.sgrBlock n then s else s.lowTx k 6) s

/-- ID_READ_DONE: the identity reads of the three positions have completed (R164, R165), and the CLEAR follows. -/
def execIdReadDone (n : Fin 24) (s : State) : Outcome State Fault Refusal :=
  let l := (s.rod n).idGot
  if (s.rod n).start ≠ some .idRead ∨ l.length ≠ 3 ∨ s.dev ≠ dvRUN then .next s
  else if l.all idOk then
    let s := (List.range 3).foldl (fun s m => s.moduleChange n m (modId (l.getD m []))) s
    .next ((s.setRod n { s.rod n with start := some .clear, idGot := [] }).sendClears n)
  else .next (s.idFails n)

/-- 10 µs after the CLEAR a heartbeat still shows TRIPPED = 1 (R149). -/
def execDrvTrippedTimeout (n : Fin 24) (s : State) : Outcome State Fault Refusal :=
  if (s.rod n).start = some .clear ∧ (s.enabledPos n).any (fun p => (s.hbStat n p).testBit hbTRIPPED) then
    .next (s.startFails n 4)
  else .next s

/-! ## Precharge -/

/-- V_dc in per mille of Vs₀ (R150), limited to the ten bits of PC_LOG; free where Vs₀ is 0. -/
def State.pcRatio (s : State) (n : Nat) : Nat × State :=
  let v0 := (s.rod n).vs0
  if v0 = 0 then
    let f := s.free
    (f.1 % 1024, f.2)
  else ((clampI 0 1023 (s.vdc n * 1000 / (v0 : Int))).toNat, s)

/-- A short at 1τ (R152). -/
def State.prechargeShort (s : State) (n : Nat) : State :=
  let p := pPROT n
  let s := (s.setPrech n false).setRodSt n stOFF
  let s := (s.setStep n spNONE).err p (blk 3)
  let s := (s.incF p PROT.STATUS_PC_SHORTS).set p PROT.STATUS_HOLDOFF 1
  if s.get p PROT.STATUS_PC_SHORTS = 3 ∧ !s.flag p PROT.STATUS_LOCKOUT then
    (s.set p PROT.STATUS_LOCKOUT 1).ev p (blk 6)
  else s

/-- 1τ after entry to PRECHARGE (R150, R152). -/
def execPrecharge1tau (n : Fin 24) (s : State) : Outcome State Fault Refusal :=
  if s.rodSt n ≠ stPRECHARGE ∨ s.rodStep n ≠ spPCCHARGE then .next s
  else
    let p := pPROT n
    let v := s.vdc n
    let v0 : Int := (s.rod n).vs0
    let hi := orFull (s.get p PROT.PC_CFG_PC_HI1) 85
    let r := s.pcRatio n
    let s := r.2.set p ⟨PROT.PC_LOG, 9, 0⟩ r.1
    if v * 100 < 40 * v0 then .next (s.prechargeShort n)
    else if (hi : Int) * v0 < v * 100 then .next (s.faultCause n [fcPCFAST])
    else .next s

/-- 3τ after entry to PRECHARGE (R149, R150). -/
def execPrecharge3tau (n : Fin 24) (s : State) : Outcome State Fault Refusal :=
  if s.rodSt n ≠ stPRECHARGE ∨ s.rodStep n ≠ spPCCHARGE then .next s
  else
    let p := pPROT n
    let min3 := orFull (s.get p PROT.PC_CFG_PC_MIN3) 90
    let r := s.pcRatio n
    let s := r.2.set p ⟨PROT.PC_LOG, 25, 16⟩ r.1
    if s.vdc n * 100 < (min3 : Int) * ((s.rod n).vs0 : Int) then .next (s.faultCause n [fcPCSLOW])
    else .next ((s.setCont n true).setStep n spCONTCLOSE)

def execHoldoffEnd (n : Fin 24) (s : State) : Outcome State Fault Refusal :=
  .next (s.set (pPROT n) PROT.STATUS_HOLDOFF 0)

/-! ## Feedback, voltages, steps -/

/-- Feedback inputs are sampled (R149, R617). -/
def execFeedbackSample (n : Fin 24) (cont brk : Bool) (s : State) : Outcome State Fault Refusal :=
  let p := pPROT n
  let s := (s.setB p PROT.STATUS_CONT_FBK cont).setB p PROT.STATUS_BRK_FBK brk
  let st := s.rodSt n
  let step := s.rodStep n
  if st = stPRECHARGE ∧ step = spCONTCLOSE ∧ cont then
    let s := (s.setPrech n false).set p PROT.STATUS_PC_SHORTS 0
    .next ((s.setRodSt n stREADY).setStep n spNONE)
  else if st = stREADY ∧ step = spBRKCLOSE ∧ brk then .next (s.setStep n spENERGISE)
  else if st = stDISCHARGE ∧ step = spCONTOPEN ∧ !cont then
    .next ((s.setDisch n true).setStep n spDISCHARGING)
  else .next (s.gatesOffExit n)

/-- CONT_TIME or BRK_TIME has run and the feedback still differs from the command (R145). -/
def execFeedbackTimeout (n : Fin 24) (brk : Bool) (s : State) : Outcome State Fault Refusal :=
  let p := pPROT n
  if brk then
    if s.flag p PROT.CFG_BRK_EN && decide (s.flag p PROT.STATUS_BRK_FBK ≠ (s.rod n).brk) then
      .next (s.faultCause n [fcBRK])
    else .next s
  else if s.flag p PROT.STATUS_CONT_FBK ≠ (s.rod n).cont then .next (s.faultCause n [fcCONT])
  else .next s

/-- Conditions on V_dc and V_s (R151, R155, R617), with MEAS, which saturates as signed codes (DESIGN CHOICE, log 190),
and DC_LIVE. -/
def State.voltageEval (s : State) (n : Nat) : State :=
  let p := pPROT n
  let s := s.setReg p PROT.MEAS (encSat 16 (s.vs n) * 65536 + encSat 16 (s.vdc n))
  let s := s.setB p PROT.STATUS_DC_LIVE (!s.dcSafe n)
  if s.rodSt n = stPRECHARGE ∧ s.vs n * 2 < ((s.rod n).vs0 : Int) then
    (s.err p (blk 4)).faultCause n [fcSTRING]
  else if s.rodSt n = stDISCHARGE ∧ s.dcSafe n then s.enterOff n
  else s

def execVoltageEval (n : Fin 24) (s : State) : Outcome State Fault Refusal := .next (s.voltageEval n)

/-- 20 ms in STEP = ENERGISE (R149): the rod enters RUN once every enabled link is timed (R135). -/
def execEnergiseDone (n : Fin 24) (s : State) : Outcome State Fault Refusal :=
  if s.rodSt n = stREADY ∧ s.rodStep n = spENERGISE ∧ s.fineLock ∧
      (s.enabledPos n).all (fun p => s.flag (pGLK n) (GLK.LSTAT_TIME_OK p)) then
    let s := (s.setRodSt n stRUN).setStep n spNONE
    let s := s.setReg (pROD n) ROD.STALE_RUN 0
    .next (s.setRod n { s.rod n with
      tripped := false, legs := [{}, {}, {}], modEnd := none, xchk := [0, 0, 0]
      runs := (s.rod n).runs + 1 })
  else .next s

/-- Phase voltage `x` and V_dc of diagnostic step `k` = 1 to 4. -/
def diagVx (v : List Int) (k x : Nat) : Int := v.getD (4 * (k - 1) + x) 0

/-- The findings of R160, as DIAG_RES. -/
def State.diagFind (s : State) (n : Nat) (v : List Int) : Nat :=
  let win : Int := s.get (pPROT n) PROT.DIAG_CFG_DIAG_WIN
  let opn : Int := s.get (pPROT n) PROT.DIAG_CFG_DIAG_OPEN
  let steps := [1, 2, 3, 4]
  let hi (x : Nat) : Bool := steps.all (fun k => decide ((diagVx v k x - diagVx v k 3).natAbs ≤ win))
  let lo (x : Nat) : Bool := steps.all (fun k => decide ((diagVx v k x).natAbs ≤ win))
  let op (x : Nat) : Bool := s.flag (pPROT n) PROT.CFG_OPEN_EN &&
    decide (opn ≤ diagVx v (2 + x) x - diagVx v (2 + x) ((x + 1) % 3))
  maskOf ((List.range 3).flatMap (fun x =>
    (if hi x then [x] else []) ++ (if lo x then [4 + x] else []) ++
      (if op x && !hi x && !lo x then [8 + x] else [])))

/-- The results written to slots `l` of field die `k` feed the diagnostics of its rods, in the last millisecond of a
step (R160). -/
def State.diagSlots (s : State) (k : Nat) (l : List Nat) : State :=
  (dieRods k).foldl (fun s n =>
    let x := s.rod n
    let p := pPROT n
    let len := orFull (s.get p PROT.DIAG_CFG2_DIAG_SETTLE) 10
    if s.rodSt n = stREADY ∧ s.rodStep n = spDIAG ∧ x.diagAt + (len - 1) * unitsMs ≤ s.beam.t then
      s.setRod n { x with
        diagSum := (List.range 3).map (fun j =>
          let a := x.diagSum.getD j (0, 0)
          let i := s.get p PROT.SLOT_A_VPH + j
          if l.contains i then (a.1 + s.slotVal k i, a.2 + 1) else a) }
    else s) s

/-- The average of a phase voltage over the last millisecond of a step (R160): the mean of the results written in it,
halves up, or the slot's value if there was none (DESIGN CHOICE, log 181). -/
def State.diagAvg (s : State) (n j : Nat) : Int :=
  let a := (s.rod n).diagSum.getD j (0, 0)
  if a.2 = 0 then s.slotVal (n / 6) (s.get (pPROT n) PROT.SLOT_A_VPH + j) else divRound a.1 a.2

/-- DIAG_STEP_END: a diagnostic step ends (R160). -/
def execDiagStepEnd (n : Fin 24) (s : State) : Outcome State Fault Refusal :=
  let x := s.rod n
  if s.rodSt n ≠ stREADY ∨ s.rodStep n ≠ spDIAG then .next s
  else
    let v := x.diagV ++ (List.range 3).map (s.diagAvg n) ++ [s.vdc n]
    if x.diagStep < 4 then
      let s := s.setRod n { x with
        diagStep := x.diagStep + 1, diagV := v, diagAt := s.beam.t, diagSum := [(0, 0), (0, 0), (0, 0)] }
      .next (s.setTestSrc n (diagSource (x.diagStep + 1)))
    else
      let res := s.diagFind n v
      let s := (s.setRod n { x with diagStep := 0, diagV := [] }).setTestSrc n none
      let s := s.setReg (pPROT n) PROT.DIAG_RES res
      if res = 0 then .next (s.energiseSide n) else .next (s.faultCause n [fcDIAG])

/-! ## Limits -/

/-- DESC_TIME + 100 ms after entry to DESCENT (R157). -/
def execDescTimeout (n : Fin 24) (s : State) : Outcome State Fault Refusal :=
  if s.rodSt n = stDESCENT then .next (s.faultCause n [fcDESCTMO]) else .next s

/-- DIS_LIM after the discharge command turned on (R155), which DIS_STOP may have turned off since. -/
def execDisLimExpire (n : Fin 24) (s : State) : Outcome State Fault Refusal :=
  if ((s.rod n).disch || s.flag (pPROT n) PROT.STATUS_DIS_ABANDON) && !s.dcSafe n then
    .next ((s.err (pPROT n) (blk 5)).faultCause n [fcDIS])
  else .next s

/-- DIS_STOP after the discharge command turned on (R155). -/
def execDisStopExpire (n : Fin 24) (s : State) : Outcome State Fault Refusal :=
  if (s.rod n).disch then .next ((s.setDisch n false).set (pPROT n) PROT.STATUS_DIS_ABANDON 1)
  else .next s

/-! ## Life record -/

/-- Bin of a cycle between two temperatures in 1/16 °C (R167). -/
def rfBin (a b : Int) : Nat :=
  let sw := min 7 (Nat.log2 ((a - b).natAbs / 16))
  let mean := (clampI 0 7 ((a + b + 1280) / 640)).toNat
  8 * mean + sw

/-- A bin gains half-cycles (R167): the bin, the damage, and the wear warning when the damage reaches
its limit. -/
def State.rfGain (s : State) (n m b k : Nat) : State :=
  let p := pPROT n
  let s := s.incSat p (PROT.RF_BIN m b) k
  let old := s.reg64 p (PROT.DMG_LO m)
  let new := min (old + k * s.reg p (PROT.DMG_COEF b)) (2 ^ 64 - 1)
  let s := s.setReg64 p (PROT.DMG_LO m) new
  let lim := orFull (s.get p PROT.SIG_CFG_DMG_WARN) 205 * 2 ^ 40
  if old < lim ∧ lim ≤ new then (s.setBit p PROT.LIFE_STAT m true).ev p (blk 4) else s

/-- Count one range of the rainflow counter: swings below 1 K are not counted. -/
def State.rfCount (s : State) (n m : Nat) (a b : Int) (k : Nat) : State :=
  if (a - b).natAbs < 16 then s else s.rfGain n m (rfBin a b) k

/-- Close cycles by the four-point method (R167), on the turning points newest first. -/
def State.rfClose (s : State) (n m : Nat) : Nat → List Int → State × List Int
  | 0, l => (s, l)
  | f + 1, l =>
    match l with
    | d :: c :: b :: a :: r =>
      if (b - c).natAbs ≤ (a - b).natAbs ∧ (b - c).natAbs ≤ (c - d).natAbs then
        (s.rfCount n m b c 2).rfClose n m f (d :: a :: r)
      else (s, l)
    | _ => (s, l)

/-- A turning point joins the residue of a position (R167): cycles close; past 16 points the oldest
range counts as one half-cycle. -/
def State.rfTurn (s : State) (n m : Nat) (x : Int) : State :=
  let r := s.rfClose n m 16 (x :: (s.life n m).residue.reverse)
  let l := r.2.reverse
  match l with
  | a :: b :: rest =>
    if 16 < l.length then
      let s := (r.1.rfCount n m a b 1).incSat (pPROT n) PROT.RF_OVF
      s.setLife n m { s.life n m with residue := b :: rest }
    else r.1.setLife n m { r.1.life n m with residue := l }
  | _ => r.1.setLife n m { r.1.life n m with residue := l }

/-- The rainflow counter of a position takes TJ_EST (R167): turning points with hysteresis. -/
def State.rfTake (s : State) (n m : Nat) : State :=
  let p := pPROT n
  let t := sxt 16 (s.reg p (PROT.TJ_EST m))
  let h : Int := orFull (s.get p PROT.TJ_AUX_RF_HYST) 16
  let x := s.life n m
  match x.residue.getLast? with
  | none => s.setLife n m { x with residue := [t], lastExt := t }
  | some tp =>
    let put (v : Int) : State := s.setLife n m { x with lastExt := v }
    if x.lastExt = tp then (if h ≤ (t - tp).natAbs then put t else s)
    else if tp < x.lastExt then
      if x.lastExt ≤ t then put t
      else if h ≤ x.lastExt - t then
        let s := s.rfTurn n m x.lastExt
        s.setLife n m { s.life n m with lastExt := t }
      else s
    else if t ≤ x.lastExt then put t
    else if h ≤ t - x.lastExt then
      let s := s.rfTurn n m x.lastExt
      s.setLife n m { s.life n m with lastExt := t }
    else s

/-- Each millisecond (R167). -/
def execRainflowTick (n : Fin 24) (s : State) : Outcome State Fault Refusal :=
  .next ((List.range 3).foldl (fun s m => s.rfTake n m) s)

/-- Every 60 s (R169). -/
def execLifeSnap (n : Fin 24) (s : State) : Outcome State Fault Refusal :=
  .next (s.ev (pPROT n) (blk 5))

end Sys2Proof.Machine
end

