-- ==== Sys2Proof/Machine/Crypto.lean ====
section
/-! DEFINITION. The named algorithms of spec/18, R466 and R467, and of spec/14, R354, beside the hash
functions of Sha256.lean: Ed25519 (RFC 8032), X25519 (RFC 7748), AES-256 (FIPS 197) in GCM (SP 800-38D),
over lists of byte values; and the CRC-32C of spec/13. -/

namespace Sys2Proof.Machine

/-! ## Arithmetic modulo 2²⁵⁵ − 19 -/

abbrev edP : Nat := 2 ^ 255 - 19
abbrev edD : Nat := 37095705934669439343138083508754565189542113879843219016388785533085940283555
abbrev edI : Nat := 19681161376707505956807079304988542015446066515923890162744021073123829784752
abbrev edL : Nat := 2 ^ 252 + 27742317777372353535851937790883648493

/-- Power modulo `m`, by `bits` bits of the exponent. -/
def powMod (m b e : Nat) : Nat → Nat
  | 0 => 1
  | n + 1 =>
    let r := powMod m (b * b % m) (e / 2) n
    if e % 2 = 1 then r * b % m else r

/-- The inverse modulo p. -/
def invP (x : Nat) : Nat := powMod edP x (edP - 2) 255

/-- Difference modulo p. -/
def subP (a b : Nat) : Nat := (a + edP - b % edP) % edP

/-! ## Ed25519 -/

/-- A point in extended coordinates X, Y, Z, T. -/
structure EdPt where
  x : Nat
  y : Nat
  z : Nat
  t : Nat
deriving DecidableEq, Repr

/-- The neutral element and the base point. -/
def edZero : EdPt := ⟨0, 1, 1, 0⟩
def edBase : EdPt :=
  let x := 15112221349535400772501151409588531511454012693041857206046113283949847762202
  let y := 46316835694926478169428394003475163141307993866256225615783033603165251855960
  ⟨x, y, 1, x * y % edP⟩

/-- Point addition (RFC 8032, 5.1.4). -/
def edAdd (p q : EdPt) : EdPt :=
  let a := subP p.y p.x * subP q.y q.x % edP
  let b := (p.y + p.x) * (q.y + q.x) % edP
  let c := 2 * p.t * q.t * edD % edP
  let d := 2 * p.z * q.z % edP
  let e := subP b a
  let f := subP d c
  let g := (d + c) % edP
  let h := (b + a) % edP
  ⟨e * f % edP, g * h % edP, f * g % edP, e * h % edP⟩

/-- A multiple of a point, by the low `bits` bits of the scalar. -/
def edMul (k : Nat) (p : EdPt) : Nat → EdPt
  | 0 => edZero
  | n + 1 =>
    let r := edMul (k / 2) (edAdd p p) n
    if k % 2 = 1 then edAdd r p else r

/-- Encode a point as 32 bytes. -/
def edEnc (p : EdPt) : List Nat :=
  let i := invP p.z
  leBytes 32 (p.y * i % edP + p.x * i % edP % 2 * 2 ^ 255)

/-- Decode 32 bytes (RFC 8032, 5.1.3). -/
def edDec (l : List Nat) : Option EdPt :=
  let n := ofLE l
  let y := n % 2 ^ 255
  let odd := n / 2 ^ 255 % 2
  if l.length ≠ 32 ∨ edP ≤ y then none
  else
    let u := subP (y * y % edP) 1
    let v := (edD * (y * y % edP) + 1) % edP
    let x2 := u * invP v % edP
    let x := powMod edP x2 ((edP + 3) / 8) 253
    let x := if x * x % edP = x2 then x else x * edI % edP
    if x * x % edP ≠ x2 then none
    else if x = 0 ∧ odd = 1 then none
    else
      let x := if x % 2 = odd then x else edP - x
      some ⟨x, y, 1, x * y % edP⟩

/-- Whether two points are equal. -/
def edEq (p q : EdPt) : Bool :=
  decide (p.x * q.z % edP = q.x * p.z % edP) && decide (p.y * q.z % edP = q.y * p.z % edP)

/-- The clamped scalar of 32 bytes. -/
def clampKey (l : List Nat) : Nat := ofLE l / 8 % 2 ^ 251 * 8 + 2 ^ 254

/-- The public key of a seed. -/
def edPublic (seed : List Nat) : List Nat := edEnc (edMul (clampKey ((sha512 seed).take 32)) edBase 255)

/-- The signature of a message by a seed. -/
def edSign (seed msg : List Nat) : List Nat :=
  let h := sha512 seed
  let a := clampKey (h.take 32)
  let r := ofLE (sha512 (h.drop 32 ++ msg)) % edL
  let re := edEnc (edMul r edBase 253)
  let k := ofLE (sha512 (re ++ edPublic seed ++ msg)) % edL
  re ++ leBytes 32 ((r + k * a) % edL)

/-- Whether a 64-byte signature of a message verifies under a public key. -/
def edVerify (pub msg sig : List Nat) : Bool :=
  let s := ofLE (sig.drop 32)
  match edDec pub, edDec (sig.take 32) with
  | some a, some r =>
    let k := ofLE (sha512 (sig.take 32 ++ pub ++ msg)) % edL
    decide (sig.length = 64) && decide (s < edL) &&
      edEq (edMul s edBase 253) (edAdd r (edMul k a 253))
  | _, _ => false

/-! ## X25519 -/

/-- The ladder on bits n − 1 to 0 of the scalar (RFC 7748): (x2, z2, x3, z3). -/
def xLadder (k u : Nat) : Nat → Nat × Nat × Nat × Nat → Nat × Nat × Nat × Nat
  | 0, q => q
  | n + 1, (x2, z2, x3, z3) =>
    let b := k.testBit n
    let (x2, x3) := if b then (x3, x2) else (x2, x3)
    let (z2, z3) := if b then (z3, z2) else (z2, z3)
    let a := (x2 + z2) % edP
    let aa := a * a % edP
    let b' := subP x2 z2
    let bb := b' * b' % edP
    let e := subP aa bb
    let da := subP x3 z3 * a % edP
    let cb := (x3 + z3) % edP * b' % edP
    let x3 := (da + cb) * (da + cb) % edP
    let z3 := u * (subP da cb * subP da cb % edP) % edP
    let x2 := aa * bb % edP
    let z2 := e * ((aa + 121665 * e) % edP) % edP
    let (x2, x3) := if b then (x3, x2) else (x2, x3)
    let (z2, z3) := if b then (z3, z2) else (z2, z3)
    xLadder k u n (x2, z2, x3, z3)

/-- X25519 of a 32-byte private key and a 32-byte point. -/
def x25519 (key pt : List Nat) : List Nat :=
  let u := ofLE pt % 2 ^ 255 % edP
  let r := xLadder (clampKey key) u 255 (1, 0, u, 1)
  leBytes 32 (r.1 * invP r.2.1 % edP)

/-! ## AES-256 and GCM -/

/-- The S-box. -/
def aesS : List Nat := [
  0x63, 0x7c, 0x77, 0x7b, 0xf2, 0x6b, 0x6f, 0xc5, 0x30, 0x01, 0x67, 0x2b, 0xfe, 0xd7, 0xab, 0x76,
  0xca, 0x82, 0xc9, 0x7d, 0xfa, 0x59, 0x47, 0xf0, 0xad, 0xd4, 0xa2, 0xaf, 0x9c, 0xa4, 0x72, 0xc0,
  0xb7, 0xfd, 0x93, 0x26, 0x36, 0x3f, 0xf7, 0xcc, 0x34, 0xa5, 0xe5, 0xf1, 0x71, 0xd8, 0x31, 0x15,
  0x04, 0xc7, 0x23, 0xc3, 0x18, 0x96, 0x05, 0x9a, 0x07, 0x12, 0x80, 0xe2, 0xeb, 0x27, 0xb2, 0x75] ++ [
  0x09, 0x83, 0x2c, 0x1a, 0x1b, 0x6e, 0x5a, 0xa0, 0x52, 0x3b, 0xd6, 0xb3, 0x29, 0xe3, 0x2f, 0x84,
  0x53, 0xd1, 0x00, 0xed, 0x20, 0xfc, 0xb1, 0x5b, 0x6a, 0xcb, 0xbe, 0x39, 0x4a, 0x4c, 0x58, 0xcf,
  0xd0, 0xef, 0xaa, 0xfb, 0x43, 0x4d, 0x33, 0x85, 0x45, 0xf9, 0x02, 0x7f, 0x50, 0x3c, 0x9f, 0xa8,
  0x51, 0xa3, 0x40, 0x8f, 0x92, 0x9d, 0x38, 0xf5, 0xbc, 0xb6, 0xda, 0x21, 0x10, 0xff, 0xf3, 0xd2] ++ [
  0xcd, 0x0c, 0x13, 0xec, 0x5f, 0x97, 0x44, 0x17, 0xc4, 0xa7, 0x7e, 0x3d, 0x64, 0x5d, 0x19, 0x73,
  0x60, 0x81, 0x4f, 0xdc, 0x22, 0x2a, 0x90, 0x88, 0x46, 0xee, 0xb8, 0x14, 0xde, 0x5e, 0x0b, 0xdb,
  0xe0, 0x32, 0x3a, 0x0a, 0x49, 0x06, 0x24, 0x5c, 0xc2, 0xd3, 0xac, 0x62, 0x91, 0x95, 0xe4, 0x79,
  0xe7, 0xc8, 0x37, 0x6d, 0x8d, 0xd5, 0x4e, 0xa9, 0x6c, 0x56, 0xf4, 0xea, 0x65, 0x7a, 0xae, 0x08] ++ [
  0xba, 0x78, 0x25, 0x2e, 0x1c, 0xa6, 0xb4, 0xc6, 0xe8, 0xdd, 0x74, 0x1f, 0x4b, 0xbd, 0x8b, 0x8a,
  0x70, 0x3e, 0xb5, 0x66, 0x48, 0x03, 0xf6, 0x0e, 0x61, 0x35, 0x57, 0xb9, 0x86, 0xc1, 0x1d, 0x9e,
  0xe1, 0xf8, 0x98, 0x11, 0x69, 0xd9, 0x8e, 0x94, 0x9b, 0x1e, 0x87, 0xe9, 0xce, 0x55, 0x28, 0xdf,
  0x8c, 0xa1, 0x89, 0x0d, 0xbf, 0xe6, 0x42, 0x68, 0x41, 0x99, 0x2d, 0x0f, 0xb0, 0x54, 0xbb, 0x16]

/-- Multiplication by x in GF(2⁸). -/
def xtime (a : Nat) : Nat := if a < 128 then 2 * a else (2 * a) ^^^ 0x11B

/-- Byte-wise exclusive or. -/
def xorL (a b : List Nat) : List Nat := List.zipWith (fun x y => x ^^^ y) a b

/-- S-box of every byte. -/
def subL (l : List Nat) : List Nat := l.map (fun b => aesS.getD b 0)

/-- The key schedule of AES-256, words of 4 bytes, newest first. -/
def aesExpand : Nat → Nat → List (List Nat) → List (List Nat)
  | 0, _, w => w
  | n + 1, rcon, w =>
    let i := w.length
    let t := w.getD 0 []
    let old := w.getD 7 []
    if i % 8 = 0 then
      aesExpand n (xtime rcon) (xorL old (xorL (subL (t.rotateLeft 1)) [rcon, 0, 0, 0]) :: w)
    else if i % 8 = 4 then aesExpand n rcon (xorL old (subL t) :: w)
    else aesExpand n rcon (xorL old t :: w)

/-- The 15 round keys of 16 bytes. -/
def aesKeys (key : List Nat) : List (List Nat) :=
  chunks 16 15 ((aesExpand 52 1 (chunks 4 8 key).reverse).reverse.flatten)

/-- ShiftRows on 16 bytes in column order. -/
def shiftRows (l : List Nat) : List Nat :=
  (List.range 16).map (fun i => l.getD ((i + 4 * (i % 4)) % 16) 0)

/-- MixColumns. -/
def mixCols (l : List Nat) : List Nat :=
  (List.range 16).map (fun i =>
    let g (k : Nat) : Nat := l.getD (i / 4 * 4 + (i + k) % 4) 0
    xtime (g 0) ^^^ xtime (g 1) ^^^ g 1 ^^^ g 2 ^^^ g 3)

/-- AES-256 of one block. -/
def aesBlock (ks : List (List Nat)) (b : List Nat) : List Nat :=
  let st := xorL b (ks.getD 0 [])
  let st := (List.range 13).foldl (fun st r => xorL (mixCols (shiftRows (subL st))) (ks.getD (r + 1) [])) st
  xorL (shiftRows (subL st)) (ks.getD 14 [])

/-- Multiplication in GF(2¹²⁸) of GCM, over the bits of `y` from the most significant. -/
def gcmMul (y : Nat) : Nat → Nat → Nat → Nat
  | 0, _, z => z
  | n + 1, v, z =>
    let z := if y.testBit n then z ^^^ v else z
    gcmMul y n (if v % 2 = 1 then v / 2 ^^^ 0xE1000000000000000000000000000000 else v / 2) z

/-- Zero padding to 16 bytes. -/
def pad16 (l : List Nat) : List Nat := l ++ List.replicate ((16 - l.length % 16) % 16) 0

/-- GHASH. -/
def ghash (h : Nat) (l : List Nat) : Nat :=
  (chunks 16 (l.length / 16 + 1) l).foldl (fun a b => gcmMul (a ^^^ ofBE b) 128 h 0) 0

/-- The key stream of CTR from block number `c`, applied to data. -/
def gcmCtr (ks : List (List Nat)) (iv : List Nat) (data : List Nat) : List Nat :=
  ((chunks 16 (data.length / 16 + 1) data).mapIdx (fun i b =>
    xorL b (aesBlock ks (iv ++ beBytes 4 (i + 2))))).flatten

/-- The 16-byte tag. -/
def gcmTag (ks : List (List Nat)) (iv aad ct : List Nat) : List Nat :=
  let h := ofBE (aesBlock ks (List.replicate 16 0))
  let g := ghash h (pad16 aad ++ pad16 ct ++ beBytes 8 (8 * aad.length) ++ beBytes 8 (8 * ct.length))
  xorL (beBytes 16 g) (aesBlock ks (iv ++ [0, 0, 0, 1]))

/-- GCM seal: ciphertext and tag. -/
def gcmSeal (key iv aad pt : List Nat) : List Nat × List Nat :=
  let ks := aesKeys key
  let ct := gcmCtr ks iv pt
  (ct, gcmTag ks iv aad ct)

/-- GCM open: the plaintext where the tag is right. -/
def gcmOpen (key iv aad ct tag : List Nat) : Option (List Nat) :=
  let ks := aesKeys key
  if gcmTag ks iv aad ct = tag then some (gcmCtr ks iv ct) else none

/-! ## CRC-32C -/

/-- One bit step of CRC-32C (Castagnoli, reflected). -/
def crcStep : Nat → Nat → Nat
  | 0, c => c
  | n + 1, c => crcStep n (if c % 2 = 1 then c / 2 ^^^ 0x82F63B78 else c / 2)

/-- The CRC-32C of bytes. -/
def crc32c (l : List Nat) : Nat := (l.foldl (fun c b => crcStep 8 (c ^^^ b)) 0xFFFFFFFF) ^^^ 0xFFFFFFFF

end Sys2Proof.Machine
end

