-- ==== Sys2Proof/Machine/Beads.lean ====
section
/-! DEFINITION. Beads (spec/12, R280 to R299): the device's lease, its renewals and answers, the home's
ledger and its steps, home commands, replication. -/

/-! ## Pairs of counts, ledgers -/

namespace Sys2Proof

def PQ.add (a b : PQ) : PQ := ⟨a.p + b.p, a.q + b.q⟩
def PQ.sub (a b : PQ) : PQ := ⟨a.p - b.p, a.q - b.q⟩
def PQ.map2 (f : Int → Int → Int) (a b : PQ) : PQ := ⟨f a.p b.p, f a.q b.q⟩

/-- A ledger after a step. -/
def Ledger.apply (l : Ledger) (lseq : Nat) (st : LedgerStep) : Ledger where
  lseq := lseq
  pool := st.pool
  minted := st.minted
  retired := st.retired
  retPend := st.retPend
  leases := st.leases.foldl (fun t e =>
    match e.2 with
    | some x => Machine.tabIns (Machine.tabDel t e.1) e.1 x
    | none => Machine.tabDel t e.1) l.leases

/-- A step that changes nothing yet. -/
def Ledger.same (l : Ledger) : LedgerStep := ⟨l.pool, l.minted, l.retired, l.retPend, []⟩

/-- The entry of a device. -/
def Ledger.entry (l : Ledger) (d : Nat) : Option LedgerEntry := (l.leases.find? (fun e => e.1 == d)).map Prod.snd

/-- An entry as the answered RENEW leaves it. -/
def LedgerEntry.take (e : LedgerEntry) (m : Renew) (exp : Nat) : LedgerEntry :=
  { e with exp := exp, fine := m.fine, capPos := m.capPos, capNeg := m.capNeg }

/-- The amount of a reclaimed lease goes to the pool. -/
def LedgerStep.reclaim (st : LedgerStep) (d : Nat) (e : LedgerEntry) : LedgerStep :=
  { st with pool := st.pool.add e.lease, leases := st.leases ++ [(d, none)] }

/-- The numbers of a ledger in a fixed order. -/
def Ledger.words (l : Ledger) : List Int :=
  [(l.lseq : Int), l.pool.p, l.pool.q, l.minted.p, l.minted.q, l.retired.p, l.retired.q, l.retPend.p,
    l.retPend.q] ++
  l.leases.flatMap (fun e => [(e.1 : Int), e.2.boot, e.2.rseq, e.2.exp, e.2.lease.p, e.2.lease.q])

end Sys2Proof

namespace Sys2Proof.Machine

open Host (Outcome)

/-- HOLD_P and HOLD_Q. -/
def State.hold (s : State) : PQ := ⟨s.regS pBEADS BEADS.HOLD_P, s.regS pBEADS BEADS.HOLD_Q⟩

/-- Set HOLD, and REMAIN with it. -/
def State.setHold (s : State) (a : PQ) : State :=
  ((s.setReg pBEADS BEADS.HOLD_P (enc 32 a.p)).setReg pBEADS BEADS.HOLD_Q (enc 32 a.q)).setRemain

/-! ## The device's renewals (R282, R289, R291) -/

/-- The home a RENEW goes to after a number of repeats (R282): the first repeat to the same home, the
second to the other, later ones alternating. -/
def RenewOut.toAlt (o : RenewOut) : Bool := if o.tries ≤ 1 then o.alt else o.alt != (o.tries % 2 == 0)

/-- The P and the Q word of a count. -/
def pqBytes (a : PQ) : List Nat := leBytes 4 (enc 32 a.p) ++ leBytes 4 (enc 32 a.q)

/-- A RENEW as bytes (R289). -/
def renewBytes (m : Renew) : List Nat :=
  [0x21, b2n m.new + 2 * b2n m.fine] ++ leBytes 2 m.boot ++ leBytes 4 m.rseq ++ leBytes 8 m.treq ++ pqBytes m.hold ++
    pqBytes m.rel ++ leBytes 4 (enc 32 m.capPos.p) ++ leBytes 4 (enc 32 m.capNeg.p) ++
    leBytes 4 (enc 32 m.capPos.q) ++ leBytes 4 (enc 32 m.capNeg.q)

/-- An ACK as bytes (R289). -/
def ackBytes (m : BeadAck) : List Nat :=
  [0x22, m.code] ++ leBytes 2 m.hepoch ++ leBytes 4 m.rseq ++ leBytes 8 m.expiry ++ pqBytes m.lease ++
    pqBytes m.target ++ leBytes 8 m.lseq ++ List.replicate 8 0

/-- Send an ACK. -/
def State.sendAck (s : State) (d : Nat) (m : BeadAck) : State := s.fabBytes kdBEAD d (ackBytes m)

/-- Send the outstanding RENEW. -/
def State.renewTransmit (s : State) (o : RenewOut) : State :=
  let s := s.setBead { s.bead with out := some o }
  let s := s.set pBEADS BEADS.DEV_STAT_WAIT_ACK 1
  s.fabBytes kdBEAD (s.homeAddr o.toAlt) (renewBytes
    { new := o.new, fine := s.fineLock, boot := s.get pBEADS BEADS.DEV_STAT_BOOT, rseq := o.rseq
      treq := s.beam.t / 256 % 2 ^ 64, hold := s.hold, rel := o.rel
      capPos := ⟨s.beadCap false false, s.beadCap true false⟩
      capNeg := ⟨s.beadCap false true, s.beadCap true true⟩ })

/-- A new renewal: NEW in REQUEST, else with the release due, which leaves the device's count first. -/
def State.renewNew (s : State) : State :=
  let alt := s.flag pBEADS BEADS.DEV_STAT_HOME_ALT
  if s.lstate = lsREQUEST then
    (s.setReg pBEADS BEADS.RSEQ 0).renewTransmit { rseq := 0, new := true, rel := {}, alt := alt }
  else
    let x := s.bead
    let s := (s.setHold (s.hold.sub x.rel)).setReg pBEADS BEADS.RSEQ x.next
    let s := s.setBead { x with next := (x.next + 1) % 2 ^ 32, rel := {} }
    s.renewTransmit { rseq := x.next, new := false, rel := x.rel, alt := alt }

/-- The 100 ms point of the renewals (R289, R292): at most one RENEW is outstanding; in DEEP none is
sent. -/
def execRenewSend (s : State) : Outcome State Fault Refusal :=
  let s := s.beadStart
  if s.bead.out.isNone ∧ (s.lstate = lsREQUEST ∨ s.lstate = lsHELD ∨ s.lstate = lsRAMP) ∧ s.dev ≠ dvDEEP
  then .next s.renewNew
  else .next s

/-- 20 ms without the ACK (R291). -/
def execRenewRetry (s : State) : Outcome State Fault Refusal :=
  match s.bead.out with
  | none => .next s
  | some o => .next ((s.incSat pBEADS BEADS.RETRY_CNT).renewTransmit { o with tries := o.tries + 1 })

/-- release_due of one kind (R291). -/
def releaseDue (hold target : Int) : Int :=
  if (target < hold ∧ 0 ≤ target) ∨ (hold < target ∧ target ≤ 0) then hold - target
  else if hold * target < 0 then hold
  else 0

/-- With EN = 0 and nothing held or due, the lease ends (R292). -/
def State.beadQuiet (s : State) : State :=
  if !s.en pBEADS && s.bead.out.isNone && decide (s.hold = {}) && decide (s.bead.rel = {}) &&
      (decide (s.lstate = lsREQUEST) || decide (s.lstate = lsHELD) || decide (s.lstate = lsRAMP)) then
    s.setLstate lsNONE
  else s

/-- PG_CTL.EN of BEADS written 0 (R292). -/
def State.beadsDisable (s : State) : State :=
  let s := if s.lstate = lsHELD then (s.setLstate lsRAMP).setBead { s.bead with restore := none } else s
  s.beadQuiet.placeRun

/-- The lease lapses (R292): the placement is 0, what was held is remainder.  Under the AON agent the
count and the event wait for the wake (R298). -/
def State.leaseLapse (s : State) : State :=
  let s := s.setBead { s.bead with basis := {}, rel := {}, out := none, restore := none }
  let s := (s.setLstate lsLAPSED).set pBEADS BEADS.DEV_STAT_WAIT_ACK 0
  let s := if s.bead.agent then s.setBead { s.bead with agentLapses := s.bead.agentLapses + 1 }
    else (s.incSat pBEADS BEADS.LAPSE_CNT).ev pBEADS (blk 0)
  s.placeRun

/-- The device takes the ledger's count (R291, R292). -/
def State.ackTake (s : State) (m : BeadAck) : State :=
  let s := s.setHold m.lease
  let s := (s.setReg pBEADS BEADS.TARGET_P (enc 32 m.target.p)).setReg pBEADS BEADS.TARGET_Q (enc 32 m.target.q)
  let s := s.setReg64 pBEADS BEADS.EXPIRY_LO m.expiry
  let due := PQ.map2 releaseDue m.lease m.target
  let s := s.setBead { s.bead with rel := due, basis := m.lease.sub due }
  let s := s.setB pBEADS BEADS.DEV_STAT_FROZEN_SEEN (decide (m.code = 5))
  let s := if s.lstate = lsREQUEST then s.setLstate lsHELD
    else if s.lstate = lsRAMP ∧ s.en pBEADS ∧ s.beam.t + s.rampUnits < s.expiryUnits then
      -- the factor the ramp had reached, taken with the old expiry, is where the return starts
      s.setLstate lsHELD
    else s
  s.placeRun.beadQuiet

/-- An ACK (R282, R291, R292). -/
def execBeadAckRx (src : Fin 4096) (m : BeadAck) (s : State) : Outcome State Fault Refusal :=
  match s.bead.out with
  | none => .next s
  | some o =>
    if m.rseq ≠ o.rseq ∨ m.hepoch < s.bead.epoch then .next s
    else if m.code = 2 then
      .next ((s.incSat pBEADS BEADS.RETRY_CNT).renewTransmit { o with alt := !o.toAlt, tries := 0 })
    else
      let num := s.rampNum
      let ramping := decide (s.lstate = lsRAMP)
      let s := s.setBead { s.bead with epoch := m.hepoch, out := none }
      let s := s.set pBEADS BEADS.DEV_STAT_WAIT_ACK 0
      let s := if src.val = s.homeAddr false then s.set pBEADS BEADS.DEV_STAT_HOME_ALT 0
        else if src.val = s.homeAddr true then s.set pBEADS BEADS.DEV_STAT_HOME_ALT 1 else s
      if m.code = 0 ∨ (m.code = 5 ∧ s.lstate ≠ lsREQUEST) then
        let s := if ramping then s.setBead { s.bead with restore := some ((s.beam.t : Int) - num) } else s
        .next (s.ackTake m)
      else if m.code = 1 ∧ (s.lstate = lsHELD ∨ s.lstate = lsRAMP) then .next s.leaseLapse
      else if (m.code = 3 ∨ m.code = 4) ∧ s.lstate = lsREQUEST then
        .next (s.incSat pBEADS BEADS.REFUSE_CNT).beadQuiet
      else .next s

/-- LAPSED to NONE (R292). -/
def State.lapseEnd (s : State) : State := (s.setHold {}).setLstate lsNONE

/-- A NOTICE (R289, R292): reason 1 is RECLAIMED. -/
def execNoticeRx (reason : Fin 65536) (s : State) : Outcome State Fault Refusal :=
  .next (if s.lstate = lsLAPSED ∧ reason.val = 1 then s.lapseEnd else s)

/-- The beam reaches expiry − RAMP (R292). -/
def execRampStart (s : State) : Outcome State Fault Refusal :=
  if s.lstate = lsHELD ∧ s.expiryUnits ≤ s.beam.t + s.rampUnits then
    .next ((s.setLstate lsRAMP).setBead { s.bead with restore := none }).placeRun
  else .next s

/-- Each 1 ms in RAMP, or while a placement is restored (R292, R293). -/
def execRampTick (s : State) : Outcome State Fault Refusal :=
  .next (if s.lstate = lsRAMP ∨ s.bead.restore.isSome then s.placeRun else s)

/-- The beam reaches expiry (R292). -/
def execLeaseLapse (s : State) : Outcome State Fault Refusal :=
  .next (if (s.lstate = lsHELD ∨ s.lstate = lsRAMP) ∧ s.expiryUnits ≤ s.beam.t then s.leaseLapse else s)

/-- The beam reaches expiry + 50 ms (R292). -/
def execLapseTimeout (s : State) : Outcome State Fault Refusal :=
  .next (if s.lstate = lsLAPSED ∧ s.expiryUnits + 50 * unitsMs ≤ s.beam.t then s.lapseEnd else s)

/-- The lease state is handed to the AON renewal agent (R298): a home keeps its own. -/
def State.agentHandover (s : State) : State :=
  if s.role = hrACTING ∨ s.role = hrSTANDBY then s
  else s.setBead { s.bead with agent := true, basis := {}, rel := s.bead.rel }

/-- The agent's state comes back at the wake (R298), with the lapses it recorded. -/
def State.agentReturn (s : State) : State :=
  if s.bead.agent then
    let n := s.bead.agentLapses
    let s := s.setBead { s.bead with agent := false, agentLapses := 0 }
    let s := if 0 < n then (s.incSat pBEADS BEADS.LAPSE_CNT n).ev pBEADS (blk 0) else s
    s.beadStart
  else s

/-- RD domain reset (R292, R293, R297): all bead state is lost, and BOOT takes a random value other than
the one it replaces. -/
def State.beadsReset (s : State) (boot : Nat) : State :=
  let f := s.free
  let b := if f.1 % 65536 = boot then (boot + 1) % 65536 else f.1 % 65536
  ({ f.2 with bead := {}, home := {} }).set pBEADS BEADS.DEV_STAT_BOOT b

/-! ## The ledger's steps (R283) -/

/-- Store the home's record. -/
def State.setHome (s : State) (x : HomeX) : State := { s with home := x }

/-- The targets of one kind (R288) from the net and the capacities. -/
def targetKind (n : Int) (caps : List Nat) : List Int :=
  let t := if (sumN caps : Int) ≤ n.natAbs then caps else apportion n.natAbs caps
  t.map (fun (x : Nat) => if n < 0 then -(x : Int) else (x : Int))

/-- The targets of every device with a lease (R285, R288). -/
def State.homeTargets (s : State) : State :=
  let l := s.home.work
  let net := (l.minted.sub l.retired).sub l.retPend
  let cap (k : PQ → Int) (e : LedgerEntry) : Nat :=
    if !e.fine then 0 else (k (if k net < 0 then e.capNeg else e.capPos)).toNat
  let ps := targetKind net.p (l.leases.map (fun e => cap PQ.p e.2))
  let qs := targetKind net.q (l.leases.map (fun e => cap PQ.q e.2))
  let t := l.leases.mapIdx (fun i e =>
    (e.1, if s.fineLock then (⟨ps.getD i 0, qs.getD i 0⟩ : PQ) else {}))
  s.setHome { s.home with targets := t }

/-- The target of a device, 0 while this home is below fine lock (R285). -/
def State.homeTarget (s : State) (d : Nat) : PQ :=
  if s.fineLock then ((s.home.targets.find? (fun e => e.1 == d)).map Prod.snd).getD {} else {}

/-- The end of a home command (R286). -/
def State.cmdEnd (s : State) (code : Nat) : State := s.setReg pBEADS BEADS.CMD_RES (2 ^ 31 + code)

/-- What follows a commit. -/
def State.homeAct (s : State) (lseq : Nat) (a : HomeAct) : State :=
  match a with
  | .ack d m => s.sendAck d { m with lseq := lseq }
  | .done => ((s.cmdEnd 0).ev pBEADS (blk 1)).homeTargets
  | .reclaimed d amt =>
    ((s.incSat pBEADS BEADS.RECLAIM_CNT).ev pBEADS (blk 4)).fabOpen d (.notice 1 amt)
  | .thawed => s.set pBEADS BEADS.HOME_STAT_FROZEN 0

/-- Commit the waiting steps up to a number. -/
def State.homeCommit (s : State) (lseq : Nat) : State :=
  let x := s.home
  let done := x.pend.takeWhile (fun e => decide (e.1 ≤ lseq))
  let s := s.setHome { x with
    pend := x.pend.dropWhile (fun e => decide (e.1 ≤ lseq))
    com := (done.getLast?.map (fun e => e.2.1)).getD x.com }
  done.foldl (fun s e => e.2.2.foldl (fun s a => s.homeAct e.1 a) s) s

/-- Whether the home commits alone. -/
def State.solo (s : State) : Bool := s.flag pBEADS BEADS.HOME_STAT_SOLO

/-- HEPOCH. -/
def State.hepoch (s : State) : Nat := s.get pBEADS BEADS.HOME_STAT_HEPOCH

/-- Message to the other home. -/
def State.toPeer (s : State) (m : HomeMsg) : State := s.fabOpen s.homePeer (.home m)

/-- A ledger step of the acting home (R283): applied, sent, and committed at once while SOLO. -/
def State.homeStep (s : State) (st : LedgerStep) (acts : List HomeAct) : State :=
  let x := s.home
  let n := x.work.lseq + 1
  let l := x.work.apply n st
  let s := s.setHome { x with work := l, pend := x.pend ++ [(n, l, acts)], sent := x.sent ++ [(n, st)] }
  if s.solo then s.homeCommit n else s.toPeer (.repl s.hepoch n st)

/-- Steps that have not committed are discarded (R283); a command among them ends with NO_COMMIT. -/
def State.homeDiscard (s : State) : State :=
  let x := s.home
  let s := if x.pend.any (fun e => e.2.2.contains .done) || x.recon then s.cmdEnd 4 else s
  s.setHome { x with pend := [], work := x.com, recon := false, sent := [] }

/-- Whether DISC shows more than half of the ledger's devices reachable (R284). -/
def State.majority (s : State) : Bool :=
  let l := s.home.com.leases
  decide (l.length < 2 * (l.filter (fun e => s.discReach e.1)).length)

/-- A standby, or a lost home, takes over (R284, R285). -/
def State.takeover (s : State) (solo : Bool) : State :=
  let s := s.homeDiscard
  let s := s.set pBEADS BEADS.HOME_STAT_HEPOCH ((s.hepoch + 1) % 65536)
  let s := (s.incSat pBEADS BEADS.TAKEOVER_CNT).setB pBEADS BEADS.HOME_STAT_SOLO solo
  (s.setRole hrACTING).homeTargets

/-- The home loses its majority and its peer (R284). -/
def State.homeLost (s : State) : State :=
  let s := if s.role = hrLOST then s else s.setHome { s.home with acted := decide (s.role = hrACTING) }
  (s.homeDiscard.set pBEADS BEADS.HOME_STAT_SOLO 0).setRole hrLOST

/-- A reach change (R284): a home that acts alone needs its majority. -/
def State.homeReachChanged (s : State) : State :=
  if s.role = hrACTING ∧ s.solo ∧ !s.majority then s.homeLost else s

/-- A HEPOCH seen from the other home (R284): a higher one ends this home's acting. -/
def State.seeEpoch (s : State) (h : Nat) : State :=
  if s.isHome ∧ s.hepoch < h then
    let s := if s.role = hrACTING then s.homeDiscard else s
    let s := (s.set pBEADS BEADS.HOME_STAT_HEPOCH h).set pBEADS BEADS.HOME_STAT_SOLO 0
    let s := s.setHome { s.home with needCopy := true }
    (s.setRole hrSTANDBY).toPeer (.copyReq h)
  else s

/-! ## RENEW at the home (R290) -/

/-- Release and grant of one kind (R290): lease and pool after them. -/
def grantKind (lease pool rel target : Int) (grants : Bool) (step : Nat) : Int × Int :=
  let lease := lease - rel
  let pool := pool + rel
  let g := target - lease
  if grants ∧ 0 < g * pool then
    let a := min g.natAbs pool.natAbs
    let a : Nat := if step = 0 then a else min a step
    let g : Int := if 0 < g then (a : Int) else -(a : Int)
    (lease + g, pool - g)
  else (lease, pool)

def execRenewRx (src : Fin 4096) (m : Renew) (s : State) : Outcome State Fault Refusal :=
  let d := src.val
  let l := s.home.work
  let now := s.beam.t / 256
  let exp := min m.treq now + 300000000
  let reply (code : Nat) (e : Option LedgerEntry) (t : PQ) : BeadAck :=
    { code := code, hepoch := s.hepoch, rseq := m.rseq, expiry := (e.map LedgerEntry.exp).getD 0
      lease := (e.map LedgerEntry.lease).getD {}, target := t, lseq := s.home.com.lseq }
  let refuse (code : Nat) (e : Option LedgerEntry) : State := s.sendAck d (reply code e {})
  let e := l.entry d
  if s.role ≠ hrACTING then .next (refuse 2 none)
  else if m.new then
    if !m.fine ∨ !s.fineLock then .next (refuse 3 e)
    else
      let fresh : LedgerEntry := {
        boot := m.boot, rseq := 0, exp := exp, lease := {}, fine := m.fine, capPos := m.capPos
        capNeg := m.capNeg, ans := s.homeTarget d }
      match e with
      | some o =>
        -- a frozen ledger reclaims nothing (R296): the old lease stays counted (log 194)
        if o.boot = m.boot ∨ s.flag pBEADS BEADS.HOME_STAT_FROZEN then .next (refuse 4 e)
        else
          let st := l.same.reclaim d o
          .next (s.homeStep { st with leases := [(d, some fresh)] }
            [.reclaimed d o.lease, .ack d (reply 0 (some fresh) fresh.ans)])
      | none =>
        .next (s.homeStep { l.same with leases := [(d, some fresh)] } [.ack d (reply 0 (some fresh) fresh.ans)])
  else
    match e with
    | none => .next (refuse 1 e)
    | some o =>
      if o.exp ≤ now then .next (refuse 1 e)
      else
        let o := o.take m (max o.exp exp)
        let put (code : Nat) (o : LedgerEntry) (pool t : PQ) : State :=
          s.homeStep { l.same with pool := pool, leases := [(d, some o)] } [.ack d (reply code (some o) t)]
        if m.rseq = o.rseq then .next (put 0 o l.pool o.ans)
        else if s.flag pBEADS BEADS.HOME_STAT_FROZEN then .next (put 5 o l.pool (s.homeTarget d))
        else
          let t := s.homeTarget d
          let step := s.reg pBEADS BEADS.GRANT_STEP % 2 ^ 24
          let p := grantKind o.lease.p l.pool.p m.rel.p t.p s.fineLock step
          let q := grantKind o.lease.q l.pool.q m.rel.q t.q s.fineLock step
          .next (put 0 { o with lease := ⟨p.1, q.1⟩, rseq := m.rseq, ans := t } ⟨p.2, q.2⟩ t)

/-! ## Home commands (R286) -/

/-- Within ±(2³¹ − 1) (R281). -/
def pqOk (a : PQ) : Bool := decide (a.p.natAbs < 2 ^ 31) && decide (a.q.natAbs < 2 ^ 31)

/-- A command of the acting home with the amounts of CMD_P and CMD_Q. -/
def State.homeCommand (s : State) (op : Nat) : State :=
  let l := s.home.work
  let amt : PQ := ⟨s.regS pBEADS BEADS.CMD_P, s.regS pBEADS BEADS.CMD_Q⟩
  let frozen := s.flag pBEADS BEADS.HOME_STAT_FROZEN
  let s := s.setReg pBEADS BEADS.CMD_RES 0
  let stuck := !s.solo && !s.flag pBEADS BEADS.HOME_STAT_PEER_OK
  if op = 0 ∨ 4 < op then s.cmdEnd 3
  else if s.role ≠ hrACTING then s.cmdEnd 1
  else if op = 4 then
    if !frozen then s.cmdEnd 5
    else if stuck then s.cmdEnd 4
    else if s.bit pBEADS BEADS.CMD_P 0 then
      (s.setHome { s.home with recon := true }).toPeer (.copyReq s.hepoch)
    else
      let n := l.lseq + 1
      let l' := { l with lseq := n }
      let s := s.setHome { s.home with work := l', pend := s.home.pend ++ [(n, l', [.thawed, .done])], sent := [] }
      if s.solo then s.homeCommit n else s.toPeer (.copy s.hepoch l')
  else if frozen then s.cmdEnd 2
  else
    let st := match op with
      | 1 => { l.same with pool := l.pool.add amt, minted := l.minted.add amt }
      | 2 => { l.same with retPend := l.retPend.add amt }
      | _ => { l.same with retPend := {} }
    let ok := op = 3 ∨ (pqOk amt ∧ pqOk st.pool ∧ pqOk (st.minted.sub st.retired) ∧ pqOk st.retPend)
    if !ok then s.cmdEnd 3
    else if stuck then s.cmdEnd 4
    else s.homeStep st [.done]

/-- A write to HOME_CMD (R286): a local processor may not command. -/
def State.homeCmdWrite (s : State) (w : Writer) (op : Nat) : State × Code :=
  if !w.isRemote then refuse s pBEADS (blk 1) .writeRefused
  else (s.homeCommand op, .ok)

/-- A home command by a writer. -/
def State.homeCmd (s : State) (w : Writer) (op : Nat) : State :=
  finish w pBEADS (s.actionWrite w pBEADS (fun s => s.homeCmdWrite w op))

def execMint (w : Writer) (s : State) : Outcome State Fault Refusal := .next (s.homeCmd w 1)
def execRetire (w : Writer) (s : State) : Outcome State Fault Refusal := .next (s.homeCmd w 2)
def execCancelRetire (w : Writer) (s : State) : Outcome State Fault Refusal := .next (s.homeCmd w 3)
def execReconcile (w : Writer) (s : State) : Outcome State Fault Refusal := .next (s.homeCmd w 4)

/-! ## The periodic steps (R287, R288) -/

/-- Retiring of one kind (R287): pool, retired, ret_pend. -/
def retireKind (pool ret pend : Int) : Int × Int × Int :=
  if 0 < pool * pend then
    let a : Nat := min pool.natAbs pend.natAbs
    let r : Int := if pend < 0 then -(a : Int) else (a : Int)
    (pool - r, ret + r, pend - r)
  else (pool, ret, pend)

def execLedgerTick (s : State) : Outcome State Fault Refusal :=
  if s.role ≠ hrACTING ∨ s.flag pBEADS BEADS.HOME_STAT_FROZEN then .next s
  else
    let l := s.home.work
    let now := s.beam.t / 256
    let p := retireKind l.pool.p l.retired.p l.retPend.p
    let q := retireKind l.pool.q l.retired.q l.retPend.q
    let gone := l.leases.filter (fun e => decide (e.2.exp + 50000000 ≤ now))
    let st : LedgerStep := { l.same with
      pool := ⟨p.1, q.1⟩, retired := ⟨p.2.1, q.2.1⟩, retPend := ⟨p.2.2, q.2.2⟩ }
    let st := gone.foldl (fun st e => st.reclaim e.1 e.2) st
    if st = l.same then .next s
    else .next (s.homeStep st (gone.map (fun e => .reclaimed e.1 e.2.lease)))

def execTargetRecompute (s : State) : Outcome State Fault Refusal :=
  .next (if s.role = hrACTING then s.homeTargets else s)

/-! ## Messages between the homes (R283 to R285, R296) -/

/-- The ledgers differ (R296). -/
def State.freeze (s : State) : State :=
  if s.flag pBEADS BEADS.HOME_STAT_FROZEN then s
  else (s.set pBEADS BEADS.HOME_STAT_FROZEN 1).ev pBEADS (blk 2)

/-- Compare the digest that waits, once this ledger has reached its LSEQ. -/
def State.digestCheck (s : State) : State :=
  match s.home.digWait with
  | none => s
  | some d =>
    let own := if s.home.com.lseq = d.1 then some (Config.ledgerDigest s.home.com.words)
      else (s.home.digSent.filter (fun x => x.1 == d.1)).map Prod.snd
    match own with
    | some v =>
      let s := s.setHome { s.home with digWait := none }
      if v = d.2 then s else s.freeze
    | none => if d.1 < s.home.com.lseq then s.setHome { s.home with digWait := none } else s

def execReplRx (hepoch lseq : Nat) (st : LedgerStep) (s : State) : Outcome State Fault Refusal :=
  let s := s.seeEpoch hepoch
  let x := s.home
  if s.role ≠ hrSTANDBY ∨ x.needCopy ∨ hepoch ≠ s.hepoch then .next s
  else if lseq = x.com.lseq + 1 then
    let l := x.com.apply lseq st
    .next ((s.setHome { x with com := l, work := l }).digestCheck.toPeer (.replAck hepoch lseq))
  else if lseq ≤ x.com.lseq then .next (s.toPeer (.replAck hepoch lseq))
  else .next (s.toPeer (.ask hepoch (x.com.lseq + 1)))

/-- The ledger and the steps after it go to the peer (R284, R285: LEDGER_COPY on request). -/
def State.copyOut (s : State) : State :=
  let s := s.toPeer (.copy s.hepoch s.home.com)
  (s.home.sent.filter (fun e => decide (s.home.com.lseq < e.1))).foldl (fun (s : State) e =>
    s.toPeer (.repl s.hepoch e.1 e.2)) s

/-- The steps from a number on are sent again (R283); the whole ledger, where the first is no longer held. -/
def State.resend (s : State) (lseq : Nat) : State :=
  let l := s.home.sent.filter (fun e => decide (lseq ≤ e.1))
  if s.home.sent.any (fun e => e.1 == lseq) then
    l.foldl (fun (s : State) e => s.toPeer (.repl s.hepoch e.1 e.2)) s
  else if lseq ≤ s.home.com.lseq then s.copyOut
  else s

/-- A REPL_ACK, or the peer's request for a missing step or for the ledger (R283, R284; log 192). -/
def execReplAckRx (hepoch lseq : Nat) (want : HomeAsk) (s : State) : Outcome State Fault Refusal :=
  let s := s.seeEpoch hepoch
  .next (if hepoch ≠ s.hepoch then s
    else match want with
      | .copy => if s.role = hrACTING ∨ s.role = hrSTANDBY ∧ !s.home.needCopy then s.copyOut else s
      | .step => if s.role = hrACTING then s.resend lseq else s
      | .ack => if s.role = hrACTING then
          let s := s.setHome { s.home with sent := s.home.sent.filter (fun e => decide (lseq < e.1)) }
          (s.homeCommit lseq).digestCheck
        else s)

def execHomeHbTx (digest : Bool) (s : State) : Outcome State Fault Refusal :=
  let s := s.homeRoles
  if !s.isHome then .next s
  else
    let d := if digest then some (s.home.com.lseq, Config.ledgerDigest s.home.com.words) else none
    let s := if digest then s.setHome { s.home with digSent := d } else s
    .next (s.toPeer (.hb s.hepoch s.home.work.lseq d))

/-- A home in LOST hears its peer again (R282, R284): the home that acted in this HEPOCH acts again, the other
stands by (log 193). -/
def State.peerBack (s : State) (hepoch : Nat) : State :=
  if s.home.acted ∨ hepoch < s.hepoch then (if s.fineLock then (s.setRole hrACTING).homeTargets else s)
  else s.setRole hrSTANDBY

/-- A HOME_HB (R283 to R285, R296): the peer is heard, a lower HEPOCH yields, a standby in fine lock
takes over from an acting home that has left it, a missing step is asked for, a digest is compared. -/
def execHomeHbRx (hepoch lseq : Nat) (digest : Option (Nat × Nat)) (eccOk : Bool) (s : State) :
    Outcome State Fault Refusal :=
  if !s.isHome then .next s
  else
    let s := s.set pBEADS BEADS.HOME_STAT_PEER_OK 1
    let s := s.seeEpoch hepoch
    let s := if s.role = hrACTING ∧ s.solo then
        s.set pBEADS BEADS.HOME_STAT_SOLO 0
      else if s.role = hrLOST then s.peerBack hepoch
      else s.homeRoles
    let s := if s.role = hrSTANDBY ∧ !s.home.needCopy ∧ s.fineLock ∧ s.discReach s.homePeer ∧
        !s.discFine s.homePeer then s.takeover false
      else if s.role = hrSTANDBY ∧ s.home.needCopy then s.toPeer (.copyReq s.hepoch)
      else if s.role = hrSTANDBY ∧ s.home.com.lseq < lseq then
        s.toPeer (.ask s.hepoch (s.home.com.lseq + 1))
      else s
    match digest with
    | some d =>
      if eccOk then .next (s.setHome { s.home with digWait := some d }).digestCheck else .next s
    | none => .next s

/-- The other home's whole ledger (R284, R296): a standby takes it and acknowledges; an acting home that
reconciles takes it as one step. -/
def execLedgerCopyRx (hepoch : Nat) (l : Ledger) (s : State) : Outcome State Fault Refusal :=
  let s := s.seeEpoch hepoch
  if s.role = hrSTANDBY ∧ hepoch = s.hepoch then
    let s := s.setHome { s.home with com := l, work := l, needCopy := false, pend := [] }
    .next ((s.set pBEADS BEADS.HOME_STAT_FROZEN 0).toPeer (.replAck hepoch l.lseq))
  else if s.role = hrACTING ∧ s.home.recon then
    let n := max l.lseq s.home.work.lseq + 1
    let l' := { l with lseq := n }
    let s := s.setHome { s.home with recon := false, work := l', pend := [(n, l', [.thawed, .done])], sent := [] }
    .next (if s.solo then s.homeCommit n else s.toPeer (.copy s.hepoch l'))
  else .next s

/-- The peer has been silent for 30 ms (R284). -/
def execPeerSilent (s : State) : Outcome State Fault Refusal :=
  if !s.isHome then .next s
  else
    let s := s.set pBEADS BEADS.HOME_STAT_PEER_OK 0
    if s.role = hrNONE then .next s
    else if !s.majority then .next s.homeLost
    else if s.role = hrACTING then
      let s := s.set pBEADS BEADS.HOME_STAT_SOLO 1
      .next (s.homeCommit s.home.work.lseq)
    else if s.home.needCopy then .next s
    else .next (s.takeover true)

/-! ## Registers with rules of their own (R286, R299) -/

/-- Writes of BEADS registers; `none`: the plain rule. -/
def State.beadsRegWrite (s : State) (w : Writer) (off : Nat) (v : Word) : Option (State × Code) :=
  if off = BEADS.HOME_CMD then some (s.homeCmdWrite w (v.toNat % 16))
  else if off = BEADS.HOME_CFG then
    if s.lstate ≠ lsNONE ∨ s.role = hrACTING then some (refuse s pBEADS (blk 0) .writeRefused) else none
  else if BEADS.ROD_W 0 ≤ off ∧ off ≤ BEADS.ROD_W 23 then
    some ((s.setReg pBEADS off v.toNat).placeRun, .ok)
  else none

/-- A BEADS commit that R299 refuses. -/
def State.beadsDenied (s : State) : List Nat :=
  let above (off : Nat) : Bool :=
    let w := (s.stagedWord pBEADS off).toNat
    decide (32767 < w % 65536) || decide (32767 < w / 65536)
  holds [((List.range 24).any (fun r => above (BEADS.ROD_PLIM r) || above (BEADS.ROD_QLIM r)), blk 0)]

/-- The value of a BEADS register that is computed: FINE, the capacities, the ledger. -/
def State.beadsReg (s : State) (off : Nat) : Option Nat :=
  let l := s.home.com
  let e := l.entry (s.reg pBEADS BEADS.LEDGER_SEL % 4096)
  let z (x : Int) : Option Nat := some (enc 32 x)
  let h (x : Int) : Option Nat := some (enc 64 x / 2 ^ 32)
  let ent (f : LedgerEntry → Nat) : Option Nat := some ((e.map f).getD 0)
  if off = BEADS.DEV_STAT then
    some (s.reg pBEADS off / 32 * 32 + s.reg pBEADS off % 16 + 16 * b2n s.fineLock)
  else if off = BEADS.CAP_P_POS then some (s.beadCap false false)
  else if off = BEADS.CAP_P_NEG then some (s.beadCap false true)
  else if off = BEADS.CAP_Q_POS then some (s.beadCap true false)
  else if off = BEADS.CAP_Q_NEG then some (s.beadCap true true)
  else if 0x304 ≤ off ∧ off ≤ 0x374 ∧ s.role = hrNONE then some 0
  else if off = BEADS.POOL_P then z l.pool.p
  else if off = BEADS.POOL_Q then z l.pool.q
  else if off = BEADS.RET_PEND_P then z l.retPend.p
  else if off = BEADS.RET_PEND_Q then z l.retPend.q
  else if off = BEADS.MINTED_P_LO then z l.minted.p
  else if off = BEADS.MINTED_P_HI then h l.minted.p
  else if off = BEADS.MINTED_Q_LO then z l.minted.q
  else if off = BEADS.MINTED_Q_HI then h l.minted.q
  else if off = BEADS.RETIRED_P_LO then z l.retired.p
  else if off = BEADS.RETIRED_P_HI then h l.retired.p
  else if off = BEADS.RETIRED_Q_LO then z l.retired.q
  else if off = BEADS.RETIRED_Q_HI then h l.retired.q
  else if off = BEADS.LSEQ_LO then some (l.lseq % 2 ^ 32)
  else if off = BEADS.LSEQ_HI then some (l.lseq / 2 ^ 32 % 2 ^ 32)
  else if off = BEADS.LEASES then some (l.leases.length % 8192)
  else if off = BEADS.LEDGER_E0 then
    ent (fun e => 2 ^ 31 + 2 ^ 28 * b2n (decide (e.exp ≤ s.beam.t / 256)) + e.boot % 65536)
  else if off = BEADS.LEDGER_P then ent (fun e => enc 32 e.lease.p)
  else if off = BEADS.LEDGER_Q then ent (fun e => enc 32 e.lease.q)
  else if off = BEADS.LEDGER_EXP_LO then ent (fun e => e.exp % 2 ^ 32)
  else if off = BEADS.LEDGER_EXP_HI then ent (fun e => e.exp / 2 ^ 32 % 2 ^ 32)
  else if off = BEADS.LEDGER_RSEQ then ent (fun e => e.rseq % 2 ^ 32)
  else none

end Sys2Proof.Machine
end

