-- ==== Sys2Proof/Machine/MbusCore.lean ====
section
/-! DEFINITION. The CAN FD controllers (spec/14, R320 to R340): states, queues, the transmit FIFO and
slot, error counters, frames of the module protocol, the message ring. -/

namespace Sys2Proof.Machine

open Host (Outcome)

/-! ## Frames -/

/-- Data lengths of DLC 9 to 15 in FD frames (R321). -/
def dlcLen (fdf : Bool) (dlc : Nat) : Nat :=
  if dlc ≤ 8 then dlc else if fdf then [12, 16, 20, 24, 32, 48, 64].getD (dlc - 9) 64 else 8

/-- The least DLC that holds a number of bytes in an FD frame. -/
def dlcOf (n : Nat) : Nat := ((List.range 16).find? (fun d => decide (n ≤ dlcLen true d))).getD 15

/-- The identifier of a module-protocol frame from the device (R337). -/
def mbId (cls addr opc fseq : Nat) (first last : Bool) : Nat :=
  cls * 2 ^ 24 + addr * 2 ^ 16 + b2n first * 2 ^ 14 + b2n last * 2 ^ 13 + fseq * 2 ^ 8 + opc

/-- A frame that carries bytes, padded to its DLC. -/
def fdFrame (id : Nat) (brs : Bool) (d : List Nat) : CanFrame :=
  let dlc := dlcOf d.length
  { ide := true, fdf := true, brs := brs, id := id, dlc := dlc
    data := d ++ List.replicate (dlcLen true dlc - d.length) 0 }

/-- The frames of a message (R339): LEN and payload, every frame but the last full. -/
def mbFrames (cls addr opc : Nat) (brs : Bool) (payload : List Nat) : List CanFrame :=
  let m := leBytes 2 payload.length ++ payload
  let k := (m.length + 63) / 64
  (List.range k).map (fun i =>
    fdFrame (mbId cls addr opc i (decide (i = 0)) (decide (i + 1 = k))) brs ((m.drop (64 * i)).take 64))

/-- The FIFO takes frames of the engine that wait for space. -/
def MbX.refill (x : MbX) : MbX :=
  let k := 32 - x.fifo.length
  { x with fifo := x.fifo ++ x.wait.take k, wait := x.wait.drop k }

/-- The engine pushes frames: never refused, they wait for space. -/
def State.mpePush (s : State) (n : Nat) (l : List CanFrame) : State :=
  (s.setMb n ({ s.mb n with wait := (s.mb n).wait ++ l }).refill).offerNew n

/-- The engine sends a message. -/
def State.mpeSend (s : State) (n cls addr opc : Nat) (payload : List Nat) : State :=
  let f := s.free
  f.2.mpePush n (mbFrames cls addr opc (f.1 % 2 == 1) payload)

/-- The routine sample plan (R349), to an address or broadcast. -/
def State.routinePlan (s : State) (n addr : Nat) : State :=
  let p := pMBUS n
  s.mpeSend n 4 addr 1 (min (s.get p MBUS.PLAN_CFG_REP_PHASE) 49 :: leBytes 2 (s.get p MBUS.PLAN_CFG_SLOT_US))

/-- Bytes drawn from the entropy source. -/
def State.entropy : Nat → State → List Nat × State
  | 0, s => ([], s)
  | n + 1, s =>
    let f := s.free
    let r := State.entropy n f.2
    (leBytes 4 f.1 ++ r.1, r.2)

/-- A challenge to an address (R353), with a new nonce; `tries` sent before it. -/
def State.challenge (s : State) (n a : Nat) (life : Bool) (tries : Nat) : State :=
  let e := s.entropy 4
  let s := e.2
  let x := s.mb n
  let s := s.setMb n { x with
    chals := x.chals.filter (fun c => !(c.addr == a && c.life == life)) ++ [⟨a, life, e.1, tries + 1⟩] }
  s.mpeSend n (if life then 7 else 6) a 1 e.1

/-- The mapped addresses of a segment. -/
def State.mapped (s : State) (n : Nat) : List Nat :=
  (List.range 24).filter (fun a => s.flag (pMBUS n) (MBUS.MAP_EN a))

/-- Challenge every mapped address. -/
def State.challengeAll (s : State) (n : Nat) (life : Bool) : State :=
  (s.mapped n).foldl (fun s a => s.challenge n a life 0) s

/-- The controller enters ACTIVE; on a return (R331) the engine sends its sequence, on a first entry the
routine plan (R349). -/
def State.mbActive (s : State) (n : Nat) (back : Bool) : State :=
  let s := s.setMbSt n mbACTIVE
  let s := if s.mpeOn n then
      if back then
        let s := (s.setMb n { s.mb n with slotRef := true }).mpeSend n 2 0xFF 2 []
        (s.routinePlan n 0xFF).challengeAll n false
      else s.routinePlan n 0xFF
    else s
  s.offerNew n

/-! ## Detection (R323) -/

/-- Load a candidate of the table, the lowest enabled from `i` on; a pass ends past the last. -/
def State.nextCand (s : State) (n i : Nat) : State :=
  let p := pMBUS n
  let mask := s.reg p MBUS.RATE_CFG % 256
  let up := (List.range 8).find? (fun c => decide (i ≤ c) && mask.testBit c)
  let s := s.setMb n { s.mb n with good := [] }
  match up with
  | some c => (s.setMb n { s.mb n with cand := c }).set p ⟨MBUS.RATE_STAT, 18, 16⟩ c
  | none =>
    let passes := min (s.reg p MBUS.RATE_STAT % 65536 + 1) 65535
    let s := s.set p ⟨MBUS.RATE_STAT, 15, 0⟩ passes
    let cyc := s.get p MBUS.RATE_CFG_RD_CYCLES
    let s := if (if cyc = 0 then 16 else cyc) ≤ passes then s.err p (blk 5) else s
    let c := ((List.range 8).find? (fun c => mask.testBit c)).getD 0
    (s.setMb n { s.mb n with cand := c }).set p ⟨MBUS.RATE_STAT, 18, 16⟩ c

/-- The controller leaves OFF (R323, R330): a new count of beam steps, of frames seen and of alarms. -/
def State.mbusStart (s : State) (n : Nat) : State :=
  let p := pMBUS n
  if s.mbSt n ≠ mbOFF then s
  else
    let s := s.setMb n { s.mb n with
      steps0 := s.beam.steps, tec := 0, rec_ := 0
      mods := (s.mb n).mods.map (fun e => (e.1, { e.2 with aseqs := [] })) }
    let s := (List.range 24).foldl (fun s a => s.set p (MBUS.MOD_STAT_SEEN a) 0) s
    if s.flag p MBUS.CTL_AUTO_RATE then
      let s := ((s.set p MBUS.RATE_STAT_LOCKED 0).set p ⟨MBUS.RATE_STAT, 15, 0⟩ 0).set p MBUS.STAT_RATE_LOCKED 0
      (s.setMbSt n mbDETECT).nextCand n 0
    else s.mbActive n false

/-- An error-free frame in detection: three in a row lock the candidate, one of them with BRS where
another enabled candidate has the same nominal timing. -/
def State.detectGood (s : State) (n : Nat) (brs : Bool) : State :=
  let p := pMBUS n
  let x := s.mb n
  let good := (brs :: x.good).take 3
  let s := s.setMb n { x with good := good }
  let mask := s.reg p MBUS.RATE_CFG % 256
  let twin := (List.range 8).any (fun c => decide (c ≠ x.cand) && mask.testBit c &&
    decide (s.word p (MBUS.RATE_CAND_N c) = s.word p (MBUS.RATE_CAND_N x.cand)))
  if good.length = 3 ∧ (!twin ∨ good.any id) then
    let s := s.setWord p MBUS.NBT (s.word p (MBUS.RATE_CAND_N x.cand))
    let s := s.setWord p MBUS.DBT (s.word p (MBUS.RATE_CAND_D x.cand))
    let s := ((s.set p MBUS.RATE_STAT_LOCKED 1).set p MBUS.STAT_RATE_LOCKED 1).ev p (blk 4)
    s.mbActive n false
  else s

/-! ## Errors (R329) -/

/-- A transmit error counter above 255: bus-off, from ACTIVE only (R10, R330). -/
def State.busOffCheck (s : State) (n : Nat) : State :=
  let p := pMBUS n
  if 255 < (s.mb n).tec ∧ s.mbSt n = mbACTIVE then
    let s := s.setMb n { s.mb n with offer := none, boOk := false, boSeq := false }
    (((s.setMbSt n mbBUSOFF).err p (blk 3)).incF p MBUS.ERRCNT_BUSOFF).showEcr n
  else s.showEcr n

/-- Count a bus error. -/
def State.busError (s : State) (n : Nat) : State := s.incF (pMBUS n) ⟨MBUS.ERRCNT, 31, 16⟩

/-! ## The message ring (R342) -/

/-- A ring record: KIND, sender, class, operation, FLAGS, time, body padded to 16 bytes. -/
def ringRec (seg kind addr cls opc flags t : Nat) (body : List Nat) : List Nat :=
  let n := (16 + body.length + 15) / 16 * 16
  leBytes 2 n ++ [kind, seg, addr, cls, opc, flags] ++ leBytes 8 t ++ body ++
    List.replicate (n - 16 - body.length) 0

/-- Write a record to the ring of a controller, or drop it. -/
def State.msgRing (s : State) (n kind addr cls opc flags t : Nat) (body : List Nat) : State :=
  let p := pMBUS n
  let base := s.reg p MBUS.MSG_BASE_LO / 65536 * 65536 + s.reg p MBUS.MSG_BASE_HI % 256 * 2 ^ 32
  let size := s.reg p MBUS.MSG_SIZE % 65536 * 65536
  match s.ringPut base size (s.reg p MBUS.MSG_WR) (s.reg p MBUS.MSG_RD)
      (ringRec n kind addr cls opc flags t body) (fun g => (ringRec n 2 0 0 0 0 0 []).set 0 (g % 256) |>.set 1 (g / 256)) with
  | some r => (r.1.setReg p MBUS.MSG_WR r.2).ev p (blk 8)
  | none => if size = 0 then s else (s.incF p MBUS.MSG_CNT_RING_DROP).err p (blk 10)

/-- A message to the ring with result flags. -/
def State.msgToRing (s : State) (n : Nat) (m : MbMsg) (flags : Nat) : State :=
  s.msgRing n 0 m.addr m.cls m.opc flags m.t m.data

/-- The W1 word of a window (R326). -/
def rxW1 (r : RxFrame) : Nat :=
  2 ^ 31 * b2n r.f.brs + 2 ^ 30 * b2n r.f.esi + r.filt * 2 ^ 24 + r.f.dlc

/-- A frame the engine does not accept: a RAW record. -/
def State.rawRing (s : State) (n : Nat) (r : RxFrame) : State :=
  let id := r.f.id
  s.msgRing n 1 (bitsOf id 23 16) (bitsOf id 28 24) (bitsOf id 7 0) 0 r.t
    (leBytes 4 (2 ^ 30 * b2n r.f.ide + 2 ^ 29 * b2n r.f.fdf + id) ++ leBytes 4 (rxW1 r) ++ r.f.data)

/-! ## Messages from frames (R338 to R340) -/

/-- The record of an address. -/
def State.modX (s : State) (n a : Nat) : ModX := tabGet (fun _ => {}) (s.mb n).mods a

/-- Store the record of an address. -/
def State.setModX (s : State) (n a : Nat) (x : ModX) : State :=
  s.setMb n { s.mb n with mods := tabPut (fun _ => {}) (s.mb n).mods a x }

/-- A message is dropped (R340). -/
def State.msgDrop (s : State) (n : Nat) (long : Bool) : State :=
  (s.incF (pMBUS n) (if long then MBUS.MSG_CNT_LONG else MBUS.MSG_CNT_SHORT)).err (pMBUS n) (blk 9)

/-- Whether the engine accepts an identifier from a module (R337, R338). -/
def mbAccepts (f : CanFrame) : Bool :=
  let cls := bitsOf f.id 28 24
  let opc := bitsOf f.id 7 0
  f.ide && decide (bitsOf f.id 23 16 < 24) && f.id.testBit 15 &&
    (match cls with
    | 0 => decide (opc = 1)
    | 2 => decide (opc = 1)
    | 3 => decide (opc = 1)
    | 4 => decide (opc = 2)
    | 5 => decide (opc = 0)
    | 6 => decide (opc = 1)
    | 7 => decide (opc = 1)
    | 8 => decide (opc = 1)
    | _ => false)

/-- Remove an open message. -/
def State.closeMsg (s : State) (n a c : Nat) : State :=
  s.setMb n { s.mb n with open_ := (s.mb n).open_.filter (fun m => !(m.addr == a && m.cls == c)) }

/-- The message takes the frame's bytes; with LAST it is complete, or short. -/
def State.msgTake (s : State) (n : Nat) (m : OpenMsg) (last : Bool) : State :=
  let s := s.closeMsg n m.addr m.cls
  let x := s.mb n
  if !last then s.setMb n { x with open_ := x.open_ ++ [m] }
  else if m.skip then s
  else if m.data.length < m.len then s.msgDrop n false
  else s.setMb n { x with done := x.done ++ [⟨m.addr, m.cls, m.opc, m.t, m.data.take m.len⟩] }

/-- The first frame of an address since enable (R349, R353). -/
def State.firstSeen (s : State) (n a : Nat) : State :=
  let p := pMBUS n
  if s.flag p (MBUS.MOD_STAT_SEEN a) then s
  else
    let s := (s.set p (MBUS.MOD_STAT_SEEN a) 1).routinePlan n a
    s.challenge n a false 0

/-- A frame that the engine takes from a queue. -/
def State.mpeFrame (s : State) (n : Nat) (r : RxFrame) : State :=
  let id := r.f.id
  if !mbAccepts r.f then s.rawRing n r
  else
    let a := bitsOf id 23 16
    let c := bitsOf id 28 24
    let opc := bitsOf id 7 0
    let fseq := bitsOf id 12 8
    let last := id.testBit 13
    let s := s.firstSeen n a
    let open_ := (s.mb n).open_.find? (fun m => m.addr == a && m.cls == c)
    if id.testBit 14 then
      let s := match open_ with
        | some m => if m.skip then s.closeMsg n a c else (s.closeMsg n a c).msgDrop n false
        | none => s
      let len := ofLE (r.f.data.take 2)
      if fseq ≠ 0 then s.msgDrop n false
      else
        let m : OpenMsg := ⟨a, c, opc, len, 1, r.t, r.f.data.drop 2, decide (1024 < len)⟩
        (if 1024 < len then s.msgDrop n true else s).msgTake n m last
    else
      match open_ with
      | none => s.msgDrop n false
      | some m =>
        if m.skip then s.msgTake n m last
        else if fseq ≠ m.next ∨ opc ≠ m.opc then (s.closeMsg n a c).msgDrop n false
        else s.msgTake n { m with next := m.next + 1, data := m.data ++ r.f.data } last

/-! ## Reception (R324 to R326) -/

/-- The lowest enabled filter that a frame matches. -/
def State.filterOf (s : State) (n : Nat) (f : CanFrame) : Option Nat :=
  let p := pMBUS n
  (List.range 64).find? (fun i =>
    let m := s.reg p (MBUS.FLT_MATCH i)
    m.testBit 31 && (m.testBit 30 == f.ide) &&
      decide ((f.id ^^^ m) &&& s.reg p (MBUS.FLT_MASK i) &&& 0x1FFFFFFF = 0))

/-- Whether the controller receives. -/
def State.mbRx (s : State) (n : Nat) : Bool := decide (s.mbSt n = mbACTIVE) || decide (s.mbSt n = mbSLEEPING)

/-- A correctly received frame: the receive error counter, the filters, the queues or the engine. -/
def State.canRx (s : State) (n : Nat) (f : CanFrame) (sof : Nat) : State :=
  let p := pMBUS n
  let x := s.mb n
  let (rec', s) := if 127 < x.rec_ then
      let f := s.free
      (119 + f.1 % 9, f.2)
    else (x.rec_ - 1, s)
  let s := (s.setMb n { s.mb n with rec_ := rec' }).showEcr n
  if f.rtr then s.incSat p MBUS.RX_NOMATCH
  else
    match s.filterOf n f with
    | none => s.incSat p MBUS.RX_NOMATCH
    | some i =>
      let r : RxFrame := ⟨f, sof, i⟩
      if (s.reg p (MBUS.FLT_MASK i)).testBit 31 then s
      else if s.mpeOn n then s.mpeFrame n r
      else
        let x := s.mb n
        let q1 := (s.reg p (MBUS.FLT_MATCH i)).testBit 29
        if q1 then
          if 256 ≤ x.q1.length then (s.incF p MBUS.RX_OVF_RXQ1).err p (blk 4)
          else (s.setMb n { x with q1 := x.q1 ++ [r] }).mbusLevels n
        else
          if 64 ≤ x.q0.length then (s.incF p MBUS.RX_OVF_RXQ0).err p (blk 4)
          else (s.setMb n { x with q0 := x.q0 ++ [r] }).mbusLevels n

/-! ## Sleep, rest and wake (R330 to R333) -/

/-- Enter ASLEEP: the watch settings are copied to the AON island. -/
def State.mbAsleep (s : State) (n : Nat) : State :=
  let p := pMBUS n
  let w := if s.flag p MBUS.WAKE_CFG_WATCH_EN then
      some (s.flag p MBUS.WAKE_CFG_WMODE, s.reg p MBUS.WAKE_ID % 2 ^ 29, s.reg p MBUS.WAKE_MASK % 2 ^ 29)
    else none
  let s := s.setReg pAON (AON.WAKE_CFG n) (s.reg p MBUS.WAKE_CFG)
  (s.setMb n { s.mb n with offer := none, slotRef := false, watch := w }).setMbSt n mbASLEEP

/-- The field die rests its domain, or the device enters REST or DEEP. -/
def State.mbusRest (s : State) (n : Nat) : State :=
  let st := s.mbSt n
  if st = mbOFF ∨ st = mbASLEEP then s
  else if s.flag (pMBUS n) MBUS.WAKE_CFG_WATCH_EN then s.mbAsleep n
  else (s.setMb n { s.mb n with offer := none, slotRef := false }).setMbSt n mbOFF

/-- The controller of a sleeping segment becomes ACTIVE. -/
def State.mbusAwake (s : State) (n : Nat) (watch : Bool) : State :=
  let p := pMBUS n
  let s := (s.setMb n { s.mb n with wakePend := false, watch := none }).set p MBUS.CTL_SLEEP 0
  let s := if watch then s.incF p ⟨MBUS.WAKE_CNT, 31, 16⟩ else s
  (s.ev p (blk 3)).mbActive n true

/-- The field die of a controller is active again: a wake that waited completes, and an enabled
controller that its rest had put OFF starts. -/
def State.mbusDieActive (s : State) (n : Nat) : State :=
  if (s.mb n).wakePend then s.mbusAwake n true
  else if s.en (pMBUS n) ∧ !s.flag (pMBUS n) PG.STAT_SHUTTING then s.mbusStart n
  else s

end Sys2Proof.Machine
end

