-- ==== Sys2Proof/Machine/F32.lean ====
section
/-! DEFINITION. Binary32 arithmetic as R231 restricts it (spec/09, R230 to R232): round to nearest,
ties to even; subnormal inputs and results are zeros; every NaN result is 0x7FC0_0000.  A number is
held as the natural number of its word; a result comes with the sticky flags it sets. -/

namespace Sys2Proof.Machine

/-- Sticky flags as bits of FLAGS (R205). -/
abbrev flSAT : Nat := 2 ^ 8
abbrev flDZ : Nat := 2 ^ 9
abbrev flNV : Nat := 2 ^ 10
abbrev flOF : Nat := 2 ^ 11
abbrev flUF : Nat := 2 ^ 12

/-- A binary32 result and the sticky flags it sets. -/
structure FRes where
  v : Nat
  fl : Nat := 0
deriving DecidableEq, Repr

/-- The canonical NaN, zero, one and infinity. -/
abbrev fNaN : Nat := 0x7FC00000
abbrev fOne : Nat := 0x3F800000
abbrev fInf : Nat := 0x7F800000

/-- Fields of a word. -/
def fNeg (x : Nat) : Bool := x.testBit 31
def fExp (x : Nat) : Nat := x / 2 ^ 23 % 256
def fFrac (x : Nat) : Nat := x % 2 ^ 23

/-- Classes of a word. -/
def isNaN (x : Nat) : Bool := decide (fExp x = 255 ∧ fFrac x ≠ 0)
def isSNaN (x : Nat) : Bool := isNaN x && !x.testBit 22
def isInf (x : Nat) : Bool := decide (fExp x = 255 ∧ fFrac x = 0)
def isZero (x : Nat) : Bool := decide (fExp x = 0)

/-- The sign bit of a word. -/
def signBit (b : Bool) : Nat := if b then 2 ^ 31 else 0

/-- A zero, or an infinity, of a sign. -/
def fZero (neg : Bool) : Nat := signBit neg
def fInfS (neg : Bool) : Nat := signBit neg + fInf

/-- A finite number times 2¹⁴⁹, subnormals taken as zero. -/
def fScaled (x : Nat) : Int :=
  if isZero x then 0
  else
    let m : Int := ((2 ^ 23 + fFrac x) * 2 ^ (fExp x - 1) : Nat)
    if fNeg x then -m else m

/-- A subnormal becomes a zero of its sign (R231). -/
def flush (x : Nat) : Nat := if isZero x then fZero (fNeg x) else x

/-- NV for a signalling NaN among inputs. -/
def nvOf (l : List Nat) : Nat := if l.any isSNaN then flNV else 0

/-- A positive quotient rounded to 24 bits, ties to even, with its exponent: the significand is below
2²⁴ and at least 2²³. -/
def roundSig (num den : Nat) : Nat × Int :=
  let e0 : Int := (Nat.log2 num : Int) - Nat.log2 den
  let ge (e : Int) : Bool :=
    if 0 ≤ e then decide (den * 2 ^ e.toNat ≤ num) else decide (den ≤ num * 2 ^ (-e).toNat)
  let e := if ge e0 then e0 else e0 - 1
  let sh : Int := 23 - e
  let n := if 0 ≤ sh then num * 2 ^ sh.toNat else num
  let d := if 0 ≤ sh then den else den * 2 ^ (-sh).toNat
  let q := n / d
  let r := n % d
  let q := if d < 2 * r ∨ (2 * r = d ∧ q % 2 = 1) then q + 1 else q
  if q = 2 ^ 24 then (2 ^ 23, e + 1) else (q, e)

/-- A quotient of natural numbers with a sign, rounded (R231): zero stays zero of the sign; overflow
gives an infinity, a magnitude below 2⁻¹²⁶ a zero with UF. -/
def fRound (neg : Bool) (num den : Nat) : FRes :=
  if num = 0 then ⟨fZero neg, 0⟩
  else
    let (q, e) := roundSig num den
    if e < -126 then ⟨fZero neg, flUF⟩
    else if 127 < e then ⟨fInfS neg, flOF⟩
    else ⟨signBit neg + (e + 127).toNat * 2 ^ 23 + (q - 2 ^ 23), 0⟩

/-- A signed number over a scale, rounded; an exact zero is +0. -/
def fOfInt (x : Int) (den : Nat) : FRes := fRound (decide (x < 0)) x.natAbs den

/-- FADD. -/
def fAdd (a b : Nat) : FRes :=
  if isNaN a ∨ isNaN b then ⟨fNaN, nvOf [a, b]⟩
  else if isInf a then (if isInf b ∧ fNeg a ≠ fNeg b then ⟨fNaN, flNV⟩ else ⟨a, 0⟩)
  else if isInf b then ⟨b, 0⟩
  else if isZero a ∧ isZero b then ⟨fZero (fNeg a && fNeg b), 0⟩
  else fOfInt (fScaled a + fScaled b) (2 ^ 149)

/-- A word with its sign inverted. -/
def fFlip (x : Nat) : Nat := x ^^^ 2 ^ 31

/-- FSUB. -/
def fSub (a b : Nat) : FRes := if isNaN b then ⟨fNaN, nvOf [a, b]⟩ else fAdd a (fFlip b)

/-- FMUL. -/
def fMul (a b : Nat) : FRes :=
  let neg := fNeg a != fNeg b
  if isNaN a ∨ isNaN b then ⟨fNaN, nvOf [a, b]⟩
  else if (isInf a ∧ isZero b) ∨ (isZero a ∧ isInf b) then ⟨fNaN, flNV⟩
  else if isInf a ∨ isInf b then ⟨fInfS neg, 0⟩
  else fRound neg ((fScaled a).natAbs * (fScaled b).natAbs) (2 ^ 298)

/-- FDIV. -/
def fDiv (a b : Nat) : FRes :=
  let neg := fNeg a != fNeg b
  if isNaN a ∨ isNaN b then ⟨fNaN, nvOf [a, b]⟩
  else if (isZero a ∧ isZero b) ∨ (isInf a ∧ isInf b) then ⟨fNaN, flNV⟩
  else if isInf a then ⟨fInfS neg, 0⟩
  else if isInf b then ⟨fZero neg, 0⟩
  else if isZero b then ⟨fInfS neg, flDZ⟩
  else fRound neg (fScaled a).natAbs (fScaled b).natAbs

/-- FMA: c + a × b, rounded once. -/
def fFma (a b c : Nat) : FRes :=
  let neg := fNeg a != fNeg b
  if (isInf a ∧ isZero b) ∨ (isZero a ∧ isInf b) then ⟨fNaN, flNV⟩
  else if isNaN a ∨ isNaN b ∨ isNaN c then ⟨fNaN, nvOf [a, b, c]⟩
  else if isInf a ∨ isInf b then
    (if isInf c ∧ fNeg c ≠ neg then ⟨fNaN, flNV⟩ else ⟨fInfS neg, 0⟩)
  else if isInf c then ⟨c, 0⟩
  else
    let prod := fScaled a * fScaled b
    if prod = 0 ∧ isZero c then ⟨fZero (neg && fNeg c), 0⟩
    else fOfInt (prod + fScaled c * 2 ^ 149) (2 ^ 298)

/-- FMS: c − a × b, rounded once. -/
def fFms (a b c : Nat) : FRes :=
  if isNaN a then ⟨fNaN, nvOf [a, b, c] ||| (fFma a b c).fl⟩ else fFma (fFlip a) b c

/-- Largest root whose square does not exceed `n`, by bits from `i` − 1 down. -/
def isqrtBits (n : Nat) : Nat → Nat → Nat
  | 0, r => r
  | i + 1, r => isqrtBits n i (if (r + 2 ^ i) * (r + 2 ^ i) ≤ n then r + 2 ^ i else r)

/-- FSQRT.  The root of m × 2⁻¹⁴⁹ is √(m × 2⁵³) × 2⁻¹⁰¹ at even scale; a sticky bit keeps the rounding
exact. -/
def fSqrt (a : Nat) : FRes :=
  if isNaN a then ⟨fNaN, nvOf [a]⟩
  else if isZero a then ⟨flush a, 0⟩
  else if fNeg a then ⟨fNaN, flNV⟩
  else if isInf a then ⟨a, 0⟩
  else
    let n := (fScaled a).natAbs * 2 ^ 151
    let r := isqrtBits n 230 0
    fRound false (2 * r + (if r * r = n then 0 else 1)) (2 ^ 151)

/-- Whether a < b, and whether they are equal, for words that are not NaN. -/
def fKey (x : Nat) : Int :=
  if isInf x then (if fNeg x then -(2 ^ 300) else 2 ^ 300) else fScaled x
def fLt (a b : Nat) : Bool := !isNaN a && !isNaN b && decide (fKey a < fKey b)
def fEq (a b : Nat) : Bool := !isNaN a && !isNaN b && decide (fKey a = fKey b)

/-- FMIN and FMAX: minimumNumber and maximumNumber, −0 below +0. -/
def fMinMax (mx : Bool) (a b : Nat) : FRes :=
  let fl := nvOf [a, b]
  if isNaN a ∧ isNaN b then ⟨fNaN, fl⟩
  else if isNaN a then ⟨flush b, fl⟩
  else if isNaN b then ⟨flush a, fl⟩
  else
    let below := fLt a b || (fEq a b && fNeg a)
    ⟨flush (if below != mx then a else b), fl⟩

/-- FABS and FNEG. -/
def fAbs (a : Nat) : FRes := if isNaN a then ⟨fNaN, nvOf [a]⟩ else ⟨flush a % 2 ^ 31, 0⟩
def fNegF (a : Nat) : FRes := if isNaN a then ⟨fNaN, nvOf [a]⟩ else ⟨fFlip (flush a), 0⟩

/-- clamp(x, lo, hi) of spec/09: hi if x > hi, else lo if x < lo, else x; a NaN limit is ignored. -/
def fClamp (x lo hi : Nat) : Nat := if fLt hi x then hi else if fLt x lo then lo else x

/-- FLIM. -/
def fLim (a b c : Nat) : FRes :=
  let fl := nvOf [a, b, c]
  if isNaN a then ⟨if isNaN b then fNaN else flush b, fl ||| flNV ||| flSAT⟩
  else
    let d := flush (fClamp a b c)
    ⟨d, fl ||| (if d = flush a then 0 else flSAT)⟩

/-- A signed quotient rounded to the nearest integer, ties to even. -/
def rneDiv (x : Int) (d : Nat) : Int :=
  let n := x.natAbs
  let q := n / d
  let r := n % d
  let q := if d < 2 * r ∨ (2 * r = d ∧ q % 2 = 1) then q + 1 else q
  if x < 0 then -(q : Int) else (q : Int)

/-- A number times 2ᵏ rounded to a signed 32-bit integer that saturates (FTOI with k = 0, FTOQ with
k = 31). -/
def fToFix (k : Nat) (a : Nat) : FRes :=
  if isNaN a then ⟨0, flNV⟩
  else if isInf a then ⟨if fNeg a then 2 ^ 31 else 2 ^ 31 - 1, flSAT⟩
  else
    let y := rneDiv (fScaled a * 2 ^ k) (2 ^ 149)
    let z := clampI (-2147483648) 2147483647 y
    ⟨enc 32 z, if z = y then 0 else flSAT⟩

/-- A signed 32-bit integer over 2ᵏ rounded to binary32 (ITOF, QTOF). -/
def fOfFix (k : Nat) (a : Nat) : Nat := (fOfInt (sxt 32 a) (2 ^ k)).v

/-- A binary32 number of an integer, of a quotient of integers, and the plain operations without
flags, for the blocks that compute in binary32. -/
def fOfZ (x : Int) : Nat := (fOfInt x 1).v
def fOfQ (x : Int) (d : Nat) : Nat := (fOfInt x d).v
def fadd (a b : Nat) : Nat := (fAdd a b).v
def fsub (a b : Nat) : Nat := (fSub a b).v
def fmul (a b : Nat) : Nat := (fMul a b).v
def fdiv (a b : Nat) : Nat := (fDiv a b).v
def fsqrt (a : Nat) : Nat := (fSqrt a).v
def fneg (a : Nat) : Nat := (fNegF a).v
def fabs (a : Nat) : Nat := (fAbs a).v
def fmax (a b : Nat) : Nat := (fMinMax true a b).v
def fmin (a b : Nat) : Nat := (fMinMax false a b).v
def fle (a b : Nat) : Bool := fLt a b || fEq a b

/-- A binary32 number rounded to a signed integer of `n` bits that saturates; NaN gives 0. -/
def fToInt (n : Nat) (a : Nat) : Int :=
  if isNaN a then 0
  else if isInf a then (if fNeg a then -(2 ^ (n - 1) : Nat) else (2 ^ (n - 1) : Nat) - 1)
  else clampI (-(2 ^ (n - 1) : Nat)) ((2 ^ (n - 1) : Nat) - 1) (rneDiv (fScaled a) (2 ^ 149))

/-! ## Sine and cosine -/

/-- The sine series of an angle x of a quarter turn (scaled by 2⁹⁶): Σ (−1)ⁿ x²ⁿ⁺¹ / (2n+1)!. -/
def powSeries (x2 : Int) : Nat → Nat → Int → Int → Int
  | 0, _, _, acc => acc
  | m + 1, n, t, acc => powSeries x2 m (n + 2) (-(t * x2 / 2 ^ 96 / ((n + 1) * (n + 2) : Nat))) (acc + t)

/-- The angle `r` / 2³² of a turn, r below 2³⁰, in radians scaled by 2⁹⁶; the constant is π/2 scaled by 2¹²⁸. -/
def quarterAngle (r : Nat) : Int := (r * 534514292032483373929840186580935391650 / 2 ^ 62 : Nat)

/-- The floors of sin and cos of that angle, scaled by 2³². -/
def sinQuarter (r : Nat) : Int :=
  let x := quarterAngle r
  powSeries (x * x / 2 ^ 96) 18 1 x 0 / 2 ^ 64
def cosQuarter (r : Nat) : Int :=
  let x := quarterAngle r
  powSeries (x * x / 2 ^ 96) 18 0 (2 ^ 96) 0 / 2 ^ 64

/-- The floors of sin θ and cos θ scaled by 2³², which are exact at the quarter turns and nowhere else. -/
def sinCos (a : Nat) : Int × Int :=
  let r := a % 2 ^ 30
  let neg (v : Int) : Int := if r = 0 then -v else -v - 1
  match a / 2 ^ 30 with
  | 0 => (sinQuarter r, cosQuarter r)
  | 1 => (cosQuarter r, neg (sinQuarter r))
  | 2 => (neg (sinQuarter r), neg (cosQuarter r))
  | _ => (neg (cosQuarter r), sinQuarter r)

/-- sin θ and cos θ scaled by 2³¹, to the nearest. -/
def sinCosNear (a : Nat) : Int × Int := (((sinCos a).1 + 1) / 2, ((sinCos a).2 + 1) / 2)

end Sys2Proof.Machine
end

