-- ==== Sys2Proof/Machine/ReckCore.lean ====
section
/-! DEFINITION. The reckoners (spec/08, R199 to R217): memories, registers, columns, triggers, traps
and fatal faults, starting and stopping. -/

namespace Sys2Proof.Machine

open Host (Outcome)

/-! ## Records and registers -/

/-- The record of a reckoner. -/
def State.reckX (s : State) (k : Nat) : ReckX := tabGet (fun _ => {}) s.recks k

/-- Store the record of a reckoner, and show its column counts and PEND. -/
def State.setReckX (s : State) (k : Nat) (x : ReckX) : State :=
  { s with recks := tabPut (fun _ => {}) s.recks k x }

/-- Reckoner states (RECK.STATUS.STATE). -/
abbrev rkRUN : Nat := 0
abbrev rkSTOPPED : Nat := 1
abbrev rkSLEEP : Nat := 2
abbrev rkTRAP : Nat := 3
abbrev rkSPILL : Nat := 4
abbrev rkFATAL : Nat := 5
abbrev rkMIGR : Nat := 6

/-- State of a reckoner. -/
def State.rkSt (s : State) (k : Nat) : Nat := s.get (pRECK k) RECK.STATUS_STATE

/-- Set the state of a reckoner. -/
def State.setRkSt (s : State) (k st : Nat) : State := s.set (pRECK k) RECK.STATUS_STATE st

/-- Show CCP, OCC and CDEP in STATUS. -/
def State.showCols (s : State) (k : Nat) : State :=
  let x := s.reckX k
  ((s.set (pRECK k) RECK.STATUS_CCP x.ccp).set (pRECK k) RECK.STATUS_OCC x.occ).set (pRECK k)
    RECK.STATUS_CDEP x.cdep

/-- The VSM kernel of a reckoner. -/
def State.vsm (s : State) (k : Nat) : VsmX := tabGet (fun _ => {}) s.vsms k

/-- Store the VSM kernel of a reckoner. -/
def State.setVsm (s : State) (k : Nat) (x : VsmX) : State :=
  { s with vsms := tabPut (fun _ => {}) s.vsms k x }

/-- A word of a reckoner's memories that nothing has written: 0, or where the VSM kernel was copied
(R255), the image's word. -/
def reckDef (v : List (Nat × VsmX)) (key : Nat) : Word :=
  let i := key % 32768
  if (tabGet (fun _ => ({} : VsmX)) v (key / 32768)).rom then
    if i < 2048 then Config.kernelWord i
    else if 16384 ≤ i ∧ i < 16896 then Config.kernelWord (i - 14336)
    else 0
  else 0

/-- A word of a reckoner's memories: words 0 to 16,383 are IRAM, 16,384 to 32,767 DRAM (R199). -/
def State.reckWord (s : State) (k i : Nat) : Nat := (tabGet (reckDef s.vsms) s.reckMem (k * 32768 + i)).toNat

/-- Write a word of a reckoner's memories; a write into the kernel's IRAM ends the kernel. -/
def State.setReckWord (s : State) (k i v : Nat) : State :=
  let s := { s with reckMem := tabPut (reckDef s.vsms) s.reckMem (k * 32768 + i) (wordOf v) }
  if i < 2048 ∧ (s.vsm k).whole then s.setVsm k { s.vsm k with whole := false, runs := false } else s

/-- The VSM kernel's image is copied into a reckoner's memories (R255). -/
def State.loadKernel (s : State) (k : Nat) : State :=
  let inImg (key : Nat) : Bool := decide (key / 32768 = k) &&
    (decide (key % 32768 < 2048) || (decide (16384 ≤ key % 32768) && decide (key % 32768 < 16896)))
  { s with
    reckMem := tabKeep (fun key => !inImg key) s.reckMem
    vsms := tabPut (fun _ => {}) s.vsms k { rom := true, whole := true } }

/-- A register by field value (R204): w0 to w15 of the current column, g0 to g7, zero. -/
def ReckX.reg (x : ReckX) (f : Nat) : Nat :=
  if f < 16 then x.w.getD (16 * x.ccp + f) 0 else if f < 24 then x.g.getD (f - 16) 0 else 0

/-- Write a register by field value; a write of the constant zero is discarded (R204). -/
def ReckX.setR (x : ReckX) (f v : Nat) : ReckX :=
  if f < 16 then { x with w := x.w.set (16 * x.ccp + f) (v % 2 ^ 32) }
  else if f < 24 then { x with g := x.g.set (f - 16) (v % 2 ^ 32) }
  else x

/-! ## Traps and fatal faults -/

/-- Trap causes (R211). -/
abbrev tcILLEGAL : Nat := 1
abbrev tcDIVZERO : Nat := 2
abbrev tcALIGN : Nat := 3
abbrev tcACCESS : Nat := 4
abbrev tcBOARD : Nat := 5
abbrev tcRETEMPTY : Nat := 6
abbrev tcCOMMON : Nat := 7
abbrev tcSOFT : Nat := 8

/-- A fatal fault (R212): SGR falls on the rods of DRIVES in the same step, in split mode too (R412), and the
reckoner's leases end (R50).  A shutdown that ran is over. -/
def State.reckFatal (s : State) (k code : Nat) : State :=
  let p := pRECK k
  let x := s.reckX k
  let s := s.setReckX k { x with spill := none }
  let s := s.setReg p RECK.FATAL (2 ^ 31 + x.ccp * 2 ^ 16 + code)
  let s := s.setReg p RECK.FATAL_PC x.pc
  let s := (s.setRkSt k rkFATAL).set p PG.CTL_EN 0
  let s := (s.set p PG.STAT_ENABLED 0).ev p (blk 0)
  let s := if s.flag p PG.STAT_SHUTTING then (s.set p PG.STAT_SHUTTING 0).ev p 4 else s
  (s.ownerLost (.reck (Fin.ofNat 32 k))).demandNow 9 0 k (s.reg p RECK.DRIVES % 2 ^ 24)

/-- The fatal fault LBIST of a reckoner whose core has failed its test (R563). -/
def State.lbistFatal (s : State) (k : Nat) : State :=
  ({ s with bist := { s.bist with fatals := s.bist.fatals.filter (fun j => j != k) } }).reckFatal k 6

/-- A trap that returns to `tpc` (R211). -/
def State.reckTrap (s : State) (k cause tpc : Nat) : State :=
  let x := s.reckX k
  if x.ccp = 7 then s.reckFatal k 1
  else if x.tvec = 0 then s.reckFatal k 4
  else
    let s := s.setReckX k { x with
      tpc := tpc, tcause := cause, tcol := x.ccp, ccp := 7, pc := x.tvec / 4 * 4 }
    let s := s.setReg (pRECK k) RECK.TRAPINFO (tpc / 4 % 65536 * 2 ^ 16 + cause)
    ((s.setRkSt k rkTRAP).showCols k).ev (pRECK k) (blk 2)

/-- A trap of the instruction at the program counter. -/
def State.trapHere (s : State) (k cause : Nat) : State := s.reckTrap k cause (s.reckX k).pc

/-- Whether a reckoner executes instructions. -/
def State.reckRuns (s : State) (k : Nat) : Bool := decide (s.rkSt k = rkRUN ∨ s.rkSt k = rkTRAP)

/-! ## Fetch and fields -/

/-- Fields of an instruction word (R218). -/
def iOP (w : Nat) : Nat := bitsOf w 31 26
def iD (w : Nat) : Nat := bitsOf w 25 21
def iA (w : Nat) : Nat := bitsOf w 20 16
def iB (w : Nat) : Nat := bitsOf w 15 11
def iC (w : Nat) : Nat := bitsOf w 10 6
def iFN (w : Nat) : Nat := bitsOf w 5 0
def iIMM (w : Nat) : Nat := bitsOf w 15 0

/-- IMM sign-extended, as a 32-bit number. -/
def iSext (w : Nat) : Nat := enc 32 (sxt 16 (iIMM w))

/-- The word at the program counter. -/
def State.fetch (s : State) (k : Nat) : Nat := s.reckWord k ((s.reckX k).pc / 4)

/-- Register fields are legal up to 24 (R204). -/
def legalRegs (l : List Nat) : Bool := l.all (fun f => decide (f ≤ 24))

/-- One instruction (R218 to R222): a reckoner that executes fetches the word at its program counter; a
fetch outside IRAM takes the ACCESS trap; a word that is not this instruction leaves the state as it
is, since the command does not name what the program does; an illegal field takes ILLEGAL; else the body
runs on the word. -/
def State.instr (s : State) (k op : Nat) (fn : Option Nat) (legal : Nat → Bool)
    (body : State → Nat → State) : State :=
  if !s.reckRuns k then s
  else if s.bist.fatals.contains k then s.lbistFatal k
  else if 65536 ≤ (s.reckX k).pc then s.trapHere k tcACCESS
  else
    let w := s.fetch k
    if iOP w ≠ op ∨ (fn.isSome ∧ fn ≠ some (iFN w)) then s
    else if legal w then body s w
    else s.trapHere k tcILLEGAL

/-- Field checks of the formats (R220). -/
def legalR (w : Nat) : Bool := legalRegs [iD w, iA w, iB w, iC w]
def legalI (w : Nat) : Bool := legalRegs [iD w, iA w]

/-- What a computing instruction does (R222): results by register field, and FLAGS; or a trap. -/
inductive IRes where
  | done (l : List (Nat × Nat)) (fl : Nat)
  | trap (cause : Nat)
deriving DecidableEq, Repr

/-- Finish a computing instruction: results and flags are written, the program counter advances. -/
def State.finishI (s : State) (k : Nat) (r : IRes) : State :=
  match r with
  | .trap c => s.trapHere k c
  | .done l fl =>
    let x := s.reckX k
    let x := l.foldl (fun x e => x.setR e.1 e.2) x
    s.setReckX k { x with flags := fl, pc := x.pc + 4 }

/-- A computing instruction of format R: the body takes the record and the word. -/
def State.rInstr (s : State) (k op fn : Nat) (f : ReckX → Nat → IRes) : State :=
  s.instr k op (some fn) legalR (fun s w => s.finishI k (f (s.reckX k) w))

/-- A computing instruction of format I. -/
def State.iInstr (s : State) (k op : Nat) (f : ReckX → Nat → IRes) : State :=
  s.instr k op none legalI (fun s w => s.finishI k (f (s.reckX k) w))

/-! ## Flags -/

/-- FLAGS with Z and N of a 32-bit result (R224). -/
def flZN (fl v : Nat) : Nat := fl / 4 * 4 + b2n (decide (v = 0)) + 2 * b2n (v.testBit 31)

/-- FLAGS with Z, N, C and V. -/
def flZNCV (fl v : Nat) (c o : Bool) : Nat :=
  fl / 16 * 16 + b2n (decide (v = 0)) + 2 * b2n (v.testBit 31) + 4 * b2n c + 8 * b2n o

/-- The condition codes (R223). -/
def condHolds (fl c : Nat) : Bool :=
  let z := fl.testBit 0
  let n := fl.testBit 1
  let cy := fl.testBit 2
  let v := fl.testBit 3
  match c with
  | 0 => z
  | 1 => !z
  | 2 => cy
  | 3 => !cy
  | 4 => n
  | 5 => !n
  | 6 => v
  | 7 => !v
  | 8 => cy && !z
  | 9 => !cy || z
  | 10 => n == v
  | 11 => n != v
  | 12 => !z && (n == v)
  | 13 => z || (n != v)
  | 14 => true
  | _ => false

/-! ## Starting and stopping (R212 to R214) -/

/-- The start actions of R213.  Where the VSM kernel runs (R255), it goes to its WAITF at once. -/
def State.reckStart (s : State) (k : Nat) : State :=
  let x := s.reckX k
  let s := s.setReckX k { x with
    pc := s.get (pRECK k) ⟨RECK.ENTRY, 15, 2⟩ * 4, ccp := 0, occ := 1, cdep := 0, flags := 0
    ctrl := 0, tvec := 0, pend := [0, 0, 0, 0], spill := none, woke := false }
  let s := ((s.setRkSt k rkRUN).showCols k).set (pRECK k) PG.STAT_ENABLED 1
  let v := s.vsm k
  if v.whole ∧ s.get (pRECK k) ⟨RECK.ENTRY, 15, 2⟩ = 0 then
    let s := s.setVsm k { rom := true, whole := true, runs := true }
    (s.setReckX k { s.reckX k with mask := 1 }).setRkSt k rkSLEEP
  else s.setVsm k { v with runs := false }

/-- Whether the rotation of the self-test is on (R216). -/
def State.rotation (s : State) : Bool := s.flag pBIST BIST.LB_CFG_EN

/-- EN written 1 (R212, R213, R216, R559): the refusal, or the state; during a test in place the start waits
(R561). -/
def State.reckEnable (s : State) (k : Nat) : State × Code :=
  let p := pRECK k
  if s.rkSt k = rkFATAL then refuse s p (blk 2) .writeRefused
  else if (k = 31 ∧ (s.rotation ∨ s.flag p RECK.STATUS_SPARE)) ∨ s.bist.cores ≤ k then refuse s p (blk 4) .writeRefused
  else
    let s := s.set p RECK.STATUS_RESTARTED 0
    if s.rkSt k = rkSTOPPED then
      if s.bist.slot.any (fun x => x.inPlace && x.logical == some k) then
        ({ s with bist := { s.bist with starts := s.bist.starts ++ [k] } }, .ok)
      else (s.reckStart k, .ok)
    else (s, .ok)

/-- EN written 0 (R213): a reckoner that runs or sleeps begins to stop; one that migrates does so once it sleeps
again, since no row leads from MIGRATING to STOPPED (R10). -/
def State.reckDisable (s : State) (k : Nat) : State :=
  let p := pRECK k
  let s := s.set p RECK.STATUS_RESTARTED 0
  if s.rkSt k = rkSTOPPED ∨ s.rkSt k = rkFATAL then s
  else (s.set p PG.STAT_SHUTTING 1).set p PG.STAT_ENABLED 0

/-- The reckoner reaches STOPPED. -/
def State.reckStopped (s : State) (k : Nat) : State :=
  let p := pRECK k
  let s := s.setReckX k { s.reckX k with spill := none }
  let s := s.setRkSt k rkSTOPPED
  if s.flag p PG.STAT_SHUTTING then (s.set p PG.STAT_SHUTTING 0).ev p 4 else s

/-- On return from REST (R214): a reckoner with EN = 1 restarts. -/
def State.reckUnrest (s : State) (k : Nat) : State :=
  if s.en (pRECK k) ∧ s.rkSt k = rkSTOPPED then
    (s.reckStart k).set (pRECK k) RECK.STATUS_RESTARTED 1
  else s

/-- CTL.CLR_FATAL (R212). -/
def State.reckClrFatal (s : State) (k : Nat) : State :=
  if s.rkSt k = rkFATAL then (s.setReg (pRECK k) RECK.FATAL 0).setRkSt k rkSTOPPED else s

def execClrFatal (w : Writer) (k : Fin 32) (s : State) : Outcome State Fault Refusal :=
  .next (finish w (pRECK k) (s.actionWrite w (pRECK k) (fun s => (s.reckClrFatal k, .ok))))

/-! ## Spill and fill (R206 to R208) -/

/-- The oldest live column. -/
def ReckX.oldest (x : ReckX) : Nat := (x.ccp + 8 - x.occ) % 7

/-- DRAM word of word `i` of carry record `r`. -/
def State.carryAt (s : State) (k r i : Nat) : Nat :=
  16384 + (s.get (pRECK k) RECK.CARRY_CFG_CARRY_BASE + 72 * r) / 4 + i

/-- Enter a column: the CALL completes (R206). -/
def State.callEnter (s : State) (k target : Nat) : State :=
  let x := s.reckX k
  let c := (x.ccp + 1) % 7
  (s.setReckX k { x with
    ccp := c, occ := x.occ + 1, link := x.link.set c (x.pc + 4), pc := target, spill := none }).showCols k

/-- CALL to a target (R206): it enters a column, or the spill engine starts, or the carry area is
full; in c7 it is illegal. -/
def State.reckCall (s : State) (k target : Nat) : State :=
  let x := s.reckX k
  if x.ccp = 7 then s.trapHere k tcILLEGAL
  else if x.occ = 7 then
    if x.cdep = s.get (pRECK k) RECK.CARRY_CFG_CARRY_CNT then s.reckFatal k 2
    else (s.setReckX k { x with spill := some (.call target) }).setRkSt k rkSPILL
  else s.callEnter k target

/-- RET (R207, R211). -/
def State.reckRet (s : State) (k : Nat) : State :=
  let x := s.reckX k
  if x.ccp = 7 then
    ((s.setReckX k { x with ccp := x.tcol, pc := x.tpc / 4 * 4 }).setRkSt k rkRUN).showCols k
  else if 1 < x.occ then
    (s.setReckX k { x with
      occ := x.occ - 1, ccp := (x.ccp + 6) % 7, pc := x.link.getD x.ccp 0 }).showCols k
  else if 0 < x.cdep then (s.setReckX k { x with spill := some .ret }).setRkSt k rkSPILL
  else s.trapHere k tcRETEMPTY

/-- The spill engine writes the oldest column to record CDEP (R208). -/
def State.spillWrite (s : State) (k : Nat) : State :=
  let x := s.reckX k
  let c := x.oldest
  let s := (List.range 16).foldl (fun s i =>
    s.setReckWord k (s.carryAt k x.cdep i) (x.w.getD (16 * c + i) 0)) s
  let s := s.setReckWord k (s.carryAt k x.cdep 16) (x.link.getD c 0)
  let s := s.setReckWord k (s.carryAt k x.cdep 17) (0xCA55 * 2 ^ 16 + x.cdep * 2 ^ 8 + c)
  s.setReckX k { x with cdep := x.cdep + 1, occ := x.occ - 1 }

/-- The fill of the caller's column from record CDEP − 1 (R207, R208). -/
def State.fillRead (s : State) (k : Nat) : State :=
  let x := s.reckX k
  let r := x.cdep - 1
  let c := (x.ccp + 6) % 7
  let tag := s.reckWord k (s.carryAt k r 17)
  if bitsOf tag 31 16 ≠ 0xCA55 ∨ bitsOf tag 15 8 ≠ r ∨ bitsOf tag 2 0 ≠ c then s.reckFatal k 3
  else
    let w := (List.range 16).foldl (fun w i => w.set (16 * c + i) (s.reckWord k (s.carryAt k r i))) x.w
    let l := x.link.set c (s.reckWord k (s.carryAt k r 16))
    ((s.setReckX k { x with
      w := w, link := l, ccp := c, cdep := r, pc := x.link.getD x.ccp 0, spill := none }).setRkSt k
        rkRUN).showCols k

/-- A spill or fill completes (R208). -/
def State.spillDone (s : State) (k : Nat) : State :=
  match (s.reckX k).spill with
  | some (.call t) => ((s.spillWrite k).callEnter k t).setRkSt k rkRUN
  | some .ret => s.fillRead k
  | none => s

/-- Count a corrected error of IRAM (`d` false) or DRAM (R201). -/
def State.eccCorrected (s : State) (k : Nat) (d : Bool) : State :=
  s.incF (pRECK k) (if d then RECK.ECC_CNT_DRAM else RECK.ECC_CNT_IRAM)

/-- The outcome of an ECC check of DRAM in a program's access (R201). -/
def State.dramEcc (s : State) (k : Nat) (e : Ecc) (f : State → State) : State :=
  match e with
  | .clean => f s
  | .corrected => f (s.eccCorrected k true)
  | .double => s.reckFatal k 5

def execSpillComplete (k : Fin 32) (ecc : Ecc) (s : State) : Outcome State Fault Refusal :=
  if (s.reckX k).spill.isSome ∧ s.rkSt k = rkSPILL then .next (s.dramEcc k ecc (fun s => s.spillDone k))
  else .next s

/-- Whether a row of R213 leads from the reckoner's state to STOPPED. -/
def State.reckStops (s : State) (k : Nat) : Bool :=
  s.reckRuns k || decide (s.rkSt k = rkSLEEP ∨ s.rkSt k = rkSPILL)

/-- The shutdown of a reckoner ends (R213): a spill or fill completes first, and where that is a fatal fault the
reckoner stays FATAL. -/
def State.reckStop (s : State) (k : Nat) : State :=
  let s := s.spillDone k
  if s.rkSt k = rkFATAL then s else s.reckStopped k

/-- Outstanding stores and any spill or fill are complete: a stopping reckoner reaches STOPPED
(R213). -/
def execReckStopped (k : Fin 32) (s : State) : Outcome State Fault Refusal :=
  .next (if s.flag (pRECK k) PG.STAT_SHUTTING && s.reckStops k then s.reckStop k else s)

/-- At entry to REST (R214): a reckoner that is not STOPPED or FATAL stops as under EN = 0 and keeps EN = 1. -/
def State.reckRest (s : State) (k : Nat) : State :=
  if s.rkSt k = rkSTOPPED ∨ s.rkSt k = rkFATAL then s
  else ((s.set (pRECK k) PG.STAT_SHUTTING 1).set (pRECK k) PG.STAT_ENABLED 0).reckStop k

/-! ## MEM_DATA and the block registers with rules of their own -/

/-- An access to MEM_DATA (R203): a write or a read, and the advance of MEM_ADDR. -/
def State.memData (s : State) (k : Nat) (wr : Option Word) (e : Ecc) : State × Code × Word :=
  let p := pRECK k
  let a := s.reg p RECK.MEM_ADDR
  let dram := a.testBit 31
  let i := bitsOf a 15 2 + (if dram then 16384 else 0)
  let adv (s : State) : State := s.set p ⟨RECK.MEM_ADDR, 15, 2⟩ (bitsOf a 15 2 + 1)
  match wr with
  | some v =>
    if !dram && s.flag p PG.STAT_ENABLED then
      let r := refuse s p (blk 1) .writeRefused
      (r.1, r.2, 0)
    else (adv (s.setReckWord k i v.toNat), .ok, 0)
  | none =>
    match e with
    | .double => (adv (s.err p (blk 5)), .ok, 0)
    | .corrected => (adv (s.eccCorrected k dram), .ok, wordOf (s.reckWord k i))
    | .clean => (adv s, .ok, wordOf (s.reckWord k i))

def execMemDataAccess (w : Writer) (k : Fin 32) (wr : Option Word) (ecc : Ecc) (s : State) :
    Outcome State Fault Refusal :=
  let p := pRECK k
  match wr with
  | some _ =>
    .next (finish w p (s.actionWrite w p (fun s => ((s.memData k wr ecc).1, (s.memData k wr ecc).2.1))))
  | none =>
    if s.pageRests p then
      .next (if w.isRemote then s.answer w .domainResting else (s.restAccess p).send (.resp w .ok 1 [0]))
    else
      let r := s.memData k none ecc
      .next (r.1.send (.resp w .ok 1 [r.2.2]))

/-! ## Triggers (R209, R210) -/

/-- An event of source `i` of a reckoner (R209, R216). -/
def State.reckEvent (s : State) (k i : Nat) : State :=
  let p := pRECK k
  let st := s.rkSt k
  if st = rkSTOPPED ∨ st = rkFATAL then s
  else
    let x := s.reckX k
    let s := s.setReckX k { x with
      pend := x.pend.set i (min (x.pend.getD i 0 + 1) 255), pendT := x.pendT.set i s.beam.t }
    if st = rkRUN ∨ st = rkTRAP ∨ st = rkSPILL then ((s.incSat p RECK.OVR_CNT).err p (blk 0)).ev p (blk 1)
    else s

/-- A write of SWTRIG (R209). -/
def State.swtrig (s : State) (k v : Nat) : State :=
  (bitsSet 4 v).foldl (fun s i =>
    if s.get (pRECK k) (RECK.TRIG_SRC i) = 5 then s.reckEvent k i else s) s

def execReckSwtrig (w : Writer) (k : Fin 32) (v : Word) (s : State) : Outcome State Fault Refusal :=
  .next (finish w (pRECK k) (s.actionWrite w (pRECK k) (fun s => (s.swtrig k v.toNat, .ok))))

/-- Whether an event of a hardware source can occur: no frame while the rod's generator is stopped, no mid frame
with MID_EN = 0, and only a line routed to the reckoner gives events. -/
def State.trigLive (s : State) (k i : Nat) : Bool :=
  let p := pRECK k
  let sel := s.get p (RECK.TRIG_SEL i)
  match s.get p (RECK.TRIG_SRC i) with
  | 1 => s.flag pFRAME (FRAME.CG_STAT_RUNNING (s.get pFRAME (FRAME.ROD_MAP_GEN sel)))
  | 2 => s.flag pFRAME (FRAME.CG_STAT_RUNNING (s.get pFRAME (FRAME.ROD_MAP_GEN sel))) &&
      (tabGet (fun _ => ({} : GenX)) s.gens (s.get pFRAME (FRAME.ROD_MAP_GEN sel))).mid
  | 3 => true
  | 4 => s.flag pSYS (SYS.EVR_ROUTE_EN sel) && decide (s.get pSYS (SYS.EVR_ROUTE_DST_KIND sel) = 3) &&
      decide (s.get pSYS (SYS.EVR_ROUTE_DST_SEL sel) = k)
  | _ => false

def execReckTriggerEvent (k : Fin 32) (i : Fin 4) (s : State) : Outcome State Fault Refusal :=
  .next (if s.trigLive k i then s.reckEvent k i else s)

/-- The lowest source of a mask with a pending event. -/
def ReckX.pendIn (x : ReckX) (m : Nat) : Option Nat :=
  (List.range 4).find? (fun i => m.testBit i && decide (0 < x.pend.getD i 0))

/-- WAITF takes source `i` and the program goes on (R210). -/
def State.waitTake (s : State) (k i : Nat) : State :=
  let p := pRECK k
  let x := s.reckX k
  let t := x.pendT.getD i 0
  let s := s.setReckX k { x with
    tinfo := i * 256 + x.pend.getD i 0, tns := t / 256 % 1000000000
    tsec := t / 256000000000 % 2 ^ 32, pend := x.pend.set i 0, pc := x.pc + 4, woke := true }
  ((s.setRkSt k rkRUN).inc p RECK.WAKE_CNT).set p RECK.STATUS_LAST_SRC i

/-- The busy time at a WAITF (R210): a free number of cycles, and the largest one. -/
def State.busyEnd (s : State) (k : Nat) : State :=
  let p := pRECK k
  if (s.reckX k).woke then
    let f := s.free
    let s := f.2.setReg p RECK.BUSY_LAST f.1
    s.setReg p RECK.BUSY_MAX (max f.1 (s.reg p RECK.BUSY_MAX))
  else s

/-- A commit that R217 refuses. -/
def State.reckDenied (s : State) (k : Nat) : List Nat :=
  let p := pRECK k
  let f := s.stagedGet p
  let badTrig (i : Nat) : Bool :=
    let sel := f (RECK.TRIG_SEL i)
    match f (RECK.TRIG_SRC i) with
    | 1 => decide (23 < sel)
    | 2 => decide (23 < sel)
    | 3 => decide (3 < sel / 16) || decide (11 < sel % 16)
    | _ => false
  let base := f RECK.CARRY_CFG_CARRY_BASE
  holds [([0, 1, 2, 3].any badTrig || decide (base % 8 ≠ 0) ||
    decide (0x10000 < base + 72 * f RECK.CARRY_CFG_CARRY_CNT), blk 3)]

/-- Writes of RECK registers with rules of their own; `none`: the plain rule. -/
def State.reckRegWrite (s : State) (k off : Nat) (v : Word) : Option (State × Code) :=
  let p := pRECK k
  let stopped := decide (s.rkSt k = rkSTOPPED)
  if off = RECK.CTL then some (if v.getLsbD 0 then s.reckClrFatal k else s, .ok)
  else if off = RECK.ENTRY then
    some (if stopped then (s.setReg p off (v.toNat % 65536 / 4 * 4), .ok) else refuse s p (blk 1) .writeRefused)
  else if off = RECK.SWTRIG then some (s.swtrig k v.toNat, .ok)
  else if off = RECK.MEM_DATA then
    let r := s.memData k (some v) .clean
    some (r.1, r.2.1)
  else if RECK.GLOBAL 0 ≤ off ∧ off ≤ RECK.GLOBAL 7 then
    if stopped || decide (s.rkSt k = rkFATAL) then
      let x := s.reckX k
      some (s.setReckX k { x with g := x.g.set ((off - RECK.GLOBAL 0) / 4) v.toNat }, .ok)
    else some (refuse s p (blk 1) .writeRefused)
  else none

/-- Reads of RECK registers with rules of their own. -/
def State.reckRegRead (s : State) (k off : Nat) : Option (State × Nat) :=
  let x := s.reckX k
  let still := decide (s.rkSt k = rkSTOPPED ∨ s.rkSt k = rkFATAL)
  if off = RECK.PC then some (s, if still then x.pc else 0)
  else if off = RECK.PEND then some (s, ofLE x.pend)
  else if off = RECK.MEM_DATA then
    let r := s.memData k none .clean
    some (r.1, r.2.2.toNat)
  else if RECK.GLOBAL 0 ≤ off ∧ off ≤ RECK.GLOBAL 7 then
    some (s, if still then x.g.getD ((off - RECK.GLOBAL 0) / 4) 0 else 0)
  else none

end Sys2Proof.Machine
end

