-- ==== Sys2Proof/Machine/ReckInt.lean ====
section
/-! DEFINITION. The computing instructions of the reckoners (spec/09, R225 to R233): integer group,
saturating and Q31 group, floating-point group, immediates. -/

namespace Sys2Proof.Machine

open Host (Outcome)

/-! ## Shared operations -/

/-- Sources a, b, c and the old d of a word in format R. -/
def ReckX.a (x : ReckX) (w : Nat) : Nat := x.reg (iA w)
def ReckX.b (x : ReckX) (w : Nat) : Nat := x.reg (iB w)
def ReckX.c (x : ReckX) (w : Nat) : Nat := x.reg (iC w)
def ReckX.d (x : ReckX) (w : Nat) : Nat := x.reg (iD w)

/-- A result with Z and N. -/
def resZN (x : ReckX) (w v : Nat) : IRes := .done [(iD w, v)] (flZN x.flags v)

/-- A sum a + b + carry: the 32-bit result and FLAGS (R225). -/
def addRes (fl a b cin : Nat) : Nat × Nat :=
  let t := a + b + cin
  let v := t % 2 ^ 32
  let o := sxt 32 a + sxt 32 b + cin
  (v, flZNCV fl v (decide (2 ^ 32 ≤ t)) (decide (o ≠ sxt 32 v)))

/-- A difference a − b − (1 − carry): a + NOT b + carry (R225). -/
def subRes (fl a b cin : Nat) : Nat × Nat := addRes fl a (2 ^ 32 - 1 - b) cin

/-- A result with the FLAGS that go with it. -/
def resPair (w : Nat) (r : Nat × Nat) : IRes := .done [(iD w, r.1)] r.2

/-- FLAGS of a comparison. -/
def resCmp (r : Nat × Nat) : IRes := .done [] r.2

/-- Shifts (R226). -/
def shlV (a n : Nat) : Nat := if 32 ≤ n then 0 else a * 2 ^ n % 2 ^ 32
def shrV (a n : Nat) : Nat := if 32 ≤ n then 0 else a / 2 ^ n
def shraV (a n : Nat) : Nat := enc 32 (sxt 32 a / (2 ^ min n 32 : Nat))

/-- A number limited to Q31, with SAT when the limit changes it (R227). -/
def sat32 (x : Int) : Nat × Nat :=
  let y := clampI (-2147483648) 2147483647 x
  (enc 32 y, if y = x then 0 else flSAT)

/-- A result with Z, N and sticky flags. -/
def resSt (x : ReckX) (w : Nat) (r : Nat × Nat) : IRes :=
  .done [(iD w, r.1)] (flZN x.flags r.1 ||| r.2)

/-- The limit function of spec/09: hi if x > hi, otherwise lo if x < lo, otherwise x. -/
def limV (lo hi x : Int) : Int := if hi < x then hi else if x < lo then lo else x

/-- A division (R229, R230): by zero it gives the edge result with DZ, or the DIV_ZERO trap. -/
def divRes (x : ReckX) (w : Nat) (edge : Nat) (r : Nat × Nat) : IRes :=
  if x.b w = 0 then
    if x.ctrl.testBit 0 then .trap tcDIVZERO else resSt x w (edge, flDZ)
  else resSt x w r

/-- The result of a signed division by zero (R230). -/
def divZero (a : Nat) : Nat := if a = 0 then 0 else if a < 2 ^ 31 then 2 ^ 31 - 1 else 2 ^ 31

/-- The sum d × 2³¹ ± a × b rounded once, halves up (R228). -/
def q31 (x : Int) : Nat × Nat := sat32 ((x + 2 ^ 30) / 2 ^ 31)

/-- A binary32 result with its sticky flags (R231). -/
def resF (x : ReckX) (w : Nat) (r : FRes) : IRes := .done [(iD w, r.v)] (x.flags ||| r.fl)

/-- FCMP's flags: less, equal, greater, unordered (R232). -/
def fcmpFlags (fl a b : Nat) : Nat :=
  let base := fl / 16 * 16 ||| nvOf [a, b]
  if isNaN a ∨ isNaN b then base + 8
  else if fLt a b then base + 2
  else if fEq a b then base + 5
  else base + 4

/-- A shift amount in IMM: IMM[15:8] must be 0 (R226). -/
def legalSh (w : Nat) : Bool := legalI w && decide (iIMM w < 256)

/-- A shift by an immediate. -/
def State.shInstr (s : State) (k op : Nat) (f : Nat → Nat → Nat) : State :=
  s.instr k op none legalSh (fun s w =>
    let x := s.reckX k
    s.finishI k (resZN x w (f (x.a w) (iIMM w))))

/-! ## Integer group (R225) -/

def execAdd (k : Fin 32) (s : State) : Outcome State Fault Refusal :=
  .next (s.rInstr k 0x01 0x00 (fun x w => resPair w (addRes x.flags (x.a w) (x.b w) 0)))

def execAdc (k : Fin 32) (s : State) : Outcome State Fault Refusal :=
  .next (s.rInstr k 0x01 0x01 (fun x w => resPair w (addRes x.flags (x.a w) (x.b w) (b2n (x.flags.testBit 2)))))

def execSub (k : Fin 32) (s : State) : Outcome State Fault Refusal :=
  .next (s.rInstr k 0x01 0x02 (fun x w => resPair w (subRes x.flags (x.a w) (x.b w) 1)))

def execSbc (k : Fin 32) (s : State) : Outcome State Fault Refusal :=
  .next (s.rInstr k 0x01 0x03 (fun x w => resPair w (subRes x.flags (x.a w) (x.b w) (b2n (x.flags.testBit 2)))))

def execNeg (k : Fin 32) (s : State) : Outcome State Fault Refusal :=
  .next (s.rInstr k 0x01 0x04 (fun x w => resPair w (subRes x.flags 0 (x.a w) 1)))

def execCmp (k : Fin 32) (s : State) : Outcome State Fault Refusal :=
  .next (s.rInstr k 0x01 0x05 (fun x w => resCmp (subRes x.flags (x.a w) (x.b w) 1)))

def execAnd (k : Fin 32) (s : State) : Outcome State Fault Refusal :=
  .next (s.rInstr k 0x01 0x06 (fun x w => resZN x w (x.a w &&& x.b w)))

def execOr (k : Fin 32) (s : State) : Outcome State Fault Refusal :=
  .next (s.rInstr k 0x01 0x07 (fun x w => resZN x w (x.a w ||| x.b w)))

def execXor (k : Fin 32) (s : State) : Outcome State Fault Refusal :=
  .next (s.rInstr k 0x01 0x08 (fun x w => resZN x w (x.a w ^^^ x.b w)))

def execShl (k : Fin 32) (s : State) : Outcome State Fault Refusal :=
  .next (s.rInstr k 0x01 0x09 (fun x w => resZN x w (shlV (x.a w) (x.b w % 256))))

def execShr (k : Fin 32) (s : State) : Outcome State Fault Refusal :=
  .next (s.rInstr k 0x01 0x0A (fun x w => resZN x w (shrV (x.a w) (x.b w % 256))))

def execShra (k : Fin 32) (s : State) : Outcome State Fault Refusal :=
  .next (s.rInstr k 0x01 0x0B (fun x w => resZN x w (shraV (x.a w) (x.b w % 256))))

def execMul (k : Fin 32) (s : State) : Outcome State Fault Refusal :=
  .next (s.rInstr k 0x01 0x0C (fun x w => resZN x w (x.a w * x.b w % 2 ^ 32)))

def execMulh (k : Fin 32) (s : State) : Outcome State Fault Refusal :=
  .next (s.rInstr k 0x01 0x0D (fun x w => resZN x w (enc 32 (sxt 32 (x.a w) * sxt 32 (x.b w) / 2 ^ 32))))

def execMulhu (k : Fin 32) (s : State) : Outcome State Fault Refusal :=
  .next (s.rInstr k 0x01 0x0E (fun x w => resZN x w (x.a w * x.b w / 2 ^ 32)))

def execDiv (k : Fin 32) (s : State) : Outcome State Fault Refusal :=
  .next (s.rInstr k 0x01 0x0F (fun x w =>
    divRes x w (divZero (x.a w)) (sat32 ((sxt 32 (x.a w)).tdiv (sxt 32 (x.b w))))))

def execDivu (k : Fin 32) (s : State) : Outcome State Fault Refusal :=
  .next (s.rInstr k 0x01 0x10 (fun x w => divRes x w (if x.a w = 0 then 0 else 2 ^ 32 - 1) (x.a w / x.b w, 0)))

def execRem (k : Fin 32) (s : State) : Outcome State Fault Refusal :=
  .next (s.rInstr k 0x01 0x11 (fun x w =>
    divRes x w (x.a w) (enc 32 ((sxt 32 (x.a w)).tmod (sxt 32 (x.b w))), 0)))

def execRemu (k : Fin 32) (s : State) : Outcome State Fault Refusal :=
  .next (s.rInstr k 0x01 0x12 (fun x w => divRes x w (x.a w) (x.a w % x.b w, 0)))

def execMin (k : Fin 32) (s : State) : Outcome State Fault Refusal :=
  .next (s.rInstr k 0x01 0x13 (fun x w => resZN x w (if sxt 32 (x.b w) < sxt 32 (x.a w) then x.b w else x.a w)))

def execMax (k : Fin 32) (s : State) : Outcome State Fault Refusal :=
  .next (s.rInstr k 0x01 0x14 (fun x w => resZN x w (if sxt 32 (x.a w) < sxt 32 (x.b w) then x.b w else x.a w)))

def execLimit (k : Fin 32) (s : State) : Outcome State Fault Refusal :=
  .next (s.rInstr k 0x01 0x15 (fun x w =>
    let a := sxt 32 (x.a w)
    let d := limV (sxt 32 (x.b w)) (sxt 32 (x.c w)) a
    resSt x w (enc 32 d, if d = a then 0 else flSAT)))

/-- SEL: C holds COND in [10:7] and 0 in [6] (R225). -/
def execSel (k : Fin 32) (s : State) : Outcome State Fault Refusal :=
  .next (s.instr k 0x01 (some 0x16)
    (fun w => legalRegs [iD w, iA w, iB w] && decide (bitsOf w 6 6 = 0))
    (fun s w =>
      let x := s.reckX k
      s.finishI k (.done [(iD w, if condHolds x.flags (bitsOf w 10 7) then x.a w else x.b w)] x.flags)))

def execClz (k : Fin 32) (s : State) : Outcome State Fault Refusal :=
  .next (s.rInstr k 0x01 0x17 (fun x w => resZN x w (if x.a w = 0 then 32 else 31 - Nat.log2 (x.a w))))

def execExth (k : Fin 32) (s : State) : Outcome State Fault Refusal :=
  .next (s.rInstr k 0x01 0x18 (fun x w => resZN x w (enc 32 (sxt 16 (x.a w)))))

def execExthh (k : Fin 32) (s : State) : Outcome State Fault Refusal :=
  .next (s.rInstr k 0x01 0x19 (fun x w => resZN x w (enc 32 (sxt 16 (x.a w / 2 ^ 16)))))

def execPackh (k : Fin 32) (s : State) : Outcome State Fault Refusal :=
  .next (s.rInstr k 0x01 0x1A (fun x w => resZN x w (x.b w % 2 ^ 16 * 2 ^ 16 + x.a w % 2 ^ 16)))

/-! ## Saturating and Q31 group (R227) -/

def execAdds (k : Fin 32) (s : State) : Outcome State Fault Refusal :=
  .next (s.rInstr k 0x02 0x00 (fun x w => resSt x w (sat32 (sxt 32 (x.a w) + sxt 32 (x.b w)))))

def execSubs (k : Fin 32) (s : State) : Outcome State Fault Refusal :=
  .next (s.rInstr k 0x02 0x01 (fun x w => resSt x w (sat32 (sxt 32 (x.a w) - sxt 32 (x.b w)))))

def execNegs (k : Fin 32) (s : State) : Outcome State Fault Refusal :=
  .next (s.rInstr k 0x02 0x02 (fun x w => resSt x w (sat32 (-sxt 32 (x.a w)))))

def execAbs (k : Fin 32) (s : State) : Outcome State Fault Refusal :=
  .next (s.rInstr k 0x02 0x03 (fun x w =>
    let v := enc 32 ((sxt 32 (x.a w)).natAbs : Int)
    .done [(iD w, v)] (flZN (x.flags / 16 * 16 + x.flags % 8 + 8 * b2n (decide (x.a w = 2 ^ 31))) v)))

def execAbss (k : Fin 32) (s : State) : Outcome State Fault Refusal :=
  .next (s.rInstr k 0x02 0x04 (fun x w => resSt x w (sat32 ((sxt 32 (x.a w)).natAbs : Int))))

def execShls (k : Fin 32) (s : State) : Outcome State Fault Refusal :=
  .next (s.rInstr k 0x02 0x05 (fun x w => resSt x w (sat32 (sxt 32 (x.a w) * (2 ^ (x.b w % 256) : Nat)))))

def execSath (k : Fin 32) (s : State) : Outcome State Fault Refusal :=
  .next (s.rInstr k 0x02 0x06 (fun x w =>
    let a := sxt 32 (x.a w)
    let y := clampI (-32768) 32767 a
    resSt x w (enc 32 y, if y = a then 0 else flSAT)))

def execQmul (k : Fin 32) (s : State) : Outcome State Fault Refusal :=
  .next (s.rInstr k 0x02 0x07 (fun x w => resSt x w (q31 (sxt 32 (x.a w) * sxt 32 (x.b w)))))

def execQmac (k : Fin 32) (s : State) : Outcome State Fault Refusal :=
  .next (s.rInstr k 0x02 0x08 (fun x w =>
    resSt x w (q31 (sxt 32 (x.d w) * 2 ^ 31 + sxt 32 (x.a w) * sxt 32 (x.b w)))))

def execQmsu (k : Fin 32) (s : State) : Outcome State Fault Refusal :=
  .next (s.rInstr k 0x02 0x09 (fun x w =>
    resSt x w (q31 (sxt 32 (x.d w) * 2 ^ 31 - sxt 32 (x.a w) * sxt 32 (x.b w)))))

def execQdiv (k : Fin 32) (s : State) : Outcome State Fault Refusal :=
  .next (s.rInstr k 0x02 0x0A (fun x w =>
    divRes x w (divZero (x.a w)) (sat32 ((sxt 32 (x.a w) * 2 ^ 31).tdiv (sxt 32 (x.b w))))))

/-! ## Floating-point group (R232) -/

def execFadd (k : Fin 32) (s : State) : Outcome State Fault Refusal :=
  .next (s.rInstr k 0x03 0x00 (fun x w => resF x w (fAdd (x.a w) (x.b w))))

def execFsub (k : Fin 32) (s : State) : Outcome State Fault Refusal :=
  .next (s.rInstr k 0x03 0x01 (fun x w => resF x w (fSub (x.a w) (x.b w))))

def execFmul (k : Fin 32) (s : State) : Outcome State Fault Refusal :=
  .next (s.rInstr k 0x03 0x02 (fun x w => resF x w (fMul (x.a w) (x.b w))))

def execFdiv (k : Fin 32) (s : State) : Outcome State Fault Refusal :=
  .next (s.rInstr k 0x03 0x03 (fun x w => resF x w (fDiv (x.a w) (x.b w))))

def execFma (k : Fin 32) (s : State) : Outcome State Fault Refusal :=
  .next (s.rInstr k 0x03 0x04 (fun x w => resF x w (fFma (x.a w) (x.b w) (x.c w))))

def execFms (k : Fin 32) (s : State) : Outcome State Fault Refusal :=
  .next (s.rInstr k 0x03 0x05 (fun x w => resF x w (fFms (x.a w) (x.b w) (x.c w))))

def execFsqrt (k : Fin 32) (s : State) : Outcome State Fault Refusal :=
  .next (s.rInstr k 0x03 0x06 (fun x w => resF x w (fSqrt (x.a w))))

def execFmin (k : Fin 32) (s : State) : Outcome State Fault Refusal :=
  .next (s.rInstr k 0x03 0x07 (fun x w => resF x w (fMinMax false (x.a w) (x.b w))))

def execFmax (k : Fin 32) (s : State) : Outcome State Fault Refusal :=
  .next (s.rInstr k 0x03 0x08 (fun x w => resF x w (fMinMax true (x.a w) (x.b w))))

def execFabs (k : Fin 32) (s : State) : Outcome State Fault Refusal :=
  .next (s.rInstr k 0x03 0x09 (fun x w => resF x w (fAbs (x.a w))))

def execFneg (k : Fin 32) (s : State) : Outcome State Fault Refusal :=
  .next (s.rInstr k 0x03 0x0A (fun x w => resF x w (fNegF (x.a w))))

def execFcmp (k : Fin 32) (s : State) : Outcome State Fault Refusal :=
  .next (s.rInstr k 0x03 0x0B (fun x w => .done [] (fcmpFlags x.flags (x.a w) (x.b w))))

def execFlim (k : Fin 32) (s : State) : Outcome State Fault Refusal :=
  .next (s.rInstr k 0x03 0x0C (fun x w => resF x w (fLim (x.a w) (x.b w) (x.c w))))

def execFtoi (k : Fin 32) (s : State) : Outcome State Fault Refusal :=
  .next (s.rInstr k 0x03 0x0D (fun x w => resF x w (fToFix 0 (x.a w))))

def execItof (k : Fin 32) (s : State) : Outcome State Fault Refusal :=
  .next (s.rInstr k 0x03 0x0E (fun x w => resF x w ⟨fOfFix 0 (x.a w), 0⟩))

def execFtoq (k : Fin 32) (s : State) : Outcome State Fault Refusal :=
  .next (s.rInstr k 0x03 0x0F (fun x w => resF x w (fToFix 31 (x.a w))))

def execQtof (k : Fin 32) (s : State) : Outcome State Fault Refusal :=
  .next (s.rInstr k 0x03 0x10 (fun x w => resF x w ⟨fOfFix 31 (x.a w), 0⟩))

/-! ## Immediates (R233) -/

def execAddi (k : Fin 32) (s : State) : Outcome State Fault Refusal :=
  .next (s.iInstr k 0x08 (fun x w => resPair w (addRes x.flags (x.a w) (iSext w) 0)))

def execAndi (k : Fin 32) (s : State) : Outcome State Fault Refusal :=
  .next (s.iInstr k 0x09 (fun x w => resZN x w (x.a w &&& iIMM w)))

def execOri (k : Fin 32) (s : State) : Outcome State Fault Refusal :=
  .next (s.iInstr k 0x0A (fun x w => resZN x w (x.a w ||| iIMM w)))

def execXori (k : Fin 32) (s : State) : Outcome State Fault Refusal :=
  .next (s.iInstr k 0x0B (fun x w => resZN x w (x.a w ^^^ iIMM w)))

def execLui (k : Fin 32) (s : State) : Outcome State Fault Refusal :=
  .next (s.iInstr k 0x0C (fun x w => .done [(iD w, iIMM w * 2 ^ 16)] x.flags))

def execCmpi (k : Fin 32) (s : State) : Outcome State Fault Refusal :=
  .next (s.iInstr k 0x0D (fun x w => resCmp (subRes x.flags (x.a w) (iSext w) 1)))

def execShli (k : Fin 32) (s : State) : Outcome State Fault Refusal := .next (s.shInstr k 0x0E shlV)

def execShri (k : Fin 32) (s : State) : Outcome State Fault Refusal := .next (s.shInstr k 0x0F shrV)

def execShrai (k : Fin 32) (s : State) : Outcome State Fault Refusal := .next (s.shInstr k 0x10 shraV)

end Sys2Proof.Machine
end

