-- ==== Sys2Proof/Machine/ReckSys.lean ====
section
/-! DEFINITION. The control helpers, branches and the system group of the reckoners (spec/09, R235 to
R241), and the WAITF of spec/08, R210. -/

namespace Sys2Proof.Machine

open Host (Outcome)

/-! ## Control helpers (R237, R238) -/

/-- Bases of pairs and triples (R221). -/
def legalPair (f : Nat) : Bool := decide (f ≤ 14) || (decide (16 ≤ f) && decide (f ≤ 22))
def legalTriple (f : Nat) : Bool := decide (f ≤ 13) || (decide (16 ≤ f) && decide (f ≤ 21))

/-- The floor of √n. -/
def isqrt (n : Nat) : Nat := isqrtBits n (Nat.log2 n / 2 + 1) 0

/-- The floor of x × √(3n) / d for d > 0, and whether it is exact: only a zero is. -/
def mulRoot3 (x : Int) (n d : Nat) : Int × Bool :=
  let r := isqrt (3 * n * x.natAbs ^ 2 / d ^ 2)
  if x = 0 then (0, true) else if 0 < x then (r, false) else (-(r : Int) - 1, false)

/-- A Q31 output within 1 LSB of its exact value (R237), whose floor is `q`: the floor, or the next
number, or for an exact value also the one below; a free choice. -/
def within1 (q : Int) (exact : Bool) (f : Nat) : Nat × Nat :=
  sat32 (if exact then q + ((f % 3 : Nat) : Int) - 1 else q + ((f % 2 : Nat) : Int))

/-- A quotient's floor and whether it is exact. -/
def quot (x : Int) (d : Nat) : Int × Bool := (x / (d : Int), decide (x % (d : Int) = 0))

/-- A SINCOS output (R237, R238) from the floor of twice its exact value: one of the eight numbers within 4 LSB,
never −2³¹; exact at the quarter turns. -/
def sinOut (exact : Bool) (v : Int) (f : Nat) : Nat :=
  let lim : Int := 2147483647
  enc 32 (clampI (-lim) lim (if exact then v / 2 else v / 2 + ((f % 8 : Nat) : Int) - 3))

/-- Take `n` free values. -/
def State.frees : Nat → State → List Nat × State
  | 0, s => ([], s)
  | n + 1, s =>
    let f := s.free
    let r := State.frees n f.2
    (f.1 :: r.1, r.2)

/-- A helper instruction (R238): field checks, `n` outputs from the record, the word and one free value
each, at the registers from D on; SAT is set when an output saturates. -/
def State.helper (s : State) (k fn n : Nat) (legal : Nat → Bool)
    (f : ReckX → Nat → List Nat → List (Nat × Nat)) : State :=
  s.instr k 0x04 (some fn) (fun w => legalRegs [iD w, iA w, iB w, iC w] && legal w) (fun s w =>
    let fr := s.frees n
    let x := fr.2.reckX k
    let r := f x w fr.1
    fr.2.finishI k (.done (r.zipIdx.map (fun e => (iD w + e.2, e.1.1)))
      (r.foldl (fun fl e => fl ||| e.2) x.flags)))

/-- The manual does not say whether the 2³¹ − 1 of a quarter turn counts as saturated: SAT is free
there. -/
def execSincos (k : Fin 32) (s : State) : Outcome State Fault Refusal :=
  .next (s.helper k 0 3 (fun w => legalPair (iD w)) (fun x w fr =>
    let a := x.a w
    let e := decide (a % 2 ^ 30 = 0)
    let sc := sinCos a
    let sn := sinOut e sc.1 (fr.getD 0 0)
    let cs := sinOut e sc.2 (fr.getD 1 0)
    let st := if (sn = 2 ^ 31 - 1 ∨ cs = 2 ^ 31 - 1) ∧ fr.getD 2 0 % 2 = 1 then flSAT else 0
    [(sn, st), (cs, 0)]))

/-- Register `i` of the pair or triple at a field, signed. -/
def ReckX.at (x : ReckX) (f i : Nat) : Int := sxt 32 (x.reg (f + i))

def execClarke (k : Fin 32) (s : State) : Outcome State Fault Refusal :=
  .next (s.helper k 1 2 (fun w => legalPair (iD w) && legalTriple (iA w)) (fun x w fr =>
    let a := x.at (iA w) 0
    let b := x.at (iA w) 1
    let c := x.at (iA w) 2
    let al := quot (2 * a - b - c) 3
    let be := mulRoot3 (b - c) 1 3
    [within1 al.1 al.2 (fr.getD 0 0), within1 be.1 be.2 (fr.getD 1 0)]))

/-- −α/2 ± (√3/2)β: the floor, and whether it is exact. -/
def iclarkeOut (al be : Int) : Int × Bool :=
  let r := mulRoot3 be 1 1
  ((-al + r.1) / 2, r.2 && decide (al % 2 = 0))

def execIclarke (k : Fin 32) (s : State) : Outcome State Fault Refusal :=
  .next (s.helper k 2 3 (fun w => legalTriple (iD w) && legalPair (iA w)) (fun x w fr =>
    let al := x.at (iA w) 0
    let be := x.at (iA w) 1
    let b := iclarkeOut al be
    let c := iclarkeOut al (-be)
    [within1 al true (fr.getD 0 0), within1 b.1 b.2 (fr.getD 1 0), within1 c.1 c.2 (fr.getD 2 0)]))

/-- Legal fields of PARK and IPARK. -/
def legalPark (w : Nat) : Bool := legalPair (iD w) && legalPair (iA w) && legalPair (iB w)

def execPark (k : Fin 32) (s : State) : Outcome State Fault Refusal :=
  .next (s.helper k 3 2 legalPark (fun x w fr =>
    let al := x.at (iA w) 0
    let be := x.at (iA w) 1
    let sn := x.at (iB w) 0
    let cs := x.at (iB w) 1
    let d := quot (al * cs + be * sn) (2 ^ 31)
    let q := quot (be * cs - al * sn) (2 ^ 31)
    [within1 d.1 d.2 (fr.getD 0 0), within1 q.1 q.2 (fr.getD 1 0)]))

def execIpark (k : Fin 32) (s : State) : Outcome State Fault Refusal :=
  .next (s.helper k 4 2 legalPark (fun x w fr =>
    let d := x.at (iA w) 0
    let q := x.at (iA w) 1
    let sn := x.at (iB w) 0
    let cs := x.at (iB w) 1
    let al := quot (d * cs - q * sn) (2 ^ 31)
    let be := quot (d * sn + q * cs) (2 ^ 31)
    [within1 al.1 al.2 (fr.getD 0 0), within1 be.1 be.2 (fr.getD 1 0)]))

/-! ## PIDF (R239 to R241) -/

/-- Where a data address of a program lies (R199, R200): a DRAM word, a common-store word, a board
register (page, offset), or the trap its access takes. -/
inductive Place where
  | dram (i : Nat)
  | common (i : Nat)
  | board (p off : Nat)
  | trap (cause : Nat)
deriving DecidableEq, Repr

/-- The place of a data address. -/
def placeOf (a : Nat) : Place :=
  if a % 4 ≠ 0 then .trap tcALIGN
  else if 0x10000 ≤ a ∧ a < 0x20000 then .dram (16384 + (a - 0x10000) / 4)
  else if 0x01000000 ≤ a ∧ a < 0x02000000 then .board ((a - 0x01000000) / 4096) (a % 4096)
  else if 0x04000000 ≤ a ∧ a < 0x08000000 then .common ((a - 0x04000000) / 4)
  else .trap tcACCESS

/-- One step of a PIDF block (R240): the words of the block from KP on; the output, and the block's new
words where it is written, with the sticky flags set. -/
def pidf (b : List Nat) (r y : Nat) : Nat × Option (List Nat) × Nat :=
  let g (i : Nat) : Nat := b.getD i 0
  let mode := g 7
  let init := mode.testBit 1
  let alpha0 := g 3
  let alpha := if isNaN alpha0 then 0 else fClamp alpha0 0 fOne
  let yprev := if init then y else g 10
  let dst0 := if init then 0 else g 9
  let e := fSub r y
  let p := fMul (g 0) e.v
  let t1 := fMul alpha dst0
  let t2 := fSub fOne alpha
  let t3 := fSub y yprev
  let t4 := fMul (g 2) t3.v
  let t5 := fMul t2.v t4.v
  let dst := fSub t1.v t5.v
  let fl1 := e.fl ||| p.fl ||| t1.fl ||| t2.fl ||| t3.fl ||| t4.fl ||| t5.fl ||| dst.fl
  let umin := g 4
  let umax := g 5
  let lim (x : Nat) : Nat × Bool × Bool :=
    if fLt umax x then (umax, false, true) else if fLt x umin then (umin, true, false)
    else (x, false, false)
  let fin := fun (u : Nat × Bool × Bool) (i : Nat) (fl : Nat) =>
    if [e.v, p.v, dst.v, i, u.1].any isNaN then (g 11, none, flNV ||| fl)
    else
      let m := mode / 16 * 16 + mode % 2 + 4 * b2n u.2.1 + 8 * b2n u.2.2
      (u.1, some ((b.take 7) ++ [m, i, dst.v, y, u.1]),
        fl ||| (if u.2.1 || u.2.2 then flSAT else 0))
  if mode.testBit 0 then
    let u := lim (g 6)
    let i1 := fSub u.1 p.v
    let i2 := fSub i1.v dst.v
    fin u i2.v (fl1 ||| i1.fl ||| i2.fl)
  else
    let di := fMul (g 1) e.v
    let a1 := fAdd (g 8) di.v
    let a2 := fAdd p.v a1.v
    let a3 := fAdd a2.v dst.v
    let hold := (fLt umax a3.v && fLt 0 di.v) || (fLt a3.v umin && fLt di.v 0)
    let i := if hold then g 8 else a1.v
    let c1 := fAdd p.v i
    let c2 := fAdd c1.v dst.v
    fin (lim c2.v) i (fl1 ||| di.fl ||| a1.fl ||| a2.fl ||| a3.fl ||| c1.fl ||| c2.fl)

/-- Read and write a word of DRAM or the common store. -/
def State.placeRead (s : State) (k : Nat) (pl : Place) : Nat :=
  match pl with
  | .dram i => s.reckWord k i
  | .common i => (s.commonWord i).toNat
  | _ => 0
def State.placeWrite (s : State) (k : Nat) (pl : Place) (v : Nat) : State :=
  match pl with
  | .dram i => s.setReckWord k i v
  | .common i => s.setCommon i (wordOf v)
  | _ => s

/-- The place of word `i` of a block that starts at a place. -/
def Place.word (pl : Place) (i : Nat) : Place :=
  match pl with
  | .dram j => .dram (j + i)
  | .common j => .common (j + i)
  | p => p

/-- Where a 48-byte block lies (R239): wholly in DRAM or wholly in the common store, else a trap. -/
def blockPlace (a : Nat) : Place :=
  match placeOf a, placeOf (a + 44) with
  | .trap c, _ => .trap c
  | .dram i, .dram _ => .dram i
  | .common i, .common _ => .common i
  | _, _ => .trap tcACCESS

/-- PIDF on a block (R240). -/
def State.pidfAt (s : State) (k w : Nat) (pl : Place) : State :=
  let x := s.reckX k
  let b := (List.range 12).map (fun i => s.placeRead k (pl.word i))
  let r := pidf b (x.reg (iB w)) (x.reg (iB w + 1))
  let s := match r.2.1 with
    | some l => l.zipIdx.foldl (fun (s : State) (e : Nat × Nat) => s.placeWrite k (pl.word e.2) e.1) s
    | none => s
  s.finishI k (.done [(iD w, r.1)] (x.flags ||| r.2.2))

def execPidf (k : Fin 32) (ecc : Ecc) (s : State) : Outcome State Fault Refusal :=
  .next (s.instr k 0x04 (some 5)
    (fun w => legalRegs [iD w, iA w, iB w, iC w] && legalPair (iB w)) (fun s w =>
      match blockPlace ((s.reckX k).a w) with
      | .trap c => s.trapHere k c
      | .dram i => s.dramEcc k ecc (fun s => s.pidfAt k w (.dram i))
      | .common i => if ecc = .double then s.trapHere k tcCOMMON else s.pidfAt k w (.common i)
      | .board _ _ => s.trapHere k tcACCESS))

/-! ## Branches (R235) -/

/-- Set the program counter. -/
def State.setPc (s : State) (k pc : Nat) : State := s.setReckX k { s.reckX k with pc := pc }

/-- Go on at the next instruction. -/
def State.nextPc (s : State) (k : Nat) : State := s.setPc k ((s.reckX k).pc + 4)

/-- A branch target: the address of the branch plus 4 × OFS, as a 32-bit address. -/
def State.target (s : State) (k bits w : Nat) : Nat :=
  enc 32 ((s.reckX k).pc + 4 * sxt bits (w % 2 ^ bits))

def execBrc (k : Fin 32) (s : State) : Outcome State Fault Refusal :=
  .next (s.instr k 0x14 none (fun _ => true) (fun s w =>
    if condHolds (s.reckX k).flags (bitsOf w 25 22) then s.setPc k (s.target k 22 w) else s.nextPc k))

def execBz (k : Fin 32) (s : State) : Outcome State Fault Refusal :=
  .next (s.instr k 0x15 none (fun w => legalRegs [iD w]) (fun s w =>
    if (s.reckX k).reg (iD w) = 0 then s.setPc k (s.target k 21 w) else s.nextPc k))

def execBnz (k : Fin 32) (s : State) : Outcome State Fault Refusal :=
  .next (s.instr k 0x16 none (fun w => legalRegs [iD w]) (fun s w =>
    if (s.reckX k).reg (iD w) = 0 then s.nextPc k else s.setPc k (s.target k 21 w)))

def execCall (k : Fin 32) (s : State) : Outcome State Fault Refusal :=
  .next (s.instr k 0x17 none (fun w => decide (bitsOf w 25 22 = 0)) (fun s w =>
    s.reckCall k (s.target k 22 w)))

/-! ## System group (R236) -/

def execNop (k : Fin 32) (s : State) : Outcome State Fault Refusal :=
  .next (s.instr k 0x05 (some 0) legalR (fun s _ => s.nextPc k))

/-- A special register (R205).  CYCLE is free: the model leaves execution time out. -/
def State.special (s : State) (k n : Nat) : Nat × State :=
  let x := s.reckX k
  match n with
  | 0 => (x.flags, s)
  | 1 => (x.ctrl, s)
  | 2 => (x.link.getD x.ccp 0, s)
  | 3 => (x.tpc, s)
  | 4 => (x.tcause, s)
  | 5 => (x.tcol, s)
  | 6 => (x.tvec, s)
  | 7 => (x.cdep * 256 + x.occ * 16 + x.ccp, s)
  | 8 => (x.tinfo, s)
  | 9 => (x.tns, s)
  | 10 => (x.tsec, s)
  | 11 => s.free
  | _ => (k, s)

/-- Write a special register; read-only ones ignore it (R205, R236). -/
def ReckX.setSpecial (x : ReckX) (n v : Nat) : ReckX :=
  match n with
  | 0 => { x with flags := v &&& 0x1F0F }
  | 1 => { x with ctrl := v % 2 }
  | 2 => { x with link := x.link.set x.ccp v }
  | 3 => { x with tpc := v }
  | 6 => { x with tvec := v }
  | _ => x

/-- Legal fields of MFS and MTS: B is a special register number. -/
def legalSpec (w : Nat) : Bool := legalRegs [iD w, iA w, iC w] && decide (iB w ≤ 12)

def execMfs (k : Fin 32) (s : State) : Outcome State Fault Refusal :=
  .next (s.instr k 0x05 (some 1) legalSpec (fun s w =>
    let r := s.special k (iB w)
    r.2.finishI k (.done [(iD w, r.1)] (r.2.reckX k).flags)))

def execMts (k : Fin 32) (s : State) : Outcome State Fault Refusal :=
  .next (s.instr k 0x05 (some 2) legalSpec (fun s w =>
    let x := s.reckX k
    (s.setReckX k (x.setSpecial (iB w) (x.a w))).nextPc k))

def execJr (k : Fin 32) (s : State) : Outcome State Fault Refusal :=
  .next (s.instr k 0x05 (some 3) legalR (fun s w => s.setPc k ((s.reckX k).a w / 4 * 4)))

def execCallr (k : Fin 32) (s : State) : Outcome State Fault Refusal :=
  .next (s.instr k 0x05 (some 4) legalR (fun s w => s.reckCall k ((s.reckX k).a w / 4 * 4)))

def execRet (k : Fin 32) (s : State) : Outcome State Fault Refusal :=
  .next (s.instr k 0x05 (some 5) legalR (fun s _ => s.reckRet k))

def execTrap (k : Fin 32) (s : State) : Outcome State Fault Refusal :=
  .next (s.instr k 0x05 (some 6) legalR (fun s _ => s.reckTrap k tcSOFT ((s.reckX k).pc + 4)))

/-- WAITF (R210, R236): in c7 and with mask 0 it is illegal. -/
def execWaitf (k : Fin 32) (s : State) : Outcome State Fault Refusal :=
  .next (s.instr k 0x05 (some 7)
    (fun w => legalRegs [iD w, iA w, iB w] && decide (bitsOf w 6 6 = 0) && decide (bitsOf w 10 7 ≠ 0))
    (fun s w =>
      if (s.reckX k).ccp = 7 then s.trapHere k tcILLEGAL
      else
        let m := bitsOf w 10 7
        let s := s.busyEnd k
        match (s.reckX k).pendIn m with
        | some i => s.waitTake k i
        | none => (s.setReckX k { s.reckX k with mask := m, woke := false }).setRkSt k rkSLEEP))

/-- Whether R219 lists the OP and FN of a word. -/
def listedOp (w : Nat) : Bool :=
  match iOP w with
  | 0x01 => decide (iFN w ≤ 0x1A)
  | 0x02 => decide (iFN w ≤ 0x0A)
  | 0x03 => decide (iFN w ≤ 0x10)
  | 0x04 => decide (iFN w ≤ 0x05)
  | 0x05 => decide (iFN w ≤ 0x07)
  | op => (decide (0x08 ≤ op) && decide (op ≤ 0x12)) || (decide (0x14 ≤ op) && decide (op ≤ 0x17))

/-- The word at the program counter is no listed instruction (R219), or its fetch finds an error
(R201): a double-bit error is fatal, a corrected one is counted. -/
def execIllegalInstruction (k : Fin 32) (ecc : Ecc) (s : State) : Outcome State Fault Refusal :=
  if !s.reckRuns k then .next s
  else if 65536 ≤ (s.reckX k).pc then .next (s.trapHere k tcACCESS)
  else
    match ecc with
    | .double => .next (s.reckFatal k 5)
    | e =>
      let s := if e = .corrected then s.eccCorrected k false else s
      .next (if listedOp (s.fetch k) then s else s.trapHere k tcILLEGAL)

end Sys2Proof.Machine
end

