-- ==== Sys2Proof/Machine/Cea.lean ====
section
/-! DEFINITION. The cell estimator (spec/13, R300 to R310, R317, R318) and the charge and energy tallies
(R311, R312).  The manual names the model's equations without giving them: they are free functions of the states,
the measurements and the chemistry table (Config.cellStep); what follows from the states is computed. -/

namespace Sys2Proof.Machine

open Host (Outcome)

/-! ## Records and configuration -/

/-- The record of a cell by device cell index. -/
def State.cell (s : State) (c : Nat) : CellX := tabGet (fun _ => {}) s.cells c

/-- Store the record of a cell. -/
def State.setCell (s : State) (c : Nat) (x : CellX) : State :=
  { s with cells := tabPut (fun _ => {}) s.cells c x }

/-- Store the estimator's record. -/
def State.setCea (s : State) (x : CeaX) : State := { s with cea := x }

/-- The last two reports of a module, newest first. -/
def State.modRep (s : State) (m : Nat) : List ModRep := tabGet (fun _ => []) s.modReps m

/-- A report of a module arrives. -/
def State.setModRep (s : State) (m : Nat) (r : ModRep) : State :=
  { s with modReps := tabPut (fun _ => []) s.modReps m ((r :: s.modRep m).take 2) }

/-- The half-word of MOD_CFG of a module. -/
def State.ceaMod (s : State) (m : Nat) : Nat := s.reg pCEA (CEA.MOD_CFG (m / 2)) / (if m % 2 = 1 then 65536 else 1) % 65536

/-- Cells of a configured module, 0 where it is not estimated. -/
def State.modCells (s : State) (m : Nat) : Nat :=
  let c := s.ceaMod m
  if c.testBit 15 then c % 128 else 0

/-- A word of a chemistry table by byte offset (R317). -/
def State.chemWord (s : State) (t b : Nat) : Nat := s.reg (0xA00 + 8 * t + b / 4096) (b % 4096)

/-- A named scalar of a table. -/
def State.chemScalar (s : State) (t k : Nat) : Nat := s.chemWord t (0x40 + 4 * (Config.chemScalar k).val)

/-- The words of a table that the estimator uses. -/
def State.chemWords (s : State) (t : Nat) : List Nat := (List.range 0x780).map (fun i => s.chemWord t (4 * i))

/-- P0 of a table: 36 words. -/
def State.chemP0 (s : State) (t : Nat) : List Nat := (List.range 36).map (fun i => s.chemWord t (0x1D40 + 4 * i))

/-- Whether a table passes its check (R317). -/
def State.chemOk (s : State) (t : Nat) : Bool :=
  let len := s.chemWord t 4
  decide (s.chemWord t 0 = 1) && decide (0x1E00 ≤ len) && decide (len ≤ 0x8000) &&
    decide (s.chemWord t 8 = crc32c
      ((((List.range ((len - 13) / 4)).flatMap (fun i => leBytes 4 (s.chemWord t (0x10 + 4 * i)))).take (len - 16))))

/-- The rods of a device that have a configured cell. -/
def State.rodMods (s : State) (r : Nat) : List Nat :=
  ((List.range 32).map (fun i => 32 * r + i)).filter (fun m => decide (0 < s.modCells m))

/-- The configured cells of a rod, ascending. -/
def State.rodCells (s : State) (r : Nat) : List Nat :=
  (s.rodMods r).flatMap (fun m => (List.range (s.modCells m)).map (fun c => 64 * m + c))

/-! ## Tallies (R311, R312) -/

/-- The tally of a rod. -/
def State.tally (s : State) (r : Nat) : TallyX := tabGet (fun _ => {}) s.tallies r

/-- Store the tally of a rod. -/
def State.setTally (s : State) (r : Nat) (x : TallyX) : State :=
  { s with tallies := tabPut (fun _ => {}) s.tallies r x }

/-- A binary32 number times a time in 1/256 ns times `u` per second, in 2⁻³² of the unit, rounded
down. -/
def tallyInc (x d u : Nat) : Nat := (fScaled x).natAbs * d * u * 2 ^ 32 / (2 ^ 149 * 256000000000)

/-- The current and the voltage that a rod's tally reads. -/
def State.tallyI (s : State) (r : Nat) : Nat :=
  fmul (s.reg pCEA (CEA.ISCALE r)) (fOfZ (s.slotVal (r / 6) (s.reg pCEA (CEA.TSLOT r) % 256)))
def State.tallyV (s : State) (r : Nat) : Nat :=
  fmul (s.reg pCEA (CEA.VSCALE r)) (fOfZ (s.slotVal (r / 6) (s.get pCEA (CEA.TSLOT_VS r))))

/-- A write of the current slot of a rod (R311). -/
def State.tallyWrite (s : State) (r : Nat) : State :=
  let x := s.tally r
  let now := s.beam.t
  match x.last with
  | none => s.setTally r { x with last := some now }
  | some t0 =>
    let long := decide (unitsMs < now - t0)
    let d := min (now - t0) unitsMs
    let i := s.tallyI r
    let en := s.flag pCEA (CEA.TSLOT_TALLY_EN r)
    let q := tallyInc i d 1000000
    let neg := decide (fScaled i < 0)
    let e := (fScaled i).natAbs * (fScaled (s.tallyV r)).natAbs * d * 1000 * 2 ^ 32 / (2 ^ 298 * 256000000000)
    let x := { x with
      hist := (now, i) :: x.hist
      last := some now, winQ := x.winQ + (if neg then -(q : Int) else (q : Int)), winT := x.winT + d }
    let x := if !en then x
      else if neg then { x with chgIn := x.chgIn + q, energy := x.energy + e }
      else { x with chgOut := x.chgOut + q, energy := x.energy + e }
    let s := s.setTally r x
    if long && en then s.incSat pCEA CEA.TALLY_GAPS else s

/-- The written slots of a field die reach the tallies of its rods; they stop in REST and DEEP. -/
def State.tallySlots (s : State) (k : Nat) (slots : List Nat) : State :=
  if dvREST ≤ s.dev then s
  else (List.range 6).foldl (fun s i =>
    let r := 6 * k + i
    if slots.contains (s.reg pCEA (CEA.TSLOT r) % 256) then s.tallyWrite r else s) s

/-- CHG_IN, CHG_OUT and ENERGY (R312), `j` 0 to 2: base and accumulator. -/
def State.tallySum (s : State) (r j : Nat) : Nat :=
  let x := s.tally r
  let acc := match j with
    | 0 => x.chgIn
    | 1 => x.chgOut
    | _ => x.energy
  (s.reg64 pCEA (CEA.BASE_IN_LO r + 8 * j) + acc / 2 ^ 32) % 2 ^ 64

/-! ## Cell updates (R302 to R307) -/

/-- Diagonal places of an upper triangle of 8 × 8. -/
def covDiag : List Nat := [0, 8, 15, 21, 26, 30, 33, 35]

/-- Whether a covariance has a diagonal that is not positive or is a NaN (R304). -/
def covBad (c : List Nat) : Bool := covDiag.any (fun i => !(fLt 0 (c.getD i 0)))

/-- What a round says of a cell beside its record: whether its table failed, whether a report lies in the window,
what was measured as the words of Config.cellStep, the measured temperature, whether the cell is charged, whether the
innovation is to be taken as 10 × NIS_LIM (R569), and the limits. -/
structure CellIn where
  chemBad : Bool
  valid : Bool
  meas : List Nat
  temp : Option Int
  neg : Bool
  inj : Bool
  staleN : Nat
  ishN : Nat
  ishWarn : Nat
  plWarn : Int
  nisLim : Nat
  stoi0 : Nat
  stoi100 : Nat
  round : Nat
deriving DecidableEq, Repr

/-- A rounded binary32 value as an unsigned field. -/
def recU (x k hi : Nat) : Nat := (clampI 0 hi (fToInt 40 (fmul x (fOfZ k)))).toNat

/-- The output record (R305) from the cell and the free SOC and PLATE. -/
def cellRec (x : CellX) (i : CellIn) (soc plate : Nat) (flags : Nat) : List Nat :=
  leBytes 2 soc ++ leBytes 2 (recU x.thQ 10000 12000) ++ leBytes 2 (recU x.thR 4096 65535) ++
  leBytes 2 plate ++ leBytes 2 (enc 16 (fToInt 16 (fmul (x.model.getD 24 0) (fOfZ 16)))) ++
  leBytes 2 (recU x.iSh 10000 65535) ++ [flags, 0] ++ leBytes 2 i.round

/-- Fields of an output record. -/
def recField (r : List Nat) (o : Nat) : Nat := ofLE ((r.drop o).take 2)

/-- What a cell's update counts: divergences, SHORT and PLATING settings, entries to EXCLUDED. -/
structure CellEv where
  div : Bool
  short : Bool
  plating : Bool
  excl : Bool
deriving DecidableEq, Repr

/-- The mean of the seven negative shells, of equal volume (R301, R305). -/
def meanShell (m : List Nat) : Nat := fdiv ((m.take 7).foldl fadd 0) (fOfZ 7)

/-- SOC in 0.01 % (R305): the negative inventory between the stoichiometries at 0 % and 100 %, limited. -/
def socOf (m : List Nat) (s0 s100 : Nat) : Nat :=
  recU (fdiv (fsub (meanShell m) s0) (fsub s100 s0)) 10000 10000

/-- The states within their stated ranges (R301, R302): h in −1 to +1, q_pl not below 0. -/
def cellRange (m : List Nat) : List Nat :=
  (m.set 22 (fClamp (m.getD 22 0) (fneg fOne) fOne)).set 23 (fClamp (m.getD 23 0) 0 fInf)

/-- One update of a cell (R303 to R307): `ch` the words of its table, `p0` the table's covariance. -/
def cellUpdate (x : CellX) (i : CellIn) (ch p0 : List Nat) : CellX × CellEv :=
  let wasExcl := x.excluded || x.cmdExcl || (x.rec_.getD 12 0).testBit 2
  let stale := if i.valid then 0 else x.stale + 1
  let excl := decide (i.staleN ≤ stale)
  let x := { x with stale := stale, excluded := excl }
  let old := x.model ++ [x.thQ, x.thR, x.iSh] ++ x.cov
  let first := !x.started && i.valid
  let w (k : Nat) : Nat := (Config.cellStep old i.meas ch k).toNat
  let w0 (k : Nat) : Nat := (Config.cellStart i.meas ch k).toNat
  let t (k : Nat) : Nat := (i.temp.map (fun t => fOfQ t 16)).getD (w0 k)
  let nis := if i.inj then fmul (fOfZ 10) i.nisLim else w 65
  let x := if first then { x with
      started := true, init := 20, thQ := fOne, thR := fOne, iSh := 0, cov := p0, nis := 0, diverged := 0
      model := (((cellRange ((List.range 26).map w0)).set 23 0).set 24 (t 24)).set 25 (t 25) }
    else if x.started then { x with
      model := cellRange ((List.range 26).map w), thQ := w 26, thR := w 27, iSh := w 28, init := x.init - 1
      cov := (List.range 36).map (fun k => w (29 + k)), diverged := x.diverged - 1
      nis := if i.valid && fLt i.nisLim nis then x.nis + 1 else 0 }
    else x
  let x := { x with hfr := none }
  let nan := x.started && !first && (x.model ++ [x.thQ, x.thR, x.iSh]).any isNaN
  let div := x.started && !first && (decide (8 ≤ x.nis) || covBad x.cov)
  let x := if nan then { x with started := false, init := 0 }
    else if div then { x with cov := p0, diverged := 20, nis := 0 }
    else x
  let ish := recU x.iSh 10000 65535
  let up := if i.ishWarn < ish then x.up + 1 else 0
  let down := if ish < i.ishWarn then x.down + 1 else 0
  let short := if x.short then !(decide (i.ishN ≤ down)) else decide (i.ishN ≤ up)
  let newShort := short && !x.short
  let plate := (Config.platingMargin (x.model.getD 6 0) (x.model.getD 20 0) (x.model.getD 15 0) ch).toNat
  let pl := i.neg && decide (sxt 16 plate < i.plWarn)
  let newPl := pl && !(x.rec_.getD 12 0).testBit 5
  let ex := excl || x.cmdExcl || i.chemBad
  let flags := b2n x.started + 2 * b2n (!i.valid) + 4 * b2n ex + 8 * b2n (decide (0 < x.diverged)) +
    16 * b2n short + 32 * b2n pl + 64 * b2n (decide (0 < x.init)) + 128 * b2n i.temp.isNone
  ({ x with
      up := up, down := down, short := short
      rec_ := cellRec x i (socOf x.model i.stoi0 i.stoi100) plate flags },
    ⟨div && !nan, newShort, newPl, ex && !wasExcl⟩)

/-- Whether a cell's record shows a flag. -/
def CellX.flag (x : CellX) (b : Nat) : Bool := (x.rec_.getD 12 0).testBit b

/-- The string current at an instant, between the two slot writes on either side of it (R302); beyond the writes
held, that of the nearest. -/
def stringAt : List (Nat × Nat) → Nat → Nat
  | [], _ => 0
  | [e], _ => e.2
  | e :: d :: l, t =>
    if e.1 ≤ t then e.2
    else if d.1 ≤ t then fadd d.2 (fmul (fsub e.2 d.2) (fOfQ ((t : Int) - d.1) (e.1 - d.1)))
    else stringAt (d :: l) t

/-- What a round has measured of a cell, as words: elapsed time in s, mean current and current at the sample in A
(R302), whether there is a sample, cell voltage in V, whether there is a temperature and which in °C, and whether there
is a high-frequency resistance and which in mΩ (R303). -/
def State.cellMeas (s : State) (rep : Option ModRep) (r k span : Nat) (temp : Option Int) (hfr : Option Nat) : List Nat :=
  let q := s.cea.winQ.getD r 0
  let t := s.cea.winT.getD r 0
  let bal := (rep.map (fun p => p.bal.getD k 0)).getD 0
  let ib := fOfQ bal 1000
  let mean := if t = 0 then 0 else fOfQ (q * 256000000000) (t * 1000000 * 2 ^ 32)
  let at_ := (rep.map (fun p => stringAt (s.tally r).hist (p.t * 256))).getD 0
  [fOfQ span 256000000000, fadd mean ib, fadd at_ ib, b2n rep.isSome,
    fOfQ ((rep.map (fun p => p.volts.getD k 0)).getD 0) 10000,
    b2n temp.isSome, fOfQ (temp.getD 0) 16, b2n hfr.isSome, hfr.getD 0]

/-- The update of one cell in the round that started at `start`. -/
def State.updateCell (s : State) (start c : Nat) : State :=
  let m := c / 64
  let k := c % 64
  let r := m / 32
  let rep := (s.modRep m).find? (fun p =>
    decide (s.cea.from_ ≤ p.t * 256) && decide (p.t * 256 < start) && decide (p.volts ≠ []))
  let q := s.cea.winQ.getD r 0
  let t := s.cea.winT.getD r 0
  let bal := (rep.map (fun p => p.bal.getD k 0)).getD 0
  -- the sign of I_s + I_bal, over a common positive factor
  let neg := decide (q * 256000000000 * 1000 + (bal * (t * 1000000 * 2 ^ 32) : Nat) < 0)
  let or0 (v d : Nat) : Nat := if v = 0 then d else v
  let ch := s.ceaMod m / 4096 % 8
  let temp := rep.bind (fun p => p.temps.getD k none)
  let j := if s.reg pCEA CEA.CELL_SEL % 65536 = c ∧ rep.isSome then s.injTake pCEA 0 else (false, s)
  let s := j.2
  let x := s.cell c
  let i : CellIn := {
    chemBad := s.bit pCEA CEA.STAT (24 + ch), valid := rep.isSome
    meas := s.cellMeas rep r k (start - s.cea.from_) temp (if s.flag pCEA CEA.CTL_EIS_FEED then x.hfr else none)
    temp := temp, neg := neg, inj := j.1
    staleN := or0 (s.get pCEA CEA.ALM_CFG_STALE_N) 20, ishN := or0 (s.get pCEA CEA.ALM_CFG_ISH_N) 40
    ishWarn := s.get pCEA CEA.ALM_CFG_ISH_WARN, plWarn := s.getS pCEA CEA.WCFG4_PL_WARN
    nisLim := s.chemScalar ch 2, stoi0 := s.chemScalar ch 0, stoi100 := s.chemScalar ch 1
    round := s.cea.rounds % 65536 }
  let u := cellUpdate x i (s.chemWords ch) (s.chemP0 ch)
  let s := s.setCell c u.1
  let s := if u.2.div then (s.incSat pCEA CEA.DIVERGE_CNT).ev pCEA (blk 4) else s
  let s := if u.2.short then (s.incF pCEA CEA.ALARM_CNT_SHORT).ev pCEA (blk 2) else s
  let s := if u.2.plating then (s.incF pCEA CEA.ALARM_CNT_PLATING).ev pCEA (blk 3) else s
  if u.2.excl then s.ev pCEA (blk 5) else s

/-! ## Health weights (R308) -/

/-- clamp(a / b, 0, 1) as a fraction. -/
def frac01 (a b : Int) : Nat × Nat :=
  if a ≤ 0 then (0, 1) else if b ≤ a then (1, 1) else (a.toNat, b.toNat)

/-- round(full × product of fractions). -/
def weightOf (full : Nat) (l : List (Nat × Nat)) : Nat :=
  let n := full * (l.map Prod.fst).foldl (· * ·) 1
  let d := (l.map Prod.snd).foldl (· * ·) 1
  (2 * n + d) / (2 * d)

/-- The weights of a rod: W_DIS and W_CHG; `none` where only cells excluded by command remain. -/
def State.rodWeights (s : State) (r : Nat) : Option (Nat × Nat) :=
  let cells := (s.rodCells r).map s.cell
  let c (f : Fld) : Nat := s.get pCEA f
  if cells = [] ∨ cells.any CellX.excluded then some (0, 0)
  else
    let live := cells.filter (fun x => !x.flag 2)
    let f (o : Nat) : List Nat := live.map (fun x => recField x.rec_ o)
    let g (o : Nat) : List Int := (f o).map (sxt 16)
    match (f 2).min?, (f 0).min?, (f 0).max?, (g 8).max?, (g 6).min? with
    | some h, some lo, some hi, some t, some pl =>
      let fq := frac01 ((h : Int) - c CEA.WCFG3_H_EOL) ((c CEA.WCFG3_H_GOOD : Int) - c CEA.WCFG3_H_EOL)
      let fd := frac01 ((lo : Int) - c CEA.WCFG0_SOC_LO) (c CEA.WCFG1_SOC_BAND)
      let fc := frac01 ((c CEA.WCFG0_SOC_HI : Int) - hi) (c CEA.WCFG1_SOC_BAND)
      let ft := frac01 (s.getS pCEA CEA.WCFG2_T_LIM - t) (c CEA.WCFG2_T_BAND)
      let fp := frac01 pl (c CEA.WCFG4_PL_BAND)
      let full := c CEA.WCFG1_W_FULL
      some (weightOf full [fq, fd, ft], weightOf full [fq, fc, ft, fp])
    | _, _, _, _, _ => none

/-- The end of a round for one rod: ROD_SUM and ROD_WCALC. -/
def State.rodRound (s : State) (r : Nat) : State :=
  let live := ((s.rodCells r).map s.cell).filter (fun x => !x.flag 2)
  let s := match (live.map (fun x => recField x.rec_ 0)).min?, (live.map (fun x => sxt 16 (recField x.rec_ 6))).min? with
    | some soc, some pl => s.setReg pCEA (CEA.ROD_SUM r) (soc * 65536 + enc 16 pl)
    | _, _ => s
  match s.rodWeights r with
  | some w => s.setReg pCEA (CEA.ROD_WCALC r) (w.2 * 65536 + w.1)
  | none => s

/-- The estimator writes ROD_W while WSRC = 0; a placement follows (R295, R308). -/
def State.writeWeights (s : State) (zero : Bool) : State :=
  if s.flag pBEADS BEADS.CTL_WSRC then s
  else
    ((List.range 24).foldl (fun s r =>
      s.setReg pBEADS (BEADS.ROD_W r) (if zero then 0 else s.reg pCEA (CEA.ROD_WCALC r))) s).placeRun

/-! ## Rounds (R309, R310) -/

/-- A cell command at the start of a round. -/
def State.cellCmdApply (s : State) (c : CellCmd) : State :=
  let x := s.cell c.cell
  let t := s.ceaMod (c.cell / 64) / 4096 % 8
  match c.op with
  | 0 =>
    -- SOC is set by an equal shift of the negative shells, as e0 of R303 (log 197)
    let s0 := s.chemScalar t 0
    let d := fsub (fadd s0 (fmul (fOfQ c.soc 10000) (fsub (s.chemScalar t 1) s0))) (meanShell x.model)
    s.setCell c.cell { x with
      model := x.model.mapIdx (fun i v => if i < 7 then fadd v d else v)
      thQ := fOfQ c.cap 10000, thR := fOfQ c.res 4096, cov := s.chemP0 t }
  | 1 => s.setCell c.cell { x with started := false, init := 0, diverged := 0, nis := 0 }
  | 2 => s.setCell c.cell { x with cmdExcl := true }
  | _ => s.setCell c.cell { x with cmdExcl := false }

/-- Period of the rounds (R310): 50 ms in RUN, 1 s in QUIET. -/
def State.roundPer (s : State) : Nat := if s.dev = dvRUN then 50 * unitsMs else 1000 * unitsMs

/-- A round starts at a whole multiple of the period (R309, R310): commands act, the window is closed, and the writes
of the slots before it are dropped.  After REST the elapsed time is one step at zero current. -/
def State.roundStart (s : State) (at_ : Nat) : State :=
  let s := s.cea.cmds.foldl State.cellCmdApply s
  let x := s.cea
  let q (r : Nat) : Int := if x.rested then 0 else (s.tally r).winQ
  let s := s.setCea { x with
    running := some at_, from_ := x.prev, prev := at_, rounds := x.rounds + 1, cmds := [], rested := false
    winQ := allRods.map q, winT := allRods.map (fun r => (s.tally r).winT) }
  let s := allRods.foldl (fun s r =>
    let y := s.tally r
    let old := y.hist.filter (fun e => decide (e.1 < x.prev))
    s.setTally r { y with
      winQ := 0, winT := 0, hist := y.hist.filter (fun e => decide (x.prev ≤ e.1)) ++ old.take 1 }) s
  s.setReg pCEA CEA.ROUND_NS (at_ / 256 % 1000000000)

/-- A round is due (R310) at each whole multiple of the period: it starts, or is skipped while the one before still
runs. -/
def execEstimatorRound (s : State) : Outcome State Fault Refusal :=
  let at_ := s.beam.t / s.roundPer * s.roundPer
  if !s.en pCEA ∨ dvREST ≤ s.dev ∨ at_ = s.cea.due then .next s
  else
    let s := s.setCea { s.cea with due := at_ }
    if s.cea.running.isSome then .next ((s.incSat pCEA CEA.OVR_CNT).ev pCEA (blk 1))
    else .next (s.roundStart at_)

/-- The snapshot of a round (R310): a header, whose bytes the manual leaves open, and every configured
cell's record. -/
def State.snapshot (s : State) (cells : List Nat) : State :=
  let f := s.frees 16
  let s := f.2
  let base := s.reg pCEA CEA.SNAP_BASE_LO / 65536 * 65536 + s.reg pCEA CEA.SNAP_BASE_HI % 256 * 2 ^ 32
  let size := s.reg pCEA CEA.SNAP_SIZE % 65536 * 65536
  let l := f.1.flatMap (leBytes 4) ++ cells.flatMap (fun c => (s.cell c).rec_)
  match s.ringPut base size (s.reg pCEA CEA.SNAP_WR) (s.reg pCEA CEA.SNAP_RD) l (fun _ => []) with
  | some r => r.1.setReg pCEA CEA.SNAP_WR r.2
  | none => s.incSat pCEA CEA.SNAP_DROP

/-- A round completes (R304 to R310). -/
def execRoundComplete (s : State) : Outcome State Fault Refusal :=
  match s.cea.running with
  | none => .next s
  | some start =>
    let cells := allRods.flatMap s.rodCells
    let s := s.setCea { s.cea with running := none }
    let s := cells.foldl (fun s c => s.updateCell start c) s
    let s := allRods.foldl State.rodRound s
    let n (b : Nat) : Nat := min (cells.filter (fun c => (s.cell c).flag b)).length 65535
    let s := s.setReg pCEA CEA.CELL_CNT (n 2 * 65536 + n 1)
    let s := s.set pCEA ⟨CEA.STAT, 7, 0⟩ s.cea.rounds
    let s := s.setReg pCEA CEA.ROUND_TIME (min ((s.beam.t - start) / 256000) 65535)
    let s := s.ev pCEA (blk 0)
    let s := if s.flag pCEA CEA.CTL_SNAP_EN then s.snapshot cells else s
    if s.en pCEA then .next (s.writeWeights false)
    else .next (if s.flag pCEA PG.STAT_SHUTTING then (s.set pCEA PG.STAT_SHUTTING 0).ev pCEA 4 else s)

/-- Enabling (R317): every table in use is checked. -/
def State.ceaEnable (s : State) : State :=
  let used := (List.range 8).filter (fun t => (List.range 768).any (fun m =>
    (s.ceaMod m).testBit 15 && decide (s.ceaMod m / 4096 % 8 = t)))
  let bad := used.filter (fun t => !s.chemOk t)
  let s := s.set pCEA CEA.STAT_CHEM_BAD (maskOf bad)
  if bad = [] then s else s.err pCEA (blk 3)

/-- Disabling (R308, R318). -/
def State.ceaDisable (s : State) : State :=
  (if s.cea.running.isSome then s.set pCEA PG.STAT_SHUTTING 1 else s).writeWeights true

/-! ## Registers with rules of their own -/

/-- A write of CELL_CMD (R309): its bits wait for the next round. -/
def State.cellCmd (s : State) (v : Nat) : State :=
  let c := s.reg pCEA CEA.CELL_SEL % 65536
  let i0 := s.reg pCEA CEA.CELL_INIT0
  let x := s.cea
  s.setCea { x with cmds := x.cmds ++ (bitsSet 4 v).map (fun op =>
    ⟨c, op, i0 % 65536, i0 / 65536, s.reg pCEA CEA.CELL_INIT1 % 65536⟩) }

/-- A cell command by a writer. -/
def State.cellCmdBy (s : State) (w : Writer) (b : Nat) : State :=
  finish w pCEA (s.actionWrite w pCEA (fun s => (s.cellCmd (2 ^ b), .ok)))

def execCellLoad (w : Writer) (s : State) : Outcome State Fault Refusal := .next (s.cellCmdBy w 0)
def execCellReset (w : Writer) (s : State) : Outcome State Fault Refusal := .next (s.cellCmdBy w 1)
def execCellExclude (w : Writer) (s : State) : Outcome State Fault Refusal := .next (s.cellCmdBy w 2)
def execCellInclude (w : Writer) (s : State) : Outcome State Fault Refusal := .next (s.cellCmdBy w 3)

/-- A CEA commit that R318 refuses, as the PG_ERR bits. -/
def State.ceaDenied (s : State) : List Nat :=
  let f := s.stagedGet pCEA
  let w (o : Nat) : Nat := (s.stagedWord pCEA o).toNat
  let changed (o : Nat) : Bool := decide (s.word pCEA o ≠ s.stagedWord pCEA o)
  holds [
    ((List.range 384).any (fun j => decide (64 < w (CEA.MOD_CFG j) % 128) ||
      decide (64 < w (CEA.MOD_CFG j) / 65536 % 128)) ||
      decide (f CEA.WCFG3_H_GOOD ≤ f CEA.WCFG3_H_EOL) || decide (f CEA.WCFG1_SOC_BAND = 0) ||
      decide (f CEA.WCFG2_T_BAND = 0) || decide (f CEA.WCFG4_PL_BAND = 0), blk 0),
    (allRods.any (fun r => decide (s.rodSt r ≠ stOFF) &&
      (changed (CEA.TSLOT r) || changed (CEA.ISCALE r) || changed (CEA.VSCALE r) ||
        (List.range 16).any (fun j => changed (CEA.MOD_CFG (16 * r + j))))), blk 1)]

/-- Writes of CEA registers; `none`: the plain rule. -/
def State.ceaRegWrite (s : State) (off : Nat) (v : Word) : Option (State × Code) :=
  if off = CEA.CELL_CMD then some (s.cellCmd v.toNat, .ok) else none

/-- A write of a chemistry table word (R317). -/
def State.chemDenied (s : State) : Bool := s.flag pCEA PG.STAT_ENABLED

/-- Computed CEA registers: the tallies, the selected cell, TALLY_LOCKED. -/
def State.ceaReg (s : State) (off : Nat) : Option Nat :=
  if off = CEA.STAT then some (s.reg pCEA off - 256 * b2n (s.bit pCEA off 8) + 256 * b2n (s.locked pCEA))
  else if CEA.CELL_OUT0 ≤ off ∧ off ≤ CEA.CELL_OUT3 then
    some (ofLE (((s.cell (s.reg pCEA CEA.CELL_SEL % 65536)).rec_.drop (off - CEA.CELL_OUT0)).take 4))
  else if 0xA00 ≤ off ∧ off < 0xA00 + 0x30 * 24 ∧ (off - 0xA00) % 0x30 < 24 then
    let r := (off - 0xA00) / 0x30
    let o := (off - 0xA00) % 0x30
    some (s.tallySum r (o / 8) / (if o % 8 = 0 then 1 else 2 ^ 32) % 2 ^ 32)
  else none

end Sys2Proof.Machine
end

