-- ==== Sys2Proof/Machine/Eis.lean ====
section
/-! DEFINITION. In-service impedance (spec/13, R313 to R316, R319): the runs of a rod, the multisine, the
current's amplitudes, results. -/

namespace Sys2Proof.Machine

open Host (Outcome)

/-! ## Settings -/

/-- Run states (EIS.RSTAT.STATE). -/
abbrev esIDLE : Nat := 0
abbrev esPLAN : Nat := 1
abbrev esSETTLE : Nat := 2
abbrev esMEASURE : Nat := 3
abbrev esCOLLECT : Nat := 4

/-- The state of a rod's run. -/
def State.eisSt (s : State) (r : Nat) : Nat := s.get pEIS (EIS.RSTAT_STATE r)

/-- Set the state of a rod's run, and its bit of STAT. -/
def State.setEisSt (s : State) (r st : Nat) : State :=
  (s.set pEIS (EIS.RSTAT_STATE r) st).setBit pEIS EIS.STAT r (decide (st ≠ esIDLE))

/-- The used tones: multiple of 0.1 Hz and relative amplitude. -/
def State.eisTones (s : State) : List (Nat × Nat) :=
  ((List.range 32).map (fun i => (s.reg pEIS (EIS.TONE i) / 65536, s.reg pEIS (EIS.TONE i) % 65536))).filter
    (fun t => decide (t.1 ≠ 0 ∧ t.2 ≠ 0))

/-- NPER and AMP. -/
def State.eisNper (s : State) : Nat :=
  let n := s.get pEIS EIS.CTL_NPER
  if n = 0 then 2 else min n 15
def State.eisAmp (s : State) : Nat :=
  let a := s.get pEIS EIS.CTL_AMP
  if a = 0 then 20 else max 5 (min a 50)

/-- One 10 s period, and the run's ends, in 1/256 ns. -/
abbrev eisPeriod : Nat := 10000 * unitsMs

/-! ## The multisine (R314) -/

/-- The phase of tone `k` (rank from 1) of `n` tones at `t` ns from the start, in 2⁻³² turn. -/
def tonePhase (h k n t : Nat) : Nat :=
  let a := (rneDiv ((h * t * 2 ^ 32 : Nat) : Int) 10000000000) -
    rneDiv ((k * (k - 1) * 2 ^ 32 : Nat) : Int) (2 * n)
  (a % 2 ^ 32).toNat

/-- The sum of the sines at a time, in 2⁻³¹ of the relative amplitude. -/
def toneSum (l : List (Nat × Nat)) (t : Nat) : Int :=
  (l.mapIdx (fun i e => (e.2 : Int) * (sinCosNear (tonePhase e.1 (i + 1) l.length t)).1)).foldl (· + ·) 0

/-- The peak over one period at 2 kS/s. -/
def tonePeak (l : List (Nat × Nat)) : Nat :=
  (List.range 20000).foldl (fun m i => max m (toneSum l (i * 500000)).natAbs) 0

/-- The peak current of the multisine, AMP × I_RATED, in A. -/
def State.eisPeakA (s : State) (r : Nat) : Nat :=
  fmul (fOfQ s.eisAmp 1000) (s.reg pEIS (EIS.I_RATED r))

/-- What a loop run adds to r_d (R314), `vd` the voltage it measured. -/
def State.eisInject (s : State) (r ts vd : Nat) : Nat :=
  let x := s.eisX r
  if !x.inj ∨ ts < x.t0 * 256 ∨ x.peak = 0 ∨ !fLt 0 vd then 0
  else
    let m := fmul (fOfQ (toneSum s.eisTones (ts / 256 - x.t0)) x.peak) (s.eisPeakA r)
    fdiv (fmul (s.tallyV r) m) (fmul 0x3FC00000 vd)

/-- A loop run has passed since an injection ended. -/
def State.eisOffSeen (s : State) (r : Nat) : State :=
  let x := s.eisX r
  if !x.off then s
  else
    let s := s.setEisX r { x with off := false }
    if s.flag pEIS PG.STAT_SHUTTING && allRods.all (fun r => !(s.eisX r).off) then
      (s.set pEIS PG.STAT_SHUTTING 0).ev pEIS 4
    else s

/-! ## Modules of a rod -/

/-- Segment and address of a mapped module. -/
def State.moduleAt (s : State) (m : Nat) : Option (Nat × Nat) :=
  ((List.range 32).flatMap (fun n => (List.range 24).map (fun a => (n, a)))).find? (fun e =>
    s.flag (pMBUS e.1) (MBUS.MAP_EN e.2) && !s.flag (pMBUS e.1) (MBUS.MOD_STAT_MAP_DUP e.2) &&
      decide (s.get (pMBUS e.1) (MBUS.MAP_MODIDX e.2) = m))

/-- Send a SAMPLE_PLAN message to every mapped module of a rod. -/
def State.eisSend (s : State) (r opc : Nat) (payload : List Nat) : State :=
  (s.rodMods r).foldl (fun s m =>
    match s.moduleAt m with
    | some e => s.mpeSend e.1 4 e.2 opc payload
    | none => s) s

/-! ## The states of a run (R313, R315) -/

/-- A run is aborted: the injection ends, a cancel is sent where the row says so. -/
def State.eisAbort (s : State) (r code : Nat) (cancel : Bool) : State :=
  let x := s.eisX r
  let s := s.setEisX r { x with inj := false, off := x.off || x.inj, due := true, acks := [], volts := [] }
  let s := if cancel then s.eisSend r 3 (leBytes 2 x.run) else s
  let s := (s.setEisSt r esIDLE).set pEIS (EIS.RSTAT_ABORT r) code
  (s.incSat pEIS EIS.ABORT_CNT).ev pEIS (blk 1)

/-- The abort a rod's run makes where the rod has stopped being idle since it began (R315). -/
def State.eisCheck (s : State) (r : Nat) : State :=
  let st := s.eisSt r
  let x := s.eisX r
  if (st = esPLAN ∨ st = esSETTLE ∨ st = esMEASURE) ∧ x.why ≠ 0 then s.eisAbort r x.why true
  else s

/-- After a loop run (R315): the idle conditions, the voltage limit. -/
def State.eisAfterRun (s : State) (r : Nat) : State :=
  let s := (s.eisOffSeen r).eisCheck r
  let st := s.eisSt r
  if (st = esSETTLE ∨ st = esMEASURE) ∧ s.flag (pLOOP r) LOOP.STAT_U_LIMIT then s.eisAbort r 6 true else s

/-- Whether a rod is due and has been idle long enough (R313). -/
def State.eisReady (s : State) (r : Nat) : Bool :=
  let x := s.eisX r
  let iv := s.get pEIS EIS.SCHED_INTERVAL
  let hold := s.get pEIS EIS.SCHED_IDLE_HOLD
  let age := (s.sec + 2 ^ 32 - s.reg pEIS (EIS.LAST_SEC r)) % 2 ^ 32
  decide (s.eisSt r = esIDLE) && decide (x.record = []) &&
    (x.due || decide ((if iv = 0 then 168 else iv) * 3600 ≤ age)) &&
    (match x.idleSince with
    | some t => decide (t + (if hold = 0 then 5 else hold) * 1000 * unitsMs ≤ s.beam.t)
    | none => false)

def execEisStart (r : Fin 24) (s : State) : Outcome State Fault Refusal :=
  let last (q : Nat) : Nat := s.reg pEIS (EIS.LAST_SEC q)
  let c := s.get pEIS EIS.CTL_CONC
  let conc := if c = 0 then 1 else min c 24
  let busy := (allRods.filter (fun q => decide (s.eisSt q ≠ esIDLE))).length
  let first := allRods.all (fun q => !s.eisReady q || decide (last r < last q) ||
    (decide (last r = last q) && decide (r.val ≤ q)))
  if !s.en pEIS ∨ !s.eisReady r ∨ conc ≤ busy ∨ !first then .next s
  else
    let x := s.eisX r
    let t0 := (s.beam.t / 256 + 200000000 + 99999999) / 100000000 * 100000000
    let run := if x.run = 65535 then 1 else x.run + 1
    let l := s.eisTones
    let s := s.setEisX r { x with
      why := 0, run := run, t0 := t0, acks := [], volts := [], lastI := none, peak := tonePeak l
      re := l.map (fun _ => 0), im := l.map (fun _ => 0) }
    let s := s.setEisSt r esPLAN
    .next (s.eisSend r 2 (leBytes 2 run ++ [l.length, 0] ++ leBytes 8 (t0 + 10000000000) ++
      leBytes 2 2000 ++ [0, 0] ++ leBytes 4 (s.eisNper * 10000) ++ l.flatMap (fun t => leBytes 2 t.1)))

/-- A step of a run in a state, once the beam has reached a time. -/
def State.eisAt (s : State) (r st t : Nat) (f : State → State) : State :=
  let s := s.eisCheck r
  if s.eisSt r = st ∧ t ≤ s.beam.t then f s else s

def execEisPlanDeadline (r : Fin 24) (s : State) : Outcome State Fault Refusal :=
  .next (s.eisAt r esPLAN ((s.eisX r).t0 * 256 - 50 * unitsMs) (fun s =>
    if (s.rodMods r).all (fun m => (s.eisX r).acks.contains m) then s.setEisSt r esSETTLE
    else s.eisAbort r 4 false))

def execEisInjectStart (r : Fin 24) (s : State) : Outcome State Fault Refusal :=
  .next (s.eisAt r esSETTLE ((s.eisX r).t0 * 256) (fun s => s.setEisX r { s.eisX r with inj := true }))

def execEisMeasureStart (r : Fin 24) (s : State) : Outcome State Fault Refusal :=
  .next (s.eisAt r esSETTLE ((s.eisX r).t0 * 256 + eisPeriod) (fun s => s.setEisSt r esMEASURE))

def execEisMeasureEnd (r : Fin 24) (s : State) : Outcome State Fault Refusal :=
  .next (s.eisAt r esMEASURE ((s.eisX r).t0 * 256 + (1 + s.eisNper) * eisPeriod) (fun s =>
    (s.setEisX r { s.eisX r with inj := false, off := true }).setEisSt r esCOLLECT))

def execEisCollectTimeout (r : Fin 24) (s : State) : Outcome State Fault Refusal :=
  .next (s.eisAt r esCOLLECT ((s.eisX r).t0 * 256 + (1 + s.eisNper) * eisPeriod + 5000 * unitsMs) (fun s =>
    s.eisAbort r 5 false))

/-! ## Amplitudes and results (R316) -/

/-- A write of a rod's tally current slot in MEASURE, sampled at `t` (1/256 ns): each tone's amplitude
takes it. -/
def State.eisSlot (s : State) (r t : Nat) : State :=
  let x := s.eisX r
  if s.eisSt r ≠ esMEASURE then s
  else
    match x.lastI with
    | none => s.setEisX r { x with lastI := some t }
    | some t1 =>
      let l := s.eisTones
      let ta := x.t0 + 10000000000
      let i := s.tallyI r
      let k := fmul (fdiv (fmul 0x40000000 i) (fOfQ (s.eisNper * 10) 1)) (fOfQ ((t : Int) - t1) 256000000000)
      let ph (h : Nat) : Int × Int := sinCosNear ((rneDiv ((h * (t / 256 - ta) * 2 ^ 32 : Nat) : Int) 10000000000 % 2 ^ 32).toNat)
      let re := l.mapIdx (fun j e => fadd (x.re.getD j 0) (fmul k (fOfQ (ph e.1).2 (2 ^ 31))))
      let im := l.mapIdx (fun j e => fsub (x.im.getD j 0) (fmul k (fOfQ (ph e.1).1 (2 ^ 31))))
      s.setEisX r { x with lastI := some t, re := re, im := im }

/-- The impedance Z = −V / I of a tone in mΩ, real and imaginary part. -/
def EisX.z (x : EisX) (v : List Nat) (j : Nat) : Nat × Nat :=
  let a := x.re.getD j 0
  let b := x.im.getD j 0
  let c := v.getD (2 * j) 0
  let d := v.getD (2 * j + 1) 0
  let den := fadd (fmul a a) (fmul b b)
  let kilo := 0xC47A0000
  (fdiv (fmul kilo (fadd (fmul c a) (fmul d b))) den, fdiv (fmul kilo (fsub (fmul d a) (fmul c b))) den)

/-- The voltages received of a cell. -/
def EisX.voltsOf (x : EisX) (c : Nat) : List Nat := ((x.volts.find? (fun e => e.1 == c)).map Prod.snd).getD []

/-- Whether a tone is valid (R316): |I| is not below a tenth of the amplitude it was commanded at, its share of the
peak. -/
def State.toneValid (s : State) (r j : Nat) : Bool :=
  let x := s.eisX r
  let a := x.re.getD j 0
  let b := x.im.getD j 0
  let want := fmul (fOfQ ((s.eisTones.getD j (0, 0)).2 * 2 ^ 31 : Nat) x.peak) (s.eisPeakA r)
  !(fLt (fsqrt (fadd (fmul a a) (fmul b b))) (fmul (fOfQ 1 10) want))

/-- The valid tones, as a mask. -/
def State.toneMask (s : State) (r : Nat) : Nat :=
  maskOf ((List.range (s.eisX r).re.length).filter (fun j => s.toneValid r j))

/-- The result record (R316): a header of 64 bytes, whose fields stand in the order that the manual names them, four
bytes each and eight for the seconds (log 198), the current amplitudes, the impedances of every configured cell. -/
def State.eisRecord (s : State) (r : Nat) : List Nat :=
  let x := s.eisX r
  let k := x.re.length
  let cells := (s.rodCells r).flatMap (fun c =>
    (List.range k).flatMap (fun j => leBytes 4 (x.z (x.voltsOf c) j).1 ++ leBytes 4 (x.z (x.voltsOf c) j).2))
  let body := (List.range k).flatMap (fun j => leBytes 4 (x.re.getD j 0) ++ leBytes 4 (x.im.getD j 0)) ++ cells
  let head := leBytes 4 (64 + body.length) ++ leBytes 4 r ++ leBytes 4 k ++ leBytes 8 (x.t0 / 1000000000) ++
    leBytes 4 (x.t0 % 1000000000) ++ leBytes 4 s.eisNper ++ leBytes 4 s.eisAmp ++ leBytes 4 (s.toneMask r)
  head ++ List.replicate (64 - head.length) 0 ++ body

/-- The highest valid tone at or above 200 Hz. -/
def State.feedTone (s : State) (r : Nat) : Option Nat :=
  let l := s.eisTones
  ((List.range (s.eisX r).re.length).filter (fun j => s.toneValid r j && decide (2000 ≤ (l.getD j (0, 0)).1))).getLast?

/-- The real part at that tone enters each cell's filter as θ_R × R_NOM (R303, R316). -/
def State.eisFeed (s : State) (r : Nat) : State :=
  match s.feedTone r with
  | none => s
  | some j =>
    let x := s.eisX r
    (s.rodCells r).foldl (fun s c => s.setCell c { s.cell c with hfr := some (x.z (x.voltsOf c) j).1 }) s

/-- Records that wait go to the ring in the order of rods, while it has room. -/
def State.eisFlush (s : State) : State :=
  let size := s.reg pEIS EIS.RES_SIZE % 65536 * 65536
  allRods.foldl (fun s r =>
    let x := s.eisX r
    if x.record = [] then s
    else if !s.bit pEIS EIS.RES_CTL 0 then s.setEisX r { x with record := [] }
    else
      let base := s.reg pEIS EIS.RES_BASE_LO / 65536 * 65536 + s.reg pEIS EIS.RES_BASE_HI % 256 * 2 ^ 32
      match s.ringPut base size (s.reg pEIS EIS.RES_WR) (s.reg pEIS EIS.RES_RD) x.record (fun _ => []) with
      | some q => ((q.1.setReg pEIS EIS.RES_WR q.2).setEisX r { x with record := [] }).ev pEIS (blk 0)
      | none => s) s

/-- Every module's results are in: the record, LAST_SEC, RUN_CNT. -/
def State.eisFinish (s : State) (r : Nat) : State :=
  let x := s.eisX r
  let full := (s.rodMods r).all (fun m => (s.moduleAt m).isNone ||
    (List.range (s.modCells m)).all (fun c => x.volts.any (fun e => e.1 == 64 * m + c)))
  if s.eisSt r ≠ esCOLLECT ∨ !full then s
  else
    let s := if s.flag pCEA CEA.CTL_EIS_FEED then s.eisFeed r else s
    let s := s.setEisX r { x with record := s.eisRecord r, due := false, volts := [] }
    let s := s.setReg pEIS (EIS.LAST_SEC r) (x.t0 / 1000000000 % 2 ^ 32)
    ((s.setEisSt r esIDLE).incSat pEIS EIS.RUN_CNT).eisFlush

/-- A SAMPLE_PLAN ACK of module `m` (R350). -/
def State.eisAck (s : State) (m : Nat) (d : List Nat) : State :=
  let r := m / 32
  let x := s.eisX r
  if d.length = 3 ∧ ofLE (d.take 2) = x.run ∧ d.getD 2 1 = 0 ∧ s.eisSt r = esPLAN then
    s.setEisX r { x with acks := if x.acks.contains m then x.acks else x.acks ++ [m] }
  else s

/-- An EIS_RESULT of module `m` (R351). -/
def State.eisResult (s : State) (m : Nat) (d : List Nat) : State :=
  let r := m / 32
  let s := s.eisCheck r
  let x := s.eisX r
  let k := d.getD 2 0
  let nc := d.getD 3 0
  let st := s.eisSt r
  if ofLE (d.take 2) ≠ x.run ∨ k ≠ x.re.length ∨ d.length ≠ 8 + 8 * k * nc ∨
      (st ≠ esMEASURE ∧ st ≠ esCOLLECT) then s
  else
    let ws (j : Nat) : List Nat := (List.range (2 * k)).map (fun i => ofLE ((d.drop (8 + 8 * k * j + 4 * i)).take 4))
    let new := (List.range nc).map (fun j => (64 * m + d.getD 4 0 + j, ws j))
    let old := x.volts.filter (fun e => !(new.any (fun f => f.1 == e.1)))
    (s.setEisX r { x with volts := old ++ new }).eisFinish r

/-- EIS.PG_CTL.EN written 0 (R315). -/
def State.eisDisable (s : State) : State :=
  let s := allRods.foldl (fun s r => if s.eisSt r = esIDLE then s else s.eisAbort r 8 true) s
  if allRods.any (fun r => (s.eisX r).off) then s.set pEIS PG.STAT_SHUTTING 1 else s

/-! ## Registers -/

/-- A write of REQ (R313). -/
def State.eisReq (s : State) (v : Nat) : State :=
  (bitsSet 24 v).foldl (fun s r => s.setEisX r { s.eisX r with due := true }) s

def execEisReq (w : Writer) (v : Word) (s : State) : Outcome State Fault Refusal :=
  .next (finish w pEIS (s.actionWrite w pEIS (fun s => (s.eisReq v.toNat, .ok))))

/-- An EIS commit that R319 refuses. -/
def State.eisDenied (s : State) : List Nat :=
  let w (o : Nat) : Nat := (s.stagedWord pEIS o).toNat
  let hs := ((List.range 32).map (fun i => w (EIS.TONE i) / 65536)).filter (fun h => decide (h ≠ 0))
  let rising := (hs.zip (hs.drop 1)).all (fun e => decide (e.1 < e.2))
  let run := allRods.any (fun r => decide (s.eisSt r ≠ esIDLE))
  holds [
    (hs.any (fun h => decide (5000 < h)) || !rising ||
      ((w EIS.RES_CTL).testBit 0 && decide (w EIS.RES_SIZE % 65536 = 0)), blk 0),
    (run && ((List.range 32).any (fun i => decide (s.word pEIS (EIS.TONE i) ≠ s.stagedWord pEIS (EIS.TONE i))) ||
      decide (w EIS.CTL % 65536 ≠ s.reg pEIS EIS.CTL % 65536)), blk 1)]

/-- Writes of EIS registers with rules of their own. -/
def State.eisRegWrite (s : State) (off : Nat) (v : Word) : Option (State × Code) :=
  if off = EIS.REQ then some (s.eisReq v.toNat, .ok)
  else if off = EIS.RES_RD then some ((s.setReg pEIS off v.toNat).eisFlush, .ok)
  else none

end Sys2Proof.Machine
end

