-- ==== Sys2Proof/Machine/GateCore.lean ====
section
/-! DEFINITION. Session slots, grants and the close of a session (spec/18, R454, R455, R460, R464, R465). -/

namespace Sys2Proof.Machine

/-- The record of a session slot. -/
def State.ses (s : State) (n : Nat) : SessX := tabGet (fun _ => {}) s.sess n

/-- Store the record of a session slot. -/
def State.setSes (s : State) (n : Nat) (x : SessX) : State :=
  { s with sess := tabPut (fun _ => {}) s.sess n x }

/-- Store the gate's record. -/
def State.setGate (s : State) (x : GateX) : State := { s with gate := x }

/-- Open sessions. -/
def State.openSess (s : State) : List Nat := (s.sess.filter (fun e => e.2.isOpen)).map Prod.fst

/-- A word of a grant slot (R454). -/
def State.grantWord (s : State) (n off : Nat) : Nat := s.reg (0x900 + n / 4) (0x400 * (n % 4) + off)

/-- VALID of a grant slot. -/
def State.grantValid (s : State) (n : Nat) : Bool := (s.grantWord n 0).testBit 31

/-- The rights of a page in a session's grant (R455): the OR of the ranges that cover it, 0 outside. -/
def State.rights (s : State) (n p : Nat) : Nat :=
  if p = pGATE ∨ p = pKEYS ∨ (0x900 ≤ p ∧ p < 0xA00) then 0
  else
    (List.range 240).foldl (fun m k =>
      let w := s.grantWord n (0x40 + 4 * k)
      if w % 2 = 1 ∧ bitsOf w 19 8 ≤ p ∧ p ≤ bitsOf w 31 20 then m ||| w % 64 else m) 0

/-- The TUNNEL parcel's body (R464). -/
def tunBytes (top : Nat) (m : TunMsg) : List Nat :=
  let l := [top, m.code] ++ leBytes 2 m.esess ++ [m.chan, m.frag] ++ leBytes 2 m.tsess ++ m.data
  l ++ List.replicate ((4 - l.length % 4) % 4) 0

/-- TOP values. -/
abbrev topOPEN : Nat := 1
abbrev topACK : Nat := 2
abbrev topREQ : Nat := 3
abbrev topRSP : Nat := 4
abbrev topCLOSE : Nat := 5

/-- Send a TUNNEL parcel. -/
def State.tunSend (s : State) (dst top : Nat) (m : TunMsg) : State := s.fabBytes kdTUNNEL dst (tunBytes top m)

/-- Send a session message through a tunnel, in two parts where it is longer than 2,040 bytes (R464). -/
def State.tunData (s : State) (dst top : Nat) (m : TunMsg) : State :=
  if m.data.length ≤ 2040 then s.tunSend dst top m
  else
    (s.tunSend dst top { m with frag := 1, data := m.data.take 2040 }).tunSend dst top
      { m with frag := 2, data := (m.data.drop 4).take 4 ++ m.data.drop 2040 }

/-- A session closes (R460): its leases end, its channels close, its responses are discarded, the client's
connection or the entry is told. -/
def State.closeSess (s : State) (n reason : Nat) : State :=
  let x := s.ses n
  if !x.isOpen then s
  else
    let s := s.setSes n { x with
      isOpen := false, reason := reason, keys := [], rekey := false, chans := [], inq := [], svc := []
      passed := x.passed.map (fun r => { r with mute := true }) }
    let s := (s.ownerLost (.session (Fin.ofNat 1024 n))).ev pGATE (blk 1)
    let s := x.chans.foldl (fun (s : State) c =>
      s.tunSend c.dst topCLOSE { esess := n, chan := c.c, tsess := c.tsess }) s
    if x.kind = 2 then s.tunSend x.entry topCLOSE { esess := x.ref % 1024, chan := x.chan, tsess := n }
    else s.send (.sessClose n (if reason = 9 then some 20 else none))

/-- Every open session closes. -/
def State.closeAll (s : State) (reason : Nat) : State :=
  s.openSess.foldl (fun (s : State) n => s.closeSess n reason) s

/-- A device is lost or has reset (R465): the tunnel sessions it entered by close. -/
def State.entryLost (s : State) (a : Nat) : State :=
  s.openSess.foldl (fun (s : State) n =>
    if (s.ses n).kind = 2 ∧ (s.ses n).entry = a then s.closeSess n 7 else s) s

end Sys2Proof.Machine
end

