-- ==== Sys2Proof/Machine/Fab.lean ====
section
/-! DEFINITION. The Jenkihan fabric (spec/17, R416 to R448): link states, control frames, sequence and replay,
credit resynchronisation, reception of parcels, floods of this device, discovery, the transaction engine. -/

namespace Sys2Proof.Machine

open Host (Outcome)

/-! ## Milestones and discovery (R440, R442, R448) -/

/-- Links that are enabled. -/
def State.linksEn (s : State) : List Nat := (List.range 4).filter (fun l => s.en (pFAB l))

/-- Links UP, as a mask. -/
def State.linksUp (s : State) : Nat := maskOf ((List.range 4).filter s.linkUp)

/-- The milestone (R442). -/
def State.ms (s : State) : Nat :=
  let all := (s.linksEn.filter (fun l => decide (1 < s.ringOf l))).all s.linkUp && decide (s.linksUp ≠ 0)
  if !s.coordOk then b2n all
  else if s.fineLock then 5
  else if 2 ≤ s.get pBEAM BEAM.STAT_LOCK then 4
  else if s.flag pBEAM BEAM.MASTER_VALID then 3
  else 2

/-- FABR.STAT as read. -/
def State.fabrStat (s : State) : Nat :=
  2 ^ 31 * b2n s.coordOk + 2 ^ 30 * b2n (!s.fabConf) + 2 ^ 8 * s.linksUp + s.ms

/-- Change a REACH bit. -/
def State.setReach (s : State) (a : Nat) (b : Bool) : State :=
  if s.discReach a = b then s else (s.setBit pDISC (DISC.REACH (a / 32)) (a % 32) b).ev pDISC (blk 0)

/-- Change a FINE bit. -/
def State.setFineBit (s : State) (a : Nat) (b : Bool) : State := s.setBit pDISC (DISC.FINE (a / 32)) (a % 32) b

/-- Devices that DISC shows reachable, with their MS: this one while it is configured. -/
def State.reachable (s : State) : List (Nat × Nat) :=
  (if s.fabConf then [(s.addr, s.ms)] else []) ++
    (s.router.disc.filter (fun e => s.discReach e.1)).map (fun e => (e.1, e.2.ms))

/-- LAG follows what is reachable: LAG is set where VALID changes. -/
def State.lagUpdate (s : State) : State :=
  let l := s.reachable
  let v :=
    match (l.map Prod.snd).min? with
    | none => 0
    | some m =>
      2 ^ 31 + m * 2 ^ 28 + (l.filter (fun e => decide (e.2 < 5))).length % 4096 * 2 ^ 16 +
        (((l.filter (fun e => e.2 == m)).map Prod.fst).min?).getD 0
  let old := s.flag pDISC DISC.LAG_VALID
  let s := s.setReg pDISC DISC.LAG v
  if s.flag pDISC DISC.LAG_VALID = old then s else s.ev pDISC (blk 2)

/-- Ones in a word. -/
def popcount (x : Nat) : Nat := (bitsSet 32 x).length

/-- DISC.STAT as read. -/
def State.discStat (s : State) : Nat :=
  let cnt (f : Nat → Nat) : Nat := (List.range 128).foldl (fun n w => n + popcount (s.reg pDISC (f w))) 0
  cnt DISC.REACH * 2 ^ 16 + cnt DISC.FINE

/-- Hops of the current route to a device. -/
def State.hopsTo (s : State) (a : Nat) : Nat :=
  let na := max 1 s.nA
  let nb := max 1 s.nB
  let da := (a % 64 + na - s.addr % 64) % na
  let db := (a / 64 + nb - s.addr / 64) % nb
  (if da = 0 then 0 else if s.enterRing 0 da na = 0 then da else na - da) +
    (if db = 0 then 0 else if s.enterRing 2 db nb = 2 then db else nb - db)

/-- DISC.ENTRY and ENTRY_AGE as read. -/
def State.discEntry (s : State) : Nat :=
  let a := s.reg pDISC DISC.SEL % 4096
  match s.discOf a with
  | none => 0
  | some d => 2 ^ 31 + 2 ^ 30 * b2n (s.discReach a) + d.ms * 2 ^ 24 + s.hopsTo a * 2 ^ 16 + d.boot
def State.discAge (s : State) : Nat :=
  match s.discOf (s.reg pDISC DISC.SEL % 4096) with
  | none => 0
  | some d => d.links % 256 / 16 * 2 ^ 20 + d.links % 16 * 2 ^ 16 + min ((s.beam.t - d.t) / unitsMs) 0xFFFF

/-- The fabric notice of R50 and R440: the leases of a device end, and the tunnel sessions it entered by. -/
def State.fabNotice (s : State) (a : Nat) : State :=
  ((s.ownerLost (.remote (Fin.ofNat 4096 a))).incSat pDISC DISC.NOTICE_CNT).entryLost a

/-! ## COORD_OK (R421) -/

/-- COORD_OK is reached once every enabled link of a ring has settled. -/
def State.coordCheck (s : State) : State :=
  let ls := s.linksEn.filter (fun l => decide (1 < s.ringOf l))
  let ok := ls.all (fun l =>
    s.linkUp l || decide (s.fabSt l = flFAULT) ||
      ((s.fab l).waited && (decide (s.fabSt l = flTRAIN) || decide (s.fabSt l = flHELLO))))
  let any := decide (s.linksUp ≠ 0) || (decide (s.nA = 1) && decide (s.nB = 1))
  if s.fabConf && !s.coordOk && ok && any then
    ((s.set pFABR FABR.STAT_COORD_OK 1).ev pFABR (blk 0)).lagUpdate.pump
  else s

/-! ## Link states (R418) -/

/-- A change of a link's state. -/
def State.setFabSt (s : State) (l v : Nat) : State :=
  if s.fabSt l = v then s else (s.set (pFAB l) FAB.STAT_STATE v).ev (pFAB l) (blk 0)

/-- Parcels whose output link has left UP find another way, or none (R430). -/
def State.rerouteEntry (s : State) (l : Nat) (e : FabEntry) : State × FabEntry :=
  if e.p.flood || e.p.kind == kdTIME then (s, { e with outs := e.outs.filter (· != l) })
  else
    let r := s.routeVia e.p l false
    match r.2 with
    | some (p, o, _) => (r.1, { e with p := p, outs := [o], enter := [o] })
    | none => (r.1.unreach e.p, { e with outs := [] })

/-- A link leaves UP or RESYNC: what its replay buffer holds is lost (R425), what was to leave by it
is routed anew. -/
def State.linkLost (s : State) (l : Nat) : State :=
  let x := s.fab l
  let s := s.incF (pFAB l) FAB.DOWN_CNT_LOST x.unacked.length
  let s := s.setFab l { x with unacked := [], stg := [], resync := 0, req := none, nak := false, replays := 0 }
  let s := (s.setReg (pFAB l) FAB.CRED 0).set (pFAB l) FAB.STAT_RESYNC_PEND 0
  let s := x.stg.foldl (fun (s : State) p =>
    let r := s.rerouteEntry l { p := p, outs := [l] }
    if r.2.outs.isEmpty then r.1 else r.1.setRouter { r.1.router with inj := r.1.router.inj ++ [r.2] }) s
  (List.range 5).foldl (fun (s : State) j =>
    let r := (s.srcList j).foldl (fun (a : State × List FabEntry) e =>
      if e.outs.contains l then
        let r := a.1.rerouteEntry l e
        (r.1, a.2 ++ [r.2])
      else (a.1, a.2 ++ [e])) (s, [])
    if (s.srcList j).any (fun e => e.outs.contains l) then
      -- answers that a request was given meanwhile stay behind the old entries
      let extra := if j = 4 then r.1.router.inj.drop (s.router.inj.length) else []
      r.1.setSrc j (r.2 ++ extra)
    else s) s

/-- HOLD (R418): cause, counts, and the 10 s hold of the third entry in 10 s. -/
def State.linkHold (s : State) (l cause : Nat) : State :=
  let up := s.linkUp l
  let s := s.setFabSt l flHOLD
  let s := s.set (pFAB l) FAB.STAT_HOLD_CAUSE cause
  let s := s.incF (pFAB l) ⟨FAB.DOWN_CNT, 31, 16⟩
  let x := s.fab l
  let hs := (x.holds.filter (fun t => decide (s.beam.t - t ≤ 10000 * unitsMs))) ++ [s.beam.t]
  let s := s.setFab l { x with holds := hs }
  let s := s.setB (pFAB l) FAB.STAT_FLAP (decide (3 ≤ hs.length))
  let s := if up then s.ev (pFAB l) (blk 2) else s
  ((s.linkLost l).coordCheck).pump

/-- TRAIN: a new start of the link. -/
def State.linkTrain (s : State) (l : Nat) : State :=
  (s.setFabSt l flTRAIN).setFab l { s.fab l with seen := false, hello := none }

/-- DOWN to TRAIN (R418, R419). -/
def State.linkStart (s : State) (l : Nat) : State :=
  if s.fabSt l = flDOWN ∧ s.en (pFAB l) ∧ s.fabConf ∧ 1 < s.ringOf l then
    (s.setFab l { s.fab l with waited := false }).linkTrain l
  else s

/-- Any state to DOWN (R418). -/
def State.linkDown (s : State) (l : Nat) : State :=
  if s.fabSt l = flDOWN then s
  else
    let up := s.linkUp l
    let s := (s.setFabSt l flDOWN).setReg (pFAB l) FAB.PEER 0
    let s := s.setReg (pFAB l) FAB.STAT 0
    let s := if up then s.ev (pFAB l) (blk 2) else s
    (s.linkLost l).coordCheck.pump

/-- FABR or a link's enable has changed: links start or go DOWN; the device's own REACH bit. -/
def State.fabConfig (s : State) : State :=
  let s := (List.range 4).foldl (fun (s : State) l =>
    if s.en (pFAB l) && s.fabConf && decide (1 < s.ringOf l) then s.linkStart l else s.linkDown l) s
  (if s.fabConf then s.setReach s.addr true else s).lagUpdate.coordCheck

/-- The refusal of a commit on FAB[l] (R446). -/
def State.fabDenied (s : State) (l : Nat) : List Nat :=
  holds [(decide (s.fabSt l ≠ flDOWN ∧ s.stagedGet (pFAB l) FAB.CFG_FEC ≠ s.get (pFAB l) FAB.CFG_FEC), blk 0)]

/-- A write of ADDR_CFG or SYS_ID (R447), refused while a link is not DOWN. -/
def State.fabrCfgWrite (s : State) (off : Nat) (v : Word) : State × Code :=
  if (List.range 4).any (fun l => decide (s.fabSt l ≠ flDOWN)) then refuse s pFABR (blk 0) .writeRefused
  else
    let m := if off = FABR.ADDR_CFG then 0x7F7F0FFF else 0xFFFFFFFF
    let s := s.setReach s.addr false
    ((s.setWord pFABR off (maskW v m)).fabConfig, .ok)

/-- Block lock, and with FEC its alignment, held for 1 ms (R416, R418). -/
def execFabBlockLock (l : Fin 4) (s : State) : Outcome State Fault Refusal :=
  if s.fabSt l = flTRAIN then
    let s := (s.set (pFAB l) FAB.STAT_BLOCK_LOCK 1).set (pFAB l) FAB.STAT_FEC_LOCK (s.get (pFAB l) FAB.CFG_FEC)
    .next (s.setFabSt l flHELLO)
  else .next s

/-- A HELLO is sent in HELLO and while UP (R418, R424). -/
def execHelloTx (l : Fin 4) (s : State) : Outcome State Fault Refusal :=
  if s.fabSt l = flHELLO ∨ s.linkUp l then
    .next (s.send (.lcf l (.hello
      { sysId := s.reg pFABR FABR.SYS_ID, addr := s.addr, link := l, na := s.nA, nb := s.nB, seen := (s.fab l).seen
        fec := s.flag (pFAB l) FAB.CFG_FEC, boot := s.get pBEADS BEADS.DEV_STAT_BOOT, ms := s.ms })))
  else .next s

/-- The checks of R420: 0, or the reason of the first that fails. -/
def State.helloCheck (s : State) (l : Nat) (h : Hello) : Nat :=
  if h.sysId ≠ s.reg pFABR FABR.SYS_ID then 1
  else if h.na ≠ s.nA ∨ h.nb ≠ s.nB then 2
  else if h.addr = s.addr then 3
  else if h.addr ≠ s.neighbour l ∨ h.link ≠ peerLink l then 4
  else 0

/-- Start a credit resynchronisation of the VCs of a mask (R427). -/
def State.resyncStart (s : State) (l mask : Nat) : State :=
  let s := (List.range 4).foldl (fun (s : State) v => if mask.testBit v then s.set (pFAB l) (credFld v) 0 else s) s
  let x := s.fab l
  let s := s.setFab l { x with resync := x.resync ||| mask }
  let s := (s.set (pFAB l) FAB.STAT_RESYNC_PEND 1).incF (pFAB l) FAB.CREDERR_RESYNC
  s.send (.lcf l (.resyncReq (x.resync ||| mask) x.txNext))

/-- RESYNC (R418): numbering from 0, the credits of all four VCs. -/
def State.linkResync (s : State) (l : Nat) (h : Hello) : State :=
  let s := s.setReg (pFAB l) FAB.PEER (2 ^ 31 + h.link % 4 * 2 ^ 28 + h.addr % 4096 * 2 ^ 16 + h.boot % 65536)
  let s := s.set (pFAB l) FAB.STAT_FAULT 0
  let s := s.setFab l { s.fab l with txNext := 0, unacked := [], replays := 0, rxNext := 0, nak := false, resync := 0, req := none }
  (s.setFabSt l flRESYNC).resyncStart l 15

/-- A peer's HELLO, `none` for a frame that fails its CRC or is no known frame (R417, R418, R420). -/
def execHelloRx (l : Fin 4) (h : Option Hello) (s : State) : Outcome State Fault Refusal :=
  match h with
  | none => .next (s.incSat (pFAB l) FAB.CRCERR)
  | some h =>
    let st := s.fabSt l
    let c := s.helloCheck l h
    if st = flHELLO then
      let s := s.setFab l { s.fab l with hello := some h, seen := (s.fab l).seen || decide (c = 0) }
      if c ≠ 0 then
        let s := (s.set (pFAB l) FAB.STAT_FAULT c).err (pFAB l) (blk 1)
        .next (s.setFabSt l flFAULT).coordCheck
      else if h.seen then .next (s.linkResync l h)
      else .next s
    else if st = flFAULT then .next (s.setFab l { s.fab l with hello := some h })
    else if st = flUP then
      if s.reg (pFAB l) FAB.PEER % 2 ^ 28 = h.addr % 4096 * 2 ^ 16 + h.boot % 65536 then .next s
      else .next (s.linkHold l 5)
    else .next s

/-- 20 ms without a HELLO that passes its CRC (R418). -/
def execHelloTimeout (l : Fin 4) (s : State) : Outcome State Fault Refusal :=
  if s.fabSt l = flHELLO then .next (s.linkTrain l) else .next s

/-- Once per second a link in FAULT looks at its peer's HELLO again (R418). -/
def execFaultRecheck (l : Fin 4) (s : State) : Outcome State Fault Refusal :=
  match (s.fab l).hello with
  | some h => if s.fabSt l = flFAULT ∧ s.helloCheck l h = 0 then .next (s.linkResync l h) else .next s
  | none => .next s

/-- 1 ms in RESYNC (R418). -/
def execResyncTimeout (l : Fin 4) (s : State) : Outcome State Fault Refusal :=
  if s.fabSt l = flRESYNC then .next (s.linkHold l 4) else .next s

/-- Block lock lost for 10 µs (R418). -/
def execBlockLockLoss (l : Fin 4) (s : State) : Outcome State Fault Refusal :=
  let up := s.linkUp l
  let s := (s.set (pFAB l) FAB.STAT_BLOCK_LOCK 0).set (pFAB l) FAB.STAT_FEC_LOCK 0
  if up then .next (s.linkHold l 1) else .next s

/-- 20 µs without a frame that passes its CRC (R418). -/
def execLinkSilent (l : Fin 4) (s : State) : Outcome State Fault Refusal :=
  if s.linkUp l then .next (s.linkHold l 2) else .next s

/-- The hold time is over (R418). -/
def execHoldEnd (l : Fin 4) (s : State) : Outcome State Fault Refusal :=
  if s.fabSt l = flHOLD then .next ((s.set (pFAB l) FAB.STAT_FLAP 0).linkTrain l).coordCheck else .next s

/-- 150 ms since the link first left DOWN (R421). -/
def execCoordWaitExpire (l : Fin 4) (s : State) : Outcome State Fault Refusal :=
  if s.fabSt l = flDOWN then .next s
  else .next (s.setFab l { s.fab l with waited := true }).coordCheck

/-! ## Sequence, replay and credits (R425 to R427) -/

/-- A replay (R425): every unacknowledged parcel again; the sixteenth without progress takes the link
to HOLD. -/
def State.replay (s : State) (l : Nat) : State :=
  let x := s.fab l
  if x.unacked = [] then s
  else
    let s := x.unacked.foldl (fun (s : State) p => s.send (.parcel l p true)) s
    let s := s.incF (pFAB l) ⟨FAB.REPLAY, 31, 16⟩
    let s := s.setFab l { x with replays := x.replays + 1 }
    if 16 ≤ x.replays + 1 then (s.err (pFAB l) (blk 3)).linkHold l 3 else s

/-- Whether a link carries parcels and control frames of R424: RESYNC or UP. -/
def State.linkLive (s : State) (l : Nat) : Bool := s.linkUp l || decide (s.fabSt l = flRESYNC)

/-- STATUS is sent (R424). -/
def execStatusTx (l : Fin 4) (s : State) : Outcome State Fault Refusal :=
  if s.linkLive l then
    let x := s.fab l
    .next (s.send (.lcf l (.status { ack := x.rxNext, nak := x.nak, freed := x.freed })))
  else .next s

/-- Credits returned on one VC (R426). -/
def State.creditReturn (s : State) (l v freed : Nat) : State :=
  let x := s.fab l
  if x.resync.testBit v then s
  else
    let d := (freed + 65536 - x.last.getD v 0) % 65536
    let c := s.get (pFAB l) (credFld v) + d
    let s := s.setFab l { x with last := x.last.set v (freed % 65536) }
    if vcCredits v < c then
      let s := ((s.set (pFAB l) (credFld v) (vcCredits v)).incF (pFAB l) FAB.CREDERR_ERR).err (pFAB l) (blk 2)
      s.resyncStart l (2 ^ v)
    else s.set (pFAB l) (credFld v) c

/-- A STATUS (R425, R426): acknowledgement, credits, NAK.  Injection point 1 raises FREED1 by B_1 + 1
(R569). -/
def execStatusRx (l : Fin 4) (m : LinkStatus) (s : State) : Outcome State Fault Refusal :=
  if !s.linkLive l then .next s
  else
    let r := s.injTake (pFAB l) 1
    let s := r.2
    let m := if r.1 then { m with freed := m.freed.modify 1 (fun n => (n + vcCredits 1 + 1) % 65536) } else m
    let x := s.fab l
    let keep := x.unacked.filter (fun p => decide ((p.lsn + 4096 - m.ack % 4096) % 4096 < 2048))
    let s := s.setFab l { x with
      unacked := keep, replays := if keep.length < x.unacked.length then 0 else x.replays }
    let s := (List.range 4).foldl (fun (s : State) v => s.creditReturn l v (m.freed.getD v 0)) s
    let s := if m.nak then s.replay l else s
    .next s.pump

/-- 10 µs without acknowledgement (R425). -/
def execReplayTimeout (l : Fin 4) (s : State) : Outcome State Fault Refusal :=
  if s.linkLive l then .next (s.replay l).pump else .next s

/-- The peer asks for a resynchronisation (R427). -/
def execResyncReqRx (l : Fin 4) (mask : Fin 16) (next : Fin 4096) (s : State) : Outcome State Fault Refusal :=
  if s.linkLive l then .next ((s.setFab l { s.fab l with req := some (mask.val, next.val) }).sweep l) else .next s

/-- The peer's answer (R427): full credits; in RESYNC the link comes UP once all four VCs are done (R418). -/
def execResyncAckRx (l : Fin 4) (mask : Fin 16) (freed : List Nat) (s : State) : Outcome State Fault Refusal :=
  if !s.linkLive l then .next s
  else
    let m := mask.val &&& (s.fab l).resync
    let s := (bitsSet 4 m).foldl (fun (s : State) v =>
      let x := s.fab l
      (s.setFab l { x with last := x.last.set v (freed.getD v 0 % 65536) }).set (pFAB l) (credFld v) (vcCredits v)) s
    let x := s.fab l
    let s := s.setFab l { x with resync := x.resync - m }
    if x.resync - m ≠ 0 then .next s
    else
      let s := s.set (pFAB l) FAB.STAT_RESYNC_PEND 0
      if s.fabSt l = flRESYNC then
        .next ((s.setFabSt l flUP).ev (pFAB l) (blk 1)).coordCheck.pump
      else .next s.pump

/-- 10 µs without the answer (R427). -/
def execResyncReqResend (l : Fin 4) (s : State) : Outcome State Fault Refusal :=
  let x := s.fab l
  if s.linkLive l ∧ x.resync ≠ 0 then .next (s.send (.lcf l (.resyncReq x.resync x.txNext))) else .next s

/-! ## Reception (R423, R425, R431 to R433) -/

/-- A parcel that is not accepted: NAK until the expected one comes. -/
def State.nakSet (s : State) (l : Nat) : State :=
  let x := s.fab l
  if x.nak then s else (s.setFab l { x with nak := true }).incF (pFAB l) ⟨FAB.REPLAY, 15, 0⟩

/-- Size of a VC's receive buffer in bytes. -/
def vcBytes (v : Nat) : Nat := 64 * vcCredits v

/-- An accepted parcel that is discarded: its credits return at once. -/
def State.discardRx (s : State) (l : Nat) (p : Parcel) : State := s.addFreed l (p.vc % 4) (credits p.len)

/-- The SEQ of a TIME parcel and its arrival (R434). -/
def State.timeArrive (s : State) (l : Nat) (p : Parcel) : State :=
  match p.body with
  | .bytes b => if p.kind = kdTIME then s.setFab l { s.fab l with timeRx := (ofLE ((b.drop 0x1C).take 2), s.beam.t) } else s
  | _ => s

/-- Put an accepted parcel into the receive buffer of its VC, with what is still to be done with it. -/
def State.bufferRx (s : State) (l : Nat) (e : FabEntry) : State := (s.setRx l ((s.fab l).rx ++ [e])).sweep l

/-- An accepted parcel of a known kind: kept for its consumer, forwarded, flooded or discarded. -/
def State.acceptRx (s : State) (l : Nat) (p : Parcel) : State :=
  let p := { p with ttl := p.ttl - 1 }
  if p.flood then
    let r := s.floodTake p
    if !r.1 then r.2.discardRx l p
    else
      let s := r.2
      let o := s.floodOuts p l
      let s := if o.1 ≠ [] ∧ p.ttl = 0 then s.incF pFABR FABR.ROUTE_CNT_TTL else s
      s.bufferRx l { p := p, outs := if p.ttl = 0 then [] else o.1, enter := o.2, wait := kindWaits p.kind }
  else if p.dst = s.addr ∨ p.kind = kdTIME then
    (s.timeArrive l p).bufferRx l { p := p, wait := kindWaits p.kind }
  else if p.ttl = 0 then (s.incF pFABR FABR.ROUTE_CNT_TTL).discardRx l p
  else
    let r := s.routeOf p l
    match r.2 with
    | some (q, o, en) => r.1.bufferRx l { p := q, outs := [o], enter := if en then [o] else [] }
    | none => (r.1.unreach p).discardRx l p

/-- Room of the BULK ring (R439): parcels whose record has room are written. -/
def State.bulkTake (s : State) (l : Nat) : State :=
  (s.fab l).rx.foldl (fun (s : State) e =>
    if e.p.kind ≠ kdBULK ∨ !e.wait then s
    else
      let size := s.reg pFABR FABR.BULK_SIZE % 65536 * 65536
      let take (s : State) : State := (s.setRx l (((s.fab l).rx).map (fun f => if f = e then { f with wait := false } else f))).sweep l
      if size = 0 then take s
      else
        let base := s.reg pFABR FABR.BULK_BASE_LO / 65536 * 65536 + s.reg pFABR FABR.BULK_BASE_HI % 256 * 2 ^ 32
        let body := match e.p.body with
          | .bytes b => (b ++ List.replicate (4 * e.p.len) 0).take (4 * e.p.len)
          | _ => List.replicate (4 * e.p.len) 0
        match s.ringPut base size (s.reg pFABR FABR.BULK_WR) (s.reg pFABR FABR.BULK_RD) body (fun _ => []) with
        | none => s
        | some (s, wr) => take ((s.setReg pFABR FABR.BULK_WR wr).ev pFABR (blk 2))) s

/-- BULK parcels that wait in any buffer, after the ring has more room. -/
def State.bulkRetry (s : State) : State := ((List.range 4).foldl (fun (s : State) l => s.bulkTake l) s).pump

/-- A parcel arrives, `none` for one whose CRC fails (R423, R425, R433). -/
def execParcelRx (l : Fin 4) (p : Option Parcel) (s : State) : Outcome State Fault Refusal :=
  if !s.linkLive l then .next s
  else
    match p with
    | none => .next ((s.incSat (pFAB l) FAB.CRCERR).nakSet l)
    | some p =>
      let x := s.fab l
      if p.lsn % 4096 ≠ x.rxNext then .next (s.nakSet l)
      else
        let s := s.setFab l { x with rxNext := (x.rxNext + 1) % 4096, nak := false }
        let s := s.inc (pFAB l) FAB.RXCNT
        if p.len = 0 ∨ vcBytes p.vc < 4 * p.len then
          .next ((s.incF (pFAB l) FAB.DISCARD_LEN).discardRx l p).pump
        else if kindVc p.kind ≠ some p.vc then
          .next (((s.incF (pFAB l) FAB.DISCARD_KIND).discardRx l p).sweep l).pump
        else .next (((s.acceptRx l p).bulkTake l).sweep l).pump

/-! ## ANNOUNCE (R435, R440) -/

/-- ANNOUNCE is flooded every 100 ms by a configured device with COORD_OK (R421, R435). -/
def execAnnounceTx (s : State) : Outcome State Fault Refusal :=
  if s.fabConf && s.coordOk then
    let s := (s.setFineBit s.addr s.fineLock).lagUpdate
    .next (s.fabFlood kdANNOUNCE 0 (leBytes 4 (s.reg pFABR FABR.SYS_ID) ++ leBytes 2 (s.get pBEADS BEADS.DEV_STAT_BOOT) ++
      [s.ms, s.get pBEAM BEAM.STAT_LOCK, s.linksUp + 16 * maskOf s.linksEn] ++ List.replicate 7 0))
  else .next s

/-- The first parcel of a kind that waits for its consumer: at link 0 to 3, or from this device itself. -/
def State.waiting (s : State) (l : Nat) (kinds : List Nat) : Option Parcel :=
  if l < 4 then ((s.fab l).rx.find? (fun e => e.wait && kinds.contains e.p.kind)).map FabEntry.p
  else s.router.loop.find? (fun p => kinds.contains p.kind)

/-- Take that parcel: its credits are freed once no link needs it. -/
def State.takeWaiting (s : State) (l : Nat) (kinds : List Nat) : State :=
  if l < 4 then
    let rx := (s.fab l).rx
    match rx.findIdx? (fun e => e.wait && kinds.contains e.p.kind) with
    | none => s
    | some i => ((s.setRx l (rx.modify i (fun e => { e with wait := false }))).sweep l).pump
  else
    let x := s.router
    match x.loop.findIdx? (fun p => kinds.contains p.kind) with
    | none => s
    | some i => s.setRouter { x with loop := x.loop.eraseIdx i }

/-- The bytes of a parcel's body. -/
def Parcel_data (p : Parcel) : List Nat :=
  match p.body with
  | .bytes b => b
  | _ => []

/-- What an ANNOUNCE changes: entry, REACH, FINE, and the notice of a new BOOT. -/
def State.announce (s : State) (a : Nat) (b : List Nat) : State :=
  let boot := ofLE ((b.drop 4).take 2)
  if a = s.addr then
    if boot ≠ s.get pBEADS BEADS.DEV_STAT_BOOT then s.err pDISC (blk 0) else s
  else
    let old := s.discOf a
    let x := s.router
    let d : DiscX := { boot := boot, ms := b.getD 6 0 % 8, lock := b.getD 7 0, links := b.getD 8 0, t := s.beam.t }
    let s := s.setRouter { x with disc := (x.disc.filter (fun e => !(e.1 == a))) ++ [(a, d)] }
    let s := match old with
      | some o => if o.boot ≠ boot then (s.fabNotice a).ev pDISC (blk 1) else s
      | none => s
    let s := (s.setReach a true).setFineBit a (decide (d.lock = 3))
    s.lagUpdate.homeReachChanged.homeRoles

/-- An ANNOUNCE is taken from a receive buffer (R440). -/
def execAnnounceRx (l : Fin 4) (s : State) : Outcome State Fault Refusal :=
  match s.waiting l [kdANNOUNCE] with
  | none => .next s
  | some p => .next ((s.takeWaiting l [kdANNOUNCE]).announce p.src (Parcel_data p))

/-- No ANNOUNCE for UNREACH_MS (R440). -/
def execDeviceUnreachable (a : Fin 4096) (s : State) : Outcome State Fault Refusal :=
  if a.val ≠ s.addr ∧ s.discReach a then
    .next (((s.setReach a false).fabNotice a).lagUpdate.homeReachChanged)
  else .next s

/-! ## The transaction engine (R437) -/

/-- Address of a descriptor. -/
def State.txqAt (s : State) (i : Nat) : Nat :=
  s.reg pFABR FABR.TXQ_BASE_LO / 32 * 32 + s.reg pFABR FABR.TXQ_BASE_HI % 256 * 2 ^ 32 + 32 * i

/-- Number of descriptors of the ring. -/
def State.txqSize (s : State) : Nat := s.reg pFABR FABR.TXQ_SIZE % 65536

/-- A descriptor completes: CODE, RFLAGS, ACCEPTED, DONE. -/
def State.txqDone (s : State) (i code rflags accepted : Nat) : State :=
  let a := s.txqAt i
  let f := (s.memByte (a + 8)).toNat
  let s := s.setMemBytes (a + 8) ([f ||| 128, code, rflags])
  let s := s.setMemBytes (a + 12) (leBytes 2 accepted)
  (s.setReg pFABR FABR.TXQ_DONE ((i + 1) % (max 1 s.txqSize))).ev pFABR (blk 1)

/-- The next TAG that no outstanding request has. -/
def nextTag : Nat → List Txn → Nat → Nat
  | 0, _, t => t
  | n + 1, l, t => if l.any (fun x => x.tag == t) then nextTag n l ((t + 1) % 65536) else t

/-- Take the next descriptor. -/
def State.txqTake (s : State) : State :=
  let i := s.reg pFABR FABR.TXQ_RD % 65536
  let a := s.txqAt i
  let dst := s.memLE a 2 % 4096
  let page := s.memLE (a + 2) 2 % 4096
  let off := s.memLE (a + 4) 2 % 4096
  let count := s.memLE (a + 6) 2
  let f := s.memLE (a + 8) 1
  let buf := s.memLE (a + 16) 8
  let s := s.setReg pFABR FABR.TXQ_RD ((i + 1) % (max 1 s.txqSize))
  if count = 0 ∨ 256 < count then s.txqDone i 5 0 0
  else
    let wr := f.testBit 0
    let x := s.router
    let tag := nextTag 257 x.txns ((x.tag + 1) % 65536)
    let t : Txn := { tag := tag, idx := i, dst := dst, count := count, wr := wr, wake := f.testBit 1, buf := buf / 4 * 4 }
    let s := s.setRouter { x with tag := tag, txns := x.txns ++ [t] }
    let b := [b2n wr, 0] ++ leBytes 2 page ++ leBytes 2 off ++ leBytes 2 count ++
      (if wr then s.memBytes t.buf (4 * count) else [])
    s.fabSend kdBREQ dst (.bytes b) (2 + (if wr then count else 0)) tag t.wake

/-- Descriptors in ring order while fewer than 256 requests are outstanding. -/
def txqLoop : Nat → State → State
  | 0, s => s
  | n + 1, s =>
    if s.txqSize = 0 ∨ s.reg pFABR FABR.TXQ_RD % 65536 = s.reg pFABR FABR.TXQ_WR % 65536 ∨ 256 ≤ s.router.txns.length then s
    else txqLoop n s.txqTake

/-- The engine runs. -/
def State.txqRun (s : State) : State := txqLoop s.txqSize s

/-- TXQ_WR is written (R437). -/
def State.txqWrWrite (s : State) (v : Word) : State := (s.setReg pFABR FABR.TXQ_WR (v.toNat % 65536)).txqRun

def execTxqWrWrite (w : Writer) (v : Word) (s : State) : Outcome State Fault Refusal :=
  .next (finish w pFABR (s.actionWrite w pFABR (fun s => (s.txqWrWrite v, .ok))))

/-- Registers of FABR whose writes act. -/
def State.fabrRegWrite (s : State) (off : Nat) (v : Word) : Option (State × Code) :=
  if off = FABR.ADDR_CFG ∨ off = FABR.SYS_ID then some (s.fabrCfgWrite off v)
  else if off = FABR.TXQ_WR then some (s.txqWrWrite v, .ok)
  else if off = FABR.BULK_RD then some ((s.setWord pFABR FABR.BULK_RD v).bulkRetry, .ok)
  else none

/-- Registers of FABR and DISC that are views. -/
def State.fabrReg (s : State) (off : Nat) : Option Nat := if off = FABR.STAT then some s.fabrStat else none
def State.discReg (s : State) (off : Nat) : Option Nat :=
  if off = DISC.STAT then some s.discStat
  else if off = DISC.ENTRY then some s.discEntry
  else if off = DISC.ENTRY_AGE then some s.discAge
  else none

/-- A request ends. -/
def State.txnEnd (s : State) (t : Txn) (code rflags accepted : Nat) : State :=
  let x := s.router
  ((s.setRouter { x with txns := x.txns.filter (fun y => !(y.tag == t.tag)) }).txqDone t.idx code rflags accepted).txqRun

/-- No response within TMO (R437). -/
def execTxnTimeout (tag : Fin 65536) (s : State) : Outcome State Fault Refusal :=
  match s.router.txns.find? (fun t => t.tag == tag.val) with
  | none => .next s
  | some t => .next ((s.incF pFABR FABR.TXN_CNT_TIMEOUT).txnEnd t 6 0 0)

/-- A response is taken (R436, R437): it completes its descriptor; a late one is discarded. -/
def execBrspRx (l : Fin 5) (s : State) : Outcome State Fault Refusal :=
  match s.waiting l [kdBRSP] with
  | none => .next s
  | some p =>
    let s := s.takeWaiting l [kdBRSP]
    match s.router.txns.find? (fun t => t.tag == p.tag) with
    | none => .next (s.incF pFABR FABR.TXN_CNT_LATE)
    | some t =>
      let b := Parcel_data p
      let code := b.getD 0 0 % 8
      let s := if !t.wr ∧ code = 0 then s.setMemBytes t.buf ((b.drop 4).take (4 * t.count)) else s
      .next (s.txnEnd t code (b.getD 1 0) (ofLE ((b.drop 2).take 2)))

/-- A parcel not taken within 10 ms (R439). -/
def execDeliverDrop (l : Fin 5) (s : State) : Outcome State Fault Refusal :=
  let ks := [kdANNOUNCE, kdBREQ, kdBRSP, kdBULK]
  match s.waiting l ks with
  | none => .next s
  | some p =>
    let s := (s.takeWaiting l ks).incF pFABR FABR.NOROUTE_CNT_DELIVER_DROP
    .next (if p.kind = kdBREQ then (s.originate (localAnswer p false true)).pump else s)

end Sys2Proof.Machine
end

