-- ==== Sys2Proof/Machine/Gate.lean ====
section
/-! DEFINITION. Sessions, grants, tunnels and plant Ethernet (spec/18, R449 to R465, R469, R471).  Page reads and
writes of sessions are in Access files. -/

namespace Sys2Proof.Machine

open Host (Outcome)

/-! ## Responses (R451) -/

/-- A response's bytes. -/
def respBytes (ty chan tag code rflags accepted : Nat) (data : List Nat) : List Nat :=
  [ty ||| 128, code, chan, rflags] ++ leBytes 4 tag ++ leBytes 2 accepted ++ List.replicate 6 0 ++ data

/-- Send a session's client a message: over its connection, or through the tunnel to its entry. -/
def State.sessSend (s : State) (n : Nat) (b : List Nat) : State :=
  let x := s.ses n
  if !x.isOpen then s
  else if x.kind = 2 then
    s.tunData x.entry topRSP { esess := x.ref % 1024, chan := x.chan, tsess := n, data := b }
  else s.send (.sessMsg n b)

/-- Answer a request. -/
def State.sessReply (s : State) (n : Nat) (r : SessReq) (code : Code) (rflags accepted : Nat) (data : List Nat) : State :=
  if r.mute then s else s.sessSend n (respBytes r.ty r.chan r.tag code.num rflags accepted data)

/-! ## The gate's decision (R452 to R459) -/

/-- A request's header (R451). -/
def parseReq (b : List Nat) : SessReq :=
  { ty := b.getD 0 0, wake := (b.getD 1 0).testBit 0, chan := b.getD 2 0, tag := ofLE ((b.drop 4).take 4)
    page := ofLE ((b.drop 8).take 2) % 4096, off := ofLE ((b.drop 10).take 2) % 4096
    count := ofLE ((b.drop 12).take 2), data := b.drop 16 }

/-- INTEGRITY (R452): too short, MTYPE not listed, or a byte marked 0 that is not 0. -/
def reqBad (b : List Nat) : Bool :=
  decide (b.length < 16) || !([1, 2, 3, 4, 8].contains (b.getD 0 0)) || b.getD 3 0 != 0 || b.getD 14 0 != 0 ||
    b.getD 15 0 != 0

/-- Data bytes that COUNT gives. -/
def reqData (r : SessReq) : Nat :=
  match r.ty with
  | 2 => 4 * r.count
  | 8 => r.count
  | _ => 0

/-- BAD_LENGTH (R32, R452). -/
def reqLenBad (r : SessReq) : Bool :=
  match r.ty with
  | 1 | 2 =>
    decide (r.count = 0) || decide (256 < r.count) || decide (r.data.length ≠ reqData r) || decide (r.off % 4 ≠ 0) ||
      decide (4096 < r.off + 4 * r.count)
  | 8 => decide (2032 < r.count) || decide (r.data.length ≠ reqData r)
  | _ => decide (r.data.length ≠ 0)

/-- Cost in tokens (R458). -/
def reqCost (r : SessReq) : Nat :=
  match r.ty with
  | 1 | 2 => max 1 ((min r.count 256 + 15) / 16)
  | 8 => max 1 ((min r.count 2032 + 63) / 64)
  | _ => 1

/-- The channel of an entry session. -/
def SessX_chan (x : SessX) (c : Nat) : Option ChanX := x.chans.find? (fun e => e.c == c)

/-- NO_PAGE (R455, R462 to R464). -/
def State.reqNoPage (s : State) (n : Nat) (r : SessReq) : Bool :=
  let ctl := s.grantWord n 0
  match r.ty with
  | 1 | 2 => decide (s.rights n r.page = 0) || (ownerPage r.page).isNone
  | 8 => !ctl.testBit 28
  | 3 =>
    let t := s.grantWord n 0xC
    !(ctl.testBit 29 && decide (t % 4096 ≤ r.page) && decide (r.page ≤ bitsOf t 27 16) && decide (r.page ≠ s.addr) &&
      decide (1 ≤ r.chan) && decide (r.chan ≤ 15) && (SessX_chan (s.ses n) r.chan).isNone)
  | _ => (SessX_chan (s.ses n) r.chan).isNone

/-- Requests of a session that are outstanding. -/
def SessX_out (x : SessX) : Nat := x.passed.length + x.svc.length

/-- Whether a request waits for its page's domain to wake (R54, R456): WAKE is set, the page's ranges have the
WAKE right, and a word beyond PG_STAT is named. -/
def State.reqWaits (s : State) (n : Nat) (r : SessReq) : Bool :=
  (r.ty == 1 || r.ty == 2) && r.wake && (s.rights n r.page).testBit 5 && decide (12 < r.off + 4 * r.count) &&
    (match ownerPage r.page with
      | some o => decide (s.dom (pageDom o) ≠ .active)
      | none => false)

/-- The gate decides on one message of a session. -/
def State.decide1 (s : State) (n : Nat) (b : List Nat) : State :=
  let x := s.ses n
  let r := parseReq b
  if reqBad b then
    s.sessSend n (respBytes (b.getD 0 0) (b.getD 2 0) (if 8 ≤ b.length then r.tag else 0) 7 0 0 [])
  else if r.chan ≠ 0 ∧ (r.ty = 1 ∨ r.ty = 2 ∨ r.ty = 8) ∧ x.kind ≠ 2 then
    match SessX_chan x r.chan with
    | some c =>
      if !c.up then (s.setSes n { x with nopage := min (x.nopage + 1) 0xFFFFFFFF }).sessReply n r .noPage 0 0 []
      else if 4076 < b.length then s.sessReply n r .badLength 0 0 []
      else s.tunData c.dst topREQ { esess := n, chan := c.c, tsess := c.tsess, data := b }
    | none => (s.setSes n { x with nopage := min (x.nopage + 1) 0xFFFFFFFF }).sessReply n r .noPage 0 0 []
  else if s.reqNoPage n r then
    (s.setSes n { x with nopage := min (x.nopage + 1) 0xFFFFFFFF }).sessReply n r .noPage 0 0 []
  else
    let cost := 1000 * reqCost r
    if x.bucket < cost then s.sessReply n r .busy 0 0 []
    else
      let s := s.setSes n { x with bucket := x.bucket - cost }
      if reqLenBad r then s.sessReply n r .badLength 0 0 []
      else
        let x := s.ses n
        let s := s.setSes n { x with passed := x.passed ++ [r] }
        match ownerPage r.page with
        | some o => if s.reqWaits n r then s.wakeDom (pageDom o) else s
        | none => s

/-- 1.0 µs after decryption the gate decides on a session's oldest message (R459), at most 64 requests being
outstanding (R453). -/
def execGateDecision (n : Fin 1024) (s : State) : Outcome State Fault Refusal :=
  let x := s.ses n
  match x.inq with
  | [] => .next s
  | b :: rest =>
    if !x.isOpen || x.rekey || decide (64 ≤ SessX_out x) || decide (s.dom .rd ≠ .active) then .next s
    else .next ((s.setSes n { x with inq := rest }).decide1 n b)

/-- Every millisecond of the gate's clock (R458). -/
def execTokenRefill (s : State) : Outcome State Fault Refusal :=
  .next (s.openSess.foldl (fun (s : State) n =>
    let x := s.ses n
    s.setSes n { x with bucket := min (x.bucket + s.grantWord n 4 % 2 ^ 24) (1000 * (s.grantWord n 8 % 65536)) }) s)

/-- The oldest request past the gate that has not to wait for a domain's wake. -/
def State.nextReq (s : State) (n : Nat) : Option (Nat × SessReq) :=
  let l := (s.ses n).passed
  match l.findIdx? (fun r => !s.reqWaits n r) with
  | none => none
  | some i => (l[i]?).map (fun r => (i, r))

/-- Take that request where it has the type asked. -/
def State.takeReq (s : State) (n ty : Nat) : Option (SessReq × State) :=
  match s.nextReq n with
  | none => none
  | some (i, r) =>
    if r.ty = ty then
      let x := s.ses n
      some (r, s.setSes n { x with passed := x.passed.eraseIdx i })
    else none

/-! ## Service messages (R462) -/

/-- SERVICE: a record in the service ring. -/
def execService (n : Fin 1024) (s : State) : Outcome State Fault Refusal :=
  match s.takeReq n 8 with
  | none => .next s
  | some (r, s) =>
    let size := s.reg pGATE GATE.SVC_SIZE % 65536 * 65536
    let base := s.reg pGATE GATE.SVC_BASE_LO / 65536 * 65536 + s.reg pGATE GATE.SVC_BASE_HI % 256 * 2 ^ 32
    let l := leBytes 2 r.count ++ leBytes 2 n ++ [r.chan, 0, 0, 0] ++ leBytes 4 (s.grantWord n 0) ++ leBytes 4 r.tag ++ r.data
    let l := l ++ List.replicate ((16 - l.length % 16) % 16) 0
    if size = 0 then .next (s.sessReply n r .busy 0 0 [])
    else
      match s.ringPut base size (s.reg pGATE GATE.SVC_WR) (s.reg pGATE GATE.SVC_RD) l (fun _ => []) with
      | none => .next (s.sessReply n r .busy 0 0 [])
      | some (s, wr) =>
        let s := (s.setReg pGATE GATE.SVC_WR wr).ev pGATE (blk 3)
        let x := s.ses n
        .next (if r.mute then s else s.setSes n { x with svc := x.svc ++ [r.tag] })

/-- SVC_RSP_CTL is written: GO sends firmware's reply. -/
def State.svcRspWrite (s : State) (v : Word) : State :=
  let s := s.setWord pGATE GATE.SVC_RSP_CTL (maskW v 0x73FF07FF)
  if v.toNat / 2 ^ 31 = 0 then s
  else
    let n := bitsOf v.toNat 25 16
    let len := v.toNat % 2048
    let tag := s.reg pGATE GATE.SVC_RSP_TAG
    let data := s.memBytes (s.reg64 pGATE GATE.SVC_RSP_LO) len
    let x := s.ses n
    let s := s.setSes n { x with svc := x.svc.erase tag }
    s.sessSend n (respBytes 8 x.chan tag (bitsOf v.toNat 30 28) 0 0 data)

def execServiceReply (w : Writer) (v : Word) (s : State) : Outcome State Fault Refusal :=
  .next (finish w pGATE (s.actionWrite w pGATE (fun s => (s.svcRspWrite v, .ok))))

/-! ## Opening and closing (R457, R460, R463) -/

/-- Show the oldest tunnel request. -/
def State.showReq (s : State) : State :=
  match s.gate.reqs with
  | [] => ((s.setReg pGATE GATE.TUN_REQ 0).setReg pGATE GATE.TUN_REQ_ID_LO 0).setReg pGATE GATE.TUN_REQ_ID_HI 0
  | r :: _ =>
    let s := s.setReg pGATE GATE.TUN_REQ (2 ^ 31 + r.src * 2 ^ 16 + r.chan % 16 * 2 ^ 12 + r.esess % 1024)
    (s.setReg pGATE GATE.TUN_REQ_ID_LO (ofLE (r.id.take 4))).setReg pGATE GATE.TUN_REQ_ID_HI (ofLE ((r.id.drop 4).take 4))

/-- SESS_CMD.OPEN (R460): the slot and its keys; for a session whose client changes its keys, the new keys
(R450). -/
def State.sessOpen (s : State) : State × Code :=
  let n := s.reg pGATE GATE.SESS_SEL % 1024
  let x := s.ses n
  let keys := s.memBytes (s.reg64 pGATE GATE.KEYADDR_LO) 88
  if x.isOpen && x.rekey then (s.setSes n { x with keys := keys, rekey := false }, .ok)
  else if x.isOpen || !s.grantValid n || !s.en pGATE then refuse s pGATE (blk 1) .writeRefused
  else
    let c := s.reg pGATE GATE.OPEN_CFG
    let kind := if c / 2 ^ 30 = 3 then 0 else c / 2 ^ 30
    let ref := s.reg pGATE GATE.OPEN_REF % 65536
    let entry := bitsOf c 27 16
    let y : SessX := { x with
      isOpen := true, kind := kind, entry := entry, chan := if kind = 2 then c % 16 else 0, ref := ref
      bucket := 1000 * (s.grantWord n 8 % 65536), nopage := 0, keys := keys, rekey := false, chans := [], inq := [], svc := [] }
    let s := (s.setSes n y).ev pGATE (blk 0)
    if kind = 2 then
      let g := s.gate
      let s := (s.setGate { g with reqs := g.reqs.filter (fun r =>
        !(r.src == entry && r.chan == c % 16 && r.esess == ref % 1024)) }).showReq
      (s.tunSend entry topACK { code := 0, esess := ref % 1024, chan := c % 16, tsess := n }, .ok)
    else
      let e := tabGet (fun _ => {}) s.eths kind
      ({ s with eths := tabPut (fun _ => {}) s.eths kind { e with hs := e.hs.erase ref } }, .ok)

/-- SESS_CMD.REFUSE (R463): the shown request is answered BUSY. -/
def State.sessRefuse (s : State) : State :=
  let g := s.gate
  match g.reqs with
  | [] => s
  | r :: rest =>
    ((s.setGate { g with reqs := rest }).showReq).tunSend r.src topACK { code := 4, esess := r.esess, chan := r.chan }

/-- SESS_CMD is written. -/
def State.sessCmd (s : State) (v : Word) : State × Code :=
  let r : State × Code := if v.toNat.testBit 0 then s.sessOpen else (s, .ok)
  let s := if v.toNat.testBit 1 then r.1.closeSess (r.1.reg pGATE GATE.SESS_SEL % 1024) 4 else r.1
  (if v.toNat.testBit 2 then s.sessRefuse else s, r.2)

def execSessOpen (w : Writer) (s : State) : Outcome State Fault Refusal :=
  .next (finish w pGATE (s.actionWrite w pGATE (fun s => s.sessCmd 1)))

def execSessClose (w : Writer) (s : State) : Outcome State Fault Refusal :=
  .next (finish w pGATE (s.actionWrite w pGATE (fun s => s.sessCmd 2)))

def execSessRefuse (w : Writer) (s : State) : Outcome State Fault Refusal :=
  .next (finish w pGATE (s.actionWrite w pGATE (fun s => s.sessCmd 4)))

/-- No request for IDLE seconds (R460). -/
def execSessionIdle (n : Fin 1024) (s : State) : Outcome State Fault Refusal := .next (s.closeSess n 3)

/-- The peer closes, or TCP resets (R460). -/
def execSessionPeerClose (n : Fin 1024) (reset : Bool) (s : State) : Outcome State Fault Refusal :=
  .next (s.closeSess n (if reset then 2 else 1))

/-- A GATE commit has applied (R457): a slot without VALID closes, a lower DEPTH lowers the bucket. -/
def State.gateApplied (s : State) : State :=
  s.openSess.foldl (fun (s : State) n =>
    if !s.grantValid n then s.closeSess n 5
    else
      let x := s.ses n
      let d := 1000 * (s.grantWord n 8 % 65536)
      if d < x.bucket then s.setSes n { x with bucket := d } else s) s

/-- GATE registers that are views (R469). -/
def State.gateReg (s : State) (off : Nat) : Option Nat :=
  let x := s.ses (s.reg pGATE GATE.SESS_SEL % 1024)
  if off = GATE.STAT then
    some ((s.openSess.filter (fun n => (s.ses n).kind == 2)).length * 2 ^ 16 + s.openSess.length)
  else if off = GATE.SESS_STAT then
    some (2 ^ 31 * b2n x.isOpen + 2 ^ 29 * x.kind + 2 ^ 24 * x.reason + 2 ^ 16 * SessX_out x +
      maskOf ((x.chans.filter ChanX.up).map (fun c => c.c - 1)))
  else if off = GATE.SESS_TOKENS then some x.bucket
  else if off = GATE.SESS_NOPAGE then some x.nopage
  else none

/-- GATE registers whose writes act. -/
def State.gateRegWrite (s : State) (off : Nat) (v : Word) : Option (State × Code) :=
  if off = GATE.SESS_CMD then some (s.sessCmd v)
  else if off = GATE.SVC_RSP_CTL then some (s.svcRspWrite v, .ok)
  else none

/-! ## Tunnels (R463 to R465) -/

/-- OPEN_TUNNEL: the request to the target, or TIMEOUT where DISC does not show it reachable. -/
def execOpenTunnel (n : Fin 1024) (s : State) : Outcome State Fault Refusal :=
  match s.takeReq n 3 with
  | none => .next s
  | some (r, s) =>
    if r.mute then .next s
    else if !s.discReach r.page then .next (s.sessReply n r .timeout 1 0 [])
    else
      let x := s.ses n
      let s := s.setSes n { x with chans := x.chans ++ [{ c := r.chan, dst := r.page, up := false, tsess := 0, tag := r.tag }] }
      let id := leBytes 4 (s.grantWord n 0x10) ++ leBytes 4 (s.grantWord n 0x14)
      .next (s.tunSend r.page topOPEN { esess := n, chan := r.chan, data := id })

/-- Remove a channel. -/
def State.chanDrop (s : State) (n c : Nat) : State :=
  let x := s.ses n
  s.setSes n { x with chans := x.chans.filter (fun e => !(e.c == c)) }

/-- CLOSE_TUNNEL. -/
def execCloseTunnel (n : Fin 1024) (s : State) : Outcome State Fault Refusal :=
  match s.takeReq n 4 with
  | none => .next s
  | some (r, s) =>
    match SessX_chan (s.ses n) r.chan with
    | none => .next (s.sessReply n r .noPage 0 0 [])
    | some c =>
      .next (((s.chanDrop n r.chan).tunSend c.dst topCLOSE { esess := n, chan := c.c, tsess := c.tsess }).sessReply n r .ok 0 0 [])

/-- OPEN at the target: TUN_REQ, or BUSY where all 1,024 slots are open. -/
def execTunnelOpenRx (src : Fin 4096) (m : TunMsg) (s : State) : Outcome State Fault Refusal :=
  if 1024 ≤ s.openSess.length then
    .next ((s.err pGATE (blk 0)).tunSend src topACK { code := 4, esess := m.esess, chan := m.chan })
  else
    let g := s.gate
    .next (((s.setGate { g with reqs := g.reqs ++ [{ src := src, chan := m.chan, esess := m.esess, id := m.data }] }).showReq).ev
      pGATE (blk 2))

/-- The OPEN_TUNNEL that an answer belongs to. -/
def State.openingChan (s : State) (n c dst : Nat) : Option ChanX :=
  match SessX_chan (s.ses n) c with
  | some x => if !x.up ∧ x.dst = dst then some x else none
  | none => none

/-- OPEN_ACK at the entry: OK opens the channel, a late one is closed at once; BUSY ends it. -/
def execTunnelOpenAckRx (src : Fin 4096) (m : TunMsg) (s : State) : Outcome State Fault Refusal :=
  let n := m.esess % 1024
  let req (c : ChanX) : SessReq := { ty := 3, wake := false, chan := c.c, tag := c.tag, page := 0, off := 0, count := 0, data := [] }
  match s.openingChan n m.chan src with
  | none =>
    if m.code = 0 then .next (s.tunSend src topCLOSE { esess := n, chan := m.chan, tsess := m.tsess }) else .next s
  | some c =>
    if m.code = 0 then
      let x := s.ses n
      let s := s.setSes n { x with
        chans := x.chans.map (fun e => if e.c = c.c then { e with up := true, tsess := m.tsess } else e) }
      .next (s.sessReply n (req c) .ok 0 0 [])
    else .next ((s.chanDrop n c.c).sessReply n (req c) .busy 0 0 [])

/-- TUN_TMO without an answer (R463). -/
def execTunnelTimeout (n : Fin 1024) (c : Fin 16) (s : State) : Outcome State Fault Refusal :=
  match SessX_chan (s.ses n) c with
  | some x =>
    if x.up then .next s
    else
      .next ((s.chanDrop n c).sessReply n
        { ty := 3, wake := false, chan := c, tag := x.tag, page := 0, off := 0, count := 0, data := [] } .timeout 0 0 [])
  | none => .next s

/-- Join the parts of a message (R464): the whole message once both are here. -/
def State.joinFrag (s : State) (src : Nat) (m : TunMsg) (rsp : Bool) : State × Option (List Nat) :=
  if m.frag ≠ 1 ∧ m.frag ≠ 2 then (s, some m.data)
  else
    let second := decide (m.frag = 2)
    let tag := ofLE (if second then m.data.take 4 else (m.data.drop 4).take 4)
    let data := if second then m.data.drop 4 else m.data
    let g := s.gate
    match g.frags.findIdx? (fun f => f.src == src && f.esess == m.esess && f.chan == m.chan && f.tag == tag &&
        f.rsp == rsp && f.second != second) with
    | some i =>
      let other := ((g.frags[i]?).map Frag.data).getD []
      (s.setGate { g with frags := g.frags.eraseIdx i }, some (if second then other ++ data else data ++ other))
    | none =>
      (s.setGate { g with frags := g.frags ++ [{
        src := src, esess := m.esess, chan := m.chan, tsess := m.tsess, tag := tag, rsp := rsp, second := second
        data := data }] }, none)

/-- The tunnel session that a parcel from an entry names. -/
def State.tunSess (s : State) (src : Nat) (m : TunMsg) : Option Nat :=
  let n := m.tsess % 1024
  let x := s.ses n
  if x.isOpen ∧ x.kind = 2 ∧ x.entry = src ∧ x.chan = m.chan ∧ x.ref % 1024 = m.esess then some n else none

/-- REQ at the target: a request of the tunnel session. -/
def execTunnelReqRx (src : Fin 4096) (m : TunMsg) (s : State) : Outcome State Fault Refusal :=
  match s.tunSess src m with
  | none => .next s
  | some n =>
    let r := s.joinFrag src m false
    match r.2 with
    | none => .next r.1
    | some b =>
      let x := r.1.ses n
      .next (r.1.setSes n { x with inq := x.inq ++ [b] })

/-- RSP at the entry: the response to the client. -/
def execTunnelRspRx (src : Fin 4096) (m : TunMsg) (s : State) : Outcome State Fault Refusal :=
  let n := m.esess % 1024
  match SessX_chan (s.ses n) m.chan with
  | none => .next s
  | some c =>
    if !c.up ∨ c.dst ≠ src.val then .next s
    else
      let r := s.joinFrag src m true
      match r.2 with
      | none => .next r.1
      | some b => .next (r.1.sessSend n b)

/-- CLOSE: at the target its tunnel session closes, at the entry the channel (R465). -/
def execTunnelCloseRx (src : Fin 4096) (m : TunMsg) (s : State) : Outcome State Fault Refusal :=
  match s.tunSess src m with
  | some n => .next (s.closeSess n 7)
  | none =>
    match SessX_chan (s.ses (m.esess % 1024)) m.chan with
    | some c => if c.dst = src.val then .next (s.chanDrop (m.esess % 1024) c.c) else .next s
    | none => .next s

/-- A part has waited 10 ms (R464): the oldest is discarded. -/
def execFragmentTimeout (s : State) : Outcome State Fault Refusal :=
  .next (s.setGate { s.gate with frags := s.gate.frags.drop 1 })

/-! ## Plant Ethernet (R449, R450, R461, R471) -/

/-- The record of a port. -/
def State.eth (s : State) (k : Nat) : EthX := tabGet (fun _ => {}) s.eths k

/-- Store the record of a port. -/
def State.setEth (s : State) (k : Nat) (x : EthX) : State := { s with eths := tabPut (fun _ => {}) s.eths k x }

/-- Put a record into a port's receive ring; one without room is dropped. -/
def State.ethRing (s : State) (k : Nat) (b : List Nat) : State :=
  let p := pETH k
  let size := s.reg p ETH.RX_SIZE % 65536 * 65536
  let base := s.reg p ETH.RX_BASE_LO / 65536 * 65536 + s.reg p ETH.RX_BASE_HI % 256 * 2 ^ 32
  match s.ringPut base size (s.reg p ETH.RX_WR) (s.reg p ETH.RX_RD) b (fun _ => []) with
  | none => s.incSat p ETH.RX_DROP
  | some (s, wr) => (s.setReg p ETH.RX_WR wr).ev p (blk 1)

/-- A frame for firmware: to the ring, or while the RD domain rests into the 256 KiB buffer, which wakes
the domain (R461). -/
def State.ethFrame (s : State) (k : Nat) (b : List Nat) : State :=
  if s.dom .rd = .active then s.ethRing k b
  else
    let held := (List.range 2).foldl (fun n j => n + sumN ((s.eth j).held.map List.length)) 0
    if 262144 < held + b.length then (s.incSat (pETH k) ETH.RX_DROP).wakeDom .rd
    else (s.setEth k { s.eth k with held := (s.eth k).held ++ [b] }).wakeDom .rd

/-- The RD domain is active again: the frames held go to the ring. -/
def State.ethWake (s : State) : State :=
  (List.range 2).foldl (fun (s : State) k =>
    let x := s.eth k
    x.held.foldl (fun (s : State) b => s.ethRing k b) (s.setEth k { x with held := [] })) s

def execEthFrameRx (k : Fin 2) (data : List Nat) (s : State) : Outcome State Fault Refusal :=
  if s.en (pETH k) && s.flag (pETH k) ETH.STAT_LINK then
    .next ((s.inc (pETH k) ETH.RX_FRAMES).ethFrame k data)
  else .next s

/-- A connection's first record (R450): refused with an alert while every slot is open, by TCP while 64
connections are in handshake; else it goes to firmware under a handle. -/
def execConnectionArrival (k : Fin 2) (data : List Nat) (s : State) : Outcome State Fault Refusal :=
  if !(s.en (pETH k) && s.flag (pETH k) ETH.STAT_LINK) then .next s
  else
    let s := s.inc (pETH k) ETH.RX_FRAMES
    if 1024 ≤ s.openSess.length then
      .next (((s.incSat pGATE GATE.HS_REFUSED).err pGATE (blk 0)).send (.connRefused k true))
    else if 64 ≤ (s.eth 0).hs.length + (s.eth 1).hs.length then
      .next ((s.incSat pGATE GATE.HS_REFUSED).send (.connRefused k false))
    else
      let r := s.free
      let h := r.1 % 65536
      let s := r.2.setEth k { r.2.eth k with hs := (r.2.eth k).hs ++ [h] }
      .next ((s.ethFrame k data).send (.handshake k h))

/-- A record of an open session (R450): `none` where it fails its AEAD check; application data (23) goes to
the gate, a handshake record (22) to firmware, after which records wait for new keys. -/
def execRecordRx (n : Fin 1024) (ct : Nat) (m : Option (List Nat)) (s : State) : Outcome State Fault Refusal :=
  let x := s.ses n
  if !x.isOpen ∨ x.kind = 2 then .next s
  else
    match m with
    | none => .next (s.closeSess n 9)
    | some b =>
      let s := if s.dom .rd = .active then s else s.wakeDom .rd
      if ct = 23 then .next (s.setSes n { x with inq := x.inq ++ [b] })
      else if ct = 22 then .next ((s.setSes n { x with rekey := true }).ethFrame x.kind b)
      else .next s

/-- The link or the block lock of a port changes (R471). -/
def execEthLinkChg (k : Fin 2) (link lock : Bool) (s : State) : Outcome State Fault Refusal :=
  let p := pETH k
  let old := s.flag p ETH.STAT_LINK
  let s := (s.setB p ETH.STAT_LINK link).setB p ETH.STAT_BLOCK_LOCK lock
  .next (if old = link then s else s.ev p (blk 0))

/-- The refusal of a commit on ETH[k] (R471): MAC, IP4, IP6 or PORT while a session of the port is open. -/
def State.ethDenied (s : State) (k : Nat) : List Nat :=
  let p := pETH k
  let offs := [ETH.MAC_LO, ETH.MAC_HI, ETH.IP4, ETH.IP6 0, ETH.IP6 1, ETH.IP6 2, ETH.IP6 3, ETH.PORT]
  holds [((s.openSess.any (fun n => (s.ses n).kind == k)) &&
    offs.any (fun o => decide (s.stagedWord p o ≠ s.word p o)), blk 0)]

/-- TX_WR is written: the ring's bytes up to it are sent (R449); the records' bounds are not the manual's. -/
def State.ethTxWrite (s : State) (k : Nat) (v : Word) : State :=
  let p := pETH k
  let size := s.reg p ETH.TX_SIZE % 65536 * 65536
  let base := s.reg p ETH.TX_BASE_LO / 65536 * 65536 + s.reg p ETH.TX_BASE_HI % 256 * 2 ^ 32
  let rd := s.reg p ETH.TX_RD
  let wr := v.toNat
  let s := s.setWord p ETH.TX_WR v
  if size = 0 ∨ size ≤ rd ∨ size ≤ wr ∨ rd = wr ∨ !s.en p ∨ !s.flag p ETH.STAT_LINK then s
  else
    let b := if rd < wr then s.memBytes (base + rd) (wr - rd)
      else s.memBytes (base + rd) (size - rd) ++ s.memBytes base wr
    let r := s.free
    ((r.2.setReg p ETH.TX_RD wr).setReg p ETH.TX_FRAMES ((s.reg p ETH.TX_FRAMES + r.1) % 2 ^ 32)).send (.ethTx k b)

/-- ETH registers that are views or whose writes act. -/
def State.ethReg (s : State) (k off : Nat) : Option Nat :=
  if off = ETH.STAT then some (s.reg (pETH k) ETH.STAT / 2 ^ 11 * 2 ^ 11 + (s.eth k).hs.length) else none
def State.ethRegWrite (s : State) (k off : Nat) (v : Word) : Option (State × Code) :=
  if off = ETH.TX_WR then some (s.ethTxWrite k v, .ok) else none

end Sys2Proof.Machine
end

