-- ==== Sys2Proof/Machine/Therm.lean ====
section
/-! DEFINITION. The thermal watch (spec/15, R361 to R373, R387). -/

namespace Sys2Proof.Machine

open Host (Outcome)

/-! ## Temperatures (R361 to R363) -/

/-- 2⁶⁴ × (z + z³/3 + z⁵/5 + …) for z = num/den, from the power `t` of z (scaled by 2⁶⁴) and its
exponent `k`, over a number of terms. -/
def atanhSum (num den : Nat) : Nat → Nat → Nat → Nat
  | 0, _, _ => 0
  | f + 1, t, k => t / k + atanhSum num den f (t * num * num / (den * den)) (k + 2)

/-- ln m × 2⁶⁴ for m = num/den from 1 to 2. -/
def lnUnit (num den : Nat) : Nat := 2 * atanhSum (num - den) (num + den) 24 (2 ^ 64 * (num - den) / (num + den)) 1

/-- ln (num/den) × 2⁶⁴. -/
def lnFix (num den : Nat) : Int :=
  let e : Int := (Nat.log2 num : Int) - Nat.log2 den
  let a := if e < 0 then num * 2 ^ e.natAbs else num
  let b := if e < 0 then den else den * 2 ^ e.natAbs
  let (a, b, e) := if a < b then (2 * a, b, e - 1) else (a, b, e)
  e * (lnUnit 2 1 : Int) + (lnUnit a b : Int)

/-- 273.15 K in 1/16 K, times 5. -/
abbrev zeroC5 : Int := 21852

/-- A temperature in 1/16 °C from a fraction of K. -/
def celsius (num : Int) (den : Nat) : Int := divRound (16 * num * 5 - zeroC5 * den) (5 * den)

/-- The β model (R361), for resistance a/b Ω; `none` outside every temperature. -/
def ntcBeta (a b beta r25 : Nat) : Option Int :=
  let l := lnFix a (b * 10 * r25)
  let d : Int := 20 * 2 ^ 64 * beta + 5963 * l
  if 0 < d then some (celsius (5963 * 2 ^ 64 * beta) d.natAbs) else none

/-- The interpolation of a table in ln R (R361), for resistance a/b Ω and the rows (T, R in 10 Ω) in
order; `none` where it needs the logarithm of 0. -/
def ntcTab (a b : Nat) : List (Int × Nat) → Option Int
  | [] => none
  | [p] => some p.1
  | p :: q :: r =>
    if p.2 * 10 * b ≤ a then some p.1
    else if q.2 * 10 * b < a then
      if q.2 = 0 then none
      else some (p.1 + divRound ((q.1 - p.1) * (lnFix (p.2 * 10 * b) a)) (lnFix p.2 q.2))
    else ntcTab a b (q :: r)

/-- A sample's temperature: broken, valid, or a value that the manual does not state. -/
inductive ThVal where
  | broken
  | val (t : Int)
  | open_
deriving DecidableEq, Repr

/-- A temperature is implausible outside -55 °C to +200 °C. -/
def ThVal.check (t : Int) : ThVal := if t < -880 ∨ 3200 < t then .broken else .val t

/-- The temperature of an NTC code, and of a diode reading, under a TS_CFG mode; with RS. -/
def State.thConv (s : State) (i : Nat) (x : ThSample) : ThVal × Nat :=
  let mode := s.get pTHERM (THERM.TS_CFG_MODE i)
  match x with
  | .code x =>
    let a := 10000 * x.val
    let b := 65536 - x.val
    if mode = 3 ∨ 1200000 * b < a ∨ a < 20 * b then (.broken, 0)
    else if mode = 1 then
      let r25 := s.get pTHERM (THERM.TS_PAR_R25 i)
      if r25 = 0 then (.open_, 0)
      else match ntcBeta a b (s.get pTHERM (THERM.TS_PAR_BETA i)) r25 with
        | some t => (ThVal.check t, 0)
        | none => (.broken, 0)
    else
      let t := s.get pTHERM (THERM.TS_CFG_TABLE i)
      let rows := (List.range 16).map (fun p =>
        let w := s.reg pTHERM (THERM.NTC_TAB t p)
        (sxt 16 (w / 65536), w % 65536))
      match ntcTab a b rows with
      | some t => (ThVal.check t, 0)
      | none => (.open_, 0)
  | .diode v10 v40 v160 =>
    let d1 : Int := (v40 : Int) - v10
    let d2 : Int := (v160 : Int) - v40
    let rs := divRound (d2 - d1) 9000
    let rsw := (clampI 0 65535 rs).toNat
    if mode ≠ 3 ∨ 1200000000 < v10 ∨ v160 < 150000000 ∨ 500 * 90000 < d2 - d1 then (.broken, rsw)
    else
      let n := s.get pTHERM (THERM.TS_PAR_N_IDEAL i)
      if n = 0 then (.open_, rsw)
      else
        let num : Int := 16021766340 * (3 * d1 - (d2 - d1)) * 16384 * 2 ^ 64
        let den : Nat := 1380649 * 3000000000 * n * (2 * lnUnit 2 1)
        (ThVal.check (celsius num den), rsw)

/-! ## Sensors, limits, latches (R365 to R369, R372) -/

/-- Take a sample of a sensor: a broken one keeps the last temperature. -/
def State.sample (s : State) (k : Nat) (v : Option Int) (rs : Nat) : State :=
  let x := s.sens k
  match v with
  | none =>
    let s := s.setSens k { x with broken := true, seen := true, rs := rs }
    if x.broken then s else s.ev pTHERM (blk 2)
  | some t => s.setSens k { x with t := t, sum := x.sum + t, n := x.n + 1, broken := false, seen := true, rs := rs }

/-- The key of a module sensor. -/
def modSens (m j : Nat) : Nat := 64 + 16 * m + j

/-- Limit set of a sensor. -/
def State.limSet (s : State) (k : Nat) : Nat :=
  if k < 64 then s.get pTHERM (THERM.TS_CFG_LIM k) else s.get pTHERM THERM.CELL_CFG_LIM

/-- Whether the watch works on a sensor: a thermal sense input with a mode, a module sensor seen. -/
def State.sensOn (s : State) (k : Nat) : Bool :=
  if k < 64 then decide (s.get pTHERM (THERM.TS_CFG_MODE k) ≠ 0) else (s.sens k).seen

/-- All sensors: the 64 inputs and the module sensors heard of. -/
def State.sensKeys (s : State) : List Nat :=
  List.range 64 ++ (s.sensors.map Prod.fst).filter (fun k => decide (64 ≤ k))

/-- Rate in 1/16 K/min, rounded; 0 while it is invalid. -/
def SensX.rate16 (x : SensX) : Int :=
  match x.rate with
  | some r => clampI (-32768) 32767 (divRound r.1 r.2)
  | none => 0

/-- Causes and sources of a latch (R372). -/
abbrev tcABS : Nat := 1
abbrev tcRATE : Nat := 2
abbrev tcGROUP : Nat := 3
abbrev tcDIE : Nat := 4

/-- The event-area entry of a latch that goes from 0 to 1. -/
def State.thermEntry (s : State) (cause src index : Nat) (value rate : Int) (rods t : Nat) : State :=
  let pay := leBytes 8 (t / 256) ++ [0x10, cause, src, s.get pBEAM BEAM.STAT_LOCK] ++ leBytes 2 index ++
    leBytes 2 (enc 16 value) ++ leBytes 2 (enc 16 rate) ++ [0, 0] ++ leBytes 4 rods ++ List.replicate 8 0
  ((s.evtPost pay).incSat pTHERM THERM.EVT_CNT).ev pTHERM (blk 1)

/-- Latch a sensor's trip (R367), detected at beam time `t`. -/
def State.sensTrip (s : State) (k : Nat) (rate : Bool) (t : Nat) : State :=
  let x := s.sens k
  let cause := if rate then tcRATE else tcABS
  if k < 64 then
    let off := if k < 32 then THERM.TRIP_LATCH_LO else THERM.TRIP_LATCH_HI
    if s.bit pTHERM off (k % 32) then s
    else
      let s := (s.setBit pTHERM off (k % 32) true).setSens k { x with cause := rate }
      s.thermEntry cause 0 k x.t x.rate16 (s.get pTHERM (THERM.GRP_CFG_RODS (s.get pTHERM (THERM.TS_CFG_GROUP k)))) t
  else
    let r := (k - 64) / 512
    let s := if x.trip then s else s.setSens k { x with trip := true, cause := rate }
    if s.bit pTHERM THERM.CELL_LATCH r then s
    else (s.setBit pTHERM THERM.CELL_LATCH r true).thermEntry cause 1 (k - 64) x.t x.rate16 (2 ^ r) t

/-- Absolute limits of a sensor (R367). -/
def State.absEval (s : State) (k : Nat) : State :=
  let x := s.sens k
  let l := s.limSet k
  if !s.sensOn k || x.broken || !x.seen then s
  else
    let hi := s.getS pTHERM (THERM.LIM_A_WARN_HI l)
    let hyst : Int := s.get pTHERM (THERM.LIM_C_HYST l)
    let warn := if x.warn then !decide (x.t < hi - hyst) else decide (hi < x.t)
    let s := s.setSens k { x with warn := warn }
    let s := if warn && !x.warn then s.ev pTHERM (blk 0) else s
    if s.getS pTHERM (THERM.LIM_A_TRIP_HI l) < x.t then s.sensTrip k false s.beam.t else s

/-- Rate limits of a sensor (R367); `inj`: the rate is taken as RATE_TRIP + 1. -/
def State.rateEval (s : State) (k : Nat) : State :=
  let x := s.sens k
  let l := s.limSet k
  let lim : Int := s.get pTHERM (THERM.LIM_B_RATE_TRIP l)
  let (inj, s) := if k = 0 ∧ x.rate.isSome then s.injTake pTHERM 1 else (false, s)
  let x := if inj then { x with rate := some (lim + 1, 1) } else x
  if !s.sensOn k || x.broken then
    if x.rate.isNone then s.setSens k { x with rwarn := false } else s
  else
    let wl : Int := s.get pTHERM (THERM.LIM_B_RATE_WARN l)
    let hyst : Int := s.get pTHERM (THERM.LIM_C_HYST l)
    let rwarn := match x.rate with
      | none => false
      | some r => if x.rwarn then !decide (r.1 < (wl - hyst) * r.2) else decide (wl * r.2 < r.1)
    let s := s.setSens k { x with rwarn := rwarn }
    let s := if rwarn && !x.rwarn then s.ev pTHERM (blk 0) else s
    match x.rate with
    | some r => if lim * r.2 < r.1 then s.sensTrip k true s.beam.t else s
    | none => s

/-- Form the mean of the second just ended and the rate of a sensor (R365). -/
def State.meanEval (s : State) (k : Nat) : State :=
  let x := s.sens k
  let w := s.get pTHERM (THERM.LIM_C_WINDOW (s.limSet k))
  let w := if w = 0 then 10 else min w 60
  let m := if x.n = 0 then none else some (x.sum, x.n)
  let means := (m :: x.means).take 61
  let rate : Option (Int × Nat) := match m, means.getD w none with
    | some a, some b => some ((a.1 * b.2 - b.1 * a.2) * 60, a.2 * b.2 * w)
    | _, _ => none
  if x.seen then s.setSens k { x with sum := 0, n := 0, means := means, rate := rate } else s

/-- Broken sensors of a group of inputs, and of the module sensors of a rod. -/
def State.groupBroken (s : State) (g : Nat) : Nat :=
  ((List.range 64).filter (fun i => s.sensOn i && decide (s.get pTHERM (THERM.TS_CFG_GROUP i) = g) &&
    (s.sens i).broken)).length
def State.cellBroken (s : State) (r : Nat) : Nat :=
  (s.sensors.filter (fun e => decide (64 ≤ e.1 ∧ (e.1 - 64) / 512 = r) && e.2.seen && e.2.broken)).length

/-- Group faults (R369). -/
def State.groupEval (s : State) (g : Nat) : State :=
  let f := decide (s.get pTHERM (THERM.GRP_CFG_MAX_BROKEN g) < s.groupBroken g)
  let b : Fld := ⟨THERM.STAT, 16 + g, 16 + g⟩
  let s := if f && !s.flag pTHERM b then s.err pTHERM (blk 1) else s
  let s := s.setB pTHERM b f
  if f && s.flag pTHERM (THERM.GRP_CFG_FAULT_ACT g) && !s.bit pTHERM THERM.GRP_LATCH g then
    let v := s.free
    (v.2.setBit pTHERM THERM.GRP_LATCH g true).thermEntry tcGROUP 3 g (sxt 16 v.1) 0
      (s.get pTHERM (THERM.GRP_CFG_RODS g)) s.beam.t
  else s
def State.cellGroupEval (s : State) (r : Nat) : State :=
  let f := decide (s.get pTHERM THERM.CELL_CFG_MAX_BROKEN < s.cellBroken r)
  let s := if f && !s.bit pTHERM THERM.CELL_GRP_FAULT r then s.err pTHERM (blk 1) else s
  let s := s.setBit pTHERM THERM.CELL_GRP_FAULT r f
  if f && s.flag pTHERM THERM.CELL_CFG_FAULT_ACT && !s.bit pTHERM THERM.CELL_LATCH r then
    let v := s.free
    (v.2.setBit pTHERM THERM.CELL_LATCH r true).thermEntry tcGROUP 3 r (sxt 16 v.1) 0 (2 ^ r) s.beam.t
  else s

/-- Limits of a die temperature (R368). -/
def State.dieEval (s : State) (d : Nat) (t : Int) : State :=
  let wb : Fld := ⟨THERM.DIE_STAT, d, d⟩
  let tb : Fld := ⟨THERM.DIE_STAT, 16 + d, 16 + d⟩
  let s := if 1920 < t ∧ !s.flag pTHERM wb then s.ev pTHERM (blk 0) else s
  let s := s.setB pTHERM wb (decide (1920 < t))
  if 2048 < t then
    if s.flag pTHERM tb then s
    else (s.setB pTHERM tb true).thermEntry tcDIE 2 d t 0 (2 ^ 24 - 1) s.beam.t
  else if t < 1840 then s.setB pTHERM tb false
  else s

/-- The rods that a latch names have the descent cause THERMAL (R370). -/
def State.thermApply (s : State) : State :=
  let m := s.thermRods
  (bitsSet 24 m).foldl (fun s r => s.descentCause r dcTHERMAL) s

/-- A module that goes STALE makes its sensors broken (R366). -/
def State.staleModules (s : State) : State :=
  (s.sensKeys.filter (fun k => decide (64 ≤ k))).foldl (fun s k =>
    if (s.cell (64 * ((k - 64) / 16))).flag 1 then s.sample k none 0 else s) s

/-- The thermal part of a housekeeping round (R364). -/
def State.thermRound (s : State) (ts : List ThSample) (die : List Int) : State :=
  let s := s.set pTHERM ⟨THERM.STAT, 7, 0⟩ (s.reg pTHERM THERM.STAT % 256 + 1)
  let s := (ts.take 64).zipIdx.foldl (fun (s : State) (e : ThSample × Nat) =>
    if s.get pTHERM (THERM.TS_CFG_MODE e.2) = 0 then s
    else
      let v := s.thConv e.2 e.1
      let (inj, s) := if e.2 = 0 then s.injTake pTHERM 0 else (false, s)
      if inj then s.sample e.2 none v.2
      else match v.1 with
        | .broken => s.sample e.2 none v.2
        | .val t => s.sample e.2 (some t) v.2
        | .open_ => let f := s.free; f.2.sample e.2 (some (sxt 16 f.1)) v.2) s
  let s := s.staleModules
  let s := (die.take 6).zipIdx.foldl (fun (s : State) (e : Int × Nat) =>
    s.setReg pTHERM (THERM.DIE_T e.2) (enc 16 e.1)) s
  if s.en pTHERM then
    let s := s.sensKeys.foldl State.absEval s
    let s := (List.range 8).foldl State.groupEval s
    let s := (List.range 24).foldl State.cellGroupEval s
    let s := (die.take 6).zipIdx.foldl (fun (s : State) (e : Int × Nat) => s.dieEval e.2 e.1) s
    s.thermApply
  else s

/-- A whole beam second (R365, R367). -/
def execRateEval (s : State) : Outcome State Fault Refusal :=
  .next (
    let s := s.sensKeys.foldl State.meanEval s
    if s.en pTHERM then (s.sensKeys.foldl State.rateEval s).thermApply else s)

/-- The temperatures of a delivered REPORT (R366): sensors of module `m`. -/
def State.thermReport (s : State) (m : Nat) (temps : List Nat) : State :=
  temps.zipIdx.foldl (fun (s : State) (e : Nat × Nat) =>
    s.sample (modSens m e.2) (if e.1 = 0x8000 then none else some (sxt 16 e.1)) 0) s

/-! ## Clearing (R371) -/

/-- Whether a sensor has returned below its warning level. -/
def State.sensBelow (s : State) (k : Nat) : Bool :=
  let x := s.sens k
  let l := s.limSet k
  decide (x.t ≤ s.getS pTHERM (THERM.LIM_A_WARN_HI l) - (s.get pTHERM (THERM.LIM_C_HYST l) : Int)) &&
    (match x.rate with
    | some r => decide (r.1 ≤ (s.get pTHERM (THERM.LIM_B_RATE_WARN l) : Int) * r.2)
    | none => true)

/-- Clear the latch bits of a mask whose condition holds; the others set TRIP_HELD. -/
def State.clearBits (s : State) (off n v : Nat) (ok : State → Nat → Bool) : State :=
  (bitsSet n (v &&& s.reg pTHERM off)).foldl (fun s i =>
    if ok s i then s.setBit pTHERM off i false else s.err pTHERM (blk 2)) s

/-- A write to a latch register. -/
def State.latchClear (s : State) (off v : Nat) : State :=
  if off = THERM.GRP_LATCH then
    s.clearBits off 8 v (fun s g => !s.flag pTHERM ⟨THERM.STAT, 16 + g, 16 + g⟩)
  else if off = THERM.TRIP_LATCH_LO then s.clearBits off 32 v (fun s i => s.sensBelow i)
  else if off = THERM.TRIP_LATCH_HI then s.clearBits off 32 v (fun s i => s.sensBelow (32 + i))
  else
    let s' := s.clearBits off 24 v (fun s r => !s.bit pTHERM THERM.CELL_GRP_FAULT r &&
      (s.sensors.filter (fun e => decide (64 ≤ e.1 ∧ (e.1 - 64) / 512 = r) && e.2.seen)).all (fun e =>
        s.sensBelow e.1))
    { s' with sensors := s'.sensors.map (fun e =>
        if 64 ≤ e.1 ∧ !s'.bit pTHERM THERM.CELL_LATCH ((e.1 - 64) / 512) then (e.1, { e.2 with trip := false })
        else e) }

/-- The latch registers. -/
def latchOff (r : Nat) : Nat :=
  [THERM.GRP_LATCH, THERM.TRIP_LATCH_LO, THERM.TRIP_LATCH_HI, THERM.CELL_LATCH].getD r THERM.CELL_LATCH

def execLatchClear (w : Writer) (reg : Fin 4) (v : Word) (s : State) : Outcome State Fault Refusal :=
  .next (finish w pTHERM (s.actionWrite w pTHERM (fun s => (s.latchClear (latchOff reg) v.toNat, .ok))))

/-! ## REST (R373) -/

/-- FD0 compares TS0 to TS15 once per second in REST; with PG_CTL.EN = 0 no limit is evaluated. -/
def execRestThermCheck (ts : List ThSample) (s : State) : Outcome State Fault Refusal :=
  .next (if s.dev ≠ dvREST || !s.en pTHERM then s
    else (ts.take 16).zipIdx.foldl (fun (s : State) (e : ThSample × Nat) =>
      let i := e.2
      if s.get pTHERM (THERM.TS_CFG_MODE i) = 0 then s
      else match (s.thConv i e.1).1 with
        | .val t =>
          if s.getS pTHERM (THERM.LIM_A_TRIP_HI (s.limSet i)) < t then
            ({ s with crossings := s.crossings ++ [(i, t, s.beam.t)] }).wakeCause wcTHERM
          else s
        | _ => s) s)

/-- On wake the crossings latch with the beam time of their detection. -/
def State.thermWake (s : State) : State :=
  let l := s.crossings
  let s := { s with crossings := [] }
  if s.en pTHERM then
    (l.foldl (fun (s : State) (e : Nat × Int × Nat) =>
      (s.setSens e.1 { s.sens e.1 with t := e.2.1, seen := true }).sensTrip e.1 false e.2.2) s).thermApply
  else s

/-! ## Registers -/

/-- A THERM commit that R387 refuses. -/
def State.thermDenied (s : State) : Bool :=
  let f := s.stagedGet pTHERM
  let sg (x : Fld) : Int := sxt 16 (f x)
  (List.range 8).any (fun l => decide (sg (THERM.LIM_A_TRIP_HI l) ≤ sg (THERM.LIM_A_WARN_HI l)) ||
    decide (f (THERM.LIM_B_RATE_TRIP l) ≤ f (THERM.LIM_B_RATE_WARN l))) ||
  (List.range 64).any (fun i =>
    (decide (f (THERM.TS_CFG_MODE i) = 1) && decide (f (THERM.TS_PAR_BETA i) = 0 ∨ f (THERM.TS_PAR_R25 i) = 0)) ||
    (decide (f (THERM.TS_CFG_MODE i) = 2) &&
      (List.range 15).any (fun p =>
        let r (p : Nat) : Nat := (s.stagedWord pTHERM (THERM.NTC_TAB (f (THERM.TS_CFG_TABLE i)) p)).toNat % 65536
        decide (r p ≤ r (p + 1)))))

/-- TS_VAL of a sensor. -/
def SensX.val (x : SensX) : Nat := enc 16 x.rate16 * 65536 + enc 16 x.t

/-- TS_STAT of a sensor, its latch given. -/
def SensX.stat (x : SensX) (trip : Bool) : Nat :=
  x.rs * 65536 + 64 * b2n x.rate.isSome + 32 * b2n x.broken + 16 * b2n trip + 8 * b2n x.cause +
    4 * b2n x.rwarn + 2 * b2n x.warn

/-- Words over the 64 inputs. -/
def State.sensMap (s : State) (base : Nat) (f : SensX → Bool) : Nat :=
  maskOf ((List.range 32).filter (fun i => f (s.sens (base + i))))

/-- Computed THERM registers. -/
def State.thermReg (s : State) (off : Nat) : Option Nat :=
  let sel := modSens (s.reg pTHERM THERM.CELL_SEL % 1024) (s.reg pTHERM THERM.CELL_SEL / 65536 % 16)
  if off = THERM.WARN_LO then some (s.sensMap 0 (fun x => x.warn || x.rwarn))
  else if off = THERM.WARN_HI then some (s.sensMap 32 (fun x => x.warn || x.rwarn))
  else if off = THERM.BROKEN_LO then some (s.sensMap 0 SensX.broken)
  else if off = THERM.BROKEN_HI then some (s.sensMap 32 SensX.broken)
  else if 0x300 ≤ off ∧ off < 0x400 then some (s.sens ((off - 0x300) / 4)).val
  else if 0x400 ≤ off ∧ off < 0x500 then
    let i := (off - 0x400) / 4
    some ((s.sens i).stat (s.bit pTHERM (if i < 32 then THERM.TRIP_LATCH_LO else THERM.TRIP_LATCH_HI) (i % 32)))
  else if off = THERM.CELL_WARN then
    some (maskOf ((List.range 24).filter (fun r =>
      s.sensors.any (fun e => decide (64 ≤ e.1 ∧ (e.1 - 64) / 512 = r) && (e.2.warn || e.2.rwarn)))))
  else if off = THERM.CELL_VAL then some (s.sens sel).val
  else if off = THERM.CELL_STAT then some ((s.sens sel).stat (s.sens sel).trip)
  else none

/-- Writes of THERM registers with rules of their own. -/
def State.thermRegWrite (s : State) (off : Nat) (v : Word) : Option (State × Code) :=
  if off = THERM.GRP_LATCH ∨ off = THERM.TRIP_LATCH_LO ∨ off = THERM.TRIP_LATCH_HI ∨ off = THERM.CELL_LATCH then
    some (s.latchClear off v.toNat, .ok)
  else none

end Sys2Proof.Machine
end

