-- ==== Sys2Proof/Machine/Mbus.lean ====
section
/-! DEFINITION. The module bus and the module protocol (spec/14, R320 to R360): commands of the CAN FD
controllers and of the module protocol engine. -/

namespace Sys2Proof.Machine

open Host (Outcome)

/-! ## Reception -/

/-- A frame received without error (R323 to R326, R331). -/
def execCanFrameRx (n : Fin 32) (f : CanFrame) (sof : Nat) (s : State) : Outcome State Fault Refusal :=
  .next (if s.mbSt n = mbDETECT then s.detectGood n f.brs
    else if s.mbRx n then
      let i := s.injTake (pMBUS n) 0
      if i.1 then
        let s := i.2.setMb n { i.2.mb n with rec_ := min ((i.2.mb n).rec_ + 1) 255 }
        ((s.busError n).showEcr n).arbitrate n
      else (i.2.canRx n f sof).arbitrate n
    else s)

/-- A receive or detection error on the bus (R323, R329). -/
def execCanBusError (n : Fin 32) (s : State) : Outcome State Fault Refusal :=
  .next (if s.mbSt n = mbDETECT then (s.busError n).nextCand n ((s.mb n).cand + 1)
    else if s.mbRx n then
      let s := s.setMb n { s.mb n with rec_ := min ((s.mb n).rec_ + 1) 255 }
      ((s.busError n).showEcr n).arbitrate n
    else s)

/-- DWELL has passed with no complete frame (R323). -/
def execRateDwellTimeout (n : Fin 32) (s : State) : Outcome State Fault Refusal :=
  .next (if s.mbSt n = mbDETECT then s.nextCand n ((s.mb n).cand + 1) else s)

/-! ## Transmission (R327, R328) -/

/-- The TIME_REF frame with the beam time of its SOF in ns (R335). -/
def State.timeRefFrame (s : State) (n sof : Nat) : CanFrame :=
  let info := s.get pBEAM BEAM.STAT_LOCK % 4 + 4 * s.get pBEAM BEAM.STAT_HOLDOVER +
    8 * s.get pBEAM BEAM.STAT_CROSS_SITE + 16 * s.get pBEAM BEAM.STAT_CMSN_HOLD
  fdFrame trefId false (leBytes 2 13 ++ leBytes 6 (sof / 1000000000) ++ leBytes 4 (sof % 1000000000) ++
    [info, (s.beam.steps - (s.mb n).steps0) % 256, s.get (pMBUS n) MBUS.TREF_CFG_BUS_DLY])

/-- The frame of what is offered. -/
def State.offered (s : State) (n sof : Nat) (src : TxSrc) : Option CanFrame :=
  match src with
  | .ref => some (s.timeRefFrame n sof)
  | .ack i => (s.mb n).acks[i]?
  | .head => (s.mb n).fifo.head?

/-- Remove what was offered. -/
def MbX.remove (x : MbX) (src : TxSrc) : MbX :=
  match src with
  | .ref => { x with slotRef := false }
  | .ack i => { x with acks := x.acks.eraseIdx i }
  | .head => MbX.refill { x with fifo := x.fifo.drop 1, abort := false }

/-- Remove the head of the FIFO by an abort. -/
def State.abortNow (s : State) (n : Nat) : State :=
  (s.setMb n ((s.mb n).remove .head)).incF (pMBUS n) MBUS.TX_CNT_ABORTED

/-- A lost or failed attempt removes an aborted head. -/
def State.abortDone (s : State) (n : Nat) (src : TxSrc) : State :=
  if (s.mb n).abort ∧ src = .head then s.abortNow n else s

/-- Add to the transmit error counter. -/
def State.tecAdd (s : State) (n k : Nat) : State := s.setMb n { s.mb n with tec := (s.mb n).tec + k }

/-- A transmission attempt of the offered frame ends. -/
def State.txDone (s : State) (n : Nat) (r : TxRes) (sof : Nat) (src : TxSrc) : State :=
  let s := match r with
    | .sent =>
      let f := s.offered n sof src
      let x := (s.mb n).remove src
      let s := s.setMb n { x with tec := x.tec - 1 }
      match f with
      | some f => s.send (.canFrame n f)
      | none => s
    | .lost => s.abortDone n src
    | .error => ((s.tecAdd n 8).busError n).abortDone n src
    | .noAck => ((if 127 < (s.mb n).tec then s else s.tecAdd n 8).busError n).abortDone n src
  (s.busOffCheck n).arbitrate n

def execCanFrameTxDone (n : Fin 32) (r : TxRes) (sof : Nat) (s : State) : Outcome State Fault Refusal :=
  .next (match (s.mb n).offer with
    | some src => s.txDone n r sof src
    | none => s)

/-- The frame that TXW_ID, TXW_CTL and TXW_DATA spell. -/
def State.txwFrame (s : State) (n : Nat) (ctl : Nat) : CanFrame :=
  let p := pMBUS n
  let id := s.reg p MBUS.TXW_ID
  let fdf := ctl.testBit 5
  let dlc := ctl % 16
  { ide := id.testBit 30, fdf := fdf, brs := fdf && ctl.testBit 6, id := id % 2 ^ 29, dlc := dlc
    data := ((List.range 16).flatMap (fun i => leBytes 4 (s.reg p (MBUS.TXW_DATA i)))).take (dlcLen fdf dlc) }

/-- A write of TXW_CTL (R327): PUSH = 1 pushes the frame; a push to a full FIFO is refused. -/
def State.txwCtl (s : State) (n : Nat) (v : Word) : State × Code :=
  let p := pMBUS n
  let ctl := v.toNat
  if ctl.testBit 31 ∧ 32 ≤ (s.mb n).fifo.length then
    ((s.incF p MBUS.TX_CNT_REFUSED).err p (blk 2), .writeRefused)
  else
    let s := s.setReg p MBUS.TXW_CTL (ctl &&& 0x6F)
    if ctl.testBit 31 then
      let f := s.txwFrame n ctl
      ((s.setMb n { s.mb n with fifo := (s.mb n).fifo ++ [f] }).offerNew n, .ok)
    else (s, .ok)

def execTxPush (w : Writer) (n : Fin 32) (v : Word) (s : State) : Outcome State Fault Refusal :=
  .next (finish w (pMBUS n) (s.actionWrite w (pMBUS n) (fun s => s.txwCtl n v)))

/-! ## Commands of CMD -/

/-- CMD.ABORT_HEAD (R328). -/
def State.abortHead (s : State) (n : Nat) : State :=
  let x := s.mb n
  if x.fifo = [] then s
  else if x.offer = some .head then s.setMb n { x with abort := true }
  else (s.abortNow n).offerNew n

/-- The controller recovers from bus-off (R329). -/
def State.boReturn (s : State) (n : Nat) : State :=
  let s := s.setMb n { s.mb n with tec := 0, rec_ := 0, boOk := false, boSeq := false }
  (s.mbActive n true).showEcr n

/-- CMD.BO_RECOVER (R329). -/
def State.boRecover (s : State) (n : Nat) : State :=
  if s.mbSt n ≠ mbBUSOFF then s
  else if (s.mb n).boSeq then s.boReturn n
  else s.setMb n { s.mb n with boOk := true }

/-- 128 occurrences of 11 recessive bits in bus-off (R329). -/
def execBusOffRecovery (n : Fin 32) (s : State) : Outcome State Fault Refusal :=
  .next (if s.mbSt n ≠ mbBUSOFF then s
    else if s.flag (pMBUS n) MBUS.CTL_BO_AUTO ∨ (s.mb n).boOk then s.boReturn n
    else s.setMb n { s.mb n with boSeq := true })

/-- Challenge every mapped address, by CMD or periodically (R353). -/
def State.mpeAll (s : State) (n : Nat) (life : Bool) : State :=
  if s.mpeOn n ∧ s.mbSt n ≠ mbOFF then s.challengeAll n life else s

/-- A write of CMD. -/
def State.mbusCmd (s : State) (n v : Nat) : State :=
  let x := s.mb n
  let s := if v.testBit 0 then s.abortHead n else s
  let s := if v.testBit 1 then s.boRecover n else s
  let s := if v.testBit 2 ∧ !s.mpeOn n then s.setMb n { s.mb n with q0 := x.q0.drop 1 } else s
  let s := if v.testBit 3 ∧ !s.mpeOn n then s.setMb n { s.mb n with q1 := x.q1.drop 1 } else s
  let s := if v.testBit 4 then s.mpeAll n false else s
  let s := if v.testBit 5 then s.mpeAll n true else s
  if v.testBit 6 then s.timeRefDue n else s

/-- One bit of CMD written by a writer. -/
def State.mbusCmdBy (s : State) (w : Writer) (n b : Nat) : State :=
  finish w (pMBUS n) (s.actionWrite w (pMBUS n) (fun s => (s.mbusCmd n (2 ^ b), .ok)))

def execAbortHead (w : Writer) (n : Fin 32) (s : State) : Outcome State Fault Refusal := .next (s.mbusCmdBy w n 0)
def execBoRecover (w : Writer) (n : Fin 32) (s : State) : Outcome State Fault Refusal := .next (s.mbusCmdBy w n 1)
def execRx0Pop (w : Writer) (n : Fin 32) (s : State) : Outcome State Fault Refusal := .next (s.mbusCmdBy w n 2)
def execRx1Pop (w : Writer) (n : Fin 32) (s : State) : Outcome State Fault Refusal := .next (s.mbusCmdBy w n 3)
def execIdentAll (w : Writer) (n : Fin 32) (s : State) : Outcome State Fault Refusal := .next (s.mbusCmdBy w n 4)
def execLifeAll (w : Writer) (n : Fin 32) (s : State) : Outcome State Fault Refusal := .next (s.mbusCmdBy w n 5)
def execTrefNow (w : Writer) (n : Fin 32) (s : State) : Outcome State Fault Refusal := .next (s.mbusCmdBy w n 6)

def execTimeRefDue (n : Fin 32) (s : State) : Outcome State Fault Refusal := .next (s.timeRefDue n)
def execIdentPeriodic (n : Fin 32) (s : State) : Outcome State Fault Refusal := .next (s.mpeAll n false)
def execLifePeriodic (n : Fin 32) (s : State) : Outcome State Fault Refusal := .next (s.mpeAll n true)

/-! ## Sleep and wake (R330 to R334) -/

/-- CTL.SLEEP written (R330). -/
def State.sleepWrite (s : State) (n : Nat) (on : Bool) : State :=
  let p := pMBUS n
  let st := s.mbSt n
  if on then
    if st = mbACTIVE then
      let s := s.setMb n { s.mb n with sleepAt := s.beam.t, slotRef := false }
      let s := (s.set p MBUS.CTL_SLEEP 1).setMbSt n mbSLEEPING
      if s.mpeOn n then s.mpeSend n 2 0xFF 1 [] else s
    else s
  else
    let s := s.set p MBUS.CTL_SLEEP 0
    if st = mbASLEEP then s.mbusAwake n false else s

/-- A write of CTL (R330): AUTO_RATE and LISTEN change only in OFF. -/
def State.mbusCtl (s : State) (n : Nat) (v : Word) : State × Code :=
  let p := pMBUS n
  let x := v.toNat
  let old := s.reg p MBUS.CTL
  if s.mbSt n ≠ mbOFF ∧ bitsOf x 9 8 ≠ bitsOf old 9 8 then refuse s p (blk 1) .writeRefused
  else
    let s := s.setReg p MBUS.CTL ((x &&& 0x1700) ||| (old &&& 0x800))
    (if x.testBit 11 = old.testBit 11 then s else s.sleepWrite n (x.testBit 11), .ok)

def execSleepRequest (w : Writer) (n : Fin 32) (on : Bool) (s : State) : Outcome State Fault Refusal :=
  .next (finish w (pMBUS n) (s.actionWrite w (pMBUS n) (fun s => (s.sleepWrite n on, .ok))))

/-- SLEEPING ends (R330): the FIFO is empty or 100 ms have passed, and the bus is idle. -/
def execEnterAsleep (n : Fin 32) (s : State) : Outcome State Fault Refusal :=
  .next (if s.mbSt n = mbSLEEPING ∧
      ((s.mb n).fifo = [] ∨ (s.mb n).sleepAt + 100 * unitsMs ≤ s.beam.t) then s.mbAsleep n
    else s)

/-- Whether the watch wakes on a frame, or on an edge where there is none (R332). -/
def watchHit (w : Bool × Nat × Nat) (f : Option CanFrame) : Bool :=
  match f with
  | none => !w.1
  | some f => w.1 && !(f.fdf && f.brs) && decide ((f.id ^^^ w.2.1) &&& w.2.2 = 0)

/-- The watch wakes a segment (R330, R332). -/
def State.watchWake (s : State) (n : Nat) (f : Option CanFrame) : State :=
  let p := pMBUS n
  let cap := match f with
    | some f => 2 ^ 31 + f.id % 2 ^ 29
    | none => 0
  let s := s.setReg p MBUS.WAKE_CAP_ID cap
  let s := s.setMb n { s.mb n with wakePend := true }
  let s := if s.dev = dvRUN then s else s.wakeCause wcBUS
  if s.dom (.fd (n / 8)) = .active then s.mbusAwake n true else s

def execWatchWake (n : Fin 32) (f : Option CanFrame) (s : State) : Outcome State Fault Refusal :=
  .next (match (s.mb n).watch with
    | some w => if s.mbSt n = mbASLEEP ∧ !(s.mb n).wakePend ∧ watchHit w f then s.watchWake n f else s
    | none => s)

/-- The watch's oscillator stops without a wake (R332). -/
def execWatchFalse (n : Fin 32) (s : State) : Outcome State Fault Refusal :=
  .next (match (s.mb n).watch with
    | some w => if s.mbSt n = mbASLEEP ∧ w.1 then s.incF (pMBUS n) MBUS.WAKE_CNT_FALSE else s
    | none => s)

/-- PG_CTL.EN written 0 takes effect when the frame in progress has ended (R330). -/
def State.mbusOff (s : State) (n : Nat) : State :=
  let p := pMBUS n
  let s := s.setMb n { s.mb n with
    q0 := [], q1 := [], fifo := [], wait := [], slotRef := false, acks := [], offer := none, abort := false
    chals := [], open_ := [], done := [], wakePend := false, watch := none }
  ((s.setMbSt n mbOFF).set p PG.STAT_SHUTTING 0).ev p 4

def execControllerShutDone (n : Fin 32) (s : State) : Outcome State Fault Refusal :=
  .next (if s.flag (pMBUS n) PG.STAT_SHUTTING then s.mbusOff n else s)

/-- The always-on watch controller sends UNAVAILABLE on MB0 (R334). -/
def execUnavailableTx (s : State) : Outcome State Fault Refusal :=
  .next (if s.flag pREST REST.STAT_WAKE_FAIL ∧ (s.reg pAON (AON.WAKE_CFG 0)).testBit MBUS.WAKE_CFG_UNAVAIL_EN.lo then
      s.send (.canFrame 0 { ide := true, fdf := false, brs := false, id := mbId 2 0xFF 3 0 true true, dlc := 5
                            data := leBytes 2 3 ++ leBytes 2 s.addr ++ [1] })
    else s)

/-! ## Messages (R340 to R357) -/

/-- 100 ms have passed since the FIRST of an open message (R340). -/
def execMessageStall (n : Fin 32) (a : Fin 24) (cls : Fin 9) (s : State) : Outcome State Fault Refusal :=
  .next (match (s.mb n).open_.find? (fun m => m.addr == a.val && m.cls == cls.val) with
    | some m =>
      let s := s.closeMsg n a cls
      if m.skip then s else s.msgDrop n false
    | none => s)

/-- The module index of an address: enabled, and no duplicate (R343). -/
def State.modIdx (s : State) (n a : Nat) : Option Nat :=
  if s.flag (pMBUS n) (MBUS.MAP_EN a) ∧ !s.flag (pMBUS n) (MBUS.MOD_STAT_MAP_DUP a) then
    some (s.get (pMBUS n) (MBUS.MAP_MODIDX a))
  else none

/-- The consumer takes the oldest complete message of a class. -/
def State.onMsg (s : State) (n cls : Nat) (f : MbMsg → State → State) : State :=
  match (s.mb n).done.find? (fun m => m.cls == cls) with
  | some m => f m (s.setMb n { s.mb n with done := (s.mb n).done.erase m })
  | none => s

/-- A field of a payload. -/
def MbMsg.le (m : MbMsg) (o k : Nat) : Nat := ofLE ((m.data.drop o).take k)

/-- The temperature of a cell from its sensor (R345): `none` without one, or where it failed. -/
def MbMsg.temp (m : MbMsg) (base ntemp sensor : Nat) : Option Int :=
  let v := m.le (base + 2 * sensor) 2
  if sensor < ntemp ∧ v ≠ 0x8000 then some (sxt 16 v) else none

/-- A report's values, for the module it is from. -/
def State.reportOf (s : State) (n : Nat) (m : MbMsg) (bad : Bool) (mod : Option Nat) : State :=
  let p := pMBUS n
  let nc := m.le 8 1
  let nt := m.le 9 1
  match mod with
  | none => s.msgToRing n m 0
  | some i =>
    let s := if s.flag p MBUS.MPE_CFG_RPT_RING then s.msgToRing n m 0 else s
    if nc = s.modCells i ∧ !bad ∧ m.data.length = 12 + 3 * nc + 2 * nt then
      let map_ := (s.modX n m.addr).tempMap
      let s := s.thermReport i ((List.range (min nt 16)).map (fun j => m.le (12 + 3 * nc + 2 * j) 2))
      s.setModRep i {
        t := m.le 0 8
        volts := (List.range nc).map (fun c => m.le (12 + 2 * c) 2)
        bal := (List.range nc).map (fun c => m.le (12 + 2 * nc + c) 1)
        temps := (List.range nc).map (fun c => m.temp (12 + 3 * nc) nt (map_.getD c 0xFF)) }
    else s.incF p MBUS.MSG_CNT_SHORT

/-- A REPORT CELLS (R344, R345). -/
def State.reportCells (s : State) (n : Nat) (m : MbMsg) : State :=
  let p := pMBUS n
  let bad := (m.le 10 1).testBit 0
  let s := (s.setB p (MBUS.MOD_STAT_TIME_BAD m.addr) bad).set p (MBUS.MOD_STAT_RSEQ m.addr) (m.le 11 1)
  s.reportOf n m bad (s.modIdx n m.addr)

def execReportCellsRx (n : Fin 32) (s : State) : Outcome State Fault Refusal :=
  .next (s.onMsg n 5 (fun m s => s.reportCells n m))

/-- An ALARM (R347): acknowledged from the slot, and its first copy goes to the ring. -/
def State.alarmRx (s : State) (n : Nat) (m : MbMsg) : State :=
  let p := pMBUS n
  let q := m.le 8 2
  let s := if (s.mb n).acks.length < 4 then
      let f := s.free
      (f.2.setMb n { f.2.mb n with
        acks := (f.2.mb n).acks ++ mbFrames 0 m.addr 1 (f.1 % 2 == 1) (leBytes 2 q) }).offerNew n
    else s
  let x := s.modX n m.addr
  if x.aseqs.contains q then s
  else
    let s := (s.setModX n m.addr { x with aseqs := q :: x.aseqs }).msgToRing n m 0
    (s.set p (MBUS.MOD_STAT_ALARM m.addr) 1).ev p (blk 5)

def execAlarmRx (n : Fin 32) (s : State) : Outcome State Fault Refusal :=
  .next (s.onMsg n 0 (fun m s => s.alarmRx n m))

/-- WAKE_REQ and BALANCE ACK go to the ring (R341). -/
def execWakeReqRx (n : Fin 32) (s : State) : Outcome State Fault Refusal :=
  .next (s.onMsg n 2 (fun m s => s.msgToRing n m 0))

def execBalanceAckRx (n : Fin 32) (s : State) : Outcome State Fault Refusal :=
  .next (s.onMsg n 3 (fun m s => s.msgToRing n m 0))

/-- A message for the EIS block; from an unmapped address, to the ring (R341, R343). -/
def State.toEis (s : State) (n : Nat) (m : MbMsg) (f : State → Nat → List Nat → State) : State :=
  match s.modIdx n m.addr with
  | some i => f s i m.data
  | none => s.msgToRing n m 0

def execSamplePlanAckRx (n : Fin 32) (s : State) : Outcome State Fault Refusal :=
  .next (s.onMsg n 4 (fun m s => s.toEis n m State.eisAck))

def execEisResultRx (n : Fin 32) (s : State) : Outcome State Fault Refusal :=
  .next (s.onMsg n 8 (fun m s => s.toEis n m State.eisResult))

/-- Remove the outstanding challenge that a nonce answers. -/
def State.answered (s : State) (n a : Nat) (life : Bool) (nonce : List Nat) : State :=
  s.setMb n { s.mb n with
    chals := (s.mb n).chals.filter (fun c => !(c.addr == a && c.life == life && c.nonce == nonce)) }

/-- Whether a nonce is that of an outstanding challenge. -/
def State.nonceOk (s : State) (n a : Nat) (life : Bool) (nonce : List Nat) : Bool :=
  (s.mb n).chals.any (fun c => c.addr == a && c.life == life && c.nonce == nonce)

/-- The KEY_ID of a key and a serial (R355), as its 8 bytes. -/
def keyId (pub serial : List Nat) : List Nat := (sha256 (pub ++ serial)).take 8

/-- Every cell of a changed module asks the estimator for a fresh start. -/
def State.changedCells (s : State) (mod : Option Nat) : State :=
  match mod with
  | some i => s.setCea { s.cea with cmds := s.cea.cmds ++ (List.range (s.modCells i)).map (fun c => ⟨64 * i + c, 1, 0, 0, 0⟩) }
  | none => s

/-- Another module answers at an address (R355). -/
def State.moduleChanged (s : State) (n a : Nat) (kid : List Nat) : State :=
  let p := pMBUS n
  let s := (s.setReg p (MBUS.KEYID_LO a) (ofLE (kid.take 4))).setReg p (MBUS.KEYID_HI a) (ofLE (kid.drop 4))
  let s := (s.set p (MBUS.MOD_STAT_CHANGED a) 1).ev p (blk 6)
  let s := s.setModX n a { s.modX n a with base := none }
  s.changedCells (s.modIdx n a)

/-- A verified IDENT response: the module's key, its flags, the record. -/
def State.identTaken (s : State) (n : Nat) (m : MbMsg) (nonce pub : List Nat) (last : Option (List Nat × List Nat)) :
    State :=
  let p := pMBUS n
  let a := m.addr
  let kid := keyId pub ((m.data.drop 0x14).take 12)
  let conflict := match last with
    | some l => decide (l.1 = nonce ∧ l.2 ≠ kid)
    | none => false
  let s := s.setModX n a { s.modX n a with
    key := pub, tempMap := (m.data.drop 0x48).take (m.le 0x11 1), last := some (nonce, kid) }
  let s := (s.set p (MBUS.MOD_STAT_VERIFIED a) 1).set p (MBUS.MOD_STAT_NO_RESP a) 0
  let s := if conflict then s.set p (MBUS.MOD_STAT_ADDR_CONFLICT a) 1 else s
  let changed := s.locked p && decide (s.reg64 p (MBUS.KEYID_LO a) ≠ ofLE kid ∨ s.reg64 p (MBUS.KEYID_LO a) = 0)
  let s := if changed then s.moduleChanged n a kid else s.set p (MBUS.MOD_STAT_CHANGED a) 0
  s.msgToRing n m (1 + 2 * b2n changed + 16 * b2n conflict)

/-- An IDENT RESPONSE (R354, R355). -/
def State.identResponse (s : State) (n : Nat) (m : MbMsg) : State :=
  let p := pMBUS n
  let a := m.addr
  let end_ := 0x48 + m.le 0x11 1
  let nonce := m.data.take 16
  let pub := (m.data.drop 0x28).take 32
  let last := (s.modX n a).last
  let again := match last with
    | some l => decide (l.1 = nonce)
    | none => false
  let fresh := s.nonceOk n a false nonce || again
  let s := s.answered n a false nonce
  if fresh && decide (m.data.length = end_ + 64) && edVerify pub (m.data.take end_) (m.data.drop end_) then
    s.identTaken n m nonce pub last
  else ((s.msgToRing n m 8).set p (MBUS.MOD_STAT_VERIFIED a) 0).err p (blk 7)

def execIdentResponseRx (n : Fin 32) (s : State) : Outcome State Fault Refusal :=
  .next (s.onMsg n 6 (fun m s => s.identResponse n m))

/-- Whether a change in the module's counter and in the rod's differ too much (R357), in µC. -/
def State.thruBad (s : State) (n : Nat) (dm dr : Int) : Bool :=
  let a := s.get (pMBUS n) MBUS.THRU_CFG_THRU_ABS
  let r := s.get (pMBUS n) MBUS.THRU_CFG_THRU_REL
  let a := if a = 0 then 10 else a
  let r := if r = 0 then 10 else r
  decide ((a : Int) * 1000000 * 1024 + (r : Int) * dr < ((dm - dr).natAbs : Int) * 1024)

/-- A LIFE RESPONSE (R356, R357). -/
def State.lifeResponse (s : State) (n : Nat) (m : MbMsg) : State :=
  let p := pMBUS n
  let a := m.addr
  let nonce := m.data.take 16
  let x := s.modX n a
  let fresh := s.nonceOk n a true nonce
  let s := s.answered n a true nonce
  if fresh && decide (m.data.length = 0x98 ∧ x.key ≠ []) && edVerify x.key (m.data.take 0x58) (m.data.drop 0x58) then
    let s := s.set p (MBUS.MOD_STAT_NO_RESP a) 0
    match s.modIdx n a with
    | none => s.msgToRing n m 1
    | some i =>
      let new : LifeBase := ⟨m.le 0x1C 4, m.le 0x28 8, m.le 0x30 8, s.tallySum (i / 32) 0, s.tallySum (i / 32) 1⟩
      let s := s.setModX n a { x with base := some new }
      match x.base with
      | some b =>
        if b.lseq + 1 = new.lseq then
          let bad := s.thruBad n ((new.mOut : Int) - b.mOut) ((new.rOut : Int) - b.rOut) ||
            s.thruBad n ((new.mIn : Int) - b.mIn) ((new.rIn : Int) - b.rIn)
          let s := s.setB p (MBUS.MOD_STAT_THRU_MISMATCH a) bad
          let s := if bad then (s.err p (blk 8)).ev p (blk 7) else s
          s.msgToRing n m (1 + 4 * b2n bad)
        else s.msgToRing n m 1
      | none => s.msgToRing n m 1
  else s.msgToRing n m 8

def execLifeResponseRx (n : Fin 32) (s : State) : Outcome State Fault Refusal :=
  .next (s.onMsg n 7 (fun m s => s.lifeResponse n m))

/-- 500 ms without an answer (R353). -/
def execChallengeTimeout (n : Fin 32) (a : Fin 24) (life : Bool) (s : State) : Outcome State Fault Refusal :=
  .next (match (s.mb n).chals.find? (fun c => c.addr == a.val && c.life == life) with
    | some c =>
      if 3 ≤ c.tries then (s.answered n a life c.nonce).set (pMBUS n) (MBUS.MOD_STAT_NO_RESP a) 1
      else s.challenge n a life c.tries
    | none => s)

/-! ## Registers with rules of their own -/

/-- A read of MOD_STAT: ALARM clears. -/
def State.modStatRead (s : State) (n a : Nat) : Word × State :=
  (s.word (pMBUS n) (MBUS.MOD_STAT a), s.set (pMBUS n) (MBUS.MOD_STAT_ALARM a) 0)

/-- Whether a nominal and a data timing are outside R322. -/
def rateBad (nbt dbt : Nat) : Bool :=
  let nb := bitsOf nbt 31 24
  let n1 := bitsOf nbt 23 16
  let n2 := bitsOf nbt 14 8
  let db := bitsOf dbt 28 24
  let d1 := bitsOf dbt 20 16
  let d2 := bitsOf dbt 11 8
  let nq := nb * (1 + n1 + n2)
  let dq := db * (1 + d1 + d2)
  decide (nb = 0 ∨ n1 = 0 ∨ n2 = 0 ∨ db = 0 ∨ d1 = 0 ∨ d2 = 0 ∨ n2 < nbt % 128 ∨ d2 < dbt % 16 ∨
    80000000 < 125000 * nq ∨ 1000000 * nq < 80000000 ∨ nq < dq ∨ 8000000 * dq < 80000000)

/-- An MBUS commit that R360 and R330 refuse. -/
def State.mbusDenied (s : State) (n : Nat) : List Nat :=
  let p := pMBUS n
  let w (o : Nat) : Nat := (s.stagedWord p o).toNat
  let ch (o : Nat) : Bool := decide (s.word p o ≠ s.stagedWord p o)
  let candBad := (List.range 8).any (fun i =>
    (w MBUS.RATE_CFG).testBit i && rateBad (w (MBUS.RATE_CAND_N i)) (w (MBUS.RATE_CAND_D i)))
  holds [
    (rateBad (w MBUS.NBT) (w MBUS.DBT) || candBad ||
      (List.range 24).any (fun a => decide (767 < w (MBUS.MAP a) % 1024)), blk 0),
    (decide (s.mbSt n ≠ mbOFF) && (ch MBUS.NBT || ch MBUS.DBT || ch MBUS.TDC ||
      (List.range 8).any (fun i => ch (MBUS.RATE_CAND_N i) || ch (MBUS.RATE_CAND_D i)) ||
      decide ((w MBUS.MPE_CFG).testBit 31 ≠ s.mpeOn n)), blk 1)]

/-- MAP_DUP over every MBUS page (R343): an enabled entry whose index an earlier enabled entry holds. -/
def State.mapDups (s : State) : State :=
  let es := (List.range 32).flatMap (fun n => (s.mapped n).map (fun a => (n, a, s.get (pMBUS n) (MBUS.MAP_MODIDX a))))
  let step (acc : State × List Nat) (e : Nat × Nat × Nat) : State × List Nat :=
    let p := pMBUS e.1
    if acc.2.contains e.2.2 then ((acc.1.set p (MBUS.MOD_STAT_MAP_DUP e.2.1) 1).err p (blk 6), acc.2)
    else (acc.1.set p (MBUS.MOD_STAT_MAP_DUP e.2.1) 0, acc.2 ++ [e.2.2])
  let s := (List.range 32).foldl (fun s n => (List.range 24).foldl (fun s a =>
    if s.flag (pMBUS n) (MBUS.MAP_EN a) then s else s.set (pMBUS n) (MBUS.MOD_STAT_MAP_DUP a) 0) s) s
  (es.foldl step (s, [])).1

/-- After a commit of an MBUS page (R343, R349): `old` is the state before it. -/
def State.mbusApplied (old s : State) (n : Nat) : State :=
  let p := pMBUS n
  let pend := (old.pg p).pending.map Prod.fst
  let maps := (List.range 24).filter (fun a => pend.contains (bkey p (MBUS.MAP a)))
  let s := if maps = [] then s
    else
      let moved := maps.filter (fun a => decide (old.word p (MBUS.MAP a) ≠ s.word p (MBUS.MAP a)))
      (s.setMb n { s.mb n with open_ := (s.mb n).open_.filter (fun m => !(moved.contains m.addr)) }).mapDups
  if pend.contains (bkey p MBUS.PLAN_CFG) ∧ s.mpeOn n ∧ s.mbSt n ≠ mbOFF then s.routinePlan n 0xFF else s

/-- Writes of MBUS registers with rules of their own. -/
def State.mbusRegWrite (s : State) (n off : Nat) (v : Word) : Option (State × Code) :=
  if off = MBUS.CTL then some (s.mbusCtl n v)
  else if off = MBUS.CMD then some (s.mbusCmd n v.toNat, .ok)
  else if off = MBUS.TXW_CTL then some (s.txwCtl n v)
  else none

/-- PG_CTL.EN written 0 (R330): the controller shuts when the frame in progress ends. -/
def State.mbusDisable (s : State) (n : Nat) : State :=
  if s.mbSt n = mbOFF then s else s.set (pMBUS n) PG.STAT_SHUTTING 1

/-- The words of a receive window (R326). -/
def rxWindow (mpe : Bool) (q : List RxFrame) (i : Nat) : Nat :=
  match q with
  | r :: _ =>
    if mpe then 0
    else if i = 0 then 2 ^ 31 + 2 ^ 30 * b2n r.f.ide + 2 ^ 29 * b2n r.f.fdf + r.f.id % 2 ^ 29
    else if i = 1 then rxW1 r
    else if i = 2 then r.t % 1000000000
    else ofLE ((r.f.data.drop (4 * (i - 3))).take 4)
  | [] => 0

/-- Computed MBUS registers: the levels and the windows. -/
def State.mbusReg (s : State) (n off : Nat) : Option Nat :=
  let x := s.mb n
  if off = MBUS.QSTAT then some (x.fifo.length * 2 ^ 25 + x.q1.length * 2 ^ 16 + x.q0.length)
  else if MBUS.RX0_W 0 ≤ off ∧ off ≤ MBUS.RX0_W 18 then
    some (rxWindow (s.mpeOn n) x.q0 ((off - MBUS.RX0_W 0) / 4))
  else if MBUS.RX1_W 0 ≤ off ∧ off ≤ MBUS.RX1_W 18 then
    some (rxWindow (s.mpeOn n) x.q1 ((off - MBUS.RX1_W 0) / 4))
  else none

end Sys2Proof.Machine
end

