-- ==== Sys2Proof/Machine/LoopCore.lean ====
section
/-! DEFINITION. The inner current loop's registers and the parts of a run that grid and machine mode
share (spec/10, R244 to R254, R264, R265): the start of a run, the angle set, transforms in binary32,
filters, the learner's bins. -/

namespace Sys2Proof.Machine

open Host (Outcome)

/-! ## Constants and transforms in binary32 -/

abbrev fTwo : Nat := 0x40000000
abbrev fThree : Nat := 0x40400000
abbrev fHalf : Nat := 0x3F000000
abbrev f1p5 : Nat := 0x3FC00000
abbrev fSqrt3 : Nat := 0x3FDDB3D7
abbrev fSqrt3h : Nat := 0x3F5DB3D7
abbrev f2Pi : Nat := 0x40C90FDB
abbrev f65536 : Nat := 0x47800000
abbrev f2p32 : Nat := 0x4F800000
abbrev fE6 : Nat := 0x49742400

/-- sin θ and cos θ in binary32: the Q31 values of R237, within 4 LSB, as a free choice. -/
def State.trig (s : State) (th : Nat) : (Nat × Nat) × State :=
  let r := s.frees 2
  let e := decide (th % 2 ^ 30 = 0)
  let sc := sinCos th
  ((fOfFix 31 (sinOut e sc.1 (r.1.getD 0 0)), fOfFix 31 (sinOut e sc.2 (r.1.getD 1 0))), r.2)

/-- CLARKE, PARK, IPARK and ICLARKE of R238 in binary32. -/
def clarkeF (a b c : Nat) : Nat × Nat :=
  (fdiv (fsub (fsub (fmul fTwo a) b) c) fThree, fdiv (fsub b c) fSqrt3)
def parkF (ab sc : Nat × Nat) : Nat × Nat :=
  (fadd (fmul ab.1 sc.2) (fmul ab.2 sc.1), fsub (fmul ab.2 sc.2) (fmul ab.1 sc.1))
def iparkF (dq sc : Nat × Nat) : Nat × Nat :=
  (fsub (fmul dq.1 sc.2) (fmul dq.2 sc.1), fadd (fmul dq.1 sc.1) (fmul dq.2 sc.2))
def iclarkeF (ab : Nat × Nat) : List Nat :=
  let h := fneg (fmul ab.1 fHalf)
  let r := fmul fSqrt3h ab.2
  [ab.1, fadd h r, fsub h r]

/-- Length of a vector. -/
def hypotF (a b : Nat) : Nat := fsqrt (fadd (fmul a a) (fmul b b))

/-- A difference of beam times in seconds. -/
def secF (d : Int) : Nat := fOfQ d 256000000000

/-- The angle of a speed in rad/s over a time in seconds: w × dt × 2³² / 2π, rounded. -/
def turnF (w dt : Nat) : Int := fToInt 60 (fdiv (fmul (fmul w dt) f2p32) f2Pi)

/-- An angle advanced by a signed amount. -/
def angAdd (th : Nat) (d : Int) : Nat := (((th : Int) + d) % 2 ^ 32).toNat

/-! ## Registers -/

/-- A register of a loop. -/
def State.lp (s : State) (n off : Nat) : Nat := s.reg (pLOOP n) off

/-- Store a register of a loop. -/
def State.setLp (s : State) (n off v : Nat) : State := s.setReg (pLOOP n) off v

/-- Whether a rod is in machine mode. -/
def State.machMode (s : State) (n : Nat) : Bool := decide (s.get (pROD n) ROD.CFG_MODE = 1)

/-- A LOOP commit that R264 and R279 refuse, as the PG_ERR.BLK bits of the cases it falls under. -/
def State.loopDenied (s : State) (n : Nat) : List Nat :=
  let p := pLOOP n
  let f := s.stagedGet p
  let changed (o : Nat) : Bool := decide (s.word p o ≠ s.stagedWord p o)
  let changedF (x : Fld) : Bool := decide (s.get p x ≠ f x)
  let nb := f LOOP.LRN_CFG_NBITS
  let mach := s.machMode n && (decide (f LOOP.MCFG_POLES = 0) ||
    (decide (f LOOP.CFG_ANG_SRC = 1) && decide ((s.stagedWord p LOOP.CPR).toNat % 2 ^ 24 = 0)))
  holds [
    (decide (11 < f LOOP.CFG_MARK_CONV) || decide (f LOOP.CFG_ANG_SRC = 3) ||
      decide (253 < f ⟨LOOP.SLOTS, 7, 0⟩) || decide (253 < f ⟨LOOP.SLOTS, 15, 8⟩) ||
      decide (nb < 8) || decide (12 < nb) || mach, blk 0),
    (decide (s.rodSt n ≠ stOFF) && (changedF LOOP.CFG_MARK_CONV || changedF LOOP.CFG_ANG_SRC ||
      changed LOOP.SLOTS || changed LOOP.I_SCALE || changed LOOP.V_SCALE || changed LOOP.VDC_SCALE ||
      changed LOOP.MCFG || changed LOOP.CPR), blk 1),
    (s.flag p LOOP.LRN_CTL_EN && changedF LOOP.LRN_CFG_NBITS, blk 2)]

/-- Page and offset of word `o` of filter record `r` of a loop (R265). -/
def lfiltAt (n r o : Nat) : Nat × Nat := (0x880 + 2 * n, 64 * r + o)

/-- After a LOOP commit (R265, R269): the state of a changed filter record is cleared, and a change of
counter, pole pairs or CPR clears REF_OK. -/
def State.loopApplied (s0 s : State) (n : Nat) : State :=
  let s := (List.range 4).foldl (fun s r =>
    let ch := (List.range 6).any (fun i =>
      decide (s0.reg (lfiltAt n r (4 * i)).1 (lfiltAt n r (4 * i)).2 ≠
        s.reg (lfiltAt n r (4 * i)).1 (lfiltAt n r (4 * i)).2))
    if ch then (List.range 4).foldl (fun s i =>
      s.setReg (lfiltAt n r (0x18 + 4 * i)).1 (lfiltAt n r (0x18 + 4 * i)).2 0) s
    else s) s
  let p := pLOOP n
  if s0.get p LOOP.MCFG_PCNT ≠ s.get p LOOP.MCFG_PCNT ∨ s0.get p LOOP.MCFG_POLES ≠ s.get p LOOP.MCFG_POLES ∨
      s0.reg p LOOP.CPR ≠ s.reg p LOOP.CPR then s.set p LOOP.MSTAT_REF_OK 0
  else s

/-- LOOP[n].PG_CTL.EN goes to 1 (R246, R268): the next run is the first, tracking starts again. -/
def State.loopEnable (s : State) (n : Nat) : State :=
  let x := s.loop n
  (s.setLoop n { x with
    marks := [], run := none, prevTs := none, ranIn := 0, limited := false
    mach := { x.mach with cPrev := none } }).setLp n LOOP.ACC 0

/-- LOOP[n].PG_CTL.EN goes to 0 (R244, R254, R269). -/
def State.loopDisable (s : State) (n : Nat) : State :=
  let s := s.setLoop n { s.loop n with marks := [], run := none }
  ((s.set (pLOOP n) LOOP.STAT_RUNNING 0).set (pLOOP n) LOOP.MSTAT_REF_OK 0).set (pLOOP n) LOOP.STAT_LRN_ACTIVE 0

/-- Writes of LOOP registers with rules of their own (R249, R254, R269); `none`: the plain rule. -/
def State.loopRegWrite (s : State) (n off : Nat) (v : Word) : Option (State × Code) :=
  let p := pLOOP n
  let x := s.loop n
  let put (s : State) : State := s.setReg p off v.toNat
  if off = LOOP.IREF_D then some ((put s).setLoop n { x with irefD := v.toNat }, .ok)
  else if off = LOOP.IREF_Q then some ((put s).setLoop n { x with pair := (x.irefD, v.toNat) }, .ok)
  else if off = LOOP.THETA_NS then some ((put s).setLoop n { x with thNs := v.toNat }, .ok)
  else if off = LOOP.OMEGA then some ((put s).setLoop n { x with om := v.toNat }, .ok)
  else if off = LOOP.THETA then
    some (((put s).setLoop n { x with set := (v.toNat, x.thNs, x.om), age := 0 }).set p
      LOOP.STAT_ANG_OLD 0, .ok)
  else if off = LOOP.LRN_CTL then
    if v.getLsbD 2 ∧ s.flag p LOOP.LRN_CTL_EN then some (refuse s p (blk 2) .writeRefused)
    else
      let s := s.setReg p off (v.toNat % 4)
      let s := if v.getLsbD 0 then s else s.set p LOOP.STAT_LRN_ACTIVE 0
      let lo := bkey (0x820 + 4 * n) 0
      some (if v.getLsbD 2 then
          { s with board := tabKeep (fun k => decide (k < lo) || decide (lo + 16384 ≤ k)) s.board }
        else s, .ok)
  else if off = LOOP.M_OFS then
    if s.get p LOOP.MSTAT_ASRC = 4 then some (refuse s p (blk 1) .writeRefused)
    else some (if s.en p ∧ s.machMode n then (put s).set p LOOP.MSTAT_REF_OK 1 else put s, .ok)
  else none

/-- A write command of one of these registers. -/
def State.loopWriteCmd (s : State) (w : Writer) (n off : Nat) (v : Word) : State :=
  finish w (pLOOP n) (s.actionWrite w (pLOOP n) (fun s => (s.loopRegWrite n off v).getD (s, .ok)))

def execIrefDWrite (w : Writer) (n : Fin 24) (v : Word) (s : State) : Outcome State Fault Refusal :=
  .next (s.loopWriteCmd w n LOOP.IREF_D v)

def execIrefQWrite (w : Writer) (n : Fin 24) (v : Word) (s : State) : Outcome State Fault Refusal :=
  .next (s.loopWriteCmd w n LOOP.IREF_Q v)

def execAngleStageWrite (w : Writer) (n : Fin 24) (omega : Bool) (v : Word) (s : State) :
    Outcome State Fault Refusal :=
  .next (s.loopWriteCmd w n (if omega then LOOP.OMEGA else LOOP.THETA_NS) v)

def execThetaWrite (w : Writer) (n : Fin 24) (v : Word) (s : State) : Outcome State Fault Refusal :=
  .next (s.loopWriteCmd w n LOOP.THETA v)

/-- A write of LRN_CTL that carries CLR (R254). -/
def execLrnClr (w : Writer) (n : Fin 24) (v : Word) (s : State) : Outcome State Fault Refusal :=
  .next (s.loopWriteCmd w n LOOP.LRN_CTL (v ||| 4))

def execMOfsWrite (w : Writer) (n : Fin 24) (v : Word) (s : State) : Outcome State Fault Refusal :=
  .next (s.loopWriteCmd w n LOOP.M_OFS v)

/-- A write of a learner bin (R252). -/
def State.binWrite (s : State) (w : Writer) (n b : Nat) (v : Word) : State × Code :=
  s.actionWrite w (pLOOP n) (fun s =>
    if s.flag (pLOOP n) LOOP.LRN_CTL_EN then refuse s (pLOOP n) (blk 2) .writeRefused
    else (s.setWord (0x820 + 4 * n + b / 1024) (b % 1024 * 4) v, .ok))

def execLearnerBinWrite (w : Writer) (n : Fin 24) (b : Fin 4096) (v : Word) (s : State) :
    Outcome State Fault Refusal := .next (finish w (pLOOP n) (s.binWrite w n b v))

/-- The age of the angle set at a period frame (R249). -/
def State.angAge (s : State) (n : Nat) : State :=
  let p := pLOOP n
  let tmo := s.get p LOOP.CFG_ANG_TMO
  let x := s.loop n
  let age := x.age + 1
  let s := s.setLoop n { x with age := age }
  if tmo ≠ 0 ∧ tmo ≤ age ∧ !s.flag p LOOP.STAT_ANG_OLD then
    ((s.set p LOOP.STAT_ANG_OLD 1).err p (blk 4)).ev p (blk 3)
  else s

/-! ## The start of a run (R244, R245) -/

/-- The latest of a list of frames at or before a time. -/
def lastBefore (l : List UpdPoint) (t : Nat) : Option Nat :=
  ((l.filter (fun f => decide (f.u ≤ t))).map UpdPoint.u).max?

/-- The sampling instant a slot holds (R184): its seconds are the latest that agree with the 16 bits
kept. -/
def State.slotInstant (s : State) (k i : Nat) : Nat :=
  let w1 := s.reg (pACQ k) (ACQ.SLOT_W1 i)
  let w2 := s.reg (pACQ k) (ACQ.SLOT_W2 i)
  let sec := s.sec - (s.sec + 65536 - w2 % 65536) % 65536
  (sec * 1000000000 + w1) * 256 + w2 / 2 ^ 24

/-- A pass mark of the loop's converter that arrived at `t0` (R244, R245, R249): a run starts, or the mark is
refused. -/
def State.loopMark (s : State) (n t0 : Nat) : State :=
  let p := pLOOP n
  let k := n / 6
  let is := s.get p ⟨LOOP.SLOTS, 7, 0⟩
  let vs := s.get p ⟨LOOP.SLOTS, 15, 8⟩
  let ts := s.slotInstant k is
  let per := (s.gen (s.genOf n)).period * 40
  let tf := (lastBefore (s.frames n true) ts).getD ts
  let ul := (lastBefore (s.updates n) (tf + per * 3 / 2)).getD 0
  let x := s.loop n
  if ul < t0 + 1049600 ∨ x.run.isSome then
    (((s.incSat p LOOP.SKIP_CNT).set p LOOP.STAT_SKIPPED 1).err p (blk 3)).ev p (blk 1)
  else
    let r := s.rod n
    let inp : LoopIn := {
      t0 := t0, ts := ts, tf := tf
      i := (List.range 3).map (fun j => s.slotVal k (is + j))
      v := (List.range 3).map (fun j => s.slotVal k (vs + j))
      vup := s.slotVal k (s.get p LOOP.SLOTS_VUP), vlo := s.slotVal k (s.get p LOOP.SLOTS_VLO)
      pair := x.pair, set := x.set, st := if r.stAt ≤ ts then s.rodSt n else r.prevSt }
    ((s.setLoop n { x with run := some inp }).set p LOOP.STAT_RUNNING 1).set p LOOP.STAT_SKIPPED 0

/-- The loop takes the oldest pass mark of converter CFG.MARK_CONV (R244). -/
def execLoopRun (n : Fin 24) (s : State) : Outcome State Fault Refusal :=
  match (s.loop n).marks with
  | t0 :: r => .next ((s.setLoop n { s.loop n with marks := r }).loopMark n t0)
  | [] => .next s

/-! ## Parts of a run -/

/-- A filter record's biquad in binary32 (R265); with EN = 0 the input passes and the state is 0. -/
def State.loopFilt (s : State) (n r x : Nat) : Nat × State :=
  let g (o : Nat) : Nat := s.reg (lfiltAt n r o).1 (lfiltAt n r o).2
  let put (s : State) (o v : Nat) : State := s.setReg (lfiltAt n r o).1 (lfiltAt n r o).2 v
  if (g 0).testBit 31 then
    let y := fsub (fsub (fadd (fadd (fmul (g 0x04) x) (fmul (g 0x08) (g 0x18))) (fmul (g 0x0C) (g 0x1C)))
      (fmul (g 0x10) (g 0x20))) (fmul (g 0x14) (g 0x24))
    (y, put (put (put (put s 0x1C (g 0x18)) 0x18 x) 0x24 (g 0x20)) 0x20 y)
  else (x, put (put (put (put s 0x18 0) 0x1C 0) 0x20 0) 0x24 0)

/-- A learner bin: CD and CQ (R252). -/
def State.bin (s : State) (n b : Nat) : Int × Int :=
  let w := s.reg (0x820 + 4 * n + b / 1024) (b % 1024 * 4)
  (sxt 16 w, sxt 16 (w / 65536))

/-- A number in [lo, hi] of a coefficient; a NaN counts as 0 (R253). -/
def coefF (x hi : Nat) : Nat := if isNaN x then 0 else fClamp x 0 hi

/-- The smoothed and corrected value of one axis of a bin (R253), `t` the error term: the new bin and
whether the limit changed it. -/
def binNew (s0 f bm b0 bp t lim : Nat) : Int × Bool :=
  let sm := fadd (fadd (fmul s0 bm) (fmul (fsub fOne (fmul fTwo s0)) b0)) (fmul s0 bp)
  let y := fToInt 40 (fadd (fmul f sm) t)
  let z := clampI (-(lim : Int)) lim y
  (z, decide (z ≠ y))

/-- The learner's update of bin `k` with the error terms of the axes (R253); with `qOnly` CD is not used and
written 0 (R276). -/
def State.learn (s : State) (n k : Nat) (qOnly : Bool) (td tq : Nat) : State :=
  let p := pLOOP n
  let nn := 2 ^ s.get p LOOP.LRN_CFG_NBITS
  let s0 := coefF (s.lp n LOOP.LRN_SMOOTH) 0x3EAAAAAB
  let f := coefF (s.lp n LOOP.LRN_FORGET) fOne
  let lim := s.lp n LOOP.LRN_LIM % 32768
  let m := s.bin n ((k + nn - 1) % nn)
  let c := s.bin n k
  let u := s.bin n ((k + 1) % nn)
  let d := binNew s0 f (fOfZ m.1) (fOfZ c.1) (fOfZ u.1) td lim
  let q := binNew s0 f (fOfZ m.2) (fOfZ c.2) (fOfZ u.2) tq lim
  let s := s.incSat p LOOP.LRN_SAT (b2n (d.2 && !qOnly) + b2n q.2)
  let s := s.setReg (0x820 + 4 * n + k / 1024) (k % 1024 * 4)
    (enc 16 q.1 * 65536 + if qOnly then 0 else enc 16 d.1)
  s.set p ⟨LOOP.LRN_STAT, 27, 16⟩ k

end Sys2Proof.Machine
end

