-- ==== Sys2Proof/Machine/Loop.lean ====
section
/-! DEFINITION. A run of the inner loop in grid and machine mode (spec/10, R246 to R254; spec/11, R266
to R277), and the end of a descent (spec/06, R157). -/

namespace Sys2Proof.Machine

open Host (Outcome)

/-! ## Angle sources -/

/-- The angle of a run: θ_s, θ_out, the speed in rad/s, and for the learner of machine mode the
mechanical angles at both instants. -/
structure Ang where
  th : Nat
  out : Nat
  w : Nat
  mS : Nat := 0
  mOut : Nat := 0
deriving DecidableEq, Repr

/-- ω of the angle set in rad/s (R246). -/
def omegaRad (om : Nat) : Nat := fdiv (fmul (fmul f2Pi (fOfZ (sxt 32 om))) fE6) f2p32

/-- The angle set extrapolated to the sampling instant and to the output (R246, R249). -/
def State.setAngle (s : State) (n : Nat) (q : LoopIn) : Ang :=
  let om := sxt 32 q.set.2.2
  let d0 : Int := ((q.ts / 256 % 1000000000 : Nat) : Int) - (q.set.2.1 : Int)
  let d := d0 % 1000000000
  let d := if 500000000 ≤ d then d - 1000000000 else d
  let th := angAdd q.set.1 (rneDiv (om * d) 1000)
  { th := th
    out := angAdd th (rneDiv (om * (s.get (pLOOP n) ⟨LOOP.ANG_ADV, 21, 0⟩ : Int)) 6400)
    w := omegaRad q.set.2.2 }

/-- Angle-source states (MSTAT.ASRC). -/
abbrev asIDLE : Nat := 0
abbrev asEXT : Nat := 1
abbrev asOPEN : Nat := 2
abbrev asOBS : Nat := 3
abbrev asPCNT : Nat := 4
abbrev asLOST : Nat := 5

/-- The source in force. -/
def State.asrc (s : State) (n : Nat) : Nat := s.get (pLOOP n) LOOP.MSTAT_ASRC

/-- A change of source (R271). -/
def State.setAsrc (s : State) (n v : Nat) : State :=
  ((s.set (pLOOP n) LOOP.MSTAT_ASRC v).ev (pLOOP n) (blk 4)).incSat (pLOOP n) LOOP.ASRC_CNT

/-- Change what a loop remembers for machine mode. -/
def State.setMach (s : State) (n : Nat) (m : MachX) : State := s.setLoop n { s.loop n with mach := m }

/-- The record of a pulse counter. -/
def State.pcnt (s : State) (c : Nat) : PcntX := tabGet (fun _ => {}) s.pcnts c

/-- Store the record of a pulse counter. -/
def State.setPcnt (s : State) (c : Nat) (x : PcntX) : State :=
  { s with pcnts := tabPut (fun _ => {}) s.pcnts c x }

/-- What the counter path gives a run (R268): θ_raw, θ_pcnt, ω_pcnt, whether the counter is
healthy. -/
structure PcntOut where
  raw : Nat
  th : Nat
  w : Nat
  ok : Bool
deriving DecidableEq, Repr

/-- The counter path of a run (R268), with the latch of its sample frame. -/
def State.pcntPath (s : State) (n : Nat) (q : LoopIn) : PcntOut × State :=
  let p := pLOOP n
  let m := (s.loop n).mach
  let c := s.get p LOOP.MCFG_PCNT
  let cpr := s.lp n LOOP.CPR % 2 ^ 24
  let poles := s.get p LOOP.MCFG_POLES
  let lat := (m.lats.find? (fun l => decide (l.2.2 ≤ q.tf))).getD (m.lats.getLastD (0, 0, 0))
  let delta : Int := match m.cPrev with
    | some c0 => sxt 32 (enc 32 ((lat.1 : Int) - (c0 : Int)))
    | none => 0
  let acc := (((s.lp n LOOP.ACC : Int) + delta) % (cpr : Int)).toNat
  let w := fdiv (fmul (fmul f2Pi (fOfZ poles)) lat.2.1) (fOfZ cpr)
  let raw := if cpr = 0 then 0 else (rneDiv ((poles * acc * 2 ^ 32 : Nat) : Int) cpr % 2 ^ 32).toNat
  let th := angAdd (raw + s.lp n LOOP.M_OFS) (turnF w (secF ((q.ts : Int) - q.tf)))
  let errs := (s.pcnt c).errs
  let ok := s.en (pPCNT c) && decide (errs = m.errSeen) && decide (2 * delta.natAbs < cpr)
  let s := s.setMach n { m with cPrev := some lat.1, errSeen := errs }
  let s := ((s.setLp n LOOP.ACC acc).setLp n LOOP.W_PCNT w).setLp n LOOP.THETA_PCNT th
  (⟨raw, th, w, ok⟩, s)

/-- The flux observer of a run (R270), `i` the currents on the stationary axes. -/
def State.observer (s : State) (n dt : Nat) (i : Nat × Nat) : State :=
  let p := pLOOP n
  let x := s.loop n
  let m := x.mach
  let g (o : Nat) : Nat := s.lp n o
  let (sc, s) := s.trig x.thOut
  let u := iparkF (x.uD, x.uQ) sc
  let flux (psi u i : Nat) : Nat :=
    fadd psi (fmul dt (fsub (fsub u (fmul (g LOOP.RS) i)) (fmul (g LOOP.OBS_WC) psi)))
  let pa := flux m.psiA u.1 i.1
  let pb := flux m.psiB u.2 i.2
  let w0 := g LOOP.W_OBS
  let mag := fmax (fabs w0) (g LOOP.OBS_WMIN)
  let wsgn := if fLt w0 0 then fneg mag else mag
  let k := fdiv (g LOOP.OBS_WC) wsgn
  let lobs := g (if s.flag p LOOP.MCFG_MACH then LOOP.L_D else LOOP.L_Q)
  let fa := fsub (fadd pa (fmul k pb)) (fmul lobs i.1)
  let fb := fsub (fsub pb (fmul k pa)) (fmul lobs i.2)
  let len := hypotF fa fb
  let (st, s) := s.trig (g LOOP.THETA_OBS)
  let err := if fEq len 0 then fneg st.1 else fdiv (fsub (fmul fb st.2) (fmul fa st.1)) len
  let w := fadd (fmul (g LOOP.OBS_PLL_KP) err) m.xObs
  let xo := fadd m.xObs (fmul (fmul (g LOOP.OBS_PLL_KI) dt) err)
  let th := angAdd (g LOOP.THETA_OBS) (turnF w dt)
  let psi := g LOOP.PSI
  let good := fle (g LOOP.OBS_WMIN) (fabs w) && fle (fabs (fsub len psi)) (fdiv psi 0x40800000)
  let okR := if good then m.okRuns + 1 else 0
  let badR := if good then 0 else m.failRuns + 1
  let fn := orFull (s.get p LOOP.MCFG_FAIL_N) 4
  let was := s.flag p LOOP.MSTAT_OBS_OK
  let s := s.setMach n { m with psiA := pa, psiB := pb, xObs := xo, okRuns := okR, failRuns := badR }
  let s := ((s.setLp n LOOP.W_OBS w).setLp n LOOP.THETA_OBS th).setLp n LOOP.PSI_OBS len
  s.setB p LOOP.MSTAT_OBS_OK (if was then decide (badR < fn) else decide (8 ≤ okR))

/-- The observer's state and θ_sl are 0 (R270, R271). -/
def State.obsClear (s : State) (n : Nat) : State :=
  let m := (s.loop n).mach
  let s := s.setMach n { m with
    psiA := 0, psiB := 0, xObs := 0, okRuns := 0, failRuns := 0, thSl := 0, ho := [], wFail := 0 }
  let s := ((s.setLp n LOOP.W_OBS 0).setLp n LOOP.THETA_OBS 0).setLp n LOOP.PSI_OBS 0
  s.set (pLOOP n) LOOP.MSTAT_OBS_OK 0

/-- A counter failure (R273). -/
def State.pcntFail (s : State) (n : Nat) : State :=
  let p := pLOOP n
  let s := ((s.err p (blk 6)).ev p (blk 5)).incSat p LOOP.PCNT_FAIL_CNT
  let s := (s.set p LOOP.MSTAT_REF_OK 0).set p LOOP.MSTAT_PCNT_BAD 1
  s.set p LOOP.MSTAT_RECOVERY 1

/-- Offset learning (R272): the values collected; when complete, their circular mean. -/
def State.hoCollect (s : State) (n raw : Nat) (ok : Bool) : Option Nat × State :=
  let p := pLOOP n
  let m := (s.loop n).mach
  let hn := orFull (s.get p LOOP.MCFG_HO_N) 64
  let d := enc 32 ((s.lp n LOOP.THETA_OBS : Int) - raw)
  let l := if ok then (d :: m.ho).take hn else []
  let s := s.setMach n { m with ho := l }
  let rel (a : Nat) : Int := sxt 32 (enc 32 ((a : Int) - d))
  let mean := divRound ((l.map rel).foldl (· + ·) 0) hn
  let all := l.all (fun a => decide ((rel a - mean).natAbs ≤ s.lp n LOOP.HO_TOL))
  (if l.length = hn ∧ all then some (angAdd d mean) else none, s)

/-- The changes of source of a run (R271 to R273); a disagreement of the speeds in FAIL_N consecutive runs is a
counter failure under every source. -/
def State.asrcStep (s : State) (n : Nat) (q : LoopIn) (c : PcntOut) : State :=
  let p := pLOOP n
  let src := s.get p LOOP.CFG_ANG_SRC
  let m := (s.loop n).mach
  let live := decide (q.st = stRUN ∨ q.st = stDESCENT)
  let obsOk := s.flag p LOOP.MSTAT_OBS_OK
  let refOk := s.flag p LOOP.MSTAT_REF_OK
  let toPcnt (s : State) : State := (s.setMach n { (s.loop n).mach with thSl := 0 }).setAsrc n asPCNT
  let now := s.asrc n
  let fn := orFull (s.get p LOOP.MCFG_FAIL_N) 4
  let wf := if live && obsOk && fLt (s.lp n LOOP.HO_WTOL) (fabs (fsub c.w (s.lp n LOOP.W_OBS))) then m.wFail + 1 else 0
  let s := s.setMach n { m with wFail := wf }
  let s := if now ≠ asPCNT ∧ wf = fn then s.pcntFail n else s
  let refOk := refOk && decide (now = asPCNT ∨ wf ≠ fn)
  if !live then
    if now = asIDLE then s
    else
      let s := (s.setAsrc n asIDLE).obsClear n
      (s.set p LOOP.MSTAT_PCNT_BAD 0).set p LOOP.MSTAT_RECOVERY 0
  else if now = asIDLE then
    if q.st ≠ stRUN then s
    else if src = 0 then s.setAsrc n asEXT
    else if src = 1 ∧ refOk ∧ c.ok then toPcnt s
    else if src = 1 ∧ !refOk ∧ fLt (s.lp n LOOP.OPEN_WMAX) (fabs c.w) then s.setAsrc n asLOST
    else (s.setMach n { (s.loop n).mach with thOpen := 0, openAt := q.ts }).setAsrc n asOPEN
  else if now = asOPEN then
    let lim := fadd (fadd (fOfQ (s.get p LOOP.MCFG2_ALIGN_TIME) 1000)
      (fdiv (fmul fTwo (s.lp n LOOP.OBS_WMIN)) (s.lp n LOOP.OPEN_ACC))) fOne
    if obsOk then ((s.setLp n LOOP.XI_D 0).setLp n LOOP.XI_Q 0).setAsrc n asOBS
    else if fle lim (secF ((q.ts : Int) - m.openAt)) then s.setAsrc n asLOST
    else s
  else if now = asOBS then
    let learning := decide (src = 1) && !refOk && !s.flag p LOOP.MSTAT_PCNT_BAD
    let (done, s) := if learning then s.hoCollect n c.raw c.ok else (none, s)
    match done with
    | some ofs => toPcnt ((s.setLp n LOOP.M_OFS ofs).set p LOOP.MSTAT_REF_OK 1)
    | none => if !obsOk then s.setAsrc n asLOST else s
  else if now = asPCNT then
    if !c.ok ∨ fn ≤ wf then (s.pcntFail n).setAsrc n (if obsOk then asOBS else asLOST) else s
  else s

/-- The open-loop angle of a run (R271). -/
def State.openAngle (s : State) (n : Nat) (q : LoopIn) (dt : Nat) : Nat × Nat × State :=
  let p := pLOOP n
  let m := (s.loop n).mach
  let el := fsub (secF ((q.ts : Int) - m.openAt)) (fOfQ (s.get p LOOP.MCFG2_ALIGN_TIME) 1000)
  let w := if fLt 0 el then
      fmin (fmul (s.lp n LOOP.OPEN_ACC) el) (fmul fTwo (s.lp n LOOP.OBS_WMIN)) else 0
  let th := angAdd m.thOpen (turnF w dt)
  (th, w, s.setMach n { m with thOpen := th })

/-- Whether the active deceleration of R277 is in force in a run. -/
def State.spdRun (s : State) (n : Nat) (q : LoopIn) : Bool :=
  s.machMode n && decide (q.st = stDESCENT) && s.flag (pPROT n) PROT.STATUS_DESC_SPD

/-- The descent factor of a run (R247, R157, R277). -/
def State.dfact (s : State) (n : Nat) (q : LoopIn) : Nat :=
  if q.st ≠ stDESCENT then fOne
  else if s.machMode n then (if s.spdRun n q then fOne else 0)
  else
    let dt := orFull (s.get (pPROT n) PROT.DESC_CFG_DESC_TIME) 100
    let x := fOfQ ((q.ts : Int) - (s.rod n).descAt) (dt * unitsMs)
    fmul (s.rod n).descDf0 (fmax 0 (fsub fOne x))

/-- The reference of a run before the torque learner (R246, R266, R271, R277), `w` the speed whose sign
the deceleration opposes. -/
def State.runRef (s : State) (n : Nat) (q : LoopIn) (df w : Nat) : Nat × Nat :=
  if s.spdRun n q then
    let iq := s.lp n LOOP.SPD_IQ
    ((s.rod n).spdIref, if fLt 0 w then fneg iq else if fLt w 0 then iq else 0)
  else if s.machMode n ∧ s.asrc n = asOPEN then (s.lp n LOOP.OPEN_IREF, 0)
  else (fmul df q.pair.1, fmul df q.pair.2)

/-- A binary32 number as a finite one. -/
def fFinite (x : Nat) : Nat := if fExp x = 255 then 0 else x

/-- The angle in force in machine mode (R266, R267, R276); in IDLE and LOST no source gives one, and
angle and speed are free, the speed a finite number. -/
def State.machAngle (s : State) (n : Nat) (q : LoopIn) (dt : Nat) (c : PcntOut) : Ang × State :=
  let p := pLOOP n
  let adv := s.get p ⟨LOOP.ANG_ADV, 21, 0⟩
  let advS := fOfQ (adv : Int) 6400000000
  let mk (th w : Nat) : Ang := { th := th, out := angAdd th (turnF w advS), w := w }
  match s.asrc n with
  | 1 => (s.setAngle n q, s)
  | 2 =>
    let r := s.openAngle n q dt
    (mk r.1 r.2.1, r.2.2)
  | 3 => (mk (s.lp n LOOP.THETA_OBS) (s.lp n LOOP.W_OBS), s)
  | 4 =>
    let m := (s.loop n).mach
    let thP := angAdd (c.raw + s.lp n LOOP.M_OFS) (turnF c.w (secF ((q.ts : Int) - q.tf)))
    let s := s.setLp n LOOP.THETA_PCNT thP
    let r := s.runRef n q (s.dfact n q) c.w
    let wsl := if s.flag p LOOP.MCFG_MACH && fLt 0 r.1 then fdiv r.2 (fmul (s.lp n LOOP.TR) r.1) else 0
    let sl := if s.flag p LOOP.MCFG_MACH then angAdd m.thSl (turnF wsl dt) else 0
    let s := s.setMach n { m with thSl := sl }
    let cpr := s.lp n LOOP.CPR % 2 ^ 24
    let thM := (rneDiv ((s.lp n LOOP.ACC * 2 ^ 32 : Nat) : Int) cpr % 2 ^ 32).toNat
    let wm := fdiv c.w (fOfZ (s.get p LOOP.MCFG_POLES))
    let mS := angAdd thM (turnF wm (secF ((q.ts : Int) - q.tf)))
    let a := mk (angAdd thP sl) (fadd c.w wsl)
    ({ a with mS := mS, mOut := angAdd mS (turnF wm advS) }, s)
  | _ =>
    let f := s.frees 2
    (mk (f.1.getD 0 0) (fFinite (f.1.getD 1 0)), f.2)

/-! ## The run (R246) -/

/-- The learner's bin of an angle. -/
def binOf (nb th : Nat) : Nat := th / 2 ^ (32 - nb)

/-- Write a reference set of the loop to the rod (R108, R246). -/
def State.loopRefs (s : State) (n : Nat) (l : List Int) (tf : Nat) : State :=
  if s.get (pROD n) ROD.CFG_REF_SRC = 1 then s
  else
    let e (i : Nat) : Nat := enc 16 (l.getD i 0)
    let s := (s.setReg (pROD n) ROD.REF_AB (e 1 * 65536 + e 0)).setReg (pROD n) ROD.REF_C (e 2)
    (s.arm n).setLoop n { (s.arm n).loop n with setTf := some tf }

/-- The control part of a run: references in, the rod's set and the learner out (R246 to R253).
`none`: the run meets a NaN (R248). -/
def State.control (s : State) (n : Nat) (q : LoopIn) (dt df : Nat) (a : Ang) (r i f : Nat × Nat)
    (vdc : Nat) : Option State :=
  let p := pLOOP n
  let x := s.loop n
  let mach := s.machMode n
  let live := decide (q.st = stRUN ∨ q.st = stDESCENT)
  let tq := mach && s.flag p LOOP.MCFG_LRN_TQ
  let lrnSrc := !mach || decide (s.asrc n = asPCNT)
  let apply := s.flag p LOOP.LRN_CTL_EN && live && lrnSrc
  let nb := s.get p LOOP.LRN_CFG_NBITS
  let nn := 2 ^ nb
  let ko := (binOf nb (if mach then a.mOut else a.out) + s.get p LOOP.LRN_CFG_LEAD) % nn
  let ks := binOf nb (if mach then a.mS else a.th)
  let b := s.bin n ko
  let scale (v : Int) : Nat :=
    let y := fdiv (fmul (fOfZ v) vdc) f65536
    if q.st = stDESCENT then fmul y df else y
  let imax := s.lp n LOOP.LRN_IMAX
  let corr := if apply && tq then
      let y := fdiv (fmul (fOfZ b.2) imax) 0x47000000
      (if q.st = stDESCENT then fmul y df else y) else 0
  let l : Nat × Nat := if apply && !tq then (scale b.1, scale b.2) else (0, 0)
  let r := (r.1, if apply && tq then fadd r.2 corr else r.2)
  let e := (fsub r.1 i.1, fsub r.2 i.2)
  let ff := s.flag p LOOP.CFG_FF_EN
  let dec := s.flag p LOOP.CFG_DEC_EN
  let or0 (b : Bool) (v : Nat) : Nat := if b then v else 0
  let c : Nat × Nat := if mach then
      (or0 dec (fmul (fmul (fneg a.w) (s.lp n LOOP.L_Q)) i.2),
       fadd (or0 dec (fmul (fmul a.w (s.lp n LOOP.L_D)) i.1)) (or0 ff (fmul a.w (s.lp n LOOP.PSI))))
    else
      (fadd (or0 ff f.1) (or0 dec (fmul (fmul (fneg a.w) (s.lp n LOOP.L_DEC)) i.2)),
       fadd (or0 ff f.2) (or0 dec (fmul (fmul a.w (s.lp n LOOP.L_DEC)) i.1)))
  let ulim := fdiv (fmul (s.lp n LOOP.U_LIM) vdc) fTwo
  let kp := s.lp n LOOP.KP
  let ki := s.lp n LOOP.KI
  let xd := s.lp n LOOP.XI_D
  let xq := s.lp n LOOP.XI_Q
  let out (e xi c l : Nat) : Nat := fadd (fadd (fadd (fmul kp e) xi) c) l
  let td := fadd xd (fmul (fmul ki dt) e.1)
  let tq' := fadd xq (fmul (fmul ki dt) e.2)
  let take := live && fle (hypotF (out e.1 td c.1 l.1) (out e.2 tq' c.2 l.2)) ulim
  let xd := if take then td else xd
  let xq := if take then tq' else xq
  let u := (out e.1 xd c.1 l.1, out e.2 xq c.2 l.2)
  let len := hypotF u.1 u.2
  let lim := fLt ulim len
  let u := if lim then (fdiv (fmul u.1 ulim) len, fdiv (fmul u.2 ulim) len) else u
  let upd := s.flag p LOOP.LRN_CTL_EN && lrnSrc && decide (q.st = stRUN) &&
    !s.flag p LOOP.LRN_CTL_FREEZE && !lim
  let gain := s.lp n LOOP.LRN_GAIN
  let wavg := fadd x.mach.wAvg (fmul (fsub a.w x.mach.wAvg) (fmin fOne (fdiv dt (s.lp n LOOP.LRN_WTAU))))
  let s := if tq && lrnSrc then s.setMach n { x.mach with wAvg := wavg } else s
  let s := if upd then
      if tq then
        let t := fdiv (fmul (fmul gain (fsub wavg a.w)) 0x47000000) imax
        s.learn n ks true 0 t
      else s.learn n ks false (fdiv (fmul (fmul gain e.1) f65536) vdc) (fdiv (fmul (fmul gain e.2) f65536) vdc)
    else s
  let s := if apply then s.set p ⟨LOOP.LRN_STAT, 11, 0⟩ ko else s
  let s := s.setB p LOOP.STAT_LRN_ACTIVE apply
  let (sc, s) := s.trig a.out
  let v := (iclarkeF (iparkF u sc)).map (fun y => fdiv (fmul y f65536) vdc)
  if ([u.1, u.2, xd, xq] ++ v).any isNaN then none
  else
    let s := ((s.setLp n LOOP.XI_D xd).setLp n LOOP.XI_Q xq).setLp n LOOP.UD u.1
    let s := (s.setLp n LOOP.UQ u.2).setB p LOOP.STAT_U_LIMIT lim
    let s := if lim then s.incSat p LOOP.LIMIT_CNT else s
    let s := if lim && !x.limited then
        let s := s.ev p (blk 2)
        if mach then s.setLp n LOOP.LIMIT_NS (q.ts / 256 % 1000000000) else s
      else s
    let y := s.loop n
    let s := s.setLoop n { y with limited := lim, uD := u.1, uQ := u.2, thOut := a.out }
    some (if s.flag p LOOP.STAT_ANG_OLD then s else s.loopRefs n (v.map (fToInt 16)) q.tf)

/-- The angle of a machine loop's run: the counter's path, the observer (`fresh`: cleared first), the source. -/
def State.machTake (s : State) (n : Nat) (q : LoopIn) (dt : Nat) (fresh live : Bool) (iab : Nat × Nat) : Ang × State :=
  let c := s.pcntPath n q
  let s := c.2
  let s := if live then (if fresh then s.obsClear n else s).observer n dt iab else s
  let s := s.asrcStep n q c.1
  let r := s.machAngle n q dt c.1
  (r.1, r.2.setLp n LOOP.W_E r.1.w)

/-- The measured part of a run and what follows (R246, R248, R266, R274); `none`: a NaN. -/
def State.runBody (s : State) (n : Nat) (q : LoopIn) : Option State :=
  let p := pLOOP n
  let x := s.loop n
  let mach := s.machMode n
  let per := (s.gen (s.genOf n)).period * 40
  let dtU : Nat := match x.prevTs with
    | some t => if 4 * per < q.ts - t then per else q.ts - t
    | none => per
  let dt := secF dtU
  let live := decide (q.st = stRUN ∨ q.st = stDESCENT)
  let cur (k : Nat) : Nat := fmul (s.lp n LOOP.I_SCALE) (fOfZ (q.i.getD k 0))
  let vol (k : Nat) : Nat := fmul (s.lp n LOOP.V_SCALE) (fOfZ (q.v.getD k 0))
  let vdc := fmul (s.lp n LOOP.VDC_SCALE) (fOfZ (q.vup + q.vlo))
  let iab := clarkeF (cur 0) (cur 1) (cur 2)
  let fresh := live && decide (x.ranIn ≠ (s.rod n).runs)
  let s := if !live || fresh then (s.setLp n LOOP.XI_D 0).setLp n LOOP.XI_Q 0 else s
  let t := if mach then s.machTake n q dt fresh live iab
    else (s.setAngle n q, s)
  let a := t.1
  let s := t.2
  let g := s.trig a.th
  let sc := g.1
  let i0 := parkF iab sc
  let d0 := g.2.loopFilt n 0 i0.1
  let q0 := d0.2.loopFilt n 1 i0.2
  let s := q0.2
  let id := d0.1
  let iq := q0.1
  let v := if mach then (x.uD, x.uQ) else parkF (clarkeF (vol 0) (vol 1) (vol 2)) sc
  let d1 := if mach then (v.1, s) else s.loopFilt n 2 v.1
  let q1 := if mach then (v.2, d1.2) else d1.2.loopFilt n 3 v.2
  let fd := d1.1
  let fq := q1.1
  let s := q1.2
  let pw := fmul f1p5 (fadd (fmul v.1 id) (fmul v.2 iq))
  let qw := fmul f1p5 (fsub (fmul v.2 id) (fmul v.1 iq))
  let tau := s.lp n LOOP.PQ_TAU
  let filt (old new : Nat) : Nat :=
    if fle tau 0 then new else fadd old (fmul (fsub new old) (fmin fOne (fdiv dt tau)))
  let df := s.dfact n q
  let s := ((s.setLp n LOOP.ID id).setLp n LOOP.IQ iq).setLp n LOOP.VD v.1
  let s := ((s.setLp n LOOP.VQ v.2).setLp n LOOP.VDC vdc).setLp n LOOP.THETA_S a.th
  let s := (s.setLp n LOOP.PMEAS (filt (s.lp n LOOP.PMEAS) pw)).setLp n LOOP.QMEAS
    (filt (s.lp n LOOP.QMEAS) qw)
  let s := (s.setLp n LOOP.DFACT df).setLp n LOOP.RUN_NS (q.ts / 256 % 1000000000)
  let s := s.setB p LOOP.STAT_INT_ACTIVE live
  let low := fLt vdc (s.lp n LOOP.VDC_MIN)
  let s := s.setB p LOOP.STAT_VDC_LOW low
  let lost := mach && decide (s.asrc n = asLOST)
  let s := if lost then (s.err p (blk 7)).ev p (blk 6) else s
  let fin (s : State) : State := s.setLoop n { s.loop n with
    prevTs := some q.ts, ranIn := if live then (s.rod n).runs else (s.loop n).ranIn }
  if low || lost then some (fin ((s.set p LOOP.STAT_U_LIMIT 0).set p LOOP.STAT_LRN_ACTIVE 0))
  else
    let r := s.runRef n q df a.w
    let r := (fadd r.1 (s.eisInject n q.ts v.1), r.2)
    (s.control n q dt df a r (id, iq) (fd, fq) vdc).map fin

/-- A run completes (R246): its effects, or under R248 only the NaN flags. -/
def execLoopRunComplete (n : Fin 24) (s : State) : Outcome State Fault Refusal :=
  let p := pLOOP n
  match (s.loop n).run with
  | none => .next s
  | some q =>
    let s := (s.setLoop n { s.loop n with run := none }).set p LOOP.STAT_RUNNING 0
    let s := s.setLp n LOOP.RUN_TIME (min ((s.beam.t - q.t0) / 256) 4095)
    let s := s.ev p (blk 0)
    match s.runBody n q with
    | some s => .next ((s.set p LOOP.STAT_NAN 0).eisAfterRun n)
    | none => .next ((((s.incSat p LOOP.NAN_CNT).set p LOOP.STAT_NAN 1).err p (blk 5)).eisAfterRun n)

/-! ## The end of a descent (R157, R277) -/

/-- A rod in DESCENT at a period frame: whether the end conditions hold here is counted; in machine mode two
quiet frames stand whatever follows. -/
def State.descentFrame (s : State) (n : Nat) : State :=
  if s.rodSt n ≠ stDESCENT then s
  else
    let x := s.rod n
    let good := if s.machMode n then
        fle (fabs (s.lp n LOOP.W_E)) (s.lp n LOOP.SPD_WEND) || decide (2 ≤ x.quietFrames)
      else
        (List.range 3).all (fun k =>
          decide ((s.slotVal (n / 6) (s.get (pPROT n) PROT.SLOT_A_I1 + k)).natAbs ≤
            s.get (pPROT n) PROT.DESC_CFG_DESC_IEND))
    s.setRod n { x with
      quietFrames := if good then x.quietFrames + 1 else 0, descFrames := x.descFrames + 1
      lostFrames := if s.machMode n ∧ s.asrc n = asLOST then x.lostFrames + 1 else 0 }

/-- Whether the end condition of a descent holds: in grid mode the factor 0 and small currents at two
consecutive period frames; in machine mode after STOP the next period frame, under SPD the frame after low speed
at two consecutive ones, or the next frame with the source lost. -/
def State.descentOver (s : State) (n : Nat) : Bool :=
  let x := s.rod n
  if !s.machMode n then
    decide (x.descAt + orFull (s.get (pPROT n) PROT.DESC_CFG_DESC_TIME) 100 * unitsMs ≤ s.beam.t) &&
      decide (2 ≤ x.quietFrames)
  else if s.flag (pPROT n) PROT.STATUS_DESC_SPD then
    decide (3 ≤ x.quietFrames) || decide (1 ≤ x.lostFrames)
  else decide (1 ≤ x.descFrames)

def execDescentEnd (n : Fin 24) (s : State) : Outcome State Fault Refusal :=
  if s.rodSt n = stDESCENT ∧ s.descentOver n then
    let s := s.enterGatesOff n
    .next (s.setRod n { s.rod n with modEnd := some (s.updateAfter n) })
  else .next s

end Sys2Proof.Machine
end

