-- ==== Sys2Proof/Machine/Pcnt.lean ====
section
/-! DEFINITION. The pulse counters (spec/15, R382 to R386, R390). -/

namespace Sys2Proof.Machine

open Host (Outcome)

/-- Bits of PCNT.ERR. -/
abbrev peILLEGAL : Nat := 0
abbrev peOVERRATE : Nat := 1
abbrev peSATLO : Nat := 2
abbrev peSATHI : Nat := 3
abbrev peGAP : Nat := 4

/-- Set an error; its event where the bit goes from 0 to 1. -/
def State.cntErr (s : State) (n b : Nat) : State :=
  let p := pPCNT n
  let e := if b = 0 then 0 else if b = 1 then 1 else if b = 4 then 3 else 2
  let s' := s.setBit p PCNT.ERR b true
  let s' := if s.bit p PCNT.ERR b then s' else s'.ev p (blk e)
  if b = peILLEGAL ∨ b = peOVERRATE ∨ b = peGAP then
    s'.setPcnt n { s'.pcnt n with errs := (s'.pcnt n).errs + 1 }
  else s'

/-- The count. -/
def State.count (s : State) (n : Nat) : Int := s.regS (pPCNT n) PCNT.COUNT

/-- A counted edge in a direction (R382). -/
def State.countEdge (s : State) (n : Nat) (up : Bool) : State :=
  let p := pPCNT n
  let c := s.count n + (if up then 1 else -1)
  let lim := s.flag p PCNT.CFG_LIM_EN
  let s := if lim ∧ s.regS p PCNT.LIM_HI < c then s.cntErr n peSATHI
    else if lim ∧ c < s.regS p PCNT.LIM_LO then s.cntErr n peSATLO
    else s.setReg p PCNT.COUNT (enc 32 c)
  let x := s.pcnt n
  let s := match x.lastEdge, x.lastUp with
    | some t, some u => if u = up then s.setReg p PCNT.EDGE_DT (min ((s.beam.t - t) / 256) 0xFFFFFFFF) else s
    | _, _ => s
  s.setPcnt n { x with lastEdge := some s.beam.t, lastUp := some up }

/-- A line's change that counts: its new level has held for FILT samples. -/
def counted (filt : Nat) (c : Option LineChange) : Option Bool :=
  match c with
  | some c => if filt ≤ c.held then some c.level else none
  | none => none

/-- Whether a line's level held for less than FILT samples: a pulse that is not counted. -/
def tooShort (filt : Nat) (c : Option LineChange) : Bool :=
  match c with
  | some c => decide (c.held < filt)
  | none => false

/-- One sample of the lines (R382). -/
def State.cntSample (s : State) (n : Nat) (e : CntEdges) : State :=
  let p := pPCNT n
  let filt := max 1 (s.get p PCNT.CFG_FILT)
  let ca := counted filt e.a
  let cb := counted filt e.b
  let fast (c : Option LineChange) (s : State) : State :=
    if tooShort filt c then (s.cntErr n peOVERRATE).incSat p PCNT.OVR_CNT else s
  let s := fast e.b (fast e.a s)
  let bad (s : State) : State := (s.cntErr n peILLEGAL).incSat p PCNT.ILL_CNT
  if s.flag p PCNT.CFG_MODE then
    let a := ca.isSome
    let b := cb.isSome
    if a && b then bad s else if a then s.countEdge n true else if b then s.countEdge n false else s
  else
    let edge := match s.get p PCNT.CFG_EDGE with
      | 1 => decide (ca = some false)
      | 2 => ca.isSome
      | _ => decide (ca = some true)
    if edge && cb.isSome then bad s
    else if edge then s.countEdge n (e.lineB != s.flag p PCNT.CFG_DIR_INV)
    else s

/-- Whether a counter counts: enabled, its domain active, or FD0 in REST (R386). -/
def State.cntOn (s : State) (n : Nat) : Bool :=
  s.en (pPCNT n) && (decide (s.dom (.fd (n / 4)) = .active) || decide (n < 4 ∧ s.dev = dvREST))

def execPcntEdge (n : Fin 16) (e : CntEdges) (s : State) : Outcome State Fault Refusal :=
  .next (if s.cntOn n then s.cntSample n e else s)

/-! ## The count and the observer (R383, R384) -/

/-- Show the observer's position. -/
def State.showObs (s : State) (n : Nat) : State :=
  let x := (s.pcnt n).pos
  (s.setReg (pPCNT n) PCNT.OBS_POS (x / 2 ^ 32 % 2 ^ 32)).setReg (pPCNT n) PCNT.OBS_FRAC (x % 2 ^ 32 / 2 ^ 16 * 2 ^ 16)

/-- A write of COUNT (R383). -/
def State.countWrite (s : State) (n : Nat) (v : Word) : State :=
  let p := pPCNT n
  let x := sxt 32 v.toNat
  let lo := s.regS p PCNT.LIM_LO
  let hi := s.regS p PCNT.LIM_HI
  let lim := s.flag p PCNT.CFG_LIM_EN
  let s0 := s
  let s := if lim ∧ x < lo then s.cntErr n peSATLO else if lim ∧ hi < x then s.cntErr n peSATHI else s
  let c := if lim then clampI lo hi x else x
  let s := s.setReg p PCNT.COUNT (enc 32 c)
  let r := s.pcnt n
  (s.setPcnt n { r with pos := enc 64 ((r.pos : Int) + (c - s0.count n) * 2 ^ 32) }).showObs n

def execCountWrite (w : Writer) (n : Fin 16) (v : Word) (s : State) : Outcome State Fault Refusal :=
  .next (finish w (pPCNT n) (s.actionWrite w (pPCNT n) (fun s => (s.countWrite n v, .ok))))

/-- One update of the tracking observer (R384), in binary32 in the order of the equations. -/
def State.observe (s : State) (n : Nat) : State :=
  let p := pPCNT n
  let x := s.pcnt n
  let bw := max 1 (min 500 (s.get p PCNT.CFG_BW))
  let wb := fmul f2Pi (fOfZ bw)
  let k1 := fmul (fOfZ 3) wb
  let k2 := fmul k1 wb
  let k3 := fmul (fmul wb wb) wb
  let dt := fOfQ 1 1000000
  let e := fOfQ (sxt 64 (enc 64 ((s.reg p PCNT.COUNT * 2 ^ 32 : Nat) - (x.pos : Int)))) (2 ^ 32)
  let v := s.reg p PCNT.OBS_SPD
  let a := s.reg p PCNT.OBS_ACC
  let dp := fmul dt (fadd v (fmul k1 e))
  let v' := fadd v (fmul dt (fadd a (fmul k2 e)))
  let a' := fadd a (fmul (fmul dt k3) e)
  let s := s.setPcnt n { x with pos := enc 64 ((x.pos : Int) + fToInt 64 (fmul dp (fOfZ (2 ^ 32)))) }
  ((s.setReg p PCNT.OBS_SPD v').setReg p PCNT.OBS_ACC a').showObs n

def execObserverUpdate (n : Fin 16) (s : State) : Outcome State Fault Refusal :=
  .next (if s.cntOn n then s.observe n else s)

/-! ## Latch, rest, registers (R385, R386, R390) -/

/-- A frame of rod `r` at beam time `u` latches the counter that its machine-mode loop names (R268, R385). -/
def State.cntLatch (s : State) (r u : Nat) : State :=
  if s.get (pROD r) ROD.CFG_MODE ≠ 1 then s
  else
    let c := s.get (pLOOP r) LOOP.MCFG_PCNT
    if 16 ≤ c then s
    else
      let p := pPCNT c
      let cnt := s.reg p PCNT.COUNT
      let spd := s.reg p PCNT.OBS_SPD
      let s := ((s.setReg p PCNT.LAT_CNT cnt).setReg p PCNT.LAT_SPD spd).setReg p PCNT.LAT_NS s.ns
      s.setMach r { (s.loop r).mach with lats := ((cnt, spd, u) :: (s.loop r).mach.lats).take 4 }

/-- The domain of a counter rests, or wakes (R386): it has missed the edges of the rest. -/
def State.cntRest (s : State) (n : Nat) : State :=
  if n < 4 ∧ s.dev = dvREST then s else s.setPcnt n { s.pcnt n with rested := true }
def State.cntWake (s : State) (n : Nat) : State :=
  let p := pPCNT n
  if (s.pcnt n).rested then
    let s := s.cntErr n peGAP
    let s := s.setPcnt n { s.pcnt n with rested := false, pos := s.reg p PCNT.COUNT * 2 ^ 32 }
    (((s.setReg p PCNT.OBS_SPD 0).setReg p PCNT.OBS_ACC 0).ev p (blk 3)).showObs n
  else s

/-- A PCNT commit that R390 refuses. -/
def State.cntDenied (s : State) (n : Nat) : Bool :=
  let p := pPCNT n
  decide (s.stagedGet p PCNT.CFG_LIM_EN = 1) &&
    decide (sxt 32 (s.stagedWord p PCNT.LIM_HI).toNat ≤ sxt 32 (s.stagedWord p PCNT.LIM_LO).toNat)

/-- Writes of PCNT registers with rules of their own. -/
def State.cntRegWrite (s : State) (n off : Nat) (v : Word) : Option (State × Code) :=
  if off = PCNT.COUNT then some (s.countWrite n v, .ok) else none

end Sys2Proof.Machine
end

