-- ==== Sys2Proof/Machine/Safe.lean ====
section
/-! DEFINITION. The safety functions (spec/16, R391 to R405, R410 to R415): the kernel's cycle, SGR and
SPD, monitors, inputs, outputs, safety reset, pair faults. -/

namespace Sys2Proof.Machine

open Host (Outcome)

/-! ## Conditions (R392, R405, R412) -/

/-- Whether a pair fault holds the pair in reset: every one but PARAM_BAD. -/
def State.pairHeld (s : State) : Bool :=
  s.flag pSPAIR SPAIR.STAT_MISMATCH || s.flag pSPAIR SPAIR.STAT_ECC_FATAL || s.flag pSPAIR SPAIR.STAT_WDT_EXP

/-- Whether the kernel may run. -/
def State.kernelOk (s : State) : Bool :=
  s.safe.started && !s.split && !s.pairHeld && !s.flag pSPAIR SPAIR.STAT_DBG_HALTED && decide (s.dom .rd = .active)

/-- TEST_DAYS (R413). -/
def State.testDays (s : State) : Nat :=
  let d := s.get pSAFE SAFE.CFG_TEST_DAYS
  if d = 0 then 30 else d

/-- Whether a rod's trip-path test is due. -/
def State.testDue (s : State) (r : Nat) : Bool :=
  s.flag pSAFE (SAFE.MON_CFG_EN r) && decide (s.testDays ≤ s.get pSAFE (SAFE.MON_STAT_TEST_AGE r))

/-- SAFE_OK (R392). -/
def State.safeOkNow (s : State) : Bool := s.safeBase && allRods.all (fun r => !s.testDue r)

/-- SAFE.STAT and its event (R392, R413, R414). -/
def State.safeStat (s : State) : State :=
  let s := s.setB pSAFE SAFE.STAT_UNLOCKED (!s.locked pSAFE)
  let s := s.setB pSAFE SAFE.STAT_SPLIT s.split
  let s := s.setB pSAFE SAFE.STAT_TEST_DUE (allRods.any (fun r => s.testDue r))
  let ok := s.safeOkNow
  if s.flag pSAFE SAFE.STAT_SAFE_OK = ok then s else (s.setB pSAFE SAFE.STAT_SAFE_OK ok).ev pSAFE (blk 4)

/-! ## SGR and SPD (R393 to R395) -/

/-- The record of a rod's monitor. -/
def State.mon (s : State) (r : Nat) : MonX := tabGet (fun _ => {}) s.safe.mons r

/-- Store the record of a rod's monitor. -/
def State.setMon (s : State) (r : Nat) (x : MonX) : State :=
  s.setSafe { s.safe with mons := tabPut (fun _ => {}) s.safe.mons r x }

/-- The electrical speed of a rod from its source (R397). -/
def State.safeSpeed (s : State) (r : Nat) : Nat :=
  let p := pLOOP r
  if s.get p LOOP.MSTAT_ASRC = asPCNT then
    let c := pPCNT (s.get p LOOP.MCFG_PCNT)
    fdiv (fmul (fmul f2Pi (fOfZ (s.get p LOOP.MCFG_POLES))) (s.reg c PCNT.LAT_SPD)) (fOfZ (s.reg p LOOP.CPR % 2 ^ 24))
  else s.reg p LOOP.W_OBS

/-- Begin the monitoring of an SPD at t_d. -/
def State.beginSpd (s : State) (r td : Nat) (latching : Bool) : State :=
  let x := s.mon r
  let s := s.setMon r { x with
    td := td, p0 := x.ps.getD 0, w0 := s.safeSpeed r, latching := latching, fails := [0, 0, 0] }
  s.setBit pSAFE SAFE.SPD_MAP r true

/-- Apply a demand for SPD to a rod (R395, R400). -/
def State.applySpd (s : State) (r : Nat) (latching : Bool) : State :=
  let st := s.rodSt r
  if s.bit pSAFE SAFE.SPD_MAP r then
    if latching then s.setMon r { s.mon r with latching := true } else s
  else if st = stRUN then
    let s := (s.descentCause r dcSPD).ev pSAFE (blk 0)
    let s := s.setRod r { s.rod r with spd := false }
    s.beginSpd r s.beam.t latching
  else if st = stDESCENT then
    let x := s.rod r
    let entry := s.flag (pPROT r) PROT.STATUS_DESC_SPD && decide (x.spdAt = x.descAt)
    let s := (s.descentCause r dcSPD).ev pSAFE (blk 0)
    let s := s.setRod r { s.rod r with spd := false }
    s.beginSpd r (if entry then x.descAt else s.beam.t) latching
  else if s.bit pSAFE SAFE.SGR_MAP r && !latching then s
  else s.applySgr r latching

/-- Apply the demands that wait (R399, R400): SGR before SPD, a latching one before one that is not. -/
def State.applyDemands (s : State) : State :=
  let x := s.safe
  let s := s.setSafe { x with pendSgr := 0, pendSpd := 0, pendLatch := 0 }
  let s := (bitsSet 24 x.pendSgr).foldl (fun s r => s.applySgr r true) s
  (bitsSet 24 x.pendSpd).foldl (fun s r =>
    if x.pendSgr.testBit r then s else s.applySpd r (x.pendLatch.testBit r)) s

/-- The end of an SPD (R398). -/
def State.endSpds (s : State) : State :=
  (bitsSet 24 (s.reg pSAFE SAFE.SPD_MAP)).foldl (fun s r =>
    if s.rodSt r = stRUN ∨ s.rodSt r = stDESCENT then s
    else
      let s := s.setBit pSAFE SAFE.SPD_MAP r false
      if s.rodSt r = stOFF ∧ !(s.mon r).latching then s else s.applySgr r (s.mon r).latching) s

/-- The demands of the rods themselves (R399, codes 8 and 12). -/
def State.internalDemands (s : State) : State :=
  allRods.foldl (fun s r =>
    if !(s.rod r).spd then s
    else
      let c := s.get (pPROT r) PROT.STATUS_DESC_CAUSE
      let s := s.setRod r { s.rod r with spd := false }
      if c = dcXCHK then s.demand 8 0 r (2 ^ r) true true
      else if c = dcSPD then s
      else s.demand 12 0 r (2 ^ r) true false) s

/-- The rods that the restart interlock of R402 and the unlocked page of R414 hold under the SGR
block. -/
def State.holdRods (s : State) : State :=
  let m := if s.sgrHold then 2 ^ 24 - 1
    else s.reg pSAFE SAFE.LATCH % 2 ^ 24 &&& ((2 ^ 24 - 1) ^^^ (s.reg pSAFE SAFE.SPD_MAP % 2 ^ 24))
  let held := s.reg pSAFE SAFE.SGR_MAP
  (bitsSet 24 m).foldl (fun s r =>
    if held.testBit r then s else (s.tripPath r).setBit pSAFE SAFE.SGR_MAP r true) s

/-! ## Inputs (R401, R402) -/

/-- The first input of a group that acts, and whether it is a pair: `none` for an input that is
ignored. -/
def State.inGroup (s : State) (i : Nat) : Option (Nat × Bool) :=
  let m := i / 2 * 2
  if s.flag pSAFE (SAFE.IN_CFG_PAIR m) then
    if s.flag pSAFE (SAFE.IN_CFG_EN m) then some (m, true) else none
  else if s.flag pSAFE (SAFE.IN_CFG_EN i) then some (i, false)
  else none

/-- Filtered level of an input. -/
def State.inHigh (s : State) (i : Nat) : Bool := s.bit pSAFE SAFE.IN_STAT (8 + i)

/-- Whether an input demands: low, or in a pair that is in discrepancy. -/
def State.inDemand (s : State) (i : Nat) : Bool :=
  match s.inGroup i with
  | none => false
  | some g => !s.inHigh i || (g.2 && s.safe.disc.testBit (i / 2))

/-- IN_STAT [7:0]. -/
def State.showIn (s : State) : State :=
  s.set pSAFE ⟨SAFE.IN_STAT, 7, 0⟩ (maskOf ((List.range 8).filter (fun i => s.inDemand i)))

/-- The demand of an input's group. -/
def State.demandIn (s : State) (i : Nat) : State :=
  match s.inGroup i with
  | none => s
  | some g =>
    let sub := b2n (g.2 && s.safe.disc.testBit (i / 2))
    s.demand 1 sub g.1 (s.get pSAFE (SAFE.IN_CFG_RODS g.1)) (s.flag pSAFE (SAFE.IN_CFG_ACT g.1)) true

/-- A filtered level is taken (R401); a pair in discrepancy is healthy again after both its inputs have
been low together and then high together. -/
def State.inLevel (s : State) (i : Nat) (v : Bool) : State :=
  let s := (s.setBit pSAFE SAFE.IN_STAT (8 + i) v).setBit pSAFE SAFE.IN_STAT (16 + i) v
  let m := i / 2
  let a := s.inHigh (2 * m)
  let b := s.inHigh (2 * m + 1)
  let x := s.safe
  let bit := 2 ^ m
  let x := if x.disc.testBit m && !a && !b then { x with discLow := x.discLow ||| bit }
    else if x.disc.testBit m && x.discLow.testBit m && a && b then
      { x with disc := x.disc ^^^ bit, discLow := x.discLow ^^^ bit }
    else x
  let s := (s.setSafe x).showIn
  if v then s else s.demandIn i

def execSafeInLevel (i : Fin 8) (v : Bool) (s : State) : Outcome State Fault Refusal :=
  .next (if s.split then s else s.inLevel i v)

/-- The filtered levels of a pair differ for longer than DISC (R401). -/
def execPairDiscrepancy (m : Fin 4) (s : State) : Outcome State Fault Refusal :=
  let i := 2 * m.val
  .next (if s.split ∨ (s.inGroup i).map Prod.snd ≠ some true ∨ s.inHigh i = s.inHigh (i + 1) then s
    else
      let x := s.safe
      let low := if x.discLow.testBit m then x.discLow ^^^ 2 ^ m.val else x.discLow
      let s := s.setSafe { x with disc := x.disc ||| 2 ^ m.val, discLow := low }
      ((s.showIn).err pSAFE (blk 4)).demandIn i)

/-- One input's sample in REST: a first low of an enabled input is kept for the wake (R402), and a changed level of an
input that AON.SAFE_WAKE names is the wake cause SAFE (R525). -/
def State.restInput (s : State) (i : Nat) (v : Bool) : State :=
  let s := if (s.inGroup i).isNone || v || s.safe.restLow.any (fun e => e.1 == i) then s
    else s.setSafe { s.safe with restLow := s.safe.restLow ++ [(i, s.ns)] }
  if s.inHigh i = v then s
  else
    let s := (s.setBit pSAFE SAFE.IN_STAT (8 + i) v).setBit pSAFE SAFE.IN_STAT (16 + i) v
    if s.bit pAON AON.SAFE_WAKE i then s.wakeCause wcSAFE else s

/-- The AON island samples the enabled inputs every 1 ms in REST (R402). -/
def execSafeInRestSample (levels : Fin 256) (s : State) : Outcome State Fault Refusal :=
  .next (if s.dev ≠ dvREST then s
    else (List.range 8).foldl (fun s i => s.restInput i (levels.val.testBit i)) s)

/-- On wake from REST an input that was low latches its demand, with the beam time of its first low
sample. -/
def State.safeWake (s : State) : State :=
  let l := s.safe.restLow
  let s := s.setSafe { s.safe with restLow := [] }
  l.foldl (fun (s : State) (e : Nat × Nat) =>
    let first := !s.safe.recorded
    let s := s.demandIn e.1
    if first && s.safe.recorded then s.setReg pSAFE SAFE.CAUSE_NS e.2 else s) s

/-! ## Monitors (R396, R397) -/

/-- The slots of a monitor: three voltages, three sensor-2 currents. -/
def State.monSlots (s : State) (r : Nat) : List Nat :=
  let v := s.get (pPROT r) PROT.SLOT_A_VPH
  let i := s.get (pPROT r) PROT.SLOT_A_I2
  [v, v + 1, v + 2, i, i + 1, i + 2].map (· % 256)

/-- The independent power of a rod (R396), in binary32 in the order of the equation. -/
def State.monPower (s : State) (r : Nat) : Nat :=
  let k := r / 6
  let isc := s.reg pSAFE (SAFE.I2_SCALE r)
  let c (i : Nat) : Nat := fOfZ (s.slotVal k i)
  match s.monSlots r with
  | [v0, v1, v2, i0, i1, i2] =>
    let t (v i : Nat) : Nat := fmul (fmul (c v) isc) (c i)
    fmul (s.reg pSAFE (SAFE.V_SCALE r)) (fadd (fadd (t v0 i0) (t v1 i1)) (t v2 i2))
  | _ => 0

/-- Seconds of a time in 1/256 ns, and of ms. -/
def secUnits (t : Nat) : Nat := fOfQ t 256000000000
def secMs (ms : Nat) : Nat := fOfQ ms 1000

/-- The checks of R397 that fail this cycle: PLIM, RAMP, TORQUE, and SPEED. -/
def State.monChecks (s : State) (r : Nat) (ps : Nat) : List Bool × Bool :=
  let x := s.mon r
  let run := decide (s.rodSt r = stRUN)
  let spd := s.bit pSAFE SAFE.SPD_MAP r && decide (s.rodSt r = stDESCENT)
  let mach := s.get (pROD r) ROD.CFG_MODE = 1
  let f (o : Nat) : Nat := s.reg pSAFE o
  let lag := s.get pSAFE (SAFE.MON_CFG_LAG r)
  let late := fmax 0 (fsub (secUnits (s.beam.t - x.td)) (secMs lag))
  let w := s.safeSpeed r
  let asrc := s.get (pLOOP r) LOOP.MSTAT_ASRC
  let dt := s.get (pPROT r) PROT.DESC_CFG_DESC_TIME
  let plim := run && !fle (fabs ps) (f (SAFE.P_LIM r))
  let ramp := spd && (if mach then
      !fle (fabs w) (fadd (fmax 0 (fsub (fabs x.w0) (fmul (f (SAFE.DEC_MIN r)) late))) (f (SAFE.W_TOL r)))
    else
      let env := fmax 0 (fsub (fOfZ 1) (fdiv late (secMs (if dt = 0 then 100 else dt))))
      !fle (fabs ps) (fadd (fmul (fabs x.p0) env) (f (SAFE.P_TOL r))))
  let ts := fdiv (fmul ps (fOfZ (s.get (pLOOP r) LOOP.MCFG_POLES))) w
  let tq := spd && decide mach && decide (x.td + lag * unitsMs ≤ s.beam.t) && fle (f (SAFE.W_TOL r)) (fabs w) &&
    !fle (if fNeg w then fneg ts else ts) (f (SAFE.T_TOL r))
  ([plim, ramp, tq], spd && decide mach && decide (asrc ≠ asPCNT ∧ asrc ≠ asOBS))

/-- A monitor failure (R397): LAST_FAIL, and a latching demand for SGR. -/
def State.monFail (s : State) (r sub : Nat) : State :=
  (s.set pSAFE (SAFE.MON_STAT_LAST_FAIL r) sub).demand 6 sub r (2 ^ r) false true

/-- One cycle of a rod's monitor. -/
def State.monitor (s : State) (r : Nat) : State :=
  let st := s.rodSt r
  if !s.flag pSAFE (SAFE.MON_CFG_EN r) || !(decide (st = stRUN) || decide (st = stDESCENT)) then
    let s := s.set pSAFE (SAFE.MON_STAT_ACTIVE r) 0
    s.setMon r { s.mon r with ps := none, seqs := [], fails := [0, 0, 0] }
  else
    let x := s.mon r
    let p := s.monPower r
    let tau := s.get pSAFE (SAFE.MON_CFG_MON_TAU r)
    let k := fmin (fOfZ 1) (fdiv (fOfQ 125 1000000) (secMs (if tau = 0 then 10 else tau)))
    let ps := match x.ps with
      | some q => fadd q (fmul (fsub p q) k)
      | none => p
    let n := s.get pSAFE (SAFE.MON_CFG_MON_N r)
    let n := if n = 0 then 4 else n
    let seqs := (s.monSlots r).zipIdx.map (fun e =>
      let q := s.reg (pACQ (r / 6)) (ACQ.SLOT_W0 e.1) / 65536
      match x.seqs[e.2]? with
      | some o => (q, if o.1 = q then o.2 + 1 else 0)
      | none => (q, 0))
    let c := s.monChecks r ps
    let fails := (c.1.zip x.fails).map (fun e => if e.1 then e.2 + 1 else 0)
    let s := s.setMon r { x with ps := some ps, seqs := seqs, fails := fails }
    let s := (s.setReg pSAFE (SAFE.MON_P r) ps).set pSAFE (SAFE.MON_STAT_ACTIVE r) 1
    let s := if seqs.any (fun e => decide (e.2 = n)) then s.monFail r 5 else s
    let s := fails.zipIdx.foldl (fun (s : State) (e : Nat × Nat) =>
      if e.1 = n then s.monFail r (e.2 + 1) else s) s
    if c.2 then s.monFail r 4 else s

/-! ## Pair faults (R410) -/

/-- What every pair fault does: the trip path and SGR on all rods, without the kernel; with `hold` the pair is held
in reset. -/
def State.pairFaultAct (s : State) (hold : Bool) (pc : Nat) : State :=
  let s := (s.setReg pSPAIR SPAIR.FATAL_PC pc).setReg pSPAIR SPAIR.FATAL_NS s.ns
  let s := ((s.err pSPAIR (blk 0)).ev pSPAIR (blk 1)).set pSAFE SAFE.STAT_PAIR_FAULT 1
  let s := if hold then (s.set pSAFE SAFE.STAT_KERNEL 0).set pSPAIR SPAIR.STAT_KERNEL_RUN 0 else s
  let f := s.free
  let s := f.2.demand 11 (f.1 % 256) 0 (2 ^ 24 - 1) false true
  let s := s.setSafe { s.safe with pendSgr := 0, pendSpd := 0, pendLatch := 0 }
  (allRods.foldl (fun s r => s.applySgr r true) s).safeStat.driveOuts

/-- A pair fault by its STAT bit; `none`: PARAM_BAD, which alone does not hold the pair in reset. -/
def State.pairFault (s : State) (bit : Option Fld) (pc : Nat) : State :=
  let s := match bit with
    | some f => s.set pSPAIR f 1
    | none => s.set pSAFE SAFE.STAT_PARAM_BAD 1
  s.pairFaultAct bit.isSome pc

def execLockstepMismatch (pc : Word) (s : State) : Outcome State Fault Refusal :=
  .next (if s.split then s else s.pairFault (some SPAIR.STAT_MISMATCH) pc.toNat)

/-- The SGR block on every rod, without a fault cause or a pair fault, until a safety reset (R507). -/
def State.blockAll (s : State) : State :=
  let s := s.setReg pSAFE SAFE.LATCH (2 ^ 24 - 1)
  (allRods.foldl (fun (s : State) r => s.applySgr r false) s).driveOuts

/-- Whether a halt of the pair's main core is held without a pair fault (R507). -/
def State.pairHoldDbg (s : State) : Bool :=
  s.flag pSPAIR SPAIR.STAT_DBG_HALTED && s.flag pDBG DBG.CTL_PAIR_HOLD && (decide (s.lifeSt = 1) || decide (s.lifeSt = 3))

def execPairWdtFault (pc : Word) (s : State) : Outcome State Fault Refusal :=
  .next (if s.split then s
    else if s.pairHoldDbg then s.blockAll
    else s.pairFault (some SPAIR.STAT_WDT_EXP) pc.toNat)

/-- A finding of the pair memory's ECC (R410, R415). -/
def State.pairEcc (s : State) (e : Ecc) (addr pc : Nat) : State :=
  match e with
  | .clean => s
  | .corrected =>
    ((s.incF pSPAIR ⟨SPAIR.ECC_CNT, 15, 0⟩).setReg pSPAIR SPAIR.ECC_ADDR (addr % 2 ^ 17 * 4)).ev pSPAIR (blk 0)
  | .double =>
    let s := s.setReg pSPAIR SPAIR.ECC_ADDR (2 ^ 31 + addr % 2 ^ 17 * 4)
    if s.split then s else s.pairFault (some SPAIR.STAT_ECC_FATAL) pc

def execPairEccError (e : Ecc) (addr : Fin 131072) (pc : Word) (s : State) : Outcome State Fault Refusal :=
  .next (s.pairEcc e addr pc.toNat)

/-- The CRC of the parameters: every WL word of the page except PCRC, in ascending offset. -/
def State.paramCrc (s : State) : Nat :=
  let offs := (List.range 0x400).map (4 * ·)
  let wl := offs.filter (fun o => match regAt pSAFE o with
    | some r => r.bits .wl != 0 && o != SAFE.PCRC
    | none => false)
  crc32c (wl.flatMap (fun o => leBytes 4 (s.reg pSAFE o)))

/-- The kernel's check of the parameters: when LOCK is set, then once per second. -/
def State.paramCheck (s : State) : State :=
  if !s.locked pSAFE || decide (s.safe.crcAt = some s.sec) || s.flag pSAFE SAFE.STAT_PARAM_BAD then s
  else
    let s := s.setSafe { s.safe with crcAt := some s.sec }
    if s.paramCrc = s.reg pSAFE SAFE.PCRC then s else
      let f := s.free
      f.2.pairFault none f.1

/-! ## The cycle (R391) -/

/-- The readback of the outputs (R405). -/
def State.readback (s : State) (rb : Nat) : State :=
  let (inj, s) := s.injTake pSAFE 10
  let rb := if inj then rb ^^^ 1 else rb
  let s := s.set pSAFE ⟨SAFE.OUT_STAT, 7, 4⟩ rb
  (List.range 4).foldl (fun s k =>
    let bad := rb.testBit k != s.bit pSAFE SAFE.OUT_STAT k
    let n := if bad then s.safe.outFail.getD k 0 + 1 else 0
    let s := s.setSafe { s.safe with outFail := s.safe.outFail.set k n }
    if n = 3 ∧ !s.safe.outFault.testBit k then
      (s.setSafe { s.safe with outFault := s.safe.outFault ||| 2 ^ k }).demand 10 0 k
        (s.get pSAFE (SAFE.OUT_CFG_RODS k)) false true
    else s) s

/-- The inputs that demand, by level, for rods their demand does not hold yet. -/
def State.inputDemands (s : State) : State :=
  (List.range 8).foldl (fun s i =>
    let (inj, s) := if s.inGroup i = none then (false, s) else s.injTake pSAFE i
    if !(s.inDemand i || inj) then s
    else match s.inGroup i with
      | none => s
      | some g =>
        let rods := s.get pSAFE (SAFE.IN_CFG_RODS g.1)
        let held := s.reg pSAFE SAFE.SGR_MAP ||| (if s.flag pSAFE (SAFE.IN_CFG_ACT g.1) then s.reg pSAFE SAFE.SPD_MAP else 0)
        if rods &&& held = rods then s else s.demandIn i) s

/-- The injections that feed the pair's own detectors (R569). -/
def State.pairInjections (s : State) : State :=
  let f := s.free
  let (i0, s) := f.2.injTake pSPAIR 0
  let (i1, s) := s.injTake pSPAIR 1
  let (i2, s) := s.injTake pSPAIR 2
  let (i3, s) := s.injTake pSPAIR 3
  let s := if i2 then s.pairEcc .corrected f.1 f.1 else s
  let s := if i0 then s.pairFault (some SPAIR.STAT_MISMATCH) f.1 else s
  let s := if i1 then s.pairEcc .double f.1 f.1 else s
  if i3 then s.pairFault (some SPAIR.STAT_WDT_EXP) f.1 else s.inc pSPAIR SPAIR.WDT_KICKS

/-- One safety cycle: demands, monitors, outputs. -/
def State.safetyCycle (s : State) (rb busy : Nat) : State :=
  let s := (s.set pSAFE SAFE.STAT_KERNEL 1).set pSPAIR SPAIR.STAT_KERNEL_RUN 1
  let s := s.set pSPAIR ⟨SPAIR.CYCLE_LAST, 17, 0⟩ busy
  let s := if s.reg pSPAIR SPAIR.CYCLE_MAX < s.reg pSPAIR SPAIR.CYCLE_LAST then
      s.setReg pSPAIR SPAIR.CYCLE_MAX (s.reg pSPAIR SPAIR.CYCLE_LAST) else s
  let s := (s.pairInjections).paramCheck
  if s.pairHeld then s
  else
    let s := (s.showIn.inputDemands).internalDemands
    let s := allRods.foldl State.monitor s
    let s := (s.readback rb).applyDemands
    (s.endSpds.holdRods).safeStat.driveOuts

def execSafetyCycle (rb : Fin 16) (busy : Fin 262144) (s : State) : Outcome State Fault Refusal :=
  .next (if s.kernelOk then s.safetyCycle rb busy else s)

/-- Every 10 µs under the SGR block TRIP_OFF is sent again on all 12 links (R393). -/
def execSgrTripResend (r : Fin 24) (s : State) : Outcome State Fault Refusal :=
  .next (if s.sgrBlock r then s.send (.tripSets r (List.range 12) []) else s)

/-! ## Safety reset (R403, R404) -/

/-- The record of a connection of safe messages. -/
def State.sconn (s : State) (j : Nat) : SafeConn := tabGet (fun _ => {}) s.safe.conns j

/-- The rods that a cause still present names. -/
def State.causeRods (s : State) : Nat :=
  let ins := (List.range 8).foldl (fun m i =>
    match s.inGroup i with
    | some g => if s.inDemand i then m ||| s.get pSAFE (SAFE.IN_CFG_RODS g.1) else m
    | none => m) 0
  let conns := (List.range 16).foldl (fun m j =>
    if s.flag pSAFE (SAFE.RXC_CFG_EN j) && (!s.flag pSAFE (SAFE.RXC_STAT_VALID j) ||
        decide ((s.sconn j).demand &&& s.get pSAFE (SAFE.RXC_BITS_DEMAND j) ≠ 0)) then
      m ||| s.reg pSAFE (SAFE.RXC_RODS j) % 2 ^ 24
    else m) 0
  let all := if s.pairFaulted || s.safe.scan || decide (s.safe.outFault ≠ 0) then 2 ^ 24 - 1 else 0
  ins ||| conns ||| all ||| s.safe.pendLatch ||| s.injHeld

/-- A safety reset request (R404). -/
def State.safetyReset (s : State) : State :=
  let latch := s.reg pSAFE SAFE.LATCH
  let keep := latch &&& s.causeRods
  let gone := latch ^^^ keep
  let s := s.setSafe { s.safe with recorded := false }
  let s := s.setReg pSAFE SAFE.LATCH keep
  let s := if keep = 0 then s else s.err pSAFE (blk 1)
  let s := if gone = 0 then s else s.ev pSAFE (blk 1)
  let s := if s.sgrHold then s
    else (bitsSet 24 gone).foldl (fun s r => s.setBit pSAFE SAFE.SGR_MAP r false) s
  s.driveOuts

/-- The falling edge of SAFE_RST after a pulse of `ms` (R403). -/
def State.rstPulse (s : State) (ms : Nat) : State :=
  if s.safe.jam then s.setSafe { s.safe with jam := false }
  else if 3000 < ms then s
  else
    let s := s.set pSAFE ⟨SAFE.RST_STAT, 31, 16⟩ (min ms 65535)
    if ms < 100 then s.err pSAFE (blk 2)
    else ((s.set pSAFE SAFE.STAT_JAMMED 0).incFW pSAFE ⟨SAFE.RST_STAT, 15, 0⟩).safetyReset

def execSafetyReset (ms : Nat) (s : State) : Outcome State Fault Refusal :=
  .next (if s.split then s else s.rstPulse ms)

/-- SAFE_RST has been high for more than 3,000 ms, or is high when the RD domain leaves reset. -/
def execResetJammed (s : State) : Outcome State Fault Refusal :=
  .next (if s.split then s
    else ((s.setSafe { s.safe with jam := true }).set pSAFE SAFE.STAT_JAMMED 1).err pSAFE (blk 3))

/-! ## Trip-path tests (R413) -/

/-- TEST_AGE of a rod from the AON counter. -/
def State.testAge (s : State) (r : Nat) : Nat :=
  match s.safe.testTime.getD r none with
  | some t => min ((s.reg64 pAON AON.CNT_LO - t) / (86400 * 32768)) 0xFFFF
  | none => 0xFFFF

def execTestAgeTick (s : State) : Outcome State Fault Refusal :=
  .next ((allRods.foldl (fun s r =>
    let s := s.set pSAFE (SAFE.MON_STAT_TEST_AGE r) (s.testAge r)
    if s.testDue r ∧ !s.flag pSAFE (SAFE.MON_STAT_TEST_DUE r) then
      (s.set pSAFE (SAFE.MON_STAT_TEST_DUE r) 1).ev pSAFE (blk 3)
    else s) s).safeStat)

/-! ## Registers (R414) -/

/-- A write of a SAFE register that is refused with RANGE: RODS bits above 23, LAG above 200, ADDR above
4,095. -/
def safeBad (off : Nat) (v : Nat) : Bool :=
  if SAFE.IN_CFG 0 ≤ off ∧ off ≤ SAFE.IN_CFG 7 then v.testBit 28
  else if SAFE.OUT_CFG 0 ≤ off ∧ off ≤ SAFE.OUT_CFG 3 then decide (bitsOf v 29 24 ≠ 0)
  else if 0x100 ≤ off ∧ off < 0x400 ∧ off % 0x20 = 0 then decide (200 < v % 256)
  else if 0x580 ≤ off ∧ off < 0x680 ∧ off % 16 = 0 then decide (bitsOf v 29 28 ≠ 0)
  else false

/-- Writes of SAFE registers with rules of their own. -/
def State.safeRegWrite (s : State) (off : Nat) (v : Word) : Option (State × Code) :=
  if safeBad off v.toNat then some (refuse s pSAFE (blk 0) .writeRefused) else none

/-- PG_CTL.LOCK of SAFE is set: the parameters are checked (R410). -/
def State.safeLocked (s : State) : State :=
  if s.kernelOk then (s.paramCheck).safeStat else s.safeStat

/-- The RD domain leaves reset: what the safety functions hold starts anew, but the test times and a
scan instruction in force. -/
def State.safeRestart (s : State) : State :=
  s.setSafe { testTime := s.safe.testTime, scan := s.safe.scan }

end Sys2Proof.Machine
end

