-- ==== Sys2Proof/Machine/Keys.lean ====
section
/-! DEFINITION. Keys and the crypto engine (spec/18, R466, R467, R470). -/

namespace Sys2Proof.Machine

open Host (Outcome)

/-- Store the key store's record. -/
def State.setKeys (s : State) (x : KeysX) : State := { s with keys := x }

/-- Type and key of a slot; type 0: empty. -/
def State.slot (s : State) (k : Nat) : Nat × List Nat :=
  ((s.keys.slots.find? (fun e => e.1 == k)).map Prod.snd).getD (0, [])

/-- Put a key into a slot; type 0 empties it. -/
def State.setSlot (s : State) (k ty : Nat) (key : List Nat) : State :=
  let l := s.keys.slots.filter (fun e => !(e.1 == k))
  s.setKeys { s.keys with slots := if ty = 0 then l else l ++ [(k, ty, key)] }

/-- Life-cycle erasure (R466): slots 1 to 63 on entry to RETURNED. -/
def State.eraseSlots (s : State) : State := s.setKeys { s.keys with slots := s.keys.slots.filter (fun e => e.1 == 0) }

/-- Free bytes. -/
def State.freeBytes : Nat → State → List Nat × State
  | 0, s => ([], s)
  | n + 1, s =>
    let r := s.free
    let q := State.freeBytes n r.2
    ((r.1 % 256) :: q.1, q.2)

/-- The base point u = 9 of X25519. -/
def xBase : List Nat := 9 :: List.replicate 31 0

/-- The public part of a slot (R466): 64 bytes, 0 for types 0 and 1. -/
def State.slotPub (s : State) (k : Nat) : List Nat :=
  let r := s.slot k
  let l := match r.1 with
    | 2 => edPublic r.2
    | 3 => x25519 r.2 xBase
    | 4 | 5 => r.2
    | _ => []
  (l ++ List.replicate 64 0).take 64

/-- Registers of KEYS that are views. -/
def State.keysReg (s : State) (off : Nat) : Option Nat :=
  let k := s.reg pKEYS KEYS.SLOT_SEL % 64
  if off = KEYS.SLOT_INFO then some (s.slot k).1
  else if KEYS.SLOT_PUB 0 ≤ off ∧ off ≤ KEYS.SLOT_PUB 15 then
    some (ofLE (((s.slotPub k).drop (off / 4 * 4 - KEYS.SLOT_PUB 0)).take 4))
  else none

/-- RESULT codes (R467). -/
abbrev krOK : Nat := 0
abbrev krBAD_SLOT : Nat := 1
abbrev krDENIED : Nat := 2
abbrev krVERIFY : Nat := 3
abbrev krENT : Nat := 4
abbrev krLEN : Nat := 5

/-- 16 MiB. -/
abbrev maxMsg : Nat := 16777216

/-- A slot's key where it has the type asked and may be used: slot 0 not in SCRAPPED (LIFE.STATE 4). -/
def State.keyOf (s : State) (k ty : Nat) : Option (List Nat) :=
  let r := s.slot k
  if r.1 = ty ∧ !(k = 0 ∧ s.lifeSt = 4) then some r.2 else none

/-- The parts of a GCM input: nonce, AAD, the rest. -/
def gcmParts (b : List Nat) : Option (List Nat × List Nat × List Nat) :=
  let n := ofLE ((b.drop 12).take 4)
  if b.length < 16 + n then none
  else some (b.take 12, (b.drop 16).take n, b.drop (16 + n))

/-- A command's effect (R467): the result, and the state with what it writes. -/
def State.keyRun (s : State) (c : KeyCmd) : Nat × State :=
  let b := s.memBytes c.inp c.len
  let put (l : List Nat) : Nat × State := (krOK, s.setMemBytes c.out l)
  match c.op with
  | 1 => if maxMsg < c.len then (krLEN, s) else put (sha256 b)
  | 2 =>
    match s.keyOf c.slot 2 with
    | none => (krBAD_SLOT, s)
    | some k => if maxMsg < c.len then (krLEN, s) else put (edSign k b)
  | 3 =>
    let r := if c.slot = 0xFF then (if c.len < 32 then none else some (b.take 32, b.drop 32))
      else (s.keyOf c.slot 4).map (fun k => (k, b))
    match r with
    | none => (if c.slot = 0xFF then krLEN else krBAD_SLOT, s)
    | some (k, b) =>
      if b.length < 64 ∨ maxMsg + 64 < b.length then (krLEN, s)
      else (if edVerify k (b.drop 64) (b.take 64) then krOK else krVERIFY, s)
  | 4 =>
    match s.keyOf c.slot 3 with
    | none => (krBAD_SLOT, s)
    | some k => if c.len ≠ 32 then (krLEN, s) else put (x25519 k b)
  | 5 =>
    match s.keyOf c.slot 1 with
    | none => (krBAD_SLOT, s)
    | some k =>
      match gcmParts b with
      | none => (krLEN, s)
      | some (iv, aad, pt) =>
        let r := gcmSeal k iv aad pt
        put (r.1 ++ r.2)
  | 6 =>
    match s.keyOf c.slot 1 with
    | none => (krBAD_SLOT, s)
    | some k =>
      match gcmParts b with
      | none => (krLEN, s)
      | some (iv, aad, x) =>
        if x.length < 16 then (krLEN, s)
        else
          match gcmOpen k iv aad (x.take (x.length - 16)) (x.drop (x.length - 16)) with
          | none => (krVERIFY, s)
          | some pt => put pt
  | 7 =>
    if s.flag pKEYS KEYS.STAT_ENT_FAIL then (krENT, s)
    else if 65536 < c.len then (krLEN, s)
    else
      let r := s.freeBytes c.len
      (krOK, r.2.setMemBytes c.out r.1)
  | 8 =>
    if 64 ≤ c.slot ∨ (s.slot c.slot).1 ≠ 0 ∨ c.ty = 0 ∨ 3 < c.ty then (krBAD_SLOT, s)
    else if s.flag pKEYS KEYS.STAT_ENT_FAIL then (krENT, s)
    else
      let r := s.freeBytes 32
      (krOK, r.2.setSlot c.slot c.ty r.1)
  | 9 =>
    if s.lifeSt ≠ 1 ∧ s.lifeSt ≠ 2 then (krDENIED, s)
    else if 64 ≤ c.slot ∨ (s.slot c.slot).1 ≠ 0 ∨ !(c.ty = 1 ∨ c.ty = 4 ∨ c.ty = 5) then (krBAD_SLOT, s)
    else if c.len ≠ (if c.ty = 5 then 64 else 32) then (krLEN, s)
    else (krOK, s.setSlot c.slot c.ty b)
  | 10 =>
    if c.slot = 0 ∨ 64 ≤ c.slot then (krBAD_SLOT, s)
    else if c.slot = 1 ∧ s.lifeSt ≠ 1 then (krDENIED, s)
    else (krOK, s.setSlot c.slot 0 [])
  | _ => (krBAD_SLOT, s)

/-- A write of CMD (R470): while a command runs it is ignored and CMD_BUSY is set; GO starts one. -/
def State.keyCmdWrite (s : State) (v : Word) : State × Code :=
  if s.flag pKEYS KEYS.STAT_BUSY then refuse s pKEYS (blk 0) .writeRefused
  else
    let s := s.setWord pKEYS KEYS.CMD (maskW v 0x800FFF0F)
    if !KEYS.CMD_GO.read v = 1 then (s, .ok)
    else
      let c : KeyCmd := {
        op := KEYS.CMD_OP.read v, ty := KEYS.CMD_TYPE.read v, slot := KEYS.CMD_SLOT.read v
        inp := s.reg64 pKEYS KEYS.IN_LO, len := s.reg pKEYS KEYS.LEN_IN % 2 ^ 25, out := s.reg64 pKEYS KEYS.OUT_LO }
      ((s.setKeys { s.keys with cmd := some c }).set pKEYS KEYS.STAT_BUSY 1, .ok)

/-- A write of CMD with GO for an operation. -/
def State.keyOp (s : State) (w : Writer) (op slot ty : Nat) : State :=
  finish w pKEYS (s.actionWrite w pKEYS (fun s =>
    s.keyCmdWrite (wordOf (2 ^ 31 + ty % 16 * 2 ^ 16 + slot % 256 * 2 ^ 8 + op))))

def execSha256 (w : Writer) (s : State) : Outcome State Fault Refusal := .next (s.keyOp w 1 0 0)
def execEdSign (w : Writer) (slot : Fin 256) (s : State) : Outcome State Fault Refusal := .next (s.keyOp w 2 slot 0)
def execEdVerify (w : Writer) (slot : Fin 256) (s : State) : Outcome State Fault Refusal := .next (s.keyOp w 3 slot 0)
def execX25519 (w : Writer) (slot : Fin 256) (s : State) : Outcome State Fault Refusal := .next (s.keyOp w 4 slot 0)
def execGcmSeal (w : Writer) (slot : Fin 256) (s : State) : Outcome State Fault Refusal := .next (s.keyOp w 5 slot 0)
def execGcmOpen (w : Writer) (slot : Fin 256) (s : State) : Outcome State Fault Refusal := .next (s.keyOp w 6 slot 0)
def execRandom (w : Writer) (s : State) : Outcome State Fault Refusal := .next (s.keyOp w 7 0 0)
def execKeyGen (w : Writer) (slot : Fin 256) (ty : Fin 16) (s : State) : Outcome State Fault Refusal :=
  .next (s.keyOp w 8 slot ty)
def execKeyImport (w : Writer) (slot : Fin 256) (ty : Fin 16) (s : State) : Outcome State Fault Refusal :=
  .next (s.keyOp w 9 slot ty)
def execKeyErase (w : Writer) (slot : Fin 256) (s : State) : Outcome State Fault Refusal := .next (s.keyOp w 10 slot 0)

/-- The engine's command completes (R467): its output, RESULT, DONE. -/
def execCryptoDone (s : State) : Outcome State Fault Refusal :=
  match s.keys.cmd with
  | none => .next s
  | some c =>
    let r := s.keyRun c
    let s := r.2.setKeys { r.2.keys with cmd := none }
    let s := ((s.set pKEYS KEYS.STAT_BUSY 0).set pKEYS KEYS.STAT_RESULT r.1).set pKEYS KEYS.CMD_GO 0
    .next (s.ev pKEYS (blk 0))

/-- A health test of the entropy source fails, or 1,024 samples have passed since (R467). -/
def execEntHealth (fail : Bool) (s : State) : Outcome State Fault Refusal :=
  if fail then
    .next (((s.set pKEYS KEYS.STAT_ENT_FAIL 1).incSat pKEYS KEYS.ENT_CNT).err pKEYS (blk 1))
  else .next (s.set pKEYS KEYS.STAT_ENT_FAIL 0)

end Sys2Proof.Machine
end

