-- ==== Sys2Proof/Machine/SafeMsg.lean ====
section
/-! DEFINITION. Safe messages (spec/16, R406 to R409): their sending, checks, pairs and watchdogs. -/

namespace Sys2Proof.Machine

open Host (Outcome)

/-- CRC-32C with an initial value. -/
def crc32cFrom (init : Nat) (l : List Nat) : Nat := (l.foldl (fun c b => crcStep 8 (c ^^^ b)) init) ^^^ 0xFFFFFFFF

/-- The initial value of a message's CRC (R406). -/
def msgInit (src conn : Nat) : Nat := (src * 2 ^ 16 + conn * 2 ^ 8 + 0x5A) % 2 ^ 32

/-- The nonce of a message's TAG (R406). -/
def msgNonce (src conn seq : Nat) : List Nat := leBytes 2 src ++ [conn, 0] ++ leBytes 4 seq ++ [0, 0, 0, 0]

/-- DEMAND of this device (R406). -/
def State.msgDemand (s : State) : Nat :=
  (List.range 8).foldl (fun m i =>
    if s.flag pSAFE (SAFE.IN_CFG_EN i) && !s.inHigh i then m + 2 ^ i else m) 0 +
    2 ^ 8 * b2n (decide (s.reg pSAFE SAFE.LATCH ≠ 0))

/-- The key of safe messages (R466): a slot of type AES256. -/
def State.msgKey (s : State) : Option (List Nat) := s.keyOf (s.get pSAFE SAFE.MSG_CFG_KEY) 1

/-- A safe message is sent (R406, R407): one flood, and its copy on Ethernet with ETH_EN. -/
def execSafeMsgTx (s : State) : Outcome State Fault Refusal :=
  if !s.flag pSAFE SAFE.MSG_CFG_TX_EN then .next s
  else
    let seq := (s.reg pSAFE SAFE.MSG_TXSEQ + 1) % 2 ^ 32
    let conn := s.get pSAFE SAFE.MSG_CFG_CONN
    let dem := s.msgDemand
    let st := b2n (s.flag pSAFE SAFE.STAT_SAFE_OK) + 2 * b2n s.split + 4 * b2n (decide (s.reg pSAFE SAFE.LATCH ≠ 0))
    let b := [0x51, 0x01, s.get pBEAM BEAM.STAT_LOCK, st] ++ leBytes 2 s.addr ++ [conn, 0] ++ leBytes 4 seq ++
      leBytes 8 (s.beam.t / 256) ++ leBytes 2 dem ++ List.replicate 10 0
    let b := b ++ leBytes 4 (crc32cFrom (msgInit s.addr conn) b) ++ List.replicate 12 0
    let r := match s.msgKey with
      | some k => (gcmTag (aesKeys k) (msgNonce s.addr conn seq) b [], s)
      | none => s.freeBytes 16
    let b := b ++ r.1
    let s := r.2.setReg pSAFE SAFE.MSG_TXSEQ seq
    let s := s.setSafe { s.safe with sentDemand := dem }
    let rad := s.reg pFABR FABR.SAFE_CFG
    let s := s.fabFlood kdSAFE (rad % 64 + rad / 256 % 64 * 64) b
    let k := s.get pSAFE SAFE.MSG_CFG_ETH_PORT
    let port := s.get pSAFE SAFE.MSG_UDP_PORT
    if s.flag pSAFE SAFE.MSG_CFG_ETH_EN && s.en (pETH k) then
      .next (s.send (.udp k (if port = 0 then 49210 else port) b))
    else .next s

/-- Store a connection's record. -/
def State.setConn (s : State) (j : Nat) (x : SafeConn) : State :=
  s.setSafe { s.safe with conns := tabPut (fun _ => {}) s.safe.conns j x }

/-- A demand of a connection. -/
def State.connDemand (s : State) (j code : Nat) : State :=
  s.demand code 0 j (s.reg pSAFE (SAFE.RXC_RODS j) % 2 ^ 24)
    (decide (code ≠ 3) && s.flag pSAFE (SAFE.RXC_CFG_ACT j)) true

/-- An equal pair (R409). -/
def State.connPair (s : State) (j : Nat) : State :=
  let s := (s.set pSAFE (SAFE.RXC_STAT_VALID j) 1).set pSAFE (SAFE.RXC_STAT_SINGLE j) 0
  s.setConn j { s.sconn j with single := none }

/-- An accepted copy (R409). -/
def State.connAccept (s : State) (j : Nat) (eth : Bool) (b : List Nat) (seq dem : Nat) : State :=
  let x := s.sconn j
  let s := s.setB pSAFE (if eth then SAFE.RXC_STAT_ETH_SEEN j else SAFE.RXC_STAT_FAB_SEEN j) true
  let s := s.set pSAFE (SAFE.RXC_STAT_SEQ j) (max seq x.seq)
  let s := s.setConn j { x with seq := max seq x.seq, demand := dem, heard := true }
  let x := s.sconn j
  if dem &&& s.get pSAFE (SAFE.RXC_BITS_DEMAND j) ≠ 0 then s.connDemand j 2
  else
    match x.wait.findIdx? (fun e => e.1 != eth && ofLE ((e.2.drop 8).take 4) == seq) with
    | some i =>
      let twin := ((x.wait[i]?).map Prod.snd).getD []
      let s := s.setConn j { x with wait := x.wait.eraseIdx i }
      if twin = b then s.connPair j
      else (s.incF pSAFE SAFE.MSG_ERR_DIFF).connDemand j 3
    | none => s.setConn j { x with wait := x.wait ++ [(eth, b)] }

/-- A copy arrives from a network (R408); injection points 8, 9 and 11 of SAFE act on it (R569). -/
def execSafeMsgRx (eth : Bool) (b : List Nat) (s : State) : Outcome State Fault Refusal :=
  let src := ofLE ((b.drop 4).take 2)
  let conn := b.getD 6 0
  let seq := ofLE ((b.drop 8).take 4)
  let r8 := if eth then (false, s) else s.injTake pSAFE 8
  let r11 := if eth then r8.2.injTake pSAFE 11 else (false, r8.2)
  let s := r11.2
  let crc := decide (b.length = 64) && !r8.1 &&
    decide (crc32cFrom (msgInit src conn) (b.take 32) = ofLE ((b.drop 32).take 4))
  let tag := !r11.1 && (match s.msgKey with
    | some k => decide (gcmTag (aesKeys k) (msgNonce src conn seq) (b.take 48) [] = b.drop 48)
    | none => false)
  if !crc || !tag then .next (s.incF pSAFE SAFE.MSG_ERR_CRC)
  else
    let js := (List.range 16).filter (fun j =>
      s.flag pSAFE (SAFE.RXC_CFG_EN j) && decide (s.get pSAFE (SAFE.RXC_CFG_ADDR j) = src) &&
        decide (s.get pSAFE (SAFE.RXC_CFG_CONN j) = conn))
    .next (js.foldl (fun (s : State) j =>
      let x := s.sconn j
      let twin := x.wait.any (fun e => e.1 != eth && ofLE ((e.2.drop 8).take 4) == seq)
      if x.heard && decide (seq ≤ x.seq) && !twin then s.incF pSAFE SAFE.MSG_ERR_SEQ
      else
        let lk := b.getD 2 0
        let me := s.get pBEAM BEAM.STAT_LOCK
        let t := ofLE ((b.drop 12).take 8)
        let now := s.beam.t / 256
        if 2 ≤ lk ∧ 2 ≤ me ∧ !(decide (t ≤ now) && decide (now - t ≤ 10000000)) then s.incF pSAFE SAFE.MSG_ERR_AGE
        else
          let r9 := if eth then s.injTake pSAFE 9 else (false, s)
          let b := if r9.1 then b.modify 0x16 (fun v => 255 - v) else b
          r9.2.connAccept j eth b seq (ofLE ((b.drop 20).take 2))) s)

/-- PAIR_WIN is over for the oldest copy that waits (R409): it is accepted alone. -/
def execPairWinExpire (j : Fin 16) (s : State) : Outcome State Fault Refusal :=
  let x := s.sconn j
  match x.wait with
  | [] => .next s
  | _ :: rest =>
    let s := s.setConn j { x with wait := rest, single := some (x.single.getD s.beam.t) }
    .next ((s.set pSAFE (SAFE.RXC_STAT_SINGLE j) 1).ev pSAFE (blk 2))

/-- SINGLE_LIM of messages on one network only (R409). -/
def execSingleLimExpire (j : Fin 16) (s : State) : Outcome State Fault Refusal :=
  if s.flag pSAFE (SAFE.RXC_CFG_EN j) && s.flag pSAFE (SAFE.RXC_STAT_SINGLE j) then
    .next ((s.set pSAFE (SAFE.RXC_STAT_VALID j) 0).connDemand j 4)
  else .next s

/-- WDT without an accepted copy (R409). -/
def execSafeMsgWdt (j : Fin 16) (s : State) : Outcome State Fault Refusal :=
  if s.flag pSAFE (SAFE.RXC_CFG_EN j) then
    .next ((s.set pSAFE (SAFE.RXC_STAT_VALID j) 0).connDemand j 5)
  else .next s

end Sys2Proof.Machine
end

