-- ==== Sys2Proof/Machine/Stepper.lean ====
section
/-! DEFINITION. The valve steppers (spec/15, R374 to R381, R388, R389). -/

namespace Sys2Proof.Machine

open Host (Outcome)

/-- The record of a channel. -/
def State.stepper (s : State) (n : Nat) : StepX := tabGet (fun _ => {}) s.steppers n

/-- Store the record of a channel. -/
def State.setStepper (s : State) (n : Nat) (x : StepX) : State :=
  { s with steppers := tabPut (fun _ => {}) s.steppers n x }

/-- States of a channel (STEP.STATUS.STATE). -/
abbrev skOFF : Nat := 0
abbrev skHOLDING : Nat := 1
abbrev skACCEL : Nat := 2
abbrev skCRUISE : Nat := 3
abbrev skDECEL : Nat := 4
abbrev skSTOPPING : Nat := 5
abbrev skHOMING : Nat := 6
abbrev skSTANDSTILL : Nat := 7

/-- State of a channel. -/
def State.stepSt (s : State) (n : Nat) : Nat := s.get (pSTEP n) STEP.STATUS_STATE

/-- Set the state of a channel. -/
def State.setStepSt (s : State) (n st : Nat) : State := s.set (pSTEP n) STEP.STATUS_STATE st

/-- Whether a channel is in motion: a move, a stop or a HOME runs. -/
def State.stepMoving (s : State) (n : Nat) : Bool :=
  decide (skACCEL ≤ s.stepSt n ∧ s.stepSt n ≤ skHOMING)

/-- One position unit in the units of the record. -/
abbrev stepUnit : Nat := 2000000000000

/-- Change the outputs of a channel. -/
def State.setStepOut (s : State) (n : Nat) (o : StepOut) : State :=
  if (s.stepper n).outs = o then s
  else (s.setStepper n { s.stepper n with outs := o }).send
    (.stepOut n (match o with | .released => 0 | .shorted => 1 | .driven => 2))

/-- The electrical angle of a position (R374), rounded down to the microstep. -/
def State.stepPhi (s : State) (n : Nat) (pos : Int) : Nat :=
  let q := 2 ^ (8 - min (s.get (pSTEP n) STEP.CFG_MSTEP) 8)
  (pos % 1024).toNat / q * q

/-- The coil set-points at a position, times 2³¹ (R374): I_SET × cos φ and I_SET × sin φ; DIR_INV reverses coil B. -/
def State.coilSet (s : State) (n iSet : Nat) (pos : Int) : Int × Int :=
  let v := sinCosNear (s.stepPhi n pos * 2 ^ 22)
  let b := iSet * v.1
  (iSet * v.2, if s.flag (pSTEP n) STEP.CFG_DIR_INV then -b else b)

/-- Show position, velocity, angle and the set-points (R374, R377). -/
def State.showStep (s : State) (n : Nat) : State :=
  let p := pSTEP n
  let x := s.stepper n
  let pos := x.x / (stepUnit : Int)
  let s := (s.setReg p STEP.POS (enc 32 pos)).setReg p STEP.VEL (enc 32 (x.v / 1000000))
  let s := s.set p STEP.LOAD_I_SET x.iSet
  let s := s.setB p STEP.STATUS_EST_VALID
    (decide (s.stepMoving n = true ∧ s.reg p STEP.EST_CFG % 2 ^ 24 * 1000000 ≤ x.v.natAbs))
  let c := s.coilSet n x.iSet pos
  s.setStepper n { s.stepper n with phi := s.stepPhi n pos, iA := c.1, iB := c.2 }

/-- A channel comes to rest: the coils hold the final vector at I_HOLD (R379). -/
def State.stepHold (s : State) (n : Nat) : State :=
  let x := s.stepper n
  let s := s.setStepper n { x with v := 0, iSet := s.get (pSTEP n) STEP.I_CFG_I_HOLD, restAt := s.beam.t }
  ((s.setStepSt n skHOLDING).setStepOut n .driven).showStep n

/-- The standstill mode of the coils (R379). -/
def State.standstill (s : State) (n : Nat) : State :=
  let s := s.setStepper n { s.stepper n with v := 0, restAt := s.beam.t }
  let o := if s.flag (pSTEP n) STEP.CFG_HOLD_MODE then StepOut.shorted else StepOut.released
  ((s.setStepSt n skSTANDSTILL).setStepOut n o).showStep n

/-- The flags that the next accepted move or HOME clears (R378, R380). -/
def State.stepFresh (s : State) (n : Nat) : State :=
  let p := pSTEP n
  (((s.set p STEP.STATUS_STALL 0).set p STEP.STATUS_COIL_OPEN 0).set p STEP.STATUS_OVERCURRENT 0).set p
    STEP.STATUS_HOME_FAIL 0

/-- A move starts (R375, R377): from rest the set-point is I_HOLD. -/
def State.stepGo (s : State) (n st : Nat) : State :=
  let s := if s.stepMoving n then s
    else s.setStepper n { s.stepper n with iSet := s.get (pSTEP n) STEP.I_CFG_I_HOLD }
  ((s.stepFresh n).setStepSt n st).setStepOut n .driven

/-- A write of TARGET (R375). -/
def State.stepTarget (s : State) (n : Nat) (v : Word) : State × Code :=
  let p := pSTEP n
  if !s.flag p STEP.STATUS_POS_OK then refuse s p (blk 1) .writeRefused
  else if s.stepSt n = skSTOPPING ∨ s.stepSt n = skHOMING then refuse s p (blk 2) .writeRefused
  else
    let t := sxt 32 v.toNat
    let c := clampI (s.regS p STEP.VLIM_LO) (s.regS p STEP.VLIM_HI) t
    let s := s.setReg p STEP.TARGET (enc 32 c)
    let s := if c = t then s.set p STEP.STATUS_CLIPPED 0
      else ((s.set p STEP.STATUS_CLIPPED 1).incSat p STEP.CLIP_CNT).ev p (blk 1)
    (if s.en p then s.stepGo n skACCEL else s, .ok)

def execStepTarget (w : Writer) (n : Fin 32) (v : Word) (s : State) : Outcome State Fault Refusal :=
  .next (finish w (pSTEP n) (s.actionWrite w (pSTEP n) (fun s => s.stepTarget n v)))

/-- CMD.STOP (R376). -/
def State.stepStop (s : State) (n : Nat) : State :=
  if s.stepMoving n then s.setStepSt n skSTOPPING else s

/-- CMD.HALT (R376). -/
def State.stepHalt (s : State) (n : Nat) : State :=
  let p := pSTEP n
  let x := s.stepper n
  if !s.stepMoving n then s
  else
    let s := if s.reg p STEP.EST_CFG % 2 ^ 24 * 1000000 < x.v.natAbs then s.set p STEP.STATUS_POS_OK 0 else s
    let i := x.iSet
    let s := s.stepHold n
    ((s.setStepper n { s.stepper n with iSet := i }).showStep n).ev p (blk 0)

/-- CMD.HOME (R376). -/
def State.stepHome (s : State) (n : Nat) : State × Code :=
  let p := pSTEP n
  if s.reg p STEP.VHOME % 2 ^ 24 < s.reg p STEP.EST_CFG % 2 ^ 24 then refuse s p (blk 0) .writeRefused
  else if !s.en p then (s, .ok)
  else
    let s := s.stepGo n skHOMING
    (s.setStepper n { s.stepper n with travel := 0 }, .ok)

/-- A write of CMD: STOP, HALT, HOME in the order of their bits. -/
def State.stepCmd (s : State) (n v : Nat) : State × Code :=
  let s := if v.testBit 0 then s.stepStop n else s
  let s := if v.testBit 1 then s.stepHalt n else s
  if v.testBit 2 then s.stepHome n else (s, .ok)

/-- One bit of CMD written by a writer. -/
def State.stepCmdBy (s : State) (w : Writer) (n b : Nat) : State :=
  finish w (pSTEP n) (s.actionWrite w (pSTEP n) (fun s => s.stepCmd n (2 ^ b)))

def execStepStop (w : Writer) (n : Fin 32) (s : State) : Outcome State Fault Refusal := .next (s.stepCmdBy w n 0)
def execStepHalt (w : Writer) (n : Fin 32) (s : State) : Outcome State Fault Refusal := .next (s.stepCmdBy w n 1)
def execStepHome (w : Writer) (n : Fin 32) (s : State) : Outcome State Fault Refusal := .next (s.stepCmdBy w n 2)

/-- A write of POS (R376). -/
def State.stepPosWrite (s : State) (n : Nat) (v : Word) : State × Code :=
  let p := pSTEP n
  if (s.stepper n).v ≠ 0 then refuse s p (blk 2) .writeRefused
  else
    let s := s.setStepper n { s.stepper n with x := sxt 32 v.toNat * (stepUnit : Int) }
    ((s.set p STEP.STATUS_POS_OK 1).showStep n, .ok)

def execStepPosWrite (w : Writer) (n : Fin 32) (v : Word) (s : State) : Outcome State Fault Refusal :=
  .next (finish w (pSTEP n) (s.actionWrite w (pSTEP n) (fun s => s.stepPosWrite n v)))

/-! ## The profile (R375) -/

/-- Integer square root over `k` bits of the root. -/
def rootBits (a : Nat) : Nat → Nat → Nat
  | 0, r => r
  | k + 1, r => rootBits a k (if (r + 2 ^ k) * (r + 2 ^ k) ≤ a then r + 2 ^ k else r)

/-- The next speed of a move toward its target at distance `d`, from speed `v`: as fast as ACC, VMAX and a
stop at the target with DEC allow, and at least DEC below `v`. -/
def nextSpeed (acc dec vmax v d : Nat) : Nat :=
  let best := if d < v then 0 else (rootBits (dec * dec + 4 * dec * (d - v)) 64 0 - dec) / 2
  max (v - dec) (min (min (v + acc) vmax) best)

/-- One microsecond of deceleration at DEC toward standstill. -/
def slow (dec : Nat) (v : Int) : Int := if v < 0 then min 0 (v + dec) else max 0 (v - dec)

/-- Move over one microsecond to velocity `v`. -/
def StepX.advance (x : StepX) (v : Int) : StepX := { x with x := x.x + x.v + v, v := v }

/-- One microsecond of a move to a target. -/
def State.moveTick (s : State) (n : Nat) : State :=
  let p := pSTEP n
  let x := s.stepper n
  let dec := s.reg p STEP.DEC % 2 ^ 24
  let goal := s.regS p STEP.TARGET * (stepUnit : Int)
  let d := goal - x.x
  let v := x.v.natAbs
  let toward := decide (x.v = 0) || (decide (0 < x.v) == decide (0 < d))
  if toward ∧ v ≤ dec ∧ d.natAbs ≤ v + dec then
    ((s.setStepper n { x with x := goal, v := 0 }).stepHold n).ev p (blk 0)
  else
    let v1 : Int := if toward then
        let k := nextSpeed (s.reg p STEP.ACC % 2 ^ 24) dec (s.reg p STEP.VMAX % 2 ^ 24 * 1000000) v d.natAbs
        if 0 < d then (k : Int) else -(k : Int)
      else slow dec x.v
    let st := if v < v1.natAbs then skACCEL else if v1.natAbs = v then skCRUISE else skDECEL
    ((s.setStepper n (x.advance v1)).setStepSt n st).showStep n

/-- One microsecond of a stop (R376, R381). -/
def State.stopTick (s : State) (n : Nat) : State :=
  let p := pSTEP n
  let x := s.stepper n
  let x' := x.advance (slow (s.reg p STEP.DEC % 2 ^ 24) x.v)
  if x'.v ≠ 0 then (s.setStepper n x').showStep n
  else
    let pos := x'.x / (stepUnit : Int)
    let s := s.setStepper n { x' with x := pos * (stepUnit : Int) }
    let s := s.setReg p STEP.TARGET (enc 32 pos)
    if s.flag p PG.STAT_SHUTTING then s.showStep n
    else (s.stepHold n).ev p (blk 0)

/-- One microsecond of a HOME (R376): it stops with HOME_FAIL after HOME_MAX units. -/
def State.homeTick (s : State) (n : Nat) : State :=
  let p := pSTEP n
  let x := s.stepper n
  let vh : Nat := s.reg p STEP.VHOME % 2 ^ 24 * 1000000
  let acc : Nat := s.reg p STEP.ACC % 2 ^ 24
  let goal : Int := if s.flag p STEP.CFG_HOME_DIR then (vh : Int) else -(vh : Int)
  let v1 : Int := if x.v < goal then min goal (x.v + acc) else max goal (x.v - acc)
  let x' := x.advance v1
  let x' := { x' with travel := x.travel + (x.v + v1).natAbs }
  let s := s.setStepper n x'
  if s.reg p STEP.HOME_MAX * stepUnit ≤ x'.travel then
    ((s.set p STEP.STATUS_HOME_FAIL 1).setStepSt n skSTOPPING).showStep n
  else s.showStep n

/-- The profile is recomputed every microsecond (R375). -/
def execStepperTick (n : Fin 32) (s : State) : Outcome State Fault Refusal :=
  let st := s.stepSt n
  .next (if st = skSTOPPING then s.stopTick n
    else if st = skHOMING then s.homeTick n
    else if s.stepMoving n then s.moveTick n
    else s)

/-! ## Load angle, stalls, coils (R377 to R380) -/

/-- A channel stops as on a stall (R378, R380). -/
def State.stallStop (s : State) (n : Nat) : State := (s.set (pSTEP n) STEP.STATUS_POS_OK 0).standstill n

/-- A stall (R376, R378): a HOME takes it as its end. -/
def State.stall (s : State) (n : Nat) : State :=
  let p := pSTEP n
  if s.stepSt n = skHOMING then
    let s := s.setStepper n { s.stepper n with x := s.regS p STEP.HOME_POS * (stepUnit : Int) }
    ((s.stepHold n).set p STEP.STATUS_POS_OK 1).ev p (blk 2)
  else
    let s := ((s.stallStop n).set p STEP.STATUS_STALL 1).err p (blk 3)
    (s.incSat p STEP.STALL_CNT).ev p (blk 3)

/-- The load angle that a channel estimates (R377). -/
def State.loadAngle (s : State) (n : Nat) (c : CoilSense) : Int :=
  Config.loadAngle [c.duty.1, c.duty.2, c.cur.1, c.cur.2, c.slope.1, c.slope.2] (s.reg pSTEPC (STEPC.VM (n / 8)))
    (s.get (pSTEP n) STEP.COIL_R_COIL) (s.get (pSTEP n) STEP.COIL_L_COIL)

/-- An estimate of the load angle (R377). -/
def execLoadAngleEstimate (n : Fin 32) (c : CoilSense) (s : State) : Outcome State Fault Refusal :=
  let p := pSTEP n
  let x := s.stepper n
  let delta := s.loadAngle n c
  .next (if !s.stepMoving n || decide (x.v.natAbs < s.reg p STEP.EST_CFG % 2 ^ 24 * 1000000) then s
    else
      let slew := s.get p STEP.I_CFG_I_SLEW
      let hi := s.get p STEP.I_CFG_I_MAX
      let lo := s.get p STEP.I_CFG_I_HOLD
      let i := if (s.get p STEP.I_CFG_DELTA_TGT : Int) < delta then min hi (x.iSet + slew)
        else max lo (x.iSet - slew)
      let s := (s.setStepper n { x with iSet := i }).showStep n
      let s := s.set p ⟨STEP.LOAD, 15, 8⟩ (clampI 0 255 delta).toNat
      if i = hi ∧ 90 < delta then s.stall n else s)

/-- STANDSTILL_T after the end of a move (R379). -/
def execStandstillEntry (n : Fin 32) (s : State) : Outcome State Fault Refusal :=
  .next (if s.stepSt n = skHOLDING ∧
      (s.stepper n).restAt + s.get (pSTEP n) STEP.CFG_STANDSTILL_T * unitsMs ≤ s.beam.t then s.standstill n
    else s)

/-- An open coil (R380): its current has stayed at most at `cur` for `us` microseconds at full duty. -/
def execCoilOpenDetect (n : Fin 32) (coilB : Bool) (cur us : Nat) (s : State) : Outcome State Fault Refusal :=
  let x := s.stepper n
  let set := (if coilB then x.iB else x.iA).natAbs
  .next (if x.outs ≠ .driven ∨ us < 2000 ∨ set < s.get (pSTEP n) STEP.I_CFG_I_HOLD * 2 ^ 31 ∨
      set ≤ 2 * cur * 2 ^ 31 then s
    else ((s.stallStop n).set (pSTEP n) STEP.STATUS_COIL_OPEN 1).err (pSTEP n) (blk 4))

/-- An overcurrent (R380): the current has stayed above `cur` for `us` microseconds, and the outputs are released. -/
def execOvercurrentDetect (n : Fin 32) (cur us : Nat) (s : State) : Outcome State Fault Refusal :=
  .next (if s.stepSt n = skOFF ∨ us < 10 ∨ 4 * cur ≤ 5 * s.get (pSTEP n) STEP.I_CFG_I_MAX then s
    else (((s.stallStop n).setStepOut n .released).set (pSTEP n) STEP.STATUS_OVERCURRENT 1).err (pSTEP n) (blk 4))

/-! ## Enable, shutdown, rest (R381) -/

/-- PG_CTL.EN written 1: the coils hold. -/
def State.stepEnable (s : State) (n : Nat) : State := if s.stepSt n = skOFF then s.stepHold n else s

/-- The outputs are released and the channel is off. -/
def State.stepOff (s : State) (n : Nat) : State :=
  let p := pSTEP n
  ((((s.setStepSt n skOFF).setStepOut n .released).showStep n).set p PG.STAT_SHUTTING 0).ev p 4

/-- PG_CTL.EN written 0. -/
def State.stepDisable (s : State) (n : Nat) : State :=
  if s.stepSt n = skOFF then s
  else if s.stepMoving n then (s.set (pSTEP n) PG.STAT_SHUTTING 1).setStepSt n skSTOPPING
  else ((s.setStepSt n skOFF).setStepOut n .released).showStep n

/-- The deceleration of a disabled channel has ended. -/
def execStepperShutDone (n : Fin 32) (s : State) : Outcome State Fault Refusal :=
  .next (if s.flag (pSTEP n) PG.STAT_SHUTTING ∧ (s.stepper n).v = 0 then s.stepOff n else s)

/-- The field-die domain of a channel rests: the outputs are released at once. -/
def State.stepRest (s : State) (n : Nat) : State :=
  let s := if s.stepMoving n then (s.set (pSTEP n) STEP.STATUS_POS_OK 0).setStepSt n skSTANDSTILL else s
  let s := s.setStepper n { s.stepper n with v := 0 }
  (s.setStepOut n .released).showStep n

/-! ## Registers -/

/-- A STEP commit that R389 refuses, and a STEPC commit that R388 refuses. -/
def State.stepDenied (s : State) (n : Nat) : Bool :=
  let p := pSTEP n
  let f := s.stagedGet p
  let w (o : Nat) : Nat := (s.stagedWord p o).toNat
  decide (sxt 32 (w STEP.VLIM_HI) < sxt 32 (w STEP.VLIM_LO)) || decide (8 < f STEP.CFG_MSTEP) ||
    decide (f STEP.I_CFG_I_MAX < f STEP.I_CFG_I_HOLD) || decide (90 ≤ f STEP.I_CFG_DELTA_TGT) ||
    decide (w STEP.VMAX % 2 ^ 24 = 0 ∨ w STEP.ACC % 2 ^ 24 = 0 ∨ w STEP.DEC % 2 ^ 24 = 0)
def State.stepcDenied (s : State) : Bool :=
  let f := s.stagedGet pSTEPC STEPC.CHOP_CHOP_F
  decide (f ≠ 0 ∧ (f < 20 ∨ 50 < f))

/-- Computed STEPC registers: the maps. -/
def State.stepcReg (s : State) (off : Nat) : Option Nat :=
  let m (f : Nat → Bool) : Nat := maskOf ((List.range 32).filter f)
  if off = STEPC.MOVING_MAP then some (m (fun n => s.stepMoving n))
  else if off = STEPC.UNSURE_MAP then some (m (fun n => !s.flag (pSTEP n) STEP.STATUS_POS_OK))
  else if off = STEPC.STALL_MAP then some (m (fun n => s.flag (pSTEP n) STEP.STATUS_STALL))
  else none

/-- Writes of STEP registers with rules of their own. -/
def State.stepRegWrite (s : State) (n off : Nat) (v : Word) : Option (State × Code) :=
  if off = STEP.TARGET then some (s.stepTarget n v)
  else if off = STEP.POS then some (s.stepPosWrite n v)
  else if off = STEP.CMD then some (s.stepCmd n v.toNat)
  else none

end Sys2Proof.Machine
end

