-- ==== Sys2Proof/Machine/Tally.lean ====
section
/-! DEFINITION. The tally store and its drives (spec/19, R472 to R491). -/

namespace Sys2Proof.Machine

open Host (Outcome)

/-- Store the record of the tally store. -/
def State.setStore (s : State) (x : StoreX) : State := { s with store := x }

/-- Replace the store's running state. -/
def State.setCore (s : State) (c : CoreX) : State := s.setStore { s.store with core := c }

/-- Store states (TALLY.STAT.STORE). -/
abbrev tsCLOSED : Nat := 0
abbrev tsOPENING : Nat := 1
abbrev tsOPEN : Nat := 2
abbrev tsUNFORMATTED : Nat := 3
abbrev tsFAILED : Nat := 4

/-- State of the store. -/
def State.storeSt (s : State) : Nat := s.get pTALLY TALLY.STAT_STORE

/-- Change the state of the store: STORE_CHG. -/
def State.setStoreSt (s : State) (v : Nat) : State :=
  if s.storeSt = v then s else (s.set pTALLY TALLY.STAT_STORE v).ev pTALLY (blk 2)

/-- Classes (R478). -/
abbrev clFULL : Nat := 0
abbrev clDECIMATED : Nat := 1
abbrev clEVENTS : Nat := 2
abbrev clAUDIT : Nat := 5

/-- Whether a class lies in the ring. -/
def ringClass (c : Nat) : Bool := c == 0 || c == 3 || c == 4

/-- A class of the running state. -/
def CoreX_get (c : CoreX) (k : Nat) : ClsX := c.cls.getD k {}
def CoreX_put (c : CoreX) (k : Nat) (x : ClsX) : CoreX := { c with cls := c.cls.set k x }

/-! ## Drives (R472 to R476) -/

/-- Drive states (NVME.STAT.STATE). -/
abbrev nvABSENT : Nat := 0
abbrev nvINIT : Nat := 1
abbrev nvREADY : Nat := 2
abbrev nvFAILED : Nat := 3

/-- State of a drive. -/
def State.driveSt (s : State) (k : Nat) : Nat := s.get (pNVME k) NVME.STAT_STATE

/-- MODE (R476): 3 is treated as 0. -/
def State.tallyMode (s : State) : Nat :=
  let m := s.get pTALLY TALLY.CTL_MODE
  if m = 3 then 0 else m

/-- The drives that the mode uses. -/
def State.modeDrives (s : State) : List Nat := if s.tallyMode = 0 then [0] else [0, 1]

/-- Whether a drive can be used. -/
def State.driveOk (s : State) (k : Nat) : Bool :=
  decide (s.driveSt k = nvREADY) && !s.flag (pNVME k) NVME.STAT_NS_BAD

/-- Whether the drives of the mode can carry the store: all of them, in MIRROR at least one. -/
def State.drivesOk (s : State) : Bool :=
  if s.tallyMode = 2 then s.driveOk 0 || s.driveOk 1 else s.modeDrives.all s.driveOk

/-- Blocks of the store on the drives of the mode. -/
def State.capacity (s : State) : Nat :=
  let c0 := s.reg (pNVME 0) NVME.CAP_BLK
  let c1 := s.reg (pNVME 1) NVME.CAP_BLK
  min (2 ^ 29) (match s.tallyMode with
    | 0 => c0
    | 1 => c0 + c1
    | _ => min c0 c1)

/-- DEGRADED (R476). -/
def State.setDegraded (s : State) (b : Bool) : State :=
  if s.flag pTALLY TALLY.STAT_DEGRADED = b then s else (s.setB pTALLY TALLY.STAT_DEGRADED b).ev pTALLY (blk 2)

/-- The store's reaction to a drive that it has lost (R475, R476). -/
def State.driveLost (s : State) (k : Nat) : State :=
  if s.storeSt ≠ tsOPEN ∧ s.storeSt ≠ tsOPENING then s
  else if !(s.modeDrives.contains k) then s
  else if s.tallyMode = 2 ∧ s.drivesOk then s.setDegraded true
  else (s.setStore { s.store with round := none, again := false }).setStoreSt tsFAILED

/-- A drive becomes FAILED (R475). -/
def State.driveFail (s : State) (k : Nat) : State :=
  let p := pNVME k
  if s.driveSt k = nvABSENT then s
  else ((s.set p NVME.STAT_STATE nvFAILED).err p (blk 1)).driveLost k

/-- PG_CTL.EN of an NVME page is written: the drive starts anew, or is left. -/
def State.nvmeEnable (s : State) (k : Nat) : State :=
  ((s.setReg (pNVME k) NVME.STAT nvINIT).setReg (pNVME k) NVME.WRITTEN 0).setReg (pNVME k) NVME.CAP_BLK 0
def State.nvmeDisable (s : State) (k : Nat) : State := (s.setReg (pNVME k) NVME.STAT 0).driveLost k

/-- A namespace command (R474). -/
def State.nsCmd (s : State) (k : Nat) (v : Word) : State :=
  let p := pNVME k
  let op := v.toNat % 8
  let s := s.setReg p NVME.NS_CMD op
  if v.toNat / 2 ^ 31 = 0 then s
  else if s.en pTALLY || (op == 2 && s.lifeSt == 2) || !(op == 1 || op == 2 || op == 3) then
    (s.setReg p NVME.NS_RES (2 ^ 31 + 0xFFFF)).ev p (blk 0)
  else ((s.setReg p NVME.NS_RES 0).setStore { s.store with nsOp := s.store.nsOp.set k op }).send
    (.nvmeNs k op (s.reg64 p NVME.NS_ARG_LO))

/-- A namespace command of a writer. -/
def State.nsOpCmd (s : State) (w : Writer) (k op : Nat) : State :=
  finish w (pNVME k) (s.actionWrite w (pNVME k) (fun s => (s.nsCmd k (wordOf (2 ^ 31 + op)), .ok)))

def execNsCreate (w : Writer) (k : Fin 2) (s : State) : Outcome State Fault Refusal := .next (s.nsOpCmd w k 1)
def execNsDelete (w : Writer) (k : Fin 2) (s : State) : Outcome State Fault Refusal := .next (s.nsOpCmd w k 2)
def execNsAttach (w : Writer) (k : Fin 2) (s : State) : Outcome State Fault Refusal := .next (s.nsOpCmd w k 3)

/-- An error status: counted, and the drive is FAILED (R475). -/
def State.nvmeError (s : State) (k : Nat) : State := (s.incSat (pNVME k) NVME.ERR_CNT).driveFail k

/-- A command completes or the drive reports (R472 to R475); injection point 0 makes a completion an
error (R569). -/
def execNvmeCompletion (k : Fin 2) (e : NvmeEv) (s : State) : Outcome State Fault Refusal :=
  let p := pNVME k
  if !s.en p ∨ s.driveSt k = nvABSENT ∨ s.driveSt k = nvFAILED then .next s
  else
    let r := s.injTake p 0
    let s := r.2
    match e with
    | .ready speed width blocks nsOk vwc =>
      if r.1 then .next (s.nvmeError k)
      else if s.driveSt k ≠ nvINIT then .next s
      else
        let s := (s.set p NVME.STAT_SPEED speed).set p NVME.STAT_WIDTH width
        let s := ((s.set p NVME.STAT_LINK 1).setB p NVME.STAT_NS_BAD (!nsOk)).setB p NVME.STAT_VWC vwc
        .next ((s.setReg p NVME.CAP_BLK (min blocks (2 ^ 29))).set p NVME.STAT_STATE nvREADY)
    | .ns status =>
      if s.store.nsOp.getD k 0 = 0 then .next s
      else
        let st := if r.1 ∧ status = 0 then 1 else status
        let s := s.setStore { s.store with nsOp := s.store.nsOp.set k 0 }
        let s := (s.setReg p NVME.NS_RES (2 ^ 31 + st % 65536)).ev p (blk 0)
        .next (if st = 0 then s else s.nvmeError k)
    | .notice => .next (if r.1 then s.nvmeError k else s.ev p (blk 1))
    | .smart wear temp =>
      .next (if r.1 then s.nvmeError k else (s.setReg p NVME.WEAR (wear % 256)).setReg p NVME.TEMP (temp % 65536))
    | .done status => .next (if r.1 ∨ status ≠ 0 then s.nvmeError k else s)

/-- A command does not complete within CAP.TO (R475). -/
def execNvmeCmdTimeout (k : Fin 2) (s : State) : Outcome State Fault Refusal :=
  if s.driveSt k = nvABSENT ∨ s.driveSt k = nvFAILED then .next s
  else .next ((s.incSat (pNVME k) NVME.TMO_CNT).driveFail k)

/-! ## Blocks (R477, R478, R480) -/

/-- Blocks of the store and the ring floor. -/
def State.total (s : State) : Nat := s.reg pTALLY TALLY.TOTAL

/-- Drop a store block from the classes that hold it. -/
def dropBlock (c : CoreX) (i : Nat) : CoreX :=
  { c with cls := c.cls.map (fun x => { x with held := x.held.filter (fun e => !(e.2 == i)), idx := if x.idx = some i then none else x.idx }) }

/-- A new block of a ring class (R478): a ring block never used, else the oldest. -/
def ringTake (c : CoreX) (total : Nat) : Option (Nat × CoreX) :=
  let f := max c.fresh c.pEnd
  if f < total then some (f, { c with fresh := f + 1, used := c.used ++ [f] })
  else
    match c.used with
    | [] => none
    | i :: rest => some (i, dropBlock { c with used := rest ++ [i] } i)

/-- A new protected block (R478): the ring block at the boundary. -/
def protTake (c : CoreX) (total : Nat) : Option (Nat × CoreX) :=
  if c.pEnd < total then
    some (c.pEnd, dropBlock { c with pEnd := c.pEnd + 1, used := c.used.filter (fun i => !(i == c.pEnd)) } c.pEnd)
  else none

/-- TALLY_FULL is raised when the ring falls below RING_MIN. -/
def State.ringCheck (s : State) : State :=
  if s.total - s.store.core.pEnd < s.reg pTALLY TALLY.RING_MIN ∧ !s.flag pTALLY TALLY.STAT_TALLY_FULL then
    (s.set pTALLY TALLY.STAT_TALLY_FULL 1).ev pTALLY (blk 1)
  else s

/-- Write a store block's bytes on the drives. -/
def State.writeBlock (s : State) (i : Nat) (b : List Nat) : State :=
  s.setStore { s.store with disk := tabPut (fun _ => []) s.store.disk i b }

/-- A block header (R480). -/
def blockHeader (c bseq first : Nat) (id prev : List Nat) : List Nat :=
  leBytes 4 0x4B4C4154 ++ [c, 1, 0, 0] ++ leBytes 8 bseq ++ leBytes 8 first ++ (id ++ List.replicate 8 0).take 8 ++
    (prev ++ List.replicate 32 0).take 32

/-- 64 KiB. -/
abbrev blockBytes : Nat := 65536

/-- STORE_ID of the open store. -/
def State.storeId (s : State) : List Nat := ((s.store.label.map LabelX.storeId).getD (List.replicate 8 0))

/-- Open the next block of a class; `none`: no block is left, and the store is STORE_FULL. -/
def State.openBlock (s : State) (k : Nat) : Option State :=
  let core := s.store.core
  let x := CoreX_get core k
  let bseq := if x.live then x.bseq + 1 else x.bseq
  let prev := if x.live then sha256 (x.bytes ++ List.replicate (blockBytes - x.bytes.length) 0) else x.prev
  match (if ringClass k then ringTake core s.total else protTake core s.total) with
  | none => none
  | some (i, core) =>
    let h := blockHeader k bseq x.next s.storeId prev
    let y := CoreX_get core k
    let core := CoreX_put core k { y with live := true, bseq := bseq, bytes := h, idx := some i, prev := prev, held := y.held ++ [(bseq, i)] }
    some ((s.setCore core).writeBlock i h).ringCheck

/-! ## Records (R480 to R482) -/

/-- Zeros up to a multiple of 16. -/
def padRec (l : List Nat) : List Nat := l ++ List.replicate ((16 - l.length % 16) % 16) 0

/-- A record's bytes (R480), its CRC over header and stored body with the field 0. -/
def recBytes (c ty flags rseq t src lock ref raw : Nat) (body : List Nat) : List Nat :=
  let h (crc : Nat) : List Nat :=
    leBytes 4 (64 + body.length) ++ [ty, c] ++ leBytes 2 flags ++ leBytes 8 rseq ++ leBytes 8 t ++ leBytes 2 src ++ [lock] ++
      List.replicate 5 0 ++ leBytes 8 ref ++ leBytes 4 raw ++ leBytes 4 crc ++ List.replicate 16 0
  h (crc32c (h 0 ++ body)) ++ body

/-- Show a class's heads (R490). -/
def State.showClass (s : State) (k : Nat) : State :=
  let x := CoreX_get s.store.core k
  let s := (s.setReg64 pTALLY (TALLY.HEAD_RSEQ_LO k) x.next).setReg64 pTALLY (TALLY.DUR_RSEQ_LO k) x.dur
  let s := (s.setReg pTALLY (TALLY.HEAD_BSEQ k) x.bseq).setReg pTALLY (TALLY.HEAD_OFS k) x.bytes.length
  s.setReg pTALLY (TALLY.OLD_BSEQ k) (((x.held.map Prod.fst).min?).getD x.bseq)

/-- Show every class and P_END. -/
def State.showStore (s : State) : State :=
  ((List.range 6).foldl (fun (s : State) k => s.showClass k) s).setReg pTALLY TALLY.P_END s.store.core.pEnd

/-- Whether the next record of a class, with its padding, needs a new block. -/
def needBlock (x : ClsX) (n : Nat) : Bool := !x.live || x.idx.isNone || decide (blockBytes < x.bytes.length + n)

/-- Append a record to a class: its RSEQ; `none` where no block is left. -/
def State.append (s : State) (k ty flags src ref raw : Nat) (body : List Nat) : State × Option Nat :=
  let rseq := (CoreX_get s.store.core k).next
  let t := s.beam.t / 256
  let b := recBytes k ty flags rseq t src (s.get pBEAM BEAM.STAT_LOCK) ref raw body
  let l := padRec b
  let r := if needBlock (CoreX_get s.store.core k) l.length then s.openBlock k else some s
  match r with
  | none => ((s.set pTALLY TALLY.STAT_STORE_FULL 1), none)
  | some s =>
    let core := s.store.core
    let x := CoreX_get core k
    let x := { x with next := rseq + 1, bytes := x.bytes ++ l }
    let s := s.setCore (CoreX_put core k x)
    let s := match x.idx with
      | some i => s.writeBlock i x.bytes
      | none => s
    let s := s.setStore { s.store with wait := s.store.wait ++ [⟨k, rseq, b⟩] }
    (s.showStore, some rseq)

/-- A record of the device itself: FLAGS.DEV. -/
def State.appendDev (s : State) (k ty gap : Nat) (body : List Nat) : State × Option Nat :=
  s.append k ty (4 + 2 * gap) s.addr 0 body.length body

/-! ## Posts (R481 to R483) -/

/-- Number of descriptors of the post ring. -/
def State.postSize (s : State) : Nat := s.reg pTALLY TALLY.POST_SIZE % 65536

/-- A refused post is counted. -/
def State.postRefused (s : State) (code : Nat) : State :=
  if code = 3 then s.incF pTALLY TALLY.REFUSED_FULL_STOP else s.incF pTALLY ⟨TALLY.REFUSED, 15, 0⟩

/-- Why the store refuses a record of a class (R478): FULL_STOP 3, STORE_FULL 4, NO_STORE 5; 0: it does not. -/
def State.classRefuses (s : State) (c : Nat) : Nat :=
  if s.storeSt ≠ tsOPEN then 5
  else if s.flag pTALLY TALLY.STAT_STORE_FULL then 4
  else if c = clFULL ∧ s.flag pTALLY TALLY.STAT_TALLY_FULL then 3
  else 0

/-- Take the next descriptor (R483); `z`: the body that the compressor makes of a COMPRESS post's. -/
def State.takePost (s : State) (z : Option (List Nat)) : State :=
  let n := s.postSize
  let i := s.reg pTALLY TALLY.POST_RD % 65536
  if n = 0 ∨ i = s.reg pTALLY TALLY.POST_WR % 65536 then s
  else
    let a := s.reg64 pTALLY TALLY.POST_BASE_LO + 32 * i
    let len := s.memLE (a + 8) 4
    let ty := s.memLE (a + 12) 1
    let c := s.memLE (a + 13) 1
    let fl := s.memLE (a + 14) 1
    let ref := s.memLE (a + 16) 8
    let s := s.setReg pTALLY TALLY.POST_RD ((i + 1) % n)
    let bad := (decide (1 ≤ ty) && decide (ty ≤ 0x0F)) || (decide (0x1B ≤ ty) && decide (ty ≤ 0x7F)) || decide (5 < c)
    let zip := fl.testBit 0 && (match z with
      | some b => decide (b.length < len)
      | none => false)
    let stored := if zip then (z.getD []).length else len
    let code := s.classRefuses c
    let fin (s : State) (code : Nat) (rseq : Option Nat) : State :=
      let s := s.setMemBytes (a + 14) [fl ||| 128, code]
      let s := match rseq with
        | some r => s.setMemBytes (a + 24) (leBytes 8 r)
        | none => s.postRefused code
      s.ev pTALLY (blk 3)
    if code = 5 then fin s 5 none
    else if bad then fin s 2 none
    else if code ≠ 0 then fin s code none
    else if blockBytes - 64 < 64 + stored then fin s 1 none
    else
      let body := if zip then z.getD [] else s.memBytes (s.memLE a 8) len
      let r := s.append c ty (b2n zip) s.addr ref len body
      match r.2 with
      | some q => fin r.1 0 (some q)
      | none => fin r.1 4 none

/-- A post is taken: the device's own posts first (R165, R482). -/
def execPostTake (z : Option (List Nat)) (s : State) : Outcome State Fault Refusal :=
  match s.hwPosts with
  | h :: rest =>
    let s := { s with hwPosts := rest }
    if s.classRefuses h.cls ≠ 0 then .next s else .next (s.appendDev h.cls h.ty 0 h.body).1
  | [] => .next (s.takePost z)

/-! ## Flush rounds (R483, R489) -/

/-- A flush round starts (R483); one that is asked for while another runs follows it. -/
def State.flushRound (s : State) : State :=
  if s.storeSt ≠ tsOPEN then s
  else
    let x := s.store
    if x.round.isSome then s.setStore { x with again := true } else s.setStore { x with round := some x.core }

def execFlushRound (s : State) : Outcome State Fault Refusal := .next s.flushRound

/-- CMD.FLUSH. -/
def execCmdFlush (w : Writer) (s : State) : Outcome State Fault Refusal :=
  .next (finish w pTALLY (s.actionWrite w pTALLY (fun s => (s.flushRound, .ok))))

/-- Parcels of a record for the peer (R489). -/
def State.sendRec (s : State) (r : TRec) : State :=
  let n := max 1 ((r.data.length + 2031) / 2032)
  (List.range n).foldl (fun (s : State) i =>
    s.fabBytes kdTALLY (s.get pTALLY TALLY.REPL_CFG_PEER)
      (leBytes 8 r.rseq ++ [r.c, i, n, 0] ++ leBytes 4 (2032 * i) ++ (r.data.drop (2032 * i)).take 2032)) s

/-- REPL_LAG. -/
def State.setLag (s : State) : State := s.setReg pTALLY TALLY.REPL_LAG (min s.store.repl.length 0xFFFFFFFF)

/-- An acknowledgement to the source of a replicated record. -/
def State.sendReplAck (s : State) (src c orig : Nat) : State :=
  s.fabBytes kdTALLY src (leBytes 8 orig ++ [c, 0, 0, 0] ++ leBytes 4 0)

/-- What a round makes durable (R483): DUR_RSEQ, the commit word, records for the peer, acknowledgements. -/
def State.commitRound (s : State) (c : CoreX) (clean : Bool) : State :=
  let x := s.store
  let dur (k : Nat) : Nat := (CoreX_get c k).next
  let setDur (c : CoreX) : CoreX :=
    { c with cls := c.cls.mapIdx (fun k y => { y with dur := max y.dur (dur k) }) }
  let done := x.wait.filter (fun r => decide (r.rseq < dur r.c))
  let old := (List.range 6).any (fun k => decide ((CoreX_get x.core k).dur < dur k))
  let lastT := (done.getLast?.map (fun r => ofLE ((r.data.drop 16).take 8))).getD x.lastT
  let send := if s.flag pTALLY TALLY.REPL_CFG_EN then
      done.filter (fun r => (s.get pTALLY TALLY.REPL_CFG_MASK).testBit r.c)
    else []
  let acks := x.acks.filter (fun e => decide (e.2.2.2 < dur e.2.1))
  let s := s.setStore { x with
    core := setDur x.core, com := setDur c, clean := clean, round := none, lastT := lastT
    wait := x.wait.filter (fun r => !(decide (r.rseq < dur r.c))), repl := x.repl ++ send
    acks := x.acks.filter (fun e => !(decide (e.2.2.2 < dur e.2.1))) }
  let f := s.free
  let s := s.modeDrives.foldl (fun (s : State) k =>
    if s.driveOk k then s.setReg (pNVME k) NVME.WRITTEN ((s.reg (pNVME k) NVME.WRITTEN + f.1) % 2 ^ 32) else s) f.2
  let s := if old then s.ev pTALLY (blk 0) else s
  let s := send.foldl (fun (s : State) r => s.sendRec r) s
  let s := acks.foldl (fun (s : State) e => s.sendReplAck e.1 e.2.1 e.2.2.1) s
  s.setLag.showStore

/-- The round's commit word is on the drives (R483). -/
def execFlushRoundDone (s : State) : Outcome State Fault Refusal :=
  match s.store.round with
  | none => .next s
  | some c =>
    if s.storeSt ≠ tsOPEN then .next s
    else
      let again := s.store.again
      let s := s.commitRound c false
      let s := s.setStore { s.store with again := false }
      .next (if again then s.flushRound else s)

/-! ## Seals (R484) -/

/-- A CHARGE body: CHG_IN, CHG_OUT, ENERGY of each rod, as a read of CEA gives them (R312). -/
def State.chargeBody (s : State) : List Nat :=
  (List.range 24).flatMap (fun r => (List.range 3).flatMap (fun j => leBytes 8 (s.tallySum r j)))

/-- A seal's body with its signature under a key; without one the signature is open. -/
def State.sealSign (s : State) (b : List Nat) (key : Option (List Nat)) : List Nat × State :=
  match key with
  | some k => (b ++ edSign k b, s)
  | none =>
    let r := s.freeBytes 64
    (b ++ r.1, r.2)

/-- A SEAL body (R484), signed with the key of slot 0. -/
def State.sealBody (s : State) : List Nat × State :=
  let ones := List.replicate 8 255
  let core := s.store.core
  let b := leBytes 8 (s.beam.t / 256 / 1000000000 * 1000000000) ++ [s.get pBEAM BEAM.STAT_LOCK] ++ List.replicate 7 0 ++
    (match core.lastSeal with
      | some r => leBytes 8 r
      | none => ones) ++ leBytes 2 s.addr ++ List.replicate 6 0 ++
    (List.range 6).flatMap (fun k =>
      let x := CoreX_get core k
      (if x.next = 0 then ones else leBytes 8 (x.next - 1)) ++ leBytes 4 x.bseq ++ leBytes 4 x.bytes.length ++ sha256 x.bytes)
  s.sealSign b (s.keyOf 0 2)

/-- The CHARGE records and the SEAL of a second; `false` where one finds no block. -/
def State.sealNow (s : State) : State :=
  let late (s : State) : State := s.set pTALLY TALLY.STAT_SEAL_LATE 1
  if s.classRefuses clAUDIT ≠ 0 then late s
  else
    let body := s.chargeBody
    let full := s.flag pTALLY TALLY.STAT_TALLY_FULL
    let r := s.appendDev (if full then clDECIMATED else clFULL) 3 0 body
    let s := r.1
    let s := if s.sec % 60 = 0 ∧ !full ∧ s.classRefuses clDECIMATED = 0 then (s.appendDev clDECIMATED 3 0 body).1 else s
    if s.classRefuses clAUDIT ≠ 0 then late s
    else
      let b := s.sealBody
      let r := b.2.appendDev clAUDIT 1 0 b.1
      match r.2 with
      | none => late r.1
      | some q =>
        let s := r.1.setCore { r.1.store.core with lastSeal := some q }
        ((s.inc pTALLY TALLY.SEAL_CNT).setReg pTALLY TALLY.SEAL_NS s.ns)

/-- Take descriptors up to an index. -/
def takePosts : Nat → Nat → List (Option (List Nat)) → State → State
  | 0, _, _, s => s
  | n + 1, wr, zs, s =>
    if s.reg pTALLY TALLY.POST_RD % 65536 = wr then s
    else takePosts n wr zs.tail (s.takePost (zs.headD none))

/-- The seal of a beam second (R484); `zs`: the compressed bodies of the descriptors that it takes first. -/
def execSeal (zs : List (Option (List Nat))) (s : State) : Outcome State Fault Refusal :=
  if s.storeSt = tsFAILED then .next (s.set pTALLY TALLY.STAT_SEAL_LATE 1)
  else if s.storeSt ≠ tsOPEN then .next s
  else
    let s := takePosts s.postSize (s.reg pTALLY TALLY.POST_WR % 65536) zs s
    .next s.sealNow.flushRound

/-- A hand-over to VBAK (R484): a CHARGE record in EVENTS, and a flush round. -/
def State.handoverCharge (s : State) : State :=
  if s.classRefuses clEVENTS ≠ 0 then s else (s.appendDev clEVENTS 3 0 s.chargeBody).1.flushRound

/-! ## Opening, closing, format (R479, R485, R486) -/

/-- TALLY.PG_CTL.EN = 1. -/
def State.tallyEnable (s : State) : State := (s.setDegraded false).setStoreSt tsOPENING

/-- Steps 1 to 5 of the opening (R485): drives, label, system and key, commit word, recovery. -/
def execStoreOpen (a b : LabelRead) (s : State) : Outcome State Fault Refusal :=
  if s.storeSt ≠ tsOPENING then .next s
  else if !s.drivesOk then .next (s.setStoreSt tsFAILED)
  else
    let x := s.store
    let own := x.label.isSome
    let good := own && (a == .good || b == .good)
    let other := a == .other || b == .other
    if good && other then .next ((s.err pTALLY (blk 3)).setStoreSt tsFAILED)
    else if other then .next ((s.err pTALLY (blk 4)).setStoreSt tsFAILED)
    else
      match x.label with
      | none => .next (s.setStoreSt tsUNFORMATTED)
      | some l =>
        if !good then .next (s.setStoreSt tsUNFORMATTED)
        else if l.sysId ≠ s.reg pFABR FABR.SYS_ID ∨ l.key ≠ (s.slotPub 0).take 32 then
          .next ((s.err pTALLY (blk 4)).setStoreSt tsFAILED)
        else
          -- what was appended after the commit word is discarded; blocks taken since are gone
          let lost := (List.range 6).foldl (fun n k => n + ((CoreX_get x.core k).next - (CoreX_get x.com k).next)) 0
          let keep (k : Nat) (e : Nat × Nat) : Bool :=
            let h := tabGet (fun _ => []) x.disk e.2
            h.getD 4 99 == k && ofLE ((h.drop 8).take 8) == e.1
          let cls := x.com.cls.mapIdx (fun k y => { y with
            held := y.held.filter (keep k), idx := if y.held.any (fun e => e.1 == y.bseq && keep k e) then y.idx else none })
          let core := { x.com with cls := cls, used := x.com.used.filter (fun i => cls.any (fun y => y.held.any (fun e => e.2 == i))) }
          let s := s.setStore { x with core := core, round := none, again := false, wait := [], acks := [] }
          let s := cls.foldl (fun (s : State) y =>
            match y.idx with
            | some i => s.writeBlock i y.bytes
            | none => s) s
          let s := ((s.setReg64 pTALLY TALLY.STORE_ID_LO (ofLE l.storeId)).setReg pTALLY TALLY.TOTAL l.total).setReg pTALLY
            TALLY.RING_MIN l.ringMin
          let s := (s.setReg pTALLY TALLY.RECOV lost).setB pTALLY TALLY.STAT_UNCLEAN (!x.clean)
          let s := if s.tallyMode = 2 ∧ !(s.driveOk 0 && s.driveOk 1) then s.setDegraded true else s
          .next s.showStore

/-- The body of RESTART (R485, R21): the clean flag, the committed durable RSEQ of every class, the beam time of the
last durable record, each in 8 bytes and in that order (log 195). -/
def State.restartBody (s : State) : List Nat :=
  leBytes 8 (b2n s.store.clean) ++ (List.range 6).flatMap (fun k => leBytes 8 (CoreX_get s.store.com k).dur) ++
    leBytes 8 s.store.lastT

/-- Steps 6 and 7 (R485): RESTART, and OPEN. -/
def execStoreOpenDone (s : State) : Outcome State Fault Refusal :=
  if s.storeSt ≠ tsOPENING ∨ s.store.label.isNone ∨ s.reg pTALLY TALLY.TOTAL = 0 then .next s
  else
    let s := s.setStoreSt tsOPEN
    let s := (s.appendDev clEVENTS 2 (b2n (!s.store.clean)) s.restartBody).1
    .next (s.setStore { s.store with clean := false })

/-- EN = 0: the store shuts down (R486). -/
def State.tallyDisable (s : State) : State :=
  if s.storeSt = tsCLOSED then s else s.set pTALLY PG.STAT_SHUTTING 1

/-- The final seal and flush round, the clean mark, CLOSED (R486). -/
def State.storeClose (s : State) : State :=
  let s := if s.storeSt = tsOPEN then
      let s := s.sealNow
      s.commitRound s.store.core true
    else s
  let s := s.setStore { s.store with round := none, again := false }
  let s := s.setStoreSt tsCLOSED
  if s.flag pTALLY PG.STAT_SHUTTING then
    ((s.set pTALLY PG.STAT_SHUTTING 0).set pTALLY PG.STAT_ENABLED 0).ev pTALLY 4
  else s

def execStoreClose (s : State) : Outcome State Fault Refusal :=
  if s.flag pTALLY PG.STAT_SHUTTING then .next s.storeClose else .next s

/-- CMD.FORMAT (R479). -/
def State.format (s : State) : State × Code :=
  if s.en pTALLY || s.flag pTALLY PG.STAT_SHUTTING ||
      !(s.lifeSt == 1 || s.lifeSt == 3 || s.store.label.isNone) || !s.drivesOk then
    refuse s pTALLY (blk 2) .writeRefused
  else
    let total := s.capacity
    let m := s.reg pTALLY TALLY.FMT_RING_MIN % 2 ^ 29
    let r := s.freeBytes 8
    let s := r.2
    let l : LabelX := {
      storeId := r.1, sysId := s.reg pFABR FABR.SYS_ID, addr := s.addr, key := (s.slotPub 0).take 32, total := total
      ringMin := if m = 0 then total / 16 else m }
    let x := s.store
    let s := s.setStore { label := some l, nsOp := x.nsOp, copies := [] }
    let s := (s.set pTALLY TALLY.STAT_TALLY_FULL 0).set pTALLY TALLY.STAT_STORE_FULL 0
    let s := ((s.setReg64 pTALLY TALLY.STORE_ID_LO (ofLE l.storeId)).setReg pTALLY TALLY.TOTAL total).setReg pTALLY
      TALLY.RING_MIN l.ringMin
    (s.showStore, .ok)

def execFormat (w : Writer) (s : State) : Outcome State Fault Refusal :=
  .next (finish w pTALLY (s.actionWrite w pTALLY State.format))

/-- CMD is written. -/
def State.tallyCmd (s : State) (v : Word) : State × Code :=
  let r : State × Code := if v.toNat.testBit 0 then s.format else (s, .ok)
  (if v.toNat.testBit 1 then r.1.flushRound else r.1, r.2)

/-! ## Reading (R487) -/

/-- A byte range of a class's block: its bytes, 0 beyond the head; `none` where the block is absent. -/
def State.storeBytes (s : State) (k bseq ofs len : Nat) : Option (List Nat) :=
  let x := CoreX_get s.store.core k
  match x.held.find? (fun e => e.1 == bseq) with
  | none => none
  | some e =>
    let b := if x.live ∧ bseq = x.bseq then x.bytes else tabGet (fun _ => []) s.store.disk e.2
    some (((b.drop ofs).take len ++ List.replicate len 0).take len)

/-- RD_CTL is written: GO reads (R487). -/
def State.rdCtl (s : State) (v : Word) : State :=
  let s := s.setWord pTALLY TALLY.RD_CTL (maskW v 0x7001FFFF)
  if v.toNat / 2 ^ 31 = 0 then s
  else
    let k := bitsOf v.toNat 30 28
    let n := v.toNat % 2 ^ 17
    let len := if n = 0 then 65536 else n
    let ofs := s.reg pTALLY TALLY.RD_OFS % 65536
    let fin (s : State) (code : Nat) : State := (s.setReg pTALLY TALLY.RD_RES (2 ^ 31 + code)).ev pTALLY (blk 4)
    if s.storeSt ≠ tsOPEN then fin s 3
    else if 65536 < len ∨ 65536 < ofs + len then fin s 2
    else
      match (if k < 6 then s.storeBytes k (s.reg pTALLY TALLY.RD_BSEQ) ofs len else none) with
      | none => fin s 1
      | some b => fin (s.setMemBytes (s.reg64 pTALLY TALLY.RD_DST_LO) b) 0

def execStoreRead (w : Writer) (v : Word) (s : State) : Outcome State Fault Refusal :=
  .next (finish w pTALLY (s.actionWrite w pTALLY (fun s => (s.rdCtl v, .ok))))

/-! ## Replication at the peer (R489) -/

/-- A reassembled record is appended with REPLICA = 1 and its source's SRC. -/
def State.appendCopy (s : State) (src c orig : Nat) (b : List Nat) : State :=
  if s.classRefuses c ≠ 0 then s
  else
    let len := ofLE (b.take 4)
    let body := (b.drop 64).take (len - 64)
    let r := s.append c (b.getD 4 0) (ofLE ((b.drop 6).take 2) ||| 8) (ofLE ((b.drop 0x18).take 2))
      (ofLE ((b.drop 0x20).take 8)) (ofLE ((b.drop 0x28).take 4)) body
    match r.2 with
    | none => r.1
    | some q =>
      let x := r.1.store
      r.1.setStore { x with copies := x.copies ++ [(src, c, orig, q)], acks := x.acks ++ [(src, c, orig, q)] }

def execTallyReplRx (src : Fin 4096) (m : ReplPart) (s : State) : Outcome State Fault Refusal :=
  let x := s.store
  match x.copies.find? (fun e => e.1 == src.val && e.2.1 == m.cls && e.2.2.1 == m.orig) with
  | some e =>
    if e.2.2.2 < (CoreX_get x.core m.cls).dur then .next (s.sendReplAck src m.cls m.orig)
    else if x.acks.contains e then .next s
    else .next (s.setStore { x with acks := x.acks ++ [e] })
  | none =>
    let same (p : ReplIn) : Bool := p.src == src.val && p.c == m.cls && p.orig == m.orig
    let old := ((x.parts.find? same).map ReplIn.parts).getD []
    let parts := (old.filter (fun e => !(e.1 == m.frag))) ++ [(m.frag, m.ofs, m.data)]
    let rest := x.parts.filter (fun p => !same p)
    if parts.length < m.nfrag then
      .next (s.setStore { x with parts := rest ++ [{ src := src, c := m.cls, orig := m.orig, nfrag := m.nfrag, parts := parts }] })
    else
      let b := (List.range m.nfrag).flatMap (fun i =>
        ((parts.find? (fun e => e.1 == i)).map (fun e => e.2.2)).getD [])
      .next ((s.setStore { x with parts := rest }).appendCopy src m.cls m.orig b)

/-- The peer's acknowledgement. -/
def execTallyReplAckRx (src : Fin 4096) (c : Fin 6) (orig : Nat) (s : State) : Outcome State Fault Refusal :=
  if src.val ≠ s.get pTALLY TALLY.REPL_CFG_PEER then .next s
  else
    let x := s.store
    .next (s.setStore { x with repl := x.repl.filter (fun r => !(r.c == c.val && r.rseq == orig)) }).setLag

/-- 1 s without the acknowledgement of a record: it is sent again. -/
def execTallyReplResend (c : Fin 6) (rseq : Nat) (s : State) : Outcome State Fault Refusal :=
  match s.store.repl.find? (fun r => r.c == c.val && r.rseq == rseq) with
  | some r => .next (s.sendRec r)
  | none => .next s

/-! ## Registers (R490, R491) -/

/-- The refusal of a commit on TALLY and on NVME[k]. -/
def State.tallyDenied (s : State) : List Nat :=
  holds [
    (s.en pTALLY && (decide (s.stagedGet pTALLY TALLY.CTL_MODE ≠ s.get pTALLY TALLY.CTL_MODE) ||
      decide (s.stagedGet pTALLY TALLY.REPL_CFG_PEER ≠ s.get pTALLY TALLY.REPL_CFG_PEER)), blk 0),
    (decide ((s.stagedWord pTALLY TALLY.POST_BASE_LO).toNat % 32 ≠ 0), blk 1)]
def State.nvmeDenied (s : State) (k : Nat) : List Nat :=
  holds [(s.en pTALLY && decide (s.stagedWord (pNVME k) NVME.NSID ≠ s.word (pNVME k) NVME.NSID), blk 0)]

/-- Registers whose writes act. -/
def State.tallyRegWrite (s : State) (off : Nat) (v : Word) : Option (State × Code) :=
  if off = TALLY.CMD then some (s.tallyCmd v)
  else if off = TALLY.RD_CTL then some (s.rdCtl v, .ok)
  else none
def State.nvmeRegWrite (s : State) (k off : Nat) (v : Word) : Option (State × Code) :=
  if off = NVME.NS_CMD then some (s.nsCmd k v, .ok) else none

end Sys2Proof.Machine
end

