-- ==== Sys2Proof/Machine/Vsm.lean ====
section
/-! DEFINITION. The virtual synchronous machine kernel (spec/10, R255 to R262) and the wake of a
reckoner (R210). -/

namespace Sys2Proof.Machine

open Host (Outcome)

/-- States of the kernel (KSTAT.KSTATE). -/
abbrev ksIDLE : Nat := 0
abbrev ksSYNC : Nat := 1
abbrev ksRUN : Nat := 2
abbrev ksHOLD : Nat := 3

/-- arctan 2⁻ⁱ in 2⁻⁴⁰ turn. -/
def atanTab : List Nat := [137438953472, 81134951838, 42869480287, 21761217566, 10922836750, 5466743129,
  2734038620, 1367102738, 683561799, 341782203, 170891265, 85445653, 42722829, 21361415, 10680707, 5340354,
  2670177, 1335088, 667544, 333772, 166886, 83443, 41722, 20861, 10430, 5215, 2608, 1304, 652, 326, 163, 81, 41, 20,
  10, 5, 3]

/-- The angle of a vector with x ≥ 0, by rotations to the x axis, in 2⁻⁴⁰ turn. -/
def atanRot : List Nat → Nat → Int → Int → Int
  | [], _, _, _ => 0
  | a :: l, i, x, y =>
    if 0 ≤ y then (a : Int) + atanRot l (i + 1) (x + y / 2 ^ i) (y - x / 2 ^ i)
    else -(a : Int) + atanRot l (i + 1) (x - y / 2 ^ i) (y + x / 2 ^ i)

/-- The angle of (x, y) in 2⁻³² turn, rounded down from a value within 2⁻³⁵ turn of it. -/
def angleOf (x y : Nat) : Nat :=
  let xi := fScaled x
  let yi := fScaled y
  let r := if 0 ≤ xi then atanRot atanTab 0 (xi * 2 ^ 60) (yi * 2 ^ 60)
    else 2 ^ 39 + atanRot atanTab 0 (-xi * 2 ^ 60) (-yi * 2 ^ 60)
  (r / 256 % 2 ^ 32).toNat

/-- The angle of (x, y) within 2⁻¹⁶ turn, as a free choice (R259); of (0, 0) any angle. -/
def State.angleFree (s : State) (x y : Nat) : Nat × State :=
  let f := s.free
  if isZero x && isZero y then f
  else (((angleOf x y + 2 ^ 32 + f.1 % 131071 - 65535) % 2 ^ 32), f.2)

/-- The kernel's parameters by name (R256): KCTL and 0x104 to 0x140 in order. -/
structure VsmP where
  kdiv : Nat
  dampRef : Bool
  exc : Bool
  g : Nat → Nat

/-- The register words the kernel reads (R256). -/
def State.vsmRead (s : State) (n : Nat) : List Nat :=
  (List.range 17).map (fun i => s.lp n (LOOP.KCTL + 4 * i))

/-- The parameters of a set of words. -/
def vsmPar (l : List Nat) : VsmP :=
  let c := l.getD 0 0
  let d := bitsOf c 20 16
  ⟨if d = 0 then 1 else min d 16, c.testBit 1, c.testBit 0, fun i => l.getD (i + 1) 0⟩

/-- Parameters by index: the order of spec/10. -/
abbrev vpS : Nat := 0
abbrev vpV : Nat := 1
abbrev vpF : Nat := 2
abbrev vpH : Nat := 3
abbrev vpDAMP : Nat := 4
abbrev vpKQ : Nat := 5
abbrev vpVSET : Nat := 6
abbrev vpR : Nat := 7
abbrev vpX : Nat := 8
abbrev vpILIM : Nat := 9
abbrev vpEMIN : Nat := 10
abbrev vpEMAX : Nat := 11
abbrev vpEKP : Nat := 12
abbrev vpEKI : Nat := 13
abbrev vpPKP : Nat := 14
abbrev vpPKI : Nat := 15

/-- Whether a set of parameters lies in the ranges of R256. -/
def vsmValid (l : List Nat) : Bool :=
  let g (i : Nat) : Nat := l.getD (i + 1) 0
  let rng (i lo hi : Nat) : Bool := fle lo (g i) && fle (g i) hi
  fLt 0 (g vpS) && fLt 0 (g vpV) && rng vpF 0x42340000 0x42820000 &&
  rng vpH 0x3DCCCCCD 0x41A00000 && rng vpDAMP 0 0x43480000 && rng vpKQ 0 fOne &&
  rng vpVSET fHalf 0x3F99999A && fle 0 (g vpR) && fle 0 (g vpX) &&
  fle 0x38D1B717 (fadd (fmul (g vpR) (g vpR)) (fmul (g vpX) (g vpX))) &&
  rng vpILIM fOne f1p5 && fle 0 (g vpEMIN) && fLt (g vpEMIN) (g vpEMAX) && fle (g vpEMAX) f1p5 &&
  fle 0 (g vpEKP) && fle 0 (g vpEKI) && fle 0 (g vpPKP) && fle 0 (g vpPKI)

/-- The kernel reads its parameters when PG_GEN has changed (R256). -/
def State.vsmLoad (s : State) (k : Nat) : State :=
  let v := s.vsm k
  let gen := s.lp k PG.GEN
  if v.genSeen = some gen then s
  else
    let l := s.vsmRead k
    if vsmValid l then
      let s := s.setVsm k { v with genSeen := some gen, pars := some l, bad := false }
      (s.plainWrite (.reck (Fin.ofNat 32 k)) (pLOOP k) LOOP.K_GEN (wordOf gen)).1
    else s.setVsm k { v with genSeen := some gen, bad := true }

/-- The next state of the kernel (R258). -/
def vsmNext (v : VsmX) (rod step : Nat) (syncOk : Bool) : Nat :=
  if rod = stOFF ∨ rod = stPRECHARGE ∨ rod = stGATESOFF ∨ rod = stDISCHARGE ∨ rod = stFAULT ∨
      (rod = stREADY ∧ step ≠ spENERGISE) ∨ v.pars = none then ksIDLE
  else if v.st = ksIDLE then (if rod = stREADY ∨ rod = stRUN then ksSYNC else ksIDLE)
  else if v.st = ksSYNC then (if rod = stRUN ∧ syncOk then ksRUN else ksSYNC)
  else if v.st = ksRUN ∧ rod = stDESCENT then ksHOLD
  else v.st

/-- Angle turned in a time at a frequency in Hz, in 2⁻³² turn. -/
def turnHz (f dt : Nat) : Int := fToInt 60 (fmul (fmul f dt) f2p32)

/-- DRAM word of the excitation block (R260). -/
abbrev excBlock : Nat := 16640

/-- One step of the excitation block (R240, R260): its settings are written, PIDF runs; the output. -/
def State.vsmExc (s : State) (k mode : Nat) (p : VsmP) (r y uman dt : Nat) : Nat × State :=
  let st (i : Nat) : Nat := s.reckWord k (excBlock + i)
  let b := [p.g vpEKP, fmul (p.g vpEKI) dt, 0, 0, p.g vpEMIN, p.g vpEMAX, uman, mode,
    st 8, st 9, st 10, st 11]
  let o := pidf b r y
  let l := o.2.1.getD b
  (o.1, l.zipIdx.foldl (fun (s : State) (e : Nat × Nat) => s.setReckWord k (excBlock + e.2) e.1) s)

/-- The current reference of R261 in pu: i_d, i_q, the power of the unlimited reference, and whether
the limit acts. -/
def vsmRef (p : VsmP) (e vd vq om : Nat) : (Nat × Nat) × Nat × Bool :=
  let x := fmul (p.g vpX) om
  let r := p.g vpR
  let a := fsub e vd
  let b := fneg vq
  let zz := fadd (fmul r r) (fmul x x)
  let id := fdiv (fadd (fmul a r) (fmul b x)) zz
  let iq := fdiv (fsub (fmul b r) (fmul a x)) zz
  let pu := fadd (fmul vd id) (fmul vq iq)
  let m := hypotF id iq
  let lim := fLt (p.g vpILIM) m
  ((if lim then (fdiv (fmul id (p.g vpILIM)) m, fdiv (fmul iq (p.g vpILIM)) m) else (id, iq)), pu, lim)

/-- The kernel's writes at the end of a step (R262), as reckoner `k`. -/
def State.vsmWrite (s : State) (k : Nat) (iref : Nat × Nat) (om : Nat) (fgrid : Nat) (fl il el : Bool)
    (ok : Bool) : State :=
  let w : Writer := .reck (Fin.ofNat 32 k)
  let v := s.vsm k
  let put (s : State) (off x : Nat) : State :=
    (s.actionWrite w (pLOOP k) (fun s =>
      (s.loopRegWrite k off (wordOf x)).getD (s.setReg (pLOOP k) off x, .ok))).1
  let s := put (put s LOOP.IREF_D iref.1) LOOP.IREF_Q iref.2
  let s := put (put (put s LOOP.THETA_NS (s.reckX k).tns) LOOP.OMEGA om) LOOP.THETA v.theta
  let s := put (put (put s LOOP.K_OMEGA v.omV) LOOP.K_FGRID fgrid) LOOP.K_E v.e
  put s LOOP.KSTAT (2 ^ 24 + 512 * b2n v.bad + 256 * b2n fl + 128 * b2n el + 64 * b2n il +
    32 * b2n v.noSync + 16 * b2n ok + v.st)

/-- An acting step of the kernel (R256 to R262); `cnt` wakes since the last one. -/
def State.vsmAct (s : State) (k cnt : Nat) : State :=
  let s := s.vsmLoad k
  let v := s.vsm k
  let x := s.reckX k
  let now := (x.tsec * 1000000000 + x.tns) * 256
  match v.pars with
  | none =>
    let f := s.frees 2
    let s := f.2.setReckWord k (excBlock + 7) 3
    let s := s.setVsm k { v with
      st := ksIDLE, wakes := 0, theta := f.1.getD 0 0, omV := fOne, thPll := 0, omPll := fOne
      xPll := 0, okSince := none, noSync := false, limPu := none }
    s.vsmWrite k (0, 0) (f.1.getD 1 0) 0 false false false false
  | some l =>
    let p := vsmPar l
    let fn := p.g vpF
    let vbp := fmul (p.g vpV) 0x3F5105EC
    let ibp := fdiv (p.g vpS) (fmul f1p5 vbp)
    let vd := fdiv (s.lp k LOOP.VD) vbp
    let vq := fdiv (s.lp k LOOP.VQ) vbp
    let vm := hypotF vd vq
    let pm := fdiv (s.lp k LOOP.PMEAS) (p.g vpS)
    let qm := fdiv (s.lp k LOOP.QMEAS) (p.g vpS)
    let pSet := fdiv (fmul (fOfZ (s.regS (pLOOP k) LOOP.PSET)) 0x42C80000) (p.g vpS)
    let qSet := fdiv (fmul (fOfZ (s.regS (pLOOP k) LOOP.QSET)) 0x42C80000) (p.g vpS)
    let dt := secF ((cnt * (s.gen (s.genOf k)).period * 40 : Nat) : Int)
    let lo := fdiv 0x42340000 fn
    let hi := fdiv 0x42820000 fn
    let idle := decide (v.st = ksIDLE)
    -- the PLL (R259); it runs in SYNC, RUN_VSM and HOLD
    let (sc, s) := s.trig (angAdd v.theta (-(v.thPll : Int)))
    let vqr := fadd (fmul vd sc.1) (fmul vq sc.2)
    let err := if fLt vm 0x3DCCCCCD then 0 else fdiv vqr vm
    let omP := if idle then fOne else fClamp (fadd (fadd fOne (fmul (p.g vpPKP) err)) v.xPll) lo hi
    let xP := if idle then 0 else fadd v.xPll (fmul (fmul (p.g vpPKI) dt) err)
    let thP := angAdd v.thPll (turnHz (fmul omP fn) dt)
    let good := !idle && fle fHalf vm && fle (fabs err) 0x3CA3D70A
    let since := if good then some (v.okSince.getD now) else none
    let ok := match since with
      | some t => decide (t + 5 * unitsMs ≤ now)
      | none => false
    let rod := s.rodSt k
    let st := vsmNext v rod (s.rodStep k) ok
    -- the excitation (R260)
    let vref := fsub (p.g vpVSET) (fmul (p.g vpKQ) (fsub qm qSet))
    let mode := if st = ksIDLE then 3 else if st = ksRUN then 0 else 1
    let (eo, s) := s.vsmExc k mode p vref vm (if st = ksHOLD then v.e else vm) dt
    let e := if st = ksHOLD then v.e else if p.exc then eo
      else fClamp vref (p.g vpEMIN) (p.g vpEMAX)
    -- the swing equation (R260)
    let omRef := if p.dampRef then omP else fOne
    let pe := v.limPu.getD pm
    let acc := fsub (fsub pSet pe) (fmul (p.g vpDAMP) (fsub v.omV omRef))
    let om := if st = ksIDLE then fOne
      else if st = ksSYNC then omP
      else if st = ksRUN then
        (if v.st = ksRUN then
          fClamp (fadd v.omV (fmul (fdiv dt (fmul fTwo (p.g vpH))) acc)) lo hi
        else omP)
      else v.omV
    let adv := angAdd v.theta (turnHz (fmul om fn) dt)
    let (al, s) := if st = ksSYNC && idle then s.angleFree vd vq else (0, s)
    let th := if st = ksSYNC then (if idle then angAdd adv al else thP) else adv
    let r := vsmRef p e vd vq om
    let act := decide (st = ksRUN ∨ st = ksHOLD)
    let il := act && r.2.2
    let s := s.setVsm k { v with
      st := st, wakes := 0, theta := th, omV := om, e := e
      thPll := if st = ksIDLE then 0 else if st = ksSYNC then th else thP
      omPll := if st = ksIDLE then fOne else omP, xPll := if st = ksIDLE then 0 else xP
      okSince := if st = ksIDLE then none else since
      noSync := if st = ksIDLE ∨ (st = ksRUN ∧ v.st ≠ ksRUN) then false
        else v.noSync || decide (v.st = ksSYNC ∧ rod = stRUN ∧ st = ksSYNC)
      limPu := if il then some r.2.1 else none }
    let omega := enc 32 (fToInt 40 (fdiv (fmul (fmul om fn) f2p32) fE6))
    let iref := if act then (fmul r.1.1 ibp, fmul r.1.2 ibp) else (0, 0)
    s.vsmWrite k iref omega (fmul (if st = ksIDLE then fOne else omP) fn)
      (decide (st ≠ ksIDLE) && (fEq om lo || fEq om hi)) il
      (fEq e (p.g vpEMIN) || fEq e (p.g vpEMAX)) (decide (st ≠ ksIDLE) && ok)

/-- The kernel after a wake that took `cnt` events: it acts at every KDIV-th (R255), then waits again. -/
def State.vsmWake (s : State) (k cnt : Nat) : State :=
  let v := s.vsm k
  let kdiv := (v.pars.map (fun l => (vsmPar l).kdiv)).getD 1
  let w := v.wakes + cnt
  let s := if kdiv ≤ w then s.vsmAct k w else s.setVsm k { v with wakes := w }
  let s := s.busyEnd k
  (s.setReckX k { s.reckX k with mask := 1, woke := false, pc := (s.reckX k).pc - 4 }).setRkSt k rkSLEEP

/-- A sleeping reckoner wakes on a pending source of its mask (R210). -/
def execReckWake (k : Fin 32) (s : State) : Outcome State Fault Refusal :=
  if s.rkSt k = rkSLEEP then
    match (s.reckX k).pendIn (s.reckX k).mask with
    | some i =>
      let c := (s.reckX k).pend.getD i 0
      let s := s.waitTake k i
      .next (if (s.vsm k).runs then (if s.bist.fatals.contains k.val then s.lbistFatal k else s.vsmWake k c) else s)
    | none => .next s
  else .next s

end Sys2Proof.Machine
end

