-- ==== Sys2Proof/Machine/ResetCore.lean ====
section
/-! DEFINITION. The reset of power domains (spec/22, R535 to R537, R573 to R575), their rest and their return
(R55, R521, R522). -/

namespace Sys2Proof.Machine

/-- Store the records of the processors, the supply manager, the self-test and the boot. -/
def State.setProc (s : State) (x : ProcX) : State := { s with proc := x }
def State.setSup (s : State) (x : SupX) : State := { s with sup := x }
def State.setBist (s : State) (x : BistX) : State := { s with bist := x }
def State.setBoot (s : State) (x : BootX) : State := { s with boot := x }

/-- An entry of the event area (R554): T, KIND, and the bytes from 0x0C. -/
def evtPayload (t kind : Nat) (l : List Nat) : List Nat :=
  let b := leBytes 8 t ++ [kind, 0, 0, 0] ++ l
  (b ++ List.replicate (32 - b.length) 0).take 32

/-- The AON counter (R533). -/
def State.aonCnt (s : State) : Nat := s.reg64 pAON AON.CNT_LO

/-- The registers and page records of a domain return to their reset values (R7); words that `keep` names stay. -/
def State.clearPages (s : State) (d : Dom) (keep : Nat → Bool) : State :=
  { s with
    board := tabKeep (fun k => !decide (accDom (k / 4096) = d) || keep k) s.board
    pages := tabKeep (fun p => !decide (accDom p = d)) s.pages
    shadows := tabKeep (fun k => !decide (accDom (k / 4096) = d)) s.shadows
    waits := s.waits.filter (fun a => !decide (accDom a.page = d)) }

/-- The steppers and the bus controllers of field die `k`. -/
def dieEight (k : Nat) : List Nat := (List.range 8).map (8 * k + ·)

/-- Every gate link of a die goes OFF (R137, R574). -/
def State.dieLinksOff (s : State) (k : Nat) : State :=
  (dieRods k).foldl (fun (s : State) n => (List.range 12).foldl (fun (s : State) p => s.enterLinkOff n p) s) s

/-- The enabled links of a die train (R135, R137). -/
def State.dieLinksOn (s : State) (k : Nat) : State :=
  (dieRods k).foldl (fun (s : State) n => (List.range 12).foldl (fun (s : State) p =>
    if s.linkEn n p ∧ s.linkSt n p = lkOFF then s.enterTrain n p else s) s) s

/-- Every command output of a die's rods goes inactive (R154). -/
def State.dieOutsOff (s : State) (k : Nat) : State :=
  (dieRods k).foldl (fun (s : State) n => (((s.setCont n false).setPrech n false).setDisch n false).setBrk n false) s

/-- A reset of field die `k` (R513, R535): its rods are in OFF with every command output inactive, its links
OFF, its steppers released; every page of the die returns to its reset values.  With `bus`, the bus controllers
stay with their watches, which the AON island runs in DEEP (R332). -/
def State.resetFd (s : State) (k : Nat) (bus : Bool) : State :=
  let s := s.dieOutsOff k
  let s := (dieEight k).foldl (fun (s : State) n => s.setStepOut n .released) s
  let s := s.dieLinksOff k
  let s := s.clearPages (.fd k) (fun w => bus && decide (pageType (w / 4096) = some .mbus))
  { s with
    rods := tabKeep (fun n => n / 6 != k) s.rods
    links := tabKeep (fun l => l / 72 != k) s.links
    loops := tabKeep (fun n => n / 6 != k) s.loops
    steppers := tabKeep (fun n => n / 8 != k) s.steppers
    pcnts := tabKeep (fun n => n / 4 != k) s.pcnts
    convs := tabKeep (fun c => c / 12 != k) s.convs
    digs := tabKeep (fun d => d / 2 != k) s.digs
    caps := tabKeep (fun d => d != k) s.caps
    mbus := tabKeep (fun n => bus || n / 8 != k) s.mbus
    bist := { s.bist with
      miss := s.bist.miss.filter (fun e => e.1 / 12 != k)
      info := s.bist.info.filter (fun e => e.1 != 0x44 + k && e.1 != 0x48 + k) } }

/-- A reset of the FAB domain: every link DOWN (R441). -/
def State.resetFab (s : State) : State :=
  let s := (List.range 4).foldl (fun (s : State) l => s.linkDown l) s
  { s.clearPages .fab (fun _ => false) with flinks := [], router := {} }

/-- Words of RD pages that a reset of the domain keeps: PROF.NEXT (R552), the copies of the test times that the
AON island holds (R413). -/
def keepRd (k : Nat) : Bool :=
  k == bkey pPROF PROF.NEXT ||
    (k / 4096 == pSAFE && (List.range 24).any (fun r => k % 4096 == SAFE.MON_STAT r))

/-- Start of the CF region that holds an offset (R540). -/
def cfRegion (a : Nat) : Nat :=
  if a < 0x00100000 then 0
  else if a < 0x08100000 then 0x00100000
  else if a < 0x0A100000 then 0x08100000 + (a - 0x08100000) / 0x400000 * 0x400000
  else if a < 0x0A150000 then 0x0A100000
  else 0x0A150000

/-- Pending sets of rods whose generator has stopped apply at once (R111). -/
def State.applyStopped (s : State) : State :=
  allRods.foldl (fun (s : State) n =>
    if s.genRunning (s.genOf n) then s
    else
      let s := if (s.pg (pROD n)).applyPending then (s.applyCommit (pROD n)).rodApplied n else s
      if (s.pg (pLOOP n)).applyPending then s.loopApplied (s.applyCommit (pLOOP n)) n else s) s

/-- A reset of the RD domain (R402, R535, R537) beside its place in the boot: sessions close, leases of local
processors and sessions end, the pages and the records of the domain return to their reset values, the die-to-die
crossings reset and take every gate link OFF, the beam restarts in FREE.  A command that the crypto engine runs is
lost; an operation of the CF engine leaves its region unknown (R541). -/
def State.resetRd (s : State) : State :=
  let s0 := s
  let boot := s.get pBEADS BEADS.DEV_STAT_BOOT
  let dbg := s.reg pDBG DBG.STAT
  let s := s.closeAll 8
  let s := (s.pages.map Prod.fst).foldl (fun (s : State) p =>
    match (s.pg p).lease with
    | some l => match l.owner with
      | .remote _ => s
      | _ => s.endLease p
    | none => s) s
  let mon := (List.range 24).map (fun r => s.reg pSAFE (SAFE.MON_STAT r))
  let s := s.clearPages .rd keepRd
  let s := mon.zipIdx.foldl (fun (s : State) (e : Nat × Nat) =>
    s.setReg pSAFE (SAFE.MON_STAT e.2) (e.1 / 2 ^ 16 * 2 ^ 16 + (e.1 &&&
      maskOf [(SAFE.MON_STAT_TEST_DUE e.2).lo, (SAFE.MON_STAT_TEST_OK e.2).lo]))) s
  let s := s.setReg pDBG DBG.STAT (dbg &&& (2 ^ 16 + 31))
  let s := { s with
    beam := {}, gens := [], cells := [], modReps := [], tallies := [], cea := {}, eis := []
    sensors := [], crossings := [], sess := [], gate := {}, eths := [], recks := [], vsms := [], reckMem := []
    common := [], hwPosts := [], keys := { s.keys with cmd := none }, proc := {}
    store := { s.store with round := none, again := false, wait := [], repl := [], parts := [], acks := [], nsOp := [0, 0] }
    bist := { fuses := s.bist.fuses, info := s.bist.info.filter (fun e => 0x44 ≤ e.1) }
    boot := { due := true, low := s.boot.low, testEn := s.boot.testEn, spoiled := match s.boot.op with
      | some o => if s.boot.spoiled.contains (cfRegion o.2.1) then s.boot.spoiled else s.boot.spoiled ++ [cfRegion o.2.1]
      | none => s.boot.spoiled }
    pairMem := [] }
  let s := s.safeRestart.beadsReset boot
  let s := (List.range 4).foldl (fun (s : State) k => s.dieLinksOff k) s
  (lockCheck s0 s).applyStopped

/-- A reset of a list of domains (R535).  A reset of the RD domain counts a boot, records its cause and the
domains (RST_CAUSE), and posts a RESET entry to the event area; boot is due (R537). -/
def State.resetDoms (s : State) (cause : Nat) (ds : List Dom) : State :=
  let s := (List.range 4).foldl (fun (s : State) k => if ds.contains (.fd k) then s.resetFd k false else s) s
  let rd := ds.contains .rd
  let s := if rd then s.resetRd else s
  let s := if ds.contains .fab then s.resetFab else s
  if rd then
    let s := s.setReg pSYS SYS.RST_CAUSE (maskOf (ds.map Dom.idx) * 2 ^ 16 + cause)
    let s := s.incFW pSYS ⟨SYS.BOOT_CNT, 31, 16⟩
    let s := (s.setReg pSYS SYS.BOOT_STAT 0).degradeEnd
    s.evtPost (evtPayload s.aonCnt 1 (leBytes 4 (s.reg pSYS SYS.RST_CAUSE)))
  else s

/-- Domain sets of R535. -/
def domsDevice : List Dom := [.fab, .rd, .ddr, .fd 0, .fd 1, .fd 2, .fd 3]
def domsProfile : List Dom := [.rd, .ddr, .fd 0, .fd 1, .fd 2, .fd 3]
def domsRd : List Dom := [.rd, .ddr]

/-- The device returns to RUN after a reset that R535 so describes; PLLs that were off lock again. -/
def State.toRun (s : State) : State :=
  let s := domsDevice.foldl (fun (s : State) d => s.setDom d .active) s
  let s := if s.dev = dvRUN then s else (s.set pREST REST.STAT_STATE dvRUN).ev pREST (blk 0)
  let s := ((s.set pREST REST.STAT_PENDING 0).set pREST REST.STAT_ENTERING 0).set pREST REST.STAT_WAKING 0
  (s.setRest {}).pllLock

/-! ## Rest and return of a domain (R55, R521, R522) -/

/-- What the blocks of a domain do when it rests. -/
def State.domRest (s : State) (d : Dom) : State :=
  let s := (s.setDom d .draining)
  let s := match d with
    | .fd k =>
      let s := (s.dieLinksOff k).dieOutsOff k
      let s := (dieEight k).foldl (fun (s : State) n => (s.mbusRest n).stepRest n) s
      (List.range 4).foldl (fun (s : State) i => s.cntRest (4 * k + i)) s
    | .rd =>
      let s := (List.range 32).foldl (fun (s : State) k => s.reckRest k) s
      let s := (allGens.foldl (fun (s : State) g => s.stopGen g) s).applyStopped
      ((s.set pSAFE SAFE.STAT_KERNEL 0).set pSPAIR SPAIR.STAT_KERNEL_RUN 0).driveOuts
    | .ddr => if s.get pAPC APC.DDR_STAT_STATE = 2 then s.set pAPC APC.DDR_STAT_STATE 3 else s
    | _ => s
  s.setDom d .resting

/-- What the blocks of a domain do when it is active again. -/
def State.domActive (s : State) (d : Dom) : State :=
  let s := s.setDom d .active
  match d with
  | .fd k =>
    let s := s.dieLinksOn k
    let s := (dieEight k).foldl (fun (s : State) n => s.mbusDieActive n) s
    (List.range 4).foldl (fun (s : State) i => s.cntWake (4 * k + i)) s
  | .rd => s.agentReturn.ethWake
  | .ddr => if s.get pAPC APC.DDR_STAT_STATE = 3 then s.set pAPC APC.DDR_STAT_STATE 2 else s
  | _ => s

/-- The RD domain runs again in QUIET or RUN (R85, R214): reckoners restart, generators return to their grids. -/
def State.rdResume (s : State) : State :=
  let s := (List.range 32).foldl (fun (s : State) k => s.reckUnrest k) s
  allGens.foldl (fun (s : State) g =>
    if s.flag pFRAME (FRAME.CG_CTL_EN g) && !s.genRunning g then s.tryStartGen g else s) s

end Sys2Proof.Machine
end

