-- ==== Sys2Proof/Machine/Proc.lean ====
section
/-! DEFINITION. Processors and debug (spec/20): memory errors, the timer, the APC watchdog, the scrubber, the JTAG
port and the debugger's access. -/

namespace Sys2Proof.Machine

open Host (Outcome)

/-! ## Status (R508) -/

/-- APC.STAT from the harts' states and the LPDDR5. -/
def State.showApc (s : State) : State :=
  let x := s.proc
  let halted := s.get pAPC APC.STAT_HALTED
  let s := s.set pAPC APC.STAT_WFI x.wfi
  let s := s.set pAPC APC.STAT_RUNNING (maskOf ((List.range 4).filter (fun h =>
    x.released.testBit h && !x.wfi.testBit h && !halted.testBit h)))
  s.setB pAPC APC.STAT_DDR_READY (decide (s.get pAPC APC.DDR_STAT_STATE = 2))

/-- MTIME (R498): 25 MHz, from units of 2.5 ns. -/
def State.mtime (s : State) : Nat := s.proc.mt / 16 % 2 ^ 64

/-- MTIMECMP of a hart. -/
def State.mtimecmp (s : State) (h : Nat) : Nat := s.reg64 pAPC (APC.MTIMECMP_LO h)

/-- Computed APC registers; WDT_KICK reads 0. -/
def State.apcReg (s : State) (off : Nat) : Option Nat :=
  if off = APC.MTIME_LO then some (s.mtime % 2 ^ 32)
  else if off = APC.MTIME_HI then some (s.mtime / 2 ^ 32)
  else if off = APC.WDT_KICK then some 0
  else none

/-- A hart wakes from WFI with an interrupt pending (R498, R500). -/
def State.hartWake (s : State) (h : Nat) : State :=
  if s.proc.wfi.testBit h ∧ s.dom .rd = .active then
    (s.setProc { s.proc with wfi := s.proc.wfi ^^^ 2 ^ h }).showApc
  else s

/-- An interrupt becomes pending at a hart, which leaves WFI (R498, R500). -/
def State.hartIrq (s : State) (h code : Nat) : State := (s.send (.hartIrq h code)).hartWake h

/-- The external interrupt that EXT_CFG gives a hart (R498): machine or supervisor. -/
def State.extCode (s : State) (h : Nat) : Nat := if s.bit pAPC APC.EXT_CFG h then 9 else 11

/-- A write of MSIP (R498): the software interrupt of a hart. -/
def State.msipWrite (s : State) (h : Nat) (b : Bool) : State :=
  let s := s.setReg pAPC (APC.MSIP h) (b2n b)
  if b then s.hartIrq h 3 else s

/-- MTIME reaches MTIMECMP of a hart. -/
def execTimerInterrupt (h : Fin 4) (s : State) : Outcome State Fault Refusal :=
  .next (if s.dev = dvDEEP then s
    else
      let s := s.setProc { s.proc with mt := max s.proc.mt (16 * s.mtimecmp h) }
      s.hartIrq h 7)

/-- CTL.HART_EN: harts 1 to 3 leave their boot hold at ENTRY (R508, R549). -/
def State.hartRelease (s : State) (en : Nat) : State :=
  let new := (bitsSet 4 en).filter (fun h => !s.proc.released.testBit h)
  let s := s.setReg pAPC APC.CTL (en % 16 ||| 1)
  let s := (s.setProc { s.proc with released := s.proc.released ||| en % 16 }).showApc
  new.foldl (fun (s : State) h => s.send (.hartStart h (s.reg64 pAPC APC.ENTRY_LO))) s

def execHartRelease (w : Writer) (en : Fin 16) (s : State) : Outcome State Fault Refusal :=
  .next (finish w pAPC (s.actionWrite w pAPC (fun s => (s.hartRelease en, .ok))))

/-! ## Memory errors (R496) -/

/-- A corrected error: of LPDDR5, else of the L2. -/
def State.apcCorrected (s : State) (ddr : Bool) (addr : Nat) : State :=
  let c := if ddr then APC.DDR_ECC_CNT else APC.L2_ECC_CNT
  let s := s.incF pAPC ⟨c, 15, 0⟩
  (s.setReg64 pAPC (if ddr then APC.DDR_ECC_ADDR_LO else APC.L2_ECC_ADDR_LO) addr).ev pAPC (blk 0)

/-- Injection point 0 of APC at a read through the L2. -/
def State.l2Read (s : State) (addr : Nat) : State :=
  let (inj, s) := s.injTake pAPC 0
  if inj then s.apcCorrected false addr else s

/-- A double-bit error: seen by a load or fetch of a hart, or at an eviction, which poisons the line. -/
def State.apcDouble (s : State) (ddr : Bool) (addr : Nat) (hart : Option Nat) : State :=
  let c := if ddr then APC.DDR_ECC_CNT else APC.L2_ECC_CNT
  let s := s.incF pAPC ⟨c, 31, 16⟩
  let s := s.setReg64 pAPC (if ddr then APC.DDR_ECC_ADDR_LO else APC.L2_ECC_ADDR_LO) addr
  let s := (s.err pAPC (blk 0)).ev pAPC (blk 0)
  match hart with
  | some h => s.send (.memFault h addr)
  | none =>
    let l := addr / 64
    if s.proc.poison.contains l then s else s.setProc { s.proc with poison := s.proc.poison ++ [l] }

def execEccDoubleError (ddr : Bool) (addr : Fin 1099511627776) (hart : Option (Fin 4)) (s : State) :
    Outcome State Fault Refusal := .next (s.apcDouble ddr addr (hart.map Fin.val))

/-- The scrubber completes a pass (R502). -/
def execScrubPass (e : Ecc) (addr : Fin 131072) (pc : Word) (s : State) : Outcome State Fault Refusal :=
  .next (s.pairEcc e addr pc.toNat)

/-! ## Watchdog (R499) -/

/-- PERIOD of the watchdog. -/
def State.wdtPeriod (s : State) : Nat :=
  let p := s.get pAPC APC.WDT_CFG_PERIOD
  if p = 0 then 1000 else p

/-- WDT_REMAIN returns to PERIOD. -/
def State.wdtReload (s : State) : State :=
  (s.setReg pAPC APC.WDT_REMAIN s.wdtPeriod).setProc { s.proc with wdtSub := 0 }

/-- A write of WDT_CFG (R615): EN is set by a 1 and stays; arming loads the count. -/
def State.wdtCfg (s : State) (v : Nat) : State :=
  let was := s.flag pAPC APC.WDT_CFG_EN
  let s := s.set pAPC APC.WDT_CFG_PERIOD (v % 2 ^ 16)
  if v.testBit 31 ∧ !was then (s.set pAPC APC.WDT_CFG_EN 1).wdtReload else s

def execWdtArm (w : Writer) (period : Fin 65536) (s : State) : Outcome State Fault Refusal :=
  .next (finish w pAPC (s.actionWrite w pAPC (fun s => (s.wdtCfg (2 ^ 31 + period.val), .ok))))

/-- A write of WDT_KICK. -/
def State.wdtKick (s : State) (v : Nat) : State :=
  if v = 0x0000A5C3 then (if s.flag pAPC APC.WDT_CFG_EN then s.wdtReload else s) else s.err pAPC (blk 1)

def execWdtKick (w : Writer) (v : Word) (s : State) : Outcome State Fault Refusal :=
  .next (finish w pAPC (s.actionWrite w pAPC (fun s => (s.wdtKick v.toNat, .ok))))

/-- Whether the count runs: armed, not in REST, no hart halted. -/
def State.wdtRuns (s : State) : Bool :=
  s.flag pAPC APC.WDT_CFG_EN && decide (s.dev ≤ dvQUIET) && decide (s.get pAPC APC.STAT_HALTED = 0)

/-- Half of PERIOD remains. -/
def State.wdtHalf (s : State) : State :=
  (s.setReg pAPC APC.WDT_REMAIN (s.wdtPeriod / 2)).ev pAPC (blk 1)

/-- The watchdog reset of the RD domain (cause 3). -/
def State.wdtExpire (s : State) : State := s.resetDoms 3 domsRd

def execWdtHalf (s : State) : Outcome State Fault Refusal := .next (if s.wdtRuns then s.wdtHalf else s)

def execWdtExpire (s : State) : Outcome State Fault Refusal := .next (if s.wdtRuns then s.wdtExpire else s)

/-- 2.5 ns of the main crystal: MTIME and the watchdog. -/
def State.procTick (s : State) : State :=
  if s.dev = dvDEEP then s
  else
    let s := s.setProc { s.proc with mt := s.proc.mt + 1 }
    if !s.wdtRuns then s
    else if s.proc.wdtSub + 1 < 400000 then s.setProc { s.proc with wdtSub := s.proc.wdtSub + 1 }
    else
      let s := s.setProc { s.proc with wdtSub := 0 }
      let r := s.reg pAPC APC.WDT_REMAIN - 1
      let s := s.setReg pAPC APC.WDT_REMAIN r
      if r = 0 then s.wdtExpire else if r = s.wdtPeriod / 2 then s.wdtHalf else s

/-! ## JTAG (R504 to R506) -/

/-- Whether the life-cycle state lets an instruction be taken (R505): the debug transport always, the accesses it makes
being refused one by one. -/
def State.scanOpen (s : State) (code : Nat) : Bool :=
  let l := s.lifeSt
  if code = 0x10 ∨ code = 0x11 then true
  else if l = 2 then [1, 2, 0x1F].contains code
  else if 4 ≤ l then [1, 0x1F].contains code
  else true

/-- An instruction is selected; a refused one selects BYPASS. -/
def State.tapSelect (s : State) (code : Nat) : State :=
  s.set pDBG ⟨DBG.STAT, 4, 0⟩ (if s.scanOpen code then code else 0x1F)

/-- The device code (R504): S is the low four bits of SYS.ID.STEP. -/
def idcode : Nat := (BitVec.ofNat 4 Config.stepping ++ (0x2410BB9 : BitVec 28)).toNat

def execIdcode (s : State) : Outcome State Fault Refusal := .next ((s.tapSelect 1).send (.tdo 1 idcode))

def execSamplePreload (s : State) : Outcome State Fault Refusal := .next (s.tapSelect 2)

def execBypass (s : State) : Outcome State Fault Refusal := .next (s.tapSelect 0x1F)

/-- What taking an instruction of R506 does in one step. -/
def State.scanTake (s : State) (code : Nat) : State :=
  let ok := s.scanOpen code
  let s := s.tapSelect code
  if !ok then s
  else
    let s := s.setSafe { s.safe with scan := true }
    let s := if s.split then allRods.foldl (fun (s : State) r => s.tripPath r) s
      else
        let s := s.demand 13 0 0 (2 ^ 24 - 1) false true
        let s := s.setSafe { s.safe with pendSgr := 0, pendSpd := 0, pendLatch := 0 }
        allRods.foldl (fun (s : State) r => s.applySgr r true) s
    ((s.driveOuts).set pDBG DBG.STAT_EXT_SCAN 1).ev pDBG (blk 1)

def execExtest (s : State) : Outcome State Fault Refusal := .next (s.scanTake 3)
def execExtestPulse (s : State) : Outcome State Fault Refusal := .next (s.scanTake 4)
def execExtestTrain (s : State) : Outcome State Fault Refusal := .next (s.scanTake 5)
def execClamp (s : State) : Outcome State Fault Refusal := .next (s.scanTake 6)
def execHighz (s : State) : Outcome State Fault Refusal := .next (s.scanTake 7)

/-- Test-Logic-Reset: the demand is no longer present; the instruction is IDCODE, as IEEE 1149.1 has it. -/
def execTapReset (s : State) : Outcome State Fault Refusal :=
  .next (((s.setSafe { s.safe with scan := false }).set pDBG DBG.STAT_EXT_SCAN 0).set pDBG ⟨DBG.STAT, 4, 0⟩ 1)

/-- DTMCS: its register is that of RISC-V External Debug Support 0.13.2, whose timing hints the manual leaves open. -/
def execDtmcs (s : State) : Outcome State Fault Refusal :=
  let f := (s.tapSelect 0x10).free
  .next (f.2.send (.tdo 0x10 f.1))

/-! ## Debug access (R505, R507) -/

/-- Whether the debugger reaches a hart: 0 to 3 of the APC, 4 and 5 of the pair. -/
def State.dbgOpen (s : State) (h : Nat) : Bool :=
  let l := s.lifeSt
  let life := if l = 2 then decide (h < 4) && s.flag pDBG DBG.CTL_APC_OPEN else decide (l < 4)
  life && (decide (h < 5) || s.split)

/-- A refused DMI access. -/
def State.dmiRefused (s : State) (a : Nat) : State :=
  ((s.incSat pDBG DBG.REFUSED).setReg pDBG DBG.LAST_REF (2 ^ 31 + a % 128)).err pDBG (blk 0)

/-- Whether a DMI access is allowed: of the module itself (as of the APC), of a hart, or of the system bus (0x37
to 0x3F of RISC-V External Debug Support 0.13.2). -/
def State.dmiOpen (s : State) (a : Nat) (h : Option Nat) : Bool :=
  s.dbgOpen (h.getD 0) && (decide (a < 0x37 ∨ 0x3F < a) || decide (s.lifeSt ≠ 2))

/-- A DMI access: address, whether a write, data, and the hart it concerns.  dmcontrol [0] is dmactive. -/
def execDmi (a : Fin 128) (wr : Bool) (v : Word) (h : Option (Fin 6)) (s : State) : Outcome State Fault Refusal :=
  let s := s.tapSelect 0x11
  if !s.dmiOpen a (h.map Fin.val) then .next ((s.dmiRefused a).send (.tdo 0x11 0))
  else
    let s := if h = some 4 ∧ !s.split then s.inc pSPAIR SPAIR.REPLAY_CNT else s
    if wr then .next (if a.val = 0x10 then s.setB pDBG DBG.STAT_DM_ACTIVE (v.toNat.testBit 0) else s)
    else
      let f := s.free
      .next (f.2.send (.tdo 0x11 f.1))

/-- The debugger halts a hart. -/
def State.dbgHalt (s : State) (h : Nat) : State :=
  let s := (s.setBit pDBG DBG.STAT (8 + h) true).ev pDBG (blk 0)
  if h < 4 then (s.setBit pAPC APC.STAT (8 + h) true).showApc
  else if h = 4 ∧ !s.split then
    ((s.set pSPAIR SPAIR.STAT_DBG_HALTED 1).set pSPAIR SPAIR.STAT_KERNEL_RUN 0).set pSAFE SAFE.STAT_KERNEL 0
  else s

/-- A halted core resumes; the kernel's next cycle starts it again. -/
def State.dbgResume (s : State) (h : Nat) : State :=
  let s := s.setBit pDBG DBG.STAT (8 + h) false
  if h < 4 then (s.setBit pAPC APC.STAT (8 + h) false).showApc
  else if h = 4 ∧ !s.split then s.set pSPAIR SPAIR.STAT_DBG_HALTED 0
  else s

def execDebugHalt (h : Fin 6) (s : State) : Outcome State Fault Refusal :=
  .next (if s.dbgOpen h then s.dbgHalt h else s.dmiRefused 0x10)

def execDebugResume (h : Fin 6) (s : State) : Outcome State Fault Refusal :=
  .next (if s.dbgOpen h then s.dbgResume h else s.dmiRefused 0x10)

end Sys2Proof.Machine
end

