-- ==== Sys2Proof/Machine/Router.lean ====
section
/-! DEFINITION. The event router (spec/02, R37, R58 to R60). -/

namespace Sys2Proof.Machine

/-- A page's event output (R37). -/
def State.pageActive (s : State) (p : Nat) : Bool := decide (s.reg p PG.EV_STAT &&& s.reg p PG.EV_EN ≠ 0)

/-- The register pages of the page map, ascending. -/
def allPages : List Nat := pageMap.flatMap (fun r => (List.range r.count).map (r.first + ·))

/-- SRC of each enabled line. -/
def State.routedPages (s : State) : List Nat :=
  ((List.range 256).filter (fun n => s.flag pSYS (SYS.EVR_ROUTE_EN n))).map (fun n => s.get pSYS (SYS.EVR_ROUTE_SRC n))

/-- The lowest page with an active event that no enabled line names. -/
def State.unrouted (s : State) : Option Nat :=
  let r := s.routedPages
  allPages.find? (fun p => s.pageActive p && !r.contains p)

/-- EVR_UNROUTED. -/
def State.evrUnrouted (s : State) : Nat :=
  match s.unrouted with
  | some p => 2 ^ 31 + p
  | none => 0

/-- Whether line `n` is pending (R59). -/
def State.linePending (s : State) (n : Nat) : Bool :=
  s.flag pSYS (SYS.EVR_ROUTE_EN n) &&
    (if s.get pSYS (SYS.EVR_ROUTE_SRC n) = 0xFFF then s.unrouted.isSome
      else s.pageActive (s.get pSYS (SYS.EVR_ROUTE_SRC n)))

/-- DST_KIND of a line, 4 to 15 treated as 0. -/
def State.lineKind (s : State) (n : Nat) : Nat :=
  let k := s.get pSYS (SYS.EVR_ROUTE_DST_KIND n)
  if 4 ≤ k then 0 else k

/-- Computed router registers. -/
def State.evrReg (s : State) (off : Nat) : Option Nat :=
  if SYS.EVR_PEND 0 ≤ off ∧ off ≤ SYS.EVR_PEND 7 then
    let m := (off - SYS.EVR_PEND 0) / 4
    some (maskOf ((List.range 32).filter (fun j => s.linePending (32 * m + j))))
  else if off = SYS.EVR_UNROUTED then some s.evrUnrouted
  else none

/-- The harts that a pending line names. -/
def State.eventHarts (s : State) : Nat :=
  (List.range 256).foldl (fun m n =>
    if s.lineKind n = 1 ∧ s.linePending n then m ||| s.get pSYS (SYS.EVR_ROUTE_DST_SEL n) % 16 else m) 0

end Sys2Proof.Machine
end

