-- ==== Sys2Proof/Machine/Supply.lean ====
section
/-! DEFINITION. Supplies, clocks, the auxiliary power path, and the requests and entries of the device states
(spec/21, R510 to R530). -/

namespace Sys2Proof.Machine

open Host (Outcome)

/-! ## Slots (R510, R511) -/

/-- Pin of a slot's enable. -/
def enPin (i : Nat) : String := ["EN0", "EN1", "EN2", "EN3", "EN4", "EN5", "EN6", "EN7"].getD i "EN7"

/-- Domains that a rail feeds. -/
def railDoms (r : Nat) : List Dom :=
  if r = 0 then [.rd, .fab, .ddr]
  else if r = 1 ∨ r = 17 then [.rd]
  else if r < 6 then [.fd (r - 2)]
  else if r < 10 then [.fd (r - 6)]
  else if r = 10 then [.fab]
  else if r < 13 then [.ddr]
  else [.fd (r - 13)]

/-- Domains that a slot's rails feed, each once. -/
def State.slotDoms (s : State) (i : Nat) : List Dom :=
  let ds := (bitsSet 18 (s.reg pSUP (SUP.SLOT_RAILS i))).flatMap railDoms
  domsDevice.filter (fun d => ds.contains d)

/-- Whether a slot's rails need REST_ON = 1 (R522): VDD_RD, VDD_RDM, VDD_SD, VDD2H, VDDQ, a rail of FD0. -/
def restRails : Nat := maskOf [0, 1, 2, 6, 10, 11, 12, 13]

/-- The refusal of a SUP commit (R531). -/
def State.supDenied (s : State) : List Nat :=
  let w (o : Nat) : Nat := (s.stagedWord pSUP o).toNat
  holds [((List.range 8).any (fun i => decide (w (SUP.SLOT_RAILS i) &&& restRails ≠ 0) &&
      !(w (SUP.SLOT_CFG i)).testBit 30) ||
    decide (s.stagedGet pSUP SUP.MON_LIM_LIM_HI ≤ s.stagedGet pSUP SUP.MON_LIM_LIM_LO), blk 0)]

/-- Whether a slot is used on PMBus: named so, the host enabled, the revision recent enough. -/
def State.pmbOn (s : State) (i : Nat) : Bool :=
  s.flag pSUP SUP.PMB_CFG_EN && s.flag pSUP (SUP.SLOT_CFG_PMB i) && !s.sup.old.testBit i

/-- A PMBus command to a slot, if it answers there. -/
def State.pmb (s : State) (i code : Nat) (data : Option Nat) : State :=
  if s.pmbOn i then s.send (.pmbus i code data) else s

/-- Drive a slot's enable high: OPERATION on, VOUT_MODE read, EN (R511, R512). -/
def State.slotOn (s : State) (i : Nat) : State :=
  let s := (s.pmb i 0x01 (some 0x80)).pmb i 0x20 none
  (s.send (.pin (enPin i) true)).set pSUP (SUP.SLOT_STAT_ON i) 1

/-- Drop a slot's enable. -/
def State.slotOff (s : State) (i : Nat) : State :=
  if s.flag pSUP (SUP.SLOT_STAT_ON i) then
    ((s.send (.pin (enPin i) false)).set pSUP (SUP.SLOT_STAT_ON i) 0).set pSUP (SUP.SLOT_STAT_PG i) 0
  else s

/-- A power-down sequence (R511): the slots in descending order. -/
def State.slotsOff (s : State) (l : List Nat) : State := l.reverse.foldl (fun (s : State) i => s.slotOff i) s

/-- The slots with SLOT_CFG.EN = 1. -/
def State.slotsEn (s : State) : List Nat := (List.range 8).filter (fun i => s.flag pSUP (SUP.SLOT_CFG_EN i))

/-- Store the sequence. -/
def State.setSeq (s : State) (q : Option SeqX) : State := s.setSup { s.sup with seq := q }

/-- PMBUS_REVISION of the slots of a sequence: below 0x33, EN and PG only (R512). -/
def State.readRevs (s : State) (l : List Nat) (revs : List Nat) : State :=
  let s := s.setSup { s.sup with old := 0 }
  l.foldl (fun (s : State) i =>
    if !s.pmbOn i then s
    else
      let s := s.pmb i 0x98 none
      if revs.getD i 0 < 0x33 then
        ((s.setSup { s.sup with old := s.sup.old ||| 2 ^ i }).err pSUP (blk 3)).set pSUP (SUP.SLOT_STAT_PMB_OK i) 0
      else s.set pSUP (SUP.SLOT_STAT_PMB_OK i) 1) s

/-- Begin a sequence at the lowest of its slots. -/
def State.seqBegin (s : State) (l : List Nat) (tries : Nat) (alone : Bool) : State :=
  match l with
  | [] => s.setSeq none
  | i :: _ => (s.setSeq (some { slots := l, cur := i, tries := tries, alone := alone })).slotOn i

/-- The slots of a new sequence: those enabled and off. -/
def State.seqSlots (s : State) : List Nat := s.slotsEn.filter (fun i => !s.flag pSUP (SUP.SLOT_STAT_ON i))

/-- A power-up sequence starts; the always-on island runs it from its 16 MHz oscillator (R518). -/
def execPowerUpSequence (revs : List Nat) (s : State) : Outcome State Fault Refusal :=
  .next (if s.sup.seq.isSome then s
    else
      let l := s.seqSlots
      ((s.readRevs l revs).clk CLK.STAT_RC16_ON true).seqBegin l 0 false)

/-- Whether a domain's reset holds for want of supply. -/
def State.supHeld (s : State) (d : Dom) : Bool := s.sup.held.contains d.idx

/-- A sequence ends: the next lost slot has its own (R513). -/
def State.seqNext (s : State) : State :=
  match s.sup.lost with
  | [] => s.setSeq none
  | i :: r => (s.setSup { s.sup with lost := r }).seqBegin [i] 0 true

/-- A sequence succeeds: domains that it feeds leave reset; a latched wake failure ends (R530). -/
def State.seqDone (s : State) (q : SeqX) : State :=
  let ds := q.slots.flatMap (fun i => s.slotDoms i)
  let back := domsDevice.filter (fun d => s.supHeld d && ds.contains d)
  let s := s.setSup { s.sup with held := s.sup.held.filter (fun i => !(back.any (fun d => d.idx == i))) }
  let s := back.foldl (fun (s : State) d => s.setDom d .active) s
  let s := if s.flag pREST REST.STAT_WAKE_FAIL then
      (((s.set pREST REST.STAT_WAKE_FAIL 0).set pREST REST.STAT_FAIL_SEEN 1).set pSYS SYS.PIN_WAKE_FAIL_L 0).send
        (.pin "WAKE_FAIL_L" true)
    else s
  s.seqNext

/-- A slot's PG rises; after its DELAY the sequence moves on. -/
def execPgRise (i : Fin 8) (s : State) : Outcome State Fault Refusal :=
  if !s.flag pSUP (SUP.SLOT_STAT_ON i) then .next s
  else
    let s := s.set pSUP (SUP.SLOT_STAT_PG i) 1
    match s.sup.seq with
    | some q =>
      if q.cur ≠ i ∨ q.failed then .next s
      else
        match q.slots.find? (fun j => decide (i.val < j)) with
        | some j => .next ((s.setSeq (some { q with cur := j })).slotOn j)
        | none => .next (s.seqDone q)
    | none => .next s

/-- Enter DEEP (R524, R530): sessions close, links go DOWN, every domain but AON loses power, the slots go down, the
PLLs and the crystals but 32.768 kHz stop. -/
def State.deepState (s : State) : State :=
  let s := s.closeAll 8
  let s := (List.range 4).foldl (fun (s : State) l => s.linkDown l) s
  let s := (List.range 4).foldl (fun (s : State) k => s.resetFd k true) s
  let s := (allGens.foldl (fun (s : State) g => s.stopGen g) s).applyStopped
  let s := (List.range 32).foldl (fun (s : State) k => s.reckStopped k) s
  let s := domsDevice.foldl (fun (s : State) d => s.setDom d .resting) s
  let s := s.slotsOff (List.range 8)
  let old := s.reg pCLK CLK.STAT
  let s := s.setReg pCLK CLK.STAT (old &&& maskOf [1, 18])
  let s := if s.reg pCLK CLK.STAT = old then s else s.ev pCLK (blk 0)
  let s := ((s.set pSAFE SAFE.STAT_KERNEL 0).set pSPAIR SPAIR.STAT_KERNEL_RUN 0).driveOuts
  let s := ((s.set pREST REST.STAT_PENDING 0).set pREST REST.STAT_ENTERING 0).set pREST REST.STAT_WAKING 0
  let s := if s.dev = dvDEEP then s else (s.set pREST REST.STAT_STATE dvDEEP).ev pREST (blk 0)
  s.setProc {}

/-- The module buses go to ASLEEP or OFF on every die (R333). -/
def State.busesRest (s : State) : State := (List.range 32).foldl (fun (s : State) n => s.mbusRest n) s

/-- The last retry has failed: back to DEEP with WAKE_FAIL (R530). -/
def State.wakeFail (s : State) : State :=
  let s := (s.setSup { s.sup with seq := none, lost := [] }).busesRest.deepState
  let s := (s.set pREST REST.STAT_WAKE_FAIL 1).incF pREST ⟨REST.FAIL_CNT, 31, 16⟩
  (s.set pSYS SYS.PIN_WAKE_FAIL_L 1).send (.pin "WAKE_FAIL_L" false)

/-- A slot's PG has not risen within 10 ms (R530): its enable and those of the lower slots drop. -/
def execPgTimeout (i : Fin 8) (s : State) : Outcome State Fault Refusal :=
  match s.sup.seq with
  | some q =>
    if q.cur ≠ i ∨ q.failed then .next s
    else
      let s := s.slotsOff (if q.alone then [i.val] else List.range (i.val + 1))
      let s := (List.range 8).foldl (fun (s : State) j => s.pmb j 0x03 none) s
      .next (s.setSeq (some { q with failed := true }))
  | none => .next s

/-- 100 ms after the failure (R530): the sequence runs again from the lowest enabled slot, or after the second retry the
device returns to DEEP; a slot that fails alone and feeds no part of the RD domain leaves its domains in reset
(R513). -/
def execSequenceRetry (s : State) : Outcome State Fault Refusal :=
  match s.sup.seq with
  | some q =>
    if !q.failed then .next s
    else if q.tries < 2 then .next (s.seqBegin (if q.alone then q.slots else s.seqSlots) (q.tries + 1) q.alone)
    else if q.alone && !(q.slots.any (fun i => (s.slotDoms i).contains .rd)) then .next s.seqNext
    else .next s.wakeFail
  | none => .next s

/-- A supply loss of a slot (R513, cause 7); its own power-up sequence runs at once, or after the one in progress. -/
def State.supplyLoss (s : State) (i : Nat) : State :=
  let ds := s.slotDoms i
  let s := s.resetDoms 7 ds
  let s := ds.foldl (fun (s : State) d => s.setDom d .resting) s
  let s := s.setSup { s.sup with held := s.sup.held ++ (ds.map Dom.idx).filter (fun k => !s.sup.held.contains k) }
  let s := ((s.slotOff i).err pSUP (blk 1)).ev pSUP (blk 4)
  if s.sup.seq.isSome then s.setSup { s.sup with lost := s.sup.lost.filter (fun j => j != i) ++ [i] }
  else s.seqBegin [i] 0 true

def execSupplyLoss (i : Fin 8) (s : State) : Outcome State Fault Refusal :=
  .next (if s.flag pSUP (SUP.SLOT_STAT_ON i) ∧ s.flag pSUP (SUP.SLOT_STAT_PG i) then s.supplyLoss i else s)

/-! ## PMBus (R512) -/

/-- A read that fails after its retry. -/
def State.pmbFail (s : State) (i : Nat) (pec : Bool) : State :=
  let s := s.incF pSUP (if pec then ⟨SUP.PMB_ERR, 15, 0⟩ else ⟨SUP.PMB_ERR, 31, 16⟩)
  (s.err pSUP (blk 3)).set pSUP (SUP.SLOT_STAT_PMB_OK i) 0

/-- STATUS_WORD into SLOT_STAT. -/
def State.pmbStatus (s : State) (i : Nat) (r : PmbRes) : State :=
  let s := s.pmb i 0x79 none
  match r with
  | .ok v => (s.set pSUP ⟨SUP.SLOT_STAT i, 15, 0⟩ v).set pSUP (SUP.SLOT_STAT_PMB_OK i) 1
  | .nack => s.pmbFail i false
  | .pec => s.pmbFail i true

/-- READ_IIN into SLOT_IIN. -/
def State.pmbIin (s : State) (i : Nat) (r : PmbRes) : State :=
  let s := s.pmb i 0x89 none
  match r with
  | .ok v => s.setReg pSUP (SUP.SLOT_IIN i) (v % 2 ^ 16)
  | .nack => s.pmbFail i false
  | .pec => s.pmbFail i true

/-- Every 10 ms: STATUS_WORD and READ_IIN of each slot on PMBus. -/
def execPmbusPoll (r : List PmbRead) (s : State) : Outcome State Fault Refusal :=
  .next (r.zipIdx.foldl (fun (s : State) (e : PmbRead × Nat) =>
    if e.2 < 8 ∧ s.pmbOn e.2 then (s.pmbStatus e.2 e.1.status).pmbIin e.2 e.1.iin else s) s)

/-- PMB_ALERT_L asserts: STATUS_WORD and CLEAR_FAULTS. -/
def execPmbAlert (r : List PmbRes) (s : State) : Outcome State Fault Refusal :=
  .next (r.zipIdx.foldl (fun (s : State) (e : PmbRes × Nat) =>
    if e.2 < 8 ∧ s.pmbOn e.2 then (s.pmbStatus e.2 e.1).pmb e.2 0x03 none else s) s)

/-! ## Supply monitors (R514) -/

/-- Rail bit of monitor `m`; `none`: VAON. -/
def monRail (m : Nat) : Option Nat :=
  let k := m / 12
  match m % 12 with
  | 0 => some (2 + k)
  | 1 => some (6 + k)
  | 6 => some 0
  | 7 => some 1
  | 8 => some 10
  | 9 => some 11
  | 10 => some 12
  | 11 => none
  | _ => some (13 + k)

/-- Nominal value of a monitor in mV. -/
def State.monNominal (s : State) (m : Nat) : Nat :=
  let k := m / 12
  match m % 12 with
  | 0 => 800
  | 1 => 1800
  | 6 => 750
  | 7 => 850
  | 8 => 900
  | 9 => 1050
  | 10 => 500
  | 11 => 3300
  | j => if s.bit pSUP SUP.IO_CFG (4 * k + (j - 2)) then 3300 else 1800

/-- Whether a monitor is evaluated: the die that measures and the rail's domains are active. -/
def State.monEval (s : State) (m : Nat) : Bool :=
  decide (s.dom (.fd (m / 12)) = .active) &&
    (match monRail m with
      | some r => (railDoms r).all (fun d => decide (s.dom d = .active))
      | none => true)

/-- MON_FLT bit of a monitor. -/
def monOff (m : Nat) : Nat := if m < 32 then SUP.MON_FLT_LO else SUP.MON_FLT_HI

/-- A reading of a monitor. -/
def State.monSample (s : State) (m v : Nat) : State :=
  if !s.monEval m then s
  else
    let nom := s.monNominal m
    let low := decide (1000 * v < s.get pSUP SUP.MON_LIM_LIM_LO * nom)
    let high := decide (s.get pSUP SUP.MON_LIM_LIM_HI * nom < 1000 * v)
    let s := s.setReg pSUP (SUP.MON_VAL m) (2 ^ 17 * b2n high + 2 ^ 16 * b2n low + v % 2 ^ 16)
    let c := s.sup.mon.getD m 0
    let c : Int := if low || high then (if 0 < c then c + 1 else 1) else (if c < 0 then c - 1 else -1)
    let s := s.setSup { s.sup with mon := s.sup.mon.set m c }
    let was := s.bit pSUP (monOff m) (m % 32)
    if 2 ≤ c ∧ !was then
      let s := ((s.setBit pSUP (monOff m) (m % 32) true).err pSUP (blk 2)).ev pSUP (blk 3)
      match monRail m with
      | some r =>
        if s.flag pSUP SUP.MON_ACT_ACT then
          (List.range 8).foldl (fun (s : State) i =>
            if s.bit pSUP (SUP.SLOT_RAILS i) r ∧ s.flag pSUP (SUP.SLOT_STAT_ON i) then s.supplyLoss i else s) s
        else s
      | none => s
    else if c ≤ -2 ∧ was then s.setBit pSUP (monOff m) (m % 32) false
    else s

/-- READ_VOUT of a slot (R512); no register takes its value. -/
def State.pmbVout (s : State) (i : Nat) (r : PmbRes) : State :=
  let s := s.pmb i 0x8B none
  match r with
  | .ok _ => s.set pSUP (SUP.SLOT_STAT_PMB_OK i) 1
  | .nack => s.pmbFail i false
  | .pec => s.pmbFail i true

/-- A housekeeping round (R364, R512, R514): thermal inputs, supply monitors, stepper supplies, READ_VOUT of each slot
on PMBus. -/
def execHousekeepingRound (r : HkRound) (s : State) : Outcome State Fault Refusal :=
  let s := if s.dom .rd = .active then s.thermRound r.ts r.die else s
  let s := (r.vm.take 4).zipIdx.foldl (fun (s : State) (e : Nat × Nat) =>
    s.setReg pSTEPC (STEPC.VM e.2) (e.1 % 2 ^ 16)) s
  let s := (r.sup.take 48).zipIdx.foldl (fun (s : State) (e : Nat × Nat) => s.monSample e.2 e.1) s
  .next (r.vout.zipIdx.foldl (fun (s : State) (e : PmbRes × Nat) =>
    if e.2 < 8 ∧ s.pmbOn e.2 then s.pmbVout e.2 e.1 else s) s)

/-! ## The auxiliary power path (R515 to R517) -/

/-- Path states. -/
abbrev ppAUX : Nat := 0
abbrev ppHANDOVER : Nat := 1
abbrev ppBAK : Nat := 2
abbrev ppRETURN : Nat := 3

/-- PATH. -/
def State.path (s : State) : Nat := s.get pSUP SUP.STAT_PATH

/-- A reading of VBAK: NO_BACKUP clears at 9 V. -/
def State.readVbak (s : State) (v : Nat) : State :=
  let s := s.setReg pSUP SUP.VBAK (v % 2 ^ 16)
  if 900 ≤ v then s.set pSUP SUP.STAT_NO_BACKUP 0 else s

/-- VAUX below 17 V for 200 µs; readings in 10 mV. -/
def execHandoverDecision (vaux vbak : Fin 65536) (s : State) : Outcome State Fault Refusal :=
  if s.path ≠ ppAUX ∨ 1700 ≤ vaux.val then .next s
  else
    let s := ((s.setReg pSUP SUP.VAUX vaux).set pSUP SUP.STAT_VAUX_OK 0).readVbak vbak
    if vbak.val < 900 then .next ((s.set pSUP SUP.STAT_NO_BACKUP 1).err pSUP (blk 4))
    else
      let s := (s.send (.pin "PP_BAK_EN" true)).send (.pin "PP_SRC_EN" false)
      let s := ((s.set pSUP SUP.STAT_PATH ppHANDOVER).incSat pSUP SUP.HO_CNT).ev pSUP (blk 0)
      let s := if s.storeSt = tsOPEN then s.handoverCharge else s
      .next (s.wakeCause wcPOWER)

def execHandoverDone (s : State) : Outcome State Fault Refusal :=
  .next (if s.path = ppHANDOVER then
      (s.set pSUP SUP.STAT_PATH ppBAK).setSup { s.sup with ret := s.flag pSUP SUP.STAT_VAUX_OK }
    else s)

/-- VAUX at or above 19 V for 500 ms. -/
def execReturnDecision (s : State) : Outcome State Fault Refusal :=
  if s.path = ppBAK ∧ s.sup.ret then
    let s := (s.send (.pin "PP_SRC_EN" true)).set pSUP SUP.STAT_PATH ppRETURN
    .next ((s.ev pSUP (blk 1)).wakeCause wcPOWER)
  else .next s

def execReturnDone (s : State) : Outcome State Fault Refusal :=
  .next (if s.path = ppRETURN then
      ((((s.send (.pin "PP_BAK_EN" false)).set pSUP SUP.STAT_PATH ppAUX).set pSUP SUP.STAT_VBAK_LOW 0)).setSup
        { s.sup with ret := false }
    else s)

/-- VAUX rises through or falls below 19 V (R515, R516). -/
def execVauxOkChange (vaux : Fin 65536) (s : State) : Outcome State Fault Refusal :=
  let ok := decide (1900 ≤ vaux.val)
  let s := (s.setReg pSUP SUP.VAUX vaux).setB pSUP SUP.STAT_VAUX_OK ok
  .next (s.setSup { s.sup with ret := ok && decide (s.path = ppBAK) })

/-- BAK_WARN in 10 mV. -/
def State.bakWarn (s : State) : Nat :=
  let v := s.get pSUP SUP.PATH_CFG_BAK_WARN
  10 * (if v = 0 then 100 else v)

/-- A reading of VBAK against BAK_WARN (R516). -/
def execBakLow (vbak : Fin 65536) (s : State) : Outcome State Fault Refusal :=
  let s := s.readVbak vbak
  if s.path ≠ ppBAK then .next s
  else if vbak.val < s.bakWarn then .next ((s.set pSUP SUP.STAT_VBAK_LOW 1).ev pSUP (blk 2))
  else .next (s.set pSUP SUP.STAT_VBAK_LOW 0)

/-- VBAK below 9.0 V for 1 ms on VBAK: forced entry to DEEP (R515, R524). -/
def execVbakLowDeep (vbak : Fin 65536) (s : State) : Outcome State Fault Refusal :=
  if s.path ≠ ppBAK ∨ 900 ≤ vbak.val then .next s
  else
    let s := (s.readVbak vbak).set pSUP SUP.STAT_VBAK_LOW 1
    if s.dev = dvDEEP then .next s
    else .next ((s.busesRest.deepState).incF pREST ⟨REST.ENTRY_CNT, 31, 16⟩)

/-- 10 ms on VBAK (R517): mA × ms are µC. -/
def execBackupTallyTick (s : State) : Outcome State Fault Refusal :=
  if s.path ≠ ppBAK then .next s
  else
    let i := (List.range 8).foldl (fun n j =>
      if s.flag pSUP (SUP.SLOT_CFG_IIN_EN j) ∧ s.flag pSUP (SUP.SLOT_STAT_ON j) then n + s.reg pSUP (SUP.SLOT_IIN j) % 2 ^ 16
      else n) 0
    let x := 10 * (i + s.get pSUP SUP.PATH_CFG_AON_IQ) + s.sup.chg
    let s := s.setSup { s.sup with chg := x % 1000 }
    let s := s.setReg64 pSUP SUP.BAK_CHG_LO ((s.reg64 pSUP SUP.BAK_CHG_LO + x / 1000) % 2 ^ 64)
    .next (s.incSat pSUP SUP.BAK_TIME)

/-! ## Clocks (R518 to R520, R529) -/

/-- A PLL loses lock (R520): its count, and the reset of the domains it clocks (cause 8); the boot ROM runs on the
100 MHz oscillator until the crystal check that follows finds the PLLs locked (R518, R528). -/
def State.pllLost (s : State) (i : Nat) : State :=
  let f := if i = 0 then CLK.STAT_APC_LOCK else if i = 1 then CLK.STAT_RECK_LOCK else CLK.STAT_BEAM_LOCK
  let s := (s.clk f false).incF pCLK ⟨CLK.UNLOCK_CNT, 8 * i + 7, 8 * i⟩
  let s := s.err pCLK (blk 1)
  (s.resetDoms 8 (if i = 2 then [.rd, .fd 0, .fd 1, .fd 2, .fd 3] else [.rd])).clk CLK.STAT_RC100_IN_USE true

def execPllUnlock (i : Fin 3) (s : State) : Outcome State Fault Refusal :=
  .next (if s.flag pCLK (if i.val = 0 then CLK.STAT_APC_LOCK else if i.val = 1 then CLK.STAT_RECK_LOCK else CLK.STAT_BEAM_LOCK)
    then s.pllLost i else s)

/-- A crystal is ready: 0 main, 1 AON, 2 SerDes. -/
def execCrystalReady (x : Fin 3) (s : State) : Outcome State Fault Refusal :=
  .next (if x.val = 0 then (s.clk CLK.STAT_X25_OK true).pllLock
    else if x.val = 1 then (s.clk CLK.STAT_X32K_OK true).clk CLK.STAT_RC32_IN_USE false
    else s.clk CLK.STAT_X156_OK true)

/-- Every fabric, Ethernet and PCIe link goes down. -/
def State.serdesDown (s : State) : State :=
  let s := (List.range 4).foldl (fun (s : State) l => s.linkDown l) s
  let s := (List.range 2).foldl (fun (s : State) k =>
    let p := pETH k
    if s.flag p ETH.STAT_LINK then ((s.set p ETH.STAT_LINK 0).set p ETH.STAT_BLOCK_LOCK 0).ev p (blk 0) else s) s
  (List.range 2).foldl (fun (s : State) k => s.driveFail k) s

/-- A ready crystal stops for 10 µs (R519). -/
def execCrystalFail (x : Fin 3) (s : State) : Outcome State Fault Refusal :=
  let f := if x.val = 0 then CLK.STAT_X25_OK else if x.val = 1 then CLK.STAT_X32K_OK else CLK.STAT_X156_OK
  if !s.flag pCLK f then .next s
  else
    let s := (s.clk f false).incF pCLK ⟨CLK.XTAL_CNT, 8 * x.val + 7, 8 * x.val⟩
    let s := s.err pCLK (blk 0)
    if x.val = 0 then .next (if s.flag pCLK CLK.STAT_BEAM_LOCK then s.pllLost 2 else s)
    else if x.val = 1 then .next (s.clk CLK.STAT_RC32_IN_USE true)
    else .next s.serdesDown

/-- The main crystal is not ready within 20 ms of its start (R529): the APC and reckoner PLLs lock on the 100 MHz
oscillator. -/
def execDegradedStart (s : State) : Outcome State Fault Refusal :=
  if s.flag pCLK CLK.STAT_X25_OK ∨ s.flag pREST REST.STAT_DEGRADED then .next s
  else
    let s := (s.set pREST REST.STAT_DEGRADED 1).incF pREST ⟨REST.FAIL_CNT, 15, 0⟩
    let s := (s.ev pREST (blk 2)).clk CLK.STAT_RC100_IN_USE true
    let s := ((s.clk CLK.STAT_BEAM_LOCK false).clk CLK.STAT_RECK_LOCK true).clk CLK.STAT_APC_LOCK true
    .next ((allRods.foldl (fun (s : State) r => s.applySgr r false) s).driveOuts)

/-! ## AON (R533) -/

/-- The AON counter equals ALARM. -/
def State.alarm (s : State) : State :=
  ((s.set pAON AON.ALARM_CTL_EN 0).ev pAON (blk 0)).wakeCause wcTIMER

/-- ALARM, 48 bits. -/
def State.alarmAt (s : State) : Nat := s.reg64 pAON AON.ALARM_LO % 2 ^ 48

def execAonAlarm (s : State) : Outcome State Fault Refusal :=
  .next (if s.flag pAON AON.ALARM_CTL_EN then
      (s.setReg64 pAON AON.CNT_LO s.alarmAt).alarm
    else s)

/-- Computed AON registers: the armed watches. -/
def State.aonReg (s : State) (off : Nat) : Option Nat :=
  if off = AON.WATCH_STAT then
    some (maskOf ((List.range 32).filter (fun n => decide (s.mbSt n = mbASLEEP) && (s.mb n).watch.isSome)))
  else none

/-! ## Requests (R523) -/

/-- A write of REQ.TARGET. -/
def State.restTarget (s : State) (t : Nat) : State :=
  if 4 ≤ t then s.err pREST (blk 1)
  else
    let s := ((s.set pREST REST.REQ_TARGET t).set pREST REST.STAT_REQ_FAIL 0).set pREST REST.STAT_TARGET t
    if t ≤ s.dev then (s.set pREST REST.STAT_PENDING 0).wakeCause wcCMD
    else s.set pREST REST.STAT_PENDING 1

/-- A write of REQ with ABORT. -/
def State.restAbort (s : State) : State := s.set pREST REST.STAT_PENDING 0

/-- A write of REST.REQ; an ABORT ends the waiting request and starts none. -/
def State.restReq (s : State) (v : Nat) : State := if v.testBit 31 then s.restAbort else s.restTarget (v % 8)

def execRestRequest (w : Writer) (t : Fin 8) (s : State) : Outcome State Fault Refusal :=
  .next (finish w pREST (s.actionWrite w pREST (fun s => (s.restTarget t, .ok))))

def execRestAbort (w : Writer) (s : State) : Outcome State Fault Refusal :=
  .next (finish w pREST (s.actionWrite w pREST (fun s => (s.restAbort, .ok))))

def execRequestTimeout (s : State) : Outcome State Fault Refusal :=
  .next (if s.flag pREST REST.STAT_PENDING then
      ((s.set pREST REST.STAT_PENDING 0).set pREST REST.STAT_REQ_FAIL 1).err pREST (blk 0)
    else s)

/-! ## Entries (R523, R524, R526) -/

/-- Whether every rod is in OFF or FAULT with no START under way. -/
def State.rodsIdle (s : State) : Bool :=
  allRods.all (fun n => decide (s.rodSt n = stOFF ∨ s.rodSt n = stFAULT) && (s.rod n).start.isNone)

/-- Whether a page of a domain holds PWR_REQ = 1, or a home keeps the RD domain awake (R522, R524). -/
def State.keptAwake (s : State) (d : Dom) : Bool :=
  (allPages.any (fun p => decide (pageDom p = d ∧ s.get p PG.CTL_PWR_REQ = 1))) ||
    (decide (d = .rd) && (decide (s.role = hrACTING) || decide (s.role = hrSTANDBY)))

/-- The state an entry reaches. -/
def State.enterState (s : State) (v : Nat) : State :=
  let s := ((s.set pREST REST.STAT_STATE v).ev pREST (blk 0)).incF pREST ⟨REST.ENTRY_CNT, 31, 16⟩
  if s.get pREST REST.STAT_TARGET = v then s.set pREST REST.STAT_PENDING 0 else s

/-- An entry to a state: with a cause that arrives while it runs and acts, the entry stops and the device wakes
(R526). -/
def State.enter (s : State) (v : Nat) (stop : Option (Fin 8)) (go : State → State) : State :=
  match stop with
  | none => go s
  | some c =>
    let a := ((s.set pREST REST.STAT_ENTERING 1).setRest { s.rest with entering := v }).wakeCause c
    if a.flag pREST REST.STAT_ENTERING then go (a.set pREST REST.STAT_ENTERING 0)
    else a.set pREST REST.STAT_PENDING 0

/-- Whether an entry may begin. -/
def State.mayEnter (s : State) (frm : Nat) : Bool :=
  s.flag pREST REST.STAT_PENDING && decide (s.dev = frm) && decide (frm < s.get pREST REST.STAT_TARGET) &&
    !s.flag pREST REST.STAT_WAKING

def execEnterQuiet (stop : Option (Fin 8)) (s : State) : Outcome State Fault Refusal :=
  .next (if s.mayEnter dvRUN && s.rodsIdle then s.enter dvQUIET stop (fun s => s.enterState dvQUIET) else s)

/-- The steps of the entry to REST. -/
def State.restSteps (s : State) : State :=
  let s := if s.storeSt = tsCLOSED then s else s.storeClose
  let s := (List.range 32).foldl (fun (s : State) k => s.reckRest k) s
  let s := (allGens.foldl (fun (s : State) g => s.stopGen g) s).applyStopped
  let s := (List.range 4).foldl (fun (s : State) k => s.dieLinksOff k) s
  let s := s.busesRest
  let s := s.enterState dvREST
  let s := s.setCea { s.cea with rested := true }
  let s := [Dom.fd 3, .fd 2, .fd 1].foldl (fun (s : State) d => if s.keptAwake d then s else s.domRest d) s
  let s := if s.keptAwake .rd then s else s.agentHandover.domRest .rd
  let s := if s.keptAwake .ddr then s else s.domRest .ddr
  let s := s.slotsOff (s.slotsEn.filter (fun i => !s.flag pSUP (SUP.SLOT_CFG_REST_ON i)))
  (s.clk CLK.STAT_APC_LOCK false).clk CLK.STAT_RECK_LOCK false

/-- Whether a channel of STEP[8] to STEP[31] is in motion. -/
def State.stepsMove (s : State) : Bool := ((List.range 24).map (8 + ·)).any (fun n => s.stepMoving n)

/-- The device enters DEEP. -/
def execEnterDeep (stop : Option (Fin 8)) (s : State) : Outcome State Fault Refusal :=
  .next (if s.mayEnter dvREST && !(domsDevice.any (fun d => allPages.any (fun p =>
        decide (pageDom p = d ∧ s.get p PG.CTL_PWR_REQ = 1)))) then
      s.enter dvDEEP stop (fun s => (s.enterState dvDEEP).deepState)
    else s)

/-- A wake cause arrives (R525); SAFE only while AON.SAFE_WAKE names an input. -/
def execWakeCause (c : Fin 8) (s : State) : Outcome State Fault Refusal :=
  .next (if c.val = wcSAFE ∧ s.reg pAON AON.SAFE_WAKE % 256 = 0 then s else s.wakeCause c)

/-- LINGER ms after its last access a domain woken alone in REST rests again (R522); in RUN and QUIET, a field die
1 to 3 that its FDC page lets rest. -/
def State.mayRest (s : State) (d : Dom) : Bool :=
  match d with
  | .aon | .fab => false
  | .fd k =>
    decide (k ≠ 0 ∧ k < 4) &&
      (if s.dev = dvREST then !s.keptAwake d
        else s.restsAlone k)
  | _ => decide (s.dev = dvREST) && !s.keptAwake d

/-- The domain of an index of DOM_STAT. -/
def domOf (i : Nat) : Dom :=
  match i with
  | 0 => .aon
  | 1 => .fab
  | 2 => .rd
  | 3 => .ddr
  | k => .fd (k - 4)

def execDomainLingerExpire (i : Fin 8) (s : State) : Outcome State Fault Refusal :=
  let d := domOf i
  .next (if s.dom d = .active ∧ s.mayRest d then
      (if d = .rd then s.agentHandover else s).domRest d
    else s)

/-- Computed REST registers: the domains' states. -/
def State.restReg (s : State) (off : Nat) : Option Nat :=
  if off = REST.DOM_STAT then
    some ((List.range 8).foldl (fun n i => n + (s.dom (domOf i)).num * 4 ^ i) 0)
  else none

end Sys2Proof.Machine
end

