-- ==== Sys2Proof/Machine/Bist.lean ====
section
/-! DEFINITION. Self-test, the direct test engine and the injection registers (spec/23, R559 to R568, R577,
R578). -/

namespace Sys2Proof.Machine

open Host (Outcome)

/-! ## Rotation (R559 to R564) -/

/-- LB_STAT.STATE. -/
abbrev lbOFF : Nat := 0
abbrev lbIDLE : Nat := 1
abbrev lbWAIT : Nat := 2
abbrev lbMIGRATE : Nat := 3
abbrev lbTEST : Nat := 4
abbrev lbINPLACE : Nat := 5
abbrev lbNOSPARE : Nat := 6

/-- State of the rotation. -/
def State.lbSt (s : State) : Nat := s.get pBIST BIST.LB_STAT_STATE
def State.setLbSt (s : State) (v : Nat) : State := s.set pBIST BIST.LB_STAT_STATE v

/-- The physical core of a logical reckoner. -/
def State.phys (s : State) (n : Nat) : Nat := s.get (pRECK n) RECK.STATUS_PHYS

/-- The spare core. -/
def State.spare (s : State) : Nat := s.get pBIST BIST.LB_STAT_SPARE_PHYS

/-- Show the spare, on BIST and on RECK[31]. -/
def State.setSpare (s : State) (p : Nat) : State :=
  (s.set pBIST BIST.LB_STAT_SPARE_PHYS p).set (pRECK 31) RECK.STATUS_PHYS p

/-- Whether a core is bad. -/
def State.coreBad (s : State) (p : Nat) : Bool := s.bit pBIST BIST.LB_BAD p

/-- The core of the next slot: the next after the last one tested that is neither the spare nor bad. -/
def State.nextCore (s : State) : Nat :=
  (((List.range 32).map (fun i => (s.bist.last + 1 + i) % 32)).find? (fun p =>
    decide (p ≠ s.spare) && !s.coreBad p)).getD 0

/-- Show NEXT_PHYS. -/
def State.showNext (s : State) : State := s.set pBIST BIST.LB_STAT_NEXT_PHYS s.nextCore

/-- The logical reckoner on a core; `none` on the spare. -/
def State.logicalOn (s : State) (p : Nat) : Option Nat := (List.range 31).find? (fun n => decide (s.phys n = p))

/-- The refusal of a BIST commit (R560, R577). -/
def State.bistDenied (s : State) : List Nat :=
  holds [
    (decide (s.stagedGet pBIST BIST.LB_CFG_EN = 1) && !s.rotation &&
      decide (s.rkSt 31 ≠ rkSTOPPED ∨ s.reg pBIST BIST.LB_BAD ≠ 0), blk 0),
    ((List.range 4).any (fun k =>
      decide (s.stagedGet pBIST (BIST.AL_CFG_EN k) = 1 ∧ s.stagedGet pBIST (BIST.AL_CFG_AL_TOL k) = 0)), blk 5)]

/-- Rotation ends: RECK[31] is no spare any more. -/
def State.rotationOff (s : State) : State :=
  (s.setLbSt lbOFF).set (pRECK 31) RECK.STATUS_SPARE 0

/-- What follows a commit that changes LB_CFG.EN. -/
def State.bistApplied (s0 s : State) : State :=
  if s.rotation && !s0.rotation then
    let s := (s.setSpare (s.phys 31)).set (pRECK 31) RECK.STATUS_SPARE 1
    let s := s.setBist { s.bist with last := 31, skips := 0, spareTest := false }
    (s.setLbSt lbIDLE).showNext
  else if s0.rotation && !s.rotation && s.bist.slot.isNone then s.rotationOff
  else s

/-- A test of a core begins: STARVED ends. -/
def State.testBegin (s : State) (st : Nat) : State :=
  ((s.set pBIST BIST.LB_STAT_STARVED 0).setLbSt st).setBist { s.bist with skips := 0 }

/-- A slot falls (R561): a core whose reckoner runs waits for its sleep; another is tested in place. -/
def execLbistSlot (s : State) : Outcome State Fault Refusal :=
  if !s.rotation ∨ s.lbSt ≠ lbIDLE ∨ dvREST ≤ s.dev then .next s
  else if s.bist.spareTest then
    .next ((s.setBist { s.bist with slot := some { core := s.spare, logical := none, inPlace := true }
                                    spareTest := false }).testBegin lbINPLACE)
  else
    let p := s.nextCore
    let n := s.logicalOn p
    let runs := match n with
      | some k => decide (s.rkSt k ≠ rkSTOPPED ∧ s.rkSt k ≠ rkFATAL)
      | none => false
    if runs then .next ((s.setBist { s.bist with slot := some { core := p, logical := n, inPlace := false } }).setLbSt lbWAIT)
    else .next ((s.setBist { s.bist with slot := some { core := p, logical := n, inPlace := true } }).testBegin lbINPLACE)

/-- n does not reach SLEEP within WAIT (R562). -/
def execSlotSkip (s : State) : Outcome State Fault Refusal :=
  if s.lbSt ≠ lbWAIT then .next s
  else
    let n := s.bist.skips + 1
    let s := (s.setBist { s.bist with slot := none, skips := n }).incF pBIST BIST.LB_CNT_SKIP
    let s := if s.rotation then s.setLbSt lbIDLE else s.rotationOff
    .next (if n < 3 then s
      else ((s.set pBIST BIST.LB_STAT_STARVED 1).err pBIST (blk 1)).ev pBIST (blk 0))

/-- A migration starts: the slot's reckoner is in SLEEP (R216). -/
def execMigrationStart (k : Fin 32) (s : State) : Outcome State Fault Refusal :=
  match s.bist.slot with
  | some x =>
    if s.lbSt = lbWAIT ∧ x.logical = some k.val ∧ s.rkSt k = rkSLEEP then
      .next ((s.setRkSt k rkMIGR).setLbSt lbMIGRATE)
    else .next s
  | none => .next s

/-- The migration is complete (R216): the program is on the spare; a wake that fell in it runs now. -/
def execMigrationDone (k : Fin 32) (s : State) : Outcome State Fault Refusal :=
  match s.bist.slot with
  | some x =>
    if s.lbSt ≠ lbMIGRATE ∨ x.logical ≠ some k.val ∨ s.rkSt k ≠ rkMIGR then .next s
    else
      let dst := s.spare
      let s := ((s.set (pRECK k) RECK.STATUS_PHYS dst).setSpare x.core).testBegin lbTEST
      let s := (s.setRkSt k rkSLEEP).ev (pRECK k) (blk 3)
      match (s.reckX k).pendIn (s.reckX k).mask with
      | some i =>
        let c := (s.reckX k).pend.getD i 0
        let s := (s.incSat (pRECK k) RECK.MIG_DELAY).waitTake k i
        .next (if (s.vsm k).runs then s.vsmWake k c else s)
      | none => .next s
  | none => .next s

/-! ## Memories (R565) -/

/-- What is kept of a memory. -/
def State.memInfo (s : State) (id : Nat) : MemInfo :=
  ((s.bist.info.find? (fun e => e.1 == id)).map Prod.snd).getD {}

/-- Fuse rows burnt for a memory. -/
def State.fuseRows (s : State) (id : Nat) : Nat :=
  ((s.bist.fuses.find? (fun e => e.1 == id)).map Prod.snd).getD 0

/-- A memory test's findings (R565): the repair uses spare rows, four in all with those in fuses. -/
def State.memTested (s : State) (t : MemTest) : State :=
  let old := s.memInfo t.id
  let rows := min (old.rows + t.rows) 4
  let x : MemInfo := {
    words := min (old.words + t.words) 0xFFFF, rows := rows
    addr := if t.words = 0 then old.addr else some (t.addr % 2 ^ 24)
    bit := if t.words = 0 then old.bit else t.bit % 128
    unrep := old.unrep || decide (4 < old.rows + t.rows) }
  s.setBist { s.bist with info := (s.bist.info.filter (fun e => !(e.1 == t.id))) ++ [(t.id, x)] }

/-- The IRAM or the DRAM of a logical reckoner at 0. -/
def State.reckZero (s : State) (n : Nat) (dram : Bool) : State :=
  let base := if dram then 16384 else 0
  let s := { s with reckMem := tabKeep (fun k => !decide (n * 32768 + base ≤ k ∧ k < n * 32768 + base + 16384)) s.reckMem }
  if (s.vsm n).rom then
    (List.range (if dram then 512 else 2048)).foldl (fun (s : State) i => s.setReckWord n (base + i) 0) s
  else s

/-- The IRAM or the DRAM of a core at 0: that of the logical reckoner that the core holds. -/
def State.coreZero (s : State) (p : Nat) (dram : Bool) : State :=
  match (List.range 32).find? (fun n => decide (s.phys n = p)) with
  | some n => s.reckZero n dram
  | none => s

/-- The March patterns leave a memory at 0 (R565; log 147). -/
def State.memCleared (s : State) (id : Nat) : State :=
  if id < 0x40 then s.coreZero (id % 32) (decide (0x20 ≤ id))
  else if id = 0x40 then { s with common := [] }
  else if id = 0x41 then { s with pairMem := [] }
  else if id = 0x42 then { s with cells := [] }
  else if id = 0x43 then s
  else if id < 0x48 then { s with caps := tabKeep (fun k => k != id - 0x44) s.caps }
  else
    { s with board := tabKeep (fun k => !decide (k / 4096 = 0x800 + 2 * (id - 0x48) ∨ k / 4096 = 0x801 + 2 * (id - 0x48))) s.board }

/-- Whether a test leaves a failure that no spare row repairs. -/
def State.memBad (s : State) (t : MemTest) : Bool := (s.memInfo t.id).unrep

/-! ## The end of a slot's test (R561, R563) -/

/-- A core is found bad. -/
def State.coreFail (s : State) (p : Nat) (n : Option Nat) : State :=
  let s := (s.setBit pBIST BIST.LB_BAD p true).incF pBIST BIST.LB_CNT_FAIL
  let s := (s.err pBIST (blk 2)).ev pBIST (blk 1)
  match n with
  | some k => if s.rkSt k = rkFATAL ∨ s.bist.fatals.contains k then s
      else s.setBist { s.bist with fatals := s.bist.fatals ++ [k] }
  | none => s

/-- A core passes. -/
def State.corePass (s : State) (p : Nat) : State :=
  (s.incF pBIST BIST.LB_CNT_PASS).setBist { s.bist with passAt := s.bist.passAt.set p s.proc.mt }

/-- The slot ends: starts that waited take place. -/
def State.slotEnd (s : State) (p : Nat) : State :=
  let l := s.bist.starts
  let s := s.setBist { s.bist with slot := none, starts := [], last := p }
  l.foldl (fun (s : State) k => if s.en (pRECK k) ∧ s.rkSt k = rkSTOPPED then s.reckStart k else s) s

/-- The self-test of the slot's core ends; one of a core whose program has left leaves its memories at 0 (R565). -/
def execLbistTestDone (pass : Bool) (mems : List MemTest) (s : State) : Outcome State Fault Refusal :=
  match s.bist.slot with
  | some x =>
    if s.lbSt ≠ lbTEST ∧ s.lbSt ≠ lbINPLACE then .next s
    else
      let ms := if x.inPlace then [] else mems.filter (fun t => t.id == x.core || t.id == 0x20 + x.core)
      let s := ms.foldl (fun (s : State) t => s.memTested t) s
      let s := if x.inPlace then s else (s.coreZero x.core false).coreZero x.core true
      let ok := pass && !(ms.any (fun t => s.memBad t))
      let s :=
        if ok then s.corePass x.core
        else
          let s := s.coreFail x.core x.logical
          -- after a failed test in place the spare takes the reckoner's memories and registers
          match x.logical with
          | some n => if x.inPlace then s.set (pRECK n) RECK.STATUS_PHYS s.spare else s
          | none => s
      let s := s.slotEnd x.core
      .next (if !ok then s.setLbSt lbNOSPARE
        else if s.rotation then (s.setLbSt lbIDLE).showNext
        else s.rotationOff)
  | none => .next s

/-- Entry to REST (R564): the slot is abandoned; a migration under way completes first, and a core whose program
has left it becomes the spare untested. -/
def State.slotAbandon (s : State) : State :=
  match s.bist.slot with
  | none => s
  | some x =>
    let s := match x.logical with
      | some k =>
        if s.lbSt = lbMIGRATE then
          let dst := s.spare
          (((s.set (pRECK k) RECK.STATUS_PHYS dst).setSpare x.core).setRkSt k rkSLEEP).ev (pRECK k) (blk 3)
        else s
      | none => s
    let gone := decide (s.lbSt = lbMIGRATE ∨ s.lbSt = lbTEST)
    let s := s.setBist { s.bist with spareTest := gone || (x.logical.isNone && x.inPlace) }
    (s.slotEnd s.bist.last).setLbSt (if s.rotation then lbIDLE else lbOFF)

/-! ## Direct test engine (R568) -/

/-- DTE_RES. -/
def State.dteRes (s : State) (code : Nat) : State :=
  let s := if code = 1 then s.err pBIST (blk 4) else s
  (s.setReg pBIST BIST.DTE_RES (2 ^ 31 + code)).ev pBIST (blk 3)

/-- Whether a memory's owner lets a destructive test run. -/
def State.memIdle (s : State) (id : Nat) : Bool :=
  let idle (p : Nat) : Bool := !s.en p && decide (s.dom (pageDom p) = .active)
  if id < 0x40 then
    match (List.range 32).find? (fun n => decide (s.phys n = id % 32)) with
    | some n => decide (s.rkSt n = rkSTOPPED)
    | none => true
  else if id = 0x40 then decide (s.dom .rd = .active)
  else if id = 0x41 then idle pSPAIR
  else if id = 0x42 then idle pCEA
  else if id = 0x43 then idle pAPC
  else if id < 0x48 then idle (pTDIG (id - 0x44))
  else idle (pACQ (id - 0x48))

/-- Whether a MEM_ID is in the table of R565. -/
def memKnown (id : Nat) : Bool := decide (id < 0x4C)

/-- A GO of DTE_CMD. -/
def State.dteGo (s : State) (op arg : Nat) : State :=
  let s := (s.set pBIST BIST.DTE_CMD_OP op).set pBIST BIST.DTE_CMD_ARG arg
  if op = 0 then s
  else if s.lifeSt ≠ 1 ∧ s.lifeSt ≠ 3 then s.dteRes 1
  else if s.bist.dte.isSome then s.dteRes 2
  else
    let s := s.setReg pBIST BIST.DTE_RES 0
    let core := arg % 32
    if op = 1 then
      if !memKnown arg then s.dteRes 3
      else if s.memIdle arg then s.setBist { s.bist with dte := some (1, arg) } else s.dteRes 2
    else if op = 2 then
      let n := (List.range 32).find? (fun n => decide (s.phys n = core))
      if 32 ≤ arg then s.dteRes 3
      else if s.rotation || !(match n with | some k => decide (s.rkSt k = rkSTOPPED) | none => true) then s.dteRes 2
      else s.setBist { s.bist with dte := some (2, arg) }
    else if !memKnown arg then s.dteRes 3
    else s.setBist { s.bist with dte := some (3, arg) }

def State.dteCmd (s : State) (w : Writer) (op arg : Nat) : State :=
  finish w pBIST (s.actionWrite w pBIST (fun s => (s.dteGo op arg, .ok)))

def execDteMemoryTest (w : Writer) (id : Fin 256) (s : State) : Outcome State Fault Refusal := .next (s.dteCmd w 1 id)
def execDteLogicTest (w : Writer) (core : Fin 256) (s : State) : Outcome State Fault Refusal := .next (s.dteCmd w 2 core)
def execDteBurnRepair (w : Writer) (id : Fin 256) (s : State) : Outcome State Fault Refusal := .next (s.dteCmd w 3 id)

/-- A direct test ends: what it found.  (A command that another's run refuses does not end that run.) -/
def execDteDone (pass : Bool) (t : Option MemTest) (s : State) : Outcome State Fault Refusal :=
  match s.bist.dte with
  | none => .next s
  | some (op, arg) =>
    let s := s.setBist { s.bist with dte := none }
    if op = 1 then
      let s := match t with
        | some x => if x.id = arg then s.memTested x else s
        | none => s
      let s := s.memCleared arg
      .next (s.dteRes (if pass && !(s.memInfo arg).unrep then 0 else 3))
    else if op = 2 then
      let n := (List.range 32).find? (fun n => decide (s.phys n = arg))
      .next ((if pass then s.corePass arg else s.coreFail arg n).dteRes (if pass then 0 else 3))
    else
      let used := s.fuseRows arg
      let rows := (s.memInfo arg).rows
      if 4 < used + rows then .next (s.dteRes 4)
      else
        let l := (s.bist.fuses.filter (fun e => !(e.1 == arg))) ++ [(arg, used + rows)]
        .next ((s.setBist { s.bist with fuses := l }).dteRes 0)

/-! ## Analog loopback (R566, R567) -/

/-- Expected code of a loopback input. -/
def State.alExpect (s : State) (k input : Nat) : Int :=
  if input = 8 then 0
  else if input = 9 then sxt 16 (s.reg pBIST (BIST.AL_REF9 k))
  else if input = 10 then s.getS pBIST (BIST.AL_DAC_DAC0 k)
  else s.getS pBIST (BIST.AL_DAC_DAC1 k)

/-- Consecutive misses of converter `c` of die `k`. -/
def State.alMiss (s : State) (k c : Nat) : Nat :=
  ((s.bist.miss.find? (fun e => e.1 == 12 * k + c)).map Prod.snd).getD 0

def State.setAlMiss (s : State) (k c n : Nat) : State :=
  s.setBist { s.bist with miss := (s.bist.miss.filter (fun e => !(e.1 == 12 * k + c))) ++ [(12 * k + c, n)] }

/-- A conversion of a loopback input is checked. -/
def State.alCheck (s : State) (k c input : Nat) (code : Int) (sat : Bool) : State :=
  let at_ := ((s.bist.dacAt.find? (fun e => e.1 == k)).map Prod.snd)
  if !s.flag pBIST (BIST.AL_CFG_EN k) || input < 8 || 11 < input ||
      (match at_ with | some t => decide (s.beam.t < t + 10000 * 256) | none => false) then s
  else
    let tol := s.get pBIST (BIST.AL_CFG_AL_TOL k)
    let (inj, s) := if c = 0 then s.injTake (pACQ k) 0 else (false, s)
    let code := if inj then code + tol + 1 else code
    if sat || decide ((tol : Int) < (code - s.alExpect k input).natAbs) then
      let n := s.alMiss k c + 1
      let lim := s.get pBIST (BIST.AL_CFG_AL_N k)
      if n < (if lim = 0 then 3 else lim) then s.setAlMiss k c n
      else
        let s := s.setAlMiss k c 0
        let s := (s.setBit pBIST (BIST.AL_FAIL k) c true).incF pBIST (BIST.AL_FAIL_AL_CNT k)
        (s.err pBIST (blk 3)).ev pBIST (blk 2)
    else s.setAlMiss k c 0

/-! ## Registers (R577) -/

/-- Writes of BIST registers with rules of their own. -/
def State.bistRegWrite (s : State) (off : Nat) (v : Word) : Option (State × Code) :=
  if off = BIST.DTE_CMD then
    let x := v.toNat
    if x.testBit 31 then some (s.dteGo (x % 4) (bitsOf x 15 8), .ok)
    else some ((s.set pBIST BIST.DTE_CMD_OP x).set pBIST BIST.DTE_CMD_ARG (bitsOf x 15 8), .ok)
  else
    match (List.range 4).find? (fun k => off == BIST.AL_DAC k) with
    | some k =>
      let s := s.setWord pBIST off v
      some (s.setBist { s.bist with dacAt := (s.bist.dacAt.filter (fun e => !(e.1 == k))) ++ [(k, s.beam.t)] }, .ok)
    | none => none

/-- Computed BIST registers. -/
def State.bistReg (s : State) (off : Nat) : Option Nat :=
  let x := s.memInfo (s.get pBIST BIST.MB_SEL_MEM_ID)
  if off = BIST.MB_INFO then
    some (2 ^ 31 * b2n (decide (0 < x.words)) + 2 ^ 30 * b2n x.unrep + x.rows * 2 ^ 16 + x.words)
  else if off = BIST.MB_ADDR then some (match x.addr with | some a => 2 ^ 31 + a | none => 0)
  else if off = BIST.MB_BIT then some x.bit
  else if BIST.LB_AGE 0 ≤ off ∧ off ≤ BIST.LB_AGE 31 then
    some (min ((s.proc.mt - s.bist.passAt.getD ((off - BIST.LB_AGE 0) / 4) 0) / 400000000) 0xFFFFFF)
  else none

/-- Computed INJ registers (R578). -/
def State.injReg (s : State) (off : Nat) : Option Nat :=
  let p := s.reg pINJ INJ.CAT_SEL % 4096
  let k := s.get pINJ INJ.CAT_SEL_POINT
  if off = INJ.CAT_INFO then
    match s.injPoint p k with
    | none => some k
    | some r =>
      let armed := s.injArmed p k
      some (2 ^ 31 + 2 ^ 30 * b2n r.isSome + 2 ^ 29 * b2n armed + (if armed then s.get p PG.INJ_SHOTS else 0) * 2 ^ 8 + k)
  else if off = INJ.ARMED_CNT then some ((injPages.filter (fun q => decide (s.get q PG.INJ_SHOTS ≠ 0))).length)
  else none

end Sys2Proof.Machine
end

