-- ==== Sys2Proof/Machine/Flash.lean ====
section
/-! DEFINITION. Resets, life-cycle states, the configuration flash, Byley images and the event area (spec/22, R535
to R544, R552 to R554). -/

namespace Sys2Proof.Machine

open Host (Outcome)

/-! ## The flash (R540, R541) -/

/-- Bytes of the flash: an erased or reserved byte reads 0xFF. -/
def State.cfByte (s : State) (a : Nat) : Nat := (tabGet (fun _ => (0xFF : Byte)) s.cf a).toNat
def State.cfBytes (s : State) (a n : Nat) : List Nat := (List.range n).map (fun i => s.cfByte (a + i))
def State.cfLE (s : State) (a n : Nat) : Nat := ofLE (s.cfBytes a n)

/-- Program a byte: bits are only cleared. -/
def State.cfProg (s : State) (a v : Nat) : State :=
  { s with cf := tabPut (fun _ => (0xFF : Byte)) s.cf a (BitVec.ofNat 8 (s.cfByte a &&& v % 256)) }
def State.cfProgs (s : State) (a : Nat) (l : List Nat) : State :=
  l.zipIdx.foldl (fun (s : State) e => s.cfProg (a + e.2) e.1) s

/-- Erase a range. -/
def State.cfErase (s : State) (a n : Nat) : State :=
  { s with cf := tabKeep (fun k => decide (k < a ∨ a + n ≤ k)) s.cf }

/-- Bounds of the regions. -/
abbrev cfLoader : Nat := 0
abbrev cfFw : Nat := 0x00100000
abbrev cfProf : Nat := 0x08100000
abbrev cfEvt : Nat := 0x0A100000
abbrev cfEnd : Nat := 0x0A150000

/-- Size of a region by its start. -/
def cfSize (r : Nat) : Nat :=
  if r = cfLoader then 0x00100000
  else if r = cfFw then 0x08000000
  else if r < cfEvt then 0x400000
  else if r = cfEvt then 0x50000
  else 0

/-- Start of profile `p`, copy `c`. -/
def profBase (p c : Nat) : Nat := cfProf + 0x400000 * (2 * p + c)

/-- Start of the profile copy in use; `none` under fallback and before a profile is applied. -/
def State.copyInUse (s : State) : Option Nat :=
  if s.flag pSYS SYS.BOOT_STAT_FALLBACK ∨ s.boot.due then none
  else some (profBase (s.get pSYS SYS.BOOT_STAT_PROF) (s.get pSYS SYS.BOOT_STAT_COPY))

/-- CFW_RES codes. -/
abbrev cwOK : Nat := 0
abbrev cwDENIED : Nat := 1
abbrev cwRANGE : Nat := 2
abbrev cwFAIL : Nat := 3
abbrev cwBUSY : Nat := 4

/-- The refusal of an operation: DENIED before RANGE. -/
def State.cfwCheck (s : State) (op a n : Nat) : Nat :=
  let r := cfRegion a
  let writable := decide (s.lifeSt ≠ 2 ∧ s.lifeSt < 4)
  if 4 ≤ s.lifeSt ∨ (r = cfLoader ∧ !writable) ∨ s.copyInUse = some r ∨ r = cfEvt then cwDENIED
  else if r + cfSize r < a + n ∨ cfEnd ≤ a then cwRANGE
  else if op = 1 ∧ (a % 65536 ≠ 0 ∨ n % 65536 ≠ 0) then cwRANGE
  else if op = 2 ∧ (n = 0 ∨ 65536 < n) then cwRANGE
  else cwOK

/-- The outcome of an operation. -/
def State.cfwRes (s : State) (code : Nat) : State :=
  let s := if code = cwDENIED ∨ code = cwRANGE then s.err pPROF (blk 1) else s
  (s.setReg pPROF PROF.CFW_RES (2 ^ 31 + code)).ev pPROF (blk 0)

/-- A GO of CFW_CMD. -/
def State.cfwGo (s : State) (op : Nat) : State :=
  let s := s.set pPROF PROF.CFW_CMD_OP op
  if op = 0 ∨ 2 < op then s
  else if s.boot.op.isSome then s.setReg pPROF PROF.CFW_RES cwBUSY
  else
    let a := s.reg pPROF PROF.CFW_ADDR % 2 ^ 28
    let n := s.reg pPROF PROF.CFW_LEN % 2 ^ 28
    let c := s.cfwCheck op a n
    if c ≠ cwOK then s.cfwRes c
    else (s.setReg pPROF PROF.CFW_RES 0).setBoot { s.boot with op := some (op, a, n, s.reg64 pPROF PROF.CFW_SRC_LO) }

/-- A write of a CFW register, or of LIFE.ADV: only a local APC access reaches it. -/
def apcOnly (w : Writer) (p : Nat) (f : State → State × Code) (s : State) : State × Code :=
  match w with
  | .apc _ => s.actionWrite w p f
  | _ => (s, .writeRefused)

def State.cfwCmd (s : State) (w : Writer) (op : Nat) : State :=
  finish w pPROF (apcOnly w pPROF (fun s => (s.cfwGo op, .ok)) s)

def execCfErase (w : Writer) (s : State) : Outcome State Fault Refusal := .next (s.cfwCmd w 1)
def execCfProgram (w : Writer) (s : State) : Outcome State Fault Refusal := .next (s.cfwCmd w 2)

/-- Program data and verify it (R541): the code. -/
def State.cfwProgram (s : State) (a : Nat) (data : List Nat) (ok : Bool) : State × Nat :=
  let s := s.cfProgs a data
  (s, if ok && decide (s.cfBytes a data.length = data) then cwOK else cwFAIL)

/-- Erase sectors; a region whose start is erased is known again. -/
def State.cfwErase (s : State) (a n : Nat) : State :=
  let s := s.cfErase a n
  s.setBoot { s.boot with spoiled := s.boot.spoiled.filter (fun r => decide (r < a ∨ a + n ≤ r)) }

/-- A CF operation completes; `ok` false: the flash has failed it. -/
def execCfOpDone (ok : Bool) (s : State) : Outcome State Fault Refusal :=
  match s.boot.op with
  | none => .next s
  | some (op, a, n, src) =>
    let s := s.setBoot { s.boot with op := none }
    if op = 1 then .next ((s.cfwErase a n).cfwRes (if ok then cwOK else cwFAIL))
    else
      let s := s.l2Read src
      let r := s.cfwProgram a (s.memBytes src n) ok
      .next (r.1.cfwRes r.2)

/-! ## Byley images (R542 to R544) -/

/-- A record: type, CF offset of its header, RLEN. -/
structure ByRec where
  ty : Nat
  ofs : Nat
  len : Nat
deriving DecidableEq, Repr

/-- The records of an image from an offset to its end; `none`: they do not fill it exactly. -/
def State.byRecs (s : State) : Nat → Nat → Nat → Option (List ByRec)
  | 0, a, fin => if a = fin then some [] else none
  | n + 1, a, fin =>
    let len := s.cfLE (a + 4) 4
    if fin < a + 8 ∨ len < 8 ∨ len % 4 ≠ 0 ∨ fin < a + len then none
    else (s.byRecs n (a + len) fin).map ({ ty := s.cfByte a, ofs := a, len := len } :: ·)

/-- Whether a LOAD record fits its space. -/
def State.loadFits (s : State) (kind : Nat) (r : ByRec) : Bool :=
  let space := s.cfByte (r.ofs + 8)
  let idx := s.cfByte (r.ofs + 9)
  let a := s.cfLE (r.ofs + 12) 8
  let n := r.len - 20
  decide (20 ≤ r.len) &&
    (match space with
      | 0 => decide (kind = 2 ∧ ddrBase ≤ a ∧ a + n ≤ ddrEnd)
      | 1 => decide (kind = 2 ∧ idx < 32 ∧ a % 4 = 0 ∧ a + n ≤ 0x10000)
      | 2 => decide (kind = 2 ∧ idx < 32 ∧ a % 4 = 0 ∧ 0x10000 ≤ a ∧ a + n ≤ 0x20000)
      | 3 => decide (a % 4 = 0 ∧ a + n ≤ 0x4000000)
      | 4 | 5 => decide (kind = 2 ∧ a + n ≤ 0x40000)
      | _ => false)

/-- Whether a record is one its kind may hold, with a body of its size and a page a profile may name. -/
def State.recOk (s : State) (kind : Nat) (r : ByRec) : Bool :=
  let page := s.cfLE (r.ofs + 8) 2
  let off := s.cfLE (r.ofs + 10) 2
  let pageOk := decide (page < 4096) && (ownerPage page).isSome && !([pLIFE, pPROF, pKEYS].contains page)
  match r.ty with
  | 1 => decide (kind = 1 ∧ 12 ≤ r.len) && pageOk && !(decide (page = pSYS ∧ off < 0x400))
  | 2 => decide (kind = 1 ∧ r.len = 12) && pageOk
  | 3 => decide (kind = 1 ∧ r.len = 12)
  | 4 => decide (kind = 1 ∧ r.len = 12)
  | 5 => decide (kind = 2 ∨ kind = 3) && s.loadFits kind r
  | 6 => decide (kind = 2 ∧ r.len = 20)
  | _ => false

/-- Records of the image at a region, as far as they parse. -/
def State.imgRecs (s : State) (r : Nat) : List ByRec :=
  ((s.byRecs (s.cfLE (r + 0x14) 4) (r + 0x40) (r + s.cfLE (r + 0x0C) 4)).getD [])

/-- Whether the signature of an image verifies with the owner's key in slot 1. -/
def State.imgSigned (s : State) (r : Nat) : Bool :=
  let len := s.cfLE (r + 0x0C) 4
  match s.keyOf 1 4 with
  | none => false
  | some pub =>
    (s.cfByte (r + 7)).testBit 0 && decide (s.cfBytes (r + 0x20) 8 = (sha256 pub).take 8) &&
      edVerify pub (s.cfBytes r len) (s.cfBytes (r + len) 64)

/-- Whether the image at a region is valid (R544). -/
def State.imgOk (s : State) (r kind profile : Nat) (signed : Bool) : Bool :=
  let len := s.cfLE (r + 0x0C) 4
  let sig := (s.cfByte (r + 7)).testBit 0
  !s.boot.spoiled.contains r &&
    decide (s.cfLE r 4 = 0x594C5942 ∧ s.cfByte (r + 4) = kind ∧ s.cfByte (r + 5) = 1) &&
    decide (s.cfByte (r + 6) = if kind = 1 then profile else 0xFF) &&
    decide (s.cfByte (r + 7) < 2 ∧ 0x40 ≤ len ∧ len % 4 = 0 ∧ len + (if sig then 64 else 0) ≤ cfSize r) &&
    (match s.byRecs (s.cfLE (r + 0x14) 4) (r + 0x40) (r + len) with
      | some l => l.all (fun x => s.recOk kind x)
      | none => false) &&
    decide (crc32c (s.cfBytes r 0x10 ++ [0, 0, 0, 0] ++ s.cfBytes (r + 0x14) (len - 0x14)) = s.cfLE (r + 0x10) 4) &&
    !(decide (kind = 1 ∧ s.cfLE (r + 8) 4 = 0xFFFFFFFF)) && (!signed || s.imgSigned r)

/-- Whether a profile copy is valid, and its GEN as boot records it. -/
def State.copyOk (s : State) (p c : Nat) : Bool := s.imgOk (profBase p c) 1 p (decide (s.lifeSt = 2))
def State.copyGen (s : State) (p c : Nat) : Nat := if s.copyOk p c then s.cfLE (profBase p c + 8) 4 else 0xFFFFFFFF

/-! ## The event area (R554) -/

/-- Whether a slot of the event area is erased. -/
def State.evtErased (s : State) (a : Nat) : Bool := (s.cfBytes a 64).all (fun b => b == 0xFF)

/-- The slot that the next entry takes: from index `i` on; a sector is erased before it is entered. -/
def State.evtSlot (s : State) : Nat → Nat → State × Nat
  | 0, i => (s, i)
  | n + 1, i =>
    let i := i % 5120
    let s := if i % 1024 = 0 then s.cfErase (cfEvt + 64 * i) 65536 else s
    if s.evtErased (cfEvt + 64 * i) then (s, i) else s.evtSlot n (i + 1)

/-- An entry becomes durable. -/
def State.evtWrite (s : State) (payload : List Nat) : State :=
  let ofs := s.reg pSYS SYS.EVT_OFS
  let r := s.evtSlot 1025 (if ofs = 0 then 0 else (ofs - cfEvt) / 64 + 1)
  let s := r.1
  let a := cfEvt + 64 * r.2
  let seq := (s.reg pSYS SYS.EVT_HEAD + 1) % 2 ^ 32
  let b := [0xA1, 0xE7, 1, 0] ++ leBytes 4 seq ++ leBytes 4 (s.reg pSYS SYS.BOOT_CNT) ++ [0, 0, 0, 0] ++ payload.take 32 ++
    List.replicate 12 0
  let s := s.cfProgs a (b ++ leBytes 4 (crc32c b))
  (s.setReg pSYS SYS.EVT_HEAD seq).setReg pSYS SYS.EVT_OFS a

def execEventAreaWrite (s : State) : Outcome State Fault Refusal :=
  match s.evtQueue with
  | [] => .next s
  | e :: r => .next (({ s with evtQueue := r } : State).evtWrite e)

/-! ## Resets (R535, R536, R552) -/

/-- PROF_SEL is sampled: PIN and NEXT. -/
def State.profSel (s : State) (p : Nat) : State :=
  (s.set pSYS SYS.PIN_PROF_SEL p).set pPROF ⟨PROF.NEXT, 1, 0⟩ p

/-- The level of TEST_EN at the release of a reset (R590): high, it keeps the RD domain in reset. -/
def State.testHold (s : State) (testEn : Bool) : State :=
  let s := s.setBoot { s.boot with testEn := testEn }
  if testEn then s.setDom .rd .resting else s

/-- RESET_L low for 1 µs or more, and its release (cause 2). -/
def execResetPin (sel : Fin 4) (testEn : Bool) (s : State) : Outcome State Fault Refusal :=
  let s := s.setBoot { s.boot with testEn := false }
  .next ((((s.resetDoms 2 domsDevice).toRun).profSel sel).testHold testEn)

/-- VAON has been below its threshold (cause 1): everything but what flash, fuses, drives and key store keep returns to
its reset value; the power path starts by VAUX (R515). -/
def State.powerOn (s : State) (sel vaux vbak : Nat) : State :=
  let f := s.free
  let z := State.reset
  let boot := s.get pBEADS BEADS.DEV_STAT_BOOT
  let life := s.word pLIFE LIFE.STATE
  let ser := s.reg64 pLIFE LIFE.SERIAL_LO
  let mac := s.reg64 pLIFE LIFE.MAC_LO
  let head := s.word pSYS SYS.EVT_HEAD
  let ofs := s.word pSYS SYS.EVT_OFS
  let spoiled := match s.boot.op with
    | some o => s.boot.spoiled ++ [cfRegion o.2.1]
    | none => s.boot.spoiled
  let n : State := { z with
    cf := s.cf, keys := { s.keys with cmd := none }
    store := { s.store with round := none, again := false, wait := [], repl := [], parts := [], acks := [], nsOp := [0, 0] }
    bist := { fuses := s.bist.fuses }, out := s.out, freeCtr := f.2.freeCtr, pending := s.pending
    boot := { spoiled := spoiled } }
  let n := ((n.setWord pLIFE LIFE.STATE life).setReg64 pLIFE LIFE.SERIAL_LO ser).setReg64 pLIFE LIFE.MAC_LO mac
  let n := (n.setWord pSYS SYS.EVT_HEAD head).setWord pSYS SYS.EVT_OFS ofs
  let n := n.beadsReset boot
  let n := n.setReg pSYS SYS.RST_CAUSE (255 * 2 ^ 16 + 1)
  let n := (n.incFW pSYS ⟨SYS.BOOT_CNT, 31, 16⟩).profSel sel
  let n := (n.setReg pSUP SUP.VAUX vaux).setReg pSUP SUP.VBAK vbak
  let ok := decide (1900 ≤ vaux)
  let n := (n.setB pSUP SUP.STAT_VAUX_OK ok).set pSUP SUP.STAT_PATH (if ok then ppAUX else ppBAK)
  n.evtPost (evtPayload 0 1 (leBytes 4 (n.reg pSYS SYS.RST_CAUSE)))

def execPowerOnReset (sel : Fin 4) (vaux vbak : Fin 65536) (testEn : Bool) (s : State) : Outcome State Fault Refusal :=
  .next ((s.powerOn sel vaux vbak).testHold testEn)

/-- A write of RST_CMD (R535, R556). -/
def State.rstCmd (s : State) (v : Nat) : State :=
  let scope := v % 16
  if v / 2 ^ 16 ≠ 0xB007 then s.err pSYS (blk 0)
  else if scope = 1 then (s.resetDoms 4 domsDevice).toRun
  else if scope = 2 then s.resetDoms 4 domsRd
  else if 4 ≤ scope ∧ scope ≤ 7 then s.resetDoms 4 [.fd (scope - 4)]
  else s

def execSoftwareReset (w : Writer) (key : Fin 65536) (scope : Fin 16) (s : State) : Outcome State Fault Refusal :=
  .next (finish w pSYS (s.actionWrite w pSYS (fun s => (s.rstCmd (key.val * 2 ^ 16 + scope.val), .ok))))

/-- A write of SEL_CMD (R552). -/
def State.selCmd (s : State) (v : Nat) : State × Code :=
  let p := v % 4
  if !v.testBit 31 then (s.setReg pPROF PROF.SEL_CMD p, .ok)
  else if s.dev ≠ dvQUIET ∨ s.flag pREST REST.STAT_WAKING then refuse s pPROF (blk 0) .writeRefused
  else
    let s := (s.setReg pPROF PROF.SEL_CMD p).set pPROF ⟨PROF.NEXT, 1, 0⟩ p
    ((s.resetDoms 5 domsProfile).toRun, .ok)

def execProfileSelect (w : Writer) (p : Fin 4) (s : State) : Outcome State Fault Refusal :=
  .next (finish w pPROF (s.actionWrite w pPROF (fun s => s.selCmd (2 ^ 31 + p.val))))

/-! ## Life-cycle states (R538) -/

/-- ADV_RES. -/
def State.advRes (s : State) (code : Nat) : State := s.setReg pLIFE LIFE.ADV_RES (2 ^ 31 + code)

/-- The precondition of a transition. -/
def State.advPre (s : State) : Bool :=
  if s.lifeSt = 1 then s.imgOk cfLoader 3 0xFF true else decide (s.lifeSt < 4)

/-- What a new state does before the reset. -/
def State.advAction (s : State) (t : Nat) : State :=
  if t = 1 then
    let k := State.freeBytes 32 s
    k.2.setSlot 0 2 k.1
  else if t = 3 then s.eraseSlots
  else s

/-- How the fuses of an advance burn: both rows, one before a reset or power loss, or not at all. -/
def State.advance (s : State) (key t burn : Nat) : State × Code :=
  let old := s.lifeSt
  if key ≠ 0x11FE then ((s.advRes 1).err pLIFE (blk 0), .ok)
  else if t ≠ old + 1 then ((s.advRes 2).err pLIFE (blk 0), .ok)
  else if !s.advPre then ((s.advRes 3).err pLIFE (blk 0), .ok)
  else if burn = 2 then (s.advRes 4, .ok)
  else if burn = 1 then (s.set pLIFE LIFE.STATE_FUSE_PART 1, .ok)
  else
    let s := (s.advAction t).setReg pLIFE LIFE.STATE t
    let s := s.evtPost (evtPayload s.aonCnt 3 [old, t])
    (((s.advRes 0).resetDoms 6 domsDevice).toRun, .ok)

/-- A write of LIFE.ADV; `burn`: 0 both rows, 1 interrupted after one row, 2 the fuses fail. -/
def execLifeAdvance (w : Writer) (key : Fin 65536) (t : Fin 8) (burn : Fin 3) (s : State) : Outcome State Fault Refusal :=
  .next (finish w pLIFE (apcOnly w pLIFE (fun s => s.advance key t burn) s))

/-! ## The resident loader's requests (R550, R551) -/

/-- The loader answers. -/
def State.loaderSay (s : State) (w : Writer) (code : Nat) (l : List Nat) : State :=
  s.send (.loaderReply w ([code, 0, 0, 0] ++ l))

/-- Whether the loader takes a request: in loader mode, from a session or a device. -/
def State.loaderOn (s : State) (w : Writer) : Bool := s.flag pSYS SYS.BOOT_STAT_LOADER && w.isRemote

/-- CF range of a request's region; `none`: malformed. -/
def loaderRegion (r : Nat) : Option Nat :=
  if r = 1 then some cfFw else if 0x10 ≤ r ∧ r < 0x18 then some (cfProf + 0x400000 * (r - 0x10)) else none

def execLoaderStatus (w : Writer) (s : State) : Outcome State Fault Refusal :=
  let g (f : Nat → Nat) : List Nat := (List.range 4).flatMap (fun p => leBytes 4 (s.reg pPROF (f p)))
  .next (if s.loaderOn w then
      s.loaderSay w 0 (leBytes 4 (s.reg pSYS SYS.BOOT_STAT) ++ g PROF.GEN_A ++ g PROF.GEN_B)
    else s)

/-- ERASE and WRITE act through the CF engine: the check, the operation, its result. -/
def State.loaderOp (s : State) (w : Writer) (op r ofs n : Nat) (bad : Bool) (go : State → Nat → State × Nat) : State :=
  match loaderRegion r with
  | none => s.loaderSay w cwRANGE []
  | some base =>
    if bad ∨ 0x8000000 < ofs then s.loaderSay w cwRANGE []
    else if s.boot.op.isSome then s.loaderSay w cwBUSY []
    else
      let c := if cfRegion (base + ofs) ≠ base then cwRANGE else s.cfwCheck op (base + ofs) n
      if c ≠ cwOK then (s.cfwRes c).loaderSay w c []
      else
        let x := go s (base + ofs)
        (x.1.cfwRes x.2).loaderSay w x.2 []

def execLoaderErase (w : Writer) (r : Fin 256) (ofs len : Word) (s : State) : Outcome State Fault Refusal :=
  let n := len.toNat
  .next (if s.loaderOn w then
      s.loaderOp w 1 r ofs.toNat n (decide (n % 65536 ≠ 0)) (fun s a => (s.cfwErase a n, cwOK))
    else s)

def execLoaderWrite (w : Writer) (r : Fin 256) (ofs : Word) (data : List Nat) (s : State) : Outcome State Fault Refusal :=
  .next (if s.loaderOn w then
      s.loaderOp w 2 r ofs.toNat data.length (decide (data.length = 0 ∨ 2016 < data.length))
        (fun s a => s.cfwProgram a data true)
    else s)

def execLoaderReset (w : Writer) (s : State) : Outcome State Fault Refusal :=
  .next (if s.loaderOn w then
      (((s.loaderSay w 0 []).resetDoms 4 domsDevice).toRun)
    else s)

/-! ## Registers -/

/-- Writes of SYS, LIFE and PROF registers with rules of their own. -/
def State.sysRegWrite (s : State) (off : Nat) (v : Word) : Option (State × Code) :=
  if off = SYS.RST_CMD then some (s.rstCmd v.toNat, .ok) else none

def State.lifeRegWrite (s : State) (w : Writer) (off : Nat) (v : Word) : Option (State × Code) :=
  if off = LIFE.ADV then some (apcOnly w pLIFE (fun s => s.advance (v.toNat / 2 ^ 16) (v.toNat % 8) 0) s) else none

def State.profRegWrite (s : State) (w : Writer) (off : Nat) (v : Word) : Option (State × Code) :=
  if off = PROF.SEL_CMD then some (s.selCmd v.toNat)
  else if off = PROF.CFW_CMD then
    some (apcOnly w pPROF (fun s =>
      (if v.getLsbD 31 then s.cfwGo (v.toNat % 4) else s.set pPROF PROF.CFW_CMD_OP v.toNat, .ok)) s)
  else if PROF.CFW_ADDR ≤ off ∧ off ≤ PROF.CFW_SRC_HI then
    match w with
    | .apc _ => none
    | _ => some (s, .writeRefused)
  else none

/-- Computed SYS registers. -/
def State.sysReg (s : State) (off : Nat) : Option Nat :=
  if off = SYS.ID then some (0x24100000 + Config.stepping % 256 * 256)
  else if off = SYS.RST_CMD then some 0
  else s.evrReg off

end Sys2Proof.Machine
end

