-- ==== Sys2Proof/Machine/Views.lean ====
section
/-! DEFINITION. What a read of board space returns: computed registers, the common header (R34, R35), and the
shadow of the high words of a wide register (R30). -/

namespace Sys2Proof.Machine

/-! ## Wide registers (R30) -/

/-- The registers wider than 32 bits of a page type: offset of the low word, array, number of words. -/
def wides : PType → List (Nat × List (Nat × Nat) × Nat)
  | .beam => [(BEAM.NOW_SEC_LAT_LO, [], 2), (BEAM.SNAP_SEC_LO, [], 2), (BEAM.SET_SEC_LO, [], 2)]
  | .frame => [(FRAME.CG_ANCHOR_LO 0, [(24, 0x20)], 2)]
  | .prot => [(PROT.MOD_ID_LO 0, [(3, 8)], 2), (PROT.DMG_LO 0, [(3, 8)], 2)]
  | .acq => [(0x400, [(256, 12)], 3)]
  | .tdig => [(TDIG.DRAIN_BASE_LO, [], 2)]
  | .beads => [(BEADS.EXPIRY_LO, [], 2), (0x324, [(5, 8)], 2), (0x364, [], 2)]
  | .cea => [(CEA.SNAP_BASE_LO, [], 2), (0xA00, [(24, 0x30), (6, 8)], 2)]
  | .eis => [(EIS.RES_BASE_LO, [], 2)]
  | .mbus => [(MBUS.MSG_BASE_LO, [], 2), (MBUS.KEYID_LO 0, [(24, 8)], 2), (MBUS.RX0_W 0, [], 19), (MBUS.RX1_W 0, [], 19)]
  | .therm => [(THERM.TRIP_LATCH_LO, [], 2), (THERM.WARN_LO, [], 2), (THERM.BROKEN_LO, [], 2)]
  | .fabr => [(FABR.TXQ_BASE_LO, [], 2), (FABR.BULK_BASE_LO, [], 2)]
  | .gate => [(0x064, [], 2), (0x070, [], 2), (0x078, [], 2), (0x08C, [], 2)]
  | .keys => [(0x048, [], 2), (0x054, [], 2)]
  | .eth => [(0x048, [], 2), (0x054, [], 4), (0x068, [], 2), (0x07C, [], 2)]
  | .tally => [(0x050, [], 2), (0x068, [], 2), (0x080, [(6, 0x10), (2, 8)], 2), (0x144, [], 2)]
  | .nvme => [(0x050, [], 2)]
  | .apc => [(0x048, [], 2), (0x064, [], 2), (0x078, [], 2), (0x080, [], 2), (0x088, [(4, 8)], 2)]
  | .sup => [(0x050, [], 2), (0x074, [], 2)]
  | .aon => [(0x040, [], 2), (0x048, [], 2)]
  | .life => [(0x04C, [], 2), (0x054, [], 2)]
  | .prof => [(0x08C, [], 2)]
  | _ => []

/-- The wide register that a word belongs to: offset of its low word, number of words. -/
def wideAt (p off : Nat) : Option (Nat × Nat) :=
  match pageType p with
  | none => none
  | some t =>
    (wides t).findSome? (fun e =>
      ((List.range e.2.2).find? (fun i =>
        decide (e.1 + 4 * i ≤ off) && dimsHit e.2.1 (off - (e.1 + 4 * i)))).map (fun i => (off - 4 * i, e.2.2)))

/-! ## The header -/

/-- The block status of PG_STAT.BLK: the low half of the page's status register. -/
def State.pageBlk (s : State) (p : Nat) : Nat :=
  let own (o : Nat) (r : Option Nat) : Nat := (r.getD (s.reg p o)) % 65536
  match pageType p with
  | some .sys => own SYS.BOOT_STAT none
  | some .sup => own SUP.STAT none
  | some .clk => own CLK.STAT none
  | some .rest => own REST.STAT none
  | some .beam => own BEAM.STAT none
  | some .safe => own SAFE.STAT none
  | some .spair => own SPAIR.STAT none
  | some .apc => own APC.STAT none
  | some .dbg => own DBG.STAT none
  | some .gate => own GATE.STAT (s.gateReg GATE.STAT)
  | some .keys => own KEYS.STAT none
  | some .tally => own TALLY.STAT none
  | some .nvme => own NVME.STAT none
  | some .eth => own ETH.STAT (s.ethReg (pageInst p) ETH.STAT)
  | some .fab => own FAB.STAT none
  | some .fabr => own FABR.STAT (s.fabrReg FABR.STAT)
  | some .disc => own DISC.STAT (s.discReg DISC.STAT)
  | some .beads => own BEADS.DEV_STAT (s.beadsReg BEADS.DEV_STAT)
  | some .cea => own CEA.STAT (s.ceaReg CEA.STAT)
  | some .eis => own EIS.STAT none
  | some .therm => own THERM.STAT none
  | some .step => own STEP.STATUS none
  | some .pcnt => own PCNT.ERR none
  | some .bist => own BIST.LB_STAT none
  | some .fdc => own FDC.PWR_STAT none
  | some .tdig => own TDIG.BUF_STAT none
  | some .mbus => own MBUS.STAT none
  | some .reck => own RECK.STATUS none
  | some .rod => own ROD.STATUS none
  | some .loop => own LOOP.STAT none
  | some .glk => own GLK.UP_MAP none
  | some .acq => own ACQ.STATUS none
  | some .prot => own PROT.STATUS none
  | _ => 0

/-- PG_STAT (R35). -/
def State.pageStat (s : State) (p : Nat) : Nat :=
  let x := s.pg p
  s.pageBlk p * 2 ^ 16 + b2n (decide (s.get p PG.INJ_SHOTS ≠ 0)) * 2 ^ 13 + b2n (s.locked p) * 2 ^ 12 +
    b2n (decide (x.staged ≠ [])) * 2 ^ 11 + b2n x.applyPending * 2 ^ 10 + b2n x.lease.isSome * 2 ^ 9 +
    (s.dom (pageDom p)).num * 2 ^ 4 + s.reg p PG.STAT % 4

/-- PG_WO_MAP: PG_CTL is the first register of a page that holds a WO1 field, WDT_CFG of APC its second. -/
def State.woMap (s : State) (p : Nat) : Nat :=
  b2n (s.locked p) + 2 * b2n (decide (p = pAPC) && s.flag pAPC APC.WDT_CFG_EN)

/-- A header register that is computed. -/
def State.hdrReg (s : State) (p off : Nat) : Option Nat :=
  if off = PG.ID then
    some (((pageRow p).map PRow.first).getD 0 * 2 ^ 20 + pageInst p * 2 ^ 12 +
      (Config.pgVersion (((pageRow p).map PRow.first).getD 0)).toNat)
  else if off = PG.STAT then some (s.pageStat p)
  else if off = PG.LEASE then some (leaseWord (s.pg p).lease)
  else if off = PG.COMMIT then some (b2n (s.pg p).applyPending * 2 ^ 31 + (s.pg p).staged.length)
  else if off = PG.WO_MAP then some (s.woMap p)
  else none

/-! ## Reads -/

/-- The SC bits of a command register whose actions run (R39): the command words that the estimator takes at its
next round, a rod that waits for an impedance run, a flush round, an impending bus-off recovery and a head being
aborted, a stop and a home move, the stages of a START in OFF and the diagnostic steps of a RUN (log 196). -/
def State.scBits (s : State) (t : PType) (i off : Nat) : Option Nat :=
  match t with
  | .cea =>
    if off = CEA.CELL_CMD then some (maskOf ((List.range 4).filter (fun b => s.cea.cmds.any (fun c => c.op == b)))) else none
  | .eis => if off = EIS.REQ then some (maskOf (allRods.filter (fun r => (s.eisX r).due))) else none
  | .tally => if off = TALLY.CMD then some (2 * b2n s.store.round.isSome) else none
  | .step =>
    if off = STEP.CMD then some (b2n (decide (s.stepSt i = skSTOPPING)) + 4 * b2n (decide (s.stepSt i = skHOMING))) else none
  | .mbus =>
    if off = MBUS.CMD then some (b2n (s.mb i).abort + 2 * b2n ((s.mb i).boOk && decide (s.mbSt i = mbBUSOFF))) else none
  | .prot => if off = PROT.CMD then some (b2n (s.rod i).start.isSome + 2 * b2n (decide ((s.rod i).diagStep ≠ 0))) else none
  | _ => none

/-- A computed block register, `none` where the board holds the value. -/
def State.viewReg (s : State) (p off : Nat) : Option Nat :=
  let i := pageInst p
  let busy (o : Nat) (b : Bool) : Option Nat :=
    if off = o then some (s.reg p o % 2 ^ 31 + 2 ^ 31 * b2n b) else none
  match pageType p with
  | none => none
  | some t =>
    if off < 0x40 then s.hdrReg p off
    else if (s.scBits t i off).isSome then s.scBits t i off
    else match t with
      | .sys => s.sysReg off
      | .life => if off = LIFE.ADV then some 0 else none
      | .prof => busy PROF.CFW_CMD s.boot.op.isSome
      | .aon => s.aonReg off
      | .rest => s.restReg off
      | .apc => s.apcReg off
      | .gate => s.gateReg off
      | .keys => if off = KEYS.CMD then busy KEYS.CMD s.keys.cmd.isSome else s.keysReg off
      | .nvme => busy NVME.NS_CMD (decide (s.store.nsOp.getD i 0 ≠ 0))
      | .eth => s.ethReg i off
      | .fabr => s.fabrReg off
      | .disc => s.discReg off
      | .beads => s.beadsReg off
      | .cea => s.ceaReg off
      | .therm => s.thermReg off
      | .stepc => s.stepcReg off
      | .bist => if off = BIST.DTE_CMD then busy BIST.DTE_CMD s.bist.dte.isSome else s.bistReg off
      | .inj => s.injReg off
      | .mbus => s.mbusReg i off
      | .glk => busy GLK.REQ_CTL (s.reqBusy i)
      | .fdc =>
        if off = FDC.CAL_OFS then some (s.calRead i SliceX.ofs).toNat
        else if off = FDC.CAL_GAIN then some (s.calRead i SliceX.gain).toNat
        else if off = FDC.CAL_SKEW then some (s.calRead i SliceX.skew).toNat
        else none
      | _ => none

/-- The value of a word, without effect. -/
def State.peek (s : State) (p off : Nat) : Word :=
  match s.viewReg p off with
  | some v => wordOf v
  | none => s.word p off

/-- Read a word, with the effects of the registers whose reads act. -/
def State.readReg (s : State) (p off : Nat) : State × Word :=
  match pageType p with
  | some .beam => if off = BEAM.NOW_NS then s.readNowNs else (s, s.peek p off)
  | some .reck =>
    match s.reckRegRead (pageInst p) off with
    | some r => (r.1, wordOf r.2)
    | none => (s, s.peek p off)
  | some .mbus =>
    match (List.range 24).find? (fun a => off == MBUS.MOD_STAT a) with
    | some a => let r := s.modStatRead (pageInst p) a
      (r.2, r.1)
    | none => (s, s.peek p off)
  | _ => (s, s.peek p off)

/-- The shadow of a high word: what the last read of its low word latched; before the first, the word itself. -/
def State.shadowWord (s : State) (p off : Nat) : Word :=
  (tabGet (fun _ => none) s.shadows (bkey p off)).getD (s.peek p off)

/-- Latch the high words of a wide register. -/
def State.latchHigh (s : State) (p low n : Nat) : State :=
  (List.range (n - 1)).foldl (fun (s : State) j =>
    { s with shadows := tabPut (fun _ => none) s.shadows (bkey p (low + 4 * (j + 1))) (some (s.peek p (low + 4 * (j + 1)))) }) s

/-- Read a word of a page whose domain is active (R30). -/
def State.readWord (s : State) (p off : Nat) : State × Word :=
  match wideAt p off with
  | none => s.readReg p off
  | some (low, n) => if off = low then (s.latchHigh p low n, s.peek p low) else (s, s.shadowWord p off)

end Sys2Proof.Machine
end

