-- ==== Sys2Proof/Machine/Access.lean ====
section
/-! DEFINITION. Writes to board space: every block register under its own rule (R39, R40, R615), the header
(R36 to R38, R46, R47, R50, R52, R53), commits (R43 to R45), accesses to resting domains (R54), and bursts (R32). -/

namespace Sys2Proof.Machine

/-! ## Commits (R43 to R45) -/

/-- A block's own refusal of a commit, judged on the values the staged words would give: the PG_ERR bit of every
case it falls under; empty where it is accepted. -/
def State.commitDenied (s : State) (p : Nat) : List Nat :=
  let i := pageInst p
  let b (x : Bool) : List Nat := holds [(x, blk 0)]
  match pageType p with
  | none => []
  | some t =>
    match t with
    | .frame => s.frameDenied
    | .beam => s.beamDenied
    | .rod => s.rodDenied i
    | .prot => s.protDenied i
    | .glk => s.glkDenied i
    | .loop => s.loopDenied i
    | .acq => s.acqDenied i
    | .fdc => s.fdcDenied i
    | .tdig => s.tdigDenied i
    | .reck => s.reckDenied i
    | .beads => s.beadsDenied
    | .cea => s.ceaDenied
    | .eis => s.eisDenied
    | .mbus => s.mbusDenied i
    | .therm => b s.thermDenied
    | .step => b (s.stepDenied i)
    | .stepc => b s.stepcDenied
    | .pcnt => b (s.cntDenied i)
    | .fab => s.fabDenied i
    | .eth => s.ethDenied i
    | .tally => s.tallyDenied
    | .nvme => s.nvmeDenied i
    | .sup => s.supDenied
    | .bist => s.bistDenied
    | _ => []

/-- What a block does when a commit of its page has applied, `s0` being the state before. -/
def State.commitHook (s0 s : State) (p : Nat) : State :=
  let i := pageInst p
  match pageType p with
  | none => s
  | some t =>
    match t with
    | .frame => s0.frameApplied s
    | .rod => s.rodApplied i
    | .prot => s0.protApplied s i
    | .glk => s0.glkApplied s i
    | .loop => s0.loopApplied s i
    | .acq => s0.acqApplied s i
    | .fdc => s0.fdcApplied s i
    | .tdig => s.tdigApplied i
    | .mbus => s0.mbusApplied s i
    | .therm => s.thermApply
    | .gate => s.gateApplied
    | .bist => s0.bistApplied s
    | .beads => s.placeRun.beadStart.homeRoles
    | .cea | .eis => s.eisTrack
    | .fab | .fabr | .disc => s.fabConfig
    | _ => s

/-- The pending set of a page applies. -/
def State.commitApply (s : State) (p : Nat) : State :=
  if !(s.pg p).applyPending then s
  else if p = pBEAM then s.beamSetApply
  else s.commitHook (s.applyCommit p) p

/-- Whether the apply point of a page has yet to come: BEAM's is the next whole second (R68), ROD's the next cutoff
and LOOP's the next period frame of a rod whose generator runs (R111, R264); every other is immediate. -/
def State.appliesLater (s : State) (p : Nat) : Bool :=
  match pageType p with
  | some .beam => true
  | some .rod | some .loop => s.genRunning (s.genOf (pageInst p))
  | _ => false

/-- A commit request (R43); one in the cycle of a lease's expiry is refused (R49), the cycle being the beam tick
(log 171). -/
def State.commitReq (s : State) (w : Writer) (p : Nat) (v : Word) : State × Code :=
  if s.leasedByOther w p ∨ (s.pg p).lapsed = some (s.beam.t / 640) then refuse s p 4 .writeRefused
  else if (s.pg p).applyPending then refuse s p 2 .busy
  else if v.toNat ≠ s.reg p PG.GEN then refuse s p 6 .writeRefused
  else
    match s.commitDenied p with
    | [] =>
      let x := s.pg p
      let s := s.setPg p { x with staged := [], pending := x.staged, applyPending := true }
      let s := if s.appliesLater p then s else s.commitApply p
      (if p = pFRAME then s.applyStopped else s, .ok)
    | l => refuseAll s p l .writeRefused

/-! ## The enable (R52, R53) -/

/-- What a block does when its enable changes. -/
def State.enHook (s : State) (p : Nat) (en : Bool) : State :=
  let i := pageInst p
  let s := match pageType p with
    | none => s
    | some t =>
      match t, en with
      | .prot, false => s.descentCause i dcSTOP
      | .beads, true => s.beadStart
      | .beads, false => s.beadsDisable
      | .cea, true => s.ceaEnable
      | .cea, false => s.ceaDisable
      | .eis, false => s.eisDisable
      | .loop, true => s.loopEnable i
      | .loop, false => s.loopDisable i
      | .mbus, true => s.mbusStart i
      | .mbus, false => s.mbusDisable i
      | .step, true => s.stepEnable i
      | .step, false => s.stepDisable i
      | .tally, true => s.tallyEnable
      | .tally, false => s.tallyDisable
      | .nvme, true => s.nvmeEnable i
      | .nvme, false => s.nvmeDisable i
      | .fab, true => s.linkStart i
      | .fab, false => s.linkDown i
      | .gate, false => s.closeAll 6
      | .inj, false => s.injOff
      | .reck, false => s.reckDisable i
      | _, _ => s
  if pageType p = some .reck ∨ (pageType p = some .tally ∧ s.flag p PG.STAT_SHUTTING) then s
  else s.setB p PG.STAT_ENABLED en

/-- Whether the self-test has found the capture buffer that a page needs beyond repair (R565): that of its die for
TDIG, that of any die for the CEA. -/
def State.bufBad (s : State) (p : Nat) : Bool :=
  let bad (k : Nat) : Bool := s.bist.info.any (fun e => e.1 == 0x44 + k && e.2.unrep)
  match pageType p with
  | some .tdig => bad (pageInst p)
  | some .cea => (List.range 4).any bad
  | _ => false

/-- A write of EN reaches the block: a reckoner may refuse (R213, R215); PROT and RECK act on every write, the others on
a change. -/
def State.enWrite (s : State) (p : Nat) (en : Bool) : State × Code :=
  let old := s.en p
  if en && s.bufBad p then refuse s p (blk 0) .writeRefused
  else if pageType p = some .reck ∧ en then
    let r := s.reckEnable (pageInst p)
    if r.2 = .ok then (r.1.set p PG.CTL_EN 1, .ok) else r
  else
    let s1 := s.setB p PG.CTL_EN en
    if old != en || decide (!en && (pageType p = some .reck || pageType p = some .prot)) then (s1.enHook p en, .ok)
    else (s1, .ok)

/-! ## Domains that rest (R53 to R55, R522) -/

/-- What a write of PWR_REQ does to the page's domain. -/
def State.pwrReq (s : State) (p : Nat) : State :=
  let d := pageDom p
  let r := s.get p PG.CTL_PWR_REQ
  if s.dev = dvDEEP then s
  else if r = 1 then s.wakeDom d
  else if pageType p = some .fdc ∧ s.dev ≤ dvQUIET then
    if r = 2 then (if s.dom d = .active ∧ s.mayRest d then s.setDom d .draining else s)
    else s.wakeDom d
  else s

/-- The EN changes that waited for a domain apply (R53). -/
def State.enWaited (s : State) (d : Dom) : State :=
  (s.pages.map Prod.fst).foldl (fun (s : State) p =>
    if pageDom p = d then
      match (s.pg p).enWait with
      | some e => ((s.setPg p { s.pg p with enWait := none }).enWrite p e).1
      | none => s
    else s) s

/-! ## Header writes -/

/-- A write of PG_CTL (R36, R46, R47, R50, R52, R53, R615). -/
def State.pgCtlWrite (s : State) (w : Writer) (p : Nat) (v : Word) : State × Code :=
  let other := s.leasedByOther w p
  let en := v.getLsbD 0
  if other && PG.CTL_LEASE_REQ.read v = 1 then refuse s p 2 .busy
  else if en && s.flag p PG.STAT_SHUTTING then s.refuseShutting w p
  else if other && !s.kernelWrites w then refuse s p 4 .writeRefused
  else
    let active := decide (s.dom (pageDom p) = .active)
    let r := if active then s.enWrite p en else (s.setPg p { s.pg p with enWait := some en }, .ok)
    if r.2 ≠ .ok then r
    else
      let s := r.1
      let s := s.set p PG.CTL_LEASE_TIME (PG.CTL_LEASE_TIME.read v)
      let s := s.set p PG.CTL_PWR_REQ (PG.CTL_PWR_REQ.read v)
      let s := if PG.CTL_LOCK.read v = 1 ∧ !s.locked p then
          let s := s.set p PG.CTL_LOCK 1
          if p = pSAFE then s.safeLocked else s
        else s
      let s := if PG.CTL_DISCARD.read v = 1 ∧ !other then s.setPg p { s.pg p with staged := [] } else s
      let s := if PG.CTL_LEASE_REL.read v = 1 ∧ s.holdsLease w p then s.endLease p else s
      let s := if PG.CTL_LEASE_REQ.read v = 1 then
          let t := PG.CTL_LEASE_TIME.read v
          let l : Lease := { owner := w, remain := if t = 0 then 2000 else 100 * t }
          if s.holdsLease w p then s.setPg p { s.pg p with lease := some l }
          else s.setPg p { s.pg p with lease := some l, staged := [] }
        else s
      (s.pwrReq p, .ok)

/-- A write of PG_INJ (R38, R570, R571). -/
def State.injWrite (s : State) (w : Writer) (p : Nat) (v : Word) : State × Code :=
  s.actionWrite w p (fun s =>
    if PG.INJ_SHOTS.read v = 0 then (s.setReg p PG.INJ (v.toNat % 256), .ok)
    else
      match s.injPoint p (PG.INJ_POINT.read v) with
      | some r =>
        if s.en pINJ && s.injSafe r then (s.setReg p PG.INJ (v.toNat % 65536), .ok) else (s.injDeny p, .writeRefused)
      | none => (s.injDeny p, .writeRefused))

/-! ## Block registers -/

/-- Whether a register holds only RW, SC and RO bits: then a write of the SPC passes a lease (R48). -/
def rwSc (p off : Nat) : Bool :=
  match regAt p off with
  | some r => decide (r.bits .wl = 0 ∧ r.bits .st = 0 ∧ r.bits .wo1 = 0 ∧ r.bits .w1c = 0)
  | none => true

/-- A write under a block's own rule, after the lease check; where the block has none, under the access codes. -/
def State.ownWrite (s : State) (w : Writer) (p off : Nat) (v : Word) (f : Option (State × Code)) : State × Code :=
  match f with
  | none => s.plainWrite w p off v
  | some r => if leaseRefuses s w p false (rwSc p off) then refuse s p 4 .writeRefused else r

/-- A write of a word that takes effect beyond the register. -/
def State.thenDo (r : State × Code) (f : State → State) : State × Code := if r.2 = .ok then (f r.1, .ok) else r

/-- Sequencer table words: die, converter, entry, word (R62, R178). -/
def seqOf (p off : Nat) : Option (Nat × Nat × Nat × Nat) :=
  let a := (p - 0x800) % 2 * 4096 + off
  if a < 6144 then some ((p - 0x800) / 2, a / 512, a / 8 % 64, a / 4 % 2) else none

/-- A write to a table page (R62). -/
def State.tableWrite (s : State) (w : Writer) (p off : Nat) (v : Word) : State × Code :=
  if p < 0x808 then
    match seqOf p off with
    | some (k, c, e, i) => s.seqTableWrite w k c e i v
    | none => s.plainWrite w p off v
  else if p < 0x880 then s.binWrite w ((p - 0x820) / 4) ((p - 0x820) % 4 * 1024 + off / 4) v
  else if 0xA00 ≤ p ∧ s.chemDenied then
    if leaseRefuses s w pCEA false true then refuse s pCEA 4 .writeRefused else refuse s pCEA (blk 2) .writeRefused
  else s.plainWrite w p off v

/-- A write to a block register. -/
def State.blockWrite (s : State) (w : Writer) (p off : Nat) (v : Word) : State × Code :=
  let i := pageInst p
  let own := s.ownWrite w p off v
  let plain := s.plainWrite w p off v
  let act (f : State → State × Code) := s.actionWrite w p f
  match pageType p with
  | none => s.tableWrite w p off v
  | some t =>
    match t with
    | .beads =>
      if off = BEADS.HOME_CFG then State.thenDo (own (s.beadsRegWrite w off v)) (fun s => s.beadStart.homeRoles)
      else own (s.beadsRegWrite w off v)
    | .cea => own (s.ceaRegWrite off v)
    | .eis => own (s.eisRegWrite off v)
    | .reck => own (s.reckRegWrite i off v)
    | .loop => own (s.loopRegWrite i off v)
    | .mbus => own (s.mbusRegWrite i off v)
    | .therm => own (s.thermRegWrite off v)
    | .step => own (s.stepRegWrite i off v)
    | .pcnt => own (s.cntRegWrite i off v)
    | .safe => own (s.safeRegWrite off v)
    | .fabr => own (s.fabrRegWrite off v)
    | .gate => own (s.gateRegWrite off v)
    | .eth => own (s.ethRegWrite i off v)
    | .tally => own (s.tallyRegWrite off v)
    | .nvme => own (s.nvmeRegWrite i off v)
    | .bist => own (s.bistRegWrite off v)
    | .sys => own (s.sysRegWrite off v)
    | .life => own (s.lifeRegWrite w off v)
    | .prof => own (s.profRegWrite w off v)
    | .keys => if off = KEYS.CMD then act (fun s => s.keyCmdWrite v) else plain
    | .prot => if off = PROT.CMD then s.cmdWrite w i v else plain
    | .rod =>
      if off = ROD.REF_AB then s.refWrite w i off 0xFFFFFFFF v
      else if off = ROD.REF_C then s.refWrite w i off 0xFFFF v
      else plain
    | .glk => if off = GLK.REQ_CTL then s.reqCtlWrite w i v else plain
    | .acq =>
      if off = ACQ.SWTRIG then act (fun s => (s.swTrig i v, .ok))
      else
        match (List.range 12).find? (fun c => off == ACQ.URG c) with
        | some c => s.urgWrite w i c v
        | none => plain
    | .apc =>
      if off = APC.CTL then act (fun s => (s.hartRelease (APC.CTL_HART_EN.read v), .ok))
      else if off = APC.WDT_CFG then act (fun s => (s.wdtCfg v.toNat, .ok))
      else if off = APC.WDT_KICK then act (fun s => (s.wdtKick v.toNat, .ok))
      else
        match (List.range 4).find? (fun h => off == APC.MSIP h) with
        | some h => act (fun s => (s.msipWrite h (v.getLsbD 0), .ok))
        | none => plain
    | .rest => if off = REST.REQ then act (fun s => (s.restReq v.toNat, .ok)) else plain
    | .beam =>
      if off = BEAM.SNAP then act (fun s => (if v.getLsbD 0 then s.snapCapture else s, .ok))
      else if off = BEAM.CTL then State.thenDo plain (fun t => s.beamCtlWritten t)
      else plain
    | .frame => if off = FRAME.SYNC_CTL then State.thenDo plain s.syncCtlWritten else plain
    | _ => plain

/-- Write one aligned word of a page that exists and whose domain is active, or of PG_ID, PG_CTL or PG_STAT of a page
whose domain rests. -/
def State.pageWrite (s : State) (w : Writer) (p off : Nat) (v : Word) : State × Code :=
  if (pageRow p).isSome ∧ off < 0x40 then
    if off = PG.CTL then s.pgCtlWrite w p v
    else if off = PG.COMMIT then s.commitReq w p v
    else if off = PG.INJ then s.injWrite w p v
    else if off = PG.EV_STAT then
      State.thenDo (s.plainWrite w p off v) (fun s =>
        if pageType p = some .mbus then s.mbusLevels (pageInst p)
        else if p = pSYS ∧ v.getLsbD 16 then s.setReg pSYS SYS.REST_ACC 0
        else s)
    else s.plainWrite w p off v
  else s.blockWrite w p off v

/-! ## Accesses (R31 to R33, R54) -/

/-- Whether a word is held by the always-on island while the page's domain rests (R53). -/
def aonWord (p off : Nat) : Bool := decide ((pageRow p).isSome = true ∧ off < 12)

/-- One word written, after the checks that hold for a whole transaction. -/
def State.wordWrite (s : State) (w : Writer) (p off : Nat) (v : Word) : State × Code :=
  if s.pageRests p && !aonWord p off then s.restWrite w p
  else
    let r := s.pageWrite w p off v
    (r.1.countRefused w ((ownerPage p).getD p) r.2, r.2)

/-- One word read, likewise. -/
def State.wordRead (s : State) (w : Writer) (p off : Nat) : State × Word :=
  if s.pageRests p && !aonWord p off then
    if w.isRemote then (s, 0) else (s.restAccess p, 0)
  else s.readWord p off

/-- A burst write (R32): words in ascending offset, the code of the first refused word and the number of words
accepted.  `gate` says which words the sender's grant lets through (R456). -/
def State.burstWrite (s : State) (w : Writer) (p off : Nat) (l : List Word) (gate : State → Nat → Word → Bool) :
    State × Code × Nat :=
  l.zipIdx.foldl (fun (a : State × Code × Nat) (e : Word × Nat) =>
    let o := off + 4 * e.2
    let r := if gate a.1 o e.1 then a.1.wordWrite w p o e.1 else (a.1, .writeRefused)
    (r.1, if a.2.1 = .ok then r.2 else a.2.1, if r.2 = .ok then a.2.2 + 1 else a.2.2)) (s, .ok, 0)

/-- A burst read. -/
def State.burstRead (s : State) (w : Writer) (p off n : Nat) : State × List Word :=
  (List.range n).foldl (fun (a : State × List Word) j =>
    let r := a.1.wordRead w p (off + 4 * j)
    (r.1, a.2 ++ [r.2])) (s, [])

/-- Whether a burst is one of R32. -/
def burstOk (off n : Nat) : Bool := decide (1 ≤ n ∧ n ≤ 256 ∧ off % 4 = 0 ∧ off + 4 * n ≤ 4096)

/-- Whether a burst names a word that its page cannot answer while the domain rests. -/
def State.burstRests (s : State) (p off n : Nat) : Bool :=
  s.pageRests p && !(aonWord p (off + 4 * (n - 1)))

/-- The bytes of a list of words. -/
def wordBytes (l : List Word) : List Nat := l.flatMap (fun v => leBytes 4 v.toNat)

/-- Words from bytes. -/
def bytesWords (n : Nat) (b : List Nat) : List Word :=
  (List.range n).map (fun i => wordOf (ofLE ((b.drop (4 * i)).take 4)))

/-- Answer an access: by the port it came from, or by a BRSP parcel with the request's TAG (R436). -/
def State.answerAcc (s : State) (a : WaitAcc) (c : Code) (n : Nat) (data : List Word) : State :=
  match a.tag with
  | none => s.send (.resp a.w c n data)
  | some t =>
    match a.w with
    | .remote src =>
      s.fabSend kdBRSP src (.bytes ([c.num, 0] ++ leBytes 2 n ++ wordBytes data)) (1 + data.length) t
    | _ => s

/-- Run an access whose domain is active. -/
def State.runAcc (s : State) (a : WaitAcc) : State :=
  match a.data with
  | some l =>
    let r := s.burstWrite a.w a.page a.off l (fun _ _ _ => true)
    r.1.answerAcc a r.2.1 r.2.2 []
  | none =>
    let r := s.burstRead a.w a.page a.off a.count
    r.1.answerAcc a .ok a.count r.2

/-- A transaction of a session or a device (R32, R33, R54, R57); a misaligned one is refused by the page (R31). -/
def State.transact (s : State) (a : WaitAcc) (wake : Bool) : State :=
  if (ownerPage a.page).isNone then s.answerAcc a .noPage 0 []
  else if !burstOk a.off a.count then
    let o := (ownerPage a.page).getD a.page
    let s := if a.off % 4 ≠ 0 ∧ !s.pageRests a.page then (refuse s o 3 .badLength).1.countRefused a.w o .badLength else s
    s.answerAcc a .badLength 0 []
  else if s.burstRests a.page a.off a.count then
    if wake ∧ s.dev ≠ dvDEEP then { s.wakeDom (accDom a.page) with waits := s.waits ++ [a] }
    else s.answerAcc a .domainResting 0 []
  else s.runAcc a

/-- A domain reaches ACTIVE: EN changes that waited apply, and the accesses that waited complete (R53, R54). -/
def State.domDone (s : State) (d : Dom) : State :=
  let s := (s.domActive d).enWaited d
  let l := s.waits.filter (fun a => decide (accDom a.page = d))
  let s := { s with waits := s.waits.filter (fun a => !decide (accDom a.page = d)) }
  l.foldl (fun (s : State) a => s.runAcc a) s

/-- A local access to a page that does not exist (R33): an access fault on the APC and SPC, the ACCESS trap of a
reckoner that runs (R202, R213). -/
def State.noPageLocal (s : State) (w : Writer) (p off : Nat) : State :=
  match w with
  | .reck k => if s.reckRuns k then s.trapHere k tcACCESS else s
  | _ => s.send (.accessFault w p off)

/-- The addressed bytes of a word: `size` 0 for 8 bits, 1 for 16, 2 for 32 (R31). -/
def bytesAt (v : Word) (off size : Nat) : Word := wordOf (v.toNat / 2 ^ (8 * (off % 4)) % 2 ^ (8 * 2 ^ size))

/-- A misaligned local read (R31, R494, R200): refused by the page, it returns 0 to an APC hart and a value that is left
open to a core of the pair (log 172); a reckoner takes the ALIGN trap and moves no data. -/
def State.misaligned (s : State) (w : Writer) (p : Nat) : State :=
  match w with
  | .reck k => if s.reckRuns k then s.trapHere k tcALIGN else s
  | .apc _ => if s.pageRests p then (s.restAccess p).send (.resp w .ok 1 [0]) else (s.err p 3).send (.resp w .ok 1 [0])
  | _ =>
    if s.pageRests p then (s.restAccess p).send (.resp w .ok 1 [0])
    else
      let f := (s.err p 3).free
      f.2.send (.resp w .ok 1 [wordOf f.1])

/-- A read of 8, 16 or 32 bits of a word of board space (R30, R31, R33, R54). -/
def State.readAccess (s : State) (w : Writer) (p off size : Nat) (wake : Bool) : State :=
  if w.isRemote then
    s.transact { w := w, page := p, off := off, data := none, count := 1 } wake
  else if (ownerPage p).isNone then s.noPageLocal w p off
  else if off % 2 ^ size ≠ 0 then s.misaligned w ((ownerPage p).getD p)
  else
    let r := s.wordRead w p (off / 4 * 4)
    r.1.send (.resp w .ok 1 [bytesAt r.2 off size])

end Sys2Proof.Machine
end

