-- ==== Sys2Proof/Machine/Rest.lean ====
section
/-! DEFINITION. Entry to REST, the completion of wakes, and the return of a single domain (spec/21, R522 to R526;
R53). -/

namespace Sys2Proof.Machine

open Host

/-- The device enters REST; that the conditions hold means that every released hart is in WFI. -/
def execEnterRest (stop : Option (Fin 8)) (s : State) : Outcome State Fault Refusal :=
  .next (if s.mayEnter dvQUIET && s.rodsIdle && !s.stepsMove then
      s.enter dvREST stop (fun s =>
        (((s.setProc { s.proc with wfi := s.proc.released }).showApc).slotAbandon).restSteps)
    else s)

/-- A domain that rests or wakes returns; a field die that rests alone stays (R522). -/
def State.domBack (s : State) (d : Dom) : State :=
  match d with
  | .fd k => if s.dom d = .active ∨ s.restsAlone k then s else s.domDone d
  | _ => if s.dom d = .active then s else s.domDone d

/-- The end of a wake from REST: the entry reversed (R526). -/
def State.leaveRest (s : State) : State :=
  let s := [Dom.ddr, .rd, .fd 1, .fd 2, .fd 3].foldl (fun (s : State) d => s.domBack d) s
  let s := (List.range 4).foldl (fun (s : State) k => if s.dom (.fd k) = .active then s.dieLinksOn k else s) s
  let s := s.pllLock.rdResume
  let s := if s.en pTALLY then s.tallyEnable else s
  let s := s.thermWake.safeWake
  (bitsSet 4 s.eventHarts).foldl (fun (s : State) h => s.hartIrq h (s.extCode h)) s

/-- The end of a wake from DEEP: every domain leaves its reset; boot is due (R526), and runs on the
100 MHz oscillator until the PLLs lock (R518). -/
def State.leaveDeep (s : State) : State :=
  let s := (s.resetDoms 9 domsDevice).clk CLK.STAT_RC100_IN_USE true
  (domsDevice.foldl (fun (s : State) d => s.setDom d .active) s).pllLock

/-- Whether the slots that a wake needs are on, with no sequence running. -/
def State.slotsUp (s : State) : Bool :=
  s.sup.seq.isNone && (s.slotsEn.all (fun i => s.flag pSUP (SUP.SLOT_STAT_ON i)) || decide (s.dev ≤ dvQUIET))

/-- The device reaches the state it wakes to, `us` microseconds after the cause (R525, R526). -/
def execWakeComplete (us : Fin 1048576) (s : State) : Outcome State Fault Refusal :=
  if !s.flag pREST REST.STAT_WAKING || !s.slotsUp then .next s
  else
    let frm := s.dev
    let x := s.rest
    let s := ((s.set pREST REST.STAT_WAKING 0).set pREST REST.STAT_STATE x.wakeTo).ev pREST (blk 0)
    let s := s.setReg pREST REST.WAKE_LAST (x.cause * 2 ^ 24 + us)
    let s := s.setRest {}
    .next (if frm = dvDEEP then s.leaveDeep else if frm = dvREST then s.leaveRest else s)

/-- A domain that woke alone is ACTIVE (R53, R54, R461). -/
def execDomainWakeDone (i : Fin 8) (s : State) : Outcome State Fault Refusal :=
  .next (if s.dom (domOf i) = .waking then s.domDone (domOf i) else s)

end Sys2Proof.Machine
end

