-- ==== Sys2Proof/Machine/Boot.lean ====
section
/-! DEFINITION. Boot (spec/22, R545 to R550; R559, R565). -/

namespace Sys2Proof.Machine

open Host (Outcome)

/-- BOOT_STAT.STEP. -/
abbrev bsROM : Nat := 0
abbrev bsPROFILE : Nat := 2
abbrev bsDDR : Nat := 3
abbrev bsFIRMWARE : Nat := 4
abbrev bsSTART : Nat := 5
abbrev bsDONE : Nat := 6
abbrev bsLOADER : Nat := 7
abbrev bsHALT : Nat := 8

/-- BOOT_STAT.LCAUSE. -/
abbrev lcFW_BAD : Nat := 1
abbrev lcFW_ABSENT : Nat := 2
abbrev lcNO_MEMORY : Nat := 3

/-- BOOT_STAT.FB_REASON. -/
abbrev fbNO_VALID : Nat := 1
abbrev fbCONFLICT : Nat := 2
abbrev fbAPPLY : Nat := 3

/-- A step of boot is in progress. -/
def State.bootAt (s : State) (step : Nat) : State := s.set pSYS SYS.BOOT_STAT_STEP step

/-- In HALT and in loader mode every rod is under the SGR block and every SAFE_OUT low (R545, R550). -/
def State.bootLow (s : State) : State :=
  let s := s.setBoot { s.boot with low := true }
  (allRods.foldl (fun (s : State) r => s.applySgr r false) s).driveOuts

/-- Boot holds the APC in reset (R538, R545). -/
def State.holdApc (s : State) : State := (s.setProc { s.proc with released := 0 }).showApc

def State.bootHalt (s : State) : State := (s.bootAt bsHALT).holdApc.bootLow

/-- A BOOT entry (R554); under fallback the GEN applied is not stated. -/
def State.bootEntry (s : State) : State :=
  let f := s.free
  let gen := if s.flag pSYS SYS.BOOT_STAT_FALLBACK then f.1 % 2 ^ 32 else s.boot.gen
  f.2.evtPost (evtPayload s.aonCnt 2 (leBytes 4 (s.reg pSYS SYS.BOOT_STAT) ++ leBytes 4 gen))

/-! ## Self-test (R559, R565) -/

/-- The good cores, ascending. -/
def State.goodCores (s : State) : List Nat := (List.range 32).filter (fun p => !s.coreBad p)

/-- Logical reckoners are mapped onto the good cores in ascending order (R559). -/
def State.mapCores (s : State) : State :=
  let l := s.goodCores
  let s := s.setBist { s.bist with cores := l.length }
  (List.range 32).foldl (fun (s : State) n => s.set (pRECK n) RECK.STATUS_PHYS (l.getD n 31)) s

/-- The self-test of boot: cores whose logic fails, and what the memory tests find. -/
def State.bootTest (s : State) (bad : Nat) (mems : List MemTest) : State :=
  let s := mems.foldl (fun (s : State) t => s.memTested t) s
  let mb := maskOf ((List.range 32).filter (fun p => (s.memInfo p).unrep || (s.memInfo (0x20 + p)).unrep))
  (s.setReg pBIST BIST.LB_BAD (bad ||| mb)).mapCores

/-- Memories without which boot halts. -/
def State.bootMemBad (s : State) : Bool :=
  [0x40, 0x42, 0x43, 0x48, 0x49, 0x4A, 0x4B].any (fun id => (s.memInfo id).unrep)

/-! ## LOAD and ENTRY records (R543, R549) -/

/-- The data of a LOAD record. -/
def State.loadData (s : State) (r : ByRec) : List Nat := s.cfBytes (r.ofs + 20) (r.len - 20)

/-- Write bytes into the pair's memory. -/
def State.setPairBytes (s : State) (a : Nat) (l : List Nat) : State :=
  l.zipIdx.foldl (fun (s : State) e =>
    { s with pairMem := tabPut (fun _ => (0 : Byte)) s.pairMem (a + e.2) (BitVec.ofNat 8 e.1) }) s

/-- Apply a LOAD record: LPDDR5, IRAM, DRAM, common store, or the half of the pair's memory of a split core. -/
def State.loadRec (s : State) (r : ByRec) : State :=
  let a := s.cfLE (r.ofs + 12) 8
  let d := s.loadData r
  let words := (bytesWords (d.length / 4) d).zipIdx
  match s.cfByte (r.ofs + 8) with
  | 0 => s.setMemBytes a d
  | 1 | 2 =>
    let k := s.cfByte (r.ofs + 9)
    words.foldl (fun (s : State) e => s.setReckWord k (a / 4 + e.2) e.1.toNat) s
  | 3 => words.foldl (fun (s : State) e => s.setCommon (a / 4 + e.2) e.1) s
  | 4 => s.setPairBytes a d
  | 5 => s.setPairBytes (a + 0x40000) d
  | _ => s

/-- Apply an ENTRY record. -/
def State.entryRec (s : State) (r : ByRec) : State :=
  let a := s.cfLE (r.ofs + 12) 8
  match s.cfByte (r.ofs + 8) with
  | 1 => s.setBoot { s.boot with entryA := some a }
  | 2 => s.setBoot { s.boot with entryB := some a }
  | _ => s

/-- Apply the records of a firmware or loader image in record order. -/
def State.imgLoad (s : State) (region : Nat) : State :=
  (s.imgRecs region).foldl (fun (s : State) r =>
    if r.ty = 5 then s.loadRec r else if r.ty = 6 then s.entryRec r else s) s

/-! ## Applying a profile (R547) -/

/-- Where a refusal fell: record index, page, offset. -/
structure ApplyFail where
  idx : Nat
  page : Nat
  off : Nat
deriving DecidableEq, Repr

/-- Whether a word of a profile names more than the capacities of R1 where no block's rule refuses it: fabric rings of
more than 64 × 64 devices. -/
def overCap (p off : Nat) (v : Word) : Bool :=
  decide (p = pFABR ∧ off = FABR.ADDR_CFG) &&
    (decide (64 < v.toNat / 2 ^ 16 % 128) || decide (64 < v.toNat / 2 ^ 24 % 128))

/-- One word of a WRITE record, as a local write of APC hart 0; EN = 1 of a reckoner waits for the start step.
The second answer is whether the word was taken. -/
def State.bootWord (s : State) (p off : Nat) (v : Word) : State × Bool :=
  if off % 4 ≠ 0 ∨ 4096 ≤ off ∨ overCap p off v then (s, false)
  else
    let q := (ownerPage p).getD p
    let rk := decide (pageType p = some .reck ∧ off = PG.CTL)
    let k := pageInst p
    let d := s.boot.defer.filter (fun j => j != k)
    let s := if rk then s.setBoot { s.boot with defer := if v.getLsbD 0 then d ++ [k] else d } else s
    let v := if rk then PG.CTL_EN.write v 0 else v
    let e := s.reg q PG.ERR
    let r := s.wordWrite (.apc 0) p off v
    (r.1, decide (r.2 = .ok ∧ r.1.reg q PG.ERR &&& (e ^^^ (2 ^ 32 - 1)) = 0))

/-- A WRITE record. -/
def State.bootWrite (s : State) (i : Nat) (r : ByRec) : State × Option ApplyFail :=
  let p := s.cfLE (r.ofs + 8) 2
  let off := s.cfLE (r.ofs + 10) 2
  (List.range ((r.len - 12) / 4)).foldl (fun (a : State × Option ApplyFail) j =>
    match a.2 with
    | some _ => a
    | none =>
      let o := off + 4 * j
      let x := a.1.bootWord p o (wordOf (a.1.cfLE (r.ofs + 12 + 4 * j) 4))
      (x.1, if x.2 then none else some { idx := i, page := p, off := o })) (s, none)

/-- A BOOTCFG record: SPLIT (R412) and IECC (R497). -/
def State.bootCfg (s : State) (flags : Nat) : State :=
  let split := flags.testBit 0
  let s := s.setReg pSPAIR SPAIR.MODE (if split then 2 else 1)
  let s := s.setB pAPC APC.DDR_CFG_IECC (flags.testBit 1)
  (if split then s.setReg pSAFE SAFE.LATCH 0 else s).safeStat

/-- A record of a profile but LOCK, which follows the commits. -/
def State.profRec (s : State) (i : Nat) (r : ByRec) : State × Option ApplyFail :=
  let w := s.cfLE (r.ofs + 8) 4
  if r.ty = 1 then s.bootWrite i r
  else if r.ty = 3 then ((bitsSet 32 w).foldl (fun (s : State) k => s.loadKernel k) s, none)
  else if r.ty = 4 then (s.bootCfg w, none)
  else (s, none)

/-- The commits: every page with staged words, ascending, with its PG_GEN; each applies at once. -/
def State.bootCommits (s : State) : State × Option ApplyFail :=
  ((s.pages.filter (fun e => !e.2.staged.isEmpty)).map Prod.fst).foldl
    (fun (a : State × Option ApplyFail) p =>
      match a.2 with
      | some _ => a
      | none =>
        let e := a.1.reg p PG.ERR
        let r := a.1.commitReq (.apc 0) p (a.1.word p PG.GEN)
        let s := r.1.commitApply p
        if r.2 = .ok ∧ s.reg p PG.ERR &&& (e ^^^ (2 ^ 32 - 1)) = 0 then (s, none)
        else
          let f := s.free
          (f.2, some { idx := f.1 % 2 ^ 24, page := p, off := PG.COMMIT })) (s, none)

/-- A LOCK record. -/
def State.lockRec (s : State) (r : ByRec) : State :=
  let p := s.cfLE (r.ofs + 8) 2
  let q := (ownerPage p).getD p
  if s.locked q then s
  else
    let s := s.set q PG.CTL_LOCK 1
    if q = pSAFE then s.safeLocked else s

/-- Apply a profile copy. -/
def State.applyProf (s : State) (base : Nat) : State × Option ApplyFail :=
  let l := s.imgRecs base
  let a := l.zipIdx.foldl (fun (a : State × Option ApplyFail) (e : ByRec × Nat) =>
    match a.2 with
    | some _ => a
    | none => a.1.profRec e.2 e.1) (s, none)
  match a.2 with
  | some _ => a
  | none =>
    let c := a.1.bootCommits
    match c.2 with
    | some _ => c
    | none => ((l.filter (fun r => decide (r.ty = 2))).foldl (fun (s : State) r => s.lockRec r) c.1, none)

/-- A refusal: the registers of the RD, DDR and FD domains return to what they were when the copy was begun, as after
a reset with cause 5, without a boot counted; APPLY_ERR and APPLY_LOC say where it fell. -/
def State.applyUndo (s0 s : State) (f : ApplyFail) : State :=
  let s := (List.range 4).foldl (fun (s : State) k => s.resetFd k false) s
  let s := s.resetRd
  let s := s0.board.foldl (fun (s : State) e =>
    if domsProfile.contains (accDom (e.1 / 4096)) then s.setWord (e.1 / 4096) (e.1 % 4096) e.2 else s) s
  let s := { s with common := s0.common, reckMem := s0.reckMem, vsms := s0.vsms, bist := s0.bist, proc := s0.proc }
  let s := s.setBoot { s0.boot with spoiled := s.boot.spoiled }
  let s := s.setReg pPROF PROF.APPLY_ERR (2 ^ 31 + f.idx)
  s.setReg pPROF PROF.APPLY_LOC (f.off * 2 ^ 16 + f.page)

/-- Apply a copy; the second answer is whether it was taken. -/
def State.tryCopy (s : State) (p c : Nat) : State × Bool :=
  let a := s.applyProf (profBase p c)
  match a.2 with
  | some f => (s.applyUndo a.1 f, false)
  | none =>
    let s := a.1.set pSYS SYS.BOOT_STAT_COPY c
    let s := s.setReg pPROF PROF.STAT (4 * c + p)
    (s.setBoot { s.boot with gen := s.cfLE (profBase p c + 8) 4 }, true)

/-- The link-local IPv6 address of a MAC address (its EUI-64 interface identifier), low and high half. -/
def linkLocal (mac : Nat) : Nat × Nat :=
  ((mac / 2 ^ 24 % 2 ^ 24 ^^^ 0x020000) * 2 ^ 40 + 0xFFFE * 2 ^ 24 + mac % 2 ^ 24, 0xFE80 * 2 ^ 48)

/-- The factory defaults (R548). -/
def State.fallback (s : State) (reason : Nat) : State :=
  let s := s.bootCfg 0
  let a := linkLocal (s.reg64 pLIFE LIFE.MAC_LO)
  let s := (s.set (pETH 0) ETH.CFG_IPV6_EN 1).set (pETH 0) ETH.CFG_IPV4_EN 0
  let s := (s.setReg64 (pETH 0) (ETH.IP6 0) a.1).setReg64 (pETH 0) (ETH.IP6 2) a.2
  let s := s.setReg (pETH 0) ETH.PORT 48200
  let s := ((s.enWrite (pETH 0) true).1.enWrite pGATE true).1
  let s := (s.set pSYS SYS.BOOT_STAT_FALLBACK 1).set pSYS SYS.BOOT_STAT_FB_REASON reason
  let s := (s.set pSYS SYS.BOOT_STAT_COPY 0).setReg pPROF PROF.STAT (s.get pSYS SYS.BOOT_STAT_PROF)
  s.bootEntry

/-- Whether the two copies of a profile are the same bytes. -/
def State.copiesSame (s : State) (p : Nat) : Bool :=
  let n := s.cfLE (profBase p 0 + 0x0C) 4
  decide (s.cfLE (profBase p 1 + 0x0C) 4 = n ∧ s.cfBytes (profBase p 0) n = s.cfBytes (profBase p 1) n)

/-- The copy that boot takes (R546), or the reason for the factory defaults. -/
def State.pickCopy (s : State) (p : Nat) : Except Nat Nat :=
  match s.copyOk p 0, s.copyOk p 1 with
  | true, false => .ok 0
  | false, true => .ok 1
  | false, false => .error fbNO_VALID
  | true, true =>
    if s.copyGen p 0 = s.copyGen p 1 then (if s.copiesSame p then .ok 0 else .error fbCONFLICT)
    else .ok (if s.copyGen p 0 < s.copyGen p 1 then 1 else 0)

/-- Select and apply a profile. -/
def State.bootProfile (s : State) : State :=
  let s := s.bootAt bsPROFILE
  let s := (List.range 4).foldl (fun (s : State) p =>
    (s.setReg pPROF (PROF.GEN_A p) (s.copyGen p 0)).setReg pPROF (PROF.GEN_B p) (s.copyGen p 1)) s
  let p := s.reg pPROF PROF.NEXT % 4
  let s := (s.set pSYS SYS.BOOT_STAT_PROF p).bootCfg 0
  match s.pickCopy p with
  | .error r => s.fallback r
  | .ok c =>
    let a := s.tryCopy p c
    if a.2 then a.1
    else if s.copyOk p (1 - c) then
      let b := a.1.tryCopy p (1 - c)
      if b.2 then b.1 else b.1.fallback fbAPPLY
    else a.1.fallback fbAPPLY

/-! ## LPDDR5, firmware and start -/

/-- Training: the size found, or a failure (R497). -/
def State.bootDdr (s : State) (size : Option (Fin 3)) : State :=
  let s := s.bootAt bsDDR
  let s := match size with
    | some n => (s.set pAPC APC.DDR_CFG_SIZE n).set pAPC APC.DDR_STAT_STATE 2
    | none => s.set pAPC APC.DDR_STAT_STATE 4
  s.showApc

/-- Bytes of LPDDR5 that are mapped (R497). -/
def State.ddrMapped (s : State) : Nat :=
  let n := 2 ^ (32 + s.get pAPC APC.DDR_CFG_SIZE)
  if s.flag pAPC APC.DDR_CFG_IECC then n / 8 * 7 else n

/-- Why the firmware image cannot be used: 0 where it can (R549, R553). -/
def State.fwCause (s : State) : Nat :=
  let l := s.imgRecs cfFw
  let space (r : ByRec) : Nat := s.cfByte (r.ofs + 8)
  if s.cfLE cfFw 4 ≠ 0x594C5942 then lcFW_ABSENT
  else if !s.imgOk cfFw 2 0xFF (decide (s.lifeSt = 2)) then lcFW_BAD
  else if !s.split && l.any (fun r => decide (r.ty = 6 ∨ (r.ty = 5 ∧ 4 ≤ space r))) then lcFW_BAD
  else if l.any (fun r => decide (r.ty = 5 ∧ space r = 0) &&
      (decide (s.get pAPC APC.DDR_STAT_STATE = 4) ||
        decide (ddrBase + s.ddrMapped < s.cfLE (r.ofs + 12) 8 + (r.len - 20)))) then lcNO_MEMORY
  else 0

/-- Loader mode (R550). -/
def State.loaderMode (s : State) (cause : Nat) : State :=
  let s := (s.set pSYS SYS.BOOT_STAT_LOADER 1).set pSYS SYS.BOOT_STAT_LCAUSE cause
  let s := (s.bootAt bsLOADER).incFW pSYS ⟨SYS.BOOT_CNT, 15, 0⟩
  s.bootLow.bootEntry

/-- A split core starts at its ENTRY record; without one it stays in reset (R549). -/
def State.splitStart (s : State) (core : Nat) (entry : Option Nat) : State :=
  match entry with
  | some a => s.send (.splitStart core a)
  | none => s

/-- The pair starts: split cores at their ENTRY records, or the safety kernel once KCRC is right; the value KCRC
then shows is not stated. -/
def State.pairStart (s : State) (kcrcOk : Bool) : State :=
  if s.pairFaulted then s
  else if s.split then (s.splitStart 0 s.boot.entryA).splitStart 1 s.boot.entryB
  else
    let f := s.free
    let s := f.2.setReg pSPAIR SPAIR.KCRC (f.1 % 2 ^ 32)
    if kcrcOk then (s.setSafe { s.safe with started := true }).set pSPAIR SPAIR.STAT_KVER 1
    else
      let g := s.free
      g.2.pairFaultAct true (g.1 % 2 ^ 32)

/-- The start step: the deferred reckoner enables, the pair, and hart 0 at the image's ENTRY (R545). -/
def State.bootStart (s : State) (kcrcOk : Bool) (us : Nat) : State :=
  let s := s.bootAt bsSTART
  let l := s.boot.defer
  let s := s.setBoot { s.boot with defer := [], entry := s.cfLE (cfFw + 0x18) 8 }
  let s := l.foldl (fun (s : State) k => (s.enWrite (pRECK k) true).1) s
  let s := s.pairStart kcrcOk
  ((s.send (.hartStart 0 s.boot.entry)).bootAt bsDONE).setReg pSYS SYS.BOOT_TIME us

/-- Firmware and start, or loader mode. -/
def State.bootFirmware (s : State) (kcrcOk : Bool) (us : Nat) : State :=
  let s := s.bootAt bsFIRMWARE
  let c := s.fwCause
  if c ≠ 0 then s.loaderMode c else (s.imgLoad cfFw).bootStart kcrcOk us

/-- Boot from the ROM on. -/
def State.bootRun (s : State) (bad : Nat) (mems : List MemTest) (ddr : Option (Fin 3)) (kcrcOk : Bool) (us : Nat) : State :=
  let s := s.setBoot { s.boot with due := false, low := false, defer := [] }
  let s := s.setReg pSYS SYS.BOOT_STAT bsROM
  let s := (List.range 4).foldl (fun (s : State) k => if s.dom (.fd k) = .active then s.dieLinksOn k else s) s
  let s := if s.flag pLIFE LIFE.STATE_FUSE_PART then s.ev pLIFE (blk 0) else s
  if 4 ≤ s.lifeSt then s.holdApc
  else
    let s := s.bootTest bad mems
    if s.bootMemBad ∨ !s.imgOk cfLoader 3 0xFF (decide (s.lifeSt = 2)) then s.bootHalt
    else
      let f := s.free
      let s := if (s.memInfo 0x41).unrep then f.2.pairFaultAct true (f.1 % 2 ^ 32) else s
      let s := s.send (.hartStart 0 (s.cfLE (cfLoader + 0x18) 8))
      let s := (s.imgLoad cfLoader).bootProfile
      let s := (s.bootDdr ddr).bootFirmware kcrcOk us
      if s.flag pSYS SYS.BOOT_STAT_FALLBACK then s.ev pSYS (blk 1) else s

/-- Boot, from the release of the RD domain to the start of the processors. -/
def execBoot (bad : Word) (mems : List MemTest) (ddr : Option (Fin 3)) (kcrcOk : Bool) (us : Fin 1048576) (s : State) :
    Outcome State Fault Refusal :=
  .next (if s.boot.due && decide (s.dom .rd = .active) then s.bootRun bad.toNat mems ddr kcrcOk us else s)

end Sys2Proof.Machine
end

