-- ==== Sys2Proof/Machine/Clock.lean ====
section
/-! DEFINITION. The passage of 2.5 ns, one tick of the beam clock, where no command waits (R64, R498, R499, R533). -/

namespace Sys2Proof.Machine

/-- The AON counter: 32.768 kHz is 32 counts in 390,625 ticks of 2.5 ns. -/
def State.aonTick (s : State) : State :=
  let n := s.sup.aonSub + 32
  if n < 390625 then s.setSup { s.sup with aonSub := n }
  else
    let s := s.setSup { s.sup with aonSub := n - 390625 }
    let c := (s.aonCnt + 1) % 2 ^ 48
    let s := s.setReg64 pAON AON.CNT_LO c
    if s.flag pAON AON.ALARM_CTL_EN && decide (c = s.alarmAt) then s.alarm else s

/-- The beam clock stands in DEEP and while the device runs degraded without its main crystal (R526, R529). -/
def State.beamRuns (s : State) : Bool := decide (s.dev ≠ dvDEEP) && !s.flag pREST REST.STAT_DEGRADED

/-- One tick of 2.5 ns: the beam, the windows of captures that begin (R192), the AON counter, MTIME and the
watchdog. -/
def State.tick (s : State) : State :=
  let s := if s.beamRuns then s.beamTick.digTick else s
  s.aonTick.procTick

end Sys2Proof.Machine
end

