-- ==== Sys2Proof/Machine/Board.lean ====
section
/-! DEFINITION. The commands of the counting boards (spec/02), and the accesses to board space of reckoners (R234),
sessions (R452, R456) and devices (R436). -/

namespace Sys2Proof.Machine

open Host

/-! ## Register accesses (R30 to R54) -/

/-- A write to board space of a given width (0: 8 bits, 1: 16, 2: 32) by any requester (R31, R33, R39, R54, R57). -/
def State.access (s : State) (w : Writer) (p off size : Nat) (v : Word) : State :=
  if (ownerPage p).isNone then
    if w.isRemote then s.answer w .noPage else s.noPageLocal w p off
  else if size ≠ 2 ∨ off % 4 ≠ 0 then
    if s.pageRests p then (if w.isRemote then s.answer w .badLength else (s.restAccess p).answer w .ok)
    else finish w p (refuse s ((ownerPage p).getD p) 3 .badLength)
  else
    let r := s.wordWrite w p off v
    r.1.answer w r.2

def execRegisterWrite (w : Writer) (p off : Fin 4096) (size : Fin 3) (v : Word) (s : State) :
    Outcome State Fault Refusal := .next (s.access w p off size v)

/-- PG_CTL as it reads, with an EN change that waits, and an action bit or field set. -/
def State.ctlWord (s : State) (p : Nat) : Word :=
  let v := s.word p PG.CTL
  match (s.pg p).enWait with
  | some e => PG.CTL_EN.write v (b2n e)
  | none => v

/-- A write of PG_CTL that changes one field. -/
def State.ctlWrite (s : State) (w : Writer) (p : Nat) (f : Fld) (x : Nat) : State :=
  s.access w p PG.CTL 2 (f.write (s.ctlWord p) x)

def execPgCtlLock (w : Writer) (p : Fin 4096) (s : State) : Outcome State Fault Refusal :=
  .next (s.ctlWrite w p PG.CTL_LOCK 1)

def execPgCtlDiscard (w : Writer) (p : Fin 4096) (s : State) : Outcome State Fault Refusal :=
  .next (s.ctlWrite w p PG.CTL_DISCARD 1)

/-- LEASE_REQ with the LEASE_TIME written beside it (R47). -/
def execLeaseReq (w : Writer) (p : Fin 4096) (time : Fin 256) (s : State) : Outcome State Fault Refusal :=
  .next (s.access w p PG.CTL 2 (PG.CTL_LEASE_REQ.write (PG.CTL_LEASE_TIME.write (s.ctlWord p) time) 1))

def execLeaseRel (w : Writer) (p : Fin 4096) (s : State) : Outcome State Fault Refusal :=
  .next (s.ctlWrite w p PG.CTL_LEASE_REL 1)

def execPgCtlEnable (w : Writer) (p : Fin 4096) (en : Bool) (s : State) : Outcome State Fault Refusal :=
  .next (s.ctlWrite w p PG.CTL_EN (b2n en))

/-- PWR_REQ, with the EN change of the same write if it has one (R53). -/
def execPwrReqWrite (w : Writer) (p : Fin 4096) (r : Fin 4) (en : Option Bool) (s : State) :
    Outcome State Fault Refusal :=
  let v := PG.CTL_PWR_REQ.write (s.ctlWord p) r
  .next (s.access w p PG.CTL 2 (match en with | some e => PG.CTL_EN.write v (b2n e) | none => v))

def execPgCommit (w : Writer) (p : Fin 4096) (gen : Word) (s : State) : Outcome State Fault Refusal :=
  .next (s.access w p PG.COMMIT 2 gen)

/-- The apply point of a page with an accepted commit (R43, R44). -/
def execCommitApply (p : Fin 4096) (s : State) : Outcome State Fault Refusal := .next (s.commitApply p)

def execInjArm (w : Writer) (p : Fin 4096) (shots point : Fin 256) (s : State) : Outcome State Fault Refusal :=
  .next (s.access w p PG.INJ 2 (wordOf (shots * 256 + point)))

/-- A session's or a device's lease counts down; at 0 it expires (R49), and a commit of the same beam tick is refused. -/
def execLeaseExpire (p : Fin 4096) (ms : Fin 65536) (s : State) : Outcome State Fault Refusal :=
  match (s.pg p).lease with
  | some l =>
    if !l.owner.isRemote then .next s
    else if l.remain ≤ ms then
      let s := s.endLease p
      .next (s.setPg p { s.pg p with lapsed := some (s.beam.t / 640) })
    else .next (s.setPg p { s.pg p with lease := some { l with remain := l.remain - ms } })
  | none => .next s

def execLeaseOwnerLost (w : Writer) (s : State) : Outcome State Fault Refusal := .next (s.ownerLost w)

/-- One word read or written at a page whose domain rests, or at any other (R54). -/
def execRestPageAccess (w : Writer) (p off : Fin 4096) (v : Option Word) (wake : Bool) (s : State) :
    Outcome State Fault Refusal :=
  match v with
  | none => .next (s.readAccess w p off 2 wake)
  | some x =>
    if w.isRemote then
      .next (s.transact { w := w, page := p, off := off, data := some [x], count := 1 } wake)
    else .next (s.access w p off 2 x)

/-- A draining domain comes to rest (R55). -/
def execDomainDrained (i : Fin 8) (s : State) : Outcome State Fault Refusal :=
  .next (if s.dom (domOf i) = .draining then s.domRest (domOf i) else s)

/-- A local access is unanswered (R33, R202): an access fault, the BOARD_TIMEOUT trap on a reckoner. -/
def execLocalAccessTimeout (w : Writer) (p off : Fin 4096) (s : State) : Outcome State Fault Refusal :=
  match w with
  | .reck k => .next (if s.reckRuns k then s.trapHere k tcBOARD else s)
  | .apc _ | .spc | .spcB => .next (s.send (.accessFault w p off))
  | _ => .next s

/-- A waiting transaction of a session or a device ends with TIMEOUT (R55). -/
def execRemoteTimeout (w : Writer) (p : Fin 4096) (s : State) : Outcome State Fault Refusal :=
  match s.waits.findIdx? (fun a => decide (a.w = w ∧ a.page = p.val)) with
  | some i =>
    let a := s.waits.getD i ⟨w, p, 0, none, 0, none⟩
    .next (({ s with waits := s.waits.eraseIdx i }).answerAcc a .timeout 0 [])
  | none =>
    match w with
    | .session n =>
      let x := s.ses n
      match x.passed.findIdx? (fun r => r.page == p.val && s.reqWaits n r) with
      | some i =>
        let s1 := s.setSes n { x with passed := x.passed.eraseIdx i }
        .next (match x.passed[i]? with
          | some r => s1.sessReply n r .timeout 0 0 []
          | none => s1)
      | none => .next s
    | _ => .next s

/-- A pending router line reaches its destination (R59): a destination that rests wakes only with WAKE. -/
def execEventLineDeliver (n : Fin 256) (s : State) : Outcome State Fault Refusal :=
  let k := s.lineKind n
  if !s.linePending n || k == 0 then .next s
  else if s.dom .rd ≠ .active then
    .next (if s.flag pSYS (SYS.EVR_ROUTE_WAKE n) then s.wakeCause wcEVENT else s)
  else
    let sel := s.get pSYS (SYS.EVR_ROUTE_DST_SEL n)
    let s := s.send (.eventLine n k sel)
    .next (if k = 1 then (bitsSet 4 sel).foldl (fun (s : State) h => s.hartIrq h (s.extCode h)) s else s)

/-- A read of board space of a given width (0: 8 bits, 1: 16, 2: 32; R30, R31, R33, R54): of the low word of a wide
register, it latches the others. -/
def execLowWordRead (w : Writer) (p off : Fin 4096) (size : Fin 3) (s : State) : Outcome State Fault Refusal :=
  .next (s.readAccess w p off size false)

/-- A read of NOW_NS (R66): it latches the seconds and the fraction of the same tick. -/
def execNowNsRead (w : Writer) (s : State) : Outcome State Fault Refusal :=
  .next (s.readAccess w pBEAM BEAM.NOW_NS 2 false)

/-- A read of MOD_STAT (R360): it clears ALARM. -/
def execModStatRead (w : Writer) (n : Fin 32) (a : Fin 24) (s : State) : Outcome State Fault Refusal :=
  .next (s.readAccess w (pMBUS n) (MBUS.MOD_STAT a) 2 false)

/-! ## Enables with rows of their own -/

/-- EN = 1 of a reckoner's page (R213). -/
def execReckEnable (w : Writer) (k : Fin 32) (s : State) : Outcome State Fault Refusal :=
  .next (s.ctlWrite w (pRECK k) PG.CTL_EN 1)

/-- EN = 0 of a reckoner's page (R213). -/
def execReckDisable (w : Writer) (k : Fin 32) (s : State) : Outcome State Fault Refusal :=
  .next (s.ctlWrite w (pRECK k) PG.CTL_EN 0)

/-- EN = 1 of CEA (R317). -/
def execCeaEnable (w : Writer) (s : State) : Outcome State Fault Refusal := .next (s.ctlWrite w pCEA PG.CTL_EN 1)

/-! ## Reckoner loads and stores (R199 to R202, R234) -/

/-- The loaded word is written. -/
def State.loaded (s : State) (k w : Nat) (v : Nat) : State := s.finishI k (.done [(iD w, v)] (s.reckX k).flags)

/-- LD; `e` is what the ECC check of the word finds. -/
def execLd (k : Fin 32) (e : Ecc) (s : State) : Outcome State Fault Refusal :=
  .next (s.instr k 0x11 none legalI (fun s w =>
    match placeOf (((s.reckX k).a w + iSext w) % 2 ^ 32) with
    | .trap c => s.trapHere k c
    | .dram i => s.dramEcc k e (fun s => s.loaded k w (s.reckWord k i))
    | .common i => if e = .double then s.trapHere k tcCOMMON else s.loaded k w (s.commonWord i).toNat
    | .board p off =>
      if (ownerPage p).isNone then s.trapHere k tcACCESS
      else
        let r := s.wordRead (.reck k) p off
        r.1.loaded k w r.2.toNat))

/-- ST: the store is posted, the program goes on. -/
def execSt (k : Fin 32) (s : State) : Outcome State Fault Refusal :=
  .next (s.instr k 0x12 none legalI (fun s w =>
    let v := (s.reckX k).d w
    match placeOf (((s.reckX k).a w + iSext w) % 2 ^ 32) with
    | .trap c => s.trapHere k c
    | .dram i => (s.setReckWord k i v).nextPc k
    | .common i => (s.setCommon i (wordOf v)).nextPc k
    | .board p off =>
      if (ownerPage p).isNone then s.trapHere k tcACCESS
      else ((s.nextPc k).wordWrite (.reck k) p off (wordOf v)).1))

/-! ## Requests of devices (R436) -/

/-- The oldest BREQ that waits at a receive buffer (link 4: from this device itself) is executed; `e` is what the ECC of
the buffer finds. -/
def execBreqRx (l : Fin 5) (e : Ecc) (s : State) : Outcome State Fault Refusal :=
  match s.waiting l [kdBREQ] with
  | none => .next s
  | some p =>
    let s := s.takeWaiting l [kdBREQ]
    let b := Parcel_data p
    let wr := (b.getD 0 0).testBit 0
    let n := ofLE ((b.drop 6).take 2)
    let a : WaitAcc := {
      w := .remote (Fin.ofNat 4096 p.src), page := ofLE ((b.drop 2).take 2) % 4096, off := ofLE ((b.drop 4).take 2) % 4096
      data := if wr then some (bytesWords n (b.drop 8)) else none, count := n, tag := some p.tag }
    if e = .double then .next (s.answerAcc a .integrity 0 [])
    else if (ownerPage a.page).isNone then .next (s.answerAcc a .noPage 0 [])
    else if p.len ≠ 2 + (if wr then n else 0) then .next (s.answerAcc a .badLength 0 [])
    else .next (s.transact a p.wake)

/-! ## Requests of sessions (R452 to R457) -/

/-- Whether a session's rights let a write word through (R456). -/
def State.wordRight (s : State) (n p off : Nat) (v : Word) : Bool :=
  let r := s.rights n p
  let right (i : Nat) : Bool := r.testBit i
  let inj (b : Bool) : Bool := if p = pINJ then right 3 && b else b
  if (pageRow p).isSome ∧ off = PG.COMMIT then inj (right 2)
  else if (pageRow p).isSome ∧ off = PG.CTL ∧ (v.getLsbD 7 ∨ v.getLsbD 8) then
    let old := s.ctlWord p
    let same := decide (maskW v 0x00FF0031 = maskW old 0x00FF0031) && !v.getLsbD 9 && (!v.getLsbD 31 || s.locked p)
    inj (right 4 && (same || right 1))
  else if ((pageRow p).isSome ∧ off = PG.INJ) ∨ p = pINJ then right 3
  else if p = pBEADS ∧ off = BEADS.HOME_CMD then right 1 && (s.grantWord n 0).testBit 30
  else right 1

/-- READ: the oldest request past the gate that has not to wait. -/
def execSessionRead (n : Fin 1024) (s : State) : Outcome State Fault Refusal :=
  match s.takeReq n 1 with
  | none => .next s
  | some (r, s) =>
    if (ownerPage r.page).isNone then .next (s.sessReply n r .noPage 0 0 [])
    else if s.burstRests r.page r.off r.count then .next (s.sessReply n r .domainResting 0 0 [])
    else
      let q := s.burstRead (.session n) r.page r.off r.count
      .next (q.1.sessReply n r .ok 0 r.count (wordBytes q.2))

/-- WRITE: likewise; a word without its right is refused by the gate. -/
def execSessionWrite (n : Fin 1024) (s : State) : Outcome State Fault Refusal :=
  match s.takeReq n 2 with
  | none => .next s
  | some (r, s) =>
    if (ownerPage r.page).isNone then .next (s.sessReply n r .noPage 0 0 [])
    else if s.burstRests r.page r.off r.count then .next (s.sessReply n r .domainResting 0 0 [])
    else
      let q := s.burstWrite (.session n) r.page r.off (bytesWords r.count r.data) (fun s o v => s.wordRight n r.page o v)
      .next (q.1.sessReply n r q.2.1 0 q.2.2 [])

/-! ## Clock crossings (R573, R574) -/

/-- One side of a die's or a domain's crossings enters reset: their data is discarded, the gate-link crossings of
the set with it, and accesses that lose their response end: local ones with the access fault of R33 (the ACCESS trap
of a reckoner), others with TIMEOUT. -/
def execCrossingReset (i : Fin 8) (lost : List (Writer × Fin 4096 × Fin 4096)) (s : State) : Outcome State Fault Refusal :=
  let s := match domOf i with
    | .fd k => s.dieLinksOff k
    | .rd => (List.range 4).foldl (fun (s : State) k => s.dieLinksOff k) s
    | _ => s
  .next (lost.foldl (fun (s : State) e =>
    if e.1.isRemote then s.send (.resp e.1 .timeout 0 []) else s.noPageLocal e.1 e.2.1 e.2.2) s)

end Sys2Proof.Machine
end

