-- ==== Sys2Proof/Machine/ConvDone.lean ====
section
/-! DEFINITION. The end of a conversion (R183 to R186), with the checks and tallies that hang on a slot's write
(R311, R316, R566). -/

namespace Sys2Proof.Machine

open Host

/-- CONVERSION_DONE: `samples` are the raw codes averaged.  Point 1 of ACQ writes converter 0's result as
saturated (R569). -/
def execConversionDone (k : Fin 4) (c : Fin 12) (samples : List Int) (s : State) : Outcome State Fault Refusal :=
  match (s.conv k c).cur with
  | none => .next s
  | some v =>
    let i := if c = 0 then s.injTake (pACQ k) 1 else (false, s)
    let l := if i.1 then List.replicate v.avg 32767 else samples.take v.avg
    let r := i.2.convDone k c l
    let x := convResult l
    let s := r.1.alCheck k c v.input x.1 x.2
    let s := (s.tallySlots k r.2).diagSlots k r.2
    .next ((dieRods k).foldl (fun (s : State) n =>
      if r.2.contains (s.reg pCEA (CEA.TSLOT n) % 256) then s.eisSlot n (v.t * 40) else s) s)

end Sys2Proof.Machine
end

