-- ==== Sys2Proof/Machine/FrameEvents.lean ====
section
/-! DEFINITION. The frames of generators and rods (R83 to R86), with what hangs on a rod's frame: the segment in force
(R94), the junction temperatures (R166), the age of the angle set (R249), LOOP commits (R264), the latch of the pulse
counter (R385) and the end condition of a descent (R157). -/

namespace Sys2Proof.Machine

open Host

/-- The junction temperature of position `m` at a period frame, `dt` 1/256 ns after the one before (R166). -/
def State.tjUpdate (s : State) (n m dt : Nat) : State :=
  let p := pPROT n
  if s.flag p PROT.CFG_TJ_SRC then s.setReg p (PROT.TJ_EST m) (s.reg p (PROT.TJ_IN m) % 65536)
  else
    let x := s.life n m
    let i := fdiv (fOfZ (s.slotVal (n / 6) (s.get p PROT.SLOT_A_I1 + m) * s.get p PROT.TJ_AUX_I_LSB)) (fOfZ 1000)
    let pw := if x.vceValid then fmul (fdiv (fOfZ x.vce) (fOfZ 1000)) (fabs i) else 0
    let tau := let t := s.get p PROT.TJ_CFG_TJ_TAU
      if t = 0 then 1 else t
    let tgt := fdiv (fmul pw (fOfZ (s.get p PROT.TJ_CFG_RTH))) (fOfZ 1000)
    let dtj := fadd x.dtj (fmul (fsub tgt x.dtj) (fOfQ dt (tau * unitsMs)))
    let s := s.setLife n m { x with dtj := dtj }
    s.setReg p (PROT.TJ_EST m) (encSat 16 (x.ntc + fToInt 16 (fmul dtj (fOfZ 16))))

/-- The period frame of a rod, at beam time `u`. -/
def State.periodFrame (s : State) (n u : Nat) : State :=
  let s := s.commitApply (pLOOP n)
  let s := s.rodFrame n
  let dt := u - (s.rod n).lastFrame
  let s := (List.range 3).foldl (fun (s : State) m => s.tjUpdate n m dt) s
  let s := s.setRod n { s.rod n with lastFrame := u }
  ((s.angAge n).cntLatch n u).descentFrame n

/-- The latest period frame, or mid frame, of a rod at or before now (R83, R84), with the number of the boundary it
belongs to; none before the first boundary since the generator's start or a step (R81). -/
def State.frameLast (s : State) (n : Nat) (half : Bool) : Option (Nat × Nat) :=
  let x := s.gen (s.genOf n)
  if s.genRunning (s.genOf n) then
    (x.hist.zipIdx.filterMap (fun e =>
      let u := e.1.t + s.get pFRAME (FRAME.ROD_MAP_OFFSET n) * 40 + (if half then e.1.period / 2 * 40 else 0)
      if (half && !e.1.mid) || decide (s.beam.t < u) then none else some (x.marks - e.2, u))).head?
  else none

/-- The beam time of a frame of a rod that is due: its time has come, and it has not been taken. -/
def State.frameDue (s : State) (n : Nat) (half : Bool) : Option (Nat × Nat) :=
  let taken := if half then (s.rod n).midN else (s.rod n).frameN
  (s.frameLast n half).filter (fun e => decide (taken ≠ (s.genOf n, e.1)))

/-- A due period frame of a rod. -/
def State.takeFrame (s : State) (n : Nat) : State :=
  match s.frameDue n false with
  | some e => (s.setRod n { s.rod n with frameN := (s.genOf n, e.1) }).periodFrame n e.2
  | none => s

/-- A due mid frame of a rod. -/
def State.takeMid (s : State) (n : Nat) : State :=
  match s.frameDue n true with
  | some e => ((s.setRod n { s.rod n with midN := (s.genOf n, e.1) }).rodFrame n).cntLatch n e.2
  | none => s

/-- CARRIER_BOUNDARY: with no rod, the generator's boundary; with a rod, that rod's period frame, OFFSET after a
boundary of its generator (R84). -/
def execCarrierBoundary (g : Fin 24) (n : Option (Fin 24)) (s : State) : Outcome State Fault Refusal :=
  match n with
  | none => .next (if s.genRunning g && decide ((s.gen g).next ≤ s.beam.t) then s.markBoundary g else s)
  | some r => .next (if s.genOf r = g then s.takeFrame r else s)

/-- MID_FRAME: the mid frame of a rod whose generator has MID_EN in force. -/
def execMidFrame (g n : Fin 24) (s : State) : Outcome State Fault Refusal :=
  .next (if s.genOf n = g then s.takeMid n else s)

/-- CG_START: the first boundary of a generator since it was started (R86). -/
def execCgStart (g : Fin 24) (s : State) : Outcome State Fault Refusal :=
  .next (if s.genRunning g && (s.gen g).hist.isEmpty && decide ((s.gen g).next ≤ s.beam.t) then s.markBoundary g else s)

end Sys2Proof.Machine
end

