-- ==== Sys2Proof/Machine/Dispatch.lean ====
section
/-! DEFINITION. The meaning of each command: one arm per constructor (R10: what no rule lists
leaves the state unchanged). -/

namespace Sys2Proof.Machine

def exec (i : Instr) (s : State) : Host.Outcome State Fault Refusal :=
  match i with
  | .registerWrite w p off size v => Sys2Proof.Machine.execRegisterWrite w p off size v s
  | .pgCtlLock w p => Sys2Proof.Machine.execPgCtlLock w p s
  | .pgCtlDiscard w p => Sys2Proof.Machine.execPgCtlDiscard w p s
  | .leaseReq w p time => Sys2Proof.Machine.execLeaseReq w p time s
  | .leaseRel w p => Sys2Proof.Machine.execLeaseRel w p s
  | .pgCtlEnable w p en => Sys2Proof.Machine.execPgCtlEnable w p en s
  | .pwrReqWrite w p r en => Sys2Proof.Machine.execPwrReqWrite w p r en s
  | .pgCommit w p gen => Sys2Proof.Machine.execPgCommit w p gen s
  | .commitApply p => Sys2Proof.Machine.execCommitApply p s
  | .injArm w p shots point => Sys2Proof.Machine.execInjArm w p shots point s
  | .leaseExpire p ms => Sys2Proof.Machine.execLeaseExpire p ms s
  | .leaseOwnerLost w => Sys2Proof.Machine.execLeaseOwnerLost w s
  | .restPageAccess w p off v wake => Sys2Proof.Machine.execRestPageAccess w p off v wake s
  | .domainDrained i0 => Sys2Proof.Machine.execDomainDrained i0 s
  | .localAccessTimeout w p off => Sys2Proof.Machine.execLocalAccessTimeout w p off s
  | .remoteTimeout w p => Sys2Proof.Machine.execRemoteTimeout w p s
  | .eventLineDeliver n => Sys2Proof.Machine.execEventLineDeliver n s
  | .nowNsRead w => Sys2Proof.Machine.execNowNsRead w s
  | .snap w => Sys2Proof.Machine.execSnap w s
  | .beamSetApply => Sys2Proof.Machine.execBeamSetApply s
  | .timeMessageTx => Sys2Proof.Machine.execTimeMessageTx s
  | .timeMessageRx link m => Sys2Proof.Machine.execTimeMessageRx link m s
  | .masterLoss => Sys2Proof.Machine.execMasterLoss s
  | .parentLoss => Sys2Proof.Machine.execParentLoss s
  | .electRx t isMaster early => Sys2Proof.Machine.execElectRx t isMaster early s
  | .masterTakeover t => Sys2Proof.Machine.execMasterTakeover t s
  | .acquireDwell => Sys2Proof.Machine.execAcquireDwell s
  | .coarseDwell => Sys2Proof.Machine.execCoarseDwell s
  | .masterFineDwell => Sys2Proof.Machine.execMasterFineDwell s
  | .fineLossDwell => Sys2Proof.Machine.execFineLossDwell s
  | .holdoverExpire => Sys2Proof.Machine.execHoldoverExpire s
  | .corrLimitClear => Sys2Proof.Machine.execCorrLimitClear s
  | .ppsInEdge falling spacing => Sys2Proof.Machine.execPpsInEdge falling spacing s
  | .ppsTimeout => Sys2Proof.Machine.execPpsTimeout s
  | .ptpMessage m => Sys2Proof.Machine.execPtpMessage m s
  | .beamStep r => Sys2Proof.Machine.execBeamStep r s
  | .stepApply => Sys2Proof.Machine.execStepApply s
  | .beamSecond => Sys2Proof.Machine.execBeamSecond s
  | .carrierBoundary g n => Sys2Proof.Machine.execCarrierBoundary g n s
  | .midFrame g n => Sys2Proof.Machine.execMidFrame g n s
  | .cgStart g => Sys2Proof.Machine.execCgStart g s
  | .cgLockStart g => Sys2Proof.Machine.execCgLockStart g s
  | .gangTx => Sys2Proof.Machine.execGangTx s
  | .gangRx id period anchor => Sys2Proof.Machine.execGangRx id period anchor s
  | .gangMismatchClear g => Sys2Proof.Machine.execGangMismatchClear g s
  | .sampleSyncEdge t => Sys2Proof.Machine.execSampleSyncEdge t s
  | .updateCutoff n => Sys2Proof.Machine.execUpdateCutoff n s
  | .refAbWrite w n v => Sys2Proof.Machine.execRefAbWrite w n v s
  | .refCWrite w n v => Sys2Proof.Machine.execRefCWrite w n v s
  | .modulationEnd n => Sys2Proof.Machine.execModulationEnd n s
  | .edgeFrameTx k => Sys2Proof.Machine.execEdgeFrameTx k s
  | .timeFrameTx k => Sys2Proof.Machine.execTimeFrameTx k s
  | .pingTx k => Sys2Proof.Machine.execPingTx k s
  | .echoRx k tag tta elapsed => Sys2Proof.Machine.execEchoRx k tag tta elapsed s
  | .heartbeatRx k hb => Sys2Proof.Machine.execHeartbeatRx k hb s
  | .faultSetRx k code => Sys2Proof.Machine.execFaultSetRx k code s
  | .tripInnerOff n => Sys2Proof.Machine.execTripInnerOff n s
  | .gateReq w n v => Sys2Proof.Machine.execGateReq w n v s
  | .rspRx k status data => Sys2Proof.Machine.execRspRx k status data s
  | .gateReqRetry n => Sys2Proof.Machine.execGateReqRetry n s
  | .linkSymbolLock k => Sys2Proof.Machine.execLinkSymbolLock k s
  | .linkTrainTimeout k => Sys2Proof.Machine.execLinkTrainTimeout k s
  | .linkLost k => Sys2Proof.Machine.execLinkLost k s
  | .linkRetrain k => Sys2Proof.Machine.execLinkRetrain k s
  | .comparatorFire n k v since => Sys2Proof.Machine.execComparatorFire n k v since s
  | .comparatorRearm n k v => Sys2Proof.Machine.execComparatorRearm n k v s
  | .didtFire n x v => Sys2Proof.Machine.execDidtFire n x v s
  | .blankClose n x cmps v => Sys2Proof.Machine.execBlankClose n x cmps v s
  | .rodStart w n => Sys2Proof.Machine.execRodStart w n s
  | .tripPathTest n => Sys2Proof.Machine.execTripPathTest n s
  | .idReadDone n => Sys2Proof.Machine.execIdReadDone n s
  | .rodRun w n => Sys2Proof.Machine.execRodRun w n s
  | .rodStop w n => Sys2Proof.Machine.execRodStop w n s
  | .rodClear w n => Sys2Proof.Machine.execRodClear w n s
  | .swTrip w n => Sys2Proof.Machine.execSwTrip w n s
  | .clrLockout w n => Sys2Proof.Machine.execClrLockout w n s
  | .precharge1tau n => Sys2Proof.Machine.execPrecharge1tau n s
  | .precharge3tau n => Sys2Proof.Machine.execPrecharge3tau n s
  | .holdoffEnd n => Sys2Proof.Machine.execHoldoffEnd n s
  | .feedbackSample n cont brk => Sys2Proof.Machine.execFeedbackSample n cont brk s
  | .feedbackTimeout n brk => Sys2Proof.Machine.execFeedbackTimeout n brk s
  | .voltageEval n => Sys2Proof.Machine.execVoltageEval n s
  | .energiseDone n => Sys2Proof.Machine.execEnergiseDone n s
  | .diagStepEnd n => Sys2Proof.Machine.execDiagStepEnd n s
  | .descentEnd n => Sys2Proof.Machine.execDescentEnd n s
  | .descTimeout n => Sys2Proof.Machine.execDescTimeout n s
  | .disLimExpire n => Sys2Proof.Machine.execDisLimExpire n s
  | .disStopExpire n => Sys2Proof.Machine.execDisStopExpire n s
  | .rainflowTick n => Sys2Proof.Machine.execRainflowTick n s
  | .lifeSnap n => Sys2Proof.Machine.execLifeSnap n s
  | .acqTrigger k c src => Sys2Proof.Machine.execAcqTrigger k c src s
  | .softwareTrigger w k v => Sys2Proof.Machine.execSoftwareTrigger w k v s
  | .seqConversion k c => Sys2Proof.Machine.execSeqConversion k c s
  | .conversionDone k c samples => Sys2Proof.Machine.execConversionDone k c samples s
  | .urgentRequest w k c v => Sys2Proof.Machine.execUrgentRequest w k c v s
  | .seqTableWrite w k c e i0 v => Sys2Proof.Machine.execSeqTableWrite w k c e i0 v s
  | .calConversion k c slice => Sys2Proof.Machine.execCalConversion k c slice s
  | .calStarved k c => Sys2Proof.Machine.execCalStarved k c s
  | .converterWake k c => Sys2Proof.Machine.execConverterWake k c s
  | .converterReady k c => Sys2Proof.Machine.execConverterReady k c s
  | .digitizerEdge k d rod pos on t => Sys2Proof.Machine.execDigitizerEdge k d rod pos on t s
  | .timedCaptureStart k d => Sys2Proof.Machine.execTimedCaptureStart k d s
  | .captureEnd k d samples => Sys2Proof.Machine.execCaptureEnd k d samples s
  | .featureExtract k d => Sys2Proof.Machine.execFeatureExtract k d s
  | .drainRecord k => Sys2Proof.Machine.execDrainRecord k s
  | .digitizerWake k d => Sys2Proof.Machine.execDigitizerWake k d s
  | .reckEnable w k => Sys2Proof.Machine.execReckEnable w k s
  | .reckDisable w k => Sys2Proof.Machine.execReckDisable w k s
  | .reckStopped k => Sys2Proof.Machine.execReckStopped k s
  | .clrFatal w k => Sys2Proof.Machine.execClrFatal w k s
  | .memDataAccess w k wr ecc => Sys2Proof.Machine.execMemDataAccess w k wr ecc s
  | .reckSwtrig w k v => Sys2Proof.Machine.execReckSwtrig w k v s
  | .reckTriggerEvent k i0 => Sys2Proof.Machine.execReckTriggerEvent k i0 s
  | .reckWake k => Sys2Proof.Machine.execReckWake k s
  | .spillComplete k ecc => Sys2Proof.Machine.execSpillComplete k ecc s
  | .migrationStart k => Sys2Proof.Machine.execMigrationStart k s
  | .migrationDone k => Sys2Proof.Machine.execMigrationDone k s
  | .illegalInstruction k ecc => Sys2Proof.Machine.execIllegalInstruction k ecc s
  | .add k => Sys2Proof.Machine.execAdd k s
  | .adc k => Sys2Proof.Machine.execAdc k s
  | .sub k => Sys2Proof.Machine.execSub k s
  | .sbc k => Sys2Proof.Machine.execSbc k s
  | .neg k => Sys2Proof.Machine.execNeg k s
  | .cmp k => Sys2Proof.Machine.execCmp k s
  | .and k => Sys2Proof.Machine.execAnd k s
  | .or k => Sys2Proof.Machine.execOr k s
  | .xor k => Sys2Proof.Machine.execXor k s
  | .shl k => Sys2Proof.Machine.execShl k s
  | .shr k => Sys2Proof.Machine.execShr k s
  | .shra k => Sys2Proof.Machine.execShra k s
  | .mul k => Sys2Proof.Machine.execMul k s
  | .mulh k => Sys2Proof.Machine.execMulh k s
  | .mulhu k => Sys2Proof.Machine.execMulhu k s
  | .div k => Sys2Proof.Machine.execDiv k s
  | .divu k => Sys2Proof.Machine.execDivu k s
  | .rem k => Sys2Proof.Machine.execRem k s
  | .remu k => Sys2Proof.Machine.execRemu k s
  | .min k => Sys2Proof.Machine.execMin k s
  | .max k => Sys2Proof.Machine.execMax k s
  | .limit k => Sys2Proof.Machine.execLimit k s
  | .sel k => Sys2Proof.Machine.execSel k s
  | .clz k => Sys2Proof.Machine.execClz k s
  | .exth k => Sys2Proof.Machine.execExth k s
  | .exthh k => Sys2Proof.Machine.execExthh k s
  | .packh k => Sys2Proof.Machine.execPackh k s
  | .adds k => Sys2Proof.Machine.execAdds k s
  | .subs k => Sys2Proof.Machine.execSubs k s
  | .negs k => Sys2Proof.Machine.execNegs k s
  | .abs k => Sys2Proof.Machine.execAbs k s
  | .abss k => Sys2Proof.Machine.execAbss k s
  | .shls k => Sys2Proof.Machine.execShls k s
  | .sath k => Sys2Proof.Machine.execSath k s
  | .qmul k => Sys2Proof.Machine.execQmul k s
  | .qmac k => Sys2Proof.Machine.execQmac k s
  | .qmsu k => Sys2Proof.Machine.execQmsu k s
  | .qdiv k => Sys2Proof.Machine.execQdiv k s
  | .fadd k => Sys2Proof.Machine.execFadd k s
  | .fsub k => Sys2Proof.Machine.execFsub k s
  | .fmul k => Sys2Proof.Machine.execFmul k s
  | .fdiv k => Sys2Proof.Machine.execFdiv k s
  | .fma k => Sys2Proof.Machine.execFma k s
  | .fms k => Sys2Proof.Machine.execFms k s
  | .fsqrt k => Sys2Proof.Machine.execFsqrt k s
  | .fmin k => Sys2Proof.Machine.execFmin k s
  | .fmax k => Sys2Proof.Machine.execFmax k s
  | .fabs k => Sys2Proof.Machine.execFabs k s
  | .fneg k => Sys2Proof.Machine.execFneg k s
  | .fcmp k => Sys2Proof.Machine.execFcmp k s
  | .flim k => Sys2Proof.Machine.execFlim k s
  | .ftoi k => Sys2Proof.Machine.execFtoi k s
  | .itof k => Sys2Proof.Machine.execItof k s
  | .ftoq k => Sys2Proof.Machine.execFtoq k s
  | .qtof k => Sys2Proof.Machine.execQtof k s
  | .sincos k => Sys2Proof.Machine.execSincos k s
  | .clarke k => Sys2Proof.Machine.execClarke k s
  | .iclarke k => Sys2Proof.Machine.execIclarke k s
  | .park k => Sys2Proof.Machine.execPark k s
  | .ipark k => Sys2Proof.Machine.execIpark k s
  | .pidf k ecc => Sys2Proof.Machine.execPidf k ecc s
  | .addi k => Sys2Proof.Machine.execAddi k s
  | .andi k => Sys2Proof.Machine.execAndi k s
  | .ori k => Sys2Proof.Machine.execOri k s
  | .xori k => Sys2Proof.Machine.execXori k s
  | .lui k => Sys2Proof.Machine.execLui k s
  | .cmpi k => Sys2Proof.Machine.execCmpi k s
  | .shli k => Sys2Proof.Machine.execShli k s
  | .shri k => Sys2Proof.Machine.execShri k s
  | .shrai k => Sys2Proof.Machine.execShrai k s
  | .ld k e => Sys2Proof.Machine.execLd k e s
  | .st k => Sys2Proof.Machine.execSt k s
  | .brc k => Sys2Proof.Machine.execBrc k s
  | .bz k => Sys2Proof.Machine.execBz k s
  | .bnz k => Sys2Proof.Machine.execBnz k s
  | .call k => Sys2Proof.Machine.execCall k s
  | .nop k => Sys2Proof.Machine.execNop k s
  | .mfs k => Sys2Proof.Machine.execMfs k s
  | .mts k => Sys2Proof.Machine.execMts k s
  | .jr k => Sys2Proof.Machine.execJr k s
  | .callr k => Sys2Proof.Machine.execCallr k s
  | .ret k => Sys2Proof.Machine.execRet k s
  | .trap k => Sys2Proof.Machine.execTrap k s
  | .waitf k => Sys2Proof.Machine.execWaitf k s
  | .loopRun n => Sys2Proof.Machine.execLoopRun n s
  | .loopRunComplete n => Sys2Proof.Machine.execLoopRunComplete n s
  | .irefDWrite w n v => Sys2Proof.Machine.execIrefDWrite w n v s
  | .irefQWrite w n v => Sys2Proof.Machine.execIrefQWrite w n v s
  | .angleStageWrite w n omega v => Sys2Proof.Machine.execAngleStageWrite w n omega v s
  | .thetaWrite w n v => Sys2Proof.Machine.execThetaWrite w n v s
  | .learnerBinWrite w n b v => Sys2Proof.Machine.execLearnerBinWrite w n b v s
  | .lrnClr w n v => Sys2Proof.Machine.execLrnClr w n v s
  | .mOfsWrite w n v => Sys2Proof.Machine.execMOfsWrite w n v s
  | .renewSend => Sys2Proof.Machine.execRenewSend s
  | .renewRetry => Sys2Proof.Machine.execRenewRetry s
  | .renewRx src m => Sys2Proof.Machine.execRenewRx src m s
  | .beadAckRx src m => Sys2Proof.Machine.execBeadAckRx src m s
  | .noticeRx reason => Sys2Proof.Machine.execNoticeRx reason s
  | .mint w => Sys2Proof.Machine.execMint w s
  | .retire w => Sys2Proof.Machine.execRetire w s
  | .cancelRetire w => Sys2Proof.Machine.execCancelRetire w s
  | .reconcile w => Sys2Proof.Machine.execReconcile w s
  | .ledgerTick => Sys2Proof.Machine.execLedgerTick s
  | .targetRecompute => Sys2Proof.Machine.execTargetRecompute s
  | .replRx hepoch lseq st => Sys2Proof.Machine.execReplRx hepoch lseq st s
  | .replAckRx hepoch lseq want => Sys2Proof.Machine.execReplAckRx hepoch lseq want s
  | .homeHbTx digest => Sys2Proof.Machine.execHomeHbTx digest s
  | .homeHbRx hepoch lseq digest eccOk => Sys2Proof.Machine.execHomeHbRx hepoch lseq digest eccOk s
  | .ledgerCopyRx hepoch l => Sys2Proof.Machine.execLedgerCopyRx hepoch l s
  | .peerSilent => Sys2Proof.Machine.execPeerSilent s
  | .rampStart => Sys2Proof.Machine.execRampStart s
  | .rampTick => Sys2Proof.Machine.execRampTick s
  | .leaseLapse => Sys2Proof.Machine.execLeaseLapse s
  | .lapseTimeout => Sys2Proof.Machine.execLapseTimeout s
  | .estimatorRound => Sys2Proof.Machine.execEstimatorRound s
  | .roundComplete => Sys2Proof.Machine.execRoundComplete s
  | .cellLoad w => Sys2Proof.Machine.execCellLoad w s
  | .cellReset w => Sys2Proof.Machine.execCellReset w s
  | .cellExclude w => Sys2Proof.Machine.execCellExclude w s
  | .cellInclude w => Sys2Proof.Machine.execCellInclude w s
  | .ceaEnable w => Sys2Proof.Machine.execCeaEnable w s
  | .eisReq w v => Sys2Proof.Machine.execEisReq w v s
  | .eisStart r => Sys2Proof.Machine.execEisStart r s
  | .eisPlanDeadline r => Sys2Proof.Machine.execEisPlanDeadline r s
  | .eisInjectStart r => Sys2Proof.Machine.execEisInjectStart r s
  | .eisMeasureStart r => Sys2Proof.Machine.execEisMeasureStart r s
  | .eisMeasureEnd r => Sys2Proof.Machine.execEisMeasureEnd r s
  | .eisCollectTimeout r => Sys2Proof.Machine.execEisCollectTimeout r s
  | .canFrameRx n f sof => Sys2Proof.Machine.execCanFrameRx n f sof s
  | .canFrameTxDone n r sof => Sys2Proof.Machine.execCanFrameTxDone n r sof s
  | .txPush w n v => Sys2Proof.Machine.execTxPush w n v s
  | .abortHead w n => Sys2Proof.Machine.execAbortHead w n s
  | .rx0Pop w n => Sys2Proof.Machine.execRx0Pop w n s
  | .rx1Pop w n => Sys2Proof.Machine.execRx1Pop w n s
  | .boRecover w n => Sys2Proof.Machine.execBoRecover w n s
  | .busOffRecovery n => Sys2Proof.Machine.execBusOffRecovery n s
  | .rateDwellTimeout n => Sys2Proof.Machine.execRateDwellTimeout n s
  | .sleepRequest w n on => Sys2Proof.Machine.execSleepRequest w n on s
  | .enterAsleep n => Sys2Proof.Machine.execEnterAsleep n s
  | .watchWake n f => Sys2Proof.Machine.execWatchWake n f s
  | .watchFalse n => Sys2Proof.Machine.execWatchFalse n s
  | .controllerShutDone n => Sys2Proof.Machine.execControllerShutDone n s
  | .timeRefDue n => Sys2Proof.Machine.execTimeRefDue n s
  | .trefNow w n => Sys2Proof.Machine.execTrefNow w n s
  | .unavailableTx => Sys2Proof.Machine.execUnavailableTx s
  | .messageStall n a cls => Sys2Proof.Machine.execMessageStall n a cls s
  | .reportCellsRx n => Sys2Proof.Machine.execReportCellsRx n s
  | .alarmRx n => Sys2Proof.Machine.execAlarmRx n s
  | .wakeReqRx n => Sys2Proof.Machine.execWakeReqRx n s
  | .balanceAckRx n => Sys2Proof.Machine.execBalanceAckRx n s
  | .samplePlanAckRx n => Sys2Proof.Machine.execSamplePlanAckRx n s
  | .eisResultRx n => Sys2Proof.Machine.execEisResultRx n s
  | .identResponseRx n => Sys2Proof.Machine.execIdentResponseRx n s
  | .lifeResponseRx n => Sys2Proof.Machine.execLifeResponseRx n s
  | .identAll w n => Sys2Proof.Machine.execIdentAll w n s
  | .lifeAll w n => Sys2Proof.Machine.execLifeAll w n s
  | .identPeriodic n => Sys2Proof.Machine.execIdentPeriodic n s
  | .lifePeriodic n => Sys2Proof.Machine.execLifePeriodic n s
  | .challengeTimeout n a life => Sys2Proof.Machine.execChallengeTimeout n a life s
  | .housekeepingRound r => Sys2Proof.Machine.execHousekeepingRound r s
  | .rateEval => Sys2Proof.Machine.execRateEval s
  | .latchClear w reg v => Sys2Proof.Machine.execLatchClear w reg v s
  | .restThermCheck ts => Sys2Proof.Machine.execRestThermCheck ts s
  | .stepTarget w n v => Sys2Proof.Machine.execStepTarget w n v s
  | .stepStop w n => Sys2Proof.Machine.execStepStop w n s
  | .stepHalt w n => Sys2Proof.Machine.execStepHalt w n s
  | .stepHome w n => Sys2Proof.Machine.execStepHome w n s
  | .stepPosWrite w n v => Sys2Proof.Machine.execStepPosWrite w n v s
  | .stepperTick n => Sys2Proof.Machine.execStepperTick n s
  | .loadAngleEstimate n c => Sys2Proof.Machine.execLoadAngleEstimate n c s
  | .standstillEntry n => Sys2Proof.Machine.execStandstillEntry n s
  | .coilOpenDetect n coilB cur us => Sys2Proof.Machine.execCoilOpenDetect n coilB cur us s
  | .overcurrentDetect n cur us => Sys2Proof.Machine.execOvercurrentDetect n cur us s
  | .stepperShutDone n => Sys2Proof.Machine.execStepperShutDone n s
  | .pcntEdge n e => Sys2Proof.Machine.execPcntEdge n e s
  | .countWrite w n v => Sys2Proof.Machine.execCountWrite w n v s
  | .observerUpdate n => Sys2Proof.Machine.execObserverUpdate n s
  | .safetyCycle rb busy => Sys2Proof.Machine.execSafetyCycle rb busy s
  | .sgrTripResend r => Sys2Proof.Machine.execSgrTripResend r s
  | .safeInLevel i0 v => Sys2Proof.Machine.execSafeInLevel i0 v s
  | .pairDiscrepancy m => Sys2Proof.Machine.execPairDiscrepancy m s
  | .safetyReset ms => Sys2Proof.Machine.execSafetyReset ms s
  | .resetJammed => Sys2Proof.Machine.execResetJammed s
  | .safeMsgTx => Sys2Proof.Machine.execSafeMsgTx s
  | .safeMsgRx eth b => Sys2Proof.Machine.execSafeMsgRx eth b s
  | .pairWinExpire j => Sys2Proof.Machine.execPairWinExpire j s
  | .singleLimExpire j => Sys2Proof.Machine.execSingleLimExpire j s
  | .safeMsgWdt j => Sys2Proof.Machine.execSafeMsgWdt j s
  | .lockstepMismatch pc => Sys2Proof.Machine.execLockstepMismatch pc s
  | .pairEccError e addr pc => Sys2Proof.Machine.execPairEccError e addr pc s
  | .pairWdtFault pc => Sys2Proof.Machine.execPairWdtFault pc s
  | .testAgeTick => Sys2Proof.Machine.execTestAgeTick s
  | .scrubPass e addr pc => Sys2Proof.Machine.execScrubPass e addr pc s
  | .fabBlockLock l => Sys2Proof.Machine.execFabBlockLock l s
  | .helloTx l => Sys2Proof.Machine.execHelloTx l s
  | .helloRx l h => Sys2Proof.Machine.execHelloRx l h s
  | .helloTimeout l => Sys2Proof.Machine.execHelloTimeout l s
  | .faultRecheck l => Sys2Proof.Machine.execFaultRecheck l s
  | .resyncTimeout l => Sys2Proof.Machine.execResyncTimeout l s
  | .blockLockLoss l => Sys2Proof.Machine.execBlockLockLoss l s
  | .linkSilent l => Sys2Proof.Machine.execLinkSilent l s
  | .holdEnd l => Sys2Proof.Machine.execHoldEnd l s
  | .coordWaitExpire l => Sys2Proof.Machine.execCoordWaitExpire l s
  | .parcelRx l p => Sys2Proof.Machine.execParcelRx l p s
  | .statusTx l => Sys2Proof.Machine.execStatusTx l s
  | .statusRx l m => Sys2Proof.Machine.execStatusRx l m s
  | .replayTimeout l => Sys2Proof.Machine.execReplayTimeout l s
  | .resyncReqRx l mask next => Sys2Proof.Machine.execResyncReqRx l mask next s
  | .resyncAckRx l mask freed => Sys2Proof.Machine.execResyncAckRx l mask freed s
  | .resyncReqResend l => Sys2Proof.Machine.execResyncReqResend l s
  | .announceTx => Sys2Proof.Machine.execAnnounceTx s
  | .announceRx l => Sys2Proof.Machine.execAnnounceRx l s
  | .electTx => Sys2Proof.Machine.execElectTx s
  | .deviceUnreachable a => Sys2Proof.Machine.execDeviceUnreachable a s
  | .breqRx l e => Sys2Proof.Machine.execBreqRx l e s
  | .brspRx l => Sys2Proof.Machine.execBrspRx l s
  | .txqWrWrite w v => Sys2Proof.Machine.execTxqWrWrite w v s
  | .txnTimeout tag => Sys2Proof.Machine.execTxnTimeout tag s
  | .deliverDrop l => Sys2Proof.Machine.execDeliverDrop l s
  | .masterTake => Sys2Proof.Machine.execMasterTake s
  | .connectionArrival k data => Sys2Proof.Machine.execConnectionArrival k data s
  | .recordRx n ct m => Sys2Proof.Machine.execRecordRx n ct m s
  | .gateDecision n => Sys2Proof.Machine.execGateDecision n s
  | .sessionRead n => Sys2Proof.Machine.execSessionRead n s
  | .sessionWrite n => Sys2Proof.Machine.execSessionWrite n s
  | .openTunnel n => Sys2Proof.Machine.execOpenTunnel n s
  | .closeTunnel n => Sys2Proof.Machine.execCloseTunnel n s
  | .service n => Sys2Proof.Machine.execService n s
  | .tokenRefill => Sys2Proof.Machine.execTokenRefill s
  | .sessionIdle n => Sys2Proof.Machine.execSessionIdle n s
  | .sessionPeerClose n reset => Sys2Proof.Machine.execSessionPeerClose n reset s
  | .sessOpen w => Sys2Proof.Machine.execSessOpen w s
  | .sessClose w => Sys2Proof.Machine.execSessClose w s
  | .sessRefuse w => Sys2Proof.Machine.execSessRefuse w s
  | .serviceReply w v => Sys2Proof.Machine.execServiceReply w v s
  | .tunnelOpenRx src m => Sys2Proof.Machine.execTunnelOpenRx src m s
  | .tunnelOpenAckRx src m => Sys2Proof.Machine.execTunnelOpenAckRx src m s
  | .tunnelReqRx src m => Sys2Proof.Machine.execTunnelReqRx src m s
  | .tunnelRspRx src m => Sys2Proof.Machine.execTunnelRspRx src m s
  | .tunnelCloseRx src m => Sys2Proof.Machine.execTunnelCloseRx src m s
  | .tunnelTimeout n c => Sys2Proof.Machine.execTunnelTimeout n c s
  | .fragmentTimeout => Sys2Proof.Machine.execFragmentTimeout s
  | .sha256 w => Sys2Proof.Machine.execSha256 w s
  | .edSign w slot => Sys2Proof.Machine.execEdSign w slot s
  | .edVerify w slot => Sys2Proof.Machine.execEdVerify w slot s
  | .x25519 w slot => Sys2Proof.Machine.execX25519 w slot s
  | .gcmSeal w slot => Sys2Proof.Machine.execGcmSeal w slot s
  | .gcmOpen w slot => Sys2Proof.Machine.execGcmOpen w slot s
  | .random w => Sys2Proof.Machine.execRandom w s
  | .keyGen w slot ty => Sys2Proof.Machine.execKeyGen w slot ty s
  | .keyImport w slot ty => Sys2Proof.Machine.execKeyImport w slot ty s
  | .keyErase w slot => Sys2Proof.Machine.execKeyErase w slot s
  | .cryptoDone => Sys2Proof.Machine.execCryptoDone s
  | .entHealth fail => Sys2Proof.Machine.execEntHealth fail s
  | .postTake z => Sys2Proof.Machine.execPostTake z s
  | .flushRound => Sys2Proof.Machine.execFlushRound s
  | .cmdFlush w => Sys2Proof.Machine.execCmdFlush w s
  | .flushRoundDone => Sys2Proof.Machine.execFlushRoundDone s
  | .seal zs => Sys2Proof.Machine.execSeal zs s
  | .storeOpen a b => Sys2Proof.Machine.execStoreOpen a b s
  | .storeOpenDone => Sys2Proof.Machine.execStoreOpenDone s
  | .storeClose => Sys2Proof.Machine.execStoreClose s
  | .format w => Sys2Proof.Machine.execFormat w s
  | .storeRead w v => Sys2Proof.Machine.execStoreRead w v s
  | .tallyReplRx src m => Sys2Proof.Machine.execTallyReplRx src m s
  | .tallyReplAckRx src c orig => Sys2Proof.Machine.execTallyReplAckRx src c orig s
  | .tallyReplResend c rseq => Sys2Proof.Machine.execTallyReplResend c rseq s
  | .nvmeCmdTimeout k => Sys2Proof.Machine.execNvmeCmdTimeout k s
  | .nvmeCompletion k e => Sys2Proof.Machine.execNvmeCompletion k e s
  | .nsCreate w k => Sys2Proof.Machine.execNsCreate w k s
  | .nsDelete w k => Sys2Proof.Machine.execNsDelete w k s
  | .nsAttach w k => Sys2Proof.Machine.execNsAttach w k s
  | .wdtArm w period => Sys2Proof.Machine.execWdtArm w period s
  | .wdtKick w v => Sys2Proof.Machine.execWdtKick w v s
  | .wdtHalf => Sys2Proof.Machine.execWdtHalf s
  | .wdtExpire => Sys2Proof.Machine.execWdtExpire s
  | .timerInterrupt h => Sys2Proof.Machine.execTimerInterrupt h s
  | .eccDoubleError ddr addr hart => Sys2Proof.Machine.execEccDoubleError ddr addr hart s
  | .hartRelease w en => Sys2Proof.Machine.execHartRelease w en s
  | .idcode => Sys2Proof.Machine.execIdcode s
  | .samplePreload => Sys2Proof.Machine.execSamplePreload s
  | .extest => Sys2Proof.Machine.execExtest s
  | .extestPulse => Sys2Proof.Machine.execExtestPulse s
  | .extestTrain => Sys2Proof.Machine.execExtestTrain s
  | .clamp => Sys2Proof.Machine.execClamp s
  | .highz => Sys2Proof.Machine.execHighz s
  | .dtmcs => Sys2Proof.Machine.execDtmcs s
  | .dmi a wr v h => Sys2Proof.Machine.execDmi a wr v h s
  | .bypass => Sys2Proof.Machine.execBypass s
  | .tapReset => Sys2Proof.Machine.execTapReset s
  | .debugHalt h => Sys2Proof.Machine.execDebugHalt h s
  | .debugResume h => Sys2Proof.Machine.execDebugResume h s
  | .powerUpSequence revs => Sys2Proof.Machine.execPowerUpSequence revs s
  | .pgRise i0 => Sys2Proof.Machine.execPgRise i0 s
  | .pgTimeout i0 => Sys2Proof.Machine.execPgTimeout i0 s
  | .sequenceRetry => Sys2Proof.Machine.execSequenceRetry s
  | .supplyLoss i0 => Sys2Proof.Machine.execSupplyLoss i0 s
  | .pmbusPoll r => Sys2Proof.Machine.execPmbusPoll r s
  | .pmbAlert r => Sys2Proof.Machine.execPmbAlert r s
  | .handoverDecision vaux vbak => Sys2Proof.Machine.execHandoverDecision vaux vbak s
  | .handoverDone => Sys2Proof.Machine.execHandoverDone s
  | .returnDecision => Sys2Proof.Machine.execReturnDecision s
  | .returnDone => Sys2Proof.Machine.execReturnDone s
  | .vbakLowDeep vbak => Sys2Proof.Machine.execVbakLowDeep vbak s
  | .backupTallyTick => Sys2Proof.Machine.execBackupTallyTick s
  | .crystalReady x => Sys2Proof.Machine.execCrystalReady x s
  | .crystalFail x => Sys2Proof.Machine.execCrystalFail x s
  | .pllUnlock i0 => Sys2Proof.Machine.execPllUnlock i0 s
  | .degradedStart => Sys2Proof.Machine.execDegradedStart s
  | .restRequest w t => Sys2Proof.Machine.execRestRequest w t s
  | .restAbort w => Sys2Proof.Machine.execRestAbort w s
  | .requestTimeout => Sys2Proof.Machine.execRequestTimeout s
  | .enterQuiet stop => Sys2Proof.Machine.execEnterQuiet stop s
  | .enterRest stop => Sys2Proof.Machine.execEnterRest stop s
  | .enterDeep stop => Sys2Proof.Machine.execEnterDeep stop s
  | .wakeCause c => Sys2Proof.Machine.execWakeCause c s
  | .wakeComplete us => Sys2Proof.Machine.execWakeComplete us s
  | .domainLingerExpire i0 => Sys2Proof.Machine.execDomainLingerExpire i0 s
  | .aonAlarm => Sys2Proof.Machine.execAonAlarm s
  | .powerOnReset sel vaux vbak testEn => Sys2Proof.Machine.execPowerOnReset sel vaux vbak testEn s
  | .resetPin sel testEn => Sys2Proof.Machine.execResetPin sel testEn s
  | .softwareReset w key scope => Sys2Proof.Machine.execSoftwareReset w key scope s
  | .boot bad mems ddr kcrcOk us => Sys2Proof.Machine.execBoot bad mems ddr kcrcOk us s
  | .lifeAdvance w key t burn => Sys2Proof.Machine.execLifeAdvance w key t burn s
  | .cfErase w => Sys2Proof.Machine.execCfErase w s
  | .cfProgram w => Sys2Proof.Machine.execCfProgram w s
  | .cfOpDone ok => Sys2Proof.Machine.execCfOpDone ok s
  | .profileSelect w p => Sys2Proof.Machine.execProfileSelect w p s
  | .loaderStatus w => Sys2Proof.Machine.execLoaderStatus w s
  | .loaderErase w r ofs len => Sys2Proof.Machine.execLoaderErase w r ofs len s
  | .loaderWrite w r ofs data => Sys2Proof.Machine.execLoaderWrite w r ofs data s
  | .loaderReset w => Sys2Proof.Machine.execLoaderReset w s
  | .eventAreaWrite => Sys2Proof.Machine.execEventAreaWrite s
  | .lbistSlot => Sys2Proof.Machine.execLbistSlot s
  | .slotSkip => Sys2Proof.Machine.execSlotSkip s
  | .lbistTestDone pass mems => Sys2Proof.Machine.execLbistTestDone pass mems s
  | .dteMemoryTest w id => Sys2Proof.Machine.execDteMemoryTest w id s
  | .dteLogicTest w core => Sys2Proof.Machine.execDteLogicTest w core s
  | .dteBurnRepair w id => Sys2Proof.Machine.execDteBurnRepair w id s
  | .dteDone pass t => Sys2Proof.Machine.execDteDone pass t s
  | .crossingReset i0 lost => Sys2Proof.Machine.execCrossingReset i0 lost s
  | .syncMiss => Sys2Proof.Machine.execSyncMiss s
  | .ppsOutWidthEnd => Sys2Proof.Machine.execPpsOutWidthEnd s
  | .drvTrippedTimeout n => Sys2Proof.Machine.execDrvTrippedTimeout n s
  | .uplinkFrameDiscard k frame violations => Sys2Proof.Machine.execUplinkFrameDiscard k frame violations s
  | .canBusError n => Sys2Proof.Machine.execCanBusError n s
  | .ethFrameRx k data => Sys2Proof.Machine.execEthFrameRx k data s
  | .ethLinkChg k link lock => Sys2Proof.Machine.execEthLinkChg k link lock s
  | .bakLow vbak => Sys2Proof.Machine.execBakLow vbak s
  | .vauxOkChange vaux => Sys2Proof.Machine.execVauxOkChange vaux s
  | .domainWakeDone i0 => Sys2Proof.Machine.execDomainWakeDone i0 s
  | .digitizerReady k d => Sys2Proof.Machine.execDigitizerReady k d s
  | .safeInRestSample levels => Sys2Proof.Machine.execSafeInRestSample levels s
  | .lowWordRead w p off size => Sys2Proof.Machine.execLowWordRead w p off size s
  | .modStatRead w n a => Sys2Proof.Machine.execModStatRead w n a s

end Sys2Proof.Machine
end

