-- ==== Sys2Proof/Safety.lean ====
section
/-! DEFINITION. What claims speak of: a next state, what a command leaves unchanged, and the canonical form of the
memories. -/

namespace Sys2Proof.Machine

/-- Every word of board space but those of the listed pages and offsets reads as before. -/
def SameRegs (s t : State) (l : List (Nat × Nat)) : Prop :=
  ∀ k, (∀ e, e ∈ l → k ≠ bkey e.1 e.2) → tabGet resetWord t.board k = tabGet resetWord s.board k

/-- Every byte and word of the memories outside board space reads as before: LPDDR5, the flash, the pair's memory, the
common store. -/
def SameMem (s t : State) : Prop :=
  (∀ a, t.memByte a = s.memByte a) ∧ (∀ a, t.cfByte a = s.cfByte a) ∧ t.pairMem = s.pairMem ∧
    (∀ i, t.commonWord i = s.commonWord i)

/-- The memories and the register board are in their canonical form. -/
def memWf (s : State) : Bool :=
  tabWf resetWord s.board && tabWf (fun _ => (0 : Byte)) s.mem && tabWf (fun _ => (0 : Word)) s.common &&
    tabWf (fun _ => (0xFF : Byte)) s.cf && tabWf (fun _ => (0 : Byte)) s.pairMem

/-- Reckoner `k` is about to execute the word `w`, of opcode `op` and, in the formats that have one, function `fn`: it
executes, its core has not failed its self-test, and the program counter lies in IRAM. -/
abbrev State.atInstr (s : State) (k op : Nat) (fn : Option Nat) (w : Nat) : Prop :=
  s.reckRuns k = true ∧ s.bist.fatals.contains k = false ∧ (s.reckX k).pc < 65536 ∧ s.fetch k = w ∧ iOP w = op ∧
    (fn = none ∨ fn = some (iFN w))

/-- The state after an instruction that writes `v` to its D register and FLAGS, and goes on. -/
def State.wrote (s : State) (k w v fl : Nat) : State :=
  s.setReckX k { (s.reckX k).setR (iD w) v with flags := fl, pc := (s.reckX k).pc + 4 }

/-- The state after an instruction that writes only FLAGS, and goes on. -/
def State.wroteFlags (s : State) (k fl : Nat) : State :=
  s.setReckX k { s.reckX k with flags := fl, pc := (s.reckX k).pc + 4 }

/-- The state with the stage of a rod's START changed. -/
def State.withStart (s : State) (n : Nat) (x : StartStage) : State := s.setRod n { s.rod n with start := some x }

/-- The domain of page `p` answers (R54), and no other owner's lease refuses an action of `w` there (R48). -/
abbrev State.mayAct (s : State) (w : Writer) (p : Nat) : Prop :=
  s.pageRests p = false ∧ leaseRefuses s w p false true = false

end Sys2Proof.Machine
end

