-- ==== Sys2Proof/Certificates/Slice0/Obligations.lean ====
section
/-! DEFINITION. The statements for the provers: the queue and the step, the canonical form of the memories, and for
every family of commands what they do.  A statement of several parts names them under Claims. -/

open Sys2Proof Sys2Proof.Machine

/-! ## The queue, the step and the memories -/

/-- A step with a command at the front of the queue runs it with the queue's rest. -/
def Obligations.StepRunsFront : Prop :=
  ∀ (s : State) (c : Instr) (rest : List Instr), s.pending = c :: rest → step s = exec c { s with pending := rest }

/-- Log 1 (the model's choice): on an empty queue a step is one tick of 2.5 ns. -/
def Obligations.EmptyQueueTicks : Prop :=
  ∀ s : State, s.pending = [] → step s = .next s.tick

/-- At reset every word of board space reads as its register's reset value, the memories read as erased or cleared, no
command waits, nothing has been sent, and the beam, the safety functions and the store hold nothing.  The values of
memories are the model's (log 3, 4). -/
def Obligations.ResetState : Prop :=
  memWf State.reset = true ∧ State.reset.pending = [] ∧ State.reset.out = [] ∧
    (∀ p off, State.reset.word p off = resetWord (bkey p off)) ∧ (∀ a, State.reset.memByte a = 0) ∧
    (∀ a, State.reset.cfByte a = 0xFF) ∧ (∀ i, State.reset.commonWord i = 0) ∧
    State.reset.get pBEAM BEAM.STAT_LOCK = 0 ∧ State.reset.dev = dvRUN ∧ State.reset.storeSt = tsCLOSED ∧
    (∀ r : Fin 24, State.reset.rodSt r = stOFF) ∧ ∀ k : Fin 32, State.reset.rkSt k = rkSTOPPED

/-- The canonical form of the register board and of the four memories is an invariant of every step, from every state. -/
def Obligations.StepKeepsMemWf : Prop :=
  ∀ s t : State, memWf s = true → step s = .next t → memWf t = true

/-- No command touches the queue of commands. -/
def Obligations.CommandsKeepQueue : Prop :=
  ∀ (i : Instr) (s t : State), exec i s = .next t → t.pending = s.pending

/-- No command stops the block: every command, on every state, answers a next state. -/
def Obligations.NoCommandStops : Prop :=
  ∀ (i : Instr) (s : State), ∃ t, exec i s = .next t

/-- Commands that may write LPDDR5, and no other memory. -/
def Claims.writesLpddr5 : Instr → Bool
  | .drainRecord .. | .roundComplete .. | .canFrameRx .. | .reportCellsRx .. | .alarmRx .. | .wakeReqRx ..
  | .balanceAckRx .. | .samplePlanAckRx .. | .eisResultRx .. | .identResponseRx .. | .lifeResponseRx ..
  | .parcelRx .. | .brspRx .. | .txqWrWrite .. | .txnTimeout .. | .connectionArrival .. | .recordRx .. | .service ..
  | .cryptoDone .. | .postTake .. | .seal .. | .storeRead .. | .ethFrameRx .. => true
  | _ => false

/-- Commands that may write more than one of the memories outside board space. -/
def Claims.writesMemories : Instr → Bool
  | .registerWrite .. | .pgCtlLock .. | .pgCtlDiscard .. | .leaseReq .. | .leaseRel .. | .pgCtlEnable ..
  | .pwrReqWrite .. | .pgCommit .. | .injArm .. | .restPageAccess .. | .reckEnable .. | .reckDisable .. | .pidf ..
  | .st .. | .ceaEnable .. | .housekeepingRound .. | .breqRx .. | .sessionWrite .. | .wdtExpire .. | .supplyLoss ..
  | .crystalFail .. | .pllUnlock .. | .wakeComplete .. | .powerOnReset .. | .resetPin .. | .softwareReset ..
  | .boot .. | .lifeAdvance .. | .cfOpDone .. | .profileSelect .. | .loaderErase .. | .loaderWrite ..
  | .loaderReset .. | .eventAreaWrite .. | .dteDone .. | .domainWakeDone .. => true
  | _ => false

/-- Every other command leaves every memory outside board space unchanged; those that store to LPDDR5 leave the flash, the
common store and the pair's memory unchanged. -/
def Obligations.MemoryFrame : Prop :=
  ∀ (i : Instr) (s t : State), exec i s = .next t → Claims.writesMemories i = false →
    (Claims.writesLpddr5 i = false → SameMem s t) ∧
    t.cf = s.cf ∧ t.common = s.common ∧ t.pairMem = s.pairMem

/-! ## The counting boards (spec/02) -/

/-- R39, R41, R42, R51: a 32-bit write to a register of one access code, on a page of a block without rules of its own
whose domain is active and that no other owner leases.  RW bits take the value written; a register without writable bits,
and a WL register of a locked page, refuse; an ST register stages the word, of a session or a device only under its
lease. -/
def Claims.BoardPlainWrite : Prop :=
  ∀ (w : Writer) (p off : Fin 4096) (v : Word) (s : State) (r : Reg) (m : Nat),
    64 ≤ off.val → off.val % 4 = 0 → regAt p off = some r →
    (pageType p = some .sup ∨ pageType p = some .clk ∨ pageType p = some .tdig ∨ pageType p = some .inj) →
    s.dom (pageDom p) = .active → s.leasedByOther w p = false →
    (r.acc = [(.rw, m)] → exec (.registerWrite w p off 2 v) s = .next
      ((s.setWord p off ((s.word p off &&& ~~~wordOf m) ||| (v &&& wordOf m))).answer w .ok)) ∧
    (r.acc = [] → exec (.registerWrite w p off 2 v) s = .next
      ((s.countRefused w p .writeRefused).answer w .writeRefused)) ∧
    (r.acc = [(.wl, m)] → m ≠ 0 → m < 2 ^ 32 → s.locked p = true → exec (.registerWrite w p off 2 v) s = .next
      (((s.err p 0).countRefused w p .writeRefused).answer w .writeRefused)) ∧
    (r.acc = [(.st, m)] → m ≠ 0 → m < 2 ^ 32 → (w.isRemote = false ∨ s.holdsLease w p = true) →
      (s.pg p).staged.length < 64 → exec (.registerWrite w p off 2 v) s = .next
        ((s.stage p (bkey p off) ((v &&& wordOf m) ||| (s.word p off &&& ~~~wordOf m))).answer w .ok))

/-- R31, R33, R54: a write to a page that does not exist is answered NO_PAGE to a session or a device, is an access fault
on the APC and SPC, and traps a reckoner that runs; a narrow or misaligned write to a page that answers sets PG_ERR.SIZE
and is answered BAD_LENGTH; any other write is the page's own, answered with its code.  A local access that nothing
answers is an access fault, or the trap of a reckoner that runs. -/
def Claims.BoardWriteErrors : Prop :=
  ∀ (w : Writer) (p off : Fin 4096) (z : Fin 3) (v : Word) (s : State),
    (ownerPage p = none → w.isRemote = true → exec (.registerWrite w p off z v) s = .next (s.answer w .noPage)) ∧
    (ownerPage p = none → (w = .spc ∨ w = .spcB ∨ ∃ h, w = .apc h) →
      exec (.registerWrite w p off z v) s = .next (s.send (.accessFault w p off))) ∧
    (∀ k, ownerPage p = none → w = .reck k → s.reckRuns k = true →
      exec (.registerWrite w p off z v) s = .next (s.trapHere k tcACCESS)) ∧
    (∀ o, ownerPage p = some o → (z ≠ 2 ∨ off.val % 4 ≠ 0) → s.dom (accDom p) = .active →
      exec (.registerWrite w p off z v) s = .next (((s.err o 3).countRefused w o .badLength).answer w .badLength)) ∧
    (∀ o, ownerPage p = some o → z = 2 → off.val % 4 = 0 →
      exec (.registerWrite w p off z v) s = .next ((s.wordWrite w p off v).1.answer w (s.wordWrite w p off v).2)) ∧
    ((w = .spc ∨ w = .spcB ∨ ∃ h, w = .apc h) →
      exec (.localAccessTimeout w p off) s = .next (s.send (.accessFault w p off))) ∧
    (∀ k, s.reckRuns k.val = true → exec (.localAccessTimeout (.reck k) p off) s = .next (s.trapHere k tcBOARD)) ∧
    (∀ k, s.reckRuns k.val = false → exec (.localAccessTimeout (.reck k) p off) s = .next s) ∧
    (w.isRemote = true → exec (.localAccessTimeout w p off) s = .next s)

/-- R53, R54, R55, R59, R66, R360: domains that drain and wake, a transaction that ends unanswered, a line that is
delivered or waits, and the reads that act: NOW_NS latches the seconds of its own tick, MOD_STAT clears ALARM. -/
def Claims.BoardDomains : Prop :=
  ∀ (w : Writer) (p : Fin 4096) (s : State),
    (∀ i : Fin 8, s.dom (domOf i) = .draining →
      exec (.domainDrained i) s = .next (s.domRest (domOf i)) ∧ (s.domRest (domOf i)).dom (domOf i) = .resting) ∧
    (∀ i : Fin 8, s.dom (domOf i) ≠ .draining → exec (.domainDrained i) s = .next s) ∧
    (∀ i : Fin 8, s.dom (domOf i) = .waking → exec (.domainWakeDone i) s = .next (s.domDone (domOf i))) ∧
    (∀ a, s.waits = [a] → a.w = w → a.page = p.val → a.tag = none →
      exec (.remoteTimeout w p) s = .next (({ s with waits := [] }).send (.resp w .timeout 0 []))) ∧
    (∀ n : Fin 256, s.linePending n = true → s.lineKind n ≠ 0 → s.lineKind n ≠ 1 → s.dom .rd = .active →
      exec (.eventLineDeliver n) s = .next
        (s.send (.eventLine n (s.lineKind n) (s.get pSYS (SYS.EVR_ROUTE_DST_SEL n))))) ∧
    (∀ n : Fin 256, s.linePending n = true → s.lineKind n = 1 → s.dom .rd = .active →
      exec (.eventLineDeliver n) s = .next
        ((bitsSet 4 (s.get pSYS (SYS.EVR_ROUTE_DST_SEL n))).foldl (fun (s : State) h => s.hartIrq h (s.extCode h))
          (s.send (.eventLine n 1 (s.get pSYS (SYS.EVR_ROUTE_DST_SEL n)))))) ∧
    (∀ n : Fin 256, s.linePending n = true → s.lineKind n ≠ 0 → s.dom .rd ≠ .active →
      exec (.eventLineDeliver n) s = .next
        (if s.flag pSYS (SYS.EVR_ROUTE_WAKE n) then s.wakeCause wcEVENT else s)) ∧
    (s.dom .rd = .active → exec (.nowNsRead w) s = .next (s.readNowNs.1.send (.resp w .ok 1 [s.readNowNs.2]))) ∧
    (∀ (n : Fin 32) (a : Fin 24), s.dom (.fd (n.val / 8)) = .active → exec (.modStatRead w n a) s = .next
      ((s.set (pMBUS n) (MBUS.MOD_STAT_ALARM a) 0).send (.resp w .ok 1 [s.word (pMBUS n) (MBUS.MOD_STAT a)])))

/-- The parts above: BoardPlainWrite, BoardWriteErrors, BoardDomains. -/
def Obligations.BoardWrites : Prop :=
  Claims.BoardPlainWrite ∧ Claims.BoardWriteErrors ∧ Claims.BoardDomains

/-- R36, R46, R47, R50, R52, R53: writes of PG_CTL on a page whose block is off, whose domain is active and that no
other owner leases.  LOCK locks; DISCARD drops the staged words; LEASE_REQ grants the lease for the time written and
discards the staged words, or renews it; LEASE_REL ends it; EN enables; PWR_REQ is stored.  (Pages whose own rules act on
EN, LOCK or PWR_REQ have statements of their own.) -/
def Claims.BoardPageControl : Prop :=
  ∀ (w : Writer) (p : Fin 4096) (s : State) (y : PType), pageType p = some y → y ∉ [.prot, .reck, .fdc, .safe] →
    s.dom (pageDom p) = .active → s.leasedByOther w p = false → (s.pg p).enWait = none → s.en p = false →
    s.flag p PG.STAT_SHUTTING = false → s.get p PG.CTL_PWR_REQ = 0 → s.get p PG.CTL_DISCARD = 0 →
    s.get p PG.CTL_LEASE_REQ = 0 → s.get p PG.CTL_LEASE_REL = 0 →
    (∃ t, exec (.pgCtlLock w p) s = .next t ∧ t.locked p = true ∧ SameMem s t) ∧
    (∃ t, exec (.pgCtlDiscard w p) s = .next t ∧ (t.pg p).staged = [] ∧ (t.pg p).lease = (s.pg p).lease ∧ SameMem s t) ∧
    (∀ time : Fin 256, ∃ t, exec (.leaseReq w p time) s = .next t ∧
      (t.pg p).lease = some { owner := w, remain := if time.val = 0 then 2000 else 100 * time.val } ∧
      ((s.pg p).lease = none → (t.pg p).staged = []) ∧ SameMem s t) ∧
    (s.holdsLease w p = true → ∃ t, exec (.leaseRel w p) s = .next t ∧ (t.pg p).lease = none ∧ (t.pg p).staged = [] ∧
      t.bit p PG.EV_STAT 2 = true ∧ SameMem s t) ∧
    (y ∉ [.beads, .cea, .loop, .mbus, .step, .tally, .nvme, .fab, .tdig] →
      ∃ t, exec (.pgCtlEnable w p true) s = .next t ∧ t.en p = true ∧ t.flag p PG.STAT_ENABLED = true ∧ SameMem s t) ∧
    (∀ r : Fin 4, ∃ t, exec (.pwrReqWrite w p r none) s = .next t ∧ t.get p PG.CTL_PWR_REQ = r.val ∧ SameMem s t)

/-- R49, R50: a session's or a device's lease counts down, a local one does not; at 0 the lease ends: the staged words are
dropped and LEASE_LOST is set, and a commit of the same cycle (a beam tick: log 171, the model's choice) is refused with
PG_ERR.LEASE.  So ends the lease of an owner that is lost. -/
def Claims.BoardLeaseEnds : Prop :=
  ∀ (p : Fin 4096) (s : State) (l : Lease), (s.pg p).lease = some l →
    let gone := (s.setPg p { s.pg p with lease := none, staged := [] }).ev p 2
    (∀ ms : Fin 65536, l.owner.isRemote = true → l.remain ≤ ms.val → exec (.leaseExpire p ms) s = .next
      (gone.setPg p { gone.pg p with lapsed := some (s.beam.t / 640) })) ∧
    (∀ ms : Fin 65536, l.owner.isRemote = true → ms.val < l.remain → exec (.leaseExpire p ms) s = .next
      (s.setPg p { s.pg p with lease := some { l with remain := l.remain - ms.val } })) ∧
    (∀ ms : Fin 65536, l.owner.isRemote = false → exec (.leaseExpire p ms) s = .next s) ∧
    (∀ w g, pageType p ≠ none → s.dom (pageDom p) = .active → (s.pg p).lapsed = some (s.beam.t / 640) →
      exec (.pgCommit w p g) s = .next (((s.err p 4).countRefused w p .writeRefused).answer w .writeRefused)) ∧
    (s.pages.map Prod.fst = [p.val] → exec (.leaseOwnerLost l.owner) s = .next gone)

/-- The parts above: BoardPageControl, BoardLeaseEnds. -/
def Obligations.BoardControl : Prop :=
  Claims.BoardPageControl ∧ Claims.BoardLeaseEnds

/-- R43: a commit whose generation agrees and that no rule refuses, on a page without an apply point of its own, empties
the stage and applies the staged words at once; COMMIT_APPLY applies a pending set.  While a set is pending a commit is
refused BUSY, with another generation COMMIT_GEN, and by the block's own rules with the bit of every case; staged words
stay.  R570, R571: PG_INJ disarms at SHOTS = 0, arms a point of the catalogue while the injector is enabled and the
deployed safety allows it, and is refused for any other. -/
def Claims.BoardCommit : Prop :=
  ∀ (w : Writer) (p : Fin 4096) (s : State), pageType p ≠ none → s.dom (pageDom p) = .active →
    s.leasedByOther w p = false →
    ((pageType p = some .clk ∨ pageType p = some .sup) → (s.pg p).applyPending = false → s.commitDenied p = [] →
      (s.pg p).lapsed ≠ some (s.beam.t / 640) →
      exec (.pgCommit w p (wordOf (s.reg p PG.GEN))) s = .next
        (((s.setPg p { s.pg p with staged := [], pending := (s.pg p).staged, applyPending := true }).applyCommit
          p).answer w .ok)) ∧
    ((pageType p = some .clk ∨ pageType p = some .sup) → (s.pg p).applyPending = true →
      exec (.commitApply p) s = .next (s.applyCommit p)) ∧
    (∀ g, (s.pg p).lapsed ≠ some (s.beam.t / 640) → (s.pg p).applyPending = true →
      exec (.pgCommit w p g) s = .next (((s.err p 2).countRefused w p .busy).answer w .busy)) ∧
    (∀ g : Word, (s.pg p).lapsed ≠ some (s.beam.t / 640) → (s.pg p).applyPending = false → g.toNat ≠ s.reg p PG.GEN →
      exec (.pgCommit w p g) s = .next (((s.err p 6).countRefused w p .writeRefused).answer w .writeRefused)) ∧
    ((s.pg p).lapsed ≠ some (s.beam.t / 640) → (s.pg p).applyPending = false → s.commitDenied p ≠ [] →
      exec (.pgCommit w p (wordOf (s.reg p PG.GEN))) s = .next
        ((((s.commitDenied p).foldl (fun s b => s.err p b) s).countRefused w p .writeRefused).answer w .writeRefused)) ∧
    (∀ point : Fin 256, exec (.injArm w p 0 point) s = .next ((s.setReg p PG.INJ point).answer w .ok)) ∧
    (∀ (shots point : Fin 256) (r : Option Nat), shots.val ≠ 0 → s.injPoint p point = some r → s.en pINJ = true →
      s.injSafe r = true →
      exec (.injArm w p shots point) s = .next ((s.setReg p PG.INJ (256 * shots.val + point.val)).answer w .ok)) ∧
    (∀ shots point : Fin 256, shots.val ≠ 0 →
      (s.injPoint p point = none ∨ s.en pINJ = false ∨ (s.injPoint p point).any (fun r => !s.injSafe r) = true) →
      exec (.injArm w p shots point) s = .next
        (((s.injDeny p).countRefused w p .writeRefused).answer w .writeRefused))

/-- R43: an apply writes every word of the pending set in one step: each such word reads as the set says and every other
word but PG_GEN and PG_EV_STAT as before, PG_GEN advances by one, APPLIED is set, nothing is pending. -/
def Claims.CommitAppliesPending : Prop :=
  ∀ (s : State) (p : Nat), (s.pg p).applyPending = true →
    ((s.pg p).pending.map Prod.fst).Nodup → bkey p PG.GEN ∉ (s.pg p).pending.map Prod.fst →
    bkey p PG.EV_STAT ∉ (s.pg p).pending.map Prod.fst →
    ∃ t, s.applyCommit p = t ∧
      (∀ e ∈ (s.pg p).pending, tabGet resetWord t.board e.1 = e.2) ∧
      (∀ j, j ∉ (s.pg p).pending.map Prod.fst → j ≠ bkey p PG.GEN → j ≠ bkey p PG.EV_STAT →
        tabGet resetWord t.board j = tabGet resetWord s.board j) ∧
      t.reg p PG.GEN = (s.reg p PG.GEN + 1) % 2 ^ 32 ∧ t.bit p PG.EV_STAT 1 = true ∧
      (t.pg p).pending = [] ∧ (t.pg p).applyPending = false ∧ SameMem s t

/-- The parts above: BoardCommit, CommitAppliesPending. -/
def Obligations.BoardCommits : Prop :=
  Claims.BoardCommit ∧ Claims.CommitAppliesPending

/-- R31, R53, R54: reads and writes of a page, under its own offsets past PG_STAT.  While its domain does not answer, a
session or a device gets DOMAIN_RESTING without WAKE and waits for the wake with it; a local read returns 0, a local write
is ignored, and SYS records the page.  While it answers, a read is answered with the word or the bytes addressed, and a
write is the page's own. -/
def Obligations.BoardRestingPages : Prop :=
  ∀ (w : Writer) (p off : Fin 4096) (s : State), ownerPage p ≠ none → off.val % 4 = 0 → 12 ≤ off.val →
    (w.isRemote = true → s.dom (accDom p) ≠ .active →
      (∀ d, exec (.restPageAccess w p off d false) s = .next (s.send (.resp w .domainResting 0 []))) ∧
      exec (.lowWordRead w p off 2) s = .next (s.send (.resp w .domainResting 0 [])) ∧
      (s.dev ≠ dvDEEP → ∀ d : Option Word, exec (.restPageAccess w p off d true) s = .next
        { s.wakeDom (accDom p) with
          waits := s.waits ++ [{ w := w, page := p, off := off, data := d.map (fun x => [x]), count := 1 }] })) ∧
    (w.isRemote = false → s.dom (accDom p) ≠ .active → ∀ k,
      exec (.restPageAccess w p off none k) s = .next ((s.restAccess p).send (.resp w .ok 1 [0])) ∧
      (∀ v, exec (.restPageAccess w p off (some v) k) s = .next ((s.restAccess p).answer w .ok)) ∧
      ∀ z, exec (.lowWordRead w p off z) s = .next ((s.restAccess p).send (.resp w .ok 1 [0]))) ∧
    (s.dom (accDom p) = .active → ∀ k,
      exec (.restPageAccess w p off none k) s = .next
        ((s.readWord p off).1.send (.resp w .ok 1 [(s.readWord p off).2])) ∧
      (∀ v, exec (.restPageAccess w p off (some v) k) s = .next
        ((s.wordWrite w p off v).1.answer w (s.wordWrite w p off v).2)) ∧
      exec (.lowWordRead w p off 2) s = .next
        ((s.readWord p off).1.send (.resp w .ok 1 [(s.readWord p off).2])) ∧
      (w.isRemote = false → ∀ z i, i % 2 ^ z.val = 0 → (h : i < 4) → (h' : off.val + i < 4096) →
        exec (.lowWordRead w p ⟨off.val + i, h'⟩ z) s = .next ((s.readWord p off).1.send
          (.resp w .ok 1 [wordOf ((s.readWord p off).2.toNat / 2 ^ (8 * i) % 2 ^ (8 * 2 ^ z.val))]))))

/-! ## The reckoners (spec/08, spec/09) -/

/-- R225, without the shifts and the divisions: each instruction of the integer group writes its result to D and its
flags to FLAGS, and the program counter goes on by 4; the rest of the machine stays as it is.  CMP writes no register;
MIN, MAX, LIMIT and SEL work on signed numbers. -/
def Claims.ReckInteger : Prop :=
  ∀ (k : Fin 32) (s : State) (w : Nat), legalR w = true →
    let x := s.reckX k
    let fl := x.flags
    let a := x.reg (iA w)
    let b := x.reg (iB w)
    let c := x.reg (iC w)
    let nb := 2 ^ 32 - 1 - b
    let cy := b2n (fl.testBit 2)
    let sum (p q r : Nat) : Nat := (p + q + r) % 2 ^ 32
    let sumFl (p q r : Nat) : Nat := flZNCV fl (sum p q r) (decide (2 ^ 32 ≤ p + q + r))
      (decide (sxt 32 p + sxt 32 q + (r : Int) ≠ sxt 32 (sum p q r)))
    (s.atInstr k 0x01 (some 0x00) w → exec (.add k) s = .next (s.wrote k w (sum a b 0) (sumFl a b 0))) ∧
    (s.atInstr k 0x01 (some 0x01) w → exec (.adc k) s = .next (s.wrote k w (sum a b cy) (sumFl a b cy))) ∧
    (s.atInstr k 0x01 (some 0x02) w → exec (.sub k) s = .next (s.wrote k w (sum a nb 1) (sumFl a nb 1))) ∧
    (s.atInstr k 0x01 (some 0x03) w → exec (.sbc k) s = .next (s.wrote k w (sum a nb cy) (sumFl a nb cy))) ∧
    (s.atInstr k 0x01 (some 0x04) w →
      exec (.neg k) s = .next (s.wrote k w (sum 0 (2 ^ 32 - 1 - a) 1) (sumFl 0 (2 ^ 32 - 1 - a) 1))) ∧
    (s.atInstr k 0x01 (some 0x05) w → exec (.cmp k) s = .next (s.wroteFlags k (sumFl a nb 1))) ∧
    (s.atInstr k 0x01 (some 0x06) w → exec (.and k) s = .next (s.wrote k w (a &&& b) (flZN fl (a &&& b)))) ∧
    (s.atInstr k 0x01 (some 0x07) w → exec (.or k) s = .next (s.wrote k w (a ||| b) (flZN fl (a ||| b)))) ∧
    (s.atInstr k 0x01 (some 0x08) w → exec (.xor k) s = .next (s.wrote k w (a ^^^ b) (flZN fl (a ^^^ b)))) ∧
    (s.atInstr k 0x01 (some 0x0C) w →
      exec (.mul k) s = .next (s.wrote k w (a * b % 2 ^ 32) (flZN fl (a * b % 2 ^ 32)))) ∧
    (s.atInstr k 0x01 (some 0x0D) w → exec (.mulh k) s = .next (s.wrote k w (enc 32 (sxt 32 a * sxt 32 b / 2 ^ 32))
      (flZN fl (enc 32 (sxt 32 a * sxt 32 b / 2 ^ 32))))) ∧
    (s.atInstr k 0x01 (some 0x0E) w →
      exec (.mulhu k) s = .next (s.wrote k w (a * b / 2 ^ 32) (flZN fl (a * b / 2 ^ 32)))) ∧
    (s.atInstr k 0x01 (some 0x13) w → exec (.min k) s = .next
      (s.wrote k w (if sxt 32 b < sxt 32 a then b else a) (flZN fl (if sxt 32 b < sxt 32 a then b else a)))) ∧
    (s.atInstr k 0x01 (some 0x14) w → exec (.max k) s = .next
      (s.wrote k w (if sxt 32 a < sxt 32 b then b else a) (flZN fl (if sxt 32 a < sxt 32 b then b else a)))) ∧
    (s.atInstr k 0x01 (some 0x15) w →
      let y := if sxt 32 c < sxt 32 a then sxt 32 c else if sxt 32 a < sxt 32 b then sxt 32 b else sxt 32 a
      exec (.limit k) s = .next
        (s.wrote k w (enc 32 y) (flZN fl (enc 32 y) ||| (if y = sxt 32 a then 0 else flSAT)))) ∧
    (s.atInstr k 0x01 (some 0x17) w →
      let n := if a = 0 then 32 else 31 - Nat.log2 a
      exec (.clz k) s = .next (s.wrote k w n (flZN fl n))) ∧
    (s.atInstr k 0x01 (some 0x18) w →
      exec (.exth k) s = .next (s.wrote k w (enc 32 (sxt 16 a)) (flZN fl (enc 32 (sxt 16 a))))) ∧
    (s.atInstr k 0x01 (some 0x19) w → exec (.exthh k) s = .next
      (s.wrote k w (enc 32 (sxt 16 (a / 2 ^ 16))) (flZN fl (enc 32 (sxt 16 (a / 2 ^ 16)))))) ∧
    (s.atInstr k 0x01 (some 0x1A) w →
      let v := b % 2 ^ 16 * 2 ^ 16 + a % 2 ^ 16
      exec (.packh k) s = .next (s.wrote k w v (flZN fl v)))

/-- SEL writes a where its condition holds and b where it does not, and changes no flag; C holds the condition in [10:7]
and 0 in [6]. -/
def Claims.ReckSelect : Prop :=
  ∀ (k : Fin 32) (s : State) (w : Nat), s.atInstr k 0x01 (some 0x16) w →
    iD w ≤ 24 → iA w ≤ 24 → iB w ≤ 24 → bitsOf w 6 6 = 0 →
    let x := s.reckX k
    exec (.sel k) s = .next (s.wrote k w
      (if condHolds x.flags (bitsOf w 10 7) then x.reg (iA w) else x.reg (iB w)) x.flags)

/-- R227, R228: the saturating and Q31 group.  A result is the exact value limited to its range, SAT is set where the
limit changes it, and the Q31 products and sums round once, halves towards +∞. -/
def Claims.ReckSaturating : Prop :=
  ∀ (k : Fin 32) (s : State) (w : Nat), legalR w = true →
    let x := s.reckX k
    let fl := x.flags
    let a := sxt 32 (x.reg (iA w))
    let b := sxt 32 (x.reg (iB w))
    let d := sxt 32 (x.reg (iD w))
    let out (lo hi y : Int) : State :=
      let v := if y < lo then lo else if hi < y then hi else y
      s.wrote k w (enc 32 v) (flZN fl (enc 32 v) ||| (if v = y then 0 else flSAT))
    let sat (y : Int) : State := out (-2147483648) 2147483647 y
    let round (y : Int) : Int := (y + 2 ^ 30) / 2 ^ 31
    (s.atInstr k 0x02 (some 0x00) w → exec (.adds k) s = .next (sat (a + b))) ∧
    (s.atInstr k 0x02 (some 0x01) w → exec (.subs k) s = .next (sat (a - b))) ∧
    (s.atInstr k 0x02 (some 0x02) w → exec (.negs k) s = .next (sat (-a))) ∧
    (s.atInstr k 0x02 (some 0x03) w → exec (.abs k) s = .next (s.wrote k w (enc 32 (a.natAbs : Int))
      (flZN (fl / 16 * 16 + fl % 8 + 8 * b2n (decide (x.reg (iA w) = 2 ^ 31))) (enc 32 (a.natAbs : Int))))) ∧
    (s.atInstr k 0x02 (some 0x04) w → exec (.abss k) s = .next (sat (a.natAbs : Int))) ∧
    (s.atInstr k 0x02 (some 0x05) w →
      exec (.shls k) s = .next (sat (a * ((2 ^ (x.reg (iB w) % 256) : Nat) : Int)))) ∧
    (s.atInstr k 0x02 (some 0x06) w → exec (.sath k) s = .next (out (-32768) 32767 a)) ∧
    (s.atInstr k 0x02 (some 0x07) w → exec (.qmul k) s = .next (sat (round (a * b)))) ∧
    (s.atInstr k 0x02 (some 0x08) w → exec (.qmac k) s = .next (sat (round (d * 2 ^ 31 + a * b)))) ∧
    (s.atInstr k 0x02 (some 0x09) w → exec (.qmsu k) s = .next (sat (round (d * 2 ^ 31 - a * b))))

/-- R233: the immediate forms; LUI changes no flag, CMPI writes only FLAGS. -/
def Claims.ReckImmediate : Prop :=
  ∀ (k : Fin 32) (s : State) (w : Nat), legalI w = true →
    let x := s.reckX k
    let fl := x.flags
    let a := x.reg (iA w)
    let z := iIMM w
    let sx := iSext w
    let nx := 2 ^ 32 - 1 - sx
    let sum (p q r : Nat) : Nat := (p + q + r) % 2 ^ 32
    let sumFl (p q r : Nat) : Nat := flZNCV fl (sum p q r) (decide (2 ^ 32 ≤ p + q + r))
      (decide (sxt 32 p + sxt 32 q + (r : Int) ≠ sxt 32 (sum p q r)))
    (s.atInstr k 0x08 none w → exec (.addi k) s = .next (s.wrote k w (sum a sx 0) (sumFl a sx 0))) ∧
    (s.atInstr k 0x09 none w → exec (.andi k) s = .next (s.wrote k w (a &&& z) (flZN fl (a &&& z)))) ∧
    (s.atInstr k 0x0A none w → exec (.ori k) s = .next (s.wrote k w (a ||| z) (flZN fl (a ||| z)))) ∧
    (s.atInstr k 0x0B none w → exec (.xori k) s = .next (s.wrote k w (a ^^^ z) (flZN fl (a ^^^ z)))) ∧
    (s.atInstr k 0x0C none w → exec (.lui k) s = .next (s.wrote k w (z * 2 ^ 16) fl)) ∧
    (s.atInstr k 0x0D none w → exec (.cmpi k) s = .next (s.wroteFlags k (sumFl a nx 1)))

/-- The parts above: ReckInteger, ReckSelect, ReckSaturating, ReckImmediate. -/
def Obligations.ReckArithmetic : Prop :=
  Claims.ReckInteger ∧ Claims.ReckSelect ∧ Claims.ReckSaturating ∧ Claims.ReckImmediate

/-- R226: the shifts, by a register's low 8 bits or by IMM[7:0] with IMM[15:8] = 0 (else ILLEGAL).  SHL and SHR by 32
or more give 0; SHRA by 32 or more gives 0 or all ones. -/
def Obligations.ReckShift : Prop :=
  ∀ (k : Fin 32) (s : State) (w : Nat),
    let x := s.reckX k
    let fl := x.flags
    let a := x.reg (iA w)
    let n := x.reg (iB w) % 256
    let m := iIMM w % 256
    let shl (n : Nat) : Nat := if 32 ≤ n then 0 else a * 2 ^ n % 2 ^ 32
    let shr (n : Nat) : Nat := if 32 ≤ n then 0 else a / 2 ^ n
    let shra (n : Nat) : Nat :=
      if 32 ≤ n then (if 0 ≤ sxt 32 a then 0 else 0xFFFFFFFF) else enc 32 (sxt 32 a / ((2 ^ n : Nat) : Int))
    (legalR w = true →
      (s.atInstr k 0x01 (some 0x09) w → exec (.shl k) s = .next (s.wrote k w (shl n) (flZN fl (shl n)))) ∧
      (s.atInstr k 0x01 (some 0x0A) w → exec (.shr k) s = .next (s.wrote k w (shr n) (flZN fl (shr n)))) ∧
      (s.atInstr k 0x01 (some 0x0B) w → exec (.shra k) s = .next (s.wrote k w (shra n) (flZN fl (shra n))))) ∧
    (legalI w = true → iIMM w < 256 →
      (s.atInstr k 0x0E none w → exec (.shli k) s = .next (s.wrote k w (shl m) (flZN fl (shl m)))) ∧
      (s.atInstr k 0x0F none w → exec (.shri k) s = .next (s.wrote k w (shr m) (flZN fl (shr m)))) ∧
      (s.atInstr k 0x10 none w → exec (.shrai k) s = .next (s.wrote k w (shra m) (flZN fl (shra m))))) ∧
    (256 ≤ iIMM w →
      (s.atInstr k 0x0E none w → exec (.shli k) s = .next (s.trapHere k tcILLEGAL)) ∧
      (s.atInstr k 0x0F none w → exec (.shri k) s = .next (s.trapHere k tcILLEGAL)) ∧
      (s.atInstr k 0x10 none w → exec (.shrai k) s = .next (s.trapHere k tcILLEGAL)))

/-- R229, R230: the divisions.  By 0 they give the edge result and set DZ, or with CTRL.DZ_TRAP = 1 take DIV_ZERO with
TPC at the division; otherwise the quotient truncates towards 0 and saturates. -/
def Obligations.ReckDivide : Prop :=
  ∀ (k : Fin 32) (s : State) (w : Nat), legalR w = true →
    let x := s.reckX k
    let fl := x.flags
    let a := x.reg (iA w)
    let b := x.reg (iB w)
    let st (v f : Nat) : State := s.wrote k w v (flZN fl v ||| f)
    let edge := if a = 0 then 0 else if a < 2 ^ 31 then 2 ^ 31 - 1 else 2 ^ 31
    let edgeU := if a = 0 then 0 else 2 ^ 32 - 1
    let q := (sxt 32 a).tdiv (sxt 32 b)
    let q31 := (sxt 32 a * 2 ^ 31).tdiv (sxt 32 b)
    (b = 0 → x.ctrl.testBit 0 = true →
      (s.atInstr k 0x01 (some 0x0F) w → exec (.div k) s = .next (s.reckTrap k tcDIVZERO x.pc)) ∧
      (s.atInstr k 0x01 (some 0x10) w → exec (.divu k) s = .next (s.reckTrap k tcDIVZERO x.pc)) ∧
      (s.atInstr k 0x01 (some 0x11) w → exec (.rem k) s = .next (s.reckTrap k tcDIVZERO x.pc)) ∧
      (s.atInstr k 0x01 (some 0x12) w → exec (.remu k) s = .next (s.reckTrap k tcDIVZERO x.pc)) ∧
      (s.atInstr k 0x02 (some 0x0A) w → exec (.qdiv k) s = .next (s.reckTrap k tcDIVZERO x.pc))) ∧
    (b = 0 → x.ctrl.testBit 0 = false →
      (s.atInstr k 0x01 (some 0x0F) w → exec (.div k) s = .next (st edge flDZ)) ∧
      (s.atInstr k 0x01 (some 0x10) w → exec (.divu k) s = .next (st edgeU flDZ)) ∧
      (s.atInstr k 0x01 (some 0x11) w → exec (.rem k) s = .next (st a flDZ)) ∧
      (s.atInstr k 0x01 (some 0x12) w → exec (.remu k) s = .next (st a flDZ)) ∧
      (s.atInstr k 0x02 (some 0x0A) w → exec (.qdiv k) s = .next (st edge flDZ))) ∧
    (b ≠ 0 →
      (s.atInstr k 0x01 (some 0x0F) w → exec (.div k) s = .next (st (sat32 q).1 (sat32 q).2)) ∧
      (s.atInstr k 0x01 (some 0x10) w → exec (.divu k) s = .next (st (a / b) 0)) ∧
      (s.atInstr k 0x01 (some 0x11) w →
        exec (.rem k) s = .next (st (enc 32 ((sxt 32 a).tmod (sxt 32 b))) 0)) ∧
      (s.atInstr k 0x01 (some 0x12) w → exec (.remu k) s = .next (st (a % b) 0)) ∧
      (s.atInstr k 0x02 (some 0x0A) w → exec (.qdiv k) s = .next (st (sat32 q31).1 (sat32 q31).2))) ∧
    (s.atInstr k 0x03 (some 0x03) w → exec (.fdiv k) s = .next (s.wrote k w (fDiv a b).v (fl ||| (fDiv a b).fl)))

/-- R232: the floating-point group writes its binary32 result and ORs the exceptions into FLAGS; FCMP writes only the
condition flags. -/
def Obligations.ReckFloat : Prop :=
  ∀ (k : Fin 32) (s : State) (w : Nat), legalR w = true →
    let x := s.reckX k
    let a := x.reg (iA w)
    let b := x.reg (iB w)
    let c := x.reg (iC w)
    let out (r : FRes) : Host.Outcome State Fault Refusal := .next (s.wrote k w r.v (x.flags ||| r.fl))
    (s.atInstr k 0x03 (some 0x00) w → exec (.fadd k) s = out (fAdd a b)) ∧
    (s.atInstr k 0x03 (some 0x01) w → exec (.fsub k) s = out (fSub a b)) ∧
    (s.atInstr k 0x03 (some 0x02) w → exec (.fmul k) s = out (fMul a b)) ∧
    (s.atInstr k 0x03 (some 0x03) w → exec (.fdiv k) s = out (fDiv a b)) ∧
    (s.atInstr k 0x03 (some 0x04) w → exec (.fma k) s = out (fFma a b c)) ∧
    (s.atInstr k 0x03 (some 0x05) w → exec (.fms k) s = out (fFms a b c)) ∧
    (s.atInstr k 0x03 (some 0x06) w → exec (.fsqrt k) s = out (fSqrt a)) ∧
    (s.atInstr k 0x03 (some 0x07) w → exec (.fmin k) s = out (fMinMax false a b)) ∧
    (s.atInstr k 0x03 (some 0x08) w → exec (.fmax k) s = out (fMinMax true a b)) ∧
    (s.atInstr k 0x03 (some 0x09) w → exec (.fabs k) s = out (fAbs a)) ∧
    (s.atInstr k 0x03 (some 0x0A) w → exec (.fneg k) s = out (fNegF a)) ∧
    (s.atInstr k 0x03 (some 0x0B) w → exec (.fcmp k) s = .next (s.wroteFlags k (fcmpFlags x.flags a b))) ∧
    (s.atInstr k 0x03 (some 0x0C) w → exec (.flim k) s = out (fLim a b c)) ∧
    (s.atInstr k 0x03 (some 0x0D) w → exec (.ftoi k) s = out (fToFix 0 a)) ∧
    (s.atInstr k 0x03 (some 0x0E) w → exec (.itof k) s = out ⟨fOfFix 0 a, 0⟩) ∧
    (s.atInstr k 0x03 (some 0x0F) w → exec (.ftoq k) s = out (fToFix 31 a)) ∧
    (s.atInstr k 0x03 (some 0x10) w → exec (.qtof k) s = out ⟨fOfFix 31 a, 0⟩)

/-- R237, R238: PARK and IPARK give each output within 1 LSB of its exact value, a quotient by 2³¹, saturated, with SAT
set where that changes it; CLARKE's α likewise, of a third of 2a − b − c, and its β, of (b − c) / √3, by its floor.  No
condition flag changes. -/
def Claims.ReckRotations : Prop :=
  ∀ (k : Fin 32) (s : State) (w : Nat), legalR w = true → legalPair (iD w) = true →
    let x := s.reckX k
    let r (f i : Nat) : Int := sxt 32 (x.reg (f + i))
    let near (y : Int) (n d : Int) : Prop := n - d ≤ y * d ∧ y * d ≤ n + d
    let pair (t : State) (y z : Int) : Prop := ∃ n, t = ({ s with freeCtr := n }).setReckX k
      { (x.setR (iD w) (sat32 y).1).setR (iD w + 1) (sat32 z).1 with
        flags := x.flags ||| (sat32 y).2 ||| (sat32 z).2, pc := x.pc + 4 }
    (s.atInstr k 0x04 (some 0x03) w → legalPair (iA w) = true → legalPair (iB w) = true →
      ∃ t y z, exec (.park k) s = .next t ∧ pair t y z ∧
        near y (r (iA w) 0 * r (iB w) 1 + r (iA w) 1 * r (iB w) 0) (2 ^ 31) ∧
        near z (r (iA w) 1 * r (iB w) 1 - r (iA w) 0 * r (iB w) 0) (2 ^ 31)) ∧
    (s.atInstr k 0x04 (some 0x04) w → legalPair (iA w) = true → legalPair (iB w) = true →
      ∃ t y z, exec (.ipark k) s = .next t ∧ pair t y z ∧
        near y (r (iA w) 0 * r (iB w) 1 - r (iA w) 1 * r (iB w) 0) (2 ^ 31) ∧
        near z (r (iA w) 0 * r (iB w) 0 + r (iA w) 1 * r (iB w) 1) (2 ^ 31)) ∧
    (s.atInstr k 0x04 (some 0x01) w → legalTriple (iA w) = true →
      ∃ t y z, exec (.clarke k) s = .next t ∧ pair t y z ∧
        near y (2 * r (iA w) 0 - r (iA w) 1 - r (iA w) 2) 3 ∧
        (mulRoot3 (r (iA w) 1 - r (iA w) 2) 1 3).1 - 1 ≤ z ∧ z ≤ (mulRoot3 (r (iA w) 1 - r (iA w) 2) 1 3).1 + 1)

/-- R237, R238: SINCOS writes sin θ to D and cos θ to the next register, each within 4 of the floor of the sine and cosine
as the model computes them, never −2³¹, and exact at the quarter turns; ICLARKE writes a triple, α within 1 LSB of its
value, b and c within 1 of the floors of −α/2 ± (√3/2)β.  Both go on at the next instruction. -/
def Claims.ReckAngles : Prop :=
  ∀ (k : Fin 32) (s : State) (w : Nat), legalR w = true →
    let x := s.reckX k
    let q : Nat := 2 ^ 31 - 1
    let lim : Int := 2147483647
    let near (v : Nat) (e : Int) : Prop := ∃ d : Int, -4 ≤ d ∧ d ≤ 4 ∧ v = enc 32 (clampI (-lim) lim (e / 2 + d))
    (s.atInstr k 0x04 (some 0x00) w → legalPair (iD w) = true →
      ∃ t sn cs fl n, exec (.sincos k) s = .next t ∧
        t = ({ s with freeCtr := n }).setReckX k
          { (x.setR (iD w) sn).setR (iD w + 1) cs with flags := fl, pc := x.pc + 4 } ∧
        (fl = x.flags ∨ fl = x.flags ||| flSAT) ∧ sn ≠ 2 ^ 31 ∧ cs ≠ 2 ^ 31 ∧
        near sn (sinCos (x.reg (iA w))).1 ∧ near cs (sinCos (x.reg (iA w))).2 ∧
        (x.reg (iA w) = 0 → sn = 0 ∧ cs = q) ∧ (x.reg (iA w) = 2 ^ 30 → sn = q ∧ cs = 0) ∧
        (x.reg (iA w) = 2 ^ 31 → sn = 0 ∧ cs = 2 ^ 31 + 1) ∧ (x.reg (iA w) = 3 * 2 ^ 30 → sn = 2 ^ 31 + 1 ∧ cs = 0)) ∧
    (s.atInstr k 0x04 (some 0x02) w → legalTriple (iD w) = true → legalPair (iA w) = true →
      ∃ t a b c n, exec (.iclarke k) s = .next t ∧
        t = ({ s with freeCtr := n }).setReckX k
          { ((x.setR (iD w) (sat32 a).1).setR (iD w + 1) (sat32 b).1).setR (iD w + 2) (sat32 c).1 with
            flags := x.flags ||| (sat32 a).2 ||| (sat32 b).2 ||| (sat32 c).2, pc := x.pc + 4 } ∧
        let al := sxt 32 (x.reg (iA w))
        let be := sxt 32 (x.reg (iA w + 1))
        al - 1 ≤ a ∧ a ≤ al + 1 ∧
        (iclarkeOut al be).1 - 1 ≤ b ∧ b ≤ (iclarkeOut al be).1 + 1 ∧
        (iclarkeOut al (-be)).1 - 1 ≤ c ∧ c ≤ (iclarkeOut al (-be)).1 + 1)

/-- The parts above: ReckRotations, ReckAngles. -/
def Obligations.ReckHelpers : Prop :=
  Claims.ReckRotations ∧ Claims.ReckAngles

/-- R234, R199 to R202: LD reads and ST writes a word of DRAM, of the common store or of a board page at a + sext modulo
2³².  A misaligned address takes ALIGN, an address of no data region or of an absent page ACCESS.  A corrected error of
DRAM is counted and goes on; a double-bit error is fatal in DRAM, the COMMON trap in the common store. -/
def Claims.ReckMemory : Prop :=
  ∀ (k : Fin 32) (s : State) (w : Nat), legalI w = true →
    let x := s.reckX k
    let ad := (x.reg (iA w) + iSext w) % 2 ^ 32
    let v := x.reg (iD w)
    let on (t : State) : State := t.setReckX k { t.reckX k with pc := (t.reckX k).pc + 4 }
    let got (t : State) (y : Nat) : State := t.wrote k w y (t.reckX k).flags
    let dram := 0x10000 ≤ ad ∧ ad < 0x20000
    let common := 0x4000000 ≤ ad ∧ ad < 0x8000000
    let board := 0x1000000 ≤ ad ∧ ad < 0x2000000
    let pg := (ad - 0x1000000) / 4096
    (s.atInstr k 0x11 none w →
      (ad % 4 ≠ 0 → ∀ e, exec (.ld k e) s = .next (s.trapHere k tcALIGN)) ∧
      (ad % 4 = 0 → dram →
        exec (.ld k .clean) s = .next (got s (s.reckWord k (16384 + (ad - 0x10000) / 4))) ∧
        exec (.ld k .corrected) s = .next
          (got (s.eccCorrected k true) ((s.eccCorrected k true).reckWord k (16384 + (ad - 0x10000) / 4))) ∧
        exec (.ld k .double) s = .next (s.reckFatal k 5)) ∧
      (ad % 4 = 0 → common →
        (∀ e, e ≠ .double → exec (.ld k e) s = .next (got s (s.commonWord ((ad - 0x4000000) / 4)).toNat)) ∧
        exec (.ld k .double) s = .next (s.trapHere k tcCOMMON)) ∧
      (ad % 4 = 0 → board → ∀ e,
        (ownerPage pg = none → exec (.ld k e) s = .next (s.trapHere k tcACCESS)) ∧
        (ownerPage pg ≠ none → exec (.ld k e) s = .next
          (got (s.wordRead (.reck k) pg (ad % 4096)).1 (s.wordRead (.reck k) pg (ad % 4096)).2.toNat))) ∧
      (ad % 4 = 0 → ¬dram → ¬common → ¬board → ∀ e, exec (.ld k e) s = .next (s.trapHere k tcACCESS))) ∧
    (s.atInstr k 0x12 none w →
      (ad % 4 ≠ 0 → exec (.st k) s = .next (s.trapHere k tcALIGN)) ∧
      (ad % 4 = 0 → dram → exec (.st k) s = .next (on (s.setReckWord k (16384 + (ad - 0x10000) / 4) v))) ∧
      (ad % 4 = 0 → common → exec (.st k) s = .next (on (s.setCommon ((ad - 0x4000000) / 4) (wordOf v)))) ∧
      (ad % 4 = 0 → board →
        (ownerPage pg = none → exec (.st k) s = .next (s.trapHere k tcACCESS)) ∧
        (ownerPage pg ≠ none → exec (.st k) s = .next ((on s).wordWrite (.reck k) pg (ad % 4096) (wordOf v)).1)) ∧
      (ad % 4 = 0 → ¬dram → ¬common → ¬board → exec (.st k) s = .next (s.trapHere k tcACCESS)))

/-- R239, R240: PIDF on a block that lies wholly in DRAM or wholly in the common store reads its twelve words, then writes
them where no NaN arises, and D.  On a misaligned address it takes ALIGN, on any other ACCESS, and writes nothing; a
double-bit error is fatal in DRAM, the COMMON trap in the common store. -/
def Claims.ReckPid : Prop :=
  ∀ (k : Fin 32) (s : State) (w : Nat), s.atInstr k 0x04 (some 0x05) w → legalR w = true → legalPair (iB w) = true →
    let x := s.reckX k
    let ad := x.reg (iA w)
    let dram := 0x10000 ≤ ad ∧ ad + 48 ≤ 0x20000
    let common := 0x4000000 ≤ ad ∧ ad + 48 ≤ 0x8000000
    let i := 16384 + (ad - 0x10000) / 4
    let j := (ad - 0x4000000) / 4
    let out (t : State) (rd : Nat → Nat) (wr : State → Nat × Nat → State) : State :=
      let r := pidf ((List.range 12).map rd) (x.reg (iB w)) (x.reg (iB w + 1))
      match r.2.1 with
      | some l => (l.zipIdx.foldl wr t).wrote k w r.1 (x.flags ||| r.2.2)
      | none => t.wrote k w r.1 (x.flags ||| r.2.2)
    (ad % 4 ≠ 0 → ∀ e, exec (.pidf k e) s = .next (s.trapHere k tcALIGN)) ∧
    (ad % 4 = 0 → dram →
      exec (.pidf k .clean) s = .next (out s (fun m => s.reckWord k (i + m)) (fun t e => t.setReckWord k (i + e.2) e.1)) ∧
      exec (.pidf k .corrected) s = .next (out (s.eccCorrected k true) (fun m => (s.eccCorrected k true).reckWord k (i + m))
        (fun t e => t.setReckWord k (i + e.2) e.1)) ∧
      exec (.pidf k .double) s = .next (s.reckFatal k 5)) ∧
    (ad % 4 = 0 → common →
      (∀ e, e ≠ .double → exec (.pidf k e) s = .next
        (out s (fun m => (s.commonWord (j + m)).toNat) (fun t e => t.setCommon (j + e.2) (wordOf e.1)))) ∧
      exec (.pidf k .double) s = .next (s.trapHere k tcCOMMON)) ∧
    (ad % 4 = 0 → ¬dram → ¬common → ∀ e, exec (.pidf k e) s = .next (s.trapHere k tcACCESS))

/-- The parts above: ReckMemory, ReckPid. -/
def Obligations.ReckMemoryAndPid : Prop :=
  Claims.ReckMemory ∧ Claims.ReckPid

/-- R235, R206, R207, R211: branches go to the address of the branch plus 4 × OFS, jumps to their register with its low
bits cleared.  A CALL with a free column enters it and links the next instruction, with none spills or, the carry area
full, is fatal; a RET goes back, fills, or takes RET_EMPTY; in c7 a CALL is illegal and RET returns from the trap. -/
def Claims.ReckBranch : Prop :=
  ∀ (k : Fin 32) (s : State) (w : Nat),
    let x := s.reckX k
    let goto (pc : Nat) : State := s.setReckX k { x with pc := pc }
    let rel (bits : Nat) : Nat := enc 32 (x.pc + 4 * sxt bits (w % 2 ^ bits))
    let call (pc : Nat) : State := (s.setReckX k { x with
      ccp := (x.ccp + 1) % 7, occ := x.occ + 1, link := x.link.set ((x.ccp + 1) % 7) (x.pc + 4), pc := pc
      spill := none }).showCols k
    let full := x.cdep = s.get (pRECK k) RECK.CARRY_CFG_CARRY_CNT
    let wait (o : SpillOp) : State := (s.setReckX k { x with spill := some o }).setRkSt k rkSPILL
    let called (i : Instr) (pc : Nat) : Prop :=
      (x.ccp = 7 → exec i s = .next (s.trapHere k tcILLEGAL)) ∧
      (x.ccp ≠ 7 → x.occ ≠ 7 → exec i s = .next (call pc)) ∧
      (x.ccp ≠ 7 → x.occ = 7 → ¬full → exec i s = .next (wait (.call pc))) ∧
      (x.ccp ≠ 7 → x.occ = 7 → full → exec i s = .next (s.reckFatal k 2))
    (s.atInstr k 0x14 none w → exec (.brc k) s = .next
      (if condHolds x.flags (bitsOf w 25 22) then goto (rel 22) else goto (x.pc + 4))) ∧
    (s.atInstr k 0x15 none w → iD w ≤ 24 → exec (.bz k) s = .next
      (if x.reg (iD w) = 0 then goto (rel 21) else goto (x.pc + 4))) ∧
    (s.atInstr k 0x16 none w → iD w ≤ 24 → exec (.bnz k) s = .next
      (if x.reg (iD w) = 0 then goto (x.pc + 4) else goto (rel 21))) ∧
    (s.atInstr k 0x05 (some 3) w → legalR w = true → exec (.jr k) s = .next (goto (x.reg (iA w) / 4 * 4))) ∧
    (s.atInstr k 0x17 none w → bitsOf w 25 22 = 0 → called (.call k) (rel 22)) ∧
    (s.atInstr k 0x05 (some 4) w → legalR w = true → called (.callr k) (x.reg (iA w) / 4 * 4)) ∧
    (s.atInstr k 0x05 (some 5) w → legalR w = true →
      (x.ccp ≠ 7 → 1 < x.occ → exec (.ret k) s = .next
        ((s.setReckX k { x with occ := x.occ - 1, ccp := (x.ccp + 6) % 7, pc := x.link.getD x.ccp 0 }).showCols k)) ∧
      (x.ccp ≠ 7 → x.occ ≤ 1 → 0 < x.cdep → exec (.ret k) s = .next (wait .ret)) ∧
      (x.ccp ≠ 7 → x.occ ≤ 1 → x.cdep = 0 → exec (.ret k) s = .next (s.trapHere k tcRETEMPTY)) ∧
      (x.ccp = 7 → exec (.ret k) s = .next
        (((s.setReckX k { x with ccp := x.tcol, pc := x.tpc / 4 * 4 }).setRkSt k rkRUN).showCols k)))

/-- R236, R205, R210, R219: NOP goes on; MFS reads and MTS writes the special registers (CYCLE reads a free value, and the
read-only ones ignore a write); TRAP takes SOFT with TPC after it; WAITF takes the lowest pending source of its mask or
sleeps, and is illegal in c7; a word no row lists takes ILLEGAL. -/
def Claims.ReckSystem : Prop :=
  ∀ (k : Fin 32) (s : State) (w : Nat),
    let x := s.reckX k
    let v := x.reg (iA w)
    let set (y : ReckX) : State := s.setReckX k { y with pc := x.pc + 4 }
    (s.atInstr k 0x05 (some 0) w → legalR w = true → exec (.nop k) s = .next (set x)) ∧
    (s.atInstr k 0x05 (some 1) w → legalSpec w = true →
      (∀ i y, (i, y) ∈ [(0, x.flags), (1, x.ctrl), (2, x.link.getD x.ccp 0), (3, x.tpc), (4, x.tcause), (5, x.tcol),
          (6, x.tvec), (7, x.cdep * 256 + x.occ * 16 + x.ccp), (8, x.tinfo), (9, x.tns), (10, x.tsec), (12, k.val)] →
        iB w = i → exec (.mfs k) s = .next (s.wrote k w y x.flags)) ∧
      (iB w = 11 → ∃ y, exec (.mfs k) s = .next (s.free.2.wrote k w y x.flags))) ∧
    (s.atInstr k 0x05 (some 2) w → legalSpec w = true →
      (iB w = 0 → exec (.mts k) s = .next (set { x with flags := v &&& 0x1F0F })) ∧
      (iB w = 1 → exec (.mts k) s = .next (set { x with ctrl := v % 2 })) ∧
      (iB w = 2 → exec (.mts k) s = .next (set { x with link := x.link.set x.ccp v })) ∧
      (iB w = 3 → exec (.mts k) s = .next (set { x with tpc := v })) ∧
      (iB w = 6 → exec (.mts k) s = .next (set { x with tvec := v })) ∧
      (iB w ∈ [4, 5, 7, 8, 9, 10, 11, 12] → exec (.mts k) s = .next (set x))) ∧
    (s.atInstr k 0x05 (some 6) w → legalR w = true → exec (.trap k) s = .next (s.reckTrap k tcSOFT (x.pc + 4))) ∧
    (s.atInstr k 0x05 (some 7) w → iD w ≤ 24 → iA w ≤ 24 → iB w ≤ 24 → bitsOf w 6 6 = 0 → bitsOf w 10 7 ≠ 0 →
      (x.ccp = 7 → exec (.waitf k) s = .next (s.trapHere k tcILLEGAL)) ∧
      (x.ccp ≠ 7 → x.woke = false → x.pendIn (bitsOf w 10 7) = none → exec (.waitf k) s = .next
        ((s.setReckX k { x with mask := bitsOf w 10 7, woke := false }).setRkSt k rkSLEEP)) ∧
      (∀ i, x.ccp ≠ 7 → x.pendIn (bitsOf w 10 7) = some i →
        exec (.waitf k) s = .next ((s.busyEnd k).waitTake k i))) ∧
    (s.reckRuns k = true → x.pc < 65536 → listedOp (s.fetch k) = false →
      exec (.illegalInstruction k .clean) s = .next (s.trapHere k tcILLEGAL) ∧
      exec (.illegalInstruction k .double) s = .next (s.reckFatal k 5))

/-- The parts above: ReckBranch, ReckSystem. -/
def Obligations.ReckFlow : Prop :=
  Claims.ReckBranch ∧ Claims.ReckSystem

/-- R211, R212: a trap outside column c7 with a vector saves where it returns to, the cause and the column, enters c7 at
the vector in state TRAP, and no memory changes; in c7 it is fatal fault 1 instead, with no vector fatal fault 4. -/
def Obligations.ReckTrapEntry : Prop :=
  ∀ (k : Fin 32) (s : State) (cause tpc : Nat),
    let x := s.reckX k
    let p := pRECK k
    (x.ccp ≠ 7 → x.tvec ≠ 0 →
      ∃ t, s.reckTrap k cause tpc = t ∧
        t.reckX k = { x with tpc := tpc, tcause := cause, tcol := x.ccp, ccp := 7, pc := x.tvec / 4 * 4 } ∧
        t.rkSt k = rkTRAP ∧ t.reg p RECK.TRAPINFO = (tpc / 4 % 65536 * 2 ^ 16 + cause) % 2 ^ 32 ∧
        t.bit p PG.EV_STAT (blk 2) = true ∧ SameMem s t) ∧
    (x.ccp = 7 → s.reckTrap k cause tpc = s.reckFatal k 1) ∧
    (x.ccp ≠ 7 → x.tvec = 0 → s.reckTrap k cause tpc = s.reckFatal k 4)

/-- R203, R208, R209, R210, R212, R213, R216: CLR_FATAL, the end of a shutdown and of a spill, MEM_DATA, events, waking,
and the migration to the spare, which raises MIGRATED. -/
def Obligations.ReckControl : Prop :=
  ∀ (k : Fin 32) (s : State) (w : Writer),
    let x := s.reckX k
    let p := pRECK k
    (s.mayAct w p → s.rkSt k = rkFATAL →
      exec (.clrFatal w k) s = .next (((s.setReg p RECK.FATAL 0).setRkSt k rkSTOPPED).answer w .ok)) ∧
    (s.mayAct w p → s.rkSt k ≠ rkFATAL → exec (.clrFatal w k) s = .next (s.answer w .ok)) ∧
    (s.flag p PG.STAT_SHUTTING = true → s.reckStops k = true → x.spill = none →
      exec (.reckStopped k) s = .next (s.reckStopped k)) ∧
    (∀ c, x.spill = some (.call c) → s.rkSt k = rkSPILL → exec (.spillComplete k .clean) s = .next
      (((s.spillWrite k).callEnter k c).setRkSt k rkRUN)) ∧
    (x.spill = some .ret → s.rkSt k = rkSPILL → exec (.spillComplete k .clean) s = .next (s.fillRead k)) ∧
    (∀ c, x.spill = some c → s.rkSt k = rkSPILL → exec (.spillComplete k .double) s = .next (s.reckFatal k 5)) ∧
    (∀ v : Word, s.mayAct w p → s.reg p RECK.MEM_ADDR = 2 ^ 31 →
      exec (.memDataAccess w k (some v) .clean) s = .next
        (((s.setReckWord k 16384 v.toNat).set p ⟨RECK.MEM_ADDR, 15, 2⟩ 1).answer w .ok)) ∧
    (s.pageRests p = false → s.reg p RECK.MEM_ADDR = 2 ^ 31 → exec (.memDataAccess w k none .clean) s = .next
      ((s.set p ⟨RECK.MEM_ADDR, 15, 2⟩ 1).send (.resp w .ok 1 [wordOf (s.reckWord k 16384)]))) ∧
    (∀ v : Word, s.mayAct w p → s.get p (RECK.TRIG_SRC 0) = 5 → v = 1 →
      exec (.reckSwtrig w k v) s = .next ((s.reckEvent k 0).answer w .ok)) ∧
    (∀ i : Fin 4, s.trigLive k i = true → s.rkSt k = rkSLEEP →
      exec (.reckTriggerEvent k i) s = .next (s.setReckX k { x with
        pend := x.pend.set i (min (x.pend.getD i 0 + 1) 255), pendT := x.pendT.set i s.beam.t })) ∧
    (∀ i : Fin 4, s.trigLive k i = true → s.rkSt k = rkRUN →
      ∃ t, exec (.reckTriggerEvent k i) s = .next t ∧ t.bit p PG.ERR (blk 0) = true ∧ t.bit p PG.EV_STAT (blk 1) = true ∧
        t.reckX k = { x with pend := x.pend.set i (min (x.pend.getD i 0 + 1) 255), pendT := x.pendT.set i s.beam.t }) ∧
    (∀ i, s.rkSt k = rkSLEEP → x.pendIn x.mask = some i → (s.vsm k).runs = false →
      exec (.reckWake k) s = .next (s.waitTake k i)) ∧
    (∀ b, s.bist.slot = some b → s.lbSt = lbWAIT → b.logical = some k.val → s.rkSt k = rkSLEEP →
      exec (.migrationStart k) s = .next ((s.setRkSt k rkMIGR).setLbSt lbMIGRATE)) ∧
    (∀ b, s.bist.slot = some b → s.lbSt = lbMIGRATE → b.logical = some k.val → s.rkSt k = rkMIGR →
      x.pendIn x.mask = none → exec (.migrationDone k) s = .next
        (((((s.set p RECK.STATUS_PHYS s.spare).setSpare b.core).testBegin lbTEST).setRkSt k rkSLEEP).ev p (blk 3)))

/-! ## The beam and its frames (spec/03) -/

/-- R64, R66, R67, R82: a capture takes the beam's time, lock state and holdover; a beam second sets SECOND and raises
BEAM_PPS_OUT where it is enabled, and its width ends it. -/
def Claims.BeamTime : Prop :=
  ∀ (w : Writer) (s : State), s.mayAct w pBEAM →
    (∃ t, exec (.snap w) s = .next t ∧ t.reg pBEAM BEAM.SNAP_NS = s.ns ∧
      t.get pBEAM ⟨BEAM.SNAP_INFO, 7, 0⟩ = s.frac ∧
      t.get pBEAM ⟨BEAM.SNAP_INFO, 9, 8⟩ = s.get pBEAM BEAM.STAT_LOCK ∧
      t.get pBEAM ⟨BEAM.SNAP_INFO, 10, 10⟩ = s.get pBEAM BEAM.STAT_HOLDOVER ∧
      t.reg pBEAM BEAM.SNAP_SEC_LO = s.sec % 2 ^ 32 ∧
      (s.sec < 2 ^ 48 → t.reg pBEAM BEAM.SNAP_SEC_HI = s.sec / 2 ^ 32) ∧ t.beam = s.beam ∧ SameMem s t ∧
      SameRegs s t [(pBEAM, BEAM.SNAP_NS), (pBEAM, BEAM.SNAP_INFO), (pBEAM, BEAM.SNAP_SEC_LO),
        (pBEAM, BEAM.SNAP_SEC_HI)]) ∧
    (s.flag pBEAM BEAM.CTL_PPS_OUT_EN = false → exec .beamSecond s = .next (s.ev pBEAM 18)) ∧
    (s.flag pBEAM BEAM.CTL_PPS_OUT_EN = true → ∃ t, exec .beamSecond s = .next t ∧ t.bit pBEAM PG.EV_STAT 18 = true ∧
      t.beam = { s.beam with ppsOut := true } ∧ t.out = s.out ++ [.pin "BEAM_PPS_OUT" true] ∧
      SameRegs s t [(pBEAM, PG.EV_STAT)] ∧ SameMem s t) ∧
    (s.beam.ppsOut = true → exec .ppsOutWidthEnd s = .next
      ((s.setBeam { s.beam with ppsOut := false }).send (.pin "BEAM_PPS_OUT" false)))

/-- R73, R76, R77: edges of BEAM_PPS_IN and PTP messages of the selected port, domain and transport set PPS_VALID,
PTP_VALID and the offsets read; without an edge for 1.5 s the 1PPS becomes invalid, as it does at a third edge in a row
more than 1 µs off while a master is in FINE.  A master moves its correction by at most 0.1 ppm in a second. -/
def Claims.BeamImports : Prop :=
  ∀ (s : State),
    let off := secOffset s.beam.t
    (∀ f d, s.isMaster = false → s.flag pBEAM BEAM.CTL_PPS_IN_EN = true → s.flag pBEAM BEAM.CTL_PPS_POL = f →
      s.beam.ppsGood = 2 → s.injArmed pBEAM 0 = false → 999900000 ≤ d → d ≤ 1000100000 →
      ∃ t, exec (.ppsInEdge f (some d)) s = .next t ∧ t.flag pBEAM BEAM.STAT_PPS_VALID = true ∧
        t.regS pBEAM BEAM.PPS_IN_ERR = off / 256 ∧ t.beam.ppsGood = 3 ∧
        SameRegs s t [(pBEAM, BEAM.STAT), (pBEAM, BEAM.PPS_IN_ERR)] ∧ SameMem s t) ∧
    (∀ f d, s.isMaster = true → s.get pBEAM BEAM.STAT_LOCK = 3 → s.flag pBEAM BEAM.CTL_PPS_IN_EN = true →
      s.flag pBEAM BEAM.CTL_PPS_POL = f → s.beam.ppsGood = 2 → s.injArmed pBEAM 0 = false → 999900000 ≤ d →
      d ≤ 1000100000 → off.natAbs ≤ 256000 → s.corr.natAbs ≤ 200000000 →
      (s.corr - s.beam.settled).natAbs ≤ 10000000 →
      ∃ t, exec (.ppsInEdge f (some d)) s = .next t ∧ t.flag pBEAM BEAM.STAT_PPS_VALID = true ∧
        t.regS pBEAM BEAM.PPS_IN_ERR = off / 256 ∧ (t.corr - s.corr).natAbs ≤ 100000 ∧ t.corr.natAbs ≤ 200000000 ∧
        (t.corr - s.beam.settled).natAbs ≤ 10000000 ∧ t.beam.t = s.beam.t ∧
        SameRegs s t [(pBEAM, BEAM.STAT), (pBEAM, BEAM.PPS_IN_ERR), (pBEAM, BEAM.CORR), (pBEAM, PG.ERR),
          (pBEAM, PG.ERRCNT), (pBEAM, PG.EV_STAT)] ∧ SameMem s t) ∧
    (∀ f d, s.isMaster = true → s.get pBEAM BEAM.STAT_LOCK = 3 → s.flag pBEAM BEAM.CTL_PPS_IN_EN = true →
      s.flag pBEAM BEAM.CTL_PPS_POL = f → s.beam.ppsBad = 2 → s.injArmed pBEAM 0 = false → 256000 < off.natAbs →
      exec (.ppsInEdge f d) s = .next (((s.setRegSat pBEAM BEAM.PPS_IN_ERR (off / 256)).err pBEAM 17).ppsInvalid)) ∧
    (∀ f d, (s.flag pBEAM BEAM.CTL_PPS_IN_EN = false ∨ s.flag pBEAM BEAM.CTL_PPS_POL ≠ f) →
      exec (.ppsInEdge f d) s = .next s) ∧
    (s.beam.step = none → ∃ t, exec .ppsTimeout s = .next t ∧ t.flag pBEAM BEAM.STAT_PPS_VALID = false ∧
      t.beam.ppsGood = 0 ∧ t.get pBEAM BEAM.STAT_CLASS = (if s.flag pBEAM BEAM.STAT_PTP_VALID then 2 else 3) ∧
      SameRegs s t [(pBEAM, BEAM.STAT)] ∧ SameMem s t) ∧
    (∀ m : PtpMsg, s.isMaster = false → s.ptpTakes m = true → s.beam.step = none → m.utc = none →
      ∃ t, exec (.ptpMessage m) s = .next t ∧
        t.flag pBEAM BEAM.STAT_PTP_VALID = (m.slave && decide (m.offset.natAbs < 1000)) ∧
        (m.offset.natAbs < 2 ^ 31 → t.regS pBEAM BEAM.PTP_OFFSET = m.offset) ∧
        SameRegs s t [(pBEAM, BEAM.STAT), (pBEAM, BEAM.PTP_OFFSET)] ∧ SameMem s t) ∧
    (∀ (m : PtpMsg) (v : Int), s.isMaster = false → s.ptpTakes m = true → s.beam.step = none → m.utc = some v →
      -32768 ≤ v → v < 32768 →
      ∃ t, exec (.ptpMessage m) s = .next t ∧ t.bit pBEAM BEAM.PTP_UTC 16 = true ∧
        t.getS pBEAM ⟨BEAM.PTP_UTC, 15, 0⟩ = v ∧
        SameRegs s t [(pBEAM, BEAM.STAT), (pBEAM, BEAM.PTP_OFFSET), (pBEAM, BEAM.PTP_UTC)] ∧ SameMem s t) ∧
    (∀ m : PtpMsg, s.ptpTakes m = false → exec (.ptpMessage m) s = .next s)

/-- The parts above: BeamTime, BeamImports. -/
def Obligations.BeamClock : Prop :=
  Claims.BeamTime ∧ Claims.BeamImports

/-- R74, R15: the dwells move LOCK as the table of lock states says; LOCK_LOSS counts an exit from FINE, CORR_LIMIT
clears, and the end of fine lock calls SPD on every rod. -/
def Claims.BeamLockStates : Prop :=
  ∀ (s : State),
    let lock := s.get pBEAM BEAM.STAT_LOCK
    let loss (t : State) : State := t.setReg pBEAM BEAM.LOCK_LOSS (min (s.reg pBEAM BEAM.LOCK_LOSS + 1) 0xFFFF)
    let enter (t : State) (v : Nat) : State := (t.set pBEAM BEAM.STAT_LOCK v).ev pBEAM 16
    (lock = 1 → s.beam.offset.natAbs ≤ 256000 → s.beam.step = none → exec .acquireDwell s = .next (enter s 2)) ∧
    (lock = 2 → s.isMaster = false → s.beam.offset.natAbs ≤ 2560 → s.corr.natAbs < 200000000 →
      exec .coarseDwell s = .next (s.lockCheck (enter s 3))) ∧
    (lock = 2 → s.isMaster = true → exec .masterFineDwell s = .next (s.lockCheck (enter s 3).refreshClass)) ∧
    (lock = 3 → s.isMaster = false → 3840 < s.beam.offset.natAbs →
      exec .fineLossDwell s = .next (s.lockCheck (enter (loss s) 2))) ∧
    (lock = 3 → s.flag pBEAM BEAM.STAT_HOLDOVER = true → exec .holdoverExpire s = .next
      (s.lockCheck (enter (loss (s.set pBEAM BEAM.STAT_HOLDOVER 0)) 0))) ∧
    (∀ t, s.fineLock = true → t.fineLock = false →
      s.lockCheck t = (allRods.foldl (fun u n => u.descentCause n dcLOCK) t).placeRun) ∧
    (s.corr.natAbs < 190000000 → exec .corrLimitClear s = .next (s.set pBEAM BEAM.STAT_CORR_LIMIT 0)) ∧
    (s.isMaster = false → s.flag pBEAM BEAM.MASTER_VALID = true → lock = 0 → s.beam.step = none →
      ∃ t, exec .masterLoss s = .next t ∧ t.flag pBEAM BEAM.MASTER_VALID = false ∧
        t.get pBEAM BEAM.MASTER_PARENT = 7 ∧ t.get pBEAM BEAM.MASTER_ADDR = s.get pBEAM BEAM.MASTER_ADDR ∧
        t.bit pBEAM PG.EV_STAT 17 = true ∧ SameMem s t) ∧
    (s.isMaster = false → s.get pBEAM BEAM.MASTER_PARENT ≠ 7 → lock = 1 → s.beam.step = none →
      ∃ t, exec .parentLoss s = .next t ∧ t.get pBEAM BEAM.STAT_LOCK = 0 ∧ t.get pBEAM BEAM.MASTER_PARENT = 7 ∧
        t.corr = s.corr ∧ SameMem s t)

/-- R69, R70, R71, R73, R74, R434, R442: election and time messages.  A candidate with COORD_OK floods its tuple; a tuple
heard is kept; a known lower tuple takes the mastership over; the lowest becomes master; a message that echoes a frame of
the link sets its delay and leaves a master's beam alone, one of the parent gives the follower its offset. -/
def Claims.BeamElection : Prop :=
  ∀ (s : State) (u : Tuple) (link : Fin 4) (m : TimeMsg),
    (s.candidate = true → s.coordOk = true → exec .electTx s = .next (s.fabFlood kdELECT 0
      ([s.get pBEAM BEAM.CTL_PRIO, s.get pBEAM BEAM.STAT_CLASS] ++ leBytes 2 (s.get pFABR FABR.ADDR_CFG_ADDR) ++
        [0, 0, 0, 0]))) ∧
    ((s.candidate = false ∨ s.coordOk = false) → exec .electTx s = .next s) ∧
    (∀ im early, (s.flag pBEAM BEAM.MASTER_VALID = false ∨ (im = false ∧ early = false)) →
      exec (.electRx u im early) s = .next (s.setBeam { s.beam with
        heard := s.beam.heard.filter (fun v => !(v.addr == u.addr)) ++ [u] })) ∧
    (s.isMaster = false → s.fineLock = false → u.addr ≠ s.get pFABR FABR.ADDR_CFG_ADDR → u.addr < 4096 →
      s.flag pBEAM BEAM.MASTER_VALID = true → s.tupleOf u.addr = some u →
      (s.tupleOf (s.get pBEAM BEAM.MASTER_ADDR)).all (fun v => tupleLt u v) = true →
      ∃ t, exec (.masterTakeover u) s = .next t ∧ t.flag pBEAM BEAM.MASTER_VALID = true ∧
        t.get pBEAM BEAM.MASTER_ADDR = u.addr ∧ SameMem s t) ∧
    ((s.flag pBEAM BEAM.MASTER_VALID = false ∨ s.tupleOf u.addr ≠ some u ∨
        (s.tupleOf (s.get pBEAM BEAM.MASTER_ADDR)).any (fun v => !tupleLt u v) = true) →
      exec (.masterTakeover u) s = .next s) ∧
    (s.beam.heard = [] → s.candidate = true → s.isMaster = false → s.fineLock = false → s.beam.step = none →
      s.get pBEAM BEAM.STAT_LOCK = 0 →
      ∃ t, exec .masterTake s = .next t ∧ t.isMaster = true ∧ t.get pBEAM BEAM.STAT_LOCK = 2 ∧
        t.flag pBEAM BEAM.MASTER_VALID = true ∧ t.beam.t = s.beam.t ∧ SameMem s t) ∧
    (∀ e, (s.fab link).timeTx.find? (fun e => e.1 == m.echo) = some e → s.isMaster = true →
      let d := (((s.beam.t : Int) - e.2) - ((m.sent : Int) - m.got) - s.getS (pFAB link) ⟨FAB.ASYM, 15, 0⟩) / 2
      ∃ t, exec (.timeMessageRx link m) s = .next t ∧ (0 ≤ d → d < 2 ^ 32 → (t.reg (pFAB link) FAB.DLY : Int) = d) ∧
        t.beam.t = s.beam.t ∧ t.beam.offset = s.beam.offset ∧ SameRegs s t [((pFAB link), FAB.DLY)] ∧ SameMem s t) ∧
    (s.isMaster = false → s.flag pBEAM BEAM.MASTER_VALID = true → m.master = s.get pBEAM BEAM.MASTER_ADDR →
      s.get pBEAM BEAM.MASTER_PARENT = link.val → s.get pBEAM BEAM.STAT_LOCK ≠ 3 →
      (s.offsetFrom link m).natAbs ≤ 256000 →
      ∃ t, exec (.timeMessageRx link m) s = .next t ∧ t.beam.offset = s.offsetFrom link m ∧
        t.flag pBEAM BEAM.STAT_CMSN_HOLD = m.cmsn ∧ t.flag pBEAM BEAM.STAT_HOLDOVER = false ∧
        t.corr.natAbs ≤ 200000000 ∧ SameMem s t) ∧
    (s.linkUp 0 = false → s.linkUp 1 = false → s.linkUp 2 = false → s.linkUp 3 = false →
      exec .timeMessageTx s = .next s.refreshClass) ∧
    (∀ b, (∀ l, l < 4 → s.linkUp l = decide (l = link.val)) → b = s.refreshClass →
      exec .timeMessageTx s = .next (b.fabTime link
        (b.get pBEAM BEAM.STAT_LOCK % 4 + 4 * b.get pBEAM BEAM.STAT_HOLDOVER + 8 * b.get pBEAM BEAM.STAT_CMSN_HOLD +
          16 * b.get pBEAM BEAM.STAT_CROSS_SITE + 32 * b.get pBEAM BEAM.STAT_IS_MASTER)
        (b.get pBEAM BEAM.MASTER_HOPS) (b.get pBEAM BEAM.MASTER_ADDR + 2 ^ 15 * b.get pBEAM BEAM.MASTER_VALID)))

/-- The parts above: BeamLockStates, BeamElection. -/
def Obligations.BeamLocks : Prop :=
  Claims.BeamLockStates ∧ Claims.BeamElection

/-- R68, R74, R79, R80, R81: a follower in ACQUIRE more than 1 µs off, without a step in the last 10 s, steps, as does a
master before FINE at the first valid time of a reference, and a commissioning set.  A step applies once every rod has its
gates off; while one has not, it waits with STEP_PENDING set and the beam goes on. -/
def Claims.BeamSteps : Prop :=
  ∀ (s : State),
    let wait (k : StepWait) : State := (s.setBeam { s.beam with step := some k }).set pBEAM BEAM.STAT_STEP_PENDING 1
    let recent := s.beam.lastStep.any (fun t => decide (t ≤ s.beam.t) && decide (s.beam.t < t + 2560000000000))
    (s.get pBEAM BEAM.STAT_LOCK = 1 → s.isMaster = false → s.beam.step = none → 256000 < s.beam.offset.natAbs → ¬recent →
      (s.gatesOff = true → exec (.beamStep .follower) s = .next ((s.applyStep .follower).ev pBEAM 16)) ∧
      (s.gatesOff = false → s.fineLock = false → exec (.beamStep .follower) s = .next ((wait .follower).ev pBEAM 16))) ∧
    ((s.get pBEAM BEAM.STAT_LOCK ≠ 1 ∨ s.isMaster = true ∨ s.beam.offset.natAbs ≤ 256000 ∨ recent) →
      exec (.beamStep .follower) s = .next s) ∧
    (∀ b d, s.isMaster = true → s.get pBEAM BEAM.STAT_LOCK ≠ 3 → s.refValid b = true →
      (if b then s.beam.impPps else s.beam.impPtp) = false → s.beam.step = none →
      (s.gatesOff = true → exec (.beamStep (.reference b d)) s = .next (s.applyStep (.reference b d))) ∧
      (s.gatesOff = false → exec (.beamStep (.reference b d)) s = .next (wait (.reference b d)))) ∧
    (∀ b d, (s.isMaster = false ∨ s.get pBEAM BEAM.STAT_LOCK = 3 ∨ s.refValid b = false) →
      exec (.beamStep (.reference b d)) s = .next s) ∧
    (∀ k, s.beam.step = some k → s.gatesOff = true → exec .stepApply s = .next (s.applyStep k)) ∧
    (∀ k, s.beam.step = some k → s.gatesOff = false → exec .stepApply s = .next s) ∧
    ((s.pg pBEAM).applyPending = true →
      let t := s.applyCommit pBEAM
      ((s.pg pBEAM).pending = [] → exec .beamSetApply s = .next t) ∧
      ((s.pg pBEAM).pending ≠ [] → t.isMaster = false → exec .beamSetApply s = .next (t.err pBEAM 16)) ∧
      ((s.pg pBEAM).pending ≠ [] → t.isMaster = true → t.gatesOff = true →
        exec .beamSetApply s = .next (t.applyStep (.commissioning (((t.reg pBEAM BEAM.SET_SEC_LO +
          t.reg pBEAM BEAM.SET_SEC_HI % 2 ^ 16 * 2 ^ 32) * 1000000000 + t.reg pBEAM BEAM.SET_NS) * 256)))))

/-- R79 to R81: a step gives the beam its new time with fraction 0 (a follower's, its parent's; a reference's, shifted;
a commissioning set's, as set), resets the servo's integrator, clears STEP_PENDING and sets STEPPED. -/
def Claims.BeamStepTakesTime : Prop :=
  ∀ (s : State) (k : StepWait),
    let all := 2 ^ 48 * 256000000000
    let t := s.applyStep k
    let b := t.beam
    b.step = none ∧ b.rem = 0 ∧ b.steps = s.beam.steps + 1 ∧ b.integ = 0 ∧ b.lastStep = some b.t ∧
      t.flag pBEAM BEAM.STAT_STEP_PENDING = false ∧ t.bit pBEAM PG.EV_STAT 19 = true ∧
      (match k with
        | .follower => (b.t : Int) = ((s.beam.t : Int) - s.beam.offset) % all ∧ b.offset = 0
        | .reference pps d => (b.t : Int) = ((s.beam.t : Int) + d) % all ∧ b.offset = s.beam.offset ∧
          (if pps then b.impPps else b.impPtp) = true
        | .commissioning u => b.t = u ∧ b.offset = s.beam.offset ∧ b.impPps = s.beam.impPps ∧
          b.impPtp = s.beam.impPtp)

/-- The parts above: BeamSteps, BeamStepTakesTime. -/
def Obligations.BeamStepping : Prop :=
  Claims.BeamSteps ∧ Claims.BeamStepTakesTime

/-- R83 to R86: a boundary of a running generator whose time has come counts k, and the next one lies one PERIOD later; a
PERIOD committed at least 2.5 µs before it takes force there; before its time nothing happens.  A rod takes its period and
mid frames when they are due, once each. -/
def Claims.FrameBoundaries : Prop :=
  ∀ (s : State) (g n : Fin 24), s.genRunning g = true →
    let x := s.gen g
    let p := x.period
    (x.next ≤ s.beam.t → x.loads = [] →
      ∃ t, exec (.carrierBoundary g none) s = .next t ∧ (x.hist = [] → exec (.cgStart g) s = .next t) ∧
        t.reg pFRAME (FRAME.CG_COUNT g) = x.k % 2 ^ 32 ∧ (t.gen g).k = x.k + 1 ∧ (t.gen g).next = x.next + p * 40 ∧
        (t.gen g).period = p ∧ (t.gen g).hist = (⟨x.next, p, x.mid⟩ :: x.hist).take 6 ∧
        t.reg pFRAME (FRAME.CG_NEXT_NS g) = (x.next + p * 40) / 256 % 1000000000 ∧
        SameRegs s t [(pFRAME, FRAME.CG_COUNT g), (pFRAME, FRAME.CG_NEXT_NS g)] ∧ SameMem s t) ∧
    (∀ l, x.next ≤ s.beam.t → x.loads = [l] → l.since ≤ x.next →
      ∃ t, exec (.carrierBoundary g none) s = .next t ∧ (t.gen g).period = l.period ∧ (t.gen g).mid = l.mid ∧
        (t.gen g).loads = [] ∧ (t.gen g).next = x.next + l.period * 40 ∧
        (l.period ≠ p → t.flag pFRAME (FRAME.CG_STAT_ANCHORED g) = false) ∧ SameMem s t) ∧
    (s.beam.t < x.next → exec (.carrierBoundary g none) s = .next s ∧ exec (.cgStart g) s = .next s) ∧
    (s.genOf n = g →
      (∀ e, s.frameDue n false = some e → exec (.carrierBoundary g (some n)) s = .next
        ((s.setRod n { s.rod n with frameN := (s.genOf n, e.1) }).periodFrame n e.2)) ∧
      (s.frameDue n false = none → exec (.carrierBoundary g (some n)) s = .next s) ∧
      (∀ e, s.frameDue n true = some e → exec (.midFrame g n) s = .next
        (((s.setRod n { s.rod n with midN := (s.genOf n, e.1) }).rodFrame n).cntLatch n e.2)) ∧
      (s.frameDue n true = none → exec (.midFrame g n) s = .next s))

/-- R85, R88, R89: generators that wait for fine lock, gangs and SAMPLE_SYNC_IN. -/
def Claims.FrameGangs : Prop :=
  ∀ (s : State) (g : Fin 24),
    (s.flag pFRAME (FRAME.CG_STAT_WAIT_LOCK g) = true → s.fineLock = true →
      s.flag pFRAME (FRAME.CG_STAT_GANG_MISMATCH g) = false → exec (.cgLockStart g) s = .next (s.startGen g)) ∧
    ((s.flag pFRAME (FRAME.CG_STAT_WAIT_LOCK g) = false ∨ s.fineLock = false) → exec (.cgLockStart g) s = .next s) ∧
    ((∀ h, h < 24 → s.flag pFRAME (FRAME.CG_CTL_CROSS h) = decide (h = g.val)) →
      exec .gangTx s = .next (s.fabFlood kdGANG 0 (leBytes 4 (s.get pFRAME (FRAME.CG_CTL_GANG_ID g)) ++
        leBytes 4 (s.reg pFRAME (FRAME.CG_PERIOD g)) ++ leBytes 8 (s.anchor g)))) ∧
    (∀ id per anchor, (∀ h, h < 24 → s.flag pFRAME (FRAME.CG_CTL_CROSS h) = decide (h = g.val)) →
      s.get pFRAME (FRAME.CG_CTL_GANG_ID g) = id → s.reg pFRAME (FRAME.CG_PERIOD g) ≠ per → s.genRunning g = true →
      exec (.gangRx id per anchor) s = .next
        (((s.set pFRAME (FRAME.CG_STAT_GANG_MISMATCH g) 1).err pFRAME 19).ev pFRAME 17)) ∧
    (s.genRunning g = true → exec (.gangMismatchClear g) s = .next
      ((s.set pFRAME (FRAME.CG_STAT_GANG_MISMATCH g) 0).setGen g { s.gen g with gangStop := false })) ∧
    (∀ u b, s.syncInUse = true →
      s.syncBounds.find? (fun b => decide ((s.syncOff u b).natAbs ≤ s.syncWin)) = some b →
      s.beam.syncEdges.any (fun e => e.1 == b) = false → (s.syncOff u b).natAbs < 2 ^ 15 →
      ∃ t, exec (.sampleSyncEdge u) s = .next t ∧ t.getS pFRAME ⟨FRAME.SYNC_ERR, 15, 0⟩ = s.syncOff u b ∧
        t.get pFRAME ⟨FRAME.SYNC_MISS, 23, 16⟩ = 0 ∧
        t.get pFRAME ⟨FRAME.SYNC_MISS, 15, 0⟩ = s.get pFRAME ⟨FRAME.SYNC_MISS, 15, 0⟩ ∧
        t.beam.syncEdges = ((b, u) :: s.beam.syncEdges).take 8 ∧ SameMem s t) ∧
    (∀ u, s.syncBounds.find? (fun b => decide ((s.syncOff u b).natAbs ≤ s.syncWin)) = none →
      ∃ t, exec (.sampleSyncEdge u) s = .next t ∧ t.beam = s.beam ∧ SameMem s t) ∧
    (∀ b, s.syncInUse = true →
      s.syncBounds.find? (fun b => decide (s.beam.syncFrom < b ∧ (s.syncWin : Int) < s.syncOff s.beam.t b) &&
        !s.beam.syncEdges.any (fun e => e.1 == b)) = some b →
      ∃ t, exec .syncMiss s = .next t ∧ t.beam.syncFrom = b ∧
        t.get pFRAME ⟨FRAME.SYNC_MISS, 15, 0⟩ = min (s.get pFRAME ⟨FRAME.SYNC_MISS, 15, 0⟩ + 1) 0xFFFF ∧
        t.get pFRAME ⟨FRAME.SYNC_MISS, 23, 16⟩ = min (s.get pFRAME ⟨FRAME.SYNC_MISS, 23, 16⟩ + 1) 0xFF ∧
        (s.get pFRAME ⟨FRAME.SYNC_MISS, 23, 16⟩ < 7 → t.beam.syncLost = s.beam.syncLost) ∧
        (7 ≤ s.get pFRAME ⟨FRAME.SYNC_MISS, 23, 16⟩ →
          t.beam.syncLost = true ∧ t.bit pFRAME PG.ERR 20 = true ∧ t.bit pFRAME PG.EV_STAT 16 = true) ∧ SameMem s t)

/-- The parts above: FrameBoundaries, FrameGangs. -/
def Obligations.Frames : Prop :=
  Claims.FrameBoundaries ∧ Claims.FrameGangs

/-- R83, R86: a generator that starts has its first boundary on its anchor grid, at least 2.5 µs ahead and not before
ANCHOR, and the boundary before that one lies nearer. -/
def Obligations.FrameStartOnGrid : Prop :=
  ∀ (s : State) (g : Fin 24), 0 < s.get pFRAME ⟨FRAME.CG_PERIOD g, 21, 0⟩ →
    let p := s.get pFRAME ⟨FRAME.CG_PERIOD g, 21, 0⟩ * 40
    let a := s.anchor g * 256000000000
    let t := s.startGen g
    let x := t.gen g
    x.next = a + x.k * p ∧ a ≤ x.next ∧ s.beam.t + 640000 ≤ x.next ∧
      (0 < x.k → x.next < s.beam.t + 640000 + p) ∧ t.genRunning g = true ∧
      t.flag pFRAME (FRAME.CG_STAT_ANCHORED g) = true ∧ t.flag pFRAME (FRAME.CG_STAT_WAIT_LOCK g) = false ∧
      t.bit pFRAME PG.EV_STAT 18 = true ∧ SameMem s t

/-! ## Rods, gate links and the power stage (spec/04 to spec/06) -/

/-- R94, R107, R108, R109, R113, R146: writes of the references, refused in loop mode; REF_C arms the set; at the cutoff of
a mid frame an armed set is taken and the segment computed, once for each update point; the modulator ends at the update
point that followed DESCENT. -/
def Claims.RodModulation : Prop :=
  ∀ (w : Writer) (n : Fin 24) (v : Word) (s : State),
    let p := pROD n
    let refused := ((s.err p 18).countRefused w p .writeRefused).answer w .writeRefused
    (s.mayAct w p → s.get p ROD.CFG_REF_SRC = 1 →
      exec (.refAbWrite w n v) s = .next ((s.setWord p ROD.REF_AB v).answer w .ok) ∧
      exec (.refCWrite w n v) s = .next
        (((s.setWord p ROD.REF_C (v &&& wordOf 0xFFFF)).arm n).answer w .ok)) ∧
    (s.mayAct w p → s.get p ROD.CFG_REF_SRC = 0 →
      exec (.refAbWrite w n v) s = .next refused ∧ exec (.refCWrite w n v) s = .next refused) ∧
    (∀ u, (s.rod n).modEnd = some u → exec (.modulationEnd n) s = .next (s.endModulation n u)) ∧
    ((s.rod n).modEnd = none → exec (.modulationEnd n) s = .next s) ∧
    (s.nextUpdate n = none → exec (.updateCutoff n) s = .next s) ∧
    (∀ q, s.nextUpdate n = some q → (s.rod n).cutU = some q.u → exec (.updateCutoff n) s = .next s) ∧
    (∀ q, s.nextUpdate n = some q → (s.rod n).cutU ≠ some q.u → q.half = true →
      let t := (s.applyCommit p).rodApplied n
      let t := (t.setRod n { t.rod n with cutU := some q.u }).setB p ROD.STATUS_MID_ABSENT
        (t.flag p ROD.CFG_UPD_MODE && !q.midEn)
      exec (.updateCutoff n) s = .next
        (((if t.flag p ROD.STATUS_ARMED then t.loopTaken n q.u else t).takeRefs n).segment n q)) ∧
    (∀ q, s.nextUpdate n = some q → (s.rod n).cutU ≠ some q.u → q.half = false → s.crossTrips n = true →
      exec (.updateCutoff n) s = .next ((s.setRod n { s.rod n with cutU := some q.u }).crossChecks n))

/-- R107, R108, R110: a cutoff with an armed set moves it to the active references; one without, in RUN or DESCENT, lets
the run of stale update points grow, and at STALE_LIM it is the descent cause STALE. -/
def Claims.RodTakesReferences : Prop :=
  ∀ (s : State) (n : Fin 24),
    let p := pROD n
    let lim := s.get p ROD.CFG_STALE_LIM
    let old := s.reg p ROD.STALE_RUN
    let run := min (old + 1) 255
    let runs := s.rodSt n = stRUN ∨ s.rodSt n = stDESCENT
    (s.flag p ROD.STATUS_ARMED = true →
      ∃ t, s.takeRefs n = t ∧ t.word p ROD.ACT_AB = s.word p ROD.REF_AB ∧ t.word p ROD.ACT_C = s.word p ROD.REF_C ∧
        t.flag p ROD.STATUS_ARMED = false ∧ (runs → t.reg p ROD.STALE_RUN = 0) ∧
        (¬runs → t.reg p ROD.STALE_RUN = old) ∧ t.flag p ROD.STATUS_REF_STALE = false ∧ SameMem s t ∧
        SameRegs s t [(p, ROD.ACT_AB), (p, ROD.ACT_C), (p, ROD.STATUS), (p, ROD.STALE_RUN)]) ∧
    (s.flag p ROD.STATUS_ARMED = false → runs →
      (lim = 0 ∨ run < lim ∨ (lim ≤ old ∧ s.flag p ROD.STATUS_REF_STALE = true)) →
      s.takeRefs n = s.setReg p ROD.STALE_RUN run) ∧
    (s.flag p ROD.STATUS_ARMED = false → runs → lim ≠ 0 → lim ≤ run →
      (old < lim ∨ s.flag p ROD.STATUS_REF_STALE = false) →
      s.takeRefs n = ((((s.setReg p ROD.STALE_RUN run).set p ROD.STATUS_REF_STALE 1).err p 19).ev p 17).descentCause n
        dcSTALE) ∧
    (s.flag p ROD.STATUS_ARMED = false → ¬runs → s.takeRefs n = s)

/-- The parts above: RodModulation, RodTakesReferences. -/
def Obligations.Modulation : Prop :=
  Claims.RodModulation ∧ Claims.RodTakesReferences

/-- R119, R120, R122, R123, R125, R128, R129, R132, R133, R143: what travels on an open link: EDGE frames with the first
released edges, TIME and PING frames with their bytes and CRC, an echo of the last PING, heartbeats; FAULT sets, from any
link; frames that fail their checks are counted; a closed link or a rod that has tripped drops its edges. -/
def Claims.GateLinkFrames : Prop :=
  ∀ (k : Fin 288) (s : State),
    let n := k.val / 12
    let p := k.val % 12
    let g := pGLK n
    let x := s.link k
    let b := s.blankTicks n
    let f := packEdges x.queue
    let nt := (x.pingTag + 1) % 256
    let put (ty len : Nat) (y : LinkX) : State :=
      s.setLink k { y with tx := [⟨ty, s.beam.t, s.beam.t + (len + 5) * 10240⟩] }
    (s.linkOpen n p = true →
      (x.queue ≠ [] → exec (.pingTx k) s = .next (s.setLink k { x with wait := x.wait.filter (· != 4) ++ [4] }) ∧
        exec (.timeFrameTx k) s = .next (s.setLink k { x with wait := x.wait.filter (· != 3) ++ [3] })) ∧
      (x.queue = [] → x.wait = [] → x.tx = [] → s.injArmed g 0 = false →
        exec (.pingTx k) s = .next
          ((put 4 1 { x with ping := some nt, pingTag := nt }).send (.glFrame k (glBytes 4 0 [nt] false))) ∧
        exec (.timeFrameTx k) s = .next ((put 3 6 x).send (.glFrame k (glBytes 3 0
          (leBytes 6 ((s.beam.t + s.get g (GLK.DLY_DLY_MEAN p)) / 40 % 2 ^ 48)) false)))) ∧
      (∀ tag tta e, x.ping = some tag.val → exec (.echoRx k tag tta e) s = .next
        (s.delaySample n p ((e : Int) - (tta.val * 40 : Nat) + s.getS g ⟨GLK.ASYM p, 15, 0⟩))) ∧
      (∀ tag tta e, x.ping ≠ some tag.val → exec (.echoRx k tag tta e) s = .next (s.countDiscard n p)) ∧
      (∀ hb, x.deafTo ≤ s.beam.t → (p ≠ 0 ∨ s.injArmed g 1 = false) →
        exec (.heartbeatRx k hb) s = .next (s.heartbeat n p hb)) ∧
      (x.queue ≠ [] → s.sgrBlock n = false → (s.rod n).tripped = false →
        let t := (s.setLink k { x with
          queue := x.queue.drop f.length
          sent := x.sent.filter (fun d => decide (s.uticks < d.1)) ++ f }).inc (pROD n) ROD.EDGE_CNT f.length
        exec (.edgeFrameTx k) s = .next
          ((if b = 0 then t
            else t.setRod n { t.rod n with
              blanks := (t.rod n).blanks.filter (fun w => decide (s.uticks < w.2.2)) ++
                f.map (fun e => (p / 4, e.1, e.1 + b)) }).sendSeq k 1 (edgePayload f)))) ∧
    ((s.linkOpen n p = false ∨ s.sgrBlock n = true ∨ (s.rod n).tripped = true) →
      exec (.edgeFrameTx k) s = .next (s.setLink k { x with
        queue := x.queue.drop f.length, sent := x.sent.filter (fun d => decide (s.uticks < d.1)) })) ∧
    (s.linkOpen n p = false → exec (.pingTx k) s = .next s ∧ exec (.timeFrameTx k) s = .next s ∧
      (∀ tag tta e, exec (.echoRx k tag tta e) s = .next s) ∧ ∀ hb, exec (.heartbeatRx k hb) s = .next s) ∧
    (∀ code : Fin 256, exec (.faultSetRx k code) s = .next
      (((s.set g (GLK.LSTAT_LAST_FCODE p) code).ev g 18).faultCause n [fcDRV])) ∧
    (∀ l vs, let t := s.incF g ⟨GLK.ERRCNT p, 31, 16⟩ vs
      exec (.uplinkFrameDiscard k l vs) s = .next
        (if l ≠ [] ∧ glGood (l.map BitVec.toNat) = false then t.incF g ⟨GLK.ERRCNT p, 15, 0⟩ else t)) ∧
    (∀ m : Fin 24, (s.rod m).innerDue = true → exec (.tripInnerOff m) s = .next
      ((s.setRod m { s.rod m with innerDue := false }).send (.tripSets m [1, 2, 5, 6, 9, 10] []))) ∧
    (∀ m : Fin 24, (s.rod m).innerDue = false → exec (.tripInnerOff m) s = .next s)

/-- R135: the link states: symbol lock opens SYNC, sends TIME and PING and asks the driver for its version; a train that
fails and a link that falls silent go to LOST, and LOST trains anew.  TIME_OK and the bit of UP_MAP follow the state. -/
def Claims.GateLinkStates : Prop :=
  ∀ (k : Fin 288) (s : State),
    let n := k.val / 12
    let p := k.val % 12
    let st := s.linkSt n p
    (st = lkTRAIN → exec (.linkSymbolLock k) s = .next
      ((((s.setLinkSt n p lkSYNC).lowTx k 3).lowTx k 4).reqSend k [1, 0, 0, 2])) ∧
    (st ≠ lkTRAIN → exec (.linkSymbolLock k) s = .next s) ∧
    ((st = lkTRAIN ∨ st = lkSYNC) → exec (.linkTrainTimeout k) s = .next (s.enterLost n p)) ∧
    (st ≠ lkTRAIN → st ≠ lkSYNC → exec (.linkTrainTimeout k) s = .next s) ∧
    ((st = lkUP ∨ st = lkSYNC) → exec (.linkLost k) s = .next (s.enterLost n p)) ∧
    (st ≠ lkUP → st ≠ lkSYNC → exec (.linkLost k) s = .next s) ∧
    (st = lkLOST → exec (.linkRetrain k) s = .next
      ((s.incF (pGLK n) (GLK.LSTAT_RETRAIN p)).enterTrain n p)) ∧
    (st ≠ lkLOST → exec (.linkRetrain k) s = .next s) ∧
    (∀ v, let t := s.setLinkSt n p v
      t.linkSt n p = v % 8 ∧ t.bit (pGLK n) GLK.UP_MAP p = decide (v = lkUP) ∧
        t.flag (pGLK n) (GLK.LSTAT_TIME_OK p) = decide (v = lkUP))

/-- The parts above: GateLinkFrames, GateLinkStates. -/
def Obligations.GateLinks : Prop :=
  Claims.GateLinkFrames ∧ Claims.GateLinkStates

/-- R134, R135, R164: a register request is sent on a link that is UP, ends at once in NO_LINK on one that is not, is
refused while GO is set; it is sent at most three times, and a response ends it, a read's with its bytes in REQ_DATA.  The
response to an identity read goes to that read; a driver's version and capabilities are taken once. -/
def Obligations.GateRequests : Prop :=
  ∀ (w : Writer) (n : Fin 24) (v : Word) (s : State),
    let g := pGLK n
    let stored := s.setWord g GLK.REQ_CTL (v &&& wordOf 0x7F00FFFF)
    let cleared := stored.set g GLK.RSP_VALID 0
    let pos := s.get g GLK.REQ_CTL_POS
    (s.mayAct w g → s.reqBusy n = false →
      (v.getLsbD 31 = false → exec (.gateReq w n v) s = .next (stored.answer w .ok)) ∧
      (v.getLsbD 31 = true → (12 ≤ cleared.get g GLK.REQ_CTL_POS ∨ s.linkSt n (cleared.get g GLK.REQ_CTL_POS) ≠ lkUP) →
        exec (.gateReq w n v) s = .next ((cleared.reqDone n 0x10).answer w .ok)) ∧
      (v.getLsbD 31 = true → cleared.get g GLK.REQ_CTL_POS < 12 → s.linkSt n (cleared.get g GLK.REQ_CTL_POS) = lkUP →
        exec (.gateReq w n v) s = .next
          ((((cleared.set g GLK.REQ_CTL_GO 1).setRod n { s.rod n with reqTries := 1 }).reqTx n).answer w .ok))) ∧
    (s.mayAct w g → s.reqBusy n = true → exec (.gateReq w n v) s = .next
      (((s.err g 20).countRefused w g .writeRefused).answer w .writeRefused)) ∧
    (s.flag g GLK.REQ_CTL_GO = true →
      (s.linkSt n pos ≠ lkUP → exec (.gateReqRetry n) s = .next (s.reqDone n 0x10)) ∧
      (s.linkSt n pos = lkUP → (s.rod n).reqTries < 3 → exec (.gateReqRetry n) s = .next
        ((s.setRod n { s.rod n with reqTries := (s.rod n).reqTries + 1 }).reqTx n)) ∧
      (s.linkSt n pos = lkUP → 3 ≤ (s.rod n).reqTries → exec (.gateReqRetry n) s = .next (s.reqDone n 0x11))) ∧
    (s.flag g GLK.REQ_CTL_GO = false → s.idBusy n = false → exec (.gateReqRetry n) s = .next s) ∧
    (∀ (k : Fin 288) (st : Fin 256) (d : List Byte), k.val / 12 = n.val → s.linkOpen n (k.val % 12) = true →
      (4 < d.length → exec (.rspRx k st d) s = .next (s.countDiscard n (k.val % 12))) ∧
      (d.length ≤ 4 → (s.link k).version = none → st.val = 0 → d.length = 2 → exec (.rspRx k st d) s = .next
        (s.versionRead n (k.val % 12) (d.getD 0 0).toNat (d.getD 1 0).toNat)) ∧
      (d.length ≤ 4 → (s.link k).version ≠ none → s.flag g GLK.REQ_CTL_GO = true → pos = k.val % 12 →
        (st.val ≠ 0 ∨ s.flag g GLK.REQ_CTL_WR = true → exec (.rspRx k st d) s = .next (s.reqDone n st)) ∧
        (st.val = 0 → s.flag g GLK.REQ_CTL_WR = false → d.length = 4 → (s.rod n).start ≠ some .idRead →
          ∃ t, exec (.rspRx k st d) s = .next t ∧ t.reg g GLK.REQ_DATA = ofLE (d.map BitVec.toNat) ∧
            t.flag g GLK.REQ_CTL_GO = false ∧ t.reg g GLK.RSP = 2 ^ 31 ∧ t.bit g PG.EV_STAT 19 = true ∧ SameMem s t)) ∧
      (d.length ≤ 4 → (s.link k).version ≠ none → s.idBusy n = true → s.idPos n = k.val % 12 →
        exec (.rspRx k st d) s = .next (s.idTake n st (d.map BitVec.toNat))))

/-- R52, R57, R158: the commands of PROT.CMD, each with its bit alone.  TRIP is the fault cause SW; STOP a descent cause,
refused with STATE in OFF and FAULT; CLEAR leaves FAULT when its conditions hold; CLR_LOCKOUT clears LOCKOUT; START and
RUN begin when no reason refuses, are refused with the one reason there is, and while the rod shuts down with BUSY. -/
def Claims.RodCommands : Prop :=
  ∀ (w : Writer) (n : Fin 24) (s : State),
    let p := pPROT n
    let refused (c : Nat) : State := ((s.deny n c).countRefused w p .writeRefused).answer w .writeRefused
    let busy := ((s.err p 2).countRefused w p .busy).answer w .busy
    s.mayAct w p →
    exec (.swTrip w n) s = .next ((s.faultCause n [fcSW]).answer w .ok) ∧
    (s.rodSt n ≠ stOFF → s.rodSt n ≠ stFAULT →
      exec (.rodStop w n) s = .next ((s.descentCause n dcSTOP).answer w .ok)) ∧
    ((s.rodSt n = stOFF ∨ s.rodSt n = stFAULT) → exec (.rodStop w n) s = .next (refused 10)) ∧
    (s.rodSt n = stFAULT → s.clearOk n = true → exec (.rodClear w n) s = .next ((s.clearRod n).answer w .ok)) ∧
    (s.rodSt n = stFAULT → s.clearOk n = false → exec (.rodClear w n) s = .next (refused 7)) ∧
    (s.rodSt n ≠ stFAULT → exec (.rodClear w n) s = .next (refused 10)) ∧
    exec (.clrLockout w n) s = .next
      (((s.set p PROT.STATUS_LOCKOUT 0).set p PROT.STATUS_PC_SHORTS 0).answer w .ok) ∧
    (shuttingSt (s.rodSt n) = false →
      (s.startReasons n = [] → exec (.rodStart w n) s = .next ((s.startRod n).answer w .ok)) ∧
      (∀ c, s.startReasons n = [c] → exec (.rodStart w n) s = .next (refused c)) ∧
      (s.runReasons n = [] → exec (.rodRun w n) s = .next ((s.runRod n).answer w .ok)) ∧
      (∀ c, s.runReasons n = [c] → exec (.rodRun w n) s = .next (refused c))) ∧
    (shuttingSt (s.rodSt n) = true →
      exec (.rodStart w n) s = .next busy ∧ exec (.rodRun w n) s = .next busy)

/-- R149 to R152, R160, R164, R165, R413: the way of a rod from OFF to RUN, each check where it passes and where it
fails. -/
def Claims.RodStartSequence : Prop :=
  ∀ (n : Fin 24) (s : State),
    let p := pPROT n
    let v0 : Int := (s.rod n).vs0
    let tested := (s.enabledPos n).all (fun q => (s.link (n * 12 + q)).testHb)
    ((s.rod n).start = some .pathTest → tested = false → exec (.tripPathTest n) s = .next
      (((s.set pSAFE (SAFE.MON_STAT_TEST_FAIL n) 1).err pSAFE 22).startFails n 4)) ∧
    ((s.rod n).start = some .pathTest → tested = true →
      ∃ t, exec (.tripPathTest n) s = .next (if s.flag (pGLK n) GLK.REQ_CTL_GO then t else t.idReq n 1) ∧
        t.flag pSAFE (SAFE.MON_STAT_TEST_OK n) = true ∧
        t.flag pSAFE (SAFE.MON_STAT_TEST_FAIL n) = false ∧ t.flag pSAFE (SAFE.MON_STAT_TEST_DUE n) = false ∧
        (t.rod n).start = some .idRead ∧ t.rodStep n = spIDREAD ∧ SameMem s t ∧
        SameRegs s t [(pSAFE, SAFE.MON_STAT n), (p, PROT.STATUS)]) ∧
    ((s.rod n).start = some .idRead → (s.rod n).idGot.length = 3 → s.dev = dvRUN →
      let l := (s.rod n).idGot
      let t := (List.range 3).foldl (fun (t : State) m => t.moduleChange n m (modId (l.getD m []))) s
      (l.all idOk = true → exec (.idReadDone n) s = .next
        ((t.setRod n { t.rod n with start := some .clear, idGot := [] }).sendClears n)) ∧
      (l.all idOk = false → exec (.idReadDone n) s = .next (s.idFails n))) ∧
    ((s.rod n).start = some .clear →
      (s.enabledPos n).any (fun q => (s.hbStat n q).testBit hbTRIPPED) = true →
      exec (.drvTrippedTimeout n) s = .next (s.startFails n 4)) ∧
    (s.rodSt n = stPRECHARGE → s.rodStep n = spPCCHARGE → 0 < v0 →
      let ratio := (clampI 0 1023 (s.vdc n * 1000 / v0)).toNat
      let hi : Int := orFull (s.get p PROT.PC_CFG_PC_HI1) 85
      let min3 : Int := orFull (s.get p PROT.PC_CFG_PC_MIN3) 90
      let l1 := s.set p ⟨PROT.PC_LOG, 9, 0⟩ ratio
      let l3 := s.set p ⟨PROT.PC_LOG, 25, 16⟩ ratio
      (s.vdc n * 100 < 40 * v0 → exec (.precharge1tau n) s = .next (l1.prechargeShort n)) ∧
      (40 * v0 ≤ s.vdc n * 100 → s.vdc n * 100 ≤ hi * v0 → exec (.precharge1tau n) s = .next l1) ∧
      (40 * v0 ≤ s.vdc n * 100 → hi * v0 < s.vdc n * 100 →
        exec (.precharge1tau n) s = .next (l1.faultCause n [fcPCFAST])) ∧
      (min3 * v0 ≤ s.vdc n * 100 →
        exec (.precharge3tau n) s = .next ((l3.setCont n true).setStep n spCONTCLOSE)) ∧
      (s.vdc n * 100 < min3 * v0 → exec (.precharge3tau n) s = .next (l3.faultCause n [fcPCSLOW]))) ∧
    exec (.holdoffEnd n) s = .next (s.set p PROT.STATUS_HOLDOFF 0) ∧
    (s.rodSt n = stREADY → s.rodStep n = spDIAG →
      let x := s.rod n
      let v := x.diagV ++ (List.range 3).map (s.diagAvg n) ++ [s.vdc n]
      let res := s.diagFind n v
      let t := ((s.setRod n { x with diagStep := 0, diagV := [] }).setTestSrc n none).setReg p PROT.DIAG_RES res
      (x.diagStep < 4 → exec (.diagStepEnd n) s = .next
        ((s.setRod n { x with diagStep := x.diagStep + 1, diagV := v, diagAt := s.beam.t
                              diagSum := [(0, 0), (0, 0), (0, 0)] }).setTestSrc n (diagSource (x.diagStep + 1)))) ∧
      (4 ≤ x.diagStep → res = 0 → exec (.diagStepEnd n) s = .next (t.energiseSide n)) ∧
      (4 ≤ x.diagStep → res ≠ 0 → exec (.diagStepEnd n) s = .next (t.faultCause n [fcDIAG]))) ∧
    (s.rodSt n = stREADY → s.rodStep n = spENERGISE → s.fineLock = true →
      (s.enabledPos n).all (fun q => s.flag (pGLK n) (GLK.LSTAT_TIME_OK q)) = true →
      ∃ t, exec (.energiseDone n) s = .next t ∧ t.rodSt n = stRUN ∧ t.rodStep n = spNONE ∧
        (t.rod n).tripped = false ∧ t.reg (pROD n) ROD.STALE_RUN = 0 ∧ SameMem s t)

/-- The parts above: RodCommands, RodStartSequence. -/
def Obligations.RodOperation : Prop :=
  Claims.RodCommands ∧ Claims.RodStartSequence

/-- R140 to R146, R149, R151, R155, R157, R167, R169: detectors against their thresholds, filters, bands and blanking
windows, feedback, voltages and the limits of a rod's states. -/
def Obligations.RodDetectors : Prop :=
  ∀ (n : Fin 24) (s : State),
    let p := pPROT n
    (∀ (k : Fin 16) v since, s.cmpOver n k v since = true → s.cmpMasked n k = false →
      exec (.comparatorFire n k v since) s = .next (s.detectorsFire n [(k.val, decide (s.cmpHi n k < v))] [])) ∧
    (∀ (k : Fin 16) v since, s.cmpOver n k v since = false ∨ s.cmpMasked n k = true →
      exec (.comparatorFire n k v since) s = .next s) ∧
    (∀ (k : Fin 19) v, k.val < 16 → s.cmpInside n k v = true → (s.rod n).fired.testBit k = true →
      exec (.comparatorRearm n k v) s = .next (s.setRod n { s.rod n with fired := (s.rod n).fired - 2 ^ k.val })) ∧
    (∀ (k : Fin 19) v, 16 ≤ k.val → s.didtOver n v = false → (s.rod n).didt.testBit (k - 16) = true →
      exec (.comparatorRearm n k v) s = .next (s.setRod n { s.rod n with didt := (s.rod n).didt - 2 ^ (k.val - 16) })) ∧
    (∀ (k : Fin 19) v, (if k.val < 16 then s.cmpInside n k v = false else s.didtOver n v = true) →
      exec (.comparatorRearm n k v) s = .next s) ∧
    (∀ (x : Fin 3) v, s.didtOver n v = true → s.blanked n x = false →
      exec (.didtFire n x v) s = .next (s.detectorsFire n [] [x.val])) ∧
    (∀ (x : Fin 3) v, s.didtOver n v = false ∨ s.blanked n x = true → exec (.didtFire n x v) s = .next s) ∧
    (∀ (x : Fin 3) cmps v, (s.rod n).blanks = [] → (∀ c ∈ cmps, c.1.val < 9 ∧ c.1.val % 3 = x.val) →
      (∀ c ∈ cmps, s.cmpOver n c.1 c.2.1 c.2.2 = true) →
      exec (.blankClose n x cmps v) s = .next (s.detectorsFire n
        (cmps.map (fun c => (c.1.val, decide (s.cmpHi n c.1 < c.2.1)))) (if s.didtOver n v then [x.val] else []))) ∧
    (∀ b, s.rodSt n = stPRECHARGE → s.rodStep n = spCONTCLOSE →
      ∃ t, exec (.feedbackSample n true b) s = .next t ∧ t.rodSt n = stREADY ∧ t.rodStep n = spNONE ∧
        (t.rod n).prech = false ∧ t.get p PROT.STATUS_PC_SHORTS = 0 ∧ t.flag p PROT.STATUS_CONT_FBK = true) ∧
    (s.flag p PROT.STATUS_CONT_FBK ≠ (s.rod n).cont →
      exec (.feedbackTimeout n false) s = .next (s.faultCause n [fcCONT])) ∧
    (s.flag p PROT.STATUS_CONT_FBK = (s.rod n).cont → exec (.feedbackTimeout n false) s = .next s) ∧
    (s.flag p PROT.CFG_BRK_EN = true → s.flag p PROT.STATUS_BRK_FBK ≠ (s.rod n).brk →
      exec (.feedbackTimeout n true) s = .next (s.faultCause n [fcBRK])) ∧
    (s.rodSt n = stDESCENT → exec (.descTimeout n) s = .next (s.faultCause n [fcDESCTMO])) ∧
    ((s.rod n).disch = true ∨ s.flag p PROT.STATUS_DIS_ABANDON = true → s.dcSafe n = false →
      exec (.disLimExpire n) s = .next ((s.err p 21).faultCause n [fcDIS])) ∧
    (s.dcSafe n = true → exec (.disLimExpire n) s = .next s) ∧
    ((s.rod n).disch = true → exec (.disStopExpire n) s = .next
      ((s.setDisch n false).set p PROT.STATUS_DIS_ABANDON 1)) ∧
    (∀ meas, meas = (s.setReg p PROT.MEAS (encSat 16 (s.vs n) * 65536 + encSat 16 (s.vdc n))).setB p
        PROT.STATUS_DC_LIVE (!s.dcSafe n) →
      (s.rodSt n = stRUN → exec (.voltageEval n) s = .next meas) ∧
      (s.rodSt n = stDISCHARGE → s.dcSafe n = true → exec (.voltageEval n) s = .next (meas.enterOff n)) ∧
      (s.rodSt n = stPRECHARGE → s.vs n * 2 < ((s.rod n).vs0 : Int) → exec (.voltageEval n) s = .next
        ((meas.err p 20).faultCause n [fcSTRING]))) ∧
    exec (.rainflowTick n) s = .next (((s.rfTake n 0).rfTake n 1).rfTake n 2) ∧
    exec (.lifeSnap n) s = .next (s.ev p 21)

/-- R145, R146, R149: a fault cause takes a rod that is not in FAULT there: the causes are added, FIRST holds the lowest
one's code, the trip path has fired, contactor, precharge and breaker are commanded off and discharge on. -/
def Obligations.RodFaultEntry : Prop :=
  ∀ (n : Fin 24) (s : State) (bits : List Nat) (low : Nat), (∀ b ∈ bits, b < 32) → bits.min? = some low →
    s.rodSt n ≠ stFAULT →
    let t := s.faultCause n bits
    t.rodSt n = stFAULT ∧ t.rodStep n = spNONE ∧ t.reg (pPROT n) PROT.FIRST = low + 1 ∧
      t.reg (pPROT n) PROT.CAUSE = s.reg (pPROT n) PROT.CAUSE ||| maskOf bits ∧
      t.reg (pPROT n) PROT.FIRST_NS = s.ns ∧ (t.rod n).tripped = true ∧ (t.rod n).start = none ∧
      (t.rod n).cont = false ∧ (t.rod n).prech = false ∧ (t.rod n).brk = false ∧ (t.rod n).disch = true ∧
      t.bit (pPROT n) PG.EV_STAT 16 = true ∧ t.bit (pPROT n) PG.EV_STAT 17 = true

/-- R149, R156: a descent cause by the rod's state: RUN goes to DESCENT with the cause and its class, PRECHARGE to
DISCHARGE, READY to GATES_OFF or DISCHARGE by its breaker; in DESCENT a cause with SPD replaces STOP; OFF, GATES_OFF, DISCHARGE and FAULT stay. -/
def Obligations.RodDescent : Prop :=
  ∀ (n : Fin 24) (s : State) (c : Nat), 0 < c → c < 16 →
    let t := s.descentCause n c
    (s.rodSt n = stRUN → t.rodSt n = stDESCENT ∧ t.get (pPROT n) PROT.STATUS_DESC_CAUSE = c ∧
      t.flag (pPROT n) PROT.STATUS_DESC_SPD = decide (c ≠ dcSTOP) ∧ (t.rod n).descAt = s.beam.t) ∧
    (s.rodSt n = stPRECHARGE → t.rodSt n = stDISCHARGE ∧ t.rodStep n = spCONTOPEN ∧ (t.rod n).prech = false) ∧
    (s.rodSt n = stDESCENT → s.get (pPROT n) PROT.STATUS_DESC_CAUSE = dcSTOP → c ≠ dcSTOP →
      t.rodSt n = stDESCENT ∧ t.get (pPROT n) PROT.STATUS_DESC_CAUSE = c ∧
        t.flag (pPROT n) PROT.STATUS_DESC_SPD = true) ∧
    (s.rodSt n = stDESCENT → (s.get (pPROT n) PROT.STATUS_DESC_CAUSE ≠ dcSTOP ∨ c = dcSTOP) → t = s) ∧
    (s.rodSt n = stREADY → (s.rod n).brk = true → t.rodSt n = stGATESOFF ∧ (t.rod n).brk = false) ∧
    (s.rodSt n = stREADY → (s.rod n).brk = false → t.rodSt n = stDISCHARGE ∧ (t.rod n).cont = false) ∧
    (s.rodSt n = stOFF ∨ s.rodSt n = stGATESOFF ∨ s.rodSt n = stDISCHARGE ∨ s.rodSt n = stFAULT → t = s)

/-! ## Acquisition (spec/07) -/

/-- R172, R177 to R182: a due event of a source is a trigger, which the waiting entry takes or which becomes pending; a
write of SWTRIG triggers the sources it names; urgent requests queue or are refused; the next conversion starts once its
instant has come, an urgent one ahead of a sequencer's that is not due before it; entries in force are not written. -/
def Claims.AcqConversions : Prop :=
  ∀ (w : Writer) (k : Fin 4) (c : Fin 12) (s : State),
    let p := pACQ k
    let x := s.conv k c
    let due := (s.seqInstant k c).map (fun e => max (max e.1 e.2) x.free)
    let refused (t : State) : State := (t.countRefused w p .writeRefused).answer w .writeRefused
    (∀ (j : Fin 2) e, (s.trigEvents k c j).find? (fun e => decide (x.since j ≤ e.1 ∧ e.1 ≤ s.beam.t)) = some e →
      exec (.acqTrigger k c j) s = .next ((s.setConv k c (x.setSince j (e.1 + 1))).trigger k c
        ⟨j, gridAt e.1 + s.trigDly k c j, gridAt e.2⟩)) ∧
    (∀ j : Fin 2, (s.trigEvents k c j).find? (fun e => decide (x.since j ≤ e.1 ∧ e.1 ≤ s.beam.t)) = none →
      exec (.acqTrigger k c j) s = .next s) ∧
    (∀ e : TrigAt, s.seqEn k c = true →
      (s.seqWaits k c = true → waitTakes (s.seqWait k c x.pos) e.src = true →
        s.trigger k c e = (s.setConv k c { x with ref := some e }).showConv k c) ∧
      (s.seqWaits k c = false → x.pend = [] →
        s.trigger k c e = (s.setConv k c { x with pend := [e] }).showPend k c)) ∧
    (s.mayAct w p → exec (.softwareTrigger w k 0) s = .next (s.answer w .ok)) ∧
    (s.mayAct w p → s.trigSrc k c 0 = 5 → s.trigSrc k c 1 ≠ 5 → exec (.softwareTrigger w k (wordOf (2 ^ c.val))) s = .next
      ((s.trigger k c ⟨0, gridAt s.beam.t + s.trigDly k c 0, 0⟩).answer w .ok)) ∧
    (∀ v : Word, s.mayAct w p →
      (v.getLsbD 31 = false → exec (.urgentRequest w k c v) s = .next (s.answer w .ok)) ∧
      (v.getLsbD 31 = true → 12 ≤ bitsOf v.toNat 11 8 → exec (.urgentRequest w k c v) s = .next
        (refused (s.err p 17))) ∧
      (v.getLsbD 31 = true → bitsOf v.toNat 11 8 < 12 → 4 ≤ x.urg.length →
        exec (.urgentRequest w k c v) s = .next (refused (s.urgRefused k c))) ∧
      (v.getLsbD 31 = true → bitsOf v.toNat 11 8 < 12 → x.urg.length < 4 → exec (.urgentRequest w k c v) s = .next
        (((s.setReg p (ACQ.URG c) (v.toNat % 2 ^ 25 - bitsOf v.toNat 19 12 * 2 ^ 12)).enqueue k c
          ⟨bitsOf v.toNat 11 8, orFull (bitsOf v.toNat 24 20) 32, v.toNat % 256, false, s.gridNow⟩).answer w .ok))) ∧
    ((x.cur ≠ none ∨ x.ready = false) → exec (.seqConversion k c) s = .next s) ∧
    (x.cur = none → x.ready = true →
      (∀ u r, x.urg = u :: r → due.any (fun t => decide (t < u.t)) = false →
        (s.gridNow < max x.free u.t → exec (.seqConversion k c) s = .next s) ∧
        (max x.free u.t ≤ s.gridNow → exec (.seqConversion k c) s = .next
          (((s.setConv k c { x with urg := r }).startConv k c (max x.free u.t) 0
            { urgent := true, input := u.input, avg := u.avg, slot := u.slot }).showConv k c))) ∧
      (∀ u r e, x.urg = u :: r → s.seqInstant k c = some e → due.any (fun t => decide (t < u.t)) = true →
        exec (.seqConversion k c) s = .next ((s.startConv k c e.1 e.2 (s.seqConv k c)).showConv k c)) ∧
      (∀ e, x.urg = [] → s.seqInstant k c = some e →
        (s.gridNow < max (max e.1 e.2) x.free → exec (.seqConversion k c) s = .next s) ∧
        (max (max e.1 e.2) x.free ≤ s.gridNow →
          exec (.seqConversion k c) s = .next ((s.startConv k c e.1 e.2 (s.seqConv k c)).showConv k c))) ∧
      (x.urg = [] → s.seqInstant k c = none → exec (.seqConversion k c) s = .next (s.seqSettle k c))) ∧
    (∀ (t least : Nat) (v : Conv), let u := max t (max x.free least)
      let y := (s.startConv k c t least v).conv k c
      y.cur.map Conv.t = some u ∧ y.cur.map Conv.slip = some (decide (t < u)) ∧ y.free = u + v.avg * 320) ∧
    (∀ (e : Fin 64) (i : Fin 2) (v : Word), s.pageRests (seqWordAt k c e i).1 = false →
      (s.seqActive k c e = true → exec (.seqTableWrite w k c e i v) s = .next (refused (s.err p 16))) ∧
      (s.seqActive k c e = false → s.leasedByOther w p = false → exec (.seqTableWrite w k c e i v) s = .next
        ((s.setWord (seqWordAt k c e i).1 (seqWordAt k c e i).2
          (if i = 0 then v else v &&& wordOf 0xE1F0000F)).answer w .ok)))

/-- R173, R183, R184: a finished conversion writes its slot: SEQ one above the last, the mean of the samples with halves
towards +∞ or the saturation code of the first sample beyond the range, the flags and converter, and the instant. -/
def Claims.AcqResultSlot : Prop :=
  ∀ (k : Fin 4) (c : Fin 12) (s : State) (l : List Int) (v : Conv), v.slot < 256 →
    bitOf (s.filtReg k v.slot 0) 31 = false →
    let r := convResult (l.take v.avg)
    let u := v.t * 40
    ∃ t, s.convEnd k c l (some v) = (t, [v.slot]) ∧
      t.reg (pACQ k) (ACQ.SLOT_W0 v.slot) =
        (s.reg (pACQ k) (ACQ.SLOT_W0 v.slot) / 2 ^ 16 + 1) % 2 ^ 16 * 2 ^ 16 + enc 16 r.1 ∧
      t.reg (pACQ k) (ACQ.SLOT_W1 v.slot) = u / 256 % 1000000000 ∧
      t.reg (pACQ k) (ACQ.SLOT_W2 v.slot) = u % 256 * 2 ^ 24 +
        (b2n r.2 * 8 + b2n v.urgent * 4 + b2n v.slip * 2) * 2 ^ 20 + c * 2 ^ 16 + u / 256000000000 % 2 ^ 16 ∧
      (t.conv k c).cur = none ∧
      (∀ i, i < 256 → i ≠ v.slot → t.reg (pACQ k) (ACQ.SLOT_W0 i) = s.reg (pACQ k) (ACQ.SLOT_W0 i)) ∧ SameMem s t

/-- R173, R159: the result is the mean of in-range samples, halves towards +∞, and saturates else. -/
def Claims.AcqMean : Prop :=
  ∀ l : List Int, l ≠ [] →
    ((∀ x ∈ l, -32768 ≤ x ∧ x ≤ 32767) →
      let r := convResult l
      let n : Int := l.length
      r.2 = false ∧ 2 * n * r.1 ≤ 2 * l.foldl (· + ·) 0 + n ∧ 2 * l.foldl (· + ·) 0 + n < 2 * n * (r.1 + 1) ∧
        -32768 ≤ r.1 ∧ r.1 ≤ 32767) ∧
    (∀ a x b, l = a ++ x :: b → (∀ y ∈ a, -32768 ≤ y ∧ y ≤ 32767) → (x < -32768 ∨ 32767 < x) →
      convResult l = (if x < 0 then -32768 else 32767, true))

/-- The parts above: AcqConversions, AcqResultSlot, AcqMean. -/
def Obligations.Acquisition : Prop :=
  Claims.AcqConversions ∧ Claims.AcqResultSlot ∧ Claims.AcqMean

/-- R174, R175, R185, R194: conversions done, reference conversions where they delay no known instant, calibration that
starves, and converters and digitizers that wake. -/
def Claims.AcqPower : Prop :=
  ∀ (k : Fin 4) (c : Fin 12) (s : State),
    let x := s.conv k c
    (∀ l v, x.cur = some v → (c ≠ 0 ∨ s.injArmed (pACQ k) 1 = false) →
      let r := s.convEnd k c (l.take v.avg) (some v)
      let y := convResult (l.take v.avg)
      let t := ((r.1.alCheck k c v.input y.1 y.2).tallySlots k r.2).diagSlots k r.2
      exec (.conversionDone k c l) s = .next ((dieRods k).foldl (fun (t : State) n =>
        if r.2.contains (t.reg pCEA (CEA.TSLOT n) % 256) then t.eisSlot n (v.t * 40) else t) t)) ∧
    (∀ l, x.cur = none → exec (.conversionDone k c l) s = .next s) ∧
    (∀ i : Fin 4, s.calOn k = true → s.convAwake k c = true → x.ready = true → x.cur = none → x.urg = [] →
      s.calFits k c = true → x.slices.length = 4 →
      ∃ t, exec (.calConversion k c i) s = .next t ∧ t.bit (pFDC k) FDC.CAL_STAT (16 + c.val) = false ∧
        ((t.conv k c).slices.getD i {}).refs = min ((x.slices.getD i {}).refs + 1) 65536 ∧
        (t.conv k c).free = max x.free s.gridNow + 320 ∧
        SameRegs s t [(pFDC k, FDC.CAL_STAT)] ∧ SameMem s t) ∧
    (∀ i : Fin 4, (s.calOn k = false ∨ s.convAwake k c = false ∨ x.ready = false ∨ x.cur ≠ none ∨ x.urg ≠ [] ∨
      s.calFits k c = false) → exec (.calConversion k c i) s = .next s) ∧
    (s.convAwake k c = true → exec (.calStarved k c) s = .next
      (((s.setBit (pFDC k) FDC.CAL_STAT (16 + c.val) true).err (pFDC k) 17).ev (pFDC k) 16)) ∧
    (s.convAwake k c = false → exec (.calStarved k c) s = .next s) ∧
    (x.napping = true → exec (.converterWake k c) s = .next
      ((s.setConv k c { x with napping := false }).showConv k c)) ∧
    (x.napping = false → exec (.converterWake k c) s = .next s) ∧
    (s.convAwake k c = true → x.ready = false → exec (.converterReady k c) s = .next
      (s.setConv k c { x with ready := true, free := max x.free s.gridNow })) ∧
    ((s.convAwake k c = false ∨ x.ready = true) → exec (.converterReady k c) s = .next s) ∧
    (∀ d : Fin 2, let i := 2 * k.val + d.val
      let y := s.dig i
      (y.en = true → y.ready = false →
        (if y.timed then y.timeNs < 1000000000 ∧
            (y.timeNs * 256 + 256000000000 - s.beam.t % 256000000000) % 256000000000 ≤ 5120000
          else y.everyN ≤ y.count + 16) →
        exec (.digitizerWake k d) s = .next (s.setDig i { y with waking := true })) ∧
      ((y.en = false ∨ y.ready = true ∨ (y.timed = false ∧ y.count + 16 < y.everyN)) →
        exec (.digitizerWake k d) s = .next s) ∧
      (y.waking = true → exec (.digitizerReady k d) s = .next
        ((s.setDig i { y with ready := true, waking := false }).showDig k d)) ∧
      (y.waking = false → exec (.digitizerReady k d) s = .next s))

/-- R188 to R194: captures of the transient digitizers: the edge that matches waits for its window and then counts, as
BUSY where the digitizer is not ready; the timed capture, the end of one, its features and its copy to the APC ring. -/
def Claims.AcqCaptures : Prop :=
  ∀ (k : Fin 4) (d : Fin 2) (s : State),
    let p := pTDIG k
    let i := 2 * k.val + d.val
    let x := s.dig i
    let level := bitsOf x.ctl 27 26
    (∀ (r : Fin 6) (q : Fin 12) on t, x.en = true → x.timed = false → bitsOf x.ctl 25 23 = r.val →
      bitsOf x.ctl 22 19 = q.val → (level = 0 ∨ level = 3 ∨ (level = 1 ∧ on = true) ∨ (level = 2 ∧ on = false)) →
      x.waits = [] →
      let rec_ : CapRec := { edge := t * 40, rod := k.val * 6 + r.val, pos := q, level := if on then 1 else 2
                             input := bitsOf x.ctl 15 10, dig := d, count := 1000 + x.post * 1000
                             life := bitOf x.ctl 30 }
      (s.beam.t < rec_.start → exec (.digitizerEdge k d r q on t) s = .next (s.setDig i { x with waits := [rec_] })) ∧
      (rec_.start ≤ s.beam.t → x.ready = true → x.caps = [] → x.count < x.everyN →
        exec (.digitizerEdge k d r q on t) s = .next (s.setDig i { x with count := x.count + 1 })) ∧
      (rec_.start ≤ s.beam.t → x.ready = false → exec (.digitizerEdge k d r q on t) s = .next
        ((s.setDig i { x with count := x.count + 1 }).incF p (TDIG.TD_CNT_BUSY d)))) ∧
    (∀ (r : Fin 6) (q : Fin 12) on t, (x.en = false ∨ x.timed = true ∨ bitsOf x.ctl 25 23 ≠ r.val ∨
      bitsOf x.ctl 22 19 ≠ q.val) → exec (.digitizerEdge k d r q on t) s = .next s) ∧
    (∀ u, s.instantOf x.timeNs = some u → x.en = true → x.timed = true → x.caps = [] → x.armedAt < u →
      exec (.timedCaptureStart k d) s = .next ((s.setDig i { x with armedAt := u }).digStart k d
        { edge := u + 128000, timed := true, rod := k.val * 6 + bitsOf x.ctl 25 23
          pos := bitsOf x.ctl 22 19, input := bitsOf x.ctl 15 10, dig := d, count := 1000 + x.post * 1000
          life := bitOf x.ctl 30 }).1) ∧
    ((s.instantOf x.timeNs = none ∨ x.en = false ∨ x.timed = false) →
      exec (.timedCaptureStart k d) s = .next s) ∧
    (∀ r l, x.caps = [r] → ∃ t, exec (.captureEnd k d l) s = .next t ∧
      t.reg p TDIG.CAP_SEQ = (s.reg p TDIG.CAP_SEQ + 1) % 2 ^ 32 ∧
      t.capBuf k = s.capBuf k ++ [{ r with seq := s.reg p TDIG.CAP_SEQ, samples := l }] ∧
      (t.dig i).caps = [] ∧ SameMem s t) ∧
    (∀ l, x.caps = [] → exec (.captureEnd k d l) s = .next s) ∧
    (∀ r, s.capBuf k = [r] → r.done = false → r.dig = d.val → r.life = false →
      ∃ t, exec (.featureExtract k d) s = .next t ∧ (t.capBuf k).map CapRec.done = [true] ∧
        t.bit p PG.EV_STAT 16 = true ∧ SameMem s t) ∧
    (∀ r rest, s.capBuf k = r :: rest → r.done = true → s.flag p TDIG.DRAIN_CTL_EN = true →
      let size := s.reg p TDIG.DRAIN_SIZE % 65536 * 65536
      let base := s.get p ⟨TDIG.DRAIN_BASE_LO, 31, 16⟩ * 65536 + s.reg p TDIG.DRAIN_BASE_HI % 256 * 2 ^ 32
      let wr := s.reg p TDIG.DRAIN_WR
      wr + r.len ≤ size → (wr + size - s.reg p TDIG.DRAIN_RD) % size + r.len < size →
      exec (.drainRecord k) s = .next
        (((((s.setMemBytes (base + wr) []).setMemBytes (base + wr) r.bytes).setReg p TDIG.DRAIN_WR
          ((wr + r.len) % size)).setCapBuf k rest).ev p 17))

/-- The parts above: AcqPower, AcqCaptures. -/
def Obligations.PowerAndCaptures : Prop :=
  Claims.AcqPower ∧ Claims.AcqCaptures

/-! ## The inner loops (spec/10) -/

/-- R249, R252, R254, R269, R279: writes of the references, the angle set, the learner and the offset; CLR and the bins
are refused while the learner is enabled, M_OFS while the counter is the source, and M_OFS makes the offset valid only
while the loop is enabled in machine mode. -/
def Claims.LoopWrites : Prop :=
  ∀ (w : Writer) (n : Fin 24) (v : Word) (s : State),
    let p := pLOOP n
    let x := s.loop n
    let put (off : Nat) : State := s.setReg p off v.toNat
    let refused (b : Nat) : State := ((s.err p b).countRefused w p .writeRefused).answer w .writeRefused
    s.mayAct w p →
    exec (.irefDWrite w n v) s = .next (((put LOOP.IREF_D).setLoop n { x with irefD := v.toNat }).answer w .ok) ∧
    exec (.irefQWrite w n v) s = .next
      (((put LOOP.IREF_Q).setLoop n { x with pair := (x.irefD, v.toNat) }).answer w .ok) ∧
    exec (.angleStageWrite w n false v) s = .next
      (((put LOOP.THETA_NS).setLoop n { x with thNs := v.toNat }).answer w .ok) ∧
    exec (.angleStageWrite w n true v) s = .next (((put LOOP.OMEGA).setLoop n { x with om := v.toNat }).answer w .ok) ∧
    exec (.thetaWrite w n v) s = .next
      ((((put LOOP.THETA).setLoop n { x with set := (v.toNat, x.thNs, x.om), age := 0 }).set p LOOP.STAT_ANG_OLD
        0).answer w .ok) ∧
    (s.flag p LOOP.LRN_CTL_EN = false → ∃ t, exec (.lrnClr w n v) s = .next t ∧
      t.reg p LOOP.LRN_CTL = v.toNat % 4 ∧
      (∀ j : Fin 4, ∀ off, off < 4096 → t.word (0x820 + 4 * n.val + j.val) off = 0) ∧ SameMem s t) ∧
    (s.flag p LOOP.LRN_CTL_EN = true → exec (.lrnClr w n v) s = .next (refused 18)) ∧
    (∀ b : Fin 4096,
      (s.flag p LOOP.LRN_CTL_EN = false → exec (.learnerBinWrite w n b v) s = .next
        ((s.setWord (0x820 + 4 * n.val + b.val / 1024) (b.val % 1024 * 4) v).answer w .ok)) ∧
      (s.flag p LOOP.LRN_CTL_EN = true → exec (.learnerBinWrite w n b v) s = .next (refused 18))) ∧
    (s.get p LOOP.MSTAT_ASRC ≠ 4 → s.en p = true → s.machMode n = true → exec (.mOfsWrite w n v) s = .next
      (((put LOOP.M_OFS).set p LOOP.MSTAT_REF_OK 1).answer w .ok)) ∧
    (s.get p LOOP.MSTAT_ASRC ≠ 4 → (s.en p = false ∨ s.machMode n = false) → exec (.mOfsWrite w n v) s = .next
      ((put LOOP.M_OFS).answer w .ok)) ∧
    (s.get p LOOP.MSTAT_ASRC = 4 → exec (.mOfsWrite w n v) s = .next (refused 17))

/-- R244, R246, R248, R157, R113: the oldest pass mark is taken; while a run is in progress it is refused; a run that meets
a NaN changes nothing but the NaN flags; a descent whose end condition holds goes to GATES_OFF, and the modulator ends at
the update point after. -/
def Claims.LoopRuns : Prop :=
  ∀ (n : Fin 24) (s : State),
    let p := pLOOP n
    let x := s.loop n
    (∀ t0 r, x.marks = t0 :: r →
      let s1 := s.setLoop n { x with marks := r }
      exec (.loopRun n) s = .next (s1.loopMark n t0) ∧
      (x.run ≠ none → exec (.loopRun n) s = .next
        ((((s1.incSat p LOOP.SKIP_CNT).set p LOOP.STAT_SKIPPED 1).err p 19).ev p 17))) ∧
    (x.marks = [] → exec (.loopRun n) s = .next s) ∧
    (∀ q, x.run = some q →
      let s1 := (((s.setLoop n { x with run := none }).set p LOOP.STAT_RUNNING 0).setLp n LOOP.RUN_TIME
        (min ((s.beam.t - q.t0) / 256) 4095)).ev p 16
      (∀ t, s1.runBody n q = some t → exec (.loopRunComplete n) s = .next ((t.set p LOOP.STAT_NAN 0).eisAfterRun n)) ∧
      (s1.runBody n q = none → exec (.loopRunComplete n) s = .next
        ((((s1.incSat p LOOP.NAN_CNT).set p LOOP.STAT_NAN 1).err p 21).eisAfterRun n))) ∧
    (x.run = none → exec (.loopRunComplete n) s = .next s) ∧
    (s.rodSt n = stDESCENT → s.descentOver n = true →
      let t := s.enterGatesOff n
      exec (.descentEnd n) s = .next (t.setRod n { t.rod n with modEnd := some (t.updateAfter n) })) ∧
    ((s.rodSt n ≠ stDESCENT ∨ s.descentOver n = false) → exec (.descentEnd n) s = .next s)

/-- The parts above: LoopWrites, LoopRuns. -/
def Obligations.Loops : Prop :=
  Claims.LoopWrites ∧ Claims.LoopRuns

/-! ## The cell estimator and the impedance runs (spec/13) -/

/-- R308 to R310, R317: a round falls due at each whole multiple of its period: it starts, or is skipped while the one
before runs, and nothing happens where none is due; its start applies the cell commands that wait and closes the window;
its end updates the cells and the rods, counts, and ends a disabling; cell commands wait for a round. -/
def Claims.CellEstimator : Prop :=
  ∀ (w : Writer) (s : State),
    let at_ := s.beam.t / s.roundPer * s.roundPer
    let x := s.cea
    ((s.en pCEA = false ∨ dvREST ≤ s.dev ∨ at_ = x.due) → exec .estimatorRound s = .next s) ∧
    (s.en pCEA = true → s.dev < dvREST → at_ ≠ x.due →
      (x.running ≠ none → exec .estimatorRound s = .next
        (((s.setCea { x with due := at_ }).incSat pCEA CEA.OVR_CNT).ev pCEA 17)) ∧
      (x.running = none → exec .estimatorRound s = .next ((s.setCea { x with due := at_ }).roundStart at_) ∧
        (∀ t, t = (s.setCea { x with due := at_ }).roundStart at_ → t.cea.cmds = [] ∧ t.cea.running = some at_ ∧
          t.cea.from_ = x.prev ∧ t.cea.prev = at_ ∧ t.cea.rounds = x.rounds + 1 ∧ t.cea.due = at_ ∧
          t.reg pCEA CEA.ROUND_NS = at_ / 256 % 1000000000 ∧
          (∀ r, r < 24 → (t.tally r).winQ = 0 ∧ (t.tally r).winT = 0 ∧
            t.cea.winQ.getD r 0 = (if x.rested then 0 else (s.tally r).winQ) ∧
            t.cea.winT.getD r 0 = (s.tally r).winT ∧ (t.tally r).chgIn = (s.tally r).chgIn ∧
            (t.tally r).chgOut = (s.tally r).chgOut ∧ (t.tally r).energy = (s.tally r).energy) ∧
          (x.cmds = [] → t.cells = s.cells) ∧ SameRegs s t [(pCEA, CEA.ROUND_NS)] ∧ SameMem s t))) ∧
    (x.running = none → exec .roundComplete s = .next s) ∧
    (∀ start, x.running = some start →
      let cells := allRods.flatMap s.rodCells
      let s1 := cells.foldl (fun t c => t.updateCell start c) (s.setCea { x with running := none })
      let s2 := allRods.foldl State.rodRound s1
      let n (b : Nat) : Nat := min (cells.filter (fun c => (s2.cell c).flag b)).length 65535
      let s3 := ((((s2.setReg pCEA CEA.CELL_CNT (n 2 * 65536 + n 1)).set pCEA ⟨CEA.STAT, 7, 0⟩ s2.cea.rounds).setReg pCEA
        CEA.ROUND_TIME (min ((s2.beam.t - start) / 256000) 65535)).ev pCEA 16)
      let s4 := if s3.flag pCEA CEA.CTL_SNAP_EN then s3.snapshot cells else s3
      (s4.en pCEA = true → exec .roundComplete s = .next (s4.writeWeights false)) ∧
      (s4.en pCEA = false → s4.flag pCEA PG.STAT_SHUTTING = true → exec .roundComplete s = .next
        ((s4.set pCEA PG.STAT_SHUTTING 0).ev pCEA 4)) ∧
      (s4.en pCEA = false → s4.flag pCEA PG.STAT_SHUTTING = false → exec .roundComplete s = .next s4)) ∧
    (s.mayAct w pCEA →
      let put (op : Nat) : State := s.setCea { x with cmds := x.cmds ++
        [⟨s.reg pCEA CEA.CELL_SEL % 65536, op, s.reg pCEA CEA.CELL_INIT0 % 65536,
          s.reg pCEA CEA.CELL_INIT0 / 65536, s.reg pCEA CEA.CELL_INIT1 % 65536⟩] }
      exec (.cellLoad w) s = .next ((put 0).answer w .ok) ∧ exec (.cellReset w) s = .next ((put 1).answer w .ok) ∧
      exec (.cellExclude w) s = .next ((put 2).answer w .ok) ∧
      exec (.cellInclude w) s = .next ((put 3).answer w .ok))

/-- R313 to R315: a request makes rods due; the ready rod with the earliest last run, the lowest of equals, plans a run to
a start at a whole 100 ms from 200 ms ahead; a run goes through its states at its times, and is aborted where modules have
not acknowledged, where results are missing, and where its rod has stopped being idle. -/
def Claims.ImpedanceRuns : Prop :=
  ∀ (w : Writer) (r : Fin 24) (s : State),
    let x := s.eisX r
    (s.mayAct w pEIS → exec (.eisReq w (wordOf (2 ^ r.val))) s = .next
      ((s.setEisX r { x with due := true }).answer w .ok)) ∧
    (s.en pEIS = true → s.eisReady r = true → (∀ q, q < 24 → s.eisSt q = esIDLE) →
      (∀ q, q < 24 → s.eisReady q = true → s.reg pEIS (EIS.LAST_SEC r) < s.reg pEIS (EIS.LAST_SEC q) ∨
        (s.reg pEIS (EIS.LAST_SEC r) = s.reg pEIS (EIS.LAST_SEC q) ∧ r.val ≤ q)) →
      s.rodMods r = [] → ∃ t, exec (.eisStart r) s = .next t ∧ t.eisSt r = esPLAN ∧
        (t.eisX r).run = (if x.run = 65535 then 1 else x.run + 1) ∧ (t.eisX r).t0 % 100000000 = 0 ∧
        s.beam.t / 256 + 200000000 ≤ (t.eisX r).t0 ∧ (t.eisX r).t0 < s.beam.t / 256 + 300000000 ∧
        (t.eisX r).why = 0 ∧ (t.eisX r).acks = [] ∧ (∀ q, q < 24 → q ≠ r → t.eisX q = s.eisX q) ∧
        SameRegs s t [(pEIS, EIS.RSTAT r), (pEIS, EIS.STAT)] ∧ SameMem s t) ∧
    ((s.en pEIS = false ∨ s.eisReady r = false) → exec (.eisStart r) s = .next s) ∧
    (x.why = 0 → s.eisSt r = esPLAN →
      (s.beam.t < x.t0 * 256 - 50 * unitsMs → exec (.eisPlanDeadline r) s = .next s) ∧
      (x.t0 * 256 - 50 * unitsMs ≤ s.beam.t →
        ((s.rodMods r).all (fun m => x.acks.contains m) = true →
          exec (.eisPlanDeadline r) s = .next (s.setEisSt r esSETTLE)) ∧
        ((s.rodMods r).all (fun m => x.acks.contains m) = false →
          exec (.eisPlanDeadline r) s = .next (s.eisAbort r 4 false)))) ∧
    (x.why = 0 → s.eisSt r = esSETTLE →
      (s.beam.t < x.t0 * 256 → exec (.eisInjectStart r) s = .next s) ∧
      (x.t0 * 256 ≤ s.beam.t → exec (.eisInjectStart r) s = .next (s.setEisX r { x with inj := true })) ∧
      (s.beam.t < x.t0 * 256 + eisPeriod → exec (.eisMeasureStart r) s = .next s) ∧
      (x.t0 * 256 + eisPeriod ≤ s.beam.t → exec (.eisMeasureStart r) s = .next (s.setEisSt r esMEASURE))) ∧
    (x.why = 0 → s.eisSt r = esMEASURE →
      (s.beam.t < x.t0 * 256 + (1 + s.eisNper) * eisPeriod → exec (.eisMeasureEnd r) s = .next s) ∧
      (x.t0 * 256 + (1 + s.eisNper) * eisPeriod ≤ s.beam.t →
        exec (.eisMeasureEnd r) s = .next
          ((s.setEisX r { x with inj := false, off := true }).setEisSt r esCOLLECT))) ∧
    (x.why ≠ 0 →
      (s.eisSt r = esPLAN → exec (.eisPlanDeadline r) s = .next
        (s.eisAbort r x.why true)) ∧
      (s.eisSt r = esSETTLE →
        exec (.eisInjectStart r) s = .next (s.eisAbort r x.why true) ∧
        exec (.eisMeasureStart r) s = .next (s.eisAbort r x.why true)) ∧
      (s.eisSt r = esMEASURE →
        exec (.eisMeasureEnd r) s = .next (s.eisAbort r x.why true))) ∧
    (s.eisSt r = esCOLLECT →
      (s.beam.t < x.t0 * 256 + (1 + s.eisNper) * eisPeriod + 5000 * unitsMs →
        exec (.eisCollectTimeout r) s = .next s) ∧
      (x.t0 * 256 + (1 + s.eisNper) * eisPeriod + 5000 * unitsMs ≤ s.beam.t →
        exec (.eisCollectTimeout r) s = .next (s.eisAbort r 5 false)))

/-- R213, R216, R317, R52: EN = 1 starts a stopped reckoner at its entry in column c0 with no trap vector, and clears
RESTARTED; it is refused of a reckoner in FATAL, of RECK[31] while rotation is on or the spare is in use, and while the
reckoner shuts down; EN = 0 begins to stop one that runs; EN = 1 enables the estimator. -/
def Claims.BlockEnables : Prop :=
  ∀ (w : Writer) (k : Fin 32) (s : State), s.dom .rd = .active →
    let p := pRECK k
    let quiet (p : Nat) : Prop := s.leasedByOther w p = false ∧ (s.pg p).enWait = none ∧
      s.get p PG.CTL_PWR_REQ = 0 ∧ s.get p PG.CTL_DISCARD = 0 ∧
      s.get p PG.CTL_LEASE_REQ = 0 ∧ s.get p PG.CTL_LEASE_REL = 0
    let spare : Prop := k.val = 31 ∧ (s.rotation = true ∨ s.flag p RECK.STATUS_SPARE = true)
    let calm (p : Nat) : Prop := s.flag p PG.STAT_SHUTTING = false
    (quiet p → calm p → s.rkSt k = rkSTOPPED → ¬ spare → k.val < s.bist.cores → s.bist.slot = none →
      (s.vsm k).whole = false → ∃ t, exec (.reckEnable w k) s = .next t ∧ t.en p = true ∧
        t.rkSt k = rkRUN ∧ t.flag p PG.STAT_ENABLED = true ∧ t.flag p RECK.STATUS_RESTARTED = false ∧
        (t.reckX k).pc = s.get p ⟨RECK.ENTRY, 15, 2⟩ * 4 ∧ (t.reckX k).ccp = 0 ∧ (t.reckX k).occ = 1 ∧
        (t.reckX k).flags = 0 ∧ (t.reckX k).tvec = 0 ∧ (t.reckX k).w = (s.reckX k).w ∧ SameMem s t) ∧
    (quiet p → calm p → s.rkSt k = rkFATAL → exec (.reckEnable w k) s = .next
      (((s.err p 18).countRefused w p .writeRefused).answer w .writeRefused)) ∧
    (quiet p → calm p → s.rkSt k ≠ rkFATAL → (spare ∨ s.bist.cores ≤ k.val) → exec (.reckEnable w k) s = .next
      (((s.err p 20).countRefused w p .writeRefused).answer w .writeRefused)) ∧
    (quiet p → s.flag p PG.STAT_SHUTTING = true → exec (.reckEnable w k) s = .next
      (((s.err p 2).countRefused w p .busy).answer w .busy)) ∧
    (quiet p → s.rkSt k = rkRUN → ∃ t, exec (.reckDisable w k) s = .next t ∧ t.en p = false ∧
      t.flag p PG.STAT_SHUTTING = true ∧ t.flag p PG.STAT_ENABLED = false ∧ t.rkSt k = rkRUN ∧
      t.flag p RECK.STATUS_RESTARTED = false ∧ SameMem s t) ∧
    (quiet pCEA → calm pCEA → s.en pCEA = false → s.bufBad pCEA = false → ∃ t, exec (.ceaEnable w) s = .next t ∧
      t.en pCEA = true ∧ t.flag pCEA PG.STAT_ENABLED = true ∧ SameMem s t)

/-- The parts above: CellEstimator, ImpedanceRuns, BlockEnables. -/
def Obligations.CellsAndImpedance : Prop :=
  Claims.CellEstimator ∧ Claims.ImpedanceRuns ∧ Claims.BlockEnables

/-! ## Beads (spec/12) -/

/-- R282, R289, R291, R292: the device's lease: a renewal at the 100 ms point, where none is outstanding, and its repeats;
an answer, by its code; the ramp before the expiry, the lapse at it and the end of a lapsed lease; before its time, or in
another state, none of them happens. -/
def Claims.BeadLease : Prop :=
  ∀ (s : State),
    let x := s.bead
    let unit_ := 50 * unitsMs
    (x.out = none → (s.lstate = lsHELD ∨ s.lstate = lsRAMP) → s.dev ≠ dvDEEP →
      exec .renewSend s = .next s.renewNew) ∧
    (x.out = none → s.lstate = lsNONE → s.en pBEADS = true → s.fineLock = true → s.homesSet = true → s.dev ≠ dvDEEP →
      exec .renewSend s = .next ((s.setLstate lsREQUEST).setBead { x with next := 1, out := none }).renewNew) ∧
    (x.out ≠ none → s.lstate ≠ lsNONE → exec .renewSend s = .next s) ∧
    (∀ o, x.out = some o → exec .renewRetry s = .next
      ((s.incSat pBEADS BEADS.RETRY_CNT).renewTransmit { o with tries := o.tries + 1 })) ∧
    (x.out = none → exec .renewRetry s = .next s ∧ ∀ (src : Fin 4096) m, exec (.beadAckRx src m) s = .next s) ∧
    (∀ (src : Fin 4096) o m, x.out = some o → m.rseq = o.rseq → x.epoch ≤ m.hepoch →
      let z := (s.setBead { x with epoch := m.hepoch, out := none }).set pBEADS BEADS.DEV_STAT_WAIT_ACK 0
      let y := if src.val = s.homeAddr false then z.set pBEADS BEADS.DEV_STAT_HOME_ALT 0
        else if src.val = s.homeAddr true then z.set pBEADS BEADS.DEV_STAT_HOME_ALT 1 else z
      (m.code = 0 → s.lstate ≠ lsRAMP → exec (.beadAckRx src m) s = .next (y.ackTake m)) ∧
      (m.code = 5 → s.lstate = lsHELD → exec (.beadAckRx src m) s = .next (y.ackTake m)) ∧
      ((m.code = 0 ∨ m.code = 5) → s.lstate = lsRAMP → exec (.beadAckRx src m) s = .next
        ((y.setBead { y.bead with restore := some ((y.beam.t : Int) - s.rampNum) }).ackTake m)) ∧
      (m.code = 1 → (y.lstate = lsHELD ∨ y.lstate = lsRAMP) → exec (.beadAckRx src m) s = .next y.leaseLapse) ∧
      ((m.code = 3 ∨ m.code = 4) → y.lstate = lsREQUEST → exec (.beadAckRx src m) s = .next
        (y.incSat pBEADS BEADS.REFUSE_CNT).beadQuiet) ∧
      (m.code = 2 → exec (.beadAckRx src m) s = .next
        ((s.incSat pBEADS BEADS.RETRY_CNT).renewTransmit { o with alt := !o.toAlt, tries := 0 }))) ∧
    (∀ (src : Fin 4096) o m, x.out = some o → (m.rseq ≠ o.rseq ∨ m.hepoch < x.epoch) →
      exec (.beadAckRx src m) s = .next s) ∧
    (∀ r : Fin 65536, (s.lstate = lsLAPSED → r.val = 1 → exec (.noticeRx r) s = .next ((s.setHold {}).setLstate lsNONE)) ∧
      ((s.lstate ≠ lsLAPSED ∨ r.val ≠ 1) → exec (.noticeRx r) s = .next s)) ∧
    (s.lstate = lsHELD → s.expiryUnits ≤ s.beam.t + s.rampUnits → exec .rampStart s = .next
      ((s.setLstate lsRAMP).setBead { x with restore := none }).placeRun) ∧
    ((s.lstate ≠ lsHELD ∨ s.beam.t + s.rampUnits < s.expiryUnits) → exec .rampStart s = .next s) ∧
    ((s.lstate = lsRAMP ∨ x.restore ≠ none) → exec .rampTick s = .next s.placeRun) ∧
    (s.lstate ≠ lsRAMP → x.restore = none → exec .rampTick s = .next s) ∧
    ((s.lstate = lsHELD ∨ s.lstate = lsRAMP) → s.expiryUnits ≤ s.beam.t → exec .leaseLapse s = .next s.leaseLapse) ∧
    (((s.lstate ≠ lsHELD ∧ s.lstate ≠ lsRAMP) ∨ s.beam.t < s.expiryUnits) → exec .leaseLapse s = .next s) ∧
    (s.lstate = lsLAPSED → s.expiryUnits + unit_ ≤ s.beam.t →
      exec .lapseTimeout s = .next ((s.setHold {}).setLstate lsNONE)) ∧
    ((s.lstate ≠ lsLAPSED ∨ s.beam.t < s.expiryUnits + unit_) → exec .lapseTimeout s = .next s)

/-- R282 to R290: the home: a renewal is answered NOT_HOME by a device that does not act, and otherwise refused, granted,
renewed or repeated as the lease and its expiry say; the ledger's steps; messages between the homes (the carrier of a
request for a missing step or the ledger is the model's choice, log 192). -/
def Claims.BeadHome : Prop :=
  ∀ (s : State),
    let l := s.home.work
    let act (st : LedgerStep) (a : List HomeAct) : Host.Outcome State Fault Refusal := .next (s.homeStep st a)
    let frozen := s.flag pBEADS BEADS.HOME_STAT_FROZEN
    (∀ (src : Fin 4096) m,
      let now := s.beam.t / 256
      let ack (code : Nat) (e : LedgerEntry) (t : PQ) : BeadAck :=
        { code := code, hepoch := s.hepoch, rseq := m.rseq, expiry := e.exp, lease := e.lease, target := t
          lseq := s.home.com.lseq }
      (s.role ≠ hrACTING → exec (.renewRx src m) s = .next (s.sendAck src
        { code := 2, hepoch := s.hepoch, rseq := m.rseq, expiry := 0, lease := {}, target := {}
          lseq := s.home.com.lseq })) ∧
      (s.role = hrACTING → m.new = true → m.fine = true → s.fineLock = true → l.entry src = none →
        ∃ e a, e.lease = {} ∧ e.rseq = 0 ∧ e.boot = m.boot ∧ e.exp = min m.treq now + 300000000 ∧
          a.lease = {} ∧ a.code = 0 ∧ a.expiry = e.exp ∧ a.rseq = m.rseq ∧ a.hepoch = s.hepoch ∧
          exec (.renewRx src m) s = act { l.same with leases := [(src.val, some e)] } [.ack src a]) ∧
      (∀ e, s.role = hrACTING → m.new = true → l.entry src = some e → e.boot = m.boot → m.fine = true →
        s.fineLock = true → exec (.renewRx src m) s = .next (s.sendAck src (ack 4 e {}))) ∧
      (∀ e, s.role = hrACTING → m.new = true → l.entry src = some e → (m.fine = false ∨ s.fineLock = false) →
        exec (.renewRx src m) s = .next (s.sendAck src (ack 3 e {}))) ∧
      (∀ e, s.role = hrACTING → m.new = true → l.entry src = some e → e.boot ≠ m.boot → m.fine = true →
        s.fineLock = true → frozen = false → ∃ f a, f.lease = {} ∧ f.boot = m.boot ∧ a.code = 0 ∧
          exec (.renewRx src m) s = act { l.same with pool := l.pool.add e.lease, leases := [(src.val, some f)] }
            [.reclaimed src e.lease, .ack src a]) ∧
      (∀ e, s.role = hrACTING → m.new = false → l.entry src = some e → e.exp ≤ now →
        exec (.renewRx src m) s = .next (s.sendAck src (ack 1 e {}))) ∧
      (∀ e, s.role = hrACTING → m.new = false → l.entry src = some e → now < e.exp →
        let o := e.take m (max e.exp (min m.treq now + 300000000))
        let t := s.homeTarget src
        let step := s.reg pBEADS BEADS.GRANT_STEP % 2 ^ 24
        let p := grantKind e.lease.p l.pool.p m.rel.p t.p s.fineLock step
        let q := grantKind e.lease.q l.pool.q m.rel.q t.q s.fineLock step
        let o' := { o with lease := ⟨p.1, q.1⟩, rseq := m.rseq, ans := t }
        (m.rseq = e.rseq → exec (.renewRx src m) s = act { l.same with leases := [(src.val, some o)] }
          [.ack src (ack 0 o e.ans)]) ∧
        (m.rseq ≠ e.rseq → frozen = true → exec (.renewRx src m) s = act
          { l.same with leases := [(src.val, some o)] } [.ack src (ack 5 o t)]) ∧
        (m.rseq ≠ e.rseq → frozen = false → exec (.renewRx src m) s = act
          { l.same with pool := ⟨p.2, q.2⟩, leases := [(src.val, some o')] } [.ack src (ack 0 o' t)]))) ∧
    (s.role = hrACTING → exec .targetRecompute s = .next s.homeTargets) ∧
    (s.role ≠ hrACTING → exec .targetRecompute s = .next s) ∧
    ((s.role ≠ hrACTING ∨ frozen = true) → exec .ledgerTick s = .next s) ∧
    (s.role = hrACTING → frozen = false → 
      let gone := l.leases.filter (fun e => decide (e.2.exp + 50000000 ≤ s.beam.t / 256))
      let p := retireKind l.pool.p l.retired.p l.retPend.p
      let q := retireKind l.pool.q l.retired.q l.retPend.q
      let st : LedgerStep := gone.foldl (fun st e => st.reclaim e.1 e.2)
        { l.same with pool := ⟨p.1, q.1⟩, retired := ⟨p.2.1, q.2.1⟩, retPend := ⟨p.2.2, q.2.2⟩ }
      (st ≠ l.same → exec .ledgerTick s = act st (gone.map (fun e => .reclaimed e.1 e.2.lease))) ∧
      (st = l.same → exec .ledgerTick s = .next s)) ∧
    (∀ st, s.role = hrSTANDBY → s.home.needCopy = false → s.home.digWait = none →
      let own := s.home.com.lseq
      let l' := s.home.com.apply (own + 1) st
      exec (.replRx s.hepoch (own + 1) st) s = .next
        ((s.setHome { s.home with com := l', work := l' }).toPeer (.replAck s.hepoch (own + 1))) ∧
      (∀ n, n ≤ own → exec (.replRx s.hepoch n st) s = .next (s.toPeer (.replAck s.hepoch n))) ∧
      (∀ n, own + 1 < n → exec (.replRx s.hepoch n st) s = .next (s.toPeer (.ask s.hepoch (own + 1))))) ∧
    (∀ n, s.role = hrACTING →
      exec (.replAckRx s.hepoch n .ack) s = .next
        ((s.setHome { s.home with sent := s.home.sent.filter (fun e => decide (n < e.1)) }).homeCommit n).digestCheck ∧
      exec (.replAckRx s.hepoch n .step) s = .next (s.resend n) ∧
      exec (.replAckRx s.hepoch n .copy) s = .next s.copyOut) ∧
    (s.isHome = true → s.role ≠ hrNONE →
      exec (.homeHbTx false) s = .next (s.toPeer (.hb s.hepoch s.home.work.lseq none))) ∧
    (∀ n b, s.isHome = true → s.role = hrACTING → s.solo = true → exec (.homeHbRx s.hepoch n none b) s = .next
      ((s.set pBEADS BEADS.HOME_STAT_PEER_OK 1).set pBEADS BEADS.HOME_STAT_SOLO 0)) ∧
    (∀ c, s.role = hrSTANDBY → exec (.ledgerCopyRx s.hepoch c) s = .next
      (((s.setHome { s.home with com := c, work := c, needCopy := false, pend := [] }).set pBEADS
        BEADS.HOME_STAT_FROZEN 0).toPeer (.replAck s.hepoch c.lseq))) ∧
    (s.isHome = false → exec .peerSilent s = .next s) ∧
    (s.isHome = true → s.role = hrACTING →
      let y := s.set pBEADS BEADS.HOME_STAT_PEER_OK 0
      (s.majority = true → exec .peerSilent s = .next
        ((y.set pBEADS BEADS.HOME_STAT_SOLO 1).homeCommit s.home.work.lseq)) ∧
      (y.majority = false → exec .peerSilent s = .next y.homeLost))

/-- R281, R286: the home commands of a remote writer: at an acting home that is not frozen and commits alone, MINT, RETIRE
and CANCEL_RETIRE are each one step of the ledger, refused with RANGE out of R281's bounds; RECONCILE of a frozen home
asks for the other's copy; a home that does not act answers NOT_HOME, a frozen one FROZEN, one that agrees NOT_FROZEN; a
local writer is refused. -/
def Claims.HomeCommands : Prop :=
  ∀ (w : Writer) (s : State), s.mayAct w pBEADS →
    let l := s.home.work
    let amt : PQ := ⟨s.regS pBEADS BEADS.CMD_P, s.regS pBEADS BEADS.CMD_Q⟩
    let z := s.setReg pBEADS BEADS.CMD_RES 0
    let frozen := s.flag pBEADS BEADS.HOME_STAT_FROZEN
    let fits (st : LedgerStep) : Prop := pqOk amt = true ∧ pqOk st.pool = true ∧
      pqOk (st.minted.sub st.retired) = true ∧ pqOk st.retPend = true
    let minted := { l.same with pool := l.pool.add amt, minted := l.minted.add amt }
    let retiring := { l.same with retPend := l.retPend.add amt }
    let all (t : State) : Prop := exec (.mint w) s = .next t ∧ exec (.retire w) s = .next t ∧
      exec (.cancelRetire w) s = .next t
    (w.isRemote = true → s.role ≠ hrACTING →
      all ((z.cmdEnd 1).answer w .ok) ∧ exec (.reconcile w) s = .next ((z.cmdEnd 1).answer w .ok)) ∧
    (w.isRemote = true → s.role = hrACTING → frozen = true → all ((z.cmdEnd 2).answer w .ok)) ∧
    (w.isRemote = true → s.role = hrACTING → frozen = false →
      exec (.reconcile w) s = .next ((z.cmdEnd 5).answer w .ok)) ∧
    (w.isRemote = true → s.role = hrACTING → frozen = false → s.solo = true →
      (fits minted → exec (.mint w) s = .next ((z.homeStep minted [.done]).answer w .ok)) ∧
      (¬ fits minted → exec (.mint w) s = .next ((z.cmdEnd 3).answer w .ok)) ∧
      (fits retiring → exec (.retire w) s = .next ((z.homeStep retiring [.done]).answer w .ok)) ∧
      (¬ fits retiring → exec (.retire w) s = .next ((z.cmdEnd 3).answer w .ok)) ∧
      exec (.cancelRetire w) s = .next ((z.homeStep { l.same with retPend := {} } [.done]).answer w .ok)) ∧
    (w.isRemote = true → s.role = hrACTING → frozen = true → s.solo = true → s.bit pBEADS BEADS.CMD_P 0 = true →
      exec (.reconcile w) s = .next
        (((z.setHome { s.home with recon := true }).toPeer (.copyReq s.hepoch)).answer w .ok)) ∧
    (w.isRemote = false →
      all ((s.err pBEADS 17).answer w .writeRefused) ∧
        exec (.reconcile w) s = .next ((s.err pBEADS 17).answer w .writeRefused))

/-- The parts above: BeadLease, BeadHome, HomeCommands. -/
def Obligations.BeadTraffic : Prop :=
  Claims.BeadLease ∧ Claims.BeadHome ∧ Claims.HomeCommands

/-- R292, R293, R295: a lapse leaves the state LAPSED, counts in LAPSE_CNT with its event, and places 0 on every rod and
in every loop. -/
def Obligations.BeadLapsePlacesNothing : Prop :=
  ∀ (s : State), s.bead.agent = false →
    let t := s.leaseLapse
    t.lstate = lsLAPSED ∧ t.reg pBEADS BEADS.LAPSE_CNT = min (s.reg pBEADS BEADS.LAPSE_CNT + 1) 0xFFFFFFFF ∧
      t.bit pBEADS PG.EV_STAT 16 = true ∧ t.regS pBEADS BEADS.PLACED_P = 0 ∧ t.regS pBEADS BEADS.PLACED_Q = 0 ∧
      (∀ r, r < 24 → t.reg pBEADS (BEADS.PLACE r) = 0 ∧ t.reg (pLOOP r) LOOP.PSET = 0 ∧
        t.reg (pLOOP r) LOOP.QSET = 0) ∧
      t.bead.out = none ∧ SameMem s t

/-- R288, R294: an apportionment of m by weights that are not all 0 sums to m, and each place gets its share rounded
down or one more. -/
def Obligations.ApportionExact : Prop :=
  ∀ (m : Nat) (w : List Nat), 0 < sumN w →
    sumN (apportion m w) = m ∧ (apportion m w).length = w.length ∧
      ∀ i, i < w.length → m * w.getD i 0 / sumN w ≤ (apportion m w).getD i 0 ∧
        (apportion m w).getD i 0 ≤ m * w.getD i 0 / sumN w + 1

/-- R281, R287, R290: a grant moves counts between the lease and the pool and never past the target; retiring moves them
from the pool to what is retired; neither makes or loses a bead. -/
def Obligations.LedgerConserves : Prop :=
  (∀ lease pool rel target grants step,
    let r := grantKind lease pool rel target grants step
    r.1 + r.2 = lease + pool ∧
      (lease - rel ≤ target → r.1 ≤ target ∧ lease - rel ≤ r.1) ∧
      (target ≤ lease - rel → target ≤ r.1 ∧ r.1 ≤ lease - rel)) ∧
  (∀ pool ret pend,
    let r := retireKind pool ret pend
    r.1 + r.2.1 = pool + ret ∧ r.2.1 + r.2.2 = ret + pend ∧ r.1.natAbs ≤ pool.natAbs ∧
      r.2.2.natAbs ≤ pend.natAbs)

/-! ## The module bus (spec/14) -/

/-- R323 to R329: frames received and errors, in detection and while the controller receives, and by an injection; the end
of an attempt: sent, lost, failed or not acknowledged; pushes, which a full FIFO refuses; and recovery from bus-off. -/
def Claims.MbusFrames : Prop :=
  ∀ (w : Writer) (n : Fin 32) (s : State),
    let p := pMBUS n
    let x := s.mb n
    let heard : State := ((((s.setMb n { x with rec_ := min (x.rec_ + 1) 255 }).busError n).showEcr n).arbitrate n)
    (s.mbSt n = mbDETECT →
      (∀ f sof, exec (.canFrameRx n f sof) s = .next (s.detectGood n f.brs)) ∧
      exec (.canBusError n) s = .next ((s.busError n).nextCand n (x.cand + 1)) ∧
      exec (.rateDwellTimeout n) s = .next (s.nextCand n (x.cand + 1))) ∧
    (s.mbRx n = true →
      (∀ f sof, s.injArmed p 0 = false → exec (.canFrameRx n f sof) s = .next ((s.canRx n f sof).arbitrate n)) ∧
      exec (.canBusError n) s = .next heard) ∧
    (s.mbSt n ≠ mbDETECT → exec (.rateDwellTimeout n) s = .next s ∧
      (s.mbRx n = false → exec (.canBusError n) s = .next s ∧ ∀ f sof, exec (.canFrameRx n f sof) s = .next s)) ∧
    (∀ sof src, x.offer = some src →
      let keep (t : State) : State := if x.abort = true ∧ src = .head then t.abortNow n else t
      (∀ f, s.offered n sof src = some f → exec (.canFrameTxDone n .sent sof) s = .next
        ((((s.setMb n { x.remove src with tec := x.tec - 1 }).send (.canFrame n f)).busOffCheck n).arbitrate n)) ∧
      exec (.canFrameTxDone n .lost sof) s = .next (((keep s).busOffCheck n).arbitrate n) ∧
      exec (.canFrameTxDone n .error sof) s = .next
        (((keep ((s.tecAdd n 8).busError n)).busOffCheck n).arbitrate n) ∧
      exec (.canFrameTxDone n .noAck sof) s = .next
        (((keep ((if 127 < x.tec then s else s.tecAdd n 8).busError n)).busOffCheck n).arbitrate n)) ∧
    (∀ r sof, x.offer = none → exec (.canFrameTxDone n r sof) s = .next s) ∧
    (∀ v : Word, s.mayAct w p →
      let put := s.setReg p MBUS.TXW_CTL (v.toNat &&& 0x6F)
      (v.getLsbD 31 = true → 32 ≤ x.fifo.length → exec (.txPush w n v) s = .next
        ((((s.incF p MBUS.TX_CNT_REFUSED).err p 18).countRefused w p .writeRefused).answer w .writeRefused)) ∧
      (v.getLsbD 31 = true → x.fifo.length < 32 → exec (.txPush w n v) s = .next
        (((put.setMb n { x with fifo := x.fifo ++ [put.txwFrame n v.toNat] }).offerNew n).answer w .ok)) ∧
      (v.getLsbD 31 = false → exec (.txPush w n v) s = .next (put.answer w .ok))) ∧
    (s.mbSt n = mbBUSOFF →
      ((s.flag p MBUS.CTL_BO_AUTO = true ∨ x.boOk = true) → exec (.busOffRecovery n) s = .next (s.boReturn n)) ∧
      (s.flag p MBUS.CTL_BO_AUTO = false → x.boOk = false →
        exec (.busOffRecovery n) s = .next (s.setMb n { x with boSeq := true }))) ∧
    (s.mbSt n ≠ mbBUSOFF → exec (.busOffRecovery n) s = .next s)

/-- R326 to R329, R335, R353, R360: each bit of CMD does its command where its condition holds and nothing elsewhere; what
falls due; a challenge without an answer is repeated twice, then NO_RESP; a read of MOD_STAT clears ALARM. -/
def Claims.MbusCommands : Prop :=
  ∀ (w : Writer) (n : Fin 32) (s : State),
    let p := pMBUS n
    let x := s.mb n
    let due := decide (s.mbSt n = mbACTIVE) && s.flag p MBUS.TREF_CFG_EN
    let asks := s.mpeOn n && decide (s.mbSt n ≠ mbOFF)
    (s.mayAct w p →
      (x.fifo ≠ [] → x.offer = some .head → exec (.abortHead w n) s = .next
        ((s.setMb n { x with abort := true }).answer w .ok)) ∧
      (x.fifo ≠ [] → x.offer ≠ some .head → exec (.abortHead w n) s = .next
        (((s.abortNow n).offerNew n).answer w .ok)) ∧
      (x.fifo = [] → exec (.abortHead w n) s = .next (s.answer w .ok)) ∧
      (s.mbSt n = mbBUSOFF → x.boSeq = true → exec (.boRecover w n) s = .next ((s.boReturn n).answer w .ok)) ∧
      (s.mbSt n = mbBUSOFF → x.boSeq = false → exec (.boRecover w n) s = .next
        ((s.setMb n { x with boOk := true }).answer w .ok)) ∧
      (s.mbSt n ≠ mbBUSOFF → exec (.boRecover w n) s = .next (s.answer w .ok)) ∧
      (s.mpeOn n = false →
        exec (.rx0Pop w n) s = .next ((s.setMb n { x with q0 := x.q0.drop 1 }).answer w .ok) ∧
        exec (.rx1Pop w n) s = .next ((s.setMb n { x with q1 := x.q1.drop 1 }).answer w .ok)) ∧
      (s.mpeOn n = true → exec (.rx0Pop w n) s = .next (s.answer w .ok) ∧
        exec (.rx1Pop w n) s = .next (s.answer w .ok)) ∧
      (asks = true → exec (.identAll w n) s = .next ((s.challengeAll n false).answer w .ok) ∧
        exec (.lifeAll w n) s = .next ((s.challengeAll n true).answer w .ok)) ∧
      (asks = false → exec (.identAll w n) s = .next (s.answer w .ok) ∧
        exec (.lifeAll w n) s = .next (s.answer w .ok)) ∧
      (due = true → exec (.trefNow w n) s = .next
        (((s.setMb n { x with slotRef := true }).offerNew n).answer w .ok)) ∧
      (due = false → exec (.trefNow w n) s = .next (s.answer w .ok))) ∧
    (due = true → exec (.timeRefDue n) s = .next ((s.setMb n { x with slotRef := true }).offerNew n)) ∧
    (due = false → exec (.timeRefDue n) s = .next s) ∧
    (asks = true → exec (.identPeriodic n) s = .next (s.challengeAll n false) ∧
      exec (.lifePeriodic n) s = .next (s.challengeAll n true)) ∧
    (asks = false → exec (.identPeriodic n) s = .next s ∧ exec (.lifePeriodic n) s = .next s) ∧
    (∀ (a : Fin 24) life,
      (∀ c, x.chals.find? (fun c => c.addr == a.val && c.life == life) = some c →
        (3 ≤ c.tries → exec (.challengeTimeout n a life) s = .next
          ((s.answered n a life c.nonce).set p (MBUS.MOD_STAT_NO_RESP a) 1)) ∧
        (c.tries < 3 → exec (.challengeTimeout n a life) s = .next (s.challenge n a life c.tries))) ∧
      (x.chals.find? (fun c => c.addr == a.val && c.life == life) = none →
        exec (.challengeTimeout n a life) s = .next s)) ∧
    (∀ a : Fin 24, w.isRemote = false → s.pageRests p = false → exec (.modStatRead w n a) s = .next
      ((s.set p (MBUS.MOD_STAT_ALARM a) 0).send (.resp w .ok 1 [s.word p (MBUS.MOD_STAT a)])))

/-- R330 to R334, R340: sleep, which an empty FIFO or 100 ms ends, the watch, shutting down, UNAVAILABLE, and a message
that stalls; where its condition does not hold, none of them happens. -/
def Claims.MbusSleep : Prop :=
  ∀ (w : Writer) (n : Fin 32) (s : State),
    let p := pMBUS n
    let x := s.mb n
    let unavail := s.flag pREST REST.STAT_WAKE_FAIL &&
      (s.reg pAON (AON.WAKE_CFG 0)).testBit MBUS.WAKE_CFG_UNAVAIL_EN.lo
    (s.mayAct w p → s.mbSt n = mbACTIVE → s.mpeOn n = false → ∃ t, exec (.sleepRequest w n true) s = .next t ∧
      t.mbSt n = mbSLEEPING ∧ t.flag p MBUS.CTL_SLEEP = true ∧ (t.mb n).slotRef = false ∧
      (t.mb n).sleepAt = s.beam.t ∧ t.bit p PG.EV_STAT 18 = true ∧ SameMem s t) ∧
    (s.mayAct w p → s.mbSt n = mbASLEEP → exec (.sleepRequest w n false) s = .next
      (((s.set p MBUS.CTL_SLEEP 0).mbusAwake n false).answer w .ok)) ∧
    (s.mayAct w p → s.mbSt n ≠ mbACTIVE → exec (.sleepRequest w n true) s = .next (s.answer w .ok)) ∧
    (s.mbSt n = mbSLEEPING → (x.fifo = [] ∨ x.sleepAt + 100 * unitsMs ≤ s.beam.t) →
      exec (.enterAsleep n) s = .next (s.mbAsleep n)) ∧
    ((s.mbSt n ≠ mbSLEEPING ∨ (x.fifo ≠ [] ∧ s.beam.t < x.sleepAt + 100 * unitsMs)) →
      exec (.enterAsleep n) s = .next s) ∧
    (∀ wt f, x.watch = some wt → s.mbSt n = mbASLEEP → x.wakePend = false →
      (watchHit wt f = true → exec (.watchWake n f) s = .next (s.watchWake n f)) ∧
      (watchHit wt f = false → exec (.watchWake n f) s = .next s)) ∧
    (∀ f, (x.watch = none ∨ s.mbSt n ≠ mbASLEEP ∨ x.wakePend = true) → exec (.watchWake n f) s = .next s) ∧
    (∀ wt, x.watch = some wt → s.mbSt n = mbASLEEP → wt.1 = true →
      exec (.watchFalse n) s = .next (s.incF p MBUS.WAKE_CNT_FALSE)) ∧
    ((x.watch = none ∨ s.mbSt n ≠ mbASLEEP) → exec (.watchFalse n) s = .next s) ∧
    (s.flag p PG.STAT_SHUTTING = true → ∃ t, exec (.controllerShutDone n) s = .next t ∧ t.mbSt n = mbOFF ∧
      t.flag p PG.STAT_SHUTTING = false ∧ (t.mb n).fifo = [] ∧ (t.mb n).q0 = [] ∧ (t.mb n).q1 = [] ∧
      (t.mb n).wait = [] ∧ (t.mb n).acks = [] ∧ (t.mb n).chals = [] ∧ (t.mb n).open_ = [] ∧ (t.mb n).done = [] ∧
      (t.mb n).watch = none ∧ t.bit p PG.EV_STAT 4 = true ∧ SameMem s t) ∧
    (s.flag p PG.STAT_SHUTTING = false → exec (.controllerShutDone n) s = .next s) ∧
    (unavail = true → exec .unavailableTx s = .next
      (s.send (.canFrame 0 { ide := true, fdf := false, brs := false, id := mbId 2 0xFF 3 0 true true, dlc := 5
                             data := leBytes 2 3 ++ leBytes 2 s.addr ++ [1] }))) ∧
    (unavail = false → exec .unavailableTx s = .next s) ∧
    (∀ (a : Fin 24) (c : Fin 9),
      let hit := x.open_.find? (fun m => m.addr == a.val && m.cls == c.val)
      (∀ m, hit = some m → m.skip = false → exec (.messageStall n a c) s = .next
        (((s.closeMsg n a c).incF p MBUS.MSG_CNT_SHORT).err p 25)) ∧
      (∀ m, hit = some m → m.skip = true → exec (.messageStall n a c) s = .next (s.closeMsg n a c)) ∧
      (hit = none → exec (.messageStall n a c) s = .next s))

/-- The parts above: MbusFrames, MbusCommands, MbusSleep. -/
def Obligations.ModuleBus : Prop :=
  Claims.MbusFrames ∧ Claims.MbusCommands ∧ Claims.MbusSleep

/-- R341 to R357: the oldest complete message of a class is taken by its consumer; without one nothing happens. -/
def Claims.MbusMessages : Prop :=
  ∀ (n : Fin 32) (s : State),
    let takes (i : Instr) (cls : Nat) (f : MbMsg → State → State) : Prop :=
      let hit := (s.mb n).done.find? (fun m => m.cls == cls)
      (∀ m, hit = some m → exec i s = .next (f m (s.setMb n { s.mb n with done := (s.mb n).done.erase m }))) ∧
      (hit = none → exec i s = .next s)
    takes (.reportCellsRx n) 5 (fun m t => t.reportCells n m) ∧
    takes (.alarmRx n) 0 (fun m t => t.alarmRx n m) ∧
    takes (.wakeReqRx n) 2 (fun m t => t.msgToRing n m 0) ∧
    takes (.balanceAckRx n) 3 (fun m t => t.msgToRing n m 0) ∧
    takes (.samplePlanAckRx n) 4 (fun m t => (t.modIdx n m.addr).elim (t.msgToRing n m 0) (fun i => t.eisAck i m.data)) ∧
    takes (.eisResultRx n) 8 (fun m t => (t.modIdx n m.addr).elim (t.msgToRing n m 0) (fun i => t.eisResult i m.data)) ∧
    takes (.identResponseRx n) 6 (fun m t => t.identResponse n m) ∧
    takes (.lifeResponseRx n) 7 (fun m t => t.lifeResponse n m)

/-- R345, R347, R350, R355: an alarm is acknowledged while the slot has room, and goes to the ring only once; a report goes
to the ring from an unmapped address, and to the estimator where its size fits; an acknowledgement of the running plan is
noted; a response that does not verify leaves VERIFIED at 0 and sets its error. -/
def Claims.MbusMessageEffects : Prop :=
  ∀ (n : Fin 32) (s : State) (m : MbMsg), m.addr < 24 →
    let p := pMBUS n
    let seen := (s.modX n m.addr).aseqs.contains (m.le 8 2)
    let bad := (m.le 10 1).testBit 0
    let y := (s.setB p (MBUS.MOD_STAT_TIME_BAD m.addr) bad).set p (MBUS.MOD_STAT_RSEQ m.addr) (m.le 11 1)
    ((s.mb n).acks.length = 4 → seen = true → s.alarmRx n m = s) ∧
    ((s.mb n).acks.length < 4 → ((s.alarmRx n m).mb n).acks.length = (s.mb n).acks.length + 1 ∧
      (seen = true → (s.alarmRx n m).mem = s.mem)) ∧
    (seen = false → (s.alarmRx n m).flag p (MBUS.MOD_STAT_ALARM m.addr) = true ∧
      (s.alarmRx n m).bit p PG.EV_STAT 21 = true ∧
      ((s.alarmRx n m).modX n m.addr).aseqs.contains (m.le 8 2) = true) ∧
    ((y.modIdx n m.addr = none → s.reportCells n m = y.msgToRing n m 0) ∧
      (∀ i, y.modIdx n m.addr = some i → s.flag p MBUS.MPE_CFG_RPT_RING = false → y.modCells i ≠ m.le 8 1 →
        s.reportCells n m = y.incF p MBUS.MSG_CNT_SHORT)) ∧
    (∀ i d, i < 768 → d.length = 3 → ofLE (d.take 2) = (s.eisX (i / 32)).run → d.getD 2 1 = 0 → s.eisSt (i / 32) = esPLAN →
      ((s.eisAck i d).eisX (i / 32)).acks.contains i = true) ∧
    ((s.modX n m.addr).last = none → s.nonceOk n m.addr false (m.data.take 16) = false →
      (s.identResponse n m).flag p (MBUS.MOD_STAT_VERIFIED m.addr) = false ∧
        (s.identResponse n m).bit p PG.ERR 23 = true) ∧
    (s.nonceOk n m.addr true (m.data.take 16) = false → s.lifeResponse n m =
      (s.answered n m.addr true (m.data.take 16)).msgToRing n m 8)

/-- The parts above: MbusMessages, MbusMessageEffects. -/
def Obligations.ModuleMessages : Prop :=
  Claims.MbusMessages ∧ Claims.MbusMessageEffects

/-! ## Thermal supervision, valves, counters (spec/15) -/

/-- R364 to R373, R512, R514: what a housekeeping round brings: stepper supplies, thermal inputs, monitors, the slots'
answers; the evaluation each second; the writes that clear latches; in REST a crossing that wakes the device, while the
supervision is enabled. -/
def Claims.ThermRounds : Prop :=
  ∀ (w : Writer) (s : State),
    let round (ts : List ThSample) (d : List Int) (vm sup : List Nat) (vout : List PmbRes) : Instr :=
      .housekeepingRound { ts := ts, die := d, sup := sup, vm := vm, vout := vout }
    let m := s.sensKeys.foldl State.meanEval s
    (∀ l, l.length ≤ 4 → s.dom .rd ≠ .active → ∃ t, exec (round [] [] l [] []) s = .next t ∧
      (∀ i, i < l.length → t.reg pSTEPC (STEPC.VM i) = l.getD i 0 % 2 ^ 16) ∧
      SameRegs s t ((List.range l.length).map (fun i => (pSTEPC, STEPC.VM i))) ∧ SameMem s t) ∧
    (∀ ts d, s.dom .rd = .active → exec (round ts d [] [] []) s = .next (s.thermRound ts d)) ∧
    (∀ ts d, s.dom .rd ≠ .active → exec (round ts d [] [] []) s = .next s) ∧
    (∀ v u, s.dom .rd ≠ .active → exec (round [] [] [] [v, u] []) s = .next ((s.monSample 0 v).monSample 1 u)) ∧
    (∀ r, s.dom .rd ≠ .active → s.pmbOn 0 = true → exec (round [] [] [] [] [r]) s = .next (s.pmbVout 0 r)) ∧
    (∀ r, s.dom .rd ≠ .active → s.pmbOn 0 = false → exec (round [] [] [] [] [r]) s = .next s) ∧
    (m.en pTHERM = false → exec .rateEval s = .next m) ∧
    (m.en pTHERM = true → exec .rateEval s = .next (m.sensKeys.foldl State.rateEval m).thermApply) ∧
    (∀ (r : Fin 4) (v : Word), s.mayAct w pTHERM → exec (.latchClear w r v) s = .next
      ((s.latchClear (latchOff r) v.toNat).answer w .ok)) ∧
    (∀ x t, s.dev = dvREST → s.en pTHERM = true → s.get pTHERM (THERM.TS_CFG_MODE 0) ≠ 0 → (s.thConv 0 x).1 = .val t →
      (s.getS pTHERM (THERM.LIM_A_TRIP_HI (s.limSet 0)) < t → exec (.restThermCheck [x]) s = .next
        ({ s with crossings := s.crossings ++ [(0, t, s.beam.t)] }.wakeCause wcTHERM)) ∧
      (t ≤ s.getS pTHERM (THERM.LIM_A_TRIP_HI (s.limSet 0)) → exec (.restThermCheck [x]) s = .next s)) ∧
    (∀ l, (s.dev ≠ dvREST ∨ s.en pTHERM = false) → exec (.restThermCheck l) s = .next s)

/-- R382 to R386: a change that held for FILT samples is an edge: in two-line mode an edge of line a counts up, of line b
down, in direction mode an edge of line a counts by line b's level; both at once are ILLEGAL, a shorter change is
OVERRATE; a counter that does not count ignores them; a written count, limited, moves the observer's position with it. -/
def Claims.PulseCounters : Prop :=
  ∀ (w : Writer) (n : Fin 16) (s : State),
    let p := pPCNT n
    let filt := max 1 (s.get p PCNT.CFG_FILT)
    let illegal := (s.cntErr n peILLEGAL).incSat p PCNT.ILL_CNT
    let edges (a b : Option LineChange) (lb : Bool) : Instr := .pcntEdge n { a := a, b := b, lineB := lb }
    (s.cntOn n = false → ∀ e, exec (.pcntEdge n e) s = .next s) ∧
    (s.cntOn n = true → ∀ (x y : LineChange) (lb : Bool), filt ≤ x.held → filt ≤ y.held →
      (s.flag p PCNT.CFG_MODE = true →
        exec (edges (some x) (some y) lb) s = .next illegal ∧
        exec (edges (some x) none lb) s = .next (s.countEdge n true) ∧
        exec (edges none (some y) lb) s = .next (s.countEdge n false)) ∧
      (s.flag p PCNT.CFG_MODE = false → (s.get p PCNT.CFG_EDGE = 2 ∨
          x.level = decide (s.get p PCNT.CFG_EDGE ≠ 1)) →
        exec (edges (some x) (some y) lb) s = .next illegal ∧
        exec (edges (some x) none lb) s = .next (s.countEdge n (lb != s.flag p PCNT.CFG_DIR_INV))) ∧
      (s.flag p PCNT.CFG_MODE = false → exec (edges none (some y) lb) s = .next s)) ∧
    (s.cntOn n = true → ∀ (x : LineChange) (lb : Bool), x.held < filt →
      exec (edges (some x) none lb) s = .next ((s.cntErr n peOVERRATE).incSat p PCNT.OVR_CNT)) ∧
    (s.cntOn n = true → exec (.observerUpdate n) s = .next (s.observe n)) ∧
    (s.cntOn n = false → exec (.observerUpdate n) s = .next s) ∧
    (∀ v : Word, s.mayAct w p → s.flag p PCNT.CFG_LIM_EN = false → ∃ t, exec (.countWrite w n v) s = .next t ∧
      t.word p PCNT.COUNT = v ∧
      (t.pcnt n).pos = enc 64 (((s.pcnt n).pos : Int) + (sxt 32 v.toNat - s.count n) * 2 ^ 32) ∧
      SameRegs s t [(p, PCNT.COUNT), (p, PCNT.OBS_POS), (p, PCNT.OBS_FRAC)] ∧ SameMem s t) ∧
    (∀ v : Word, s.mayAct w p → s.flag p PCNT.CFG_LIM_EN = true →
      s.regS p PCNT.LIM_LO < s.regS p PCNT.LIM_HI → s.regS p PCNT.LIM_HI < sxt 32 v.toNat → ∃ t,
      exec (.countWrite w n v) s = .next t ∧ t.count n = s.regS p PCNT.LIM_HI ∧
        t.bit p PCNT.ERR peSATHI = true ∧ SameMem s t)

/-- The parts above: ThermRounds, PulseCounters. -/
def Obligations.ThermAndCounters : Prop :=
  Claims.ThermRounds ∧ Claims.PulseCounters

/-- R374 to R381: the stepper's commands: a target is refused without a position and while a stop or a HOME runs, else
limited and followed; STOP, HALT and HOME; a written position, refused in motion. -/
def Claims.StepperCommands : Prop :=
  ∀ (w : Writer) (n : Fin 32) (v : Word) (s : State),
    let p := pSTEP n
    let x := s.stepper n
    let refused (b : Nat) : State := ((s.err p b).countRefused w p .writeRefused).answer w .writeRefused
    let lo := s.regS p STEP.VLIM_LO
    let hi := s.regS p STEP.VLIM_HI
    let want := sxt 32 v.toNat
    let busy := s.stepSt n = skSTOPPING ∨ s.stepSt n = skHOMING
    s.mayAct w p →
    (s.flag p STEP.STATUS_POS_OK = false → exec (.stepTarget w n v) s = .next (refused 17)) ∧
    (s.flag p STEP.STATUS_POS_OK = true → busy → exec (.stepTarget w n v) s = .next (refused 18)) ∧
    (s.flag p STEP.STATUS_POS_OK = true → ¬ busy → lo ≤ want → want ≤ hi →
      (s.en p = false → ∃ t, exec (.stepTarget w n v) s = .next t ∧ t.word p STEP.TARGET = v ∧
        t.flag p STEP.STATUS_CLIPPED = false ∧ t.stepSt n = s.stepSt n ∧
        SameRegs s t [(p, STEP.TARGET), (p, STEP.STATUS)] ∧ SameMem s t) ∧
      (s.en p = true → ∃ t, exec (.stepTarget w n v) s = .next t ∧ t.word p STEP.TARGET = v ∧ t.stepSt n = skACCEL ∧
        t.flag p STEP.STATUS_STALL = false ∧ t.flag p STEP.STATUS_COIL_OPEN = false ∧
        t.flag p STEP.STATUS_OVERCURRENT = false ∧ t.flag p STEP.STATUS_HOME_FAIL = false ∧
        (t.stepper n).outs = .driven ∧ SameMem s t)) ∧
    (s.flag p STEP.STATUS_POS_OK = true → ¬ busy → s.en p = false → (want < lo ∨ hi < want) → lo ≤ hi → ∃ t,
      exec (.stepTarget w n v) s = .next t ∧ t.regS p STEP.TARGET = (if want < lo then lo else hi) ∧
        t.flag p STEP.STATUS_CLIPPED = true ∧ t.bit p PG.EV_STAT 17 = true ∧
        t.reg p STEP.CLIP_CNT = min (s.reg p STEP.CLIP_CNT + 1) 0xFFFFFFFF ∧ SameMem s t) ∧
    (s.stepMoving n = true → exec (.stepStop w n) s = .next ((s.setStepSt n skSTOPPING).answer w .ok)) ∧
    (s.stepMoving n = false → exec (.stepStop w n) s = .next (s.answer w .ok) ∧
      exec (.stepHalt w n) s = .next (s.answer w .ok)) ∧
    (s.stepMoving n = true → ∃ t, exec (.stepHalt w n) s = .next t ∧ t.stepSt n = skHOLDING ∧
      (t.stepper n).v = 0 ∧ (t.stepper n).x = x.x ∧ (t.stepper n).iSet = x.iSet ∧ t.bit p PG.EV_STAT 16 = true ∧
      t.flag p STEP.STATUS_POS_OK = (s.flag p STEP.STATUS_POS_OK &&
        decide (x.v.natAbs ≤ s.reg p STEP.EST_CFG % 2 ^ 24 * 1000000)) ∧ SameMem s t) ∧
    (s.reg p STEP.EST_CFG % 2 ^ 24 ≤ s.reg p STEP.VHOME % 2 ^ 24 →
      (s.en p = true → ∃ t, exec (.stepHome w n) s = .next t ∧ t.stepSt n = skHOMING ∧ (t.stepper n).travel = 0 ∧
        (t.stepper n).outs = .driven ∧ SameMem s t) ∧
      (s.en p = false → exec (.stepHome w n) s = .next (s.answer w .ok))) ∧
    (s.reg p STEP.VHOME % 2 ^ 24 < s.reg p STEP.EST_CFG % 2 ^ 24 → exec (.stepHome w n) s = .next (refused 16)) ∧
    (x.v = 0 → ∃ t, exec (.stepPosWrite w n v) s = .next t ∧ (t.stepper n).x = sxt 32 v.toNat * 2000000000000 ∧
      t.word p STEP.POS = v ∧ t.flag p STEP.STATUS_POS_OK = true ∧ SameMem s t) ∧
    (x.v ≠ 0 → exec (.stepPosWrite w n v) s = .next (refused 18))

/-- R375 to R381: what happens to a channel by itself: the profile each microsecond, the current's set-point with the load
angle (whose formula is the implementation's: log 212), a stall, standstill, an open coil, an overcurrent, and the end of
shutting down. -/
def Claims.StepperEvents : Prop :=
  ∀ (n : Fin 32) (s : State),
    let p := pSTEP n
    let x := s.stepper n
    let slow := x.v.natAbs < s.reg p STEP.EST_CFG % 2 ^ 24 * 1000000
    (s.stepSt n = skSTOPPING → exec (.stepperTick n) s = .next (s.stopTick n)) ∧
    (s.stepSt n = skHOMING → exec (.stepperTick n) s = .next (s.homeTick n)) ∧
    (s.stepSt n = skACCEL ∨ s.stepSt n = skCRUISE ∨ s.stepSt n = skDECEL →
      exec (.stepperTick n) s = .next (s.moveTick n)) ∧
    (s.stepMoving n = false → exec (.stepperTick n) s = .next s) ∧
    (∀ c, (s.stepMoving n = false ∨ slow) → exec (.loadAngleEstimate n c) s = .next s) ∧
    (∀ c, s.stepMoving n = true → ¬ slow →
      let d := s.loadAngle n c
      let hi := s.get p STEP.I_CFG_I_MAX
      let i := if s.get p STEP.I_CFG_DELTA_TGT < d then min hi (x.iSet + s.get p STEP.I_CFG_I_SLEW)
        else max (s.get p STEP.I_CFG_I_HOLD) (x.iSet - s.get p STEP.I_CFG_I_SLEW)
      let y := ((s.setStepper n { x with iSet := i }).showStep n).set p ⟨STEP.LOAD, 15, 8⟩ (clampI 0 255 d).toNat
      exec (.loadAngleEstimate n c) s = .next (if i = hi ∧ 90 < d then y.stall n else y) ∧
      (y.stepper n).iSet = i ∧
      SameRegs s y [(p, STEP.LOAD), (p, STEP.POS), (p, STEP.VEL), (p, STEP.STATUS)] ∧ SameMem s y) ∧
    (s.stepSt n = skHOLDING → x.restAt + s.get p STEP.CFG_STANDSTILL_T * unitsMs ≤ s.beam.t →
      exec (.standstillEntry n) s = .next (s.standstill n)) ∧
    ((s.stepSt n ≠ skHOLDING ∨ s.beam.t < x.restAt + s.get p STEP.CFG_STANDSTILL_T * unitsMs) →
      exec (.standstillEntry n) s = .next s) ∧
    (∀ coilB cur us,
      let want := (if coilB = true then x.iB else x.iA).natAbs
      let off := x.outs ≠ .driven ∨ us < 2000 ∨ want < s.get p STEP.I_CFG_I_HOLD * 2 ^ 31 ∨ want ≤ 2 * cur * 2 ^ 31
      (¬ off → exec (.coilOpenDetect n coilB cur us) s = .next
        (((s.stallStop n).set p STEP.STATUS_COIL_OPEN 1).err p 20)) ∧
      (off → exec (.coilOpenDetect n coilB cur us) s = .next s)) ∧
    (∀ cur us,
      let off := s.stepSt n = skOFF ∨ us < 10 ∨ 4 * cur ≤ 5 * s.get p STEP.I_CFG_I_MAX
      (¬ off → exec (.overcurrentDetect n cur us) s = .next
        ((((s.stallStop n).setStepOut n .released).set p STEP.STATUS_OVERCURRENT 1).err p 20)) ∧
      (off → exec (.overcurrentDetect n cur us) s = .next s)) ∧
    (s.flag p PG.STAT_SHUTTING = true → x.v = 0 → ∃ t, exec (.stepperShutDone n) s = .next t ∧
      t.stepSt n = skOFF ∧ (t.stepper n).outs = .released ∧ t.flag p PG.STAT_SHUTTING = false ∧
      t.bit p PG.EV_STAT 4 = true ∧ SameMem s t) ∧
    ((s.flag p PG.STAT_SHUTTING = false ∨ x.v ≠ 0) → exec (.stepperShutDone n) s = .next s)

/-- R375: a microsecond of a move changes the speed by no more than ACC upwards, passes VMAX at no speed below it, and
leaves the distance that a stop with DEC needs. -/
def Claims.StepperSpeed : Prop :=
  ∀ acc dec vmax v d : Nat,
    let u := nextSpeed acc dec vmax v d
    v - dec ≤ u ∧ u ≤ max (v - dec) (v + acc) ∧ u ≤ max (v - dec) vmax

/-- The parts above: StepperCommands, StepperEvents, StepperSpeed. -/
def Obligations.Steppers : Prop :=
  Claims.StepperCommands ∧ Claims.StepperEvents ∧ Claims.StepperSpeed

/-! ## Supplies, clocks and the device states (spec/21, spec/22) -/

/-- R510 to R514, R530: sequences of the supply slots: one begins at its lowest slot, a rising PG moves it on, a slot
that does not come up fails it, and it is tried again twice; a slot that is lost; what PMBus answers. -/
def Claims.SupplySequences : Prop :=
  ∀ (i : Fin 8) (s : State),
    let on := s.flag pSUP (SUP.SLOT_STAT_ON i)
    (s.sup.seq ≠ none → ∀ r, exec (.powerUpSequence r) s = .next s) ∧
    (s.sup.seq = none → ∀ r, exec (.powerUpSequence r) s = .next
      (((s.readRevs s.seqSlots r).clk CLK.STAT_RC16_ON true).seqBegin s.seqSlots 0 false)) ∧
    (on = true →
      (s.sup.seq = none → exec (.pgRise i) s = .next (s.set pSUP (SUP.SLOT_STAT_PG i) 1)) ∧
      (∀ q, s.sup.seq = some q →
        ((q.cur ≠ i.val ∨ q.failed = true) → exec (.pgRise i) s = .next (s.set pSUP (SUP.SLOT_STAT_PG i) 1)) ∧
        (q.cur = i.val → q.failed = false →
          (∀ j, q.slots.find? (fun j => decide (i.val < j)) = some j → exec (.pgRise i) s = .next
            (((s.set pSUP (SUP.SLOT_STAT_PG i) 1).setSeq (some { q with cur := j })).slotOn j)) ∧
          (q.slots.find? (fun j => decide (i.val < j)) = none → exec (.pgRise i) s = .next
            ((s.set pSUP (SUP.SLOT_STAT_PG i) 1).seqDone q))))) ∧
    (on = false → exec (.pgRise i) s = .next s) ∧
    (s.sup.seq = none → exec (.pgTimeout i) s = .next s ∧ exec .sequenceRetry s = .next s) ∧
    (∀ q, s.sup.seq = some q →
      (q.cur = i.val → q.failed = false →
        exec (.pgTimeout i) s = .next (((List.range 8).foldl (fun (t : State) j => t.pmb j 0x03 none)
          (s.slotsOff (if q.alone = true then [i.val] else List.range (i.val + 1)))).setSeq
          (some { q with failed := true }))) ∧
      ((q.cur ≠ i.val ∨ q.failed = true) → exec (.pgTimeout i) s = .next s) ∧
      (q.failed = false → exec .sequenceRetry s = .next s) ∧
      (q.failed = true → q.tries < 2 → exec .sequenceRetry s = .next
        (s.seqBegin (if q.alone = true then q.slots else s.seqSlots) (q.tries + 1) q.alone)) ∧
      (q.failed = true → 2 ≤ q.tries →
        let spared := q.alone && !(q.slots.any (fun j => (s.slotDoms j).contains .rd))
        (spared = true → exec .sequenceRetry s = .next s.seqNext) ∧
        (spared = false → exec .sequenceRetry s = .next s.wakeFail))) ∧
    (on = true → s.flag pSUP (SUP.SLOT_STAT_PG i) = true → exec (.supplyLoss i) s = .next (s.supplyLoss i)) ∧
    ((on = false ∨ s.flag pSUP (SUP.SLOT_STAT_PG i) = false) → exec (.supplyLoss i) s = .next s) ∧
    (∀ r, (s.pmbOn 0 = true → exec (.pmbusPoll [r]) s = .next ((s.pmbStatus 0 r.status).pmbIin 0 r.iin)) ∧
      (s.pmbOn 0 = false → exec (.pmbusPoll [r]) s = .next s)) ∧
    (∀ r, (s.pmbOn 0 = true → exec (.pmbAlert [r]) s = .next ((s.pmbStatus 0 r).pmb 0 0x03 none)) ∧
      (s.pmbOn 0 = false → exec (.pmbAlert [r]) s = .next s))

/-- R515 to R517, R524: the path between VAUX and VBAK: handover, return, their ends, a backup that runs low, and the
charge taken from it; elsewhere than on the path that a decision is for, nothing happens. -/
def Claims.SupplyPath : Prop :=
  ∀ (a b : Fin 65536) (s : State),
    (s.path = ppAUX → a.val < 1700 → b.val < 900 → ∃ t, exec (.handoverDecision a b) s = .next t ∧ t.path = ppAUX ∧
      t.flag pSUP SUP.STAT_NO_BACKUP = true ∧ t.bit pSUP PG.ERR 20 = true ∧ t.reg pSUP SUP.VAUX = a.val ∧
      t.reg pSUP SUP.VBAK = b.val ∧ SameMem s t) ∧
    (s.path = ppAUX → a.val < 1700 → 900 ≤ b.val → s.storeSt ≠ tsOPEN → ∃ u, exec (.handoverDecision a b) s = .next
      (u.wakeCause wcPOWER) ∧ u.path = ppHANDOVER ∧ u.bit pSUP PG.EV_STAT 16 = true ∧
      u.reg pSUP SUP.HO_CNT = min (s.reg pSUP SUP.HO_CNT + 1) 0xFFFFFFFF ∧
      u.out = s.out ++ [.pin "PP_BAK_EN" true, .pin "PP_SRC_EN" false] ∧ SameMem s u) ∧
    ((s.path ≠ ppAUX ∨ 1700 ≤ a.val) → exec (.handoverDecision a b) s = .next s) ∧
    (s.path ≠ ppHANDOVER → exec .handoverDone s = .next s) ∧
    ((s.path ≠ ppBAK ∨ s.sup.ret = false) → exec .returnDecision s = .next s) ∧
    (s.path ≠ ppRETURN → exec .returnDone s = .next s) ∧
    ((s.path ≠ ppBAK ∨ 900 ≤ b.val) → exec (.vbakLowDeep b) s = .next s) ∧
    (s.path ≠ ppBAK → exec .backupTallyTick s = .next s ∧ exec (.bakLow b) s = .next (s.readVbak b)) ∧
    (s.path = ppHANDOVER → exec .handoverDone s = .next
      ((s.set pSUP SUP.STAT_PATH ppBAK).setSup { s.sup with ret := s.flag pSUP SUP.STAT_VAUX_OK })) ∧
    (s.path = ppBAK → s.sup.ret = true → exec .returnDecision s = .next
      ((((s.send (.pin "PP_SRC_EN" true)).set pSUP SUP.STAT_PATH ppRETURN).ev pSUP 17).wakeCause wcPOWER)) ∧
    (s.path = ppRETURN → exec .returnDone s = .next
      (((((s.send (.pin "PP_BAK_EN" false)).set pSUP SUP.STAT_PATH ppAUX).set pSUP SUP.STAT_VBAK_LOW 0)).setSup
        { s.sup with ret := false })) ∧
    (s.path = ppBAK → b.val < 900 → s.dev = dvDEEP → exec (.vbakLowDeep b) s = .next
      ((s.setReg pSUP SUP.VBAK b).set pSUP SUP.STAT_VBAK_LOW 1)) ∧
    (s.path = ppBAK → b.val < 900 → s.dev ≠ dvDEEP → exec (.vbakLowDeep b) s = .next
      (((((s.setReg pSUP SUP.VBAK b).set pSUP SUP.STAT_VBAK_LOW 1).busesRest).deepState).incF pREST
        ⟨REST.ENTRY_CNT, 31, 16⟩)) ∧
    (s.path = ppBAK → (∀ j, j < 8 → s.flag pSUP (SUP.SLOT_STAT_ON j) = false) → ∃ t,
      exec .backupTallyTick s = .next t ∧
      t.reg64 pSUP SUP.BAK_CHG_LO = (s.reg64 pSUP SUP.BAK_CHG_LO +
        (10 * s.get pSUP SUP.PATH_CFG_AON_IQ + s.sup.chg) / 1000) % 2 ^ 64 ∧
      t.sup.chg = (10 * s.get pSUP SUP.PATH_CFG_AON_IQ + s.sup.chg) % 1000 ∧
      t.reg pSUP SUP.BAK_TIME = min (s.reg pSUP SUP.BAK_TIME + 1) 0xFFFFFFFF ∧ SameMem s t) ∧
    (s.path = ppBAK → b.val < s.bakWarn → exec (.bakLow b) s = .next
      (((s.readVbak b).set pSUP SUP.STAT_VBAK_LOW 1).ev pSUP 18)) ∧
    (s.path = ppBAK → s.bakWarn ≤ b.val → exec (.bakLow b) s = .next ((s.readVbak b).set pSUP SUP.STAT_VBAK_LOW 0)) ∧
    (∃ t, exec (.vauxOkChange a) s = .next t ∧ t.reg pSUP SUP.VAUX = a.val ∧
      t.flag pSUP SUP.STAT_VAUX_OK = decide (1900 ≤ a.val) ∧
      t.sup.ret = (decide (1900 ≤ a.val) && decide (s.path = ppBAK)) ∧ SameMem s t)

/-- R518 to R520, R529: crystals and PLLs: what becomes ready, what fails, a lock that is lost, and a start without the main
crystal; of what has failed already nothing more is said. -/
def Claims.ClockEvents : Prop :=
  ∀ (s : State),
    let fails (f : Fld) (b : Nat) : State := (((s.clk f false).incF pCLK ⟨CLK.XTAL_CNT, b + 7, b⟩).err pCLK 16)
    (exec (.crystalReady 0) s = .next (s.clk CLK.STAT_X25_OK true).pllLock) ∧
    (exec (.crystalReady 1) s = .next ((s.clk CLK.STAT_X32K_OK true).clk CLK.STAT_RC32_IN_USE false)) ∧
    (exec (.crystalReady 2) s = .next (s.clk CLK.STAT_X156_OK true)) ∧
    (s.flag pCLK CLK.STAT_X32K_OK = true → exec (.crystalFail 1) s = .next
      ((fails CLK.STAT_X32K_OK 8).clk CLK.STAT_RC32_IN_USE true)) ∧
    (s.flag pCLK CLK.STAT_X32K_OK = false → exec (.crystalFail 1) s = .next s) ∧
    (s.flag pCLK CLK.STAT_X156_OK = true → exec (.crystalFail 2) s = .next (fails CLK.STAT_X156_OK 16).serdesDown) ∧
    (s.flag pCLK CLK.STAT_X156_OK = false → exec (.crystalFail 2) s = .next s) ∧
    (s.flag pCLK CLK.STAT_X25_OK = true →
      ((fails CLK.STAT_X25_OK 0).flag pCLK CLK.STAT_BEAM_LOCK = false → exec (.crystalFail 0) s = .next
        (fails CLK.STAT_X25_OK 0)) ∧
      ((fails CLK.STAT_X25_OK 0).flag pCLK CLK.STAT_BEAM_LOCK = true → exec (.crystalFail 0) s = .next
        ((fails CLK.STAT_X25_OK 0).pllLost 2))) ∧
    (s.flag pCLK CLK.STAT_X25_OK = false → exec (.crystalFail 0) s = .next s) ∧
    (∀ i : Fin 3,
      let f := if i.val = 0 then CLK.STAT_APC_LOCK else if i.val = 1 then CLK.STAT_RECK_LOCK else CLK.STAT_BEAM_LOCK
      (s.flag pCLK f = true → exec (.pllUnlock i) s = .next (s.pllLost i)) ∧
      (s.flag pCLK f = false → exec (.pllUnlock i) s = .next s)) ∧
    (s.flag pCLK CLK.STAT_X25_OK = false → s.flag pREST REST.STAT_DEGRADED = false → ∃ u,
      u.flag pREST REST.STAT_DEGRADED = true ∧ u.bit pREST PG.EV_STAT 18 = true ∧
      u.flag pCLK CLK.STAT_RC100_IN_USE = true ∧ u.flag pCLK CLK.STAT_BEAM_LOCK = false ∧
      u.flag pCLK CLK.STAT_RECK_LOCK = true ∧ u.flag pCLK CLK.STAT_APC_LOCK = true ∧ SameMem s u ∧
      exec .degradedStart s = .next (allRods.foldl (fun (t : State) r => t.applySgr r false) u).driveOuts) ∧
    ((s.flag pCLK CLK.STAT_X25_OK = true ∨ s.flag pREST REST.STAT_DEGRADED = true) →
      exec .degradedStart s = .next s)

/-- The parts above: SupplySequences, SupplyPath, ClockEvents. -/
def Obligations.SuppliesAndClocks : Prop :=
  Claims.SupplySequences ∧ Claims.SupplyPath ∧ Claims.ClockEvents

/-- R522 to R526, R533: requests of a deeper state, the entries, which a cause that acts while one runs stops, the causes
that wake, the end of a wake, a domain that lingered, and the AON alarm. -/
def Obligations.DeviceStates : Prop :=
  ∀ (w : Writer) (s : State),
    let quiet := s.mayEnter dvRUN && s.rodsIdle
    let rest := s.mayEnter dvQUIET && s.rodsIdle && !s.stepsMove
    let resting (t : State) : State := (((t.setProc { t.proc with wfi := t.proc.released }).showApc).slotAbandon).restSteps
    let begun (v : Nat) (c : Fin 8) : State :=
      ((s.set pREST REST.STAT_ENTERING 1).setRest { s.rest with entering := v }).wakeCause c
    let stopped (a : State) (go : State → State) : State := if a.flag pREST REST.STAT_ENTERING = true then
      go (a.set pREST REST.STAT_ENTERING 0) else a.set pREST REST.STAT_PENDING 0
    (s.mayAct w pREST →
      (exec (.restAbort w) s = .next ((s.set pREST REST.STAT_PENDING 0).answer w .ok)) ∧
      (∀ t : Fin 8, 4 ≤ t.val → exec (.restRequest w t) s = .next ((s.err pREST 17).answer w .ok)) ∧
      (∀ t : Fin 8, t.val < 4 → s.dev < t.val → ∃ u, exec (.restRequest w t) s = .next u ∧
        u.flag pREST REST.STAT_PENDING = true ∧ u.get pREST REST.STAT_TARGET = t.val ∧
        u.flag pREST REST.STAT_REQ_FAIL = false ∧ u.dev = s.dev ∧
        SameRegs s u [(pREST, REST.REQ), (pREST, REST.STAT)] ∧ SameMem s u)) ∧
    (s.flag pREST REST.STAT_PENDING = true → exec .requestTimeout s = .next
      (((s.set pREST REST.STAT_PENDING 0).set pREST REST.STAT_REQ_FAIL 1).err pREST 16)) ∧
    (s.flag pREST REST.STAT_PENDING = false → exec .requestTimeout s = .next s) ∧
    (quiet = true → exec (.enterQuiet none) s = .next (s.enterState dvQUIET) ∧
      ∀ c, exec (.enterQuiet (some c)) s = .next (stopped (begun dvQUIET c) (fun t => t.enterState dvQUIET))) ∧
    (quiet = false → ∀ c, exec (.enterQuiet c) s = .next s) ∧
    (rest = true → exec (.enterRest none) s = .next (resting s) ∧
      ∀ c, exec (.enterRest (some c)) s = .next (stopped (begun dvREST c) resting)) ∧
    (rest = false → ∀ c, exec (.enterRest c) s = .next s) ∧
    (s.mayEnter dvREST = true → (∀ p ∈ allPages, pageDom p ≠ .aon → s.get p PG.CTL_PWR_REQ ≠ 1) →
      exec (.enterDeep none) s = .next (s.enterState dvDEEP).deepState) ∧
    ((s.mayEnter dvREST = false ∨ ∃ p ∈ allPages, pageDom p ∈ domsDevice ∧ s.get p PG.CTL_PWR_REQ = 1) →
      ∀ c, exec (.enterDeep c) s = .next s) ∧
    (∀ c : Fin 8, (c.val ≠ wcSAFE ∨ s.reg pAON AON.SAFE_WAKE % 256 ≠ 0) →
      exec (.wakeCause c) s = .next (s.wakeCause c)) ∧
    (s.reg pAON AON.SAFE_WAKE % 256 = 0 → exec (.wakeCause 2) s = .next s) ∧
    ((s.flag pREST REST.STAT_WAKING = false ∨ s.slotsUp = false) → ∀ us, exec (.wakeComplete us) s = .next s) ∧
    (∀ us : Fin 1048576, s.flag pREST REST.STAT_WAKING = true → s.slotsUp = true → s.dev = dvQUIET →
      s.rest.wakeTo = dvRUN → s.rest.cause < 8 → ∃ t, exec (.wakeComplete us) s = .next t ∧
        t.flag pREST REST.STAT_WAKING = false ∧ t.dev = dvRUN ∧
        t.reg pREST REST.WAKE_LAST = s.rest.cause * 2 ^ 24 + us.val ∧ t.rest = {} ∧
        SameRegs s t [(pREST, REST.STAT), (pREST, REST.WAKE_LAST), (pREST, PG.EV_STAT)] ∧ SameMem s t) ∧
    (∀ i : Fin 8, domOf i ≠ .rd → s.dom (domOf i) = .active → s.mayRest (domOf i) = true →
      exec (.domainLingerExpire i) s = .next (s.domRest (domOf i))) ∧
    (∀ i : Fin 8, (s.dom (domOf i) ≠ .active ∨ s.mayRest (domOf i) = false) →
      exec (.domainLingerExpire i) s = .next s) ∧
    (s.flag pAON AON.ALARM_CTL_EN = true → exec .aonAlarm s = .next
      ((((s.setReg64 pAON AON.CNT_LO s.alarmAt).set pAON AON.ALARM_CTL_EN 0).ev pAON 16).wakeCause wcTIMER)) ∧
    (s.flag pAON AON.ALARM_CTL_EN = false → exec .aonAlarm s = .next s)

/-! ## The safety functions (spec/16) -/

/-- R391, R393, R403, R413: a safety cycle runs while the kernel may; under the SGR block TRIP_OFF is sent again; the
ages of the trip-path tests are those of the AON counter; SAFE_RST that stays high is jammed; split mode takes none. -/
def Claims.SafetyCycles : Prop :=
  ∀ (s : State),
    (∀ rb busy, s.kernelOk = true → exec (.safetyCycle rb busy) s = .next (s.safetyCycle rb busy)) ∧
    (∀ rb busy, s.kernelOk = false → exec (.safetyCycle rb busy) s = .next s) ∧
    (∀ r : Fin 24, s.sgrBlock r = true →
      exec (.sgrTripResend r) s = .next (s.send (.tripSets r (List.range 12) []))) ∧
    (∀ r : Fin 24, s.sgrBlock r = false → exec (.sgrTripResend r) s = .next s) ∧
    (∃ t, exec .testAgeTick s = .next t ∧ (∀ r : Fin 24, t.get pSAFE (SAFE.MON_STAT_TEST_AGE r) = s.testAge r) ∧
      SameMem s t) ∧
    (s.split = true → exec .resetJammed s = .next s) ∧
    (s.split = false → exec .resetJammed s = .next
      (((s.setSafe { s.safe with jam := true }).set pSAFE SAFE.STAT_JAMMED 1).err pSAFE 19))

/-- R399, R401, R402: an enabled single input that goes low latches a demand on its rods; the first demand after a reset
is recorded; a pair in discrepancy demands; in REST a first low sample is kept for the wake, and a changed level (the
model's level of a sample, log 214) wakes the device where SAFE_WAKE names the input. -/
def Claims.SafetyInputs : Prop :=
  ∀ (i : Fin 8) (s : State), s.split = false →
    (∀ rods, rods = s.get pSAFE (SAFE.IN_CFG_RODS i) → rods ≠ 0 → s.flag pSAFE (SAFE.IN_CFG_EN i) = true →
      s.flag pSAFE (SAFE.IN_CFG_PAIR (i.val / 2 * 2)) = false → s.safe.disc = 0 → ∃ t,
      exec (.safeInLevel i false) s = .next t ∧ t.inHigh i = false ∧ t.inDemand i = true ∧
      t.reg pSAFE SAFE.LATCH = s.reg pSAFE SAFE.LATCH ||| rods ∧
      t.safe.pendLatch = s.safe.pendLatch ||| rods ∧ t.safe.recorded = true ∧
      (s.safe.recorded = true → t.word pSAFE SAFE.CAUSE = s.word pSAFE SAFE.CAUSE) ∧
      (s.safe.recorded = false → t.reg pSAFE SAFE.CAUSE = 2 ^ 24 + i.val ∧ t.reg pSAFE SAFE.CAUSE_RODS = rods) ∧
      SameRegs s t [(pSAFE, SAFE.IN_STAT), (pSAFE, SAFE.LATCH), (pSAFE, SAFE.CAUSE), (pSAFE, SAFE.CAUSE_NS),
        (pSAFE, SAFE.CAUSE_NS + 4), (pSAFE, SAFE.CAUSE_RODS)] ∧ SameMem s t) ∧
    (s.safe.disc = 0 → ∃ t, exec (.safeInLevel i true) s = .next t ∧ t.inHigh i = true ∧
      SameRegs s t [(pSAFE, SAFE.IN_STAT)] ∧ SameMem s t) ∧
    (∀ m : Fin 4, s.inGroup (2 * m.val) = some (2 * m.val, true) →
      s.inHigh (2 * m.val) ≠ s.inHigh (2 * m.val + 1) → ∃ t, exec (.pairDiscrepancy m) s = .next t ∧
      t.safe.disc = s.safe.disc ||| 2 ^ m.val ∧ t.bit pSAFE PG.ERR 20 = true ∧
      t.reg pSAFE SAFE.LATCH = s.reg pSAFE SAFE.LATCH ||| s.get pSAFE (SAFE.IN_CFG_RODS (2 * m.val)) ∧ SameMem s t) ∧
    (∀ m : Fin 4, ((s.inGroup (2 * m.val)).map Prod.snd ≠ some true ∨
      s.inHigh (2 * m.val) = s.inHigh (2 * m.val + 1)) → exec (.pairDiscrepancy m) s = .next s) ∧
    (s.dev ≠ dvREST → ∀ l, exec (.safeInRestSample l) s = .next s) ∧
    (s.dev = dvREST → (∀ j, j < 8 → s.inHigh j = true) →
      exec (.safeInRestSample 255) s = .next s ∧
      ((s.inGroup 0).isSome = true → s.safe.restLow = [] →
        let y := ((s.setSafe { s.safe with restLow := [(0, s.ns)] }).setBit pSAFE SAFE.IN_STAT 8 false).setBit pSAFE
          SAFE.IN_STAT 16 false
        (s.bit pAON AON.SAFE_WAKE 0 = true → exec (.safeInRestSample 254) s = .next (y.wakeCause wcSAFE)) ∧
        (s.bit pAON AON.SAFE_WAKE 0 = false → exec (.safeInRestSample 254) s = .next y)))

/-- The parts above: SafetyCycles, SafetyInputs. -/
def Obligations.SafetyDemands : Prop :=
  Claims.SafetyCycles ∧ Claims.SafetyInputs

/-- R403, R404: a pulse of SAFE_RST from 100 to 3,000 ms is a reset request, a shorter one is an error, a longer one
does nothing, and the first after a jam only ends the jam; a request clears the LATCH bits of the rods that no present
cause names; split mode takes none. -/
def Claims.SafetyResets : Prop :=
  (∀ ms s, State.split s = true → exec (.safetyReset ms) s = .next s) ∧
  (∀ ms s, State.split s = false → s.safe.jam = true → exec (.safetyReset ms) s = .next
    (s.setSafe { s.safe with jam := false })) ∧
  ∀ (s : State), s.split = false → s.safe.jam = false →
    (∀ ms, 100 ≤ ms → ms ≤ 3000 → exec (.safetyReset ms) s = .next ((((s.set pSAFE ⟨SAFE.RST_STAT, 31, 16⟩ ms).set
      pSAFE SAFE.STAT_JAMMED 0).incFW pSAFE ⟨SAFE.RST_STAT, 15, 0⟩).safetyReset)) ∧
    (∀ ms, ms < 100 → exec (.safetyReset ms) s = .next
      ((s.set pSAFE ⟨SAFE.RST_STAT, 31, 16⟩ ms).err pSAFE 18)) ∧
    (∀ ms, 3000 < ms → exec (.safetyReset ms) s = .next s) ∧
    s.safetyReset.reg pSAFE SAFE.LATCH = s.reg pSAFE SAFE.LATCH &&& s.causeRods ∧
    (s.reg pSAFE SAFE.LATCH &&& s.causeRods ≠ 0 → s.safetyReset.bit pSAFE PG.ERR 17 = true) ∧
    s.safetyReset.safe.recorded = false ∧
    (s.sgrHold = true → s.safetyReset.reg pSAFE SAFE.SGR_MAP = s.reg pSAFE SAFE.SGR_MAP) ∧
    (s.sgrHold = false → s.safetyReset.reg pSAFE SAFE.SGR_MAP =
      ((List.range 24).filter (fun r => (s.reg pSAFE SAFE.LATCH).testBit r && !s.causeRods.testBit r)).foldl
        (fun m r => m &&& (2 ^ 32 - 1 - 2 ^ r)) (s.reg pSAFE SAFE.SGR_MAP))

/-- R410, R412, R415, R502, R507: the pair's own faults, none of them taken in split mode. -/
def Claims.PairFaults : Prop :=
  ∀ (a : Fin 131072) (pc : Word) (s : State),
    (s.split = true → exec (.lockstepMismatch pc) s = .next s ∧ exec (.pairWdtFault pc) s = .next s) ∧
    (s.split = false →
      exec (.lockstepMismatch pc) s = .next (s.pairFault (some SPAIR.STAT_MISMATCH) pc.toNat) ∧
      (s.pairHoldDbg = false → exec (.pairWdtFault pc) s = .next (s.pairFault (some SPAIR.STAT_WDT_EXP) pc.toNat)) ∧
      (s.pairHoldDbg = true → exec (.pairWdtFault pc) s = .next s.blockAll) ∧
      exec (.pairEccError .double a pc) s = .next
        ((s.setReg pSPAIR SPAIR.ECC_ADDR (2 ^ 31 + a * 4)).pairFault (some SPAIR.STAT_ECC_FATAL) pc.toNat)) ∧
    (∃ t, exec (.pairEccError .corrected a pc) s = .next t ∧ t.reg pSPAIR SPAIR.ECC_ADDR = a * 4 ∧
      t.get pSPAIR ⟨SPAIR.ECC_CNT, 15, 0⟩ = min (s.get pSPAIR ⟨SPAIR.ECC_CNT, 15, 0⟩ + 1) 65535 ∧
      t.bit pSPAIR PG.EV_STAT 16 = true ∧
      SameRegs s t [(pSPAIR, SPAIR.ECC_ADDR), (pSPAIR, SPAIR.ECC_CNT), (pSPAIR, PG.EV_STAT)] ∧ SameMem s t) ∧
    (s.split = true → exec (.pairEccError .double a pc) s = .next
      (s.setReg pSPAIR SPAIR.ECC_ADDR (2 ^ 31 + a * 4))) ∧
    exec (.pairEccError .clean a pc) s = .next s ∧
    (∀ e, exec (.scrubPass e a pc) s = exec (.pairEccError e a pc) s)

/-- The parts above: SafetyResets, PairFaults. -/
def Obligations.SafetyResetsAndFaults : Prop :=
  Claims.SafetyResets ∧ Claims.PairFaults

/-- R406 to R409: a safe message's number, the copies that are refused and accepted, and the demands of a connection
that falls silent or stays on one network. -/
def Obligations.SafeMessages : Prop :=
  ∀ (s : State),
    (s.flag pSAFE SAFE.MSG_CFG_TX_EN = false → exec .safeMsgTx s = .next s) ∧
    (∀ k conn seq st head b, s.flag pSAFE SAFE.MSG_CFG_TX_EN = true → s.flag pSAFE SAFE.MSG_CFG_ETH_EN = false →
      s.msgKey = some k → conn = s.get pSAFE SAFE.MSG_CFG_CONN →
      seq = (s.reg pSAFE SAFE.MSG_TXSEQ + 1) % 2 ^ 32 →
      st = b2n (s.flag pSAFE SAFE.STAT_SAFE_OK) + 2 * b2n s.split + 4 * b2n (decide (s.reg pSAFE SAFE.LATCH ≠ 0)) →
      head = [0x51, 0x01, s.get pBEAM BEAM.STAT_LOCK, st] ++ leBytes 2 s.addr ++ [conn, 0] ++ leBytes 4 seq ++
        leBytes 8 (s.beam.t / 256) ++ leBytes 2 s.msgDemand ++ List.replicate 10 0 →
      b = head ++ leBytes 4 (crc32cFrom (msgInit s.addr conn) head) ++ List.replicate 12 0 →
      exec .safeMsgTx s = .next (((s.setReg pSAFE SAFE.MSG_TXSEQ seq).setSafe
        { s.safe with sentDemand := s.msgDemand }).fabFlood kdSAFE
          (s.reg pFABR FABR.SAFE_CFG % 64 + s.reg pFABR FABR.SAFE_CFG / 256 % 64 * 64)
          (b ++ gcmTag (aesKeys k) (msgNonce s.addr conn seq) b []))) ∧
    (∀ b, b.length ≠ 64 → s.injArmed pSAFE 8 = false → exec (.safeMsgRx false b) s =
      .next (s.incF pSAFE SAFE.MSG_ERR_CRC)) ∧
    (∀ (eth : Bool) b k j src conn seq, b.length = 64 → src = ofLE ((b.drop 4).take 2) → conn = b.getD 6 0 →
      seq = ofLE ((b.drop 8).take 4) → s.injArmed pSAFE 8 = false → s.injArmed pSAFE 9 = false →
      s.injArmed pSAFE 11 = false → crc32cFrom (msgInit src conn) (b.take 32) = ofLE ((b.drop 32).take 4) →
      s.msgKey = some k → gcmTag (aesKeys k) (msgNonce src conn seq) (b.take 48) [] = b.drop 48 →
      (List.range 16).filter (fun j => s.flag pSAFE (SAFE.RXC_CFG_EN j) &&
        decide (s.get pSAFE (SAFE.RXC_CFG_ADDR j) = src) && decide (s.get pSAFE (SAFE.RXC_CFG_CONN j) = conn)) = [j] →
      let t := ofLE ((b.drop 12).take 8)
      let now := s.beam.t / 256
      let judged := 2 ≤ b.getD 2 0 ∧ 2 ≤ s.get pBEAM BEAM.STAT_LOCK
      let inTime := t ≤ now ∧ now - t ≤ 10000000
      let twin := (s.sconn j).wait.any (fun e => e.1 != eth && ofLE ((e.2.drop 8).take 4) == seq)
      let old := (s.sconn j).heard = true ∧ seq ≤ (s.sconn j).seq ∧ twin = false
      (old → exec (.safeMsgRx eth b) s = .next (s.incF pSAFE SAFE.MSG_ERR_SEQ)) ∧
      (¬ old → judged → ¬ inTime → exec (.safeMsgRx eth b) s = .next (s.incF pSAFE SAFE.MSG_ERR_AGE)) ∧
      (¬ old → (judged → inTime) → exec (.safeMsgRx eth b) s = .next
        (s.connAccept j eth b seq (ofLE ((b.drop 20).take 2))))) ∧
    (∀ j : Fin 16,
      ((s.sconn j).wait = [] → exec (.pairWinExpire j) s = .next s) ∧
      (s.flag pSAFE (SAFE.RXC_CFG_EN j) = false → exec (.safeMsgWdt j) s = .next s ∧
        exec (.singleLimExpire j) s = .next s) ∧
      (∀ e rest, (s.sconn j).wait = e :: rest → ∃ t, exec (.pairWinExpire j) s = .next t ∧
        (t.sconn j).wait = rest ∧ (t.sconn j).single = some ((s.sconn j).single.getD s.beam.t) ∧
        t.flag pSAFE (SAFE.RXC_STAT_SINGLE j) = true ∧ t.bit pSAFE PG.EV_STAT 18 = true ∧
        SameRegs s t [(pSAFE, SAFE.RXC_STAT j), (pSAFE, PG.EV_STAT)] ∧ SameMem s t) ∧
      (s.flag pSAFE (SAFE.RXC_CFG_EN j) = true → s.split = false → s.reg pSAFE (SAFE.RXC_RODS j) % 2 ^ 24 ≠ 0 →
        (∃ t, exec (.safeMsgWdt j) s = .next t ∧ t.flag pSAFE (SAFE.RXC_STAT_VALID j) = false ∧
          t.reg pSAFE SAFE.LATCH = s.reg pSAFE SAFE.LATCH ||| s.reg pSAFE (SAFE.RXC_RODS j) % 2 ^ 24 ∧
          (s.safe.recorded = false → t.reg pSAFE SAFE.CAUSE = 5 * 2 ^ 24 + j.val) ∧ SameMem s t) ∧
        (s.flag pSAFE (SAFE.RXC_STAT_SINGLE j) = true → ∃ t, exec (.singleLimExpire j) s = .next t ∧
          t.flag pSAFE (SAFE.RXC_STAT_VALID j) = false ∧
          t.reg pSAFE SAFE.LATCH = s.reg pSAFE SAFE.LATCH ||| s.reg pSAFE (SAFE.RXC_RODS j) % 2 ^ 24 ∧
          (s.safe.recorded = false → t.reg pSAFE SAFE.CAUSE = 4 * 2 ^ 24 + j.val) ∧ SameMem s t)))

/-! ## Processors and debug (spec/20) -/

/-- R496, R498, R499, R508: memory errors, the timer, the watchdog, and the release of harts. -/
def Claims.Processors : Prop :=
  ∀ (w : Writer) (s : State),
    (s.mayAct w pAPC →
      (∀ v : Fin 65536, s.flag pAPC APC.WDT_CFG_EN = false → ∃ t, exec (.wdtArm w v) s = .next t ∧
        t.flag pAPC APC.WDT_CFG_EN = true ∧ t.get pAPC APC.WDT_CFG_PERIOD = v.val ∧
        t.reg pAPC APC.WDT_REMAIN = (if v.val = 0 then 1000 else v.val) ∧ t.proc.wdtSub = 0 ∧
        SameRegs s t [(pAPC, APC.WDT_CFG), (pAPC, APC.WDT_REMAIN)] ∧ SameMem s t) ∧
      (s.flag pAPC APC.WDT_CFG_EN = true → ∃ t, exec (.wdtKick w 0x0000A5C3) s = .next t ∧
        t.reg pAPC APC.WDT_REMAIN = s.wdtPeriod ∧ SameRegs s t [(pAPC, APC.WDT_REMAIN)] ∧ SameMem s t) ∧
      (∀ v : Word, v ≠ 0x0000A5C3 → exec (.wdtKick w v) s = .next ((s.err pAPC 17).answer w .ok)) ∧
      (∀ en : Fin 16, ∃ t, exec (.hartRelease w en) s = .next t ∧
        t.reg pAPC APC.CTL = en.val ||| 1 ∧ t.proc.released = s.proc.released ||| en.val ∧
        (∀ h, h < 4 → ((Out.hartStart h (s.reg64 pAPC APC.ENTRY_LO) ∈ t.out ↔
          Out.hartStart h (s.reg64 pAPC APC.ENTRY_LO) ∈ s.out ∨
            (en.val.testBit h = true ∧ s.proc.released.testBit h = false)))) ∧
        SameRegs s t [(pAPC, APC.CTL), (pAPC, APC.STAT)] ∧ SameMem s t)) ∧
    (s.wdtRuns = true → exec .wdtHalf s = .next ((s.setReg pAPC APC.WDT_REMAIN (s.wdtPeriod / 2)).ev pAPC 17) ∧
      exec .wdtExpire s = .next (s.resetDoms 3 domsRd)) ∧
    (s.wdtRuns = false → exec .wdtHalf s = .next s ∧ exec .wdtExpire s = .next s) ∧
    (∀ h : Fin 4, s.dev ≠ dvDEEP → ∃ t, exec (.timerInterrupt h) s = .next t ∧ s.mtimecmp h ≤ t.proc.mt / 16 ∧
      t.out = s.out ++ [.hartIrq h 7] ∧
      (s.dom .rd = .active → t.proc.wfi.testBit h = false) ∧ SameRegs s t [(pAPC, APC.STAT)] ∧ SameMem s t) ∧
    (s.dev = dvDEEP → ∀ h, exec (.timerInterrupt h) s = .next s) ∧
    (∀ (a : Fin 1099511627776) (h : Fin 4), ∃ t, exec (.eccDoubleError true a (some h)) s = .next t ∧
      t.out = s.out ++ [.memFault h a] ∧ t.reg64 pAPC APC.DDR_ECC_ADDR_LO = a.val ∧ t.bit pAPC PG.ERR 16 = true ∧
      t.bit pAPC PG.EV_STAT 16 = true ∧ t.proc = s.proc ∧ SameMem s t) ∧
    (∀ a : Fin 1099511627776, ∃ t, exec (.eccDoubleError false a none) s = .next t ∧ t.out = s.out ∧
      t.reg64 pAPC APC.L2_ECC_ADDR_LO = a.val ∧ a.val / 64 ∈ t.proc.poison ∧ SameMem s t)

/-- R504 to R507: the JTAG instructions, the boundary-scan instructions by life-cycle state, and the debugger's halts.
IDCODE, SAMPLE and BYPASS are taken in FIELD; the instructions that drive pins are not, nor in RMA or later. -/
def Claims.DebugPort : Prop :=
  ∀ (s : State) (sel : Nat → State), sel = (fun c => s.set pDBG ⟨DBG.STAT, 4, 0⟩ c) →
    exec .idcode s = .next ((sel 1).send (.tdo 1 idcode)) ∧
    exec .bypass s = .next (sel 31) ∧
    (s.lifeSt < 4 → exec .samplePreload s = .next (sel 2)) ∧
    (4 ≤ s.lifeSt → exec .samplePreload s = .next (sel 31)) ∧
    (s.lifeSt = 2 ∨ 4 ≤ s.lifeSt → exec .extest s = .next (sel 31) ∧ exec .extestPulse s = .next (sel 31) ∧
      exec .extestTrain s = .next (sel 31) ∧ exec .clamp s = .next (sel 31) ∧ exec .highz s = .next (sel 31)) ∧
    (s.lifeSt < 2 ∨ s.lifeSt = 3 → exec .extest s = .next (s.scanTake 3) ∧ exec .extestPulse s = .next (s.scanTake 4) ∧
      exec .extestTrain s = .next (s.scanTake 5) ∧ exec .clamp s = .next (s.scanTake 6) ∧
      exec .highz s = .next (s.scanTake 7)) ∧
    (∃ t, exec .tapReset s = .next t ∧ t.safe.scan = false ∧ t.flag pDBG DBG.STAT_EXT_SCAN = false ∧
      SameRegs s t [(pDBG, DBG.STAT)] ∧ SameMem s t) ∧
    (∃ v, exec .dtmcs s = .next ({ sel 16 with freeCtr := s.freeCtr + 1 }.send (.tdo 16 v))) ∧
    (∀ (a : Fin 128) (wr : Bool) (v : Word), 4 ≤ s.lifeSt → ∃ t, exec (.dmi a wr v none) s = .next t ∧
      t.reg pDBG DBG.LAST_REF = 2 ^ 31 + a.val ∧ t.bit pDBG PG.ERR 16 = true ∧
      t.reg pDBG DBG.REFUSED = min (s.reg pDBG DBG.REFUSED + 1) 0xFFFFFFFF ∧ SameMem s t) ∧
    (∀ b : Bool, s.lifeSt < 2 → exec (.dmi 0x10 true (if b then 1 else 0) none) s = .next
      ((sel 17).setB pDBG DBG.STAT_DM_ACTIVE b)) ∧
    (∀ h : Fin 6, s.dbgOpen h = false →
      exec (.debugHalt h) s = .next (s.dmiRefused 0x10) ∧ exec (.debugResume h) s = .next (s.dmiRefused 0x10)) ∧
    (∀ h : Fin 4, s.dbgOpen h = true →
      (∃ t, exec (.debugHalt ⟨h, by omega⟩) s = .next t ∧ t.bit pAPC APC.STAT (8 + h) = true ∧
        t.bit pDBG DBG.STAT (8 + h) = true ∧ t.bit pDBG PG.EV_STAT 16 = true ∧ SameMem s t) ∧
      (∃ t, exec (.debugResume ⟨h, by omega⟩) s = .next t ∧ t.bit pAPC APC.STAT (8 + h) = false ∧
        t.bit pDBG DBG.STAT (8 + h) = false ∧ SameMem s t)) ∧
    (s.dbgOpen 4 = true → s.split = false → ∃ t, exec (.debugHalt 4) s = .next t ∧
      t.flag pSPAIR SPAIR.STAT_DBG_HALTED = true ∧ t.flag pSAFE SAFE.STAT_KERNEL = false ∧ SameMem s t)

/-- The parts above: Processors, DebugPort. -/
def Obligations.ProcessorsAndDebug : Prop :=
  Claims.Processors ∧ Claims.DebugPort

/-! ## The fabric (spec/17) -/

/-- R416 to R421, R424: what moves a link from one state to the next: block lock, HELLO frames and their checks, of which
the first that fails is the fault's reason, a peer that changes, timeouts, losses, and the end of a hold; in other states
than a row's, nothing moves. -/
def Claims.FabLinkStates : Prop :=
  ∀ (l : Fin 4) (s : State),
    let x := s.fab l
    let p := pFAB l
    let dark := (s.set p FAB.STAT_BLOCK_LOCK 0).set p FAB.STAT_FEC_LOCK 0
    (s.fabSt l = flTRAIN → ∃ t, exec (.fabBlockLock l) s = .next t ∧ t.fabSt l = flHELLO ∧
      t.flag p FAB.STAT_BLOCK_LOCK = true ∧ t.flag p FAB.STAT_FEC_LOCK = s.flag p FAB.CFG_FEC ∧
      SameRegs s t [(p, FAB.STAT), (p, PG.EV_STAT)] ∧ SameMem s t) ∧
    (s.fabSt l ≠ flTRAIN → exec (.fabBlockLock l) s = .next s) ∧
    (s.fabSt l = flHELLO ∨ s.linkUp l = true → exec (.helloTx l) s = .next (s.send (.lcf l (.hello
      { sysId := s.reg pFABR FABR.SYS_ID, addr := s.addr, link := l, na := s.nA, nb := s.nB, seen := x.seen
        fec := s.flag p FAB.CFG_FEC, boot := s.get pBEADS BEADS.DEV_STAT_BOOT, ms := s.ms })))) ∧
    (s.fabSt l ≠ flHELLO → s.linkUp l = false → exec (.helloTx l) s = .next s) ∧
    (exec (.helloRx l none) s = .next (s.incSat p FAB.CRCERR)) ∧
    (∀ h : Hello,
      let c := s.helloCheck l h
      (c = 0 ↔ h.sysId = s.reg pFABR FABR.SYS_ID ∧ h.na = s.nA ∧ h.nb = s.nB ∧ h.addr ≠ s.addr ∧
        h.addr = s.neighbour l ∧ h.link = peerLink l) ∧
      (s.fabSt l = flHELLO →
        (c = 0 → h.seen = false → exec (.helloRx l (some h)) s = .next
          (s.setFab l { x with hello := some h, seen := true })) ∧
        (c = 0 → h.seen = true → exec (.helloRx l (some h)) s = .next
          ((s.setFab l { x with hello := some h, seen := true }).linkResync l h)) ∧
        (c ≠ 0 → exec (.helloRx l (some h)) s = .next
          ((((s.setFab l { x with hello := some h }).set p FAB.STAT_FAULT c).err p 17).setFabSt l flFAULT).coordCheck)) ∧
      (s.fabSt l = flFAULT → exec (.helloRx l (some h)) s = .next (s.setFab l { x with hello := some h })) ∧
      (s.fabSt l = flUP →
        let same := s.reg p FAB.PEER % 2 ^ 28 = h.addr % 4096 * 2 ^ 16 + h.boot % 65536
        (same → exec (.helloRx l (some h)) s = .next s) ∧
        (¬ same → exec (.helloRx l (some h)) s = .next (s.linkHold l 5))) ∧
      (x.hello = some h → s.fabSt l = flFAULT → c = 0 → exec (.faultRecheck l) s = .next (s.linkResync l h)) ∧
      (x.hello = some h → (s.fabSt l ≠ flFAULT ∨ c ≠ 0) → exec (.faultRecheck l) s = .next s)) ∧
    (x.hello = none → exec (.faultRecheck l) s = .next s) ∧
    (s.fabSt l = flHELLO → exec (.helloTimeout l) s = .next (s.linkTrain l)) ∧
    (s.fabSt l ≠ flHELLO → exec (.helloTimeout l) s = .next s) ∧
    (s.fabSt l = flRESYNC → exec (.resyncTimeout l) s = .next (s.linkHold l 4)) ∧
    (s.fabSt l ≠ flRESYNC → exec (.resyncTimeout l) s = .next s) ∧
    (s.linkUp l = true → exec (.linkSilent l) s = .next (s.linkHold l 2) ∧
      exec (.blockLockLoss l) s = .next (dark.linkHold l 1)) ∧
    (s.linkUp l = false → exec (.linkSilent l) s = .next s ∧ exec (.blockLockLoss l) s = .next dark) ∧
    (s.fabSt l = flHOLD → exec (.holdEnd l) s = .next ((s.set p FAB.STAT_FLAP 0).linkTrain l).coordCheck) ∧
    (s.fabSt l ≠ flHOLD → exec (.holdEnd l) s = .next s) ∧
    (s.fabSt l = flDOWN → exec (.coordWaitExpire l) s = .next s) ∧
    (s.fabSt l ≠ flDOWN → exec (.coordWaitExpire l) s = .next (s.setFab l { x with waited := true }).coordCheck)

/-- R423 to R427, R431: parcels in their order or the NAK, acknowledgements, credits, replays and the
resynchronisation of credits. -/
def Claims.FabSequence : Prop :=
  ∀ (l : Fin 4) (s : State),
    (s.linkLive l = false → (∀ p, exec (.parcelRx l p) s = .next s) ∧ exec (.statusTx l) s = .next s ∧
      (∀ m, exec (.statusRx l m) s = .next s) ∧ exec (.replayTimeout l) s = .next s ∧
      (∀ mask next, exec (.resyncReqRx l mask next) s = .next s) ∧ exec (.resyncReqResend l) s = .next s ∧
      ∀ mask freed, exec (.resyncAckRx l mask freed) s = .next s) ∧
    (s.linkLive l = true →
      exec (.statusTx l) s = .next (s.send (.lcf l (.status
        { ack := (s.fab l).rxNext, nak := (s.fab l).nak, freed := (s.fab l).freed }))) ∧
      exec (.parcelRx l none) s = .next ((s.incSat (pFAB l) FAB.CRCERR).nakSet l) ∧
      (∀ p : Parcel, p.lsn % 4096 ≠ (s.fab l).rxNext → exec (.parcelRx l (some p)) s = .next (s.nakSet l)) ∧
      (∀ p : Parcel, p.lsn % 4096 = (s.fab l).rxNext → ∃ u, u = (s.setFab l { s.fab l with
          rxNext := ((s.fab l).rxNext + 1) % 4096, nak := false }).inc (pFAB l) FAB.RXCNT ∧
        (p.len = 0 ∨ vcBytes p.vc < 4 * p.len → exec (.parcelRx l (some p)) s = .next
          ((u.incF (pFAB l) FAB.DISCARD_LEN).discardRx l p).pump) ∧
        (p.len ≠ 0 → 4 * p.len ≤ vcBytes p.vc → kindVc p.kind ≠ some p.vc → exec (.parcelRx l (some p)) s = .next
          (((u.incF (pFAB l) FAB.DISCARD_KIND).discardRx l p).sweep l).pump) ∧
        (p.len ≠ 0 → 4 * p.len ≤ vcBytes p.vc → kindVc p.kind = some p.vc → exec (.parcelRx l (some p)) s = .next
          (((u.acceptRx l p).bulkTake l).sweep l).pump)) ∧
      (∀ m : LinkStatus, s.injArmed (pFAB l) 1 = false → m.nak = false → (s.fab l).resync = 15 →
        exec (.statusRx l m) s = .next (s.setFab l { s.fab l with
          unacked := (s.fab l).unacked.filter (fun p => decide ((p.lsn + 4096 - m.ack % 4096) % 4096 < 2048))
          replays := if ((s.fab l).unacked.filter (fun p =>
              decide ((p.lsn + 4096 - m.ack % 4096) % 4096 < 2048))).length < (s.fab l).unacked.length then 0
            else (s.fab l).replays }).pump) ∧
      exec (.replayTimeout l) s = .next (s.replay l).pump ∧
      (∀ (mask : Fin 16) (next : Fin 4096), exec (.resyncReqRx l mask next) s = .next
        ((s.setFab l { s.fab l with req := some (mask.val, next.val) }).sweep l)) ∧
      ((s.fab l).resync ≠ 0 → exec (.resyncReqResend l) s = .next
        (s.send (.lcf l (.resyncReq (s.fab l).resync (s.fab l).txNext)))) ∧
      (∀ freed u, (s.fab l).resync = 1 → u = (s.setFab l { s.fab l with
          last := (s.fab l).last.set 0 (freed.getD 0 0 % 65536) }).set (pFAB l) (credFld 0) (vcCredits 0) →
        (s.fabSt l = flUP → exec (.resyncAckRx l 1 freed) s = .next
          ((u.setFab l { u.fab l with resync := 0 }).set (pFAB l) FAB.STAT_RESYNC_PEND 0).pump) ∧
        (s.fabSt l = flRESYNC → exec (.resyncAckRx l 1 freed) s = .next
          (((((u.setFab l { u.fab l with resync := 0 }).set (pFAB l) FAB.STAT_RESYNC_PEND 0).setFabSt l flUP).ev
            (pFAB l) 17).coordCheck.pump)))) ∧
    (∀ (v : Fin 4) (f d : Nat), (s.fab l).resync = 0 → d = (f + 65536 - (s.fab l).last.getD v 0) % 65536 →
      s.get (pFAB l) (credFld v) + d ≤ vcCredits v →
      (s.creditReturn l v f).get (pFAB l) (credFld v) = s.get (pFAB l) (credFld v) + d)

/-- The parts above: FabLinkStates, FabSequence. -/
def Obligations.FabLinks : Prop :=
  Claims.FabLinkStates ∧ Claims.FabSequence

/-- R432, R435 to R440: ANNOUNCE, devices that fall silent, the transaction engine's responses and timeouts, requests
of other devices, and parcels that nobody takes. -/
def Obligations.FabTransactions : Prop :=
  ∀ (l : Fin 5) (s : State),
    ((s.fabConf && s.coordOk) = false → exec .announceTx s = .next s) ∧
    ((s.fabConf && s.coordOk) = true → ∃ u, u = (s.setFineBit s.addr s.fineLock).lagUpdate ∧ exec .announceTx s = .next
      (u.fabFlood kdANNOUNCE 0 (leBytes 4 (u.reg pFABR FABR.SYS_ID) ++ leBytes 2 (u.get pBEADS BEADS.DEV_STAT_BOOT) ++
        [u.ms, u.get pBEAM BEAM.STAT_LOCK, u.linksUp + 16 * maskOf u.linksEn] ++ List.replicate 7 0))) ∧
    (∀ (k : Fin 4) p, s.waiting k [kdANNOUNCE] = some p → exec (.announceRx k) s = .next
      ((s.takeWaiting k [kdANNOUNCE]).announce p.src (Parcel_data p))) ∧
    (∀ k : Fin 4, s.waiting k [kdANNOUNCE] = none → exec (.announceRx k) s = .next s) ∧
    (∀ a : Fin 4096, (a.val = s.addr ∨ s.discReach a = false) → exec (.deviceUnreachable a) s = .next s) ∧
    (s.waiting l [kdBRSP] = none → exec (.brspRx l) s = .next s) ∧
    (s.waiting l [kdBREQ] = none → ∀ e, exec (.breqRx l e) s = .next s) ∧
    (∀ a : Fin 4096, a.val ≠ s.addr → s.discReach a = true → exec (.deviceUnreachable a) s = .next
      (((s.setReach a false).fabNotice a).lagUpdate.homeReachChanged)) ∧
    (∀ (w : Writer) (v : Word), s.mayAct w pFABR → s.txqSize = 0 → ∃ t, exec (.txqWrWrite w v) s = .next t ∧
      t.reg pFABR FABR.TXQ_WR = v.toNat % 65536 ∧ SameRegs s t [(pFABR, FABR.TXQ_WR)] ∧ SameMem s t) ∧
    (∀ (w : Writer) (v : Word), s.mayAct w pFABR → exec (.txqWrWrite w v) s = .next ((s.txqWrWrite v).answer w .ok)) ∧
    (∀ tag : Fin 65536,
      let hit := s.router.txns.find? (fun t => t.tag == tag.val)
      (hit = none → exec (.txnTimeout tag) s = .next s) ∧
      (∀ x, hit = some x → exec (.txnTimeout tag) s = .next
        ((s.incF pFABR FABR.TXN_CNT_TIMEOUT).txnEnd x 6 0 0))) ∧
    (∀ p u, s.waiting l [kdBRSP] = some p → u = s.takeWaiting l [kdBRSP] →
      let b := Parcel_data p
      let hit := u.router.txns.find? (fun t => t.tag == p.tag)
      (hit = none → exec (.brspRx l) s = .next (u.incF pFABR FABR.TXN_CNT_LATE)) ∧
      (∀ x, hit = some x →
        let ends (v : State) : State := v.txnEnd x (b.getD 0 0 % 8) (b.getD 1 0) (ofLE ((b.drop 2).take 2))
        ((x.wr = true ∨ b.getD 0 0 % 8 ≠ 0) → exec (.brspRx l) s = .next (ends u)) ∧
        (x.wr = false → b.getD 0 0 % 8 = 0 → exec (.brspRx l) s = .next
          (ends (u.setMemBytes x.buf ((b.drop 4).take (4 * x.count))))))) ∧
    (∀ p u b n a, s.waiting l [kdBREQ] = some p → u = s.takeWaiting l [kdBREQ] → b = Parcel_data p →
      n = ofLE ((b.drop 6).take 2) → (b.getD 0 0).testBit 0 = false →
      a = { w := .remote (Fin.ofNat 4096 p.src), page := ofLE ((b.drop 2).take 2) % 4096
            off := ofLE ((b.drop 4).take 2) % 4096, data := none, count := n, tag := some p.tag } →
      exec (.breqRx l .double) s = .next (u.answerAcc a .integrity 0 []) ∧
      (ownerPage a.page = none → exec (.breqRx l .clean) s = .next (u.answerAcc a .noPage 0 [])) ∧
      ((ownerPage a.page).isSome = true → p.len ≠ 2 → exec (.breqRx l .clean) s = .next
        (u.answerAcc a .badLength 0 [])) ∧
      ((ownerPage a.page).isSome = true → p.len = 2 → exec (.breqRx l .clean) s = .next (u.transact a p.wake))) ∧
    (s.waiting l [kdANNOUNCE, kdBREQ, kdBRSP, kdBULK] = none → exec (.deliverDrop l) s = .next s) ∧
    (∀ p, s.waiting l [kdANNOUNCE, kdBREQ, kdBRSP, kdBULK] = some p →
      let u := (s.takeWaiting l [kdANNOUNCE, kdBREQ, kdBRSP, kdBULK]).incF pFABR FABR.NOROUTE_CNT_DELIVER_DROP
      (p.kind ≠ kdBREQ → exec (.deliverDrop l) s = .next u) ∧
      (p.kind = kdBREQ → exec (.deliverDrop l) s = .next (u.originate (localAnswer p false true)).pump))

/-! ## The gate and plant Ethernet (spec/18) -/

/-- R450, R457, R460, R463: connections, records, the opening of a session, new keys of one, its refusal and its close. -/
def Claims.GateSessions : Prop :=
  ∀ (w : Writer) (k : Fin 2) (n : Fin 1024) (s : State),
    (∀ b, s.en (pETH k) = true → s.flag (pETH k) ETH.STAT_LINK = true → s.openSess.length < 1024 →
      (s.eth 0).hs.length + (s.eth 1).hs.length < 64 → ∃ h, h < 65536 ∧ exec (.connectionArrival k b) s = .next
        (((({ s.inc (pETH k) ETH.RX_FRAMES with freeCtr := s.freeCtr + 1 } : State).setEth k
          { s.eth k with hs := (s.eth k).hs ++ [h] }).ethFrame k b).send (.handshake k h))) ∧
    (∀ b, s.en (pETH k) = true → s.flag (pETH k) ETH.STAT_LINK = true → s.openSess.length < 1024 →
      64 ≤ (s.eth 0).hs.length + (s.eth 1).hs.length → exec (.connectionArrival k b) s = .next
        (((s.inc (pETH k) ETH.RX_FRAMES).incSat pGATE GATE.HS_REFUSED).send (.connRefused k false))) ∧
    (∀ b, (s.en (pETH k) = false ∨ s.flag (pETH k) ETH.STAT_LINK = false) →
      exec (.connectionArrival k b) s = .next s) ∧
    (∀ b, s.en (pETH k) = true → s.flag (pETH k) ETH.STAT_LINK = true → 1024 ≤ s.openSess.length →
      exec (.connectionArrival k b) s = .next ((((s.inc (pETH k) ETH.RX_FRAMES).incSat pGATE GATE.HS_REFUSED).err
        pGATE 16).send (.connRefused k true))) ∧
    ((s.ses n).isOpen = true → (s.ses n).kind ≠ 2 →
      exec (.recordRx n 23 none) s = .next (s.closeSess n 9) ∧
      (∀ ct : Nat, exec (.recordRx n ct none) s = .next (s.closeSess n 9)) ∧
      (∀ b u, u = (if s.dom .rd = .active then s else s.wakeDom .rd) →
        exec (.recordRx n 23 (some b)) s = .next (u.setSes n { s.ses n with inq := (s.ses n).inq ++ [b] }) ∧
        exec (.recordRx n 22 (some b)) s = .next
          ((u.setSes n { s.ses n with rekey := true }).ethFrame (s.ses n).kind b) ∧
        ∀ ct : Nat, ct ≠ 22 → ct ≠ 23 → exec (.recordRx n ct (some b)) s = .next u)) ∧
    (((s.ses n).isOpen = false ∨ (s.ses n).kind = 2) → ∀ ct m, exec (.recordRx n ct m) s = .next s) ∧
    (exec (.sessionPeerClose n true) s = .next (s.closeSess n 2) ∧
      exec (.sessionPeerClose n false) s = .next (s.closeSess n 1)) ∧
    exec (.sessionIdle n) s = .next (s.closeSess n 3) ∧
    ((s.ses n).isOpen = false → ∀ reason, s.closeSess n reason = s) ∧
    ((s.ses n).isOpen = true → (s.ses n).chans = [] → (s.ses n).kind ≠ 2 → ∃ t, exec (.sessionIdle n) s = .next t ∧
      (t.ses n).isOpen = false ∧ (t.ses n).reason = 3 ∧ (t.ses n).keys = [] ∧ (t.ses n).inq = [] ∧
      t.bit pGATE PG.EV_STAT 17 = true ∧ t.out = s.out ++ [.sessClose n none] ∧
      (∀ p, t.holdsLease (.session n) p = false) ∧ SameMem s t) ∧
    (s.mayAct w pGATE → n.val = s.reg pGATE GATE.SESS_SEL % 1024 →
      (exec (.sessClose w) s = .next ((s.closeSess n 4).answer w .ok)) ∧
      ((s.ses n).isOpen = true → (s.ses n).rekey = true → exec (.sessOpen w) s = .next ((s.setSes n { s.ses n with
        keys := s.memBytes (s.reg64 pGATE GATE.KEYADDR_LO) 88, rekey := false }).answer w .ok)) ∧
      ((s.ses n).isOpen = false → s.grantValid n = true → s.en pGATE = true →
        ((s.reg pGATE GATE.OPEN_CFG).testBit 31 = false ∨ (s.reg pGATE GATE.OPEN_CFG).testBit 30 = true) →
        let kind := if s.reg pGATE GATE.OPEN_CFG / 2 ^ 30 = 1 then 1 else 0
        ∃ t, exec (.sessOpen w) s = .next t ∧ (t.ses n).isOpen = true ∧ (t.ses n).kind = kind ∧
          (t.ses n).ref = s.reg pGATE GATE.OPEN_REF % 65536 ∧
          (t.eth kind).hs = (s.eth kind).hs.erase (s.reg pGATE GATE.OPEN_REF % 65536) ∧
          (t.ses n).bucket = 1000 * (s.grantWord n 8 % 65536) ∧
          (t.ses n).keys = s.memBytes (s.reg64 pGATE GATE.KEYADDR_LO) 88 ∧ t.bit pGATE PG.EV_STAT 16 = true ∧
          SameRegs s t [(pGATE, PG.EV_STAT)] ∧ SameMem s t) ∧
      ((s.ses n).isOpen = false → s.grantValid n = true → s.en pGATE = true →
        (s.reg pGATE GATE.OPEN_CFG).testBit 31 = true → (s.reg pGATE GATE.OPEN_CFG).testBit 30 = false →
        let entry := bitsOf (s.reg pGATE GATE.OPEN_CFG) 27 16
        let chan := s.reg pGATE GATE.OPEN_CFG % 16
        let ref := s.reg pGATE GATE.OPEN_REF % 65536
        exec (.sessOpen w) s = .next ((((((s.setSes n { s.ses n with
          isOpen := true, kind := 2, entry := entry, chan := chan, ref := ref
          bucket := 1000 * (s.grantWord n 8 % 65536), nopage := 0
          keys := s.memBytes (s.reg64 pGATE GATE.KEYADDR_LO) 88, rekey := false, chans := [], inq := []
          svc := [] }).ev pGATE 16).setGate { s.gate with reqs := s.gate.reqs.filter (fun r =>
            !(r.src == entry && r.chan == chan && r.esess == ref % 1024)) }).showReq).tunSend entry topACK
          { code := 0, esess := ref % 1024, chan := chan, tsess := n }).answer w .ok)) ∧
      (((s.ses n).isOpen = true ∧ (s.ses n).rekey = false ∨
          (s.ses n).isOpen = false ∧ (s.grantValid n = false ∨ s.en pGATE = false)) →
        exec (.sessOpen w) s = .next (((s.err pGATE 17).countRefused w pGATE .writeRefused).answer w .writeRefused)) ∧
      (s.gate.reqs = [] → exec (.sessRefuse w) s = .next (s.answer w .ok)) ∧
      (∀ r rest, s.gate.reqs = r :: rest → exec (.sessRefuse w) s = .next
        ((((s.setGate { s.gate with reqs := rest }).showReq).tunSend r.src topACK
          { code := 4, esess := r.esess, chan := r.chan }).answer w .ok)))

/-- R451 to R459, R462: the gate's decision, the token bucket, reads and writes past the gate, service messages. -/
def Claims.SessionRequests : Prop :=
  ∀ (w : Writer) (n : Fin 1024) (s : State),
    (((s.ses n).inq = [] ∨ (s.ses n).isOpen = false ∨ (s.ses n).rekey = true ∨ 64 ≤ SessX_out (s.ses n) ∨
      s.dom .rd ≠ .active) → exec (.gateDecision n) s = .next s) ∧
    (∀ b rest r u, (s.ses n).inq = b :: rest → (s.ses n).isOpen = true → (s.ses n).rekey = false →
      SessX_out (s.ses n) < 64 → s.dom .rd = .active → r = parseReq b → u = s.setSes n { s.ses n with inq := rest } →
      let noPage : State := (u.setSes n { u.ses n with nopage := min ((u.ses n).nopage + 1) 0xFFFFFFFF }).sessReply n r
        .noPage 0 0 []
      let paid : State := u.setSes n { u.ses n with bucket := (u.ses n).bucket - 1000 * reqCost r }
      let tunnelled : Prop := r.chan ≠ 0 ∧ (r.ty = 1 ∨ r.ty = 2 ∨ r.ty = 8) ∧ (u.ses n).kind ≠ 2
      (reqBad b = true → exec (.gateDecision n) s = .next
        (u.sessSend n (respBytes (b.getD 0 0) (b.getD 2 0) (if 8 ≤ b.length then r.tag else 0) 7 0 0 []))) ∧
      (reqBad b = false → tunnelled →
        ((SessX_chan (u.ses n) r.chan).all (fun c => !c.up) = true → exec (.gateDecision n) s = .next noPage) ∧
        (∀ c, SessX_chan (u.ses n) r.chan = some c → c.up = true →
          (4076 < b.length → exec (.gateDecision n) s = .next (u.sessReply n r .badLength 0 0 [])) ∧
          (b.length ≤ 4076 → exec (.gateDecision n) s = .next
            (u.tunData c.dst topREQ { esess := n, chan := c.c, tsess := c.tsess, data := b })))) ∧
      (reqBad b = false → ¬ tunnelled →
        (u.reqNoPage n r = true → exec (.gateDecision n) s = .next noPage) ∧
        (u.reqNoPage n r = false → (u.ses n).bucket < 1000 * reqCost r → exec (.gateDecision n) s = .next
          (u.sessReply n r .busy 0 0 [])) ∧
        (u.reqNoPage n r = false → 1000 * reqCost r ≤ (u.ses n).bucket → reqLenBad r = true →
          exec (.gateDecision n) s = .next (paid.sessReply n r .badLength 0 0 [])) ∧
        (u.reqNoPage n r = false → 1000 * reqCost r ≤ (u.ses n).bucket → reqLenBad r = false → ∃ t,
          exec (.gateDecision n) s = .next t ∧
          (t.ses n).bucket = (s.ses n).bucket - 1000 * reqCost r ∧ (t.ses n).passed = (s.ses n).passed ++ [r] ∧
          (t.ses n).inq = rest ∧ t.out = s.out ∧ SameRegs s t [] ∧ SameMem s t ∧
          (∀ o, ownerPage r.page = some o → u.reqWaits n r = true → s.dom (pageDom o) ≠ .waking →
            t.dom (pageDom o) = .waking)))) ∧
    (s.openSess = [n.val] → exec .tokenRefill s = .next (s.setSes n { s.ses n with
      bucket := min ((s.ses n).bucket + s.grantWord n 4 % 2 ^ 24) (1000 * (s.grantWord n 8 % 65536)) })) ∧
    ((s.sess.map Prod.fst).Nodup → ∃ t, exec .tokenRefill s = .next t ∧ (∀ k, t.ses k =
      if (s.ses k).isOpen then { s.ses k with
        bucket := min ((s.ses k).bucket + s.grantWord k 4 % 2 ^ 24) (1000 * (s.grantWord k 8 % 65536)) }
      else s.ses k) ∧ SameRegs s t [] ∧ SameMem s t) ∧
    (∀ r u, s.takeReq n 1 = some (r, u) →
      (ownerPage r.page = none → exec (.sessionRead n) s = .next (u.sessReply n r .noPage 0 0 [])) ∧
      ((ownerPage r.page).isSome = true → u.burstRests r.page r.off r.count = true →
        exec (.sessionRead n) s = .next (u.sessReply n r .domainResting 0 0 [])) ∧
      ((ownerPage r.page).isSome = true → u.burstRests r.page r.off r.count = false →
        exec (.sessionRead n) s = .next ((u.burstRead (.session n) r.page r.off r.count).1.sessReply n r .ok 0 r.count
          (wordBytes (u.burstRead (.session n) r.page r.off r.count).2)))) ∧
    (∀ r u q, s.takeReq n 2 = some (r, u) →
      q = u.burstWrite (.session n) r.page r.off (bytesWords r.count r.data)
        (fun s o v => s.wordRight n r.page o v) →
      (ownerPage r.page = none → exec (.sessionWrite n) s = .next (u.sessReply n r .noPage 0 0 [])) ∧
      ((ownerPage r.page).isSome = true → u.burstRests r.page r.off r.count = true →
        exec (.sessionWrite n) s = .next (u.sessReply n r .domainResting 0 0 [])) ∧
      ((ownerPage r.page).isSome = true → u.burstRests r.page r.off r.count = false →
        exec (.sessionWrite n) s = .next (q.1.sessReply n r q.2.1 0 q.2.2 []))) ∧
    (s.takeReq n 1 = none → exec (.sessionRead n) s = .next s) ∧
    (s.takeReq n 2 = none → exec (.sessionWrite n) s = .next s) ∧
    (s.takeReq n 8 = none → exec (.service n) s = .next s) ∧
    (∀ r u l, s.takeReq n 8 = some (r, u) → l = leBytes 2 r.count ++ leBytes 2 n ++ [r.chan, 0, 0, 0] ++
        leBytes 4 (u.grantWord n 0) ++ leBytes 4 r.tag ++ r.data →
      let put := u.ringPut (u.reg pGATE GATE.SVC_BASE_LO / 65536 * 65536 + u.reg pGATE GATE.SVC_BASE_HI % 256 * 2 ^ 32)
        (u.reg pGATE GATE.SVC_SIZE % 65536 * 65536) (u.reg pGATE GATE.SVC_WR) (u.reg pGATE GATE.SVC_RD)
        (l ++ List.replicate ((16 - l.length % 16) % 16) 0) (fun _ => [])
      ((u.reg pGATE GATE.SVC_SIZE % 65536 = 0 ∨ put = none) →
        exec (.service n) s = .next (u.sessReply n r .busy 0 0 [])) ∧
      (u.reg pGATE GATE.SVC_SIZE % 65536 ≠ 0 → ∀ v wr, put = some (v, wr) →
        ∃ t, t = (v.setReg pGATE GATE.SVC_WR wr).ev pGATE 19 ∧ exec (.service n) s = .next
          (if r.mute then t else t.setSes n { t.ses n with svc := (t.ses n).svc ++ [r.tag] }))) ∧
    (∀ v : Word, s.mayAct w pGATE → v.toNat < 2 ^ 31 → exec (.serviceReply w v) s = .next
      ((s.setWord pGATE GATE.SVC_RSP_CTL (maskW v 0x73FF07FF)).answer w .ok)) ∧
    (∀ (v : Word) u x, s.mayAct w pGATE → 2 ^ 31 ≤ v.toNat →
      u = s.setWord pGATE GATE.SVC_RSP_CTL (maskW v 0x73FF07FF) → x = u.ses (bitsOf v.toNat 25 16) →
      exec (.serviceReply w v) s = .next (((u.setSes (bitsOf v.toNat 25 16) { x with
        svc := x.svc.erase (u.reg pGATE GATE.SVC_RSP_TAG) }).sessSend (bitsOf v.toNat 25 16)
          (respBytes 8 x.chan (u.reg pGATE GATE.SVC_RSP_TAG) (bitsOf v.toNat 30 28) 0 0
            (u.memBytes (u.reg64 pGATE GATE.SVC_RSP_LO) (v.toNat % 2048)))).answer w .ok))

/-- The parts above: GateSessions, SessionRequests. -/
def Obligations.Sessions : Prop :=
  Claims.GateSessions ∧ Claims.SessionRequests

/-- R449, R461 to R465, R471: tunnels from their entry and at their target, and the frames of plant Ethernet. -/
def Obligations.Tunnels : Prop :=
  ∀ (n : Fin 1024) (src : Fin 4096) (m : TunMsg) (s : State),
    (s.takeReq n 3 = none → exec (.openTunnel n) s = .next s) ∧
    (s.takeReq n 4 = none → exec (.closeTunnel n) s = .next s) ∧
    (∀ r u, s.takeReq n 3 = some (r, u) → r.mute = true → exec (.openTunnel n) s = .next u) ∧
    (∀ r u, s.takeReq n 4 = some (r, u) → SessX_chan (u.ses n) r.chan = none → exec (.closeTunnel n) s = .next
      (u.sessReply n r .noPage 0 0 [])) ∧
    (∀ r u, s.takeReq n 3 = some (r, u) → r.mute = false →
      (u.discReach r.page = false → exec (.openTunnel n) s = .next (u.sessReply n r .timeout 1 0 [])) ∧
      (u.discReach r.page = true → ∃ v, v = u.setSes n { u.ses n with
          chans := (u.ses n).chans ++ [{ c := r.chan, dst := r.page, up := false, tsess := 0, tag := r.tag }] } ∧
        exec (.openTunnel n) s = .next (v.tunSend r.page topOPEN
          { esess := n, chan := r.chan, data := leBytes 4 (v.grantWord n 0x10) ++ leBytes 4 (v.grantWord n 0x14) }))) ∧
    (∀ r u c, s.takeReq n 4 = some (r, u) → SessX_chan (u.ses n) r.chan = some c → exec (.closeTunnel n) s = .next
      (((u.chanDrop n r.chan).tunSend c.dst topCLOSE { esess := n, chan := c.c, tsess := c.tsess }).sessReply n r .ok
        0 0 [])) ∧
    (s.openSess.length < 1024 → exec (.tunnelOpenRx src m) s = .next (((s.setGate { s.gate with
      reqs := s.gate.reqs ++ [{ src := src, chan := m.chan, esess := m.esess, id := m.data }] }).showReq).ev pGATE 18)) ∧
    (1024 ≤ s.openSess.length → exec (.tunnelOpenRx src m) s = .next ((s.err pGATE 16).tunSend src topACK
      { code := 4, esess := m.esess, chan := m.chan })) ∧
    (s.openingChan (m.esess % 1024) m.chan src = none → m.code = 0 → exec (.tunnelOpenAckRx src m) s = .next
      (s.tunSend src topCLOSE { esess := m.esess % 1024, chan := m.chan, tsess := m.tsess })) ∧
    (s.openingChan (m.esess % 1024) m.chan src = none → m.code ≠ 0 → exec (.tunnelOpenAckRx src m) s = .next s) ∧
    (∀ c, s.openingChan (m.esess % 1024) m.chan src = some c → m.code ≠ 0 → exec (.tunnelOpenAckRx src m) s = .next
      ((s.chanDrop (m.esess % 1024) c.c).sessReply (m.esess % 1024)
        { ty := 3, wake := false, chan := c.c, tag := c.tag, page := 0, off := 0, count := 0, data := [] } .busy 0 0 [])) ∧
    (∀ c u, s.openingChan (m.esess % 1024) m.chan src = some c → m.code = 0 →
      u = s.setSes (m.esess % 1024) { s.ses (m.esess % 1024) with chans := (s.ses (m.esess % 1024)).chans.map (fun e =>
        if e.c = c.c then { e with up := true, tsess := m.tsess }
        else e) } →
      exec (.tunnelOpenAckRx src m) s = .next (u.sessReply (m.esess % 1024)
        { ty := 3, wake := false, chan := c.c, tag := c.tag, page := 0, off := 0, count := 0, data := [] } .ok 0 0 [])) ∧
    (∀ (c : Fin 16) x, SessX_chan (s.ses n) c = some x → x.up = false → exec (.tunnelTimeout n c) s = .next
      ((s.chanDrop n c).sessReply n { ty := 3, wake := false, chan := c, tag := x.tag, page := 0, off := 0, count := 0, data := [] } .timeout 0 0 [])) ∧
    (∀ c : Fin 16, (SessX_chan (s.ses n) c).all (fun x => x.up) = true → exec (.tunnelTimeout n c) s = .next s) ∧
    (s.tunSess src m = some n.val →
      (m.frag ≠ 1 → m.frag ≠ 2 → exec (.tunnelReqRx src m) s = .next
        (s.setSes n { s.ses n with inq := (s.ses n).inq ++ [m.data] })) ∧
      ((s.joinFrag src m false).2 = none → exec (.tunnelReqRx src m) s = .next (s.joinFrag src m false).1) ∧
      (∀ v b, s.joinFrag src m false = (v, some b) → exec (.tunnelReqRx src m) s = .next
        (v.setSes n { v.ses n with inq := (v.ses n).inq ++ [b] }))) ∧
    (s.tunSess src m = none → exec (.tunnelReqRx src m) s = .next s) ∧
    (∀ c, SessX_chan (s.ses (m.esess % 1024)) m.chan = some c → c.up = true → c.dst = src.val →
      (m.frag ≠ 1 → m.frag ≠ 2 → exec (.tunnelRspRx src m) s = .next (s.sessSend (m.esess % 1024) m.data)) ∧
      ((s.joinFrag src m true).2 = none → exec (.tunnelRspRx src m) s = .next (s.joinFrag src m true).1) ∧
      (∀ v b, s.joinFrag src m true = (v, some b) →
        exec (.tunnelRspRx src m) s = .next (v.sessSend (m.esess % 1024) b))) ∧
    ((SessX_chan (s.ses (m.esess % 1024)) m.chan).all (fun c => !c.up || decide (c.dst ≠ src.val)) = true →
      exec (.tunnelRspRx src m) s = .next s) ∧
    (∀ a b, a.frag = 1 → b.frag = 2 → a.esess = b.esess → a.chan = b.chan → s.gate.frags = [] → ∀ rsp d e,
      a.data = d → b.data = (d.drop 4).take 4 ++ e → 8 ≤ d.length → ∀ u, u = (s.joinFrag src a rsp).1 →
      (s.joinFrag src a rsp).2 = none ∧ (u.joinFrag src b rsp).2 = some (d ++ e) ∧ (u.joinFrag src b rsp).1 = s) ∧
    (s.tunSess src m = some n.val → exec (.tunnelCloseRx src m) s = .next (s.closeSess n 7)) ∧
    (s.tunSess src m = none →
      (∀ c, SessX_chan (s.ses (m.esess % 1024)) m.chan = some c → c.dst = src.val →
        exec (.tunnelCloseRx src m) s = .next (s.chanDrop (m.esess % 1024) c.c)) ∧
      ((SessX_chan (s.ses (m.esess % 1024)) m.chan).all (fun c => decide (c.dst ≠ src.val)) = true →
        exec (.tunnelCloseRx src m) s = .next s)) ∧
    exec .fragmentTimeout s = .next (s.setGate { s.gate with frags := s.gate.frags.drop 1 }) ∧
    (∀ (k : Fin 2) b, s.en (pETH k) = true → s.flag (pETH k) ETH.STAT_LINK = true → exec (.ethFrameRx k b) s = .next
      ((s.inc (pETH k) ETH.RX_FRAMES).ethFrame k b)) ∧
    (∀ (k : Fin 2) b, (s.en (pETH k) = false ∨ s.flag (pETH k) ETH.STAT_LINK = false) →
      exec (.ethFrameRx k b) s = .next s) ∧
    (∀ (k : Fin 2) (link lock : Bool), ∃ t, exec (.ethLinkChg k link lock) s = .next t ∧
      t.flag (pETH k) ETH.STAT_LINK = link ∧ t.flag (pETH k) ETH.STAT_BLOCK_LOCK = lock ∧
      (s.flag (pETH k) ETH.STAT_LINK ≠ link → t.bit (pETH k) PG.EV_STAT 16 = true) ∧
      SameRegs s t [(pETH k, ETH.STAT), (pETH k, PG.EV_STAT)] ∧ SameMem s t)

/-! ## Keys and the crypto engine (spec/18) -/

/-- R467, R470: each operation of the crypto engine starts one command, ignored with CMD_BUSY while another runs; its end
shows the result; a health test of the entropy source that fails sets ENT_FAIL, counts and reports, 1,024 good samples
clear it. -/
def Obligations.CryptoCommands : Prop :=
  ∀ (w : Writer) (sl : Fin 256) (ty : Fin 16) (s : State) (start : Nat → Nat → Nat → State), s.mayAct w pKEYS →
    start = (fun op k y => ((((s.setWord pKEYS KEYS.CMD (wordOf (2 ^ 31 + y * 2 ^ 16 + k * 2 ^ 8 + op))).setKeys
      { s.keys with cmd := some { op := op, ty := y, slot := k, inp := s.reg64 pKEYS KEYS.IN_LO
                                  len := s.reg pKEYS KEYS.LEN_IN % 2 ^ 25, out := s.reg64 pKEYS KEYS.OUT_LO } }).set
      pKEYS KEYS.STAT_BUSY 1).answer w .ok)) →
    (s.flag pKEYS KEYS.STAT_BUSY = false →
      exec (.sha256 w) s = .next (start 1 0 0) ∧ exec (.edSign w sl) s = .next (start 2 sl 0) ∧
      exec (.edVerify w sl) s = .next (start 3 sl 0) ∧ exec (.x25519 w sl) s = .next (start 4 sl 0) ∧
      exec (.gcmSeal w sl) s = .next (start 5 sl 0) ∧ exec (.gcmOpen w sl) s = .next (start 6 sl 0) ∧
      exec (.random w) s = .next (start 7 0 0) ∧ exec (.keyGen w sl ty) s = .next (start 8 sl ty) ∧
      exec (.keyImport w sl ty) s = .next (start 9 sl ty) ∧ exec (.keyErase w sl) s = .next (start 10 sl 0)) ∧
    (s.flag pKEYS KEYS.STAT_BUSY = true →
      let no : Host.Outcome State Fault Refusal :=
        .next (((s.err pKEYS 16).countRefused w pKEYS .writeRefused).answer w .writeRefused)
      exec (.sha256 w) s = no ∧ exec (.edSign w sl) s = no ∧ exec (.edVerify w sl) s = no ∧ exec (.x25519 w sl) s = no ∧
      exec (.gcmSeal w sl) s = no ∧ exec (.gcmOpen w sl) s = no ∧ exec (.random w) s = no ∧
      exec (.keyGen w sl ty) s = no ∧ exec (.keyImport w sl ty) s = no ∧ exec (.keyErase w sl) s = no) ∧
    (s.keys.cmd = none → exec .cryptoDone s = .next s) ∧
    (∀ c r, s.keys.cmd = some c → r = s.keyRun c → exec .cryptoDone s = .next (((((r.2.setKeys
      { r.2.keys with cmd := none }).set pKEYS KEYS.STAT_BUSY 0).set pKEYS KEYS.STAT_RESULT r.1).set pKEYS
        KEYS.CMD_GO 0).ev pKEYS 16)) ∧
    (exec (.entHealth false) s = .next (s.set pKEYS KEYS.STAT_ENT_FAIL 0)) ∧
    (∃ t, exec (.entHealth true) s = .next t ∧ t.flag pKEYS KEYS.STAT_ENT_FAIL = true ∧
      t.reg pKEYS KEYS.ENT_CNT = min (s.reg pKEYS KEYS.ENT_CNT + 1) 0xFFFFFFFF ∧ t.bit pKEYS PG.ERR 17 = true ∧
      SameRegs s t [(pKEYS, KEYS.STAT), (pKEYS, KEYS.ENT_CNT), (pKEYS, PG.ERR), (pKEYS, PG.ERRCNT), (pKEYS, PG.EV_STAT)] ∧
      t.keys = s.keys ∧ SameMem s t)

/-- R466, R467: what each command of the engine does: the output of the algorithms, the slots' types that they need, their
lengths, the keys made, imported and erased, and that what a key seals it opens. -/
def Obligations.CryptoResults : Prop :=
  ∀ (c : KeyCmd) (s : State),
    let b := s.memBytes c.inp c.len
    let put (l : List Nat) : Nat × State := (krOK, s.setMemBytes c.out l)
    (∀ k ty, s.keyOf c.slot ty = some k ↔ (s.slot c.slot).1 = ty ∧ (s.slot c.slot).2 = k ∧
      ¬ (c.slot = 0 ∧ s.lifeSt = 4)) ∧
    (c.op = 1 ∨ c.op = 2 ∧ (s.keyOf c.slot 2).isSome = true → maxMsg < c.len → s.keyRun c = (krLEN, s)) ∧
    (c.op = 1 → c.len ≤ maxMsg → s.keyRun c = put (sha256 b)) ∧
    (∀ k, c.op = 2 → c.len ≤ maxMsg → s.keyOf c.slot 2 = some k → s.keyRun c = put (edSign k b)) ∧
    (c.op = 3 → c.slot = 0xFF → c.len < 96 → s.keyRun c = (krLEN, s)) ∧
    (c.op = 3 → c.slot = 0xFF → 96 ≤ c.len → c.len ≤ maxMsg + 96 → s.keyRun c =
      (if edVerify (b.take 32) (b.drop 96) ((b.drop 32).take 64) then krOK else krVERIFY, s)) ∧
    (∀ k, c.op = 3 → c.slot ≠ 0xFF → s.keyOf c.slot 4 = some k →
      (c.len < 64 ∨ maxMsg + 64 < c.len → s.keyRun c = (krLEN, s)) ∧
      (64 ≤ c.len → c.len ≤ maxMsg + 64 → s.keyRun c =
        (if edVerify k (b.drop 64) (b.take 64) then krOK else krVERIFY, s))) ∧
    (∀ k, c.op = 4 → s.keyOf c.slot 3 = some k →
      (c.len = 32 → s.keyRun c = put (x25519 k b)) ∧ (c.len ≠ 32 → s.keyRun c = (krLEN, s))) ∧
    (∀ k iv aad r, (c.op = 5 ∨ c.op = 6) → s.keyOf c.slot 1 = some k → gcmParts b = some (iv, aad, r) →
      (c.op = 5 → s.keyRun c = put ((gcmSeal k iv aad r).1 ++ (gcmSeal k iv aad r).2)) ∧
      (c.op = 6 → r.length < 16 → s.keyRun c = (krLEN, s)) ∧
      (c.op = 6 → 16 ≤ r.length →
        (gcmOpen k iv aad (r.take (r.length - 16)) (r.drop (r.length - 16)) = none → s.keyRun c = (krVERIFY, s)) ∧
        (∀ pt, gcmOpen k iv aad (r.take (r.length - 16)) (r.drop (r.length - 16)) = some pt → s.keyRun c = put pt))) ∧
    ((c.op = 5 ∨ c.op = 6) → (s.keyOf c.slot 1).isSome = true → gcmParts b = none → s.keyRun c = (krLEN, s)) ∧
    ((c.op = 2 ∧ s.keyOf c.slot 2 = none ∨ c.op = 3 ∧ c.slot ≠ 0xFF ∧ s.keyOf c.slot 4 = none ∨
      c.op = 4 ∧ s.keyOf c.slot 3 = none ∨ (c.op = 5 ∨ c.op = 6) ∧ s.keyOf c.slot 1 = none) →
      s.keyRun c = (krBAD_SLOT, s)) ∧
    (c.op = 7 → s.flag pKEYS KEYS.STAT_ENT_FAIL = true → s.keyRun c = (krENT, s)) ∧
    (c.op = 7 → s.flag pKEYS KEYS.STAT_ENT_FAIL = false → 65536 < c.len → s.keyRun c = (krLEN, s)) ∧
    (c.op = 7 → s.flag pKEYS KEYS.STAT_ENT_FAIL = false → c.len ≤ 65536 → ∃ l u, l.length = c.len ∧
      (∀ x ∈ l, x < 256) ∧ u = { s with freeCtr := s.freeCtr + c.len } ∧
      s.keyRun c = (krOK, u.setMemBytes c.out l)) ∧
    (c.op = 8 → c.slot < 64 → (s.slot c.slot).1 = 0 → 1 ≤ c.ty → c.ty ≤ 3 → s.flag pKEYS KEYS.STAT_ENT_FAIL = false →
      (s.keyRun c).1 = krOK ∧ ((s.keyRun c).2.slot c.slot).1 = c.ty ∧ ((s.keyRun c).2.slot c.slot).2.length = 32 ∧
      (∀ k, k ≠ c.slot → (s.keyRun c).2.slot k = s.slot k) ∧ SameRegs s (s.keyRun c).2 [] ∧ SameMem s (s.keyRun c).2) ∧
    (c.op = 8 → (64 ≤ c.slot ∨ (s.slot c.slot).1 ≠ 0 ∨ c.ty = 0 ∨ 3 < c.ty) → s.keyRun c = (krBAD_SLOT, s)) ∧
    (c.op = 8 → c.slot < 64 → (s.slot c.slot).1 = 0 → 1 ≤ c.ty → c.ty ≤ 3 → s.flag pKEYS KEYS.STAT_ENT_FAIL = true →
      s.keyRun c = (krENT, s)) ∧
    (c.op = 9 → s.lifeSt ≠ 1 → s.lifeSt ≠ 2 → s.keyRun c = (krDENIED, s)) ∧
    (c.op = 9 → (s.lifeSt = 1 ∨ s.lifeSt = 2) →
      ((64 ≤ c.slot ∨ (s.slot c.slot).1 ≠ 0 ∨ ¬ (c.ty = 1 ∨ c.ty = 4 ∨ c.ty = 5)) → s.keyRun c = (krBAD_SLOT, s)) ∧
      (c.slot < 64 → (s.slot c.slot).1 = 0 → (c.ty = 1 ∨ c.ty = 4 ∨ c.ty = 5) →
        (c.len ≠ (if c.ty = 5 then 64 else 32) → s.keyRun c = (krLEN, s)) ∧
        (c.len = (if c.ty = 5 then 64 else 32) → (s.keyRun c).1 = krOK ∧ (s.keyRun c).2.slot c.slot = (c.ty, b) ∧
          (∀ k, k ≠ c.slot → (s.keyRun c).2.slot k = s.slot k) ∧ SameRegs s (s.keyRun c).2 [] ∧
          SameMem s (s.keyRun c).2))) ∧
    (c.op = 10 → (2 ≤ c.slot ∨ c.slot = 1 ∧ s.lifeSt = 1) → c.slot < 64 → (s.keyRun c).1 = krOK ∧
      ((s.keyRun c).2.slot c.slot).1 = 0 ∧ (∀ k, k ≠ c.slot → (s.keyRun c).2.slot k = s.slot k) ∧
      SameRegs s (s.keyRun c).2 [] ∧ SameMem s (s.keyRun c).2) ∧
    (c.op = 10 → (c.slot = 0 ∨ 64 ≤ c.slot) → s.keyRun c = (krBAD_SLOT, s)) ∧
    (c.op = 10 → c.slot = 1 → s.lifeSt ≠ 1 → s.keyRun c = (krDENIED, s)) ∧
    (∀ key iv aad pt, key.length = 32 → gcmOpen key iv aad (gcmSeal key iv aad pt).1 (gcmSeal key iv aad pt).2 = some pt)

/-! ## The tally store and its drives (spec/19) -/

/-- R480 to R484, R489: posts, flush rounds, seals, and the copies of records on their way to a peer. -/
def Claims.TallyRecords : Prop :=
  ∀ (w : Writer) (src : Fin 4096) (c : Fin 6) (s : State),
    (∀ h rest x, s.hwPosts = h :: rest → h.cls < s.store.core.cls.length → s.classRefuses h.cls = 0 →
      x = CoreX_get s.store.core h.cls →
      needBlock x (padRec (recBytes h.cls h.ty 4 x.next (s.beam.t / 256) s.addr (s.get pBEAM BEAM.STAT_LOCK) 0
        h.body.length h.body)).length = false → ∃ t, exec (.postTake none) s = .next t ∧ t.hwPosts = rest ∧
      (CoreX_get t.store.core h.cls).next = x.next + 1 ∧
      t.store.wait = s.store.wait ++ [⟨h.cls, x.next, recBytes h.cls h.ty 4 x.next (s.beam.t / 256) s.addr
        (s.get pBEAM BEAM.STAT_LOCK) 0 h.body.length h.body⟩] ∧ SameMem s t) ∧
    (∀ h rest x, s.hwPosts = h :: rest → h.cls < s.store.core.cls.length → s.classRefuses h.cls = 0 →
      x = CoreX_get s.store.core h.cls →
      needBlock x (padRec (recBytes h.cls h.ty 4 x.next (s.beam.t / 256) s.addr (s.get pBEAM BEAM.STAT_LOCK) 0
        h.body.length h.body)).length = true → ({ s with hwPosts := rest } : State).openBlock h.cls = none →
      exec (.postTake none) s = .next (({ s with hwPosts := rest } : State).set pTALLY TALLY.STAT_STORE_FULL 1)) ∧
    (∀ h rest, s.hwPosts = h :: rest → s.classRefuses h.cls ≠ 0 →
      exec (.postTake none) s = .next { s with hwPosts := rest }) ∧
    (∀ z, s.hwPosts = [] → exec (.postTake z) s = .next (s.takePost z)) ∧
    (s.postSize = 0 ∨ s.reg pTALLY TALLY.POST_RD % 65536 = s.reg pTALLY TALLY.POST_WR % 65536 → ∀ z, s.takePost z = s) ∧
    (∀ z a, s.postSize ≠ 0 → s.reg pTALLY TALLY.POST_RD % 65536 ≠ s.reg pTALLY TALLY.POST_WR % 65536 →
      a = s.reg64 pTALLY TALLY.POST_BASE_LO + 32 * (s.reg pTALLY TALLY.POST_RD % 65536) → s.storeSt ≠ tsOPEN →
      s.takePost z = ((((s.setReg pTALLY TALLY.POST_RD ((s.reg pTALLY TALLY.POST_RD % 65536 + 1) % s.postSize)).setMemBytes
        (a + 14) [s.memLE (a + 14) 1 ||| 128, 5]).incF pTALLY ⟨TALLY.REFUSED, 15, 0⟩).ev pTALLY 19)) ∧
    (s.storeSt ≠ tsOPEN → exec .flushRound s = .next s ∧ (s.storeSt ≠ tsFAILED → ∀ z, exec (.seal z) s = .next s)) ∧
    (s.storeSt = tsFAILED → ∀ z, exec (.seal z) s = .next (s.set pTALLY TALLY.STAT_SEAL_LATE 1)) ∧
    (s.storeSt = tsOPEN → s.store.round = none →
      exec .flushRound s = .next (s.setStore { s.store with round := some s.store.core }) ∧
      (s.mayAct w pTALLY → exec (.cmdFlush w) s = .next
        ((s.setStore { s.store with round := some s.store.core }).answer w .ok))) ∧
    (∀ x, s.storeSt = tsOPEN → s.store.round = some x → exec .flushRound s = .next
      (s.setStore { s.store with again := true })) ∧
    (s.storeSt ≠ tsOPEN ∨ s.store.round = none → exec .flushRoundDone s = .next s) ∧
    (∀ x u, s.storeSt = tsOPEN → s.store.round = some x → u = (s.commitRound x false).setStore
        { (s.commitRound x false).store with again := false } →
      exec .flushRoundDone s = .next (if s.store.again then u.flushRound else u)) ∧
    (∀ x k, k < 6 → k < s.store.core.cls.length →
      (CoreX_get (s.commitRound x false).store.core k).dur = max (CoreX_get s.store.core k).dur (CoreX_get x k).next) ∧
    (s.storeSt = tsOPEN → ∀ z, exec (.seal z) s = .next
      (takePosts s.postSize (s.reg pTALLY TALLY.POST_WR % 65536) z s).sealNow.flushRound) ∧
    (∀ e (m : ReplPart),
      s.store.copies.find? (fun e => e.1 == src.val && e.2.1 == m.cls && e.2.2.1 == m.orig) = some e →
      (e.2.2.2 < (CoreX_get s.store.core m.cls).dur →
        exec (.tallyReplRx src m) s = .next (s.sendReplAck src m.cls m.orig)) ∧
      ((CoreX_get s.store.core m.cls).dur ≤ e.2.2.2 → exec (.tallyReplRx src m) s = .next
        (if s.store.acks.contains e then s else s.setStore { s.store with acks := s.store.acks ++ [e] }))) ∧
    (∀ m : ReplPart,
      s.store.copies.find? (fun e => e.1 == src.val && e.2.1 == m.cls && e.2.2.1 == m.orig) = none → s.store.parts = [] →
      (1 < m.nfrag → exec (.tallyReplRx src m) s = .next
        (s.setStore { s.store with parts := [{ src := src, c := m.cls, orig := m.orig, nfrag := m.nfrag
                                               parts := [(m.frag, m.ofs, m.data)] }] })) ∧
      (m.nfrag = 1 → m.frag = 0 → exec (.tallyReplRx src m) s = .next (s.appendCopy src m.cls m.orig m.data))) ∧
    (∀ orig, src.val = s.get pTALLY TALLY.REPL_CFG_PEER → exec (.tallyReplAckRx src c orig) s = .next
      (s.setStore { s.store with repl := s.store.repl.filter (fun r => !(r.c == c.val && r.rseq == orig)) }).setLag) ∧
    (∀ orig, src.val ≠ s.get pTALLY TALLY.REPL_CFG_PEER → exec (.tallyReplAckRx src c orig) s = .next s) ∧
    (∀ q,
      let hit := s.store.repl.find? (fun r => r.c == c.val && r.rseq == q)
      (∀ r, hit = some r → exec (.tallyReplResend c q) s = .next (s.sendRec r)) ∧
      (hit = none → exec (.tallyReplResend c q) s = .next s))

/-- R479, R485 to R487: FORMAT, the opening, the close and reading of the store. -/
def Claims.TallyStore : Prop :=
  ∀ (w : Writer) (s : State),
    (s.mayAct w pTALLY → (s.en pTALLY = true ∨ s.flag pTALLY PG.STAT_SHUTTING = true ∨ s.drivesOk = false ∨
        s.store.label.isSome = true ∧ s.lifeSt ≠ 1 ∧ s.lifeSt ≠ 3) → exec (.format w) s = .next
      (((s.err pTALLY 18).countRefused w pTALLY .writeRefused).answer w .writeRefused)) ∧
    (s.mayAct w pTALLY → s.en pTALLY = false → s.flag pTALLY PG.STAT_SHUTTING = false →
      (s.lifeSt = 1 ∨ s.lifeSt = 3 ∨ s.store.label = none) →
      s.drivesOk = true → ∃ t l, exec (.format w) s = .next t ∧ t.store.label = some l ∧ l.total = s.capacity ∧
      l.sysId = s.reg pFABR FABR.SYS_ID ∧ l.addr = s.addr ∧ l.key = (s.slotPub 0).take 32 ∧ l.storeId.length = 8 ∧
      l.ringMin = (if s.reg pTALLY TALLY.FMT_RING_MIN % 2 ^ 29 = 0 then s.capacity / 16
        else s.reg pTALLY TALLY.FMT_RING_MIN % 2 ^ 29) ∧
      t.word pTALLY TALLY.TOTAL = wordOf s.capacity ∧ t.flag pTALLY TALLY.STAT_STORE_FULL = false ∧
      t.flag pTALLY TALLY.STAT_TALLY_FULL = false ∧ t.store.disk = [] ∧ t.store.core = {} ∧ SameMem s t) ∧
    (s.storeSt ≠ tsOPENING → (∀ a b, exec (.storeOpen a b) s = .next s) ∧ exec .storeOpenDone s = .next s) ∧
    (s.flag pTALLY PG.STAT_SHUTTING = false → exec .storeClose s = .next s) ∧
    (∀ a b, s.storeSt = tsOPENING → s.drivesOk = false →
      exec (.storeOpen a b) s = .next (s.setStoreSt tsFAILED)) ∧
    (s.storeSt = tsOPENING → s.drivesOk = true →
      exec (.storeOpen .other .other) s = .next ((s.err pTALLY 20).setStoreSt tsFAILED) ∧
      (∀ l, s.store.label = some l → (l.sysId ≠ s.reg pFABR FABR.SYS_ID ∨ l.key ≠ (s.slotPub 0).take 32) →
        exec (.storeOpen .good .good) s = .next ((s.err pTALLY 20).setStoreSt tsFAILED)) ∧
      (s.store.label = none → exec (.storeOpen .good .good) s = .next (s.setStoreSt tsUNFORMATTED)) ∧
      (s.store.label.isSome = true → exec (.storeOpen .good .other) s = .next
        ((s.err pTALLY 19).setStoreSt tsFAILED)) ∧
      (∀ l, s.store.label = some l → l.sysId = s.reg pFABR FABR.SYS_ID → l.key = (s.slotPub 0).take 32 → ∃ t,
        exec (.storeOpen .good .good) s = .next t ∧ t.word pTALLY TALLY.TOTAL = wordOf l.total ∧
        t.word pTALLY TALLY.RING_MIN = wordOf l.ringMin ∧ t.flag pTALLY TALLY.STAT_UNCLEAN = !s.store.clean ∧
        t.store.wait = [] ∧ t.store.round = none ∧ t.store.com = s.store.com ∧ t.storeSt = tsOPENING ∧ SameMem s t)) ∧
    (s.storeSt = tsOPENING → s.store.label.isSome = true → s.reg pTALLY TALLY.TOTAL ≠ 0 → ∃ t,
      exec .storeOpenDone s = .next t ∧ t.storeSt = tsOPEN ∧ t.store.clean = false ∧
      t.store = { ((s.setStoreSt tsOPEN).appendDev clEVENTS 2 (b2n (!s.store.clean)) s.restartBody).1.store with
        clean := false } ∧ SameMem s t) ∧
    (s.flag pTALLY PG.STAT_SHUTTING = true → s.storeSt = tsOPENING → ∃ t, exec .storeClose s = .next t ∧
      t.storeSt = tsCLOSED ∧ t.flag pTALLY PG.STAT_SHUTTING = false ∧ t.flag pTALLY PG.STAT_ENABLED = false ∧
      t.bit pTALLY PG.EV_STAT 4 = true ∧ t.store.core = s.store.core ∧ SameMem s t) ∧
    (∀ (v : Word) u, s.mayAct w pTALLY → u = s.setWord pTALLY TALLY.RD_CTL (maskW v 0x7001FFFF) →
      (v.toNat < 2 ^ 31 → exec (.storeRead w v) s = .next (u.answer w .ok)) ∧
      (2 ^ 31 ≤ v.toNat → s.storeSt ≠ tsOPEN → exec (.storeRead w v) s = .next
        (((u.setReg pTALLY TALLY.RD_RES (2 ^ 31 + 3)).ev pTALLY 20).answer w .ok)) ∧
      (∀ len, len = (if v.toNat % 2 ^ 17 = 0 then 65536 else v.toNat % 2 ^ 17) → 2 ^ 31 ≤ v.toNat → s.storeSt = tsOPEN →
        let cls := bitsOf v.toNat 30 28
        let got := s.storeBytes cls (s.reg pTALLY TALLY.RD_BSEQ) (s.reg pTALLY TALLY.RD_OFS % 65536) len
        (65536 < len + s.reg pTALLY TALLY.RD_OFS % 65536 → exec (.storeRead w v) s = .next
          (((u.setReg pTALLY TALLY.RD_RES (2 ^ 31 + 2)).ev pTALLY 20).answer w .ok)) ∧
        (len + s.reg pTALLY TALLY.RD_OFS % 65536 ≤ 65536 → (6 ≤ cls ∨ got = none) → exec (.storeRead w v) s = .next
          (((u.setReg pTALLY TALLY.RD_RES (2 ^ 31 + 1)).ev pTALLY 20).answer w .ok)) ∧
        (∀ b, len + s.reg pTALLY TALLY.RD_OFS % 65536 ≤ 65536 → cls < 6 → got = some b →
          exec (.storeRead w v) s = .next ((((u.setMemBytes (u.reg64 pTALLY TALLY.RD_DST_LO) b).setReg pTALLY
            TALLY.RD_RES (2 ^ 31)).ev pTALLY 20).answer w .ok))))

/-- R472 to R475: a drive that becomes ready, its reports and errors, and the namespace commands. -/
def Claims.Drives : Prop :=
  ∀ (w : Writer) (k : Fin 2) (s : State),
    ((s.driveSt k = nvABSENT ∨ s.driveSt k = nvFAILED) → exec (.nvmeCmdTimeout k) s = .next s ∧
      ∀ e, exec (.nvmeCompletion k e) s = .next s) ∧
    (s.driveSt k ≠ nvABSENT → s.driveSt k ≠ nvFAILED → exec (.nvmeCmdTimeout k) s = .next
      ((s.incSat (pNVME k) NVME.TMO_CNT).driveFail k)) ∧
    (s.en (pNVME k) = false → ∀ e, exec (.nvmeCompletion k e) s = .next s) ∧
    (s.en (pNVME k) = true → s.injArmed (pNVME k) 0 = false →
      (∀ sp wi bl (ok vwc : Bool), s.driveSt k = nvINIT → ∃ t, exec (.nvmeCompletion k (.ready sp wi bl ok vwc)) s = .next t ∧
        t.driveSt k = nvREADY ∧ t.flag (pNVME k) NVME.STAT_NS_BAD = !ok ∧ t.flag (pNVME k) NVME.STAT_VWC = vwc ∧
        t.reg (pNVME k) NVME.CAP_BLK = min bl (2 ^ 29) ∧ SameRegs s t [(pNVME k, NVME.STAT), (pNVME k, NVME.CAP_BLK)] ∧
        SameMem s t) ∧
      (s.driveSt k = nvREADY →
        exec (.nvmeCompletion k (.done 0)) s = .next s ∧
        (∀ st, st ≠ 0 → exec (.nvmeCompletion k (.done st)) s = .next (s.nvmeError k)) ∧
        exec (.nvmeCompletion k .notice) s = .next (s.ev (pNVME k) 17) ∧
        (∀ wear temp, exec (.nvmeCompletion k (.smart wear temp)) s = .next
          ((s.setReg (pNVME k) NVME.WEAR (wear % 256)).setReg (pNVME k) NVME.TEMP (temp % 65536))) ∧
        (s.store.nsOp.getD k 0 = 0 → ∀ st, exec (.nvmeCompletion k (.ns st)) s = .next s) ∧
        (s.store.nsOp.getD k 0 ≠ 0 → ∀ st u, u = (((s.setStore { s.store with nsOp := s.store.nsOp.set k 0 }).setReg
            (pNVME k) NVME.NS_RES (2 ^ 31 + st % 65536)).ev (pNVME k) 16) →
          exec (.nvmeCompletion k (.ns st)) s = .next (if st = 0 then u else u.nvmeError k)))) ∧
    (s.en (pNVME k) = true → (s.injTake (pNVME k) 0).1 = true → s.driveSt k = nvREADY →
      exec (.nvmeCompletion k (.done 0)) s = .next ((s.injTake (pNVME k) 0).2.nvmeError k)) ∧
    (s.mayAct w (pNVME k) → ∀ go no : Nat → State,
      go = (fun op => ((((s.setReg (pNVME k) NVME.NS_CMD op).setReg (pNVME k) NVME.NS_RES 0).setStore { s.store with
        nsOp := s.store.nsOp.set k op }).send (.nvmeNs k op (s.reg64 (pNVME k) NVME.NS_ARG_LO))).answer w .ok) →
      no = (fun op => (((s.setReg (pNVME k) NVME.NS_CMD op).setReg (pNVME k) NVME.NS_RES (2 ^ 31 + 0xFFFF)).ev
        (pNVME k) 16).answer w .ok) →
      (s.en pTALLY = false → exec (.nsCreate w k) s = .next (go 1) ∧ exec (.nsAttach w k) s = .next (go 3) ∧
        (s.lifeSt ≠ 2 → exec (.nsDelete w k) s = .next (go 2)) ∧
        (s.lifeSt = 2 → exec (.nsDelete w k) s = .next (no 2))) ∧
      (s.en pTALLY = true → exec (.nsCreate w k) s = .next (no 1) ∧ exec (.nsDelete w k) s = .next (no 2) ∧
        exec (.nsAttach w k) s = .next (no 3)))

/-- The parts above: TallyRecords, TallyStore, Drives. -/
def Obligations.TallyAndDrives : Prop :=
  Claims.TallyRecords ∧ Claims.TallyStore ∧ Claims.Drives

/-! ## Resets, flash, boot (spec/22) -/

/-- R535 to R537, R552, R590: the resets by pin, by command, by power, and the selection of a profile, which only QUIET
allows.  TEST_EN, sampled with the rows of RESET_L and VAON (log 215, the model's choice), keeps the RD domain in reset
while it is high. -/
def Claims.Resets : Prop :=
  ∀ (w : Writer) (sel : Fin 4) (a b : Fin 65536) (high : Bool) (s : State),
    (∃ t, exec (.resetPin sel high) s = .next t ∧ t.get pSYS SYS.PIN_PROF_SEL = sel.val ∧
      t.get pPROF ⟨PROF.NEXT, 1, 0⟩ = sel.val ∧ t.reg pSYS SYS.RST_CAUSE = 254 * 2 ^ 16 + 2 ∧ t.dev = dvRUN ∧
      t.boot.due = true ∧ t.boot.testEn = high ∧ t.dom .rd = (if high then .resting else .active) ∧
      (∀ d ∈ domsDevice, d ≠ .rd → t.dom d = .active) ∧ t.sess = [] ∧ t.keys.slots = s.keys.slots ∧ t.cf = s.cf ∧
      t.pending = s.pending) ∧
    (∃ t, exec (.powerOnReset sel a b high) s = .next t ∧ t.cf = s.cf ∧ t.keys.slots = s.keys.slots ∧ t.mem = [] ∧
      t.rods = [] ∧ t.sess = [] ∧ t.pending = s.pending ∧ t.word pLIFE LIFE.STATE = s.word pLIFE LIFE.STATE ∧
      t.word pSYS SYS.EVT_HEAD = s.word pSYS SYS.EVT_HEAD ∧ t.reg pSYS SYS.RST_CAUSE = 255 * 2 ^ 16 + 1 ∧
      t.reg pSUP SUP.VAUX = a.val ∧ t.reg pSUP SUP.VBAK = b.val ∧ t.path = (if 1900 ≤ a.val then ppAUX else ppBAK) ∧
      t.get pSYS SYS.PIN_PROF_SEL = sel.val ∧ t.boot.due = true ∧ t.boot.testEn = high ∧
      t.dom .rd = (if high then .resting else .active)) ∧
    (∀ v, s.boot.testEn = true → v ≠ .resting → s.setDom .rd v = s) ∧
    (s.mayAct w pSYS → ∀ scope : Fin 16,
      (∀ key : Fin 65536, key.val ≠ 0xB007 →
        exec (.softwareReset w key scope) s = .next ((s.err pSYS 16).answer w .ok)) ∧
      (scope.val = 1 → exec (.softwareReset w 0xB007 scope) s = .next
        (((s.resetDoms 4 domsDevice).toRun).answer w .ok)) ∧
      (scope.val = 2 → exec (.softwareReset w 0xB007 scope) s = .next ((s.resetDoms 4 domsRd).answer w .ok)) ∧
      (4 ≤ scope.val → scope.val ≤ 7 → exec (.softwareReset w 0xB007 scope) s = .next
        ((s.resetDoms 4 [.fd (scope.val - 4)]).answer w .ok)) ∧
      (scope.val = 3 ∨ 8 ≤ scope.val ∨ scope.val = 0 →
        exec (.softwareReset w 0xB007 scope) s = .next (s.answer w .ok))) ∧
    (s.mayAct w pPROF →
      ((s.dev ≠ dvQUIET ∨ s.flag pREST REST.STAT_WAKING = true) → exec (.profileSelect w sel) s = .next
        (((s.err pPROF 16).countRefused w pPROF .writeRefused).answer w .writeRefused)) ∧
      (s.dev = dvQUIET → s.flag pREST REST.STAT_WAKING = false → exec (.profileSelect w sel) s = .next
        (((((s.setReg pPROF PROF.SEL_CMD sel).set pPROF ⟨PROF.NEXT, 1, 0⟩ sel).resetDoms 5
          domsProfile).toRun).answer w .ok)))

/-- R466, R538: an advance of the life-cycle state: by the APC alone, with the key, to the next state only, its
precondition and its fuses; the key of slot 0 is made on the way to PROVISIONED, the keys but slot 0 are erased on the way
to RETURNED. -/
def Claims.LifeAdvance : Prop :=
  ∀ (h : Fin 4) (key : Fin 65536) (g : Fin 8) (burn : Fin 3) (s : State), s.mayAct (.apc h) pLIFE →
    (key.val ≠ 0x11FE → exec (.lifeAdvance (.apc h) key g burn) s = .next (((s.advRes 1).err pLIFE 16).answer (.apc h) .ok)) ∧
    (key.val = 0x11FE → g.val ≠ s.lifeSt + 1 → exec (.lifeAdvance (.apc h) key g burn) s = .next
      (((s.advRes 2).err pLIFE 16).answer (.apc h) .ok)) ∧
    (key.val = 0x11FE → g.val = s.lifeSt + 1 → s.advPre = false → exec (.lifeAdvance (.apc h) key g burn) s = .next
      (((s.advRes 3).err pLIFE 16).answer (.apc h) .ok)) ∧
    (key.val = 0x11FE → g.val = s.lifeSt + 1 → s.advPre = true →
      exec (.lifeAdvance (.apc h) key g 2) s = .next ((s.advRes 4).answer (.apc h) .ok) ∧
      exec (.lifeAdvance (.apc h) key g 1) s = .next ((s.set pLIFE LIFE.STATE_FUSE_PART 1).answer (.apc h) .ok) ∧
      ∃ u, u = (s.advAction g).setReg pLIFE LIFE.STATE g ∧ exec (.lifeAdvance (.apc h) key g 0) s = .next
        ((((((u.evtPost (evtPayload u.aonCnt 3 [s.lifeSt, g.val])).advRes 0).resetDoms 6
          domsDevice).toRun)).answer (.apc h) .ok)) ∧
    (s.advPre = true ↔ (s.lifeSt = 1 ∧ s.imgOk cfLoader 3 0xFF true = true) ∨ (s.lifeSt ≠ 1 ∧ s.lifeSt < 4)) ∧
    (((s.advAction 1).slot 0).1 = 2 ∧ ((s.advAction 1).slot 0).2.length = 32 ∧
      (∀ k, k ≠ 0 → (s.advAction 1).slot k = s.slot k)) ∧
    ((s.advAction 3).slot 0 = s.slot 0 ∧ ∀ k, k ≠ 0 → (s.advAction 3).slot k = (0, [])) ∧
    (s.advAction 2 = s ∧ s.advAction 4 = s) ∧
    (∀ w, (∀ j, w ≠ .apc j) → exec (.lifeAdvance w key g burn) s = .next
      ((s.countRefused w pLIFE .writeRefused).answer w .writeRefused))

/-- The parts above: Resets, LifeAdvance. -/
def Obligations.ResetsAndLife : Prop :=
  Claims.Resets ∧ Claims.LifeAdvance

/-- R540, R541, R554, R569: the configuration flash, by the APC alone: one operation at a time, each refused by its region
or its bounds; an erase leaves 0xFF in its range and nothing changed outside, a program only clears bits, each ends with
its result; the event area. -/
def Claims.Flash : Prop :=
  ∀ (h : Fin 4) (w : Writer) (s : State),
    ((∀ j, w ≠ .apc j) → exec (.cfErase w) s = .next ((s.countRefused w pPROF .writeRefused).answer w .writeRefused) ∧
      exec (.cfProgram w) s = .next ((s.countRefused w pPROF .writeRefused).answer w .writeRefused)) ∧
    (∀ op a n u, s.mayAct (.apc h) pPROF → (op = 1 ∨ op = 2) → u = s.set pPROF PROF.CFW_CMD_OP op →
      a = s.reg pPROF PROF.CFW_ADDR % 2 ^ 28 → n = s.reg pPROF PROF.CFW_LEN % 2 ^ 28 →
      let does : Host.Outcome State Fault Refusal := if op = 1 then exec (.cfErase (.apc h)) s else exec (.cfProgram (.apc h)) s
      (s.boot.op.isSome = true → does = .next ((u.setReg pPROF PROF.CFW_RES cwBUSY).answer (.apc h) .ok)) ∧
      (s.boot.op = none → u.cfwCheck op a n = cwOK → does = .next
        (((u.setReg pPROF PROF.CFW_RES 0).setBoot { s.boot with
          op := some (op, a, n, s.reg64 pPROF PROF.CFW_SRC_LO) }).answer (.apc h) .ok)) ∧
      (s.boot.op = none → u.cfwCheck op a n ≠ cwOK → ∃ t, does = .next t ∧
        t.reg pPROF PROF.CFW_RES = 2 ^ 31 + u.cfwCheck op a n ∧ t.boot.op = none ∧ t.bit pPROF PG.ERR 17 = true ∧
        t.bit pPROF PG.EV_STAT 16 = true ∧ t.cf = s.cf ∧ SameMem s t)) ∧
    (∀ op a n,
      let r := cfRegion a
      (s.cfwCheck op a n = cwDENIED ↔ 4 ≤ s.lifeSt ∨ (r = cfLoader ∧ (s.lifeSt = 2 ∨ 4 ≤ s.lifeSt)) ∨
        s.copyInUse = some r ∨ r = cfEvt) ∧
      (s.cfwCheck op a n ≠ cwDENIED → (s.cfwCheck op a n = cwOK ↔ a + n ≤ r + cfSize r ∧ a < cfEnd ∧
        (op = 1 → a % 65536 = 0 ∧ n % 65536 = 0) ∧ (op = 2 → n ≠ 0 ∧ n ≤ 65536)))) ∧
    (s.boot.op = none → ∀ ok, exec (.cfOpDone ok) s = .next s) ∧
    (∀ a n src ok, s.boot.op = some (1, a, n, src) → ∃ t, exec (.cfOpDone ok) s = .next t ∧ t.boot.op = none ∧
      (ok = true → ∀ x, a ≤ x → x < a + n → t.cfByte x = 0xFF) ∧
      (∀ x, x < a ∨ a + n ≤ x → t.cfByte x = s.cfByte x) ∧
      t.reg pPROF PROF.CFW_RES = 2 ^ 31 + (if ok then 0 else 3) ∧
      t.bit pPROF PG.EV_STAT 16 = true ∧ (∀ x, t.memByte x = s.memByte x)) ∧
    (∀ a n src ok, s.boot.op = some (2, a, n, src) → s.injArmed pAPC 0 = false → ∃ t, exec (.cfOpDone ok) s = .next t ∧
      t.boot.op = none ∧ (∀ x, t.cfByte x &&& s.cfByte x = t.cfByte x) ∧
      (∀ x, x < a ∨ a + n ≤ x → t.cfByte x = s.cfByte x) ∧
      (t.reg pPROF PROF.CFW_RES = 2 ^ 31 ∨ t.reg pPROF PROF.CFW_RES = 2 ^ 31 + 3) ∧
      (t.reg pPROF PROF.CFW_RES = 2 ^ 31 ↔ ok = true ∧ t.cfBytes a n = s.memBytes src n) ∧
      t.bit pPROF PG.EV_STAT 16 = true ∧ (∀ x, t.memByte x = s.memByte x)) ∧
    (s.evtQueue = [] → exec .eventAreaWrite s = .next s) ∧
    (∀ e r, s.evtQueue = e :: r → ∃ t, exec .eventAreaWrite s = .next t ∧ t.evtQueue = r ∧
      t.reg pSYS SYS.EVT_HEAD = (s.reg pSYS SYS.EVT_HEAD + 1) % 2 ^ 32 ∧ (∀ x, x < cfEvt → t.cfByte x = s.cfByte x) ∧
      SameRegs s t [(pSYS, SYS.EVT_HEAD), (pSYS, SYS.EVT_OFS)] ∧ (∀ x, t.memByte x = s.memByte x))

/-- R537, R545, R546, R550, R551: boot runs once after a reset, in an active RD domain; it takes the valid copy with the
greater generation; the start enables the reckoners that waited and starts hart 0 at the image's entry; the loader answers
sessions and devices in loader mode only. -/
def Claims.BootAndLoader : Prop :=
  ∀ (w : Writer) (s : State),
    (∀ bad mems ddr k us, s.boot.due = true → s.dom .rd = .active → exec (.boot bad mems ddr k us) s = .next
      (s.bootRun bad.toNat mems ddr k us)) ∧
    (∀ bad mems ddr k us, (s.boot.due = false ∨ s.dom .rd ≠ .active) → exec (.boot bad mems ddr k us) s = .next s) ∧
    (∀ p,
      (s.copyOk p 0 = true → s.copyOk p 1 = false → s.pickCopy p = .ok 0) ∧
      (s.copyOk p 0 = false → s.copyOk p 1 = true → s.pickCopy p = .ok 1) ∧
      (s.copyOk p 0 = false → s.copyOk p 1 = false → s.pickCopy p = .error fbNO_VALID) ∧
      (s.copyOk p 0 = true → s.copyOk p 1 = true →
        (s.copyGen p 0 < s.copyGen p 1 → s.pickCopy p = .ok 1) ∧ (s.copyGen p 1 < s.copyGen p 0 → s.pickCopy p = .ok 0) ∧
        (s.copyGen p 0 = s.copyGen p 1 → s.copiesSame p = true → s.pickCopy p = .ok 0) ∧
        (s.copyGen p 0 = s.copyGen p 1 → s.copiesSame p = false → s.pickCopy p = .error fbCONFLICT))) ∧
    (s.boot.defer = [] → s.split = false → s.pairFaulted = false → ∀ us, us < 2 ^ 20 → ∃ t, s.bootStart true us = t ∧
      t.out = s.out ++ [.hartStart 0 (s.cfLE (cfFw + 0x18) 8)] ∧ t.get pSYS SYS.BOOT_STAT_STEP = bsDONE ∧
      t.reg pSYS SYS.BOOT_TIME = us ∧ t.flag pSPAIR SPAIR.STAT_KVER = true ∧ t.safe.started = true ∧ SameMem s t) ∧
    (s.loaderOn w = true ↔ s.flag pSYS SYS.BOOT_STAT_LOADER = true ∧ w.isRemote = true) ∧
    (s.loaderOn w = false → exec (.loaderStatus w) s = .next s ∧ exec (.loaderReset w) s = .next s ∧
      (∀ r o n, exec (.loaderErase w r o n) s = .next s) ∧ ∀ r o l, exec (.loaderWrite w r o l) s = .next s) ∧
    (s.loaderOn w = true →
      exec (.loaderStatus w) s = .next (s.loaderSay w 0 (leBytes 4 (s.reg pSYS SYS.BOOT_STAT) ++
        (List.range 4).flatMap (fun p => leBytes 4 (s.reg pPROF (PROF.GEN_A p))) ++
        (List.range 4).flatMap (fun p => leBytes 4 (s.reg pPROF (PROF.GEN_B p))))) ∧
      exec (.loaderReset w) s = .next (((s.loaderSay w 0 []).resetDoms 4 domsDevice).toRun) ∧
      (∀ r : Fin 256, loaderRegion r = none → (∀ o n, exec (.loaderErase w r o n) s = .next (s.loaderSay w cwRANGE [])) ∧
        ∀ o l, exec (.loaderWrite w r o l) s = .next (s.loaderSay w cwRANGE [])) ∧
      (∀ (r : Fin 256) (o : Word), (∀ n : Word, n.toNat % 65536 ≠ 0 →
          exec (.loaderErase w r o n) s = .next (s.loaderSay w cwRANGE [])) ∧
        ∀ l : List Nat, (l.length = 0 ∨ 2016 < l.length) →
          exec (.loaderWrite w r o l) s = .next (s.loaderSay w cwRANGE [])) ∧
      (∀ (r : Fin 256) base (o n : Word), loaderRegion r = some base → n.toNat % 65536 = 0 → o.toNat < 0x8000000 →
        let c := if cfRegion (base + o.toNat) ≠ base then cwRANGE else s.cfwCheck 1 (base + o.toNat) n.toNat
        (s.boot.op.isSome = true → exec (.loaderErase w r o n) s = .next (s.loaderSay w cwBUSY [])) ∧
        (s.boot.op = none → c ≠ cwOK → exec (.loaderErase w r o n) s = .next ((s.cfwRes c).loaderSay w c [])) ∧
        (s.boot.op = none → c = cwOK → exec (.loaderErase w r o n) s = .next
          (((s.cfwErase (base + o.toNat) n.toNat).cfwRes cwOK).loaderSay w cwOK []))) ∧
      (∀ (r : Fin 256) base (o : Word) l x, loaderRegion r = some base → l ≠ [] → l.length ≤ 2016 → o.toNat < 0x8000000 →
        x = s.cfwProgram (base + o.toNat) l true →
        let c := if cfRegion (base + o.toNat) ≠ base then cwRANGE else s.cfwCheck 2 (base + o.toNat) l.length
        (s.boot.op.isSome = true → exec (.loaderWrite w r o l) s = .next (s.loaderSay w cwBUSY [])) ∧
        (s.boot.op = none → c ≠ cwOK → exec (.loaderWrite w r o l) s = .next ((s.cfwRes c).loaderSay w c [])) ∧
        (s.boot.op = none → c = cwOK → exec (.loaderWrite w r o l) s = .next
          ((x.1.cfwRes x.2).loaderSay w x.2 []))))

/-- The parts above: Flash, BootAndLoader. -/
def Obligations.FlashAndBoot : Prop :=
  Claims.Flash ∧ Claims.BootAndLoader

/-! ## Self-test (spec/23) -/

/-- R559 to R568, R573, R574: the rotation's slots, their skips and their end, the direct test engine, and a reset of
crossings. -/
def Obligations.SelfTest : Prop :=
  ∀ (w : Writer) (s : State),
    ((s.rotation = false ∨ s.lbSt ≠ lbIDLE ∨ dvREST ≤ s.dev) → exec .lbistSlot s = .next s) ∧
    (s.rotation = true → s.lbSt = lbIDLE → s.dev < dvREST → s.bist.spareTest = true → exec .lbistSlot s = .next
      ((s.setBist { s.bist with slot := some { core := s.spare, logical := none, inPlace := true }
                                spareTest := false }).testBegin lbINPLACE)) ∧
    (s.rotation = true → s.lbSt = lbIDLE → s.dev < dvREST → s.bist.spareTest = false →
      let quiet := (s.logicalOn s.nextCore).all (fun k => decide (s.rkSt k = rkSTOPPED ∨ s.rkSt k = rkFATAL))
      (quiet = true → exec .lbistSlot s = .next ((s.setBist { s.bist with
        slot := some { core := s.nextCore, logical := s.logicalOn s.nextCore, inPlace := true } }).testBegin lbINPLACE)) ∧
      (quiet = false → exec .lbistSlot s = .next ((s.setBist { s.bist with
        slot := some { core := s.nextCore, logical := s.logicalOn s.nextCore, inPlace := false } }).setLbSt lbWAIT))) ∧
    (s.lbSt ≠ lbWAIT → exec .slotSkip s = .next s) ∧
    (s.lbSt = lbWAIT → ∀ u, u = (s.setBist { s.bist with slot := none, skips := s.bist.skips + 1 }).incF pBIST
        BIST.LB_CNT_SKIP → ∀ v, v = (if s.rotation then u.setLbSt lbIDLE else u.rotationOff) →
      (s.bist.skips < 2 → exec .slotSkip s = .next v) ∧
      (2 ≤ s.bist.skips → exec .slotSkip s = .next
        (((v.set pBIST BIST.LB_STAT_STARVED 1).err pBIST 17).ev pBIST 16))) ∧
    (s.bist.slot = none ∨ s.lbSt ≠ lbTEST ∧ s.lbSt ≠ lbINPLACE → ∀ ok ms, exec (.lbistTestDone ok ms) s = .next s) ∧
    (∀ x, s.bist.slot = some x → s.lbSt = lbINPLACE → x.inPlace = true →
      let fin (v : State) : State := if v.rotation then (v.setLbSt lbIDLE).showNext else v.rotationOff
      (∀ ms, exec (.lbistTestDone true ms) s = .next (fin ((s.corePass x.core).slotEnd x.core))) ∧
      (∀ ms, x.logical = none → exec (.lbistTestDone false ms) s = .next
        (((s.coreFail x.core none).slotEnd x.core).setLbSt lbNOSPARE)) ∧
      (∀ ms n, x.logical = some n → exec (.lbistTestDone false ms) s = .next
        ((((s.coreFail x.core (some n)).set (pRECK n) RECK.STATUS_PHYS
          (s.coreFail x.core (some n)).spare).slotEnd x.core).setLbSt lbNOSPARE))) ∧
    (∀ x u, s.bist.slot = some x → s.lbSt = lbTEST → x.inPlace = false →
      u = (s.coreZero x.core false).coreZero x.core true →
      let fin (v : State) : State := if v.rotation then (v.setLbSt lbIDLE).showNext else v.rotationOff
      exec (.lbistTestDone true []) s = .next (fin ((u.corePass x.core).slotEnd x.core)) ∧
      exec (.lbistTestDone false []) s = .next (((u.coreFail x.core x.logical).slotEnd x.core).setLbSt lbNOSPARE)) ∧
    (s.mayAct w pBIST → s.lifeSt ≠ 1 → s.lifeSt ≠ 3 → ∀ id : Fin 256,
      let no : Nat → State := fun op => ((((s.set pBIST BIST.DTE_CMD_OP op).set pBIST BIST.DTE_CMD_ARG id).dteRes 1).answer
        w .ok)
      exec (.dteMemoryTest w id) s = .next (no 1) ∧ exec (.dteLogicTest w id) s = .next (no 2) ∧
      exec (.dteBurnRepair w id) s = .next (no 3) ∧ (s.dteRes 1).reg pBIST BIST.DTE_RES = 2 ^ 31 + 1 ∧
      (s.dteRes 1).bit pBIST PG.ERR 20 = true ∧ (s.dteRes 1).bist = s.bist) ∧
    (s.mayAct w pBIST → (s.lifeSt = 1 ∨ s.lifeSt = 3) → ∀ (id : Fin 256) (u v : Nat → State),
      u = (fun op => (s.set pBIST BIST.DTE_CMD_OP op).set pBIST BIST.DTE_CMD_ARG id) →
      v = (fun op => (u op).setReg pBIST BIST.DTE_RES 0) →
      let stands := ((List.range 32).find? (fun n => decide ((v 2).phys n = id.val))).all
        (fun k => decide ((v 2).rkSt k = rkSTOPPED))
      (s.bist.dte.isSome = true → exec (.dteMemoryTest w id) s = .next (((u 1).dteRes 2).answer w .ok) ∧
        exec (.dteLogicTest w id) s = .next (((u 2).dteRes 2).answer w .ok) ∧
        exec (.dteBurnRepair w id) s = .next (((u 3).dteRes 2).answer w .ok)) ∧
      (s.bist.dte = none →
        (0x4C ≤ id.val → exec (.dteMemoryTest w id) s = .next (((v 1).dteRes 3).answer w .ok) ∧
          exec (.dteBurnRepair w id) s = .next (((v 3).dteRes 3).answer w .ok)) ∧
        (32 ≤ id.val → exec (.dteLogicTest w id) s = .next (((v 2).dteRes 3).answer w .ok)) ∧
        (id.val < 0x4C → (v 1).memIdle id = false →
          exec (.dteMemoryTest w id) s = .next (((v 1).dteRes 2).answer w .ok)) ∧
        (id.val < 0x4C → (v 1).memIdle id = true → exec (.dteMemoryTest w id) s = .next
          (((v 1).setBist { s.bist with dte := some (1, id.val) }).answer w .ok)) ∧
        (id.val < 32 → (s.rotation = true ∨ stands = false) →
          exec (.dteLogicTest w id) s = .next (((v 2).dteRes 2).answer w .ok)) ∧
        (id.val < 32 → s.rotation = false → stands = true → exec (.dteLogicTest w id) s = .next
          (((v 2).setBist { s.bist with dte := some (2, id.val) }).answer w .ok)) ∧
        (id.val < 0x4C → exec (.dteBurnRepair w id) s = .next
          (((v 3).setBist { s.bist with dte := some (3, id.val) }).answer w .ok)))) ∧
    (s.bist.dte = none → ∀ ok f, exec (.dteDone ok f) s = .next s) ∧
    (∀ u, u = s.setBist { s.bist with dte := none } →
      (∀ k ok, s.bist.dte = some (1, k) → exec (.dteDone ok none) s = .next
        ((u.memCleared k).dteRes (if ok = true ∧ (s.memInfo k).unrep = false then 0 else 3))) ∧
      (∀ k, s.bist.dte = some (2, k) → exec (.dteDone true none) s = .next ((u.corePass k).dteRes 0) ∧
        exec (.dteDone false none) s = .next
          ((u.coreFail k ((List.range 32).find? (fun n => decide (s.phys n = k)))).dteRes 3)) ∧
      (∀ k ok, s.bist.dte = some (3, k) →
        (4 < s.fuseRows k + (s.memInfo k).rows → exec (.dteDone ok none) s = .next (u.dteRes 4)) ∧
        (s.fuseRows k + (s.memInfo k).rows ≤ 4 → exec (.dteDone ok none) s = .next
          ((u.setBist { u.bist with fuses := (s.bist.fuses.filter (fun e => !(e.1 == k))) ++
            [(k, s.fuseRows k + (s.memInfo k).rows)] }).dteRes 0)))) ∧
    (∀ (a : Fin 4096) (b : Fin 4096),
      exec (.crossingReset 3 [(w, a, b)]) s = .next
        (if w.isRemote then s.send (.resp w .timeout 0 []) else s.noPageLocal w a b)) ∧
    (∀ i : Fin 4, exec (.crossingReset ⟨4 + i, by omega⟩ []) s = .next (s.dieLinksOff i)) ∧
    exec (.crossingReset 2 []) s = .next ((((s.dieLinksOff 0).dieLinksOff 1).dieLinksOff 2).dieLinksOff 3)
end

