-- ==== Sys2Proof/Laws/Keeps.lean ====
section
/-! SUPPORT. Predicates on the state that updates keep.  A predicate closed under the primitive updates is kept by
every operation built of them: one lemma per operation says so, in the files beside this one. -/

namespace Sys2Proof.Machine

open Host (Outcome)

/-- Closed under every update that leaves the memories and the queue alone, and under writes of the board. -/
structure K0 (P : State → Prop) : Prop where
  frame : ∀ {s t : State}, P s → t.board = s.board → t.mem = s.mem → t.common = s.common → t.cf = s.cf →
    t.pairMem = s.pairMem → t.pending = s.pending → P t
  put : ∀ (s : State) (k : Nat) (v : Word), P s → P { s with board := tabPut resetWord s.board k v }
  keep : ∀ (s : State) (f : Nat → Bool), P s → P { s with board := tabKeep f s.board }

/-- Also under writes of LPDDR5. -/
structure Km (P : State → Prop) : Prop extends K0 P where
  mem : ∀ (s : State) (a : Nat) (v : Byte), P s → P { s with mem := tabPut (fun _ => 0) s.mem a v }

/-- Also under writes of the other memories, and under the reset that keeps only the flash and the queue. -/
structure K1 (P : State → Prop) : Prop extends Km P where
  common : ∀ (s : State) (i : Nat) (v : Word), P s → P { s with common := tabPut (fun _ => 0) s.common i v }
  commonOf : ∀ (s s0 : State), P s → P s0 → P { s with common := s0.common }
  noCommon : ∀ (s : State), P s → P { s with common := [] }
  cf : ∀ (s : State) (a : Nat) (v : Byte), P s → P { s with cf := tabPut (fun _ => (0xFF : Byte)) s.cf a v }
  cfKeep : ∀ (s : State) (f : Nat → Bool), P s → P { s with cf := tabKeep f s.cf }
  pair : ∀ (s : State) (a : Nat) (v : Byte), P s → P { s with pairMem := tabPut (fun _ => (0 : Byte)) s.pairMem a v }
  noPair : ∀ (s : State), P s → P { s with pairMem := [] }
  fresh : ∀ (s : State), P s → P { State.reset with cf := s.cf, pending := s.pending }

/-- A predicate on what an option holds. -/
def OptP {α : Type} (Q : α → Prop) (o : Option α) : Prop := ∀ r, o = some r → Q r

/-- A predicate on the next state of an outcome. -/
def OutP (P : State → Prop) (o : Outcome State Fault Refusal) : Prop := ∀ t, o = .next t → P t

theorem OptP.none {α : Type} {Q : α → Prop} : OptP Q none := fun _ h => nomatch h

theorem OptP.some {α : Type} {Q : α → Prop} {a : α} (h : Q a) : OptP Q (some a) :=
  fun _ e => Option.some.inj e ▸ h

theorem OptP.of {α : Type} {Q : α → Prop} {o : Option α} {a : α} (e : o = Option.some a) (h : OptP Q o) : Q a := h a e

theorem OutP.next {P : State → Prop} {t : State} (h : P t) : OutP P (.next t) :=
  fun _ e => Outcome.next.inj e ▸ h

theorem OutP.fault {P : State → Prop} {r : Fault} : OutP P (.fault r) := fun _ h => nomatch h

theorem OutP.refused {P : State → Prop} {r : Refusal} : OutP P (.refused r) := fun _ h => nomatch h

theorem optP_findSome {α β : Type} {Q : α → Prop} {f : β → Option α} {l : List β} (h : ∀ x, OptP Q (f x)) :
    OptP Q (l.findSome? f) := by
  induction l with
  | nil => exact OptP.none
  | cons x l ih =>
    intro r e
    rw [List.findSome?_cons] at e
    cases hx : f x with
    | none => rw [hx] at e; exact ih r e
    | some y => rw [hx] at e; exact h x r (hx.trans e)

theorem optP_map {α β : Type} {Q : α → Prop} {f : β → α} {o : Option β} (h : ∀ x, Q (f x)) : OptP Q (o.map f) := by
  cases o with
  | none => exact OptP.none
  | some x => exact OptP.some (h x)

section

variable {P : State → Prop} {α β : Type}

theorem fst_of {r : State × α} {s : State} {a : α} (e : r = (s, a)) (h : P r.1) : P s := by subst e; exact h

theorem snd_of {r : α × State} {s : State} {a : α} (e : r = (a, s)) (h : P r.2) : P s := by subst e; exact h

theorem opt1 {o : Option (State × α)} {r : State × α} (e : o = some r) (h : OptP (fun r => P r.1) o) : P r.1 := h _ e

theorem opt1s {o : Option (State × α)} {s : State} {a : α} (e : o = some (s, a)) (h : OptP (fun r => P r.1) o) : P s :=
  h _ e

theorem opt2 {o : Option (α × State)} {r : α × State} (e : o = some r) (h : OptP (fun r => P r.2) o) : P r.2 := h _ e

theorem opt2s {o : Option (α × State)} {s : State} {a : α} (e : o = some (a, s)) (h : OptP (fun r => P r.2) o) : P s :=
  h _ e

theorem opt_some {s : State} (h : OptP (fun r => P r) (some s)) : P s := h _ rfl

theorem opt_some1 {r : State × α} (h : OptP (fun r => P r.1) (some r)) : P r.1 := h _ rfl

theorem optP_getD1 {o : Option (State × α)} {d : State × α} (h : OptP (fun r => P r.1) o) (hd : P d.1) :
    P (o.getD d).1 := by
  cases o with
  | none => exact hd
  | some x => exact h x rfl

theorem optP_mapS {f : State → State} {o : Option State} (h : OptP (fun r => P r) o) (hf : ∀ x, P x → P (f x)) :
    OptP (fun r => P r) (o.map f) := by
  cases o with
  | none => exact OptP.none
  | some x => exact OptP.some (hf x (h x rfl))

theorem optP_getD {o : Option State} {d : State} (h : OptP (fun r => P r) o) (hd : P d) : P (o.getD d) := by
  cases o with
  | none => exact hd
  | some x => exact h x rfl

theorem keeps_ite {c : Prop} [Decidable c] {a b : State} (ha : P a) (hb : P b) : P (if c then a else b) := by
  split
  · exact ha
  · exact hb

theorem keeps_ite1 {c : Prop} [Decidable c] {a b : State × α} (ha : P a.1) (hb : P b.1) : P (if c then a else b).1 := by
  split
  · exact ha
  · exact hb

theorem keeps_ite2 {c : Prop} [Decidable c] {a b : α × State} (ha : P a.2) (hb : P b.2) : P (if c then a else b).2 := by
  split
  · exact ha
  · exact hb

theorem optP_ite {Q : α → Prop} {c : Prop} [Decidable c] {a b : Option α} (ha : OptP Q a) (hb : OptP Q b) :
    OptP Q (if c then a else b) := by
  split
  · exact ha
  · exact hb

theorem outP_ite {c : Prop} [Decidable c] {a b : Outcome State Fault Refusal} (ha : OutP P a) (hb : OutP P b) :
    OutP P (if c then a else b) := by
  split
  · exact ha
  · exact hb

theorem keeps_foldl {f : State → β → State} {l : List β} {s : State} (h : P s)
    (hf : ∀ s x, P s → P (f s x)) : P (l.foldl f s) := by
  induction l generalizing s with
  | nil => exact h
  | cons x l ih => exact ih (hf s x h)

theorem keeps_foldl1 {f : State × α → β → State × α} {l : List β} {a : State × α} (h : P a.1)
    (hf : ∀ a x, P a.1 → P (f a x).1) : P (l.foldl f a).1 := by
  induction l generalizing a with
  | nil => exact h
  | cons x l ih => exact ih (hf a x h)

theorem keeps_foldl2 {f : α × State → β → α × State} {l : List β} {a : α × State} (h : P a.2)
    (hf : ∀ a x, P a.2 → P (f a x).2) : P (l.foldl f a).2 := by
  induction l generalizing a with
  | nil => exact h
  | cons x l ih => exact ih (hf a x h)

end

/-! ## Record updates -/

theorem K0.upd {P : State → Prop} (hP : K0 P) {s : State} (h : P s) {pages_ : List (Nat × PageX)} {shadows_ : List
    (Nat × Option Word)} {waits_ : List WaitAcc} {doms_ : List (Nat × DomSt)} {beam_ : BeamX} {gens_ : List (Nat ×
    GenX)} {rods_ : List (Nat × RodX)} {links_ : List (Nat × LinkX)} {safe_ : SafeX} {convs_ : List (Nat × ConvX)}
    {digs_ : List (Nat × DigX)} {caps_ : List (Nat × List CapRec)} {recks_ : List (Nat × ReckX)} {reckMem_ : List
    (Nat × Word)} {loops_ : List (Nat × LoopX)} {vsms_ : List (Nat × VsmX)} {pcnts_ : List (Nat × PcntX)} {bead_ :
    BeadX} {home_ : HomeX} {mbus_ : List (Nat × MbX)} {cells_ : List (Nat × CellX)} {modReps_ : List (Nat × List
    ModRep)} {tallies_ : List (Nat × TallyX)} {cea_ : CeaX} {eis_ : List (Nat × EisX)} {rest_ : RestX} {sensors_ :
    List (Nat × SensX)} {crossings_ : List (Nat × Int × Nat)} {steppers_ : List (Nat × StepX)} {flinks_ : List (Nat
    × FabX)} {router_ : RouterX} {keys_ : KeysX} {sess_ : List (Nat × SessX)} {gate_ : GateX} {eths_ : List (Nat ×
    EthX)} {store_ : StoreX} {evtQueue_ : List (List Nat)} {hwPosts_ : List HwPost} {proc_ : ProcX} {sup_ : SupX}
    {bist_ : BistX} {boot_ : BootX} {out_ : List Out} {freeCtr_ : Nat} : P (State.mk s.board pages_ shadows_ waits_
    doms_ beam_ gens_ rods_ links_ safe_ convs_ digs_ caps_ s.mem s.common recks_ reckMem_ loops_ vsms_ pcnts_ bead_
    home_ mbus_ cells_ modReps_ tallies_ cea_ eis_ rest_ sensors_ crossings_ steppers_ flinks_ router_ keys_ sess_
    gate_ eths_ store_ evtQueue_ s.cf s.pairMem hwPosts_ proc_ sup_ bist_ boot_ out_ freeCtr_ s.pending) :=
  hP.frame h rfl rfl rfl rfl rfl rfl

theorem K0.updPut {P : State → Prop} (hP : K0 P) {s : State} (h : P s) {k : Nat} {v : Word} {pages_ : List (Nat ×
    PageX)} {shadows_ : List (Nat × Option Word)} {waits_ : List WaitAcc} {doms_ : List (Nat × DomSt)} {beam_ :
    BeamX} {gens_ : List (Nat × GenX)} {rods_ : List (Nat × RodX)} {links_ : List (Nat × LinkX)} {safe_ : SafeX}
    {convs_ : List (Nat × ConvX)} {digs_ : List (Nat × DigX)} {caps_ : List (Nat × List CapRec)} {recks_ : List (Nat
    × ReckX)} {reckMem_ : List (Nat × Word)} {loops_ : List (Nat × LoopX)} {vsms_ : List (Nat × VsmX)} {pcnts_ :
    List (Nat × PcntX)} {bead_ : BeadX} {home_ : HomeX} {mbus_ : List (Nat × MbX)} {cells_ : List (Nat × CellX)}
    {modReps_ : List (Nat × List ModRep)} {tallies_ : List (Nat × TallyX)} {cea_ : CeaX} {eis_ : List (Nat × EisX)}
    {rest_ : RestX} {sensors_ : List (Nat × SensX)} {crossings_ : List (Nat × Int × Nat)} {steppers_ : List (Nat ×
    StepX)} {flinks_ : List (Nat × FabX)} {router_ : RouterX} {keys_ : KeysX} {sess_ : List (Nat × SessX)} {gate_ :
    GateX} {eths_ : List (Nat × EthX)} {store_ : StoreX} {evtQueue_ : List (List Nat)} {hwPosts_ : List HwPost}
    {proc_ : ProcX} {sup_ : SupX} {bist_ : BistX} {boot_ : BootX} {out_ : List Out} {freeCtr_ : Nat} : P (State.mk
    (tabPut resetWord s.board k v) pages_ shadows_ waits_ doms_ beam_ gens_ rods_ links_ safe_ convs_ digs_ caps_
    s.mem s.common recks_ reckMem_ loops_ vsms_ pcnts_ bead_ home_ mbus_ cells_ modReps_ tallies_ cea_ eis_ rest_
    sensors_ crossings_ steppers_ flinks_ router_ keys_ sess_ gate_ eths_ store_ evtQueue_ s.cf s.pairMem hwPosts_
    proc_ sup_ bist_ boot_ out_ freeCtr_ s.pending) :=
  hP.frame (hP.put s k v h) rfl rfl rfl rfl rfl rfl

theorem K0.updKeep {P : State → Prop} (hP : K0 P) {s : State} (h : P s) {f : Nat → Bool} {pages_ : List (Nat ×
    PageX)} {shadows_ : List (Nat × Option Word)} {waits_ : List WaitAcc} {doms_ : List (Nat × DomSt)} {beam_ :
    BeamX} {gens_ : List (Nat × GenX)} {rods_ : List (Nat × RodX)} {links_ : List (Nat × LinkX)} {safe_ : SafeX}
    {convs_ : List (Nat × ConvX)} {digs_ : List (Nat × DigX)} {caps_ : List (Nat × List CapRec)} {recks_ : List (Nat
    × ReckX)} {reckMem_ : List (Nat × Word)} {loops_ : List (Nat × LoopX)} {vsms_ : List (Nat × VsmX)} {pcnts_ :
    List (Nat × PcntX)} {bead_ : BeadX} {home_ : HomeX} {mbus_ : List (Nat × MbX)} {cells_ : List (Nat × CellX)}
    {modReps_ : List (Nat × List ModRep)} {tallies_ : List (Nat × TallyX)} {cea_ : CeaX} {eis_ : List (Nat × EisX)}
    {rest_ : RestX} {sensors_ : List (Nat × SensX)} {crossings_ : List (Nat × Int × Nat)} {steppers_ : List (Nat ×
    StepX)} {flinks_ : List (Nat × FabX)} {router_ : RouterX} {keys_ : KeysX} {sess_ : List (Nat × SessX)} {gate_ :
    GateX} {eths_ : List (Nat × EthX)} {store_ : StoreX} {evtQueue_ : List (List Nat)} {hwPosts_ : List HwPost}
    {proc_ : ProcX} {sup_ : SupX} {bist_ : BistX} {boot_ : BootX} {out_ : List Out} {freeCtr_ : Nat} : P (State.mk
    (tabKeep f s.board) pages_ shadows_ waits_ doms_ beam_ gens_ rods_ links_ safe_ convs_ digs_ caps_ s.mem
    s.common recks_ reckMem_ loops_ vsms_ pcnts_ bead_ home_ mbus_ cells_ modReps_ tallies_ cea_ eis_ rest_ sensors_
    crossings_ steppers_ flinks_ router_ keys_ sess_ gate_ eths_ store_ evtQueue_ s.cf s.pairMem hwPosts_ proc_ sup_
    bist_ boot_ out_ freeCtr_ s.pending) :=
  hP.frame (hP.keep s f h) rfl rfl rfl rfl rfl rfl

theorem Km.updMem {P : State → Prop} (hP : Km P) {s : State} (h : P s) {a : Nat} {v : Byte} {pages_ : List (Nat ×
    PageX)} {shadows_ : List (Nat × Option Word)} {waits_ : List WaitAcc} {doms_ : List (Nat × DomSt)} {beam_ :
    BeamX} {gens_ : List (Nat × GenX)} {rods_ : List (Nat × RodX)} {links_ : List (Nat × LinkX)} {safe_ : SafeX}
    {convs_ : List (Nat × ConvX)} {digs_ : List (Nat × DigX)} {caps_ : List (Nat × List CapRec)} {recks_ : List (Nat
    × ReckX)} {reckMem_ : List (Nat × Word)} {loops_ : List (Nat × LoopX)} {vsms_ : List (Nat × VsmX)} {pcnts_ :
    List (Nat × PcntX)} {bead_ : BeadX} {home_ : HomeX} {mbus_ : List (Nat × MbX)} {cells_ : List (Nat × CellX)}
    {modReps_ : List (Nat × List ModRep)} {tallies_ : List (Nat × TallyX)} {cea_ : CeaX} {eis_ : List (Nat × EisX)}
    {rest_ : RestX} {sensors_ : List (Nat × SensX)} {crossings_ : List (Nat × Int × Nat)} {steppers_ : List (Nat ×
    StepX)} {flinks_ : List (Nat × FabX)} {router_ : RouterX} {keys_ : KeysX} {sess_ : List (Nat × SessX)} {gate_ :
    GateX} {eths_ : List (Nat × EthX)} {store_ : StoreX} {evtQueue_ : List (List Nat)} {hwPosts_ : List HwPost}
    {proc_ : ProcX} {sup_ : SupX} {bist_ : BistX} {boot_ : BootX} {out_ : List Out} {freeCtr_ : Nat} : P (State.mk
    s.board pages_ shadows_ waits_ doms_ beam_ gens_ rods_ links_ safe_ convs_ digs_ caps_ (tabPut (fun _ => 0)
    s.mem a v) s.common recks_ reckMem_ loops_ vsms_ pcnts_ bead_ home_ mbus_ cells_ modReps_ tallies_ cea_ eis_
    rest_ sensors_ crossings_ steppers_ flinks_ router_ keys_ sess_ gate_ eths_ store_ evtQueue_ s.cf s.pairMem
    hwPosts_ proc_ sup_ bist_ boot_ out_ freeCtr_ s.pending) :=
  hP.frame (hP.mem s a v h) rfl rfl rfl rfl rfl rfl

theorem K1.updCommon {P : State → Prop} (hP : K1 P) {s : State} (h : P s) {i : Nat} {v : Word} {pages_ : List (Nat ×
    PageX)} {shadows_ : List (Nat × Option Word)} {waits_ : List WaitAcc} {doms_ : List (Nat × DomSt)} {beam_ :
    BeamX} {gens_ : List (Nat × GenX)} {rods_ : List (Nat × RodX)} {links_ : List (Nat × LinkX)} {safe_ : SafeX}
    {convs_ : List (Nat × ConvX)} {digs_ : List (Nat × DigX)} {caps_ : List (Nat × List CapRec)} {recks_ : List (Nat
    × ReckX)} {reckMem_ : List (Nat × Word)} {loops_ : List (Nat × LoopX)} {vsms_ : List (Nat × VsmX)} {pcnts_ :
    List (Nat × PcntX)} {bead_ : BeadX} {home_ : HomeX} {mbus_ : List (Nat × MbX)} {cells_ : List (Nat × CellX)}
    {modReps_ : List (Nat × List ModRep)} {tallies_ : List (Nat × TallyX)} {cea_ : CeaX} {eis_ : List (Nat × EisX)}
    {rest_ : RestX} {sensors_ : List (Nat × SensX)} {crossings_ : List (Nat × Int × Nat)} {steppers_ : List (Nat ×
    StepX)} {flinks_ : List (Nat × FabX)} {router_ : RouterX} {keys_ : KeysX} {sess_ : List (Nat × SessX)} {gate_ :
    GateX} {eths_ : List (Nat × EthX)} {store_ : StoreX} {evtQueue_ : List (List Nat)} {hwPosts_ : List HwPost}
    {proc_ : ProcX} {sup_ : SupX} {bist_ : BistX} {boot_ : BootX} {out_ : List Out} {freeCtr_ : Nat} : P (State.mk
    s.board pages_ shadows_ waits_ doms_ beam_ gens_ rods_ links_ safe_ convs_ digs_ caps_ s.mem (tabPut (fun _ =>
    0) s.common i v) recks_ reckMem_ loops_ vsms_ pcnts_ bead_ home_ mbus_ cells_ modReps_ tallies_ cea_ eis_ rest_
    sensors_ crossings_ steppers_ flinks_ router_ keys_ sess_ gate_ eths_ store_ evtQueue_ s.cf s.pairMem hwPosts_
    proc_ sup_ bist_ boot_ out_ freeCtr_ s.pending) :=
  hP.frame (hP.common s i v h) rfl rfl rfl rfl rfl rfl

theorem K1.updNoCommon {P : State → Prop} (hP : K1 P) {s : State} (h : P s) {pages_ : List (Nat × PageX)} {shadows_
    : List (Nat × Option Word)} {waits_ : List WaitAcc} {doms_ : List (Nat × DomSt)} {beam_ : BeamX} {gens_ : List
    (Nat × GenX)} {rods_ : List (Nat × RodX)} {links_ : List (Nat × LinkX)} {safe_ : SafeX} {convs_ : List (Nat ×
    ConvX)} {digs_ : List (Nat × DigX)} {caps_ : List (Nat × List CapRec)} {recks_ : List (Nat × ReckX)} {reckMem_ :
    List (Nat × Word)} {loops_ : List (Nat × LoopX)} {vsms_ : List (Nat × VsmX)} {pcnts_ : List (Nat × PcntX)}
    {bead_ : BeadX} {home_ : HomeX} {mbus_ : List (Nat × MbX)} {cells_ : List (Nat × CellX)} {modReps_ : List (Nat ×
    List ModRep)} {tallies_ : List (Nat × TallyX)} {cea_ : CeaX} {eis_ : List (Nat × EisX)} {rest_ : RestX}
    {sensors_ : List (Nat × SensX)} {crossings_ : List (Nat × Int × Nat)} {steppers_ : List (Nat × StepX)} {flinks_
    : List (Nat × FabX)} {router_ : RouterX} {keys_ : KeysX} {sess_ : List (Nat × SessX)} {gate_ : GateX} {eths_ :
    List (Nat × EthX)} {store_ : StoreX} {evtQueue_ : List (List Nat)} {hwPosts_ : List HwPost} {proc_ : ProcX}
    {sup_ : SupX} {bist_ : BistX} {boot_ : BootX} {out_ : List Out} {freeCtr_ : Nat} : P (State.mk s.board pages_
    shadows_ waits_ doms_ beam_ gens_ rods_ links_ safe_ convs_ digs_ caps_ s.mem ([]) recks_ reckMem_ loops_ vsms_
    pcnts_ bead_ home_ mbus_ cells_ modReps_ tallies_ cea_ eis_ rest_ sensors_ crossings_ steppers_ flinks_ router_
    keys_ sess_ gate_ eths_ store_ evtQueue_ s.cf s.pairMem hwPosts_ proc_ sup_ bist_ boot_ out_ freeCtr_ s.pending)
    :=
  hP.frame (hP.noCommon s h) rfl rfl rfl rfl rfl rfl

theorem K1.updCommonOf {P : State → Prop} (hP : K1 P) {s : State} (h : P s) {s0 : State} (h0 : P s0) {pages_ : List
    (Nat × PageX)} {shadows_ : List (Nat × Option Word)} {waits_ : List WaitAcc} {doms_ : List (Nat × DomSt)} {beam_
    : BeamX} {gens_ : List (Nat × GenX)} {rods_ : List (Nat × RodX)} {links_ : List (Nat × LinkX)} {safe_ : SafeX}
    {convs_ : List (Nat × ConvX)} {digs_ : List (Nat × DigX)} {caps_ : List (Nat × List CapRec)} {recks_ : List (Nat
    × ReckX)} {reckMem_ : List (Nat × Word)} {loops_ : List (Nat × LoopX)} {vsms_ : List (Nat × VsmX)} {pcnts_ :
    List (Nat × PcntX)} {bead_ : BeadX} {home_ : HomeX} {mbus_ : List (Nat × MbX)} {cells_ : List (Nat × CellX)}
    {modReps_ : List (Nat × List ModRep)} {tallies_ : List (Nat × TallyX)} {cea_ : CeaX} {eis_ : List (Nat × EisX)}
    {rest_ : RestX} {sensors_ : List (Nat × SensX)} {crossings_ : List (Nat × Int × Nat)} {steppers_ : List (Nat ×
    StepX)} {flinks_ : List (Nat × FabX)} {router_ : RouterX} {keys_ : KeysX} {sess_ : List (Nat × SessX)} {gate_ :
    GateX} {eths_ : List (Nat × EthX)} {store_ : StoreX} {evtQueue_ : List (List Nat)} {hwPosts_ : List HwPost}
    {proc_ : ProcX} {sup_ : SupX} {bist_ : BistX} {boot_ : BootX} {out_ : List Out} {freeCtr_ : Nat} : P (State.mk
    s.board pages_ shadows_ waits_ doms_ beam_ gens_ rods_ links_ safe_ convs_ digs_ caps_ s.mem (s0.common) recks_
    reckMem_ loops_ vsms_ pcnts_ bead_ home_ mbus_ cells_ modReps_ tallies_ cea_ eis_ rest_ sensors_ crossings_
    steppers_ flinks_ router_ keys_ sess_ gate_ eths_ store_ evtQueue_ s.cf s.pairMem hwPosts_ proc_ sup_ bist_
    boot_ out_ freeCtr_ s.pending) :=
  hP.frame (hP.commonOf s s0 h h0) rfl rfl rfl rfl rfl rfl

theorem K1.updNoBoth {P : State → Prop} (hP : K1 P) {s : State} (h : P s) {pages_ : List (Nat × PageX)} {shadows_ :
    List (Nat × Option Word)} {waits_ : List WaitAcc} {doms_ : List (Nat × DomSt)} {beam_ : BeamX} {gens_ : List
    (Nat × GenX)} {rods_ : List (Nat × RodX)} {links_ : List (Nat × LinkX)} {safe_ : SafeX} {convs_ : List (Nat ×
    ConvX)} {digs_ : List (Nat × DigX)} {caps_ : List (Nat × List CapRec)} {recks_ : List (Nat × ReckX)} {reckMem_ :
    List (Nat × Word)} {loops_ : List (Nat × LoopX)} {vsms_ : List (Nat × VsmX)} {pcnts_ : List (Nat × PcntX)}
    {bead_ : BeadX} {home_ : HomeX} {mbus_ : List (Nat × MbX)} {cells_ : List (Nat × CellX)} {modReps_ : List (Nat ×
    List ModRep)} {tallies_ : List (Nat × TallyX)} {cea_ : CeaX} {eis_ : List (Nat × EisX)} {rest_ : RestX}
    {sensors_ : List (Nat × SensX)} {crossings_ : List (Nat × Int × Nat)} {steppers_ : List (Nat × StepX)} {flinks_
    : List (Nat × FabX)} {router_ : RouterX} {keys_ : KeysX} {sess_ : List (Nat × SessX)} {gate_ : GateX} {eths_ :
    List (Nat × EthX)} {store_ : StoreX} {evtQueue_ : List (List Nat)} {hwPosts_ : List HwPost} {proc_ : ProcX}
    {sup_ : SupX} {bist_ : BistX} {boot_ : BootX} {out_ : List Out} {freeCtr_ : Nat} : P (State.mk s.board pages_
    shadows_ waits_ doms_ beam_ gens_ rods_ links_ safe_ convs_ digs_ caps_ s.mem ([]) recks_ reckMem_ loops_ vsms_
    pcnts_ bead_ home_ mbus_ cells_ modReps_ tallies_ cea_ eis_ rest_ sensors_ crossings_ steppers_ flinks_ router_
    keys_ sess_ gate_ eths_ store_ evtQueue_ s.cf ([]) hwPosts_ proc_ sup_ bist_ boot_ out_ freeCtr_ s.pending) :=
  hP.frame (hP.noPair _ (hP.noCommon s h)) rfl rfl rfl rfl rfl rfl

theorem K1.updNoPair {P : State → Prop} (hP : K1 P) {s : State} (h : P s) {pages_ : List (Nat × PageX)} {shadows_ :
    List (Nat × Option Word)} {waits_ : List WaitAcc} {doms_ : List (Nat × DomSt)} {beam_ : BeamX} {gens_ : List
    (Nat × GenX)} {rods_ : List (Nat × RodX)} {links_ : List (Nat × LinkX)} {safe_ : SafeX} {convs_ : List (Nat ×
    ConvX)} {digs_ : List (Nat × DigX)} {caps_ : List (Nat × List CapRec)} {recks_ : List (Nat × ReckX)} {reckMem_ :
    List (Nat × Word)} {loops_ : List (Nat × LoopX)} {vsms_ : List (Nat × VsmX)} {pcnts_ : List (Nat × PcntX)}
    {bead_ : BeadX} {home_ : HomeX} {mbus_ : List (Nat × MbX)} {cells_ : List (Nat × CellX)} {modReps_ : List (Nat ×
    List ModRep)} {tallies_ : List (Nat × TallyX)} {cea_ : CeaX} {eis_ : List (Nat × EisX)} {rest_ : RestX}
    {sensors_ : List (Nat × SensX)} {crossings_ : List (Nat × Int × Nat)} {steppers_ : List (Nat × StepX)} {flinks_
    : List (Nat × FabX)} {router_ : RouterX} {keys_ : KeysX} {sess_ : List (Nat × SessX)} {gate_ : GateX} {eths_ :
    List (Nat × EthX)} {store_ : StoreX} {evtQueue_ : List (List Nat)} {hwPosts_ : List HwPost} {proc_ : ProcX}
    {sup_ : SupX} {bist_ : BistX} {boot_ : BootX} {out_ : List Out} {freeCtr_ : Nat} : P (State.mk s.board pages_
    shadows_ waits_ doms_ beam_ gens_ rods_ links_ safe_ convs_ digs_ caps_ s.mem s.common recks_ reckMem_ loops_
    vsms_ pcnts_ bead_ home_ mbus_ cells_ modReps_ tallies_ cea_ eis_ rest_ sensors_ crossings_ steppers_ flinks_
    router_ keys_ sess_ gate_ eths_ store_ evtQueue_ s.cf ([]) hwPosts_ proc_ sup_ bist_ boot_ out_ freeCtr_
    s.pending) :=
  hP.frame (hP.noPair s h) rfl rfl rfl rfl rfl rfl

theorem K1.updCf {P : State → Prop} (hP : K1 P) {s : State} (h : P s) {a : Nat} {v : Byte} {pages_ : List (Nat ×
    PageX)} {shadows_ : List (Nat × Option Word)} {waits_ : List WaitAcc} {doms_ : List (Nat × DomSt)} {beam_ :
    BeamX} {gens_ : List (Nat × GenX)} {rods_ : List (Nat × RodX)} {links_ : List (Nat × LinkX)} {safe_ : SafeX}
    {convs_ : List (Nat × ConvX)} {digs_ : List (Nat × DigX)} {caps_ : List (Nat × List CapRec)} {recks_ : List (Nat
    × ReckX)} {reckMem_ : List (Nat × Word)} {loops_ : List (Nat × LoopX)} {vsms_ : List (Nat × VsmX)} {pcnts_ :
    List (Nat × PcntX)} {bead_ : BeadX} {home_ : HomeX} {mbus_ : List (Nat × MbX)} {cells_ : List (Nat × CellX)}
    {modReps_ : List (Nat × List ModRep)} {tallies_ : List (Nat × TallyX)} {cea_ : CeaX} {eis_ : List (Nat × EisX)}
    {rest_ : RestX} {sensors_ : List (Nat × SensX)} {crossings_ : List (Nat × Int × Nat)} {steppers_ : List (Nat ×
    StepX)} {flinks_ : List (Nat × FabX)} {router_ : RouterX} {keys_ : KeysX} {sess_ : List (Nat × SessX)} {gate_ :
    GateX} {eths_ : List (Nat × EthX)} {store_ : StoreX} {evtQueue_ : List (List Nat)} {hwPosts_ : List HwPost}
    {proc_ : ProcX} {sup_ : SupX} {bist_ : BistX} {boot_ : BootX} {out_ : List Out} {freeCtr_ : Nat} : P (State.mk
    s.board pages_ shadows_ waits_ doms_ beam_ gens_ rods_ links_ safe_ convs_ digs_ caps_ s.mem s.common recks_
    reckMem_ loops_ vsms_ pcnts_ bead_ home_ mbus_ cells_ modReps_ tallies_ cea_ eis_ rest_ sensors_ crossings_
    steppers_ flinks_ router_ keys_ sess_ gate_ eths_ store_ evtQueue_ (tabPut (fun _ => (0xFF : Byte)) s.cf a v)
    s.pairMem hwPosts_ proc_ sup_ bist_ boot_ out_ freeCtr_ s.pending) :=
  hP.frame (hP.cf s a v h) rfl rfl rfl rfl rfl rfl

theorem K1.updCfKeep {P : State → Prop} (hP : K1 P) {s : State} (h : P s) {f : Nat → Bool} {pages_ : List (Nat ×
    PageX)} {shadows_ : List (Nat × Option Word)} {waits_ : List WaitAcc} {doms_ : List (Nat × DomSt)} {beam_ :
    BeamX} {gens_ : List (Nat × GenX)} {rods_ : List (Nat × RodX)} {links_ : List (Nat × LinkX)} {safe_ : SafeX}
    {convs_ : List (Nat × ConvX)} {digs_ : List (Nat × DigX)} {caps_ : List (Nat × List CapRec)} {recks_ : List (Nat
    × ReckX)} {reckMem_ : List (Nat × Word)} {loops_ : List (Nat × LoopX)} {vsms_ : List (Nat × VsmX)} {pcnts_ :
    List (Nat × PcntX)} {bead_ : BeadX} {home_ : HomeX} {mbus_ : List (Nat × MbX)} {cells_ : List (Nat × CellX)}
    {modReps_ : List (Nat × List ModRep)} {tallies_ : List (Nat × TallyX)} {cea_ : CeaX} {eis_ : List (Nat × EisX)}
    {rest_ : RestX} {sensors_ : List (Nat × SensX)} {crossings_ : List (Nat × Int × Nat)} {steppers_ : List (Nat ×
    StepX)} {flinks_ : List (Nat × FabX)} {router_ : RouterX} {keys_ : KeysX} {sess_ : List (Nat × SessX)} {gate_ :
    GateX} {eths_ : List (Nat × EthX)} {store_ : StoreX} {evtQueue_ : List (List Nat)} {hwPosts_ : List HwPost}
    {proc_ : ProcX} {sup_ : SupX} {bist_ : BistX} {boot_ : BootX} {out_ : List Out} {freeCtr_ : Nat} : P (State.mk
    s.board pages_ shadows_ waits_ doms_ beam_ gens_ rods_ links_ safe_ convs_ digs_ caps_ s.mem s.common recks_
    reckMem_ loops_ vsms_ pcnts_ bead_ home_ mbus_ cells_ modReps_ tallies_ cea_ eis_ rest_ sensors_ crossings_
    steppers_ flinks_ router_ keys_ sess_ gate_ eths_ store_ evtQueue_ (tabKeep f s.cf) s.pairMem hwPosts_ proc_
    sup_ bist_ boot_ out_ freeCtr_ s.pending) :=
  hP.frame (hP.cfKeep s f h) rfl rfl rfl rfl rfl rfl

theorem K1.updPair {P : State → Prop} (hP : K1 P) {s : State} (h : P s) {a : Nat} {v : Byte} {pages_ : List (Nat ×
    PageX)} {shadows_ : List (Nat × Option Word)} {waits_ : List WaitAcc} {doms_ : List (Nat × DomSt)} {beam_ :
    BeamX} {gens_ : List (Nat × GenX)} {rods_ : List (Nat × RodX)} {links_ : List (Nat × LinkX)} {safe_ : SafeX}
    {convs_ : List (Nat × ConvX)} {digs_ : List (Nat × DigX)} {caps_ : List (Nat × List CapRec)} {recks_ : List (Nat
    × ReckX)} {reckMem_ : List (Nat × Word)} {loops_ : List (Nat × LoopX)} {vsms_ : List (Nat × VsmX)} {pcnts_ :
    List (Nat × PcntX)} {bead_ : BeadX} {home_ : HomeX} {mbus_ : List (Nat × MbX)} {cells_ : List (Nat × CellX)}
    {modReps_ : List (Nat × List ModRep)} {tallies_ : List (Nat × TallyX)} {cea_ : CeaX} {eis_ : List (Nat × EisX)}
    {rest_ : RestX} {sensors_ : List (Nat × SensX)} {crossings_ : List (Nat × Int × Nat)} {steppers_ : List (Nat ×
    StepX)} {flinks_ : List (Nat × FabX)} {router_ : RouterX} {keys_ : KeysX} {sess_ : List (Nat × SessX)} {gate_ :
    GateX} {eths_ : List (Nat × EthX)} {store_ : StoreX} {evtQueue_ : List (List Nat)} {hwPosts_ : List HwPost}
    {proc_ : ProcX} {sup_ : SupX} {bist_ : BistX} {boot_ : BootX} {out_ : List Out} {freeCtr_ : Nat} : P (State.mk
    s.board pages_ shadows_ waits_ doms_ beam_ gens_ rods_ links_ safe_ convs_ digs_ caps_ s.mem s.common recks_
    reckMem_ loops_ vsms_ pcnts_ bead_ home_ mbus_ cells_ modReps_ tallies_ cea_ eis_ rest_ sensors_ crossings_
    steppers_ flinks_ router_ keys_ sess_ gate_ eths_ store_ evtQueue_ s.cf (tabPut (fun _ => (0 : Byte)) s.pairMem
    a v) hwPosts_ proc_ sup_ bist_ boot_ out_ freeCtr_ s.pending) :=
  hP.frame (hP.pair s a v h) rfl rfl rfl rfl rfl rfl

theorem K1.updFresh {P : State → Prop} (hP : K1 P) {s : State} (h : P s) {pages_ : List (Nat × PageX)} {shadows_ :
    List (Nat × Option Word)} {waits_ : List WaitAcc} {doms_ : List (Nat × DomSt)} {beam_ : BeamX} {gens_ : List
    (Nat × GenX)} {rods_ : List (Nat × RodX)} {links_ : List (Nat × LinkX)} {safe_ : SafeX} {convs_ : List (Nat ×
    ConvX)} {digs_ : List (Nat × DigX)} {caps_ : List (Nat × List CapRec)} {recks_ : List (Nat × ReckX)} {reckMem_ :
    List (Nat × Word)} {loops_ : List (Nat × LoopX)} {vsms_ : List (Nat × VsmX)} {pcnts_ : List (Nat × PcntX)}
    {bead_ : BeadX} {home_ : HomeX} {mbus_ : List (Nat × MbX)} {cells_ : List (Nat × CellX)} {modReps_ : List (Nat ×
    List ModRep)} {tallies_ : List (Nat × TallyX)} {cea_ : CeaX} {eis_ : List (Nat × EisX)} {rest_ : RestX}
    {sensors_ : List (Nat × SensX)} {crossings_ : List (Nat × Int × Nat)} {steppers_ : List (Nat × StepX)} {flinks_
    : List (Nat × FabX)} {router_ : RouterX} {keys_ : KeysX} {sess_ : List (Nat × SessX)} {gate_ : GateX} {eths_ :
    List (Nat × EthX)} {store_ : StoreX} {evtQueue_ : List (List Nat)} {hwPosts_ : List HwPost} {proc_ : ProcX}
    {sup_ : SupX} {bist_ : BistX} {boot_ : BootX} {out_ : List Out} {freeCtr_ : Nat} : P (State.mk ([]) pages_
    shadows_ waits_ doms_ beam_ gens_ rods_ links_ safe_ convs_ digs_ caps_ ([]) ([]) recks_ reckMem_ loops_ vsms_
    pcnts_ bead_ home_ mbus_ cells_ modReps_ tallies_ cea_ eis_ rest_ sensors_ crossings_ steppers_ flinks_ router_
    keys_ sess_ gate_ eths_ store_ evtQueue_ s.cf ([]) hwPosts_ proc_ sup_ bist_ boot_ out_ freeCtr_ s.pending) :=
  hP.frame (hP.fresh s h) rfl rfl rfl rfl rfl rfl

end Sys2Proof.Machine
end

