-- ==== Sys2Proof/Laws/KOps.lean ====
section
/-! SUPPORT. What the operations of Machine.Ops keep. -/

namespace Sys2Proof.Machine

open Host (Outcome)

theorem keeps_State_setWord {P : State → Prop} (hP : K0 P) {s p off v} (h_s : P s) :
    P (State.setWord s p off v) := by
  unfold State.setWord
  repeat' (first
    | with_reducible assumption
    | fail_if_no_progress with_reducible refine hP.updPut ?_)

theorem keeps_State_set {P : State → Prop} (hP : K0 P) {s p f v} (h_s : P s) :
    P (State.set s p f v) := by
  unfold State.set
  repeat' (first
    | with_reducible assumption
    | with_reducible apply keeps_State_setWord)

theorem keeps_State_setB {P : State → Prop} (hP : K0 P) {s p f b} (h_s : P s) :
    P (State.setB s p f b) := by
  unfold State.setB
  repeat' (first
    | with_reducible assumption
    | with_reducible apply keeps_State_set)

theorem keeps_State_setBit {P : State → Prop} (hP : K0 P) {s p off i b} (h_s : P s) :
    P (State.setBit s p off i b) := by
  unfold State.setBit
  repeat' (first
    | with_reducible assumption
    | with_reducible apply keeps_State_setB)

theorem keeps_State_ev {P : State → Prop} (hP : K0 P) {s p i} (h_s : P s) :
    P (State.ev s p i) := by
  unfold State.ev
  repeat' (first
    | with_reducible assumption
    | with_reducible apply keeps_State_setBit)

theorem keeps_State_setReg {P : State → Prop} (hP : K0 P) {s p off v} (h_s : P s) :
    P (State.setReg s p off v) := by
  unfold State.setReg
  repeat' (first
    | with_reducible assumption
    | with_reducible apply keeps_State_setWord)

theorem keeps_State_send {P : State → Prop} (hP : K0 P) {s o} (h_s : P s) :
    P (State.send s o) := by
  unfold State.send
  repeat' (first
    | with_reducible assumption
    | fail_if_no_progress with_reducible refine hP.upd ?_)

theorem keeps_State_inc {P : State → Prop} (hP : K0 P) {s p off n} (h_s : P s) :
    P (State.inc s p off n) := by
  unfold State.inc
  repeat' (first
    | with_reducible assumption
    | with_reducible apply keeps_State_setReg)

theorem keeps_State_incSat {P : State → Prop} (hP : K0 P) {s p off n} (h_s : P s) :
    P (State.incSat s p off n) := by
  unfold State.incSat
  repeat' (first
    | with_reducible assumption
    | with_reducible apply keeps_State_setReg)

theorem keeps_State_incF {P : State → Prop} (hP : K0 P) {s p f n} (h_s : P s) :
    P (State.incF s p f n) := by
  unfold State.incF
  repeat' (first
    | with_reducible assumption
    | with_reducible apply keeps_State_set)

theorem keeps_State_err {P : State → Prop} (hP : K0 P) {s p i} (h_s : P s) :
    P (State.err s p i) := by
  unfold State.err
  repeat' (first
    | with_reducible assumption
    | with_reducible apply keeps_State_setBit
    | with_reducible apply keeps_State_incF
    | with_reducible apply keeps_ite)

theorem keeps_State_setPg {P : State → Prop} (hP : K0 P) {s p x} (h_s : P s) :
    P (State.setPg s p x) := by
  unfold State.setPg
  repeat' (first
    | with_reducible assumption
    | fail_if_no_progress with_reducible refine hP.upd ?_)

theorem keeps_State_endLease {P : State → Prop} (hP : K0 P) {s p} (h_s : P s) :
    P (State.endLease s p) := by
  unfold State.endLease
  repeat' (first
    | with_reducible assumption
    | with_reducible apply keeps_State_setPg
    | with_reducible apply keeps_State_ev
    | (extract_lets +onlyGivenNames x; clear_value x; revert x; intro y)
    | split)

theorem keeps_State_ownerLost {P : State → Prop} (hP : K0 P) {s w} (h_s : P s) :
    P (State.ownerLost s w) := by
  unfold State.ownerLost
  repeat' (first
    | with_reducible assumption
    | with_reducible apply keeps_State_endLease
    | with_reducible apply keeps_foldl
    | with_reducible intro _
    | with_reducible apply keeps_ite)

theorem keeps_State_setDom {P : State → Prop} (hP : K0 P) {s d v} (h_s : P s) :
    P (State.setDom s d v) := by
  unfold State.setDom
  repeat' (first
    | with_reducible assumption
    | with_reducible apply keeps_State_ev
    | with_reducible apply keeps_foldl
    | with_reducible intro _
    | (extract_lets +onlyGivenNames x; (have hx : P x := ?_); clear_value x; revert x; intro y hy; rotate_left; unfold x; clear x)
    | with_reducible apply keeps_ite
    | fail_if_no_progress with_reducible refine hP.upd ?_)

theorem keeps_State_free {P : State → Prop} (hP : K0 P) {s} (h_s : P s) :
    P ((State.free s)).2 := by
  unfold State.free
  repeat' (first
    | with_reducible assumption
    | dsimp -zeta only
    | fail_if_no_progress with_reducible refine hP.upd ?_)

theorem keeps_State_applyCommit {P : State → Prop} (hP : K0 P) {s p} (h_s : P s) :
    P (State.applyCommit s p) := by
  unfold State.applyCommit
  repeat' (first
    | with_reducible assumption
    | with_reducible apply keeps_State_inc
    | with_reducible apply keeps_State_ev
    | with_reducible apply keeps_State_setPg
    | with_reducible apply keeps_foldl
    | with_reducible intro _
    | (extract_lets +onlyGivenNames x; (have hx : P x := ?_); clear_value x; revert x; intro y hy; rotate_left; unfold x; clear x)
    | (extract_lets +onlyGivenNames x; clear_value x; revert x; intro y)
    | with_reducible apply keeps_ite
    | fail_if_no_progress with_reducible refine hP.updPut ?_)

theorem keeps_State_setRegSat {P : State → Prop} (hP : K0 P) {s p off x} (h_s : P s) :
    P (State.setRegSat s p off x) := by
  unfold State.setRegSat
  repeat' (first
    | with_reducible assumption
    | with_reducible apply keeps_State_setReg)

theorem keeps_refuseAll {P : State → Prop} (hP : K0 P) {s p bits c} (h_s : P s) :
    P ((refuseAll s p bits c)).1 := by
  unfold refuseAll
  repeat' (first
    | with_reducible assumption
    | with_reducible apply keeps_State_err
    | with_reducible apply keeps_foldl
    | with_reducible intro _)

theorem keeps_refuse {P : State → Prop} (hP : K0 P) {s p bit c} (h_s : P s) :
    P ((refuse s p bit c)).1 := by
  unfold refuse
  repeat' (first
    | with_reducible assumption
    | with_reducible apply keeps_State_err)

theorem keeps_State_refuseShutting {P : State → Prop} (hP : K0 P) {s w p} (h_s : P s) :
    P ((State.refuseShutting s w p)).1 := by
  unfold State.refuseShutting
  repeat' (first
    | with_reducible assumption
    | with_reducible apply keeps_refuse
    | with_reducible apply keeps_State_err
    | with_reducible apply keeps_ite)

theorem keeps_State_restAccess {P : State → Prop} (hP : K0 P) {s p} (h_s : P s) :
    P (State.restAccess s p) := by
  unfold State.restAccess
  repeat' (first
    | with_reducible assumption
    | with_reducible apply keeps_State_setReg
    | with_reducible apply keeps_State_ev
    | with_reducible apply keeps_ite)

theorem keeps_State_restWrite {P : State → Prop} (hP : K0 P) {s w p} (h_s : P s) :
    P ((State.restWrite s w p)).1 := by
  unfold State.restWrite
  repeat' (first
    | with_reducible assumption
    | with_reducible apply keeps_State_restAccess
    | with_reducible apply keeps_ite1)

theorem keeps_State_actionWrite {P : State → Prop} (hP : K0 P) {s w p f} (h_s : P s) (h_f : ∀ (x0 : Sys2Proof.Machine.State), P x0 → P (f x0).1) :
    P ((State.actionWrite s w p f)).1 := by
  unfold State.actionWrite
  repeat' (first
    | with_reducible assumption
    | with_reducible apply h_f
    | with_reducible apply keeps_refuse
    | with_reducible apply keeps_State_restWrite
    | with_reducible apply keeps_ite1)

theorem keeps_State_stage {P : State → Prop} (hP : K0 P) {s p k v} (h_s : P s) :
    P (State.stage s p k v) := by
  unfold State.stage
  repeat' (first
    | with_reducible assumption
    | with_reducible apply keeps_State_setPg)

theorem keeps_State_codeWrite {P : State → Prop} (hP : K0 P) {s w p k acc v isW1CHdr} (h_s : P s) :
    P ((State.codeWrite s w p k acc v isW1CHdr)).1 := by
  unfold State.codeWrite
  repeat' (first
    | with_reducible assumption
    | with_reducible apply keeps_State_stage
    | with_reducible apply keeps_refuse
    | (extract_lets +onlyGivenNames x; clear_value x; revert x; intro y)
    | with_reducible apply keeps_ite1
    | dsimp -zeta only
    | fail_if_no_progress with_reducible refine hP.updPut ?_)

theorem keeps_State_plainWrite {P : State → Prop} (hP : K0 P) {s w p off v} (h_s : P s) :
    P ((State.plainWrite s w p off v)).1 := by
  unfold State.plainWrite
  repeat' (first
    | with_reducible assumption
    | with_reducible apply keeps_State_codeWrite
    | (extract_lets +onlyGivenNames x; clear_value x; revert x; intro y)
    | split)

theorem keeps_State_incFW {P : State → Prop} (hP : K0 P) {s p f n} (h_s : P s) :
    P (State.incFW s p f n) := by
  unfold State.incFW
  repeat' (first
    | with_reducible assumption
    | with_reducible apply keeps_State_set)

theorem keeps_State_setReg64 {P : State → Prop} (hP : K0 P) {s p off v} (h_s : P s) :
    P (State.setReg64 s p off v) := by
  unfold State.setReg64
  repeat' (first
    | with_reducible assumption
    | with_reducible apply keeps_State_setReg)

theorem keeps_State_countRefused {P : State → Prop} (hP : K0 P) {s w p c} (h_s : P s) :
    P (State.countRefused s w p c) := by
  unfold State.countRefused
  repeat' (first
    | with_reducible assumption
    | with_reducible apply keeps_State_incF
    | with_reducible apply keeps_ite)

theorem keeps_State_answer {P : State → Prop} (hP : K0 P) {s w c} (h_s : P s) :
    P (State.answer s w c) := by
  unfold State.answer
  repeat' (first
    | with_reducible assumption
    | with_reducible apply keeps_State_send)

theorem keeps_finish {P : State → Prop} (hP : K0 P) {w p r} (h_r : P (r).1) :
    P (finish w p r) := by
  unfold finish
  repeat' (first
    | with_reducible assumption
    | with_reducible apply keeps_State_countRefused
    | with_reducible apply keeps_State_answer)

end Sys2Proof.Machine
end

