-- ==== Sys2Proof/Laws/KAcqCore.lean ====
section
/-! SUPPORT. What the operations of Machine.AcqCore keep. -/

namespace Sys2Proof.Machine

open Host (Outcome)

theorem keeps_State_showPend {P : State → Prop} (hP : K0 P) {s k c} (h_s : P s) :
    P (State.showPend s k c) := by
  unfold State.showPend
  repeat' (first
    | with_reducible assumption
    | with_reducible apply keeps_State_setB)

theorem keeps_State_setConv {P : State → Prop} (hP : K0 P) {s k c x} (h_s : P s) :
    P (State.setConv s k c x) := by
  unfold State.setConv
  repeat' (first
    | with_reducible assumption
    | fail_if_no_progress with_reducible refine hP.upd ?_)

theorem keeps_State_trigLost {P : State → Prop} (hP : K0 P) {s k c n} (h_s : P s) :
    P (State.trigLost s k c n) := by
  unfold State.trigLost
  repeat' (first
    | with_reducible assumption
    | with_reducible apply keeps_State_incF
    | with_reducible apply keeps_State_ev
    | with_reducible apply keeps_ite)

theorem keeps_State_acqStep {P : State → Prop} (hP : K0 P) {s t0 t1} (h_s : P s) :
    P (State.acqStep s t0 t1) := by
  unfold State.acqStep
  repeat' (first
    | with_reducible assumption
    | with_reducible apply keeps_State_trigLost
    | with_reducible apply keeps_State_showPend
    | with_reducible apply keeps_State_setConv
    | with_reducible apply keeps_foldl
    | with_reducible intro _
    | (extract_lets +onlyGivenNames x; (have hx : P x := ?_); clear_value x; revert x; intro y hy; rotate_left; unfold x; clear x)
    | (extract_lets +onlyGivenNames x; clear_value x; revert x; intro y)
    | with_reducible apply keeps_ite
    | fail_if_no_progress with_reducible refine hP.upd ?_)

end Sys2Proof.Machine
end

