-- ==== Sys2Proof/Laws/KInjCore.lean ====
section
/-! SUPPORT. What the operations of Machine.InjCore keep. -/

namespace Sys2Proof.Machine

open Host (Outcome)

theorem keeps_State_injDeny {P : State → Prop} (hP : K0 P) {s p} (h_s : P s) :
    P (State.injDeny s p) := by
  unfold State.injDeny
  repeat' (first
    | with_reducible assumption
    | with_reducible apply keeps_State_setReg
    | with_reducible apply keeps_State_err
    | with_reducible apply keeps_State_incSat
    | with_reducible apply keeps_State_ev)

theorem keeps_State_injTake {P : State → Prop} (hP : K0 P) {s p k} (h_s : P s) :
    P ((State.injTake s p k)).2 := by
  unfold State.injTake
  repeat' (first
    | with_reducible assumption
    | with_reducible apply keeps_State_ev
    | with_reducible apply keeps_State_setReg
    | with_reducible apply keeps_State_inc
    | with_reducible apply keeps_State_incSat
    | with_reducible apply keeps_State_set
    | with_reducible apply keeps_State_injDeny
    | (extract_lets +onlyGivenNames x; (have hx : P x := ?_); clear_value x; revert x; intro y hy; rotate_left; unfold x; clear x)
    | with_reducible apply keeps_ite2
    | split)

theorem keeps_State_injOff {P : State → Prop} (hP : K0 P) {s} (h_s : P s) :
    P (State.injOff s) := by
  unfold State.injOff
  repeat' (first
    | with_reducible assumption
    | with_reducible apply keeps_State_setReg
    | with_reducible apply keeps_foldl
    | with_reducible intro _
    | with_reducible apply keeps_ite)

end Sys2Proof.Machine
end

