-- ==== Sys2Proof/Laws/KFabCore.lean ====
section
/-! SUPPORT. What the operations of Machine.FabCore keep. -/

namespace Sys2Proof.Machine

open Host (Outcome)

theorem keeps_State_setFab {P : State → Prop} (hP : K0 P) {s l x} (h_s : P s) :
    P (State.setFab s l x) := by
  unfold State.setFab
  repeat' (first
    | with_reducible assumption
    | fail_if_no_progress with_reducible refine hP.upd ?_)

theorem keeps_State_setRouter {P : State → Prop} (hP : K0 P) {s x} (h_s : P s) :
    P (State.setRouter s x) := by
  unfold State.setRouter
  repeat' (first
    | with_reducible assumption
    | fail_if_no_progress with_reducible refine hP.upd ?_)

theorem keeps_State_setRx {P : State → Prop} (hP : K0 P) {s l rx} (h_s : P s) :
    P (State.setRx s l rx) := by
  unfold State.setRx
  repeat' (first
    | with_reducible assumption
    | with_reducible apply keeps_State_setFab
    | with_reducible apply keeps_State_setReg)

theorem keeps_State_addFreed {P : State → Prop} (hP : K0 P) {s l v n} (h_s : P s) :
    P (State.addFreed s l v n) := by
  unfold State.addFreed
  repeat' (first
    | with_reducible assumption
    | with_reducible apply keeps_State_setFab)

theorem keeps_State_sweep {P : State → Prop} (hP : K0 P) {s l} (h_s : P s) :
    P (State.sweep s l) := by
  unfold State.sweep
  repeat' (first
    | with_reducible assumption
    | with_reducible apply keeps_State_setFab
    | with_reducible apply keeps_State_send
    | with_reducible apply keeps_State_setRx
    | with_reducible apply keeps_State_addFreed
    | with_reducible apply keeps_foldl
    | with_reducible intro _
    | (extract_lets +onlyGivenNames x; (have hx : P x := ?_); clear_value x; revert x; intro y hy; rotate_left; unfold x; clear x)
    | (extract_lets +onlyGivenNames x; clear_value x; revert x; intro y)
    | with_reducible apply keeps_ite
    | split)

theorem keeps_State_setSrc {P : State → Prop} (hP : K0 P) {s j l} (h_s : P s) :
    P (State.setSrc s j l) := by
  unfold State.setSrc
  repeat' (first
    | with_reducible assumption
    | with_reducible apply keeps_State_setRouter
    | with_reducible apply keeps_State_setRx
    | with_reducible apply keeps_State_sweep
    | (extract_lets +onlyGivenNames x; clear_value x; revert x; intro y)
    | with_reducible apply keeps_ite)

theorem keeps_State_stageOne {P : State → Prop} (hP : K0 P) {s o v} (h_s : P s) :
    OptP (fun r => P r) ((State.stageOne s o v)) := by
  unfold State.stageOne
  repeat' (first
    | with_reducible assumption
    | with_reducible apply keeps_State_setFab
    | with_reducible apply keeps_State_setSrc
    | with_reducible exact OptP.none
    | with_reducible apply OptP.some
    | with_reducible intro _
    | with_reducible apply optP_findSome
    | (extract_lets +onlyGivenNames x; (have hx : P x := ?_); clear_value x; revert x; intro y hy; rotate_left; unfold x; clear x)
    | (extract_lets +onlyGivenNames x; clear_value x; revert x; intro y)
    | with_reducible apply optP_ite
    | split)

theorem keeps_State_noteTime {P : State → Prop} (hP : K0 P) {s l p} (h_s : P s) :
    P (State.noteTime s l p) := by
  unfold State.noteTime
  repeat' (first
    | with_reducible assumption
    | with_reducible apply keeps_State_setFab
    | (extract_lets +onlyGivenNames x; clear_value x; revert x; intro y)
    | with_reducible apply keeps_ite
    | split)

theorem keeps_State_transmit {P : State → Prop} (hP : K0 P) {s l i p} (h_s : P s) :
    P (State.transmit s l i p) := by
  unfold State.transmit
  repeat' (first
    | with_reducible assumption
    | with_reducible apply keeps_State_send
    | with_reducible apply keeps_State_inc
    | with_reducible apply keeps_State_injTake
    | with_reducible apply keeps_State_set
    | with_reducible apply keeps_State_noteTime
    | with_reducible apply keeps_State_setFab)

theorem keeps_State_sendOne {P : State → Prop} (hP : K0 P) {s l} (h_s : P s) :
    OptP (fun r => P r) ((State.sendOne s l)) := by
  unfold State.sendOne
  repeat' (first
    | with_reducible assumption
    | with_reducible apply keeps_State_setFab
    | with_reducible apply keeps_State_transmit
    | with_reducible exact OptP.none
    | with_reducible apply OptP.some
    | (extract_lets +onlyGivenNames x; clear_value x; revert x; intro y)
    | with_reducible apply optP_ite
    | split)

theorem keeps_State_routerMove {P : State → Prop} (hP : K0 P) {s} (h_s : P s) :
    OptP (fun r => P r) ((State.routerMove s)) := by
  unfold State.routerMove
  repeat' (first
    | with_reducible assumption
    | with_reducible apply keeps_State_stageOne
    | with_reducible apply keeps_State_sendOne
    | with_reducible exact OptP.none
    | with_reducible apply OptP.some
    | with_reducible intro _
    | with_reducible apply optP_findSome
    | with_reducible apply optP_ite
    | split
    | (refine OptP.of (by with_reducible assumption) ?_))

theorem keeps_pumpLoop {P : State → Prop} (hP : K0 P) {y0 y1} (h_y1 : P y1) :
    P (pumpLoop y0 y1) := by
  induction y0 generalizing y1
  case' succ n ih => skip
  all_goals first | unfold pumpLoop | skip
  all_goals repeat' (first
    | with_reducible assumption
    | with_reducible apply ih
    | with_reducible apply keeps_State_routerMove
    | split
    | (refine OptP.of (by with_reducible assumption) ?_))

theorem keeps_State_originate {P : State → Prop} (hP : K0 P) {s p} (h_s : P s) :
    P (State.originate s p) := by
  unfold State.originate
  repeat' (first
    | with_reducible assumption
    | with_reducible apply keeps_State_send
    | with_reducible apply keeps_State_setRouter
    | (extract_lets +onlyGivenNames x; clear_value x; revert x; intro y)
    | with_reducible apply keeps_ite)

theorem keeps_State_unreach {P : State → Prop} (hP : K0 P) {s p} (h_s : P s) :
    P (State.unreach s p) := by
  unfold State.unreach
  repeat' (first
    | with_reducible assumption
    | with_reducible apply keeps_State_incF
    | with_reducible apply keeps_State_originate
    | with_reducible apply keeps_ite)

theorem keeps_State_routeVia {P : State → Prop} (hP : K0 P) {s p l enter} (h_s : P s) :
    P ((State.routeVia s p l enter)).1 := by
  unfold State.routeVia
  repeat' (first
    | with_reducible assumption
    | with_reducible apply keeps_State_incF
    | (extract_lets +onlyGivenNames x; (have hx : P x := ?_); clear_value x; revert x; intro y hy; rotate_left; unfold x; clear x)
    | (extract_lets +onlyGivenNames x; clear_value x; revert x; intro y)
    | with_reducible apply keeps_ite1)

theorem keeps_State_routeOf {P : State → Prop} (hP : K0 P) {s p lin} (h_s : P s) :
    P ((State.routeOf s p lin)).1 := by
  unfold State.routeOf
  repeat' (first
    | with_reducible assumption
    | with_reducible apply keeps_State_routeVia)

theorem keeps_State_routeFresh {P : State → Prop} (hP : K0 P) {s} (h_s : P s) :
    P (State.routeFresh s) := by
  unfold State.routeFresh
  repeat' (first
    | with_reducible assumption
    | with_reducible apply keeps_State_unreach
    | with_reducible apply keeps_State_routeOf
    | with_reducible apply keeps_State_setRouter
    | with_reducible apply keeps_foldl
    | with_reducible intro _
    | with_reducible apply hf1
    | (extract_lets +onlyGivenNames x; (have hx : ∀ b a, P a → P (x b a) := ?_); clear_value x; revert x; intro y hf1; rotate_left; unfold x; clear x)
    | (extract_lets +onlyGivenNames x; (have hx : P x.1 := ?_); clear_value x; revert x; intro y hy; rotate_left; unfold x; clear x)
    | (extract_lets +onlyGivenNames x; clear_value x; revert x; intro y)
    | with_reducible apply keeps_ite
    | split)

theorem keeps_State_pump {P : State → Prop} (hP : K0 P) {s} (h_s : P s) :
    P (State.pump s) := by
  unfold State.pump
  repeat' (first
    | with_reducible assumption
    | with_reducible apply keeps_pumpLoop
    | with_reducible apply keeps_State_routeFresh
    | (extract_lets +onlyGivenNames x; (have hx : P x := ?_); clear_value x; revert x; intro y hy; rotate_left; unfold x; clear x)
    | (extract_lets +onlyGivenNames x; clear_value x; revert x; intro y)
    | with_reducible apply keeps_ite)

theorem keeps_State_fabSend {P : State → Prop} (hP : K0 P) {s kind dst body len tag wake} (h_s : P s) :
    P (State.fabSend s kind dst body len tag wake) := by
  unfold State.fabSend
  repeat' (first
    | with_reducible assumption
    | with_reducible apply keeps_State_originate
    | with_reducible apply keeps_State_pump)

theorem keeps_State_fabBytes {P : State → Prop} (hP : K0 P) {s kind dst l} (h_s : P s) :
    P (State.fabBytes s kind dst l) := by
  unfold State.fabBytes
  repeat' (first
    | with_reducible assumption
    | with_reducible apply keeps_State_fabSend)

theorem keeps_State_fabOpen {P : State → Prop} (hP : K0 P) {s dst body} (h_s : P s) :
    P (State.fabOpen s dst body) := by
  unfold State.fabOpen
  repeat' (first
    | with_reducible assumption
    | with_reducible apply keeps_State_fabSend
    | with_reducible apply keeps_State_free)

theorem keeps_State_fabTime {P : State → Prop} (hP : K0 P) {s l info hops maddr} (h_s : P s) :
    P (State.fabTime s l info hops maddr) := by
  unfold State.fabTime
  repeat' (first
    | with_reducible assumption
    | with_reducible apply keeps_State_setRouter
    | with_reducible apply keeps_State_pump
    | with_reducible apply keeps_State_setFab)

theorem keeps_State_fabFlood {P : State → Prop} (hP : K0 P) {s kind radius l} (h_s : P s) :
    P (State.fabFlood s kind radius l) := by
  unfold State.fabFlood
  repeat' (first
    | with_reducible assumption
    | with_reducible apply keeps_State_originate
    | with_reducible apply keeps_State_pump
    | with_reducible apply keeps_State_setRouter)

theorem keeps_State_floodTake {P : State → Prop} (hP : K0 P) {s p} (h_s : P s) :
    P ((State.floodTake s p)).2 := by
  unfold State.floodTake
  repeat' (first
    | with_reducible assumption
    | with_reducible apply keeps_State_setRouter
    | (extract_lets +onlyGivenNames x; clear_value x; revert x; intro y)
    | with_reducible apply keeps_ite2)

end Sys2Proof.Machine
end

