-- ==== Sys2Proof/Laws/KMbusTx.lean ====
section
/-! SUPPORT. What the operations of Machine.MbusTx keep. -/

namespace Sys2Proof.Machine

open Host (Outcome)

theorem keeps_State_setMb {P : State → Prop} (hP : K0 P) {s n x} (h_s : P s) :
    P (State.setMb s n x) := by
  unfold State.setMb
  repeat' (first
    | with_reducible assumption
    | fail_if_no_progress with_reducible refine hP.upd ?_)

theorem keeps_State_arbitrate {P : State → Prop} (hP : K0 P) {s n} (h_s : P s) :
    P (State.arbitrate s n) := by
  unfold State.arbitrate
  repeat' (first
    | with_reducible assumption
    | with_reducible apply keeps_State_setMb)

theorem keeps_State_offerNew {P : State → Prop} (hP : K0 P) {s n} (h_s : P s) :
    P (State.offerNew s n) := by
  unfold State.offerNew
  repeat' (first
    | with_reducible assumption
    | with_reducible apply keeps_State_arbitrate
    | with_reducible apply keeps_ite)

theorem keeps_State_timeRefDue {P : State → Prop} (hP : K0 P) {s n} (h_s : P s) :
    P (State.timeRefDue s n) := by
  unfold State.timeRefDue
  repeat' (first
    | with_reducible assumption
    | with_reducible apply keeps_State_setMb
    | with_reducible apply keeps_State_offerNew
    | (extract_lets +onlyGivenNames x; clear_value x; revert x; intro y)
    | with_reducible apply keeps_ite)

theorem keeps_State_timeRefAll {P : State → Prop} (hP : K0 P) {s} (h_s : P s) :
    P (State.timeRefAll s) := by
  unfold State.timeRefAll
  repeat' (first
    | with_reducible assumption
    | with_reducible apply keeps_State_timeRefDue
    | with_reducible apply keeps_foldl)

theorem keeps_State_setMbSt {P : State → Prop} (hP : K0 P) {s n st} (h_s : P s) :
    P (State.setMbSt s n st) := by
  unfold State.setMbSt
  repeat' (first
    | with_reducible assumption
    | with_reducible apply keeps_State_setB
    | with_reducible apply keeps_State_set
    | with_reducible apply keeps_State_ev
    | (extract_lets +onlyGivenNames x; (have hx : P x := ?_); clear_value x; revert x; intro y hy; rotate_left; unfold x; clear x)
    | (extract_lets +onlyGivenNames x; clear_value x; revert x; intro y)
    | with_reducible apply keeps_ite)

theorem keeps_State_showEcr {P : State → Prop} (hP : K0 P) {s n} (h_s : P s) :
    P (State.showEcr s n) := by
  unfold State.showEcr
  repeat' (first
    | with_reducible assumption
    | with_reducible apply keeps_State_set
    | with_reducible apply keeps_State_setReg)

theorem keeps_State_mbusLevels {P : State → Prop} (hP : K0 P) {s n} (h_s : P s) :
    P (State.mbusLevels s n) := by
  unfold State.mbusLevels
  repeat' (first
    | with_reducible assumption
    | with_reducible apply keeps_State_ev
    | (extract_lets +onlyGivenNames x; (have hx : P x := ?_); clear_value x; revert x; intro y hy; rotate_left; unfold x; clear x)
    | (extract_lets +onlyGivenNames x; clear_value x; revert x; intro y)
    | with_reducible apply keeps_ite)

end Sys2Proof.Machine
end

