-- ==== Sys2Proof/Laws/KBeadsPlace.lean ====
section
/-! SUPPORT. What the operations of Machine.BeadsPlace keep. -/

namespace Sys2Proof.Machine

open Host (Outcome)

theorem keeps_State_setEisX {P : State → Prop} (hP : K0 P) {s r x} (h_s : P s) :
    P (State.setEisX s r x) := by
  unfold State.setEisX
  repeat' (first
    | with_reducible assumption
    | fail_if_no_progress with_reducible refine hP.upd ?_)

theorem keeps_State_eisTrack {P : State → Prop} (hP : K0 P) {s} (h_s : P s) :
    P (State.eisTrack s) := by
  unfold State.eisTrack
  repeat' (first
    | with_reducible assumption
    | with_reducible apply keeps_State_setEisX
    | with_reducible apply keeps_foldl
    | with_reducible intro _
    | (extract_lets +onlyGivenNames x; clear_value x; revert x; intro y)
    | with_reducible apply keeps_ite)

theorem keeps_State_setBead {P : State → Prop} (hP : K0 P) {s x} (h_s : P s) :
    P (State.setBead s x) := by
  unfold State.setBead
  repeat' (first
    | with_reducible assumption
    | fail_if_no_progress with_reducible refine hP.upd ?_)

theorem keeps_State_setRemain {P : State → Prop} (hP : K0 P) {s} (h_s : P s) :
    P (State.setRemain s) := by
  unfold State.setRemain
  repeat' (first
    | with_reducible assumption
    | with_reducible apply keeps_State_setReg)

theorem keeps_State_placeRun {P : State → Prop} (hP : K0 P) {s} (h_s : P s) :
    P (State.placeRun s) := by
  unfold State.placeRun
  repeat' (first
    | with_reducible assumption
    | with_reducible apply keeps_State_eisTrack
    | with_reducible apply keeps_State_setBead
    | with_reducible apply keeps_State_setRemain
    | with_reducible apply keeps_State_inc
    | with_reducible apply keeps_State_setReg
    | with_reducible apply keeps_foldl
    | with_reducible intro _
    | (extract_lets +onlyGivenNames x; clear_value x; revert x; intro y)
    | with_reducible apply keeps_ite)

theorem keeps_State_setLstate {P : State → Prop} (hP : K0 P) {s v} (h_s : P s) :
    P (State.setLstate s v) := by
  unfold State.setLstate
  repeat' (first
    | with_reducible assumption
    | with_reducible apply keeps_State_set)

theorem keeps_State_beadStart {P : State → Prop} (hP : K0 P) {s} (h_s : P s) :
    P (State.beadStart s) := by
  unfold State.beadStart
  repeat' (first
    | with_reducible assumption
    | with_reducible apply keeps_State_setLstate
    | with_reducible apply keeps_State_setBead
    | (extract_lets +onlyGivenNames x; clear_value x; revert x; intro y)
    | with_reducible apply keeps_ite)

theorem keeps_State_setRole {P : State → Prop} (hP : K0 P) {s r} (h_s : P s) :
    P (State.setRole s r) := by
  unfold State.setRole
  repeat' (first
    | with_reducible assumption
    | with_reducible apply keeps_State_set
    | with_reducible apply keeps_State_ev
    | with_reducible apply keeps_ite)

theorem keeps_State_homeRoles {P : State → Prop} (hP : K0 P) {s} (h_s : P s) :
    P (State.homeRoles s) := by
  unfold State.homeRoles
  repeat' (first
    | with_reducible assumption
    | with_reducible apply keeps_State_setRole
    | with_reducible apply keeps_ite)

end Sys2Proof.Machine
end

