-- ==== Sys2Proof/Laws/KRodCore.lean ====
section
/-! SUPPORT. What the operations of Machine.RodCore keep. -/

namespace Sys2Proof.Machine

open Host (Outcome)

theorem keeps_State_setRod {P : State → Prop} (hP : K0 P) {s n x} (h_s : P s) :
    P (State.setRod s n x) := by
  unfold State.setRod
  repeat' (first
    | with_reducible assumption
    | fail_if_no_progress with_reducible refine hP.upd ?_)

theorem keeps_State_setStep {P : State → Prop} (hP : K0 P) {s n v} (h_s : P s) :
    P (State.setStep s n v) := by
  unfold State.setStep
  repeat' (first
    | with_reducible assumption
    | with_reducible apply keeps_State_set)

theorem keeps_State_dieAlone {P : State → Prop} (hP : K0 P) {s k} (h_s : P s) :
    P (State.dieAlone s k) := by
  unfold State.dieAlone
  repeat' (first
    | with_reducible assumption
    | with_reducible apply keeps_State_setDom
    | with_reducible apply keeps_ite)

theorem keeps_State_setRodSt {P : State → Prop} (hP : K0 P) {s n st} (h_s : P s) :
    P (State.setRodSt s n st) := by
  unfold State.setRodSt
  repeat' (first
    | with_reducible assumption
    | with_reducible apply keeps_State_placeRun
    | with_reducible apply keeps_State_dieAlone
    | with_reducible apply keeps_State_setBit
    | with_reducible apply keeps_State_setB
    | with_reducible apply keeps_State_ev
    | with_reducible apply keeps_State_set
    | with_reducible apply keeps_State_setRod
    | (extract_lets +onlyGivenNames x; (have hx : P x := ?_); clear_value x; revert x; intro y hy; rotate_left; unfold x; clear x)
    | (extract_lets +onlyGivenNames x; clear_value x; revert x; intro y)
    | with_reducible apply keeps_ite)

theorem keeps_State_setBrk {P : State → Prop} (hP : K0 P) {s n b} (h_s : P s) :
    P (State.setBrk s n b) := by
  unfold State.setBrk
  repeat' (first
    | with_reducible assumption
    | with_reducible apply keeps_State_setRod
    | with_reducible apply keeps_State_send
    | (extract_lets +onlyGivenNames x; clear_value x; revert x; intro y)
    | with_reducible apply keeps_ite)

theorem keeps_State_enterGatesOff {P : State → Prop} (hP : K0 P) {s n} (h_s : P s) :
    P (State.enterGatesOff s n) := by
  unfold State.enterGatesOff
  repeat' (first
    | with_reducible assumption
    | with_reducible apply keeps_State_setRod
    | with_reducible apply keeps_State_setStep
    | with_reducible apply keeps_State_setRodSt
    | with_reducible apply keeps_State_setBrk)

theorem keeps_State_setPrech {P : State → Prop} (hP : K0 P) {s n b} (h_s : P s) :
    P (State.setPrech s n b) := by
  unfold State.setPrech
  repeat' (first
    | with_reducible assumption
    | with_reducible apply keeps_State_setRod
    | with_reducible apply keeps_State_send
    | (extract_lets +onlyGivenNames x; clear_value x; revert x; intro y)
    | with_reducible apply keeps_ite)

theorem keeps_State_setCont {P : State → Prop} (hP : K0 P) {s n b} (h_s : P s) :
    P (State.setCont s n b) := by
  unfold State.setCont
  repeat' (first
    | with_reducible assumption
    | with_reducible apply keeps_State_setRod
    | with_reducible apply keeps_State_send
    | (extract_lets +onlyGivenNames x; clear_value x; revert x; intro y)
    | with_reducible apply keeps_ite)

theorem keeps_State_enterDischarge {P : State → Prop} (hP : K0 P) {s n} (h_s : P s) :
    P (State.enterDischarge s n) := by
  unfold State.enterDischarge
  repeat' (first
    | with_reducible assumption
    | with_reducible apply keeps_State_send
    | with_reducible apply keeps_State_setRod
    | with_reducible apply keeps_State_setStep
    | with_reducible apply keeps_State_setRodSt
    | with_reducible apply keeps_State_setPrech
    | with_reducible apply keeps_State_setCont
    | (extract_lets +onlyGivenNames x; (have hx : P x := ?_); clear_value x; revert x; intro y hy; rotate_left; unfold x; clear x)
    | (extract_lets +onlyGivenNames x; clear_value x; revert x; intro y)
    | with_reducible apply keeps_ite)

theorem keeps_State_descentCause {P : State → Prop} (hP : K0 P) {s n code} (h_s : P s) :
    P (State.descentCause s n code) := by
  unfold State.descentCause
  repeat' (first
    | with_reducible assumption
    | with_reducible apply keeps_State_enterGatesOff
    | with_reducible apply keeps_State_enterDischarge
    | with_reducible apply keeps_State_setRod
    | with_reducible apply keeps_State_set
    | with_reducible apply keeps_State_setB
    | with_reducible apply keeps_State_setRodSt
    | (extract_lets +onlyGivenNames x; (have hx : P x := ?_); clear_value x; revert x; intro y hy; rotate_left; unfold x; clear x)
    | (extract_lets +onlyGivenNames x; clear_value x; revert x; intro y)
    | with_reducible apply keeps_ite)

theorem keeps_State_setDig {P : State → Prop} (hP : K0 P) {s i x} (h_s : P s) :
    P (State.setDig s i x) := by
  unfold State.setDig
  repeat' (first
    | with_reducible assumption
    | fail_if_no_progress with_reducible refine hP.upd ?_)

theorem keeps_State_setLink {P : State → Prop} (hP : K0 P) {s k x} (h_s : P s) :
    P (State.setLink s k x) := by
  unfold State.setLink
  repeat' (first
    | with_reducible assumption
    | fail_if_no_progress with_reducible refine hP.upd ?_)

theorem keeps_State_lockCheck {P : State → Prop} (hP : K0 P) {s0 s} (h_s0 : P s0) (h_s : P s) :
    P (State.lockCheck s0 s) := by
  unfold State.lockCheck
  repeat' (first
    | with_reducible assumption
    | with_reducible apply keeps_State_beadStart
    | with_reducible apply keeps_State_homeRoles
    | with_reducible apply keeps_State_descentCause
    | with_reducible apply keeps_State_placeRun
    | with_reducible apply keeps_foldl
    | with_reducible intro _
    | with_reducible apply keeps_ite)

theorem keeps_State_setLoop {P : State → Prop} (hP : K0 P) {s n x} (h_s : P s) :
    P (State.setLoop s n x) := by
  unfold State.setLoop
  repeat' (first
    | with_reducible assumption
    | fail_if_no_progress with_reducible refine hP.upd ?_)

theorem keeps_State_tripLink {P : State → Prop} (hP : K0 P) {s k} (h_s : P s) :
    P (State.tripLink s k) := by
  unfold State.tripLink
  repeat' (first
    | with_reducible assumption
    | with_reducible apply keeps_State_send
    | with_reducible apply keeps_State_setLink
    | (extract_lets +onlyGivenNames x; (have hx : P x := ?_); clear_value x; revert x; intro y hy; rotate_left; unfold x; clear x)
    | (extract_lets +onlyGivenNames x; clear_value x; revert x; intro y)
    | with_reducible apply keeps_ite)

theorem keeps_State_digWithdraw {P : State → Prop} (hP : K0 P) {s n from_ i} (h_s : P s) :
    P (State.digWithdraw s n from_ i) := by
  unfold State.digWithdraw
  repeat' (first
    | with_reducible assumption
    | with_reducible apply keeps_State_setDig
    | with_reducible apply keeps_State_set
    | (extract_lets +onlyGivenNames x; clear_value x; revert x; intro y)
    | with_reducible apply keeps_ite
    | split)

theorem keeps_State_tripPath {P : State → Prop} (hP : K0 P) {s n} (h_s : P s) :
    P (State.tripPath s n) := by
  unfold State.tripPath
  repeat' (first
    | with_reducible assumption
    | with_reducible apply keeps_State_tripLink
    | with_reducible apply keeps_State_send
    | with_reducible apply keeps_State_digWithdraw
    | with_reducible apply keeps_State_set
    | with_reducible apply keeps_State_setRod
    | with_reducible apply keeps_foldl
    | with_reducible intro _)

theorem keeps_State_setDisch {P : State → Prop} (hP : K0 P) {s n b} (h_s : P s) :
    P (State.setDisch s n b) := by
  unfold State.setDisch
  repeat' (first
    | with_reducible assumption
    | with_reducible apply keeps_State_set
    | with_reducible apply keeps_State_setRod
    | with_reducible apply keeps_State_send
    | (extract_lets +onlyGivenNames x; (have hx : P x := ?_); clear_value x; revert x; intro y hy; rotate_left; unfold x; clear x)
    | (extract_lets +onlyGivenNames x; clear_value x; revert x; intro y)
    | with_reducible apply keeps_ite)

theorem keeps_State_enterFault {P : State → Prop} (hP : K0 P) {s n code} (h_s : P s) :
    P (State.enterFault s n code) := by
  unfold State.enterFault
  repeat' (first
    | with_reducible assumption
    | with_reducible apply keeps_State_ev
    | with_reducible apply keeps_State_setDisch
    | with_reducible apply keeps_State_setBrk
    | with_reducible apply keeps_State_setCont
    | with_reducible apply keeps_State_setPrech
    | with_reducible apply keeps_State_send
    | with_reducible apply keeps_State_setRod
    | with_reducible apply keeps_State_setStep
    | with_reducible apply keeps_State_setRodSt
    | with_reducible apply keeps_State_setReg
    | with_reducible apply keeps_ite)

theorem keeps_State_faultCause {P : State → Prop} (hP : K0 P) {s n bits} (h_s : P s) :
    P (State.faultCause s n bits) := by
  unfold State.faultCause
  repeat' (first
    | with_reducible assumption
    | with_reducible apply keeps_State_setReg
    | with_reducible apply keeps_State_enterFault
    | with_reducible apply keeps_State_tripPath
    | (extract_lets +onlyGivenNames x; (have hx : P x := ?_); clear_value x; revert x; intro y hy; rotate_left; unfold x; clear x)
    | with_reducible apply keeps_ite
    | split)

end Sys2Proof.Machine
end

