-- ==== Sys2Proof/Laws/KThermCore.lean ====
section
/-! SUPPORT. What the operations of Machine.ThermCore keep. -/

namespace Sys2Proof.Machine

open Host (Outcome)

theorem keeps_State_thermStep {P : State → Prop} (hP : K0 P) {s} (h_s : P s) :
    P (State.thermStep s) := by
  unfold State.thermStep
  repeat' (first
    | with_reducible assumption
    | fail_if_no_progress with_reducible refine hP.upd ?_)

theorem keeps_State_evtPost {P : State → Prop} (hP : K0 P) {s payload} (h_s : P s) :
    P (State.evtPost s payload) := by
  unfold State.evtPost
  repeat' (first
    | with_reducible assumption
    | fail_if_no_progress with_reducible refine hP.upd ?_)

theorem keeps_State_setSens {P : State → Prop} (hP : K0 P) {s k x} (h_s : P s) :
    P (State.setSens s k x) := by
  unfold State.setSens
  repeat' (first
    | with_reducible assumption
    | fail_if_no_progress with_reducible refine hP.upd ?_)

end Sys2Proof.Machine
end

