-- ==== Sys2Proof/Laws/KTimeCore.lean ====
section
/-! SUPPORT. What the operations of Machine.TimeCore keep. -/

namespace Sys2Proof.Machine

open Host (Outcome)

theorem keeps_State_setBeam {P : State → Prop} (hP : K0 P) {s x} (h_s : P s) :
    P (State.setBeam s x) := by
  unfold State.setBeam
  repeat' (first
    | with_reducible assumption
    | fail_if_no_progress with_reducible refine hP.upd ?_)

end Sys2Proof.Machine
end

