-- ==== Sys2Proof/Laws/KBeam.lean ====
section
/-! SUPPORT. What the operations of Machine.Beam keep. -/

namespace Sys2Proof.Machine

open Host (Outcome)

theorem keeps_State_setGen {P : State → Prop} (hP : K0 P) {s g x} (h_s : P s) :
    P (State.setGen s g x) := by
  unfold State.setGen
  repeat' (first
    | with_reducible assumption
    | fail_if_no_progress with_reducible refine hP.upd ?_)

theorem keeps_State_startGen {P : State → Prop} (hP : K0 P) {s g} (h_s : P s) :
    P (State.startGen s g) := by
  unfold State.startGen
  repeat' (first
    | with_reducible assumption
    | with_reducible apply keeps_State_ev
    | with_reducible apply keeps_State_set
    | with_reducible apply keeps_State_setReg
    | with_reducible apply keeps_State_setRod
    | with_reducible apply keeps_State_setGen
    | with_reducible apply keeps_foldl
    | with_reducible intro _)

theorem keeps_State_tryStartGen {P : State → Prop} (hP : K0 P) {s g} (h_s : P s) :
    P (State.tryStartGen s g) := by
  unfold State.tryStartGen
  repeat' (first
    | with_reducible assumption
    | with_reducible apply keeps_State_startGen
    | with_reducible apply keeps_State_set
    | with_reducible apply keeps_State_setGen
    | (extract_lets +onlyGivenNames x; clear_value x; revert x; intro y)
    | with_reducible apply keeps_ite)

theorem keeps_State_stopGen {P : State → Prop} (hP : K0 P) {s g} (h_s : P s) :
    P (State.stopGen s g) := by
  unfold State.stopGen
  repeat' (first
    | with_reducible assumption
    | with_reducible apply keeps_State_set)

theorem keeps_State_frameApplied {P : State → Prop} (hP : K0 P) {s0 s} (h_s0 : P s0) (h_s : P s) :
    P (State.frameApplied s0 s) := by
  unfold State.frameApplied
  repeat' (first
    | with_reducible assumption
    | with_reducible apply keeps_State_setGen
    | with_reducible apply keeps_State_stopGen
    | with_reducible apply keeps_State_tryStartGen
    | with_reducible apply keeps_foldl
    | with_reducible intro _
    | (extract_lets +onlyGivenNames x; clear_value x; revert x; intro y)
    | with_reducible apply keeps_ite)

theorem keeps_State_applyStep {P : State → Prop} (hP : K0 P) {s k} (h_s : P s) :
    P (State.applyStep s k) := by
  unfold State.applyStep
  repeat' (first
    | with_reducible assumption
    | with_reducible apply keeps_State_startGen
    | with_reducible apply keeps_State_acqStep
    | with_reducible apply keeps_State_timeRefAll
    | with_reducible apply keeps_State_thermStep
    | with_reducible apply keeps_State_setRegSat
    | with_reducible apply keeps_State_set
    | with_reducible apply keeps_State_ev
    | with_reducible apply keeps_State_setBeam
    | with_reducible apply keeps_foldl
    | with_reducible intro _
    | with_reducible apply keeps_ite)

theorem keeps_State_callStep {P : State → Prop} (hP : K0 P) {s k} (h_s : P s) :
    P (State.callStep s k) := by
  unfold State.callStep
  repeat' (first
    | with_reducible assumption
    | with_reducible apply keeps_State_set
    | with_reducible apply keeps_State_lockCheck
    | with_reducible apply keeps_State_setBeam
    | with_reducible apply keeps_State_applyStep
    | (extract_lets +onlyGivenNames x; (have hx : P x := ?_); clear_value x; revert x; intro y hy; rotate_left; unfold x; clear x)
    | (extract_lets +onlyGivenNames x; clear_value x; revert x; intro y)
    | with_reducible apply keeps_ite)

theorem keeps_State_beamSetApply {P : State → Prop} (hP : K0 P) {s} (h_s : P s) :
    P (State.beamSetApply s) := by
  unfold State.beamSetApply
  repeat' (first
    | with_reducible assumption
    | with_reducible apply keeps_State_err
    | with_reducible apply keeps_State_callStep
    | with_reducible apply keeps_State_applyCommit
    | (extract_lets +onlyGivenNames x; (have hx : P x := ?_); clear_value x; revert x; intro y hy; rotate_left; unfold x; clear x)
    | (extract_lets +onlyGivenNames x; clear_value x; revert x; intro y)
    | with_reducible apply keeps_ite)

theorem keeps_State_syncCtlWritten {P : State → Prop} (hP : K0 P) {s0 s} (h_s0 : P s0) (h_s : P s) :
    P (State.syncCtlWritten s0 s) := by
  unfold State.syncCtlWritten
  repeat' (first
    | with_reducible assumption
    | with_reducible apply keeps_State_setBeam)

theorem keeps_State_lockLoss {P : State → Prop} (hP : K0 P) {s} (h_s : P s) :
    P (State.lockLoss s) := by
  unfold State.lockLoss
  repeat' (first
    | with_reducible assumption
    | with_reducible apply keeps_State_setReg)

theorem keeps_State_setCmsn {P : State → Prop} (hP : K0 P) {s b} (h_s : P s) :
    P (State.setCmsn s b) := by
  unfold State.setCmsn
  repeat' (first
    | with_reducible assumption
    | with_reducible apply keeps_State_setB
    | with_reducible apply keeps_State_lockLoss
    | with_reducible apply keeps_ite)

theorem keeps_State_refreshClass {P : State → Prop} (hP : K0 P) {s} (h_s : P s) :
    P (State.refreshClass s) := by
  unfold State.refreshClass
  repeat' (first
    | with_reducible assumption
    | with_reducible apply keeps_State_setB
    | with_reducible apply keeps_State_set
    | (extract_lets +onlyGivenNames x; (have hx : P x := ?_); clear_value x; revert x; intro y hy; rotate_left; unfold x; clear x)
    | (extract_lets +onlyGivenNames x; clear_value x; revert x; intro y)
    | with_reducible apply keeps_ite)

theorem keeps_State_dropStep {P : State → Prop} (hP : K0 P) {s} (h_s : P s) :
    P (State.dropStep s) := by
  unfold State.dropStep
  repeat' (first
    | with_reducible assumption
    | with_reducible apply keeps_State_err
    | with_reducible apply keeps_State_set
    | with_reducible apply keeps_State_setBeam
    | (extract_lets +onlyGivenNames x; (have hx : P x := ?_); clear_value x; revert x; intro y hy; rotate_left; unfold x; clear x)
    | (extract_lets +onlyGivenNames x; clear_value x; revert x; intro y)
    | split)

theorem keeps_State_dropReference {P : State → Prop} (hP : K0 P) {s pps} (h_s : P s) :
    P (State.dropReference s pps) := by
  unfold State.dropReference
  repeat' (first
    | with_reducible assumption
    | with_reducible apply keeps_State_dropStep
    | with_reducible apply keeps_ite
    | split)

theorem keeps_State_beamCtlWritten {P : State → Prop} (hP : K0 P) {s0 s} (h_s0 : P s0) (h_s : P s) :
    P (State.beamCtlWritten s0 s) := by
  unfold State.beamCtlWritten
  repeat' (first
    | with_reducible assumption
    | with_reducible apply keeps_State_setCmsn
    | with_reducible apply keeps_State_lockCheck
    | with_reducible apply keeps_State_set
    | with_reducible apply keeps_State_refreshClass
    | with_reducible apply keeps_State_dropReference
    | with_reducible apply keeps_State_setBeam
    | with_reducible apply keeps_State_send
    | (extract_lets +onlyGivenNames x; (have hx : P x := ?_); clear_value x; revert x; intro y hy; rotate_left; unfold x; clear x)
    | (extract_lets +onlyGivenNames x; clear_value x; revert x; intro y)
    | with_reducible apply keeps_ite)

theorem keeps_State_snapCapture {P : State → Prop} (hP : K0 P) {s} (h_s : P s) :
    P (State.snapCapture s) := by
  unfold State.snapCapture
  repeat' (first
    | with_reducible assumption
    | with_reducible apply keeps_State_setReg)

theorem keeps_State_readNowNs {P : State → Prop} (hP : K0 P) {s} (h_s : P s) :
    P ((State.readNowNs s)).1 := by
  unfold State.readNowNs
  repeat' (first
    | with_reducible assumption
    | with_reducible apply keeps_State_setReg)

theorem keeps_State_syncAccept {P : State → Prop} (hP : K0 P) {s t} (h_s : P s) :
    P (State.syncAccept s t) := by
  unfold State.syncAccept
  repeat' (first
    | with_reducible assumption
    | with_reducible apply keeps_State_setReg
    | with_reducible apply keeps_State_set
    | with_reducible apply keeps_State_setBeam
    | (extract_lets +onlyGivenNames x; (have hx : P x := ?_); clear_value x; revert x; intro y hy; rotate_left; unfold x; clear x)
    | (extract_lets +onlyGivenNames x; clear_value x; revert x; intro y)
    | with_reducible apply keeps_ite
    | split)

theorem keeps_State_beamTick {P : State → Prop} (hP : K0 P) {s} (h_s : P s) :
    P (State.beamTick s) := by
  unfold State.beamTick
  repeat' (first
    | with_reducible assumption
    | with_reducible apply keeps_State_setBeam)

theorem keeps_State_setLock {P : State → Prop} (hP : K0 P) {s v} (h_s : P s) :
    P (State.setLock s v) := by
  unfold State.setLock
  repeat' (first
    | with_reducible assumption
    | with_reducible apply keeps_State_set
    | with_reducible apply keeps_State_ev)

theorem keeps_State_markBoundary {P : State → Prop} (hP : K0 P) {s g} (h_s : P s) :
    P (State.markBoundary s g) := by
  unfold State.markBoundary
  repeat' (first
    | with_reducible assumption
    | with_reducible apply keeps_State_setGen
    | with_reducible apply keeps_State_set
    | with_reducible apply keeps_State_setReg
    | with_reducible apply keeps_ite)

theorem keeps_State_dropFollower {P : State → Prop} (hP : K0 P) {s} (h_s : P s) :
    P (State.dropFollower s) := by
  unfold State.dropFollower
  repeat' (first
    | with_reducible assumption
    | with_reducible apply keeps_State_dropStep
    | split)

theorem keeps_State_dropMaster {P : State → Prop} (hP : K0 P) {s} (h_s : P s) :
    P (State.dropMaster s) := by
  unfold State.dropMaster
  repeat' (first
    | with_reducible assumption
    | with_reducible apply keeps_State_dropStep
    | split)

theorem keeps_State_setMaster {P : State → Prop} (hP : K0 P) {s valid addr} (h_s : P s) :
    P (State.setMaster s valid addr) := by
  unfold State.setMaster
  repeat' (first
    | with_reducible assumption
    | with_reducible apply keeps_State_ev
    | with_reducible apply keeps_State_setB
    | with_reducible apply keeps_State_set
    | (extract_lets +onlyGivenNames x; (have hx : P x := ?_); clear_value x; revert x; intro y hy; rotate_left; unfold x; clear x)
    | (extract_lets +onlyGivenNames x; clear_value x; revert x; intro y)
    | with_reducible apply keeps_ite)

theorem keeps_State_noParent {P : State → Prop} (hP : K0 P) {s} (h_s : P s) :
    P (State.noParent s) := by
  unfold State.noParent
  repeat' (first
    | with_reducible assumption
    | with_reducible apply keeps_State_set)

theorem keeps_State_becomeMaster {P : State → Prop} (hP : K0 P) {s} (h_s : P s) :
    P (State.becomeMaster s) := by
  unfold State.becomeMaster
  repeat' (first
    | with_reducible assumption
    | with_reducible apply keeps_State_refreshClass
    | with_reducible apply keeps_State_setLock
    | with_reducible apply keeps_State_setCmsn
    | with_reducible apply keeps_State_setBeam
    | with_reducible apply keeps_State_set
    | with_reducible apply keeps_State_noParent
    | with_reducible apply keeps_State_dropFollower
    | with_reducible apply keeps_State_setMaster
    | (extract_lets +onlyGivenNames x; (have hx : P x := ?_); clear_value x; revert x; intro y hy; rotate_left; unfold x; clear x)
    | (extract_lets +onlyGivenNames x; clear_value x; revert x; intro y)
    | with_reducible apply keeps_ite)

theorem keeps_State_servoStart {P : State → Prop} (hP : K0 P) {s} (h_s : P s) :
    P (State.servoStart s) := by
  unfold State.servoStart
  repeat' (first
    | with_reducible assumption
    | with_reducible apply keeps_State_setBeam)

theorem keeps_State_setOffset {P : State → Prop} (hP : K0 P) {s x} (h_s : P s) :
    P (State.setOffset s x) := by
  unfold State.setOffset
  repeat' (first
    | with_reducible assumption
    | with_reducible apply keeps_State_setBeam
    | with_reducible apply keeps_State_setRegSat)

theorem keeps_State_stopMaster {P : State → Prop} (hP : K0 P) {s addr} (h_s : P s) :
    P (State.stopMaster s addr) := by
  unfold State.stopMaster
  repeat' (first
    | with_reducible assumption
    | with_reducible apply keeps_State_setLock
    | with_reducible apply keeps_State_lockLoss
    | with_reducible apply keeps_State_set
    | with_reducible apply keeps_State_setOffset
    | with_reducible apply keeps_State_free
    | with_reducible apply keeps_State_dropMaster
    | with_reducible apply keeps_State_servoStart
    | with_reducible apply keeps_ite
    | split)

theorem keeps_State_takeMaster {P : State → Prop} (hP : K0 P) {s t} (h_s : P s) :
    P (State.takeMaster s t) := by
  unfold State.takeMaster
  repeat' (first
    | with_reducible assumption
    | with_reducible apply keeps_State_setMaster
    | with_reducible apply keeps_State_noParent
    | with_reducible apply keeps_State_stopMaster
    | with_reducible apply keeps_State_becomeMaster
    | (extract_lets +onlyGivenNames x; (have hx : P x := ?_); clear_value x; revert x; intro y hy; rotate_left; unfold x; clear x)
    | with_reducible apply keeps_ite)

theorem keeps_State_electLowest {P : State → Prop} (hP : K0 P) {s} (h_s : P s) :
    P (State.electLowest s) := by
  unfold State.electLowest
  repeat' (first
    | with_reducible assumption
    | with_reducible apply keeps_State_takeMaster
    | split)

theorem keeps_State_loseParent {P : State → Prop} (hP : K0 P) {s} (h_s : P s) :
    P (State.loseParent s) := by
  unfold State.loseParent
  repeat' (first
    | with_reducible assumption
    | with_reducible apply keeps_State_setLock
    | with_reducible apply keeps_State_set
    | with_reducible apply keeps_State_ev
    | with_reducible apply keeps_State_noParent
    | with_reducible apply keeps_State_dropFollower
    | (extract_lets +onlyGivenNames x; (have hx : P x := ?_); clear_value x; revert x; intro y hy; rotate_left; unfold x; clear x)
    | (extract_lets +onlyGivenNames x; clear_value x; revert x; intro y)
    | with_reducible apply keeps_ite)

theorem keeps_State_servo {P : State → Prop} (hP : K0 P) {s} (h_s : P s) :
    P (State.servo s) := by
  unfold State.servo
  repeat' (first
    | with_reducible assumption
    | with_reducible apply keeps_State_set
    | with_reducible apply keeps_State_lockLoss
    | with_reducible apply keeps_State_setLock
    | with_reducible apply keeps_State_err
    | with_reducible apply keeps_State_setRegSat
    | with_reducible apply keeps_State_setBeam
    | with_reducible apply keeps_State_free
    | (extract_lets +onlyGivenNames x; (have hx : P x := ?_); clear_value x; revert x; intro y hy; rotate_left; unfold x; clear x)
    | (extract_lets +onlyGivenNames x; (have hx : P x.2 := ?_); clear_value x; revert x; intro y hy; rotate_left; unfold x; clear x)
    | (extract_lets +onlyGivenNames x; clear_value x; revert x; intro y)
    | with_reducible apply keeps_ite)

theorem keeps_State_discipline {P : State → Prop} (hP : K0 P) {s off} (h_s : P s) :
    P (State.discipline s off) := by
  unfold State.discipline
  repeat' (first
    | with_reducible assumption
    | with_reducible apply keeps_State_err
    | with_reducible apply keeps_State_setBeam
    | with_reducible apply keeps_State_setRegSat
    | with_reducible apply keeps_State_free
    | (extract_lets +onlyGivenNames x; (have hx : P x := ?_); clear_value x; revert x; intro y hy; rotate_left; unfold x; clear x)
    | (extract_lets +onlyGivenNames x; (have hx : P x.2 := ?_); clear_value x; revert x; intro y hy; rotate_left; unfold x; clear x)
    | (extract_lets +onlyGivenNames x; clear_value x; revert x; intro y)
    | with_reducible apply keeps_ite)

theorem keeps_State_followerStep {P : State → Prop} (hP : K0 P) {s} (h_s : P s) :
    P (State.followerStep s) := by
  unfold State.followerStep
  repeat' (first
    | with_reducible assumption
    | with_reducible apply keeps_State_callStep
    | with_reducible apply keeps_State_ev
    | (extract_lets +onlyGivenNames x; clear_value x; revert x; intro y)
    | with_reducible apply keeps_ite)

theorem keeps_State_offsetRows {P : State → Prop} (hP : K0 P) {s} (h_s : P s) :
    P (State.offsetRows s) := by
  unfold State.offsetRows
  repeat' (first
    | with_reducible assumption
    | with_reducible apply keeps_State_lockLoss
    | with_reducible apply keeps_State_followerStep
    | with_reducible apply keeps_State_servoStart
    | with_reducible apply keeps_State_setLock
    | (extract_lets +onlyGivenNames x; clear_value x; revert x; intro y)
    | with_reducible apply keeps_ite)

theorem keeps_execSnap {P : State → Prop} (hP : K0 P) {w s} (h_s : P s) :
    OutP P ((execSnap w s)) := by
  unfold execSnap
  repeat' (first
    | with_reducible assumption
    | with_reducible apply keeps_State_snapCapture
    | with_reducible apply keeps_State_actionWrite
    | with_reducible apply keeps_finish
    | with_reducible apply OutP.next)

theorem keeps_execBeamSetApply {P : State → Prop} (hP : K0 P) {s} (h_s : P s) :
    OutP P ((execBeamSetApply s)) := by
  unfold execBeamSetApply
  repeat' (first
    | with_reducible assumption
    | with_reducible apply keeps_State_beamSetApply
    | with_reducible apply OutP.next)

theorem keeps_execTimeMessageTx {P : State → Prop} (hP : K0 P) {s} (h_s : P s) :
    OutP P ((execTimeMessageTx s)) := by
  unfold execTimeMessageTx
  repeat' (first
    | with_reducible assumption
    | with_reducible apply keeps_State_fabTime
    | with_reducible apply keeps_State_refreshClass
    | with_reducible apply keeps_foldl
    | with_reducible apply OutP.next
    | with_reducible intro _
    | with_reducible apply keeps_ite)

theorem keeps_State_adoptParent {P : State → Prop} (hP : K0 P) {s l hops} (h_s : P s) :
    P (State.adoptParent s l hops) := by
  unfold State.adoptParent
  repeat' (first
    | with_reducible assumption
    | with_reducible apply keeps_State_set
    | (extract_lets +onlyGivenNames x; clear_value x; revert x; intro y)
    | with_reducible apply keeps_ite)

theorem keeps_State_delayTake {P : State → Prop} (hP : K0 P) {s link m} (h_s : P s) :
    P (State.delayTake s link m) := by
  unfold State.delayTake
  repeat' (first
    | with_reducible assumption
    | with_reducible apply keeps_State_setReg
    | split)

theorem keeps_execTimeMessageRx {P : State → Prop} (hP : K0 P) {link m s} (h_s : P s) :
    OutP P ((execTimeMessageRx link m s)) := by
  unfold execTimeMessageRx
  repeat' (first
    | with_reducible assumption
    | with_reducible apply keeps_State_offsetRows
    | with_reducible apply keeps_State_servo
    | with_reducible apply keeps_State_lockCheck
    | with_reducible apply keeps_State_set
    | with_reducible apply keeps_State_ev
    | with_reducible apply keeps_State_setB
    | with_reducible apply keeps_State_setOffset
    | with_reducible apply keeps_State_setCmsn
    | with_reducible apply keeps_State_adoptParent
    | with_reducible apply keeps_State_setBeam
    | with_reducible apply keeps_State_delayTake
    | with_reducible apply OutP.next
    | (extract_lets +onlyGivenNames x; (have hx : P x := ?_); clear_value x; revert x; intro y hy; rotate_left; unfold x; clear x)
    | (extract_lets +onlyGivenNames x; clear_value x; revert x; intro y)
    | with_reducible apply keeps_ite
    | with_reducible apply outP_ite)

theorem keeps_execMasterLoss {P : State → Prop} (hP : K0 P) {s} (h_s : P s) :
    OutP P ((execMasterLoss s)) := by
  unfold execMasterLoss
  repeat' (first
    | with_reducible assumption
    | with_reducible apply keeps_State_setBeam
    | with_reducible apply keeps_State_lockCheck
    | with_reducible apply keeps_State_loseParent
    | with_reducible apply keeps_State_setMaster
    | with_reducible apply OutP.next
    | (extract_lets +onlyGivenNames x; (have hx : P x := ?_); clear_value x; revert x; intro y hy; rotate_left; unfold x; clear x)
    | (extract_lets +onlyGivenNames x; clear_value x; revert x; intro y)
    | with_reducible apply outP_ite)

theorem keeps_execParentLoss {P : State → Prop} (hP : K0 P) {s} (h_s : P s) :
    OutP P ((execParentLoss s)) := by
  unfold execParentLoss
  repeat' (first
    | with_reducible assumption
    | with_reducible apply keeps_State_loseParent
    | with_reducible apply keeps_State_lockCheck
    | with_reducible apply OutP.next
    | with_reducible apply outP_ite)

theorem keeps_execElectTx {P : State → Prop} (hP : K0 P) {s} (h_s : P s) :
    OutP P ((execElectTx s)) := by
  unfold execElectTx
  repeat' (first
    | with_reducible assumption
    | with_reducible apply keeps_State_fabFlood
    | with_reducible apply OutP.next
    | with_reducible apply outP_ite)

theorem keeps_execElectRx {P : State → Prop} (hP : K0 P) {t isMaster early s} (h_s : P s) :
    OutP P ((execElectRx t isMaster early s)) := by
  unfold execElectRx
  repeat' (first
    | with_reducible assumption
    | with_reducible apply keeps_State_takeMaster
    | with_reducible apply keeps_State_lockCheck
    | with_reducible apply keeps_State_setBeam
    | with_reducible apply OutP.next
    | (extract_lets +onlyGivenNames x; (have hx : P x := ?_); clear_value x; revert x; intro y hy; rotate_left; unfold x; clear x)
    | (extract_lets +onlyGivenNames x; clear_value x; revert x; intro y)
    | with_reducible apply keeps_ite
    | with_reducible apply outP_ite)

theorem keeps_execMasterTakeover {P : State → Prop} (hP : K0 P) {t s} (h_s : P s) :
    OutP P ((execMasterTakeover t s)) := by
  unfold execMasterTakeover
  repeat' (first
    | with_reducible assumption
    | with_reducible apply keeps_State_takeMaster
    | with_reducible apply keeps_State_lockCheck
    | with_reducible apply OutP.next
    | with_reducible apply keeps_ite)

theorem keeps_execMasterTake {P : State → Prop} (hP : K0 P) {s} (h_s : P s) :
    OutP P ((execMasterTake s)) := by
  unfold execMasterTake
  repeat' (first
    | with_reducible assumption
    | with_reducible apply keeps_State_electLowest
    | with_reducible apply keeps_State_lockCheck
    | with_reducible apply OutP.next)

theorem keeps_execAcquireDwell {P : State → Prop} (hP : K0 P) {s} (h_s : P s) :
    OutP P ((execAcquireDwell s)) := by
  unfold execAcquireDwell
  repeat' (first
    | with_reducible assumption
    | with_reducible apply keeps_State_dropFollower
    | with_reducible apply keeps_State_setLock
    | with_reducible apply keeps_State_lockCheck
    | with_reducible apply OutP.next
    | with_reducible apply outP_ite)

theorem keeps_execCoarseDwell {P : State → Prop} (hP : K0 P) {s} (h_s : P s) :
    OutP P ((execCoarseDwell s)) := by
  unfold execCoarseDwell
  repeat' (first
    | with_reducible assumption
    | with_reducible apply keeps_State_setLock
    | with_reducible apply keeps_State_lockCheck
    | with_reducible apply OutP.next
    | with_reducible apply outP_ite)

theorem keeps_execMasterFineDwell {P : State → Prop} (hP : K0 P) {s} (h_s : P s) :
    OutP P ((execMasterFineDwell s)) := by
  unfold execMasterFineDwell
  repeat' (first
    | with_reducible assumption
    | with_reducible apply keeps_State_setLock
    | with_reducible apply keeps_State_refreshClass
    | with_reducible apply keeps_State_lockCheck
    | with_reducible apply OutP.next
    | with_reducible apply outP_ite)

theorem keeps_execFineLossDwell {P : State → Prop} (hP : K0 P) {s} (h_s : P s) :
    OutP P ((execFineLossDwell s)) := by
  unfold execFineLossDwell
  repeat' (first
    | with_reducible assumption
    | with_reducible apply keeps_State_lockLoss
    | with_reducible apply keeps_State_setLock
    | with_reducible apply keeps_State_lockCheck
    | with_reducible apply OutP.next
    | with_reducible apply outP_ite)

theorem keeps_execHoldoverExpire {P : State → Prop} (hP : K0 P) {s} (h_s : P s) :
    OutP P ((execHoldoverExpire s)) := by
  unfold execHoldoverExpire
  repeat' (first
    | with_reducible assumption
    | with_reducible apply keeps_State_set
    | with_reducible apply keeps_State_lockLoss
    | with_reducible apply keeps_State_setLock
    | with_reducible apply keeps_State_lockCheck
    | with_reducible apply OutP.next
    | with_reducible apply outP_ite)

theorem keeps_execCorrLimitClear {P : State → Prop} (hP : K0 P) {s} (h_s : P s) :
    OutP P ((execCorrLimitClear s)) := by
  unfold execCorrLimitClear
  repeat' (first
    | with_reducible assumption
    | with_reducible apply keeps_State_set
    | with_reducible apply OutP.next
    | with_reducible apply outP_ite)

theorem keeps_State_importStep {P : State → Prop} (hP : K0 P) {s pps shift} (h_s : P s) :
    P (State.importStep s pps shift) := by
  unfold State.importStep
  repeat' (first
    | with_reducible assumption
    | with_reducible apply keeps_State_callStep
    | (extract_lets +onlyGivenNames x; clear_value x; revert x; intro y)
    | with_reducible apply keeps_ite)

theorem keeps_State_ppsInvalid {P : State → Prop} (hP : K0 P) {s} (h_s : P s) :
    P (State.ppsInvalid s) := by
  unfold State.ppsInvalid
  repeat' (first
    | with_reducible assumption
    | with_reducible apply keeps_State_set
    | with_reducible apply keeps_State_refreshClass
    | with_reducible apply keeps_State_dropReference
    | with_reducible apply keeps_State_setBeam)

theorem keeps_execPpsInEdge {P : State → Prop} (hP : K0 P) {falling spacing s} (h_s : P s) :
    OutP P ((execPpsInEdge falling spacing s)) := by
  unfold execPpsInEdge
  repeat' (first
    | with_reducible assumption
    | with_reducible apply keeps_State_importStep
    | with_reducible apply keeps_State_discipline
    | with_reducible apply keeps_State_refreshClass
    | with_reducible apply keeps_State_set
    | with_reducible apply keeps_State_setBeam
    | with_reducible apply keeps_State_err
    | with_reducible apply keeps_State_ppsInvalid
    | with_reducible apply keeps_State_setRegSat
    | with_reducible apply keeps_State_injTake
    | with_reducible apply OutP.next
    | (extract_lets +onlyGivenNames x; (have hx : P x := ?_); clear_value x; revert x; intro y hy; rotate_left; unfold x; clear x)
    | (extract_lets +onlyGivenNames x; (have hx : P x.2 := ?_); clear_value x; revert x; intro y hy; rotate_left; unfold x; clear x)
    | (extract_lets +onlyGivenNames x; clear_value x; revert x; intro y)
    | with_reducible apply keeps_ite
    | with_reducible apply outP_ite)

theorem keeps_execPpsTimeout {P : State → Prop} (hP : K0 P) {s} (h_s : P s) :
    OutP P ((execPpsTimeout s)) := by
  unfold execPpsTimeout
  repeat' (first
    | with_reducible assumption
    | with_reducible apply keeps_State_ppsInvalid
    | with_reducible apply OutP.next)

theorem keeps_execPtpMessage {P : State → Prop} (hP : K0 P) {m s} (h_s : P s) :
    OutP P ((execPtpMessage m s)) := by
  unfold execPtpMessage
  repeat' (first
    | with_reducible assumption
    | with_reducible apply keeps_State_dropReference
    | with_reducible apply keeps_State_importStep
    | with_reducible apply keeps_State_discipline
    | with_reducible apply keeps_State_setB
    | with_reducible apply keeps_State_refreshClass
    | with_reducible apply keeps_State_setReg
    | with_reducible apply keeps_State_setRegSat
    | with_reducible apply OutP.next
    | (extract_lets +onlyGivenNames x; (have hx : P x := ?_); clear_value x; revert x; intro y hy; rotate_left; unfold x; clear x)
    | (extract_lets +onlyGivenNames x; clear_value x; revert x; intro y)
    | with_reducible apply keeps_ite
    | with_reducible apply outP_ite
    | split)

theorem keeps_execBeamStep {P : State → Prop} (hP : K0 P) {r s} (h_s : P s) :
    OutP P ((execBeamStep r s)) := by
  unfold execBeamStep
  repeat' (first
    | with_reducible assumption
    | with_reducible apply keeps_State_importStep
    | with_reducible apply keeps_State_followerStep
    | with_reducible apply OutP.next
    | with_reducible apply keeps_ite
    | split)

theorem keeps_execStepApply {P : State → Prop} (hP : K0 P) {s} (h_s : P s) :
    OutP P ((execStepApply s)) := by
  unfold execStepApply
  repeat' (first
    | with_reducible assumption
    | with_reducible apply keeps_State_applyStep
    | with_reducible apply OutP.next
    | with_reducible apply keeps_ite
    | split)

theorem keeps_execBeamSecond {P : State → Prop} (hP : K0 P) {s} (h_s : P s) :
    OutP P ((execBeamSecond s)) := by
  unfold execBeamSecond
  repeat' (first
    | with_reducible assumption
    | with_reducible apply keeps_State_setBeam
    | with_reducible apply keeps_State_send
    | with_reducible apply keeps_State_ev
    | with_reducible apply OutP.next
    | (extract_lets +onlyGivenNames x; (have hx : P x := ?_); clear_value x; revert x; intro y hy; rotate_left; unfold x; clear x)
    | (extract_lets +onlyGivenNames x; clear_value x; revert x; intro y)
    | with_reducible apply outP_ite)

theorem keeps_execPpsOutWidthEnd {P : State → Prop} (hP : K0 P) {s} (h_s : P s) :
    OutP P ((execPpsOutWidthEnd s)) := by
  unfold execPpsOutWidthEnd
  repeat' (first
    | with_reducible assumption
    | with_reducible apply keeps_State_setBeam
    | with_reducible apply keeps_State_send
    | with_reducible apply OutP.next
    | (extract_lets +onlyGivenNames x; clear_value x; revert x; intro y)
    | with_reducible apply outP_ite)

theorem keeps_execCgLockStart {P : State → Prop} (hP : K0 P) {g s} (h_s : P s) :
    OutP P ((execCgLockStart g s)) := by
  unfold execCgLockStart
  repeat' (first
    | with_reducible assumption
    | with_reducible apply keeps_State_tryStartGen
    | with_reducible apply OutP.next
    | with_reducible apply outP_ite)

theorem keeps_execGangTx {P : State → Prop} (hP : K0 P) {s} (h_s : P s) :
    OutP P ((execGangTx s)) := by
  unfold execGangTx
  repeat' (first
    | with_reducible assumption
    | with_reducible apply keeps_State_fabFlood
    | with_reducible apply keeps_foldl
    | with_reducible apply OutP.next
    | with_reducible intro _
    | with_reducible apply keeps_ite)

theorem keeps_execGangRx {P : State → Prop} (hP : K0 P) {id period anchor s} (h_s : P s) :
    OutP P ((execGangRx id period anchor s)) := by
  unfold execGangRx
  repeat' (first
    | with_reducible assumption
    | with_reducible apply keeps_State_setGen
    | with_reducible apply keeps_State_err
    | with_reducible apply keeps_State_ev
    | with_reducible apply keeps_State_set
    | with_reducible apply keeps_foldl
    | with_reducible apply OutP.next
    | with_reducible intro _
    | (extract_lets +onlyGivenNames x; (have hx : P x := ?_); clear_value x; revert x; intro y hy; rotate_left; unfold x; clear x)
    | (extract_lets +onlyGivenNames x; clear_value x; revert x; intro y)
    | with_reducible apply keeps_ite)

theorem keeps_execGangMismatchClear {P : State → Prop} (hP : K0 P) {g s} (h_s : P s) :
    OutP P ((execGangMismatchClear g s)) := by
  unfold execGangMismatchClear
  repeat' (first
    | with_reducible assumption
    | with_reducible apply keeps_State_tryStartGen
    | with_reducible apply keeps_State_setGen
    | with_reducible apply keeps_State_set
    | with_reducible apply OutP.next
    | with_reducible apply keeps_ite)

theorem keeps_execSyncMiss {P : State → Prop} (hP : K0 P) {s} (h_s : P s) :
    OutP P ((execSyncMiss s)) := by
  unfold execSyncMiss
  repeat' (first
    | with_reducible assumption
    | with_reducible apply keeps_State_err
    | with_reducible apply keeps_State_ev
    | with_reducible apply keeps_State_incF
    | with_reducible apply keeps_State_setBeam
    | with_reducible apply OutP.next
    | (extract_lets +onlyGivenNames x; (have hx : P x := ?_); clear_value x; revert x; intro y hy; rotate_left; unfold x; clear x)
    | (extract_lets +onlyGivenNames x; clear_value x; revert x; intro y)
    | with_reducible apply outP_ite
    | split)

end Sys2Proof.Machine
end

