-- ==== Sys2Proof/Laws/KSafeCore.lean ====
section
/-! SUPPORT. What the operations of Machine.SafeCore keep. -/

namespace Sys2Proof.Machine

open Host (Outcome)

theorem keeps_State_driveOuts {P : State → Prop} (hP : K0 P) {s} (h_s : P s) :
    P (State.driveOuts s) := by
  unfold State.driveOuts
  repeat' (first
    | with_reducible assumption
    | with_reducible apply keeps_State_setBit
    | with_reducible apply keeps_State_send
    | with_reducible apply keeps_foldl
    | with_reducible intro _
    | (extract_lets +onlyGivenNames x; clear_value x; revert x; intro y)
    | with_reducible apply keeps_ite)

theorem keeps_State_applySgr {P : State → Prop} (hP : K0 P) {s r fault} (h_s : P s) :
    P (State.applySgr s r fault) := by
  unfold State.applySgr
  repeat' (first
    | with_reducible assumption
    | with_reducible apply keeps_State_driveOuts
    | with_reducible apply keeps_State_tripPath
    | with_reducible apply keeps_State_faultCause
    | with_reducible apply keeps_State_setBit
    | with_reducible apply keeps_State_ev
    | with_reducible apply keeps_ite)

theorem keeps_State_setSafe {P : State → Prop} (hP : K0 P) {s x} (h_s : P s) :
    P (State.setSafe s x) := by
  unfold State.setSafe
  repeat' (first
    | with_reducible assumption
    | fail_if_no_progress with_reducible refine hP.upd ?_)

theorem keeps_State_demandNote {P : State → Prop} (hP : K0 P) {s code sub idx rods latching} (h_s : P s) :
    P (State.demandNote s code sub idx rods latching) := by
  unfold State.demandNote
  repeat' (first
    | with_reducible assumption
    | with_reducible apply keeps_State_setSafe
    | with_reducible apply keeps_State_setReg
    | (extract_lets +onlyGivenNames x; (have hx : P x := ?_); clear_value x; revert x; intro y hy; rotate_left; unfold x; clear x)
    | (extract_lets +onlyGivenNames x; clear_value x; revert x; intro y)
    | with_reducible apply keeps_ite)

theorem keeps_State_demand {P : State → Prop} (hP : K0 P) {s code sub idx rods spd latching} (h_s : P s) :
    P (State.demand s code sub idx rods spd latching) := by
  unfold State.demand
  repeat' (first
    | with_reducible assumption
    | with_reducible apply keeps_State_setSafe
    | with_reducible apply keeps_State_demandNote
    | (extract_lets +onlyGivenNames x; (have hx : P x := ?_); clear_value x; revert x; intro y hy; rotate_left; unfold x; clear x)
    | (extract_lets +onlyGivenNames x; clear_value x; revert x; intro y)
    | with_reducible apply keeps_ite)

theorem keeps_State_demandNow {P : State → Prop} (hP : K0 P) {s code sub idx rods} (h_s : P s) :
    P (State.demandNow s code sub idx rods) := by
  unfold State.demandNow
  repeat' (first
    | with_reducible assumption
    | with_reducible apply keeps_State_demandNote
    | with_reducible apply keeps_State_applySgr
    | with_reducible apply keeps_foldl
    | with_reducible intro _)

end Sys2Proof.Machine
end

