-- ==== Sys2Proof/Laws/KGateLink.lean ====
section
/-! SUPPORT. What the operations of Machine.GateLink keep. -/

namespace Sys2Proof.Machine

open Host (Outcome)

theorem keeps_State_setLinkSt {P : State → Prop} (hP : K0 P) {s n p st} (h_s : P s) :
    P (State.setLinkSt s n p st) := by
  unfold State.setLinkSt
  repeat' (first
    | with_reducible assumption
    | with_reducible apply keeps_State_ev
    | with_reducible apply keeps_State_setB
    | with_reducible apply keeps_State_setBit
    | with_reducible apply keeps_State_set
    | (extract_lets +onlyGivenNames x; (have hx : P x := ?_); clear_value x; revert x; intro y hy; rotate_left; unfold x; clear x)
    | (extract_lets +onlyGivenNames x; clear_value x; revert x; intro y)
    | with_reducible apply keeps_ite)

theorem keeps_State_judgeTime {P : State → Prop} (hP : K0 P) {s n p} (h_s : P s) :
    P (State.judgeTime s n p) := by
  unfold State.judgeTime
  repeat' (first
    | with_reducible assumption
    | with_reducible apply keeps_State_descentCause
    | with_reducible apply keeps_State_setLinkSt
    | with_reducible apply keeps_State_ev
    | (extract_lets +onlyGivenNames x; (have hx : P x := ?_); clear_value x; revert x; intro y hy; rotate_left; unfold x; clear x)
    | (extract_lets +onlyGivenNames x; clear_value x; revert x; intro y)
    | with_reducible apply keeps_ite)

theorem keeps_State_enterLinkOff {P : State → Prop} (hP : K0 P) {s n p} (h_s : P s) :
    P (State.enterLinkOff s n p) := by
  unfold State.enterLinkOff
  repeat' (first
    | with_reducible assumption
    | with_reducible apply keeps_State_setLink
    | with_reducible apply keeps_State_setLinkSt)

theorem keeps_State_enterTrain {P : State → Prop} (hP : K0 P) {s n p} (h_s : P s) :
    P (State.enterTrain s n p) := by
  unfold State.enterTrain
  repeat' (first
    | with_reducible assumption
    | with_reducible apply keeps_State_setLinkSt
    | with_reducible apply keeps_State_setReg
    | with_reducible apply keeps_State_setLink)

theorem keeps_State_glkApplied {P : State → Prop} (hP : K0 P) {s0 s n} (h_s0 : P s0) (h_s : P s) :
    P (State.glkApplied s0 s n) := by
  unfold State.glkApplied
  repeat' (first
    | with_reducible assumption
    | with_reducible apply keeps_State_judgeTime
    | with_reducible apply keeps_State_enterLinkOff
    | with_reducible apply keeps_State_enterTrain
    | with_reducible apply keeps_foldl
    | with_reducible intro _
    | (extract_lets +onlyGivenNames x; clear_value x; revert x; intro y)
    | with_reducible apply keeps_ite)

theorem keeps_State_glSend {P : State → Prop} (hP : K0 P) {s k ty seq payload} (h_s : P s) :
    P (State.glSend s k ty seq payload) := by
  unfold State.glSend
  repeat' (first
    | with_reducible assumption
    | with_reducible apply keeps_State_send
    | with_reducible apply keeps_State_injTake
    | with_reducible apply keeps_ite2)

theorem keeps_State_lineSend {P : State → Prop} (hP : K0 P) {s k ty seq payload} (h_s : P s) :
    P (State.lineSend s k ty seq payload) := by
  unfold State.lineSend
  repeat' (first
    | with_reducible assumption
    | with_reducible apply keeps_State_setLink
    | with_reducible apply keeps_State_glSend)

theorem keeps_State_lowTx {P : State → Prop} (hP : K0 P) {s k ty} (h_s : P s) :
    P (State.lowTx s k ty) := by
  unfold State.lowTx
  repeat' (first
    | with_reducible assumption
    | with_reducible apply keeps_State_lineSend
    | with_reducible apply keeps_State_setLink
    | (extract_lets +onlyGivenNames x; clear_value x; revert x; intro y)
    | with_reducible apply keeps_ite
    | split)

theorem keeps_State_reqSend {P : State → Prop} (hP : K0 P) {s k payload} (h_s : P s) :
    P (State.reqSend s k payload) := by
  unfold State.reqSend
  repeat' (first
    | with_reducible assumption
    | with_reducible apply keeps_State_setLink
    | with_reducible apply keeps_State_lowTx)

theorem keeps_State_reqTx {P : State → Prop} (hP : K0 P) {s n} (h_s : P s) :
    P (State.reqTx s n) := by
  unfold State.reqTx
  repeat' (first
    | with_reducible assumption
    | with_reducible apply keeps_State_reqSend)

theorem keeps_State_deny {P : State → Prop} (hP : K0 P) {s n code} (h_s : P s) :
    P (State.deny s n code) := by
  unfold State.deny
  repeat' (first
    | with_reducible assumption
    | with_reducible apply keeps_State_set
    | with_reducible apply keeps_State_err)

theorem keeps_State_startFails {P : State → Prop} (hP : K0 P) {s n code} (h_s : P s) :
    P (State.startFails s n code) := by
  unfold State.startFails
  repeat' (first
    | with_reducible assumption
    | with_reducible apply keeps_State_setRod
    | with_reducible apply keeps_State_setStep
    | with_reducible apply keeps_State_deny)

theorem keeps_State_idFails {P : State → Prop} (hP : K0 P) {s n} (h_s : P s) :
    P (State.idFails s n) := by
  unfold State.idFails
  repeat' (first
    | with_reducible assumption
    | with_reducible apply keeps_State_setRod
    | with_reducible apply keeps_State_err
    | with_reducible apply keeps_State_startFails)

theorem keeps_State_idReq {P : State → Prop} (hP : K0 P) {s n try_} (h_s : P s) :
    P (State.idReq s n try_) := by
  unfold State.idReq
  repeat' (first
    | with_reducible assumption
    | with_reducible apply keeps_State_setRod
    | with_reducible apply keeps_State_reqSend
    | with_reducible apply keeps_State_idFails
    | (extract_lets +onlyGivenNames x; clear_value x; revert x; intro y)
    | with_reducible apply keeps_ite)

theorem keeps_State_reqDone {P : State → Prop} (hP : K0 P) {s n code} (h_s : P s) :
    P (State.reqDone s n code) := by
  unfold State.reqDone
  repeat' (first
    | with_reducible assumption
    | with_reducible apply keeps_State_idReq
    | with_reducible apply keeps_State_ev
    | with_reducible apply keeps_State_setRod
    | with_reducible apply keeps_State_set
    | with_reducible apply keeps_State_setReg
    | (extract_lets +onlyGivenNames x; (have hx : P x := ?_); clear_value x; revert x; intro y hy; rotate_left; unfold x; clear x)
    | (extract_lets +onlyGivenNames x; clear_value x; revert x; intro y)
    | with_reducible apply keeps_ite)

theorem keeps_State_reqCtlWrite {P : State → Prop} (hP : K0 P) {s w n v} (h_s : P s) :
    P ((State.reqCtlWrite s w n v)).1 := by
  unfold State.reqCtlWrite
  repeat' (first
    | with_reducible assumption
    | with_reducible apply keeps_State_reqTx
    | with_reducible apply keeps_State_setRod
    | with_reducible apply keeps_State_reqDone
    | with_reducible apply keeps_State_set
    | with_reducible apply keeps_State_setWord
    | with_reducible apply keeps_refuse
    | with_reducible apply keeps_State_actionWrite
    | with_reducible intro _
    | (extract_lets +onlyGivenNames x; (have hx : P x := ?_); clear_value x; revert x; intro y hy; rotate_left; unfold x; clear x)
    | (extract_lets +onlyGivenNames x; clear_value x; revert x; intro y)
    | with_reducible apply keeps_ite1)

theorem keeps_State_setLife {P : State → Prop} (hP : K0 P) {s n m x} (h_s : P s) :
    P (State.setLife s n m x) := by
  unfold State.setLife
  repeat' (first
    | with_reducible assumption
    | with_reducible apply keeps_State_setRod)

theorem keeps_State_countDiscard {P : State → Prop} (hP : K0 P) {s n p} (h_s : P s) :
    P (State.countDiscard s n p) := by
  unfold State.countDiscard
  repeat' (first
    | with_reducible assumption
    | with_reducible apply keeps_State_incF)

theorem keeps_execUplinkFrameDiscard {P : State → Prop} (hP : K0 P) {k frame violations s} (h_s : P s) :
    OutP P ((execUplinkFrameDiscard k frame violations s)) := by
  unfold execUplinkFrameDiscard
  repeat' (first
    | with_reducible assumption
    | with_reducible apply keeps_State_countDiscard
    | with_reducible apply keeps_State_incF
    | with_reducible apply OutP.next
    | with_reducible apply keeps_ite)

theorem keeps_State_gatesOffExit {P : State → Prop} (hP : K0 P) {s n} (h_s : P s) :
    P (State.gatesOffExit s n) := by
  unfold State.gatesOffExit
  repeat' (first
    | with_reducible assumption
    | with_reducible apply keeps_State_enterDischarge
    | with_reducible apply keeps_ite)

theorem keeps_execLinkRetrain {P : State → Prop} (hP : K0 P) {k s} (h_s : P s) :
    OutP P ((execLinkRetrain k s)) := by
  unfold execLinkRetrain
  repeat' (first
    | with_reducible assumption
    | with_reducible apply keeps_State_incF
    | with_reducible apply keeps_State_enterTrain
    | with_reducible apply OutP.next
    | (extract_lets +onlyGivenNames x; clear_value x; revert x; intro y)
    | with_reducible apply outP_ite)

theorem keeps_State_enterLost {P : State → Prop} (hP : K0 P) {s n p} (h_s : P s) :
    P (State.enterLost s n p) := by
  unfold State.enterLost
  repeat' (first
    | with_reducible assumption
    | with_reducible apply keeps_State_faultCause
    | with_reducible apply keeps_State_err
    | with_reducible apply keeps_State_ev
    | with_reducible apply keeps_State_incSat
    | with_reducible apply keeps_State_setLinkSt
    | with_reducible apply keeps_ite)

theorem keeps_execLinkLost {P : State → Prop} (hP : K0 P) {k s} (h_s : P s) :
    OutP P ((execLinkLost k s)) := by
  unfold execLinkLost
  repeat' (first
    | with_reducible assumption
    | with_reducible apply keeps_State_enterLost
    | with_reducible apply OutP.next
    | (extract_lets +onlyGivenNames x; clear_value x; revert x; intro y)
    | with_reducible apply outP_ite)

theorem keeps_execLinkTrainTimeout {P : State → Prop} (hP : K0 P) {k s} (h_s : P s) :
    OutP P ((execLinkTrainTimeout k s)) := by
  unfold execLinkTrainTimeout
  repeat' (first
    | with_reducible assumption
    | with_reducible apply keeps_State_enterLost
    | with_reducible apply OutP.next
    | (extract_lets +onlyGivenNames x; clear_value x; revert x; intro y)
    | with_reducible apply outP_ite)

theorem keeps_execLinkSymbolLock {P : State → Prop} (hP : K0 P) {k s} (h_s : P s) :
    OutP P ((execLinkSymbolLock k s)) := by
  unfold execLinkSymbolLock
  repeat' (first
    | with_reducible assumption
    | with_reducible apply keeps_State_setLinkSt
    | with_reducible apply keeps_State_lowTx
    | with_reducible apply keeps_State_reqSend
    | with_reducible apply OutP.next
    | (extract_lets +onlyGivenNames x; clear_value x; revert x; intro y)
    | with_reducible apply outP_ite)

theorem keeps_State_reqAgain {P : State → Prop} (hP : K0 P) {s n} (h_s : P s) :
    P (State.reqAgain s n) := by
  unfold State.reqAgain
  repeat' (first
    | with_reducible assumption
    | with_reducible apply keeps_State_idFails
    | with_reducible apply keeps_State_idReq
    | with_reducible apply keeps_State_setRod
    | with_reducible apply keeps_State_reqTx
    | with_reducible apply keeps_State_reqDone
    | (extract_lets +onlyGivenNames x; clear_value x; revert x; intro y)
    | with_reducible apply keeps_ite)

theorem keeps_execGateReqRetry {P : State → Prop} (hP : K0 P) {n s} (h_s : P s) :
    OutP P ((execGateReqRetry n s)) := by
  unfold execGateReqRetry
  repeat' (first
    | with_reducible assumption
    | with_reducible apply keeps_State_reqAgain
    | with_reducible apply OutP.next)

theorem keeps_State_idTake {P : State → Prop} (hP : K0 P) {s n status data} (h_s : P s) :
    P (State.idTake s n status data) := by
  unfold State.idTake
  repeat' (first
    | with_reducible assumption
    | with_reducible apply keeps_State_setRod
    | with_reducible apply keeps_State_idReq
    | with_reducible apply keeps_State_idFails
    | (extract_lets +onlyGivenNames x; (have hx : P x := ?_); clear_value x; revert x; intro y hy; rotate_left; unfold x; clear x)
    | (extract_lets +onlyGivenNames x; clear_value x; revert x; intro y)
    | with_reducible apply keeps_ite)

theorem keeps_State_versionRead {P : State → Prop} (hP : K0 P) {s n p v c} (h_s : P s) :
    P (State.versionRead s n p v c) := by
  unfold State.versionRead
  repeat' (first
    | with_reducible assumption
    | with_reducible apply keeps_State_err
    | with_reducible apply keeps_State_enterLost
    | with_reducible apply keeps_State_judgeTime
    | with_reducible apply keeps_State_setLink
    | (extract_lets +onlyGivenNames x; (have hx : P x := ?_); clear_value x; revert x; intro y hy; rotate_left; unfold x; clear x)
    | (extract_lets +onlyGivenNames x; clear_value x; revert x; intro y)
    | with_reducible apply keeps_ite)

theorem keeps_execRspRx {P : State → Prop} (hP : K0 P) {k status data s} (h_s : P s) :
    OutP P ((execRspRx k status data s)) := by
  unfold execRspRx
  repeat' (first
    | with_reducible assumption
    | with_reducible apply keeps_State_idTake
    | with_reducible apply keeps_State_reqDone
    | with_reducible apply keeps_State_set
    | with_reducible apply keeps_State_versionRead
    | with_reducible apply keeps_State_countDiscard
    | with_reducible apply keeps_foldl
    | with_reducible apply OutP.next
    | with_reducible intro _
    | (extract_lets +onlyGivenNames x; (have hx : P x := ?_); clear_value x; revert x; intro y hy; rotate_left; unfold x; clear x)
    | (extract_lets +onlyGivenNames x; clear_value x; revert x; intro y)
    | with_reducible apply keeps_ite
    | with_reducible apply outP_ite)

theorem keeps_execGateReq {P : State → Prop} (hP : K0 P) {w n v s} (h_s : P s) :
    OutP P ((execGateReq w n v s)) := by
  unfold execGateReq
  repeat' (first
    | with_reducible assumption
    | with_reducible apply keeps_State_reqCtlWrite
    | with_reducible apply keeps_finish
    | with_reducible apply OutP.next)

theorem keeps_execTripInnerOff {P : State → Prop} (hP : K0 P) {n s} (h_s : P s) :
    OutP P ((execTripInnerOff n s)) := by
  unfold execTripInnerOff
  repeat' (first
    | with_reducible assumption
    | with_reducible apply keeps_State_setRod
    | with_reducible apply keeps_State_send
    | with_reducible apply OutP.next
    | (extract_lets +onlyGivenNames x; clear_value x; revert x; intro y)
    | with_reducible apply outP_ite)

theorem keeps_execFaultSetRx {P : State → Prop} (hP : K0 P) {k code s} (h_s : P s) :
    OutP P ((execFaultSetRx k code s)) := by
  unfold execFaultSetRx
  repeat' (first
    | with_reducible assumption
    | with_reducible apply keeps_State_set
    | with_reducible apply keeps_State_ev
    | with_reducible apply keeps_State_faultCause
    | with_reducible apply OutP.next
    | (extract_lets +onlyGivenNames x; clear_value x; revert x; intro y)
    | with_reducible apply outP_ite)

theorem keeps_State_enterPrecharge {P : State → Prop} (hP : K0 P) {s n} (h_s : P s) :
    P (State.enterPrecharge s n) := by
  unfold State.enterPrecharge
  repeat' (first
    | with_reducible assumption
    | with_reducible apply keeps_State_descentCause
    | with_reducible apply keeps_State_setStep
    | with_reducible apply keeps_State_setRodSt
    | with_reducible apply keeps_State_setPrech
    | with_reducible apply keeps_State_setRod
    | (extract_lets +onlyGivenNames x; (have hx : P x := ?_); clear_value x; revert x; intro y hy; rotate_left; unfold x; clear x)
    | (extract_lets +onlyGivenNames x; clear_value x; revert x; intro y)
    | with_reducible apply keeps_ite)

theorem keeps_State_clearStage {P : State → Prop} (hP : K0 P) {s n} (h_s : P s) :
    P (State.clearStage s n) := by
  unfold State.clearStage
  repeat' (first
    | with_reducible assumption
    | with_reducible apply keeps_State_startFails
    | with_reducible apply keeps_State_enterPrecharge
    | with_reducible apply keeps_ite)

theorem keeps_State_gateStuck {P : State → Prop} (hP : K0 P) {s n} (h_s : P s) :
    P (State.gateStuck s n) := by
  unfold State.gateStuck
  repeat' (first
    | with_reducible assumption
    | with_reducible apply keeps_State_err
    | with_reducible apply keeps_State_demand
    | with_reducible apply keeps_State_set)

theorem keeps_State_hbStore {P : State → Prop} (hP : K0 P) {s n p hb} (h_s : P s) :
    P (State.hbStore s n p hb) := by
  unfold State.hbStore
  repeat' (first
    | with_reducible assumption
    | with_reducible apply keeps_State_setLife
    | with_reducible apply keeps_State_setBit
    | with_reducible apply keeps_State_setB
    | with_reducible apply keeps_State_setReg
    | (extract_lets +onlyGivenNames x; (have hx : P x := ?_); clear_value x; revert x; intro y hy; rotate_left; unfold x; clear x)
    | (extract_lets +onlyGivenNames x; clear_value x; revert x; intro y)
    | split)

theorem keeps_State_heartbeat {P : State → Prop} (hP : K0 P) {s n p hb} (h_s : P s) :
    P (State.heartbeat s n p hb) := by
  unfold State.heartbeat
  repeat' (first
    | with_reducible assumption
    | with_reducible apply keeps_State_judgeTime
    | with_reducible apply keeps_State_clearStage
    | with_reducible apply keeps_State_gatesOffExit
    | with_reducible apply keeps_State_gateStuck
    | with_reducible apply keeps_State_faultCause
    | with_reducible apply keeps_State_err
    | with_reducible apply keeps_State_hbStore
    | with_reducible apply keeps_State_setLink
    | with_reducible apply keeps_State_injTake
    | with_reducible apply keeps_ite
    | with_reducible apply keeps_ite2)

theorem keeps_execHeartbeatRx {P : State → Prop} (hP : K0 P) {k hb s} (h_s : P s) :
    OutP P ((execHeartbeatRx k hb s)) := by
  unfold execHeartbeatRx
  repeat' (first
    | with_reducible assumption
    | with_reducible apply keeps_State_heartbeat
    | with_reducible apply keeps_State_setLink
    | with_reducible apply keeps_State_injTake
    | with_reducible apply OutP.next
    | (extract_lets +onlyGivenNames x; (have hx : P x.2 := ?_); clear_value x; revert x; intro y hy; rotate_left; unfold x; clear x)
    | (extract_lets +onlyGivenNames x; clear_value x; revert x; intro y)
    | with_reducible apply keeps_ite
    | with_reducible apply keeps_ite2
    | with_reducible apply outP_ite)

theorem keeps_State_delaySample {P : State → Prop} (hP : K0 P) {s n p d2} (h_s : P s) :
    P (State.delaySample s n p d2) := by
  unfold State.delaySample
  repeat' (first
    | with_reducible assumption
    | with_reducible apply keeps_State_judgeTime
    | with_reducible apply keeps_State_err
    | with_reducible apply keeps_State_set
    | with_reducible apply keeps_State_setLink
    | with_reducible apply keeps_ite)

theorem keeps_execEchoRx {P : State → Prop} (hP : K0 P) {k tag tta elapsed s} (h_s : P s) :
    OutP P ((execEchoRx k tag tta elapsed s)) := by
  unfold execEchoRx
  repeat' (first
    | with_reducible assumption
    | with_reducible apply keeps_State_countDiscard
    | with_reducible apply keeps_State_delaySample
    | with_reducible apply OutP.next
    | (extract_lets +onlyGivenNames x; clear_value x; revert x; intro y)
    | with_reducible apply outP_ite)

theorem keeps_State_lowPump {P : State → Prop} (hP : K0 P) {s k} (h_s : P s) :
    P (State.lowPump s k) := by
  unfold State.lowPump
  repeat' (first
    | with_reducible assumption
    | with_reducible apply keeps_State_lowTx
    | with_reducible apply keeps_foldl
    | with_reducible intro _
    | with_reducible apply keeps_ite)

theorem keeps_execPingTx {P : State → Prop} (hP : K0 P) {k s} (h_s : P s) :
    OutP P ((execPingTx k s)) := by
  unfold execPingTx
  repeat' (first
    | with_reducible assumption
    | with_reducible apply keeps_State_lowTx
    | with_reducible apply keeps_State_lowPump
    | with_reducible apply OutP.next
    | with_reducible apply keeps_ite)

theorem keeps_execTimeFrameTx {P : State → Prop} (hP : K0 P) {k s} (h_s : P s) :
    OutP P ((execTimeFrameTx k s)) := by
  unfold execTimeFrameTx
  repeat' (first
    | with_reducible assumption
    | with_reducible apply keeps_State_lowTx
    | with_reducible apply keeps_State_lowPump
    | with_reducible apply OutP.next
    | with_reducible apply keeps_ite)

theorem keeps_State_highTx {P : State → Prop} (hP : K0 P) {s k ty seq payload} (h_s : P s) :
    P (State.highTx s k ty seq payload) := by
  unfold State.highTx
  repeat' (first
    | with_reducible assumption
    | with_reducible apply keeps_State_lowPump
    | with_reducible apply keeps_State_reqAgain
    | with_reducible apply keeps_State_lineSend
    | with_reducible apply keeps_State_send
    | with_reducible apply keeps_State_setLink
    | (extract_lets +onlyGivenNames x; (have hx : P x := ?_); clear_value x; revert x; intro y hy; rotate_left; unfold x; clear x)
    | (extract_lets +onlyGivenNames x; clear_value x; revert x; intro y)
    | with_reducible apply keeps_ite)

theorem keeps_State_sendSeq {P : State → Prop} (hP : K0 P) {s k ty payload} (h_s : P s) :
    P (State.sendSeq s k ty payload) := by
  unfold State.sendSeq
  repeat' (first
    | with_reducible assumption
    | with_reducible apply keeps_State_setLink
    | with_reducible apply keeps_State_highTx)

theorem keeps_execEdgeFrameTx {P : State → Prop} (hP : K0 P) {k s} (h_s : P s) :
    OutP P ((execEdgeFrameTx k s)) := by
  unfold execEdgeFrameTx
  repeat' (first
    | with_reducible assumption
    | with_reducible apply keeps_State_sendSeq
    | with_reducible apply keeps_State_setRod
    | with_reducible apply keeps_State_inc
    | with_reducible apply keeps_State_setLink
    | with_reducible apply OutP.next
    | (extract_lets +onlyGivenNames x; (have hx : P x := ?_); clear_value x; revert x; intro y hy; rotate_left; unfold x; clear x)
    | (extract_lets +onlyGivenNames x; clear_value x; revert x; intro y)
    | with_reducible apply keeps_ite
    | with_reducible apply outP_ite)

theorem keeps_State_cancelTx {P : State → Prop} (hP : K0 P) {s k t} (h_s : P s) :
    P (State.cancelTx s k t) := by
  unfold State.cancelTx
  repeat' (first
    | with_reducible assumption
    | with_reducible apply keeps_State_sendSeq
    | with_reducible apply keeps_State_setLink
    | (extract_lets +onlyGivenNames x; (have hx : P x := ?_); clear_value x; revert x; intro y hy; rotate_left; unfold x; clear x)
    | (extract_lets +onlyGivenNames x; clear_value x; revert x; intro y)
    | with_reducible apply keeps_ite)

end Sys2Proof.Machine
end

