-- ==== Sys2Proof/Laws/KMem.lean ====
section
/-! SUPPORT. What the operations of Machine.Mem keep. -/

namespace Sys2Proof.Machine

open Host (Outcome)

theorem keeps_State_setMemByte {P : State → Prop} (hP : Km P) {s a v} (h_s : P s) :
    P (State.setMemByte s a v) := by
  unfold State.setMemByte
  have h0 := hP.toK0
  repeat' (first
    | with_reducible assumption
    | fail_if_no_progress with_reducible refine hP.updMem ?_)

theorem keeps_State_setMemBytes {P : State → Prop} (hP : Km P) {s a l} (h_s : P s) :
    P (State.setMemBytes s a l) := by
  unfold State.setMemBytes
  have h0 := hP.toK0
  repeat' (first
    | with_reducible assumption
    | with_reducible apply keeps_State_setMemByte
    | with_reducible apply keeps_foldl
    | with_reducible intro _)

theorem keeps_State_ringPut {P : State → Prop} (hP : Km P) {s base size wr rd rec_ pad} (h_s : P s) :
    OptP (fun r => P (r).1) ((State.ringPut s base size wr rd rec_ pad)) := by
  unfold State.ringPut
  have h0 := hP.toK0
  repeat' (first
    | with_reducible assumption
    | with_reducible apply keeps_State_setMemBytes
    | with_reducible exact OptP.none
    | with_reducible apply OptP.some
    | (extract_lets +onlyGivenNames x; (have hx : P x := ?_); clear_value x; revert x; intro y hy; rotate_left; unfold x; clear x)
    | (extract_lets +onlyGivenNames x; clear_value x; revert x; intro y)
    | with_reducible apply keeps_ite
    | with_reducible apply optP_ite)

theorem keeps_State_setCommon {P : State → Prop} (hP : K1 P) {s i v} (h_s : P s) :
    P (State.setCommon s i v) := by
  unfold State.setCommon
  have hm := hP.toKm
  have h0 := hm.toK0
  repeat' (first
    | with_reducible assumption
    | fail_if_no_progress with_reducible refine hP.updCommon ?_)

end Sys2Proof.Machine
end

