-- ==== Sys2Proof/Laws/KAcq.lean ====
section
/-! SUPPORT. What the operations of Machine.Acq keep. -/

namespace Sys2Proof.Machine

open Host (Outcome)

theorem keeps_State_showDig {P : State → Prop} (hP : K0 P) {s k d} (h_s : P s) :
    P (State.showDig s k d) := by
  unfold State.showDig
  repeat' (first
    | with_reducible assumption
    | with_reducible apply keeps_State_set)

theorem keeps_State_digLoad {P : State → Prop} (hP : K0 P) {s k d} (h_s : P s) :
    P (State.digLoad s k d) := by
  unfold State.digLoad
  repeat' (first
    | with_reducible assumption
    | with_reducible apply keeps_State_showDig
    | with_reducible apply keeps_State_setDig)

theorem keeps_State_tdigApplied {P : State → Prop} (hP : K0 P) {s k} (h_s : P s) :
    P (State.tdigApplied s k) := by
  unfold State.tdigApplied
  repeat' (first
    | with_reducible assumption
    | with_reducible apply keeps_State_digLoad
    | with_reducible apply keeps_foldl
    | with_reducible intro _
    | with_reducible apply keeps_ite)

theorem keeps_State_showConv {P : State → Prop} (hP : K0 P) {s k c} (h_s : P s) :
    P (State.showConv s k c) := by
  unfold State.showConv
  repeat' (first
    | with_reducible assumption
    | with_reducible apply keeps_State_showPend
    | with_reducible apply keeps_State_setConv
    | with_reducible apply keeps_State_setBit
    | with_reducible apply keeps_State_setB
    | with_reducible apply keeps_State_set
    | (extract_lets +onlyGivenNames x; clear_value x; revert x; intro y)
    | with_reducible apply keeps_ite)

theorem keeps_State_setFilt {P : State → Prop} (hP : K0 P) {s k i o v} (h_s : P s) :
    P (State.setFilt s k i o v) := by
  unfold State.setFilt
  repeat' (first
    | with_reducible assumption
    | with_reducible apply keeps_State_setReg)

theorem keeps_State_fdcApplied {P : State → Prop} (hP : K0 P) {s0 s k} (h_s0 : P s0) (h_s : P s) :
    P (State.fdcApplied s0 s k) := by
  unfold State.fdcApplied
  repeat' (first
    | with_reducible assumption
    | with_reducible apply keeps_State_showConv
    | with_reducible apply keeps_State_setFilt
    | with_reducible apply keeps_foldl
    | with_reducible intro _
    | (extract_lets +onlyGivenNames x; (have hx : P x := ?_); clear_value x; revert x; intro y hy; rotate_left; unfold x; clear x)
    | with_reducible apply keeps_ite)

theorem keeps_State_seqTake {P : State → Prop} (hP : K0 P) {s k c} (h_s : P s) :
    P (State.seqTake s k c) := by
  unfold State.seqTake
  repeat' (first
    | with_reducible assumption
    | with_reducible apply keeps_State_setConv
    | (extract_lets +onlyGivenNames x; clear_value x; revert x; intro y)
    | split)

theorem keeps_State_tryNap {P : State → Prop} (hP : K0 P) {s k c} (h_s : P s) :
    P (State.tryNap s k c) := by
  unfold State.tryNap
  repeat' (first
    | with_reducible assumption
    | with_reducible apply keeps_State_setConv
    | (extract_lets +onlyGivenNames x; clear_value x; revert x; intro y)
    | with_reducible apply keeps_ite)

theorem keeps_State_seqSettle {P : State → Prop} (hP : K0 P) {s k c} (h_s : P s) :
    P (State.seqSettle s k c) := by
  unfold State.seqSettle
  repeat' (first
    | with_reducible assumption
    | with_reducible apply keeps_State_seqTake
    | with_reducible apply keeps_State_tryNap
    | with_reducible apply keeps_State_showConv)

theorem keeps_State_seqStop {P : State → Prop} (hP : K0 P) {s k c} (h_s : P s) :
    P (State.seqStop s k c) := by
  unfold State.seqStop
  repeat' (first
    | with_reducible assumption
    | with_reducible apply keeps_State_setConv)

theorem keeps_State_seqStart {P : State → Prop} (hP : K0 P) {s k c} (h_s : P s) :
    P (State.seqStart s k c) := by
  unfold State.seqStart
  repeat' (first
    | with_reducible assumption
    | with_reducible apply keeps_State_setConv)

theorem keeps_State_acqApplied {P : State → Prop} (hP : K0 P) {s0 s k} (h_s0 : P s0) (h_s : P s) :
    P (State.acqApplied s0 s k) := by
  unfold State.acqApplied
  repeat' (first
    | with_reducible assumption
    | with_reducible apply keeps_State_seqSettle
    | with_reducible apply keeps_State_seqStop
    | with_reducible apply keeps_State_seqStart
    | with_reducible apply keeps_State_setConv
    | with_reducible apply keeps_foldl
    | with_reducible intro _
    | with_reducible apply hf7
    | (extract_lets +onlyGivenNames x; (have hx : ∀ c b a, P a → P (x c b a) := ?_); clear_value x; revert x; intro y hf7; rotate_left; unfold x; clear x)
    | (extract_lets +onlyGivenNames x; (have hx : P x := ?_); clear_value x; revert x; intro y hy; rotate_left; unfold x; clear x)
    | (extract_lets +onlyGivenNames x; clear_value x; revert x; intro y)
    | with_reducible apply keeps_ite)

theorem keeps_State_seqTableWrite {P : State → Prop} (hP : K0 P) {s w k c e i v} (h_s : P s) :
    P ((State.seqTableWrite s w k c e i v)).1 := by
  unfold State.seqTableWrite
  repeat' (first
    | with_reducible assumption
    | with_reducible apply keeps_State_plainWrite
    | with_reducible apply keeps_refuse
    | with_reducible apply keeps_ite1)

theorem keeps_State_enqueue {P : State → Prop} (hP : K0 P) {s k c u} (h_s : P s) :
    P (State.enqueue s k c u) := by
  unfold State.enqueue
  repeat' (first
    | with_reducible assumption
    | with_reducible apply keeps_State_setConv
    | with_reducible apply keeps_State_showConv)

theorem keeps_State_urgRefused {P : State → Prop} (hP : K0 P) {s k c} (h_s : P s) :
    P (State.urgRefused s k c) := by
  unfold State.urgRefused
  repeat' (first
    | with_reducible assumption
    | with_reducible apply keeps_State_incF
    | with_reducible apply keeps_State_err
    | with_reducible apply keeps_State_ev)

theorem keeps_State_urgWrite {P : State → Prop} (hP : K0 P) {s w k c v} (h_s : P s) :
    P ((State.urgWrite s w k c v)).1 := by
  unfold State.urgWrite
  repeat' (first
    | with_reducible assumption
    | with_reducible apply keeps_State_enqueue
    | with_reducible apply keeps_State_setReg
    | with_reducible apply keeps_State_urgRefused
    | with_reducible apply keeps_refuse
    | with_reducible apply keeps_State_actionWrite
    | with_reducible intro _
    | (extract_lets +onlyGivenNames x; (have hx : P x := ?_); clear_value x; revert x; intro y hy; rotate_left; unfold x; clear x)
    | (extract_lets +onlyGivenNames x; clear_value x; revert x; intro y)
    | with_reducible apply keeps_ite1)

theorem keeps_State_trigger {P : State → Prop} (hP : K0 P) {s k c e} (h_s : P s) :
    P (State.trigger s k c e) := by
  unfold State.trigger
  repeat' (first
    | with_reducible assumption
    | with_reducible apply keeps_State_trigLost
    | with_reducible apply keeps_State_showPend
    | with_reducible apply keeps_State_setConv
    | with_reducible apply keeps_State_showConv
    | (extract_lets +onlyGivenNames x; (have hx : P x := ?_); clear_value x; revert x; intro y hy; rotate_left; unfold x; clear x)
    | (extract_lets +onlyGivenNames x; clear_value x; revert x; intro y)
    | with_reducible apply keeps_ite)

theorem keeps_State_trigOn {P : State → Prop} (hP : K0 P) {s code k c t least} (h_s : P s) :
    P (State.trigOn s code k c t least) := by
  unfold State.trigOn
  repeat' (first
    | with_reducible assumption
    | with_reducible apply keeps_State_trigger
    | with_reducible apply keeps_foldl
    | with_reducible intro _
    | with_reducible apply keeps_ite)

theorem keeps_State_swTrig {P : State → Prop} (hP : K0 P) {s k v} (h_s : P s) :
    P (State.swTrig s k v) := by
  unfold State.swTrig
  repeat' (first
    | with_reducible assumption
    | with_reducible apply keeps_State_trigOn
    | with_reducible apply keeps_foldl
    | with_reducible intro _)

theorem keeps_execAcqTrigger {P : State → Prop} (hP : K0 P) {k c src s} (h_s : P s) :
    OutP P ((execAcqTrigger k c src s)) := by
  unfold execAcqTrigger
  repeat' (first
    | with_reducible assumption
    | with_reducible apply keeps_State_setConv
    | with_reducible apply keeps_State_trigger
    | with_reducible apply OutP.next
    | (extract_lets +onlyGivenNames x; clear_value x; revert x; intro y)
    | split)

theorem keeps_execSoftwareTrigger {P : State → Prop} (hP : K0 P) {w k v s} (h_s : P s) :
    OutP P ((execSoftwareTrigger w k v s)) := by
  unfold execSoftwareTrigger
  repeat' (first
    | with_reducible assumption
    | with_reducible apply keeps_State_swTrig
    | with_reducible apply keeps_State_actionWrite
    | with_reducible apply keeps_finish
    | with_reducible apply OutP.next
    | with_reducible intro _)

theorem keeps_execSampleSyncEdge {P : State → Prop} (hP : K0 P) {t s} (h_s : P s) :
    OutP P ((execSampleSyncEdge t s)) := by
  unfold execSampleSyncEdge
  repeat' (first
    | with_reducible assumption
    | with_reducible apply keeps_State_syncAccept
    | with_reducible apply keeps_State_trigOn
    | with_reducible apply keeps_foldl
    | with_reducible apply OutP.next
    | with_reducible intro _)

theorem keeps_State_startConv {P : State → Prop} (hP : K0 P) {s k c t least v} (h_s : P s) :
    P (State.startConv s k c t least v) := by
  unfold State.startConv
  repeat' (first
    | with_reducible assumption
    | with_reducible apply keeps_State_incF
    | with_reducible apply keeps_State_ev
    | with_reducible apply keeps_State_setConv
    | (extract_lets +onlyGivenNames x; (have hx : P x := ?_); clear_value x; revert x; intro y hy; rotate_left; unfold x; clear x)
    | (extract_lets +onlyGivenNames x; clear_value x; revert x; intro y)
    | with_reducible apply keeps_ite)

theorem keeps_execSeqConversion {P : State → Prop} (hP : K0 P) {k c s} (h_s : P s) :
    OutP P ((execSeqConversion k c s)) := by
  unfold execSeqConversion
  repeat' (first
    | with_reducible assumption
    | with_reducible apply keeps_State_seqSettle
    | with_reducible apply keeps_State_setConv
    | with_reducible apply keeps_State_startConv
    | with_reducible apply keeps_State_showConv
    | with_reducible apply OutP.next
    | (extract_lets +onlyGivenNames x; clear_value x; revert x; intro y)
    | with_reducible apply outP_ite
    | split)

theorem keeps_State_writeSlot {P : State → Prop} (hP : K0 P) {s k i v t flags conv} (h_s : P s) :
    P (State.writeSlot s k i v t flags conv) := by
  unfold State.writeSlot
  repeat' (first
    | with_reducible assumption
    | with_reducible apply keeps_State_setReg)

theorem keeps_State_slotFilter {P : State → Prop} (hP : K0 P) {s k i x t} (h_s : P s) :
    P ((State.slotFilter s k i x t)).1 := by
  unfold State.slotFilter
  repeat' (first
    | with_reducible assumption
    | with_reducible apply keeps_State_writeSlot
    | with_reducible apply keeps_State_incSat
    | with_reducible apply keeps_State_ev
    | with_reducible apply keeps_State_setFilt
    | (extract_lets +onlyGivenNames x; (have hx : P x := ?_); clear_value x; revert x; intro y hy; rotate_left; unfold x; clear x)
    | (extract_lets +onlyGivenNames x; clear_value x; revert x; intro y)
    | with_reducible apply keeps_ite
    | with_reducible apply keeps_ite1)

theorem keeps_State_passMark {P : State → Prop} (hP : K0 P) {s k c} (h_s : P s) :
    P (State.passMark s k c) := by
  unfold State.passMark
  repeat' (first
    | with_reducible assumption
    | with_reducible apply keeps_State_ev
    | with_reducible apply keeps_State_setLoop
    | with_reducible apply keeps_foldl
    | with_reducible intro _
    | (extract_lets +onlyGivenNames x; clear_value x; revert x; intro y)
    | with_reducible apply keeps_ite)

theorem keeps_State_seqAdvance {P : State → Prop} (hP : K0 P) {s k c v} (h_s : P s) :
    P (State.seqAdvance s k c v) := by
  unfold State.seqAdvance
  repeat' (first
    | with_reducible assumption
    | with_reducible apply keeps_State_incFW
    | with_reducible apply keeps_State_ev
    | with_reducible apply keeps_State_setConv
    | (extract_lets +onlyGivenNames x; (have hx : P x := ?_); clear_value x; revert x; intro y hy; rotate_left; unfold x; clear x)
    | (extract_lets +onlyGivenNames x; clear_value x; revert x; intro y)
    | with_reducible apply keeps_ite)

theorem keeps_State_skewRun {P : State → Prop} (hP : K0 P) {s k c} (h_s : P s) :
    P (State.skewRun s k c) := by
  unfold State.skewRun
  repeat' (first
    | with_reducible assumption
    | with_reducible apply keeps_State_setConv
    | with_reducible apply keeps_State_free
    | with_reducible apply keeps_foldl
    | with_reducible intro _)

theorem keeps_State_convEnd {P : State → Prop} (hP : K0 P) {s k c samples cur} (h_s : P s) :
    P ((State.convEnd s k c samples cur)).1 := by
  unfold State.convEnd
  repeat' (first
    | with_reducible assumption
    | with_reducible apply keeps_State_seqSettle
    | with_reducible apply keeps_State_seqAdvance
    | with_reducible apply keeps_State_passMark
    | with_reducible apply keeps_State_skewRun
    | with_reducible apply keeps_State_slotFilter
    | with_reducible apply keeps_State_writeSlot
    | with_reducible apply keeps_State_setConv
    | (extract_lets +onlyGivenNames x; (have hx : P x := ?_); clear_value x; revert x; intro y hy; rotate_left; unfold x; clear x)
    | (extract_lets +onlyGivenNames x; clear_value x; revert x; intro y)
    | with_reducible apply keeps_ite
    | split)

theorem keeps_State_convDone {P : State → Prop} (hP : K0 P) {s k c samples} (h_s : P s) :
    P ((State.convDone s k c samples)).1 := by
  unfold State.convDone
  repeat' (first
    | with_reducible assumption
    | with_reducible apply keeps_State_convEnd)

theorem keeps_execUrgentRequest {P : State → Prop} (hP : K0 P) {w k c v s} (h_s : P s) :
    OutP P ((execUrgentRequest w k c v s)) := by
  unfold execUrgentRequest
  repeat' (first
    | with_reducible assumption
    | with_reducible apply keeps_State_urgWrite
    | with_reducible apply keeps_finish
    | with_reducible apply OutP.next)

theorem keeps_State_urgAuto {P : State → Prop} (hP : K0 P) {s n i} (h_s : P s) :
    P (State.urgAuto s n i) := by
  unfold State.urgAuto
  repeat' (first
    | with_reducible assumption
    | with_reducible apply keeps_State_setConv
    | with_reducible apply keeps_State_urgRefused
    | with_reducible apply keeps_State_enqueue
    | (extract_lets +onlyGivenNames x; clear_value x; revert x; intro y)
    | with_reducible apply keeps_ite)

theorem keeps_execSeqTableWrite {P : State → Prop} (hP : K0 P) {w k c e i v s} (h_s : P s) :
    OutP P ((execSeqTableWrite w k c e i v s)) := by
  unfold execSeqTableWrite
  repeat' (first
    | with_reducible assumption
    | with_reducible apply keeps_State_seqTableWrite
    | with_reducible apply keeps_State_restWrite
    | with_reducible apply keeps_finish
    | with_reducible apply OutP.next
    | with_reducible apply keeps_ite1)

theorem keeps_execCalConversion {P : State → Prop} (hP : K0 P) {k c slice s} (h_s : P s) :
    OutP P ((execCalConversion k c slice s)) := by
  unfold execCalConversion
  repeat' (first
    | with_reducible assumption
    | with_reducible apply keeps_State_setBit
    | with_reducible apply keeps_State_setConv
    | with_reducible apply keeps_State_free
    | with_reducible apply OutP.next
    | with_reducible apply keeps_ite
    | with_reducible apply outP_ite)

theorem keeps_execCalStarved {P : State → Prop} (hP : K0 P) {k c s} (h_s : P s) :
    OutP P ((execCalStarved k c s)) := by
  unfold execCalStarved
  repeat' (first
    | with_reducible assumption
    | with_reducible apply keeps_State_setBit
    | with_reducible apply keeps_State_err
    | with_reducible apply keeps_State_ev
    | with_reducible apply OutP.next
    | with_reducible apply outP_ite)

theorem keeps_execConverterWake {P : State → Prop} (hP : K0 P) {k c s} (h_s : P s) :
    OutP P ((execConverterWake k c s)) := by
  unfold execConverterWake
  repeat' (first
    | with_reducible assumption
    | with_reducible apply keeps_State_setConv
    | with_reducible apply keeps_State_showConv
    | with_reducible apply OutP.next
    | (extract_lets +onlyGivenNames x; clear_value x; revert x; intro y)
    | with_reducible apply outP_ite)

theorem keeps_execConverterReady {P : State → Prop} (hP : K0 P) {k c s} (h_s : P s) :
    OutP P ((execConverterReady k c s)) := by
  unfold execConverterReady
  repeat' (first
    | with_reducible assumption
    | with_reducible apply keeps_State_setConv
    | with_reducible apply OutP.next
    | (extract_lets +onlyGivenNames x; clear_value x; revert x; intro y)
    | with_reducible apply outP_ite)

theorem keeps_State_showBuf {P : State → Prop} (hP : K0 P) {s k} (h_s : P s) :
    P (State.showBuf s k) := by
  unfold State.showBuf
  repeat' (first
    | with_reducible assumption
    | with_reducible apply keeps_State_set)

theorem keeps_State_setCapBuf {P : State → Prop} (hP : K0 P) {s k l} (h_s : P s) :
    P (State.setCapBuf s k l) := by
  unfold State.setCapBuf
  repeat' (first
    | with_reducible assumption
    | with_reducible apply keeps_State_showBuf
    | fail_if_no_progress with_reducible refine hP.upd ?_)

theorem keeps_State_digStart {P : State → Prop} (hP : K0 P) {s k d r} (h_s : P s) :
    P ((State.digStart s k d r)).1 := by
  unfold State.digStart
  repeat' (first
    | with_reducible assumption
    | with_reducible apply keeps_State_setDig
    | with_reducible apply keeps_State_showDig
    | with_reducible apply keeps_State_showBuf
    | with_reducible apply keeps_State_incSat
    | with_reducible apply keeps_State_err
    | with_reducible apply keeps_State_ev
    | (extract_lets +onlyGivenNames x; clear_value x; revert x; intro y)
    | with_reducible apply keeps_ite1)

theorem keeps_State_digEdge {P : State → Prop} (hP : K0 P) {s k d r} (h_s : P s) :
    P (State.digEdge s k d r) := by
  unfold State.digEdge
  repeat' (first
    | with_reducible assumption
    | with_reducible apply keeps_State_digStart
    | with_reducible apply keeps_State_setDig
    | with_reducible apply keeps_State_incF
    | (extract_lets +onlyGivenNames x; (have hx : P x.1 := ?_); clear_value x; revert x; intro y hy; rotate_left; unfold x; clear x)
    | (extract_lets +onlyGivenNames x; clear_value x; revert x; intro y)
    | with_reducible apply keeps_ite)

theorem keeps_State_digBegin {P : State → Prop} (hP : K0 P) {s k d} (h_s : P s) :
    P (State.digBegin s k d) := by
  unfold State.digBegin
  repeat' (first
    | with_reducible assumption
    | with_reducible apply keeps_State_setDig
    | with_reducible apply keeps_State_digEdge
    | with_reducible apply keeps_foldl
    | with_reducible intro _
    | (extract_lets +onlyGivenNames x; clear_value x; revert x; intro y)
    | with_reducible apply keeps_ite)

theorem keeps_State_digTick {P : State → Prop} (hP : K0 P) {s} (h_s : P s) :
    P (State.digTick s) := by
  unfold State.digTick
  repeat' (first
    | with_reducible assumption
    | with_reducible apply keeps_State_digBegin
    | with_reducible apply keeps_foldl
    | with_reducible intro _)

theorem keeps_execDigitizerEdge {P : State → Prop} (hP : K0 P) {k d rod pos on t s} (h_s : P s) :
    OutP P ((execDigitizerEdge k d rod pos on t s)) := by
  unfold execDigitizerEdge
  repeat' (first
    | with_reducible assumption
    | with_reducible apply keeps_State_setDig
    | with_reducible apply keeps_State_digBegin
    | with_reducible apply OutP.next
    | (extract_lets +onlyGivenNames x; clear_value x; revert x; intro y)
    | with_reducible apply outP_ite)

theorem keeps_execTimedCaptureStart {P : State → Prop} (hP : K0 P) {k d s} (h_s : P s) :
    OutP P ((execTimedCaptureStart k d s)) := by
  unfold execTimedCaptureStart
  repeat' (first
    | with_reducible assumption
    | with_reducible apply keeps_State_setDig
    | with_reducible apply keeps_State_digStart
    | with_reducible apply OutP.next
    | (extract_lets +onlyGivenNames x; clear_value x; revert x; intro y)
    | with_reducible apply outP_ite
    | split)

theorem keeps_execCaptureEnd {P : State → Prop} (hP : K0 P) {k d samples s} (h_s : P s) :
    OutP P ((execCaptureEnd k d samples s)) := by
  unfold execCaptureEnd
  repeat' (first
    | with_reducible assumption
    | with_reducible apply keeps_State_showDig
    | with_reducible apply keeps_State_digLoad
    | with_reducible apply keeps_State_setCapBuf
    | with_reducible apply keeps_State_incFW
    | with_reducible apply keeps_State_setReg
    | with_reducible apply keeps_State_set
    | with_reducible apply keeps_State_setDig
    | with_reducible apply OutP.next
    | (extract_lets +onlyGivenNames x; clear_value x; revert x; intro y)
    | with_reducible apply keeps_ite
    | split)

theorem keeps_State_sigPut {P : State → Prop} (hP : K0 P) {s n a b v} (h_s : P s) :
    P (State.sigPut s n a b v) := by
  unfold State.sigPut
  repeat' (first
    | with_reducible assumption
    | with_reducible apply keeps_State_setReg)

theorem keeps_State_lifeFeature {P : State → Prop} (hP : K0 P) {s n m f0 f1 f2} (h_s : P s) :
    P (State.lifeFeature s n m f0 f1 f2) := by
  unfold State.lifeFeature
  repeat' (first
    | with_reducible assumption
    | with_reducible apply keeps_State_setBit
    | with_reducible apply keeps_State_ev
    | with_reducible apply keeps_State_sigPut
    | with_reducible apply keeps_State_setLife
    | (extract_lets +onlyGivenNames x; (have hx : P x := ?_); clear_value x; revert x; intro y hy; rotate_left; unfold x; clear x)
    | (extract_lets +onlyGivenNames x; clear_value x; revert x; intro y)
    | with_reducible apply keeps_ite)

theorem keeps_execFeatureExtract {P : State → Prop} (hP : K0 P) {k d s} (h_s : P s) :
    OutP P ((execFeatureExtract k d s)) := by
  unfold execFeatureExtract
  repeat' (first
    | with_reducible assumption
    | with_reducible apply keeps_State_lifeFeature
    | with_reducible apply keeps_State_ev
    | with_reducible apply keeps_State_incF
    | with_reducible apply keeps_State_setReg
    | with_reducible apply keeps_State_setCapBuf
    | with_reducible apply OutP.next
    | with_reducible apply keeps_ite
    | split)

theorem keeps_execDrainRecord {P : State → Prop} (hP : Km P) {k s} (h_s : P s) :
    OutP P ((execDrainRecord k s)) := by
  unfold execDrainRecord
  have h0 := hP.toK0
  repeat' (first
    | with_reducible assumption
    | with_reducible apply keeps_State_setCapBuf
    | with_reducible apply keeps_State_ev
    | with_reducible apply keeps_State_setReg
    | with_reducible apply keeps_State_setMemBytes
    | with_reducible apply OutP.next
    | (extract_lets +onlyGivenNames x; (have hx : P x := ?_); clear_value x; revert x; intro y hy; rotate_left; unfold x; clear x)
    | (extract_lets +onlyGivenNames x; clear_value x; revert x; intro y)
    | with_reducible apply outP_ite
    | split)

theorem keeps_execDigitizerWake {P : State → Prop} (hP : K0 P) {k d s} (h_s : P s) :
    OutP P ((execDigitizerWake k d s)) := by
  unfold execDigitizerWake
  repeat' (first
    | with_reducible assumption
    | with_reducible apply keeps_State_setDig
    | with_reducible apply OutP.next
    | (extract_lets +onlyGivenNames x; clear_value x; revert x; intro y)
    | with_reducible apply outP_ite)

theorem keeps_execDigitizerReady {P : State → Prop} (hP : K0 P) {k d s} (h_s : P s) :
    OutP P ((execDigitizerReady k d s)) := by
  unfold execDigitizerReady
  repeat' (first
    | with_reducible assumption
    | with_reducible apply keeps_State_setDig
    | with_reducible apply keeps_State_showDig
    | with_reducible apply OutP.next
    | (extract_lets +onlyGivenNames x; clear_value x; revert x; intro y)
    | with_reducible apply outP_ite)

end Sys2Proof.Machine
end

