-- ==== Sys2Proof/Laws/KBeads.lean ====
section
/-! SUPPORT. What the operations of Machine.Beads keep. -/

namespace Sys2Proof.Machine

open Host (Outcome)

theorem keeps_State_beadQuiet {P : State → Prop} (hP : K0 P) {s} (h_s : P s) :
    P (State.beadQuiet s) := by
  unfold State.beadQuiet
  repeat' (first
    | with_reducible assumption
    | with_reducible apply keeps_State_setLstate
    | with_reducible apply keeps_ite)

theorem keeps_State_beadsDisable {P : State → Prop} (hP : K0 P) {s} (h_s : P s) :
    P (State.beadsDisable s) := by
  unfold State.beadsDisable
  repeat' (first
    | with_reducible assumption
    | with_reducible apply keeps_State_beadQuiet
    | with_reducible apply keeps_State_placeRun
    | with_reducible apply keeps_State_setLstate
    | with_reducible apply keeps_State_setBead
    | (extract_lets +onlyGivenNames x; clear_value x; revert x; intro y)
    | with_reducible apply keeps_ite)

theorem keeps_State_beadsReset {P : State → Prop} (hP : K0 P) {s boot} (h_s : P s) :
    P (State.beadsReset s boot) := by
  unfold State.beadsReset
  repeat' (first
    | with_reducible assumption
    | with_reducible apply keeps_State_set
    | with_reducible apply keeps_State_free
    | (extract_lets +onlyGivenNames x; (have hx : P x := ?_); clear_value x; revert x; intro y hy; rotate_left; unfold x; clear x)
    | fail_if_no_progress with_reducible refine hP.upd ?_)

theorem keeps_State_toPeer {P : State → Prop} (hP : K0 P) {s m} (h_s : P s) :
    P (State.toPeer s m) := by
  unfold State.toPeer
  repeat' (first
    | with_reducible assumption
    | with_reducible apply keeps_State_fabOpen)

theorem keeps_State_cmdEnd {P : State → Prop} (hP : K0 P) {s code} (h_s : P s) :
    P (State.cmdEnd s code) := by
  unfold State.cmdEnd
  repeat' (first
    | with_reducible assumption
    | with_reducible apply keeps_State_setReg)

theorem keeps_State_setHome {P : State → Prop} (hP : K0 P) {s x} (h_s : P s) :
    P (State.setHome s x) := by
  unfold State.setHome
  repeat' (first
    | with_reducible assumption
    | fail_if_no_progress with_reducible refine hP.upd ?_)

theorem keeps_State_homeTargets {P : State → Prop} (hP : K0 P) {s} (h_s : P s) :
    P (State.homeTargets s) := by
  unfold State.homeTargets
  repeat' (first
    | with_reducible assumption
    | with_reducible apply keeps_State_setHome)

theorem keeps_State_sendAck {P : State → Prop} (hP : K0 P) {s d m} (h_s : P s) :
    P (State.sendAck s d m) := by
  unfold State.sendAck
  repeat' (first
    | with_reducible assumption
    | with_reducible apply keeps_State_fabBytes)

theorem keeps_State_homeAct {P : State → Prop} (hP : K0 P) {s lseq a} (h_s : P s) :
    P (State.homeAct s lseq a) := by
  unfold State.homeAct
  repeat' (first
    | with_reducible assumption
    | with_reducible apply keeps_State_set
    | with_reducible apply keeps_State_incSat
    | with_reducible apply keeps_State_fabOpen
    | with_reducible apply keeps_State_cmdEnd
    | with_reducible apply keeps_State_ev
    | with_reducible apply keeps_State_homeTargets
    | with_reducible apply keeps_State_sendAck
    | split)

theorem keeps_State_homeCommit {P : State → Prop} (hP : K0 P) {s lseq} (h_s : P s) :
    P (State.homeCommit s lseq) := by
  unfold State.homeCommit
  repeat' (first
    | with_reducible assumption
    | with_reducible apply keeps_State_homeAct
    | with_reducible apply keeps_State_setHome
    | with_reducible apply keeps_foldl
    | with_reducible intro _)

theorem keeps_State_homeStep {P : State → Prop} (hP : K0 P) {s st acts} (h_s : P s) :
    P (State.homeStep s st acts) := by
  unfold State.homeStep
  repeat' (first
    | with_reducible assumption
    | with_reducible apply keeps_State_toPeer
    | with_reducible apply keeps_State_homeCommit
    | with_reducible apply keeps_State_setHome
    | (extract_lets +onlyGivenNames x; (have hx : P x := ?_); clear_value x; revert x; intro y hy; rotate_left; unfold x; clear x)
    | (extract_lets +onlyGivenNames x; clear_value x; revert x; intro y)
    | with_reducible apply keeps_ite)

theorem keeps_State_homeCommand {P : State → Prop} (hP : K0 P) {s op} (h_s : P s) :
    P (State.homeCommand s op) := by
  unfold State.homeCommand
  repeat' (first
    | with_reducible assumption
    | with_reducible apply keeps_State_homeStep
    | with_reducible apply keeps_State_homeCommit
    | with_reducible apply keeps_State_setHome
    | with_reducible apply keeps_State_toPeer
    | with_reducible apply keeps_State_cmdEnd
    | with_reducible apply keeps_State_setReg
    | (extract_lets +onlyGivenNames x; (have hx : P x := ?_); clear_value x; revert x; intro y hy; rotate_left; unfold x; clear x)
    | (extract_lets +onlyGivenNames x; clear_value x; revert x; intro y)
    | with_reducible apply keeps_ite)

theorem keeps_State_homeCmdWrite {P : State → Prop} (hP : K0 P) {s w op} (h_s : P s) :
    P ((State.homeCmdWrite s w op)).1 := by
  unfold State.homeCmdWrite
  repeat' (first
    | with_reducible assumption
    | with_reducible apply keeps_State_homeCommand
    | with_reducible apply keeps_refuse
    | with_reducible apply keeps_ite1)

theorem keeps_State_beadsRegWrite {P : State → Prop} (hP : K0 P) {s w off v} (h_s : P s) :
    OptP (fun r => P (r).1) ((State.beadsRegWrite s w off v)) := by
  unfold State.beadsRegWrite
  repeat' (first
    | with_reducible assumption
    | with_reducible apply keeps_State_setReg
    | with_reducible apply keeps_State_placeRun
    | with_reducible apply keeps_refuse
    | with_reducible apply keeps_State_homeCmdWrite
    | with_reducible exact OptP.none
    | with_reducible apply OptP.some
    | with_reducible apply optP_ite)

theorem keeps_State_agentReturn {P : State → Prop} (hP : K0 P) {s} (h_s : P s) :
    P (State.agentReturn s) := by
  unfold State.agentReturn
  repeat' (first
    | with_reducible assumption
    | with_reducible apply keeps_State_beadStart
    | with_reducible apply keeps_State_incSat
    | with_reducible apply keeps_State_ev
    | with_reducible apply keeps_State_setBead
    | (extract_lets +onlyGivenNames x; (have hx : P x := ?_); clear_value x; revert x; intro y hy; rotate_left; unfold x; clear x)
    | (extract_lets +onlyGivenNames x; clear_value x; revert x; intro y)
    | with_reducible apply keeps_ite)

theorem keeps_State_setHold {P : State → Prop} (hP : K0 P) {s a} (h_s : P s) :
    P (State.setHold s a) := by
  unfold State.setHold
  repeat' (first
    | with_reducible assumption
    | with_reducible apply keeps_State_setReg
    | with_reducible apply keeps_State_setRemain)

theorem keeps_State_renewTransmit {P : State → Prop} (hP : K0 P) {s o} (h_s : P s) :
    P (State.renewTransmit s o) := by
  unfold State.renewTransmit
  repeat' (first
    | with_reducible assumption
    | with_reducible apply keeps_State_fabBytes
    | with_reducible apply keeps_State_set
    | with_reducible apply keeps_State_setBead)

theorem keeps_State_renewNew {P : State → Prop} (hP : K0 P) {s} (h_s : P s) :
    P (State.renewNew s) := by
  unfold State.renewNew
  repeat' (first
    | with_reducible assumption
    | with_reducible apply keeps_State_setBead
    | with_reducible apply keeps_State_setHold
    | with_reducible apply keeps_State_setReg
    | with_reducible apply keeps_State_renewTransmit
    | (extract_lets +onlyGivenNames x; (have hx : P x := ?_); clear_value x; revert x; intro y hy; rotate_left; unfold x; clear x)
    | (extract_lets +onlyGivenNames x; clear_value x; revert x; intro y)
    | with_reducible apply keeps_ite)

theorem keeps_execRenewSend {P : State → Prop} (hP : K0 P) {s} (h_s : P s) :
    OutP P ((execRenewSend s)) := by
  unfold execRenewSend
  repeat' (first
    | with_reducible assumption
    | with_reducible apply keeps_State_renewNew
    | with_reducible apply keeps_State_beadStart
    | with_reducible apply OutP.next
    | (extract_lets +onlyGivenNames x; (have hx : P x := ?_); clear_value x; revert x; intro y hy; rotate_left; unfold x; clear x)
    | with_reducible apply outP_ite)

theorem keeps_execRenewRetry {P : State → Prop} (hP : K0 P) {s} (h_s : P s) :
    OutP P ((execRenewRetry s)) := by
  unfold execRenewRetry
  repeat' (first
    | with_reducible assumption
    | with_reducible apply keeps_State_incSat
    | with_reducible apply keeps_State_renewTransmit
    | with_reducible apply OutP.next
    | split)

theorem keeps_State_leaseLapse {P : State → Prop} (hP : K0 P) {s} (h_s : P s) :
    P (State.leaseLapse s) := by
  unfold State.leaseLapse
  repeat' (first
    | with_reducible assumption
    | with_reducible apply keeps_State_placeRun
    | with_reducible apply keeps_State_incSat
    | with_reducible apply keeps_State_ev
    | with_reducible apply keeps_State_setLstate
    | with_reducible apply keeps_State_set
    | with_reducible apply keeps_State_setBead
    | with_reducible apply keeps_ite)

theorem keeps_State_ackTake {P : State → Prop} (hP : K0 P) {s m} (h_s : P s) :
    P (State.ackTake s m) := by
  unfold State.ackTake
  extract_lets s1 s2 s3 due b s4 s5 s6
  have h5 : P s5 := keeps_State_setB hP (keeps_State_setBead hP (keeps_State_setReg64 hP
    (keeps_State_setReg hP (keeps_State_setReg hP (keeps_State_setHold hP h_s)))))
  clear_value s5
  exact keeps_State_beadQuiet hP (keeps_State_placeRun hP (keeps_ite (keeps_State_setLstate hP h5)
    (keeps_ite (keeps_State_setLstate hP h5) h5)))

theorem keeps_execBeadAckRx {P : State → Prop} (hP : K0 P) {src m s} (h_s : P s) :
    OutP P ((execBeadAckRx src m s)) := by
  unfold execBeadAckRx
  repeat' (first
    | with_reducible assumption
    | with_reducible apply keeps_State_beadQuiet
    | with_reducible apply keeps_State_leaseLapse
    | with_reducible apply keeps_State_ackTake
    | with_reducible apply keeps_State_set
    | with_reducible apply keeps_State_setBead
    | with_reducible apply keeps_State_incSat
    | with_reducible apply keeps_State_renewTransmit
    | with_reducible apply OutP.next
    | (extract_lets +onlyGivenNames x; (have hx : P x := ?_); clear_value x; revert x; intro y hy; rotate_left; unfold x; clear x)
    | (extract_lets +onlyGivenNames x; clear_value x; revert x; intro y)
    | with_reducible apply keeps_ite
    | with_reducible apply outP_ite
    | split)

theorem keeps_State_lapseEnd {P : State → Prop} (hP : K0 P) {s} (h_s : P s) :
    P (State.lapseEnd s) := by
  unfold State.lapseEnd
  repeat' (first
    | with_reducible assumption
    | with_reducible apply keeps_State_setHold
    | with_reducible apply keeps_State_setLstate)

theorem keeps_execNoticeRx {P : State → Prop} (hP : K0 P) {reason s} (h_s : P s) :
    OutP P ((execNoticeRx reason s)) := by
  unfold execNoticeRx
  repeat' (first
    | with_reducible assumption
    | with_reducible apply keeps_State_lapseEnd
    | with_reducible apply OutP.next
    | with_reducible apply keeps_ite)

theorem keeps_execRampStart {P : State → Prop} (hP : K0 P) {s} (h_s : P s) :
    OutP P ((execRampStart s)) := by
  unfold execRampStart
  repeat' (first
    | with_reducible assumption
    | with_reducible apply keeps_State_setLstate
    | with_reducible apply keeps_State_setBead
    | with_reducible apply keeps_State_placeRun
    | with_reducible apply OutP.next
    | (extract_lets +onlyGivenNames x; clear_value x; revert x; intro y)
    | with_reducible apply outP_ite)

theorem keeps_execRampTick {P : State → Prop} (hP : K0 P) {s} (h_s : P s) :
    OutP P ((execRampTick s)) := by
  unfold execRampTick
  repeat' (first
    | with_reducible assumption
    | with_reducible apply keeps_State_placeRun
    | with_reducible apply OutP.next
    | with_reducible apply keeps_ite)

theorem keeps_execLeaseLapse {P : State → Prop} (hP : K0 P) {s} (h_s : P s) :
    OutP P ((execLeaseLapse s)) := by
  unfold execLeaseLapse
  repeat' (first
    | with_reducible assumption
    | with_reducible apply keeps_State_leaseLapse
    | with_reducible apply OutP.next
    | with_reducible apply keeps_ite)

theorem keeps_execLapseTimeout {P : State → Prop} (hP : K0 P) {s} (h_s : P s) :
    OutP P ((execLapseTimeout s)) := by
  unfold execLapseTimeout
  repeat' (first
    | with_reducible assumption
    | with_reducible apply keeps_State_lapseEnd
    | with_reducible apply OutP.next
    | with_reducible apply keeps_ite)

theorem keeps_State_agentHandover {P : State → Prop} (hP : K0 P) {s} (h_s : P s) :
    P (State.agentHandover s) := by
  unfold State.agentHandover
  repeat' (first
    | with_reducible assumption
    | with_reducible apply keeps_State_setBead
    | (extract_lets +onlyGivenNames x; clear_value x; revert x; intro y)
    | with_reducible apply keeps_ite)

theorem keeps_State_homeDiscard {P : State → Prop} (hP : K0 P) {s} (h_s : P s) :
    P (State.homeDiscard s) := by
  unfold State.homeDiscard
  repeat' (first
    | with_reducible assumption
    | with_reducible apply keeps_State_setHome
    | with_reducible apply keeps_State_cmdEnd
    | with_reducible apply keeps_ite)

theorem keeps_State_takeover {P : State → Prop} (hP : K0 P) {s solo} (h_s : P s) :
    P (State.takeover s solo) := by
  unfold State.takeover
  repeat' (first
    | with_reducible assumption
    | with_reducible apply keeps_State_setRole
    | with_reducible apply keeps_State_homeTargets
    | with_reducible apply keeps_State_incSat
    | with_reducible apply keeps_State_setB
    | with_reducible apply keeps_State_set
    | with_reducible apply keeps_State_homeDiscard)

theorem keeps_State_homeLost {P : State → Prop} (hP : K0 P) {s} (h_s : P s) :
    P (State.homeLost s) := by
  unfold State.homeLost
  repeat' (first
    | with_reducible assumption
    | with_reducible apply keeps_State_homeDiscard
    | with_reducible apply keeps_State_set
    | with_reducible apply keeps_State_setRole
    | with_reducible apply keeps_State_setHome
    | (extract_lets +onlyGivenNames x; clear_value x; revert x; intro y)
    | with_reducible apply keeps_ite)

theorem keeps_State_homeReachChanged {P : State → Prop} (hP : K0 P) {s} (h_s : P s) :
    P (State.homeReachChanged s) := by
  unfold State.homeReachChanged
  repeat' (first
    | with_reducible assumption
    | with_reducible apply keeps_State_homeLost
    | with_reducible apply keeps_ite)

theorem keeps_State_seeEpoch {P : State → Prop} (hP : K0 P) {s h} (h_s : P s) :
    P (State.seeEpoch s h) := by
  unfold State.seeEpoch
  repeat' (first
    | with_reducible assumption
    | with_reducible apply keeps_State_setRole
    | with_reducible apply keeps_State_toPeer
    | with_reducible apply keeps_State_setHome
    | with_reducible apply keeps_State_set
    | with_reducible apply keeps_State_homeDiscard
    | (extract_lets +onlyGivenNames x; (have hx : P x := ?_); clear_value x; revert x; intro y hy; rotate_left; unfold x; clear x)
    | (extract_lets +onlyGivenNames x; clear_value x; revert x; intro y)
    | with_reducible apply keeps_ite)

theorem keeps_execRenewRx {P : State → Prop} (hP : K0 P) {src m s} (h_s : P s) :
    OutP P ((execRenewRx src m s)) := by
  unfold execRenewRx
  extract_lets d l now exp reply refuse e fresh
  have hr : ∀ a b, P (refuse a b) := fun a b => keeps_State_sendAck hP h_s
  clear_value refuse e
  refine outP_ite (OutP.next (hr _ _)) (outP_ite (outP_ite (OutP.next (hr _ _)) ?_) ?_)
  · cases e with
    | some o => exact outP_ite (OutP.next (hr _ _)) (OutP.next (keeps_State_homeStep hP h_s))
    | none => exact OutP.next (keeps_State_homeStep hP h_s)
  · cases e with
    | none => exact OutP.next (hr _ _)
    | some o =>
      refine outP_ite (OutP.next (hr _ _)) (outP_ite ?_ (outP_ite ?_ ?_))
      all_goals exact OutP.next (keeps_State_homeStep hP h_s)

theorem keeps_State_homeCmd {P : State → Prop} (hP : K0 P) {s w op} (h_s : P s) :
    P (State.homeCmd s w op) := by
  unfold State.homeCmd
  repeat' (first
    | with_reducible assumption
    | with_reducible apply keeps_State_homeCmdWrite
    | with_reducible apply keeps_State_actionWrite
    | with_reducible apply keeps_finish
    | with_reducible intro _)

theorem keeps_execMint {P : State → Prop} (hP : K0 P) {w s} (h_s : P s) :
    OutP P ((execMint w s)) := by
  unfold execMint
  repeat' (first
    | with_reducible assumption
    | with_reducible apply keeps_State_homeCmd
    | with_reducible apply OutP.next)

theorem keeps_execRetire {P : State → Prop} (hP : K0 P) {w s} (h_s : P s) :
    OutP P ((execRetire w s)) := by
  unfold execRetire
  repeat' (first
    | with_reducible assumption
    | with_reducible apply keeps_State_homeCmd
    | with_reducible apply OutP.next)

theorem keeps_execCancelRetire {P : State → Prop} (hP : K0 P) {w s} (h_s : P s) :
    OutP P ((execCancelRetire w s)) := by
  unfold execCancelRetire
  repeat' (first
    | with_reducible assumption
    | with_reducible apply keeps_State_homeCmd
    | with_reducible apply OutP.next)

theorem keeps_execReconcile {P : State → Prop} (hP : K0 P) {w s} (h_s : P s) :
    OutP P ((execReconcile w s)) := by
  unfold execReconcile
  repeat' (first
    | with_reducible assumption
    | with_reducible apply keeps_State_homeCmd
    | with_reducible apply OutP.next)

theorem keeps_execLedgerTick {P : State → Prop} (hP : K0 P) {s} (h_s : P s) :
    OutP P ((execLedgerTick s)) := by
  unfold execLedgerTick
  repeat' (first
    | with_reducible assumption
    | with_reducible apply keeps_State_homeStep
    | with_reducible apply OutP.next
    | (extract_lets +onlyGivenNames x; clear_value x; revert x; intro y)
    | with_reducible apply outP_ite)

theorem keeps_execTargetRecompute {P : State → Prop} (hP : K0 P) {s} (h_s : P s) :
    OutP P ((execTargetRecompute s)) := by
  unfold execTargetRecompute
  repeat' (first
    | with_reducible assumption
    | with_reducible apply keeps_State_homeTargets
    | with_reducible apply OutP.next
    | with_reducible apply keeps_ite)

theorem keeps_State_freeze {P : State → Prop} (hP : K0 P) {s} (h_s : P s) :
    P (State.freeze s) := by
  unfold State.freeze
  repeat' (first
    | with_reducible assumption
    | with_reducible apply keeps_State_set
    | with_reducible apply keeps_State_ev
    | with_reducible apply keeps_ite)

theorem keeps_State_digestCheck {P : State → Prop} (hP : K0 P) {s} (h_s : P s) :
    P (State.digestCheck s) := by
  unfold State.digestCheck
  repeat' (first
    | with_reducible assumption
    | with_reducible apply keeps_State_freeze
    | with_reducible apply keeps_State_setHome
    | (extract_lets +onlyGivenNames x; (have hx : P x := ?_); clear_value x; revert x; intro y hy; rotate_left; unfold x; clear x)
    | (extract_lets +onlyGivenNames x; clear_value x; revert x; intro y)
    | with_reducible apply keeps_ite
    | split)

theorem keeps_execReplRx {P : State → Prop} (hP : K0 P) {hepoch lseq st s} (h_s : P s) :
    OutP P ((execReplRx hepoch lseq st s)) := by
  unfold execReplRx
  repeat' (first
    | with_reducible assumption
    | with_reducible apply keeps_State_setHome
    | with_reducible apply keeps_State_digestCheck
    | with_reducible apply keeps_State_toPeer
    | with_reducible apply keeps_State_seeEpoch
    | with_reducible apply OutP.next
    | (extract_lets +onlyGivenNames x; (have hx : P x := ?_); clear_value x; revert x; intro y hy; rotate_left; unfold x; clear x)
    | (extract_lets +onlyGivenNames x; clear_value x; revert x; intro y)
    | with_reducible apply outP_ite)

theorem keeps_State_copyOut {P : State → Prop} (hP : K0 P) {s} (h_s : P s) :
    P (State.copyOut s) := by
  unfold State.copyOut
  repeat' (first
    | with_reducible assumption
    | with_reducible apply keeps_State_toPeer
    | with_reducible apply keeps_foldl
    | with_reducible intro _)

theorem keeps_State_resend {P : State → Prop} (hP : K0 P) {s lseq} (h_s : P s) :
    P (State.resend s lseq) := by
  unfold State.resend
  repeat' (first
    | with_reducible assumption
    | with_reducible apply keeps_State_copyOut
    | with_reducible apply keeps_State_toPeer
    | with_reducible apply keeps_foldl
    | with_reducible intro _
    | (extract_lets +onlyGivenNames x; clear_value x; revert x; intro y)
    | with_reducible apply keeps_ite)

theorem keeps_execReplAckRx {P : State → Prop} (hP : K0 P) {hepoch lseq want s} (h_s : P s) :
    OutP P ((execReplAckRx hepoch lseq want s)) := by
  unfold execReplAckRx
  repeat' (first
    | with_reducible assumption
    | with_reducible apply keeps_State_homeCommit
    | with_reducible apply keeps_State_digestCheck
    | with_reducible apply keeps_State_setHome
    | with_reducible apply keeps_State_resend
    | with_reducible apply keeps_State_copyOut
    | with_reducible apply keeps_State_seeEpoch
    | with_reducible apply OutP.next
    | (extract_lets +onlyGivenNames x; (have hx : P x := ?_); clear_value x; revert x; intro y hy; rotate_left; unfold x; clear x)
    | (extract_lets +onlyGivenNames x; clear_value x; revert x; intro y)
    | with_reducible apply keeps_ite
    | split)

theorem keeps_execHomeHbTx {P : State → Prop} (hP : K0 P) {digest s} (h_s : P s) :
    OutP P ((execHomeHbTx digest s)) := by
  unfold execHomeHbTx
  repeat' (first
    | with_reducible assumption
    | with_reducible apply keeps_State_toPeer
    | with_reducible apply keeps_State_setHome
    | with_reducible apply keeps_State_homeRoles
    | with_reducible apply OutP.next
    | (extract_lets +onlyGivenNames x; (have hx : P x := ?_); clear_value x; revert x; intro y hy; rotate_left; unfold x; clear x)
    | (extract_lets +onlyGivenNames x; clear_value x; revert x; intro y)
    | with_reducible apply keeps_ite
    | with_reducible apply outP_ite)

theorem keeps_State_peerBack {P : State → Prop} (hP : K0 P) {s hepoch} (h_s : P s) :
    P (State.peerBack s hepoch) := by
  unfold State.peerBack
  repeat' (first
    | with_reducible assumption
    | with_reducible apply keeps_State_setRole
    | with_reducible apply keeps_State_homeTargets
    | with_reducible apply keeps_ite)

theorem keeps_execHomeHbRx {P : State → Prop} (hP : K0 P) {hepoch lseq digest eccOk s} (h_s : P s) :
    OutP P ((execHomeHbRx hepoch lseq digest eccOk s)) := by
  unfold execHomeHbRx
  repeat' (first
    | with_reducible assumption
    | with_reducible apply keeps_State_setHome
    | with_reducible apply keeps_State_digestCheck
    | with_reducible apply keeps_State_toPeer
    | with_reducible apply keeps_State_takeover
    | with_reducible apply keeps_State_homeRoles
    | with_reducible apply keeps_State_peerBack
    | with_reducible apply keeps_State_seeEpoch
    | with_reducible apply keeps_State_set
    | with_reducible apply OutP.next
    | (extract_lets +onlyGivenNames x; (have hx : P x := ?_); clear_value x; revert x; intro y hy; rotate_left; unfold x; clear x)
    | (extract_lets +onlyGivenNames x; clear_value x; revert x; intro y)
    | with_reducible apply keeps_ite
    | with_reducible apply outP_ite
    | split)

theorem keeps_execLedgerCopyRx {P : State → Prop} (hP : K0 P) {hepoch l s} (h_s : P s) :
    OutP P ((execLedgerCopyRx hepoch l s)) := by
  unfold execLedgerCopyRx
  repeat' (first
    | with_reducible assumption
    | with_reducible apply keeps_State_homeCommit
    | with_reducible apply keeps_State_set
    | with_reducible apply keeps_State_toPeer
    | with_reducible apply keeps_State_setHome
    | with_reducible apply keeps_State_seeEpoch
    | with_reducible apply OutP.next
    | (extract_lets +onlyGivenNames x; (have hx : P x := ?_); clear_value x; revert x; intro y hy; rotate_left; unfold x; clear x)
    | (extract_lets +onlyGivenNames x; clear_value x; revert x; intro y)
    | with_reducible apply keeps_ite
    | with_reducible apply outP_ite)

theorem keeps_execPeerSilent {P : State → Prop} (hP : K0 P) {s} (h_s : P s) :
    OutP P ((execPeerSilent s)) := by
  unfold execPeerSilent
  repeat' (first
    | with_reducible assumption
    | with_reducible apply keeps_State_takeover
    | with_reducible apply keeps_State_homeCommit
    | with_reducible apply keeps_State_homeLost
    | with_reducible apply keeps_State_set
    | with_reducible apply OutP.next
    | (extract_lets +onlyGivenNames x; (have hx : P x := ?_); clear_value x; revert x; intro y hy; rotate_left; unfold x; clear x)
    | with_reducible apply outP_ite)

end Sys2Proof.Machine
end

