-- ==== Sys2Proof/Laws/KReckCore.lean ====
section
/-! SUPPORT. What the operations of Machine.ReckCore keep. -/

namespace Sys2Proof.Machine

open Host (Outcome)

theorem keeps_State_reckDisable {P : State → Prop} (hP : K0 P) {s k} (h_s : P s) :
    P (State.reckDisable s k) := by
  unfold State.reckDisable
  repeat' (first
    | with_reducible assumption
    | with_reducible apply keeps_State_set
    | (extract_lets +onlyGivenNames x; (have hx : P x := ?_); clear_value x; revert x; intro y hy; rotate_left; unfold x; clear x)
    | (extract_lets +onlyGivenNames x; clear_value x; revert x; intro y)
    | with_reducible apply keeps_ite)

theorem keeps_State_setVsm {P : State → Prop} (hP : K0 P) {s k x} (h_s : P s) :
    P (State.setVsm s k x) := by
  unfold State.setVsm
  repeat' (first
    | with_reducible assumption
    | fail_if_no_progress with_reducible refine hP.upd ?_)

theorem keeps_State_setRkSt {P : State → Prop} (hP : K0 P) {s k st} (h_s : P s) :
    P (State.setRkSt s k st) := by
  unfold State.setRkSt
  repeat' (first
    | with_reducible assumption
    | with_reducible apply keeps_State_set)

theorem keeps_State_showCols {P : State → Prop} (hP : K0 P) {s k} (h_s : P s) :
    P (State.showCols s k) := by
  unfold State.showCols
  repeat' (first
    | with_reducible assumption
    | with_reducible apply keeps_State_set)

theorem keeps_State_setReckX {P : State → Prop} (hP : K0 P) {s k x} (h_s : P s) :
    P (State.setReckX s k x) := by
  unfold State.setReckX
  repeat' (first
    | with_reducible assumption
    | fail_if_no_progress with_reducible refine hP.upd ?_)

theorem keeps_State_reckStart {P : State → Prop} (hP : K0 P) {s k} (h_s : P s) :
    P (State.reckStart s k) := by
  unfold State.reckStart
  repeat' (first
    | with_reducible assumption
    | with_reducible apply keeps_State_setVsm
    | with_reducible apply keeps_State_setRkSt
    | with_reducible apply keeps_State_showCols
    | with_reducible apply keeps_State_set
    | with_reducible apply keeps_State_setReckX
    | (extract_lets +onlyGivenNames x; (have hx : P x := ?_); clear_value x; revert x; intro y hy; rotate_left; unfold x; clear x)
    | (extract_lets +onlyGivenNames x; clear_value x; revert x; intro y)
    | with_reducible apply keeps_ite)

theorem keeps_State_reckEnable {P : State → Prop} (hP : K0 P) {s k} (h_s : P s) :
    P ((State.reckEnable s k)).1 := by
  unfold State.reckEnable
  repeat' (first
    | with_reducible assumption
    | with_reducible apply keeps_State_reckStart
    | with_reducible apply keeps_State_set
    | with_reducible apply keeps_refuse
    | (extract_lets +onlyGivenNames x; (have hx : P x := ?_); clear_value x; revert x; intro y hy; rotate_left; unfold x; clear x)
    | (extract_lets +onlyGivenNames x; clear_value x; revert x; intro y)
    | with_reducible apply keeps_ite1
    | dsimp -zeta only
    | fail_if_no_progress with_reducible refine hP.upd ?_)

theorem keeps_State_eccCorrected {P : State → Prop} (hP : K0 P) {s k d} (h_s : P s) :
    P (State.eccCorrected s k d) := by
  unfold State.eccCorrected
  repeat' (first
    | with_reducible assumption
    | with_reducible apply keeps_State_incF)

theorem keeps_State_setReckWord {P : State → Prop} (hP : K0 P) {s k i v} (h_s : P s) :
    P (State.setReckWord s k i v) := by
  unfold State.setReckWord
  repeat' (first
    | with_reducible assumption
    | with_reducible apply keeps_State_setVsm
    | with_reducible apply keeps_ite
    | fail_if_no_progress with_reducible refine hP.upd ?_)

theorem keeps_State_memData {P : State → Prop} (hP : K0 P) {s k wr e} (h_s : P s) :
    P ((State.memData s k wr e)).1 := by
  unfold State.memData
  repeat' (first
    | with_reducible assumption
    | with_reducible apply keeps_State_eccCorrected
    | with_reducible apply keeps_State_err
    | with_reducible apply keeps_State_setReckWord
    | with_reducible apply keeps_refuse
    | with_reducible apply keeps_State_set
    | with_reducible intro _
    | with_reducible apply hf0
    | (extract_lets +onlyGivenNames x; (have hx : ∀ a, P a → P (x a) := ?_); clear_value x; revert x; intro y hf0; rotate_left; unfold x; clear x)
    | (extract_lets +onlyGivenNames x; (have hx : P x.1 := ?_); clear_value x; revert x; intro y hy; rotate_left; unfold x; clear x)
    | (extract_lets +onlyGivenNames x; clear_value x; revert x; intro y)
    | with_reducible apply keeps_ite1
    | split)

theorem keeps_State_reckEvent {P : State → Prop} (hP : K0 P) {s k i} (h_s : P s) :
    P (State.reckEvent s k i) := by
  unfold State.reckEvent
  repeat' (first
    | with_reducible assumption
    | with_reducible apply keeps_State_incSat
    | with_reducible apply keeps_State_err
    | with_reducible apply keeps_State_ev
    | with_reducible apply keeps_State_setReckX
    | (extract_lets +onlyGivenNames x; (have hx : P x := ?_); clear_value x; revert x; intro y hy; rotate_left; unfold x; clear x)
    | (extract_lets +onlyGivenNames x; clear_value x; revert x; intro y)
    | with_reducible apply keeps_ite)

theorem keeps_State_swtrig {P : State → Prop} (hP : K0 P) {s k v} (h_s : P s) :
    P (State.swtrig s k v) := by
  unfold State.swtrig
  repeat' (first
    | with_reducible assumption
    | with_reducible apply keeps_State_reckEvent
    | with_reducible apply keeps_foldl
    | with_reducible intro _
    | with_reducible apply keeps_ite)

theorem keeps_State_reckClrFatal {P : State → Prop} (hP : K0 P) {s k} (h_s : P s) :
    P (State.reckClrFatal s k) := by
  unfold State.reckClrFatal
  repeat' (first
    | with_reducible assumption
    | with_reducible apply keeps_State_setReg
    | with_reducible apply keeps_State_setRkSt
    | with_reducible apply keeps_ite)

theorem keeps_State_reckRegWrite {P : State → Prop} (hP : K0 P) {s k off v} (h_s : P s) :
    OptP (fun r => P (r).1) ((State.reckRegWrite s k off v)) := by
  unfold State.reckRegWrite
  repeat' (first
    | with_reducible assumption
    | with_reducible apply keeps_State_setReckX
    | with_reducible apply keeps_State_memData
    | with_reducible apply keeps_State_swtrig
    | with_reducible apply keeps_refuse
    | with_reducible apply keeps_State_setReg
    | with_reducible apply keeps_State_reckClrFatal
    | with_reducible exact OptP.none
    | with_reducible apply OptP.some
    | (extract_lets +onlyGivenNames x; (have hx : P x.1 := ?_); clear_value x; revert x; intro y hy; rotate_left; unfold x; clear x)
    | (extract_lets +onlyGivenNames x; clear_value x; revert x; intro y)
    | with_reducible apply keeps_ite
    | with_reducible apply keeps_ite1
    | with_reducible apply optP_ite)

theorem keeps_State_reckRegRead {P : State → Prop} (hP : K0 P) {s k off} (h_s : P s) :
    OptP (fun r => P (r).1) ((State.reckRegRead s k off)) := by
  unfold State.reckRegRead
  repeat' (first
    | with_reducible assumption
    | with_reducible apply keeps_State_memData
    | with_reducible exact OptP.none
    | with_reducible apply OptP.some
    | (extract_lets +onlyGivenNames x; (have hx : P x.1 := ?_); clear_value x; revert x; intro y hy; rotate_left; unfold x; clear x)
    | (extract_lets +onlyGivenNames x; clear_value x; revert x; intro y)
    | with_reducible apply optP_ite)

theorem keeps_State_reckFatal {P : State → Prop} (hP : K0 P) {s k code} (h_s : P s) :
    P (State.reckFatal s k code) := by
  unfold State.reckFatal
  repeat' (first
    | with_reducible assumption
    | with_reducible apply keeps_State_ownerLost
    | with_reducible apply keeps_State_demandNow
    | with_reducible apply keeps_State_ev
    | with_reducible apply keeps_State_setRkSt
    | with_reducible apply keeps_State_set
    | with_reducible apply keeps_State_setReg
    | with_reducible apply keeps_State_setReckX
    | with_reducible apply keeps_ite)

theorem keeps_State_reckTrap {P : State → Prop} (hP : K0 P) {s k cause tpc} (h_s : P s) :
    P (State.reckTrap s k cause tpc) := by
  unfold State.reckTrap
  repeat' (first
    | with_reducible assumption
    | with_reducible apply keeps_State_setRkSt
    | with_reducible apply keeps_State_showCols
    | with_reducible apply keeps_State_ev
    | with_reducible apply keeps_State_setReg
    | with_reducible apply keeps_State_setReckX
    | with_reducible apply keeps_State_reckFatal
    | (extract_lets +onlyGivenNames x; (have hx : P x := ?_); clear_value x; revert x; intro y hy; rotate_left; unfold x; clear x)
    | (extract_lets +onlyGivenNames x; clear_value x; revert x; intro y)
    | with_reducible apply keeps_ite)

theorem keeps_State_trapHere {P : State → Prop} (hP : K0 P) {s k cause} (h_s : P s) :
    P (State.trapHere s k cause) := by
  unfold State.trapHere
  repeat' (first
    | with_reducible assumption
    | with_reducible apply keeps_State_reckTrap)

theorem keeps_State_busyEnd {P : State → Prop} (hP : K0 P) {s k} (h_s : P s) :
    P (State.busyEnd s k) := by
  unfold State.busyEnd
  repeat' (first
    | with_reducible assumption
    | with_reducible apply keeps_State_setReg
    | with_reducible apply keeps_State_free
    | (extract_lets +onlyGivenNames x; (have hx : P x := ?_); clear_value x; revert x; intro y hy; rotate_left; unfold x; clear x)
    | (extract_lets +onlyGivenNames x; (have hx : P x.2 := ?_); clear_value x; revert x; intro y hy; rotate_left; unfold x; clear x)
    | (extract_lets +onlyGivenNames x; clear_value x; revert x; intro y)
    | with_reducible apply keeps_ite)

theorem keeps_State_waitTake {P : State → Prop} (hP : K0 P) {s k i} (h_s : P s) :
    P (State.waitTake s k i) := by
  unfold State.waitTake
  repeat' (first
    | with_reducible assumption
    | with_reducible apply keeps_State_setRkSt
    | with_reducible apply keeps_State_inc
    | with_reducible apply keeps_State_set
    | with_reducible apply keeps_State_setReckX)

theorem keeps_State_reckStopped {P : State → Prop} (hP : K0 P) {s k} (h_s : P s) :
    P (State.reckStopped s k) := by
  unfold State.reckStopped
  repeat' (first
    | with_reducible assumption
    | with_reducible apply keeps_State_set
    | with_reducible apply keeps_State_ev
    | with_reducible apply keeps_State_setRkSt
    | with_reducible apply keeps_State_setReckX
    | (extract_lets +onlyGivenNames x; (have hx : P x := ?_); clear_value x; revert x; intro y hy; rotate_left; unfold x; clear x)
    | (extract_lets +onlyGivenNames x; clear_value x; revert x; intro y)
    | with_reducible apply keeps_ite)

theorem keeps_State_fillRead {P : State → Prop} (hP : K0 P) {s k} (h_s : P s) :
    P (State.fillRead s k) := by
  unfold State.fillRead
  repeat' (first
    | with_reducible assumption
    | with_reducible apply keeps_State_setReckX
    | with_reducible apply keeps_State_setRkSt
    | with_reducible apply keeps_State_showCols
    | with_reducible apply keeps_State_reckFatal
    | (extract_lets +onlyGivenNames x; clear_value x; revert x; intro y)
    | with_reducible apply keeps_ite)

theorem keeps_State_spillWrite {P : State → Prop} (hP : K0 P) {s k} (h_s : P s) :
    P (State.spillWrite s k) := by
  unfold State.spillWrite
  repeat' (first
    | with_reducible assumption
    | with_reducible apply keeps_State_setReckX
    | with_reducible apply keeps_State_setReckWord
    | with_reducible apply keeps_foldl
    | with_reducible intro _)

theorem keeps_State_callEnter {P : State → Prop} (hP : K0 P) {s k target} (h_s : P s) :
    P (State.callEnter s k target) := by
  unfold State.callEnter
  repeat' (first
    | with_reducible assumption
    | with_reducible apply keeps_State_setReckX
    | with_reducible apply keeps_State_showCols)

theorem keeps_State_spillDone {P : State → Prop} (hP : K0 P) {s k} (h_s : P s) :
    P (State.spillDone s k) := by
  unfold State.spillDone
  repeat' (first
    | with_reducible assumption
    | with_reducible apply keeps_State_fillRead
    | with_reducible apply keeps_State_spillWrite
    | with_reducible apply keeps_State_callEnter
    | with_reducible apply keeps_State_setRkSt
    | split)

theorem keeps_State_reckStop {P : State → Prop} (hP : K0 P) {s k} (h_s : P s) :
    P (State.reckStop s k) := by
  unfold State.reckStop
  repeat' (first
    | with_reducible assumption
    | with_reducible apply keeps_State_reckStopped
    | with_reducible apply keeps_State_spillDone
    | (extract_lets +onlyGivenNames x; (have hx : P x := ?_); clear_value x; revert x; intro y hy; rotate_left; unfold x; clear x)
    | with_reducible apply keeps_ite)

theorem keeps_State_reckRest {P : State → Prop} (hP : K0 P) {s k} (h_s : P s) :
    P (State.reckRest s k) := by
  unfold State.reckRest
  repeat' (first
    | with_reducible assumption
    | with_reducible apply keeps_State_set
    | with_reducible apply keeps_State_reckStop
    | with_reducible apply keeps_ite)

theorem keeps_State_finishI {P : State → Prop} (hP : K0 P) {s k r} (h_s : P s) :
    P (State.finishI s k r) := by
  unfold State.finishI
  repeat' (first
    | with_reducible assumption
    | with_reducible apply keeps_State_setReckX
    | with_reducible apply keeps_State_trapHere
    | (extract_lets +onlyGivenNames x; clear_value x; revert x; intro y)
    | split)

theorem keeps_State_dramEcc {P : State → Prop} (hP : K0 P) {s k e f} (h_s : P s) (h_f : ∀ (x0 : Sys2Proof.Machine.State), P x0 → P (f x0)) :
    P (State.dramEcc s k e f) := by
  unfold State.dramEcc
  repeat' (first
    | with_reducible assumption
    | with_reducible apply h_f
    | with_reducible apply keeps_State_reckFatal
    | with_reducible apply keeps_State_eccCorrected
    | split)

theorem keeps_State_lbistFatal {P : State → Prop} (hP : K0 P) {s k} (h_s : P s) :
    P (State.lbistFatal s k) := by
  unfold State.lbistFatal
  repeat' (first
    | with_reducible assumption
    | with_reducible apply keeps_State_reckFatal
    | (extract_lets +onlyGivenNames x; clear_value x; revert x; intro y)
    | fail_if_no_progress with_reducible refine hP.upd ?_)

theorem keeps_State_instr {P : State → Prop} (hP : K0 P) {s k op fn legal body} (h_s : P s) (h_body : ∀ (x0 : Sys2Proof.Machine.State) (x1 : ℕ), P x0 → P (body x0 x1)) :
    P (State.instr s k op fn legal body) := by
  unfold State.instr
  repeat' (first
    | with_reducible assumption
    | with_reducible apply h_body
    | with_reducible apply keeps_State_trapHere
    | with_reducible apply keeps_State_lbistFatal
    | (extract_lets +onlyGivenNames x; clear_value x; revert x; intro y)
    | with_reducible apply keeps_ite)

theorem keeps_State_loadKernel {P : State → Prop} (hP : K0 P) {s k} (h_s : P s) :
    P (State.loadKernel s k) := by
  unfold State.loadKernel
  repeat' (first
    | with_reducible assumption
    | (extract_lets +onlyGivenNames x; clear_value x; revert x; intro y)
    | fail_if_no_progress with_reducible refine hP.upd ?_)

theorem keeps_State_reckUnrest {P : State → Prop} (hP : K0 P) {s k} (h_s : P s) :
    P (State.reckUnrest s k) := by
  unfold State.reckUnrest
  repeat' (first
    | with_reducible assumption
    | with_reducible apply keeps_State_reckStart
    | with_reducible apply keeps_State_set
    | with_reducible apply keeps_ite)

theorem keeps_State_reckRet {P : State → Prop} (hP : K0 P) {s k} (h_s : P s) :
    P (State.reckRet s k) := by
  unfold State.reckRet
  repeat' (first
    | with_reducible assumption
    | with_reducible apply keeps_State_trapHere
    | with_reducible apply keeps_State_setReckX
    | with_reducible apply keeps_State_setRkSt
    | with_reducible apply keeps_State_showCols
    | (extract_lets +onlyGivenNames x; clear_value x; revert x; intro y)
    | with_reducible apply keeps_ite)

theorem keeps_State_reckCall {P : State → Prop} (hP : K0 P) {s k target} (h_s : P s) :
    P (State.reckCall s k target) := by
  unfold State.reckCall
  repeat' (first
    | with_reducible assumption
    | with_reducible apply keeps_State_callEnter
    | with_reducible apply keeps_State_setReckX
    | with_reducible apply keeps_State_setRkSt
    | with_reducible apply keeps_State_reckFatal
    | with_reducible apply keeps_State_trapHere
    | (extract_lets +onlyGivenNames x; clear_value x; revert x; intro y)
    | with_reducible apply keeps_ite)

theorem keeps_State_iInstr {P : State → Prop} (hP : K0 P) {s k op f} (h_s : P s) :
    P (State.iInstr s k op f) := by
  unfold State.iInstr
  repeat' (first
    | with_reducible assumption
    | with_reducible apply keeps_State_finishI
    | with_reducible apply keeps_State_instr
    | with_reducible intro _)

theorem keeps_State_rInstr {P : State → Prop} (hP : K0 P) {s k op fn f} (h_s : P s) :
    P (State.rInstr s k op fn f) := by
  unfold State.rInstr
  repeat' (first
    | with_reducible assumption
    | with_reducible apply keeps_State_finishI
    | with_reducible apply keeps_State_instr
    | with_reducible intro _)

theorem keeps_execSpillComplete {P : State → Prop} (hP : K0 P) {k ecc s} (h_s : P s) :
    OutP P ((execSpillComplete k ecc s)) := by
  unfold execSpillComplete
  repeat' (first
    | with_reducible assumption
    | with_reducible apply keeps_State_spillDone
    | with_reducible apply keeps_State_dramEcc
    | with_reducible apply OutP.next
    | with_reducible intro _
    | with_reducible apply outP_ite)

theorem keeps_execReckTriggerEvent {P : State → Prop} (hP : K0 P) {k i s} (h_s : P s) :
    OutP P ((execReckTriggerEvent k i s)) := by
  unfold execReckTriggerEvent
  repeat' (first
    | with_reducible assumption
    | with_reducible apply keeps_State_reckEvent
    | with_reducible apply OutP.next
    | with_reducible apply keeps_ite)

theorem keeps_execReckSwtrig {P : State → Prop} (hP : K0 P) {w k v s} (h_s : P s) :
    OutP P ((execReckSwtrig w k v s)) := by
  unfold execReckSwtrig
  repeat' (first
    | with_reducible assumption
    | with_reducible apply keeps_State_swtrig
    | with_reducible apply keeps_State_actionWrite
    | with_reducible apply keeps_finish
    | with_reducible apply OutP.next
    | with_reducible intro _)

theorem keeps_execMemDataAccess {P : State → Prop} (hP : K0 P) {w k wr ecc s} (h_s : P s) :
    OutP P ((execMemDataAccess w k wr ecc s)) := by
  unfold execMemDataAccess
  repeat' (first
    | with_reducible assumption
    | with_reducible apply keeps_State_restAccess
    | with_reducible apply keeps_State_send
    | with_reducible apply keeps_State_answer
    | with_reducible apply keeps_State_memData
    | with_reducible apply keeps_State_actionWrite
    | with_reducible apply keeps_finish
    | with_reducible apply OutP.next
    | with_reducible intro _
    | (extract_lets +onlyGivenNames x; (have hx : P x.1 := ?_); clear_value x; revert x; intro y hy; rotate_left; unfold x; clear x)
    | (extract_lets +onlyGivenNames x; clear_value x; revert x; intro y)
    | with_reducible apply keeps_ite
    | with_reducible apply outP_ite
    | split)

theorem keeps_execClrFatal {P : State → Prop} (hP : K0 P) {w k s} (h_s : P s) :
    OutP P ((execClrFatal w k s)) := by
  unfold execClrFatal
  repeat' (first
    | with_reducible assumption
    | with_reducible apply keeps_State_reckClrFatal
    | with_reducible apply keeps_State_actionWrite
    | with_reducible apply keeps_finish
    | with_reducible apply OutP.next
    | with_reducible intro _)

theorem keeps_execReckStopped {P : State → Prop} (hP : K0 P) {k s} (h_s : P s) :
    OutP P ((execReckStopped k s)) := by
  unfold execReckStopped
  repeat' (first
    | with_reducible assumption
    | with_reducible apply keeps_State_reckStop
    | with_reducible apply OutP.next
    | with_reducible apply keeps_ite)

end Sys2Proof.Machine
end

