-- ==== Sys2Proof/Laws/KGateCore.lean ====
section
/-! SUPPORT. What the operations of Machine.GateCore keep. -/

namespace Sys2Proof.Machine

open Host (Outcome)

theorem keeps_State_setSes {P : State → Prop} (hP : K0 P) {s n x} (h_s : P s) :
    P (State.setSes s n x) := by
  unfold State.setSes
  repeat' (first
    | with_reducible assumption
    | fail_if_no_progress with_reducible refine hP.upd ?_)

theorem keeps_State_tunSend {P : State → Prop} (hP : K0 P) {s dst top m} (h_s : P s) :
    P (State.tunSend s dst top m) := by
  unfold State.tunSend
  repeat' (first
    | with_reducible assumption
    | with_reducible apply keeps_State_fabBytes)

theorem keeps_State_closeSess {P : State → Prop} (hP : K0 P) {s n reason} (h_s : P s) :
    P (State.closeSess s n reason) := by
  unfold State.closeSess
  repeat' (first
    | with_reducible assumption
    | with_reducible apply keeps_State_send
    | with_reducible apply keeps_State_tunSend
    | with_reducible apply keeps_State_ownerLost
    | with_reducible apply keeps_State_ev
    | with_reducible apply keeps_State_setSes
    | with_reducible apply keeps_foldl
    | with_reducible intro _
    | (extract_lets +onlyGivenNames x; (have hx : P x := ?_); clear_value x; revert x; intro y hy; rotate_left; unfold x; clear x)
    | (extract_lets +onlyGivenNames x; clear_value x; revert x; intro y)
    | with_reducible apply keeps_ite)

theorem keeps_State_closeAll {P : State → Prop} (hP : K0 P) {s reason} (h_s : P s) :
    P (State.closeAll s reason) := by
  unfold State.closeAll
  repeat' (first
    | with_reducible assumption
    | with_reducible apply keeps_State_closeSess
    | with_reducible apply keeps_foldl
    | with_reducible intro _)

theorem keeps_State_tunData {P : State → Prop} (hP : K0 P) {s dst top m} (h_s : P s) :
    P (State.tunData s dst top m) := by
  unfold State.tunData
  repeat' (first
    | with_reducible assumption
    | with_reducible apply keeps_State_tunSend
    | with_reducible apply keeps_ite)

theorem keeps_State_setGate {P : State → Prop} (hP : K0 P) {s x} (h_s : P s) :
    P (State.setGate s x) := by
  unfold State.setGate
  repeat' (first
    | with_reducible assumption
    | fail_if_no_progress with_reducible refine hP.upd ?_)

theorem keeps_State_entryLost {P : State → Prop} (hP : K0 P) {s a} (h_s : P s) :
    P (State.entryLost s a) := by
  unfold State.entryLost
  repeat' (first
    | with_reducible assumption
    | with_reducible apply keeps_State_closeSess
    | with_reducible apply keeps_foldl
    | with_reducible intro _
    | with_reducible apply keeps_ite)

end Sys2Proof.Machine
end

