-- ==== Sys2Proof/Laws/KFab.lean ====
section
/-! SUPPORT. What the operations of Machine.Fab keep. -/

namespace Sys2Proof.Machine

open Host (Outcome)

theorem keeps_State_setReach {P : State → Prop} (hP : K0 P) {s a b} (h_s : P s) :
    P (State.setReach s a b) := by
  unfold State.setReach
  repeat' (first
    | with_reducible assumption
    | with_reducible apply keeps_State_setBit
    | with_reducible apply keeps_State_ev
    | with_reducible apply keeps_ite)

theorem keeps_State_lagUpdate {P : State → Prop} (hP : K0 P) {s} (h_s : P s) :
    P (State.lagUpdate s) := by
  unfold State.lagUpdate
  repeat' (first
    | with_reducible assumption
    | with_reducible apply keeps_State_ev
    | with_reducible apply keeps_State_setReg
    | (extract_lets +onlyGivenNames x; (have hx : P x := ?_); clear_value x; revert x; intro y hy; rotate_left; unfold x; clear x)
    | (extract_lets +onlyGivenNames x; clear_value x; revert x; intro y)
    | with_reducible apply keeps_ite)

theorem keeps_State_coordCheck {P : State → Prop} (hP : K0 P) {s} (h_s : P s) :
    P (State.coordCheck s) := by
  unfold State.coordCheck
  repeat' (first
    | with_reducible assumption
    | with_reducible apply keeps_State_set
    | with_reducible apply keeps_State_ev
    | with_reducible apply keeps_State_lagUpdate
    | with_reducible apply keeps_State_pump
    | (extract_lets +onlyGivenNames x; clear_value x; revert x; intro y)
    | with_reducible apply keeps_ite)

theorem keeps_State_rerouteEntry {P : State → Prop} (hP : K0 P) {s l e} (h_s : P s) :
    P ((State.rerouteEntry s l e)).1 := by
  unfold State.rerouteEntry
  repeat' (first
    | with_reducible assumption
    | with_reducible apply keeps_State_unreach
    | with_reducible apply keeps_State_routeVia
    | (extract_lets +onlyGivenNames x; (have hx : P x.1 := ?_); clear_value x; revert x; intro y hy; rotate_left; unfold x; clear x)
    | with_reducible apply keeps_ite1
    | split)

theorem keeps_State_linkLost {P : State → Prop} (hP : K0 P) {s l} (h_s : P s) :
    P (State.linkLost s l) := by
  unfold State.linkLost
  repeat' (first
    | with_reducible assumption
    | with_reducible apply keeps_State_setSrc
    | with_reducible apply keeps_State_setRouter
    | with_reducible apply keeps_State_rerouteEntry
    | with_reducible apply keeps_State_setReg
    | with_reducible apply keeps_State_set
    | with_reducible apply keeps_State_setFab
    | with_reducible apply keeps_State_incF
    | with_reducible apply keeps_foldl
    | with_reducible apply keeps_foldl1
    | with_reducible intro _
    | (extract_lets +onlyGivenNames x; (have hx : P x.1 := ?_); clear_value x; revert x; intro y hy; rotate_left; unfold x; clear x)
    | (extract_lets +onlyGivenNames x; clear_value x; revert x; intro y)
    | with_reducible apply keeps_ite
    | with_reducible apply keeps_ite1)

theorem keeps_State_setFabSt {P : State → Prop} (hP : K0 P) {s l v} (h_s : P s) :
    P (State.setFabSt s l v) := by
  unfold State.setFabSt
  repeat' (first
    | with_reducible assumption
    | with_reducible apply keeps_State_set
    | with_reducible apply keeps_State_ev
    | with_reducible apply keeps_ite)

theorem keeps_State_linkDown {P : State → Prop} (hP : K0 P) {s l} (h_s : P s) :
    P (State.linkDown s l) := by
  unfold State.linkDown
  repeat' (first
    | with_reducible assumption
    | with_reducible apply keeps_State_linkLost
    | with_reducible apply keeps_State_coordCheck
    | with_reducible apply keeps_State_pump
    | with_reducible apply keeps_State_ev
    | with_reducible apply keeps_State_setFabSt
    | with_reducible apply keeps_State_setReg
    | (extract_lets +onlyGivenNames x; (have hx : P x := ?_); clear_value x; revert x; intro y hy; rotate_left; unfold x; clear x)
    | (extract_lets +onlyGivenNames x; clear_value x; revert x; intro y)
    | with_reducible apply keeps_ite)

theorem keeps_State_linkTrain {P : State → Prop} (hP : K0 P) {s l} (h_s : P s) :
    P (State.linkTrain s l) := by
  unfold State.linkTrain
  repeat' (first
    | with_reducible assumption
    | with_reducible apply keeps_State_setFabSt
    | with_reducible apply keeps_State_setFab)

theorem keeps_State_linkStart {P : State → Prop} (hP : K0 P) {s l} (h_s : P s) :
    P (State.linkStart s l) := by
  unfold State.linkStart
  repeat' (first
    | with_reducible assumption
    | with_reducible apply keeps_State_setFab
    | with_reducible apply keeps_State_linkTrain
    | (extract_lets +onlyGivenNames x; clear_value x; revert x; intro y)
    | with_reducible apply keeps_ite)

theorem keeps_State_fabConfig {P : State → Prop} (hP : K0 P) {s} (h_s : P s) :
    P (State.fabConfig s) := by
  unfold State.fabConfig
  repeat' (first
    | with_reducible assumption
    | with_reducible apply keeps_State_setReach
    | with_reducible apply keeps_State_lagUpdate
    | with_reducible apply keeps_State_coordCheck
    | with_reducible apply keeps_State_linkDown
    | with_reducible apply keeps_State_linkStart
    | with_reducible apply keeps_foldl
    | with_reducible intro _
    | with_reducible apply keeps_ite)

theorem keeps_State_bulkTake {P : State → Prop} (hP : Km P) {s l} (h_s : P s) :
    P (State.bulkTake s l) := by
  unfold State.bulkTake
  have h0 := hP.toK0
  repeat' (first
    | with_reducible assumption
    | with_reducible apply keeps_State_setReg
    | with_reducible apply keeps_State_ev
    | with_reducible apply keeps_State_ringPut
    | with_reducible apply keeps_State_setRx
    | with_reducible apply keeps_State_sweep
    | with_reducible apply keeps_foldl
    | with_reducible intro _
    | with_reducible apply hf0
    | (extract_lets +onlyGivenNames x; (have hx : ∀ a, P a → P (x a) := ?_); clear_value x; revert x; intro y hf0; rotate_left; unfold x; clear x)
    | (extract_lets +onlyGivenNames x; clear_value x; revert x; intro y)
    | with_reducible apply keeps_ite
    | split
    | (refine opt1 (by with_reducible assumption) ?_))

theorem keeps_State_bulkRetry {P : State → Prop} (hP : Km P) {s} (h_s : P s) :
    P (State.bulkRetry s) := by
  unfold State.bulkRetry
  have h0 := hP.toK0
  repeat' (first
    | with_reducible assumption
    | with_reducible apply keeps_State_bulkTake
    | with_reducible apply keeps_State_pump
    | with_reducible apply keeps_foldl)

theorem keeps_State_txqDone {P : State → Prop} (hP : Km P) {s i code rflags accepted} (h_s : P s) :
    P (State.txqDone s i code rflags accepted) := by
  unfold State.txqDone
  have h0 := hP.toK0
  repeat' (first
    | with_reducible assumption
    | with_reducible apply keeps_State_setReg
    | with_reducible apply keeps_State_ev
    | with_reducible apply keeps_State_setMemBytes)

theorem keeps_State_txqTake {P : State → Prop} (hP : Km P) {s} (h_s : P s) :
    P (State.txqTake s) := by
  unfold State.txqTake
  have h0 := hP.toK0
  repeat' (first
    | with_reducible assumption
    | with_reducible apply keeps_State_fabSend
    | with_reducible apply keeps_State_setRouter
    | with_reducible apply keeps_State_txqDone
    | with_reducible apply keeps_State_setReg
    | (extract_lets +onlyGivenNames x; (have hx : P x := ?_); clear_value x; revert x; intro y hy; rotate_left; unfold x; clear x)
    | (extract_lets +onlyGivenNames x; clear_value x; revert x; intro y)
    | with_reducible apply keeps_ite)

theorem keeps_txqLoop {P : State → Prop} (hP : Km P) {y0 y1} (h_y1 : P y1) :
    P (txqLoop y0 y1) := by
  induction y0 generalizing y1
  case' succ n ih => skip
  have h0 := hP.toK0
  all_goals first | unfold txqLoop | skip
  all_goals repeat' (first
    | with_reducible assumption
    | with_reducible apply ih
    | with_reducible apply keeps_State_txqTake
    | with_reducible apply keeps_ite)

theorem keeps_State_txqRun {P : State → Prop} (hP : Km P) {s} (h_s : P s) :
    P (State.txqRun s) := by
  unfold State.txqRun
  have h0 := hP.toK0
  repeat' (first
    | with_reducible assumption
    | with_reducible apply keeps_txqLoop)

theorem keeps_State_txqWrWrite {P : State → Prop} (hP : Km P) {s v} (h_s : P s) :
    P (State.txqWrWrite s v) := by
  unfold State.txqWrWrite
  have h0 := hP.toK0
  repeat' (first
    | with_reducible assumption
    | with_reducible apply keeps_State_setReg
    | with_reducible apply keeps_State_txqRun)

theorem keeps_State_fabrCfgWrite {P : State → Prop} (hP : K0 P) {s off v} (h_s : P s) :
    P ((State.fabrCfgWrite s off v)).1 := by
  unfold State.fabrCfgWrite
  repeat' (first
    | with_reducible assumption
    | with_reducible apply keeps_State_setWord
    | with_reducible apply keeps_State_fabConfig
    | with_reducible apply keeps_State_setReach
    | with_reducible apply keeps_refuse
    | (extract_lets +onlyGivenNames x; (have hx : P x := ?_); clear_value x; revert x; intro y hy; rotate_left; unfold x; clear x)
    | (extract_lets +onlyGivenNames x; clear_value x; revert x; intro y)
    | with_reducible apply keeps_ite1)

theorem keeps_State_fabrRegWrite {P : State → Prop} (hP : Km P) {s off v} (h_s : P s) :
    OptP (fun r => P (r).1) ((State.fabrRegWrite s off v)) := by
  unfold State.fabrRegWrite
  have h0 := hP.toK0
  repeat' (first
    | with_reducible assumption
    | with_reducible apply keeps_State_setWord
    | with_reducible apply keeps_State_bulkRetry
    | with_reducible apply keeps_State_txqWrWrite
    | with_reducible apply keeps_State_fabrCfgWrite
    | with_reducible exact OptP.none
    | with_reducible apply OptP.some
    | with_reducible apply optP_ite)

theorem keeps_State_takeWaiting {P : State → Prop} (hP : K0 P) {s l kinds} (h_s : P s) :
    P (State.takeWaiting s l kinds) := by
  unfold State.takeWaiting
  repeat' (first
    | with_reducible assumption
    | with_reducible apply keeps_State_setRouter
    | with_reducible apply keeps_State_setRx
    | with_reducible apply keeps_State_sweep
    | with_reducible apply keeps_State_pump
    | (extract_lets +onlyGivenNames x; clear_value x; revert x; intro y)
    | with_reducible apply keeps_ite
    | split)

theorem keeps_execDeliverDrop {P : State → Prop} (hP : K0 P) {l s} (h_s : P s) :
    OutP P ((execDeliverDrop l s)) := by
  unfold execDeliverDrop
  repeat' (first
    | with_reducible assumption
    | with_reducible apply keeps_State_originate
    | with_reducible apply keeps_State_pump
    | with_reducible apply keeps_State_takeWaiting
    | with_reducible apply keeps_State_incF
    | with_reducible apply OutP.next
    | (extract_lets +onlyGivenNames x; (have hx : P x := ?_); clear_value x; revert x; intro y hy; rotate_left; unfold x; clear x)
    | (extract_lets +onlyGivenNames x; clear_value x; revert x; intro y)
    | with_reducible apply keeps_ite
    | split)

theorem keeps_State_txnEnd {P : State → Prop} (hP : Km P) {s t code rflags accepted} (h_s : P s) :
    P (State.txnEnd s t code rflags accepted) := by
  unfold State.txnEnd
  have h0 := hP.toK0
  repeat' (first
    | with_reducible assumption
    | with_reducible apply keeps_State_setRouter
    | with_reducible apply keeps_State_txqDone
    | with_reducible apply keeps_State_txqRun)

theorem keeps_execTxnTimeout {P : State → Prop} (hP : Km P) {tag s} (h_s : P s) :
    OutP P ((execTxnTimeout tag s)) := by
  unfold execTxnTimeout
  have h0 := hP.toK0
  repeat' (first
    | with_reducible assumption
    | with_reducible apply keeps_State_incF
    | with_reducible apply keeps_State_txnEnd
    | with_reducible apply OutP.next
    | split)

theorem keeps_execTxqWrWrite {P : State → Prop} (hP : Km P) {w v s} (h_s : P s) :
    OutP P ((execTxqWrWrite w v s)) := by
  unfold execTxqWrWrite
  have h0 := hP.toK0
  repeat' (first
    | with_reducible assumption
    | with_reducible apply keeps_State_txqWrWrite
    | with_reducible apply keeps_State_actionWrite
    | with_reducible apply keeps_finish
    | with_reducible apply OutP.next
    | with_reducible intro _)

theorem keeps_execBrspRx {P : State → Prop} (hP : Km P) {l s} (h_s : P s) :
    OutP P ((execBrspRx l s)) := by
  unfold execBrspRx
  have h0 := hP.toK0
  repeat' (first
    | with_reducible assumption
    | with_reducible apply keeps_State_txnEnd
    | with_reducible apply keeps_State_setMemBytes
    | with_reducible apply keeps_State_incF
    | with_reducible apply keeps_State_takeWaiting
    | with_reducible apply OutP.next
    | (extract_lets +onlyGivenNames x; (have hx : P x := ?_); clear_value x; revert x; intro y hy; rotate_left; unfold x; clear x)
    | (extract_lets +onlyGivenNames x; clear_value x; revert x; intro y)
    | with_reducible apply keeps_ite
    | split)

theorem keeps_State_fabNotice {P : State → Prop} (hP : K0 P) {s a} (h_s : P s) :
    P (State.fabNotice s a) := by
  unfold State.fabNotice
  repeat' (first
    | with_reducible assumption
    | with_reducible apply keeps_State_ownerLost
    | with_reducible apply keeps_State_incSat
    | with_reducible apply keeps_State_entryLost)

theorem keeps_execDeviceUnreachable {P : State → Prop} (hP : K0 P) {a s} (h_s : P s) :
    OutP P ((execDeviceUnreachable a s)) := by
  unfold execDeviceUnreachable
  repeat' (first
    | with_reducible assumption
    | with_reducible apply keeps_State_setReach
    | with_reducible apply keeps_State_fabNotice
    | with_reducible apply keeps_State_lagUpdate
    | with_reducible apply keeps_State_homeReachChanged
    | with_reducible apply OutP.next
    | with_reducible apply outP_ite)

theorem keeps_State_setFineBit {P : State → Prop} (hP : K0 P) {s a b} (h_s : P s) :
    P (State.setFineBit s a b) := by
  unfold State.setFineBit
  repeat' (first
    | with_reducible assumption
    | with_reducible apply keeps_State_setBit)

theorem keeps_State_announce {P : State → Prop} (hP : K0 P) {s a b} (h_s : P s) :
    P (State.announce s a b) := by
  unfold State.announce
  repeat' (first
    | with_reducible assumption
    | with_reducible apply keeps_State_lagUpdate
    | with_reducible apply keeps_State_homeReachChanged
    | with_reducible apply keeps_State_homeRoles
    | with_reducible apply keeps_State_setReach
    | with_reducible apply keeps_State_setFineBit
    | with_reducible apply keeps_State_fabNotice
    | with_reducible apply keeps_State_ev
    | with_reducible apply keeps_State_setRouter
    | with_reducible apply keeps_State_err
    | (extract_lets +onlyGivenNames x; (have hx : P x := ?_); clear_value x; revert x; intro y hy; rotate_left; unfold x; clear x)
    | (extract_lets +onlyGivenNames x; clear_value x; revert x; intro y)
    | with_reducible apply keeps_ite
    | split)

theorem keeps_execAnnounceRx {P : State → Prop} (hP : K0 P) {l s} (h_s : P s) :
    OutP P ((execAnnounceRx l s)) := by
  unfold execAnnounceRx
  repeat' (first
    | with_reducible assumption
    | with_reducible apply keeps_State_takeWaiting
    | with_reducible apply keeps_State_announce
    | with_reducible apply OutP.next
    | split)

theorem keeps_execAnnounceTx {P : State → Prop} (hP : K0 P) {s} (h_s : P s) :
    OutP P ((execAnnounceTx s)) := by
  unfold execAnnounceTx
  repeat' (first
    | with_reducible assumption
    | with_reducible apply keeps_State_fabFlood
    | with_reducible apply keeps_State_setFineBit
    | with_reducible apply keeps_State_lagUpdate
    | with_reducible apply OutP.next
    | (extract_lets +onlyGivenNames x; (have hx : P x := ?_); clear_value x; revert x; intro y hy; rotate_left; unfold x; clear x)
    | with_reducible apply outP_ite)

theorem keeps_execResyncReqResend {P : State → Prop} (hP : K0 P) {l s} (h_s : P s) :
    OutP P ((execResyncReqResend l s)) := by
  unfold execResyncReqResend
  repeat' (first
    | with_reducible assumption
    | with_reducible apply keeps_State_send
    | with_reducible apply OutP.next
    | (extract_lets +onlyGivenNames x; clear_value x; revert x; intro y)
    | with_reducible apply outP_ite)

theorem keeps_execResyncAckRx {P : State → Prop} (hP : K0 P) {l mask freed s} (h_s : P s) :
    OutP P ((execResyncAckRx l mask freed s)) := by
  unfold execResyncAckRx
  repeat' (first
    | with_reducible assumption
    | with_reducible apply keeps_State_setFabSt
    | with_reducible apply keeps_State_ev
    | with_reducible apply keeps_State_coordCheck
    | with_reducible apply keeps_State_pump
    | with_reducible apply keeps_State_setFab
    | with_reducible apply keeps_State_set
    | with_reducible apply keeps_foldl
    | with_reducible apply OutP.next
    | with_reducible intro _
    | (extract_lets +onlyGivenNames x; (have hx : P x := ?_); clear_value x; revert x; intro y hy; rotate_left; unfold x; clear x)
    | (extract_lets +onlyGivenNames x; clear_value x; revert x; intro y)
    | with_reducible apply outP_ite)

theorem keeps_execResyncReqRx {P : State → Prop} (hP : K0 P) {l mask next s} (h_s : P s) :
    OutP P ((execResyncReqRx l mask next s)) := by
  unfold execResyncReqRx
  repeat' (first
    | with_reducible assumption
    | with_reducible apply keeps_State_setFab
    | with_reducible apply keeps_State_sweep
    | with_reducible apply OutP.next
    | (extract_lets +onlyGivenNames x; clear_value x; revert x; intro y)
    | with_reducible apply outP_ite)

theorem keeps_State_linkHold {P : State → Prop} (hP : K0 P) {s l cause} (h_s : P s) :
    P (State.linkHold s l cause) := by
  unfold State.linkHold
  repeat' (first
    | with_reducible assumption
    | with_reducible apply keeps_State_linkLost
    | with_reducible apply keeps_State_coordCheck
    | with_reducible apply keeps_State_pump
    | with_reducible apply keeps_State_ev
    | with_reducible apply keeps_State_setB
    | with_reducible apply keeps_State_setFab
    | with_reducible apply keeps_State_incF
    | with_reducible apply keeps_State_set
    | with_reducible apply keeps_State_setFabSt
    | with_reducible apply keeps_ite)

theorem keeps_State_replay {P : State → Prop} (hP : K0 P) {s l} (h_s : P s) :
    P (State.replay s l) := by
  unfold State.replay
  repeat' (first
    | with_reducible assumption
    | with_reducible apply keeps_State_err
    | with_reducible apply keeps_State_linkHold
    | with_reducible apply keeps_State_setFab
    | with_reducible apply keeps_State_incF
    | with_reducible apply keeps_State_send
    | with_reducible apply keeps_foldl
    | with_reducible intro _
    | (extract_lets +onlyGivenNames x; (have hx : P x := ?_); clear_value x; revert x; intro y hy; rotate_left; unfold x; clear x)
    | (extract_lets +onlyGivenNames x; clear_value x; revert x; intro y)
    | with_reducible apply keeps_ite)

theorem keeps_execReplayTimeout {P : State → Prop} (hP : K0 P) {l s} (h_s : P s) :
    OutP P ((execReplayTimeout l s)) := by
  unfold execReplayTimeout
  repeat' (first
    | with_reducible assumption
    | with_reducible apply keeps_State_replay
    | with_reducible apply keeps_State_pump
    | with_reducible apply OutP.next
    | with_reducible apply outP_ite)

theorem keeps_State_resyncStart {P : State → Prop} (hP : K0 P) {s l mask} (h_s : P s) :
    P (State.resyncStart s l mask) := by
  unfold State.resyncStart
  repeat' (first
    | with_reducible assumption
    | with_reducible apply keeps_State_send
    | with_reducible apply keeps_State_incF
    | with_reducible apply keeps_State_setFab
    | with_reducible apply keeps_State_set
    | with_reducible apply keeps_foldl
    | with_reducible intro _
    | with_reducible apply keeps_ite)

theorem keeps_State_creditReturn {P : State → Prop} (hP : K0 P) {s l v freed} (h_s : P s) :
    P (State.creditReturn s l v freed) := by
  unfold State.creditReturn
  repeat' (first
    | with_reducible assumption
    | with_reducible apply keeps_State_resyncStart
    | with_reducible apply keeps_State_set
    | with_reducible apply keeps_State_incF
    | with_reducible apply keeps_State_err
    | with_reducible apply keeps_State_setFab
    | (extract_lets +onlyGivenNames x; (have hx : P x := ?_); clear_value x; revert x; intro y hy; rotate_left; unfold x; clear x)
    | (extract_lets +onlyGivenNames x; clear_value x; revert x; intro y)
    | with_reducible apply keeps_ite)

theorem keeps_execStatusRx {P : State → Prop} (hP : K0 P) {l m s} (h_s : P s) :
    OutP P ((execStatusRx l m s)) := by
  unfold execStatusRx
  repeat' (first
    | with_reducible assumption
    | with_reducible apply keeps_State_pump
    | with_reducible apply keeps_State_replay
    | with_reducible apply keeps_State_creditReturn
    | with_reducible apply keeps_State_setFab
    | with_reducible apply keeps_State_injTake
    | with_reducible apply keeps_foldl
    | with_reducible apply OutP.next
    | with_reducible intro _
    | (extract_lets +onlyGivenNames x; (have hx : P x := ?_); clear_value x; revert x; intro y hy; rotate_left; unfold x; clear x)
    | (extract_lets +onlyGivenNames x; (have hx : P x.2 := ?_); clear_value x; revert x; intro y hy; rotate_left; unfold x; clear x)
    | (extract_lets +onlyGivenNames x; clear_value x; revert x; intro y)
    | with_reducible apply keeps_ite
    | with_reducible apply outP_ite)

theorem keeps_execStatusTx {P : State → Prop} (hP : K0 P) {l s} (h_s : P s) :
    OutP P ((execStatusTx l s)) := by
  unfold execStatusTx
  repeat' (first
    | with_reducible assumption
    | with_reducible apply keeps_State_send
    | with_reducible apply OutP.next
    | (extract_lets +onlyGivenNames x; clear_value x; revert x; intro y)
    | with_reducible apply outP_ite)

theorem keeps_State_timeArrive {P : State → Prop} (hP : K0 P) {s l p} (h_s : P s) :
    P (State.timeArrive s l p) := by
  unfold State.timeArrive
  repeat' (first
    | with_reducible assumption
    | with_reducible apply keeps_State_setFab
    | (extract_lets +onlyGivenNames x; clear_value x; revert x; intro y)
    | with_reducible apply keeps_ite
    | split)

theorem keeps_State_bufferRx {P : State → Prop} (hP : K0 P) {s l e} (h_s : P s) :
    P (State.bufferRx s l e) := by
  unfold State.bufferRx
  repeat' (first
    | with_reducible assumption
    | with_reducible apply keeps_State_setRx
    | with_reducible apply keeps_State_sweep)

theorem keeps_State_discardRx {P : State → Prop} (hP : K0 P) {s l p} (h_s : P s) :
    P (State.discardRx s l p) := by
  unfold State.discardRx
  repeat' (first
    | with_reducible assumption
    | with_reducible apply keeps_State_addFreed)

theorem keeps_State_acceptRx {P : State → Prop} (hP : K0 P) {s l p} (h_s : P s) :
    P (State.acceptRx s l p) := by
  unfold State.acceptRx
  repeat' (first
    | with_reducible assumption
    | with_reducible apply keeps_State_unreach
    | with_reducible apply keeps_State_routeOf
    | with_reducible apply keeps_State_timeArrive
    | with_reducible apply keeps_State_bufferRx
    | with_reducible apply keeps_State_incF
    | with_reducible apply keeps_State_discardRx
    | with_reducible apply keeps_State_floodTake
    | (extract_lets +onlyGivenNames x; (have hx : P x := ?_); clear_value x; revert x; intro y hy; rotate_left; unfold x; clear x)
    | (extract_lets +onlyGivenNames x; (have hx : P x.1 := ?_); clear_value x; revert x; intro y hy; rotate_left; unfold x; clear x)
    | (extract_lets +onlyGivenNames x; (have hx : P x.2 := ?_); clear_value x; revert x; intro y hy; rotate_left; unfold x; clear x)
    | (extract_lets +onlyGivenNames x; clear_value x; revert x; intro y)
    | with_reducible apply keeps_ite
    | split)

theorem keeps_State_nakSet {P : State → Prop} (hP : K0 P) {s l} (h_s : P s) :
    P (State.nakSet s l) := by
  unfold State.nakSet
  repeat' (first
    | with_reducible assumption
    | with_reducible apply keeps_State_setFab
    | with_reducible apply keeps_State_incF
    | (extract_lets +onlyGivenNames x; clear_value x; revert x; intro y)
    | with_reducible apply keeps_ite)

theorem keeps_execParcelRx {P : State → Prop} (hP : Km P) {l p s} (h_s : P s) :
    OutP P ((execParcelRx l p s)) := by
  unfold execParcelRx
  have h0 := hP.toK0
  repeat' (first
    | with_reducible assumption
    | with_reducible apply keeps_State_acceptRx
    | with_reducible apply keeps_State_bulkTake
    | with_reducible apply keeps_State_sweep
    | with_reducible apply keeps_State_incF
    | with_reducible apply keeps_State_discardRx
    | with_reducible apply keeps_State_pump
    | with_reducible apply keeps_State_inc
    | with_reducible apply keeps_State_setFab
    | with_reducible apply keeps_State_incSat
    | with_reducible apply keeps_State_nakSet
    | with_reducible apply OutP.next
    | (extract_lets +onlyGivenNames x; (have hx : P x := ?_); clear_value x; revert x; intro y hy; rotate_left; unfold x; clear x)
    | (extract_lets +onlyGivenNames x; clear_value x; revert x; intro y)
    | with_reducible apply outP_ite
    | split)

theorem keeps_execCoordWaitExpire {P : State → Prop} (hP : K0 P) {l s} (h_s : P s) :
    OutP P ((execCoordWaitExpire l s)) := by
  unfold execCoordWaitExpire
  repeat' (first
    | with_reducible assumption
    | with_reducible apply keeps_State_setFab
    | with_reducible apply keeps_State_coordCheck
    | with_reducible apply OutP.next
    | (extract_lets +onlyGivenNames x; clear_value x; revert x; intro y)
    | with_reducible apply outP_ite)

theorem keeps_execHoldEnd {P : State → Prop} (hP : K0 P) {l s} (h_s : P s) :
    OutP P ((execHoldEnd l s)) := by
  unfold execHoldEnd
  repeat' (first
    | with_reducible assumption
    | with_reducible apply keeps_State_set
    | with_reducible apply keeps_State_linkTrain
    | with_reducible apply keeps_State_coordCheck
    | with_reducible apply OutP.next
    | with_reducible apply outP_ite)

theorem keeps_execLinkSilent {P : State → Prop} (hP : K0 P) {l s} (h_s : P s) :
    OutP P ((execLinkSilent l s)) := by
  unfold execLinkSilent
  repeat' (first
    | with_reducible assumption
    | with_reducible apply keeps_State_linkHold
    | with_reducible apply OutP.next
    | with_reducible apply outP_ite)

theorem keeps_execBlockLockLoss {P : State → Prop} (hP : K0 P) {l s} (h_s : P s) :
    OutP P ((execBlockLockLoss l s)) := by
  unfold execBlockLockLoss
  repeat' (first
    | with_reducible assumption
    | with_reducible apply keeps_State_linkHold
    | with_reducible apply keeps_State_set
    | with_reducible apply OutP.next
    | (extract_lets +onlyGivenNames x; (have hx : P x := ?_); clear_value x; revert x; intro y hy; rotate_left; unfold x; clear x)
    | (extract_lets +onlyGivenNames x; clear_value x; revert x; intro y)
    | with_reducible apply outP_ite)

theorem keeps_execResyncTimeout {P : State → Prop} (hP : K0 P) {l s} (h_s : P s) :
    OutP P ((execResyncTimeout l s)) := by
  unfold execResyncTimeout
  repeat' (first
    | with_reducible assumption
    | with_reducible apply keeps_State_linkHold
    | with_reducible apply OutP.next
    | with_reducible apply outP_ite)

theorem keeps_State_linkResync {P : State → Prop} (hP : K0 P) {s l h} (h_s : P s) :
    P (State.linkResync s l h) := by
  unfold State.linkResync
  repeat' (first
    | with_reducible assumption
    | with_reducible apply keeps_State_setFabSt
    | with_reducible apply keeps_State_resyncStart
    | with_reducible apply keeps_State_setFab
    | with_reducible apply keeps_State_set
    | with_reducible apply keeps_State_setReg)

theorem keeps_execFaultRecheck {P : State → Prop} (hP : K0 P) {l s} (h_s : P s) :
    OutP P ((execFaultRecheck l s)) := by
  unfold execFaultRecheck
  repeat' (first
    | with_reducible assumption
    | with_reducible apply keeps_State_linkResync
    | with_reducible apply OutP.next
    | with_reducible apply outP_ite
    | split)

theorem keeps_execHelloTimeout {P : State → Prop} (hP : K0 P) {l s} (h_s : P s) :
    OutP P ((execHelloTimeout l s)) := by
  unfold execHelloTimeout
  repeat' (first
    | with_reducible assumption
    | with_reducible apply keeps_State_linkTrain
    | with_reducible apply OutP.next
    | with_reducible apply outP_ite)

theorem keeps_execHelloRx {P : State → Prop} (hP : K0 P) {l h s} (h_s : P s) :
    OutP P ((execHelloRx l h s)) := by
  unfold execHelloRx
  repeat' (first
    | with_reducible assumption
    | with_reducible apply keeps_State_linkHold
    | with_reducible apply keeps_State_linkResync
    | with_reducible apply keeps_State_setFabSt
    | with_reducible apply keeps_State_coordCheck
    | with_reducible apply keeps_State_set
    | with_reducible apply keeps_State_err
    | with_reducible apply keeps_State_setFab
    | with_reducible apply keeps_State_incSat
    | with_reducible apply OutP.next
    | (extract_lets +onlyGivenNames x; (have hx : P x := ?_); clear_value x; revert x; intro y hy; rotate_left; unfold x; clear x)
    | (extract_lets +onlyGivenNames x; clear_value x; revert x; intro y)
    | with_reducible apply outP_ite
    | split)

theorem keeps_execHelloTx {P : State → Prop} (hP : K0 P) {l s} (h_s : P s) :
    OutP P ((execHelloTx l s)) := by
  unfold execHelloTx
  repeat' (first
    | with_reducible assumption
    | with_reducible apply keeps_State_send
    | with_reducible apply OutP.next
    | with_reducible apply outP_ite)

theorem keeps_execFabBlockLock {P : State → Prop} (hP : K0 P) {l s} (h_s : P s) :
    OutP P ((execFabBlockLock l s)) := by
  unfold execFabBlockLock
  repeat' (first
    | with_reducible assumption
    | with_reducible apply keeps_State_setFabSt
    | with_reducible apply keeps_State_set
    | with_reducible apply OutP.next
    | (extract_lets +onlyGivenNames x; (have hx : P x := ?_); clear_value x; revert x; intro y hy; rotate_left; unfold x; clear x)
    | with_reducible apply outP_ite)

end Sys2Proof.Machine
end

