-- ==== Sys2Proof/Laws/KWakeCore.lean ====
section
/-! SUPPORT. What the operations of Machine.WakeCore keep. -/

namespace Sys2Proof.Machine

open Host (Outcome)

theorem keeps_State_wakeDom {P : State → Prop} (hP : K0 P) {s d} (h_s : P s) :
    P (State.wakeDom s d) := by
  unfold State.wakeDom
  repeat' (first
    | with_reducible assumption
    | with_reducible apply keeps_State_setDom
    | with_reducible apply keeps_ite)

theorem keeps_State_clk {P : State → Prop} (hP : K0 P) {s f b} (h_s : P s) :
    P (State.clk s f b) := by
  unfold State.clk
  repeat' (first
    | with_reducible assumption
    | with_reducible apply keeps_State_setB
    | with_reducible apply keeps_State_ev
    | with_reducible apply keeps_ite)

theorem keeps_State_setRest {P : State → Prop} (hP : K0 P) {s x} (h_s : P s) :
    P (State.setRest s x) := by
  unfold State.setRest
  repeat' (first
    | with_reducible assumption
    | fail_if_no_progress with_reducible refine hP.upd ?_)

theorem keeps_State_wakeCause {P : State → Prop} (hP : K0 P) {s b} (h_s : P s) :
    P (State.wakeCause s b) := by
  unfold State.wakeCause
  repeat' (first
    | with_reducible assumption
    | with_reducible apply keeps_State_clk
    | with_reducible apply keeps_State_setRest
    | with_reducible apply keeps_State_incF
    | with_reducible apply keeps_State_set
    | with_reducible apply keeps_State_setBit
    | with_reducible apply keeps_State_ev
    | (extract_lets +onlyGivenNames x; (have hx : P x := ?_); clear_value x; revert x; intro y hy; rotate_left; unfold x; clear x)
    | (extract_lets +onlyGivenNames x; clear_value x; revert x; intro y)
    | with_reducible apply keeps_ite)

theorem keeps_State_pllLock {P : State → Prop} (hP : K0 P) {s} (h_s : P s) :
    P (State.pllLock s) := by
  unfold State.pllLock
  repeat' (first
    | with_reducible assumption
    | with_reducible apply keeps_State_clk
    | (extract_lets +onlyGivenNames x; (have hx : P x := ?_); clear_value x; revert x; intro y hy; rotate_left; unfold x; clear x)
    | with_reducible apply keeps_ite)

theorem keeps_State_degradeEnd {P : State → Prop} (hP : K0 P) {s} (h_s : P s) :
    P (State.degradeEnd s) := by
  unfold State.degradeEnd
  repeat' (first
    | with_reducible assumption
    | with_reducible apply keeps_State_set
    | with_reducible apply keeps_State_pllLock
    | with_reducible apply keeps_ite)

theorem keeps_State_hwPost {P : State → Prop} (hP : K0 P) {s x} (h_s : P s) :
    P (State.hwPost s x) := by
  unfold State.hwPost
  repeat' (first
    | with_reducible assumption
    | fail_if_no_progress with_reducible refine hP.upd ?_)

end Sys2Proof.Machine
end

