-- ==== Sys2Proof/Laws/KGate.lean ====
section
/-! SUPPORT. What the operations of Machine.Gate keep. -/

namespace Sys2Proof.Machine

open Host (Outcome)

theorem keeps_State_gateApplied {P : State → Prop} (hP : K0 P) {s} (h_s : P s) :
    P (State.gateApplied s) := by
  unfold State.gateApplied
  repeat' (first
    | with_reducible assumption
    | with_reducible apply keeps_State_setSes
    | with_reducible apply keeps_State_closeSess
    | with_reducible apply keeps_foldl
    | with_reducible intro _
    | (extract_lets +onlyGivenNames x; clear_value x; revert x; intro y)
    | with_reducible apply keeps_ite)

theorem keeps_State_ethTxWrite {P : State → Prop} (hP : K0 P) {s k v} (h_s : P s) :
    P (State.ethTxWrite s k v) := by
  unfold State.ethTxWrite
  repeat' (first
    | with_reducible assumption
    | with_reducible apply keeps_State_setReg
    | with_reducible apply keeps_State_send
    | with_reducible apply keeps_State_free
    | with_reducible apply keeps_State_setWord
    | (extract_lets +onlyGivenNames x; (have hx : P x := ?_); clear_value x; revert x; intro y hy; rotate_left; unfold x; clear x)
    | (extract_lets +onlyGivenNames x; (have hx : P x.2 := ?_); clear_value x; revert x; intro y hy; rotate_left; unfold x; clear x)
    | (extract_lets +onlyGivenNames x; clear_value x; revert x; intro y)
    | with_reducible apply keeps_ite)

theorem keeps_State_ethRegWrite {P : State → Prop} (hP : K0 P) {s k off v} (h_s : P s) :
    OptP (fun r => P (r).1) ((State.ethRegWrite s k off v)) := by
  unfold State.ethRegWrite
  repeat' (first
    | with_reducible assumption
    | with_reducible apply keeps_State_ethTxWrite
    | with_reducible exact OptP.none
    | with_reducible apply OptP.some
    | with_reducible apply optP_ite)

theorem keeps_State_sessSend {P : State → Prop} (hP : K0 P) {s n b} (h_s : P s) :
    P (State.sessSend s n b) := by
  unfold State.sessSend
  repeat' (first
    | with_reducible assumption
    | with_reducible apply keeps_State_send
    | with_reducible apply keeps_State_tunData
    | (extract_lets +onlyGivenNames x; clear_value x; revert x; intro y)
    | with_reducible apply keeps_ite)

theorem keeps_State_svcRspWrite {P : State → Prop} (hP : K0 P) {s v} (h_s : P s) :
    P (State.svcRspWrite s v) := by
  unfold State.svcRspWrite
  repeat' (first
    | with_reducible assumption
    | with_reducible apply keeps_State_sessSend
    | with_reducible apply keeps_State_setSes
    | with_reducible apply keeps_State_setWord
    | (extract_lets +onlyGivenNames x; (have hx : P x := ?_); clear_value x; revert x; intro y hy; rotate_left; unfold x; clear x)
    | (extract_lets +onlyGivenNames x; clear_value x; revert x; intro y)
    | with_reducible apply keeps_ite)

theorem keeps_State_showReq {P : State → Prop} (hP : K0 P) {s} (h_s : P s) :
    P (State.showReq s) := by
  unfold State.showReq
  repeat' (first
    | with_reducible assumption
    | with_reducible apply keeps_State_setReg
    | split)

theorem keeps_State_sessRefuse {P : State → Prop} (hP : K0 P) {s} (h_s : P s) :
    P (State.sessRefuse s) := by
  unfold State.sessRefuse
  repeat' (first
    | with_reducible assumption
    | with_reducible apply keeps_State_setGate
    | with_reducible apply keeps_State_showReq
    | with_reducible apply keeps_State_tunSend
    | (extract_lets +onlyGivenNames x; clear_value x; revert x; intro y)
    | split)

theorem keeps_State_sessOpen {P : State → Prop} (hP : K0 P) {s} (h_s : P s) :
    P ((State.sessOpen s)).1 := by
  unfold State.sessOpen
  repeat' (first
    | with_reducible assumption
    | with_reducible apply keeps_State_tunSend
    | with_reducible apply keeps_State_setGate
    | with_reducible apply keeps_State_showReq
    | with_reducible apply keeps_State_ev
    | with_reducible apply keeps_refuse
    | with_reducible apply keeps_State_setSes
    | (extract_lets +onlyGivenNames x; (have hx : P x := ?_); clear_value x; revert x; intro y hy; rotate_left; unfold x; clear x)
    | (extract_lets +onlyGivenNames x; clear_value x; revert x; intro y)
    | with_reducible apply keeps_ite1
    | dsimp -zeta only
    | fail_if_no_progress with_reducible refine hP.upd ?_)

theorem keeps_State_sessCmd {P : State → Prop} (hP : K0 P) {s v} (h_s : P s) :
    P ((State.sessCmd s v)).1 := by
  unfold State.sessCmd
  repeat' (first
    | with_reducible assumption
    | with_reducible apply keeps_State_sessRefuse
    | with_reducible apply keeps_State_closeSess
    | with_reducible apply keeps_State_sessOpen
    | (extract_lets +onlyGivenNames x; (have hx : P x := ?_); clear_value x; revert x; intro y hy; rotate_left; unfold x; clear x)
    | (extract_lets +onlyGivenNames x; (have hx : P x.1 := ?_); clear_value x; revert x; intro y hy; rotate_left; unfold x; clear x)
    | with_reducible apply keeps_ite
    | with_reducible apply keeps_ite1)

theorem keeps_State_gateRegWrite {P : State → Prop} (hP : K0 P) {s off v} (h_s : P s) :
    OptP (fun r => P (r).1) ((State.gateRegWrite s off v)) := by
  unfold State.gateRegWrite
  repeat' (first
    | with_reducible assumption
    | with_reducible apply keeps_State_svcRspWrite
    | with_reducible apply keeps_State_sessCmd
    | with_reducible exact OptP.none
    | with_reducible apply OptP.some
    | with_reducible apply optP_ite)

theorem keeps_State_setEth {P : State → Prop} (hP : K0 P) {s k x} (h_s : P s) :
    P (State.setEth s k x) := by
  unfold State.setEth
  repeat' (first
    | with_reducible assumption
    | fail_if_no_progress with_reducible refine hP.upd ?_)

theorem keeps_State_ethRing {P : State → Prop} (hP : Km P) {s k b} (h_s : P s) :
    P (State.ethRing s k b) := by
  unfold State.ethRing
  have h0 := hP.toK0
  repeat' (first
    | with_reducible assumption
    | with_reducible apply keeps_State_setReg
    | with_reducible apply keeps_State_ev
    | with_reducible apply keeps_State_incSat
    | with_reducible apply keeps_State_ringPut
    | (extract_lets +onlyGivenNames x; clear_value x; revert x; intro y)
    | split
    | (refine opt1 (by with_reducible assumption) ?_))

theorem keeps_State_ethWake {P : State → Prop} (hP : Km P) {s} (h_s : P s) :
    P (State.ethWake s) := by
  unfold State.ethWake
  have h0 := hP.toK0
  repeat' (first
    | with_reducible assumption
    | with_reducible apply keeps_State_setEth
    | with_reducible apply keeps_State_ethRing
    | with_reducible apply keeps_foldl
    | with_reducible intro _)

theorem keeps_State_sessReply {P : State → Prop} (hP : K0 P) {s n r code rflags accepted data} (h_s : P s) :
    P (State.sessReply s n r code rflags accepted data) := by
  unfold State.sessReply
  repeat' (first
    | with_reducible assumption
    | with_reducible apply keeps_State_sessSend
    | with_reducible apply keeps_ite)

theorem keeps_State_takeReq {P : State → Prop} (hP : K0 P) {s n ty} (h_s : P s) :
    OptP (fun r => P (r).2) ((State.takeReq s n ty)) := by
  unfold State.takeReq
  repeat' (first
    | with_reducible assumption
    | with_reducible apply keeps_State_setSes
    | with_reducible exact OptP.none
    | with_reducible apply OptP.some
    | (extract_lets +onlyGivenNames x; clear_value x; revert x; intro y)
    | with_reducible apply optP_ite
    | split)

theorem keeps_execEthLinkChg {P : State → Prop} (hP : K0 P) {k link lock s} (h_s : P s) :
    OutP P ((execEthLinkChg k link lock s)) := by
  unfold execEthLinkChg
  repeat' (first
    | with_reducible assumption
    | with_reducible apply keeps_State_ev
    | with_reducible apply keeps_State_setB
    | with_reducible apply OutP.next
    | with_reducible apply keeps_ite)

theorem keeps_State_ethFrame {P : State → Prop} (hP : Km P) {s k b} (h_s : P s) :
    P (State.ethFrame s k b) := by
  unfold State.ethFrame
  have h0 := hP.toK0
  repeat' (first
    | with_reducible assumption
    | with_reducible apply keeps_State_setEth
    | with_reducible apply keeps_State_incSat
    | with_reducible apply keeps_State_wakeDom
    | with_reducible apply keeps_State_ethRing
    | (extract_lets +onlyGivenNames x; clear_value x; revert x; intro y)
    | with_reducible apply keeps_ite)

theorem keeps_execEthFrameRx {P : State → Prop} (hP : Km P) {k data s} (h_s : P s) :
    OutP P ((execEthFrameRx k data s)) := by
  unfold execEthFrameRx
  have h0 := hP.toK0
  repeat' (first
    | with_reducible assumption
    | with_reducible apply keeps_State_inc
    | with_reducible apply keeps_State_ethFrame
    | with_reducible apply OutP.next
    | with_reducible apply outP_ite)

theorem keeps_execFragmentTimeout {P : State → Prop} (hP : K0 P) {s} (h_s : P s) :
    OutP P ((execFragmentTimeout s)) := by
  unfold execFragmentTimeout
  repeat' (first
    | with_reducible assumption
    | with_reducible apply keeps_State_setGate
    | with_reducible apply OutP.next)

theorem keeps_State_chanDrop {P : State → Prop} (hP : K0 P) {s n c} (h_s : P s) :
    P (State.chanDrop s n c) := by
  unfold State.chanDrop
  repeat' (first
    | with_reducible assumption
    | with_reducible apply keeps_State_setSes)

theorem keeps_execTunnelTimeout {P : State → Prop} (hP : K0 P) {n c s} (h_s : P s) :
    OutP P ((execTunnelTimeout n c s)) := by
  unfold execTunnelTimeout
  repeat' (first
    | with_reducible assumption
    | with_reducible apply keeps_State_chanDrop
    | with_reducible apply keeps_State_sessReply
    | with_reducible apply OutP.next
    | with_reducible apply outP_ite
    | split)

theorem keeps_execTunnelCloseRx {P : State → Prop} (hP : K0 P) {src m s} (h_s : P s) :
    OutP P ((execTunnelCloseRx src m s)) := by
  unfold execTunnelCloseRx
  repeat' (first
    | with_reducible assumption
    | with_reducible apply keeps_State_chanDrop
    | with_reducible apply keeps_State_closeSess
    | with_reducible apply OutP.next
    | with_reducible apply outP_ite
    | split)

theorem keeps_State_joinFrag {P : State → Prop} (hP : K0 P) {s src m rsp} (h_s : P s) :
    P ((State.joinFrag s src m rsp)).1 := by
  unfold State.joinFrag
  repeat' (first
    | with_reducible assumption
    | with_reducible apply keeps_State_setGate
    | (extract_lets +onlyGivenNames x; clear_value x; revert x; intro y)
    | with_reducible apply keeps_ite1
    | split)

theorem keeps_execTunnelRspRx {P : State → Prop} (hP : K0 P) {src m s} (h_s : P s) :
    OutP P ((execTunnelRspRx src m s)) := by
  unfold execTunnelRspRx
  repeat' (first
    | with_reducible assumption
    | with_reducible apply keeps_State_sessSend
    | with_reducible apply keeps_State_joinFrag
    | with_reducible apply OutP.next
    | (extract_lets +onlyGivenNames x; (have hx : P x.1 := ?_); clear_value x; revert x; intro y hy; rotate_left; unfold x; clear x)
    | (extract_lets +onlyGivenNames x; clear_value x; revert x; intro y)
    | with_reducible apply outP_ite
    | split)

theorem keeps_execTunnelReqRx {P : State → Prop} (hP : K0 P) {src m s} (h_s : P s) :
    OutP P ((execTunnelReqRx src m s)) := by
  unfold execTunnelReqRx
  repeat' (first
    | with_reducible assumption
    | with_reducible apply keeps_State_setSes
    | with_reducible apply keeps_State_joinFrag
    | with_reducible apply OutP.next
    | (extract_lets +onlyGivenNames x; (have hx : P x.1 := ?_); clear_value x; revert x; intro y hy; rotate_left; unfold x; clear x)
    | (extract_lets +onlyGivenNames x; clear_value x; revert x; intro y)
    | split)

theorem keeps_execTunnelOpenAckRx {P : State → Prop} (hP : K0 P) {src m s} (h_s : P s) :
    OutP P ((execTunnelOpenAckRx src m s)) := by
  unfold execTunnelOpenAckRx
  repeat' (first
    | with_reducible assumption
    | with_reducible apply keeps_State_chanDrop
    | with_reducible apply keeps_State_sessReply
    | with_reducible apply keeps_State_setSes
    | with_reducible apply keeps_State_tunSend
    | with_reducible apply OutP.next
    | (extract_lets +onlyGivenNames x; (have hx : P x := ?_); clear_value x; revert x; intro y hy; rotate_left; unfold x; clear x)
    | (extract_lets +onlyGivenNames x; clear_value x; revert x; intro y)
    | with_reducible apply outP_ite
    | split)

theorem keeps_execTunnelOpenRx {P : State → Prop} (hP : K0 P) {src m s} (h_s : P s) :
    OutP P ((execTunnelOpenRx src m s)) := by
  unfold execTunnelOpenRx
  repeat' (first
    | with_reducible assumption
    | with_reducible apply keeps_State_setGate
    | with_reducible apply keeps_State_showReq
    | with_reducible apply keeps_State_ev
    | with_reducible apply keeps_State_err
    | with_reducible apply keeps_State_tunSend
    | with_reducible apply OutP.next
    | (extract_lets +onlyGivenNames x; clear_value x; revert x; intro y)
    | with_reducible apply outP_ite)

theorem keeps_execServiceReply {P : State → Prop} (hP : K0 P) {w v s} (h_s : P s) :
    OutP P ((execServiceReply w v s)) := by
  unfold execServiceReply
  repeat' (first
    | with_reducible assumption
    | with_reducible apply keeps_State_svcRspWrite
    | with_reducible apply keeps_State_actionWrite
    | with_reducible apply keeps_finish
    | with_reducible apply OutP.next
    | with_reducible intro _)

theorem keeps_execSessRefuse {P : State → Prop} (hP : K0 P) {w s} (h_s : P s) :
    OutP P ((execSessRefuse w s)) := by
  unfold execSessRefuse
  repeat' (first
    | with_reducible assumption
    | with_reducible apply keeps_State_sessCmd
    | with_reducible apply keeps_State_actionWrite
    | with_reducible apply keeps_finish
    | with_reducible apply OutP.next
    | with_reducible intro _)

theorem keeps_execSessClose {P : State → Prop} (hP : K0 P) {w s} (h_s : P s) :
    OutP P ((execSessClose w s)) := by
  unfold execSessClose
  repeat' (first
    | with_reducible assumption
    | with_reducible apply keeps_State_sessCmd
    | with_reducible apply keeps_State_actionWrite
    | with_reducible apply keeps_finish
    | with_reducible apply OutP.next
    | with_reducible intro _)

theorem keeps_execSessOpen {P : State → Prop} (hP : K0 P) {w s} (h_s : P s) :
    OutP P ((execSessOpen w s)) := by
  unfold execSessOpen
  repeat' (first
    | with_reducible assumption
    | with_reducible apply keeps_State_sessCmd
    | with_reducible apply keeps_State_actionWrite
    | with_reducible apply keeps_finish
    | with_reducible apply OutP.next
    | with_reducible intro _)

theorem keeps_execSessionPeerClose {P : State → Prop} (hP : K0 P) {n reset s} (h_s : P s) :
    OutP P ((execSessionPeerClose n reset s)) := by
  unfold execSessionPeerClose
  repeat' (first
    | with_reducible assumption
    | with_reducible apply keeps_State_closeSess
    | with_reducible apply OutP.next)

theorem keeps_execSessionIdle {P : State → Prop} (hP : K0 P) {n s} (h_s : P s) :
    OutP P ((execSessionIdle n s)) := by
  unfold execSessionIdle
  repeat' (first
    | with_reducible assumption
    | with_reducible apply keeps_State_closeSess
    | with_reducible apply OutP.next)

theorem keeps_execTokenRefill {P : State → Prop} (hP : K0 P) {s} (h_s : P s) :
    OutP P ((execTokenRefill s)) := by
  unfold execTokenRefill
  repeat' (first
    | with_reducible assumption
    | with_reducible apply keeps_State_setSes
    | with_reducible apply keeps_foldl
    | with_reducible apply OutP.next
    | with_reducible intro _)

theorem keeps_execService {P : State → Prop} (hP : Km P) {n s} (h_s : P s) :
    OutP P ((execService n s)) := by
  unfold execService
  have h0 := hP.toK0
  repeat' (first
    | with_reducible assumption
    | with_reducible apply keeps_State_setSes
    | with_reducible apply keeps_State_setReg
    | with_reducible apply keeps_State_ev
    | with_reducible apply keeps_State_ringPut
    | with_reducible apply keeps_State_sessReply
    | with_reducible apply keeps_State_takeReq
    | with_reducible apply OutP.next
    | (extract_lets +onlyGivenNames x; clear_value x; revert x; intro y)
    | with_reducible apply keeps_ite
    | with_reducible apply outP_ite
    | split
    | (refine opt1 (by with_reducible assumption) ?_)
    | (refine opt2 (by with_reducible assumption) ?_))

theorem keeps_execCloseTunnel {P : State → Prop} (hP : K0 P) {n s} (h_s : P s) :
    OutP P ((execCloseTunnel n s)) := by
  unfold execCloseTunnel
  repeat' (first
    | with_reducible assumption
    | with_reducible apply keeps_State_chanDrop
    | with_reducible apply keeps_State_tunSend
    | with_reducible apply keeps_State_sessReply
    | with_reducible apply keeps_State_takeReq
    | with_reducible apply OutP.next
    | split
    | (refine opt2 (by with_reducible assumption) ?_))

theorem keeps_execOpenTunnel {P : State → Prop} (hP : K0 P) {n s} (h_s : P s) :
    OutP P ((execOpenTunnel n s)) := by
  unfold execOpenTunnel
  repeat' (first
    | with_reducible assumption
    | with_reducible apply keeps_State_tunSend
    | with_reducible apply keeps_State_setSes
    | with_reducible apply keeps_State_sessReply
    | with_reducible apply keeps_State_takeReq
    | with_reducible apply OutP.next
    | (extract_lets +onlyGivenNames x; (have hx : P x := ?_); clear_value x; revert x; intro y hy; rotate_left; unfold x; clear x)
    | (extract_lets +onlyGivenNames x; clear_value x; revert x; intro y)
    | with_reducible apply outP_ite
    | split
    | (refine opt2 (by with_reducible assumption) ?_))

theorem keeps_State_decide1 {P : State → Prop} (hP : K0 P) {s n b} (h_s : P s) :
    P (State.decide1 s n b) := by
  unfold State.decide1
  repeat' (first
    | with_reducible assumption
    | with_reducible apply keeps_State_wakeDom
    | with_reducible apply keeps_State_tunData
    | with_reducible apply keeps_State_setSes
    | with_reducible apply keeps_State_sessReply
    | with_reducible apply keeps_State_sessSend
    | (extract_lets +onlyGivenNames x; (have hx : P x := ?_); clear_value x; revert x; intro y hy; rotate_left; unfold x; clear x)
    | (extract_lets +onlyGivenNames x; clear_value x; revert x; intro y)
    | with_reducible apply keeps_ite
    | split)

theorem keeps_execGateDecision {P : State → Prop} (hP : K0 P) {n s} (h_s : P s) :
    OutP P ((execGateDecision n s)) := by
  unfold execGateDecision
  repeat' (first
    | with_reducible assumption
    | with_reducible apply keeps_State_setSes
    | with_reducible apply keeps_State_decide1
    | with_reducible apply OutP.next
    | (extract_lets +onlyGivenNames x; clear_value x; revert x; intro y)
    | with_reducible apply outP_ite
    | split)

theorem keeps_execRecordRx {P : State → Prop} (hP : Km P) {n ct m s} (h_s : P s) :
    OutP P ((execRecordRx n ct m s)) := by
  unfold execRecordRx
  have h0 := hP.toK0
  repeat' (first
    | with_reducible assumption
    | with_reducible apply keeps_State_ethFrame
    | with_reducible apply keeps_State_setSes
    | with_reducible apply keeps_State_wakeDom
    | with_reducible apply keeps_State_closeSess
    | with_reducible apply OutP.next
    | (extract_lets +onlyGivenNames x; (have hx : P x := ?_); clear_value x; revert x; intro y hy; rotate_left; unfold x; clear x)
    | (extract_lets +onlyGivenNames x; clear_value x; revert x; intro y)
    | with_reducible apply keeps_ite
    | with_reducible apply outP_ite
    | split)

theorem keeps_execConnectionArrival {P : State → Prop} (hP : Km P) {k data s} (h_s : P s) :
    OutP P ((execConnectionArrival k data s)) := by
  unfold execConnectionArrival
  have h0 := hP.toK0
  repeat' (first
    | with_reducible assumption
    | with_reducible apply keeps_State_ethFrame
    | with_reducible apply keeps_State_setEth
    | with_reducible apply keeps_State_free
    | with_reducible apply keeps_State_incSat
    | with_reducible apply keeps_State_err
    | with_reducible apply keeps_State_send
    | with_reducible apply keeps_State_inc
    | with_reducible apply OutP.next
    | (extract_lets +onlyGivenNames x; (have hx : P x := ?_); clear_value x; revert x; intro y hy; rotate_left; unfold x; clear x)
    | (extract_lets +onlyGivenNames x; (have hx : P x.2 := ?_); clear_value x; revert x; intro y hy; rotate_left; unfold x; clear x)
    | (extract_lets +onlyGivenNames x; clear_value x; revert x; intro y)
    | with_reducible apply outP_ite)

end Sys2Proof.Machine
end

