-- ==== Sys2Proof/Laws/KReckSys.lean ====
section
/-! SUPPORT. What the operations of Machine.ReckSys keep. -/

namespace Sys2Proof.Machine

open Host (Outcome)

theorem keeps_State_frees {P : State → Prop} (hP : K0 P) {y0 y1} (h_y1 : P y1) :
    P ((State.frees y0 y1)).2 := by
  induction y0 generalizing y1
  case' succ n ih => skip
  all_goals first | unfold State.frees | skip
  all_goals repeat' (first
    | with_reducible assumption
    | with_reducible apply ih
    | with_reducible apply keeps_State_free)

theorem keeps_State_setPc {P : State → Prop} (hP : K0 P) {s k pc} (h_s : P s) :
    P (State.setPc s k pc) := by
  unfold State.setPc
  repeat' (first
    | with_reducible assumption
    | with_reducible apply keeps_State_setReckX)

theorem keeps_State_nextPc {P : State → Prop} (hP : K0 P) {s k} (h_s : P s) :
    P (State.nextPc s k) := by
  unfold State.nextPc
  repeat' (first
    | with_reducible assumption
    | with_reducible apply keeps_State_setPc)

theorem keeps_execWaitf {P : State → Prop} (hP : K0 P) {k s} (h_s : P s) :
    OutP P ((execWaitf k s)) := by
  unfold execWaitf
  repeat' (first
    | with_reducible assumption
    | with_reducible apply keeps_State_setReckX
    | with_reducible apply keeps_State_setRkSt
    | with_reducible apply keeps_State_waitTake
    | with_reducible apply keeps_State_busyEnd
    | with_reducible apply keeps_State_trapHere
    | with_reducible apply keeps_State_instr
    | with_reducible apply OutP.next
    | with_reducible intro _
    | (extract_lets +onlyGivenNames x; (have hx : P x := ?_); clear_value x; revert x; intro y hy; rotate_left; unfold x; clear x)
    | (extract_lets +onlyGivenNames x; clear_value x; revert x; intro y)
    | with_reducible apply keeps_ite
    | split)

theorem keeps_execTrap {P : State → Prop} (hP : K0 P) {k s} (h_s : P s) :
    OutP P ((execTrap k s)) := by
  unfold execTrap
  repeat' (first
    | with_reducible assumption
    | with_reducible apply keeps_State_reckTrap
    | with_reducible apply keeps_State_instr
    | with_reducible apply OutP.next
    | with_reducible intro _)

theorem keeps_execRet {P : State → Prop} (hP : K0 P) {k s} (h_s : P s) :
    OutP P ((execRet k s)) := by
  unfold execRet
  repeat' (first
    | with_reducible assumption
    | with_reducible apply keeps_State_reckRet
    | with_reducible apply keeps_State_instr
    | with_reducible apply OutP.next
    | with_reducible intro _)

theorem keeps_execCallr {P : State → Prop} (hP : K0 P) {k s} (h_s : P s) :
    OutP P ((execCallr k s)) := by
  unfold execCallr
  repeat' (first
    | with_reducible assumption
    | with_reducible apply keeps_State_reckCall
    | with_reducible apply keeps_State_instr
    | with_reducible apply OutP.next
    | with_reducible intro _)

theorem keeps_execJr {P : State → Prop} (hP : K0 P) {k s} (h_s : P s) :
    OutP P ((execJr k s)) := by
  unfold execJr
  repeat' (first
    | with_reducible assumption
    | with_reducible apply keeps_State_setPc
    | with_reducible apply keeps_State_instr
    | with_reducible apply OutP.next
    | with_reducible intro _)

theorem keeps_execMts {P : State → Prop} (hP : K0 P) {k s} (h_s : P s) :
    OutP P ((execMts k s)) := by
  unfold execMts
  repeat' (first
    | with_reducible assumption
    | with_reducible apply keeps_State_setReckX
    | with_reducible apply keeps_State_nextPc
    | with_reducible apply keeps_State_instr
    | with_reducible apply OutP.next
    | with_reducible intro _)

theorem keeps_State_special {P : State → Prop} (hP : K0 P) {s k n} (h_s : P s) :
    P ((State.special s k n)).2 := by
  unfold State.special
  repeat' (first
    | with_reducible assumption
    | with_reducible apply keeps_State_free
    | (extract_lets +onlyGivenNames x; clear_value x; revert x; intro y)
    | split)

theorem keeps_execMfs {P : State → Prop} (hP : K0 P) {k s} (h_s : P s) :
    OutP P ((execMfs k s)) := by
  unfold execMfs
  repeat' (first
    | with_reducible assumption
    | with_reducible apply keeps_State_finishI
    | with_reducible apply keeps_State_special
    | with_reducible apply keeps_State_instr
    | with_reducible apply OutP.next
    | with_reducible intro _)

theorem keeps_execNop {P : State → Prop} (hP : K0 P) {k s} (h_s : P s) :
    OutP P ((execNop k s)) := by
  unfold execNop
  repeat' (first
    | with_reducible assumption
    | with_reducible apply keeps_State_nextPc
    | with_reducible apply keeps_State_instr
    | with_reducible apply OutP.next
    | with_reducible intro _)

theorem keeps_execCall {P : State → Prop} (hP : K0 P) {k s} (h_s : P s) :
    OutP P ((execCall k s)) := by
  unfold execCall
  repeat' (first
    | with_reducible assumption
    | with_reducible apply keeps_State_reckCall
    | with_reducible apply keeps_State_instr
    | with_reducible apply OutP.next
    | with_reducible intro _)

theorem keeps_execBnz {P : State → Prop} (hP : K0 P) {k s} (h_s : P s) :
    OutP P ((execBnz k s)) := by
  unfold execBnz
  repeat' (first
    | with_reducible assumption
    | with_reducible apply keeps_State_setPc
    | with_reducible apply keeps_State_nextPc
    | with_reducible apply keeps_State_instr
    | with_reducible apply OutP.next
    | with_reducible intro _
    | with_reducible apply keeps_ite)

theorem keeps_execBz {P : State → Prop} (hP : K0 P) {k s} (h_s : P s) :
    OutP P ((execBz k s)) := by
  unfold execBz
  repeat' (first
    | with_reducible assumption
    | with_reducible apply keeps_State_nextPc
    | with_reducible apply keeps_State_setPc
    | with_reducible apply keeps_State_instr
    | with_reducible apply OutP.next
    | with_reducible intro _
    | with_reducible apply keeps_ite)

theorem keeps_execBrc {P : State → Prop} (hP : K0 P) {k s} (h_s : P s) :
    OutP P ((execBrc k s)) := by
  unfold execBrc
  repeat' (first
    | with_reducible assumption
    | with_reducible apply keeps_State_nextPc
    | with_reducible apply keeps_State_setPc
    | with_reducible apply keeps_State_instr
    | with_reducible apply OutP.next
    | with_reducible intro _
    | with_reducible apply keeps_ite)

theorem keeps_State_placeWrite {P : State → Prop} (hP : K1 P) {s k pl v} (h_s : P s) :
    P (State.placeWrite s k pl v) := by
  unfold State.placeWrite
  have hm := hP.toKm
  have h0 := hm.toK0
  repeat' (first
    | with_reducible assumption
    | with_reducible apply keeps_State_setCommon
    | with_reducible apply keeps_State_setReckWord
    | split)

theorem keeps_State_pidfAt {P : State → Prop} (hP : K1 P) {s k w pl} (h_s : P s) :
    P (State.pidfAt s k w pl) := by
  unfold State.pidfAt
  have hm := hP.toKm
  have h0 := hm.toK0
  repeat' (first
    | with_reducible assumption
    | with_reducible apply keeps_State_finishI
    | with_reducible apply keeps_State_placeWrite
    | with_reducible apply keeps_foldl
    | with_reducible intro _
    | split)

theorem keeps_execPidf {P : State → Prop} (hP : K1 P) {k ecc s} (h_s : P s) :
    OutP P ((execPidf k ecc s)) := by
  unfold execPidf
  have hm := hP.toKm
  have h0 := hm.toK0
  repeat' (first
    | with_reducible assumption
    | with_reducible apply keeps_State_pidfAt
    | with_reducible apply keeps_State_dramEcc
    | with_reducible apply keeps_State_trapHere
    | with_reducible apply keeps_State_instr
    | with_reducible apply OutP.next
    | with_reducible intro _
    | with_reducible apply keeps_ite
    | split)

theorem keeps_State_helper {P : State → Prop} (hP : K0 P) {s k fn n legal f} (h_s : P s) :
    P (State.helper s k fn n legal f) := by
  unfold State.helper
  repeat' (first
    | with_reducible assumption
    | with_reducible apply keeps_State_finishI
    | with_reducible apply keeps_State_frees
    | with_reducible apply keeps_State_instr
    | with_reducible intro _)

theorem keeps_execIpark {P : State → Prop} (hP : K0 P) {k s} (h_s : P s) :
    OutP P ((execIpark k s)) := by
  unfold execIpark
  repeat' (first
    | with_reducible assumption
    | with_reducible apply keeps_State_helper
    | with_reducible apply OutP.next)

theorem keeps_execPark {P : State → Prop} (hP : K0 P) {k s} (h_s : P s) :
    OutP P ((execPark k s)) := by
  unfold execPark
  repeat' (first
    | with_reducible assumption
    | with_reducible apply keeps_State_helper
    | with_reducible apply OutP.next)

theorem keeps_execIclarke {P : State → Prop} (hP : K0 P) {k s} (h_s : P s) :
    OutP P ((execIclarke k s)) := by
  unfold execIclarke
  repeat' (first
    | with_reducible assumption
    | with_reducible apply keeps_State_helper
    | with_reducible apply OutP.next)

theorem keeps_execClarke {P : State → Prop} (hP : K0 P) {k s} (h_s : P s) :
    OutP P ((execClarke k s)) := by
  unfold execClarke
  repeat' (first
    | with_reducible assumption
    | with_reducible apply keeps_State_helper
    | with_reducible apply OutP.next)

theorem keeps_execSincos {P : State → Prop} (hP : K0 P) {k s} (h_s : P s) :
    OutP P ((execSincos k s)) := by
  unfold execSincos
  repeat' (first
    | with_reducible assumption
    | with_reducible apply keeps_State_helper
    | with_reducible apply OutP.next)

theorem keeps_execIllegalInstruction {P : State → Prop} (hP : K0 P) {k ecc s} (h_s : P s) :
    OutP P ((execIllegalInstruction k ecc s)) := by
  unfold execIllegalInstruction
  repeat' (first
    | with_reducible assumption
    | with_reducible apply keeps_State_eccCorrected
    | with_reducible apply keeps_State_reckFatal
    | with_reducible apply keeps_State_trapHere
    | with_reducible apply OutP.next
    | with_reducible apply keeps_ite
    | with_reducible apply outP_ite
    | split)

end Sys2Proof.Machine
end

