-- ==== Sys2Proof/Laws/KLoopCore.lean ====
section
/-! SUPPORT. What the operations of Machine.LoopCore keep. -/

namespace Sys2Proof.Machine

open Host (Outcome)

theorem keeps_State_loopApplied {P : State → Prop} (hP : K0 P) {s0 s n} (h_s0 : P s0) (h_s : P s) :
    P (State.loopApplied s0 s n) := by
  unfold State.loopApplied
  repeat' (first
    | with_reducible assumption
    | with_reducible apply keeps_State_set
    | with_reducible apply keeps_State_setReg
    | with_reducible apply keeps_foldl
    | with_reducible intro _
    | (extract_lets +onlyGivenNames x; (have hx : P x := ?_); clear_value x; revert x; intro y hy; rotate_left; unfold x; clear x)
    | (extract_lets +onlyGivenNames x; clear_value x; revert x; intro y)
    | with_reducible apply keeps_ite)

theorem keeps_State_loopDisable {P : State → Prop} (hP : K0 P) {s n} (h_s : P s) :
    P (State.loopDisable s n) := by
  unfold State.loopDisable
  repeat' (first
    | with_reducible assumption
    | with_reducible apply keeps_State_set
    | with_reducible apply keeps_State_setLoop)

theorem keeps_State_setLp {P : State → Prop} (hP : K0 P) {s n off v} (h_s : P s) :
    P (State.setLp s n off v) := by
  unfold State.setLp
  repeat' (first
    | with_reducible assumption
    | with_reducible apply keeps_State_setReg)

theorem keeps_State_loopEnable {P : State → Prop} (hP : K0 P) {s n} (h_s : P s) :
    P (State.loopEnable s n) := by
  unfold State.loopEnable
  repeat' (first
    | with_reducible assumption
    | with_reducible apply keeps_State_setLoop
    | with_reducible apply keeps_State_setLp)

theorem keeps_State_binWrite {P : State → Prop} (hP : K0 P) {s w n b v} (h_s : P s) :
    P ((State.binWrite s w n b v)).1 := by
  unfold State.binWrite
  repeat' (first
    | with_reducible assumption
    | with_reducible apply keeps_State_setWord
    | with_reducible apply keeps_refuse
    | with_reducible apply keeps_State_actionWrite
    | with_reducible intro _
    | with_reducible apply keeps_ite1)

theorem keeps_State_loopRegWrite {P : State → Prop} (hP : K0 P) {s n off v} (h_s : P s) :
    OptP (fun r => P (r).1) ((State.loopRegWrite s n off v)) := by
  unfold State.loopRegWrite
  repeat' (first
    | with_reducible assumption
    | with_reducible apply keeps_refuse
    | with_reducible apply keeps_State_set
    | with_reducible apply keeps_State_setLoop
    | with_reducible apply keeps_State_setReg
    | with_reducible exact OptP.none
    | with_reducible apply OptP.some
    | with_reducible intro _
    | with_reducible apply hf0
    | (extract_lets +onlyGivenNames x; (have hx : ∀ a, P a → P (x a) := ?_); clear_value x; revert x; intro y hf0; rotate_left; unfold x; clear x)
    | (extract_lets +onlyGivenNames x; (have hx : P x := ?_); clear_value x; revert x; intro y hy; rotate_left; unfold x; clear x)
    | (extract_lets +onlyGivenNames x; clear_value x; revert x; intro y)
    | with_reducible apply keeps_ite
    | with_reducible apply optP_ite
    | fail_if_no_progress with_reducible refine hP.updKeep ?_)

theorem keeps_State_trig {P : State → Prop} (hP : K0 P) {s th} (h_s : P s) :
    P ((State.trig s th)).2 := by
  unfold State.trig
  repeat' (first
    | with_reducible assumption
    | with_reducible apply keeps_State_frees)

theorem keeps_State_loopWriteCmd {P : State → Prop} (hP : K0 P) {s w n off v} (h_s : P s) :
    P (State.loopWriteCmd s w n off v) := by
  unfold State.loopWriteCmd
  repeat' (first
    | with_reducible assumption
    | with_reducible apply keeps_State_loopRegWrite
    | with_reducible apply keeps_State_actionWrite
    | with_reducible apply keeps_finish
    | with_reducible intro _
    | with_reducible apply optP_getD1)

theorem keeps_execMOfsWrite {P : State → Prop} (hP : K0 P) {w n v s} (h_s : P s) :
    OutP P ((execMOfsWrite w n v s)) := by
  unfold execMOfsWrite
  repeat' (first
    | with_reducible assumption
    | with_reducible apply keeps_State_loopWriteCmd
    | with_reducible apply OutP.next)

theorem keeps_execLrnClr {P : State → Prop} (hP : K0 P) {w n v s} (h_s : P s) :
    OutP P ((execLrnClr w n v s)) := by
  unfold execLrnClr
  repeat' (first
    | with_reducible assumption
    | with_reducible apply keeps_State_loopWriteCmd
    | with_reducible apply OutP.next)

theorem keeps_execLearnerBinWrite {P : State → Prop} (hP : K0 P) {w n b v s} (h_s : P s) :
    OutP P ((execLearnerBinWrite w n b v s)) := by
  unfold execLearnerBinWrite
  repeat' (first
    | with_reducible assumption
    | with_reducible apply keeps_State_binWrite
    | with_reducible apply keeps_finish
    | with_reducible apply OutP.next)

theorem keeps_execThetaWrite {P : State → Prop} (hP : K0 P) {w n v s} (h_s : P s) :
    OutP P ((execThetaWrite w n v s)) := by
  unfold execThetaWrite
  repeat' (first
    | with_reducible assumption
    | with_reducible apply keeps_State_loopWriteCmd
    | with_reducible apply OutP.next)

theorem keeps_execAngleStageWrite {P : State → Prop} (hP : K0 P) {w n omega v s} (h_s : P s) :
    OutP P ((execAngleStageWrite w n omega v s)) := by
  unfold execAngleStageWrite
  repeat' (first
    | with_reducible assumption
    | with_reducible apply keeps_State_loopWriteCmd
    | with_reducible apply OutP.next)

theorem keeps_execIrefQWrite {P : State → Prop} (hP : K0 P) {w n v s} (h_s : P s) :
    OutP P ((execIrefQWrite w n v s)) := by
  unfold execIrefQWrite
  repeat' (first
    | with_reducible assumption
    | with_reducible apply keeps_State_loopWriteCmd
    | with_reducible apply OutP.next)

theorem keeps_execIrefDWrite {P : State → Prop} (hP : K0 P) {w n v s} (h_s : P s) :
    OutP P ((execIrefDWrite w n v s)) := by
  unfold execIrefDWrite
  repeat' (first
    | with_reducible assumption
    | with_reducible apply keeps_State_loopWriteCmd
    | with_reducible apply OutP.next)

theorem keeps_State_learn {P : State → Prop} (hP : K0 P) {s n k qOnly td tq} (h_s : P s) :
    P (State.learn s n k qOnly td tq) := by
  unfold State.learn
  repeat' (first
    | with_reducible assumption
    | with_reducible apply keeps_State_set
    | with_reducible apply keeps_State_setReg
    | with_reducible apply keeps_State_incSat)

theorem keeps_State_loopFilt {P : State → Prop} (hP : K0 P) {s n r x} (h_s : P s) :
    P ((State.loopFilt s n r x)).2 := by
  unfold State.loopFilt
  repeat' (first
    | with_reducible assumption
    | with_reducible apply keeps_State_setReg
    | with_reducible intro _
    | with_reducible apply hf9
    | (extract_lets +onlyGivenNames x; (have hx : ∀ a b c, P a → P (x a b c) := ?_); clear_value x; revert x; intro y hf9; rotate_left; unfold x; clear x)
    | (extract_lets +onlyGivenNames x; clear_value x; revert x; intro y)
    | with_reducible apply keeps_ite2)

theorem keeps_State_loopMark {P : State → Prop} (hP : K0 P) {s n t0} (h_s : P s) :
    P (State.loopMark s n t0) := by
  unfold State.loopMark
  repeat' (first
    | with_reducible assumption
    | with_reducible apply keeps_State_setLoop
    | with_reducible apply keeps_State_incSat
    | with_reducible apply keeps_State_set
    | with_reducible apply keeps_State_err
    | with_reducible apply keeps_State_ev
    | (extract_lets +onlyGivenNames x; clear_value x; revert x; intro y)
    | with_reducible apply keeps_ite)

theorem keeps_execLoopRun {P : State → Prop} (hP : K0 P) {n s} (h_s : P s) :
    OutP P ((execLoopRun n s)) := by
  unfold execLoopRun
  repeat' (first
    | with_reducible assumption
    | with_reducible apply keeps_State_setLoop
    | with_reducible apply keeps_State_loopMark
    | with_reducible apply OutP.next
    | (extract_lets +onlyGivenNames x; clear_value x; revert x; intro y)
    | split)

theorem keeps_State_angAge {P : State → Prop} (hP : K0 P) {s n} (h_s : P s) :
    P (State.angAge s n) := by
  unfold State.angAge
  repeat' (first
    | with_reducible assumption
    | with_reducible apply keeps_State_set
    | with_reducible apply keeps_State_err
    | with_reducible apply keeps_State_ev
    | with_reducible apply keeps_State_setLoop
    | (extract_lets +onlyGivenNames x; (have hx : P x := ?_); clear_value x; revert x; intro y hy; rotate_left; unfold x; clear x)
    | (extract_lets +onlyGivenNames x; clear_value x; revert x; intro y)
    | with_reducible apply keeps_ite)

end Sys2Proof.Machine
end

