-- ==== Sys2Proof/Laws/KMbusCore.lean ====
section
/-! SUPPORT. What the operations of Machine.MbusCore keep. -/

namespace Sys2Proof.Machine

open Host (Outcome)

theorem keeps_State_mpePush {P : State → Prop} (hP : K0 P) {s n l} (h_s : P s) :
    P (State.mpePush s n l) := by
  unfold State.mpePush
  repeat' (first
    | with_reducible assumption
    | with_reducible apply keeps_State_setMb
    | with_reducible apply keeps_State_offerNew)

theorem keeps_State_mpeSend {P : State → Prop} (hP : K0 P) {s n cls addr opc payload} (h_s : P s) :
    P (State.mpeSend s n cls addr opc payload) := by
  unfold State.mpeSend
  repeat' (first
    | with_reducible assumption
    | with_reducible apply keeps_State_mpePush
    | with_reducible apply keeps_State_free)

theorem keeps_State_routinePlan {P : State → Prop} (hP : K0 P) {s n addr} (h_s : P s) :
    P (State.routinePlan s n addr) := by
  unfold State.routinePlan
  repeat' (first
    | with_reducible assumption
    | with_reducible apply keeps_State_mpeSend)

theorem keeps_State_entropy {P : State → Prop} (hP : K0 P) {y0 y1} (h_y1 : P y1) :
    P ((State.entropy y0 y1)).2 := by
  induction y0 generalizing y1
  case' succ n ih => skip
  all_goals first | unfold State.entropy | skip
  all_goals repeat' (first
    | with_reducible assumption
    | with_reducible apply ih
    | with_reducible apply keeps_State_free)

theorem keeps_State_challenge {P : State → Prop} (hP : K0 P) {s n a life tries} (h_s : P s) :
    P (State.challenge s n a life tries) := by
  unfold State.challenge
  repeat' (first
    | with_reducible assumption
    | with_reducible apply keeps_State_mpeSend
    | with_reducible apply keeps_State_setMb
    | with_reducible apply keeps_State_entropy)

theorem keeps_State_challengeAll {P : State → Prop} (hP : K0 P) {s n life} (h_s : P s) :
    P (State.challengeAll s n life) := by
  unfold State.challengeAll
  repeat' (first
    | with_reducible assumption
    | with_reducible apply keeps_State_challenge
    | with_reducible apply keeps_foldl
    | with_reducible intro _)

theorem keeps_State_mbActive {P : State → Prop} (hP : K0 P) {s n back} (h_s : P s) :
    P (State.mbActive s n back) := by
  unfold State.mbActive
  repeat' (first
    | with_reducible assumption
    | with_reducible apply keeps_State_offerNew
    | with_reducible apply keeps_State_routinePlan
    | with_reducible apply keeps_State_challengeAll
    | with_reducible apply keeps_State_setMb
    | with_reducible apply keeps_State_mpeSend
    | with_reducible apply keeps_State_setMbSt
    | (extract_lets +onlyGivenNames x; (have hx : P x := ?_); clear_value x; revert x; intro y hy; rotate_left; unfold x; clear x)
    | (extract_lets +onlyGivenNames x; clear_value x; revert x; intro y)
    | with_reducible apply keeps_ite)

theorem keeps_State_nextCand {P : State → Prop} (hP : K0 P) {s n i} (h_s : P s) :
    P (State.nextCand s n i) := by
  unfold State.nextCand
  repeat' (first
    | with_reducible assumption
    | with_reducible apply keeps_State_err
    | with_reducible apply keeps_State_set
    | with_reducible apply keeps_State_setMb
    | (extract_lets +onlyGivenNames x; (have hx : P x := ?_); clear_value x; revert x; intro y hy; rotate_left; unfold x; clear x)
    | (extract_lets +onlyGivenNames x; clear_value x; revert x; intro y)
    | with_reducible apply keeps_ite
    | split)

theorem keeps_State_mbusStart {P : State → Prop} (hP : K0 P) {s n} (h_s : P s) :
    P (State.mbusStart s n) := by
  unfold State.mbusStart
  repeat' (first
    | with_reducible assumption
    | with_reducible apply keeps_State_mbActive
    | with_reducible apply keeps_State_setMbSt
    | with_reducible apply keeps_State_nextCand
    | with_reducible apply keeps_State_set
    | with_reducible apply keeps_State_setMb
    | with_reducible apply keeps_foldl
    | with_reducible intro _
    | (extract_lets +onlyGivenNames x; (have hx : P x := ?_); clear_value x; revert x; intro y hy; rotate_left; unfold x; clear x)
    | (extract_lets +onlyGivenNames x; clear_value x; revert x; intro y)
    | with_reducible apply keeps_ite)

theorem keeps_State_mbusAwake {P : State → Prop} (hP : K0 P) {s n watch} (h_s : P s) :
    P (State.mbusAwake s n watch) := by
  unfold State.mbusAwake
  repeat' (first
    | with_reducible assumption
    | with_reducible apply keeps_State_ev
    | with_reducible apply keeps_State_mbActive
    | with_reducible apply keeps_State_incF
    | with_reducible apply keeps_State_setMb
    | with_reducible apply keeps_State_set
    | (extract_lets +onlyGivenNames x; clear_value x; revert x; intro y)
    | with_reducible apply keeps_ite)

theorem keeps_State_mbusDieActive {P : State → Prop} (hP : K0 P) {s n} (h_s : P s) :
    P (State.mbusDieActive s n) := by
  unfold State.mbusDieActive
  repeat' (first
    | with_reducible assumption
    | with_reducible apply keeps_State_mbusStart
    | with_reducible apply keeps_State_mbusAwake
    | with_reducible apply keeps_ite)

theorem keeps_State_mbAsleep {P : State → Prop} (hP : K0 P) {s n} (h_s : P s) :
    P (State.mbAsleep s n) := by
  unfold State.mbAsleep
  repeat' (first
    | with_reducible assumption
    | with_reducible apply keeps_State_setMb
    | with_reducible apply keeps_State_setMbSt
    | with_reducible apply keeps_State_setReg)

theorem keeps_State_mbusRest {P : State → Prop} (hP : K0 P) {s n} (h_s : P s) :
    P (State.mbusRest s n) := by
  unfold State.mbusRest
  repeat' (first
    | with_reducible assumption
    | with_reducible apply keeps_State_setMb
    | with_reducible apply keeps_State_setMbSt
    | with_reducible apply keeps_State_mbAsleep
    | (extract_lets +onlyGivenNames x; clear_value x; revert x; intro y)
    | with_reducible apply keeps_ite)

theorem keeps_State_busError {P : State → Prop} (hP : K0 P) {s n} (h_s : P s) :
    P (State.busError s n) := by
  unfold State.busError
  repeat' (first
    | with_reducible assumption
    | with_reducible apply keeps_State_incF)

theorem keeps_State_setModX {P : State → Prop} (hP : K0 P) {s n a x} (h_s : P s) :
    P (State.setModX s n a x) := by
  unfold State.setModX
  repeat' (first
    | with_reducible assumption
    | with_reducible apply keeps_State_setMb)

theorem keeps_State_msgRing {P : State → Prop} (hP : Km P) {s n kind addr cls opc flags t body} (h_s : P s) :
    P (State.msgRing s n kind addr cls opc flags t body) := by
  unfold State.msgRing
  have h0 := hP.toK0
  repeat' (first
    | with_reducible assumption
    | with_reducible apply keeps_State_incF
    | with_reducible apply keeps_State_err
    | with_reducible apply keeps_State_setReg
    | with_reducible apply keeps_State_ev
    | with_reducible apply keeps_State_ringPut
    | (extract_lets +onlyGivenNames x; clear_value x; revert x; intro y)
    | with_reducible apply keeps_ite
    | split
    | (refine opt1 (by with_reducible assumption) ?_))

theorem keeps_State_msgToRing {P : State → Prop} (hP : Km P) {s n m flags} (h_s : P s) :
    P (State.msgToRing s n m flags) := by
  unfold State.msgToRing
  have h0 := hP.toK0
  repeat' (first
    | with_reducible assumption
    | with_reducible apply keeps_State_msgRing)

theorem keeps_State_msgDrop {P : State → Prop} (hP : K0 P) {s n long} (h_s : P s) :
    P (State.msgDrop s n long) := by
  unfold State.msgDrop
  repeat' (first
    | with_reducible assumption
    | with_reducible apply keeps_State_incF
    | with_reducible apply keeps_State_err)

theorem keeps_State_closeMsg {P : State → Prop} (hP : K0 P) {s n a c} (h_s : P s) :
    P (State.closeMsg s n a c) := by
  unfold State.closeMsg
  repeat' (first
    | with_reducible assumption
    | with_reducible apply keeps_State_setMb)

theorem keeps_State_busOffCheck {P : State → Prop} (hP : K0 P) {s n} (h_s : P s) :
    P (State.busOffCheck s n) := by
  unfold State.busOffCheck
  repeat' (first
    | with_reducible assumption
    | with_reducible apply keeps_State_setMbSt
    | with_reducible apply keeps_State_err
    | with_reducible apply keeps_State_incF
    | with_reducible apply keeps_State_showEcr
    | with_reducible apply keeps_State_setMb
    | (extract_lets +onlyGivenNames x; (have hx : P x := ?_); clear_value x; revert x; intro y hy; rotate_left; unfold x; clear x)
    | (extract_lets +onlyGivenNames x; clear_value x; revert x; intro y)
    | with_reducible apply keeps_ite)

theorem keeps_State_msgTake {P : State → Prop} (hP : K0 P) {s n m last} (h_s : P s) :
    P (State.msgTake s n m last) := by
  unfold State.msgTake
  repeat' (first
    | with_reducible assumption
    | with_reducible apply keeps_State_msgDrop
    | with_reducible apply keeps_State_setMb
    | with_reducible apply keeps_State_closeMsg
    | (extract_lets +onlyGivenNames x; (have hx : P x := ?_); clear_value x; revert x; intro y hy; rotate_left; unfold x; clear x)
    | (extract_lets +onlyGivenNames x; clear_value x; revert x; intro y)
    | with_reducible apply keeps_ite)

theorem keeps_State_firstSeen {P : State → Prop} (hP : K0 P) {s n a} (h_s : P s) :
    P (State.firstSeen s n a) := by
  unfold State.firstSeen
  repeat' (first
    | with_reducible assumption
    | with_reducible apply keeps_State_challenge
    | with_reducible apply keeps_State_set
    | with_reducible apply keeps_State_routinePlan
    | (extract_lets +onlyGivenNames x; (have hx : P x := ?_); clear_value x; revert x; intro y hy; rotate_left; unfold x; clear x)
    | (extract_lets +onlyGivenNames x; clear_value x; revert x; intro y)
    | with_reducible apply keeps_ite)

theorem keeps_State_rawRing {P : State → Prop} (hP : Km P) {s n r} (h_s : P s) :
    P (State.rawRing s n r) := by
  unfold State.rawRing
  have h0 := hP.toK0
  repeat' (first
    | with_reducible assumption
    | with_reducible apply keeps_State_msgRing)

theorem keeps_State_mpeFrame {P : State → Prop} (hP : Km P) {s n r} (h_s : P s) :
    P (State.mpeFrame s n r) := by
  unfold State.mpeFrame
  have h0 := hP.toK0
  repeat' (first
    | with_reducible assumption
    | with_reducible apply keeps_State_msgTake
    | with_reducible apply keeps_State_msgDrop
    | with_reducible apply keeps_State_closeMsg
    | with_reducible apply keeps_State_firstSeen
    | with_reducible apply keeps_State_rawRing
    | (extract_lets +onlyGivenNames x; (have hx : P x := ?_); clear_value x; revert x; intro y hy; rotate_left; unfold x; clear x)
    | (extract_lets +onlyGivenNames x; clear_value x; revert x; intro y)
    | with_reducible apply keeps_ite
    | split)

theorem keeps_State_canRx {P : State → Prop} (hP : Km P) {s n f sof} (h_s : P s) :
    P (State.canRx s n f sof) := by
  have h0 := hP.toK0
  unfold State.canRx
  extract_lets p x fr
  clear_value x
  split
  rename_i r' s' e
  have h1 : P s' := by
    split at e
    · exact snd_of e (keeps_State_free h0 h_s)
    · exact snd_of e h_s
  clear e
  extract_lets y s2 y2
  have h2 : P s2 := keeps_State_showEcr h0 (keeps_State_setMb h0 h1)
  clear_value s2
  refine keeps_ite (keeps_State_incSat h0 h2) ?_
  split
  · exact keeps_State_incSat h0 h2
  · repeat' (first
      | with_reducible assumption
      | with_reducible exact h0
      | with_reducible apply keeps_ite
      | with_reducible apply keeps_State_incF
      | with_reducible apply keeps_State_err
      | with_reducible apply keeps_State_mpeFrame
      | with_reducible apply keeps_State_setMb
      | with_reducible apply keeps_State_mbusLevels)

theorem keeps_State_detectGood {P : State → Prop} (hP : K0 P) {s n brs} (h_s : P s) :
    P (State.detectGood s n brs) := by
  unfold State.detectGood
  repeat' (first
    | with_reducible assumption
    | with_reducible apply keeps_State_mbActive
    | with_reducible apply keeps_State_set
    | with_reducible apply keeps_State_ev
    | with_reducible apply keeps_State_setWord
    | with_reducible apply keeps_State_setMb
    | (extract_lets +onlyGivenNames x; (have hx : P x := ?_); clear_value x; revert x; intro y hy; rotate_left; unfold x; clear x)
    | (extract_lets +onlyGivenNames x; clear_value x; revert x; intro y)
    | with_reducible apply keeps_ite)

end Sys2Proof.Machine
end

