-- ==== Sys2Proof/Laws/KCea.lean ====
section
/-! SUPPORT. What the operations of Machine.Cea keep. -/

namespace Sys2Proof.Machine

open Host (Outcome)

theorem keeps_State_writeWeights {P : State → Prop} (hP : K0 P) {s zero} (h_s : P s) :
    P (State.writeWeights s zero) := by
  unfold State.writeWeights
  repeat' (first
    | with_reducible assumption
    | with_reducible apply keeps_State_setReg
    | with_reducible apply keeps_State_placeRun
    | with_reducible apply keeps_foldl
    | with_reducible intro _
    | with_reducible apply keeps_ite)

theorem keeps_State_ceaDisable {P : State → Prop} (hP : K0 P) {s} (h_s : P s) :
    P (State.ceaDisable s) := by
  unfold State.ceaDisable
  repeat' (first
    | with_reducible assumption
    | with_reducible apply keeps_State_set
    | with_reducible apply keeps_State_writeWeights
    | with_reducible apply keeps_ite)

theorem keeps_State_ceaEnable {P : State → Prop} (hP : K0 P) {s} (h_s : P s) :
    P (State.ceaEnable s) := by
  unfold State.ceaEnable
  repeat' (first
    | with_reducible assumption
    | with_reducible apply keeps_State_err
    | with_reducible apply keeps_State_set
    | (extract_lets +onlyGivenNames x; (have hx : P x := ?_); clear_value x; revert x; intro y hy; rotate_left; unfold x; clear x)
    | (extract_lets +onlyGivenNames x; clear_value x; revert x; intro y)
    | with_reducible apply keeps_ite)

theorem keeps_State_setCea {P : State → Prop} (hP : K0 P) {s x} (h_s : P s) :
    P (State.setCea s x) := by
  unfold State.setCea
  repeat' (first
    | with_reducible assumption
    | fail_if_no_progress with_reducible refine hP.upd ?_)

theorem keeps_State_cellCmd {P : State → Prop} (hP : K0 P) {s v} (h_s : P s) :
    P (State.cellCmd s v) := by
  unfold State.cellCmd
  repeat' (first
    | with_reducible assumption
    | with_reducible apply keeps_State_setCea)

theorem keeps_State_ceaRegWrite {P : State → Prop} (hP : K0 P) {s off v} (h_s : P s) :
    OptP (fun r => P (r).1) ((State.ceaRegWrite s off v)) := by
  unfold State.ceaRegWrite
  repeat' (first
    | with_reducible assumption
    | with_reducible apply keeps_State_cellCmd
    | with_reducible exact OptP.none
    | with_reducible apply OptP.some
    | with_reducible apply optP_ite)

theorem keeps_State_setCell {P : State → Prop} (hP : K0 P) {s c x} (h_s : P s) :
    P (State.setCell s c x) := by
  unfold State.setCell
  repeat' (first
    | with_reducible assumption
    | fail_if_no_progress with_reducible refine hP.upd ?_)

theorem keeps_State_setModRep {P : State → Prop} (hP : K0 P) {s m r} (h_s : P s) :
    P (State.setModRep s m r) := by
  unfold State.setModRep
  repeat' (first
    | with_reducible assumption
    | fail_if_no_progress with_reducible refine hP.upd ?_)

theorem keeps_State_setTally {P : State → Prop} (hP : K0 P) {s r x} (h_s : P s) :
    P (State.setTally s r x) := by
  unfold State.setTally
  repeat' (first
    | with_reducible assumption
    | fail_if_no_progress with_reducible refine hP.upd ?_)

theorem keeps_State_tallyWrite {P : State → Prop} (hP : K0 P) {s r} (h_s : P s) :
    P (State.tallyWrite s r) := by
  unfold State.tallyWrite
  repeat' (first
    | with_reducible assumption
    | with_reducible apply keeps_State_incSat
    | with_reducible apply keeps_State_setTally
    | (extract_lets +onlyGivenNames x; (have hx : P x := ?_); clear_value x; revert x; intro y hy; rotate_left; unfold x; clear x)
    | (extract_lets +onlyGivenNames x; clear_value x; revert x; intro y)
    | with_reducible apply keeps_ite
    | split)

theorem keeps_State_tallySlots {P : State → Prop} (hP : K0 P) {s k slots} (h_s : P s) :
    P (State.tallySlots s k slots) := by
  unfold State.tallySlots
  repeat' (first
    | with_reducible assumption
    | with_reducible apply keeps_State_tallyWrite
    | with_reducible apply keeps_foldl
    | with_reducible intro _
    | (extract_lets +onlyGivenNames x; clear_value x; revert x; intro y)
    | with_reducible apply keeps_ite)

theorem keeps_State_updateCell {P : State → Prop} (hP : K0 P) {s start c} (h_s : P s) :
    P (State.updateCell s start c) := by
  unfold State.updateCell
  repeat' (first
    | with_reducible assumption
    | with_reducible apply keeps_State_incF
    | with_reducible apply keeps_State_incSat
    | with_reducible apply keeps_State_ev
    | with_reducible apply keeps_State_setCell
    | with_reducible apply keeps_State_injTake
    | with_reducible apply keeps_State_frees
    | (extract_lets +onlyGivenNames x; (have hx : P x := ?_); clear_value x; revert x; intro y hy; rotate_left; unfold x; clear x)
    | (extract_lets +onlyGivenNames x; (have hx : P x.2 := ?_); clear_value x; revert x; intro y hy; rotate_left; unfold x; clear x)
    | (extract_lets +onlyGivenNames x; clear_value x; revert x; intro y)
    | with_reducible apply keeps_ite
    | with_reducible apply keeps_ite2)

theorem keeps_State_rodRound {P : State → Prop} (hP : K0 P) {s r} (h_s : P s) :
    P (State.rodRound s r) := by
  unfold State.rodRound
  repeat' (first
    | with_reducible assumption
    | with_reducible apply keeps_State_setReg
    | (extract_lets +onlyGivenNames x; (have hx : P x := ?_); clear_value x; revert x; intro y hy; rotate_left; unfold x; clear x)
    | (extract_lets +onlyGivenNames x; clear_value x; revert x; intro y)
    | split)

theorem keeps_State_cellCmdApply {P : State → Prop} (hP : K0 P) {s c} (h_s : P s) :
    P (State.cellCmdApply s c) := by
  unfold State.cellCmdApply
  repeat' (first
    | with_reducible assumption
    | with_reducible apply keeps_State_setCell
    | (extract_lets +onlyGivenNames x; clear_value x; revert x; intro y)
    | split)

theorem keeps_State_roundStart {P : State → Prop} (hP : K0 P) {s at_} (h_s : P s) :
    P (State.roundStart s at_) := by
  unfold State.roundStart
  repeat' (first
    | with_reducible assumption
    | with_reducible apply keeps_State_setReg
    | with_reducible apply keeps_State_setTally
    | with_reducible apply keeps_State_setCea
    | with_reducible apply keeps_State_cellCmdApply
    | with_reducible apply keeps_foldl
    | with_reducible intro _)

theorem keeps_execEstimatorRound {P : State → Prop} (hP : K0 P) {s} (h_s : P s) :
    OutP P ((execEstimatorRound s)) := by
  unfold execEstimatorRound
  repeat' (first
    | with_reducible assumption
    | with_reducible apply keeps_State_roundStart
    | with_reducible apply keeps_State_incSat
    | with_reducible apply keeps_State_ev
    | with_reducible apply keeps_State_setCea
    | with_reducible apply OutP.next
    | (extract_lets +onlyGivenNames x; (have hx : P x := ?_); clear_value x; revert x; intro y hy; rotate_left; unfold x; clear x)
    | (extract_lets +onlyGivenNames x; clear_value x; revert x; intro y)
    | with_reducible apply outP_ite)

theorem keeps_State_snapshot {P : State → Prop} (hP : Km P) {s cells} (h_s : P s) :
    P (State.snapshot s cells) := by
  unfold State.snapshot
  have h0 := hP.toK0
  repeat' (first
    | with_reducible assumption
    | with_reducible apply keeps_State_incSat
    | with_reducible apply keeps_State_setReg
    | with_reducible apply keeps_State_ringPut
    | with_reducible apply keeps_State_frees
    | (extract_lets +onlyGivenNames x; (have hx : P x := ?_); clear_value x; revert x; intro y hy; rotate_left; unfold x; clear x)
    | (extract_lets +onlyGivenNames x; (have hx : P x.2 := ?_); clear_value x; revert x; intro y hy; rotate_left; unfold x; clear x)
    | (extract_lets +onlyGivenNames x; clear_value x; revert x; intro y)
    | split
    | (refine opt1 (by with_reducible assumption) ?_))

theorem keeps_execRoundComplete {P : State → Prop} (hP : Km P) {s} (h_s : P s) :
    OutP P ((execRoundComplete s)) := by
  unfold execRoundComplete
  have h0 := hP.toK0
  repeat' (first
    | with_reducible assumption
    | with_reducible apply keeps_State_writeWeights
    | with_reducible apply keeps_State_snapshot
    | with_reducible apply keeps_State_ev
    | with_reducible apply keeps_State_set
    | with_reducible apply keeps_State_setReg
    | with_reducible apply keeps_State_rodRound
    | with_reducible apply keeps_State_updateCell
    | with_reducible apply keeps_State_setCea
    | with_reducible apply keeps_foldl
    | with_reducible apply OutP.next
    | with_reducible intro _
    | (extract_lets +onlyGivenNames x; (have hx : P x := ?_); clear_value x; revert x; intro y hy; rotate_left; unfold x; clear x)
    | (extract_lets +onlyGivenNames x; clear_value x; revert x; intro y)
    | with_reducible apply keeps_ite
    | with_reducible apply outP_ite
    | split)

theorem keeps_State_cellCmdBy {P : State → Prop} (hP : K0 P) {s w b} (h_s : P s) :
    P (State.cellCmdBy s w b) := by
  unfold State.cellCmdBy
  repeat' (first
    | with_reducible assumption
    | with_reducible apply keeps_State_cellCmd
    | with_reducible apply keeps_State_actionWrite
    | with_reducible apply keeps_finish
    | with_reducible intro _)

theorem keeps_execCellLoad {P : State → Prop} (hP : K0 P) {w s} (h_s : P s) :
    OutP P ((execCellLoad w s)) := by
  unfold execCellLoad
  repeat' (first
    | with_reducible assumption
    | with_reducible apply keeps_State_cellCmdBy
    | with_reducible apply OutP.next)

theorem keeps_execCellReset {P : State → Prop} (hP : K0 P) {w s} (h_s : P s) :
    OutP P ((execCellReset w s)) := by
  unfold execCellReset
  repeat' (first
    | with_reducible assumption
    | with_reducible apply keeps_State_cellCmdBy
    | with_reducible apply OutP.next)

theorem keeps_execCellExclude {P : State → Prop} (hP : K0 P) {w s} (h_s : P s) :
    OutP P ((execCellExclude w s)) := by
  unfold execCellExclude
  repeat' (first
    | with_reducible assumption
    | with_reducible apply keeps_State_cellCmdBy
    | with_reducible apply OutP.next)

theorem keeps_execCellInclude {P : State → Prop} (hP : K0 P) {w s} (h_s : P s) :
    OutP P ((execCellInclude w s)) := by
  unfold execCellInclude
  repeat' (first
    | with_reducible assumption
    | with_reducible apply keeps_State_cellCmdBy
    | with_reducible apply OutP.next)

end Sys2Proof.Machine
end

