-- ==== Sys2Proof/Laws/KEis.lean ====
section
/-! SUPPORT. What the operations of Machine.Eis keep. -/

namespace Sys2Proof.Machine

open Host (Outcome)

theorem keeps_State_setEisSt {P : State → Prop} (hP : K0 P) {s r st} (h_s : P s) :
    P (State.setEisSt s r st) := by
  unfold State.setEisSt
  repeat' (first
    | with_reducible assumption
    | with_reducible apply keeps_State_set
    | with_reducible apply keeps_State_setBit)

theorem keeps_State_eisSend {P : State → Prop} (hP : K0 P) {s r opc payload} (h_s : P s) :
    P (State.eisSend s r opc payload) := by
  unfold State.eisSend
  repeat' (first
    | with_reducible assumption
    | with_reducible apply keeps_State_mpeSend
    | with_reducible apply keeps_foldl
    | with_reducible intro _
    | split)

theorem keeps_State_eisAbort {P : State → Prop} (hP : K0 P) {s r code cancel} (h_s : P s) :
    P (State.eisAbort s r code cancel) := by
  unfold State.eisAbort
  repeat' (first
    | with_reducible assumption
    | with_reducible apply keeps_State_incSat
    | with_reducible apply keeps_State_ev
    | with_reducible apply keeps_State_setEisSt
    | with_reducible apply keeps_State_set
    | with_reducible apply keeps_State_eisSend
    | with_reducible apply keeps_State_setEisX
    | with_reducible apply keeps_ite)

theorem keeps_State_eisDisable {P : State → Prop} (hP : K0 P) {s} (h_s : P s) :
    P (State.eisDisable s) := by
  unfold State.eisDisable
  repeat' (first
    | with_reducible assumption
    | with_reducible apply keeps_State_set
    | with_reducible apply keeps_State_eisAbort
    | with_reducible apply keeps_foldl
    | with_reducible intro _
    | (extract_lets +onlyGivenNames x; (have hx : P x := ?_); clear_value x; revert x; intro y hy; rotate_left; unfold x; clear x)
    | with_reducible apply keeps_ite)

theorem keeps_State_eisFlush {P : State → Prop} (hP : Km P) {s} (h_s : P s) :
    P (State.eisFlush s) := by
  unfold State.eisFlush
  have h0 := hP.toK0
  repeat' (first
    | with_reducible assumption
    | with_reducible apply keeps_State_setReg
    | with_reducible apply keeps_State_ev
    | with_reducible apply keeps_State_ringPut
    | with_reducible apply keeps_State_setEisX
    | with_reducible apply keeps_foldl
    | with_reducible intro _
    | (extract_lets +onlyGivenNames x; clear_value x; revert x; intro y)
    | with_reducible apply keeps_ite
    | split
    | (refine opt1 (by with_reducible assumption) ?_))

theorem keeps_State_eisReq {P : State → Prop} (hP : K0 P) {s v} (h_s : P s) :
    P (State.eisReq s v) := by
  unfold State.eisReq
  repeat' (first
    | with_reducible assumption
    | with_reducible apply keeps_State_setEisX
    | with_reducible apply keeps_foldl
    | with_reducible intro _)

theorem keeps_State_eisRegWrite {P : State → Prop} (hP : Km P) {s off v} (h_s : P s) :
    OptP (fun r => P (r).1) ((State.eisRegWrite s off v)) := by
  unfold State.eisRegWrite
  have h0 := hP.toK0
  repeat' (first
    | with_reducible assumption
    | with_reducible apply keeps_State_setReg
    | with_reducible apply keeps_State_eisFlush
    | with_reducible apply keeps_State_eisReq
    | with_reducible exact OptP.none
    | with_reducible apply OptP.some
    | with_reducible apply optP_ite)

theorem keeps_State_eisSlot {P : State → Prop} (hP : K0 P) {s r t} (h_s : P s) :
    P (State.eisSlot s r t) := by
  unfold State.eisSlot
  repeat' (first
    | with_reducible assumption
    | with_reducible apply keeps_State_setEisX
    | (extract_lets +onlyGivenNames x; clear_value x; revert x; intro y)
    | with_reducible apply keeps_ite
    | split)

theorem keeps_State_eisFeed {P : State → Prop} (hP : K0 P) {s r} (h_s : P s) :
    P (State.eisFeed s r) := by
  unfold State.eisFeed
  repeat' (first
    | with_reducible assumption
    | with_reducible apply keeps_State_setCell
    | with_reducible apply keeps_foldl
    | with_reducible intro _
    | (extract_lets +onlyGivenNames x; clear_value x; revert x; intro y)
    | split)

theorem keeps_State_eisFinish {P : State → Prop} (hP : Km P) {s r} (h_s : P s) :
    P (State.eisFinish s r) := by
  unfold State.eisFinish
  have h0 := hP.toK0
  repeat' (first
    | with_reducible assumption
    | with_reducible apply keeps_State_setEisSt
    | with_reducible apply keeps_State_incSat
    | with_reducible apply keeps_State_eisFlush
    | with_reducible apply keeps_State_setReg
    | with_reducible apply keeps_State_setEisX
    | with_reducible apply keeps_State_eisFeed
    | (extract_lets +onlyGivenNames x; (have hx : P x := ?_); clear_value x; revert x; intro y hy; rotate_left; unfold x; clear x)
    | (extract_lets +onlyGivenNames x; clear_value x; revert x; intro y)
    | with_reducible apply keeps_ite)

theorem keeps_State_eisCheck {P : State → Prop} (hP : K0 P) {s r} (h_s : P s) :
    P (State.eisCheck s r) := by
  unfold State.eisCheck
  repeat' (first
    | with_reducible assumption
    | with_reducible apply keeps_State_eisAbort
    | (extract_lets +onlyGivenNames x; clear_value x; revert x; intro y)
    | with_reducible apply keeps_ite)

theorem keeps_State_eisResult {P : State → Prop} (hP : Km P) {s m d} (h_s : P s) :
    P (State.eisResult s m d) := by
  unfold State.eisResult
  have h0 := hP.toK0
  repeat' (first
    | with_reducible assumption
    | with_reducible apply keeps_State_setEisX
    | with_reducible apply keeps_State_eisFinish
    | with_reducible apply keeps_State_eisCheck
    | (extract_lets +onlyGivenNames x; (have hx : P x := ?_); clear_value x; revert x; intro y hy; rotate_left; unfold x; clear x)
    | (extract_lets +onlyGivenNames x; clear_value x; revert x; intro y)
    | with_reducible apply keeps_ite)

theorem keeps_State_eisAck {P : State → Prop} (hP : K0 P) {s m d} (h_s : P s) :
    P (State.eisAck s m d) := by
  unfold State.eisAck
  repeat' (first
    | with_reducible assumption
    | with_reducible apply keeps_State_setEisX
    | (extract_lets +onlyGivenNames x; clear_value x; revert x; intro y)
    | with_reducible apply keeps_ite)

theorem keeps_State_eisAt {P : State → Prop} (hP : K0 P) {s r st t f} (h_s : P s) (h_f : ∀ (x0 : Sys2Proof.Machine.State), P x0 → P (f x0)) :
    P (State.eisAt s r st t f) := by
  unfold State.eisAt
  repeat' (first
    | with_reducible assumption
    | with_reducible apply h_f
    | with_reducible apply keeps_State_eisCheck
    | (extract_lets +onlyGivenNames x; (have hx : P x := ?_); clear_value x; revert x; intro y hy; rotate_left; unfold x; clear x)
    | with_reducible apply keeps_ite)

theorem keeps_execEisCollectTimeout {P : State → Prop} (hP : K0 P) {r s} (h_s : P s) :
    OutP P ((execEisCollectTimeout r s)) := by
  unfold execEisCollectTimeout
  repeat' (first
    | with_reducible assumption
    | with_reducible apply keeps_State_eisAbort
    | with_reducible apply keeps_State_eisAt
    | with_reducible apply OutP.next
    | with_reducible intro _)

theorem keeps_execEisMeasureEnd {P : State → Prop} (hP : K0 P) {r s} (h_s : P s) :
    OutP P ((execEisMeasureEnd r s)) := by
  unfold execEisMeasureEnd
  repeat' (first
    | with_reducible assumption
    | with_reducible apply keeps_State_setEisX
    | with_reducible apply keeps_State_setEisSt
    | with_reducible apply keeps_State_eisAt
    | with_reducible apply OutP.next
    | with_reducible intro _)

theorem keeps_execEisMeasureStart {P : State → Prop} (hP : K0 P) {r s} (h_s : P s) :
    OutP P ((execEisMeasureStart r s)) := by
  unfold execEisMeasureStart
  repeat' (first
    | with_reducible assumption
    | with_reducible apply keeps_State_setEisSt
    | with_reducible apply keeps_State_eisAt
    | with_reducible apply OutP.next
    | with_reducible intro _)

theorem keeps_execEisInjectStart {P : State → Prop} (hP : K0 P) {r s} (h_s : P s) :
    OutP P ((execEisInjectStart r s)) := by
  unfold execEisInjectStart
  repeat' (first
    | with_reducible assumption
    | with_reducible apply keeps_State_setEisX
    | with_reducible apply keeps_State_eisAt
    | with_reducible apply OutP.next
    | with_reducible intro _)

theorem keeps_execEisPlanDeadline {P : State → Prop} (hP : K0 P) {r s} (h_s : P s) :
    OutP P ((execEisPlanDeadline r s)) := by
  unfold execEisPlanDeadline
  repeat' (first
    | with_reducible assumption
    | with_reducible apply keeps_State_eisAbort
    | with_reducible apply keeps_State_setEisSt
    | with_reducible apply keeps_State_eisAt
    | with_reducible apply OutP.next
    | with_reducible intro _
    | with_reducible apply keeps_ite)

theorem keeps_execEisStart {P : State → Prop} (hP : K0 P) {r s} (h_s : P s) :
    OutP P ((execEisStart r s)) := by
  unfold execEisStart
  repeat' (first
    | with_reducible assumption
    | with_reducible apply keeps_State_eisSend
    | with_reducible apply keeps_State_setEisSt
    | with_reducible apply keeps_State_setEisX
    | with_reducible apply OutP.next
    | (extract_lets +onlyGivenNames x; (have hx : P x := ?_); clear_value x; revert x; intro y hy; rotate_left; unfold x; clear x)
    | (extract_lets +onlyGivenNames x; clear_value x; revert x; intro y)
    | with_reducible apply outP_ite)

theorem keeps_execEisReq {P : State → Prop} (hP : K0 P) {w v s} (h_s : P s) :
    OutP P ((execEisReq w v s)) := by
  unfold execEisReq
  repeat' (first
    | with_reducible assumption
    | with_reducible apply keeps_State_eisReq
    | with_reducible apply keeps_State_actionWrite
    | with_reducible apply keeps_finish
    | with_reducible apply OutP.next
    | with_reducible intro _)

theorem keeps_State_eisOffSeen {P : State → Prop} (hP : K0 P) {s r} (h_s : P s) :
    P (State.eisOffSeen s r) := by
  unfold State.eisOffSeen
  repeat' (first
    | with_reducible assumption
    | with_reducible apply keeps_State_set
    | with_reducible apply keeps_State_ev
    | with_reducible apply keeps_State_setEisX
    | (extract_lets +onlyGivenNames x; (have hx : P x := ?_); clear_value x; revert x; intro y hy; rotate_left; unfold x; clear x)
    | (extract_lets +onlyGivenNames x; clear_value x; revert x; intro y)
    | with_reducible apply keeps_ite)

theorem keeps_State_eisAfterRun {P : State → Prop} (hP : K0 P) {s r} (h_s : P s) :
    P (State.eisAfterRun s r) := by
  unfold State.eisAfterRun
  repeat' (first
    | with_reducible assumption
    | with_reducible apply keeps_State_eisAbort
    | with_reducible apply keeps_State_eisOffSeen
    | with_reducible apply keeps_State_eisCheck
    | (extract_lets +onlyGivenNames x; (have hx : P x := ?_); clear_value x; revert x; intro y hy; rotate_left; unfold x; clear x)
    | (extract_lets +onlyGivenNames x; clear_value x; revert x; intro y)
    | with_reducible apply keeps_ite)

end Sys2Proof.Machine
end

