-- ==== Sys2Proof/Laws/KRod.lean ====
section
/-! SUPPORT. What the operations of Machine.Rod keep. -/

namespace Sys2Proof.Machine

open Host (Outcome)

theorem keeps_State_rodApplied {P : State → Prop} (hP : K0 P) {s n} (h_s : P s) :
    P (State.rodApplied s n) := by
  unfold State.rodApplied
  repeat' (first
    | with_reducible assumption
    | with_reducible apply keeps_State_set
    | with_reducible apply keeps_ite)

theorem keeps_State_arm {P : State → Prop} (hP : K0 P) {s n} (h_s : P s) :
    P (State.arm s n) := by
  unfold State.arm
  repeat' (first
    | with_reducible assumption
    | with_reducible apply keeps_State_incSat
    | with_reducible apply keeps_State_ev
    | with_reducible apply keeps_State_set
    | (extract_lets +onlyGivenNames x; (have hx : P x := ?_); clear_value x; revert x; intro y hy; rotate_left; unfold x; clear x)
    | with_reducible apply keeps_ite
    | split)

theorem keeps_State_refWrite {P : State → Prop} (hP : K0 P) {s w n off mask v} (h_s : P s) :
    P ((State.refWrite s w n off mask v)).1 := by
  unfold State.refWrite
  repeat' (first
    | with_reducible assumption
    | with_reducible apply keeps_State_arm
    | with_reducible apply keeps_State_setWord
    | with_reducible apply keeps_refuse
    | with_reducible apply keeps_State_actionWrite
    | with_reducible intro _
    | (extract_lets +onlyGivenNames x; (have hx : P x := ?_); clear_value x; revert x; intro y hy; rotate_left; unfold x; clear x)
    | with_reducible apply keeps_ite
    | with_reducible apply keeps_ite1)

theorem keeps_State_release {P : State → Prop} (hP : K0 P) {s n es} (h_s : P s) :
    P (State.release s n es) := by
  unfold State.release
  repeat' (first
    | with_reducible assumption
    | with_reducible apply keeps_State_setLink
    | with_reducible apply keeps_foldl
    | with_reducible intro _
    | (extract_lets +onlyGivenNames x; clear_value x; revert x; intro y)
    | with_reducible apply keeps_ite)

theorem keeps_State_endModulation {P : State → Prop} (hP : K0 P) {s n u} (h_s : P s) :
    P (State.endModulation s n u) := by
  unfold State.endModulation
  repeat' (first
    | with_reducible assumption
    | with_reducible apply keeps_State_release
    | with_reducible apply keeps_State_digWithdraw
    | with_reducible apply keeps_State_set
    | with_reducible apply keeps_State_setRod
    | with_reducible apply keeps_State_cancelTx
    | with_reducible apply keeps_foldl
    | with_reducible intro _)

theorem keeps_execModulationEnd {P : State → Prop} (hP : K0 P) {n s} (h_s : P s) :
    OutP P ((execModulationEnd n s)) := by
  unfold execModulationEnd
  repeat' (first
    | with_reducible assumption
    | with_reducible apply keeps_State_endModulation
    | with_reducible apply OutP.next
    | with_reducible apply outP_ite
    | split)

theorem keeps_execRefCWrite {P : State → Prop} (hP : K0 P) {w n v s} (h_s : P s) :
    OutP P ((execRefCWrite w n v s)) := by
  unfold execRefCWrite
  repeat' (first
    | with_reducible assumption
    | with_reducible apply keeps_State_refWrite
    | with_reducible apply keeps_finish
    | with_reducible apply OutP.next)

theorem keeps_execRefAbWrite {P : State → Prop} (hP : K0 P) {w n v s} (h_s : P s) :
    OutP P ((execRefAbWrite w n v s)) := by
  unfold execRefAbWrite
  repeat' (first
    | with_reducible assumption
    | with_reducible apply keeps_State_refWrite
    | with_reducible apply keeps_finish
    | with_reducible apply OutP.next)

theorem keeps_State_takeRefs {P : State → Prop} (hP : K0 P) {s n} (h_s : P s) :
    P (State.takeRefs s n) := by
  unfold State.takeRefs
  repeat' (first
    | with_reducible assumption
    | with_reducible apply keeps_State_err
    | with_reducible apply keeps_State_ev
    | with_reducible apply keeps_State_descentCause
    | with_reducible apply keeps_State_setReg
    | with_reducible apply keeps_State_set
    | with_reducible apply keeps_State_setWord
    | (extract_lets +onlyGivenNames x; (have hx : P x := ?_); clear_value x; revert x; intro y hy; rotate_left; unfold x; clear x)
    | (extract_lets +onlyGivenNames x; clear_value x; revert x; intro y)
    | with_reducible apply keeps_ite)

theorem keeps_State_rodCount {P : State → Prop} (hP : K0 P) {s n off k} (h_s : P s) :
    P (State.rodCount s n off k) := by
  unfold State.rodCount
  repeat' (first
    | with_reducible assumption
    | with_reducible apply keeps_State_incSat
    | with_reducible apply keeps_ite)

theorem keeps_State_segment {P : State → Prop} (hP : K0 P) {s n p} (h_s : P s) :
    P (State.segment s n p) := by
  unfold State.segment
  repeat' (first
    | with_reducible assumption
    | with_reducible apply keeps_State_release
    | with_reducible apply keeps_State_set
    | with_reducible apply keeps_State_ev
    | with_reducible apply keeps_State_rodCount
    | with_reducible apply keeps_State_setRod
    | with_reducible apply keeps_State_setReg
    | (extract_lets +onlyGivenNames x; (have hx : P x := ?_); clear_value x; revert x; intro y hy; rotate_left; unfold x; clear x)
    | (extract_lets +onlyGivenNames x; clear_value x; revert x; intro y)
    | with_reducible apply keeps_ite
    | split)

theorem keeps_State_loopTaken {P : State → Prop} (hP : K0 P) {s n u} (h_s : P s) :
    P (State.loopTaken s n u) := by
  unfold State.loopTaken
  repeat' (first
    | with_reducible assumption
    | with_reducible apply keeps_State_setReg
    | with_reducible apply keeps_State_setLoop
    | (extract_lets +onlyGivenNames x; clear_value x; revert x; intro y)
    | split)

theorem keeps_State_crossChecks {P : State → Prop} (hP : K0 P) {s n} (h_s : P s) :
    P (State.crossChecks s n) := by
  unfold State.crossChecks
  repeat' (first
    | with_reducible assumption
    | with_reducible apply keeps_State_faultCause
    | with_reducible apply keeps_State_err
    | with_reducible apply keeps_State_descentCause
    | with_reducible apply keeps_State_setRod
    | with_reducible apply keeps_State_injTake
    | (extract_lets +onlyGivenNames x; (have hx : P x := ?_); clear_value x; revert x; intro y hy; rotate_left; unfold x; clear x)
    | (extract_lets +onlyGivenNames x; (have hx : P x.2 := ?_); clear_value x; revert x; intro y hy; rotate_left; unfold x; clear x)
    | (extract_lets +onlyGivenNames x; clear_value x; revert x; intro y)
    | with_reducible apply keeps_ite)

theorem keeps_State_cutoff {P : State → Prop} (hP : K0 P) {s n} (h_s : P s) :
    P (State.cutoff s n) := by
  unfold State.cutoff
  repeat' (first
    | with_reducible assumption
    | with_reducible apply keeps_State_takeRefs
    | with_reducible apply keeps_State_segment
    | with_reducible apply keeps_State_loopTaken
    | with_reducible apply keeps_State_setB
    | with_reducible apply keeps_State_applyCommit
    | with_reducible apply keeps_State_rodApplied
    | with_reducible apply keeps_State_setRod
    | with_reducible apply keeps_State_crossChecks
    | (extract_lets +onlyGivenNames x; (have hx : P x := ?_); clear_value x; revert x; intro y hy; rotate_left; unfold x; clear x)
    | (extract_lets +onlyGivenNames x; clear_value x; revert x; intro y)
    | with_reducible apply keeps_ite
    | split)

theorem keeps_execUpdateCutoff {P : State → Prop} (hP : K0 P) {n s} (h_s : P s) :
    OutP P ((execUpdateCutoff n s)) := by
  unfold execUpdateCutoff
  repeat' (first
    | with_reducible assumption
    | with_reducible apply keeps_State_cutoff
    | with_reducible apply OutP.next)

theorem keeps_State_rodFrame {P : State → Prop} (hP : K0 P) {s n} (h_s : P s) :
    P (State.rodFrame s n) := by
  unfold State.rodFrame
  repeat' (first
    | with_reducible assumption
    | with_reducible apply keeps_State_set
    | with_reducible apply keeps_State_setB
    | with_reducible apply keeps_State_setReg
    | with_reducible apply keeps_State_setRod
    | (extract_lets +onlyGivenNames x; (have hx : P x := ?_); clear_value x; revert x; intro y hy; rotate_left; unfold x; clear x)
    | (extract_lets +onlyGivenNames x; clear_value x; revert x; intro y)
    | split)

end Sys2Proof.Machine
end

