-- ==== Sys2Proof/Laws/KLoop.lean ====
section
/-! SUPPORT. What the operations of Machine.Loop keep. -/

namespace Sys2Proof.Machine

open Host (Outcome)

theorem keeps_State_setPcnt {P : State → Prop} (hP : K0 P) {s c x} (h_s : P s) :
    P (State.setPcnt s c x) := by
  unfold State.setPcnt
  repeat' (first
    | with_reducible assumption
    | fail_if_no_progress with_reducible refine hP.upd ?_)

theorem keeps_State_loopRefs {P : State → Prop} (hP : K0 P) {s n l tf} (h_s : P s) :
    P (State.loopRefs s n l tf) := by
  unfold State.loopRefs
  repeat' (first
    | with_reducible assumption
    | with_reducible apply keeps_State_arm
    | with_reducible apply keeps_State_setLoop
    | with_reducible apply keeps_State_setReg
    | (extract_lets +onlyGivenNames x; (have hx : P x := ?_); clear_value x; revert x; intro y hy; rotate_left; unfold x; clear x)
    | (extract_lets +onlyGivenNames x; clear_value x; revert x; intro y)
    | with_reducible apply keeps_ite)

theorem keeps_State_setMach {P : State → Prop} (hP : K0 P) {s n m} (h_s : P s) :
    P (State.setMach s n m) := by
  unfold State.setMach
  repeat' (first
    | with_reducible assumption
    | with_reducible apply keeps_State_setLoop)

set_option maxRecDepth 4000 in
theorem keeps_State_control {P : State → Prop} (hP : K0 P) {s n q dt df a r i f vdc} (h_s : P s) :
    OptP (fun r => P r) ((State.control s n q dt df a r i f vdc)) := by
  unfold State.control
  repeat' (first
    | with_reducible assumption
    | with_reducible apply keeps_State_loopRefs
    | with_reducible apply keeps_State_setLoop
    | with_reducible apply keeps_State_ev
    | with_reducible apply keeps_State_incSat
    | with_reducible apply keeps_State_setLp
    | with_reducible apply keeps_State_trig
    | with_reducible apply keeps_State_setB
    | with_reducible apply keeps_State_set
    | with_reducible apply keeps_State_learn
    | with_reducible apply keeps_State_setMach
    | with_reducible exact OptP.none
    | with_reducible apply OptP.some
    | (extract_lets +onlyGivenNames x; (have hx : P x := ?_); clear_value x; revert x; intro y hy; rotate_left; unfold x; clear x)
    | (extract_lets +onlyGivenNames x; clear_value x; revert x; intro y)
    | with_reducible apply keeps_ite
    | with_reducible apply optP_ite)

theorem keeps_State_openAngle {P : State → Prop} (hP : K0 P) {s n q dt} (h_s : P s) :
    P ((State.openAngle s n q dt)).2.2 := by
  unfold State.openAngle
  repeat' (first
    | with_reducible assumption
    | with_reducible apply keeps_State_setMach)

theorem keeps_State_machAngle {P : State → Prop} (hP : K0 P) {s n q dt c} (h_s : P s) :
    P ((State.machAngle s n q dt c)).2 := by
  unfold State.machAngle
  repeat' (first
    | with_reducible assumption
    | with_reducible apply keeps_State_frees
    | with_reducible apply keeps_State_setMach
    | with_reducible apply keeps_State_setLp
    | with_reducible apply keeps_State_openAngle
    | (extract_lets +onlyGivenNames x; (have hx : P x := ?_); clear_value x; revert x; intro y hy; rotate_left; unfold x; clear x)
    | (extract_lets +onlyGivenNames x; (have hx : P x.2 := ?_); clear_value x; revert x; intro y hy; rotate_left; unfold x; clear x)
    | (extract_lets +onlyGivenNames x; (have hx : P x.2.2 := ?_); clear_value x; revert x; intro y hy; rotate_left; unfold x; clear x)
    | (extract_lets +onlyGivenNames x; clear_value x; revert x; intro y)
    | split)

theorem keeps_State_hoCollect {P : State → Prop} (hP : K0 P) {s n raw ok} (h_s : P s) :
    P ((State.hoCollect s n raw ok)).2 := by
  unfold State.hoCollect
  repeat' (first
    | with_reducible assumption
    | with_reducible apply keeps_State_setMach)

theorem keeps_State_obsClear {P : State → Prop} (hP : K0 P) {s n} (h_s : P s) :
    P (State.obsClear s n) := by
  unfold State.obsClear
  repeat' (first
    | with_reducible assumption
    | with_reducible apply keeps_State_set
    | with_reducible apply keeps_State_setLp
    | with_reducible apply keeps_State_setMach)

theorem keeps_State_pcntFail {P : State → Prop} (hP : K0 P) {s n} (h_s : P s) :
    P (State.pcntFail s n) := by
  unfold State.pcntFail
  repeat' (first
    | with_reducible assumption
    | with_reducible apply keeps_State_set
    | with_reducible apply keeps_State_err
    | with_reducible apply keeps_State_ev
    | with_reducible apply keeps_State_incSat)

theorem keeps_State_setAsrc {P : State → Prop} (hP : K0 P) {s n v} (h_s : P s) :
    P (State.setAsrc s n v) := by
  unfold State.setAsrc
  repeat' (first
    | with_reducible assumption
    | with_reducible apply keeps_State_set
    | with_reducible apply keeps_State_ev
    | with_reducible apply keeps_State_incSat)

theorem keeps_State_asrcStep {P : State → Prop} (hP : K0 P) {s n q c} (h_s : P s) :
    P (State.asrcStep s n q c) := by
  unfold State.asrcStep
  repeat' (first
    | with_reducible assumption
    | with_reducible apply keeps_State_pcntFail
    | with_reducible apply keeps_State_hoCollect
    | with_reducible apply keeps_State_setLp
    | with_reducible apply keeps_State_set
    | with_reducible apply keeps_State_obsClear
    | with_reducible apply keeps_State_setMach
    | with_reducible apply keeps_State_setAsrc
    | with_reducible intro _
    | with_reducible apply hf0
    | (extract_lets +onlyGivenNames x; (have hx : ∀ a, P a → P (x a) := ?_); clear_value x; revert x; intro y hf0; rotate_left; unfold x; clear x)
    | (extract_lets +onlyGivenNames x; (have hx : P x := ?_); clear_value x; revert x; intro y hy; rotate_left; unfold x; clear x)
    | (extract_lets +onlyGivenNames x; clear_value x; revert x; intro y)
    | with_reducible apply keeps_ite
    | with_reducible apply keeps_ite2
    | split
    | (refine snd_of (by with_reducible assumption) ?_))

theorem keeps_State_observer {P : State → Prop} (hP : K0 P) {s n dt i} (h_s : P s) :
    P (State.observer s n dt i) := by
  unfold State.observer
  repeat' (first
    | with_reducible assumption
    | with_reducible apply keeps_State_setB
    | with_reducible apply keeps_State_setLp
    | with_reducible apply keeps_State_setMach
    | with_reducible apply keeps_State_trig)

theorem keeps_State_pcntPath {P : State → Prop} (hP : K0 P) {s n q} (h_s : P s) :
    P ((State.pcntPath s n q)).2 := by
  unfold State.pcntPath
  repeat' (first
    | with_reducible assumption
    | with_reducible apply keeps_State_setLp
    | with_reducible apply keeps_State_setMach)

theorem keeps_State_machTake {P : State → Prop} (hP : K0 P) {s n q dt fresh live iab} (h_s : P s) :
    P ((State.machTake s n q dt fresh live iab)).2 := by
  unfold State.machTake
  repeat' (first
    | with_reducible assumption
    | with_reducible apply keeps_State_setLp
    | with_reducible apply keeps_State_machAngle
    | with_reducible apply keeps_State_asrcStep
    | with_reducible apply keeps_State_obsClear
    | with_reducible apply keeps_State_observer
    | with_reducible apply keeps_State_pcntPath
    | with_reducible apply keeps_ite)

set_option maxRecDepth 4000 in
theorem keeps_State_runBody {P : State → Prop} (hP : K0 P) {s n q} (h_s : P s) :
    OptP (fun r => P r) ((State.runBody s n q)) := by
  unfold State.runBody
  repeat' (first
    | with_reducible assumption
    | with_reducible apply keeps_State_control
    | with_reducible apply keeps_State_set
    | with_reducible apply keeps_State_setLoop
    | with_reducible apply keeps_State_err
    | with_reducible apply keeps_State_ev
    | with_reducible apply keeps_State_setB
    | with_reducible apply keeps_State_setLp
    | with_reducible apply keeps_State_loopFilt
    | with_reducible apply keeps_State_trig
    | with_reducible apply keeps_State_machTake
    | with_reducible apply keeps_State_setMach
    | with_reducible apply OptP.some
    | with_reducible intro _
    | with_reducible apply optP_mapS
    | with_reducible apply hf0
    | (extract_lets +onlyGivenNames x; (have hx : ∀ a, P a → P (x a) := ?_); clear_value x; revert x; intro y hf0; rotate_left; unfold x; clear x)
    | (extract_lets +onlyGivenNames x; (have hx : P x := ?_); clear_value x; revert x; intro y hy; rotate_left; unfold x; clear x)
    | (extract_lets +onlyGivenNames x; (have hx : P x.2 := ?_); clear_value x; revert x; intro y hy; rotate_left; unfold x; clear x)
    | (extract_lets +onlyGivenNames x; clear_value x; revert x; intro y)
    | with_reducible apply keeps_ite
    | with_reducible apply keeps_ite2
    | with_reducible apply optP_ite)

theorem keeps_execLoopRunComplete {P : State → Prop} (hP : K0 P) {n s} (h_s : P s) :
    OutP P ((execLoopRunComplete n s)) := by
  unfold execLoopRunComplete
  repeat' (first
    | with_reducible assumption
    | with_reducible apply keeps_State_incSat
    | with_reducible apply keeps_State_err
    | with_reducible apply keeps_State_eisAfterRun
    | with_reducible apply keeps_State_runBody
    | with_reducible apply keeps_State_ev
    | with_reducible apply keeps_State_setLp
    | with_reducible apply keeps_State_setLoop
    | with_reducible apply keeps_State_set
    | with_reducible apply OutP.next
    | (extract_lets +onlyGivenNames x; (have hx : P x := ?_); clear_value x; revert x; intro y hy; rotate_left; unfold x; clear x)
    | (extract_lets +onlyGivenNames x; clear_value x; revert x; intro y)
    | split
    | (refine OptP.of (by with_reducible assumption) ?_))

theorem keeps_execDescentEnd {P : State → Prop} (hP : K0 P) {n s} (h_s : P s) :
    OutP P ((execDescentEnd n s)) := by
  unfold execDescentEnd
  repeat' (first
    | with_reducible assumption
    | with_reducible apply keeps_State_setRod
    | with_reducible apply keeps_State_enterGatesOff
    | with_reducible apply OutP.next
    | (extract_lets +onlyGivenNames x; (have hx : P x := ?_); clear_value x; revert x; intro y hy; rotate_left; unfold x; clear x)
    | (extract_lets +onlyGivenNames x; clear_value x; revert x; intro y)
    | with_reducible apply outP_ite)

theorem keeps_State_descentFrame {P : State → Prop} (hP : K0 P) {s n} (h_s : P s) :
    P (State.descentFrame s n) := by
  unfold State.descentFrame
  repeat' (first
    | with_reducible assumption
    | with_reducible apply keeps_State_setRod
    | (extract_lets +onlyGivenNames x; clear_value x; revert x; intro y)
    | with_reducible apply keeps_ite)

end Sys2Proof.Machine
end

