-- ==== Sys2Proof/Laws/KPcnt.lean ====
section
/-! SUPPORT. What the operations of Machine.Pcnt keep. -/

namespace Sys2Proof.Machine

open Host (Outcome)

theorem keeps_State_showObs {P : State → Prop} (hP : K0 P) {s n} (h_s : P s) :
    P (State.showObs s n) := by
  unfold State.showObs
  repeat' (first
    | with_reducible assumption
    | with_reducible apply keeps_State_setReg)

theorem keeps_State_cntErr {P : State → Prop} (hP : K0 P) {s n b} (h_s : P s) :
    P (State.cntErr s n b) := by
  unfold State.cntErr
  repeat' (first
    | with_reducible assumption
    | with_reducible apply keeps_State_setPcnt
    | with_reducible apply keeps_State_ev
    | with_reducible apply keeps_State_setBit
    | (extract_lets +onlyGivenNames x; (have hx : P x := ?_); clear_value x; revert x; intro y hy; rotate_left; unfold x; clear x)
    | (extract_lets +onlyGivenNames x; clear_value x; revert x; intro y)
    | with_reducible apply keeps_ite)

theorem keeps_State_countWrite {P : State → Prop} (hP : K0 P) {s n v} (h_s : P s) :
    P (State.countWrite s n v) := by
  unfold State.countWrite
  repeat' (first
    | with_reducible assumption
    | with_reducible apply keeps_State_setPcnt
    | with_reducible apply keeps_State_showObs
    | with_reducible apply keeps_State_setReg
    | with_reducible apply keeps_State_cntErr
    | with_reducible apply keeps_ite)

theorem keeps_State_cntRegWrite {P : State → Prop} (hP : K0 P) {s n off v} (h_s : P s) :
    OptP (fun r => P (r).1) ((State.cntRegWrite s n off v)) := by
  unfold State.cntRegWrite
  repeat' (first
    | with_reducible assumption
    | with_reducible apply keeps_State_countWrite
    | with_reducible exact OptP.none
    | with_reducible apply OptP.some
    | with_reducible apply optP_ite)

theorem keeps_State_cntWake {P : State → Prop} (hP : K0 P) {s n} (h_s : P s) :
    P (State.cntWake s n) := by
  unfold State.cntWake
  repeat' (first
    | with_reducible assumption
    | with_reducible apply keeps_State_setReg
    | with_reducible apply keeps_State_ev
    | with_reducible apply keeps_State_showObs
    | with_reducible apply keeps_State_setPcnt
    | with_reducible apply keeps_State_cntErr
    | (extract_lets +onlyGivenNames x; (have hx : P x := ?_); clear_value x; revert x; intro y hy; rotate_left; unfold x; clear x)
    | (extract_lets +onlyGivenNames x; clear_value x; revert x; intro y)
    | with_reducible apply keeps_ite)

theorem keeps_State_cntRest {P : State → Prop} (hP : K0 P) {s n} (h_s : P s) :
    P (State.cntRest s n) := by
  unfold State.cntRest
  repeat' (first
    | with_reducible assumption
    | with_reducible apply keeps_State_setPcnt
    | (extract_lets +onlyGivenNames x; clear_value x; revert x; intro y)
    | with_reducible apply keeps_ite)

theorem keeps_State_observe {P : State → Prop} (hP : K0 P) {s n} (h_s : P s) :
    P (State.observe s n) := by
  unfold State.observe
  repeat' (first
    | with_reducible assumption
    | with_reducible apply keeps_State_setReg
    | with_reducible apply keeps_State_showObs
    | with_reducible apply keeps_State_setPcnt)

theorem keeps_execObserverUpdate {P : State → Prop} (hP : K0 P) {n s} (h_s : P s) :
    OutP P ((execObserverUpdate n s)) := by
  unfold execObserverUpdate
  repeat' (first
    | with_reducible assumption
    | with_reducible apply keeps_State_observe
    | with_reducible apply OutP.next
    | with_reducible apply keeps_ite)

theorem keeps_execCountWrite {P : State → Prop} (hP : K0 P) {w n v s} (h_s : P s) :
    OutP P ((execCountWrite w n v s)) := by
  unfold execCountWrite
  repeat' (first
    | with_reducible assumption
    | with_reducible apply keeps_State_countWrite
    | with_reducible apply keeps_State_actionWrite
    | with_reducible apply keeps_finish
    | with_reducible apply OutP.next
    | with_reducible intro _)

theorem keeps_State_countEdge {P : State → Prop} (hP : K0 P) {s n up} (h_s : P s) :
    P (State.countEdge s n up) := by
  unfold State.countEdge
  repeat' (first
    | with_reducible assumption
    | with_reducible apply keeps_State_setPcnt
    | with_reducible apply keeps_State_setReg
    | with_reducible apply keeps_State_cntErr
    | with_reducible apply keeps_ite
    | split)

theorem keeps_State_cntSample {P : State → Prop} (hP : K0 P) {s n e} (h_s : P s) :
    P (State.cntSample s n e) := by
  unfold State.cntSample
  extract_lets p filt ca cb fast s1 bad a b edge
  have hf : ∀ c x, P x → P (fast c x) := fun c x h =>
    keeps_ite (keeps_State_incSat hP (keeps_State_cntErr hP h)) h
  have h1 : P s1 := hf _ _ (hf _ _ h_s)
  have hb : P (bad s1) := keeps_State_incSat hP (keeps_State_cntErr hP h1)
  repeat' (first
    | with_reducible assumption
    | with_reducible apply keeps_ite
    | with_reducible apply keeps_State_countEdge hP)

theorem keeps_execPcntEdge {P : State → Prop} (hP : K0 P) {n e s} (h_s : P s) :
    OutP P ((execPcntEdge n e s)) := by
  unfold execPcntEdge
  repeat' (first
    | with_reducible assumption
    | with_reducible apply keeps_State_cntSample
    | with_reducible apply OutP.next
    | with_reducible apply keeps_ite)

theorem keeps_State_cntLatch {P : State → Prop} (hP : K0 P) {s r u} (h_s : P s) :
    P (State.cntLatch s r u) := by
  unfold State.cntLatch
  repeat' (first
    | with_reducible assumption
    | with_reducible apply keeps_State_setMach
    | with_reducible apply keeps_State_setReg
    | (extract_lets +onlyGivenNames x; (have hx : P x := ?_); clear_value x; revert x; intro y hy; rotate_left; unfold x; clear x)
    | (extract_lets +onlyGivenNames x; clear_value x; revert x; intro y)
    | with_reducible apply keeps_ite)

end Sys2Proof.Machine
end

