-- ==== Sys2Proof/Laws/KSafe.lean ====
section
/-! SUPPORT. What the operations of Machine.Safe keep. -/

namespace Sys2Proof.Machine

open Host (Outcome)

theorem keeps_State_safeStat {P : State → Prop} (hP : K0 P) {s} (h_s : P s) :
    P (State.safeStat s) := by
  unfold State.safeStat
  repeat' (first
    | with_reducible assumption
    | with_reducible apply keeps_State_ev
    | with_reducible apply keeps_State_setB
    | (extract_lets +onlyGivenNames x; (have hx : P x := ?_); clear_value x; revert x; intro y hy; rotate_left; unfold x; clear x)
    | (extract_lets +onlyGivenNames x; clear_value x; revert x; intro y)
    | with_reducible apply keeps_ite)

theorem keeps_State_pairFaultAct {P : State → Prop} (hP : K0 P) {s hold pc} (h_s : P s) :
    P (State.pairFaultAct s hold pc) := by
  unfold State.pairFaultAct
  repeat' (first
    | with_reducible assumption
    | with_reducible apply keeps_State_applySgr
    | with_reducible apply keeps_State_safeStat
    | with_reducible apply keeps_State_driveOuts
    | with_reducible apply keeps_State_setSafe
    | with_reducible apply keeps_State_demand
    | with_reducible apply keeps_State_free
    | with_reducible apply keeps_State_err
    | with_reducible apply keeps_State_ev
    | with_reducible apply keeps_State_set
    | with_reducible apply keeps_State_setReg
    | with_reducible apply keeps_foldl
    | with_reducible intro _
    | with_reducible apply keeps_ite)

theorem keeps_State_pairFault {P : State → Prop} (hP : K0 P) {s bit pc} (h_s : P s) :
    P (State.pairFault s bit pc) := by
  unfold State.pairFault
  repeat' (first
    | with_reducible assumption
    | with_reducible apply keeps_State_pairFaultAct
    | with_reducible apply keeps_State_set
    | split)

theorem keeps_State_paramCheck {P : State → Prop} (hP : K0 P) {s} (h_s : P s) :
    P (State.paramCheck s) := by
  unfold State.paramCheck
  repeat' (first
    | with_reducible assumption
    | with_reducible apply keeps_State_pairFault
    | with_reducible apply keeps_State_free
    | with_reducible apply keeps_State_setSafe
    | (extract_lets +onlyGivenNames x; (have hx : P x := ?_); clear_value x; revert x; intro y hy; rotate_left; unfold x; clear x)
    | (extract_lets +onlyGivenNames x; (have hx : P x.2 := ?_); clear_value x; revert x; intro y hy; rotate_left; unfold x; clear x)
    | (extract_lets +onlyGivenNames x; clear_value x; revert x; intro y)
    | with_reducible apply keeps_ite)

theorem keeps_State_safeLocked {P : State → Prop} (hP : K0 P) {s} (h_s : P s) :
    P (State.safeLocked s) := by
  unfold State.safeLocked
  repeat' (first
    | with_reducible assumption
    | with_reducible apply keeps_State_paramCheck
    | with_reducible apply keeps_State_safeStat
    | with_reducible apply keeps_ite)

theorem keeps_State_safeRestart {P : State → Prop} (hP : K0 P) {s} (h_s : P s) :
    P (State.safeRestart s) := by
  unfold State.safeRestart
  repeat' (first
    | with_reducible assumption
    | with_reducible apply keeps_State_setSafe)

theorem keeps_State_safeRegWrite {P : State → Prop} (hP : K0 P) {s off v} (h_s : P s) :
    OptP (fun r => P (r).1) ((State.safeRegWrite s off v)) := by
  unfold State.safeRegWrite
  repeat' (first
    | with_reducible assumption
    | with_reducible apply keeps_refuse
    | with_reducible exact OptP.none
    | with_reducible apply OptP.some
    | with_reducible apply optP_ite)

theorem keeps_State_restInput {P : State → Prop} (hP : K0 P) {s i v} (h_s : P s) :
    P (State.restInput s i v) := by
  unfold State.restInput
  repeat' (first
    | with_reducible assumption
    | with_reducible apply keeps_State_wakeCause
    | with_reducible apply keeps_State_setBit
    | with_reducible apply keeps_State_setSafe
    | (extract_lets +onlyGivenNames x; (have hx : P x := ?_); clear_value x; revert x; intro y hy; rotate_left; unfold x; clear x)
    | (extract_lets +onlyGivenNames x; clear_value x; revert x; intro y)
    | with_reducible apply keeps_ite)

theorem keeps_execSafeInRestSample {P : State → Prop} (hP : K0 P) {levels s} (h_s : P s) :
    OutP P ((execSafeInRestSample levels s)) := by
  unfold execSafeInRestSample
  repeat' (first
    | with_reducible assumption
    | with_reducible apply keeps_State_restInput
    | with_reducible apply keeps_foldl
    | with_reducible apply OutP.next
    | with_reducible intro _
    | with_reducible apply keeps_ite)

theorem keeps_State_demandIn {P : State → Prop} (hP : K0 P) {s i} (h_s : P s) :
    P (State.demandIn s i) := by
  unfold State.demandIn
  repeat' (first
    | with_reducible assumption
    | with_reducible apply keeps_State_demand
    | split)

theorem keeps_State_safeWake {P : State → Prop} (hP : K0 P) {s} (h_s : P s) :
    P (State.safeWake s) := by
  unfold State.safeWake
  repeat' (first
    | with_reducible assumption
    | with_reducible apply keeps_State_setReg
    | with_reducible apply keeps_State_demandIn
    | with_reducible apply keeps_State_setSafe
    | with_reducible apply keeps_foldl
    | with_reducible intro _
    | (extract_lets +onlyGivenNames x; (have hx : P x := ?_); clear_value x; revert x; intro y hy; rotate_left; unfold x; clear x)
    | (extract_lets +onlyGivenNames x; clear_value x; revert x; intro y)
    | with_reducible apply keeps_ite)

theorem keeps_State_pairEcc {P : State → Prop} (hP : K0 P) {s e addr pc} (h_s : P s) :
    P (State.pairEcc s e addr pc) := by
  unfold State.pairEcc
  repeat' (first
    | with_reducible assumption
    | with_reducible apply keeps_State_pairFault
    | with_reducible apply keeps_State_incF
    | with_reducible apply keeps_State_setReg
    | with_reducible apply keeps_State_ev
    | (extract_lets +onlyGivenNames x; (have hx : P x := ?_); clear_value x; revert x; intro y hy; rotate_left; unfold x; clear x)
    | with_reducible apply keeps_ite
    | split)

theorem keeps_execTestAgeTick {P : State → Prop} (hP : K0 P) {s} (h_s : P s) :
    OutP P ((execTestAgeTick s)) := by
  unfold execTestAgeTick
  repeat' (first
    | with_reducible assumption
    | with_reducible apply keeps_State_ev
    | with_reducible apply keeps_State_set
    | with_reducible apply keeps_State_safeStat
    | with_reducible apply keeps_foldl
    | with_reducible apply OutP.next
    | with_reducible intro _
    | with_reducible apply keeps_ite)

theorem keeps_State_blockAll {P : State → Prop} (hP : K0 P) {s} (h_s : P s) :
    P (State.blockAll s) := by
  unfold State.blockAll
  repeat' (first
    | with_reducible assumption
    | with_reducible apply keeps_State_applySgr
    | with_reducible apply keeps_State_driveOuts
    | with_reducible apply keeps_State_setReg
    | with_reducible apply keeps_foldl
    | with_reducible intro _)

theorem keeps_execPairWdtFault {P : State → Prop} (hP : K0 P) {pc s} (h_s : P s) :
    OutP P ((execPairWdtFault pc s)) := by
  unfold execPairWdtFault
  repeat' (first
    | with_reducible assumption
    | with_reducible apply keeps_State_pairFault
    | with_reducible apply keeps_State_blockAll
    | with_reducible apply OutP.next
    | with_reducible apply keeps_ite)

theorem keeps_execPairEccError {P : State → Prop} (hP : K0 P) {e addr pc s} (h_s : P s) :
    OutP P ((execPairEccError e addr pc s)) := by
  unfold execPairEccError
  repeat' (first
    | with_reducible assumption
    | with_reducible apply keeps_State_pairEcc
    | with_reducible apply OutP.next)

theorem keeps_execLockstepMismatch {P : State → Prop} (hP : K0 P) {pc s} (h_s : P s) :
    OutP P ((execLockstepMismatch pc s)) := by
  unfold execLockstepMismatch
  repeat' (first
    | with_reducible assumption
    | with_reducible apply keeps_State_pairFault
    | with_reducible apply OutP.next
    | with_reducible apply keeps_ite)

theorem keeps_execResetJammed {P : State → Prop} (hP : K0 P) {s} (h_s : P s) :
    OutP P ((execResetJammed s)) := by
  unfold execResetJammed
  repeat' (first
    | with_reducible assumption
    | with_reducible apply keeps_State_setSafe
    | with_reducible apply keeps_State_set
    | with_reducible apply keeps_State_err
    | with_reducible apply OutP.next
    | (extract_lets +onlyGivenNames x; clear_value x; revert x; intro y)
    | with_reducible apply keeps_ite)

theorem keeps_State_safetyReset {P : State → Prop} (hP : K0 P) {s} (h_s : P s) :
    P (State.safetyReset s) := by
  unfold State.safetyReset
  extract_lets latch keep gone x s2 s3 s4 s5 s6
  have h2 : P s2 := keeps_State_setSafe hP h_s
  clear_value s2
  have h3 : P s3 := keeps_State_setReg hP h2
  clear_value s3 keep gone
  have h4 : P s4 := keeps_ite h3 (keeps_State_err hP h3)
  clear_value s4
  have h5 : P s5 := keeps_ite h4 (keeps_State_ev hP h4)
  clear_value s5
  exact keeps_State_driveOuts hP (keeps_ite h5 (keeps_foldl h5 (fun s x h => keeps_State_setBit hP h)))

theorem keeps_State_rstPulse {P : State → Prop} (hP : K0 P) {s ms} (h_s : P s) :
    P (State.rstPulse s ms) := by
  unfold State.rstPulse
  repeat' (first
    | with_reducible assumption
    | with_reducible apply keeps_State_incFW
    | with_reducible apply keeps_State_safetyReset
    | with_reducible apply keeps_State_err
    | with_reducible apply keeps_State_set
    | with_reducible apply keeps_State_setSafe
    | (extract_lets +onlyGivenNames x; (have hx : P x := ?_); clear_value x; revert x; intro y hy; rotate_left; unfold x; clear x)
    | (extract_lets +onlyGivenNames x; clear_value x; revert x; intro y)
    | with_reducible apply keeps_ite)

theorem keeps_execSafetyReset {P : State → Prop} (hP : K0 P) {ms s} (h_s : P s) :
    OutP P ((execSafetyReset ms s)) := by
  unfold execSafetyReset
  repeat' (first
    | with_reducible assumption
    | with_reducible apply keeps_State_rstPulse
    | with_reducible apply OutP.next
    | with_reducible apply keeps_ite)

theorem keeps_State_showIn {P : State → Prop} (hP : K0 P) {s} (h_s : P s) :
    P (State.showIn s) := by
  unfold State.showIn
  repeat' (first
    | with_reducible assumption
    | with_reducible apply keeps_State_set)

theorem keeps_execPairDiscrepancy {P : State → Prop} (hP : K0 P) {m s} (h_s : P s) :
    OutP P ((execPairDiscrepancy m s)) := by
  unfold execPairDiscrepancy
  repeat' (first
    | with_reducible assumption
    | with_reducible apply keeps_State_showIn
    | with_reducible apply keeps_State_err
    | with_reducible apply keeps_State_demandIn
    | with_reducible apply keeps_State_setSafe
    | with_reducible apply OutP.next
    | (extract_lets +onlyGivenNames x; (have hx : P x := ?_); clear_value x; revert x; intro y hy; rotate_left; unfold x; clear x)
    | (extract_lets +onlyGivenNames x; clear_value x; revert x; intro y)
    | with_reducible apply keeps_ite)

theorem keeps_State_inLevel {P : State → Prop} (hP : K0 P) {s i v} (h_s : P s) :
    P (State.inLevel s i v) := by
  unfold State.inLevel
  repeat' (first
    | with_reducible assumption
    | with_reducible apply keeps_State_demandIn
    | with_reducible apply keeps_State_setSafe
    | with_reducible apply keeps_State_showIn
    | with_reducible apply keeps_State_setBit
    | (extract_lets +onlyGivenNames x; (have hx : P x := ?_); clear_value x; revert x; intro y hy; rotate_left; unfold x; clear x)
    | (extract_lets +onlyGivenNames x; clear_value x; revert x; intro y)
    | with_reducible apply keeps_ite)

theorem keeps_execSafeInLevel {P : State → Prop} (hP : K0 P) {i v s} (h_s : P s) :
    OutP P ((execSafeInLevel i v s)) := by
  unfold execSafeInLevel
  repeat' (first
    | with_reducible assumption
    | with_reducible apply keeps_State_inLevel
    | with_reducible apply OutP.next
    | with_reducible apply keeps_ite)

theorem keeps_execSgrTripResend {P : State → Prop} (hP : K0 P) {r s} (h_s : P s) :
    OutP P ((execSgrTripResend r s)) := by
  unfold execSgrTripResend
  repeat' (first
    | with_reducible assumption
    | with_reducible apply keeps_State_send
    | with_reducible apply OutP.next
    | with_reducible apply keeps_ite)

theorem keeps_State_endSpds {P : State → Prop} (hP : K0 P) {s} (h_s : P s) :
    P (State.endSpds s) := by
  unfold State.endSpds
  repeat' (first
    | with_reducible assumption
    | with_reducible apply keeps_State_applySgr
    | with_reducible apply keeps_State_setBit
    | with_reducible apply keeps_foldl
    | with_reducible intro _
    | (extract_lets +onlyGivenNames x; (have hx : P x := ?_); clear_value x; revert x; intro y hy; rotate_left; unfold x; clear x)
    | with_reducible apply keeps_ite)

theorem keeps_State_holdRods {P : State → Prop} (hP : K0 P) {s} (h_s : P s) :
    P (State.holdRods s) := by
  unfold State.holdRods
  repeat' (first
    | with_reducible assumption
    | with_reducible apply keeps_State_tripPath
    | with_reducible apply keeps_State_setBit
    | with_reducible apply keeps_foldl
    | with_reducible intro _
    | with_reducible apply keeps_ite)

theorem keeps_State_readback {P : State → Prop} (hP : K0 P) {s rb} (h_s : P s) :
    P (State.readback s rb) := by
  unfold State.readback
  repeat' (first
    | with_reducible assumption
    | with_reducible apply keeps_State_demand
    | with_reducible apply keeps_State_setSafe
    | with_reducible apply keeps_State_set
    | with_reducible apply keeps_State_injTake
    | with_reducible apply keeps_foldl
    | with_reducible intro _
    | (extract_lets +onlyGivenNames x; (have hx : P x := ?_); clear_value x; revert x; intro y hy; rotate_left; unfold x; clear x)
    | (extract_lets +onlyGivenNames x; clear_value x; revert x; intro y)
    | with_reducible apply keeps_ite)

theorem keeps_State_setMon {P : State → Prop} (hP : K0 P) {s r x} (h_s : P s) :
    P (State.setMon s r x) := by
  unfold State.setMon
  repeat' (first
    | with_reducible assumption
    | with_reducible apply keeps_State_setSafe)

theorem keeps_State_beginSpd {P : State → Prop} (hP : K0 P) {s r td latching} (h_s : P s) :
    P (State.beginSpd s r td latching) := by
  unfold State.beginSpd
  repeat' (first
    | with_reducible assumption
    | with_reducible apply keeps_State_setBit
    | with_reducible apply keeps_State_setMon)

theorem keeps_State_applySpd {P : State → Prop} (hP : K0 P) {s r latching} (h_s : P s) :
    P (State.applySpd s r latching) := by
  unfold State.applySpd
  repeat' (first
    | with_reducible assumption
    | with_reducible apply keeps_State_applySgr
    | with_reducible apply keeps_State_beginSpd
    | with_reducible apply keeps_State_setRod
    | with_reducible apply keeps_State_descentCause
    | with_reducible apply keeps_State_ev
    | with_reducible apply keeps_State_setMon
    | (extract_lets +onlyGivenNames x; (have hx : P x := ?_); clear_value x; revert x; intro y hy; rotate_left; unfold x; clear x)
    | (extract_lets +onlyGivenNames x; clear_value x; revert x; intro y)
    | with_reducible apply keeps_ite)

theorem keeps_State_applyDemands {P : State → Prop} (hP : K0 P) {s} (h_s : P s) :
    P (State.applyDemands s) := by
  unfold State.applyDemands
  repeat' (first
    | with_reducible assumption
    | with_reducible apply keeps_State_applySpd
    | with_reducible apply keeps_State_applySgr
    | with_reducible apply keeps_State_setSafe
    | with_reducible apply keeps_foldl
    | with_reducible intro _
    | with_reducible apply keeps_ite)

theorem keeps_State_monFail {P : State → Prop} (hP : K0 P) {s r sub} (h_s : P s) :
    P (State.monFail s r sub) := by
  unfold State.monFail
  repeat' (first
    | with_reducible assumption
    | with_reducible apply keeps_State_set
    | with_reducible apply keeps_State_demand)

theorem keeps_State_monitor {P : State → Prop} (hP : K0 P) {s r} (h_s : P s) :
    P (State.monitor s r) := by
  unfold State.monitor
  repeat' (first
    | with_reducible assumption
    | with_reducible apply keeps_State_monFail
    | with_reducible apply keeps_State_setReg
    | with_reducible apply keeps_State_setMon
    | with_reducible apply keeps_State_set
    | with_reducible apply keeps_foldl
    | with_reducible intro _
    | (extract_lets +onlyGivenNames x; (have hx : P x := ?_); clear_value x; revert x; intro y hy; rotate_left; unfold x; clear x)
    | (extract_lets +onlyGivenNames x; clear_value x; revert x; intro y)
    | with_reducible apply keeps_ite)

theorem keeps_State_inputDemands {P : State → Prop} (hP : K0 P) {s} (h_s : P s) :
    P (State.inputDemands s) := by
  unfold State.inputDemands
  repeat' (first
    | with_reducible assumption
    | with_reducible apply keeps_State_demandIn
    | with_reducible apply keeps_State_injTake
    | with_reducible apply keeps_foldl
    | with_reducible intro _
    | (extract_lets +onlyGivenNames x; clear_value x; revert x; intro y)
    | with_reducible apply keeps_ite
    | with_reducible apply keeps_ite2
    | split)

theorem keeps_State_internalDemands {P : State → Prop} (hP : K0 P) {s} (h_s : P s) :
    P (State.internalDemands s) := by
  unfold State.internalDemands
  repeat' (first
    | with_reducible assumption
    | with_reducible apply keeps_State_demand
    | with_reducible apply keeps_State_setRod
    | with_reducible apply keeps_foldl
    | with_reducible intro _
    | (extract_lets +onlyGivenNames x; (have hx : P x := ?_); clear_value x; revert x; intro y hy; rotate_left; unfold x; clear x)
    | (extract_lets +onlyGivenNames x; clear_value x; revert x; intro y)
    | with_reducible apply keeps_ite)

theorem keeps_State_pairInjections {P : State → Prop} (hP : K0 P) {s} (h_s : P s) :
    P (State.pairInjections s) := by
  unfold State.pairInjections
  repeat' (first
    | with_reducible assumption
    | with_reducible apply keeps_State_inc
    | with_reducible apply keeps_State_pairFault
    | with_reducible apply keeps_State_pairEcc
    | with_reducible apply keeps_State_injTake
    | with_reducible apply keeps_State_free
    | (extract_lets +onlyGivenNames x; (have hx : P x.2 := ?_); clear_value x; revert x; intro y hy; rotate_left; unfold x; clear x)
    | with_reducible apply keeps_ite)

theorem keeps_State_safetyCycle {P : State → Prop} (hP : K0 P) {s rb busy} (h_s : P s) :
    P (State.safetyCycle s rb busy) := by
  unfold State.safetyCycle
  repeat' (first
    | with_reducible assumption
    | with_reducible apply keeps_State_endSpds
    | with_reducible apply keeps_State_holdRods
    | with_reducible apply keeps_State_safeStat
    | with_reducible apply keeps_State_driveOuts
    | with_reducible apply keeps_State_readback
    | with_reducible apply keeps_State_applyDemands
    | with_reducible apply keeps_State_monitor
    | with_reducible apply keeps_State_showIn
    | with_reducible apply keeps_State_inputDemands
    | with_reducible apply keeps_State_internalDemands
    | with_reducible apply keeps_State_pairInjections
    | with_reducible apply keeps_State_paramCheck
    | with_reducible apply keeps_State_setReg
    | with_reducible apply keeps_State_set
    | with_reducible apply keeps_foldl
    | (extract_lets +onlyGivenNames x; (have hx : P x := ?_); clear_value x; revert x; intro y hy; rotate_left; unfold x; clear x)
    | with_reducible apply keeps_ite)

theorem keeps_execSafetyCycle {P : State → Prop} (hP : K0 P) {rb busy s} (h_s : P s) :
    OutP P ((execSafetyCycle rb busy s)) := by
  unfold execSafetyCycle
  repeat' (first
    | with_reducible assumption
    | with_reducible apply keeps_State_safetyCycle
    | with_reducible apply OutP.next
    | with_reducible apply keeps_ite)

end Sys2Proof.Machine
end

