-- ==== Sys2Proof/Laws/KStepper.lean ====
section
/-! SUPPORT. What the operations of Machine.Stepper keep. -/

namespace Sys2Proof.Machine

open Host (Outcome)

theorem keeps_State_setStepper {P : State → Prop} (hP : K0 P) {s n x} (h_s : P s) :
    P (State.setStepper s n x) := by
  unfold State.setStepper
  repeat' (first
    | with_reducible assumption
    | fail_if_no_progress with_reducible refine hP.upd ?_)

theorem keeps_State_setStepOut {P : State → Prop} (hP : K0 P) {s n o} (h_s : P s) :
    P (State.setStepOut s n o) := by
  unfold State.setStepOut
  repeat' (first
    | with_reducible assumption
    | with_reducible apply keeps_State_setStepper
    | with_reducible apply keeps_State_send
    | (extract_lets +onlyGivenNames x; clear_value x; revert x; intro y)
    | with_reducible apply keeps_ite)

theorem keeps_State_showStep {P : State → Prop} (hP : K0 P) {s n} (h_s : P s) :
    P (State.showStep s n) := by
  unfold State.showStep
  repeat' (first
    | with_reducible assumption
    | with_reducible apply keeps_State_setStepper
    | with_reducible apply keeps_State_setB
    | with_reducible apply keeps_State_set
    | with_reducible apply keeps_State_setReg)

theorem keeps_State_setStepSt {P : State → Prop} (hP : K0 P) {s n st} (h_s : P s) :
    P (State.setStepSt s n st) := by
  unfold State.setStepSt
  repeat' (first
    | with_reducible assumption
    | with_reducible apply keeps_State_set)

theorem keeps_State_stepDisable {P : State → Prop} (hP : K0 P) {s n} (h_s : P s) :
    P (State.stepDisable s n) := by
  unfold State.stepDisable
  repeat' (first
    | with_reducible assumption
    | with_reducible apply keeps_State_setStepOut
    | with_reducible apply keeps_State_showStep
    | with_reducible apply keeps_State_set
    | with_reducible apply keeps_State_setStepSt
    | with_reducible apply keeps_ite)

theorem keeps_State_stepHold {P : State → Prop} (hP : K0 P) {s n} (h_s : P s) :
    P (State.stepHold s n) := by
  unfold State.stepHold
  repeat' (first
    | with_reducible assumption
    | with_reducible apply keeps_State_setStepSt
    | with_reducible apply keeps_State_setStepOut
    | with_reducible apply keeps_State_showStep
    | with_reducible apply keeps_State_setStepper)

theorem keeps_State_stepEnable {P : State → Prop} (hP : K0 P) {s n} (h_s : P s) :
    P (State.stepEnable s n) := by
  unfold State.stepEnable
  repeat' (first
    | with_reducible assumption
    | with_reducible apply keeps_State_stepHold
    | with_reducible apply keeps_ite)

theorem keeps_State_stepFresh {P : State → Prop} (hP : K0 P) {s n} (h_s : P s) :
    P (State.stepFresh s n) := by
  unfold State.stepFresh
  repeat' (first
    | with_reducible assumption
    | with_reducible apply keeps_State_set)

theorem keeps_State_stepGo {P : State → Prop} (hP : K0 P) {s n st} (h_s : P s) :
    P (State.stepGo s n st) := by
  unfold State.stepGo
  repeat' (first
    | with_reducible assumption
    | with_reducible apply keeps_State_stepFresh
    | with_reducible apply keeps_State_setStepSt
    | with_reducible apply keeps_State_setStepOut
    | with_reducible apply keeps_State_setStepper
    | (extract_lets +onlyGivenNames x; clear_value x; revert x; intro y)
    | with_reducible apply keeps_ite)

theorem keeps_State_stepHome {P : State → Prop} (hP : K0 P) {s n} (h_s : P s) :
    P ((State.stepHome s n)).1 := by
  unfold State.stepHome
  refine keeps_ite1 (keeps_refuse hP h_s) (keeps_ite1 h_s ?_)
  exact keeps_State_setStepper hP (keeps_State_stepGo hP h_s)

theorem keeps_State_stepHalt {P : State → Prop} (hP : K0 P) {s n} (h_s : P s) :
    P (State.stepHalt s n) := by
  unfold State.stepHalt
  repeat' (first
    | with_reducible assumption
    | with_reducible apply keeps_State_setStepper
    | with_reducible apply keeps_State_showStep
    | with_reducible apply keeps_State_ev
    | with_reducible apply keeps_State_stepHold
    | with_reducible apply keeps_State_set
    | (extract_lets +onlyGivenNames x; (have hx : P x := ?_); clear_value x; revert x; intro y hy; rotate_left; unfold x; clear x)
    | (extract_lets +onlyGivenNames x; clear_value x; revert x; intro y)
    | with_reducible apply keeps_ite)

theorem keeps_State_stepStop {P : State → Prop} (hP : K0 P) {s n} (h_s : P s) :
    P (State.stepStop s n) := by
  unfold State.stepStop
  repeat' (first
    | with_reducible assumption
    | with_reducible apply keeps_State_setStepSt
    | with_reducible apply keeps_ite)

theorem keeps_State_stepCmd {P : State → Prop} (hP : K0 P) {s n v} (h_s : P s) :
    P ((State.stepCmd s n v)).1 := by
  unfold State.stepCmd
  repeat' (first
    | with_reducible assumption
    | with_reducible apply keeps_State_stepHome
    | with_reducible apply keeps_State_stepHalt
    | with_reducible apply keeps_State_stepStop
    | (extract_lets +onlyGivenNames x; (have hx : P x := ?_); clear_value x; revert x; intro y hy; rotate_left; unfold x; clear x)
    | with_reducible apply keeps_ite
    | with_reducible apply keeps_ite1)

theorem keeps_State_stepPosWrite {P : State → Prop} (hP : K0 P) {s n v} (h_s : P s) :
    P ((State.stepPosWrite s n v)).1 := by
  unfold State.stepPosWrite
  repeat' (first
    | with_reducible assumption
    | with_reducible apply keeps_State_set
    | with_reducible apply keeps_State_showStep
    | with_reducible apply keeps_State_setStepper
    | with_reducible apply keeps_refuse
    | (extract_lets +onlyGivenNames x; (have hx : P x := ?_); clear_value x; revert x; intro y hy; rotate_left; unfold x; clear x)
    | (extract_lets +onlyGivenNames x; clear_value x; revert x; intro y)
    | with_reducible apply keeps_ite1)

theorem keeps_State_stepTarget {P : State → Prop} (hP : K0 P) {s n v} (h_s : P s) :
    P ((State.stepTarget s n v)).1 := by
  unfold State.stepTarget
  repeat' (first
    | with_reducible assumption
    | with_reducible apply keeps_State_stepGo
    | with_reducible apply keeps_State_incSat
    | with_reducible apply keeps_State_ev
    | with_reducible apply keeps_State_set
    | with_reducible apply keeps_State_setReg
    | with_reducible apply keeps_refuse
    | (extract_lets +onlyGivenNames x; (have hx : P x := ?_); clear_value x; revert x; intro y hy; rotate_left; unfold x; clear x)
    | (extract_lets +onlyGivenNames x; clear_value x; revert x; intro y)
    | with_reducible apply keeps_ite
    | with_reducible apply keeps_ite1)

theorem keeps_State_stepRegWrite {P : State → Prop} (hP : K0 P) {s n off v} (h_s : P s) :
    OptP (fun r => P (r).1) ((State.stepRegWrite s n off v)) := by
  unfold State.stepRegWrite
  repeat' (first
    | with_reducible assumption
    | with_reducible apply keeps_State_stepCmd
    | with_reducible apply keeps_State_stepPosWrite
    | with_reducible apply keeps_State_stepTarget
    | with_reducible exact OptP.none
    | with_reducible apply OptP.some
    | with_reducible apply optP_ite)

theorem keeps_State_stepRest {P : State → Prop} (hP : K0 P) {s n} (h_s : P s) :
    P (State.stepRest s n) := by
  unfold State.stepRest
  repeat' (first
    | with_reducible assumption
    | with_reducible apply keeps_State_setStepOut
    | with_reducible apply keeps_State_showStep
    | with_reducible apply keeps_State_setStepper
    | with_reducible apply keeps_State_set
    | with_reducible apply keeps_State_setStepSt
    | with_reducible apply keeps_ite)

theorem keeps_State_stepOff {P : State → Prop} (hP : K0 P) {s n} (h_s : P s) :
    P (State.stepOff s n) := by
  unfold State.stepOff
  repeat' (first
    | with_reducible assumption
    | with_reducible apply keeps_State_setStepSt
    | with_reducible apply keeps_State_setStepOut
    | with_reducible apply keeps_State_showStep
    | with_reducible apply keeps_State_set
    | with_reducible apply keeps_State_ev)

theorem keeps_execStepperShutDone {P : State → Prop} (hP : K0 P) {n s} (h_s : P s) :
    OutP P ((execStepperShutDone n s)) := by
  unfold execStepperShutDone
  repeat' (first
    | with_reducible assumption
    | with_reducible apply keeps_State_stepOff
    | with_reducible apply OutP.next
    | with_reducible apply keeps_ite)

theorem keeps_State_standstill {P : State → Prop} (hP : K0 P) {s n} (h_s : P s) :
    P (State.standstill s n) := by
  unfold State.standstill
  repeat' (first
    | with_reducible assumption
    | with_reducible apply keeps_State_setStepSt
    | with_reducible apply keeps_State_setStepOut
    | with_reducible apply keeps_State_showStep
    | with_reducible apply keeps_State_setStepper)

theorem keeps_State_stallStop {P : State → Prop} (hP : K0 P) {s n} (h_s : P s) :
    P (State.stallStop s n) := by
  unfold State.stallStop
  repeat' (first
    | with_reducible assumption
    | with_reducible apply keeps_State_set
    | with_reducible apply keeps_State_standstill)

theorem keeps_execOvercurrentDetect {P : State → Prop} (hP : K0 P) {n cur us s} (h_s : P s) :
    OutP P ((execOvercurrentDetect n cur us s)) := by
  unfold execOvercurrentDetect
  repeat' (first
    | with_reducible assumption
    | with_reducible apply keeps_State_stallStop
    | with_reducible apply keeps_State_setStepOut
    | with_reducible apply keeps_State_set
    | with_reducible apply keeps_State_err
    | with_reducible apply OutP.next
    | with_reducible apply keeps_ite)

theorem keeps_execCoilOpenDetect {P : State → Prop} (hP : K0 P) {n coilB cur us s} (h_s : P s) :
    OutP P ((execCoilOpenDetect n coilB cur us s)) := by
  unfold execCoilOpenDetect
  repeat' (first
    | with_reducible assumption
    | with_reducible apply keeps_State_stallStop
    | with_reducible apply keeps_State_set
    | with_reducible apply keeps_State_err
    | with_reducible apply OutP.next
    | with_reducible apply keeps_ite)

theorem keeps_execStandstillEntry {P : State → Prop} (hP : K0 P) {n s} (h_s : P s) :
    OutP P ((execStandstillEntry n s)) := by
  unfold execStandstillEntry
  repeat' (first
    | with_reducible assumption
    | with_reducible apply keeps_State_standstill
    | with_reducible apply OutP.next
    | with_reducible apply keeps_ite)

theorem keeps_State_stall {P : State → Prop} (hP : K0 P) {s n} (h_s : P s) :
    P (State.stall s n) := by
  unfold State.stall
  repeat' (first
    | with_reducible assumption
    | with_reducible apply keeps_State_incSat
    | with_reducible apply keeps_State_stallStop
    | with_reducible apply keeps_State_err
    | with_reducible apply keeps_State_stepHold
    | with_reducible apply keeps_State_set
    | with_reducible apply keeps_State_ev
    | with_reducible apply keeps_State_setStepper
    | (extract_lets +onlyGivenNames x; (have hx : P x := ?_); clear_value x; revert x; intro y hy; rotate_left; unfold x; clear x)
    | (extract_lets +onlyGivenNames x; clear_value x; revert x; intro y)
    | with_reducible apply keeps_ite)

theorem keeps_execLoadAngleEstimate {P : State → Prop} (hP : K0 P) {n c s} (h_s : P s) :
    OutP P ((execLoadAngleEstimate n c s)) := by
  unfold execLoadAngleEstimate
  repeat' (first
    | with_reducible assumption
    | with_reducible apply keeps_State_stall
    | with_reducible apply keeps_State_set
    | with_reducible apply keeps_State_setStepper
    | with_reducible apply keeps_State_showStep
    | with_reducible apply OutP.next
    | (extract_lets +onlyGivenNames x; (have hx : P x := ?_); clear_value x; revert x; intro y hy; rotate_left; unfold x; clear x)
    | (extract_lets +onlyGivenNames x; clear_value x; revert x; intro y)
    | with_reducible apply keeps_ite)

theorem keeps_State_moveTick {P : State → Prop} (hP : K0 P) {s n} (h_s : P s) :
    P (State.moveTick s n) := by
  unfold State.moveTick
  repeat' (first
    | with_reducible assumption
    | with_reducible apply keeps_State_setStepSt
    | with_reducible apply keeps_State_showStep
    | with_reducible apply keeps_State_setStepper
    | with_reducible apply keeps_State_stepHold
    | with_reducible apply keeps_State_ev
    | (extract_lets +onlyGivenNames x; clear_value x; revert x; intro y)
    | with_reducible apply keeps_ite)

theorem keeps_State_homeTick {P : State → Prop} (hP : K0 P) {s n} (h_s : P s) :
    P (State.homeTick s n) := by
  unfold State.homeTick
  repeat' (first
    | with_reducible assumption
    | with_reducible apply keeps_State_set
    | with_reducible apply keeps_State_setStepSt
    | with_reducible apply keeps_State_showStep
    | with_reducible apply keeps_State_setStepper
    | (extract_lets +onlyGivenNames x; (have hx : P x := ?_); clear_value x; revert x; intro y hy; rotate_left; unfold x; clear x)
    | (extract_lets +onlyGivenNames x; clear_value x; revert x; intro y)
    | with_reducible apply keeps_ite)

theorem keeps_State_stopTick {P : State → Prop} (hP : K0 P) {s n} (h_s : P s) :
    P (State.stopTick s n) := by
  unfold State.stopTick
  repeat' (first
    | with_reducible assumption
    | with_reducible apply keeps_State_stepHold
    | with_reducible apply keeps_State_ev
    | with_reducible apply keeps_State_setReg
    | with_reducible apply keeps_State_setStepper
    | with_reducible apply keeps_State_showStep
    | (extract_lets +onlyGivenNames x; (have hx : P x := ?_); clear_value x; revert x; intro y hy; rotate_left; unfold x; clear x)
    | (extract_lets +onlyGivenNames x; clear_value x; revert x; intro y)
    | with_reducible apply keeps_ite)

theorem keeps_execStepperTick {P : State → Prop} (hP : K0 P) {n s} (h_s : P s) :
    OutP P ((execStepperTick n s)) := by
  unfold execStepperTick
  repeat' (first
    | with_reducible assumption
    | with_reducible apply keeps_State_moveTick
    | with_reducible apply keeps_State_homeTick
    | with_reducible apply keeps_State_stopTick
    | with_reducible apply OutP.next
    | with_reducible apply keeps_ite)

theorem keeps_execStepPosWrite {P : State → Prop} (hP : K0 P) {w n v s} (h_s : P s) :
    OutP P ((execStepPosWrite w n v s)) := by
  unfold execStepPosWrite
  repeat' (first
    | with_reducible assumption
    | with_reducible apply keeps_State_stepPosWrite
    | with_reducible apply keeps_State_actionWrite
    | with_reducible apply keeps_finish
    | with_reducible apply OutP.next
    | with_reducible intro _)

theorem keeps_State_stepCmdBy {P : State → Prop} (hP : K0 P) {s w n b} (h_s : P s) :
    P (State.stepCmdBy s w n b) := by
  unfold State.stepCmdBy
  repeat' (first
    | with_reducible assumption
    | with_reducible apply keeps_State_stepCmd
    | with_reducible apply keeps_State_actionWrite
    | with_reducible apply keeps_finish
    | with_reducible intro _)

theorem keeps_execStepHome {P : State → Prop} (hP : K0 P) {w n s} (h_s : P s) :
    OutP P ((execStepHome w n s)) := by
  unfold execStepHome
  repeat' (first
    | with_reducible assumption
    | with_reducible apply keeps_State_stepCmdBy
    | with_reducible apply OutP.next)

theorem keeps_execStepHalt {P : State → Prop} (hP : K0 P) {w n s} (h_s : P s) :
    OutP P ((execStepHalt w n s)) := by
  unfold execStepHalt
  repeat' (first
    | with_reducible assumption
    | with_reducible apply keeps_State_stepCmdBy
    | with_reducible apply OutP.next)

theorem keeps_execStepStop {P : State → Prop} (hP : K0 P) {w n s} (h_s : P s) :
    OutP P ((execStepStop w n s)) := by
  unfold execStepStop
  repeat' (first
    | with_reducible assumption
    | with_reducible apply keeps_State_stepCmdBy
    | with_reducible apply OutP.next)

theorem keeps_execStepTarget {P : State → Prop} (hP : K0 P) {w n v s} (h_s : P s) :
    OutP P ((execStepTarget w n v s)) := by
  unfold execStepTarget
  repeat' (first
    | with_reducible assumption
    | with_reducible apply keeps_State_stepTarget
    | with_reducible apply keeps_State_actionWrite
    | with_reducible apply keeps_finish
    | with_reducible apply OutP.next
    | with_reducible intro _)

end Sys2Proof.Machine
end

