-- ==== Sys2Proof/Laws/KResetCore.lean ====
section
/-! SUPPORT. What the operations of Machine.ResetCore keep. -/

namespace Sys2Proof.Machine

open Host (Outcome)

theorem keeps_State_setBist {P : State → Prop} (hP : K0 P) {s x} (h_s : P s) :
    P (State.setBist s x) := by
  unfold State.setBist
  repeat' (first
    | with_reducible assumption
    | fail_if_no_progress with_reducible refine hP.upd ?_)

theorem keeps_State_applyStopped {P : State → Prop} (hP : K0 P) {s} (h_s : P s) :
    P (State.applyStopped s) := by
  unfold State.applyStopped
  repeat' (first
    | with_reducible assumption
    | with_reducible apply keeps_State_loopApplied
    | with_reducible apply keeps_State_applyCommit
    | with_reducible apply keeps_State_rodApplied
    | with_reducible apply keeps_foldl
    | with_reducible intro _
    | (extract_lets +onlyGivenNames x; (have hx : P x := ?_); clear_value x; revert x; intro y hy; rotate_left; unfold x; clear x)
    | with_reducible apply keeps_ite)

theorem keeps_State_setProc {P : State → Prop} (hP : K0 P) {s x} (h_s : P s) :
    P (State.setProc s x) := by
  unfold State.setProc
  repeat' (first
    | with_reducible assumption
    | fail_if_no_progress with_reducible refine hP.upd ?_)

theorem keeps_State_setBoot {P : State → Prop} (hP : K0 P) {s x} (h_s : P s) :
    P (State.setBoot s x) := by
  unfold State.setBoot
  repeat' (first
    | with_reducible assumption
    | fail_if_no_progress with_reducible refine hP.upd ?_)

theorem keeps_State_clearPages {P : State → Prop} (hP : K0 P) {s d keep} (h_s : P s) :
    P (State.clearPages s d keep) := by
  unfold State.clearPages
  repeat' (first
    | with_reducible assumption
    | fail_if_no_progress with_reducible refine hP.updKeep ?_)

theorem keeps_State_resetFab {P : State → Prop} (hP : K0 P) {s} (h_s : P s) :
    P (State.resetFab s) := by
  unfold State.resetFab
  repeat' (first
    | with_reducible assumption
    | with_reducible apply keeps_State_clearPages
    | with_reducible apply keeps_State_linkDown
    | with_reducible apply keeps_foldl
    | (extract_lets +onlyGivenNames x; (have hx : P x := ?_); clear_value x; revert x; intro y hy; rotate_left; unfold x; clear x)
    | fail_if_no_progress with_reducible refine hP.upd ?_)

theorem keeps_State_dieLinksOff {P : State → Prop} (hP : K0 P) {s k} (h_s : P s) :
    P (State.dieLinksOff s k) := by
  unfold State.dieLinksOff
  repeat' (first
    | with_reducible assumption
    | with_reducible apply keeps_State_enterLinkOff
    | with_reducible apply keeps_foldl
    | with_reducible intro _)

theorem keeps_State_resetRd {P : State → Prop} (hP : K1 P) {s} (h_s : P s) :
    P (State.resetRd s) := by
  unfold State.resetRd
  have hm := hP.toKm
  have h0 := hm.toK0
  repeat' (first
    | with_reducible assumption
    | with_reducible apply keeps_State_lockCheck
    | with_reducible apply keeps_State_applyStopped
    | with_reducible apply keeps_State_dieLinksOff
    | with_reducible apply keeps_State_safeRestart
    | with_reducible apply keeps_State_beadsReset
    | with_reducible apply keeps_State_setReg
    | with_reducible apply keeps_State_clearPages
    | with_reducible apply keeps_State_endLease
    | with_reducible apply keeps_State_closeAll
    | with_reducible apply keeps_foldl
    | with_reducible intro _
    | (extract_lets +onlyGivenNames x; clear_value x; revert x; intro y)
    | split
    | dsimp -zeta only
    | fail_if_no_progress with_reducible refine hP.updNoBoth ?_)

theorem keeps_State_dieOutsOff {P : State → Prop} (hP : K0 P) {s k} (h_s : P s) :
    P (State.dieOutsOff s k) := by
  unfold State.dieOutsOff
  repeat' (first
    | with_reducible assumption
    | with_reducible apply keeps_State_setCont
    | with_reducible apply keeps_State_setPrech
    | with_reducible apply keeps_State_setDisch
    | with_reducible apply keeps_State_setBrk
    | with_reducible apply keeps_foldl
    | with_reducible intro _)

theorem keeps_State_resetFd {P : State → Prop} (hP : K0 P) {s k bus} (h_s : P s) :
    P (State.resetFd s k bus) := by
  unfold State.resetFd
  repeat' (first
    | with_reducible assumption
    | with_reducible apply keeps_State_clearPages
    | with_reducible apply keeps_State_dieLinksOff
    | with_reducible apply keeps_State_setStepOut
    | with_reducible apply keeps_State_dieOutsOff
    | with_reducible apply keeps_foldl
    | with_reducible intro _
    | (extract_lets +onlyGivenNames x; (have hx : P x := ?_); clear_value x; revert x; intro y hy; rotate_left; unfold x; clear x)
    | (extract_lets +onlyGivenNames x; clear_value x; revert x; intro y)
    | fail_if_no_progress with_reducible refine hP.upd ?_)

theorem keeps_State_resetDoms {P : State → Prop} (hP : K1 P) {s cause ds} (h_s : P s) :
    P (State.resetDoms s cause ds) := by
  unfold State.resetDoms
  have hm := hP.toKm
  have h0 := hm.toK0
  repeat' (first
    | with_reducible assumption
    | with_reducible apply keeps_State_evtPost
    | with_reducible apply keeps_State_degradeEnd
    | with_reducible apply keeps_State_incFW
    | with_reducible apply keeps_State_setReg
    | with_reducible apply keeps_State_resetFab
    | with_reducible apply keeps_State_resetRd
    | with_reducible apply keeps_State_resetFd
    | with_reducible apply keeps_foldl
    | with_reducible intro _
    | (extract_lets +onlyGivenNames x; (have hx : P x := ?_); clear_value x; revert x; intro y hy; rotate_left; unfold x; clear x)
    | (extract_lets +onlyGivenNames x; clear_value x; revert x; intro y)
    | with_reducible apply keeps_ite)

theorem keeps_State_toRun {P : State → Prop} (hP : K0 P) {s} (h_s : P s) :
    P (State.toRun s) := by
  unfold State.toRun
  repeat' (first
    | with_reducible assumption
    | with_reducible apply keeps_State_setRest
    | with_reducible apply keeps_State_pllLock
    | with_reducible apply keeps_State_set
    | with_reducible apply keeps_State_ev
    | with_reducible apply keeps_State_setDom
    | with_reducible apply keeps_foldl
    | with_reducible intro _
    | with_reducible apply keeps_ite)

theorem keeps_State_dieLinksOn {P : State → Prop} (hP : K0 P) {s k} (h_s : P s) :
    P (State.dieLinksOn s k) := by
  unfold State.dieLinksOn
  repeat' (first
    | with_reducible assumption
    | with_reducible apply keeps_State_enterTrain
    | with_reducible apply keeps_foldl
    | with_reducible intro _
    | with_reducible apply keeps_ite)

theorem keeps_State_domActive {P : State → Prop} (hP : Km P) {s d} (h_s : P s) :
    P (State.domActive s d) := by
  unfold State.domActive
  have h0 := hP.toK0
  repeat' (first
    | with_reducible assumption
    | with_reducible apply keeps_State_set
    | with_reducible apply keeps_State_agentReturn
    | with_reducible apply keeps_State_ethWake
    | with_reducible apply keeps_State_cntWake
    | with_reducible apply keeps_State_mbusDieActive
    | with_reducible apply keeps_State_dieLinksOn
    | with_reducible apply keeps_State_setDom
    | with_reducible apply keeps_foldl
    | with_reducible intro _
    | (extract_lets +onlyGivenNames x; (have hx : P x := ?_); clear_value x; revert x; intro y hy; rotate_left; unfold x; clear x)
    | with_reducible apply keeps_ite
    | split)

theorem keeps_State_domRest {P : State → Prop} (hP : K0 P) {s d} (h_s : P s) :
    P (State.domRest s d) := by
  unfold State.domRest
  repeat' (first
    | with_reducible assumption
    | with_reducible apply keeps_State_set
    | with_reducible apply keeps_State_driveOuts
    | with_reducible apply keeps_State_stopGen
    | with_reducible apply keeps_State_applyStopped
    | with_reducible apply keeps_State_reckRest
    | with_reducible apply keeps_State_cntRest
    | with_reducible apply keeps_State_mbusRest
    | with_reducible apply keeps_State_stepRest
    | with_reducible apply keeps_State_dieLinksOff
    | with_reducible apply keeps_State_dieOutsOff
    | with_reducible apply keeps_State_setDom
    | with_reducible apply keeps_foldl
    | with_reducible intro _
    | (extract_lets +onlyGivenNames x; (have hx : P x := ?_); clear_value x; revert x; intro y hy; rotate_left; unfold x; clear x)
    | with_reducible apply keeps_ite
    | split)

theorem keeps_State_setSup {P : State → Prop} (hP : K0 P) {s x} (h_s : P s) :
    P (State.setSup s x) := by
  unfold State.setSup
  repeat' (first
    | with_reducible assumption
    | fail_if_no_progress with_reducible refine hP.upd ?_)

theorem keeps_State_rdResume {P : State → Prop} (hP : K0 P) {s} (h_s : P s) :
    P (State.rdResume s) := by
  unfold State.rdResume
  repeat' (first
    | with_reducible assumption
    | with_reducible apply keeps_State_tryStartGen
    | with_reducible apply keeps_State_reckUnrest
    | with_reducible apply keeps_foldl
    | with_reducible intro _
    | with_reducible apply keeps_ite)

end Sys2Proof.Machine
end

