-- ==== Sys2Proof/Laws/KVsm.lean ====
section
/-! SUPPORT. What the operations of Machine.Vsm keep. -/

namespace Sys2Proof.Machine

open Host (Outcome)

theorem keeps_State_angleFree {P : State → Prop} (hP : K0 P) {s x y} (h_s : P s) :
    P ((State.angleFree s x y)).2 := by
  unfold State.angleFree
  repeat' (first
    | with_reducible assumption
    | with_reducible apply keeps_State_free
    | (extract_lets +onlyGivenNames x; (have hx : P x.2 := ?_); clear_value x; revert x; intro y hy; rotate_left; unfold x; clear x)
    | with_reducible apply keeps_ite2)

theorem keeps_State_vsmExc {P : State → Prop} (hP : K0 P) {s k mode p r y uman dt} (h_s : P s) :
    P ((State.vsmExc s k mode p r y uman dt)).2 := by
  unfold State.vsmExc
  repeat' (first
    | with_reducible assumption
    | with_reducible apply keeps_State_setReckWord
    | with_reducible apply keeps_foldl
    | with_reducible intro _)

theorem keeps_State_vsmWrite {P : State → Prop} (hP : K0 P) {s k iref om fgrid fl il el ok} (h_s : P s) :
    P (State.vsmWrite s k iref om fgrid fl il el ok) := by
  unfold State.vsmWrite
  repeat' (first
    | with_reducible assumption
    | with_reducible apply keeps_State_setReg
    | with_reducible apply keeps_State_loopRegWrite
    | with_reducible apply keeps_State_actionWrite
    | with_reducible intro _
    | dsimp -zeta only
    | with_reducible apply optP_getD1)

theorem keeps_State_vsmLoad {P : State → Prop} (hP : K0 P) {s k} (h_s : P s) :
    P (State.vsmLoad s k) := by
  unfold State.vsmLoad
  repeat' (first
    | with_reducible assumption
    | with_reducible apply keeps_State_plainWrite
    | with_reducible apply keeps_State_setVsm
    | (extract_lets +onlyGivenNames x; (have hx : P x := ?_); clear_value x; revert x; intro y hy; rotate_left; unfold x; clear x)
    | (extract_lets +onlyGivenNames x; clear_value x; revert x; intro y)
    | with_reducible apply keeps_ite)

theorem keeps_State_vsmAct {P : State → Prop} (hP : K0 P) {s k cnt} (h_s : P s) :
    P (State.vsmAct s k cnt) := by
  unfold State.vsmAct
  repeat' (first
    | with_reducible assumption
    | with_reducible apply keeps_State_angleFree
    | with_reducible apply keeps_State_vsmExc
    | with_reducible apply keeps_State_trig
    | with_reducible apply keeps_State_vsmWrite
    | with_reducible apply keeps_State_setVsm
    | with_reducible apply keeps_State_setReckWord
    | with_reducible apply keeps_State_frees
    | with_reducible apply keeps_State_vsmLoad
    | (extract_lets +onlyGivenNames x; (have hx : P x := ?_); clear_value x; revert x; intro y hy; rotate_left; unfold x; clear x)
    | (extract_lets +onlyGivenNames x; (have hx : P x.2 := ?_); clear_value x; revert x; intro y hy; rotate_left; unfold x; clear x)
    | (extract_lets +onlyGivenNames x; clear_value x; revert x; intro y)
    | with_reducible apply keeps_ite2
    | split)

theorem keeps_State_vsmWake {P : State → Prop} (hP : K0 P) {s k cnt} (h_s : P s) :
    P (State.vsmWake s k cnt) := by
  unfold State.vsmWake
  repeat' (first
    | with_reducible assumption
    | with_reducible apply keeps_State_setReckX
    | with_reducible apply keeps_State_setRkSt
    | with_reducible apply keeps_State_busyEnd
    | with_reducible apply keeps_State_setVsm
    | with_reducible apply keeps_State_vsmAct
    | with_reducible apply keeps_ite)

theorem keeps_execReckWake {P : State → Prop} (hP : K0 P) {k s} (h_s : P s) :
    OutP P ((execReckWake k s)) := by
  unfold execReckWake
  repeat' (first
    | with_reducible assumption
    | with_reducible apply keeps_State_vsmWake
    | with_reducible apply keeps_State_lbistFatal
    | with_reducible apply keeps_State_waitTake
    | with_reducible apply OutP.next
    | with_reducible apply keeps_ite
    | with_reducible apply outP_ite
    | split)

end Sys2Proof.Machine
end

