-- ==== Sys2Proof/Laws/KBist.lean ====
section
/-! SUPPORT. What the operations of Machine.Bist keep. -/

namespace Sys2Proof.Machine

open Host (Outcome)

theorem keeps_State_setLbSt {P : State → Prop} (hP : K0 P) {s v} (h_s : P s) :
    P (State.setLbSt s v) := by
  unfold State.setLbSt
  repeat' (first
    | with_reducible assumption
    | with_reducible apply keeps_State_set)

theorem keeps_State_rotationOff {P : State → Prop} (hP : K0 P) {s} (h_s : P s) :
    P (State.rotationOff s) := by
  unfold State.rotationOff
  repeat' (first
    | with_reducible assumption
    | with_reducible apply keeps_State_setLbSt
    | with_reducible apply keeps_State_set)

theorem keeps_State_showNext {P : State → Prop} (hP : K0 P) {s} (h_s : P s) :
    P (State.showNext s) := by
  unfold State.showNext
  repeat' (first
    | with_reducible assumption
    | with_reducible apply keeps_State_set)

theorem keeps_State_setSpare {P : State → Prop} (hP : K0 P) {s p} (h_s : P s) :
    P (State.setSpare s p) := by
  unfold State.setSpare
  repeat' (first
    | with_reducible assumption
    | with_reducible apply keeps_State_set)

theorem keeps_State_bistApplied {P : State → Prop} (hP : K0 P) {s0 s} (h_s0 : P s0) (h_s : P s) :
    P (State.bistApplied s0 s) := by
  unfold State.bistApplied
  repeat' (first
    | with_reducible assumption
    | with_reducible apply keeps_State_rotationOff
    | with_reducible apply keeps_State_setLbSt
    | with_reducible apply keeps_State_showNext
    | with_reducible apply keeps_State_setBist
    | with_reducible apply keeps_State_setSpare
    | with_reducible apply keeps_State_set
    | (extract_lets +onlyGivenNames x; (have hx : P x := ?_); clear_value x; revert x; intro y hy; rotate_left; unfold x; clear x)
    | (extract_lets +onlyGivenNames x; clear_value x; revert x; intro y)
    | with_reducible apply keeps_ite)

theorem keeps_State_dteRes {P : State → Prop} (hP : K0 P) {s code} (h_s : P s) :
    P (State.dteRes s code) := by
  unfold State.dteRes
  repeat' (first
    | with_reducible assumption
    | with_reducible apply keeps_State_setBist
    | with_reducible apply keeps_State_setReg
    | with_reducible apply keeps_State_ev
    | with_reducible apply keeps_State_err
    | with_reducible apply keeps_ite)

theorem keeps_State_dteGo {P : State → Prop} (hP : K0 P) {s op arg} (h_s : P s) :
    P (State.dteGo s op arg) := by
  unfold State.dteGo
  repeat' (first
    | with_reducible assumption
    | with_reducible apply keeps_State_setBist
    | with_reducible apply keeps_State_setReg
    | with_reducible apply keeps_State_dteRes
    | with_reducible apply keeps_State_set
    | (extract_lets +onlyGivenNames x; (have hx : P x := ?_); clear_value x; revert x; intro y hy; rotate_left; unfold x; clear x)
    | (extract_lets +onlyGivenNames x; clear_value x; revert x; intro y)
    | with_reducible apply keeps_ite)

theorem keeps_State_bistRegWrite {P : State → Prop} (hP : K0 P) {s off v} (h_s : P s) :
    OptP (fun r => P (r).1) ((State.bistRegWrite s off v)) := by
  unfold State.bistRegWrite
  repeat' (first
    | with_reducible assumption
    | with_reducible apply keeps_State_setBist
    | with_reducible apply keeps_State_setWord
    | with_reducible apply keeps_State_set
    | with_reducible apply keeps_State_dteGo
    | with_reducible exact OptP.none
    | with_reducible apply OptP.some
    | (extract_lets +onlyGivenNames x; (have hx : P x := ?_); clear_value x; revert x; intro y hy; rotate_left; unfold x; clear x)
    | (extract_lets +onlyGivenNames x; clear_value x; revert x; intro y)
    | with_reducible apply optP_ite
    | split)

theorem keeps_State_testBegin {P : State → Prop} (hP : K0 P) {s st} (h_s : P s) :
    P (State.testBegin s st) := by
  unfold State.testBegin
  repeat' (first
    | with_reducible assumption
    | with_reducible apply keeps_State_set
    | with_reducible apply keeps_State_setLbSt
    | with_reducible apply keeps_State_setBist)

theorem keeps_execLbistSlot {P : State → Prop} (hP : K0 P) {s} (h_s : P s) :
    OutP P ((execLbistSlot s)) := by
  unfold execLbistSlot
  repeat' (first
    | with_reducible assumption
    | with_reducible apply keeps_State_setLbSt
    | with_reducible apply keeps_State_setBist
    | with_reducible apply keeps_State_testBegin
    | with_reducible apply OutP.next
    | (extract_lets +onlyGivenNames x; clear_value x; revert x; intro y)
    | with_reducible apply outP_ite)

theorem keeps_execSlotSkip {P : State → Prop} (hP : K0 P) {s} (h_s : P s) :
    OutP P ((execSlotSkip s)) := by
  unfold execSlotSkip
  repeat' (first
    | with_reducible assumption
    | with_reducible apply keeps_State_set
    | with_reducible apply keeps_State_err
    | with_reducible apply keeps_State_ev
    | with_reducible apply keeps_State_rotationOff
    | with_reducible apply keeps_State_setLbSt
    | with_reducible apply keeps_State_setBist
    | with_reducible apply keeps_State_incF
    | with_reducible apply OutP.next
    | (extract_lets +onlyGivenNames x; (have hx : P x := ?_); clear_value x; revert x; intro y hy; rotate_left; unfold x; clear x)
    | (extract_lets +onlyGivenNames x; clear_value x; revert x; intro y)
    | with_reducible apply keeps_ite
    | with_reducible apply outP_ite)

theorem keeps_execMigrationStart {P : State → Prop} (hP : K0 P) {k s} (h_s : P s) :
    OutP P ((execMigrationStart k s)) := by
  unfold execMigrationStart
  repeat' (first
    | with_reducible assumption
    | with_reducible apply keeps_State_setRkSt
    | with_reducible apply keeps_State_setLbSt
    | with_reducible apply OutP.next
    | with_reducible apply outP_ite
    | split)

theorem keeps_execMigrationDone {P : State → Prop} (hP : K0 P) {k s} (h_s : P s) :
    OutP P ((execMigrationDone k s)) := by
  unfold execMigrationDone
  repeat' (first
    | with_reducible assumption
    | with_reducible apply keeps_State_vsmWake
    | with_reducible apply keeps_State_incSat
    | with_reducible apply keeps_State_waitTake
    | with_reducible apply keeps_State_setRkSt
    | with_reducible apply keeps_State_ev
    | with_reducible apply keeps_State_set
    | with_reducible apply keeps_State_setSpare
    | with_reducible apply keeps_State_testBegin
    | with_reducible apply OutP.next
    | (extract_lets +onlyGivenNames x; (have hx : P x := ?_); clear_value x; revert x; intro y hy; rotate_left; unfold x; clear x)
    | (extract_lets +onlyGivenNames x; clear_value x; revert x; intro y)
    | with_reducible apply keeps_ite
    | with_reducible apply outP_ite
    | split)

theorem keeps_State_memTested {P : State → Prop} (hP : K0 P) {s t} (h_s : P s) :
    P (State.memTested s t) := by
  unfold State.memTested
  repeat' (first
    | with_reducible assumption
    | with_reducible apply keeps_State_setBist)

theorem keeps_State_reckZero {P : State → Prop} (hP : K0 P) {s n dram} (h_s : P s) :
    P (State.reckZero s n dram) := by
  unfold State.reckZero
  repeat' (first
    | with_reducible assumption
    | with_reducible apply keeps_State_setReckWord
    | with_reducible apply keeps_foldl
    | with_reducible intro _
    | (extract_lets +onlyGivenNames x; (have hx : P x := ?_); clear_value x; revert x; intro y hy; rotate_left; unfold x; clear x)
    | (extract_lets +onlyGivenNames x; clear_value x; revert x; intro y)
    | with_reducible apply keeps_ite
    | fail_if_no_progress with_reducible refine hP.upd ?_)

theorem keeps_State_coreZero {P : State → Prop} (hP : K0 P) {s p dram} (h_s : P s) :
    P (State.coreZero s p dram) := by
  unfold State.coreZero
  repeat' (first
    | with_reducible assumption
    | with_reducible apply keeps_State_reckZero
    | split)

theorem keeps_State_memCleared {P : State → Prop} (hP : K1 P) {s id} (h_s : P s) :
    P (State.memCleared s id) := by
  unfold State.memCleared
  have hm := hP.toKm
  have h0 := hm.toK0
  repeat' (first
    | with_reducible assumption
    | with_reducible apply keeps_State_coreZero
    | with_reducible apply keeps_ite
    | fail_if_no_progress with_reducible refine h0.updKeep ?_
    | fail_if_no_progress with_reducible refine hP.updNoPair ?_
    | fail_if_no_progress with_reducible refine hP.updNoCommon ?_
    | fail_if_no_progress with_reducible refine h0.upd ?_)

theorem keeps_State_coreFail {P : State → Prop} (hP : K0 P) {s p n} (h_s : P s) :
    P (State.coreFail s p n) := by
  unfold State.coreFail
  repeat' (first
    | with_reducible assumption
    | with_reducible apply keeps_State_setBist
    | with_reducible apply keeps_State_err
    | with_reducible apply keeps_State_ev
    | with_reducible apply keeps_State_setBit
    | with_reducible apply keeps_State_incF
    | (extract_lets +onlyGivenNames x; (have hx : P x := ?_); clear_value x; revert x; intro y hy; rotate_left; unfold x; clear x)
    | (extract_lets +onlyGivenNames x; clear_value x; revert x; intro y)
    | with_reducible apply keeps_ite
    | split)

theorem keeps_State_corePass {P : State → Prop} (hP : K0 P) {s p} (h_s : P s) :
    P (State.corePass s p) := by
  unfold State.corePass
  repeat' (first
    | with_reducible assumption
    | with_reducible apply keeps_State_incF
    | with_reducible apply keeps_State_setBist)

theorem keeps_State_slotEnd {P : State → Prop} (hP : K0 P) {s p} (h_s : P s) :
    P (State.slotEnd s p) := by
  unfold State.slotEnd
  repeat' (first
    | with_reducible assumption
    | with_reducible apply keeps_State_reckStart
    | with_reducible apply keeps_State_setBist
    | with_reducible apply keeps_foldl
    | with_reducible intro _
    | with_reducible apply keeps_ite)

theorem keeps_execLbistTestDone {P : State → Prop} (hP : K0 P) {pass mems s} (h_s : P s) :
    OutP P ((execLbistTestDone pass mems s)) := by
  unfold execLbistTestDone
  repeat' (first
    | with_reducible assumption
    | with_reducible apply keeps_State_rotationOff
    | with_reducible apply keeps_State_showNext
    | with_reducible apply keeps_State_setLbSt
    | with_reducible apply keeps_State_slotEnd
    | with_reducible apply keeps_State_set
    | with_reducible apply keeps_State_coreFail
    | with_reducible apply keeps_State_corePass
    | with_reducible apply keeps_State_coreZero
    | with_reducible apply keeps_State_memTested
    | with_reducible apply keeps_foldl
    | with_reducible apply OutP.next
    | (extract_lets +onlyGivenNames x; (have hx : P x := ?_); clear_value x; revert x; intro y hy; rotate_left; unfold x; clear x)
    | (extract_lets +onlyGivenNames x; clear_value x; revert x; intro y)
    | with_reducible apply keeps_ite
    | with_reducible apply outP_ite
    | split)

theorem keeps_State_slotAbandon {P : State → Prop} (hP : K0 P) {s} (h_s : P s) :
    P (State.slotAbandon s) := by
  unfold State.slotAbandon
  repeat' (first
    | with_reducible assumption
    | with_reducible apply keeps_State_slotEnd
    | with_reducible apply keeps_State_setLbSt
    | with_reducible apply keeps_State_setBist
    | with_reducible apply keeps_State_set
    | with_reducible apply keeps_State_setSpare
    | with_reducible apply keeps_State_setRkSt
    | with_reducible apply keeps_State_ev
    | (extract_lets +onlyGivenNames x; clear_value x; revert x; intro y)
    | with_reducible apply keeps_ite
    | split)

theorem keeps_State_dteCmd {P : State → Prop} (hP : K0 P) {s w op arg} (h_s : P s) :
    P (State.dteCmd s w op arg) := by
  unfold State.dteCmd
  repeat' (first
    | with_reducible assumption
    | with_reducible apply keeps_State_dteGo
    | with_reducible apply keeps_State_actionWrite
    | with_reducible apply keeps_finish
    | with_reducible intro _)

theorem keeps_execDteMemoryTest {P : State → Prop} (hP : K0 P) {w id s} (h_s : P s) :
    OutP P ((execDteMemoryTest w id s)) := by
  unfold execDteMemoryTest
  repeat' (first
    | with_reducible assumption
    | with_reducible apply keeps_State_dteCmd
    | with_reducible apply OutP.next)

theorem keeps_execDteLogicTest {P : State → Prop} (hP : K0 P) {w core s} (h_s : P s) :
    OutP P ((execDteLogicTest w core s)) := by
  unfold execDteLogicTest
  repeat' (first
    | with_reducible assumption
    | with_reducible apply keeps_State_dteCmd
    | with_reducible apply OutP.next)

theorem keeps_execDteBurnRepair {P : State → Prop} (hP : K0 P) {w id s} (h_s : P s) :
    OutP P ((execDteBurnRepair w id s)) := by
  unfold execDteBurnRepair
  repeat' (first
    | with_reducible assumption
    | with_reducible apply keeps_State_dteCmd
    | with_reducible apply OutP.next)

theorem keeps_execDteDone {P : State → Prop} (hP : K1 P) {pass t s} (h_s : P s) :
    OutP P ((execDteDone pass t s)) := by
  unfold execDteDone
  have hm := hP.toKm
  have h0 := hm.toK0
  repeat' (first
    | with_reducible assumption
    | with_reducible apply keeps_State_setBist
    | with_reducible apply keeps_State_coreFail
    | with_reducible apply keeps_State_corePass
    | with_reducible apply keeps_State_dteRes
    | with_reducible apply keeps_State_memCleared
    | with_reducible apply keeps_State_memTested
    | with_reducible apply OutP.next
    | (extract_lets +onlyGivenNames x; (have hx : P x := ?_); clear_value x; revert x; intro y hy; rotate_left; unfold x; clear x)
    | (extract_lets +onlyGivenNames x; clear_value x; revert x; intro y)
    | with_reducible apply keeps_ite
    | with_reducible apply outP_ite
    | split)

theorem keeps_State_setAlMiss {P : State → Prop} (hP : K0 P) {s k c n} (h_s : P s) :
    P (State.setAlMiss s k c n) := by
  unfold State.setAlMiss
  repeat' (first
    | with_reducible assumption
    | with_reducible apply keeps_State_setBist)

theorem keeps_State_alCheck {P : State → Prop} (hP : K0 P) {s k c input code sat} (h_s : P s) :
    P (State.alCheck s k c input code sat) := by
  unfold State.alCheck
  repeat' (first
    | with_reducible assumption
    | with_reducible apply keeps_State_err
    | with_reducible apply keeps_State_ev
    | with_reducible apply keeps_State_setBit
    | with_reducible apply keeps_State_incF
    | with_reducible apply keeps_State_setAlMiss
    | with_reducible apply keeps_State_injTake
    | (extract_lets +onlyGivenNames x; (have hx : P x := ?_); clear_value x; revert x; intro y hy; rotate_left; unfold x; clear x)
    | (extract_lets +onlyGivenNames x; clear_value x; revert x; intro y)
    | with_reducible apply keeps_ite
    | with_reducible apply keeps_ite2)

end Sys2Proof.Machine
end

