-- ==== Sys2Proof/Laws/KKeys.lean ====
section
/-! SUPPORT. What the operations of Machine.Keys keep. -/

namespace Sys2Proof.Machine

open Host (Outcome)

theorem keeps_State_setKeys {P : State → Prop} (hP : K0 P) {s x} (h_s : P s) :
    P (State.setKeys s x) := by
  unfold State.setKeys
  repeat' (first
    | with_reducible assumption
    | fail_if_no_progress with_reducible refine hP.upd ?_)

theorem keeps_State_keyCmdWrite {P : State → Prop} (hP : K0 P) {s v} (h_s : P s) :
    P ((State.keyCmdWrite s v)).1 := by
  unfold State.keyCmdWrite
  repeat' (first
    | with_reducible assumption
    | with_reducible apply keeps_State_setKeys
    | with_reducible apply keeps_State_set
    | with_reducible apply keeps_State_setWord
    | with_reducible apply keeps_refuse
    | (extract_lets +onlyGivenNames x; (have hx : P x := ?_); clear_value x; revert x; intro y hy; rotate_left; unfold x; clear x)
    | (extract_lets +onlyGivenNames x; clear_value x; revert x; intro y)
    | with_reducible apply keeps_ite1)

theorem keeps_State_eraseSlots {P : State → Prop} (hP : K0 P) {s} (h_s : P s) :
    P (State.eraseSlots s) := by
  unfold State.eraseSlots
  repeat' (first
    | with_reducible assumption
    | with_reducible apply keeps_State_setKeys)

theorem keeps_State_setSlot {P : State → Prop} (hP : K0 P) {s k ty key} (h_s : P s) :
    P (State.setSlot s k ty key) := by
  unfold State.setSlot
  repeat' (first
    | with_reducible assumption
    | with_reducible apply keeps_State_setKeys)

theorem keeps_State_freeBytes {P : State → Prop} (hP : K0 P) {y0 y1} (h_y1 : P y1) :
    P ((State.freeBytes y0 y1)).2 := by
  induction y0 generalizing y1
  case' succ n ih => skip
  all_goals first | unfold State.freeBytes | skip
  all_goals repeat' (first
    | with_reducible assumption
    | with_reducible apply ih
    | with_reducible apply keeps_State_free)

theorem keeps_execEntHealth {P : State → Prop} (hP : K0 P) {fail s} (h_s : P s) :
    OutP P ((execEntHealth fail s)) := by
  unfold execEntHealth
  repeat' (first
    | with_reducible assumption
    | with_reducible apply keeps_State_set
    | with_reducible apply keeps_State_incSat
    | with_reducible apply keeps_State_err
    | with_reducible apply OutP.next
    | with_reducible apply outP_ite)

theorem keeps_State_keyRun {P : State → Prop} (hP : Km P) {s c} (h_s : P s) :
    P ((State.keyRun s c)).2 := by
  unfold State.keyRun
  have h0 := hP.toK0
  repeat' (first
    | with_reducible assumption
    | with_reducible apply keeps_State_setSlot
    | with_reducible apply keeps_State_freeBytes
    | with_reducible apply keeps_State_setMemBytes
    | with_reducible intro _
    | with_reducible apply hf12
    | (extract_lets +onlyGivenNames x; (have hx : ∀ a, P (x a).2 := ?_); clear_value x; revert x; intro y hf12; rotate_left; unfold x; clear x)
    | (extract_lets +onlyGivenNames x; (have hx : P x.2 := ?_); clear_value x; revert x; intro y hy; rotate_left; unfold x; clear x)
    | (extract_lets +onlyGivenNames x; clear_value x; revert x; intro y)
    | with_reducible apply keeps_ite2
    | split)

theorem keeps_execCryptoDone {P : State → Prop} (hP : Km P) {s} (h_s : P s) :
    OutP P ((execCryptoDone s)) := by
  unfold execCryptoDone
  have h0 := hP.toK0
  repeat' (first
    | with_reducible assumption
    | with_reducible apply keeps_State_ev
    | with_reducible apply keeps_State_set
    | with_reducible apply keeps_State_setKeys
    | with_reducible apply keeps_State_keyRun
    | with_reducible apply OutP.next
    | split)

theorem keeps_State_keyOp {P : State → Prop} (hP : K0 P) {s w op slot ty} (h_s : P s) :
    P (State.keyOp s w op slot ty) := by
  unfold State.keyOp
  repeat' (first
    | with_reducible assumption
    | with_reducible apply keeps_State_keyCmdWrite
    | with_reducible apply keeps_State_actionWrite
    | with_reducible apply keeps_finish
    | with_reducible intro _)

theorem keeps_execKeyErase {P : State → Prop} (hP : K0 P) {w slot s} (h_s : P s) :
    OutP P ((execKeyErase w slot s)) := by
  unfold execKeyErase
  repeat' (first
    | with_reducible assumption
    | with_reducible apply keeps_State_keyOp
    | with_reducible apply OutP.next)

theorem keeps_execKeyImport {P : State → Prop} (hP : K0 P) {w slot ty s} (h_s : P s) :
    OutP P ((execKeyImport w slot ty s)) := by
  unfold execKeyImport
  repeat' (first
    | with_reducible assumption
    | with_reducible apply keeps_State_keyOp
    | with_reducible apply OutP.next)

theorem keeps_execKeyGen {P : State → Prop} (hP : K0 P) {w slot ty s} (h_s : P s) :
    OutP P ((execKeyGen w slot ty s)) := by
  unfold execKeyGen
  repeat' (first
    | with_reducible assumption
    | with_reducible apply keeps_State_keyOp
    | with_reducible apply OutP.next)

theorem keeps_execRandom {P : State → Prop} (hP : K0 P) {w s} (h_s : P s) :
    OutP P ((execRandom w s)) := by
  unfold execRandom
  repeat' (first
    | with_reducible assumption
    | with_reducible apply keeps_State_keyOp
    | with_reducible apply OutP.next)

theorem keeps_execGcmOpen {P : State → Prop} (hP : K0 P) {w slot s} (h_s : P s) :
    OutP P ((execGcmOpen w slot s)) := by
  unfold execGcmOpen
  repeat' (first
    | with_reducible assumption
    | with_reducible apply keeps_State_keyOp
    | with_reducible apply OutP.next)

theorem keeps_execGcmSeal {P : State → Prop} (hP : K0 P) {w slot s} (h_s : P s) :
    OutP P ((execGcmSeal w slot s)) := by
  unfold execGcmSeal
  repeat' (first
    | with_reducible assumption
    | with_reducible apply keeps_State_keyOp
    | with_reducible apply OutP.next)

theorem keeps_execX25519 {P : State → Prop} (hP : K0 P) {w slot s} (h_s : P s) :
    OutP P ((execX25519 w slot s)) := by
  unfold execX25519
  repeat' (first
    | with_reducible assumption
    | with_reducible apply keeps_State_keyOp
    | with_reducible apply OutP.next)

theorem keeps_execEdVerify {P : State → Prop} (hP : K0 P) {w slot s} (h_s : P s) :
    OutP P ((execEdVerify w slot s)) := by
  unfold execEdVerify
  repeat' (first
    | with_reducible assumption
    | with_reducible apply keeps_State_keyOp
    | with_reducible apply OutP.next)

theorem keeps_execEdSign {P : State → Prop} (hP : K0 P) {w slot s} (h_s : P s) :
    OutP P ((execEdSign w slot s)) := by
  unfold execEdSign
  repeat' (first
    | with_reducible assumption
    | with_reducible apply keeps_State_keyOp
    | with_reducible apply OutP.next)

theorem keeps_execSha256 {P : State → Prop} (hP : K0 P) {w s} (h_s : P s) :
    OutP P ((execSha256 w s)) := by
  unfold execSha256
  repeat' (first
    | with_reducible assumption
    | with_reducible apply keeps_State_keyOp
    | with_reducible apply OutP.next)

end Sys2Proof.Machine
end

