-- ==== Sys2Proof/Laws/KProc.lean ====
section
/-! SUPPORT. What the operations of Machine.Proc keep. -/

namespace Sys2Proof.Machine

open Host (Outcome)

theorem keeps_State_showApc {P : State → Prop} (hP : K0 P) {s} (h_s : P s) :
    P (State.showApc s) := by
  unfold State.showApc
  repeat' (first
    | with_reducible assumption
    | with_reducible apply keeps_State_setB
    | with_reducible apply keeps_State_set)

theorem keeps_State_hartWake {P : State → Prop} (hP : K0 P) {s h} (h_s : P s) :
    P (State.hartWake s h) := by
  unfold State.hartWake
  repeat' (first
    | with_reducible assumption
    | with_reducible apply keeps_State_setProc
    | with_reducible apply keeps_State_showApc
    | (extract_lets +onlyGivenNames x; clear_value x; revert x; intro y)
    | with_reducible apply keeps_ite)

theorem keeps_State_hartIrq {P : State → Prop} (hP : K0 P) {s h code} (h_s : P s) :
    P (State.hartIrq s h code) := by
  unfold State.hartIrq
  repeat' (first
    | with_reducible assumption
    | with_reducible apply keeps_State_send
    | with_reducible apply keeps_State_hartWake)

theorem keeps_State_msipWrite {P : State → Prop} (hP : K0 P) {s h b} (h_s : P s) :
    P (State.msipWrite s h b) := by
  unfold State.msipWrite
  repeat' (first
    | with_reducible assumption
    | with_reducible apply keeps_State_hartIrq
    | with_reducible apply keeps_State_setReg
    | (extract_lets +onlyGivenNames x; (have hx : P x := ?_); clear_value x; revert x; intro y hy; rotate_left; unfold x; clear x)
    | with_reducible apply keeps_ite)

theorem keeps_State_wdtReload {P : State → Prop} (hP : K0 P) {s} (h_s : P s) :
    P (State.wdtReload s) := by
  unfold State.wdtReload
  repeat' (first
    | with_reducible assumption
    | with_reducible apply keeps_State_setReg
    | with_reducible apply keeps_State_setProc)

theorem keeps_State_wdtKick {P : State → Prop} (hP : K0 P) {s v} (h_s : P s) :
    P (State.wdtKick s v) := by
  unfold State.wdtKick
  repeat' (first
    | with_reducible assumption
    | with_reducible apply keeps_State_err
    | with_reducible apply keeps_State_wdtReload
    | with_reducible apply keeps_ite)

theorem keeps_State_wdtCfg {P : State → Prop} (hP : K0 P) {s v} (h_s : P s) :
    P (State.wdtCfg s v) := by
  unfold State.wdtCfg
  repeat' (first
    | with_reducible assumption
    | with_reducible apply keeps_State_wdtReload
    | with_reducible apply keeps_State_set
    | (extract_lets +onlyGivenNames x; (have hx : P x := ?_); clear_value x; revert x; intro y hy; rotate_left; unfold x; clear x)
    | (extract_lets +onlyGivenNames x; clear_value x; revert x; intro y)
    | with_reducible apply keeps_ite)

theorem keeps_State_hartRelease {P : State → Prop} (hP : K0 P) {s en} (h_s : P s) :
    P (State.hartRelease s en) := by
  unfold State.hartRelease
  repeat' (first
    | with_reducible assumption
    | with_reducible apply keeps_State_send
    | with_reducible apply keeps_State_setProc
    | with_reducible apply keeps_State_showApc
    | with_reducible apply keeps_State_setReg
    | with_reducible apply keeps_foldl
    | with_reducible intro _)

theorem keeps_State_wdtHalf {P : State → Prop} (hP : K0 P) {s} (h_s : P s) :
    P (State.wdtHalf s) := by
  unfold State.wdtHalf
  repeat' (first
    | with_reducible assumption
    | with_reducible apply keeps_State_setReg
    | with_reducible apply keeps_State_ev)

theorem keeps_State_wdtExpire {P : State → Prop} (hP : K1 P) {s} (h_s : P s) :
    P (State.wdtExpire s) := by
  unfold State.wdtExpire
  have hm := hP.toKm
  have h0 := hm.toK0
  repeat' (first
    | with_reducible assumption
    | with_reducible apply keeps_State_resetDoms)

theorem keeps_State_procTick {P : State → Prop} (hP : K1 P) {s} (h_s : P s) :
    P (State.procTick s) := by
  unfold State.procTick
  have hm := hP.toKm
  have h0 := hm.toK0
  repeat' (first
    | with_reducible assumption
    | with_reducible apply keeps_State_wdtHalf
    | with_reducible apply keeps_State_wdtExpire
    | with_reducible apply keeps_State_setReg
    | with_reducible apply keeps_State_setProc
    | (extract_lets +onlyGivenNames x; (have hx : P x := ?_); clear_value x; revert x; intro y hy; rotate_left; unfold x; clear x)
    | (extract_lets +onlyGivenNames x; clear_value x; revert x; intro y)
    | with_reducible apply keeps_ite)

theorem keeps_State_apcCorrected {P : State → Prop} (hP : K0 P) {s ddr addr} (h_s : P s) :
    P (State.apcCorrected s ddr addr) := by
  unfold State.apcCorrected
  repeat' (first
    | with_reducible assumption
    | with_reducible apply keeps_State_setReg64
    | with_reducible apply keeps_State_ev
    | with_reducible apply keeps_State_incF)

theorem keeps_State_l2Read {P : State → Prop} (hP : K0 P) {s addr} (h_s : P s) :
    P (State.l2Read s addr) := by
  unfold State.l2Read
  repeat' (first
    | with_reducible assumption
    | with_reducible apply keeps_State_apcCorrected
    | with_reducible apply keeps_State_injTake
    | with_reducible apply keeps_ite)

theorem keeps_State_dmiRefused {P : State → Prop} (hP : K0 P) {s a} (h_s : P s) :
    P (State.dmiRefused s a) := by
  unfold State.dmiRefused
  repeat' (first
    | with_reducible assumption
    | with_reducible apply keeps_State_incSat
    | with_reducible apply keeps_State_setReg
    | with_reducible apply keeps_State_err)

theorem keeps_State_dbgResume {P : State → Prop} (hP : K0 P) {s h} (h_s : P s) :
    P (State.dbgResume s h) := by
  unfold State.dbgResume
  repeat' (first
    | with_reducible assumption
    | with_reducible apply keeps_State_set
    | with_reducible apply keeps_State_showApc
    | with_reducible apply keeps_State_setBit
    | (extract_lets +onlyGivenNames x; (have hx : P x := ?_); clear_value x; revert x; intro y hy; rotate_left; unfold x; clear x)
    | with_reducible apply keeps_ite)

theorem keeps_execDebugResume {P : State → Prop} (hP : K0 P) {h s} (h_s : P s) :
    OutP P ((execDebugResume h s)) := by
  unfold execDebugResume
  repeat' (first
    | with_reducible assumption
    | with_reducible apply keeps_State_dmiRefused
    | with_reducible apply keeps_State_dbgResume
    | with_reducible apply OutP.next
    | with_reducible apply keeps_ite)

theorem keeps_State_dbgHalt {P : State → Prop} (hP : K0 P) {s h} (h_s : P s) :
    P (State.dbgHalt s h) := by
  unfold State.dbgHalt
  repeat' (first
    | with_reducible assumption
    | with_reducible apply keeps_State_set
    | with_reducible apply keeps_State_showApc
    | with_reducible apply keeps_State_setBit
    | with_reducible apply keeps_State_ev
    | (extract_lets +onlyGivenNames x; (have hx : P x := ?_); clear_value x; revert x; intro y hy; rotate_left; unfold x; clear x)
    | with_reducible apply keeps_ite)

theorem keeps_execDebugHalt {P : State → Prop} (hP : K0 P) {h s} (h_s : P s) :
    OutP P ((execDebugHalt h s)) := by
  unfold execDebugHalt
  repeat' (first
    | with_reducible assumption
    | with_reducible apply keeps_State_dmiRefused
    | with_reducible apply keeps_State_dbgHalt
    | with_reducible apply OutP.next
    | with_reducible apply keeps_ite)

theorem keeps_execTapReset {P : State → Prop} (hP : K0 P) {s} (h_s : P s) :
    OutP P ((execTapReset s)) := by
  unfold execTapReset
  repeat' (first
    | with_reducible assumption
    | with_reducible apply keeps_State_setSafe
    | with_reducible apply keeps_State_set
    | with_reducible apply OutP.next)

theorem keeps_State_tapSelect {P : State → Prop} (hP : K0 P) {s code} (h_s : P s) :
    P (State.tapSelect s code) := by
  unfold State.tapSelect
  repeat' (first
    | with_reducible assumption
    | with_reducible apply keeps_State_set)

theorem keeps_execBypass {P : State → Prop} (hP : K0 P) {s} (h_s : P s) :
    OutP P ((execBypass s)) := by
  unfold execBypass
  repeat' (first
    | with_reducible assumption
    | with_reducible apply keeps_State_tapSelect
    | with_reducible apply OutP.next)

theorem keeps_execDmi {P : State → Prop} (hP : K0 P) {a wr v h s} (h_s : P s) :
    OutP P ((execDmi a wr v h s)) := by
  unfold execDmi
  repeat' (first
    | with_reducible assumption
    | with_reducible apply keeps_State_free
    | with_reducible apply keeps_State_setB
    | with_reducible apply keeps_State_inc
    | with_reducible apply keeps_State_dmiRefused
    | with_reducible apply keeps_State_send
    | with_reducible apply keeps_State_tapSelect
    | with_reducible apply OutP.next
    | (extract_lets +onlyGivenNames x; (have hx : P x := ?_); clear_value x; revert x; intro y hy; rotate_left; unfold x; clear x)
    | (extract_lets +onlyGivenNames x; (have hx : P x.2 := ?_); clear_value x; revert x; intro y hy; rotate_left; unfold x; clear x)
    | with_reducible apply keeps_ite
    | with_reducible apply outP_ite)

theorem keeps_execDtmcs {P : State → Prop} (hP : K0 P) {s} (h_s : P s) :
    OutP P ((execDtmcs s)) := by
  unfold execDtmcs
  repeat' (first
    | with_reducible assumption
    | with_reducible apply keeps_State_send
    | with_reducible apply keeps_State_tapSelect
    | with_reducible apply keeps_State_free
    | with_reducible apply OutP.next)

theorem keeps_State_scanTake {P : State → Prop} (hP : K0 P) {s code} (h_s : P s) :
    P (State.scanTake s code) := by
  unfold State.scanTake
  repeat' (first
    | with_reducible assumption
    | with_reducible apply keeps_State_driveOuts
    | with_reducible apply keeps_State_set
    | with_reducible apply keeps_State_ev
    | with_reducible apply keeps_State_applySgr
    | with_reducible apply keeps_State_demand
    | with_reducible apply keeps_State_tripPath
    | with_reducible apply keeps_State_setSafe
    | with_reducible apply keeps_State_tapSelect
    | with_reducible apply keeps_foldl
    | with_reducible intro _
    | (extract_lets +onlyGivenNames x; (have hx : P x := ?_); clear_value x; revert x; intro y hy; rotate_left; unfold x; clear x)
    | (extract_lets +onlyGivenNames x; clear_value x; revert x; intro y)
    | with_reducible apply keeps_ite)

theorem keeps_execHighz {P : State → Prop} (hP : K0 P) {s} (h_s : P s) :
    OutP P ((execHighz s)) := by
  unfold execHighz
  repeat' (first
    | with_reducible assumption
    | with_reducible apply keeps_State_scanTake
    | with_reducible apply OutP.next)

theorem keeps_execClamp {P : State → Prop} (hP : K0 P) {s} (h_s : P s) :
    OutP P ((execClamp s)) := by
  unfold execClamp
  repeat' (first
    | with_reducible assumption
    | with_reducible apply keeps_State_scanTake
    | with_reducible apply OutP.next)

theorem keeps_execExtestTrain {P : State → Prop} (hP : K0 P) {s} (h_s : P s) :
    OutP P ((execExtestTrain s)) := by
  unfold execExtestTrain
  repeat' (first
    | with_reducible assumption
    | with_reducible apply keeps_State_scanTake
    | with_reducible apply OutP.next)

theorem keeps_execExtestPulse {P : State → Prop} (hP : K0 P) {s} (h_s : P s) :
    OutP P ((execExtestPulse s)) := by
  unfold execExtestPulse
  repeat' (first
    | with_reducible assumption
    | with_reducible apply keeps_State_scanTake
    | with_reducible apply OutP.next)

theorem keeps_execExtest {P : State → Prop} (hP : K0 P) {s} (h_s : P s) :
    OutP P ((execExtest s)) := by
  unfold execExtest
  repeat' (first
    | with_reducible assumption
    | with_reducible apply keeps_State_scanTake
    | with_reducible apply OutP.next)

theorem keeps_execSamplePreload {P : State → Prop} (hP : K0 P) {s} (h_s : P s) :
    OutP P ((execSamplePreload s)) := by
  unfold execSamplePreload
  repeat' (first
    | with_reducible assumption
    | with_reducible apply keeps_State_tapSelect
    | with_reducible apply OutP.next)

theorem keeps_execIdcode {P : State → Prop} (hP : K0 P) {s} (h_s : P s) :
    OutP P ((execIdcode s)) := by
  unfold execIdcode
  repeat' (first
    | with_reducible assumption
    | with_reducible apply keeps_State_tapSelect
    | with_reducible apply keeps_State_send
    | with_reducible apply OutP.next)

theorem keeps_execHartRelease {P : State → Prop} (hP : K0 P) {w en s} (h_s : P s) :
    OutP P ((execHartRelease w en s)) := by
  unfold execHartRelease
  repeat' (first
    | with_reducible assumption
    | with_reducible apply keeps_State_hartRelease
    | with_reducible apply keeps_State_actionWrite
    | with_reducible apply keeps_finish
    | with_reducible apply OutP.next
    | with_reducible intro _)

theorem keeps_State_apcDouble {P : State → Prop} (hP : K0 P) {s ddr addr hart} (h_s : P s) :
    P (State.apcDouble s ddr addr hart) := by
  unfold State.apcDouble
  repeat' (first
    | with_reducible assumption
    | with_reducible apply keeps_State_setProc
    | with_reducible apply keeps_State_send
    | with_reducible apply keeps_State_err
    | with_reducible apply keeps_State_ev
    | with_reducible apply keeps_State_setReg64
    | with_reducible apply keeps_State_incF
    | (extract_lets +onlyGivenNames x; (have hx : P x := ?_); clear_value x; revert x; intro y hy; rotate_left; unfold x; clear x)
    | (extract_lets +onlyGivenNames x; clear_value x; revert x; intro y)
    | with_reducible apply keeps_ite
    | split)

theorem keeps_execEccDoubleError {P : State → Prop} (hP : K0 P) {ddr addr hart s} (h_s : P s) :
    OutP P ((execEccDoubleError ddr addr hart s)) := by
  unfold execEccDoubleError
  repeat' (first
    | with_reducible assumption
    | with_reducible apply keeps_State_apcDouble
    | with_reducible apply OutP.next)

theorem keeps_execTimerInterrupt {P : State → Prop} (hP : K0 P) {h s} (h_s : P s) :
    OutP P ((execTimerInterrupt h s)) := by
  unfold execTimerInterrupt
  repeat' (first
    | with_reducible assumption
    | with_reducible apply keeps_State_hartIrq
    | with_reducible apply keeps_State_setProc
    | with_reducible apply OutP.next
    | (extract_lets +onlyGivenNames x; (have hx : P x := ?_); clear_value x; revert x; intro y hy; rotate_left; unfold x; clear x)
    | (extract_lets +onlyGivenNames x; clear_value x; revert x; intro y)
    | with_reducible apply keeps_ite)

theorem keeps_execWdtExpire {P : State → Prop} (hP : K1 P) {s} (h_s : P s) :
    OutP P ((execWdtExpire s)) := by
  unfold execWdtExpire
  have hm := hP.toKm
  have h0 := hm.toK0
  repeat' (first
    | with_reducible assumption
    | with_reducible apply keeps_State_wdtExpire
    | with_reducible apply OutP.next
    | with_reducible apply keeps_ite)

theorem keeps_execWdtHalf {P : State → Prop} (hP : K0 P) {s} (h_s : P s) :
    OutP P ((execWdtHalf s)) := by
  unfold execWdtHalf
  repeat' (first
    | with_reducible assumption
    | with_reducible apply keeps_State_wdtHalf
    | with_reducible apply OutP.next
    | with_reducible apply keeps_ite)

theorem keeps_execWdtKick {P : State → Prop} (hP : K0 P) {w v s} (h_s : P s) :
    OutP P ((execWdtKick w v s)) := by
  unfold execWdtKick
  repeat' (first
    | with_reducible assumption
    | with_reducible apply keeps_State_wdtKick
    | with_reducible apply keeps_State_actionWrite
    | with_reducible apply keeps_finish
    | with_reducible apply OutP.next
    | with_reducible intro _)

theorem keeps_execWdtArm {P : State → Prop} (hP : K0 P) {w period s} (h_s : P s) :
    OutP P ((execWdtArm w period s)) := by
  unfold execWdtArm
  repeat' (first
    | with_reducible assumption
    | with_reducible apply keeps_State_wdtCfg
    | with_reducible apply keeps_State_actionWrite
    | with_reducible apply keeps_finish
    | with_reducible apply OutP.next
    | with_reducible intro _)

theorem keeps_execScrubPass {P : State → Prop} (hP : K0 P) {e addr pc s} (h_s : P s) :
    OutP P ((execScrubPass e addr pc s)) := by
  unfold execScrubPass
  repeat' (first
    | with_reducible assumption
    | with_reducible apply keeps_State_pairEcc
    | with_reducible apply OutP.next)

end Sys2Proof.Machine
end

