-- ==== Sys2Proof/Laws/KFlash.lean ====
section
/-! SUPPORT. What the operations of Machine.Flash keep. -/

namespace Sys2Proof.Machine

open Host (Outcome)

theorem keeps_State_cfwRes {P : State → Prop} (hP : K0 P) {s code} (h_s : P s) :
    P (State.cfwRes s code) := by
  unfold State.cfwRes
  repeat' (first
    | with_reducible assumption
    | with_reducible apply keeps_State_setReg
    | with_reducible apply keeps_State_ev
    | with_reducible apply keeps_State_err
    | with_reducible apply keeps_ite)

theorem keeps_State_cfwGo {P : State → Prop} (hP : K0 P) {s op} (h_s : P s) :
    P (State.cfwGo s op) := by
  unfold State.cfwGo
  repeat' (first
    | with_reducible assumption
    | with_reducible apply keeps_State_setBoot
    | with_reducible apply keeps_State_cfwRes
    | with_reducible apply keeps_State_setReg
    | with_reducible apply keeps_State_set
    | (extract_lets +onlyGivenNames x; (have hx : P x := ?_); clear_value x; revert x; intro y hy; rotate_left; unfold x; clear x)
    | (extract_lets +onlyGivenNames x; clear_value x; revert x; intro y)
    | with_reducible apply keeps_ite)

theorem keeps_apcOnly {P : State → Prop} (hP : K0 P) {w p f s} (h_f : ∀ (x0 : Sys2Proof.Machine.State), P x0 → P (f x0).1) (h_s : P s) :
    P ((apcOnly w p f s)).1 := by
  unfold apcOnly
  repeat' (first
    | with_reducible assumption
    | with_reducible apply keeps_State_actionWrite
    | split)

theorem keeps_State_selCmd {P : State → Prop} (hP : K1 P) {s v} (h_s : P s) :
    P ((State.selCmd s v)).1 := by
  unfold State.selCmd
  have hm := hP.toKm
  have h0 := hm.toK0
  repeat' (first
    | with_reducible assumption
    | with_reducible apply keeps_State_resetDoms
    | with_reducible apply keeps_State_toRun
    | with_reducible apply keeps_State_degradeEnd
    | with_reducible apply keeps_State_set
    | with_reducible apply keeps_refuse
    | with_reducible apply keeps_State_setReg
    | (extract_lets +onlyGivenNames x; (have hx : P x := ?_); clear_value x; revert x; intro y hy; rotate_left; unfold x; clear x)
    | (extract_lets +onlyGivenNames x; clear_value x; revert x; intro y)
    | with_reducible apply keeps_ite1)

theorem keeps_State_profRegWrite {P : State → Prop} (hP : K1 P) {s w off v} (h_s : P s) :
    OptP (fun r => P (r).1) ((State.profRegWrite s w off v)) := by
  unfold State.profRegWrite
  have hm := hP.toKm
  have h0 := hm.toK0
  repeat' (first
    | with_reducible assumption
    | with_reducible apply keeps_State_set
    | with_reducible apply keeps_State_cfwGo
    | with_reducible apply keeps_apcOnly
    | with_reducible apply keeps_State_selCmd
    | with_reducible exact OptP.none
    | with_reducible apply OptP.some
    | with_reducible intro _
    | with_reducible apply keeps_ite
    | with_reducible apply optP_ite
    | split)

theorem keeps_State_advAction {P : State → Prop} (hP : K0 P) {s t} (h_s : P s) :
    P (State.advAction s t) := by
  unfold State.advAction
  repeat' (first
    | with_reducible assumption
    | with_reducible apply keeps_State_eraseSlots
    | with_reducible apply keeps_State_setSlot
    | with_reducible apply keeps_State_freeBytes
    | (extract_lets +onlyGivenNames x; (have hx : P x.2 := ?_); clear_value x; revert x; intro y hy; rotate_left; unfold x; clear x)
    | with_reducible apply keeps_ite)

theorem keeps_State_advRes {P : State → Prop} (hP : K0 P) {s code} (h_s : P s) :
    P (State.advRes s code) := by
  unfold State.advRes
  repeat' (first
    | with_reducible assumption
    | with_reducible apply keeps_State_setReg)

theorem keeps_State_advance {P : State → Prop} (hP : K1 P) {s key t burn} (h_s : P s) :
    P ((State.advance s key t burn)).1 := by
  unfold State.advance
  have hm := hP.toKm
  have h0 := hm.toK0
  repeat' (first
    | with_reducible assumption
    | with_reducible apply keeps_State_resetDoms
    | with_reducible apply keeps_State_toRun
    | with_reducible apply keeps_State_degradeEnd
    | with_reducible apply keeps_State_evtPost
    | with_reducible apply keeps_State_advAction
    | with_reducible apply keeps_State_setReg
    | with_reducible apply keeps_State_set
    | with_reducible apply keeps_State_advRes
    | with_reducible apply keeps_State_err
    | (extract_lets +onlyGivenNames x; (have hx : P x := ?_); clear_value x; revert x; intro y hy; rotate_left; unfold x; clear x)
    | (extract_lets +onlyGivenNames x; clear_value x; revert x; intro y)
    | with_reducible apply keeps_ite1)

theorem keeps_State_lifeRegWrite {P : State → Prop} (hP : K1 P) {s w off v} (h_s : P s) :
    OptP (fun r => P (r).1) ((State.lifeRegWrite s w off v)) := by
  unfold State.lifeRegWrite
  have hm := hP.toKm
  have h0 := hm.toK0
  repeat' (first
    | with_reducible assumption
    | with_reducible apply keeps_State_advance
    | with_reducible apply keeps_apcOnly
    | with_reducible exact OptP.none
    | with_reducible apply OptP.some
    | with_reducible intro _
    | with_reducible apply optP_ite)

theorem keeps_State_rstCmd {P : State → Prop} (hP : K1 P) {s v} (h_s : P s) :
    P (State.rstCmd s v) := by
  unfold State.rstCmd
  have hm := hP.toKm
  have h0 := hm.toK0
  repeat' (first
    | with_reducible assumption
    | with_reducible apply keeps_State_resetDoms
    | with_reducible apply keeps_State_toRun
    | with_reducible apply keeps_State_degradeEnd
    | with_reducible apply keeps_State_err
    | (extract_lets +onlyGivenNames x; clear_value x; revert x; intro y)
    | with_reducible apply keeps_ite)

theorem keeps_State_sysRegWrite {P : State → Prop} (hP : K1 P) {s off v} (h_s : P s) :
    OptP (fun r => P (r).1) ((State.sysRegWrite s off v)) := by
  unfold State.sysRegWrite
  have hm := hP.toKm
  have h0 := hm.toK0
  repeat' (first
    | with_reducible assumption
    | with_reducible apply keeps_State_rstCmd
    | with_reducible exact OptP.none
    | with_reducible apply OptP.some
    | with_reducible apply optP_ite)

theorem keeps_State_cfProg {P : State → Prop} (hP : K1 P) {s a v} (h_s : P s) :
    P (State.cfProg s a v) := by
  unfold State.cfProg
  have hm := hP.toKm
  have h0 := hm.toK0
  repeat' (first
    | with_reducible assumption
    | fail_if_no_progress with_reducible refine hP.updCf ?_)

theorem keeps_State_cfProgs {P : State → Prop} (hP : K1 P) {s a l} (h_s : P s) :
    P (State.cfProgs s a l) := by
  unfold State.cfProgs
  have hm := hP.toKm
  have h0 := hm.toK0
  repeat' (first
    | with_reducible assumption
    | with_reducible apply keeps_State_cfProg
    | with_reducible apply keeps_foldl
    | with_reducible intro _)

theorem keeps_State_cfErase {P : State → Prop} (hP : K1 P) {s a n} (h_s : P s) :
    P (State.cfErase s a n) := by
  unfold State.cfErase
  have hm := hP.toKm
  have h0 := hm.toK0
  repeat' (first
    | with_reducible assumption
    | fail_if_no_progress with_reducible refine hP.updCfKeep ?_)

theorem keeps_State_evtSlot {P : State → Prop} (hP : K1 P) {s y1 y2} (h_s : P s) :
    P ((State.evtSlot s y1 y2)).1 := by
  induction y1 generalizing s y2
  case' succ n ih => skip
  have hm := hP.toKm
  have h0 := hm.toK0
  all_goals first | unfold State.evtSlot | skip
  all_goals repeat' (first
    | with_reducible assumption
    | with_reducible apply ih
    | with_reducible apply keeps_State_cfErase
    | (extract_lets +onlyGivenNames x; (have hx : P x := ?_); clear_value x; revert x; intro y hy; rotate_left; unfold x; clear x)
    | (extract_lets +onlyGivenNames x; clear_value x; revert x; intro y)
    | with_reducible apply keeps_ite
    | with_reducible apply keeps_ite1)

theorem keeps_State_evtWrite {P : State → Prop} (hP : K1 P) {s payload} (h_s : P s) :
    P (State.evtWrite s payload) := by
  unfold State.evtWrite
  have hm := hP.toKm
  have h0 := hm.toK0
  repeat' (first
    | with_reducible assumption
    | with_reducible apply keeps_State_setReg
    | with_reducible apply keeps_State_cfProgs
    | with_reducible apply keeps_State_evtSlot)

theorem keeps_execEventAreaWrite {P : State → Prop} (hP : K1 P) {s} (h_s : P s) :
    OutP P ((execEventAreaWrite s)) := by
  unfold execEventAreaWrite
  have hm := hP.toKm
  have h0 := hm.toK0
  repeat' (first
    | with_reducible assumption
    | with_reducible apply keeps_State_evtWrite
    | with_reducible apply OutP.next
    | split
    | fail_if_no_progress with_reducible refine h0.upd ?_)

theorem keeps_State_loaderSay {P : State → Prop} (hP : K0 P) {s w code l} (h_s : P s) :
    P (State.loaderSay s w code l) := by
  unfold State.loaderSay
  repeat' (first
    | with_reducible assumption
    | with_reducible apply keeps_State_send)

theorem keeps_execLoaderReset {P : State → Prop} (hP : K1 P) {w s} (h_s : P s) :
    OutP P ((execLoaderReset w s)) := by
  unfold execLoaderReset
  have hm := hP.toKm
  have h0 := hm.toK0
  repeat' (first
    | with_reducible assumption
    | with_reducible apply keeps_State_loaderSay
    | with_reducible apply keeps_State_resetDoms
    | with_reducible apply keeps_State_toRun
    | with_reducible apply keeps_State_degradeEnd
    | with_reducible apply OutP.next
    | with_reducible apply keeps_ite)

theorem keeps_State_cfwProgram {P : State → Prop} (hP : K1 P) {s a data ok} (h_s : P s) :
    P ((State.cfwProgram s a data ok)).1 := by
  unfold State.cfwProgram
  have hm := hP.toKm
  have h0 := hm.toK0
  repeat' (first
    | with_reducible assumption
    | with_reducible apply keeps_State_cfProgs)

theorem keeps_State_loaderOp {P : State → Prop} (hP : K0 P) {s w op r ofs n bad go} (h_s : P s) (h_go : ∀ (x0 : Sys2Proof.Machine.State) (x1 : ℕ), P x0 → P (go x0 x1).1) :
    P (State.loaderOp s w op r ofs n bad go) := by
  unfold State.loaderOp
  repeat' (first
    | with_reducible assumption
    | with_reducible apply h_go
    | with_reducible apply keeps_State_cfwRes
    | with_reducible apply keeps_State_loaderSay
    | (extract_lets +onlyGivenNames x; (have hx : P x.1 := ?_); clear_value x; revert x; intro y hy; rotate_left; unfold x; clear x)
    | (extract_lets +onlyGivenNames x; clear_value x; revert x; intro y)
    | with_reducible apply keeps_ite
    | split)

theorem keeps_execLoaderWrite {P : State → Prop} (hP : K1 P) {w r ofs data s} (h_s : P s) :
    OutP P ((execLoaderWrite w r ofs data s)) := by
  unfold execLoaderWrite
  have hm := hP.toKm
  have h0 := hm.toK0
  repeat' (first
    | with_reducible assumption
    | with_reducible apply keeps_State_cfwProgram
    | with_reducible apply keeps_State_loaderOp
    | with_reducible apply OutP.next
    | with_reducible intro _
    | with_reducible apply keeps_ite)

theorem keeps_State_cfwErase {P : State → Prop} (hP : K1 P) {s a n} (h_s : P s) :
    P (State.cfwErase s a n) := by
  unfold State.cfwErase
  have hm := hP.toKm
  have h0 := hm.toK0
  repeat' (first
    | with_reducible assumption
    | with_reducible apply keeps_State_setBoot
    | with_reducible apply keeps_State_cfErase)

theorem keeps_execLoaderErase {P : State → Prop} (hP : K1 P) {w r ofs len s} (h_s : P s) :
    OutP P ((execLoaderErase w r ofs len s)) := by
  unfold execLoaderErase
  have hm := hP.toKm
  have h0 := hm.toK0
  repeat' (first
    | with_reducible assumption
    | with_reducible apply keeps_State_cfwErase
    | with_reducible apply keeps_State_loaderOp
    | with_reducible apply OutP.next
    | with_reducible intro _
    | with_reducible apply keeps_ite)

theorem keeps_execLoaderStatus {P : State → Prop} (hP : K0 P) {w s} (h_s : P s) :
    OutP P ((execLoaderStatus w s)) := by
  unfold execLoaderStatus
  repeat' (first
    | with_reducible assumption
    | with_reducible apply keeps_State_loaderSay
    | with_reducible apply OutP.next
    | with_reducible apply keeps_ite)

theorem keeps_execProfileSelect {P : State → Prop} (hP : K1 P) {w p s} (h_s : P s) :
    OutP P ((execProfileSelect w p s)) := by
  unfold execProfileSelect
  have hm := hP.toKm
  have h0 := hm.toK0
  repeat' (first
    | with_reducible assumption
    | with_reducible apply keeps_State_selCmd
    | with_reducible apply keeps_State_actionWrite
    | with_reducible apply keeps_finish
    | with_reducible apply OutP.next
    | with_reducible intro _)

theorem keeps_execCfOpDone {P : State → Prop} (hP : K1 P) {ok s} (h_s : P s) :
    OutP P ((execCfOpDone ok s)) := by
  unfold execCfOpDone
  have hm := hP.toKm
  have h0 := hm.toK0
  repeat' (first
    | with_reducible assumption
    | with_reducible apply keeps_State_cfwProgram
    | with_reducible apply keeps_State_l2Read
    | with_reducible apply keeps_State_cfwErase
    | with_reducible apply keeps_State_cfwRes
    | with_reducible apply keeps_State_setBoot
    | with_reducible apply OutP.next
    | (extract_lets +onlyGivenNames x; (have hx : P x := ?_); clear_value x; revert x; intro y hy; rotate_left; unfold x; clear x)
    | (extract_lets +onlyGivenNames x; (have hx : P x.1 := ?_); clear_value x; revert x; intro y hy; rotate_left; unfold x; clear x)
    | (extract_lets +onlyGivenNames x; clear_value x; revert x; intro y)
    | with_reducible apply outP_ite
    | split)

theorem keeps_State_cfwCmd {P : State → Prop} (hP : K0 P) {s w op} (h_s : P s) :
    P (State.cfwCmd s w op) := by
  unfold State.cfwCmd
  repeat' (first
    | with_reducible assumption
    | with_reducible apply keeps_State_cfwGo
    | with_reducible apply keeps_apcOnly
    | with_reducible apply keeps_finish
    | with_reducible intro _)

theorem keeps_execCfProgram {P : State → Prop} (hP : K0 P) {w s} (h_s : P s) :
    OutP P ((execCfProgram w s)) := by
  unfold execCfProgram
  repeat' (first
    | with_reducible assumption
    | with_reducible apply keeps_State_cfwCmd
    | with_reducible apply OutP.next)

theorem keeps_execCfErase {P : State → Prop} (hP : K0 P) {w s} (h_s : P s) :
    OutP P ((execCfErase w s)) := by
  unfold execCfErase
  repeat' (first
    | with_reducible assumption
    | with_reducible apply keeps_State_cfwCmd
    | with_reducible apply OutP.next)

theorem keeps_execLifeAdvance {P : State → Prop} (hP : K1 P) {w key t burn s} (h_s : P s) :
    OutP P ((execLifeAdvance w key t burn s)) := by
  unfold execLifeAdvance
  have hm := hP.toKm
  have h0 := hm.toK0
  repeat' (first
    | with_reducible assumption
    | with_reducible apply keeps_State_advance
    | with_reducible apply keeps_apcOnly
    | with_reducible apply keeps_finish
    | with_reducible apply OutP.next
    | with_reducible intro _)

theorem keeps_execSoftwareReset {P : State → Prop} (hP : K1 P) {w key scope s} (h_s : P s) :
    OutP P ((execSoftwareReset w key scope s)) := by
  unfold execSoftwareReset
  have hm := hP.toKm
  have h0 := hm.toK0
  repeat' (first
    | with_reducible assumption
    | with_reducible apply keeps_State_rstCmd
    | with_reducible apply keeps_State_actionWrite
    | with_reducible apply keeps_finish
    | with_reducible apply OutP.next
    | with_reducible intro _)

theorem keeps_State_profSel {P : State → Prop} (hP : K0 P) {s p} (h_s : P s) :
    P (State.profSel s p) := by
  unfold State.profSel
  repeat' (first
    | with_reducible assumption
    | with_reducible apply keeps_State_set)

theorem keeps_State_testHold {P : State → Prop} (hP : K0 P) {s testEn} (h_s : P s) :
    P (State.testHold s testEn) := by
  unfold State.testHold
  repeat' (first
    | with_reducible assumption
    | with_reducible apply keeps_State_setDom
    | with_reducible apply keeps_State_setBoot
    | (extract_lets +onlyGivenNames x; (have hx : P x := ?_); clear_value x; revert x; intro y hy; rotate_left; unfold x; clear x)
    | (extract_lets +onlyGivenNames x; clear_value x; revert x; intro y)
    | with_reducible apply keeps_ite)

theorem keeps_execResetPin {P : State → Prop} (hP : K1 P) {sel testEn s} (h_s : P s) :
    OutP P ((execResetPin sel testEn s)) := by
  unfold execResetPin
  have hm := hP.toKm
  have h0 := hm.toK0
  repeat' (first
    | with_reducible assumption
    | with_reducible apply keeps_State_resetDoms
    | with_reducible apply keeps_State_toRun
    | with_reducible apply keeps_State_profSel
    | with_reducible apply keeps_State_testHold
    | with_reducible apply keeps_State_setBoot
    | with_reducible apply OutP.next)

theorem keeps_State_powerOn {P : State → Prop} (hP : K1 P) {s sel vaux vbak} (h_s : P s) :
    P (State.powerOn s sel vaux vbak) := by
  have h0 := hP.toK0
  unfold State.powerOn
  extract_lets f z boot life ser mac head ofs sp ky st n1 n2 n3 n4 n5 n6 n7 ok n8
  have h1 : P n1 := hP.updFresh h_s
  clear_value n1
  have h5 : P n4 := keeps_State_beadsReset h0 (keeps_State_setWord h0 (keeps_State_setWord h0 (keeps_State_setReg64 h0 (keeps_State_setReg64 h0 (keeps_State_setWord h0 h1)))))
  clear_value n4
  have h6 : P n6 := keeps_State_profSel h0 (keeps_State_incFW h0 (keeps_State_setReg h0 h5))
  clear_value n6
  exact keeps_State_evtPost h0 (keeps_State_set h0 (keeps_State_setB h0 (keeps_State_setReg h0 (keeps_State_setReg h0 h6))))

theorem keeps_execPowerOnReset {P : State → Prop} (hP : K1 P) {sel vaux vbak testEn s} (h_s : P s) :
    OutP P ((execPowerOnReset sel vaux vbak testEn s)) := by
  unfold execPowerOnReset
  have hm := hP.toKm
  have h0 := hm.toK0
  repeat' (first
    | with_reducible assumption
    | with_reducible apply keeps_State_powerOn
    | with_reducible apply keeps_State_testHold
    | with_reducible apply OutP.next)

end Sys2Proof.Machine
end

