-- ==== Sys2Proof/Laws/KTherm.lean ====
section
/-! SUPPORT. What the operations of Machine.Therm keep. -/

namespace Sys2Proof.Machine

open Host (Outcome)

theorem keeps_State_thermApply {P : State → Prop} (hP : K0 P) {s} (h_s : P s) :
    P (State.thermApply s) := by
  unfold State.thermApply
  repeat' (first
    | with_reducible assumption
    | with_reducible apply keeps_State_descentCause
    | with_reducible apply keeps_foldl
    | with_reducible intro _)

theorem keeps_State_clearBits {P : State → Prop} (hP : K0 P) {s off n v ok} (h_s : P s) :
    P (State.clearBits s off n v ok) := by
  unfold State.clearBits
  repeat' (first
    | with_reducible assumption
    | with_reducible apply keeps_State_err
    | with_reducible apply keeps_State_setBit
    | with_reducible apply keeps_foldl
    | with_reducible intro _
    | with_reducible apply keeps_ite)

theorem keeps_State_latchClear {P : State → Prop} (hP : K0 P) {s off v} (h_s : P s) :
    P (State.latchClear s off v) := by
  unfold State.latchClear
  repeat' (first
    | with_reducible assumption
    | with_reducible apply keeps_State_clearBits
    | (extract_lets +onlyGivenNames x; (have hx : P x := ?_); clear_value x; revert x; intro y hy; rotate_left; unfold x; clear x)
    | with_reducible apply keeps_ite
    | fail_if_no_progress with_reducible refine hP.upd ?_)

theorem keeps_State_thermRegWrite {P : State → Prop} (hP : K0 P) {s off v} (h_s : P s) :
    OptP (fun r => P (r).1) ((State.thermRegWrite s off v)) := by
  unfold State.thermRegWrite
  repeat' (first
    | with_reducible assumption
    | with_reducible apply keeps_State_latchClear
    | with_reducible exact OptP.none
    | with_reducible apply OptP.some
    | with_reducible apply optP_ite)

theorem keeps_State_thermEntry {P : State → Prop} (hP : K0 P) {s cause src index value rate rods t} (h_s : P s) :
    P (State.thermEntry s cause src index value rate rods t) := by
  unfold State.thermEntry
  repeat' (first
    | with_reducible assumption
    | with_reducible apply keeps_State_evtPost
    | with_reducible apply keeps_State_incSat
    | with_reducible apply keeps_State_ev)

theorem keeps_State_sensTrip {P : State → Prop} (hP : K0 P) {s k rate t} (h_s : P s) :
    P (State.sensTrip s k rate t) := by
  unfold State.sensTrip
  repeat' (first
    | with_reducible assumption
    | with_reducible apply keeps_State_thermEntry
    | with_reducible apply keeps_State_setBit
    | with_reducible apply keeps_State_setSens
    | (extract_lets +onlyGivenNames x; (have hx : P x := ?_); clear_value x; revert x; intro y hy; rotate_left; unfold x; clear x)
    | (extract_lets +onlyGivenNames x; clear_value x; revert x; intro y)
    | with_reducible apply keeps_ite)

theorem keeps_State_thermWake {P : State → Prop} (hP : K0 P) {s} (h_s : P s) :
    P (State.thermWake s) := by
  unfold State.thermWake
  repeat' (first
    | with_reducible assumption
    | with_reducible apply keeps_State_setSens
    | with_reducible apply keeps_State_sensTrip
    | with_reducible apply keeps_State_thermApply
    | with_reducible apply keeps_foldl
    | with_reducible intro _
    | (extract_lets +onlyGivenNames x; (have hx : P x := ?_); clear_value x; revert x; intro y hy; rotate_left; unfold x; clear x)
    | (extract_lets +onlyGivenNames x; clear_value x; revert x; intro y)
    | with_reducible apply keeps_ite
    | fail_if_no_progress with_reducible refine hP.upd ?_)

theorem keeps_execRestThermCheck {P : State → Prop} (hP : K0 P) {ts s} (h_s : P s) :
    OutP P ((execRestThermCheck ts s)) := by
  unfold execRestThermCheck
  repeat' (first
    | with_reducible assumption
    | with_reducible apply keeps_State_wakeCause
    | with_reducible apply keeps_foldl
    | with_reducible apply OutP.next
    | with_reducible intro _
    | (extract_lets +onlyGivenNames x; clear_value x; revert x; intro y)
    | with_reducible apply keeps_ite
    | split
    | fail_if_no_progress with_reducible refine hP.upd ?_)

theorem keeps_execLatchClear {P : State → Prop} (hP : K0 P) {w reg v s} (h_s : P s) :
    OutP P ((execLatchClear w reg v s)) := by
  unfold execLatchClear
  repeat' (first
    | with_reducible assumption
    | with_reducible apply keeps_State_latchClear
    | with_reducible apply keeps_State_actionWrite
    | with_reducible apply keeps_finish
    | with_reducible apply OutP.next
    | with_reducible intro _)

theorem keeps_State_rateEval {P : State → Prop} (hP : K0 P) {s k} (h_s : P s) :
    P (State.rateEval s k) := by
  unfold State.rateEval
  repeat' (first
    | with_reducible assumption
    | with_reducible apply keeps_State_sensTrip
    | with_reducible apply keeps_State_ev
    | with_reducible apply keeps_State_setSens
    | with_reducible apply keeps_State_injTake
    | (extract_lets +onlyGivenNames x; (have hx : P x := ?_); clear_value x; revert x; intro y hy; rotate_left; unfold x; clear x)
    | (extract_lets +onlyGivenNames x; clear_value x; revert x; intro y)
    | with_reducible apply keeps_ite
    | with_reducible apply keeps_ite2
    | split)

theorem keeps_State_meanEval {P : State → Prop} (hP : K0 P) {s k} (h_s : P s) :
    P (State.meanEval s k) := by
  unfold State.meanEval
  repeat' (first
    | with_reducible assumption
    | with_reducible apply keeps_State_setSens
    | (extract_lets +onlyGivenNames x; clear_value x; revert x; intro y)
    | with_reducible apply keeps_ite)

theorem keeps_execRateEval {P : State → Prop} (hP : K0 P) {s} (h_s : P s) :
    OutP P ((execRateEval s)) := by
  unfold execRateEval
  repeat' (first
    | with_reducible assumption
    | with_reducible apply keeps_State_rateEval
    | with_reducible apply keeps_State_thermApply
    | with_reducible apply keeps_State_meanEval
    | with_reducible apply keeps_foldl
    | with_reducible apply OutP.next
    | (extract_lets +onlyGivenNames x; (have hx : P x := ?_); clear_value x; revert x; intro y hy; rotate_left; unfold x; clear x)
    | with_reducible apply keeps_ite)

theorem keeps_State_dieEval {P : State → Prop} (hP : K0 P) {s d t} (h_s : P s) :
    P (State.dieEval s d t) := by
  unfold State.dieEval
  repeat' (first
    | with_reducible assumption
    | with_reducible apply keeps_State_thermEntry
    | with_reducible apply keeps_State_setB
    | with_reducible apply keeps_State_ev
    | (extract_lets +onlyGivenNames x; (have hx : P x := ?_); clear_value x; revert x; intro y hy; rotate_left; unfold x; clear x)
    | (extract_lets +onlyGivenNames x; clear_value x; revert x; intro y)
    | with_reducible apply keeps_ite)

theorem keeps_State_cellGroupEval {P : State → Prop} (hP : K0 P) {s r} (h_s : P s) :
    P (State.cellGroupEval s r) := by
  unfold State.cellGroupEval
  repeat' (first
    | with_reducible assumption
    | with_reducible apply keeps_State_thermEntry
    | with_reducible apply keeps_State_free
    | with_reducible apply keeps_State_setBit
    | with_reducible apply keeps_State_err
    | (extract_lets +onlyGivenNames x; (have hx : P x := ?_); clear_value x; revert x; intro y hy; rotate_left; unfold x; clear x)
    | (extract_lets +onlyGivenNames x; (have hx : P x.2 := ?_); clear_value x; revert x; intro y hy; rotate_left; unfold x; clear x)
    | (extract_lets +onlyGivenNames x; clear_value x; revert x; intro y)
    | with_reducible apply keeps_ite)

theorem keeps_State_groupEval {P : State → Prop} (hP : K0 P) {s g} (h_s : P s) :
    P (State.groupEval s g) := by
  unfold State.groupEval
  repeat' (first
    | with_reducible assumption
    | with_reducible apply keeps_State_setBit
    | with_reducible apply keeps_State_thermEntry
    | with_reducible apply keeps_State_free
    | with_reducible apply keeps_State_setB
    | with_reducible apply keeps_State_err
    | (extract_lets +onlyGivenNames x; (have hx : P x := ?_); clear_value x; revert x; intro y hy; rotate_left; unfold x; clear x)
    | (extract_lets +onlyGivenNames x; (have hx : P x.2 := ?_); clear_value x; revert x; intro y hy; rotate_left; unfold x; clear x)
    | (extract_lets +onlyGivenNames x; clear_value x; revert x; intro y)
    | with_reducible apply keeps_ite)

theorem keeps_State_absEval {P : State → Prop} (hP : K0 P) {s k} (h_s : P s) :
    P (State.absEval s k) := by
  unfold State.absEval
  repeat' (first
    | with_reducible assumption
    | with_reducible apply keeps_State_sensTrip
    | with_reducible apply keeps_State_ev
    | with_reducible apply keeps_State_setSens
    | (extract_lets +onlyGivenNames x; (have hx : P x := ?_); clear_value x; revert x; intro y hy; rotate_left; unfold x; clear x)
    | (extract_lets +onlyGivenNames x; clear_value x; revert x; intro y)
    | with_reducible apply keeps_ite)

theorem keeps_State_sample {P : State → Prop} (hP : K0 P) {s k v rs} (h_s : P s) :
    P (State.sample s k v rs) := by
  unfold State.sample
  repeat' (first
    | with_reducible assumption
    | with_reducible apply keeps_State_ev
    | with_reducible apply keeps_State_setSens
    | (extract_lets +onlyGivenNames x; (have hx : P x := ?_); clear_value x; revert x; intro y hy; rotate_left; unfold x; clear x)
    | (extract_lets +onlyGivenNames x; clear_value x; revert x; intro y)
    | with_reducible apply keeps_ite
    | split)

theorem keeps_State_staleModules {P : State → Prop} (hP : K0 P) {s} (h_s : P s) :
    P (State.staleModules s) := by
  unfold State.staleModules
  repeat' (first
    | with_reducible assumption
    | with_reducible apply keeps_State_sample
    | with_reducible apply keeps_foldl
    | with_reducible intro _
    | with_reducible apply keeps_ite)

theorem keeps_State_thermRound {P : State → Prop} (hP : K0 P) {s ts die} (h_s : P s) :
    P (State.thermRound s ts die) := by
  unfold State.thermRound
  repeat' (first
    | with_reducible assumption
    | with_reducible apply keeps_State_thermApply
    | with_reducible apply keeps_State_dieEval
    | with_reducible apply keeps_State_cellGroupEval
    | with_reducible apply keeps_State_groupEval
    | with_reducible apply keeps_State_absEval
    | with_reducible apply keeps_State_setReg
    | with_reducible apply keeps_State_staleModules
    | with_reducible apply keeps_State_free
    | with_reducible apply keeps_State_sample
    | with_reducible apply keeps_State_injTake
    | with_reducible apply keeps_State_set
    | with_reducible apply keeps_foldl
    | with_reducible intro _
    | (extract_lets +onlyGivenNames x; (have hx : P x := ?_); clear_value x; revert x; intro y hy; rotate_left; unfold x; clear x)
    | (extract_lets +onlyGivenNames x; (have hx : P x.2 := ?_); clear_value x; revert x; intro y hy; rotate_left; unfold x; clear x)
    | (extract_lets +onlyGivenNames x; clear_value x; revert x; intro y)
    | with_reducible apply keeps_ite
    | with_reducible apply keeps_ite2
    | split)

theorem keeps_State_thermReport {P : State → Prop} (hP : K0 P) {s m temps} (h_s : P s) :
    P (State.thermReport s m temps) := by
  unfold State.thermReport
  repeat' (first
    | with_reducible assumption
    | with_reducible apply keeps_State_sample
    | with_reducible apply keeps_foldl
    | with_reducible intro _)

end Sys2Proof.Machine
end

