-- ==== Sys2Proof/Laws/KMbus.lean ====
section
/-! SUPPORT. What the operations of Machine.Mbus keep. -/

namespace Sys2Proof.Machine

open Host (Outcome)

theorem keeps_State_mapDups {P : State → Prop} (hP : K0 P) {s} (h_s : P s) :
    P (State.mapDups s) := by
  unfold State.mapDups
  repeat' (first
    | with_reducible assumption
    | with_reducible apply keeps_State_set
    | with_reducible apply keeps_State_err
    | with_reducible apply keeps_foldl
    | with_reducible apply keeps_foldl1
    | with_reducible intro _
    | (extract_lets +onlyGivenNames x; clear_value x; revert x; intro y)
    | with_reducible apply keeps_ite
    | with_reducible apply keeps_ite1)

theorem keeps_State_mbusApplied {P : State → Prop} (hP : K0 P) {old s n} (h_old : P old) (h_s : P s) :
    P (State.mbusApplied old s n) := by
  unfold State.mbusApplied
  repeat' (first
    | with_reducible assumption
    | with_reducible apply keeps_State_routinePlan
    | with_reducible apply keeps_State_setMb
    | with_reducible apply keeps_State_mapDups
    | (extract_lets +onlyGivenNames x; (have hx : P x := ?_); clear_value x; revert x; intro y hy; rotate_left; unfold x; clear x)
    | (extract_lets +onlyGivenNames x; clear_value x; revert x; intro y)
    | with_reducible apply keeps_ite)

theorem keeps_State_mbusDisable {P : State → Prop} (hP : K0 P) {s n} (h_s : P s) :
    P (State.mbusDisable s n) := by
  unfold State.mbusDisable
  repeat' (first
    | with_reducible assumption
    | with_reducible apply keeps_State_set
    | with_reducible apply keeps_ite)

theorem keeps_State_txwCtl {P : State → Prop} (hP : K0 P) {s n v} (h_s : P s) :
    P ((State.txwCtl s n v)).1 := by
  unfold State.txwCtl
  repeat' (first
    | with_reducible assumption
    | with_reducible apply keeps_State_setMb
    | with_reducible apply keeps_State_offerNew
    | with_reducible apply keeps_State_setReg
    | with_reducible apply keeps_State_incF
    | with_reducible apply keeps_State_err
    | (extract_lets +onlyGivenNames x; (have hx : P x := ?_); clear_value x; revert x; intro y hy; rotate_left; unfold x; clear x)
    | (extract_lets +onlyGivenNames x; clear_value x; revert x; intro y)
    | with_reducible apply keeps_ite1)

theorem keeps_State_mpeAll {P : State → Prop} (hP : K0 P) {s n life} (h_s : P s) :
    P (State.mpeAll s n life) := by
  unfold State.mpeAll
  repeat' (first
    | with_reducible assumption
    | with_reducible apply keeps_State_challengeAll
    | with_reducible apply keeps_ite)

theorem keeps_State_boReturn {P : State → Prop} (hP : K0 P) {s n} (h_s : P s) :
    P (State.boReturn s n) := by
  unfold State.boReturn
  repeat' (first
    | with_reducible assumption
    | with_reducible apply keeps_State_mbActive
    | with_reducible apply keeps_State_showEcr
    | with_reducible apply keeps_State_setMb)

theorem keeps_State_boRecover {P : State → Prop} (hP : K0 P) {s n} (h_s : P s) :
    P (State.boRecover s n) := by
  unfold State.boRecover
  repeat' (first
    | with_reducible assumption
    | with_reducible apply keeps_State_setMb
    | with_reducible apply keeps_State_boReturn
    | (extract_lets +onlyGivenNames x; clear_value x; revert x; intro y)
    | with_reducible apply keeps_ite)

theorem keeps_State_abortNow {P : State → Prop} (hP : K0 P) {s n} (h_s : P s) :
    P (State.abortNow s n) := by
  unfold State.abortNow
  repeat' (first
    | with_reducible assumption
    | with_reducible apply keeps_State_setMb
    | with_reducible apply keeps_State_incF)

theorem keeps_State_abortHead {P : State → Prop} (hP : K0 P) {s n} (h_s : P s) :
    P (State.abortHead s n) := by
  unfold State.abortHead
  repeat' (first
    | with_reducible assumption
    | with_reducible apply keeps_State_abortNow
    | with_reducible apply keeps_State_offerNew
    | with_reducible apply keeps_State_setMb
    | (extract_lets +onlyGivenNames x; clear_value x; revert x; intro y)
    | with_reducible apply keeps_ite)

theorem keeps_State_mbusCmd {P : State → Prop} (hP : K0 P) {s n v} (h_s : P s) :
    P (State.mbusCmd s n v) := by
  unfold State.mbusCmd
  repeat' (first
    | with_reducible assumption
    | with_reducible apply keeps_State_timeRefDue
    | with_reducible apply keeps_State_mpeAll
    | with_reducible apply keeps_State_setMb
    | with_reducible apply keeps_State_boRecover
    | with_reducible apply keeps_State_abortHead
    | (extract_lets +onlyGivenNames x; (have hx : P x := ?_); clear_value x; revert x; intro y hy; rotate_left; unfold x; clear x)
    | (extract_lets +onlyGivenNames x; clear_value x; revert x; intro y)
    | with_reducible apply keeps_ite)

theorem keeps_State_sleepWrite {P : State → Prop} (hP : K0 P) {s n on} (h_s : P s) :
    P (State.sleepWrite s n on) := by
  unfold State.sleepWrite
  repeat' (first
    | with_reducible assumption
    | with_reducible apply keeps_State_mbusAwake
    | with_reducible apply keeps_State_mpeSend
    | with_reducible apply keeps_State_set
    | with_reducible apply keeps_State_setMbSt
    | with_reducible apply keeps_State_setMb
    | (extract_lets +onlyGivenNames x; (have hx : P x := ?_); clear_value x; revert x; intro y hy; rotate_left; unfold x; clear x)
    | (extract_lets +onlyGivenNames x; clear_value x; revert x; intro y)
    | with_reducible apply keeps_ite)

theorem keeps_State_mbusCtl {P : State → Prop} (hP : K0 P) {s n v} (h_s : P s) :
    P ((State.mbusCtl s n v)).1 := by
  unfold State.mbusCtl
  repeat' (first
    | with_reducible assumption
    | with_reducible apply keeps_State_sleepWrite
    | with_reducible apply keeps_State_setReg
    | with_reducible apply keeps_refuse
    | (extract_lets +onlyGivenNames x; (have hx : P x := ?_); clear_value x; revert x; intro y hy; rotate_left; unfold x; clear x)
    | (extract_lets +onlyGivenNames x; clear_value x; revert x; intro y)
    | with_reducible apply keeps_ite
    | with_reducible apply keeps_ite1)

theorem keeps_State_mbusRegWrite {P : State → Prop} (hP : K0 P) {s n off v} (h_s : P s) :
    OptP (fun r => P (r).1) ((State.mbusRegWrite s n off v)) := by
  unfold State.mbusRegWrite
  repeat' (first
    | with_reducible assumption
    | with_reducible apply keeps_State_txwCtl
    | with_reducible apply keeps_State_mbusCmd
    | with_reducible apply keeps_State_mbusCtl
    | with_reducible exact OptP.none
    | with_reducible apply OptP.some
    | with_reducible apply optP_ite)

theorem keeps_State_modStatRead {P : State → Prop} (hP : K0 P) {s n a} (h_s : P s) :
    P ((State.modStatRead s n a)).2 := by
  unfold State.modStatRead
  repeat' (first
    | with_reducible assumption
    | with_reducible apply keeps_State_set)

theorem keeps_execCanBusError {P : State → Prop} (hP : K0 P) {n s} (h_s : P s) :
    OutP P ((execCanBusError n s)) := by
  unfold execCanBusError
  repeat' (first
    | with_reducible assumption
    | with_reducible apply keeps_State_showEcr
    | with_reducible apply keeps_State_arbitrate
    | with_reducible apply keeps_State_setMb
    | with_reducible apply keeps_State_busError
    | with_reducible apply keeps_State_nextCand
    | with_reducible apply OutP.next
    | (extract_lets +onlyGivenNames x; (have hx : P x := ?_); clear_value x; revert x; intro y hy; rotate_left; unfold x; clear x)
    | (extract_lets +onlyGivenNames x; clear_value x; revert x; intro y)
    | with_reducible apply keeps_ite)

theorem keeps_State_answered {P : State → Prop} (hP : K0 P) {s n a life nonce} (h_s : P s) :
    P (State.answered s n a life nonce) := by
  unfold State.answered
  repeat' (first
    | with_reducible assumption
    | with_reducible apply keeps_State_setMb)

theorem keeps_execChallengeTimeout {P : State → Prop} (hP : K0 P) {n a life s} (h_s : P s) :
    OutP P ((execChallengeTimeout n a life s)) := by
  unfold execChallengeTimeout
  repeat' (first
    | with_reducible assumption
    | with_reducible apply keeps_State_challenge
    | with_reducible apply keeps_State_answered
    | with_reducible apply keeps_State_set
    | with_reducible apply OutP.next
    | with_reducible apply keeps_ite
    | split)

theorem keeps_execLifePeriodic {P : State → Prop} (hP : K0 P) {n s} (h_s : P s) :
    OutP P ((execLifePeriodic n s)) := by
  unfold execLifePeriodic
  repeat' (first
    | with_reducible assumption
    | with_reducible apply keeps_State_mpeAll
    | with_reducible apply OutP.next)

theorem keeps_execIdentPeriodic {P : State → Prop} (hP : K0 P) {n s} (h_s : P s) :
    OutP P ((execIdentPeriodic n s)) := by
  unfold execIdentPeriodic
  repeat' (first
    | with_reducible assumption
    | with_reducible apply keeps_State_mpeAll
    | with_reducible apply OutP.next)

theorem keeps_State_mbusCmdBy {P : State → Prop} (hP : K0 P) {s w n b} (h_s : P s) :
    P (State.mbusCmdBy s w n b) := by
  unfold State.mbusCmdBy
  repeat' (first
    | with_reducible assumption
    | with_reducible apply keeps_State_mbusCmd
    | with_reducible apply keeps_State_actionWrite
    | with_reducible apply keeps_finish
    | with_reducible intro _)

theorem keeps_execLifeAll {P : State → Prop} (hP : K0 P) {w n s} (h_s : P s) :
    OutP P ((execLifeAll w n s)) := by
  unfold execLifeAll
  repeat' (first
    | with_reducible assumption
    | with_reducible apply keeps_State_mbusCmdBy
    | with_reducible apply OutP.next)

theorem keeps_execIdentAll {P : State → Prop} (hP : K0 P) {w n s} (h_s : P s) :
    OutP P ((execIdentAll w n s)) := by
  unfold execIdentAll
  repeat' (first
    | with_reducible assumption
    | with_reducible apply keeps_State_mbusCmdBy
    | with_reducible apply OutP.next)

theorem keeps_State_lifeResponse {P : State → Prop} (hP : Km P) {s n m} (h_s : P s) :
    P (State.lifeResponse s n m) := by
  unfold State.lifeResponse
  have h0 := hP.toK0
  repeat' (first
    | with_reducible assumption
    | with_reducible apply keeps_State_err
    | with_reducible apply keeps_State_ev
    | with_reducible apply keeps_State_setB
    | with_reducible apply keeps_State_setModX
    | with_reducible apply keeps_State_msgToRing
    | with_reducible apply keeps_State_set
    | with_reducible apply keeps_State_answered
    | (extract_lets +onlyGivenNames x; (have hx : P x := ?_); clear_value x; revert x; intro y hy; rotate_left; unfold x; clear x)
    | (extract_lets +onlyGivenNames x; clear_value x; revert x; intro y)
    | with_reducible apply keeps_ite
    | split)

theorem keeps_State_onMsg {P : State → Prop} (hP : K0 P) {s n cls f} (h_s : P s) (h_f : ∀ (x0 : Sys2Proof.Machine.MbMsg) (x1 : Sys2Proof.Machine.State), P x1 → P (f x0 x1)) :
    P (State.onMsg s n cls f) := by
  unfold State.onMsg
  repeat' (first
    | with_reducible assumption
    | with_reducible apply h_f
    | with_reducible apply keeps_State_setMb
    | (extract_lets +onlyGivenNames x; clear_value x; revert x; intro y)
    | split)

theorem keeps_execLifeResponseRx {P : State → Prop} (hP : Km P) {n s} (h_s : P s) :
    OutP P ((execLifeResponseRx n s)) := by
  unfold execLifeResponseRx
  have h0 := hP.toK0
  repeat' (first
    | with_reducible assumption
    | with_reducible apply keeps_State_lifeResponse
    | with_reducible apply keeps_State_onMsg
    | with_reducible apply OutP.next
    | with_reducible intro _)

theorem keeps_State_changedCells {P : State → Prop} (hP : K0 P) {s mod} (h_s : P s) :
    P (State.changedCells s mod) := by
  unfold State.changedCells
  repeat' (first
    | with_reducible assumption
    | with_reducible apply keeps_State_setCea
    | (extract_lets +onlyGivenNames x; clear_value x; revert x; intro y)
    | split)

theorem keeps_State_moduleChanged {P : State → Prop} (hP : K0 P) {s n a kid} (h_s : P s) :
    P (State.moduleChanged s n a kid) := by
  unfold State.moduleChanged
  repeat' (first
    | with_reducible assumption
    | with_reducible apply keeps_State_changedCells
    | with_reducible apply keeps_State_setModX
    | with_reducible apply keeps_State_set
    | with_reducible apply keeps_State_ev
    | with_reducible apply keeps_State_setReg)

theorem keeps_State_identTaken {P : State → Prop} (hP : Km P) {s n m nonce pub last} (h_s : P s) :
    P (State.identTaken s n m nonce pub last) := by
  unfold State.identTaken
  have h0 := hP.toK0
  repeat' (first
    | with_reducible assumption
    | with_reducible apply keeps_State_msgToRing
    | with_reducible apply keeps_State_moduleChanged
    | with_reducible apply keeps_State_set
    | with_reducible apply keeps_State_setModX
    | (extract_lets +onlyGivenNames x; clear_value x; revert x; intro y)
    | with_reducible apply keeps_ite)

theorem keeps_State_identResponse {P : State → Prop} (hP : Km P) {s n m} (h_s : P s) :
    P (State.identResponse s n m) := by
  unfold State.identResponse
  have h0 := hP.toK0
  repeat' (first
    | with_reducible assumption
    | with_reducible apply keeps_State_msgToRing
    | with_reducible apply keeps_State_set
    | with_reducible apply keeps_State_err
    | with_reducible apply keeps_State_identTaken
    | with_reducible apply keeps_State_answered
    | (extract_lets +onlyGivenNames x; (have hx : P x := ?_); clear_value x; revert x; intro y hy; rotate_left; unfold x; clear x)
    | (extract_lets +onlyGivenNames x; clear_value x; revert x; intro y)
    | with_reducible apply keeps_ite)

theorem keeps_execIdentResponseRx {P : State → Prop} (hP : Km P) {n s} (h_s : P s) :
    OutP P ((execIdentResponseRx n s)) := by
  unfold execIdentResponseRx
  have h0 := hP.toK0
  repeat' (first
    | with_reducible assumption
    | with_reducible apply keeps_State_identResponse
    | with_reducible apply keeps_State_onMsg
    | with_reducible apply OutP.next
    | with_reducible intro _)

theorem keeps_State_toEis {P : State → Prop} (hP : Km P) {s n m f} (h_s : P s) (h_f : ∀ (x0 : Sys2Proof.Machine.State) (x1 : ℕ) (x2 : List ℕ), P x0 → P (f x0 x1 x2)) :
    P (State.toEis s n m f) := by
  unfold State.toEis
  have h0 := hP.toK0
  repeat' (first
    | with_reducible assumption
    | with_reducible apply h_f
    | with_reducible apply keeps_State_msgToRing
    | split)

theorem keeps_execEisResultRx {P : State → Prop} (hP : Km P) {n s} (h_s : P s) :
    OutP P ((execEisResultRx n s)) := by
  unfold execEisResultRx
  have h0 := hP.toK0
  repeat' (first
    | with_reducible assumption
    | with_reducible apply keeps_State_eisResult
    | with_reducible apply keeps_State_toEis
    | with_reducible apply keeps_State_onMsg
    | with_reducible apply OutP.next
    | with_reducible intro _)

theorem keeps_execSamplePlanAckRx {P : State → Prop} (hP : Km P) {n s} (h_s : P s) :
    OutP P ((execSamplePlanAckRx n s)) := by
  unfold execSamplePlanAckRx
  have h0 := hP.toK0
  repeat' (first
    | with_reducible assumption
    | with_reducible apply keeps_State_eisAck
    | with_reducible apply keeps_State_toEis
    | with_reducible apply keeps_State_onMsg
    | with_reducible apply OutP.next
    | with_reducible intro _)

theorem keeps_execBalanceAckRx {P : State → Prop} (hP : Km P) {n s} (h_s : P s) :
    OutP P ((execBalanceAckRx n s)) := by
  unfold execBalanceAckRx
  have h0 := hP.toK0
  repeat' (first
    | with_reducible assumption
    | with_reducible apply keeps_State_msgToRing
    | with_reducible apply keeps_State_onMsg
    | with_reducible apply OutP.next
    | with_reducible intro _)

theorem keeps_execWakeReqRx {P : State → Prop} (hP : Km P) {n s} (h_s : P s) :
    OutP P ((execWakeReqRx n s)) := by
  unfold execWakeReqRx
  have h0 := hP.toK0
  repeat' (first
    | with_reducible assumption
    | with_reducible apply keeps_State_msgToRing
    | with_reducible apply keeps_State_onMsg
    | with_reducible apply OutP.next
    | with_reducible intro _)

theorem keeps_State_alarmRx {P : State → Prop} (hP : Km P) {s n m} (h_s : P s) :
    P (State.alarmRx s n m) := by
  unfold State.alarmRx
  have h0 := hP.toK0
  repeat' (first
    | with_reducible assumption
    | with_reducible apply keeps_State_set
    | with_reducible apply keeps_State_ev
    | with_reducible apply keeps_State_setModX
    | with_reducible apply keeps_State_msgToRing
    | with_reducible apply keeps_State_setMb
    | with_reducible apply keeps_State_offerNew
    | with_reducible apply keeps_State_free
    | (extract_lets +onlyGivenNames x; (have hx : P x := ?_); clear_value x; revert x; intro y hy; rotate_left; unfold x; clear x)
    | (extract_lets +onlyGivenNames x; (have hx : P x.2 := ?_); clear_value x; revert x; intro y hy; rotate_left; unfold x; clear x)
    | (extract_lets +onlyGivenNames x; clear_value x; revert x; intro y)
    | with_reducible apply keeps_ite)

theorem keeps_execAlarmRx {P : State → Prop} (hP : Km P) {n s} (h_s : P s) :
    OutP P ((execAlarmRx n s)) := by
  unfold execAlarmRx
  have h0 := hP.toK0
  repeat' (first
    | with_reducible assumption
    | with_reducible apply keeps_State_alarmRx
    | with_reducible apply keeps_State_onMsg
    | with_reducible apply OutP.next
    | with_reducible intro _)

theorem keeps_State_reportOf {P : State → Prop} (hP : Km P) {s n m bad mod} (h_s : P s) :
    P (State.reportOf s n m bad mod) := by
  unfold State.reportOf
  have h0 := hP.toK0
  repeat' (first
    | with_reducible assumption
    | with_reducible apply keeps_State_incF
    | with_reducible apply keeps_State_setModRep
    | with_reducible apply keeps_State_thermReport
    | with_reducible apply keeps_State_msgToRing
    | (extract_lets +onlyGivenNames x; (have hx : P x := ?_); clear_value x; revert x; intro y hy; rotate_left; unfold x; clear x)
    | (extract_lets +onlyGivenNames x; clear_value x; revert x; intro y)
    | with_reducible apply keeps_ite
    | split)

theorem keeps_State_reportCells {P : State → Prop} (hP : Km P) {s n m} (h_s : P s) :
    P (State.reportCells s n m) := by
  unfold State.reportCells
  have h0 := hP.toK0
  repeat' (first
    | with_reducible assumption
    | with_reducible apply keeps_State_reportOf
    | with_reducible apply keeps_State_setB
    | with_reducible apply keeps_State_set)

theorem keeps_execReportCellsRx {P : State → Prop} (hP : Km P) {n s} (h_s : P s) :
    OutP P ((execReportCellsRx n s)) := by
  unfold execReportCellsRx
  have h0 := hP.toK0
  repeat' (first
    | with_reducible assumption
    | with_reducible apply keeps_State_reportCells
    | with_reducible apply keeps_State_onMsg
    | with_reducible apply OutP.next
    | with_reducible intro _)

theorem keeps_execMessageStall {P : State → Prop} (hP : K0 P) {n a cls s} (h_s : P s) :
    OutP P ((execMessageStall n a cls s)) := by
  unfold execMessageStall
  repeat' (first
    | with_reducible assumption
    | with_reducible apply keeps_State_msgDrop
    | with_reducible apply keeps_State_closeMsg
    | with_reducible apply OutP.next
    | (extract_lets +onlyGivenNames x; (have hx : P x := ?_); clear_value x; revert x; intro y hy; rotate_left; unfold x; clear x)
    | with_reducible apply keeps_ite
    | split)

theorem keeps_execUnavailableTx {P : State → Prop} (hP : K0 P) {s} (h_s : P s) :
    OutP P ((execUnavailableTx s)) := by
  unfold execUnavailableTx
  repeat' (first
    | with_reducible assumption
    | with_reducible apply keeps_State_send
    | with_reducible apply OutP.next
    | with_reducible apply keeps_ite)

theorem keeps_execTrefNow {P : State → Prop} (hP : K0 P) {w n s} (h_s : P s) :
    OutP P ((execTrefNow w n s)) := by
  unfold execTrefNow
  repeat' (first
    | with_reducible assumption
    | with_reducible apply keeps_State_mbusCmdBy
    | with_reducible apply OutP.next)

theorem keeps_execTimeRefDue {P : State → Prop} (hP : K0 P) {n s} (h_s : P s) :
    OutP P ((execTimeRefDue n s)) := by
  unfold execTimeRefDue
  repeat' (first
    | with_reducible assumption
    | with_reducible apply keeps_State_timeRefDue
    | with_reducible apply OutP.next)

theorem keeps_State_mbusOff {P : State → Prop} (hP : K0 P) {s n} (h_s : P s) :
    P (State.mbusOff s n) := by
  unfold State.mbusOff
  repeat' (first
    | with_reducible assumption
    | with_reducible apply keeps_State_setMbSt
    | with_reducible apply keeps_State_set
    | with_reducible apply keeps_State_ev
    | with_reducible apply keeps_State_setMb)

theorem keeps_execControllerShutDone {P : State → Prop} (hP : K0 P) {n s} (h_s : P s) :
    OutP P ((execControllerShutDone n s)) := by
  unfold execControllerShutDone
  repeat' (first
    | with_reducible assumption
    | with_reducible apply keeps_State_mbusOff
    | with_reducible apply OutP.next
    | with_reducible apply keeps_ite)

theorem keeps_execWatchFalse {P : State → Prop} (hP : K0 P) {n s} (h_s : P s) :
    OutP P ((execWatchFalse n s)) := by
  unfold execWatchFalse
  repeat' (first
    | with_reducible assumption
    | with_reducible apply keeps_State_incF
    | with_reducible apply OutP.next
    | with_reducible apply keeps_ite
    | split)

theorem keeps_State_watchWake {P : State → Prop} (hP : K0 P) {s n f} (h_s : P s) :
    P (State.watchWake s n f) := by
  unfold State.watchWake
  repeat' (first
    | with_reducible assumption
    | with_reducible apply keeps_State_mbusAwake
    | with_reducible apply keeps_State_wakeCause
    | with_reducible apply keeps_State_setMb
    | with_reducible apply keeps_State_setReg
    | (extract_lets +onlyGivenNames x; (have hx : P x := ?_); clear_value x; revert x; intro y hy; rotate_left; unfold x; clear x)
    | (extract_lets +onlyGivenNames x; clear_value x; revert x; intro y)
    | with_reducible apply keeps_ite)

theorem keeps_execWatchWake {P : State → Prop} (hP : K0 P) {n f s} (h_s : P s) :
    OutP P ((execWatchWake n f s)) := by
  unfold execWatchWake
  repeat' (first
    | with_reducible assumption
    | with_reducible apply keeps_State_watchWake
    | with_reducible apply OutP.next
    | with_reducible apply keeps_ite
    | split)

theorem keeps_execEnterAsleep {P : State → Prop} (hP : K0 P) {n s} (h_s : P s) :
    OutP P ((execEnterAsleep n s)) := by
  unfold execEnterAsleep
  repeat' (first
    | with_reducible assumption
    | with_reducible apply keeps_State_mbAsleep
    | with_reducible apply OutP.next
    | with_reducible apply keeps_ite)

theorem keeps_execSleepRequest {P : State → Prop} (hP : K0 P) {w n on s} (h_s : P s) :
    OutP P ((execSleepRequest w n on s)) := by
  unfold execSleepRequest
  repeat' (first
    | with_reducible assumption
    | with_reducible apply keeps_State_sleepWrite
    | with_reducible apply keeps_State_actionWrite
    | with_reducible apply keeps_finish
    | with_reducible apply OutP.next
    | with_reducible intro _)

theorem keeps_execRateDwellTimeout {P : State → Prop} (hP : K0 P) {n s} (h_s : P s) :
    OutP P ((execRateDwellTimeout n s)) := by
  unfold execRateDwellTimeout
  repeat' (first
    | with_reducible assumption
    | with_reducible apply keeps_State_nextCand
    | with_reducible apply OutP.next
    | with_reducible apply keeps_ite)

theorem keeps_execBusOffRecovery {P : State → Prop} (hP : K0 P) {n s} (h_s : P s) :
    OutP P ((execBusOffRecovery n s)) := by
  unfold execBusOffRecovery
  repeat' (first
    | with_reducible assumption
    | with_reducible apply keeps_State_setMb
    | with_reducible apply keeps_State_boReturn
    | with_reducible apply OutP.next
    | (extract_lets +onlyGivenNames x; clear_value x; revert x; intro y)
    | with_reducible apply keeps_ite)

theorem keeps_execBoRecover {P : State → Prop} (hP : K0 P) {w n s} (h_s : P s) :
    OutP P ((execBoRecover w n s)) := by
  unfold execBoRecover
  repeat' (first
    | with_reducible assumption
    | with_reducible apply keeps_State_mbusCmdBy
    | with_reducible apply OutP.next)

theorem keeps_execRx1Pop {P : State → Prop} (hP : K0 P) {w n s} (h_s : P s) :
    OutP P ((execRx1Pop w n s)) := by
  unfold execRx1Pop
  repeat' (first
    | with_reducible assumption
    | with_reducible apply keeps_State_mbusCmdBy
    | with_reducible apply OutP.next)

theorem keeps_execRx0Pop {P : State → Prop} (hP : K0 P) {w n s} (h_s : P s) :
    OutP P ((execRx0Pop w n s)) := by
  unfold execRx0Pop
  repeat' (first
    | with_reducible assumption
    | with_reducible apply keeps_State_mbusCmdBy
    | with_reducible apply OutP.next)

theorem keeps_execAbortHead {P : State → Prop} (hP : K0 P) {w n s} (h_s : P s) :
    OutP P ((execAbortHead w n s)) := by
  unfold execAbortHead
  repeat' (first
    | with_reducible assumption
    | with_reducible apply keeps_State_mbusCmdBy
    | with_reducible apply OutP.next)

theorem keeps_execTxPush {P : State → Prop} (hP : K0 P) {w n v s} (h_s : P s) :
    OutP P ((execTxPush w n v s)) := by
  unfold execTxPush
  repeat' (first
    | with_reducible assumption
    | with_reducible apply keeps_State_txwCtl
    | with_reducible apply keeps_State_actionWrite
    | with_reducible apply keeps_finish
    | with_reducible apply OutP.next
    | with_reducible intro _)

theorem keeps_State_tecAdd {P : State → Prop} (hP : K0 P) {s n k} (h_s : P s) :
    P (State.tecAdd s n k) := by
  unfold State.tecAdd
  repeat' (first
    | with_reducible assumption
    | with_reducible apply keeps_State_setMb)

theorem keeps_State_abortDone {P : State → Prop} (hP : K0 P) {s n src} (h_s : P s) :
    P (State.abortDone s n src) := by
  unfold State.abortDone
  repeat' (first
    | with_reducible assumption
    | with_reducible apply keeps_State_abortNow
    | with_reducible apply keeps_ite)

theorem keeps_State_txDone {P : State → Prop} (hP : K0 P) {s n r sof src} (h_s : P s) :
    P (State.txDone s n r sof src) := by
  unfold State.txDone
  repeat' (first
    | with_reducible assumption
    | with_reducible apply keeps_State_busOffCheck
    | with_reducible apply keeps_State_arbitrate
    | with_reducible apply keeps_State_tecAdd
    | with_reducible apply keeps_State_busError
    | with_reducible apply keeps_State_abortDone
    | with_reducible apply keeps_State_send
    | with_reducible apply keeps_State_setMb
    | (extract_lets +onlyGivenNames x; (have hx : P x := ?_); clear_value x; revert x; intro y hy; rotate_left; unfold x; clear x)
    | (extract_lets +onlyGivenNames x; clear_value x; revert x; intro y)
    | with_reducible apply keeps_ite
    | split)

theorem keeps_execCanFrameTxDone {P : State → Prop} (hP : K0 P) {n r sof s} (h_s : P s) :
    OutP P ((execCanFrameTxDone n r sof s)) := by
  unfold execCanFrameTxDone
  repeat' (first
    | with_reducible assumption
    | with_reducible apply keeps_State_txDone
    | with_reducible apply OutP.next
    | split)

theorem keeps_execCanFrameRx {P : State → Prop} (hP : Km P) {n f sof s} (h_s : P s) :
    OutP P ((execCanFrameRx n f sof s)) := by
  unfold execCanFrameRx
  have h0 := hP.toK0
  repeat' (first
    | with_reducible assumption
    | with_reducible apply keeps_State_canRx
    | with_reducible apply keeps_State_busError
    | with_reducible apply keeps_State_showEcr
    | with_reducible apply keeps_State_arbitrate
    | with_reducible apply keeps_State_setMb
    | with_reducible apply keeps_State_injTake
    | with_reducible apply keeps_State_detectGood
    | with_reducible apply OutP.next
    | (extract_lets +onlyGivenNames x; (have hx : P x := ?_); clear_value x; revert x; intro y hy; rotate_left; unfold x; clear x)
    | (extract_lets +onlyGivenNames x; (have hx : P x.2 := ?_); clear_value x; revert x; intro y hy; rotate_left; unfold x; clear x)
    | (extract_lets +onlyGivenNames x; clear_value x; revert x; intro y)
    | with_reducible apply keeps_ite)

end Sys2Proof.Machine
end

