-- ==== Sys2Proof/Laws/KPower.lean ====
section
/-! SUPPORT. What the operations of Machine.Power keep. -/

namespace Sys2Proof.Machine

open Host (Outcome)

theorem keeps_State_protApplied {P : State → Prop} (hP : K0 P) {s0 s n} (h_s0 : P s0) (h_s : P s) :
    P (State.protApplied s0 s n) := by
  unfold State.protApplied
  repeat' (first
    | with_reducible assumption
    | with_reducible apply keeps_State_setRod)

theorem keeps_State_energiseSide {P : State → Prop} (hP : K0 P) {s n} (h_s : P s) :
    P (State.energiseSide s n) := by
  unfold State.energiseSide
  repeat' (first
    | with_reducible assumption
    | with_reducible apply keeps_State_setBrk
    | with_reducible apply keeps_State_setStep
    | with_reducible apply keeps_ite)

theorem keeps_State_runRod {P : State → Prop} (hP : K0 P) {s n} (h_s : P s) :
    P (State.runRod s n) := by
  unfold State.runRod
  repeat' (first
    | with_reducible assumption
    | with_reducible apply keeps_State_energiseSide
    | with_reducible apply keeps_State_setRod
    | with_reducible apply keeps_State_setStep
    | (extract_lets +onlyGivenNames x; clear_value x; revert x; intro y)
    | with_reducible apply keeps_ite)

theorem keeps_State_startRod {P : State → Prop} (hP : K0 P) {s n} (h_s : P s) :
    P (State.startRod s n) := by
  unfold State.startRod
  repeat' (first
    | with_reducible assumption
    | with_reducible apply keeps_State_wakeCause
    | with_reducible apply keeps_State_setRod
    | with_reducible apply keeps_State_setLink
    | with_reducible apply keeps_State_tripPath
    | with_reducible apply keeps_foldl
    | with_reducible intro _
    | (extract_lets +onlyGivenNames x; (have hx : P x := ?_); clear_value x; revert x; intro y hy; rotate_left; unfold x; clear x)
    | (extract_lets +onlyGivenNames x; clear_value x; revert x; intro y)
    | with_reducible apply keeps_ite)

theorem keeps_State_enterOff {P : State → Prop} (hP : K0 P) {s n} (h_s : P s) :
    P (State.enterOff s n) := by
  unfold State.enterOff
  repeat' (first
    | with_reducible assumption
    | with_reducible apply keeps_State_setRodSt
    | with_reducible apply keeps_State_setStep
    | with_reducible apply keeps_State_setDisch
    | with_reducible apply keeps_State_set)

theorem keeps_State_clearRod {P : State → Prop} (hP : K0 P) {s n} (h_s : P s) :
    P (State.clearRod s n) := by
  unfold State.clearRod
  repeat' (first
    | with_reducible assumption
    | with_reducible apply keeps_State_enterOff
    | with_reducible apply keeps_State_setReg)

theorem keeps_State_denyOne {P : State → Prop} (hP : K0 P) {s n multi l} (h_s : P s) :
    P ((State.denyOne s n multi l)).1 := by
  unfold State.denyOne
  repeat' (first
    | with_reducible assumption
    | with_reducible apply keeps_State_free
    | with_reducible apply keeps_State_deny
    | (extract_lets +onlyGivenNames x; (have hx : P x.2 := ?_); clear_value x; revert x; intro y hy; rotate_left; unfold x; clear x)
    | with_reducible apply keeps_ite1
    | split)

theorem keeps_State_rodCmd {P : State → Prop} (hP : K0 P) {s n multi c} (h_s : P s) :
    P ((State.rodCmd s n multi c)).1 := by
  unfold State.rodCmd
  repeat' (first
    | with_reducible assumption
    | with_reducible apply keeps_State_runRod
    | with_reducible apply keeps_State_startRod
    | with_reducible apply keeps_refuse
    | with_reducible apply keeps_State_set
    | with_reducible apply keeps_State_clearRod
    | with_reducible apply keeps_State_descentCause
    | with_reducible apply keeps_State_denyOne
    | with_reducible apply keeps_State_faultCause
    | with_reducible apply keeps_State_deny
    | with_reducible intro _
    | with_reducible apply hf3
    | (extract_lets +onlyGivenNames x; (have hx : ∀ a, P a → P (x a).1 := ?_); clear_value x; revert x; intro y hf3; rotate_left; unfold x; clear x)
    | (extract_lets +onlyGivenNames x; clear_value x; revert x; intro y)
    | with_reducible apply keeps_ite
    | with_reducible apply keeps_ite1
    | split)

theorem keeps_State_cmdWrite {P : State → Prop} (hP : K0 P) {s w n v} (h_s : P s) :
    P ((State.cmdWrite s w n v)).1 := by
  unfold State.cmdWrite
  repeat' (first
    | with_reducible assumption
    | with_reducible apply keeps_State_rodCmd
    | with_reducible apply keeps_State_deny
    | with_reducible apply keeps_State_refuseShutting
    | with_reducible apply keeps_State_actionWrite
    | with_reducible intro _
    | (extract_lets +onlyGivenNames x; clear_value x; revert x; intro y)
    | with_reducible apply keeps_ite
    | with_reducible apply keeps_ite1
    | split)

theorem keeps_State_diagSlots {P : State → Prop} (hP : K0 P) {s k l} (h_s : P s) :
    P (State.diagSlots s k l) := by
  unfold State.diagSlots
  repeat' (first
    | with_reducible assumption
    | with_reducible apply keeps_State_setRod
    | with_reducible apply keeps_foldl
    | with_reducible intro _
    | (extract_lets +onlyGivenNames x; clear_value x; revert x; intro y)
    | with_reducible apply keeps_ite)

theorem keeps_execDrvTrippedTimeout {P : State → Prop} (hP : K0 P) {n s} (h_s : P s) :
    OutP P ((execDrvTrippedTimeout n s)) := by
  unfold execDrvTrippedTimeout
  repeat' (first
    | with_reducible assumption
    | with_reducible apply keeps_State_startFails
    | with_reducible apply OutP.next
    | with_reducible apply outP_ite)

theorem keeps_execLifeSnap {P : State → Prop} (hP : K0 P) {n s} (h_s : P s) :
    OutP P ((execLifeSnap n s)) := by
  unfold execLifeSnap
  repeat' (first
    | with_reducible assumption
    | with_reducible apply keeps_State_ev
    | with_reducible apply OutP.next)

theorem keeps_State_rfGain {P : State → Prop} (hP : K0 P) {s n m b k} (h_s : P s) :
    P (State.rfGain s n m b k) := by
  unfold State.rfGain
  repeat' (first
    | with_reducible assumption
    | with_reducible apply keeps_State_setBit
    | with_reducible apply keeps_State_ev
    | with_reducible apply keeps_State_setReg64
    | with_reducible apply keeps_State_incSat
    | (extract_lets +onlyGivenNames x; (have hx : P x := ?_); clear_value x; revert x; intro y hy; rotate_left; unfold x; clear x)
    | (extract_lets +onlyGivenNames x; clear_value x; revert x; intro y)
    | with_reducible apply keeps_ite)

theorem keeps_State_rfCount {P : State → Prop} (hP : K0 P) {s n m a b k} (h_s : P s) :
    P (State.rfCount s n m a b k) := by
  unfold State.rfCount
  repeat' (first
    | with_reducible assumption
    | with_reducible apply keeps_State_rfGain
    | with_reducible apply keeps_ite)

theorem keeps_State_rfClose {P : State → Prop} (hP : K0 P) {s n m y3 y4} (h_s : P s) :
    P ((State.rfClose s n m y3 y4)).1 := by
  induction y3 generalizing s y4
  case' succ n ih => skip
  all_goals first | unfold State.rfClose | skip
  all_goals repeat' (first
    | with_reducible assumption
    | with_reducible apply ih
    | with_reducible apply keeps_State_rfCount
    | with_reducible apply keeps_ite1
    | split)

theorem keeps_State_rfTurn {P : State → Prop} (hP : K0 P) {s n m x} (h_s : P s) :
    P (State.rfTurn s n m x) := by
  unfold State.rfTurn
  repeat' (first
    | with_reducible assumption
    | with_reducible apply keeps_State_setLife
    | with_reducible apply keeps_State_rfCount
    | with_reducible apply keeps_State_incSat
    | with_reducible apply keeps_State_rfClose
    | (extract_lets +onlyGivenNames x; (have hx : P x := ?_); clear_value x; revert x; intro y hy; rotate_left; unfold x; clear x)
    | (extract_lets +onlyGivenNames x; (have hx : P x.1 := ?_); clear_value x; revert x; intro y hy; rotate_left; unfold x; clear x)
    | (extract_lets +onlyGivenNames x; clear_value x; revert x; intro y)
    | with_reducible apply keeps_ite
    | split)

theorem keeps_State_rfTake {P : State → Prop} (hP : K0 P) {s n m} (h_s : P s) :
    P (State.rfTake s n m) := by
  unfold State.rfTake
  repeat' (first
    | with_reducible assumption
    | with_reducible apply keeps_State_rfTurn
    | with_reducible apply keeps_State_setLife
    | with_reducible intro _
    | with_reducible apply hf10
    | (extract_lets +onlyGivenNames x; (have hx : ∀ a, P (x a) := ?_); clear_value x; revert x; intro y hf10; rotate_left; unfold x; clear x)
    | (extract_lets +onlyGivenNames x; (have hx : P x := ?_); clear_value x; revert x; intro y hy; rotate_left; unfold x; clear x)
    | (extract_lets +onlyGivenNames x; clear_value x; revert x; intro y)
    | with_reducible apply keeps_ite
    | split)

theorem keeps_execRainflowTick {P : State → Prop} (hP : K0 P) {n s} (h_s : P s) :
    OutP P ((execRainflowTick n s)) := by
  unfold execRainflowTick
  repeat' (first
    | with_reducible assumption
    | with_reducible apply keeps_State_rfTake
    | with_reducible apply keeps_foldl
    | with_reducible apply OutP.next
    | with_reducible intro _)

theorem keeps_execDisStopExpire {P : State → Prop} (hP : K0 P) {n s} (h_s : P s) :
    OutP P ((execDisStopExpire n s)) := by
  unfold execDisStopExpire
  repeat' (first
    | with_reducible assumption
    | with_reducible apply keeps_State_setDisch
    | with_reducible apply keeps_State_set
    | with_reducible apply OutP.next
    | with_reducible apply outP_ite)

theorem keeps_execDisLimExpire {P : State → Prop} (hP : K0 P) {n s} (h_s : P s) :
    OutP P ((execDisLimExpire n s)) := by
  unfold execDisLimExpire
  repeat' (first
    | with_reducible assumption
    | with_reducible apply keeps_State_err
    | with_reducible apply keeps_State_faultCause
    | with_reducible apply OutP.next
    | with_reducible apply outP_ite)

theorem keeps_execDescTimeout {P : State → Prop} (hP : K0 P) {n s} (h_s : P s) :
    OutP P ((execDescTimeout n s)) := by
  unfold execDescTimeout
  repeat' (first
    | with_reducible assumption
    | with_reducible apply keeps_State_faultCause
    | with_reducible apply OutP.next
    | with_reducible apply outP_ite)

theorem keeps_State_setTestSrc {P : State → Prop} (hP : K0 P) {s n v} (h_s : P s) :
    P (State.setTestSrc s n v) := by
  unfold State.setTestSrc
  repeat' (first
    | with_reducible assumption
    | with_reducible apply keeps_State_setRod
    | with_reducible apply keeps_State_send
    | (extract_lets +onlyGivenNames x; clear_value x; revert x; intro y)
    | with_reducible apply keeps_ite)

theorem keeps_execDiagStepEnd {P : State → Prop} (hP : K0 P) {n s} (h_s : P s) :
    OutP P ((execDiagStepEnd n s)) := by
  unfold execDiagStepEnd
  repeat' (first
    | with_reducible assumption
    | with_reducible apply keeps_State_faultCause
    | with_reducible apply keeps_State_energiseSide
    | with_reducible apply keeps_State_setReg
    | with_reducible apply keeps_State_setTestSrc
    | with_reducible apply keeps_State_setRod
    | with_reducible apply OutP.next
    | (extract_lets +onlyGivenNames x; (have hx : P x := ?_); clear_value x; revert x; intro y hy; rotate_left; unfold x; clear x)
    | (extract_lets +onlyGivenNames x; clear_value x; revert x; intro y)
    | with_reducible apply outP_ite)

theorem keeps_execEnergiseDone {P : State → Prop} (hP : K0 P) {n s} (h_s : P s) :
    OutP P ((execEnergiseDone n s)) := by
  unfold execEnergiseDone
  repeat' (first
    | with_reducible assumption
    | with_reducible apply keeps_State_setRod
    | with_reducible apply keeps_State_setReg
    | with_reducible apply keeps_State_setRodSt
    | with_reducible apply keeps_State_setStep
    | with_reducible apply OutP.next
    | (extract_lets +onlyGivenNames x; (have hx : P x := ?_); clear_value x; revert x; intro y hy; rotate_left; unfold x; clear x)
    | (extract_lets +onlyGivenNames x; clear_value x; revert x; intro y)
    | with_reducible apply outP_ite)

theorem keeps_State_voltageEval {P : State → Prop} (hP : K0 P) {s n} (h_s : P s) :
    P (State.voltageEval s n) := by
  unfold State.voltageEval
  repeat' (first
    | with_reducible assumption
    | with_reducible apply keeps_State_enterOff
    | with_reducible apply keeps_State_err
    | with_reducible apply keeps_State_faultCause
    | with_reducible apply keeps_State_setB
    | with_reducible apply keeps_State_setReg
    | (extract_lets +onlyGivenNames x; (have hx : P x := ?_); clear_value x; revert x; intro y hy; rotate_left; unfold x; clear x)
    | (extract_lets +onlyGivenNames x; clear_value x; revert x; intro y)
    | with_reducible apply keeps_ite)

theorem keeps_execVoltageEval {P : State → Prop} (hP : K0 P) {n s} (h_s : P s) :
    OutP P ((execVoltageEval n s)) := by
  unfold execVoltageEval
  repeat' (first
    | with_reducible assumption
    | with_reducible apply keeps_State_voltageEval
    | with_reducible apply OutP.next)

theorem keeps_execFeedbackTimeout {P : State → Prop} (hP : K0 P) {n brk s} (h_s : P s) :
    OutP P ((execFeedbackTimeout n brk s)) := by
  unfold execFeedbackTimeout
  repeat' (first
    | with_reducible assumption
    | with_reducible apply keeps_State_faultCause
    | with_reducible apply OutP.next
    | (extract_lets +onlyGivenNames x; clear_value x; revert x; intro y)
    | with_reducible apply outP_ite)

theorem keeps_execFeedbackSample {P : State → Prop} (hP : K0 P) {n cont brk s} (h_s : P s) :
    OutP P ((execFeedbackSample n cont brk s)) := by
  unfold execFeedbackSample
  repeat' (first
    | with_reducible assumption
    | with_reducible apply keeps_State_gatesOffExit
    | with_reducible apply keeps_State_setDisch
    | with_reducible apply keeps_State_setRodSt
    | with_reducible apply keeps_State_setStep
    | with_reducible apply keeps_State_setPrech
    | with_reducible apply keeps_State_set
    | with_reducible apply keeps_State_setB
    | with_reducible apply OutP.next
    | (extract_lets +onlyGivenNames x; (have hx : P x := ?_); clear_value x; revert x; intro y hy; rotate_left; unfold x; clear x)
    | (extract_lets +onlyGivenNames x; clear_value x; revert x; intro y)
    | with_reducible apply outP_ite)

theorem keeps_execHoldoffEnd {P : State → Prop} (hP : K0 P) {n s} (h_s : P s) :
    OutP P ((execHoldoffEnd n s)) := by
  unfold execHoldoffEnd
  repeat' (first
    | with_reducible assumption
    | with_reducible apply keeps_State_set
    | with_reducible apply OutP.next)

theorem keeps_State_pcRatio {P : State → Prop} (hP : K0 P) {s n} (h_s : P s) :
    P ((State.pcRatio s n)).2 := by
  unfold State.pcRatio
  repeat' (first
    | with_reducible assumption
    | with_reducible apply keeps_State_free
    | (extract_lets +onlyGivenNames x; (have hx : P x.2 := ?_); clear_value x; revert x; intro y hy; rotate_left; unfold x; clear x)
    | (extract_lets +onlyGivenNames x; clear_value x; revert x; intro y)
    | with_reducible apply keeps_ite2)

theorem keeps_execPrecharge3tau {P : State → Prop} (hP : K0 P) {n s} (h_s : P s) :
    OutP P ((execPrecharge3tau n s)) := by
  unfold execPrecharge3tau
  repeat' (first
    | with_reducible assumption
    | with_reducible apply keeps_State_setCont
    | with_reducible apply keeps_State_setStep
    | with_reducible apply keeps_State_faultCause
    | with_reducible apply keeps_State_set
    | with_reducible apply keeps_State_pcRatio
    | with_reducible apply OutP.next
    | (extract_lets +onlyGivenNames x; (have hx : P x := ?_); clear_value x; revert x; intro y hy; rotate_left; unfold x; clear x)
    | (extract_lets +onlyGivenNames x; (have hx : P x.2 := ?_); clear_value x; revert x; intro y hy; rotate_left; unfold x; clear x)
    | (extract_lets +onlyGivenNames x; clear_value x; revert x; intro y)
    | with_reducible apply outP_ite)

theorem keeps_State_prechargeShort {P : State → Prop} (hP : K0 P) {s n} (h_s : P s) :
    P (State.prechargeShort s n) := by
  unfold State.prechargeShort
  repeat' (first
    | with_reducible assumption
    | with_reducible apply keeps_State_ev
    | with_reducible apply keeps_State_incF
    | with_reducible apply keeps_State_set
    | with_reducible apply keeps_State_setStep
    | with_reducible apply keeps_State_err
    | with_reducible apply keeps_State_setPrech
    | with_reducible apply keeps_State_setRodSt
    | (extract_lets +onlyGivenNames x; (have hx : P x := ?_); clear_value x; revert x; intro y hy; rotate_left; unfold x; clear x)
    | (extract_lets +onlyGivenNames x; clear_value x; revert x; intro y)
    | with_reducible apply keeps_ite)

theorem keeps_execPrecharge1tau {P : State → Prop} (hP : K0 P) {n s} (h_s : P s) :
    OutP P ((execPrecharge1tau n s)) := by
  unfold execPrecharge1tau
  repeat' (first
    | with_reducible assumption
    | with_reducible apply keeps_State_faultCause
    | with_reducible apply keeps_State_prechargeShort
    | with_reducible apply keeps_State_set
    | with_reducible apply keeps_State_pcRatio
    | with_reducible apply OutP.next
    | (extract_lets +onlyGivenNames x; (have hx : P x := ?_); clear_value x; revert x; intro y hy; rotate_left; unfold x; clear x)
    | (extract_lets +onlyGivenNames x; (have hx : P x.2 := ?_); clear_value x; revert x; intro y hy; rotate_left; unfold x; clear x)
    | (extract_lets +onlyGivenNames x; clear_value x; revert x; intro y)
    | with_reducible apply outP_ite)

theorem keeps_State_oneCmd {P : State → Prop} (hP : K0 P) {s w n c} (h_s : P s) :
    P (State.oneCmd s w n c) := by
  unfold State.oneCmd
  repeat' (first
    | with_reducible assumption
    | with_reducible apply keeps_State_cmdWrite
    | with_reducible apply keeps_finish)

theorem keeps_execClrLockout {P : State → Prop} (hP : K0 P) {w n s} (h_s : P s) :
    OutP P ((execClrLockout w n s)) := by
  unfold execClrLockout
  repeat' (first
    | with_reducible assumption
    | with_reducible apply keeps_State_oneCmd
    | with_reducible apply OutP.next)

theorem keeps_execSwTrip {P : State → Prop} (hP : K0 P) {w n s} (h_s : P s) :
    OutP P ((execSwTrip w n s)) := by
  unfold execSwTrip
  repeat' (first
    | with_reducible assumption
    | with_reducible apply keeps_State_oneCmd
    | with_reducible apply OutP.next)

theorem keeps_execRodClear {P : State → Prop} (hP : K0 P) {w n s} (h_s : P s) :
    OutP P ((execRodClear w n s)) := by
  unfold execRodClear
  repeat' (first
    | with_reducible assumption
    | with_reducible apply keeps_State_oneCmd
    | with_reducible apply OutP.next)

theorem keeps_execRodStop {P : State → Prop} (hP : K0 P) {w n s} (h_s : P s) :
    OutP P ((execRodStop w n s)) := by
  unfold execRodStop
  repeat' (first
    | with_reducible assumption
    | with_reducible apply keeps_State_oneCmd
    | with_reducible apply OutP.next)

theorem keeps_execRodRun {P : State → Prop} (hP : K0 P) {w n s} (h_s : P s) :
    OutP P ((execRodRun w n s)) := by
  unfold execRodRun
  repeat' (first
    | with_reducible assumption
    | with_reducible apply keeps_State_oneCmd
    | with_reducible apply OutP.next)

theorem keeps_State_sendClears {P : State → Prop} (hP : K0 P) {s n} (h_s : P s) :
    P (State.sendClears s n) := by
  unfold State.sendClears
  repeat' (first
    | with_reducible assumption
    | with_reducible apply keeps_State_lowTx
    | with_reducible apply keeps_State_setLink
    | with_reducible apply keeps_foldl
    | with_reducible intro _
    | (extract_lets +onlyGivenNames x; (have hx : P x := ?_); clear_value x; revert x; intro y hy; rotate_left; unfold x; clear x)
    | (extract_lets +onlyGivenNames x; clear_value x; revert x; intro y)
    | with_reducible apply keeps_ite)

theorem keeps_State_moduleChange {P : State → Prop} (hP : K0 P) {s n m id} (h_s : P s) :
    P (State.moduleChange s n m id) := by
  unfold State.moduleChange
  repeat' (first
    | with_reducible assumption
    | with_reducible apply keeps_State_ev
    | with_reducible apply keeps_State_incFW
    | with_reducible apply keeps_State_setLife
    | with_reducible apply keeps_State_setReg64
    | with_reducible apply keeps_State_setReg
    | with_reducible apply keeps_State_hwPost
    | with_reducible apply keeps_foldl
    | with_reducible intro _
    | (extract_lets +onlyGivenNames x; (have hx : P x := ?_); clear_value x; revert x; intro y hy; rotate_left; unfold x; clear x)
    | (extract_lets +onlyGivenNames x; clear_value x; revert x; intro y)
    | with_reducible apply keeps_ite)

theorem keeps_execIdReadDone {P : State → Prop} (hP : K0 P) {n s} (h_s : P s) :
    OutP P ((execIdReadDone n s)) := by
  unfold execIdReadDone
  repeat' (first
    | with_reducible assumption
    | with_reducible apply keeps_State_idFails
    | with_reducible apply keeps_State_setRod
    | with_reducible apply keeps_State_sendClears
    | with_reducible apply keeps_State_moduleChange
    | with_reducible apply keeps_foldl
    | with_reducible apply OutP.next
    | with_reducible intro _
    | (extract_lets +onlyGivenNames x; (have hx : P x := ?_); clear_value x; revert x; intro y hy; rotate_left; unfold x; clear x)
    | (extract_lets +onlyGivenNames x; clear_value x; revert x; intro y)
    | with_reducible apply outP_ite)

theorem keeps_execTripPathTest {P : State → Prop} (hP : K0 P) {n s} (h_s : P s) :
    OutP P ((execTripPathTest n s)) := by
  unfold execTripPathTest
  repeat' (first
    | with_reducible assumption
    | with_reducible apply keeps_State_err
    | with_reducible apply keeps_State_startFails
    | with_reducible apply keeps_State_idReq
    | with_reducible apply keeps_State_setRod
    | with_reducible apply keeps_State_setStep
    | with_reducible apply keeps_State_set
    | with_reducible apply keeps_State_setReg
    | with_reducible apply keeps_State_setSafe
    | with_reducible apply OutP.next
    | (extract_lets +onlyGivenNames x; (have hx : P x := ?_); clear_value x; revert x; intro y hy; rotate_left; unfold x; clear x)
    | (extract_lets +onlyGivenNames x; clear_value x; revert x; intro y)
    | with_reducible apply keeps_ite
    | with_reducible apply outP_ite)

theorem keeps_execRodStart {P : State → Prop} (hP : K0 P) {w n s} (h_s : P s) :
    OutP P ((execRodStart w n s)) := by
  unfold execRodStart
  repeat' (first
    | with_reducible assumption
    | with_reducible apply keeps_State_oneCmd
    | with_reducible apply OutP.next)

theorem keeps_State_cmpFire {P : State → Prop} (hP : K0 P) {s n k hi} (h_s : P s) :
    P ((State.cmpFire s n k hi)).1 := by
  unfold State.cmpFire
  repeat' (first
    | with_reducible assumption
    | with_reducible apply keeps_State_ev
    | with_reducible apply keeps_State_urgAuto
    | with_reducible apply keeps_State_injTake
    | with_reducible apply keeps_State_setBit
    | with_reducible apply keeps_State_setRod
    | (extract_lets +onlyGivenNames x; (have hx : P x := ?_); clear_value x; revert x; intro y hy; rotate_left; unfold x; clear x)
    | (extract_lets +onlyGivenNames x; clear_value x; revert x; intro y)
    | with_reducible apply keeps_ite
    | with_reducible apply keeps_ite1
    | split)

theorem keeps_State_detectorsFire {P : State → Prop} (hP : K0 P) {s n cmps didt} (h_s : P s) :
    P (State.detectorsFire s n cmps didt) := by
  unfold State.detectorsFire
  repeat' (first
    | with_reducible assumption
    | with_reducible apply keeps_State_faultCause
    | with_reducible apply keeps_State_descentCause
    | with_reducible apply keeps_State_setRod
    | with_reducible apply keeps_State_injTake
    | with_reducible apply keeps_State_cmpFire
    | with_reducible apply keeps_foldl1
    | with_reducible intro _
    | (extract_lets +onlyGivenNames x; (have hx : P x := ?_); clear_value x; revert x; intro y hy; rotate_left; unfold x; clear x)
    | (extract_lets +onlyGivenNames x; (have hx : P x.1 := ?_); clear_value x; revert x; intro y hy; rotate_left; unfold x; clear x)
    | (extract_lets +onlyGivenNames x; clear_value x; revert x; intro y)
    | with_reducible apply keeps_ite)

theorem keeps_execBlankClose {P : State → Prop} (hP : K0 P) {n x cmps v s} (h_s : P s) :
    OutP P ((execBlankClose n x cmps v s)) := by
  unfold execBlankClose
  repeat' (first
    | with_reducible assumption
    | with_reducible apply keeps_State_detectorsFire
    | with_reducible apply keeps_State_setRod
    | with_reducible apply OutP.next
    | (extract_lets +onlyGivenNames x; (have hx : P x := ?_); clear_value x; revert x; intro y hy; rotate_left; unfold x; clear x)
    | (extract_lets +onlyGivenNames x; clear_value x; revert x; intro y)
    | with_reducible apply outP_ite)

theorem keeps_execDidtFire {P : State → Prop} (hP : K0 P) {n x v s} (h_s : P s) :
    OutP P ((execDidtFire n x v s)) := by
  unfold execDidtFire
  repeat' (first
    | with_reducible assumption
    | with_reducible apply keeps_State_detectorsFire
    | with_reducible apply OutP.next
    | with_reducible apply outP_ite)

theorem keeps_execComparatorRearm {P : State → Prop} (hP : K0 P) {n k v s} (h_s : P s) :
    OutP P ((execComparatorRearm n k v s)) := by
  unfold execComparatorRearm
  repeat' (first
    | with_reducible assumption
    | with_reducible apply keeps_State_setRod
    | with_reducible apply OutP.next
    | with_reducible apply keeps_ite)

theorem keeps_execComparatorFire {P : State → Prop} (hP : K0 P) {n k v since s} (h_s : P s) :
    OutP P ((execComparatorFire n k v since s)) := by
  unfold execComparatorFire
  repeat' (first
    | with_reducible assumption
    | with_reducible apply keeps_State_detectorsFire
    | with_reducible apply OutP.next
    | with_reducible apply outP_ite)

end Sys2Proof.Machine
end

