-- ==== Sys2Proof/Laws/KTally.lean ====
section
/-! SUPPORT. What the operations of Machine.Tally keep. -/

namespace Sys2Proof.Machine

open Host (Outcome)

theorem keeps_State_setStore {P : State → Prop} (hP : K0 P) {s x} (h_s : P s) :
    P (State.setStore s x) := by
  unfold State.setStore
  repeat' (first
    | with_reducible assumption
    | fail_if_no_progress with_reducible refine hP.upd ?_)

theorem keeps_State_setStoreSt {P : State → Prop} (hP : K0 P) {s v} (h_s : P s) :
    P (State.setStoreSt s v) := by
  unfold State.setStoreSt
  repeat' (first
    | with_reducible assumption
    | with_reducible apply keeps_State_set
    | with_reducible apply keeps_State_ev
    | with_reducible apply keeps_ite)

theorem keeps_State_setDegraded {P : State → Prop} (hP : K0 P) {s b} (h_s : P s) :
    P (State.setDegraded s b) := by
  unfold State.setDegraded
  repeat' (first
    | with_reducible assumption
    | with_reducible apply keeps_State_setB
    | with_reducible apply keeps_State_ev
    | with_reducible apply keeps_ite)

theorem keeps_State_driveLost {P : State → Prop} (hP : K0 P) {s k} (h_s : P s) :
    P (State.driveLost s k) := by
  unfold State.driveLost
  repeat' (first
    | with_reducible assumption
    | with_reducible apply keeps_State_setStore
    | with_reducible apply keeps_State_setStoreSt
    | with_reducible apply keeps_State_setDegraded
    | (extract_lets +onlyGivenNames x; clear_value x; revert x; intro y)
    | with_reducible apply keeps_ite)

theorem keeps_State_nvmeDisable {P : State → Prop} (hP : K0 P) {s k} (h_s : P s) :
    P (State.nvmeDisable s k) := by
  unfold State.nvmeDisable
  repeat' (first
    | with_reducible assumption
    | with_reducible apply keeps_State_setReg
    | with_reducible apply keeps_State_driveLost)

theorem keeps_State_nvmeEnable {P : State → Prop} (hP : K0 P) {s k} (h_s : P s) :
    P (State.nvmeEnable s k) := by
  unfold State.nvmeEnable
  repeat' (first
    | with_reducible assumption
    | with_reducible apply keeps_State_setReg)

theorem keeps_State_tallyDisable {P : State → Prop} (hP : K0 P) {s} (h_s : P s) :
    P (State.tallyDisable s) := by
  unfold State.tallyDisable
  repeat' (first
    | with_reducible assumption
    | with_reducible apply keeps_State_set
    | with_reducible apply keeps_ite)

theorem keeps_State_tallyEnable {P : State → Prop} (hP : K0 P) {s} (h_s : P s) :
    P (State.tallyEnable s) := by
  unfold State.tallyEnable
  repeat' (first
    | with_reducible assumption
    | with_reducible apply keeps_State_setDegraded
    | with_reducible apply keeps_State_setStoreSt)

theorem keeps_State_nsCmd {P : State → Prop} (hP : K0 P) {s k v} (h_s : P s) :
    P (State.nsCmd s k v) := by
  unfold State.nsCmd
  repeat' (first
    | with_reducible assumption
    | with_reducible apply keeps_State_setStore
    | with_reducible apply keeps_State_send
    | with_reducible apply keeps_State_ev
    | with_reducible apply keeps_State_setReg
    | (extract_lets +onlyGivenNames x; (have hx : P x := ?_); clear_value x; revert x; intro y hy; rotate_left; unfold x; clear x)
    | (extract_lets +onlyGivenNames x; clear_value x; revert x; intro y)
    | with_reducible apply keeps_ite)

theorem keeps_State_nvmeRegWrite {P : State → Prop} (hP : K0 P) {s k off v} (h_s : P s) :
    OptP (fun r => P (r).1) ((State.nvmeRegWrite s k off v)) := by
  unfold State.nvmeRegWrite
  repeat' (first
    | with_reducible assumption
    | with_reducible apply keeps_State_nsCmd
    | with_reducible exact OptP.none
    | with_reducible apply OptP.some
    | with_reducible apply optP_ite)

theorem keeps_State_rdCtl {P : State → Prop} (hP : Km P) {s v} (h_s : P s) :
    P (State.rdCtl s v) := by
  unfold State.rdCtl
  have h0 := hP.toK0
  repeat' (first
    | with_reducible assumption
    | with_reducible apply keeps_State_setMemBytes
    | with_reducible apply keeps_State_setReg
    | with_reducible apply keeps_State_ev
    | with_reducible apply keeps_State_setWord
    | with_reducible intro _
    | with_reducible apply hf2
    | (extract_lets +onlyGivenNames x; (have hx : ∀ a b, P a → P (x a b) := ?_); clear_value x; revert x; intro y hf2; rotate_left; unfold x; clear x)
    | (extract_lets +onlyGivenNames x; (have hx : P x := ?_); clear_value x; revert x; intro y hy; rotate_left; unfold x; clear x)
    | (extract_lets +onlyGivenNames x; clear_value x; revert x; intro y)
    | with_reducible apply keeps_ite
    | split)

theorem keeps_State_flushRound {P : State → Prop} (hP : K0 P) {s} (h_s : P s) :
    P (State.flushRound s) := by
  unfold State.flushRound
  repeat' (first
    | with_reducible assumption
    | with_reducible apply keeps_State_setStore
    | (extract_lets +onlyGivenNames x; clear_value x; revert x; intro y)
    | with_reducible apply keeps_ite)

theorem keeps_State_showClass {P : State → Prop} (hP : K0 P) {s k} (h_s : P s) :
    P (State.showClass s k) := by
  unfold State.showClass
  repeat' (first
    | with_reducible assumption
    | with_reducible apply keeps_State_setReg
    | with_reducible apply keeps_State_setReg64)

theorem keeps_State_showStore {P : State → Prop} (hP : K0 P) {s} (h_s : P s) :
    P (State.showStore s) := by
  unfold State.showStore
  repeat' (first
    | with_reducible assumption
    | with_reducible apply keeps_State_showClass
    | with_reducible apply keeps_State_setReg
    | with_reducible apply keeps_foldl)

theorem keeps_State_format {P : State → Prop} (hP : K0 P) {s} (h_s : P s) :
    P ((State.format s)).1 := by
  unfold State.format
  repeat' (first
    | with_reducible assumption
    | with_reducible apply keeps_State_showStore
    | with_reducible apply keeps_State_setReg64
    | with_reducible apply keeps_State_setReg
    | with_reducible apply keeps_State_set
    | with_reducible apply keeps_State_setStore
    | with_reducible apply keeps_State_freeBytes
    | with_reducible apply keeps_refuse
    | (extract_lets +onlyGivenNames x; (have hx : P x := ?_); clear_value x; revert x; intro y hy; rotate_left; unfold x; clear x)
    | (extract_lets +onlyGivenNames x; (have hx : P x.2 := ?_); clear_value x; revert x; intro y hy; rotate_left; unfold x; clear x)
    | (extract_lets +onlyGivenNames x; clear_value x; revert x; intro y)
    | with_reducible apply keeps_ite1)

theorem keeps_State_tallyCmd {P : State → Prop} (hP : K0 P) {s v} (h_s : P s) :
    P ((State.tallyCmd s v)).1 := by
  unfold State.tallyCmd
  repeat' (first
    | with_reducible assumption
    | with_reducible apply keeps_State_flushRound
    | with_reducible apply keeps_State_format
    | (extract_lets +onlyGivenNames x; (have hx : P x.1 := ?_); clear_value x; revert x; intro y hy; rotate_left; unfold x; clear x)
    | with_reducible apply keeps_ite
    | with_reducible apply keeps_ite1)

theorem keeps_State_tallyRegWrite {P : State → Prop} (hP : Km P) {s off v} (h_s : P s) :
    OptP (fun r => P (r).1) ((State.tallyRegWrite s off v)) := by
  unfold State.tallyRegWrite
  have h0 := hP.toK0
  repeat' (first
    | with_reducible assumption
    | with_reducible apply keeps_State_rdCtl
    | with_reducible apply keeps_State_tallyCmd
    | with_reducible exact OptP.none
    | with_reducible apply OptP.some
    | with_reducible apply optP_ite)

theorem keeps_State_setLag {P : State → Prop} (hP : K0 P) {s} (h_s : P s) :
    P (State.setLag s) := by
  unfold State.setLag
  repeat' (first
    | with_reducible assumption
    | with_reducible apply keeps_State_setReg)

theorem keeps_State_sendReplAck {P : State → Prop} (hP : K0 P) {s src c orig} (h_s : P s) :
    P (State.sendReplAck s src c orig) := by
  unfold State.sendReplAck
  repeat' (first
    | with_reducible assumption
    | with_reducible apply keeps_State_fabBytes)

theorem keeps_State_sendRec {P : State → Prop} (hP : K0 P) {s r} (h_s : P s) :
    P (State.sendRec s r) := by
  unfold State.sendRec
  repeat' (first
    | with_reducible assumption
    | with_reducible apply keeps_State_fabBytes
    | with_reducible apply keeps_foldl
    | with_reducible intro _)

theorem keeps_State_commitRound {P : State → Prop} (hP : K0 P) {s c clean} (h_s : P s) :
    P (State.commitRound s c clean) := by
  unfold State.commitRound
  repeat' (first
    | with_reducible assumption
    | with_reducible apply keeps_State_setLag
    | with_reducible apply keeps_State_showStore
    | with_reducible apply keeps_State_sendReplAck
    | with_reducible apply keeps_State_sendRec
    | with_reducible apply keeps_State_ev
    | with_reducible apply keeps_State_setReg
    | with_reducible apply keeps_State_free
    | with_reducible apply keeps_State_setStore
    | with_reducible apply keeps_foldl
    | with_reducible intro _
    | with_reducible apply keeps_ite)

theorem keeps_State_setCore {P : State → Prop} (hP : K0 P) {s c} (h_s : P s) :
    P (State.setCore s c) := by
  unfold State.setCore
  repeat' (first
    | with_reducible assumption
    | with_reducible apply keeps_State_setStore)

theorem keeps_State_sealSign {P : State → Prop} (hP : K0 P) {s b key} (h_s : P s) :
    P ((State.sealSign s b key)).2 := by
  unfold State.sealSign
  repeat' (first
    | with_reducible assumption
    | with_reducible apply keeps_State_freeBytes
    | (extract_lets +onlyGivenNames x; (have hx : P x.2 := ?_); clear_value x; revert x; intro y hy; rotate_left; unfold x; clear x)
    | split)

theorem keeps_State_sealBody {P : State → Prop} (hP : K0 P) {s} (h_s : P s) :
    P ((State.sealBody s)).2 := by
  unfold State.sealBody
  repeat' (first
    | with_reducible assumption
    | with_reducible apply keeps_State_sealSign)

theorem keeps_State_writeBlock {P : State → Prop} (hP : K0 P) {s i b} (h_s : P s) :
    P (State.writeBlock s i b) := by
  unfold State.writeBlock
  repeat' (first
    | with_reducible assumption
    | with_reducible apply keeps_State_setStore)

theorem keeps_State_ringCheck {P : State → Prop} (hP : K0 P) {s} (h_s : P s) :
    P (State.ringCheck s) := by
  unfold State.ringCheck
  repeat' (first
    | with_reducible assumption
    | with_reducible apply keeps_State_set
    | with_reducible apply keeps_State_ev
    | with_reducible apply keeps_ite)

theorem keeps_State_openBlock {P : State → Prop} (hP : K0 P) {s k} (h_s : P s) :
    OptP (fun r => P r) ((State.openBlock s k)) := by
  unfold State.openBlock
  repeat' (first
    | with_reducible assumption
    | with_reducible apply keeps_State_setCore
    | with_reducible apply keeps_State_writeBlock
    | with_reducible apply keeps_State_ringCheck
    | with_reducible exact OptP.none
    | with_reducible apply OptP.some
    | (extract_lets +onlyGivenNames x; clear_value x; revert x; intro y)
    | split)

theorem keeps_State_append {P : State → Prop} (hP : K0 P) {s k ty flags src ref raw body} (h_s : P s) :
    P ((State.append s k ty flags src ref raw body)).1 := by
  unfold State.append
  repeat' (first
    | with_reducible assumption
    | with_reducible apply keeps_State_showStore
    | with_reducible apply keeps_State_setStore
    | with_reducible apply keeps_State_writeBlock
    | with_reducible apply keeps_State_setCore
    | with_reducible apply keeps_State_set
    | with_reducible apply keeps_State_openBlock
    | with_reducible apply OptP.some
    | (extract_lets +onlyGivenNames x; (have hx : OptP (fun r => P r) x := ?_); clear_value x; revert x; intro y hy; rotate_left; unfold x; clear x)
    | (extract_lets +onlyGivenNames x; clear_value x; revert x; intro y)
    | with_reducible apply optP_ite
    | split
    | (refine opt_some ?_; with_reducible assumption))

theorem keeps_State_appendDev {P : State → Prop} (hP : K0 P) {s k ty gap body} (h_s : P s) :
    P ((State.appendDev s k ty gap body)).1 := by
  unfold State.appendDev
  repeat' (first
    | with_reducible assumption
    | with_reducible apply keeps_State_append)

theorem keeps_State_sealNow {P : State → Prop} (hP : K0 P) {s} (h_s : P s) :
    P (State.sealNow s) := by
  unfold State.sealNow
  repeat' (first
    | with_reducible assumption
    | with_reducible apply keeps_State_inc
    | with_reducible apply keeps_State_setReg
    | with_reducible apply keeps_State_setCore
    | with_reducible apply keeps_State_sealBody
    | with_reducible apply keeps_State_appendDev
    | with_reducible apply keeps_State_set
    | with_reducible intro _
    | with_reducible apply hf0
    | (extract_lets +onlyGivenNames x; (have hx : ∀ a, P a → P (x a) := ?_); clear_value x; revert x; intro y hf0; rotate_left; unfold x; clear x)
    | (extract_lets +onlyGivenNames x; (have hx : P x := ?_); clear_value x; revert x; intro y hy; rotate_left; unfold x; clear x)
    | (extract_lets +onlyGivenNames x; (have hx : P x.1 := ?_); clear_value x; revert x; intro y hy; rotate_left; unfold x; clear x)
    | (extract_lets +onlyGivenNames x; (have hx : P x.2 := ?_); clear_value x; revert x; intro y hy; rotate_left; unfold x; clear x)
    | (extract_lets +onlyGivenNames x; clear_value x; revert x; intro y)
    | with_reducible apply keeps_ite
    | split)

theorem keeps_State_storeClose {P : State → Prop} (hP : K0 P) {s} (h_s : P s) :
    P (State.storeClose s) := by
  unfold State.storeClose
  repeat' (first
    | with_reducible assumption
    | with_reducible apply keeps_State_set
    | with_reducible apply keeps_State_ev
    | with_reducible apply keeps_State_setStoreSt
    | with_reducible apply keeps_State_setStore
    | with_reducible apply keeps_State_commitRound
    | with_reducible apply keeps_State_sealNow
    | (extract_lets +onlyGivenNames x; (have hx : P x := ?_); clear_value x; revert x; intro y hy; rotate_left; unfold x; clear x)
    | (extract_lets +onlyGivenNames x; clear_value x; revert x; intro y)
    | with_reducible apply keeps_ite)

theorem keeps_State_driveFail {P : State → Prop} (hP : K0 P) {s k} (h_s : P s) :
    P (State.driveFail s k) := by
  unfold State.driveFail
  repeat' (first
    | with_reducible assumption
    | with_reducible apply keeps_State_set
    | with_reducible apply keeps_State_err
    | with_reducible apply keeps_State_driveLost
    | (extract_lets +onlyGivenNames x; clear_value x; revert x; intro y)
    | with_reducible apply keeps_ite)

theorem keeps_State_handoverCharge {P : State → Prop} (hP : K0 P) {s} (h_s : P s) :
    P (State.handoverCharge s) := by
  unfold State.handoverCharge
  repeat' (first
    | with_reducible assumption
    | with_reducible apply keeps_State_appendDev
    | with_reducible apply keeps_State_flushRound
    | with_reducible apply keeps_ite)

theorem keeps_State_nsOpCmd {P : State → Prop} (hP : K0 P) {s w k op} (h_s : P s) :
    P (State.nsOpCmd s w k op) := by
  unfold State.nsOpCmd
  repeat' (first
    | with_reducible assumption
    | with_reducible apply keeps_State_nsCmd
    | with_reducible apply keeps_State_actionWrite
    | with_reducible apply keeps_finish
    | with_reducible intro _)

theorem keeps_execNsAttach {P : State → Prop} (hP : K0 P) {w k s} (h_s : P s) :
    OutP P ((execNsAttach w k s)) := by
  unfold execNsAttach
  repeat' (first
    | with_reducible assumption
    | with_reducible apply keeps_State_nsOpCmd
    | with_reducible apply OutP.next)

theorem keeps_execNsDelete {P : State → Prop} (hP : K0 P) {w k s} (h_s : P s) :
    OutP P ((execNsDelete w k s)) := by
  unfold execNsDelete
  repeat' (first
    | with_reducible assumption
    | with_reducible apply keeps_State_nsOpCmd
    | with_reducible apply OutP.next)

theorem keeps_execNsCreate {P : State → Prop} (hP : K0 P) {w k s} (h_s : P s) :
    OutP P ((execNsCreate w k s)) := by
  unfold execNsCreate
  repeat' (first
    | with_reducible assumption
    | with_reducible apply keeps_State_nsOpCmd
    | with_reducible apply OutP.next)

theorem keeps_State_nvmeError {P : State → Prop} (hP : K0 P) {s k} (h_s : P s) :
    P (State.nvmeError s k) := by
  unfold State.nvmeError
  repeat' (first
    | with_reducible assumption
    | with_reducible apply keeps_State_incSat
    | with_reducible apply keeps_State_driveFail)

theorem keeps_execNvmeCompletion {P : State → Prop} (hP : K0 P) {k e s} (h_s : P s) :
    OutP P ((execNvmeCompletion k e s)) := by
  unfold execNvmeCompletion
  repeat' (first
    | with_reducible assumption
    | with_reducible apply keeps_State_ev
    | with_reducible apply keeps_State_setStore
    | with_reducible apply keeps_State_setReg
    | with_reducible apply keeps_State_setB
    | with_reducible apply keeps_State_set
    | with_reducible apply keeps_State_nvmeError
    | with_reducible apply keeps_State_injTake
    | with_reducible apply OutP.next
    | (extract_lets +onlyGivenNames x; (have hx : P x := ?_); clear_value x; revert x; intro y hy; rotate_left; unfold x; clear x)
    | (extract_lets +onlyGivenNames x; (have hx : P x.2 := ?_); clear_value x; revert x; intro y hy; rotate_left; unfold x; clear x)
    | (extract_lets +onlyGivenNames x; clear_value x; revert x; intro y)
    | with_reducible apply keeps_ite
    | with_reducible apply outP_ite
    | split)

theorem keeps_execNvmeCmdTimeout {P : State → Prop} (hP : K0 P) {k s} (h_s : P s) :
    OutP P ((execNvmeCmdTimeout k s)) := by
  unfold execNvmeCmdTimeout
  repeat' (first
    | with_reducible assumption
    | with_reducible apply keeps_State_incSat
    | with_reducible apply keeps_State_driveFail
    | with_reducible apply OutP.next
    | with_reducible apply outP_ite)

theorem keeps_execTallyReplResend {P : State → Prop} (hP : K0 P) {c rseq s} (h_s : P s) :
    OutP P ((execTallyReplResend c rseq s)) := by
  unfold execTallyReplResend
  repeat' (first
    | with_reducible assumption
    | with_reducible apply keeps_State_sendRec
    | with_reducible apply OutP.next
    | split)

theorem keeps_execTallyReplAckRx {P : State → Prop} (hP : K0 P) {src c orig s} (h_s : P s) :
    OutP P ((execTallyReplAckRx src c orig s)) := by
  unfold execTallyReplAckRx
  repeat' (first
    | with_reducible assumption
    | with_reducible apply keeps_State_setStore
    | with_reducible apply keeps_State_setLag
    | with_reducible apply OutP.next
    | (extract_lets +onlyGivenNames x; clear_value x; revert x; intro y)
    | with_reducible apply outP_ite)

theorem keeps_State_appendCopy {P : State → Prop} (hP : K0 P) {s src c orig b} (h_s : P s) :
    P (State.appendCopy s src c orig b) := by
  unfold State.appendCopy
  repeat' (first
    | with_reducible assumption
    | with_reducible apply keeps_State_setStore
    | with_reducible apply keeps_State_append
    | (extract_lets +onlyGivenNames x; (have hx : P x.1 := ?_); clear_value x; revert x; intro y hy; rotate_left; unfold x; clear x)
    | (extract_lets +onlyGivenNames x; clear_value x; revert x; intro y)
    | with_reducible apply keeps_ite
    | split)

theorem keeps_execTallyReplRx {P : State → Prop} (hP : K0 P) {src m s} (h_s : P s) :
    OutP P ((execTallyReplRx src m s)) := by
  unfold execTallyReplRx
  repeat' (first
    | with_reducible assumption
    | with_reducible apply keeps_State_appendCopy
    | with_reducible apply keeps_State_setStore
    | with_reducible apply keeps_State_sendReplAck
    | with_reducible apply OutP.next
    | (extract_lets +onlyGivenNames x; clear_value x; revert x; intro y)
    | with_reducible apply outP_ite
    | split)

theorem keeps_execStoreRead {P : State → Prop} (hP : Km P) {w v s} (h_s : P s) :
    OutP P ((execStoreRead w v s)) := by
  unfold execStoreRead
  have h0 := hP.toK0
  repeat' (first
    | with_reducible assumption
    | with_reducible apply keeps_State_rdCtl
    | with_reducible apply keeps_State_actionWrite
    | with_reducible apply keeps_finish
    | with_reducible apply OutP.next
    | with_reducible intro _)

theorem keeps_execFormat {P : State → Prop} (hP : K0 P) {w s} (h_s : P s) :
    OutP P ((execFormat w s)) := by
  unfold execFormat
  repeat' (first
    | with_reducible assumption
    | with_reducible apply keeps_State_format
    | with_reducible apply keeps_State_actionWrite
    | with_reducible apply keeps_finish
    | with_reducible apply OutP.next)

theorem keeps_execStoreClose {P : State → Prop} (hP : K0 P) {s} (h_s : P s) :
    OutP P ((execStoreClose s)) := by
  unfold execStoreClose
  repeat' (first
    | with_reducible assumption
    | with_reducible apply keeps_State_storeClose
    | with_reducible apply OutP.next
    | with_reducible apply outP_ite)

theorem keeps_execStoreOpenDone {P : State → Prop} (hP : K0 P) {s} (h_s : P s) :
    OutP P ((execStoreOpenDone s)) := by
  unfold execStoreOpenDone
  repeat' (first
    | with_reducible assumption
    | with_reducible apply keeps_State_setStore
    | with_reducible apply keeps_State_appendDev
    | with_reducible apply keeps_State_freeBytes
    | with_reducible apply keeps_State_free
    | with_reducible apply keeps_State_setStoreSt
    | with_reducible apply OutP.next
    | (extract_lets +onlyGivenNames x; (have hx : P x := ?_); clear_value x; revert x; intro y hy; rotate_left; unfold x; clear x)
    | (extract_lets +onlyGivenNames x; (have hx : P x.2 := ?_); clear_value x; revert x; intro y hy; rotate_left; unfold x; clear x)
    | (extract_lets +onlyGivenNames x; clear_value x; revert x; intro y)
    | with_reducible apply outP_ite)

theorem keeps_execStoreOpen {P : State → Prop} (hP : K0 P) {a b s} (h_s : P s) :
    OutP P ((execStoreOpen a b s)) := by
  unfold execStoreOpen
  repeat' (first
    | with_reducible assumption
    | with_reducible apply keeps_State_showStore
    | with_reducible apply keeps_State_setDegraded
    | with_reducible apply keeps_State_setB
    | with_reducible apply keeps_State_setReg64
    | with_reducible apply keeps_State_setReg
    | with_reducible apply keeps_State_writeBlock
    | with_reducible apply keeps_State_setStore
    | with_reducible apply keeps_State_err
    | with_reducible apply keeps_State_setStoreSt
    | with_reducible apply keeps_foldl
    | with_reducible apply OutP.next
    | with_reducible intro _
    | (extract_lets +onlyGivenNames x; (have hx : P x := ?_); clear_value x; revert x; intro y hy; rotate_left; unfold x; clear x)
    | (extract_lets +onlyGivenNames x; clear_value x; revert x; intro y)
    | with_reducible apply keeps_ite
    | with_reducible apply outP_ite
    | split)

theorem keeps_State_postRefused {P : State → Prop} (hP : K0 P) {s code} (h_s : P s) :
    P (State.postRefused s code) := by
  unfold State.postRefused
  repeat' (first
    | with_reducible assumption
    | with_reducible apply keeps_State_incF
    | with_reducible apply keeps_ite)

theorem keeps_State_takePost {P : State → Prop} (hP : Km P) {s z} (h_s : P s) :
    P (State.takePost s z) := by
  unfold State.takePost
  have h0 := hP.toK0
  repeat' (first
    | with_reducible assumption
    | with_reducible apply keeps_State_append
    | with_reducible apply keeps_State_ev
    | with_reducible apply keeps_State_postRefused
    | with_reducible apply keeps_State_setMemBytes
    | with_reducible apply keeps_State_setReg
    | with_reducible intro _
    | with_reducible apply hf9
    | (extract_lets +onlyGivenNames x; (have hx : ∀ a b c, P a → P (x a b c) := ?_); clear_value x; revert x; intro y hf9; rotate_left; unfold x; clear x)
    | (extract_lets +onlyGivenNames x; (have hx : P x := ?_); clear_value x; revert x; intro y hy; rotate_left; unfold x; clear x)
    | (extract_lets +onlyGivenNames x; (have hx : P x.1 := ?_); clear_value x; revert x; intro y hy; rotate_left; unfold x; clear x)
    | (extract_lets +onlyGivenNames x; clear_value x; revert x; intro y)
    | with_reducible apply keeps_ite
    | split)

theorem keeps_takePosts {P : State → Prop} (hP : Km P) {y0 y1 y2 y3} (h_y3 : P y3) :
    P (takePosts y0 y1 y2 y3) := by
  induction y0 generalizing y1 y2 y3
  case' succ n ih => skip
  have h0 := hP.toK0
  all_goals first | unfold takePosts | skip
  all_goals repeat' (first
    | with_reducible assumption
    | with_reducible apply ih
    | with_reducible apply keeps_State_takePost
    | with_reducible apply keeps_ite)

theorem keeps_execSeal {P : State → Prop} (hP : Km P) {zs s} (h_s : P s) :
    OutP P ((execSeal zs s)) := by
  unfold execSeal
  have h0 := hP.toK0
  repeat' (first
    | with_reducible assumption
    | with_reducible apply keeps_State_sealNow
    | with_reducible apply keeps_State_flushRound
    | with_reducible apply keeps_takePosts
    | with_reducible apply keeps_State_set
    | with_reducible apply OutP.next
    | (extract_lets +onlyGivenNames x; (have hx : P x := ?_); clear_value x; revert x; intro y hy; rotate_left; unfold x; clear x)
    | with_reducible apply outP_ite)

theorem keeps_execFlushRoundDone {P : State → Prop} (hP : K0 P) {s} (h_s : P s) :
    OutP P ((execFlushRoundDone s)) := by
  unfold execFlushRoundDone
  repeat' (first
    | with_reducible assumption
    | with_reducible apply keeps_State_flushRound
    | with_reducible apply keeps_State_setStore
    | with_reducible apply keeps_State_commitRound
    | with_reducible apply OutP.next
    | (extract_lets +onlyGivenNames x; (have hx : P x := ?_); clear_value x; revert x; intro y hy; rotate_left; unfold x; clear x)
    | (extract_lets +onlyGivenNames x; clear_value x; revert x; intro y)
    | with_reducible apply keeps_ite
    | with_reducible apply outP_ite
    | split)

theorem keeps_execCmdFlush {P : State → Prop} (hP : K0 P) {w s} (h_s : P s) :
    OutP P ((execCmdFlush w s)) := by
  unfold execCmdFlush
  repeat' (first
    | with_reducible assumption
    | with_reducible apply keeps_State_flushRound
    | with_reducible apply keeps_State_actionWrite
    | with_reducible apply keeps_finish
    | with_reducible apply OutP.next)

theorem keeps_execFlushRound {P : State → Prop} (hP : K0 P) {s} (h_s : P s) :
    OutP P ((execFlushRound s)) := by
  unfold execFlushRound
  repeat' (first
    | with_reducible assumption
    | with_reducible apply keeps_State_flushRound
    | with_reducible apply OutP.next)

theorem keeps_execPostTake {P : State → Prop} (hP : Km P) {z s} (h_s : P s) :
    OutP P ((execPostTake z s)) := by
  unfold execPostTake
  have h0 := hP.toK0
  repeat' (first
    | with_reducible assumption
    | with_reducible apply keeps_State_takePost
    | with_reducible apply keeps_State_appendDev
    | with_reducible apply OutP.next
    | with_reducible apply outP_ite
    | split
    | fail_if_no_progress with_reducible refine h0.upd ?_)

end Sys2Proof.Machine
end

