-- ==== Sys2Proof/Laws/KSupply.lean ====
section
/-! SUPPORT. What the operations of Machine.Supply keep. -/

namespace Sys2Proof.Machine

open Host (Outcome)

theorem keeps_State_restTarget {P : State → Prop} (hP : K0 P) {s t} (h_s : P s) :
    P (State.restTarget s t) := by
  unfold State.restTarget
  repeat' (first
    | with_reducible assumption
    | with_reducible apply keeps_State_wakeCause
    | with_reducible apply keeps_State_set
    | with_reducible apply keeps_State_err
    | (extract_lets +onlyGivenNames x; (have hx : P x := ?_); clear_value x; revert x; intro y hy; rotate_left; unfold x; clear x)
    | with_reducible apply keeps_ite)

theorem keeps_State_restAbort {P : State → Prop} (hP : K0 P) {s} (h_s : P s) :
    P (State.restAbort s) := by
  unfold State.restAbort
  repeat' (first
    | with_reducible assumption
    | with_reducible apply keeps_State_set)

theorem keeps_State_restReq {P : State → Prop} (hP : K0 P) {s v} (h_s : P s) :
    P (State.restReq s v) := by
  unfold State.restReq
  repeat' (first
    | with_reducible assumption
    | with_reducible apply keeps_State_restTarget
    | with_reducible apply keeps_State_restAbort
    | with_reducible apply keeps_ite)

theorem keeps_State_alarm {P : State → Prop} (hP : K0 P) {s} (h_s : P s) :
    P (State.alarm s) := by
  unfold State.alarm
  repeat' (first
    | with_reducible assumption
    | with_reducible apply keeps_State_set
    | with_reducible apply keeps_State_ev
    | with_reducible apply keeps_State_wakeCause)

theorem keeps_execVauxOkChange {P : State → Prop} (hP : K0 P) {vaux s} (h_s : P s) :
    OutP P ((execVauxOkChange vaux s)) := by
  unfold execVauxOkChange
  repeat' (first
    | with_reducible assumption
    | with_reducible apply keeps_State_setSup
    | with_reducible apply keeps_State_setReg
    | with_reducible apply keeps_State_setB
    | with_reducible apply OutP.next)

theorem keeps_State_readVbak {P : State → Prop} (hP : K0 P) {s v} (h_s : P s) :
    P (State.readVbak s v) := by
  unfold State.readVbak
  repeat' (first
    | with_reducible assumption
    | with_reducible apply keeps_State_set
    | with_reducible apply keeps_State_setReg
    | (extract_lets +onlyGivenNames x; (have hx : P x := ?_); clear_value x; revert x; intro y hy; rotate_left; unfold x; clear x)
    | with_reducible apply keeps_ite)

theorem keeps_execBakLow {P : State → Prop} (hP : K0 P) {vbak s} (h_s : P s) :
    OutP P ((execBakLow vbak s)) := by
  unfold execBakLow
  repeat' (first
    | with_reducible assumption
    | with_reducible apply keeps_State_set
    | with_reducible apply keeps_State_ev
    | with_reducible apply keeps_State_readVbak
    | with_reducible apply OutP.next
    | (extract_lets +onlyGivenNames x; (have hx : P x := ?_); clear_value x; revert x; intro y hy; rotate_left; unfold x; clear x)
    | with_reducible apply outP_ite)

theorem keeps_execAonAlarm {P : State → Prop} (hP : K0 P) {s} (h_s : P s) :
    OutP P ((execAonAlarm s)) := by
  unfold execAonAlarm
  repeat' (first
    | with_reducible assumption
    | with_reducible apply keeps_State_setReg64
    | with_reducible apply keeps_State_alarm
    | with_reducible apply OutP.next
    | with_reducible apply keeps_ite)

theorem keeps_execDomainLingerExpire {P : State → Prop} (hP : K0 P) {i s} (h_s : P s) :
    OutP P ((execDomainLingerExpire i s)) := by
  unfold execDomainLingerExpire
  repeat' (first
    | with_reducible assumption
    | with_reducible apply keeps_State_agentHandover
    | with_reducible apply keeps_State_domRest
    | with_reducible apply OutP.next
    | with_reducible apply keeps_ite)

theorem keeps_execWakeCause {P : State → Prop} (hP : K0 P) {c s} (h_s : P s) :
    OutP P ((execWakeCause c s)) := by
  unfold execWakeCause
  repeat' (first
    | with_reducible assumption
    | with_reducible apply keeps_State_wakeCause
    | with_reducible apply OutP.next
    | with_reducible apply keeps_ite)

theorem keeps_State_enterState {P : State → Prop} (hP : K0 P) {s v} (h_s : P s) :
    P (State.enterState s v) := by
  unfold State.enterState
  repeat' (first
    | with_reducible assumption
    | with_reducible apply keeps_State_set
    | with_reducible apply keeps_State_ev
    | with_reducible apply keeps_State_incF
    | (extract_lets +onlyGivenNames x; (have hx : P x := ?_); clear_value x; revert x; intro y hy; rotate_left; unfold x; clear x)
    | with_reducible apply keeps_ite)

theorem keeps_State_slotOff {P : State → Prop} (hP : K0 P) {s i} (h_s : P s) :
    P (State.slotOff s i) := by
  unfold State.slotOff
  repeat' (first
    | with_reducible assumption
    | with_reducible apply keeps_State_send
    | with_reducible apply keeps_State_set
    | with_reducible apply keeps_ite)

theorem keeps_State_slotsOff {P : State → Prop} (hP : K0 P) {s l} (h_s : P s) :
    P (State.slotsOff s l) := by
  unfold State.slotsOff
  repeat' (first
    | with_reducible assumption
    | with_reducible apply keeps_State_slotOff
    | with_reducible apply keeps_foldl)

theorem keeps_State_deepState {P : State → Prop} (hP : K0 P) {s} (h_s : P s) :
    P (State.deepState s) := by
  unfold State.deepState
  repeat' (first
    | with_reducible assumption
    | with_reducible apply keeps_State_setProc
    | with_reducible apply keeps_State_set
    | with_reducible apply keeps_State_driveOuts
    | with_reducible apply keeps_State_ev
    | with_reducible apply keeps_State_setReg
    | with_reducible apply keeps_State_slotsOff
    | with_reducible apply keeps_State_setDom
    | with_reducible apply keeps_State_reckStopped
    | with_reducible apply keeps_State_stopGen
    | with_reducible apply keeps_State_applyStopped
    | with_reducible apply keeps_State_resetFd
    | with_reducible apply keeps_State_linkDown
    | with_reducible apply keeps_State_closeAll
    | with_reducible apply keeps_foldl
    | with_reducible intro _
    | with_reducible apply keeps_ite)

theorem keeps_State_enter {P : State → Prop} (hP : K0 P) {s v stop go} (h_s : P s) (h_go : ∀ (x0 : Sys2Proof.Machine.State), P x0 → P (go x0)) :
    P (State.enter s v stop go) := by
  unfold State.enter
  repeat' (first
    | with_reducible assumption
    | with_reducible apply h_go
    | with_reducible apply keeps_State_set
    | with_reducible apply keeps_State_setRest
    | with_reducible apply keeps_State_wakeCause
    | (extract_lets +onlyGivenNames x; (have hx : P x := ?_); clear_value x; revert x; intro y hy; rotate_left; unfold x; clear x)
    | (extract_lets +onlyGivenNames x; clear_value x; revert x; intro y)
    | with_reducible apply keeps_ite
    | split)

theorem keeps_execEnterDeep {P : State → Prop} (hP : K0 P) {stop s} (h_s : P s) :
    OutP P ((execEnterDeep stop s)) := by
  unfold execEnterDeep
  repeat' (first
    | with_reducible assumption
    | with_reducible apply keeps_State_enterState
    | with_reducible apply keeps_State_deepState
    | with_reducible apply keeps_State_enter
    | with_reducible apply OutP.next
    | with_reducible intro _
    | with_reducible apply keeps_ite)

theorem keeps_State_busesRest {P : State → Prop} (hP : K0 P) {s} (h_s : P s) :
    P (State.busesRest s) := by
  unfold State.busesRest
  repeat' (first
    | with_reducible assumption
    | with_reducible apply keeps_State_mbusRest
    | with_reducible apply keeps_foldl)

theorem keeps_State_restSteps {P : State → Prop} (hP : K0 P) {s} (h_s : P s) :
    P (State.restSteps s) := by
  unfold State.restSteps
  extract_lets s1 s2 s3 s4 s5 s6 c7 s7 s8 s9 s10 s11
  have h1 : P s1 := keeps_ite h_s (keeps_State_storeClose hP h_s)
  clear_value s1
  have h2 : P s2 := keeps_foldl h1 (fun s x h => keeps_State_reckRest hP h)
  clear_value s2
  have h3 : P s3 := keeps_State_applyStopped hP (keeps_foldl h2 (fun s x h => keeps_State_stopGen hP h))
  clear_value s3
  have h4 : P s4 := keeps_foldl h3 (fun s x h => keeps_State_dieLinksOff hP h)
  clear_value s4
  have h5 : P s5 := keeps_State_busesRest hP h4
  clear_value s5
  have h6 : P s6 := keeps_State_enterState hP h5
  clear_value s6
  have h7 : P s7 := keeps_State_setCea hP h6
  clear_value s7
  have h8 : P s8 := keeps_foldl h7 (fun s x h => keeps_ite h (keeps_State_domRest hP h))
  clear_value s8
  have h9 : P s9 := keeps_ite h8 (keeps_State_domRest hP (keeps_State_agentHandover hP h8))
  clear_value s9
  have h10 : P s10 := keeps_ite h9 (keeps_State_domRest hP h9)
  clear_value s10
  exact keeps_State_clk hP (keeps_State_clk hP (keeps_State_slotsOff hP h10))

theorem keeps_execEnterQuiet {P : State → Prop} (hP : K0 P) {stop s} (h_s : P s) :
    OutP P ((execEnterQuiet stop s)) := by
  unfold execEnterQuiet
  repeat' (first
    | with_reducible assumption
    | with_reducible apply keeps_State_enterState
    | with_reducible apply keeps_State_enter
    | with_reducible apply OutP.next
    | with_reducible intro _
    | with_reducible apply keeps_ite)

theorem keeps_execRequestTimeout {P : State → Prop} (hP : K0 P) {s} (h_s : P s) :
    OutP P ((execRequestTimeout s)) := by
  unfold execRequestTimeout
  repeat' (first
    | with_reducible assumption
    | with_reducible apply keeps_State_set
    | with_reducible apply keeps_State_err
    | with_reducible apply OutP.next
    | with_reducible apply keeps_ite)

theorem keeps_execRestAbort {P : State → Prop} (hP : K0 P) {w s} (h_s : P s) :
    OutP P ((execRestAbort w s)) := by
  unfold execRestAbort
  repeat' (first
    | with_reducible assumption
    | with_reducible apply keeps_State_restAbort
    | with_reducible apply keeps_State_actionWrite
    | with_reducible apply keeps_finish
    | with_reducible apply OutP.next)

theorem keeps_execRestRequest {P : State → Prop} (hP : K0 P) {w t s} (h_s : P s) :
    OutP P ((execRestRequest w t s)) := by
  unfold execRestRequest
  repeat' (first
    | with_reducible assumption
    | with_reducible apply keeps_State_restTarget
    | with_reducible apply keeps_State_actionWrite
    | with_reducible apply keeps_finish
    | with_reducible apply OutP.next
    | with_reducible intro _)

theorem keeps_execDegradedStart {P : State → Prop} (hP : K0 P) {s} (h_s : P s) :
    OutP P ((execDegradedStart s)) := by
  unfold execDegradedStart
  repeat' (first
    | with_reducible assumption
    | with_reducible apply keeps_State_applySgr
    | with_reducible apply keeps_State_driveOuts
    | with_reducible apply keeps_State_ev
    | with_reducible apply keeps_State_clk
    | with_reducible apply keeps_State_set
    | with_reducible apply keeps_State_incF
    | with_reducible apply keeps_foldl
    | with_reducible apply OutP.next
    | with_reducible intro _
    | (extract_lets +onlyGivenNames x; (have hx : P x := ?_); clear_value x; revert x; intro y hy; rotate_left; unfold x; clear x)
    | with_reducible apply outP_ite)

theorem keeps_State_pllLost {P : State → Prop} (hP : K1 P) {s i} (h_s : P s) :
    P (State.pllLost s i) := by
  unfold State.pllLost
  have hm := hP.toKm
  have h0 := hm.toK0
  repeat' (first
    | with_reducible assumption
    | with_reducible apply keeps_State_degradeEnd
    | with_reducible apply keeps_State_resetDoms
    | with_reducible apply keeps_State_err
    | with_reducible apply keeps_State_clk
    | with_reducible apply keeps_State_incF)

theorem keeps_execPllUnlock {P : State → Prop} (hP : K1 P) {i s} (h_s : P s) :
    OutP P ((execPllUnlock i s)) := by
  unfold execPllUnlock
  have hm := hP.toKm
  have h0 := hm.toK0
  repeat' (first
    | with_reducible assumption
    | with_reducible apply keeps_State_pllLost
    | with_reducible apply OutP.next
    | with_reducible apply keeps_ite)

theorem keeps_State_serdesDown {P : State → Prop} (hP : K0 P) {s} (h_s : P s) :
    P (State.serdesDown s) := by
  unfold State.serdesDown
  repeat' (first
    | with_reducible assumption
    | with_reducible apply keeps_State_driveFail
    | with_reducible apply keeps_State_set
    | with_reducible apply keeps_State_ev
    | with_reducible apply keeps_State_linkDown
    | with_reducible apply keeps_foldl
    | with_reducible intro _
    | (extract_lets +onlyGivenNames x; clear_value x; revert x; intro y)
    | with_reducible apply keeps_ite)

theorem keeps_execCrystalFail {P : State → Prop} (hP : K1 P) {x s} (h_s : P s) :
    OutP P ((execCrystalFail x s)) := by
  unfold execCrystalFail
  have hm := hP.toKm
  have h0 := hm.toK0
  repeat' (first
    | with_reducible assumption
    | with_reducible apply keeps_State_serdesDown
    | with_reducible apply keeps_State_pllLost
    | with_reducible apply keeps_State_err
    | with_reducible apply keeps_State_clk
    | with_reducible apply keeps_State_incF
    | with_reducible apply OutP.next
    | (extract_lets +onlyGivenNames x; (have hx : P x := ?_); clear_value x; revert x; intro y hy; rotate_left; unfold x; clear x)
    | (extract_lets +onlyGivenNames x; clear_value x; revert x; intro y)
    | with_reducible apply keeps_ite
    | with_reducible apply outP_ite)

theorem keeps_execCrystalReady {P : State → Prop} (hP : K0 P) {x s} (h_s : P s) :
    OutP P ((execCrystalReady x s)) := by
  unfold execCrystalReady
  repeat' (first
    | with_reducible assumption
    | with_reducible apply keeps_State_clk
    | with_reducible apply keeps_State_pllLock
    | with_reducible apply OutP.next
    | with_reducible apply keeps_ite)

theorem keeps_execBackupTallyTick {P : State → Prop} (hP : K0 P) {s} (h_s : P s) :
    OutP P ((execBackupTallyTick s)) := by
  unfold execBackupTallyTick
  repeat' (first
    | with_reducible assumption
    | with_reducible apply keeps_State_incSat
    | with_reducible apply keeps_State_setReg64
    | with_reducible apply keeps_State_setSup
    | with_reducible apply OutP.next
    | (extract_lets +onlyGivenNames x; (have hx : P x := ?_); clear_value x; revert x; intro y hy; rotate_left; unfold x; clear x)
    | (extract_lets +onlyGivenNames x; clear_value x; revert x; intro y)
    | with_reducible apply outP_ite)

theorem keeps_execVbakLowDeep {P : State → Prop} (hP : K0 P) {vbak s} (h_s : P s) :
    OutP P ((execVbakLowDeep vbak s)) := by
  unfold execVbakLowDeep
  repeat' (first
    | with_reducible assumption
    | with_reducible apply keeps_State_busesRest
    | with_reducible apply keeps_State_deepState
    | with_reducible apply keeps_State_incF
    | with_reducible apply keeps_State_readVbak
    | with_reducible apply keeps_State_set
    | with_reducible apply OutP.next
    | (extract_lets +onlyGivenNames x; (have hx : P x := ?_); clear_value x; revert x; intro y hy; rotate_left; unfold x; clear x)
    | with_reducible apply outP_ite)

theorem keeps_execReturnDone {P : State → Prop} (hP : K0 P) {s} (h_s : P s) :
    OutP P ((execReturnDone s)) := by
  unfold execReturnDone
  repeat' (first
    | with_reducible assumption
    | with_reducible apply keeps_State_send
    | with_reducible apply keeps_State_set
    | with_reducible apply keeps_State_setSup
    | with_reducible apply OutP.next
    | (extract_lets +onlyGivenNames x; clear_value x; revert x; intro y)
    | with_reducible apply keeps_ite)

theorem keeps_execReturnDecision {P : State → Prop} (hP : K0 P) {s} (h_s : P s) :
    OutP P ((execReturnDecision s)) := by
  unfold execReturnDecision
  repeat' (first
    | with_reducible assumption
    | with_reducible apply keeps_State_ev
    | with_reducible apply keeps_State_wakeCause
    | with_reducible apply keeps_State_send
    | with_reducible apply keeps_State_set
    | with_reducible apply OutP.next
    | (extract_lets +onlyGivenNames x; (have hx : P x := ?_); clear_value x; revert x; intro y hy; rotate_left; unfold x; clear x)
    | with_reducible apply outP_ite)

theorem keeps_execHandoverDone {P : State → Prop} (hP : K0 P) {s} (h_s : P s) :
    OutP P ((execHandoverDone s)) := by
  unfold execHandoverDone
  repeat' (first
    | with_reducible assumption
    | with_reducible apply keeps_State_set
    | with_reducible apply keeps_State_setSup
    | with_reducible apply OutP.next
    | (extract_lets +onlyGivenNames x; clear_value x; revert x; intro y)
    | with_reducible apply keeps_ite)

theorem keeps_execHandoverDecision {P : State → Prop} (hP : K0 P) {vaux vbak s} (h_s : P s) :
    OutP P ((execHandoverDecision vaux vbak s)) := by
  unfold execHandoverDecision
  repeat' (first
    | with_reducible assumption
    | with_reducible apply keeps_State_wakeCause
    | with_reducible apply keeps_State_handoverCharge
    | with_reducible apply keeps_State_incSat
    | with_reducible apply keeps_State_ev
    | with_reducible apply keeps_State_send
    | with_reducible apply keeps_State_err
    | with_reducible apply keeps_State_setReg
    | with_reducible apply keeps_State_set
    | with_reducible apply keeps_State_readVbak
    | with_reducible apply OutP.next
    | (extract_lets +onlyGivenNames x; (have hx : P x := ?_); clear_value x; revert x; intro y hy; rotate_left; unfold x; clear x)
    | with_reducible apply keeps_ite
    | with_reducible apply outP_ite)

theorem keeps_State_pmbFail {P : State → Prop} (hP : K0 P) {s i pec} (h_s : P s) :
    P (State.pmbFail s i pec) := by
  unfold State.pmbFail
  repeat' (first
    | with_reducible assumption
    | with_reducible apply keeps_State_err
    | with_reducible apply keeps_State_set
    | with_reducible apply keeps_State_incF)

theorem keeps_State_pmb {P : State → Prop} (hP : K0 P) {s i code data} (h_s : P s) :
    P (State.pmb s i code data) := by
  unfold State.pmb
  repeat' (first
    | with_reducible assumption
    | with_reducible apply keeps_State_send
    | with_reducible apply keeps_ite)

theorem keeps_State_pmbStatus {P : State → Prop} (hP : K0 P) {s i r} (h_s : P s) :
    P (State.pmbStatus s i r) := by
  unfold State.pmbStatus
  repeat' (first
    | with_reducible assumption
    | with_reducible apply keeps_State_pmbFail
    | with_reducible apply keeps_State_set
    | with_reducible apply keeps_State_pmb
    | (extract_lets +onlyGivenNames x; (have hx : P x := ?_); clear_value x; revert x; intro y hy; rotate_left; unfold x; clear x)
    | split)

theorem keeps_execPmbAlert {P : State → Prop} (hP : K0 P) {r s} (h_s : P s) :
    OutP P ((execPmbAlert r s)) := by
  unfold execPmbAlert
  repeat' (first
    | with_reducible assumption
    | with_reducible apply keeps_State_pmbStatus
    | with_reducible apply keeps_State_pmb
    | with_reducible apply keeps_foldl
    | with_reducible apply OutP.next
    | with_reducible intro _
    | with_reducible apply keeps_ite)

theorem keeps_State_pmbIin {P : State → Prop} (hP : K0 P) {s i r} (h_s : P s) :
    P (State.pmbIin s i r) := by
  unfold State.pmbIin
  repeat' (first
    | with_reducible assumption
    | with_reducible apply keeps_State_pmbFail
    | with_reducible apply keeps_State_setReg
    | with_reducible apply keeps_State_pmb
    | (extract_lets +onlyGivenNames x; (have hx : P x := ?_); clear_value x; revert x; intro y hy; rotate_left; unfold x; clear x)
    | split)

theorem keeps_execPmbusPoll {P : State → Prop} (hP : K0 P) {r s} (h_s : P s) :
    OutP P ((execPmbusPoll r s)) := by
  unfold execPmbusPoll
  repeat' (first
    | with_reducible assumption
    | with_reducible apply keeps_State_pmbStatus
    | with_reducible apply keeps_State_pmbIin
    | with_reducible apply keeps_foldl
    | with_reducible apply OutP.next
    | with_reducible intro _
    | with_reducible apply keeps_ite)

theorem keeps_State_slotOn {P : State → Prop} (hP : K0 P) {s i} (h_s : P s) :
    P (State.slotOn s i) := by
  unfold State.slotOn
  repeat' (first
    | with_reducible assumption
    | with_reducible apply keeps_State_send
    | with_reducible apply keeps_State_set
    | with_reducible apply keeps_State_pmb)

theorem keeps_State_setSeq {P : State → Prop} (hP : K0 P) {s q} (h_s : P s) :
    P (State.setSeq s q) := by
  unfold State.setSeq
  repeat' (first
    | with_reducible assumption
    | with_reducible apply keeps_State_setSup)

theorem keeps_State_seqBegin {P : State → Prop} (hP : K0 P) {s l tries alone} (h_s : P s) :
    P (State.seqBegin s l tries alone) := by
  unfold State.seqBegin
  repeat' (first
    | with_reducible assumption
    | with_reducible apply keeps_State_slotOn
    | with_reducible apply keeps_State_setSeq
    | split)

theorem keeps_State_supplyLoss {P : State → Prop} (hP : K1 P) {s i} (h_s : P s) :
    P (State.supplyLoss s i) := by
  unfold State.supplyLoss
  have hm := hP.toKm
  have h0 := hm.toK0
  repeat' (first
    | with_reducible assumption
    | with_reducible apply keeps_State_seqBegin
    | with_reducible apply keeps_State_slotOff
    | with_reducible apply keeps_State_err
    | with_reducible apply keeps_State_ev
    | with_reducible apply keeps_State_setSup
    | with_reducible apply keeps_State_setDom
    | with_reducible apply keeps_State_resetDoms
    | with_reducible apply keeps_foldl
    | with_reducible intro _
    | (extract_lets +onlyGivenNames x; (have hx : P x := ?_); clear_value x; revert x; intro y hy; rotate_left; unfold x; clear x)
    | (extract_lets +onlyGivenNames x; clear_value x; revert x; intro y)
    | with_reducible apply keeps_ite)

theorem keeps_execSupplyLoss {P : State → Prop} (hP : K1 P) {i s} (h_s : P s) :
    OutP P ((execSupplyLoss i s)) := by
  unfold execSupplyLoss
  have hm := hP.toKm
  have h0 := hm.toK0
  repeat' (first
    | with_reducible assumption
    | with_reducible apply keeps_State_supplyLoss
    | with_reducible apply OutP.next
    | with_reducible apply keeps_ite)

theorem keeps_State_wakeFail {P : State → Prop} (hP : K0 P) {s} (h_s : P s) :
    P (State.wakeFail s) := by
  unfold State.wakeFail
  repeat' (first
    | with_reducible assumption
    | with_reducible apply keeps_State_send
    | with_reducible apply keeps_State_set
    | with_reducible apply keeps_State_incF
    | with_reducible apply keeps_State_setSup
    | with_reducible apply keeps_State_busesRest
    | with_reducible apply keeps_State_deepState)

theorem keeps_State_seqNext {P : State → Prop} (hP : K0 P) {s} (h_s : P s) :
    P (State.seqNext s) := by
  unfold State.seqNext
  repeat' (first
    | with_reducible assumption
    | with_reducible apply keeps_State_setSup
    | with_reducible apply keeps_State_seqBegin
    | with_reducible apply keeps_State_setSeq
    | (extract_lets +onlyGivenNames x; clear_value x; revert x; intro y)
    | split)

theorem keeps_execSequenceRetry {P : State → Prop} (hP : K0 P) {s} (h_s : P s) :
    OutP P ((execSequenceRetry s)) := by
  unfold execSequenceRetry
  repeat' (first
    | with_reducible assumption
    | with_reducible apply keeps_State_wakeFail
    | with_reducible apply keeps_State_seqNext
    | with_reducible apply keeps_State_seqBegin
    | with_reducible apply OutP.next
    | with_reducible apply outP_ite
    | split)

theorem keeps_execPgTimeout {P : State → Prop} (hP : K0 P) {i s} (h_s : P s) :
    OutP P ((execPgTimeout i s)) := by
  unfold execPgTimeout
  repeat' (first
    | with_reducible assumption
    | with_reducible apply keeps_State_setSeq
    | with_reducible apply keeps_State_pmb
    | with_reducible apply keeps_State_slotsOff
    | with_reducible apply keeps_foldl
    | with_reducible apply OutP.next
    | with_reducible intro _
    | (extract_lets +onlyGivenNames x; (have hx : P x := ?_); clear_value x; revert x; intro y hy; rotate_left; unfold x; clear x)
    | with_reducible apply outP_ite
    | split)

theorem keeps_State_seqDone {P : State → Prop} (hP : K0 P) {s q} (h_s : P s) :
    P (State.seqDone s q) := by
  unfold State.seqDone
  repeat' (first
    | with_reducible assumption
    | with_reducible apply keeps_State_seqNext
    | with_reducible apply keeps_State_set
    | with_reducible apply keeps_State_send
    | with_reducible apply keeps_State_setDom
    | with_reducible apply keeps_State_setSup
    | with_reducible apply keeps_foldl
    | with_reducible intro _
    | with_reducible apply keeps_ite)

theorem keeps_execPgRise {P : State → Prop} (hP : K0 P) {i s} (h_s : P s) :
    OutP P ((execPgRise i s)) := by
  unfold execPgRise
  repeat' (first
    | with_reducible assumption
    | with_reducible apply keeps_State_seqDone
    | with_reducible apply keeps_State_setSeq
    | with_reducible apply keeps_State_slotOn
    | with_reducible apply keeps_State_set
    | with_reducible apply OutP.next
    | (extract_lets +onlyGivenNames x; (have hx : P x := ?_); clear_value x; revert x; intro y hy; rotate_left; unfold x; clear x)
    | with_reducible apply outP_ite
    | split)

theorem keeps_State_readRevs {P : State → Prop} (hP : K0 P) {s l revs} (h_s : P s) :
    P (State.readRevs s l revs) := by
  unfold State.readRevs
  repeat' (first
    | with_reducible assumption
    | with_reducible apply keeps_State_err
    | with_reducible apply keeps_State_set
    | with_reducible apply keeps_State_pmb
    | with_reducible apply keeps_State_setSup
    | with_reducible apply keeps_foldl
    | with_reducible intro _
    | (extract_lets +onlyGivenNames x; (have hx : P x := ?_); clear_value x; revert x; intro y hy; rotate_left; unfold x; clear x)
    | (extract_lets +onlyGivenNames x; clear_value x; revert x; intro y)
    | with_reducible apply keeps_ite)

theorem keeps_execPowerUpSequence {P : State → Prop} (hP : K0 P) {revs s} (h_s : P s) :
    OutP P ((execPowerUpSequence revs s)) := by
  unfold execPowerUpSequence
  repeat' (first
    | with_reducible assumption
    | with_reducible apply keeps_State_readRevs
    | with_reducible apply keeps_State_clk
    | with_reducible apply keeps_State_seqBegin
    | with_reducible apply OutP.next
    | (extract_lets +onlyGivenNames x; clear_value x; revert x; intro y)
    | with_reducible apply keeps_ite)

theorem keeps_State_pmbVout {P : State → Prop} (hP : K0 P) {s i r} (h_s : P s) :
    P (State.pmbVout s i r) := by
  unfold State.pmbVout
  repeat' (first
    | with_reducible assumption
    | with_reducible apply keeps_State_pmbFail
    | with_reducible apply keeps_State_set
    | with_reducible apply keeps_State_pmb
    | (extract_lets +onlyGivenNames x; (have hx : P x := ?_); clear_value x; revert x; intro y hy; rotate_left; unfold x; clear x)
    | split)

theorem keeps_State_monSample {P : State → Prop} (hP : K1 P) {s m v} (h_s : P s) :
    P (State.monSample s m v) := by
  unfold State.monSample
  have hm := hP.toKm
  have h0 := hm.toK0
  repeat' (first
    | with_reducible assumption
    | with_reducible apply keeps_State_supplyLoss
    | with_reducible apply keeps_State_setBit
    | with_reducible apply keeps_State_err
    | with_reducible apply keeps_State_ev
    | with_reducible apply keeps_State_setSup
    | with_reducible apply keeps_State_setReg
    | with_reducible apply keeps_foldl
    | with_reducible intro _
    | (extract_lets +onlyGivenNames x; (have hx : P x := ?_); clear_value x; revert x; intro y hy; rotate_left; unfold x; clear x)
    | (extract_lets +onlyGivenNames x; clear_value x; revert x; intro y)
    | with_reducible apply keeps_ite
    | split)

theorem keeps_execHousekeepingRound {P : State → Prop} (hP : K1 P) {r s} (h_s : P s) :
    OutP P ((execHousekeepingRound r s)) := by
  unfold execHousekeepingRound
  have hm := hP.toKm
  have h0 := hm.toK0
  repeat' (first
    | with_reducible assumption
    | with_reducible apply keeps_State_pmbVout
    | with_reducible apply keeps_State_monSample
    | with_reducible apply keeps_State_setReg
    | with_reducible apply keeps_State_thermRound
    | with_reducible apply keeps_foldl
    | with_reducible apply OutP.next
    | with_reducible intro _
    | with_reducible apply keeps_ite)

end Sys2Proof.Machine
end

