-- ==== Sys2Proof/Laws/KViews.lean ====
section
/-! SUPPORT. What the operations of Machine.Views keep. -/

namespace Sys2Proof.Machine

open Host (Outcome)

theorem keeps_State_latchHigh {P : State → Prop} (hP : K0 P) {s p low n} (h_s : P s) :
    P (State.latchHigh s p low n) := by
  unfold State.latchHigh
  repeat' (first
    | with_reducible assumption
    | with_reducible apply keeps_foldl
    | with_reducible intro _
    | fail_if_no_progress with_reducible refine hP.upd ?_)

theorem keeps_State_readReg {P : State → Prop} (hP : K0 P) {s p off} (h_s : P s) :
    P ((State.readReg s p off)).1 := by
  unfold State.readReg
  repeat' (first
    | with_reducible assumption
    | with_reducible apply keeps_State_modStatRead
    | with_reducible apply keeps_State_reckRegRead
    | with_reducible apply keeps_State_readNowNs
    | with_reducible apply keeps_ite1
    | split
    | dsimp -zeta only
    | (refine opt1 (by with_reducible assumption) ?_))

theorem keeps_State_readWord {P : State → Prop} (hP : K0 P) {s p off} (h_s : P s) :
    P ((State.readWord s p off)).1 := by
  unfold State.readWord
  repeat' (first
    | with_reducible assumption
    | with_reducible apply keeps_State_latchHigh
    | with_reducible apply keeps_State_readReg
    | with_reducible apply keeps_ite1
    | split)

end Sys2Proof.Machine
end

