-- ==== Sys2Proof/Laws/KAccess.lean ====
section
/-! SUPPORT. What the operations of Machine.Access keep. -/

namespace Sys2Proof.Machine

open Host (Outcome)

theorem keeps_State_commitHook {P : State → Prop} (hP : K0 P) {s0 s p} (h_s0 : P s0) (h_s : P s) :
    P (State.commitHook s0 s p) := by
  unfold State.commitHook
  repeat' (first
    | with_reducible assumption
    | with_reducible apply keeps_State_fabConfig
    | with_reducible apply keeps_State_eisTrack
    | with_reducible apply keeps_State_placeRun
    | with_reducible apply keeps_State_beadStart
    | with_reducible apply keeps_State_homeRoles
    | with_reducible apply keeps_State_bistApplied
    | with_reducible apply keeps_State_gateApplied
    | with_reducible apply keeps_State_thermApply
    | with_reducible apply keeps_State_mbusApplied
    | with_reducible apply keeps_State_tdigApplied
    | with_reducible apply keeps_State_fdcApplied
    | with_reducible apply keeps_State_acqApplied
    | with_reducible apply keeps_State_loopApplied
    | with_reducible apply keeps_State_glkApplied
    | with_reducible apply keeps_State_protApplied
    | with_reducible apply keeps_State_rodApplied
    | with_reducible apply keeps_State_frameApplied
    | (extract_lets +onlyGivenNames x; clear_value x; revert x; intro y)
    | split)

theorem keeps_State_commitApply {P : State → Prop} (hP : K0 P) {s p} (h_s : P s) :
    P (State.commitApply s p) := by
  unfold State.commitApply
  repeat' (first
    | with_reducible assumption
    | with_reducible apply keeps_State_applyCommit
    | with_reducible apply keeps_State_commitHook
    | with_reducible apply keeps_State_beamSetApply
    | with_reducible apply keeps_ite)

theorem keeps_State_commitReq {P : State → Prop} (hP : K0 P) {s w p v} (h_s : P s) :
    P ((State.commitReq s w p v)).1 := by
  unfold State.commitReq
  repeat' (first
    | with_reducible assumption
    | with_reducible apply keeps_refuseAll
    | with_reducible apply keeps_State_applyStopped
    | with_reducible apply keeps_State_commitApply
    | with_reducible apply keeps_State_setPg
    | with_reducible apply keeps_refuse
    | (extract_lets +onlyGivenNames x; (have hx : P x := ?_); clear_value x; revert x; intro y hy; rotate_left; unfold x; clear x)
    | (extract_lets +onlyGivenNames x; clear_value x; revert x; intro y)
    | with_reducible apply keeps_ite
    | with_reducible apply keeps_ite1
    | split)

theorem keeps_State_enHook {P : State → Prop} (hP : K0 P) {s p en} (h_s : P s) :
    P (State.enHook s p en) := by
  unfold State.enHook
  extract_lets i s1
  have h1 : P s1 := by
    unfold s1
    cases pageType p with
    | none => exact h_s
    | some t =>
      cases t <;> cases en <;> dsimp only <;> repeat' (first
        | with_reducible assumption
        | with_reducible apply keeps_State_descentCause
        | with_reducible apply keeps_State_beadStart
        | with_reducible apply keeps_State_beadsDisable
        | with_reducible apply keeps_State_ceaEnable
        | with_reducible apply keeps_State_ceaDisable
        | with_reducible apply keeps_State_eisDisable
        | with_reducible apply keeps_State_loopEnable
        | with_reducible apply keeps_State_loopDisable
        | with_reducible apply keeps_State_mbusStart
        | with_reducible apply keeps_State_mbusDisable
        | with_reducible apply keeps_State_stepEnable
        | with_reducible apply keeps_State_stepDisable
        | with_reducible apply keeps_State_tallyEnable
        | with_reducible apply keeps_State_tallyDisable
        | with_reducible apply keeps_State_nvmeEnable
        | with_reducible apply keeps_State_nvmeDisable
        | with_reducible apply keeps_State_linkStart
        | with_reducible apply keeps_State_linkDown
        | with_reducible apply keeps_State_closeAll
        | with_reducible apply keeps_State_injOff
        | with_reducible apply keeps_State_reckDisable)
  exact keeps_ite h1 (keeps_State_setB hP h1)

theorem keeps_State_enWrite {P : State → Prop} (hP : K0 P) {s p en} (h_s : P s) :
    P ((State.enWrite s p en)).1 := by
  unfold State.enWrite
  repeat' (first
    | with_reducible assumption
    | with_reducible apply keeps_State_enHook
    | with_reducible apply keeps_State_setB
    | with_reducible apply keeps_State_set
    | with_reducible apply keeps_State_reckEnable
    | with_reducible apply keeps_refuse
    | (extract_lets +onlyGivenNames x; (have hx : P x := ?_); clear_value x; revert x; intro y hy; rotate_left; unfold x; clear x)
    | (extract_lets +onlyGivenNames x; (have hx : P x.1 := ?_); clear_value x; revert x; intro y hy; rotate_left; unfold x; clear x)
    | (extract_lets +onlyGivenNames x; clear_value x; revert x; intro y)
    | with_reducible apply keeps_ite1)

theorem keeps_State_pwrReq {P : State → Prop} (hP : K0 P) {s p} (h_s : P s) :
    P (State.pwrReq s p) := by
  unfold State.pwrReq
  repeat' (first
    | with_reducible assumption
    | with_reducible apply keeps_State_setDom
    | with_reducible apply keeps_State_wakeDom
    | (extract_lets +onlyGivenNames x; clear_value x; revert x; intro y)
    | with_reducible apply keeps_ite)

theorem keeps_State_enWaited {P : State → Prop} (hP : K0 P) {s d} (h_s : P s) :
    P (State.enWaited s d) := by
  unfold State.enWaited
  repeat' (first
    | with_reducible assumption
    | with_reducible apply keeps_State_setPg
    | with_reducible apply keeps_State_enWrite
    | with_reducible apply keeps_foldl
    | with_reducible intro _
    | (extract_lets +onlyGivenNames x; clear_value x; revert x; intro y)
    | with_reducible apply keeps_ite
    | split)

theorem keeps_State_pgCtlWrite {P : State → Prop} (hP : K0 P) {s w p v} (h_s : P s) :
    P ((State.pgCtlWrite s w p v)).1 := by
  unfold State.pgCtlWrite
  repeat' (first
    | with_reducible assumption
    | with_reducible apply keeps_State_pwrReq
    | with_reducible apply keeps_State_endLease
    | with_reducible apply keeps_State_safeLocked
    | with_reducible apply keeps_State_set
    | with_reducible apply keeps_State_setPg
    | with_reducible apply keeps_State_enWrite
    | with_reducible apply keeps_State_refuseShutting
    | with_reducible apply keeps_refuse
    | (extract_lets +onlyGivenNames x; (have hx : P x := ?_); clear_value x; revert x; intro y hy; rotate_left; unfold x; clear x)
    | (extract_lets +onlyGivenNames x; (have hx : P x.1 := ?_); clear_value x; revert x; intro y hy; rotate_left; unfold x; clear x)
    | (extract_lets +onlyGivenNames x; clear_value x; revert x; intro y)
    | with_reducible apply keeps_ite
    | with_reducible apply keeps_ite1)

theorem keeps_State_injWrite {P : State → Prop} (hP : K0 P) {s w p v} (h_s : P s) :
    P ((State.injWrite s w p v)).1 := by
  unfold State.injWrite
  repeat' (first
    | with_reducible assumption
    | with_reducible apply keeps_State_injDeny
    | with_reducible apply keeps_State_setReg
    | with_reducible apply keeps_State_actionWrite
    | with_reducible intro _
    | with_reducible apply keeps_ite1
    | split)

theorem keeps_State_ownWrite {P : State → Prop} (hP : K0 P) {s w p off v f} (h_s : P s) (h_f : OptP (fun r => P (r).1) (f)) :
    P ((State.ownWrite s w p off v f)).1 := by
  unfold State.ownWrite
  repeat' (first
    | with_reducible assumption
    | with_reducible apply keeps_refuse
    | with_reducible apply keeps_State_plainWrite
    | with_reducible apply keeps_ite1
    | split
    | (refine opt_some1 ?_; with_reducible assumption))

theorem keeps_State_thenDo {P : State → Prop} (hP : K0 P) {r f} (h_r : P (r).1) (h_f : ∀ (x0 : Sys2Proof.Machine.State), P x0 → P (f x0)) :
    P ((State.thenDo r f)).1 := by
  unfold State.thenDo
  repeat' (first
    | with_reducible assumption
    | with_reducible apply h_f
    | with_reducible apply keeps_ite1)

theorem keeps_State_tableWrite {P : State → Prop} (hP : K0 P) {s w p off v} (h_s : P s) :
    P ((State.tableWrite s w p off v)).1 := by
  unfold State.tableWrite
  repeat' (first
    | with_reducible assumption
    | with_reducible apply keeps_refuse
    | with_reducible apply keeps_State_binWrite
    | with_reducible apply keeps_State_plainWrite
    | with_reducible apply keeps_State_seqTableWrite
    | with_reducible apply keeps_ite1
    | split)

theorem keeps_State_blockWrite {P : State → Prop} (hP : K1 P) {s w p off v} (h_s : P s) :
    P ((State.blockWrite s w p off v)).1 := by
  have hm := hP.toKm
  have h0 := hm.toK0
  unfold State.blockWrite
  extract_lets i own plain act
  have ho : ∀ a, OptP (fun r => P r.1) a → P (own a).1 := fun a h => keeps_State_ownWrite h0 h_s h
  have hp : P plain.1 := keeps_State_plainWrite h0 h_s
  have ha : ∀ f : State → State × Code, (∀ x, P x → P (f x).1) → P (act f).1 :=
    fun f h => keeps_State_actionWrite h0 h_s h
  clear_value own plain act
  cases pageType p with
  | none => exact keeps_State_tableWrite h0 h_s
  | some t =>
    cases t <;> dsimp only <;> repeat' (first
      | with_reducible assumption
      | with_reducible apply keeps_ite1
      | with_reducible apply keeps_State_thenDo h0
      | with_reducible apply ho
      | with_reducible apply ha
      | with_reducible apply keeps_State_syncCtlWritten h0
      | with_reducible apply keeps_State_beamCtlWritten h0
      | with_reducible apply keeps_State_snapCapture h0
      | with_reducible apply keeps_State_restReq h0
      | with_reducible apply keeps_State_wdtKick h0
      | with_reducible apply keeps_State_wdtCfg h0
      | with_reducible apply keeps_State_hartRelease h0
      | with_reducible apply keeps_State_msipWrite h0
      | with_reducible apply keeps_State_urgWrite h0
      | with_reducible apply keeps_State_swTrig h0
      | with_reducible apply keeps_State_reqCtlWrite h0
      | with_reducible apply keeps_State_refWrite h0
      | with_reducible apply keeps_State_cmdWrite h0
      | with_reducible apply keeps_State_keyCmdWrite h0
      | with_reducible apply keeps_State_profRegWrite hP
      | with_reducible apply keeps_State_lifeRegWrite hP
      | with_reducible apply keeps_State_sysRegWrite hP
      | with_reducible apply keeps_State_bistRegWrite h0
      | with_reducible apply keeps_State_nvmeRegWrite h0
      | with_reducible apply keeps_State_tallyRegWrite hm
      | with_reducible apply keeps_State_ethRegWrite h0
      | with_reducible apply keeps_State_gateRegWrite h0
      | with_reducible apply keeps_State_fabrRegWrite hm
      | with_reducible apply keeps_State_safeRegWrite h0
      | with_reducible apply keeps_State_cntRegWrite h0
      | with_reducible apply keeps_State_stepRegWrite h0
      | with_reducible apply keeps_State_thermRegWrite h0
      | with_reducible apply keeps_State_mbusRegWrite h0
      | with_reducible apply keeps_State_loopRegWrite h0
      | with_reducible apply keeps_State_reckRegWrite h0
      | with_reducible apply keeps_State_eisRegWrite hm
      | with_reducible apply keeps_State_ceaRegWrite h0
      | with_reducible apply keeps_State_beadStart h0
      | with_reducible apply keeps_State_homeRoles h0
      | with_reducible apply keeps_State_beadsRegWrite h0
      | with_reducible apply keeps_State_tableWrite h0
      | with_reducible intro _ _
      | split)

theorem keeps_State_pageWrite {P : State → Prop} (hP : K1 P) {s w p off v} (h_s : P s) :
    P ((State.pageWrite s w p off v)).1 := by
  unfold State.pageWrite
  have hm := hP.toKm
  have h0 := hm.toK0
  repeat' (first
    | with_reducible assumption
    | with_reducible apply keeps_State_blockWrite
    | with_reducible apply keeps_State_setReg
    | with_reducible apply keeps_State_mbusLevels
    | with_reducible apply keeps_State_plainWrite
    | with_reducible apply keeps_State_thenDo
    | with_reducible apply keeps_State_injWrite
    | with_reducible apply keeps_State_commitReq
    | with_reducible apply keeps_State_pgCtlWrite
    | with_reducible intro _
    | with_reducible apply keeps_ite
    | with_reducible apply keeps_ite1)

theorem keeps_State_wordWrite {P : State → Prop} (hP : K1 P) {s w p off v} (h_s : P s) :
    P ((State.wordWrite s w p off v)).1 := by
  unfold State.wordWrite
  have hm := hP.toKm
  have h0 := hm.toK0
  repeat' (first
    | with_reducible assumption
    | with_reducible apply keeps_State_countRefused
    | with_reducible apply keeps_State_pageWrite
    | with_reducible apply keeps_State_restWrite
    | (extract_lets +onlyGivenNames x; (have hx : P x.1 := ?_); clear_value x; revert x; intro y hy; rotate_left; unfold x; clear x)
    | with_reducible apply keeps_ite1)

theorem keeps_State_wordRead {P : State → Prop} (hP : K0 P) {s w p off} (h_s : P s) :
    P ((State.wordRead s w p off)).1 := by
  unfold State.wordRead
  repeat' (first
    | with_reducible assumption
    | with_reducible apply keeps_State_readWord
    | with_reducible apply keeps_State_restAccess
    | with_reducible apply keeps_ite1)

theorem keeps_State_burstWrite {P : State → Prop} (hP : K1 P) {s w p off l gate} (h_s : P s) :
    P ((State.burstWrite s w p off l gate)).1 := by
  unfold State.burstWrite
  have hm := hP.toKm
  have h0 := hm.toK0
  repeat' (first
    | with_reducible assumption
    | with_reducible apply keeps_State_wordWrite
    | with_reducible apply keeps_foldl1
    | with_reducible intro _
    | (extract_lets +onlyGivenNames x; (have hx : P x.1 := ?_); clear_value x; revert x; intro y hy; rotate_left; unfold x; clear x)
    | (extract_lets +onlyGivenNames x; clear_value x; revert x; intro y)
    | with_reducible apply keeps_ite1)

theorem keeps_State_burstRead {P : State → Prop} (hP : K0 P) {s w p off n} (h_s : P s) :
    P ((State.burstRead s w p off n)).1 := by
  unfold State.burstRead
  repeat' (first
    | with_reducible assumption
    | with_reducible apply keeps_State_wordRead
    | with_reducible apply keeps_foldl1
    | with_reducible intro _)

theorem keeps_State_answerAcc {P : State → Prop} (hP : K0 P) {s a c n data} (h_s : P s) :
    P (State.answerAcc s a c n data) := by
  unfold State.answerAcc
  repeat' (first
    | with_reducible assumption
    | with_reducible apply keeps_State_fabSend
    | with_reducible apply keeps_State_send
    | split)

theorem keeps_State_runAcc {P : State → Prop} (hP : K1 P) {s a} (h_s : P s) :
    P (State.runAcc s a) := by
  unfold State.runAcc
  have hm := hP.toKm
  have h0 := hm.toK0
  repeat' (first
    | with_reducible assumption
    | with_reducible apply keeps_State_burstRead
    | with_reducible apply keeps_State_answerAcc
    | with_reducible apply keeps_State_burstWrite
    | (extract_lets +onlyGivenNames x; (have hx : P x.1 := ?_); clear_value x; revert x; intro y hy; rotate_left; unfold x; clear x)
    | split)

theorem keeps_State_transact {P : State → Prop} (hP : K1 P) {s a wake} (h_s : P s) :
    P (State.transact s a wake) := by
  unfold State.transact
  have hm := hP.toKm
  have h0 := hm.toK0
  repeat' (first
    | with_reducible assumption
    | with_reducible apply keeps_State_runAcc
    | with_reducible apply keeps_State_wakeDom
    | with_reducible apply keeps_refuse
    | with_reducible apply keeps_State_countRefused
    | with_reducible apply keeps_State_answerAcc
    | (extract_lets +onlyGivenNames x; (have hx : P x := ?_); clear_value x; revert x; intro y hy; rotate_left; unfold x; clear x)
    | (extract_lets +onlyGivenNames x; clear_value x; revert x; intro y)
    | with_reducible apply keeps_ite
    | fail_if_no_progress with_reducible refine h0.upd ?_)

theorem keeps_State_domDone {P : State → Prop} (hP : K1 P) {s d} (h_s : P s) :
    P (State.domDone s d) := by
  unfold State.domDone
  have hm := hP.toKm
  have h0 := hm.toK0
  repeat' (first
    | with_reducible assumption
    | with_reducible apply keeps_State_runAcc
    | with_reducible apply keeps_State_domActive
    | with_reducible apply keeps_State_enWaited
    | with_reducible apply keeps_foldl
    | fail_if_no_progress with_reducible refine h0.upd ?_)

theorem keeps_State_noPageLocal {P : State → Prop} (hP : K0 P) {s w p off} (h_s : P s) :
    P (State.noPageLocal s w p off) := by
  unfold State.noPageLocal
  repeat' (first
    | with_reducible assumption
    | with_reducible apply keeps_State_send
    | with_reducible apply keeps_State_trapHere
    | split)

theorem keeps_State_misaligned {P : State → Prop} (hP : K0 P) {s w p} (h_s : P s) :
    P (State.misaligned s w p) := by
  unfold State.misaligned
  repeat' (first
    | with_reducible assumption
    | with_reducible apply keeps_State_free
    | with_reducible apply keeps_State_err
    | with_reducible apply keeps_State_restAccess
    | with_reducible apply keeps_State_send
    | with_reducible apply keeps_State_trapHere
    | (extract_lets +onlyGivenNames x; (have hx : P x.2 := ?_); clear_value x; revert x; intro y hy; rotate_left; unfold x; clear x)
    | with_reducible apply keeps_ite
    | split)

theorem keeps_State_readAccess {P : State → Prop} (hP : K1 P) {s w p off size wake} (h_s : P s) :
    P (State.readAccess s w p off size wake) := by
  unfold State.readAccess
  have hm := hP.toKm
  have h0 := hm.toK0
  repeat' (first
    | with_reducible assumption
    | with_reducible apply keeps_State_wordRead
    | with_reducible apply keeps_State_misaligned
    | with_reducible apply keeps_State_restAccess
    | with_reducible apply keeps_State_send
    | with_reducible apply keeps_State_noPageLocal
    | with_reducible apply keeps_State_transact
    | (extract_lets +onlyGivenNames x; (have hx : P x.1 := ?_); clear_value x; revert x; intro y hy; rotate_left; unfold x; clear x)
    | with_reducible apply keeps_ite)

end Sys2Proof.Machine
end

