-- ==== Sys2Proof/Laws/KBoard.lean ====
section
/-! SUPPORT. What the operations of Machine.Board keep. -/

namespace Sys2Proof.Machine

open Host (Outcome)

theorem keeps_State_access {P : State → Prop} (hP : K1 P) {s w p off size v} (h_s : P s) :
    P (State.access s w p off size v) := by
  unfold State.access
  have hm := hP.toKm
  have h0 := hm.toK0
  repeat' (first
    | with_reducible assumption
    | with_reducible apply keeps_State_wordWrite
    | with_reducible apply keeps_refuse
    | with_reducible apply keeps_finish
    | with_reducible apply keeps_State_restAccess
    | with_reducible apply keeps_State_noPageLocal
    | with_reducible apply keeps_State_answer
    | (extract_lets +onlyGivenNames x; (have hx : P x.1 := ?_); clear_value x; revert x; intro y hy; rotate_left; unfold x; clear x)
    | (extract_lets +onlyGivenNames x; clear_value x; revert x; intro y)
    | with_reducible apply keeps_ite)

theorem keeps_execRegisterWrite {P : State → Prop} (hP : K1 P) {w p off size v s} (h_s : P s) :
    OutP P ((execRegisterWrite w p off size v s)) := by
  unfold execRegisterWrite
  have hm := hP.toKm
  have h0 := hm.toK0
  repeat' (first
    | with_reducible assumption
    | with_reducible apply keeps_State_access
    | with_reducible apply OutP.next)

theorem keeps_State_ctlWrite {P : State → Prop} (hP : K1 P) {s w p f x} (h_s : P s) :
    P (State.ctlWrite s w p f x) := by
  unfold State.ctlWrite
  have hm := hP.toKm
  have h0 := hm.toK0
  repeat' (first
    | with_reducible assumption
    | with_reducible apply keeps_State_access)

theorem keeps_execPgCtlLock {P : State → Prop} (hP : K1 P) {w p s} (h_s : P s) :
    OutP P ((execPgCtlLock w p s)) := by
  unfold execPgCtlLock
  have hm := hP.toKm
  have h0 := hm.toK0
  repeat' (first
    | with_reducible assumption
    | with_reducible apply keeps_State_ctlWrite
    | with_reducible apply OutP.next)

theorem keeps_execPgCtlDiscard {P : State → Prop} (hP : K1 P) {w p s} (h_s : P s) :
    OutP P ((execPgCtlDiscard w p s)) := by
  unfold execPgCtlDiscard
  have hm := hP.toKm
  have h0 := hm.toK0
  repeat' (first
    | with_reducible assumption
    | with_reducible apply keeps_State_ctlWrite
    | with_reducible apply OutP.next)

theorem keeps_execLeaseReq {P : State → Prop} (hP : K1 P) {w p time s} (h_s : P s) :
    OutP P ((execLeaseReq w p time s)) := by
  unfold execLeaseReq
  have hm := hP.toKm
  have h0 := hm.toK0
  repeat' (first
    | with_reducible assumption
    | with_reducible apply keeps_State_access
    | with_reducible apply OutP.next)

theorem keeps_execLeaseRel {P : State → Prop} (hP : K1 P) {w p s} (h_s : P s) :
    OutP P ((execLeaseRel w p s)) := by
  unfold execLeaseRel
  have hm := hP.toKm
  have h0 := hm.toK0
  repeat' (first
    | with_reducible assumption
    | with_reducible apply keeps_State_ctlWrite
    | with_reducible apply OutP.next)

theorem keeps_execPgCtlEnable {P : State → Prop} (hP : K1 P) {w p en s} (h_s : P s) :
    OutP P ((execPgCtlEnable w p en s)) := by
  unfold execPgCtlEnable
  have hm := hP.toKm
  have h0 := hm.toK0
  repeat' (first
    | with_reducible assumption
    | with_reducible apply keeps_State_ctlWrite
    | with_reducible apply OutP.next)

theorem keeps_execPwrReqWrite {P : State → Prop} (hP : K1 P) {w p r en s} (h_s : P s) :
    OutP P ((execPwrReqWrite w p r en s)) := by
  unfold execPwrReqWrite
  have hm := hP.toKm
  have h0 := hm.toK0
  repeat' (first
    | with_reducible assumption
    | with_reducible apply keeps_State_access
    | with_reducible apply OutP.next)

theorem keeps_execPgCommit {P : State → Prop} (hP : K1 P) {w p gen s} (h_s : P s) :
    OutP P ((execPgCommit w p gen s)) := by
  unfold execPgCommit
  have hm := hP.toKm
  have h0 := hm.toK0
  repeat' (first
    | with_reducible assumption
    | with_reducible apply keeps_State_access
    | with_reducible apply OutP.next)

theorem keeps_execCommitApply {P : State → Prop} (hP : K0 P) {p s} (h_s : P s) :
    OutP P ((execCommitApply p s)) := by
  unfold execCommitApply
  repeat' (first
    | with_reducible assumption
    | with_reducible apply keeps_State_commitApply
    | with_reducible apply OutP.next)

theorem keeps_execInjArm {P : State → Prop} (hP : K1 P) {w p shots point s} (h_s : P s) :
    OutP P ((execInjArm w p shots point s)) := by
  unfold execInjArm
  have hm := hP.toKm
  have h0 := hm.toK0
  repeat' (first
    | with_reducible assumption
    | with_reducible apply keeps_State_access
    | with_reducible apply OutP.next)

theorem keeps_execLeaseExpire {P : State → Prop} (hP : K0 P) {p ms s} (h_s : P s) :
    OutP P ((execLeaseExpire p ms s)) := by
  unfold execLeaseExpire
  repeat' (first
    | with_reducible assumption
    | with_reducible apply keeps_State_setPg
    | with_reducible apply keeps_State_endLease
    | with_reducible apply OutP.next
    | (extract_lets +onlyGivenNames x; (have hx : P x := ?_); clear_value x; revert x; intro y hy; rotate_left; unfold x; clear x)
    | (extract_lets +onlyGivenNames x; clear_value x; revert x; intro y)
    | with_reducible apply outP_ite
    | split)

theorem keeps_execLeaseOwnerLost {P : State → Prop} (hP : K0 P) {w s} (h_s : P s) :
    OutP P ((execLeaseOwnerLost w s)) := by
  unfold execLeaseOwnerLost
  repeat' (first
    | with_reducible assumption
    | with_reducible apply keeps_State_ownerLost
    | with_reducible apply OutP.next)

theorem keeps_execRestPageAccess {P : State → Prop} (hP : K1 P) {w p off v wake s} (h_s : P s) :
    OutP P ((execRestPageAccess w p off v wake s)) := by
  unfold execRestPageAccess
  have hm := hP.toKm
  have h0 := hm.toK0
  repeat' (first
    | with_reducible assumption
    | with_reducible apply keeps_State_access
    | with_reducible apply keeps_State_transact
    | with_reducible apply keeps_State_readAccess
    | with_reducible apply OutP.next
    | with_reducible apply outP_ite
    | split)

theorem keeps_execDomainDrained {P : State → Prop} (hP : K0 P) {i s} (h_s : P s) :
    OutP P ((execDomainDrained i s)) := by
  unfold execDomainDrained
  repeat' (first
    | with_reducible assumption
    | with_reducible apply keeps_State_domRest
    | with_reducible apply OutP.next
    | with_reducible apply keeps_ite)

theorem keeps_execLocalAccessTimeout {P : State → Prop} (hP : K0 P) {w p off s} (h_s : P s) :
    OutP P ((execLocalAccessTimeout w p off s)) := by
  unfold execLocalAccessTimeout
  repeat' (first
    | with_reducible assumption
    | with_reducible apply keeps_State_send
    | with_reducible apply keeps_State_trapHere
    | with_reducible apply OutP.next
    | split)

theorem keeps_execRemoteTimeout {P : State → Prop} (hP : K0 P) {w p s} (h_s : P s) :
    OutP P ((execRemoteTimeout w p s)) := by
  unfold execRemoteTimeout
  repeat' (first
    | with_reducible assumption
    | with_reducible apply keeps_State_sessReply
    | with_reducible apply keeps_State_setSes
    | with_reducible apply keeps_State_answerAcc
    | with_reducible apply OutP.next
    | (extract_lets +onlyGivenNames x; clear_value x; revert x; intro y)
    | split
    | fail_if_no_progress with_reducible refine hP.upd ?_)

theorem keeps_execEventLineDeliver {P : State → Prop} (hP : K0 P) {n s} (h_s : P s) :
    OutP P ((execEventLineDeliver n s)) := by
  unfold execEventLineDeliver
  repeat' (first
    | with_reducible assumption
    | with_reducible apply keeps_State_hartIrq
    | with_reducible apply keeps_State_send
    | with_reducible apply keeps_State_wakeCause
    | with_reducible apply keeps_foldl
    | with_reducible apply OutP.next
    | with_reducible intro _
    | (extract_lets +onlyGivenNames x; (have hx : P x := ?_); clear_value x; revert x; intro y hy; rotate_left; unfold x; clear x)
    | (extract_lets +onlyGivenNames x; clear_value x; revert x; intro y)
    | with_reducible apply keeps_ite
    | with_reducible apply outP_ite)

theorem keeps_execLowWordRead {P : State → Prop} (hP : K1 P) {w p off size s} (h_s : P s) :
    OutP P ((execLowWordRead w p off size s)) := by
  unfold execLowWordRead
  have hm := hP.toKm
  have h0 := hm.toK0
  repeat' (first
    | with_reducible assumption
    | with_reducible apply keeps_State_readAccess
    | with_reducible apply OutP.next)

theorem keeps_execNowNsRead {P : State → Prop} (hP : K1 P) {w s} (h_s : P s) :
    OutP P ((execNowNsRead w s)) := by
  unfold execNowNsRead
  have hm := hP.toKm
  have h0 := hm.toK0
  repeat' (first
    | with_reducible assumption
    | with_reducible apply keeps_State_readAccess
    | with_reducible apply OutP.next)

theorem keeps_execModStatRead {P : State → Prop} (hP : K1 P) {w n a s} (h_s : P s) :
    OutP P ((execModStatRead w n a s)) := by
  unfold execModStatRead
  have hm := hP.toKm
  have h0 := hm.toK0
  repeat' (first
    | with_reducible assumption
    | with_reducible apply keeps_State_readAccess
    | with_reducible apply OutP.next)

theorem keeps_execReckEnable {P : State → Prop} (hP : K1 P) {w k s} (h_s : P s) :
    OutP P ((execReckEnable w k s)) := by
  unfold execReckEnable
  have hm := hP.toKm
  have h0 := hm.toK0
  repeat' (first
    | with_reducible assumption
    | with_reducible apply keeps_State_ctlWrite
    | with_reducible apply OutP.next)

theorem keeps_execReckDisable {P : State → Prop} (hP : K1 P) {w k s} (h_s : P s) :
    OutP P ((execReckDisable w k s)) := by
  unfold execReckDisable
  have hm := hP.toKm
  have h0 := hm.toK0
  repeat' (first
    | with_reducible assumption
    | with_reducible apply keeps_State_ctlWrite
    | with_reducible apply OutP.next)

theorem keeps_execCeaEnable {P : State → Prop} (hP : K1 P) {w s} (h_s : P s) :
    OutP P ((execCeaEnable w s)) := by
  unfold execCeaEnable
  have hm := hP.toKm
  have h0 := hm.toK0
  repeat' (first
    | with_reducible assumption
    | with_reducible apply keeps_State_ctlWrite
    | with_reducible apply OutP.next)

theorem keeps_State_loaded {P : State → Prop} (hP : K0 P) {s k w v} (h_s : P s) :
    P (State.loaded s k w v) := by
  unfold State.loaded
  repeat' (first
    | with_reducible assumption
    | with_reducible apply keeps_State_finishI)

theorem keeps_execLd {P : State → Prop} (hP : K0 P) {k e s} (h_s : P s) :
    OutP P ((execLd k e s)) := by
  unfold execLd
  repeat' (first
    | with_reducible assumption
    | with_reducible apply keeps_State_wordRead
    | with_reducible apply keeps_State_loaded
    | with_reducible apply keeps_State_dramEcc
    | with_reducible apply keeps_State_trapHere
    | with_reducible apply keeps_State_instr
    | with_reducible apply OutP.next
    | with_reducible intro _
    | (extract_lets +onlyGivenNames x; (have hx : P x.1 := ?_); clear_value x; revert x; intro y hy; rotate_left; unfold x; clear x)
    | with_reducible apply keeps_ite
    | split)

theorem keeps_execSt {P : State → Prop} (hP : K1 P) {k s} (h_s : P s) :
    OutP P ((execSt k s)) := by
  unfold execSt
  have hm := hP.toKm
  have h0 := hm.toK0
  repeat' (first
    | with_reducible assumption
    | with_reducible apply keeps_State_wordWrite
    | with_reducible apply keeps_State_setCommon
    | with_reducible apply keeps_State_setReckWord
    | with_reducible apply keeps_State_nextPc
    | with_reducible apply keeps_State_trapHere
    | with_reducible apply keeps_State_instr
    | with_reducible apply OutP.next
    | with_reducible intro _
    | (extract_lets +onlyGivenNames x; clear_value x; revert x; intro y)
    | with_reducible apply keeps_ite
    | split)

theorem keeps_execBreqRx {P : State → Prop} (hP : K1 P) {l e s} (h_s : P s) :
    OutP P ((execBreqRx l e s)) := by
  unfold execBreqRx
  have hm := hP.toKm
  have h0 := hm.toK0
  repeat' (first
    | with_reducible assumption
    | with_reducible apply keeps_State_transact
    | with_reducible apply keeps_State_answerAcc
    | with_reducible apply keeps_State_takeWaiting
    | with_reducible apply OutP.next
    | (extract_lets +onlyGivenNames x; (have hx : P x := ?_); clear_value x; revert x; intro y hy; rotate_left; unfold x; clear x)
    | (extract_lets +onlyGivenNames x; clear_value x; revert x; intro y)
    | with_reducible apply outP_ite
    | split)

theorem keeps_execSessionRead {P : State → Prop} (hP : K0 P) {n s} (h_s : P s) :
    OutP P ((execSessionRead n s)) := by
  unfold execSessionRead
  repeat' (first
    | with_reducible assumption
    | with_reducible apply keeps_State_burstRead
    | with_reducible apply keeps_State_sessReply
    | with_reducible apply keeps_State_takeReq
    | with_reducible apply OutP.next
    | (extract_lets +onlyGivenNames x; (have hx : P x.1 := ?_); clear_value x; revert x; intro y hy; rotate_left; unfold x; clear x)
    | with_reducible apply outP_ite
    | split
    | (refine opt2 (by with_reducible assumption) ?_))

theorem keeps_execSessionWrite {P : State → Prop} (hP : K1 P) {n s} (h_s : P s) :
    OutP P ((execSessionWrite n s)) := by
  unfold execSessionWrite
  have hm := hP.toKm
  have h0 := hm.toK0
  repeat' (first
    | with_reducible assumption
    | with_reducible apply keeps_State_burstWrite
    | with_reducible apply keeps_State_sessReply
    | with_reducible apply keeps_State_takeReq
    | with_reducible apply OutP.next
    | (extract_lets +onlyGivenNames x; (have hx : P x.1 := ?_); clear_value x; revert x; intro y hy; rotate_left; unfold x; clear x)
    | with_reducible apply outP_ite
    | split
    | (refine opt2 (by with_reducible assumption) ?_))

theorem keeps_execCrossingReset {P : State → Prop} (hP : K0 P) {i lost s} (h_s : P s) :
    OutP P ((execCrossingReset i lost s)) := by
  unfold execCrossingReset
  repeat' (first
    | with_reducible assumption
    | with_reducible apply keeps_State_noPageLocal
    | with_reducible apply keeps_State_send
    | with_reducible apply keeps_State_dieLinksOff
    | with_reducible apply keeps_foldl
    | with_reducible apply OutP.next
    | with_reducible intro _
    | with_reducible apply keeps_ite
    | split)

end Sys2Proof.Machine
end

