-- ==== Sys2Proof/Laws/KBoot.lean ====
section
/-! SUPPORT. What the operations of Machine.Boot keep. -/

namespace Sys2Proof.Machine

open Host (Outcome)

theorem keeps_State_bootAt {P : State → Prop} (hP : K0 P) {s step} (h_s : P s) :
    P (State.bootAt s step) := by
  unfold State.bootAt
  repeat' (first
    | with_reducible assumption
    | with_reducible apply keeps_State_set)

theorem keeps_State_bootLow {P : State → Prop} (hP : K0 P) {s} (h_s : P s) :
    P (State.bootLow s) := by
  unfold State.bootLow
  repeat' (first
    | with_reducible assumption
    | with_reducible apply keeps_State_applySgr
    | with_reducible apply keeps_State_driveOuts
    | with_reducible apply keeps_State_setBoot
    | with_reducible apply keeps_foldl
    | with_reducible intro _)

theorem keeps_State_holdApc {P : State → Prop} (hP : K0 P) {s} (h_s : P s) :
    P (State.holdApc s) := by
  unfold State.holdApc
  repeat' (first
    | with_reducible assumption
    | with_reducible apply keeps_State_setProc
    | with_reducible apply keeps_State_showApc)

theorem keeps_State_bootHalt {P : State → Prop} (hP : K0 P) {s} (h_s : P s) :
    P (State.bootHalt s) := by
  unfold State.bootHalt
  repeat' (first
    | with_reducible assumption
    | with_reducible apply keeps_State_bootAt
    | with_reducible apply keeps_State_holdApc
    | with_reducible apply keeps_State_bootLow)

theorem keeps_State_bootEntry {P : State → Prop} (hP : K0 P) {s} (h_s : P s) :
    P (State.bootEntry s) := by
  unfold State.bootEntry
  repeat' (first
    | with_reducible assumption
    | with_reducible apply keeps_State_evtPost
    | with_reducible apply keeps_State_free)

theorem keeps_State_mapCores {P : State → Prop} (hP : K0 P) {s} (h_s : P s) :
    P (State.mapCores s) := by
  unfold State.mapCores
  repeat' (first
    | with_reducible assumption
    | with_reducible apply keeps_State_set
    | with_reducible apply keeps_State_setBist
    | with_reducible apply keeps_foldl
    | with_reducible intro _)

theorem keeps_State_bootTest {P : State → Prop} (hP : K0 P) {s bad mems} (h_s : P s) :
    P (State.bootTest s bad mems) := by
  unfold State.bootTest
  repeat' (first
    | with_reducible assumption
    | with_reducible apply keeps_State_setReg
    | with_reducible apply keeps_State_mapCores
    | with_reducible apply keeps_State_memTested
    | with_reducible apply keeps_foldl)

theorem keeps_State_setPairBytes {P : State → Prop} (hP : K1 P) {s a l} (h_s : P s) :
    P (State.setPairBytes s a l) := by
  unfold State.setPairBytes
  have hm := hP.toKm
  have h0 := hm.toK0
  repeat' (first
    | with_reducible assumption
    | with_reducible apply keeps_foldl
    | with_reducible intro _
    | fail_if_no_progress with_reducible refine hP.updPair ?_)

theorem keeps_State_loadRec {P : State → Prop} (hP : K1 P) {s r} (h_s : P s) :
    P (State.loadRec s r) := by
  unfold State.loadRec
  have hm := hP.toKm
  have h0 := hm.toK0
  repeat' (first
    | with_reducible assumption
    | with_reducible apply keeps_State_setPairBytes
    | with_reducible apply keeps_State_setCommon
    | with_reducible apply keeps_State_setReckWord
    | with_reducible apply keeps_State_setMemBytes
    | with_reducible apply keeps_foldl
    | with_reducible intro _
    | (extract_lets +onlyGivenNames x; clear_value x; revert x; intro y)
    | split)

theorem keeps_State_entryRec {P : State → Prop} (hP : K0 P) {s r} (h_s : P s) :
    P (State.entryRec s r) := by
  unfold State.entryRec
  repeat' (first
    | with_reducible assumption
    | with_reducible apply keeps_State_setBoot
    | (extract_lets +onlyGivenNames x; clear_value x; revert x; intro y)
    | split)

theorem keeps_State_imgLoad {P : State → Prop} (hP : K1 P) {s region} (h_s : P s) :
    P (State.imgLoad s region) := by
  unfold State.imgLoad
  have hm := hP.toKm
  have h0 := hm.toK0
  repeat' (first
    | with_reducible assumption
    | with_reducible apply keeps_State_entryRec
    | with_reducible apply keeps_State_loadRec
    | with_reducible apply keeps_foldl
    | with_reducible intro _
    | with_reducible apply keeps_ite)

theorem keeps_State_bootWord {P : State → Prop} (hP : K1 P) {s p off v} (h_s : P s) :
    P ((State.bootWord s p off v)).1 := by
  unfold State.bootWord
  have hm := hP.toKm
  have h0 := hm.toK0
  repeat' (first
    | with_reducible assumption
    | with_reducible apply keeps_State_wordWrite
    | with_reducible apply keeps_State_setBoot
    | (extract_lets +onlyGivenNames x; (have hx : P x := ?_); clear_value x; revert x; intro y hy; rotate_left; unfold x; clear x)
    | (extract_lets +onlyGivenNames x; (have hx : P x.1 := ?_); clear_value x; revert x; intro y hy; rotate_left; unfold x; clear x)
    | (extract_lets +onlyGivenNames x; clear_value x; revert x; intro y)
    | with_reducible apply keeps_ite
    | with_reducible apply keeps_ite1)

theorem keeps_State_bootWrite {P : State → Prop} (hP : K1 P) {s i r} (h_s : P s) :
    P ((State.bootWrite s i r)).1 := by
  unfold State.bootWrite
  have hm := hP.toKm
  have h0 := hm.toK0
  repeat' (first
    | with_reducible assumption
    | with_reducible apply keeps_State_bootWord
    | with_reducible apply keeps_foldl1
    | with_reducible intro _
    | (extract_lets +onlyGivenNames x; (have hx : P x.1 := ?_); clear_value x; revert x; intro y hy; rotate_left; unfold x; clear x)
    | (extract_lets +onlyGivenNames x; clear_value x; revert x; intro y)
    | split)

theorem keeps_State_bootCfg {P : State → Prop} (hP : K0 P) {s flags} (h_s : P s) :
    P (State.bootCfg s flags) := by
  unfold State.bootCfg
  repeat' (first
    | with_reducible assumption
    | with_reducible apply keeps_State_safeStat
    | with_reducible apply keeps_State_setB
    | with_reducible apply keeps_State_setReg
    | with_reducible apply keeps_ite)

theorem keeps_State_profRec {P : State → Prop} (hP : K1 P) {s i r} (h_s : P s) :
    P ((State.profRec s i r)).1 := by
  unfold State.profRec
  have hm := hP.toKm
  have h0 := hm.toK0
  repeat' (first
    | with_reducible assumption
    | with_reducible apply keeps_State_bootCfg
    | with_reducible apply keeps_State_loadKernel
    | with_reducible apply keeps_State_bootWrite
    | with_reducible apply keeps_foldl
    | (extract_lets +onlyGivenNames x; clear_value x; revert x; intro y)
    | with_reducible apply keeps_ite1)

theorem keeps_State_bootCommits {P : State → Prop} (hP : K0 P) {s} (h_s : P s) :
    P ((State.bootCommits s)).1 := by
  unfold State.bootCommits
  repeat' (first
    | with_reducible assumption
    | with_reducible apply keeps_State_free
    | with_reducible apply keeps_State_commitApply
    | with_reducible apply keeps_State_commitReq
    | with_reducible apply keeps_foldl1
    | with_reducible intro _
    | (extract_lets +onlyGivenNames x; (have hx : P x := ?_); clear_value x; revert x; intro y hy; rotate_left; unfold x; clear x)
    | (extract_lets +onlyGivenNames x; (have hx : P x.1 := ?_); clear_value x; revert x; intro y hy; rotate_left; unfold x; clear x)
    | (extract_lets +onlyGivenNames x; (have hx : P x.2 := ?_); clear_value x; revert x; intro y hy; rotate_left; unfold x; clear x)
    | (extract_lets +onlyGivenNames x; clear_value x; revert x; intro y)
    | with_reducible apply keeps_ite1
    | split)

theorem keeps_State_lockRec {P : State → Prop} (hP : K0 P) {s r} (h_s : P s) :
    P (State.lockRec s r) := by
  unfold State.lockRec
  repeat' (first
    | with_reducible assumption
    | with_reducible apply keeps_State_safeLocked
    | with_reducible apply keeps_State_set
    | (extract_lets +onlyGivenNames x; (have hx : P x := ?_); clear_value x; revert x; intro y hy; rotate_left; unfold x; clear x)
    | (extract_lets +onlyGivenNames x; clear_value x; revert x; intro y)
    | with_reducible apply keeps_ite)

theorem keeps_State_applyProf {P : State → Prop} (hP : K1 P) {s base} (h_s : P s) :
    P ((State.applyProf s base)).1 := by
  unfold State.applyProf
  have hm := hP.toKm
  have h0 := hm.toK0
  repeat' (first
    | with_reducible assumption
    | with_reducible apply keeps_State_lockRec
    | with_reducible apply keeps_State_bootCommits
    | with_reducible apply keeps_State_profRec
    | with_reducible apply keeps_foldl
    | with_reducible apply keeps_foldl1
    | with_reducible intro _
    | (extract_lets +onlyGivenNames x; (have hx : P x.1 := ?_); clear_value x; revert x; intro y hy; rotate_left; unfold x; clear x)
    | (extract_lets +onlyGivenNames x; clear_value x; revert x; intro y)
    | split)

theorem keeps_State_applyUndo {P : State → Prop} (hP : K1 P) {s0 s f} (h_s0 : P s0) (h_s : P s) :
    P (State.applyUndo s0 s f) := by
  have h0 := hP.toK0
  unfold State.applyUndo
  extract_lets s1 s2 s3 s4 s5 s6
  have h1 : P s1 := keeps_foldl h_s (fun s x h => keeps_State_resetFd h0 h)
  clear_value s1
  have h2 : P s2 := keeps_State_resetRd hP h1
  clear_value s2
  have h3 : P s3 := keeps_foldl h2 (fun s x h => keeps_ite (keeps_State_setWord h0 h) h)
  clear_value s3
  have h4 : P s4 := hP.updCommonOf h3 h_s0
  clear_value s4
  exact keeps_State_setReg h0 (keeps_State_setReg h0 (keeps_State_setBoot h0 h4))

theorem keeps_State_tryCopy {P : State → Prop} (hP : K1 P) {s p c} (h_s : P s) :
    P ((State.tryCopy s p c)).1 := by
  unfold State.tryCopy
  have hm := hP.toKm
  have h0 := hm.toK0
  repeat' (first
    | with_reducible assumption
    | with_reducible apply keeps_State_setBoot
    | with_reducible apply keeps_State_setReg
    | with_reducible apply keeps_State_set
    | with_reducible apply keeps_State_applyUndo
    | with_reducible apply keeps_State_applyProf
    | (extract_lets +onlyGivenNames x; (have hx : P x := ?_); clear_value x; revert x; intro y hy; rotate_left; unfold x; clear x)
    | (extract_lets +onlyGivenNames x; (have hx : P x.1 := ?_); clear_value x; revert x; intro y hy; rotate_left; unfold x; clear x)
    | (extract_lets +onlyGivenNames x; clear_value x; revert x; intro y)
    | split)

theorem keeps_State_fallback {P : State → Prop} (hP : K0 P) {s reason} (h_s : P s) :
    P (State.fallback s reason) := by
  unfold State.fallback
  repeat' (first
    | with_reducible assumption
    | with_reducible apply keeps_State_bootEntry
    | with_reducible apply keeps_State_enWrite
    | with_reducible apply keeps_State_setReg
    | with_reducible apply keeps_State_setReg64
    | with_reducible apply keeps_State_set
    | with_reducible apply keeps_State_bootCfg)

theorem keeps_State_bootProfile {P : State → Prop} (hP : K1 P) {s} (h_s : P s) :
    P (State.bootProfile s) := by
  unfold State.bootProfile
  have hm := hP.toKm
  have h0 := hm.toK0
  repeat' (first
    | with_reducible assumption
    | with_reducible apply keeps_State_tryCopy
    | with_reducible apply keeps_State_fallback
    | with_reducible apply keeps_State_set
    | with_reducible apply keeps_State_bootCfg
    | with_reducible apply keeps_State_setReg
    | with_reducible apply keeps_State_bootAt
    | with_reducible apply keeps_foldl
    | with_reducible intro _
    | (extract_lets +onlyGivenNames x; (have hx : P x := ?_); clear_value x; revert x; intro y hy; rotate_left; unfold x; clear x)
    | (extract_lets +onlyGivenNames x; (have hx : P x.1 := ?_); clear_value x; revert x; intro y hy; rotate_left; unfold x; clear x)
    | (extract_lets +onlyGivenNames x; clear_value x; revert x; intro y)
    | with_reducible apply keeps_ite
    | split)

theorem keeps_State_bootDdr {P : State → Prop} (hP : K0 P) {s size} (h_s : P s) :
    P (State.bootDdr s size) := by
  unfold State.bootDdr
  repeat' (first
    | with_reducible assumption
    | with_reducible apply keeps_State_showApc
    | with_reducible apply keeps_State_set
    | with_reducible apply keeps_State_bootAt
    | split)

theorem keeps_State_loaderMode {P : State → Prop} (hP : K0 P) {s cause} (h_s : P s) :
    P (State.loaderMode s cause) := by
  unfold State.loaderMode
  repeat' (first
    | with_reducible assumption
    | with_reducible apply keeps_State_bootLow
    | with_reducible apply keeps_State_bootEntry
    | with_reducible apply keeps_State_bootAt
    | with_reducible apply keeps_State_incFW
    | with_reducible apply keeps_State_set)

theorem keeps_State_splitStart {P : State → Prop} (hP : K0 P) {s core entry} (h_s : P s) :
    P (State.splitStart s core entry) := by
  unfold State.splitStart
  repeat' (first
    | with_reducible assumption
    | with_reducible apply keeps_State_send
    | split)

theorem keeps_State_pairStart {P : State → Prop} (hP : K0 P) {s kcrcOk} (h_s : P s) :
    P (State.pairStart s kcrcOk) := by
  unfold State.pairStart
  repeat' (first
    | with_reducible assumption
    | with_reducible apply keeps_State_pairFaultAct
    | with_reducible apply keeps_State_setSafe
    | with_reducible apply keeps_State_set
    | with_reducible apply keeps_State_setReg
    | with_reducible apply keeps_State_free
    | with_reducible apply keeps_State_splitStart
    | (extract_lets +onlyGivenNames x; (have hx : P x := ?_); clear_value x; revert x; intro y hy; rotate_left; unfold x; clear x)
    | (extract_lets +onlyGivenNames x; (have hx : P x.2 := ?_); clear_value x; revert x; intro y hy; rotate_left; unfold x; clear x)
    | (extract_lets +onlyGivenNames x; clear_value x; revert x; intro y)
    | with_reducible apply keeps_ite)

theorem keeps_State_bootStart {P : State → Prop} (hP : K0 P) {s kcrcOk us} (h_s : P s) :
    P (State.bootStart s kcrcOk us) := by
  unfold State.bootStart
  repeat' (first
    | with_reducible assumption
    | with_reducible apply keeps_State_send
    | with_reducible apply keeps_State_setReg
    | with_reducible apply keeps_State_pairStart
    | with_reducible apply keeps_State_enWrite
    | with_reducible apply keeps_State_setBoot
    | with_reducible apply keeps_State_bootAt
    | with_reducible apply keeps_foldl
    | with_reducible intro _)

theorem keeps_State_bootFirmware {P : State → Prop} (hP : K1 P) {s kcrcOk us} (h_s : P s) :
    P (State.bootFirmware s kcrcOk us) := by
  unfold State.bootFirmware
  have hm := hP.toKm
  have h0 := hm.toK0
  repeat' (first
    | with_reducible assumption
    | with_reducible apply keeps_State_imgLoad
    | with_reducible apply keeps_State_bootStart
    | with_reducible apply keeps_State_loaderMode
    | with_reducible apply keeps_State_bootAt
    | (extract_lets +onlyGivenNames x; (have hx : P x := ?_); clear_value x; revert x; intro y hy; rotate_left; unfold x; clear x)
    | (extract_lets +onlyGivenNames x; clear_value x; revert x; intro y)
    | with_reducible apply keeps_ite)

theorem keeps_State_bootRun {P : State → Prop} (hP : K1 P) {s bad mems ddr kcrcOk us} (h_s : P s) :
    P (State.bootRun s bad mems ddr kcrcOk us) := by
  unfold State.bootRun
  have hm := hP.toKm
  have h0 := hm.toK0
  repeat' (first
    | with_reducible assumption
    | with_reducible apply keeps_State_bootDdr
    | with_reducible apply keeps_State_bootFirmware
    | with_reducible apply keeps_State_imgLoad
    | with_reducible apply keeps_State_bootProfile
    | with_reducible apply keeps_State_send
    | with_reducible apply keeps_State_pairFaultAct
    | with_reducible apply keeps_State_free
    | with_reducible apply keeps_State_bootHalt
    | with_reducible apply keeps_State_bootTest
    | with_reducible apply keeps_State_holdApc
    | with_reducible apply keeps_State_ev
    | with_reducible apply keeps_State_dieLinksOn
    | with_reducible apply keeps_State_setReg
    | with_reducible apply keeps_State_setBoot
    | with_reducible apply keeps_foldl
    | with_reducible intro _
    | (extract_lets +onlyGivenNames x; (have hx : P x := ?_); clear_value x; revert x; intro y hy; rotate_left; unfold x; clear x)
    | (extract_lets +onlyGivenNames x; (have hx : P x.2 := ?_); clear_value x; revert x; intro y hy; rotate_left; unfold x; clear x)
    | (extract_lets +onlyGivenNames x; clear_value x; revert x; intro y)
    | with_reducible apply keeps_ite)

theorem keeps_execBoot {P : State → Prop} (hP : K1 P) {bad mems ddr kcrcOk us s} (h_s : P s) :
    OutP P ((execBoot bad mems ddr kcrcOk us s)) := by
  unfold execBoot
  have hm := hP.toKm
  have h0 := hm.toK0
  repeat' (first
    | with_reducible assumption
    | with_reducible apply keeps_State_bootRun
    | with_reducible apply OutP.next
    | with_reducible apply keeps_ite)

end Sys2Proof.Machine
end

