-- ==== Sys2Proof/Laws/KClock.lean ====
section
/-! SUPPORT. What the operations of Machine.Clock keep. -/

namespace Sys2Proof.Machine

open Host (Outcome)

theorem keeps_State_aonTick {P : State → Prop} (hP : K0 P) {s} (h_s : P s) :
    P (State.aonTick s) := by
  unfold State.aonTick
  repeat' (first
    | with_reducible assumption
    | with_reducible apply keeps_State_alarm
    | with_reducible apply keeps_State_setReg64
    | with_reducible apply keeps_State_setSup
    | (extract_lets +onlyGivenNames x; (have hx : P x := ?_); clear_value x; revert x; intro y hy; rotate_left; unfold x; clear x)
    | (extract_lets +onlyGivenNames x; clear_value x; revert x; intro y)
    | with_reducible apply keeps_ite)

theorem keeps_State_tick {P : State → Prop} (hP : K1 P) {s} (h_s : P s) :
    P (State.tick s) := by
  unfold State.tick
  have hm := hP.toKm
  have h0 := hm.toK0
  repeat' (first
    | with_reducible assumption
    | with_reducible apply keeps_State_aonTick
    | with_reducible apply keeps_State_procTick
    | with_reducible apply keeps_State_beamTick
    | with_reducible apply keeps_State_digTick
    | with_reducible apply keeps_ite)

end Sys2Proof.Machine
end

