-- ==== Sys2Proof/Laws/KConvDone.lean ====
section
/-! SUPPORT. What the operations of Machine.ConvDone keep. -/

namespace Sys2Proof.Machine

open Host (Outcome)

theorem keeps_execConversionDone {P : State → Prop} (hP : K0 P) {k c samples s} (h_s : P s) :
    OutP P ((execConversionDone k c samples s)) := by
  unfold execConversionDone
  repeat' (first
    | with_reducible assumption
    | with_reducible apply keeps_State_eisSlot
    | with_reducible apply keeps_State_tallySlots
    | with_reducible apply keeps_State_diagSlots
    | with_reducible apply keeps_State_alCheck
    | with_reducible apply keeps_State_convDone
    | with_reducible apply keeps_State_injTake
    | with_reducible apply keeps_foldl
    | with_reducible apply OutP.next
    | with_reducible intro _
    | (extract_lets +onlyGivenNames x; (have hx : P x.2 := ?_); clear_value x; revert x; intro y hy; rotate_left; unfold x; clear x)
    | with_reducible apply keeps_ite
    | with_reducible apply keeps_ite2
    | split)

end Sys2Proof.Machine
end

