-- ==== Sys2Proof/Laws/KFrameEvents.lean ====
section
/-! SUPPORT. What the operations of Machine.FrameEvents keep. -/

namespace Sys2Proof.Machine

open Host (Outcome)

theorem keeps_execCgStart {P : State → Prop} (hP : K0 P) {g s} (h_s : P s) :
    OutP P ((execCgStart g s)) := by
  unfold execCgStart
  repeat' (first
    | with_reducible assumption
    | with_reducible apply keeps_State_markBoundary
    | with_reducible apply OutP.next
    | with_reducible apply keeps_ite)

theorem keeps_State_takeMid {P : State → Prop} (hP : K0 P) {s n} (h_s : P s) :
    P (State.takeMid s n) := by
  unfold State.takeMid
  repeat' (first
    | with_reducible assumption
    | with_reducible apply keeps_State_setRod
    | with_reducible apply keeps_State_rodFrame
    | with_reducible apply keeps_State_cntLatch
    | (extract_lets +onlyGivenNames x; clear_value x; revert x; intro y)
    | split)

theorem keeps_execMidFrame {P : State → Prop} (hP : K0 P) {g n s} (h_s : P s) :
    OutP P ((execMidFrame g n s)) := by
  unfold execMidFrame
  repeat' (first
    | with_reducible assumption
    | with_reducible apply keeps_State_takeMid
    | with_reducible apply OutP.next
    | with_reducible apply keeps_ite)

theorem keeps_State_tjUpdate {P : State → Prop} (hP : K0 P) {s n m dt} (h_s : P s) :
    P (State.tjUpdate s n m dt) := by
  unfold State.tjUpdate
  repeat' (first
    | with_reducible assumption
    | with_reducible apply keeps_State_setLife
    | with_reducible apply keeps_State_setReg
    | (extract_lets +onlyGivenNames x; (have hx : P x := ?_); clear_value x; revert x; intro y hy; rotate_left; unfold x; clear x)
    | (extract_lets +onlyGivenNames x; clear_value x; revert x; intro y)
    | with_reducible apply keeps_ite)

theorem keeps_State_periodFrame {P : State → Prop} (hP : K0 P) {s n u} (h_s : P s) :
    P (State.periodFrame s n u) := by
  unfold State.periodFrame
  repeat' (first
    | with_reducible assumption
    | with_reducible apply keeps_State_angAge
    | with_reducible apply keeps_State_cntLatch
    | with_reducible apply keeps_State_descentFrame
    | with_reducible apply keeps_State_setRod
    | with_reducible apply keeps_State_tjUpdate
    | with_reducible apply keeps_State_rodFrame
    | with_reducible apply keeps_State_commitApply
    | with_reducible apply keeps_foldl
    | with_reducible intro _)

theorem keeps_State_takeFrame {P : State → Prop} (hP : K0 P) {s n} (h_s : P s) :
    P (State.takeFrame s n) := by
  unfold State.takeFrame
  repeat' (first
    | with_reducible assumption
    | with_reducible apply keeps_State_setRod
    | with_reducible apply keeps_State_periodFrame
    | (extract_lets +onlyGivenNames x; clear_value x; revert x; intro y)
    | split)

theorem keeps_execCarrierBoundary {P : State → Prop} (hP : K0 P) {g n s} (h_s : P s) :
    OutP P ((execCarrierBoundary g n s)) := by
  unfold execCarrierBoundary
  repeat' (first
    | with_reducible assumption
    | with_reducible apply keeps_State_takeFrame
    | with_reducible apply keeps_State_markBoundary
    | with_reducible apply OutP.next
    | with_reducible apply keeps_ite
    | split)

end Sys2Proof.Machine
end

