-- ==== Sys2Proof/Laws/KReckInt.lean ====
section
/-! SUPPORT. What the operations of Machine.ReckInt keep. -/

namespace Sys2Proof.Machine

open Host (Outcome)

theorem keeps_State_shInstr {P : State → Prop} (hP : K0 P) {s k op f} (h_s : P s) :
    P (State.shInstr s k op f) := by
  unfold State.shInstr
  repeat' (first
    | with_reducible assumption
    | with_reducible apply keeps_State_finishI
    | with_reducible apply keeps_State_instr
    | with_reducible intro _)

theorem keeps_execShrai {P : State → Prop} (hP : K0 P) {k s} (h_s : P s) :
    OutP P ((execShrai k s)) := by
  unfold execShrai
  repeat' (first
    | with_reducible assumption
    | with_reducible apply keeps_State_shInstr
    | with_reducible apply OutP.next)

theorem keeps_execShri {P : State → Prop} (hP : K0 P) {k s} (h_s : P s) :
    OutP P ((execShri k s)) := by
  unfold execShri
  repeat' (first
    | with_reducible assumption
    | with_reducible apply keeps_State_shInstr
    | with_reducible apply OutP.next)

theorem keeps_execShli {P : State → Prop} (hP : K0 P) {k s} (h_s : P s) :
    OutP P ((execShli k s)) := by
  unfold execShli
  repeat' (first
    | with_reducible assumption
    | with_reducible apply keeps_State_shInstr
    | with_reducible apply OutP.next)

theorem keeps_execCmpi {P : State → Prop} (hP : K0 P) {k s} (h_s : P s) :
    OutP P ((execCmpi k s)) := by
  unfold execCmpi
  repeat' (first
    | with_reducible assumption
    | with_reducible apply keeps_State_iInstr
    | with_reducible apply OutP.next)

theorem keeps_execLui {P : State → Prop} (hP : K0 P) {k s} (h_s : P s) :
    OutP P ((execLui k s)) := by
  unfold execLui
  repeat' (first
    | with_reducible assumption
    | with_reducible apply keeps_State_iInstr
    | with_reducible apply OutP.next)

theorem keeps_execXori {P : State → Prop} (hP : K0 P) {k s} (h_s : P s) :
    OutP P ((execXori k s)) := by
  unfold execXori
  repeat' (first
    | with_reducible assumption
    | with_reducible apply keeps_State_iInstr
    | with_reducible apply OutP.next)

theorem keeps_execOri {P : State → Prop} (hP : K0 P) {k s} (h_s : P s) :
    OutP P ((execOri k s)) := by
  unfold execOri
  repeat' (first
    | with_reducible assumption
    | with_reducible apply keeps_State_iInstr
    | with_reducible apply OutP.next)

theorem keeps_execAndi {P : State → Prop} (hP : K0 P) {k s} (h_s : P s) :
    OutP P ((execAndi k s)) := by
  unfold execAndi
  repeat' (first
    | with_reducible assumption
    | with_reducible apply keeps_State_iInstr
    | with_reducible apply OutP.next)

theorem keeps_execAddi {P : State → Prop} (hP : K0 P) {k s} (h_s : P s) :
    OutP P ((execAddi k s)) := by
  unfold execAddi
  repeat' (first
    | with_reducible assumption
    | with_reducible apply keeps_State_iInstr
    | with_reducible apply OutP.next)

theorem keeps_execQtof {P : State → Prop} (hP : K0 P) {k s} (h_s : P s) :
    OutP P ((execQtof k s)) := by
  unfold execQtof
  repeat' (first
    | with_reducible assumption
    | with_reducible apply keeps_State_rInstr
    | with_reducible apply OutP.next)

theorem keeps_execFtoq {P : State → Prop} (hP : K0 P) {k s} (h_s : P s) :
    OutP P ((execFtoq k s)) := by
  unfold execFtoq
  repeat' (first
    | with_reducible assumption
    | with_reducible apply keeps_State_rInstr
    | with_reducible apply OutP.next)

theorem keeps_execItof {P : State → Prop} (hP : K0 P) {k s} (h_s : P s) :
    OutP P ((execItof k s)) := by
  unfold execItof
  repeat' (first
    | with_reducible assumption
    | with_reducible apply keeps_State_rInstr
    | with_reducible apply OutP.next)

theorem keeps_execFtoi {P : State → Prop} (hP : K0 P) {k s} (h_s : P s) :
    OutP P ((execFtoi k s)) := by
  unfold execFtoi
  repeat' (first
    | with_reducible assumption
    | with_reducible apply keeps_State_rInstr
    | with_reducible apply OutP.next)

theorem keeps_execFlim {P : State → Prop} (hP : K0 P) {k s} (h_s : P s) :
    OutP P ((execFlim k s)) := by
  unfold execFlim
  repeat' (first
    | with_reducible assumption
    | with_reducible apply keeps_State_rInstr
    | with_reducible apply OutP.next)

theorem keeps_execFcmp {P : State → Prop} (hP : K0 P) {k s} (h_s : P s) :
    OutP P ((execFcmp k s)) := by
  unfold execFcmp
  repeat' (first
    | with_reducible assumption
    | with_reducible apply keeps_State_rInstr
    | with_reducible apply OutP.next)

theorem keeps_execFneg {P : State → Prop} (hP : K0 P) {k s} (h_s : P s) :
    OutP P ((execFneg k s)) := by
  unfold execFneg
  repeat' (first
    | with_reducible assumption
    | with_reducible apply keeps_State_rInstr
    | with_reducible apply OutP.next)

theorem keeps_execFabs {P : State → Prop} (hP : K0 P) {k s} (h_s : P s) :
    OutP P ((execFabs k s)) := by
  unfold execFabs
  repeat' (first
    | with_reducible assumption
    | with_reducible apply keeps_State_rInstr
    | with_reducible apply OutP.next)

theorem keeps_execFmax {P : State → Prop} (hP : K0 P) {k s} (h_s : P s) :
    OutP P ((execFmax k s)) := by
  unfold execFmax
  repeat' (first
    | with_reducible assumption
    | with_reducible apply keeps_State_rInstr
    | with_reducible apply OutP.next)

theorem keeps_execFmin {P : State → Prop} (hP : K0 P) {k s} (h_s : P s) :
    OutP P ((execFmin k s)) := by
  unfold execFmin
  repeat' (first
    | with_reducible assumption
    | with_reducible apply keeps_State_rInstr
    | with_reducible apply OutP.next)

theorem keeps_execFsqrt {P : State → Prop} (hP : K0 P) {k s} (h_s : P s) :
    OutP P ((execFsqrt k s)) := by
  unfold execFsqrt
  repeat' (first
    | with_reducible assumption
    | with_reducible apply keeps_State_rInstr
    | with_reducible apply OutP.next)

theorem keeps_execFms {P : State → Prop} (hP : K0 P) {k s} (h_s : P s) :
    OutP P ((execFms k s)) := by
  unfold execFms
  repeat' (first
    | with_reducible assumption
    | with_reducible apply keeps_State_rInstr
    | with_reducible apply OutP.next)

theorem keeps_execFma {P : State → Prop} (hP : K0 P) {k s} (h_s : P s) :
    OutP P ((execFma k s)) := by
  unfold execFma
  repeat' (first
    | with_reducible assumption
    | with_reducible apply keeps_State_rInstr
    | with_reducible apply OutP.next)

theorem keeps_execFdiv {P : State → Prop} (hP : K0 P) {k s} (h_s : P s) :
    OutP P ((execFdiv k s)) := by
  unfold execFdiv
  repeat' (first
    | with_reducible assumption
    | with_reducible apply keeps_State_rInstr
    | with_reducible apply OutP.next)

theorem keeps_execFmul {P : State → Prop} (hP : K0 P) {k s} (h_s : P s) :
    OutP P ((execFmul k s)) := by
  unfold execFmul
  repeat' (first
    | with_reducible assumption
    | with_reducible apply keeps_State_rInstr
    | with_reducible apply OutP.next)

theorem keeps_execFsub {P : State → Prop} (hP : K0 P) {k s} (h_s : P s) :
    OutP P ((execFsub k s)) := by
  unfold execFsub
  repeat' (first
    | with_reducible assumption
    | with_reducible apply keeps_State_rInstr
    | with_reducible apply OutP.next)

theorem keeps_execFadd {P : State → Prop} (hP : K0 P) {k s} (h_s : P s) :
    OutP P ((execFadd k s)) := by
  unfold execFadd
  repeat' (first
    | with_reducible assumption
    | with_reducible apply keeps_State_rInstr
    | with_reducible apply OutP.next)

theorem keeps_execQdiv {P : State → Prop} (hP : K0 P) {k s} (h_s : P s) :
    OutP P ((execQdiv k s)) := by
  unfold execQdiv
  repeat' (first
    | with_reducible assumption
    | with_reducible apply keeps_State_rInstr
    | with_reducible apply OutP.next)

theorem keeps_execQmsu {P : State → Prop} (hP : K0 P) {k s} (h_s : P s) :
    OutP P ((execQmsu k s)) := by
  unfold execQmsu
  repeat' (first
    | with_reducible assumption
    | with_reducible apply keeps_State_rInstr
    | with_reducible apply OutP.next)

theorem keeps_execQmac {P : State → Prop} (hP : K0 P) {k s} (h_s : P s) :
    OutP P ((execQmac k s)) := by
  unfold execQmac
  repeat' (first
    | with_reducible assumption
    | with_reducible apply keeps_State_rInstr
    | with_reducible apply OutP.next)

theorem keeps_execQmul {P : State → Prop} (hP : K0 P) {k s} (h_s : P s) :
    OutP P ((execQmul k s)) := by
  unfold execQmul
  repeat' (first
    | with_reducible assumption
    | with_reducible apply keeps_State_rInstr
    | with_reducible apply OutP.next)

theorem keeps_execSath {P : State → Prop} (hP : K0 P) {k s} (h_s : P s) :
    OutP P ((execSath k s)) := by
  unfold execSath
  repeat' (first
    | with_reducible assumption
    | with_reducible apply keeps_State_rInstr
    | with_reducible apply OutP.next)

theorem keeps_execShls {P : State → Prop} (hP : K0 P) {k s} (h_s : P s) :
    OutP P ((execShls k s)) := by
  unfold execShls
  repeat' (first
    | with_reducible assumption
    | with_reducible apply keeps_State_rInstr
    | with_reducible apply OutP.next)

theorem keeps_execAbss {P : State → Prop} (hP : K0 P) {k s} (h_s : P s) :
    OutP P ((execAbss k s)) := by
  unfold execAbss
  repeat' (first
    | with_reducible assumption
    | with_reducible apply keeps_State_rInstr
    | with_reducible apply OutP.next)

theorem keeps_execAbs {P : State → Prop} (hP : K0 P) {k s} (h_s : P s) :
    OutP P ((execAbs k s)) := by
  unfold execAbs
  repeat' (first
    | with_reducible assumption
    | with_reducible apply keeps_State_rInstr
    | with_reducible apply OutP.next)

theorem keeps_execNegs {P : State → Prop} (hP : K0 P) {k s} (h_s : P s) :
    OutP P ((execNegs k s)) := by
  unfold execNegs
  repeat' (first
    | with_reducible assumption
    | with_reducible apply keeps_State_rInstr
    | with_reducible apply OutP.next)

theorem keeps_execSubs {P : State → Prop} (hP : K0 P) {k s} (h_s : P s) :
    OutP P ((execSubs k s)) := by
  unfold execSubs
  repeat' (first
    | with_reducible assumption
    | with_reducible apply keeps_State_rInstr
    | with_reducible apply OutP.next)

theorem keeps_execAdds {P : State → Prop} (hP : K0 P) {k s} (h_s : P s) :
    OutP P ((execAdds k s)) := by
  unfold execAdds
  repeat' (first
    | with_reducible assumption
    | with_reducible apply keeps_State_rInstr
    | with_reducible apply OutP.next)

theorem keeps_execPackh {P : State → Prop} (hP : K0 P) {k s} (h_s : P s) :
    OutP P ((execPackh k s)) := by
  unfold execPackh
  repeat' (first
    | with_reducible assumption
    | with_reducible apply keeps_State_rInstr
    | with_reducible apply OutP.next)

theorem keeps_execExthh {P : State → Prop} (hP : K0 P) {k s} (h_s : P s) :
    OutP P ((execExthh k s)) := by
  unfold execExthh
  repeat' (first
    | with_reducible assumption
    | with_reducible apply keeps_State_rInstr
    | with_reducible apply OutP.next)

theorem keeps_execExth {P : State → Prop} (hP : K0 P) {k s} (h_s : P s) :
    OutP P ((execExth k s)) := by
  unfold execExth
  repeat' (first
    | with_reducible assumption
    | with_reducible apply keeps_State_rInstr
    | with_reducible apply OutP.next)

theorem keeps_execClz {P : State → Prop} (hP : K0 P) {k s} (h_s : P s) :
    OutP P ((execClz k s)) := by
  unfold execClz
  repeat' (first
    | with_reducible assumption
    | with_reducible apply keeps_State_rInstr
    | with_reducible apply OutP.next)

theorem keeps_execSel {P : State → Prop} (hP : K0 P) {k s} (h_s : P s) :
    OutP P ((execSel k s)) := by
  unfold execSel
  repeat' (first
    | with_reducible assumption
    | with_reducible apply keeps_State_finishI
    | with_reducible apply keeps_State_instr
    | with_reducible apply OutP.next
    | with_reducible intro _)

theorem keeps_execLimit {P : State → Prop} (hP : K0 P) {k s} (h_s : P s) :
    OutP P ((execLimit k s)) := by
  unfold execLimit
  repeat' (first
    | with_reducible assumption
    | with_reducible apply keeps_State_rInstr
    | with_reducible apply OutP.next)

theorem keeps_execMax {P : State → Prop} (hP : K0 P) {k s} (h_s : P s) :
    OutP P ((execMax k s)) := by
  unfold execMax
  repeat' (first
    | with_reducible assumption
    | with_reducible apply keeps_State_rInstr
    | with_reducible apply OutP.next)

theorem keeps_execMin {P : State → Prop} (hP : K0 P) {k s} (h_s : P s) :
    OutP P ((execMin k s)) := by
  unfold execMin
  repeat' (first
    | with_reducible assumption
    | with_reducible apply keeps_State_rInstr
    | with_reducible apply OutP.next)

theorem keeps_execRemu {P : State → Prop} (hP : K0 P) {k s} (h_s : P s) :
    OutP P ((execRemu k s)) := by
  unfold execRemu
  repeat' (first
    | with_reducible assumption
    | with_reducible apply keeps_State_rInstr
    | with_reducible apply OutP.next)

theorem keeps_execRem {P : State → Prop} (hP : K0 P) {k s} (h_s : P s) :
    OutP P ((execRem k s)) := by
  unfold execRem
  repeat' (first
    | with_reducible assumption
    | with_reducible apply keeps_State_rInstr
    | with_reducible apply OutP.next)

theorem keeps_execDivu {P : State → Prop} (hP : K0 P) {k s} (h_s : P s) :
    OutP P ((execDivu k s)) := by
  unfold execDivu
  repeat' (first
    | with_reducible assumption
    | with_reducible apply keeps_State_rInstr
    | with_reducible apply OutP.next)

theorem keeps_execDiv {P : State → Prop} (hP : K0 P) {k s} (h_s : P s) :
    OutP P ((execDiv k s)) := by
  unfold execDiv
  repeat' (first
    | with_reducible assumption
    | with_reducible apply keeps_State_rInstr
    | with_reducible apply OutP.next)

theorem keeps_execMulhu {P : State → Prop} (hP : K0 P) {k s} (h_s : P s) :
    OutP P ((execMulhu k s)) := by
  unfold execMulhu
  repeat' (first
    | with_reducible assumption
    | with_reducible apply keeps_State_rInstr
    | with_reducible apply OutP.next)

theorem keeps_execMulh {P : State → Prop} (hP : K0 P) {k s} (h_s : P s) :
    OutP P ((execMulh k s)) := by
  unfold execMulh
  repeat' (first
    | with_reducible assumption
    | with_reducible apply keeps_State_rInstr
    | with_reducible apply OutP.next)

theorem keeps_execMul {P : State → Prop} (hP : K0 P) {k s} (h_s : P s) :
    OutP P ((execMul k s)) := by
  unfold execMul
  repeat' (first
    | with_reducible assumption
    | with_reducible apply keeps_State_rInstr
    | with_reducible apply OutP.next)

theorem keeps_execShra {P : State → Prop} (hP : K0 P) {k s} (h_s : P s) :
    OutP P ((execShra k s)) := by
  unfold execShra
  repeat' (first
    | with_reducible assumption
    | with_reducible apply keeps_State_rInstr
    | with_reducible apply OutP.next)

theorem keeps_execShr {P : State → Prop} (hP : K0 P) {k s} (h_s : P s) :
    OutP P ((execShr k s)) := by
  unfold execShr
  repeat' (first
    | with_reducible assumption
    | with_reducible apply keeps_State_rInstr
    | with_reducible apply OutP.next)

theorem keeps_execShl {P : State → Prop} (hP : K0 P) {k s} (h_s : P s) :
    OutP P ((execShl k s)) := by
  unfold execShl
  repeat' (first
    | with_reducible assumption
    | with_reducible apply keeps_State_rInstr
    | with_reducible apply OutP.next)

theorem keeps_execXor {P : State → Prop} (hP : K0 P) {k s} (h_s : P s) :
    OutP P ((execXor k s)) := by
  unfold execXor
  repeat' (first
    | with_reducible assumption
    | with_reducible apply keeps_State_rInstr
    | with_reducible apply OutP.next)

theorem keeps_execOr {P : State → Prop} (hP : K0 P) {k s} (h_s : P s) :
    OutP P ((execOr k s)) := by
  unfold execOr
  repeat' (first
    | with_reducible assumption
    | with_reducible apply keeps_State_rInstr
    | with_reducible apply OutP.next)

theorem keeps_execAnd {P : State → Prop} (hP : K0 P) {k s} (h_s : P s) :
    OutP P ((execAnd k s)) := by
  unfold execAnd
  repeat' (first
    | with_reducible assumption
    | with_reducible apply keeps_State_rInstr
    | with_reducible apply OutP.next)

theorem keeps_execCmp {P : State → Prop} (hP : K0 P) {k s} (h_s : P s) :
    OutP P ((execCmp k s)) := by
  unfold execCmp
  repeat' (first
    | with_reducible assumption
    | with_reducible apply keeps_State_rInstr
    | with_reducible apply OutP.next)

theorem keeps_execNeg {P : State → Prop} (hP : K0 P) {k s} (h_s : P s) :
    OutP P ((execNeg k s)) := by
  unfold execNeg
  repeat' (first
    | with_reducible assumption
    | with_reducible apply keeps_State_rInstr
    | with_reducible apply OutP.next)

theorem keeps_execSbc {P : State → Prop} (hP : K0 P) {k s} (h_s : P s) :
    OutP P ((execSbc k s)) := by
  unfold execSbc
  repeat' (first
    | with_reducible assumption
    | with_reducible apply keeps_State_rInstr
    | with_reducible apply OutP.next)

theorem keeps_execSub {P : State → Prop} (hP : K0 P) {k s} (h_s : P s) :
    OutP P ((execSub k s)) := by
  unfold execSub
  repeat' (first
    | with_reducible assumption
    | with_reducible apply keeps_State_rInstr
    | with_reducible apply OutP.next)

theorem keeps_execAdc {P : State → Prop} (hP : K0 P) {k s} (h_s : P s) :
    OutP P ((execAdc k s)) := by
  unfold execAdc
  repeat' (first
    | with_reducible assumption
    | with_reducible apply keeps_State_rInstr
    | with_reducible apply OutP.next)

theorem keeps_execAdd {P : State → Prop} (hP : K0 P) {k s} (h_s : P s) :
    OutP P ((execAdd k s)) := by
  unfold execAdd
  repeat' (first
    | with_reducible assumption
    | with_reducible apply keeps_State_rInstr
    | with_reducible apply OutP.next)

end Sys2Proof.Machine
end

