-- ==== Sys2Proof/Laws/KRest.lean ====
section
/-! SUPPORT. What the operations of Machine.Rest keep. -/

namespace Sys2Proof.Machine

open Host (Outcome)

theorem keeps_execDomainWakeDone {P : State → Prop} (hP : K1 P) {i s} (h_s : P s) :
    OutP P ((execDomainWakeDone i s)) := by
  unfold execDomainWakeDone
  have hm := hP.toKm
  have h0 := hm.toK0
  repeat' (first
    | with_reducible assumption
    | with_reducible apply keeps_State_domDone
    | with_reducible apply OutP.next
    | with_reducible apply keeps_ite)

theorem keeps_State_domBack {P : State → Prop} (hP : K1 P) {s d} (h_s : P s) :
    P (State.domBack s d) := by
  unfold State.domBack
  have hm := hP.toKm
  have h0 := hm.toK0
  repeat' (first
    | with_reducible assumption
    | with_reducible apply keeps_State_domDone
    | with_reducible apply keeps_ite
    | split)

theorem keeps_State_leaveRest {P : State → Prop} (hP : K1 P) {s} (h_s : P s) :
    P (State.leaveRest s) := by
  unfold State.leaveRest
  have hm := hP.toKm
  have h0 := hm.toK0
  repeat' (first
    | with_reducible assumption
    | with_reducible apply keeps_State_hartIrq
    | with_reducible apply keeps_State_thermWake
    | with_reducible apply keeps_State_safeWake
    | with_reducible apply keeps_State_tallyEnable
    | with_reducible apply keeps_State_pllLock
    | with_reducible apply keeps_State_rdResume
    | with_reducible apply keeps_State_dieLinksOn
    | with_reducible apply keeps_State_domBack
    | with_reducible apply keeps_foldl
    | with_reducible intro _
    | with_reducible apply keeps_ite)

theorem keeps_State_leaveDeep {P : State → Prop} (hP : K1 P) {s} (h_s : P s) :
    P (State.leaveDeep s) := by
  unfold State.leaveDeep
  have hm := hP.toKm
  have h0 := hm.toK0
  repeat' (first
    | with_reducible assumption
    | with_reducible apply keeps_State_setDom
    | with_reducible apply keeps_State_pllLock
    | with_reducible apply keeps_State_resetDoms
    | with_reducible apply keeps_State_clk
    | with_reducible apply keeps_foldl
    | with_reducible intro _)

theorem keeps_execWakeComplete {P : State → Prop} (hP : K1 P) {us s} (h_s : P s) :
    OutP P ((execWakeComplete us s)) := by
  unfold execWakeComplete
  have hm := hP.toKm
  have h0 := hm.toK0
  repeat' (first
    | with_reducible assumption
    | with_reducible apply keeps_State_leaveRest
    | with_reducible apply keeps_State_leaveDeep
    | with_reducible apply keeps_State_setRest
    | with_reducible apply keeps_State_setReg
    | with_reducible apply keeps_State_set
    | with_reducible apply keeps_State_ev
    | with_reducible apply OutP.next
    | (extract_lets +onlyGivenNames x; (have hx : P x := ?_); clear_value x; revert x; intro y hy; rotate_left; unfold x; clear x)
    | (extract_lets +onlyGivenNames x; clear_value x; revert x; intro y)
    | with_reducible apply keeps_ite
    | with_reducible apply outP_ite)

theorem keeps_execEnterRest {P : State → Prop} (hP : K0 P) {stop s} (h_s : P s) :
    OutP P ((execEnterRest stop s)) := by
  unfold execEnterRest
  repeat' (first
    | with_reducible assumption
    | with_reducible apply keeps_State_setProc
    | with_reducible apply keeps_State_showApc
    | with_reducible apply keeps_State_slotAbandon
    | with_reducible apply keeps_State_restSteps
    | with_reducible apply keeps_State_applyStopped
    | with_reducible apply keeps_State_enter
    | with_reducible apply OutP.next
    | with_reducible intro _
    | with_reducible apply keeps_ite)

end Sys2Proof.Machine
end

