-- ==== Sys2Proof/Laws/KSafeMsg.lean ====
section
/-! SUPPORT. What the operations of Machine.SafeMsg keep. -/

namespace Sys2Proof.Machine

open Host (Outcome)

theorem keeps_State_connDemand {P : State → Prop} (hP : K0 P) {s j code} (h_s : P s) :
    P (State.connDemand s j code) := by
  unfold State.connDemand
  repeat' (first
    | with_reducible assumption
    | with_reducible apply keeps_State_demand)

theorem keeps_execSafeMsgWdt {P : State → Prop} (hP : K0 P) {j s} (h_s : P s) :
    OutP P ((execSafeMsgWdt j s)) := by
  unfold execSafeMsgWdt
  repeat' (first
    | with_reducible assumption
    | with_reducible apply keeps_State_set
    | with_reducible apply keeps_State_connDemand
    | with_reducible apply OutP.next
    | with_reducible apply outP_ite)

theorem keeps_execSingleLimExpire {P : State → Prop} (hP : K0 P) {j s} (h_s : P s) :
    OutP P ((execSingleLimExpire j s)) := by
  unfold execSingleLimExpire
  repeat' (first
    | with_reducible assumption
    | with_reducible apply keeps_State_set
    | with_reducible apply keeps_State_connDemand
    | with_reducible apply OutP.next
    | with_reducible apply outP_ite)

theorem keeps_State_setConn {P : State → Prop} (hP : K0 P) {s j x} (h_s : P s) :
    P (State.setConn s j x) := by
  unfold State.setConn
  repeat' (first
    | with_reducible assumption
    | with_reducible apply keeps_State_setSafe)

theorem keeps_execPairWinExpire {P : State → Prop} (hP : K0 P) {j s} (h_s : P s) :
    OutP P ((execPairWinExpire j s)) := by
  unfold execPairWinExpire
  repeat' (first
    | with_reducible assumption
    | with_reducible apply keeps_State_set
    | with_reducible apply keeps_State_ev
    | with_reducible apply keeps_State_setConn
    | with_reducible apply OutP.next
    | (extract_lets +onlyGivenNames x; clear_value x; revert x; intro y)
    | split)

theorem keeps_State_connPair {P : State → Prop} (hP : K0 P) {s j} (h_s : P s) :
    P (State.connPair s j) := by
  unfold State.connPair
  repeat' (first
    | with_reducible assumption
    | with_reducible apply keeps_State_setConn
    | with_reducible apply keeps_State_set)

theorem keeps_State_connAccept {P : State → Prop} (hP : K0 P) {s j eth b seq dem} (h_s : P s) :
    P (State.connAccept s j eth b seq dem) := by
  unfold State.connAccept
  repeat' (first
    | with_reducible assumption
    | with_reducible apply keeps_State_incF
    | with_reducible apply keeps_State_connPair
    | with_reducible apply keeps_State_connDemand
    | with_reducible apply keeps_State_setConn
    | with_reducible apply keeps_State_set
    | with_reducible apply keeps_State_setB
    | (extract_lets +onlyGivenNames x; (have hx : P x := ?_); clear_value x; revert x; intro y hy; rotate_left; unfold x; clear x)
    | (extract_lets +onlyGivenNames x; clear_value x; revert x; intro y)
    | with_reducible apply keeps_ite
    | split)

theorem keeps_execSafeMsgRx {P : State → Prop} (hP : K0 P) {eth b s} (h_s : P s) :
    OutP P ((execSafeMsgRx eth b s)) := by
  unfold execSafeMsgRx
  repeat' (first
    | with_reducible assumption
    | with_reducible apply keeps_State_connAccept
    | with_reducible apply keeps_State_incF
    | with_reducible apply keeps_State_injTake
    | with_reducible apply keeps_foldl
    | with_reducible apply OutP.next
    | with_reducible intro _
    | (extract_lets +onlyGivenNames x; (have hx : P x := ?_); clear_value x; revert x; intro y hy; rotate_left; unfold x; clear x)
    | (extract_lets +onlyGivenNames x; (have hx : P x.2 := ?_); clear_value x; revert x; intro y hy; rotate_left; unfold x; clear x)
    | (extract_lets +onlyGivenNames x; clear_value x; revert x; intro y)
    | with_reducible apply keeps_ite
    | with_reducible apply keeps_ite2
    | with_reducible apply outP_ite)

theorem keeps_execSafeMsgTx {P : State → Prop} (hP : K0 P) {s} (h_s : P s) :
    OutP P ((execSafeMsgTx s)) := by
  unfold execSafeMsgTx
  repeat' (first
    | with_reducible assumption
    | with_reducible apply keeps_State_send
    | with_reducible apply keeps_State_fabFlood
    | with_reducible apply keeps_State_setSafe
    | with_reducible apply keeps_State_setReg
    | with_reducible apply keeps_State_freeBytes
    | with_reducible apply OutP.next
    | (extract_lets +onlyGivenNames x; (have hx : P x := ?_); clear_value x; revert x; intro y hy; rotate_left; unfold x; clear x)
    | (extract_lets +onlyGivenNames x; (have hx : P x.2 := ?_); clear_value x; revert x; intro y hy; rotate_left; unfold x; clear x)
    | (extract_lets +onlyGivenNames x; clear_value x; revert x; intro y)
    | with_reducible apply outP_ite
    | split)

end Sys2Proof.Machine
end

