-- ==== Sys2Proof/Laws/KDispatch.lean ====
section
/-! SUPPORT. What the operations of Machine.Dispatch keep. -/

namespace Sys2Proof.Machine

open Host (Outcome)

theorem keeps_exec {P : State → Prop} (hP : K1 P) {i s} (h_s : P s) :
    OutP P ((exec i s)) := by
  have hm := hP.toKm
  have h0 := hm.toK0
  exact match i with
  | .registerWrite _ _ _ _ _ => keeps_execRegisterWrite hP h_s
  | .pgCtlLock _ _ => keeps_execPgCtlLock hP h_s
  | .pgCtlDiscard _ _ => keeps_execPgCtlDiscard hP h_s
  | .leaseReq _ _ _ => keeps_execLeaseReq hP h_s
  | .leaseRel _ _ => keeps_execLeaseRel hP h_s
  | .pgCtlEnable _ _ _ => keeps_execPgCtlEnable hP h_s
  | .pwrReqWrite _ _ _ _ => keeps_execPwrReqWrite hP h_s
  | .pgCommit _ _ _ => keeps_execPgCommit hP h_s
  | .commitApply _ => keeps_execCommitApply h0 h_s
  | .injArm _ _ _ _ => keeps_execInjArm hP h_s
  | .leaseExpire _ _ => keeps_execLeaseExpire h0 h_s
  | .leaseOwnerLost _ => keeps_execLeaseOwnerLost h0 h_s
  | .restPageAccess _ _ _ _ _ => keeps_execRestPageAccess hP h_s
  | .domainDrained _ => keeps_execDomainDrained h0 h_s
  | .localAccessTimeout _ _ _ => keeps_execLocalAccessTimeout h0 h_s
  | .remoteTimeout _ _ => keeps_execRemoteTimeout h0 h_s
  | .eventLineDeliver _ => keeps_execEventLineDeliver h0 h_s
  | .nowNsRead _ => keeps_execNowNsRead hP h_s
  | .snap _ => keeps_execSnap h0 h_s
  | .beamSetApply => keeps_execBeamSetApply h0 h_s
  | .timeMessageTx => keeps_execTimeMessageTx h0 h_s
  | .timeMessageRx _ _ => keeps_execTimeMessageRx h0 h_s
  | .masterLoss => keeps_execMasterLoss h0 h_s
  | .parentLoss => keeps_execParentLoss h0 h_s
  | .electRx _ _ _ => keeps_execElectRx h0 h_s
  | .masterTakeover _ => keeps_execMasterTakeover h0 h_s
  | .acquireDwell => keeps_execAcquireDwell h0 h_s
  | .coarseDwell => keeps_execCoarseDwell h0 h_s
  | .masterFineDwell => keeps_execMasterFineDwell h0 h_s
  | .fineLossDwell => keeps_execFineLossDwell h0 h_s
  | .holdoverExpire => keeps_execHoldoverExpire h0 h_s
  | .corrLimitClear => keeps_execCorrLimitClear h0 h_s
  | .ppsInEdge _ _ => keeps_execPpsInEdge h0 h_s
  | .ppsTimeout => keeps_execPpsTimeout h0 h_s
  | .ptpMessage _ => keeps_execPtpMessage h0 h_s
  | .beamStep _ => keeps_execBeamStep h0 h_s
  | .stepApply => keeps_execStepApply h0 h_s
  | .beamSecond => keeps_execBeamSecond h0 h_s
  | .carrierBoundary _ _ => keeps_execCarrierBoundary h0 h_s
  | .midFrame _ _ => keeps_execMidFrame h0 h_s
  | .cgStart _ => keeps_execCgStart h0 h_s
  | .cgLockStart _ => keeps_execCgLockStart h0 h_s
  | .gangTx => keeps_execGangTx h0 h_s
  | .gangRx _ _ _ => keeps_execGangRx h0 h_s
  | .gangMismatchClear _ => keeps_execGangMismatchClear h0 h_s
  | .sampleSyncEdge _ => keeps_execSampleSyncEdge h0 h_s
  | .updateCutoff _ => keeps_execUpdateCutoff h0 h_s
  | .refAbWrite _ _ _ => keeps_execRefAbWrite h0 h_s
  | .refCWrite _ _ _ => keeps_execRefCWrite h0 h_s
  | .modulationEnd _ => keeps_execModulationEnd h0 h_s
  | .edgeFrameTx _ => keeps_execEdgeFrameTx h0 h_s
  | .timeFrameTx _ => keeps_execTimeFrameTx h0 h_s
  | .pingTx _ => keeps_execPingTx h0 h_s
  | .echoRx _ _ _ _ => keeps_execEchoRx h0 h_s
  | .heartbeatRx _ _ => keeps_execHeartbeatRx h0 h_s
  | .faultSetRx _ _ => keeps_execFaultSetRx h0 h_s
  | .tripInnerOff _ => keeps_execTripInnerOff h0 h_s
  | .gateReq _ _ _ => keeps_execGateReq h0 h_s
  | .rspRx _ _ _ => keeps_execRspRx h0 h_s
  | .gateReqRetry _ => keeps_execGateReqRetry h0 h_s
  | .linkSymbolLock _ => keeps_execLinkSymbolLock h0 h_s
  | .linkTrainTimeout _ => keeps_execLinkTrainTimeout h0 h_s
  | .linkLost _ => keeps_execLinkLost h0 h_s
  | .linkRetrain _ => keeps_execLinkRetrain h0 h_s
  | .comparatorFire _ _ _ _ => keeps_execComparatorFire h0 h_s
  | .comparatorRearm _ _ _ => keeps_execComparatorRearm h0 h_s
  | .didtFire _ _ _ => keeps_execDidtFire h0 h_s
  | .blankClose _ _ _ _ => keeps_execBlankClose h0 h_s
  | .rodStart _ _ => keeps_execRodStart h0 h_s
  | .tripPathTest _ => keeps_execTripPathTest h0 h_s
  | .idReadDone _ => keeps_execIdReadDone h0 h_s
  | .rodRun _ _ => keeps_execRodRun h0 h_s
  | .rodStop _ _ => keeps_execRodStop h0 h_s
  | .rodClear _ _ => keeps_execRodClear h0 h_s
  | .swTrip _ _ => keeps_execSwTrip h0 h_s
  | .clrLockout _ _ => keeps_execClrLockout h0 h_s
  | .precharge1tau _ => keeps_execPrecharge1tau h0 h_s
  | .precharge3tau _ => keeps_execPrecharge3tau h0 h_s
  | .holdoffEnd _ => keeps_execHoldoffEnd h0 h_s
  | .feedbackSample _ _ _ => keeps_execFeedbackSample h0 h_s
  | .feedbackTimeout _ _ => keeps_execFeedbackTimeout h0 h_s
  | .voltageEval _ => keeps_execVoltageEval h0 h_s
  | .energiseDone _ => keeps_execEnergiseDone h0 h_s
  | .diagStepEnd _ => keeps_execDiagStepEnd h0 h_s
  | .descentEnd _ => keeps_execDescentEnd h0 h_s
  | .descTimeout _ => keeps_execDescTimeout h0 h_s
  | .disLimExpire _ => keeps_execDisLimExpire h0 h_s
  | .disStopExpire _ => keeps_execDisStopExpire h0 h_s
  | .rainflowTick _ => keeps_execRainflowTick h0 h_s
  | .lifeSnap _ => keeps_execLifeSnap h0 h_s
  | .acqTrigger _ _ _ => keeps_execAcqTrigger h0 h_s
  | .softwareTrigger _ _ _ => keeps_execSoftwareTrigger h0 h_s
  | .seqConversion _ _ => keeps_execSeqConversion h0 h_s
  | .conversionDone _ _ _ => keeps_execConversionDone h0 h_s
  | .urgentRequest _ _ _ _ => keeps_execUrgentRequest h0 h_s
  | .seqTableWrite _ _ _ _ _ _ => keeps_execSeqTableWrite h0 h_s
  | .calConversion _ _ _ => keeps_execCalConversion h0 h_s
  | .calStarved _ _ => keeps_execCalStarved h0 h_s
  | .converterWake _ _ => keeps_execConverterWake h0 h_s
  | .converterReady _ _ => keeps_execConverterReady h0 h_s
  | .digitizerEdge _ _ _ _ _ _ => keeps_execDigitizerEdge h0 h_s
  | .timedCaptureStart _ _ => keeps_execTimedCaptureStart h0 h_s
  | .captureEnd _ _ _ => keeps_execCaptureEnd h0 h_s
  | .featureExtract _ _ => keeps_execFeatureExtract h0 h_s
  | .drainRecord _ => keeps_execDrainRecord hm h_s
  | .digitizerWake _ _ => keeps_execDigitizerWake h0 h_s
  | .reckEnable _ _ => keeps_execReckEnable hP h_s
  | .reckDisable _ _ => keeps_execReckDisable hP h_s
  | .reckStopped _ => keeps_execReckStopped h0 h_s
  | .clrFatal _ _ => keeps_execClrFatal h0 h_s
  | .memDataAccess _ _ _ _ => keeps_execMemDataAccess h0 h_s
  | .reckSwtrig _ _ _ => keeps_execReckSwtrig h0 h_s
  | .reckTriggerEvent _ _ => keeps_execReckTriggerEvent h0 h_s
  | .reckWake _ => keeps_execReckWake h0 h_s
  | .spillComplete _ _ => keeps_execSpillComplete h0 h_s
  | .migrationStart _ => keeps_execMigrationStart h0 h_s
  | .migrationDone _ => keeps_execMigrationDone h0 h_s
  | .illegalInstruction _ _ => keeps_execIllegalInstruction h0 h_s
  | .add _ => keeps_execAdd h0 h_s
  | .adc _ => keeps_execAdc h0 h_s
  | .sub _ => keeps_execSub h0 h_s
  | .sbc _ => keeps_execSbc h0 h_s
  | .neg _ => keeps_execNeg h0 h_s
  | .cmp _ => keeps_execCmp h0 h_s
  | .and _ => keeps_execAnd h0 h_s
  | .or _ => keeps_execOr h0 h_s
  | .xor _ => keeps_execXor h0 h_s
  | .shl _ => keeps_execShl h0 h_s
  | .shr _ => keeps_execShr h0 h_s
  | .shra _ => keeps_execShra h0 h_s
  | .mul _ => keeps_execMul h0 h_s
  | .mulh _ => keeps_execMulh h0 h_s
  | .mulhu _ => keeps_execMulhu h0 h_s
  | .div _ => keeps_execDiv h0 h_s
  | .divu _ => keeps_execDivu h0 h_s
  | .rem _ => keeps_execRem h0 h_s
  | .remu _ => keeps_execRemu h0 h_s
  | .min _ => keeps_execMin h0 h_s
  | .max _ => keeps_execMax h0 h_s
  | .limit _ => keeps_execLimit h0 h_s
  | .sel _ => keeps_execSel h0 h_s
  | .clz _ => keeps_execClz h0 h_s
  | .exth _ => keeps_execExth h0 h_s
  | .exthh _ => keeps_execExthh h0 h_s
  | .packh _ => keeps_execPackh h0 h_s
  | .adds _ => keeps_execAdds h0 h_s
  | .subs _ => keeps_execSubs h0 h_s
  | .negs _ => keeps_execNegs h0 h_s
  | .abs _ => keeps_execAbs h0 h_s
  | .abss _ => keeps_execAbss h0 h_s
  | .shls _ => keeps_execShls h0 h_s
  | .sath _ => keeps_execSath h0 h_s
  | .qmul _ => keeps_execQmul h0 h_s
  | .qmac _ => keeps_execQmac h0 h_s
  | .qmsu _ => keeps_execQmsu h0 h_s
  | .qdiv _ => keeps_execQdiv h0 h_s
  | .fadd _ => keeps_execFadd h0 h_s
  | .fsub _ => keeps_execFsub h0 h_s
  | .fmul _ => keeps_execFmul h0 h_s
  | .fdiv _ => keeps_execFdiv h0 h_s
  | .fma _ => keeps_execFma h0 h_s
  | .fms _ => keeps_execFms h0 h_s
  | .fsqrt _ => keeps_execFsqrt h0 h_s
  | .fmin _ => keeps_execFmin h0 h_s
  | .fmax _ => keeps_execFmax h0 h_s
  | .fabs _ => keeps_execFabs h0 h_s
  | .fneg _ => keeps_execFneg h0 h_s
  | .fcmp _ => keeps_execFcmp h0 h_s
  | .flim _ => keeps_execFlim h0 h_s
  | .ftoi _ => keeps_execFtoi h0 h_s
  | .itof _ => keeps_execItof h0 h_s
  | .ftoq _ => keeps_execFtoq h0 h_s
  | .qtof _ => keeps_execQtof h0 h_s
  | .sincos _ => keeps_execSincos h0 h_s
  | .clarke _ => keeps_execClarke h0 h_s
  | .iclarke _ => keeps_execIclarke h0 h_s
  | .park _ => keeps_execPark h0 h_s
  | .ipark _ => keeps_execIpark h0 h_s
  | .pidf _ _ => keeps_execPidf hP h_s
  | .addi _ => keeps_execAddi h0 h_s
  | .andi _ => keeps_execAndi h0 h_s
  | .ori _ => keeps_execOri h0 h_s
  | .xori _ => keeps_execXori h0 h_s
  | .lui _ => keeps_execLui h0 h_s
  | .cmpi _ => keeps_execCmpi h0 h_s
  | .shli _ => keeps_execShli h0 h_s
  | .shri _ => keeps_execShri h0 h_s
  | .shrai _ => keeps_execShrai h0 h_s
  | .ld _ _ => keeps_execLd h0 h_s
  | .st _ => keeps_execSt hP h_s
  | .brc _ => keeps_execBrc h0 h_s
  | .bz _ => keeps_execBz h0 h_s
  | .bnz _ => keeps_execBnz h0 h_s
  | .call _ => keeps_execCall h0 h_s
  | .nop _ => keeps_execNop h0 h_s
  | .mfs _ => keeps_execMfs h0 h_s
  | .mts _ => keeps_execMts h0 h_s
  | .jr _ => keeps_execJr h0 h_s
  | .callr _ => keeps_execCallr h0 h_s
  | .ret _ => keeps_execRet h0 h_s
  | .trap _ => keeps_execTrap h0 h_s
  | .waitf _ => keeps_execWaitf h0 h_s
  | .loopRun _ => keeps_execLoopRun h0 h_s
  | .loopRunComplete _ => keeps_execLoopRunComplete h0 h_s
  | .irefDWrite _ _ _ => keeps_execIrefDWrite h0 h_s
  | .irefQWrite _ _ _ => keeps_execIrefQWrite h0 h_s
  | .angleStageWrite _ _ _ _ => keeps_execAngleStageWrite h0 h_s
  | .thetaWrite _ _ _ => keeps_execThetaWrite h0 h_s
  | .learnerBinWrite _ _ _ _ => keeps_execLearnerBinWrite h0 h_s
  | .lrnClr _ _ _ => keeps_execLrnClr h0 h_s
  | .mOfsWrite _ _ _ => keeps_execMOfsWrite h0 h_s
  | .renewSend => keeps_execRenewSend h0 h_s
  | .renewRetry => keeps_execRenewRetry h0 h_s
  | .renewRx _ _ => keeps_execRenewRx h0 h_s
  | .beadAckRx _ _ => keeps_execBeadAckRx h0 h_s
  | .noticeRx _ => keeps_execNoticeRx h0 h_s
  | .mint _ => keeps_execMint h0 h_s
  | .retire _ => keeps_execRetire h0 h_s
  | .cancelRetire _ => keeps_execCancelRetire h0 h_s
  | .reconcile _ => keeps_execReconcile h0 h_s
  | .ledgerTick => keeps_execLedgerTick h0 h_s
  | .targetRecompute => keeps_execTargetRecompute h0 h_s
  | .replRx _ _ _ => keeps_execReplRx h0 h_s
  | .replAckRx _ _ _ => keeps_execReplAckRx h0 h_s
  | .homeHbTx _ => keeps_execHomeHbTx h0 h_s
  | .homeHbRx _ _ _ _ => keeps_execHomeHbRx h0 h_s
  | .ledgerCopyRx _ _ => keeps_execLedgerCopyRx h0 h_s
  | .peerSilent => keeps_execPeerSilent h0 h_s
  | .rampStart => keeps_execRampStart h0 h_s
  | .rampTick => keeps_execRampTick h0 h_s
  | .leaseLapse => keeps_execLeaseLapse h0 h_s
  | .lapseTimeout => keeps_execLapseTimeout h0 h_s
  | .estimatorRound => keeps_execEstimatorRound h0 h_s
  | .roundComplete => keeps_execRoundComplete hm h_s
  | .cellLoad _ => keeps_execCellLoad h0 h_s
  | .cellReset _ => keeps_execCellReset h0 h_s
  | .cellExclude _ => keeps_execCellExclude h0 h_s
  | .cellInclude _ => keeps_execCellInclude h0 h_s
  | .ceaEnable _ => keeps_execCeaEnable hP h_s
  | .eisReq _ _ => keeps_execEisReq h0 h_s
  | .eisStart _ => keeps_execEisStart h0 h_s
  | .eisPlanDeadline _ => keeps_execEisPlanDeadline h0 h_s
  | .eisInjectStart _ => keeps_execEisInjectStart h0 h_s
  | .eisMeasureStart _ => keeps_execEisMeasureStart h0 h_s
  | .eisMeasureEnd _ => keeps_execEisMeasureEnd h0 h_s
  | .eisCollectTimeout _ => keeps_execEisCollectTimeout h0 h_s
  | .canFrameRx _ _ _ => keeps_execCanFrameRx hm h_s
  | .canFrameTxDone _ _ _ => keeps_execCanFrameTxDone h0 h_s
  | .txPush _ _ _ => keeps_execTxPush h0 h_s
  | .abortHead _ _ => keeps_execAbortHead h0 h_s
  | .rx0Pop _ _ => keeps_execRx0Pop h0 h_s
  | .rx1Pop _ _ => keeps_execRx1Pop h0 h_s
  | .boRecover _ _ => keeps_execBoRecover h0 h_s
  | .busOffRecovery _ => keeps_execBusOffRecovery h0 h_s
  | .rateDwellTimeout _ => keeps_execRateDwellTimeout h0 h_s
  | .sleepRequest _ _ _ => keeps_execSleepRequest h0 h_s
  | .enterAsleep _ => keeps_execEnterAsleep h0 h_s
  | .watchWake _ _ => keeps_execWatchWake h0 h_s
  | .watchFalse _ => keeps_execWatchFalse h0 h_s
  | .controllerShutDone _ => keeps_execControllerShutDone h0 h_s
  | .timeRefDue _ => keeps_execTimeRefDue h0 h_s
  | .trefNow _ _ => keeps_execTrefNow h0 h_s
  | .unavailableTx => keeps_execUnavailableTx h0 h_s
  | .messageStall _ _ _ => keeps_execMessageStall h0 h_s
  | .reportCellsRx _ => keeps_execReportCellsRx hm h_s
  | .alarmRx _ => keeps_execAlarmRx hm h_s
  | .wakeReqRx _ => keeps_execWakeReqRx hm h_s
  | .balanceAckRx _ => keeps_execBalanceAckRx hm h_s
  | .samplePlanAckRx _ => keeps_execSamplePlanAckRx hm h_s
  | .eisResultRx _ => keeps_execEisResultRx hm h_s
  | .identResponseRx _ => keeps_execIdentResponseRx hm h_s
  | .lifeResponseRx _ => keeps_execLifeResponseRx hm h_s
  | .identAll _ _ => keeps_execIdentAll h0 h_s
  | .lifeAll _ _ => keeps_execLifeAll h0 h_s
  | .identPeriodic _ => keeps_execIdentPeriodic h0 h_s
  | .lifePeriodic _ => keeps_execLifePeriodic h0 h_s
  | .challengeTimeout _ _ _ => keeps_execChallengeTimeout h0 h_s
  | .housekeepingRound _ => keeps_execHousekeepingRound hP h_s
  | .rateEval => keeps_execRateEval h0 h_s
  | .latchClear _ _ _ => keeps_execLatchClear h0 h_s
  | .restThermCheck _ => keeps_execRestThermCheck h0 h_s
  | .stepTarget _ _ _ => keeps_execStepTarget h0 h_s
  | .stepStop _ _ => keeps_execStepStop h0 h_s
  | .stepHalt _ _ => keeps_execStepHalt h0 h_s
  | .stepHome _ _ => keeps_execStepHome h0 h_s
  | .stepPosWrite _ _ _ => keeps_execStepPosWrite h0 h_s
  | .stepperTick _ => keeps_execStepperTick h0 h_s
  | .loadAngleEstimate _ _ => keeps_execLoadAngleEstimate h0 h_s
  | .standstillEntry _ => keeps_execStandstillEntry h0 h_s
  | .coilOpenDetect _ _ _ _ => keeps_execCoilOpenDetect h0 h_s
  | .overcurrentDetect _ _ _ => keeps_execOvercurrentDetect h0 h_s
  | .stepperShutDone _ => keeps_execStepperShutDone h0 h_s
  | .pcntEdge _ _ => keeps_execPcntEdge h0 h_s
  | .countWrite _ _ _ => keeps_execCountWrite h0 h_s
  | .observerUpdate _ => keeps_execObserverUpdate h0 h_s
  | .safetyCycle _ _ => keeps_execSafetyCycle h0 h_s
  | .sgrTripResend _ => keeps_execSgrTripResend h0 h_s
  | .safeInLevel _ _ => keeps_execSafeInLevel h0 h_s
  | .pairDiscrepancy _ => keeps_execPairDiscrepancy h0 h_s
  | .safetyReset _ => keeps_execSafetyReset h0 h_s
  | .resetJammed => keeps_execResetJammed h0 h_s
  | .safeMsgTx => keeps_execSafeMsgTx h0 h_s
  | .safeMsgRx _ _ => keeps_execSafeMsgRx h0 h_s
  | .pairWinExpire _ => keeps_execPairWinExpire h0 h_s
  | .singleLimExpire _ => keeps_execSingleLimExpire h0 h_s
  | .safeMsgWdt _ => keeps_execSafeMsgWdt h0 h_s
  | .lockstepMismatch _ => keeps_execLockstepMismatch h0 h_s
  | .pairEccError _ _ _ => keeps_execPairEccError h0 h_s
  | .pairWdtFault _ => keeps_execPairWdtFault h0 h_s
  | .testAgeTick => keeps_execTestAgeTick h0 h_s
  | .scrubPass _ _ _ => keeps_execScrubPass h0 h_s
  | .fabBlockLock _ => keeps_execFabBlockLock h0 h_s
  | .helloTx _ => keeps_execHelloTx h0 h_s
  | .helloRx _ _ => keeps_execHelloRx h0 h_s
  | .helloTimeout _ => keeps_execHelloTimeout h0 h_s
  | .faultRecheck _ => keeps_execFaultRecheck h0 h_s
  | .resyncTimeout _ => keeps_execResyncTimeout h0 h_s
  | .blockLockLoss _ => keeps_execBlockLockLoss h0 h_s
  | .linkSilent _ => keeps_execLinkSilent h0 h_s
  | .holdEnd _ => keeps_execHoldEnd h0 h_s
  | .coordWaitExpire _ => keeps_execCoordWaitExpire h0 h_s
  | .parcelRx _ _ => keeps_execParcelRx hm h_s
  | .statusTx _ => keeps_execStatusTx h0 h_s
  | .statusRx _ _ => keeps_execStatusRx h0 h_s
  | .replayTimeout _ => keeps_execReplayTimeout h0 h_s
  | .resyncReqRx _ _ _ => keeps_execResyncReqRx h0 h_s
  | .resyncAckRx _ _ _ => keeps_execResyncAckRx h0 h_s
  | .resyncReqResend _ => keeps_execResyncReqResend h0 h_s
  | .announceTx => keeps_execAnnounceTx h0 h_s
  | .announceRx _ => keeps_execAnnounceRx h0 h_s
  | .electTx => keeps_execElectTx h0 h_s
  | .deviceUnreachable _ => keeps_execDeviceUnreachable h0 h_s
  | .breqRx _ _ => keeps_execBreqRx hP h_s
  | .brspRx _ => keeps_execBrspRx hm h_s
  | .txqWrWrite _ _ => keeps_execTxqWrWrite hm h_s
  | .txnTimeout _ => keeps_execTxnTimeout hm h_s
  | .deliverDrop _ => keeps_execDeliverDrop h0 h_s
  | .masterTake => keeps_execMasterTake h0 h_s
  | .connectionArrival _ _ => keeps_execConnectionArrival hm h_s
  | .recordRx _ _ _ => keeps_execRecordRx hm h_s
  | .gateDecision _ => keeps_execGateDecision h0 h_s
  | .sessionRead _ => keeps_execSessionRead h0 h_s
  | .sessionWrite _ => keeps_execSessionWrite hP h_s
  | .openTunnel _ => keeps_execOpenTunnel h0 h_s
  | .closeTunnel _ => keeps_execCloseTunnel h0 h_s
  | .service _ => keeps_execService hm h_s
  | .tokenRefill => keeps_execTokenRefill h0 h_s
  | .sessionIdle _ => keeps_execSessionIdle h0 h_s
  | .sessionPeerClose _ _ => keeps_execSessionPeerClose h0 h_s
  | .sessOpen _ => keeps_execSessOpen h0 h_s
  | .sessClose _ => keeps_execSessClose h0 h_s
  | .sessRefuse _ => keeps_execSessRefuse h0 h_s
  | .serviceReply _ _ => keeps_execServiceReply h0 h_s
  | .tunnelOpenRx _ _ => keeps_execTunnelOpenRx h0 h_s
  | .tunnelOpenAckRx _ _ => keeps_execTunnelOpenAckRx h0 h_s
  | .tunnelReqRx _ _ => keeps_execTunnelReqRx h0 h_s
  | .tunnelRspRx _ _ => keeps_execTunnelRspRx h0 h_s
  | .tunnelCloseRx _ _ => keeps_execTunnelCloseRx h0 h_s
  | .tunnelTimeout _ _ => keeps_execTunnelTimeout h0 h_s
  | .fragmentTimeout => keeps_execFragmentTimeout h0 h_s
  | .sha256 _ => keeps_execSha256 h0 h_s
  | .edSign _ _ => keeps_execEdSign h0 h_s
  | .edVerify _ _ => keeps_execEdVerify h0 h_s
  | .x25519 _ _ => keeps_execX25519 h0 h_s
  | .gcmSeal _ _ => keeps_execGcmSeal h0 h_s
  | .gcmOpen _ _ => keeps_execGcmOpen h0 h_s
  | .random _ => keeps_execRandom h0 h_s
  | .keyGen _ _ _ => keeps_execKeyGen h0 h_s
  | .keyImport _ _ _ => keeps_execKeyImport h0 h_s
  | .keyErase _ _ => keeps_execKeyErase h0 h_s
  | .cryptoDone => keeps_execCryptoDone hm h_s
  | .entHealth _ => keeps_execEntHealth h0 h_s
  | .postTake _ => keeps_execPostTake hm h_s
  | .flushRound => keeps_execFlushRound h0 h_s
  | .cmdFlush _ => keeps_execCmdFlush h0 h_s
  | .flushRoundDone => keeps_execFlushRoundDone h0 h_s
  | .seal _ => keeps_execSeal hm h_s
  | .storeOpen _ _ => keeps_execStoreOpen h0 h_s
  | .storeOpenDone => keeps_execStoreOpenDone h0 h_s
  | .storeClose => keeps_execStoreClose h0 h_s
  | .format _ => keeps_execFormat h0 h_s
  | .storeRead _ _ => keeps_execStoreRead hm h_s
  | .tallyReplRx _ _ => keeps_execTallyReplRx h0 h_s
  | .tallyReplAckRx _ _ _ => keeps_execTallyReplAckRx h0 h_s
  | .tallyReplResend _ _ => keeps_execTallyReplResend h0 h_s
  | .nvmeCmdTimeout _ => keeps_execNvmeCmdTimeout h0 h_s
  | .nvmeCompletion _ _ => keeps_execNvmeCompletion h0 h_s
  | .nsCreate _ _ => keeps_execNsCreate h0 h_s
  | .nsDelete _ _ => keeps_execNsDelete h0 h_s
  | .nsAttach _ _ => keeps_execNsAttach h0 h_s
  | .wdtArm _ _ => keeps_execWdtArm h0 h_s
  | .wdtKick _ _ => keeps_execWdtKick h0 h_s
  | .wdtHalf => keeps_execWdtHalf h0 h_s
  | .wdtExpire => keeps_execWdtExpire hP h_s
  | .timerInterrupt _ => keeps_execTimerInterrupt h0 h_s
  | .eccDoubleError _ _ _ => keeps_execEccDoubleError h0 h_s
  | .hartRelease _ _ => keeps_execHartRelease h0 h_s
  | .idcode => keeps_execIdcode h0 h_s
  | .samplePreload => keeps_execSamplePreload h0 h_s
  | .extest => keeps_execExtest h0 h_s
  | .extestPulse => keeps_execExtestPulse h0 h_s
  | .extestTrain => keeps_execExtestTrain h0 h_s
  | .clamp => keeps_execClamp h0 h_s
  | .highz => keeps_execHighz h0 h_s
  | .dtmcs => keeps_execDtmcs h0 h_s
  | .dmi _ _ _ _ => keeps_execDmi h0 h_s
  | .bypass => keeps_execBypass h0 h_s
  | .tapReset => keeps_execTapReset h0 h_s
  | .debugHalt _ => keeps_execDebugHalt h0 h_s
  | .debugResume _ => keeps_execDebugResume h0 h_s
  | .powerUpSequence _ => keeps_execPowerUpSequence h0 h_s
  | .pgRise _ => keeps_execPgRise h0 h_s
  | .pgTimeout _ => keeps_execPgTimeout h0 h_s
  | .sequenceRetry => keeps_execSequenceRetry h0 h_s
  | .supplyLoss _ => keeps_execSupplyLoss hP h_s
  | .pmbusPoll _ => keeps_execPmbusPoll h0 h_s
  | .pmbAlert _ => keeps_execPmbAlert h0 h_s
  | .handoverDecision _ _ => keeps_execHandoverDecision h0 h_s
  | .handoverDone => keeps_execHandoverDone h0 h_s
  | .returnDecision => keeps_execReturnDecision h0 h_s
  | .returnDone => keeps_execReturnDone h0 h_s
  | .vbakLowDeep _ => keeps_execVbakLowDeep h0 h_s
  | .backupTallyTick => keeps_execBackupTallyTick h0 h_s
  | .crystalReady _ => keeps_execCrystalReady h0 h_s
  | .crystalFail _ => keeps_execCrystalFail hP h_s
  | .pllUnlock _ => keeps_execPllUnlock hP h_s
  | .degradedStart => keeps_execDegradedStart h0 h_s
  | .restRequest _ _ => keeps_execRestRequest h0 h_s
  | .restAbort _ => keeps_execRestAbort h0 h_s
  | .requestTimeout => keeps_execRequestTimeout h0 h_s
  | .enterQuiet _ => keeps_execEnterQuiet h0 h_s
  | .enterRest _ => keeps_execEnterRest h0 h_s
  | .enterDeep _ => keeps_execEnterDeep h0 h_s
  | .wakeCause _ => keeps_execWakeCause h0 h_s
  | .wakeComplete _ => keeps_execWakeComplete hP h_s
  | .domainLingerExpire _ => keeps_execDomainLingerExpire h0 h_s
  | .aonAlarm => keeps_execAonAlarm h0 h_s
  | .powerOnReset _ _ _ _ => keeps_execPowerOnReset hP h_s
  | .resetPin _ _ => keeps_execResetPin hP h_s
  | .softwareReset _ _ _ => keeps_execSoftwareReset hP h_s
  | .boot _ _ _ _ _ => keeps_execBoot hP h_s
  | .lifeAdvance _ _ _ _ => keeps_execLifeAdvance hP h_s
  | .cfErase _ => keeps_execCfErase h0 h_s
  | .cfProgram _ => keeps_execCfProgram h0 h_s
  | .cfOpDone _ => keeps_execCfOpDone hP h_s
  | .profileSelect _ _ => keeps_execProfileSelect hP h_s
  | .loaderStatus _ => keeps_execLoaderStatus h0 h_s
  | .loaderErase _ _ _ _ => keeps_execLoaderErase hP h_s
  | .loaderWrite _ _ _ _ => keeps_execLoaderWrite hP h_s
  | .loaderReset _ => keeps_execLoaderReset hP h_s
  | .eventAreaWrite => keeps_execEventAreaWrite hP h_s
  | .lbistSlot => keeps_execLbistSlot h0 h_s
  | .slotSkip => keeps_execSlotSkip h0 h_s
  | .lbistTestDone _ _ => keeps_execLbistTestDone h0 h_s
  | .dteMemoryTest _ _ => keeps_execDteMemoryTest h0 h_s
  | .dteLogicTest _ _ => keeps_execDteLogicTest h0 h_s
  | .dteBurnRepair _ _ => keeps_execDteBurnRepair h0 h_s
  | .dteDone _ _ => keeps_execDteDone hP h_s
  | .crossingReset _ _ => keeps_execCrossingReset h0 h_s
  | .syncMiss => keeps_execSyncMiss h0 h_s
  | .ppsOutWidthEnd => keeps_execPpsOutWidthEnd h0 h_s
  | .drvTrippedTimeout _ => keeps_execDrvTrippedTimeout h0 h_s
  | .uplinkFrameDiscard _ _ _ => keeps_execUplinkFrameDiscard h0 h_s
  | .canBusError _ => keeps_execCanBusError h0 h_s
  | .ethFrameRx _ _ => keeps_execEthFrameRx hm h_s
  | .ethLinkChg _ _ _ => keeps_execEthLinkChg h0 h_s
  | .bakLow _ => keeps_execBakLow h0 h_s
  | .vauxOkChange _ => keeps_execVauxOkChange h0 h_s
  | .domainWakeDone _ => keeps_execDomainWakeDone hP h_s
  | .digitizerReady _ _ => keeps_execDigitizerReady h0 h_s
  | .safeInRestSample _ => keeps_execSafeInRestSample h0 h_s
  | .lowWordRead _ _ _ _ => keeps_execLowWordRead hP h_s
  | .modStatRead _ _ _ => keeps_execModStatRead hP h_s

end Sys2Proof.Machine
end

