-- ==== Sys2Proof/Laws/Tab.lean ====
section
/-! SUPPORT. Laws of sparse tables: reading after a write, and the canonical form, which every operation keeps. -/

namespace Sys2Proof.Machine

variable {α : Type} {d : Nat → α} {t : List (Nat × α)} {k : Nat} {v : α}

theorem tabGet_del_same : tabGet d (tabDel t k) k = d k := by
  induction t with
  | nil => rfl
  | cons p r ih =>
    by_cases h : p.1 = k
    · simpa [tabDel, h] using ih
    · simpa [tabDel, h, tabGet] using ih

theorem tabGet_del_other {j : Nat} (h : j ≠ k) : tabGet d (tabDel t k) j = tabGet d t j := by
  induction t with
  | nil => rfl
  | cons p r ih =>
    by_cases hp : p.1 = k
    · have hj : ¬p.1 = j := fun e => h (e.symm.trans hp)
      rw [tabGet, if_neg hj]
      simpa [tabDel, hp] using ih
    · by_cases hj : p.1 = j
      · simp [tabDel, tabGet, hj, h]
      · simpa [tabDel, hp, tabGet, hj] using ih

theorem tabGet_ins_same (h : ∀ p ∈ t, p.1 ≠ k) : tabGet d (tabIns t k v) k = v := by
  induction t with
  | nil => simp [tabIns, tabGet]
  | cons p r ih =>
    have hp := h p (by simp)
    have ih := ih (fun q hq => h q (by simp [hq]))
    by_cases hk : k < p.1
    · simp [tabIns, hk, tabGet]
    · simp [tabIns, hk, tabGet, hp, ih]

theorem tabGet_ins_other {j : Nat} (h : j ≠ k) : tabGet d (tabIns t k v) j = tabGet d t j := by
  induction t with
  | nil => simp [tabIns, tabGet, Ne.symm h]
  | cons p r ih =>
    by_cases hk : k < p.1
    · simp [tabIns, hk, tabGet, Ne.symm h]
    · by_cases hj : p.1 = j
      · rw [tabIns, if_neg hk, tabGet, tabGet, if_pos hj, if_pos hj]
      · rw [tabIns, if_neg hk, tabGet, tabGet, if_neg hj, if_neg hj, ih]

theorem tabDel_fresh : ∀ p ∈ tabDel t k, p.1 ≠ k := by
  intro p hp
  simpa using (List.mem_filter.mp hp).2

section

variable [DecidableEq α]

/-- Reading a key after writing it. -/
@[simp] theorem tabGet_put_same : tabGet d (tabPut d t k v) k = v := by
  unfold tabPut
  split
  · rename_i h
    rw [tabGet_del_same, h]
  · exact tabGet_ins_same tabDel_fresh

/-- Reading another key after a write. -/
theorem tabGet_put_other {j : Nat} (h : j ≠ k) : tabGet d (tabPut d t k v) j = tabGet d t j := by
  unfold tabPut
  split
  · exact tabGet_del_other h
  · rw [tabGet_ins_other h, tabGet_del_other h]

/-- Reading any key after a write. -/
theorem tabGet_put {j : Nat} : tabGet d (tabPut d t k v) j = if j = k then v else tabGet d t j := by
  split
  · rename_i h
    rw [h, tabGet_put_same]
  · rename_i h
    exact tabGet_put_other h

end

theorem tabGet_keep_other {f : Nat → Bool} {j : Nat} (h : f j = false) : tabGet d (tabKeep f t) j = d j := by
  induction t with
  | nil => rfl
  | cons p r ih =>
    by_cases hp : f p.1 = true
    · have hj : ¬p.1 = j := fun e => by rw [e, h] at hp; cases hp
      simpa [tabKeep, hp, tabGet, hj] using ih
    · simpa [tabKeep, hp] using ih

theorem tabGet_keep_same {f : Nat → Bool} {j : Nat} (h : f j = true) : tabGet d (tabKeep f t) j = tabGet d t j := by
  induction t with
  | nil => rfl
  | cons p r ih =>
    by_cases hj : p.1 = j
    · have hp : f p.1 = true := by rw [hj]; exact h
      rw [tabKeep, List.filter_cons_of_pos (p := fun p : Nat × α => f p.1) hp, tabGet, tabGet, if_pos hj, if_pos hj]
    · by_cases hp : f p.1 = true
      · simpa [tabKeep, hp, tabGet, hj] using ih
      · simpa [tabKeep, hp, tabGet, hj] using ih

/-! ## The canonical form -/

theorem tabRising_cons {p : Nat × α} {r : List (Nat × α)} :
    tabRising (p :: r) = true ↔ (∀ q ∈ r, p.1 < q.1) ∧ tabRising r = true := by
  induction r generalizing p with
  | nil => simp [tabRising]
  | cons q r ih =>
    simp only [tabRising, Bool.and_eq_true, decide_eq_true_eq, List.mem_cons, forall_eq_or_imp]
    constructor
    · rintro ⟨h1, h2⟩
      exact ⟨⟨h1, fun x hx => lt_trans h1 ((ih.mp h2).1 x hx)⟩, h2⟩
    · rintro ⟨⟨h1, _⟩, h2⟩
      exact ⟨h1, h2⟩

theorem tabRising_filter {f : Nat × α → Bool} (h : tabRising t = true) : tabRising (t.filter f) = true := by
  induction t with
  | nil => rfl
  | cons p r ih =>
    have h' := tabRising_cons.mp h
    by_cases hp : f p = true
    · rw [List.filter_cons_of_pos hp, tabRising_cons]
      exact ⟨fun q hq => h'.1 q (List.mem_of_mem_filter hq), ih h'.2⟩
    · rw [List.filter_cons_of_neg hp]
      exact ih h'.2

theorem mem_tabIns {q : Nat × α} : q ∈ tabIns t k v ↔ q = (k, v) ∨ q ∈ t := by
  induction t with
  | nil => simp [tabIns]
  | cons p r ih =>
    by_cases hk : k < p.1
    · simp [tabIns, hk]
    · simp only [tabIns, hk, if_false, List.mem_cons, ih]
      tauto

theorem tabRising_ins (h : tabRising t = true) (hf : ∀ p ∈ t, p.1 ≠ k) : tabRising (tabIns t k v) = true := by
  induction t with
  | nil => rfl
  | cons p r ih =>
    have h' := tabRising_cons.mp h
    by_cases hk : k < p.1
    · simp only [tabIns, hk, if_true]
      exact tabRising_cons.mpr ⟨fun q hq => by
        rcases List.mem_cons.mp hq with rfl | hq
        · exact hk
        · exact lt_trans hk (h'.1 q hq), h⟩
    · simp only [tabIns, hk, if_false]
      refine tabRising_cons.mpr ⟨fun q hq => ?_, ih h'.2 (fun x hx => hf x (by simp [hx]))⟩
      rcases mem_tabIns.mp hq with rfl | hq
      · exact lt_of_le_of_ne (Nat.le_of_not_lt hk) (hf p (by simp))
      · exact h'.1 q hq

section

variable [DecidableEq α]

theorem tabWf_iff : tabWf d t = true ↔ tabRising t = true ∧ ∀ p ∈ t, p.2 ≠ d p.1 := by
  simp [tabWf]

theorem tabWf_nil : tabWf d [] = true := rfl

/-- Dropping pairs keeps the canonical form. -/
theorem tabWf_keep {f : Nat → Bool} (h : tabWf d t = true) : tabWf d (tabKeep f t) = true := by
  rw [tabWf_iff] at h ⊢
  exact ⟨tabRising_filter h.1, fun p hp => h.2 p (List.mem_of_mem_filter hp)⟩

/-- A write keeps the canonical form. -/
theorem tabWf_put (h : tabWf d t = true) : tabWf d (tabPut d t k v) = true := by
  rw [tabWf_iff] at h ⊢
  have hd : tabRising (tabDel t k) = true := tabRising_filter h.1
  have hm : ∀ p ∈ tabDel t k, p.2 ≠ d p.1 := fun p hp => h.2 p (List.mem_of_mem_filter hp)
  unfold tabPut
  split
  · exact ⟨hd, hm⟩
  · rename_i hv
    refine ⟨tabRising_ins hd tabDel_fresh, fun p hp => ?_⟩
    rcases mem_tabIns.mp hp with rfl | hp
    · exact hv
    · exact hm p hp

/-- Equal reads of canonical tables are equal tables: memory is plain data. -/
theorem tabWf_ext_nil (h : tabWf d t = true) (he : ∀ j, tabGet d t j = d j) : t = [] := by
  cases t with
  | nil => rfl
  | cons p r =>
    have := (tabWf_iff.mp h).2 p (by simp)
    exact absurd (by simpa [tabGet] using he p.1) this

end

end Sys2Proof.Machine
end

