-- ==== Sys2Proof/Laws/Keep.lean ====
section
/-! SUPPORT. What every step keeps, and predicates that the commands keep: the canonical form of the memories, the
queue, memories that a command does not write. -/

namespace Sys2Proof.Machine

open Host (Outcome)

/-- A predicate closed under the primitive updates, and under a change of the queue, is kept by every step. -/
theorem keeps_step {P : State → Prop} (hP : K1 P) {s : State} (h : P s)
    (hq : ∀ c q, s.pending = c :: q → P { s with pending := q }) : OutP P (step s) := by
  unfold step
  split
  · exact OutP.next (keeps_State_tick hP h)
  · rename_i c q e
    exact keeps_exec hP (hq c q e)

/-- The canonical form of the memories. -/
theorem k1_memWf : K1 (fun s => memWf s = true) where
  frame := by
    intro s t h hb hm hc hf hp _
    simpa only [memWf, hb, hm, hc, hf, hp] using h
  put := by
    intro s k v h
    simp only [memWf, Bool.and_eq_true] at h ⊢
    exact ⟨⟨⟨⟨tabWf_put h.1.1.1.1, h.1.1.1.2⟩, h.1.1.2⟩, h.1.2⟩, h.2⟩
  keep := by
    intro s f h
    simp only [memWf, Bool.and_eq_true] at h ⊢
    exact ⟨⟨⟨⟨tabWf_keep h.1.1.1.1, h.1.1.1.2⟩, h.1.1.2⟩, h.1.2⟩, h.2⟩
  mem := by
    intro s a v h
    simp only [memWf, Bool.and_eq_true] at h ⊢
    exact ⟨⟨⟨⟨h.1.1.1.1, tabWf_put h.1.1.1.2⟩, h.1.1.2⟩, h.1.2⟩, h.2⟩
  common := by
    intro s i v h
    simp only [memWf, Bool.and_eq_true] at h ⊢
    exact ⟨⟨⟨⟨h.1.1.1.1, h.1.1.1.2⟩, tabWf_put h.1.1.2⟩, h.1.2⟩, h.2⟩
  commonOf := by
    intro s s0 h h0
    simp only [memWf, Bool.and_eq_true] at h h0 ⊢
    exact ⟨⟨⟨⟨h.1.1.1.1, h.1.1.1.2⟩, h0.1.1.2⟩, h.1.2⟩, h.2⟩
  noCommon := by
    intro s h
    simp only [memWf, Bool.and_eq_true] at h ⊢
    exact ⟨⟨⟨⟨h.1.1.1.1, h.1.1.1.2⟩, rfl⟩, h.1.2⟩, h.2⟩
  cf := by
    intro s a v h
    simp only [memWf, Bool.and_eq_true] at h ⊢
    exact ⟨⟨⟨⟨h.1.1.1.1, h.1.1.1.2⟩, h.1.1.2⟩, tabWf_put h.1.2⟩, h.2⟩
  cfKeep := by
    intro s f h
    simp only [memWf, Bool.and_eq_true] at h ⊢
    exact ⟨⟨⟨⟨h.1.1.1.1, h.1.1.1.2⟩, h.1.1.2⟩, tabWf_keep h.1.2⟩, h.2⟩
  pair := by
    intro s a v h
    simp only [memWf, Bool.and_eq_true] at h ⊢
    exact ⟨⟨⟨⟨h.1.1.1.1, h.1.1.1.2⟩, h.1.1.2⟩, h.1.2⟩, tabWf_put h.2⟩
  noPair := by
    intro s h
    simp only [memWf, Bool.and_eq_true] at h ⊢
    exact ⟨h.1, rfl⟩
  fresh := by
    intro s h
    simp only [memWf, Bool.and_eq_true] at h ⊢
    exact ⟨⟨⟨⟨rfl, rfl⟩, rfl⟩, h.1.2⟩, rfl⟩

/-- The queue. -/
theorem k1_pending (q : List Sys2Proof.Instr) : K1 (fun s => s.pending = q) where
  frame := fun h _ _ _ _ _ e => e.trans h
  put := fun _ _ _ h => h
  keep := fun _ _ h => h
  mem := fun _ _ _ h => h
  common := fun _ _ _ h => h
  commonOf := fun _ _ h _ => h
  noCommon := fun _ h => h
  cf := fun _ _ _ h => h
  cfKeep := fun _ _ h => h
  pair := fun _ _ _ h => h
  noPair := fun _ h => h
  fresh := fun _ h => h

/-- Every memory outside board space. -/
theorem k0_sameMem (s0 : State) : K0 (fun t => SameMem s0 t) where
  frame := by
    intro s t h _ hm hc hf hp _
    simp only [SameMem, State.memByte, State.cfByte, State.commonWord, hm, hc, hf, hp] at h ⊢
    exact h
  put := fun _ _ _ h => h
  keep := fun _ _ h => h

/-- The memories outside board space but LPDDR5. -/
theorem km_sameOther (s0 : State) :
    Km (fun t => t.cf = s0.cf ∧ t.common = s0.common ∧ t.pairMem = s0.pairMem) where
  frame := by
    intro s t h _ _ hc hf hp _
    simp only [hc, hf, hp]
    exact h
  put := fun _ _ _ h => h
  keep := fun _ _ h => h
  mem := fun _ _ _ h => h

theorem sameMem_refl (s : State) : SameMem s s := ⟨fun _ => rfl, fun _ => rfl, rfl, fun _ => rfl⟩

end Sys2Proof.Machine
end

