-- ==== Sys2Proof/Laws/State.lean ====
section
/-! SUPPORT. Laws of the state: what each primitive update leaves in each other field, and that reset is canonical. -/

namespace Sys2Proof.Machine

theorem reset_memWf : memWf State.reset = true := by decide

/-! ## Each field after each update -/

section

section
variable {s : State} {k : Nat} {c : Nat} {x : ConvX}
@[simp] theorem State.setConv_board : (s.setConv k c x).board = s.board := rfl
@[simp] theorem State.setConv_pages : (s.setConv k c x).pages = s.pages := rfl
@[simp] theorem State.setConv_shadows : (s.setConv k c x).shadows = s.shadows := rfl
@[simp] theorem State.setConv_waits : (s.setConv k c x).waits = s.waits := rfl
@[simp] theorem State.setConv_doms : (s.setConv k c x).doms = s.doms := rfl
@[simp] theorem State.setConv_beam : (s.setConv k c x).beam = s.beam := rfl
@[simp] theorem State.setConv_gens : (s.setConv k c x).gens = s.gens := rfl
@[simp] theorem State.setConv_rods : (s.setConv k c x).rods = s.rods := rfl
@[simp] theorem State.setConv_links : (s.setConv k c x).links = s.links := rfl
@[simp] theorem State.setConv_safe : (s.setConv k c x).safe = s.safe := rfl
@[simp] theorem State.setConv_digs : (s.setConv k c x).digs = s.digs := rfl
@[simp] theorem State.setConv_caps : (s.setConv k c x).caps = s.caps := rfl
@[simp] theorem State.setConv_mem : (s.setConv k c x).mem = s.mem := rfl
@[simp] theorem State.setConv_common : (s.setConv k c x).common = s.common := rfl
@[simp] theorem State.setConv_recks : (s.setConv k c x).recks = s.recks := rfl
@[simp] theorem State.setConv_reckMem : (s.setConv k c x).reckMem = s.reckMem := rfl
@[simp] theorem State.setConv_loops : (s.setConv k c x).loops = s.loops := rfl
@[simp] theorem State.setConv_vsms : (s.setConv k c x).vsms = s.vsms := rfl
@[simp] theorem State.setConv_pcnts : (s.setConv k c x).pcnts = s.pcnts := rfl
@[simp] theorem State.setConv_bead : (s.setConv k c x).bead = s.bead := rfl
@[simp] theorem State.setConv_home : (s.setConv k c x).home = s.home := rfl
@[simp] theorem State.setConv_mbus : (s.setConv k c x).mbus = s.mbus := rfl
@[simp] theorem State.setConv_cells : (s.setConv k c x).cells = s.cells := rfl
@[simp] theorem State.setConv_modReps : (s.setConv k c x).modReps = s.modReps := rfl
@[simp] theorem State.setConv_tallies : (s.setConv k c x).tallies = s.tallies := rfl
@[simp] theorem State.setConv_cea : (s.setConv k c x).cea = s.cea := rfl
@[simp] theorem State.setConv_eis : (s.setConv k c x).eis = s.eis := rfl
@[simp] theorem State.setConv_rest : (s.setConv k c x).rest = s.rest := rfl
@[simp] theorem State.setConv_sensors : (s.setConv k c x).sensors = s.sensors := rfl
@[simp] theorem State.setConv_crossings : (s.setConv k c x).crossings = s.crossings := rfl
@[simp] theorem State.setConv_steppers : (s.setConv k c x).steppers = s.steppers := rfl
@[simp] theorem State.setConv_flinks : (s.setConv k c x).flinks = s.flinks := rfl
@[simp] theorem State.setConv_router : (s.setConv k c x).router = s.router := rfl
@[simp] theorem State.setConv_keys : (s.setConv k c x).keys = s.keys := rfl
@[simp] theorem State.setConv_sess : (s.setConv k c x).sess = s.sess := rfl
@[simp] theorem State.setConv_gate : (s.setConv k c x).gate = s.gate := rfl
@[simp] theorem State.setConv_eths : (s.setConv k c x).eths = s.eths := rfl
@[simp] theorem State.setConv_store : (s.setConv k c x).store = s.store := rfl
@[simp] theorem State.setConv_evtQueue : (s.setConv k c x).evtQueue = s.evtQueue := rfl
@[simp] theorem State.setConv_cf : (s.setConv k c x).cf = s.cf := rfl
@[simp] theorem State.setConv_pairMem : (s.setConv k c x).pairMem = s.pairMem := rfl
@[simp] theorem State.setConv_hwPosts : (s.setConv k c x).hwPosts = s.hwPosts := rfl
@[simp] theorem State.setConv_proc : (s.setConv k c x).proc = s.proc := rfl
@[simp] theorem State.setConv_sup : (s.setConv k c x).sup = s.sup := rfl
@[simp] theorem State.setConv_bist : (s.setConv k c x).bist = s.bist := rfl
@[simp] theorem State.setConv_boot : (s.setConv k c x).boot = s.boot := rfl
@[simp] theorem State.setConv_out : (s.setConv k c x).out = s.out := rfl
@[simp] theorem State.setConv_freeCtr : (s.setConv k c x).freeCtr = s.freeCtr := rfl
@[simp] theorem State.setConv_pending : (s.setConv k c x).pending = s.pending := rfl
end

section
variable {s : State} {x : HomeX}
@[simp] theorem State.setHome_board : (s.setHome x).board = s.board := rfl
@[simp] theorem State.setHome_pages : (s.setHome x).pages = s.pages := rfl
@[simp] theorem State.setHome_shadows : (s.setHome x).shadows = s.shadows := rfl
@[simp] theorem State.setHome_waits : (s.setHome x).waits = s.waits := rfl
@[simp] theorem State.setHome_doms : (s.setHome x).doms = s.doms := rfl
@[simp] theorem State.setHome_beam : (s.setHome x).beam = s.beam := rfl
@[simp] theorem State.setHome_gens : (s.setHome x).gens = s.gens := rfl
@[simp] theorem State.setHome_rods : (s.setHome x).rods = s.rods := rfl
@[simp] theorem State.setHome_links : (s.setHome x).links = s.links := rfl
@[simp] theorem State.setHome_safe : (s.setHome x).safe = s.safe := rfl
@[simp] theorem State.setHome_convs : (s.setHome x).convs = s.convs := rfl
@[simp] theorem State.setHome_digs : (s.setHome x).digs = s.digs := rfl
@[simp] theorem State.setHome_caps : (s.setHome x).caps = s.caps := rfl
@[simp] theorem State.setHome_mem : (s.setHome x).mem = s.mem := rfl
@[simp] theorem State.setHome_common : (s.setHome x).common = s.common := rfl
@[simp] theorem State.setHome_recks : (s.setHome x).recks = s.recks := rfl
@[simp] theorem State.setHome_reckMem : (s.setHome x).reckMem = s.reckMem := rfl
@[simp] theorem State.setHome_loops : (s.setHome x).loops = s.loops := rfl
@[simp] theorem State.setHome_vsms : (s.setHome x).vsms = s.vsms := rfl
@[simp] theorem State.setHome_pcnts : (s.setHome x).pcnts = s.pcnts := rfl
@[simp] theorem State.setHome_bead : (s.setHome x).bead = s.bead := rfl
@[simp] theorem State.setHome_mbus : (s.setHome x).mbus = s.mbus := rfl
@[simp] theorem State.setHome_cells : (s.setHome x).cells = s.cells := rfl
@[simp] theorem State.setHome_modReps : (s.setHome x).modReps = s.modReps := rfl
@[simp] theorem State.setHome_tallies : (s.setHome x).tallies = s.tallies := rfl
@[simp] theorem State.setHome_cea : (s.setHome x).cea = s.cea := rfl
@[simp] theorem State.setHome_eis : (s.setHome x).eis = s.eis := rfl
@[simp] theorem State.setHome_rest : (s.setHome x).rest = s.rest := rfl
@[simp] theorem State.setHome_sensors : (s.setHome x).sensors = s.sensors := rfl
@[simp] theorem State.setHome_crossings : (s.setHome x).crossings = s.crossings := rfl
@[simp] theorem State.setHome_steppers : (s.setHome x).steppers = s.steppers := rfl
@[simp] theorem State.setHome_flinks : (s.setHome x).flinks = s.flinks := rfl
@[simp] theorem State.setHome_router : (s.setHome x).router = s.router := rfl
@[simp] theorem State.setHome_keys : (s.setHome x).keys = s.keys := rfl
@[simp] theorem State.setHome_sess : (s.setHome x).sess = s.sess := rfl
@[simp] theorem State.setHome_gate : (s.setHome x).gate = s.gate := rfl
@[simp] theorem State.setHome_eths : (s.setHome x).eths = s.eths := rfl
@[simp] theorem State.setHome_store : (s.setHome x).store = s.store := rfl
@[simp] theorem State.setHome_evtQueue : (s.setHome x).evtQueue = s.evtQueue := rfl
@[simp] theorem State.setHome_cf : (s.setHome x).cf = s.cf := rfl
@[simp] theorem State.setHome_pairMem : (s.setHome x).pairMem = s.pairMem := rfl
@[simp] theorem State.setHome_hwPosts : (s.setHome x).hwPosts = s.hwPosts := rfl
@[simp] theorem State.setHome_proc : (s.setHome x).proc = s.proc := rfl
@[simp] theorem State.setHome_sup : (s.setHome x).sup = s.sup := rfl
@[simp] theorem State.setHome_bist : (s.setHome x).bist = s.bist := rfl
@[simp] theorem State.setHome_boot : (s.setHome x).boot = s.boot := rfl
@[simp] theorem State.setHome_out : (s.setHome x).out = s.out := rfl
@[simp] theorem State.setHome_freeCtr : (s.setHome x).freeCtr = s.freeCtr := rfl
@[simp] theorem State.setHome_pending : (s.setHome x).pending = s.pending := rfl
end

section
variable {s : State} {x : BeadX}
@[simp] theorem State.setBead_board : (s.setBead x).board = s.board := rfl
@[simp] theorem State.setBead_pages : (s.setBead x).pages = s.pages := rfl
@[simp] theorem State.setBead_shadows : (s.setBead x).shadows = s.shadows := rfl
@[simp] theorem State.setBead_waits : (s.setBead x).waits = s.waits := rfl
@[simp] theorem State.setBead_doms : (s.setBead x).doms = s.doms := rfl
@[simp] theorem State.setBead_beam : (s.setBead x).beam = s.beam := rfl
@[simp] theorem State.setBead_gens : (s.setBead x).gens = s.gens := rfl
@[simp] theorem State.setBead_rods : (s.setBead x).rods = s.rods := rfl
@[simp] theorem State.setBead_links : (s.setBead x).links = s.links := rfl
@[simp] theorem State.setBead_safe : (s.setBead x).safe = s.safe := rfl
@[simp] theorem State.setBead_convs : (s.setBead x).convs = s.convs := rfl
@[simp] theorem State.setBead_digs : (s.setBead x).digs = s.digs := rfl
@[simp] theorem State.setBead_caps : (s.setBead x).caps = s.caps := rfl
@[simp] theorem State.setBead_mem : (s.setBead x).mem = s.mem := rfl
@[simp] theorem State.setBead_common : (s.setBead x).common = s.common := rfl
@[simp] theorem State.setBead_recks : (s.setBead x).recks = s.recks := rfl
@[simp] theorem State.setBead_reckMem : (s.setBead x).reckMem = s.reckMem := rfl
@[simp] theorem State.setBead_loops : (s.setBead x).loops = s.loops := rfl
@[simp] theorem State.setBead_vsms : (s.setBead x).vsms = s.vsms := rfl
@[simp] theorem State.setBead_pcnts : (s.setBead x).pcnts = s.pcnts := rfl
@[simp] theorem State.setBead_home : (s.setBead x).home = s.home := rfl
@[simp] theorem State.setBead_mbus : (s.setBead x).mbus = s.mbus := rfl
@[simp] theorem State.setBead_cells : (s.setBead x).cells = s.cells := rfl
@[simp] theorem State.setBead_modReps : (s.setBead x).modReps = s.modReps := rfl
@[simp] theorem State.setBead_tallies : (s.setBead x).tallies = s.tallies := rfl
@[simp] theorem State.setBead_cea : (s.setBead x).cea = s.cea := rfl
@[simp] theorem State.setBead_eis : (s.setBead x).eis = s.eis := rfl
@[simp] theorem State.setBead_rest : (s.setBead x).rest = s.rest := rfl
@[simp] theorem State.setBead_sensors : (s.setBead x).sensors = s.sensors := rfl
@[simp] theorem State.setBead_crossings : (s.setBead x).crossings = s.crossings := rfl
@[simp] theorem State.setBead_steppers : (s.setBead x).steppers = s.steppers := rfl
@[simp] theorem State.setBead_flinks : (s.setBead x).flinks = s.flinks := rfl
@[simp] theorem State.setBead_router : (s.setBead x).router = s.router := rfl
@[simp] theorem State.setBead_keys : (s.setBead x).keys = s.keys := rfl
@[simp] theorem State.setBead_sess : (s.setBead x).sess = s.sess := rfl
@[simp] theorem State.setBead_gate : (s.setBead x).gate = s.gate := rfl
@[simp] theorem State.setBead_eths : (s.setBead x).eths = s.eths := rfl
@[simp] theorem State.setBead_store : (s.setBead x).store = s.store := rfl
@[simp] theorem State.setBead_evtQueue : (s.setBead x).evtQueue = s.evtQueue := rfl
@[simp] theorem State.setBead_cf : (s.setBead x).cf = s.cf := rfl
@[simp] theorem State.setBead_pairMem : (s.setBead x).pairMem = s.pairMem := rfl
@[simp] theorem State.setBead_hwPosts : (s.setBead x).hwPosts = s.hwPosts := rfl
@[simp] theorem State.setBead_proc : (s.setBead x).proc = s.proc := rfl
@[simp] theorem State.setBead_sup : (s.setBead x).sup = s.sup := rfl
@[simp] theorem State.setBead_bist : (s.setBead x).bist = s.bist := rfl
@[simp] theorem State.setBead_boot : (s.setBead x).boot = s.boot := rfl
@[simp] theorem State.setBead_out : (s.setBead x).out = s.out := rfl
@[simp] theorem State.setBead_freeCtr : (s.setBead x).freeCtr = s.freeCtr := rfl
@[simp] theorem State.setBead_pending : (s.setBead x).pending = s.pending := rfl
end

section
variable {s : State} {r : Nat} {x : EisX}
@[simp] theorem State.setEisX_board : (s.setEisX r x).board = s.board := rfl
@[simp] theorem State.setEisX_pages : (s.setEisX r x).pages = s.pages := rfl
@[simp] theorem State.setEisX_shadows : (s.setEisX r x).shadows = s.shadows := rfl
@[simp] theorem State.setEisX_waits : (s.setEisX r x).waits = s.waits := rfl
@[simp] theorem State.setEisX_doms : (s.setEisX r x).doms = s.doms := rfl
@[simp] theorem State.setEisX_beam : (s.setEisX r x).beam = s.beam := rfl
@[simp] theorem State.setEisX_gens : (s.setEisX r x).gens = s.gens := rfl
@[simp] theorem State.setEisX_rods : (s.setEisX r x).rods = s.rods := rfl
@[simp] theorem State.setEisX_links : (s.setEisX r x).links = s.links := rfl
@[simp] theorem State.setEisX_safe : (s.setEisX r x).safe = s.safe := rfl
@[simp] theorem State.setEisX_convs : (s.setEisX r x).convs = s.convs := rfl
@[simp] theorem State.setEisX_digs : (s.setEisX r x).digs = s.digs := rfl
@[simp] theorem State.setEisX_caps : (s.setEisX r x).caps = s.caps := rfl
@[simp] theorem State.setEisX_mem : (s.setEisX r x).mem = s.mem := rfl
@[simp] theorem State.setEisX_common : (s.setEisX r x).common = s.common := rfl
@[simp] theorem State.setEisX_recks : (s.setEisX r x).recks = s.recks := rfl
@[simp] theorem State.setEisX_reckMem : (s.setEisX r x).reckMem = s.reckMem := rfl
@[simp] theorem State.setEisX_loops : (s.setEisX r x).loops = s.loops := rfl
@[simp] theorem State.setEisX_vsms : (s.setEisX r x).vsms = s.vsms := rfl
@[simp] theorem State.setEisX_pcnts : (s.setEisX r x).pcnts = s.pcnts := rfl
@[simp] theorem State.setEisX_bead : (s.setEisX r x).bead = s.bead := rfl
@[simp] theorem State.setEisX_home : (s.setEisX r x).home = s.home := rfl
@[simp] theorem State.setEisX_mbus : (s.setEisX r x).mbus = s.mbus := rfl
@[simp] theorem State.setEisX_cells : (s.setEisX r x).cells = s.cells := rfl
@[simp] theorem State.setEisX_modReps : (s.setEisX r x).modReps = s.modReps := rfl
@[simp] theorem State.setEisX_tallies : (s.setEisX r x).tallies = s.tallies := rfl
@[simp] theorem State.setEisX_cea : (s.setEisX r x).cea = s.cea := rfl
@[simp] theorem State.setEisX_rest : (s.setEisX r x).rest = s.rest := rfl
@[simp] theorem State.setEisX_sensors : (s.setEisX r x).sensors = s.sensors := rfl
@[simp] theorem State.setEisX_crossings : (s.setEisX r x).crossings = s.crossings := rfl
@[simp] theorem State.setEisX_steppers : (s.setEisX r x).steppers = s.steppers := rfl
@[simp] theorem State.setEisX_flinks : (s.setEisX r x).flinks = s.flinks := rfl
@[simp] theorem State.setEisX_router : (s.setEisX r x).router = s.router := rfl
@[simp] theorem State.setEisX_keys : (s.setEisX r x).keys = s.keys := rfl
@[simp] theorem State.setEisX_sess : (s.setEisX r x).sess = s.sess := rfl
@[simp] theorem State.setEisX_gate : (s.setEisX r x).gate = s.gate := rfl
@[simp] theorem State.setEisX_eths : (s.setEisX r x).eths = s.eths := rfl
@[simp] theorem State.setEisX_store : (s.setEisX r x).store = s.store := rfl
@[simp] theorem State.setEisX_evtQueue : (s.setEisX r x).evtQueue = s.evtQueue := rfl
@[simp] theorem State.setEisX_cf : (s.setEisX r x).cf = s.cf := rfl
@[simp] theorem State.setEisX_pairMem : (s.setEisX r x).pairMem = s.pairMem := rfl
@[simp] theorem State.setEisX_hwPosts : (s.setEisX r x).hwPosts = s.hwPosts := rfl
@[simp] theorem State.setEisX_proc : (s.setEisX r x).proc = s.proc := rfl
@[simp] theorem State.setEisX_sup : (s.setEisX r x).sup = s.sup := rfl
@[simp] theorem State.setEisX_bist : (s.setEisX r x).bist = s.bist := rfl
@[simp] theorem State.setEisX_boot : (s.setEisX r x).boot = s.boot := rfl
@[simp] theorem State.setEisX_out : (s.setEisX r x).out = s.out := rfl
@[simp] theorem State.setEisX_freeCtr : (s.setEisX r x).freeCtr = s.freeCtr := rfl
@[simp] theorem State.setEisX_pending : (s.setEisX r x).pending = s.pending := rfl
end

section
variable {s : State} {g : Nat} {x : GenX}
@[simp] theorem State.setGen_board : (s.setGen g x).board = s.board := rfl
@[simp] theorem State.setGen_pages : (s.setGen g x).pages = s.pages := rfl
@[simp] theorem State.setGen_shadows : (s.setGen g x).shadows = s.shadows := rfl
@[simp] theorem State.setGen_waits : (s.setGen g x).waits = s.waits := rfl
@[simp] theorem State.setGen_doms : (s.setGen g x).doms = s.doms := rfl
@[simp] theorem State.setGen_beam : (s.setGen g x).beam = s.beam := rfl
@[simp] theorem State.setGen_rods : (s.setGen g x).rods = s.rods := rfl
@[simp] theorem State.setGen_links : (s.setGen g x).links = s.links := rfl
@[simp] theorem State.setGen_safe : (s.setGen g x).safe = s.safe := rfl
@[simp] theorem State.setGen_convs : (s.setGen g x).convs = s.convs := rfl
@[simp] theorem State.setGen_digs : (s.setGen g x).digs = s.digs := rfl
@[simp] theorem State.setGen_caps : (s.setGen g x).caps = s.caps := rfl
@[simp] theorem State.setGen_mem : (s.setGen g x).mem = s.mem := rfl
@[simp] theorem State.setGen_common : (s.setGen g x).common = s.common := rfl
@[simp] theorem State.setGen_recks : (s.setGen g x).recks = s.recks := rfl
@[simp] theorem State.setGen_reckMem : (s.setGen g x).reckMem = s.reckMem := rfl
@[simp] theorem State.setGen_loops : (s.setGen g x).loops = s.loops := rfl
@[simp] theorem State.setGen_vsms : (s.setGen g x).vsms = s.vsms := rfl
@[simp] theorem State.setGen_pcnts : (s.setGen g x).pcnts = s.pcnts := rfl
@[simp] theorem State.setGen_bead : (s.setGen g x).bead = s.bead := rfl
@[simp] theorem State.setGen_home : (s.setGen g x).home = s.home := rfl
@[simp] theorem State.setGen_mbus : (s.setGen g x).mbus = s.mbus := rfl
@[simp] theorem State.setGen_cells : (s.setGen g x).cells = s.cells := rfl
@[simp] theorem State.setGen_modReps : (s.setGen g x).modReps = s.modReps := rfl
@[simp] theorem State.setGen_tallies : (s.setGen g x).tallies = s.tallies := rfl
@[simp] theorem State.setGen_cea : (s.setGen g x).cea = s.cea := rfl
@[simp] theorem State.setGen_eis : (s.setGen g x).eis = s.eis := rfl
@[simp] theorem State.setGen_rest : (s.setGen g x).rest = s.rest := rfl
@[simp] theorem State.setGen_sensors : (s.setGen g x).sensors = s.sensors := rfl
@[simp] theorem State.setGen_crossings : (s.setGen g x).crossings = s.crossings := rfl
@[simp] theorem State.setGen_steppers : (s.setGen g x).steppers = s.steppers := rfl
@[simp] theorem State.setGen_flinks : (s.setGen g x).flinks = s.flinks := rfl
@[simp] theorem State.setGen_router : (s.setGen g x).router = s.router := rfl
@[simp] theorem State.setGen_keys : (s.setGen g x).keys = s.keys := rfl
@[simp] theorem State.setGen_sess : (s.setGen g x).sess = s.sess := rfl
@[simp] theorem State.setGen_gate : (s.setGen g x).gate = s.gate := rfl
@[simp] theorem State.setGen_eths : (s.setGen g x).eths = s.eths := rfl
@[simp] theorem State.setGen_store : (s.setGen g x).store = s.store := rfl
@[simp] theorem State.setGen_evtQueue : (s.setGen g x).evtQueue = s.evtQueue := rfl
@[simp] theorem State.setGen_cf : (s.setGen g x).cf = s.cf := rfl
@[simp] theorem State.setGen_pairMem : (s.setGen g x).pairMem = s.pairMem := rfl
@[simp] theorem State.setGen_hwPosts : (s.setGen g x).hwPosts = s.hwPosts := rfl
@[simp] theorem State.setGen_proc : (s.setGen g x).proc = s.proc := rfl
@[simp] theorem State.setGen_sup : (s.setGen g x).sup = s.sup := rfl
@[simp] theorem State.setGen_bist : (s.setGen g x).bist = s.bist := rfl
@[simp] theorem State.setGen_boot : (s.setGen g x).boot = s.boot := rfl
@[simp] theorem State.setGen_out : (s.setGen g x).out = s.out := rfl
@[simp] theorem State.setGen_freeCtr : (s.setGen g x).freeCtr = s.freeCtr := rfl
@[simp] theorem State.setGen_pending : (s.setGen g x).pending = s.pending := rfl
end

section
variable {s : State} {c : Nat} {x : CellX}
@[simp] theorem State.setCell_board : (s.setCell c x).board = s.board := rfl
@[simp] theorem State.setCell_pages : (s.setCell c x).pages = s.pages := rfl
@[simp] theorem State.setCell_shadows : (s.setCell c x).shadows = s.shadows := rfl
@[simp] theorem State.setCell_waits : (s.setCell c x).waits = s.waits := rfl
@[simp] theorem State.setCell_doms : (s.setCell c x).doms = s.doms := rfl
@[simp] theorem State.setCell_beam : (s.setCell c x).beam = s.beam := rfl
@[simp] theorem State.setCell_gens : (s.setCell c x).gens = s.gens := rfl
@[simp] theorem State.setCell_rods : (s.setCell c x).rods = s.rods := rfl
@[simp] theorem State.setCell_links : (s.setCell c x).links = s.links := rfl
@[simp] theorem State.setCell_safe : (s.setCell c x).safe = s.safe := rfl
@[simp] theorem State.setCell_convs : (s.setCell c x).convs = s.convs := rfl
@[simp] theorem State.setCell_digs : (s.setCell c x).digs = s.digs := rfl
@[simp] theorem State.setCell_caps : (s.setCell c x).caps = s.caps := rfl
@[simp] theorem State.setCell_mem : (s.setCell c x).mem = s.mem := rfl
@[simp] theorem State.setCell_common : (s.setCell c x).common = s.common := rfl
@[simp] theorem State.setCell_recks : (s.setCell c x).recks = s.recks := rfl
@[simp] theorem State.setCell_reckMem : (s.setCell c x).reckMem = s.reckMem := rfl
@[simp] theorem State.setCell_loops : (s.setCell c x).loops = s.loops := rfl
@[simp] theorem State.setCell_vsms : (s.setCell c x).vsms = s.vsms := rfl
@[simp] theorem State.setCell_pcnts : (s.setCell c x).pcnts = s.pcnts := rfl
@[simp] theorem State.setCell_bead : (s.setCell c x).bead = s.bead := rfl
@[simp] theorem State.setCell_home : (s.setCell c x).home = s.home := rfl
@[simp] theorem State.setCell_mbus : (s.setCell c x).mbus = s.mbus := rfl
@[simp] theorem State.setCell_modReps : (s.setCell c x).modReps = s.modReps := rfl
@[simp] theorem State.setCell_tallies : (s.setCell c x).tallies = s.tallies := rfl
@[simp] theorem State.setCell_cea : (s.setCell c x).cea = s.cea := rfl
@[simp] theorem State.setCell_eis : (s.setCell c x).eis = s.eis := rfl
@[simp] theorem State.setCell_rest : (s.setCell c x).rest = s.rest := rfl
@[simp] theorem State.setCell_sensors : (s.setCell c x).sensors = s.sensors := rfl
@[simp] theorem State.setCell_crossings : (s.setCell c x).crossings = s.crossings := rfl
@[simp] theorem State.setCell_steppers : (s.setCell c x).steppers = s.steppers := rfl
@[simp] theorem State.setCell_flinks : (s.setCell c x).flinks = s.flinks := rfl
@[simp] theorem State.setCell_router : (s.setCell c x).router = s.router := rfl
@[simp] theorem State.setCell_keys : (s.setCell c x).keys = s.keys := rfl
@[simp] theorem State.setCell_sess : (s.setCell c x).sess = s.sess := rfl
@[simp] theorem State.setCell_gate : (s.setCell c x).gate = s.gate := rfl
@[simp] theorem State.setCell_eths : (s.setCell c x).eths = s.eths := rfl
@[simp] theorem State.setCell_store : (s.setCell c x).store = s.store := rfl
@[simp] theorem State.setCell_evtQueue : (s.setCell c x).evtQueue = s.evtQueue := rfl
@[simp] theorem State.setCell_cf : (s.setCell c x).cf = s.cf := rfl
@[simp] theorem State.setCell_pairMem : (s.setCell c x).pairMem = s.pairMem := rfl
@[simp] theorem State.setCell_hwPosts : (s.setCell c x).hwPosts = s.hwPosts := rfl
@[simp] theorem State.setCell_proc : (s.setCell c x).proc = s.proc := rfl
@[simp] theorem State.setCell_sup : (s.setCell c x).sup = s.sup := rfl
@[simp] theorem State.setCell_bist : (s.setCell c x).bist = s.bist := rfl
@[simp] theorem State.setCell_boot : (s.setCell c x).boot = s.boot := rfl
@[simp] theorem State.setCell_out : (s.setCell c x).out = s.out := rfl
@[simp] theorem State.setCell_freeCtr : (s.setCell c x).freeCtr = s.freeCtr := rfl
@[simp] theorem State.setCell_pending : (s.setCell c x).pending = s.pending := rfl
end

section
variable {s : State} {x : CeaX}
@[simp] theorem State.setCea_board : (s.setCea x).board = s.board := rfl
@[simp] theorem State.setCea_pages : (s.setCea x).pages = s.pages := rfl
@[simp] theorem State.setCea_shadows : (s.setCea x).shadows = s.shadows := rfl
@[simp] theorem State.setCea_waits : (s.setCea x).waits = s.waits := rfl
@[simp] theorem State.setCea_doms : (s.setCea x).doms = s.doms := rfl
@[simp] theorem State.setCea_beam : (s.setCea x).beam = s.beam := rfl
@[simp] theorem State.setCea_gens : (s.setCea x).gens = s.gens := rfl
@[simp] theorem State.setCea_rods : (s.setCea x).rods = s.rods := rfl
@[simp] theorem State.setCea_links : (s.setCea x).links = s.links := rfl
@[simp] theorem State.setCea_safe : (s.setCea x).safe = s.safe := rfl
@[simp] theorem State.setCea_convs : (s.setCea x).convs = s.convs := rfl
@[simp] theorem State.setCea_digs : (s.setCea x).digs = s.digs := rfl
@[simp] theorem State.setCea_caps : (s.setCea x).caps = s.caps := rfl
@[simp] theorem State.setCea_mem : (s.setCea x).mem = s.mem := rfl
@[simp] theorem State.setCea_common : (s.setCea x).common = s.common := rfl
@[simp] theorem State.setCea_recks : (s.setCea x).recks = s.recks := rfl
@[simp] theorem State.setCea_reckMem : (s.setCea x).reckMem = s.reckMem := rfl
@[simp] theorem State.setCea_loops : (s.setCea x).loops = s.loops := rfl
@[simp] theorem State.setCea_vsms : (s.setCea x).vsms = s.vsms := rfl
@[simp] theorem State.setCea_pcnts : (s.setCea x).pcnts = s.pcnts := rfl
@[simp] theorem State.setCea_bead : (s.setCea x).bead = s.bead := rfl
@[simp] theorem State.setCea_home : (s.setCea x).home = s.home := rfl
@[simp] theorem State.setCea_mbus : (s.setCea x).mbus = s.mbus := rfl
@[simp] theorem State.setCea_cells : (s.setCea x).cells = s.cells := rfl
@[simp] theorem State.setCea_modReps : (s.setCea x).modReps = s.modReps := rfl
@[simp] theorem State.setCea_tallies : (s.setCea x).tallies = s.tallies := rfl
@[simp] theorem State.setCea_eis : (s.setCea x).eis = s.eis := rfl
@[simp] theorem State.setCea_rest : (s.setCea x).rest = s.rest := rfl
@[simp] theorem State.setCea_sensors : (s.setCea x).sensors = s.sensors := rfl
@[simp] theorem State.setCea_crossings : (s.setCea x).crossings = s.crossings := rfl
@[simp] theorem State.setCea_steppers : (s.setCea x).steppers = s.steppers := rfl
@[simp] theorem State.setCea_flinks : (s.setCea x).flinks = s.flinks := rfl
@[simp] theorem State.setCea_router : (s.setCea x).router = s.router := rfl
@[simp] theorem State.setCea_keys : (s.setCea x).keys = s.keys := rfl
@[simp] theorem State.setCea_sess : (s.setCea x).sess = s.sess := rfl
@[simp] theorem State.setCea_gate : (s.setCea x).gate = s.gate := rfl
@[simp] theorem State.setCea_eths : (s.setCea x).eths = s.eths := rfl
@[simp] theorem State.setCea_store : (s.setCea x).store = s.store := rfl
@[simp] theorem State.setCea_evtQueue : (s.setCea x).evtQueue = s.evtQueue := rfl
@[simp] theorem State.setCea_cf : (s.setCea x).cf = s.cf := rfl
@[simp] theorem State.setCea_pairMem : (s.setCea x).pairMem = s.pairMem := rfl
@[simp] theorem State.setCea_hwPosts : (s.setCea x).hwPosts = s.hwPosts := rfl
@[simp] theorem State.setCea_proc : (s.setCea x).proc = s.proc := rfl
@[simp] theorem State.setCea_sup : (s.setCea x).sup = s.sup := rfl
@[simp] theorem State.setCea_bist : (s.setCea x).bist = s.bist := rfl
@[simp] theorem State.setCea_boot : (s.setCea x).boot = s.boot := rfl
@[simp] theorem State.setCea_out : (s.setCea x).out = s.out := rfl
@[simp] theorem State.setCea_freeCtr : (s.setCea x).freeCtr = s.freeCtr := rfl
@[simp] theorem State.setCea_pending : (s.setCea x).pending = s.pending := rfl
end

section
variable {s : State} {m : Nat} {r : ModRep}
@[simp] theorem State.setModRep_board : (s.setModRep m r).board = s.board := rfl
@[simp] theorem State.setModRep_pages : (s.setModRep m r).pages = s.pages := rfl
@[simp] theorem State.setModRep_shadows : (s.setModRep m r).shadows = s.shadows := rfl
@[simp] theorem State.setModRep_waits : (s.setModRep m r).waits = s.waits := rfl
@[simp] theorem State.setModRep_doms : (s.setModRep m r).doms = s.doms := rfl
@[simp] theorem State.setModRep_beam : (s.setModRep m r).beam = s.beam := rfl
@[simp] theorem State.setModRep_gens : (s.setModRep m r).gens = s.gens := rfl
@[simp] theorem State.setModRep_rods : (s.setModRep m r).rods = s.rods := rfl
@[simp] theorem State.setModRep_links : (s.setModRep m r).links = s.links := rfl
@[simp] theorem State.setModRep_safe : (s.setModRep m r).safe = s.safe := rfl
@[simp] theorem State.setModRep_convs : (s.setModRep m r).convs = s.convs := rfl
@[simp] theorem State.setModRep_digs : (s.setModRep m r).digs = s.digs := rfl
@[simp] theorem State.setModRep_caps : (s.setModRep m r).caps = s.caps := rfl
@[simp] theorem State.setModRep_mem : (s.setModRep m r).mem = s.mem := rfl
@[simp] theorem State.setModRep_common : (s.setModRep m r).common = s.common := rfl
@[simp] theorem State.setModRep_recks : (s.setModRep m r).recks = s.recks := rfl
@[simp] theorem State.setModRep_reckMem : (s.setModRep m r).reckMem = s.reckMem := rfl
@[simp] theorem State.setModRep_loops : (s.setModRep m r).loops = s.loops := rfl
@[simp] theorem State.setModRep_vsms : (s.setModRep m r).vsms = s.vsms := rfl
@[simp] theorem State.setModRep_pcnts : (s.setModRep m r).pcnts = s.pcnts := rfl
@[simp] theorem State.setModRep_bead : (s.setModRep m r).bead = s.bead := rfl
@[simp] theorem State.setModRep_home : (s.setModRep m r).home = s.home := rfl
@[simp] theorem State.setModRep_mbus : (s.setModRep m r).mbus = s.mbus := rfl
@[simp] theorem State.setModRep_cells : (s.setModRep m r).cells = s.cells := rfl
@[simp] theorem State.setModRep_tallies : (s.setModRep m r).tallies = s.tallies := rfl
@[simp] theorem State.setModRep_cea : (s.setModRep m r).cea = s.cea := rfl
@[simp] theorem State.setModRep_eis : (s.setModRep m r).eis = s.eis := rfl
@[simp] theorem State.setModRep_rest : (s.setModRep m r).rest = s.rest := rfl
@[simp] theorem State.setModRep_sensors : (s.setModRep m r).sensors = s.sensors := rfl
@[simp] theorem State.setModRep_crossings : (s.setModRep m r).crossings = s.crossings := rfl
@[simp] theorem State.setModRep_steppers : (s.setModRep m r).steppers = s.steppers := rfl
@[simp] theorem State.setModRep_flinks : (s.setModRep m r).flinks = s.flinks := rfl
@[simp] theorem State.setModRep_router : (s.setModRep m r).router = s.router := rfl
@[simp] theorem State.setModRep_keys : (s.setModRep m r).keys = s.keys := rfl
@[simp] theorem State.setModRep_sess : (s.setModRep m r).sess = s.sess := rfl
@[simp] theorem State.setModRep_gate : (s.setModRep m r).gate = s.gate := rfl
@[simp] theorem State.setModRep_eths : (s.setModRep m r).eths = s.eths := rfl
@[simp] theorem State.setModRep_store : (s.setModRep m r).store = s.store := rfl
@[simp] theorem State.setModRep_evtQueue : (s.setModRep m r).evtQueue = s.evtQueue := rfl
@[simp] theorem State.setModRep_cf : (s.setModRep m r).cf = s.cf := rfl
@[simp] theorem State.setModRep_pairMem : (s.setModRep m r).pairMem = s.pairMem := rfl
@[simp] theorem State.setModRep_hwPosts : (s.setModRep m r).hwPosts = s.hwPosts := rfl
@[simp] theorem State.setModRep_proc : (s.setModRep m r).proc = s.proc := rfl
@[simp] theorem State.setModRep_sup : (s.setModRep m r).sup = s.sup := rfl
@[simp] theorem State.setModRep_bist : (s.setModRep m r).bist = s.bist := rfl
@[simp] theorem State.setModRep_boot : (s.setModRep m r).boot = s.boot := rfl
@[simp] theorem State.setModRep_out : (s.setModRep m r).out = s.out := rfl
@[simp] theorem State.setModRep_freeCtr : (s.setModRep m r).freeCtr = s.freeCtr := rfl
@[simp] theorem State.setModRep_pending : (s.setModRep m r).pending = s.pending := rfl
end

section
variable {s : State} {r : Nat} {x : TallyX}
@[simp] theorem State.setTally_board : (s.setTally r x).board = s.board := rfl
@[simp] theorem State.setTally_pages : (s.setTally r x).pages = s.pages := rfl
@[simp] theorem State.setTally_shadows : (s.setTally r x).shadows = s.shadows := rfl
@[simp] theorem State.setTally_waits : (s.setTally r x).waits = s.waits := rfl
@[simp] theorem State.setTally_doms : (s.setTally r x).doms = s.doms := rfl
@[simp] theorem State.setTally_beam : (s.setTally r x).beam = s.beam := rfl
@[simp] theorem State.setTally_gens : (s.setTally r x).gens = s.gens := rfl
@[simp] theorem State.setTally_rods : (s.setTally r x).rods = s.rods := rfl
@[simp] theorem State.setTally_links : (s.setTally r x).links = s.links := rfl
@[simp] theorem State.setTally_safe : (s.setTally r x).safe = s.safe := rfl
@[simp] theorem State.setTally_convs : (s.setTally r x).convs = s.convs := rfl
@[simp] theorem State.setTally_digs : (s.setTally r x).digs = s.digs := rfl
@[simp] theorem State.setTally_caps : (s.setTally r x).caps = s.caps := rfl
@[simp] theorem State.setTally_mem : (s.setTally r x).mem = s.mem := rfl
@[simp] theorem State.setTally_common : (s.setTally r x).common = s.common := rfl
@[simp] theorem State.setTally_recks : (s.setTally r x).recks = s.recks := rfl
@[simp] theorem State.setTally_reckMem : (s.setTally r x).reckMem = s.reckMem := rfl
@[simp] theorem State.setTally_loops : (s.setTally r x).loops = s.loops := rfl
@[simp] theorem State.setTally_vsms : (s.setTally r x).vsms = s.vsms := rfl
@[simp] theorem State.setTally_pcnts : (s.setTally r x).pcnts = s.pcnts := rfl
@[simp] theorem State.setTally_bead : (s.setTally r x).bead = s.bead := rfl
@[simp] theorem State.setTally_home : (s.setTally r x).home = s.home := rfl
@[simp] theorem State.setTally_mbus : (s.setTally r x).mbus = s.mbus := rfl
@[simp] theorem State.setTally_cells : (s.setTally r x).cells = s.cells := rfl
@[simp] theorem State.setTally_modReps : (s.setTally r x).modReps = s.modReps := rfl
@[simp] theorem State.setTally_cea : (s.setTally r x).cea = s.cea := rfl
@[simp] theorem State.setTally_eis : (s.setTally r x).eis = s.eis := rfl
@[simp] theorem State.setTally_rest : (s.setTally r x).rest = s.rest := rfl
@[simp] theorem State.setTally_sensors : (s.setTally r x).sensors = s.sensors := rfl
@[simp] theorem State.setTally_crossings : (s.setTally r x).crossings = s.crossings := rfl
@[simp] theorem State.setTally_steppers : (s.setTally r x).steppers = s.steppers := rfl
@[simp] theorem State.setTally_flinks : (s.setTally r x).flinks = s.flinks := rfl
@[simp] theorem State.setTally_router : (s.setTally r x).router = s.router := rfl
@[simp] theorem State.setTally_keys : (s.setTally r x).keys = s.keys := rfl
@[simp] theorem State.setTally_sess : (s.setTally r x).sess = s.sess := rfl
@[simp] theorem State.setTally_gate : (s.setTally r x).gate = s.gate := rfl
@[simp] theorem State.setTally_eths : (s.setTally r x).eths = s.eths := rfl
@[simp] theorem State.setTally_store : (s.setTally r x).store = s.store := rfl
@[simp] theorem State.setTally_evtQueue : (s.setTally r x).evtQueue = s.evtQueue := rfl
@[simp] theorem State.setTally_cf : (s.setTally r x).cf = s.cf := rfl
@[simp] theorem State.setTally_pairMem : (s.setTally r x).pairMem = s.pairMem := rfl
@[simp] theorem State.setTally_hwPosts : (s.setTally r x).hwPosts = s.hwPosts := rfl
@[simp] theorem State.setTally_proc : (s.setTally r x).proc = s.proc := rfl
@[simp] theorem State.setTally_sup : (s.setTally r x).sup = s.sup := rfl
@[simp] theorem State.setTally_bist : (s.setTally r x).bist = s.bist := rfl
@[simp] theorem State.setTally_boot : (s.setTally r x).boot = s.boot := rfl
@[simp] theorem State.setTally_out : (s.setTally r x).out = s.out := rfl
@[simp] theorem State.setTally_freeCtr : (s.setTally r x).freeCtr = s.freeCtr := rfl
@[simp] theorem State.setTally_pending : (s.setTally r x).pending = s.pending := rfl
end

section
variable {s : State} {l : Nat} {x : FabX}
@[simp] theorem State.setFab_board : (s.setFab l x).board = s.board := rfl
@[simp] theorem State.setFab_pages : (s.setFab l x).pages = s.pages := rfl
@[simp] theorem State.setFab_shadows : (s.setFab l x).shadows = s.shadows := rfl
@[simp] theorem State.setFab_waits : (s.setFab l x).waits = s.waits := rfl
@[simp] theorem State.setFab_doms : (s.setFab l x).doms = s.doms := rfl
@[simp] theorem State.setFab_beam : (s.setFab l x).beam = s.beam := rfl
@[simp] theorem State.setFab_gens : (s.setFab l x).gens = s.gens := rfl
@[simp] theorem State.setFab_rods : (s.setFab l x).rods = s.rods := rfl
@[simp] theorem State.setFab_links : (s.setFab l x).links = s.links := rfl
@[simp] theorem State.setFab_safe : (s.setFab l x).safe = s.safe := rfl
@[simp] theorem State.setFab_convs : (s.setFab l x).convs = s.convs := rfl
@[simp] theorem State.setFab_digs : (s.setFab l x).digs = s.digs := rfl
@[simp] theorem State.setFab_caps : (s.setFab l x).caps = s.caps := rfl
@[simp] theorem State.setFab_mem : (s.setFab l x).mem = s.mem := rfl
@[simp] theorem State.setFab_common : (s.setFab l x).common = s.common := rfl
@[simp] theorem State.setFab_recks : (s.setFab l x).recks = s.recks := rfl
@[simp] theorem State.setFab_reckMem : (s.setFab l x).reckMem = s.reckMem := rfl
@[simp] theorem State.setFab_loops : (s.setFab l x).loops = s.loops := rfl
@[simp] theorem State.setFab_vsms : (s.setFab l x).vsms = s.vsms := rfl
@[simp] theorem State.setFab_pcnts : (s.setFab l x).pcnts = s.pcnts := rfl
@[simp] theorem State.setFab_bead : (s.setFab l x).bead = s.bead := rfl
@[simp] theorem State.setFab_home : (s.setFab l x).home = s.home := rfl
@[simp] theorem State.setFab_mbus : (s.setFab l x).mbus = s.mbus := rfl
@[simp] theorem State.setFab_cells : (s.setFab l x).cells = s.cells := rfl
@[simp] theorem State.setFab_modReps : (s.setFab l x).modReps = s.modReps := rfl
@[simp] theorem State.setFab_tallies : (s.setFab l x).tallies = s.tallies := rfl
@[simp] theorem State.setFab_cea : (s.setFab l x).cea = s.cea := rfl
@[simp] theorem State.setFab_eis : (s.setFab l x).eis = s.eis := rfl
@[simp] theorem State.setFab_rest : (s.setFab l x).rest = s.rest := rfl
@[simp] theorem State.setFab_sensors : (s.setFab l x).sensors = s.sensors := rfl
@[simp] theorem State.setFab_crossings : (s.setFab l x).crossings = s.crossings := rfl
@[simp] theorem State.setFab_steppers : (s.setFab l x).steppers = s.steppers := rfl
@[simp] theorem State.setFab_router : (s.setFab l x).router = s.router := rfl
@[simp] theorem State.setFab_keys : (s.setFab l x).keys = s.keys := rfl
@[simp] theorem State.setFab_sess : (s.setFab l x).sess = s.sess := rfl
@[simp] theorem State.setFab_gate : (s.setFab l x).gate = s.gate := rfl
@[simp] theorem State.setFab_eths : (s.setFab l x).eths = s.eths := rfl
@[simp] theorem State.setFab_store : (s.setFab l x).store = s.store := rfl
@[simp] theorem State.setFab_evtQueue : (s.setFab l x).evtQueue = s.evtQueue := rfl
@[simp] theorem State.setFab_cf : (s.setFab l x).cf = s.cf := rfl
@[simp] theorem State.setFab_pairMem : (s.setFab l x).pairMem = s.pairMem := rfl
@[simp] theorem State.setFab_hwPosts : (s.setFab l x).hwPosts = s.hwPosts := rfl
@[simp] theorem State.setFab_proc : (s.setFab l x).proc = s.proc := rfl
@[simp] theorem State.setFab_sup : (s.setFab l x).sup = s.sup := rfl
@[simp] theorem State.setFab_bist : (s.setFab l x).bist = s.bist := rfl
@[simp] theorem State.setFab_boot : (s.setFab l x).boot = s.boot := rfl
@[simp] theorem State.setFab_out : (s.setFab l x).out = s.out := rfl
@[simp] theorem State.setFab_freeCtr : (s.setFab l x).freeCtr = s.freeCtr := rfl
@[simp] theorem State.setFab_pending : (s.setFab l x).pending = s.pending := rfl
end

section
variable {s : State} {x : RouterX}
@[simp] theorem State.setRouter_board : (s.setRouter x).board = s.board := rfl
@[simp] theorem State.setRouter_pages : (s.setRouter x).pages = s.pages := rfl
@[simp] theorem State.setRouter_shadows : (s.setRouter x).shadows = s.shadows := rfl
@[simp] theorem State.setRouter_waits : (s.setRouter x).waits = s.waits := rfl
@[simp] theorem State.setRouter_doms : (s.setRouter x).doms = s.doms := rfl
@[simp] theorem State.setRouter_beam : (s.setRouter x).beam = s.beam := rfl
@[simp] theorem State.setRouter_gens : (s.setRouter x).gens = s.gens := rfl
@[simp] theorem State.setRouter_rods : (s.setRouter x).rods = s.rods := rfl
@[simp] theorem State.setRouter_links : (s.setRouter x).links = s.links := rfl
@[simp] theorem State.setRouter_safe : (s.setRouter x).safe = s.safe := rfl
@[simp] theorem State.setRouter_convs : (s.setRouter x).convs = s.convs := rfl
@[simp] theorem State.setRouter_digs : (s.setRouter x).digs = s.digs := rfl
@[simp] theorem State.setRouter_caps : (s.setRouter x).caps = s.caps := rfl
@[simp] theorem State.setRouter_mem : (s.setRouter x).mem = s.mem := rfl
@[simp] theorem State.setRouter_common : (s.setRouter x).common = s.common := rfl
@[simp] theorem State.setRouter_recks : (s.setRouter x).recks = s.recks := rfl
@[simp] theorem State.setRouter_reckMem : (s.setRouter x).reckMem = s.reckMem := rfl
@[simp] theorem State.setRouter_loops : (s.setRouter x).loops = s.loops := rfl
@[simp] theorem State.setRouter_vsms : (s.setRouter x).vsms = s.vsms := rfl
@[simp] theorem State.setRouter_pcnts : (s.setRouter x).pcnts = s.pcnts := rfl
@[simp] theorem State.setRouter_bead : (s.setRouter x).bead = s.bead := rfl
@[simp] theorem State.setRouter_home : (s.setRouter x).home = s.home := rfl
@[simp] theorem State.setRouter_mbus : (s.setRouter x).mbus = s.mbus := rfl
@[simp] theorem State.setRouter_cells : (s.setRouter x).cells = s.cells := rfl
@[simp] theorem State.setRouter_modReps : (s.setRouter x).modReps = s.modReps := rfl
@[simp] theorem State.setRouter_tallies : (s.setRouter x).tallies = s.tallies := rfl
@[simp] theorem State.setRouter_cea : (s.setRouter x).cea = s.cea := rfl
@[simp] theorem State.setRouter_eis : (s.setRouter x).eis = s.eis := rfl
@[simp] theorem State.setRouter_rest : (s.setRouter x).rest = s.rest := rfl
@[simp] theorem State.setRouter_sensors : (s.setRouter x).sensors = s.sensors := rfl
@[simp] theorem State.setRouter_crossings : (s.setRouter x).crossings = s.crossings := rfl
@[simp] theorem State.setRouter_steppers : (s.setRouter x).steppers = s.steppers := rfl
@[simp] theorem State.setRouter_flinks : (s.setRouter x).flinks = s.flinks := rfl
@[simp] theorem State.setRouter_keys : (s.setRouter x).keys = s.keys := rfl
@[simp] theorem State.setRouter_sess : (s.setRouter x).sess = s.sess := rfl
@[simp] theorem State.setRouter_gate : (s.setRouter x).gate = s.gate := rfl
@[simp] theorem State.setRouter_eths : (s.setRouter x).eths = s.eths := rfl
@[simp] theorem State.setRouter_store : (s.setRouter x).store = s.store := rfl
@[simp] theorem State.setRouter_evtQueue : (s.setRouter x).evtQueue = s.evtQueue := rfl
@[simp] theorem State.setRouter_cf : (s.setRouter x).cf = s.cf := rfl
@[simp] theorem State.setRouter_pairMem : (s.setRouter x).pairMem = s.pairMem := rfl
@[simp] theorem State.setRouter_hwPosts : (s.setRouter x).hwPosts = s.hwPosts := rfl
@[simp] theorem State.setRouter_proc : (s.setRouter x).proc = s.proc := rfl
@[simp] theorem State.setRouter_sup : (s.setRouter x).sup = s.sup := rfl
@[simp] theorem State.setRouter_bist : (s.setRouter x).bist = s.bist := rfl
@[simp] theorem State.setRouter_boot : (s.setRouter x).boot = s.boot := rfl
@[simp] theorem State.setRouter_out : (s.setRouter x).out = s.out := rfl
@[simp] theorem State.setRouter_freeCtr : (s.setRouter x).freeCtr = s.freeCtr := rfl
@[simp] theorem State.setRouter_pending : (s.setRouter x).pending = s.pending := rfl
end

section
variable {s : State} {k : Nat} {x : EthX}
@[simp] theorem State.setEth_board : (s.setEth k x).board = s.board := rfl
@[simp] theorem State.setEth_pages : (s.setEth k x).pages = s.pages := rfl
@[simp] theorem State.setEth_shadows : (s.setEth k x).shadows = s.shadows := rfl
@[simp] theorem State.setEth_waits : (s.setEth k x).waits = s.waits := rfl
@[simp] theorem State.setEth_doms : (s.setEth k x).doms = s.doms := rfl
@[simp] theorem State.setEth_beam : (s.setEth k x).beam = s.beam := rfl
@[simp] theorem State.setEth_gens : (s.setEth k x).gens = s.gens := rfl
@[simp] theorem State.setEth_rods : (s.setEth k x).rods = s.rods := rfl
@[simp] theorem State.setEth_links : (s.setEth k x).links = s.links := rfl
@[simp] theorem State.setEth_safe : (s.setEth k x).safe = s.safe := rfl
@[simp] theorem State.setEth_convs : (s.setEth k x).convs = s.convs := rfl
@[simp] theorem State.setEth_digs : (s.setEth k x).digs = s.digs := rfl
@[simp] theorem State.setEth_caps : (s.setEth k x).caps = s.caps := rfl
@[simp] theorem State.setEth_mem : (s.setEth k x).mem = s.mem := rfl
@[simp] theorem State.setEth_common : (s.setEth k x).common = s.common := rfl
@[simp] theorem State.setEth_recks : (s.setEth k x).recks = s.recks := rfl
@[simp] theorem State.setEth_reckMem : (s.setEth k x).reckMem = s.reckMem := rfl
@[simp] theorem State.setEth_loops : (s.setEth k x).loops = s.loops := rfl
@[simp] theorem State.setEth_vsms : (s.setEth k x).vsms = s.vsms := rfl
@[simp] theorem State.setEth_pcnts : (s.setEth k x).pcnts = s.pcnts := rfl
@[simp] theorem State.setEth_bead : (s.setEth k x).bead = s.bead := rfl
@[simp] theorem State.setEth_home : (s.setEth k x).home = s.home := rfl
@[simp] theorem State.setEth_mbus : (s.setEth k x).mbus = s.mbus := rfl
@[simp] theorem State.setEth_cells : (s.setEth k x).cells = s.cells := rfl
@[simp] theorem State.setEth_modReps : (s.setEth k x).modReps = s.modReps := rfl
@[simp] theorem State.setEth_tallies : (s.setEth k x).tallies = s.tallies := rfl
@[simp] theorem State.setEth_cea : (s.setEth k x).cea = s.cea := rfl
@[simp] theorem State.setEth_eis : (s.setEth k x).eis = s.eis := rfl
@[simp] theorem State.setEth_rest : (s.setEth k x).rest = s.rest := rfl
@[simp] theorem State.setEth_sensors : (s.setEth k x).sensors = s.sensors := rfl
@[simp] theorem State.setEth_crossings : (s.setEth k x).crossings = s.crossings := rfl
@[simp] theorem State.setEth_steppers : (s.setEth k x).steppers = s.steppers := rfl
@[simp] theorem State.setEth_flinks : (s.setEth k x).flinks = s.flinks := rfl
@[simp] theorem State.setEth_router : (s.setEth k x).router = s.router := rfl
@[simp] theorem State.setEth_keys : (s.setEth k x).keys = s.keys := rfl
@[simp] theorem State.setEth_sess : (s.setEth k x).sess = s.sess := rfl
@[simp] theorem State.setEth_gate : (s.setEth k x).gate = s.gate := rfl
@[simp] theorem State.setEth_store : (s.setEth k x).store = s.store := rfl
@[simp] theorem State.setEth_evtQueue : (s.setEth k x).evtQueue = s.evtQueue := rfl
@[simp] theorem State.setEth_cf : (s.setEth k x).cf = s.cf := rfl
@[simp] theorem State.setEth_pairMem : (s.setEth k x).pairMem = s.pairMem := rfl
@[simp] theorem State.setEth_hwPosts : (s.setEth k x).hwPosts = s.hwPosts := rfl
@[simp] theorem State.setEth_proc : (s.setEth k x).proc = s.proc := rfl
@[simp] theorem State.setEth_sup : (s.setEth k x).sup = s.sup := rfl
@[simp] theorem State.setEth_bist : (s.setEth k x).bist = s.bist := rfl
@[simp] theorem State.setEth_boot : (s.setEth k x).boot = s.boot := rfl
@[simp] theorem State.setEth_out : (s.setEth k x).out = s.out := rfl
@[simp] theorem State.setEth_freeCtr : (s.setEth k x).freeCtr = s.freeCtr := rfl
@[simp] theorem State.setEth_pending : (s.setEth k x).pending = s.pending := rfl
end

section
variable {s : State} {n : Nat} {x : SessX}
@[simp] theorem State.setSes_board : (s.setSes n x).board = s.board := rfl
@[simp] theorem State.setSes_pages : (s.setSes n x).pages = s.pages := rfl
@[simp] theorem State.setSes_shadows : (s.setSes n x).shadows = s.shadows := rfl
@[simp] theorem State.setSes_waits : (s.setSes n x).waits = s.waits := rfl
@[simp] theorem State.setSes_doms : (s.setSes n x).doms = s.doms := rfl
@[simp] theorem State.setSes_beam : (s.setSes n x).beam = s.beam := rfl
@[simp] theorem State.setSes_gens : (s.setSes n x).gens = s.gens := rfl
@[simp] theorem State.setSes_rods : (s.setSes n x).rods = s.rods := rfl
@[simp] theorem State.setSes_links : (s.setSes n x).links = s.links := rfl
@[simp] theorem State.setSes_safe : (s.setSes n x).safe = s.safe := rfl
@[simp] theorem State.setSes_convs : (s.setSes n x).convs = s.convs := rfl
@[simp] theorem State.setSes_digs : (s.setSes n x).digs = s.digs := rfl
@[simp] theorem State.setSes_caps : (s.setSes n x).caps = s.caps := rfl
@[simp] theorem State.setSes_mem : (s.setSes n x).mem = s.mem := rfl
@[simp] theorem State.setSes_common : (s.setSes n x).common = s.common := rfl
@[simp] theorem State.setSes_recks : (s.setSes n x).recks = s.recks := rfl
@[simp] theorem State.setSes_reckMem : (s.setSes n x).reckMem = s.reckMem := rfl
@[simp] theorem State.setSes_loops : (s.setSes n x).loops = s.loops := rfl
@[simp] theorem State.setSes_vsms : (s.setSes n x).vsms = s.vsms := rfl
@[simp] theorem State.setSes_pcnts : (s.setSes n x).pcnts = s.pcnts := rfl
@[simp] theorem State.setSes_bead : (s.setSes n x).bead = s.bead := rfl
@[simp] theorem State.setSes_home : (s.setSes n x).home = s.home := rfl
@[simp] theorem State.setSes_mbus : (s.setSes n x).mbus = s.mbus := rfl
@[simp] theorem State.setSes_cells : (s.setSes n x).cells = s.cells := rfl
@[simp] theorem State.setSes_modReps : (s.setSes n x).modReps = s.modReps := rfl
@[simp] theorem State.setSes_tallies : (s.setSes n x).tallies = s.tallies := rfl
@[simp] theorem State.setSes_cea : (s.setSes n x).cea = s.cea := rfl
@[simp] theorem State.setSes_eis : (s.setSes n x).eis = s.eis := rfl
@[simp] theorem State.setSes_rest : (s.setSes n x).rest = s.rest := rfl
@[simp] theorem State.setSes_sensors : (s.setSes n x).sensors = s.sensors := rfl
@[simp] theorem State.setSes_crossings : (s.setSes n x).crossings = s.crossings := rfl
@[simp] theorem State.setSes_steppers : (s.setSes n x).steppers = s.steppers := rfl
@[simp] theorem State.setSes_flinks : (s.setSes n x).flinks = s.flinks := rfl
@[simp] theorem State.setSes_router : (s.setSes n x).router = s.router := rfl
@[simp] theorem State.setSes_keys : (s.setSes n x).keys = s.keys := rfl
@[simp] theorem State.setSes_gate : (s.setSes n x).gate = s.gate := rfl
@[simp] theorem State.setSes_eths : (s.setSes n x).eths = s.eths := rfl
@[simp] theorem State.setSes_store : (s.setSes n x).store = s.store := rfl
@[simp] theorem State.setSes_evtQueue : (s.setSes n x).evtQueue = s.evtQueue := rfl
@[simp] theorem State.setSes_cf : (s.setSes n x).cf = s.cf := rfl
@[simp] theorem State.setSes_pairMem : (s.setSes n x).pairMem = s.pairMem := rfl
@[simp] theorem State.setSes_hwPosts : (s.setSes n x).hwPosts = s.hwPosts := rfl
@[simp] theorem State.setSes_proc : (s.setSes n x).proc = s.proc := rfl
@[simp] theorem State.setSes_sup : (s.setSes n x).sup = s.sup := rfl
@[simp] theorem State.setSes_bist : (s.setSes n x).bist = s.bist := rfl
@[simp] theorem State.setSes_boot : (s.setSes n x).boot = s.boot := rfl
@[simp] theorem State.setSes_out : (s.setSes n x).out = s.out := rfl
@[simp] theorem State.setSes_freeCtr : (s.setSes n x).freeCtr = s.freeCtr := rfl
@[simp] theorem State.setSes_pending : (s.setSes n x).pending = s.pending := rfl
end

section
variable {s : State} {x : GateX}
@[simp] theorem State.setGate_board : (s.setGate x).board = s.board := rfl
@[simp] theorem State.setGate_pages : (s.setGate x).pages = s.pages := rfl
@[simp] theorem State.setGate_shadows : (s.setGate x).shadows = s.shadows := rfl
@[simp] theorem State.setGate_waits : (s.setGate x).waits = s.waits := rfl
@[simp] theorem State.setGate_doms : (s.setGate x).doms = s.doms := rfl
@[simp] theorem State.setGate_beam : (s.setGate x).beam = s.beam := rfl
@[simp] theorem State.setGate_gens : (s.setGate x).gens = s.gens := rfl
@[simp] theorem State.setGate_rods : (s.setGate x).rods = s.rods := rfl
@[simp] theorem State.setGate_links : (s.setGate x).links = s.links := rfl
@[simp] theorem State.setGate_safe : (s.setGate x).safe = s.safe := rfl
@[simp] theorem State.setGate_convs : (s.setGate x).convs = s.convs := rfl
@[simp] theorem State.setGate_digs : (s.setGate x).digs = s.digs := rfl
@[simp] theorem State.setGate_caps : (s.setGate x).caps = s.caps := rfl
@[simp] theorem State.setGate_mem : (s.setGate x).mem = s.mem := rfl
@[simp] theorem State.setGate_common : (s.setGate x).common = s.common := rfl
@[simp] theorem State.setGate_recks : (s.setGate x).recks = s.recks := rfl
@[simp] theorem State.setGate_reckMem : (s.setGate x).reckMem = s.reckMem := rfl
@[simp] theorem State.setGate_loops : (s.setGate x).loops = s.loops := rfl
@[simp] theorem State.setGate_vsms : (s.setGate x).vsms = s.vsms := rfl
@[simp] theorem State.setGate_pcnts : (s.setGate x).pcnts = s.pcnts := rfl
@[simp] theorem State.setGate_bead : (s.setGate x).bead = s.bead := rfl
@[simp] theorem State.setGate_home : (s.setGate x).home = s.home := rfl
@[simp] theorem State.setGate_mbus : (s.setGate x).mbus = s.mbus := rfl
@[simp] theorem State.setGate_cells : (s.setGate x).cells = s.cells := rfl
@[simp] theorem State.setGate_modReps : (s.setGate x).modReps = s.modReps := rfl
@[simp] theorem State.setGate_tallies : (s.setGate x).tallies = s.tallies := rfl
@[simp] theorem State.setGate_cea : (s.setGate x).cea = s.cea := rfl
@[simp] theorem State.setGate_eis : (s.setGate x).eis = s.eis := rfl
@[simp] theorem State.setGate_rest : (s.setGate x).rest = s.rest := rfl
@[simp] theorem State.setGate_sensors : (s.setGate x).sensors = s.sensors := rfl
@[simp] theorem State.setGate_crossings : (s.setGate x).crossings = s.crossings := rfl
@[simp] theorem State.setGate_steppers : (s.setGate x).steppers = s.steppers := rfl
@[simp] theorem State.setGate_flinks : (s.setGate x).flinks = s.flinks := rfl
@[simp] theorem State.setGate_router : (s.setGate x).router = s.router := rfl
@[simp] theorem State.setGate_keys : (s.setGate x).keys = s.keys := rfl
@[simp] theorem State.setGate_sess : (s.setGate x).sess = s.sess := rfl
@[simp] theorem State.setGate_eths : (s.setGate x).eths = s.eths := rfl
@[simp] theorem State.setGate_store : (s.setGate x).store = s.store := rfl
@[simp] theorem State.setGate_evtQueue : (s.setGate x).evtQueue = s.evtQueue := rfl
@[simp] theorem State.setGate_cf : (s.setGate x).cf = s.cf := rfl
@[simp] theorem State.setGate_pairMem : (s.setGate x).pairMem = s.pairMem := rfl
@[simp] theorem State.setGate_hwPosts : (s.setGate x).hwPosts = s.hwPosts := rfl
@[simp] theorem State.setGate_proc : (s.setGate x).proc = s.proc := rfl
@[simp] theorem State.setGate_sup : (s.setGate x).sup = s.sup := rfl
@[simp] theorem State.setGate_bist : (s.setGate x).bist = s.bist := rfl
@[simp] theorem State.setGate_boot : (s.setGate x).boot = s.boot := rfl
@[simp] theorem State.setGate_out : (s.setGate x).out = s.out := rfl
@[simp] theorem State.setGate_freeCtr : (s.setGate x).freeCtr = s.freeCtr := rfl
@[simp] theorem State.setGate_pending : (s.setGate x).pending = s.pending := rfl
end

section
variable {s : State} {x : KeysX}
@[simp] theorem State.setKeys_board : (s.setKeys x).board = s.board := rfl
@[simp] theorem State.setKeys_pages : (s.setKeys x).pages = s.pages := rfl
@[simp] theorem State.setKeys_shadows : (s.setKeys x).shadows = s.shadows := rfl
@[simp] theorem State.setKeys_waits : (s.setKeys x).waits = s.waits := rfl
@[simp] theorem State.setKeys_doms : (s.setKeys x).doms = s.doms := rfl
@[simp] theorem State.setKeys_beam : (s.setKeys x).beam = s.beam := rfl
@[simp] theorem State.setKeys_gens : (s.setKeys x).gens = s.gens := rfl
@[simp] theorem State.setKeys_rods : (s.setKeys x).rods = s.rods := rfl
@[simp] theorem State.setKeys_links : (s.setKeys x).links = s.links := rfl
@[simp] theorem State.setKeys_safe : (s.setKeys x).safe = s.safe := rfl
@[simp] theorem State.setKeys_convs : (s.setKeys x).convs = s.convs := rfl
@[simp] theorem State.setKeys_digs : (s.setKeys x).digs = s.digs := rfl
@[simp] theorem State.setKeys_caps : (s.setKeys x).caps = s.caps := rfl
@[simp] theorem State.setKeys_mem : (s.setKeys x).mem = s.mem := rfl
@[simp] theorem State.setKeys_common : (s.setKeys x).common = s.common := rfl
@[simp] theorem State.setKeys_recks : (s.setKeys x).recks = s.recks := rfl
@[simp] theorem State.setKeys_reckMem : (s.setKeys x).reckMem = s.reckMem := rfl
@[simp] theorem State.setKeys_loops : (s.setKeys x).loops = s.loops := rfl
@[simp] theorem State.setKeys_vsms : (s.setKeys x).vsms = s.vsms := rfl
@[simp] theorem State.setKeys_pcnts : (s.setKeys x).pcnts = s.pcnts := rfl
@[simp] theorem State.setKeys_bead : (s.setKeys x).bead = s.bead := rfl
@[simp] theorem State.setKeys_home : (s.setKeys x).home = s.home := rfl
@[simp] theorem State.setKeys_mbus : (s.setKeys x).mbus = s.mbus := rfl
@[simp] theorem State.setKeys_cells : (s.setKeys x).cells = s.cells := rfl
@[simp] theorem State.setKeys_modReps : (s.setKeys x).modReps = s.modReps := rfl
@[simp] theorem State.setKeys_tallies : (s.setKeys x).tallies = s.tallies := rfl
@[simp] theorem State.setKeys_cea : (s.setKeys x).cea = s.cea := rfl
@[simp] theorem State.setKeys_eis : (s.setKeys x).eis = s.eis := rfl
@[simp] theorem State.setKeys_rest : (s.setKeys x).rest = s.rest := rfl
@[simp] theorem State.setKeys_sensors : (s.setKeys x).sensors = s.sensors := rfl
@[simp] theorem State.setKeys_crossings : (s.setKeys x).crossings = s.crossings := rfl
@[simp] theorem State.setKeys_steppers : (s.setKeys x).steppers = s.steppers := rfl
@[simp] theorem State.setKeys_flinks : (s.setKeys x).flinks = s.flinks := rfl
@[simp] theorem State.setKeys_router : (s.setKeys x).router = s.router := rfl
@[simp] theorem State.setKeys_sess : (s.setKeys x).sess = s.sess := rfl
@[simp] theorem State.setKeys_gate : (s.setKeys x).gate = s.gate := rfl
@[simp] theorem State.setKeys_eths : (s.setKeys x).eths = s.eths := rfl
@[simp] theorem State.setKeys_store : (s.setKeys x).store = s.store := rfl
@[simp] theorem State.setKeys_evtQueue : (s.setKeys x).evtQueue = s.evtQueue := rfl
@[simp] theorem State.setKeys_cf : (s.setKeys x).cf = s.cf := rfl
@[simp] theorem State.setKeys_pairMem : (s.setKeys x).pairMem = s.pairMem := rfl
@[simp] theorem State.setKeys_hwPosts : (s.setKeys x).hwPosts = s.hwPosts := rfl
@[simp] theorem State.setKeys_proc : (s.setKeys x).proc = s.proc := rfl
@[simp] theorem State.setKeys_sup : (s.setKeys x).sup = s.sup := rfl
@[simp] theorem State.setKeys_bist : (s.setKeys x).bist = s.bist := rfl
@[simp] theorem State.setKeys_boot : (s.setKeys x).boot = s.boot := rfl
@[simp] theorem State.setKeys_out : (s.setKeys x).out = s.out := rfl
@[simp] theorem State.setKeys_freeCtr : (s.setKeys x).freeCtr = s.freeCtr := rfl
@[simp] theorem State.setKeys_pending : (s.setKeys x).pending = s.pending := rfl
end

section
variable {s : State} {c : Nat} {x : PcntX}
@[simp] theorem State.setPcnt_board : (s.setPcnt c x).board = s.board := rfl
@[simp] theorem State.setPcnt_pages : (s.setPcnt c x).pages = s.pages := rfl
@[simp] theorem State.setPcnt_shadows : (s.setPcnt c x).shadows = s.shadows := rfl
@[simp] theorem State.setPcnt_waits : (s.setPcnt c x).waits = s.waits := rfl
@[simp] theorem State.setPcnt_doms : (s.setPcnt c x).doms = s.doms := rfl
@[simp] theorem State.setPcnt_beam : (s.setPcnt c x).beam = s.beam := rfl
@[simp] theorem State.setPcnt_gens : (s.setPcnt c x).gens = s.gens := rfl
@[simp] theorem State.setPcnt_rods : (s.setPcnt c x).rods = s.rods := rfl
@[simp] theorem State.setPcnt_links : (s.setPcnt c x).links = s.links := rfl
@[simp] theorem State.setPcnt_safe : (s.setPcnt c x).safe = s.safe := rfl
@[simp] theorem State.setPcnt_convs : (s.setPcnt c x).convs = s.convs := rfl
@[simp] theorem State.setPcnt_digs : (s.setPcnt c x).digs = s.digs := rfl
@[simp] theorem State.setPcnt_caps : (s.setPcnt c x).caps = s.caps := rfl
@[simp] theorem State.setPcnt_mem : (s.setPcnt c x).mem = s.mem := rfl
@[simp] theorem State.setPcnt_common : (s.setPcnt c x).common = s.common := rfl
@[simp] theorem State.setPcnt_recks : (s.setPcnt c x).recks = s.recks := rfl
@[simp] theorem State.setPcnt_reckMem : (s.setPcnt c x).reckMem = s.reckMem := rfl
@[simp] theorem State.setPcnt_loops : (s.setPcnt c x).loops = s.loops := rfl
@[simp] theorem State.setPcnt_vsms : (s.setPcnt c x).vsms = s.vsms := rfl
@[simp] theorem State.setPcnt_bead : (s.setPcnt c x).bead = s.bead := rfl
@[simp] theorem State.setPcnt_home : (s.setPcnt c x).home = s.home := rfl
@[simp] theorem State.setPcnt_mbus : (s.setPcnt c x).mbus = s.mbus := rfl
@[simp] theorem State.setPcnt_cells : (s.setPcnt c x).cells = s.cells := rfl
@[simp] theorem State.setPcnt_modReps : (s.setPcnt c x).modReps = s.modReps := rfl
@[simp] theorem State.setPcnt_tallies : (s.setPcnt c x).tallies = s.tallies := rfl
@[simp] theorem State.setPcnt_cea : (s.setPcnt c x).cea = s.cea := rfl
@[simp] theorem State.setPcnt_eis : (s.setPcnt c x).eis = s.eis := rfl
@[simp] theorem State.setPcnt_rest : (s.setPcnt c x).rest = s.rest := rfl
@[simp] theorem State.setPcnt_sensors : (s.setPcnt c x).sensors = s.sensors := rfl
@[simp] theorem State.setPcnt_crossings : (s.setPcnt c x).crossings = s.crossings := rfl
@[simp] theorem State.setPcnt_steppers : (s.setPcnt c x).steppers = s.steppers := rfl
@[simp] theorem State.setPcnt_flinks : (s.setPcnt c x).flinks = s.flinks := rfl
@[simp] theorem State.setPcnt_router : (s.setPcnt c x).router = s.router := rfl
@[simp] theorem State.setPcnt_keys : (s.setPcnt c x).keys = s.keys := rfl
@[simp] theorem State.setPcnt_sess : (s.setPcnt c x).sess = s.sess := rfl
@[simp] theorem State.setPcnt_gate : (s.setPcnt c x).gate = s.gate := rfl
@[simp] theorem State.setPcnt_eths : (s.setPcnt c x).eths = s.eths := rfl
@[simp] theorem State.setPcnt_store : (s.setPcnt c x).store = s.store := rfl
@[simp] theorem State.setPcnt_evtQueue : (s.setPcnt c x).evtQueue = s.evtQueue := rfl
@[simp] theorem State.setPcnt_cf : (s.setPcnt c x).cf = s.cf := rfl
@[simp] theorem State.setPcnt_pairMem : (s.setPcnt c x).pairMem = s.pairMem := rfl
@[simp] theorem State.setPcnt_hwPosts : (s.setPcnt c x).hwPosts = s.hwPosts := rfl
@[simp] theorem State.setPcnt_proc : (s.setPcnt c x).proc = s.proc := rfl
@[simp] theorem State.setPcnt_sup : (s.setPcnt c x).sup = s.sup := rfl
@[simp] theorem State.setPcnt_bist : (s.setPcnt c x).bist = s.bist := rfl
@[simp] theorem State.setPcnt_boot : (s.setPcnt c x).boot = s.boot := rfl
@[simp] theorem State.setPcnt_out : (s.setPcnt c x).out = s.out := rfl
@[simp] theorem State.setPcnt_freeCtr : (s.setPcnt c x).freeCtr = s.freeCtr := rfl
@[simp] theorem State.setPcnt_pending : (s.setPcnt c x).pending = s.pending := rfl
end

section
variable {s : State} {n : Nat} {x : MbX}
@[simp] theorem State.setMb_board : (s.setMb n x).board = s.board := rfl
@[simp] theorem State.setMb_pages : (s.setMb n x).pages = s.pages := rfl
@[simp] theorem State.setMb_shadows : (s.setMb n x).shadows = s.shadows := rfl
@[simp] theorem State.setMb_waits : (s.setMb n x).waits = s.waits := rfl
@[simp] theorem State.setMb_doms : (s.setMb n x).doms = s.doms := rfl
@[simp] theorem State.setMb_beam : (s.setMb n x).beam = s.beam := rfl
@[simp] theorem State.setMb_gens : (s.setMb n x).gens = s.gens := rfl
@[simp] theorem State.setMb_rods : (s.setMb n x).rods = s.rods := rfl
@[simp] theorem State.setMb_links : (s.setMb n x).links = s.links := rfl
@[simp] theorem State.setMb_safe : (s.setMb n x).safe = s.safe := rfl
@[simp] theorem State.setMb_convs : (s.setMb n x).convs = s.convs := rfl
@[simp] theorem State.setMb_digs : (s.setMb n x).digs = s.digs := rfl
@[simp] theorem State.setMb_caps : (s.setMb n x).caps = s.caps := rfl
@[simp] theorem State.setMb_mem : (s.setMb n x).mem = s.mem := rfl
@[simp] theorem State.setMb_common : (s.setMb n x).common = s.common := rfl
@[simp] theorem State.setMb_recks : (s.setMb n x).recks = s.recks := rfl
@[simp] theorem State.setMb_reckMem : (s.setMb n x).reckMem = s.reckMem := rfl
@[simp] theorem State.setMb_loops : (s.setMb n x).loops = s.loops := rfl
@[simp] theorem State.setMb_vsms : (s.setMb n x).vsms = s.vsms := rfl
@[simp] theorem State.setMb_pcnts : (s.setMb n x).pcnts = s.pcnts := rfl
@[simp] theorem State.setMb_bead : (s.setMb n x).bead = s.bead := rfl
@[simp] theorem State.setMb_home : (s.setMb n x).home = s.home := rfl
@[simp] theorem State.setMb_cells : (s.setMb n x).cells = s.cells := rfl
@[simp] theorem State.setMb_modReps : (s.setMb n x).modReps = s.modReps := rfl
@[simp] theorem State.setMb_tallies : (s.setMb n x).tallies = s.tallies := rfl
@[simp] theorem State.setMb_cea : (s.setMb n x).cea = s.cea := rfl
@[simp] theorem State.setMb_eis : (s.setMb n x).eis = s.eis := rfl
@[simp] theorem State.setMb_rest : (s.setMb n x).rest = s.rest := rfl
@[simp] theorem State.setMb_sensors : (s.setMb n x).sensors = s.sensors := rfl
@[simp] theorem State.setMb_crossings : (s.setMb n x).crossings = s.crossings := rfl
@[simp] theorem State.setMb_steppers : (s.setMb n x).steppers = s.steppers := rfl
@[simp] theorem State.setMb_flinks : (s.setMb n x).flinks = s.flinks := rfl
@[simp] theorem State.setMb_router : (s.setMb n x).router = s.router := rfl
@[simp] theorem State.setMb_keys : (s.setMb n x).keys = s.keys := rfl
@[simp] theorem State.setMb_sess : (s.setMb n x).sess = s.sess := rfl
@[simp] theorem State.setMb_gate : (s.setMb n x).gate = s.gate := rfl
@[simp] theorem State.setMb_eths : (s.setMb n x).eths = s.eths := rfl
@[simp] theorem State.setMb_store : (s.setMb n x).store = s.store := rfl
@[simp] theorem State.setMb_evtQueue : (s.setMb n x).evtQueue = s.evtQueue := rfl
@[simp] theorem State.setMb_cf : (s.setMb n x).cf = s.cf := rfl
@[simp] theorem State.setMb_pairMem : (s.setMb n x).pairMem = s.pairMem := rfl
@[simp] theorem State.setMb_hwPosts : (s.setMb n x).hwPosts = s.hwPosts := rfl
@[simp] theorem State.setMb_proc : (s.setMb n x).proc = s.proc := rfl
@[simp] theorem State.setMb_sup : (s.setMb n x).sup = s.sup := rfl
@[simp] theorem State.setMb_bist : (s.setMb n x).bist = s.bist := rfl
@[simp] theorem State.setMb_boot : (s.setMb n x).boot = s.boot := rfl
@[simp] theorem State.setMb_out : (s.setMb n x).out = s.out := rfl
@[simp] theorem State.setMb_freeCtr : (s.setMb n x).freeCtr = s.freeCtr := rfl
@[simp] theorem State.setMb_pending : (s.setMb n x).pending = s.pending := rfl
end

section
variable {s : State} {a : Nat} {v : Byte}
@[simp] theorem State.setMemByte_board : (s.setMemByte a v).board = s.board := rfl
@[simp] theorem State.setMemByte_pages : (s.setMemByte a v).pages = s.pages := rfl
@[simp] theorem State.setMemByte_shadows : (s.setMemByte a v).shadows = s.shadows := rfl
@[simp] theorem State.setMemByte_waits : (s.setMemByte a v).waits = s.waits := rfl
@[simp] theorem State.setMemByte_doms : (s.setMemByte a v).doms = s.doms := rfl
@[simp] theorem State.setMemByte_beam : (s.setMemByte a v).beam = s.beam := rfl
@[simp] theorem State.setMemByte_gens : (s.setMemByte a v).gens = s.gens := rfl
@[simp] theorem State.setMemByte_rods : (s.setMemByte a v).rods = s.rods := rfl
@[simp] theorem State.setMemByte_links : (s.setMemByte a v).links = s.links := rfl
@[simp] theorem State.setMemByte_safe : (s.setMemByte a v).safe = s.safe := rfl
@[simp] theorem State.setMemByte_convs : (s.setMemByte a v).convs = s.convs := rfl
@[simp] theorem State.setMemByte_digs : (s.setMemByte a v).digs = s.digs := rfl
@[simp] theorem State.setMemByte_caps : (s.setMemByte a v).caps = s.caps := rfl
@[simp] theorem State.setMemByte_common : (s.setMemByte a v).common = s.common := rfl
@[simp] theorem State.setMemByte_recks : (s.setMemByte a v).recks = s.recks := rfl
@[simp] theorem State.setMemByte_reckMem : (s.setMemByte a v).reckMem = s.reckMem := rfl
@[simp] theorem State.setMemByte_loops : (s.setMemByte a v).loops = s.loops := rfl
@[simp] theorem State.setMemByte_vsms : (s.setMemByte a v).vsms = s.vsms := rfl
@[simp] theorem State.setMemByte_pcnts : (s.setMemByte a v).pcnts = s.pcnts := rfl
@[simp] theorem State.setMemByte_bead : (s.setMemByte a v).bead = s.bead := rfl
@[simp] theorem State.setMemByte_home : (s.setMemByte a v).home = s.home := rfl
@[simp] theorem State.setMemByte_mbus : (s.setMemByte a v).mbus = s.mbus := rfl
@[simp] theorem State.setMemByte_cells : (s.setMemByte a v).cells = s.cells := rfl
@[simp] theorem State.setMemByte_modReps : (s.setMemByte a v).modReps = s.modReps := rfl
@[simp] theorem State.setMemByte_tallies : (s.setMemByte a v).tallies = s.tallies := rfl
@[simp] theorem State.setMemByte_cea : (s.setMemByte a v).cea = s.cea := rfl
@[simp] theorem State.setMemByte_eis : (s.setMemByte a v).eis = s.eis := rfl
@[simp] theorem State.setMemByte_rest : (s.setMemByte a v).rest = s.rest := rfl
@[simp] theorem State.setMemByte_sensors : (s.setMemByte a v).sensors = s.sensors := rfl
@[simp] theorem State.setMemByte_crossings : (s.setMemByte a v).crossings = s.crossings := rfl
@[simp] theorem State.setMemByte_steppers : (s.setMemByte a v).steppers = s.steppers := rfl
@[simp] theorem State.setMemByte_flinks : (s.setMemByte a v).flinks = s.flinks := rfl
@[simp] theorem State.setMemByte_router : (s.setMemByte a v).router = s.router := rfl
@[simp] theorem State.setMemByte_keys : (s.setMemByte a v).keys = s.keys := rfl
@[simp] theorem State.setMemByte_sess : (s.setMemByte a v).sess = s.sess := rfl
@[simp] theorem State.setMemByte_gate : (s.setMemByte a v).gate = s.gate := rfl
@[simp] theorem State.setMemByte_eths : (s.setMemByte a v).eths = s.eths := rfl
@[simp] theorem State.setMemByte_store : (s.setMemByte a v).store = s.store := rfl
@[simp] theorem State.setMemByte_evtQueue : (s.setMemByte a v).evtQueue = s.evtQueue := rfl
@[simp] theorem State.setMemByte_cf : (s.setMemByte a v).cf = s.cf := rfl
@[simp] theorem State.setMemByte_pairMem : (s.setMemByte a v).pairMem = s.pairMem := rfl
@[simp] theorem State.setMemByte_hwPosts : (s.setMemByte a v).hwPosts = s.hwPosts := rfl
@[simp] theorem State.setMemByte_proc : (s.setMemByte a v).proc = s.proc := rfl
@[simp] theorem State.setMemByte_sup : (s.setMemByte a v).sup = s.sup := rfl
@[simp] theorem State.setMemByte_bist : (s.setMemByte a v).bist = s.bist := rfl
@[simp] theorem State.setMemByte_boot : (s.setMemByte a v).boot = s.boot := rfl
@[simp] theorem State.setMemByte_out : (s.setMemByte a v).out = s.out := rfl
@[simp] theorem State.setMemByte_freeCtr : (s.setMemByte a v).freeCtr = s.freeCtr := rfl
@[simp] theorem State.setMemByte_pending : (s.setMemByte a v).pending = s.pending := rfl
end

section
variable {s : State} {i : Nat} {v : Word}
@[simp] theorem State.setCommon_board : (s.setCommon i v).board = s.board := rfl
@[simp] theorem State.setCommon_pages : (s.setCommon i v).pages = s.pages := rfl
@[simp] theorem State.setCommon_shadows : (s.setCommon i v).shadows = s.shadows := rfl
@[simp] theorem State.setCommon_waits : (s.setCommon i v).waits = s.waits := rfl
@[simp] theorem State.setCommon_doms : (s.setCommon i v).doms = s.doms := rfl
@[simp] theorem State.setCommon_beam : (s.setCommon i v).beam = s.beam := rfl
@[simp] theorem State.setCommon_gens : (s.setCommon i v).gens = s.gens := rfl
@[simp] theorem State.setCommon_rods : (s.setCommon i v).rods = s.rods := rfl
@[simp] theorem State.setCommon_links : (s.setCommon i v).links = s.links := rfl
@[simp] theorem State.setCommon_safe : (s.setCommon i v).safe = s.safe := rfl
@[simp] theorem State.setCommon_convs : (s.setCommon i v).convs = s.convs := rfl
@[simp] theorem State.setCommon_digs : (s.setCommon i v).digs = s.digs := rfl
@[simp] theorem State.setCommon_caps : (s.setCommon i v).caps = s.caps := rfl
@[simp] theorem State.setCommon_mem : (s.setCommon i v).mem = s.mem := rfl
@[simp] theorem State.setCommon_recks : (s.setCommon i v).recks = s.recks := rfl
@[simp] theorem State.setCommon_reckMem : (s.setCommon i v).reckMem = s.reckMem := rfl
@[simp] theorem State.setCommon_loops : (s.setCommon i v).loops = s.loops := rfl
@[simp] theorem State.setCommon_vsms : (s.setCommon i v).vsms = s.vsms := rfl
@[simp] theorem State.setCommon_pcnts : (s.setCommon i v).pcnts = s.pcnts := rfl
@[simp] theorem State.setCommon_bead : (s.setCommon i v).bead = s.bead := rfl
@[simp] theorem State.setCommon_home : (s.setCommon i v).home = s.home := rfl
@[simp] theorem State.setCommon_mbus : (s.setCommon i v).mbus = s.mbus := rfl
@[simp] theorem State.setCommon_cells : (s.setCommon i v).cells = s.cells := rfl
@[simp] theorem State.setCommon_modReps : (s.setCommon i v).modReps = s.modReps := rfl
@[simp] theorem State.setCommon_tallies : (s.setCommon i v).tallies = s.tallies := rfl
@[simp] theorem State.setCommon_cea : (s.setCommon i v).cea = s.cea := rfl
@[simp] theorem State.setCommon_eis : (s.setCommon i v).eis = s.eis := rfl
@[simp] theorem State.setCommon_rest : (s.setCommon i v).rest = s.rest := rfl
@[simp] theorem State.setCommon_sensors : (s.setCommon i v).sensors = s.sensors := rfl
@[simp] theorem State.setCommon_crossings : (s.setCommon i v).crossings = s.crossings := rfl
@[simp] theorem State.setCommon_steppers : (s.setCommon i v).steppers = s.steppers := rfl
@[simp] theorem State.setCommon_flinks : (s.setCommon i v).flinks = s.flinks := rfl
@[simp] theorem State.setCommon_router : (s.setCommon i v).router = s.router := rfl
@[simp] theorem State.setCommon_keys : (s.setCommon i v).keys = s.keys := rfl
@[simp] theorem State.setCommon_sess : (s.setCommon i v).sess = s.sess := rfl
@[simp] theorem State.setCommon_gate : (s.setCommon i v).gate = s.gate := rfl
@[simp] theorem State.setCommon_eths : (s.setCommon i v).eths = s.eths := rfl
@[simp] theorem State.setCommon_store : (s.setCommon i v).store = s.store := rfl
@[simp] theorem State.setCommon_evtQueue : (s.setCommon i v).evtQueue = s.evtQueue := rfl
@[simp] theorem State.setCommon_cf : (s.setCommon i v).cf = s.cf := rfl
@[simp] theorem State.setCommon_pairMem : (s.setCommon i v).pairMem = s.pairMem := rfl
@[simp] theorem State.setCommon_hwPosts : (s.setCommon i v).hwPosts = s.hwPosts := rfl
@[simp] theorem State.setCommon_proc : (s.setCommon i v).proc = s.proc := rfl
@[simp] theorem State.setCommon_sup : (s.setCommon i v).sup = s.sup := rfl
@[simp] theorem State.setCommon_bist : (s.setCommon i v).bist = s.bist := rfl
@[simp] theorem State.setCommon_boot : (s.setCommon i v).boot = s.boot := rfl
@[simp] theorem State.setCommon_out : (s.setCommon i v).out = s.out := rfl
@[simp] theorem State.setCommon_freeCtr : (s.setCommon i v).freeCtr = s.freeCtr := rfl
@[simp] theorem State.setCommon_pending : (s.setCommon i v).pending = s.pending := rfl
end

section
variable {s : State} {p : Nat} {off : Nat} {v : Word}
@[simp] theorem State.setWord_pages : (s.setWord p off v).pages = s.pages := rfl
@[simp] theorem State.setWord_shadows : (s.setWord p off v).shadows = s.shadows := rfl
@[simp] theorem State.setWord_waits : (s.setWord p off v).waits = s.waits := rfl
@[simp] theorem State.setWord_doms : (s.setWord p off v).doms = s.doms := rfl
@[simp] theorem State.setWord_beam : (s.setWord p off v).beam = s.beam := rfl
@[simp] theorem State.setWord_gens : (s.setWord p off v).gens = s.gens := rfl
@[simp] theorem State.setWord_rods : (s.setWord p off v).rods = s.rods := rfl
@[simp] theorem State.setWord_links : (s.setWord p off v).links = s.links := rfl
@[simp] theorem State.setWord_safe : (s.setWord p off v).safe = s.safe := rfl
@[simp] theorem State.setWord_convs : (s.setWord p off v).convs = s.convs := rfl
@[simp] theorem State.setWord_digs : (s.setWord p off v).digs = s.digs := rfl
@[simp] theorem State.setWord_caps : (s.setWord p off v).caps = s.caps := rfl
@[simp] theorem State.setWord_mem : (s.setWord p off v).mem = s.mem := rfl
@[simp] theorem State.setWord_common : (s.setWord p off v).common = s.common := rfl
@[simp] theorem State.setWord_recks : (s.setWord p off v).recks = s.recks := rfl
@[simp] theorem State.setWord_reckMem : (s.setWord p off v).reckMem = s.reckMem := rfl
@[simp] theorem State.setWord_loops : (s.setWord p off v).loops = s.loops := rfl
@[simp] theorem State.setWord_vsms : (s.setWord p off v).vsms = s.vsms := rfl
@[simp] theorem State.setWord_pcnts : (s.setWord p off v).pcnts = s.pcnts := rfl
@[simp] theorem State.setWord_bead : (s.setWord p off v).bead = s.bead := rfl
@[simp] theorem State.setWord_home : (s.setWord p off v).home = s.home := rfl
@[simp] theorem State.setWord_mbus : (s.setWord p off v).mbus = s.mbus := rfl
@[simp] theorem State.setWord_cells : (s.setWord p off v).cells = s.cells := rfl
@[simp] theorem State.setWord_modReps : (s.setWord p off v).modReps = s.modReps := rfl
@[simp] theorem State.setWord_tallies : (s.setWord p off v).tallies = s.tallies := rfl
@[simp] theorem State.setWord_cea : (s.setWord p off v).cea = s.cea := rfl
@[simp] theorem State.setWord_eis : (s.setWord p off v).eis = s.eis := rfl
@[simp] theorem State.setWord_rest : (s.setWord p off v).rest = s.rest := rfl
@[simp] theorem State.setWord_sensors : (s.setWord p off v).sensors = s.sensors := rfl
@[simp] theorem State.setWord_crossings : (s.setWord p off v).crossings = s.crossings := rfl
@[simp] theorem State.setWord_steppers : (s.setWord p off v).steppers = s.steppers := rfl
@[simp] theorem State.setWord_flinks : (s.setWord p off v).flinks = s.flinks := rfl
@[simp] theorem State.setWord_router : (s.setWord p off v).router = s.router := rfl
@[simp] theorem State.setWord_keys : (s.setWord p off v).keys = s.keys := rfl
@[simp] theorem State.setWord_sess : (s.setWord p off v).sess = s.sess := rfl
@[simp] theorem State.setWord_gate : (s.setWord p off v).gate = s.gate := rfl
@[simp] theorem State.setWord_eths : (s.setWord p off v).eths = s.eths := rfl
@[simp] theorem State.setWord_store : (s.setWord p off v).store = s.store := rfl
@[simp] theorem State.setWord_evtQueue : (s.setWord p off v).evtQueue = s.evtQueue := rfl
@[simp] theorem State.setWord_cf : (s.setWord p off v).cf = s.cf := rfl
@[simp] theorem State.setWord_pairMem : (s.setWord p off v).pairMem = s.pairMem := rfl
@[simp] theorem State.setWord_hwPosts : (s.setWord p off v).hwPosts = s.hwPosts := rfl
@[simp] theorem State.setWord_proc : (s.setWord p off v).proc = s.proc := rfl
@[simp] theorem State.setWord_sup : (s.setWord p off v).sup = s.sup := rfl
@[simp] theorem State.setWord_bist : (s.setWord p off v).bist = s.bist := rfl
@[simp] theorem State.setWord_boot : (s.setWord p off v).boot = s.boot := rfl
@[simp] theorem State.setWord_out : (s.setWord p off v).out = s.out := rfl
@[simp] theorem State.setWord_freeCtr : (s.setWord p off v).freeCtr = s.freeCtr := rfl
@[simp] theorem State.setWord_pending : (s.setWord p off v).pending = s.pending := rfl
end

section
variable {s : State} {o : Out}
@[simp] theorem State.send_board : (s.send o).board = s.board := rfl
@[simp] theorem State.send_pages : (s.send o).pages = s.pages := rfl
@[simp] theorem State.send_shadows : (s.send o).shadows = s.shadows := rfl
@[simp] theorem State.send_waits : (s.send o).waits = s.waits := rfl
@[simp] theorem State.send_doms : (s.send o).doms = s.doms := rfl
@[simp] theorem State.send_beam : (s.send o).beam = s.beam := rfl
@[simp] theorem State.send_gens : (s.send o).gens = s.gens := rfl
@[simp] theorem State.send_rods : (s.send o).rods = s.rods := rfl
@[simp] theorem State.send_links : (s.send o).links = s.links := rfl
@[simp] theorem State.send_safe : (s.send o).safe = s.safe := rfl
@[simp] theorem State.send_convs : (s.send o).convs = s.convs := rfl
@[simp] theorem State.send_digs : (s.send o).digs = s.digs := rfl
@[simp] theorem State.send_caps : (s.send o).caps = s.caps := rfl
@[simp] theorem State.send_mem : (s.send o).mem = s.mem := rfl
@[simp] theorem State.send_common : (s.send o).common = s.common := rfl
@[simp] theorem State.send_recks : (s.send o).recks = s.recks := rfl
@[simp] theorem State.send_reckMem : (s.send o).reckMem = s.reckMem := rfl
@[simp] theorem State.send_loops : (s.send o).loops = s.loops := rfl
@[simp] theorem State.send_vsms : (s.send o).vsms = s.vsms := rfl
@[simp] theorem State.send_pcnts : (s.send o).pcnts = s.pcnts := rfl
@[simp] theorem State.send_bead : (s.send o).bead = s.bead := rfl
@[simp] theorem State.send_home : (s.send o).home = s.home := rfl
@[simp] theorem State.send_mbus : (s.send o).mbus = s.mbus := rfl
@[simp] theorem State.send_cells : (s.send o).cells = s.cells := rfl
@[simp] theorem State.send_modReps : (s.send o).modReps = s.modReps := rfl
@[simp] theorem State.send_tallies : (s.send o).tallies = s.tallies := rfl
@[simp] theorem State.send_cea : (s.send o).cea = s.cea := rfl
@[simp] theorem State.send_eis : (s.send o).eis = s.eis := rfl
@[simp] theorem State.send_rest : (s.send o).rest = s.rest := rfl
@[simp] theorem State.send_sensors : (s.send o).sensors = s.sensors := rfl
@[simp] theorem State.send_crossings : (s.send o).crossings = s.crossings := rfl
@[simp] theorem State.send_steppers : (s.send o).steppers = s.steppers := rfl
@[simp] theorem State.send_flinks : (s.send o).flinks = s.flinks := rfl
@[simp] theorem State.send_router : (s.send o).router = s.router := rfl
@[simp] theorem State.send_keys : (s.send o).keys = s.keys := rfl
@[simp] theorem State.send_sess : (s.send o).sess = s.sess := rfl
@[simp] theorem State.send_gate : (s.send o).gate = s.gate := rfl
@[simp] theorem State.send_eths : (s.send o).eths = s.eths := rfl
@[simp] theorem State.send_store : (s.send o).store = s.store := rfl
@[simp] theorem State.send_evtQueue : (s.send o).evtQueue = s.evtQueue := rfl
@[simp] theorem State.send_cf : (s.send o).cf = s.cf := rfl
@[simp] theorem State.send_pairMem : (s.send o).pairMem = s.pairMem := rfl
@[simp] theorem State.send_hwPosts : (s.send o).hwPosts = s.hwPosts := rfl
@[simp] theorem State.send_proc : (s.send o).proc = s.proc := rfl
@[simp] theorem State.send_sup : (s.send o).sup = s.sup := rfl
@[simp] theorem State.send_bist : (s.send o).bist = s.bist := rfl
@[simp] theorem State.send_boot : (s.send o).boot = s.boot := rfl
@[simp] theorem State.send_freeCtr : (s.send o).freeCtr = s.freeCtr := rfl
@[simp] theorem State.send_pending : (s.send o).pending = s.pending := rfl
end

section
variable {s : State} {p : Nat} {x : PageX}
@[simp] theorem State.setPg_board : (s.setPg p x).board = s.board := rfl
@[simp] theorem State.setPg_shadows : (s.setPg p x).shadows = s.shadows := rfl
@[simp] theorem State.setPg_waits : (s.setPg p x).waits = s.waits := rfl
@[simp] theorem State.setPg_doms : (s.setPg p x).doms = s.doms := rfl
@[simp] theorem State.setPg_beam : (s.setPg p x).beam = s.beam := rfl
@[simp] theorem State.setPg_gens : (s.setPg p x).gens = s.gens := rfl
@[simp] theorem State.setPg_rods : (s.setPg p x).rods = s.rods := rfl
@[simp] theorem State.setPg_links : (s.setPg p x).links = s.links := rfl
@[simp] theorem State.setPg_safe : (s.setPg p x).safe = s.safe := rfl
@[simp] theorem State.setPg_convs : (s.setPg p x).convs = s.convs := rfl
@[simp] theorem State.setPg_digs : (s.setPg p x).digs = s.digs := rfl
@[simp] theorem State.setPg_caps : (s.setPg p x).caps = s.caps := rfl
@[simp] theorem State.setPg_mem : (s.setPg p x).mem = s.mem := rfl
@[simp] theorem State.setPg_common : (s.setPg p x).common = s.common := rfl
@[simp] theorem State.setPg_recks : (s.setPg p x).recks = s.recks := rfl
@[simp] theorem State.setPg_reckMem : (s.setPg p x).reckMem = s.reckMem := rfl
@[simp] theorem State.setPg_loops : (s.setPg p x).loops = s.loops := rfl
@[simp] theorem State.setPg_vsms : (s.setPg p x).vsms = s.vsms := rfl
@[simp] theorem State.setPg_pcnts : (s.setPg p x).pcnts = s.pcnts := rfl
@[simp] theorem State.setPg_bead : (s.setPg p x).bead = s.bead := rfl
@[simp] theorem State.setPg_home : (s.setPg p x).home = s.home := rfl
@[simp] theorem State.setPg_mbus : (s.setPg p x).mbus = s.mbus := rfl
@[simp] theorem State.setPg_cells : (s.setPg p x).cells = s.cells := rfl
@[simp] theorem State.setPg_modReps : (s.setPg p x).modReps = s.modReps := rfl
@[simp] theorem State.setPg_tallies : (s.setPg p x).tallies = s.tallies := rfl
@[simp] theorem State.setPg_cea : (s.setPg p x).cea = s.cea := rfl
@[simp] theorem State.setPg_eis : (s.setPg p x).eis = s.eis := rfl
@[simp] theorem State.setPg_rest : (s.setPg p x).rest = s.rest := rfl
@[simp] theorem State.setPg_sensors : (s.setPg p x).sensors = s.sensors := rfl
@[simp] theorem State.setPg_crossings : (s.setPg p x).crossings = s.crossings := rfl
@[simp] theorem State.setPg_steppers : (s.setPg p x).steppers = s.steppers := rfl
@[simp] theorem State.setPg_flinks : (s.setPg p x).flinks = s.flinks := rfl
@[simp] theorem State.setPg_router : (s.setPg p x).router = s.router := rfl
@[simp] theorem State.setPg_keys : (s.setPg p x).keys = s.keys := rfl
@[simp] theorem State.setPg_sess : (s.setPg p x).sess = s.sess := rfl
@[simp] theorem State.setPg_gate : (s.setPg p x).gate = s.gate := rfl
@[simp] theorem State.setPg_eths : (s.setPg p x).eths = s.eths := rfl
@[simp] theorem State.setPg_store : (s.setPg p x).store = s.store := rfl
@[simp] theorem State.setPg_evtQueue : (s.setPg p x).evtQueue = s.evtQueue := rfl
@[simp] theorem State.setPg_cf : (s.setPg p x).cf = s.cf := rfl
@[simp] theorem State.setPg_pairMem : (s.setPg p x).pairMem = s.pairMem := rfl
@[simp] theorem State.setPg_hwPosts : (s.setPg p x).hwPosts = s.hwPosts := rfl
@[simp] theorem State.setPg_proc : (s.setPg p x).proc = s.proc := rfl
@[simp] theorem State.setPg_sup : (s.setPg p x).sup = s.sup := rfl
@[simp] theorem State.setPg_bist : (s.setPg p x).bist = s.bist := rfl
@[simp] theorem State.setPg_boot : (s.setPg p x).boot = s.boot := rfl
@[simp] theorem State.setPg_out : (s.setPg p x).out = s.out := rfl
@[simp] theorem State.setPg_freeCtr : (s.setPg p x).freeCtr = s.freeCtr := rfl
@[simp] theorem State.setPg_pending : (s.setPg p x).pending = s.pending := rfl
end

section
variable {s : State} {k : Nat} {x : ReckX}
@[simp] theorem State.setReckX_board : (s.setReckX k x).board = s.board := rfl
@[simp] theorem State.setReckX_pages : (s.setReckX k x).pages = s.pages := rfl
@[simp] theorem State.setReckX_shadows : (s.setReckX k x).shadows = s.shadows := rfl
@[simp] theorem State.setReckX_waits : (s.setReckX k x).waits = s.waits := rfl
@[simp] theorem State.setReckX_doms : (s.setReckX k x).doms = s.doms := rfl
@[simp] theorem State.setReckX_beam : (s.setReckX k x).beam = s.beam := rfl
@[simp] theorem State.setReckX_gens : (s.setReckX k x).gens = s.gens := rfl
@[simp] theorem State.setReckX_rods : (s.setReckX k x).rods = s.rods := rfl
@[simp] theorem State.setReckX_links : (s.setReckX k x).links = s.links := rfl
@[simp] theorem State.setReckX_safe : (s.setReckX k x).safe = s.safe := rfl
@[simp] theorem State.setReckX_convs : (s.setReckX k x).convs = s.convs := rfl
@[simp] theorem State.setReckX_digs : (s.setReckX k x).digs = s.digs := rfl
@[simp] theorem State.setReckX_caps : (s.setReckX k x).caps = s.caps := rfl
@[simp] theorem State.setReckX_mem : (s.setReckX k x).mem = s.mem := rfl
@[simp] theorem State.setReckX_common : (s.setReckX k x).common = s.common := rfl
@[simp] theorem State.setReckX_reckMem : (s.setReckX k x).reckMem = s.reckMem := rfl
@[simp] theorem State.setReckX_loops : (s.setReckX k x).loops = s.loops := rfl
@[simp] theorem State.setReckX_vsms : (s.setReckX k x).vsms = s.vsms := rfl
@[simp] theorem State.setReckX_pcnts : (s.setReckX k x).pcnts = s.pcnts := rfl
@[simp] theorem State.setReckX_bead : (s.setReckX k x).bead = s.bead := rfl
@[simp] theorem State.setReckX_home : (s.setReckX k x).home = s.home := rfl
@[simp] theorem State.setReckX_mbus : (s.setReckX k x).mbus = s.mbus := rfl
@[simp] theorem State.setReckX_cells : (s.setReckX k x).cells = s.cells := rfl
@[simp] theorem State.setReckX_modReps : (s.setReckX k x).modReps = s.modReps := rfl
@[simp] theorem State.setReckX_tallies : (s.setReckX k x).tallies = s.tallies := rfl
@[simp] theorem State.setReckX_cea : (s.setReckX k x).cea = s.cea := rfl
@[simp] theorem State.setReckX_eis : (s.setReckX k x).eis = s.eis := rfl
@[simp] theorem State.setReckX_rest : (s.setReckX k x).rest = s.rest := rfl
@[simp] theorem State.setReckX_sensors : (s.setReckX k x).sensors = s.sensors := rfl
@[simp] theorem State.setReckX_crossings : (s.setReckX k x).crossings = s.crossings := rfl
@[simp] theorem State.setReckX_steppers : (s.setReckX k x).steppers = s.steppers := rfl
@[simp] theorem State.setReckX_flinks : (s.setReckX k x).flinks = s.flinks := rfl
@[simp] theorem State.setReckX_router : (s.setReckX k x).router = s.router := rfl
@[simp] theorem State.setReckX_keys : (s.setReckX k x).keys = s.keys := rfl
@[simp] theorem State.setReckX_sess : (s.setReckX k x).sess = s.sess := rfl
@[simp] theorem State.setReckX_gate : (s.setReckX k x).gate = s.gate := rfl
@[simp] theorem State.setReckX_eths : (s.setReckX k x).eths = s.eths := rfl
@[simp] theorem State.setReckX_store : (s.setReckX k x).store = s.store := rfl
@[simp] theorem State.setReckX_evtQueue : (s.setReckX k x).evtQueue = s.evtQueue := rfl
@[simp] theorem State.setReckX_cf : (s.setReckX k x).cf = s.cf := rfl
@[simp] theorem State.setReckX_pairMem : (s.setReckX k x).pairMem = s.pairMem := rfl
@[simp] theorem State.setReckX_hwPosts : (s.setReckX k x).hwPosts = s.hwPosts := rfl
@[simp] theorem State.setReckX_proc : (s.setReckX k x).proc = s.proc := rfl
@[simp] theorem State.setReckX_sup : (s.setReckX k x).sup = s.sup := rfl
@[simp] theorem State.setReckX_bist : (s.setReckX k x).bist = s.bist := rfl
@[simp] theorem State.setReckX_boot : (s.setReckX k x).boot = s.boot := rfl
@[simp] theorem State.setReckX_out : (s.setReckX k x).out = s.out := rfl
@[simp] theorem State.setReckX_freeCtr : (s.setReckX k x).freeCtr = s.freeCtr := rfl
@[simp] theorem State.setReckX_pending : (s.setReckX k x).pending = s.pending := rfl
end

section
variable {s : State} {k : Nat} {x : VsmX}
@[simp] theorem State.setVsm_board : (s.setVsm k x).board = s.board := rfl
@[simp] theorem State.setVsm_pages : (s.setVsm k x).pages = s.pages := rfl
@[simp] theorem State.setVsm_shadows : (s.setVsm k x).shadows = s.shadows := rfl
@[simp] theorem State.setVsm_waits : (s.setVsm k x).waits = s.waits := rfl
@[simp] theorem State.setVsm_doms : (s.setVsm k x).doms = s.doms := rfl
@[simp] theorem State.setVsm_beam : (s.setVsm k x).beam = s.beam := rfl
@[simp] theorem State.setVsm_gens : (s.setVsm k x).gens = s.gens := rfl
@[simp] theorem State.setVsm_rods : (s.setVsm k x).rods = s.rods := rfl
@[simp] theorem State.setVsm_links : (s.setVsm k x).links = s.links := rfl
@[simp] theorem State.setVsm_safe : (s.setVsm k x).safe = s.safe := rfl
@[simp] theorem State.setVsm_convs : (s.setVsm k x).convs = s.convs := rfl
@[simp] theorem State.setVsm_digs : (s.setVsm k x).digs = s.digs := rfl
@[simp] theorem State.setVsm_caps : (s.setVsm k x).caps = s.caps := rfl
@[simp] theorem State.setVsm_mem : (s.setVsm k x).mem = s.mem := rfl
@[simp] theorem State.setVsm_common : (s.setVsm k x).common = s.common := rfl
@[simp] theorem State.setVsm_recks : (s.setVsm k x).recks = s.recks := rfl
@[simp] theorem State.setVsm_reckMem : (s.setVsm k x).reckMem = s.reckMem := rfl
@[simp] theorem State.setVsm_loops : (s.setVsm k x).loops = s.loops := rfl
@[simp] theorem State.setVsm_pcnts : (s.setVsm k x).pcnts = s.pcnts := rfl
@[simp] theorem State.setVsm_bead : (s.setVsm k x).bead = s.bead := rfl
@[simp] theorem State.setVsm_home : (s.setVsm k x).home = s.home := rfl
@[simp] theorem State.setVsm_mbus : (s.setVsm k x).mbus = s.mbus := rfl
@[simp] theorem State.setVsm_cells : (s.setVsm k x).cells = s.cells := rfl
@[simp] theorem State.setVsm_modReps : (s.setVsm k x).modReps = s.modReps := rfl
@[simp] theorem State.setVsm_tallies : (s.setVsm k x).tallies = s.tallies := rfl
@[simp] theorem State.setVsm_cea : (s.setVsm k x).cea = s.cea := rfl
@[simp] theorem State.setVsm_eis : (s.setVsm k x).eis = s.eis := rfl
@[simp] theorem State.setVsm_rest : (s.setVsm k x).rest = s.rest := rfl
@[simp] theorem State.setVsm_sensors : (s.setVsm k x).sensors = s.sensors := rfl
@[simp] theorem State.setVsm_crossings : (s.setVsm k x).crossings = s.crossings := rfl
@[simp] theorem State.setVsm_steppers : (s.setVsm k x).steppers = s.steppers := rfl
@[simp] theorem State.setVsm_flinks : (s.setVsm k x).flinks = s.flinks := rfl
@[simp] theorem State.setVsm_router : (s.setVsm k x).router = s.router := rfl
@[simp] theorem State.setVsm_keys : (s.setVsm k x).keys = s.keys := rfl
@[simp] theorem State.setVsm_sess : (s.setVsm k x).sess = s.sess := rfl
@[simp] theorem State.setVsm_gate : (s.setVsm k x).gate = s.gate := rfl
@[simp] theorem State.setVsm_eths : (s.setVsm k x).eths = s.eths := rfl
@[simp] theorem State.setVsm_store : (s.setVsm k x).store = s.store := rfl
@[simp] theorem State.setVsm_evtQueue : (s.setVsm k x).evtQueue = s.evtQueue := rfl
@[simp] theorem State.setVsm_cf : (s.setVsm k x).cf = s.cf := rfl
@[simp] theorem State.setVsm_pairMem : (s.setVsm k x).pairMem = s.pairMem := rfl
@[simp] theorem State.setVsm_hwPosts : (s.setVsm k x).hwPosts = s.hwPosts := rfl
@[simp] theorem State.setVsm_proc : (s.setVsm k x).proc = s.proc := rfl
@[simp] theorem State.setVsm_sup : (s.setVsm k x).sup = s.sup := rfl
@[simp] theorem State.setVsm_bist : (s.setVsm k x).bist = s.bist := rfl
@[simp] theorem State.setVsm_boot : (s.setVsm k x).boot = s.boot := rfl
@[simp] theorem State.setVsm_out : (s.setVsm k x).out = s.out := rfl
@[simp] theorem State.setVsm_freeCtr : (s.setVsm k x).freeCtr = s.freeCtr := rfl
@[simp] theorem State.setVsm_pending : (s.setVsm k x).pending = s.pending := rfl
end

section
variable {s : State} {x : ProcX}
@[simp] theorem State.setProc_board : (s.setProc x).board = s.board := rfl
@[simp] theorem State.setProc_pages : (s.setProc x).pages = s.pages := rfl
@[simp] theorem State.setProc_shadows : (s.setProc x).shadows = s.shadows := rfl
@[simp] theorem State.setProc_waits : (s.setProc x).waits = s.waits := rfl
@[simp] theorem State.setProc_doms : (s.setProc x).doms = s.doms := rfl
@[simp] theorem State.setProc_beam : (s.setProc x).beam = s.beam := rfl
@[simp] theorem State.setProc_gens : (s.setProc x).gens = s.gens := rfl
@[simp] theorem State.setProc_rods : (s.setProc x).rods = s.rods := rfl
@[simp] theorem State.setProc_links : (s.setProc x).links = s.links := rfl
@[simp] theorem State.setProc_safe : (s.setProc x).safe = s.safe := rfl
@[simp] theorem State.setProc_convs : (s.setProc x).convs = s.convs := rfl
@[simp] theorem State.setProc_digs : (s.setProc x).digs = s.digs := rfl
@[simp] theorem State.setProc_caps : (s.setProc x).caps = s.caps := rfl
@[simp] theorem State.setProc_mem : (s.setProc x).mem = s.mem := rfl
@[simp] theorem State.setProc_common : (s.setProc x).common = s.common := rfl
@[simp] theorem State.setProc_recks : (s.setProc x).recks = s.recks := rfl
@[simp] theorem State.setProc_reckMem : (s.setProc x).reckMem = s.reckMem := rfl
@[simp] theorem State.setProc_loops : (s.setProc x).loops = s.loops := rfl
@[simp] theorem State.setProc_vsms : (s.setProc x).vsms = s.vsms := rfl
@[simp] theorem State.setProc_pcnts : (s.setProc x).pcnts = s.pcnts := rfl
@[simp] theorem State.setProc_bead : (s.setProc x).bead = s.bead := rfl
@[simp] theorem State.setProc_home : (s.setProc x).home = s.home := rfl
@[simp] theorem State.setProc_mbus : (s.setProc x).mbus = s.mbus := rfl
@[simp] theorem State.setProc_cells : (s.setProc x).cells = s.cells := rfl
@[simp] theorem State.setProc_modReps : (s.setProc x).modReps = s.modReps := rfl
@[simp] theorem State.setProc_tallies : (s.setProc x).tallies = s.tallies := rfl
@[simp] theorem State.setProc_cea : (s.setProc x).cea = s.cea := rfl
@[simp] theorem State.setProc_eis : (s.setProc x).eis = s.eis := rfl
@[simp] theorem State.setProc_rest : (s.setProc x).rest = s.rest := rfl
@[simp] theorem State.setProc_sensors : (s.setProc x).sensors = s.sensors := rfl
@[simp] theorem State.setProc_crossings : (s.setProc x).crossings = s.crossings := rfl
@[simp] theorem State.setProc_steppers : (s.setProc x).steppers = s.steppers := rfl
@[simp] theorem State.setProc_flinks : (s.setProc x).flinks = s.flinks := rfl
@[simp] theorem State.setProc_router : (s.setProc x).router = s.router := rfl
@[simp] theorem State.setProc_keys : (s.setProc x).keys = s.keys := rfl
@[simp] theorem State.setProc_sess : (s.setProc x).sess = s.sess := rfl
@[simp] theorem State.setProc_gate : (s.setProc x).gate = s.gate := rfl
@[simp] theorem State.setProc_eths : (s.setProc x).eths = s.eths := rfl
@[simp] theorem State.setProc_store : (s.setProc x).store = s.store := rfl
@[simp] theorem State.setProc_evtQueue : (s.setProc x).evtQueue = s.evtQueue := rfl
@[simp] theorem State.setProc_cf : (s.setProc x).cf = s.cf := rfl
@[simp] theorem State.setProc_pairMem : (s.setProc x).pairMem = s.pairMem := rfl
@[simp] theorem State.setProc_hwPosts : (s.setProc x).hwPosts = s.hwPosts := rfl
@[simp] theorem State.setProc_sup : (s.setProc x).sup = s.sup := rfl
@[simp] theorem State.setProc_bist : (s.setProc x).bist = s.bist := rfl
@[simp] theorem State.setProc_boot : (s.setProc x).boot = s.boot := rfl
@[simp] theorem State.setProc_out : (s.setProc x).out = s.out := rfl
@[simp] theorem State.setProc_freeCtr : (s.setProc x).freeCtr = s.freeCtr := rfl
@[simp] theorem State.setProc_pending : (s.setProc x).pending = s.pending := rfl
end

section
variable {s : State} {x : SupX}
@[simp] theorem State.setSup_board : (s.setSup x).board = s.board := rfl
@[simp] theorem State.setSup_pages : (s.setSup x).pages = s.pages := rfl
@[simp] theorem State.setSup_shadows : (s.setSup x).shadows = s.shadows := rfl
@[simp] theorem State.setSup_waits : (s.setSup x).waits = s.waits := rfl
@[simp] theorem State.setSup_doms : (s.setSup x).doms = s.doms := rfl
@[simp] theorem State.setSup_beam : (s.setSup x).beam = s.beam := rfl
@[simp] theorem State.setSup_gens : (s.setSup x).gens = s.gens := rfl
@[simp] theorem State.setSup_rods : (s.setSup x).rods = s.rods := rfl
@[simp] theorem State.setSup_links : (s.setSup x).links = s.links := rfl
@[simp] theorem State.setSup_safe : (s.setSup x).safe = s.safe := rfl
@[simp] theorem State.setSup_convs : (s.setSup x).convs = s.convs := rfl
@[simp] theorem State.setSup_digs : (s.setSup x).digs = s.digs := rfl
@[simp] theorem State.setSup_caps : (s.setSup x).caps = s.caps := rfl
@[simp] theorem State.setSup_mem : (s.setSup x).mem = s.mem := rfl
@[simp] theorem State.setSup_common : (s.setSup x).common = s.common := rfl
@[simp] theorem State.setSup_recks : (s.setSup x).recks = s.recks := rfl
@[simp] theorem State.setSup_reckMem : (s.setSup x).reckMem = s.reckMem := rfl
@[simp] theorem State.setSup_loops : (s.setSup x).loops = s.loops := rfl
@[simp] theorem State.setSup_vsms : (s.setSup x).vsms = s.vsms := rfl
@[simp] theorem State.setSup_pcnts : (s.setSup x).pcnts = s.pcnts := rfl
@[simp] theorem State.setSup_bead : (s.setSup x).bead = s.bead := rfl
@[simp] theorem State.setSup_home : (s.setSup x).home = s.home := rfl
@[simp] theorem State.setSup_mbus : (s.setSup x).mbus = s.mbus := rfl
@[simp] theorem State.setSup_cells : (s.setSup x).cells = s.cells := rfl
@[simp] theorem State.setSup_modReps : (s.setSup x).modReps = s.modReps := rfl
@[simp] theorem State.setSup_tallies : (s.setSup x).tallies = s.tallies := rfl
@[simp] theorem State.setSup_cea : (s.setSup x).cea = s.cea := rfl
@[simp] theorem State.setSup_eis : (s.setSup x).eis = s.eis := rfl
@[simp] theorem State.setSup_rest : (s.setSup x).rest = s.rest := rfl
@[simp] theorem State.setSup_sensors : (s.setSup x).sensors = s.sensors := rfl
@[simp] theorem State.setSup_crossings : (s.setSup x).crossings = s.crossings := rfl
@[simp] theorem State.setSup_steppers : (s.setSup x).steppers = s.steppers := rfl
@[simp] theorem State.setSup_flinks : (s.setSup x).flinks = s.flinks := rfl
@[simp] theorem State.setSup_router : (s.setSup x).router = s.router := rfl
@[simp] theorem State.setSup_keys : (s.setSup x).keys = s.keys := rfl
@[simp] theorem State.setSup_sess : (s.setSup x).sess = s.sess := rfl
@[simp] theorem State.setSup_gate : (s.setSup x).gate = s.gate := rfl
@[simp] theorem State.setSup_eths : (s.setSup x).eths = s.eths := rfl
@[simp] theorem State.setSup_store : (s.setSup x).store = s.store := rfl
@[simp] theorem State.setSup_evtQueue : (s.setSup x).evtQueue = s.evtQueue := rfl
@[simp] theorem State.setSup_cf : (s.setSup x).cf = s.cf := rfl
@[simp] theorem State.setSup_pairMem : (s.setSup x).pairMem = s.pairMem := rfl
@[simp] theorem State.setSup_hwPosts : (s.setSup x).hwPosts = s.hwPosts := rfl
@[simp] theorem State.setSup_proc : (s.setSup x).proc = s.proc := rfl
@[simp] theorem State.setSup_bist : (s.setSup x).bist = s.bist := rfl
@[simp] theorem State.setSup_boot : (s.setSup x).boot = s.boot := rfl
@[simp] theorem State.setSup_out : (s.setSup x).out = s.out := rfl
@[simp] theorem State.setSup_freeCtr : (s.setSup x).freeCtr = s.freeCtr := rfl
@[simp] theorem State.setSup_pending : (s.setSup x).pending = s.pending := rfl
end

section
variable {s : State} {x : BistX}
@[simp] theorem State.setBist_board : (s.setBist x).board = s.board := rfl
@[simp] theorem State.setBist_pages : (s.setBist x).pages = s.pages := rfl
@[simp] theorem State.setBist_shadows : (s.setBist x).shadows = s.shadows := rfl
@[simp] theorem State.setBist_waits : (s.setBist x).waits = s.waits := rfl
@[simp] theorem State.setBist_doms : (s.setBist x).doms = s.doms := rfl
@[simp] theorem State.setBist_beam : (s.setBist x).beam = s.beam := rfl
@[simp] theorem State.setBist_gens : (s.setBist x).gens = s.gens := rfl
@[simp] theorem State.setBist_rods : (s.setBist x).rods = s.rods := rfl
@[simp] theorem State.setBist_links : (s.setBist x).links = s.links := rfl
@[simp] theorem State.setBist_safe : (s.setBist x).safe = s.safe := rfl
@[simp] theorem State.setBist_convs : (s.setBist x).convs = s.convs := rfl
@[simp] theorem State.setBist_digs : (s.setBist x).digs = s.digs := rfl
@[simp] theorem State.setBist_caps : (s.setBist x).caps = s.caps := rfl
@[simp] theorem State.setBist_mem : (s.setBist x).mem = s.mem := rfl
@[simp] theorem State.setBist_common : (s.setBist x).common = s.common := rfl
@[simp] theorem State.setBist_recks : (s.setBist x).recks = s.recks := rfl
@[simp] theorem State.setBist_reckMem : (s.setBist x).reckMem = s.reckMem := rfl
@[simp] theorem State.setBist_loops : (s.setBist x).loops = s.loops := rfl
@[simp] theorem State.setBist_vsms : (s.setBist x).vsms = s.vsms := rfl
@[simp] theorem State.setBist_pcnts : (s.setBist x).pcnts = s.pcnts := rfl
@[simp] theorem State.setBist_bead : (s.setBist x).bead = s.bead := rfl
@[simp] theorem State.setBist_home : (s.setBist x).home = s.home := rfl
@[simp] theorem State.setBist_mbus : (s.setBist x).mbus = s.mbus := rfl
@[simp] theorem State.setBist_cells : (s.setBist x).cells = s.cells := rfl
@[simp] theorem State.setBist_modReps : (s.setBist x).modReps = s.modReps := rfl
@[simp] theorem State.setBist_tallies : (s.setBist x).tallies = s.tallies := rfl
@[simp] theorem State.setBist_cea : (s.setBist x).cea = s.cea := rfl
@[simp] theorem State.setBist_eis : (s.setBist x).eis = s.eis := rfl
@[simp] theorem State.setBist_rest : (s.setBist x).rest = s.rest := rfl
@[simp] theorem State.setBist_sensors : (s.setBist x).sensors = s.sensors := rfl
@[simp] theorem State.setBist_crossings : (s.setBist x).crossings = s.crossings := rfl
@[simp] theorem State.setBist_steppers : (s.setBist x).steppers = s.steppers := rfl
@[simp] theorem State.setBist_flinks : (s.setBist x).flinks = s.flinks := rfl
@[simp] theorem State.setBist_router : (s.setBist x).router = s.router := rfl
@[simp] theorem State.setBist_keys : (s.setBist x).keys = s.keys := rfl
@[simp] theorem State.setBist_sess : (s.setBist x).sess = s.sess := rfl
@[simp] theorem State.setBist_gate : (s.setBist x).gate = s.gate := rfl
@[simp] theorem State.setBist_eths : (s.setBist x).eths = s.eths := rfl
@[simp] theorem State.setBist_store : (s.setBist x).store = s.store := rfl
@[simp] theorem State.setBist_evtQueue : (s.setBist x).evtQueue = s.evtQueue := rfl
@[simp] theorem State.setBist_cf : (s.setBist x).cf = s.cf := rfl
@[simp] theorem State.setBist_pairMem : (s.setBist x).pairMem = s.pairMem := rfl
@[simp] theorem State.setBist_hwPosts : (s.setBist x).hwPosts = s.hwPosts := rfl
@[simp] theorem State.setBist_proc : (s.setBist x).proc = s.proc := rfl
@[simp] theorem State.setBist_sup : (s.setBist x).sup = s.sup := rfl
@[simp] theorem State.setBist_boot : (s.setBist x).boot = s.boot := rfl
@[simp] theorem State.setBist_out : (s.setBist x).out = s.out := rfl
@[simp] theorem State.setBist_freeCtr : (s.setBist x).freeCtr = s.freeCtr := rfl
@[simp] theorem State.setBist_pending : (s.setBist x).pending = s.pending := rfl
end

section
variable {s : State} {x : BootX}
@[simp] theorem State.setBoot_board : (s.setBoot x).board = s.board := rfl
@[simp] theorem State.setBoot_pages : (s.setBoot x).pages = s.pages := rfl
@[simp] theorem State.setBoot_shadows : (s.setBoot x).shadows = s.shadows := rfl
@[simp] theorem State.setBoot_waits : (s.setBoot x).waits = s.waits := rfl
@[simp] theorem State.setBoot_doms : (s.setBoot x).doms = s.doms := rfl
@[simp] theorem State.setBoot_beam : (s.setBoot x).beam = s.beam := rfl
@[simp] theorem State.setBoot_gens : (s.setBoot x).gens = s.gens := rfl
@[simp] theorem State.setBoot_rods : (s.setBoot x).rods = s.rods := rfl
@[simp] theorem State.setBoot_links : (s.setBoot x).links = s.links := rfl
@[simp] theorem State.setBoot_safe : (s.setBoot x).safe = s.safe := rfl
@[simp] theorem State.setBoot_convs : (s.setBoot x).convs = s.convs := rfl
@[simp] theorem State.setBoot_digs : (s.setBoot x).digs = s.digs := rfl
@[simp] theorem State.setBoot_caps : (s.setBoot x).caps = s.caps := rfl
@[simp] theorem State.setBoot_mem : (s.setBoot x).mem = s.mem := rfl
@[simp] theorem State.setBoot_common : (s.setBoot x).common = s.common := rfl
@[simp] theorem State.setBoot_recks : (s.setBoot x).recks = s.recks := rfl
@[simp] theorem State.setBoot_reckMem : (s.setBoot x).reckMem = s.reckMem := rfl
@[simp] theorem State.setBoot_loops : (s.setBoot x).loops = s.loops := rfl
@[simp] theorem State.setBoot_vsms : (s.setBoot x).vsms = s.vsms := rfl
@[simp] theorem State.setBoot_pcnts : (s.setBoot x).pcnts = s.pcnts := rfl
@[simp] theorem State.setBoot_bead : (s.setBoot x).bead = s.bead := rfl
@[simp] theorem State.setBoot_home : (s.setBoot x).home = s.home := rfl
@[simp] theorem State.setBoot_mbus : (s.setBoot x).mbus = s.mbus := rfl
@[simp] theorem State.setBoot_cells : (s.setBoot x).cells = s.cells := rfl
@[simp] theorem State.setBoot_modReps : (s.setBoot x).modReps = s.modReps := rfl
@[simp] theorem State.setBoot_tallies : (s.setBoot x).tallies = s.tallies := rfl
@[simp] theorem State.setBoot_cea : (s.setBoot x).cea = s.cea := rfl
@[simp] theorem State.setBoot_eis : (s.setBoot x).eis = s.eis := rfl
@[simp] theorem State.setBoot_rest : (s.setBoot x).rest = s.rest := rfl
@[simp] theorem State.setBoot_sensors : (s.setBoot x).sensors = s.sensors := rfl
@[simp] theorem State.setBoot_crossings : (s.setBoot x).crossings = s.crossings := rfl
@[simp] theorem State.setBoot_steppers : (s.setBoot x).steppers = s.steppers := rfl
@[simp] theorem State.setBoot_flinks : (s.setBoot x).flinks = s.flinks := rfl
@[simp] theorem State.setBoot_router : (s.setBoot x).router = s.router := rfl
@[simp] theorem State.setBoot_keys : (s.setBoot x).keys = s.keys := rfl
@[simp] theorem State.setBoot_sess : (s.setBoot x).sess = s.sess := rfl
@[simp] theorem State.setBoot_gate : (s.setBoot x).gate = s.gate := rfl
@[simp] theorem State.setBoot_eths : (s.setBoot x).eths = s.eths := rfl
@[simp] theorem State.setBoot_store : (s.setBoot x).store = s.store := rfl
@[simp] theorem State.setBoot_evtQueue : (s.setBoot x).evtQueue = s.evtQueue := rfl
@[simp] theorem State.setBoot_cf : (s.setBoot x).cf = s.cf := rfl
@[simp] theorem State.setBoot_pairMem : (s.setBoot x).pairMem = s.pairMem := rfl
@[simp] theorem State.setBoot_hwPosts : (s.setBoot x).hwPosts = s.hwPosts := rfl
@[simp] theorem State.setBoot_proc : (s.setBoot x).proc = s.proc := rfl
@[simp] theorem State.setBoot_sup : (s.setBoot x).sup = s.sup := rfl
@[simp] theorem State.setBoot_bist : (s.setBoot x).bist = s.bist := rfl
@[simp] theorem State.setBoot_out : (s.setBoot x).out = s.out := rfl
@[simp] theorem State.setBoot_freeCtr : (s.setBoot x).freeCtr = s.freeCtr := rfl
@[simp] theorem State.setBoot_pending : (s.setBoot x).pending = s.pending := rfl
end

section
variable {s : State} {n : Nat} {x : RodX}
@[simp] theorem State.setRod_board : (s.setRod n x).board = s.board := rfl
@[simp] theorem State.setRod_pages : (s.setRod n x).pages = s.pages := rfl
@[simp] theorem State.setRod_shadows : (s.setRod n x).shadows = s.shadows := rfl
@[simp] theorem State.setRod_waits : (s.setRod n x).waits = s.waits := rfl
@[simp] theorem State.setRod_doms : (s.setRod n x).doms = s.doms := rfl
@[simp] theorem State.setRod_beam : (s.setRod n x).beam = s.beam := rfl
@[simp] theorem State.setRod_gens : (s.setRod n x).gens = s.gens := rfl
@[simp] theorem State.setRod_links : (s.setRod n x).links = s.links := rfl
@[simp] theorem State.setRod_safe : (s.setRod n x).safe = s.safe := rfl
@[simp] theorem State.setRod_convs : (s.setRod n x).convs = s.convs := rfl
@[simp] theorem State.setRod_digs : (s.setRod n x).digs = s.digs := rfl
@[simp] theorem State.setRod_caps : (s.setRod n x).caps = s.caps := rfl
@[simp] theorem State.setRod_mem : (s.setRod n x).mem = s.mem := rfl
@[simp] theorem State.setRod_common : (s.setRod n x).common = s.common := rfl
@[simp] theorem State.setRod_recks : (s.setRod n x).recks = s.recks := rfl
@[simp] theorem State.setRod_reckMem : (s.setRod n x).reckMem = s.reckMem := rfl
@[simp] theorem State.setRod_loops : (s.setRod n x).loops = s.loops := rfl
@[simp] theorem State.setRod_vsms : (s.setRod n x).vsms = s.vsms := rfl
@[simp] theorem State.setRod_pcnts : (s.setRod n x).pcnts = s.pcnts := rfl
@[simp] theorem State.setRod_bead : (s.setRod n x).bead = s.bead := rfl
@[simp] theorem State.setRod_home : (s.setRod n x).home = s.home := rfl
@[simp] theorem State.setRod_mbus : (s.setRod n x).mbus = s.mbus := rfl
@[simp] theorem State.setRod_cells : (s.setRod n x).cells = s.cells := rfl
@[simp] theorem State.setRod_modReps : (s.setRod n x).modReps = s.modReps := rfl
@[simp] theorem State.setRod_tallies : (s.setRod n x).tallies = s.tallies := rfl
@[simp] theorem State.setRod_cea : (s.setRod n x).cea = s.cea := rfl
@[simp] theorem State.setRod_eis : (s.setRod n x).eis = s.eis := rfl
@[simp] theorem State.setRod_rest : (s.setRod n x).rest = s.rest := rfl
@[simp] theorem State.setRod_sensors : (s.setRod n x).sensors = s.sensors := rfl
@[simp] theorem State.setRod_crossings : (s.setRod n x).crossings = s.crossings := rfl
@[simp] theorem State.setRod_steppers : (s.setRod n x).steppers = s.steppers := rfl
@[simp] theorem State.setRod_flinks : (s.setRod n x).flinks = s.flinks := rfl
@[simp] theorem State.setRod_router : (s.setRod n x).router = s.router := rfl
@[simp] theorem State.setRod_keys : (s.setRod n x).keys = s.keys := rfl
@[simp] theorem State.setRod_sess : (s.setRod n x).sess = s.sess := rfl
@[simp] theorem State.setRod_gate : (s.setRod n x).gate = s.gate := rfl
@[simp] theorem State.setRod_eths : (s.setRod n x).eths = s.eths := rfl
@[simp] theorem State.setRod_store : (s.setRod n x).store = s.store := rfl
@[simp] theorem State.setRod_evtQueue : (s.setRod n x).evtQueue = s.evtQueue := rfl
@[simp] theorem State.setRod_cf : (s.setRod n x).cf = s.cf := rfl
@[simp] theorem State.setRod_pairMem : (s.setRod n x).pairMem = s.pairMem := rfl
@[simp] theorem State.setRod_hwPosts : (s.setRod n x).hwPosts = s.hwPosts := rfl
@[simp] theorem State.setRod_proc : (s.setRod n x).proc = s.proc := rfl
@[simp] theorem State.setRod_sup : (s.setRod n x).sup = s.sup := rfl
@[simp] theorem State.setRod_bist : (s.setRod n x).bist = s.bist := rfl
@[simp] theorem State.setRod_boot : (s.setRod n x).boot = s.boot := rfl
@[simp] theorem State.setRod_out : (s.setRod n x).out = s.out := rfl
@[simp] theorem State.setRod_freeCtr : (s.setRod n x).freeCtr = s.freeCtr := rfl
@[simp] theorem State.setRod_pending : (s.setRod n x).pending = s.pending := rfl
end

section
variable {s : State} {n : Nat} {x : LoopX}
@[simp] theorem State.setLoop_board : (s.setLoop n x).board = s.board := rfl
@[simp] theorem State.setLoop_pages : (s.setLoop n x).pages = s.pages := rfl
@[simp] theorem State.setLoop_shadows : (s.setLoop n x).shadows = s.shadows := rfl
@[simp] theorem State.setLoop_waits : (s.setLoop n x).waits = s.waits := rfl
@[simp] theorem State.setLoop_doms : (s.setLoop n x).doms = s.doms := rfl
@[simp] theorem State.setLoop_beam : (s.setLoop n x).beam = s.beam := rfl
@[simp] theorem State.setLoop_gens : (s.setLoop n x).gens = s.gens := rfl
@[simp] theorem State.setLoop_rods : (s.setLoop n x).rods = s.rods := rfl
@[simp] theorem State.setLoop_links : (s.setLoop n x).links = s.links := rfl
@[simp] theorem State.setLoop_safe : (s.setLoop n x).safe = s.safe := rfl
@[simp] theorem State.setLoop_convs : (s.setLoop n x).convs = s.convs := rfl
@[simp] theorem State.setLoop_digs : (s.setLoop n x).digs = s.digs := rfl
@[simp] theorem State.setLoop_caps : (s.setLoop n x).caps = s.caps := rfl
@[simp] theorem State.setLoop_mem : (s.setLoop n x).mem = s.mem := rfl
@[simp] theorem State.setLoop_common : (s.setLoop n x).common = s.common := rfl
@[simp] theorem State.setLoop_recks : (s.setLoop n x).recks = s.recks := rfl
@[simp] theorem State.setLoop_reckMem : (s.setLoop n x).reckMem = s.reckMem := rfl
@[simp] theorem State.setLoop_vsms : (s.setLoop n x).vsms = s.vsms := rfl
@[simp] theorem State.setLoop_pcnts : (s.setLoop n x).pcnts = s.pcnts := rfl
@[simp] theorem State.setLoop_bead : (s.setLoop n x).bead = s.bead := rfl
@[simp] theorem State.setLoop_home : (s.setLoop n x).home = s.home := rfl
@[simp] theorem State.setLoop_mbus : (s.setLoop n x).mbus = s.mbus := rfl
@[simp] theorem State.setLoop_cells : (s.setLoop n x).cells = s.cells := rfl
@[simp] theorem State.setLoop_modReps : (s.setLoop n x).modReps = s.modReps := rfl
@[simp] theorem State.setLoop_tallies : (s.setLoop n x).tallies = s.tallies := rfl
@[simp] theorem State.setLoop_cea : (s.setLoop n x).cea = s.cea := rfl
@[simp] theorem State.setLoop_eis : (s.setLoop n x).eis = s.eis := rfl
@[simp] theorem State.setLoop_rest : (s.setLoop n x).rest = s.rest := rfl
@[simp] theorem State.setLoop_sensors : (s.setLoop n x).sensors = s.sensors := rfl
@[simp] theorem State.setLoop_crossings : (s.setLoop n x).crossings = s.crossings := rfl
@[simp] theorem State.setLoop_steppers : (s.setLoop n x).steppers = s.steppers := rfl
@[simp] theorem State.setLoop_flinks : (s.setLoop n x).flinks = s.flinks := rfl
@[simp] theorem State.setLoop_router : (s.setLoop n x).router = s.router := rfl
@[simp] theorem State.setLoop_keys : (s.setLoop n x).keys = s.keys := rfl
@[simp] theorem State.setLoop_sess : (s.setLoop n x).sess = s.sess := rfl
@[simp] theorem State.setLoop_gate : (s.setLoop n x).gate = s.gate := rfl
@[simp] theorem State.setLoop_eths : (s.setLoop n x).eths = s.eths := rfl
@[simp] theorem State.setLoop_store : (s.setLoop n x).store = s.store := rfl
@[simp] theorem State.setLoop_evtQueue : (s.setLoop n x).evtQueue = s.evtQueue := rfl
@[simp] theorem State.setLoop_cf : (s.setLoop n x).cf = s.cf := rfl
@[simp] theorem State.setLoop_pairMem : (s.setLoop n x).pairMem = s.pairMem := rfl
@[simp] theorem State.setLoop_hwPosts : (s.setLoop n x).hwPosts = s.hwPosts := rfl
@[simp] theorem State.setLoop_proc : (s.setLoop n x).proc = s.proc := rfl
@[simp] theorem State.setLoop_sup : (s.setLoop n x).sup = s.sup := rfl
@[simp] theorem State.setLoop_bist : (s.setLoop n x).bist = s.bist := rfl
@[simp] theorem State.setLoop_boot : (s.setLoop n x).boot = s.boot := rfl
@[simp] theorem State.setLoop_out : (s.setLoop n x).out = s.out := rfl
@[simp] theorem State.setLoop_freeCtr : (s.setLoop n x).freeCtr = s.freeCtr := rfl
@[simp] theorem State.setLoop_pending : (s.setLoop n x).pending = s.pending := rfl
end

section
variable {s : State} {k : Nat} {x : LinkX}
@[simp] theorem State.setLink_board : (s.setLink k x).board = s.board := rfl
@[simp] theorem State.setLink_pages : (s.setLink k x).pages = s.pages := rfl
@[simp] theorem State.setLink_shadows : (s.setLink k x).shadows = s.shadows := rfl
@[simp] theorem State.setLink_waits : (s.setLink k x).waits = s.waits := rfl
@[simp] theorem State.setLink_doms : (s.setLink k x).doms = s.doms := rfl
@[simp] theorem State.setLink_beam : (s.setLink k x).beam = s.beam := rfl
@[simp] theorem State.setLink_gens : (s.setLink k x).gens = s.gens := rfl
@[simp] theorem State.setLink_rods : (s.setLink k x).rods = s.rods := rfl
@[simp] theorem State.setLink_safe : (s.setLink k x).safe = s.safe := rfl
@[simp] theorem State.setLink_convs : (s.setLink k x).convs = s.convs := rfl
@[simp] theorem State.setLink_digs : (s.setLink k x).digs = s.digs := rfl
@[simp] theorem State.setLink_caps : (s.setLink k x).caps = s.caps := rfl
@[simp] theorem State.setLink_mem : (s.setLink k x).mem = s.mem := rfl
@[simp] theorem State.setLink_common : (s.setLink k x).common = s.common := rfl
@[simp] theorem State.setLink_recks : (s.setLink k x).recks = s.recks := rfl
@[simp] theorem State.setLink_reckMem : (s.setLink k x).reckMem = s.reckMem := rfl
@[simp] theorem State.setLink_loops : (s.setLink k x).loops = s.loops := rfl
@[simp] theorem State.setLink_vsms : (s.setLink k x).vsms = s.vsms := rfl
@[simp] theorem State.setLink_pcnts : (s.setLink k x).pcnts = s.pcnts := rfl
@[simp] theorem State.setLink_bead : (s.setLink k x).bead = s.bead := rfl
@[simp] theorem State.setLink_home : (s.setLink k x).home = s.home := rfl
@[simp] theorem State.setLink_mbus : (s.setLink k x).mbus = s.mbus := rfl
@[simp] theorem State.setLink_cells : (s.setLink k x).cells = s.cells := rfl
@[simp] theorem State.setLink_modReps : (s.setLink k x).modReps = s.modReps := rfl
@[simp] theorem State.setLink_tallies : (s.setLink k x).tallies = s.tallies := rfl
@[simp] theorem State.setLink_cea : (s.setLink k x).cea = s.cea := rfl
@[simp] theorem State.setLink_eis : (s.setLink k x).eis = s.eis := rfl
@[simp] theorem State.setLink_rest : (s.setLink k x).rest = s.rest := rfl
@[simp] theorem State.setLink_sensors : (s.setLink k x).sensors = s.sensors := rfl
@[simp] theorem State.setLink_crossings : (s.setLink k x).crossings = s.crossings := rfl
@[simp] theorem State.setLink_steppers : (s.setLink k x).steppers = s.steppers := rfl
@[simp] theorem State.setLink_flinks : (s.setLink k x).flinks = s.flinks := rfl
@[simp] theorem State.setLink_router : (s.setLink k x).router = s.router := rfl
@[simp] theorem State.setLink_keys : (s.setLink k x).keys = s.keys := rfl
@[simp] theorem State.setLink_sess : (s.setLink k x).sess = s.sess := rfl
@[simp] theorem State.setLink_gate : (s.setLink k x).gate = s.gate := rfl
@[simp] theorem State.setLink_eths : (s.setLink k x).eths = s.eths := rfl
@[simp] theorem State.setLink_store : (s.setLink k x).store = s.store := rfl
@[simp] theorem State.setLink_evtQueue : (s.setLink k x).evtQueue = s.evtQueue := rfl
@[simp] theorem State.setLink_cf : (s.setLink k x).cf = s.cf := rfl
@[simp] theorem State.setLink_pairMem : (s.setLink k x).pairMem = s.pairMem := rfl
@[simp] theorem State.setLink_hwPosts : (s.setLink k x).hwPosts = s.hwPosts := rfl
@[simp] theorem State.setLink_proc : (s.setLink k x).proc = s.proc := rfl
@[simp] theorem State.setLink_sup : (s.setLink k x).sup = s.sup := rfl
@[simp] theorem State.setLink_bist : (s.setLink k x).bist = s.bist := rfl
@[simp] theorem State.setLink_boot : (s.setLink k x).boot = s.boot := rfl
@[simp] theorem State.setLink_out : (s.setLink k x).out = s.out := rfl
@[simp] theorem State.setLink_freeCtr : (s.setLink k x).freeCtr = s.freeCtr := rfl
@[simp] theorem State.setLink_pending : (s.setLink k x).pending = s.pending := rfl
end

section
variable {s : State} {i : Nat} {x : DigX}
@[simp] theorem State.setDig_board : (s.setDig i x).board = s.board := rfl
@[simp] theorem State.setDig_pages : (s.setDig i x).pages = s.pages := rfl
@[simp] theorem State.setDig_shadows : (s.setDig i x).shadows = s.shadows := rfl
@[simp] theorem State.setDig_waits : (s.setDig i x).waits = s.waits := rfl
@[simp] theorem State.setDig_doms : (s.setDig i x).doms = s.doms := rfl
@[simp] theorem State.setDig_beam : (s.setDig i x).beam = s.beam := rfl
@[simp] theorem State.setDig_gens : (s.setDig i x).gens = s.gens := rfl
@[simp] theorem State.setDig_rods : (s.setDig i x).rods = s.rods := rfl
@[simp] theorem State.setDig_links : (s.setDig i x).links = s.links := rfl
@[simp] theorem State.setDig_safe : (s.setDig i x).safe = s.safe := rfl
@[simp] theorem State.setDig_convs : (s.setDig i x).convs = s.convs := rfl
@[simp] theorem State.setDig_caps : (s.setDig i x).caps = s.caps := rfl
@[simp] theorem State.setDig_mem : (s.setDig i x).mem = s.mem := rfl
@[simp] theorem State.setDig_common : (s.setDig i x).common = s.common := rfl
@[simp] theorem State.setDig_recks : (s.setDig i x).recks = s.recks := rfl
@[simp] theorem State.setDig_reckMem : (s.setDig i x).reckMem = s.reckMem := rfl
@[simp] theorem State.setDig_loops : (s.setDig i x).loops = s.loops := rfl
@[simp] theorem State.setDig_vsms : (s.setDig i x).vsms = s.vsms := rfl
@[simp] theorem State.setDig_pcnts : (s.setDig i x).pcnts = s.pcnts := rfl
@[simp] theorem State.setDig_bead : (s.setDig i x).bead = s.bead := rfl
@[simp] theorem State.setDig_home : (s.setDig i x).home = s.home := rfl
@[simp] theorem State.setDig_mbus : (s.setDig i x).mbus = s.mbus := rfl
@[simp] theorem State.setDig_cells : (s.setDig i x).cells = s.cells := rfl
@[simp] theorem State.setDig_modReps : (s.setDig i x).modReps = s.modReps := rfl
@[simp] theorem State.setDig_tallies : (s.setDig i x).tallies = s.tallies := rfl
@[simp] theorem State.setDig_cea : (s.setDig i x).cea = s.cea := rfl
@[simp] theorem State.setDig_eis : (s.setDig i x).eis = s.eis := rfl
@[simp] theorem State.setDig_rest : (s.setDig i x).rest = s.rest := rfl
@[simp] theorem State.setDig_sensors : (s.setDig i x).sensors = s.sensors := rfl
@[simp] theorem State.setDig_crossings : (s.setDig i x).crossings = s.crossings := rfl
@[simp] theorem State.setDig_steppers : (s.setDig i x).steppers = s.steppers := rfl
@[simp] theorem State.setDig_flinks : (s.setDig i x).flinks = s.flinks := rfl
@[simp] theorem State.setDig_router : (s.setDig i x).router = s.router := rfl
@[simp] theorem State.setDig_keys : (s.setDig i x).keys = s.keys := rfl
@[simp] theorem State.setDig_sess : (s.setDig i x).sess = s.sess := rfl
@[simp] theorem State.setDig_gate : (s.setDig i x).gate = s.gate := rfl
@[simp] theorem State.setDig_eths : (s.setDig i x).eths = s.eths := rfl
@[simp] theorem State.setDig_store : (s.setDig i x).store = s.store := rfl
@[simp] theorem State.setDig_evtQueue : (s.setDig i x).evtQueue = s.evtQueue := rfl
@[simp] theorem State.setDig_cf : (s.setDig i x).cf = s.cf := rfl
@[simp] theorem State.setDig_pairMem : (s.setDig i x).pairMem = s.pairMem := rfl
@[simp] theorem State.setDig_hwPosts : (s.setDig i x).hwPosts = s.hwPosts := rfl
@[simp] theorem State.setDig_proc : (s.setDig i x).proc = s.proc := rfl
@[simp] theorem State.setDig_sup : (s.setDig i x).sup = s.sup := rfl
@[simp] theorem State.setDig_bist : (s.setDig i x).bist = s.bist := rfl
@[simp] theorem State.setDig_boot : (s.setDig i x).boot = s.boot := rfl
@[simp] theorem State.setDig_out : (s.setDig i x).out = s.out := rfl
@[simp] theorem State.setDig_freeCtr : (s.setDig i x).freeCtr = s.freeCtr := rfl
@[simp] theorem State.setDig_pending : (s.setDig i x).pending = s.pending := rfl
end

section
variable {s : State} {x : SafeX}
@[simp] theorem State.setSafe_board : (s.setSafe x).board = s.board := rfl
@[simp] theorem State.setSafe_pages : (s.setSafe x).pages = s.pages := rfl
@[simp] theorem State.setSafe_shadows : (s.setSafe x).shadows = s.shadows := rfl
@[simp] theorem State.setSafe_waits : (s.setSafe x).waits = s.waits := rfl
@[simp] theorem State.setSafe_doms : (s.setSafe x).doms = s.doms := rfl
@[simp] theorem State.setSafe_beam : (s.setSafe x).beam = s.beam := rfl
@[simp] theorem State.setSafe_gens : (s.setSafe x).gens = s.gens := rfl
@[simp] theorem State.setSafe_rods : (s.setSafe x).rods = s.rods := rfl
@[simp] theorem State.setSafe_links : (s.setSafe x).links = s.links := rfl
@[simp] theorem State.setSafe_convs : (s.setSafe x).convs = s.convs := rfl
@[simp] theorem State.setSafe_digs : (s.setSafe x).digs = s.digs := rfl
@[simp] theorem State.setSafe_caps : (s.setSafe x).caps = s.caps := rfl
@[simp] theorem State.setSafe_mem : (s.setSafe x).mem = s.mem := rfl
@[simp] theorem State.setSafe_common : (s.setSafe x).common = s.common := rfl
@[simp] theorem State.setSafe_recks : (s.setSafe x).recks = s.recks := rfl
@[simp] theorem State.setSafe_reckMem : (s.setSafe x).reckMem = s.reckMem := rfl
@[simp] theorem State.setSafe_loops : (s.setSafe x).loops = s.loops := rfl
@[simp] theorem State.setSafe_vsms : (s.setSafe x).vsms = s.vsms := rfl
@[simp] theorem State.setSafe_pcnts : (s.setSafe x).pcnts = s.pcnts := rfl
@[simp] theorem State.setSafe_bead : (s.setSafe x).bead = s.bead := rfl
@[simp] theorem State.setSafe_home : (s.setSafe x).home = s.home := rfl
@[simp] theorem State.setSafe_mbus : (s.setSafe x).mbus = s.mbus := rfl
@[simp] theorem State.setSafe_cells : (s.setSafe x).cells = s.cells := rfl
@[simp] theorem State.setSafe_modReps : (s.setSafe x).modReps = s.modReps := rfl
@[simp] theorem State.setSafe_tallies : (s.setSafe x).tallies = s.tallies := rfl
@[simp] theorem State.setSafe_cea : (s.setSafe x).cea = s.cea := rfl
@[simp] theorem State.setSafe_eis : (s.setSafe x).eis = s.eis := rfl
@[simp] theorem State.setSafe_rest : (s.setSafe x).rest = s.rest := rfl
@[simp] theorem State.setSafe_sensors : (s.setSafe x).sensors = s.sensors := rfl
@[simp] theorem State.setSafe_crossings : (s.setSafe x).crossings = s.crossings := rfl
@[simp] theorem State.setSafe_steppers : (s.setSafe x).steppers = s.steppers := rfl
@[simp] theorem State.setSafe_flinks : (s.setSafe x).flinks = s.flinks := rfl
@[simp] theorem State.setSafe_router : (s.setSafe x).router = s.router := rfl
@[simp] theorem State.setSafe_keys : (s.setSafe x).keys = s.keys := rfl
@[simp] theorem State.setSafe_sess : (s.setSafe x).sess = s.sess := rfl
@[simp] theorem State.setSafe_gate : (s.setSafe x).gate = s.gate := rfl
@[simp] theorem State.setSafe_eths : (s.setSafe x).eths = s.eths := rfl
@[simp] theorem State.setSafe_store : (s.setSafe x).store = s.store := rfl
@[simp] theorem State.setSafe_evtQueue : (s.setSafe x).evtQueue = s.evtQueue := rfl
@[simp] theorem State.setSafe_cf : (s.setSafe x).cf = s.cf := rfl
@[simp] theorem State.setSafe_pairMem : (s.setSafe x).pairMem = s.pairMem := rfl
@[simp] theorem State.setSafe_hwPosts : (s.setSafe x).hwPosts = s.hwPosts := rfl
@[simp] theorem State.setSafe_proc : (s.setSafe x).proc = s.proc := rfl
@[simp] theorem State.setSafe_sup : (s.setSafe x).sup = s.sup := rfl
@[simp] theorem State.setSafe_bist : (s.setSafe x).bist = s.bist := rfl
@[simp] theorem State.setSafe_boot : (s.setSafe x).boot = s.boot := rfl
@[simp] theorem State.setSafe_out : (s.setSafe x).out = s.out := rfl
@[simp] theorem State.setSafe_freeCtr : (s.setSafe x).freeCtr = s.freeCtr := rfl
@[simp] theorem State.setSafe_pending : (s.setSafe x).pending = s.pending := rfl
end

section
variable {s : State} {n : Nat} {x : StepX}
@[simp] theorem State.setStepper_board : (s.setStepper n x).board = s.board := rfl
@[simp] theorem State.setStepper_pages : (s.setStepper n x).pages = s.pages := rfl
@[simp] theorem State.setStepper_shadows : (s.setStepper n x).shadows = s.shadows := rfl
@[simp] theorem State.setStepper_waits : (s.setStepper n x).waits = s.waits := rfl
@[simp] theorem State.setStepper_doms : (s.setStepper n x).doms = s.doms := rfl
@[simp] theorem State.setStepper_beam : (s.setStepper n x).beam = s.beam := rfl
@[simp] theorem State.setStepper_gens : (s.setStepper n x).gens = s.gens := rfl
@[simp] theorem State.setStepper_rods : (s.setStepper n x).rods = s.rods := rfl
@[simp] theorem State.setStepper_links : (s.setStepper n x).links = s.links := rfl
@[simp] theorem State.setStepper_safe : (s.setStepper n x).safe = s.safe := rfl
@[simp] theorem State.setStepper_convs : (s.setStepper n x).convs = s.convs := rfl
@[simp] theorem State.setStepper_digs : (s.setStepper n x).digs = s.digs := rfl
@[simp] theorem State.setStepper_caps : (s.setStepper n x).caps = s.caps := rfl
@[simp] theorem State.setStepper_mem : (s.setStepper n x).mem = s.mem := rfl
@[simp] theorem State.setStepper_common : (s.setStepper n x).common = s.common := rfl
@[simp] theorem State.setStepper_recks : (s.setStepper n x).recks = s.recks := rfl
@[simp] theorem State.setStepper_reckMem : (s.setStepper n x).reckMem = s.reckMem := rfl
@[simp] theorem State.setStepper_loops : (s.setStepper n x).loops = s.loops := rfl
@[simp] theorem State.setStepper_vsms : (s.setStepper n x).vsms = s.vsms := rfl
@[simp] theorem State.setStepper_pcnts : (s.setStepper n x).pcnts = s.pcnts := rfl
@[simp] theorem State.setStepper_bead : (s.setStepper n x).bead = s.bead := rfl
@[simp] theorem State.setStepper_home : (s.setStepper n x).home = s.home := rfl
@[simp] theorem State.setStepper_mbus : (s.setStepper n x).mbus = s.mbus := rfl
@[simp] theorem State.setStepper_cells : (s.setStepper n x).cells = s.cells := rfl
@[simp] theorem State.setStepper_modReps : (s.setStepper n x).modReps = s.modReps := rfl
@[simp] theorem State.setStepper_tallies : (s.setStepper n x).tallies = s.tallies := rfl
@[simp] theorem State.setStepper_cea : (s.setStepper n x).cea = s.cea := rfl
@[simp] theorem State.setStepper_eis : (s.setStepper n x).eis = s.eis := rfl
@[simp] theorem State.setStepper_rest : (s.setStepper n x).rest = s.rest := rfl
@[simp] theorem State.setStepper_sensors : (s.setStepper n x).sensors = s.sensors := rfl
@[simp] theorem State.setStepper_crossings : (s.setStepper n x).crossings = s.crossings := rfl
@[simp] theorem State.setStepper_flinks : (s.setStepper n x).flinks = s.flinks := rfl
@[simp] theorem State.setStepper_router : (s.setStepper n x).router = s.router := rfl
@[simp] theorem State.setStepper_keys : (s.setStepper n x).keys = s.keys := rfl
@[simp] theorem State.setStepper_sess : (s.setStepper n x).sess = s.sess := rfl
@[simp] theorem State.setStepper_gate : (s.setStepper n x).gate = s.gate := rfl
@[simp] theorem State.setStepper_eths : (s.setStepper n x).eths = s.eths := rfl
@[simp] theorem State.setStepper_store : (s.setStepper n x).store = s.store := rfl
@[simp] theorem State.setStepper_evtQueue : (s.setStepper n x).evtQueue = s.evtQueue := rfl
@[simp] theorem State.setStepper_cf : (s.setStepper n x).cf = s.cf := rfl
@[simp] theorem State.setStepper_pairMem : (s.setStepper n x).pairMem = s.pairMem := rfl
@[simp] theorem State.setStepper_hwPosts : (s.setStepper n x).hwPosts = s.hwPosts := rfl
@[simp] theorem State.setStepper_proc : (s.setStepper n x).proc = s.proc := rfl
@[simp] theorem State.setStepper_sup : (s.setStepper n x).sup = s.sup := rfl
@[simp] theorem State.setStepper_bist : (s.setStepper n x).bist = s.bist := rfl
@[simp] theorem State.setStepper_boot : (s.setStepper n x).boot = s.boot := rfl
@[simp] theorem State.setStepper_out : (s.setStepper n x).out = s.out := rfl
@[simp] theorem State.setStepper_freeCtr : (s.setStepper n x).freeCtr = s.freeCtr := rfl
@[simp] theorem State.setStepper_pending : (s.setStepper n x).pending = s.pending := rfl
end

section
variable {s : State} {x : StoreX}
@[simp] theorem State.setStore_board : (s.setStore x).board = s.board := rfl
@[simp] theorem State.setStore_pages : (s.setStore x).pages = s.pages := rfl
@[simp] theorem State.setStore_shadows : (s.setStore x).shadows = s.shadows := rfl
@[simp] theorem State.setStore_waits : (s.setStore x).waits = s.waits := rfl
@[simp] theorem State.setStore_doms : (s.setStore x).doms = s.doms := rfl
@[simp] theorem State.setStore_beam : (s.setStore x).beam = s.beam := rfl
@[simp] theorem State.setStore_gens : (s.setStore x).gens = s.gens := rfl
@[simp] theorem State.setStore_rods : (s.setStore x).rods = s.rods := rfl
@[simp] theorem State.setStore_links : (s.setStore x).links = s.links := rfl
@[simp] theorem State.setStore_safe : (s.setStore x).safe = s.safe := rfl
@[simp] theorem State.setStore_convs : (s.setStore x).convs = s.convs := rfl
@[simp] theorem State.setStore_digs : (s.setStore x).digs = s.digs := rfl
@[simp] theorem State.setStore_caps : (s.setStore x).caps = s.caps := rfl
@[simp] theorem State.setStore_mem : (s.setStore x).mem = s.mem := rfl
@[simp] theorem State.setStore_common : (s.setStore x).common = s.common := rfl
@[simp] theorem State.setStore_recks : (s.setStore x).recks = s.recks := rfl
@[simp] theorem State.setStore_reckMem : (s.setStore x).reckMem = s.reckMem := rfl
@[simp] theorem State.setStore_loops : (s.setStore x).loops = s.loops := rfl
@[simp] theorem State.setStore_vsms : (s.setStore x).vsms = s.vsms := rfl
@[simp] theorem State.setStore_pcnts : (s.setStore x).pcnts = s.pcnts := rfl
@[simp] theorem State.setStore_bead : (s.setStore x).bead = s.bead := rfl
@[simp] theorem State.setStore_home : (s.setStore x).home = s.home := rfl
@[simp] theorem State.setStore_mbus : (s.setStore x).mbus = s.mbus := rfl
@[simp] theorem State.setStore_cells : (s.setStore x).cells = s.cells := rfl
@[simp] theorem State.setStore_modReps : (s.setStore x).modReps = s.modReps := rfl
@[simp] theorem State.setStore_tallies : (s.setStore x).tallies = s.tallies := rfl
@[simp] theorem State.setStore_cea : (s.setStore x).cea = s.cea := rfl
@[simp] theorem State.setStore_eis : (s.setStore x).eis = s.eis := rfl
@[simp] theorem State.setStore_rest : (s.setStore x).rest = s.rest := rfl
@[simp] theorem State.setStore_sensors : (s.setStore x).sensors = s.sensors := rfl
@[simp] theorem State.setStore_crossings : (s.setStore x).crossings = s.crossings := rfl
@[simp] theorem State.setStore_steppers : (s.setStore x).steppers = s.steppers := rfl
@[simp] theorem State.setStore_flinks : (s.setStore x).flinks = s.flinks := rfl
@[simp] theorem State.setStore_router : (s.setStore x).router = s.router := rfl
@[simp] theorem State.setStore_keys : (s.setStore x).keys = s.keys := rfl
@[simp] theorem State.setStore_sess : (s.setStore x).sess = s.sess := rfl
@[simp] theorem State.setStore_gate : (s.setStore x).gate = s.gate := rfl
@[simp] theorem State.setStore_eths : (s.setStore x).eths = s.eths := rfl
@[simp] theorem State.setStore_evtQueue : (s.setStore x).evtQueue = s.evtQueue := rfl
@[simp] theorem State.setStore_cf : (s.setStore x).cf = s.cf := rfl
@[simp] theorem State.setStore_pairMem : (s.setStore x).pairMem = s.pairMem := rfl
@[simp] theorem State.setStore_hwPosts : (s.setStore x).hwPosts = s.hwPosts := rfl
@[simp] theorem State.setStore_proc : (s.setStore x).proc = s.proc := rfl
@[simp] theorem State.setStore_sup : (s.setStore x).sup = s.sup := rfl
@[simp] theorem State.setStore_bist : (s.setStore x).bist = s.bist := rfl
@[simp] theorem State.setStore_boot : (s.setStore x).boot = s.boot := rfl
@[simp] theorem State.setStore_out : (s.setStore x).out = s.out := rfl
@[simp] theorem State.setStore_freeCtr : (s.setStore x).freeCtr = s.freeCtr := rfl
@[simp] theorem State.setStore_pending : (s.setStore x).pending = s.pending := rfl
end

section
variable {s : State} {k : Nat} {x : SensX}
@[simp] theorem State.setSens_board : (s.setSens k x).board = s.board := rfl
@[simp] theorem State.setSens_pages : (s.setSens k x).pages = s.pages := rfl
@[simp] theorem State.setSens_shadows : (s.setSens k x).shadows = s.shadows := rfl
@[simp] theorem State.setSens_waits : (s.setSens k x).waits = s.waits := rfl
@[simp] theorem State.setSens_doms : (s.setSens k x).doms = s.doms := rfl
@[simp] theorem State.setSens_beam : (s.setSens k x).beam = s.beam := rfl
@[simp] theorem State.setSens_gens : (s.setSens k x).gens = s.gens := rfl
@[simp] theorem State.setSens_rods : (s.setSens k x).rods = s.rods := rfl
@[simp] theorem State.setSens_links : (s.setSens k x).links = s.links := rfl
@[simp] theorem State.setSens_safe : (s.setSens k x).safe = s.safe := rfl
@[simp] theorem State.setSens_convs : (s.setSens k x).convs = s.convs := rfl
@[simp] theorem State.setSens_digs : (s.setSens k x).digs = s.digs := rfl
@[simp] theorem State.setSens_caps : (s.setSens k x).caps = s.caps := rfl
@[simp] theorem State.setSens_mem : (s.setSens k x).mem = s.mem := rfl
@[simp] theorem State.setSens_common : (s.setSens k x).common = s.common := rfl
@[simp] theorem State.setSens_recks : (s.setSens k x).recks = s.recks := rfl
@[simp] theorem State.setSens_reckMem : (s.setSens k x).reckMem = s.reckMem := rfl
@[simp] theorem State.setSens_loops : (s.setSens k x).loops = s.loops := rfl
@[simp] theorem State.setSens_vsms : (s.setSens k x).vsms = s.vsms := rfl
@[simp] theorem State.setSens_pcnts : (s.setSens k x).pcnts = s.pcnts := rfl
@[simp] theorem State.setSens_bead : (s.setSens k x).bead = s.bead := rfl
@[simp] theorem State.setSens_home : (s.setSens k x).home = s.home := rfl
@[simp] theorem State.setSens_mbus : (s.setSens k x).mbus = s.mbus := rfl
@[simp] theorem State.setSens_cells : (s.setSens k x).cells = s.cells := rfl
@[simp] theorem State.setSens_modReps : (s.setSens k x).modReps = s.modReps := rfl
@[simp] theorem State.setSens_tallies : (s.setSens k x).tallies = s.tallies := rfl
@[simp] theorem State.setSens_cea : (s.setSens k x).cea = s.cea := rfl
@[simp] theorem State.setSens_eis : (s.setSens k x).eis = s.eis := rfl
@[simp] theorem State.setSens_rest : (s.setSens k x).rest = s.rest := rfl
@[simp] theorem State.setSens_crossings : (s.setSens k x).crossings = s.crossings := rfl
@[simp] theorem State.setSens_steppers : (s.setSens k x).steppers = s.steppers := rfl
@[simp] theorem State.setSens_flinks : (s.setSens k x).flinks = s.flinks := rfl
@[simp] theorem State.setSens_router : (s.setSens k x).router = s.router := rfl
@[simp] theorem State.setSens_keys : (s.setSens k x).keys = s.keys := rfl
@[simp] theorem State.setSens_sess : (s.setSens k x).sess = s.sess := rfl
@[simp] theorem State.setSens_gate : (s.setSens k x).gate = s.gate := rfl
@[simp] theorem State.setSens_eths : (s.setSens k x).eths = s.eths := rfl
@[simp] theorem State.setSens_store : (s.setSens k x).store = s.store := rfl
@[simp] theorem State.setSens_evtQueue : (s.setSens k x).evtQueue = s.evtQueue := rfl
@[simp] theorem State.setSens_cf : (s.setSens k x).cf = s.cf := rfl
@[simp] theorem State.setSens_pairMem : (s.setSens k x).pairMem = s.pairMem := rfl
@[simp] theorem State.setSens_hwPosts : (s.setSens k x).hwPosts = s.hwPosts := rfl
@[simp] theorem State.setSens_proc : (s.setSens k x).proc = s.proc := rfl
@[simp] theorem State.setSens_sup : (s.setSens k x).sup = s.sup := rfl
@[simp] theorem State.setSens_bist : (s.setSens k x).bist = s.bist := rfl
@[simp] theorem State.setSens_boot : (s.setSens k x).boot = s.boot := rfl
@[simp] theorem State.setSens_out : (s.setSens k x).out = s.out := rfl
@[simp] theorem State.setSens_freeCtr : (s.setSens k x).freeCtr = s.freeCtr := rfl
@[simp] theorem State.setSens_pending : (s.setSens k x).pending = s.pending := rfl
end

section
variable {s : State} {x : BeamX}
@[simp] theorem State.setBeam_board : (s.setBeam x).board = s.board := rfl
@[simp] theorem State.setBeam_pages : (s.setBeam x).pages = s.pages := rfl
@[simp] theorem State.setBeam_shadows : (s.setBeam x).shadows = s.shadows := rfl
@[simp] theorem State.setBeam_waits : (s.setBeam x).waits = s.waits := rfl
@[simp] theorem State.setBeam_doms : (s.setBeam x).doms = s.doms := rfl
@[simp] theorem State.setBeam_gens : (s.setBeam x).gens = s.gens := rfl
@[simp] theorem State.setBeam_rods : (s.setBeam x).rods = s.rods := rfl
@[simp] theorem State.setBeam_links : (s.setBeam x).links = s.links := rfl
@[simp] theorem State.setBeam_safe : (s.setBeam x).safe = s.safe := rfl
@[simp] theorem State.setBeam_convs : (s.setBeam x).convs = s.convs := rfl
@[simp] theorem State.setBeam_digs : (s.setBeam x).digs = s.digs := rfl
@[simp] theorem State.setBeam_caps : (s.setBeam x).caps = s.caps := rfl
@[simp] theorem State.setBeam_mem : (s.setBeam x).mem = s.mem := rfl
@[simp] theorem State.setBeam_common : (s.setBeam x).common = s.common := rfl
@[simp] theorem State.setBeam_recks : (s.setBeam x).recks = s.recks := rfl
@[simp] theorem State.setBeam_reckMem : (s.setBeam x).reckMem = s.reckMem := rfl
@[simp] theorem State.setBeam_loops : (s.setBeam x).loops = s.loops := rfl
@[simp] theorem State.setBeam_vsms : (s.setBeam x).vsms = s.vsms := rfl
@[simp] theorem State.setBeam_pcnts : (s.setBeam x).pcnts = s.pcnts := rfl
@[simp] theorem State.setBeam_bead : (s.setBeam x).bead = s.bead := rfl
@[simp] theorem State.setBeam_home : (s.setBeam x).home = s.home := rfl
@[simp] theorem State.setBeam_mbus : (s.setBeam x).mbus = s.mbus := rfl
@[simp] theorem State.setBeam_cells : (s.setBeam x).cells = s.cells := rfl
@[simp] theorem State.setBeam_modReps : (s.setBeam x).modReps = s.modReps := rfl
@[simp] theorem State.setBeam_tallies : (s.setBeam x).tallies = s.tallies := rfl
@[simp] theorem State.setBeam_cea : (s.setBeam x).cea = s.cea := rfl
@[simp] theorem State.setBeam_eis : (s.setBeam x).eis = s.eis := rfl
@[simp] theorem State.setBeam_rest : (s.setBeam x).rest = s.rest := rfl
@[simp] theorem State.setBeam_sensors : (s.setBeam x).sensors = s.sensors := rfl
@[simp] theorem State.setBeam_crossings : (s.setBeam x).crossings = s.crossings := rfl
@[simp] theorem State.setBeam_steppers : (s.setBeam x).steppers = s.steppers := rfl
@[simp] theorem State.setBeam_flinks : (s.setBeam x).flinks = s.flinks := rfl
@[simp] theorem State.setBeam_router : (s.setBeam x).router = s.router := rfl
@[simp] theorem State.setBeam_keys : (s.setBeam x).keys = s.keys := rfl
@[simp] theorem State.setBeam_sess : (s.setBeam x).sess = s.sess := rfl
@[simp] theorem State.setBeam_gate : (s.setBeam x).gate = s.gate := rfl
@[simp] theorem State.setBeam_eths : (s.setBeam x).eths = s.eths := rfl
@[simp] theorem State.setBeam_store : (s.setBeam x).store = s.store := rfl
@[simp] theorem State.setBeam_evtQueue : (s.setBeam x).evtQueue = s.evtQueue := rfl
@[simp] theorem State.setBeam_cf : (s.setBeam x).cf = s.cf := rfl
@[simp] theorem State.setBeam_pairMem : (s.setBeam x).pairMem = s.pairMem := rfl
@[simp] theorem State.setBeam_hwPosts : (s.setBeam x).hwPosts = s.hwPosts := rfl
@[simp] theorem State.setBeam_proc : (s.setBeam x).proc = s.proc := rfl
@[simp] theorem State.setBeam_sup : (s.setBeam x).sup = s.sup := rfl
@[simp] theorem State.setBeam_bist : (s.setBeam x).bist = s.bist := rfl
@[simp] theorem State.setBeam_boot : (s.setBeam x).boot = s.boot := rfl
@[simp] theorem State.setBeam_out : (s.setBeam x).out = s.out := rfl
@[simp] theorem State.setBeam_freeCtr : (s.setBeam x).freeCtr = s.freeCtr := rfl
@[simp] theorem State.setBeam_pending : (s.setBeam x).pending = s.pending := rfl
end

section
variable {s : State} {x : RestX}
@[simp] theorem State.setRest_board : (s.setRest x).board = s.board := rfl
@[simp] theorem State.setRest_pages : (s.setRest x).pages = s.pages := rfl
@[simp] theorem State.setRest_shadows : (s.setRest x).shadows = s.shadows := rfl
@[simp] theorem State.setRest_waits : (s.setRest x).waits = s.waits := rfl
@[simp] theorem State.setRest_doms : (s.setRest x).doms = s.doms := rfl
@[simp] theorem State.setRest_beam : (s.setRest x).beam = s.beam := rfl
@[simp] theorem State.setRest_gens : (s.setRest x).gens = s.gens := rfl
@[simp] theorem State.setRest_rods : (s.setRest x).rods = s.rods := rfl
@[simp] theorem State.setRest_links : (s.setRest x).links = s.links := rfl
@[simp] theorem State.setRest_safe : (s.setRest x).safe = s.safe := rfl
@[simp] theorem State.setRest_convs : (s.setRest x).convs = s.convs := rfl
@[simp] theorem State.setRest_digs : (s.setRest x).digs = s.digs := rfl
@[simp] theorem State.setRest_caps : (s.setRest x).caps = s.caps := rfl
@[simp] theorem State.setRest_mem : (s.setRest x).mem = s.mem := rfl
@[simp] theorem State.setRest_common : (s.setRest x).common = s.common := rfl
@[simp] theorem State.setRest_recks : (s.setRest x).recks = s.recks := rfl
@[simp] theorem State.setRest_reckMem : (s.setRest x).reckMem = s.reckMem := rfl
@[simp] theorem State.setRest_loops : (s.setRest x).loops = s.loops := rfl
@[simp] theorem State.setRest_vsms : (s.setRest x).vsms = s.vsms := rfl
@[simp] theorem State.setRest_pcnts : (s.setRest x).pcnts = s.pcnts := rfl
@[simp] theorem State.setRest_bead : (s.setRest x).bead = s.bead := rfl
@[simp] theorem State.setRest_home : (s.setRest x).home = s.home := rfl
@[simp] theorem State.setRest_mbus : (s.setRest x).mbus = s.mbus := rfl
@[simp] theorem State.setRest_cells : (s.setRest x).cells = s.cells := rfl
@[simp] theorem State.setRest_modReps : (s.setRest x).modReps = s.modReps := rfl
@[simp] theorem State.setRest_tallies : (s.setRest x).tallies = s.tallies := rfl
@[simp] theorem State.setRest_cea : (s.setRest x).cea = s.cea := rfl
@[simp] theorem State.setRest_eis : (s.setRest x).eis = s.eis := rfl
@[simp] theorem State.setRest_sensors : (s.setRest x).sensors = s.sensors := rfl
@[simp] theorem State.setRest_crossings : (s.setRest x).crossings = s.crossings := rfl
@[simp] theorem State.setRest_steppers : (s.setRest x).steppers = s.steppers := rfl
@[simp] theorem State.setRest_flinks : (s.setRest x).flinks = s.flinks := rfl
@[simp] theorem State.setRest_router : (s.setRest x).router = s.router := rfl
@[simp] theorem State.setRest_keys : (s.setRest x).keys = s.keys := rfl
@[simp] theorem State.setRest_sess : (s.setRest x).sess = s.sess := rfl
@[simp] theorem State.setRest_gate : (s.setRest x).gate = s.gate := rfl
@[simp] theorem State.setRest_eths : (s.setRest x).eths = s.eths := rfl
@[simp] theorem State.setRest_store : (s.setRest x).store = s.store := rfl
@[simp] theorem State.setRest_evtQueue : (s.setRest x).evtQueue = s.evtQueue := rfl
@[simp] theorem State.setRest_cf : (s.setRest x).cf = s.cf := rfl
@[simp] theorem State.setRest_pairMem : (s.setRest x).pairMem = s.pairMem := rfl
@[simp] theorem State.setRest_hwPosts : (s.setRest x).hwPosts = s.hwPosts := rfl
@[simp] theorem State.setRest_proc : (s.setRest x).proc = s.proc := rfl
@[simp] theorem State.setRest_sup : (s.setRest x).sup = s.sup := rfl
@[simp] theorem State.setRest_bist : (s.setRest x).bist = s.bist := rfl
@[simp] theorem State.setRest_boot : (s.setRest x).boot = s.boot := rfl
@[simp] theorem State.setRest_out : (s.setRest x).out = s.out := rfl
@[simp] theorem State.setRest_freeCtr : (s.setRest x).freeCtr = s.freeCtr := rfl
@[simp] theorem State.setRest_pending : (s.setRest x).pending = s.pending := rfl
end

section
variable {s : State} {p off v : Nat}
@[simp] theorem State.setReg_pages : (s.setReg p off v).pages = s.pages := rfl
@[simp] theorem State.setReg_shadows : (s.setReg p off v).shadows = s.shadows := rfl
@[simp] theorem State.setReg_waits : (s.setReg p off v).waits = s.waits := rfl
@[simp] theorem State.setReg_doms : (s.setReg p off v).doms = s.doms := rfl
@[simp] theorem State.setReg_beam : (s.setReg p off v).beam = s.beam := rfl
@[simp] theorem State.setReg_gens : (s.setReg p off v).gens = s.gens := rfl
@[simp] theorem State.setReg_rods : (s.setReg p off v).rods = s.rods := rfl
@[simp] theorem State.setReg_links : (s.setReg p off v).links = s.links := rfl
@[simp] theorem State.setReg_safe : (s.setReg p off v).safe = s.safe := rfl
@[simp] theorem State.setReg_convs : (s.setReg p off v).convs = s.convs := rfl
@[simp] theorem State.setReg_digs : (s.setReg p off v).digs = s.digs := rfl
@[simp] theorem State.setReg_caps : (s.setReg p off v).caps = s.caps := rfl
@[simp] theorem State.setReg_mem : (s.setReg p off v).mem = s.mem := rfl
@[simp] theorem State.setReg_common : (s.setReg p off v).common = s.common := rfl
@[simp] theorem State.setReg_recks : (s.setReg p off v).recks = s.recks := rfl
@[simp] theorem State.setReg_reckMem : (s.setReg p off v).reckMem = s.reckMem := rfl
@[simp] theorem State.setReg_loops : (s.setReg p off v).loops = s.loops := rfl
@[simp] theorem State.setReg_vsms : (s.setReg p off v).vsms = s.vsms := rfl
@[simp] theorem State.setReg_pcnts : (s.setReg p off v).pcnts = s.pcnts := rfl
@[simp] theorem State.setReg_bead : (s.setReg p off v).bead = s.bead := rfl
@[simp] theorem State.setReg_home : (s.setReg p off v).home = s.home := rfl
@[simp] theorem State.setReg_mbus : (s.setReg p off v).mbus = s.mbus := rfl
@[simp] theorem State.setReg_cells : (s.setReg p off v).cells = s.cells := rfl
@[simp] theorem State.setReg_modReps : (s.setReg p off v).modReps = s.modReps := rfl
@[simp] theorem State.setReg_tallies : (s.setReg p off v).tallies = s.tallies := rfl
@[simp] theorem State.setReg_cea : (s.setReg p off v).cea = s.cea := rfl
@[simp] theorem State.setReg_eis : (s.setReg p off v).eis = s.eis := rfl
@[simp] theorem State.setReg_rest : (s.setReg p off v).rest = s.rest := rfl
@[simp] theorem State.setReg_sensors : (s.setReg p off v).sensors = s.sensors := rfl
@[simp] theorem State.setReg_crossings : (s.setReg p off v).crossings = s.crossings := rfl
@[simp] theorem State.setReg_steppers : (s.setReg p off v).steppers = s.steppers := rfl
@[simp] theorem State.setReg_flinks : (s.setReg p off v).flinks = s.flinks := rfl
@[simp] theorem State.setReg_router : (s.setReg p off v).router = s.router := rfl
@[simp] theorem State.setReg_keys : (s.setReg p off v).keys = s.keys := rfl
@[simp] theorem State.setReg_sess : (s.setReg p off v).sess = s.sess := rfl
@[simp] theorem State.setReg_gate : (s.setReg p off v).gate = s.gate := rfl
@[simp] theorem State.setReg_eths : (s.setReg p off v).eths = s.eths := rfl
@[simp] theorem State.setReg_store : (s.setReg p off v).store = s.store := rfl
@[simp] theorem State.setReg_evtQueue : (s.setReg p off v).evtQueue = s.evtQueue := rfl
@[simp] theorem State.setReg_cf : (s.setReg p off v).cf = s.cf := rfl
@[simp] theorem State.setReg_pairMem : (s.setReg p off v).pairMem = s.pairMem := rfl
@[simp] theorem State.setReg_hwPosts : (s.setReg p off v).hwPosts = s.hwPosts := rfl
@[simp] theorem State.setReg_proc : (s.setReg p off v).proc = s.proc := rfl
@[simp] theorem State.setReg_sup : (s.setReg p off v).sup = s.sup := rfl
@[simp] theorem State.setReg_bist : (s.setReg p off v).bist = s.bist := rfl
@[simp] theorem State.setReg_boot : (s.setReg p off v).boot = s.boot := rfl
@[simp] theorem State.setReg_out : (s.setReg p off v).out = s.out := rfl
@[simp] theorem State.setReg_freeCtr : (s.setReg p off v).freeCtr = s.freeCtr := rfl
@[simp] theorem State.setReg_pending : (s.setReg p off v).pending = s.pending := rfl
end

section
variable {s : State} {p v : Nat} {f : Fld}
@[simp] theorem State.set_pages : (s.set p f v).pages = s.pages := rfl
@[simp] theorem State.set_shadows : (s.set p f v).shadows = s.shadows := rfl
@[simp] theorem State.set_waits : (s.set p f v).waits = s.waits := rfl
@[simp] theorem State.set_doms : (s.set p f v).doms = s.doms := rfl
@[simp] theorem State.set_beam : (s.set p f v).beam = s.beam := rfl
@[simp] theorem State.set_gens : (s.set p f v).gens = s.gens := rfl
@[simp] theorem State.set_rods : (s.set p f v).rods = s.rods := rfl
@[simp] theorem State.set_links : (s.set p f v).links = s.links := rfl
@[simp] theorem State.set_safe : (s.set p f v).safe = s.safe := rfl
@[simp] theorem State.set_convs : (s.set p f v).convs = s.convs := rfl
@[simp] theorem State.set_digs : (s.set p f v).digs = s.digs := rfl
@[simp] theorem State.set_caps : (s.set p f v).caps = s.caps := rfl
@[simp] theorem State.set_mem : (s.set p f v).mem = s.mem := rfl
@[simp] theorem State.set_common : (s.set p f v).common = s.common := rfl
@[simp] theorem State.set_recks : (s.set p f v).recks = s.recks := rfl
@[simp] theorem State.set_reckMem : (s.set p f v).reckMem = s.reckMem := rfl
@[simp] theorem State.set_loops : (s.set p f v).loops = s.loops := rfl
@[simp] theorem State.set_vsms : (s.set p f v).vsms = s.vsms := rfl
@[simp] theorem State.set_pcnts : (s.set p f v).pcnts = s.pcnts := rfl
@[simp] theorem State.set_bead : (s.set p f v).bead = s.bead := rfl
@[simp] theorem State.set_home : (s.set p f v).home = s.home := rfl
@[simp] theorem State.set_mbus : (s.set p f v).mbus = s.mbus := rfl
@[simp] theorem State.set_cells : (s.set p f v).cells = s.cells := rfl
@[simp] theorem State.set_modReps : (s.set p f v).modReps = s.modReps := rfl
@[simp] theorem State.set_tallies : (s.set p f v).tallies = s.tallies := rfl
@[simp] theorem State.set_cea : (s.set p f v).cea = s.cea := rfl
@[simp] theorem State.set_eis : (s.set p f v).eis = s.eis := rfl
@[simp] theorem State.set_rest : (s.set p f v).rest = s.rest := rfl
@[simp] theorem State.set_sensors : (s.set p f v).sensors = s.sensors := rfl
@[simp] theorem State.set_crossings : (s.set p f v).crossings = s.crossings := rfl
@[simp] theorem State.set_steppers : (s.set p f v).steppers = s.steppers := rfl
@[simp] theorem State.set_flinks : (s.set p f v).flinks = s.flinks := rfl
@[simp] theorem State.set_router : (s.set p f v).router = s.router := rfl
@[simp] theorem State.set_keys : (s.set p f v).keys = s.keys := rfl
@[simp] theorem State.set_sess : (s.set p f v).sess = s.sess := rfl
@[simp] theorem State.set_gate : (s.set p f v).gate = s.gate := rfl
@[simp] theorem State.set_eths : (s.set p f v).eths = s.eths := rfl
@[simp] theorem State.set_store : (s.set p f v).store = s.store := rfl
@[simp] theorem State.set_evtQueue : (s.set p f v).evtQueue = s.evtQueue := rfl
@[simp] theorem State.set_cf : (s.set p f v).cf = s.cf := rfl
@[simp] theorem State.set_pairMem : (s.set p f v).pairMem = s.pairMem := rfl
@[simp] theorem State.set_hwPosts : (s.set p f v).hwPosts = s.hwPosts := rfl
@[simp] theorem State.set_proc : (s.set p f v).proc = s.proc := rfl
@[simp] theorem State.set_sup : (s.set p f v).sup = s.sup := rfl
@[simp] theorem State.set_bist : (s.set p f v).bist = s.bist := rfl
@[simp] theorem State.set_boot : (s.set p f v).boot = s.boot := rfl
@[simp] theorem State.set_out : (s.set p f v).out = s.out := rfl
@[simp] theorem State.set_freeCtr : (s.set p f v).freeCtr = s.freeCtr := rfl
@[simp] theorem State.set_pending : (s.set p f v).pending = s.pending := rfl
end

section
variable {s : State} {p : Nat} {f : Fld} {b : Bool}
@[simp] theorem State.setB_pages : (s.setB p f b).pages = s.pages := rfl
@[simp] theorem State.setB_shadows : (s.setB p f b).shadows = s.shadows := rfl
@[simp] theorem State.setB_waits : (s.setB p f b).waits = s.waits := rfl
@[simp] theorem State.setB_doms : (s.setB p f b).doms = s.doms := rfl
@[simp] theorem State.setB_beam : (s.setB p f b).beam = s.beam := rfl
@[simp] theorem State.setB_gens : (s.setB p f b).gens = s.gens := rfl
@[simp] theorem State.setB_rods : (s.setB p f b).rods = s.rods := rfl
@[simp] theorem State.setB_links : (s.setB p f b).links = s.links := rfl
@[simp] theorem State.setB_safe : (s.setB p f b).safe = s.safe := rfl
@[simp] theorem State.setB_convs : (s.setB p f b).convs = s.convs := rfl
@[simp] theorem State.setB_digs : (s.setB p f b).digs = s.digs := rfl
@[simp] theorem State.setB_caps : (s.setB p f b).caps = s.caps := rfl
@[simp] theorem State.setB_mem : (s.setB p f b).mem = s.mem := rfl
@[simp] theorem State.setB_common : (s.setB p f b).common = s.common := rfl
@[simp] theorem State.setB_recks : (s.setB p f b).recks = s.recks := rfl
@[simp] theorem State.setB_reckMem : (s.setB p f b).reckMem = s.reckMem := rfl
@[simp] theorem State.setB_loops : (s.setB p f b).loops = s.loops := rfl
@[simp] theorem State.setB_vsms : (s.setB p f b).vsms = s.vsms := rfl
@[simp] theorem State.setB_pcnts : (s.setB p f b).pcnts = s.pcnts := rfl
@[simp] theorem State.setB_bead : (s.setB p f b).bead = s.bead := rfl
@[simp] theorem State.setB_home : (s.setB p f b).home = s.home := rfl
@[simp] theorem State.setB_mbus : (s.setB p f b).mbus = s.mbus := rfl
@[simp] theorem State.setB_cells : (s.setB p f b).cells = s.cells := rfl
@[simp] theorem State.setB_modReps : (s.setB p f b).modReps = s.modReps := rfl
@[simp] theorem State.setB_tallies : (s.setB p f b).tallies = s.tallies := rfl
@[simp] theorem State.setB_cea : (s.setB p f b).cea = s.cea := rfl
@[simp] theorem State.setB_eis : (s.setB p f b).eis = s.eis := rfl
@[simp] theorem State.setB_rest : (s.setB p f b).rest = s.rest := rfl
@[simp] theorem State.setB_sensors : (s.setB p f b).sensors = s.sensors := rfl
@[simp] theorem State.setB_crossings : (s.setB p f b).crossings = s.crossings := rfl
@[simp] theorem State.setB_steppers : (s.setB p f b).steppers = s.steppers := rfl
@[simp] theorem State.setB_flinks : (s.setB p f b).flinks = s.flinks := rfl
@[simp] theorem State.setB_router : (s.setB p f b).router = s.router := rfl
@[simp] theorem State.setB_keys : (s.setB p f b).keys = s.keys := rfl
@[simp] theorem State.setB_sess : (s.setB p f b).sess = s.sess := rfl
@[simp] theorem State.setB_gate : (s.setB p f b).gate = s.gate := rfl
@[simp] theorem State.setB_eths : (s.setB p f b).eths = s.eths := rfl
@[simp] theorem State.setB_store : (s.setB p f b).store = s.store := rfl
@[simp] theorem State.setB_evtQueue : (s.setB p f b).evtQueue = s.evtQueue := rfl
@[simp] theorem State.setB_cf : (s.setB p f b).cf = s.cf := rfl
@[simp] theorem State.setB_pairMem : (s.setB p f b).pairMem = s.pairMem := rfl
@[simp] theorem State.setB_hwPosts : (s.setB p f b).hwPosts = s.hwPosts := rfl
@[simp] theorem State.setB_proc : (s.setB p f b).proc = s.proc := rfl
@[simp] theorem State.setB_sup : (s.setB p f b).sup = s.sup := rfl
@[simp] theorem State.setB_bist : (s.setB p f b).bist = s.bist := rfl
@[simp] theorem State.setB_boot : (s.setB p f b).boot = s.boot := rfl
@[simp] theorem State.setB_out : (s.setB p f b).out = s.out := rfl
@[simp] theorem State.setB_freeCtr : (s.setB p f b).freeCtr = s.freeCtr := rfl
@[simp] theorem State.setB_pending : (s.setB p f b).pending = s.pending := rfl
end

section
variable {s : State} {p off i : Nat} {b : Bool}
@[simp] theorem State.setBit_pages : (s.setBit p off i b).pages = s.pages := rfl
@[simp] theorem State.setBit_shadows : (s.setBit p off i b).shadows = s.shadows := rfl
@[simp] theorem State.setBit_waits : (s.setBit p off i b).waits = s.waits := rfl
@[simp] theorem State.setBit_doms : (s.setBit p off i b).doms = s.doms := rfl
@[simp] theorem State.setBit_beam : (s.setBit p off i b).beam = s.beam := rfl
@[simp] theorem State.setBit_gens : (s.setBit p off i b).gens = s.gens := rfl
@[simp] theorem State.setBit_rods : (s.setBit p off i b).rods = s.rods := rfl
@[simp] theorem State.setBit_links : (s.setBit p off i b).links = s.links := rfl
@[simp] theorem State.setBit_safe : (s.setBit p off i b).safe = s.safe := rfl
@[simp] theorem State.setBit_convs : (s.setBit p off i b).convs = s.convs := rfl
@[simp] theorem State.setBit_digs : (s.setBit p off i b).digs = s.digs := rfl
@[simp] theorem State.setBit_caps : (s.setBit p off i b).caps = s.caps := rfl
@[simp] theorem State.setBit_mem : (s.setBit p off i b).mem = s.mem := rfl
@[simp] theorem State.setBit_common : (s.setBit p off i b).common = s.common := rfl
@[simp] theorem State.setBit_recks : (s.setBit p off i b).recks = s.recks := rfl
@[simp] theorem State.setBit_reckMem : (s.setBit p off i b).reckMem = s.reckMem := rfl
@[simp] theorem State.setBit_loops : (s.setBit p off i b).loops = s.loops := rfl
@[simp] theorem State.setBit_vsms : (s.setBit p off i b).vsms = s.vsms := rfl
@[simp] theorem State.setBit_pcnts : (s.setBit p off i b).pcnts = s.pcnts := rfl
@[simp] theorem State.setBit_bead : (s.setBit p off i b).bead = s.bead := rfl
@[simp] theorem State.setBit_home : (s.setBit p off i b).home = s.home := rfl
@[simp] theorem State.setBit_mbus : (s.setBit p off i b).mbus = s.mbus := rfl
@[simp] theorem State.setBit_cells : (s.setBit p off i b).cells = s.cells := rfl
@[simp] theorem State.setBit_modReps : (s.setBit p off i b).modReps = s.modReps := rfl
@[simp] theorem State.setBit_tallies : (s.setBit p off i b).tallies = s.tallies := rfl
@[simp] theorem State.setBit_cea : (s.setBit p off i b).cea = s.cea := rfl
@[simp] theorem State.setBit_eis : (s.setBit p off i b).eis = s.eis := rfl
@[simp] theorem State.setBit_rest : (s.setBit p off i b).rest = s.rest := rfl
@[simp] theorem State.setBit_sensors : (s.setBit p off i b).sensors = s.sensors := rfl
@[simp] theorem State.setBit_crossings : (s.setBit p off i b).crossings = s.crossings := rfl
@[simp] theorem State.setBit_steppers : (s.setBit p off i b).steppers = s.steppers := rfl
@[simp] theorem State.setBit_flinks : (s.setBit p off i b).flinks = s.flinks := rfl
@[simp] theorem State.setBit_router : (s.setBit p off i b).router = s.router := rfl
@[simp] theorem State.setBit_keys : (s.setBit p off i b).keys = s.keys := rfl
@[simp] theorem State.setBit_sess : (s.setBit p off i b).sess = s.sess := rfl
@[simp] theorem State.setBit_gate : (s.setBit p off i b).gate = s.gate := rfl
@[simp] theorem State.setBit_eths : (s.setBit p off i b).eths = s.eths := rfl
@[simp] theorem State.setBit_store : (s.setBit p off i b).store = s.store := rfl
@[simp] theorem State.setBit_evtQueue : (s.setBit p off i b).evtQueue = s.evtQueue := rfl
@[simp] theorem State.setBit_cf : (s.setBit p off i b).cf = s.cf := rfl
@[simp] theorem State.setBit_pairMem : (s.setBit p off i b).pairMem = s.pairMem := rfl
@[simp] theorem State.setBit_hwPosts : (s.setBit p off i b).hwPosts = s.hwPosts := rfl
@[simp] theorem State.setBit_proc : (s.setBit p off i b).proc = s.proc := rfl
@[simp] theorem State.setBit_sup : (s.setBit p off i b).sup = s.sup := rfl
@[simp] theorem State.setBit_bist : (s.setBit p off i b).bist = s.bist := rfl
@[simp] theorem State.setBit_boot : (s.setBit p off i b).boot = s.boot := rfl
@[simp] theorem State.setBit_out : (s.setBit p off i b).out = s.out := rfl
@[simp] theorem State.setBit_freeCtr : (s.setBit p off i b).freeCtr = s.freeCtr := rfl
@[simp] theorem State.setBit_pending : (s.setBit p off i b).pending = s.pending := rfl
end

section
variable {s : State} {p i : Nat}
@[simp] theorem State.ev_pages : (s.ev p i).pages = s.pages := rfl
@[simp] theorem State.ev_shadows : (s.ev p i).shadows = s.shadows := rfl
@[simp] theorem State.ev_waits : (s.ev p i).waits = s.waits := rfl
@[simp] theorem State.ev_doms : (s.ev p i).doms = s.doms := rfl
@[simp] theorem State.ev_beam : (s.ev p i).beam = s.beam := rfl
@[simp] theorem State.ev_gens : (s.ev p i).gens = s.gens := rfl
@[simp] theorem State.ev_rods : (s.ev p i).rods = s.rods := rfl
@[simp] theorem State.ev_links : (s.ev p i).links = s.links := rfl
@[simp] theorem State.ev_safe : (s.ev p i).safe = s.safe := rfl
@[simp] theorem State.ev_convs : (s.ev p i).convs = s.convs := rfl
@[simp] theorem State.ev_digs : (s.ev p i).digs = s.digs := rfl
@[simp] theorem State.ev_caps : (s.ev p i).caps = s.caps := rfl
@[simp] theorem State.ev_mem : (s.ev p i).mem = s.mem := rfl
@[simp] theorem State.ev_common : (s.ev p i).common = s.common := rfl
@[simp] theorem State.ev_recks : (s.ev p i).recks = s.recks := rfl
@[simp] theorem State.ev_reckMem : (s.ev p i).reckMem = s.reckMem := rfl
@[simp] theorem State.ev_loops : (s.ev p i).loops = s.loops := rfl
@[simp] theorem State.ev_vsms : (s.ev p i).vsms = s.vsms := rfl
@[simp] theorem State.ev_pcnts : (s.ev p i).pcnts = s.pcnts := rfl
@[simp] theorem State.ev_bead : (s.ev p i).bead = s.bead := rfl
@[simp] theorem State.ev_home : (s.ev p i).home = s.home := rfl
@[simp] theorem State.ev_mbus : (s.ev p i).mbus = s.mbus := rfl
@[simp] theorem State.ev_cells : (s.ev p i).cells = s.cells := rfl
@[simp] theorem State.ev_modReps : (s.ev p i).modReps = s.modReps := rfl
@[simp] theorem State.ev_tallies : (s.ev p i).tallies = s.tallies := rfl
@[simp] theorem State.ev_cea : (s.ev p i).cea = s.cea := rfl
@[simp] theorem State.ev_eis : (s.ev p i).eis = s.eis := rfl
@[simp] theorem State.ev_rest : (s.ev p i).rest = s.rest := rfl
@[simp] theorem State.ev_sensors : (s.ev p i).sensors = s.sensors := rfl
@[simp] theorem State.ev_crossings : (s.ev p i).crossings = s.crossings := rfl
@[simp] theorem State.ev_steppers : (s.ev p i).steppers = s.steppers := rfl
@[simp] theorem State.ev_flinks : (s.ev p i).flinks = s.flinks := rfl
@[simp] theorem State.ev_router : (s.ev p i).router = s.router := rfl
@[simp] theorem State.ev_keys : (s.ev p i).keys = s.keys := rfl
@[simp] theorem State.ev_sess : (s.ev p i).sess = s.sess := rfl
@[simp] theorem State.ev_gate : (s.ev p i).gate = s.gate := rfl
@[simp] theorem State.ev_eths : (s.ev p i).eths = s.eths := rfl
@[simp] theorem State.ev_store : (s.ev p i).store = s.store := rfl
@[simp] theorem State.ev_evtQueue : (s.ev p i).evtQueue = s.evtQueue := rfl
@[simp] theorem State.ev_cf : (s.ev p i).cf = s.cf := rfl
@[simp] theorem State.ev_pairMem : (s.ev p i).pairMem = s.pairMem := rfl
@[simp] theorem State.ev_hwPosts : (s.ev p i).hwPosts = s.hwPosts := rfl
@[simp] theorem State.ev_proc : (s.ev p i).proc = s.proc := rfl
@[simp] theorem State.ev_sup : (s.ev p i).sup = s.sup := rfl
@[simp] theorem State.ev_bist : (s.ev p i).bist = s.bist := rfl
@[simp] theorem State.ev_boot : (s.ev p i).boot = s.boot := rfl
@[simp] theorem State.ev_out : (s.ev p i).out = s.out := rfl
@[simp] theorem State.ev_freeCtr : (s.ev p i).freeCtr = s.freeCtr := rfl
@[simp] theorem State.ev_pending : (s.ev p i).pending = s.pending := rfl
end

section
variable {s : State} {p off n : Nat}
@[simp] theorem State.inc_pages : (s.inc p off n).pages = s.pages := rfl
@[simp] theorem State.inc_shadows : (s.inc p off n).shadows = s.shadows := rfl
@[simp] theorem State.inc_waits : (s.inc p off n).waits = s.waits := rfl
@[simp] theorem State.inc_doms : (s.inc p off n).doms = s.doms := rfl
@[simp] theorem State.inc_beam : (s.inc p off n).beam = s.beam := rfl
@[simp] theorem State.inc_gens : (s.inc p off n).gens = s.gens := rfl
@[simp] theorem State.inc_rods : (s.inc p off n).rods = s.rods := rfl
@[simp] theorem State.inc_links : (s.inc p off n).links = s.links := rfl
@[simp] theorem State.inc_safe : (s.inc p off n).safe = s.safe := rfl
@[simp] theorem State.inc_convs : (s.inc p off n).convs = s.convs := rfl
@[simp] theorem State.inc_digs : (s.inc p off n).digs = s.digs := rfl
@[simp] theorem State.inc_caps : (s.inc p off n).caps = s.caps := rfl
@[simp] theorem State.inc_mem : (s.inc p off n).mem = s.mem := rfl
@[simp] theorem State.inc_common : (s.inc p off n).common = s.common := rfl
@[simp] theorem State.inc_recks : (s.inc p off n).recks = s.recks := rfl
@[simp] theorem State.inc_reckMem : (s.inc p off n).reckMem = s.reckMem := rfl
@[simp] theorem State.inc_loops : (s.inc p off n).loops = s.loops := rfl
@[simp] theorem State.inc_vsms : (s.inc p off n).vsms = s.vsms := rfl
@[simp] theorem State.inc_pcnts : (s.inc p off n).pcnts = s.pcnts := rfl
@[simp] theorem State.inc_bead : (s.inc p off n).bead = s.bead := rfl
@[simp] theorem State.inc_home : (s.inc p off n).home = s.home := rfl
@[simp] theorem State.inc_mbus : (s.inc p off n).mbus = s.mbus := rfl
@[simp] theorem State.inc_cells : (s.inc p off n).cells = s.cells := rfl
@[simp] theorem State.inc_modReps : (s.inc p off n).modReps = s.modReps := rfl
@[simp] theorem State.inc_tallies : (s.inc p off n).tallies = s.tallies := rfl
@[simp] theorem State.inc_cea : (s.inc p off n).cea = s.cea := rfl
@[simp] theorem State.inc_eis : (s.inc p off n).eis = s.eis := rfl
@[simp] theorem State.inc_rest : (s.inc p off n).rest = s.rest := rfl
@[simp] theorem State.inc_sensors : (s.inc p off n).sensors = s.sensors := rfl
@[simp] theorem State.inc_crossings : (s.inc p off n).crossings = s.crossings := rfl
@[simp] theorem State.inc_steppers : (s.inc p off n).steppers = s.steppers := rfl
@[simp] theorem State.inc_flinks : (s.inc p off n).flinks = s.flinks := rfl
@[simp] theorem State.inc_router : (s.inc p off n).router = s.router := rfl
@[simp] theorem State.inc_keys : (s.inc p off n).keys = s.keys := rfl
@[simp] theorem State.inc_sess : (s.inc p off n).sess = s.sess := rfl
@[simp] theorem State.inc_gate : (s.inc p off n).gate = s.gate := rfl
@[simp] theorem State.inc_eths : (s.inc p off n).eths = s.eths := rfl
@[simp] theorem State.inc_store : (s.inc p off n).store = s.store := rfl
@[simp] theorem State.inc_evtQueue : (s.inc p off n).evtQueue = s.evtQueue := rfl
@[simp] theorem State.inc_cf : (s.inc p off n).cf = s.cf := rfl
@[simp] theorem State.inc_pairMem : (s.inc p off n).pairMem = s.pairMem := rfl
@[simp] theorem State.inc_hwPosts : (s.inc p off n).hwPosts = s.hwPosts := rfl
@[simp] theorem State.inc_proc : (s.inc p off n).proc = s.proc := rfl
@[simp] theorem State.inc_sup : (s.inc p off n).sup = s.sup := rfl
@[simp] theorem State.inc_bist : (s.inc p off n).bist = s.bist := rfl
@[simp] theorem State.inc_boot : (s.inc p off n).boot = s.boot := rfl
@[simp] theorem State.inc_out : (s.inc p off n).out = s.out := rfl
@[simp] theorem State.inc_freeCtr : (s.inc p off n).freeCtr = s.freeCtr := rfl
@[simp] theorem State.inc_pending : (s.inc p off n).pending = s.pending := rfl
end

section
variable {s : State} {p off n : Nat}
@[simp] theorem State.incSat_pages : (s.incSat p off n).pages = s.pages := rfl
@[simp] theorem State.incSat_shadows : (s.incSat p off n).shadows = s.shadows := rfl
@[simp] theorem State.incSat_waits : (s.incSat p off n).waits = s.waits := rfl
@[simp] theorem State.incSat_doms : (s.incSat p off n).doms = s.doms := rfl
@[simp] theorem State.incSat_beam : (s.incSat p off n).beam = s.beam := rfl
@[simp] theorem State.incSat_gens : (s.incSat p off n).gens = s.gens := rfl
@[simp] theorem State.incSat_rods : (s.incSat p off n).rods = s.rods := rfl
@[simp] theorem State.incSat_links : (s.incSat p off n).links = s.links := rfl
@[simp] theorem State.incSat_safe : (s.incSat p off n).safe = s.safe := rfl
@[simp] theorem State.incSat_convs : (s.incSat p off n).convs = s.convs := rfl
@[simp] theorem State.incSat_digs : (s.incSat p off n).digs = s.digs := rfl
@[simp] theorem State.incSat_caps : (s.incSat p off n).caps = s.caps := rfl
@[simp] theorem State.incSat_mem : (s.incSat p off n).mem = s.mem := rfl
@[simp] theorem State.incSat_common : (s.incSat p off n).common = s.common := rfl
@[simp] theorem State.incSat_recks : (s.incSat p off n).recks = s.recks := rfl
@[simp] theorem State.incSat_reckMem : (s.incSat p off n).reckMem = s.reckMem := rfl
@[simp] theorem State.incSat_loops : (s.incSat p off n).loops = s.loops := rfl
@[simp] theorem State.incSat_vsms : (s.incSat p off n).vsms = s.vsms := rfl
@[simp] theorem State.incSat_pcnts : (s.incSat p off n).pcnts = s.pcnts := rfl
@[simp] theorem State.incSat_bead : (s.incSat p off n).bead = s.bead := rfl
@[simp] theorem State.incSat_home : (s.incSat p off n).home = s.home := rfl
@[simp] theorem State.incSat_mbus : (s.incSat p off n).mbus = s.mbus := rfl
@[simp] theorem State.incSat_cells : (s.incSat p off n).cells = s.cells := rfl
@[simp] theorem State.incSat_modReps : (s.incSat p off n).modReps = s.modReps := rfl
@[simp] theorem State.incSat_tallies : (s.incSat p off n).tallies = s.tallies := rfl
@[simp] theorem State.incSat_cea : (s.incSat p off n).cea = s.cea := rfl
@[simp] theorem State.incSat_eis : (s.incSat p off n).eis = s.eis := rfl
@[simp] theorem State.incSat_rest : (s.incSat p off n).rest = s.rest := rfl
@[simp] theorem State.incSat_sensors : (s.incSat p off n).sensors = s.sensors := rfl
@[simp] theorem State.incSat_crossings : (s.incSat p off n).crossings = s.crossings := rfl
@[simp] theorem State.incSat_steppers : (s.incSat p off n).steppers = s.steppers := rfl
@[simp] theorem State.incSat_flinks : (s.incSat p off n).flinks = s.flinks := rfl
@[simp] theorem State.incSat_router : (s.incSat p off n).router = s.router := rfl
@[simp] theorem State.incSat_keys : (s.incSat p off n).keys = s.keys := rfl
@[simp] theorem State.incSat_sess : (s.incSat p off n).sess = s.sess := rfl
@[simp] theorem State.incSat_gate : (s.incSat p off n).gate = s.gate := rfl
@[simp] theorem State.incSat_eths : (s.incSat p off n).eths = s.eths := rfl
@[simp] theorem State.incSat_store : (s.incSat p off n).store = s.store := rfl
@[simp] theorem State.incSat_evtQueue : (s.incSat p off n).evtQueue = s.evtQueue := rfl
@[simp] theorem State.incSat_cf : (s.incSat p off n).cf = s.cf := rfl
@[simp] theorem State.incSat_pairMem : (s.incSat p off n).pairMem = s.pairMem := rfl
@[simp] theorem State.incSat_hwPosts : (s.incSat p off n).hwPosts = s.hwPosts := rfl
@[simp] theorem State.incSat_proc : (s.incSat p off n).proc = s.proc := rfl
@[simp] theorem State.incSat_sup : (s.incSat p off n).sup = s.sup := rfl
@[simp] theorem State.incSat_bist : (s.incSat p off n).bist = s.bist := rfl
@[simp] theorem State.incSat_boot : (s.incSat p off n).boot = s.boot := rfl
@[simp] theorem State.incSat_out : (s.incSat p off n).out = s.out := rfl
@[simp] theorem State.incSat_freeCtr : (s.incSat p off n).freeCtr = s.freeCtr := rfl
@[simp] theorem State.incSat_pending : (s.incSat p off n).pending = s.pending := rfl
end

section
variable {s : State} {p n : Nat} {f : Fld}
@[simp] theorem State.incF_pages : (s.incF p f n).pages = s.pages := rfl
@[simp] theorem State.incF_shadows : (s.incF p f n).shadows = s.shadows := rfl
@[simp] theorem State.incF_waits : (s.incF p f n).waits = s.waits := rfl
@[simp] theorem State.incF_doms : (s.incF p f n).doms = s.doms := rfl
@[simp] theorem State.incF_beam : (s.incF p f n).beam = s.beam := rfl
@[simp] theorem State.incF_gens : (s.incF p f n).gens = s.gens := rfl
@[simp] theorem State.incF_rods : (s.incF p f n).rods = s.rods := rfl
@[simp] theorem State.incF_links : (s.incF p f n).links = s.links := rfl
@[simp] theorem State.incF_safe : (s.incF p f n).safe = s.safe := rfl
@[simp] theorem State.incF_convs : (s.incF p f n).convs = s.convs := rfl
@[simp] theorem State.incF_digs : (s.incF p f n).digs = s.digs := rfl
@[simp] theorem State.incF_caps : (s.incF p f n).caps = s.caps := rfl
@[simp] theorem State.incF_mem : (s.incF p f n).mem = s.mem := rfl
@[simp] theorem State.incF_common : (s.incF p f n).common = s.common := rfl
@[simp] theorem State.incF_recks : (s.incF p f n).recks = s.recks := rfl
@[simp] theorem State.incF_reckMem : (s.incF p f n).reckMem = s.reckMem := rfl
@[simp] theorem State.incF_loops : (s.incF p f n).loops = s.loops := rfl
@[simp] theorem State.incF_vsms : (s.incF p f n).vsms = s.vsms := rfl
@[simp] theorem State.incF_pcnts : (s.incF p f n).pcnts = s.pcnts := rfl
@[simp] theorem State.incF_bead : (s.incF p f n).bead = s.bead := rfl
@[simp] theorem State.incF_home : (s.incF p f n).home = s.home := rfl
@[simp] theorem State.incF_mbus : (s.incF p f n).mbus = s.mbus := rfl
@[simp] theorem State.incF_cells : (s.incF p f n).cells = s.cells := rfl
@[simp] theorem State.incF_modReps : (s.incF p f n).modReps = s.modReps := rfl
@[simp] theorem State.incF_tallies : (s.incF p f n).tallies = s.tallies := rfl
@[simp] theorem State.incF_cea : (s.incF p f n).cea = s.cea := rfl
@[simp] theorem State.incF_eis : (s.incF p f n).eis = s.eis := rfl
@[simp] theorem State.incF_rest : (s.incF p f n).rest = s.rest := rfl
@[simp] theorem State.incF_sensors : (s.incF p f n).sensors = s.sensors := rfl
@[simp] theorem State.incF_crossings : (s.incF p f n).crossings = s.crossings := rfl
@[simp] theorem State.incF_steppers : (s.incF p f n).steppers = s.steppers := rfl
@[simp] theorem State.incF_flinks : (s.incF p f n).flinks = s.flinks := rfl
@[simp] theorem State.incF_router : (s.incF p f n).router = s.router := rfl
@[simp] theorem State.incF_keys : (s.incF p f n).keys = s.keys := rfl
@[simp] theorem State.incF_sess : (s.incF p f n).sess = s.sess := rfl
@[simp] theorem State.incF_gate : (s.incF p f n).gate = s.gate := rfl
@[simp] theorem State.incF_eths : (s.incF p f n).eths = s.eths := rfl
@[simp] theorem State.incF_store : (s.incF p f n).store = s.store := rfl
@[simp] theorem State.incF_evtQueue : (s.incF p f n).evtQueue = s.evtQueue := rfl
@[simp] theorem State.incF_cf : (s.incF p f n).cf = s.cf := rfl
@[simp] theorem State.incF_pairMem : (s.incF p f n).pairMem = s.pairMem := rfl
@[simp] theorem State.incF_hwPosts : (s.incF p f n).hwPosts = s.hwPosts := rfl
@[simp] theorem State.incF_proc : (s.incF p f n).proc = s.proc := rfl
@[simp] theorem State.incF_sup : (s.incF p f n).sup = s.sup := rfl
@[simp] theorem State.incF_bist : (s.incF p f n).bist = s.bist := rfl
@[simp] theorem State.incF_boot : (s.incF p f n).boot = s.boot := rfl
@[simp] theorem State.incF_out : (s.incF p f n).out = s.out := rfl
@[simp] theorem State.incF_freeCtr : (s.incF p f n).freeCtr = s.freeCtr := rfl
@[simp] theorem State.incF_pending : (s.incF p f n).pending = s.pending := rfl
end

section
variable {s : State} {p n : Nat} {f : Fld}
@[simp] theorem State.incFW_pages : (s.incFW p f n).pages = s.pages := rfl
@[simp] theorem State.incFW_shadows : (s.incFW p f n).shadows = s.shadows := rfl
@[simp] theorem State.incFW_waits : (s.incFW p f n).waits = s.waits := rfl
@[simp] theorem State.incFW_doms : (s.incFW p f n).doms = s.doms := rfl
@[simp] theorem State.incFW_beam : (s.incFW p f n).beam = s.beam := rfl
@[simp] theorem State.incFW_gens : (s.incFW p f n).gens = s.gens := rfl
@[simp] theorem State.incFW_rods : (s.incFW p f n).rods = s.rods := rfl
@[simp] theorem State.incFW_links : (s.incFW p f n).links = s.links := rfl
@[simp] theorem State.incFW_safe : (s.incFW p f n).safe = s.safe := rfl
@[simp] theorem State.incFW_convs : (s.incFW p f n).convs = s.convs := rfl
@[simp] theorem State.incFW_digs : (s.incFW p f n).digs = s.digs := rfl
@[simp] theorem State.incFW_caps : (s.incFW p f n).caps = s.caps := rfl
@[simp] theorem State.incFW_mem : (s.incFW p f n).mem = s.mem := rfl
@[simp] theorem State.incFW_common : (s.incFW p f n).common = s.common := rfl
@[simp] theorem State.incFW_recks : (s.incFW p f n).recks = s.recks := rfl
@[simp] theorem State.incFW_reckMem : (s.incFW p f n).reckMem = s.reckMem := rfl
@[simp] theorem State.incFW_loops : (s.incFW p f n).loops = s.loops := rfl
@[simp] theorem State.incFW_vsms : (s.incFW p f n).vsms = s.vsms := rfl
@[simp] theorem State.incFW_pcnts : (s.incFW p f n).pcnts = s.pcnts := rfl
@[simp] theorem State.incFW_bead : (s.incFW p f n).bead = s.bead := rfl
@[simp] theorem State.incFW_home : (s.incFW p f n).home = s.home := rfl
@[simp] theorem State.incFW_mbus : (s.incFW p f n).mbus = s.mbus := rfl
@[simp] theorem State.incFW_cells : (s.incFW p f n).cells = s.cells := rfl
@[simp] theorem State.incFW_modReps : (s.incFW p f n).modReps = s.modReps := rfl
@[simp] theorem State.incFW_tallies : (s.incFW p f n).tallies = s.tallies := rfl
@[simp] theorem State.incFW_cea : (s.incFW p f n).cea = s.cea := rfl
@[simp] theorem State.incFW_eis : (s.incFW p f n).eis = s.eis := rfl
@[simp] theorem State.incFW_rest : (s.incFW p f n).rest = s.rest := rfl
@[simp] theorem State.incFW_sensors : (s.incFW p f n).sensors = s.sensors := rfl
@[simp] theorem State.incFW_crossings : (s.incFW p f n).crossings = s.crossings := rfl
@[simp] theorem State.incFW_steppers : (s.incFW p f n).steppers = s.steppers := rfl
@[simp] theorem State.incFW_flinks : (s.incFW p f n).flinks = s.flinks := rfl
@[simp] theorem State.incFW_router : (s.incFW p f n).router = s.router := rfl
@[simp] theorem State.incFW_keys : (s.incFW p f n).keys = s.keys := rfl
@[simp] theorem State.incFW_sess : (s.incFW p f n).sess = s.sess := rfl
@[simp] theorem State.incFW_gate : (s.incFW p f n).gate = s.gate := rfl
@[simp] theorem State.incFW_eths : (s.incFW p f n).eths = s.eths := rfl
@[simp] theorem State.incFW_store : (s.incFW p f n).store = s.store := rfl
@[simp] theorem State.incFW_evtQueue : (s.incFW p f n).evtQueue = s.evtQueue := rfl
@[simp] theorem State.incFW_cf : (s.incFW p f n).cf = s.cf := rfl
@[simp] theorem State.incFW_pairMem : (s.incFW p f n).pairMem = s.pairMem := rfl
@[simp] theorem State.incFW_hwPosts : (s.incFW p f n).hwPosts = s.hwPosts := rfl
@[simp] theorem State.incFW_proc : (s.incFW p f n).proc = s.proc := rfl
@[simp] theorem State.incFW_sup : (s.incFW p f n).sup = s.sup := rfl
@[simp] theorem State.incFW_bist : (s.incFW p f n).bist = s.bist := rfl
@[simp] theorem State.incFW_boot : (s.incFW p f n).boot = s.boot := rfl
@[simp] theorem State.incFW_out : (s.incFW p f n).out = s.out := rfl
@[simp] theorem State.incFW_freeCtr : (s.incFW p f n).freeCtr = s.freeCtr := rfl
@[simp] theorem State.incFW_pending : (s.incFW p f n).pending = s.pending := rfl
end

section
variable {s : State} {p off v : Nat}
@[simp] theorem State.setReg64_pages : (s.setReg64 p off v).pages = s.pages := rfl
@[simp] theorem State.setReg64_shadows : (s.setReg64 p off v).shadows = s.shadows := rfl
@[simp] theorem State.setReg64_waits : (s.setReg64 p off v).waits = s.waits := rfl
@[simp] theorem State.setReg64_doms : (s.setReg64 p off v).doms = s.doms := rfl
@[simp] theorem State.setReg64_beam : (s.setReg64 p off v).beam = s.beam := rfl
@[simp] theorem State.setReg64_gens : (s.setReg64 p off v).gens = s.gens := rfl
@[simp] theorem State.setReg64_rods : (s.setReg64 p off v).rods = s.rods := rfl
@[simp] theorem State.setReg64_links : (s.setReg64 p off v).links = s.links := rfl
@[simp] theorem State.setReg64_safe : (s.setReg64 p off v).safe = s.safe := rfl
@[simp] theorem State.setReg64_convs : (s.setReg64 p off v).convs = s.convs := rfl
@[simp] theorem State.setReg64_digs : (s.setReg64 p off v).digs = s.digs := rfl
@[simp] theorem State.setReg64_caps : (s.setReg64 p off v).caps = s.caps := rfl
@[simp] theorem State.setReg64_mem : (s.setReg64 p off v).mem = s.mem := rfl
@[simp] theorem State.setReg64_common : (s.setReg64 p off v).common = s.common := rfl
@[simp] theorem State.setReg64_recks : (s.setReg64 p off v).recks = s.recks := rfl
@[simp] theorem State.setReg64_reckMem : (s.setReg64 p off v).reckMem = s.reckMem := rfl
@[simp] theorem State.setReg64_loops : (s.setReg64 p off v).loops = s.loops := rfl
@[simp] theorem State.setReg64_vsms : (s.setReg64 p off v).vsms = s.vsms := rfl
@[simp] theorem State.setReg64_pcnts : (s.setReg64 p off v).pcnts = s.pcnts := rfl
@[simp] theorem State.setReg64_bead : (s.setReg64 p off v).bead = s.bead := rfl
@[simp] theorem State.setReg64_home : (s.setReg64 p off v).home = s.home := rfl
@[simp] theorem State.setReg64_mbus : (s.setReg64 p off v).mbus = s.mbus := rfl
@[simp] theorem State.setReg64_cells : (s.setReg64 p off v).cells = s.cells := rfl
@[simp] theorem State.setReg64_modReps : (s.setReg64 p off v).modReps = s.modReps := rfl
@[simp] theorem State.setReg64_tallies : (s.setReg64 p off v).tallies = s.tallies := rfl
@[simp] theorem State.setReg64_cea : (s.setReg64 p off v).cea = s.cea := rfl
@[simp] theorem State.setReg64_eis : (s.setReg64 p off v).eis = s.eis := rfl
@[simp] theorem State.setReg64_rest : (s.setReg64 p off v).rest = s.rest := rfl
@[simp] theorem State.setReg64_sensors : (s.setReg64 p off v).sensors = s.sensors := rfl
@[simp] theorem State.setReg64_crossings : (s.setReg64 p off v).crossings = s.crossings := rfl
@[simp] theorem State.setReg64_steppers : (s.setReg64 p off v).steppers = s.steppers := rfl
@[simp] theorem State.setReg64_flinks : (s.setReg64 p off v).flinks = s.flinks := rfl
@[simp] theorem State.setReg64_router : (s.setReg64 p off v).router = s.router := rfl
@[simp] theorem State.setReg64_keys : (s.setReg64 p off v).keys = s.keys := rfl
@[simp] theorem State.setReg64_sess : (s.setReg64 p off v).sess = s.sess := rfl
@[simp] theorem State.setReg64_gate : (s.setReg64 p off v).gate = s.gate := rfl
@[simp] theorem State.setReg64_eths : (s.setReg64 p off v).eths = s.eths := rfl
@[simp] theorem State.setReg64_store : (s.setReg64 p off v).store = s.store := rfl
@[simp] theorem State.setReg64_evtQueue : (s.setReg64 p off v).evtQueue = s.evtQueue := rfl
@[simp] theorem State.setReg64_cf : (s.setReg64 p off v).cf = s.cf := rfl
@[simp] theorem State.setReg64_pairMem : (s.setReg64 p off v).pairMem = s.pairMem := rfl
@[simp] theorem State.setReg64_hwPosts : (s.setReg64 p off v).hwPosts = s.hwPosts := rfl
@[simp] theorem State.setReg64_proc : (s.setReg64 p off v).proc = s.proc := rfl
@[simp] theorem State.setReg64_sup : (s.setReg64 p off v).sup = s.sup := rfl
@[simp] theorem State.setReg64_bist : (s.setReg64 p off v).bist = s.bist := rfl
@[simp] theorem State.setReg64_boot : (s.setReg64 p off v).boot = s.boot := rfl
@[simp] theorem State.setReg64_out : (s.setReg64 p off v).out = s.out := rfl
@[simp] theorem State.setReg64_freeCtr : (s.setReg64 p off v).freeCtr = s.freeCtr := rfl
@[simp] theorem State.setReg64_pending : (s.setReg64 p off v).pending = s.pending := rfl
end

section
variable {s : State} {p off : Nat} {x : Int}
@[simp] theorem State.setRegSat_pages : (s.setRegSat p off x).pages = s.pages := rfl
@[simp] theorem State.setRegSat_shadows : (s.setRegSat p off x).shadows = s.shadows := rfl
@[simp] theorem State.setRegSat_waits : (s.setRegSat p off x).waits = s.waits := rfl
@[simp] theorem State.setRegSat_doms : (s.setRegSat p off x).doms = s.doms := rfl
@[simp] theorem State.setRegSat_beam : (s.setRegSat p off x).beam = s.beam := rfl
@[simp] theorem State.setRegSat_gens : (s.setRegSat p off x).gens = s.gens := rfl
@[simp] theorem State.setRegSat_rods : (s.setRegSat p off x).rods = s.rods := rfl
@[simp] theorem State.setRegSat_links : (s.setRegSat p off x).links = s.links := rfl
@[simp] theorem State.setRegSat_safe : (s.setRegSat p off x).safe = s.safe := rfl
@[simp] theorem State.setRegSat_convs : (s.setRegSat p off x).convs = s.convs := rfl
@[simp] theorem State.setRegSat_digs : (s.setRegSat p off x).digs = s.digs := rfl
@[simp] theorem State.setRegSat_caps : (s.setRegSat p off x).caps = s.caps := rfl
@[simp] theorem State.setRegSat_mem : (s.setRegSat p off x).mem = s.mem := rfl
@[simp] theorem State.setRegSat_common : (s.setRegSat p off x).common = s.common := rfl
@[simp] theorem State.setRegSat_recks : (s.setRegSat p off x).recks = s.recks := rfl
@[simp] theorem State.setRegSat_reckMem : (s.setRegSat p off x).reckMem = s.reckMem := rfl
@[simp] theorem State.setRegSat_loops : (s.setRegSat p off x).loops = s.loops := rfl
@[simp] theorem State.setRegSat_vsms : (s.setRegSat p off x).vsms = s.vsms := rfl
@[simp] theorem State.setRegSat_pcnts : (s.setRegSat p off x).pcnts = s.pcnts := rfl
@[simp] theorem State.setRegSat_bead : (s.setRegSat p off x).bead = s.bead := rfl
@[simp] theorem State.setRegSat_home : (s.setRegSat p off x).home = s.home := rfl
@[simp] theorem State.setRegSat_mbus : (s.setRegSat p off x).mbus = s.mbus := rfl
@[simp] theorem State.setRegSat_cells : (s.setRegSat p off x).cells = s.cells := rfl
@[simp] theorem State.setRegSat_modReps : (s.setRegSat p off x).modReps = s.modReps := rfl
@[simp] theorem State.setRegSat_tallies : (s.setRegSat p off x).tallies = s.tallies := rfl
@[simp] theorem State.setRegSat_cea : (s.setRegSat p off x).cea = s.cea := rfl
@[simp] theorem State.setRegSat_eis : (s.setRegSat p off x).eis = s.eis := rfl
@[simp] theorem State.setRegSat_rest : (s.setRegSat p off x).rest = s.rest := rfl
@[simp] theorem State.setRegSat_sensors : (s.setRegSat p off x).sensors = s.sensors := rfl
@[simp] theorem State.setRegSat_crossings : (s.setRegSat p off x).crossings = s.crossings := rfl
@[simp] theorem State.setRegSat_steppers : (s.setRegSat p off x).steppers = s.steppers := rfl
@[simp] theorem State.setRegSat_flinks : (s.setRegSat p off x).flinks = s.flinks := rfl
@[simp] theorem State.setRegSat_router : (s.setRegSat p off x).router = s.router := rfl
@[simp] theorem State.setRegSat_keys : (s.setRegSat p off x).keys = s.keys := rfl
@[simp] theorem State.setRegSat_sess : (s.setRegSat p off x).sess = s.sess := rfl
@[simp] theorem State.setRegSat_gate : (s.setRegSat p off x).gate = s.gate := rfl
@[simp] theorem State.setRegSat_eths : (s.setRegSat p off x).eths = s.eths := rfl
@[simp] theorem State.setRegSat_store : (s.setRegSat p off x).store = s.store := rfl
@[simp] theorem State.setRegSat_evtQueue : (s.setRegSat p off x).evtQueue = s.evtQueue := rfl
@[simp] theorem State.setRegSat_cf : (s.setRegSat p off x).cf = s.cf := rfl
@[simp] theorem State.setRegSat_pairMem : (s.setRegSat p off x).pairMem = s.pairMem := rfl
@[simp] theorem State.setRegSat_hwPosts : (s.setRegSat p off x).hwPosts = s.hwPosts := rfl
@[simp] theorem State.setRegSat_proc : (s.setRegSat p off x).proc = s.proc := rfl
@[simp] theorem State.setRegSat_sup : (s.setRegSat p off x).sup = s.sup := rfl
@[simp] theorem State.setRegSat_bist : (s.setRegSat p off x).bist = s.bist := rfl
@[simp] theorem State.setRegSat_boot : (s.setRegSat p off x).boot = s.boot := rfl
@[simp] theorem State.setRegSat_out : (s.setRegSat p off x).out = s.out := rfl
@[simp] theorem State.setRegSat_freeCtr : (s.setRegSat p off x).freeCtr = s.freeCtr := rfl
@[simp] theorem State.setRegSat_pending : (s.setRegSat p off x).pending = s.pending := rfl
end

section
variable {s : State} {p i : Nat}
@[simp] theorem State.err_pages : (s.err p i).pages = s.pages := by unfold State.err; split <;> rfl
@[simp] theorem State.err_shadows : (s.err p i).shadows = s.shadows := by unfold State.err; split <;> rfl
@[simp] theorem State.err_waits : (s.err p i).waits = s.waits := by unfold State.err; split <;> rfl
@[simp] theorem State.err_doms : (s.err p i).doms = s.doms := by unfold State.err; split <;> rfl
@[simp] theorem State.err_beam : (s.err p i).beam = s.beam := by unfold State.err; split <;> rfl
@[simp] theorem State.err_gens : (s.err p i).gens = s.gens := by unfold State.err; split <;> rfl
@[simp] theorem State.err_rods : (s.err p i).rods = s.rods := by unfold State.err; split <;> rfl
@[simp] theorem State.err_links : (s.err p i).links = s.links := by unfold State.err; split <;> rfl
@[simp] theorem State.err_safe : (s.err p i).safe = s.safe := by unfold State.err; split <;> rfl
@[simp] theorem State.err_convs : (s.err p i).convs = s.convs := by unfold State.err; split <;> rfl
@[simp] theorem State.err_digs : (s.err p i).digs = s.digs := by unfold State.err; split <;> rfl
@[simp] theorem State.err_caps : (s.err p i).caps = s.caps := by unfold State.err; split <;> rfl
@[simp] theorem State.err_mem : (s.err p i).mem = s.mem := by unfold State.err; split <;> rfl
@[simp] theorem State.err_common : (s.err p i).common = s.common := by unfold State.err; split <;> rfl
@[simp] theorem State.err_recks : (s.err p i).recks = s.recks := by unfold State.err; split <;> rfl
@[simp] theorem State.err_reckMem : (s.err p i).reckMem = s.reckMem := by unfold State.err; split <;> rfl
@[simp] theorem State.err_loops : (s.err p i).loops = s.loops := by unfold State.err; split <;> rfl
@[simp] theorem State.err_vsms : (s.err p i).vsms = s.vsms := by unfold State.err; split <;> rfl
@[simp] theorem State.err_pcnts : (s.err p i).pcnts = s.pcnts := by unfold State.err; split <;> rfl
@[simp] theorem State.err_bead : (s.err p i).bead = s.bead := by unfold State.err; split <;> rfl
@[simp] theorem State.err_home : (s.err p i).home = s.home := by unfold State.err; split <;> rfl
@[simp] theorem State.err_mbus : (s.err p i).mbus = s.mbus := by unfold State.err; split <;> rfl
@[simp] theorem State.err_cells : (s.err p i).cells = s.cells := by unfold State.err; split <;> rfl
@[simp] theorem State.err_modReps : (s.err p i).modReps = s.modReps := by unfold State.err; split <;> rfl
@[simp] theorem State.err_tallies : (s.err p i).tallies = s.tallies := by unfold State.err; split <;> rfl
@[simp] theorem State.err_cea : (s.err p i).cea = s.cea := by unfold State.err; split <;> rfl
@[simp] theorem State.err_eis : (s.err p i).eis = s.eis := by unfold State.err; split <;> rfl
@[simp] theorem State.err_rest : (s.err p i).rest = s.rest := by unfold State.err; split <;> rfl
@[simp] theorem State.err_sensors : (s.err p i).sensors = s.sensors := by unfold State.err; split <;> rfl
@[simp] theorem State.err_crossings : (s.err p i).crossings = s.crossings := by unfold State.err; split <;> rfl
@[simp] theorem State.err_steppers : (s.err p i).steppers = s.steppers := by unfold State.err; split <;> rfl
@[simp] theorem State.err_flinks : (s.err p i).flinks = s.flinks := by unfold State.err; split <;> rfl
@[simp] theorem State.err_router : (s.err p i).router = s.router := by unfold State.err; split <;> rfl
@[simp] theorem State.err_keys : (s.err p i).keys = s.keys := by unfold State.err; split <;> rfl
@[simp] theorem State.err_sess : (s.err p i).sess = s.sess := by unfold State.err; split <;> rfl
@[simp] theorem State.err_gate : (s.err p i).gate = s.gate := by unfold State.err; split <;> rfl
@[simp] theorem State.err_eths : (s.err p i).eths = s.eths := by unfold State.err; split <;> rfl
@[simp] theorem State.err_store : (s.err p i).store = s.store := by unfold State.err; split <;> rfl
@[simp] theorem State.err_evtQueue : (s.err p i).evtQueue = s.evtQueue := by unfold State.err; split <;> rfl
@[simp] theorem State.err_cf : (s.err p i).cf = s.cf := by unfold State.err; split <;> rfl
@[simp] theorem State.err_pairMem : (s.err p i).pairMem = s.pairMem := by unfold State.err; split <;> rfl
@[simp] theorem State.err_hwPosts : (s.err p i).hwPosts = s.hwPosts := by unfold State.err; split <;> rfl
@[simp] theorem State.err_proc : (s.err p i).proc = s.proc := by unfold State.err; split <;> rfl
@[simp] theorem State.err_sup : (s.err p i).sup = s.sup := by unfold State.err; split <;> rfl
@[simp] theorem State.err_bist : (s.err p i).bist = s.bist := by unfold State.err; split <;> rfl
@[simp] theorem State.err_boot : (s.err p i).boot = s.boot := by unfold State.err; split <;> rfl
@[simp] theorem State.err_out : (s.err p i).out = s.out := by unfold State.err; split <;> rfl
@[simp] theorem State.err_freeCtr : (s.err p i).freeCtr = s.freeCtr := by unfold State.err; split <;> rfl
@[simp] theorem State.err_pending : (s.err p i).pending = s.pending := by unfold State.err; split <;> rfl
end

/-! ## Each own field after its update -/

@[simp] theorem State.conv_setConv {s : State} {k : Nat} {c : Nat} {x : ConvX} : (s.setConv k c x).conv k c = x := tabGet_put_same
@[simp] theorem State.home_setHome {s : State} {x : HomeX} : (s.setHome x).home = x := rfl
@[simp] theorem State.bead_setBead {s : State} {x : BeadX} : (s.setBead x).bead = x := rfl
@[simp] theorem State.eisX_setEisX {s : State} {r : Nat} {x : EisX} : (s.setEisX r x).eisX r = x := tabGet_put_same
@[simp] theorem State.gen_setGen {s : State} {g : Nat} {x : GenX} : (s.setGen g x).gen g = x := tabGet_put_same
@[simp] theorem State.cell_setCell {s : State} {c : Nat} {x : CellX} : (s.setCell c x).cell c = x := tabGet_put_same
@[simp] theorem State.cea_setCea {s : State} {x : CeaX} : (s.setCea x).cea = x := rfl
@[simp] theorem State.tally_setTally {s : State} {r : Nat} {x : TallyX} : (s.setTally r x).tally r = x := tabGet_put_same
@[simp] theorem State.fab_setFab {s : State} {l : Nat} {x : FabX} : (s.setFab l x).fab l = x := tabGet_put_same
@[simp] theorem State.router_setRouter {s : State} {x : RouterX} : (s.setRouter x).router = x := rfl
@[simp] theorem State.eth_setEth {s : State} {k : Nat} {x : EthX} : (s.setEth k x).eth k = x := tabGet_put_same
@[simp] theorem State.ses_setSes {s : State} {n : Nat} {x : SessX} : (s.setSes n x).ses n = x := tabGet_put_same
@[simp] theorem State.gate_setGate {s : State} {x : GateX} : (s.setGate x).gate = x := rfl
@[simp] theorem State.keys_setKeys {s : State} {x : KeysX} : (s.setKeys x).keys = x := rfl
@[simp] theorem State.pcnt_setPcnt {s : State} {c : Nat} {x : PcntX} : (s.setPcnt c x).pcnt c = x := tabGet_put_same
@[simp] theorem State.mb_setMb {s : State} {n : Nat} {x : MbX} : (s.setMb n x).mb n = x := tabGet_put_same
@[simp] theorem State.memByte_setMemByte {s : State} {a : Nat} {v : Byte} : (s.setMemByte a v).memByte a = v := tabGet_put_same
@[simp] theorem State.commonWord_setCommon {s : State} {i : Nat} {v : Word} : (s.setCommon i v).commonWord i = v := tabGet_put_same
@[simp] theorem State.pg_setPg {s : State} {p : Nat} {x : PageX} : (s.setPg p x).pg p = x := tabGet_put_same
@[simp] theorem State.reckX_setReckX {s : State} {k : Nat} {x : ReckX} : (s.setReckX k x).reckX k = x := tabGet_put_same
@[simp] theorem State.vsm_setVsm {s : State} {k : Nat} {x : VsmX} : (s.setVsm k x).vsm k = x := tabGet_put_same
@[simp] theorem State.proc_setProc {s : State} {x : ProcX} : (s.setProc x).proc = x := rfl
@[simp] theorem State.sup_setSup {s : State} {x : SupX} : (s.setSup x).sup = x := rfl
@[simp] theorem State.bist_setBist {s : State} {x : BistX} : (s.setBist x).bist = x := rfl
@[simp] theorem State.boot_setBoot {s : State} {x : BootX} : (s.setBoot x).boot = x := rfl
@[simp] theorem State.rod_setRod {s : State} {n : Nat} {x : RodX} : (s.setRod n x).rod n = x := tabGet_put_same
@[simp] theorem State.loop_setLoop {s : State} {n : Nat} {x : LoopX} : (s.setLoop n x).loop n = x := tabGet_put_same
@[simp] theorem State.link_setLink {s : State} {k : Nat} {x : LinkX} : (s.setLink k x).link k = x := tabGet_put_same
@[simp] theorem State.dig_setDig {s : State} {i : Nat} {x : DigX} : (s.setDig i x).dig i = x := tabGet_put_same
@[simp] theorem State.safe_setSafe {s : State} {x : SafeX} : (s.setSafe x).safe = x := rfl
@[simp] theorem State.stepper_setStepper {s : State} {n : Nat} {x : StepX} : (s.setStepper n x).stepper n = x := tabGet_put_same
@[simp] theorem State.store_setStore {s : State} {x : StoreX} : (s.setStore x).store = x := rfl
@[simp] theorem State.sens_setSens {s : State} {k : Nat} {x : SensX} : (s.setSens k x).sens k = x := tabGet_put_same
@[simp] theorem State.beam_setBeam {s : State} {x : BeamX} : (s.setBeam x).beam = x := rfl
@[simp] theorem State.rest_setRest {s : State} {x : RestX} : (s.setRest x).rest = x := rfl
end

end Sys2Proof.Machine
end

