-- ==== Sys2Proof/Laws/Ops.lean ====
section
/-! SUPPORT. Laws of the register operations: what a register and a field read as after a write, and the words that a
chain of writes leaves alone. -/

namespace Sys2Proof

theorem wordOf_toNat (v : Nat) : (wordOf v).toNat = v % 2 ^ 32 := by
  simp [wordOf, BitVec.toNat_ofNat]

namespace Machine

variable {s t : State} {p q o o' v : Nat} {w : Word} {f g : Fld} {b : Bool}

theorem bkey_off : bkey p o = bkey p o' ↔ o = o' := by simp [bkey]

theorem bkey_inj (h : o < 4096) (h' : o' < 4096) : bkey p o = bkey q o' ↔ p = q ∧ o = o' := by
  unfold bkey
  omega

theorem bkey_page (h : p ≠ q) (ho : o < 4096) (ho' : o' < 4096) : bkey p o ≠ bkey q o' :=
  fun e => h ((bkey_inj ho ho').mp e).1

/-! ## Words -/

@[simp] theorem word_setWord_same : (s.setWord p o w).word p o = w := tabGet_put_same

theorem word_setWord_key (h : bkey q o' ≠ bkey p o) : (s.setWord p o w).word q o' = s.word q o' := tabGet_put_other h

theorem word_setWord_off (h : o' ≠ o) : (s.setWord p o w).word p o' = s.word p o' :=
  word_setWord_key (fun e => h (bkey_off.mp e))

theorem word_setWord_page (h : q ≠ p) (ho' : o' < 4096) (ho : o < 4096) : (s.setWord p o w).word q o' = s.word q o' :=
  word_setWord_key (bkey_page h ho' ho)

@[simp] theorem reg_setReg_same : (s.setReg p o v).reg p o = v % 2 ^ 32 := by
  simp only [State.reg, State.setReg, word_setWord_same, wordOf_toNat]

theorem reg_setReg_key (h : bkey q o' ≠ bkey p o) : (s.setReg p o v).reg q o' = s.reg q o' := by
  simp only [State.reg, State.setReg, word_setWord_key h]

theorem reg_setReg_off (h : o' ≠ o) : (s.setReg p o v).reg p o' = s.reg p o' :=
  reg_setReg_key (fun e => h (bkey_off.mp e))

theorem word_setReg_off (h : o' ≠ o) : (s.setReg p o v).word p o' = s.word p o' := word_setWord_off h

theorem get_setReg_off (h : f.off ≠ o) : (s.setReg p o v).get p f = s.get p f := by
  simp only [State.get, State.setReg, word_setWord_off h]

theorem word_eq_of_board (h : t.board = s.board) : t.word p o = s.word p o := by
  simp only [State.word, h]

theorem reg_eq_of_board (h : t.board = s.board) : t.reg p o = s.reg p o := by
  simp only [State.reg, word_eq_of_board h]

theorem get_eq_of_board (h : t.board = s.board) : t.get p f = s.get p f := by
  simp only [State.get, word_eq_of_board h]

/-! ## Fields -/

theorem fld_mod {x m lo hi : Nat} (h : lo ≤ hi) (_hm : m < 2 ^ (hi + 1 - lo)) :
    (x / 2 ^ (hi + 1) * 2 ^ (hi + 1) + m * 2 ^ lo + x % 2 ^ lo) / 2 ^ lo = x / 2 ^ (hi + 1) * 2 ^ (hi + 1 - lo) + m := by
  have e : 2 ^ (hi + 1) = 2 ^ (hi + 1 - lo) * 2 ^ lo := by rw [← pow_add]; congr 1; omega
  rw [e, ← mul_assoc, ← Nat.add_mul, Nat.add_comm, Nat.add_mul_div_right _ _ (by positivity),
    Nat.div_eq_of_lt (Nat.mod_lt _ (by positivity)), Nat.zero_add]

theorem fld_write_lt {x m lo hi : Nat} (hx : x < 2 ^ 32) (h : lo ≤ hi) (h32 : hi < 32) (hm : m < 2 ^ (hi + 1 - lo)) :
    x / 2 ^ (hi + 1) * 2 ^ (hi + 1) + m * 2 ^ lo + x % 2 ^ lo < 2 ^ 32 := by
  have e : 2 ^ 32 = 2 ^ (32 - (hi + 1)) * 2 ^ (hi + 1) := by rw [← pow_add]; congr 1; omega
  have e2 : 2 ^ (hi + 1) = 2 ^ (hi + 1 - lo) * 2 ^ lo := by rw [← pow_add]; congr 1; omega
  have h1 : x / 2 ^ (hi + 1) + 1 ≤ 2 ^ (32 - (hi + 1)) := by
    rw [Nat.succ_le_iff, Nat.div_lt_iff_lt_mul (by positivity), ← e]
    exact hx
  have h2 : m * 2 ^ lo + x % 2 ^ lo < 2 ^ (hi + 1) := by
    rw [e2]
    have h3 : x % 2 ^ lo < 2 ^ lo := Nat.mod_lt _ (by positivity)
    have h4 : (m + 1) * 2 ^ lo ≤ 2 ^ (hi + 1 - lo) * 2 ^ lo := Nat.mul_le_mul_right _ hm
    rw [Nat.add_mul] at h4
    omega
  have h5 : (x / 2 ^ (hi + 1) + 1) * 2 ^ (hi + 1) ≤ 2 ^ (32 - (hi + 1)) * 2 ^ (hi + 1) := Nat.mul_le_mul_right _ h1
  rw [Nat.add_mul, ← e] at h5
  omega

/-- A field reads as what was written to it, cut to its width. -/
theorem fld_read_write (h : f.lo ≤ f.hi) (h32 : f.hi < 32) : f.read (f.write w v) = v % 2 ^ f.width := by
  have hm : v % 2 ^ f.width < 2 ^ (f.hi + 1 - f.lo) := Nat.mod_lt _ (by positivity)
  simp only [Fld.read, Fld.write, wordOf_toNat]
  rw [Nat.mod_eq_of_lt (fld_write_lt w.isLt h h32 hm), fld_mod h hm, Fld.width]
  rw [Nat.mul_comm, Nat.mul_add_mod, Nat.mod_mod]

/-- A field below the written one reads as before. -/
theorem fld_read_write_lo (h : f.lo ≤ f.hi) (h32 : f.hi < 32) (hg : g.lo ≤ g.hi) (hgf : g.hi < f.lo) :
    g.read (f.write w v) = g.read w := by
  have hm : v % 2 ^ f.width < 2 ^ (f.hi + 1 - f.lo) := Nat.mod_lt _ (by positivity)
  simp only [Fld.read, Fld.write, wordOf_toNat]
  rw [Nat.mod_eq_of_lt (fld_write_lt w.isLt h h32 hm)]
  have e1 : 2 ^ (f.hi + 1) = 2 ^ (f.hi + 1 - f.lo) * 2 ^ f.lo := by rw [← pow_add]; congr 1; omega
  have e2 : 2 ^ f.lo = 2 ^ (f.lo - (g.hi + 1)) * 2 ^ (g.hi + 1) := by rw [← pow_add]; congr 1; omega
  have e3 : (2 : Nat) ^ (g.hi + 1) = 2 ^ g.lo * 2 ^ g.width := by
    rw [← pow_add]; congr 1; unfold Fld.width; omega
  have key : ∀ y, y / 2 ^ g.lo % 2 ^ g.width = y % 2 ^ (g.hi + 1) / 2 ^ g.lo := by
    intro y
    rw [e3, Nat.mod_mul_right_div_self]
  rw [key, key]
  congr 1
  have d1 : 2 ^ (g.hi + 1) ∣ 2 ^ f.lo := ⟨2 ^ (f.lo - (g.hi + 1)), by rw [e2, Nat.mul_comm]⟩
  have d2 : 2 ^ (g.hi + 1) ∣ w.toNat / 2 ^ (f.hi + 1) * 2 ^ (f.hi + 1) + v % 2 ^ f.width * 2 ^ f.lo := by
    refine Nat.dvd_add (Dvd.dvd.mul_left ?_ _) (Dvd.dvd.mul_left d1 _)
    rw [e1]
    exact Dvd.dvd.mul_left d1 _
  obtain ⟨c, hc⟩ := d2
  rw [hc, Nat.mul_add_mod, Nat.mod_mod_of_dvd _ d1]

/-- A field above the written one reads as before. -/
theorem fld_read_write_hi (h : f.lo ≤ f.hi) (h32 : f.hi < 32) (hgf : f.hi < g.lo) :
    g.read (f.write w v) = g.read w := by
  have hm : v % 2 ^ f.width < 2 ^ (f.hi + 1 - f.lo) := Nat.mod_lt _ (by positivity)
  simp only [Fld.read, Fld.write, wordOf_toNat]
  rw [Nat.mod_eq_of_lt (fld_write_lt w.isLt h h32 hm)]
  congr 1
  have e : 2 ^ g.lo = 2 ^ (f.hi + 1) * 2 ^ (g.lo - (f.hi + 1)) := by rw [← pow_add]; congr 1; omega
  rw [e, ← Nat.div_div_eq_div_mul, ← Nat.div_div_eq_div_mul]
  congr 1
  have e2 : 2 ^ (f.hi + 1) = 2 ^ (f.hi + 1 - f.lo) * 2 ^ f.lo := by rw [← pow_add]; congr 1; omega
  have h2 : v % 2 ^ f.width * 2 ^ f.lo + w.toNat % 2 ^ f.lo < 2 ^ (f.hi + 1) := by
    rw [e2]
    have h3 : w.toNat % 2 ^ f.lo < 2 ^ f.lo := Nat.mod_lt _ (by positivity)
    have h4 : (v % 2 ^ f.width + 1) * 2 ^ f.lo ≤ 2 ^ (f.hi + 1 - f.lo) * 2 ^ f.lo := Nat.mul_le_mul_right _ hm
    rw [Nat.add_mul] at h4
    omega
  rw [Nat.add_assoc, Nat.add_comm, Nat.add_mul_div_right _ _ (by positivity), Nat.div_eq_of_lt h2, Nat.zero_add]

/-- A field reads as what was written to it. -/
theorem get_set_same (h : f.lo ≤ f.hi) (h32 : f.hi < 32) : (s.set p f v).get p f = v % 2 ^ f.width := by
  simp only [State.get, State.set, word_setWord_same, fld_read_write h h32]

/-- A field of another register reads as before. -/
theorem get_set_off (h : g.off ≠ f.off) : (s.set p f v).get p g = s.get p g := by
  simp only [State.get, State.set, word_setWord_off h]

/-- A field of another page reads as before. -/
theorem get_set_page (h : q ≠ p) (hg : g.off < 4096) (hf : f.off < 4096) : (s.set p f v).get q g = s.get q g := by
  simp only [State.get, State.set, word_setWord_page h hg hf]

/-- Two fields of one register that share no bit. -/
theorem get_set_bits (ho : g.off = f.off) (h : f.lo ≤ f.hi) (h32 : f.hi < 32) (hg : g.lo ≤ g.hi)
    (hd : g.hi < f.lo ∨ f.hi < g.lo) : (s.set p f v).get p g = s.get p g := by
  simp only [State.get, State.set, ho, word_setWord_same]
  rcases hd with hd | hd
  · exact fld_read_write_lo h h32 hg hd
  · exact fld_read_write_hi h h32 hd

theorem b2n_mod_two_pow_succ (n : Nat) : b2n b % 2 ^ (n + 1) = b2n b := by
  refine Nat.mod_eq_of_lt (lt_of_le_of_lt ?_ (Nat.one_lt_two_pow (Nat.succ_ne_zero n)))
  cases b <;> simp [b2n]

theorem flag_setB_same (h : f.lo ≤ f.hi) (h32 : f.hi < 32) : (s.setB p f b).flag p f = b := by
  have e : f.width = f.hi - f.lo + 1 := by unfold Fld.width; omega
  simp only [State.flag, State.setB, get_set_same h h32]
  rw [e, b2n_mod_two_pow_succ]
  cases b <;> rfl

theorem flag_setB_off (h : g.off ≠ f.off) : (s.setB p f b).flag p g = s.flag p g := by
  simp only [State.flag, State.setB, get_set_off h]

theorem reg_set_off (h : o ≠ f.off) : (s.set p f v).reg p o = s.reg p o := by
  simp only [State.reg, State.set, word_setWord_off h]

theorem word_set_off (h : o ≠ f.off) : (s.set p f v).word p o = s.word p o := word_setWord_off h

/-! ## The words a chain of writes leaves alone -/

theorem sameRegs_refl {l : List (Nat × Nat)} : SameRegs s s l := fun _ _ => rfl

theorem SameRegs.word {l : List (Nat × Nat)} (h : SameRegs s t l) (hk : ∀ e ∈ l, bkey p o ≠ bkey e.1 e.2) :
    t.word p o = s.word p o := h _ hk

theorem SameRegs.of_board {t' : State} {l : List (Nat × Nat)} (h : SameRegs s t l) (e : t'.board = t.board) :
    SameRegs s t' l := by
  intro k hk
  rw [e]
  exact h k hk

theorem SameRegs.setWord {l : List (Nat × Nat)} (h : SameRegs s t l) (hm : (p, o) ∈ l) :
    SameRegs s (t.setWord p o w) l := by
  intro k hk
  have := hk (p, o) hm
  rw [← h k hk]
  exact tabGet_put_other this

theorem SameRegs.setReg {l : List (Nat × Nat)} (h : SameRegs s t l) (hm : (p, o) ∈ l) :
    SameRegs s (t.setReg p o v) l := h.setWord hm

theorem SameRegs.set {l : List (Nat × Nat)} (h : SameRegs s t l) (hm : (p, f.off) ∈ l) :
    SameRegs s (t.set p f v) l := h.setWord hm

theorem SameRegs.setB {l : List (Nat × Nat)} (h : SameRegs s t l) (hm : (p, f.off) ∈ l) :
    SameRegs s (t.setB p f b) l := h.set hm

theorem SameRegs.inc {l : List (Nat × Nat)} (h : SameRegs s t l) (hm : (p, o) ∈ l) :
    SameRegs s (t.inc p o v) l := h.setReg hm

theorem SameRegs.incSat {l : List (Nat × Nat)} (h : SameRegs s t l) (hm : (p, o) ∈ l) :
    SameRegs s (t.incSat p o v) l := h.setReg hm

theorem SameRegs.incF {l : List (Nat × Nat)} (h : SameRegs s t l) (hm : (p, f.off) ∈ l) :
    SameRegs s (t.incF p f v) l := h.set hm

theorem SameRegs.ev {l : List (Nat × Nat)} (h : SameRegs s t l) (hm : (p, PG.EV_STAT) ∈ l) :
    SameRegs s (t.ev p v) l := h.setB hm

theorem SameRegs.err {l : List (Nat × Nat)} (h : SameRegs s t l) (hm : (p, PG.ERR) ∈ l) (hc : (p, PG.ERRCNT) ∈ l)
    (he : (p, PG.EV_STAT) ∈ l) : SameRegs s (t.err p v) l := by
  unfold State.err
  refine SameRegs.setB (SameRegs.setB ?_ hm) he
  split
  · exact h
  · exact h.incF hc

end Machine

end Sys2Proof
end

