-- ==== Sys2Proof/Laws/Reck.lean ====
section
/-! SUPPORT. Laws of the reckoners' shared operations: what one instruction does once its word is fetched. -/

namespace Sys2Proof.Machine

variable {s : State} {k op w : Nat} {fn : Option Nat} {legal : Nat → Bool} {body : State → Nat → State}

/-- A legal word of the instruction at the program counter runs its body. -/
theorem instr_legal (h : s.atInstr k op fn w) (hl : legal w = true) : s.instr k op fn legal body = body s w := by
  obtain ⟨h1, h2, h3, h4, h5, h6⟩ := h
  subst h4
  have h3 : ¬65536 ≤ (s.reckX k).pc := Nat.not_le.mpr h3
  have h6 : ¬(iOP (s.fetch k) ≠ op ∨ fn.isSome = true ∧ fn ≠ some (iFN (s.fetch k))) := by
    rintro (h | ⟨h, h'⟩)
    · exact h h5
    · rcases h6 with h6 | h6
      · rw [h6] at h; cases h
      · exact h' h6
  simp only [State.instr, h1, h2, h3, h6, hl, Bool.not_true, Bool.false_eq_true, if_false, if_true]

/-- An illegal field takes the ILLEGAL trap. -/
theorem instr_illegal (h : s.atInstr k op fn w) (hl : legal w = false) :
    s.instr k op fn legal body = s.trapHere k tcILLEGAL := by
  obtain ⟨h1, h2, h3, h4, h5, h6⟩ := h
  subst h4
  have h3 : ¬65536 ≤ (s.reckX k).pc := Nat.not_le.mpr h3
  have h6 : ¬(iOP (s.fetch k) ≠ op ∨ fn.isSome = true ∧ fn ≠ some (iFN (s.fetch k))) := by
    rintro (h | ⟨h, h'⟩)
    · exact h h5
    · rcases h6 with h6 | h6
      · rw [h6] at h; cases h
      · exact h' h6
  simp only [State.instr, h1, h2, h3, h6, hl, Bool.not_true, Bool.false_eq_true, if_false]

/-- A reckoner that does not execute is left as it is. -/
theorem instr_idle (h : s.reckRuns k = false) : s.instr k op fn legal body = s := by
  simp only [State.instr, h, Bool.not_false, if_true]

theorem setR_pc {x : ReckX} {f v : Nat} : (x.setR f v).pc = x.pc := by
  unfold ReckX.setR
  split
  · rfl
  · split <;> rfl

/-- One result and FLAGS. -/
theorem finishI_one {v fl : Nat} : s.finishI k (.done [(iD w, v)] fl) = s.wrote k w v fl := by
  simp only [State.finishI, State.wrote, List.foldl, setR_pc]

theorem finishI_none {fl : Nat} : s.finishI k (.done [] fl) = s.wroteFlags k fl := rfl

theorem finishI_trap {c : Nat} : s.finishI k (.trap c) = s.trapHere k c := rfl

/-- A computing instruction of format R. -/
theorem rInstr_legal {f : ReckX → Nat → IRes} {n : Nat} (h : s.atInstr k op (some n) w) (hl : legalR w = true) :
    s.rInstr k op n f = s.finishI k (f (s.reckX k) w) := instr_legal h hl

/-- A computing instruction of format I. -/
theorem iInstr_legal {f : ReckX → Nat → IRes} (h : s.atInstr k op none w) (hl : legalI w = true) :
    s.iInstr k op f = s.finishI k (f (s.reckX k) w) := instr_legal h hl

/-! ## Actions -/

variable {p : Nat} {wr : Writer} {f : State → State × Code}

/-- An action that no lease refuses. -/
theorem actionWrite_ok (h : s.mayAct wr p) : s.actionWrite wr p f = f s := by
  unfold State.mayAct at h
  simp only [State.actionWrite, h, Bool.false_eq_true, if_false]

/-- A write command that is accepted is answered OK. -/
theorem finish_ok {t : State} : finish wr p (t, .ok) = t.answer wr .ok := by
  simp [finish, State.countRefused]

end Sys2Proof.Machine
end

