-- ==== Sys2Proof/WellFormed.lean ====
section
/-! DEFINITION. Well-formed commands: operands that are numbers or lists lie in the widths and lengths that the
manual's messages and registers give them.  Operands of type Fin, BitVec or Bool are in range by their type. -/

namespace Sys2Proof

/-- A number of at most `n` bits. -/
def width (n x : Nat) : Bool := decide (x < 2 ^ n)

/-- A two's complement number of `n` bits. -/
def signed (n : Nat) (x : Int) : Bool := decide (-(2 ^ (n - 1) : Nat) ≤ x ∧ x < (2 ^ (n - 1) : Nat))

/-- A list of bytes. -/
def bytesOk (l : List Nat) : Bool := l.all (width 8)

/-- A time message (R72, R73). -/
def TimeMsg.wf (m : TimeMsg) : Bool := width 12 m.master && width 8 m.hops && width 86 m.sent && width 86 m.got && width 16 m.echo

/-- An election tuple (R70). -/
def Tuple.wf (t : Tuple) : Bool := width 8 t.prio && width 2 t.cls && width 12 t.addr

def PQ.wf (x : PQ) : Bool := signed 32 x.p && signed 32 x.q

/-- RENEW and ACK (R289). -/
def Renew.wf (m : Renew) : Bool :=
  width 16 m.boot && width 32 m.rseq && width 64 m.treq && m.hold.wf && m.rel.wf && m.capPos.wf && m.capNeg.wf
def BeadAck.wf (m : BeadAck) : Bool :=
  width 8 m.code && width 16 m.hepoch && width 32 m.rseq && width 64 m.expiry && m.lease.wf && m.target.wf && width 64 m.lseq

/-- Ledger entries, steps and copies (R280 to R283). -/
def LedgerEntry.wf (e : LedgerEntry) : Bool :=
  width 16 e.boot && width 32 e.rseq && width 64 e.exp && e.lease.wf && e.capPos.wf && e.capNeg.wf && e.ans.wf
def LedgerStep.wf (x : LedgerStep) : Bool :=
  x.leases.all (fun e => width 12 e.1 && (match e.2 with | some y => y.wf | none => true))
def Ledger.wf (l : Ledger) : Bool := width 64 l.lseq && l.leases.all (fun e => width 12 e.1 && e.2.wf)

/-- A CAN frame (R321). -/
def CanFrame.wf (f : CanFrame) : Bool :=
  width (if f.ide then 29 else 11) f.id && width 4 f.dlc && bytesOk f.data && decide (f.data.length ≤ 64)

/-- PMBus words (R512). -/
def PmbRes.wf : PmbRes → Bool
  | .ok v => width 16 v
  | _ => true

/-- A housekeeping round (R364). -/
def HkRound.wf (r : HkRound) : Bool :=
  decide (r.ts.length = 64 ∧ r.die.length = 6 ∧ r.sup.length = 48 ∧ r.vm.length = 4) && r.sup.all (width 16) &&
    r.vm.all (width 16) && decide (r.vout.length ≤ 8) && r.vout.all PmbRes.wf

/-- Parcels and control frames (R422, R424). -/
def FabBody.wf : FabBody → Bool
  | .bytes l => bytesOk l
  | .notice r a => width 16 r && a.wf
  | .home _ => true
def Parcel.wf (x : Parcel) : Bool :=
  width 2 x.vc && width 10 x.len && width 12 x.lsn && width 6 x.kind && width 8 x.ttl && width 12 x.dst && width 12 x.src &&
    width 16 x.tag && x.body.wf
def Hello.wf (h : Hello) : Bool :=
  width 32 h.sysId && width 16 h.addr && width 8 h.link && width 8 h.na && width 8 h.nb && width 16 h.boot && width 8 h.ms
def LinkStatus.wf (m : LinkStatus) : Bool := width 12 m.ack && decide (m.freed.length = 4) && m.freed.all (width 16)

/-- A TUNNEL parcel (R464). -/
def TunMsg.wf (m : TunMsg) : Bool :=
  width 8 m.code && width 10 m.esess && width 4 m.chan && width 8 m.frag && width 10 m.tsess && bytesOk m.data

/-- A TALLY_REPL parcel (R489). -/
def ReplPart.wf (m : ReplPart) : Bool :=
  width 64 m.orig && width 8 m.cls && width 8 m.frag && width 8 m.nfrag && width 32 m.ofs && bytesOk m.data

/-- What a drive reports (R472 to R475). -/
def NvmeEv.wf : NvmeEv → Bool
  | .ready s w b _ _ => width 4 s && width 4 w && width 64 b
  | .ns st => width 16 st
  | .notice => true
  | .smart w t => width 8 w && width 16 t
  | .done st => width 16 st

/-- What a slot answers in a poll (R512). -/
def PmbRead.wf (r : PmbRead) : Bool := r.status.wf && r.iin.wf

/-- A memory test's findings (R565). -/
def MemTest.wf (t : MemTest) : Bool := decide (t.id < 0x4C) && width 7 t.bit

/-- Whether a command's operands lie in their fields. -/
def Instr.wf : Instr → Bool
  | .registerWrite .. => true
  | .pgCtlLock .. => true
  | .pgCtlDiscard .. => true
  | .leaseReq .. => true
  | .leaseRel .. => true
  | .pgCtlEnable .. => true
  | .pwrReqWrite .. => true
  | .pgCommit .. => true
  | .commitApply .. => true
  | .injArm .. => true
  | .leaseExpire .. => true
  | .leaseOwnerLost .. => true
  | .restPageAccess .. => true
  | .domainDrained .. => true
  | .localAccessTimeout .. => true
  | .remoteTimeout .. => true
  | .eventLineDeliver .. => true
  | .nowNsRead .. => true
  | .snap .. => true
  | .beamSetApply => true
  | .timeMessageTx => true
  | .timeMessageRx _ m => m.wf
  | .masterLoss => true
  | .parentLoss => true
  | .electRx t _ _ => t.wf
  | .masterTakeover t => t.wf
  | .acquireDwell => true
  | .coarseDwell => true
  | .masterFineDwell => true
  | .fineLossDwell => true
  | .holdoverExpire => true
  | .corrLimitClear => true
  | .ppsInEdge .. => true
  | .ppsTimeout => true
  | .ptpMessage m => signed 64 m.offset && width 86 m.time && (match m.utc with | some u => signed 16 u | none => true)
  | .beamStep .. => true
  | .stepApply => true
  | .beamSecond => true
  | .carrierBoundary .. => true
  | .midFrame .. => true
  | .cgStart .. => true
  | .cgLockStart .. => true
  | .gangTx => true
  | .gangRx id period anchor => width 8 id && width 22 period && width 48 anchor
  | .gangMismatchClear .. => true
  | .sampleSyncEdge t => width 86 t
  | .updateCutoff .. => true
  | .refAbWrite .. => true
  | .refCWrite .. => true
  | .modulationEnd .. => true
  | .edgeFrameTx .. => true
  | .timeFrameTx .. => true
  | .pingTx .. => true
  | .echoRx .. => true
  | .heartbeatRx .. => true
  | .faultSetRx .. => true
  | .tripInnerOff .. => true
  | .gateReq .. => true
  | .rspRx _ _ data => decide (data.length ≤ 24)
  | .gateReqRetry .. => true
  | .linkSymbolLock .. => true
  | .linkTrainTimeout .. => true
  | .linkLost .. => true
  | .linkRetrain .. => true
  | .comparatorFire _ _ v since => signed 32 v && width 86 since
  | .comparatorRearm _ _ v => signed 32 v
  | .didtFire _ _ v => signed 32 v
  | .blankClose _ _ cmps v => signed 32 v && cmps.all (fun c => signed 32 c.2.1 && width 86 c.2.2)
  | .rodStart .. => true
  | .tripPathTest .. => true
  | .idReadDone .. => true
  | .rodRun .. => true
  | .rodStop .. => true
  | .rodClear .. => true
  | .swTrip .. => true
  | .clrLockout .. => true
  | .precharge1tau .. => true
  | .precharge3tau .. => true
  | .holdoffEnd .. => true
  | .feedbackSample .. => true
  | .feedbackTimeout .. => true
  | .voltageEval .. => true
  | .energiseDone .. => true
  | .diagStepEnd .. => true
  | .descentEnd .. => true
  | .descTimeout .. => true
  | .disLimExpire .. => true
  | .disStopExpire .. => true
  | .rainflowTick .. => true
  | .lifeSnap .. => true
  | .acqTrigger .. => true
  | .softwareTrigger .. => true
  | .seqConversion .. => true
  | .conversionDone _ _ samples => decide (1 ≤ samples.length ∧ samples.length ≤ 32) && samples.all (signed 17)
  | .urgentRequest .. => true
  | .seqTableWrite .. => true
  | .calConversion .. => true
  | .calStarved .. => true
  | .converterWake .. => true
  | .converterReady .. => true
  | .digitizerEdge .. => true
  | .timedCaptureStart .. => true
  | .captureEnd _ _ samples => decide (samples.length ≤ 32000) && samples.all (signed 12)
  | .featureExtract .. => true
  | .drainRecord .. => true
  | .digitizerWake .. => true
  | .reckEnable .. => true
  | .reckDisable .. => true
  | .reckStopped .. => true
  | .clrFatal .. => true
  | .memDataAccess .. => true
  | .reckSwtrig .. => true
  | .reckTriggerEvent .. => true
  | .reckWake .. => true
  | .spillComplete .. => true
  | .migrationStart .. => true
  | .migrationDone .. => true
  | .illegalInstruction .. => true
  | .add .. => true
  | .adc .. => true
  | .sub .. => true
  | .sbc .. => true
  | .neg .. => true
  | .cmp .. => true
  | .and .. => true
  | .or .. => true
  | .xor .. => true
  | .shl .. => true
  | .shr .. => true
  | .shra .. => true
  | .mul .. => true
  | .mulh .. => true
  | .mulhu .. => true
  | .div .. => true
  | .divu .. => true
  | .rem .. => true
  | .remu .. => true
  | .min .. => true
  | .max .. => true
  | .limit .. => true
  | .sel .. => true
  | .clz .. => true
  | .exth .. => true
  | .exthh .. => true
  | .packh .. => true
  | .adds .. => true
  | .subs .. => true
  | .negs .. => true
  | .abs .. => true
  | .abss .. => true
  | .shls .. => true
  | .sath .. => true
  | .qmul .. => true
  | .qmac .. => true
  | .qmsu .. => true
  | .qdiv .. => true
  | .fadd .. => true
  | .fsub .. => true
  | .fmul .. => true
  | .fdiv .. => true
  | .fma .. => true
  | .fms .. => true
  | .fsqrt .. => true
  | .fmin .. => true
  | .fmax .. => true
  | .fabs .. => true
  | .fneg .. => true
  | .fcmp .. => true
  | .flim .. => true
  | .ftoi .. => true
  | .itof .. => true
  | .ftoq .. => true
  | .qtof .. => true
  | .sincos .. => true
  | .clarke .. => true
  | .iclarke .. => true
  | .park .. => true
  | .ipark .. => true
  | .pidf .. => true
  | .addi .. => true
  | .andi .. => true
  | .ori .. => true
  | .xori .. => true
  | .lui .. => true
  | .cmpi .. => true
  | .shli .. => true
  | .shri .. => true
  | .shrai .. => true
  | .ld .. => true
  | .st .. => true
  | .brc .. => true
  | .bz .. => true
  | .bnz .. => true
  | .call .. => true
  | .nop .. => true
  | .mfs .. => true
  | .mts .. => true
  | .jr .. => true
  | .callr .. => true
  | .ret .. => true
  | .trap .. => true
  | .waitf .. => true
  | .loopRun .. => true
  | .loopRunComplete .. => true
  | .irefDWrite .. => true
  | .irefQWrite .. => true
  | .angleStageWrite .. => true
  | .thetaWrite .. => true
  | .learnerBinWrite .. => true
  | .lrnClr .. => true
  | .mOfsWrite .. => true
  | .renewSend => true
  | .renewRetry => true
  | .renewRx _ m => m.wf
  | .beadAckRx _ m => m.wf
  | .noticeRx .. => true
  | .mint .. => true
  | .retire .. => true
  | .cancelRetire .. => true
  | .reconcile .. => true
  | .ledgerTick => true
  | .targetRecompute => true
  | .replRx hepoch lseq x => width 16 hepoch && width 64 lseq && x.wf
  | .replAckRx hepoch lseq _ => width 16 hepoch && width 64 lseq
  | .homeHbTx .. => true
  | .homeHbRx hepoch lseq _ _ => width 16 hepoch && width 64 lseq
  | .ledgerCopyRx hepoch l => width 16 hepoch && l.wf
  | .peerSilent => true
  | .rampStart => true
  | .rampTick => true
  | .leaseLapse => true
  | .lapseTimeout => true
  | .estimatorRound => true
  | .roundComplete => true
  | .cellLoad .. => true
  | .cellReset .. => true
  | .cellExclude .. => true
  | .cellInclude .. => true
  | .ceaEnable .. => true
  | .eisReq .. => true
  | .eisStart .. => true
  | .eisPlanDeadline .. => true
  | .eisInjectStart .. => true
  | .eisMeasureStart .. => true
  | .eisMeasureEnd .. => true
  | .eisCollectTimeout .. => true
  | .canFrameRx _ f _ => f.wf
  | .canFrameTxDone .. => true
  | .txPush .. => true
  | .abortHead .. => true
  | .rx0Pop .. => true
  | .rx1Pop .. => true
  | .boRecover .. => true
  | .busOffRecovery .. => true
  | .rateDwellTimeout .. => true
  | .sleepRequest .. => true
  | .enterAsleep .. => true
  | .watchWake _ f => match f with | some x => x.wf | none => true
  | .watchFalse .. => true
  | .controllerShutDone .. => true
  | .timeRefDue .. => true
  | .trefNow .. => true
  | .unavailableTx => true
  | .messageStall .. => true
  | .reportCellsRx .. => true
  | .alarmRx .. => true
  | .wakeReqRx .. => true
  | .balanceAckRx .. => true
  | .samplePlanAckRx .. => true
  | .eisResultRx .. => true
  | .identResponseRx .. => true
  | .lifeResponseRx .. => true
  | .identAll .. => true
  | .lifeAll .. => true
  | .identPeriodic .. => true
  | .lifePeriodic .. => true
  | .challengeTimeout .. => true
  | .housekeepingRound r => r.wf
  | .rateEval => true
  | .latchClear .. => true
  | .restThermCheck ts => decide (ts.length = 64)
  | .stepTarget .. => true
  | .stepStop .. => true
  | .stepHalt .. => true
  | .stepHome .. => true
  | .stepPosWrite .. => true
  | .stepperTick .. => true
  | .loadAngleEstimate .. => true
  | .standstillEntry .. => true
  | .coilOpenDetect .. => true
  | .overcurrentDetect .. => true
  | .stepperShutDone .. => true
  | .pcntEdge .. => true
  | .countWrite .. => true
  | .observerUpdate .. => true
  | .safetyCycle .. => true
  | .sgrTripResend .. => true
  | .safeInLevel .. => true
  | .pairDiscrepancy .. => true
  | .safetyReset .. => true
  | .resetJammed => true
  | .safeMsgTx => true
  | .safeMsgRx _ b => bytesOk b
  | .pairWinExpire .. => true
  | .singleLimExpire .. => true
  | .safeMsgWdt .. => true
  | .lockstepMismatch .. => true
  | .pairEccError .. => true
  | .pairWdtFault .. => true
  | .testAgeTick => true
  | .scrubPass .. => true
  | .fabBlockLock .. => true
  | .helloTx .. => true
  | .helloRx _ h => match h with | some x => x.wf | none => true
  | .helloTimeout .. => true
  | .faultRecheck .. => true
  | .resyncTimeout .. => true
  | .blockLockLoss .. => true
  | .linkSilent .. => true
  | .holdEnd .. => true
  | .coordWaitExpire .. => true
  | .parcelRx _ p => match p with | some x => x.wf | none => true
  | .statusTx .. => true
  | .statusRx _ m => m.wf
  | .replayTimeout .. => true
  | .resyncReqRx .. => true
  | .resyncAckRx _ _ freed => decide (freed.length = 4) && freed.all (width 16)
  | .resyncReqResend .. => true
  | .announceTx => true
  | .announceRx .. => true
  | .electTx => true
  | .deviceUnreachable .. => true
  | .breqRx .. => true
  | .brspRx .. => true
  | .txqWrWrite .. => true
  | .txnTimeout .. => true
  | .deliverDrop .. => true
  | .masterTake => true
  | .connectionArrival _ data => bytesOk data
  | .recordRx _ ct m => width 8 ct && (match m with | some b => bytesOk b | none => true)
  | .gateDecision .. => true
  | .sessionRead .. => true
  | .sessionWrite .. => true
  | .openTunnel .. => true
  | .closeTunnel .. => true
  | .service .. => true
  | .tokenRefill => true
  | .sessionIdle .. => true
  | .sessionPeerClose .. => true
  | .sessOpen .. => true
  | .sessClose .. => true
  | .sessRefuse .. => true
  | .serviceReply .. => true
  | .tunnelOpenRx _ m => m.wf
  | .tunnelOpenAckRx _ m => m.wf
  | .tunnelReqRx _ m => m.wf
  | .tunnelRspRx _ m => m.wf
  | .tunnelCloseRx _ m => m.wf
  | .tunnelTimeout .. => true
  | .fragmentTimeout => true
  | .sha256 .. => true
  | .edSign .. => true
  | .edVerify .. => true
  | .x25519 .. => true
  | .gcmSeal .. => true
  | .gcmOpen .. => true
  | .random .. => true
  | .keyGen .. => true
  | .keyImport .. => true
  | .keyErase .. => true
  | .cryptoDone => true
  | .entHealth .. => true
  | .postTake z => match z with | some b => bytesOk b | none => true
  | .flushRound => true
  | .cmdFlush .. => true
  | .flushRoundDone => true
  | .seal zs => zs.all (fun z => match z with | some b => bytesOk b | none => true)
  | .storeOpen .. => true
  | .storeOpenDone => true
  | .storeClose => true
  | .format .. => true
  | .storeRead .. => true
  | .tallyReplRx _ m => m.wf
  | .tallyReplAckRx _ _ orig => width 64 orig
  | .tallyReplResend _ rseq => width 64 rseq
  | .nvmeCmdTimeout .. => true
  | .nvmeCompletion _ e => e.wf
  | .nsCreate .. => true
  | .nsDelete .. => true
  | .nsAttach .. => true
  | .wdtArm .. => true
  | .wdtKick .. => true
  | .wdtHalf => true
  | .wdtExpire => true
  | .timerInterrupt .. => true
  | .eccDoubleError .. => true
  | .hartRelease .. => true
  | .idcode => true
  | .samplePreload => true
  | .extest => true
  | .extestPulse => true
  | .extestTrain => true
  | .clamp => true
  | .highz => true
  | .dtmcs => true
  | .dmi .. => true
  | .bypass => true
  | .tapReset => true
  | .debugHalt .. => true
  | .debugResume .. => true
  | .powerUpSequence revs => revs.all (width 8)
  | .pgRise .. => true
  | .pgTimeout .. => true
  | .sequenceRetry => true
  | .supplyLoss .. => true
  | .pmbusPoll r => decide (r.length ≤ 8) && r.all PmbRead.wf
  | .pmbAlert r => decide (r.length ≤ 8) && r.all PmbRes.wf
  | .handoverDecision .. => true
  | .handoverDone => true
  | .returnDecision => true
  | .returnDone => true
  | .vbakLowDeep .. => true
  | .backupTallyTick => true
  | .crystalReady .. => true
  | .crystalFail .. => true
  | .pllUnlock .. => true
  | .degradedStart => true
  | .restRequest .. => true
  | .restAbort .. => true
  | .requestTimeout => true
  | .enterQuiet .. => true
  | .enterRest .. => true
  | .enterDeep .. => true
  | .wakeCause .. => true
  | .wakeComplete .. => true
  | .domainLingerExpire .. => true
  | .aonAlarm => true
  | .powerOnReset .. => true
  | .resetPin .. => true
  | .softwareReset .. => true
  | .boot _ mems _ _ _ => mems.all MemTest.wf
  | .lifeAdvance .. => true
  | .cfErase .. => true
  | .cfProgram .. => true
  | .cfOpDone .. => true
  | .profileSelect .. => true
  | .loaderStatus .. => true
  | .loaderErase .. => true
  | .loaderWrite _ _ _ data => bytesOk data
  | .loaderReset .. => true
  | .eventAreaWrite => true
  | .lbistSlot => true
  | .slotSkip => true
  | .lbistTestDone _ mems => mems.all MemTest.wf
  | .dteMemoryTest .. => true
  | .dteLogicTest .. => true
  | .dteBurnRepair .. => true
  | .dteDone _ t => match t with | some x => x.wf | none => true
  | .crossingReset .. => true
  | .syncMiss => true
  | .ppsOutWidthEnd => true
  | .drvTrippedTimeout .. => true
  | .uplinkFrameDiscard _ frame violations => decide (frame.length ≤ 32) && width 16 violations
  | .canBusError .. => true
  | .ethFrameRx _ data => bytesOk data && decide (data.length ≤ 1522)
  | .ethLinkChg .. => true
  | .bakLow .. => true
  | .vauxOkChange .. => true
  | .domainWakeDone .. => true
  | .digitizerReady .. => true
  | .safeInRestSample .. => true
  | .lowWordRead .. => true
  | .modStatRead .. => true

end Sys2Proof
end

