-- ==== Sys2Proof/Tests/Slice0.lean ====
section
/-! SUPPORT. The model's own tests: ill-formed commands are refused, a few single steps against the manual's worked
words, and for each statement a state and operands that meet its hypotheses. -/

namespace Sys2Proof.Tests

-- Each theorem in turn: many kernel evaluations at once exceed the memory the check gives.
set_option Elab.async false

open Sys2Proof.Machine

/-! ## Small states and messages -/

/-- A reckoner word in format R from its fields (R218). -/
def wd (op d a b c fn : Nat) : Nat := op * 2 ^ 26 + d * 2 ^ 21 + a * 2 ^ 16 + b * 2 ^ 11 + c * 2 ^ 6 + fn

/-- A state from reset in which reckoner k runs with registers x and the word w at address 0. -/
def atPc (k w : Nat) (x : ReckX) : State :=
  ((State.reset.setReckX k x).setReckWord k 0 w).set (pRECK k) RECK.STATUS_STATE rkRUN

/-- The registers of a reckoner, the first ones given. -/
def regs (l : List Nat) : ReckX := { w := l ++ List.replicate (128 - l.length) 0 }

/-- What a loop run takes, all zero. -/
def loopIn : LoopIn := ⟨0, 0, 0, [0, 0, 0], [0, 0, 0], 0, 0, (0, 0), (0, 0, 0), stOFF⟩

/-- A capture record of 32 samples. -/
def capRec : CapRec := { count := 32 }

/-- A conversion of a slot. -/
def convOf (slot : Nat) : Conv := { urgent := true, input := 0, avg := 1, slot := slot }

/-- The gate links of rod n up, the first twelve. -/
def openLinks (s : State) (n : Nat) : State :=
  (List.range 12).foldl (fun (s : State) p =>
    ((s.set (pGLK n) ⟨GLK.CTL_LINK_EN.off, GLK.CTL_LINK_EN.lo + p, GLK.CTL_LINK_EN.lo + p⟩ 1).set (pGLK n) (GLK.LSTAT_STATE p)
      lkUP).set (pGLK n) (GLK.LSTAT_TIME_OK p) 1) s

/-- A CAN frame without data. -/
def canFrame : CanFrame := { ide := true, fdf := true, brs := true, id := 5, dlc := 0, data := [] }

/-- A module message of a class. -/
def mbMsg (cls : Nat) : MbMsg := ⟨3, cls, 0, 0, []⟩

/-- An ACK with a code. -/
def ackOf (code rseq : Nat) : BeadAck := ⟨code, 0, rseq, 0, {}, {}, 0⟩

/-- An outstanding RENEW. -/
def renewOut : RenewOut := { rseq := 1, new := true, rel := {}, alt := false }

/-- A RENEW. -/
def renew : Renew := ⟨true, true, 1, 0, 0, {}, {}, {}, {}⟩

/-- A ledger entry that expires at a time. -/
def entryOf (exp : Nat) : LedgerEntry := ⟨1, 0, exp, {}, true, {}, {}, {}⟩

/-- From reset, no PMBus slot enabled. -/
def noSlots : State := (List.range 8).foldl (fun (s : State) i => s.set pSUP (SUP.SLOT_CFG_EN i) 0) State.reset

/-- A SAFE message with a lock level, encoded (R408, R409). -/
def safeMsgAt (lock : Nat) (k : List Nat) (src conn seq : Nat) : List Nat :=
  let h := [0x51, 1, lock, 0] ++ leBytes 2 src ++ [conn, 0] ++ leBytes 4 seq ++ List.replicate 20 0
  let b := h ++ leBytes 4 (crc32cFrom (msgInit src conn) h) ++ List.replicate 12 0
  b ++ gcmTag (aesKeys k) (msgNonce src conn seq) b []

/-- A SAFE message, encoded (R408, R409). -/
def safeMsg (k : List Nat) (src conn seq : Nat) : List Nat := safeMsgAt 0 k src conn seq

/-- A SAFE receiver with its key. -/
def safeConnected (s : State) (k : List Nat) : State :=
  ((((s.setKeys { slots := [(3, 1, k)] }).set pSAFE SAFE.MSG_CFG_KEY 3).set pSAFE (SAFE.RXC_CFG_EN 2) 1).set pSAFE
    (SAFE.RXC_CFG_ADDR 2) 7).set pSAFE (SAFE.RXC_CFG_CONN 2) 5

/-- A parcel of a kind. -/
def parcelOf (kind : Nat) (b : List Nat) : Parcel := { vc := 0, len := b.length / 4, kind := kind, dst := 0, src := 9, body := .bytes b }

/-- An open board transaction. -/
def txnOf (wr : Bool) : Txn := ⟨0, 0, 9, 1, wr, false, 0⟩

/-- A HELLO. -/
def helloOf (seen : Bool) : Hello := ⟨0, 1, 1, 4, 1, seen, false, 1, 0⟩

/-- A fabric with NA = 4, NB = 1. -/
def fabOn : State := (State.reset.set pFABR FABR.ADDR_CFG_NA 4).set pFABR FABR.ADDR_CFG_NB 1

/-- A session request. -/
def sessReq (ty : Nat) : SessReq := { ty := ty, wake := false, chan := 0, tag := 7, page := 3, off := 64, count := 1, data := [0, 0, 0, 0] }

/-- All 1,024 sessions open. -/
def manySessions : State := { State.reset with sess := (List.range 1024).map (fun n => (n, { isOpen := true })) }

/-- A session request as bytes. -/
def reqBytes (ty cnt : Nat) : List Nat := [ty, 0, 0, 0] ++ leBytes 4 7 ++ leBytes 2 3 ++ leBytes 2 64 ++ leBytes 2 cnt ++ [0, 0]

/-- TALLY classes, live. -/
def liveCore : CoreX := { cls := List.replicate 6 { live := true, idx := some 3, held := [(0, 3)] } }

/-- A store label. -/
def label : LabelX := ⟨[], 0, 0, [], 100, 10⟩

/-- A TALLY_REPL parcel. -/
def replPart : ReplPart := ⟨0, 1, 0, 2, 0, []⟩

/-- A key command. -/
def keyCmd (op ty slot : Nat) : KeyCmd := ⟨op, ty, slot, 0, 4, 64⟩

/-- A profile image without records (R544). -/
def imgBytes (p gen pad : Nat) : List Nat :=
  let h := [0x42, 0x59, 0x4C, 0x59, 1, 1, p, 0] ++ leBytes 4 gen ++ leBytes 4 64
  let t := leBytes 4 0 ++ List.replicate 40 pad
  h ++ leBytes 4 (crc32c (h ++ [0, 0, 0, 0] ++ t)) ++ t

/-- A profile copy in the flash. -/
def withCopy (s : State) (p c gen pad : Nat) : State :=
  { s with cf := s.cf ++ (imgBytes p gen pad).zipIdx.map fun e => (profBase p c + e.2, BitVec.ofNat 8 e.1) }

/-! ## WellFormed refuses an ill-formed term of each check -/

theorem test_wf_byte : (Instr.ethFrameRx 0 [256]).wf = false := by decide +kernel
theorem test_wf_ethLength : (Instr.ethFrameRx 0 (List.replicate 1523 0)).wf = false := by decide +kernel
theorem test_wf_timeMaster : (Instr.timeMessageRx 0 ⟨4096, 0, false, false, 0, 0, 0⟩).wf = false := by decide +kernel
theorem test_wf_timeHops : (Instr.timeMessageRx 0 ⟨0, 256, false, false, 0, 0, 0⟩).wf = false := by decide +kernel
theorem test_wf_timeSent : (Instr.timeMessageRx 0 ⟨0, 0, false, false, 2 ^ 86, 0, 0⟩).wf = false := by decide +kernel
theorem test_wf_timeGot : (Instr.timeMessageRx 0 ⟨0, 0, false, false, 0, 2 ^ 86, 0⟩).wf = false := by decide +kernel
theorem test_wf_timeEcho : (Instr.timeMessageRx 0 ⟨0, 0, false, false, 0, 0, 65536⟩).wf = false := by decide +kernel
theorem test_wf_ptpOffset : (Instr.ptpMessage ⟨0, 0, 0, true, 2 ^ 63, 0, none⟩).wf = false := by decide +kernel
theorem test_wf_ptpTime : (Instr.ptpMessage ⟨0, 0, 0, true, 0, 2 ^ 86, none⟩).wf = false := by decide +kernel
theorem test_wf_ptpUtc : (Instr.ptpMessage ⟨0, 0, 0, true, 0, 0, some 32768⟩).wf = false := by decide +kernel
theorem test_wf_syncTime : (Instr.sampleSyncEdge (2 ^ 86)).wf = false := by decide +kernel
theorem test_wf_electPrio : (Instr.electRx ⟨256, 0, 0⟩ false false).wf = false := by decide +kernel
theorem test_wf_electClass : (Instr.masterTakeover ⟨0, 4, 0⟩).wf = false := by decide +kernel
theorem test_wf_electAddr : (Instr.masterTakeover ⟨0, 0, 4096⟩).wf = false := by decide +kernel
theorem test_wf_gangId : (Instr.gangRx 256 0 0).wf = false := by decide +kernel
theorem test_wf_gangPeriod : (Instr.gangRx 0 (2 ^ 22) 0).wf = false := by decide +kernel
theorem test_wf_gangAnchor : (Instr.gangRx 0 0 (2 ^ 48)).wf = false := by decide +kernel
theorem test_wf_rspLength : (Instr.rspRx 0 0 (List.replicate 25 0)).wf = false := by decide +kernel
theorem test_wf_cmpFire : (Instr.comparatorFire 0 0 (2 ^ 31) 0).wf = false := by decide +kernel
theorem test_wf_cmpSince : (Instr.comparatorFire 0 0 0 (2 ^ 86)).wf = false := by decide +kernel
theorem test_wf_cmpRearm : (Instr.comparatorRearm 0 0 (-2 ^ 31 - 1)).wf = false := by decide +kernel
theorem test_wf_didt : (Instr.didtFire 0 0 (2 ^ 31)).wf = false := by decide +kernel
theorem test_wf_blankV : (Instr.blankClose 0 0 [] (2 ^ 31)).wf = false := by decide +kernel
theorem test_wf_blankCmp : (Instr.blankClose 0 0 [(0, 2 ^ 31, 0)] 0).wf = false := by decide +kernel
theorem test_wf_blankSince : (Instr.blankClose 0 0 [(0, 0, 2 ^ 86)] 0).wf = false := by decide +kernel
theorem test_wf_uplinkLength : (Instr.uplinkFrameDiscard 0 (List.replicate 33 0) 0).wf = false := by decide +kernel
theorem test_wf_uplinkViolations : (Instr.uplinkFrameDiscard 0 [] 65536).wf = false := by decide +kernel
theorem test_wf_noSample : (Instr.conversionDone 0 0 []).wf = false := by decide +kernel
theorem test_wf_manySamples : (Instr.conversionDone 0 0 (List.replicate 33 0)).wf = false := by decide +kernel
theorem test_wf_sample : (Instr.conversionDone 0 0 [65536]).wf = false := by decide +kernel
theorem test_wf_captureLength : (Instr.captureEnd 0 0 (List.replicate 32001 0)).wf = false := by decide +kernel
theorem test_wf_captureSample : (Instr.captureEnd 0 0 [-2049]).wf = false := by decide +kernel
theorem test_wf_renewBoot : (Instr.renewRx 0 ⟨false, false, 65536, 0, 0, {}, {}, {}, {}⟩).wf = false := by decide +kernel
theorem test_wf_renewRseq : (Instr.renewRx 0 ⟨false, false, 0, 2 ^ 32, 0, {}, {}, {}, {}⟩).wf = false := by decide +kernel
theorem test_wf_renewTreq : (Instr.renewRx 0 ⟨false, false, 0, 0, 2 ^ 64, {}, {}, {}, {}⟩).wf = false := by decide +kernel
theorem test_wf_renewHold : (Instr.renewRx 0 ⟨false, false, 0, 0, 0, ⟨2 ^ 31, 0⟩, {}, {}, {}⟩).wf = false := by decide +kernel
theorem test_wf_renewRel : (Instr.renewRx 0 ⟨false, false, 0, 0, 0, {}, ⟨0, 2 ^ 31⟩, {}, {}⟩).wf = false := by decide +kernel
theorem test_wf_renewCapPos : (Instr.renewRx 0 ⟨false, false, 0, 0, 0, {}, {}, ⟨2 ^ 31, 0⟩, {}⟩).wf = false := by decide +kernel
theorem test_wf_renewCapNeg : (Instr.renewRx 0 ⟨false, false, 0, 0, 0, {}, {}, {}, ⟨2 ^ 31, 0⟩⟩).wf = false := by decide +kernel
theorem test_wf_ackCode : (Instr.beadAckRx 0 ⟨256, 0, 0, 0, {}, {}, 0⟩).wf = false := by decide +kernel
theorem test_wf_ackHepoch : (Instr.beadAckRx 0 ⟨0, 65536, 0, 0, {}, {}, 0⟩).wf = false := by decide +kernel
theorem test_wf_ackRseq : (Instr.beadAckRx 0 ⟨0, 0, 2 ^ 32, 0, {}, {}, 0⟩).wf = false := by decide +kernel
theorem test_wf_ackExpiry : (Instr.beadAckRx 0 ⟨0, 0, 0, 2 ^ 64, {}, {}, 0⟩).wf = false := by decide +kernel
theorem test_wf_ackLease : (Instr.beadAckRx 0 ⟨0, 0, 0, 0, ⟨2 ^ 31, 0⟩, {}, 0⟩).wf = false := by decide +kernel
theorem test_wf_ackTarget : (Instr.beadAckRx 0 ⟨0, 0, 0, 0, {}, ⟨0, 2 ^ 31⟩, 0⟩).wf = false := by decide +kernel
theorem test_wf_ackLseq : (Instr.beadAckRx 0 ⟨0, 0, 0, 0, {}, {}, 2 ^ 64⟩).wf = false := by decide +kernel
theorem test_wf_replHepoch : (Instr.replRx 65536 0 ⟨{}, {}, {}, {}, []⟩).wf = false := by decide +kernel
theorem test_wf_replLseq : (Instr.replRx 0 (2 ^ 64) ⟨{}, {}, {}, {}, []⟩).wf = false := by decide +kernel
theorem test_wf_replAddr : (Instr.replRx 0 0 ⟨{}, {}, {}, {}, [(4096, none)]⟩).wf = false := by decide +kernel
theorem test_wf_replBoot : (Instr.replRx 0 0 ⟨{}, {}, {}, {}, [(1, some ⟨65536, 0, 0, {}, true, {}, {}, {}⟩)]⟩).wf = false := by decide +kernel
theorem test_wf_replRseq : (Instr.replRx 0 0 ⟨{}, {}, {}, {}, [(1, some ⟨0, 2 ^ 32, 0, {}, true, {}, {}, {}⟩)]⟩).wf = false := by decide +kernel
theorem test_wf_replExp : (Instr.replRx 0 0 ⟨{}, {}, {}, {}, [(1, some ⟨0, 0, 2 ^ 64, {}, true, {}, {}, {}⟩)]⟩).wf = false := by decide +kernel
theorem test_wf_replLease : (Instr.replRx 0 0 ⟨{}, {}, {}, {}, [(1, some ⟨0, 0, 0, ⟨2 ^ 31, 0⟩, true, {}, {}, {}⟩)]⟩).wf = false := by decide +kernel
theorem test_wf_replCapPos : (Instr.replRx 0 0 ⟨{}, {}, {}, {}, [(1, some ⟨0, 0, 0, {}, true, ⟨2 ^ 31, 0⟩, {}, {}⟩)]⟩).wf = false := by decide +kernel
theorem test_wf_replCapNeg : (Instr.replRx 0 0 ⟨{}, {}, {}, {}, [(1, some ⟨0, 0, 0, {}, true, {}, ⟨2 ^ 31, 0⟩, {}⟩)]⟩).wf = false := by decide +kernel
theorem test_wf_replAns : (Instr.replRx 0 0 ⟨{}, {}, {}, {}, [(1, some ⟨0, 0, 0, {}, true, {}, {}, ⟨2 ^ 31, 0⟩⟩)]⟩).wf = false := by decide +kernel
theorem test_wf_replAckHepoch : (Instr.replAckRx 65536 0 .ack).wf = false := by decide +kernel
theorem test_wf_replAckLseq : (Instr.replAckRx 0 (2 ^ 64) .ack).wf = false := by decide +kernel
theorem test_wf_homeHepoch : (Instr.homeHbRx 65536 0 none true).wf = false := by decide +kernel
theorem test_wf_homeLseq : (Instr.homeHbRx 0 (2 ^ 64) none true).wf = false := by decide +kernel
theorem test_wf_copyHepoch : (Instr.ledgerCopyRx 65536 {}).wf = false := by decide +kernel
theorem test_wf_copyLseq : (Instr.ledgerCopyRx 0 { lseq := 2 ^ 64 }).wf = false := by decide +kernel
theorem test_wf_copyAddr : (Instr.ledgerCopyRx 0 { leases := [(4096, ⟨0, 0, 0, {}, true, {}, {}, {}⟩)] }).wf = false := by decide +kernel
theorem test_wf_copyEntry : (Instr.ledgerCopyRx 0 { leases := [(1, ⟨65536, 0, 0, {}, true, {}, {}, {}⟩)] }).wf = false := by decide +kernel
theorem test_wf_canStdId : (Instr.canFrameRx 0 { canFrame with ide := false, id := 2048 } 0).wf = false := by decide +kernel
theorem test_wf_canExtId : (Instr.canFrameRx 0 { canFrame with id := 2 ^ 29 } 0).wf = false := by decide +kernel
theorem test_wf_canDlc : (Instr.canFrameRx 0 { canFrame with dlc := 16 } 0).wf = false := by decide +kernel
theorem test_wf_canByte : (Instr.canFrameRx 0 { canFrame with data := [256] } 0).wf = false := by decide +kernel
theorem test_wf_canLength : (Instr.canFrameRx 0 { canFrame with data := List.replicate 65 0 } 0).wf = false := by decide +kernel
theorem test_wf_watchFrame : (Instr.watchWake 0 (some { canFrame with dlc := 16 })).wf = false := by decide +kernel
theorem test_wf_hkInputs : (Instr.housekeepingRound ⟨[], List.replicate 6 0, List.replicate 48 0, List.replicate 4 0, []⟩).wf = false := by decide +kernel
theorem test_wf_hkDies : (Instr.housekeepingRound ⟨List.replicate 64 (.code 0), [], List.replicate 48 0, List.replicate 4 0, []⟩).wf = false := by decide +kernel
theorem test_wf_hkSupplies : (Instr.housekeepingRound ⟨List.replicate 64 (.code 0), List.replicate 6 0, [], List.replicate 4 0, []⟩).wf = false := by decide +kernel
theorem test_wf_hkSteppers : (Instr.housekeepingRound ⟨List.replicate 64 (.code 0), List.replicate 6 0, List.replicate 48 0, [], []⟩).wf = false := by decide +kernel
theorem test_wf_hkSupply : (Instr.housekeepingRound ⟨List.replicate 64 (.code 0), List.replicate 6 0, List.replicate 48 65536, List.replicate 4 0, []⟩).wf = false := by decide +kernel
theorem test_wf_hkStepper : (Instr.housekeepingRound ⟨List.replicate 64 (.code 0), List.replicate 6 0, List.replicate 48 0, List.replicate 4 65536, []⟩).wf = false := by decide +kernel
theorem test_wf_hkVoutCount : (Instr.housekeepingRound ⟨List.replicate 64 (.code 0), List.replicate 6 0, List.replicate 48 0, List.replicate 4 0, List.replicate 9 .nack⟩).wf = false := by decide +kernel
theorem test_wf_hkVout : (Instr.housekeepingRound ⟨List.replicate 64 (.code 0), List.replicate 6 0, List.replicate 48 0, List.replicate 4 0, [.ok 65536]⟩).wf = false := by decide +kernel
theorem test_wf_restInputs : (Instr.restThermCheck []).wf = false := by decide +kernel
theorem test_wf_safeByte : (Instr.safeMsgRx true [256]).wf = false := by decide +kernel
theorem test_wf_helloSys : (Instr.helloRx 0 (some { helloOf true with sysId := 2 ^ 32 })).wf = false := by decide +kernel
theorem test_wf_helloAddr : (Instr.helloRx 0 (some { helloOf true with addr := 65536 })).wf = false := by decide +kernel
theorem test_wf_helloLink : (Instr.helloRx 0 (some { helloOf true with link := 256 })).wf = false := by decide +kernel
theorem test_wf_helloNa : (Instr.helloRx 0 (some { helloOf true with na := 256 })).wf = false := by decide +kernel
theorem test_wf_helloNb : (Instr.helloRx 0 (some { helloOf true with nb := 256 })).wf = false := by decide +kernel
theorem test_wf_helloBoot : (Instr.helloRx 0 (some { helloOf true with boot := 65536 })).wf = false := by decide +kernel
theorem test_wf_helloMs : (Instr.helloRx 0 (some { helloOf true with ms := 256 })).wf = false := by decide +kernel
theorem test_wf_parcelVc : (Instr.parcelRx 0 (some { parcelOf 0 [] with vc := 4 })).wf = false := by decide +kernel
theorem test_wf_parcelLen : (Instr.parcelRx 0 (some { parcelOf 0 [] with len := 1024 })).wf = false := by decide +kernel
theorem test_wf_parcelLsn : (Instr.parcelRx 0 (some { parcelOf 0 [] with lsn := 4096 })).wf = false := by decide +kernel
theorem test_wf_parcelKind : (Instr.parcelRx 0 (some { parcelOf 0 [] with kind := 64 })).wf = false := by decide +kernel
theorem test_wf_parcelTtl : (Instr.parcelRx 0 (some { parcelOf 0 [] with ttl := 256 })).wf = false := by decide +kernel
theorem test_wf_parcelDst : (Instr.parcelRx 0 (some { parcelOf 0 [] with dst := 4096 })).wf = false := by decide +kernel
theorem test_wf_parcelSrc : (Instr.parcelRx 0 (some { parcelOf 0 [] with src := 4096 })).wf = false := by decide +kernel
theorem test_wf_parcelTag : (Instr.parcelRx 0 (some { parcelOf 0 [] with tag := 65536 })).wf = false := by decide +kernel
theorem test_wf_parcelByte : (Instr.parcelRx 0 (some (parcelOf 0 [256]))).wf = false := by decide +kernel
theorem test_wf_noticeReason : (Instr.parcelRx 0 (some { parcelOf 0 [] with body := .notice 65536 {} })).wf = false := by decide +kernel
theorem test_wf_noticeAmount : (Instr.parcelRx 0 (some { parcelOf 0 [] with body := .notice 0 ⟨2 ^ 31, 0⟩ })).wf = false := by decide +kernel
theorem test_wf_statusAck : (Instr.statusRx 0 ⟨4096, false, [0, 0, 0, 0]⟩).wf = false := by decide +kernel
theorem test_wf_statusCount : (Instr.statusRx 0 ⟨0, false, []⟩).wf = false := by decide +kernel
theorem test_wf_statusFreed : (Instr.statusRx 0 ⟨0, false, [65536, 0, 0, 0]⟩).wf = false := by decide +kernel
theorem test_wf_resyncCount : (Instr.resyncAckRx 0 0 []).wf = false := by decide +kernel
theorem test_wf_resyncFreed : (Instr.resyncAckRx 0 0 [0, 0, 0, 65536]).wf = false := by decide +kernel
theorem test_wf_arrival : (Instr.connectionArrival 0 [256]).wf = false := by decide +kernel
theorem test_wf_recordType : (Instr.recordRx 0 256 none).wf = false := by decide +kernel
theorem test_wf_recordByte : (Instr.recordRx 0 0 (some [256])).wf = false := by decide +kernel
theorem test_wf_tunCode : (Instr.tunnelOpenRx 0 { code := 256, esess := 0, chan := 0 }).wf = false := by decide +kernel
theorem test_wf_tunEsess : (Instr.tunnelOpenAckRx 0 { esess := 1024, chan := 0 }).wf = false := by decide +kernel
theorem test_wf_tunChan : (Instr.tunnelReqRx 0 { esess := 0, chan := 16 }).wf = false := by decide +kernel
theorem test_wf_tunFrag : (Instr.tunnelRspRx 0 { esess := 0, chan := 0, frag := 256 }).wf = false := by decide +kernel
theorem test_wf_tunTsess : (Instr.tunnelCloseRx 0 { esess := 0, chan := 0, tsess := 1024 }).wf = false := by decide +kernel
theorem test_wf_tunData : (Instr.tunnelReqRx 0 { esess := 0, chan := 0, data := [256] }).wf = false := by decide +kernel
theorem test_wf_post : (Instr.postTake (some [256])).wf = false := by decide +kernel
theorem test_wf_seal : (Instr.seal [none, some [256]]).wf = false := by decide +kernel
theorem test_wf_tallyOrig : (Instr.tallyReplRx 0 { replPart with orig := 2 ^ 64 }).wf = false := by decide +kernel
theorem test_wf_tallyClass : (Instr.tallyReplRx 0 { replPart with cls := 256 }).wf = false := by decide +kernel
theorem test_wf_tallyFrag : (Instr.tallyReplRx 0 { replPart with frag := 256 }).wf = false := by decide +kernel
theorem test_wf_tallyNfrag : (Instr.tallyReplRx 0 { replPart with nfrag := 256 }).wf = false := by decide +kernel
theorem test_wf_tallyOfs : (Instr.tallyReplRx 0 { replPart with ofs := 2 ^ 32 }).wf = false := by decide +kernel
theorem test_wf_tallyData : (Instr.tallyReplRx 0 { replPart with data := [256] }).wf = false := by decide +kernel
theorem test_wf_tallyAck : (Instr.tallyReplAckRx 0 0 (2 ^ 64)).wf = false := by decide +kernel
theorem test_wf_tallyResend : (Instr.tallyReplResend 0 (2 ^ 64)).wf = false := by decide +kernel
theorem test_wf_nvmeSpeed : (Instr.nvmeCompletion 0 (.ready 16 0 0 true false)).wf = false := by decide +kernel
theorem test_wf_nvmeWidth : (Instr.nvmeCompletion 0 (.ready 0 16 0 true false)).wf = false := by decide +kernel
theorem test_wf_nvmeBlocks : (Instr.nvmeCompletion 0 (.ready 0 0 (2 ^ 64) true false)).wf = false := by decide +kernel
theorem test_wf_nvmeNs : (Instr.nvmeCompletion 0 (.ns 65536)).wf = false := by decide +kernel
theorem test_wf_nvmeWear : (Instr.nvmeCompletion 0 (.smart 256 0)).wf = false := by decide +kernel
theorem test_wf_nvmeTemp : (Instr.nvmeCompletion 0 (.smart 0 65536)).wf = false := by decide +kernel
theorem test_wf_nvmeDone : (Instr.nvmeCompletion 1 (.done 65536)).wf = false := by decide +kernel
theorem test_wf_revs : (Instr.powerUpSequence [256]).wf = false := by decide +kernel
theorem test_wf_pollCount : (Instr.pmbusPoll (List.replicate 9 ⟨.nack, .nack⟩)).wf = false := by decide +kernel
theorem test_wf_pollStatus : (Instr.pmbusPoll [⟨.ok 65536, .nack⟩]).wf = false := by decide +kernel
theorem test_wf_pollCurrent : (Instr.pmbusPoll [⟨.nack, .ok 65536⟩]).wf = false := by decide +kernel
theorem test_wf_alertCount : (Instr.pmbAlert (List.replicate 9 .nack)).wf = false := by decide +kernel
theorem test_wf_alertWord : (Instr.pmbAlert [.ok 65536]).wf = false := by decide +kernel
theorem test_wf_bootTest : (Instr.boot 0 [⟨0x4C, 0, 0, 0, 0⟩] none true 0).wf = false := by decide +kernel
theorem test_wf_loaderByte : (Instr.loaderWrite .spc 0 0 [256]).wf = false := by decide +kernel
theorem test_wf_lbist : (Instr.lbistTestDone true [⟨0, 0, 0, 0, 128⟩]).wf = false := by decide +kernel
theorem test_wf_dte : (Instr.dteDone true (some ⟨0x4C, 0, 0, 0, 0⟩)).wf = false := by decide +kernel

/-! ## One step -/

/-- The state after a command; the state itself where the command stops. -/
def after (i : Instr) (s : State) : State :=
  match exec i s with
  | .next t => t
  | _ => s

/-- spec/09, the encoding example: LUI w1, 0x0108. -/
theorem test_lui_word : ((after (.lui 5) (atPc 5 0x30380108 (regs []))).reckX 5).reg 1 = 0x01080000 := by decide +kernel

/-- spec/09, the encoding example: EXTH w3, w2 with w2 = 0x1234_2803. -/
theorem test_exth_word :
    ((after (.exth 5) (atPc 5 0x0462C618 (regs [0, 0, 0x12342803]))).reckX 5).reg 3 = 0x2803 := by decide +kernel

/-- spec/09, the encoding example: BRC AL, −3 at 0x0110 goes to 0x0104. -/
theorem test_brc_word :
    let s := atPc 5 0 { regs [] with pc := 0x110 }
    ((after (.brc 5) (s.setReckWord 5 (0x110 / 4) 0x53BFFFFD)).reckX 5).pc = 0x104 := by decide +kernel

/-- R225, R205: 0xFFFF_FFFF + 1 is 0 with carry: Z and C. -/
theorem test_add_wraps :
    let t := (after (.add 1) (atPc 1 (wd 1 3 1 2 24 0) (regs [0, 0xFFFFFFFF, 1]))).reckX 1
    t.reg 3 = 0 ∧ t.flags = 5 := by decide +kernel

/-- R225: 0x8000_0000 − 1 overflows: C (no borrow) and V. -/
theorem test_sub_overflows :
    let t := (after (.sub 1) (atPc 1 (wd 1 3 1 2 24 2) (regs [0, 0x80000000, 1]))).reckX 1
    t.reg 3 = 0x7FFFFFFF ∧ t.flags = 12 := by decide +kernel

/-- R36: a write of 1 to LOCK sets it, and a second write leaves it set. -/
theorem test_lock_stays :
    let t := after (.pgCtlLock .spc 3) (after (.pgCtlLock .spc 3) State.reset)
    t.flag 3 PG.CTL_LOCK = true := by decide +kernel

/-! ## The manual's worked examples -/

/-- spec/12, the example at 25,000 beads: every rod reaches its limit. -/
theorem test_place_limits :
    (placeBeads 25000 [4200, 4200, 4200, 4200, 4200, 2100] [60000, 60000, 60000, 60000, 60000, 30000]).take 6 =
      [4200, 4200, 4200, 4200, 4200, 2100] := by decide +kernel

/-- spec/12, the example at 15,940 beads: the bead left goes to rod 0. -/
theorem test_place_remainder :
    (placeBeads 15940 [4200, 4200, 4200, 4200, 4200, 2100] [60000, 60000, 60000, 60000, 60000, 30000]).take 6 =
      [2899, 2898, 2898, 2898, 2898, 1449] := by decide +kernel

/-- spec/12, the example's targets of three devices. -/
theorem test_targets : apportion 120000 [100800, 23100, 50000] = [69557, 15940, 34503] := by decide +kernel

/-- spec/15, the example of TS21: code 21,394 of a 10 kΩ NTC with β = 3,435 is 45.00 °C. -/
theorem test_ntc : ntcBeta (10000 * 21394) (65536 - 21394) 3435 1000 = some 720 := by decide +kernel

/-- spec/04, the example's edge list: rod 5 in RUN with references 19,661, −6,554 and −13,107 armed at the cutoff
before 1,500 s 200,000 ns. -/
def worked : State :=
  let s : State := { State.reset with beam := { t := (1500 * 10 ^ 9 + 197500) * 256 }, gens := [(5, { next := (1500 * 10 ^ 9 + 200000) * 256, period := 640000 })] }
  let s := (s.set (pROD 5) ROD.CFG_SCHEME 2).set (pROD 5) ROD.STATUS_STATE stRUN
  let s := (s.setRod 5 { s.rod 5 with legs := [{ st := .o }, { st := .o }, { st := .o }] }).set pFRAME (FRAME.CG_STAT_RUNNING 5) 1
  let s := (openLinks (s.set pFRAME ⟨FRAME.CG_PERIOD 5, 21, 0⟩ 640000) 5).setReg (pROD 5) ROD.MIN_PULSE 9600
  ((s.setReg (pROD 5) ROD.REF_AB ((2 ^ 16 - 6554) * 2 ^ 16 + 19661)).setReg (pROD 5) ROD.REF_C (2 ^ 16 - 13107)).arm 5

/-- spec/04, the example: T3 of phase a goes off at 225,000 ns and on at 276,000 ns (link 62); T4 of phase b goes on at
235,999 16/256 ns and off at 265,000 240/256 ns (link 67).  Times in 1/16 tick. -/
theorem test_edge_list :
    let t := after (.updateCutoff 5) worked
    (t.link 62).queue = [(9600001440000, false), (9600001766400, true)] ∧
      (t.link 67).queue = [(9600001510394, true), (9600001696006, false)] := by decide +kernel

/-- spec/05, the example of link 62: an ECHO after 1,164.5 ns with TTA 6,656 and ASYM 128 gives DLY_MEAN 16,000. -/
theorem test_echo :
    let s := (openLinks State.reset 5).setReg (pGLK 5) (GLK.ASYM 2) 128
    ((after (.echoRx 62 3 6656 298112) (s.setLink 62 { s.link 62 with ping := some 3 })).get (pGLK 5) (GLK.DLY_DLY_MEAN 2)) =
      16000 := by decide +kernel

/-! ## Published vectors of the codes that the manual names -/

/-- CRC-32C of the digits 1 to 9 is 0xE306_9283 (the check value published with the polynomial). -/
theorem test_crc32c : crc32c [0x31, 0x32, 0x33, 0x34, 0x35, 0x36, 0x37, 0x38, 0x39] = 0xE3069283 := by decide +kernel

/-- SHA-256 of "abc" begins BA 78 16 BF (FIPS 180-4's example). -/
theorem test_sha256 : (sha256 [0x61, 0x62, 0x63]).take 4 = [0xBA, 0x78, 0x16, 0xBF] := by decide +kernel

/-- AES-256, FIPS-197's example C.3: the block 00 11 … FF under the key 00 01 … 1F. -/
theorem test_aes256 :
    (aesBlock (aesKeys (List.range 32)) ((List.range 16).map (fun i => 17 * i))).take 4 = [0x8E, 0xA2, 0xB7, 0xCA] := by
  decide +kernel

/-! ## Hypotheses of the general statements -/

/-- A command waits at the front of a queue, and its step gives a next state from a canonical memory. -/
theorem witness_StepRunsFront :
    { State.reset with pending := [.beamSecond, .tokenRefill] }.pending = Instr.beamSecond :: [.tokenRefill] := rfl

theorem witness_EmptyQueueTicks : State.reset.pending = [] := rfl

theorem witness_StepKeepsMemWf :
    let s : State := { State.reset with pending := [.beamSecond], mem := [(3, 7)] }
    memWf s = true ∧ ∃ t, step s = .next t := by
  refine ⟨?_, _, rfl⟩
  decide +kernel

theorem witness_CommandsKeepQueue :
    ∃ t, exec .beamSecond { State.reset with pending := [.tokenRefill] } = .next t := ⟨_, rfl⟩

theorem witness_MemoryFrame :
    (∃ t, exec .beamSecond State.reset = .next t) ∧ Claims.writesMemories .beamSecond = false ∧
      Claims.writesLpddr5 .beamSecond = false := ⟨⟨_, rfl⟩, rfl, rfl⟩

/-! ## Hypotheses of the statements, clause by clause -/

/-- Hypotheses of BoardWrites are met, clause by clause. -/
theorem witness_BoardWrites :
    (let w : Writer := .spc;
     let p : Fin 4096 := 3;
     let off : Fin 4096 := 92;
     let s : State := State.reset;
     let r : Reg := (regAt p off).getD ⟨0, [], [], 0⟩;
     let m : Nat := (r.acc.head?.map Prod.snd).getD 0;
     64 ≤ off.val ∧ off.val % 4 = 0 ∧ regAt p.val off.val = some r ∧
     (pageType p.val = some PType.sup ∨ pageType p.val = some PType.clk ∨ pageType p.val = some PType.tdig ∨ pageType p.val = some PType.inj) ∧
     s.dom (pageDom p.val) = DomSt.active ∧ s.leasedByOther w p.val = false ∧ r.acc = [(Acc.rw, m)]) ∧
    (let w : Writer := .spc;
     let p : Fin 4096 := 3;
     let off : Fin 4096 := 64;
     let s : State := State.reset;
     let r : Reg := (regAt p off).getD ⟨0, [], [], 0⟩;
     64 ≤ off.val ∧ off.val % 4 = 0 ∧ regAt p.val off.val = some r ∧
     (pageType p.val = some PType.sup ∨ pageType p.val = some PType.clk ∨ pageType p.val = some PType.tdig ∨ pageType p.val = some PType.inj) ∧
     s.dom (pageDom p.val) = DomSt.active ∧ s.leasedByOther w p.val = false ∧ r.acc = []) ∧
    (let w : Writer := .spc;
     let p : Fin 4096 := 3;
     let off : Fin 4096 := 80;
     let s : State := State.reset |>.set 3 PG.CTL_LOCK 1;
     let r : Reg := (regAt p off).getD ⟨0, [], [], 0⟩;
     let m : Nat := (r.acc.head?.map Prod.snd).getD 0;
     64 ≤ off.val ∧ off.val % 4 = 0 ∧ regAt p.val off.val = some r ∧
     (pageType p.val = some PType.sup ∨ pageType p.val = some PType.clk ∨ pageType p.val = some PType.tdig ∨ pageType p.val = some PType.inj) ∧
     s.dom (pageDom p.val) = DomSt.active ∧ s.leasedByOther w p.val = false ∧ r.acc = [(Acc.wl, m)] ∧ m ≠ 0 ∧
     m < 2 ^ 32 ∧ s.locked p.val = true) ∧
    (let w : Writer := .spc;
     let p : Fin 4096 := 3;
     let off : Fin 4096 := 76;
     let s : State := State.reset;
     let r : Reg := (regAt p off).getD ⟨0, [], [], 0⟩;
     let m : Nat := (r.acc.head?.map Prod.snd).getD 0;
     64 ≤ off.val ∧ off.val % 4 = 0 ∧ regAt p.val off.val = some r ∧
     (pageType p.val = some PType.sup ∨ pageType p.val = some PType.clk ∨ pageType p.val = some PType.tdig ∨ pageType p.val = some PType.inj) ∧
     s.dom (pageDom p.val) = DomSt.active ∧ s.leasedByOther w p.val = false ∧ r.acc = [(Acc.st, m)] ∧ m ≠ 0 ∧
     m < 2 ^ 32 ∧ (w.isRemote = false ∨ s.holdsLease w p.val = true) ∧ (s.pg p.val).staged.length < 64) ∧
    (let w : Writer := .session 0;
     let p : Fin 4096 := 0xFFF;
     ownerPage p.val = none ∧ w.isRemote = true) ∧
    (let w : Writer := .spc;
     let p : Fin 4096 := 0xFFF;
     ownerPage p.val = none ∧ (w = Writer.spc ∨ w = Writer.spcB ∨ ∃ h, w = Writer.apc h)) ∧
    (let p : Fin 4096 := 0xFFF;
     let k : Fin 32 := 1;
     let w : Writer := .reck k;
     let s : State := State.reset |>.set (pRECK k.val) RECK.STATUS_STATE rkRUN;
     ownerPage p.val = none ∧ w = Writer.reck k ∧ s.reckRuns k.val = true) ∧
    (let p : Fin 4096 := 1;
     let off : Fin 4096 := 1;
     let z : Fin 3 := 0;
     let s : State := State.reset;
     let o : Nat := 1;
     ownerPage p.val = some o ∧ (z ≠ 2 ∨ off.val % 4 ≠ 0) ∧ s.dom (accDom p.val) = DomSt.active) ∧
    (let p : Fin 4096 := 1;
     let off : Fin 4096 := 4;
     let z : Fin 3 := 2;
     let o : Nat := 1;
     ownerPage p.val = some o ∧ z = 2 ∧ off.val % 4 = 0) ∧
    (let s : State := State.reset;
     let k : Fin 32 := 1;
     s.reckRuns k.val = false) ∧
    (let i : Fin 8 := 1;
     let s : State := State.reset |>.setDom (domOf i.val) DomSt.draining;
     s.dom (domOf i.val) = DomSt.draining) ∧
    (let s : State := State.reset;
     let i : Fin 8 := 1;
     s.dom (domOf i.val) ≠ DomSt.draining) ∧
    (let i : Fin 8 := 1;
     let s : State := State.reset |>.setDom (domOf i.val) DomSt.waking;
     s.dom (domOf i.val) = DomSt.waking) ∧
    (let w : Writer := .spc;
     let p : Fin 4096 := 1;
     let a : WaitAcc := { w := w, page := p, off := 64, data := none, count := 1 };
     let s : State := { State.reset with waits := [a] };
     s.waits = [a] ∧ a.w = w ∧ a.page = p.val ∧ a.tag = none) ∧
    (let n : Fin 256 := 1;
     let s : State := State.reset |>.set pSYS (SYS.EVR_ROUTE_EN n) 1 |>.set pSYS (SYS.EVR_ROUTE_SRC n) 3 |>.set
         pSYS (SYS.EVR_ROUTE_DST_KIND n) 2 |>.set 3 ⟨PG.EV_EN, 0, 0⟩ 1 |>.set 3 ⟨PG.EV_STAT, 0, 0⟩ 1;
     s.linePending n.val = true ∧ s.lineKind n.val ≠ 0 ∧ s.lineKind n.val ≠ 1 ∧ s.dom Dom.rd = DomSt.active) ∧
    (let n : Fin 256 := 1;
     let s : State := State.reset |>.set pSYS (SYS.EVR_ROUTE_EN n) 1 |>.set pSYS (SYS.EVR_ROUTE_SRC n) 3 |>.set
         3 ⟨PG.EV_EN, 0, 0⟩ 1 |>.set 3 ⟨PG.EV_STAT, 0, 0⟩ 1 |>.set pSYS (SYS.EVR_ROUTE_DST_KIND n) 1;
     s.linePending n.val = true ∧ s.lineKind n.val = 1 ∧ s.dom Dom.rd = DomSt.active) ∧
    (let n : Fin 256 := 1;
     let s : State := State.reset |>.setDom Dom.rd .resting |>.set pSYS (SYS.EVR_ROUTE_EN n) 1 |>.set pSYS
         (SYS.EVR_ROUTE_SRC n) 3 |>.set 3 ⟨PG.EV_EN, 0, 0⟩ 1 |>.set 3 ⟨PG.EV_STAT, 0, 0⟩ 1 |>.set pSYS
           (SYS.EVR_ROUTE_DST_KIND n) 2 |>.setDom .rd .resting;
     s.linePending n.val = true ∧ s.lineKind n.val ≠ 0 ∧ s.dom Dom.rd ≠ DomSt.active) ∧
    (let s : State := State.reset;
     let n : Fin 32 := 1;
     s.dom (Dom.fd (n.val / 8)) = DomSt.active) := by
  refine ⟨?_, ?_, ?_, ?_, ?_, ?_, ?_, ?_, ?_, ?_, ?_, ?_, ?_, ?_, ?_, ?_, ?_, ?_⟩ <;> decide +kernel

/-- Hypotheses of BoardControl are met, clause by clause. -/
theorem witness_BoardControl :
    (let w : Writer := .spc;
     let p : Fin 4096 := 3;
     let s : State := State.reset;
     let y : PType := .sup;
     pageType p.val = some y ∧ y ∉ [PType.prot, PType.reck, PType.fdc, PType.safe] ∧
     s.dom (pageDom p.val) = DomSt.active ∧ s.leasedByOther w p.val = false ∧ (s.pg p.val).enWait = none ∧
     s.en p.val = false ∧ s.flag p.val PG.STAT_SHUTTING = false ∧ s.get p.val PG.CTL_PWR_REQ = 0 ∧
     s.get p.val PG.CTL_DISCARD = 0 ∧ s.get p.val PG.CTL_LEASE_REQ = 0 ∧ s.get p.val PG.CTL_LEASE_REL = 0 ∧
     y ∉ [PType.beads, PType.cea, PType.loop, PType.mbus, PType.step, PType.tally, PType.nvme, PType.fab, PType.tdig]) ∧
    (let w : Writer := .spc;
     let p : Fin 4096 := 3;
     let s : State := State.reset |>.setPg p { lease := some { owner := w, remain := 5 } };
     let y : PType := .sup;
     pageType p.val = some y ∧ y ∉ [PType.prot, PType.reck, PType.fdc, PType.safe] ∧
     s.dom (pageDom p.val) = DomSt.active ∧ s.leasedByOther w p.val = false ∧ (s.pg p.val).enWait = none ∧
     s.en p.val = false ∧ s.flag p.val PG.STAT_SHUTTING = false ∧ s.get p.val PG.CTL_PWR_REQ = 0 ∧
     s.get p.val PG.CTL_DISCARD = 0 ∧ s.get p.val PG.CTL_LEASE_REQ = 0 ∧ s.get p.val PG.CTL_LEASE_REL = 0 ∧
     s.holdsLease w p.val = true) ∧
    (let p : Fin 4096 := 3;
     let l : Lease := { owner := .session 2, remain := 5 };
     let ms : Fin 65536 := 5;
     let s : State := State.reset |>.setPg p { lease := some l };
     (s.pg p.val).lease = some l ∧ l.owner.isRemote = true ∧ l.remain ≤ ms.val) ∧
    (let p : Fin 4096 := 3;
     let l : Lease := { owner := .session 2, remain := 5 };
     let ms : Fin 65536 := 4;
     let s : State := State.reset |>.setPg p { lease := some l };
     (s.pg p.val).lease = some l ∧ l.owner.isRemote = true ∧ ms.val < l.remain) ∧
    (let p : Fin 4096 := 3;
     let l : Lease := { owner := .spc, remain := 5 };
     let s : State := State.reset |>.setPg p { lease := some l };
     (s.pg p.val).lease = some l ∧ l.owner.isRemote = false) ∧
    (let p : Fin 4096 := 4;
     let l : Lease := { owner := .session 2, remain := 5 };
     let s : State := State.reset |>.setPg p { lease := some l, lapsed := some 0 };
     (s.pg p.val).lease = some l ∧ pageType p.val ≠ none ∧ s.dom (pageDom p.val) = DomSt.active ∧
     (s.pg p.val).lapsed = some (s.beam.t / 640)) ∧
    (let p : Fin 4096 := 3;
     let l : Lease := { owner := .session 2, remain := 5 };
     let s : State := State.reset |>.setPg p { lease := some l };
     (s.pg p.val).lease = some l ∧ List.map Prod.fst s.pages = [p.val]) := by
  refine ⟨?_, ?_, ?_, ?_, ?_, ?_, ?_⟩ <;> decide +kernel

/-- Hypotheses of BoardCommits are met, clause by clause. -/
theorem witness_BoardCommits :
    (let w : Writer := .spc;
     let p : Fin 4096 := 4;
     let s : State := State.reset;
     pageType p.val ≠ none ∧ s.dom (pageDom p.val) = DomSt.active ∧ s.leasedByOther w p.val = false ∧
     (pageType p.val = some PType.clk ∨ pageType p.val = some PType.sup) ∧ (s.pg p.val).applyPending = false ∧
     s.commitDenied p.val = [] ∧ (s.pg p.val).lapsed ≠ some (s.beam.t / 640)) ∧
    (let w : Writer := .spc;
     let p : Fin 4096 := 4;
     let s : State := State.reset |>.setPg p { pending := [(bkey p 64, 1)], applyPending := true };
     pageType p.val ≠ none ∧ s.dom (pageDom p.val) = DomSt.active ∧ s.leasedByOther w p.val = false ∧
     (pageType p.val = some PType.clk ∨ pageType p.val = some PType.sup) ∧ (s.pg p.val).applyPending = true) ∧
    (let w : Writer := .spc;
     let p : Fin 4096 := 4;
     let s : State := State.reset |>.setPg p { applyPending := true };
     pageType p.val ≠ none ∧ s.dom (pageDom p.val) = DomSt.active ∧ s.leasedByOther w p.val = false ∧
     (s.pg p.val).lapsed ≠ some (s.beam.t / 640) ∧ (s.pg p.val).applyPending = true) ∧
    (let w : Writer := .spc;
     let p : Fin 4096 := 4;
     let s : State := State.reset;
     let g : Word := 1;
     pageType p.val ≠ none ∧ s.dom (pageDom p.val) = DomSt.active ∧ s.leasedByOther w p.val = false ∧
     (s.pg p.val).lapsed ≠ some (s.beam.t / 640) ∧ (s.pg p.val).applyPending = false ∧
     BitVec.toNat g ≠ s.reg p.val PG.GEN) ∧
    (let w : Writer := .spc;
     let p : Fin 4096 := 3;
     let s : State := State.reset |>.setPg 3 { staged := [(bkey 3 SUP.MON_LIM, 0)] };
     pageType p.val ≠ none ∧ s.dom (pageDom p.val) = DomSt.active ∧ s.leasedByOther w p.val = false ∧
     (s.pg p.val).lapsed ≠ some (s.beam.t / 640) ∧ (s.pg p.val).applyPending = false ∧ s.commitDenied p.val ≠ []) ∧
    (let w : Writer := .spc;
     let p : Fin 4096 := 27;
     let s : State := State.reset |>.set pINJ PG.CTL_EN 1;
     let shots : Fin 256 := 1;
     let point : Fin 256 := 0;
     let r : Option Nat := none;
     pageType p.val ≠ none ∧ s.dom (pageDom p.val) = DomSt.active ∧ s.leasedByOther w p.val = false ∧
     shots.val ≠ 0 ∧ s.injPoint p.val point.val = some r ∧ s.en pINJ = true ∧ s.injSafe r = true) ∧
    (let w : Writer := .spc;
     let p : Fin 4096 := 4;
     let s : State := State.reset;
     let shots : Fin 256 := 1;
     let point : Fin 256 := 1;
     pageType p.val ≠ none ∧ s.dom (pageDom p.val) = DomSt.active ∧ s.leasedByOther w p.val = false ∧
     shots.val ≠ 0 ∧
     (s.injPoint p.val point.val = none ∨ s.en pINJ = false ∨ Option.any (fun r => !s.injSafe r) (s.injPoint p.val point.val) = true)) ∧
    (let p : Nat := 4;
     let s : State := State.reset |>.setPg p { pending := [(bkey p 64, 1)], applyPending := true };
     (s.pg p).applyPending = true ∧ (List.map Prod.fst (s.pg p).pending).Nodup ∧
     bkey p PG.GEN ∉ List.map Prod.fst (s.pg p).pending ∧ bkey p PG.EV_STAT ∉ List.map Prod.fst (s.pg p).pending) := by
  refine ⟨?_, ?_, ?_, ?_, ?_, ?_, ?_, ?_⟩ <;> decide +kernel

/-- Hypotheses of BoardRestingPages are met, clause by clause. -/
theorem witness_BoardRestingPages :
    (let w : Writer := .session 0;
     let p : Fin 4096 := 1;
     let off : Fin 4096 := 12;
     let s : State := State.reset |>.setDom (accDom p.val) .resting;
     ownerPage p.val ≠ none ∧ off.val % 4 = 0 ∧ 12 ≤ off.val ∧ w.isRemote = true ∧
     s.dom (accDom p.val) ≠ DomSt.active ∧ s.dev ≠ dvDEEP) ∧
    (let w : Writer := .spc;
     let p : Fin 4096 := 1;
     let off : Fin 4096 := 12;
     let s : State := State.reset |>.setDom (accDom p.val) .resting;
     ownerPage p.val ≠ none ∧ off.val % 4 = 0 ∧ 12 ≤ off.val ∧ w.isRemote = false ∧
     s.dom (accDom p.val) ≠ DomSt.active) ∧
    (let w : Writer := .spc;
     let p : Fin 4096 := 1;
     let off : Fin 4096 := 12;
     let s : State := State.reset;
     let z : Fin 3 := 1;
     let i : Nat := 2;
     ownerPage p.val ≠ none ∧ off.val % 4 = 0 ∧ 12 ≤ off.val ∧ s.dom (accDom p.val) = DomSt.active ∧
     w.isRemote = false ∧ i % 2 ^ z.val = 0 ∧ i < 4 ∧ off.val + i < 4096) := by
  refine ⟨?_, ?_, ?_⟩ <;> decide +kernel

/-- Hypotheses of ReckArithmetic are met, clause by clause. -/
theorem witness_ReckArithmetic :
    (let k : Fin 32 := 1;
     let w : Nat := wd 1 1 2 3 4 0;
     let s : State := atPc k w (regs [0, 0, 2 ^ 31, 5, 9]);
     legalR w = true ∧ s.atInstr k.val 1 (some 0) w) ∧
    (let k : Fin 32 := 1;
     let w : Nat := wd 1 1 2 3 4 1;
     let s : State := atPc k w (regs [0, 0, 2 ^ 31, 5, 9]);
     legalR w = true ∧ s.atInstr k.val 1 (some 1) w) ∧
    (let k : Fin 32 := 1;
     let w : Nat := wd 1 1 2 3 4 2;
     let s : State := atPc k w (regs [0, 0, 2 ^ 31, 5, 9]);
     legalR w = true ∧ s.atInstr k.val 1 (some 2) w) ∧
    (let k : Fin 32 := 1;
     let w : Nat := wd 1 1 2 3 4 3;
     let s : State := atPc k w (regs [0, 0, 2 ^ 31, 5, 9]);
     legalR w = true ∧ s.atInstr k.val 1 (some 3) w) ∧
    (let k : Fin 32 := 1;
     let w : Nat := wd 1 1 2 3 4 4;
     let s : State := atPc k w (regs [0, 0, 2 ^ 31, 5, 9]);
     legalR w = true ∧ s.atInstr k.val 1 (some 4) w) ∧
    (let k : Fin 32 := 1;
     let w : Nat := wd 1 1 2 3 4 5;
     let s : State := atPc k w (regs [0, 0, 2 ^ 31, 5, 9]);
     legalR w = true ∧ s.atInstr k.val 1 (some 5) w) ∧
    (let k : Fin 32 := 1;
     let w : Nat := wd 1 1 2 3 4 6;
     let s : State := atPc k w (regs [0, 0, 2 ^ 31, 5, 9]);
     legalR w = true ∧ s.atInstr k.val 1 (some 6) w) ∧
    (let k : Fin 32 := 1;
     let w : Nat := wd 1 1 2 3 4 7;
     let s : State := atPc k w (regs [0, 0, 2 ^ 31, 5, 9]);
     legalR w = true ∧ s.atInstr k.val 1 (some 7) w) ∧
    (let k : Fin 32 := 1;
     let w : Nat := wd 1 1 2 3 4 8;
     let s : State := atPc k w (regs [0, 0, 2 ^ 31, 5, 9]);
     legalR w = true ∧ s.atInstr k.val 1 (some 8) w) ∧
    (let k : Fin 32 := 1;
     let w : Nat := wd 1 1 2 3 4 12;
     let s : State := atPc k w (regs [0, 0, 2 ^ 31, 5, 9]);
     legalR w = true ∧ s.atInstr k.val 1 (some 12) w) ∧
    (let k : Fin 32 := 1;
     let w : Nat := wd 1 1 2 3 4 13;
     let s : State := atPc k w (regs [0, 0, 2 ^ 31, 5, 9]);
     legalR w = true ∧ s.atInstr k.val 1 (some 13) w) ∧
    (let k : Fin 32 := 1;
     let w : Nat := wd 1 1 2 3 4 14;
     let s : State := atPc k w (regs [0, 0, 2 ^ 31, 5, 9]);
     legalR w = true ∧ s.atInstr k.val 1 (some 14) w) ∧
    (let k : Fin 32 := 1;
     let w : Nat := wd 1 1 2 3 4 19;
     let s : State := atPc k w (regs [0, 0, 2 ^ 31, 5, 9]);
     legalR w = true ∧ s.atInstr k.val 1 (some 19) w) ∧
    (let k : Fin 32 := 1;
     let w : Nat := wd 1 1 2 3 4 20;
     let s : State := atPc k w (regs [0, 0, 2 ^ 31, 5, 9]);
     legalR w = true ∧ s.atInstr k.val 1 (some 20) w) ∧
    (let k : Fin 32 := 1;
     let w : Nat := wd 1 1 2 3 4 21;
     let s : State := atPc k w (regs [0, 0, 2 ^ 31, 5, 9]);
     legalR w = true ∧ s.atInstr k.val 1 (some 21) w) ∧
    (let k : Fin 32 := 1;
     let w : Nat := wd 1 1 2 3 4 23;
     let s : State := atPc k w (regs [0, 0, 2 ^ 31, 5, 9]);
     legalR w = true ∧ s.atInstr k.val 1 (some 23) w) ∧
    (let k : Fin 32 := 1;
     let w : Nat := wd 1 1 2 3 4 24;
     let s : State := atPc k w (regs [0, 0, 2 ^ 31, 5, 9]);
     legalR w = true ∧ s.atInstr k.val 1 (some 24) w) ∧
    (let k : Fin 32 := 1;
     let w : Nat := wd 1 1 2 3 4 25;
     let s : State := atPc k w (regs [0, 0, 2 ^ 31, 5, 9]);
     legalR w = true ∧ s.atInstr k.val 1 (some 25) w) ∧
    (let k : Fin 32 := 1;
     let w : Nat := wd 1 1 2 3 4 26;
     let s : State := atPc k w (regs [0, 0, 2 ^ 31, 5, 9]);
     legalR w = true ∧ s.atInstr k.val 1 (some 26) w) ∧
    (let k : Fin 32 := 1;
     let w : Nat := wd 1 1 2 3 28 22;
     let s : State := atPc k w (regs [0, 0, 2 ^ 31, 5, 9]);
     s.atInstr k.val 1 (some 22) w ∧ iD w ≤ 24 ∧ iA w ≤ 24 ∧ iB w ≤ 24 ∧ bitsOf w 6 6 = 0) ∧
    (let k : Fin 32 := 1;
     let w : Nat := wd 2 1 2 3 4 0;
     let s : State := atPc k w (regs [0, 0, 2 ^ 31, 5, 9]);
     legalR w = true ∧ s.atInstr k.val 2 (some 0) w) ∧
    (let k : Fin 32 := 1;
     let w : Nat := wd 2 1 2 3 4 1;
     let s : State := atPc k w (regs [0, 0, 2 ^ 31, 5, 9]);
     legalR w = true ∧ s.atInstr k.val 2 (some 1) w) ∧
    (let k : Fin 32 := 1;
     let w : Nat := wd 2 1 2 3 4 2;
     let s : State := atPc k w (regs [0, 0, 2 ^ 31, 5, 9]);
     legalR w = true ∧ s.atInstr k.val 2 (some 2) w) ∧
    (let k : Fin 32 := 1;
     let w : Nat := wd 2 1 2 3 4 3;
     let s : State := atPc k w (regs [0, 0, 2 ^ 31, 5, 9]);
     legalR w = true ∧ s.atInstr k.val 2 (some 3) w) ∧
    (let k : Fin 32 := 1;
     let w : Nat := wd 2 1 2 3 4 4;
     let s : State := atPc k w (regs [0, 0, 2 ^ 31, 5, 9]);
     legalR w = true ∧ s.atInstr k.val 2 (some 4) w) ∧
    (let k : Fin 32 := 1;
     let w : Nat := wd 2 1 2 3 4 5;
     let s : State := atPc k w (regs [0, 0, 2 ^ 31, 5, 9]);
     legalR w = true ∧ s.atInstr k.val 2 (some 5) w) ∧
    (let k : Fin 32 := 1;
     let w : Nat := wd 2 1 2 3 4 6;
     let s : State := atPc k w (regs [0, 0, 2 ^ 31, 5, 9]);
     legalR w = true ∧ s.atInstr k.val 2 (some 6) w) ∧
    (let k : Fin 32 := 1;
     let w : Nat := wd 2 1 2 3 4 7;
     let s : State := atPc k w (regs [0, 0, 2 ^ 31, 5, 9]);
     legalR w = true ∧ s.atInstr k.val 2 (some 7) w) ∧
    (let k : Fin 32 := 1;
     let w : Nat := wd 2 1 2 3 4 8;
     let s : State := atPc k w (regs [0, 0, 2 ^ 31, 5, 9]);
     legalR w = true ∧ s.atInstr k.val 2 (some 8) w) ∧
    (let k : Fin 32 := 1;
     let w : Nat := wd 2 1 2 3 4 9;
     let s : State := atPc k w (regs [0, 0, 2 ^ 31, 5, 9]);
     legalR w = true ∧ s.atInstr k.val 2 (some 9) w) ∧
    (let k : Fin 32 := 1;
     let w : Nat := wd 8 1 2 3 4 5;
     let s : State := atPc k w (regs [0, 0, 2 ^ 31, 5, 9]);
     legalI w = true ∧ s.atInstr k.val 8 none w) ∧
    (let k : Fin 32 := 1;
     let w : Nat := wd 9 1 2 3 4 5;
     let s : State := atPc k w (regs [0, 0, 2 ^ 31, 5, 9]);
     legalI w = true ∧ s.atInstr k.val 9 none w) ∧
    (let k : Fin 32 := 1;
     let w : Nat := wd 10 1 2 3 4 5;
     let s : State := atPc k w (regs [0, 0, 2 ^ 31, 5, 9]);
     legalI w = true ∧ s.atInstr k.val 10 none w) ∧
    (let k : Fin 32 := 1;
     let w : Nat := wd 11 1 2 3 4 5;
     let s : State := atPc k w (regs [0, 0, 2 ^ 31, 5, 9]);
     legalI w = true ∧ s.atInstr k.val 11 none w) ∧
    (let k : Fin 32 := 1;
     let w : Nat := wd 12 1 2 3 4 5;
     let s : State := atPc k w (regs [0, 0, 2 ^ 31, 5, 9]);
     legalI w = true ∧ s.atInstr k.val 12 none w) ∧
    (let k : Fin 32 := 1;
     let w : Nat := wd 13 1 2 3 4 5;
     let s : State := atPc k w (regs [0, 0, 2 ^ 31, 5, 9]);
     legalI w = true ∧ s.atInstr k.val 13 none w) := by
  refine ⟨?_, ?_, ?_, ?_, ?_, ?_, ?_, ?_, ?_, ?_, ?_, ?_, ?_, ?_, ?_, ?_, ?_, ?_, ?_, ?_, ?_, ?_, ?_, ?_, ?_,
    ?_, ?_, ?_, ?_, ?_, ?_, ?_, ?_, ?_, ?_, ?_⟩ <;> decide +kernel

/-- Hypotheses of ReckShift are met, clause by clause. -/
theorem witness_ReckShift :
    (let k : Fin 32 := 1;
     let w : Nat := wd 1 1 2 3 4 9;
     let s : State := atPc k w (regs [0, 0, 2 ^ 31, 32]);
     legalR w = true ∧ s.atInstr k.val 1 (some 9) w) ∧
    (let k : Fin 32 := 1;
     let w : Nat := wd 1 1 2 3 4 10;
     let s : State := atPc k w (regs [0, 0, 2 ^ 31, 32]);
     legalR w = true ∧ s.atInstr k.val 1 (some 10) w) ∧
    (let k : Fin 32 := 1;
     let w : Nat := wd 1 1 2 3 4 11;
     let s : State := atPc k w (regs [0, 0, 2 ^ 31, 32]);
     legalR w = true ∧ s.atInstr k.val 1 (some 11) w) ∧
    (let k : Fin 32 := 1;
     let w : Nat := wd 14 1 2 0 3 63;
     let s : State := atPc k w (regs [0, 0, 2 ^ 31, 32]);
     legalI w = true ∧ iIMM w < 256 ∧ s.atInstr k.val 14 none w) ∧
    (let k : Fin 32 := 1;
     let w : Nat := wd 15 1 2 0 3 63;
     let s : State := atPc k w (regs [0, 0, 2 ^ 31, 32]);
     legalI w = true ∧ iIMM w < 256 ∧ s.atInstr k.val 15 none w) ∧
    (let k : Fin 32 := 1;
     let w : Nat := wd 16 1 2 0 3 63;
     let s : State := atPc k w (regs [0, 0, 2 ^ 31, 32]);
     legalI w = true ∧ iIMM w < 256 ∧ s.atInstr k.val 16 none w) ∧
    (let k : Fin 32 := 1;
     let w : Nat := wd 14 1 2 0 4 0;
     let s : State := atPc k w (regs [0, 0, 2 ^ 31, 32]);
     256 ≤ iIMM w ∧ s.atInstr k.val 14 none w) ∧
    (let k : Fin 32 := 1;
     let w : Nat := wd 15 1 2 0 4 0;
     let s : State := atPc k w (regs [0, 0, 2 ^ 31, 32]);
     256 ≤ iIMM w ∧ s.atInstr k.val 15 none w) ∧
    (let k : Fin 32 := 1;
     let w : Nat := wd 16 1 2 0 4 0;
     let s : State := atPc k w (regs [0, 0, 2 ^ 31, 32]);
     256 ≤ iIMM w ∧ s.atInstr k.val 16 none w) := by
  refine ⟨?_, ?_, ?_, ?_, ?_, ?_, ?_, ?_, ?_⟩ <;> decide +kernel

/-- Hypotheses of ReckDivide are met, clause by clause. -/
theorem witness_ReckDivide :
    (let k : Fin 32 := 1;
     let w : Nat := wd 1 1 2 3 4 15;
     let s : State := atPc k w { regs [0, 0, 7, 0] with ctrl := 1 };
     let x : ReckX := s.reckX k.val;
     let b : Nat := x.reg (iB w);
     legalR w = true ∧ b = 0 ∧ x.ctrl.testBit 0 = true ∧ s.atInstr k.val 1 (some 15) w) ∧
    (let k : Fin 32 := 1;
     let w : Nat := wd 1 1 2 3 4 16;
     let s : State := atPc k w { regs [0, 0, 7, 0] with ctrl := 1 };
     let x : ReckX := s.reckX k.val;
     let b : Nat := x.reg (iB w);
     legalR w = true ∧ b = 0 ∧ x.ctrl.testBit 0 = true ∧ s.atInstr k.val 1 (some 16) w) ∧
    (let k : Fin 32 := 1;
     let w : Nat := wd 1 1 2 3 4 17;
     let s : State := atPc k w { regs [0, 0, 7, 0] with ctrl := 1 };
     let x : ReckX := s.reckX k.val;
     let b : Nat := x.reg (iB w);
     legalR w = true ∧ b = 0 ∧ x.ctrl.testBit 0 = true ∧ s.atInstr k.val 1 (some 17) w) ∧
    (let k : Fin 32 := 1;
     let w : Nat := wd 1 1 2 3 4 18;
     let s : State := atPc k w { regs [0, 0, 7, 0] with ctrl := 1 };
     let x : ReckX := s.reckX k.val;
     let b : Nat := x.reg (iB w);
     legalR w = true ∧ b = 0 ∧ x.ctrl.testBit 0 = true ∧ s.atInstr k.val 1 (some 18) w) ∧
    (let k : Fin 32 := 1;
     let w : Nat := wd 2 1 2 3 4 10;
     let s : State := atPc k w { regs [0, 0, 7, 0] with ctrl := 1 };
     let x : ReckX := s.reckX k.val;
     let b : Nat := x.reg (iB w);
     legalR w = true ∧ b = 0 ∧ x.ctrl.testBit 0 = true ∧ s.atInstr k.val 2 (some 10) w) ∧
    (let k : Fin 32 := 1;
     let w : Nat := wd 1 1 2 3 4 15;
     let s : State := atPc k w (regs [0, 0, 7, 0]);
     let x : ReckX := s.reckX k.val;
     let b : Nat := x.reg (iB w);
     legalR w = true ∧ b = 0 ∧ x.ctrl.testBit 0 = false ∧ s.atInstr k.val 1 (some 15) w) ∧
    (let k : Fin 32 := 1;
     let w : Nat := wd 1 1 2 3 4 16;
     let s : State := atPc k w (regs [0, 0, 7, 0]);
     let x : ReckX := s.reckX k.val;
     let b : Nat := x.reg (iB w);
     legalR w = true ∧ b = 0 ∧ x.ctrl.testBit 0 = false ∧ s.atInstr k.val 1 (some 16) w) ∧
    (let k : Fin 32 := 1;
     let w : Nat := wd 1 1 2 3 4 17;
     let s : State := atPc k w (regs [0, 0, 7, 0]);
     let x : ReckX := s.reckX k.val;
     let b : Nat := x.reg (iB w);
     legalR w = true ∧ b = 0 ∧ x.ctrl.testBit 0 = false ∧ s.atInstr k.val 1 (some 17) w) ∧
    (let k : Fin 32 := 1;
     let w : Nat := wd 1 1 2 3 4 18;
     let s : State := atPc k w (regs [0, 0, 7, 0]);
     let x : ReckX := s.reckX k.val;
     let b : Nat := x.reg (iB w);
     legalR w = true ∧ b = 0 ∧ x.ctrl.testBit 0 = false ∧ s.atInstr k.val 1 (some 18) w) ∧
    (let k : Fin 32 := 1;
     let w : Nat := wd 2 1 2 3 4 10;
     let s : State := atPc k w (regs [0, 0, 7, 0]);
     let x : ReckX := s.reckX k.val;
     let b : Nat := x.reg (iB w);
     legalR w = true ∧ b = 0 ∧ x.ctrl.testBit 0 = false ∧ s.atInstr k.val 2 (some 10) w) ∧
    (let k : Fin 32 := 1;
     let w : Nat := wd 1 1 2 3 4 15;
     let s : State := atPc k w (regs [0, 0, 2 ^ 31, 2 ^ 32 - 1]);
     let x : ReckX := s.reckX k.val;
     let b : Nat := x.reg (iB w);
     legalR w = true ∧ b ≠ 0 ∧ s.atInstr k.val 1 (some 15) w) ∧
    (let k : Fin 32 := 1;
     let w : Nat := wd 1 1 2 3 4 16;
     let s : State := atPc k w (regs [0, 0, 2 ^ 31, 2 ^ 32 - 1]);
     let x : ReckX := s.reckX k.val;
     let b : Nat := x.reg (iB w);
     legalR w = true ∧ b ≠ 0 ∧ s.atInstr k.val 1 (some 16) w) ∧
    (let k : Fin 32 := 1;
     let w : Nat := wd 1 1 2 3 4 17;
     let s : State := atPc k w (regs [0, 0, 2 ^ 31, 2 ^ 32 - 1]);
     let x : ReckX := s.reckX k.val;
     let b : Nat := x.reg (iB w);
     legalR w = true ∧ b ≠ 0 ∧ s.atInstr k.val 1 (some 17) w) ∧
    (let k : Fin 32 := 1;
     let w : Nat := wd 1 1 2 3 4 18;
     let s : State := atPc k w (regs [0, 0, 2 ^ 31, 2 ^ 32 - 1]);
     let x : ReckX := s.reckX k.val;
     let b : Nat := x.reg (iB w);
     legalR w = true ∧ b ≠ 0 ∧ s.atInstr k.val 1 (some 18) w) ∧
    (let k : Fin 32 := 1;
     let w : Nat := wd 2 1 2 3 4 10;
     let s : State := atPc k w (regs [0, 0, 2 ^ 31, 2 ^ 32 - 1]);
     let x : ReckX := s.reckX k.val;
     let b : Nat := x.reg (iB w);
     legalR w = true ∧ b ≠ 0 ∧ s.atInstr k.val 2 (some 10) w) ∧
    (let k : Fin 32 := 1;
     let w : Nat := wd 3 1 2 3 4 3;
     let s : State := atPc k w (regs [0, 0, 2 ^ 31, 2 ^ 32 - 1]);
     legalR w = true ∧ s.atInstr k.val 3 (some 3) w) := by
  refine ⟨?_, ?_, ?_, ?_, ?_, ?_, ?_, ?_, ?_, ?_, ?_, ?_, ?_, ?_, ?_, ?_⟩ <;> decide +kernel

/-- Hypotheses of ReckFloat are met, clause by clause. -/
theorem witness_ReckFloat :
    (let k : Fin 32 := 1;
     let w : Nat := wd 3 1 2 3 4 0;
     let s : State := atPc k w (regs [0, 0, 0x3F800000, 0x40000000, 0x40400000]);
     legalR w = true ∧ s.atInstr k.val 3 (some 0) w) ∧
    (let k : Fin 32 := 1;
     let w : Nat := wd 3 1 2 3 4 1;
     let s : State := atPc k w (regs [0, 0, 0x3F800000, 0x40000000, 0x40400000]);
     legalR w = true ∧ s.atInstr k.val 3 (some 1) w) ∧
    (let k : Fin 32 := 1;
     let w : Nat := wd 3 1 2 3 4 2;
     let s : State := atPc k w (regs [0, 0, 0x3F800000, 0x40000000, 0x40400000]);
     legalR w = true ∧ s.atInstr k.val 3 (some 2) w) ∧
    (let k : Fin 32 := 1;
     let w : Nat := wd 3 1 2 3 4 3;
     let s : State := atPc k w (regs [0, 0, 0x3F800000, 0x40000000, 0x40400000]);
     legalR w = true ∧ s.atInstr k.val 3 (some 3) w) ∧
    (let k : Fin 32 := 1;
     let w : Nat := wd 3 1 2 3 4 4;
     let s : State := atPc k w (regs [0, 0, 0x3F800000, 0x40000000, 0x40400000]);
     legalR w = true ∧ s.atInstr k.val 3 (some 4) w) ∧
    (let k : Fin 32 := 1;
     let w : Nat := wd 3 1 2 3 4 5;
     let s : State := atPc k w (regs [0, 0, 0x3F800000, 0x40000000, 0x40400000]);
     legalR w = true ∧ s.atInstr k.val 3 (some 5) w) ∧
    (let k : Fin 32 := 1;
     let w : Nat := wd 3 1 2 3 4 6;
     let s : State := atPc k w (regs [0, 0, 0x3F800000, 0x40000000, 0x40400000]);
     legalR w = true ∧ s.atInstr k.val 3 (some 6) w) ∧
    (let k : Fin 32 := 1;
     let w : Nat := wd 3 1 2 3 4 7;
     let s : State := atPc k w (regs [0, 0, 0x3F800000, 0x40000000, 0x40400000]);
     legalR w = true ∧ s.atInstr k.val 3 (some 7) w) ∧
    (let k : Fin 32 := 1;
     let w : Nat := wd 3 1 2 3 4 8;
     let s : State := atPc k w (regs [0, 0, 0x3F800000, 0x40000000, 0x40400000]);
     legalR w = true ∧ s.atInstr k.val 3 (some 8) w) ∧
    (let k : Fin 32 := 1;
     let w : Nat := wd 3 1 2 3 4 9;
     let s : State := atPc k w (regs [0, 0, 0x3F800000, 0x40000000, 0x40400000]);
     legalR w = true ∧ s.atInstr k.val 3 (some 9) w) ∧
    (let k : Fin 32 := 1;
     let w : Nat := wd 3 1 2 3 4 10;
     let s : State := atPc k w (regs [0, 0, 0x3F800000, 0x40000000, 0x40400000]);
     legalR w = true ∧ s.atInstr k.val 3 (some 10) w) ∧
    (let k : Fin 32 := 1;
     let w : Nat := wd 3 1 2 3 4 11;
     let s : State := atPc k w (regs [0, 0, 0x3F800000, 0x40000000, 0x40400000]);
     legalR w = true ∧ s.atInstr k.val 3 (some 11) w) ∧
    (let k : Fin 32 := 1;
     let w : Nat := wd 3 1 2 3 4 12;
     let s : State := atPc k w (regs [0, 0, 0x3F800000, 0x40000000, 0x40400000]);
     legalR w = true ∧ s.atInstr k.val 3 (some 12) w) ∧
    (let k : Fin 32 := 1;
     let w : Nat := wd 3 1 2 3 4 13;
     let s : State := atPc k w (regs [0, 0, 0x3F800000, 0x40000000, 0x40400000]);
     legalR w = true ∧ s.atInstr k.val 3 (some 13) w) ∧
    (let k : Fin 32 := 1;
     let w : Nat := wd 3 1 2 3 4 14;
     let s : State := atPc k w (regs [0, 0, 0x3F800000, 0x40000000, 0x40400000]);
     legalR w = true ∧ s.atInstr k.val 3 (some 14) w) ∧
    (let k : Fin 32 := 1;
     let w : Nat := wd 3 1 2 3 4 15;
     let s : State := atPc k w (regs [0, 0, 0x3F800000, 0x40000000, 0x40400000]);
     legalR w = true ∧ s.atInstr k.val 3 (some 15) w) ∧
    (let k : Fin 32 := 1;
     let w : Nat := wd 3 1 2 3 4 16;
     let s : State := atPc k w (regs [0, 0, 0x3F800000, 0x40000000, 0x40400000]);
     legalR w = true ∧ s.atInstr k.val 3 (some 16) w) := by
  refine ⟨?_, ?_, ?_, ?_, ?_, ?_, ?_, ?_, ?_, ?_, ?_, ?_, ?_, ?_, ?_, ?_, ?_⟩ <;> decide +kernel

/-- Hypotheses of ReckHelpers are met, clause by clause. -/
theorem witness_ReckHelpers :
    (let k : Fin 32 := 1;
     let w : Nat := wd 4 6 2 4 0 3;
     let s : State := atPc k w (regs [0, 0, 2 ^ 30, 0, 0, 7]);
     legalR w = true ∧ legalPair (iD w) = true ∧ s.atInstr k.val 4 (some 3) w ∧ legalPair (iA w) = true ∧
     legalPair (iB w) = true) ∧
    (let k : Fin 32 := 1;
     let w : Nat := wd 4 6 2 4 0 4;
     let s : State := atPc k w (regs [0, 0, 2 ^ 30, 0, 0, 7]);
     legalR w = true ∧ legalPair (iD w) = true ∧ s.atInstr k.val 4 (some 4) w ∧ legalPair (iA w) = true ∧
     legalPair (iB w) = true) ∧
    (let k : Fin 32 := 1;
     let w : Nat := wd 4 6 2 4 0 1;
     let s : State := atPc k w (regs [0, 0, 2 ^ 30, 0, 0, 7]);
     legalR w = true ∧ legalPair (iD w) = true ∧ s.atInstr k.val 4 (some 1) w ∧ legalTriple (iA w) = true) ∧
    (let k : Fin 32 := 1;
     let w : Nat := wd 4 6 2 4 0 0;
     let s : State := atPc k w (regs [0, 0, 2 ^ 30, 0, 0, 7]);
     legalR w = true ∧ s.atInstr k.val 4 (some 0) w ∧ legalPair (iD w) = true) ∧
    (let k : Fin 32 := 1;
     let w : Nat := wd 4 6 2 4 0 2;
     let s : State := atPc k w (regs [0, 0, 2 ^ 30, 0, 0, 7]);
     legalR w = true ∧ s.atInstr k.val 4 (some 2) w ∧ legalTriple (iD w) = true ∧ legalPair (iA w) = true) := by
  refine ⟨?_, ?_, ?_, ?_, ?_⟩ <;> decide +kernel

/-- Hypotheses of ReckMemoryAndPid are met, clause by clause. -/
theorem witness_ReckMemoryAndPid :
    (let k : Fin 32 := 1;
     let w : Nat := wd 17 1 2 0 0 0;
     let s : State := atPc k w (regs [0, 0, 0x10001]);
     let x : ReckX := s.reckX k.val;
     let ad : Nat := (x.reg (iA w) + iSext w) % 2 ^ 32;
     legalI w = true ∧ s.atInstr k.val 17 none w ∧ ad % 4 ≠ 0) ∧
    (let k : Fin 32 := 1;
     let w : Nat := wd 17 1 2 0 0 0;
     let s : State := atPc k w (regs [0, 0, 0x10000]);
     let x : ReckX := s.reckX k.val;
     let ad : Nat := (x.reg (iA w) + iSext w) % 2 ^ 32;
     let dram : Prop := 65536 ≤ ad ∧ ad < 131072;
     legalI w = true ∧ s.atInstr k.val 17 none w ∧ ad % 4 = 0 ∧ dram) ∧
    (let k : Fin 32 := 1;
     let w : Nat := wd 17 1 2 0 0 0;
     let e : Ecc := .clean;
     let s : State := atPc k w (regs [0, 0, 0x4000000]);
     let x : ReckX := s.reckX k.val;
     let ad : Nat := (x.reg (iA w) + iSext w) % 2 ^ 32;
     let common : Prop := 67108864 ≤ ad ∧ ad < 134217728;
     legalI w = true ∧ s.atInstr k.val 17 none w ∧ ad % 4 = 0 ∧ common ∧ e ≠ Ecc.double) ∧
    (let k : Fin 32 := 1;
     let w : Nat := wd 17 1 2 0 0 0;
     let s : State := atPc k w (regs [0, 0, 0x1FFF000]);
     let x : ReckX := s.reckX k.val;
     let ad : Nat := (x.reg (iA w) + iSext w) % 2 ^ 32;
     let board : Prop := 16777216 ≤ ad ∧ ad < 33554432;
     let pg : Nat := (ad - 16777216) / 4096;
     legalI w = true ∧ s.atInstr k.val 17 none w ∧ ad % 4 = 0 ∧ board ∧ ownerPage pg = none) ∧
    (let k : Fin 32 := 1;
     let w : Nat := wd 17 1 2 0 0 0;
     let s : State := atPc k w (regs [0, 0, 0x1000000]);
     let x : ReckX := s.reckX k.val;
     let ad : Nat := (x.reg (iA w) + iSext w) % 2 ^ 32;
     let board : Prop := 16777216 ≤ ad ∧ ad < 33554432;
     let pg : Nat := (ad - 16777216) / 4096;
     legalI w = true ∧ s.atInstr k.val 17 none w ∧ ad % 4 = 0 ∧ board ∧ ownerPage pg ≠ none) ∧
    (let k : Fin 32 := 1;
     let w : Nat := wd 17 1 2 0 0 0;
     let s : State := atPc k w (regs [0, 0, 0xFFFC]);
     let x : ReckX := s.reckX k.val;
     let ad : Nat := (x.reg (iA w) + iSext w) % 2 ^ 32;
     let dram : Prop := 65536 ≤ ad ∧ ad < 131072;
     let common : Prop := 67108864 ≤ ad ∧ ad < 134217728;
     let board : Prop := 16777216 ≤ ad ∧ ad < 33554432;
     legalI w = true ∧ s.atInstr k.val 17 none w ∧ ad % 4 = 0 ∧ ¬dram ∧ ¬common ∧ ¬board) ∧
    (let k : Fin 32 := 1;
     let w : Nat := wd 18 1 2 0 0 0;
     let s : State := atPc k w (regs [0, 0, 0x10001]);
     let x : ReckX := s.reckX k.val;
     let ad : Nat := (x.reg (iA w) + iSext w) % 2 ^ 32;
     legalI w = true ∧ s.atInstr k.val 18 none w ∧ ad % 4 ≠ 0) ∧
    (let k : Fin 32 := 1;
     let w : Nat := wd 18 1 2 0 0 0;
     let s : State := atPc k w (regs [0, 9, 0x1FFFC]);
     let x : ReckX := s.reckX k.val;
     let ad : Nat := (x.reg (iA w) + iSext w) % 2 ^ 32;
     let dram : Prop := 65536 ≤ ad ∧ ad < 131072;
     legalI w = true ∧ s.atInstr k.val 18 none w ∧ ad % 4 = 0 ∧ dram) ∧
    (let k : Fin 32 := 1;
     let w : Nat := wd 18 1 2 0 0 0;
     let s : State := atPc k w (regs [0, 9, 0x7FFFFFC]);
     let x : ReckX := s.reckX k.val;
     let ad : Nat := (x.reg (iA w) + iSext w) % 2 ^ 32;
     let common : Prop := 67108864 ≤ ad ∧ ad < 134217728;
     legalI w = true ∧ s.atInstr k.val 18 none w ∧ ad % 4 = 0 ∧ common) ∧
    (let k : Fin 32 := 1;
     let w : Nat := wd 18 1 2 0 0 0;
     let s : State := atPc k w (regs [0, 0, 0x1FFF000]);
     let x : ReckX := s.reckX k.val;
     let ad : Nat := (x.reg (iA w) + iSext w) % 2 ^ 32;
     let board : Prop := 16777216 ≤ ad ∧ ad < 33554432;
     let pg : Nat := (ad - 16777216) / 4096;
     legalI w = true ∧ s.atInstr k.val 18 none w ∧ ad % 4 = 0 ∧ board ∧ ownerPage pg = none) ∧
    (let k : Fin 32 := 1;
     let w : Nat := wd 18 1 2 0 0 0;
     let s : State := atPc k w (regs [0, 0, 0x1000000]);
     let x : ReckX := s.reckX k.val;
     let ad : Nat := (x.reg (iA w) + iSext w) % 2 ^ 32;
     let board : Prop := 16777216 ≤ ad ∧ ad < 33554432;
     let pg : Nat := (ad - 16777216) / 4096;
     legalI w = true ∧ s.atInstr k.val 18 none w ∧ ad % 4 = 0 ∧ board ∧ ownerPage pg ≠ none) ∧
    (let k : Fin 32 := 1;
     let w : Nat := wd 18 1 2 0 0 0;
     let s : State := atPc k w (regs [0, 9, 0xFFFC]);
     let x : ReckX := s.reckX k.val;
     let ad : Nat := (x.reg (iA w) + iSext w) % 2 ^ 32;
     let dram : Prop := 65536 ≤ ad ∧ ad < 131072;
     let common : Prop := 67108864 ≤ ad ∧ ad < 134217728;
     let board : Prop := 16777216 ≤ ad ∧ ad < 33554432;
     legalI w = true ∧ s.atInstr k.val 18 none w ∧ ad % 4 = 0 ∧ ¬dram ∧ ¬common ∧ ¬board) ∧
    (let k : Fin 32 := 1;
     let w : Nat := wd 4 1 2 4 0 5;
     let s : State := atPc k w (regs [0, 0, 0x10002]);
     let x : ReckX := s.reckX k.val;
     let ad : Nat := x.reg (iA w);
     s.atInstr k.val 4 (some 5) w ∧ legalR w = true ∧ legalPair (iB w) = true ∧ ad % 4 ≠ 0) ∧
    (let k : Fin 32 := 1;
     let w : Nat := wd 4 1 2 4 0 5;
     let s : State := atPc k w (regs [0, 0, 0x10000]);
     let x : ReckX := s.reckX k.val;
     let ad : Nat := x.reg (iA w);
     let dram : Prop := 65536 ≤ ad ∧ ad + 48 ≤ 131072;
     s.atInstr k.val 4 (some 5) w ∧ legalR w = true ∧ legalPair (iB w) = true ∧ ad % 4 = 0 ∧ dram) ∧
    (let k : Fin 32 := 1;
     let w : Nat := wd 4 1 2 4 0 5;
     let e : Ecc := .clean;
     let s : State := atPc k w (regs [0, 0, 0x4000000]);
     let x : ReckX := s.reckX k.val;
     let ad : Nat := x.reg (iA w);
     let common : Prop := 67108864 ≤ ad ∧ ad + 48 ≤ 134217728;
     s.atInstr k.val 4 (some 5) w ∧ legalR w = true ∧ legalPair (iB w) = true ∧ ad % 4 = 0 ∧ common ∧
     e ≠ Ecc.double) ∧
    (let k : Fin 32 := 1;
     let w : Nat := wd 4 1 2 4 0 5;
     let s : State := atPc k w (regs [0, 0, 0x1FFD4]);
     let x : ReckX := s.reckX k.val;
     let ad : Nat := x.reg (iA w);
     let dram : Prop := 65536 ≤ ad ∧ ad + 48 ≤ 131072;
     let common : Prop := 67108864 ≤ ad ∧ ad + 48 ≤ 134217728;
     s.atInstr k.val 4 (some 5) w ∧ legalR w = true ∧ legalPair (iB w) = true ∧ ad % 4 = 0 ∧ ¬dram ∧ ¬common) := by
  refine ⟨?_, ?_, ?_, ?_, ?_, ?_, ?_, ?_, ?_, ?_, ?_, ?_, ?_, ?_, ?_, ?_⟩ <;> decide +kernel

/-- Hypotheses of ReckFlow are met, clause by clause. -/
theorem witness_ReckFlow :
    (let k : Fin 32 := 1;
     let w : Nat := wd 20 1 2 3 4 5;
     let s : State := atPc k w {};
     s.atInstr k.val 20 none w) ∧
    (let k : Fin 32 := 1;
     let w : Nat := wd 21 1 2 3 4 5;
     let s : State := atPc k w {};
     s.atInstr k.val 21 none w ∧ iD w ≤ 24) ∧
    (let k : Fin 32 := 1;
     let w : Nat := wd 22 1 2 3 4 5;
     let s : State := atPc k w {};
     s.atInstr k.val 22 none w ∧ iD w ≤ 24) ∧
    (let k : Fin 32 := 1;
     let w : Nat := wd 5 1 2 3 4 3;
     let s : State := atPc k w {};
     s.atInstr k.val 5 (some 3) w ∧ legalR w = true) ∧
    (let k : Fin 32 := 1;
     let w : Nat := wd 23 0 0 0 0 9;
     let s : State := atPc k w {};
     s.atInstr k.val 23 none w ∧ bitsOf w 25 22 = 0) ∧
    (let k : Fin 32 := 1;
     let w : Nat := wd 5 1 2 3 4 4;
     let s : State := atPc k w { regs [] with occ := 6 };
     s.atInstr k.val 5 (some 4) w ∧ legalR w = true) ∧
    (let k : Fin 32 := 1;
     let w : Nat := wd 5 1 2 3 4 5;
     let s : State := atPc k w { regs [] with occ := 2 };
     let x : ReckX := s.reckX k.val;
     s.atInstr k.val 5 (some 5) w ∧ legalR w = true ∧ x.ccp ≠ 7 ∧ 1 < x.occ) ∧
    (let k : Fin 32 := 1;
     let w : Nat := wd 5 1 2 3 4 5;
     let s : State := atPc k w { regs [] with occ := 1, cdep := 1 };
     let x : ReckX := s.reckX k.val;
     s.atInstr k.val 5 (some 5) w ∧ legalR w = true ∧ x.ccp ≠ 7 ∧ x.occ ≤ 1 ∧ 0 < x.cdep) ∧
    (let k : Fin 32 := 1;
     let w : Nat := wd 5 1 2 3 4 5;
     let s : State := atPc k w { regs [] with occ := 1 };
     let x : ReckX := s.reckX k.val;
     s.atInstr k.val 5 (some 5) w ∧ legalR w = true ∧ x.ccp ≠ 7 ∧ x.occ ≤ 1 ∧ x.cdep = 0) ∧
    (let k : Fin 32 := 1;
     let w : Nat := wd 5 1 2 3 4 5;
     let s : State := atPc k w { regs [] with ccp := 7 };
     let x : ReckX := s.reckX k.val;
     s.atInstr k.val 5 (some 5) w ∧ legalR w = true ∧ x.ccp = 7) ∧
    (let k : Fin 32 := 1;
     let w : Nat := wd 5 1 2 3 4 0;
     let s : State := atPc k w {};
     s.atInstr k.val 5 (some 0) w ∧ legalR w = true) ∧
    (let k : Fin 32 := 1;
     let w : Nat := wd 5 1 2 0 0 1;
     let i : Nat := 0;
     let y : Nat := 0;
     let s : State := atPc k w {};
     let x : ReckX := s.reckX k.val;
     s.atInstr k.val 5 (some 1) w ∧ legalSpec w = true ∧
     (i, y) ∈ [(0, x.flags), (1, x.ctrl), (2, x.link.getD x.ccp 0), (3, x.tpc), (4, x.tcause), (5, x.tcol), (6, x.tvec), (7, x.cdep * 256 + x.occ * 16 + x.ccp), (8, x.tinfo), (9, x.tns), (10, x.tsec), (12, k.val)] ∧
     iB w = i) ∧
    (let k : Fin 32 := 1;
     let w : Nat := wd 5 1 2 11 0 1;
     let s : State := atPc k w {};
     s.atInstr k.val 5 (some 1) w ∧ legalSpec w = true ∧ iB w = 11) ∧
    (let k : Fin 32 := 1;
     let w : Nat := wd 5 1 2 0 0 2;
     let s : State := atPc k w {};
     s.atInstr k.val 5 (some 2) w ∧ legalSpec w = true ∧ iB w = 0) ∧
    (let k : Fin 32 := 1;
     let w : Nat := wd 5 1 2 1 0 2;
     let s : State := atPc k w {};
     s.atInstr k.val 5 (some 2) w ∧ legalSpec w = true ∧ iB w = 1) ∧
    (let k : Fin 32 := 1;
     let w : Nat := wd 5 1 2 2 0 2;
     let s : State := atPc k w {};
     s.atInstr k.val 5 (some 2) w ∧ legalSpec w = true ∧ iB w = 2) ∧
    (let k : Fin 32 := 1;
     let w : Nat := wd 5 1 2 3 0 2;
     let s : State := atPc k w {};
     s.atInstr k.val 5 (some 2) w ∧ legalSpec w = true ∧ iB w = 3) ∧
    (let k : Fin 32 := 1;
     let w : Nat := wd 5 1 2 6 0 2;
     let s : State := atPc k w {};
     s.atInstr k.val 5 (some 2) w ∧ legalSpec w = true ∧ iB w = 6) ∧
    (let k : Fin 32 := 1;
     let w : Nat := wd 5 1 2 4 0 2;
     let s : State := atPc k w {};
     s.atInstr k.val 5 (some 2) w ∧ legalSpec w = true ∧ iB w ∈ [4, 5, 7, 8, 9, 10, 11, 12]) ∧
    (let k : Fin 32 := 1;
     let w : Nat := wd 5 1 2 3 4 6;
     let s : State := atPc k w {};
     s.atInstr k.val 5 (some 6) w ∧ legalR w = true) ∧
    (let k : Fin 32 := 1;
     let w : Nat := wd 5 1 2 3 30 7;
     let s : State := atPc k w { regs [] with ccp := 7 };
     let x : ReckX := s.reckX k.val;
     s.atInstr k.val 5 (some 7) w ∧ iD w ≤ 24 ∧ iA w ≤ 24 ∧ iB w ≤ 24 ∧ bitsOf w 6 6 = 0 ∧ bitsOf w 10 7 ≠ 0 ∧
     x.ccp = 7) ∧
    (let k : Fin 32 := 1;
     let w : Nat := wd 5 1 2 3 30 7;
     let s : State := atPc k w {};
     let x : ReckX := s.reckX k.val;
     s.atInstr k.val 5 (some 7) w ∧ iD w ≤ 24 ∧ iA w ≤ 24 ∧ iB w ≤ 24 ∧ bitsOf w 6 6 = 0 ∧ bitsOf w 10 7 ≠ 0 ∧
     x.ccp ≠ 7 ∧ x.woke = false ∧ x.pendIn (bitsOf w 10 7) = none) ∧
    (let k : Fin 32 := 1;
     let w : Nat := wd 5 1 2 3 30 7;
     let i : Nat := 1;
     let s : State := atPc k w { pend := [0, 1, 0, 0] };
     let x : ReckX := s.reckX k.val;
     s.atInstr k.val 5 (some 7) w ∧ iD w ≤ 24 ∧ iA w ≤ 24 ∧ iB w ≤ 24 ∧ bitsOf w 6 6 = 0 ∧ bitsOf w 10 7 ≠ 0 ∧
     x.ccp ≠ 7 ∧ x.pendIn (bitsOf w 10 7) = some i) ∧
    (let k : Fin 32 := 1;
     let s : State := atPc k 0 {};
     let x : ReckX := s.reckX k.val;
     s.reckRuns k.val = true ∧ x.pc < 65536 ∧ listedOp (s.fetch k.val) = false) := by
  refine ⟨?_, ?_, ?_, ?_, ?_, ?_, ?_, ?_, ?_, ?_, ?_, ?_, ?_, ?_, ?_, ?_, ?_, ?_, ?_, ?_, ?_, ?_, ?_, ?_⟩ <;>
    decide +kernel

/-- Hypotheses of ReckTrapEntry are met, clause by clause. -/
theorem witness_ReckTrapEntry :
    (let k : Fin 32 := 1;
     let s : State := State.reset.setReckX k { tvec := 16 };
     let x : ReckX := s.reckX k.val;
     x.ccp ≠ 7 ∧ x.tvec ≠ 0) ∧
    (let k : Fin 32 := 1;
     let s : State := State.reset.setReckX k { ccp := 7, tvec := 16 };
     let x : ReckX := s.reckX k.val;
     x.ccp = 7) ∧
    (let k : Fin 32 := 1;
     let s : State := State.reset;
     let x : ReckX := s.reckX k.val;
     x.ccp ≠ 7 ∧ x.tvec = 0) := by
  refine ⟨?_, ?_, ?_⟩ <;> decide +kernel

/-- Hypotheses of ReckControl are met, clause by clause. -/
theorem witness_ReckControl :
    (let k : Fin 32 := 1;
     let s : State := State.reset |>.set (pRECK k.val) RECK.STATUS_STATE rkFATAL;
     let w : Writer := .spc;
     let p : Nat := pRECK k.val;
     s.mayAct w p ∧ s.rkSt k.val = rkFATAL) ∧
    (let k : Fin 32 := 1;
     let s : State := State.reset;
     let w : Writer := .spc;
     let p : Nat := pRECK k.val;
     s.mayAct w p ∧ s.rkSt k.val ≠ rkFATAL) ∧
    (let k : Fin 32 := 1;
     let p : Nat := pRECK k.val;
     let s : State := State.reset |>.set p PG.STAT_SHUTTING 1 |>.set (pRECK k) RECK.STATUS_STATE rkRUN;
     let x : ReckX := s.reckX k.val;
     s.flag p PG.STAT_SHUTTING = true ∧ s.reckStops k.val = true ∧ x.spill = none) ∧
    (let k : Fin 32 := 1;
     let c : Nat := 1;
     let s : State := State.reset |>.set (pRECK k.val) RECK.STATUS_STATE rkSPILL |>.setReckX k
         { spill := some (.call c) };
     let x : ReckX := s.reckX k.val;
     x.spill = some (SpillOp.call c) ∧ s.rkSt k.val = rkSPILL) ∧
    (let k : Fin 32 := 1;
     let s : State := State.reset |>.set (pRECK k.val) RECK.STATUS_STATE rkSPILL |>.setReckX k
         { spill := some .ret };
     let x : ReckX := s.reckX k.val;
     x.spill = some SpillOp.ret ∧ s.rkSt k.val = rkSPILL) ∧
    (let k : Fin 32 := 1;
     let c : SpillOp := .ret;
     let s : State := State.reset |>.set (pRECK k.val) RECK.STATUS_STATE rkSPILL |>.setReckX k
         { spill := some c };
     let x : ReckX := s.reckX k.val;
     x.spill = some c ∧ s.rkSt k.val = rkSPILL) ∧
    (let k : Fin 32 := 1;
     let w : Writer := .spc;
     let p : Nat := pRECK k.val;
     let s : State := State.reset |>.setReg p RECK.MEM_ADDR (2 ^ 31);
     s.mayAct w p ∧ s.reg p RECK.MEM_ADDR = 2 ^ 31) ∧
    (let k : Fin 32 := 1;
     let p : Nat := pRECK k.val;
     let s : State := State.reset |>.setReg p RECK.MEM_ADDR (2 ^ 31);
     s.pageRests p = false ∧ s.reg p RECK.MEM_ADDR = 2 ^ 31) ∧
    (let k : Fin 32 := 1;
     let w : Writer := .spc;
     let p : Nat := pRECK k.val;
     let s : State := State.reset |>.set p (RECK.TRIG_SRC 0) 5;
     s.mayAct w p ∧ s.get p (RECK.TRIG_SRC 0) = 5) ∧
    (let k : Fin 32 := 1;
     let i : Fin 4 := 1;
     let s : State := State.reset |>.set (pRECK k.val) RECK.STATUS_STATE rkSLEEP |>.set (pRECK k)
         (RECK.TRIG_SRC i) 3;
     s.trigLive k.val i.val = true ∧ s.rkSt k.val = rkSLEEP) ∧
    (let k : Fin 32 := 1;
     let i : Fin 4 := 1;
     let s : State := State.reset |>.set (pRECK k.val) RECK.STATUS_STATE rkRUN |>.set (pRECK k) (RECK.TRIG_SRC
         i) 3;
     s.trigLive k.val i.val = true ∧ s.rkSt k.val = rkRUN) ∧
    (let k : Fin 32 := 1;
     let s : State := State.reset |>.set (pRECK k.val) RECK.STATUS_STATE rkSLEEP |>.setReckX k
         { mask := 2, pend := [0, 1, 0, 0] };
     let i : Nat := 1;
     let x : ReckX := s.reckX k.val;
     s.rkSt k.val = rkSLEEP ∧ x.pendIn x.mask = some i ∧ (s.vsm k.val).runs = false) ∧
    (let k : Fin 32 := 1;
     let b : SlotX := { core := 3, logical := some k, inPlace := false };
     let s : State := State.reset |>.set pBIST BIST.LB_STAT_STATE lbWAIT |>.set (pRECK k.val) RECK.STATUS_STATE
         rkSLEEP |>.setBist { slot := some b };
     s.bist.slot = some b ∧ s.lbSt = lbWAIT ∧ b.logical = some k.val ∧ s.rkSt k.val = rkSLEEP) ∧
    (let k : Fin 32 := 1;
     let b : SlotX := { core := 3, logical := some k, inPlace := false };
     let s : State := State.reset |>.set pBIST BIST.LB_STAT_STATE lbMIGRATE |>.set (pRECK k.val)
         RECK.STATUS_STATE rkMIGR |>.setBist { slot := some b };
     let x : ReckX := s.reckX k.val;
     s.bist.slot = some b ∧ s.lbSt = lbMIGRATE ∧ b.logical = some k.val ∧ s.rkSt k.val = rkMIGR ∧
     x.pendIn x.mask = none) := by
  refine ⟨?_, ?_, ?_, ?_, ?_, ?_, ?_, ?_, ?_, ?_, ?_, ?_, ?_, ?_⟩ <;> decide +kernel

/-- Hypotheses of BeamClock are met, clause by clause. -/
theorem witness_BeamClock :
    (let w : Writer := .spc;
     let s : State := State.reset;
     s.mayAct w pBEAM ∧ s.flag pBEAM BEAM.CTL_PPS_OUT_EN = false) ∧
    (let w : Writer := .spc;
     let s : State := State.reset |>.set pBEAM BEAM.CTL_PPS_OUT_EN 1;
     s.mayAct w pBEAM ∧ s.flag pBEAM BEAM.CTL_PPS_OUT_EN = true) ∧
    (let w : Writer := .spc;
     let s : State := State.reset |>.setBeam { ppsOut := true };
     s.mayAct w pBEAM ∧ s.beam.ppsOut = true) ∧
    (let f : Bool := true;
     let d : Nat := 999900000;
     let s : State := State.reset |>.set pBEAM BEAM.CTL_PPS_IN_EN 1 |>.setB pBEAM BEAM.CTL_PPS_POL f |>.setBeam
         { ppsGood := 2 };
     s.isMaster = false ∧ s.flag pBEAM BEAM.CTL_PPS_IN_EN = true ∧ s.flag pBEAM BEAM.CTL_PPS_POL = f ∧
     s.beam.ppsGood = 2 ∧ s.injArmed pBEAM 0 = false ∧ 999900000 ≤ d ∧ d ≤ 1000100000) ∧
    (let f : Bool := true;
     let d : Nat := 999900000;
     let s : State := State.reset |>.set pBEAM BEAM.STAT_IS_MASTER 1 |>.set pBEAM BEAM.STAT_LOCK 3 |>.set pBEAM
         BEAM.CTL_PPS_IN_EN 1 |>.setB pBEAM BEAM.CTL_PPS_POL f |>.setBeam { ppsGood := 2 };
     let off : Int := secOffset s.beam.t;
     s.isMaster = true ∧ s.get pBEAM BEAM.STAT_LOCK = 3 ∧ s.flag pBEAM BEAM.CTL_PPS_IN_EN = true ∧
     s.flag pBEAM BEAM.CTL_PPS_POL = f ∧ s.beam.ppsGood = 2 ∧ s.injArmed pBEAM 0 = false ∧ 999900000 ≤ d ∧
     d ≤ 1000100000 ∧ off.natAbs ≤ 256000 ∧ s.corr.natAbs ≤ 200000000 ∧
     (s.corr - s.beam.settled).natAbs ≤ 10000000) ∧
    (let f : Bool := true;
     let s : State := State.reset |>.set pBEAM BEAM.STAT_IS_MASTER 1 |>.set pBEAM BEAM.STAT_LOCK 3 |>.set pBEAM
         BEAM.CTL_PPS_IN_EN 1 |>.setB pBEAM BEAM.CTL_PPS_POL f |>.setBeam { ppsBad := 2, t := 512000 };
     let off : Int := secOffset s.beam.t;
     s.isMaster = true ∧ s.get pBEAM BEAM.STAT_LOCK = 3 ∧ s.flag pBEAM BEAM.CTL_PPS_IN_EN = true ∧
     s.flag pBEAM BEAM.CTL_PPS_POL = f ∧ s.beam.ppsBad = 2 ∧ s.injArmed pBEAM 0 = false ∧ 256000 < off.natAbs) ∧
    (let s : State := State.reset |>.setBeam { ppsGood := 2 };
     let f : Bool := true;
     (s.flag pBEAM BEAM.CTL_PPS_IN_EN = false ∨ s.flag pBEAM BEAM.CTL_PPS_POL ≠ f)) ∧
    (let s : State := State.reset |>.set pBEAM BEAM.CTL_PTP_EN 1 |>.setReg pBEAM BEAM.PTP_CFG 0;
     let m : PtpMsg := { port := 0, domain := 0, transport := 0, slave := true, offset := 999, time := 0,
                         utc := none };
     s.isMaster = false ∧ s.ptpTakes m = true ∧ s.beam.step = none ∧ m.utc = none) ∧
    (let s : State := State.reset |>.set pBEAM BEAM.CTL_PTP_EN 1 |>.setReg pBEAM BEAM.PTP_CFG 0;
     let v : Int := 1;
     let m : PtpMsg := { port := 0, domain := 0, transport := 0, slave := true, offset := 999, time := 0,
                         utc := some v };
     s.isMaster = false ∧ s.ptpTakes m = true ∧ s.beam.step = none ∧ m.utc = some v ∧ -32768 ≤ v ∧ v < 32768) ∧
    (let s : State := State.reset;
     let m : PtpMsg := { port := 0, domain := 0, transport := 0, slave := true, offset := 999, time := 0,
                         utc := none };
     s.ptpTakes m = false) := by
  refine ⟨?_, ?_, ?_, ?_, ?_, ?_, ?_, ?_, ?_, ?_⟩ <;> decide +kernel

/-- Hypotheses of BeamLocks are met, clause by clause. -/
theorem witness_BeamLocks :
    (let s : State := State.reset |>.set pBEAM BEAM.STAT_LOCK 1 |>.setBeam { offset := -256000 };
     let lock : Nat := s.get pBEAM BEAM.STAT_LOCK;
     lock = 1 ∧ s.beam.offset.natAbs ≤ 256000 ∧ s.beam.step = none) ∧
    (let s : State := State.reset |>.set pBEAM BEAM.STAT_LOCK 2 |>.setBeam { offset := 2560 };
     let lock : Nat := s.get pBEAM BEAM.STAT_LOCK;
     lock = 2 ∧ s.isMaster = false ∧ s.beam.offset.natAbs ≤ 2560 ∧ s.corr.natAbs < 200000000) ∧
    (let s : State := State.reset |>.set pBEAM BEAM.STAT_LOCK 2 |>.set pBEAM BEAM.STAT_IS_MASTER 1;
     let lock : Nat := s.get pBEAM BEAM.STAT_LOCK;
     lock = 2 ∧ s.isMaster = true) ∧
    (let s : State := State.reset |>.set pBEAM BEAM.STAT_LOCK 3 |>.setBeam { offset := 3841 };
     let lock : Nat := s.get pBEAM BEAM.STAT_LOCK;
     lock = 3 ∧ s.isMaster = false ∧ 3840 < s.beam.offset.natAbs) ∧
    (let s : State := State.reset |>.set pBEAM BEAM.STAT_LOCK 3 |>.set pBEAM BEAM.STAT_HOLDOVER 1;
     let lock : Nat := s.get pBEAM BEAM.STAT_LOCK;
     lock = 3 ∧ s.flag pBEAM BEAM.STAT_HOLDOVER = true) ∧
    (let s : State := State.reset |>.set pBEAM BEAM.STAT_LOCK 3;
     let t : State := State.reset;
     s.fineLock = true ∧ t.fineLock = false) ∧
    (let s : State := State.reset;
     s.corr.natAbs < 190000000 ∧ (s.candidate = false ∨ s.coordOk = false) ∧ s.linkUp 0 = false ∧
     s.linkUp 1 = false ∧ s.linkUp 2 = false ∧ s.linkUp 3 = false) ∧
    (let s : State := State.reset |>.set pBEAM BEAM.MASTER_VALID 1;
     let lock : Nat := s.get pBEAM BEAM.STAT_LOCK;
     s.isMaster = false ∧ s.flag pBEAM BEAM.MASTER_VALID = true ∧ lock = 0 ∧ s.beam.step = none) ∧
    (let s : State := State.reset |>.set pBEAM BEAM.STAT_LOCK 1 |>.set pBEAM BEAM.MASTER_PARENT 1;
     let lock : Nat := s.get pBEAM BEAM.STAT_LOCK;
     s.isMaster = false ∧ s.get pBEAM BEAM.MASTER_PARENT ≠ 7 ∧ lock = 1 ∧ s.beam.step = none) ∧
    (let s : State := State.reset |>.set pBEAM BEAM.CTL_MASTER_EN 1 |>.set pBEAM BEAM.CTL_PRIO 1 |>.set pFABR
         FABR.STAT_COORD_OK 1;
     s.candidate = true ∧ s.coordOk = true) ∧
    (let s : State := State.reset;
     let im : Bool := true;
     let early : Bool := true;
     (s.flag pBEAM BEAM.MASTER_VALID = false ∨ im = false ∧ early = false)) ∧
    (let u : Tuple := { prio := 1, cls := 1, addr := 4095 };
     let s : State := State.reset |>.set pBEAM BEAM.MASTER_VALID 1 |>.setBeam { heard := [u] };
     s.isMaster = false ∧ s.fineLock = false ∧ u.addr ≠ s.get pFABR FABR.ADDR_CFG_ADDR ∧ u.addr < 4096 ∧
     s.flag pBEAM BEAM.MASTER_VALID = true ∧ s.tupleOf u.addr = some u ∧
     Option.all (fun v => tupleLt u v) (s.tupleOf (s.get pBEAM BEAM.MASTER_ADDR)) = true) ∧
    (let s : State := State.reset;
     let u : Tuple := { prio := 1, cls := 1, addr := 4095 };
     (s.flag pBEAM BEAM.MASTER_VALID = false ∨ s.tupleOf u.addr ≠ some u ∨ Option.any (fun v => !tupleLt u v) (s.tupleOf (s.get pBEAM BEAM.MASTER_ADDR)) = true)) ∧
    (let s : State := State.reset |>.set pBEAM BEAM.CTL_MASTER_EN 1 |>.set pBEAM BEAM.CTL_PRIO 1;
     s.beam.heard = [] ∧ s.candidate = true ∧ s.isMaster = false ∧ s.fineLock = false ∧ s.beam.step = none ∧
     s.get pBEAM BEAM.STAT_LOCK = 0) ∧
    (let link : Fin 4 := 1;
     let m : TimeMsg := ⟨0, 1, false, false, 5, 7, 3⟩;
     let e : Nat × Nat := (3, 9);
     let s : State := State.reset |>.set pBEAM BEAM.STAT_IS_MASTER 1 |>.setFab link { timeTx := [e] };
     List.find? (fun e => e.1 == m.echo) (s.fab link.val).timeTx = some e ∧ s.isMaster = true) ∧
    (let link : Fin 4 := 1;
     let m : TimeMsg := ⟨0, 1, false, false, 0, 0, 0⟩;
     let s : State := State.reset |>.set pBEAM BEAM.MASTER_VALID 1 |>.set pBEAM BEAM.MASTER_PARENT link.val;
     s.isMaster = false ∧ s.flag pBEAM BEAM.MASTER_VALID = true ∧ m.master = s.get pBEAM BEAM.MASTER_ADDR ∧
     s.get pBEAM BEAM.MASTER_PARENT = link.val ∧ s.get pBEAM BEAM.STAT_LOCK ≠ 3 ∧
     (s.offsetFrom link.val m).natAbs ≤ 256000) ∧
    (let link : Fin 4 := 1;
     let s : State := State.reset |>.set (pFAB link) FAB.STAT_STATE flUP;
     (∀ l : Fin 4, s.linkUp ↑l = decide (↑l = link.val))) := by
  refine ⟨?_, ?_, ?_, ?_, ?_, ?_, ?_, ?_, ?_, ?_, ?_, ?_, ?_, ?_, ?_, ?_, ?_⟩ <;> decide +kernel

/-- Hypotheses of BeamStepping are met, clause by clause. -/
theorem witness_BeamStepping :
    (let s : State := State.reset |>.set pBEAM BEAM.STAT_LOCK 1 |>.setBeam { offset := 256001 };
     let recent : Bool := Option.any (fun t => decide (t ≤ s.beam.t) && decide (s.beam.t < t + 2560000000000))
         s.beam.lastStep;
     s.get pBEAM BEAM.STAT_LOCK = 1 ∧ s.isMaster = false ∧ s.beam.step = none ∧ 256000 < s.beam.offset.natAbs ∧
     ¬recent = true ∧ s.gatesOff = true) ∧
    (let s : State := State.reset |>.set pBEAM BEAM.STAT_LOCK 1 |>.setBeam { offset := 256001 } |>.set (pROD 3)
         ROD.STATUS_STATE stRUN;
     let recent : Bool := Option.any (fun t => decide (t ≤ s.beam.t) && decide (s.beam.t < t + 2560000000000))
         s.beam.lastStep;
     s.get pBEAM BEAM.STAT_LOCK = 1 ∧ s.isMaster = false ∧ s.beam.step = none ∧ 256000 < s.beam.offset.natAbs ∧
     ¬recent = true ∧ s.gatesOff = false ∧ s.fineLock = false) ∧
    (let s : State := State.reset;
     let recent : Bool := Option.any (fun t => decide (t ≤ s.beam.t) && decide (s.beam.t < t + 2560000000000))
         s.beam.lastStep;
     (s.get pBEAM BEAM.STAT_LOCK ≠ 1 ∨ s.isMaster = true ∨ s.beam.offset.natAbs ≤ 256000 ∨ recent = true)) ∧
    (let s : State := State.reset |>.set pBEAM BEAM.STAT_IS_MASTER 1 |>.set pBEAM BEAM.STAT_PPS_VALID 1;
     let b : Bool := true;
     s.isMaster = true ∧ s.get pBEAM BEAM.STAT_LOCK ≠ 3 ∧ s.refValid b = true ∧
     (if b = true then s.beam.impPps else s.beam.impPtp) = false ∧ s.beam.step = none ∧ s.gatesOff = true) ∧
    (let s : State := State.reset |>.set pBEAM BEAM.STAT_IS_MASTER 1 |>.set pBEAM BEAM.STAT_PPS_VALID 1 |>.set
         (pROD 3) ROD.STATUS_STATE stRUN;
     let b : Bool := true;
     s.isMaster = true ∧ s.get pBEAM BEAM.STAT_LOCK ≠ 3 ∧ s.refValid b = true ∧
     (if b = true then s.beam.impPps else s.beam.impPtp) = false ∧ s.beam.step = none ∧ s.gatesOff = false) ∧
    (let s : State := State.reset;
     let b : Bool := true;
     (s.isMaster = false ∨ s.get pBEAM BEAM.STAT_LOCK = 3 ∨ s.refValid b = false)) ∧
    (let k : StepWait := .follower;
     let s : State := State.reset |>.setBeam { step := some k };
     s.beam.step = some k ∧ s.gatesOff = true) ∧
    (let k : StepWait := .follower;
     let s : State := State.reset |>.setBeam { step := some k } |>.set (pROD 3) ROD.STATUS_STATE stRUN;
     s.beam.step = some k ∧ s.gatesOff = false) ∧
    (let s : State := State.reset |>.setPg pBEAM { applyPending := true };
     (s.pg pBEAM).applyPending = true ∧ (s.pg pBEAM).pending = []) ∧
    (let s : State := State.reset |>.setPg pBEAM { pending := [(bkey pBEAM BEAM.SET_NS, 1)],
                                                   applyPending := true };
     let t : State := s.applyCommit pBEAM;
     (s.pg pBEAM).applyPending = true ∧ (s.pg pBEAM).pending ≠ [] ∧ t.isMaster = false) ∧
    (let s : State := State.reset |>.set pBEAM BEAM.STAT_IS_MASTER 1 |>.setPg pBEAM
         { pending := [(bkey pBEAM BEAM.SET_NS, 1)], applyPending := true };
     let t : State := s.applyCommit pBEAM;
     (s.pg pBEAM).applyPending = true ∧ (s.pg pBEAM).pending ≠ [] ∧ t.isMaster = true ∧ t.gatesOff = true) := by
  refine ⟨?_, ?_, ?_, ?_, ?_, ?_, ?_, ?_, ?_, ?_, ?_⟩ <;> decide +kernel

/-- Hypotheses of Frames are met, clause by clause. -/
theorem witness_Frames :
    (let g : Fin 24 := 1;
     let s : State := State.reset |>.set pFRAME (FRAME.CG_STAT_RUNNING g.val) 1 |>.setGen g { period := 0 };
     let x : GenX := s.gen g.val;
     s.genRunning g.val = true ∧ x.next ≤ s.beam.t ∧ x.loads = []) ∧
    (let g : Fin 24 := 1;
     let l : GenLoad := ⟨0, 100, false⟩;
     let s : State := State.reset |>.set pFRAME (FRAME.CG_STAT_RUNNING g.val) 1 |>.setGen g { loads := [l] };
     let x : GenX := s.gen g.val;
     s.genRunning g.val = true ∧ x.next ≤ s.beam.t ∧ x.loads = [l] ∧ l.since ≤ x.next) ∧
    (let g : Fin 24 := 1;
     let s : State := State.reset |>.set pFRAME (FRAME.CG_STAT_RUNNING g.val) 1 |>.setGen g { next := 5 };
     let x : GenX := s.gen g.val;
     s.genRunning g.val = true ∧ s.beam.t < x.next) ∧
    (let g : Fin 24 := 1;
     let n : Fin 24 := 1;
     let s : State := State.reset |>.set pFRAME (FRAME.CG_STAT_RUNNING g.val) 1 |>.setReg pFRAME (FRAME.ROD_MAP
         n) 0 |>.set pFRAME (FRAME.ROD_MAP_GEN n) g |>.setGen g
           { marks := 1, mid := true, hist := [⟨0, 100, true⟩] } |>.setBeam { t := 4000 };
     let e : Nat × Nat := ((s.frameDue n false).getD (0, 0));
     s.genRunning g.val = true ∧ s.genOf n.val = g.val ∧ s.frameDue n.val false = some e) ∧
    (let g : Fin 24 := 1;
     let n : Fin 24 := 1;
     let s : State := State.reset |>.set pFRAME (FRAME.CG_STAT_RUNNING g.val) 1;
     s.genRunning g.val = true ∧ s.genOf n.val = g.val ∧ s.frameDue n.val false = none) ∧
    (let g : Fin 24 := 1;
     let n : Fin 24 := 1;
     let s : State := State.reset |>.set pFRAME (FRAME.CG_STAT_RUNNING g.val) 1 |>.setReg pFRAME (FRAME.ROD_MAP
         n) 0 |>.set pFRAME (FRAME.ROD_MAP_GEN n) g |>.setGen g
           { marks := 1, mid := true, hist := [⟨0, 100, true⟩] } |>.setBeam { t := 4000 };
     let e : Nat × Nat := ((s.frameDue n true).getD (0, 0));
     s.genRunning g.val = true ∧ s.genOf n.val = g.val ∧ s.frameDue n.val true = some e) ∧
    (let g : Fin 24 := 1;
     let n : Fin 24 := 1;
     let s : State := State.reset |>.set pFRAME (FRAME.CG_STAT_RUNNING g.val) 1 |>.setGen g { mid := true };
     s.genRunning g.val = true ∧ s.genOf n.val = g.val ∧ s.frameDue n.val true = none) ∧
    (let g : Fin 24 := 1;
     let s : State := State.reset |>.set pFRAME (FRAME.CG_STAT_WAIT_LOCK g.val) 1 |>.set pBEAM BEAM.STAT_LOCK 3;
     s.flag pFRAME (FRAME.CG_STAT_WAIT_LOCK g.val) = true ∧ s.fineLock = true ∧
     s.flag pFRAME (FRAME.CG_STAT_GANG_MISMATCH g.val) = false) ∧
    (let s : State := State.reset;
     let g : Fin 24 := 1;
     (s.flag pFRAME (FRAME.CG_STAT_WAIT_LOCK g.val) = false ∨ s.fineLock = false)) ∧
    (let g : Fin 24 := 1;
     let id : Nat := 1;
     let per : Nat := 1;
     let s : State := State.reset |>.set pFRAME (FRAME.CG_CTL_GANG_ID g.val) id |>.set pFRAME
         (FRAME.CG_STAT_RUNNING g.val) 1 |>.set pFRAME (FRAME.CG_CTL_CROSS g) 1;
     (∀ h : Fin 24, s.flag pFRAME (FRAME.CG_CTL_CROSS ↑h) = decide (↑h = g.val)) ∧
     s.get pFRAME (FRAME.CG_CTL_GANG_ID g.val) = id ∧ s.reg pFRAME (FRAME.CG_PERIOD g.val) ≠ per ∧
     s.genRunning g.val = true) ∧
    (let s : State := State.reset |>.set pFRAME FRAME.SYNC_CTL_EN 1 |>.set pFRAME (FRAME.CG_STAT_RUNNING 0) 1
         |>.setGen 0 { next := 1000000, period := 10000, marks := 1, hist := [⟨600000, 10000, false⟩] };
     let u : Nat := 600100;
     let b : Nat := 600000;
     s.syncInUse = true ∧
     List.find? (fun b => decide ((s.syncOff u b).natAbs ≤ s.syncWin)) s.syncBounds = some b ∧
     (s.beam.syncEdges.any fun e => e.1 == b) = false ∧ (s.syncOff u b).natAbs < 2 ^ 15) ∧
    (let s : State := State.reset;
     let u : Nat := 1;
     List.find? (fun b => decide ((s.syncOff u b).natAbs ≤ s.syncWin)) s.syncBounds = none) ∧
    (let s : State := State.reset |>.set pFRAME FRAME.SYNC_CTL_EN 1 |>.set pFRAME (FRAME.CG_STAT_RUNNING 0) 1
         |>.setGen 0 { next := 1000000, period := 10000, marks := 1, hist := [⟨600000, 10000, false⟩] }
           |>.setBeam { t := 700000 };
     let b : Nat := 600000;
     s.syncInUse = true ∧
     List.find? (fun b => decide (s.beam.syncFrom < b ∧ ↑s.syncWin < s.syncOff s.beam.t b) && !s.beam.syncEdges.any fun e => e.1 == b) s.syncBounds = some b) := by
  refine ⟨?_, ?_, ?_, ?_, ?_, ?_, ?_, ?_, ?_, ?_, ?_, ?_, ?_⟩ <;> decide +kernel

/-- Hypotheses of FrameStartOnGrid are met, clause by clause. -/
theorem witness_FrameStartOnGrid :
    (let g : Fin 24 := 1;
     let s : State := (State.reset.setBeam { t := 1000000 }) |>.set pFRAME ⟨FRAME.CG_PERIOD g, 21, 0⟩ 1000;
     let t : State := s.startGen g.val;
     let x : GenX := t.gen g.val;
     0 < s.get pFRAME { off := FRAME.CG_PERIOD g.val, hi := 21, lo := 0 } ∧ 0 < x.k) := by
  decide +kernel

/-- Hypotheses of Modulation are met, clause by clause. -/
theorem witness_Modulation :
    (let w : Writer := .spc;
     let n : Fin 24 := 1;
     let p : Nat := pROD n.val;
     let s : State := State.reset |>.set p ROD.CFG_REF_SRC 1;
     s.mayAct w p ∧ s.get p ROD.CFG_REF_SRC = 1) ∧
    (let w : Writer := .spc;
     let n : Fin 24 := 1;
     let s : State := State.reset;
     let p : Nat := pROD n.val;
     s.mayAct w p ∧ s.get p ROD.CFG_REF_SRC = 0) ∧
    (let n : Fin 24 := 1;
     let u : Nat := 1;
     let s : State := State.reset |>.set pFRAME (FRAME.CG_STAT_RUNNING 0) 1 |>.set pFRAME ⟨FRAME.CG_PERIOD 0,
         21, 0⟩ 10000 |>.setReg pFRAME (FRAME.ROD_MAP n) 0 |>.setGen 0 { next := 1000000, period := 10000 }
           |>.setRod n { modEnd := some u };
     (s.rod n.val).modEnd = some u) ∧
    (let n : Fin 24 := 1;
     let s : State := State.reset |>.setRod n { modEnd := none };
     (s.rod n.val).modEnd = none) ∧
    (let n : Fin 24 := 1;
     let s : State := State.reset;
     s.nextUpdate n.val = none) ∧
    (let n : Fin 24 := 1;
     let s : State := State.reset |>.set pFRAME (FRAME.CG_STAT_RUNNING 0) 1 |>.set pFRAME ⟨FRAME.CG_PERIOD 0,
         21, 0⟩ 10000 |>.setReg pFRAME (FRAME.ROD_MAP n) 0 |>.setGen 0 { next := 1000000, period := 10000 }
           |>.setRod n { cutU := some 1000000 };
     let q : UpdPoint := ((s.nextUpdate n).getD ⟨0, 0, false, false⟩);
     s.nextUpdate n.val = some q ∧ (s.rod n.val).cutU = some q.u) ∧
    (let n : Fin 24 := 1;
     let s : State := State.reset |>.set pFRAME (FRAME.CG_STAT_RUNNING 0) 1 |>.set pFRAME ⟨FRAME.CG_PERIOD 0,
         21, 0⟩ 10000 |>.setReg pFRAME (FRAME.ROD_MAP n) 0 |>.set (pROD n) ROD.CFG_UPD_MODE 1 |>.setGen 0
           { next := 2000000, period := 10000, mid := true, marks := 1, hist := [⟨1600000, 40000, true⟩] }
           |>.setBeam { t := 1640000 };
     let q : UpdPoint := ((s.nextUpdate n).getD ⟨0, 0, false, false⟩);
     s.nextUpdate n.val = some q ∧ (s.rod n.val).cutU ≠ some q.u ∧ q.half = true) ∧
    (let n : Fin 24 := 1;
     let s : State := State.reset |>.set pFRAME (FRAME.CG_STAT_RUNNING 0) 1 |>.set pFRAME ⟨FRAME.CG_PERIOD 0,
         21, 0⟩ 10000 |>.setReg pFRAME (FRAME.ROD_MAP n) 0 |>.setGen 0 { next := 1000000, period := 10000 }
           |>.set (pROD n) ROD.STATUS_STATE stRUN |>.set (pPROT n) PROT.SLOT_A_I2 9 |>.set (pACQ 0)
           ⟨ACQ.SLOT_W0 9, 15, 0⟩ 32767;
     let q : UpdPoint := ((s.nextUpdate n).getD ⟨0, 0, false, false⟩);
     s.nextUpdate n.val = some q ∧ (s.rod n.val).cutU ≠ some q.u ∧ q.half = false ∧ s.crossTrips n.val = true) ∧
    (let n : Fin 24 := 1;
     let p : Nat := pROD n.val;
     let s : State := State.reset |>.set p ROD.STATUS_ARMED 1;
     s.flag p ROD.STATUS_ARMED = true) ∧
    (let n : Fin 24 := 1;
     let p : Nat := pROD n.val;
     let s : State := State.reset |>.set (pROD n) ROD.STATUS_STATE stRUN;
     let lim : Nat := s.get p ROD.CFG_STALE_LIM;
     let old : Nat := s.reg p ROD.STALE_RUN;
     let run : Nat := min (old + 1) 255;
     let runs : Prop := s.rodSt n.val = stRUN ∨ s.rodSt n.val = stDESCENT;
     s.flag p ROD.STATUS_ARMED = false ∧ runs ∧
     (lim = 0 ∨ run < lim ∨ lim ≤ old ∧ s.flag p ROD.STATUS_REF_STALE = true)) ∧
    (let n : Fin 24 := 1;
     let p : Nat := pROD n.val;
     let s : State := State.reset |>.set (pROD n) ROD.STATUS_STATE stRUN |>.set p ROD.CFG_STALE_LIM 1;
     let lim : Nat := s.get p ROD.CFG_STALE_LIM;
     let old : Nat := s.reg p ROD.STALE_RUN;
     let run : Nat := min (old + 1) 255;
     let runs : Prop := s.rodSt n.val = stRUN ∨ s.rodSt n.val = stDESCENT;
     s.flag p ROD.STATUS_ARMED = false ∧ runs ∧ lim ≠ 0 ∧ lim ≤ run ∧
     (old < lim ∨ s.flag p ROD.STATUS_REF_STALE = false)) ∧
    (let s : State := State.reset;
     let n : Fin 24 := 1;
     let p : Nat := pROD n.val;
     let runs : Prop := s.rodSt n.val = stRUN ∨ s.rodSt n.val = stDESCENT;
     s.flag p ROD.STATUS_ARMED = false ∧ ¬runs) := by
  refine ⟨?_, ?_, ?_, ?_, ?_, ?_, ?_, ?_, ?_, ?_, ?_, ?_⟩ <;> decide +kernel

/-- Hypotheses of GateLinks are met, clause by clause. -/
theorem witness_GateLinks :
    (let k : Fin 288 := 17;
     let n : Nat := k.val / 12;
     let p : Nat := k.val % 12;
     let s : State := State.reset |>.set (pGLK n) GLK.CTL_LINK_EN (2 ^ p) |>.set (pGLK n) (GLK.LSTAT_STATE p)
         lkUP |>.setLink k { queue := [(1000, true)] };
     let x : LinkX := s.link k.val;
     s.linkOpen n p = true ∧ x.queue ≠ [] ∧ s.sgrBlock n = false ∧ (s.rod n).tripped = false) ∧
    (let k : Fin 288 := 17;
     let n : Nat := k.val / 12;
     let p : Nat := k.val % 12;
     let g : Nat := pGLK n;
     let s : State := State.reset |>.set (pGLK n) GLK.CTL_LINK_EN (2 ^ p) |>.set (pGLK n) (GLK.LSTAT_STATE p)
         lkUP;
     let x : LinkX := s.link k.val;
     s.linkOpen n p = true ∧ x.queue = [] ∧ x.wait = [] ∧ x.tx = [] ∧ s.injArmed g 0 = false ∧
     x.deafTo ≤ s.beam.t ∧ (p ≠ 0 ∨ s.injArmed g 1 = false)) ∧
    (let k : Fin 288 := 17;
     let tag : Fin 256 := 1;
     let n : Nat := k.val / 12;
     let p : Nat := k.val % 12;
     let s : State := State.reset |>.set (pGLK n) GLK.CTL_LINK_EN (2 ^ p) |>.set (pGLK n) (GLK.LSTAT_STATE p)
         lkUP |>.setLink k { ping := some tag };
     let x : LinkX := s.link k.val;
     s.linkOpen n p = true ∧ x.ping = some tag.val) ∧
    (let k : Fin 288 := 17;
     let tag : Fin 256 := 1;
     let n : Nat := k.val / 12;
     let p : Nat := k.val % 12;
     let s : State := State.reset |>.set (pGLK n) GLK.CTL_LINK_EN (2 ^ p) |>.set (pGLK n) (GLK.LSTAT_STATE p)
         lkUP |>.setLink k { ping := none };
     let x : LinkX := s.link k.val;
     s.linkOpen n p = true ∧ x.ping ≠ some tag.val) ∧
    (let k : Fin 288 := 17;
     let s : State := State.reset |>.setLink k { queue := [(1000, true)] };
     let n : Nat := k.val / 12;
     let p : Nat := k.val % 12;
     (s.linkOpen n p = false ∨ s.sgrBlock n = true ∨ (s.rod n).tripped = true)) ∧
    (let k : Fin 288 := 17;
     let s : State := State.reset;
     let n : Nat := k.val / 12;
     let p : Nat := k.val % 12;
     s.linkOpen n p = false) ∧
    (let m : Fin 24 := 1;
     let s : State := State.reset |>.setRod m { innerDue := true };
     (s.rod m.val).innerDue = true) ∧
    (let m : Fin 24 := 1;
     let s : State := State.reset |>.setRod m { innerDue := false };
     (s.rod m.val).innerDue = false) ∧
    (let k : Fin 288 := 17;
     let n : Nat := k.val / 12;
     let p : Nat := k.val % 12;
     let s : State := State.reset |>.set (pGLK n) (GLK.LSTAT_STATE p) lkTRAIN;
     let st : Nat := s.linkSt n p;
     st = lkTRAIN ∧ (st = lkTRAIN ∨ st = lkSYNC)) ∧
    (let k : Fin 288 := 17;
     let s : State := State.reset;
     let n : Nat := k.val / 12;
     let p : Nat := k.val % 12;
     let st : Nat := s.linkSt n p;
     st ≠ lkTRAIN ∧ st ≠ lkSYNC ∧ st ≠ lkUP ∧ st ≠ lkLOST) ∧
    (let k : Fin 288 := 17;
     let n : Nat := k.val / 12;
     let p : Nat := k.val % 12;
     let s : State := State.reset |>.set (pGLK n) (GLK.LSTAT_STATE p) lkUP;
     let st : Nat := s.linkSt n p;
     (st = lkUP ∨ st = lkSYNC)) ∧
    (let k : Fin 288 := 17;
     let n : Nat := k.val / 12;
     let p : Nat := k.val % 12;
     let s : State := State.reset |>.set (pGLK n) (GLK.LSTAT_STATE p) lkLOST;
     let st : Nat := s.linkSt n p;
     st = lkLOST) := by
  refine ⟨?_, ?_, ?_, ?_, ?_, ?_, ?_, ?_, ?_, ?_, ?_, ?_⟩ <;> decide +kernel

/-- Hypotheses of GateRequests are met, clause by clause. -/
theorem witness_GateRequests :
    (let w : Writer := .spc;
     let n : Fin 24 := 1;
     let v : Word := 0x0C000000;
     let s : State := State.reset;
     let g : Nat := pGLK n.val;
     s.mayAct w g ∧ s.reqBusy n.val = false ∧ BitVec.getLsbD v 31 = false) ∧
    (let w : Writer := .spc;
     let n : Fin 24 := 1;
     let v : Word := 0x8C000000;
     let s : State := State.reset;
     let g : Nat := pGLK n.val;
     let stored : State := s.setWord g GLK.REQ_CTL (v &&& wordOf 2130771967);
     let cleared : State := stored.set g GLK.RSP_VALID 0;
     s.mayAct w g ∧ s.reqBusy n.val = false ∧ BitVec.getLsbD v 31 = true ∧
     (12 ≤ cleared.get g GLK.REQ_CTL_POS ∨ s.linkSt n.val (cleared.get g GLK.REQ_CTL_POS) ≠ lkUP)) ∧
    (let w : Writer := .spc;
     let n : Fin 24 := 1;
     let v : Word := 0x80000000;
     let s : State := State.reset |>.set (pGLK n) (GLK.LSTAT_STATE 0) lkUP |>.set (pGLK n) GLK.CTL_LINK_EN 1;
     let g : Nat := pGLK n.val;
     let stored : State := s.setWord g GLK.REQ_CTL (v &&& wordOf 2130771967);
     let cleared : State := stored.set g GLK.RSP_VALID 0;
     s.mayAct w g ∧ s.reqBusy n.val = false ∧ BitVec.getLsbD v 31 = true ∧ cleared.get g GLK.REQ_CTL_POS < 12 ∧
     s.linkSt n.val (cleared.get g GLK.REQ_CTL_POS) = lkUP) ∧
    (let w : Writer := .spc;
     let n : Fin 24 := 1;
     let g : Nat := pGLK n.val;
     let s : State := State.reset |>.set g GLK.REQ_CTL_GO 1;
     s.mayAct w g ∧ s.reqBusy n.val = true) ∧
    (let n : Fin 24 := 1;
     let g : Nat := pGLK n.val;
     let s : State := State.reset |>.set g GLK.REQ_CTL_GO 1;
     let pos : Nat := s.get g GLK.REQ_CTL_POS;
     s.flag g GLK.REQ_CTL_GO = true ∧ s.linkSt n.val pos ≠ lkUP) ∧
    (let n : Fin 24 := 1;
     let g : Nat := pGLK n.val;
     let s : State := State.reset |>.set g GLK.REQ_CTL_GO 1 |>.set g (GLK.LSTAT_STATE 0) lkUP;
     let pos : Nat := s.get g GLK.REQ_CTL_POS;
     s.flag g GLK.REQ_CTL_GO = true ∧ s.linkSt n.val pos = lkUP ∧ (s.rod n.val).reqTries < 3) ∧
    (let n : Fin 24 := 1;
     let g : Nat := pGLK n.val;
     let s : State := State.reset |>.set g GLK.REQ_CTL_GO 1 |>.set g (GLK.LSTAT_STATE 0) lkUP |>.setRod n
         { reqTries := 3 };
     let pos : Nat := s.get g GLK.REQ_CTL_POS;
     s.flag g GLK.REQ_CTL_GO = true ∧ s.linkSt n.val pos = lkUP ∧ 3 ≤ (s.rod n.val).reqTries) ∧
    (let n : Fin 24 := 1;
     let g : Nat := pGLK n.val;
     let s : State := State.reset |>.set g (GLK.LSTAT_STATE 0) lkUP;
     s.flag g GLK.REQ_CTL_GO = false ∧ s.idBusy n.val = false) ∧
    (let n : Fin 24 := 1;
     let s : State := State.reset |>.set (pGLK n) ⟨GLK.CTL_LINK_EN.off, GLK.CTL_LINK_EN.lo, GLK.CTL_LINK_EN.lo⟩
         1 |>.set (pGLK n) (GLK.LSTAT_STATE 0) lkUP;
     let k : Fin 288 := 12;
     let d : List Byte := [1, 2, 3, 4, 5];
     k.val / 12 = n.val ∧ s.linkOpen n.val (k.val % 12) = true ∧ 4 < d.length) ∧
    (let n : Fin 24 := 1;
     let s : State := State.reset |>.set (pGLK n) ⟨GLK.CTL_LINK_EN.off, GLK.CTL_LINK_EN.lo, GLK.CTL_LINK_EN.lo⟩
         1 |>.set (pGLK n) (GLK.LSTAT_STATE 0) lkUP;
     let k : Fin 288 := 12;
     let st : Fin 256 := 0;
     let d : List Byte := [1, 2];
     k.val / 12 = n.val ∧ s.linkOpen n.val (k.val % 12) = true ∧ d.length ≤ 4 ∧ (s.link k.val).version = none ∧
     st.val = 0 ∧ d.length = 2) ∧
    (let n : Fin 24 := 1;
     let k : Fin 288 := 12;
     let st : Fin 256 := 1;
     let d : List Byte := [];
     let g : Nat := pGLK n.val;
     let s : State := State.reset |>.set g GLK.REQ_CTL_GO 1 |>.set (pGLK n) GLK.CTL_LINK_EN 1 |>.set (pGLK n)
         (GLK.LSTAT_STATE 0) lkUP |>.setLink k { version := some (1, 1) };
     let pos : Nat := s.get g GLK.REQ_CTL_POS;
     k.val / 12 = n.val ∧ s.linkOpen n.val (k.val % 12) = true ∧ d.length ≤ 4 ∧ (s.link k.val).version ≠ none ∧
     s.flag g GLK.REQ_CTL_GO = true ∧ pos = k.val % 12 ∧ (st.val ≠ 0 ∨ s.flag g GLK.REQ_CTL_WR = true)) ∧
    (let n : Fin 24 := 1;
     let k : Fin 288 := 12;
     let st : Fin 256 := 0;
     let d : List Byte := [1, 2, 3, 4];
     let g : Nat := pGLK n.val;
     let s : State := State.reset |>.set g GLK.REQ_CTL_GO 1 |>.set (pGLK n) GLK.CTL_LINK_EN 1 |>.set (pGLK n)
         (GLK.LSTAT_STATE 0) lkUP |>.setLink k { version := some (1, 1) };
     let pos : Nat := s.get g GLK.REQ_CTL_POS;
     k.val / 12 = n.val ∧ s.linkOpen n.val (k.val % 12) = true ∧ d.length ≤ 4 ∧ (s.link k.val).version ≠ none ∧
     s.flag g GLK.REQ_CTL_GO = true ∧ pos = k.val % 12 ∧ st.val = 0 ∧ s.flag g GLK.REQ_CTL_WR = false ∧
     d.length = 4 ∧ (s.rod n.val).start ≠ some StartStage.idRead) ∧
    (let n : Fin 24 := 1;
     let k : Fin 288 := 12;
     let d : List Byte := [];
     let s : State := State.reset |>.set (pGLK n) GLK.CTL_LINK_EN 1 |>.set (pGLK n) (GLK.LSTAT_STATE 0) lkUP
         |>.setLink k { version := some (1, 1) } |>.setRod n { start := some .idRead, reqTries := 1 };
     k.val / 12 = n.val ∧ s.linkOpen n.val (k.val % 12) = true ∧ d.length ≤ 4 ∧ (s.link k.val).version ≠ none ∧
     s.idBusy n.val = true ∧ s.idPos n.val = k.val % 12) := by
  refine ⟨?_, ?_, ?_, ?_, ?_, ?_, ?_, ?_, ?_, ?_, ?_, ?_, ?_⟩ <;> decide +kernel

/-- Hypotheses of RodOperation are met, clause by clause. -/
theorem witness_RodOperation :
    (let w : Writer := .spc;
     let n : Fin 24 := 1;
     let s : State := State.reset |>.set (pROD n) ROD.STATUS_STATE stRUN;
     let p : Nat := pPROT n.val;
     s.mayAct w p ∧ s.rodSt n.val ≠ stOFF ∧ s.rodSt n.val ≠ stFAULT) ∧
    (let w : Writer := .spc;
     let n : Fin 24 := 1;
     let s : State := State.reset |>.set (pROD n.val) ROD.STATUS_STATE stOFF;
     let p : Nat := pPROT n.val;
     s.mayAct w p ∧ (s.rodSt n.val = stOFF ∨ s.rodSt n.val = stFAULT)) ∧
    (let w : Writer := .spc;
     let n : Fin 24 := 1;
     let p : Nat := pPROT n.val;
     let s : State := State.reset |>.set (pROD n.val) ROD.STATUS_STATE stFAULT |>.set p PROT.VSCALE_DIS_VSAFE
         10;
     s.mayAct w p ∧ s.rodSt n.val = stFAULT ∧ s.clearOk n.val = true) ∧
    (let w : Writer := .spc;
     let n : Fin 24 := 1;
     let s : State := State.reset |>.set (pROD n.val) ROD.STATUS_STATE stFAULT |>.setRod n { fired := 1 };
     let p : Nat := pPROT n.val;
     s.mayAct w p ∧ s.rodSt n.val = stFAULT ∧ s.clearOk n.val = false) ∧
    (let w : Writer := .spc;
     let n : Fin 24 := 1;
     let p : Nat := pPROT n.val;
     let s : State := openLinks State.reset n |>.set p PG.CTL_EN 1 |>.set pBEAM BEAM.STAT_LOCK 3 |>.set p
         PG.CTL_LOCK 1;
     s.mayAct w p ∧ shuttingSt (s.rodSt n.val) = false ∧ s.startReasons n.val = []) ∧
    (let w : Writer := .spc;
     let n : Fin 24 := 1;
     let c : Nat := 9;
     let p : Nat := pPROT n.val;
     let s : State := openLinks State.reset n |>.set p PG.CTL_EN 1 |>.set pBEAM BEAM.STAT_LOCK 3;
     s.mayAct w p ∧ shuttingSt (s.rodSt n.val) = false ∧ s.startReasons n.val = [c]) ∧
    (let w : Writer := .spc;
     let n : Fin 24 := 1;
     let p : Nat := pPROT n.val;
     let s : State := openLinks State.reset n |>.set (pROD n) ROD.STATUS_STATE stREADY |>.set p PG.CTL_EN 1
         |>.set pBEAM BEAM.STAT_LOCK 3;
     s.mayAct w p ∧ shuttingSt (s.rodSt n.val) = false ∧ s.runReasons n.val = []) ∧
    (let w : Writer := .spc;
     let n : Fin 24 := 1;
     let c : Nat := 2;
     let p : Nat := pPROT n.val;
     let s : State := openLinks State.reset n |>.set (pROD n) ROD.STATUS_STATE stREADY |>.set p PG.CTL_EN 1;
     s.mayAct w p ∧ shuttingSt (s.rodSt n.val) = false ∧ s.runReasons n.val = [c]) ∧
    (let w : Writer := .spc;
     let n : Fin 24 := 1;
     let s : State := openLinks State.reset n |>.set (pROD n) ROD.STATUS_STATE stDESCENT;
     let p : Nat := pPROT n.val;
     s.mayAct w p ∧ shuttingSt (s.rodSt n.val) = true) ∧
    (let n : Fin 24 := 1;
     let s : State := openLinks State.reset n |>.setRod n { start := some .pathTest };
     let tested : Bool := (s.enabledPos n.val).all fun q => (s.link (n.val * 12 + q)).testHb;
     (s.rod n.val).start = some StartStage.pathTest ∧ tested = false) ∧
    (let n : Fin 24 := 1;
     let s : State := State.reset |>.setRod n { start := some .pathTest };
     let tested : Bool := (s.enabledPos n.val).all fun q => (s.link (n.val * 12 + q)).testHb;
     (s.rod n.val).start = some StartStage.pathTest ∧ tested = true) ∧
    (let n : Fin 24 := 1;
     let s : State := State.reset |>.set pREST REST.STAT_STATE dvRUN |>.setRod n
         { start := some .idRead, idGot := [1 :: 0 :: 16 :: List.replicate 13 0,
           1 :: 0 :: 16 :: List.replicate 13 0, 1 :: 0 :: 16 :: List.replicate 13 0] };
     let l : List (List Nat) := (s.rod n.val).idGot;
     (s.rod n.val).start = some StartStage.idRead ∧ (s.rod n.val).idGot.length = 3 ∧ s.dev = dvRUN ∧
     l.all idOk = true) ∧
    (let n : Fin 24 := 1;
     let s : State := State.reset |>.set pREST REST.STAT_STATE dvRUN |>.setRod n
         { start := some .idRead, idGot := [[], [], []] };
     let l : List (List Nat) := (s.rod n.val).idGot;
     (s.rod n.val).start = some StartStage.idRead ∧ (s.rod n.val).idGot.length = 3 ∧ s.dev = dvRUN ∧
     l.all idOk = false) ∧
    (let n : Fin 24 := 1;
     let s : State := openLinks State.reset n |>.setRod n { start := some .clear } |>.set (pGLK n)
         (GLK.HB0_STAT 0) 128;
     (s.rod n.val).start = some StartStage.clear ∧
     ((s.enabledPos n.val).any fun q => (s.hbStat n.val q).testBit hbTRIPPED) = true) ∧
    (let n : Fin 24 := 1;
     let s : State := State.reset |>.set (pROD n.val) ROD.STATUS_STATE stPRECHARGE |>.set (pPROT n.val)
         PROT.STATUS_STEP spPCCHARGE |>.setRod n { vs0 := 100 };
     let v0 : Int := ↑(s.rod n.val).vs0;
     s.rodSt n.val = stPRECHARGE ∧ s.rodStep n.val = spPCCHARGE ∧ 0 < v0 ∧ s.vdc n.val * 100 < 40 * v0) ∧
    (let n : Fin 24 := 1;
     let s : State := State.reset |>.set (pROD n.val) ROD.STATUS_STATE stPRECHARGE |>.set (pPROT n.val)
         PROT.STATUS_STEP spPCCHARGE |>.setRod n { vs0 := 100 } |>.setReg (pACQ 0) (ACQ.SLOT_W0 0) 20;
     let p : Nat := pPROT n.val;
     let v0 : Int := ↑(s.rod n.val).vs0;
     let hi : Int := ↑(orFull (s.get p PROT.PC_CFG_PC_HI1) 85);
     s.rodSt n.val = stPRECHARGE ∧ s.rodStep n.val = spPCCHARGE ∧ 0 < v0 ∧ 40 * v0 ≤ s.vdc n.val * 100 ∧
     s.vdc n.val * 100 ≤ hi * v0) ∧
    (let n : Fin 24 := 1;
     let s : State := State.reset |>.set (pROD n.val) ROD.STATUS_STATE stPRECHARGE |>.set (pPROT n.val)
         PROT.STATUS_STEP spPCCHARGE |>.setRod n { vs0 := 10 } |>.setReg (pACQ 0) (ACQ.SLOT_W0 0) 20;
     let p : Nat := pPROT n.val;
     let v0 : Int := ↑(s.rod n.val).vs0;
     let hi : Int := ↑(orFull (s.get p PROT.PC_CFG_PC_HI1) 85);
     s.rodSt n.val = stPRECHARGE ∧ s.rodStep n.val = spPCCHARGE ∧ 0 < v0 ∧ 40 * v0 ≤ s.vdc n.val * 100 ∧
     hi * v0 < s.vdc n.val * 100) ∧
    (let n : Fin 24 := 1;
     let s : State := State.reset |>.set (pROD n.val) ROD.STATUS_STATE stPRECHARGE |>.set (pPROT n.val)
         PROT.STATUS_STEP spPCCHARGE |>.setRod n { vs0 := 100 } |>.setReg (pACQ 0) (ACQ.SLOT_W0 0) 45;
     let p : Nat := pPROT n.val;
     let v0 : Int := ↑(s.rod n.val).vs0;
     let min3 : Int := ↑(orFull (s.get p PROT.PC_CFG_PC_MIN3) 90);
     s.rodSt n.val = stPRECHARGE ∧ s.rodStep n.val = spPCCHARGE ∧ 0 < v0 ∧ min3 * v0 ≤ s.vdc n.val * 100) ∧
    (let n : Fin 24 := 1;
     let s : State := State.reset |>.set (pROD n.val) ROD.STATUS_STATE stPRECHARGE |>.set (pPROT n.val)
         PROT.STATUS_STEP spPCCHARGE |>.setRod n { vs0 := 200 } |>.setReg (pACQ 0) (ACQ.SLOT_W0 0) 45;
     let p : Nat := pPROT n.val;
     let v0 : Int := ↑(s.rod n.val).vs0;
     let min3 : Int := ↑(orFull (s.get p PROT.PC_CFG_PC_MIN3) 90);
     s.rodSt n.val = stPRECHARGE ∧ s.rodStep n.val = spPCCHARGE ∧ 0 < v0 ∧ s.vdc n.val * 100 < min3 * v0) ∧
    (let n : Fin 24 := 1;
     let s : State := State.reset |>.set (pROD n.val) ROD.STATUS_STATE stREADY |>.set (pPROT n.val)
         PROT.STATUS_STEP spDIAG;
     let x : RodX := s.rod n.val;
     s.rodSt n.val = stREADY ∧ s.rodStep n.val = spDIAG ∧ x.diagStep < 4) ∧
    (let n : Fin 24 := 1;
     let s : State := State.reset |>.set (pROD n.val) ROD.STATUS_STATE stREADY |>.set (pPROT n.val)
         PROT.STATUS_STEP spDIAG |>.set (pPROT n) PROT.DIAG_CFG_DIAG_WIN 0 |>.setRod n
           { diagStep := 4, diagV := [5, 6, 7, 90, 5, 6, 7, 90, 5, 6, 7, 90] };
     let x : RodX := s.rod n.val;
     let v : List Int := x.diagV ++ List.map (s.diagAvg n.val) (List.range 3) ++ [s.vdc n.val];
     let res : Nat := s.diagFind n.val v;
     s.rodSt n.val = stREADY ∧ s.rodStep n.val = spDIAG ∧ 4 ≤ x.diagStep ∧ res = 0) ∧
    (let n : Fin 24 := 1;
     let s : State := State.reset |>.set (pROD n.val) ROD.STATUS_STATE stREADY |>.set (pPROT n.val)
         PROT.STATUS_STEP spDIAG |>.setRod n { diagStep := 4, diagV := List.replicate 9 0 };
     let x : RodX := s.rod n.val;
     let v : List Int := x.diagV ++ List.map (s.diagAvg n.val) (List.range 3) ++ [s.vdc n.val];
     let res : Nat := s.diagFind n.val v;
     s.rodSt n.val = stREADY ∧ s.rodStep n.val = spDIAG ∧ 4 ≤ x.diagStep ∧ res ≠ 0) ∧
    (let n : Fin 24 := 1;
     let s : State := State.reset |>.set (pROD n.val) ROD.STATUS_STATE stREADY |>.set (pPROT n.val)
         PROT.STATUS_STEP spENERGISE |>.set pBEAM BEAM.STAT_LOCK 3;
     s.rodSt n.val = stREADY ∧ s.rodStep n.val = spENERGISE ∧ s.fineLock = true ∧
     ((s.enabledPos n.val).all fun q => s.flag (pGLK n.val) (GLK.LSTAT_TIME_OK q)) = true) := by
  refine ⟨?_, ?_, ?_, ?_, ?_, ?_, ?_, ?_, ?_, ?_, ?_, ?_, ?_, ?_, ?_, ?_, ?_, ?_, ?_, ?_, ?_, ?_, ?_⟩ <;>
    decide +kernel

/-- Hypotheses of RodDetectors are met, clause by clause. -/
theorem witness_RodDetectors :
    (let n : Fin 24 := 1;
     let s : State := State.reset;
     let k : Fin 16 := 1;
     let v : Int := 40000;
     let since : Nat := 0;
     s.cmpOver n.val k.val v since = true ∧ s.cmpMasked n.val k.val = false) ∧
    (let n : Fin 24 := 1;
     let s : State := State.reset;
     let k : Fin 16 := 1;
     let v : Int := 1;
     let since : Nat := 1;
     (s.cmpOver n.val k.val v since = false ∨ s.cmpMasked n.val k.val = true)) ∧
    (let n : Fin 24 := 1;
     let s : State := State.reset |>.setRod n { fired := 1 } |>.setReg (pPROT n) (PROT.CMP_TH 0) 0x7FC08000;
     let k : Fin 19 := 0;
     let v : Int := 0;
     k.val < 16 ∧ s.cmpInside n.val k.val v = true ∧ (s.rod n.val).fired.testBit k.val = true) ∧
    (let n : Fin 24 := 1;
     let s : State := State.reset |>.setRod n { didt := 1 };
     let k : Fin 19 := 16;
     let v : Int := 0;
     16 ≤ k.val ∧ s.didtOver n.val v = false ∧ (s.rod n.val).didt.testBit (k.val - 16) = true) ∧
    (let n : Fin 24 := 1;
     let s : State := State.reset |>.setRod n { didt := 1 };
     let k : Fin 19 := 16;
     let v : Int := 1;
     if k.val < 16 then s.cmpInside n.val k.val v = false else s.didtOver n.val v = true) ∧
    (let n : Fin 24 := 1;
     let s : State := State.reset;
     let x : Fin 3 := 1;
     let v : Int := 1;
     s.didtOver n.val v = true ∧ s.blanked n.val x.val = false) ∧
    (let n : Fin 24 := 1;
     let s : State := State.reset;
     let x : Fin 3 := 1;
     let v : Int := 0;
     (s.didtOver n.val v = false ∨ s.blanked n.val x.val = true)) ∧
    (let n : Fin 24 := 1;
     let s : State := State.reset;
     let x : Fin 3 := 1;
     let cmps : List (Fin 16 × Int × Nat) := [(1, 40000, 0), (4, -40000, 0)];
     (s.rod n.val).blanks = [] ∧ (∀ c ∈ cmps, c.1.val < 9 ∧ c.1.val % 3 = x.val) ∧
     (∀ c ∈ cmps, s.cmpOver n.val (c.1.val) c.2.1 c.2.2 = true)) ∧
    (let n : Fin 24 := 1;
     let s : State := State.reset |>.set (pROD n.val) ROD.STATUS_STATE stPRECHARGE |>.set (pPROT n.val)
         PROT.STATUS_STEP spCONTCLOSE;
     s.rodSt n.val = stPRECHARGE ∧ s.rodStep n.val = spCONTCLOSE) ∧
    (let n : Fin 24 := 1;
     let s : State := State.reset |>.setRod n { cont := true };
     let p : Nat := pPROT n.val;
     s.flag p PROT.STATUS_CONT_FBK ≠ (s.rod n.val).cont) ∧
    (let n : Fin 24 := 1;
     let s : State := State.reset;
     let p : Nat := pPROT n.val;
     s.flag p PROT.STATUS_CONT_FBK = (s.rod n.val).cont) ∧
    (let n : Fin 24 := 1;
     let p : Nat := pPROT n.val;
     let s : State := State.reset |>.set p PROT.CFG_BRK_EN 1 |>.setRod n { brk := true };
     s.flag p PROT.CFG_BRK_EN = true ∧ s.flag p PROT.STATUS_BRK_FBK ≠ (s.rod n.val).brk) ∧
    (let n : Fin 24 := 1;
     let s : State := State.reset |>.set (pROD n.val) ROD.STATUS_STATE stDESCENT;
     s.rodSt n.val = stDESCENT) ∧
    (let n : Fin 24 := 1;
     let s : State := State.reset |>.setRod n { disch := true };
     let p : Nat := pPROT n.val;
     ((s.rod n.val).disch = true ∨ s.flag p PROT.STATUS_DIS_ABANDON = true) ∧ s.dcSafe n.val = false) ∧
    (let n : Fin 24 := 1;
     let s : State := State.reset |>.setRod n { disch := true };
     (s.rod n.val).disch = true) ∧
    (let n : Fin 24 := 1;
     let s : State := State.reset |>.set (pROD n.val) ROD.STATUS_STATE stRUN;
     s.rodSt n.val = stRUN) ∧
    (let n : Fin 24 := 1;
     let s : State := State.reset |>.set (pROD n.val) ROD.STATUS_STATE stDISCHARGE |>.set (pPROT n)
         PROT.VSCALE_DIS_VSAFE 1;
     s.rodSt n.val = stDISCHARGE ∧ s.dcSafe n.val = true) ∧
    (let n : Fin 24 := 1;
     let s : State := State.reset |>.set (pROD n.val) ROD.STATUS_STATE stPRECHARGE |>.setRod n { vs0 := 1 };
     s.rodSt n.val = stPRECHARGE ∧ s.vs n.val * 2 < ↑(s.rod n.val).vs0) := by
  refine ⟨?_, ?_, ?_, ?_, ?_, ?_, ?_, ?_, ?_, ?_, ?_, ?_, ?_, ?_, ?_, ?_, ?_, ?_⟩ <;> decide +kernel

/-- Hypotheses of RodFaultEntry are met, clause by clause. -/
theorem witness_RodFaultEntry :
    (let n : Fin 24 := 1;
     let s : State := State.reset;
     let bits : List Nat := [31, 7];
     let low : Nat := 7;
     (∀ b ∈ bits, b < 32) ∧ bits.min? = some low ∧ s.rodSt n.val ≠ stFAULT) := by
  decide +kernel

/-- Hypotheses of RodDescent are met, clause by clause. -/
theorem witness_RodDescent :
    (let n : Fin 24 := 1;
     let s : State := State.reset |>.set (pROD n.val) ROD.STATUS_STATE stRUN;
     let c : Nat := 15;
     0 < c ∧ c < 16 ∧ s.rodSt n.val = stRUN) ∧
    (let n : Fin 24 := 1;
     let s : State := State.reset |>.set (pROD n.val) ROD.STATUS_STATE stPRECHARGE;
     let c : Nat := 15;
     0 < c ∧ c < 16 ∧ s.rodSt n.val = stPRECHARGE) ∧
    (let n : Fin 24 := 1;
     let s : State := State.reset |>.set (pROD n.val) ROD.STATUS_STATE stDESCENT |>.set (pPROT n.val)
         PROT.STATUS_DESC_CAUSE dcSTOP;
     let c : Nat := 15;
     0 < c ∧ c < 16 ∧ s.rodSt n.val = stDESCENT ∧ s.get (pPROT n.val) PROT.STATUS_DESC_CAUSE = dcSTOP ∧
     c ≠ dcSTOP) ∧
    (let n : Fin 24 := 1;
     let s : State := State.reset |>.set (pROD n.val) ROD.STATUS_STATE stDESCENT;
     let c : Nat := 15;
     0 < c ∧ c < 16 ∧ s.rodSt n.val = stDESCENT ∧
     (s.get (pPROT n.val) PROT.STATUS_DESC_CAUSE ≠ dcSTOP ∨ c = dcSTOP)) ∧
    (let n : Fin 24 := 1;
     let s : State := State.reset |>.set (pROD n.val) ROD.STATUS_STATE stREADY |>.setRod n { brk := true };
     let c : Nat := 15;
     0 < c ∧ c < 16 ∧ s.rodSt n.val = stREADY ∧ (s.rod n.val).brk = true) ∧
    (let n : Fin 24 := 1;
     let s : State := State.reset |>.set (pROD n.val) ROD.STATUS_STATE stREADY;
     let c : Nat := 15;
     0 < c ∧ c < 16 ∧ s.rodSt n.val = stREADY ∧ (s.rod n.val).brk = false) ∧
    (let n : Fin 24 := 1;
     let s : State := State.reset |>.set (pROD n.val) ROD.STATUS_STATE stOFF;
     let c : Nat := 15;
     0 < c ∧ c < 16 ∧
     (s.rodSt n.val = stOFF ∨ s.rodSt n.val = stGATESOFF ∨ s.rodSt n.val = stDISCHARGE ∨ s.rodSt n.val = stFAULT)) := by
  refine ⟨?_, ?_, ?_, ?_, ?_, ?_, ?_⟩ <;> decide +kernel

/-- Hypotheses of Acquisition are met, clause by clause. -/
theorem witness_Acquisition :
    (let k : Fin 4 := 1;
     let c : Fin 12 := 1;
     let s : State := State.reset |>.setReg pFRAME (FRAME.ROD_MAP 0) 0 |>.set pFRAME (FRAME.CG_STAT_RUNNING 0)
         1 |>.setGen 0 { next := 1000000, period := 10000, marks := 1, hist := [⟨600000, 10000, false⟩] }
           |>.setBeam { t := 700000 } |>.setReg (pACQ k) (ACQ.TRIG1 c) 0 |>.set (pACQ k) (ACQ.TRIG1_SRC c) 3;
     let j : Fin 2 := 1;
     let e : Nat × Nat := ((s.trigEvents k c j).headD (0, 0));
     let x : ConvX := s.conv k.val c.val;
     List.find? (fun e => decide (x.since j.val ≤ e.1 ∧ e.1 ≤ s.beam.t)) (s.trigEvents k.val c.val j.val) = some e) ∧
    (let k : Fin 4 := 1;
     let c : Fin 12 := 1;
     let s : State := State.reset |>.set (pACQ k) (ACQ.SEQ_CFG_EN c) 1 |>.set (pACQ k) (ACQ.TRIG1_SRC c) 5
         |>.setReg (seqWordAt k c 0 1).1 (seqWordAt k c 0 1).2 (2 ^ 31);
     let j : Fin 2 := 1;
     let x : ConvX := s.conv k.val c.val;
     List.find? (fun e => decide (x.since j.val ≤ e.1 ∧ e.1 ≤ s.beam.t)) (s.trigEvents k.val c.val j.val) = none) ∧
    (let k : Fin 4 := 1;
     let c : Fin 12 := 1;
     let s : State := State.reset |>.set (pACQ k) (ACQ.SEQ_CFG_EN c) 1 |>.setReg (seqWordAt k c 0 1).1
         (seqWordAt k c 0 1).2 (2 ^ 31);
     let e : TrigAt := ⟨1, 0, 0⟩;
     let x : ConvX := s.conv k.val c.val;
     s.seqEn k.val c.val = true ∧ s.seqWaits k.val c.val = true ∧
     waitTakes (s.seqWait k.val c.val x.pos) e.src = true) ∧
    (let k : Fin 4 := 1;
     let c : Fin 12 := 1;
     let s : State := State.reset |>.set (pACQ k) (ACQ.SEQ_CFG_EN c) 1;
     let x : ConvX := s.conv k.val c.val;
     s.seqEn k.val c.val = true ∧ s.seqWaits k.val c.val = false ∧ x.pend = []) ∧
    (let w : Writer := .spc;
     let k : Fin 4 := 1;
     let c : Fin 12 := 1;
     let s : State := State.reset |>.set (pACQ k) (ACQ.TRIG0_SRC c) 5;
     let p : Nat := pACQ k.val;
     s.mayAct w p ∧ s.trigSrc k.val c.val 0 = 5 ∧ s.trigSrc k.val c.val 1 ≠ 5) ∧
    (let w : Writer := .spc;
     let k : Fin 4 := 1;
     let s : State := State.reset;
     let v : Word := 0x00000C00;
     let p : Nat := pACQ k.val;
     s.mayAct w p ∧ BitVec.getLsbD v 31 = false) ∧
    (let w : Writer := .spc;
     let k : Fin 4 := 1;
     let s : State := State.reset;
     let v : Word := 0x80000C00;
     let p : Nat := pACQ k.val;
     s.mayAct w p ∧ BitVec.getLsbD v 31 = true ∧ 12 ≤ bitsOf (BitVec.toNat v) 11 8) ∧
    (let w : Writer := .spc;
     let k : Fin 4 := 1;
     let c : Fin 12 := 11;
     let s : State := State.reset |>.setConv k c { urg := List.replicate 4 ⟨0, 1, 0, false, 0⟩ };
     let v : Word := 0x80000B00;
     let p : Nat := pACQ k.val;
     let x : ConvX := s.conv k.val c.val;
     s.mayAct w p ∧ BitVec.getLsbD v 31 = true ∧ bitsOf (BitVec.toNat v) 11 8 < 12 ∧ 4 ≤ x.urg.length) ∧
    (let w : Writer := .spc;
     let k : Fin 4 := 1;
     let c : Fin 12 := 11;
     let s : State := State.reset |>.setConv k c { urg := List.replicate 3 ⟨0, 1, 0, false, 0⟩ };
     let v : Word := 0x80000B00;
     let p : Nat := pACQ k.val;
     let x : ConvX := s.conv k.val c.val;
     s.mayAct w p ∧ BitVec.getLsbD v 31 = true ∧ bitsOf (BitVec.toNat v) 11 8 < 12 ∧ x.urg.length < 4) ∧
    (let k : Fin 4 := 1;
     let c : Fin 12 := 1;
     let s : State := State.reset |>.setConv k c { ready := false };
     let x : ConvX := s.conv k.val c.val;
     (x.cur ≠ none ∨ x.ready = false)) ∧
    (let k : Fin 4 := 1;
     let c : Fin 12 := 1;
     let u : UrgReq := ⟨0, 1, 0, false, 5⟩;
     let r : List UrgReq := [];
     let s : State := State.reset |>.setConv k c { urg := u :: r, ready := true };
     let x : ConvX := s.conv k.val c.val;
     let due : Option Nat := Option.map (fun e => max (max e.1 e.2) x.free) (s.seqInstant k.val c.val);
     x.cur = none ∧ x.ready = true ∧ x.urg = u :: r ∧ Option.any (fun t => decide (t < u.t)) due = false ∧
     s.gridNow < max x.free u.t) ∧
    (let k : Fin 4 := 1;
     let c : Fin 12 := 1;
     let u : UrgReq := ⟨0, 1, 0, false, 0⟩;
     let r : List UrgReq := [];
     let s : State := State.reset |>.setConv k c { urg := u :: r, ready := true };
     let x : ConvX := s.conv k.val c.val;
     let due : Option Nat := Option.map (fun e => max (max e.1 e.2) x.free) (s.seqInstant k.val c.val);
     x.cur = none ∧ x.ready = true ∧ x.urg = u :: r ∧ Option.any (fun t => decide (t < u.t)) due = false ∧
     max x.free u.t ≤ s.gridNow) ∧
    (let k : Fin 4 := 1;
     let c : Fin 12 := 1;
     let u : UrgReq := ⟨0, 1, 0, false, 5⟩;
     let r : List UrgReq := [];
     let s : State := State.reset |>.setConv k c { urg := u :: r, ready := true } |>.set (pACQ k)
         (ACQ.SEQ_CFG_EN c) 1;
     let e : Nat × Nat := ((s.seqInstant k c).getD (0, 0));
     let x : ConvX := s.conv k.val c.val;
     let due : Option Nat := Option.map (fun e => max (max e.1 e.2) x.free) (s.seqInstant k.val c.val);
     x.cur = none ∧ x.ready = true ∧ x.urg = u :: r ∧ s.seqInstant k.val c.val = some e ∧
     Option.any (fun t => decide (t < u.t)) due = true) ∧
    (let k : Fin 4 := 1;
     let c : Fin 12 := 1;
     let s : State := State.reset |>.setConv k c { ready := true, free := 9 } |>.set (pACQ k) (ACQ.SEQ_CFG_EN
         c) 1;
     let e : Nat × Nat := ((s.seqInstant k c).getD (0, 0));
     let x : ConvX := s.conv k.val c.val;
     x.cur = none ∧ x.ready = true ∧ x.urg = [] ∧ s.seqInstant k.val c.val = some e ∧
     s.gridNow < max (max e.1 e.2) x.free) ∧
    (let k : Fin 4 := 1;
     let c : Fin 12 := 1;
     let s : State := State.reset |>.setConv k c { ready := true } |>.set (pACQ k) (ACQ.SEQ_CFG_EN c) 1;
     let e : Nat × Nat := ((s.seqInstant k c).getD (0, 0));
     let x : ConvX := s.conv k.val c.val;
     x.cur = none ∧ x.ready = true ∧ x.urg = [] ∧ s.seqInstant k.val c.val = some e ∧
     max (max e.1 e.2) x.free ≤ s.gridNow) ∧
    (let k : Fin 4 := 1;
     let c : Fin 12 := 1;
     let s : State := State.reset |>.setConv k c { ready := true };
     let x : ConvX := s.conv k.val c.val;
     x.cur = none ∧ x.ready = true ∧ x.urg = [] ∧ s.seqInstant k.val c.val = none) ∧
    (let k : Fin 4 := 1;
     let c : Fin 12 := 1;
     let s : State := State.reset |>.set (pACQ k) (ACQ.SEQ_CFG_EN c) 1 |>.set (pACQ k) (ACQ.SEQ_CFG_LEN c) 2;
     let e : Fin 64 := 1;
     let i : Fin 2 := 1;
     s.pageRests (seqWordAt k.val c.val e.val i.val).1 = false ∧ s.seqActive k.val c.val e.val = true) ∧
    (let w : Writer := .spc;
     let k : Fin 4 := 1;
     let c : Fin 12 := 1;
     let s : State := State.reset;
     let e : Fin 64 := 1;
     let i : Fin 2 := 1;
     let p : Nat := pACQ k.val;
     s.pageRests (seqWordAt k.val c.val e.val i.val).1 = false ∧ s.seqActive k.val c.val e.val = false ∧
     s.leasedByOther w p = false) ∧
    (let k : Fin 4 := 1;
     let s : State := State.reset |>.set (pFDC k) ⟨FDC.CAL_CTL, 0, 0⟩ 0;
     let v : Conv := { convOf 255 with t := 0 };
     v.slot < 256 ∧ bitOf (s.filtReg k.val v.slot 0) 31 = false) ∧
    (let l : List Int := [-32768, 0, 32767];
     l ≠ [] ∧ (∀ x ∈ l, -32768 ≤ x ∧ x ≤ 32767)) ∧
    (let a : List Int := [32767];
     let x : Int := -32769;
     let b : List Int := [];
     let l : List Int := a ++ x :: b;
     l ≠ [] ∧ (∀ y ∈ a, -32768 ≤ y ∧ y ≤ 32767) ∧ (x < -32768 ∨ 32767 < x)) := by
  refine ⟨?_, ?_, ?_, ?_, ?_, ?_, ?_, ?_, ?_, ?_, ?_, ?_, ?_, ?_, ?_, ?_, ?_, ?_, ?_, ?_, ?_⟩ <;> decide +kernel

/-- Hypotheses of PowerAndCaptures are met, clause by clause. -/
theorem witness_PowerAndCaptures :
    (let k : Fin 4 := 1;
     let c : Fin 12 := 1;
     let v : Conv := { convOf 0 with t := 0 };
     let s : State := State.reset |>.setConv k c { cur := some v };
     let x : ConvX := s.conv k.val c.val;
     x.cur = some v ∧ (c ≠ 0 ∨ s.injArmed (pACQ k.val) 1 = false)) ∧
    (let k : Fin 4 := 1;
     let c : Fin 12 := 1;
     let s : State := State.reset |>.set (pACQ k) (ACQ.SEQ_CFG_EN c) 1 |>.set (pFDC k) ⟨FDC.CAL_CTL, 0, 0⟩ 1
         |>.setConv k c { ready := true } |>.setReg (seqWordAt k c 0 1).1 (seqWordAt k c 0 1).2 (2 ^ 31);
     let x : ConvX := s.conv k.val c.val;
     s.calOn k.val = true ∧ s.convAwake k.val c.val = true ∧ x.ready = true ∧ x.cur = none ∧ x.urg = [] ∧
     s.calFits k.val c.val = true ∧ x.slices.length = 4) ∧
    (let k : Fin 4 := 1;
     let c : Fin 12 := 1;
     let s : State := State.reset |>.set (pACQ k) (ACQ.SEQ_CFG_EN c) 1 |>.set (pFDC k) ⟨FDC.CAL_CTL, 0, 0⟩ 1
         |>.setConv k c { ready := true };
     let x : ConvX := s.conv k.val c.val;
     (s.calOn k.val = false ∨ s.convAwake k.val c.val = false ∨ x.ready = false ∨ x.cur ≠ none ∨ x.urg ≠ [] ∨ s.calFits k.val c.val = false)) ∧
    (let k : Fin 4 := 1;
     let c : Fin 12 := 1;
     let s : State := State.reset;
     s.convAwake k.val c.val = false) ∧
    (let k : Fin 4 := 1;
     let c : Fin 12 := 1;
     let s : State := State.reset |>.setConv k c { napping := true };
     let x : ConvX := s.conv k.val c.val;
     x.napping = true) ∧
    (let k : Fin 4 := 1;
     let c : Fin 12 := 1;
     let s : State := State.reset;
     let x : ConvX := s.conv k.val c.val;
     x.napping = false ∧ (s.convAwake k.val c.val = false ∨ x.ready = true)) ∧
    (let k : Fin 4 := 1;
     let c : Fin 12 := 1;
     let s : State := State.reset |>.set (pACQ k) (ACQ.SEQ_CFG_EN c) 1;
     let x : ConvX := s.conv k.val c.val;
     s.convAwake k.val c.val = true ∧ x.ready = false) ∧
    (let k : Fin 4 := 1;
     let d : Fin 2 := 1;
     let i : Nat := 2 * k.val + d.val;
     let s : State := State.reset |>.setDig i { ctl := 2 ^ 31, every := 1 };
     let y : DigX := s.dig i;
     y.en = true ∧ y.ready = false ∧
     (if y.timed = true then y.timeNs < 1000000000 ∧ (y.timeNs * 256 + 256000000000 - s.beam.t % 256000000000) % 256000000000 ≤ 5120000 else y.everyN ≤ y.count + 16)) ∧
    (let k : Fin 4 := 1;
     let d : Fin 2 := 1;
     let i : Nat := 2 * k.val + d.val;
     let s : State := State.reset |>.setDig i { ready := true };
     let y : DigX := s.dig i;
     (y.en = false ∨ y.ready = true ∨ y.timed = false ∧ y.count + 16 < y.everyN)) ∧
    (let k : Fin 4 := 1;
     let d : Fin 2 := 1;
     let i : Nat := 2 * k.val + d.val;
     let s : State := State.reset |>.setDig (2 * k + d) { waking := true };
     let y : DigX := s.dig i;
     y.waking = true) ∧
    (let k : Fin 4 := 1;
     let s : State := State.reset;
     let d : Fin 2 := 1;
     let i : Nat := 2 * k.val + d.val;
     let y : DigX := s.dig i;
     y.waking = false) ∧
    (let k : Fin 4 := 1;
     let d : Fin 2 := 1;
     let r : Fin 6 := 1;
     let q : Fin 12 := 1;
     let on : Bool := true;
     let t : Nat := 40000;
     let i : Nat := 2 * k.val + d.val;
     let s : State := State.reset |>.setDig i { ctl := 2 ^ 31 + r * 2 ^ 23 + q * 2 ^ 19 };
     let x : DigX := s.dig i;
     let level : Nat := bitsOf x.ctl 27 26;
     let rec_ : CapRec := { seq := 0, edge := t * 40, trip := false, withdrawn := false, timed := false,
                            life := bitOf x.ctl 30, rod := k.val * 6 + r.val, pos := q.val,
                            level := if on = true then 1 else 2, input := bitsOf x.ctl 15 10, dig := d.val,
                            count := 1000 + x.post * 1000, samples := [], base := 0, f0 := 0, f1 := 0, f2 := 0,
                            fvalid := 0, done := false };
     x.en = true ∧ x.timed = false ∧ bitsOf x.ctl 25 23 = r.val ∧ bitsOf x.ctl 22 19 = q.val ∧
     (level = 0 ∨ level = 3 ∨ level = 1 ∧ on = true ∨ level = 2 ∧ on = false) ∧ x.waits = [] ∧
     s.beam.t < rec_.start) ∧
    (let k : Fin 4 := 1;
     let d : Fin 2 := 1;
     let r : Fin 6 := 1;
     let q : Fin 12 := 1;
     let on : Bool := true;
     let t : Nat := 1;
     let i : Nat := 2 * k.val + d.val;
     let s : State := State.reset |>.setDig i { ctl := 2 ^ 31 + r * 2 ^ 23 + q * 2 ^ 19, ready := true,
                                                every := 2 };
     let x : DigX := s.dig i;
     let level : Nat := bitsOf x.ctl 27 26;
     let rec_ : CapRec := { seq := 0, edge := t * 40, trip := false, withdrawn := false, timed := false,
                            life := bitOf x.ctl 30, rod := k.val * 6 + r.val, pos := q.val,
                            level := if on = true then 1 else 2, input := bitsOf x.ctl 15 10, dig := d.val,
                            count := 1000 + x.post * 1000, samples := [], base := 0, f0 := 0, f1 := 0, f2 := 0,
                            fvalid := 0, done := false };
     x.en = true ∧ x.timed = false ∧ bitsOf x.ctl 25 23 = r.val ∧ bitsOf x.ctl 22 19 = q.val ∧
     (level = 0 ∨ level = 3 ∨ level = 1 ∧ on = true ∨ level = 2 ∧ on = false) ∧ x.waits = [] ∧
     rec_.start ≤ s.beam.t ∧ x.ready = true ∧ x.caps = [] ∧ x.count < x.everyN) ∧
    (let k : Fin 4 := 1;
     let d : Fin 2 := 1;
     let r : Fin 6 := 1;
     let q : Fin 12 := 1;
     let on : Bool := true;
     let t : Nat := 1;
     let i : Nat := 2 * k.val + d.val;
     let s : State := State.reset |>.setDig i { ctl := 2 ^ 31 + r * 2 ^ 23 + q * 2 ^ 19 };
     let x : DigX := s.dig i;
     let level : Nat := bitsOf x.ctl 27 26;
     let rec_ : CapRec := { seq := 0, edge := t * 40, trip := false, withdrawn := false, timed := false,
                            life := bitOf x.ctl 30, rod := k.val * 6 + r.val, pos := q.val,
                            level := if on = true then 1 else 2, input := bitsOf x.ctl 15 10, dig := d.val,
                            count := 1000 + x.post * 1000, samples := [], base := 0, f0 := 0, f1 := 0, f2 := 0,
                            fvalid := 0, done := false };
     x.en = true ∧ x.timed = false ∧ bitsOf x.ctl 25 23 = r.val ∧ bitsOf x.ctl 22 19 = q.val ∧
     (level = 0 ∨ level = 3 ∨ level = 1 ∧ on = true ∨ level = 2 ∧ on = false) ∧ x.waits = [] ∧
     rec_.start ≤ s.beam.t ∧ x.ready = false) ∧
    (let k : Fin 4 := 1;
     let d : Fin 2 := 1;
     let r : Fin 6 := 1;
     let q : Fin 12 := 1;
     let i : Nat := 2 * k.val + d.val;
     let s : State := State.reset |>.setDig i { };
     let x : DigX := s.dig i;
     (x.en = false ∨ x.timed = true ∨ bitsOf x.ctl 25 23 ≠ r.val ∨ bitsOf x.ctl 22 19 ≠ q.val)) ∧
    (let k : Fin 4 := 1;
     let d : Fin 2 := 1;
     let u : Nat := 512000;
     let i : Nat := 2 * k.val + d.val;
     let s : State := State.reset |>.setDig i { ctl := 2 ^ 31 + 2 ^ 28, timeNs := 2000 } |>.setBeam
         { t := 600000 };
     let x : DigX := s.dig i;
     s.instantOf x.timeNs = some u ∧ x.en = true ∧ x.timed = true ∧ x.caps = [] ∧ x.armedAt < u) ∧
    (let k : Fin 4 := 1;
     let d : Fin 2 := 1;
     let i : Nat := 2 * k.val + d.val;
     let s : State := State.reset |>.setDig i { timeNs := 2000 };
     let x : DigX := s.dig i;
     (s.instantOf x.timeNs = none ∨ x.en = false ∨ x.timed = false)) ∧
    (let k : Fin 4 := 1;
     let d : Fin 2 := 1;
     let r : CapRec := capRec;
     let i : Nat := 2 * k.val + d.val;
     let s : State := State.reset |>.setDig i { caps := [r] };
     let x : DigX := s.dig i;
     x.caps = [r]) ∧
    (let k : Fin 4 := 1;
     let d : Fin 2 := 1;
     let r : CapRec := { capRec with dig := 1 };
     let s : State := State.reset |>.setCapBuf k [r];
     s.capBuf k.val = [r] ∧ r.done = false ∧ r.dig = d.val ∧ r.life = false) ∧
    (let k : Fin 4 := 1;
     let r : CapRec := { capRec with done := true };
     let rest : List CapRec := [];
     let p : Nat := pTDIG k.val;
     let s : State := State.reset |>.set p TDIG.DRAIN_CTL_EN 1 |>.setReg p TDIG.DRAIN_SIZE 1 |>.setCapBuf k [r];
     let size : Nat := s.reg p TDIG.DRAIN_SIZE % 65536 * 65536;
     let wr : Nat := s.reg p TDIG.DRAIN_WR;
     s.capBuf k.val = r :: rest ∧ r.done = true ∧ s.flag p TDIG.DRAIN_CTL_EN = true ∧ wr + r.len ≤ size ∧
     (wr + size - s.reg p TDIG.DRAIN_RD) % size + r.len < size) := by
  refine ⟨?_, ?_, ?_, ?_, ?_, ?_, ?_, ?_, ?_, ?_, ?_, ?_, ?_, ?_, ?_, ?_, ?_, ?_, ?_, ?_⟩ <;> decide +kernel

/-- Hypotheses of Loops are met, clause by clause. -/
theorem witness_Loops :
    (let w : Writer := .spc;
     let n : Fin 24 := 1;
     let s : State := State.reset;
     let p : Nat := pLOOP n.val;
     s.mayAct w p ∧ s.flag p LOOP.LRN_CTL_EN = false ∧ s.get p LOOP.MSTAT_ASRC ≠ 4 ∧
     (s.en p = false ∨ s.machMode n.val = false)) ∧
    (let w : Writer := .spc;
     let n : Fin 24 := 1;
     let p : Nat := pLOOP n.val;
     let s : State := State.reset |>.set p LOOP.LRN_CTL_EN 1;
     s.mayAct w p ∧ s.flag p LOOP.LRN_CTL_EN = true) ∧
    (let w : Writer := .spc;
     let n : Fin 24 := 1;
     let p : Nat := pLOOP n.val;
     let s : State := State.reset |>.set p PG.CTL_EN 1 |>.set (pROD n) ROD.CFG_MODE 1;
     s.mayAct w p ∧ s.get p LOOP.MSTAT_ASRC ≠ 4 ∧ s.en p = true ∧ s.machMode n.val = true) ∧
    (let w : Writer := .spc;
     let n : Fin 24 := 1;
     let p : Nat := pLOOP n.val;
     let s : State := State.reset |>.set p LOOP.MSTAT_ASRC 4;
     s.mayAct w p ∧ s.get p LOOP.MSTAT_ASRC = 4) ∧
    (let n : Fin 24 := 1;
     let s : State := State.reset |>.setLoop n { marks := [1], run := some loopIn };
     let t0 : Nat := 1;
     let r : List Nat := [];
     let x : LoopX := s.loop n.val;
     x.marks = t0 :: r ∧ x.run ≠ none) ∧
    (let n : Fin 24 := 1;
     let s : State := State.reset |>.setLoop n { run := some loopIn };
     let x : LoopX := s.loop n.val;
     x.marks = []) ∧
    (let n : Fin 24 := 1;
     let q : LoopIn := loopIn;
     let p : Nat := pLOOP n.val;
     let s : State := State.reset |>.setLoop n { run := some q } |>.setReg p LOOP.VDC_MIN 0x3F800000;
     let x : LoopX := s.loop n.val;
     let s1 : State := (((s.setLoop n.val { x with run := none }).set p LOOP.STAT_RUNNING 0).setLp n.val
         LOOP.RUN_TIME (min ((s.beam.t - q.t0) / 256) 4095)).ev p 16;
     let t : State := ((s1.runBody n q).getD s);
     x.run = some q ∧ s1.runBody n.val q = some t) ∧
    (let n : Fin 24 := 1;
     let q : LoopIn := loopIn;
     let p : Nat := pLOOP n.val;
     let s : State := State.reset |>.setLoop n { run := some q } |>.setReg p LOOP.KP 0x7FC00000;
     let x : LoopX := s.loop n.val;
     let s1 : State := (((s.setLoop n.val { x with run := none }).set p LOOP.STAT_RUNNING 0).setLp n.val
         LOOP.RUN_TIME (min ((s.beam.t - q.t0) / 256) 4095)).ev p 16;
     x.run = some q ∧ s1.runBody n.val q = none) ∧
    (let n : Fin 24 := 1;
     let s : State := State.reset;
     let x : LoopX := s.loop n.val;
     x.run = none) ∧
    (let n : Fin 24 := 1;
     let s : State := State.reset |>.set (pROD n.val) ROD.STATUS_STATE stDESCENT |>.set (pROD n) ROD.CFG_MODE 1
         |>.setRod n { descFrames := 2 };
     s.rodSt n.val = stDESCENT ∧ s.descentOver n.val = true) ∧
    (let n : Fin 24 := 1;
     let s : State := State.reset |>.setRod n { quietFrames := 2 };
     (s.rodSt n.val ≠ stDESCENT ∨ s.descentOver n.val = false)) := by
  refine ⟨?_, ?_, ?_, ?_, ?_, ?_, ?_, ?_, ?_, ?_, ?_⟩ <;> decide +kernel

/-- Hypotheses of CellsAndImpedance are met, clause by clause. -/
theorem witness_CellsAndImpedance :
    (let s : State := ({ State.reset with cea := { running := some 0 } }).set pCEA PG.CTL_EN 1;
     let at_ : Nat := s.beam.t / s.roundPer * s.roundPer;
     let x : CeaX := s.cea;
     (s.en pCEA = false ∨ dvREST ≤ s.dev ∨ at_ = x.due)) ∧
    (let s : State := State.reset |>.set pCEA PG.CTL_EN 1 |>.setCea { running := some 0 } |>.setBeam
         { t := 512000000000 };
     let at_ : Nat := s.beam.t / s.roundPer * s.roundPer;
     let x : CeaX := s.cea;
     s.en pCEA = true ∧ s.dev < dvREST ∧ at_ ≠ x.due ∧ x.running ≠ none) ∧
    (let s : State := State.reset |>.set pCEA PG.CTL_EN 1 |>.setBeam { t := 512000000000 };
     let at_ : Nat := s.beam.t / s.roundPer * s.roundPer;
     let x : CeaX := s.cea;
     s.en pCEA = true ∧ s.dev < dvREST ∧ at_ ≠ x.due ∧ x.running = none ∧ x.cmds = []) ∧
    (let s : State := State.reset |>.set pCEA PG.CTL_EN 1 |>.setBeam { t := 512000000000 };
     let r : Nat := 1;
     let at_ : Nat := s.beam.t / s.roundPer * s.roundPer;
     let x : CeaX := s.cea;
     s.en pCEA = true ∧ s.dev < dvREST ∧ at_ ≠ x.due ∧ x.running = none ∧ r < 24) ∧
    (let s : State := State.reset |>.setCea { running := some 1 } |>.set pCEA PG.CTL_EN 1;
     let start : Nat := 1;
     let x : CeaX := s.cea;
     let cells : List Nat := List.flatMap s.rodCells allRods;
     let s1 : State := List.foldl (fun t c => t.updateCell start c) (s.setCea { x with running := none }) cells;
     let s2 : State := List.foldl State.rodRound s1 allRods;
     let n : Nat → Nat := fun b => min (List.filter (fun c => (s2.cell c).flag b) cells).length 65535;
     let s3 : State := (((s2.setReg pCEA CEA.CELL_CNT (n 2 * 65536 + n 1)).set pCEA
         { off := CEA.STAT, hi := 7, lo := 0 } s2.cea.rounds).setReg pCEA CEA.ROUND_TIME (min ((s2.beam.t -
           start) / 256000) 65535)).ev pCEA 16;
     let s4 : State := if s3.flag pCEA CEA.CTL_SNAP_EN = true then s3.snapshot cells else s3;
     x.running = some start ∧ s4.en pCEA = true) ∧
    (let start : Nat := 1;
     let s : State := ({ State.reset with cea := { running := some start } }).set pCEA PG.STAT_SHUTTING 1;
     let x : CeaX := s.cea;
     let cells : List Nat := List.flatMap s.rodCells allRods;
     let s1 : State := List.foldl (fun t c => t.updateCell start c) (s.setCea { x with running := none }) cells;
     let s2 : State := List.foldl State.rodRound s1 allRods;
     let n : Nat → Nat := fun b => min (List.filter (fun c => (s2.cell c).flag b) cells).length 65535;
     let s3 : State := (((s2.setReg pCEA CEA.CELL_CNT (n 2 * 65536 + n 1)).set pCEA
         { off := CEA.STAT, hi := 7, lo := 0 } s2.cea.rounds).setReg pCEA CEA.ROUND_TIME (min ((s2.beam.t -
           start) / 256000) 65535)).ev pCEA 16;
     let s4 : State := if s3.flag pCEA CEA.CTL_SNAP_EN = true then s3.snapshot cells else s3;
     x.running = some start ∧ s4.en pCEA = false ∧ s4.flag pCEA PG.STAT_SHUTTING = true) ∧
    (let s : State := State.reset |>.setCea { running := some 1 };
     let start : Nat := 1;
     let x : CeaX := s.cea;
     let cells : List Nat := List.flatMap s.rodCells allRods;
     let s1 : State := List.foldl (fun t c => t.updateCell start c) (s.setCea { x with running := none }) cells;
     let s2 : State := List.foldl State.rodRound s1 allRods;
     let n : Nat → Nat := fun b => min (List.filter (fun c => (s2.cell c).flag b) cells).length 65535;
     let s3 : State := (((s2.setReg pCEA CEA.CELL_CNT (n 2 * 65536 + n 1)).set pCEA
         { off := CEA.STAT, hi := 7, lo := 0 } s2.cea.rounds).setReg pCEA CEA.ROUND_TIME (min ((s2.beam.t -
           start) / 256000) 65535)).ev pCEA 16;
     let s4 : State := if s3.flag pCEA CEA.CTL_SNAP_EN = true then s3.snapshot cells else s3;
     x.running = some start ∧ s4.en pCEA = false ∧ s4.flag pCEA PG.STAT_SHUTTING = false) ∧
    (let w : Writer := .spc;
     let s : State := State.reset;
     s.mayAct w pCEA ∧ s.mayAct w pEIS) ∧
    (let r : Fin 24 := 1;
     let s : State := State.reset |>.set pEIS PG.CTL_EN 1 |>.setEisX r { due := true, idleSince := some 0 }
         |>.setBeam { t := 5000 * unitsMs };
     s.en pEIS = true ∧ s.eisReady r.val = true ∧ (∀ q : Fin 24, s.eisSt ↑q = esIDLE) ∧
     (∀ q : Fin 24, s.eisReady ↑q = true → s.reg pEIS (EIS.LAST_SEC r.val) < s.reg pEIS (EIS.LAST_SEC ↑q) ∨ s.reg pEIS (EIS.LAST_SEC r.val) = s.reg pEIS (EIS.LAST_SEC ↑q) ∧ r.val ≤ ↑q) ∧
     s.rodMods r.val = []) ∧
    (let r : Fin 24 := 1;
     let s : State := State.reset |>.setEisX r { due := true, idleSince := some 0 } |>.setBeam
         { t := 5000 * unitsMs };
     (s.en pEIS = false ∨ s.eisReady r.val = false)) ∧
    (let r : Fin 24 := 1;
     let s : State := State.reset |>.set pEIS (EIS.RSTAT_STATE r.val) esPLAN |>.setEisX r { t0 := 1000000000 };
     let x : EisX := s.eisX r.val;
     x.why = 0 ∧ s.eisSt r.val = esPLAN ∧ s.beam.t < x.t0 * 256 - 50 * unitsMs) ∧
    (let r : Fin 24 := 1;
     let s : State := State.reset |>.set pEIS (EIS.RSTAT_STATE r.val) esPLAN;
     let x : EisX := s.eisX r.val;
     x.why = 0 ∧ s.eisSt r.val = esPLAN ∧ x.t0 * 256 - 50 * unitsMs ≤ s.beam.t ∧
     ((s.rodMods r.val).all fun m => x.acks.contains m) = true) ∧
    (let r : Fin 24 := 1;
     let s : State := State.reset |>.set pEIS (EIS.RSTAT_STATE r.val) esPLAN |>.setReg pCEA (CEA.MOD_CFG 16)
         0x80018001;
     let x : EisX := s.eisX r.val;
     x.why = 0 ∧ s.eisSt r.val = esPLAN ∧ x.t0 * 256 - 50 * unitsMs ≤ s.beam.t ∧
     ((s.rodMods r.val).all fun m => x.acks.contains m) = false) ∧
    (let r : Fin 24 := 1;
     let s : State := State.reset |>.set pEIS (EIS.RSTAT_STATE r.val) esSETTLE |>.setEisX r
         { t0 := 1000000000 };
     let x : EisX := s.eisX r.val;
     x.why = 0 ∧ s.eisSt r.val = esSETTLE ∧ s.beam.t < x.t0 * 256 ∧ s.beam.t < x.t0 * 256 + eisPeriod) ∧
    (let r : Fin 24 := 1;
     let s : State := State.reset |>.set pEIS (EIS.RSTAT_STATE r.val) esSETTLE;
     let x : EisX := s.eisX r.val;
     x.why = 0 ∧ s.eisSt r.val = esSETTLE ∧ x.t0 * 256 ≤ s.beam.t) ∧
    (let r : Fin 24 := 1;
     let s : State := State.reset |>.set pEIS (EIS.RSTAT_STATE r.val) esSETTLE |>.setBeam { t := eisPeriod };
     let x : EisX := s.eisX r.val;
     x.why = 0 ∧ s.eisSt r.val = esSETTLE ∧ x.t0 * 256 + eisPeriod ≤ s.beam.t) ∧
    (let r : Fin 24 := 1;
     let s : State := State.reset |>.set pEIS (EIS.RSTAT_STATE r.val) esMEASURE |>.setEisX r
         { t0 := 1000000000 };
     let x : EisX := s.eisX r.val;
     x.why = 0 ∧ s.eisSt r.val = esMEASURE ∧ s.beam.t < x.t0 * 256 + (1 + s.eisNper) * eisPeriod) ∧
    (let r : Fin 24 := 1;
     let s : State := State.reset |>.set pEIS (EIS.RSTAT_STATE r.val) esMEASURE |>.setBeam
         { t := 3 * eisPeriod };
     let x : EisX := s.eisX r.val;
     x.why = 0 ∧ s.eisSt r.val = esMEASURE ∧ x.t0 * 256 + (1 + s.eisNper) * eisPeriod ≤ s.beam.t) ∧
    (let r : Fin 24 := 1;
     let s : State := State.reset |>.set pEIS (EIS.RSTAT_STATE r.val) esPLAN |>.setEisX r { why := 1 };
     let x : EisX := s.eisX r.val;
     x.why ≠ 0 ∧ s.eisSt r.val = esPLAN) ∧
    (let r : Fin 24 := 1;
     let s : State := State.reset |>.set pEIS (EIS.RSTAT_STATE r.val) esSETTLE |>.setEisX r { why := 1 };
     let x : EisX := s.eisX r.val;
     x.why ≠ 0 ∧ s.eisSt r.val = esSETTLE) ∧
    (let r : Fin 24 := 1;
     let s : State := State.reset |>.set pEIS (EIS.RSTAT_STATE r.val) esMEASURE |>.setEisX r { why := 1 };
     let x : EisX := s.eisX r.val;
     x.why ≠ 0 ∧ s.eisSt r.val = esMEASURE) ∧
    (let r : Fin 24 := 1;
     let s : State := State.reset |>.set pEIS (EIS.RSTAT_STATE r.val) esCOLLECT |>.setEisX r
         { t0 := 1000000000 };
     let x : EisX := s.eisX r.val;
     s.eisSt r.val = esCOLLECT ∧ s.beam.t < x.t0 * 256 + (1 + s.eisNper) * eisPeriod + 5000 * unitsMs) ∧
    (let r : Fin 24 := 1;
     let s : State := State.reset |>.set pEIS (EIS.RSTAT_STATE r.val) esCOLLECT |>.setBeam
         { t := 3 * eisPeriod + 5000 * unitsMs };
     let x : EisX := s.eisX r.val;
     s.eisSt r.val = esCOLLECT ∧ x.t0 * 256 + (1 + s.eisNper) * eisPeriod + 5000 * unitsMs ≤ s.beam.t) ∧
    (let w : Writer := .spc;
     let k : Fin 32 := 1;
     let s : State := State.reset |>.set (pRECK k.val) RECK.STATUS_STATE rkSTOPPED;
     let p : Nat := pRECK k.val;
     let quiet : Nat → Prop := fun p => s.leasedByOther w p = false ∧ (s.pg p).enWait = none ∧ s.get p
         PG.CTL_PWR_REQ = 0 ∧ s.get p PG.CTL_DISCARD = 0 ∧ s.get p PG.CTL_LEASE_REQ = 0 ∧ s.get p
           PG.CTL_LEASE_REL = 0;
     let spare : Prop := k.val = 31 ∧ (s.rotation = true ∨ s.flag p RECK.STATUS_SPARE = true);
     let calm : Nat → Prop := fun p => s.flag p PG.STAT_SHUTTING = false;
     s.dom Dom.rd = DomSt.active ∧ quiet p ∧ calm p ∧ s.rkSt k.val = rkSTOPPED ∧ ¬spare ∧ k.val < s.bist.cores ∧
     s.bist.slot = none ∧ (s.vsm k.val).whole = false) ∧
    (let w : Writer := .spc;
     let k : Fin 32 := 1;
     let s : State := State.reset |>.set (pRECK k.val) RECK.STATUS_STATE rkFATAL;
     let p : Nat := pRECK k.val;
     let quiet : Nat → Prop := fun p => s.leasedByOther w p = false ∧ (s.pg p).enWait = none ∧ s.get p
         PG.CTL_PWR_REQ = 0 ∧ s.get p PG.CTL_DISCARD = 0 ∧ s.get p PG.CTL_LEASE_REQ = 0 ∧ s.get p
           PG.CTL_LEASE_REL = 0;
     let calm : Nat → Prop := fun p => s.flag p PG.STAT_SHUTTING = false;
     s.dom Dom.rd = DomSt.active ∧ quiet p ∧ calm p ∧ s.rkSt k.val = rkFATAL) ∧
    (let w : Writer := .spc;
     let k : Fin 32 := 31;
     let s : State := State.reset |>.set pBIST BIST.LB_CFG_EN 1;
     let p : Nat := pRECK k.val;
     let quiet : Nat → Prop := fun p => s.leasedByOther w p = false ∧ (s.pg p).enWait = none ∧ s.get p
         PG.CTL_PWR_REQ = 0 ∧ s.get p PG.CTL_DISCARD = 0 ∧ s.get p PG.CTL_LEASE_REQ = 0 ∧ s.get p
           PG.CTL_LEASE_REL = 0;
     let spare : Prop := k.val = 31 ∧ (s.rotation = true ∨ s.flag p RECK.STATUS_SPARE = true);
     let calm : Nat → Prop := fun p => s.flag p PG.STAT_SHUTTING = false;
     s.dom Dom.rd = DomSt.active ∧ quiet p ∧ calm p ∧ s.rkSt k.val ≠ rkFATAL ∧ (spare ∨ s.bist.cores ≤ k.val)) ∧
    (let w : Writer := .spc;
     let k : Fin 32 := 1;
     let p : Nat := pRECK k.val;
     let s : State := State.reset |>.set p PG.STAT_SHUTTING 1;
     let quiet : Nat → Prop := fun p => s.leasedByOther w p = false ∧ (s.pg p).enWait = none ∧ s.get p
         PG.CTL_PWR_REQ = 0 ∧ s.get p PG.CTL_DISCARD = 0 ∧ s.get p PG.CTL_LEASE_REQ = 0 ∧ s.get p
           PG.CTL_LEASE_REL = 0;
     s.dom Dom.rd = DomSt.active ∧ quiet p ∧ s.flag p PG.STAT_SHUTTING = true) ∧
    (let w : Writer := .spc;
     let k : Fin 32 := 1;
     let s : State := State.reset |>.set (pRECK k.val) RECK.STATUS_STATE rkRUN;
     let p : Nat := pRECK k.val;
     let quiet : Nat → Prop := fun p => s.leasedByOther w p = false ∧ (s.pg p).enWait = none ∧ s.get p
         PG.CTL_PWR_REQ = 0 ∧ s.get p PG.CTL_DISCARD = 0 ∧ s.get p PG.CTL_LEASE_REQ = 0 ∧ s.get p
           PG.CTL_LEASE_REL = 0;
     s.dom Dom.rd = DomSt.active ∧ quiet p ∧ s.rkSt k.val = rkRUN) ∧
    (let w : Writer := .spc;
     let s : State := State.reset;
     let quiet : Nat → Prop := fun p => s.leasedByOther w p = false ∧ (s.pg p).enWait = none ∧ s.get p
         PG.CTL_PWR_REQ = 0 ∧ s.get p PG.CTL_DISCARD = 0 ∧ s.get p PG.CTL_LEASE_REQ = 0 ∧ s.get p
           PG.CTL_LEASE_REL = 0;
     let calm : Nat → Prop := fun p => s.flag p PG.STAT_SHUTTING = false;
     s.dom Dom.rd = DomSt.active ∧ quiet pCEA ∧ calm pCEA ∧ s.en pCEA = false ∧ s.bufBad pCEA = false) := by
  refine ⟨?_, ?_, ?_, ?_, ?_, ?_, ?_, ?_, ?_, ?_, ?_, ?_, ?_, ?_, ?_, ?_, ?_, ?_, ?_, ?_, ?_, ?_, ?_, ?_, ?_,
    ?_, ?_, ?_, ?_⟩ <;> decide +kernel

/-- Hypotheses of BeadTraffic are met, clause by clause. -/
theorem witness_BeadTraffic :
    (let s : State := State.reset |>.set pBEADS BEADS.DEV_STAT_LSTATE lsHELD;
     let x : BeadX := s.bead;
     x.out = none ∧ (s.lstate = lsHELD ∨ s.lstate = lsRAMP) ∧ s.dev ≠ dvDEEP) ∧
    (let s : State := State.reset |>.set pBEADS BEADS.DEV_STAT_LSTATE lsNONE |>.set pBEADS PG.CTL_EN 1 |>.set
         pBEAM BEAM.STAT_LOCK 3 |>.setReg pBEADS BEADS.HOME_CFG 65536;
     let x : BeadX := s.bead;
     x.out = none ∧ s.lstate = lsNONE ∧ s.en pBEADS = true ∧ s.fineLock = true ∧ s.homesSet = true ∧
     s.dev ≠ dvDEEP) ∧
    (let s : State := State.reset |>.setBead { out := some renewOut } |>.set pBEADS BEADS.DEV_STAT_LSTATE
         lsREQUEST;
     let x : BeadX := s.bead;
     x.out ≠ none ∧ s.lstate ≠ lsNONE) ∧
    (let s : State := State.reset;
     let x : BeadX := s.bead;
     x.out = none ∧ s.lstate ≠ lsRAMP ∧ x.restore = none) ∧
    (let o : RenewOut := renewOut;
     let m : BeadAck := ackOf 0 1;
     let s : State := State.reset |>.setBead { out := some o };
     let x : BeadX := s.bead;
     x.out = some o ∧ m.rseq = o.rseq ∧ x.epoch ≤ m.hepoch ∧ m.code = 0 ∧ s.lstate ≠ lsRAMP) ∧
    (let o : RenewOut := renewOut;
     let m : BeadAck := ackOf 5 1;
     let s : State := State.reset |>.set pBEADS BEADS.DEV_STAT_LSTATE lsHELD |>.setBead { out := some o };
     let x : BeadX := s.bead;
     x.out = some o ∧ m.rseq = o.rseq ∧ x.epoch ≤ m.hepoch ∧ m.code = 5 ∧ s.lstate = lsHELD) ∧
    (let o : RenewOut := renewOut;
     let m : BeadAck := ackOf 0 1;
     let s : State := State.reset |>.set pBEADS BEADS.DEV_STAT_LSTATE lsRAMP |>.setBead { out := some o };
     let x : BeadX := s.bead;
     x.out = some o ∧ m.rseq = o.rseq ∧ x.epoch ≤ m.hepoch ∧ (m.code = 0 ∨ m.code = 5) ∧ s.lstate = lsRAMP) ∧
    (let src : Fin 4096 := 1;
     let o : RenewOut := renewOut;
     let m : BeadAck := ackOf 1 1;
     let s : State := State.reset |>.setBead { out := some o } |>.set pBEADS BEADS.DEV_STAT_LSTATE lsHELD;
     let x : BeadX := s.bead;
     let z : State := (s.setBead { x with out := none, epoch := m.hepoch }).set pBEADS BEADS.DEV_STAT_WAIT_ACK
         0;
     let y : State := if src.val = s.homeAddr false then z.set pBEADS BEADS.DEV_STAT_HOME_ALT 0 else if src.val
         = s.homeAddr true then z.set pBEADS BEADS.DEV_STAT_HOME_ALT 1 else z;
     x.out = some o ∧ m.rseq = o.rseq ∧ x.epoch ≤ m.hepoch ∧ m.code = 1 ∧
     (y.lstate = lsHELD ∨ y.lstate = lsRAMP)) ∧
    (let src : Fin 4096 := 1;
     let o : RenewOut := renewOut;
     let m : BeadAck := ackOf 3 1;
     let s : State := State.reset |>.setBead { out := some o } |>.set pBEADS BEADS.DEV_STAT_LSTATE lsREQUEST;
     let x : BeadX := s.bead;
     let z : State := (s.setBead { x with out := none, epoch := m.hepoch }).set pBEADS BEADS.DEV_STAT_WAIT_ACK
         0;
     let y : State := if src.val = s.homeAddr false then z.set pBEADS BEADS.DEV_STAT_HOME_ALT 0 else if src.val
         = s.homeAddr true then z.set pBEADS BEADS.DEV_STAT_HOME_ALT 1 else z;
     x.out = some o ∧ m.rseq = o.rseq ∧ x.epoch ≤ m.hepoch ∧ (m.code = 3 ∨ m.code = 4) ∧ y.lstate = lsREQUEST) ∧
    (let o : RenewOut := renewOut;
     let m : BeadAck := ackOf 2 1;
     let s : State := State.reset |>.setBead { out := some o };
     let x : BeadX := s.bead;
     x.out = some o ∧ m.rseq = o.rseq ∧ x.epoch ≤ m.hepoch ∧ m.code = 2) ∧
    (let o : RenewOut := renewOut;
     let m : BeadAck := ackOf 0 2;
     let s : State := State.reset |>.setBead { out := some o };
     let x : BeadX := s.bead;
     x.out = some o ∧ (m.rseq ≠ o.rseq ∨ m.hepoch < x.epoch)) ∧
    (let s : State := State.reset |>.set pBEADS BEADS.DEV_STAT_LSTATE lsLAPSED;
     let r : Fin 65536 := 1;
     s.lstate = lsLAPSED ∧ r.val = 1) ∧
    (let s : State := State.reset;
     let r : Fin 65536 := 1;
     (s.lstate ≠ lsLAPSED ∨ r.val ≠ 1)) ∧
    (let s : State := State.reset |>.set pBEADS BEADS.DEV_STAT_LSTATE lsHELD;
     s.lstate = lsHELD ∧ s.expiryUnits ≤ s.beam.t + s.rampUnits ∧ (s.lstate = lsHELD ∨ s.lstate = lsRAMP) ∧
     s.expiryUnits ≤ s.beam.t) ∧
    (let s : State := State.reset;
     (s.lstate ≠ lsHELD ∨ s.beam.t + s.rampUnits < s.expiryUnits) ∧
     (s.lstate ≠ lsHELD ∧ s.lstate ≠ lsRAMP ∨ s.beam.t < s.expiryUnits) ∧ s.role ≠ hrACTING ∧ s.isHome = false) ∧
    (let s : State := State.reset |>.set pBEADS BEADS.DEV_STAT_LSTATE lsRAMP;
     let x : BeadX := s.bead;
     (s.lstate = lsRAMP ∨ x.restore ≠ none)) ∧
    (let s : State := State.reset |>.set pBEADS BEADS.DEV_STAT_LSTATE lsLAPSED |>.setBeam { t := 50 * unitsMs };
     let unit_ : Nat := 50 * unitsMs;
     s.lstate = lsLAPSED ∧ s.expiryUnits + unit_ ≤ s.beam.t) ∧
    (let s : State := State.reset |>.setBeam { t := 50 * unitsMs };
     let unit_ : Nat := 50 * unitsMs;
     (s.lstate ≠ lsLAPSED ∨ s.beam.t < s.expiryUnits + unit_)) ∧
    (let s : State := State.reset |>.set pBEADS BEADS.HOME_STAT_ROLE hrACTING |>.set pBEAM BEAM.STAT_LOCK 3;
     let src : Fin 4096 := 1;
     let m : Renew := renew;
     let l : Ledger := s.home.work;
     s.role = hrACTING ∧ m.new = true ∧ m.fine = true ∧ s.fineLock = true ∧ l.entry src.val = none) ∧
    (let src : Fin 4096 := 1;
     let m : Renew := renew;
     let e : LedgerEntry := entryOf 10;
     let s : State := State.reset |>.set pBEADS BEADS.HOME_STAT_ROLE hrACTING |>.set pBEAM BEAM.STAT_LOCK 3
         |>.setHome { work := { leases := [(1, e)] } };
     let l : Ledger := s.home.work;
     s.role = hrACTING ∧ m.new = true ∧ l.entry src.val = some e ∧ e.boot = m.boot ∧ m.fine = true ∧
     s.fineLock = true) ∧
    (let src : Fin 4096 := 1;
     let m : Renew := { renew with fine := false };
     let e : LedgerEntry := entryOf 10;
     let s : State := State.reset |>.set pBEADS BEADS.HOME_STAT_ROLE hrACTING |>.setHome
         { work := { leases := [(1, e)] } };
     let l : Ledger := s.home.work;
     s.role = hrACTING ∧ m.new = true ∧ l.entry src.val = some e ∧ (m.fine = false ∨ s.fineLock = false)) ∧
    (let src : Fin 4096 := 1;
     let m : Renew := { renew with boot := 2 };
     let e : LedgerEntry := entryOf 10;
     let s : State := State.reset |>.set pBEADS BEADS.HOME_STAT_ROLE hrACTING |>.set pBEAM BEAM.STAT_LOCK 3
         |>.setHome { work := { leases := [(1, e)] } };
     let l : Ledger := s.home.work;
     let frozen : Bool := s.flag pBEADS BEADS.HOME_STAT_FROZEN;
     s.role = hrACTING ∧ m.new = true ∧ l.entry src.val = some e ∧ e.boot ≠ m.boot ∧ m.fine = true ∧
     s.fineLock = true ∧ frozen = false) ∧
    (let src : Fin 4096 := 1;
     let m : Renew := { renew with new := false };
     let e : LedgerEntry := entryOf 0;
     let s : State := State.reset |>.set pBEADS BEADS.HOME_STAT_ROLE hrACTING |>.setHome
         { work := { leases := [(1, e)] } };
     let l : Ledger := s.home.work;
     let now : Nat := s.beam.t / 256;
     s.role = hrACTING ∧ m.new = false ∧ l.entry src.val = some e ∧ e.exp ≤ now) ∧
    (let src : Fin 4096 := 1;
     let m : Renew := { renew with new := false };
     let e : LedgerEntry := entryOf 10;
     let s : State := State.reset |>.set pBEADS BEADS.HOME_STAT_ROLE hrACTING |>.setHome
         { work := { leases := [(1, e)] } };
     let l : Ledger := s.home.work;
     let now : Nat := s.beam.t / 256;
     s.role = hrACTING ∧ m.new = false ∧ l.entry src.val = some e ∧ now < e.exp ∧ m.rseq = e.rseq) ∧
    (let src : Fin 4096 := 1;
     let m : Renew := { renew with new := false, rseq := 1 };
     let e : LedgerEntry := entryOf 10;
     let s : State := State.reset |>.set pBEADS BEADS.HOME_STAT_ROLE hrACTING |>.set pBEADS
         BEADS.HOME_STAT_FROZEN 1 |>.setHome { work := { leases := [(1, e)] } } |>.set pBEADS
           BEADS.HOME_STAT_FROZEN 1;
     let l : Ledger := s.home.work;
     let frozen : Bool := s.flag pBEADS BEADS.HOME_STAT_FROZEN;
     let now : Nat := s.beam.t / 256;
     s.role = hrACTING ∧ m.new = false ∧ l.entry src.val = some e ∧ now < e.exp ∧ m.rseq ≠ e.rseq ∧
     frozen = true) ∧
    (let src : Fin 4096 := 1;
     let m : Renew := { renew with new := false, rseq := 1 };
     let e : LedgerEntry := entryOf 10;
     let s : State := State.reset |>.set pBEADS BEADS.HOME_STAT_ROLE hrACTING |>.setHome
         { work := { leases := [(1, e)] } };
     let l : Ledger := s.home.work;
     let frozen : Bool := s.flag pBEADS BEADS.HOME_STAT_FROZEN;
     let now : Nat := s.beam.t / 256;
     s.role = hrACTING ∧ m.new = false ∧ l.entry src.val = some e ∧ now < e.exp ∧ m.rseq ≠ e.rseq ∧
     frozen = false) ∧
    (let s : State := State.reset |>.setHome { work := { pool := { p := 5 }, retPend := { p := 5 } } };
     let frozen : Bool := s.flag pBEADS BEADS.HOME_STAT_FROZEN;
     (s.role ≠ hrACTING ∨ frozen = true)) ∧
    (let s : State := State.reset |>.set pBEADS BEADS.HOME_STAT_ROLE hrACTING |>.setHome
         { work := { pool := { p := 5 }, retPend := { p := 5 } } };
     let l : Ledger := s.home.work;
     let frozen : Bool := s.flag pBEADS BEADS.HOME_STAT_FROZEN;
     let gone : List (Nat × LedgerEntry) := List.filter (fun e => decide (e.2.exp + 50000000 ≤ s.beam.t / 256))
         l.leases;
     let p : Int × Int × Int := retireKind l.pool.p l.retired.p l.retPend.p;
     let q : Int × Int × Int := retireKind l.pool.q l.retired.q l.retPend.q;
     let st : LedgerStep := List.foldl (fun st e => st.reclaim e.1 e.2)
         ({ l.same with pool := { p := p.1, q := q.1 }, retired := { p := p.2.1, q := q.2.1 },
                        retPend := { p := p.2.2, q := q.2.2 } }) gone;
     s.role = hrACTING ∧ frozen = false ∧ st ≠ l.same) ∧
    (let s : State := State.reset |>.set pBEADS BEADS.HOME_STAT_ROLE hrACTING;
     let l : Ledger := s.home.work;
     let frozen : Bool := s.flag pBEADS BEADS.HOME_STAT_FROZEN;
     let gone : List (Nat × LedgerEntry) := List.filter (fun e => decide (e.2.exp + 50000000 ≤ s.beam.t / 256))
         l.leases;
     let p : Int × Int × Int := retireKind l.pool.p l.retired.p l.retPend.p;
     let q : Int × Int × Int := retireKind l.pool.q l.retired.q l.retPend.q;
     let st : LedgerStep := List.foldl (fun st e => st.reclaim e.1 e.2)
         ({ l.same with pool := { p := p.1, q := q.1 }, retired := { p := p.2.1, q := q.2.1 },
                        retPend := { p := p.2.2, q := q.2.2 } }) gone;
     s.role = hrACTING ∧ frozen = false ∧ st = l.same) ∧
    (let s : State := State.reset |>.set pBEADS BEADS.HOME_STAT_ROLE hrSTANDBY;
     let n : Nat := 0;
     let own : Nat := s.home.com.lseq;
     s.role = hrSTANDBY ∧ s.home.needCopy = false ∧ s.home.digWait = none ∧ n ≤ own) ∧
    (let s : State := State.reset |>.set pBEADS BEADS.HOME_STAT_ROLE hrSTANDBY;
     let n : Nat := 2;
     let own : Nat := s.home.com.lseq;
     s.role = hrSTANDBY ∧ s.home.needCopy = false ∧ s.home.digWait = none ∧ own + 1 < n) ∧
    (let s : State := State.reset |>.setReg pBEADS BEADS.HOME_CFG 65536 |>.set pBEADS BEADS.HOME_STAT_ROLE
         hrACTING;
     s.isHome = true ∧ s.role ≠ hrNONE) ∧
    (let s : State := State.reset |>.set pBEADS BEADS.HOME_STAT_ROLE hrACTING |>.set pBEADS
         BEADS.HOME_STAT_SOLO 1 |>.setReg pBEADS BEADS.HOME_CFG 65536;
     s.isHome = true ∧ s.role = hrACTING ∧ s.solo = true) ∧
    (let s : State := State.reset |>.set pBEADS BEADS.HOME_STAT_ROLE hrACTING |>.setReg pBEADS BEADS.HOME_CFG
         65536 |>.setHome { com := { leases := [(1, entryOf 0)] } } |>.setReach 1 true;
     s.isHome = true ∧ s.role = hrACTING ∧ s.majority = true) ∧
    (let s : State := State.reset |>.set pBEADS BEADS.HOME_STAT_ROLE hrACTING |>.setReg pBEADS BEADS.HOME_CFG
         65536 |>.setHome { com := { leases := [(2, entryOf 0)] } };
     let y : State := s.set pBEADS BEADS.HOME_STAT_PEER_OK 0;
     s.isHome = true ∧ s.role = hrACTING ∧ y.majority = false) ∧
    (let w : Writer := .session 0;
     let s : State := State.reset;
     s.mayAct w pBEADS ∧ w.isRemote = true ∧ s.role ≠ hrACTING) ∧
    (let w : Writer := .session 0;
     let s : State := State.reset |>.set pBEADS BEADS.HOME_STAT_ROLE hrACTING |>.set pBEADS
         BEADS.HOME_STAT_SOLO 1;
     let l : Ledger := s.home.work;
     let amt : PQ := { p := s.regS pBEADS BEADS.CMD_P, q := s.regS pBEADS BEADS.CMD_Q };
     let frozen : Bool := s.flag pBEADS BEADS.HOME_STAT_FROZEN;
     let fits : LedgerStep → Prop := fun st => pqOk amt = true ∧ pqOk st.pool = true ∧ pqOk (st.minted.sub
         st.retired) = true ∧ pqOk st.retPend = true;
     let minted : LedgerStep := { l.same with pool := l.pool.add amt, minted := l.minted.add amt };
     s.mayAct w pBEADS ∧ w.isRemote = true ∧ s.role = hrACTING ∧ frozen = false ∧ s.solo = true ∧ fits minted) ∧
    (let w : Writer := .session 0;
     let s : State := State.reset |>.set pBEADS BEADS.HOME_STAT_ROLE hrACTING |>.set pBEADS
         BEADS.HOME_STAT_SOLO 1 |>.setReg pBEADS BEADS.CMD_P 0x80000000;
     let l : Ledger := s.home.work;
     let amt : PQ := { p := s.regS pBEADS BEADS.CMD_P, q := s.regS pBEADS BEADS.CMD_Q };
     let frozen : Bool := s.flag pBEADS BEADS.HOME_STAT_FROZEN;
     let fits : LedgerStep → Prop := fun st => pqOk amt = true ∧ pqOk st.pool = true ∧ pqOk (st.minted.sub
         st.retired) = true ∧ pqOk st.retPend = true;
     let minted : LedgerStep := { l.same with pool := l.pool.add amt, minted := l.minted.add amt };
     s.mayAct w pBEADS ∧ w.isRemote = true ∧ s.role = hrACTING ∧ frozen = false ∧ s.solo = true ∧ ¬fits minted) ∧
    (let w : Writer := .session 0;
     let s : State := State.reset |>.set pBEADS BEADS.HOME_STAT_ROLE hrACTING |>.set pBEADS
         BEADS.HOME_STAT_SOLO 1;
     let l : Ledger := s.home.work;
     let amt : PQ := { p := s.regS pBEADS BEADS.CMD_P, q := s.regS pBEADS BEADS.CMD_Q };
     let frozen : Bool := s.flag pBEADS BEADS.HOME_STAT_FROZEN;
     let fits : LedgerStep → Prop := fun st => pqOk amt = true ∧ pqOk st.pool = true ∧ pqOk (st.minted.sub
         st.retired) = true ∧ pqOk st.retPend = true;
     let retiring : LedgerStep := { l.same with retPend := l.retPend.add amt };
     s.mayAct w pBEADS ∧ w.isRemote = true ∧ s.role = hrACTING ∧ frozen = false ∧ s.solo = true ∧ fits retiring) ∧
    (let w : Writer := .session 0;
     let s : State := State.reset |>.set pBEADS BEADS.HOME_STAT_ROLE hrACTING |>.set pBEADS
         BEADS.HOME_STAT_SOLO 1 |>.setReg pBEADS BEADS.CMD_P 0x80000000;
     let l : Ledger := s.home.work;
     let amt : PQ := { p := s.regS pBEADS BEADS.CMD_P, q := s.regS pBEADS BEADS.CMD_Q };
     let frozen : Bool := s.flag pBEADS BEADS.HOME_STAT_FROZEN;
     let fits : LedgerStep → Prop := fun st => pqOk amt = true ∧ pqOk st.pool = true ∧ pqOk (st.minted.sub
         st.retired) = true ∧ pqOk st.retPend = true;
     let retiring : LedgerStep := { l.same with retPend := l.retPend.add amt };
     s.mayAct w pBEADS ∧ w.isRemote = true ∧ s.role = hrACTING ∧ frozen = false ∧ s.solo = true ∧ ¬fits retiring) ∧
    (let w : Writer := .session 0;
     let s : State := State.reset |>.set pBEADS BEADS.HOME_STAT_ROLE hrACTING |>.set pBEADS
         BEADS.HOME_STAT_FROZEN 1 |>.set pBEADS BEADS.HOME_STAT_SOLO 1 |>.setBit pBEADS BEADS.CMD_P 0 true;
     let frozen : Bool := s.flag pBEADS BEADS.HOME_STAT_FROZEN;
     s.mayAct w pBEADS ∧ w.isRemote = true ∧ s.role = hrACTING ∧ frozen = true ∧ s.solo = true ∧
     s.bit pBEADS BEADS.CMD_P 0 = true) ∧
    (let w : Writer := .spc;
     let s : State := State.reset;
     s.mayAct w pBEADS ∧ w.isRemote = false) := by
  refine ⟨?_, ?_, ?_, ?_, ?_, ?_, ?_, ?_, ?_, ?_, ?_, ?_, ?_, ?_, ?_, ?_, ?_, ?_, ?_, ?_, ?_, ?_, ?_, ?_, ?_,
    ?_, ?_, ?_, ?_, ?_, ?_, ?_, ?_, ?_, ?_, ?_, ?_, ?_, ?_, ?_, ?_, ?_⟩ <;> decide +kernel

/-- Hypotheses of BeadLapsePlacesNothing are met, clause by clause. -/
theorem witness_BeadLapsePlacesNothing :
    (let s : State := State.reset;
     let r : Nat := 1;
     s.bead.agent = false ∧ r < 24) := by
  decide +kernel

/-- Hypotheses of ApportionExact are met, clause by clause. -/
theorem witness_ApportionExact :
    (let w : List Nat := [0, 3, 5];
     let i : Nat := 2;
     0 < sumN w ∧ i < w.length) := by
  decide +kernel

/-- Hypotheses of LedgerConserves are met, clause by clause. -/
theorem witness_LedgerConserves :
    (let lease : Int := 1;
     let rel : Int := 1;
     let target : Int := 1;
     lease - rel ≤ target) ∧
    (let lease : Int := 2;
     let rel : Int := 1;
     let target : Int := 1;
     target ≤ lease - rel) := by
  refine ⟨?_, ?_⟩ <;> decide +kernel

/-- Hypotheses of ModuleBus are met, clause by clause. -/
theorem witness_ModuleBus :
    (let n : Fin 32 := 1;
     let s : State := State.reset |>.set (pMBUS n.val) MBUS.STAT_STATE mbDETECT;
     s.mbSt n.val = mbDETECT) ∧
    (let n : Fin 32 := 1;
     let s : State := State.reset |>.set (pMBUS n) MBUS.STAT_STATE mbACTIVE |>.set (pMBUS n)
         MBUS.MPE_CFG_MPE_EN 1;
     let p : Nat := pMBUS n.val;
     s.mbRx n.val = true ∧ s.injArmed p 0 = false) ∧
    (let n : Fin 32 := 1;
     let s : State := State.reset;
     s.mbSt n.val ≠ mbDETECT ∧ s.mbRx n.val = false ∧ s.mbSt n.val ≠ mbBUSOFF) ∧
    (let n : Fin 32 := 1;
     let s : State := State.reset |>.setMb n { offer := some .head, fifo := [canFrame] };
     let sof : Nat := 1;
     let src : TxSrc := .head;
     let f : CanFrame := canFrame;
     let x : MbX := s.mb n.val;
     x.offer = some src ∧ s.offered n.val sof src = some f) ∧
    (let n : Fin 32 := 1;
     let s : State := State.reset;
     let x : MbX := s.mb n.val;
     x.offer = none ∧ (s.mbSt n.val ≠ mbSLEEPING ∨ x.fifo ≠ [] ∧ s.beam.t < x.sleepAt + 100 * unitsMs) ∧
     (x.watch = none ∨ s.mbSt n.val ≠ mbASLEEP ∨ x.wakePend = true) ∧ (x.watch = none ∨ s.mbSt n.val ≠ mbASLEEP)) ∧
    (let w : Writer := .spc;
     let n : Fin 32 := 1;
     let s : State := State.reset |>.setMb n { fifo := List.replicate 32 canFrame };
     let v : Word := 0x80000000;
     let p : Nat := pMBUS n.val;
     let x : MbX := s.mb n.val;
     s.mayAct w p ∧ BitVec.getLsbD v 31 = true ∧ 32 ≤ x.fifo.length) ∧
    (let w : Writer := .spc;
     let n : Fin 32 := 1;
     let s : State := State.reset |>.setMb n { fifo := List.replicate 31 canFrame };
     let v : Word := 0x80000000;
     let p : Nat := pMBUS n.val;
     let x : MbX := s.mb n.val;
     s.mayAct w p ∧ BitVec.getLsbD v 31 = true ∧ x.fifo.length < 32) ∧
    (let w : Writer := .spc;
     let n : Fin 32 := 1;
     let s : State := State.reset |>.setMb n { fifo := List.replicate 31 canFrame };
     let v : Word := 5;
     let p : Nat := pMBUS n.val;
     s.mayAct w p ∧ BitVec.getLsbD v 31 = false) ∧
    (let n : Fin 32 := 1;
     let p : Nat := pMBUS n.val;
     let s : State := State.reset |>.set (pMBUS n.val) MBUS.STAT_STATE mbBUSOFF |>.set p MBUS.CTL_BO_AUTO 1;
     let x : MbX := s.mb n.val;
     s.mbSt n.val = mbBUSOFF ∧ (s.flag p MBUS.CTL_BO_AUTO = true ∨ x.boOk = true)) ∧
    (let n : Fin 32 := 1;
     let s : State := State.reset |>.set (pMBUS n.val) MBUS.STAT_STATE mbBUSOFF;
     let p : Nat := pMBUS n.val;
     let x : MbX := s.mb n.val;
     s.mbSt n.val = mbBUSOFF ∧ s.flag p MBUS.CTL_BO_AUTO = false ∧ x.boOk = false) ∧
    (let w : Writer := .spc;
     let n : Fin 32 := 1;
     let s : State := State.reset |>.setMb n { offer := some .head, fifo := [canFrame] };
     let p : Nat := pMBUS n.val;
     let x : MbX := s.mb n.val;
     s.mayAct w p ∧ x.fifo ≠ [] ∧ x.offer = some TxSrc.head) ∧
    (let w : Writer := .spc;
     let n : Fin 32 := 1;
     let s : State := State.reset |>.setMb n { fifo := [canFrame] };
     let p : Nat := pMBUS n.val;
     let x : MbX := s.mb n.val;
     s.mayAct w p ∧ x.fifo ≠ [] ∧ x.offer ≠ some TxSrc.head) ∧
    (let w : Writer := .spc;
     let n : Fin 32 := 1;
     let s : State := State.reset;
     let p : Nat := pMBUS n.val;
     let x : MbX := s.mb n.val;
     s.mayAct w p ∧ x.fifo = []) ∧
    (let w : Writer := .spc;
     let n : Fin 32 := 1;
     let s : State := State.reset |>.set (pMBUS n.val) MBUS.STAT_STATE mbBUSOFF |>.setMb n { boSeq := true };
     let p : Nat := pMBUS n.val;
     let x : MbX := s.mb n.val;
     s.mayAct w p ∧ s.mbSt n.val = mbBUSOFF ∧ x.boSeq = true) ∧
    (let w : Writer := .spc;
     let n : Fin 32 := 1;
     let s : State := State.reset |>.set (pMBUS n.val) MBUS.STAT_STATE mbBUSOFF;
     let p : Nat := pMBUS n.val;
     let x : MbX := s.mb n.val;
     s.mayAct w p ∧ s.mbSt n.val = mbBUSOFF ∧ x.boSeq = false) ∧
    (let w : Writer := .spc;
     let n : Fin 32 := 1;
     let s : State := State.reset |>.setMb n { boSeq := true };
     let p : Nat := pMBUS n.val;
     s.mayAct w p ∧ s.mbSt n.val ≠ mbBUSOFF) ∧
    (let w : Writer := .spc;
     let n : Fin 32 := 1;
     let s : State := State.reset;
     let p : Nat := pMBUS n.val;
     s.mayAct w p ∧ s.mpeOn n.val = false ∧ w.isRemote = false ∧ s.pageRests p = false ∧ s.mbSt n.val ≠ mbACTIVE) ∧
    (let w : Writer := .spc;
     let n : Fin 32 := 1;
     let s : State := State.reset |>.set (pMBUS n.val) MBUS.MPE_CFG_MPE_EN 1;
     let p : Nat := pMBUS n.val;
     s.mayAct w p ∧ s.mpeOn n.val = true) ∧
    (let w : Writer := .spc;
     let n : Fin 32 := 1;
     let s : State := State.reset |>.set (pMBUS n) MBUS.STAT_STATE mbACTIVE |>.set (pMBUS n)
         MBUS.MPE_CFG_MPE_EN 1;
     let p : Nat := pMBUS n.val;
     let asks : Bool := s.mpeOn n.val && decide (s.mbSt n.val ≠ mbOFF);
     s.mayAct w p ∧ asks = true) ∧
    (let w : Writer := .spc;
     let n : Fin 32 := 1;
     let s : State := State.reset |>.set (pMBUS n) MBUS.STAT_STATE mbACTIVE;
     let p : Nat := pMBUS n.val;
     let asks : Bool := s.mpeOn n.val && decide (s.mbSt n.val ≠ mbOFF);
     s.mayAct w p ∧ asks = false) ∧
    (let w : Writer := .spc;
     let n : Fin 32 := 1;
     let s : State := State.reset |>.set (pMBUS n) MBUS.STAT_STATE mbACTIVE |>.set (pMBUS n)
         MBUS.MPE_CFG_MPE_EN 1 |>.set (pMBUS n) MBUS.TREF_CFG_EN 1;
     let p : Nat := pMBUS n.val;
     let due : Bool := decide (s.mbSt n.val = mbACTIVE) && s.flag p MBUS.TREF_CFG_EN;
     s.mayAct w p ∧ due = true) ∧
    (let w : Writer := .spc;
     let n : Fin 32 := 1;
     let s : State := State.reset;
     let p : Nat := pMBUS n.val;
     let due : Bool := decide (s.mbSt n.val = mbACTIVE) && s.flag p MBUS.TREF_CFG_EN;
     s.mayAct w p ∧ due = false) ∧
    (let n : Fin 32 := 1;
     let a : Fin 24 := 1;
     let life : Bool := true;
     let c : Chal := ⟨a, life, [], 3⟩;
     let s : State := State.reset |>.setMb n { chals := [c] };
     let x : MbX := s.mb n.val;
     List.find? (fun c => c.addr == a.val && c.life == life) x.chals = some c ∧ 3 ≤ c.tries) ∧
    (let n : Fin 32 := 1;
     let a : Fin 24 := 1;
     let life : Bool := true;
     let c : Chal := ⟨a, life, [], 2⟩;
     let s : State := State.reset |>.setMb n { chals := [c] };
     let x : MbX := s.mb n.val;
     List.find? (fun c => c.addr == a.val && c.life == life) x.chals = some c ∧ c.tries < 3) ∧
    (let n : Fin 32 := 1;
     let s : State := State.reset;
     let a : Fin 24 := 1;
     let life : Bool := true;
     let x : MbX := s.mb n.val;
     List.find? (fun c => c.addr == a.val && c.life == life) x.chals = none) ∧
    (let w : Writer := .spc;
     let n : Fin 32 := 1;
     let s : State := State.reset |>.set (pMBUS n.val) MBUS.STAT_STATE mbACTIVE;
     let p : Nat := pMBUS n.val;
     s.mayAct w p ∧ s.mbSt n.val = mbACTIVE ∧ s.mpeOn n.val = false) ∧
    (let w : Writer := .spc;
     let n : Fin 32 := 1;
     let s : State := State.reset |>.set (pMBUS n.val) MBUS.STAT_STATE mbASLEEP;
     let p : Nat := pMBUS n.val;
     s.mayAct w p ∧ s.mbSt n.val = mbASLEEP) ∧
    (let n : Fin 32 := 1;
     let s : State := State.reset |>.set (pMBUS n.val) MBUS.STAT_STATE mbSLEEPING;
     let x : MbX := s.mb n.val;
     s.mbSt n.val = mbSLEEPING ∧ (x.fifo = [] ∨ x.sleepAt + 100 * unitsMs ≤ s.beam.t)) ∧
    (let n : Fin 32 := 1;
     let wt : Bool × Nat × Nat := (true, 7, 0xFFFFFFF0);
     let f : Option CanFrame := some { canFrame with fdf := false };
     let s : State := State.reset |>.set (pMBUS n.val) MBUS.STAT_STATE mbASLEEP |>.setMb n { watch := some wt };
     let x : MbX := s.mb n.val;
     x.watch = some wt ∧ s.mbSt n.val = mbASLEEP ∧ x.wakePend = false ∧ watchHit wt f = true) ∧
    (let n : Fin 32 := 1;
     let wt : Bool × Nat × Nat := (true, 0xFFF, 0xFFF);
     let f : Option CanFrame := some { canFrame with id := 0x123, fdf := false };
     let s : State := State.reset |>.set (pMBUS n.val) MBUS.STAT_STATE mbASLEEP |>.setMb n { watch := some wt };
     let x : MbX := s.mb n.val;
     x.watch = some wt ∧ s.mbSt n.val = mbASLEEP ∧ x.wakePend = false ∧ watchHit wt f = false) ∧
    (let n : Fin 32 := 1;
     let wt : Bool × Nat × Nat := (true, 0, 0);
     let s : State := State.reset |>.set (pMBUS n.val) MBUS.STAT_STATE mbASLEEP |>.setMb n { watch := some wt };
     let x : MbX := s.mb n.val;
     x.watch = some wt ∧ s.mbSt n.val = mbASLEEP ∧ wt.1 = true) ∧
    (let n : Fin 32 := 1;
     let p : Nat := pMBUS n.val;
     let s : State := State.reset |>.set p PG.STAT_SHUTTING 1;
     s.flag p PG.STAT_SHUTTING = true) ∧
    (let n : Fin 32 := 1;
     let s : State := State.reset;
     let p : Nat := pMBUS n.val;
     s.flag p PG.STAT_SHUTTING = false) ∧
    (let s : State := State.reset |>.setReg pAON (AON.WAKE_CFG 0) (2 ^ MBUS.WAKE_CFG_UNAVAIL_EN.lo) |>.set
         pREST REST.STAT_WAKE_FAIL 1;
     let unavail : Bool := s.flag pREST REST.STAT_WAKE_FAIL && (s.reg pAON (AON.WAKE_CFG 0)).testBit
         MBUS.WAKE_CFG_UNAVAIL_EN.lo;
     unavail = true) ∧
    (let s : State := State.reset |>.setReg pAON (AON.WAKE_CFG 0) (2 ^ MBUS.WAKE_CFG_UNAVAIL_EN.lo);
     let unavail : Bool := s.flag pREST REST.STAT_WAKE_FAIL && (s.reg pAON (AON.WAKE_CFG 0)).testBit
         MBUS.WAKE_CFG_UNAVAIL_EN.lo;
     unavail = false) ∧
    (let n : Fin 32 := 1;
     let a : Fin 24 := 1;
     let c : Fin 9 := 1;
     let m : OpenMsg := ⟨a, c, 0, 64, 1, 0, [], false⟩;
     let s : State := State.reset |>.setMb n { open_ := [m] };
     let x : MbX := s.mb n.val;
     let hit : Option OpenMsg := List.find? (fun m => m.addr == a.val && m.cls == c.val) x.open_;
     hit = some m ∧ m.skip = false) ∧
    (let n : Fin 32 := 1;
     let a : Fin 24 := 1;
     let c : Fin 9 := 1;
     let m : OpenMsg := ⟨a, c, 0, 64, 1, 0, [], true⟩;
     let s : State := State.reset |>.setMb n { open_ := [m] };
     let x : MbX := s.mb n.val;
     let hit : Option OpenMsg := List.find? (fun m => m.addr == a.val && m.cls == c.val) x.open_;
     hit = some m ∧ m.skip = true) ∧
    (let n : Fin 32 := 1;
     let s : State := State.reset;
     let a : Fin 24 := 1;
     let c : Fin 9 := 1;
     let x : MbX := s.mb n.val;
     let hit : Option OpenMsg := List.find? (fun m => m.addr == a.val && m.cls == c.val) x.open_;
     hit = none) := by
  refine ⟨?_, ?_, ?_, ?_, ?_, ?_, ?_, ?_, ?_, ?_, ?_, ?_, ?_, ?_, ?_, ?_, ?_, ?_, ?_, ?_, ?_, ?_, ?_, ?_, ?_,
    ?_, ?_, ?_, ?_, ?_, ?_, ?_, ?_, ?_, ?_, ?_, ?_, ?_⟩ <;> decide +kernel

/-- Hypotheses of ModuleMessages are met, clause by clause. -/
theorem witness_ModuleMessages :
    (let n : Fin 32 := 1;
     let s : State := State.reset |>.setMb n { acks := List.replicate 4 canFrame, mods := [(3,
                                               { aseqs := [0] })] };
     let m : MbMsg := mbMsg 0;
     let seen : Bool := (s.modX n.val m.addr).aseqs.contains (m.le 8 2);
     m.addr < 24 ∧ (s.mb n.val).acks.length = 4 ∧ seen = true) ∧
    (let n : Fin 32 := 1;
     let s : State := State.reset;
     let m : MbMsg := mbMsg 0;
     m.addr < 24 ∧ (s.mb n.val).acks.length < 4 ∧ (s.modX n.val m.addr).last = none ∧
     s.nonceOk n.val m.addr false (List.take 16 m.data) = false ∧
     s.nonceOk n.val m.addr true (List.take 16 m.data) = false) ∧
    (let n : Fin 32 := 1;
     let s : State := State.reset |>.setMb n { mods := [(3, { aseqs := [0] })] };
     let m : MbMsg := mbMsg 0;
     let seen : Bool := (s.modX n.val m.addr).aseqs.contains (m.le 8 2);
     m.addr < 24 ∧ (s.mb n.val).acks.length < 4 ∧ seen = true) ∧
    (let n : Fin 32 := 1;
     let s : State := State.reset;
     let m : MbMsg := mbMsg 0;
     let seen : Bool := (s.modX n.val m.addr).aseqs.contains (m.le 8 2);
     m.addr < 24 ∧ seen = false) ∧
    (let n : Fin 32 := 1;
     let s : State := State.reset;
     let m : MbMsg := mbMsg 0;
     let p : Nat := pMBUS n.val;
     let bad : Bool := (m.le 10 1).testBit 0;
     let y : State := (s.setB p (MBUS.MOD_STAT_TIME_BAD m.addr) bad).set p (MBUS.MOD_STAT_RSEQ m.addr) (m.le 11
         1);
     m.addr < 24 ∧ y.modIdx n.val m.addr = none) ∧
    (let n : Fin 32 := 1;
     let m : MbMsg := ⟨3, 0, 0, 0, List.replicate 16 9⟩;
     let i : Nat := 0;
     let p : Nat := pMBUS n.val;
     let bad : Bool := (m.le 10 1).testBit 0;
     let s : State := State.reset |>.set (pMBUS n) (MBUS.MAP_EN m.addr) 1;
     let y : State := (s.setB p (MBUS.MOD_STAT_TIME_BAD m.addr) bad).set p (MBUS.MOD_STAT_RSEQ m.addr) (m.le 11
         1);
     m.addr < 24 ∧ y.modIdx n.val m.addr = some i ∧ s.flag p MBUS.MPE_CFG_RPT_RING = false ∧
     y.modCells i ≠ m.le 8 1) ∧
    (let m : MbMsg := mbMsg 0;
     let i : Nat := 1;
     let d : List Nat := [0, 0, 0];
     let s : State := State.reset |>.set pEIS (EIS.RSTAT_STATE (i / 32)) esPLAN;
     m.addr < 24 ∧ i < 768 ∧ d.length = 3 ∧ ofLE (List.take 2 d) = (s.eisX (i / 32)).run ∧ d.getD 2 1 = 0 ∧
     s.eisSt (i / 32) = esPLAN) := by
  refine ⟨?_, ?_, ?_, ?_, ?_, ?_, ?_⟩ <;> decide +kernel

/-- Hypotheses of ThermAndCounters are met, clause by clause. -/
theorem witness_ThermAndCounters :
    (let s : State := State.reset |>.setDom Dom.rd .resting |>.setDom .rd .resting;
     let l : List Nat := [];
     l.length ≤ 4 ∧ s.dom Dom.rd ≠ DomSt.active) ∧
    (let s : State := State.reset;
     s.dom Dom.rd = DomSt.active) ∧
    (let s : State := State.reset |>.setDom Dom.rd .resting |>.setDom .rd .resting;
     s.dom Dom.rd ≠ DomSt.active ∧ s.pmbOn 0 = false) ∧
    (let s : State := State.reset |>.setDom .rd .resting |>.set pSUP SUP.PMB_CFG_EN 1 |>.set pSUP
         (SUP.SLOT_CFG_PMB 0) 1;
     s.dom Dom.rd ≠ DomSt.active ∧ s.pmbOn 0 = true) ∧
    (let s : State := State.reset;
     let m : State := List.foldl State.meanEval s s.sensKeys;
     m.en pTHERM = false) ∧
    (let s : State := State.reset |>.set pTHERM PG.CTL_EN 1;
     let m : State := List.foldl State.meanEval s s.sensKeys;
     m.en pTHERM = true) ∧
    (let w : Writer := .spc;
     let s : State := State.reset;
     s.mayAct w pTHERM) ∧
    (let s : State := State.reset |>.set pREST REST.STAT_STATE dvREST |>.set pTHERM PG.CTL_EN 1 |>.set pTHERM
         (THERM.TS_CFG_MODE 0) 2 |>.set pTHERM (THERM.LIM_A_TRIP_HI 0) 0x8000;
     let x : ThSample := .code 7000;
     let t : Int := (match (s.thConv 0 x).1 with | .val t => t | _ => 0);
     s.dev = dvREST ∧ s.en pTHERM = true ∧ s.get pTHERM (THERM.TS_CFG_MODE 0) ≠ 0 ∧
     (s.thConv 0 x).1 = ThVal.val t ∧ s.getS pTHERM (THERM.LIM_A_TRIP_HI (s.limSet 0)) < t) ∧
    (let s : State := State.reset |>.set pREST REST.STAT_STATE dvREST |>.set pTHERM PG.CTL_EN 1 |>.set pTHERM
         (THERM.TS_CFG_MODE 0) 2 |>.set pTHERM (THERM.LIM_A_TRIP_HI 0) 0x7FF;
     let x : ThSample := .code 7000;
     let t : Int := (match (s.thConv 0 x).1 with | .val t => t | _ => 0);
     s.dev = dvREST ∧ s.en pTHERM = true ∧ s.get pTHERM (THERM.TS_CFG_MODE 0) ≠ 0 ∧
     (s.thConv 0 x).1 = ThVal.val t ∧ t ≤ s.getS pTHERM (THERM.LIM_A_TRIP_HI (s.limSet 0))) ∧
    (let s : State := State.reset |>.set pTHERM (THERM.TS_CFG_MODE 0) 2 |>.set pTHERM (THERM.LIM_A_TRIP_HI 0)
         0x8000;
     (s.dev ≠ dvREST ∨ s.en pTHERM = false)) ∧
    (let n : Fin 16 := 1;
     let s : State := State.reset;
     s.cntOn n.val = false) ∧
    (let n : Fin 16 := 1;
     let x : LineChange := ⟨true, 5⟩;
     let y : LineChange := ⟨false, 5⟩;
     let p : Nat := pPCNT n.val;
     let s : State := State.reset |>.set (pPCNT n) PG.CTL_EN 1 |>.set p PCNT.CFG_MODE 1 |>.set p PCNT.CFG_EDGE
         0;
     let filt : Nat := max 1 (s.get p PCNT.CFG_FILT);
     s.cntOn n.val = true ∧ filt ≤ x.held ∧ filt ≤ y.held ∧ s.flag p PCNT.CFG_MODE = true) ∧
    (let n : Fin 16 := 1;
     let x : LineChange := ⟨true, 5⟩;
     let y : LineChange := ⟨false, 5⟩;
     let p : Nat := pPCNT n.val;
     let s : State := State.reset |>.set (pPCNT n) PG.CTL_EN 1 |>.set p PCNT.CFG_MODE 0 |>.set p PCNT.CFG_EDGE
         2;
     let filt : Nat := max 1 (s.get p PCNT.CFG_FILT);
     s.cntOn n.val = true ∧ filt ≤ x.held ∧ filt ≤ y.held ∧ s.flag p PCNT.CFG_MODE = false ∧
     (s.get p PCNT.CFG_EDGE = 2 ∨ x.level = decide (s.get p PCNT.CFG_EDGE ≠ 1))) ∧
    (let n : Fin 16 := 1;
     let x : LineChange := ⟨true, 0⟩;
     let p : Nat := pPCNT n.val;
     let s : State := State.reset |>.set (pPCNT n) PG.CTL_EN 1 |>.set p PCNT.CFG_MODE 0 |>.set p PCNT.CFG_EDGE
         0;
     let filt : Nat := max 1 (s.get p PCNT.CFG_FILT);
     s.cntOn n.val = true ∧ x.held < filt) ∧
    (let w : Writer := .spc;
     let n : Fin 16 := 1;
     let s : State := State.reset;
     let p : Nat := pPCNT n.val;
     s.mayAct w p ∧ s.flag p PCNT.CFG_LIM_EN = false) ∧
    (let w : Writer := .spc;
     let n : Fin 16 := 1;
     let v : Word := 10;
     let p : Nat := pPCNT n.val;
     let s : State := State.reset |>.set p PCNT.CFG_LIM_EN 1 |>.setReg p PCNT.LIM_HI 9;
     s.mayAct w p ∧ s.flag p PCNT.CFG_LIM_EN = true ∧ s.regS p PCNT.LIM_LO < s.regS p PCNT.LIM_HI ∧
     s.regS p PCNT.LIM_HI < sxt 32 (BitVec.toNat v)) := by
  refine ⟨?_, ?_, ?_, ?_, ?_, ?_, ?_, ?_, ?_, ?_, ?_, ?_, ?_, ?_, ?_, ?_⟩ <;> decide +kernel

/-- Hypotheses of Steppers are met, clause by clause. -/
theorem witness_Steppers :
    (let w : Writer := .spc;
     let n : Fin 32 := 1;
     let s : State := State.reset;
     let p : Nat := pSTEP n.val;
     s.mayAct w p ∧ s.flag p STEP.STATUS_POS_OK = false ∧ s.stepMoving n.val = false ∧
     s.reg p STEP.EST_CFG % 2 ^ 24 ≤ s.reg p STEP.VHOME % 2 ^ 24 ∧ s.en p = false) ∧
    (let w : Writer := .spc;
     let n : Fin 32 := 1;
     let p : Nat := pSTEP n.val;
     let s : State := State.reset |>.set p STEP.STATUS_POS_OK 1 |>.set p STEP.STATUS_STATE skHOMING;
     let busy : Prop := s.stepSt n.val = skSTOPPING ∨ s.stepSt n.val = skHOMING;
     s.mayAct w p ∧ s.flag p STEP.STATUS_POS_OK = true ∧ busy) ∧
    (let w : Writer := .spc;
     let n : Fin 32 := 1;
     let v : Word := 0;
     let p : Nat := pSTEP n.val;
     let want : Int := sxt 32 (BitVec.toNat v);
     let s : State := State.reset |>.set p STEP.STATUS_POS_OK 1;
     let lo : Int := s.regS p STEP.VLIM_LO;
     let hi : Int := s.regS p STEP.VLIM_HI;
     let busy : Prop := s.stepSt n.val = skSTOPPING ∨ s.stepSt n.val = skHOMING;
     s.mayAct w p ∧ s.flag p STEP.STATUS_POS_OK = true ∧ ¬busy ∧ lo ≤ want ∧ want ≤ hi ∧ s.en p = false) ∧
    (let w : Writer := .spc;
     let n : Fin 32 := 1;
     let v : Word := 0;
     let p : Nat := pSTEP n.val;
     let want : Int := sxt 32 (BitVec.toNat v);
     let s : State := State.reset |>.set p STEP.STATUS_POS_OK 1 |>.set p PG.CTL_EN 1;
     let lo : Int := s.regS p STEP.VLIM_LO;
     let hi : Int := s.regS p STEP.VLIM_HI;
     let busy : Prop := s.stepSt n.val = skSTOPPING ∨ s.stepSt n.val = skHOMING;
     s.mayAct w p ∧ s.flag p STEP.STATUS_POS_OK = true ∧ ¬busy ∧ lo ≤ want ∧ want ≤ hi ∧ s.en p = true) ∧
    (let w : Writer := .spc;
     let n : Fin 32 := 1;
     let v : Word := 10;
     let p : Nat := pSTEP n.val;
     let want : Int := sxt 32 (BitVec.toNat v);
     let s : State := State.reset |>.set p STEP.STATUS_POS_OK 1 |>.setReg p STEP.VLIM_HI 9;
     let lo : Int := s.regS p STEP.VLIM_LO;
     let hi : Int := s.regS p STEP.VLIM_HI;
     let busy : Prop := s.stepSt n.val = skSTOPPING ∨ s.stepSt n.val = skHOMING;
     s.mayAct w p ∧ s.flag p STEP.STATUS_POS_OK = true ∧ ¬busy ∧ s.en p = false ∧ (want < lo ∨ hi < want) ∧
     lo ≤ hi) ∧
    (let w : Writer := .spc;
     let n : Fin 32 := 1;
     let s : State := State.reset |>.set (pSTEP n) STEP.STATUS_STATE skACCEL;
     let p : Nat := pSTEP n.val;
     s.mayAct w p ∧ s.stepMoving n.val = true) ∧
    (let w : Writer := .spc;
     let n : Fin 32 := 1;
     let p : Nat := pSTEP n.val;
     let s : State := State.reset |>.set p PG.CTL_EN 1;
     s.mayAct w p ∧ s.reg p STEP.EST_CFG % 2 ^ 24 ≤ s.reg p STEP.VHOME % 2 ^ 24 ∧ s.en p = true) ∧
    (let w : Writer := .spc;
     let n : Fin 32 := 1;
     let p : Nat := pSTEP n.val;
     let s : State := State.reset |>.setReg p STEP.EST_CFG 9;
     s.mayAct w p ∧ s.reg p STEP.VHOME % 2 ^ 24 < s.reg p STEP.EST_CFG % 2 ^ 24) ∧
    (let w : Writer := .spc;
     let n : Fin 32 := 1;
     let s : State := State.reset;
     let p : Nat := pSTEP n.val;
     let x : StepX := s.stepper n.val;
     s.mayAct w p ∧ x.v = 0) ∧
    (let w : Writer := .spc;
     let n : Fin 32 := 1;
     let s : State := State.reset |>.setStepper n { v := 9 };
     let p : Nat := pSTEP n.val;
     let x : StepX := s.stepper n.val;
     s.mayAct w p ∧ x.v ≠ 0) ∧
    (let n : Fin 32 := 1;
     let s : State := State.reset |>.set (pSTEP n.val) STEP.STATUS_STATE skSTOPPING;
     s.stepSt n.val = skSTOPPING) ∧
    (let n : Fin 32 := 1;
     let s : State := State.reset |>.set (pSTEP n.val) STEP.STATUS_STATE skHOMING;
     s.stepSt n.val = skHOMING) ∧
    (let n : Fin 32 := 1;
     let s : State := State.reset |>.set (pSTEP n.val) STEP.STATUS_STATE skACCEL;
     (s.stepSt n.val = skACCEL ∨ s.stepSt n.val = skCRUISE ∨ s.stepSt n.val = skDECEL)) ∧
    (let n : Fin 32 := 1;
     let s : State := State.reset;
     let p : Nat := pSTEP n.val;
     let x : StepX := s.stepper n.val;
     let slow : Prop := x.v.natAbs < s.reg p STEP.EST_CFG % 2 ^ 24 * 1000000;
     (s.stepMoving n.val = false ∨ slow)) ∧
    (let n : Fin 32 := 1;
     let s : State := State.reset |>.set (pSTEP n) STEP.STATUS_STATE skCRUISE |>.setStepper n
         { v := 9, phi := 7, iSet := 3 };
     let p : Nat := pSTEP n.val;
     let x : StepX := s.stepper n.val;
     let slow : Prop := x.v.natAbs < s.reg p STEP.EST_CFG % 2 ^ 24 * 1000000;
     s.stepMoving n.val = true ∧ ¬slow) ∧
    (let n : Fin 32 := 1;
     let s : State := State.reset |>.set (pSTEP n.val) STEP.STATUS_STATE skHOLDING;
     let p : Nat := pSTEP n.val;
     let x : StepX := s.stepper n.val;
     s.stepSt n.val = skHOLDING ∧ x.restAt + s.get p STEP.CFG_STANDSTILL_T * unitsMs ≤ s.beam.t) ∧
    (let n : Fin 32 := 1;
     let s : State := State.reset;
     let p : Nat := pSTEP n.val;
     let x : StepX := s.stepper n.val;
     (s.stepSt n.val ≠ skHOLDING ∨ s.beam.t < x.restAt + s.get p STEP.CFG_STANDSTILL_T * unitsMs) ∧
     (s.flag p PG.STAT_SHUTTING = false ∨ x.v ≠ 0)) ∧
    (let n : Fin 32 := 1;
     let s : State := State.reset |>.setStepper n { outs := .driven, iB := -5 };
     let coilB : Bool := true;
     let cur : Nat := 0;
     let us : Nat := 2000;
     let p : Nat := pSTEP n.val;
     let x : StepX := s.stepper n.val;
     let want : Nat := (if coilB = true then x.iB else x.iA).natAbs;
     let off : Prop := x.outs ≠ StepOut.driven ∨ us < 2000 ∨ want < s.get p STEP.I_CFG_I_HOLD * 2 ^ 31 ∨ want ≤
         2 * cur * 2 ^ 31;
     ¬off) ∧
    (let n : Fin 32 := 1;
     let s : State := State.reset;
     let coilB : Bool := true;
     let cur : Nat := 1;
     let us : Nat := 1;
     let p : Nat := pSTEP n.val;
     let x : StepX := s.stepper n.val;
     let want : Nat := (if coilB = true then x.iB else x.iA).natAbs;
     let off : Prop := x.outs ≠ StepOut.driven ∨ us < 2000 ∨ want < s.get p STEP.I_CFG_I_HOLD * 2 ^ 31 ∨ want ≤
         2 * cur * 2 ^ 31;
     off) ∧
    (let n : Fin 32 := 1;
     let p : Nat := pSTEP n.val;
     let s : State := State.reset |>.set p PG.STAT_SHUTTING 1;
     let x : StepX := s.stepper n.val;
     s.flag p PG.STAT_SHUTTING = true ∧ x.v = 0) := by
  refine ⟨?_, ?_, ?_, ?_, ?_, ?_, ?_, ?_, ?_, ?_, ?_, ?_, ?_, ?_, ?_, ?_, ?_, ?_, ?_, ?_⟩ <;> decide +kernel

/-- Hypotheses of SuppliesAndClocks are met, clause by clause. -/
theorem witness_SuppliesAndClocks :
    (let s : State := State.reset |>.setSeq (some { slots := [1], cur := 1 });
     s.sup.seq ≠ none) ∧
    (let i : Fin 8 := 1;
     let s : State := State.reset |>.set pSUP (SUP.SLOT_STAT_ON i.val) 1;
     let on : Bool := s.flag pSUP (SUP.SLOT_STAT_ON i.val);
     on = true ∧ s.sup.seq = none) ∧
    (let i : Fin 8 := 1;
     let q : SeqX := { slots := [1], cur := 1, failed := true };
     let s : State := State.reset |>.set pSUP (SUP.SLOT_STAT_ON i.val) 1 |>.setSeq (some q);
     let on : Bool := s.flag pSUP (SUP.SLOT_STAT_ON i.val);
     on = true ∧ s.sup.seq = some q ∧ (q.cur ≠ i.val ∨ q.failed = true)) ∧
    (let i : Fin 8 := 1;
     let q : SeqX := { slots := [1, 4], cur := 1 };
     let j : Nat := 4;
     let s : State := State.reset |>.set pSUP (SUP.SLOT_STAT_ON i.val) 1 |>.setSeq (some q);
     let on : Bool := s.flag pSUP (SUP.SLOT_STAT_ON i.val);
     on = true ∧ s.sup.seq = some q ∧ q.cur = i.val ∧ q.failed = false ∧
     List.find? (fun j => decide (i.val < j)) q.slots = some j) ∧
    (let i : Fin 8 := 1;
     let q : SeqX := { slots := [1], cur := 1 };
     let s : State := State.reset |>.set pSUP (SUP.SLOT_STAT_ON i.val) 1 |>.setSeq (some q);
     let on : Bool := s.flag pSUP (SUP.SLOT_STAT_ON i.val);
     on = true ∧ s.sup.seq = some q ∧ q.cur = i.val ∧ q.failed = false ∧
     List.find? (fun j => decide (i.val < j)) q.slots = none) ∧
    (let i : Fin 8 := 1;
     let s : State := State.reset;
     let on : Bool := s.flag pSUP (SUP.SLOT_STAT_ON i.val);
     on = false ∧ (on = false ∨ s.flag pSUP (SUP.SLOT_STAT_PG i.val) = false)) ∧
    (let q : SeqX := { slots := [1], cur := 1, failed := true, tries := 1 };
     let s : State := State.reset |>.setSeq (some q);
     s.sup.seq = some q ∧ q.failed = true ∧ q.tries < 2) ∧
    (let q : SeqX := { slots := [7], cur := 7, failed := true, tries := 2, alone := true };
     let s : State := State.reset |>.setReg pSUP (SUP.SLOT_RAILS 7) 0 |>.setSeq (some q);
     let spared : Bool := q.alone && !q.slots.any fun j => (s.slotDoms j).contains Dom.rd;
     s.sup.seq = some q ∧ q.failed = true ∧ 2 ≤ q.tries ∧ spared = true) ∧
    (let q : SeqX := { slots := [1], cur := 1, failed := true, tries := 2 };
     let s : State := State.reset |>.setSeq (some q);
     let spared : Bool := q.alone && !q.slots.any fun j => (s.slotDoms j).contains Dom.rd;
     s.sup.seq = some q ∧ q.failed = true ∧ 2 ≤ q.tries ∧ spared = false) ∧
    (let i : Fin 8 := 1;
     let s : State := State.reset |>.set pSUP (SUP.SLOT_STAT_ON i.val) 1 |>.set pSUP (SUP.SLOT_STAT_PG i.val) 1;
     let on : Bool := s.flag pSUP (SUP.SLOT_STAT_ON i.val);
     on = true ∧ s.flag pSUP (SUP.SLOT_STAT_PG i.val) = true) ∧
    (let s : State := State.reset |>.set pSUP SUP.PMB_CFG_EN 1 |>.set pSUP (SUP.SLOT_CFG_PMB 0) 1;
     s.pmbOn 0 = true) ∧
    (let s : State := State.reset;
     s.pmbOn 0 = false ∧ s.path ≠ ppHANDOVER ∧ s.path ≠ ppRETURN ∧ s.path ≠ ppBAK ∧
     s.flag pCLK CLK.STAT_X32K_OK = false ∧ s.flag pCLK CLK.STAT_X156_OK = false ∧
     s.flag pCLK CLK.STAT_X25_OK = false ∧ s.flag pREST REST.STAT_DEGRADED = false) ∧
    (let a : Fin 65536 := 1699;
     let b : Fin 65536 := 899;
     let s : State := State.reset |>.set pSUP SUP.STAT_PATH ppAUX;
     s.path = ppAUX ∧ a.val < 1700 ∧ b.val < 900) ∧
    (let a : Fin 65536 := 1699;
     let b : Fin 65536 := 900;
     let s : State := State.reset |>.set pSUP SUP.STAT_PATH ppAUX;
     s.path = ppAUX ∧ a.val < 1700 ∧ 900 ≤ b.val ∧ s.storeSt ≠ tsOPEN) ∧
    (let a : Fin 65536 := 1700;
     let s : State := State.reset;
     (s.path ≠ ppAUX ∨ 1700 ≤ a.val)) ∧
    (let s : State := State.reset |>.setSup { ret := true };
     (s.path ≠ ppBAK ∨ s.sup.ret = false)) ∧
    (let b : Fin 65536 := 899;
     let s : State := State.reset;
     (s.path ≠ ppBAK ∨ 900 ≤ b.val)) ∧
    (let s : State := State.reset |>.set pSUP SUP.STAT_PATH ppHANDOVER;
     s.path = ppHANDOVER) ∧
    (let s : State := State.reset |>.set pSUP SUP.STAT_PATH ppBAK |>.setSup { ret := true };
     s.path = ppBAK ∧ s.sup.ret = true) ∧
    (let s : State := State.reset |>.set pSUP SUP.STAT_PATH ppRETURN;
     s.path = ppRETURN) ∧
    (let b : Fin 65536 := 899;
     let s : State := State.reset |>.set pSUP SUP.STAT_PATH ppBAK |>.set pREST REST.STAT_STATE dvDEEP;
     s.path = ppBAK ∧ b.val < 900 ∧ s.dev = dvDEEP) ∧
    (let b : Fin 65536 := 899;
     let s : State := State.reset |>.set pSUP SUP.STAT_PATH ppBAK;
     s.path = ppBAK ∧ b.val < 900 ∧ s.dev ≠ dvDEEP) ∧
    (let s : State := State.reset |>.set pSUP SUP.STAT_PATH ppBAK;
     s.path = ppBAK ∧ (∀ j : Fin 8, s.flag pSUP (SUP.SLOT_STAT_ON ↑j) = false)) ∧
    (let b : Fin 65536 := 900;
     let s : State := State.reset |>.set pSUP SUP.STAT_PATH ppBAK;
     s.path = ppBAK ∧ b.val < s.bakWarn) ∧
    (let b : Fin 65536 := 1000;
     let s : State := State.reset |>.set pSUP SUP.STAT_PATH ppBAK;
     s.path = ppBAK ∧ s.bakWarn ≤ b.val) ∧
    (let s : State := State.reset |>.set pCLK CLK.STAT_X32K_OK 1;
     s.flag pCLK CLK.STAT_X32K_OK = true) ∧
    (let s : State := State.reset |>.set pCLK CLK.STAT_X156_OK 1;
     s.flag pCLK CLK.STAT_X156_OK = true) ∧
    (let s : State := State.reset |>.set pCLK CLK.STAT_X25_OK 1;
     let fails : Fld → Nat → State := fun f b => ((s.clk f false).incF pCLK
         { off := CLK.XTAL_CNT, hi := b + 7, lo := b }).err pCLK 16;
     s.flag pCLK CLK.STAT_X25_OK = true ∧ (fails CLK.STAT_X25_OK 0).flag pCLK CLK.STAT_BEAM_LOCK = false) ∧
    (let s : State := State.reset |>.set pCLK CLK.STAT_X25_OK 1 |>.set pCLK CLK.STAT_BEAM_LOCK 1;
     let fails : Fld → Nat → State := fun f b => ((s.clk f false).incF pCLK
         { off := CLK.XTAL_CNT, hi := b + 7, lo := b }).err pCLK 16;
     s.flag pCLK CLK.STAT_X25_OK = true ∧ (fails CLK.STAT_X25_OK 0).flag pCLK CLK.STAT_BEAM_LOCK = true) ∧
    (let i : Fin 3 := 1;
     let f : Fld := if i.val = 0 then CLK.STAT_APC_LOCK else if i.val = 1 then CLK.STAT_RECK_LOCK else
         CLK.STAT_BEAM_LOCK;
     let s : State := State.reset |>.set pCLK f 1;
     s.flag pCLK f = true) ∧
    (let s : State := State.reset;
     let i : Fin 3 := 1;
     let f : Fld := if i.val = 0 then CLK.STAT_APC_LOCK else if i.val = 1 then CLK.STAT_RECK_LOCK else
         CLK.STAT_BEAM_LOCK;
     s.flag pCLK f = false) ∧
    (let s : State := State.reset |>.set pCLK CLK.STAT_X25_OK 1;
     (s.flag pCLK CLK.STAT_X25_OK = true ∨ s.flag pREST REST.STAT_DEGRADED = true)) := by
  refine ⟨?_, ?_, ?_, ?_, ?_, ?_, ?_, ?_, ?_, ?_, ?_, ?_, ?_, ?_, ?_, ?_, ?_, ?_, ?_, ?_, ?_, ?_, ?_, ?_, ?_,
    ?_, ?_, ?_, ?_, ?_, ?_, ?_⟩ <;> decide +kernel

/-- Hypotheses of DeviceStates are met, clause by clause. -/
theorem witness_DeviceStates :
    (let w : Writer := .spc;
     let s : State := State.reset;
     let t : Fin 8 := 4;
     s.mayAct w pREST ∧ 4 ≤ t.val) ∧
    (let w : Writer := .spc;
     let s : State := State.reset;
     let t : Fin 8 := 3;
     s.mayAct w pREST ∧ t.val < 4 ∧ s.dev < t.val) ∧
    (let s : State := State.reset |>.set pREST REST.STAT_PENDING 1;
     s.flag pREST REST.STAT_PENDING = true) ∧
    (let s : State := State.reset;
     s.flag pREST REST.STAT_PENDING = false ∧
     (s.mayEnter dvREST = false ∨ ∃ p ∈ allPages, pageDom p ∈ domsDevice ∧ s.get p PG.CTL_PWR_REQ = 1) ∧
     s.reg pAON AON.SAFE_WAKE % 256 = 0 ∧ (s.flag pREST REST.STAT_WAKING = false ∨ s.slotsUp = false) ∧
     s.flag pAON AON.ALARM_CTL_EN = false) ∧
    (let s : State := State.reset |>.set pREST REST.STAT_PENDING 1 |>.set pREST REST.STAT_STATE dvRUN |>.set
         pREST REST.STAT_TARGET 3;
     let quiet : Bool := s.mayEnter dvRUN && s.rodsIdle;
     quiet = true) ∧
    (let s : State := State.reset;
     let quiet : Bool := s.mayEnter dvRUN && s.rodsIdle;
     quiet = false) ∧
    (let s : State := State.reset |>.set pREST REST.STAT_PENDING 1 |>.set pREST REST.STAT_STATE dvQUIET |>.set
         pREST REST.STAT_TARGET 3;
     let rest : Bool := s.mayEnter dvQUIET && s.rodsIdle && !s.stepsMove;
     rest = true) ∧
    (let s : State := State.reset;
     let rest : Bool := s.mayEnter dvQUIET && s.rodsIdle && !s.stepsMove;
     rest = false) ∧
    (let s : State := State.reset |>.set pREST REST.STAT_PENDING 1 |>.set pREST REST.STAT_STATE dvREST |>.set
         pREST REST.STAT_TARGET 3;
     s.mayEnter dvREST = true ∧ (∀ p ∈ allPages, pageDom p ≠ Dom.aon → s.get p PG.CTL_PWR_REQ ≠ 1)) ∧
    (let s : State := State.reset;
     let c : Fin 8 := 1;
     (c.val ≠ wcSAFE ∨ s.reg pAON AON.SAFE_WAKE % 256 ≠ 0)) ∧
    (let s : State := State.reset |>.set pREST REST.STAT_WAKING 1 |>.set pREST REST.STAT_STATE dvQUIET;
     s.flag pREST REST.STAT_WAKING = true ∧ s.slotsUp = true ∧ s.dev = dvQUIET ∧ s.rest.wakeTo = dvRUN ∧
     s.rest.cause < 8) ∧
    (let s : State := State.reset |>.set pREST REST.STAT_STATE dvREST;
     let i : Fin 8 := 5;
     domOf i.val ≠ Dom.rd ∧ s.dom (domOf i.val) = DomSt.active ∧ s.mayRest (domOf i.val) = true) ∧
    (let i : Fin 8 := 5;
     let s : State := State.reset |>.setDom (domOf i.val) .resting;
     (s.dom (domOf i.val) ≠ DomSt.active ∨ s.mayRest (domOf i.val) = false)) ∧
    (let s : State := State.reset |>.set pAON AON.ALARM_CTL_EN 1;
     s.flag pAON AON.ALARM_CTL_EN = true) := by
  refine ⟨?_, ?_, ?_, ?_, ?_, ?_, ?_, ?_, ?_, ?_, ?_, ?_, ?_, ?_⟩ <;> decide +kernel

/-- Hypotheses of SafetyDemands are met, clause by clause. -/
theorem witness_SafetyDemands :
    (let s : State := State.reset |>.setSafe { started := true };
     s.kernelOk = true) ∧
    (let s : State := State.reset;
     s.kernelOk = false ∧ s.split = false ∧ s.safe.disc = 0 ∧ s.dev ≠ dvREST) ∧
    (let r : Fin 24 := 1;
     let s : State := State.reset |>.setBit pSAFE SAFE.SGR_MAP r true;
     s.sgrBlock r.val = true) ∧
    (let s : State := State.reset;
     let r : Fin 24 := 1;
     s.sgrBlock r.val = false) ∧
    (let s : State := State.reset |>.set pSPAIR SPAIR.MODE_SPLIT 1;
     s.split = true) ∧
    (let i : Fin 8 := 1;
     let s : State := State.reset |>.set pSAFE (SAFE.IN_CFG_EN i.val) 1 |>.set pSAFE (SAFE.IN_CFG_RODS i) 1
         |>.set pSAFE (SAFE.IN_CFG_PAIR 0) 0;
     let rods : Nat := s.get pSAFE (SAFE.IN_CFG_RODS i.val);
     s.split = false ∧ rods ≠ 0 ∧ s.flag pSAFE (SAFE.IN_CFG_EN i.val) = true ∧
     s.flag pSAFE (SAFE.IN_CFG_PAIR (i.val / 2 * 2)) = false ∧ s.safe.disc = 0) ∧
    (let m : Fin 4 := 1;
     let s : State := State.reset |>.set pSAFE (SAFE.IN_CFG_PAIR (2 * m)) 1 |>.set pSAFE (SAFE.IN_CFG_EN (2 *
         m)) 1 |>.setBit pSAFE SAFE.IN_STAT (8 + 2 * m) true |>.setBit pSAFE SAFE.IN_STAT (9 + 2 * m) false;
     s.split = false ∧ s.inGroup (2 * m.val) = some (2 * m.val, true) ∧
     s.inHigh (2 * m.val) ≠ s.inHigh (2 * m.val + 1)) ∧
    (let s : State := State.reset;
     let m : Fin 4 := 1;
     s.split = false ∧
     (Option.map Prod.snd (s.inGroup (2 * m.val)) ≠ some true ∨ s.inHigh (2 * m.val) = s.inHigh (2 * m.val + 1))) ∧
    (let s : State := State.reset |>.setReg pSAFE SAFE.IN_STAT 0xFF00 |>.set pREST REST.STAT_STATE dvREST
         |>.set pSAFE (SAFE.IN_CFG_EN 0) 1 |>.setBit pAON AON.SAFE_WAKE 0 true;
     s.split = false ∧ s.dev = dvREST ∧ (∀ j : Fin 8, s.inHigh ↑j = true) ∧ (s.inGroup 0).isSome = true ∧
     s.safe.restLow = [] ∧ s.bit pAON AON.SAFE_WAKE 0 = true) ∧
    (let s : State := State.reset |>.setReg pSAFE SAFE.IN_STAT 0xFF00 |>.set pREST REST.STAT_STATE dvREST
         |>.set pSAFE (SAFE.IN_CFG_EN 0) 1;
     s.split = false ∧ s.dev = dvREST ∧ (∀ j : Fin 8, s.inHigh ↑j = true) ∧ (s.inGroup 0).isSome = true ∧
     s.safe.restLow = [] ∧ s.bit pAON AON.SAFE_WAKE 0 = false) := by
  refine ⟨?_, ?_, ?_, ?_, ?_, ?_, ?_, ?_, ?_, ?_⟩ <;> decide +kernel

/-- Hypotheses of SafetyResetsAndFaults are met, clause by clause. -/
theorem witness_SafetyResetsAndFaults :
    (let s : State := State.reset |>.set pSPAIR SPAIR.MODE_SPLIT 1;
     s.split = true) ∧
    (let s : State := State.reset |>.setSafe { jam := true };
     s.split = false ∧ s.safe.jam = true) ∧
    (let s : State := State.reset;
     let ms : Nat := 100;
     s.split = false ∧ s.safe.jam = false ∧ 100 ≤ ms ∧ ms ≤ 3000) ∧
    (let s : State := State.reset;
     let ms : Nat := 99;
     s.split = false ∧ s.safe.jam = false ∧ ms < 100) ∧
    (let s : State := State.reset;
     let ms : Nat := 3001;
     s.split = false ∧ s.safe.jam = false ∧ 3000 < ms) ∧
    (let s : State := State.reset;
     s.split = false ∧ s.safe.jam = false ∧ s.sgrHold = false ∧ s.pairHoldDbg = false) ∧
    (let s : State := State.reset |>.setReg pSAFE SAFE.LATCH 1 |>.set pSAFE (SAFE.RXC_CFG_EN 0) 1 |>.setReg
         pSAFE (SAFE.RXC_RODS 0) 1;
     s.split = false ∧ s.safe.jam = false ∧ s.reg pSAFE SAFE.LATCH &&& s.causeRods ≠ 0) ∧
    (let s : State := State.reset |>.setReg pLIFE LIFE.STATE 2;
     s.split = false ∧ s.safe.jam = false ∧ s.sgrHold = true) ∧
    (let s : State := State.reset |>.set pSPAIR SPAIR.STAT_DBG_HALTED 1 |>.set pDBG DBG.CTL_PAIR_HOLD 1
         |>.setReg pLIFE LIFE.STATE 3;
     s.split = false ∧ s.pairHoldDbg = true) := by
  refine ⟨?_, ?_, ?_, ?_, ?_, ?_, ?_, ?_, ?_⟩ <;> decide +kernel

/-- Hypotheses of SafeMessages are met, clause by clause. -/
theorem witness_SafeMessages :
    (let s : State := State.reset;
     s.flag pSAFE SAFE.MSG_CFG_TX_EN = false) ∧
    (let k : List Nat := List.replicate 32 3;
     let s : State := safeConnected State.reset k |>.set pSAFE SAFE.MSG_CFG_TX_EN 1;
     s.flag pSAFE SAFE.MSG_CFG_TX_EN = true ∧ s.flag pSAFE SAFE.MSG_CFG_ETH_EN = false ∧ s.msgKey = some k) ∧
    (let s : State := State.reset;
     let b : List Nat := [0];
     b.length ≠ 64 ∧ s.injArmed pSAFE 8 = false) ∧
    (let eth : Bool := true;
     let k : List Nat := List.replicate 32 3;
     let j : Nat := 2;
     let s : State := safeConnected State.reset k |>.setConn 2 { heard := true, seq := 9 };
     let b : List Nat := safeMsg k 7 5 9;
     let src : Nat := ofLE (List.take 2 (List.drop 4 b));
     let conn : Nat := b.getD 6 0;
     let seq : Nat := ofLE (List.take 4 (List.drop 8 b));
     let twin : Bool := (s.sconn j).wait.any fun e => e.1 != eth && ofLE (List.take 4 (List.drop 8 e.2)) == seq;
     let old : Prop := (s.sconn j).heard = true ∧ seq ≤ (s.sconn j).seq ∧ twin = false;
     b.length = 64 ∧ s.injArmed pSAFE 8 = false ∧ s.injArmed pSAFE 9 = false ∧ s.injArmed pSAFE 11 = false ∧
     crc32cFrom (msgInit src conn) (List.take 32 b) = ofLE (List.take 4 (List.drop 32 b)) ∧ s.msgKey = some k ∧
     gcmTag (aesKeys k) (msgNonce src conn seq) (List.take 48 b) [] = List.drop 48 b ∧
     List.filter (fun j => s.flag pSAFE (SAFE.RXC_CFG_EN j) && decide (s.get pSAFE (SAFE.RXC_CFG_ADDR j) = src) && decide (s.get pSAFE (SAFE.RXC_CFG_CONN j) = conn)) (List.range 16) = [j] ∧
     old) ∧
    (let eth : Bool := true;
     let k : List Nat := List.replicate 32 3;
     let j : Nat := 2;
     let s : State := (safeConnected State.reset k).setBeam { t := 25600000000000 } |>.set pBEAM BEAM.STAT_LOCK
         2;
     let b : List Nat := safeMsgAt 2 k 7 5 9;
     let src : Nat := ofLE (List.take 2 (List.drop 4 b));
     let conn : Nat := b.getD 6 0;
     let seq : Nat := ofLE (List.take 4 (List.drop 8 b));
     let t : Nat := ofLE (List.take 8 (List.drop 12 b));
     let now : Nat := s.beam.t / 256;
     let judged : Prop := 2 ≤ b.getD 2 0 ∧ 2 ≤ s.get pBEAM BEAM.STAT_LOCK;
     let inTime : Prop := t ≤ now ∧ now - t ≤ 10000000;
     let twin : Bool := (s.sconn j).wait.any fun e => e.1 != eth && ofLE (List.take 4 (List.drop 8 e.2)) == seq;
     let old : Prop := (s.sconn j).heard = true ∧ seq ≤ (s.sconn j).seq ∧ twin = false;
     b.length = 64 ∧ s.injArmed pSAFE 8 = false ∧ s.injArmed pSAFE 9 = false ∧ s.injArmed pSAFE 11 = false ∧
     crc32cFrom (msgInit src conn) (List.take 32 b) = ofLE (List.take 4 (List.drop 32 b)) ∧ s.msgKey = some k ∧
     gcmTag (aesKeys k) (msgNonce src conn seq) (List.take 48 b) [] = List.drop 48 b ∧
     List.filter (fun j => s.flag pSAFE (SAFE.RXC_CFG_EN j) && decide (s.get pSAFE (SAFE.RXC_CFG_ADDR j) = src) && decide (s.get pSAFE (SAFE.RXC_CFG_CONN j) = conn)) (List.range 16) = [j] ∧
     ¬old ∧ judged ∧ ¬inTime) ∧
    (let eth : Bool := true;
     let k : List Nat := List.replicate 32 3;
     let j : Nat := 2;
     let s : State := safeConnected State.reset k;
     let b : List Nat := safeMsg k 7 5 9;
     let src : Nat := ofLE (List.take 2 (List.drop 4 b));
     let conn : Nat := b.getD 6 0;
     let seq : Nat := ofLE (List.take 4 (List.drop 8 b));
     let t : Nat := ofLE (List.take 8 (List.drop 12 b));
     let now : Nat := s.beam.t / 256;
     let judged : Prop := 2 ≤ b.getD 2 0 ∧ 2 ≤ s.get pBEAM BEAM.STAT_LOCK;
     let inTime : Prop := t ≤ now ∧ now - t ≤ 10000000;
     let twin : Bool := (s.sconn j).wait.any fun e => e.1 != eth && ofLE (List.take 4 (List.drop 8 e.2)) == seq;
     let old : Prop := (s.sconn j).heard = true ∧ seq ≤ (s.sconn j).seq ∧ twin = false;
     b.length = 64 ∧ s.injArmed pSAFE 8 = false ∧ s.injArmed pSAFE 9 = false ∧ s.injArmed pSAFE 11 = false ∧
     crc32cFrom (msgInit src conn) (List.take 32 b) = ofLE (List.take 4 (List.drop 32 b)) ∧ s.msgKey = some k ∧
     gcmTag (aesKeys k) (msgNonce src conn seq) (List.take 48 b) [] = List.drop 48 b ∧
     List.filter (fun j => s.flag pSAFE (SAFE.RXC_CFG_EN j) && decide (s.get pSAFE (SAFE.RXC_CFG_ADDR j) = src) && decide (s.get pSAFE (SAFE.RXC_CFG_CONN j) = conn)) (List.range 16) = [j] ∧
     ¬old ∧ (judged → inTime)) ∧
    (let s : State := State.reset;
     let j : Fin 16 := 1;
     (s.sconn j.val).wait = []) ∧
    (let j : Fin 16 := 1;
     let s : State := State.reset |>.setReg pSAFE (SAFE.RXC_RODS j) 1;
     s.flag pSAFE (SAFE.RXC_CFG_EN j.val) = false) ∧
    (let j : Fin 16 := 1;
     let e : Bool × List Nat := (true, []);
     let rest : List (Bool × List Nat) := [];
     let s : State := State.reset |>.setConn j { wait := e :: rest };
     (s.sconn j.val).wait = e :: rest) ∧
    (let j : Fin 16 := 1;
     let s : State := State.reset |>.set pSAFE (SAFE.RXC_CFG_EN j.val) 1 |>.set pSAFE (SAFE.RXC_STAT_SINGLE
         j.val) 1 |>.setReg pSAFE (SAFE.RXC_RODS j) 1;
     s.flag pSAFE (SAFE.RXC_CFG_EN j.val) = true ∧ s.split = false ∧
     s.reg pSAFE (SAFE.RXC_RODS j.val) % 2 ^ 24 ≠ 0 ∧ s.flag pSAFE (SAFE.RXC_STAT_SINGLE j.val) = true) := by
  refine ⟨?_, ?_, ?_, ?_, ?_, ?_, ?_, ?_, ?_, ?_⟩ <;> decide +kernel

/-- Hypotheses of ProcessorsAndDebug are met, clause by clause. -/
theorem witness_ProcessorsAndDebug :
    (let w : Writer := .spc;
     let s : State := State.reset;
     s.mayAct w pAPC ∧ s.flag pAPC APC.WDT_CFG_EN = false) ∧
    (let w : Writer := .spc;
     let s : State := State.reset |>.set pAPC APC.WDT_CFG_EN 1;
     s.mayAct w pAPC ∧ s.flag pAPC APC.WDT_CFG_EN = true) ∧
    (let w : Writer := .spc;
     let s : State := State.reset;
     let v : Word := 42434;
     s.mayAct w pAPC ∧ v ≠ 42435) ∧
    (let s : State := State.reset |>.set pAPC APC.WDT_CFG_EN 1;
     s.wdtRuns = true) ∧
    (let s : State := State.reset;
     s.wdtRuns = false ∧ s.dev ≠ dvDEEP ∧ s.lifeSt < 4 ∧ (s.lifeSt < 2 ∨ s.lifeSt = 3) ∧ s.lifeSt < 2 ∧
     s.dbgOpen 4 = true ∧ s.split = false) ∧
    (let s : State := State.reset |>.set pREST REST.STAT_STATE dvDEEP;
     s.dev = dvDEEP) ∧
    (let s : State := State.reset |>.setReg pLIFE LIFE.STATE 4;
     4 ≤ s.lifeSt) ∧
    (let s : State := State.reset |>.setReg pLIFE LIFE.STATE 2;
     (s.lifeSt = 2 ∨ 4 ≤ s.lifeSt)) ∧
    (let s : State := State.reset |>.setReg pLIFE LIFE.STATE 4;
     let h : Fin 6 := 1;
     s.dbgOpen h.val = false) ∧
    (let s : State := State.reset;
     let h : Fin 4 := 1;
     s.dbgOpen h.val = true) := by
  refine ⟨?_, ?_, ?_, ?_, ?_, ?_, ?_, ?_, ?_, ?_⟩ <;> decide +kernel

/-- Hypotheses of FabLinks are met, clause by clause. -/
theorem witness_FabLinks :
    (let l : Fin 4 := 1;
     let s : State := State.reset |>.set (pFAB l.val) FAB.STAT_STATE flTRAIN;
     s.fabSt l.val = flTRAIN) ∧
    (let l : Fin 4 := 1;
     let s : State := State.reset;
     s.fabSt l.val ≠ flTRAIN ∧ s.fabSt l.val ≠ flHELLO ∧ s.linkUp l.val = false ∧ s.fabSt l.val ≠ flRESYNC ∧
     s.fabSt l.val ≠ flHOLD ∧ s.linkLive l.val = false) ∧
    (let l : Fin 4 := 1;
     let s : State := State.reset |>.set (pFAB l.val) FAB.STAT_STATE flHELLO;
     (s.fabSt l.val = flHELLO ∨ s.linkUp l.val = true) ∧ s.fabSt l.val = flHELLO) ∧
    (let l : Fin 4 := 0;
     let s : State := fabOn |>.set (pFAB l.val) FAB.STAT_STATE flHELLO;
     let h : Hello := helloOf false;
     let c : Nat := s.helloCheck l.val h;
     s.fabSt l.val = flHELLO ∧ c = 0 ∧ h.seen = false) ∧
    (let l : Fin 4 := 0;
     let s : State := fabOn |>.set (pFAB l.val) FAB.STAT_STATE flHELLO;
     let h : Hello := helloOf true;
     let c : Nat := s.helloCheck l.val h;
     s.fabSt l.val = flHELLO ∧ c = 0 ∧ h.seen = true) ∧
    (let l : Fin 4 := 1;
     let s : State := State.reset |>.set (pFAB l.val) FAB.STAT_STATE flHELLO;
     let h : Hello := { helloOf true with sysId := 5 };
     let c : Nat := s.helloCheck l.val h;
     s.fabSt l.val = flHELLO ∧ c ≠ 0) ∧
    (let l : Fin 4 := 0;
     let h : Hello := { helloOf false with boot := 0 };
     let p : Nat := pFAB l.val;
     let s : State := fabOn |>.set (pFAB l.val) FAB.STAT_STATE flUP |>.setReg p FAB.PEER (h.addr * 65536);
     let same : Prop := s.reg p FAB.PEER % 2 ^ 28 = h.addr % 4096 * 2 ^ 16 + h.boot % 65536;
     s.fabSt l.val = flUP ∧ same) ∧
    (let l : Fin 4 := 0;
     let s : State := fabOn |>.set (pFAB l.val) FAB.STAT_STATE flUP;
     let h : Hello := helloOf false;
     let p : Nat := pFAB l.val;
     let same : Prop := s.reg p FAB.PEER % 2 ^ 28 = h.addr % 4096 * 2 ^ 16 + h.boot % 65536;
     s.fabSt l.val = flUP ∧ ¬same) ∧
    (let l : Fin 4 := 0;
     let h : Hello := helloOf true;
     let s : State := fabOn |>.set (pFAB l.val) FAB.STAT_STATE flFAULT |>.setFab l { hello := some h };
     let x : FabX := s.fab l.val;
     let c : Nat := s.helloCheck l.val h;
     x.hello = some h ∧ s.fabSt l.val = flFAULT ∧ c = 0) ∧
    (let l : Fin 4 := 0;
     let h : Hello := helloOf true;
     let s : State := fabOn |>.setFab l { hello := some h };
     let x : FabX := s.fab l.val;
     let c : Nat := s.helloCheck l.val h;
     x.hello = some h ∧ (s.fabSt l.val ≠ flFAULT ∨ c ≠ 0)) ∧
    (let l : Fin 4 := 1;
     let s : State := fabOn;
     let x : FabX := s.fab l.val;
     x.hello = none) ∧
    (let l : Fin 4 := 1;
     let s : State := State.reset |>.set (pFAB l.val) FAB.STAT_STATE flUP;
     s.linkUp l.val = true ∧ s.linkLive l.val = true) ∧
    (let l : Fin 4 := 1;
     let s : State := State.reset |>.set (pFAB l.val) FAB.STAT_STATE flHOLD;
     s.fabSt l.val = flHOLD) ∧
    (let l : Fin 4 := 1;
     let s : State := State.reset |>.set (pFAB l.val) FAB.STAT_STATE flDOWN;
     s.fabSt l.val = flDOWN) ∧
    (let l : Fin 4 := 1;
     let s : State := State.reset |>.set (pFAB l) FAB.STAT_STATE flTRAIN;
     s.fabSt l.val ≠ flDOWN) ∧
    (let l : Fin 4 := 1;
     let s : State := State.reset |>.set (pFAB l.val) FAB.STAT_STATE flUP;
     let p : Parcel := { parcelOf kdBULK [] with lsn := 1 };
     s.linkLive l.val = true ∧ p.lsn % 4096 ≠ (s.fab l.val).rxNext) ∧
    (let l : Fin 4 := 1;
     let s : State := State.reset |>.set (pFAB l.val) FAB.STAT_STATE flUP;
     let p : Parcel := parcelOf kdBULK [];
     s.linkLive l.val = true ∧ p.lsn % 4096 = (s.fab l.val).rxNext) ∧
    (let l : Fin 4 := 1;
     let s : State := State.reset |>.set (pFAB l.val) FAB.STAT_STATE flUP |>.setFab l { resync := 15 };
     let m : LinkStatus := ⟨0, false, [0, 0, 0, 0]⟩;
     s.linkLive l.val = true ∧ s.injArmed (pFAB l.val) 1 = false ∧ m.nak = false ∧ (s.fab l.val).resync = 15) ∧
    (let l : Fin 4 := 1;
     let s : State := State.reset |>.set (pFAB l.val) FAB.STAT_STATE flUP |>.setFab l { resync := 1 };
     s.linkLive l.val = true ∧ (s.fab l.val).resync ≠ 0 ∧ (s.fab l.val).resync = 1 ∧ s.fabSt l.val = flUP) ∧
    (let l : Fin 4 := 1;
     let s : State := State.reset |>.set (pFAB l.val) FAB.STAT_STATE flUP |>.set (pFAB l.val) FAB.STAT_STATE
         flRESYNC |>.setFab l { resync := 1 };
     s.linkLive l.val = true ∧ (s.fab l.val).resync = 1 ∧ s.fabSt l.val = flRESYNC) ∧
    (let l : Fin 4 := 1;
     let v : Fin 4 := 1;
     let f : Nat := 1;
     let s : State := State.reset |>.set (pFAB l) (credFld v) 0;
     let d : Nat := (f + 65536 - (s.fab l.val).last.getD v.val 0) % 65536;
     (s.fab l.val).resync = 0 ∧ s.get (pFAB l.val) (credFld v.val) + d ≤ vcCredits v.val) := by
  refine ⟨?_, ?_, ?_, ?_, ?_, ?_, ?_, ?_, ?_, ?_, ?_, ?_, ?_, ?_, ?_, ?_, ?_, ?_, ?_, ?_, ?_⟩ <;> decide +kernel

/-- Hypotheses of FabTransactions are met, clause by clause. -/
theorem witness_FabTransactions :
    (let s : State := fabOn |>.setReg pFABR FABR.SYS_ID 1;
     (s.fabConf && s.coordOk) = false) ∧
    (let s : State := fabOn |>.setReg pFABR FABR.SYS_ID 1 |>.set pFABR FABR.STAT_COORD_OK 1;
     (s.fabConf && s.coordOk) = true) ∧
    (let k : Fin 4 := 3;
     let p : Parcel := parcelOf kdANNOUNCE (List.replicate 32 0);
     let s : State := State.reset |>.setFab k { rx := [{ p := p, wait := true }] };
     s.waiting k.val [kdANNOUNCE] = some p) ∧
    (let s : State := State.reset;
     let k : Fin 4 := 1;
     s.waiting k.val [kdANNOUNCE] = none) ∧
    (let s : State := State.reset;
     let a : Fin 4096 := 0;
     (a.val = s.addr ∨ s.discReach a.val = false)) ∧
    (let l : Fin 5 := 1;
     let s : State := State.reset;
     s.waiting l.val [kdBRSP] = none ∧ s.waiting l.val [kdBREQ] = none ∧
     s.waiting l.val [kdANNOUNCE, kdBREQ, kdBRSP, kdBULK] = none) ∧
    (let a : Fin 4096 := 1;
     let s : State := State.reset |>.setReach a true;
     a.val ≠ s.addr ∧ s.discReach a.val = true) ∧
    (let s : State := State.reset;
     let w : Writer := .spc;
     s.mayAct w pFABR ∧ s.txqSize = 0) ∧
    (let l : Fin 5 := 4;
     let p : Parcel := parcelOf kdBRSP [];
     let s : State := State.reset |>.setRouter { loop := [p] };
     let u : State := s.takeWaiting l.val [kdBRSP];
     let hit : Option Txn := List.find? (fun t => t.tag == p.tag) u.router.txns;
     s.waiting l.val [kdBRSP] = some p ∧ hit = none) ∧
    (let l : Fin 5 := 4;
     let x : Txn := txnOf true;
     let p : Parcel := { parcelOf kdBRSP [0] with tag := x.tag };
     let b : List Nat := Parcel_data p;
     let s : State := State.reset |>.setRouter { txns := [x], loop := [p] };
     let u : State := s.takeWaiting l.val [kdBRSP];
     let hit : Option Txn := List.find? (fun t => t.tag == p.tag) u.router.txns;
     s.waiting l.val [kdBRSP] = some p ∧ hit = some x ∧ (x.wr = true ∨ b.getD 0 0 % 8 ≠ 0)) ∧
    (let l : Fin 5 := 4;
     let x : Txn := txnOf false;
     let p : Parcel := { parcelOf kdBRSP [0, 1, 2, 3, 4, 5, 6, 7] with tag := x.tag };
     let b : List Nat := Parcel_data p;
     let s : State := State.reset |>.setRouter { txns := [x], loop := [p] };
     let u : State := s.takeWaiting l.val [kdBRSP];
     let hit : Option Txn := List.find? (fun t => t.tag == p.tag) u.router.txns;
     s.waiting l.val [kdBRSP] = some p ∧ hit = some x ∧ x.wr = false ∧ b.getD 0 0 % 8 = 0) ∧
    (let l : Fin 5 := 4;
     let p : Parcel := parcelOf kdBREQ [0, 0, 0xFF, 0x0F, 64, 0, 1, 0];
     let b : List Nat := Parcel_data p;
     let n : Nat := ofLE (List.take 2 (List.drop 6 b));
     let a : WaitAcc := { w := Writer.remote (Fin.ofNat 4096 p.src),
                          page := ofLE (List.take 2 (List.drop 2 b)) % 4096,
                          off := ofLE (List.take 2 (List.drop 4 b)) % 4096, data := none, count := n,
                          tag := some p.tag };
     let s : State := State.reset |>.setRouter { loop := [p] };
     s.waiting l.val [kdBREQ] = some p ∧ (b.getD 0 0).testBit 0 = false ∧ ownerPage a.page = none) ∧
    (let l : Fin 5 := 4;
     let p : Parcel := parcelOf kdBREQ [0, 0, 3, 0, 64, 0, 1, 0, 0, 0, 0, 0];
     let b : List Nat := Parcel_data p;
     let n : Nat := ofLE (List.take 2 (List.drop 6 b));
     let a : WaitAcc := { w := Writer.remote (Fin.ofNat 4096 p.src),
                          page := ofLE (List.take 2 (List.drop 2 b)) % 4096,
                          off := ofLE (List.take 2 (List.drop 4 b)) % 4096, data := none, count := n,
                          tag := some p.tag };
     let s : State := State.reset |>.setRouter { loop := [p] };
     s.waiting l.val [kdBREQ] = some p ∧ (b.getD 0 0).testBit 0 = false ∧ (ownerPage a.page).isSome = true ∧
     p.len ≠ 2) ∧
    (let l : Fin 5 := 4;
     let p : Parcel := parcelOf kdBREQ [0, 0, 3, 0, 64, 0, 1, 0];
     let b : List Nat := Parcel_data p;
     let n : Nat := ofLE (List.take 2 (List.drop 6 b));
     let a : WaitAcc := { w := Writer.remote (Fin.ofNat 4096 p.src),
                          page := ofLE (List.take 2 (List.drop 2 b)) % 4096,
                          off := ofLE (List.take 2 (List.drop 4 b)) % 4096, data := none, count := n,
                          tag := some p.tag };
     let s : State := State.reset |>.setRouter { loop := [p] };
     s.waiting l.val [kdBREQ] = some p ∧ (b.getD 0 0).testBit 0 = false ∧ (ownerPage a.page).isSome = true ∧
     p.len = 2) ∧
    (let l : Fin 5 := 4;
     let p : Parcel := parcelOf kdBULK [];
     let s : State := State.reset |>.setRouter { loop := [p] };
     s.waiting l.val [kdANNOUNCE, kdBREQ, kdBRSP, kdBULK] = some p ∧ p.kind ≠ kdBREQ) ∧
    (let l : Fin 5 := 4;
     let p : Parcel := parcelOf kdBREQ [1, 2, 3];
     let s : State := State.reset |>.setRouter { loop := [p] };
     s.waiting l.val [kdANNOUNCE, kdBREQ, kdBRSP, kdBULK] = some p ∧ p.kind = kdBREQ) := by
  refine ⟨?_, ?_, ?_, ?_, ?_, ?_, ?_, ?_, ?_, ?_, ?_, ?_, ?_, ?_, ?_, ?_⟩ <;> decide +kernel

/-- Hypotheses of Sessions are met, clause by clause. -/
theorem witness_Sessions :
    (let k : Fin 2 := 1;
     let s : State := State.reset |>.set (pETH k.val) PG.CTL_EN 1 |>.set (pETH k.val) ETH.STAT_LINK 1;
     s.en (pETH k.val) = true ∧ s.flag (pETH k.val) ETH.STAT_LINK = true ∧ s.openSess.length < 1024 ∧
     (s.eth 0).hs.length + (s.eth 1).hs.length < 64) ∧
    (let k : Fin 2 := 1;
     let s : State := State.reset |>.set (pETH k) PG.CTL_EN 1 |>.set (pETH k) ETH.STAT_LINK 1 |>.setEth 0
         { hs := List.range 64 };
     s.en (pETH k.val) = true ∧ s.flag (pETH k.val) ETH.STAT_LINK = true ∧ s.openSess.length < 1024 ∧
     64 ≤ (s.eth 0).hs.length + (s.eth 1).hs.length) ∧
    (let k : Fin 2 := 1;
     let s : State := State.reset;
     (s.en (pETH k.val) = false ∨ s.flag (pETH k.val) ETH.STAT_LINK = false)) ∧
    (let k : Fin 2 := 1;
     let s : State := manySessions |>.set (pETH k.val) PG.CTL_EN 1 |>.set (pETH k.val) ETH.STAT_LINK 1;
     s.en (pETH k.val) = true ∧ s.flag (pETH k.val) ETH.STAT_LINK = true ∧ 1024 ≤ s.openSess.length) ∧
    (let n : Fin 1024 := 1;
     let s : State := State.reset |>.setSes n { isOpen := true };
     (s.ses n.val).isOpen = true ∧ (s.ses n.val).kind ≠ 2 ∧ (s.ses n.val).chans = [] ∧ s.openSess = [n.val]) ∧
    (let n : Fin 1024 := 1;
     let s : State := State.reset |>.setSes n { isOpen := true };
     let ct : Nat := 1;
     (s.ses n.val).isOpen = true ∧ (s.ses n.val).kind ≠ 2 ∧ ct ≠ 22 ∧ ct ≠ 23) ∧
    (let n : Fin 1024 := 1;
     let s : State := State.reset;
     ((s.ses n.val).isOpen = false ∨ (s.ses n.val).kind = 2) ∧ (s.ses n.val).isOpen = false ∧
     ((s.ses n.val).inq = [] ∨ (s.ses n.val).isOpen = false ∨ (s.ses n.val).rekey = true ∨ 64 ≤ SessX_out (s.ses n.val) ∨ s.dom Dom.rd ≠ DomSt.active) ∧
     s.takeReq n.val 1 = none ∧ s.takeReq n.val 2 = none ∧ s.takeReq n.val 8 = none) ∧
    (let w : Writer := .spc;
     let n : Fin 1024 := 1;
     let s : State := State.reset |>.setReg pGATE GATE.SESS_SEL n;
     s.mayAct w pGATE ∧ n.val = s.reg pGATE GATE.SESS_SEL % 1024 ∧
     ((s.ses n.val).isOpen = true ∧ (s.ses n.val).rekey = false ∨ (s.ses n.val).isOpen = false ∧ (s.grantValid n.val = false ∨ s.en pGATE = false)) ∧
     s.gate.reqs = []) ∧
    (let w : Writer := .spc;
     let n : Fin 1024 := 1;
     let s : State := State.reset |>.setReg pGATE GATE.SESS_SEL n |>.setSes n { isOpen := true, rekey := true };
     s.mayAct w pGATE ∧ n.val = s.reg pGATE GATE.SESS_SEL % 1024 ∧ (s.ses n.val).isOpen = true ∧
     (s.ses n.val).rekey = true) ∧
    (let w : Writer := .spc;
     let n : Fin 1024 := 1;
     let s : State := State.reset |>.set pGATE PG.CTL_EN 1 |>.setReg pGATE GATE.SESS_SEL n |>.setReg 0x900
         0x400 (2 ^ 31);
     s.mayAct w pGATE ∧ n.val = s.reg pGATE GATE.SESS_SEL % 1024 ∧ (s.ses n.val).isOpen = false ∧
     s.grantValid n.val = true ∧ s.en pGATE = true ∧
     ((s.reg pGATE GATE.OPEN_CFG).testBit 31 = false ∨ (s.reg pGATE GATE.OPEN_CFG).testBit 30 = true)) ∧
    (let w : Writer := .spc;
     let n : Fin 1024 := 1;
     let s : State := State.reset |>.set pGATE PG.CTL_EN 1 |>.setReg pGATE GATE.SESS_SEL n |>.setReg 0x900
         0x400 (2 ^ 31) |>.setReg pGATE GATE.OPEN_CFG (2 ^ 31);
     s.mayAct w pGATE ∧ n.val = s.reg pGATE GATE.SESS_SEL % 1024 ∧ (s.ses n.val).isOpen = false ∧
     s.grantValid n.val = true ∧ s.en pGATE = true ∧ (s.reg pGATE GATE.OPEN_CFG).testBit 31 = true ∧
     (s.reg pGATE GATE.OPEN_CFG).testBit 30 = false) ∧
    (let w : Writer := .spc;
     let n : Fin 1024 := 1;
     let r : TunReq := ⟨9, 0, 0, []⟩;
     let rest : List TunReq := [];
     let s : State := State.reset |>.setReg pGATE GATE.SESS_SEL n |>.setGate { reqs := r :: rest };
     s.mayAct w pGATE ∧ n.val = s.reg pGATE GATE.SESS_SEL % 1024 ∧ s.gate.reqs = r :: rest) ∧
    (let n : Fin 1024 := 1;
     let b : List Nat := reqBytes 5 1;
     let rest : List (List Nat) := [];
     let s : State := State.reset |>.setSes n { isOpen := true, inq := b :: rest };
     (s.ses n.val).inq = b :: rest ∧ (s.ses n.val).isOpen = true ∧ (s.ses n.val).rekey = false ∧
     SessX_out (s.ses n.val) < 64 ∧ s.dom Dom.rd = DomSt.active ∧ reqBad b = true) ∧
    (let n : Fin 1024 := 1;
     let b : List Nat := [1, 0, 2, 0] ++ leBytes 4 7 ++ leBytes 2 3 ++ leBytes 2 64 ++ leBytes 2 1 ++ [0, 0];
     let rest : List (List Nat) := [];
     let r : SessReq := parseReq b;
     let s : State := State.reset |>.setSes n { isOpen := true, inq := b :: rest, chans := [] };
     let u : State :=   s.setSes n.val ({ s.ses n.val with inq := rest });
     let tunnelled : Prop := r.chan ≠ 0 ∧ (r.ty = 1 ∨ r.ty = 2 ∨ r.ty = 8) ∧ (u.ses n.val).kind ≠ 2;
     (s.ses n.val).inq = b :: rest ∧ (s.ses n.val).isOpen = true ∧ (s.ses n.val).rekey = false ∧
     SessX_out (s.ses n.val) < 64 ∧ s.dom Dom.rd = DomSt.active ∧ reqBad b = false ∧ tunnelled ∧
     Option.all (fun c => !c.up) (SessX_chan (u.ses n.val) r.chan) = true) ∧
    (let n : Fin 1024 := 1;
     let b : List Nat := [1, 0, 2, 0] ++ leBytes 4 7 ++ leBytes 2 3 ++ leBytes 2 64 ++ leBytes 2 1 ++ [0, 0] ++
         List.replicate 4061 0;
     let rest : List (List Nat) := [];
     let r : SessReq := parseReq b;
     let c : ChanX := ⟨2, 9, true, 0, 0⟩;
     let s : State := State.reset |>.setSes n { isOpen := true, inq := b :: rest, chans := [c] };
     let u : State :=   s.setSes n.val ({ s.ses n.val with inq := rest });
     let tunnelled : Prop := r.chan ≠ 0 ∧ (r.ty = 1 ∨ r.ty = 2 ∨ r.ty = 8) ∧ (u.ses n.val).kind ≠ 2;
     (s.ses n.val).inq = b :: rest ∧ (s.ses n.val).isOpen = true ∧ (s.ses n.val).rekey = false ∧
     SessX_out (s.ses n.val) < 64 ∧ s.dom Dom.rd = DomSt.active ∧ reqBad b = false ∧ tunnelled ∧
     SessX_chan (u.ses n.val) r.chan = some c ∧ c.up = true ∧ 4076 < b.length) ∧
    (let n : Fin 1024 := 1;
     let b : List Nat := [1, 0, 2, 0] ++ leBytes 4 7 ++ leBytes 2 3 ++ leBytes 2 64 ++ leBytes 2 1 ++ [0, 0];
     let rest : List (List Nat) := [];
     let r : SessReq := parseReq b;
     let c : ChanX := ⟨2, 9, true, 0, 0⟩;
     let s : State := State.reset |>.setSes n { isOpen := true, inq := b :: rest, chans := [c] };
     let u : State :=   s.setSes n.val ({ s.ses n.val with inq := rest });
     let tunnelled : Prop := r.chan ≠ 0 ∧ (r.ty = 1 ∨ r.ty = 2 ∨ r.ty = 8) ∧ (u.ses n.val).kind ≠ 2;
     (s.ses n.val).inq = b :: rest ∧ (s.ses n.val).isOpen = true ∧ (s.ses n.val).rekey = false ∧
     SessX_out (s.ses n.val) < 64 ∧ s.dom Dom.rd = DomSt.active ∧ reqBad b = false ∧ tunnelled ∧
     SessX_chan (u.ses n.val) r.chan = some c ∧ c.up = true ∧ b.length ≤ 4076) ∧
    (let n : Fin 1024 := 1;
     let b : List Nat := reqBytes 1 1;
     let rest : List (List Nat) := [];
     let r : SessReq := parseReq b;
     let s : State := State.reset |>.setSes n { isOpen := true, inq := b :: rest, chans := [] };
     let u : State :=   s.setSes n.val ({ s.ses n.val with inq := rest });
     let tunnelled : Prop := r.chan ≠ 0 ∧ (r.ty = 1 ∨ r.ty = 2 ∨ r.ty = 8) ∧ (u.ses n.val).kind ≠ 2;
     (s.ses n.val).inq = b :: rest ∧ (s.ses n.val).isOpen = true ∧ (s.ses n.val).rekey = false ∧
     SessX_out (s.ses n.val) < 64 ∧ s.dom Dom.rd = DomSt.active ∧ reqBad b = false ∧ ¬tunnelled ∧
     u.reqNoPage n.val r = true) ∧
    (let n : Fin 1024 := 1;
     let b : List Nat := reqBytes 4 1;
     let rest : List (List Nat) := [];
     let r : SessReq := parseReq b;
     let s : State := State.reset |>.setSes n { isOpen := true, inq := b :: rest, chans := [⟨0, 9, true, 0,
                                                0⟩] };
     let u : State :=   s.setSes n.val ({ s.ses n.val with inq := rest });
     let tunnelled : Prop := r.chan ≠ 0 ∧ (r.ty = 1 ∨ r.ty = 2 ∨ r.ty = 8) ∧ (u.ses n.val).kind ≠ 2;
     (s.ses n.val).inq = b :: rest ∧ (s.ses n.val).isOpen = true ∧ (s.ses n.val).rekey = false ∧
     SessX_out (s.ses n.val) < 64 ∧ s.dom Dom.rd = DomSt.active ∧ reqBad b = false ∧ ¬tunnelled ∧
     u.reqNoPage n.val r = false ∧ (u.ses n.val).bucket < 1000 * reqCost r) ∧
    (let n : Fin 1024 := 1;
     let b : List Nat := reqBytes 4 1 ++ [1];
     let rest : List (List Nat) := [];
     let r : SessReq := parseReq b;
     let s : State := State.reset |>.setSes n { isOpen := true, inq := b :: rest, chans := [⟨0, 9, true, 0,
                                                0⟩], bucket := 100000 };
     let u : State :=   s.setSes n.val ({ s.ses n.val with inq := rest });
     let tunnelled : Prop := r.chan ≠ 0 ∧ (r.ty = 1 ∨ r.ty = 2 ∨ r.ty = 8) ∧ (u.ses n.val).kind ≠ 2;
     (s.ses n.val).inq = b :: rest ∧ (s.ses n.val).isOpen = true ∧ (s.ses n.val).rekey = false ∧
     SessX_out (s.ses n.val) < 64 ∧ s.dom Dom.rd = DomSt.active ∧ reqBad b = false ∧ ¬tunnelled ∧
     u.reqNoPage n.val r = false ∧ 1000 * reqCost r ≤ (u.ses n.val).bucket ∧ reqLenBad r = true) ∧
    (let n : Fin 1024 := 1;
     let b : List Nat := reqBytes 1 1;
     let rest : List (List Nat) := [];
     let r : SessReq := parseReq b;
     let s : State := State.reset |>.setSes n { isOpen := true, inq := b :: rest, bucket := 1000 } |>.setReg
         0x900 0x440 (3 * 2 ^ 20 + 3 * 2 ^ 8 + 1);
     let u : State :=   s.setSes n.val ({ s.ses n.val with inq := rest });
     let tunnelled : Prop := r.chan ≠ 0 ∧ (r.ty = 1 ∨ r.ty = 2 ∨ r.ty = 8) ∧ (u.ses n.val).kind ≠ 2;
     (s.ses n.val).inq = b :: rest ∧ (s.ses n.val).isOpen = true ∧ (s.ses n.val).rekey = false ∧
     SessX_out (s.ses n.val) < 64 ∧ s.dom Dom.rd = DomSt.active ∧ reqBad b = false ∧ ¬tunnelled ∧
     u.reqNoPage n.val r = false ∧ 1000 * reqCost r ≤ (u.ses n.val).bucket ∧ reqLenBad r = false) ∧
    (let s : State := State.reset |>.setSes 3 { isOpen := true };
     (List.map Prod.fst s.sess).Nodup) ∧
    (let n : Fin 1024 := 1;
     let r : SessReq := { sessReq 1 with page := 0xFFF };
     let s : State := State.reset |>.setSes n { passed := [r] };
     let u : State := (((s.takeReq n 1).map Prod.snd).getD s);
     s.takeReq n.val 1 = some (r, u) ∧ ownerPage r.page = none) ∧
    (let n : Fin 1024 := 1;
     let r : SessReq := { sessReq 1 with page := 0x084 };
     let s : State := State.reset |>.setSes n { passed := [r] } |>.setDom (.fd 0) .resting;
     let u : State := (((s.takeReq n 1).map Prod.snd).getD s);
     s.takeReq n.val 1 = some (r, u) ∧ (ownerPage r.page).isSome = true ∧
     u.burstRests r.page r.off r.count = true) ∧
    (let n : Fin 1024 := 1;
     let r : SessReq := sessReq 1;
     let s : State := State.reset |>.setSes n { passed := [r] };
     let u : State := (((s.takeReq n 1).map Prod.snd).getD s);
     s.takeReq n.val 1 = some (r, u) ∧ (ownerPage r.page).isSome = true ∧
     u.burstRests r.page r.off r.count = false) ∧
    (let n : Fin 1024 := 1;
     let r : SessReq := { sessReq 2 with page := 0xFFF };
     let s : State := State.reset |>.setSes n { passed := [r] };
     let u : State := (((s.takeReq n 2).map Prod.snd).getD s);
     s.takeReq n.val 2 = some (r, u) ∧ ownerPage r.page = none) ∧
    (let n : Fin 1024 := 1;
     let r : SessReq := { sessReq 2 with page := pRECK 1 };
     let s : State := State.reset |>.setSes n { passed := [r] } |>.setDom .rd .resting;
     let u : State := (((s.takeReq n 2).map Prod.snd).getD s);
     s.takeReq n.val 2 = some (r, u) ∧ (ownerPage r.page).isSome = true ∧
     u.burstRests r.page r.off r.count = true) ∧
    (let n : Fin 1024 := 1;
     let r : SessReq := sessReq 2;
     let s : State := State.reset |>.setSes n { passed := [r] };
     let u : State := (((s.takeReq n 2).map Prod.snd).getD s);
     s.takeReq n.val 2 = some (r, u) ∧ (ownerPage r.page).isSome = true ∧
     u.burstRests r.page r.off r.count = false) ∧
    (let n : Fin 1024 := 1;
     let r : SessReq := sessReq 8;
     let s : State := State.reset |>.setSes n { passed := [r] };
     let u : State := (((s.takeReq n 8).map Prod.snd).getD s);
     let l : List Nat := leBytes 2 r.count ++ leBytes 2 n.val ++ [r.chan, 0, 0, 0] ++ leBytes 4 (u.grantWord
         n.val 0) ++ leBytes 4 r.tag ++ r.data;
     let put : Option (State × Nat) := u.ringPut (u.reg pGATE GATE.SVC_BASE_LO / 65536 * 65536 + u.reg pGATE
         GATE.SVC_BASE_HI % 256 * 2 ^ 32) (u.reg pGATE GATE.SVC_SIZE % 65536 * 65536) (u.reg pGATE GATE.SVC_WR)
           (u.reg pGATE GATE.SVC_RD) (l ++ List.replicate ((16 - l.length % 16) % 16) 0) fun x => [];
     s.takeReq n.val 8 = some (r, u) ∧ (u.reg pGATE GATE.SVC_SIZE % 65536 = 0 ∨ put = none)) ∧
    (let n : Fin 1024 := 1;
     let r : SessReq := sessReq 8;
     let wr : Nat := 32;
     let s : State := State.reset |>.setSes n { passed := [r] } |>.setReg pGATE GATE.SVC_SIZE 1;
     let u : State := (((s.takeReq n 8).map Prod.snd).getD s);
     let l : List Nat := leBytes 2 r.count ++ leBytes 2 n.val ++ [r.chan, 0, 0, 0] ++ leBytes 4 (u.grantWord
         n.val 0) ++ leBytes 4 r.tag ++ r.data;
     let v : State := ((u.ringPut (u.reg pGATE GATE.SVC_BASE_LO / 65536 * 65536 + u.reg pGATE GATE.SVC_BASE_HI
         % 256 * 2 ^ 32) (u.reg pGATE GATE.SVC_SIZE % 65536 * 65536) (u.reg pGATE GATE.SVC_WR) (u.reg pGATE
           GATE.SVC_RD) (l ++ List.replicate ((16 - l.length % 16) % 16) 0) fun x => []).map Prod.fst).getD u;
     let put : Option (State × Nat) := u.ringPut (u.reg pGATE GATE.SVC_BASE_LO / 65536 * 65536 + u.reg pGATE
         GATE.SVC_BASE_HI % 256 * 2 ^ 32) (u.reg pGATE GATE.SVC_SIZE % 65536 * 65536) (u.reg pGATE GATE.SVC_WR)
           (u.reg pGATE GATE.SVC_RD) (l ++ List.replicate ((16 - l.length % 16) % 16) 0) fun x => [];
     s.takeReq n.val 8 = some (r, u) ∧ u.reg pGATE GATE.SVC_SIZE % 65536 ≠ 0 ∧ put = some (v, wr)) ∧
    (let w : Writer := .spc;
     let s : State := State.reset;
     let v : Word := 0;
     s.mayAct w pGATE ∧ BitVec.toNat v < 2 ^ 31) ∧
    (let w : Writer := .spc;
     let s : State := State.reset;
     let v : Word := 0x80000000;
     s.mayAct w pGATE ∧ 2 ^ 31 ≤ BitVec.toNat v) := by
  refine ⟨?_, ?_, ?_, ?_, ?_, ?_, ?_, ?_, ?_, ?_, ?_, ?_, ?_, ?_, ?_, ?_, ?_, ?_, ?_, ?_, ?_, ?_, ?_, ?_, ?_,
    ?_, ?_, ?_, ?_, ?_, ?_⟩ <;> decide +kernel

/-- Hypotheses of Tunnels are met, clause by clause. -/
theorem witness_Tunnels :
    (let n : Fin 1024 := 1;
     let s : State := State.reset;
     s.takeReq n.val 3 = none ∧ s.takeReq n.val 4 = none) ∧
    (let n : Fin 1024 := 1;
     let r : SessReq := { sessReq 3 with mute := true };
     let s : State := State.reset |>.setSes n { passed := [r] };
     let u : State := (((s.takeReq n 3).map Prod.snd).getD s);
     s.takeReq n.val 3 = some (r, u) ∧ r.mute = true) ∧
    (let n : Fin 1024 := 1;
     let r : SessReq := sessReq 4;
     let s : State := State.reset |>.setSes n { passed := [r] };
     let u : State := (((s.takeReq n 4).map Prod.snd).getD s);
     s.takeReq n.val 4 = some (r, u) ∧ SessX_chan (u.ses n.val) r.chan = none) ∧
    (let n : Fin 1024 := 1;
     let r : SessReq := sessReq 3;
     let s : State := State.reset |>.setSes n { passed := [r] };
     let u : State := (((s.takeReq n 3).map Prod.snd).getD s);
     s.takeReq n.val 3 = some (r, u) ∧ r.mute = false ∧ u.discReach r.page = false) ∧
    (let n : Fin 1024 := 1;
     let r : SessReq := sessReq 3;
     let s : State := State.reset |>.setSes n { passed := [r] } |>.setReach 3 true;
     let u : State := (((s.takeReq n 3).map Prod.snd).getD s);
     s.takeReq n.val 3 = some (r, u) ∧ r.mute = false ∧ u.discReach r.page = true) ∧
    (let n : Fin 1024 := 1;
     let r : SessReq := sessReq 4;
     let c : ChanX := ⟨0, 9, true, 0, 0⟩;
     let s : State := State.reset |>.setSes n { passed := [r], chans := [c] };
     let u : State := (((s.takeReq n 4).map Prod.snd).getD s);
     s.takeReq n.val 4 = some (r, u) ∧ SessX_chan (u.ses n.val) r.chan = some c) ∧
    (let s : State := State.reset;
     s.openSess.length < 1024) ∧
    (let s : State := manySessions;
     1024 ≤ s.openSess.length) ∧
    (let src : Fin 4096 := 1;
     let m : TunMsg := { esess := 4, chan := 2, tsess := 1 };
     let s : State := State.reset;
     s.openingChan (m.esess % 1024) m.chan src.val = none ∧ m.code = 0 ∧ s.tunSess src.val m = none ∧
     Option.all (fun c => !c.up || decide (c.dst ≠ src.val)) (SessX_chan (s.ses (m.esess % 1024)) m.chan) = true ∧
     Option.all (fun c => decide (c.dst ≠ src.val)) (SessX_chan (s.ses (m.esess % 1024)) m.chan) = true) ∧
    (let src : Fin 4096 := 1;
     let m : TunMsg := { esess := 4, chan := 2, tsess := 1, code := 3 };
     let s : State := State.reset;
     s.openingChan (m.esess % 1024) m.chan src.val = none ∧ m.code ≠ 0) ∧
    (let src : Fin 4096 := 1;
     let m : TunMsg := { esess := 4, chan := 2, tsess := 1, code := 3 };
     let c : ChanX := ⟨2, src, false, 0, 0⟩;
     let s : State := State.reset |>.setSes 4 { chans := [c] };
     s.openingChan (m.esess % 1024) m.chan src.val = some c ∧ m.code ≠ 0) ∧
    (let src : Fin 4096 := 1;
     let m : TunMsg := { esess := 4, chan := 2, tsess := 1 };
     let c : ChanX := ⟨2, src, false, 0, 0⟩;
     let s : State := State.reset |>.setSes 4 { chans := [c] };
     s.openingChan (m.esess % 1024) m.chan src.val = some c ∧ m.code = 0) ∧
    (let n : Fin 1024 := 1;
     let c : Fin 16 := 1;
     let x : ChanX := ⟨c, 9, false, 0, 0⟩;
     let s : State := State.reset |>.setSes n { chans := [x] };
     SessX_chan (s.ses n.val) c.val = some x ∧ x.up = false) ∧
    (let n : Fin 1024 := 1;
     let s : State := State.reset;
     let c : Fin 16 := 1;
     Option.all (fun x => x.up) (SessX_chan (s.ses n.val) c.val) = true) ∧
    (let n : Fin 1024 := 1;
     let src : Fin 4096 := 1;
     let m : TunMsg := { esess := 4, chan := 2, tsess := 1 };
     let s : State := State.reset |>.setSes n { isOpen := true, kind := 2, entry := src, chan := 2, ref := 4 };
     s.tunSess src.val m = some n.val ∧ m.frag ≠ 1 ∧ m.frag ≠ 2) ∧
    (let n : Fin 1024 := 1;
     let src : Fin 4096 := 1;
     let m : TunMsg := { esess := 4, chan := 2, tsess := 1, frag := 1, data := [1, 2, 3, 4, 5, 6, 7, 8] };
     let s : State := State.reset |>.setSes n { isOpen := true, kind := 2, entry := src, chan := 2, ref := 4 };
     s.tunSess src.val m = some n.val ∧ (s.joinFrag src.val m false).2 = none) ∧
    (let n : Fin 1024 := 1;
     let src : Fin 4096 := 1;
     let m : TunMsg := { esess := 4, chan := 2, tsess := 1 };
     let s : State := State.reset |>.setSes n { isOpen := true, kind := 2, entry := src, chan := 2, ref := 4 };
     let v : State := s;
     let b : List Nat := m.data;
     s.tunSess src.val m = some n.val ∧ s.joinFrag src.val m false = (v, some b)) ∧
    (let src : Fin 4096 := 1;
     let m : TunMsg := { esess := 4, chan := 2, tsess := 1 };
     let c : ChanX := ⟨2, src, true, 0, 0⟩;
     let s : State := State.reset |>.setSes 4 { chans := [c] };
     SessX_chan (s.ses (m.esess % 1024)) m.chan = some c ∧ c.up = true ∧ c.dst = src.val ∧ m.frag ≠ 1 ∧
     m.frag ≠ 2 ∧ s.tunSess src.val m = none) ∧
    (let src : Fin 4096 := 1;
     let m : TunMsg := { esess := 4, chan := 2, tsess := 1, frag := 1, data := [1, 2, 3, 4, 5, 6, 7, 8] };
     let c : ChanX := ⟨2, src, true, 0, 0⟩;
     let s : State := State.reset |>.setSes 4 { chans := [c] };
     SessX_chan (s.ses (m.esess % 1024)) m.chan = some c ∧ c.up = true ∧ c.dst = src.val ∧
     (s.joinFrag src.val m true).2 = none) ∧
    (let src : Fin 4096 := 1;
     let m : TunMsg := { esess := 4, chan := 2, tsess := 1 };
     let c : ChanX := ⟨2, src, true, 0, 0⟩;
     let b : List Nat := m.data;
     let s : State := State.reset |>.setSes 4 { chans := [c] };
     let v : State := s;
     SessX_chan (s.ses (m.esess % 1024)) m.chan = some c ∧ c.up = true ∧ c.dst = src.val ∧
     s.joinFrag src.val m true = (v, some b)) ∧
    (let s : State := State.reset;
     let d : List Nat := [1, 2, 3, 4, 5, 6, 7, 8, 9];
     let e : List Nat := [9, 9];
     let a : TunMsg := { esess := 4, chan := 2, tsess := 1, frag := 1, data := d };
     let b : TunMsg := { esess := 4, chan := 2, tsess := 1, frag := 2,
                         data := List.take 4 (List.drop 4 d) ++ e };
     a.frag = 1 ∧ b.frag = 2 ∧ a.esess = b.esess ∧ a.chan = b.chan ∧ s.gate.frags = [] ∧ a.data = d ∧
     b.data = List.take 4 (List.drop 4 d) ++ e ∧ 8 ≤ d.length) ∧
    (let k : Fin 2 := 1;
     let s : State := State.reset |>.set (pETH k.val) PG.CTL_EN 1 |>.set (pETH k.val) ETH.STAT_LINK 1;
     s.en (pETH k.val) = true ∧ s.flag (pETH k.val) ETH.STAT_LINK = true) ∧
    (let s : State := State.reset;
     let k : Fin 2 := 1;
     (s.en (pETH k.val) = false ∨ s.flag (pETH k.val) ETH.STAT_LINK = false)) := by
  refine ⟨?_, ?_, ?_, ?_, ?_, ?_, ?_, ?_, ?_, ?_, ?_, ?_, ?_, ?_, ?_, ?_, ?_, ?_, ?_, ?_, ?_, ?_, ?_⟩ <;>
    decide +kernel

/-- Hypotheses of CryptoCommands are met, clause by clause. -/
theorem witness_CryptoCommands :
    (let w : Writer := .spc;
     let s : State := State.reset;
     s.mayAct w pKEYS ∧ s.flag pKEYS KEYS.STAT_BUSY = false ∧ s.keys.cmd = none) ∧
    (let w : Writer := .spc;
     let s : State := State.reset |>.set pKEYS KEYS.STAT_BUSY 1;
     s.mayAct w pKEYS ∧ s.flag pKEYS KEYS.STAT_BUSY = true) ∧
    (let w : Writer := .spc;
     let c : KeyCmd := keyCmd 1 0 0;
     let s : State := State.reset |>.setKeys { cmd := some c };
     s.mayAct w pKEYS ∧ s.keys.cmd = some c) := by
  refine ⟨?_, ?_, ?_⟩ <;> decide +kernel

/-- Hypotheses of CryptoResults are met, clause by clause. -/
theorem witness_CryptoResults :
    (let c : KeyCmd := ⟨1, 0, 5, 4, 16777217, 64⟩;
     let s : State := State.reset.setSlot 5 2 (List.replicate 32 3);
     (c.op = 1 ∨ c.op = 2 ∧ (s.keyOf c.slot 2).isSome = true) ∧ maxMsg < c.len) ∧
    (let c : KeyCmd := keyCmd 1 0 0;
     c.op = 1 ∧ c.len ≤ maxMsg) ∧
    (let c : KeyCmd := keyCmd 2 2 5;
     let k : List Nat := List.replicate 32 1;
     let s : State := State.reset |>.setKeys { slots := [(5, 2, k)] };
     c.op = 2 ∧ c.len ≤ maxMsg ∧ s.keyOf c.slot 2 = some k) ∧
    (let c : KeyCmd := ⟨3, 0, 255, 4, 95, 64⟩;
     c.op = 3 ∧ c.slot = 255 ∧ c.len < 96) ∧
    (let c : KeyCmd := ⟨3, 0, 255, 4, 96, 64⟩;
     c.op = 3 ∧ c.slot = 255 ∧ 96 ≤ c.len ∧ c.len ≤ maxMsg + 96) ∧
    (let c : KeyCmd := ⟨3, 0, 5, 4, 63, 64⟩;
     let s : State := State.reset.setSlot 5 4 (List.replicate 32 3);
     let k : List Nat := List.replicate 32 3;
     c.op = 3 ∧ c.slot ≠ 255 ∧ s.keyOf c.slot 4 = some k ∧ (c.len < 64 ∨ maxMsg + 64 < c.len)) ∧
    (let c : KeyCmd := ⟨3, 0, 5, 4, 64, 64⟩;
     let s : State := State.reset.setSlot 5 4 (List.replicate 32 3);
     let k : List Nat := List.replicate 32 3;
     c.op = 3 ∧ c.slot ≠ 255 ∧ s.keyOf c.slot 4 = some k ∧ 64 ≤ c.len ∧ c.len ≤ maxMsg + 64) ∧
    (let c : KeyCmd := ⟨4, 0, 5, 4, 32, 64⟩;
     let s : State := State.reset.setSlot 5 3 (List.replicate 32 3);
     let k : List Nat := List.replicate 32 3;
     c.op = 4 ∧ s.keyOf c.slot 3 = some k ∧ c.len = 32) ∧
    (let c : KeyCmd := ⟨4, 0, 5, 4, 31, 64⟩;
     let s : State := State.reset.setSlot 5 3 (List.replicate 32 3);
     let k : List Nat := List.replicate 32 3;
     c.op = 4 ∧ s.keyOf c.slot 3 = some k ∧ c.len ≠ 32) ∧
    (let c : KeyCmd := ⟨5, 0, 5, 4, 18, 64⟩;
     let s : State := State.reset.setSlot 5 1 (List.replicate 32 3);
     let k : List Nat := List.replicate 32 3;
     let iv : List Nat := List.replicate 12 0;
     let aad : List Nat := [];
     let r : List Nat := [0, 0];
     let b : List Nat := s.memBytes c.inp c.len;
     (c.op = 5 ∨ c.op = 6) ∧ s.keyOf c.slot 1 = some k ∧ gcmParts b = some (iv, aad, r) ∧ c.op = 5) ∧
    (let c : KeyCmd := ⟨6, 0, 5, 4, 18, 64⟩;
     let s : State := State.reset.setSlot 5 1 (List.replicate 32 3);
     let k : List Nat := List.replicate 32 3;
     let iv : List Nat := List.replicate 12 0;
     let aad : List Nat := [];
     let r : List Nat := [0, 0];
     let b : List Nat := s.memBytes c.inp c.len;
     (c.op = 5 ∨ c.op = 6) ∧ s.keyOf c.slot 1 = some k ∧ gcmParts b = some (iv, aad, r) ∧ c.op = 6 ∧
     r.length < 16) ∧
    (let c : KeyCmd := ⟨6, 0, 5, 4, 34, 64⟩;
     let s : State := State.reset.setSlot 5 1 (List.replicate 32 3);
     let k : List Nat := List.replicate 32 3;
     let iv : List Nat := List.replicate 12 0;
     let aad : List Nat := [];
     let r : List Nat := List.replicate 18 0;
     let b : List Nat := s.memBytes c.inp c.len;
     (c.op = 5 ∨ c.op = 6) ∧ s.keyOf c.slot 1 = some k ∧ gcmParts b = some (iv, aad, r) ∧ c.op = 6 ∧
     16 ≤ r.length ∧ gcmOpen k iv aad (List.take (r.length - 16) r) (List.drop (r.length - 16) r) = none) ∧
    (let c : KeyCmd := ⟨6, 0, 5, 4, 32, 64⟩;
     let k : List Nat := List.replicate 32 3;
     let iv : List Nat := List.replicate 12 0;
     let aad : List Nat := [];
     let r : List Nat := (gcmSeal k iv [] []).2;
     let pt : List Nat := [];
     let s : State := (State.reset.setSlot 5 1 k).setMemBytes 4 (List.replicate 16 0 ++ r);
     let b : List Nat := s.memBytes c.inp c.len;
     (c.op = 5 ∨ c.op = 6) ∧ s.keyOf c.slot 1 = some k ∧ gcmParts b = some (iv, aad, r) ∧ c.op = 6 ∧
     16 ≤ r.length ∧ gcmOpen k iv aad (List.take (r.length - 16) r) (List.drop (r.length - 16) r) = some pt) ∧
    (let c : KeyCmd := ⟨5, 0, 5, 4, 15, 64⟩;
     let s : State := State.reset.setSlot 5 1 (List.replicate 32 3);
     let b : List Nat := s.memBytes c.inp c.len;
     (c.op = 5 ∨ c.op = 6) ∧ (s.keyOf c.slot 1).isSome = true ∧ gcmParts b = none) ∧
    (let c : KeyCmd := keyCmd 2 2 5;
     let s : State := State.reset;
     (c.op = 2 ∧ s.keyOf c.slot 2 = none ∨ c.op = 3 ∧ c.slot ≠ 255 ∧ s.keyOf c.slot 4 = none ∨ c.op = 4 ∧ s.keyOf c.slot 3 = none ∨ (c.op = 5 ∨ c.op = 6) ∧ s.keyOf c.slot 1 = none)) ∧
    (let c : KeyCmd := keyCmd 7 0 0;
     let s : State := State.reset |>.set pKEYS KEYS.STAT_ENT_FAIL 1;
     c.op = 7 ∧ s.flag pKEYS KEYS.STAT_ENT_FAIL = true) ∧
    (let c : KeyCmd := ⟨7, 0, 0, 4, 65537, 64⟩;
     let s : State := State.reset;
     c.op = 7 ∧ s.flag pKEYS KEYS.STAT_ENT_FAIL = false ∧ 65536 < c.len) ∧
    (let c : KeyCmd := keyCmd 7 0 0;
     let s : State := State.reset;
     c.op = 7 ∧ s.flag pKEYS KEYS.STAT_ENT_FAIL = false ∧ c.len ≤ 65536) ∧
    (let c : KeyCmd := keyCmd 8 1 5;
     let s : State := State.reset;
     let k : Nat := 1;
     c.op = 8 ∧ c.slot < 64 ∧ (s.slot c.slot).1 = 0 ∧ 1 ≤ c.ty ∧ c.ty ≤ 3 ∧
     s.flag pKEYS KEYS.STAT_ENT_FAIL = false ∧ k ≠ c.slot) ∧
    (let c : KeyCmd := keyCmd 8 1 5;
     let s : State := State.reset |>.setKeys { slots := [(5, 2, [])] };
     c.op = 8 ∧ (64 ≤ c.slot ∨ (s.slot c.slot).1 ≠ 0 ∨ c.ty = 0 ∨ 3 < c.ty)) ∧
    (let c : KeyCmd := keyCmd 8 1 63;
     let s : State := State.reset |>.set pKEYS KEYS.STAT_ENT_FAIL 1;
     c.op = 8 ∧ c.slot < 64 ∧ (s.slot c.slot).1 = 0 ∧ 1 ≤ c.ty ∧ c.ty ≤ 3 ∧
     s.flag pKEYS KEYS.STAT_ENT_FAIL = true) ∧
    (let c : KeyCmd := keyCmd 9 0 0;
     let s : State := State.reset;
     c.op = 9 ∧ s.lifeSt ≠ 1 ∧ s.lifeSt ≠ 2) ∧
    (let c : KeyCmd := ⟨9, 2, 5, 4, 64, 64⟩;
     let s : State := State.reset |>.setReg pLIFE LIFE.STATE 1;
     c.op = 9 ∧ (s.lifeSt = 1 ∨ s.lifeSt = 2) ∧
     (64 ≤ c.slot ∨ (s.slot c.slot).1 ≠ 0 ∨ ¬(c.ty = 1 ∨ c.ty = 4 ∨ c.ty = 5))) ∧
    (let c : KeyCmd := ⟨9, 1, 63, 4, 31, 64⟩;
     let s : State := State.reset |>.setReg pLIFE LIFE.STATE 1;
     c.op = 9 ∧ (s.lifeSt = 1 ∨ s.lifeSt = 2) ∧ c.slot < 64 ∧ (s.slot c.slot).1 = 0 ∧
     (c.ty = 1 ∨ c.ty = 4 ∨ c.ty = 5) ∧ (c.len ≠ if c.ty = 5 then 64 else 32)) ∧
    (let c : KeyCmd := ⟨9, 1, 63, 4, 32, 64⟩;
     let s : State := State.reset |>.setReg pLIFE LIFE.STATE 1;
     let k : Nat := 1;
     c.op = 9 ∧ (s.lifeSt = 1 ∨ s.lifeSt = 2) ∧ c.slot < 64 ∧ (s.slot c.slot).1 = 0 ∧
     (c.ty = 1 ∨ c.ty = 4 ∨ c.ty = 5) ∧ (c.len = if c.ty = 5 then 64 else 32) ∧ k ≠ c.slot) ∧
    (let c : KeyCmd := keyCmd 10 0 5;
     let s : State := State.reset;
     let k : Nat := 1;
     c.op = 10 ∧ (2 ≤ c.slot ∨ c.slot = 1 ∧ s.lifeSt = 1) ∧ c.slot < 64 ∧ k ≠ c.slot) ∧
    (let c : KeyCmd := ⟨10, 0, 0, 4, 64, 64⟩;
     c.op = 10 ∧ (c.slot = 0 ∨ 64 ≤ c.slot)) ∧
    (let c : KeyCmd := keyCmd 10 0 1;
     let s : State := State.reset;
     c.op = 10 ∧ c.slot = 1 ∧ s.lifeSt ≠ 1) ∧
    (let key : List Nat := List.replicate 32 7;
     key.length = 32) := by
  refine ⟨?_, ?_, ?_, ?_, ?_, ?_, ?_, ?_, ?_, ?_, ?_, ?_, ?_, ?_, ?_, ?_, ?_, ?_, ?_, ?_, ?_, ?_, ?_, ?_, ?_,
    ?_, ?_, ?_, ?_⟩ <;> decide +kernel

/-- Hypotheses of TallyAndDrives are met, clause by clause. -/
theorem witness_TallyAndDrives :
    (let h : HwPost := { cls := 1, ty := 3, body := [] };
     let rest : List HwPost := [];
     let s : State := { State.reset.setStore { core := liveCore } with hwPosts := h :: rest } |>.set pTALLY
         TALLY.STAT_STORE tsOPEN;
     let x : ClsX := CoreX_get s.store.core h.cls;
     s.hwPosts = h :: rest ∧ h.cls < s.store.core.cls.length ∧ s.classRefuses h.cls = 0 ∧
     needBlock x (padRec (recBytes h.cls h.ty 4 x.next (s.beam.t / 256) s.addr (s.get pBEAM BEAM.STAT_LOCK) 0 h.body.length h.body)).length = false) ∧
    (let h : HwPost := { cls := 1, ty := 3, body := [] };
     let rest : List HwPost := [];
     let s : State := { State.reset with hwPosts := h :: rest } |>.set pTALLY TALLY.STAT_STORE tsOPEN;
     let x : ClsX := CoreX_get s.store.core h.cls;
     s.hwPosts = h :: rest ∧ h.cls < s.store.core.cls.length ∧ s.classRefuses h.cls = 0 ∧
     needBlock x (padRec (recBytes h.cls h.ty 4 x.next (s.beam.t / 256) s.addr (s.get pBEAM BEAM.STAT_LOCK) 0 h.body.length h.body)).length = true ∧
     ({ s with hwPosts := rest } : State).openBlock h.cls = none) ∧
    (let h : HwPost := { cls := 1, ty := 3, body := [] };
     let rest : List HwPost := [];
     let s : State := { State.reset with hwPosts := h :: rest };
     s.hwPosts = h :: rest ∧ s.classRefuses h.cls ≠ 0) ∧
    (let s : State := State.reset;
     s.hwPosts = [] ∧
     (s.postSize = 0 ∨ s.reg pTALLY TALLY.POST_RD % 65536 = s.reg pTALLY TALLY.POST_WR % 65536) ∧
     s.storeSt ≠ tsOPEN ∧ s.storeSt ≠ tsFAILED ∧ (s.storeSt ≠ tsOPEN ∨ s.store.round = none) ∧
     s.flag pTALLY PG.STAT_SHUTTING = false) ∧
    (let s : State := State.reset |>.setReg pTALLY TALLY.POST_SIZE 8 |>.setReg pTALLY TALLY.POST_WR 3;
     s.postSize ≠ 0 ∧ s.reg pTALLY TALLY.POST_RD % 65536 ≠ s.reg pTALLY TALLY.POST_WR % 65536 ∧
     s.storeSt ≠ tsOPEN) ∧
    (let s : State := State.reset |>.set pTALLY TALLY.STAT_STORE tsFAILED;
     s.storeSt = tsFAILED) ∧
    (let w : Writer := .spc;
     let s : State := State.reset |>.set pTALLY TALLY.STAT_STORE tsOPEN;
     s.storeSt = tsOPEN ∧ s.store.round = none ∧ s.mayAct w pTALLY) ∧
    (let x : CoreX := liveCore;
     let s : State := State.reset |>.set pTALLY TALLY.STAT_STORE tsOPEN |>.setStore { round := some x };
     s.storeSt = tsOPEN ∧ s.store.round = some x) ∧
    (let s : State := State.reset;
     let k : Nat := 1;
     k < 6 ∧ k < s.store.core.cls.length) ∧
    (let src : Fin 4096 := 1;
     let m : ReplPart := { replPart with orig := 4 };
     let e : Nat × Nat × Nat × Nat := (src, m.cls, m.orig, 0);
     let s : State := State.reset |>.setStore { copies := [e],
                                                core := { liveCore with cls := List.replicate 6 { dur := 1 } }
           };
     List.find? (fun e => e.1 == src.val && e.2.1 == m.cls && e.2.2.1 == m.orig) s.store.copies = some e ∧
     e.2.2.2 < (CoreX_get s.store.core m.cls).dur) ∧
    (let src : Fin 4096 := 1;
     let m : ReplPart := replPart;
     let e : Nat × Nat × Nat × Nat := (src.val, m.cls, m.orig, 5);
     let s : State := State.reset |>.setStore { core := liveCore, copies := [e] };
     List.find? (fun e => e.1 == src.val && e.2.1 == m.cls && e.2.2.1 == m.orig) s.store.copies = some e ∧
     (CoreX_get s.store.core m.cls).dur ≤ e.2.2.2) ∧
    (let src : Fin 4096 := 1;
     let s : State := State.reset;
     let m : ReplPart := replPart;
     List.find? (fun e => e.1 == src.val && e.2.1 == m.cls && e.2.2.1 == m.orig) s.store.copies = none ∧
     s.store.parts = [] ∧ 1 < m.nfrag) ∧
    (let src : Fin 4096 := 1;
     let s : State := State.reset;
     let m : ReplPart := { replPart with nfrag := 1, frag := 0 };
     List.find? (fun e => e.1 == src.val && e.2.1 == m.cls && e.2.2.1 == m.orig) s.store.copies = none ∧
     s.store.parts = [] ∧ m.nfrag = 1 ∧ m.frag = 0) ∧
    (let src : Fin 4096 := 0;
     let s : State := State.reset |>.set pTALLY TALLY.REPL_CFG_PEER src;
     src.val = s.get pTALLY TALLY.REPL_CFG_PEER) ∧
    (let src : Fin 4096 := 2;
     let s : State := State.reset;
     src.val ≠ s.get pTALLY TALLY.REPL_CFG_PEER) ∧
    (let c : Fin 6 := 1;
     let q : Nat := 1;
     let r : TRec := ⟨c, 1, []⟩;
     let s : State := State.reset |>.setStore { repl := [r] };
     let hit : Option TRec := List.find? (fun r => r.c == c.val && r.rseq == q) s.store.repl;
     hit = some r) ∧
    (let c : Fin 6 := 1;
     let s : State := State.reset;
     let q : Nat := 1;
     let hit : Option TRec := List.find? (fun r => r.c == c.val && r.rseq == q) s.store.repl;
     hit = none) ∧
    (let w : Writer := .spc;
     let s : State := State.reset |>.set pTALLY PG.CTL_EN 1;
     s.mayAct w pTALLY ∧
     (s.en pTALLY = true ∨ s.flag pTALLY PG.STAT_SHUTTING = true ∨ s.drivesOk = false ∨ s.store.label.isSome = true ∧ s.lifeSt ≠ 1 ∧ s.lifeSt ≠ 3)) ∧
    (let w : Writer := .spc;
     let s : State := State.reset |>.setReg pLIFE LIFE.STATE 1 |>.set (pNVME 0) NVME.STAT_STATE nvREADY;
     s.mayAct w pTALLY ∧ s.en pTALLY = false ∧ s.flag pTALLY PG.STAT_SHUTTING = false ∧
     (s.lifeSt = 1 ∨ s.lifeSt = 3 ∨ s.store.label = none) ∧ s.drivesOk = true) ∧
    (let s : State := State.reset |>.set (pNVME 0) NVME.STAT_STATE nvINIT;
     s.storeSt ≠ tsOPENING) ∧
    (let s : State := State.reset |>.set pTALLY TALLY.STAT_STORE tsOPENING |>.set (pNVME 0) NVME.STAT_STATE
         nvINIT;
     s.storeSt = tsOPENING ∧ s.drivesOk = false) ∧
    (let s : State := State.reset |>.set pTALLY TALLY.STAT_STORE tsOPENING |>.set (pNVME 0) NVME.STAT_STATE
         nvREADY;
     s.storeSt = tsOPENING ∧ s.drivesOk = true ∧ s.store.label = none) ∧
    (let l : LabelX := { label with sysId := 77 };
     let s : State := State.reset |>.set pTALLY TALLY.STAT_STORE tsOPENING |>.setStore { label := some l }
         |>.set (pNVME 0) NVME.STAT_STATE nvREADY;
     s.storeSt = tsOPENING ∧ s.drivesOk = true ∧ s.store.label = some l ∧
     (l.sysId ≠ s.reg pFABR FABR.SYS_ID ∨ l.key ≠ List.take 32 (s.slotPub 0))) ∧
    (let s : State := State.reset |>.set pTALLY TALLY.STAT_STORE tsOPENING |>.set (pNVME 0) NVME.STAT_STATE
         nvREADY |>.setStore { label := some label } |>.setReg pTALLY TALLY.TOTAL 100;
     s.storeSt = tsOPENING ∧ s.drivesOk = true ∧ s.store.label.isSome = true ∧ s.reg pTALLY TALLY.TOTAL ≠ 0) ∧
    (let l : LabelX := { label with key := (State.reset.slotPub 0).take 32 };
     let s : State := State.reset |>.set pTALLY TALLY.STAT_STORE tsOPENING |>.set (pNVME 0) NVME.STAT_STATE
         nvREADY |>.setStore { label := some l };
     s.storeSt = tsOPENING ∧ s.drivesOk = true ∧ s.store.label = some l ∧ l.sysId = s.reg pFABR FABR.SYS_ID ∧
     l.key = List.take 32 (s.slotPub 0)) ∧
    (let s : State := State.reset |>.set pTALLY PG.STAT_SHUTTING 1 |>.set pTALLY TALLY.STAT_STORE tsOPENING;
     s.flag pTALLY PG.STAT_SHUTTING = true ∧ s.storeSt = tsOPENING) ∧
    (let w : Writer := .spc;
     let s : State := State.reset;
     let v : Word := 0;
     s.mayAct w pTALLY ∧ BitVec.toNat v < 2 ^ 31) ∧
    (let w : Writer := .spc;
     let s : State := State.reset;
     let v : Word := 0x80000001;
     s.mayAct w pTALLY ∧ 2 ^ 31 ≤ BitVec.toNat v ∧ s.storeSt ≠ tsOPEN) ∧
    (let w : Writer := .spc;
     let s : State := State.reset |>.set pTALLY TALLY.STAT_STORE tsOPEN |>.setReg pTALLY TALLY.RD_OFS 65535;
     let v : Word := 0x80000002;
     let len : Nat := if BitVec.toNat v % 2 ^ 17 = 0 then 65536 else BitVec.toNat v % 2 ^ 17;
     s.mayAct w pTALLY ∧ 2 ^ 31 ≤ BitVec.toNat v ∧ s.storeSt = tsOPEN ∧
     65536 < len + s.reg pTALLY TALLY.RD_OFS % 65536) ∧
    (let w : Writer := .spc;
     let s : State := State.reset |>.set pTALLY TALLY.STAT_STORE tsOPEN;
     let v : Word := 0x80000001;
     let len : Nat := if BitVec.toNat v % 2 ^ 17 = 0 then 65536 else BitVec.toNat v % 2 ^ 17;
     let cls : Nat := bitsOf (BitVec.toNat v) 30 28;
     let got : Option (List Nat) := s.storeBytes cls (s.reg pTALLY TALLY.RD_BSEQ) (s.reg pTALLY TALLY.RD_OFS %
         65536) len;
     s.mayAct w pTALLY ∧ 2 ^ 31 ≤ BitVec.toNat v ∧ s.storeSt = tsOPEN ∧
     len + s.reg pTALLY TALLY.RD_OFS % 65536 ≤ 65536 ∧ (6 ≤ cls ∨ got = none)) ∧
    (let w : Writer := .spc;
     let s : State := State.reset |>.set pTALLY TALLY.STAT_STORE tsOPEN |>.setStore { core := liveCore };
     let v : Word := 0xD0000004;
     let len : Nat := if BitVec.toNat v % 2 ^ 17 = 0 then 65536 else BitVec.toNat v % 2 ^ 17;
     let b : List Nat := List.replicate 4 0;
     let cls : Nat := bitsOf (BitVec.toNat v) 30 28;
     let got : Option (List Nat) := s.storeBytes cls (s.reg pTALLY TALLY.RD_BSEQ) (s.reg pTALLY TALLY.RD_OFS %
         65536) len;
     s.mayAct w pTALLY ∧ 2 ^ 31 ≤ BitVec.toNat v ∧ s.storeSt = tsOPEN ∧
     len + s.reg pTALLY TALLY.RD_OFS % 65536 ≤ 65536 ∧ cls < 6 ∧ got = some b) ∧
    (let k : Fin 2 := 1;
     let s : State := State.reset |>.set (pNVME k.val) NVME.STAT_STATE nvABSENT;
     (s.driveSt k.val = nvABSENT ∨ s.driveSt k.val = nvFAILED)) ∧
    (let k : Fin 2 := 1;
     let s : State := State.reset |>.set (pNVME k) NVME.STAT_STATE nvREADY;
     s.driveSt k.val ≠ nvABSENT ∧ s.driveSt k.val ≠ nvFAILED) ∧
    (let k : Fin 2 := 1;
     let s : State := State.reset;
     s.en (pNVME k.val) = false) ∧
    (let k : Fin 2 := 1;
     let s : State := State.reset |>.set (pNVME k.val) PG.CTL_EN 1 |>.set (pNVME k.val) NVME.STAT_STATE nvINIT;
     s.en (pNVME k.val) = true ∧ s.injArmed (pNVME k.val) 0 = false ∧ s.driveSt k.val = nvINIT) ∧
    (let k : Fin 2 := 1;
     let s : State := State.reset |>.set (pNVME k.val) PG.CTL_EN 1 |>.set (pNVME k.val) NVME.STAT_STATE nvREADY;
     s.en (pNVME k.val) = true ∧ s.injArmed (pNVME k.val) 0 = false ∧ s.driveSt k.val = nvREADY ∧
     s.store.nsOp.getD k.val 0 = 0) ∧
    (let k : Fin 2 := 1;
     let s : State := State.reset |>.set (pNVME k.val) PG.CTL_EN 1 |>.set (pNVME k.val) NVME.STAT_STATE nvREADY;
     let st : Nat := 1;
     s.en (pNVME k.val) = true ∧ s.injArmed (pNVME k.val) 0 = false ∧ s.driveSt k.val = nvREADY ∧ st ≠ 0) ∧
    (let k : Fin 2 := 1;
     let s : State := State.reset |>.set (pNVME k.val) PG.CTL_EN 1 |>.set (pNVME k.val) NVME.STAT_STATE nvREADY
         |>.setStore { nsOp := [2, 2] };
     s.en (pNVME k.val) = true ∧ s.injArmed (pNVME k.val) 0 = false ∧ s.driveSt k.val = nvREADY ∧
     s.store.nsOp.getD k.val 0 ≠ 0) ∧
    (let k : Fin 2 := 1;
     let s : State := State.reset |>.set (pNVME k.val) PG.CTL_EN 1 |>.set (pNVME k.val) NVME.STAT_STATE nvREADY
         |>.set (pNVME k) PG.INJ_POINT 0 |>.set (pNVME k) PG.INJ_SHOTS 1;
     s.en (pNVME k.val) = true ∧ (s.injTake (pNVME k.val) 0).1 = true ∧ s.driveSt k.val = nvREADY) ∧
    (let w : Writer := .spc;
     let k : Fin 2 := 1;
     let s : State := State.reset;
     s.mayAct w (pNVME k.val) ∧ s.en pTALLY = false ∧ s.lifeSt ≠ 2) ∧
    (let w : Writer := .spc;
     let k : Fin 2 := 1;
     let s : State := State.reset |>.setReg pLIFE LIFE.STATE 2;
     s.mayAct w (pNVME k.val) ∧ s.en pTALLY = false ∧ s.lifeSt = 2) ∧
    (let w : Writer := .spc;
     let k : Fin 2 := 1;
     let s : State := State.reset |>.set pTALLY PG.CTL_EN 1;
     s.mayAct w (pNVME k.val) ∧ s.en pTALLY = true) := by
  refine ⟨?_, ?_, ?_, ?_, ?_, ?_, ?_, ?_, ?_, ?_, ?_, ?_, ?_, ?_, ?_, ?_, ?_, ?_, ?_, ?_, ?_, ?_, ?_, ?_, ?_,
    ?_, ?_, ?_, ?_, ?_, ?_, ?_, ?_, ?_, ?_, ?_, ?_, ?_, ?_, ?_, ?_, ?_⟩ <;> decide +kernel

/-- Hypotheses of ResetsAndLife are met, clause by clause. -/
theorem witness_ResetsAndLife :
    (let s : State := State.reset |>.setBoot { testEn := true };
     let v : DomSt := .active;
     s.boot.testEn = true ∧ v ≠ DomSt.resting) ∧
    (let w : Writer := .spc;
     let s : State := State.reset;
     let key : Fin 65536 := 1;
     s.mayAct w pSYS ∧ key.val ≠ 45063) ∧
    (let w : Writer := .spc;
     let s : State := State.reset;
     let scope : Fin 16 := 1;
     s.mayAct w pSYS ∧ scope.val = 1) ∧
    (let w : Writer := .spc;
     let s : State := State.reset;
     let scope : Fin 16 := 2;
     s.mayAct w pSYS ∧ scope.val = 2) ∧
    (let w : Writer := .spc;
     let s : State := State.reset;
     let scope : Fin 16 := 4;
     s.mayAct w pSYS ∧ 4 ≤ scope.val ∧ scope.val ≤ 7) ∧
    (let w : Writer := .spc;
     let s : State := State.reset;
     let scope : Fin 16 := 8;
     s.mayAct w pSYS ∧ (scope.val = 3 ∨ 8 ≤ scope.val ∨ scope.val = 0)) ∧
    (let w : Writer := .spc;
     let s : State := State.reset;
     s.mayAct w pPROF ∧ (s.dev ≠ dvQUIET ∨ s.flag pREST REST.STAT_WAKING = true)) ∧
    (let w : Writer := .spc;
     let s : State := State.reset |>.set pREST REST.STAT_STATE dvQUIET;
     s.mayAct w pPROF ∧ s.dev = dvQUIET ∧ s.flag pREST REST.STAT_WAKING = false) ∧
    (let h : Fin 4 := 1;
     let key : Fin 65536 := 1;
     let s : State := State.reset;
     s.mayAct (Writer.apc h) pLIFE ∧ key.val ≠ 4606) ∧
    (let h : Fin 4 := 1;
     let key : Fin 65536 := 4606;
     let g : Fin 8 := 2;
     let s : State := State.reset;
     s.mayAct (Writer.apc h) pLIFE ∧ key.val = 4606 ∧ g.val ≠ s.lifeSt + 1) ∧
    (let h : Fin 4 := 1;
     let key : Fin 65536 := 4606;
     let g : Fin 8 := 2;
     let s : State := State.reset |>.setReg pLIFE LIFE.STATE 1;
     s.mayAct (Writer.apc h) pLIFE ∧ key.val = 4606 ∧ g.val = s.lifeSt + 1 ∧ s.advPre = false) ∧
    (let h : Fin 4 := 1;
     let key : Fin 65536 := 4606;
     let g : Fin 8 := 1;
     let s : State := State.reset;
     s.mayAct (Writer.apc h) pLIFE ∧ key.val = 4606 ∧ g.val = s.lifeSt + 1 ∧ s.advPre = true) ∧
    (let h : Fin 4 := 1;
     let s : State := State.reset;
     let k : Nat := 1;
     s.mayAct (Writer.apc h) pLIFE ∧ k ≠ 0) ∧
    (let h : Fin 4 := 1;
     let s : State := State.reset;
     let w : Writer := .spc;
     s.mayAct (Writer.apc h) pLIFE ∧ (∀ (j : Fin 4), w ≠ Writer.apc j)) := by
  refine ⟨?_, ?_, ?_, ?_, ?_, ?_, ?_, ?_, ?_, ?_, ?_, ?_, ?_, ?_⟩ <;> decide +kernel

/-- Hypotheses of FlashAndBoot are met, clause by clause. -/
theorem witness_FlashAndBoot :
    (let w : Writer := .spc;
     (∀ (j : Fin 4), w ≠ Writer.apc j)) ∧
    (let h : Fin 4 := 1;
     let s : State := State.reset |>.setBoot { op := some (1, 0, 0, 0) } |>.setBoot { op := some (1, 0, 0, 0) };
     let op : Nat := 1;
     s.mayAct (Writer.apc h) pPROF ∧ (op = 1 ∨ op = 2) ∧ s.boot.op.isSome = true) ∧
    (let h : Fin 4 := 1;
     let s : State := State.reset;
     let op : Nat := 1;
     let a : Nat := s.reg pPROF PROF.CFW_ADDR % 2 ^ 28;
     let n : Nat := s.reg pPROF PROF.CFW_LEN % 2 ^ 28;
     let u : State := s.set pPROF PROF.CFW_CMD_OP op;
     s.mayAct (Writer.apc h) pPROF ∧ (op = 1 ∨ op = 2) ∧ s.boot.op = none ∧ u.cfwCheck op a n = cwOK) ∧
    (let h : Fin 4 := 1;
     let s : State := State.reset |>.setReg pPROF PROF.CFW_ADDR 0x0A100000;
     let op : Nat := 1;
     let a : Nat := s.reg pPROF PROF.CFW_ADDR % 2 ^ 28;
     let n : Nat := s.reg pPROF PROF.CFW_LEN % 2 ^ 28;
     let u : State := s.set pPROF PROF.CFW_CMD_OP op;
     s.mayAct (Writer.apc h) pPROF ∧ (op = 1 ∨ op = 2) ∧ s.boot.op = none ∧ u.cfwCheck op a n ≠ cwOK) ∧
    (let s : State := State.reset;
     let op : Nat := 1;
     let a : Nat := 1;
     let n : Nat := 1;
     s.cfwCheck op a n ≠ cwDENIED) ∧
    (let s : State := State.reset;
     s.boot.op = none ∧ s.evtQueue = [] ∧ s.boot.due = true ∧ s.dom Dom.rd = DomSt.active) ∧
    (let a : Nat := 1;
     let n : Nat := 1;
     let src : Nat := 1;
     let s : State := State.reset |>.setBoot { op := some (1, a, n, src) };
     s.boot.op = some (1, a, n, src)) ∧
    (let a : Nat := 1;
     let n : Nat := 1;
     let src : Nat := 1;
     let s : State := State.reset |>.setBoot { op := some (2, a, n, src) };
     s.boot.op = some (2, a, n, src) ∧ s.injArmed pAPC 0 = false) ∧
    (let e : List Nat := [1];
     let r : List (List Nat) := [];
     let s : State := { State.reset with evtQueue := e :: r };
     s.evtQueue = e :: r) ∧
    (let s : State := State.reset |>.setBoot { due := false };
     (s.boot.due = false ∨ s.dom Dom.rd ≠ DomSt.active)) ∧
    (let p : Nat := 1;
     let s : State := withCopy State.reset p 0 5 0;
     s.copyOk p 0 = true ∧ s.copyOk p 1 = false) ∧
    (let p : Nat := 1;
     let s : State := withCopy State.reset p 1 5 0;
     s.copyOk p 0 = false ∧ s.copyOk p 1 = true) ∧
    (let s : State := State.reset;
     let p : Nat := 1;
     s.copyOk p 0 = false ∧ s.copyOk p 1 = false) ∧
    (let p : Nat := 1;
     let s : State := withCopy (withCopy State.reset p 0 5 0) p 1 6 0;
     s.copyOk p 0 = true ∧ s.copyOk p 1 = true ∧ s.copyGen p 0 < s.copyGen p 1) ∧
    (let p : Nat := 1;
     let s : State := withCopy (withCopy State.reset p 0 6 0) p 1 5 0;
     s.copyOk p 0 = true ∧ s.copyOk p 1 = true ∧ s.copyGen p 1 < s.copyGen p 0) ∧
    (let p : Nat := 1;
     let s : State := withCopy (withCopy State.reset p 0 5 0) p 1 5 0;
     s.copyOk p 0 = true ∧ s.copyOk p 1 = true ∧ s.copyGen p 0 = s.copyGen p 1 ∧ s.copiesSame p = true) ∧
    (let p : Nat := 1;
     let s : State := withCopy (withCopy State.reset p 0 5 0) p 1 5 1;
     s.copyOk p 0 = true ∧ s.copyOk p 1 = true ∧ s.copyGen p 0 = s.copyGen p 1 ∧ s.copiesSame p = false) ∧
    (let s : State := State.reset;
     let us : Nat := 1;
     s.boot.defer = [] ∧ s.split = false ∧ s.pairFaulted = false ∧ us < 2 ^ 20) ∧
    (let w : Writer := .spc;
     let s : State := State.reset;
     s.loaderOn w = false) ∧
    (let w : Writer := .session 0;
     let s : State := State.reset |>.set pSYS SYS.BOOT_STAT_LOADER 1;
     let r : Fin 256 := 2;
     s.loaderOn w = true ∧ loaderRegion r.val = none) ∧
    (let w : Writer := .session 0;
     let s : State := State.reset |>.set pSYS SYS.BOOT_STAT_LOADER 1;
     let n : Word := 1;
     s.loaderOn w = true ∧ BitVec.toNat n % 65536 ≠ 0) ∧
    (let w : Writer := .session 0;
     let s : State := State.reset |>.set pSYS SYS.BOOT_STAT_LOADER 1;
     let l : List Nat := [];
     s.loaderOn w = true ∧ (l.length = 0 ∨ 2016 < l.length)) ∧
    (let w : Writer := .session 0;
     let s : State := State.reset |>.set pSYS SYS.BOOT_STAT_LOADER 1 |>.setBoot { op := some (1, 0, 0, 0) };
     let r : Fin 256 := 1;
     let base : Nat := cfFw;
     let o : Word := 0;
     let n : Word := 0x00010000;
     s.loaderOn w = true ∧ loaderRegion r.val = some base ∧ BitVec.toNat n % 65536 = 0 ∧
     BitVec.toNat o < 134217728 ∧ s.boot.op.isSome = true) ∧
    (let w : Writer := .session 0;
     let s : State := State.reset |>.set pSYS SYS.BOOT_STAT_LOADER 1;
     let r : Fin 256 := 1;
     let base : Nat := cfFw;
     let o : Word := 0x07FF0000;
     let n : Word := 0x00020000;
     let c : Nat := if cfRegion (base + BitVec.toNat o) ≠ base then cwRANGE else s.cfwCheck 1 (base +
         BitVec.toNat o) (BitVec.toNat n);
     s.loaderOn w = true ∧ loaderRegion r.val = some base ∧ BitVec.toNat n % 65536 = 0 ∧
     BitVec.toNat o < 134217728 ∧ s.boot.op = none ∧ c ≠ cwOK) ∧
    (let w : Writer := .session 0;
     let s : State := State.reset |>.set pSYS SYS.BOOT_STAT_LOADER 1;
     let r : Fin 256 := 1;
     let base : Nat := cfFw;
     let o : Word := 0;
     let n : Word := 0x00010000;
     let c : Nat := if cfRegion (base + BitVec.toNat o) ≠ base then cwRANGE else s.cfwCheck 1 (base +
         BitVec.toNat o) (BitVec.toNat n);
     s.loaderOn w = true ∧ loaderRegion r.val = some base ∧ BitVec.toNat n % 65536 = 0 ∧
     BitVec.toNat o < 134217728 ∧ s.boot.op = none ∧ c = cwOK) ∧
    (let w : Writer := .session 0;
     let s : State := State.reset |>.set pSYS SYS.BOOT_STAT_LOADER 1 |>.setBoot { op := some (1, 0, 0, 0) };
     let r : Fin 256 := 1;
     let base : Nat := cfFw;
     let o : Word := 0;
     let l : List Nat := [1, 2];
     s.loaderOn w = true ∧ loaderRegion r.val = some base ∧ l ≠ [] ∧ l.length ≤ 2016 ∧
     BitVec.toNat o < 134217728 ∧ s.boot.op.isSome = true) ∧
    (let w : Writer := .session 0;
     let s : State := State.reset |>.set pSYS SYS.BOOT_STAT_LOADER 1;
     let r : Fin 256 := 1;
     let base : Nat := cfFw;
     let o : Word := 0x07FFFFFC;
     let l : List Nat := List.replicate 8 1;
     let c : Nat := if cfRegion (base + BitVec.toNat o) ≠ base then cwRANGE else s.cfwCheck 2 (base +
         BitVec.toNat o) l.length;
     s.loaderOn w = true ∧ loaderRegion r.val = some base ∧ l ≠ [] ∧ l.length ≤ 2016 ∧
     BitVec.toNat o < 134217728 ∧ s.boot.op = none ∧ c ≠ cwOK) ∧
    (let w : Writer := .session 0;
     let s : State := State.reset |>.set pSYS SYS.BOOT_STAT_LOADER 1;
     let r : Fin 256 := 1;
     let base : Nat := cfFw;
     let o : Word := 0;
     let l : List Nat := [1, 2];
     let c : Nat := if cfRegion (base + BitVec.toNat o) ≠ base then cwRANGE else s.cfwCheck 2 (base +
         BitVec.toNat o) l.length;
     s.loaderOn w = true ∧ loaderRegion r.val = some base ∧ l ≠ [] ∧ l.length ≤ 2016 ∧
     BitVec.toNat o < 134217728 ∧ s.boot.op = none ∧ c = cwOK) := by
  refine ⟨?_, ?_, ?_, ?_, ?_, ?_, ?_, ?_, ?_, ?_, ?_, ?_, ?_, ?_, ?_, ?_, ?_, ?_, ?_, ?_, ?_, ?_, ?_, ?_, ?_,
    ?_, ?_, ?_⟩ <;> decide +kernel

/-- Hypotheses of SelfTest are met, clause by clause. -/
theorem witness_SelfTest :
    (let s : State := State.reset;
     (s.rotation = false ∨ s.lbSt ≠ lbIDLE ∨ dvREST ≤ s.dev) ∧ s.lbSt ≠ lbWAIT ∧
     (s.bist.slot = none ∨ s.lbSt ≠ lbTEST ∧ s.lbSt ≠ lbINPLACE) ∧ s.bist.dte = none) ∧
    (let s : State := State.reset |>.set pBIST BIST.LB_CFG_EN 1 |>.set pBIST BIST.LB_STAT_STATE lbIDLE
         |>.setBist { spareTest := true };
     s.rotation = true ∧ s.lbSt = lbIDLE ∧ s.dev < dvREST ∧ s.bist.spareTest = true) ∧
    (let s : State := State.reset |>.set pBIST BIST.LB_CFG_EN 1 |>.set pBIST BIST.LB_STAT_STATE lbIDLE |>.set
         (pRECK 1) RECK.STATUS_PHYS 0;
     let quiet : Bool := Option.all (fun k => decide (s.rkSt k = rkSTOPPED ∨ s.rkSt k = rkFATAL)) (s.logicalOn
         s.nextCore);
     s.rotation = true ∧ s.lbSt = lbIDLE ∧ s.dev < dvREST ∧ s.bist.spareTest = false ∧ quiet = true) ∧
    (let s : State := State.reset |>.set pBIST BIST.LB_CFG_EN 1 |>.set pBIST BIST.LB_STAT_STATE lbIDLE |>.set
         (pRECK 1) RECK.STATUS_STATE rkRUN |>.setBist { last := 0 };
     let quiet : Bool := Option.all (fun k => decide (s.rkSt k = rkSTOPPED ∨ s.rkSt k = rkFATAL)) (s.logicalOn
         s.nextCore);
     s.rotation = true ∧ s.lbSt = lbIDLE ∧ s.dev < dvREST ∧ s.bist.spareTest = false ∧ quiet = false) ∧
    (let s : State := State.reset |>.set pBIST BIST.LB_STAT_STATE lbWAIT;
     s.lbSt = lbWAIT ∧ s.bist.skips < 2) ∧
    (let s : State := State.reset |>.set pBIST BIST.LB_STAT_STATE lbWAIT |>.setBist { skips := 2 };
     s.lbSt = lbWAIT ∧ 2 ≤ s.bist.skips) ∧
    (let x : SlotX := ⟨31, none, true⟩;
     let s : State := State.reset |>.set pBIST BIST.LB_STAT_STATE lbINPLACE |>.setBist { slot := some x };
     s.bist.slot = some x ∧ s.lbSt = lbINPLACE ∧ x.inPlace = true ∧ x.logical = none) ∧
    (let x : SlotX := ⟨3, some 3, true⟩;
     let n : Nat := 3;
     let s : State := State.reset |>.set pBIST BIST.LB_STAT_STATE lbINPLACE |>.setBist { slot := some x };
     s.bist.slot = some x ∧ s.lbSt = lbINPLACE ∧ x.inPlace = true ∧ x.logical = some n) ∧
    (let x : SlotX := ⟨3, none, false⟩;
     let s : State := State.reset |>.set pBIST BIST.LB_STAT_STATE lbTEST |>.setBist { slot := some x };
     s.bist.slot = some x ∧ s.lbSt = lbTEST ∧ x.inPlace = false) ∧
    (let w : Writer := .spc;
     let s : State := State.reset;
     s.mayAct w pBIST ∧ s.lifeSt ≠ 1 ∧ s.lifeSt ≠ 3) ∧
    (let w : Writer := .spc;
     let s : State := State.reset |>.setReg pLIFE LIFE.STATE 1 |>.setBist { dte := some (1, 0) };
     s.mayAct w pBIST ∧ (s.lifeSt = 1 ∨ s.lifeSt = 3) ∧ s.bist.dte.isSome = true) ∧
    (let w : Writer := .spc;
     let s : State := State.reset |>.setReg pLIFE LIFE.STATE 1;
     let id : Fin 256 := 76;
     s.mayAct w pBIST ∧ (s.lifeSt = 1 ∨ s.lifeSt = 3) ∧ s.bist.dte = none ∧ 76 ≤ id.val) ∧
    (let w : Writer := .spc;
     let s : State := State.reset |>.setReg pLIFE LIFE.STATE 1 |>.set (pRECK 31) RECK.STATUS_PHYS 0;
     let id : Fin 256 := 32;
     s.mayAct w pBIST ∧ (s.lifeSt = 1 ∨ s.lifeSt = 3) ∧ s.bist.dte = none ∧ 32 ≤ id.val) ∧
    (let w : Writer := .spc;
     let s : State := State.reset |>.setReg pLIFE LIFE.STATE 1 |>.set (pRECK 1) RECK.STATUS_STATE rkRUN;
     let id : Fin 256 := 1;
     let u : Nat → State := fun op => (s.set pBIST BIST.DTE_CMD_OP op).set pBIST BIST.DTE_CMD_ARG id.val;
     let v : Nat → State := fun op => (u op).setReg pBIST BIST.DTE_RES 0;
     s.mayAct w pBIST ∧ (s.lifeSt = 1 ∨ s.lifeSt = 3) ∧ s.bist.dte = none ∧ id.val < 76 ∧
     (v 1).memIdle id.val = false) ∧
    (let w : Writer := .spc;
     let s : State := State.reset |>.setReg pLIFE LIFE.STATE 1;
     let id : Fin 256 := 75;
     let u : Nat → State := fun op => (s.set pBIST BIST.DTE_CMD_OP op).set pBIST BIST.DTE_CMD_ARG id.val;
     let v : Nat → State := fun op => (u op).setReg pBIST BIST.DTE_RES 0;
     s.mayAct w pBIST ∧ (s.lifeSt = 1 ∨ s.lifeSt = 3) ∧ s.bist.dte = none ∧ id.val < 76 ∧
     (v 1).memIdle id.val = true) ∧
    (let w : Writer := .spc;
     let s : State := State.reset |>.setReg pLIFE LIFE.STATE 1 |>.set pBIST BIST.LB_CFG_EN 1 |>.set (pRECK 31)
         RECK.STATUS_PHYS 0;
     let id : Fin 256 := 31;
     let u : Nat → State := fun op => (s.set pBIST BIST.DTE_CMD_OP op).set pBIST BIST.DTE_CMD_ARG id.val;
     let v : Nat → State := fun op => (u op).setReg pBIST BIST.DTE_RES 0;
     let stands : Bool := Option.all (fun k => decide ((v 2).rkSt k = rkSTOPPED)) (List.find? (fun n => decide
         ((v 2).phys n = id.val)) (List.range 32));
     s.mayAct w pBIST ∧ (s.lifeSt = 1 ∨ s.lifeSt = 3) ∧ s.bist.dte = none ∧ id.val < 32 ∧
     (s.rotation = true ∨ stands = false)) ∧
    (let w : Writer := .spc;
     let s : State := State.reset |>.setReg pLIFE LIFE.STATE 1 |>.set (pRECK 31) RECK.STATUS_PHYS 0;
     let id : Fin 256 := 31;
     let u : Nat → State := fun op => (s.set pBIST BIST.DTE_CMD_OP op).set pBIST BIST.DTE_CMD_ARG id.val;
     let v : Nat → State := fun op => (u op).setReg pBIST BIST.DTE_RES 0;
     let stands : Bool := Option.all (fun k => decide ((v 2).rkSt k = rkSTOPPED)) (List.find? (fun n => decide
         ((v 2).phys n = id.val)) (List.range 32));
     s.mayAct w pBIST ∧ (s.lifeSt = 1 ∨ s.lifeSt = 3) ∧ s.bist.dte = none ∧ id.val < 32 ∧ s.rotation = false ∧
     stands = true) ∧
    (let k : Nat := 1;
     let s : State := State.reset |>.setBist { dte := some (1, k) } |>.setBist { dte := some (1, k) };
     s.bist.dte = some (1, k)) ∧
    (let k : Nat := 1;
     let s : State := State.reset |>.setBist { dte := some (2, k) };
     s.bist.dte = some (2, k)) ∧
    (let k : Nat := 1;
     let s : State := State.reset |>.setBist { dte := some (3, k) } |>.setBist
         { dte := some (3, k), info := [(k, { rows := 5 })] };
     s.bist.dte = some (3, k) ∧ 4 < s.fuseRows k + (s.memInfo k).rows) ∧
    (let k : Nat := 1;
     let s : State := State.reset |>.setBist { dte := some (3, k) } |>.setBist { dte := some (3, k) };
     s.bist.dte = some (3, k) ∧ s.fuseRows k + (s.memInfo k).rows ≤ 4) := by
  refine ⟨?_, ?_, ?_, ?_, ?_, ?_, ?_, ?_, ?_, ?_, ?_, ?_, ?_, ?_, ?_, ?_, ?_, ?_, ?_, ?_, ?_⟩ <;> decide +kernel

end Sys2Proof.Tests
end

/-! PROOFS. The shifts and the divisions of the reckoners (spec/09, R226, R229, R230). -/

namespace Sys2Proof.Machine

open Host (Outcome)

section

variable {s : State} {k op n w : Nat}

/-! ## Shifts (R226) -/

theorem sxt_32_bounds (a : Nat) : -(2 ^ 31) ≤ sxt 32 a ∧ sxt 32 a < 2 ^ 31 := by
  simp only [sxt]
  split <;> omega

/-- The floor of a 32-bit number by 2 ^ 32 is its sign. -/
theorem sxt_32_ediv_two_pow_32 (a : Nat) :
    sxt 32 a / ((2 ^ 32 : Nat) : Int) = if 0 ≤ sxt 32 a then 0 else -1 := by
  obtain ⟨hlo, hhi⟩ := sxt_32_bounds a
  split <;> omega

/-- The model cuts the amount of SHRA at 32; from 32 on only the sign is left. -/
theorem shraV_eq (a n : Nat) :
    shraV a n = if 32 ≤ n then (if 0 ≤ sxt 32 a then 0 else 0xFFFFFFFF)
      else enc 32 (sxt 32 a / ((2 ^ n : Nat) : Int)) := by
  unfold shraV
  by_cases hn : 32 ≤ n
  · rw [if_pos hn, Nat.min_eq_right hn, sxt_32_ediv_two_pow_32]
    split <;> rfl
  · rw [if_neg hn, Nat.min_eq_left (Nat.le_of_not_le hn)]

theorem rInstr_resZN {v : ReckX → Nat → Nat} (h : s.atInstr k op (some n) w) (hl : legalR w = true) :
    s.rInstr k op n (fun x w => resZN x w (v x w)) =
      s.wrote k w (v (s.reckX k) w) (flZN (s.reckX k).flags (v (s.reckX k) w)) := by
  rw [rInstr_legal h hl, resZN, finishI_one]

theorem legalSh_eq_true (hl : legalI w = true) (hi : iIMM w < 256) : legalSh w = true := by
  simp [legalSh, hl, hi]

theorem legalSh_eq_false (hi : 256 ≤ iIMM w) : legalSh w = false := by
  simp [legalSh, Nat.not_lt.mpr hi]

theorem shInstr_legal {f : Nat → Nat → Nat} (h : s.atInstr k op none w) (hl : legalI w = true) (hi : iIMM w < 256) :
    s.shInstr k op f = s.wrote k w (f ((s.reckX k).reg (iA w)) (iIMM w % 256))
      (flZN (s.reckX k).flags (f ((s.reckX k).reg (iA w)) (iIMM w % 256))) := by
  rw [State.shInstr, instr_legal h (legalSh_eq_true hl hi), Nat.mod_eq_of_lt hi]
  exact finishI_one

theorem shInstr_illegal {f : Nat → Nat → Nat} (h : s.atInstr k op none w) (hi : 256 ≤ iIMM w) :
    s.shInstr k op f = s.trapHere k tcILLEGAL :=
  instr_illegal h (legalSh_eq_false hi)

/-! ## Divisions (R229, R230) -/

theorem rInstr_resF {r : ReckX → Nat → FRes} (h : s.atInstr k op (some n) w) (hl : legalR w = true) :
    s.rInstr k op n (fun x w => resF x w (r x w)) =
      s.wrote k w (r (s.reckX k) w).v ((s.reckX k).flags ||| (r (s.reckX k) w).fl) := by
  rw [rInstr_legal h hl, resF, finishI_one]

variable {edge : ReckX → Nat → Nat} {r : ReckX → Nat → Nat × Nat}

/-- A division by 0 under DZ_TRAP traps with TPC at the division itself. -/
theorem rInstr_divRes_trap (h : s.atInstr k op (some n) w) (hl : legalR w = true)
    (hb : (s.reckX k).b w = 0) (ht : (s.reckX k).ctrl.testBit 0 = true) :
    s.rInstr k op n (fun x w => divRes x w (edge x w) (r x w)) = s.reckTrap k tcDIVZERO (s.reckX k).pc := by
  rw [rInstr_legal h hl, divRes, if_pos hb, if_pos ht, finishI_trap, State.trapHere]

/-- A division by 0 without DZ_TRAP gives the edge result and sets DZ. -/
theorem rInstr_divRes_edge (h : s.atInstr k op (some n) w) (hl : legalR w = true)
    (hb : (s.reckX k).b w = 0) (ht : (s.reckX k).ctrl.testBit 0 = false) :
    s.rInstr k op n (fun x w => divRes x w (edge x w) (r x w)) =
      s.wrote k w (edge (s.reckX k) w) (flZN (s.reckX k).flags (edge (s.reckX k) w) ||| flDZ) := by
  rw [rInstr_legal h hl, divRes, if_pos hb, if_neg (by simp [ht]), resSt, finishI_one]

/-- A division by another number gives its result, whatever DZ_TRAP holds. -/
theorem rInstr_divRes_quotient (h : s.atInstr k op (some n) w) (hl : legalR w = true) (hb : (s.reckX k).b w ≠ 0) :
    s.rInstr k op n (fun x w => divRes x w (edge x w) (r x w)) =
      s.wrote k w (r (s.reckX k) w).1 (flZN (s.reckX k).flags (r (s.reckX k) w).1 ||| (r (s.reckX k) w).2) := by
  rw [rInstr_legal h hl, divRes, if_neg hb, resSt, finishI_one]

end

/-- Settles O13: each shift runs its body on a legal word, an amount in IMM above 255 is an illegal field, and
`shraV_eq` gives SHRA from 32 on. -/
theorem reckShift : Obligations.ReckShift := by
  unfold Obligations.ReckShift
  intro k s w
  simp only [← shraV_eq]
  refine ⟨fun hl => ?byRegister, fun hl hi => ?byImmediate, fun hi => ?illegalAmount⟩
  case byRegister =>
    refine ⟨?_, ?_, ?_⟩ <;> exact fun h => congrArg Outcome.next (rInstr_resZN h hl)
  case byImmediate =>
    refine ⟨?_, ?_, ?_⟩ <;> exact fun h => congrArg Outcome.next (shInstr_legal h hl hi)
  case illegalAmount =>
    refine ⟨?_, ?_, ?_⟩ <;> exact fun h => congrArg Outcome.next (shInstr_illegal h hi)

/-- Settles O14: the five divisions share `divRes`, whose three cases (trap, edge result, quotient) are the first three
clauses; FDIV is a floating-point result and never traps. -/
theorem reckDivide : Obligations.ReckDivide := by
  unfold Obligations.ReckDivide
  intro k s w hl
  refine ⟨fun hb ht => ?trap, fun hb ht => ?edge, fun hb => ?quotient, fun h => ?fdiv⟩
  case trap =>
    refine ⟨?_, ?_, ?_, ?_, ?_⟩ <;>
      exact fun h => congrArg Outcome.next (rInstr_divRes_trap h hl hb ht)
  case edge =>
    refine ⟨?_, ?_, ?_, ?_, ?_⟩ <;>
      exact fun h => congrArg Outcome.next (rInstr_divRes_edge h hl hb ht)
  case quotient =>
    refine ⟨?_, ?_, ?_, ?_, ?_⟩ <;>
      exact fun h => congrArg Outcome.next (rInstr_divRes_quotient h hl hb)
  case fdiv => exact congrArg Outcome.next (rInstr_resF h hl)

end Sys2Proof.Machine

/-! PROOFS. Every step and every command: the queue, the canonical form of the memories, the memories outside board
space, and reset. -/

namespace Sys2Proof.Machine

open Host (Outcome)

/-! ## The queue and the step -/

/-- Settles O1, by the definition of a step. -/
theorem stepRunsFront : Obligations.StepRunsFront := by
  unfold Obligations.StepRunsFront
  intro s c rest h
  simp only [step, h]

/-- Settles O2, by the definition of a step. -/
theorem emptyQueueTicks : Obligations.EmptyQueueTicks := by
  unfold Obligations.EmptyQueueTicks
  intro s h
  simp only [step, h]

/-- Settles O5: `keeps_exec` of the predicate "the queue is as it was". -/
theorem commandsKeepQueue : Obligations.CommandsKeepQueue := by
  unfold Obligations.CommandsKeepQueue
  intro i s t h
  exact keeps_exec (k1_pending s.pending) rfl t h

/-! ## The memories -/

/-- A change of the queue leaves the memories as they are. -/
theorem memWf_pending {s : State} {q : List Instr} : memWf { s with pending := q } = memWf s := rfl

/-- Settles O4: `keeps_step` of the canonical form, which every primitive update keeps (`k1_memWf`). -/
theorem stepKeepsMemWf : Obligations.StepKeepsMemWf := by
  unfold Obligations.StepKeepsMemWf
  intro s t hs h
  exact keeps_step k1_memWf hs (fun _ _ _ => memWf_pending.trans hs) t h

/-- Settles O3: the reset state is a literal, and its tables are empty. -/
theorem resetState : Obligations.ResetState := by
  unfold Obligations.ResetState
  refine ⟨reset_memWf, rfl, rfl, fun _ _ => rfl, fun _ => rfl, fun _ => rfl, fun _ => rfl, ?lock, ?dev, rfl, ?rods, ?cores⟩
  case lock => decide
  case dev => decide
  case rods => decide
  case cores => decide

section

variable {P : State → Prop} (hP : K0 P) {s : State}

include hP

/-- An access that only reads writes no memory. -/
theorem keeps_runAcc_read {a : WaitAcc} (ha : a.data = none) (h : P s) : P (s.runAcc a) := by
  simp only [State.runAcc, ha]
  exact keeps_State_answerAcc hP (keeps_State_burstRead hP h)

theorem keeps_transact_read {a : WaitAcc} {wake : Bool} (ha : a.data = none) (h : P s) : P (s.transact a wake) := by
  unfold State.transact
  refine keeps_ite (keeps_State_answerAcc hP h) (keeps_ite (keeps_State_answerAcc hP ?_) (keeps_ite (keeps_ite ?_ ?_) ?_))
  · exact keeps_ite (keeps_State_countRefused hP (keeps_refuse hP h)) h
  · exact hP.upd (keeps_State_wakeDom hP h)
  · exact keeps_State_answerAcc hP h
  · exact keeps_runAcc_read hP ha h

theorem keeps_readAccess {w : Writer} {p off size : Nat} {wake : Bool} (h : P s) : P (s.readAccess w p off size wake) := by
  unfold State.readAccess
  refine keeps_ite (keeps_transact_read hP rfl h) (keeps_ite (keeps_State_noPageLocal hP h) (keeps_ite ?_ ?_))
  · exact keeps_State_misaligned hP h
  · exact keeps_State_send hP (keeps_State_wordRead hP h)

end

/-- What a command may write besides the board: nothing, LPDDR5, or other memories, as the lists of O7 say. -/
theorem keeps_exec_frame {P : State → Prop} (h0 : K0 P) {i : Instr} {s : State}
    (hm : Claims.writesLpddr5 i = true → Km P) (hi : Claims.writesMemories i = false) (h_s : P s) :
    OutP P (exec i s) := by
  exact match i, hm, hi with
  | .commitApply _, _, _ => keeps_execCommitApply h0 h_s
  | .leaseExpire _ _, _, _ => keeps_execLeaseExpire h0 h_s
  | .leaseOwnerLost _, _, _ => keeps_execLeaseOwnerLost h0 h_s
  | .domainDrained _, _, _ => keeps_execDomainDrained h0 h_s
  | .localAccessTimeout _ _ _, _, _ => keeps_execLocalAccessTimeout h0 h_s
  | .remoteTimeout _ _, _, _ => keeps_execRemoteTimeout h0 h_s
  | .eventLineDeliver _, _, _ => keeps_execEventLineDeliver h0 h_s
  | .nowNsRead _, _, _ => OutP.next (keeps_readAccess h0 h_s)
  | .snap _, _, _ => keeps_execSnap h0 h_s
  | .beamSetApply, _, _ => keeps_execBeamSetApply h0 h_s
  | .timeMessageTx, _, _ => keeps_execTimeMessageTx h0 h_s
  | .timeMessageRx _ _, _, _ => keeps_execTimeMessageRx h0 h_s
  | .masterLoss, _, _ => keeps_execMasterLoss h0 h_s
  | .parentLoss, _, _ => keeps_execParentLoss h0 h_s
  | .electRx _ _ _, _, _ => keeps_execElectRx h0 h_s
  | .masterTakeover _, _, _ => keeps_execMasterTakeover h0 h_s
  | .acquireDwell, _, _ => keeps_execAcquireDwell h0 h_s
  | .coarseDwell, _, _ => keeps_execCoarseDwell h0 h_s
  | .masterFineDwell, _, _ => keeps_execMasterFineDwell h0 h_s
  | .fineLossDwell, _, _ => keeps_execFineLossDwell h0 h_s
  | .holdoverExpire, _, _ => keeps_execHoldoverExpire h0 h_s
  | .corrLimitClear, _, _ => keeps_execCorrLimitClear h0 h_s
  | .ppsInEdge _ _, _, _ => keeps_execPpsInEdge h0 h_s
  | .ppsTimeout, _, _ => keeps_execPpsTimeout h0 h_s
  | .ptpMessage _, _, _ => keeps_execPtpMessage h0 h_s
  | .beamStep _, _, _ => keeps_execBeamStep h0 h_s
  | .stepApply, _, _ => keeps_execStepApply h0 h_s
  | .beamSecond, _, _ => keeps_execBeamSecond h0 h_s
  | .carrierBoundary _ _, _, _ => keeps_execCarrierBoundary h0 h_s
  | .midFrame _ _, _, _ => keeps_execMidFrame h0 h_s
  | .cgStart _, _, _ => keeps_execCgStart h0 h_s
  | .cgLockStart _, _, _ => keeps_execCgLockStart h0 h_s
  | .gangTx, _, _ => keeps_execGangTx h0 h_s
  | .gangRx _ _ _, _, _ => keeps_execGangRx h0 h_s
  | .gangMismatchClear _, _, _ => keeps_execGangMismatchClear h0 h_s
  | .sampleSyncEdge _, _, _ => keeps_execSampleSyncEdge h0 h_s
  | .updateCutoff _, _, _ => keeps_execUpdateCutoff h0 h_s
  | .refAbWrite _ _ _, _, _ => keeps_execRefAbWrite h0 h_s
  | .refCWrite _ _ _, _, _ => keeps_execRefCWrite h0 h_s
  | .modulationEnd _, _, _ => keeps_execModulationEnd h0 h_s
  | .edgeFrameTx _, _, _ => keeps_execEdgeFrameTx h0 h_s
  | .timeFrameTx _, _, _ => keeps_execTimeFrameTx h0 h_s
  | .pingTx _, _, _ => keeps_execPingTx h0 h_s
  | .echoRx _ _ _ _, _, _ => keeps_execEchoRx h0 h_s
  | .heartbeatRx _ _, _, _ => keeps_execHeartbeatRx h0 h_s
  | .faultSetRx _ _, _, _ => keeps_execFaultSetRx h0 h_s
  | .tripInnerOff _, _, _ => keeps_execTripInnerOff h0 h_s
  | .gateReq _ _ _, _, _ => keeps_execGateReq h0 h_s
  | .rspRx _ _ _, _, _ => keeps_execRspRx h0 h_s
  | .gateReqRetry _, _, _ => keeps_execGateReqRetry h0 h_s
  | .linkSymbolLock _, _, _ => keeps_execLinkSymbolLock h0 h_s
  | .linkTrainTimeout _, _, _ => keeps_execLinkTrainTimeout h0 h_s
  | .linkLost _, _, _ => keeps_execLinkLost h0 h_s
  | .linkRetrain _, _, _ => keeps_execLinkRetrain h0 h_s
  | .comparatorFire _ _ _ _, _, _ => keeps_execComparatorFire h0 h_s
  | .comparatorRearm _ _ _, _, _ => keeps_execComparatorRearm h0 h_s
  | .didtFire _ _ _, _, _ => keeps_execDidtFire h0 h_s
  | .blankClose _ _ _ _, _, _ => keeps_execBlankClose h0 h_s
  | .rodStart _ _, _, _ => keeps_execRodStart h0 h_s
  | .tripPathTest _, _, _ => keeps_execTripPathTest h0 h_s
  | .idReadDone _, _, _ => keeps_execIdReadDone h0 h_s
  | .rodRun _ _, _, _ => keeps_execRodRun h0 h_s
  | .rodStop _ _, _, _ => keeps_execRodStop h0 h_s
  | .rodClear _ _, _, _ => keeps_execRodClear h0 h_s
  | .swTrip _ _, _, _ => keeps_execSwTrip h0 h_s
  | .clrLockout _ _, _, _ => keeps_execClrLockout h0 h_s
  | .precharge1tau _, _, _ => keeps_execPrecharge1tau h0 h_s
  | .precharge3tau _, _, _ => keeps_execPrecharge3tau h0 h_s
  | .holdoffEnd _, _, _ => keeps_execHoldoffEnd h0 h_s
  | .feedbackSample _ _ _, _, _ => keeps_execFeedbackSample h0 h_s
  | .feedbackTimeout _ _, _, _ => keeps_execFeedbackTimeout h0 h_s
  | .voltageEval _, _, _ => keeps_execVoltageEval h0 h_s
  | .energiseDone _, _, _ => keeps_execEnergiseDone h0 h_s
  | .diagStepEnd _, _, _ => keeps_execDiagStepEnd h0 h_s
  | .descentEnd _, _, _ => keeps_execDescentEnd h0 h_s
  | .descTimeout _, _, _ => keeps_execDescTimeout h0 h_s
  | .disLimExpire _, _, _ => keeps_execDisLimExpire h0 h_s
  | .disStopExpire _, _, _ => keeps_execDisStopExpire h0 h_s
  | .rainflowTick _, _, _ => keeps_execRainflowTick h0 h_s
  | .lifeSnap _, _, _ => keeps_execLifeSnap h0 h_s
  | .acqTrigger _ _ _, _, _ => keeps_execAcqTrigger h0 h_s
  | .softwareTrigger _ _ _, _, _ => keeps_execSoftwareTrigger h0 h_s
  | .seqConversion _ _, _, _ => keeps_execSeqConversion h0 h_s
  | .conversionDone _ _ _, _, _ => keeps_execConversionDone h0 h_s
  | .urgentRequest _ _ _ _, _, _ => keeps_execUrgentRequest h0 h_s
  | .seqTableWrite _ _ _ _ _ _, _, _ => keeps_execSeqTableWrite h0 h_s
  | .calConversion _ _ _, _, _ => keeps_execCalConversion h0 h_s
  | .calStarved _ _, _, _ => keeps_execCalStarved h0 h_s
  | .converterWake _ _, _, _ => keeps_execConverterWake h0 h_s
  | .converterReady _ _, _, _ => keeps_execConverterReady h0 h_s
  | .digitizerEdge _ _ _ _ _ _, _, _ => keeps_execDigitizerEdge h0 h_s
  | .timedCaptureStart _ _, _, _ => keeps_execTimedCaptureStart h0 h_s
  | .captureEnd _ _ _, _, _ => keeps_execCaptureEnd h0 h_s
  | .featureExtract _ _, _, _ => keeps_execFeatureExtract h0 h_s
  | .drainRecord _, hm, _ => keeps_execDrainRecord (hm rfl) h_s
  | .digitizerWake _ _, _, _ => keeps_execDigitizerWake h0 h_s
  | .reckStopped _, _, _ => keeps_execReckStopped h0 h_s
  | .clrFatal _ _, _, _ => keeps_execClrFatal h0 h_s
  | .memDataAccess _ _ _ _, _, _ => keeps_execMemDataAccess h0 h_s
  | .reckSwtrig _ _ _, _, _ => keeps_execReckSwtrig h0 h_s
  | .reckTriggerEvent _ _, _, _ => keeps_execReckTriggerEvent h0 h_s
  | .reckWake _, _, _ => keeps_execReckWake h0 h_s
  | .spillComplete _ _, _, _ => keeps_execSpillComplete h0 h_s
  | .migrationStart _, _, _ => keeps_execMigrationStart h0 h_s
  | .migrationDone _, _, _ => keeps_execMigrationDone h0 h_s
  | .illegalInstruction _ _, _, _ => keeps_execIllegalInstruction h0 h_s
  | .add _, _, _ => keeps_execAdd h0 h_s
  | .adc _, _, _ => keeps_execAdc h0 h_s
  | .sub _, _, _ => keeps_execSub h0 h_s
  | .sbc _, _, _ => keeps_execSbc h0 h_s
  | .neg _, _, _ => keeps_execNeg h0 h_s
  | .cmp _, _, _ => keeps_execCmp h0 h_s
  | .and _, _, _ => keeps_execAnd h0 h_s
  | .or _, _, _ => keeps_execOr h0 h_s
  | .xor _, _, _ => keeps_execXor h0 h_s
  | .shl _, _, _ => keeps_execShl h0 h_s
  | .shr _, _, _ => keeps_execShr h0 h_s
  | .shra _, _, _ => keeps_execShra h0 h_s
  | .mul _, _, _ => keeps_execMul h0 h_s
  | .mulh _, _, _ => keeps_execMulh h0 h_s
  | .mulhu _, _, _ => keeps_execMulhu h0 h_s
  | .div _, _, _ => keeps_execDiv h0 h_s
  | .divu _, _, _ => keeps_execDivu h0 h_s
  | .rem _, _, _ => keeps_execRem h0 h_s
  | .remu _, _, _ => keeps_execRemu h0 h_s
  | .min _, _, _ => keeps_execMin h0 h_s
  | .max _, _, _ => keeps_execMax h0 h_s
  | .limit _, _, _ => keeps_execLimit h0 h_s
  | .sel _, _, _ => keeps_execSel h0 h_s
  | .clz _, _, _ => keeps_execClz h0 h_s
  | .exth _, _, _ => keeps_execExth h0 h_s
  | .exthh _, _, _ => keeps_execExthh h0 h_s
  | .packh _, _, _ => keeps_execPackh h0 h_s
  | .adds _, _, _ => keeps_execAdds h0 h_s
  | .subs _, _, _ => keeps_execSubs h0 h_s
  | .negs _, _, _ => keeps_execNegs h0 h_s
  | .abs _, _, _ => keeps_execAbs h0 h_s
  | .abss _, _, _ => keeps_execAbss h0 h_s
  | .shls _, _, _ => keeps_execShls h0 h_s
  | .sath _, _, _ => keeps_execSath h0 h_s
  | .qmul _, _, _ => keeps_execQmul h0 h_s
  | .qmac _, _, _ => keeps_execQmac h0 h_s
  | .qmsu _, _, _ => keeps_execQmsu h0 h_s
  | .qdiv _, _, _ => keeps_execQdiv h0 h_s
  | .fadd _, _, _ => keeps_execFadd h0 h_s
  | .fsub _, _, _ => keeps_execFsub h0 h_s
  | .fmul _, _, _ => keeps_execFmul h0 h_s
  | .fdiv _, _, _ => keeps_execFdiv h0 h_s
  | .fma _, _, _ => keeps_execFma h0 h_s
  | .fms _, _, _ => keeps_execFms h0 h_s
  | .fsqrt _, _, _ => keeps_execFsqrt h0 h_s
  | .fmin _, _, _ => keeps_execFmin h0 h_s
  | .fmax _, _, _ => keeps_execFmax h0 h_s
  | .fabs _, _, _ => keeps_execFabs h0 h_s
  | .fneg _, _, _ => keeps_execFneg h0 h_s
  | .fcmp _, _, _ => keeps_execFcmp h0 h_s
  | .flim _, _, _ => keeps_execFlim h0 h_s
  | .ftoi _, _, _ => keeps_execFtoi h0 h_s
  | .itof _, _, _ => keeps_execItof h0 h_s
  | .ftoq _, _, _ => keeps_execFtoq h0 h_s
  | .qtof _, _, _ => keeps_execQtof h0 h_s
  | .sincos _, _, _ => keeps_execSincos h0 h_s
  | .clarke _, _, _ => keeps_execClarke h0 h_s
  | .iclarke _, _, _ => keeps_execIclarke h0 h_s
  | .park _, _, _ => keeps_execPark h0 h_s
  | .ipark _, _, _ => keeps_execIpark h0 h_s
  | .addi _, _, _ => keeps_execAddi h0 h_s
  | .andi _, _, _ => keeps_execAndi h0 h_s
  | .ori _, _, _ => keeps_execOri h0 h_s
  | .xori _, _, _ => keeps_execXori h0 h_s
  | .lui _, _, _ => keeps_execLui h0 h_s
  | .cmpi _, _, _ => keeps_execCmpi h0 h_s
  | .shli _, _, _ => keeps_execShli h0 h_s
  | .shri _, _, _ => keeps_execShri h0 h_s
  | .shrai _, _, _ => keeps_execShrai h0 h_s
  | .ld _ _, _, _ => keeps_execLd h0 h_s
  | .brc _, _, _ => keeps_execBrc h0 h_s
  | .bz _, _, _ => keeps_execBz h0 h_s
  | .bnz _, _, _ => keeps_execBnz h0 h_s
  | .call _, _, _ => keeps_execCall h0 h_s
  | .nop _, _, _ => keeps_execNop h0 h_s
  | .mfs _, _, _ => keeps_execMfs h0 h_s
  | .mts _, _, _ => keeps_execMts h0 h_s
  | .jr _, _, _ => keeps_execJr h0 h_s
  | .callr _, _, _ => keeps_execCallr h0 h_s
  | .ret _, _, _ => keeps_execRet h0 h_s
  | .trap _, _, _ => keeps_execTrap h0 h_s
  | .waitf _, _, _ => keeps_execWaitf h0 h_s
  | .loopRun _, _, _ => keeps_execLoopRun h0 h_s
  | .loopRunComplete _, _, _ => keeps_execLoopRunComplete h0 h_s
  | .irefDWrite _ _ _, _, _ => keeps_execIrefDWrite h0 h_s
  | .irefQWrite _ _ _, _, _ => keeps_execIrefQWrite h0 h_s
  | .angleStageWrite _ _ _ _, _, _ => keeps_execAngleStageWrite h0 h_s
  | .thetaWrite _ _ _, _, _ => keeps_execThetaWrite h0 h_s
  | .learnerBinWrite _ _ _ _, _, _ => keeps_execLearnerBinWrite h0 h_s
  | .lrnClr _ _ _, _, _ => keeps_execLrnClr h0 h_s
  | .mOfsWrite _ _ _, _, _ => keeps_execMOfsWrite h0 h_s
  | .renewSend, _, _ => keeps_execRenewSend h0 h_s
  | .renewRetry, _, _ => keeps_execRenewRetry h0 h_s
  | .renewRx _ _, _, _ => keeps_execRenewRx h0 h_s
  | .beadAckRx _ _, _, _ => keeps_execBeadAckRx h0 h_s
  | .noticeRx _, _, _ => keeps_execNoticeRx h0 h_s
  | .mint _, _, _ => keeps_execMint h0 h_s
  | .retire _, _, _ => keeps_execRetire h0 h_s
  | .cancelRetire _, _, _ => keeps_execCancelRetire h0 h_s
  | .reconcile _, _, _ => keeps_execReconcile h0 h_s
  | .ledgerTick, _, _ => keeps_execLedgerTick h0 h_s
  | .targetRecompute, _, _ => keeps_execTargetRecompute h0 h_s
  | .replRx _ _ _, _, _ => keeps_execReplRx h0 h_s
  | .replAckRx _ _ _, _, _ => keeps_execReplAckRx h0 h_s
  | .homeHbTx _, _, _ => keeps_execHomeHbTx h0 h_s
  | .homeHbRx _ _ _ _, _, _ => keeps_execHomeHbRx h0 h_s
  | .ledgerCopyRx _ _, _, _ => keeps_execLedgerCopyRx h0 h_s
  | .peerSilent, _, _ => keeps_execPeerSilent h0 h_s
  | .rampStart, _, _ => keeps_execRampStart h0 h_s
  | .rampTick, _, _ => keeps_execRampTick h0 h_s
  | .leaseLapse, _, _ => keeps_execLeaseLapse h0 h_s
  | .lapseTimeout, _, _ => keeps_execLapseTimeout h0 h_s
  | .estimatorRound, _, _ => keeps_execEstimatorRound h0 h_s
  | .roundComplete, hm, _ => keeps_execRoundComplete (hm rfl) h_s
  | .cellLoad _, _, _ => keeps_execCellLoad h0 h_s
  | .cellReset _, _, _ => keeps_execCellReset h0 h_s
  | .cellExclude _, _, _ => keeps_execCellExclude h0 h_s
  | .cellInclude _, _, _ => keeps_execCellInclude h0 h_s
  | .eisReq _ _, _, _ => keeps_execEisReq h0 h_s
  | .eisStart _, _, _ => keeps_execEisStart h0 h_s
  | .eisPlanDeadline _, _, _ => keeps_execEisPlanDeadline h0 h_s
  | .eisInjectStart _, _, _ => keeps_execEisInjectStart h0 h_s
  | .eisMeasureStart _, _, _ => keeps_execEisMeasureStart h0 h_s
  | .eisMeasureEnd _, _, _ => keeps_execEisMeasureEnd h0 h_s
  | .eisCollectTimeout _, _, _ => keeps_execEisCollectTimeout h0 h_s
  | .canFrameRx _ _ _, hm, _ => keeps_execCanFrameRx (hm rfl) h_s
  | .canFrameTxDone _ _ _, _, _ => keeps_execCanFrameTxDone h0 h_s
  | .txPush _ _ _, _, _ => keeps_execTxPush h0 h_s
  | .abortHead _ _, _, _ => keeps_execAbortHead h0 h_s
  | .rx0Pop _ _, _, _ => keeps_execRx0Pop h0 h_s
  | .rx1Pop _ _, _, _ => keeps_execRx1Pop h0 h_s
  | .boRecover _ _, _, _ => keeps_execBoRecover h0 h_s
  | .busOffRecovery _, _, _ => keeps_execBusOffRecovery h0 h_s
  | .rateDwellTimeout _, _, _ => keeps_execRateDwellTimeout h0 h_s
  | .sleepRequest _ _ _, _, _ => keeps_execSleepRequest h0 h_s
  | .enterAsleep _, _, _ => keeps_execEnterAsleep h0 h_s
  | .watchWake _ _, _, _ => keeps_execWatchWake h0 h_s
  | .watchFalse _, _, _ => keeps_execWatchFalse h0 h_s
  | .controllerShutDone _, _, _ => keeps_execControllerShutDone h0 h_s
  | .timeRefDue _, _, _ => keeps_execTimeRefDue h0 h_s
  | .trefNow _ _, _, _ => keeps_execTrefNow h0 h_s
  | .unavailableTx, _, _ => keeps_execUnavailableTx h0 h_s
  | .messageStall _ _ _, _, _ => keeps_execMessageStall h0 h_s
  | .reportCellsRx _, hm, _ => keeps_execReportCellsRx (hm rfl) h_s
  | .alarmRx _, hm, _ => keeps_execAlarmRx (hm rfl) h_s
  | .wakeReqRx _, hm, _ => keeps_execWakeReqRx (hm rfl) h_s
  | .balanceAckRx _, hm, _ => keeps_execBalanceAckRx (hm rfl) h_s
  | .samplePlanAckRx _, hm, _ => keeps_execSamplePlanAckRx (hm rfl) h_s
  | .eisResultRx _, hm, _ => keeps_execEisResultRx (hm rfl) h_s
  | .identResponseRx _, hm, _ => keeps_execIdentResponseRx (hm rfl) h_s
  | .lifeResponseRx _, hm, _ => keeps_execLifeResponseRx (hm rfl) h_s
  | .identAll _ _, _, _ => keeps_execIdentAll h0 h_s
  | .lifeAll _ _, _, _ => keeps_execLifeAll h0 h_s
  | .identPeriodic _, _, _ => keeps_execIdentPeriodic h0 h_s
  | .lifePeriodic _, _, _ => keeps_execLifePeriodic h0 h_s
  | .challengeTimeout _ _ _, _, _ => keeps_execChallengeTimeout h0 h_s
  | .rateEval, _, _ => keeps_execRateEval h0 h_s
  | .latchClear _ _ _, _, _ => keeps_execLatchClear h0 h_s
  | .restThermCheck _, _, _ => keeps_execRestThermCheck h0 h_s
  | .stepTarget _ _ _, _, _ => keeps_execStepTarget h0 h_s
  | .stepStop _ _, _, _ => keeps_execStepStop h0 h_s
  | .stepHalt _ _, _, _ => keeps_execStepHalt h0 h_s
  | .stepHome _ _, _, _ => keeps_execStepHome h0 h_s
  | .stepPosWrite _ _ _, _, _ => keeps_execStepPosWrite h0 h_s
  | .stepperTick _, _, _ => keeps_execStepperTick h0 h_s
  | .loadAngleEstimate _ _, _, _ => keeps_execLoadAngleEstimate h0 h_s
  | .standstillEntry _, _, _ => keeps_execStandstillEntry h0 h_s
  | .coilOpenDetect _ _ _ _, _, _ => keeps_execCoilOpenDetect h0 h_s
  | .overcurrentDetect _ _ _, _, _ => keeps_execOvercurrentDetect h0 h_s
  | .stepperShutDone _, _, _ => keeps_execStepperShutDone h0 h_s
  | .pcntEdge _ _, _, _ => keeps_execPcntEdge h0 h_s
  | .countWrite _ _ _, _, _ => keeps_execCountWrite h0 h_s
  | .observerUpdate _, _, _ => keeps_execObserverUpdate h0 h_s
  | .safetyCycle _ _, _, _ => keeps_execSafetyCycle h0 h_s
  | .sgrTripResend _, _, _ => keeps_execSgrTripResend h0 h_s
  | .safeInLevel _ _, _, _ => keeps_execSafeInLevel h0 h_s
  | .pairDiscrepancy _, _, _ => keeps_execPairDiscrepancy h0 h_s
  | .safetyReset _, _, _ => keeps_execSafetyReset h0 h_s
  | .resetJammed, _, _ => keeps_execResetJammed h0 h_s
  | .safeMsgTx, _, _ => keeps_execSafeMsgTx h0 h_s
  | .safeMsgRx _ _, _, _ => keeps_execSafeMsgRx h0 h_s
  | .pairWinExpire _, _, _ => keeps_execPairWinExpire h0 h_s
  | .singleLimExpire _, _, _ => keeps_execSingleLimExpire h0 h_s
  | .safeMsgWdt _, _, _ => keeps_execSafeMsgWdt h0 h_s
  | .lockstepMismatch _, _, _ => keeps_execLockstepMismatch h0 h_s
  | .pairEccError _ _ _, _, _ => keeps_execPairEccError h0 h_s
  | .pairWdtFault _, _, _ => keeps_execPairWdtFault h0 h_s
  | .testAgeTick, _, _ => keeps_execTestAgeTick h0 h_s
  | .scrubPass _ _ _, _, _ => keeps_execScrubPass h0 h_s
  | .fabBlockLock _, _, _ => keeps_execFabBlockLock h0 h_s
  | .helloTx _, _, _ => keeps_execHelloTx h0 h_s
  | .helloRx _ _, _, _ => keeps_execHelloRx h0 h_s
  | .helloTimeout _, _, _ => keeps_execHelloTimeout h0 h_s
  | .faultRecheck _, _, _ => keeps_execFaultRecheck h0 h_s
  | .resyncTimeout _, _, _ => keeps_execResyncTimeout h0 h_s
  | .blockLockLoss _, _, _ => keeps_execBlockLockLoss h0 h_s
  | .linkSilent _, _, _ => keeps_execLinkSilent h0 h_s
  | .holdEnd _, _, _ => keeps_execHoldEnd h0 h_s
  | .coordWaitExpire _, _, _ => keeps_execCoordWaitExpire h0 h_s
  | .parcelRx _ _, hm, _ => keeps_execParcelRx (hm rfl) h_s
  | .statusTx _, _, _ => keeps_execStatusTx h0 h_s
  | .statusRx _ _, _, _ => keeps_execStatusRx h0 h_s
  | .replayTimeout _, _, _ => keeps_execReplayTimeout h0 h_s
  | .resyncReqRx _ _ _, _, _ => keeps_execResyncReqRx h0 h_s
  | .resyncAckRx _ _ _, _, _ => keeps_execResyncAckRx h0 h_s
  | .resyncReqResend _, _, _ => keeps_execResyncReqResend h0 h_s
  | .announceTx, _, _ => keeps_execAnnounceTx h0 h_s
  | .announceRx _, _, _ => keeps_execAnnounceRx h0 h_s
  | .electTx, _, _ => keeps_execElectTx h0 h_s
  | .deviceUnreachable _, _, _ => keeps_execDeviceUnreachable h0 h_s
  | .brspRx _, hm, _ => keeps_execBrspRx (hm rfl) h_s
  | .txqWrWrite _ _, hm, _ => keeps_execTxqWrWrite (hm rfl) h_s
  | .txnTimeout _, hm, _ => keeps_execTxnTimeout (hm rfl) h_s
  | .deliverDrop _, _, _ => keeps_execDeliverDrop h0 h_s
  | .masterTake, _, _ => keeps_execMasterTake h0 h_s
  | .connectionArrival _ _, hm, _ => keeps_execConnectionArrival (hm rfl) h_s
  | .recordRx _ _ _, hm, _ => keeps_execRecordRx (hm rfl) h_s
  | .gateDecision _, _, _ => keeps_execGateDecision h0 h_s
  | .sessionRead _, _, _ => keeps_execSessionRead h0 h_s
  | .openTunnel _, _, _ => keeps_execOpenTunnel h0 h_s
  | .closeTunnel _, _, _ => keeps_execCloseTunnel h0 h_s
  | .service _, hm, _ => keeps_execService (hm rfl) h_s
  | .tokenRefill, _, _ => keeps_execTokenRefill h0 h_s
  | .sessionIdle _, _, _ => keeps_execSessionIdle h0 h_s
  | .sessionPeerClose _ _, _, _ => keeps_execSessionPeerClose h0 h_s
  | .sessOpen _, _, _ => keeps_execSessOpen h0 h_s
  | .sessClose _, _, _ => keeps_execSessClose h0 h_s
  | .sessRefuse _, _, _ => keeps_execSessRefuse h0 h_s
  | .serviceReply _ _, _, _ => keeps_execServiceReply h0 h_s
  | .tunnelOpenRx _ _, _, _ => keeps_execTunnelOpenRx h0 h_s
  | .tunnelOpenAckRx _ _, _, _ => keeps_execTunnelOpenAckRx h0 h_s
  | .tunnelReqRx _ _, _, _ => keeps_execTunnelReqRx h0 h_s
  | .tunnelRspRx _ _, _, _ => keeps_execTunnelRspRx h0 h_s
  | .tunnelCloseRx _ _, _, _ => keeps_execTunnelCloseRx h0 h_s
  | .tunnelTimeout _ _, _, _ => keeps_execTunnelTimeout h0 h_s
  | .fragmentTimeout, _, _ => keeps_execFragmentTimeout h0 h_s
  | .sha256 _, _, _ => keeps_execSha256 h0 h_s
  | .edSign _ _, _, _ => keeps_execEdSign h0 h_s
  | .edVerify _ _, _, _ => keeps_execEdVerify h0 h_s
  | .x25519 _ _, _, _ => keeps_execX25519 h0 h_s
  | .gcmSeal _ _, _, _ => keeps_execGcmSeal h0 h_s
  | .gcmOpen _ _, _, _ => keeps_execGcmOpen h0 h_s
  | .random _, _, _ => keeps_execRandom h0 h_s
  | .keyGen _ _ _, _, _ => keeps_execKeyGen h0 h_s
  | .keyImport _ _ _, _, _ => keeps_execKeyImport h0 h_s
  | .keyErase _ _, _, _ => keeps_execKeyErase h0 h_s
  | .cryptoDone, hm, _ => keeps_execCryptoDone (hm rfl) h_s
  | .entHealth _, _, _ => keeps_execEntHealth h0 h_s
  | .postTake _, hm, _ => keeps_execPostTake (hm rfl) h_s
  | .flushRound, _, _ => keeps_execFlushRound h0 h_s
  | .cmdFlush _, _, _ => keeps_execCmdFlush h0 h_s
  | .flushRoundDone, _, _ => keeps_execFlushRoundDone h0 h_s
  | .seal _, hm, _ => keeps_execSeal (hm rfl) h_s
  | .storeOpen _ _, _, _ => keeps_execStoreOpen h0 h_s
  | .storeOpenDone, _, _ => keeps_execStoreOpenDone h0 h_s
  | .storeClose, _, _ => keeps_execStoreClose h0 h_s
  | .format _, _, _ => keeps_execFormat h0 h_s
  | .storeRead _ _, hm, _ => keeps_execStoreRead (hm rfl) h_s
  | .tallyReplRx _ _, _, _ => keeps_execTallyReplRx h0 h_s
  | .tallyReplAckRx _ _ _, _, _ => keeps_execTallyReplAckRx h0 h_s
  | .tallyReplResend _ _, _, _ => keeps_execTallyReplResend h0 h_s
  | .nvmeCmdTimeout _, _, _ => keeps_execNvmeCmdTimeout h0 h_s
  | .nvmeCompletion _ _, _, _ => keeps_execNvmeCompletion h0 h_s
  | .nsCreate _ _, _, _ => keeps_execNsCreate h0 h_s
  | .nsDelete _ _, _, _ => keeps_execNsDelete h0 h_s
  | .nsAttach _ _, _, _ => keeps_execNsAttach h0 h_s
  | .wdtArm _ _, _, _ => keeps_execWdtArm h0 h_s
  | .wdtKick _ _, _, _ => keeps_execWdtKick h0 h_s
  | .wdtHalf, _, _ => keeps_execWdtHalf h0 h_s
  | .timerInterrupt _, _, _ => keeps_execTimerInterrupt h0 h_s
  | .eccDoubleError _ _ _, _, _ => keeps_execEccDoubleError h0 h_s
  | .hartRelease _ _, _, _ => keeps_execHartRelease h0 h_s
  | .idcode, _, _ => keeps_execIdcode h0 h_s
  | .samplePreload, _, _ => keeps_execSamplePreload h0 h_s
  | .extest, _, _ => keeps_execExtest h0 h_s
  | .extestPulse, _, _ => keeps_execExtestPulse h0 h_s
  | .extestTrain, _, _ => keeps_execExtestTrain h0 h_s
  | .clamp, _, _ => keeps_execClamp h0 h_s
  | .highz, _, _ => keeps_execHighz h0 h_s
  | .dtmcs, _, _ => keeps_execDtmcs h0 h_s
  | .dmi _ _ _ _, _, _ => keeps_execDmi h0 h_s
  | .bypass, _, _ => keeps_execBypass h0 h_s
  | .tapReset, _, _ => keeps_execTapReset h0 h_s
  | .debugHalt _, _, _ => keeps_execDebugHalt h0 h_s
  | .debugResume _, _, _ => keeps_execDebugResume h0 h_s
  | .powerUpSequence _, _, _ => keeps_execPowerUpSequence h0 h_s
  | .pgRise _, _, _ => keeps_execPgRise h0 h_s
  | .pgTimeout _, _, _ => keeps_execPgTimeout h0 h_s
  | .sequenceRetry, _, _ => keeps_execSequenceRetry h0 h_s
  | .pmbusPoll _, _, _ => keeps_execPmbusPoll h0 h_s
  | .pmbAlert _, _, _ => keeps_execPmbAlert h0 h_s
  | .handoverDecision _ _, _, _ => keeps_execHandoverDecision h0 h_s
  | .handoverDone, _, _ => keeps_execHandoverDone h0 h_s
  | .returnDecision, _, _ => keeps_execReturnDecision h0 h_s
  | .returnDone, _, _ => keeps_execReturnDone h0 h_s
  | .vbakLowDeep _, _, _ => keeps_execVbakLowDeep h0 h_s
  | .backupTallyTick, _, _ => keeps_execBackupTallyTick h0 h_s
  | .crystalReady _, _, _ => keeps_execCrystalReady h0 h_s
  | .degradedStart, _, _ => keeps_execDegradedStart h0 h_s
  | .restRequest _ _, _, _ => keeps_execRestRequest h0 h_s
  | .restAbort _, _, _ => keeps_execRestAbort h0 h_s
  | .requestTimeout, _, _ => keeps_execRequestTimeout h0 h_s
  | .enterQuiet _, _, _ => keeps_execEnterQuiet h0 h_s
  | .enterRest _, _, _ => keeps_execEnterRest h0 h_s
  | .enterDeep _, _, _ => keeps_execEnterDeep h0 h_s
  | .wakeCause _, _, _ => keeps_execWakeCause h0 h_s
  | .domainLingerExpire _, _, _ => keeps_execDomainLingerExpire h0 h_s
  | .aonAlarm, _, _ => keeps_execAonAlarm h0 h_s
  | .cfErase _, _, _ => keeps_execCfErase h0 h_s
  | .cfProgram _, _, _ => keeps_execCfProgram h0 h_s
  | .loaderStatus _, _, _ => keeps_execLoaderStatus h0 h_s
  | .lbistSlot, _, _ => keeps_execLbistSlot h0 h_s
  | .slotSkip, _, _ => keeps_execSlotSkip h0 h_s
  | .lbistTestDone _ _, _, _ => keeps_execLbistTestDone h0 h_s
  | .dteMemoryTest _ _, _, _ => keeps_execDteMemoryTest h0 h_s
  | .dteLogicTest _ _, _, _ => keeps_execDteLogicTest h0 h_s
  | .dteBurnRepair _ _, _, _ => keeps_execDteBurnRepair h0 h_s
  | .crossingReset _ _, _, _ => keeps_execCrossingReset h0 h_s
  | .syncMiss, _, _ => keeps_execSyncMiss h0 h_s
  | .ppsOutWidthEnd, _, _ => keeps_execPpsOutWidthEnd h0 h_s
  | .drvTrippedTimeout _, _, _ => keeps_execDrvTrippedTimeout h0 h_s
  | .uplinkFrameDiscard _ _ _, _, _ => keeps_execUplinkFrameDiscard h0 h_s
  | .canBusError _, _, _ => keeps_execCanBusError h0 h_s
  | .ethFrameRx _ _, hm, _ => keeps_execEthFrameRx (hm rfl) h_s
  | .ethLinkChg _ _ _, _, _ => keeps_execEthLinkChg h0 h_s
  | .bakLow _, _, _ => keeps_execBakLow h0 h_s
  | .vauxOkChange _, _, _ => keeps_execVauxOkChange h0 h_s
  | .digitizerReady _ _, _, _ => keeps_execDigitizerReady h0 h_s
  | .safeInRestSample _, _, _ => keeps_execSafeInRestSample h0 h_s
  | .lowWordRead _ _ _ _, _, _ => OutP.next (keeps_readAccess h0 h_s)
  | .modStatRead _ _ _, _, _ => OutP.next (keeps_readAccess h0 h_s)

/-- Settles O7: `keeps_exec_frame` of the memories, which no update of the board or of a record touches. -/
theorem memoryFrame : Obligations.MemoryFrame := by
  unfold Obligations.MemoryFrame
  intro i s t h hi
  refine ⟨fun hl => ?all, ?others⟩
  case all => exact keeps_exec_frame (k0_sameMem s) (fun e => nomatch hl.symm.trans e) hi (sameMem_refl s) t h
  case others => exact keeps_exec_frame (km_sameOther s).toK0 (fun _ => km_sameOther s) hi ⟨rfl, rfl, rfl⟩ t h

/-! ## No command stops -/

/-- A choice between meanings that answer a next state answers one. -/
theorem answers_ite {c : Prop} [Decidable c] {a b : Outcome State Fault Refusal} (ha : ∃ t, a = .next t)
    (hb : ∃ t, b = .next t) : ∃ t, (if c then a else b) = .next t := by
  split
  · exact ha
  · exact hb

/-- Settles O6: the branches of every meaning end in a next state. -/
theorem noCommandStops : Obligations.NoCommandStops := by
  unfold Obligations.NoCommandStops
  intro i s
  cases i
  case leaseExpire | restPageAccess | localAccessTimeout | remoteTimeout | beamStep | stepApply | carrierBoundary |
    modulationEnd | acqTrigger | conversionDone | timedCaptureStart | captureEnd | featureExtract | drainRecord |
    memDataAccess | reckWake | migrationStart | migrationDone | loopRun | loopRunComplete | renewRetry | beadAckRx |
    roundComplete | pairWinExpire | helloRx | faultRecheck | announceRx | breqRx | brspRx | txnTimeout | deliverDrop
    | gateDecision | sessionRead | sessionWrite | openTunnel | closeTunnel | service | tunnelOpenAckRx | tunnelReqRx
    | tunnelRspRx | tunnelCloseRx | tunnelTimeout | cryptoDone | postTake | flushRoundDone | tallyReplRx |
    tallyReplResend | pgTimeout | sequenceRetry | cfOpDone | eventAreaWrite | lbistTestDone | dteDone | syncMiss =>
    dsimp only [exec, execLeaseExpire, execRestPageAccess, execLocalAccessTimeout, execRemoteTimeout, execBeamStep,
      execStepApply, execCarrierBoundary, execModulationEnd, execAcqTrigger, execConversionDone,
      execTimedCaptureStart, execCaptureEnd, execFeatureExtract, execDrainRecord, execMemDataAccess, execReckWake,
      execMigrationStart, execMigrationDone, execLoopRun, execLoopRunComplete, execRenewRetry, execBeadAckRx,
      execRoundComplete, execPairWinExpire, execHelloRx, execFaultRecheck, execAnnounceRx, execBreqRx, execBrspRx,
      execTxnTimeout, execDeliverDrop, execGateDecision, execSessionRead, execSessionWrite, execOpenTunnel,
      execCloseTunnel, execService, execTunnelOpenAckRx, execTunnelReqRx, execTunnelRspRx, execTunnelCloseRx,
      execTunnelTimeout, execCryptoDone, execPostTake, execFlushRoundDone, execTallyReplRx, execTallyReplResend,
      execPgTimeout, execSequenceRetry, execCfOpDone, execEventAreaWrite, execLbistTestDone, execDteDone,
      execSyncMiss]
    repeat' (first | exact ⟨_, rfl⟩ | apply answers_ite | split)
  all_goals
    repeat' (first | exact answers_ite ⟨_, rfl⟩ ⟨_, rfl⟩ | apply answers_ite | exact ⟨_, rfl⟩ | split)
end Sys2Proof.Machine

/-! PROOFS. The counting boards (spec/02): pages and their domains, writes by access code, accesses, leases and
commits. -/

namespace Sys2Proof.Machine

open Host (Outcome)

/-! ## Pages -/

section

variable {s : State} {p o : Nat} {y : PType}

theorem pageRow_of_type (h : pageType p = some y) : (pageRow p).isSome = true := by
  rw [pageType] at h
  cases hr : pageRow p with
  | none => rw [hr] at h; cases h
  | some r => rfl

theorem pageRow_of_type_ne (h : pageType p ≠ none) : (pageRow p).isSome = true := by
  obtain ⟨y, hy⟩ := Option.ne_none_iff_exists'.mp h
  exact pageRow_of_type hy

theorem ownerPage_of_row (h : (pageRow p).isSome = true) : ownerPage p = some p := if_pos h

theorem ownerPage_of_type (h : pageType p = some y) : ownerPage p = some p := ownerPage_of_row (pageRow_of_type h)

/-- Register pages lie below the table pages (R61, R62). -/
theorem lt_of_pageRow (h : (pageRow p).isSome = true) : p < 0x800 := by
  obtain ⟨r, hr⟩ := Option.isSome_iff_exists.mp h
  have hm : r ∈ pageMap := List.mem_of_find?_eq_some hr
  have hp := List.find?_some hr
  simp only [Bool.and_eq_true, decide_eq_true_eq] at hp
  have hb : ∀ r ∈ pageMap, r.first + r.count ≤ 0x800 := by decide
  exact lt_of_lt_of_le hp.2 (hb r hm)

theorem accDom_of_owner (h : ownerPage p = some o) : accDom p = pageDom o := by rw [accDom, h, Option.getD_some]

theorem pageRests_eq_false (h : s.dom (accDom p) = .active) : s.pageRests p = false := by simp [State.pageRests, h]

theorem pageRests_eq_true (h : s.dom (accDom p) ≠ .active) : s.pageRests p = true := by simp [State.pageRests, h]

theorem pageRests_of_row (hr : (pageRow p).isSome = true) (h : s.dom (pageDom p) = .active) : s.pageRests p = false :=
  pageRests_eq_false (by rw [accDom_of_owner (ownerPage_of_row hr), h])

theorem leaseRefuses_eq_false {w : Writer} {a b : Bool} (h : s.leasedByOther w p = false) :
    leaseRefuses s w p a b = false := by
  simp [leaseRefuses, h]

end

/-! ## Domains -/

section

variable {s : State} {d d' : Dom} {v : DomSt}

theorem dom_foldl_ev (l : List Nat) (i : Nat) : (l.foldl (fun s p => s.ev p i) s).dom d = s.dom d := by
  induction l generalizing s with
  | nil => rfl
  | cons p l ih => exact ih

/-- A domain may always come to rest (R53, R590). -/
theorem dom_setDom_resting : (s.setDom d .resting).dom d = .resting := by
  unfold State.setDom
  split
  case isTrue h => exact h.resolve_right (fun h => h.2.2 rfl)
  case isFalse =>
    rw [dom_foldl_ev]
    simp only [State.dom, tabGet_put_same]

theorem dom_domRest : (s.domRest d).dom d = .resting := dom_setDom_resting

end

/-! ## Writes by access code (R39, R41, R51) -/

section

variable {s : State} {w : Writer} {p k m : Nat} {v : Word} {b : Bool}

theorem codeWrite_rw (hl : s.leasedByOther w p = false) :
    s.codeWrite w p k [(.rw, m)] v b =
      ({ s with
          board := tabPut resetWord s.board k ((tabGet resetWord s.board k &&& ~~~wordOf m) ||| (v &&& wordOf m)) },
        .ok) := by
  have full (x : Word) : x &&& 4294967295#32 = x := BitVec.and_allOnes
  simp [State.codeWrite, leaseRefuses_eq_false hl, Reg.bits, maskW, full]

theorem codeWrite_readOnly (hl : s.leasedByOther w p = false) : s.codeWrite w p k [] v b = (s, .writeRefused) := by
  simp [State.codeWrite, leaseRefuses_eq_false hl]

theorem codeWrite_locked (hl : s.leasedByOther w p = false) (hm : m ≠ 0) (hk : s.locked p = true) :
    s.codeWrite w p k [(.wl, m)] v b = (s.err p 0, .writeRefused) := by
  simp [State.codeWrite, leaseRefuses_eq_false hl, Reg.bits, hm, hk, refuse]

theorem codeWrite_stage (hl : s.leasedByOther w p = false) (hm : m ≠ 0)
    (hh : w.isRemote = false ∨ s.holdsLease w p = true) (hn : (s.pg p).staged.length < 64) :
    s.codeWrite w p k [(.st, m)] v b =
      (s.stage p k ((v &&& wordOf m) ||| (tabGet resetWord s.board k &&& ~~~wordOf m)), .ok) := by
  have hr : (w.isRemote && !s.holdsLease w p) = false := by
    rcases hh with h | h <;> simp [h]
  simp [State.codeWrite, leaseRefuses_eq_false hl, Reg.bits, hm, hr, hl, Nat.not_le.mpr hn, maskW]

end

/-! ## Accesses (R31, R33, R54) -/

section

variable {s : State} {w : Writer} {p o off : Nat} {v : Word}

/-- An aligned 32-bit write to a page that exists is answered with its code. -/
theorem access_word (ho : ownerPage p = some o) (ha : off % 4 = 0) :
    s.access w p off 2 v = (s.wordWrite w p off v).1.answer w (s.wordWrite w p off v).2 := by
  simp [State.access, ho, ha]

/-- A write to a page that answers is the page's own; a refusal is counted. -/
theorem wordWrite_active (ho : ownerPage p = some o) (h : s.pageRests p = false) :
    s.wordWrite w p off v =
      ((s.pageWrite w p off v).1.countRefused w o (s.pageWrite w p off v).2, (s.pageWrite w p off v).2) := by
  simp [State.wordWrite, h, ho]

/-- A write that a page accepts. -/
theorem access_ok {t : State} (ho : ownerPage p = some o) (h : s.pageRests p = false) (ha : off % 4 = 0)
    (e : s.pageWrite w p off v = (t, .ok)) : s.access w p off 2 v = t.answer w .ok := by
  rw [access_word ho ha, wordWrite_active ho h, e]
  simp [State.countRefused]

/-- A write that a page refuses. -/
theorem access_code {t : State} {c : Code} (ho : ownerPage p = some o) (h : s.pageRests p = false) (ha : off % 4 = 0)
    (e : s.pageWrite w p off v = (t, c)) : s.access w p off 2 v = (t.countRefused w o c).answer w c := by
  rw [access_word ho ha, wordWrite_active ho h, e]

theorem pageWrite_block (h : 64 ≤ off) : s.pageWrite w p off v = s.blockWrite w p off v := by
  simp [State.pageWrite, Nat.not_lt.mpr h]

/-- On a page of a block without rules of its own a write follows the access codes. -/
theorem blockWrite_plain (h : pageType p = some .sup ∨ pageType p = some .clk ∨ pageType p = some .tdig ∨
    pageType p = some .inj) : s.blockWrite w p off v = s.plainWrite w p off v := by
  unfold State.blockWrite
  rcases h with h | h | h | h <;> simp [h]

theorem plainWrite_reg {r : Reg} (hp : (pageRow p).isSome = true) (hoff : 64 ≤ off) (hr : regAt p off = some r) :
    s.plainWrite w p off v = s.codeWrite w p (bkey p off) r.acc v false := by
  have hb : decide (p < 0x800 ∧ (off = PG.ERR ∨ off = PG.EV_STAT)) = false := by
    simp only [decide_eq_false_iff_not, PG.ERR, PG.EV_STAT]
    omega
  simp only [State.plainWrite, ownerPage_of_row hp, if_pos (lt_of_pageRow hp), hr, Option.map_some, hb]

end

/-- R39, R41, R42, R51: the write reaches `codeWrite`, whose cases are the clauses. -/
theorem boardPlainWrite : Claims.BoardPlainWrite := by
  unfold Claims.BoardPlainWrite
  intro w p off v s r m hoff ha hr hy hd hl
  have hp : (pageRow p).isSome = true := by
    rcases hy with h | h | h | h <;> exact pageRow_of_type h
  have ho := ownerPage_of_row hp
  have hn := pageRests_of_row hp hd
  have e : s.pageWrite w p off v = s.codeWrite w p (bkey p off) r.acc v false := by
    rw [pageWrite_block hoff, blockWrite_plain hy, plainWrite_reg hp hoff hr]
  refine ⟨fun h => ?rw, fun h => ?readOnly, fun h hm _ hk => ?locked, fun h hm _ hh hs => ?staged⟩ <;>
    refine congrArg Outcome.next ?_ <;> rw [h] at e
  case rw => exact access_ok ho hn ha (e.trans (codeWrite_rw hl))
  case readOnly => exact access_code ho hn ha (e.trans (codeWrite_readOnly hl))
  case locked => exact access_code ho hn ha (e.trans (codeWrite_locked hl hm hk))
  case staged => exact access_ok ho hn ha (e.trans (codeWrite_stage hl hm hh hs))

section

variable {s : State} {w : Writer} {p o off z : Nat} {v : Word}

theorem access_absent_remote (ho : ownerPage p = none) (hw : w.isRemote = true) :
    s.access w p off z v = s.answer w .noPage := by
  simp [State.access, ho, hw]

theorem access_absent_local (ho : ownerPage p = none) (hw : w.isRemote = false) :
    s.access w p off z v = s.noPageLocal w p off := by
  simp [State.access, ho, hw]

/-- A narrow or misaligned write to a page that answers sets PG_ERR.SIZE (R31). -/
theorem access_badLength (ho : ownerPage p = some o) (hz : z ≠ 2 ∨ off % 4 ≠ 0) (h : s.pageRests p = false) :
    s.access w p off z v = ((s.err o 3).countRefused w o .badLength).answer w .badLength := by
  simp [State.access, ho, hz, h, finish, refuse]

end

theorem boardWriteErrors : Claims.BoardWriteErrors := by
  unfold Claims.BoardWriteErrors
  intro w p off z v s
  refine ⟨fun ho hw => ?absentRemote, fun ho hw => ?absentProcessor, fun k ho hw hk => ?absentReckoner,
    fun o ho hz hd => ?badLength, fun o ho hz ha => ?word, fun hw => ?timeoutProcessor, fun k hk => ?timeoutRuns,
    fun k hk => ?timeoutStopped, fun hw => ?timeoutRemote⟩
  case absentRemote => exact congrArg Outcome.next (access_absent_remote ho hw)
  case absentProcessor =>
    rcases hw with rfl | rfl | ⟨h, rfl⟩ <;> exact congrArg Outcome.next (access_absent_local ho rfl)
  case absentReckoner =>
    subst hw
    refine congrArg Outcome.next ((access_absent_local ho rfl).trans ?_)
    simp only [State.noPageLocal, hk, if_true]
  case badLength =>
    have hz : z.val ≠ 2 ∨ off.val % 4 ≠ 0 := hz.imp_left (fun h e => h (Fin.ext e))
    exact congrArg Outcome.next (access_badLength ho hz (pageRests_eq_false hd))
  case word =>
    subst hz
    exact congrArg Outcome.next (access_word ho ha)
  case timeoutProcessor => rcases hw with rfl | rfl | ⟨h, rfl⟩ <;> rfl
  case timeoutRuns => simp only [exec, execLocalAccessTimeout, hk, if_true]
  case timeoutStopped => simp only [exec, execLocalAccessTimeout, hk, Bool.false_eq_true, if_false]
  case timeoutRemote => cases w <;> first | rfl | cases hw

/-! ## Reads (R30 to R33, R54, R66, R360) -/

section

variable {s : State} {w : Writer} {p o off : Nat} {k : Bool}

theorem wordRead_active (h : s.pageRests p = false) : s.wordRead w p off = s.readWord p off := by
  simp [State.wordRead, h]

theorem bytesAt_word {v : Word} (h : off % 4 = 0) : bytesAt v off 2 = v := by
  simp [bytesAt, h, wordOf, Nat.mod_eq_of_lt v.isLt]

/-- An aligned 32-bit read of a page that answers. -/
theorem readAccess_word (ho : ownerPage p = some o) (h : s.pageRests p = false) (ha : off % 4 = 0) (hoff : off < 4096) :
    s.readAccess w p off 2 k = (s.readWord p off).1.send (.resp w .ok 1 [(s.readWord p off).2]) := by
  cases hw : w.isRemote
  case true =>
    have hb : burstOk off 1 = true := by
      simp only [burstOk, decide_eq_true_eq]
      omega
    simp [State.readAccess, hw, State.transact, ho, hb, State.burstRests, h, State.runAcc, State.burstRead,
      wordRead_active h, State.answerAcc]
  case false =>
    have hd : off / 4 * 4 = off := Nat.div_mul_cancel (Nat.dvd_of_mod_eq_zero ha)
    simp [State.readAccess, hw, ho, ha, hd, wordRead_active h, bytesAt_word ha]

theorem readWord_of_narrow (h : wideAt p off = none) : s.readWord p off = s.readReg p off := by
  simp [State.readWord, h]

theorem pageType_mbus (n : Fin 32) : pageType (pMBUS n) = some .mbus := by
  revert n
  decide

theorem pageInst_mbus (n : Fin 32) : pageInst (pMBUS n) = n := by
  revert n
  decide

theorem pageDom_mbus (n : Fin 32) : pageDom (pMBUS n) = .fd (n / 8) := by
  simp [pageDom, pageType_mbus, pageInst_mbus, fieldDie]

theorem readReg_modStat (n : Fin 32) (a : Fin 24) : s.readReg (pMBUS n) (MBUS.MOD_STAT a) =
    (s.set (pMBUS n) (MBUS.MOD_STAT_ALARM a) 0, s.word (pMBUS n) (MBUS.MOD_STAT a)) := by
  have hf : (List.range 24).find? (fun b => MBUS.MOD_STAT a == MBUS.MOD_STAT b) = some a.val := by
    revert a
    decide
  simp only [State.readReg, pageType_mbus, hf, pageInst_mbus, State.modStatRead]

theorem wideAt_modStat (n : Fin 32) (a : Fin 24) : wideAt (pMBUS n) (MBUS.MOD_STAT a) = none := by
  simp only [wideAt, pageType_mbus]
  revert a
  decide

end

theorem boardDomains : Claims.BoardDomains := by
  unfold Claims.BoardDomains
  intro w p s
  refine ⟨fun i h => ⟨?drained, dom_domRest⟩, fun i h => ?notDraining, fun i h => ?woken, fun a hq hw hp ht => ?timeout,
    fun n hp h0 h1 hd => ?line, fun n hp hk hd => ?interrupt, fun n hp hk hd => ?waits, fun hd => ?nowNs,
    fun n a hd => ?modStat⟩
  case drained => simp only [exec, execDomainDrained, h, if_true]
  case notDraining => simp only [exec, execDomainDrained, h, if_false]
  case woken => simp only [exec, execDomainWakeDone, h, if_true]
  case timeout => simp [exec, execRemoteTimeout, hq, hw, hp, State.answerAcc, ht]
  case line => simp [exec, execEventLineDeliver, hp, h0, h1, hd]
  case interrupt => simp [exec, execEventLineDeliver, hp, hk, hd]
  case waits => simp [exec, execEventLineDeliver, hp, hk, hd]
  case nowNs =>
    have hp : s.pageRests pBEAM = false := pageRests_of_row (by decide) hd
    have hr : s.readWord pBEAM BEAM.NOW_NS = s.readNowNs := readWord_of_narrow (by decide)
    exact congrArg Outcome.next ((readAccess_word (o := pBEAM) (by decide) hp (by decide) (by decide)).trans (by rw [hr]))
  case modStat =>
    have hp : s.pageRests (pMBUS n) = false :=
      pageRests_of_row (pageRow_of_type (pageType_mbus n)) (by rw [pageDom_mbus, hd])
    have hr := (readWord_of_narrow (s := s) (wideAt_modStat n a)).trans (readReg_modStat n a)
    have ha : ∀ a : Fin 24, MBUS.MOD_STAT a % 4 = 0 ∧ MBUS.MOD_STAT a < 4096 := by decide
    refine congrArg Outcome.next
      ((readAccess_word (ownerPage_of_type (pageType_mbus n)) hp (ha a).1 (ha a).2).trans ?_)
    rw [hr]

/-- Settles O8: the parts above. -/
theorem boardWrites : Obligations.BoardWrites := ⟨boardPlainWrite, boardWriteErrors, boardDomains⟩

end Sys2Proof.Machine

/-! PROOFS. The counting boards (spec/02): PG_CTL, leases and commits, and pages whose domain rests. -/

namespace Sys2Proof.Machine

open Host (Outcome)

/-! ## PG_CTL (R36, R46, R47, R50, R52, R53) -/

section

variable {s t : State} {w : Writer} {p : Nat} {v : Word} {y : PType}

theorem getLsbD_zero_eq_en : v.getLsbD 0 = decide (PG.CTL_EN.read v = 1) := by
  simp [BitVec.getLsbD, Nat.testBit_zero, Fld.read, Fld.width]

/-- A page's PG_CTL holds no action bit and EN = 0, and its block is off. -/
structure CtlIdle (s : State) (p : Nat) : Prop where
  wait : (s.pg p).enWait = none
  en : PG.CTL_EN.read (s.word p PG.CTL) = 0
  shutting : s.flag p PG.STAT_SHUTTING = false
  pwr : PG.CTL_PWR_REQ.read (s.word p PG.CTL) = 0
  discard : PG.CTL_DISCARD.read (s.word p PG.CTL) = 0
  req : PG.CTL_LEASE_REQ.read (s.word p PG.CTL) = 0
  rel : PG.CTL_LEASE_REL.read (s.word p PG.CTL) = 0

/-- While the domain is active PWR_REQ moves nothing but a converter die's domain (R53). -/
theorem pwrReq_active (hy : pageType p ≠ some .fdc) (hd : s.dom (pageDom p) = .active) : s.pwrReq p = s := by
  simp [State.pwrReq, hy, hd, State.wakeDom]

/-- Writing EN = 0 to a block that is off. -/
theorem enWrite_off (hy : pageType p = some y) (hn : y ≠ .prot ∧ y ≠ .reck) (he : s.en p = false) :
    s.enWrite p false = (s.setB p PG.CTL_EN false, .ok) := by
  simp [State.enWrite, hy, hn, he]

/-- Writing EN = 1 to a block that is off and starts nothing. -/
theorem enWrite_on (hy : pageType p = some y) (hn : y ≠ .reck)
    (hs : y ∉ [PType.beads, .cea, .loop, .mbus, .step, .tally, .nvme, .fab, .tdig]) (he : s.en p = false) :
    s.enWrite p true = ((s.setB p PG.CTL_EN true).setB p PG.STAT_ENABLED true, .ok) := by
  simp only [List.mem_cons, List.not_mem_nil, or_false, not_or] at hs
  obtain ⟨h1, h2, h3, h4, h5, h6, h7, h8, h9⟩ := hs
  have hb : s.bufBad p = false := by simp [State.bufBad, hy, h2, h9]
  have hk : ∀ x : State, x.enHook p true = x.setB p PG.STAT_ENABLED true := by
    intro x
    simp [State.enHook, hy, hn, h1, h2, h3, h4, h5, h6, h7, h8]
  simp [State.enWrite, hb, hy, hn, he, hk]

/-- LEASE_TIME and PWR_REQ of an accepted write of PG_CTL are stored. -/
def State.ctlStore (s : State) (p : Nat) (v : Word) : State :=
  (s.set p PG.CTL_LEASE_TIME (PG.CTL_LEASE_TIME.read v)).set p PG.CTL_PWR_REQ (PG.CTL_PWR_REQ.read v)

/-- LOCK of an accepted write of PG_CTL (R52). -/
def State.ctlLock (s : State) (p : Nat) (v : Word) : State :=
  if PG.CTL_LOCK.read v = 1 ∧ !s.locked p then s.set p PG.CTL_LOCK 1 else s

/-- DISCARD of an accepted write of PG_CTL (R36). -/
def State.ctlDiscard (s : State) (p : Nat) (v : Word) : State :=
  if PG.CTL_DISCARD.read v = 1 then s.setPg p { s.pg p with staged := [] } else s

/-- LEASE_REL of an accepted write of PG_CTL (R50). -/
def State.ctlRelease (s : State) (w : Writer) (p : Nat) (v : Word) : State :=
  if PG.CTL_LEASE_REL.read v = 1 ∧ s.holdsLease w p then s.endLease p else s

/-- LEASE_REQ of an accepted write of PG_CTL (R47). -/
def State.ctlRequest (s : State) (w : Writer) (p : Nat) (v : Word) : State :=
  if PG.CTL_LEASE_REQ.read v = 1 then
    let t := PG.CTL_LEASE_TIME.read v
    let l : Lease := { owner := w, remain := if t = 0 then 2000 else 100 * t }
    if s.holdsLease w p then s.setPg p { s.pg p with lease := some l }
    else s.setPg p { s.pg p with lease := some l, staged := [] }
  else s

/-- What an accepted write of PG_CTL does after EN. -/
def State.ctlActions (s : State) (w : Writer) (p : Nat) (v : Word) : State :=
  ((((s.ctlStore p v).ctlLock p v).ctlDiscard p v).ctlRelease w p v).ctlRequest w p v

theorem doms_ctlLock : (s.ctlLock p v).doms = s.doms := by unfold State.ctlLock; split <;> simp -implicitDefEqProofs

theorem doms_ctlDiscard : (s.ctlDiscard p v).doms = s.doms := by unfold State.ctlDiscard; split <;> simp -implicitDefEqProofs

theorem doms_endLease : (s.endLease p).doms = s.doms := by unfold State.endLease; split <;> rfl

theorem doms_ctlRelease : (s.ctlRelease w p v).doms = s.doms := by
  unfold State.ctlRelease
  split
  · exact doms_endLease
  · rfl

theorem doms_ctlRequest : (s.ctlRequest w p v).doms = s.doms := by
  unfold State.ctlRequest
  split
  · dsimp only
    split <;> rfl
  · rfl

theorem dom_ctlActions {d : Dom} : (s.ctlActions w p v).dom d = s.dom d := by
  simp -implicitDefEqProofs only [State.dom, State.ctlActions, doms_ctlRequest, doms_ctlRelease, doms_ctlDiscard, doms_ctlLock,
    State.ctlStore, State.set_doms]

/-- A write of PG_CTL that no lease and no shutdown refuses. -/
theorem pgCtlWrite_ok (hy : pageType p = some y) (hn : y ≠ .fdc ∧ y ≠ .safe) (hl : s.leasedByOther w p = false)
    (hs : s.flag p PG.STAT_SHUTTING = false) (hd : s.dom (pageDom p) = .active)
    (he : s.enWrite p (v.getLsbD 0) = (t, .ok)) (ht : t.dom (pageDom p) = .active) :
    s.pgCtlWrite w p v = (t.ctlActions w p v, .ok) := by
  have hp : p ≠ pSAFE := by
    rintro rfl
    exact hn.2 (Option.some.inj (hy.symm.trans (by decide)))
  have hq : pageType p ≠ some .fdc := fun e => hn.1 (Option.some.inj (hy.symm.trans e))
  have hr : (t.ctlActions w p v).pwrReq p = t.ctlActions w p v := pwrReq_active hq (dom_ctlActions.trans ht)
  rw [← hr]
  simp only [State.pgCtlWrite, hl, hs, hd, he, hp, Bool.false_and, Bool.and_false, Bool.false_eq_true, if_false,
    decide_true, if_true, ne_eq, not_true_eq_false, Bool.not_false, and_true]
  rfl

/-! ### The fields of the word written, and what each action leaves -/

theorem pages_ctlStore : (s.ctlStore p v).pages = s.pages := by simp -implicitDefEqProofs [State.ctlStore]

theorem pages_ctlLock : (s.ctlLock p v).pages = s.pages := by unfold State.ctlLock; split <;> simp -implicitDefEqProofs

theorem ctlLock_locks (h : PG.CTL_LOCK.read v = 1) : (s.ctlLock p v).locked p = true := by
  unfold State.ctlLock
  split
  case isTrue => exact flag_setB_same (f := PG.CTL_LOCK) (b := true) (by decide) (by decide)
  case isFalse hl => simpa [h] using hl

theorem ctlDiscard_off (h : PG.CTL_DISCARD.read v ≠ 1) : s.ctlDiscard p v = s := by simp [State.ctlDiscard, h]

theorem ctlRelease_off (h : PG.CTL_LEASE_REL.read v ≠ 1) : s.ctlRelease w p v = s := by simp [State.ctlRelease, h]

theorem ctlRequest_off (h : PG.CTL_LEASE_REQ.read v ≠ 1) : s.ctlRequest w p v = s := by simp [State.ctlRequest, h]

theorem get_ctlStore_pwr : (s.ctlStore p v).get p PG.CTL_PWR_REQ = PG.CTL_PWR_REQ.read v := by
  rw [State.ctlStore, get_set_same (by decide) (by decide), Fld.read]
  exact Nat.mod_mod_of_dvd _ (dvd_refl _)

theorem pg_eq_of_pages (h : t.pages = s.pages) : t.pg p = s.pg p := by rw [State.pg, State.pg, h]

theorem holdsLease_eq_of_pages (h : t.pages = s.pages) : t.holdsLease w p = s.holdsLease w p := by
  rw [State.holdsLease, State.holdsLease, pg_eq_of_pages h]

/-- DISCARD drops the staged words and leaves the lease. -/
theorem pg_ctlDiscard (h : PG.CTL_DISCARD.read v = 1) :
    (s.ctlDiscard p v).pg p = { s.pg p with staged := [] } := by
  rw [State.ctlDiscard, if_pos h, State.pg_setPg]

/-- LEASE_REQ grants or renews the lease; staged words are kept only in a renewal. -/
theorem pg_ctlRequest (h : PG.CTL_LEASE_REQ.read v = 1) :
    ((s.ctlRequest w p v).pg p).lease =
      some { owner := w,
             remain := if PG.CTL_LEASE_TIME.read v = 0 then 2000 else 100 * PG.CTL_LEASE_TIME.read v } ∧
    ((s.pg p).lease = none → ((s.ctlRequest w p v).pg p).staged = []) := by
  rw [State.ctlRequest, if_pos h]
  dsimp only
  split
  case isTrue hh =>
    refine ⟨by rw [State.pg_setPg], fun hn => ?_⟩
    simp [State.holdsLease, hn] at hh
  case isFalse => exact ⟨by rw [State.pg_setPg], fun _ => by rw [State.pg_setPg]⟩

theorem endLease_eq {l : Lease} (h : (s.pg p).lease = some l) :
    s.endLease p = (s.setPg p { s.pg p with lease := none, staged := [] }).ev p 2 := by
  rw [State.endLease, h]

theorem exists_lease_of_holds (h : s.holdsLease w p = true) : ∃ l, (s.pg p).lease = some l := by
  cases hl : (s.pg p).lease with
  | none => simp [State.holdsLease, hl] at h
  | some l => exact ⟨l, rfl⟩

theorem bit_ev {i : Nat} (h : i < 32) : (s.ev p i).bit p PG.EV_STAT i = true := by
  have hf := flag_setB_same (s := s) (p := p) (b := true) (f := ⟨PG.EV_STAT, i, i⟩) (le_refl i) h
  simpa [State.flag, State.get, Fld.read, Fld.width, State.bit, State.reg, Nat.testBit_eq_decide_div_mod_eq,
    State.ev, State.setBit] using hf

/-- LEASE_REL of the owner ends the lease, drops the staged words and sets LEASE_LOST (R50). -/
theorem ctlRelease_ends (h : PG.CTL_LEASE_REL.read v = 1) (hh : s.holdsLease w p = true) :
    ((s.ctlRelease w p v).pg p).lease = none ∧ ((s.ctlRelease w p v).pg p).staged = [] ∧
      (s.ctlRelease w p v).bit p PG.EV_STAT 2 = true := by
  obtain ⟨l, hl⟩ := exists_lease_of_holds hh
  have hg : ∀ x : State, (x.ev p 2).pg p = x.pg p := fun x => pg_eq_of_pages State.ev_pages
  rw [State.ctlRelease, if_pos ⟨h, hh⟩, endLease_eq hl, hg, State.pg_setPg]
  exact ⟨rfl, rfl, bit_ev (by decide)⟩

theorem get_ctlStore_en : (s.ctlStore p v).get p PG.CTL_EN = s.get p PG.CTL_EN := by
  have hp : ∀ x : State, ∀ n, (x.set p PG.CTL_PWR_REQ n).get p PG.CTL_EN = x.get p PG.CTL_EN := fun _ _ =>
    get_set_bits (f := PG.CTL_PWR_REQ) (g := PG.CTL_EN) rfl (by decide) (by decide) (by decide) (Or.inl (by decide))
  rw [State.ctlStore, hp]
  exact get_set_bits (f := PG.CTL_LEASE_TIME) (g := PG.CTL_EN) rfl (by decide) (by decide) (by decide)
    (Or.inl (by decide))

theorem get_ctlStore_off {f : Fld} (h : f.off ≠ PG.CTL) : (s.ctlStore p v).get p f = s.get p f := by
  rw [State.ctlStore, get_set_off h, get_set_off h]

theorem get_ctlLock_bits {f : Fld} (ho : f.off = PG.CTL) (h : f.lo ≤ f.hi) (h' : f.hi < 31) :
    (s.ctlLock p v).get p f = s.get p f := by
  unfold State.ctlLock
  split
  · exact get_set_bits ho (by decide) (by decide) h (Or.inl h')
  · rfl

theorem get_ctlLock_off {f : Fld} (h : f.off ≠ PG.CTL) : (s.ctlLock p v).get p f = s.get p f := by
  unfold State.ctlLock
  split
  · exact get_set_off h
  · rfl

theorem keeps_ctlActions {P : State → Prop} (hP : K0 P) (h : P s) : P (s.ctlActions w p v) := by
  have h1 : P (s.ctlStore p v) := keeps_State_set hP (keeps_State_set hP h)
  have h2 : P ((s.ctlStore p v).ctlLock p v) := keeps_ite (keeps_State_set hP h1) h1
  have h3 : P (((s.ctlStore p v).ctlLock p v).ctlDiscard p v) := keeps_ite (keeps_State_setPg hP h2) h2
  have h4 : P ((((s.ctlStore p v).ctlLock p v).ctlDiscard p v).ctlRelease w p v) :=
    keeps_ite (keeps_State_endLease hP h3) h3
  exact keeps_ite (keeps_ite (keeps_State_setPg hP h4) (keeps_State_setPg hP h4)) h4

theorem read_write_other {f g : Fld} {x : Word} {n : Nat} (h : f.lo ≤ f.hi) (h32 : f.hi < 32) (hg : g.lo ≤ g.hi)
    (hd : g.hi < f.lo ∨ f.hi < g.lo) : g.read (f.write x n) = g.read x := by
  rcases hd with hd | hd
  · exact fld_read_write_lo h h32 hg hd
  · exact fld_read_write_hi h h32 hd

theorem ctlWord_idle (h : CtlIdle s p) : s.ctlWord p = s.word p PG.CTL := by simp only [State.ctlWord, h.wait]

theorem pageWrite_ctl (h : (pageRow p).isSome = true) : s.pageWrite w p PG.CTL v = s.pgCtlWrite w p v := by
  rw [State.pageWrite, if_pos ⟨h, by decide⟩, if_pos rfl]

/-- A write of PG_CTL with EN = 0 to an idle page whose block is off. -/
theorem access_ctl_off (hy : pageType p = some y) (hn : y ∉ [PType.prot, .reck, .fdc, .safe])
    (hl : s.leasedByOther w p = false) (hd : s.dom (pageDom p) = .active) (hi : CtlIdle s p)
    (hv : PG.CTL_EN.read v = 0) :
    s.access w p PG.CTL 2 v = ((s.setB p PG.CTL_EN false).ctlActions w p v).answer w .ok := by
  simp only [List.mem_cons, List.not_mem_nil, or_false, not_or] at hn
  obtain ⟨h1, h2, h3, h4⟩ := hn
  have hr := pageRow_of_type hy
  refine access_ok (ownerPage_of_row hr) (pageRests_of_row hr hd) (by decide) ?_
  have hw : s.pageWrite w p PG.CTL v = s.pgCtlWrite w p v := pageWrite_ctl hr
  have hb : v.getLsbD 0 = false := by rw [getLsbD_zero_eq_en, hv]; rfl
  have he : s.en p = false := by simp only [State.en, State.flag, State.get, hi.en]; rfl
  rw [hw]
  refine pgCtlWrite_ok hy ⟨h3, h4⟩ hl hi.shutting hd (hb ▸ enWrite_off hy ⟨h1, h2⟩ he) ?_
  rw [State.dom, State.setB_doms]
  exact hd

/-- A write of PG_CTL with EN = 1 to an idle page whose block is off and starts nothing. -/
theorem access_ctl_on (hy : pageType p = some y) (hn : y ∉ [PType.prot, .reck, .fdc, .safe])
    (hs : y ∉ [PType.beads, .cea, .loop, .mbus, .step, .tally, .nvme, .fab, .tdig])
    (hl : s.leasedByOther w p = false) (hd : s.dom (pageDom p) = .active) (hi : CtlIdle s p)
    (hv : PG.CTL_EN.read v = 1) :
    s.access w p PG.CTL 2 v =
      (((s.setB p PG.CTL_EN true).setB p PG.STAT_ENABLED true).ctlActions w p v).answer w .ok := by
  simp only [List.mem_cons, List.not_mem_nil, or_false, not_or] at hn
  obtain ⟨_, h2, h3, h4⟩ := hn
  have hr := pageRow_of_type hy
  refine access_ok (ownerPage_of_row hr) (pageRests_of_row hr hd) (by decide) ?_
  have hw : s.pageWrite w p PG.CTL v = s.pgCtlWrite w p v := pageWrite_ctl hr
  have hb : v.getLsbD 0 = true := by rw [getLsbD_zero_eq_en, hv]; rfl
  have he : s.en p = false := by simp only [State.en, State.flag, State.get, hi.en]; rfl
  rw [hw]
  refine pgCtlWrite_ok hy ⟨h3, h4⟩ hl hi.shutting hd (hb ▸ enWrite_on hy h2 hs he) ?_
  rw [State.dom, State.setB_doms, State.setB_doms]
  exact hd

end

section

variable {s : State} {w : Writer} {c : Code} {p : Nat} {f : Fld}

theorem get_answer : (s.answer w c).get p f = s.get p f := rfl

theorem locked_answer : (s.answer w c).locked p = s.locked p := rfl

theorem bit_answer {o i : Nat} : (s.answer w c).bit p o i = s.bit p o i := rfl

theorem pg_answer : (s.answer w c).pg p = s.pg p := rfl

theorem sameMem_answer {t : State} (h : SameMem s t) : SameMem s (t.answer w c) := h

end

section

variable {s : State} {w : Writer} {p : Nat} {v : Word}

/-- A word that asks for no lease, releases none and drops no staged word only stores and locks. -/
theorem ctlActions_quiet (h1 : PG.CTL_DISCARD.read v = 0) (h2 : PG.CTL_LEASE_REL.read v = 0)
    (h3 : PG.CTL_LEASE_REQ.read v = 0) : s.ctlActions w p v = (s.ctlStore p v).ctlLock p v := by
  rw [State.ctlActions, ctlRequest_off (h3 ▸ by decide), ctlRelease_off (h2 ▸ by decide),
    ctlDiscard_off (h1 ▸ by decide)]

theorem pages_ctlBase : ((s.ctlStore p v).ctlLock p v).pages = s.pages := pages_ctlLock.trans pages_ctlStore

/-- A word written to PG_CTL that holds `x` in the field `f` and what the page holds in the others. -/
theorem read_ctl_other {f g : Fld} {x : Nat} (hi : CtlIdle s p) (h : f.lo ≤ f.hi) (h32 : f.hi < 32) (hg : g.lo ≤ g.hi)
    (hd : g.hi < f.lo ∨ f.hi < g.lo) : g.read (f.write (s.ctlWord p) x) = g.read (s.word p PG.CTL) := by
  rw [ctlWord_idle hi, read_write_other h h32 hg hd]

end

theorem boardPageControl : Claims.BoardPageControl := by
  unfold Claims.BoardPageControl
  intro w p s y hy hn hd hl hwait hen hsh hpwr hdis hreq hrel
  have hen : s.get p PG.CTL_EN = 0 := by simpa [State.en, State.flag] using hen
  have hi : CtlIdle s p := ⟨hwait, hen, hsh, hpwr, hdis, hreq, hrel⟩
  have off {v : Word} (hv : PG.CTL_EN.read v = 0) := access_ctl_off hy hn hl hd hi hv
  have mem {v : Word} : SameMem s ((s.setB p PG.CTL_EN false).ctlActions w p v) :=
    keeps_ctlActions (k0_sameMem s) (keeps_State_setB (k0_sameMem s) (sameMem_refl s))
  have pages {b : Bool} : (s.setB p PG.CTL_EN b).pages = s.pages := State.setB_pages
  refine ⟨?lock, ?discard, fun time => ?request, fun hh => ?release, fun hs => ?enable, fun r => ?power⟩
  case lock =>
    have hv : PG.CTL_LOCK.read (PG.CTL_LOCK.write (s.ctlWord p) 1) = 1 := fld_read_write (by decide) (by decide)
    have other {g : Fld} (h : g.lo ≤ g.hi) (h' : g.hi < 31) :=
      read_ctl_other (f := PG.CTL_LOCK) (x := 1) hi (by decide) (by decide) h (Or.inl h')
    refine ⟨_, congrArg Outcome.next (off ((other (by decide) (by decide)).trans hi.en)), ?_, sameMem_answer mem⟩
    rw [locked_answer, ctlActions_quiet ((other (by decide) (by decide)).trans hi.discard)
      ((other (by decide) (by decide)).trans hi.rel) ((other (by decide) (by decide)).trans hi.req), ctlLock_locks hv]
  case discard =>
    have hv : PG.CTL_DISCARD.read (PG.CTL_DISCARD.write (s.ctlWord p) 1) = 1 := fld_read_write (by decide) (by decide)
    have other {g : Fld} (h : g.lo ≤ g.hi) (h' : g.hi < 9) :=
      read_ctl_other (f := PG.CTL_DISCARD) (x := 1) hi (by decide) (by decide) h (Or.inl h')
    have hp : ((s.setB p PG.CTL_EN false).ctlActions w p (PG.CTL_DISCARD.write (s.ctlWord p) 1)).pg p =
        { s.pg p with staged := [] } := by
      rw [State.ctlActions, ctlRequest_off, ctlRelease_off, pg_ctlDiscard hv, pg_eq_of_pages (pages_ctlBase.trans pages)]
      · exact ((other (by decide) (by decide)).trans hi.rel).trans_ne (by decide)
      · exact ((other (by decide) (by decide)).trans hi.req).trans_ne (by decide)
    refine ⟨_, congrArg Outcome.next (off ((other (by decide) (by decide)).trans hi.en)), ?_, ?_, sameMem_answer mem⟩
    · rw [pg_answer, hp]
    · rw [pg_answer, hp]
  case request =>
    obtain ⟨v, hv⟩ : ∃ v, v = PG.CTL_LEASE_REQ.write (PG.CTL_LEASE_TIME.write (s.ctlWord p) time) 1 := ⟨_, rfl⟩
    have hreq : PG.CTL_LEASE_REQ.read v = 1 := hv ▸ fld_read_write (by decide) (by decide)
    have htime : PG.CTL_LEASE_TIME.read v = time := by
      rw [hv, read_write_other (f := PG.CTL_LEASE_REQ) (g := PG.CTL_LEASE_TIME) (by decide) (by decide) (by decide)
        (Or.inr (by decide)), fld_read_write (by decide) (by decide)]
      exact Nat.mod_eq_of_lt time.isLt
    have other {g : Fld} (h : g.lo ≤ g.hi) (h1 : g.hi < 7 ∨ 7 < g.lo) (h2 : g.hi < 16 ∨ 23 < g.lo) :
        g.read v = g.read (s.word p PG.CTL) := by
      rw [hv, read_write_other (by decide) (by decide) h h1, read_ctl_other hi (by decide) (by decide) h h2]
    have hen : PG.CTL_EN.read v = 0 := (other (by decide) (by decide) (by decide)).trans hi.en
    have hdis : PG.CTL_DISCARD.read v = 0 := (other (by decide) (by decide) (by decide)).trans hi.discard
    have hrel : PG.CTL_LEASE_REL.read v = 0 := (other (by decide) (by decide) (by decide)).trans hi.rel
    have hp : ∀ x : State, x.ctlActions w p v = ((x.ctlStore p v).ctlLock p v).ctlRequest w p v := fun x => by
      rw [State.ctlActions, ctlRelease_off (hrel ▸ by decide), ctlDiscard_off (hdis ▸ by decide)]
    have base : (((s.setB p PG.CTL_EN false).ctlStore p v).ctlLock p v).pg p = s.pg p :=
      pg_eq_of_pages (pages_ctlBase.trans pages)
    obtain ⟨hlease, hstaged⟩ := pg_ctlRequest (s := ((s.setB p PG.CTL_EN false).ctlStore p v).ctlLock p v) (w := w)
      (p := p) hreq
    refine ⟨_, congrArg Outcome.next ((congrArg (s.access w p PG.CTL 2) hv.symm).trans (off hen)), ?_, fun h => ?_,
      sameMem_answer mem⟩
    · rw [pg_answer, hp, hlease, htime]
    · rw [pg_answer, hp]
      exact hstaged (base ▸ h)
  case release =>
    obtain ⟨v, hv⟩ : ∃ v, v = PG.CTL_LEASE_REL.write (s.ctlWord p) 1 := ⟨_, rfl⟩
    have other {g : Fld} (h : g.lo ≤ g.hi) (h' : g.hi < 8 ∨ 8 < g.lo) : g.read v = g.read (s.word p PG.CTL) := by
      rw [hv, read_ctl_other hi (by decide) (by decide) h h']
    have hen : PG.CTL_EN.read v = 0 := (other (by decide) (by decide)).trans hi.en
    have hdis : PG.CTL_DISCARD.read v = 0 := (other (by decide) (by decide)).trans hi.discard
    have hreq : PG.CTL_LEASE_REQ.read v = 0 := (other (by decide) (by decide)).trans hi.req
    have hp : ∀ x : State, x.ctlActions w p v = ((x.ctlStore p v).ctlLock p v).ctlRelease w p v := fun x => by
      rw [State.ctlActions, ctlRequest_off (hreq ▸ by decide), ctlDiscard_off (hdis ▸ by decide)]
    obtain ⟨hlease, hstaged, hbit⟩ := ctlRelease_ends (s := ((s.setB p PG.CTL_EN false).ctlStore p v).ctlLock p v)
      (hv ▸ fld_read_write (by decide) (by decide) : PG.CTL_LEASE_REL.read v = 1)
      ((holdsLease_eq_of_pages (pages_ctlBase.trans pages)).trans hh)
    refine ⟨_, congrArg Outcome.next ((congrArg (s.access w p PG.CTL 2) hv.symm).trans (off hen)), ?_, ?_, ?_,
      sameMem_answer mem⟩
    · rw [pg_answer, hp, hlease]
    · rw [pg_answer, hp, hstaged]
    · rw [bit_answer, hp, hbit]
  case enable =>
    have hv : PG.CTL_EN.read (PG.CTL_EN.write (s.ctlWord p) (b2n true)) = 1 := fld_read_write (by decide) (by decide)
    have other {g : Fld} (h : g.lo ≤ g.hi) (h' : 0 < g.lo) :=
      read_ctl_other (f := PG.CTL_EN) (x := b2n true) hi (by decide) (by decide) h (Or.inr h')
    have hp : ∀ x : State, x.ctlActions w p (PG.CTL_EN.write (s.ctlWord p) (b2n true)) = _ := fun x =>
      ctlActions_quiet ((other (by decide) (by decide)).trans hi.discard)
        ((other (by decide) (by decide)).trans hi.rel) ((other (by decide) (by decide)).trans hi.req)
    refine ⟨_, congrArg Outcome.next (access_ctl_on hy hn hs hl hd hi hv), ?_, ?_, sameMem_answer ?_⟩
    · rw [hp, State.en, State.flag, get_answer, get_ctlLock_bits rfl (by decide) (by decide), get_ctlStore_en]
      refine (flag_setB_off (f := PG.STAT_ENABLED) (g := PG.CTL_EN) (by decide)).trans ?_
      exact flag_setB_same (f := PG.CTL_EN) (by decide) (by decide)
    · rw [hp, State.flag, get_answer, get_ctlLock_off (by decide), get_ctlStore_off (by decide)]
      exact flag_setB_same (f := PG.STAT_ENABLED) (by decide) (by decide)
    · exact keeps_ctlActions (k0_sameMem s) (keeps_State_setB (k0_sameMem s)
        (keeps_State_setB (k0_sameMem s) (sameMem_refl s)))
  case power =>
    have hv : PG.CTL_PWR_REQ.read (PG.CTL_PWR_REQ.write (s.ctlWord p) r) = r :=
      (fld_read_write (by decide) (by decide)).trans (Nat.mod_eq_of_lt r.isLt)
    have other {g : Fld} (h : g.lo ≤ g.hi) (h' : g.hi < 4 ∨ 5 < g.lo) :=
      read_ctl_other (f := PG.CTL_PWR_REQ) (x := r) hi (by decide) (by decide) h h'
    refine ⟨_, congrArg Outcome.next (off ((other (by decide) (by decide)).trans hi.en)), ?_, sameMem_answer mem⟩
    rw [get_answer, ctlActions_quiet ((other (by decide) (by decide)).trans hi.discard)
      ((other (by decide) (by decide)).trans hi.rel) ((other (by decide) (by decide)).trans hi.req),
      get_ctlLock_bits rfl (by decide) (by decide), get_ctlStore_pwr, hv]

section

variable {s : State} {w : Writer} {p o : Nat} {g : Word} {l : Lease}

theorem holdsLease_owner (h : (s.pg p).lease = some l) : s.holdsLease l.owner p = true := by
  simp [State.holdsLease, h]

/-- A commit request on a page that exists and answers (R43). -/
theorem access_commit {t : State} {c : Code} (hp : (pageRow p).isSome = true) (h : s.pageRests p = false)
    (e : s.commitReq w p g = (t, c)) : s.access w p PG.COMMIT 2 g = (t.countRefused w p c).answer w c := by
  refine access_code (ownerPage_of_row hp) h (by decide) ?_
  rw [State.pageWrite, if_pos ⟨hp, by decide⟩, if_neg (by decide), if_pos rfl, e]

/-- A commit in the cycle of the lease's expiry is refused (R49). -/
theorem commitReq_lapsed (h : (s.pg p).lapsed = some (s.beam.t / 640)) :
    s.commitReq w p g = (s.err p 4, .writeRefused) := by
  simp [State.commitReq, h, refuse]

end

theorem boardLeaseEnds : Claims.BoardLeaseEnds := by
  unfold Claims.BoardLeaseEnds
  intro p s l h gone
  refine ⟨fun ms hr hm => ?expires, fun ms hr hm => ?counts, fun ms hr => ?stays, fun w g hp hd ht => ?lapsed,
    fun hp => ?ownerLost⟩
  case expires =>
    have hb : gone.beam = s.beam := State.ev_beam.trans State.setPg_beam
    rw [← hb]
    simp only [exec, execLeaseExpire, h, hr, hm, Bool.not_true, Bool.false_eq_true, if_false, if_true, endLease_eq h]
    rfl
  case counts =>
    simp only [exec, execLeaseExpire, h, hr, Nat.not_le.mpr hm, Bool.not_true, Bool.false_eq_true, if_false]
  case stays => simp only [exec, execLeaseExpire, h, hr, Bool.not_false, if_true]
  case lapsed =>
    have hr := pageRow_of_type_ne hp
    exact congrArg Outcome.next (access_commit hr (pageRests_of_row hr hd) (commitReq_lapsed ht))
  case ownerLost =>
    simp only [exec, execLeaseOwnerLost, State.ownerLost, hp, List.foldl, holdsLease_owner h, if_true, endLease_eq h,
      gone]

/-- Settles O9: the parts above. -/
theorem boardControl : Obligations.BoardControl := ⟨boardPageControl, boardLeaseEnds⟩

/-! ## Commits and injection (R43, R570, R571) -/

section

variable {s : State} {w : Writer} {p : Nat} {g : Word}

/-- On CLK and SUP a pending set applies at once and nothing follows. -/
theorem commitApply_plain (h : pageType p = some .clk ∨ pageType p = some .sup) (ha : (s.pg p).applyPending = true) :
    s.commitApply p = s.applyCommit p := by
  have hp : p ≠ pBEAM := by
    rintro rfl
    rcases h with h | h <;> exact absurd h (by decide)
  simp only [State.commitApply, ha, Bool.not_true, Bool.false_eq_true, if_false, hp, State.commitHook]
  rcases h with h | h <;> simp only [h]

theorem commitReq_plain (h : pageType p = some .clk ∨ pageType p = some .sup) (hl : s.leasedByOther w p = false)
    (ht : (s.pg p).lapsed ≠ some (s.beam.t / 640)) (ha : (s.pg p).applyPending = false) (hg : g.toNat = s.reg p PG.GEN)
    (hd : s.commitDenied p = []) :
    s.commitReq w p g = ((s.setPg p { s.pg p with
      staged := [], pending := (s.pg p).staged, applyPending := true }).applyCommit p, .ok) := by
  have hp : p ≠ pFRAME := by
    rintro rfl
    rcases h with h | h <;> exact absurd h (by decide)
  have later : ∀ x : State, x.appliesLater p = false := fun x => by
    rcases h with h | h <;> simp [State.appliesLater, h]
  have apply : ∀ x : PageX, x.applyPending = true → (s.setPg p x).commitApply p = (s.setPg p x).applyCommit p :=
    fun x hx => commitApply_plain h (by rw [State.pg_setPg, hx])
  simp [State.commitReq, hl, ht, ha, hg, hd, hp, later, apply]

theorem commitReq_busy (hl : s.leasedByOther w p = false) (ht : (s.pg p).lapsed ≠ some (s.beam.t / 640))
    (ha : (s.pg p).applyPending = true) : s.commitReq w p g = (s.err p 2, .busy) := by
  simp [State.commitReq, hl, ht, ha, refuse]

theorem commitReq_generation (hl : s.leasedByOther w p = false) (ht : (s.pg p).lapsed ≠ some (s.beam.t / 640))
    (ha : (s.pg p).applyPending = false) (hg : g.toNat ≠ s.reg p PG.GEN) :
    s.commitReq w p g = (s.err p 6, .writeRefused) := by
  simp [State.commitReq, hl, ht, ha, hg, refuse]

theorem commitReq_denied (hl : s.leasedByOther w p = false) (ht : (s.pg p).lapsed ≠ some (s.beam.t / 640))
    (ha : (s.pg p).applyPending = false) (hg : g.toNat = s.reg p PG.GEN) (hd : s.commitDenied p ≠ []) :
    s.commitReq w p g = ((s.commitDenied p).foldl (fun s b => s.err p b) s, .writeRefused) := by
  simp only [State.commitReq, hl, ht, ha, hg, Bool.false_eq_true, false_or, if_false, ne_eq, not_true_eq_false]
  rfl

/-- A write of PG_INJ on a page that exists, answers and that no other owner leases. -/
theorem access_inj {t : State} {c : Code} (hp : (pageRow p).isSome = true) (h : s.pageRests p = false)
    (e : s.injWrite w p g = (t, c)) : s.access w p PG.INJ 2 g = (t.countRefused w p c).answer w c := by
  refine access_code (ownerPage_of_row hp) h (by decide) ?_
  rw [State.pageWrite, if_pos ⟨hp, by decide⟩, if_neg (by decide), if_neg (by decide), if_pos rfl, e]

theorem toNat_injWord (shots point : Fin 256) : (wordOf (shots * 256 + point)).toNat = shots * 256 + point := by
  rw [wordOf_toNat]
  omega

theorem shots_injWord (shots point : Fin 256) : PG.INJ_SHOTS.read (wordOf (shots * 256 + point)) = shots := by
  simp only [Fld.read, Fld.width, toNat_injWord]
  omega

theorem point_injWord (shots point : Fin 256) : PG.INJ_POINT.read (wordOf (shots * 256 + point)) = point := by
  simp only [Fld.read, Fld.width, toNat_injWord]
  omega

end

theorem boardCommit : Claims.BoardCommit := by
  unfold Claims.BoardCommit
  intro w p s hp hd hl
  have hr := pageRow_of_type_ne hp
  have hn := pageRests_of_row hr hd
  have hg : (wordOf (s.reg p PG.GEN)).toNat = s.reg p PG.GEN := by
    rw [wordOf_toNat]
    exact Nat.mod_eq_of_lt (s.word p PG.GEN).isLt
  have act : ∀ f, s.actionWrite w p f = f s := fun f => actionWrite_ok ⟨hn, leaseRefuses_eq_false hl⟩
  refine ⟨fun hy ha hc ht => ?applies, fun hy ha => ?applyPoint, fun g ht ha => ?busy, fun g ht ha hg => ?generation,
    fun ht ha hc => ?denied, fun point => ?disarm, fun shots point r h0 hi he hs => ?arm,
    fun shots point h0 hi => ?refused⟩
  case applies =>
    refine congrArg Outcome.next ((access_commit hr hn (commitReq_plain hy hl ht ha hg hc)).trans ?_)
    rw [State.countRefused, if_neg (by simp)]
  case applyPoint => exact congrArg Outcome.next (commitApply_plain hy ha)
  case busy => exact congrArg Outcome.next (access_commit hr hn (commitReq_busy hl ht ha))
  case generation => exact congrArg Outcome.next (access_commit hr hn (commitReq_generation hl ht ha hg))
  case denied => exact congrArg Outcome.next (access_commit hr hn (commitReq_denied hl ht ha hg hc))
  case disarm =>
    have e : s.injWrite w p (wordOf ((0 : Fin 256) * 256 + point)) = (s.setReg p PG.INJ point, .ok) := by
      rw [State.injWrite, act, shots_injWord, if_pos (by rfl), toNat_injWord]
      simp [Nat.mod_eq_of_lt point.isLt]
    refine congrArg Outcome.next ((access_inj hr hn e).trans ?_)
    rw [State.countRefused, if_neg (by simp)]
  case arm =>
    have e : s.injWrite w p (wordOf (shots * 256 + point)) =
        (s.setReg p PG.INJ (256 * shots.val + point.val), .ok) := by
      rw [State.injWrite, act, shots_injWord, if_neg h0, point_injWord, hi, toNat_injWord]
      have hm : (shots.val * 256 + point.val) % 65536 = 256 * shots.val + point.val := by omega
      simp only [he, hs, Bool.and_self, if_true, hm]
    refine congrArg Outcome.next ((access_inj hr hn e).trans ?_)
    rw [State.countRefused, if_neg (by simp)]
  case refused =>
    have e : s.injWrite w p (wordOf (shots * 256 + point)) = (s.injDeny p, .writeRefused) := by
      rw [State.injWrite, act, shots_injWord, if_neg h0, point_injWord]
      cases hp : s.injPoint p point with
      | none => rfl
      | some r =>
        rw [hp] at hi
        rcases hi with hi | hi | hi
        · cases hi
        · simp [hi]
        · simp_all
    exact congrArg Outcome.next (access_inj hr hn e)

/-! ### The apply of a pending set -/

/-- The board after the writes of a pending set, in order. -/
def putAll (b : List (Nat × Word)) (l : List (Nat × Word)) : List (Nat × Word) :=
  l.foldl (fun b e => tabPut resetWord b e.1 e.2) b

theorem foldl_put_eq (s : State) (l : List (Nat × Word)) :
    l.foldl (fun s e => { s with board := tabPut resetWord s.board e.1 e.2 }) s = { s with board := putAll s.board l } := by
  induction l generalizing s with
  | nil => rfl
  | cons e l ih => exact ih _

theorem tabGet_putAll_other {b l : List (Nat × Word)} {k : Nat} (h : k ∉ l.map Prod.fst) :
    tabGet resetWord (putAll b l) k = tabGet resetWord b k := by
  induction l generalizing b with
  | nil => rfl
  | cons e l ih =>
    simp only [List.map_cons, List.mem_cons, not_or] at h
    exact (ih h.2).trans (tabGet_put_other h.1)

theorem tabGet_putAll_mem {b l : List (Nat × Word)} (hn : (l.map Prod.fst).Nodup) :
    ∀ e ∈ l, tabGet resetWord (putAll b l) e.1 = e.2 := by
  induction l generalizing b with
  | nil => exact fun e h => absurd h List.not_mem_nil
  | cons d l ih =>
    simp only [List.map_cons, List.nodup_cons] at hn
    intro e he
    rcases List.mem_cons.mp he with rfl | he
    · exact (tabGet_putAll_other hn.1).trans tabGet_put_same
    · exact ih hn.2 e he

section

variable {s : State} {p : Nat}

/-- An apply writes the set, empties it, advances PG_GEN and sets APPLIED. -/
theorem applyCommit_eq (h : (s.pg p).applyPending = true) :
    s.applyCommit p = ((({ s with board := putAll s.board (s.pg p).pending } : State).setPg p
      { s.pg p with pending := [], applyPending := false }).inc p PG.GEN).ev p 1 := by
  rw [State.applyCommit]
  simp only [h, if_true, foldl_put_eq]

theorem keeps_applyCommit_mem : SameMem s (s.applyCommit p) := keeps_State_applyCommit (k0_sameMem s) (sameMem_refl s)

end

theorem commitAppliesPending : Claims.CommitAppliesPending := by
  unfold Claims.CommitAppliesPending
  intro s p ha hn hgen hev
  refine ⟨_, rfl, ?_⟩
  have hmem : SameMem s (s.applyCommit p) := keeps_applyCommit_mem
  have heq := applyCommit_eq ha
  generalize s.applyCommit p = t at hmem heq
  obtain ⟨u, hu⟩ : ∃ u : State, u = ({ s with board := putAll s.board (s.pg p).pending } : State).setPg p
      { s.pg p with pending := [], applyPending := false } := ⟨_, rfl⟩
  have hboard : u.board = putAll s.board (s.pg p).pending := by rw [hu]; rfl
  rw [← hu] at heq
  have hkeep : ∀ j, j ≠ bkey p PG.GEN → j ≠ bkey p PG.EV_STAT →
      tabGet resetWord t.board j = tabGet resetWord (putAll s.board (s.pg p).pending) j := by
    intro j h1 h2
    rw [heq, ← hboard]
    exact (tabGet_put_other h2).trans (tabGet_put_other h1)
  have hne : bkey p PG.GEN ≠ bkey p PG.EV_STAT := fun e => absurd (bkey_off.mp e) (by decide)
  have hpg : t.pg p = { s.pg p with pending := [], applyPending := false } := by
    rw [heq, pg_eq_of_pages State.ev_pages, pg_eq_of_pages State.inc_pages, hu, State.pg_setPg]
  have hu' : u.reg p PG.GEN = s.reg p PG.GEN := by
    rw [State.reg, State.reg, State.word, State.word, hboard, tabGet_putAll_other hgen]
  refine ⟨fun e he => ?set, fun j hj h1 h2 => (hkeep j h1 h2).trans (tabGet_putAll_other hj), ?generation, ?applied, ?_,
    ?_, hmem⟩
  case set =>
    have hk : e.1 ∈ (s.pg p).pending.map Prod.fst := List.mem_map_of_mem he
    rw [hkeep e.1 (fun h => hgen (h ▸ hk)) (fun h => hev (h ▸ hk))]
    exact tabGet_putAll_mem hn e he
  case generation =>
    rw [heq, ← hu']
    have h1 : ((u.inc p PG.GEN).ev p 1).reg p PG.GEN = (u.inc p PG.GEN).reg p PG.GEN := reg_set_off (by decide)
    rw [h1, State.inc, reg_setReg_same, Nat.mod_mod]
  case applied => rw [heq, bit_ev (by decide)]
  · rw [hpg]
  · rw [hpg]

/-- Settles O10: the parts above. -/
theorem boardCommits : Obligations.BoardCommits := ⟨boardCommit, commitAppliesPending⟩

/-! ## Pages whose domain rests (R31, R53, R54) -/

section

variable {s : State} {w : Writer} {p o off z : Nat} {k : Bool} {d : Option Word}

theorem burstOk_one (ha : off % 4 = 0) (hoff : off < 4096) : burstOk off 1 = true := by
  simp only [burstOk, decide_eq_true_eq]
  omega

theorem aonWord_eq_false (h : 12 ≤ off) : aonWord p off = false := by
  simp only [aonWord, decide_eq_false_iff_not, not_and, not_lt]
  exact fun _ => h

theorem wordWrite_rests (h : s.pageRests p = true) (hoff : 12 ≤ off) {v : Word} :
    s.wordWrite w p off v = s.restWrite w p := by
  simp [State.wordWrite, h, aonWord_eq_false hoff]

theorem wordRead_rests_local (h : s.pageRests p = true) (hoff : 12 ≤ off) (hw : w.isRemote = false) :
    s.wordRead w p off = (s.restAccess p, 0) := by
  simp [State.wordRead, h, aonWord_eq_false hoff, hw]

/-- A session's or a device's word at a page that does not answer. -/
theorem transact_rests (ho : ownerPage p = some o) (h : s.pageRests p = true) (ha : off % 4 = 0) (hlo : 12 ≤ off)
    (hoff : off < 4096) {l : Option (List Word)} :
    s.transact { w := w, page := p, off := off, data := l, count := 1 } k =
      if k = true ∧ s.dev ≠ dvDEEP then
        { s.wakeDom (accDom p) with waits := s.waits ++ [{ w := w, page := p, off := off, data := l, count := 1 }] }
      else s.send (.resp w .domainResting 0 []) := by
  simp [State.transact, ho, burstOk_one ha hoff, State.burstRests, h, aonWord_eq_false hlo, State.answerAcc]

theorem readAccess_remote (hw : w.isRemote = true) :
    s.readAccess w p off z k = s.transact { w := w, page := p, off := off, data := none, count := 1 } k := by
  simp [State.readAccess, hw]

/-- A local read of an aligned word, half-word or byte of a page that exists. -/
theorem readAccess_local (hw : w.isRemote = false) (ho : ownerPage p = some o) (ha : off % 2 ^ z = 0) :
    s.readAccess w p off z k = (s.wordRead w p (off / 4 * 4)).1.send
      (.resp w .ok 1 [bytesAt (s.wordRead w p (off / 4 * 4)).2 off z]) := by
  simp [State.readAccess, hw, ho, ha]

/-- One word written by a session or a device at a page that answers. -/
theorem transact_write (ho : ownerPage p = some o) (h : s.pageRests p = false) (ha : off % 4 = 0) (hoff : off < 4096)
    {v : Word} : s.transact { w := w, page := p, off := off, data := some [v], count := 1 } k =
      (s.wordWrite w p off v).1.answer w (s.wordWrite w p off v).2 := by
  simp [State.transact, ho, burstOk_one ha hoff, State.burstRests, h, State.runAcc, State.burstWrite, State.answerAcc,
    State.answer]

end

theorem mod_two_pow_of_mod_four {n : Nat} (z : Fin 3) (h : n % 4 = 0) : n % 2 ^ z.val = 0 := by
  have hz : 2 ^ z.val ∣ 4 := pow_dvd_pow 2 (Nat.le_of_lt_succ z.isLt)
  exact Nat.mod_eq_zero_of_dvd (hz.trans (Nat.dvd_of_mod_eq_zero h))

/-- Settles O11: a page that does not answer, one access after the other, and one that does. -/
theorem boardRestingPages : Obligations.BoardRestingPages := by
  unfold Obligations.BoardRestingPages
  intro w p off s hp ha hlo
  obtain ⟨o, ho⟩ := Option.ne_none_iff_exists'.mp hp
  refine ⟨fun hw hd => ?remote, fun hw hd k => ?ofLocal, fun hd k => ?active⟩
  case remote =>
    have hr := pageRests_eq_true hd
    refine ⟨fun d => ?_, ?_, fun hdev d => ?_⟩
    · cases d <;> simp [exec, execRestPageAccess, hw, readAccess_remote, transact_rests ho hr ha hlo off.isLt]
    · simp [exec, execLowWordRead, hw, readAccess_remote, transact_rests ho hr ha hlo off.isLt]
    · cases d <;> simp [exec, execRestPageAccess, hw, readAccess_remote, transact_rests ho hr ha hlo off.isLt, hdev]
  case ofLocal =>
    have hr := pageRests_eq_true hd
    have hd4 : off.val / 4 * 4 = off := Nat.div_mul_cancel (Nat.dvd_of_mod_eq_zero ha)
    have read : ∀ z : Fin 3, ∀ k, s.readAccess w p off z k = (s.restAccess p).send (.resp w .ok 1 [0]) := fun z k => by
      rw [readAccess_local hw ho (mod_two_pow_of_mod_four z ha), hd4, wordRead_rests_local hr hlo hw]
      simp [bytesAt]
    refine ⟨congrArg Outcome.next (read 2 k), fun v => ?_, fun z => congrArg Outcome.next (read z false)⟩
    simp [exec, execRestPageAccess, hw, access_word ho ha, wordWrite_rests hr hlo, State.restWrite]
  case active =>
    have hr := pageRests_eq_false hd
    refine ⟨congrArg Outcome.next (readAccess_word ho hr ha off.isLt), fun v => ?_,
      congrArg Outcome.next (readAccess_word ho hr ha off.isLt), fun hw z i hi h h' => ?_⟩
    · cases hw : w.isRemote
      · simp [exec, execRestPageAccess, hw, access_word ho ha]
      · simp [exec, execRestPageAccess, hw, transact_write ho hr ha off.isLt]
    · have hz : (off.val + i) % 2 ^ z.val = 0 := by
        rw [Nat.add_mod, mod_two_pow_of_mod_four z ha, hi]
        exact Nat.zero_mod _
      have hw4 : (off.val + i) / 4 * 4 = off := by omega
      have hi4 : (off.val + i) % 4 = i := by omega
      refine congrArg Outcome.next ((readAccess_local hw ho hz).trans ?_)
      simp only [hw4, wordRead_active hr, bytesAt, hi4]

end Sys2Proof.Machine

/-! PROOFS. The computing instructions of the reckoners (spec/09, R225, R227, R228, R232, R233): one lemma per shape of
result, and every instruction by its own. -/

namespace Sys2Proof.Machine

open Host (Outcome)

section

variable {s : State} {k op n w : Nat}

theorem rInstr_resPair {f : ReckX → Nat → Nat × Nat} (h : s.atInstr k op (some n) w) (hl : legalR w = true) :
    s.rInstr k op n (fun x w => resPair w (f x w)) = s.wrote k w (f (s.reckX k) w).1 (f (s.reckX k) w).2 := by
  rw [rInstr_legal h hl, resPair, finishI_one]

theorem rInstr_resSt {f : ReckX → Nat → Nat × Nat} (h : s.atInstr k op (some n) w) (hl : legalR w = true) :
    s.rInstr k op n (fun x w => resSt x w (f x w)) =
      s.wrote k w (f (s.reckX k) w).1 (flZN (s.reckX k).flags (f (s.reckX k) w).1 ||| (f (s.reckX k) w).2) := by
  rw [rInstr_legal h hl, resSt, finishI_one]

theorem rInstr_flags {f : ReckX → Nat → Nat} (h : s.atInstr k op (some n) w) (hl : legalR w = true) :
    s.rInstr k op n (fun x w => .done [] (f x w)) = s.wroteFlags k (f (s.reckX k) w) := by
  rw [rInstr_legal h hl, finishI_none]

theorem rInstr_one {f g : ReckX → Nat → Nat} (h : s.atInstr k op (some n) w) (hl : legalR w = true) :
    s.rInstr k op n (fun x w => .done [(iD w, f x w)] (g x w)) = s.wrote k w (f (s.reckX k) w) (g (s.reckX k) w) := by
  rw [rInstr_legal h hl, finishI_one]

theorem iInstr_resPair {f : ReckX → Nat → Nat × Nat} (h : s.atInstr k op none w) (hl : legalI w = true) :
    s.iInstr k op (fun x w => resPair w (f x w)) = s.wrote k w (f (s.reckX k) w).1 (f (s.reckX k) w).2 := by
  rw [iInstr_legal h hl, resPair, finishI_one]

theorem iInstr_resZN {f : ReckX → Nat → Nat} (h : s.atInstr k op none w) (hl : legalI w = true) :
    s.iInstr k op (fun x w => resZN x w (f x w)) =
      s.wrote k w (f (s.reckX k) w) (flZN (s.reckX k).flags (f (s.reckX k) w)) := by
  rw [iInstr_legal h hl, resZN, finishI_one]

theorem iInstr_one {f g : ReckX → Nat → Nat} (h : s.atInstr k op none w) (hl : legalI w = true) :
    s.iInstr k op (fun x w => .done [(iD w, f x w)] (g x w)) = s.wrote k w (f (s.reckX k) w) (g (s.reckX k) w) := by
  rw [iInstr_legal h hl, finishI_one]

theorem iInstr_flags {f : ReckX → Nat → Nat} (h : s.atInstr k op none w) (hl : legalI w = true) :
    s.iInstr k op (fun x w => .done [] (f x w)) = s.wroteFlags k (f (s.reckX k) w) := by
  rw [iInstr_legal h hl, finishI_none]

end

/-- R225: sums and the comparison, then the results with Z and N, LIMIT being the one with SAT. -/
theorem reckInteger : Claims.ReckInteger := by
  unfold Claims.ReckInteger
  intro k s w hl x fl a b c nb cy sum sumFl
  refine ⟨?add, ?adc, ?sub, ?sbc, ?neg, ?cmp, ?and, ?or, ?xor, ?mul, ?mulh, ?mulhu, ?min, ?max, ?limit, ?clz, ?exth,
    ?exthh, ?packh⟩
  case add | adc | sub | sbc | neg => exact fun h => congrArg Outcome.next (rInstr_resPair h hl)
  case cmp => exact fun h => congrArg Outcome.next (rInstr_flags h hl)
  case limit => exact fun h => congrArg Outcome.next (rInstr_resSt h hl)
  case and | or | xor | mul | mulh | mulhu | min | max | clz | exth | exthh | packh =>
    exact fun h => congrArg Outcome.next (rInstr_resZN h hl)

/-- R225: SEL, whose C field holds the condition. -/
theorem reckSelect : Claims.ReckSelect := by
  unfold Claims.ReckSelect
  intro k s w h hd ha hb h6 x
  have hl : (legalRegs [iD w, iA w, iB w] && decide (bitsOf w 6 6 = 0)) = true := by
    simp [legalRegs, hd, ha, hb, h6]
  exact congrArg Outcome.next ((instr_legal h hl).trans finishI_one)

/-- R227, R228: the results with SAT; ABS alone has the overflow flag instead. -/
theorem reckSaturating : Claims.ReckSaturating := by
  unfold Claims.ReckSaturating
  intro k s w hl x fl a b d out sat round
  refine ⟨?adds, ?subs, ?negs, ?abs, ?abss, ?shls, ?sath, ?qmul, ?qmac, ?qmsu⟩
  case abs => exact fun h => congrArg Outcome.next (rInstr_one h hl)
  case adds | subs | negs | abss | shls | sath | qmul | qmac | qmsu =>
    exact fun h => congrArg Outcome.next (rInstr_resSt h hl)

/-- R233: the immediate forms. -/
theorem reckImmediate : Claims.ReckImmediate := by
  unfold Claims.ReckImmediate
  intro k s w hl x fl a z sx nx sum sumFl
  refine ⟨?addi, ?andi, ?ori, ?xori, ?lui, ?cmpi⟩
  case addi => exact fun h => congrArg Outcome.next (iInstr_resPair h hl)
  case andi | ori | xori => exact fun h => congrArg Outcome.next (iInstr_resZN h hl)
  case lui => exact fun h => congrArg Outcome.next (iInstr_one h hl)
  case cmpi => exact fun h => congrArg Outcome.next (iInstr_flags h hl)

/-- Settles O12: the parts above. -/
theorem reckArithmetic : Obligations.ReckArithmetic := ⟨reckInteger, reckSelect, reckSaturating, reckImmediate⟩

/-- Settles O15: FCMP writes only flags; every other instruction is a binary32 result. -/
theorem reckFloat : Obligations.ReckFloat := by
  unfold Obligations.ReckFloat
  intro k s w hl x a b c out
  refine ⟨?add, ?sub, ?mul, ?div, ?fma, ?fms, ?sqrt, ?min, ?max, ?abs, ?neg, ?cmp, ?lim, ?ftoi, ?itof, ?ftoq, ?qtof⟩
  case cmp => exact fun h => congrArg Outcome.next (rInstr_flags h hl)
  case add | sub | mul | div | fma | fms | sqrt | min | max | abs | neg | lim | ftoi | itof | ftoq | qtof =>
    exact fun h => congrArg Outcome.next (rInstr_resF h hl)

end Sys2Proof.Machine

/-! PROOFS. The control helpers of the reckoners (spec/09, R237, R238): outputs within their bounds. -/

namespace Sys2Proof.Machine

open Host (Outcome)

/-! ## Bounds of one output -/

/-- A choice of R237 lies within 1 of the floor `q`. -/
theorem within1_eq (q : Int) (exact : Bool) (f : Nat) :
    ∃ y, within1 q exact f = sat32 y ∧ q - 1 ≤ y ∧ y ≤ q + 1 ∧ (exact = false → q ≤ y) := by
  cases exact
  · exact ⟨q + ((f % 2 : Nat) : Int), rfl, by omega, by omega, fun _ => by omega⟩
  · exact ⟨q + ((f % 3 : Nat) : Int) - 1, rfl, by omega, by omega, fun h => by cases h⟩

/-- A choice around the floor of n / d lies within 1 of n / d. -/
theorem within1_quot (n : Int) {d : Nat} (hd : 0 < d) (f : Nat) :
    ∃ y, within1 (quot n d).1 (quot n d).2 f = sat32 y ∧ n - d ≤ y * d ∧ y * d ≤ n + d := by
  obtain ⟨y, hy, hlo, hhi, hfloor⟩ := within1_eq (quot n d).1 (quot n d).2 f
  refine ⟨y, hy, ?_⟩
  have hd' : (0 : Int) < d := Int.natCast_pos.mpr hd
  have hdiv : n / d * d + n % d = n := by rw [mul_comm]; exact Int.mul_ediv_add_emod n d
  have hmod0 : 0 ≤ n % (d : Int) := Int.emod_nonneg _ hd'.ne'
  have hmod1 : n % (d : Int) < d := Int.emod_lt_of_pos _ hd'
  simp only [quot, decide_eq_false_iff_not] at hlo hhi hfloor
  have hup : y * d ≤ n / d * d + d := by nlinarith
  rcases eq_or_ne (n % (d : Int)) 0 with h0 | h0
  · have hdown : n / d * d - d ≤ y * d := by nlinarith
    constructor <;> omega
  · have hdown : n / d * d ≤ y * d := mul_le_mul_of_nonneg_right (hfloor h0) hd'.le
    constructor <;> omega

theorem clampI_bounds {lo hi x : Int} (h : lo ≤ hi) : lo ≤ clampI lo hi x ∧ clampI lo hi x ≤ hi := by
  unfold clampI
  split
  · omega
  · split <;> omega

/-- A SINCOS output is within 4 of the floor of half its operand, and exact where it says so. -/
theorem sinOut_near (e : Bool) (v : Int) (f : Nat) : ∃ d : Int, -4 ≤ d ∧ d ≤ 4 ∧
    sinOut e v f = enc 32 (clampI (-2147483647) 2147483647 (v / 2 + d)) := by
  cases e
  · refine ⟨((f % 8 : Nat) : Int) - 3, by omega, by omega, ?_⟩
    simp only [sinOut, Bool.false_eq_true, if_false, add_sub_assoc]
  · refine ⟨0, by decide, by decide, ?_⟩
    simp only [sinOut, if_true, add_zero]

theorem sinOut_ne (e : Bool) (v : Int) (f : Nat) : sinOut e v f ≠ 2 ^ 31 := by
  obtain ⟨d, _, _, h⟩ := sinOut_near e v f
  obtain ⟨hlo, hhi⟩ := clampI_bounds (lo := -2147483647) (hi := 2147483647) (x := v / 2 + d) (by decide)
  rw [h, enc]
  omega

/-! ## One helper instruction -/

section

variable {s : State} {k fn n w : Nat} {legal : Nat → Bool} {f : ReckX → Nat → List Nat → List (Nat × Nat)}

/-- Free values change nothing but their counter. -/
theorem frees_state (n : Nat) (s : State) : ∃ m, (s.frees n).2 = { s with freeCtr := m } := by
  induction n generalizing s with
  | zero => exact ⟨s.freeCtr, rfl⟩
  | succ n ih => exact ih s.free.2

/-- A helper with legal fields runs on the reckoner's record and `n` free values. -/
theorem helper_legal (h : s.atInstr k 0x04 (some fn) w) (hl : legalR w = true) (hg : legal w = true) :
    ∃ m, s.helper k fn n legal f = ({ s with freeCtr := m } : State).finishI k
      (.done ((f (s.reckX k) w (s.frees n).1).zipIdx.map (fun e => (iD w + e.2, e.1.1)))
        ((f (s.reckX k) w (s.frees n).1).foldl (fun fl e => fl ||| e.2) (s.reckX k).flags)) := by
  obtain ⟨m, hm⟩ := frees_state n s
  have hb : (legalRegs [iD w, iA w, iB w, iC w] && legal w) = true := by
    rw [hg, Bool.and_true]
    exact hl
  refine ⟨m, ?_⟩
  rw [State.helper, instr_legal h hb]
  dsimp only
  rw [hm]
  rfl

end

theorem reckRotations : Claims.ReckRotations := by
  unfold Claims.ReckRotations
  intro k s w hl hd x r near pair
  have two {fn : Nat} {legal : Nat → Bool} {f : ReckX → Nat → List Nat → List (Nat × Nat)} {y z : Int}
      (h : s.atInstr k 0x04 (some fn) w) (hg : legal w = true)
      (hf : f x w (s.frees 2).1 = [sat32 y, sat32 z]) :
      pair (s.helper k fn 2 legal f) y z := by
    obtain ⟨m, hm⟩ := helper_legal (n := 2) (f := f) h hl hg
    refine ⟨m, hm.trans ?_⟩
    rw [hf]
    simp only [State.finishI, List.zipIdx, List.map, List.foldl, setR_pc]
    rfl
  refine ⟨fun h ha hb => ?park, fun h ha hb => ?ipark, fun h ha => ?clarke⟩
  case park =>
    obtain ⟨y, hy, hny⟩ := within1_quot (r (iA w) 0 * r (iB w) 1 + r (iA w) 1 * r (iB w) 0) (d := 2 ^ 31) (by decide)
      ((s.frees 2).1.getD 0 0)
    obtain ⟨z, hz, hnz⟩ := within1_quot (r (iA w) 1 * r (iB w) 1 - r (iA w) 0 * r (iB w) 0) (d := 2 ^ 31) (by decide)
      ((s.frees 2).1.getD 1 0)
    exact ⟨_, y, z, rfl, two h (by simp [legalPark, hd, ha, hb]) (congrArg₂ (fun a b => [a, b]) hy hz), hny, hnz⟩
  case ipark =>
    obtain ⟨y, hy, hny⟩ := within1_quot (r (iA w) 0 * r (iB w) 1 - r (iA w) 1 * r (iB w) 0) (d := 2 ^ 31) (by decide)
      ((s.frees 2).1.getD 0 0)
    obtain ⟨z, hz, hnz⟩ := within1_quot (r (iA w) 0 * r (iB w) 0 + r (iA w) 1 * r (iB w) 1) (d := 2 ^ 31) (by decide)
      ((s.frees 2).1.getD 1 0)
    exact ⟨_, y, z, rfl, two h (by simp [legalPark, hd, ha, hb]) (congrArg₂ (fun a b => [a, b]) hy hz), hny, hnz⟩
  case clarke =>
    obtain ⟨y, hy, hny⟩ := within1_quot (2 * r (iA w) 0 - r (iA w) 1 - r (iA w) 2) (d := 3) (by decide)
      ((s.frees 2).1.getD 0 0)
    obtain ⟨z, hz, hlo, hhi, _⟩ := within1_eq (mulRoot3 (r (iA w) 1 - r (iA w) 2) 1 3).1
      (mulRoot3 (r (iA w) 1 - r (iA w) 2) 1 3).2 ((s.frees 2).1.getD 1 0)
    exact ⟨_, y, z, rfl, two h (by simp [hd, ha]) (congrArg₂ (fun a b => [a, b]) hy hz), hny, hlo, hhi⟩

/-- The outputs of SINCOS with the sticky flags that go with them. -/
def sincosOuts (x : ReckX) (w : Nat) (fr : List Nat) : List (Nat × Nat) :=
  let a := x.a w
  let sn := sinOut (decide (a % 2 ^ 30 = 0)) (sinCos a).1 (fr.getD 0 0)
  let cs := sinOut (decide (a % 2 ^ 30 = 0)) (sinCos a).2 (fr.getD 1 0)
  [(sn, if (sn = 2 ^ 31 - 1 ∨ cs = 2 ^ 31 - 1) ∧ fr.getD 2 0 % 2 = 1 then flSAT else 0), (cs, 0)]

theorem execSincos_eq (k : Fin 32) (s : State) :
    exec (.sincos k) s = .next (s.helper k 0 3 (fun w => legalPair (iD w)) sincosOuts) := rfl

/-- The outputs of ICLARKE. -/
def iclarkeOuts (x : ReckX) (w : Nat) (fr : List Nat) : List (Nat × Nat) :=
  let al := x.at (iA w) 0
  let be := x.at (iA w) 1
  [within1 al true (fr.getD 0 0), within1 (iclarkeOut al be).1 (iclarkeOut al be).2 (fr.getD 1 0),
    within1 (iclarkeOut al (-be)).1 (iclarkeOut al (-be)).2 (fr.getD 2 0)]

theorem execIclarke_eq (k : Fin 32) (s : State) : exec (.iclarke k) s =
    .next (s.helper k 2 3 (fun w => legalTriple (iD w) && legalPair (iA w)) iclarkeOuts) := rfl

/-- The quarter turns: sine and cosine are exact, and the clamp leaves 2³¹ − 1 of a one. -/
theorem sinOut_quarters (f : Nat) :
    (sinOut true (sinCos 0).1 f = 0 ∧ sinOut true (sinCos 0).2 f = 2 ^ 31 - 1) ∧
    (sinOut true (sinCos (2 ^ 30)).1 f = 2 ^ 31 - 1 ∧ sinOut true (sinCos (2 ^ 30)).2 f = 0) ∧
    (sinOut true (sinCos (2 ^ 31)).1 f = 0 ∧ sinOut true (sinCos (2 ^ 31)).2 f = 2 ^ 31 + 1) ∧
    (sinOut true (sinCos (3 * 2 ^ 30)).1 f = 2 ^ 31 + 1 ∧ sinOut true (sinCos (3 * 2 ^ 30)).2 f = 0) := by
  have h : ∀ v, sinOut true v f = sinOut true v 0 := fun _ => rfl
  simp only [h]
  decide

theorem reckAngles : Claims.ReckAngles := by
  unfold Claims.ReckAngles
  intro k s w hl x q lim near
  obtain ⟨fr, hfr⟩ : ∃ fr, fr = (s.frees 3).1 := ⟨_, rfl⟩
  refine ⟨fun h hd => ?sincos, fun h hd ha => ?iclarke⟩
  case sincos =>
    obtain ⟨m, hm⟩ := helper_legal (n := 3) (legal := fun w => legalPair (iD w)) (f := sincosOuts) h hl hd
    rw [← hfr] at hm
    obtain ⟨a, hxa⟩ : ∃ a, a = x.reg (iA w) := ⟨_, rfl⟩
    obtain ⟨sn, hsn⟩ : ∃ sn, sn = sinOut (decide (a % 2 ^ 30 = 0)) (sinCos a).1 (fr.getD 0 0) := ⟨_, rfl⟩
    obtain ⟨cs, hcs⟩ : ∃ cs, cs = sinOut (decide (a % 2 ^ 30 = 0)) (sinCos a).2 (fr.getD 1 0) := ⟨_, rfl⟩
    obtain ⟨st, hst⟩ : ∃ st, st = if (sn = 2 ^ 31 - 1 ∨ cs = 2 ^ 31 - 1) ∧ fr.getD 2 0 % 2 = 1 then flSAT else 0 :=
      ⟨_, rfl⟩
    have hout : sincosOuts x w fr = [(sn, st), (cs, 0)] := by rw [hst, hsn, hcs, hxa]; rfl
    refine ⟨_, sn, cs, x.flags ||| st, m, (execSincos_eq k s).trans (congrArg Outcome.next hm), ?next, ?flags,
      hsn ▸ sinOut_ne _ _ _, hcs ▸ sinOut_ne _ _ _, ?sine, ?cosine, fun e => ?_, fun e => ?_, fun e => ?_, fun e => ?_⟩
    case next =>
      rw [hout]
      simp only [State.finishI, List.zipIdx, List.map, List.foldl, setR_pc, Nat.or_zero]
      rfl
    case flags =>
      rw [hst]
      split
      · exact Or.inr rfl
      · exact Or.inl (Nat.or_zero _)
    case sine => rw [hsn, ← hxa]; exact sinOut_near _ _ _
    case cosine => rw [hcs, ← hxa]; exact sinOut_near _ _ _
    all_goals
      rw [← hxa] at e
      rw [hsn, hcs, e]
    · exact ⟨(sinOut_quarters _).1.1, (sinOut_quarters _).1.2⟩
    · exact ⟨(sinOut_quarters _).2.1.1, (sinOut_quarters _).2.1.2⟩
    · exact ⟨(sinOut_quarters _).2.2.1.1, (sinOut_quarters _).2.2.1.2⟩
    · exact ⟨(sinOut_quarters _).2.2.2.1, (sinOut_quarters _).2.2.2.2⟩
  case iclarke =>
    have hg : (legalTriple (iD w) && legalPair (iA w)) = true := by rw [hd, ha]; rfl
    obtain ⟨m, hm⟩ := helper_legal (n := 3) (f := iclarkeOuts)
      (legal := fun w => legalTriple (iD w) && legalPair (iA w)) h hl hg
    rw [← hfr] at hm
    obtain ⟨a, ha', ha1, ha2, _⟩ := within1_eq (x.at (iA w) 0) true (fr.getD 0 0)
    obtain ⟨b, hb', hb1, hb2, _⟩ := within1_eq (iclarkeOut (x.at (iA w) 0) (x.at (iA w) 1)).1
      (iclarkeOut (x.at (iA w) 0) (x.at (iA w) 1)).2 (fr.getD 1 0)
    obtain ⟨c, hc', hc1, hc2, _⟩ := within1_eq (iclarkeOut (x.at (iA w) 0) (-x.at (iA w) 1)).1
      (iclarkeOut (x.at (iA w) 0) (-x.at (iA w) 1)).2 (fr.getD 2 0)
    have hout : iclarkeOuts x w fr = [sat32 a, sat32 b, sat32 c] := by rw [← ha', ← hb', ← hc']; rfl
    refine ⟨_, a, b, c, m, (execIclarke_eq k s).trans (congrArg Outcome.next hm), ?_, ha1, ha2, hb1, hb2, hc1, hc2⟩
    rw [hout]
    simp only [State.finishI, List.zipIdx, List.map, List.foldl, setR_pc]
    rfl

/-- Settles O16: the parts above. -/
theorem reckHelpers : Obligations.ReckHelpers := ⟨reckRotations, reckAngles⟩

end Sys2Proof.Machine

/-! PROOFS. The reckoners' loads, stores and PIDF (spec/08, R199 to R202; spec/09, R234, R239, R240). -/

namespace Sys2Proof.Machine

open Host (Outcome)

/-! ## Where a data address lies (R199, R200) -/

section

variable {a : Nat}

theorem placeOf_misaligned (h : a % 4 ≠ 0) : placeOf a = .trap tcALIGN := if_pos h

theorem placeOf_dram (h : a % 4 = 0) (hd : 0x10000 ≤ a ∧ a < 0x20000) :
    placeOf a = .dram (16384 + (a - 0x10000) / 4) := by
  rw [placeOf, if_neg (not_not_intro h), if_pos hd]

theorem placeOf_board (h : a % 4 = 0) (hb : 0x1000000 ≤ a ∧ a < 0x2000000) :
    placeOf a = .board ((a - 0x1000000) / 4096) (a % 4096) := by
  rw [placeOf, if_neg (not_not_intro h), if_neg (by omega), if_pos hb]

theorem placeOf_common (h : a % 4 = 0) (hc : 0x4000000 ≤ a ∧ a < 0x8000000) :
    placeOf a = .common ((a - 0x4000000) / 4) := by
  rw [placeOf, if_neg (not_not_intro h), if_neg (by omega), if_neg (by omega), if_pos hc]

theorem placeOf_elsewhere (h : a % 4 = 0) (hd : ¬(0x10000 ≤ a ∧ a < 0x20000)) (hc : ¬(0x4000000 ≤ a ∧ a < 0x8000000))
    (hb : ¬(0x1000000 ≤ a ∧ a < 0x2000000)) : placeOf a = .trap tcACCESS := by
  rw [placeOf, if_neg (not_not_intro h), if_neg hd, if_neg hb, if_neg hc]

theorem blockPlace_misaligned (h : a % 4 ≠ 0) : blockPlace a = .trap tcALIGN := by
  rw [blockPlace, placeOf_misaligned h]

theorem blockPlace_dram (h : a % 4 = 0) (hd : 0x10000 ≤ a ∧ a + 48 ≤ 0x20000) :
    blockPlace a = .dram (16384 + (a - 0x10000) / 4) := by
  rw [blockPlace, placeOf_dram h (by omega), placeOf_dram (a := a + 44) (by omega) (by omega)]

theorem blockPlace_common (h : a % 4 = 0) (hc : 0x4000000 ≤ a ∧ a + 48 ≤ 0x8000000) :
    blockPlace a = .common ((a - 0x4000000) / 4) := by
  rw [blockPlace, placeOf_common h (by omega), placeOf_common (a := a + 44) (by omega) (by omega)]

/-- A block that begins in one memory and leaves it, or begins in none, is refused (R239). -/
theorem blockPlace_elsewhere (h : a % 4 = 0) (hd : ¬(0x10000 ≤ a ∧ a + 48 ≤ 0x20000))
    (hc : ¬(0x4000000 ≤ a ∧ a + 48 ≤ 0x8000000)) : blockPlace a = .trap tcACCESS := by
  have h4 : (a + 44) % 4 = 0 := by omega
  by_cases h1 : 0x10000 ≤ a ∧ a < 0x20000
  · rw [blockPlace, placeOf_dram h h1, placeOf_elsewhere h4 (by omega) (by omega) (by omega)]
  by_cases h2 : 0x4000000 ≤ a ∧ a < 0x8000000
  · rw [blockPlace, placeOf_common h h2, placeOf_elsewhere h4 (by omega) (by omega) (by omega)]
  by_cases h3 : 0x1000000 ≤ a ∧ a < 0x2000000
  · rw [blockPlace, placeOf_board h h3]
  · rw [blockPlace, placeOf_elsewhere h h1 h2 h3]

end

section

variable {s : State} {k : Fin 32} {w i v : Nat} {e : Ecc}

theorem loaded_eq : s.loaded k w v = s.wrote k w v (s.reckX k).flags := finishI_one

theorem ownerPage_isNone {p : Nat} (h : ownerPage p ≠ none) : ¬(ownerPage p).isNone = true := by
  simpa using h

/-- The body of LD on a legal word, by the place of its address. -/
theorem execLd_legal (h : s.atInstr k 0x11 none w) (hl : legalI w = true) : exec (.ld k e) s = .next
    (match placeOf (((s.reckX k).reg (iA w) + iSext w) % 2 ^ 32) with
      | .trap c => s.trapHere k c
      | .dram i => s.dramEcc k e (fun s => s.loaded k w (s.reckWord k i))
      | .common i => if e = .double then s.trapHere k tcCOMMON else s.loaded k w (s.commonWord i).toNat
      | .board p off =>
        if (ownerPage p).isNone then s.trapHere k tcACCESS
        else (s.wordRead (.reck k) p off).1.loaded k w (s.wordRead (.reck k) p off).2.toNat) :=
  (congrArg Outcome.next (instr_legal h hl)).trans rfl

/-- The body of ST on a legal word, by the place of its address. -/
theorem execSt_legal (h : s.atInstr k 0x12 none w) (hl : legalI w = true) : exec (.st k) s = .next
    (match placeOf (((s.reckX k).reg (iA w) + iSext w) % 2 ^ 32) with
      | .trap c => s.trapHere k c
      | .dram i => (s.setReckWord k i ((s.reckX k).reg (iD w))).nextPc k
      | .common i => (s.setCommon i (wordOf ((s.reckX k).reg (iD w)))).nextPc k
      | .board p off =>
        if (ownerPage p).isNone then s.trapHere k tcACCESS
        else ((s.nextPc k).wordWrite (.reck k) p off (wordOf ((s.reckX k).reg (iD w)))).1) :=
  (congrArg Outcome.next (instr_legal h hl)).trans rfl

/-- The body of PIDF on a legal word, by the place of its block. -/
theorem execPidf_legal (h : s.atInstr k 0x04 (some 0x05) w) (hl : legalR w = true) (hp : legalPair (iB w) = true) :
    exec (.pidf k e) s = .next (match blockPlace ((s.reckX k).reg (iA w)) with
      | .trap c => s.trapHere k c
      | .dram i => s.dramEcc k e (fun s => s.pidfAt k w (.dram i))
      | .common i => if e = .double then s.trapHere k tcCOMMON else s.pidfAt k w (.common i)
      | .board _ _ => s.trapHere k tcACCESS) := by
  have hg : (legalRegs [iD w, iA w, iB w, iC w] && legalPair (iB w)) = true := by
    rw [hp, Bool.and_true]
    exact hl
  exact (congrArg Outcome.next (instr_legal h hg)).trans rfl

end

theorem reckMemory : Claims.ReckMemory := by
  unfold Claims.ReckMemory
  intro k s w hl x ad v on got dram common board pg
  refine ⟨fun h => ?load, fun h => ?store⟩
  case load =>
    refine ⟨fun ha e => ?_, fun ha hd => ⟨?_, ?_, ?_⟩, fun ha hc => ⟨fun e he => ?_, ?_⟩,
      fun ha hb e => ⟨fun hp => ?_, fun hp => ?_⟩, fun ha hd hc hb e => ?_⟩ <;>
      rw [execLd_legal h hl]
    · rw [placeOf_misaligned ha]
    · rw [placeOf_dram ha hd]
      exact congrArg Outcome.next loaded_eq
    · rw [placeOf_dram ha hd]
      exact congrArg Outcome.next loaded_eq
    · rw [placeOf_dram ha hd]
      rfl
    · rw [placeOf_common ha hc]
      dsimp only
      rw [if_neg he, loaded_eq]
    · rw [placeOf_common ha hc]
      rfl
    · rw [placeOf_board ha hb]
      dsimp only
      rw [if_pos (Option.isNone_iff_eq_none.mpr hp)]
    · rw [placeOf_board ha hb]
      dsimp only
      rw [if_neg (ownerPage_isNone hp), loaded_eq]
    · rw [placeOf_elsewhere ha hd hc hb]
  case store =>
    refine ⟨fun ha => ?_, fun ha hd => ?_, fun ha hc => ?_, fun ha hb => ⟨fun hp => ?_, fun hp => ?_⟩,
      fun ha hd hc hb => ?_⟩ <;>
      rw [execSt_legal h hl]
    · rw [placeOf_misaligned ha]
    · rw [placeOf_dram ha hd]
      rfl
    · rw [placeOf_common ha hc]
      rfl
    · rw [placeOf_board ha hb]
      dsimp only
      rw [if_pos (Option.isNone_iff_eq_none.mpr hp)]
    · rw [placeOf_board ha hb]
      dsimp only
      rw [if_neg (ownerPage_isNone hp)]
      rfl
    · rw [placeOf_elsewhere ha hd hc hb]

/-- PIDF on a block of one memory: `rd` reads its words, `wr` writes them where no NaN arises; then D and FLAGS. -/
def State.pidfOut (s : State) (k w : Nat) (rd : Nat → Nat) (wr : State → Nat × Nat → State) : State :=
  let r := pidf ((List.range 12).map rd) ((s.reckX k).reg (iB w)) ((s.reckX k).reg (iB w + 1))
  match r.2.1 with
  | some l => State.wrote (l.zipIdx.foldl wr s) k w r.1 ((s.reckX k).flags ||| r.2.2)
  | none => s.wrote k w r.1 ((s.reckX k).flags ||| r.2.2)

theorem pidfAt_eq (s : State) (k w : Nat) (pl : Place) : s.pidfAt k w pl =
    s.pidfOut k w (fun i => s.placeRead k (pl.word i)) (fun t e => t.placeWrite k (pl.word e.2) e.1) := by
  dsimp only [State.pidfAt, State.pidfOut]
  generalize pidf _ _ _ = r
  obtain ⟨v, l, fl⟩ := r
  cases l <;> exact finishI_one

theorem reckPid : Claims.ReckPid := by
  unfold Claims.ReckPid
  intro k s w h hl hp x ad dram common i j out
  refine ⟨fun ha e => ?_, fun ha hd => ⟨?_, ?_, ?_⟩, fun ha hc => ⟨fun e he => ?_, ?_⟩, fun ha hd hc e => ?_⟩ <;>
    rw [execPidf_legal h hl hp]
  · rw [blockPlace_misaligned ha]
  · rw [blockPlace_dram ha hd]
    exact congrArg Outcome.next (pidfAt_eq s k w _)
  · rw [blockPlace_dram ha hd]
    exact congrArg Outcome.next (pidfAt_eq (s.eccCorrected k true) k w _)
  · rw [blockPlace_dram ha hd]
    rfl
  · rw [blockPlace_common ha hc]
    dsimp only
    rw [if_neg he]
    exact congrArg Outcome.next (pidfAt_eq s k w _)
  · rw [blockPlace_common ha hc]
    rfl
  · rw [blockPlace_elsewhere ha hd hc]

/-- Settles O17: the parts above. -/
theorem reckMemoryAndPid : Obligations.ReckMemoryAndPid := ⟨reckMemory, reckPid⟩

end Sys2Proof.Machine

/-! PROOFS. The reckoners' program flow, traps and control (spec/08, R203 to R216; spec/09, R235, R236). -/

namespace Sys2Proof.Machine

open Host (Outcome)

/-! ## Writing a key twice -/

section

variable {α : Type} {t : List (Nat × α)} {k : Nat} {v : α}

theorem tabDel_del : tabDel (tabDel t k) k = tabDel t k := by simp [tabDel]

theorem tabDel_ins : tabDel (tabIns t k v) k = tabDel t k := by
  induction t with
  | nil => simp [tabIns, tabDel]
  | cons p r ih =>
    by_cases hk : k < p.1
    · simp [tabIns, hk, tabDel]
    · simp only [tabIns, hk, if_false]
      simp only [tabDel, List.filter_cons] at ih ⊢
      rw [ih]

/-- The last write of a key counts. -/
theorem tabPut_put [DecidableEq α] {d : Nat → α} {u : α} : tabPut d (tabPut d t k u) k v = tabPut d t k v := by
  have h : tabDel (tabPut d t k u) k = tabDel t k := by
    unfold tabPut
    split
    · exact tabDel_del
    · rw [tabDel_ins, tabDel_del]
  rw [tabPut, h, tabPut]

end

section

variable {s t : State} {k i n : Nat} {x y : ReckX}

theorem setReckX_setReckX : (s.setReckX k x).setReckX k y = s.setReckX k y := by
  simp only [State.setReckX, tabPut_put]

theorem reckX_eq_of_recks (h : t.recks = s.recks) : t.reckX k = s.reckX k := by rw [State.reckX, State.reckX, h]

theorem nextPc_setReckX : (s.setReckX k x).nextPc k = s.setReckX k { x with pc := x.pc + 4 } := by
  rw [State.nextPc, State.setPc, State.reckX_setReckX, setReckX_setReckX]

end

/-! ## Branches (R235, R206, R207, R211) -/

section

variable {s : State} {k target : Nat}

theorem reckCall_c7 (h : (s.reckX k).ccp = 7) : s.reckCall k target = s.trapHere k tcILLEGAL := by
  simp [State.reckCall, h]

theorem reckCall_enters (h : (s.reckX k).ccp ≠ 7) (ho : (s.reckX k).occ ≠ 7) :
    s.reckCall k target = s.callEnter k target := by
  simp [State.reckCall, h, ho]

theorem reckCall_spills (h : (s.reckX k).ccp ≠ 7) (ho : (s.reckX k).occ = 7)
    (hc : (s.reckX k).cdep ≠ s.get (pRECK k) RECK.CARRY_CFG_CARRY_CNT) :
    s.reckCall k target = (s.setReckX k { s.reckX k with spill := some (.call target) }).setRkSt k rkSPILL := by
  simp [State.reckCall, h, ho, hc]

theorem reckCall_full (h : (s.reckX k).ccp ≠ 7) (ho : (s.reckX k).occ = 7)
    (hc : (s.reckX k).cdep = s.get (pRECK k) RECK.CARRY_CFG_CARRY_CNT) : s.reckCall k target = s.reckFatal k 2 := by
  simp [State.reckCall, h, ho, hc]

end

theorem reckBranch : Claims.ReckBranch := by
  unfold Claims.ReckBranch
  intro k s w x goto rel call full wait called
  have calls {i : Instr} {pc : Nat} (h : exec i s = .next (s.reckCall k pc)) : called i pc :=
    ⟨fun h7 => h.trans (congrArg Outcome.next (reckCall_c7 h7)),
      fun h7 ho => h.trans (congrArg Outcome.next (reckCall_enters h7 ho)),
      fun h7 ho hf => h.trans (congrArg Outcome.next (reckCall_spills h7 ho hf)),
      fun h7 ho hf => h.trans (congrArg Outcome.next (reckCall_full h7 ho hf))⟩
  refine ⟨fun h => ?brc, fun h hd => ?bz, fun h hd => ?bnz, fun h hl => ?jr, fun h hz => ?call, fun h hl => ?callr,
    fun h hl => ?ret⟩
  case brc => exact congrArg Outcome.next (instr_legal h rfl)
  case bz => exact congrArg Outcome.next (instr_legal h (by simp [legalRegs, hd]))
  case bnz => exact congrArg Outcome.next (instr_legal h (by simp [legalRegs, hd]))
  case jr => exact congrArg Outcome.next (instr_legal h hl)
  case call => exact calls (congrArg Outcome.next (instr_legal h (by simp [hz])))
  case callr => exact calls (congrArg Outcome.next (instr_legal h hl))
  case ret =>
    have e : exec (.ret k) s = .next (s.reckRet k) := congrArg Outcome.next (instr_legal h hl)
    refine ⟨fun h7 ho => ?_, fun h7 ho hc => ?_, fun h7 ho hc => ?_, fun h7 => ?_⟩ <;> rw [e, State.reckRet]
    · simp only [h7, ho, if_false, if_true, x]
    · simp only [h7, Nat.not_lt.mpr ho, hc, if_false, if_true, wait, x]
    · simp only [h7, Nat.not_lt.mpr ho, hc, lt_irrefl, if_false, x]
    · simp only [h7, if_true, x]

/-! ## The system group (R236, R205, R210, R219) -/

section

variable {s : State} {k : Fin 32} {w : Nat}

theorem execMfs_legal (h : s.atInstr k 0x05 (some 1) w) (hl : legalSpec w = true) :
    exec (.mfs k) s = .next ((s.special k (iB w)).2.wrote k w (s.special k (iB w)).1
      ((s.special k (iB w)).2.reckX k).flags) :=
  congrArg Outcome.next ((instr_legal h hl).trans finishI_one)

theorem setSpecial_pc {x : ReckX} {n v : Nat} : (x.setSpecial n v).pc = x.pc := by
  unfold ReckX.setSpecial
  split <;> rfl

theorem execMts_legal (h : s.atInstr k 0x05 (some 2) w) (hl : legalSpec w = true) :
    exec (.mts k) s = .next (s.setReckX k
      { (s.reckX k).setSpecial (iB w) ((s.reckX k).reg (iA w)) with pc := (s.reckX k).pc + 4 }) := by
  refine congrArg Outcome.next ((instr_legal h hl).trans (nextPc_setReckX.trans ?_))
  rw [setSpecial_pc]
  rfl

/-- The busy time changes registers and the free values alone. -/
theorem busyEnd_of_not_woke (h : (s.reckX k).woke = false) : s.busyEnd k = s := by simp [State.busyEnd, h]

theorem recks_busyEnd : (s.busyEnd k).recks = s.recks := by
  unfold State.busyEnd
  split
  · exact State.setReg_recks.trans State.setReg_recks
  · rfl

theorem execWaitf_legal (h : s.atInstr k 0x05 (some 7) w) (hd : iD w ≤ 24) (ha : iA w ≤ 24) (hb : iB w ≤ 24)
    (h6 : bitsOf w 6 6 = 0) (hm : bitsOf w 10 7 ≠ 0) : exec (.waitf k) s = .next
      (if (s.reckX k).ccp = 7 then s.trapHere k tcILLEGAL
      else match ((s.busyEnd k).reckX k).pendIn (bitsOf w 10 7) with
        | some i => (s.busyEnd k).waitTake k i
        | none => ((s.busyEnd k).setReckX k
            { (s.busyEnd k).reckX k with mask := bitsOf w 10 7, woke := false }).setRkSt k rkSLEEP) := by
  have hl : (legalRegs [iD w, iA w, iB w] && decide (bitsOf w 6 6 = 0) && decide (bitsOf w 10 7 ≠ 0)) = true := by
    simp [legalRegs, hd, ha, hb, h6, hm]
  exact (congrArg Outcome.next (instr_legal h hl)).trans rfl

end

theorem reckSystem : Claims.ReckSystem := by
  unfold Claims.ReckSystem
  intro k s w x v set
  refine ⟨fun h hl => ?nop, fun h hl => ⟨fun i y hm hi => ?mfs, fun hi => ?cycle⟩, fun h hl => ?mts, fun h hl => ?trap,
    fun h hd ha hb h6 hm => ?waitf, fun hr hpc ho => ?unlisted⟩
  case nop => exact congrArg Outcome.next (instr_legal h hl)
  case mfs =>
    rw [execMfs_legal h hl, hi]
    simp only [List.mem_cons, List.not_mem_nil, Prod.mk.injEq, or_false] at hm
    rcases hm with ⟨rfl, rfl⟩ | ⟨rfl, rfl⟩ | ⟨rfl, rfl⟩ | ⟨rfl, rfl⟩ | ⟨rfl, rfl⟩ | ⟨rfl, rfl⟩ | ⟨rfl, rfl⟩ |
      ⟨rfl, rfl⟩ | ⟨rfl, rfl⟩ | ⟨rfl, rfl⟩ | ⟨rfl, rfl⟩ | ⟨rfl, rfl⟩ <;> rfl
  case cycle =>
    rw [execMfs_legal h hl, hi]
    exact ⟨_, rfl⟩
  case mts =>
    rw [execMts_legal h hl]
    refine ⟨fun hi => ?_, fun hi => ?_, fun hi => ?_, fun hi => ?_, fun hi => ?_, fun hi => ?_⟩
    case refine_6 =>
      simp only [List.mem_cons, List.not_mem_nil, or_false] at hi
      rcases hi with hi | hi | hi | hi | hi | hi | hi | hi <;> rw [hi] <;> rfl
    all_goals
      rw [hi]
      rfl
  case trap => exact congrArg Outcome.next (instr_legal h hl)
  case waitf =>
    rw [execWaitf_legal h hd ha hb h6 hm, reckX_eq_of_recks recks_busyEnd]
    refine ⟨fun h7 => ?_, fun h7 hw hn => ?_, fun i h7 hp => ?_⟩
    · rw [if_pos h7]
    · rw [if_neg h7, hn, busyEnd_of_not_woke hw]
    · rw [if_neg h7, hp]
  case unlisted =>
    have hpc : ¬65536 ≤ (s.reckX k).pc := Nat.not_le.mpr hpc
    constructor
    · simp [exec, execIllegalInstruction, hr, hpc, ho]
    · simp [exec, execIllegalInstruction, hr, hpc]

/-- Settles O18: the parts above. -/
theorem reckFlow : Obligations.ReckFlow := ⟨reckBranch, reckSystem⟩

/-! ## Traps (R211, R212) -/

section

variable {s t : State} {k cause tpc : Nat}

theorem reckTrap_c7 (h : (s.reckX k).ccp = 7) : s.reckTrap k cause tpc = s.reckFatal k 1 := by
  simp [State.reckTrap, h]

theorem reckTrap_noVector (h : (s.reckX k).ccp ≠ 7) (hv : (s.reckX k).tvec = 0) :
    s.reckTrap k cause tpc = s.reckFatal k 4 := by
  simp [State.reckTrap, h, hv]

/-- The record of a reckoner that has taken a trap. -/
def ReckX.trapped (x : ReckX) (cause tpc : Nat) : ReckX :=
  { x with tpc := tpc, tcause := cause, tcol := x.ccp, ccp := 7, pc := x.tvec / 4 * 4 }

theorem reckTrap_vector (h : (s.reckX k).ccp ≠ 7) (hv : (s.reckX k).tvec ≠ 0) :
    s.reckTrap k cause tpc =
      (((((s.setReckX k ((s.reckX k).trapped cause tpc)).setReg (pRECK k) RECK.TRAPINFO
        (tpc / 4 % 65536 * 2 ^ 16 + cause)).setRkSt k rkTRAP).showCols k).ev (pRECK k) (blk 2)) := by
  simp only [State.reckTrap, h, hv, if_false, ReckX.trapped]

theorem recks_setRkSt {n : Nat} : (s.setRkSt k n).recks = s.recks := State.set_recks

theorem recks_showCols : (s.showCols k).recks = s.recks :=
  State.set_recks.trans (State.set_recks.trans State.set_recks)

theorem rkSt_setRkSt {n : Nat} (h : n < 8) : (s.setRkSt k n).rkSt k = n :=
  (get_set_same (f := RECK.STATUS_STATE) (by decide) (by decide)).trans (Nat.mod_eq_of_lt h)

/-- The column counts lie above STATE in STATUS. -/
theorem rkSt_showCols : (s.showCols k).rkSt k = s.rkSt k := by
  have keep {f : Fld} (ho : RECK.STATUS = f.off) (h : f.lo ≤ f.hi) (h32 : f.hi < 32) (hd : 2 < f.lo) (x : State) (n : Nat) :
      (x.set (pRECK k) f n).rkSt k = x.rkSt k := get_set_bits ho h h32 (by decide) (Or.inl hd)
  unfold State.showCols
  exact (keep rfl (by decide) (by decide) (by decide) _ _).trans
    ((keep rfl (by decide) (by decide) (by decide) _ _).trans (keep rfl (by decide) (by decide) (by decide) _ _))

theorem reg_showCols {o : Nat} (h : o ≠ RECK.STATUS) : (s.showCols k).reg (pRECK k) o = s.reg (pRECK k) o := by
  unfold State.showCols
  exact (reg_set_off h).trans ((reg_set_off h).trans (reg_set_off h))

theorem reg_ev {p o i : Nat} (h : o ≠ PG.EV_STAT) : (s.ev p i).reg p o = s.reg p o := reg_set_off h

theorem get_ev {p i : Nat} {f : Fld} (h : f.off ≠ PG.EV_STAT) : (s.ev p i).get p f = s.get p f := get_set_off h

end

/-- Settles O19: the three cases of `reckTrap`. -/
theorem reckTrapEntry : Obligations.ReckTrapEntry := by
  unfold Obligations.ReckTrapEntry
  intro k s cause tpc x p
  refine ⟨fun h hv => ⟨_, rfl, ?record, ?state, ?info, ?event, ?memory⟩, reckTrap_c7, reckTrap_noVector⟩
  case memory => exact keeps_State_reckTrap (k0_sameMem s) (sameMem_refl s)
  all_goals rw [reckTrap_vector h hv]
  case record =>
    rw [reckX_eq_of_recks State.ev_recks, reckX_eq_of_recks recks_showCols, reckX_eq_of_recks recks_setRkSt,
      reckX_eq_of_recks State.setReg_recks, State.reckX_setReckX]
    rfl
  case state =>
    rw [State.rkSt, get_ev (by decide)]
    exact rkSt_showCols.trans (rkSt_setRkSt (by decide))
  case info =>
    rw [reg_ev (by decide), reg_showCols (by decide), State.setRkSt, reg_set_off (by decide), reg_setReg_same]
  case event => exact bit_ev (by decide)

/-! ## Control (R203, R208 to R210, R212, R213, R216) -/

section

variable {s : State} {k i n : Nat}

theorem reckStops_not_fatal (h : s.reckStops k = true) : s.rkSt k ≠ rkFATAL := by
  intro e
  simp [State.reckStops, State.reckRuns, e] at h

theorem vsm_eq_of_vsms {t : State} (h : t.vsms = s.vsms) : t.vsm k = s.vsm k := by rw [State.vsm, State.vsm, h]

theorem vsms_waitTake : (s.waitTake k i).vsms = s.vsms := by
  unfold State.waitTake
  exact State.set_vsms.trans (State.inc_vsms.trans (State.set_vsms.trans State.setReckX_vsms))

/-- The address of MEM_DATA's first DRAM word. -/
theorem memData_write (h : s.reg (pRECK k) RECK.MEM_ADDR = 2 ^ 31) (v : Word) (e : Ecc) :
    s.memData k (some v) e =
      ((s.setReckWord k 16384 v.toNat).set (pRECK k) ⟨RECK.MEM_ADDR, 15, 2⟩ 1, .ok, 0) := by
  have hb : Nat.testBit (2 ^ 31) 31 = true := by decide
  have hi : bitsOf (2 ^ 31) 15 2 = 0 := by decide
  simp only [State.memData, h, hb, hi, Bool.not_true, Bool.false_and, Bool.false_eq_true, if_false, if_true]

theorem memData_read (h : s.reg (pRECK k) RECK.MEM_ADDR = 2 ^ 31) :
    s.memData k none .clean =
      (s.set (pRECK k) ⟨RECK.MEM_ADDR, 15, 2⟩ 1, .ok, wordOf (s.reckWord k 16384)) := by
  have hb : Nat.testBit (2 ^ 31) 31 = true := by decide
  have hi : bitsOf (2 ^ 31) 15 2 = 0 := by decide
  simp only [State.memData, h, hb, hi, if_true]

/-- The record of a reckoner after an event of source `i` at a time. -/
def ReckX.pended (x : ReckX) (i t : Nat) : ReckX :=
  { x with pend := x.pend.set i (min (x.pend.getD i 0 + 1) 255), pendT := x.pendT.set i t }

theorem reckEvent_sleeps (h : s.rkSt k = rkSLEEP) :
    s.reckEvent k i = s.setReckX k ((s.reckX k).pended i s.beam.t) := by
  simp [State.reckEvent, h, ReckX.pended]

theorem reckEvent_runs (h : s.rkSt k = rkRUN) : s.reckEvent k i =
    (((s.setReckX k ((s.reckX k).pended i s.beam.t)).incSat (pRECK k) RECK.OVR_CNT).err (pRECK k) (blk 0)).ev (pRECK k)
      (blk 1) := by
  simp [State.reckEvent, h, ReckX.pended]

theorem bit_err {p b : Nat} (h : b < 32) : (s.err p b).bit p PG.ERR b = true := by
  have hf : ∀ x : State, (x.setBit p PG.ERR b true).bit p PG.ERR b = true := fun x => by
    have hf := flag_setB_same (s := x) (p := p) (b := true) (f := ⟨PG.ERR, b, b⟩) (le_refl b) h
    simpa [State.flag, State.get, Fld.read, Fld.width, State.bit, State.reg, Nat.testBit_eq_decide_div_mod_eq,
      State.setBit] using hf
  have ho : ∀ x : State, (x.setBit p PG.EV_STAT 0 true).bit p PG.ERR b = x.bit p PG.ERR b := fun x => by
    rw [State.bit, State.bit]
    exact congrArg (fun n => Nat.testBit n b) (reg_set_off (by decide))
  rw [State.err, ho, hf]

theorem bit_ev_off {p o i b : Nat} (h : o ≠ PG.EV_STAT) : (s.ev p i).bit p o b = s.bit p o b := by
  rw [State.bit, State.bit, reg_ev h]

end

/-- Settles O20: each command on the reckoner's record and state. -/
theorem reckControl : Obligations.ReckControl := by
  unfold Obligations.ReckControl
  intro k s w
  dsimp only
  refine ⟨fun h hf => ?clears, fun h hf => ?notFatal, fun hs hr hn => ?stopped, fun c hc hs => ?spilled,
    fun hc hs => ?filled, fun c hc hs => ?doubleError, fun v h ha => ?memWrite, fun h ha => ?memRead,
    fun v h hsrc hv => ?software, fun i hl hs => ?asleep, fun i hl hs => ?running, fun i hs hp hv => ?wakes,
    fun b hb hw hl hs => ?migrates, fun b hb hm hl hs hp => ?migrated⟩
  case clears =>
    simp only [exec, execClrFatal, actionWrite_ok h, State.reckClrFatal, hf, if_true]
    exact congrArg Outcome.next finish_ok
  case notFatal =>
    simp only [exec, execClrFatal, actionWrite_ok h, State.reckClrFatal, hf, if_false]
    exact congrArg Outcome.next finish_ok
  case stopped =>
    have hd : s.spillDone k = s := by simp only [State.spillDone, hn]
    simp only [exec, execReckStopped, hs, hr, Bool.and_self, if_true, State.reckStop, hd, reckStops_not_fatal hr,
      if_false]
  case spilled =>
    have hx : (s.reckX k).spill = some (.call c) := hc
    simp [exec, execSpillComplete, hx, hs, State.dramEcc, State.spillDone]
  case filled =>
    have hx : (s.reckX k).spill = some .ret := hc
    simp [exec, execSpillComplete, hx, hs, State.dramEcc, State.spillDone]
  case doubleError =>
    have hx : (s.reckX k).spill = some c := hc
    simp [exec, execSpillComplete, hx, hs, State.dramEcc]
  case memWrite =>
    simp only [exec, execMemDataAccess, actionWrite_ok h, memData_write ha]
    exact congrArg Outcome.next finish_ok
  case memRead => simp [exec, execMemDataAccess, h, memData_read ha]
  case software =>
    have hb : bitsSet 4 v.toNat = [0] := by rw [hv]; rfl
    have hs : s.swtrig k v.toNat = s.reckEvent k 0 := by simp [State.swtrig, hb, hsrc]
    simp only [exec, execReckSwtrig, actionWrite_ok h, hs]
    exact congrArg Outcome.next finish_ok
  case asleep =>
    simp only [exec, execReckTriggerEvent, hl, if_true, reckEvent_sleeps hs]
    rfl
  case running =>
    refine ⟨s.reckEvent k i, by simp only [exec, execReckTriggerEvent, hl, if_true], ?_, ?_, ?_⟩ <;>
      rw [reckEvent_runs hs]
    · rw [bit_ev_off (by decide), bit_err (by decide)]
    · exact bit_ev (by decide)
    · rw [reckX_eq_of_recks State.ev_recks, reckX_eq_of_recks State.err_recks, reckX_eq_of_recks State.incSat_recks,
        State.reckX_setReckX]
      rfl
  case wakes =>
    have hx : (s.reckX k).pendIn (s.reckX k).mask = some i := hp
    simp [exec, execReckWake, hs, hx, vsm_eq_of_vsms vsms_waitTake, hv]
  case migrates => simp only [exec, execMigrationStart, hb, hw, hl, hs, and_self, if_true]
  case migrated =>
    have hr : ∀ t : State, t.recks = s.recks → (t.reckX k).pendIn (t.reckX k).mask = none := fun t e => by
      rw [reckX_eq_of_recks e]
      exact hp
    have hn := hr ((((((s.set (pRECK k) RECK.STATUS_PHYS s.spare).setSpare b.core).testBegin lbTEST).setRkSt k rkSLEEP).ev
      (pRECK k) (blk 3))) (by
        rw [State.ev_recks, recks_setRkSt, State.testBegin, State.setBist_recks, State.setLbSt, State.set_recks,
          State.set_recks, State.setSpare, State.set_recks, State.set_recks, State.set_recks])
    simp only [exec, execMigrationDone, hb, hm, hl, hs, ne_eq, not_true_eq_false, or_self, if_false] at hn ⊢
    rw [hn]

end Sys2Proof.Machine

/-! PROOFS. Reading after writing: flags, bits and registers after the updates of a register, of a record and of what is
sent; the words that a chain of writes leaves alone. -/

namespace Sys2Proof.Machine

open Host (Outcome)

section

variable {s t u : State} {p q o v i j : Nat} {f g : Fld} {b : Bool} {l l' : List (Nat × Nat)}

/-! ## Updates that leave the board alone -/

theorem flag_eq_of_board (h : t.board = s.board) : t.flag p f = s.flag p f := by
  rw [State.flag, State.flag, get_eq_of_board h]

theorem bit_eq_of_board (h : t.board = s.board) : t.bit p o i = s.bit p o i := by
  rw [State.bit, State.bit, reg_eq_of_board h]

theorem regS_eq_of_board (h : t.board = s.board) : t.regS p o = s.regS p o := by
  rw [State.regS, State.regS, reg_eq_of_board h]

@[simp] theorem get_setBeam {x : BeamX} : (s.setBeam x).get p f = s.get p f := get_eq_of_board State.setBeam_board

@[simp] theorem flag_setBeam {x : BeamX} : (s.setBeam x).flag p f = s.flag p f := flag_eq_of_board State.setBeam_board

@[simp] theorem bit_setBeam {x : BeamX} : (s.setBeam x).bit p o i = s.bit p o i := bit_eq_of_board State.setBeam_board

@[simp] theorem reg_setBeam {x : BeamX} : (s.setBeam x).reg p o = s.reg p o := reg_eq_of_board State.setBeam_board

@[simp] theorem regS_setBeam {x : BeamX} : (s.setBeam x).regS p o = s.regS p o := regS_eq_of_board State.setBeam_board

@[simp] theorem get_send {x : Out} : (s.send x).get p f = s.get p f := get_eq_of_board State.send_board

@[simp] theorem flag_send {x : Out} : (s.send x).flag p f = s.flag p f := flag_eq_of_board State.send_board

@[simp] theorem bit_send {x : Out} : (s.send x).bit p o i = s.bit p o i := bit_eq_of_board State.send_board

@[simp] theorem reg_send {x : Out} : (s.send x).reg p o = s.reg p o := reg_eq_of_board State.send_board

theorem out_send {x : Out} : (s.send x).out = s.out ++ [x] := rfl

theorem reg_answer {w : Writer} {c : Code} : (s.answer w c).reg p o = s.reg p o := rfl

theorem flag_answer {w : Writer} {c : Code} : (s.answer w c).flag p f = s.flag p f := rfl

/-! ## Another register, another bit of the same one -/

theorem flag_set_off (h : g.off ≠ f.off) : (s.set p f v).flag p g = s.flag p g := by
  rw [State.flag, State.flag, get_set_off h]

theorem flag_set_bits (ho : g.off = f.off) (h : f.lo ≤ f.hi) (h32 : f.hi < 32) (hg : g.lo ≤ g.hi)
    (hd : g.hi < f.lo ∨ f.hi < g.lo) : (s.set p f v).flag p g = s.flag p g := by
  rw [State.flag, State.flag, get_set_bits ho h h32 hg hd]

theorem flag_set_same (h : f.lo ≤ f.hi) (h32 : f.hi < 32) : (s.set p f v).flag p f = (v % 2 ^ f.width != 0) := by
  rw [State.flag, get_set_same h h32]

theorem bit_set_off (h : o ≠ f.off) : (s.set p f v).bit p o i = s.bit p o i := by
  rw [State.bit, State.bit, reg_set_off h]

theorem regS_set_off (h : o ≠ f.off) : (s.set p f v).regS p o = s.regS p o := by
  rw [State.regS, State.regS, reg_set_off h]

theorem get_setB_off (h : g.off ≠ f.off) : (s.setB p f b).get p g = s.get p g := get_set_off h

theorem get_setB_bits (ho : g.off = f.off) (h : f.lo ≤ f.hi) (h32 : f.hi < 32) (hg : g.lo ≤ g.hi)
    (hd : g.hi < f.lo ∨ f.hi < g.lo) : (s.setB p f b).get p g = s.get p g := get_set_bits ho h h32 hg hd

theorem flag_setB_bits (ho : g.off = f.off) (h : f.lo ≤ f.hi) (h32 : f.hi < 32) (hg : g.lo ≤ g.hi)
    (hd : g.hi < f.lo ∨ f.hi < g.lo) : (s.setB p f b).flag p g = s.flag p g := flag_set_bits ho h h32 hg hd

theorem reg_setB_off (h : o ≠ f.off) : (s.setB p f b).reg p o = s.reg p o := reg_set_off h

theorem regS_setB_off (h : o ≠ f.off) : (s.setB p f b).regS p o = s.regS p o := regS_set_off h

theorem bit_setB_off (h : o ≠ f.off) : (s.setB p f b).bit p o i = s.bit p o i := bit_set_off h

theorem flag_setReg_off (h : f.off ≠ o) : (s.setReg p o v).flag p f = s.flag p f := by
  rw [State.flag, State.flag, get_setReg_off h]

theorem bit_setReg_off (h : q ≠ o) : (s.setReg p o v).bit p q i = s.bit p q i := by
  rw [State.bit, State.bit, reg_setReg_off h]

theorem regS_setReg_off (h : q ≠ o) : (s.setReg p o v).regS p q = s.regS p q := by
  rw [State.regS, State.regS, reg_setReg_off h]

theorem get_setRegSat_off {x : Int} (h : f.off ≠ o) : (s.setRegSat p o x).get p f = s.get p f := get_setReg_off h

theorem flag_setRegSat_off {x : Int} (h : f.off ≠ o) : (s.setRegSat p o x).flag p f = s.flag p f := flag_setReg_off h

theorem flag_ev (h : f.off ≠ PG.EV_STAT) : (s.ev p i).flag p f = s.flag p f := flag_setB_off h

theorem regS_ev (h : o ≠ PG.EV_STAT) : (s.ev p i).regS p o = s.regS p o := regS_set_off h

theorem get_err (h : f.off ≠ PG.ERR) (hc : f.off ≠ PG.ERRCNT) (he : f.off ≠ PG.EV_STAT) :
    (s.err p i).get p f = s.get p f := by
  have key : (if s.bit p PG.ERR i = true then s else s.incF p PG.ERRCNT_ERRSET).get p f = s.get p f := by
    split
    · rfl
    · exact get_set_off hc
  rw [State.err, State.setBit, State.setBit, get_setB_off he, get_setB_off h, key]

theorem flag_err (h : f.off ≠ PG.ERR) (hc : f.off ≠ PG.ERRCNT) (he : f.off ≠ PG.EV_STAT) :
    (s.err p i).flag p f = s.flag p f := by
  rw [State.flag, State.flag, get_err h hc he]

theorem reg_err (h : o ≠ PG.ERR) (hc : o ≠ PG.ERRCNT) (he : o ≠ PG.EV_STAT) : (s.err p i).reg p o = s.reg p o := by
  have key : (if s.bit p PG.ERR i = true then s else s.incF p PG.ERRCNT_ERRSET).reg p o = s.reg p o := by
    split
    · rfl
    · exact reg_set_off hc
  rw [State.err, State.setBit, State.setBit, reg_setB_off he, reg_setB_off h, key]

theorem regS_err (h : o ≠ PG.ERR) (hc : o ≠ PG.ERRCNT) (he : o ≠ PG.EV_STAT) : (s.err p i).regS p o = s.regS p o := by
  rw [State.regS, State.regS, reg_err h hc he]

/-! ## Another page -/

theorem get_setReg_page (h : q ≠ p) (hf : f.off < 4096) (ho : o < 4096) : (s.setReg p o v).get q f = s.get q f := by
  simp only [State.get, State.setReg, word_setWord_page h hf ho]

theorem flag_setReg_page (h : q ≠ p) (hf : f.off < 4096) (ho : o < 4096) : (s.setReg p o v).flag q f = s.flag q f := by
  rw [State.flag, State.flag, get_setReg_page h hf ho]

theorem flag_set_page (h : q ≠ p) (hg : g.off < 4096) (hf : f.off < 4096) : (s.set p f v).flag q g = s.flag q g := by
  rw [State.flag, State.flag, get_set_page h hg hf]

theorem reg_setReg_page (h : q ≠ p) (ho' : j < 4096) (ho : o < 4096) : (s.setReg p o v).reg q j = s.reg q j := by
  simp only [State.reg, State.setReg, word_setWord_page h ho' ho]

theorem reg_set_page (h : q ≠ p) (ho : o < 4096) (hf : f.off < 4096) : (s.set p f v).reg q o = s.reg q o := by
  simp only [State.reg, State.set, word_setWord_page h ho hf]

theorem bit_set_page (h : q ≠ p) (ho : o < 4096) (hf : f.off < 4096) : (s.set p f v).bit q o i = s.bit q o i := by
  rw [State.bit, State.bit, reg_set_page h ho hf]

/-! ## Bits of one register -/

theorem get_setReg_same (h : f.off = o) : (s.setReg p o v).get p f = v % 2 ^ 32 / 2 ^ f.lo % 2 ^ f.width := by
  simp only [State.get, State.setReg, h, word_setWord_same, Fld.read, wordOf_toNat]

theorem get_lt : s.get p f < 2 ^ f.width := Nat.mod_lt _ (Nat.two_pow_pos _)

theorem bit_eq_get : s.bit p o i = (s.get p ⟨o, i, i⟩ != 0) := by
  have e : s.get p ⟨o, i, i⟩ = s.reg p o / 2 ^ i % 2 := by
    simp [State.get, Fld.read, Fld.width, State.reg]
  rw [State.bit, Nat.testBit_eq_decide_div_mod_eq, e]
  rcases Nat.mod_two_eq_zero_or_one (s.reg p o / 2 ^ i) with h | h <;> simp [h]

theorem bit_setBit_same (h : i < 32) : (s.setBit p o i b).bit p o i = b := by
  rw [bit_eq_get]
  exact flag_setB_same (f := ⟨o, i, i⟩) (Nat.le_refl _) h

theorem bit_setBit_bits (h : i < 32) (hd : j ≠ i) : (s.setBit p o i b).bit p o j = s.bit p o j := by
  rw [bit_eq_get, bit_eq_get, State.setBit,
    get_setB_bits (f := ⟨o, i, i⟩) (g := ⟨o, j, j⟩) rfl (Nat.le_refl _) h (Nat.le_refl _) (Nat.lt_or_gt_of_ne hd)]

/-! ## Signed registers -/

theorem sxt_enc {n : Nat} {x : Int} (hn : 0 < n) (hl : -(2 ^ (n - 1) : Nat) ≤ x) (hh : x < (2 ^ (n - 1) : Nat)) :
    sxt n (enc n x) = x := by
  obtain ⟨m, rfl⟩ : ∃ m, n = m + 1 := ⟨n - 1, by omega⟩
  have e : 2 ^ (m + 1) = 2 * 2 ^ m := by rw [Nat.pow_succ, Nat.mul_comm]
  simp only [sxt, enc, Nat.add_sub_cancel] at *
  rw [e]
  generalize 2 ^ m = k at *
  rcases lt_or_ge x 0 with h | h
  · have : x % ((2 * k : Nat) : Int) = x + 2 * k := by
      rw [← Int.add_mul_emod_self_left x _ 1, Int.emod_eq_of_lt] <;> push_cast <;> omega
    rw [this, Nat.mod_eq_of_lt (by omega), if_neg (by omega)]
    omega
  · have : x % ((2 * k : Nat) : Int) = x := Int.emod_eq_of_lt h (by push_cast; omega)
    rw [this, Nat.mod_eq_of_lt (by omega), if_pos (by omega)]
    omega

theorem enc_lt {n : Nat} {x : Int} : enc n x < 2 ^ n := by
  have h1 := Int.emod_lt_of_pos x (Int.ofNat_lt.mpr (Nat.two_pow_pos n))
  have h2 := Int.emod_nonneg x (Int.natCast_ne_zero.mpr (Nat.two_pow_pos n).ne')
  simp only [enc]
  omega

theorem clampI_of_mem {lo hi x : Int} (h : lo ≤ x) (h' : x ≤ hi) : clampI lo hi x = x := by
  rw [clampI, if_neg (not_lt.mpr h), if_neg (not_lt.mpr h')]

theorem clampI_mem {lo hi x : Int} (h : lo ≤ hi) : lo ≤ clampI lo hi x ∧ clampI lo hi x ≤ hi := by
  unfold clampI
  split
  · exact ⟨le_refl _, h⟩
  · split <;> omega

theorem encSat_eq_enc {n : Nat} {x : Int} (h : -(2 ^ (n - 1) : Nat) ≤ x) (h' : x < (2 ^ (n - 1) : Nat)) :
    encSat n x = enc n x := by
  rw [encSat, clampI_of_mem h (Int.le_sub_one_of_lt h')]

theorem regS_setRegSat {x : Int} (h : -(2 ^ 31 : Int) ≤ x) (h' : x < 2 ^ 31) : (s.setRegSat p o x).regS p o = x := by
  rw [State.regS, State.setRegSat, reg_setReg_same, encSat_eq_enc h h', Nat.mod_eq_of_lt enc_lt,
    sxt_enc (by decide) h h']

theorem regS_setRegSat_off {x : Int} (h : q ≠ o) : (s.setRegSat p o x).regS p q = s.regS p q := regS_setReg_off h

/-! ## Folds of which only one element acts -/

/-- Where a step does nothing unless its condition holds, and no step changes a condition, a fold over elements of which
only `k` meets its condition is the step of `k`. -/
theorem foldl_one {f : State → Nat → State} {c : State → Nat → Bool} (hf : ∀ u i, c u i = false → f u i = u)
    {k : Nat} (l : List Nat) (hc : ∀ u i, ∀ j ∈ l, c (f u i) j = c u j) (hn : l.Nodup)
    (h : ∀ i ∈ l, c s i = decide (i = k)) : l.foldl f s = if k ∈ l then f s k else s := by
  induction l generalizing s with
  | nil => rfl
  | cons i l ih =>
    obtain ⟨hi, hn'⟩ := List.nodup_cons.mp hn
    have hup := h i (by simp)
    rw [List.foldl_cons, ih (fun u i j hj => hc u i j (List.mem_cons_of_mem _ hj)) hn'
      (fun j hj => (hc s i j (List.mem_cons_of_mem i hj)).trans (h j (List.mem_cons_of_mem i hj)))]
    by_cases hk : i = k
    · subst hk
      simp [hi]
    · rw [hf s i (by rw [hup]; exact decide_eq_false hk)]
      simp [List.mem_cons, Ne.symm hk]

/-- A fold over elements none of which meets its condition does nothing. -/
theorem foldl_none {f : State → Nat → State} {c : State → Nat → Bool} (hf : ∀ u i, c u i = false → f u i = u)
    (l : List Nat) (h : ∀ i ∈ l, c s i = false) : l.foldl f s = s := by
  induction l with
  | nil => rfl
  | cons i l ih => rw [List.foldl_cons, hf s i (h i (by simp)), ih (fun j hj => h j (List.mem_cons_of_mem i hj))]

/-! ## The words a chain of writes leaves alone -/

theorem SameRegs.trans (h : SameRegs s t l) (h' : SameRegs t u l) : SameRegs s u l :=
  fun k hk => (h' k hk).trans (h k hk)

theorem SameRegs.mono (h : SameRegs s t l) (hl : ∀ e ∈ l, e ∈ l') : SameRegs s t l' :=
  fun k hk => h k (fun e he => hk e (hl e he))

theorem sameRegs_of_board (h : t.board = s.board) : SameRegs s t l := fun _ _ => by rw [h]

theorem SameRegs.setRegSat {x : Int} (h : SameRegs s t l) (hm : (p, o) ∈ l) : SameRegs s (t.setRegSat p o x) l :=
  h.setReg hm

theorem SameRegs.setBeam {x : BeamX} (h : SameRegs s t l) : SameRegs s (t.setBeam x) l := h.of_board State.setBeam_board

theorem SameRegs.send {x : Out} (h : SameRegs s t l) : SameRegs s (t.send x) l := h.of_board State.send_board

theorem SameRegs.answer {w : Writer} {c : Code} (h : SameRegs s t l) : SameRegs s (t.answer w c) l := h.send

theorem SameRegs.ite {c : Prop} [Decidable c] (h : SameRegs s t l) (h' : SameRegs s u l) :
    SameRegs s (if c then t else u) l := by
  split
  · exact h
  · exact h'

end

/-- A command that writes no memory leaves every memory outside board space (O7). -/
theorem sameMem_of_exec {s t : State} {c : Instr} (hl : Claims.writesLpddr5 c = false) (hw : Claims.writesMemories c = false)
    (h : exec c s = .next t) :
    SameMem s t := (memoryFrame c s t h hw).1 hl

end Sys2Proof.Machine

/-! PROOFS. The beam's clock (spec/03, R64 to R67, R73, R76, R77, R82): captures, seconds, 1PPS and PTP imports. -/

namespace Sys2Proof.Machine

open Host (Outcome)

section

variable {s t : State}

/-! ## Captures and beam seconds (R64, R66, R67, R82) -/

theorem sameRegs_snapCapture : SameRegs s s.snapCapture [(pBEAM, BEAM.SNAP_NS), (pBEAM, BEAM.SNAP_INFO),
    (pBEAM, BEAM.SNAP_SEC_LO), (pBEAM, BEAM.SNAP_SEC_HI)] :=
  (((sameRegs_refl.setReg (by simp)).setReg (by simp)).setReg (by simp)).setReg (by simp)

theorem beam_snapCapture : s.snapCapture.beam = s.beam := by
  rw [State.snapCapture, State.setReg_beam, State.setReg_beam, State.setReg_beam, State.setReg_beam]

theorem ns_lt : s.ns < 2 ^ 32 := by unfold State.ns; omega

theorem frac_lt : s.frac < 256 := by unfold State.frac; omega

theorem get_snapCapture_info {f : Fld} (h : f.off = BEAM.SNAP_INFO) : s.snapCapture.get pBEAM f =
    (s.frac + s.get pBEAM BEAM.STAT_LOCK * 2 ^ 8 + s.get pBEAM BEAM.STAT_HOLDOVER * 2 ^ 10) / 2 ^ f.lo % 2 ^ f.width := by
  have hl : s.get pBEAM BEAM.STAT_LOCK < 4 := get_lt
  have hh : s.get pBEAM BEAM.STAT_HOLDOVER < 2 := get_lt
  have hf : s.frac < 256 := frac_lt
  rw [State.snapCapture, get_setReg_off (by rw [h]; decide), get_setReg_off (by rw [h]; decide), get_setReg_same h,
    Nat.mod_eq_of_lt (a := s.frac + _ + _) (by omega)]

theorem beamTime : Claims.BeamTime := by
  intro w s hm
  refine ⟨⟨s.snapCapture.answer w .ok, congrArg Outcome.next ?run, ?ns, ?frac, ?lock, ?hold, ?lo, ?hi,
    ?beam, ?mem, sameRegs_snapCapture.answer⟩, fun h => ?plain, fun h => ?out, fun h => ?ends⟩
  case run => exact (congrArg (finish w pBEAM) (actionWrite_ok hm)).trans finish_ok
  case ns =>
    refine Eq.trans ?_ (Nat.mod_eq_of_lt ns_lt)
    rw [reg_answer, State.snapCapture, reg_setReg_off (by decide), reg_setReg_off (by decide), reg_setReg_off (by decide),
      reg_setReg_same]
  case frac =>
    refine get_answer.trans ((get_snapCapture_info rfl).trans ?_)
    have := frac_lt (s := s)
    simp only [Fld.width]
    omega
  case lock =>
    refine get_answer.trans ((get_snapCapture_info rfl).trans ?_)
    have hl : s.get pBEAM BEAM.STAT_LOCK < 4 := get_lt
    have := frac_lt (s := s)
    simp only [Fld.width]
    omega
  case hold =>
    refine get_answer.trans ((get_snapCapture_info rfl).trans ?_)
    have hl : s.get pBEAM BEAM.STAT_LOCK < 4 := get_lt
    have hh : s.get pBEAM BEAM.STAT_HOLDOVER < 2 := get_lt
    have := frac_lt (s := s)
    simp only [Fld.width]
    omega
  case lo =>
    rw [reg_answer, State.snapCapture, reg_setReg_off (by decide), reg_setReg_same, Nat.mod_mod]
  case hi =>
    intro h
    rw [reg_answer, State.snapCapture, reg_setReg_same]
    show s.sec / 2 ^ 32 % 2 ^ 32 = _
    omega
  case beam => rw [State.answer, State.send_beam, beam_snapCapture]
  case mem =>
    exact sameMem_of_exec (c := .snap w) rfl rfl (congrArg Outcome.next ((congrArg (finish w pBEAM) (actionWrite_ok hm)).trans finish_ok))
  case plain =>
    rw [exec, execBeamSecond, flag_ev (by decide), h]
    rfl
  case out =>
    have e : exec .beamSecond s = .next
        (((s.ev pBEAM 18).setBeam { s.beam with ppsOut := true }).send (.pin "BEAM_PPS_OUT" true)) := by
      rw [exec, execBeamSecond, flag_ev (by decide), if_pos h, State.ev_beam]
    refine ⟨_, e, ?_, State.send_beam, by rw [out_send, State.setBeam_out, State.ev_out], ((sameRegs_refl.ev (by simp)).setBeam).send, sameMem_of_exec rfl rfl e⟩
    rw [bit_send, bit_setBeam]
    exact bit_ev (by decide)
  case ends => simp only [exec, execPpsOutWidthEnd, h, if_true]

/-! ## The time class, and steps that a reference calls (R73) -/

/-- The class that the valid references give. -/
def State.timeClass (s : State) : Nat :=
  if s.flag pBEAM BEAM.STAT_PPS_VALID then (if s.flag pBEAM BEAM.STAT_PTP_VALID then 0 else 1)
  else (if s.flag pBEAM BEAM.STAT_PTP_VALID then 2 else 3)

theorem timeClass_lt : s.timeClass < 4 := by
  unfold State.timeClass
  split <;> split <;> decide

theorem refreshClass_cases : s.refreshClass = s.set pBEAM BEAM.STAT_CLASS s.timeClass ∨
    ∃ b, s.refreshClass = (s.set pBEAM BEAM.STAT_CLASS s.timeClass).setB pBEAM BEAM.STAT_CROSS_SITE b := by
  have e : s.refreshClass = if (s.set pBEAM BEAM.STAT_CLASS s.timeClass).isMaster then
      (s.set pBEAM BEAM.STAT_CLASS s.timeClass).setB pBEAM BEAM.STAT_CROSS_SITE (s.flag pBEAM BEAM.STAT_PPS_VALID &&
        decide ((s.set pBEAM BEAM.STAT_CLASS s.timeClass).get pBEAM BEAM.STAT_LOCK = 3))
    else s.set pBEAM BEAM.STAT_CLASS s.timeClass := rfl
  rw [e]
  split
  · exact .inr ⟨_, rfl⟩
  · exact .inl rfl

theorem sameRegs_refreshClass : SameRegs s s.refreshClass [(pBEAM, BEAM.STAT)] := by
  obtain e | ⟨b, e⟩ := refreshClass_cases (s := s) <;> rw [e]
  · exact sameRegs_refl.set (by simp)
  · exact (sameRegs_refl.set (by simp)).setB (by simp)

theorem beam_refreshClass : s.refreshClass.beam = s.beam := by
  obtain e | ⟨b, e⟩ := refreshClass_cases (s := s)
  · rw [e, State.set_beam]
  · rw [e, State.setB_beam, State.set_beam]

/-- A field of STAT beside CLASS and CROSS_SITE. -/
theorem get_refreshClass_bits {f : Fld} (ho : f.off = BEAM.STAT) (hf : f.lo ≤ f.hi)
    (hd : f.hi < 10 ∨ 11 < f.lo) (hd' : f.hi < 14 ∨ 14 < f.lo) : s.refreshClass.get pBEAM f = s.get pBEAM f := by
  obtain e | ⟨b, e⟩ := refreshClass_cases (s := s)
  · rw [e, get_set_bits ho (by decide) (by decide) hf hd]
  · rw [e, get_setB_bits ho (by decide) (by decide) hf hd', get_set_bits ho (by decide) (by decide) hf hd]

theorem get_refreshClass_off {f : Fld} (h : f.off ≠ BEAM.STAT) : s.refreshClass.get pBEAM f = s.get pBEAM f := by
  obtain e | ⟨b, e⟩ := refreshClass_cases (s := s)
  · rw [e, get_set_off h]
  · rw [e, get_setB_off h, get_set_off h]

theorem flag_refreshClass_bits {f : Fld} (ho : f.off = BEAM.STAT) (hf : f.lo ≤ f.hi)
    (hd : f.hi < 10 ∨ 11 < f.lo) (hd' : f.hi < 14 ∨ 14 < f.lo) : s.refreshClass.flag pBEAM f = s.flag pBEAM f := by
  rw [State.flag, State.flag, get_refreshClass_bits ho hf hd hd']

theorem isMaster_refreshClass : s.refreshClass.isMaster = s.isMaster :=
  flag_refreshClass_bits rfl (by decide) (by decide) (by decide)

theorem get_refreshClass_class : s.refreshClass.get pBEAM BEAM.STAT_CLASS = s.timeClass := by
  have key : (s.set pBEAM BEAM.STAT_CLASS s.timeClass).get pBEAM BEAM.STAT_CLASS = s.timeClass :=
    (get_set_same (by decide) (by decide)).trans (Nat.mod_eq_of_lt timeClass_lt)
  obtain e | ⟨b, e⟩ := refreshClass_cases (s := s)
  · rw [e, key]
  · rw [e, get_setB_bits (by rfl) (by decide) (by decide) (by decide) (by decide), key]

theorem regS_refreshClass {o : Nat} (h : o ≠ BEAM.STAT) : s.refreshClass.regS pBEAM o = s.regS pBEAM o := by
  obtain e | ⟨b, e⟩ := refreshClass_cases (s := s)
  · rw [e, regS_set_off h]
  · rw [e, regS_setB_off h, regS_set_off h]

theorem importStep_follower {pps : Bool} {d : Int} (h : s.isMaster = false) : s.importStep pps d = s := by
  rw [State.importStep, h]
  rfl

theorem importStep_fine {pps : Bool} {d : Int} (h : s.get pBEAM BEAM.STAT_LOCK = 3) : s.importStep pps d = s := by
  simp [State.importStep, h]

theorem dropReference_none {pps : Bool} (h : s.beam.step = none) : s.dropReference pps = s := by
  rw [State.dropReference, h]

/-! ## Edges of BEAM_PPS_IN (R73, R76) -/

/-- The state once a good edge's error is noted and its run has reached three. -/
def State.ppsGood (s : State) : State :=
  ((((s.setRegSat pBEAM BEAM.PPS_IN_ERR (secOffset s.beam.t / 256)).setBeam { s.beam with ppsGood := 3, ppsBad := 0 }).set
    pBEAM BEAM.STAT_PPS_VALID 1)).refreshClass

theorem sameRegs_ppsGood : SameRegs s s.ppsGood [(pBEAM, BEAM.STAT), (pBEAM, BEAM.PPS_IN_ERR)] :=
  ((((sameRegs_refl.setRegSat (by simp)).setBeam).set (by simp)).trans (sameRegs_refreshClass.mono (by simp)))

theorem beam_ppsGood : s.ppsGood.beam = { s.beam with ppsGood := 3, ppsBad := 0 } := by
  rw [State.ppsGood, beam_refreshClass, State.set_beam, State.beam_setBeam]

theorem get_ppsGood_stat {f : Fld} (ho : f.off = BEAM.STAT) (hf : f.lo ≤ f.hi)
    (hd : f.hi < 10) : s.ppsGood.get pBEAM f = s.get pBEAM f := by
  rw [State.ppsGood, get_refreshClass_bits ho hf (.inl hd) (.inl (by omega)),
    get_set_bits ho (by decide) (by decide) hf (.inl (by simp; omega)), get_setBeam, get_setRegSat_off (by rw [ho]; decide)]

theorem isMaster_ppsGood : s.ppsGood.isMaster = s.isMaster := by
  rw [State.isMaster, State.flag, get_ppsGood_stat rfl (by decide) (by decide)]
  rfl

theorem refValid_ppsGood : s.ppsGood.flag pBEAM BEAM.STAT_PPS_VALID = true := by
  rw [State.ppsGood, flag_refreshClass_bits rfl (by decide) (by decide) (by decide), flag_set_same (by decide) (by decide)]
  rfl

theorem regS_ppsGood {o : Nat} (h : o ≠ BEAM.STAT) (h' : o ≠ BEAM.PPS_IN_ERR) :
    s.ppsGood.regS pBEAM o = s.regS pBEAM o := by
  rw [State.ppsGood, regS_refreshClass h, regS_set_off h, regS_setBeam, regS_setRegSat_off h']

theorem secOffset_bounds (t : Nat) : -128000000000 ≤ secOffset t ∧ secOffset t < 128000000000 := by
  have := Nat.mod_lt t (show 0 < 256000000000 by decide)
  simp only [secOffset]
  split <;> omega

theorem regS_ppsGood_err : s.ppsGood.regS pBEAM BEAM.PPS_IN_ERR = secOffset s.beam.t / 256 := by
  obtain ⟨h1, h2⟩ := secOffset_bounds s.beam.t
  rw [State.ppsGood, regS_refreshClass (by decide), regS_set_off (by decide), regS_setBeam,
    regS_setRegSat (by omega) (by omega)]

/-- The third good edge in a row, which is not a third bad one. -/
theorem ppsInEdge_good {f : Bool} {d : Nat} (he : s.flag pBEAM BEAM.CTL_PPS_IN_EN = true)
    (hf : s.flag pBEAM BEAM.CTL_PPS_POL = f) (hg : s.beam.ppsGood = 2) (hi : s.injArmed pBEAM 0 = false)
    (h1 : 999900000 ≤ d) (h2 : d ≤ 1000100000)
    (hb : (s.isMaster && decide (s.get pBEAM BEAM.STAT_LOCK = 3) && decide (256000 < (secOffset s.beam.t).natAbs)) = false) :
    exec (.ppsInEdge f (some d)) s = .next ((if s.ppsGood.isMaster then s.ppsGood.discipline (secOffset s.beam.t)
      else s.ppsGood).importStep true (-secOffset s.beam.t)) := by
  have hn : s.injTake pBEAM 0 = (false, s) := by simp [State.injTake, hi]
  have hv : s.ppsGood.refValid true = true := refValid_ppsGood
  have hm : (s.setRegSat pBEAM BEAM.PPS_IN_ERR (secOffset s.beam.t / 256)).isMaster = s.isMaster :=
    flag_setRegSat_off (by decide)
  have hl : (s.setRegSat pBEAM BEAM.PPS_IN_ERR (secOffset s.beam.t / 256)).get pBEAM BEAM.STAT_LOCK =
    s.get pBEAM BEAM.STAT_LOCK := get_setRegSat_off (by decide)
  simp -implicitDefEqProofs only [exec, execPpsInEdge, he, hf, hn, hm, hl, hb, State.setRegSat_beam, hg, h1, h2, Bool.not_true, ne_eq, not_true_eq_false,
    decide_false, Bool.or_self, Bool.false_eq_true, if_false, Nat.add_zero, and_self, decide_true, if_true, Nat.reduceAdd, Nat.min_self,
    Nat.reduceLeDiff]
  show Outcome.next ((if (s.ppsGood.isMaster && s.ppsGood.refValid true) = true then _ else _ : State).importStep _ _) = _
  rw [hv, Bool.and_true]
  rfl

/-- The correction that disciplining by an offset sets (R73). -/
def State.newCorr (s : State) (off : Int) : Int :=
  clampI (-corrClamp) corrClamp (clampI (s.beam.settled - 10000000) (s.beam.settled + 10000000)
    (s.corr - off.sign * ((Config.freeWord s.freeCtr).toNat %
      (100000 * min (s.beam.t - s.beam.discAt) 256000000000 / 256000000000 + 1) : Nat)))

/-- The state once that correction is set, before its limit is judged. -/
def State.disciplined (s : State) (off : Int) : State :=
  (s.free.2.setBeam { s.beam with discAt := s.beam.t }).setRegSat pBEAM BEAM.CORR (s.newCorr off)

theorem discipline_eq (off : Int) : s.discipline off =
    if (s.newCorr off).natAbs = 200000000 then (s.disciplined off).err pBEAM (blk 2) else s.disciplined off := by
  have hb : s.free.2.beam = s.beam := rfl
  have hc : s.free.2.corr = s.corr := regS_eq_of_board rfl
  simp -implicitDefEqProofs only [State.discipline, State.disciplined, State.newCorr, hb, hc]
  rfl

theorem clampI_near {lo hi x c : Int} {d : Nat} (hc : lo ≤ c ∧ c ≤ hi) (h : (x - c).natAbs ≤ d) :
    (clampI lo hi x - c).natAbs ≤ d := by
  unfold clampI
  split
  · omega
  · split <;> omega

theorem newCorr_near (off : Int) (hc : s.corr.natAbs ≤ 200000000) (hs : (s.corr - s.beam.settled).natAbs ≤ 10000000) :
    (s.newCorr off - s.corr).natAbs ≤ 100000 := by
  unfold State.newCorr
  have hd : (Config.freeWord s.freeCtr).toNat % (100000 * min (s.beam.t - s.beam.discAt) 256000000000 / 256000000000 + 1) ≤
      100000 := by
    have h1 : 100000 * min (s.beam.t - s.beam.discAt) 256000000000 / 256000000000 ≤ 100000 := by omega
    exact le_trans (Nat.le_of_lt_succ (Nat.mod_lt _ (Nat.succ_pos _))) h1
  generalize (Config.freeWord s.freeCtr).toNat %
    (100000 * min (s.beam.t - s.beam.discAt) 256000000000 / 256000000000 + 1) = d at hd ⊢
  refine clampI_near ⟨by simp only [corrClamp]; omega, by simp only [corrClamp]; omega⟩
    (clampI_near ⟨by omega, by omega⟩ ?_)
  rcases lt_trichotomy off 0 with h | h | h
  · rw [Int.sign_eq_neg_one_of_neg h]
    omega
  · rw [h, Int.sign_zero]
    omega
  · rw [Int.sign_eq_one_of_pos h]
    omega

theorem newCorr_mem (off : Int) : (s.newCorr off).natAbs ≤ 200000000 := by
  have h : -corrClamp ≤ s.newCorr off ∧ s.newCorr off ≤ corrClamp := clampI_mem (by decide)
  simp only [corrClamp] at h
  omega

/-- A clamp to the correction's range keeps the range about the settled correction that the old one lay in. -/
theorem newCorr_settled (off : Int) (hc : s.corr.natAbs ≤ 200000000)
    (hs : (s.corr - s.beam.settled).natAbs ≤ 10000000) : (s.newCorr off - s.beam.settled).natAbs ≤ 10000000 := by
  unfold State.newCorr
  generalize s.corr - off.sign * _ = x
  have h : s.beam.settled - 10000000 ≤ clampI (s.beam.settled - 10000000) (s.beam.settled + 10000000) x ∧
      clampI (s.beam.settled - 10000000) (s.beam.settled + 10000000) x ≤ s.beam.settled + 10000000 :=
    clampI_mem (by omega)
  generalize clampI (s.beam.settled - 10000000) (s.beam.settled + 10000000) x = y at h ⊢
  unfold clampI
  simp only [corrClamp]
  split
  · omega
  · split <;> omega

theorem corr_disciplined (off : Int) : (s.disciplined off).corr = s.newCorr off := by
  have h := newCorr_mem (s := s) off
  exact regS_setRegSat (by omega) (by omega)

theorem regS_disciplined {o : Nat} (off : Int) (h : o ≠ BEAM.CORR) :
    (s.disciplined off).regS pBEAM o = s.regS pBEAM o := by
  rw [State.disciplined, regS_setRegSat_off h, regS_setBeam]
  exact regS_eq_of_board rfl

theorem get_disciplined {f : Fld} (off : Int) (h : f.off ≠ BEAM.CORR) :
    (s.disciplined off).get pBEAM f = s.get pBEAM f := by
  rw [State.disciplined, get_setRegSat_off h, get_setBeam]
  exact get_eq_of_board rfl

theorem corr_discipline (off : Int) : (s.discipline off).corr = s.newCorr off := by
  rw [discipline_eq]
  split
  · exact (regS_err (by decide) (by decide) (by decide)).trans (corr_disciplined off)
  · exact corr_disciplined off

theorem regS_discipline {o : Nat} (off : Int) (h : o ∉ [BEAM.CORR, PG.ERR, PG.ERRCNT, PG.EV_STAT]) :
    (s.discipline off).regS pBEAM o = s.regS pBEAM o := by
  simp only [List.mem_cons, List.not_mem_nil, or_false, not_or] at h
  obtain ⟨hc, he, hn, hv⟩ := h
  rw [discipline_eq]
  split
  · exact (regS_err he hn hv).trans (regS_disciplined off hc)
  · exact regS_disciplined off hc

theorem get_discipline {f : Fld} (off : Int) (h : f.off ∉ [BEAM.CORR, PG.ERR, PG.ERRCNT, PG.EV_STAT]) :
    (s.discipline off).get pBEAM f = s.get pBEAM f := by
  simp only [List.mem_cons, List.not_mem_nil, or_false, not_or] at h
  obtain ⟨hc, he, hn, hv⟩ := h
  rw [discipline_eq]
  split
  · exact (get_err he hn hv).trans (get_disciplined off hc)
  · exact get_disciplined off hc

theorem beam_discipline (off : Int) : (s.discipline off).beam = { s.beam with discAt := s.beam.t } := by
  rw [discipline_eq]
  split
  · rw [State.err_beam, State.disciplined, State.setRegSat_beam, State.beam_setBeam]
  · rw [State.disciplined, State.setRegSat_beam, State.beam_setBeam]

theorem sameRegs_discipline (off : Int) : SameRegs s (s.discipline off)
    [(pBEAM, BEAM.CORR), (pBEAM, PG.ERR), (pBEAM, PG.ERRCNT), (pBEAM, PG.EV_STAT)] := by
  have h : SameRegs s (s.disciplined off)
      [(pBEAM, BEAM.CORR), (pBEAM, PG.ERR), (pBEAM, PG.ERRCNT), (pBEAM, PG.EV_STAT)] :=
    ((sameRegs_of_board (t := s.free.2) rfl).setBeam).setRegSat (by simp)
  rw [discipline_eq]
  exact (h.err (by simp) (by simp) (by simp)).ite h

/-- A third bad edge in a row, while a master is in FINE. -/
theorem ppsInEdge_bad {f : Bool} {d : Option Nat} (he : s.flag pBEAM BEAM.CTL_PPS_IN_EN = true)
    (hf : s.flag pBEAM BEAM.CTL_PPS_POL = f) (hn : s.beam.ppsBad = 2) (hi : s.injArmed pBEAM 0 = false)
    (hm : s.isMaster = true) (hl : s.get pBEAM BEAM.STAT_LOCK = 3) (ho : 256000 < (secOffset s.beam.t).natAbs) :
    exec (.ppsInEdge f d) s =
      .next (((s.setRegSat pBEAM BEAM.PPS_IN_ERR (secOffset s.beam.t / 256)).err pBEAM 17).ppsInvalid) := by
  have hj : s.injTake pBEAM 0 = (false, s) := by simp [State.injTake, hi]
  have hm' : (s.setRegSat pBEAM BEAM.PPS_IN_ERR (secOffset s.beam.t / 256)).isMaster = true :=
    (flag_setRegSat_off (by decide)).trans hm
  have hl' : (s.setRegSat pBEAM BEAM.PPS_IN_ERR (secOffset s.beam.t / 256)).get pBEAM BEAM.STAT_LOCK = 3 :=
    (get_setRegSat_off (by decide)).trans hl
  simp -implicitDefEqProofs only [exec, execPpsInEdge, he, hf, hj, hm', hl', ho, State.setRegSat_beam, hn, Bool.not_true,
    ne_eq, not_true_eq_false, decide_false, Bool.or_self, Bool.false_eq_true, if_false, Nat.add_zero, decide_true,
    Bool.and_self, if_true, Nat.reduceAdd, le_refl]

theorem ppsInEdge_ignored {f : Bool} {d : Option Nat}
    (h : s.flag pBEAM BEAM.CTL_PPS_IN_EN = false ∨ s.flag pBEAM BEAM.CTL_PPS_POL ≠ f) :
    exec (.ppsInEdge f d) s = .next s := by
  have e : (!s.flag pBEAM BEAM.CTL_PPS_IN_EN || decide (s.flag pBEAM BEAM.CTL_PPS_POL ≠ f)) = true := by
    rcases h with h | h <;> simp [h]
  exact if_pos e

/-! ## PTP messages (R77) -/

/-- The state once a message's offset and, where it has one, its UTC offset are noted. -/
def State.ptpNoted (s : State) (m : PtpMsg) : State :=
  match m.utc with
  | some u => (s.setRegSat pBEAM BEAM.PTP_OFFSET m.offset).setReg pBEAM BEAM.PTP_UTC (2 ^ 16 + enc 16 u)
  | none => s.setRegSat pBEAM BEAM.PTP_OFFSET m.offset

/-- Whether a message makes PTP valid. -/
def ptpValid (m : PtpMsg) : Bool := m.slave && decide (m.offset.natAbs < 1000)

/-- The state once a message's validity is judged too. -/
def State.ptpJudged (s : State) (m : PtpMsg) : State :=
  ((s.ptpNoted m).setB pBEAM BEAM.STAT_PTP_VALID (ptpValid m)).refreshClass

theorem beam_ptpNoted {m : PtpMsg} : (s.ptpNoted m).beam = s.beam := by
  unfold State.ptpNoted
  split
  · rw [State.setReg_beam, State.setRegSat_beam]
  · rw [State.setRegSat_beam]

theorem get_ptpNoted {m : PtpMsg} {f : Fld} (h : f.off ≠ BEAM.PTP_OFFSET) (h' : f.off ≠ BEAM.PTP_UTC) :
    (s.ptpNoted m).get pBEAM f = s.get pBEAM f := by
  unfold State.ptpNoted
  split
  · rw [get_setReg_off h', get_setRegSat_off h]
  · rw [get_setRegSat_off h]

theorem isMaster_ptpJudged {m : PtpMsg} : (s.ptpJudged m).isMaster = s.isMaster := by
  rw [State.ptpJudged, isMaster_refreshClass, State.isMaster, State.flag,
    get_setB_bits (by rfl) (by decide) (by decide) (by decide) (by decide), get_ptpNoted (by decide) (by decide)]
  rfl

theorem ptpMessage_follower {m : PtpMsg} (hm : s.isMaster = false) (ht : s.ptpTakes m = true)
    (hs : s.beam.step = none) : exec (.ptpMessage m) s = .next (s.ptpJudged m) := by
  have hm' := isMaster_ptpJudged (s := s) (m := m)
  have hs' : (s.ptpJudged m).beam.step = none := by
    rw [State.ptpJudged, beam_refreshClass, State.setB_beam, beam_ptpNoted, hs]
  have e : exec (.ptpMessage m) s = if !s.ptpTakes m then .next s else if ptpValid m then
      .next (State.importStep (if (s.ptpJudged m).isMaster && !(s.ptpJudged m).refValid true then
        (s.ptpJudged m).discipline (-((m.time : Int) - (s.ptpJudged m).beam.t)) else s.ptpJudged m) false
          (if (s.ptpJudged m).refValid true then
            divRound ((m.time : Int) - (s.ptpJudged m).beam.t) 256000000000 * 256000000000
          else (m.time : Int) - (s.ptpJudged m).beam.t))
      else .next ((s.ptpJudged m).dropReference false) := rfl
  rw [hm] at hm'
  rw [e, ht, dropReference_none hs', hm', Bool.false_and, if_neg Bool.false_ne_true, importStep_follower hm', ite_self]
  rfl

theorem flag_ptpJudged {m : PtpMsg} : (s.ptpJudged m).flag pBEAM BEAM.STAT_PTP_VALID = ptpValid m := by
  rw [State.ptpJudged, flag_refreshClass_bits rfl (by decide) (by decide) (by decide),
    flag_setB_same (by decide) (by decide)]

theorem sameRegs_ptpNoted {m : PtpMsg} {l : List (Nat × Nat)} (h : (pBEAM, BEAM.PTP_OFFSET) ∈ l)
    (h' : m.utc ≠ none → (pBEAM, BEAM.PTP_UTC) ∈ l) : SameRegs s (s.ptpNoted m) l := by
  unfold State.ptpNoted
  split
  case h_1 e => exact (sameRegs_refl.setRegSat h).setReg (h' (by simp [e]))
  case h_2 => exact sameRegs_refl.setRegSat h

theorem sameRegs_ptpJudged {m : PtpMsg} {l : List (Nat × Nat)} (hs : (pBEAM, BEAM.STAT) ∈ l)
    (h : (pBEAM, BEAM.PTP_OFFSET) ∈ l) (h' : m.utc ≠ none → (pBEAM, BEAM.PTP_UTC) ∈ l) :
    SameRegs s (s.ptpJudged m) l :=
  ((sameRegs_ptpNoted h h').setB hs).trans (sameRegs_refreshClass.mono (by simpa using hs))

theorem regS_ptpJudged {m : PtpMsg} {o : Nat} (h : o ≠ BEAM.STAT) :
    (s.ptpJudged m).regS pBEAM o = (s.ptpNoted m).regS pBEAM o := by
  rw [State.ptpJudged, regS_refreshClass h, regS_setB_off h]

theorem get_ptpJudged_utc {m : PtpMsg} {v : Int} {f : Fld} (hu : m.utc = some v) (h : f.off = BEAM.PTP_UTC) :
    (s.ptpJudged m).get pBEAM f = (2 ^ 16 + enc 16 v) / 2 ^ f.lo % 2 ^ f.width := by
  have e : s.ptpNoted m = (s.setRegSat pBEAM BEAM.PTP_OFFSET m.offset).setReg pBEAM BEAM.PTP_UTC (2 ^ 16 + enc 16 v) := by
    rw [State.ptpNoted, hu]
  have hl : enc 16 v < 2 ^ 16 := enc_lt
  have hs : f.off ≠ BEAM.STAT := by
    rw [h]
    decide
  rw [State.ptpJudged, get_refreshClass_off hs, get_setB_off hs, e, get_setReg_same h, Nat.mod_eq_of_lt (a := 2 ^ 16 + enc 16 v) (by omega)]

theorem beamImports : Claims.BeamImports := by
  intro s off
  refine ⟨fun f d hm he hf hg hi h1 h2 => ?good, fun f d hm hl he hf hg hi h1 h2 ho hc hs => ?master,
    fun f d hm hl he hf hn hi ho => ppsInEdge_bad he hf hn hi hm hl ho, fun f d h => ppsInEdge_ignored h,
    fun hs => ?timeout, fun m hm ht hs hu => ?ptp, fun m v hm ht hs hu h1 h2 => ?utc, fun m ht => ?other⟩
  case good =>
    have e : exec (.ppsInEdge f (some d)) s = .next s.ppsGood := by
      rw [ppsInEdge_good he hf hg hi h1 h2 (by rw [hm]; rfl), isMaster_ppsGood, hm, if_neg Bool.false_ne_true,
        importStep_follower (isMaster_ppsGood.trans hm)]
    exact ⟨_, e, refValid_ppsGood, regS_ppsGood_err, by rw [beam_ppsGood], sameRegs_ppsGood, sameMem_of_exec rfl rfl e⟩
  case master =>
    have hl' : (s.ppsGood.discipline off).get pBEAM BEAM.STAT_LOCK = 3 := by
      rw [get_discipline off (by decide), get_ppsGood_stat rfl (by decide) (by decide), hl]
    have e : exec (.ppsInEdge f (some d)) s = .next (s.ppsGood.discipline off) := by
      rw [ppsInEdge_good he hf hg hi h1 h2 (by simp [hm, hl]; exact ho), isMaster_ppsGood, hm, if_pos rfl,
        importStep_fine hl']
    have hc' : s.ppsGood.corr = s.corr := regS_ppsGood (by decide) (by decide)
    have hb : s.ppsGood.beam.settled = s.beam.settled := by rw [beam_ppsGood]
    have hs' := hs
    rw [← hc', ← hb] at hs'
    have hc'' := hc
    rw [← hc'] at hc''
    refine ⟨_, e, ?_, ?_, ?_, ?_, ?_, ?_, ?_, sameMem_of_exec rfl rfl e⟩
    · rw [State.flag, get_discipline off (by decide)]
      exact refValid_ppsGood
    · rw [regS_discipline off (by decide), regS_ppsGood_err]
    · rw [corr_discipline, ← hc']
      exact newCorr_near off hc'' hs'
    · rw [corr_discipline]
      exact newCorr_mem off
    · rw [corr_discipline, ← hb]
      exact newCorr_settled off hc'' hs'
    · rw [beam_discipline, beam_ppsGood]
    · exact (sameRegs_ppsGood.mono (by simp)).trans ((sameRegs_discipline off).mono (by simp))
  case timeout =>
    have e : s.ppsInvalid = ((s.setBeam { s.beam with ppsGood := 0, ppsBad := 0 }).set pBEAM BEAM.STAT_PPS_VALID
        0).refreshClass := by
      refine dropReference_none ?_
      rw [beam_refreshClass, State.set_beam, State.beam_setBeam]
      exact hs
    have hp : ((s.setBeam { s.beam with ppsGood := 0, ppsBad := 0 }).set pBEAM BEAM.STAT_PPS_VALID 0).flag pBEAM
        BEAM.STAT_PPS_VALID = false := by
      rw [flag_set_same (by decide) (by decide)]
      rfl
    refine ⟨s.ppsInvalid, rfl, ?_, ?_, ?_, ?_, sameMem_of_exec (c := .ppsTimeout) rfl rfl rfl⟩
    · rw [e, flag_refreshClass_bits rfl (by decide) (by decide) (by decide), hp]
    · rw [e, beam_refreshClass, State.set_beam, State.beam_setBeam]
    · rw [e, get_refreshClass_class, State.timeClass, hp,
        flag_set_bits (by rfl) (by decide) (by decide) (by decide) (by decide), flag_setBeam]
      rfl
    · rw [e]
      exact ((sameRegs_refl.setBeam).set (by simp)).trans sameRegs_refreshClass
  case ptp =>
    have e := ptpMessage_follower hm ht hs
    refine ⟨_, e, flag_ptpJudged, fun h => ?_, ?_, sameMem_of_exec rfl rfl e⟩
    · rw [regS_ptpJudged (by decide), State.ptpNoted, hu]
      exact regS_setRegSat (by omega) (by omega)
    · exact sameRegs_ptpJudged (by simp) (by simp) (by simp [hu])
  case utc =>
    have e := ptpMessage_follower hm ht hs
    have hl : enc 16 v < 2 ^ 16 := enc_lt
    refine ⟨_, e, ?_, ?_, ?_, sameMem_of_exec rfl rfl e⟩
    · rw [bit_eq_get, get_ptpJudged_utc hu rfl]
      simp only [Fld.width]
      rw [show (2 ^ 16 + enc 16 v) / 2 ^ 16 = 1 by omega]
      rfl
    · rw [State.getS, get_ptpJudged_utc hu rfl]
      simp only [Fld.width]
      rw [show (2 ^ 16 + enc 16 v) / 2 ^ 0 % 2 ^ (15 + 1 - 0) = enc 16 v by omega]
      exact sxt_enc (by decide) h1 (by simpa using h2)
    · exact sameRegs_ptpJudged (by simp) (by simp) (by simp)
  case other => rw [exec, execPtpMessage, ht]; rfl

/-- Settles O21: captures and seconds, then the imports. -/
theorem beamClock : Obligations.BeamClock := ⟨beamTime, beamImports⟩

end

end Sys2Proof.Machine

/-! PROOFS. The beam's lock states, election and time messages (spec/03, R69 to R74). -/

namespace Sys2Proof.Machine

open Host (Outcome)

section

variable {s t : State}

/-! ## Fine lock and the dwells (R74, R75) -/

theorem fineLock_of_lock (h : s.get pBEAM BEAM.STAT_LOCK ≠ 3) : s.fineLock = false := by
  simp [State.fineLock, h]

theorem fineLock_congr (h : ∀ f ∈ [BEAM.STAT_LOCK, BEAM.STAT_CMSN_HOLD, BEAM.STAT_STEP_PENDING],
    t.get pBEAM f = s.get pBEAM f) : t.fineLock = s.fineLock := by
  simp only [State.fineLock, State.flag, h BEAM.STAT_LOCK (by simp), h BEAM.STAT_CMSN_HOLD (by simp),
    h BEAM.STAT_STEP_PENDING (by simp)]

theorem lockCheck_below (h : s.fineLock = false) (h' : t.fineLock = false) : s.lockCheck t = t := by
  simp [State.lockCheck, h, h']

theorem setLock_eq {v : Nat} : s.setLock v = (s.set pBEAM BEAM.STAT_LOCK v).ev pBEAM 16 := rfl

theorem get_setLock_same {v : Nat} (h : v < 4) : (s.setLock v).get pBEAM BEAM.STAT_LOCK = v := by
  rw [State.setLock, get_ev (by decide), get_set_same (by decide) (by decide)]
  exact Nat.mod_eq_of_lt h

theorem get_setLock_off {v : Nat} {f : Fld} (h : f.off ≠ BEAM.STAT) (h' : f.off ≠ PG.EV_STAT) :
    (s.setLock v).get pBEAM f = s.get pBEAM f := by
  rw [State.setLock, get_ev h', get_set_off h]

theorem get_setLock_bits {v : Nat} {f : Fld} (ho : f.off = BEAM.STAT) (hf : f.lo ≤ f.hi) (hd : 1 < f.lo) :
    (s.setLock v).get pBEAM f = s.get pBEAM f := by
  rw [State.setLock, get_ev (by rw [ho]; decide), get_set_bits ho (by decide) (by decide) hf (.inr hd)]

theorem dropFollower_none (h : s.beam.step = none) : s.dropFollower = s := by rw [State.dropFollower, h]

/-! ## A lost master or parent (R74) -/

theorem get_noParent_off {f : Fld} (h : f.off ≠ BEAM.MASTER) : s.noParent.get pBEAM f = s.get pBEAM f := by
  rw [State.noParent, get_set_off h, get_set_off h]

theorem get_noParent_parent : s.noParent.get pBEAM BEAM.MASTER_PARENT = 7 := by
  rw [State.noParent, get_set_bits (by rfl) (by decide) (by decide) (by decide) (by decide),
    get_set_same (by decide) (by decide)]
  rfl

theorem get_noParent_bits {f : Fld} (ho : f.off = BEAM.MASTER) (hf : f.lo ≤ f.hi) (hd : f.hi < 12 ∨ 23 < f.lo) :
    s.noParent.get pBEAM f = s.get pBEAM f := by
  rw [State.noParent, get_set_bits ho (by decide) (by decide) hf (by simp; omega),
    get_set_bits ho (by decide) (by decide) hf (by simp; omega)]

theorem beam_noParent : s.noParent.beam = s.beam := by rw [State.noParent, State.set_beam, State.set_beam]

theorem setMaster_cases {valid : Bool} {addr : Nat} :
    s.setMaster valid addr = ((s.setB pBEAM BEAM.MASTER_VALID valid).set pBEAM BEAM.MASTER_ADDR addr).ev pBEAM (blk 1) ∨
      s.setMaster valid addr = (s.setB pBEAM BEAM.MASTER_VALID valid).set pBEAM BEAM.MASTER_ADDR addr := by
  have e : s.setMaster valid addr =
      if decide (s.flag pBEAM BEAM.MASTER_VALID ≠ valid ∨ s.get pBEAM BEAM.MASTER_ADDR ≠ addr) then
        ((s.setB pBEAM BEAM.MASTER_VALID valid).set pBEAM BEAM.MASTER_ADDR addr).ev pBEAM (blk 1)
      else (s.setB pBEAM BEAM.MASTER_VALID valid).set pBEAM BEAM.MASTER_ADDR addr := rfl
  rw [e]
  split
  · exact .inl rfl
  · exact .inr rfl

theorem setMaster_changes {valid : Bool} {addr : Nat} (h : s.flag pBEAM BEAM.MASTER_VALID ≠ valid) :
    s.setMaster valid addr = ((s.setB pBEAM BEAM.MASTER_VALID valid).set pBEAM BEAM.MASTER_ADDR addr).ev pBEAM (blk 1) :=
  if_pos (decide_eq_true (.inl h))

/-- The fields of MASTER after a change of the master. -/
theorem get_masterWrite {valid : Bool} {addr : Nat} {f : Fld} (h' : f.off ≠ PG.EV_STAT) :
    (s.setMaster valid addr).get pBEAM f =
      ((s.setB pBEAM BEAM.MASTER_VALID valid).set pBEAM BEAM.MASTER_ADDR addr).get pBEAM f := by
  obtain e | e := setMaster_cases (s := s) (valid := valid) (addr := addr)
  · rw [e, get_ev h']
  · rw [e]

theorem get_setMaster_off {valid : Bool} {addr : Nat} {f : Fld} (h : f.off ≠ BEAM.MASTER) (h' : f.off ≠ PG.EV_STAT) :
    (s.setMaster valid addr).get pBEAM f = s.get pBEAM f := by
  rw [get_masterWrite h', get_set_off h, get_setB_off h]

theorem get_setMaster_bits {valid : Bool} {addr : Nat} {f : Fld} (ho : f.off = BEAM.MASTER) (hf : f.lo ≤ f.hi)
    (hl : 11 < f.lo) (hh : f.hi < 31) : (s.setMaster valid addr).get pBEAM f = s.get pBEAM f := by
  rw [get_masterWrite (by rw [ho]; decide), get_set_bits ho (by decide) (by decide) hf (.inr hl),
    get_setB_bits ho (by decide) (by decide) hf (.inl hh)]

theorem flag_setMaster_valid {valid : Bool} {addr : Nat} :
    (s.setMaster valid addr).flag pBEAM BEAM.MASTER_VALID = valid := by
  rw [State.flag, get_masterWrite (by decide), get_set_bits (by rfl) (by decide) (by decide) (by decide) (by decide)]
  exact flag_setB_same (by decide) (by decide)

theorem get_setMaster_addr {valid : Bool} {addr : Nat} (h : addr < 4096) :
    (s.setMaster valid addr).get pBEAM BEAM.MASTER_ADDR = addr := by
  rw [get_masterWrite (by decide), get_set_same (by decide) (by decide)]
  exact Nat.mod_eq_of_lt h

theorem beam_setMaster {valid : Bool} {addr : Nat} : (s.setMaster valid addr).beam = s.beam := by
  obtain e | e := setMaster_cases (s := s) (valid := valid) (addr := addr)
  · rw [e, State.ev_beam, State.set_beam, State.setB_beam]
  · rw [e, State.set_beam, State.setB_beam]

theorem isMaster_noParent : s.noParent.isMaster = s.isMaster := by
  rw [State.isMaster, State.isMaster, State.flag, State.flag, get_noParent_off (by decide)]

/-- Without a step that waits, a follower in FREE loses its parent and nothing else. -/
theorem loseParent_free (hs : s.beam.step = none) (hm : s.isMaster = false) (hl : s.get pBEAM BEAM.STAT_LOCK = 0) :
    s.loseParent = s.noParent := by
  have hl' : s.noParent.get pBEAM BEAM.STAT_LOCK = 0 := (get_noParent_off (by decide)).trans hl
  simp [State.loseParent, dropFollower_none hs, isMaster_noParent, hm, hl']

theorem loseParent_acquire (hs : s.beam.step = none) (hm : s.isMaster = false) (hl : s.get pBEAM BEAM.STAT_LOCK = 1) :
    s.loseParent = s.noParent.setLock 0 := by
  have hl' : s.noParent.get pBEAM BEAM.STAT_LOCK = 1 := (get_noParent_off (by decide)).trans hl
  simp [State.loseParent, dropFollower_none hs, isMaster_noParent, hm, hl']

theorem beamLockStates : Claims.BeamLockStates := by
  intro s lock loss enter
  refine ⟨fun hl ho hs => ?acquire, fun hl hm ho hc => ?coarse, fun hl hm => ?masterFine, fun hl hm ho => ?fineLoss,
    fun hl hh => ?holdover, fun t h h' => ?ends, fun h => if_pos h, fun hm hv hl hs => ?masterLost,
    fun hm hp hl hs => ?parentLost⟩
  case acquire =>
    have e : exec .acquireDwell s = .next (s.lockCheck (s.dropFollower.setLock 2)) := if_pos ⟨hl, ho⟩
    have h1 : s.fineLock = false := fineLock_of_lock (by rw [show s.get pBEAM BEAM.STAT_LOCK = 1 from hl]; decide)
    have h2 : (s.setLock 2).fineLock = false := fineLock_of_lock (by rw [get_setLock_same (by decide)]; decide)
    rw [e, dropFollower_none hs, lockCheck_below h1 h2, setLock_eq]
  case coarse =>
    have e : exec .coarseDwell s = .next (s.lockCheck (s.setLock 3)) := if_pos ⟨hl, by simp [hm], ho, hc⟩
    rw [e, setLock_eq]
  case masterFine =>
    have e : exec .masterFineDwell s = .next (s.lockCheck (s.setLock 3).refreshClass) := if_pos ⟨hl, hm⟩
    rw [e, setLock_eq]
  case fineLoss =>
    have e : exec .fineLossDwell s = .next (s.lockCheck (s.lockLoss.setLock 2)) := if_pos ⟨hl, by simp [hm], ho⟩
    rw [e, setLock_eq]
    rfl
  case holdover =>
    have e : exec .holdoverExpire s = .next (s.lockCheck ((s.set pBEAM BEAM.STAT_HOLDOVER 0).lockLoss.setLock 0)) :=
      if_pos ⟨hl, hh⟩
    rw [e, setLock_eq, State.lockLoss, reg_set_off (by decide)]
  case ends => simp [State.lockCheck, h, h']
  case masterLost =>
    have h7 : s.noParent.flag pBEAM BEAM.MASTER_VALID = true := by
      rw [State.flag, get_noParent_bits rfl (by decide) (by decide)]
      exact hv
    have e : exec .masterLoss s = .next (((s.noParent.setMaster false (s.get pBEAM BEAM.MASTER_ADDR))).setBeam
        { s.beam with heard := s.beam.heard.filter (fun t => !(t.addr == s.get pBEAM BEAM.MASTER_ADDR)) }) := by
      have e0 : exec .masterLoss s = if s.isMaster || !s.flag pBEAM BEAM.MASTER_VALID then .next s else
        .next (s.lockCheck ((s.loseParent.setMaster false (s.get pBEAM BEAM.MASTER_ADDR)).setBeam
          { (s.loseParent.setMaster false (s.get pBEAM BEAM.MASTER_ADDR)).beam with
            heard := (s.loseParent.setMaster false (s.get pBEAM BEAM.MASTER_ADDR)).beam.heard.filter
              (fun t => !(t.addr == s.get pBEAM BEAM.MASTER_ADDR)) })) := rfl
      rw [e0, hm, hv, if_neg (by decide), loseParent_free hs hm hl, beam_setMaster, beam_noParent, lockCheck_below]
      · exact fineLock_of_lock (by rw [show s.get pBEAM BEAM.STAT_LOCK = 0 from hl]; decide)
      · refine fineLock_of_lock ?_
        rw [get_setBeam, get_setMaster_off (by decide) (by decide), get_noParent_off (by decide),
          show s.get pBEAM BEAM.STAT_LOCK = 0 from hl]
        decide
    refine ⟨_, e, ?_, ?_, ?_, ?_, sameMem_of_exec rfl rfl e⟩
    · rw [flag_setBeam, flag_setMaster_valid]
    · rw [get_setBeam, get_setMaster_bits rfl (by decide) (by decide) (by decide), get_noParent_parent]
    · rw [get_setBeam, get_setMaster_addr get_lt]
    · rw [bit_setBeam, setMaster_changes (by rw [h7]; decide)]
      exact bit_ev (by decide)
  case parentLost =>
    have e : exec .parentLoss s = .next (s.noParent.setLock 0) := by
      have e0 : exec .parentLoss s = .next (s.lockCheck s.loseParent) := if_neg hp
      rw [e0, loseParent_acquire hs hm hl, lockCheck_below]
      · exact fineLock_of_lock (by rw [show s.get pBEAM BEAM.STAT_LOCK = 1 from hl]; decide)
      · exact fineLock_of_lock (by rw [get_setLock_same (by decide)]; decide)
    refine ⟨_, e, get_setLock_same (by decide), ?_, ?_, sameMem_of_exec rfl rfl e⟩
    · rw [get_setLock_off (by decide) (by decide), get_noParent_parent]
    · rw [State.corr, State.setLock, regS_ev (by decide), regS_set_off (by decide), State.noParent,
        regS_set_off (by decide), regS_set_off (by decide)]
      rfl

end

end Sys2Proof.Machine

/-! PROOFS. What the fabric's router leaves alone: moving parcels writes the fabric's records, what is sent and a few
counters (spec/17, R426 to R432). -/

namespace Sys2Proof.Machine

open Host (Outcome)

section

variable {s t u : State}

/-- The offsets of the words that the router may write, on whatever page. -/
def routerWords : List Nat :=
  [PG.INJ, PG.INJ_CNT, PG.ERR, PG.ERRCNT, PG.EV_STAT, FAB.RXOCC, FAB.CRED, FAB.TXCNT, FABR.ROUTE_CNT, FABR.NOROUTE_CNT,
    INJ.DELIV_CNT, INJ.DENIED_CNT, INJ.LAST, INJ.LAST_NS]

/-- The state without what the router's moves may change beside words. -/
def State.core (s : State) : State := { s with board := [], flinks := [], router := {}, out := [] }

/-- What the router's moves may change: words at those offsets, the fabric's records and what is sent. -/
structure Routed (s t : State) : Prop where
  words : ∀ q o, o < 4096 → o ∉ routerWords → t.word q o = s.word q o
  rest : t.core = s.core

theorem Routed.refl : Routed s s := ⟨fun _ _ _ _ => rfl, rfl⟩

theorem Routed.trans (h : Routed s t) (h' : Routed t u) : Routed s u where
  words q o ho hn := (h'.words q o ho hn).trans (h.words q o ho hn)
  rest := h'.rest.trans h.rest

theorem Routed.setWord {p o : Nat} {w : Word} (h : Routed s t) (ho : o ∈ routerWords) : Routed s (t.setWord p o w) := by
  refine h.trans ⟨fun q o' ho' hn => ?_, rfl⟩
  refine word_setWord_key (fun e => ?_)
  have hlt : o < 4096 := (by decide : ∀ o ∈ routerWords, o < 4096) o ho
  have e' : o' = o := by
    unfold bkey at e
    omega
  exact hn (e' ▸ ho)

theorem Routed.setReg {p o v : Nat} (h : Routed s t) (ho : o ∈ routerWords) : Routed s (t.setReg p o v) := h.setWord ho

theorem Routed.set {p v : Nat} {f : Fld} (h : Routed s t) (ho : f.off ∈ routerWords) : Routed s (t.set p f v) :=
  h.setWord ho

theorem Routed.ev {p i : Nat} (h : Routed s t) : Routed s (t.ev p i) :=
  h.setWord (o := PG.EV_STAT) (by decide)

theorem Routed.err {p i : Nat} (h : Routed s t) : Routed s (t.err p i) := by
  refine Routed.ev (i := 0) (Routed.setWord (o := PG.ERR) ?_ (by decide))
  split
  · exact h
  · exact h.set (by decide)

theorem Routed.incF {p n : Nat} {f : Fld} (h : Routed s t) (ho : f.off ∈ routerWords) : Routed s (t.incF p f n) :=
  h.set ho

theorem Routed.setFab {l : Nat} {x : FabX} (h : Routed s t) : Routed s (t.setFab l x) :=
  h.trans ⟨fun _ _ _ _ => rfl, rfl⟩

theorem Routed.setRouter {x : RouterX} (h : Routed s t) : Routed s (t.setRouter x) :=
  h.trans ⟨fun _ _ _ _ => rfl, rfl⟩

theorem Routed.send {x : Out} (h : Routed s t) : Routed s (t.send x) := h.trans ⟨fun _ _ _ _ => rfl, rfl⟩

theorem Routed.foldl {β : Type} {f : State → β → State} (hf : ∀ t x, Routed t (f t x)) (l : List β) (h : Routed s t) :
    Routed s (l.foldl f t) := by
  induction l generalizing t with
  | nil => exact h
  | cons x l ih => exact ih (h.trans (hf t x))

theorem Routed.get {p : Nat} {f : Fld} (h : Routed s t) (ho : f.off < 4096) (hn : f.off ∉ routerWords) :
    t.get p f = s.get p f := by
  rw [State.get, State.get, h.words p f.off ho hn]

theorem Routed.reg {p o : Nat} (h : Routed s t) (ho : o < 4096) (hn : o ∉ routerWords) : t.reg p o = s.reg p o := by
  rw [State.reg, State.reg, h.words p o ho hn]

theorem Routed.flag {p : Nat} {f : Fld} (h : Routed s t) (ho : f.off < 4096) (hn : f.off ∉ routerWords) :
    t.flag p f = s.flag p f := by
  rw [State.flag, State.flag, h.get ho hn]

theorem Routed.linkUp {l : Nat} (h : Routed s t) : t.linkUp l = s.linkUp l := by
  rw [State.linkUp, State.linkUp, State.fabSt, State.fabSt, h.get (by decide) (by decide)]

/-! ## The router's operations -/

theorem routed_injTake (s : State) (p k : Nat) : Routed s (s.injTake p k).2 := by
  unfold State.injTake
  split
  · exact .refl
  · split
    · exact .refl
    · split
      · exact (((Routed.refl.setReg (by decide)).err).setReg (by decide)).ev
      · exact (((((Routed.refl.set (by decide)).setReg (by decide)).setReg (by decide)).setReg (by decide)).setReg
          (by decide)).ev

theorem routed_setRx (s : State) (l : Nat) (r : List FabEntry) : Routed s (s.setRx l r) :=
  (Routed.refl.setFab).setReg (by decide)

theorem routed_addFreed (s : State) (l v n : Nat) : Routed s (s.addFreed l v n) := Routed.refl.setFab

theorem routed_sweep (s : State) (l : Nat) : Routed s (s.sweep l) := by
  unfold State.sweep
  extract_lets x gone t
  have h : Routed s t := by
    unfold t
    split
    · exact .refl
    · exact Routed.foldl (fun _ _ => routed_addFreed _ _ _ _) _ (routed_setRx _ _ _)
  clear_value t
  split
  · exact h
  · split
    · exact (h.setFab).send
    · exact h

theorem routed_setSrc (s : State) (j : Nat) (l : List FabEntry) : Routed s (s.setSrc j l) := by
  unfold State.setSrc
  split
  · exact (routed_setRx _ _ _).trans (routed_sweep _ _)
  · exact Routed.refl.setRouter

theorem routed_stageOne (s : State) (o v : Nat) : OptP (Routed s) (s.stageOne o v) := by
  unfold State.stageOne
  refine optP_findSome fun j => ?_
  extract_lets l
  split
  · exact OptP.none
  · split
    · exact OptP.none
    · split
      · exact OptP.some ((routed_setSrc _ _ _).setFab)
      · exact OptP.none

theorem routed_noteTime (s : State) (l : Nat) (p : Parcel) : Routed s (s.noteTime l p) := by
  unfold State.noteTime
  split
  · split
    · exact Routed.refl.setFab
    · exact .refl
  · exact .refl

theorem routed_transmit (s : State) (l i : Nat) (p : Parcel) : Routed s (s.transmit l i p) := by
  unfold State.transmit
  extract_lets x p0 p1 s1 s2 s3 r
  have h1 : Routed s s1 := Routed.refl.setFab
  have h2 : Routed s s2 := h1.trans (routed_noteTime _ _ _)
  have h3 : Routed s s3 := h2.setWord (by simp [credFld, routerWords])
  exact ((h3.setReg (by decide)).trans (routed_injTake _ _ _)).send

theorem routed_sendOne (s : State) (l : Nat) : OptP (Routed s) (s.sendOne l) := by
  unfold State.sendOne
  split
  · exact OptP.none
  · split
    case h_5 => exact OptP.some (Routed.refl.setFab.trans (routed_transmit _ _ _ _))
    case h_6 => exact OptP.none
    case h_1 | h_2 | h_3 | h_4 => exact OptP.some (routed_transmit _ _ _ _)

theorem routed_routerMove (s : State) : OptP (Routed s) s.routerMove := by
  unfold State.routerMove
  split
  · rename_i t e
    exact OptP.some (opt_some (e ▸ optP_findSome fun l => routed_sendOne s l))
  · refine optP_findSome fun o => optP_ite (optP_findSome fun v => routed_stageOne s o v) OptP.none

theorem routed_pumpLoop (n : Nat) (s : State) : Routed s (pumpLoop n s) := by
  induction n generalizing s with
  | zero => exact .refl
  | succ n ih =>
    unfold pumpLoop
    split
    · exact .refl
    · rename_i t e
      exact (routed_routerMove s t e).trans (ih t)

theorem routed_originate (s : State) (p : Parcel) : Routed s (s.originate p) := by
  unfold State.originate
  extract_lets x
  split
  · split
    · exact Routed.refl.setRouter
    · exact Routed.refl.send
  · exact Routed.refl.setRouter

theorem routed_unreach (s : State) (p : Parcel) : Routed s (s.unreach p) := by
  have h : Routed s (s.incF pFABR FABR.NOROUTE_CNT_UNREACH) := Routed.refl.incF (by decide)
  exact keeps_ite (P := Routed s) (routed_originate _ _) h

theorem routed_routeVia {s : State} {p : Parcel} {l : Nat} {b : Bool} {r : State × Option (Parcel × Nat × Bool)}
    (e : s.routeVia p l b = r) : Routed s r.1 := by
  have h : Routed s (s.incF pFABR FABR.ROUTE_CNT_DETOUR) := Routed.refl.incF (by decide)
  rw [State.routeVia] at e
  split at e
  · exact e ▸ .refl
  · split at e
    · exact e ▸ .refl
    · split at e
      · exact e ▸ .refl
      · generalize s.incF pFABR FABR.ROUTE_CNT_DETOUR = t at e h
        dsimp only at e
        split at e
        · exact e ▸ h
        · exact e ▸ h

theorem routed_routeOf (s : State) (p : Parcel) (l : Nat) : Routed s (s.routeOf p l).1 := routed_routeVia rfl

theorem routed_routeFresh (s : State) : Routed s s.routeFresh := by
  unfold State.routeFresh
  refine Routed.foldl (fun t e => ?_) _ Routed.refl.setRouter
  extract_lets add r1 r2
  have ha : ∀ e u, Routed u (add e u) := fun _ _ => Routed.refl.setRouter
  clear_value add r1
  split
  · exact ha _ _
  · split
    · split
      · exact .refl
      · exact ha _ _
    · split
      · exact (routed_routeOf _ _ _).trans (ha _ _)
      · exact (routed_routeOf _ _ _).trans (routed_unreach _ _)

theorem routed_pump (s : State) : Routed s s.pump := by
  unfold State.pump
  split
  · exact .refl
  · exact ((routed_routeFresh _).trans (routed_routeFresh _)).trans (routed_pumpLoop _ _)

theorem routed_fabSend (s : State) (kind dst : Nat) (b : FabBody) (len tag : Nat) (wake : Bool) :
    Routed s (s.fabSend kind dst b len tag wake) := (routed_originate _ _).trans (routed_pump _)

theorem routed_fabBytes (s : State) (kind dst : Nat) (l : List Nat) : Routed s (s.fabBytes kind dst l) :=
  routed_fabSend _ _ _ _ _ _ _

theorem routed_fabFlood (s : State) (kind radius : Nat) (l : List Nat) : Routed s (s.fabFlood kind radius l) :=
  (Routed.refl.setRouter.trans (routed_originate _ _)).trans (routed_pump _)

theorem routed_fabTime (s : State) (l info hops maddr : Nat) : Routed s (s.fabTime l info hops maddr) :=
  (Routed.refl.setFab.setRouter).trans (routed_pump _)

end

end Sys2Proof.Machine

/-! PROOFS. Election of the beam's master and the time messages (spec/03, R69 to R74, R434, R442). -/

namespace Sys2Proof.Machine

open Host (Outcome)

section

variable {s t : State}

/-! ## Fields of STAT and of the page after the parts of an election -/

theorem get_servoStart {f : Fld} : s.servoStart.get pBEAM f = s.get pBEAM f := get_setBeam

theorem setCmsn_low {b : Bool} (hl : s.get pBEAM BEAM.STAT_LOCK ≠ 3) :
    s.setCmsn b = s.setB pBEAM BEAM.STAT_CMSN_HOLD b := by
  simp [State.setCmsn, hl]

/-! ## A better tuple (R71, R442) -/

theorem takeMaster_other {u : Tuple} (hm : s.isMaster = false) (hu : u.addr ≠ s.ownAddr) :
    s.takeMaster u = (if s.flag pBEAM BEAM.MASTER_VALID ∧ s.get pBEAM BEAM.MASTER_ADDR = u.addr then s
      else s.noParent).setMaster true u.addr := by
  simp [State.takeMaster, hm, hu]

theorem get_takeMaster_other {u : Tuple} {f : Fld} (hm : s.isMaster = false) (hu : u.addr ≠ s.ownAddr)
    (h : f.off ≠ BEAM.MASTER) (h' : f.off ≠ PG.EV_STAT) : (s.takeMaster u).get pBEAM f = s.get pBEAM f := by
  rw [takeMaster_other hm hu, get_setMaster_off h h']
  split
  · rfl
  · exact get_noParent_off h

theorem fineLock_takeMaster_other {u : Tuple} (hm : s.isMaster = false) (hu : u.addr ≠ s.ownAddr) :
    (s.takeMaster u).fineLock = s.fineLock := by
  refine fineLock_congr fun f hf => get_takeMaster_other hm hu ?_ ?_
  · exact (by decide : ∀ f ∈ [BEAM.STAT_LOCK, BEAM.STAT_CMSN_HOLD, BEAM.STAT_STEP_PENDING], f.off ≠ BEAM.MASTER) f hf
  · exact (by decide : ∀ f ∈ [BEAM.STAT_LOCK, BEAM.STAT_CMSN_HOLD, BEAM.STAT_STEP_PENDING], f.off ≠ PG.EV_STAT) f hf

/-! ## Becoming master (R74) -/

/-- The state of a candidate that becomes master, before its own flags and lock state are set. -/
def State.crowned (s : State) : State :=
  let t := (s.set pBEAM BEAM.STAT_IS_MASTER 1).noParent.setMaster true s.ownAddr
  t.setBeam { t.beam with impPps := false, impPtp := false, settled := t.corr, discAt := t.beam.t }

theorem get_crowned {f : Fld} (ho : f.off = BEAM.STAT) (hf : f.lo ≤ f.hi) (hd : f.hi < 9 ∨ 9 < f.lo) :
    s.crowned.get pBEAM f = s.get pBEAM f := by
  rw [State.crowned, get_setBeam, get_setMaster_off (by rw [ho]; decide) (by rw [ho]; decide),
    get_noParent_off (by rw [ho]; decide), get_set_bits ho (by decide) (by decide) hf hd]

theorem isMaster_crowned : s.crowned.isMaster = true := by
  rw [State.crowned, State.isMaster, flag_setBeam, State.flag, get_setMaster_off (by decide) (by decide),
    get_noParent_off (by decide), get_set_same (by decide) (by decide)]
  rfl

theorem valid_crowned : s.crowned.flag pBEAM BEAM.MASTER_VALID = true := by
  rw [State.crowned, flag_setBeam, flag_setMaster_valid]

theorem time_crowned : s.crowned.beam.t = s.beam.t := by
  have e : ((s.set pBEAM BEAM.STAT_IS_MASTER 1).noParent.setMaster true s.ownAddr).beam = s.beam := by
    rw [beam_setMaster, beam_noParent, State.set_beam]
  rw [State.crowned, State.beam_setBeam, e]

theorem becomeMaster_low (hm : s.isMaster = false) (hs : s.beam.step = none) (hl : s.get pBEAM BEAM.STAT_LOCK ≠ 3) :
    s.becomeMaster =
      ((s.crowned.setB pBEAM BEAM.STAT_CMSN_HOLD (s.crowned.flag pBEAM BEAM.CTL_CMSN)).setLock 2).refreshClass := by
  have e : s.becomeMaster = if s.isMaster then s.setMaster true s.ownAddr else
    State.refreshClass (if (s.dropFollower.crowned.setCmsn (s.dropFollower.crowned.flag pBEAM BEAM.CTL_CMSN)).get pBEAM
        BEAM.STAT_LOCK = 3 then
      ((s.dropFollower.crowned.setCmsn (s.dropFollower.crowned.flag pBEAM BEAM.CTL_CMSN)).set pBEAM
        BEAM.STAT_HOLDOVER 0).setLock 3
      else (s.dropFollower.crowned.setCmsn (s.dropFollower.crowned.flag pBEAM BEAM.CTL_CMSN)).setLock 2) := rfl
  have h1 : s.crowned.get pBEAM BEAM.STAT_LOCK = s.get pBEAM BEAM.STAT_LOCK := get_crowned rfl (by decide) (by decide)
  rw [e, hm, if_neg Bool.false_ne_true, dropFollower_none hs, setCmsn_low (by rw [h1]; exact hl),
    get_setB_bits (by rfl) (by decide) (by decide) (by decide) (by decide), h1, if_neg hl]

theorem get_becomeMaster_lock (hm : s.isMaster = false) (hs : s.beam.step = none)
    (hl : s.get pBEAM BEAM.STAT_LOCK ≠ 3) : s.becomeMaster.get pBEAM BEAM.STAT_LOCK = 2 := by
  rw [becomeMaster_low hm hs hl, get_refreshClass_bits rfl (by decide) (by decide) (by decide),
    get_setLock_same (by decide)]

/-! ## Time messages (R69, R73, R434) -/

/-- The state once a time message's delay is taken and the message is kept. -/
def State.timeKept (s : State) (link : Nat) (m : TimeMsg) : State :=
  (s.delayTake link m).setBeam
    { s.beam with msgs := s.beam.msgs.set link (some (m.master, m.hops, s.offsetFrom link m)) }

theorem beam_delayTake {l : Nat} {m : TimeMsg} : (s.delayTake l m).beam = s.beam := by
  unfold State.delayTake
  split
  · rw [State.setReg_beam]
  · rfl

theorem beam_timeKept {l : Nat} {m : TimeMsg} : (s.timeKept l m).beam =
    { s.beam with msgs := s.beam.msgs.set l (some (m.master, m.hops, s.offsetFrom l m)) } := State.beam_setBeam

theorem get_timeKept {f : Fld} {l : Fin 4} {m : TimeMsg} (hf : f.off < 4096) :
    (s.timeKept l m).get pBEAM f = s.get pBEAM f := by
  rw [State.timeKept, get_setBeam, State.delayTake]
  split
  · exact get_setReg_page (by simp only [pBEAM, pFAB]; omega) hf (by decide)
  · rfl

theorem timeMessage_ignored {l : Fin 4} {m : TimeMsg}
    (h : s.isMaster = true ∨ s.flag pBEAM BEAM.MASTER_VALID = false ∨ m.master ≠ s.get pBEAM BEAM.MASTER_ADDR) :
    exec (.timeMessageRx l m) s = .next (s.timeKept l m) := by
  have hk : (s.timeKept l m).isMaster || !(s.timeKept l m).flag pBEAM BEAM.MASTER_VALID ||
      decide (m.master ≠ (s.timeKept l m).get pBEAM BEAM.MASTER_ADDR) := by
    rw [State.isMaster, State.flag, State.flag, get_timeKept (by decide), get_timeKept (by decide),
      get_timeKept (by decide)]
    rcases h with h | h | h
    · rw [State.isMaster, State.flag] at h
      rw [h]
      rfl
    · rw [State.flag] at h
      rw [h]
      simp
    · simp [h]
  have e : State.setBeam (s.delayTake l m) { (s.delayTake l m).beam with
      msgs := (s.delayTake l m).beam.msgs.set l (some (m.master, m.hops, s.offsetFrom l m)) } = s.timeKept l m := by
    rw [beam_delayTake]
    rfl
  unfold exec execTimeMessageRx
  simp only [e]
  exact if_pos hk

/-- The state of a follower that has adopted its parent's message, before its lock state is judged. -/
def State.followed (s : State) (l : Nat) (m : TimeMsg) : State :=
  (((((s.timeKept l m).set pBEAM BEAM.MASTER_PARENT l).set pBEAM BEAM.MASTER_HOPS (m.hops + 1)).setOffset
    (s.offsetFrom l m)).setB pBEAM BEAM.STAT_CMSN_HOLD m.cmsn).setB pBEAM BEAM.STAT_CROSS_SITE m.crossSite

/-- The end of holdover, where a message of the parent ends it. -/
def State.holdoverEnd (s : State) : State :=
  if s.flag pBEAM BEAM.STAT_HOLDOVER then (s.set pBEAM BEAM.STAT_HOLDOVER 0).ev pBEAM (blk 0) else s

theorem get_setOffset {x : Int} {f : Fld} (h : f.off ≠ BEAM.OFFSET) : (s.setOffset x).get pBEAM f = s.get pBEAM f := by
  rw [State.setOffset, get_setRegSat_off h, get_setBeam]

theorem beam_setOffset {x : Int} : (s.setOffset x).beam = { s.beam with offset := x } := by
  rw [State.setOffset, State.setRegSat_beam, State.beam_setBeam]

theorem beam_followed {l : Fin 4} {m : TimeMsg} : (s.followed l m).beam.offset = s.offsetFrom l m ∧
    (s.followed l m).beam.lastStep = s.beam.lastStep := by
  rw [State.followed, State.setB_beam, State.setB_beam, beam_setOffset, State.set_beam, State.set_beam, beam_timeKept]
  exact ⟨rfl, rfl⟩

/-- A field of STAT beside CMSN_HOLD and CROSS_SITE. -/
theorem get_followed {f : Fld} {l : Fin 4} {m : TimeMsg} (ho : f.off = BEAM.STAT) (hf : f.lo ≤ f.hi) (hd : f.hi < 14) :
    (s.followed l m).get pBEAM f = s.get pBEAM f := by
  have hs : f.off < 4096 := by
    rw [ho]
    decide
  rw [State.followed, get_setB_bits ho (by decide) (by decide) hf (.inl hd),
    get_setB_bits ho (by decide) (by decide) hf (.inl (Nat.lt_succ_of_lt hd)), get_setOffset (by rw [ho]; decide),
    get_set_off (by rw [ho]; decide), get_set_off (by rw [ho]; decide), get_timeKept hs]

theorem cmsn_followed {l : Fin 4} {m : TimeMsg} : (s.followed l m).flag pBEAM BEAM.STAT_CMSN_HOLD = m.cmsn := by
  rw [State.followed, flag_setB_bits (by rfl) (by decide) (by decide) (by decide) (by decide),
    flag_setB_same (by decide) (by decide)]

theorem get_holdoverEnd {f : Fld} (ho : f.off = BEAM.STAT) (hf : f.lo ≤ f.hi) (hd : f.hi < 7 ∨ 7 < f.lo) :
    s.holdoverEnd.get pBEAM f = s.get pBEAM f := by
  unfold State.holdoverEnd
  split
  · rw [get_ev (by rw [ho]; decide), get_set_bits ho (by decide) (by decide) hf hd]
  · rfl

theorem holdover_holdoverEnd : s.holdoverEnd.flag pBEAM BEAM.STAT_HOLDOVER = false := by
  unfold State.holdoverEnd
  split
  · rw [flag_ev (by decide), flag_set_same (by decide) (by decide)]
    rfl
  case isFalse h => simpa using h

theorem beam_holdoverEnd : s.holdoverEnd.beam = s.beam := by
  unfold State.holdoverEnd
  split
  · rw [State.ev_beam, State.set_beam]
  · rfl

/-- The rows that a small offset decides. -/
theorem offsetRows_small (h : s.beam.offset.natAbs ≤ 256000) : s.offsetRows =
    if s.get pBEAM BEAM.STAT_LOCK = 0 then s.servoStart.setLock 1 else s := by
  have hb : ¬256000 < s.beam.offset.natAbs := Nat.not_lt.mpr h
  have hf : s.followerStep = s := by simp [State.followerStep, hb]
  simp [State.offsetRows, hb, hf]

theorem get_offsetRows_small {f : Fld} (h : s.beam.offset.natAbs ≤ 256000) (ho : f.off = BEAM.STAT) (hf : f.lo ≤ f.hi)
    (hd : 1 < f.lo) : s.offsetRows.get pBEAM f = s.get pBEAM f := by
  rw [offsetRows_small h]
  split
  · rw [get_setLock_bits ho hf hd, get_servoStart]
  · rfl

theorem lock_offsetRows_small (h : s.beam.offset.natAbs ≤ 256000) (hl : s.get pBEAM BEAM.STAT_LOCK ≠ 3) :
    s.offsetRows.get pBEAM BEAM.STAT_LOCK ≠ 3 := by
  rw [offsetRows_small h]
  split
  · rw [get_setLock_same (by decide)]
    decide
  · exact hl

theorem offset_offsetRows_small (h : s.beam.offset.natAbs ≤ 256000) : s.offsetRows.beam.offset = s.beam.offset := by
  rw [offsetRows_small h]
  split
  · rw [State.setLock, State.ev_beam, State.set_beam, State.servoStart, State.beam_setBeam]
  · rfl

/-- The integrator's value that the servo takes (R73). -/
def State.servoInteg (s : State) : Int :=
  clampI (-(corrClamp * 1000000)) (corrClamp * 1000000)
    (s.beam.integ - (servoGains (decide (s.get pBEAM BEAM.STAT_LOCK = 3))).2 * s.beam.offset)

/-- The correction that the servo sets (R73). -/
def State.servoCorr (s : State) : Int :=
  let x := s.servoInteg - (servoGains (decide (s.get pBEAM BEAM.STAT_LOCK = 3))).1 * s.beam.offset
  clampI (-corrClamp) corrClamp (x / 1000000 + (if x % 1000000 = 0 then 0 else (s.free.1 % 2 : Nat)))

theorem servoCorr_mem : s.servoCorr.natAbs ≤ 200000000 := by
  have h : -corrClamp ≤ s.servoCorr ∧ s.servoCorr ≤ corrClamp := clampI_mem (by decide)
  simp only [corrClamp] at h
  omega

/-- The state once the servo's correction is set. -/
def State.served (s : State) : State :=
  (s.free.2.setBeam { s.beam with integ := s.servoInteg }).setRegSat pBEAM BEAM.CORR s.servoCorr

theorem get_served {f : Fld} (h : f.off ≠ BEAM.CORR) : s.served.get pBEAM f = s.get pBEAM f := by
  rw [State.served, get_setRegSat_off h, get_setBeam]
  exact get_eq_of_board rfl

theorem corr_served : s.served.corr = s.servoCorr := by
  have h := servoCorr_mem (s := s)
  exact regS_setRegSat (by omega) (by omega)

/-- Below FINE the servo sets the correction, and at the clamp its error. -/
theorem servo_low (hl : s.get pBEAM BEAM.STAT_LOCK ≠ 3) :
    s.servo = if s.servoCorr.natAbs = 200000000 then s.served.err pBEAM (blk 2) else s.served := by
  have h : ¬((s.served.err pBEAM (blk 2)).get pBEAM BEAM.STAT_LOCK = 3 ∧ !(s.served.err pBEAM (blk 2)).isMaster) := by
    rw [get_err (by decide) (by decide) (by decide), get_served (by decide)]
    exact fun h => hl h.1
  have e : s.servo = if s.servoCorr.natAbs = 200000000 then
      (if (s.served.err pBEAM (blk 2)).get pBEAM BEAM.STAT_LOCK = 3 ∧ !(s.served.err pBEAM (blk 2)).isMaster then
        ((s.served.err pBEAM (blk 2)).set pBEAM BEAM.STAT_CORR_LIMIT 1).lockLoss.setLock 2
      else s.served.err pBEAM (blk 2)) else s.served := rfl
  rw [e, if_neg h]

theorem get_servo_low {f : Fld} (hl : s.get pBEAM BEAM.STAT_LOCK ≠ 3) (ho : f.off = BEAM.STAT) :
    s.servo.get pBEAM f = s.get pBEAM f := by
  rw [servo_low hl]
  split
  · rw [get_err (by rw [ho]; decide) (by rw [ho]; decide) (by rw [ho]; decide), get_served (by rw [ho]; decide)]
  · rw [get_served (by rw [ho]; decide)]

theorem corr_servo_low (hl : s.get pBEAM BEAM.STAT_LOCK ≠ 3) : s.servo.corr = s.servoCorr := by
  rw [servo_low hl]
  split
  · exact (regS_err (by decide) (by decide) (by decide)).trans corr_served
  · exact corr_served

theorem offset_servo_low (hl : s.get pBEAM BEAM.STAT_LOCK ≠ 3) : s.servo.beam.offset = s.beam.offset := by
  have h : s.served.beam.offset = s.beam.offset := by
    rw [State.served, State.setRegSat_beam, State.beam_setBeam]
  rw [servo_low hl]
  split
  · rw [State.err_beam, h]
  · exact h

/-- A follower below FINE takes a message of its parent. -/
theorem timeMessage_parent {l : Fin 4} {m : TimeMsg} (hm : s.isMaster = false)
    (hv : s.flag pBEAM BEAM.MASTER_VALID = true) (ha : m.master = s.get pBEAM BEAM.MASTER_ADDR)
    (hp : s.get pBEAM BEAM.MASTER_PARENT = l.val) (hl : s.get pBEAM BEAM.STAT_LOCK ≠ 3) :
    exec (.timeMessageRx l m) s = .next (s.lockCheck (s.followed l m).holdoverEnd.offsetRows.servo) := by
  have e : State.setBeam (s.delayTake l m) { (s.delayTake l m).beam with
      msgs := (s.delayTake l m).beam.msgs.set l (some (m.master, m.hops, s.offsetFrom l m)) } = s.timeKept l m := by
    rw [beam_delayTake]
    rfl
  have hk : ¬((s.timeKept l m).isMaster || !(s.timeKept l m).flag pBEAM BEAM.MASTER_VALID ||
      decide (m.master ≠ (s.timeKept l m).get pBEAM BEAM.MASTER_ADDR)) = true := by
    rw [State.isMaster, State.flag, State.flag, get_timeKept (by decide), get_timeKept (by decide),
      get_timeKept (by decide)]
    rw [State.isMaster, State.flag] at hm
    rw [State.flag] at hv
    simp [hm, hv, ha]
  have hp' : (s.timeKept l m).get pBEAM BEAM.MASTER_PARENT = l.val := (get_timeKept (by decide)).trans hp
  have hadopt : (s.timeKept l m).adoptParent l m.hops =
      ((s.timeKept l m).set pBEAM BEAM.MASTER_PARENT l).set pBEAM BEAM.MASTER_HOPS (m.hops + 1) := by
    simp [State.adoptParent, hp']
  have hpar : (((s.timeKept l m).set pBEAM BEAM.MASTER_PARENT l).set pBEAM BEAM.MASTER_HOPS (m.hops + 1)).get pBEAM
      BEAM.MASTER_PARENT = l.val := by
    rw [get_set_bits (by rfl) (by decide) (by decide) (by decide) (by decide), get_set_same (by decide) (by decide)]
    exact Nat.mod_eq_of_lt (Nat.lt_trans l.isLt (by decide))
  have hlow : ((((s.timeKept l m).set pBEAM BEAM.MASTER_PARENT l).set pBEAM BEAM.MASTER_HOPS (m.hops + 1)).setOffset
      (s.offsetFrom l m)).get pBEAM BEAM.STAT_LOCK ≠ 3 := by
    rw [get_setOffset (by decide), get_set_off (by decide), get_set_off (by decide), get_timeKept (by decide)]
    exact hl
  have hf := setCmsn_low (b := m.cmsn) hlow
  unfold exec execTimeMessageRx
  simp only [e]
  rw [if_neg hk, hadopt, if_neg (not_not.mpr hpar), hf]
  rfl

/-! ## The obligation -/

/-- The time message that each link gets (R69). -/
def State.timeSend (s : State) (l : Nat) : State :=
  if s.linkUp l then
    s.fabTime l
      (s.get pBEAM BEAM.STAT_LOCK % 4 + 4 * s.get pBEAM BEAM.STAT_HOLDOVER + 8 * s.get pBEAM BEAM.STAT_CMSN_HOLD +
        16 * s.get pBEAM BEAM.STAT_CROSS_SITE + 32 * s.get pBEAM BEAM.STAT_IS_MASTER)
      (s.get pBEAM BEAM.MASTER_HOPS) (s.get pBEAM BEAM.MASTER_ADDR + 2 ^ 15 * s.get pBEAM BEAM.MASTER_VALID)
  else s

theorem routed_timeSend (s : State) (l : Nat) : Routed s (s.timeSend l) := by
  unfold State.timeSend
  split
  · exact routed_fabTime _ _ _ _ _
  · exact .refl

theorem timeSend_down {l : Nat} (h : s.linkUp l = false) : s.timeSend l = s := by
  simp [State.timeSend, h]

theorem linkUp_timeSend {l k : Nat} : (s.timeSend l).linkUp k = s.linkUp k := (routed_timeSend s l).linkUp

theorem linkUp_refreshClass {l : Nat} : s.refreshClass.linkUp l = s.linkUp l := by
  have hp : pFAB l ≠ pBEAM := by
    simp only [pBEAM, pFAB]
    omega
  have h : s.refreshClass.get (pFAB l) FAB.STAT_STATE = s.get (pFAB l) FAB.STAT_STATE := by
    obtain e | ⟨b, e⟩ := refreshClass_cases (s := s)
    · rw [e, get_set_page hp (by decide) (by decide)]
    · rw [e, State.setB, get_set_page hp (by decide) (by decide), get_set_page hp (by decide) (by decide)]
  rw [State.linkUp, State.linkUp, State.fabSt, State.fabSt, h]

theorem beamElection : Claims.BeamElection := by
  intro s u link m
  refine ⟨fun hc hk => ?tx, fun h => ?txNot, fun im early h => ?rx, fun hm hf hu ha hv ht hb => ?takeover,
    fun h => ?takeoverNot, fun hh hc hm hf hs hl => ?lowest, fun e he hm => ?master, fun hm hv ha hp hl ho => ?parent,
    fun h0 h1 h2 h3 => ?silent, fun b hb e => ?oneLink⟩
  case tx =>
    have e : exec .electTx s = if s.candidate && s.coordOk then .next (s.fabFlood kdELECT 0
      ([s.get pBEAM BEAM.CTL_PRIO, s.get pBEAM BEAM.STAT_CLASS] ++ leBytes 2 (s.get pFABR FABR.ADDR_CFG_ADDR) ++
        [0, 0, 0, 0])) else .next s := rfl
    rw [e, hc, hk]
    rfl
  case txNot =>
    have e : ¬(s.candidate && s.coordOk) = true := by
      rcases h with h | h <;> simp [h]
    exact if_neg e
  case rx =>
    have e : ¬((s.setBeam { s.beam with heard := s.beam.heard.filter (fun v => !(v.addr == u.addr)) ++ [u] }).flag pBEAM
        BEAM.MASTER_VALID && (im || early)) = true := by
      rw [flag_setBeam]
      rcases h with h | ⟨h, h'⟩
      · simp [h]
      · simp [h, h']
    exact if_neg e
  case takeover =>
    have e : exec (.masterTakeover u) s = .next (s.takeMaster u) := by
      have hl : s.lockCheck (s.takeMaster u) = s.takeMaster u :=
        lockCheck_below hf ((fineLock_takeMaster_other hm hu).trans hf)
      cases hx : s.tupleOf (s.get pBEAM BEAM.MASTER_ADDR) with
      | none => simp [exec, execMasterTakeover, hx, hv, ht, hl]
      | some v =>
        have hlt : tupleLt u v = true := by simpa [hx] using hb
        simp [exec, execMasterTakeover, hx, hv, ht, hl, hlt]
    refine ⟨_, e, ?_, ?_, sameMem_of_exec rfl rfl e⟩
    · rw [takeMaster_other hm hu, flag_setMaster_valid]
    · rw [takeMaster_other hm hu, get_setMaster_addr ha]
  case takeoverNot =>
    cases hx : s.tupleOf (s.get pBEAM BEAM.MASTER_ADDR) with
    | none => rcases h with h | h | h <;> simp [exec, execMasterTakeover, hx] at h ⊢ <;> simp [h]
    | some v => rcases h with h | h | h <;> simp [exec, execMasterTakeover, hx] at h ⊢ <;> simp [h]
  case lowest =>
    have hl3 : s.get pBEAM BEAM.STAT_LOCK ≠ 3 := by
      rw [hl]
      decide
    have hx : s.electLowest = s.becomeMaster := by
      have ht : s.takeMaster s.ownTuple = s.becomeMaster := if_pos ⟨rfl, hc⟩
      simp only [State.electLowest, hc, hh, if_true, List.append_nil, tupleMin]
      exact ht
    have e : exec .masterTake s = .next s.becomeMaster := by
      have e0 : exec .masterTake s = .next (s.lockCheck s.electLowest) := rfl
      rw [e0, hx, lockCheck_below hf (fineLock_of_lock (by rw [get_becomeMaster_lock hm hs hl3]; decide))]
    refine ⟨_, e, ?_, get_becomeMaster_lock hm hs hl3, ?_, ?_, sameMem_of_exec rfl rfl e⟩
    · rw [becomeMaster_low hm hs hl3, isMaster_refreshClass, State.isMaster, State.flag,
        get_setLock_bits rfl (by decide) (by decide), get_setB_bits (by rfl) (by decide) (by decide) (by decide) (by decide)]
      exact isMaster_crowned
    · rw [becomeMaster_low hm hs hl3, State.flag, get_refreshClass_off (by decide), get_setLock_off (by decide) (by decide),
        get_setB_off (by decide)]
      exact valid_crowned
    · rw [becomeMaster_low hm hs hl3, beam_refreshClass, State.setLock, State.ev_beam, State.set_beam, State.setB_beam,
        time_crowned]
  case master =>
    intro d
    have hd : s.linkDelay link m = some d := by
      rw [State.linkDelay, he]
      rfl
    have e := timeMessage_ignored (m := m) (l := link) (.inl hm)
    have ht : s.delayTake link m = s.setReg (pFAB link) FAB.DLY (clampI 0 0xFFFFFFFF d).toNat := by
      rw [State.delayTake, hd]
    refine ⟨_, e, fun h0 h1 => ?_, ?_, ?_, ?_, sameMem_of_exec rfl rfl e⟩
    · rw [State.timeKept, reg_setBeam, ht, reg_setReg_same, clampI_of_mem h0 (by omega)]
      omega
    · rw [beam_timeKept]
    · rw [beam_timeKept]
    · rw [State.timeKept, ht]
      exact (sameRegs_refl.setReg (by simp)).setBeam
  case parent =>
    have hof := beam_followed (s := s) (l := link) (m := m)
    have hb1 : (s.followed link m).holdoverEnd.beam.offset = s.offsetFrom link m := by rw [beam_holdoverEnd, hof.1]
    have hb2 : (s.followed link m).holdoverEnd.beam.offset.natAbs ≤ 256000 := by rw [hb1]; exact ho
    have hl1 : (s.followed link m).holdoverEnd.get pBEAM BEAM.STAT_LOCK ≠ 3 := by
      rw [get_holdoverEnd rfl (by decide) (by decide), get_followed rfl (by decide) (by decide)]
      exact hl
    have hl2 := lock_offsetRows_small hb2 hl1
    have hlock : ((s.followed link m).holdoverEnd.offsetRows.servo).get pBEAM BEAM.STAT_LOCK ≠ 3 := by
      rw [get_servo_low hl2 rfl]
      exact hl2
    have e := timeMessage_parent hm hv ha hp hl
    rw [lockCheck_below (fineLock_of_lock hl) (fineLock_of_lock hlock)] at e
    refine ⟨_, e, ?_, ?_, ?_, ?_, sameMem_of_exec rfl rfl e⟩
    · rw [offset_servo_low hl2, offset_offsetRows_small hb2, hb1]
    · rw [State.flag, get_servo_low hl2 rfl, get_offsetRows_small hb2 rfl (by decide) (by decide),
        get_holdoverEnd rfl (by decide) (by decide)]
      exact cmsn_followed
    · rw [State.flag, get_servo_low hl2 rfl, get_offsetRows_small hb2 rfl (by decide) (by decide)]
      exact holdover_holdoverEnd
    · rw [corr_servo_low hl2]
      exact servoCorr_mem
  case silent =>
    have e : exec .timeMessageTx s = .next ((List.range 4).foldl State.timeSend s.refreshClass) := rfl
    have h : ∀ i ∈ List.range 4, s.refreshClass.linkUp i = false := fun i hi => by
      rw [linkUp_refreshClass]
      have : i = 0 ∨ i = 1 ∨ i = 2 ∨ i = 3 := by
        have := List.mem_range.mp hi
        omega
      rcases this with rfl | rfl | rfl | rfl
      · exact h0
      · exact h1
      · exact h2
      · exact h3
    rw [e, foldl_none (c := State.linkUp) (fun _ _ => timeSend_down) _ h]
  case oneLink =>
    have e0 : exec .timeMessageTx s = .next ((List.range 4).foldl State.timeSend s.refreshClass) := rfl
    have h : ∀ i ∈ List.range 4, s.refreshClass.linkUp i = decide (i = link.val) := fun i hi => by
      rw [linkUp_refreshClass]
      exact hb i (List.mem_range.mp hi)
    have hup : b.linkUp link = true := by
      rw [e, linkUp_refreshClass, hb link link.isLt]
      exact decide_eq_true rfl
    rw [e0, foldl_one (c := State.linkUp) (fun _ _ => timeSend_down) _ (fun _ _ _ _ => linkUp_timeSend) List.nodup_range h,
       if_pos (List.mem_range.mpr link.isLt), ← e, State.timeSend,
      if_pos hup]

/-- Settles O22: the table of lock states, then election and time messages. -/
theorem beamLocks : Obligations.BeamLocks := ⟨beamLockStates, beamElection⟩

end

end Sys2Proof.Machine

/-! PROOFS. Steps of the beam (spec/03, R68, R79 to R81). -/

namespace Sys2Proof.Machine

open Host (Outcome)

section

variable {n : Nat} {s t u : State}

/-! ## Operations that leave the beam and the pages below theirs alone -/

/-- The beam's record and every word of the pages below `n` are as before. -/
structure SameBelow (n : Nat) (s t : State) : Prop where
  beam : t.beam = s.beam
  words : ∀ p o, p < n → o < 4096 → t.word p o = s.word p o

theorem SameBelow.refl : SameBelow n s s := ⟨rfl, fun _ _ _ _ => rfl⟩

theorem SameBelow.trans (h : SameBelow n s t) (h' : SameBelow n t u) : SameBelow n s u :=
  ⟨h'.beam.trans h.beam, fun p o hp ho => (h'.words p o hp ho).trans (h.words p o hp ho)⟩

theorem SameBelow.setWord {p o : Nat} {w : Word} (h : SameBelow n s t) (hp : n ≤ p) : SameBelow n s (t.setWord p o w) := by
  refine h.trans ⟨rfl, fun p' o' hp' ho' => word_setWord_key ?_⟩
  simp only [bkey]
  omega

theorem SameBelow.set {p v : Nat} {f : Fld} (h : SameBelow n s t) (hp : n ≤ p) : SameBelow n s (t.set p f v) := h.setWord hp

theorem SameBelow.ev {p i : Nat} (h : SameBelow n s t) (hp : n ≤ p) : SameBelow n s (t.ev p i) := h.setWord hp

theorem SameBelow.setReg {p o v : Nat} (h : SameBelow n s t) (hp : n ≤ p) : SameBelow n s (t.setReg p o v) := h.setWord hp

theorem SameBelow.foldl {β : Type} {f : State → β → State} (hf : ∀ t x, SameBelow n t (f t x)) (l : List β)
    (h : SameBelow n s t) : SameBelow n s (l.foldl f t) := by
  induction l generalizing t with
  | nil => exact h
  | cons x l ih => exact ih (h.trans (hf t x))

theorem SameBelow.get {p : Nat} {f : Fld} (h : SameBelow n s t) (hp : p < n) (ho : f.off < 4096) :
    t.get p f = s.get p f := by
  rw [State.get, State.get, h.words p f.off hp ho]

theorem SameBelow.reg {p o : Nat} (h : SameBelow n s t) (hp : p < n) (ho : o < 4096) : t.reg p o = s.reg p o := by
  rw [State.reg, State.reg, h.words p o hp ho]

theorem le_pACQ (hn : n ≤ 128) (k : Nat) : n ≤ pACQ k := by
  simp only [pACQ]
  omega

theorem sameBelow_trigLost (hn : n ≤ 128) (s : State) (k c m : Nat) : SameBelow n s (s.trigLost k c m) := by
  unfold State.trigLost
  split
  · exact .refl
  · exact (SameBelow.refl.set (le_pACQ hn k)).ev (le_pACQ hn k)

theorem sameBelow_showPend (hn : n ≤ 128) (s : State) (k c : Nat) : SameBelow n s (s.showPend k c) :=
  (SameBelow.refl.set (le_pACQ hn k)).set (le_pACQ hn k)

theorem sameBelow_setConv (s : State) (k c : Nat) (x : ConvX) : SameBelow n s (s.setConv k c x) :=
  ⟨State.setConv_beam, fun _ _ _ _ => rfl⟩

theorem sameBelow_acqStep (hn : n ≤ 128) (s : State) (t0 t1 : Nat) : SameBelow n s (s.acqStep t0 t1) := by
  unfold State.acqStep
  refine SameBelow.foldl (fun t e => ?_) _ ⟨rfl, fun _ _ _ _ => rfl⟩
  refine keeps_ite (P := SameBelow n t) .refl ?_
  exact ((sameBelow_setConv _ _ _ _).trans (sameBelow_trigLost hn _ _ _ _)).trans (sameBelow_showPend hn _ _ _)

theorem sameBelow_setMb (s : State) (k : Nat) (x : MbX) : SameBelow n s (s.setMb k x) :=
  ⟨State.setMb_beam, fun _ _ _ _ => rfl⟩

theorem sameBelow_timeRefAll (s : State) : SameBelow n s s.timeRefAll := by
  have ho : ∀ (t : State) k, SameBelow n t (t.offerNew k) := fun t k =>
    keeps_ite (P := SameBelow n t) (sameBelow_setMb _ _ _) .refl
  exact SameBelow.foldl (fun t k => keeps_ite (P := SameBelow n t) ((sameBelow_setMb t k _).trans (ho _ k)) .refl) _ .refl

theorem sameBelow_thermStep (s : State) : SameBelow n s s.thermStep := ⟨rfl, fun _ _ _ _ => rfl⟩

theorem sameBelow_setGen (s : State) (g : Nat) (x : GenX) : SameBelow n s (s.setGen g x) :=
  ⟨State.setGen_beam, fun _ _ _ _ => rfl⟩

theorem sameBelow_setRod (s : State) (k : Nat) (x : RodX) : SameBelow n s (s.setRod k x) :=
  ⟨State.setRod_beam, fun _ _ _ _ => rfl⟩

theorem sameBelow_startGen (hp : n ≤ pFRAME) (s : State) (g : Nat) : SameBelow n s (s.startGen g) := by
  unfold State.startGen
  exact ((((SameBelow.foldl (fun t k => sameBelow_setRod t k _) _ (sameBelow_setGen _ _ _)).setReg hp).set hp).set
    hp |>.set hp).ev hp

/-! ## A step that applies (R79 to R81) -/

/-- The beam's time after a step. -/
def State.stepTime (s : State) (k : StepWait) : Nat :=
  match k with
  | .follower => (((s.beam.t : Int) - s.beam.offset) % (2 ^ 48 * 256000000000 : Nat)).toNat
  | .reference _ d => (((s.beam.t : Int) + d) % (2 ^ 48 * 256000000000 : Nat)).toNat
  | .commissioning t => t

/-- The offset after a step. -/
def State.stepOffset (s : State) (k : StepWait) : Int :=
  match k with
  | .follower => 0
  | _ => s.beam.offset

/-- The beam's record after a step. -/
def State.steppedBeam (s : State) (k : StepWait) : BeamX :=
  { s.beam with
    t := s.stepTime k, rem := 0, step := none, lastStep := some (s.stepTime k), offset := s.stepOffset k, integ := 0
    impPps := s.beam.impPps || k.isRef true, impPtp := s.beam.impPtp || k.isRef false
    syncEdges := [], syncFrom := s.stepTime k, steps := s.beam.steps + 1 }

/-- The state with the beam stepped, before conversions and generators follow. -/
def State.stepped (s : State) (k : StepWait) : State :=
  ((((s.setBeam (s.steppedBeam k)).set pBEAM BEAM.STAT_STEP_PENDING 0).ev pBEAM (blk 3)).setRegSat pBEAM BEAM.OFFSET
    (s.stepOffset k))

theorem sameBelow_applyStep (s : State) (k : StepWait) : SameBelow 9 (s.stepped k) (s.applyStep k) := by
  have e : s.applyStep k = allGens.foldl (fun s g => if s.genRunning g then s.startGen g else s)
      ((s.stepped k).acqStep s.beam.t (s.stepTime k)).timeRefAll.thermStep := by
    cases k <;> rfl
  rw [e]
  exact SameBelow.foldl (fun t g => keeps_ite (P := SameBelow 9 t) (sameBelow_startGen (by decide) _ _) .refl) _
    (((sameBelow_acqStep (by decide) _ _ _).trans (sameBelow_timeRefAll _)).trans (sameBelow_thermStep _))

theorem beam_stepped {k : StepWait} : (s.stepped k).beam = s.steppedBeam k := by
  rw [State.stepped, State.setRegSat_beam, State.ev_beam, State.set_beam, State.beam_setBeam]

theorem natCast_toNat_emod (x : Int) : ((x % (2 ^ 48 * 256000000000 : Nat)).toNat : Int) = x % (2 ^ 48 * 256000000000) := by
  omega

theorem beamStepTakesTime : Claims.BeamStepTakesTime := by
  intro s k all t b
  have h := sameBelow_applyStep s k
  have hb : b = s.steppedBeam k := h.beam.trans beam_stepped
  have hp : t.flag pBEAM BEAM.STAT_STEP_PENDING = false := by
    rw [State.flag, h.get (by decide) (by decide), State.stepped, get_setRegSat_off (by decide), get_ev (by decide),
      get_set_same (by decide) (by decide)]
    rfl
  have he : t.bit pBEAM PG.EV_STAT 19 = true := by
    rw [State.bit, h.reg (by decide) (by decide), State.stepped, State.setRegSat, reg_setReg_off (by decide)]
    exact bit_ev (by decide)
  rw [hb]
  refine ⟨rfl, rfl, rfl, rfl, rfl, hp, he, ?_⟩
  cases k with
  | follower => exact ⟨natCast_toNat_emod _, rfl⟩
  | reference pps d =>
    refine ⟨natCast_toNat_emod _, rfl, ?_⟩
    cases pps <;> simp [State.steppedBeam, StepWait.isRef]
  | commissioning v => simp [State.steppedBeam, State.stepTime, State.stepOffset, StepWait.isRef]

/-! ## Steps called and applied (R68, R74, R80) -/

theorem callStep_off {k : StepWait} (h : s.gatesOff = true) : s.callStep k = s.applyStep k := if_pos h

theorem beamSteps : Claims.BeamSteps := by
  intro s wait recent
  have hw : ∀ k, s.gatesOff = false → s.callStep k = s.lockCheck (wait k) := fun k h => by
    simp [State.callStep, h, wait]
  have hrec : (match s.beam.lastStep with
      | some t => decide (t ≤ s.beam.t ∧ s.beam.t < t + 2560000000000)
      | none => false) = recent := by
    cases h : s.beam.lastStep <;> simp [recent, h]
  have hfol : s.followerStep = if decide (256000 < s.beam.offset.natAbs) && !recent && s.beam.step.isNone then
      (s.callStep .follower).ev pBEAM (blk 0) else s := by
    rw [← hrec]
    rfl
  have hp : ∀ k, (wait k).fineLock = false := fun k => by
    have h1 : (wait k).flag pBEAM BEAM.STAT_STEP_PENDING = true := flag_set_same (by decide) (by decide)
    simp [State.fineLock, h1]
  have e0 : exec (.beamStep .follower) s =
      .next (if s.get pBEAM BEAM.STAT_LOCK = 1 ∧ !s.isMaster then s.followerStep else s) := rfl
  refine ⟨fun hl hm hs ho hr => ?follower, fun h => ?notFollower, fun b d hm hl hv hi hs => ?reference,
    fun b d h => ?notReference, fun k hs hg => ?apply, fun k hs hg => ?wait, fun ha => ?set⟩
  case follower =>
    have hr' : recent = false := by simpa using hr
    have h1 : exec (.beamStep .follower) s = .next ((s.callStep .follower).ev pBEAM (blk 0)) := by
      rw [e0, if_pos ⟨hl, by simp [hm]⟩, hfol, hr', hs, decide_eq_true ho]
      rfl
    refine ⟨fun hg => ?_, fun hg hf => ?_⟩
    · rw [h1, callStep_off hg]
    · rw [h1, hw _ hg, lockCheck_below hf (hp _)]
  case notFollower =>
    rw [e0]
    by_cases hc : s.get pBEAM BEAM.STAT_LOCK = 1 ∧ !s.isMaster
    · rw [if_pos hc, hfol]
      rcases h with h | h | h | h
      · exact absurd hc.1 h
      · simp [h] at hc
      · simp [Nat.not_lt.mpr h]
      · simp [h]
    · rw [if_neg hc]
  case reference =>
    have h1 : exec (.beamStep (.reference b d)) s = .next (s.callStep (.reference b d)) := by
      have e1 : exec (.beamStep (.reference b d)) s = .next (s.importStep b d) := rfl
      rw [e1, State.importStep, hm, hv, hi, hs, decide_eq_true hl]
      rfl
    have hf : s.fineLock = false := fineLock_of_lock hl
    refine ⟨fun hg => ?_, fun hg => ?_⟩
    · rw [h1, callStep_off hg]
    · rw [h1, hw _ hg, lockCheck_below hf (hp _)]
  case notReference =>
    have e1 : exec (.beamStep (.reference b d)) s = .next (s.importStep b d) := rfl
    rw [e1]
    rcases h with h | h | h <;> simp [State.importStep, h]
  case apply => simp [exec, execStepApply, hs, hg]
  case wait => simp [exec, execStepApply, hs, hg]
  case set =>
    intro t
    have e1 : exec .beamSetApply s = .next (if (s.pg pBEAM).applyPending then
        (if (s.pg pBEAM).pending = [] then t else if t.isMaster then
          t.callStep (.commissioning (((t.reg pBEAM BEAM.SET_SEC_LO +
            t.reg pBEAM BEAM.SET_SEC_HI % 2 ^ 16 * 2 ^ 32) * 1000000000 + t.reg pBEAM BEAM.SET_NS) * 256))
        else t.err pBEAM (blk 0)) else s) := rfl
    rw [if_pos ha] at e1
    refine ⟨fun hn => ?_, fun hn hm => ?_, fun hn hm hg => ?_⟩
    · rw [e1, if_pos hn]
    · rw [e1, if_neg hn, hm]
      rfl
    · rw [e1, if_neg hn, if_pos hm, callStep_off hg]

/-- Settles O23: when a step is called and applied, and what it leaves. -/
theorem beamStepping : Obligations.BeamStepping := ⟨beamSteps, beamStepTakesTime⟩

end

end Sys2Proof.Machine

/-! PROOFS. Frames: carrier boundaries, generators, gangs and SAMPLE_SYNC_IN (spec/03, R83 to R89). -/

namespace Sys2Proof.Machine

open Host (Outcome)

section

variable {s t u : State} {g k : Nat}

/-! ## A generator that starts (R83, R86) -/

theorem gens_foldl_setRod {f : State → Nat → RodX} (l : List Nat) :
    (l.foldl (fun (s : State) n => s.setRod n (f s n)) s).gens = s.gens := by
  induction l generalizing s with
  | nil => rfl
  | cons x l ih => rw [List.foldl_cons, ih, State.setRod_gens]

theorem gen_eq_of_gens (h : t.gens = s.gens) : t.gen g = s.gen g := by rw [State.gen, State.gen, h]

/-- The period that is committed. -/
def State.genPer (s : State) (g : Nat) : Nat := s.get pFRAME ⟨FRAME.CG_PERIOD g, 21, 0⟩

/-- The number of the first boundary of a generator that starts. -/
def State.genFirst (s : State) (g : Nat) : Nat := gridFrom (s.anchor g) (s.genPer g) (s.beam.t + 640000)

/-- The record of a generator that starts. -/
def State.genStarted (s : State) (g : Nat) : GenX :=
  { s.gen g with
    next := s.anchor g * 256000000000 + s.genFirst g * s.genPer g * 40, k := s.genFirst g, period := s.genPer g
    mid := s.flag pFRAME (FRAME.CG_CTL_MID_EN g), loads := [], hist := [], gangStop := false }

theorem gen_startGen : (s.startGen g).gen g = s.genStarted g := by
  refine (gen_eq_of_gens (s := s.setGen g (s.genStarted g)) ?_).trans State.gen_setGen
  unfold State.startGen
  rw [State.ev_gens, State.set_gens, State.set_gens, State.set_gens, State.setReg_gens, gens_foldl_setRod]
  rfl

theorem gridFrom_le {a p t : Nat} (hp : 0 < p) : t ≤ a * 256000000000 + gridFrom a p t * (p * 40) := by
  have hp' : 0 < p * 40 := by omega
  simp only [gridFrom]
  split
  case isTrue h => omega
  case isFalse h =>
    have h1 := Nat.div_add_mod (t - a * 256000000000 + p * 40 - 1) (p * 40)
    have h2 := Nat.mod_lt (t - a * 256000000000 + p * 40 - 1) hp'
    rw [Nat.mul_comm] at h1
    omega

theorem gridFrom_nearest {a p t : Nat} (hp : 0 < p) (h : 0 < gridFrom a p t) :
    a * 256000000000 + gridFrom a p t * (p * 40) < t + p * 40 := by
  have hp' : 0 < p * 40 := by omega
  simp only [gridFrom] at h ⊢
  split at h
  case isTrue => omega
  case isFalse hc =>
    rw [if_neg hc]
    have h1 := Nat.div_mul_le_self (t - a * 256000000000 + p * 40 - 1) (p * 40)
    omega

/-- The fields of CG_STAT after a start. -/
theorem startGen_stat : ∃ u : State, s.startGen g = (((u.set pFRAME (FRAME.CG_STAT_RUNNING g) 1).set pFRAME
    (FRAME.CG_STAT_ANCHORED g) 1).set pFRAME (FRAME.CG_STAT_WAIT_LOCK g) 0).ev pFRAME 18 := ⟨_, rfl⟩

theorem statOff_ne_ev : (FRAME.CG_STAT g) ≠ PG.EV_STAT := by
  simp only [FRAME.CG_STAT, PG.EV_STAT]
  omega

/-- Settles O25: the first boundary is the first point of the grid that lies far enough ahead. -/
theorem frameStartOnGrid : Obligations.FrameStartOnGrid := by
  intro s g hp p a t x
  have hx : x = s.genStarted g := gen_startGen (s := s) (g := g.val)
  have hper : 0 < s.genPer g := hp
  have hn : x.next = a + x.k * p := by
    rw [hx]
    exact congrArg (s.anchor g * 256000000000 + ·) (Nat.mul_assoc _ _ _)
  have hk : x.k = s.genFirst g := by
    rw [hx]
    rfl
  obtain ⟨u, hu⟩ := startGen_stat (s := s) (g := g.val)
  refine ⟨hn, hn ▸ Nat.le_add_right _ _, ?_, fun h => ?_, ?_, ?_, ?_, ?_,
    keeps_State_startGen (k0_sameMem s) (sameMem_refl s)⟩
  · rw [hn, hk]
    exact gridFrom_le hper
  · rw [hk] at h
    rw [hn, hk]
    exact gridFrom_nearest hper h
  · show (s.startGen g).flag pFRAME _ = true
    rw [hu, flag_ev statOff_ne_ev, flag_set_bits (by rfl) (by simp) (by simp) (by simp) (by simp),
      flag_set_bits (by rfl) (by simp) (by simp) (by simp) (by simp), flag_set_same (by simp) (by simp)]
    rfl
  · show (s.startGen g).flag pFRAME _ = true
    rw [hu, flag_ev statOff_ne_ev, flag_set_bits (by rfl) (by simp) (by simp) (by simp) (by simp),
      flag_set_same (by simp) (by simp)]
    rfl
  · show (s.startGen g).flag pFRAME _ = false
    rw [hu, flag_ev statOff_ne_ev, flag_set_same (by simp) (by simp)]
    rfl
  · show (s.startGen g).bit pFRAME PG.EV_STAT 18 = true
    rw [hu]
    exact bit_ev (by decide)

/-! ## Boundaries (R83 to R86) -/

theorem mark_noLoads {x : GenX} (h : x.loads = []) : x.mark =
    { x with
      next := x.next + x.period * 40, k := x.k + 1, hist := (⟨x.next, x.period, x.mid⟩ :: x.hist).take 6
      marks := x.marks + 1 } := by
  cases x
  subst h
  rfl

theorem mark_load {x : GenX} {l : GenLoad} (h : x.loads = [l]) (hl : l.since ≤ x.next) : x.mark =
    { x with
      next := x.next + l.period * 40, k := x.k + 1, period := l.period, mid := l.mid, loads := []
      hist := (⟨x.next, l.period, l.mid⟩ :: x.hist).take 6, marks := x.marks + 1 } := by
  have hd : ¬x.next < l.since := Nat.not_lt.mpr hl
  simp [GenX.mark, h, hl, hd]

/-- The state of a boundary with CG_COUNT and ANCHORED shown. -/
def State.markShown (s : State) (g : Nat) : State :=
  if (s.gen g).mark.period = (s.gen g).period then s.setReg pFRAME (FRAME.CG_COUNT g) ((s.gen g).k % 2 ^ 32)
  else (s.setReg pFRAME (FRAME.CG_COUNT g) ((s.gen g).k % 2 ^ 32)).set pFRAME (FRAME.CG_STAT_ANCHORED g) 0

theorem markBoundary_eq : s.markBoundary g = ((s.markShown g).setGen g (s.gen g).mark).setReg pFRAME
    (FRAME.CG_NEXT_NS g) ((s.gen g).mark.next / 256 % 1000000000) := rfl

theorem gen_markBoundary : (s.markBoundary g).gen g = (s.gen g).mark := by
  rw [markBoundary_eq, gen_eq_of_gens State.setReg_gens, State.gen_setGen]

theorem reg_setGen {p o : Nat} {x : GenX} : (s.setGen g x).reg p o = s.reg p o := reg_eq_of_board State.setGen_board

theorem flag_setGen {p : Nat} {f : Fld} {x : GenX} : (s.setGen g x).flag p f = s.flag p f :=
  flag_eq_of_board State.setGen_board

theorem count_markBoundary : (s.markBoundary g).reg pFRAME (FRAME.CG_COUNT g) = (s.gen g).k % 2 ^ 32 := by
  have h1 : FRAME.CG_COUNT g ≠ FRAME.CG_NEXT_NS g := by simp only [FRAME.CG_COUNT, FRAME.CG_NEXT_NS]; omega
  have h2 : FRAME.CG_COUNT g ≠ (FRAME.CG_STAT_ANCHORED g).off := by simp only [FRAME.CG_COUNT, FRAME.CG_STAT]; omega
  rw [markBoundary_eq, reg_setReg_off h1, reg_setGen, State.markShown]
  split
  · rw [reg_setReg_same, Nat.mod_mod]
  · rw [reg_set_off h2, reg_setReg_same, Nat.mod_mod]

theorem next_markBoundary :
    (s.markBoundary g).reg pFRAME (FRAME.CG_NEXT_NS g) = (s.gen g).mark.next / 256 % 1000000000 := by
  rw [markBoundary_eq, reg_setReg_same]
  omega

theorem anchored_markBoundary (h : (s.gen g).mark.period ≠ (s.gen g).period) :
    (s.markBoundary g).flag pFRAME (FRAME.CG_STAT_ANCHORED g) = false := by
  have h1 : (FRAME.CG_STAT_ANCHORED g).off ≠ FRAME.CG_NEXT_NS g := by simp only [FRAME.CG_STAT, FRAME.CG_NEXT_NS]; omega
  rw [markBoundary_eq, flag_setReg_off h1, flag_setGen, State.markShown, if_neg h, flag_set_same (by simp) (by simp)]
  rfl

theorem sameRegs_markBoundary (h : (s.gen g).mark.period = (s.gen g).period) : SameRegs s (s.markBoundary g)
    [(pFRAME, FRAME.CG_COUNT g), (pFRAME, FRAME.CG_NEXT_NS g)] := by
  rw [markBoundary_eq, State.markShown, if_pos h]
  exact ((sameRegs_refl.setReg (by simp)).of_board State.setGen_board).setReg (by simp)

theorem carrierBoundary_due {g : Fin 24} (hr : s.genRunning g = true) (h : (s.gen g).next ≤ s.beam.t) :
    exec (.carrierBoundary g none) s = .next (s.markBoundary g) := by
  simp only [exec, execCarrierBoundary, hr, h, decide_true, Bool.and_self, if_true]

theorem frameBoundaries : Claims.FrameBoundaries := by
  intro s g n hr x p
  refine ⟨fun hd hl => ?plain, fun l hd hl hs => ?load, fun hd => ?early, fun hg => ⟨fun e h => ?_, fun h => ?_,
    fun e h => ?_, fun h => ?_⟩⟩
  case plain =>
    have hm : (s.gen g).mark = _ := mark_noLoads hl
    have hp : (s.gen g).mark.period = (s.gen g).period := by rw [hm]
    have hn : (s.gen g).mark.next = x.next + p * 40 := by rw [hm]
    have e := carrierBoundary_due hr hd
    refine ⟨_, e, fun hh => ?_, count_markBoundary, ?_, ?_, ?_, ?_, ?_, sameRegs_markBoundary hp,
      sameMem_of_exec rfl rfl e⟩
    · have hh' : (s.gen g).hist = [] := hh
      have hd' : (s.gen g).next ≤ s.beam.t := hd
      simp [exec, execCgStart, hr, hh', hd']
    · rw [gen_markBoundary, hm]
    · rw [gen_markBoundary, hn]
    · rw [gen_markBoundary, hp]
    · rw [gen_markBoundary, hm]
    · rw [next_markBoundary, hn]
  case load =>
    have hm : (s.gen g).mark = _ := mark_load hl hs
    have hp : (s.gen g).mark.period = l.period := by rw [hm]
    have e := carrierBoundary_due hr hd
    refine ⟨_, e, ?_, ?_, ?_, ?_, fun hne => anchored_markBoundary ?_, sameMem_of_exec rfl rfl e⟩
    · rw [gen_markBoundary, hp]
    · rw [gen_markBoundary, hm]
    · rw [gen_markBoundary, hm]
    · rw [gen_markBoundary, hm]
    · rw [hp]
      exact hne
  case early =>
    have hd' : ¬(s.gen g).next ≤ s.beam.t := Nat.not_le.mpr hd
    simp [exec, execCarrierBoundary, execCgStart, hd']
  · simp [exec, execCarrierBoundary, hg, State.takeFrame, h]
  · simp [exec, execCarrierBoundary, hg, State.takeFrame, h]
  · simp [exec, execMidFrame, hg, State.takeMid, h]
  · simp [exec, execMidFrame, hg, State.takeMid, h]

/-! ## Gangs (R85, R88) -/

/-- The announcement of a generator that gangs across devices. -/
def State.gangSend (s : State) (g : Nat) : State :=
  if s.flag pFRAME (FRAME.CG_CTL_CROSS g) then
    s.fabFlood kdGANG 0 (leBytes 4 (s.get pFRAME (FRAME.CG_CTL_GANG_ID g)) ++
      leBytes 4 (s.reg pFRAME (FRAME.CG_PERIOD g)) ++ leBytes 8 (s.anchor g))
  else s

/-- What a generator does with an announcement of its gang. -/
def State.gangHear (id period anchor : Nat) (s : State) (g : Nat) : State :=
  if s.flag pFRAME (FRAME.CG_CTL_CROSS g) ∧ s.get pFRAME (FRAME.CG_CTL_GANG_ID g) = id ∧
      (s.reg pFRAME (FRAME.CG_PERIOD g) ≠ period ∨ s.anchor g ≠ anchor) then
    let s := s.set pFRAME (FRAME.CG_STAT_GANG_MISMATCH g) 1
    let s := (s.err pFRAME (blk 3)).ev pFRAME (blk 1)
    if s.genRunning g then s
    else (s.setGen g { s.gen g with gangStop := true }).set pFRAME (FRAME.CG_STAT_WAIT_LOCK g) 0
  else s

/-- Whether a generator gangs across devices. -/
def State.crosses (s : State) (g : Nat) : Bool := s.flag pFRAME (FRAME.CG_CTL_CROSS g)

theorem ctl_ne_stat {j : Nat} : FRAME.CG_CTL k ≠ FRAME.CG_STAT j := by
  simp only [FRAME.CG_CTL, FRAME.CG_STAT]
  omega

theorem ctl_ne {o : Nat} (h : o < 256) : FRAME.CG_CTL k ≠ o := by
  simp only [FRAME.CG_CTL]
  omega

theorem stat_ne {o : Nat} (h : o < 256) : FRAME.CG_STAT k ≠ o := by
  simp only [FRAME.CG_STAT]
  omega

theorem crosses_set_stat {f : Fld} {v : Nat} (h : f.off = FRAME.CG_STAT g) : (s.set pFRAME f v).crosses k = s.crosses k :=
  flag_set_off (by rw [h]; exact ctl_ne_stat)

theorem crosses_gangHear (id period anchor : Nat) : (s.gangHear id period anchor g).crosses k = s.crosses k := by
  have h1 : (((s.set pFRAME (FRAME.CG_STAT_GANG_MISMATCH g) 1).err pFRAME (blk 3)).ev pFRAME (blk 1)).crosses k =
      s.crosses k := by
    rw [State.crosses, flag_ev (ctl_ne (by decide)), flag_err (ctl_ne (by decide)) (ctl_ne (by decide))
      (ctl_ne (by decide))]
    exact crosses_set_stat rfl
  have h2 : ∀ (t : State) x, ((t.setGen g x).set pFRAME (FRAME.CG_STAT_WAIT_LOCK g) 0).crosses k = t.crosses k :=
    fun t x => (crosses_set_stat rfl).trans flag_setGen
  unfold State.gangHear
  split
  · dsimp only
    split
    · exact h1
    · exact (h2 _ _).trans h1
  · rfl

theorem crosses_gangSend (hk : k < 24) : (s.gangSend g).crosses k = s.crosses k := by
  unfold State.gangSend
  split
  · exact (routed_fabFlood _ _ _ _).flag (by simp only [FRAME.CG_CTL]; omega)
      (fun h => (by decide : ∀ o ∈ routerWords, o < 256) _ h |>.not_ge (by simp only [FRAME.CG_CTL]; omega))
  · rfl

theorem genRunning_mismatch : (((s.set pFRAME (FRAME.CG_STAT_GANG_MISMATCH g) 1).err pFRAME (blk 3)).ev pFRAME
    (blk 1)).genRunning g = s.genRunning g := by
  rw [State.genRunning, flag_ev (stat_ne (by decide)), flag_err (stat_ne (by decide)) (stat_ne (by decide))
    (stat_ne (by decide)), flag_set_bits (by rfl) (by simp) (by simp) (by simp) (by simp)]
  rfl

/-! ## SAMPLE_SYNC_IN (R89) -/

theorem sameBelow_showConv {n : Nat} (hn : n ≤ 128) (s : State) (k c : Nat) : SameBelow n s (s.showConv k c) := by
  have hq := le_pACQ hn k
  have hf : n ≤ pFDC k := by simp only [pFDC]; omega
  unfold State.showConv
  refine SameBelow.trans (t := if s.convAwake k c then _ else _) ?_ (sameBelow_showPend hn _ _ _)
  refine keeps_ite (P := SameBelow n s) ?_ (SameBelow.trans ?_ (sameBelow_setConv _ _ _ _))
  all_goals
    exact (((((((SameBelow.refl.set hq).set hq).set hq).set hq).set hq).set hq).set hf)

theorem sameBelow_trigger {n : Nat} (hn : n ≤ 128) (s : State) (k c : Nat) (e : TrigAt) :
    SameBelow n s (s.trigger k c e) := by
  have hs := fun x => sameBelow_setConv (n := n) s k c x
  refine keeps_ite (P := SameBelow n s) .refl (keeps_ite (P := SameBelow n s) ?_ ?_)
  · exact (hs _).trans (sameBelow_showConv hn _ _ _)
  · exact ((hs _).trans (sameBelow_trigLost hn _ _ _ _)).trans (sameBelow_showPend hn _ _ _)

theorem sameBelow_syncTrigs {n : Nat} (hn : n ≤ 128) (s : State) (u : Nat) :
    SameBelow n s (allConvs.foldl (fun s e => s.trigOn 4 e.1 e.2 u (gridAt (u + 6400))) s) := by
  refine SameBelow.foldl (fun t e => SameBelow.foldl (fun t j => ?_) _ .refl) _ .refl
  exact keeps_ite (P := SameBelow n t) (sameBelow_trigger hn _ _ _ _) .refl

theorem get_incF_same {p n : Nat} {f : Fld} (h : f.lo ≤ f.hi) (h32 : f.hi < 32) :
    (s.incF p f n).get p f = min (s.get p f + n) (2 ^ f.width - 1) := by
  rw [State.incF, get_set_same h h32]
  have : 0 < 2 ^ f.width := Nat.two_pow_pos _
  exact Nat.mod_eq_of_lt (by omega)

theorem gangSend_alone (h : s.crosses g = false) : s.gangSend g = s := by
  rw [State.crosses] at h
  simp [State.gangSend, h]

theorem gangHear_alone {id period anchor : Nat} (h : s.crosses g = false) : s.gangHear id period anchor g = s := by
  rw [State.crosses] at h
  simp [State.gangHear, h]

/-- The state once a missed edge is counted. -/
def State.syncMissed (s : State) (b : Nat) : State :=
  ((s.setBeam { s.beam with syncFrom := b }).incF pFRAME ⟨FRAME.SYNC_MISS, 23, 16⟩).incF pFRAME ⟨FRAME.SYNC_MISS, 15, 0⟩

theorem beam_syncMissed {b : Nat} : (s.syncMissed b).beam = { s.beam with syncFrom := b } := by
  rw [State.syncMissed, State.incF_beam, State.incF_beam, State.beam_setBeam]

theorem low_syncMissed {b : Nat} : (s.syncMissed b).get pFRAME ⟨FRAME.SYNC_MISS, 15, 0⟩ =
    min (s.get pFRAME ⟨FRAME.SYNC_MISS, 15, 0⟩ + 1) 0xFFFF := by
  rw [State.syncMissed, get_incF_same (by decide) (by decide), State.incF,
    get_set_bits (by rfl) (by decide) (by decide) (by decide) (by decide), get_eq_of_board State.setBeam_board]
  rfl

theorem high_syncMissed {b : Nat} : (s.syncMissed b).get pFRAME ⟨FRAME.SYNC_MISS, 23, 16⟩ =
    min (s.get pFRAME ⟨FRAME.SYNC_MISS, 23, 16⟩ + 1) 0xFF := by
  rw [State.syncMissed, State.incF, get_set_bits (by rfl) (by decide) (by decide) (by decide) (by decide),
    get_incF_same (by decide) (by decide), get_eq_of_board State.setBeam_board]
  rfl

/-- R89: a window that closes without an edge counts; eight in a row lose the input. -/
theorem syncMiss_counts {b : Nat} (hu : s.syncInUse = true) (hb : s.syncBounds.find? (fun b =>
    decide (s.beam.syncFrom < b ∧ (s.syncWin : Int) < s.syncOff s.beam.t b) &&
      !s.beam.syncEdges.any (fun e => e.1 == b)) = some b) :
    ∃ t, exec .syncMiss s = .next t ∧ t.beam.syncFrom = b ∧
      t.get pFRAME ⟨FRAME.SYNC_MISS, 15, 0⟩ = min (s.get pFRAME ⟨FRAME.SYNC_MISS, 15, 0⟩ + 1) 0xFFFF ∧
      t.get pFRAME ⟨FRAME.SYNC_MISS, 23, 16⟩ = min (s.get pFRAME ⟨FRAME.SYNC_MISS, 23, 16⟩ + 1) 0xFF ∧
      (s.get pFRAME ⟨FRAME.SYNC_MISS, 23, 16⟩ < 7 → t.beam.syncLost = s.beam.syncLost) ∧
      (7 ≤ s.get pFRAME ⟨FRAME.SYNC_MISS, 23, 16⟩ →
        t.beam.syncLost = true ∧ t.bit pFRAME PG.ERR 20 = true ∧ t.bit pFRAME PG.EV_STAT 16 = true) ∧ SameMem s t := by
  have e : exec .syncMiss s = if 8 ≤ (s.syncMissed b).get pFRAME ⟨FRAME.SYNC_MISS, 23, 16⟩ then
      .next ((((s.syncMissed b).setBeam { (s.syncMissed b).beam with syncLost := true }).err pFRAME (blk 4)).ev pFRAME
        (blk 0)) else .next (s.syncMissed b) := by
    unfold exec execSyncMiss
    rw [hb]
    dsimp only
    rw [if_pos hu]
    rfl
  rw [high_syncMissed] at e
  by_cases h7 : 7 ≤ s.get pFRAME ⟨FRAME.SYNC_MISS, 23, 16⟩
  · rw [if_pos (by omega)] at e
    refine ⟨_, e, ?_, ?_, ?_, fun h => absurd h7 (Nat.not_le.mpr h), fun _ => ⟨?_, ?_, ?_⟩, sameMem_of_exec rfl rfl e⟩
    · rw [State.ev_beam, State.err_beam, State.beam_setBeam, beam_syncMissed]
    · rw [get_ev (by decide), get_err (by decide) (by decide) (by decide), get_eq_of_board State.setBeam_board,
        low_syncMissed]
    · rw [get_ev (by decide), get_err (by decide) (by decide) (by decide), get_eq_of_board State.setBeam_board,
        high_syncMissed]
    · rw [State.ev_beam, State.err_beam, State.beam_setBeam]
    · rw [bit_ev_off (by decide)]
      exact bit_err (by decide)
    · exact bit_ev (by decide)
  · rw [if_neg (by omega)] at e
    refine ⟨_, e, ?_, low_syncMissed, high_syncMissed, fun _ => ?_, fun h => absurd h h7, sameMem_of_exec rfl rfl e⟩
    · rw [beam_syncMissed]
    · rw [beam_syncMissed]

theorem frameGangs : Claims.FrameGangs := by
  intro s g
  refine ⟨fun hw hf hm => ?start, fun h => ?startNot, fun h => ?send, fun id per anchor h hi hp hr => ?hear,
    fun hr => ?clear, fun u b hu hb he ho => ?edge, fun u hb => ?noEdge, fun b hu hb => ?miss⟩
  case start => simp [exec, execCgLockStart, hw, hf, State.tryStartGen, hm]
  case startNot =>
    rcases h with h | h <;> simp [exec, execCgLockStart, h]
  case send =>
    have e : exec .gangTx s = .next ((List.range 24).foldl State.gangSend s) := rfl
    rw [e, foldl_one (c := State.crosses) (fun _ _ => gangSend_alone) _
      (fun _ _ _ hj => crosses_gangSend (List.mem_range.mp hj)) List.nodup_range (fun i hi => h i (List.mem_range.mp hi)),
      if_pos (List.mem_range.mpr g.isLt)]
    exact congrArg Outcome.next (if_pos ((h g g.isLt).trans (decide_eq_true rfl)))
  case hear =>
    have e : exec (.gangRx id per anchor) s = .next ((List.range 24).foldl (State.gangHear id per anchor) s) := rfl
    have hg : s.flag pFRAME (FRAME.CG_CTL_CROSS g) = true := (h g g.isLt).trans (decide_eq_true rfl)
    rw [e, foldl_one (f := State.gangHear id per anchor) (c := State.crosses) (fun _ _ => gangHear_alone) _ (fun _ _ _ _ => crosses_gangHear _ _ _)
      List.nodup_range (fun i hi => h i (List.mem_range.mp hi)), if_pos (List.mem_range.mpr g.isLt), State.gangHear,
      if_pos ⟨hg, hi, .inl hp⟩]
    dsimp only
    rw [if_pos (genRunning_mismatch.trans hr)]
  case clear =>
    have hr' : (s.set pFRAME (FRAME.CG_STAT_GANG_MISMATCH g) 0).genRunning g = true :=
      (flag_set_bits (by rfl) (by simp) (by simp) (by simp) (by simp)).trans hr
    have hx : (s.set pFRAME (FRAME.CG_STAT_GANG_MISMATCH g) 0).gen g = s.gen g := gen_eq_of_gens State.set_gens
    have hs : ∀ x, ((s.set pFRAME (FRAME.CG_STAT_GANG_MISMATCH g) 0).setGen g x).genRunning g = true := fun x =>
      flag_setGen.trans hr'
    simp only [exec, execGangMismatchClear, hx, hs, Bool.not_true, Bool.and_false, Bool.false_eq_true, if_false]
  case edge =>
    have hsa : s.syncAccept u = ((s.setBeam { s.beam with syncEdges := ((b, u) :: s.beam.syncEdges).take 8 }).setReg
        pFRAME FRAME.SYNC_ERR (encSat 16 (s.syncOff u b))).set pFRAME ⟨FRAME.SYNC_MISS, 23, 16⟩ 0 := by
      rw [State.syncAccept, hb]
      dsimp only
      rw [hu, he]
      rfl
    have e : exec (.sampleSyncEdge u) s = .next (allConvs.foldl
      (fun s e => s.trigOn 4 e.1 e.2 u (gridAt (u + 6400))) (s.syncAccept u)) := rfl
    have hk := sameBelow_syncTrigs (n := 10) (by decide) (s.syncAccept u) u
    refine ⟨_, e, ?_, ?_, ?_, ?_, sameMem_of_exec rfl rfl e⟩
    · have hlt : encSat 16 (s.syncOff u b) = enc 16 (s.syncOff u b) := encSat_eq_enc (by omega) (by omega)
      have hl16 : enc 16 (s.syncOff u b) < 2 ^ 16 := enc_lt
      rw [State.getS, hk.get (by decide) (by decide), hsa, get_set_off (by decide), get_setReg_same (by rfl), hlt]
      simp only [Fld.width]
      rw [show enc 16 (s.syncOff u b) % 2 ^ 32 / 2 ^ 0 % 2 ^ (15 + 1 - 0) = enc 16 (s.syncOff u b) by omega]
      exact sxt_enc (by decide) (by omega) (by omega)
    · rw [hk.get (by decide) (by decide), hsa, get_set_same (by decide) (by decide)]
      rfl
    · rw [hk.get (by decide) (by decide), hsa, get_set_bits (by rfl) (by decide) (by decide) (by decide) (by decide),
        get_setReg_off (by decide), get_eq_of_board State.setBeam_board]
    · rw [hk.beam, hsa, State.set_beam, State.setReg_beam, State.beam_setBeam]
  case noEdge =>
    have hsa : s.syncAccept u = s := by rw [State.syncAccept, hb]
    have e : exec (.sampleSyncEdge u) s = .next (allConvs.foldl
      (fun s e => s.trigOn 4 e.1 e.2 u (gridAt (u + 6400))) s) := by
      have e0 : exec (.sampleSyncEdge u) s = .next (allConvs.foldl
        (fun s e => s.trigOn 4 e.1 e.2 u (gridAt (u + 6400))) (s.syncAccept u)) := rfl
      rw [e0, hsa]
    exact ⟨_, e, (sameBelow_syncTrigs (n := 10) (by decide) s u).beam, sameMem_of_exec rfl rfl e⟩
  case miss => exact syncMiss_counts hu hb

/-- Settles O24: boundaries and rods' frames, then gangs and the sync input. -/
theorem frames : Obligations.Frames := ⟨frameBoundaries, frameGangs⟩

end

end Sys2Proof.Machine

/-! PROOFS. Modulation of the rods: references, cutoffs and stale references (spec/04, R94, R107 to R113). -/

namespace Sys2Proof.Machine

open Host (Outcome)

section

variable {s t : State}

/-! ## An action of a writer, and its answer -/

theorem finish_own {w : Writer} {p : Nat} {c : Code} (h : ownerPage p = some p) :
    finish w p (t, c) = (t.countRefused w p c).answer w c := by
  rw [finish, h, Option.getD_some]

/-- An action that its page takes, and that its own rules accept. -/
theorem finish_action {w : Writer} {p : Nat} {f : State → State × Code} (h : s.mayAct w p) (e : f s = (t, .ok)) :
    finish w p (s.actionWrite w p f) = t.answer w .ok := by
  rw [actionWrite_ok h, e, finish_ok]

/-- An action that its page takes, answered with any code. -/
theorem finish_action_code {w : Writer} {p : Nat} {c : Code} {f : State → State × Code} (h : s.mayAct w p)
    (ho : ownerPage p = some p) (e : f s = (t, c)) :
    finish w p (s.actionWrite w p f) = (t.countRefused w p c).answer w c := by
  rw [actionWrite_ok h, e, finish_own ho]

theorem pageType_rod (n : Fin 24) : pageType (pROD n) = some .rod := by
  revert n
  decide

/-! ## Writes of the references and cutoffs (R94, R107 to R109) -/

theorem refWrite_loop {n : Fin 24} {w : Writer} {off mask : Nat} {v : Word} (h : s.mayAct w (pROD n))
    (hr : s.get (pROD n) ROD.CFG_REF_SRC = 0) : finish w (pROD n) (s.refWrite w n off mask v) =
      ((s.err (pROD n) 18).countRefused w (pROD n) .writeRefused).answer w .writeRefused :=
  finish_action_code h (ownerPage_of_type (pageType_rod n)) (if_pos hr)

theorem rodModulation : Claims.RodModulation := by
  intro w n v s p refused
  refine ⟨fun h hr => ⟨?ab, ?c⟩, fun h hr => ⟨?abLoop, ?cLoop⟩, fun u h => ?ends, fun h => ?noEnd, fun h => ?noUpdate,
    fun q h hc => ?taken, fun q h hc hq => ?mid, fun q h hc hq ht => ?trips⟩
  case ab =>
    have hr0 : ¬s.get (pROD n) ROD.CFG_REF_SRC = 0 := by
      rw [show s.get (pROD n) ROD.CFG_REF_SRC = 1 from hr]
      decide
    have hm : maskW v 0xFFFFFFFF = v := BitVec.and_allOnes
    refine congrArg Outcome.next (finish_action h ?_)
    rw [if_neg hr0, hm]
    rfl
  case c =>
    have hr0 : ¬s.get (pROD n) ROD.CFG_REF_SRC = 0 := by
      rw [show s.get (pROD n) ROD.CFG_REF_SRC = 1 from hr]
      decide
    refine congrArg Outcome.next (finish_action h ?_)
    rw [if_neg hr0]
    rfl
  case abLoop => exact congrArg Outcome.next (refWrite_loop h hr)
  case cLoop => exact congrArg Outcome.next (refWrite_loop h hr)
  case ends => simp only [exec, execModulationEnd, h]
  case noEnd => simp only [exec, execModulationEnd, h]
  case noUpdate => simp only [exec, execUpdateCutoff, State.cutoff, h]
  case taken => simp only [exec, execUpdateCutoff, State.cutoff, h, hc, if_true]
  case mid =>
    have hf : ∀ (t : State) x, (t.setRod n x).flag (pROD n) ROD.CFG_UPD_MODE = t.flag (pROD n) ROD.CFG_UPD_MODE :=
      fun t x => flag_eq_of_board State.setRod_board
    simp only [exec, execUpdateCutoff, State.cutoff, h, hc, if_false, hq, Bool.not_true, Bool.false_and,
      Bool.false_eq_true, hf, if_true]
    rfl
  case trips =>
    simp only [exec, execUpdateCutoff, State.cutoff, h, hc, if_false, hq, ht, Bool.not_false, Bool.and_self, if_true]

/-! ## Armed and stale references (R107, R108, R110) -/

/-- Whether the rod's stale update points count. -/
def State.staleCounts (s : State) (n : Nat) : Bool := decide (s.rodSt n = stRUN ∨ s.rodSt n = stDESCENT)

/-- The state with an armed set active and the set no longer armed. -/
def State.refsActive (s : State) (n : Nat) : State :=
  (((s.setWord (pROD n) ROD.ACT_AB (s.word (pROD n) ROD.REF_AB)).setWord (pROD n) ROD.ACT_C
    (s.word (pROD n) ROD.REF_C)).set (pROD n) ROD.STATUS_ARMED 0).set (pROD n) ROD.STATUS_REF_STALE 0

theorem takeRefs_armed {n : Nat} (h : s.flag (pROD n) ROD.STATUS_ARMED = true) : s.takeRefs n =
    if s.staleCounts n then (s.refsActive n).setReg (pROD n) ROD.STALE_RUN 0 else s.refsActive n := by
  unfold State.takeRefs
  rw [if_pos h]
  rfl

theorem takeRefs_idle {n : Nat} (h : s.flag (pROD n) ROD.STATUS_ARMED = false) (hr : s.staleCounts n = false) :
    s.takeRefs n = s := by
  have hr' : ¬decide (s.rodSt n = stRUN ∨ s.rodSt n = stDESCENT) = true := by
    rw [show decide (s.rodSt n = stRUN ∨ s.rodSt n = stDESCENT) = false from hr]
    decide
  unfold State.takeRefs
  rw [if_neg (by rw [h]; decide)]
  exact if_neg hr'

theorem takeRefs_running {n : Nat} (h : s.flag (pROD n) ROD.STATUS_ARMED = false) (hr : s.staleCounts n = true) :
    s.takeRefs n =
      let run := min (s.reg (pROD n) ROD.STALE_RUN + 1) 255
      let t := s.setReg (pROD n) ROD.STALE_RUN run
      let lim := s.get (pROD n) ROD.CFG_STALE_LIM
      if lim ≠ 0 ∧ lim ≤ run ∧ (s.reg (pROD n) ROD.STALE_RUN < lim ∨ !s.flag (pROD n) ROD.STATUS_REF_STALE) then
        (((t.set (pROD n) ROD.STATUS_REF_STALE 1).err (pROD n) (blk 3)).ev (pROD n) (blk 1)).descentCause n dcSTALE
      else t := by
  have h1 : (s.setReg (pROD n) ROD.STALE_RUN (min (s.reg (pROD n) ROD.STALE_RUN + 1) 255)).get (pROD n)
      ROD.CFG_STALE_LIM = s.get (pROD n) ROD.CFG_STALE_LIM := get_setReg_off (by decide)
  have h2 : (s.setReg (pROD n) ROD.STALE_RUN (min (s.reg (pROD n) ROD.STALE_RUN + 1) 255)).flag (pROD n)
      ROD.STATUS_REF_STALE = s.flag (pROD n) ROD.STATUS_REF_STALE := flag_setReg_off (by decide)
  dsimp only
  rw [← h1, ← h2]
  unfold State.takeRefs
  rw [if_neg (by rw [h]; decide)]
  exact if_pos hr

theorem word_refsActive {n o : Nat} (h : o ≠ ROD.STATUS) (hc : o ≠ ROD.ACT_C) (ha : o ≠ ROD.ACT_AB) :
    (s.refsActive n).word (pROD n) o = s.word (pROD n) o := by
  rw [State.refsActive, word_set_off h, word_set_off h, word_setWord_off hc, word_setWord_off ha]

theorem ab_refsActive {n : Nat} : (s.refsActive n).word (pROD n) ROD.ACT_AB = s.word (pROD n) ROD.REF_AB := by
  rw [State.refsActive, word_set_off (by decide), word_set_off (by decide), word_setWord_off (by decide),
    word_setWord_same]

theorem c_refsActive {n : Nat} : (s.refsActive n).word (pROD n) ROD.ACT_C = s.word (pROD n) ROD.REF_C := by
  rw [State.refsActive, word_set_off (by decide), word_set_off (by decide), word_setWord_same]

theorem armed_refsActive {n : Nat} : (s.refsActive n).flag (pROD n) ROD.STATUS_ARMED = false := by
  rw [State.refsActive, flag_set_bits (by rfl) (by decide) (by decide) (by decide) (by decide),
    flag_set_same (by decide) (by decide)]
  rfl

theorem stale_refsActive {n : Nat} : (s.refsActive n).flag (pROD n) ROD.STATUS_REF_STALE = false := by
  rw [State.refsActive, flag_set_same (by decide) (by decide)]
  rfl

theorem sameRegs_refsActive {n : Nat} : SameRegs s (s.refsActive n)
    [(pROD n, ROD.ACT_AB), (pROD n, ROD.ACT_C), (pROD n, ROD.STATUS), (pROD n, ROD.STALE_RUN)] :=
  (((sameRegs_refl.setWord (by simp)).setWord (by simp)).set (by simp)).set (by simp)

theorem rodTakesReferences : Claims.RodTakesReferences := by
  intro s n p lim old run runs
  refine ⟨fun ha => ?armed, fun ha hr hl => ?grows, fun ha hr h0 hl ho => ?stale,
    fun ha hr => takeRefs_idle ha (decide_eq_false hr)⟩
  case armed =>
    have hmem : SameMem s (s.takeRefs n) := keeps_State_takeRefs (k0_sameMem s) (sameMem_refl s)
    by_cases hr : runs
    · have hc : s.staleCounts n = true := decide_eq_true hr
      have e : s.takeRefs n = (s.refsActive n).setReg (pROD n) ROD.STALE_RUN 0 := by rw [takeRefs_armed ha, if_pos hc]
      refine ⟨_, e, ?_, ?_, ?_, fun _ => ?_, fun h => absurd hr h, ?_, e ▸ hmem, sameRegs_refsActive.setReg (by simp)⟩
      · rw [word_setReg_off (by decide), ab_refsActive]
      · rw [word_setReg_off (by decide), c_refsActive]
      · rw [flag_setReg_off (by decide), armed_refsActive]
      · exact reg_setReg_same.trans (Nat.zero_mod _)
      · rw [flag_setReg_off (by decide), stale_refsActive]
    · have hc : ¬s.staleCounts n = true := by
        rw [show s.staleCounts n = false from decide_eq_false hr]
        decide
      have e : s.takeRefs n = s.refsActive n := by rw [takeRefs_armed ha, if_neg hc]
      refine ⟨_, e, ab_refsActive, c_refsActive, armed_refsActive, fun h => absurd h hr, fun _ => ?_, stale_refsActive,
        e ▸ hmem, sameRegs_refsActive⟩
      rw [State.reg, word_refsActive (by decide) (by decide) (by decide)]
      rfl
  case grows =>
    have hn : ¬(lim ≠ 0 ∧ lim ≤ run ∧ (old < lim ∨ !s.flag p ROD.STATUS_REF_STALE)) := by
      rintro ⟨h1, h2, h3⟩
      rcases hl with hl | hl | ⟨hl, hs⟩
      · exact h1 hl
      · omega
      · rw [hs] at h3
        rcases h3 with h3 | h3
        · omega
        · cases h3
    rw [takeRefs_running ha (decide_eq_true hr)]
    exact if_neg hn
  case stale =>
    have hc : lim ≠ 0 ∧ lim ≤ run ∧ (old < lim ∨ !s.flag p ROD.STATUS_REF_STALE) :=
      ⟨h0, hl, ho.imp_right (by simp [·])⟩
    rw [takeRefs_running ha (decide_eq_true hr)]
    exact if_pos hc

/-- Settles O26: references and cutoffs, then what a cutoff takes. -/
theorem modulation : Obligations.Modulation := ⟨rodModulation, rodTakesReferences⟩

end

end Sys2Proof.Machine

/-! PROOFS. Gate links (spec/05, R119 to R135). -/

namespace Sys2Proof.Machine

open Host (Outcome)

section

/-- A driver link that is up, with an edge that waits, and behind it a REQ frame that waits too. -/
def reqWaiting : State :=
  ((State.reset.set (pGLK 0) GLK.CTL_LINK_EN 1).set (pGLK 0) (GLK.LSTAT_STATE 0) lkUP).setLink 0
    { queue := [(0, true)], wait := [5] }

/-- The frames that wait on link 0 after a command. -/
def waitsAfter (o : Outcome State Fault Refusal) : List Nat :=
  match o with
  | .next t => (t.link 0).wait
  | _ => []

theorem linkOpen_reqWaiting : reqWaiting.linkOpen 0 0 = true := by decide

/-- A PING that falls due comes to wait before the REQ: offering the frames that wait again, which the edge holds up,
puts the REQ at the end. -/
theorem waitsAfter_pingTx : waitsAfter (exec (.pingTx 0) reqWaiting) = [4, 5] := by decide

/-- Refutes O27: a PING that falls due while an edge and a REQ wait comes to wait before the REQ, not behind it. -/
theorem not_gateLinks : ¬ Obligations.GateLinks := by
  rintro ⟨hf, -⟩
  obtain ⟨hopen, -⟩ := hf 0 reqWaiting
  obtain ⟨hwait, -⟩ := hopen linkOpen_reqWaiting
  obtain ⟨hping, -⟩ := hwait (by decide)
  have h : waitsAfter (exec (.pingTx 0) reqWaiting) = [5, 4] := (congrArg waitsAfter hping).trans (by decide)
  exact absurd (waitsAfter_pingTx.symm.trans h) (by decide)

end

end Sys2Proof.Machine

/-! PROOFS. Register requests of the gate links (spec/05, R134, R135, R164). -/

namespace Sys2Proof.Machine

open Host (Outcome)

section

variable {s t : State}

theorem pageType_glk (n : Fin 24) : pageType (pGLK n) = some .glk := by
  revert n
  decide

theorem rod_eq_of_rods {n : Nat} (h : t.rods = s.rods) : t.rod n = s.rod n := by rw [State.rod, State.rod, h]

/-! ## The end of a request -/

/-- The state of a request that has ended, before an identity read that waited begins. -/
def State.reqEnded (s : State) (n code : Nat) : State :=
  let t := (s.setReg (pGLK n) GLK.RSP (2 ^ 31 + code)).set (pGLK n) GLK.REQ_CTL_GO 0
  (t.setRod n { t.rod n with reqTries := 0 }).ev (pGLK n) (blk 3)

theorem reqDone_alone {n code : Nat} (h : (s.rod n).start ≠ some .idRead) : s.reqDone n code = s.reqEnded n code := by
  have hr : ((s.reqEnded n code).rod n).start = (s.rod n).start := by
    rw [State.reqEnded, rod_eq_of_rods State.ev_rods, State.rod_setRod, rod_eq_of_rods State.set_rods,
      rod_eq_of_rods State.setReg_rods]
  have e : s.reqDone n code = if ((s.reqEnded n code).rod n).start = some .idRead then (s.reqEnded n code).idReq n 1
    else s.reqEnded n code := rfl
  rw [e, if_neg (by rw [hr]; exact h)]

theorem flag_setRod {p n : Nat} {f : Fld} {x : RodX} : (s.setRod n x).flag p f = s.flag p f :=
  flag_eq_of_board State.setRod_board

theorem get_setRod {p n : Nat} {f : Fld} {x : RodX} : (s.setRod n x).get p f = s.get p f :=
  get_eq_of_board State.setRod_board

theorem reg_setRod {p n o : Nat} {x : RodX} : (s.setRod n x).reg p o = s.reg p o := reg_eq_of_board State.setRod_board

theorem go_reqEnded {n code : Nat} : (s.reqEnded n code).flag (pGLK n) GLK.REQ_CTL_GO = false := by
  rw [State.reqEnded, flag_ev (by decide), flag_setRod, flag_set_same (by decide) (by decide)]
  rfl

theorem rsp_reqEnded {n code : Nat} (h : code < 2 ^ 31) : (s.reqEnded n code).reg (pGLK n) GLK.RSP = 2 ^ 31 + code := by
  rw [State.reqEnded, reg_ev (by decide), reg_setRod, reg_set_off (by decide), reg_setReg_same]
  omega

theorem reg_reqEnded {n code o : Nat} (h1 : o ≠ PG.EV_STAT) (h2 : o ≠ GLK.REQ_CTL) (h3 : o ≠ GLK.RSP) :
    (s.reqEnded n code).reg (pGLK n) o = s.reg (pGLK n) o := by
  rw [State.reqEnded, reg_ev h1, reg_setRod, reg_set_off h2, reg_setReg_off h3]

/-! ## The bytes of a register -/

theorem reg_eq_bytes {p o : Nat} : s.reg p o = s.get p ⟨o, 7, 0⟩ + 256 * s.get p ⟨o, 15, 8⟩ +
    65536 * s.get p ⟨o, 23, 16⟩ + 16777216 * s.get p ⟨o, 31, 24⟩ := by
  have h := (s.word p o).isLt
  simp only [State.reg, State.get, Fld.read, Fld.width]
  omega

/-- A register into whose bytes a response's four bytes go. -/
def State.setBytes (s : State) (p o : Nat) (d : List Nat) : State :=
  (List.range d.length).foldl (fun s i => s.set p ⟨o, 8 * i + 7, 8 * i⟩ (d.getD i 0)) s

theorem reg_setBytes {p o a b c d : Nat} (ha : a < 256) (hb : b < 256) (hc : c < 256) (hd : d < 256) :
    (s.setBytes p o [a, b, c, d]).reg p o = ofLE [a, b, c, d] := by
  have e : s.setBytes p o [a, b, c, d] =
    (((s.set p ⟨o, 7, 0⟩ a).set p ⟨o, 15, 8⟩ b).set p ⟨o, 23, 16⟩ c).set p ⟨o, 31, 24⟩ d := rfl
  have h0 : (s.setBytes p o [a, b, c, d]).get p ⟨o, 7, 0⟩ = a := by
    rw [e, get_set_bits (by rfl) (by simp) (by simp) (by simp) (by simp),
      get_set_bits (by rfl) (by simp) (by simp) (by simp) (by simp),
      get_set_bits (by rfl) (by simp) (by simp) (by simp) (by simp), get_set_same (by simp) (by simp)]
    exact Nat.mod_eq_of_lt ha
  have h1 : (s.setBytes p o [a, b, c, d]).get p ⟨o, 15, 8⟩ = b := by
    rw [e, get_set_bits (by rfl) (by simp) (by simp) (by simp) (by simp),
      get_set_bits (by rfl) (by simp) (by simp) (by simp) (by simp), get_set_same (by simp) (by simp)]
    exact Nat.mod_eq_of_lt hb
  have h2 : (s.setBytes p o [a, b, c, d]).get p ⟨o, 23, 16⟩ = c := by
    rw [e, get_set_bits (by rfl) (by simp) (by simp) (by simp) (by simp), get_set_same (by simp) (by simp)]
    exact Nat.mod_eq_of_lt hc
  have h3 : (s.setBytes p o [a, b, c, d]).get p ⟨o, 31, 24⟩ = d := by
    rw [e, get_set_same (by simp) (by simp)]
    exact Nat.mod_eq_of_lt hd
  rw [reg_eq_bytes, h0, h1, h2, h3]
  simp only [ofLE, List.foldr_cons, List.foldr_nil]
  omega

theorem rods_setBytes {p o : Nat} (d : List Nat) : (s.setBytes p o d).rods = s.rods := by
  unfold State.setBytes
  generalize List.range d.length = l
  induction l generalizing s with
  | nil => rfl
  | cons i l ih => rw [List.foldl_cons, ih, State.set_rods]

/-! ## Responses -/

theorem rspRx_open {k : Fin 288} {st : Fin 256} {d : List Byte} {n : Nat} (hk : k.val / 12 = n)
    (ho : s.linkOpen n (k.val % 12) = true) : exec (.rspRx k st d) s =
      if 4 < (d.map BitVec.toNat).length then .next (s.countDiscard n (k.val % 12))
      else if (s.link k).version.isNone then
        .next (if st.val = 0 ∧ (d.map BitVec.toNat).length = 2 then
          s.versionRead n (k.val % 12) ((d.map BitVec.toNat).getD 0 0) ((d.map BitVec.toNat).getD 1 0) else s)
      else if s.flag (pGLK n) GLK.REQ_CTL_GO then
        if s.get (pGLK n) GLK.REQ_CTL_POS = k.val % 12 then
          .next (State.reqDone (if st.val = 0 ∧ !s.flag (pGLK n) GLK.REQ_CTL_WR then
            s.setBytes (pGLK n) GLK.REQ_DATA (d.map BitVec.toNat) else s) n st)
        else .next s
      else if s.idBusy n && decide (s.idPos n = k.val % 12) then .next (s.idTake n st (d.map BitVec.toNat))
      else .next s := by
  subst hk
  unfold exec execRspRx
  dsimp only
  rw [ho]
  rfl

/-- Settles O28: requests and their refusals, the attempts, then the responses. -/
theorem gateRequests : Obligations.GateRequests := by
  intro w n v s g stored cleared pos
  have hp : ownerPage g = some g := ownerPage_of_type (pageType_glk n)
  have hst : ∀ q, cleared.linkSt n q = s.linkSt n q := fun q => by
    have h1 : (GLK.LSTAT_STATE q).off ≠ GLK.RSP := by simp only [GLK.LSTAT, GLK.RSP]; omega
    have h2 : (GLK.LSTAT_STATE q).off ≠ GLK.REQ_CTL := by simp only [GLK.LSTAT, GLK.REQ_CTL]; omega
    rw [State.linkSt, State.linkSt, get_set_off h1, State.get, State.get, word_setWord_off h2]
  refine ⟨fun h hb => ⟨fun hv => ?store, fun hv hc => ?noLink, fun hv hq hc => ?send⟩, fun h hb => ?busy,
    fun hg => ⟨fun hl => ?gone, fun hl ht => ?again, fun hl ht => ?last⟩, fun hg hi => ?idle,
    fun k st d hk ho => ⟨fun hd => ?long, fun hd hv hs hl => ?version, fun hd hv hg hq => ⟨fun hs => ?ends, fun hs hw hl hst' => ?read⟩,
      fun hd hv hi hq => ?identity⟩⟩
  case store =>
    exact congrArg Outcome.next (finish_action h ((if_neg (by rw [hb]; decide)).trans (if_neg (by rw [hv]; decide))))
  case noLink =>
    refine congrArg Outcome.next (finish_action h ((if_neg (by rw [hb]; decide)).trans ((if_pos hv).trans (if_pos ?_))))
    exact hc.imp_right (fun hl => (hst _).trans_ne hl)
  case send =>
    have hn : ¬(12 ≤ cleared.get g GLK.REQ_CTL_POS ∨ cleared.linkSt n (cleared.get g GLK.REQ_CTL_POS) ≠ lkUP) := by
      rw [not_or, not_le, not_not]
      exact ⟨hq, (hst _).trans hc⟩
    refine congrArg Outcome.next (finish_action h ((if_neg (by rw [hb]; decide)).trans ((if_pos hv).trans
      ((if_neg hn).trans ?_))))
    have hr : (cleared.set g GLK.REQ_CTL_GO 1).rod n = s.rod n :=
      rod_eq_of_rods (State.set_rods.trans (State.set_rods.trans State.setWord_rods))
    rw [← hr]
  case busy => exact congrArg Outcome.next (finish_action_code h hp (if_pos hb))
  case gone => exact congrArg Outcome.next ((if_pos hg).trans (if_pos hl))
  case again => exact congrArg Outcome.next ((if_pos hg).trans ((if_neg (not_not.mpr hl)).trans (if_pos ht)))
  case last =>
    exact congrArg Outcome.next ((if_pos hg).trans ((if_neg (not_not.mpr hl)).trans (if_neg (Nat.not_lt.mpr ht))))
  case idle =>
    exact congrArg Outcome.next ((if_neg (by rw [hg]; decide)).trans (if_neg (by rw [hi]; decide)))
  case long => rw [rspRx_open hk ho, if_pos (by simpa using hd)]
  case version =>
    rw [rspRx_open hk ho, if_neg (by simpa using hd), if_pos (by rw [hv]; rfl), if_pos ⟨hs, by simpa using hl⟩]
    obtain ⟨a, b, rfl⟩ := List.length_eq_two.mp hl
    rfl
  case ends =>
    have hn : ¬(st.val = 0 ∧ !s.flag (pGLK n) GLK.REQ_CTL_WR) := by
      rintro ⟨h1, h2⟩
      rcases hs with hs | hs
      · exact hs h1
      · rw [hs] at h2
        cases h2
    rw [rspRx_open hk ho, if_neg (by simpa using hd), if_neg (by simpa using hv), if_pos hg, if_pos hq, if_neg hn]
  case read =>
    obtain ⟨a, b, c, e, rfl⟩ : ∃ a b c e, d = [a, b, c, e] := by
      match d, hl with
      | [a, b, c, e], _ => exact ⟨a, b, c, e, rfl⟩
    have hr : ((s.setBytes (pGLK n) GLK.REQ_DATA ([a, b, c, e].map BitVec.toNat)).rod n).start ≠ some .idRead := by
      rw [rod_eq_of_rods (rods_setBytes _)]
      exact hst'
    have ex : exec (.rspRx k st [a, b, c, e]) s = .next
        ((s.setBytes (pGLK n) GLK.REQ_DATA ([a, b, c, e].map BitVec.toNat)).reqEnded n st) := by
      rw [rspRx_open hk ho, if_neg (by simp), if_neg (by simpa using hv), if_pos hg, if_pos hq,
        if_pos ⟨hs, by rw [hw]; rfl⟩, reqDone_alone hr]
    refine ⟨_, ex, ?_, go_reqEnded, ?_, bit_ev (by decide), sameMem_of_exec rfl rfl ex⟩
    · rw [reg_reqEnded (by decide) (by decide) (by decide)]
      exact reg_setBytes a.isLt b.isLt c.isLt e.isLt
    · rw [rsp_reqEnded (Nat.lt_trans st.isLt (by decide)), hs, Nat.add_zero]
  case identity =>
    have hg : s.flag (pGLK n) GLK.REQ_CTL_GO = false := by
      have := hi
      simp only [State.idBusy, Bool.and_eq_true, Bool.not_eq_true'] at this
      exact this.2
    rw [rspRx_open hk ho, if_neg (by simpa using hd), if_neg (by simpa using hv), if_neg (by rw [hg]; decide),
      if_pos (by rw [hi, decide_eq_true hq]; rfl)]

end

end Sys2Proof.Machine

/-! PROOFS. A rod's state (spec/06, R149, R156): what entering one leaves, and what placing beads, sleeping dies and the
trip path leave alone. -/

namespace Sys2Proof.Machine

open Host (Outcome)

section

variable {s t u : State} {n : Nat}

/-! ## Operations that leave the rods' records and pages alone -/

/-- The pages ROD and PROT of a rod. -/
def rodPage (p : Nat) : Prop := (0x100 ≤ p ∧ p < 0x118) ∨ (0x160 ≤ p ∧ p < 0x178)

/-- The rods' records, the beam and the words of the rods' pages are as before, but that events may have been set. -/
structure SameRods (s t : State) : Prop where
  rods : t.rods = s.rods
  beam : t.beam = s.beam
  words : ∀ p o, rodPage p → o < 4096 → o ≠ PG.EV_STAT → t.word p o = s.word p o
  evs : ∀ p i, rodPage p → s.bit p PG.EV_STAT i = true → t.bit p PG.EV_STAT i = true

theorem SameRods.refl : SameRods s s := ⟨rfl, rfl, fun _ _ _ _ _ => rfl, fun _ _ _ h => h⟩

theorem SameRods.trans (h : SameRods s t) (h' : SameRods t u) : SameRods s u :=
  ⟨h'.rods.trans h.rods, h'.beam.trans h.beam, fun p o hp ho he => (h'.words p o hp ho he).trans (h.words p o hp ho he),
    fun p i hp hb => h'.evs p i hp (h.evs p i hp hb)⟩

theorem SameRods.of_board (h : SameRods s t) (hr : u.rods = t.rods) (hm : u.beam = t.beam) (hb : u.board = t.board) :
    SameRods s u :=
  h.trans ⟨hr, hm, fun _ _ _ _ _ => word_eq_of_board hb, fun _ _ _ h => (bit_eq_of_board hb).trans h⟩

/-- A word of another page, or at an offset outside a page of the rods' dies. -/
theorem SameRods.setWord {p o : Nat} {w : Word} (h : SameRods s t) (hp : ¬rodPage p) (ho : o < 4096) :
    SameRods s (t.setWord p o w) := by
  have key : ∀ q o', rodPage q → o' < 4096 → (t.setWord p o w).word q o' = t.word q o' := fun q o' hq ho' =>
    word_setWord_page (fun e => hp (e ▸ hq)) ho' ho
  refine h.trans ⟨rfl, rfl, fun q o' hq ho' _ => key q o' hq ho', fun q i hq hb => ?_⟩
  rw [State.bit, State.reg, key q _ hq (by decide)]
  exact hb

theorem SameRods.set {p v : Nat} {f : Fld} (h : SameRods s t) (hp : ¬rodPage p) (ho : f.off < 4096) :
    SameRods s (t.set p f v) := h.setWord hp ho

theorem SameRods.setReg {p o v : Nat} (h : SameRods s t) (hp : ¬rodPage p) (ho : o < 4096) :
    SameRods s (t.setReg p o v) := h.setWord hp ho

theorem bit_setBit_mono {p q o i j : Nat} (hi : i < 32) (h : s.bit q o j = true) (hq : q ≠ p → o < 4096) :
    (s.setBit p o i true).bit q o j = true := by
  by_cases hpq : q = p
  · subst hpq
    by_cases hj : j = i
    · subst hj
      exact bit_setBit_same hi
    · rw [bit_setBit_bits hi hj]
      exact h
  · rw [State.setBit, State.setB, bit_set_page hpq (hq hpq) (hq hpq)]
    exact h

theorem SameRods.ev {p i : Nat} (h : SameRods s t) (hi : i < 32) : SameRods s (t.ev p i) := by
  refine h.trans ⟨State.ev_rods, State.ev_beam, fun q o _ ho he => ?_, fun q j _ hb => ?_⟩
  · by_cases hq : q = p
    · subst hq
      exact word_setWord_off he
    · exact word_setWord_page (o := PG.EV_STAT) hq ho (by decide)
  · exact bit_setBit_mono hi hb (fun _ => by decide)

theorem SameRods.send {x : Out} (h : SameRods s t) : SameRods s (t.send x) :=
  h.of_board State.send_rods State.send_beam State.send_board

theorem SameRods.setLink {k : Nat} {x : LinkX} (h : SameRods s t) : SameRods s (t.setLink k x) :=
  h.of_board State.setLink_rods State.setLink_beam State.setLink_board

theorem SameRods.foldl {β : Type} {f : State → β → State} (l : List β) (hf : ∀ t, ∀ x ∈ l, SameRods t (f t x))
    (h : SameRods s t) : SameRods s (l.foldl f t) := by
  induction l generalizing t with
  | nil => exact h
  | cons x l ih =>
    exact ih (fun t y hy => hf t y (List.mem_cons_of_mem x hy)) (h.trans (hf t x List.mem_cons_self))

theorem SameRods.get {p : Nat} {f : Fld} (h : SameRods s t) (hp : rodPage p) (ho : f.off < 4096)
    (he : f.off ≠ PG.EV_STAT) : t.get p f = s.get p f := by
  rw [State.get, State.get, h.words p f.off hp ho he]

theorem SameRods.reg {p o : Nat} (h : SameRods s t) (hp : rodPage p) (ho : o < 4096) (he : o ≠ PG.EV_STAT) :
    t.reg p o = s.reg p o := by
  rw [State.reg, State.reg, h.words p o hp ho he]

theorem SameRods.rod {k : Nat} (h : SameRods s t) : t.rod k = s.rod k := rod_eq_of_rods h.rods

/-! ## Placing beads, sleeping dies, the trip path -/

theorem not_rodPage_beads : ¬rodPage pBEADS := by
  unfold rodPage
  decide

theorem not_rodPage_safe : ¬rodPage pSAFE := by
  unfold rodPage
  decide

theorem not_rodPage_loop {r : Nat} (h : r < 24) : ¬rodPage (pLOOP r) := by
  simp only [rodPage, pLOOP]
  omega

theorem rodPage_rod (h : n < 24) : rodPage (pROD n) := by
  simp only [rodPage, pROD]
  omega

theorem rodPage_prot (h : n < 24) : rodPage (pPROT n) := by
  simp only [rodPage, pPROT]
  omega

theorem sameRods_setEisX (s : State) (r : Nat) (x : EisX) : SameRods s (s.setEisX r x) :=
  SameRods.refl.of_board State.setEisX_rods State.setEisX_beam State.setEisX_board

theorem sameRods_eisTrack (s : State) : SameRods s s.eisTrack := by
  refine SameRods.foldl _ (fun t r _ => ?_) .refl
  exact keeps_ite (P := SameRods t) (keeps_ite (P := SameRods t) (sameRods_setEisX _ _ _) .refl)
    (keeps_ite (P := SameRods t) (sameRods_setEisX _ _ _) .refl)

theorem sameRods_setBead (s : State) (x : BeadX) : SameRods s (s.setBead x) :=
  SameRods.refl.of_board State.setBead_rods State.setBead_beam State.setBead_board

theorem sameRods_setRemain (s : State) : SameRods s s.setRemain :=
  (SameRods.refl.setReg not_rodPage_beads (by decide)).setReg not_rodPage_beads (by decide)

/-- What one rod is told of the placement. -/
def State.placeOne (ps qs : List Int) (s : State) (r : Nat) : State :=
  ((s.setReg pBEADS (BEADS.PLACE r) (enc 16 (qs.getD r 0) * 65536 + enc 16 (ps.getD r 0))).setReg (pLOOP r) LOOP.PSET
    (enc 32 (ps.getD r 0))).setReg (pLOOP r) LOOP.QSET (enc 32 (qs.getD r 0))

/-- The placement, with its sums and its generation shown. -/
def State.placed (s : State) : State :=
  let ps := s.placeKind false s.bead.basis.p
  let qs := s.placeKind true s.bead.basis.q
  let t := (List.range 24).foldl (State.placeOne ps qs) s
  ((t.setReg pBEADS BEADS.PLACED_P (enc 32 (sumZ ps))).setReg pBEADS BEADS.PLACED_Q (enc 32 (sumZ qs))).setRemain.inc
    pBEADS BEADS.PLACE_GEN

theorem placeRun_eq (s : State) : s.placeRun = State.eisTrack
    (if s.placed.bead.restore.isSome && decide (s.placed.rampNum = s.placed.rampUnits) then
      s.placed.setBead { s.placed.bead with restore := none } else s.placed) := rfl

theorem sameRods_placed (s : State) : SameRods s s.placed := by
  have hb := not_rodPage_beads
  refine SameRods.setReg (SameRods.trans ?_ (sameRods_setRemain _)) hb (by decide)
  refine SameRods.setReg (SameRods.setReg (SameRods.foldl _ (fun t r hr => ?_) .refl) hb (by decide)) hb (by decide)
  have hr' := List.mem_range.mp hr
  have hl := not_rodPage_loop hr'
  refine ((SameRods.refl.setReg hb ?_).setReg hl (by decide)).setReg hl (by decide)
  simp only [BEADS.PLACE]
  omega

theorem sameRods_placeRun (s : State) : SameRods s s.placeRun := by
  rw [placeRun_eq]
  exact (keeps_ite (P := SameRods s) ((sameRods_placed s).trans (sameRods_setBead _ _)) (sameRods_placed s)).trans
    (sameRods_eisTrack _)

theorem sameRods_setDom (s : State) (d : Dom) (v : DomSt) : SameRods s (s.setDom d v) := by
  refine keeps_ite (P := SameRods s) .refl (SameRods.foldl _ (fun t p _ => SameRods.refl.ev (by decide)) ?_)
  exact SameRods.refl.of_board rfl rfl rfl

theorem sameRods_dieAlone (s : State) (k : Nat) : SameRods s (s.dieAlone k) :=
  keeps_ite (P := SameRods s) (sameRods_setDom _ _ _) .refl

theorem sameRods_setDig (s : State) (i : Nat) (x : DigX) : SameRods s (s.setDig i x) :=
  SameRods.refl.of_board State.setDig_rods State.setDig_beam State.setDig_board

theorem sameRods_digWithdraw (s : State) (k : Nat) (f : Option Nat) (i : Nat) : SameRods s (s.digWithdraw k f i) :=
  keeps_ite (P := SameRods s) .refl (sameRods_setDig _ _ _)

theorem sameRods_tripLink (s : State) (k : Nat) : SameRods s (s.tripLink k) :=
  keeps_ite (P := SameRods s) SameRods.refl.setLink SameRods.refl.setLink.send

/-! ## A rod that takes a state (R149) -/

/-- The rod's record and its pages once it takes a state, before the rest of the device follows. -/
def State.stateShown (s : State) (n st : Nat) : State :=
  let t := s.setRod n { s.rod n with prevSt := s.rodSt n, stAt := s.beam.t }
  let t := ((t.set (pROD n) ROD.STATUS_STATE st).set (pPROT n) PROT.STATUS_STATE st).ev (pPROT n) (blk 1)
  (t.setB (pROD n) PG.STAT_SHUTTING (shuttingSt st)).setB (pPROT n) PG.STAT_SHUTTING (shuttingSt st)

/-- The rest of the device follows a rod's new state. -/
def State.stateFollows (s : State) (n st old : Nat) : State :=
  let s := if shuttingSt old && !shuttingSt st then (s.ev (pROD n) 4).ev (pPROT n) 4 else s
  let s := if st = stOFF ∧ !s.bit pSAFE SAFE.LATCH n ∧ !s.sgrHold then s.setBit pSAFE SAFE.SGR_MAP n false else s
  let s := if st = stOFF then s.dieAlone (n / 6) else s
  if old ≠ st ∧ (old = stRUN ∨ st = stRUN) then s.placeRun else s

theorem setRodSt_eq (s : State) (n st : Nat) : s.setRodSt n st = (s.stateShown n st).stateFollows n st (s.rodSt n) := rfl

theorem sameRods_stateFollows (s : State) (n st old : Nat) : SameRods s (s.stateFollows n st old) := by
  unfold State.stateFollows
  extract_lets s5 s6 s7
  have h5 : SameRods s s5 := keeps_ite (P := SameRods s) ((SameRods.refl.ev (by decide)).ev (by decide)) .refl
  clear_value s5
  have h6 : SameRods s5 s6 := keeps_ite (P := SameRods s5)
    (SameRods.refl.set (f := ⟨SAFE.SGR_MAP, n, n⟩) not_rodPage_safe (show SAFE.SGR_MAP < 4096 by decide)) .refl
  clear_value s6
  have h7 : SameRods s6 s7 := keeps_ite (P := SameRods s6) (sameRods_dieAlone _ _) .refl
  clear_value s7
  exact ((h5.trans h6).trans h7).trans (keeps_ite (P := SameRods s7) (sameRods_placeRun _) .refl)

theorem sameRods_setRodSt (s : State) (n st : Nat) : SameRods (s.stateShown n st) (s.setRodSt n st) := by
  rw [setRodSt_eq]
  exact sameRods_stateFollows _ _ _ _

theorem pPROT_ne_pROD : pPROT n ≠ pROD n := by
  simp only [pPROT, pROD]
  omega

theorem rod_setRodSt {st : Nat} : (s.setRodSt n st).rod n = { s.rod n with prevSt := s.rodSt n, stAt := s.beam.t } := by
  rw [(sameRods_setRodSt s n st).rod, State.stateShown]
  dsimp only
  rw [rod_eq_of_rods State.setB_rods, rod_eq_of_rods State.setB_rods, rod_eq_of_rods State.ev_rods,
    rod_eq_of_rods State.set_rods, rod_eq_of_rods State.set_rods, State.rod_setRod]

theorem rodSt_setRodSt {st : Nat} (hn : n < 24) (h : st < 16) : (s.setRodSt n st).rodSt n = st := by
  have hne := pPROT_ne_pROD (n := n)
  rw [State.rodSt, (sameRods_setRodSt s n st).get (rodPage_rod hn) (by decide) (by decide), State.stateShown]
  dsimp only
  rw [State.setB, get_set_page hne.symm (by decide) (by decide), get_setB_off (by decide), State.ev, State.setBit,
    State.setB, get_set_page hne.symm (by decide) (by decide), get_set_page hne.symm (by decide) (by decide),
    get_set_same (by decide) (by decide)]
  exact Nat.mod_eq_of_lt h

/-- A field of PROT.STATUS beside the state. -/
theorem get_setRodSt_status {st : Nat} {f : Fld} (hn : n < 24) (ho : f.off = PROT.STATUS) (hf : f.lo ≤ f.hi)
    (hd : 3 < f.lo) : (s.setRodSt n st).get (pPROT n) f = s.get (pPROT n) f := by
  have hne := pPROT_ne_pROD (n := n)
  have hlt : f.off < 4096 := by rw [ho]; decide
  rw [(sameRods_setRodSt s n st).get (rodPage_prot hn) hlt (by rw [ho]; decide), State.stateShown]
  dsimp only
  rw [get_setB_off (by rw [ho]; decide), State.setB, get_set_page hne hlt (by decide), get_ev (by rw [ho]; decide),
    get_set_bits ho (by decide) (by decide) hf (.inr hd), get_set_page hne hlt (by decide), get_setRod]

theorem reg_setRodSt_prot {st o : Nat} (hn : n < 24) (ho : o < 4096) (h : o ≠ PROT.STATUS)
    (hs : o ≠ PG.STAT) (he : o ≠ PG.EV_STAT) : (s.setRodSt n st).reg (pPROT n) o = s.reg (pPROT n) o := by
  have hne := pPROT_ne_pROD (n := n)
  rw [(sameRods_setRodSt s n st).reg (rodPage_prot hn) ho he, State.stateShown]
  dsimp only
  rw [reg_setB_off hs, State.setB, reg_set_page hne ho (by decide), reg_ev he, reg_set_off h,
    reg_set_page hne ho (by decide), reg_setRod]

/-- A state taken is the event 17 of PROT. -/
theorem ev_setRodSt {st : Nat} (hn : n < 24) : (s.setRodSt n st).bit (pPROT n) PG.EV_STAT 17 = true := by
  have hne := pPROT_ne_pROD (n := n)
  refine (sameRods_setRodSt s n st).evs _ _ (rodPage_prot hn) ?_
  rw [State.stateShown]
  dsimp only
  rw [bit_setB_off (by decide), State.setB, bit_set_page hne (by decide) (by decide)]
  exact bit_ev (by decide)

theorem beam_setRodSt {st : Nat} : (s.setRodSt n st).beam = s.beam := by
  rw [(sameRods_setRodSt s n st).beam, State.stateShown]
  dsimp only
  rw [State.setB_beam, State.setB_beam, State.ev_beam, State.set_beam, State.set_beam, State.setRod_beam]

end

end Sys2Proof.Machine

/-! PROOFS. Fault and descent causes of a rod (spec/06, R145 to R149, R156). -/

namespace Sys2Proof.Machine

open Host (Outcome)

section

variable {s t : State} {n : Nat} {b : Bool}

/-! ## A rod's outputs -/

theorem board_setCont : (s.setCont n b).board = s.board := by
  unfold State.setCont
  split
  · rfl
  · rw [State.send_board, State.setRod_board]

theorem rod_setCont : (s.setCont n b).rod n = { s.rod n with cont := b } := by
  unfold State.setCont
  split
  case isTrue h => rw [← h]
  case isFalse => rw [rod_eq_of_rods State.send_rods, State.rod_setRod]

theorem board_setPrech : (s.setPrech n b).board = s.board := by
  unfold State.setPrech
  split
  · rfl
  · rw [State.send_board, State.setRod_board]

theorem rod_setPrech : (s.setPrech n b).rod n = { s.rod n with prech := b } := by
  unfold State.setPrech
  split
  case isTrue h => rw [← h]
  case isFalse => rw [rod_eq_of_rods State.send_rods, State.rod_setRod]

theorem board_setBrk : (s.setBrk n b).board = s.board := by
  unfold State.setBrk
  split
  · rfl
  · rw [State.send_board, State.setRod_board]

theorem rod_setBrk : (s.setBrk n b).rod n = { s.rod n with brk := b } := by
  unfold State.setBrk
  split
  case isTrue h => rw [← h]
  case isFalse => rw [rod_eq_of_rods State.send_rods, State.rod_setRod]

/-- The discharge output and, where it goes on, since when. -/
theorem rod_setDisch : ∃ d, (s.setDisch n b).rod n = { s.rod n with disch := b, disOn := d } := by
  unfold State.setDisch
  split
  case isTrue h => exact ⟨(s.rod n).disOn, by rw [← h]⟩
  case isFalse =>
    dsimp only
    split
    · refine ⟨((s.setRod n { s.rod n with disch := b }).send (.fio n "discharge" b)).beam.t, ?_⟩
      rw [rod_eq_of_rods State.set_rods, State.rod_setRod, rod_eq_of_rods State.send_rods, State.rod_setRod]
    · refine ⟨(s.rod n).disOn, ?_⟩
      rw [rod_eq_of_rods State.send_rods, State.rod_setRod]

theorem board_set_congr {p v : Nat} {f : Fld} (h : t.board = s.board) : (t.set p f v).board = (s.set p f v).board := by
  simp only [State.set, State.setWord, State.word, h]

/-- The discharge output writes no register but DIS_ABANDON. -/
theorem setDisch_board : (s.setDisch n b).board = s.board ∨
    (s.setDisch n b).board = (s.set (pPROT n) PROT.STATUS_DIS_ABANDON 0).board := by
  unfold State.setDisch
  split
  · exact .inl rfl
  · dsimp only
    split
    · refine .inr (board_set_congr ?_)
      rw [State.setRod_board, State.send_board, State.setRod_board]
    · rw [State.send_board, State.setRod_board]
      exact .inl rfl

theorem get_setDisch {p : Nat} {f : Fld} (hp : p ≠ pPROT n) (hf : f.off < 4096) :
    (s.setDisch n b).get p f = s.get p f := by
  obtain e | e := setDisch_board (s := s) (n := n) (b := b)
  · exact get_eq_of_board e
  · rw [get_eq_of_board e, get_set_page hp hf (by decide)]

theorem get_setDisch_bits {f : Fld} (hf : f.lo ≤ f.hi) (hd : f.off = PROT.STATUS → f.hi < 15 ∨ 15 < f.lo) :
    (s.setDisch n b).get (pPROT n) f = s.get (pPROT n) f := by
  obtain e | e := setDisch_board (s := s) (n := n) (b := b)
  · exact get_eq_of_board e
  · rw [get_eq_of_board e]
    by_cases ho : f.off = PROT.STATUS
    · exact get_set_bits ho (by decide) (by decide) hf (hd ho)
    · exact get_set_off ho

theorem reg_setDisch {o : Nat} (ho : o ≠ PROT.STATUS) : (s.setDisch n b).reg (pPROT n) o = s.reg (pPROT n) o := by
  obtain e | e := setDisch_board (s := s) (n := n) (b := b)
  · exact reg_eq_of_board e
  · rw [reg_eq_of_board e, reg_set_off ho]

/-! ## The trip path (R145) -/

/-- The record of a rod whose trip path has fired. -/
def State.trippedRod (s : State) (n : Nat) : RodX :=
  { s.rod n with
    tripped := true, innerDue := decide (s.get (pROD n) ROD.CFG_MODE = 0), legs := [{}, {}, {}], modEnd := none
    blanks := (s.rod n).blanks.filter (fun w => decide (w.2.1 ≤ s.uticks)) }

theorem sameRods_tripPath (s : State) (n : Nat) :
    SameRods ((s.setRod n (s.trippedRod n)).set (pROD n) ROD.STATUS_MOD_ACTIVE 0) (s.tripPath n) := by
  refine SameRods.foldl _ (fun t p _ => sameRods_tripLink _ _) (SameRods.send ?_)
  exact (sameRods_digWithdraw _ _ _ _).trans (sameRods_digWithdraw _ _ _ _)

theorem rod_tripPath : (s.tripPath n).rod n = s.trippedRod n := by
  rw [(sameRods_tripPath s n).rod, rod_eq_of_rods State.set_rods, State.rod_setRod]

theorem rodSt_tripPath (hn : n < 24) : (s.tripPath n).rodSt n = s.rodSt n := by
  rw [State.rodSt, (sameRods_tripPath s n).get (rodPage_rod hn) (by decide) (by decide),
    get_set_bits (by rfl) (by decide) (by decide) (by decide) (by decide), get_setRod]
  rfl

theorem reg_tripPath {o : Nat} (hn : n < 24) (ho : o < 4096) (he : o ≠ PG.EV_STAT) :
    (s.tripPath n).reg (pPROT n) o = s.reg (pPROT n) o := by
  rw [(sameRods_tripPath s n).reg (rodPage_prot hn) ho he, reg_set_page pPROT_ne_pROD ho (by decide), reg_setRod]

theorem beam_tripPath : (s.tripPath n).beam = s.beam := by
  rw [(sameRods_tripPath s n).beam, State.set_beam, State.setRod_beam]

/-! ## Entering FAULT (R146, R147) -/

/-- The rod in FAULT, before its outputs follow. -/
def State.faultShown (s : State) (n code : Nat) : State :=
  (((s.setReg (pPROT n) PROT.FIRST code).setReg (pPROT n) PROT.FIRST_NS s.ns).setRodSt n stFAULT).setStep n spNONE

/-- The record of a rod in FAULT, before its outputs follow. -/
def RodX.cleared (x : RodX) : RodX :=
  { x with start := none, xchk := [0, 0, 0], quietFrames := 0, diagStep := 0, diagV := [], testSrc := none }

/-- The rod in FAULT, with its record cleared. -/
def State.faultCleared (s : State) (n code : Nat) : State :=
  let t := s.faultShown n code
  let u := t.setRod n (RodX.cleared (t.rod n))
  if (t.rod n).testSrc.isSome then u.send (.testSource n none) else u

theorem enterFault_eq {code : Nat} : s.enterFault n code =
    let u := ((((s.faultCleared n code).setBrk n false).setCont n false).setPrech n false).setDisch n true
    (u.setRod n { u.rod n with disOn := u.beam.t, faultAt := u.beam.t }).ev (pPROT n) (blk 0) := rfl

theorem board_faultCleared {code : Nat} : (s.faultCleared n code).board = (s.faultShown n code).board := by
  unfold State.faultCleared
  dsimp only
  split
  · rw [State.send_board, State.setRod_board]
  · rw [State.setRod_board]

theorem rod_faultCleared {code : Nat} :
    (s.faultCleared n code).rod n = RodX.cleared ((s.faultShown n code).rod n) := by
  unfold State.faultCleared
  dsimp only
  split
  · rw [rod_eq_of_rods State.send_rods, State.rod_setRod]
  · rw [State.rod_setRod]

/-- The outputs of a rod in FAULT. -/
def State.faultOutputs (s : State) (n code : Nat) : State :=
  (((s.faultCleared n code).setBrk n false).setCont n false).setPrech n false

theorem board_faultOutputs {code : Nat} : (s.faultOutputs n code).board = (s.faultShown n code).board :=
  board_setPrech.trans (board_setCont.trans (board_setBrk.trans board_faultCleared))

theorem rod_faultShown {code : Nat} : (s.faultShown n code).rod n = { s.rod n with
    prevSt := ((s.setReg (pPROT n) PROT.FIRST code).setReg (pPROT n) PROT.FIRST_NS s.ns).rodSt n, stAt := s.beam.t } := by
  rw [State.faultShown, State.setStep, rod_eq_of_rods State.set_rods, rod_setRodSt, rod_eq_of_rods State.setReg_rods,
    rod_eq_of_rods State.setReg_rods, State.setReg_beam, State.setReg_beam]

theorem rod_enterFault {code : Nat} : ∃ p at_ d f, (s.enterFault n code).rod n =
    { RodX.cleared { s.rod n with prevSt := p, stAt := at_ } with
      brk := false, cont := false, prech := false, disch := true, disOn := d, faultAt := f } := by
  obtain ⟨d, hd⟩ := rod_setDisch (s := s.faultOutputs n code) (n := n) (b := true)
  have ho : (s.faultOutputs n code).rod n = { RodX.cleared ((s.faultShown n code).rod n) with
      brk := false, cont := false, prech := false } := by
    rw [State.faultOutputs, rod_setPrech, rod_setCont, rod_setBrk, rod_faultCleared]
  have e : (s.enterFault n code).rod n = { ((s.faultOutputs n code).setDisch n true).rod n with
      disOn := ((s.faultOutputs n code).setDisch n true).beam.t
      faultAt := ((s.faultOutputs n code).setDisch n true).beam.t } := by
    rw [enterFault_eq]
    dsimp only
    rw [rod_eq_of_rods State.ev_rods, State.rod_setRod]
    rfl
  rw [e, hd, ho, rod_faultShown]
  exact ⟨_, _, _, _, rfl⟩

theorem get_enterFault {code p : Nat} {f : Fld} (hf : f.lo ≤ f.hi) (hlt : f.off < 4096) (he : f.off ≠ PG.EV_STAT)
    (hd : f.off = PROT.STATUS → f.hi < 15 ∨ 15 < f.lo) (hp : p = pPROT n ∨ p = pROD n) :
    (s.enterFault n code).get p f = (s.faultShown n code).get p f := by
  have e : (s.enterFault n code).get p f = ((s.faultOutputs n code).setDisch n true).get p f := by
    rw [enterFault_eq]
    dsimp only
    rcases hp with rfl | rfl
    · rw [get_ev he, get_setRod]
      rfl
    · rw [State.ev, State.setBit, State.setB, get_set_page pPROT_ne_pROD.symm hlt (show PG.EV_STAT < 4096 by decide),
        get_setRod]
      rfl
  rw [e]
  rcases hp with rfl | rfl
  · rw [get_setDisch_bits hf hd, get_eq_of_board board_faultOutputs]
  · rw [get_setDisch pPROT_ne_pROD.symm hlt, get_eq_of_board board_faultOutputs]

theorem reg_enterFault {code o : Nat} (he : o ≠ PG.EV_STAT) (hs : o ≠ PROT.STATUS) :
    (s.enterFault n code).reg (pPROT n) o = (s.faultShown n code).reg (pPROT n) o := by
  rw [enterFault_eq]
  dsimp only
  rw [reg_ev he, reg_setRod, reg_setDisch hs]
  exact reg_eq_of_board board_faultOutputs

theorem reg_faultShown {code o : Nat} (hn : n < 24) (ho : o < 4096) (h : o ≠ PROT.STATUS) (hs : o ≠ PG.STAT)
    (he : o ≠ PG.EV_STAT) : (s.faultShown n code).reg (pPROT n) o =
      ((s.setReg (pPROT n) PROT.FIRST code).setReg (pPROT n) PROT.FIRST_NS s.ns).reg (pPROT n) o := by
  rw [State.faultShown, State.setStep, reg_set_off h, reg_setRodSt_prot hn ho h hs he]

theorem ev_faultShown {code : Nat} (hn : n < 24) : (s.faultShown n code).bit (pPROT n) PG.EV_STAT 17 = true := by
  rw [State.faultShown, State.setStep, bit_set_off (by decide)]
  exact ev_setRodSt hn

theorem rodSt_enterFault {code : Nat} (hn : n < 24) : (s.enterFault n code).rodSt n = stFAULT := by
  rw [State.rodSt, get_enterFault (by decide) (by decide) (by decide) (by decide) (.inr rfl), State.faultShown,
    State.setStep, get_set_page pPROT_ne_pROD.symm (by decide) (by decide)]
  exact rodSt_setRodSt hn (by decide)

theorem rodStep_enterFault {code : Nat} : (s.enterFault n code).rodStep n = spNONE := by
  rw [State.rodStep, get_enterFault (by decide) (by decide) (by decide) (by decide) (.inl rfl), State.faultShown,
    State.setStep, get_set_same (by decide) (by decide)]
  rfl

theorem ev_enterFault {code : Nat} (hn : n < 24) : (s.enterFault n code).bit (pPROT n) PG.EV_STAT 16 = true ∧
    (s.enterFault n code).bit (pPROT n) PG.EV_STAT 17 = true := by
  have h : ((s.faultOutputs n code).setDisch n true).bit (pPROT n) PG.EV_STAT 17 = true := by
    rw [State.bit, reg_setDisch (by decide), ← State.bit, bit_eq_of_board board_faultOutputs]
    exact ev_faultShown hn
  rw [enterFault_eq]
  dsimp only
  refine ⟨bit_ev (by decide), ?_⟩
  rw [State.ev, bit_setBit_bits (by decide) (by decide), bit_eq_of_board State.setRod_board]
  exact h

/-! ## A fault cause (R145) -/

theorem maskOf_lt (l : List Nat) (h : ∀ i ∈ l, i < 32) : maskOf l < 2 ^ 32 := by
  have key : ∀ m, m < 2 ^ 32 → l.foldl (fun m i => m ||| 2 ^ i) m < 2 ^ 32 := by
    induction l with
    | nil => exact fun m hm => hm
    | cons i l ih =>
      intro m hm
      refine ih (fun j hj => h j (List.mem_cons_of_mem i hj)) _ (Nat.or_lt_two_pow hm ?_)
      exact Nat.pow_lt_pow_right (by decide) (h i List.mem_cons_self)
  exact key 0 (by decide)

theorem faultCause_enters {bits : List Nat} {low : Nat} (hn : n < 24) (hl : bits.min? = some low)
    (hs : s.rodSt n ≠ stFAULT) : s.faultCause n bits = ((s.tripPath n).enterFault n (low + 1)).setReg (pPROT n) PROT.CAUSE
      (((s.tripPath n).enterFault n (low + 1)).reg (pPROT n) PROT.CAUSE ||| maskOf bits) := by
  rw [State.faultCause, hl]
  dsimp only
  rw [if_pos (by rw [rodSt_tripPath hn]; exact hs)]

/-- Settles O31: the trip path, the entry into FAULT, then the causes. -/
theorem rodFaultEntry : Obligations.RodFaultEntry := by
  intro n s bits low hb hl hs t
  have hn := n.isLt
  have e : t = _ := faultCause_enters hn hl hs
  have hlow : low < 32 := hb low (List.min?_mem hl)
  obtain ⟨p, at_, d, f, hr⟩ := rod_enterFault (s := s.tripPath n) (n := n) (code := low + 1)
  have hrod : t.rod n = ((s.tripPath n).enterFault n (low + 1)).rod n := by rw [e, rod_eq_of_rods State.setReg_rods]
  rw [hr] at hrod
  have hcause : ((s.tripPath n).enterFault n (low + 1)).reg (pPROT n) PROT.CAUSE = s.reg (pPROT n) PROT.CAUSE := by
    rw [reg_enterFault (by decide) (by decide), reg_faultShown hn (by decide) (by decide) (by decide) (by decide),
      reg_setReg_off (by decide), reg_setReg_off (by decide), reg_tripPath hn (by decide) (by decide)]
  obtain ⟨h16, h17⟩ := ev_enterFault (s := s.tripPath n) (code := low + 1) hn
  refine ⟨?_, ?_, ?_, ?_, ?_, ?_, ?_, ?_, ?_, ?_, ?_, ?_, ?_⟩
  · rw [e, State.rodSt, get_setReg_page pPROT_ne_pROD.symm (by decide) (by decide)]
    exact rodSt_enterFault hn
  · rw [e, State.rodStep, get_setReg_off (by decide)]
    exact rodStep_enterFault
  · rw [e, reg_setReg_off (by decide), reg_enterFault (by decide) (by decide),
      reg_faultShown hn (by decide) (by decide) (by decide) (by decide), reg_setReg_off (by decide), reg_setReg_same]
    omega
  · rw [e, reg_setReg_same, hcause]
    exact Nat.mod_eq_of_lt (Nat.or_lt_two_pow (s.word _ _).isLt (maskOf_lt bits hb))
  · rw [e, reg_setReg_off (by decide), reg_enterFault (by decide) (by decide),
      reg_faultShown hn (by decide) (by decide) (by decide) (by decide), reg_setReg_same, Nat.mod_eq_of_lt ns_lt,
      State.ns, beam_tripPath]
    rfl
  · rw [hrod]
    simp only [RodX.cleared]
    rw [rod_tripPath, State.trippedRod]
  · rw [hrod, RodX.cleared]
  · rw [hrod]
  · rw [hrod]
  · rw [hrod]
  · rw [hrod]
  · rw [e, bit_setReg_off (by decide)]
    exact h16
  · rw [e, bit_setReg_off (by decide)]
    exact h17

/-! ## Leaving PRECHARGE and READY (R149) -/

/-- The state of a rod that goes to DISCHARGE, before its record follows. -/
def State.dischargeShown (s : State) (n : Nat) : State :=
  (((s.setRodSt n stDISCHARGE).setPrech n false).setCont n false).setStep n spCONTOPEN

theorem board_enterDischarge : (s.enterDischarge n).board = (s.dischargeShown n).board := by
  unfold State.enterDischarge
  dsimp only
  split
  · rw [State.send_board, State.setRod_board]
    rfl
  · rw [State.setRod_board]
    rfl

theorem rod_enterDischarge : (s.enterDischarge n).rod n =
    { (s.dischargeShown n).rod n with diagStep := 0, diagV := [], testSrc := none, xchk := [0, 0, 0] } := by
  unfold State.enterDischarge
  dsimp only
  split
  · rw [rod_eq_of_rods State.send_rods, State.rod_setRod]
    rfl
  · rw [State.rod_setRod]
    rfl

theorem rod_dischargeShown : ∃ p at_, (s.dischargeShown n).rod n =
    { s.rod n with prevSt := p, stAt := at_, prech := false, cont := false } := by
  rw [State.dischargeShown, State.setStep, rod_eq_of_rods State.set_rods, rod_setCont, rod_setPrech, rod_setRodSt]
  exact ⟨_, _, rfl⟩

theorem rodSt_enterDischarge (hn : n < 24) : (s.enterDischarge n).rodSt n = stDISCHARGE := by
  rw [State.rodSt, get_eq_of_board board_enterDischarge, State.dischargeShown, State.setStep,
    get_set_page pPROT_ne_pROD.symm (by decide) (by decide), get_eq_of_board board_setCont,
    get_eq_of_board board_setPrech]
  exact rodSt_setRodSt hn (by decide)

theorem rodStep_enterDischarge : (s.enterDischarge n).rodStep n = spCONTOPEN := by
  rw [State.rodStep, get_eq_of_board board_enterDischarge, State.dischargeShown, State.setStep,
    get_set_same (by decide) (by decide)]
  rfl

theorem rodSt_enterGatesOff (hn : n < 24) : (s.enterGatesOff n).rodSt n = stGATESOFF := by
  unfold State.enterGatesOff
  dsimp only
  rw [State.rodSt, get_setRod, State.setStep, get_set_page pPROT_ne_pROD.symm (by decide) (by decide),
    get_eq_of_board board_setBrk]
  exact rodSt_setRodSt hn (by decide)

theorem brk_enterGatesOff : ((s.enterGatesOff n).rod n).brk = false := by
  unfold State.enterGatesOff
  dsimp only
  rw [State.rod_setRod, State.setStep, rod_eq_of_rods State.set_rods, rod_setBrk]

/-! ## A descent cause (R149, R156) -/

/-- DESC_CAUSE and DESC_SPD of a rod. -/
def State.descShown (s : State) (n c : Nat) (spd : Bool) : State :=
  (s.set (pPROT n) PROT.STATUS_DESC_CAUSE c).setB (pPROT n) PROT.STATUS_DESC_SPD spd

theorem cause_descShown {c : Nat} (h : c < 16) :
    (s.descShown n c b).get (pPROT n) PROT.STATUS_DESC_CAUSE = c := by
  rw [State.descShown, get_setB_bits (by rfl) (by decide) (by decide) (by decide) (by decide),
    get_set_same (by decide) (by decide)]
  exact Nat.mod_eq_of_lt h

theorem spd_descShown {c : Nat} : (s.descShown n c b).flag (pPROT n) PROT.STATUS_DESC_SPD = b :=
  flag_setB_same (by decide) (by decide)

theorem rodSt_descShown {c : Nat} : (s.descShown n c b).rodSt n = s.rodSt n := by
  rw [State.rodSt, State.descShown, State.setB, get_set_page pPROT_ne_pROD.symm (by decide) (by decide),
    get_set_page pPROT_ne_pROD.symm (by decide) (by decide)]
  rfl

theorem descentCause_run {c : Nat} (h : s.rodSt n = stRUN) :
    ∃ x : RodX, x.descAt = s.beam.t ∧
      s.descentCause n c = ((s.setRodSt n stDESCENT).descShown n c (decide (c ≠ dcSTOP))).setRod n x := by
  refine ⟨?x, ?_, ?_⟩
  case x =>
    exact
      let t := (s.setRodSt n stDESCENT).descShown n c (decide (c ≠ dcSTOP))
      { t.rod n with
        descAt := t.beam.t, descDf0 := t.reg (pLOOP n) LOOP.DFACT, quietFrames := 0, descFrames := 0
        lostFrames := 0, spdIref := t.reg (pLOOP n) LOOP.IREF_D, spd := decide (c ≠ dcSTOP), spdAt := t.beam.t }
  · dsimp only
    rw [State.descShown, State.setB_beam, State.set_beam, beam_setRodSt]
  · unfold State.descentCause
    dsimp only
    rw [if_pos h]
    rfl

/-- Settles O32: one case per state of the rod. -/
theorem rodDescent : Obligations.RodDescent := by
  intro n s c h0 h16 t
  have hn := n.isLt
  refine ⟨fun h => ?run, fun h => ?precharge, fun h hs hc => ?spd, fun h hs => ?stays, fun h hb => ?gatesOff,
    fun h hb => ?discharge, fun h => ?other⟩
  case run =>
    obtain ⟨x, hx, e⟩ := descentCause_run (c := c) h
    have e' : t = _ := e
    rw [e']
    refine ⟨?_, ?_, ?_, ?_⟩
    · rw [State.rodSt, get_setRod, ← State.rodSt, rodSt_descShown, rodSt_setRodSt hn (by decide)]
    · rw [get_setRod, cause_descShown h16]
    · rw [flag_setRod, spd_descShown]
    · rw [State.rod_setRod, hx]
  case precharge =>
    have e : t = s.enterDischarge n := by simp [t, State.descentCause, h]
    obtain ⟨p, at_, hr⟩ := rod_dischargeShown (s := s) (n := n)
    rw [e]
    refine ⟨rodSt_enterDischarge hn, rodStep_enterDischarge, ?_⟩
    rw [rod_enterDischarge, hr]
  case spd =>
    have e : t = (s.descShown n c true).setRod n { (s.descShown n c true).rod n with
        spd := true, spdAt := (s.descShown n c true).beam.t
        spdIref := (s.descShown n c true).reg (pLOOP n) LOOP.IREF_D } := by
      have hne : ¬s.rodSt n = stRUN := by
        rw [h]
        decide
      show s.descentCause n c = _
      unfold State.descentCause
      dsimp only
      rw [if_neg hne, if_pos h, if_pos ⟨hs, hc⟩]
      rfl
    rw [e]
    refine ⟨?_, ?_, ?_⟩
    · rw [State.rodSt, get_setRod, ← State.rodSt, rodSt_descShown, h]
    · rw [get_setRod, cause_descShown h16]
    · rw [flag_setRod, spd_descShown]
  case stays =>
    have hn' : ¬(s.get (pPROT n) PROT.STATUS_DESC_CAUSE = dcSTOP ∧ c ≠ dcSTOP) := by
      rintro ⟨h1, h2⟩
      exact hs.elim (fun h => h h1) h2
    show s.descentCause n c = s
    unfold State.descentCause
    dsimp only
    rw [if_neg (by rw [h]; decide), if_pos h, if_neg hn']
  case gatesOff =>
    have e : t = s.enterGatesOff n := by simp [t, State.descentCause, h, hb]
    rw [e]
    exact ⟨rodSt_enterGatesOff hn, brk_enterGatesOff⟩
  case discharge =>
    have e : t = s.enterDischarge n := by simp [t, State.descentCause, h, hb]
    obtain ⟨p, at_, hr⟩ := rod_dischargeShown (s := s) (n := n)
    rw [e]
    refine ⟨rodSt_enterDischarge hn, ?_⟩
    rw [rod_enterDischarge, hr]
  case other =>
    rcases h with h | h | h | h <;> simp [t, State.descentCause, h]

end

end Sys2Proof.Machine

/-! PROOFS. Detectors, feedback, voltages and limits of the rods (spec/06, R140 to R157). -/

namespace Sys2Proof.Machine

open Host (Outcome)

section

variable {s t : State} {n : Nat}

/-! ## A rod's record stored again -/

theorem setRod_setRod {x y : RodX} : (s.setRod n x).setRod n y = s.setRod n y := by
  simp only [State.setRod, tabPut_put]

/-- The same state, or the same but that the rod's record has been stored again. -/
def RodStored (n : Nat) (s t : State) : Prop := t = s ∨ t = s.setRod n (s.rod n)

theorem RodStored.rod (h : RodStored n s t) : t.rod n = s.rod n := by
  rcases h with rfl | rfl
  · rfl
  · exact State.rod_setRod

theorem RodStored.board (h : RodStored n s t) : t.board = s.board := by
  rcases h with rfl | rfl
  · rfl
  · exact State.setRod_board

theorem RodStored.setRod (h : RodStored n s t) (x : RodX) : t.setRod n x = s.setRod n x := by
  rcases h with rfl | rfl
  · rfl
  · exact setRod_setRod

theorem setReg_setRod {p o v : Nat} {x : RodX} : (s.setRod n x).setReg p o v = (s.setReg p o v).setRod n x := rfl

theorem set_setRod {p v : Nat} {f : Fld} {x : RodX} : (s.setRod n x).set p f v = (s.set p f v).setRod n x := rfl

theorem ev_setRod {p i : Nat} {x : RodX} : (s.setRod n x).ev p i = (s.ev p i).setRod n x := rfl

theorem inc_setRod {p o : Nat} {x : RodX} : (s.setRod n x).inc p o = (s.inc p o).setRod n x := rfl

theorem incSat_setRod {p o : Nat} {x : RodX} : (s.setRod n x).incSat p o = (s.incSat p o).setRod n x := rfl

theorem setBit_setRod {p o i : Nat} {b : Bool} {x : RodX} :
    (s.setRod n x).setBit p o i b = (s.setBit p o i b).setRod n x := rfl

theorem err_setRod {p i : Nat} {x : RodX} : (s.setRod n x).err p i = (s.err p i).setRod n x := by
  have hb : (s.setRod n x).bit p PG.ERR i = s.bit p PG.ERR i := bit_eq_of_board State.setRod_board
  rw [State.err, State.err, hb]
  by_cases h : s.bit p PG.ERR i = true
  · rw [if_pos h, if_pos h, setBit_setRod, setBit_setRod]
  · rw [if_neg h, if_neg h, State.incF, get_setRod, set_setRod, setBit_setRod, setBit_setRod]
    rfl

theorem injDeny_setRod {p : Nat} {x : RodX} : (s.setRod n x).injDeny p = (s.injDeny p).setRod n x := by
  rw [State.injDeny, setReg_setRod, err_setRod, incSat_setRod, ev_setRod, State.injDeny]

theorem ns_setRod {x : RodX} : (s.setRod n x).ns = s.ns := by
  rw [State.ns, State.ns, State.setRod_beam]

/-- A shot of an armed point. -/
def State.injShot (s : State) (p k : Nat) : State :=
  let s := s.set p PG.INJ_SHOTS (s.get p PG.INJ_SHOTS - 1)
  let s := (s.inc p PG.INJ_CNT).incSat pINJ INJ.DELIV_CNT
  let s := s.setReg pINJ INJ.LAST (2 ^ 31 + k * 2 ^ 16 + p)
  (s.setReg pINJ INJ.LAST_NS s.ns).ev pINJ (blk 0)

theorem injShot_setRod {p k : Nat} {x : RodX} : (s.setRod n x).injShot p k = (s.injShot p k).setRod n x := by
  unfold State.injShot
  dsimp only
  rw [get_setRod, set_setRod, inc_setRod, incSat_setRod, setReg_setRod,
    ns_setRod, setReg_setRod, ev_setRod]

theorem injTake_eq (s : State) (p k : Nat) : s.injTake p k =
    if !s.injArmed p k then (false, s)
    else match s.injPoint p k with
      | none => (false, s)
      | some rods => if !s.injSafe rods then (false, s.injDeny p) else (true, s.injShot p k) := rfl

theorem injTake_setRod (s : State) (p k : Nat) (x : RodX) :
    ((s.setRod n x).injTake p k).2 = (s.injTake p k).2.setRod n x := by
  have h1 : (s.setRod n x).injArmed p k = s.injArmed p k := rfl
  have h2 : (s.setRod n x).injPoint p k = s.injPoint p k := rfl
  have h3 : ∀ r, (s.setRod n x).injSafe r = s.injSafe r := fun _ => rfl
  rw [injTake_eq, injTake_eq, h1, h2]
  by_cases ha : !s.injArmed p k
  · rw [if_pos ha, if_pos ha]
  · rw [if_neg ha, if_neg ha]
    cases s.injPoint p k with
    | none => rfl
    | some rods =>
      dsimp only
      rw [h3]
      by_cases hs : !s.injSafe rods
      · rw [if_pos hs, if_pos hs, injDeny_setRod]
      · rw [if_neg hs, if_neg hs, injShot_setRod]

theorem RodStored.injTake {p k : Nat} (h : RodStored n s t) : RodStored n (s.injTake p k).2 (t.injTake p k).2 := by
  have hr : (s.injTake p k).2.rod n = s.rod n := by
    refine rod_eq_of_rods ?_
    have := congrArg State.rods (routed_injTake s p k).rest
    exact this
  rcases h with rfl | rfl
  · exact .inl rfl
  · right
    rw [injTake_setRod, hr]

/-- A comparator that fires does the same, whether the rod's record was stored again before or not. -/
theorem RodStored.cmpFire {k : Nat} {hi : Bool} (h : RodStored n s t) :
    RodStored n (s.cmpFire n k hi).1 (t.cmpFire n k hi).1 ∧ (t.cmpFire n k hi).2 = (s.cmpFire n k hi).2 := by
  have hf : t.flag (pPROT n) (PROT.CMP_CFG_EN k) = s.flag (pPROT n) (PROT.CMP_CFG_EN k) := flag_eq_of_board h.board
  by_cases hc : !s.flag (pPROT n) (PROT.CMP_CFG_EN k) ∨ (s.rod n).fired.testBit k
  · have hc' : !t.flag (pPROT n) (PROT.CMP_CFG_EN k) ∨ (t.rod n).fired.testBit k := by rwa [hf, h.rod]
    have e : s.cmpFire n k hi = (s, false, false) := if_pos hc
    have e' : t.cmpFire n k hi = (t, false, false) := if_pos hc'
    rw [e, e']
    exact ⟨h, rfl⟩
  · have hc' : ¬(!t.flag (pPROT n) (PROT.CMP_CFG_EN k) ∨ (t.rod n).fired.testBit k) := by rwa [hf, h.rod]
    have e : t.cmpFire n k hi = s.cmpFire n k hi := by
      unfold State.cmpFire
      dsimp only
      rw [if_neg hc, if_neg hc', h.rod, h.setRod]
    rw [e]
    exact ⟨.inl rfl, rfl⟩

/-- One comparator of those that fire together. -/
def fireStep (n : Nat) (a : State × Bool × Bool) (c : Nat × Bool) : State × Bool × Bool :=
  let b := a.1.cmpFire n c.1 c.2
  (b.1, a.2.1 || b.2.1, a.2.2 || b.2.2)

theorem RodStored.foldl_fireStep (cmps : List (Nat × Bool)) {a b : State × Bool × Bool} (h : RodStored n a.1 b.1)
    (hb : b.2 = a.2) : RodStored n (cmps.foldl (fireStep n) a).1 (cmps.foldl (fireStep n) b).1 ∧
      (cmps.foldl (fireStep n) b).2 = (cmps.foldl (fireStep n) a).2 := by
  induction cmps generalizing a b with
  | nil => exact ⟨h, hb⟩
  | cons c cmps ih =>
    obtain ⟨h1, h2⟩ := h.cmpFire (k := c.1) (hi := c.2)
    refine ih h1 ?_
    simp only [fireStep, h2, hb]

/-- What follows of the detectors that fired. -/
def fireEnd (n : Nat) (didt : List Nat) (r : State × Bool × Bool) : State :=
  let s := r.1.setRod n { r.1.rod n with didt := (r.1.rod n).didt ||| maskOf didt }
  let bits := (if r.2.1 then [fcCMP] else []) ++ (if didt = [] then [] else [fcDIDT])
  if bits = [] then (if r.2.2 then s.descentCause n dcCMP else s) else s.faultCause n bits

/-- What detectors that fire find first: the point of injection of the first di/dt detector. -/
def State.fireStart (s : State) (n : Nat) (didt : List Nat) : State :=
  if didt.contains 0 then (s.injTake (pPROT n) 1).2 else s

theorem detectorsFire_eq (cmps : List (Nat × Bool)) (didt : List Nat) : s.detectorsFire n cmps didt =
    fireEnd n didt (cmps.foldl (fireStep n) (s.fireStart n didt, false, false)) := rfl

theorem RodStored.fireStart {didt : List Nat} (h : RodStored n s t) :
    RodStored n (s.fireStart n didt) (t.fireStart n didt) := by
  unfold State.fireStart
  split
  · exact h.injTake
  · exact h

/-- Detectors fire alike, whether the rod's record was stored again before or not. -/
theorem detectorsFire_stored (cmps : List (Nat × Bool)) (didt : List Nat) :
    (s.setRod n (s.rod n)).detectorsFire n cmps didt = s.detectorsFire n cmps didt := by
  have h0 : RodStored n s (s.setRod n (s.rod n)) := .inr rfl
  obtain ⟨h2, h3⟩ := RodStored.foldl_fireStep cmps (a := (s.fireStart n didt, false, false))
    (b := ((s.setRod n (s.rod n)).fireStart n didt, false, false)) h0.fireStart rfl
  rw [detectorsFire_eq, detectorsFire_eq]
  unfold fireEnd
  dsimp only
  rw [h3, h2.rod, h2.setRod]

/-! ## Voltages (R151, R155) -/

/-- The state with MEAS and DC_LIVE shown. -/
def State.measured (s : State) (n : Nat) : State :=
  (s.setReg (pPROT n) PROT.MEAS (encSat 16 (s.vs n) * 65536 + encSat 16 (s.vdc n))).setB (pPROT n) PROT.STATUS_DC_LIVE
    (!s.dcSafe n)

theorem slotVal_setReg_prot {k i o v : Nat} (hk : k < 4) (hi : i < 256) (ho : o < 4096) :
    (s.setReg (pPROT n) o v).slotVal k i = s.slotVal k i := by
  have hp : pACQ k ≠ pPROT n := by
    simp only [pACQ, pPROT]
    omega
  have hw : ACQ.SLOT_W0 i < 4096 := by
    simp only [ACQ.SLOT_W0]
    omega
  rw [State.slotVal, reg_setReg_page hp hw ho]
  rfl

theorem vs_setReg_prot {o v : Nat} (hn : n < 24) (ho : o < 4096) (ha : PROT.SLOT_A_VS.off ≠ o)
    (hv : PROT.VSCALE_VS_GAIN.off ≠ o) : (s.setReg (pPROT n) o v).vs n = s.vs n := by
  rw [State.vs, slotVal_setReg_prot (by omega) get_lt ho, get_setReg_off ha, get_setReg_off hv]
  rfl

theorem vdc_setReg_prot {o v : Nat} (hn : n < 24) (ho : o < 4096) (ha : PROT.SLOT_B_VUP.off ≠ o)
    (hv : PROT.SLOT_B_VLO.off ≠ o) : (s.setReg (pPROT n) o v).vdc n = s.vdc n := by
  rw [State.vdc, slotVal_setReg_prot (by omega) get_lt ho, slotVal_setReg_prot (by omega) get_lt ho, get_setReg_off ha,
    get_setReg_off hv]
  rfl

theorem dcSafe_setReg_prot {o v : Nat} (hn : n < 24) (ho : o < 4096) (ha : PROT.SLOT_B_VUP.off ≠ o)
    (hv : PROT.SLOT_B_VLO.off ≠ o) (hs : PROT.VSCALE_DIS_VSAFE.off ≠ o) :
    (s.setReg (pPROT n) o v).dcSafe n = s.dcSafe n := by
  rw [State.dcSafe, vdc_setReg_prot hn ho ha hv, get_setReg_off hs]
  rfl

theorem set_eq_setReg {p v : Nat} {f : Fld} :
    s.set p f v = s.setReg p f.off (f.write (s.word p f.off) v).toNat := by
  rw [State.set, State.setReg, wordOf, BitVec.ofNat_toNat, BitVec.setWidth_eq]

theorem measured_eq : ∃ x y, s.measured n = (s.setReg (pPROT n) PROT.MEAS x).setReg (pPROT n) PROT.STATUS y :=
  ⟨_, _, set_eq_setReg⟩

theorem vs_measured (hn : n < 24) : (s.measured n).vs n = s.vs n := by
  obtain ⟨x, y, h⟩ := measured_eq (s := s) (n := n)
  rw [h, vs_setReg_prot hn (by decide) (by decide) (by decide), vs_setReg_prot hn (by decide) (by decide) (by decide)]

theorem dcSafe_measured (hn : n < 24) : (s.measured n).dcSafe n = s.dcSafe n := by
  obtain ⟨x, y, h⟩ := measured_eq (s := s) (n := n)
  rw [h, dcSafe_setReg_prot hn (by decide) (by decide) (by decide) (by decide),
    dcSafe_setReg_prot hn (by decide) (by decide) (by decide) (by decide)]

theorem rodSt_measured : (s.measured n).rodSt n = s.rodSt n := by
  rw [State.rodSt, State.measured, State.setB, get_set_page pPROT_ne_pROD.symm (by decide) (by decide),
    get_setReg_page pPROT_ne_pROD.symm (by decide) (by decide)]
  rfl

/-- What the voltages of a rod do to its state. -/
def State.voltageActs (s : State) (n : Nat) : State :=
  if s.rodSt n = stPRECHARGE ∧ s.vs n * 2 < ((s.rod n).vs0 : Int) then
    (s.err (pPROT n) (blk 4)).faultCause n [fcSTRING]
  else if s.rodSt n = stDISCHARGE ∧ s.dcSafe n then s.enterOff n
  else s

theorem voltageEval_measured (hn : n < 24) : s.voltageEval n = (s.measured n).voltageActs n := by
  have e : (s.setReg (pPROT n) PROT.MEAS (encSat 16 (s.vs n) * 65536 + encSat 16 (s.vdc n))).dcSafe n = s.dcSafe n :=
    dcSafe_setReg_prot hn (by decide) (by decide) (by decide) (by decide)
  rw [State.measured, ← e]
  rfl

theorem voltageEval_eq (hn : n < 24) : s.voltageEval n =
    if s.rodSt n = stPRECHARGE ∧ s.vs n * 2 < ((s.rod n).vs0 : Int) then
      ((s.measured n).err (pPROT n) (blk 4)).faultCause n [fcSTRING]
    else if s.rodSt n = stDISCHARGE ∧ s.dcSafe n then (s.measured n).enterOff n
    else s.measured n := by
  have hx : (s.measured n).rod n = s.rod n := by
    rw [State.measured, rod_eq_of_rods State.setB_rods, rod_eq_of_rods State.setReg_rods]
  rw [voltageEval_measured hn, State.voltageActs, vs_measured hn, dcSafe_measured hn, rodSt_measured, hx]

/-! ## The contactor's feedback (R149) -/

/-- The two feedbacks of a rod. -/
def State.fedBack (s : State) (n : Nat) (cont brk : Bool) : State :=
  (s.setB (pPROT n) PROT.STATUS_CONT_FBK cont).setB (pPROT n) PROT.STATUS_BRK_FBK brk

theorem rodSt_fedBack {c b : Bool} : (s.fedBack n c b).rodSt n = s.rodSt n := by
  rw [State.rodSt, State.fedBack, State.setB, get_set_page pPROT_ne_pROD.symm (by decide) (by decide), State.setB,
    get_set_page pPROT_ne_pROD.symm (by decide) (by decide)]
  rfl

theorem rodStep_fedBack {c b : Bool} : (s.fedBack n c b).rodStep n = s.rodStep n := by
  rw [State.rodStep, State.fedBack, get_setB_bits (by rfl) (by decide) (by decide) (by decide) (by decide),
    get_setB_bits (by rfl) (by decide) (by decide) (by decide) (by decide)]
  rfl

/-- A rod whose contactor has closed. -/
def State.contClosed (s : State) (n : Nat) : State :=
  ((((s.setPrech n false).set (pPROT n) PROT.STATUS_PC_SHORTS 0).setRodSt n stREADY).setStep n spNONE)

theorem feedbackSample_closed {m : Fin 24} {b : Bool} (h : s.rodSt m = stPRECHARGE) (h' : s.rodStep m = spCONTCLOSE) :
    exec (.feedbackSample m true b) s = .next ((s.fedBack m true b).contClosed m) := by
  have hc : (s.fedBack m true b).rodSt m = stPRECHARGE ∧ (s.fedBack m true b).rodStep m = spCONTCLOSE ∧ true = true :=
    ⟨rodSt_fedBack.trans h, rodStep_fedBack.trans h', rfl⟩
  exact if_pos hc

theorem contClosed_spec (hn : n < 24) : (s.contClosed n).rodSt n = stREADY ∧ (s.contClosed n).rodStep n = spNONE ∧
    ((s.contClosed n).rod n).prech = false ∧ (s.contClosed n).get (pPROT n) PROT.STATUS_PC_SHORTS = 0 ∧
    (s.contClosed n).flag (pPROT n) PROT.STATUS_CONT_FBK = s.flag (pPROT n) PROT.STATUS_CONT_FBK := by
  refine ⟨?_, ?_, ?_, ?_, ?_⟩
  · rw [State.rodSt, State.contClosed, State.setStep, get_set_page pPROT_ne_pROD.symm (by decide) (by decide)]
    exact rodSt_setRodSt hn (by decide)
  · rw [State.rodStep, State.contClosed, State.setStep, get_set_same (by decide) (by decide)]
    rfl
  · rw [State.contClosed, State.setStep, rod_eq_of_rods State.set_rods, rod_setRodSt, rod_eq_of_rods State.set_rods,
      rod_setPrech]
  · rw [State.contClosed, State.setStep, get_set_bits (by rfl) (by decide) (by decide) (by decide) (by decide),
      get_setRodSt_status hn (by rfl) (by decide) (by decide), get_set_same (by decide) (by decide)]
    rfl
  · rw [State.flag, State.flag, State.contClosed, State.setStep,
      get_set_bits (by rfl) (by decide) (by decide) (by decide) (by decide),
      get_setRodSt_status hn (by rfl) (by decide) (by decide),
      get_set_bits (by rfl) (by decide) (by decide) (by decide) (by decide), get_eq_of_board board_setPrech]

/-! ## The detectors at the end of a blanking window (R143) -/

theorem blankClose_free {m : Fin 24} {x : Fin 3} {cmps : List (Fin 16 × Int × Nat)} {v : Int} (h : (s.rod m).blanks = [])
    (hc : ∀ c ∈ cmps, c.1.val < 9 ∧ c.1.val % 3 = x.val) (ho : ∀ c ∈ cmps, s.cmpOver m c.1 c.2.1 c.2.2 = true) :
    exec (.blankClose m x cmps v) s = .next (s.detectorsFire m
      (cmps.map (fun c => (c.1.val, decide (s.cmpHi m c.1 < c.2.1)))) (if s.didtOver m v then [x.val] else [])) := by
  have hx : { s.rod m with
      blanks := (s.rod m).blanks.filter (fun w => decide (w.1 ≠ x.val) || decide (s.uticks < w.2.2)) } = s.rod m := by
    rw [h, List.filter_nil, ← h]
  have hb : (s.setRod m (s.rod m)).blanked m x = false := by
    rw [State.blanked, State.rod_setRod, h]
    rfl
  have hf : cmps.filter (fun c => decide (c.1.val < 9) && decide (c.1.val % 3 = x.val) &&
      (s.setRod m (s.rod m)).cmpOver m c.1 c.2.1 c.2.2) = cmps := by
    refine List.filter_eq_self.mpr fun c h => ?_
    obtain ⟨h9, h3⟩ := hc c h
    have e : (s.setRod m (s.rod m)).cmpOver m c.1 c.2.1 c.2.2 = s.cmpOver m c.1 c.2.1 c.2.2 := by
      unfold State.cmpOver
      rw [State.rod_setRod, State.setRod_beam]
      rfl
    rw [e, ho c h]
    simp [h9, h3]
  show execBlankClose m x cmps v s = _
  unfold execBlankClose
  dsimp only
  rw [hx, hb, if_neg (by decide), hf]
  exact congrArg Outcome.next (detectorsFire_stored _ _)

/-- Settles O30: each detector where it fires and where it does not, then feedback, limits and voltages. -/
theorem rodDetectors : Obligations.RodDetectors := by
  intro n s p
  have hn := n.isLt
  refine ⟨fun k v since h hm => ?fire, fun k v since h => ?quiet, fun k v hk hi ht => ?rearm, fun k v hk ho ht => ?rearmDidt,
    fun k v h => ?kept, fun x v ho hb => ?didt, fun x v h => ?noDidt,
    fun x cmps v hb hc ho => blankClose_free hb hc ho, fun b hr hs => ?closed, fun h => ?cont, fun h => ?contOk,
    fun he h => ?brk, fun h => ?descent, fun h hd => ?disLim, fun h => ?disOk, fun h => ?disStop,
    fun meas hm => ⟨fun h => ?run, fun h hd => ?off, fun h hv => ?string⟩, rfl, rfl⟩
  case fire => simp [exec, execComparatorFire, h, hm]
  case quiet =>
    rcases h with h | h
    · simp [exec, execComparatorFire, h]
    · simp [exec, execComparatorFire, h]
  case rearm => simp [exec, execComparatorRearm, hk, hi, ht]
  case rearmDidt => simp [exec, execComparatorRearm, Nat.not_lt.mpr hk, ho, ht]
  case kept =>
    by_cases hk : k.val < 16
    · rw [if_pos hk] at h
      simp [exec, execComparatorRearm, hk, h]
    · rw [if_neg hk] at h
      simp [exec, execComparatorRearm, hk, h]
  case didt => simp [exec, execDidtFire, ho, hb]
  case noDidt =>
    rcases h with h | h
    · simp [exec, execDidtFire, h]
    · simp [exec, execDidtFire, h]
  case closed =>
    obtain ⟨h1, h2, h3, h4, h5⟩ := contClosed_spec (s := s.fedBack n true b) hn
    refine ⟨_, feedbackSample_closed hr hs, h1, h2, h3, h4, h5.trans ?_⟩
    rw [State.fedBack, flag_setB_bits (by rfl) (by decide) (by decide) (by decide) (by decide)]
    exact flag_setB_same (by decide) (by decide)
  case cont => exact if_pos h
  case contOk => exact if_neg (not_not.mpr h)
  case brk => exact if_pos (by rw [he, decide_eq_true h]; rfl)
  case descent => exact if_pos h
  case disLim =>
    refine if_pos ?_
    rcases h with h | h
    · rw [h, hd]
      rfl
    · rw [h, hd, Bool.or_true]
      rfl
  case disOk => exact if_neg (by rw [h]; simp)
  case disStop => exact if_pos h
  case run =>
    have h1 : ¬(s.rodSt n = stPRECHARGE ∧ s.vs n * 2 < ((s.rod n).vs0 : Int)) := fun hc =>
      absurd (h.symm.trans hc.1) (by decide)
    have h2 : ¬(s.rodSt n = stDISCHARGE ∧ s.dcSafe n) := fun hc => absurd (h.symm.trans hc.1) (by decide)
    exact congrArg Outcome.next (((voltageEval_eq hn).trans (if_neg h1)).trans ((if_neg h2).trans hm.symm))
  case off =>
    have h1 : ¬(s.rodSt n = stPRECHARGE ∧ s.vs n * 2 < ((s.rod n).vs0 : Int)) := fun hc =>
      absurd (h.symm.trans hc.1) (by decide)
    rw [hm]
    exact congrArg Outcome.next (((voltageEval_eq hn).trans (if_neg h1)).trans (if_pos ⟨h, hd⟩))
  case string =>
    rw [hm]
    exact congrArg Outcome.next ((voltageEval_eq hn).trans (if_pos ⟨h, hv⟩))

end

end Sys2Proof.Machine

/-! PROOFS. The commands of PROT.CMD and the way of a rod from OFF to RUN (spec/06, R149 to R152, R158 to R165). -/

namespace Sys2Proof.Machine

open Host (Outcome)

section

variable {s t : State} {w : Writer} {m : Fin 24} {n : Nat}

/-! ## One command of PROT.CMD (R158) -/

theorem pageType_prot (n : Fin 24) : pageType (pPROT n) = some .prot := by
  revert n
  decide

/-- A command word of one bit names that bit's command. -/
theorem firstCmd_bit (c : RodCmd) : firstCmd ((wordOf (2 ^ c.bit)).toNat % 64) = some c := by
  cases c <;> decide

/-- A command with its bit alone is not refused as one of several. -/
theorem oneCmd_single (c : RodCmd) : decide ((wordOf (2 ^ c.bit)).toNat % 64 ≠ 2 ^ c.bit) = false := by
  cases c <;> decide

/-- Whether a rod that shuts down refuses the command. -/
def State.shutsOut (s : State) (n : Nat) (c : RodCmd) : Bool :=
  decide (c = .start ∨ c = .run) && shuttingSt (s.rodSt n) && !s.pageRests (pPROT n)

theorem cmdWrite_one (c : RodCmd) : s.cmdWrite w n (wordOf (2 ^ c.bit)) =
    if s.shutsOut n c then s.refuseShutting w (pPROT n)
    else s.actionWrite w (pPROT n) (fun s => s.rodCmd n false c) := by
  have hc : ((c = .start ∨ c = .run) ∧ shuttingSt (s.rodSt n) ∧ !s.pageRests (pPROT n)) ↔ s.shutsOut n c := by
    simp only [State.shutsOut, Bool.and_eq_true, decide_eq_true_eq, and_assoc]
  unfold State.cmdWrite
  dsimp only
  rw [firstCmd_bit]
  dsimp only
  rw [oneCmd_single]
  by_cases h : s.shutsOut n c = true
  · rw [if_pos h, if_pos (hc.mpr h)]
    rfl
  · rw [if_neg h, if_neg (fun h' => h (hc.mp h'))]

/-- A command that its rod takes, with its answer. -/
theorem oneCmd_taken {c : RodCmd} {code : Code} (h : s.mayAct w (pPROT m)) (hs : s.shutsOut m c = false)
    (e : s.rodCmd m false c = (t, code)) : s.oneCmd w m c = (t.countRefused w (pPROT m) code).answer w code := by
  rw [State.oneCmd, cmdWrite_one, hs]
  exact finish_action_code (f := fun s => s.rodCmd m false c) h (ownerPage_of_type (pageType_prot m)) e

theorem oneCmd_ok {c : RodCmd} (h : s.mayAct w (pPROT m)) (hs : s.shutsOut m c = false)
    (e : s.rodCmd m false c = (t, .ok)) : s.oneCmd w m c = t.answer w .ok := by
  rw [State.oneCmd, cmdWrite_one, hs]
  exact finish_action (f := fun s => s.rodCmd m false c) h e

/-- START and RUN of a rod that shuts down. -/
theorem oneCmd_busy {c : RodCmd} (h : s.mayAct w (pPROT m)) (hs : s.shutsOut m c = true) :
    s.oneCmd w m c = ((s.err (pPROT m) 2).countRefused w (pPROT m) .busy).answer w .busy := by
  obtain ⟨hr, hl⟩ := h
  have hl' : (s.leasedByOther w (pPROT m) && !s.kernelWrites w) = false := by
    simpa [leaseRefuses] using hl
  have e : s.refuseShutting w (pPROT m) = (s.err (pPROT m) 2, .busy) := by
    rw [State.refuseShutting, hl']
    rfl
  rw [State.oneCmd, cmdWrite_one, hs, if_pos rfl, e, finish_own (ownerPage_of_type (pageType_prot m))]

theorem shutsOut_other {c : RodCmd} (h : ¬(c = .start ∨ c = .run)) : s.shutsOut n c = false := by
  rw [State.shutsOut, decide_eq_false h, Bool.false_and, Bool.false_and]

theorem rodCmd_stop (h : ¬(s.rodSt n = stOFF ∨ s.rodSt n = stFAULT)) :
    s.rodCmd n false .stop = (s.descentCause n dcSTOP, .ok) := if_neg h

theorem rodCmd_stop_refused (h : s.rodSt n = stOFF ∨ s.rodSt n = stFAULT) :
    s.rodCmd n false .stop = (s.deny n 10, .writeRefused) := if_pos h

theorem rodCmd_clear (h : s.rodSt n = stFAULT) (hc : s.clearOk n = true) :
    s.rodCmd n false .clear = (s.clearRod n, .ok) :=
  (if_neg (not_not.mpr h)).trans (if_pos hc)

theorem rodCmd_clear_refused (h : s.rodSt n = stFAULT) (hc : s.clearOk n = false) :
    s.rodCmd n false .clear = (s.deny n 7, .writeRefused) :=
  (if_neg (not_not.mpr h)).trans (if_neg (fun h' => Bool.false_ne_true (hc.symm.trans h')))

theorem rodCmd_clear_elsewhere (h : s.rodSt n ≠ stFAULT) : s.rodCmd n false .clear = (s.deny n 10, .writeRefused) :=
  if_pos h

theorem rodCmd_start (h : s.startReasons n = []) : s.rodCmd n false .start = (s.startRod n, .ok) := by
  simp only [State.rodCmd, h, Bool.false_eq_true, if_false]

theorem rodCmd_start_refused {c : Nat} (h : s.startReasons n = [c]) :
    s.rodCmd n false .start = (s.deny n c, .writeRefused) := by
  simp only [State.rodCmd, h, State.denyOne, Bool.false_eq_true, if_false]

theorem rodCmd_run (h : s.runReasons n = []) : s.rodCmd n false .run = (s.runRod n, .ok) := by
  simp only [State.rodCmd, h, Bool.false_eq_true, if_false]

theorem rodCmd_run_refused {c : Nat} (h : s.runReasons n = [c]) :
    s.rodCmd n false .run = (s.deny n c, .writeRefused) := by
  simp only [State.rodCmd, h, State.denyOne, Bool.false_eq_true, if_false]

theorem rodCommands : Claims.RodCommands := by
  intro w n s p refused busy h
  have other {c : RodCmd} (hc : ¬(c = .start ∨ c = .run)) : s.shutsOut n c = false := shutsOut_other hc
  have next {x y : State} (e : x = y) : (Outcome.next x : Outcome State Fault Refusal) = .next y := congrArg _ e
  refine ⟨next ?trip, fun h1 h2 => next ?stop, fun h' => next ?stopRefused, fun h1 h2 => next ?clear,
    fun h1 h2 => next ?clearRefused, fun h' => next ?clearElsewhere, next ?lockout, fun hs => ?starts, fun hs => ?busy⟩
  case trip => exact oneCmd_ok h (other (by decide)) rfl
  case stop => exact oneCmd_ok h (other (by decide)) (rodCmd_stop (not_or.mpr ⟨h1, h2⟩))
  case stopRefused => exact oneCmd_taken h (other (by decide)) (rodCmd_stop_refused h')
  case clear => exact oneCmd_ok h (other (by decide)) (rodCmd_clear h1 h2)
  case clearRefused => exact oneCmd_taken h (other (by decide)) (rodCmd_clear_refused h1 h2)
  case clearElsewhere => exact oneCmd_taken h (other (by decide)) (rodCmd_clear_elsewhere h')
  case lockout => exact oneCmd_ok h (other (by decide)) rfl
  case starts =>
    have hs' (c : RodCmd) : s.shutsOut n c = false := by rw [State.shutsOut, hs, Bool.and_false, Bool.false_and]
    exact ⟨fun h' => next (oneCmd_ok h (hs' .start) (rodCmd_start h')),
      fun c h' => next (oneCmd_taken h (hs' .start) (rodCmd_start_refused h')),
      fun h' => next (oneCmd_ok h (hs' .run) (rodCmd_run h')),
      fun c h' => next (oneCmd_taken h (hs' .run) (rodCmd_run_refused h'))⟩
  case busy =>
    have hs' {c : RodCmd} (hc : c = .start ∨ c = .run) : s.shutsOut n c = true := by
      rw [State.shutsOut, hs, h.1, decide_eq_true hc]
      rfl
    exact ⟨next (oneCmd_busy h (hs' (.inl rfl))), next (oneCmd_busy h (hs' (.inr rfl)))⟩

/-! ## The trip-path test that passes (R164, R413) -/

/-- MON_STAT of a rod whose trip-path test has passed. -/
def State.pathTested (s : State) (n : Nat) : State :=
  let s := s.setSafe { s.safe with testTime := s.safe.testTime.set n (some (s.reg64 pAON AON.CNT_LO)) }
  let s := s.setReg pSAFE (SAFE.MON_STAT n) (s.reg pSAFE (SAFE.MON_STAT n) % 65536)
  ((s.set pSAFE (SAFE.MON_STAT_TEST_OK n) 1).set pSAFE (SAFE.MON_STAT_TEST_FAIL n) 0).set pSAFE
    (SAFE.MON_STAT_TEST_DUE n) 0

/-- The rod that reads the identities of its modules next. -/
def State.idReads (s : State) (n : Nat) : State :=
  (s.setRod n { s.rod n with start := some .idRead, idGot := [], idCur := [] }).setStep n spIDREAD

theorem pSAFE_ne_pPROT (hn : n < 24) : pSAFE ≠ pPROT n := by
  simp only [pSAFE, pPROT]
  omega

theorem flag_idReads {f : Fld} (hn : n < 24) (hf : f.off < 4096) : (s.idReads n).flag pSAFE f = s.flag pSAFE f := by
  rw [State.idReads, State.setStep, flag_set_page (pSAFE_ne_pPROT hn) hf (by decide), flag_setRod]

theorem board_setSafe {x : SafeX} : (s.setSafe x).board = s.board := rfl

theorem sameRegs_pathTested : SameRegs s (s.pathTested n) [(pSAFE, SAFE.MON_STAT n)] :=
  ((((sameRegs_refl.of_board board_setSafe).setReg (by simp)).set (by simp)).set
    (by simp)).set (by simp)

theorem sameRegs_idReads : SameRegs s (s.idReads n) [(pPROT n, PROT.STATUS)] :=
  (sameRegs_refl.of_board State.setRod_board).set (by simp)

theorem sameMem_pathTested : SameMem s (s.pathTested n) := by
  have h := k0_sameMem s
  exact keeps_State_set h (keeps_State_set h (keeps_State_set h (keeps_State_setReg h
    (h.frame (sameMem_refl s) board_setSafe rfl rfl rfl rfl rfl))))

theorem get_glk_tested {f : Fld} (hn : n < 24) (hf : f.off < 4096) :
    ((s.pathTested n).idReads n).flag (pGLK n) f = s.flag (pGLK n) f := by
  have h1 : pGLK n ≠ pPROT n := by
    simp only [pGLK, pPROT]
    omega
  have h2 : pGLK n ≠ pSAFE := by
    simp only [pGLK, pSAFE]
    omega
  have hm : SAFE.MON_STAT n < 4096 := by
    simp only [SAFE.MON_STAT]
    omega
  unfold State.idReads State.setStep
  rw [flag_set_page h1 hf (by decide), flag_setRod]
  unfold State.pathTested
  dsimp only
  rw [flag_set_page h2 hf hm, flag_set_page h2 hf hm, flag_set_page h2 hf hm, flag_setReg_page h2 hf hm,
    flag_eq_of_board board_setSafe]

theorem pathTest_passes {m : Fin 24} (hs : (s.rod m).start = some .pathTest)
    (ht : (s.enabledPos m).all (fun q => (s.link (m * 12 + q)).testHb) = true) :
    exec (.tripPathTest m) s = .next (let t := (s.pathTested m).idReads m
      if t.flag (pGLK m) GLK.REQ_CTL_GO then t else t.idReq m 1) := by
  have e : exec (.tripPathTest m) s = (if (s.rod m).start ≠ some .pathTest then .next s
    else if (s.enabledPos m).all (fun q => (s.link (m * 12 + q)).testHb) then .next (let t := (s.pathTested m).idReads m
      if t.flag (pGLK m) GLK.REQ_CTL_GO then t else t.idReq m 1)
    else .next (((s.set pSAFE (SAFE.MON_STAT_TEST_FAIL m) 1).err pSAFE (blk 6)).startFails m 4)) := rfl
  rw [e, if_neg (not_not.mpr hs), if_pos ht]

theorem flags_pathTested : (s.pathTested n).flag pSAFE (SAFE.MON_STAT_TEST_OK n) = true ∧
    (s.pathTested n).flag pSAFE (SAFE.MON_STAT_TEST_FAIL n) = false ∧
    (s.pathTested n).flag pSAFE (SAFE.MON_STAT_TEST_DUE n) = false := by
  unfold State.pathTested
  dsimp only
  refine ⟨?_, ?_, ?_⟩
  · rw [flag_set_bits (by rfl) (by simp) (by simp) (by simp) (by simp),
      flag_set_bits (by rfl) (by simp) (by simp) (by simp) (by simp)]
    exact flag_set_same (by simp) (by simp)
  · rw [flag_set_bits (by rfl) (by simp) (by simp) (by simp) (by simp)]
    exact flag_set_same (by simp) (by simp)
  · exact flag_set_same (by simp) (by simp)

/-! ## Precharge (R152) -/

/-- The ratio of the voltages that PC_LOG records. -/
theorem pcRatio_pos (h : 0 < ((s.rod n).vs0 : Int)) :
    s.pcRatio n = ((clampI 0 1023 (s.vdc n * 1000 / ((s.rod n).vs0 : Int))).toNat, s) := by
  have h0 : ¬(s.rod n).vs0 = 0 := by omega
  exact if_neg h0

theorem vdc_set_log {f : Fld} {v : Nat} (hn : n < 24) (hf : f.off = PROT.PC_LOG) :
    (s.set (pPROT n) f v).vdc n = s.vdc n := by
  rw [set_eq_setReg, hf, vdc_setReg_prot hn (by decide) (by decide) (by decide)]

/-- The rod at its first time constant, with the recorded ratio. -/
theorem precharge1tau_charging {m : Fin 24} (hs : s.rodSt m = stPRECHARGE) (hp : s.rodStep m = spPCCHARGE)
    (h0 : 0 < ((s.rod m).vs0 : Int)) : exec (.precharge1tau m) s =
      let l := s.set (pPROT m) ⟨PROT.PC_LOG, 9, 0⟩ (clampI 0 1023 (s.vdc m * 1000 / ((s.rod m).vs0 : Int))).toNat
      if s.vdc m * 100 < 40 * ((s.rod m).vs0 : Int) then .next (l.prechargeShort m)
      else if ((orFull (s.get (pPROT m) PROT.PC_CFG_PC_HI1) 85 : Nat) : Int) * ((s.rod m).vs0 : Int) < s.vdc m * 100 then
        .next (l.faultCause m [fcPCFAST])
      else .next l := by
  show execPrecharge1tau m s = _
  unfold execPrecharge1tau
  rw [if_neg (by simp [hs, hp]), pcRatio_pos h0]

theorem precharge3tau_charging {m : Fin 24} (hs : s.rodSt m = stPRECHARGE) (hp : s.rodStep m = spPCCHARGE)
    (h0 : 0 < ((s.rod m).vs0 : Int)) : exec (.precharge3tau m) s =
      let l := s.set (pPROT m) ⟨PROT.PC_LOG, 25, 16⟩ (clampI 0 1023 (s.vdc m * 1000 / ((s.rod m).vs0 : Int))).toNat
      if s.vdc m * 100 < ((orFull (s.get (pPROT m) PROT.PC_CFG_PC_MIN3) 90 : Nat) : Int) * ((s.rod m).vs0 : Int) then
        .next (l.faultCause m [fcPCSLOW])
      else .next ((l.setCont m true).setStep m spCONTCLOSE) := by
  show execPrecharge3tau m s = _
  unfold execPrecharge3tau
  rw [if_neg (by simp [hs, hp]), pcRatio_pos h0]
  dsimp only
  rw [vdc_set_log m.isLt (by rfl), rod_eq_of_rods State.set_rods]

/-! ## Into RUN (R149) -/

/-- A rod that runs, before its record is cleared. -/
def State.runShown (s : State) (n : Nat) : State :=
  ((s.setRodSt n stRUN).setStep n spNONE).setReg (pROD n) ROD.STALE_RUN 0

theorem energise_runs {m : Fin 24} (hs : s.rodSt m = stREADY) (hp : s.rodStep m = spENERGISE) (hf : s.fineLock = true)
    (ht : (s.enabledPos m).all (fun q => s.flag (pGLK m) (GLK.LSTAT_TIME_OK q)) = true) :
    exec (.energiseDone m) s = .next ((s.runShown m).setRod m { (s.runShown m).rod m with
      tripped := false, legs := [{}, {}, {}], modEnd := none, xchk := [0, 0, 0]
      runs := ((s.runShown m).rod m).runs + 1 }) := by
  exact if_pos ⟨hs, hp, hf, ht⟩

theorem runShown_spec (hn : n < 24) : (s.runShown n).rodSt n = stRUN ∧ (s.runShown n).rodStep n = spNONE ∧
    (s.runShown n).reg (pROD n) ROD.STALE_RUN = 0 := by
  refine ⟨?_, ?_, reg_setReg_same⟩
  · rw [State.runShown, State.rodSt, get_setReg_off (by decide), State.setStep,
      get_set_page pPROT_ne_pROD.symm (by decide) (by decide)]
    exact rodSt_setRodSt hn (by decide)
  · rw [State.runShown, State.rodStep, get_setReg_page pPROT_ne_pROD (by decide) (by decide), State.setStep,
      get_set_same (by decide) (by decide)]
    rfl

/-! ## The way from OFF to RUN -/

theorem rodStartSequence : Claims.RodStartSequence := by
  intro n s p v0 tested
  have hn := n.isLt
  refine ⟨fun hs ht => ?pathFails, fun hs ht => ?pathPasses, fun hs hl hd => ?ids, fun hs ht => if_pos ⟨hs, ht⟩,
    fun hs hp h0 => ?precharge, rfl, fun hs hp => ?diag, fun hs hp hf ht => ?runs⟩
  case pathFails =>
    refine (if_neg (not_not.mpr hs)).trans (if_neg ?_)
    exact fun h => Bool.false_ne_true (ht.symm.trans h)
  case pathPasses =>
    obtain ⟨h1, h2, h3⟩ := flags_pathTested (s := s) (n := n)
    have hm : SAFE.MON_STAT n < 4096 := by
      simp only [SAFE.MON_STAT]
      omega
    refine ⟨(s.pathTested n).idReads n, ?_, (flag_idReads hn hm).trans h1, (flag_idReads hn hm).trans h2,
      (flag_idReads hn hm).trans h3, ?_, ?_, ?_, ?_⟩
    · rw [pathTest_passes hs ht]
      dsimp only
      rw [get_glk_tested hn (by decide)]
    · rw [State.idReads, State.setStep, rod_eq_of_rods State.set_rods, State.rod_setRod]
    · rw [State.idReads, State.rodStep, State.setStep, get_set_same (by decide) (by decide)]
      rfl
    · exact keeps_State_setStep (k0_sameMem s) (keeps_State_setRod (k0_sameMem s) sameMem_pathTested)
    · exact (sameRegs_pathTested.mono (by simp)).trans (sameRegs_idReads.mono (by simp [p]))
  case ids =>
    have h0 : ¬((s.rod n).start ≠ some .idRead ∨ (s.rod n).idGot.length ≠ 3 ∨ s.dev ≠ dvRUN) := by
      simp [hs, hl, hd]
    intro l t
    refine ⟨fun h => ?_, fun h => ?_⟩
    · exact (if_neg h0).trans (if_pos h)
    · exact (if_neg h0).trans (if_neg (fun h' => Bool.false_ne_true (h.symm.trans h')))
  case precharge =>
    have e1 := precharge1tau_charging hs hp h0
    have e3 := precharge3tau_charging hs hp h0
    dsimp only at e1 e3
    intro ratio hi min3 l1 l3
    refine ⟨fun h => ?_, fun h h' => ?_, fun h h' => ?_, fun h => ?_, fun h => ?_⟩
    · exact e1.trans (if_pos h)
    · exact e1.trans ((if_neg (not_lt.mpr h)).trans (if_neg (not_lt.mpr h')))
    · exact e1.trans ((if_neg (not_lt.mpr h)).trans (if_pos h'))
    · exact e3.trans (if_neg (not_lt.mpr h))
    · exact e3.trans (if_pos h)
  case diag =>
    have h0 : ¬(s.rodSt n ≠ stREADY ∨ s.rodStep n ≠ spDIAG) := by simp [hs, hp]
    intro x v res t
    refine ⟨fun h => ?_, fun h h' => ?_, fun h h' => ?_⟩
    · exact (if_neg h0).trans (if_pos h)
    · exact (if_neg h0).trans ((if_neg (not_lt.mpr h)).trans (if_pos h'))
    · exact (if_neg h0).trans ((if_neg (not_lt.mpr h)).trans (if_neg h'))
  case runs =>
    have e := energise_runs hs hp hf ht
    obtain ⟨h1, h2, h3⟩ := runShown_spec (s := s) hn
    refine ⟨_, e, ?_, ?_, ?_, ?_, sameMem_of_exec rfl rfl e⟩
    · rw [State.rodSt, get_setRod]
      exact h1
    · rw [State.rodStep, get_setRod]
      exact h2
    · rw [State.rod_setRod]
    · rw [reg_setRod]
      exact h3

/-- Settles O29: the commands, then the way from OFF to RUN. -/
theorem rodOperation : Obligations.RodOperation := ⟨rodCommands, rodStartSequence⟩

end

end Sys2Proof.Machine

/-! PROOFS. Acquisition (spec/07, R172 to R184). -/

namespace Sys2Proof.Machine

open Host (Outcome)

section

/-- A sequencer table whose second word of entry 0 holds ones in its reserved bits, with every domain active. -/
def reservedEntry : State := State.reset.setWord 0x800 4 (wordOf 0xFFFFFFFF)

/-- The second word of entry 0 after a command. -/
def entryAfter (o : Outcome State Fault Refusal) : Nat :=
  match o with
  | .next t => t.reg 0x800 4
  | _ => 0

/-- A write of 0 leaves the reserved bits as they were. -/
theorem entryAfter_seqTableWrite : entryAfter (exec (.seqTableWrite .spc 0 0 0 1 (wordOf 0)) reservedEntry) = 0x1E0FFFF0 := by
  decide

/-- Refutes O33: a write of a sequencer entry's second word keeps its reserved bits, it does not clear them. -/
theorem not_acquisition : ¬ Obligations.Acquisition := by
  rintro ⟨hc, -, -⟩
  obtain ⟨-, -, -, -, -, -, -, -, -, htable⟩ := hc .spc 0 0 reservedEntry
  obtain ⟨-, hwrite⟩ := htable 0 1 (wordOf 0) (by decide)
  have e := hwrite (by decide) (by decide)
  have h : entryAfter (exec (.seqTableWrite .spc 0 0 0 1 (wordOf 0)) reservedEntry) = 0 :=
    (congrArg entryAfter e).trans (by decide)
  exact absurd (entryAfter_seqTableWrite.symm.trans h) (by decide)

end

end Sys2Proof.Machine

/-! PROOFS. Converters that wake and calibrate, and captures of the transient digitizers (spec/07, R174, R175, R185 to
R194). -/

namespace Sys2Proof.Machine

open Host (Outcome)

section

variable {s t : State} {k : Fin 4} {c : Fin 12} {d : Fin 2}

/-! ## Conversions done (R173, R185) -/

theorem conversionDone_of {l : List Int} {v : Conv} (h : (s.conv k c).cur = some v)
    (hi : c ≠ 0 ∨ s.injArmed (pACQ k) 1 = false) : exec (.conversionDone k c l) s =
      let r := s.convEnd k c (l.take v.avg) (some v)
      let y := convResult (l.take v.avg)
      let t := ((r.1.alCheck k c v.input y.1 y.2).tallySlots k r.2).diagSlots k r.2
      .next ((dieRods k).foldl (fun (t : State) n =>
        if r.2.contains (t.reg pCEA (CEA.TSLOT n) % 256) then t.eisSlot n (v.t * 40) else t) t) := by
  have hn : (if c = 0 then s.injTake (pACQ k) 1 else (false, s)) = (false, s) := by
    by_cases h0 : c = 0
    · have ha : s.injArmed (pACQ k) 1 = false := hi.resolve_left (not_not.mpr h0)
      rw [if_pos h0, State.injTake, ha]
      rfl
    · rw [if_neg h0]
  show execConversionDone k c l s = _
  unfold execConversionDone State.convDone
  rw [h]
  dsimp only
  rw [hn]
  dsimp only
  rw [if_neg Bool.false_ne_true, h]

/-! ## Calibration (R174) -/

/-- A converter whose reference conversion of a slice has been made. -/
def State.calMade (s : State) (k c slice : Nat) : ConvX :=
  let x := s.conv k c
  let o := s.free
  let g := o.2.free
  let y := x.slices.getD slice {}
  { x with
    slices := x.slices.set slice { y with ofs := o.1 % 65536, gain := g.1 % 65536, refs := min (y.refs + 1) 65536 }
    free := max x.free s.gridNow + 320, lastIn := none }

/-- The state once it has been made, before CONVERGED follows. -/
def State.calShown (s : State) (k c slice : Nat) : State :=
  (s.free.2.free.2.setConv k c (s.calMade k c slice)).setBit (pFDC k) FDC.CAL_STAT (16 + c) false

theorem calConversion_fits {i : Fin 4} (hc : s.calOn k = true) (ha : s.convAwake k c = true)
    (hr : (s.conv k c).ready = true) (hn : (s.conv k c).cur = none) (hu : (s.conv k c).urg = [])
    (hf : s.calFits k c = true) : exec (.calConversion k c i) s =
      .next (if (s.calMade k c i).slices.all (fun y => decide (65536 ≤ y.refs)) then
        (s.calShown k c i).setBit (pFDC k) FDC.CAL_STAT c true else s.calShown k c i) := by
  refine if_neg ?_
  rw [hc, ha, hr, hn, hu, hf]
  decide

theorem sameRegs_calShown {i : Nat} : SameRegs s (s.calShown k c i) [(pFDC k, FDC.CAL_STAT)] :=
  SameRegs.setB (sameRegs_of_board rfl) (by simp)

theorem conv_eq_of_convs {k c : Nat} (h : t.convs = s.convs) : t.conv k c = s.conv k c := by
  rw [State.conv, State.conv, h]

theorem conv_calShown {i : Nat} : (s.calShown k c i).conv k c = s.calMade k c i := by
  rw [State.calShown, State.setBit, conv_eq_of_convs State.setB_convs, State.conv_setConv]

theorem calConversion_busy {i : Fin 4} (h : s.calOn k = false ∨ s.convAwake k c = false ∨ (s.conv k c).ready = false ∨
    (s.conv k c).cur ≠ none ∨ (s.conv k c).urg ≠ [] ∨ s.calFits k c = false) :
    exec (.calConversion k c i) s = .next s := by
  refine if_pos ?_
  rcases h with h | h | h | h | h | h
  · simp [h]
  · simp [h]
  · simp [h]
  · simp [Option.isSome_iff_ne_none, h]
  · simp [h]
  · simp [h]

/-! ## Converters and digitizers that wake (R175, R194) -/

theorem acqPower : Claims.AcqPower := by
  intro k c s x
  refine ⟨fun l v h hi => conversionDone_of h hi, fun l h => ?noConv, fun i hc ha hr hn hu hf hl => ?cal,
    fun i h => calConversion_busy h, fun h => if_pos h, fun h => if_neg (fun h' => Bool.false_ne_true (h.symm.trans h')),
    fun h => if_pos h, fun h => if_neg (fun h' => Bool.false_ne_true (h.symm.trans h')), fun ha hr => if_pos ⟨ha, ?ready⟩,
    fun h => if_neg ?notReady, fun d => ⟨fun he hr hn => if_pos ?wake, fun h => if_neg ?noWake, fun h => if_pos h,
      fun h => if_neg (fun h' => Bool.false_ne_true (h.symm.trans h'))⟩⟩
  case noConv => simp only [exec, execConversionDone, show (s.conv k c).cur = none from h]
  case cal =>
    have e := calConversion_fits (i := i) hc ha hr hn hu hf
    have hrefs : ((s.calMade k c i).slices.getD i {}).refs = min ((x.slices.getD i {}).refs + 1) 65536 := by
      have hlt : i.val < (s.conv k c).slices.length := lt_of_lt_of_eq i.isLt hl.symm
      simp only [State.calMade, List.getD_eq_getElem?_getD, List.getElem?_set_self hlt, Option.getD_some]
      rfl
    by_cases hall : (s.calMade k c i).slices.all (fun y => decide (65536 ≤ y.refs)) = true
    · rw [if_pos hall] at e
      refine ⟨_, e, ?_, ?_, ?_, sameRegs_calShown.setB (by simp), sameMem_of_exec rfl rfl e⟩
      · rw [bit_setBit_bits (by omega) (by omega)]
        exact bit_setBit_same (by omega)
      · rw [State.setBit, conv_eq_of_convs State.setB_convs, conv_calShown]
        exact hrefs
      · rw [State.setBit, conv_eq_of_convs State.setB_convs, conv_calShown]
        rfl
    · rw [if_neg hall] at e
      refine ⟨_, e, bit_setBit_same (by omega), ?_, ?_, sameRegs_calShown, sameMem_of_exec rfl rfl e⟩
      · rw [conv_calShown]
        exact hrefs
      · rw [conv_calShown]
        rfl
  case ready => rw [show (s.conv k c).ready = false from hr]; rfl
  case notReady =>
    rcases h with h | h
    · simp [h]
    · simp [show (s.conv k c).ready = true from h]
  case wake =>
    have he' : (s.dig (2 * k.val + d.val)).en = true := he
    have hr' : (s.dig (2 * k.val + d.val)).ready = false := hr
    rw [he', hr']
    cases ht : (s.dig (2 * k.val + d.val)).timed with
    | true => simpa [ht] using hn
    | false => simpa [ht] using hn
  case noWake =>
    rcases h with h | h | ⟨h, h'⟩
    · rw [show (s.dig (2 * k.val + d.val)).en = false from h]
      exact Bool.false_ne_true
    · rw [show (s.dig (2 * k.val + d.val)).ready = true from h]
      simp
    · rw [show (s.dig (2 * k.val + d.val)).timed = false from h]
      simp only [Bool.false_eq_true, if_false, Bool.and_eq_true, decide_eq_true_eq, not_and]
      exact fun _ => not_le.mpr h'

/-! ## Edges of the digitizers (R188, R189) -/

theorem dig_eq_of_digs {i : Nat} (h : t.digs = s.digs) : t.dig i = s.dig i := by rw [State.dig, State.dig, h]

theorem setDig_setDig {i : Nat} {x y : DigX} : (s.setDig i x).setDig i y = s.setDig i y := by
  simp only [State.setDig, tabPut_put]

/-- The record of a capture at an edge. -/
def edgeRec (x : DigX) (k d r q t : Nat) (on : Bool) : CapRec :=
  { edge := t * 40, rod := k * 6 + r, pos := q, level := if on then 1 else 2, input := bitsOf x.ctl 15 10, dig := d
    count := 1000 + x.post * 1000, life := bitOf x.ctl 30 }

/-- Whether an edge matches a digitizer's settings. -/
def DigX.hit (x : DigX) (r q : Nat) (on : Bool) : Bool :=
  let lv := bitsOf x.ctl 27 26
  x.en && !x.timed && decide (bitsOf x.ctl 25 23 = r ∧ bitsOf x.ctl 22 19 = q) &&
    (lv == 0 || lv == 3 || (lv == 1 && on) || (lv == 2 && !on))

theorem digitizerEdge_miss {r : Fin 6} {q : Fin 12} {on : Bool} {u : Nat}
    (h : (s.dig (2 * k.val + d.val)).hit r q on = false) : exec (.digitizerEdge k d r q on u) s = .next s := by
  refine if_pos ?_
  simp only [DigX.hit] at h
  rw [h]
  rfl

theorem digitizerEdge_hit {r : Fin 6} {q : Fin 12} {on : Bool} {u : Nat} (hw : (s.dig (2 * k.val + d.val)).waits = [])
    (h : (s.dig (2 * k.val + d.val)).hit r q on = true) : exec (.digitizerEdge k d r q on u) s =
      .next ((s.setDig (2 * k.val + d.val) { s.dig (2 * k.val + d.val) with
        waits := [edgeRec (s.dig (2 * k.val + d.val)) k d r q u on] }).digBegin k d) := by
  refine (if_neg ?_).trans ?_
  · simp only [DigX.hit] at h
    rw [h]
    decide
  · rw [hw]
    rfl

theorem digBegin_waits {k d : Nat} {x : DigX} {r : CapRec} (h : s.beam.t < r.start) :
    (s.setDig (2 * k + d) { x with waits := [r] }).digBegin k d = s.setDig (2 * k + d) { x with waits := [r] } := by
  unfold State.digBegin
  dsimp only
  rw [State.dig_setDig]
  simp [List.span_eq_takeWhile_dropWhile, Nat.not_le.mpr h]

theorem digBegin_one {k d : Nat} {x : DigX} {r : CapRec} (hx : x.waits = []) (h : r.start ≤ s.beam.t) :
    (s.setDig (2 * k + d) { x with waits := [r] }).digBegin k d = (s.setDig (2 * k + d) x).digEdge k d r := by
  have e : ({ x with waits := [] } : DigX) = x := by rw [← hx]
  unfold State.digBegin
  dsimp only
  rw [State.dig_setDig]
  simp [List.span_eq_takeWhile_dropWhile, h, setDig_setDig, e]

theorem digEdge_counts {k d : Nat} {x : DigX} {r : CapRec} (hr : x.ready = true) (hc : x.caps = [])
    (hn : x.count < x.everyN) :
    (s.setDig (2 * k + d) x).digEdge k d r = s.setDig (2 * k + d) { x with count := x.count + 1 } := by
  unfold State.digEdge
  dsimp only
  rw [State.dig_setDig, if_neg (by simp [hr, hc]), if_pos hn, setDig_setDig]

theorem digEdge_busy {k d : Nat} {x : DigX} {r : CapRec} (hr : x.ready = false) :
    (s.setDig (2 * k + d) x).digEdge k d r =
      (s.setDig (2 * k + d) { x with count := x.count + 1 }).incF (pTDIG k) (TDIG.TD_CNT_BUSY d) := by
  unfold State.digEdge
  dsimp only
  rw [State.dig_setDig, if_pos (by simp [hr]), setDig_setDig]

/-! ## The end of a capture (R189, R193) -/

/-- The state once a capture has ended, before the digitizer takes its settings. -/
def State.captured (s : State) (k d : Nat) (r : CapRec) (l : List Int) : State :=
  let x := s.dig (2 * k + d)
  let seq := s.reg (pTDIG k) TDIG.CAP_SEQ
  let nap := x.naps && !x.timed
  let s := s.setDig (2 * k + d) { x with caps := [], ready := x.ready && !nap, waking := x.waking && !nap }
  let s := if r.timed && decide (s.reg (pTDIG k) (TDIG.TD_CTL d) = x.ctl) then s.set (pTDIG k) (TDIG.TD_CTL_EN d) 0
    else s
  let s := s.setReg (pTDIG k) TDIG.CAP_SEQ ((seq + 1) % 2 ^ 32)
  let s := s.incFW (pTDIG k) ⟨TDIG.TD_STAT d, 31, 16⟩
  s.setCapBuf k (s.capBuf k ++ [{ r with seq := seq, samples := l }])

theorem captureEnd_one {r : CapRec} {l : List Int} (h : (s.dig (2 * k.val + d.val)).caps = [r]) :
    exec (.captureEnd k d l) s = .next ((s.captured k d r l).digLoad k d) := by
  show execCaptureEnd k d l s = _
  unfold execCaptureEnd
  dsimp only
  rw [h]
  rfl

/-- A word of the die's digitizer page beside BUF_STAT. -/
theorem reg_setCapBuf {j o : Nat} {l : List CapRec} (h : o ≠ TDIG.BUF_STAT) :
    (s.setCapBuf j l).reg (pTDIG j) o = s.reg (pTDIG j) o := by
  unfold State.setCapBuf State.showBuf
  dsimp only
  rw [reg_set_off h, reg_set_off h]
  rfl

theorem capBuf_eq_of_caps {j : Nat} (h : t.caps = s.caps) : t.capBuf j = s.capBuf j := by
  rw [State.capBuf, State.capBuf, h]

theorem capBuf_setCapBuf {j : Nat} {l : List CapRec} : (s.setCapBuf j l).capBuf j = l := by
  unfold State.setCapBuf State.showBuf
  dsimp only
  rw [capBuf_eq_of_caps State.set_caps, capBuf_eq_of_caps State.set_caps]
  exact tabGet_put_same

theorem digs_setCapBuf {j : Nat} {l : List CapRec} : (s.setCapBuf j l).digs = s.digs := by
  unfold State.setCapBuf State.showBuf
  dsimp only
  rw [State.set_digs, State.set_digs]

theorem reg_digLoad {j i o : Nat} (h : o ≠ TDIG.TD_STAT i) :
    (s.digLoad j i).reg (pTDIG j) o = s.reg (pTDIG j) o := by
  unfold State.digLoad State.showDig
  dsimp only
  rw [reg_set_off h]
  rfl

theorem caps_digLoad {j i : Nat} : (s.digLoad j i).caps = s.caps := by
  unfold State.digLoad State.showDig
  dsimp only
  rw [State.set_caps, State.setDig_caps]

theorem dig_digLoad {j i : Nat} : ((s.digLoad j i).dig (2 * j + i)).caps = (s.dig (2 * j + i)).caps := by
  unfold State.digLoad State.showDig
  dsimp only
  rw [dig_eq_of_digs State.set_digs, State.dig_setDig]

/-- The state with the ended capture out of its digitizer, and a timed one disabled. -/
def State.capTaken (s : State) (k d : Nat) (r : CapRec) : State :=
  let x := s.dig (2 * k + d)
  let nap := x.naps && !x.timed
  let s := s.setDig (2 * k + d) { x with caps := [], ready := x.ready && !nap, waking := x.waking && !nap }
  if r.timed && decide (s.reg (pTDIG k) (TDIG.TD_CTL d) = x.ctl) then s.set (pTDIG k) (TDIG.TD_CTL_EN d) 0 else s

/-- The state with the sequence number and the count of captures advanced. -/
def State.capCounted (s : State) (k d : Nat) (r : CapRec) : State :=
  ((s.capTaken k d r).setReg (pTDIG k) TDIG.CAP_SEQ ((s.reg (pTDIG k) TDIG.CAP_SEQ + 1) % 2 ^ 32)).incFW (pTDIG k)
    ⟨TDIG.TD_STAT d, 31, 16⟩

theorem captured_eq {j i : Nat} {r : CapRec} {l : List Int} : s.captured j i r l = (s.capCounted j i r).setCapBuf j
    ((s.capCounted j i r).capBuf j ++ [{ r with seq := s.reg (pTDIG j) TDIG.CAP_SEQ, samples := l }]) := rfl

theorem caps_capCounted {j i : Nat} {r : CapRec} : (s.capCounted j i r).caps = s.caps := by
  rw [State.capCounted, State.incFW, State.set_caps, State.setReg_caps, State.capTaken]
  split
  · rw [State.set_caps, State.setDig_caps]
  · rw [State.setDig_caps]

theorem dig_capCounted {j i : Nat} {r : CapRec} : ((s.capCounted j i r).dig (2 * j + i)).caps = [] := by
  rw [State.capCounted, State.incFW, dig_eq_of_digs State.set_digs, dig_eq_of_digs State.setReg_digs, State.capTaken]
  split
  · rw [dig_eq_of_digs State.set_digs, State.dig_setDig]
  · rw [State.dig_setDig]

theorem seq_capCounted {j i : Nat} {r : CapRec} : (s.capCounted j i r).reg (pTDIG j) TDIG.CAP_SEQ =
    (s.reg (pTDIG j) TDIG.CAP_SEQ + 1) % 2 ^ 32 := by
  rw [State.capCounted, State.incFW, reg_set_off, reg_setReg_same, Nat.mod_mod]
  simp only [TDIG.TD_STAT, TDIG.CAP_SEQ]
  omega

theorem captureEnd_spec {k : Fin 4} {d : Fin 2} {r : CapRec} {l : List Int} :
    ((s.captured k d r l).digLoad k d).reg (pTDIG k) TDIG.CAP_SEQ = (s.reg (pTDIG k) TDIG.CAP_SEQ + 1) % 2 ^ 32 ∧
    ((s.captured k d r l).digLoad k d).capBuf k =
      s.capBuf k ++ [{ r with seq := s.reg (pTDIG k) TDIG.CAP_SEQ, samples := l }] ∧
    (((s.captured k d r l).digLoad k d).dig (2 * k.val + d.val)).caps = [] := by
  refine ⟨?_, ?_, ?_⟩
  · rw [reg_digLoad (by simp only [TDIG.TD_STAT, TDIG.CAP_SEQ]; omega), captured_eq, reg_setCapBuf (by decide), seq_capCounted]
  · rw [capBuf_eq_of_caps caps_digLoad, captured_eq, capBuf_setCapBuf, capBuf_eq_of_caps caps_capCounted]
  · rw [dig_digLoad, captured_eq, dig_eq_of_digs digs_setCapBuf, dig_capCounted]

/-! ## The features of a record (R190) -/

/-- A record with its features, and the flag that they are a life sample. -/
def CapRec.featured (r : CapRec) (k : Nat) : CapRec :=
  let j := r.input % 6
  let rog := decide (j < 3)
  let f := features rog r.samples
  let fv := 1 + b2n f.2.2.1.isSome * 2 + b2n f.2.2.2.isSome * 4
  { r with
    base := f.1, f0 := min f.2.1 65535, f1 := f.2.2.1.getD 0, f2 := min (f.2.2.2.getD 0) 65535, fvalid := fv
    life := r.life && rog && decide (r.pos / 4 = j) && decide (fv = 7) && !r.trip && !r.withdrawn &&
      decide (r.input / 6 + k * 6 = r.rod)
    done := true }

/-- The state with the features of a record shown. -/
def State.featShown (s : State) (k d : Nat) (r : CapRec) : State :=
  let f := features (decide (r.input % 6 < 3)) r.samples
  let r' := r.featured k
  let s := s.setCapBuf k ((s.capBuf k).map (fun q => if q.seq = r.seq then r' else q))
  let s := s.setReg (pTDIG k) (TDIG.TD_FEAT0 d) (r'.f1 * 2 ^ 16 + r'.f0)
  let s := s.setReg (pTDIG k) (TDIG.TD_FEAT1 d) (r'.fvalid * 2 ^ 16 + r'.f2)
  (s.incF (pTDIG k) (TDIG.TD_CNT_INVALID d) (b2n f.2.2.1.isNone + b2n f.2.2.2.isNone)).ev (pTDIG k) (blk 0)

theorem featureExtract_one {r : CapRec} (h : s.capBuf k = [r]) (hd : r.done = false) (hi : r.dig = d.val)
    (hl : r.life = false) : exec (.featureExtract k d) s = .next (s.featShown k d r) := by
  have hf : (s.capBuf k).find? (fun r => !r.done && decide (r.dig = d.val)) = some r := by
    rw [h]
    simp [hd, hi]
  have hlf : (r.featured k).life = false := by
    simp only [CapRec.featured, hl, Bool.false_and]
  have e : exec (.featureExtract k d) s = (match (s.capBuf k).find? (fun r => !r.done && decide (r.dig = d.val)) with
      | none => .next s
      | some r => .next (if (r.featured k).life then
          (s.featShown k d r).lifeFeature r.rod (r.input % 6) (r.featured k).f0 (r.featured k).f1 (r.featured k).f2
        else s.featShown k d r)) := rfl
  rw [e, hf]
  dsimp only
  rw [hlf, if_neg Bool.false_ne_true]

theorem capBuf_featShown {r : CapRec} : (s.featShown k d r).capBuf k =
    (s.capBuf k).map (fun q => if q.seq = r.seq then r.featured k else q) := by
  rw [State.featShown]
  rw [capBuf_eq_of_caps State.ev_caps, State.incF, capBuf_eq_of_caps State.set_caps, capBuf_eq_of_caps State.setReg_caps,
    capBuf_eq_of_caps State.setReg_caps, capBuf_setCapBuf]

/-! ## Captures -/

theorem acqCaptures : Claims.AcqCaptures := by
  intro k d s p i x level
  refine ⟨fun r q on u he ht hr hq hl hw => ?edge, fun r q on u h => digitizerEdge_miss ?miss,
    fun u hu he ht hc ha => ?timed, fun h => ?untimed, fun r l h => ?ends, fun l h => ?noCapture, fun r h hd hi hl => ?feature,
    fun r rest h hd hen => ?drain⟩
  case edge =>
    have hhit : (s.dig (2 * k.val + d.val)).hit r q on = true := by
      have hlv : (bitsOf x.ctl 27 26 == 0 || bitsOf x.ctl 27 26 == 3 || (bitsOf x.ctl 27 26 == 1 && on) ||
          (bitsOf x.ctl 27 26 == 2 && !on)) = true := by
        simp only [Bool.or_eq_true, Bool.and_eq_true, beq_iff_eq, Bool.not_eq_true']
        tauto
      show (x.en && !x.timed && decide (bitsOf x.ctl 25 23 = r.val ∧ bitsOf x.ctl 22 19 = q.val) && _) = true
      rw [he, ht, decide_eq_true ⟨hr, hq⟩, hlv]
      rfl
    have e := digitizerEdge_hit (u := u) hw hhit
    refine ⟨fun h => ?_, fun h hrdy hc hn => ?_, fun h hrdy => ?_⟩
    · exact e.trans (congrArg Outcome.next (digBegin_waits h))
    · exact e.trans (congrArg Outcome.next ((digBegin_one hw h).trans (digEdge_counts hrdy hc hn)))
    · exact e.trans (congrArg Outcome.next ((digBegin_one hw h).trans (digEdge_busy hrdy)))
  case miss =>
    show (x.en && !x.timed && decide (bitsOf x.ctl 25 23 = r.val ∧ bitsOf x.ctl 22 19 = q.val) && _) = false
    rcases h with h | h | h | h
    · rw [h]
      simp
    · rw [h]
      simp
    · rw [decide_eq_false (fun h' => h h'.1), Bool.and_false, Bool.false_and]
    · rw [decide_eq_false (fun h' => h h'.2), Bool.and_false, Bool.false_and]
  case timed =>
    have hcond : (x.en && x.timed && x.caps.isEmpty && decide (x.armedAt < u)) = true := by
      rw [he, ht, hc, decide_eq_true ha]
      rfl
    show execTimedCaptureStart k d s = _
    unfold execTimedCaptureStart
    dsimp only
    rw [hu]
    exact if_pos hcond
  case untimed =>
    show execTimedCaptureStart k d s = _
    unfold execTimedCaptureStart
    dsimp only
    rcases h with h | h | h
    · rw [h]
    · split
      · exact if_neg (by rw [h]; simp)
      · rfl
    · split
      · exact if_neg (by rw [h]; simp)
      · rfl
  case ends =>
    have e := captureEnd_one (l := l) h
    obtain ⟨h1, h2, h3⟩ := captureEnd_spec (s := s) (k := k) (d := d) (r := r) (l := l)
    exact ⟨_, e, h1, h2, h3, sameMem_of_exec rfl rfl e⟩
  case noCapture =>
    show execCaptureEnd k d l s = _
    unfold execCaptureEnd
    dsimp only
    rw [show (s.dig (2 * k.val + d.val)).caps = [] from h]
  case feature =>
    have e := featureExtract_one h hd hi hl
    refine ⟨_, e, ?_, bit_ev (by decide), sameMem_of_exec rfl rfl e⟩
    rw [capBuf_featShown, h]
    simp [CapRec.featured]
  case drain =>
    intro size base wr hsize hused
    have hlen : 64 ≤ r.len := Nat.le_add_right _ _
    have hpos : max size 1 = size := by omega
    have hpad : (if size < wr + r.len then size - wr else 0) = 0 := if_neg (by omega)
    show execDrainRecord k s = _
    unfold execDrainRecord
    dsimp only
    rw [h]
    dsimp only
    rw [show max (s.reg (pTDIG k) TDIG.DRAIN_SIZE % 65536 * 65536) 1 = s.reg (pTDIG k) TDIG.DRAIN_SIZE % 65536 * 65536 from hpos,
      show (if s.reg (pTDIG k) TDIG.DRAIN_SIZE % 65536 * 65536 < s.reg (pTDIG k) TDIG.DRAIN_WR + r.len then
        s.reg (pTDIG k) TDIG.DRAIN_SIZE % 65536 * 65536 - s.reg (pTDIG k) TDIG.DRAIN_WR else 0) = 0 from hpad]
    refine if_neg ?_
    rw [hd]
    simp only [not_or]
    refine ⟨by rw [show s.flag (pTDIG k) TDIG.DRAIN_CTL_EN = true from hen]; decide, by decide, ?_⟩
    rw [Nat.add_zero]
    exact Nat.not_le.mpr hused

/-- Settles O34: converters and digitizers that wake, then captures. -/
theorem powerAndCaptures : Obligations.PowerAndCaptures := ⟨acqPower, acqCaptures⟩

end

end Sys2Proof.Machine

/-! PROOFS. The inner loops: writes and runs (spec/10, R244 to R254, R269, R279). -/

namespace Sys2Proof.Machine

open Host (Outcome)

section

variable {s t : State} {w : Writer} {n : Fin 24}

/-! ## Writes of a loop (R249, R252, R254, R269) -/

theorem pageType_loop (n : Fin 24) : pageType (pLOOP n) = some .loop := by
  revert n
  decide

/-- A write command of a loop's register that its own rules take. -/
theorem loopWriteCmd_ok {off : Nat} {v : Word} (h : s.mayAct w (pLOOP n)) (e : s.loopRegWrite n off v = some (t, .ok)) :
    s.loopWriteCmd w n off v = t.answer w .ok :=
  finish_action (f := fun s => (s.loopRegWrite n off v).getD (s, .ok)) h (by rw [e]; rfl)

theorem loopWriteCmd_refused {off : Nat} {v : Word} (h : s.mayAct w (pLOOP n))
    (e : s.loopRegWrite n off v = some (t, .writeRefused)) :
    s.loopWriteCmd w n off v = (t.countRefused w (pLOOP n) .writeRefused).answer w .writeRefused :=
  finish_action_code (f := fun s => (s.loopRegWrite n off v).getD (s, .ok)) h (ownerPage_of_type (pageType_loop n))
    (by rw [e]; rfl)

/-- The board without the words of a loop's learner. -/
def State.binsCleared (s : State) (n : Nat) : State :=
  { s with board := tabKeep (fun k => decide (k < bkey (0x820 + 4 * n) 0) ||
      decide (bkey (0x820 + 4 * n) 0 + 16384 ≤ k)) s.board }

/-- LRN_CTL written with CLR. -/
def State.learnerCleared (s : State) (n : Nat) (v : Word) : State :=
  let t := s.setReg (pLOOP n) LOOP.LRN_CTL (v.toNat % 4)
  (if v.getLsbD 0 then t else t.set (pLOOP n) LOOP.STAT_LRN_ACTIVE 0).binsCleared n

theorem lrnClr_write {v : Word} (h : v.getLsbD 2 = true) (he : s.flag (pLOOP n) LOOP.LRN_CTL_EN = false) :
    s.loopRegWrite n LOOP.LRN_CTL v = some (s.learnerCleared n v, .ok) := by
  unfold State.loopRegWrite
  dsimp only
  rw [if_neg (by decide), if_neg (by decide), if_neg (by decide), if_neg (by decide), if_neg (by decide),
    if_pos rfl, if_neg (by rw [he]; simp), if_pos h]
  rfl

/-- A word outside the learner's pages stays. -/
theorem reg_binsCleared {p o j : Nat} (hp : p < 0x820) (ho : o < 4096) : (s.binsCleared j).reg p o = s.reg p o := by
  have h : bkey p o < bkey (0x820 + 4 * j) 0 := by
    simp only [bkey]
    omega
  rw [State.reg, State.reg, State.word, State.word, State.binsCleared, tabGet_keep_same]
  rw [decide_eq_true h, Bool.true_or]

theorem resetWord_bins {p o : Nat} (hp : 0x800 ≤ p) (ho : o < 4096) : resetWord (bkey p o) = 0 := by
  have hk : bkey p o / 4096 = p := by
    simp only [bkey]
    omega
  have hrow : pageRow p = none := by
    refine Option.not_isSome_iff_eq_none.mp fun h => ?_
    exact absurd (lt_of_pageRow h) (by omega)
  have htype : pageType p = none := by
    simp only [pageType, hrow, Option.map_none]
  have hreg : regAt p (bkey p o % 4096) = none := by
    unfold regAt
    rw [htype, hrow]
    split
    · rfl
    · rfl
  unfold resetWord
  dsimp only
  rw [hk, hreg, if_neg (by omega), if_neg (by omega), if_neg (by omega), if_neg (by omega)]

theorem word_binsCleared {j : Nat} {i : Fin 4} {o : Nat} (ho : o < 4096) :
    (s.binsCleared j).word (0x820 + 4 * j + i.val) o = 0 := by
  have hi := i.isLt
  rw [State.word, State.binsCleared, tabGet_keep_other, resetWord_bins (by omega) ho]
  have h1 : ¬bkey (0x820 + 4 * j + i.val) o < bkey (0x820 + 4 * j) 0 := by
    simp only [bkey]
    omega
  have h2 : ¬bkey (0x820 + 4 * j) 0 + 16384 ≤ bkey (0x820 + 4 * j + i.val) o := by
    simp only [bkey]
    omega
  rw [decide_eq_false h1, decide_eq_false h2, Bool.false_or]

theorem ctl_learnerCleared {v : Word} : (s.learnerCleared n v).reg (pLOOP n) LOOP.LRN_CTL = v.toNat % 4 := by
  have hp : pLOOP n < 0x820 := by
    simp only [pLOOP]
    omega
  have h4 : v.toNat % 4 % 2 ^ 32 = v.toNat % 4 := by omega
  unfold State.learnerCleared
  dsimp only
  rw [reg_binsCleared hp (by decide)]
  split
  · rw [reg_setReg_same, h4]
  · rw [reg_set_off (by decide), reg_setReg_same, h4]

theorem or_four_mod (v : Word) : (v ||| 4).toNat % 4 = v.toNat % 4 := by
  rw [BitVec.toNat_or, show (4 : Nat) = 2 ^ 2 from rfl, Nat.or_mod_two_pow]
  exact Nat.or_zero _

theorem or_four_bit (v : Word) : (v ||| 4).getLsbD 2 = true := by
  rw [BitVec.getLsbD_or]
  simp

theorem loopWrites : Claims.LoopWrites := by
  intro w n v s p x put refused h
  have next {a b : State} (e : a = b) : (Outcome.next a : Outcome State Fault Refusal) = .next b := congrArg _ e
  refine ⟨next (loopWriteCmd_ok h rfl), next (loopWriteCmd_ok h rfl), next (loopWriteCmd_ok h rfl),
    next (loopWriteCmd_ok h rfl), next (loopWriteCmd_ok h rfl), fun he => ?clear, fun he => next (loopWriteCmd_refused h ?clr),
    fun b => ⟨fun he => next (finish_action h (if_neg ?_)), fun he => next ?_⟩,
    fun hs he hm => next (loopWriteCmd_ok h ?_), fun hs he => next (loopWriteCmd_ok h ?_),
    fun hs => next (loopWriteCmd_refused h ?_)⟩
  case clear =>
    have e : exec (.lrnClr w n v) s = .next ((s.learnerCleared n (v ||| 4)).answer w .ok) :=
      next (loopWriteCmd_ok h (lrnClr_write (or_four_bit v) he))
    refine ⟨_, e, ?_, fun j o ho => word_binsCleared ho, sameMem_of_exec rfl rfl e⟩
    rw [reg_answer, ctl_learnerCleared, or_four_mod]
  case clr =>
    unfold State.loopRegWrite
    dsimp only
    rw [if_neg (by decide), if_neg (by decide), if_neg (by decide), if_neg (by decide), if_neg (by decide),
      if_pos rfl, if_pos ⟨or_four_bit v, he⟩]
    rfl
  · rw [he]
    exact Bool.false_ne_true
  · exact finish_action_code h (ownerPage_of_type (pageType_loop n)) (if_pos he)
  · unfold State.loopRegWrite
    dsimp only
    rw [if_neg (by decide), if_neg (by decide), if_neg (by decide), if_neg (by decide), if_neg (by decide),
      if_neg (by decide), if_pos rfl, if_neg hs, if_pos ⟨he, hm⟩]
  · have hn : ¬(s.en (pLOOP n) ∧ s.machMode n) := by
      rintro ⟨h1, h2⟩
      rcases he with he | he
      · exact Bool.false_ne_true (he.symm.trans h1)
      · exact Bool.false_ne_true (he.symm.trans h2)
    unfold State.loopRegWrite
    dsimp only
    rw [if_neg (by decide), if_neg (by decide), if_neg (by decide), if_neg (by decide), if_neg (by decide),
      if_neg (by decide), if_pos rfl, if_neg hs, if_neg hn]
  · unfold State.loopRegWrite
    dsimp only
    rw [if_neg (by decide), if_neg (by decide), if_neg (by decide), if_neg (by decide), if_neg (by decide),
      if_neg (by decide), if_pos rfl, if_pos hs]
    rfl

/-! ## Runs (R244, R246, R248) -/

theorem loopMark_busy {k t0 : Nat} (h : (s.loop k).run ≠ none) : s.loopMark k t0 =
    (((s.incSat (pLOOP k) LOOP.SKIP_CNT).set (pLOOP k) LOOP.STAT_SKIPPED 1).err (pLOOP k) 19).ev (pLOOP k) 17 := by
  exact if_pos (.inr (Option.isSome_iff_ne_none.mpr h))

/-- The state once a run has left the loop, before its result follows. -/
def State.runEnded (s : State) (n t0 : Nat) : State :=
  (((s.setLoop n { s.loop n with run := none }).set (pLOOP n) LOOP.STAT_RUNNING 0).setLp n LOOP.RUN_TIME
    (min ((s.beam.t - t0) / 256) 4095)).ev (pLOOP n) 16

theorem loopRunComplete_of {q : LoopIn} (h : (s.loop n).run = some q) : exec (.loopRunComplete n) s =
    match (s.runEnded n q.t0).runBody n q with
    | some t => .next ((t.set (pLOOP n) LOOP.STAT_NAN 0).eisAfterRun n)
    | none => .next (((((s.runEnded n q.t0).incSat (pLOOP n) LOOP.NAN_CNT).set (pLOOP n) LOOP.STAT_NAN 1).err (pLOOP n)
        21).eisAfterRun n) := by
  show execLoopRunComplete n s = _
  unfold execLoopRunComplete
  rw [h]
  rfl

theorem loopRuns : Claims.LoopRuns := by
  intro n s p x
  refine ⟨fun t0 r h => ?marks, fun h => ?noMark, fun q h => ?done, fun h => ?noRun, fun hs ho => if_pos ⟨hs, ho⟩,
    fun h => if_neg ?stays⟩
  case marks =>
    have e : exec (.loopRun n) s = .next ((s.setLoop n { s.loop n with marks := r }).loopMark n t0) := by
      show execLoopRun n s = _
      unfold execLoopRun
      rw [show (s.loop n).marks = t0 :: r from h]
    refine ⟨e, fun hr => e.trans (congrArg Outcome.next (loopMark_busy ?_))⟩
    rw [State.loop_setLoop]
    exact hr
  case noMark =>
    show execLoopRun n s = _
    unfold execLoopRun
    rw [show (s.loop n).marks = [] from h]
  case done =>
    have e := loopRunComplete_of (n := n) h
    refine ⟨fun t ht => ?_, fun ht => ?_⟩
    · rw [e, show (s.runEnded n q.t0).runBody n q = some t from ht]
    · rw [e, show (s.runEnded n q.t0).runBody n q = none from ht]
      rfl
  case noRun =>
    show execLoopRunComplete n s = _
    unfold execLoopRunComplete
    rw [show (s.loop n).run = none from h]
  case stays =>
    rintro ⟨h1, h2⟩
    rcases h with h | h
    · exact h h1
    · exact Bool.false_ne_true (h.symm.trans h2)

/-- Settles O35: the writes, then the runs. -/
theorem loops : Obligations.Loops := ⟨loopWrites, loopRuns⟩

end

end Sys2Proof.Machine

/-! PROOFS. Rounds and commands of the cell estimator (spec/13, R308 to R310). -/

namespace Sys2Proof.Machine

open Host (Outcome)

section

variable {s t : State} {w : Writer}

/-! ## The cell commands that wait (R309) -/

theorem pageType_cea : pageType pCEA = some .cea := by decide

theorem bitsSet_single {n b : Nat} (h : b < n) : bitsSet n (2 ^ b) = [b] := by
  have hf : ∀ i ∈ List.range n, (2 ^ b).testBit i = decide (b = i) := fun i _ => by
    rw [Nat.testBit_two_pow]
  rw [bitsSet, List.filter_congr hf]
  induction n with
  | zero => omega
  | succ n ih =>
    rw [List.range_succ, List.filter_append]
    rcases Nat.lt_succ_iff_lt_or_eq.mp h with h' | rfl
    · rw [ih h' (fun i _ => by rw [Nat.testBit_two_pow])]
      simp [Nat.ne_of_lt h']
    · have hn : (List.range b).filter (fun i => decide (b = i)) = [] := by
        rw [List.filter_eq_nil_iff]
        intro i hi
        simp [Nat.ne_of_gt (List.mem_range.mp hi)]
      rw [hn]
      simp

theorem cellCmdBy_single {b : Nat} (hb : b < 4) (h : s.mayAct w pCEA) : s.cellCmdBy w b =
    (s.setCea { s.cea with cmds := s.cea.cmds ++
      [⟨s.reg pCEA CEA.CELL_SEL % 65536, b, s.reg pCEA CEA.CELL_INIT0 % 65536, s.reg pCEA CEA.CELL_INIT0 / 65536,
        s.reg pCEA CEA.CELL_INIT1 % 65536⟩] }).answer w .ok := by
  refine finish_action (f := fun s => (s.cellCmd (2 ^ b), .ok)) h ?_
  rw [State.cellCmd, bitsSet_single hb]
  rfl

/-- A cell command acts on the cells alone. -/
theorem cellCmdApply_cells (s : State) (c : CellCmd) : ∃ l, s.cellCmdApply c = { s with cells := l } := by
  unfold State.cellCmdApply
  dsimp only
  split
  · exact ⟨_, rfl⟩
  · exact ⟨_, rfl⟩
  · exact ⟨_, rfl⟩
  · exact ⟨_, rfl⟩

theorem foldl_cellCmdApply (l : List CellCmd) (s : State) : ∃ x, l.foldl State.cellCmdApply s = { s with cells := x } := by
  induction l generalizing s with
  | nil => exact ⟨s.cells, rfl⟩
  | cons c l ih =>
    obtain ⟨x, hx⟩ := cellCmdApply_cells s c
    obtain ⟨y, hy⟩ := ih (s.cellCmdApply c)
    exact ⟨y, by rw [List.foldl_cons, hy, hx]⟩

/-! ## The window of a round that closes (R309) -/

/-- The tally of a rod once the window before `prev` is closed. -/
def TallyX.closed (y : TallyX) (prev : Nat) : TallyX :=
  let old := y.hist.filter (fun e => decide (e.1 < prev))
  { y with winQ := 0, winT := 0, hist := y.hist.filter (fun e => decide (prev ≤ e.1)) ++ old.take 1 }

/-- The window of one rod is closed. -/
def State.closeWindow (prev : Nat) (s : State) (r : Nat) : State := s.setTally r ((s.tally r).closed prev)

theorem foldl_closeWindow (prev : Nat) (l : List Nat) (s : State) :
    ∃ x, l.foldl (State.closeWindow prev) s = { s with tallies := x } := by
  induction l generalizing s with
  | nil => exact ⟨s.tallies, rfl⟩
  | cons r l ih =>
    obtain ⟨y, hy⟩ := ih (s.closeWindow prev r)
    exact ⟨y, by rw [List.foldl_cons, hy]; rfl⟩

theorem tally_closeWindow_other {prev r q : Nat} (h : q ≠ r) : (s.closeWindow prev r).tally q = s.tally q :=
  tabGet_put_other h

theorem tally_foldl_closeWindow {prev r : Nat} (l : List Nat) (hl : l.Nodup) (hr : r ∈ l) :
    (l.foldl (State.closeWindow prev) s).tally r = (s.tally r).closed prev := by
  have other : ∀ (l : List Nat) (s : State), r ∉ l → (l.foldl (State.closeWindow prev) s).tally r = s.tally r := by
    intro l
    induction l with
    | nil => exact fun _ _ => rfl
    | cons q l ih =>
      intro s h
      obtain ⟨hq, hl⟩ : r ≠ q ∧ r ∉ l := by simpa using h
      rw [List.foldl_cons, ih _ hl, tally_closeWindow_other hq]
  induction l generalizing s with
  | nil => exact absurd hr List.not_mem_nil
  | cons q l ih =>
    obtain ⟨hq, hl'⟩ := List.nodup_cons.mp hl
    rw [List.foldl_cons]
    rcases List.mem_cons.mp hr with rfl | h
    · rw [other l _ hq, State.closeWindow, State.tally_setTally]
    · rw [ih hl' h, tally_closeWindow_other (fun e : r = q => hq (e ▸ h))]

/-! ## The start of a round (R308 to R310) -/

/-- The estimator's record in a round that has started. -/
def State.roundCea (s : State) (at_ : Nat) : CeaX :=
  { s.cea with
    running := some at_, from_ := s.cea.prev, prev := at_, rounds := s.cea.rounds + 1, cmds := [], rested := false
    winQ := allRods.map (fun r => if s.cea.rested then 0 else (s.tally r).winQ)
    winT := allRods.map (fun r => (s.tally r).winT) }

theorem roundStart_eq (at_ : Nat) : s.roundStart at_ =
    let u := s.cea.cmds.foldl State.cellCmdApply s
    (allRods.foldl (State.closeWindow u.cea.prev) (u.setCea (u.roundCea at_))).setReg pCEA CEA.ROUND_NS
      (at_ / 256 % 1000000000) := rfl

/-- What a round's start leaves: the estimator's record, the tallies, the cells and ROUND_NS. -/
theorem roundStart_frame (at_ : Nat) : ∃ x y, s.roundStart at_ =
    ({ (s.setCea (s.roundCea at_)) with cells := x, tallies := y }).setReg pCEA CEA.ROUND_NS
      (at_ / 256 % 1000000000) ∧ (s.cea.cmds = [] → x = s.cells) ∧
    ∀ r, r < 24 → (s.roundStart at_).tally r = (s.tally r).closed s.cea.prev := by
  obtain ⟨x, hx⟩ := foldl_cellCmdApply s.cea.cmds s
  obtain ⟨y, hy⟩ := foldl_closeWindow s.cea.prev allRods ({ s with cells := x }.setCea (s.roundCea at_))
  have e : s.roundStart at_ = ({ (s.setCea (s.roundCea at_)) with cells := x, tallies := y }).setReg pCEA
      CEA.ROUND_NS (at_ / 256 % 1000000000) := by
    rw [roundStart_eq, hx]
    exact congrArg (fun u : State => u.setReg pCEA CEA.ROUND_NS (at_ / 256 % 1000000000)) hy
  refine ⟨x, y, e, fun h => ?_, fun r hr => ?_⟩
  · rw [h] at hx
    exact (congrArg State.cells hx).symm
  · have ht : (s.roundStart at_).tallies = (allRods.foldl (State.closeWindow s.cea.prev)
        ({ s with cells := x }.setCea (s.roundCea at_))).tallies := by
      rw [e, hy]
      rfl
    rw [State.tally, ht, ← State.tally]
    exact tally_foldl_closeWindow allRods (by decide) (List.mem_range.mpr hr)

theorem getD_map_allRods {α : Type} {d : α} {f : Nat → α} {r : Nat} (h : r < 24) : (allRods.map f).getD r d = f r := by
  rw [allRods, List.getD_eq_getElem?_getD, List.getElem?_map, List.getElem?_range h]
  rfl

/-- The time at which a round has fallen due. -/
def State.roundDue (s : State) : Nat := s.beam.t / s.roundPer * s.roundPer

theorem roundDue_new (he : s.en pCEA = true) (hd : s.dev < dvREST) (ha : s.roundDue ≠ s.cea.due) :
    ¬(!s.en pCEA ∨ dvREST ≤ s.dev ∨ s.roundDue = s.cea.due) := by
  simp [he, Nat.not_le.mpr hd, ha]

theorem estimatorRound_skips (he : s.en pCEA = true) (hd : s.dev < dvREST) (ha : s.roundDue ≠ s.cea.due)
    (hr : s.cea.running ≠ none) : exec .estimatorRound s =
      .next (((s.setCea { s.cea with due := s.roundDue }).incSat pCEA CEA.OVR_CNT).ev pCEA 17) :=
  (if_neg (roundDue_new he hd ha)).trans (if_pos (Option.isSome_iff_ne_none.mpr hr))

theorem estimatorRound_starts (he : s.en pCEA = true) (hd : s.dev < dvREST) (ha : s.roundDue ≠ s.cea.due)
    (hr : s.cea.running = none) : exec .estimatorRound s =
      .next ((s.setCea { s.cea with due := s.roundDue }).roundStart s.roundDue) :=
  (if_neg (roundDue_new he hd ha)).trans (if_neg (fun h => by
    have h' : s.cea.running.isSome = true := h
    rw [hr] at h'
    exact Bool.false_ne_true h'))

/-! ## The end of a round (R304 to R310) -/

/-- The counts, the event and the snapshot of a round whose cells and rods are updated. -/
def State.roundShown (s : State) (cells : List Nat) (start : Nat) : State :=
  let n (b : Nat) : Nat := min (cells.filter (fun c => (s.cell c).flag b)).length 65535
  let t := ((((s.setReg pCEA CEA.CELL_CNT (n 2 * 65536 + n 1)).set pCEA ⟨CEA.STAT, 7, 0⟩ s.cea.rounds).setReg pCEA
    CEA.ROUND_TIME (min ((s.beam.t - start) / 256000) 65535)).ev pCEA 16)
  if t.flag pCEA CEA.CTL_SNAP_EN then t.snapshot cells else t

/-- The cells and rods of a round, updated. -/
def State.roundUpdated (s : State) (start : Nat) : State :=
  allRods.foldl State.rodRound ((allRods.flatMap s.rodCells).foldl (fun t c => t.updateCell start c)
    (s.setCea { s.cea with running := none }))

/-- What follows the counts of a round. -/
def State.roundLeft (s : State) : Outcome State Fault Refusal :=
  if s.en pCEA then .next (s.writeWeights false)
  else .next (if s.flag pCEA PG.STAT_SHUTTING then (s.set pCEA PG.STAT_SHUTTING 0).ev pCEA 4 else s)

theorem roundComplete_of {start : Nat} (h : s.cea.running = some start) : exec .roundComplete s =
    ((s.roundUpdated start).roundShown (allRods.flatMap s.rodCells) start).roundLeft := by
  show execRoundComplete s = _
  unfold execRoundComplete State.roundShown
  rw [h]
  dsimp only
  rw [State.set_beam, State.setReg_beam, State.setReg_cea]
  rfl

theorem cellEstimator : Claims.CellEstimator := by
  intro w s at_ x
  refine ⟨fun h => if_pos ?idle, fun he hd ha => ⟨fun hr => ?skip, fun hr => ⟨?starts, fun t ht => ?start⟩⟩, fun h => ?none,
    fun start h => ?done, fun h => ?cmds⟩
  case idle =>
    rcases h with h | h | h
    · exact .inl (by rw [h]; rfl)
    · exact .inr (.inl h)
    · exact .inr (.inr h)
  case skip => exact estimatorRound_skips he hd ha hr
  case starts => exact estimatorRound_starts he hd ha hr
  case start =>
    obtain ⟨l, y, e, hc, htal⟩ := roundStart_frame (s := s.setCea { x with due := at_ }) at_
    rw [← ht] at e htal
    have hcea : t.cea = (s.setCea { x with due := at_ }).roundCea at_ := by rw [e]; rfl
    have htal' : ∀ r, r < 24 → t.tally r = (s.tally r).closed x.prev := htal
    rw [hcea]
    refine ⟨rfl, rfl, rfl, rfl, rfl, rfl, ?_, fun r hr => ?_, fun h => ?_, ?_, ?_⟩
    · rw [e, reg_setReg_same]
      exact Nat.mod_eq_of_lt (by omega)
    · rw [htal' r hr]
      exact ⟨rfl, rfl, getD_map_allRods (f := fun r => if x.rested then 0 else (s.tally r).winQ) hr,
        getD_map_allRods (f := fun r => (s.tally r).winT) hr, rfl, rfl, rfl⟩
    · rw [e]
      exact hc h
    · rw [e]
      exact SameRegs.setReg (sameRegs_of_board rfl) (by simp)
    · rw [ht]
      exact keeps_State_roundStart (k0_sameMem s) (keeps_State_setCea (k0_sameMem s) (sameMem_refl s))
  case none =>
    show execRoundComplete s = _
    unfold execRoundComplete
    rw [show s.cea.running = none from h]
  case done =>
    have e := roundComplete_of h
    intro cells s1 s2
    have h2 : s.roundUpdated start = s2 := rfl
    rw [h2] at e
    clear_value s2
    intro n s3 s4
    have hs : s2.roundShown cells start = s4 := rfl
    have e : exec .roundComplete s = s4.roundLeft := hs ▸ e
    clear_value s4
    refine ⟨fun h1 => e.trans (if_pos h1), fun h1 h2 => e.trans ((if_neg ?_).trans (congrArg Outcome.next (if_pos h2))),
      fun h1 h2 => e.trans ((if_neg ?_).trans (congrArg Outcome.next (if_neg ?_)))⟩
    · exact fun h' => Bool.false_ne_true (h1.symm.trans h')
    · exact fun h' => Bool.false_ne_true (h1.symm.trans h')
    · exact fun h' => Bool.false_ne_true (h2.symm.trans h')
  case cmds =>
    intro put
    exact ⟨congrArg Outcome.next (cellCmdBy_single (by decide) h), congrArg Outcome.next (cellCmdBy_single (by decide) h),
      congrArg Outcome.next (cellCmdBy_single (by decide) h), congrArg Outcome.next (cellCmdBy_single (by decide) h)⟩

end

end Sys2Proof.Machine

/-! PROOFS. In-service impedance runs (spec/13, R313 to R315). -/

namespace Sys2Proof.Machine

open Host (Outcome)

section

variable {s t : State} {w : Writer} {r : Nat}

/-! ## A run's state and its abort -/

theorem eisX_eq_of_eis (h : t.eis = s.eis) : t.eisX r = s.eisX r := by rw [State.eisX, State.eisX, h]

theorem rstat_ne_stat : EIS.RSTAT r ≠ EIS.STAT := by
  simp only [EIS.RSTAT, EIS.STAT]
  omega

theorem eisSt_setEisSt {st : Nat} (h : st < 8) : (s.setEisSt r st).eisSt r = st := by
  rw [State.eisSt, State.setEisSt, State.setBit, get_setB_off rstat_ne_stat, get_set_same (by simp) (by simp)]
  exact Nat.mod_eq_of_lt h

theorem eis_setEisSt {st : Nat} : (s.setEisSt r st).eis = s.eis := by
  rw [State.setEisSt, State.setBit, State.setB_eis, State.set_eis]

theorem eisSt_abort {code : Nat} {cancel : Bool} : (s.eisAbort r code cancel).eisSt r = esIDLE := by
  unfold State.eisAbort
  extract_lets x u v y
  have h1 : EIS.RSTAT r ≠ EIS.ABORT_CNT := by
    simp only [EIS.RSTAT, EIS.ABORT_CNT]
    omega
  have h2 : EIS.RSTAT r ≠ PG.EV_STAT := by
    simp only [EIS.RSTAT, PG.EV_STAT]
    omega
  rw [State.eisSt, get_ev h2, State.incSat, get_setReg_off h1,
    get_set_bits (by rfl) (by simp) (by simp) (by simp) (by simp)]
  exact eisSt_setEisSt (by decide)

theorem eisCheck_none (h : (s.eisX r).why = 0) : s.eisCheck r = s := if_neg (fun h' => h'.2 h)

theorem eisCheck_aborts (h : (s.eisX r).why ≠ 0) (hs : s.eisSt r = esPLAN ∨ s.eisSt r = esSETTLE ∨ s.eisSt r = esMEASURE) :
    s.eisCheck r = s.eisAbort r (s.eisX r).why true := if_pos ⟨hs, h⟩

/-! ## A step of a run at its time -/

theorem eisAt_before {st u : Nat} {f : State → State} (h : (s.eisX r).why = 0) (ht : s.beam.t < u) :
    s.eisAt r st u f = s := by
  unfold State.eisAt
  dsimp only
  rw [eisCheck_none h]
  exact if_neg (fun h' => Nat.not_le.mpr ht h'.2)

theorem eisAt_due {st u : Nat} {f : State → State} (h : (s.eisX r).why = 0) (hs : s.eisSt r = st) (ht : u ≤ s.beam.t) :
    s.eisAt r st u f = f s := by
  unfold State.eisAt
  dsimp only
  rw [eisCheck_none h]
  exact if_pos ⟨hs, ht⟩

theorem eisAt_aborts {st u : Nat} {f : State → State} (h : (s.eisX r).why ≠ 0) (hs : s.eisSt r = st)
    (hst : st = esPLAN ∨ st = esSETTLE ∨ st = esMEASURE) : s.eisAt r st u f = s.eisAbort r (s.eisX r).why true := by
  unfold State.eisAt
  dsimp only
  rw [eisCheck_aborts h (hs.symm ▸ hst), eisSt_abort]
  refine if_neg ?_
  rintro ⟨h', -⟩
  rw [← h'] at hst
  exact absurd hst (by decide)

theorem eisAt_collect {u : Nat} {f : State → State} (hs : s.eisSt r = esCOLLECT) :
    s.eisAt r esCOLLECT u f = if u ≤ s.beam.t then f s else s := by
  have hc : s.eisCheck r = s := if_neg (fun h => absurd (hs ▸ h.1) (by decide))
  unfold State.eisAt
  dsimp only
  rw [hc, hs]
  by_cases h : u ≤ s.beam.t
  · rw [if_pos h, if_pos ⟨rfl, h⟩]
  · rw [if_neg h, if_neg (fun h' => h h'.2)]

/-! ## The start of a run (R313) -/

/-- A rod's record once a run is planned. -/
def State.eisPlanned (s : State) (r : Nat) : EisX :=
  { s.eisX r with
    why := 0, run := if (s.eisX r).run = 65535 then 1 else (s.eisX r).run + 1
    t0 := (s.beam.t / 256 + 200000000 + 99999999) / 100000000 * 100000000, acks := [], volts := [], lastI := none
    peak := tonePeak s.eisTones, re := s.eisTones.map (fun _ => 0), im := s.eisTones.map (fun _ => 0) }

theorem eisSend_none {opc : Nat} {l : List Nat} (h : s.rodMods r = []) : s.eisSend r opc l = s := by
  rw [State.eisSend, h]
  rfl

theorem modCells_eq_of_words {m : Nat} (h : t.reg pCEA (CEA.MOD_CFG (m / 2)) = s.reg pCEA (CEA.MOD_CFG (m / 2))) :
    t.modCells m = s.modCells m := by
  rw [State.modCells, State.modCells, State.ceaMod, State.ceaMod, h]

theorem rodMods_setEisSt {st : Nat} (hr : r < 24) : (s.setEisSt r st).rodMods r = s.rodMods r := by
  have hm : ∀ m ∈ (List.range 32).map (fun i => 32 * r + i), decide (0 < (s.setEisSt r st).modCells m) =
      decide (0 < s.modCells m) := by
    intro m h
    obtain ⟨i, hi, rfl⟩ := List.mem_map.mp h
    have hi' := List.mem_range.mp hi
    have ho : CEA.MOD_CFG ((32 * r + i) / 2) < 4096 := by
      simp only [CEA.MOD_CFG]
      omega
    have hs : EIS.RSTAT r < 4096 := by
      simp only [EIS.RSTAT]
      omega
    rw [modCells_eq_of_words]
    rw [State.setEisSt, State.setBit, State.setB, reg_set_page (by decide) ho (show EIS.STAT < 4096 by decide),
      reg_set_page (by decide) ho hs]
  rw [State.rodMods, State.rodMods, List.filter_congr hm]

theorem eisStart_first {m : Fin 24} (he : s.en pEIS = true) (hr : s.eisReady m = true)
    (hi : ∀ q, q < 24 → s.eisSt q = esIDLE)
    (hf : ∀ q, q < 24 → s.eisReady q = true → s.reg pEIS (EIS.LAST_SEC m) < s.reg pEIS (EIS.LAST_SEC q) ∨
      (s.reg pEIS (EIS.LAST_SEC m) = s.reg pEIS (EIS.LAST_SEC q) ∧ m.val ≤ q)) (hm : s.rodMods m = []) :
    exec (.eisStart m) s = .next ((s.setEisX m (s.eisPlanned m)).setEisSt m esPLAN) := by
  have hbusy : (allRods.filter (fun q => decide (s.eisSt q ≠ esIDLE))).length = 0 := by
    rw [List.length_eq_zero_iff, List.filter_eq_nil_iff]
    intro q hq
    simp [hi q (List.mem_range.mp hq)]
  have hconc : ¬(if s.get pEIS EIS.CTL_CONC = 0 then 1 else min (s.get pEIS EIS.CTL_CONC) 24) ≤
      (allRods.filter (fun q => decide (s.eisSt q ≠ esIDLE))).length := by
    rw [hbusy]
    split
    · omega
    · omega
  have hfirst : allRods.all (fun q => !s.eisReady q || decide (s.reg pEIS (EIS.LAST_SEC m) < s.reg pEIS (EIS.LAST_SEC q)) ||
      (decide (s.reg pEIS (EIS.LAST_SEC m) = s.reg pEIS (EIS.LAST_SEC q)) && decide (m.val ≤ q))) = true := by
    rw [List.all_eq_true]
    intro q hq
    cases hq' : s.eisReady q with
    | false => rfl
    | true =>
      rcases hf q (List.mem_range.mp hq) hq' with h | ⟨h, h'⟩
      · simp [h]
      · simp [h, h']
  refine (if_neg ?_).trans (congrArg Outcome.next (eisSend_none ?_))
  · rw [he, hr, hfirst]
    simp only [Bool.not_true, Bool.false_eq_true, false_or, or_false]
    exact hconc
  · rw [rodMods_setEisSt m.isLt]
    exact hm

theorem eisX_setEisX_other {q : Nat} {x : EisX} (h : q ≠ r) : (s.setEisX r x).eisX q = s.eisX q := tabGet_put_other h

/-! ## Runs -/

theorem impedanceRuns : Claims.ImpedanceRuns := by
  intro w r s x
  have next {a b : State} (e : a = b) : (Outcome.next a : Outcome State Fault Refusal) = .next b := congrArg _ e
  refine ⟨fun h => next ?request, fun he hr hi hf hm => ?start, fun h => if_pos ?idle,
    fun hw hs => ⟨fun h => next (eisAt_before hw h), fun h => ⟨fun ha => next ((eisAt_due hw hs h).trans (if_pos ha)),
      fun ha => next ((eisAt_due hw hs h).trans (if_neg ?missing))⟩⟩,
    fun hw hs => ⟨fun h => next (eisAt_before hw h), fun h => next (eisAt_due hw hs h),
      fun h => next (eisAt_before hw h), fun h => next (eisAt_due hw hs h)⟩,
    fun hw hs => ⟨fun h => next (eisAt_before hw h), fun h => next (eisAt_due hw hs h)⟩,
    fun hw => ⟨fun hs => next (eisAt_aborts hw hs (.inl rfl)),
      fun hs => ⟨next (eisAt_aborts hw hs (.inr (.inl rfl))), next (eisAt_aborts hw hs (.inr (.inl rfl)))⟩,
      fun hs => next (eisAt_aborts hw hs (.inr (.inr rfl)))⟩,
    fun hs => ⟨fun h => next ((eisAt_collect hs).trans (if_neg (Nat.not_le.mpr h))),
      fun h => next ((eisAt_collect hs).trans (if_pos h))⟩⟩
  case request =>
    refine finish_action (f := fun s => (s.eisReq (wordOf (2 ^ r.val)).toNat, .ok)) h ?_
    have hv : (wordOf (2 ^ r.val)).toNat = 2 ^ r.val := by
      rw [wordOf_toNat]
      exact Nat.mod_eq_of_lt (Nat.pow_lt_pow_right (by decide) (by omega))
    rw [hv, State.eisReq, bitsSet_single r.isLt]
    rfl
  case start =>
    have e := eisStart_first he hr hi hf hm
    have hx : ((s.setEisX r (s.eisPlanned r)).setEisSt r esPLAN).eisX r = s.eisPlanned r := by
      rw [eisX_eq_of_eis eis_setEisSt, State.eisX_setEisX]
    refine ⟨_, e, eisSt_setEisSt (by decide), ?_, ?_, ?_, ?_, ?_, ?_, fun q hq hn => ?_, ?_, sameMem_of_exec rfl rfl e⟩
    · rw [hx]
      rfl
    · rw [hx]
      exact Nat.mul_mod_left _ _
    · rw [hx]
      simp only [State.eisPlanned]
      omega
    · rw [hx]
      simp only [State.eisPlanned]
      omega
    · rw [hx]
      rfl
    · rw [hx]
      rfl
    · rw [eisX_eq_of_eis eis_setEisSt, eisX_setEisX_other (fun e => hn (Fin.ext e))]
    · exact SameRegs.setB ((sameRegs_of_board State.setEisX_board).set (by simp)) (by simp)
  case idle =>
    rcases h with h | h
    · exact .inl (by rw [h]; rfl)
    · exact .inr (.inl (by rw [h]; rfl))
  case missing => exact fun h' => Bool.false_ne_true (ha.symm.trans h')

end

end Sys2Proof.Machine

/-! PROOFS. EN of a reckoner and of the cell estimator (spec/02, spec/08, spec/13: R52, R213, R216, R317). -/

namespace Sys2Proof.Machine

open Host (Outcome)

section

variable {s t : State} {w : Writer} {p : Nat} {v : Word} {b : Bool} {c : Code} {y : PType}

/-! ## A write of EN that the lease and the shutdown let through -/

/-- A page's PG_CTL waits for nothing and holds no action bit. -/
structure CtlQuiet (s : State) (w : Writer) (p : Nat) : Prop where
  lease : s.leasedByOther w p = false
  wait : (s.pg p).enWait = none
  discard : s.get p PG.CTL_DISCARD = 0
  req : s.get p PG.CTL_LEASE_REQ = 0
  rel : s.get p PG.CTL_LEASE_REL = 0

/-- The word that a write of EN alone stores. -/
def State.enWord (s : State) (p : Nat) (b : Bool) : Word := PG.CTL_EN.write (s.word p PG.CTL) (b2n b)

theorem ctlWord_quiet (h : CtlQuiet s w p) : PG.CTL_EN.write (s.ctlWord p) (b2n b) = s.enWord p b := by
  simp only [State.ctlWord, h.wait, State.enWord]

theorem getLsbD_enWord : (s.enWord p b).getLsbD 0 = b := by
  rw [getLsbD_zero_eq_en, State.enWord, fld_read_write (by decide) (by decide)]
  cases b <;> rfl

theorem read_enWord {f : Fld} (h : f.lo ≤ f.hi) (h' : 0 < f.lo) : f.read (s.enWord p b) = f.read (s.word p PG.CTL) :=
  fld_read_write_hi (by decide) (by decide) h'

theorem enWord_actions (h : CtlQuiet s w p) :
    t.ctlActions w p (s.enWord p b) = (t.ctlStore p (s.enWord p b)).ctlLock p (s.enWord p b) :=
  ctlActions_quiet ((read_enWord (by decide) (by decide)).trans h.discard)
    ((read_enWord (by decide) (by decide)).trans h.rel) ((read_enWord (by decide) (by decide)).trans h.req)

theorem pgCtlWrite_passes (hn : y ≠ .fdc ∧ y ≠ .safe) (hy : pageType p = some y) (hl : s.leasedByOther w p = false)
    (hs : (v.getLsbD 0 && s.flag p PG.STAT_SHUTTING) = false) (hd : s.dom (pageDom p) = .active)
    (he : s.enWrite p (v.getLsbD 0) = (t, .ok)) (ht : t.dom (pageDom p) = .active) :
    s.pgCtlWrite w p v = (t.ctlActions w p v, .ok) := by
  have hp : p ≠ pSAFE := by
    rintro rfl
    exact hn.2 (Option.some.inj (hy.symm.trans (by decide)))
  have hq : pageType p ≠ some .fdc := fun e => hn.1 (Option.some.inj (hy.symm.trans e))
  have hr : (t.ctlActions w p v).pwrReq p = t.ctlActions w p v := pwrReq_active hq (dom_ctlActions.trans ht)
  rw [← hr]
  simp only [State.pgCtlWrite, hl, hs, hd, he, hp, Bool.false_and, Bool.false_eq_true, if_false,
    decide_true, if_true, ne_eq, not_true_eq_false, Bool.not_false, and_true]
  rfl

theorem ctlWrite_en (hn : y ≠ .fdc ∧ y ≠ .safe) (hy : pageType p = some y) (h : CtlQuiet s w p)
    (hs : (b && s.flag p PG.STAT_SHUTTING) = false) (hd : s.dom (pageDom p) = .active)
    (he : s.enWrite p b = (t, .ok)) (ht : t.dom (pageDom p) = .active) :
    s.ctlWrite w p PG.CTL_EN (b2n b) = ((t.ctlStore p (s.enWord p b)).ctlLock p (s.enWord p b)).answer w .ok := by
  have hr := pageRow_of_type hy
  rw [State.ctlWrite, ctlWord_quiet h, ← enWord_actions h]
  refine access_ok (ownerPage_of_row hr) (pageRests_of_row hr hd) (by decide) ((pageWrite_ctl hr).trans ?_)
  exact pgCtlWrite_passes hn hy h.lease (getLsbD_enWord.symm ▸ hs) hd (getLsbD_enWord.symm ▸ he) ht

/-- A write of EN = 1 that the block refuses. -/
theorem ctlWrite_en_refused (hy : pageType p = some y) (h : CtlQuiet s w p)
    (hs : s.flag p PG.STAT_SHUTTING = false) (hd : s.dom (pageDom p) = .active)
    (he : s.enWrite p true = (t, c)) (hc : c ≠ .ok) :
    s.ctlWrite w p PG.CTL_EN 1 = (t.countRefused w p c).answer w c := by
  have hr := pageRow_of_type hy
  have e : s.pgCtlWrite w p (s.enWord p true) = (t, c) := by
    simp only [State.pgCtlWrite, h.lease, hs, hd, getLsbD_enWord, he, Bool.false_and, Bool.and_false, Bool.false_eq_true,
      if_false, decide_true, if_true, if_pos hc]
  rw [State.ctlWrite, show PG.CTL_EN.write (s.ctlWord p) 1 = s.enWord p true from ctlWord_quiet (b := true) h]
  exact access_code (ownerPage_of_row hr) (pageRests_of_row hr hd) (by decide) ((pageWrite_ctl hr).trans e)

/-- While the block shuts down EN = 1 is refused (R52). -/
theorem ctlWrite_en_shutting (hy : pageType p = some y) (h : CtlQuiet s w p)
    (hs : s.flag p PG.STAT_SHUTTING = true) (hd : s.dom (pageDom p) = .active) :
    s.ctlWrite w p PG.CTL_EN 1 = ((s.err p 2).countRefused w p .busy).answer w .busy := by
  have hr := pageRow_of_type hy
  have e : s.pgCtlWrite w p (s.enWord p true) = (s.err p 2, .busy) := by
    simp only [State.pgCtlWrite, h.lease, hs, getLsbD_enWord, Bool.false_and, Bool.and_self, Bool.false_eq_true,
      if_false, if_true, State.refuseShutting, refuse]
  rw [State.ctlWrite, show PG.CTL_EN.write (s.ctlWord p) 1 = s.enWord p true from ctlWord_quiet (b := true) h]
  exact access_code (ownerPage_of_row hr) (pageRests_of_row hr hd) (by decide) ((pageWrite_ctl hr).trans e)

/-! ### What the store of LEASE_TIME, PWR_REQ and LOCK leaves -/

theorem en_ctlBase : ((t.ctlStore p v).ctlLock p v).en p = t.en p := by
  rw [State.en, State.flag, get_ctlLock_bits rfl (by decide) (by decide), get_ctlStore_en]
  rfl

theorem flag_ctlBase {f : Fld} (h : f.off ≠ PG.CTL) : ((t.ctlStore p v).ctlLock p v).flag p f = t.flag p f := by
  rw [State.flag, State.flag, get_ctlLock_off h, get_ctlStore_off h]

theorem recks_ctlBase : ((t.ctlStore p v).ctlLock p v).recks = t.recks := by
  have h : (t.ctlStore p v).recks = t.recks := State.set_recks.trans State.set_recks
  unfold State.ctlLock
  split
  · exact State.set_recks.trans h
  · exact h

theorem sameMem_ctlBase (h : SameMem s t) : SameMem s (((t.ctlStore p v).ctlLock p v).answer w c) := by
  have h1 : SameMem s (t.ctlStore p v) := keeps_State_set (k0_sameMem s) (keeps_State_set (k0_sameMem s) h)
  exact sameMem_answer (keeps_ite (keeps_State_set (k0_sameMem s) h1) h1)

end

/-! ## Reckoners -/

section

variable {s t : State} {w : Writer} {k : Fin 32}

theorem pageType_reck (k : Fin 32) : pageType (pRECK k) = some .reck := by
  revert k
  decide

theorem pageInst_reck (k : Fin 32) : pageInst (pRECK k) = k := by
  revert k
  decide

theorem pageDom_reck (k : Fin 32) : pageDom (pRECK k) = .rd := by
  simp [pageDom, pageType_reck]

theorem bufBad_reck : s.bufBad (pRECK k) = false := by simp only [State.bufBad, pageType_reck]

theorem enWrite_reck_on (e : s.reckEnable k = (t, .ok)) : s.enWrite (pRECK k) true = (t.set (pRECK k) PG.CTL_EN 1, .ok) := by
  simp only [State.enWrite, bufBad_reck, pageType_reck, pageInst_reck, e, Bool.and_false, Bool.false_eq_true, if_false,
    if_true, and_self]

theorem enWrite_reck_refused {c : Code} (e : s.reckEnable k = (t, c)) (h : c ≠ .ok) :
    s.enWrite (pRECK k) true = (t, c) := by
  simp only [State.enWrite, bufBad_reck, pageType_reck, pageInst_reck, e, Bool.and_false, Bool.false_eq_true, if_false,
    if_true, and_self, if_neg h]

theorem enWrite_reck_off : s.enWrite (pRECK k) false = ((s.setB (pRECK k) PG.CTL_EN false).reckDisable k, .ok) := by
  simp [State.enWrite, State.enHook, pageType_reck, pageInst_reck]

/-- What a reckoner that starts holds: its entry, column c0, no trap vector (R213). -/
def State.reckFresh (s : State) (k : Nat) : ReckX :=
  { s.reckX k with
    pc := s.get (pRECK k) ⟨RECK.ENTRY, 15, 2⟩ * 4, ccp := 0, occ := 1, cdep := 0, flags := 0
    ctrl := 0, tvec := 0, pend := [0, 0, 0, 0], spill := none, woke := false }

/-- The state in which a reckoner that starts runs. -/
def State.reckBegun (s : State) (k : Nat) : State :=
  (((s.setReckX k (s.reckFresh k)).setRkSt k rkRUN).showCols k).set (pRECK k) PG.STAT_ENABLED 1

theorem vsm_reckBegun {k : Nat} : (s.reckBegun k).vsm k = s.vsm k := by
  refine vsm_eq_of_vsms ?_
  simp -implicitDefEqProofs only [State.reckBegun, State.showCols, State.setRkSt, State.set_vsms, State.setReckX_vsms]

/-- The end of a start: a reckoner of the virtual machine without an entry waits for its loader. -/
def State.reckGoes (s : State) (k : Nat) (v : VsmX) : State :=
  if v.whole ∧ s.get (pRECK k) ⟨RECK.ENTRY, 15, 2⟩ = 0 then
    let s := s.setVsm k { rom := true, whole := true, runs := true }
    (s.setReckX k { s.reckX k with mask := 1 }).setRkSt k rkSLEEP
  else s.setVsm k { v with runs := false }

theorem reckStart_eq {k : Nat} : s.reckStart k = (s.reckBegun k).reckGoes k ((s.reckBegun k).vsm k) := rfl

theorem reckStart_plain {k : Nat} (h : (s.vsm k).whole = false) : s.reckStart k =
    (s.reckBegun k).setVsm k { s.vsm k with runs := false } := by
  rw [reckStart_eq, vsm_reckBegun, State.reckGoes, if_neg (fun e => Bool.false_ne_true (h.symm.trans e.1))]

theorem flag_showCols {f : Fld} (h : f.hi < 12) (hl : f.lo ≤ f.hi) : (s.showCols k).flag (pRECK k) f = s.flag (pRECK k) f := by
  have hq (x : State) (g : Fld) (n : Nat) (ho : g.off = RECK.STATUS) (hg : 12 ≤ g.lo) (hg' : g.lo ≤ g.hi) (h32 : g.hi < 32) :
      (x.set (pRECK k) g n).get (pRECK k) f = x.get (pRECK k) f := by
    by_cases hf : f.off = RECK.STATUS
    · exact get_set_bits (hf.trans ho.symm) hg' h32 hl (Or.inl (by omega))
    · exact get_set_off (fun e => hf (e.trans ho))
  unfold State.showCols State.flag
  rw [hq _ _ _ rfl (by decide) (by decide) (by decide), hq _ _ _ rfl (by decide) (by decide) (by decide),
    hq _ _ _ rfl (by decide) (by decide) (by decide)]

/-- The reckoner after a start (R213). -/
structure ReckStarted (s t : State) (k : Nat) : Prop where
  state : t.rkSt k = rkRUN
  enabled : t.flag (pRECK k) PG.STAT_ENABLED = true
  restarted : t.flag (pRECK k) RECK.STATUS_RESTARTED = false
  cols : t.reckX k = s.reckFresh k

theorem get_setVsm {p : Nat} {f : Fld} {x : VsmX} : (s.setVsm k x).get p f = s.get p f := rfl

theorem reckEnable_stopped (hs : s.rkSt k = rkSTOPPED)
    (hp : ¬ (k.val = 31 ∧ (s.rotation = true ∨ s.flag (pRECK k) RECK.STATUS_SPARE = true))) (hc : k.val < s.bist.cores)
    (hb : s.bist.slot = none) :
    s.reckEnable k = ((s.set (pRECK k) RECK.STATUS_RESTARTED 0).reckStart k, .ok) := by
  have hst : (s.set (pRECK k) RECK.STATUS_RESTARTED 0).rkSt k = rkSTOPPED :=
    (get_set_bits (by rfl) (by decide) (by decide) (by decide) (Or.inl (by decide))).trans hs
  have hbi : (s.set (pRECK k) RECK.STATUS_RESTARTED 0).bist.slot = none := by rw [State.set_bist, hb]
  simp only [State.reckEnable]
  rw [if_neg (hs ▸ by decide), if_neg (by rintro (h | h); exacts [hp h, absurd hc (Nat.not_lt.mpr h)]), if_pos hst, hbi]
  rfl

theorem reckStart_started (hv : (s.vsm k).whole = false) (hr : s.flag (pRECK k) RECK.STATUS_RESTARTED = false) :
    ReckStarted s (s.reckStart k) k := by
  rw [reckStart_plain hv, State.reckBegun]
  refine ⟨?_, ?_, ?_, ?_⟩
  · rw [State.rkSt, get_setVsm, get_set_off (by decide)]
    exact rkSt_showCols.trans (rkSt_setRkSt (by decide))
  · rw [State.flag, get_setVsm]
    exact flag_setB_same (f := PG.STAT_ENABLED) (b := true) (by decide) (by decide)
  · rw [State.flag, get_setVsm, get_set_off (by decide)]
    refine (flag_showCols (f := RECK.STATUS_RESTARTED) (by decide) (by decide)).trans ?_
    rw [State.flag, State.setRkSt, get_set_bits (by rfl) (by decide) (by decide) (by decide) (Or.inr (by decide))]
    exact hr
  · rw [show ∀ x : State, ∀ y, (x.setVsm k y).reckX k = x.reckX k from fun _ _ => rfl,
      reckX_eq_of_recks State.set_recks, reckX_eq_of_recks recks_showCols, reckX_eq_of_recks recks_setRkSt,
      State.reckX_setReckX]

end

theorem blockEnables : Claims.BlockEnables := by
  unfold Claims.BlockEnables
  intro w k s hd p quiet spare calm
  have hd' : s.dom (pageDom p) = .active := (congrArg s.dom (pageDom_reck k)).trans hd
  have dom {t : State} (h : t.doms = s.doms) : t.dom (pageDom p) = .active := by
    rw [State.dom, h]
    exact hd'
  have q {p : Nat} (h : quiet p) : CtlQuiet s w p := by
    obtain ⟨h1, h2, -, h3, h4, h5⟩ := h
    exact ⟨h1, h2, h3, h4, h5⟩
  refine ⟨fun hq hc hs hp hk hb hv => ?start, fun hq hc hs => ?fatal, fun hq hc hs hp => ?spare, fun hq hc => ?shutting,
    fun hq hs => ?stop, fun hq hc he hb => ?cea⟩
  case start =>
    obtain ⟨u, hu⟩ : ∃ u, u = s.set (pRECK k) RECK.STATUS_RESTARTED 0 := ⟨_, rfl⟩
    have e : s.reckEnable k = (u.reckStart k, .ok) := hu ▸ reckEnable_stopped hs hp hk hb
    have hur : u.flag (pRECK k) RECK.STATUS_RESTARTED = false := by
      rw [hu, State.flag, get_set_same (by decide) (by decide)]
      rfl
    have huv : (u.vsm k).whole = false := by rw [hu, vsm_eq_of_vsms State.set_vsms, hv]
    have hux : u.reckX k = s.reckX k := by rw [hu, reckX_eq_of_recks State.set_recks]
    have hue : u.get (pRECK k) ⟨RECK.ENTRY, 15, 2⟩ = s.get (pRECK k) ⟨RECK.ENTRY, 15, 2⟩ := by
      rw [hu, get_set_off (by decide)]
    have hd1 : ((u.reckStart k).set (pRECK k) PG.CTL_EN 1).dom (pageDom p) = .active := by
      refine dom (State.set_doms.trans ?_)
      rw [reckStart_plain huv, hu]
      simp -implicitDefEqProofs only [State.reckBegun, State.showCols, State.setRkSt, State.set_doms,
        State.setReckX_doms, State.setVsm_doms]
    have hm : SameMem s ((u.reckStart k).set (pRECK k) PG.CTL_EN 1) := by
      rw [hu]
      exact keeps_State_set (k0_sameMem s) (keeps_State_reckStart (k0_sameMem s)
        (keeps_State_set (k0_sameMem s) (sameMem_refl s)))
    obtain ⟨h1, h2, h3, h4⟩ := reckStart_started huv hur
    have off {f : Fld} (h : f.off ≠ PG.CTL) : ((u.reckStart k).set (pRECK k) PG.CTL_EN 1).get (pRECK k) f =
        (u.reckStart k).get (pRECK k) f := get_set_off h
    have hx : ∀ v, ((((u.reckStart k).set (pRECK k) PG.CTL_EN 1).ctlStore p v).ctlLock p v).reckX k =
        u.reckFresh k := fun v => by
      rw [reckX_eq_of_recks recks_ctlBase, reckX_eq_of_recks State.set_recks, h4]
    have hxw : (u.reckFresh k).w = (s.reckX k).w := by rw [← hux]; rfl
    refine ⟨_, congrArg Outcome.next (ctlWrite_en (y := .reck) (b := true) (by decide) (pageType_reck k) (q hq)
      ((Bool.true_and _).trans hc) hd' (enWrite_reck_on e) hd1), ?_, ?_, ?_, ?_, ?_, ?_, ?_, ?_, ?_, ?_, sameMem_ctlBase hm⟩
    · exact en_ctlBase.trans (flag_setB_same (f := PG.CTL_EN) (b := true) (by decide) (by decide))
    · rw [State.rkSt, get_answer, get_ctlLock_off (by decide), get_ctlStore_off (by decide), off (by decide)]
      exact h1
    · exact (flag_ctlBase (by decide)).trans ((congrArg (· != 0) (off (f := PG.STAT_ENABLED) (by decide))).trans h2)
    · exact (flag_ctlBase (by decide)).trans ((congrArg (· != 0) (off (f := RECK.STATUS_RESTARTED) (by decide))).trans h3)
    · exact (congrArg ReckX.pc (hx _)).trans (congrArg (· * 4) hue)
    · exact congrArg ReckX.ccp (hx _)
    · exact congrArg ReckX.occ (hx _)
    · exact congrArg ReckX.flags (hx _)
    · exact congrArg ReckX.tvec (hx _)
    · exact (congrArg ReckX.w (hx _)).trans hxw
  case fatal =>
    have e : s.reckEnable k = (s.err p 18, .writeRefused) := by
      simp only [State.reckEnable]
      rw [if_pos hs]
      rfl
    exact congrArg Outcome.next (ctlWrite_en_refused (pageType_reck k) (q hq) hc hd' (enWrite_reck_refused e (by decide))
      (by decide))
  case spare =>
    have e : s.reckEnable k = (s.err p 20, .writeRefused) := by
      simp only [State.reckEnable]
      rw [if_neg hs, if_pos hp]
      rfl
    exact congrArg Outcome.next (ctlWrite_en_refused (pageType_reck k) (q hq) hc hd' (enWrite_reck_refused e (by decide))
      (by decide))
  case shutting => exact congrArg Outcome.next (ctlWrite_en_shutting (pageType_reck k) (q hq) hc hd')
  case stop =>
    have ho {f : Fld} (h : f.off ≠ PG.CTL) : (s.setB p PG.CTL_EN false).get p f = s.get p f := get_set_off h
    obtain ⟨u, hu⟩ : ∃ u, u = (s.setB p PG.CTL_EN false).set p RECK.STATUS_RESTARTED 0 := ⟨_, rfl⟩
    have hst : u.rkSt k = rkRUN := by
      rw [hu, State.rkSt, get_set_bits (by rfl) (by decide) (by decide) (by decide) (Or.inl (by decide)),
        ho (by decide)]
      exact hs
    have e : (s.setB p PG.CTL_EN false).reckDisable k = (u.set p PG.STAT_SHUTTING 1).set p PG.STAT_ENABLED 0 := by
      rw [State.reckDisable, ← hu]
      exact if_neg (hst ▸ by decide)
    have hd1 : ((s.setB p PG.CTL_EN false).reckDisable k).dom (pageDom p) = .active := by
      rw [e, hu]
      exact dom (State.set_doms.trans (State.set_doms.trans (State.set_doms.trans State.setB_doms)))
    have hm : SameMem s ((s.setB p PG.CTL_EN false).reckDisable k) :=
      keeps_State_reckDisable (k0_sameMem s) (keeps_State_setB (k0_sameMem s) (sameMem_refl s))
    refine ⟨_, congrArg Outcome.next (ctlWrite_en (y := .reck) (b := false) (by decide) (pageType_reck k) (q hq)
      (Bool.false_and _) hd' enWrite_reck_off hd1), ?_, ?_, ?_, ?_, ?_, sameMem_ctlBase hm⟩
    · refine en_ctlBase.trans ?_
      rw [e, State.en, State.flag, get_set_off (by decide), get_set_off (by decide), hu, get_set_off (by decide)]
      exact flag_setB_same (f := PG.CTL_EN) (b := false) (by decide) (by decide)
    · refine (flag_ctlBase (by decide)).trans ?_
      rw [e, State.flag, get_set_bits (by rfl) (by decide) (by decide) (by decide) (by decide)]
      exact flag_setB_same (f := PG.STAT_SHUTTING) (b := true) (by decide) (by decide)
    · refine (flag_ctlBase (by decide)).trans ?_
      rw [e]
      exact flag_setB_same (f := PG.STAT_ENABLED) (b := false) (by decide) (by decide)
    · rw [State.rkSt, get_answer, get_ctlLock_off (by decide), get_ctlStore_off (by decide), e, get_set_off (by decide),
        get_set_off (by decide)]
      exact hst
    · refine (flag_ctlBase (by decide)).trans ?_
      rw [e, State.flag, get_set_off (by decide), get_set_off (by decide), hu]
      exact flag_setB_same (f := RECK.STATUS_RESTARTED) (b := false) (by decide) (by decide)
  case cea =>
    have hp : pageDom pCEA = .rd := by decide
    obtain ⟨u, hu⟩ : ∃ u, u = s.setB pCEA PG.CTL_EN true := ⟨_, rfl⟩
    have e : s.enWrite pCEA true = (u.ceaEnable.setB pCEA PG.STAT_ENABLED true, .ok) := by
      simp only [State.enWrite, hb, he, ← hu, State.enHook, pageType_cea]
      rfl
    have hue : u.ceaEnable.en pCEA = true := by
      have h : ∀ x : State, ∀ n, (x.set pCEA CEA.STAT_CHEM_BAD n).en pCEA = x.en pCEA := fun x n =>
        congrArg (· != 0) (get_set_off (by decide))
      have h' : ∀ x : State, ∀ n, (x.err pCEA n).en pCEA = x.en pCEA := fun x n =>
        congrArg (· != 0) (get_err (f := PG.CTL_EN) (by decide) (by decide) (by decide))
      have hu' : u.en pCEA = true := hu ▸ flag_setB_same (f := PG.CTL_EN) (b := true) (by decide) (by decide)
      unfold State.ceaEnable
      extract_lets used bad x
      split
      · exact (h _ _).trans hu'
      · exact (h' _ _).trans ((h _ _).trans hu')
    have hud : u.ceaEnable.doms = s.doms := by
      have h : u.doms = s.doms := hu ▸ State.setB_doms
      unfold State.ceaEnable
      extract_lets used bad x
      split
      · exact State.set_doms.trans h
      · exact State.err_doms.trans (State.set_doms.trans h)
    have hd1 : (u.ceaEnable.setB pCEA PG.STAT_ENABLED true).dom (pageDom pCEA) = .active := by
      rw [hp, State.dom, State.setB_doms, hud]
      exact hd
    have hm : SameMem s (u.ceaEnable.setB pCEA PG.STAT_ENABLED true) := by
      rw [hu]
      exact keeps_State_setB (k0_sameMem s) (keeps_State_ceaEnable (k0_sameMem s)
        (keeps_State_setB (k0_sameMem s) (sameMem_refl s)))
    refine ⟨_, congrArg Outcome.next (ctlWrite_en (y := .cea) (b := true) (by decide) pageType_cea (q hq)
      ((Bool.true_and _).trans hc) ((congrArg s.dom hp).trans hd) e hd1), ?_, ?_, sameMem_ctlBase hm⟩
    · refine en_ctlBase.trans ?_
      exact (flag_setB_off (f := PG.STAT_ENABLED) (g := PG.CTL_EN) (by decide)).trans hue
    · exact (flag_ctlBase (by decide)).trans (flag_setB_same (f := PG.STAT_ENABLED) (b := true) (by decide) (by decide))

/-- Settles O36: the parts above. -/
theorem cellsAndImpedance : Obligations.CellsAndImpedance := ⟨cellEstimator, impedanceRuns, blockEnables⟩

end Sys2Proof.Machine

/-! PROOFS. Apportionment, grants and retirements of beads (spec/12: R281, R287, R288, R290, R294). -/

namespace Sys2Proof.Machine

open Host (Outcome)

/-! ## Grants and retirements -/

/-- Settles O40. -/
theorem ledgerConserves : Obligations.LedgerConserves := by
  unfold Obligations.LedgerConserves
  constructor
  · intro lease pool rel target grants step
    dsimp only [grantKind]
    split
    case isTrue h =>
      have hs : (0 < target - (lease - rel) ∧ 0 < pool + rel) ∨ (target - (lease - rel) < 0 ∧ pool + rel < 0) :=
        pos_and_pos_or_neg_and_neg_of_mul_pos h.2
      by_cases h0 : step = 0
      · simp only [h0, if_true]
        split <;> omega
      · simp only [h0, if_false]
        split <;> omega
    case isFalse => omega
  · intro pool ret pend
    dsimp only [retireKind]
    split
    case isTrue h =>
      have hs : (0 < pool ∧ 0 < pend) ∨ (pool < 0 ∧ pend < 0) := pos_and_pos_or_neg_and_neg_of_mul_pos h
      dsimp only
      omega
    case isFalse =>
      dsimp only
      omega

/-! ## Apportionment -/

section

variable {n m t : Nat} {sh rm w : List Nat}

theorem sumN_eq_sum (l : List Nat) : sumN l = l.sum := List.sum_eq_foldl.symm

theorem sum_modify_succ {i : Nat} (h : i < sh.length) : (sh.modify i (· + 1)).sum = sh.sum + 1 := by
  induction sh generalizing i with
  | nil => exact absurd h (Nat.not_lt_zero i)
  | cons x sh ih =>
    cases i with
    | zero => simp [Nat.add_right_comm]
    | succ i => simp [ih (Nat.lt_of_succ_lt_succ h), Nat.add_assoc]

/-- Clearing an entry that is not 0 leaves one such entry less. -/
theorem countP_set_zero {i : Nat} (h : i < rm.length) (h0 : rm[i] ≠ 0) :
    (rm.set i 0).countP (· ≠ 0) + 1 = rm.countP (· ≠ 0) := by
  induction rm generalizing i with
  | nil => exact absurd h (Nat.not_lt_zero i)
  | cons x rm ih =>
    cases i with
    | zero =>
      have hx : x ≠ 0 := h0
      simp [hx]
    | succ i =>
      have := ih (Nat.lt_of_succ_lt_succ h) h0
      simp only [List.set_cons_succ, List.countP_cons]
      omega

/-- Giving one each to at most as many places as have a remainder gives each place at most one. -/
theorem giveLargest_spec (hl : sh.length = rm.length) (hn : n ≤ rm.countP (· ≠ 0)) :
    (giveLargest n sh rm).length = sh.length ∧ (giveLargest n sh rm).sum = sh.sum + n ∧
      ∀ j, sh.getD j 0 ≤ (giveLargest n sh rm).getD j 0 ∧
        (giveLargest n sh rm).getD j 0 ≤ sh.getD j 0 + (if rm.getD j 0 = 0 then 0 else 1) := by
  induction n generalizing sh rm with
  | zero => exact ⟨rfl, rfl, fun j => ⟨le_refl _, Nat.le_add_right _ _⟩⟩
  | succ n ih =>
    obtain ⟨b, hb, hb0⟩ : ∃ b ∈ rm, decide (b ≠ 0) = true := List.countP_pos_iff.mp (Nat.lt_of_lt_of_le n.succ_pos hn)
    cases hm : rm.max? with
    | none =>
      rw [List.max?_eq_none_iff] at hm
      rw [hm] at hb
      exact absurd hb (by simp)
    | some m =>
      obtain ⟨hmem, hmax⟩ := List.max?_eq_some_iff.mp hm
      have hi : rm.findIdx (· == m) < rm.length := List.findIdx_lt_length_of_exists ⟨m, hmem, by simp⟩
      have hget : rm[rm.findIdx (· == m)] = m := by simpa using List.findIdx_getElem (w := hi)
      generalize hk : rm.findIdx (· == m) = i at hi hget
      have hm0 : rm[i] ≠ 0 := by
        have := hmax b hb
        have : b ≠ 0 := by simpa using hb0
        omega
      have hc := countP_set_zero hi hm0
      obtain ⟨h1, h2, h3⟩ := ih (sh := sh.modify i (· + 1)) (rm := rm.set i 0) (by simpa using hl) (by omega)
      have hg : giveLargest (n + 1) sh rm = giveLargest n (sh.modify i (· + 1)) (rm.set i 0) := by
        rw [giveLargest, hm]
        dsimp only
        rw [hk]
      rw [hg]
      refine ⟨h1.trans (by simp), ?_, fun j => ?_⟩
      · rw [h2, sum_modify_succ (hl ▸ hi)]
        omega
      · have hj := h3 j
        have hi' : i < sh.length := hl ▸ hi
        by_cases h : i = j
        · subst h
          simp only [List.getD_eq_getElem?_getD, List.getElem?_modify, List.getElem?_set, hi, hi', if_true,
            List.getElem?_eq_getElem, Option.map_some, Option.map_eq_map, Option.getD_some, hm0, if_false] at hj ⊢
          omega
        · simp only [List.getD_eq_getElem?_getD, List.getElem?_modify, List.getElem?_set, h, if_false, id_map'] at hj ⊢
          exact hj

theorem sum_mul_div_add_mod (m t : Nat) (w : List Nat) :
    t * (w.map (fun x => m * x / t)).sum + (w.map (fun x => m * x % t)).sum = m * w.sum := by
  induction w with
  | nil => simp
  | cons x w ih =>
    have := Nat.div_add_mod (m * x) t
    simp only [List.map_cons, List.sum_cons, Nat.mul_add]
    omega

/-- Remainders add up to at most one short of the divisor each. -/
theorem sum_le_countP (h : ∀ x ∈ rm, x < t) : rm.sum ≤ t * rm.countP (· ≠ 0) := by
  induction rm with
  | nil => simp
  | cons x rm ih =>
    have hx := h x (by simp)
    have := ih (fun y hy => h y (by simp [hy]))
    by_cases h0 : x = 0
    · simpa [h0] using this
    · simp only [List.sum_cons, List.countP_cons, decide_not, h0, decide_false, Bool.not_false, if_true, Nat.mul_add]
      simp only [decide_not] at this
      omega

/-- What the floors leave fits the places with a remainder. -/
theorem left_le_countP (h : 0 < w.sum) : m - (w.map (fun x => m * x / w.sum)).sum ≤
    (w.map (fun x => m * x % w.sum)).countP (· ≠ 0) ∧ (w.map (fun x => m * x / w.sum)).sum ≤ m := by
  have hs := sum_mul_div_add_mod m w.sum w
  have hr := sum_le_countP (rm := w.map (fun x => m * x % w.sum)) (t := w.sum) (fun x hx => by
    obtain ⟨y, -, rfl⟩ := List.mem_map.mp hx
    exact Nat.mod_lt _ h)
  generalize w.sum = t at h hs hr
  generalize (w.map (fun x => m * x / t)).sum = a at hs
  generalize (w.map (fun x => m * x % t)).countP (· ≠ 0) = c at hr
  have ha : t * a ≤ t * m := by rw [Nat.mul_comm t m]; omega
  refine ⟨Nat.le_of_mul_le_mul_left ?_ h, Nat.le_of_mul_le_mul_left ha h⟩
  rw [Nat.mul_sub, Nat.mul_comm t m]
  omega

end

/-- Settles O39: the floors leave no more than the places with a remainder, and each of those gets at most one. -/
theorem apportionExact : Obligations.ApportionExact := by
  unfold Obligations.ApportionExact
  intro m w h
  have ht := sumN_eq_sum w
  obtain ⟨hn, hle⟩ := left_le_countP (m := m) (ht ▸ h)
  have e : apportion m w = giveLargest (m - (w.map (fun x => m * x / w.sum)).sum) (w.map (fun x => m * x / w.sum))
      (w.map (fun x => m * x % w.sum)) := by
    rw [apportion]
    dsimp only
    rw [if_neg (Nat.ne_of_gt h), sumN_eq_sum, ht]
  obtain ⟨h1, h2, h3⟩ := giveLargest_spec ((List.length_map _).trans (List.length_map _).symm) hn
  rw [e, ht, sumN_eq_sum]
  refine ⟨by omega, h1.trans (List.length_map _), fun i hi => ?_⟩
  have hsh : (w.map (fun x => m * x / w.sum)).getD i 0 = m * w.getD i 0 / w.sum := by
    simp [List.getD_eq_getElem?_getD, hi]
  obtain ⟨h4, h5⟩ := h3 i
  rw [hsh] at h4 h5
  refine ⟨h4, h5.trans ?_⟩
  split <;> omega

end Sys2Proof.Machine

/-! PROOFS. A lapse of the device's lease and the placement after it (spec/12: R292, R293, R295). -/

namespace Sys2Proof.Machine

open Host (Outcome)

section

variable {s t : State} {p o r q n : Nat} {ps qs : List Int}

/-! ## What a placement run leaves -/

theorem board_eisTrack : s.eisTrack.board = s.board := by
  refine keeps_foldl (P := fun t => t.board = s.board) rfl (fun t r h => ?_)
  dsimp only
  split
  · split
    · exact State.setEisX_board.trans h
    · exact h
  · split
    · exact State.setEisX_board.trans h
    · exact h

theorem bead_eisTrack : s.eisTrack.bead = s.bead := by
  refine keeps_foldl (P := fun t => t.bead = s.bead) rfl (fun t r h => ?_)
  dsimp only
  split
  · split
    · exact State.setEisX_bead.trans h
    · exact h
  · split
    · exact State.setEisX_bead.trans h
    · exact h

theorem reg_placeRun : s.placeRun.reg p o = s.placed.reg p o := by
  rw [placeRun_eq, reg_eq_of_board board_eisTrack]
  split
  · exact reg_eq_of_board State.setBead_board
  · rfl

theorem bead_placeOne : (s.placeOne ps qs r).bead = s.bead :=
  State.setReg_bead.trans (State.setReg_bead.trans State.setReg_bead)

theorem bead_setRemain : s.setRemain.bead = s.bead := State.setReg_bead.trans State.setReg_bead

theorem bead_placed : s.placed.bead = s.bead := by
  refine State.inc_bead.trans (bead_setRemain.trans (State.setReg_bead.trans (State.setReg_bead.trans ?_)))
  exact keeps_foldl (P := fun t => t.bead = s.bead) rfl (fun t r h => bead_placeOne.trans h)

theorem out_placeRun : s.placeRun.bead.out = s.bead.out := by
  rw [placeRun_eq, bead_eisTrack]
  split
  · rw [State.bead_setBead, bead_placed]
  · rw [bead_placed]

theorem ploop_ne_beads : pLOOP r ≠ pBEADS := by
  simp only [pLOOP, pBEADS]
  omega

theorem reg_placeOne_beads (h : o ≠ BEADS.PLACE r) (ho : o < 4096) :
    (s.placeOne ps qs r).reg pBEADS o = s.reg pBEADS o := by
  rw [State.placeOne, reg_setReg_page ploop_ne_beads.symm ho (by decide),
    reg_setReg_page ploop_ne_beads.symm ho (by decide), reg_setReg_off h]

theorem reg_placed_beads (ho : o < 0x220) (h : o ∉ [BEADS.PLACED_P, BEADS.PLACED_Q, BEADS.REMAIN_P, BEADS.REMAIN_Q,
    BEADS.PLACE_GEN]) : s.placed.reg pBEADS o = s.reg pBEADS o := by
  simp only [List.mem_cons, List.not_mem_nil, or_false, not_or] at h
  obtain ⟨h1, h2, h3, h4, h5⟩ := h
  rw [State.placed, State.inc, reg_setReg_off h5, State.setRemain, reg_setReg_off h4, reg_setReg_off h3,
    reg_setReg_off h2, reg_setReg_off h1]
  refine keeps_foldl (P := fun t => t.reg pBEADS o = s.reg pBEADS o) rfl (fun t r h => (reg_placeOne_beads ?_ ?_).trans h)
  · simp only [BEADS.PLACE]
    omega
  · omega

/-! ## The placement of nothing -/

/-- Rod and loop show no placement. -/
def State.PlacesNothing (s : State) (r : Nat) : Prop :=
  s.reg pBEADS (BEADS.PLACE r) = 0 ∧ s.reg (pLOOP r) LOOP.PSET = 0 ∧ s.reg (pLOOP r) LOOP.QSET = 0

theorem placesNothing_placeOne_same (hp : ps.getD r 0 = 0) (hq : qs.getD r 0 = 0) (hr : r < 24) :
    (s.placeOne ps qs r).PlacesNothing r := by
  have ho : BEADS.PLACE r < 4096 := by
    simp only [BEADS.PLACE]
    omega
  refine ⟨?_, ?_, ?_⟩
  · rw [State.placeOne, reg_setReg_page ploop_ne_beads.symm ho (by decide),
      reg_setReg_page ploop_ne_beads.symm ho (by decide), reg_setReg_same, hp, hq]
    rfl
  · rw [State.placeOne, reg_setReg_off (by decide), reg_setReg_same, hp]
    rfl
  · rw [State.placeOne, reg_setReg_same, hq]
    rfl

theorem placesNothing_placeOne_other (h : s.PlacesNothing q) (hn : q ≠ r) (hq : q < 24) (hr : r < 24) :
    (s.placeOne ps qs r).PlacesNothing q := by
  obtain ⟨h1, h2, h3⟩ := h
  have hl : pLOOP q ≠ pLOOP r := fun e => hn (Nat.add_left_cancel e)
  have hb : BEADS.PLACE r < 4096 := by
    simp only [BEADS.PLACE]
    omega
  have hq' : BEADS.PLACE q ≠ BEADS.PLACE r ∧ BEADS.PLACE q < 4096 := by
    simp only [BEADS.PLACE]
    omega
  have loop {o : Nat} (ho : o < 4096) : (s.placeOne ps qs r).reg (pLOOP q) o = s.reg (pLOOP q) o := by
    rw [State.placeOne, reg_setReg_page hl ho (by decide), reg_setReg_page hl ho (by decide),
      reg_setReg_page ploop_ne_beads ho hb]
  exact ⟨(reg_placeOne_beads hq'.1 hq'.2).trans h1, (loop (by decide)).trans h2, (loop (by decide)).trans h3⟩

theorem placesNothing_foldl (hp : ∀ r, ps.getD r 0 = 0) (hq : ∀ r, qs.getD r 0 = 0) (hn : n ≤ 24) :
    ∀ r, r < n → ((List.range n).foldl (State.placeOne ps qs) s).PlacesNothing r := by
  induction n with
  | zero => exact fun r h => absurd h (Nat.not_lt_zero r)
  | succ n ih =>
    intro r h
    rw [List.range_succ, List.foldl_append]
    rcases Nat.lt_succ_iff_lt_or_eq.mp h with h' | rfl
    · exact placesNothing_placeOne_other (ih (by omega) r h') (by omega) (by omega) (by omega)
    · exact placesNothing_placeOne_same (hp r) (hq r) (by omega)

theorem placeKind_zero {k : Bool} : s.placeKind k 0 = List.replicate 24 0 := by
  have hl : ∀ opn : List (Nat × Nat × Nat), placeLoop 25 0 opn (List.replicate 24 0) = List.replicate 24 0 := fun opn => by
    rw [placeLoop, if_pos (.inl rfl)]
  rw [State.placeKind, placeBeads, Int.natAbs_zero, hl, List.map_replicate, List.map_replicate]
  simp [scaleBeads]

/-- Without a basis the placement is 0 on every rod and in every loop, and so are its sums. -/
theorem placed_nothing (h : s.bead.basis = {}) : (∀ r, r < 24 → s.placed.PlacesNothing r) ∧
    s.placed.reg pBEADS BEADS.PLACED_P = 0 ∧ s.placed.reg pBEADS BEADS.PLACED_Q = 0 := by
  have hz : ∀ k, s.placeKind k 0 = List.replicate 24 0 := fun k => placeKind_zero
  have hg : ∀ r, (List.replicate 24 (0 : Int)).getD r 0 = 0 := fun r => by
    rw [List.getD_eq_getElem?_getD, List.getElem?_replicate]
    split <;> rfl
  have hs : enc 32 (sumZ (List.replicate 24 0)) = 0 := by decide
  unfold State.placed
  rw [h]
  dsimp only
  rw [hz, hz, hs]
  refine ⟨fun r hr => ?_, ?_, ?_⟩
  · have hb : BEADS.PLACE r < 4096 ∧ 0x220 ≤ BEADS.PLACE r := by
      simp only [BEADS.PLACE]
      omega
    obtain ⟨h1, h2, h3⟩ := placesNothing_foldl (s := s) hg hg (le_refl 24) r hr
    have beads {x : State} {o v : Nat} (ho : o < 0x220) : (x.setReg pBEADS o v).reg pBEADS (BEADS.PLACE r) =
        x.reg pBEADS (BEADS.PLACE r) := reg_setReg_off (by omega)
    have loop {x : State} {o v j : Nat} (hj : j < 4096) (ho : o < 4096) :
        (x.setReg pBEADS o v).reg (pLOOP r) j = x.reg (pLOOP r) j := reg_setReg_page ploop_ne_beads hj ho
    refine ⟨?_, ?_, ?_⟩
    · rw [State.inc, beads (by decide), State.setRemain, beads (by decide), beads (by decide), beads (by decide),
        beads (by decide)]
      exact h1
    · rw [State.inc, loop (by decide) (by decide), State.setRemain, loop (by decide) (by decide),
        loop (by decide) (by decide), loop (by decide) (by decide), loop (by decide) (by decide)]
      exact h2
    · rw [State.inc, loop (by decide) (by decide), State.setRemain, loop (by decide) (by decide),
        loop (by decide) (by decide), loop (by decide) (by decide), loop (by decide) (by decide)]
      exact h3
  · rw [State.inc, reg_setReg_off (by decide), State.setRemain, reg_setReg_off (by decide), reg_setReg_off (by decide),
      reg_setReg_off (by decide), reg_setReg_same]
    rfl
  · rw [State.inc, reg_setReg_off (by decide), State.setRemain, reg_setReg_off (by decide), reg_setReg_off (by decide),
      reg_setReg_same]
    rfl

/-! ## The lapse -/

theorem get_eq_of_reg {f : Fld} (h : t.reg p f.off = s.reg p f.off) : t.get p f = s.get p f := by
  rw [State.get, State.get, BitVec.eq_of_toNat_eq h]

/-- The lease and its count as a lapse leaves them. -/
def State.lapsed (s : State) : State :=
  (((((s.setBead { s.bead with basis := {}, rel := {}, out := none, restore := none }).setLstate lsLAPSED).set pBEADS
    BEADS.DEV_STAT_WAIT_ACK 0).incSat pBEADS BEADS.LAPSE_CNT).ev pBEADS (blk 0))

theorem bead_lapsed : s.lapsed.bead = { s.bead with basis := {}, rel := {}, out := none, restore := none } :=
  State.ev_bead.trans (State.incSat_bead.trans (State.set_bead.trans State.set_bead))

theorem leaseLapse_eq (h : s.bead.agent = false) : s.leaseLapse = s.lapsed.placeRun := by
  obtain ⟨x, hx⟩ : ∃ x, x = ((s.setBead { s.bead with basis := {}, rel := {}, out := none, restore := none }).setLstate
    lsLAPSED).set pBEADS BEADS.DEV_STAT_WAIT_ACK 0 := ⟨_, rfl⟩
  have ha : x.bead.agent = false := by
    rw [hx, State.set_bead, State.setLstate, State.set_bead, State.bead_setBead, h]
  have e : s.leaseLapse = (if x.bead.agent then x.setBead { x.bead with agentLapses := x.bead.agentLapses + 1 }
      else (x.incSat pBEADS BEADS.LAPSE_CNT).ev pBEADS (blk 0)).placeRun := by
    rw [hx]
    rfl
  rw [e, ha, State.lapsed, ← hx]
  rfl

end

/-- Settles O38. -/
theorem beadLapsePlacesNothing : Obligations.BeadLapsePlacesNothing := by
  unfold Obligations.BeadLapsePlacesNothing
  intro s h t
  have e : t = s.lapsed.placeRun := leaseLapse_eq h
  have hb : s.lapsed.bead.basis = {} := congrArg BeadX.basis bead_lapsed
  have keep {o : Nat} (ho : o < 0x220) (hn : o ∉ [BEADS.PLACED_P, BEADS.PLACED_Q, BEADS.REMAIN_P, BEADS.REMAIN_Q,
      BEADS.PLACE_GEN]) : t.reg pBEADS o = s.lapsed.reg pBEADS o := by
    rw [e, reg_placeRun, reg_placed_beads ho hn]
  obtain ⟨h1, h2, h3⟩ := placed_nothing hb
  have zero {p o : Nat} (h : s.lapsed.placed.reg p o = 0) : t.reg p o = 0 := by rw [e, reg_placeRun, h]
  refine ⟨?_, ?_, ?_, ?_, ?_, fun r hr => ?_, ?_, ?_⟩
  · rw [State.lstate, get_eq_of_reg (keep (by decide) (by decide)), State.lapsed, get_ev (by decide), State.incSat,
      get_setReg_off (by decide), get_set_bits (by rfl) (by decide) (by decide) (by decide) (by decide), State.setLstate,
      get_set_same (by decide) (by decide)]
    rfl
  · rw [keep (by decide) (by decide), State.lapsed, reg_ev (by decide), State.incSat, reg_setReg_same,
      reg_set_off (by decide), State.setLstate, reg_set_off (by decide), reg_eq_of_board State.setBead_board]
    exact Nat.mod_eq_of_lt (by omega)
  · rw [State.bit, keep (by decide) (by decide)]
    exact bit_ev (by decide)
  · rw [State.regS, zero h2]
    rfl
  · rw [State.regS, zero h3]
    rfl
  · obtain ⟨h4, h5, h6⟩ := h1 r hr
    exact ⟨zero h4, zero h5, zero h6⟩
  · rw [e, out_placeRun, bead_lapsed]
  · exact keeps_State_leaseLapse (k0_sameMem s) (sameMem_refl s)

end Sys2Proof.Machine

/-! PROOFS. Bead traffic (spec/12, R280 to R297). -/

namespace Sys2Proof.Machine

open Host (Outcome)

section

/-- A device number past the 12 bits of an address, whose bit of DISC's REACH falls on HOME_STAT.PEER_OK. -/
def farDevice : Nat := 102405

/-- An acting home whose ledger holds one lease, of that device, and whose peer is heard. -/
def farHome : State :=
  (((State.reset.setReg pBEADS BEADS.HOME_CFG 65536).set pBEADS BEADS.HOME_STAT_ROLE hrACTING).set pBEADS
    BEADS.HOME_STAT_PEER_OK 1).setHome { com := { leases := [(farDevice, ⟨0, 0, 0, {}, true, {}, {}, {}⟩)] } }

/-- The role of the home after a command. -/
def roleAfter (o : Outcome State Fault Refusal) : Nat :=
  match o with
  | .next t => t.role
  | _ => 0

/-- The home counts the device as reached while its peer is heard, and loses it with the peer. -/
theorem roleAfter_peerSilent : farHome.majority = true ∧ roleAfter (exec .peerSilent farHome) = hrLOST := by decide

/-- Refutes O37: majority is judged once PEER_OK has been cleared, and there a lease of a device number past the
addresses reads as reached through PEER_OK itself. -/
theorem not_beadTraffic : ¬ Obligations.BeadTraffic := by
  rintro ⟨-, hb, -⟩
  obtain ⟨-, -, -, -, -, -, -, -, -, -, -, hsilent⟩ := hb farHome
  obtain ⟨hmajority, hlost⟩ := roleAfter_peerSilent
  obtain ⟨hs, -⟩ := hsilent (by decide) (by decide)
  have h : roleAfter (exec .peerSilent farHome) = hrACTING := (congrArg roleAfter (hs hmajority)).trans (by decide)
  exact absurd (hlost.symm.trans h) (by decide)

end

end Sys2Proof.Machine

/-! PROOFS. Module bus: frames, attempts, pushes, commands (spec/14: R323 to R329, R335, R353, R360). -/

namespace Sys2Proof.Machine

open Host (Outcome)

section

variable {s t : State} {w : Writer} {n k : Nat}

theorem mb_eq_of_mbus (h : t.mbus = s.mbus) : t.mb n = s.mb n := by rw [State.mb, State.mb, h]

theorem injTake_unarmed {p : Nat} (h : s.injArmed p k = false) : s.injTake p k = (false, s) := by
  rw [injTake_eq, h]
  rfl

/-! ## Attempts (R327 to R329) -/

theorem tec_remove {x : MbX} {src : TxSrc} : (x.remove src).tec = x.tec := by
  cases src <;> rfl

theorem abortDone_eq {src : TxSrc} (h : (t.mb n).abort = (s.mb n).abort) :
    t.abortDone n src = if (s.mb n).abort = true ∧ src = .head then t.abortNow n else t := by
  rw [State.abortDone, h]

theorem busError_mb : (s.busError k).mb n = s.mb n := mb_eq_of_mbus State.set_mbus

theorem abort_tecAdd : ((s.tecAdd n k).mb n).abort = (s.mb n).abort := by rw [State.tecAdd, State.mb_setMb]

theorem execCanFrameTxDone_offered {m : Fin 32} {r : TxRes} {sof : Nat} {src : TxSrc} (h : (s.mb m).offer = some src) :
    execCanFrameTxDone m r sof s = .next (s.txDone m r sof src) := by
  rw [execCanFrameTxDone, h]

theorem txDone_sent {sof : Nat} {src : TxSrc} {f : CanFrame} (h : s.offered n sof src = some f) :
    s.txDone n .sent sof src = ((((s.setMb n { (s.mb n).remove src with tec := (s.mb n).tec - 1 }).send
      (.canFrame n f)).busOffCheck n).arbitrate n) := by
  rw [State.txDone]
  dsimp only
  rw [h, tec_remove]

end

theorem mbusFrames : Claims.MbusFrames := by
  unfold Claims.MbusFrames
  intro w n s p x heard
  refine ⟨fun h => ⟨fun f sof => ?good, ?bad, ?dwell⟩, fun h => ⟨fun f sof ha => ?taken, ?error⟩,
    fun h => ⟨?noDwell, fun hr => ⟨?noError, fun f sof => ?noFrame⟩⟩, fun sof src ho => ?attempt, fun r sof ho => ?idle,
    fun v hw => ?push, fun h => ⟨fun hb => ?returns, fun ha hb => ?waits⟩, fun h => ?noRecovery⟩
  case good => exact congrArg Outcome.next (if_pos h)
  case bad => exact congrArg Outcome.next (if_pos h)
  case dwell => exact congrArg Outcome.next (if_pos h)
  case taken =>
    have hn : s.mbSt n ≠ mbDETECT := by
      intro hd
      rw [State.mbRx, hd] at h
      exact absurd h (by decide)
    refine congrArg Outcome.next ((if_neg hn).trans ((if_pos h).trans ?_))
    rw [injTake_unarmed ha]
    rfl
  case error =>
    have hn : s.mbSt n ≠ mbDETECT := by
      intro hd
      rw [State.mbRx, hd] at h
      exact absurd h (by decide)
    exact congrArg Outcome.next ((if_neg hn).trans (if_pos h))
  case noDwell => exact congrArg Outcome.next (if_neg h)
  case noError => exact congrArg Outcome.next ((if_neg h).trans (if_neg (by rw [hr]; decide)))
  case noFrame => exact congrArg Outcome.next ((if_neg h).trans (if_neg (by rw [hr]; decide)))
  case attempt =>
    intro keep
    have e (r : TxRes) : exec (.canFrameTxDone n r sof) s = .next (s.txDone n r sof src) := execCanFrameTxDone_offered ho
    refine ⟨fun f hf => ?_, ?_, ?_, ?_⟩
    · rw [e, txDone_sent hf]
    · rw [e]
      exact congrArg (fun t : State => Outcome.next ((t.busOffCheck n).arbitrate n)) (abortDone_eq rfl)
    · rw [e]
      exact congrArg (fun t : State => Outcome.next ((t.busOffCheck n).arbitrate n))
        (abortDone_eq ((congrArg MbX.abort busError_mb).trans abort_tecAdd))
    · rw [e]
      refine congrArg (fun t : State => Outcome.next ((t.busOffCheck n).arbitrate n)) (abortDone_eq ?_)
      rw [busError_mb]
      split
      · rfl
      · exact abort_tecAdd
  case idle =>
    have e : execCanFrameTxDone n r sof s = .next s := by
      rw [execCanFrameTxDone, show (s.mb n).offer = none from ho]
    exact e
  case push =>
    intro put
    have hb : v.getLsbD 31 = v.toNat.testBit 31 := rfl
    refine ⟨fun hv hl => ?_, fun hv hl => ?_, fun hv => ?_⟩
    · refine congrArg Outcome.next (finish_action_code (f := fun s => s.txwCtl n v) hw (ownerPage_of_type (pageType_mbus n)) ?_)
      exact if_pos ⟨hb ▸ hv, hl⟩
    · refine congrArg Outcome.next (finish_action (f := fun s => s.txwCtl n v) hw ?_)
      exact (if_neg (fun h => Nat.not_le.mpr hl h.2)).trans (if_pos (hb ▸ hv))
    · refine congrArg Outcome.next (finish_action (f := fun s => s.txwCtl n v) hw ?_)
      have hv' : ¬ v.toNat.testBit 31 = true := by rw [← hb, hv]; decide
      exact (if_neg (fun h => hv' h.1)).trans (if_neg hv')
  case returns => exact congrArg Outcome.next ((if_neg (fun h' => h' h)).trans (if_pos hb))
  case waits =>
    refine congrArg Outcome.next ((if_neg (fun h' => h' h)).trans (if_neg ?_))
    rintro (h' | h')
    · exact Bool.false_ne_true (ha.symm.trans h')
    · exact Bool.false_ne_true (hb.symm.trans h')
  case noRecovery => exact congrArg Outcome.next (if_pos h)

section

variable {s t : State} {w : Writer} {n : Fin 32}

/-! ## Commands -/

/-- What one bit of CMD does. -/
def State.mbusBit (s : State) (n : Nat) : Nat → State
  | 0 => s.abortHead n
  | 1 => s.boRecover n
  | 2 => if !s.mpeOn n then s.setMb n { s.mb n with q0 := (s.mb n).q0.drop 1 } else s
  | 3 => if !s.mpeOn n then s.setMb n { s.mb n with q1 := (s.mb n).q1.drop 1 } else s
  | 4 => s.mpeAll n false
  | 5 => s.mpeAll n true
  | _ => s.timeRefDue n

theorem mbusCmd_two_pow {m b : Nat} (h : b < 7) : s.mbusCmd m (2 ^ b) = s.mbusBit m b := by
  rw [State.mbusCmd]
  simp only [Nat.testBit_two_pow]
  interval_cases b <;> simp [State.mbusBit]

/-- One bit of CMD on a page that takes it. -/
theorem mbusCmdBy_ok {b : Nat} (h : s.mayAct w (pMBUS n)) (e : s.mbusCmd n (2 ^ b) = t) :
    s.mbusCmdBy w n b = t.answer w .ok :=
  finish_action (f := fun s => (s.mbusCmd n (2 ^ b), .ok)) h (congrArg (·, Code.ok) e)

theorem execChallengeTimeout_some {a : Fin 24} {life : Bool} {c : Chal}
    (h : (s.mb n).chals.find? (fun c => c.addr == a.val && c.life == life) = some c) : execChallengeTimeout n a life s =
      .next (if 3 ≤ c.tries then (s.answered n a life c.nonce).set (pMBUS n) (MBUS.MOD_STAT_NO_RESP a) 1
        else s.challenge n a life c.tries) := by
  rw [execChallengeTimeout, h]

theorem execChallengeTimeout_none {a : Fin 24} {life : Bool}
    (h : (s.mb n).chals.find? (fun c => c.addr == a.val && c.life == life) = none) :
    execChallengeTimeout n a life s = .next s := by
  rw [execChallengeTimeout, h]

end

theorem mbusCommands : Claims.MbusCommands := by
  unfold Claims.MbusCommands
  intro w n s p x due asks
  have hdue : due = true ↔ s.mbSt n = mbACTIVE ∧ s.flag p MBUS.TREF_CFG_EN = true := by
    simp only [due, Bool.and_eq_true, decide_eq_true_eq]
  have hasks : asks = true ↔ s.mpeOn n = true ∧ s.mbSt n ≠ mbOFF := by
    simp only [asks, Bool.and_eq_true, decide_eq_true_eq]
  have tref (h : due = true) : s.timeRefDue n = (s.setMb n { x with slotRef := true }).offerNew n := if_pos (hdue.mp h)
  have noTref (h : due = false) : s.timeRefDue n = s := if_neg (fun h' => Bool.false_ne_true (h.symm.trans (hdue.mpr h')))
  have all (life : Bool) (h : asks = true) : s.mpeAll n life = s.challengeAll n life := if_pos (hasks.mp h)
  have noAll (life : Bool) (h : asks = false) : s.mpeAll n life = s :=
    if_neg (fun h' => Bool.false_ne_true (h.symm.trans (hasks.mpr h')))
  refine ⟨fun hw => ?cmd, fun h => congrArg Outcome.next (tref h), fun h => congrArg Outcome.next (noTref h),
    fun h => ⟨congrArg Outcome.next (all false h), congrArg Outcome.next (all true h)⟩,
    fun h => ⟨congrArg Outcome.next (noAll false h), congrArg Outcome.next (noAll true h)⟩,
    fun a life => ⟨fun c hc => ⟨fun h => ?noResponse, fun h => ?again⟩, fun hc => execChallengeTimeout_none hc⟩,
    fun a hl hr => ?read⟩
  case noResponse => exact (execChallengeTimeout_some hc).trans (congrArg Outcome.next (if_pos h))
  case again => exact (execChallengeTimeout_some hc).trans (congrArg Outcome.next (if_neg (Nat.not_le.mpr h)))
  case read =>
    have ha : ∀ a : Fin 24, MBUS.MOD_STAT a % 4 = 0 ∧ MBUS.MOD_STAT a < 4096 := by decide
    refine congrArg Outcome.next
      ((readAccess_word (ownerPage_of_type (pageType_mbus n)) hr (ha a).1 (ha a).2).trans ?_)
    rw [(readWord_of_narrow (s := s) (wideAt_modStat n a)).trans (readReg_modStat n a)]
  case cmd =>
    have run {b : Nat} {t : State} (hb : b < 7) (e : s.mbusBit n b = t) :
        (.next (s.mbusCmdBy w n b) : Outcome State Fault Refusal) = .next (t.answer w .ok) :=
      congrArg Outcome.next (mbusCmdBy_ok hw ((mbusCmd_two_pow hb).trans e))
    have b0 {t : State} (e : s.abortHead n = t) : exec (.abortHead w n) s = .next (t.answer w .ok) := run (b := 0) (by decide) e
    have b1 {t : State} (e : s.boRecover n = t) : exec (.boRecover w n) s = .next (t.answer w .ok) := run (b := 1) (by decide) e
    have b6 {t : State} (e : s.timeRefDue n = t) : exec (.trefNow w n) s = .next (t.answer w .ok) := run (b := 6) (by decide) e
    refine ⟨fun hf ho => b0 ?_, fun hf ho => b0 ?_, fun hf => b0 (if_pos hf), fun h hq => b1 ?_, fun h hq => b1 ?_,
      fun h => b1 (if_pos h), fun h => ⟨run (b := 2) (by decide) ?_, run (b := 3) (by decide) ?_⟩,
      fun h => ⟨run (b := 2) (by decide) ?_, run (b := 3) (by decide) ?_⟩,
      fun h => ⟨run (b := 4) (by decide) (all false h), run (b := 5) (by decide) (all true h)⟩,
      fun h => ⟨run (b := 4) (by decide) (noAll false h), run (b := 5) (by decide) (noAll true h)⟩,
      fun h => b6 (tref h), fun h => b6 (noTref h)⟩
    · exact (if_neg hf).trans (if_pos ho)
    · exact (if_neg hf).trans (if_neg ho)
    · exact (if_neg (fun h' => h' h)).trans (if_pos hq)
    · exact (if_neg (fun h' => h' h)).trans (if_neg (fun h' => Bool.false_ne_true (hq.symm.trans h')))
    · exact if_pos (by rw [h]; rfl)
    · exact if_pos (by rw [h]; rfl)
    · exact if_neg (by rw [h]; decide)
    · exact if_neg (by rw [h]; decide)

end Sys2Proof.Machine

/-! PROOFS. Module bus: sleep, the watch, shutting down, messages that stall (spec/14: R330 to R334, R340). -/

namespace Sys2Proof.Machine

open Host (Outcome)

section

variable {s t : State} {w : Writer} {n : Nat} {m : Fin 32}

/-! ## A controller's state -/

/-- A change of state, where it is one. -/
theorem setMbSt_ne {st : Nat} (h : s.mbSt n ≠ st) : ∃ b c, s.setMbSt n st =
    ((((s.set (pMBUS n) MBUS.STAT_STATE st).ev (pMBUS n) 18).setB (pMBUS n) MBUS.STAT_MPE_ACTIVE b).setB (pMBUS n)
      MBUS.STAT_LISTEN_ONLY c) := ⟨_, _, if_neg h⟩

theorem mbSt_setMbSt {st : Nat} (hst : st < 8) : (s.setMbSt n st).mbSt n = st := by
  by_cases h : s.mbSt n = st
  · rw [State.setMbSt]
    dsimp only
    rw [if_pos h, h]
  · obtain ⟨b, c, e⟩ := setMbSt_ne h
    rw [e, State.mbSt, get_setB_bits (by rfl) (by decide) (by decide) (by decide) (by decide),
      get_setB_bits (by rfl) (by decide) (by decide) (by decide) (by decide), get_ev (by decide),
      get_set_same (by decide) (by decide)]
    exact Nat.mod_eq_of_lt hst

theorem get_setMbSt {st : Nat} {f : Fld} (h : f.off ≠ MBUS.STAT) (he : f.off ≠ PG.EV_STAT) :
    (s.setMbSt n st).get (pMBUS n) f = s.get (pMBUS n) f := by
  by_cases hs : s.mbSt n = st
  · rw [State.setMbSt]
    dsimp only
    rw [if_pos hs]
  · obtain ⟨b, c, e⟩ := setMbSt_ne hs
    rw [e, get_setB_off h, get_setB_off h, get_ev he, get_set_off h]

theorem mbus_setMbSt {st : Nat} : (s.setMbSt n st).mbus = s.mbus := by
  by_cases hs : s.mbSt n = st
  · rw [State.setMbSt]
    dsimp only
    rw [if_pos hs]
  · obtain ⟨b, c, e⟩ := setMbSt_ne hs
    rw [e]
    exact State.setB_mbus.trans (State.setB_mbus.trans (State.ev_mbus.trans State.set_mbus))

theorem bit_setMbSt_ev {st : Nat} (h : s.mbSt n ≠ st) : (s.setMbSt n st).bit (pMBUS n) PG.EV_STAT 18 = true := by
  obtain ⟨b, c, e⟩ := setMbSt_ne h
  rw [e, bit_setB_off (by decide), bit_setB_off (by decide)]
  exact bit_ev (by decide)

/-! ## Shutting down -/

/-- What a controller keeps of its record when it is off. -/
def MbX.cleared (x : MbX) : MbX :=
  { x with
    q0 := [], q1 := [], fifo := [], wait := [], slotRef := false, acks := [], offer := none, abort := false
    chals := [], open_ := [], done := [], wakePend := false, watch := none }

theorem mbusOff_eq : s.mbusOff n =
    ((((s.setMb n (s.mb n).cleared).setMbSt n mbOFF).set (pMBUS n) PG.STAT_SHUTTING 0).ev (pMBUS n) 4) := rfl

theorem mb_mbusOff : (s.mbusOff n).mb n = (s.mb n).cleared := by
  rw [mbusOff_eq, mb_eq_of_mbus State.ev_mbus, mb_eq_of_mbus State.set_mbus, mb_eq_of_mbus mbus_setMbSt, State.mb_setMb]

/-! ## The watch -/

theorem execWatchWake_some {wt : Bool × Nat × Nat} {f : Option CanFrame} (h : (s.mb m).watch = some wt) :
    execWatchWake m f s = .next (if s.mbSt m = mbASLEEP ∧ !(s.mb m).wakePend ∧ watchHit wt f then s.watchWake m f else s) := by
  rw [execWatchWake, h]

theorem execWatchWake_none {f : Option CanFrame} (h : (s.mb m).watch = none) : execWatchWake m f s = .next s := by
  rw [execWatchWake, h]

theorem execWatchFalse_some {wt : Bool × Nat × Nat} (h : (s.mb m).watch = some wt) : execWatchFalse m s =
    .next (if s.mbSt m = mbASLEEP ∧ wt.1 then s.incF (pMBUS m) MBUS.WAKE_CNT_FALSE else s) := by
  rw [execWatchFalse, h]

theorem execWatchFalse_none (h : (s.mb m).watch = none) : execWatchFalse m s = .next s := by
  rw [execWatchFalse, h]

/-! ## Messages that stall -/

theorem execMessageStall_some {a : Fin 24} {c : Fin 9} {o : OpenMsg}
    (h : (s.mb m).open_.find? (fun m => m.addr == a.val && m.cls == c.val) = some o) : execMessageStall m a c s =
      .next (if o.skip then s.closeMsg m a c else (s.closeMsg m a c).msgDrop m false) := by
  rw [execMessageStall, h]

theorem execMessageStall_none {a : Fin 24} {c : Fin 9}
    (h : (s.mb m).open_.find? (fun m => m.addr == a.val && m.cls == c.val) = none) : execMessageStall m a c s = .next s := by
  rw [execMessageStall, h]

/-! ## Sleep -/

/-- A controller that goes to sleep, before its state changes. -/
def State.drowsy (s : State) (n : Nat) : State :=
  (s.setMb n { s.mb n with sleepAt := s.beam.t, slotRef := false }).set (pMBUS n) MBUS.CTL_SLEEP 1

theorem mpeOn_setMbSt {st : Nat} : (s.setMbSt n st).mpeOn n = s.mpeOn n := by
  rw [State.mpeOn, State.flag, get_setMbSt (by decide) (by decide)]
  rfl

theorem sleepWrite_on (h : s.mbSt n = mbACTIVE) (hm : s.mpeOn n = false) :
    s.sleepWrite n true = (s.drowsy n).setMbSt n mbSLEEPING := by
  have hm' : ((s.drowsy n).setMbSt n mbSLEEPING).mpeOn n = false := by
    rw [mpeOn_setMbSt, State.mpeOn, State.drowsy, flag_set_off (by decide)]
    exact hm
  have hn : ¬ ((s.drowsy n).setMbSt n mbSLEEPING).mpeOn n = true := fun h' => Bool.false_ne_true (hm'.symm.trans h')
  unfold State.sleepWrite
  dsimp only
  rw [if_pos rfl, if_pos h]
  exact if_neg hn

theorem sleepWrite_on_inactive (h : s.mbSt n ≠ mbACTIVE) : s.sleepWrite n true = s := by
  unfold State.sleepWrite
  dsimp only
  rw [if_pos rfl, if_neg h]

theorem sleepWrite_off_asleep (h : s.mbSt n = mbASLEEP) :
    s.sleepWrite n false = (s.set (pMBUS n) MBUS.CTL_SLEEP 0).mbusAwake n false := by
  unfold State.sleepWrite
  dsimp only
  rw [if_neg (by decide), if_pos h]

end

theorem mbusSleep : Claims.MbusSleep := by
  unfold Claims.MbusSleep
  intro w n s p x unavail
  refine ⟨fun hw h hm => ?sleeps, fun hw h => ?wakes, fun hw h => ?inactive, fun h hf => congrArg Outcome.next (if_pos ⟨h, hf⟩),
    fun h => ?awake, fun wt f hx h hp => ⟨fun hh => ?watch, fun hh => ?noHit⟩, fun f h => ?noWatch,
    fun wt hx h ht => ?false_, fun h => ?noFalse, fun h => ?off, fun h => congrArg Outcome.next (if_neg ?_),
    fun h => ?unavailable, fun h => ?noUnavailable, fun a c => ?stall⟩
  case sleeps =>
    have e : exec (.sleepRequest w n true) s = .next (((s.drowsy n).setMbSt n mbSLEEPING).answer w .ok) :=
      congrArg Outcome.next (finish_action (f := fun s => (s.sleepWrite n true, .ok)) hw
        (congrArg (·, Code.ok) (sleepWrite_on h hm)))
    have hs : (s.drowsy n).mbSt n ≠ mbSLEEPING := by
      rw [State.mbSt, State.drowsy, get_set_off (by decide)]
      exact fun h' => absurd (h.symm.trans h') (by decide)
    have hx : ((s.drowsy n).setMbSt n mbSLEEPING).mb n = { x with sleepAt := s.beam.t, slotRef := false } := by
      rw [mb_eq_of_mbus mbus_setMbSt, State.drowsy, mb_eq_of_mbus State.set_mbus, State.mb_setMb]
    refine ⟨_, e, ?_, ?_, ?_, ?_, ?_, sameMem_of_exec rfl rfl (e)⟩
    · exact mbSt_setMbSt (by decide)
    · refine (congrArg (· != 0) (get_setMbSt (f := MBUS.CTL_SLEEP) (by decide) (by decide))).trans ?_
      exact flag_setB_same (f := MBUS.CTL_SLEEP) (b := true) (by decide) (by decide)
    · exact congrArg MbX.slotRef hx
    · exact congrArg MbX.sleepAt hx
    · exact bit_setMbSt_ev hs
  case wakes =>
    refine congrArg Outcome.next (finish_action (f := fun s => (s.sleepWrite n false, .ok)) hw ?_)
    exact congrArg (·, Code.ok) (sleepWrite_off_asleep h)
  case inactive =>
    refine congrArg Outcome.next (finish_action (f := fun s => (s.sleepWrite n true, .ok)) hw ?_)
    exact congrArg (·, Code.ok) (sleepWrite_on_inactive h)
  case awake =>
    refine congrArg Outcome.next (if_neg ?_)
    rintro ⟨h1, h2⟩
    rcases h with h | ⟨h3, h4⟩
    · exact h h1
    · exact h2.elim h3 (Nat.not_le.mpr h4)
  case watch => exact (execWatchWake_some hx).trans (congrArg Outcome.next (if_pos ⟨h, congrArg not hp, hh⟩))
  case noHit =>
    exact (execWatchWake_some hx).trans
      (congrArg Outcome.next (if_neg (fun h' => Bool.false_ne_true (hh.symm.trans h'.2.2))))
  case noWatch =>
    cases hx : x.watch with
    | none => exact execWatchWake_none hx
    | some wt =>
      refine (execWatchWake_some hx).trans (congrArg Outcome.next (if_neg ?_))
      rintro ⟨h1, h2, -⟩
      rcases h with h | h | h
      · exact absurd (hx.symm.trans h) (by simp)
      · exact h h1
      · rw [show (s.mb n).wakePend = true from h] at h2
        exact absurd h2 (by decide)
  case false_ => exact (execWatchFalse_some hx).trans (congrArg Outcome.next (if_pos ⟨h, ht⟩))
  case noFalse =>
    cases hx : x.watch with
    | none => exact execWatchFalse_none hx
    | some wt =>
      refine (execWatchFalse_some hx).trans (congrArg Outcome.next (if_neg ?_))
      rintro ⟨h1, -⟩
      rcases h with h | h
      · exact absurd (hx.symm.trans h) (by simp)
      · exact h h1
  case off =>
    have e : exec (.controllerShutDone n) s = .next (s.mbusOff n) := congrArg Outcome.next (if_pos h)
    have hx (f : MbX → Prop) (h : f x.cleared) : f ((s.mbusOff n).mb n) := mb_mbusOff.symm ▸ h
    refine ⟨_, e, ?_, ?_, hx (·.fifo = []) rfl, hx (·.q0 = []) rfl, hx (·.q1 = []) rfl, hx (·.wait = []) rfl,
      hx (·.acks = []) rfl, hx (·.chals = []) rfl, hx (·.open_ = []) rfl, hx (·.done = []) rfl, hx (·.watch = none) rfl, ?_,
      sameMem_of_exec rfl rfl e⟩
    · rw [mbusOff_eq, State.mbSt, get_ev (by decide), get_set_off (by decide)]
      exact mbSt_setMbSt (by decide)
    · rw [mbusOff_eq, flag_ev (by decide)]
      exact flag_setB_same (f := PG.STAT_SHUTTING) (b := false) (by decide) (by decide)
    · rw [mbusOff_eq]
      exact bit_ev (by decide)
  case unavailable => exact congrArg Outcome.next (if_pos (by simpa [unavail] using h))
  case noUnavailable => exact congrArg Outcome.next (if_neg (by simpa [unavail] using h))
  case stall =>
    intro hit
    refine ⟨fun o ho hs => ?_, fun o ho hs => ?_, fun ho => execMessageStall_none ho⟩
    · exact (execMessageStall_some ho).trans (congrArg Outcome.next (if_neg (by rw [hs]; decide)))
    · exact (execMessageStall_some ho).trans (congrArg Outcome.next (if_pos hs))
  · rw [h]
    decide

/-- Settles O41: the parts above. -/
theorem moduleBus : Obligations.ModuleBus := ⟨mbusFrames, mbusCommands, mbusSleep⟩

end Sys2Proof.Machine

/-! PROOFS. Module bus: complete messages and what they do (spec/14: R341 to R357). -/

namespace Sys2Proof.Machine

open Host (Outcome)

section

variable {s t : State} {n : Nat} {m : MbMsg}

/-! ## Consumers (R341) -/

theorem onMsg_some {cls : Nat} {f : MbMsg → State → State} (h : (s.mb n).done.find? (fun m => m.cls == cls) = some m) :
    s.onMsg n cls f = f m (s.setMb n { s.mb n with done := (s.mb n).done.erase m }) := by
  rw [State.onMsg, h]

theorem onMsg_none {cls : Nat} {f : MbMsg → State → State} (h : (s.mb n).done.find? (fun m => m.cls == cls) = none) :
    s.onMsg n cls f = s := by
  rw [State.onMsg, h]

theorem toEis_eq {f : State → Nat → List Nat → State} :
    s.toEis n m f = (s.modIdx n m.addr).elim (s.msgToRing n m 0) (fun i => f s i m.data) := by
  rw [State.toEis]
  cases s.modIdx n m.addr <;> rfl

/-! ## What a record in the ring leaves -/

theorem mbus_setMemBytes {a : Nat} {l : List Nat} : (s.setMemBytes a l).mbus = s.mbus :=
  keeps_foldl (P := fun t => t.mbus = s.mbus) rfl (fun _ _ h => h)

theorem mbus_of_ringPut {base size wr rd : Nat} {l : List Nat} {pad : Nat → List Nat} {r : State × Nat}
    (h : s.ringPut base size wr rd l pad = some r) : r.1.mbus = s.mbus := by
  unfold State.ringPut at h
  extract_lets k gap used at h
  split at h
  · exact absurd h (by simp)
  · obtain rfl := Option.some.inj h
    refine mbus_setMemBytes.trans ?_
    change (if gap = 0 then s else s.setMemBytes (base + wr) (pad gap)).mbus = s.mbus
    split
    · rfl
    · exact mbus_setMemBytes

theorem mbus_msgToRing {flags : Nat} : (s.msgToRing n m flags).mbus = s.mbus := by
  unfold State.msgToRing State.msgRing
  dsimp only
  split
  case h_1 r hr => exact State.ev_mbus.trans (State.setReg_mbus.trans (mbus_of_ringPut hr))
  case h_2 =>
    split
    · rfl
    · exact State.err_mbus.trans State.incF_mbus

theorem modX_setModX {a : Nat} {x : ModX} : (s.setModX n a x).modX n a = x := by
  rw [State.setModX, State.modX, State.mb_setMb]
  exact tabGet_put_same

theorem modX_eq_of_mbus {a : Nat} (h : t.mbus = s.mbus) : t.modX n a = s.modX n a := by
  rw [State.modX, State.modX, mb_eq_of_mbus h]

/-! ## Alarms (R347) -/

theorem mbFrames_ack_length {addr q : Nat} {brs : Bool} : (mbFrames 0 addr 1 brs (leBytes 2 q)).length = 1 := by
  simp [mbFrames, leBytes]

theorem acks_arbitrate : ((s.arbitrate n).mb n).acks = (s.mb n).acks := by rw [State.arbitrate, State.mb_setMb]

theorem acks_offerNew : ((s.offerNew n).mb n).acks = (s.mb n).acks := by
  rw [State.offerNew]
  split
  · exact acks_arbitrate
  · rfl

theorem mem_offerNew : (s.offerNew n).mem = s.mem := by
  rw [State.offerNew]
  split <;> rfl

/-- An alarm with its acknowledgement in the slot, where that has room. -/
def State.alarmAcked (s : State) (n : Nat) (m : MbMsg) : State :=
  if (s.mb n).acks.length < 4 then
    (s.free.2.setMb n { s.free.2.mb n with
      acks := (s.free.2.mb n).acks ++ mbFrames 0 m.addr 1 (s.free.1 % 2 == 1) (leBytes 2 (m.le 8 2)) }).offerNew n
  else s

/-- The first copy of an alarm. -/
def State.alarmNew (s : State) (n : Nat) (m : MbMsg) : State :=
  let x := s.modX n m.addr
  let s := (s.setModX n m.addr { x with aseqs := m.le 8 2 :: x.aseqs }).msgToRing n m 0
  (s.set (pMBUS n) (MBUS.MOD_STAT_ALARM m.addr) 1).ev (pMBUS n) (blk 5)

theorem alarmRx_eq : s.alarmRx n m = if ((s.alarmAcked n m).modX n m.addr).aseqs.contains (m.le 8 2) then s.alarmAcked n m
    else (s.alarmAcked n m).alarmNew n m := rfl

theorem acks_alarmAcked (h : (s.mb n).acks.length < 4) :
    ((s.alarmAcked n m).mb n).acks.length = (s.mb n).acks.length + 1 := by
  rw [State.alarmAcked, if_pos h, acks_offerNew, State.mb_setMb, List.length_append, mbFrames_ack_length]
  rfl

theorem mods_alarmAcked : ((s.alarmAcked n m).mb n).mods = (s.mb n).mods := by
  rw [State.alarmAcked]
  split
  · rw [State.offerNew]
    split
    · rw [State.arbitrate, State.mb_setMb, State.mb_setMb]
      rfl
    · rw [State.mb_setMb]
      rfl
  · rfl

theorem modX_alarmAcked : (s.alarmAcked n m).modX n m.addr = s.modX n m.addr := by
  rw [State.modX, State.modX, mods_alarmAcked]

theorem mem_alarmAcked : (s.alarmAcked n m).mem = s.mem := by
  rw [State.alarmAcked]
  split
  · exact mem_offerNew
  · rfl

theorem alarmRx_seen (h : (s.modX n m.addr).aseqs.contains (m.le 8 2) = true) : s.alarmRx n m = s.alarmAcked n m := by
  rw [alarmRx_eq, modX_alarmAcked, if_pos h]

theorem alarmRx_new (h : (s.modX n m.addr).aseqs.contains (m.le 8 2) = false) :
    s.alarmRx n m = (s.alarmAcked n m).alarmNew n m := by
  rw [alarmRx_eq, modX_alarmAcked, if_neg (by rw [h]; decide)]

theorem mbus_alarmNew : (s.alarmNew n m).mbus =
    (s.setModX n m.addr { s.modX n m.addr with aseqs := m.le 8 2 :: (s.modX n m.addr).aseqs }).mbus :=
  State.ev_mbus.trans (State.set_mbus.trans mbus_msgToRing)

theorem acks_alarmNew : ((s.alarmNew n m).mb n).acks = (s.mb n).acks := by
  rw [mb_eq_of_mbus mbus_alarmNew, State.setModX, State.mb_setMb]

/-! ## Responses -/

theorem identResponse_stale (hl : (s.modX n m.addr).last = none) (h : s.nonceOk n m.addr false (m.data.take 16) = false) :
    s.identResponse n m = (((s.answered n m.addr false (m.data.take 16)).msgToRing n m 8).set (pMBUS n)
      (MBUS.MOD_STAT_VERIFIED m.addr) 0).err (pMBUS n) 23 := by
  unfold State.identResponse
  extract_lets p a e nonce pub last again fresh s1
  have hf : fresh = false := by
    have hg : again = false := by
      show (match (s.modX n m.addr).last with
        | some l => decide (l.1 = nonce)
        | none => false) = false
      rw [hl]
    show (s.nonceOk n a false nonce || again) = false
    rw [hg, Bool.or_false]
    exact h
  rw [hf]
  rfl

theorem lifeResponse_stale (h : s.nonceOk n m.addr true (m.data.take 16) = false) :
    s.lifeResponse n m = (s.answered n m.addr true (m.data.take 16)).msgToRing n m 8 := by
  unfold State.lifeResponse
  extract_lets p a nonce x fresh s1
  have hf : fresh = false := h
  rw [hf]
  rfl

/-- A report whose size does not fit its module's cells. -/
theorem reportOf_misfit {bad : Bool} {i : Nat} (hr : s.flag (pMBUS n) MBUS.MPE_CFG_RPT_RING = false)
    (hc : s.modCells i ≠ m.le 8 1) : s.reportOf n m bad (some i) = s.incF (pMBUS n) MBUS.MSG_CNT_SHORT := by
  unfold State.reportOf
  extract_lets p nc nt s1
  have hs : s1 = s := if_neg (fun h => Bool.false_ne_true (hr.symm.trans h))
  clear_value s1
  subst hs
  exact if_neg (fun h => hc h.1.symm)

theorem modStat_off {a : Nat} (ha : a < 24) :
    MBUS.MOD_STAT a ≠ PG.ERR ∧ MBUS.MOD_STAT a ≠ PG.ERRCNT ∧ MBUS.MOD_STAT a ≠ PG.EV_STAT ∧
      MBUS.MOD_STAT a ≠ MBUS.MPE_CFG := by
  simp only [MBUS.MOD_STAT, PG.ERR, PG.ERRCNT, PG.EV_STAT, MBUS.MPE_CFG]
  omega

end

theorem mbusMessages : Claims.MbusMessages := by
  unfold Claims.MbusMessages
  intro n s takes
  have run (i : Instr) (cls : Nat) (f g : MbMsg → State → State) (e : exec i s = .next (s.onMsg n cls f))
      (h : ∀ m t, f m t = g m t) : takes i cls g :=
    ⟨fun m hm => e.trans (congrArg Outcome.next ((onMsg_some hm).trans (h _ _))),
      fun hm => e.trans (congrArg Outcome.next (onMsg_none hm))⟩
  refine ⟨?_, ?_, ?_, ?_, ?_, ?_, ?_, ?_⟩
  · exact run (.reportCellsRx n) 5 (fun m t => t.reportCells n m) _ rfl (fun _ _ => rfl)
  · exact run (.alarmRx n) 0 (fun m t => t.alarmRx n m) _ rfl (fun _ _ => rfl)
  · exact run (.wakeReqRx n) 2 (fun m t => t.msgToRing n m 0) _ rfl (fun _ _ => rfl)
  · exact run (.balanceAckRx n) 3 (fun m t => t.msgToRing n m 0) _ rfl (fun _ _ => rfl)
  · exact run (.samplePlanAckRx n) 4 (fun m t => t.toEis n m State.eisAck) _ rfl (fun _ _ => toEis_eq)
  · exact run (.eisResultRx n) 8 (fun m t => t.toEis n m State.eisResult) _ rfl (fun _ _ => toEis_eq)
  · exact run (.identResponseRx n) 6 (fun m t => t.identResponse n m) _ rfl (fun _ _ => rfl)
  · exact run (.lifeResponseRx n) 7 (fun m t => t.lifeResponse n m) _ rfl (fun _ _ => rfl)

theorem mbusMessageEffects : Claims.MbusMessageEffects := by
  unfold Claims.MbusMessageEffects
  intro n s m ha p seen bad y
  obtain ⟨h1, h2, h3, h4⟩ := modStat_off ha
  refine ⟨fun hl hs => ?full, fun hl => ⟨?acked, fun hs => ?noCopy⟩, fun hs => ⟨?alarm, ?event, ?kept⟩,
    ⟨fun hi => ?unmapped, fun i hi hr hc => ?misfit⟩, fun i d hi hd hr h0 hst => ?plan, fun hl hn => ?stale,
    fun hn => lifeResponse_stale hn⟩
  case full => exact (alarmRx_seen hs).trans (if_neg (by omega))
  case acked =>
    by_cases hs : seen = true
    · rw [alarmRx_seen hs, acks_alarmAcked hl]
    · rw [alarmRx_new (Bool.not_eq_true _ ▸ hs), acks_alarmNew, acks_alarmAcked hl]
  case noCopy => rw [alarmRx_seen hs, mem_alarmAcked]
  case alarm =>
    rw [alarmRx_new hs, State.alarmNew, flag_ev h3]
    exact flag_setB_same (f := MBUS.MOD_STAT_ALARM m.addr) (b := true) (by simp) (by simp)
  case event =>
    rw [alarmRx_new hs]
    exact bit_ev (by decide)
  case kept =>
    rw [alarmRx_new hs, modX_eq_of_mbus mbus_alarmNew, modX_setModX]
    simp
  case unmapped =>
    have e : s.reportCells n m = y.reportOf n m bad (y.modIdx n m.addr) := rfl
    rw [e, hi, State.reportOf]
  case misfit =>
    have e : s.reportCells n m = y.reportOf n m bad (y.modIdx n m.addr) := rfl
    have hf : y.flag p MBUS.MPE_CFG_RPT_RING = false := by
      rw [flag_set_off (by exact h4.symm), flag_setB_off (by exact h4.symm)]
      exact hr
    rw [e, hi, reportOf_misfit hf hc]
  case plan =>
    have hx : (s.eisAck i d).eisX (i / 32) = { s.eisX (i / 32) with
        acks := if (s.eisX (i / 32)).acks.contains i then (s.eisX (i / 32)).acks else (s.eisX (i / 32)).acks ++ [i] } := by
      rw [State.eisAck]
      dsimp only
      rw [if_pos ⟨hd, hr, h0, hst⟩, State.eisX_setEisX]
    rw [hx]
    dsimp only
    split
    · assumption
    · simp
  case stale =>
    rw [identResponse_stale hl hn]
    refine ⟨?_, ?_⟩
    · rw [flag_err h1 h2 h3]
      exact flag_setB_same (f := MBUS.MOD_STAT_VERIFIED m.addr) (b := false) (by simp) (by simp)
    · exact bit_err (by decide)

/-- Settles O42: the parts above. -/
theorem moduleMessages : Obligations.ModuleMessages := ⟨mbusMessages, mbusMessageEffects⟩

end Sys2Proof.Machine

/-! PROOFS. Thermal rounds and crossings, pulse counters (spec/15, spec/21: R364 to R373, R382 to R386, R512, R514). -/

namespace Sys2Proof.Machine

open Host (Outcome)

section

variable {s t : State}

/-! ## Housekeeping rounds -/

/-- One stepper supply of a round. -/
def State.vmTake (s : State) (e : Nat × Nat) : State := s.setReg pSTEPC (STEPC.VM e.2) (e.1 % 2 ^ 16)

theorem vm_off {i k : Nat} (h : i ≠ k) : STEPC.VM i ≠ STEPC.VM k := by
  simp only [STEPC.VM]
  omega

theorem reg_foldl_vmTake_before {l : List Nat} {k i : Nat} (h : i < k) :
    ((l.zipIdx k).foldl State.vmTake s).reg pSTEPC (STEPC.VM i) = s.reg pSTEPC (STEPC.VM i) := by
  induction l generalizing s k with
  | nil => rfl
  | cons a l ih =>
    rw [List.zipIdx_cons, List.foldl_cons, ih (by omega), State.vmTake, reg_setReg_off (vm_off (by omega))]

theorem reg_foldl_vmTake {l : List Nat} {k i : Nat} (h : i < l.length) :
    ((l.zipIdx k).foldl State.vmTake s).reg pSTEPC (STEPC.VM (k + i)) = l.getD i 0 % 2 ^ 16 := by
  induction l generalizing s k i with
  | nil => exact absurd h (Nat.not_lt_zero i)
  | cons a l ih =>
    rw [List.zipIdx_cons, List.foldl_cons]
    cases i with
    | zero =>
      refine (reg_foldl_vmTake_before (Nat.lt_succ_self k)).trans ?_
      rw [State.vmTake, reg_setReg_same]
      exact Nat.mod_eq_of_lt (Nat.lt_of_lt_of_le (Nat.mod_lt _ (by decide)) (by decide))
    | succ i =>
      have e := ih (s := s.vmTake (a, k)) (k := k + 1) (i := i) (Nat.lt_of_succ_lt_succ h)
      rw [Nat.add_right_comm] at e
      exact e

theorem sameRegs_foldl_vmTake {l : List Nat} {k : Nat} {L : List (Nat × Nat)}
    (h : ∀ i, i < l.length → (pSTEPC, STEPC.VM (k + i)) ∈ L) (hs : SameRegs s t L) :
    SameRegs s ((l.zipIdx k).foldl State.vmTake t) L := by
  induction l generalizing t k with
  | nil => exact hs
  | cons a l ih =>
    rw [List.zipIdx_cons, List.foldl_cons]
    refine ih (fun i hi => ?_) (hs.setReg (h 0 (Nat.succ_pos _)))
    have e := h (i + 1) (Nat.succ_lt_succ hi)
    rwa [← Nat.add_assoc, Nat.add_right_comm] at e

/-! ## A crossing in REST (R373) -/

theorem execRestThermCheck_one {x : ThSample} {c : Int} (hd : s.dev = dvREST) (he : s.en pTHERM = true)
    (hm : s.get pTHERM (THERM.TS_CFG_MODE 0) ≠ 0) (hc : (s.thConv 0 x).1 = .val c) :
    execRestThermCheck [x] s = .next (if s.getS pTHERM (THERM.LIM_A_TRIP_HI (s.limSet 0)) < c then
      ({ s with crossings := s.crossings ++ [(0, c, s.beam.t)] }).wakeCause wcTHERM else s) := by
  unfold execRestThermCheck
  rw [if_neg (by rw [hd, he]; decide)]
  simp only [List.take_succ_cons, List.take_nil, List.zipIdx_cons, List.zipIdx_nil, List.foldl_cons, List.foldl_nil]
  rw [if_neg hm, hc]

end

theorem thermRounds : Claims.ThermRounds := by
  unfold Claims.ThermRounds
  intro w s round m
  refine ⟨fun l hl hd => ?supplies, fun ts d hd => ?round, fun ts d hd => ?noRound, fun v u hd => ?monitors,
    fun r hd hp => ?slot, fun r hd hp => ?noSlot, fun h => ?off, fun h => ?on, fun r v hw => ?clear,
    fun x t hd he hm hc => ⟨fun h => ?crosses, fun h => ?below⟩, fun l h => ?rests⟩
  case supplies =>
    have e : exec (round [] [] l [] []) s = .next (l.zipIdx.foldl State.vmTake s) := by
      refine congrArg (fun x : State => Outcome.next ((l.take 4).zipIdx.foldl State.vmTake x)) (if_neg hd) |>.trans ?_
      rw [List.take_of_length_le hl]
    refine ⟨_, e, fun i hi => ?_, ?_, ?_⟩
    · have h := reg_foldl_vmTake (s := s) (k := 0) hi
      rwa [Nat.zero_add] at h
    · refine sameRegs_foldl_vmTake (k := 0) (fun i hi => ?_) (sameRegs_of_board rfl)
      rw [Nat.zero_add]
      exact List.mem_map.mpr ⟨i, List.mem_range.mpr hi, rfl⟩
    · exact keeps_foldl (P := SameMem s) (sameMem_refl s) (fun _ _ h => keeps_State_setReg (k0_sameMem s) h)
  case round => exact congrArg Outcome.next (if_pos hd)
  case noRound => exact congrArg Outcome.next (if_neg hd)
  case monitors => exact congrArg (fun x : State => Outcome.next ((x.monSample 0 v).monSample 1 u)) (if_neg hd)
  case slot =>
    refine congrArg (fun x : State => Outcome.next (if 0 < 8 ∧ x.pmbOn 0 = true then x.pmbVout 0 r else x)) (if_neg hd) |>.trans ?_
    rw [if_pos ⟨by decide, hp⟩]
  case noSlot =>
    refine congrArg (fun x : State => Outcome.next (if 0 < 8 ∧ x.pmbOn 0 = true then x.pmbVout 0 r else x)) (if_neg hd) |>.trans ?_
    rw [if_neg (fun h => Bool.false_ne_true (hp.symm.trans h.2))]
  case off => exact congrArg Outcome.next (if_neg (by rw [h]; decide))
  case on => exact congrArg Outcome.next (if_pos h)
  case clear =>
    exact congrArg Outcome.next (finish_action (f := fun s => (s.latchClear (latchOff r) v.toNat, .ok)) hw rfl)
  case crosses => exact (execRestThermCheck_one hd he hm hc).trans (congrArg Outcome.next (if_pos h))
  case below => exact (execRestThermCheck_one hd he hm hc).trans (congrArg Outcome.next (if_neg (not_lt.mpr h)))
  case rests =>
    refine congrArg Outcome.next (if_pos ?_)
    rcases h with h | h
    · simp [h]
    · simp [h]

section

variable {s t : State} {n : Nat} {x y : LineChange} {lb : Bool}

/-! ## Pulse counters (R382) -/

theorem counted_held {k : Nat} (h : k ≤ x.held) : counted k (some x) = some x.level := if_pos h

theorem tooShort_held {k : Nat} (h : k ≤ x.held) : tooShort k (some x) = false := decide_eq_false (Nat.not_lt.mpr h)

/-- A line that changed too early. -/
def State.cntFast (s : State) (n filt : Nat) (c : Option LineChange) : State :=
  if tooShort filt c then (s.cntErr n peOVERRATE).incSat (pPCNT n) PCNT.OVR_CNT else s

/-- What the lines' changes that count do. -/
def State.cntEdges (s : State) (n : Nat) (e : CntEdges) (ca cb : Option Bool) : State :=
  let p := pPCNT n
  let bad (s : State) : State := (s.cntErr n peILLEGAL).incSat p PCNT.ILL_CNT
  if s.flag p PCNT.CFG_MODE then
    let a := ca.isSome
    let b := cb.isSome
    if a && b then bad s else if a then s.countEdge n true else if b then s.countEdge n false else s
  else
    let edge := match s.get p PCNT.CFG_EDGE with
      | 1 => decide (ca = some false)
      | 2 => ca.isSome
      | _ => decide (ca = some true)
    if edge && cb.isSome then bad s
    else if edge then s.countEdge n (e.lineB != s.flag p PCNT.CFG_DIR_INV)
    else s

/-- FILT of a counter. -/
def State.cntFilt (s : State) (n : Nat) : Nat := max 1 (s.get (pPCNT n) PCNT.CFG_FILT)

theorem cntSample_eq {e : CntEdges} : s.cntSample n e =
    ((s.cntFast n (s.cntFilt n) e.a).cntFast n (s.cntFilt n) e.b).cntEdges n e (counted (s.cntFilt n) e.a)
      (counted (s.cntFilt n) e.b) := rfl

theorem cntFast_held {k : Nat} {c : Option LineChange} (h : tooShort k c = false) : s.cntFast n k c = s :=
  if_neg (by rw [h]; decide)

theorem cntSample_held {e : CntEdges} (ha : tooShort (s.cntFilt n) e.a = false) (hb : tooShort (s.cntFilt n) e.b = false) :
    s.cntSample n e = s.cntEdges n e (counted (s.cntFilt n) e.a) (counted (s.cntFilt n) e.b) := by
  rw [cntSample_eq, cntFast_held ha, cntFast_held hb]

theorem cntEdges_lines {e : CntEdges} {ca cb : Option Bool} (h : s.flag (pPCNT n) PCNT.CFG_MODE = true) :
    s.cntEdges n e ca cb =
      if ca.isSome && cb.isSome then (s.cntErr n peILLEGAL).incSat (pPCNT n) PCNT.ILL_CNT
      else if ca.isSome then s.countEdge n true else if cb.isSome then s.countEdge n false else s := if_pos h

/-- In direction mode a change of line a that CFG.EDGE names is an edge. -/
theorem cntEdges_edge {e : CntEdges} {l : Bool} {cb : Option Bool} (h : s.flag (pPCNT n) PCNT.CFG_MODE = false)
    (he : s.get (pPCNT n) PCNT.CFG_EDGE = 2 ∨ l = decide (s.get (pPCNT n) PCNT.CFG_EDGE ≠ 1)) :
    s.cntEdges n e (some l) cb = if cb.isSome then (s.cntErr n peILLEGAL).incSat (pPCNT n) PCNT.ILL_CNT
      else s.countEdge n (e.lineB != s.flag (pPCNT n) PCNT.CFG_DIR_INV) := by
  unfold State.cntEdges
  extract_lets p bad a b edge
  have hedge : edge = true := by
    show (match s.get (pPCNT n) PCNT.CFG_EDGE with
      | 1 => decide (some l = some false)
      | 2 => (some l).isSome
      | _ => decide (some l = some true)) = true
    split
    case h_1 h1 => simpa [h1] using he
    case h_2 => rfl
    case h_3 h1 h2 =>
      rcases he with he | he
      · exact absurd he h2
      · rw [he, decide_eq_true (p := _ ≠ 1) h1]
        rfl
  rw [if_neg (by rw [h]; decide)]
  exact if_congr (by rw [hedge, Bool.true_and]) rfl (if_pos hedge)

/-- In direction mode a change of line b alone is none. -/
theorem cntEdges_dir_none {e : CntEdges} {cb : Option Bool} (h : s.flag (pPCNT n) PCNT.CFG_MODE = false) :
    s.cntEdges n e none cb = s := by
  unfold State.cntEdges
  extract_lets p bad a b edge
  have hedge : edge = false := by
    show (match s.get (pPCNT n) PCNT.CFG_EDGE with
      | 1 => decide ((none : Option Bool) = some false)
      | 2 => (none : Option Bool).isSome
      | _ => decide ((none : Option Bool) = some true)) = false
    split <;> rfl
  rw [if_neg (by rw [h]; decide)]
  exact (if_neg (by rw [hedge, Bool.false_and]; decide)).trans (if_neg (by rw [hedge]; decide))

theorem cntEdges_none {e : CntEdges} : s.cntEdges n e none none = s := by
  cases h : s.flag (pPCNT n) PCNT.CFG_MODE with
  | false => exact cntEdges_dir_none h
  | true => exact cntEdges_lines h

/-! ## A written count (R383) -/

/-- The count limited, its error, and the observer's position moved with it. -/
def State.countMoved (s u : State) (n : Nat) (c : Int) : State :=
  let s := s.setReg (pPCNT n) PCNT.COUNT (enc 32 c)
  (s.setPcnt n { s.pcnt n with pos := enc 64 (((s.pcnt n).pos : Int) + (c - u.count n) * 2 ^ 32) }).showObs n

theorem countWrite_free {v : Word} (h : s.flag (pPCNT n) PCNT.CFG_LIM_EN = false) :
    s.countWrite n v = s.countMoved s n (sxt 32 v.toNat) := by
  have hn : ¬ s.flag (pPCNT n) PCNT.CFG_LIM_EN = true := fun h' => Bool.false_ne_true (h.symm.trans h')
  unfold State.countWrite
  extract_lets p x lo hi lim s0 s1 c s2 r
  have hs : s1 = s := (if_neg (fun h' => hn h'.1)).trans (if_neg (fun h' => hn h'.1))
  have hc : c = sxt 32 v.toNat := if_neg hn
  show State.countMoved s1 s n c = _
  rw [hs, hc]

theorem countWrite_high {v : Word} (h : s.flag (pPCNT n) PCNT.CFG_LIM_EN = true)
    (hl : s.regS (pPCNT n) PCNT.LIM_LO < s.regS (pPCNT n) PCNT.LIM_HI)
    (hv : s.regS (pPCNT n) PCNT.LIM_HI < sxt 32 v.toNat) :
    s.countWrite n v = (s.cntErr n peSATHI).countMoved s n (s.regS (pPCNT n) PCNT.LIM_HI) := by
  have hc : clampI (s.regS (pPCNT n) PCNT.LIM_LO) (s.regS (pPCNT n) PCNT.LIM_HI) (sxt 32 v.toNat) =
      s.regS (pPCNT n) PCNT.LIM_HI := by
    rw [clampI, if_neg (by omega), if_pos hv]
  unfold State.countWrite
  extract_lets p x lo hi lim s0 s1 c s2 r
  have hs : s1 = s.cntErr n peSATHI := (if_neg (fun h' => lt_asymm h'.2 (hl.trans hv))).trans (if_pos ⟨h, hv⟩)
  have hc' : c = s.regS (pPCNT n) PCNT.LIM_HI := (if_pos h).trans hc
  show State.countMoved s1 s n c = _
  rw [hs, hc']

theorem reg_showObs {o : Nat} (h : o ≠ PCNT.OBS_POS) (h' : o ≠ PCNT.OBS_FRAC) :
    (s.showObs n).reg (pPCNT n) o = s.reg (pPCNT n) o := by
  rw [State.showObs, reg_setReg_off h', reg_setReg_off h]

theorem reg_countMoved_count {c : Int} : (s.countMoved t n c).reg (pPCNT n) PCNT.COUNT = enc 32 c % 2 ^ 32 := by
  rw [State.countMoved, reg_showObs (by decide) (by decide), reg_eq_of_board State.setPcnt_board, reg_setReg_same]

theorem pcnt_eq_of_pcnts (h : t.pcnts = s.pcnts) : t.pcnt n = s.pcnt n := by rw [State.pcnt, State.pcnt, h]

theorem pos_countMoved {c : Int} : ((s.countMoved t n c).pcnt n).pos =
    enc 64 (((s.pcnt n).pos : Int) + (c - t.count n) * 2 ^ 32) := by
  rw [State.countMoved, State.showObs, pcnt_eq_of_pcnts (State.setReg_pcnts.trans State.setReg_pcnts), State.pcnt_setPcnt,
    pcnt_eq_of_pcnts State.setReg_pcnts]

theorem bit_countMoved_err {i : Nat} {c : Int} :
    (s.countMoved t n c).bit (pPCNT n) PCNT.ERR i = s.bit (pPCNT n) PCNT.ERR i := by
  rw [State.bit, State.bit, State.countMoved, reg_showObs (by decide) (by decide), reg_eq_of_board State.setPcnt_board,
    reg_setReg_off (by decide)]

theorem bit_cntErr_sathi : (s.cntErr n peSATHI).bit (pPCNT n) PCNT.ERR peSATHI = true := by
  have h : (s.setBit (pPCNT n) PCNT.ERR 3 true).bit (pPCNT n) PCNT.ERR 3 = true := bit_setBit_same (by decide)
  unfold State.cntErr
  extract_lets p e s1 s2
  rw [if_neg (by decide)]
  show (if s.bit (pPCNT n) PCNT.ERR 3 then s1 else s1.ev p (blk e)).bit (pPCNT n) PCNT.ERR 3 = true
  split
  · exact h
  · exact (bit_setB_off (by decide)).trans h

theorem enc_sxt_32 {a : Nat} (h : a < 2 ^ 32) : enc 32 (sxt 32 a) = a := by
  simp only [enc, sxt]
  split <;> omega

theorem sxt_sxt_bounds {a : Nat} : sxt 32 (enc 32 (sxt 32 a)) = sxt 32 a := by
  obtain ⟨h1, h2⟩ := sxt_32_bounds a
  exact sxt_enc (by decide) (by exact_mod_cast h1) (by exact_mod_cast h2)

end

theorem pulseCounters : Claims.PulseCounters := by
  unfold Claims.PulseCounters
  intro w n s p filt illegal edges
  have hf : filt = s.cntFilt n := rfl
  have run {e : CntEdges} (h : s.cntOn n = true) (ha : tooShort filt e.a = false) (hb : tooShort filt e.b = false) :
      exec (.pcntEdge n e) s = .next (s.cntEdges n e (counted filt e.a) (counted filt e.b)) :=
    congrArg Outcome.next ((if_pos h).trans (cntSample_held ha hb))
  refine ⟨fun h e => congrArg Outcome.next (if_neg (by rw [h]; decide)), fun h x y lb hx hy => ⟨fun hm => ?lines,
    fun hm he => ?edge, fun hm => ?dir⟩, fun h x lb hx => ?fast, fun h => congrArg Outcome.next (if_pos h),
    fun h => congrArg Outcome.next (if_neg (by rw [h]; decide)), fun v hw hl => ?write, fun v hw hl hlim hv => ?limited⟩
  case lines =>
    have hx' := tooShort_held hx
    have hy' := tooShort_held hy
    refine ⟨(run h hx' hy').trans ?_, (run h hx' rfl).trans ?_, (run h rfl hy').trans ?_⟩
    · rw [cntEdges_lines hm]
      dsimp only
      rw [counted_held hx, counted_held hy]
      rfl
    · rw [cntEdges_lines hm]
      dsimp only
      rw [counted_held hx]
      rfl
    · rw [cntEdges_lines hm]
      dsimp only
      rw [counted_held hy]
      rfl
  case edge =>
    have hx' := tooShort_held hx
    have hy' := tooShort_held hy
    refine ⟨(run h hx' hy').trans ?_, (run h hx' rfl).trans ?_⟩
    · dsimp only
      rw [counted_held hx, counted_held hy, cntEdges_edge hm he]
      rfl
    · dsimp only
      rw [counted_held hx, cntEdges_edge hm he]
      rfl
  case dir => exact (run h rfl (tooShort_held hy)).trans (congrArg Outcome.next (cntEdges_dir_none hm))
  case fast =>
    have hc : counted filt (some x) = none := if_neg (Nat.not_le.mpr hx)
    have hs : s.cntFast n filt (some x) = (s.cntErr n peOVERRATE).incSat p PCNT.OVR_CNT :=
      if_pos (decide_eq_true hx)
    refine congrArg Outcome.next ((if_pos h).trans ?_)
    rw [cntSample_eq, ← hf]
    dsimp only
    rw [hc, hs, cntFast_held rfl]
    exact cntEdges_none
  case write =>
    have e : exec (.countWrite w n v) s = .next ((s.countMoved s n (sxt 32 v.toNat)).answer w .ok) :=
      congrArg Outcome.next (finish_action (f := fun s => (s.countWrite n v, .ok)) hw (congrArg (·, Code.ok) (countWrite_free hl)))
    refine ⟨_, e, ?_, pos_countMoved, ?_, sameMem_of_exec rfl rfl e⟩
    · refine BitVec.eq_of_toNat_eq ?_
      refine (reg_countMoved_count (n := n)).trans ?_
      rw [Nat.mod_eq_of_lt enc_lt, enc_sxt_32 v.isLt]
    · refine SameRegs.answer ?_
      exact SameRegs.setReg (SameRegs.setReg (SameRegs.of_board (SameRegs.setReg (sameRegs_of_board rfl) (by simp [p]))
        State.setPcnt_board) (by simp [p])) (by simp [p])
  case limited =>
    have e : exec (.countWrite w n v) s =
        .next (((s.cntErr n peSATHI).countMoved s n (s.regS p PCNT.LIM_HI)).answer w .ok) :=
      congrArg Outcome.next (finish_action (f := fun s => (s.countWrite n v, .ok)) hw
        (congrArg (·, Code.ok) (countWrite_high hl hlim hv)))
    refine ⟨_, e, ?_, ?_, sameMem_of_exec rfl rfl e⟩
    · rw [State.count, State.regS, reg_answer, reg_countMoved_count, Nat.mod_eq_of_lt enc_lt]
      exact sxt_sxt_bounds
    · exact bit_countMoved_err.trans bit_cntErr_sathi

/-- Settles O43: the parts above. -/
theorem thermAndCounters : Obligations.ThermAndCounters := ⟨thermRounds, pulseCounters⟩

end Sys2Proof.Machine

/-! PROOFS. Valve steppers (spec/15: R374 to R381). -/

namespace Sys2Proof.Machine

open Host (Outcome)

section

variable {s t : State} {n st : Nat} {f : Fld} {o : StepOut} {x : StepX} {v : Word}

/-! ## A channel's record and its display -/

theorem stepper_eq_of_steppers (h : t.steppers = s.steppers) : t.stepper n = s.stepper n := by
  rw [State.stepper, State.stepper, h]

theorem board_setStepOut : (s.setStepOut n o).board = s.board := by
  unfold State.setStepOut
  split <;> rfl

theorem stepper_setStepOut : (s.setStepOut n o).stepper n = { s.stepper n with outs := o } := by
  unfold State.setStepOut
  split
  case isTrue h => rw [← h]
  case isFalse =>
    rw [stepper_eq_of_steppers State.send_steppers, State.stepper_setStepper]

/-- The registers that show a channel. -/
def State.stepShown (s : State) (n : Nat) : State :=
  let p := pSTEP n
  let x := s.stepper n
  let pos := x.x / (stepUnit : Int)
  let s := (s.setReg p STEP.POS (enc 32 pos)).setReg p STEP.VEL (enc 32 (x.v / 1000000))
  let s := s.set p STEP.LOAD_I_SET x.iSet
  s.setB p STEP.STATUS_EST_VALID
    (decide (s.stepMoving n = true ∧ s.reg p STEP.EST_CFG % 2 ^ 24 * 1000000 ≤ x.v.natAbs))

theorem showStep_eq : ∃ phi a b, s.showStep n =
    (s.stepShown n).setStepper n { (s.stepShown n).stepper n with phi := phi, iA := a, iB := b } := ⟨_, _, _, rfl⟩

theorem steppers_stepShown : (s.stepShown n).steppers = s.steppers :=
  State.setB_steppers.trans (State.set_steppers.trans (State.setReg_steppers.trans State.setReg_steppers))

theorem board_showStep : (s.showStep n).board = (s.stepShown n).board := by
  obtain ⟨phi, a, b, e⟩ := showStep_eq (s := s) (n := n)
  rw [e]
  rfl

/-- Showing a channel leaves its record but the angle and the set-points. -/
theorem stepper_showStep : ∃ phi a b, (s.showStep n).stepper n = { s.stepper n with phi := phi, iA := a, iB := b } := by
  obtain ⟨phi, a, b, e⟩ := showStep_eq (s := s) (n := n)
  refine ⟨phi, a, b, ?_⟩
  rw [e, State.stepper_setStepper, stepper_eq_of_steppers steppers_stepShown]

/-- Of STATUS only EST_VALID is shown. -/
theorem get_stepShown_status (h : f.off = STEP.STATUS) (hf : f.lo ≤ f.hi) (hd : f.hi < 6 ∨ 6 < f.lo) :
    (s.stepShown n).get (pSTEP n) f = s.get (pSTEP n) f := by
  rw [State.stepShown, get_setB_bits h (by decide) (by decide) hf hd, get_set_off (by rw [h]; decide),
    get_setReg_off (by rw [h]; decide), get_setReg_off (by rw [h]; decide)]

theorem get_showStep_status (h : f.off = STEP.STATUS) (hf : f.lo ≤ f.hi) (hd : f.hi < 6 ∨ 6 < f.lo) :
    (s.showStep n).get (pSTEP n) f = s.get (pSTEP n) f :=
  (get_eq_of_board board_showStep).trans (get_stepShown_status h hf hd)

theorem flag_showStep_status (h : f.off = STEP.STATUS) (hf : f.lo ≤ f.hi) (hd : f.hi < 6 ∨ 6 < f.lo) :
    (s.showStep n).flag (pSTEP n) f = s.flag (pSTEP n) f := congrArg (· != 0) (get_showStep_status h hf hd)

theorem stepSt_showStep : (s.showStep n).stepSt n = s.stepSt n := get_showStep_status rfl (by decide) (.inl (by decide))

theorem stepSt_setStepSt (h : st < 8) : (s.setStepSt n st).stepSt n = st :=
  (get_set_same (by decide) (by decide)).trans (Nat.mod_eq_of_lt h)

theorem stepSt_eq_of_board (h : t.board = s.board) : t.stepSt n = s.stepSt n := get_eq_of_board h

theorem flag_setStepSt (h : f.off = STEP.STATUS) (hf : f.lo ≤ f.hi) (hd : 2 < f.lo) :
    (s.setStepSt n st).flag (pSTEP n) f = s.flag (pSTEP n) f :=
  flag_set_bits h (by decide) (by decide) hf (.inr hd)

/-! ## Coming to rest, and starting -/

/-- The record of a channel that comes to rest. -/
def State.stepRested (s : State) (n : Nat) : State :=
  s.setStepper n { s.stepper n with v := 0, iSet := s.get (pSTEP n) STEP.I_CFG_I_HOLD, restAt := s.beam.t }

theorem stepHold_eq : s.stepHold n = (((s.stepRested n).setStepSt n skHOLDING).setStepOut n .driven).showStep n := rfl

theorem stepper_stepHold : ∃ phi a b i, (s.stepHold n).stepper n =
    { s.stepper n with v := 0, iSet := i, restAt := s.beam.t, outs := .driven, phi := phi, iA := a, iB := b } := by
  obtain ⟨phi, a, b, e⟩ := stepper_showStep (s := ((s.stepRested n).setStepSt n skHOLDING).setStepOut n .driven) (n := n)
  refine ⟨phi, a, b, s.get (pSTEP n) STEP.I_CFG_I_HOLD, ?_⟩
  rw [stepHold_eq, e, stepper_setStepOut, State.setStepSt, stepper_eq_of_steppers State.set_steppers, State.stepRested,
    State.stepper_setStepper]

theorem stepSt_stepHold : (s.stepHold n).stepSt n = skHOLDING := by
  rw [stepHold_eq, stepSt_showStep, stepSt_eq_of_board board_setStepOut, stepSt_setStepSt (by decide)]

theorem posOk_stepHold : (s.stepHold n).flag (pSTEP n) STEP.STATUS_POS_OK = s.flag (pSTEP n) STEP.STATUS_POS_OK := by
  rw [stepHold_eq, flag_showStep_status rfl (by decide) (.inl (by decide)), flag_eq_of_board board_setStepOut,
    flag_setStepSt rfl (by decide) (by decide)]
  rfl

/-- A channel that moves has its outputs driven. -/
theorem outs_stepGo : ((s.stepGo n st).stepper n).outs = .driven := by
  rw [State.stepGo, stepper_setStepOut]

theorem stepSt_stepGo (h : st < 8) : (s.stepGo n st).stepSt n = st := by
  rw [State.stepGo, stepSt_eq_of_board board_setStepOut, stepSt_setStepSt h]

theorem flag_stepGo_cleared (h : f ∈ [STEP.STATUS_STALL, STEP.STATUS_COIL_OPEN, STEP.STATUS_OVERCURRENT,
    STEP.STATUS_HOME_FAIL]) : (s.stepGo n st).flag (pSTEP n) f = false := by
  have bits (g : Fld) {x : State} (ho : f.off = g.off) (hg : g.lo ≤ g.hi) (h32 : g.hi < 32) (hf : f.lo ≤ f.hi)
      (hd : f.hi < g.lo ∨ g.hi < f.lo) : (x.set (pSTEP n) g 0).flag (pSTEP n) f = x.flag (pSTEP n) f :=
    flag_set_bits ho hg h32 hf hd
  have own {x : State} (hf : f.lo ≤ f.hi) (h32 : f.hi < 32) : (x.set (pSTEP n) f 0).flag (pSTEP n) f = false := by
    rw [flag_set_same hf h32, Nat.zero_mod]
    rfl
  simp only [List.mem_cons, List.not_mem_nil, or_false] at h
  rw [State.stepGo, flag_eq_of_board board_setStepOut]
  rcases h with rfl | rfl | rfl | rfl
  · rw [flag_setStepSt rfl (by decide) (by decide), State.stepFresh,
      bits STEP.STATUS_HOME_FAIL rfl (by decide) (by decide) (by decide) (by decide),
      bits STEP.STATUS_OVERCURRENT rfl (by decide) (by decide) (by decide) (by decide),
      bits STEP.STATUS_COIL_OPEN rfl (by decide) (by decide) (by decide) (by decide),
      own (by decide) (by decide)]
  · rw [flag_setStepSt rfl (by decide) (by decide), State.stepFresh,
      bits STEP.STATUS_HOME_FAIL rfl (by decide) (by decide) (by decide) (by decide),
      bits STEP.STATUS_OVERCURRENT rfl (by decide) (by decide) (by decide) (by decide),
      own (by decide) (by decide)]
  · rw [flag_setStepSt rfl (by decide) (by decide), State.stepFresh,
      bits STEP.STATUS_HOME_FAIL rfl (by decide) (by decide) (by decide) (by decide),
      own (by decide) (by decide)]
  · rw [flag_setStepSt rfl (by decide) (by decide), State.stepFresh, own (by decide) (by decide)]

theorem reg_stepGo {r : Nat} (h : r ≠ STEP.STATUS) : (s.stepGo n st).reg (pSTEP n) r = s.reg (pSTEP n) r := by
  rw [State.stepGo, reg_eq_of_board board_setStepOut, State.setStepSt, reg_set_off h, State.stepFresh, reg_set_off h,
    reg_set_off h, reg_set_off h, reg_set_off h]
  split <;> rfl

end

theorem stepperSpeed : Claims.StepperSpeed := by
  unfold Claims.StepperSpeed
  intro acc dec vmax v d
  dsimp only [nextSpeed]
  generalize (if d < v then 0 else (rootBits (dec * dec + 4 * dec * (d - v)) 64 0 - dec) / 2) = best
  omega

end Sys2Proof.Machine

/-! PROOFS. The stepper's commands, and what happens to a channel by itself (spec/15: R374 to R381). -/

namespace Sys2Proof.Machine

open Host (Outcome)

section

variable {s t : State} {w : Writer} {n : Nat} {m : Fin 32} {v : Word} {c : Code} {b : Nat}

/-! ## A written target (R375) -/

theorem pageType_step (m : Fin 32) : pageType (pSTEP m) = some .step := by
  revert m
  decide

/-- TARGET stored, and whether it was clipped. -/
def State.targetTaken (s : State) (n : Nat) (v : Word) : State :=
  let p := pSTEP n
  let c := clampI (s.regS p STEP.VLIM_LO) (s.regS p STEP.VLIM_HI) (sxt 32 v.toNat)
  let s := s.setReg p STEP.TARGET (enc 32 c)
  if c = sxt 32 v.toNat then s.set p STEP.STATUS_CLIPPED 0
  else ((s.set p STEP.STATUS_CLIPPED 1).incSat p STEP.CLIP_CNT).ev p (blk 1)

theorem stepTarget_ok (hp : s.flag (pSTEP n) STEP.STATUS_POS_OK = true)
    (hb : ¬ (s.stepSt n = skSTOPPING ∨ s.stepSt n = skHOMING)) : s.stepTarget n v =
      (if (s.targetTaken n v).en (pSTEP n) then (s.targetTaken n v).stepGo n skACCEL else s.targetTaken n v, .ok) :=
  (if_neg (by rw [hp]; decide)).trans (if_neg hb)

/-- A target within the limits. -/
theorem targetTaken_within (hl : s.regS (pSTEP n) STEP.VLIM_LO ≤ sxt 32 v.toNat)
    (hh : sxt 32 v.toNat ≤ s.regS (pSTEP n) STEP.VLIM_HI) : s.targetTaken n v =
      (s.setReg (pSTEP n) STEP.TARGET (enc 32 (sxt 32 v.toNat))).set (pSTEP n) STEP.STATUS_CLIPPED 0 := by
  have hc : clampI (s.regS (pSTEP n) STEP.VLIM_LO) (s.regS (pSTEP n) STEP.VLIM_HI) (sxt 32 v.toNat) = sxt 32 v.toNat := by
    rw [clampI, if_neg (not_lt.mpr hl), if_neg (not_lt.mpr hh)]
  rw [State.targetTaken, hc, if_pos rfl]

/-- A target outside the limits. -/
theorem targetTaken_clipped {x : Int} (hx : clampI (s.regS (pSTEP n) STEP.VLIM_LO) (s.regS (pSTEP n) STEP.VLIM_HI)
    (sxt 32 v.toNat) = x) (hn : x ≠ sxt 32 v.toNat) : s.targetTaken n v =
      ((((s.setReg (pSTEP n) STEP.TARGET (enc 32 x)).set (pSTEP n) STEP.STATUS_CLIPPED 1).incSat (pSTEP n)
        STEP.CLIP_CNT).ev (pSTEP n) (blk 1)) := by
  rw [State.targetTaken, hx, if_neg hn]

theorem en_targetTaken : (s.targetTaken n v).en (pSTEP n) = s.en (pSTEP n) := by
  rw [State.en, State.flag, State.targetTaken]
  split
  · rw [get_set_off (by decide), get_setReg_off (by decide)]
    rfl
  · rw [get_ev (by decide), State.incSat, get_setReg_off (by decide), get_set_off (by decide), get_setReg_off (by decide)]
    rfl

theorem toNat_word (v : Word) : enc 32 (sxt 32 v.toNat) % 2 ^ 32 = v.toNat := by
  rw [enc_sxt_32 v.isLt]
  exact Nat.mod_eq_of_lt v.isLt

/-! ## Bits of CMD (R376) -/

/-- What one bit of CMD does to a channel. -/
def State.stepBit (s : State) (n : Nat) : Nat → State × Code
  | 0 => (s.stepStop n, .ok)
  | 1 => (s.stepHalt n, .ok)
  | _ => s.stepHome n

theorem stepCmd_two_pow (h : b < 3) : s.stepCmd n (2 ^ b) = s.stepBit n b := by
  rw [State.stepCmd]
  simp only [Nat.testBit_two_pow]
  interval_cases b <;> simp [State.stepBit]

theorem stepCmdBy_ok (h : s.mayAct w (pSTEP n)) (hb : b < 3) (e : s.stepBit n b = (t, .ok)) :
    s.stepCmdBy w n b = t.answer w .ok :=
  finish_action (f := fun s => s.stepCmd n (2 ^ b)) h ((stepCmd_two_pow hb).trans e)

/-! ## HALT -/

/-- A channel that HALT stops, before it comes to rest: above the estimator's speed its position is lost. -/
def State.haltLost (s : State) (n : Nat) : State :=
  if s.reg (pSTEP n) STEP.EST_CFG % 2 ^ 24 * 1000000 < (s.stepper n).v.natAbs then
    s.set (pSTEP n) STEP.STATUS_POS_OK 0
  else s

/-- The rest that keeps the set-point. -/
def State.haltKept (s : State) (n i : Nat) : State := s.setStepper n { s.stepper n with iSet := i }

theorem stepHalt_moving (h : s.stepMoving n = true) : s.stepHalt n =
    (((((s.haltLost n).stepHold n).haltKept n (s.stepper n).iSet).showStep n).ev (pSTEP n) (blk 0)) := by
  unfold State.stepHalt
  extract_lets p x s1 i s2
  exact if_neg (by rw [h]; decide)

theorem stepper_haltLost : (s.haltLost n).stepper n = s.stepper n := by
  unfold State.haltLost
  split
  · exact stepper_eq_of_steppers State.set_steppers
  · rfl

theorem posOk_haltLost : (s.haltLost n).flag (pSTEP n) STEP.STATUS_POS_OK = (s.flag (pSTEP n) STEP.STATUS_POS_OK &&
    decide ((s.stepper n).v.natAbs ≤ s.reg (pSTEP n) STEP.EST_CFG % 2 ^ 24 * 1000000)) := by
  unfold State.haltLost
  split
  case isTrue h =>
    rw [decide_eq_false (Nat.not_le.mpr h), Bool.and_false]
    exact flag_setB_same (f := STEP.STATUS_POS_OK) (b := false) (by decide) (by decide)
  case isFalse h => rw [decide_eq_true (Nat.not_lt.mp h), Bool.and_true]

/-- A channel after HALT. -/
theorem stepHalt_spec (h : s.stepMoving n = true) :
    (s.stepHalt n).stepSt n = skHOLDING ∧ ((s.stepHalt n).stepper n).v = 0 ∧
      ((s.stepHalt n).stepper n).x = (s.stepper n).x ∧ ((s.stepHalt n).stepper n).iSet = (s.stepper n).iSet ∧
      (s.stepHalt n).bit (pSTEP n) PG.EV_STAT 16 = true ∧
      (s.stepHalt n).flag (pSTEP n) STEP.STATUS_POS_OK = (s.flag (pSTEP n) STEP.STATUS_POS_OK &&
        decide ((s.stepper n).v.natAbs ≤ s.reg (pSTEP n) STEP.EST_CFG % 2 ^ 24 * 1000000)) := by
  obtain ⟨u, hu⟩ : ∃ u, u = (s.haltLost n).stepHold n := ⟨_, rfl⟩
  have hst : u.stepSt n = skHOLDING := hu ▸ stepSt_stepHold
  have hp := (congrArg (State.flag · (pSTEP n) STEP.STATUS_POS_OK) hu).trans (posOk_stepHold.trans posOk_haltLost)
  obtain ⟨phi, a, b, i, hx⟩ := stepper_stepHold (s := s.haltLost n) (n := n)
  rw [← hu, stepper_haltLost] at hx
  rw [stepHalt_moving h, ← hu]
  obtain ⟨phi', a', b', hy⟩ := stepper_showStep (s := u.haltKept n (s.stepper n).iSet) (n := n)
  have hk : (u.haltKept n (s.stepper n).iSet).stepper n = { u.stepper n with iSet := (s.stepper n).iSet } :=
    State.stepper_setStepper
  have hz := (stepper_eq_of_steppers (State.ev_steppers (s := (u.haltKept n (s.stepper n).iSet).showStep n)
    (p := pSTEP n) (i := blk 0)) (n := n)).trans hy
  refine ⟨?_, ?_, ?_, ?_, bit_ev (by decide), ?_⟩
  · rw [State.stepSt, get_ev (by decide)]
    exact stepSt_showStep.trans hst
  · rw [hz, hk, hx]
  · rw [hz, hk, hx]
  · rw [hz, hk]
  · rw [flag_ev (by decide), flag_showStep_status rfl (by decide) (.inl (by decide))]
    exact hp

/-! ## A written position -/

/-- A written position, before it is shown. -/
def State.posTaken (s : State) (n : Nat) (v : Word) : State :=
  (s.setStepper n { s.stepper n with x := sxt 32 v.toNat * (stepUnit : Int) }).set (pSTEP n) STEP.STATUS_POS_OK 1

theorem posTaken_spec : (((s.posTaken n v).showStep n).stepper n).x = sxt 32 v.toNat * 2000000000000 ∧
    ((s.posTaken n v).showStep n).reg (pSTEP n) STEP.POS = enc 32 (sxt 32 v.toNat) % 2 ^ 32 ∧
    ((s.posTaken n v).showStep n).flag (pSTEP n) STEP.STATUS_POS_OK = true := by
  have hx : (s.posTaken n v).stepper n = { s.stepper n with x := sxt 32 v.toNat * (stepUnit : Int) } :=
    (stepper_eq_of_steppers State.set_steppers).trans State.stepper_setStepper
  obtain ⟨phi, a, b, h⟩ := stepper_showStep (s := s.posTaken n v) (n := n)
  refine ⟨?_, ?_, ?_⟩
  · rw [h, hx]
    rfl
  · rw [reg_eq_of_board board_showStep, State.stepShown, reg_setB_off (by decide), reg_set_off (by decide),
      reg_setReg_off (by decide), reg_setReg_same, hx]
    dsimp only
    rw [Int.mul_ediv_cancel _ (by decide)]
  · rw [flag_showStep_status rfl (by decide) (.inl (by decide))]
    exact flag_setB_same (f := STEP.STATUS_POS_OK) (b := true) (by decide) (by decide)

end

theorem stepperCommands : Claims.StepperCommands := by
  unfold Claims.StepperCommands
  intro w n v s p x refused lo hi want busy hw
  have run {t : State} (e : s.stepTarget n v = (t, .ok)) : exec (.stepTarget w n v) s = .next (t.answer w .ok) :=
    congrArg Outcome.next (finish_action (f := fun s => s.stepTarget n v) hw e)
  have deny {b : Nat} (e : s.stepTarget n v = (s.err p b, .writeRefused)) : exec (.stepTarget w n v) s = .next (refused b) :=
    congrArg Outcome.next (finish_action_code (f := fun s => s.stepTarget n v) hw (ownerPage_of_type (pageType_step n)) e)
  have act {b : Nat} {t : State} (hb : b < 3) (e : s.stepBit n b = (t, .ok)) : s.stepCmdBy w n b = t.answer w .ok :=
    stepCmdBy_ok hw hb e
  have word {t : State} {o : Nat} (h : t.reg p o = enc 32 (sxt 32 v.toNat) % 2 ^ 32) : t.word p o = v :=
    BitVec.eq_of_toNat_eq (h.trans (toNat_word v))
  refine ⟨fun hp => deny ?lost, fun hp hb => deny ?busy, fun hp hb h1 h2 => ?within, fun hp hb he h hlh => ?clipped,
    fun hm => congrArg Outcome.next (act (b := 0) (by decide) ?stop), fun hm => ⟨congrArg Outcome.next (act (b := 0) (by decide) ?noStop),
      congrArg Outcome.next (act (b := 1) (by decide) ?noHalt)⟩, fun hm => ?halt, fun hv => ⟨fun he => ?home, fun he => ?noHome⟩,
    fun hv => ?slow, fun hv => ?pos, fun hv => ?noPos⟩
  case lost => exact if_pos (by rw [hp]; rfl)
  case busy => exact (if_neg (by rw [hp]; decide)).trans (if_pos hb)
  case stop => exact congrArg (·, Code.ok) (if_pos hm)
  case noStop => exact congrArg (·, Code.ok) (if_neg (by rw [hm]; decide))
  case noHalt => exact congrArg (·, Code.ok) (if_pos (by rw [hm]; rfl))
  case within =>
    have ht := targetTaken_within h1 h2
    have hen := (en_targetTaken (s := s) (n := n) (v := v))
    have hr : (s.targetTaken n v).reg p STEP.TARGET = enc 32 (sxt 32 v.toNat) % 2 ^ 32 := by
      rw [ht, reg_set_off (by decide), reg_setReg_same]
    refine ⟨fun he => ?_, fun he => ?_⟩
    · have e := run ((stepTarget_ok hp hb).trans (congrArg (·, Code.ok) (if_neg (by rw [hen, he]; decide))))
      refine ⟨_, e, word hr, ?_, ?_, ?_, sameMem_of_exec rfl rfl e⟩
      · rw [flag_answer, ht]
        exact flag_setB_same (f := STEP.STATUS_CLIPPED) (b := false) (by decide) (by decide)
      · rw [State.stepSt, get_answer, ht, get_set_bits (by rfl) (by decide) (by decide) (by decide) (by decide),
          get_setReg_off (by decide)]
        rfl
      · rw [ht]
        exact SameRegs.answer (SameRegs.set (SameRegs.setReg (sameRegs_of_board rfl) (by simp [p])) (by simp [p]))
    · have e := run ((stepTarget_ok hp hb).trans (congrArg (·, Code.ok) (if_pos (hen.trans he))))
      have hw := (reg_stepGo (s := s.targetTaken n v) (n := n) (st := skACCEL) (r := STEP.TARGET) (by decide)).trans hr
      have hst := stepSt_stepGo (s := s.targetTaken n v) (n := n) (st := skACCEL) (by decide)
      have hf {f : Fld} := flag_stepGo_cleared (s := s.targetTaken n v) (n := n) (st := skACCEL) (f := f)
      have ho := outs_stepGo (s := s.targetTaken n v) (n := n) (st := skACCEL)
      generalize (s.targetTaken n v).stepGo n skACCEL = u at e hw hst hf ho
      exact ⟨_, e, word hw, hst, hf (by simp), hf (by simp), hf (by simp), hf (by simp), ho, sameMem_of_exec rfl rfl e⟩
  case clipped =>
    have hc : clampI lo hi want = if want < lo then lo else hi := by
      rw [clampI]
      split
      · rfl
      · rw [if_pos (by omega)]
    have hn : (if want < lo then lo else hi) ≠ want := by
      split <;> omega
    have ht := targetTaken_clipped hc hn
    have e := run ((stepTarget_ok hp hb).trans
      (congrArg (·, Code.ok) (if_neg (by rw [en_targetTaken, show s.en (pSTEP n) = false from he]; decide))))
    have hb1 : -(2 ^ 31) ≤ (if want < lo then lo else hi) ∧ (if want < lo then lo else hi) < 2 ^ 31 := by
      split
      · exact sxt_32_bounds _
      · exact sxt_32_bounds _
    refine ⟨_, e, ?_, ?_, ?_, ?_, sameMem_of_exec rfl rfl e⟩
    · rw [State.regS, reg_answer, ht, reg_ev (by decide), State.incSat, reg_setReg_off (by decide), reg_set_off (by decide),
        reg_setReg_same, Nat.mod_eq_of_lt enc_lt]
      exact sxt_enc (by decide) (by exact_mod_cast hb1.1) (by exact_mod_cast hb1.2)
    · rw [flag_answer, ht, flag_ev (by decide), State.incSat, flag_setReg_off (by decide)]
      exact flag_setB_same (f := STEP.STATUS_CLIPPED) (b := true) (by decide) (by decide)
    · rw [bit_answer, ht]
      exact bit_ev (by decide)
    · rw [reg_answer, ht, reg_ev (by decide), State.incSat, reg_setReg_same, reg_set_off (by decide),
        reg_setReg_off (by decide)]
      exact Nat.mod_eq_of_lt (by omega)
  case halt =>
    have e : exec (.stepHalt w n) s = .next ((s.stepHalt n).answer w .ok) :=
      congrArg Outcome.next (act (b := 1) (by decide) rfl)
    obtain ⟨h1, h2, h3, h4, h5, h6⟩ := stepHalt_spec hm
    generalize s.stepHalt n = u at e h1 h2 h3 h4 h5 h6
    exact ⟨_, e, h1, h2, h3, h4, h5, h6, sameMem_of_exec rfl rfl e⟩
  case home =>
    have e : exec (.stepHome w n) s =
        .next (((s.stepGo n skHOMING).setStepper n { (s.stepGo n skHOMING).stepper n with travel := 0 }).answer w .ok) :=
      congrArg Outcome.next (act (b := 2) (by decide) ((if_neg (Nat.not_lt.mpr hv)).trans (if_neg (by rw [he]; decide))))
    have h1 := stepSt_stepGo (s := s) (n := n) (st := skHOMING) (by decide)
    have h2 := outs_stepGo (s := s) (n := n) (st := skHOMING)
    generalize s.stepGo n skHOMING = u at e h1 h2
    have hx : ((u.setStepper n { u.stepper n with travel := 0 }).answer w .ok).stepper n =
        { u.stepper n with travel := 0 } := State.stepper_setStepper
    exact ⟨_, e, h1, congrArg StepX.travel hx, (congrArg StepX.outs hx).trans h2, sameMem_of_exec rfl rfl e⟩
  case noHome => exact congrArg Outcome.next (act (b := 2) (by decide) ((if_neg (Nat.not_lt.mpr hv)).trans (if_pos (by rw [he]; rfl))))
  case slow =>
    refine congrArg Outcome.next (finish_action_code (f := fun s => s.stepCmd n (2 ^ 2)) hw
      (ownerPage_of_type (pageType_step n)) ?_)
    exact (stepCmd_two_pow (by decide)).trans (if_pos hv)
  case pos =>
    have e : exec (.stepPosWrite w n v) s = .next (((s.posTaken n v).showStep n).answer w .ok) :=
      congrArg Outcome.next (finish_action (f := fun s => s.stepPosWrite n v) hw (if_neg (fun h => h hv)))
    obtain ⟨h1, h2, h3⟩ := posTaken_spec (s := s) (n := n) (v := v)
    generalize (s.posTaken n v).showStep n = u at e h1 h2 h3
    exact ⟨_, e, h1, word h2, h3, sameMem_of_exec rfl rfl e⟩
  case noPos =>
    exact congrArg Outcome.next (finish_action_code (f := fun s => s.stepPosWrite n v) hw
      (ownerPage_of_type (pageType_step n)) (if_pos hv))

theorem stepperEvents : Claims.StepperEvents := by
  unfold Claims.StepperEvents
  intro n s p x slow
  have moving (h : skACCEL ≤ s.stepSt n ∧ s.stepSt n ≤ skHOMING) : s.stepMoving n = true := decide_eq_true h
  have still (h : s.stepMoving n = false) : ¬ (skACCEL ≤ s.stepSt n ∧ s.stepSt n ≤ skHOMING) := of_decide_eq_false h
  have rest {P : Prop} [Decidable P] {a b : State} (h : P) : (Outcome.next (if P then a else b) : Outcome State Fault Refusal) =
      .next a := congrArg Outcome.next (if_pos h)
  have pass {P : Prop} [Decidable P] {a b : State} (h : ¬ P) : (Outcome.next (if P then a else b) : Outcome State Fault Refusal) =
      .next b := congrArg Outcome.next (if_neg h)
  refine ⟨fun h => rest h, fun h => ?home, fun h => ?move, fun h => ?still, fun c h => ?blind, fun c hm hs => ?angle,
    fun h ht => rest ⟨h, ht⟩, fun h => pass ?_, fun coilB cur us => ?open_, fun cur us => ?current, fun h hv => ?off,
    fun h => pass ?_⟩
  case home => exact (pass (by rw [h]; decide)).trans (rest h)
  case move =>
    have h' : s.stepSt n ≠ skSTOPPING ∧ s.stepSt n ≠ skHOMING ∧ skACCEL ≤ s.stepSt n ∧ s.stepSt n ≤ skHOMING := by
      rcases h with h | h | h <;> rw [h] <;> decide
    exact (pass h'.1).trans ((pass h'.2.1).trans (rest (moving h'.2.2)))
  case still =>
    have h' := still h
    refine (pass fun e => h' ?_).trans ((pass fun e => h' ?_).trans (pass (by rw [h]; decide)))
    · rw [e]
      decide
    · rw [e]
      decide
  case blind => 
    have h' : s.stepMoving n = false ∨ x.v.natAbs < s.reg p STEP.EST_CFG % 2 ^ 24 * 1000000 := h
    refine rest ?_
    rw [Bool.or_eq_true, Bool.not_eq_true', decide_eq_true_eq]
    exact h'
  case angle =>
    intro d hi i y
    have hs' : ¬ x.v.natAbs < s.reg p STEP.EST_CFG % 2 ^ 24 * 1000000 := hs
    refine ⟨pass ?_, ?_, ?_, ?_⟩
    · rw [Bool.or_eq_true, Bool.not_eq_true', decide_eq_true_eq, hm]
      exact fun h => h.elim (fun h => absurd h (by decide)) hs'
    · obtain ⟨phi, a, b, e⟩ := stepper_showStep (s := s.setStepper n { x with iSet := i }) (n := n)
      rw [stepper_eq_of_steppers State.set_steppers, e, State.stepper_setStepper]
    · exact SameRegs.set ((SameRegs.setB (SameRegs.set (SameRegs.setReg (SameRegs.setReg (sameRegs_of_board rfl)
        (by simp [p])) (by simp [p])) (by simp [p])) (by simp [p])).of_board board_showStep) (by simp [p])
    · exact keeps_State_set (k0_sameMem s) (keeps_State_showStep (k0_sameMem s)
        (keeps_State_setStepper (k0_sameMem s) (sameMem_refl s)))
  · rintro ⟨h1, h2⟩
    exact h.elim (· h1) (Nat.not_lt.mpr h2)
  case open_ =>
    intro want off
    exact ⟨fun h => pass h, fun h => rest h⟩
  case current =>
    intro off
    exact ⟨fun h => pass h, fun h => rest h⟩
  case off =>
    have e : exec (.stepperShutDone n) s = .next (s.stepOff n) := rest ⟨h, hv⟩
    obtain ⟨phi, a, b, hx⟩ := stepper_showStep (s := (s.setStepSt n skOFF).setStepOut n .released) (n := n)
    refine ⟨_, e, ?_, ?_, ?_, bit_ev (by decide), sameMem_of_exec rfl rfl e⟩
    · rw [State.stepOff, State.stepSt, get_ev (by decide), get_set_off (by decide)]
      exact stepSt_showStep.trans ((stepSt_eq_of_board board_setStepOut).trans (stepSt_setStepSt (by decide)))
    · rw [State.stepOff, stepper_eq_of_steppers State.ev_steppers, stepper_eq_of_steppers State.set_steppers, hx,
        stepper_setStepOut]
    · rw [State.stepOff, flag_ev (by decide)]
      exact flag_setB_same (f := PG.STAT_SHUTTING) (b := false) (by decide) (by decide)
  · rintro ⟨h1, h2⟩
    exact h.elim (fun h => Bool.false_ne_true (h.symm.trans h1)) (· h2)

/-- Settles O44: the parts above. -/
theorem steppers : Obligations.Steppers := ⟨stepperCommands, stepperEvents, stepperSpeed⟩

end Sys2Proof.Machine

/-! PROOFS. Supply sequences, the auxiliary power path and the clocks (spec/21, R510 to R520, R529, R530). -/

namespace Sys2Proof.Machine

open Host (Outcome)

section

variable {s t : State} {i : Fin 8} {q : SeqX}

/-! ## Sequences (R510 to R513, R530) -/

theorem exec_pgRise_on (h : s.flag pSUP (SUP.SLOT_STAT_ON i) = true) : exec (.pgRise i) s =
    match s.sup.seq with
    | some q =>
      if q.cur ≠ i ∨ q.failed then .next (s.set pSUP (SUP.SLOT_STAT_PG i) 1)
      else
        match q.slots.find? (fun j => decide (i.val < j)) with
        | some j => .next (((s.set pSUP (SUP.SLOT_STAT_PG i) 1).setSeq (some { q with cur := j })).slotOn j)
        | none => .next ((s.set pSUP (SUP.SLOT_STAT_PG i) 1).seqDone q)
    | none => .next (s.set pSUP (SUP.SLOT_STAT_PG i) 1) := if_neg (by rw [h]; decide)

theorem not_busy_of (h : q.cur = i.val) (hf : q.failed = false) : ¬(q.cur ≠ i ∨ q.failed = true) := by
  rintro (h' | h')
  · exact h' h
  · exact Bool.false_ne_true (hf.symm.trans h')

theorem exec_pgTimeout_some (h : s.sup.seq = some q) : exec (.pgTimeout i) s =
    if q.cur ≠ i ∨ q.failed then .next s
    else .next (((List.range 8).foldl (fun (t : State) j => t.pmb j 0x03 none)
      (s.slotsOff (if q.alone = true then [i.val] else List.range (i.val + 1)))).setSeq
        (some { q with failed := true })) := by
  change execPgTimeout i s = _
  rw [execPgTimeout, h]

theorem exec_sequenceRetry_some (h : s.sup.seq = some q) : exec .sequenceRetry s =
    if !q.failed then .next s
    else if q.tries < 2 then .next (s.seqBegin (if q.alone then q.slots else s.seqSlots) (q.tries + 1) q.alone)
    else if q.alone && !(q.slots.any (fun i => (s.slotDoms i).contains .rd)) then .next s.seqNext
    else .next s.wakeFail := by
  change execSequenceRetry s = _
  rw [execSequenceRetry, h]

end

theorem supplySequences : Claims.SupplySequences := by
  unfold Claims.SupplySequences
  intro i s on
  refine ⟨fun h r => ?running, fun h r => ?starts, fun hon => ⟨fun h => ?alone, fun q hq => ⟨fun h => ?other,
    fun hc hf => ⟨fun j hj => ?next, fun hj => ?done⟩⟩⟩, fun hon => ?noRise, fun h => ⟨?noTimeout, ?noRetry⟩,
    fun q hq => ⟨fun hc hf => ?timeout, fun h => ?otherTimeout, fun hf => ?notFailed, fun hf ht => ?retry,
      fun hf ht => ?last⟩, fun hon hp => ?loss, fun h => ?noLoss,
    fun r => ⟨fun h => ?polls, fun h => ?noPoll⟩, fun r => ⟨fun h => ?alerts, fun h => ?noAlert⟩⟩
  case running => exact congrArg Outcome.next (if_pos (Option.isSome_iff_ne_none.mpr h))
  case starts => exact congrArg Outcome.next (if_neg (by rw [h]; decide))
  case alone => rw [exec_pgRise_on hon, h]
  case other =>
    rw [exec_pgRise_on hon, hq]
    exact if_pos h
  case next =>
    rw [exec_pgRise_on hon, hq]
    refine (if_neg (not_busy_of hc hf)).trans ?_
    rw [hj]
  case done =>
    rw [exec_pgRise_on hon, hq]
    refine (if_neg (not_busy_of hc hf)).trans ?_
    rw [hj]
  case noRise => exact if_pos (by simpa [on] using hon)
  case noTimeout =>
    change execPgTimeout i s = _
    rw [execPgTimeout, h]
  case noRetry =>
    change execSequenceRetry s = _
    rw [execSequenceRetry, h]
  case timeout => exact (exec_pgTimeout_some hq).trans (if_neg (not_busy_of hc hf))
  case otherTimeout => exact (exec_pgTimeout_some hq).trans (if_pos h)
  case notFailed => exact (exec_sequenceRetry_some hq).trans (if_pos (by rw [hf]; rfl))
  case retry => exact ((exec_sequenceRetry_some hq).trans (if_neg (by rw [hf]; decide))).trans (if_pos ht)
  case last =>
    have e := ((exec_sequenceRetry_some hq).trans (if_neg (by rw [hf]; decide))).trans (if_neg (Nat.not_lt.mpr ht))
    exact ⟨fun hs => e.trans (if_pos hs), fun hs => e.trans (if_neg (Bool.eq_false_iff.mp hs))⟩
  case loss => exact congrArg Outcome.next (if_pos ⟨hon, hp⟩)
  case noLoss =>
    refine congrArg Outcome.next (if_neg ?_)
    rintro ⟨hon, hp⟩
    rcases h with h | h
    · exact Bool.false_ne_true (h.symm.trans hon)
    · exact Bool.false_ne_true (h.symm.trans hp)
  case polls => exact congrArg Outcome.next (if_pos ⟨Nat.succ_pos 7, h⟩)
  case noPoll => exact congrArg Outcome.next (if_neg (fun x => Bool.false_ne_true (h.symm.trans x.2)))
  case alerts => exact congrArg Outcome.next (if_pos ⟨Nat.succ_pos 7, h⟩)
  case noAlert => exact congrArg Outcome.next (if_neg (fun x => Bool.false_ne_true (h.symm.trans x.2)))

section

variable {s t : State} {p o v : Nat} {f : Fld} {b : Bool}

/-! ## Registers of 64 bits, saturating counts, readings of VBAK -/

theorem reg64_setReg64_same (h : v < 2 ^ 64) : (s.setReg64 p o v).reg64 p o = v := by
  rw [State.reg64, State.setReg64, reg_setReg_off (by omega), reg_setReg_same, reg_setReg_same]
  omega

theorem reg_setReg64_off {q : Nat} (h : q ≠ o) (h' : q ≠ o + 4) : (s.setReg64 p o v).reg p q = s.reg p q := by
  rw [State.setReg64, reg_setReg_off h', reg_setReg_off h]

theorem reg_incSat_same : (s.incSat p o).reg p o = min (s.reg p o + 1) 0xFFFFFFFF := by
  rw [State.incSat, reg_setReg_same]
  omega

theorem reg_incSat_off {q n : Nat} (h : q ≠ o) : (s.incSat p o n).reg p q = s.reg p q := reg_setReg_off h

theorem reg64_incSat_off {q n : Nat} (h : q ≠ o) (h' : q + 4 ≠ o) : (s.incSat p o n).reg64 p q = s.reg64 p q := by
  rw [State.reg64, State.reg64, reg_incSat_off h, reg_incSat_off h']

theorem get_incSat_off {n : Nat} (h : f.off ≠ o) : (s.incSat p o n).get p f = s.get p f := get_setReg_off h

theorem readVbak_low (h : v < 900) : s.readVbak v = s.setReg pSUP SUP.VBAK v := by
  rw [State.readVbak, Nat.mod_eq_of_lt (Nat.lt_of_lt_of_le h (by decide)), if_neg (Nat.not_le.mpr h)]

theorem path_readVbak : (s.readVbak v).path = s.path := by
  rw [State.readVbak, State.path, State.path]
  split
  · rw [get_set_bits (f := SUP.STAT_NO_BACKUP) (g := SUP.STAT_PATH) rfl (by decide) (by decide) (by decide) (by decide),
      get_setReg_off (by decide)]
  · rw [get_setReg_off (by decide)]

theorem bakWarn_readVbak : (s.readVbak v).bakWarn = s.bakWarn := by
  rw [State.readVbak, State.bakWarn, State.bakWarn]
  split
  · rw [get_set_off (by decide), get_setReg_off (by decide)]
  · rw [get_setReg_off (by decide)]

theorem get_readVbak_page {q : Nat} (h : q ≠ pSUP) (hf : f.off < 4096) : (s.readVbak v).get q f = s.get q f := by
  rw [State.readVbak]
  split
  · rw [get_set_page h hf (by decide), get_setReg_page h hf (by decide)]
  · rw [get_setReg_page h hf (by decide)]

/-! ## The path (R515 to R517) -/

/-- The readings with which a handover is decided. -/
def State.handRead (s : State) (a b : Nat) : State :=
  ((s.setReg pSUP SUP.VAUX a).set pSUP SUP.STAT_VAUX_OK 0).readVbak b

/-- The way onto VBAK. -/
def State.handOver (s : State) : State :=
  (((((s.send (.pin "PP_BAK_EN" true)).send (.pin "PP_SRC_EN" false)).set pSUP SUP.STAT_PATH ppHANDOVER).incSat
    pSUP SUP.HO_CNT).ev pSUP 16)

theorem path_handRead {a c : Nat} : (s.handRead a c).path = s.path := by
  rw [State.handRead, path_readVbak, State.path, State.path,
    get_set_bits (f := SUP.STAT_VAUX_OK) (g := SUP.STAT_PATH) rfl (by decide) (by decide) (by decide) (by decide),
    get_setReg_off (by decide)]

theorem reg_handRead_off {a c q : Nat} (h : q ≠ SUP.VAUX) (h' : q ≠ SUP.VBAK) (hs : q ≠ SUP.STAT) :
    (s.handRead a c).reg pSUP q = s.reg pSUP q := by
  rw [State.handRead, State.readVbak]
  split
  · rw [reg_set_off hs, reg_setReg_off h', reg_set_off hs, reg_setReg_off h]
  · rw [reg_setReg_off h', reg_set_off hs, reg_setReg_off h]

theorem out_handRead {a c : Nat} : (s.handRead a c).out = s.out := by
  rw [State.handRead, State.readVbak]
  split <;> rfl

theorem sameMem_handRead {a c : Nat} : SameMem s (s.handRead a c) := by
  rw [State.handRead, State.readVbak]
  split <;> exact sameMem_refl s

theorem out_handOver : s.handOver.out = s.out ++ [.pin "PP_BAK_EN" true, .pin "PP_SRC_EN" false] := by
  rw [State.handOver, State.ev_out, State.incSat_out, State.set_out, out_send, out_send, List.append_assoc]
  rfl

theorem sameMem_handOver (h : SameMem s t) : SameMem s t.handOver :=
  keeps_State_ev (k0_sameMem s) (keeps_State_incSat (k0_sameMem s) (keeps_State_set (k0_sameMem s)
    (keeps_State_send (k0_sameMem s) (keeps_State_send (k0_sameMem s) h))))

theorem storeSt_handOver_handRead {a c : Nat} : (s.handRead a c).handOver.storeSt = s.storeSt := by
  have h1 : ∀ u : State, u.handOver.storeSt = u.storeSt := fun u => by
    rw [State.storeSt, State.storeSt, State.handOver, State.ev, State.setBit, State.setB,
      get_set_page (by decide) (by decide) (by decide), State.incSat,
      get_setReg_page (by decide) (by decide) (by decide), get_set_page (by decide) (by decide) (by decide), get_send,
      get_send]
  rw [h1, State.storeSt, State.storeSt, State.handRead, get_readVbak_page (by decide) (by decide),
    get_set_page (by decide) (by decide) (by decide), get_setReg_page (by decide) (by decide) (by decide)]

theorem execHandoverDecision_aux {a c : Fin 65536} (hp : s.path = ppAUX) (ha : a.val < 1700) :
    exec (.handoverDecision a c) s = if c.val < 900 then
      .next (((s.handRead a c).set pSUP SUP.STAT_NO_BACKUP 1).err pSUP 20)
    else .next ((if (s.handRead a c).handOver.storeSt = tsOPEN then (s.handRead a c).handOver.handoverCharge
      else (s.handRead a c).handOver).wakeCause wcPOWER) :=
  if_neg (by rintro (h | h) <;> omega)

theorem dev_vbakLow (s : State) (v : Nat) :
    ((s.setReg pSUP SUP.VBAK v).set pSUP SUP.STAT_VBAK_LOW 1).dev = s.dev := by
  rw [State.dev, State.dev, get_set_page (by decide) (by decide) (by decide),
    get_setReg_page (by decide) (by decide) (by decide)]

theorem exec_vbakLowDeep_bak {c : Fin 65536} (hp : s.path = ppBAK) (hc : c.val < 900) :
    exec (.vbakLowDeep c) s = if ((s.setReg pSUP SUP.VBAK c).set pSUP SUP.STAT_VBAK_LOW 1).dev = dvDEEP then
      .next ((s.setReg pSUP SUP.VBAK c).set pSUP SUP.STAT_VBAK_LOW 1)
    else .next ((((s.setReg pSUP SUP.VBAK c).set pSUP SUP.STAT_VBAK_LOW 1).busesRest.deepState).incF pREST
      ⟨REST.ENTRY_CNT, 31, 16⟩) := by
  rw [← readVbak_low hc]
  exact if_neg (by rintro (h | h) <;> omega)

/-- The charge that the slots' currents add in a tick on VBAK. -/
theorem foldl_iin_off {l : List Nat} {n : Nat} (h : ∀ j ∈ l, s.flag pSUP (SUP.SLOT_STAT_ON j) = false) :
    l.foldl (fun n j => if s.flag pSUP (SUP.SLOT_CFG_IIN_EN j) ∧ s.flag pSUP (SUP.SLOT_STAT_ON j) then
      n + s.reg pSUP (SUP.SLOT_IIN j) % 2 ^ 16 else n) n = n := by
  induction l with
  | nil => rfl
  | cons j l ih =>
    rw [List.foldl_cons, if_neg (fun x => Bool.false_ne_true ((h j List.mem_cons_self).symm.trans x.2))]
    exact ih (fun k hk => h k (List.mem_cons_of_mem j hk))

/-- A tick on VBAK that takes `x` in units of µC and keeps the rest below a unit. -/
def State.tallyTick (s : State) (x : Nat) : State :=
  ((s.setSup { s.sup with chg := x % 1000 }).setReg64 pSUP SUP.BAK_CHG_LO
    (((s.setSup { s.sup with chg := x % 1000 }).reg64 pSUP SUP.BAK_CHG_LO + x / 1000) % 2 ^ 64)).incSat pSUP SUP.BAK_TIME

theorem sameMem_tallyTick {x : Nat} : SameMem s (s.tallyTick x) :=
  keeps_State_incSat (k0_sameMem s) (keeps_State_setReg64 (k0_sameMem s) (keeps_State_setSup (k0_sameMem s)
    (sameMem_refl s)))

theorem execBackupTallyTick_off (h : s.path = ppBAK) (hon : ∀ j, j < 8 → s.flag pSUP (SUP.SLOT_STAT_ON j) = false) :
    exec .backupTallyTick s = .next (s.tallyTick (10 * s.get pSUP SUP.PATH_CFG_AON_IQ + s.sup.chg)) := by
  have key := foldl_iin_off (s := s) (l := List.range 8) (n := 0) (fun j hj => hon j (List.mem_range.mp hj))
  refine (if_neg (fun x => x h)).trans ?_
  rw [key, Nat.zero_add]
  rfl

end

theorem supplyPath : Claims.SupplyPath := by
  unfold Claims.SupplyPath
  intro a b s
  refine ⟨fun hp ha hb => ?noBackup, fun hp ha hb hs => ?handover, fun h => ?noHandover, fun h => ?notDone,
    fun h => ?noReturn, fun h => ?notReturned, fun h => ?noDeep, fun h => ⟨?noTick, ?noLow⟩, fun h => ?done,
    fun h hr => ?back, fun h => ?returned, fun h hb hd => ?inDeep, fun h hb hd => ?toDeep, fun h hon => ?tick,
    fun h hb => ?low, fun h hb => ?notLow, ?vaux⟩
  case noBackup =>
    refine ⟨_, (execHandoverDecision_aux hp ha).trans (if_pos hb), ?_, ?_, ?_, ?_, ?_, ?_⟩
    · rw [State.path, get_err (by decide) (by decide) (by decide),
        get_set_bits (f := SUP.STAT_NO_BACKUP) (g := SUP.STAT_PATH) rfl (by decide) (by decide) (by decide) (by decide)]
      exact path_handRead.trans hp
    · rw [flag_err (by decide) (by decide) (by decide), flag_set_same (by decide) (by decide)]
      rfl
    · exact bit_err (by decide)
    · rw [reg_err (by decide) (by decide) (by decide), reg_set_off (by decide), State.handRead, readVbak_low hb,
        reg_setReg_off (by decide), reg_set_off (by decide), reg_setReg_same]
      exact Nat.mod_eq_of_lt (lt_trans a.isLt (by decide))
    · rw [reg_err (by decide) (by decide) (by decide), reg_set_off (by decide), State.handRead, readVbak_low hb,
        reg_setReg_same]
      exact Nat.mod_eq_of_lt (lt_trans b.isLt (by decide))
    · exact keeps_State_err (k0_sameMem s) (keeps_State_set (k0_sameMem s) sameMem_handRead)
  case handover =>
    have hst : ¬(s.handRead a b).handOver.storeSt = tsOPEN := fun e => hs (storeSt_handOver_handRead.symm.trans e)
    refine ⟨(s.handRead a b).handOver, ?_, ?_, ?_, ?_, ?_, ?_⟩
    · refine ((execHandoverDecision_aux hp ha).trans (if_neg (Nat.not_lt.mpr hb))).trans ?_
      rw [if_neg hst]
    · rw [State.path, State.handOver, get_ev (by decide), get_incSat_off (by decide), get_set_same (by decide) (by decide)]
      rfl
    · exact bit_ev (by decide)
    · rw [State.handOver, reg_ev (by decide), reg_incSat_same, reg_set_off (by decide), reg_send, reg_send,
        reg_handRead_off (by decide) (by decide) (by decide)]
    · rw [out_handOver, out_handRead]
    · exact sameMem_handOver sameMem_handRead
  case noHandover => exact if_pos h
  case notDone => exact congrArg Outcome.next (if_neg h)
  case noReturn =>
    refine if_neg ?_
    rintro ⟨hp, hr⟩
    rcases h with h | h
    · exact h hp
    · exact Bool.false_ne_true (h.symm.trans hr)
  case notReturned => exact congrArg Outcome.next (if_neg h)
  case noDeep => exact if_pos h
  case noTick => exact if_pos h
  case noLow => exact if_pos (fun e => h (path_readVbak.symm.trans e))
  case done => exact congrArg Outcome.next (if_pos h)
  case back => exact if_pos ⟨h, hr⟩
  case returned => exact congrArg Outcome.next (if_pos h)
  case inDeep =>
    rw [exec_vbakLowDeep_bak h hb]
    exact if_pos ((dev_vbakLow s b).trans hd)
  case toDeep =>
    rw [exec_vbakLowDeep_bak h hb]
    exact if_neg (fun e => hd ((dev_vbakLow s b).symm.trans e))
  case tick =>
    refine ⟨_, execBackupTallyTick_off h hon, ?_, rfl, ?_, ?_⟩
    · rw [State.tallyTick, reg64_incSat_off (by decide) (by decide),
        reg64_setReg64_same (Nat.mod_lt _ (by decide))]
      rfl
    · rw [State.tallyTick, reg_incSat_same, reg_setReg64_off (by decide) (by decide)]
      rfl
    · exact sameMem_tallyTick
  case low =>
    refine (if_neg (fun x => x (path_readVbak.trans h))).trans ?_
    exact if_pos (by rwa [bakWarn_readVbak])
  case notLow =>
    refine (if_neg (fun x => x (path_readVbak.trans h))).trans ?_
    exact if_neg (by rw [bakWarn_readVbak]; exact Nat.not_lt.mpr hb)
  case vaux =>
    refine ⟨_, rfl, ?_, ?_, ?_, ?_⟩
    · rw [reg_eq_of_board State.setSup_board, reg_setB_off (by decide), reg_setReg_same]
      exact Nat.mod_eq_of_lt (lt_trans a.isLt (by decide))
    · rw [flag_eq_of_board State.setSup_board]
      exact flag_setB_same (by decide) (by decide)
    · have e : ((s.setReg pSUP SUP.VAUX a).setB pSUP SUP.STAT_VAUX_OK (decide (1900 ≤ a.val))).path = s.path := by
        rw [State.path, State.path, get_setB_bits (f := SUP.STAT_VAUX_OK) (g := SUP.STAT_PATH) rfl (by decide)
          (by decide) (by decide) (by decide), get_setReg_off (by decide)]
      rw [← e]
      rfl
    · exact keeps_State_setSup (k0_sameMem s) (keeps_State_setB (k0_sameMem s) (keeps_State_setReg (k0_sameMem s)
        (sameMem_refl s)))

section

variable {s t : State} {p : Nat} {f g : Fld} {b : Bool}

/-! ## Clocks (R518 to R520, R529) -/

theorem flag_clk_same (h : f.lo ≤ f.hi) (h32 : f.hi < 32) (he : f.off ≠ PG.EV_STAT) :
    (s.clk f b).flag pCLK f = b := by
  unfold State.clk
  split
  · assumption
  · rw [flag_ev he, flag_setB_same h h32]

theorem flag_clk_other {i j : Nat} (h : i < 32) (hd : j ≠ i) :
    (s.clk ⟨CLK.STAT, i, i⟩ b).flag pCLK ⟨CLK.STAT, j, j⟩ = s.flag pCLK ⟨CLK.STAT, j, j⟩ := by
  unfold State.clk
  split
  · rfl
  · rw [flag_ev (by simp), flag_setB_bits (f := ⟨CLK.STAT, i, i⟩) (g := ⟨CLK.STAT, j, j⟩) rfl (Nat.le_refl _) h
      (Nat.le_refl _) (Nat.lt_or_gt_of_ne hd)]

theorem reg_clk_page {o : Nat} (h : p ≠ pCLK) (ho : o < 4096) (hf : f.off < 4096) :
    (s.clk f b).reg p o = s.reg p o := by
  unfold State.clk
  split
  · rfl
  · rw [State.ev, State.setBit, State.setB, State.setB, reg_set_page h ho (by decide), reg_set_page h ho hf]

theorem bit_clk_page {o i : Nat} (h : p ≠ pCLK) (ho : o < 4096) (hf : f.off < 4096) :
    (s.clk f b).bit p o i = s.bit p o i := by
  rw [State.bit, State.bit, reg_clk_page h ho hf]

theorem flag_clk_page (h : p ≠ pCLK) (hg : g.off < 4096) (hf : f.off < 4096) : (s.clk f b).flag p g = s.flag p g := by
  have e : (s.clk f b).get p g = s.get p g := by
    unfold State.clk
    split
    · rfl
    · rw [State.ev, State.setBit, State.setB, State.setB, get_set_page h hg (by decide), get_set_page h hg hf]
  rw [State.flag, State.flag, e]

/-- A start on the 100 MHz oscillator, before the rods take the SGR block. -/
def State.degrade (s : State) : State :=
  ((((((s.set pREST REST.STAT_DEGRADED 1).incF pREST ⟨REST.FAIL_CNT, 15, 0⟩).ev pREST 18).clk CLK.STAT_RC100_IN_USE
    true).clk CLK.STAT_BEAM_LOCK false).clk CLK.STAT_RECK_LOCK true).clk CLK.STAT_APC_LOCK true

theorem sameMem_degrade : SameMem s s.degrade :=
  keeps_State_clk (k0_sameMem s) (keeps_State_clk (k0_sameMem s) (keeps_State_clk (k0_sameMem s)
    (keeps_State_clk (k0_sameMem s) (keeps_State_ev (k0_sameMem s) (keeps_State_incF (k0_sameMem s)
      (keeps_State_set (k0_sameMem s) (sameMem_refl s)))))))

end

theorem clockEvents : Claims.ClockEvents := by
  unfold Claims.ClockEvents
  intro s fails
  refine ⟨congrArg Outcome.next (if_pos rfl), congrArg Outcome.next (if_neg (by decide) |>.trans (if_pos rfl)),
    congrArg Outcome.next (if_neg (by decide) |>.trans (if_neg (by decide))), fun h => ?fail1, fun h => ?gone1, fun h => ?fail2, fun h => ?gone2,
    fun h => ⟨fun hb => ?fail0, fun hb => ?beam⟩, fun h => ?gone0, fun i => ⟨fun h => ?unlock, fun h => ?unlocked⟩,
    fun hx hd => ?degrades, fun h => ?stays⟩
  case fail1 => exact if_neg (by simpa using h)
  case gone1 => exact if_pos (by simpa using h)
  case fail2 => exact if_neg (by simpa using h)
  case gone2 => exact if_pos (by simpa using h)
  case fail0 => exact (if_neg (by simpa using h)).trans (congrArg Outcome.next (if_neg (Bool.eq_false_iff.mp hb)))
  case beam => exact (if_neg (by simpa using h)).trans (congrArg Outcome.next (if_pos hb))
  case gone0 => exact if_pos (by simpa using h)
  case unlock => exact congrArg Outcome.next (if_pos h)
  case unlocked => exact congrArg Outcome.next (if_neg (Bool.eq_false_iff.mp h))
  case degrades =>
    refine ⟨s.degrade, ?_, ?_, ?_, ?_, ?_, ?_, sameMem_degrade, ?_⟩
    · rw [State.degrade, flag_clk_page (by decide) (by decide) (by decide),
        flag_clk_page (by decide) (by decide) (by decide), flag_clk_page (by decide) (by decide) (by decide),
        flag_clk_page (by decide) (by decide) (by decide), flag_ev (by decide), State.incF, flag_set_off (by decide),
        flag_set_same (by decide) (by decide)]
      rfl
    · rw [State.degrade, bit_clk_page (by decide) (by decide) (by decide),
        bit_clk_page (by decide) (by decide) (by decide), bit_clk_page (by decide) (by decide) (by decide),
        bit_clk_page (by decide) (by decide) (by decide), bit_ev (by decide)]
    · rw [State.degrade, flag_clk_other (by decide) (by decide),
        flag_clk_other (by decide) (by decide),
        flag_clk_other (by decide) (by decide),
        flag_clk_same (by decide) (by decide) (by decide)]
    · rw [State.degrade, flag_clk_other (by decide) (by decide),
        flag_clk_other (by decide) (by decide),
        flag_clk_same (by decide) (by decide) (by decide)]
    · rw [State.degrade, flag_clk_other (by decide) (by decide),
        flag_clk_same (by decide) (by decide) (by decide)]
    · rw [State.degrade, flag_clk_same (by decide) (by decide) (by decide)]
    · exact if_neg (by simp [hx, hd])
  case stays => exact if_pos h

/-- Settles O45: the sequences and the clocks are the model's case distinctions, and the path's words are read after each
write. -/
theorem suppliesAndClocks : Obligations.SuppliesAndClocks := ⟨supplySequences, supplyPath, clockEvents⟩

end Sys2Proof.Machine

/-! PROOFS. Requests of a deeper device state, entries, wakes and the AON alarm (spec/21, R522 to R526, R533). -/

namespace Sys2Proof.Machine

open Host (Outcome)

section

variable {s : State}

/-! ## A request of a deeper state (R523) -/

/-- A request that waits. -/
def State.askDeeper (s : State) (t : Nat) : State :=
  (((s.set pREST REST.REQ_TARGET t).set pREST REST.STAT_REQ_FAIL 0).set pREST REST.STAT_TARGET t).set pREST
    REST.STAT_PENDING 1

theorem restTarget_far {t : Nat} (h : 4 ≤ t) : s.restTarget t = s.err pREST 17 := if_pos h

theorem restTarget_deeper {t : Nat} (h : t < 4) (hd : s.dev < t) : s.restTarget t = s.askDeeper t := by
  have e : (((s.set pREST REST.REQ_TARGET t).set pREST REST.STAT_REQ_FAIL 0).set pREST REST.STAT_TARGET t).dev =
      s.dev := by
    rw [State.dev, State.dev,
      get_set_bits (f := REST.STAT_TARGET) (g := REST.STAT_STATE) rfl (by decide) (by decide) (by decide) (by decide),
      get_set_bits (f := REST.STAT_REQ_FAIL) (g := REST.STAT_STATE) rfl (by decide) (by decide) (by decide) (by decide),
      get_set_off (by decide)]
  rw [State.restTarget, if_neg (Nat.not_le.mpr h)]
  exact if_neg (by rw [e]; exact Nat.not_le.mpr hd)

theorem exec_restRequest {w : Writer} {t : Fin 8} {u : State} (hw : s.mayAct w pREST) (h : s.restTarget t = u) :
    exec (.restRequest w t) s = .next (u.answer w .ok) := by
  subst h
  exact congrArg Outcome.next (finish_action (f := fun s => (s.restTarget t, .ok)) hw rfl)

theorem dev_askDeeper {t : Nat} : (s.askDeeper t).dev = s.dev := by
  rw [State.dev, State.dev, State.askDeeper,
    get_set_bits (f := REST.STAT_PENDING) (g := REST.STAT_STATE) rfl (by decide) (by decide) (by decide) (by decide),
    get_set_bits (f := REST.STAT_TARGET) (g := REST.STAT_STATE) rfl (by decide) (by decide) (by decide) (by decide),
    get_set_bits (f := REST.STAT_REQ_FAIL) (g := REST.STAT_STATE) rfl (by decide) (by decide) (by decide) (by decide),
    get_set_off (by decide)]

theorem pending_askDeeper {t : Nat} : (s.askDeeper t).flag pREST REST.STAT_PENDING = true := by
  rw [State.askDeeper, flag_set_same (by decide) (by decide)]
  rfl

theorem target_askDeeper {t : Nat} (h : t < 4) : (s.askDeeper t).get pREST REST.STAT_TARGET = t := by
  rw [State.askDeeper,
    get_set_bits (f := REST.STAT_PENDING) (g := REST.STAT_TARGET) rfl (by decide) (by decide) (by decide) (by decide),
    get_set_same (by decide) (by decide)]
  exact Nat.mod_eq_of_lt (lt_trans h (by decide))

theorem reqFail_askDeeper {t : Nat} : (s.askDeeper t).flag pREST REST.STAT_REQ_FAIL = false := by
  rw [State.askDeeper,
    flag_set_bits (f := REST.STAT_PENDING) (g := REST.STAT_REQ_FAIL) rfl (by decide) (by decide) (by decide) (by decide),
    flag_set_bits (f := REST.STAT_TARGET) (g := REST.STAT_REQ_FAIL) rfl (by decide) (by decide) (by decide) (by decide),
    flag_set_same (by decide) (by decide)]
  rfl

theorem sameRegs_askDeeper {t : Nat} : SameRegs s (s.askDeeper t) [(pREST, REST.REQ), (pREST, REST.STAT)] :=
  SameRegs.set (SameRegs.set (SameRegs.set (SameRegs.set (sameRegs_of_board rfl) (by decide)) (by decide))
    (by decide)) (by decide)

theorem sameMem_askDeeper {t : Nat} : SameMem s (s.askDeeper t) :=
  keeps_State_set (k0_sameMem s) (keeps_State_set (k0_sameMem s) (keeps_State_set (k0_sameMem s)
    (keeps_State_set (k0_sameMem s) (sameMem_refl s))))

/-! ## Entries and wakes (R524 to R526) -/

theorem not_aon_of_device {d : Dom} (h : d ∈ domsDevice) : d ≠ .aon := by
  rintro rfl
  exact absurd h (by decide)

theorem anyAwake_eq_false (h : ∀ p ∈ allPages, pageDom p ≠ .aon → s.get p PG.CTL_PWR_REQ ≠ 1) :
    domsDevice.any (fun d => allPages.any (fun p => decide (pageDom p = d ∧ s.get p PG.CTL_PWR_REQ = 1))) = false := by
  rw [List.any_eq_false]
  intro d hd ha
  obtain ⟨p, hp, he⟩ := List.any_eq_true.mp ha
  obtain ⟨hpd, hr⟩ := of_decide_eq_true he
  exact h p hp (hpd ▸ not_aon_of_device hd) hr

theorem anyAwake_eq_true {p : Nat} (hp : p ∈ allPages) (hd : pageDom p ∈ domsDevice)
    (hr : s.get p PG.CTL_PWR_REQ = 1) :
    domsDevice.any (fun d => allPages.any (fun p => decide (pageDom p = d ∧ s.get p PG.CTL_PWR_REQ = 1))) = true :=
  List.any_eq_true.mpr ⟨_, hd, List.any_eq_true.mpr ⟨p, hp, decide_eq_true ⟨rfl, hr⟩⟩⟩

/-- The end of a wake from QUIET. -/
def State.wakeEnd (s : State) (x : RestX) (us : Nat) : State :=
  ((((s.set pREST REST.STAT_WAKING 0).set pREST REST.STAT_STATE x.wakeTo).ev pREST 16).setReg pREST REST.WAKE_LAST
    (x.cause * 2 ^ 24 + us)).setRest {}

theorem waking_wakeEnd {x : RestX} {us : Nat} : (s.wakeEnd x us).flag pREST REST.STAT_WAKING = false := by
  rw [State.wakeEnd, flag_eq_of_board State.setRest_board, flag_setReg_off (by decide), flag_ev (by decide),
    flag_set_bits (f := REST.STAT_STATE) (g := REST.STAT_WAKING) rfl (by decide) (by decide) (by decide) (by decide),
    flag_set_same (by decide) (by decide)]
  rfl

theorem dev_wakeEnd {x : RestX} {us : Nat} (h : x.wakeTo < 8) : (s.wakeEnd x us).dev = x.wakeTo := by
  rw [State.wakeEnd, State.dev, get_eq_of_board State.setRest_board, get_setReg_off (by decide), get_ev (by decide),
    get_set_same (by decide) (by decide)]
  exact Nat.mod_eq_of_lt h

theorem wakeLast_wakeEnd {x : RestX} {us : Nat} (hc : x.cause < 8) (hu : us < 1048576) :
    (s.wakeEnd x us).reg pREST REST.WAKE_LAST = x.cause * 2 ^ 24 + us := by
  rw [State.wakeEnd, reg_eq_of_board State.setRest_board, reg_setReg_same]
  omega

theorem sameRegs_wakeEnd {x : RestX} {us : Nat} : SameRegs s (s.wakeEnd x us)
    [(pREST, REST.STAT), (pREST, REST.WAKE_LAST), (pREST, PG.EV_STAT)] :=
  SameRegs.of_board (SameRegs.setReg (SameRegs.ev (SameRegs.set (SameRegs.set (sameRegs_of_board rfl) (by decide))
    (by decide)) (by decide)) (by decide)) State.setRest_board

theorem sameMem_wakeEnd {x : RestX} {us : Nat} : SameMem s (s.wakeEnd x us) :=
  keeps_State_setRest (k0_sameMem s) (keeps_State_setReg (k0_sameMem s) (keeps_State_ev (k0_sameMem s)
    (keeps_State_set (k0_sameMem s) (keeps_State_set (k0_sameMem s) (sameMem_refl s)))))

theorem execWakeComplete_quiet {us : Fin 1048576} (hw : s.flag pREST REST.STAT_WAKING = true) (hu : s.slotsUp = true)
    (hd : s.dev = dvQUIET) : exec (.wakeComplete us) s = .next (s.wakeEnd s.rest us) := by
  refine (if_neg (by rw [hw, hu]; decide)).trans (congrArg Outcome.next ?_)
  exact (if_neg (by rw [hd]; decide)).trans (if_neg (by rw [hd]; decide))

end

/-- Settles O46: an entry is the model's case distinction on the cause that stops it; a request's words are read after
each write. -/
theorem deviceStates : Obligations.DeviceStates := by
  unfold Obligations.DeviceStates
  intro w s quiet rest resting begun stopped
  refine ⟨fun hw => ⟨?abort, fun t h => ?far, fun t h hd => ?deeper⟩, fun h => ?timeout, fun h => ?noTimeout,
    fun h => ⟨?quiet, fun c => ?quietStop⟩, fun h c => ?noQuiet, fun h => ⟨?rest, fun c => ?restStop⟩,
    fun h c => ?noRest, fun h ha => ?deep, fun h c => ?noDeep, fun c h => ?cause, fun h => ?noCause,
    fun h us => ?noWake, fun us hw hu hd ht hc => ?wake, fun i hi ha hm => ?linger, fun i h => ?noLinger,
    fun h => ?alarm, fun h => ?noAlarm⟩
  case abort => exact congrArg Outcome.next (finish_action (f := fun s => (s.restAbort, .ok)) hw rfl)
  case far => exact exec_restRequest hw (restTarget_far h)
  case deeper =>
    have e := exec_restRequest hw (restTarget_deeper h hd)
    have hp := pending_askDeeper (s := s) (t := t)
    have ht := target_askDeeper (s := s) h
    have hr := reqFail_askDeeper (s := s) (t := t)
    have hv := dev_askDeeper (s := s) (t := t)
    have hb := sameRegs_askDeeper (s := s) (t := t)
    have hm := sameMem_askDeeper (s := s) (t := t)
    generalize s.askDeeper t = u at e hp ht hr hv hb hm
    exact ⟨_, e, hp, ht, hr, hv, hb.answer, hm⟩
  case timeout => exact congrArg Outcome.next (if_pos h)
  case noTimeout => exact congrArg Outcome.next (if_neg (Bool.eq_false_iff.mp h))
  case quiet => exact congrArg Outcome.next (if_pos h)
  case quietStop => exact congrArg Outcome.next (if_pos h)
  case noQuiet => exact congrArg Outcome.next (if_neg (Bool.eq_false_iff.mp h))
  case rest => exact congrArg Outcome.next (if_pos h)
  case restStop => exact congrArg Outcome.next (if_pos h)
  case noRest => exact congrArg Outcome.next (if_neg (Bool.eq_false_iff.mp h))
  case deep => exact congrArg Outcome.next (if_pos (by rw [h, anyAwake_eq_false ha]; rfl))
  case noDeep =>
    refine congrArg Outcome.next (if_neg ?_)
    rcases h with h | ⟨p, hp, hd, hr⟩
    · rw [h]
      exact Bool.false_ne_true
    · rw [anyAwake_eq_true hp hd hr, Bool.not_true, Bool.and_false]
      exact Bool.false_ne_true
  case cause =>
    refine congrArg Outcome.next (if_neg ?_)
    rintro ⟨hc, hs⟩
    rcases h with h | h
    · exact h hc
    · exact h hs
  case noCause => exact congrArg Outcome.next (if_pos ⟨rfl, h⟩)
  case noWake =>
    refine if_pos ?_
    rcases h with h | h
    · rw [h]; rfl
    · rw [h, Bool.not_false, Bool.or_true]
  case wake =>
    exact ⟨_, execWakeComplete_quiet hw hu hd, waking_wakeEnd, (dev_wakeEnd (by rw [ht]; decide)).trans ht,
      wakeLast_wakeEnd hc us.isLt, rfl, sameRegs_wakeEnd, sameMem_wakeEnd⟩
  case linger =>
    exact congrArg Outcome.next ((if_pos ⟨ha, hm⟩).trans (congrArg (fun x : State => x.domRest (domOf i)) (if_neg hi)))
  case noLinger =>
    refine congrArg Outcome.next (if_neg ?_)
    rintro ⟨ha, hm⟩
    rcases h with h | h
    · exact h ha
    · exact Bool.false_ne_true (h.symm.trans hm)
  case alarm => exact congrArg Outcome.next (if_pos h)
  case noAlarm => exact congrArg Outcome.next (if_neg (Bool.eq_false_iff.mp h))

end Sys2Proof.Machine

/-! PROOFS. Safety demands (spec/16, R391 to R403, R413): what a demand records, the ages of the trip-path tests, inputs,
pairs in discrepancy, and samples in REST. -/

namespace Sys2Proof.Machine

open Host (Outcome)

section

variable {s t u : State} {p o i : Nat} {f : Fld} {l : List (Nat × Nat)}

/-! ## Reading a word outside a list of written ones -/

theorem SameRegs.reg (h : SameRegs s t l) (hk : ∀ e ∈ l, bkey p o ≠ bkey e.1 e.2) : t.reg p o = s.reg p o := by
  rw [State.reg, State.reg, h.word hk]

theorem SameRegs.get (h : SameRegs s t l) (hk : ∀ e ∈ l, bkey p f.off ≠ bkey e.1 e.2) : t.get p f = s.get p f := by
  rw [State.get, State.get, h.word hk]

theorem SameRegs.flag (h : SameRegs s t l) (hk : ∀ e ∈ l, bkey p f.off ≠ bkey e.1 e.2) : t.flag p f = s.flag p f := by
  rw [State.flag, State.flag, h.get hk]

theorem SameRegs.bit (h : SameRegs s t l) (hk : ∀ e ∈ l, bkey p o ≠ bkey e.1 e.2) : t.bit p o i = s.bit p o i := by
  rw [State.bit, State.bit, h.reg hk]

theorem SameRegs.setSafe {x : SafeX} (h : SameRegs s t l) : SameRegs s (t.setSafe x) l := h.of_board State.setSafe_board

theorem SameRegs.setBit {b : Bool} (h : SameRegs s t l) (hm : (p, o) ∈ l) : SameRegs s (t.setBit p o i b) l :=
  h.setB (f := ⟨o, i, i⟩) hm

/-! ## A latching demand (R399) -/

/-- The record of the first demand after a reset. -/
def State.noteCause (s : State) (cause rods : Nat) : State :=
  if s.safe.recorded then s
  else
    let s := s.setReg pSAFE SAFE.CAUSE cause
    (s.setReg pSAFE SAFE.CAUSE_NS s.ns).setReg pSAFE SAFE.CAUSE_RODS rods

/-- The words of a latching demand. -/
def State.noteLatch (s : State) (cause rods : Nat) : State :=
  (s.setReg pSAFE SAFE.LATCH (s.reg pSAFE SAFE.LATCH ||| rods)).noteCause cause rods

/-- The words that a demand writes. -/
def demandWords : List (Nat × Nat) :=
  [(pSAFE, SAFE.LATCH), (pSAFE, SAFE.CAUSE), (pSAFE, SAFE.CAUSE_NS), (pSAFE, SAFE.CAUSE_RODS)]

variable {cause code sub idx rods : Nat} {spd : Bool}

theorem sameRegs_noteLatch : SameRegs s (s.noteLatch cause rods) demandWords := by
  have h : SameRegs s (s.setReg pSAFE SAFE.LATCH (s.reg pSAFE SAFE.LATCH ||| rods)) demandWords :=
    sameRegs_refl.setReg (by decide)
  unfold State.noteLatch State.noteCause
  split
  · exact h
  · exact ((h.setReg (by decide)).setReg (by decide)).setReg (by decide)

theorem sameMem_noteLatch (ht : SameMem s t) : SameMem s (t.noteLatch cause rods) := by
  have h : SameMem s (t.setReg pSAFE SAFE.LATCH (t.reg pSAFE SAFE.LATCH ||| rods)) :=
    keeps_State_setReg (k0_sameMem s) ht
  unfold State.noteLatch State.noteCause
  split
  · exact h
  · exact keeps_State_setReg (k0_sameMem s) (keeps_State_setReg (k0_sameMem s) (keeps_State_setReg (k0_sameMem s) h))

theorem safe_noteLatch : (s.noteLatch cause rods).safe = s.safe := by
  unfold State.noteLatch State.noteCause
  split <;> rfl

theorem latch_noteLatch (h : rods < 2 ^ 32) :
    (s.noteLatch cause rods).reg pSAFE SAFE.LATCH = s.reg pSAFE SAFE.LATCH ||| rods := by
  have e : (s.setReg pSAFE SAFE.LATCH (s.reg pSAFE SAFE.LATCH ||| rods)).reg pSAFE SAFE.LATCH =
      s.reg pSAFE SAFE.LATCH ||| rods := by
    rw [reg_setReg_same]
    exact Nat.mod_eq_of_lt (Nat.or_lt_two_pow (BitVec.isLt _) h)
  unfold State.noteLatch State.noteCause
  split
  · exact e
  · rw [reg_setReg_off (by decide), reg_setReg_off (by decide), reg_setReg_off (by decide), e]

theorem cause_noteLatch_recorded (h : s.safe.recorded = true) :
    (s.noteLatch cause rods).word pSAFE SAFE.CAUSE = s.word pSAFE SAFE.CAUSE := by
  rw [State.noteLatch, State.noteCause, State.setReg_safe, if_pos h]
  exact word_setWord_off (by decide)

theorem cause_noteLatch_first (h : s.safe.recorded = false) (hc : cause < 2 ^ 32) :
    (s.noteLatch cause rods).reg pSAFE SAFE.CAUSE = cause := by
  rw [State.noteLatch, State.noteCause, State.setReg_safe, if_neg (Bool.eq_false_iff.mp h), reg_setReg_off (by decide),
    reg_setReg_off (by decide), reg_setReg_same]
  exact Nat.mod_eq_of_lt hc

theorem causeRods_noteLatch_first (h : s.safe.recorded = false) (hr : rods < 2 ^ 32) :
    (s.noteLatch cause rods).reg pSAFE SAFE.CAUSE_RODS = rods := by
  rw [State.noteLatch, State.noteCause, State.setReg_safe, if_neg (Bool.eq_false_iff.mp h), reg_setReg_same]
  exact Nat.mod_eq_of_lt hr

theorem demandNote_latching (hn : ¬(s.split = true ∨ rods = 0)) : s.demandNote code sub idx rods true =
    (s.noteLatch (code * 2 ^ 24 + sub * 2 ^ 16 + idx) rods).setSafe { s.safe with recorded := true } := by
  have e := safe_noteLatch (s := s) (cause := code * 2 ^ 24 + sub * 2 ^ 16 + idx) (rods := rods)
  rw [State.noteLatch] at e ⊢
  rw [State.demandNote, if_neg hn, if_pos rfl, ← e]
  generalize s.setReg pSAFE SAFE.LATCH (s.reg pSAFE SAFE.LATCH ||| rods) = u
  generalize code * 2 ^ 24 + sub * 2 ^ 16 + idx = cause
  rfl

/-- A latching demand outside split mode: its words, and the rods whose demand waits. -/
theorem demand_latching (hs : s.split = false) (hr : rods ≠ 0) : s.demand code sub idx rods spd true =
    (s.noteLatch (code * 2 ^ 24 + sub * 2 ^ 16 + idx) rods).setSafe { s.safe with
      recorded := true
      pendSgr := if spd then s.safe.pendSgr else s.safe.pendSgr ||| rods
      pendSpd := if spd then s.safe.pendSpd ||| rods else s.safe.pendSpd
      pendLatch := s.safe.pendLatch ||| rods } := by
  have hn : ¬(s.split = true ∨ rods = 0) := by
    rw [hs]
    simp [hr]
  rw [State.demand, if_neg hn, demandNote_latching hn]
  generalize s.noteLatch (code * 2 ^ 24 + sub * 2 ^ 16 + idx) rods = u
  rfl

/-! ## The ages of the trip-path tests (R413) -/

/-- What the tick of the ages does for a rod. -/
def State.ageStep (s : State) (r : Nat) : State :=
  let s := s.set pSAFE (SAFE.MON_STAT_TEST_AGE r) (s.testAge r)
  if s.testDue r ∧ !s.flag pSAFE (SAFE.MON_STAT_TEST_DUE r) then
    (s.set pSAFE (SAFE.MON_STAT_TEST_DUE r) 1).ev pSAFE 19
  else s

variable {r k : Nat}

theorem testAge_lt : s.testAge r < 2 ^ 16 := by
  unfold State.testAge
  split
  · exact Nat.lt_of_le_of_lt (Nat.min_le_right _ _) (by decide)
  · decide

theorem sameRegs_ageStep : SameRegs s (s.ageStep r) [(pSAFE, SAFE.MON_STAT r), (pSAFE, PG.EV_STAT)] := by
  have h : SameRegs s (s.set pSAFE (SAFE.MON_STAT_TEST_AGE r) (s.testAge r))
      [(pSAFE, SAFE.MON_STAT r), (pSAFE, PG.EV_STAT)] := sameRegs_refl.set (by simp)
  unfold State.ageStep
  extract_lets x
  split
  · exact (h.set (by simp)).ev (by simp)
  · exact h

theorem safe_ageStep : (s.ageStep r).safe = s.safe := by
  unfold State.ageStep
  extract_lets x
  split
  · rw [State.ev_safe, State.set_safe, State.set_safe]
  · rw [State.set_safe]

/-- The word of a rod's age is none of those that the tick writes for another rod. -/
theorem age_ne_words (h : r ≠ k) :
    ∀ e ∈ [(pSAFE, SAFE.MON_STAT r), (pSAFE, PG.EV_STAT)], bkey pSAFE (SAFE.MON_STAT k) ≠ bkey e.1 e.2 := by
  intro e he
  simp only [List.mem_cons, List.not_mem_nil, or_false] at he
  rcases he with rfl | rfl <;> simp only [bkey, SAFE.MON_STAT, PG.EV_STAT] <;> omega

theorem aon_ne_words (hr : r < 24) (ho : o < 4096) :
    ∀ e ∈ [(pSAFE, SAFE.MON_STAT r), (pSAFE, PG.EV_STAT)], bkey pAON o ≠ bkey e.1 e.2 := by
  intro e he
  simp only [List.mem_cons, List.not_mem_nil, or_false] at he
  rcases he with rfl | rfl
  · exact bkey_page (q := pSAFE) (by decide) ho (by simp only [SAFE.MON_STAT]; omega)
  · exact bkey_page (q := pSAFE) (by decide) ho (by decide)

theorem sameMem_ageStep (h : SameMem s t) : SameMem s (t.ageStep r) := by
  unfold State.ageStep
  extract_lets x
  have hx : SameMem s x := keeps_State_set (k0_sameMem s) h
  clear_value x
  exact keeps_ite (P := SameMem s) (keeps_State_ev (k0_sameMem s) (keeps_State_set (k0_sameMem s) hx)) hx

theorem get_ageStep_same : (s.ageStep r).get pSAFE (SAFE.MON_STAT_TEST_AGE r) = s.testAge r := by
  have h : (s.set pSAFE (SAFE.MON_STAT_TEST_AGE r) (s.testAge r)).get pSAFE (SAFE.MON_STAT_TEST_AGE r) =
      s.testAge r := by
    rw [get_set_same (by simp) (by simp)]
    exact Nat.mod_eq_of_lt testAge_lt
  unfold State.ageStep
  extract_lets x
  split
  · rw [get_ev (by simp [PG.EV_STAT, SAFE.MON_STAT]; omega), get_set_bits (f := SAFE.MON_STAT_TEST_DUE r)
      (g := SAFE.MON_STAT_TEST_AGE r) rfl (by simp) (by simp) (by simp) (by simp), h]
  · exact h

theorem testAge_ageStep (hr : r < 24) : (s.ageStep r).testAge k = s.testAge k := by
  have h : (s.ageStep r).reg64 pAON AON.CNT_LO = s.reg64 pAON AON.CNT_LO := by
    rw [State.reg64, State.reg64, sameRegs_ageStep.reg (aon_ne_words hr (by decide)),
      sameRegs_ageStep.reg (aon_ne_words hr (by decide))]
  rw [State.testAge, State.testAge, h, safe_ageStep]

theorem get_ageStep_off (h : r ≠ k) :
    (s.ageStep r).get pSAFE (SAFE.MON_STAT_TEST_AGE k) = s.get pSAFE (SAFE.MON_STAT_TEST_AGE k) := by
  exact sameRegs_ageStep.get (age_ne_words h)

theorem get_foldl_ageStep_off {l : List Nat} (h : k ∉ l) :
    (l.foldl State.ageStep s).get pSAFE (SAFE.MON_STAT_TEST_AGE k) = s.get pSAFE (SAFE.MON_STAT_TEST_AGE k) := by
  induction l generalizing s with
  | nil => rfl
  | cons r l ih =>
    rw [List.mem_cons, not_or] at h
    rw [List.foldl_cons, ih h.2, get_ageStep_off (Ne.symm h.1)]

theorem get_foldl_ageStep {l : List Nat} (hn : l.Nodup) (hl : ∀ r ∈ l, r < 24) (h : k ∈ l) :
    (l.foldl State.ageStep s).get pSAFE (SAFE.MON_STAT_TEST_AGE k) = s.testAge k := by
  induction l generalizing s with
  | nil => exact absurd h List.not_mem_nil
  | cons r l ih =>
    obtain ⟨hr, hn⟩ := List.nodup_cons.mp hn
    rw [List.foldl_cons]
    rcases List.mem_cons.mp h with rfl | h
    · rw [get_foldl_ageStep_off hr, get_ageStep_same]
    · rw [ih hn (fun j hj => hl j (List.mem_cons_of_mem r hj)) h, testAge_ageStep (hl r List.mem_cons_self)]

theorem sameRegs_safeStat : SameRegs s s.safeStat [(pSAFE, SAFE.STAT), (pSAFE, PG.EV_STAT)] := by
  unfold State.safeStat
  extract_lets a b c ok
  have h : SameRegs s c [(pSAFE, SAFE.STAT), (pSAFE, PG.EV_STAT)] :=
    ((sameRegs_refl.setB (by decide)).setB (by decide)).setB (by decide)
  clear_value c
  split
  · exact h
  · exact (h.setB (by decide)).ev (by decide)

theorem get_safeStat_age (s : State) (h : k < 24) :
    s.safeStat.get pSAFE (SAFE.MON_STAT_TEST_AGE k) = s.get pSAFE (SAFE.MON_STAT_TEST_AGE k) := by
  refine sameRegs_safeStat.get ?_
  simp [bkey, pSAFE, SAFE.STAT, SAFE.MON_STAT, PG.EV_STAT]
  omega

end

theorem safetyCycles : Claims.SafetyCycles := by
  unfold Claims.SafetyCycles
  intro s
  refine ⟨fun rb busy h => ?runs, fun rb busy h => ?held, fun r h => ?resend, fun r h => ?quiet,
    ⟨(allRods.foldl State.ageStep s).safeStat, rfl, fun r => ?age, ?mem⟩, fun h => ?split, fun h => ?jammed⟩
  case runs => exact congrArg Outcome.next (if_pos h)
  case held => exact congrArg Outcome.next (if_neg (Bool.eq_false_iff.mp h))
  case resend => exact congrArg Outcome.next (if_pos h)
  case quiet => exact congrArg Outcome.next (if_neg (Bool.eq_false_iff.mp h))
  case age =>
    exact (get_safeStat_age _ r.isLt).trans (get_foldl_ageStep List.nodup_range (fun _ => List.mem_range.mp)
      (List.mem_range.mpr r.isLt))
  case mem =>
    exact keeps_State_safeStat (k0_sameMem s) (keeps_foldl (P := SameMem s) (sameMem_refl s) (fun _ _ => sameMem_ageStep))
  case split => exact congrArg Outcome.next (if_pos h)
  case jammed => exact congrArg Outcome.next (if_neg (Bool.eq_false_iff.mp h))

section

variable {s t : State} {l : List (Nat × Nat)} {i j : Nat} {v : Bool}

/-! ## Inputs (R401, R402) -/

theorem inCfg_ne_words (hl : ∀ e ∈ l, e.1 = pSAFE ∧ e.2 < 0x80) : ∀ e ∈ l, bkey pSAFE (SAFE.IN_CFG j) ≠ bkey e.1 e.2 := by
  intro e he
  obtain ⟨h1, h2⟩ := hl e he
  rw [h1, Ne, bkey_off]
  simp only [SAFE.IN_CFG]
  omega

theorem inGroup_of_same (h : SameRegs s t l) (hl : ∀ e ∈ l, e.1 = pSAFE ∧ e.2 < 0x80) : t.inGroup j = s.inGroup j := by
  simp only [State.inGroup, h.flag (f := SAFE.IN_CFG_PAIR (j / 2 * 2)) (inCfg_ne_words hl),
    h.flag (f := SAFE.IN_CFG_EN (j / 2 * 2)) (inCfg_ne_words hl), h.flag (f := SAFE.IN_CFG_EN j) (inCfg_ne_words hl)]

theorem split_of_same (h : SameRegs s t l) (hl : ∀ e ∈ l, e.1 = pSAFE ∧ e.2 < 0x80) : t.split = s.split := by
  refine h.flag fun e he => ?_
  obtain ⟨h1, h2⟩ := hl e he
  rw [h1]
  exact bkey_page (by decide) (by decide) (lt_trans h2 (by decide))

/-- An input's level is stored. -/
def State.inTake (s : State) (i : Nat) (v : Bool) : State :=
  (s.setBit pSAFE SAFE.IN_STAT (8 + i) v).setBit pSAFE SAFE.IN_STAT (16 + i) v

theorem sameRegs_inTake : SameRegs s (s.inTake i v) [(pSAFE, SAFE.IN_STAT)] :=
  (sameRegs_refl.setBit (by simp)).setBit (by simp)

theorem inHigh_inTake (h : i < 8) : (s.inTake i v).inHigh i = v := by
  rw [State.inTake, State.inHigh, bit_setBit_bits (by omega) (by omega), bit_setBit_same (by omega)]

theorem inHigh_inTake_off (h : i < 8) (hj : j < 8) (hne : j ≠ i) : (s.inTake i v).inHigh j = s.inHigh j := by
  rw [State.inTake, State.inHigh, bit_setBit_bits (by omega) (by omega), bit_setBit_bits (by omega) (by omega),
    State.inHigh]

theorem sameRegs_showIn : SameRegs s s.showIn [(pSAFE, SAFE.IN_STAT)] := sameRegs_refl.set (by simp)

theorem inHigh_showIn (h : i < 8) : s.showIn.inHigh i = s.inHigh i := by
  rw [State.showIn, State.inHigh, State.inHigh, bit_eq_get, bit_eq_get,
    get_set_bits (f := ⟨SAFE.IN_STAT, 7, 0⟩) (g := ⟨SAFE.IN_STAT, 8 + i, 8 + i⟩) rfl (by decide) (by decide)
      (Nat.le_refl _) (.inr (by simp only; omega))]

theorem inLevel_quiet (h : s.safe.disc = 0) : s.inLevel i v =
    if v then (s.inTake i v).showIn else (s.inTake i v).showIn.demandIn i := by
  have hd : (s.inTake i v).safe.disc.testBit (i / 2) = false := by
    rw [show (s.inTake i v).safe.disc = 0 from h]
    exact Nat.zero_testBit _
  unfold State.inLevel
  extract_lets u m a b x bit x' t
  have hx : x' = u.safe := by
    refine (if_neg ?_).trans (if_neg ?_)
    · rw [show x.disc.testBit m = false from hd]
      exact Bool.false_ne_true
    · rw [show x.disc.testBit m = false from hd]
      exact Bool.false_ne_true
  have ht : t = (s.inTake i v).showIn := congrArg (fun x => (u.setSafe x).showIn) hx
  rw [ht]

theorem safe_inTake_showIn : (s.inTake i v).showIn.safe = s.safe := by
  rw [State.showIn, State.set_safe, State.inTake, State.setBit_safe, State.setBit_safe]

theorem sameRegs_inTake_showIn : SameRegs s (s.inTake i v).showIn [(pSAFE, SAFE.IN_STAT)] :=
  sameRegs_inTake.trans sameRegs_showIn

theorem sameMem_inTake_showIn : SameMem s (s.inTake i v).showIn :=
  keeps_State_showIn (k0_sameMem s) (keeps_State_setBit (k0_sameMem s) (keeps_State_setBit (k0_sameMem s) (sameMem_refl s)))

theorem inHigh_inTake_showIn (h : i < 8) : (s.inTake i v).showIn.inHigh i = v :=
  (inHigh_showIn h).trans (inHigh_inTake h)

/-- The record of the safety functions after a latching demand of an input. -/
def SafeX.took (x : SafeX) (spd : Bool) (rods : Nat) : SafeX :=
  { x with
    recorded := true
    pendSgr := if spd then x.pendSgr else x.pendSgr ||| rods
    pendSpd := if spd then x.pendSpd ||| rods else x.pendSpd
    pendLatch := x.pendLatch ||| rods }

theorem disc_took {b : Bool} {rods : Nat} : (t.setSafe (s.safe.took b rods)).safe.disc = s.safe.disc := rfl

theorem demandIn_some {g : Nat × Bool} {rods : Nat} (hs : s.split = false) (hg : s.inGroup i = some g)
    (hr : s.get pSAFE (SAFE.IN_CFG_RODS g.1) = rods) (h0 : rods ≠ 0) : s.demandIn i =
    (s.noteLatch (1 * 2 ^ 24 + b2n (g.2 && s.safe.disc.testBit (i / 2)) * 2 ^ 16 + g.1) rods).setSafe
      (s.safe.took (s.flag pSAFE (SAFE.IN_CFG_ACT g.1)) rods) := by
  subst hr
  rw [State.demandIn, hg]
  exact demand_latching hs h0

theorem demandIn_none {g : Nat × Bool} (hg : s.inGroup i = some g) (hr : s.get pSAFE (SAFE.IN_CFG_RODS g.1) = 0) :
    s.demandIn i = s := by
  rw [State.demandIn, hg]
  simp only [hr]
  exact if_pos (.inr rfl)

/-- A pair of inputs comes into discrepancy. -/
def State.disagree (s : State) (m : Nat) : State :=
  ((s.setSafe { s.safe with
    disc := s.safe.disc ||| 2 ^ m
    discLow := if s.safe.discLow.testBit m then s.safe.discLow ^^^ 2 ^ m else s.safe.discLow }).showIn).err pSAFE 20

/-- The words that a discrepancy writes before its demand. -/
def disagreeWords : List (Nat × Nat) :=
  [(pSAFE, SAFE.IN_STAT), (pSAFE, PG.ERR), (pSAFE, PG.ERRCNT), (pSAFE, PG.EV_STAT)]

theorem sameRegs_disagree : SameRegs s (s.disagree j) disagreeWords :=
  SameRegs.err (sameRegs_refl.setSafe.set (by decide)) (by decide) (by decide) (by decide)

theorem sameMem_disagree : SameMem s (s.disagree j) :=
  keeps_State_err (k0_sameMem s) (keeps_State_showIn (k0_sameMem s) (keeps_State_setSafe (k0_sameMem s) (sameMem_refl s)))

theorem disc_disagree : (s.disagree j).safe.disc = s.safe.disc ||| 2 ^ j := by
  rw [State.disagree, State.err_safe]
  rfl

theorem err_disagree : (s.disagree j).bit pSAFE PG.ERR 20 = true := bit_err (by decide)

/-! ## Samples in REST (R402) -/

theorem word_wakeCause {p o c : Nat} (hr : p ≠ pREST) (hc : p ≠ pCLK) (ho : o < 4096) :
    (s.wakeCause c).word p o = s.word p o := by
  have hset : ∀ (u : State) (f : Fld) (x : Nat), f.off < 4096 → (u.set pREST f x).word p o = u.word p o :=
    fun u f x hf => word_setWord_page hr ho hf
  have hclk : ∀ (u : State) (b : Bool), (u.clk CLK.STAT_RC16_ON b).word p o = u.word p o := fun u b => by
    unfold State.clk
    split
    · rfl
    · rw [State.ev, State.setBit, State.setB, State.setB, State.set, word_setWord_page hc ho (by decide), State.set,
        word_setWord_page hc ho (by decide)]
  have hrest : ∀ (u : State) (x : RestX), (u.setRest x).word p o = u.word p o := fun _ _ => word_eq_of_board rfl
  let P : State → Prop := fun t => t.word p o = s.word p o
  have hP : ∀ {c : Prop} [Decidable c] {x y : State}, P x → P y → P (if c then x else y) := keeps_ite (P := P)
  unfold State.wakeCause
  extract_lets a en entering acts dst b
  have ha : P a := hP rfl ((hset _ _ _ (by decide)).trans (hset _ ⟨REST.WAKE_CAUSE, c, c⟩ _ (by simp [REST.WAKE_CAUSE])))
  clear_value a
  have hb : P b := hP ((hset _ _ _ (by decide)).trans ((hset _ _ _ (by decide)).trans ha)) ha
  clear_value b
  refine hP (hP ((hrest _ _).trans hb) ?_) ha
  have h' : P ((b.set pREST REST.STAT_WAKING 1).setRest { b.rest with wakeTo := min dst b.dev, cause := c }) :=
    (hrest _ _).trans ((hset _ _ _ (by decide)).trans hb)
  exact hP ((hclk _ _).trans h') h'

theorem inHigh_wakeCause {c : Nat} : (s.wakeCause c).inHigh j = s.inHigh j := by
  rw [State.inHigh, State.inHigh, State.bit, State.bit, State.reg, State.reg,
    word_wakeCause (by decide) (by decide) (by decide)]

theorem restInput_high (h : s.inHigh i = true) : s.restInput i true = s := by
  have e : (if ((s.inGroup i).isNone || true || s.safe.restLow.any (fun e => e.1 == i)) = true then s
      else s.setSafe { s.safe with restLow := s.safe.restLow ++ [(i, s.ns)] }) = s :=
    if_pos (by rw [Bool.or_true, Bool.true_or])
  unfold State.restInput
  rw [e]
  exact if_pos h

theorem foldl_restInput_high {l : List Nat} {n : Nat} (hl : ∀ j ∈ l, s.inHigh j = true ∧ n.testBit j = true) :
    l.foldl (fun s i => s.restInput i (n.testBit i)) s = s := by
  induction l with
  | nil => rfl
  | cons j l ih =>
    obtain ⟨h, hn⟩ := hl j List.mem_cons_self
    rw [List.foldl_cons, hn, restInput_high h]
    exact ih (fun k hk => hl k (List.mem_cons_of_mem j hk))

/-- The first low sample of an input is kept. -/
def State.keepLow (s : State) (i : Nat) : State :=
  (s.setSafe { s.safe with restLow := [(i, s.ns)] }).inTake i false

theorem restInput_low (h : s.inHigh i = true) (hg : (s.inGroup i).isSome = true)
    (hl : s.safe.restLow = []) : s.restInput i false =
      if s.bit pAON AON.SAFE_WAKE i then (s.keepLow i).wakeCause wcSAFE else s.keepLow i := by
  have e : (if ((s.inGroup i).isNone || false || s.safe.restLow.any (fun e => e.1 == i)) = true then s
      else s.setSafe { s.safe with restLow := s.safe.restLow ++ [(i, s.ns)] }) =
        s.setSafe { s.safe with restLow := [(i, s.ns)] } := by
    rw [hl, if_neg (by rw [Option.isNone_eq_false_iff.mpr hg]; exact Bool.false_ne_true)]
    rfl
  have hw : (s.keepLow i).bit pAON AON.SAFE_WAKE i = s.bit pAON AON.SAFE_WAKE i := by
    rw [State.keepLow, sameRegs_inTake.bit (by decide), bit_eq_of_board State.setSafe_board]
  unfold State.restInput
  rw [e, ← hw]
  refine if_neg (fun hv => ?_)
  exact Bool.false_ne_true (hv.symm.trans ((bit_eq_of_board State.setSafe_board).trans h))

theorem rods_lt : s.get pSAFE (SAFE.IN_CFG_RODS i) < 2 ^ 32 := lt_trans get_lt (by simp [Fld.width])

theorem State.inGroup_setSafe {x : SafeX} : (s.setSafe x).inGroup i = s.inGroup i := rfl

theorem State.inHigh_setSafe {x : SafeX} : (s.setSafe x).inHigh i = s.inHigh i := rfl

theorem demandWords_pSAFE : ∀ e ∈ demandWords, e.1 = pSAFE ∧ e.2 < 0x80 := by decide

end

theorem safetyInputs : Claims.SafetyInputs := by
  unfold Claims.SafetyInputs
  intro i s hs
  have hi := i.isLt
  refine ⟨fun rods hr h0 he hp hd => ?low, fun hd => ?high, fun m hg hne => ?discrepancy, fun m h => ?agrees,
    fun h l => ?awake, fun hd hh => ⟨?same, fun hg hl => ?first⟩⟩
  case low =>
    have hu := sameRegs_inTake_showIn (s := s) (i := i) (v := false)
    have hub : ∀ e ∈ [(pSAFE, SAFE.IN_STAT)], e.1 = pSAFE ∧ e.2 < 0x80 := by decide
    have hm := sameMem_inTake_showIn (s := s) (i := i) (v := false)
    have hsafe := safe_inTake_showIn (s := s) (i := i) (v := false)
    have hlo := inHigh_inTake_showIn (s := s) (v := false) hi
    have hg : s.inGroup i = some (i.val, false) := by
      rw [State.inGroup, hp, he]
      rfl
    have hrods : s.get pSAFE (SAFE.IN_CFG_RODS i) < 2 ^ 32 := rods_lt
    rw [← hr] at hrods
    have e : exec (.safeInLevel i false) s = .next (s.inLevel i false) :=
      congrArg Outcome.next (if_neg (Bool.eq_false_iff.mp hs))
    rw [inLevel_quiet hd, if_neg Bool.false_ne_true] at e
    generalize (s.inTake i false).showIn = u at *
    rw [demandIn_some ((split_of_same hu hub).trans hs) ((inGroup_of_same hu hub).trans hg)
      ((hu.get (inCfg_ne_words hub)).trans hr.symm) h0, hsafe, Bool.false_and] at e
    have hc : 1 * 2 ^ 24 + b2n false * 2 ^ 16 + i.val = 2 ^ 24 + i.val := by simp [b2n]
    rw [hc] at e
    have hw := sameRegs_noteLatch (s := u) (cause := 2 ^ 24 + i.val) (rods := rods)
    have hh := (hw.bit (p := pSAFE) (o := SAFE.IN_STAT) (i := 8 + i.val) (by decide)).trans hlo
    have hgu := (inGroup_of_same (j := i.val) hw demandWords_pSAFE).trans ((inGroup_of_same hu hub).trans hg)
    have hlatch := latch_noteLatch (s := u) (cause := 2 ^ 24 + i.val) hrods
    rw [hu.reg (by decide)] at hlatch
    have hrec := cause_noteLatch_recorded (s := u) (cause := 2 ^ 24 + i.val) (rods := rods)
    have hfst := fun h => cause_noteLatch_first (s := u) (cause := 2 ^ 24 + i.val) (rods := rods) h (by omega)
    have hfr := fun h => causeRods_noteLatch_first (s := u) (cause := 2 ^ 24 + i.val) h hrods
    rw [hsafe] at hrec hfst hfr
    rw [hu.word (by decide)] at hrec
    have hmem := sameMem_noteLatch (cause := 2 ^ 24 + i.val) (rods := rods) hm
    generalize u.noteLatch (2 ^ 24 + i.val) rods = x at *
    refine ⟨_, e, (bit_eq_of_board State.setSafe_board).trans hh, ?_,
      (reg_eq_of_board State.setSafe_board).trans hlatch, rfl, rfl,
      fun h => (word_eq_of_board State.setSafe_board).trans (hrec h),
      fun h => ⟨(reg_eq_of_board State.setSafe_board).trans (hfst h),
        (reg_eq_of_board State.setSafe_board).trans (hfr h)⟩, ?_, ?_⟩
    · rw [State.inDemand, State.inGroup_setSafe, hgu]
      simp only [State.inHigh_setSafe]
      rw [show x.inHigh i = false from hh]
      rfl
    · exact ((hu.mono (by decide)).trans (hw.mono (by decide))).setSafe
    · exact keeps_State_setSafe (k0_sameMem s) hmem
  case high =>
    have e : exec (.safeInLevel i true) s = .next (s.inLevel i true) :=
      congrArg Outcome.next (if_neg (Bool.eq_false_iff.mp hs))
    rw [inLevel_quiet hd, if_pos rfl] at e
    exact ⟨_, e, inHigh_inTake_showIn hi, sameRegs_inTake_showIn, sameMem_inTake_showIn⟩
  case discrepancy =>
    have hgs : ¬(s.split = true ∨ (s.inGroup (2 * m.val)).map Prod.snd ≠ some true ∨
        s.inHigh (2 * m.val) = s.inHigh (2 * m.val + 1)) := by
      rw [hs, hg]
      simpa using hne
    have e : exec (.pairDiscrepancy m) s = .next ((s.disagree m).demandIn (2 * m.val)) :=
      congrArg Outcome.next (if_neg hgs)
    have hu := sameRegs_disagree (s := s) (j := m.val)
    have hub : ∀ e ∈ disagreeWords, e.1 = pSAFE ∧ e.2 < 0x80 := by decide
    have hm := sameMem_disagree (s := s) (j := m.val)
    have hd := disc_disagree (s := s) (j := m.val)
    have he := err_disagree (s := s) (j := m.val)
    have hl := hu.reg (p := pSAFE) (o := SAFE.LATCH) (by decide)
    have hg' := (inGroup_of_same (j := 2 * m.val) hu hub).trans hg
    have hs' := (split_of_same hu hub).trans hs
    have hr := hu.get (f := SAFE.IN_CFG_RODS (2 * m.val)) (inCfg_ne_words hub)
    generalize s.disagree m = u at *
    by_cases h0 : u.get pSAFE (SAFE.IN_CFG_RODS (2 * m.val)) = 0
    · rw [demandIn_none hg' h0] at e
      refine ⟨u, e, hd, he, ?_, hm⟩
      rw [← hr, h0, hl, Nat.or_zero]
    · have hlt : u.get pSAFE (SAFE.IN_CFG_RODS (2 * m.val)) < 2 ^ 32 := rods_lt
      rw [demandIn_some hs' hg' rfl h0] at e
      refine ⟨_, e, disc_took.trans hd, ?_, ?_, ?_⟩
      · exact (bit_eq_of_board State.setSafe_board).trans ((sameRegs_noteLatch.bit (by decide)).trans he)
      · rw [reg_eq_of_board State.setSafe_board, latch_noteLatch hlt, hl, hr]
      · exact keeps_State_setSafe (k0_sameMem s) (sameMem_noteLatch hm)
  case agrees =>
    refine congrArg Outcome.next (if_pos ?_)
    rcases h with h | h
    · exact .inr (.inl h)
    · exact .inr (.inr h)
  case awake => exact congrArg Outcome.next (if_pos h)
  case same =>
    refine congrArg Outcome.next ((if_neg (fun h => h hd)).trans (foldl_restInput_high fun j hj => ⟨?_, ?_⟩))
    · exact hh j (List.mem_range.mp hj)
    · have h8 := List.mem_range.mp hj
      clear hj
      interval_cases j <;> rfl
  case first =>
    have h0 := restInput_low (i := 0) (hh 0 (by decide)) hg hl
    have hk : ∀ j ∈ [1, 2, 3, 4, 5, 6, 7], (s.keepLow 0).inHigh j = true := fun j hj => by
      have h8 : j < 8 ∧ j ≠ 0 := (by decide : ∀ j ∈ [1, 2, 3, 4, 5, 6, 7], j < 8 ∧ j ≠ 0) j hj
      rw [State.keepLow, inHigh_inTake_off (by decide) h8.1 h8.2]
      exact hh j h8.1
    have hbits : ∀ j ∈ [1, 2, 3, 4, 5, 6, 7], Nat.testBit 254 j = true := by decide
    have e : exec (.safeInRestSample 254) s =
        .next ((List.range 8).foldl (fun s i => s.restInput i (Nat.testBit 254 i)) s) :=
      congrArg Outcome.next (if_neg (fun h => h hd))
    rw [show List.range 8 = 0 :: [1, 2, 3, 4, 5, 6, 7] from rfl, List.foldl_cons,
      show Nat.testBit 254 0 = false from rfl] at e
    rw [h0] at e
    dsimp only
    constructor
    · intro hw
      rw [if_pos hw] at e
      rw [e, foldl_restInput_high (fun j hj => ⟨inHigh_wakeCause.trans (hk j hj), hbits j hj⟩)]
      rfl
    · intro hw
      rw [if_neg (Bool.eq_false_iff.mp hw)] at e
      rw [e, foldl_restInput_high (fun j hj => ⟨hk j hj, hbits j hj⟩)]
      rfl

/-- Settles O47: the words of a demand are read after each write, and the inputs of a sample in REST that have not
changed change nothing. -/
theorem safetyDemands : Obligations.SafetyDemands := ⟨safetyCycles, safetyInputs⟩

end Sys2Proof.Machine

/-! PROOFS. The safety reset and the pair's own faults (spec/16, R403, R404, R410, R412, R415). -/

namespace Sys2Proof.Machine

open Host (Outcome)

section

variable {s t : State} {p o i : Nat} {l : List Nat}

/-! ## Clearing bits of a register -/

theorem reg_lt : s.reg p o < 2 ^ 32 := BitVec.isLt _

theorem reg_setBit_clear (h : i < 32) :
    (s.setBit p o i false).reg p o = s.reg p o &&& (2 ^ 32 - 1 - 2 ^ i) := by
  have e : 2 ^ 32 - 1 - 2 ^ i = 2 ^ 32 - (2 ^ i + 1) := by omega
  refine Nat.eq_of_testBit_eq fun j => ?_
  rw [e, Nat.testBit_and, Nat.testBit_two_pow_sub_succ (Nat.pow_lt_pow_right (by decide) h)]
  by_cases hj : j < 32
  · by_cases hji : j = i
    · subst hji
      have hb : ((s.setBit p o j false).reg p o).testBit j = false := bit_setBit_same h
      rw [hb, Nat.testBit_two_pow_self, Bool.not_true, Bool.and_false, Bool.and_false]
    · have hb : ((s.setBit p o i false).reg p o).testBit j = (s.reg p o).testBit j := bit_setBit_bits h hji
      rw [hb, Nat.testBit_two_pow_of_ne (Ne.symm hji), Bool.not_false, Bool.and_true, decide_eq_true hj, Bool.and_true]
  · have hbig : ∀ x : State, (x.reg p o).testBit j = false := fun x =>
      Nat.testBit_lt_two_pow (lt_of_lt_of_le reg_lt (Nat.pow_le_pow_right (by decide) (Nat.not_lt.mp hj)))
    rw [hbig, hbig, Bool.false_and]

theorem reg_foldl_setBit_clear (hl : ∀ i ∈ l, i < 32) : (l.foldl (fun s r => s.setBit p o r false) s).reg p o =
    l.foldl (fun m r => m &&& (2 ^ 32 - 1 - 2 ^ r)) (s.reg p o) := by
  induction l generalizing s with
  | nil => rfl
  | cons i l ih =>
    rw [List.foldl_cons, List.foldl_cons, ih (fun j hj => hl j (List.mem_cons_of_mem i hj)),
      reg_setBit_clear (hl i List.mem_cons_self)]

theorem sameRegs_foldl_setBit {b : Bool} : SameRegs s (l.foldl (fun s r => s.setBit p o r b) s) [(p, o)] := by
  induction l generalizing s with
  | nil => exact sameRegs_refl
  | cons i l ih =>
    rw [List.foldl_cons]
    exact (sameRegs_refl.setBit (by simp)).trans ih

theorem safe_foldl_setBit {b : Bool} : (l.foldl (fun s r => s.setBit p o r b) s).safe = s.safe := by
  induction l generalizing s with
  | nil => rfl
  | cons i l ih => rw [List.foldl_cons, ih, State.setBit_safe]

/-! ## Driving the outputs -/

theorem sameRegs_driveOuts : SameRegs s s.driveOuts [(pSAFE, SAFE.OUT_STAT)] := by
  unfold State.driveOuts
  generalize List.range 4 = l
  induction l generalizing s with
  | nil => exact sameRegs_refl
  | cons k l ih =>
    rw [List.foldl_cons]
    refine SameRegs.trans ?_ ih
    extract_lets v
    exact SameRegs.ite sameRegs_refl (sameRegs_refl.setBit (by simp)).send

theorem safe_driveOuts : s.driveOuts.safe = s.safe := by
  unfold State.driveOuts
  generalize List.range 4 = l
  induction l generalizing s with
  | nil => rfl
  | cons k l ih =>
    rw [List.foldl_cons, ih]
    extract_lets v
    split
    · rfl
    · rw [State.send_safe, State.setBit_safe]

/-! ## A safety reset request (R404) -/

/-- The words that a request clears and sets before it frees rods. -/
def resetWords : List (Nat × Nat) :=
  [(pSAFE, SAFE.LATCH), (pSAFE, PG.ERR), (pSAFE, PG.ERRCNT), (pSAFE, PG.EV_STAT)]

/-- A request, before it frees rods: LATCH keeps `keep`, and `gone` is what it loses. -/
def State.resetLatch (s : State) (keep gone : Nat) : State :=
  let s := (s.setSafe { s.safe with recorded := false }).setReg pSAFE SAFE.LATCH keep
  let s := if keep = 0 then s else s.err pSAFE 17
  if gone = 0 then s else s.ev pSAFE 17

/-- The rods of `gone` leave the SGR block, unless it is held. -/
def State.freeRods (s : State) (gone : Nat) : State :=
  if s.sgrHold then s else (bitsSet 24 gone).foldl (fun s r => s.setBit pSAFE SAFE.SGR_MAP r false) s

variable {keep gone : Nat}

theorem safetyReset_eq : s.safetyReset = ((s.resetLatch (s.reg pSAFE SAFE.LATCH &&& s.causeRods)
    (s.reg pSAFE SAFE.LATCH ^^^ (s.reg pSAFE SAFE.LATCH &&& s.causeRods))).freeRods
      (s.reg pSAFE SAFE.LATCH ^^^ (s.reg pSAFE SAFE.LATCH &&& s.causeRods))).driveOuts := rfl

theorem sameRegs_resetLatch : SameRegs s (s.resetLatch keep gone) resetWords := by
  unfold State.resetLatch
  extract_lets x a b
  have ha : SameRegs s a resetWords := sameRegs_refl.setSafe.setReg (by decide)
  clear_value a
  have hb : SameRegs s b resetWords := ha.ite (ha.err (by decide) (by decide) (by decide))
  clear_value b
  exact hb.ite (hb.ev (by decide))

theorem latch_resetLatch (h : keep < 2 ^ 32) : (s.resetLatch keep gone).reg pSAFE SAFE.LATCH = keep := by
  unfold State.resetLatch
  extract_lets x a b
  have ha : a.reg pSAFE SAFE.LATCH = keep := by
    rw [reg_setReg_same]
    exact Nat.mod_eq_of_lt h
  clear_value a
  have hb : b.reg pSAFE SAFE.LATCH = keep := by
    unfold b
    split
    · exact ha
    · rw [reg_err (by decide) (by decide) (by decide), ha]
  clear_value b
  split
  · exact hb
  · rw [reg_ev (by decide), hb]

theorem err_resetLatch (h : keep ≠ 0) : (s.resetLatch keep gone).bit pSAFE PG.ERR 17 = true := by
  unfold State.resetLatch
  extract_lets x a b
  have hb : b.bit pSAFE PG.ERR 17 = true := by
    unfold b
    rw [if_neg h]
    exact bit_err (by decide)
  clear_value b
  split
  · exact hb
  · rw [State.bit, reg_ev (by decide)]
    exact hb

theorem safe_resetLatch : (s.resetLatch keep gone).safe = { s.safe with recorded := false } := by
  unfold State.resetLatch
  extract_lets x a b
  have ha : a.safe = { s.safe with recorded := false } := by
    unfold a
    rw [State.setReg_safe]
    rfl
  clear_value a
  have hb : b.safe = a.safe := by
    unfold b
    split
    · rfl
    · rw [State.err_safe]
  clear_value b
  split
  · exact hb.trans ha
  · rw [State.ev_safe, hb, ha]

theorem boot_resetLatch : (s.resetLatch keep gone).boot = s.boot := by
  unfold State.resetLatch
  extract_lets x a b
  have ha : a.boot = s.boot := by
    unfold a
    rw [State.setReg_boot, State.setSafe_boot]
  clear_value a
  have hb : b.boot = s.boot := by
    unfold b
    split
    · exact ha
    · rw [State.err_boot, ha]
  clear_value b
  split
  · exact hb
  · rw [State.ev_boot, hb]

theorem sgrHold_resetLatch : (s.resetLatch keep gone).sgrHold = s.sgrHold := by
  have h := sameRegs_resetLatch (s := s) (keep := keep) (gone := gone)
  rw [State.sgrHold, State.sgrHold, State.lowOuts, State.lowOuts, State.locked, State.locked, boot_resetLatch,
    h.reg (by decide), h.flag (by decide), h.flag (by decide)]

theorem sameRegs_freeRods : SameRegs s (s.freeRods gone) [(pSAFE, SAFE.SGR_MAP)] := by
  unfold State.freeRods
  exact SameRegs.ite sameRegs_refl sameRegs_foldl_setBit

theorem safe_freeRods : (s.freeRods gone).safe = s.safe := by
  unfold State.freeRods
  split
  · rfl
  · exact safe_foldl_setBit

theorem bitsSet_gone {a c n : Nat} : bitsSet n (a ^^^ (a &&& c)) =
    (List.range n).filter (fun r => a.testBit r && !c.testBit r) := by
  refine List.filter_congr fun r _ => ?_
  rw [Nat.testBit_xor, Nat.testBit_and]
  cases a.testBit r <;> cases c.testBit r <;> rfl

theorem keep_lt : s.reg pSAFE SAFE.LATCH &&& s.causeRods < 2 ^ 32 := lt_of_le_of_lt Nat.and_le_left reg_lt

end

theorem safetyResets : Claims.SafetyResets := by
  unfold Claims.SafetyResets
  refine ⟨fun ms s h => ?split, fun ms s hs hj => ?jam, fun s hs hj => ⟨fun ms h1 h2 => ?request, fun ms h => ?short,
    fun ms h => ?long, ?latch, fun h => ?err, ?recorded, fun h => ?held, fun h => ?freed⟩⟩
  case split => exact congrArg Outcome.next (if_pos h)
  case jam => exact congrArg Outcome.next ((if_neg (Bool.eq_false_iff.mp hs)).trans (if_pos hj))
  case request =>
    refine congrArg Outcome.next ((if_neg (Bool.eq_false_iff.mp hs)).trans ((if_neg (Bool.eq_false_iff.mp hj)).trans
      ((if_neg (Nat.not_lt.mpr h2)).trans ((if_neg (Nat.not_lt.mpr h1)).trans ?_))))
    rw [Nat.min_eq_left (by omega)]
  case short =>
    refine congrArg Outcome.next ((if_neg (Bool.eq_false_iff.mp hs)).trans ((if_neg (Bool.eq_false_iff.mp hj)).trans
      ((if_neg (by omega)).trans ((if_pos h).trans ?_))))
    rw [Nat.min_eq_left (by omega)]
  case long =>
    exact congrArg Outcome.next ((if_neg (Bool.eq_false_iff.mp hs)).trans ((if_neg (Bool.eq_false_iff.mp hj)).trans
      (if_pos h)))
  case latch =>
    rw [safetyReset_eq, sameRegs_driveOuts.reg (by decide), sameRegs_freeRods.reg (by decide), latch_resetLatch keep_lt]
  case err =>
    rw [safetyReset_eq, sameRegs_driveOuts.bit (by decide), sameRegs_freeRods.bit (by decide), err_resetLatch h]
  case recorded => rw [safetyReset_eq, safe_driveOuts, safe_freeRods, safe_resetLatch]
  case held =>
    rw [safetyReset_eq, sameRegs_driveOuts.reg (by decide), State.freeRods, sgrHold_resetLatch, if_pos h,
      sameRegs_resetLatch.reg (by decide)]
  case freed =>
    rw [safetyReset_eq, sameRegs_driveOuts.reg (by decide), State.freeRods, sgrHold_resetLatch,
      if_neg (Bool.eq_false_iff.mp h), bitsSet_gone, reg_foldl_setBit_clear, sameRegs_resetLatch.reg (by decide)]
    intro r hr
    exact lt_trans (List.mem_range.mp (List.mem_filter.mp hr).1) (by decide)

section

variable {s : State}

/-! ## The pair's own faults (R410, R412, R415) -/

/-- A corrected error of the pair's memory at an address. -/
def State.pairCorrected (s : State) (addr : Nat) : State :=
  ((s.incF pSPAIR ⟨SPAIR.ECC_CNT, 15, 0⟩).setReg pSPAIR SPAIR.ECC_ADDR (addr % 2 ^ 17 * 4)).ev pSPAIR 16

theorem pairEcc_double {a pc : Nat} (ha : a < 2 ^ 17) : s.pairEcc .double a pc =
    if s.split then s.setReg pSPAIR SPAIR.ECC_ADDR (2 ^ 31 + a * 4)
    else (s.setReg pSPAIR SPAIR.ECC_ADDR (2 ^ 31 + a * 4)).pairFault (some SPAIR.STAT_ECC_FATAL) pc := by
  have e : ∀ v, (s.setReg pSPAIR SPAIR.ECC_ADDR v).split = s.split := fun v => flag_setReg_off (by decide)
  rw [State.pairEcc, e, Nat.mod_eq_of_lt ha]

end

theorem pairFaults : Claims.PairFaults := by
  unfold Claims.PairFaults
  intro a pc s
  refine ⟨fun h => ⟨?mismatchSplit, ?wdtSplit⟩, fun h => ⟨?mismatch, fun hp => ?wdt, fun hp => ?hold, ?double⟩, ?corrected,
    fun h => ?doubleSplit, rfl, fun _ => rfl⟩
  case mismatchSplit => exact congrArg Outcome.next (if_pos h)
  case wdtSplit => exact congrArg Outcome.next (if_pos h)
  case mismatch => exact congrArg Outcome.next (if_neg (Bool.eq_false_iff.mp h))
  case wdt =>
    exact congrArg Outcome.next ((if_neg (Bool.eq_false_iff.mp h)).trans (if_neg (Bool.eq_false_iff.mp hp)))
  case hold => exact congrArg Outcome.next ((if_neg (Bool.eq_false_iff.mp h)).trans (if_pos hp))
  case double =>
    exact congrArg Outcome.next ((pairEcc_double a.isLt).trans (if_neg (Bool.eq_false_iff.mp h)))
  case doubleSplit => exact congrArg Outcome.next ((pairEcc_double a.isLt).trans (if_pos h))
  case corrected =>
    refine ⟨s.pairCorrected a, rfl, ?_, ?_, ?_, ?_, ?_⟩
    · rw [State.pairCorrected, reg_ev (by decide), reg_setReg_same]
      omega
    · rw [State.pairCorrected, get_ev (by decide), get_setReg_off (by decide), get_incF_same (by decide) (by decide)]
      rfl
    · exact bit_ev (by decide)
    · exact SameRegs.ev ((sameRegs_refl.incF (by decide)).setReg (by decide)) (by decide)
    · exact keeps_State_ev (k0_sameMem s) (keeps_State_setReg (k0_sameMem s) (keeps_State_incF (k0_sameMem s)
        (sameMem_refl s)))

/-- Settles O48: a request's steps are read one by one, and the pair's faults are the model's case distinctions. -/
theorem safetyResetsAndFaults : Obligations.SafetyResetsAndFaults := ⟨safetyResets, pairFaults⟩

end Sys2Proof.Machine

/-! PROOFS. Safe messages (spec/16, R406 to R409). -/

namespace Sys2Proof.Machine

open Host (Outcome)

section

variable {s t : State} {j k : Nat}

/-! ## Sending (R406, R407) -/

/-- The flood of a message leaves the safety functions' configuration alone. -/
theorem ethEn_fabFlood {kind radius : Nat} {l : List Nat} {seq : Nat} {x : SafeX} :
    (((s.setReg pSAFE SAFE.MSG_TXSEQ seq).setSafe x).fabFlood kind radius l).flag pSAFE SAFE.MSG_CFG_ETH_EN =
      s.flag pSAFE SAFE.MSG_CFG_ETH_EN := by
  rw [(routed_fabFlood _ kind radius l).flag (by decide) (by decide), flag_eq_of_board State.setSafe_board,
    flag_setReg_off (by decide)]

theorem safeMsgTx_fab {k : List Nat} {seq conn st : Nat} {head b : List Nat}
    (ht : s.flag pSAFE SAFE.MSG_CFG_TX_EN = true)
    (he : s.flag pSAFE SAFE.MSG_CFG_ETH_EN = false) (hk : s.msgKey = some k) (hc : conn = s.get pSAFE SAFE.MSG_CFG_CONN)
    (hq : seq = (s.reg pSAFE SAFE.MSG_TXSEQ + 1) % 2 ^ 32)
    (hst : st = b2n (s.flag pSAFE SAFE.STAT_SAFE_OK) + 2 * b2n s.split + 4 * b2n (decide (s.reg pSAFE SAFE.LATCH ≠ 0)))
    (hh : head = [0x51, 0x01, s.get pBEAM BEAM.STAT_LOCK, st] ++ leBytes 2 s.addr ++ [conn, 0] ++ leBytes 4 seq ++
        leBytes 8 (s.beam.t / 256) ++ leBytes 2 s.msgDemand ++ List.replicate 10 0)
    (hb : b = head ++ leBytes 4 (crc32cFrom (msgInit s.addr conn) head) ++ List.replicate 12 0) :
    exec .safeMsgTx s = .next (((s.setReg pSAFE SAFE.MSG_TXSEQ seq).setSafe
        { s.safe with sentDemand := s.msgDemand }).fabFlood kdSAFE
          (s.reg pFABR FABR.SAFE_CFG % 64 + s.reg pFABR FABR.SAFE_CFG / 256 % 64 * 64)
          (b ++ gcmTag (aesKeys k) (msgNonce s.addr conn seq) b [])) := by
  change execSafeMsgTx s = _
  unfold execSafeMsgTx
  rw [if_neg (by rw [ht]; decide), hk]
  extract_lets seq' conn' dem st' b1 b2 r b3 s1 src s2 rad s3 k' port
  have h1 : seq' = seq := hq.symm
  have h2 : conn' = conn := hc.symm
  have h3 : st' = st := hst.symm
  have h4 : b1 = head := by
    rw [hh, ← h1, ← h2, ← h3]
  have h5 : b2 = b := by
    rw [hb, ← h4, ← h2]
  have h6 : rad = s.reg pFABR FABR.SAFE_CFG := by
    refine (reg_eq_of_board State.setSafe_board).trans ?_
    exact reg_setReg_page (by decide) (by decide) (by decide)
  have h7 : s3.flag pSAFE SAFE.MSG_CFG_ETH_EN = false := ethEn_fabFlood.trans he
  refine (if_neg (by rw [h7]; exact Bool.false_ne_true)).trans ?_
  rw [← h6, ← h5, ← h1, ← h2]
  rfl

/-! ## Reception (R408) -/

/-- Whether a copy's number is not above the last one accepted, and no copy of the other network waits for it. -/
def State.oldCopy (s : State) (j : Nat) (eth : Bool) (seq : Nat) : Bool :=
  (s.sconn j).heard && decide (seq ≤ (s.sconn j).seq) &&
    !(s.sconn j).wait.any (fun e => e.1 != eth && ofLE ((e.2.drop 8).take 4) == seq)

/-- What a connection does with a copy that verifies, where no injection is armed. -/
def State.connTake (s : State) (j : Nat) (eth : Bool) (b : List Nat) : State :=
  let seq := ofLE ((b.drop 8).take 4)
  let t := ofLE ((b.drop 12).take 8)
  let now := s.beam.t / 256
  if s.oldCopy j eth seq then s.incF pSAFE SAFE.MSG_ERR_SEQ
  else if 2 ≤ b.getD 2 0 ∧ 2 ≤ s.get pBEAM BEAM.STAT_LOCK ∧ !(decide (t ≤ now) && decide (now - t ≤ 10000000)) then
    s.incF pSAFE SAFE.MSG_ERR_AGE
  else s.connAccept j eth b seq (ofLE ((b.drop 20).take 2))

theorem safeMsgRx_short {b : List Nat} (hl : b.length ≠ 64) (h8 : s.injArmed pSAFE 8 = false) :
    exec (.safeMsgRx false b) s = .next (s.incF pSAFE SAFE.MSG_ERR_CRC) := by
  change execSafeMsgRx false b s = _
  unfold execSafeMsgRx
  simp only [Bool.false_eq_true, if_false, injTake_unarmed h8, hl, decide_false, Bool.false_and, Bool.not_false,
    Bool.true_or, if_true]

theorem safeMsgRx_verified {eth : Bool} {b k : List Nat} {j : Nat} (hl : b.length = 64)
    (h8 : s.injArmed pSAFE 8 = false) (h9 : s.injArmed pSAFE 9 = false) (h11 : s.injArmed pSAFE 11 = false)
    (hc : crc32cFrom (msgInit (ofLE ((b.drop 4).take 2)) (b.getD 6 0)) (b.take 32) = ofLE ((b.drop 32).take 4))
    (hk : s.msgKey = some k)
    (hg : gcmTag (aesKeys k) (msgNonce (ofLE ((b.drop 4).take 2)) (b.getD 6 0) (ofLE ((b.drop 8).take 4)))
      (b.take 48) [] = b.drop 48)
    (hj : (List.range 16).filter (fun j => s.flag pSAFE (SAFE.RXC_CFG_EN j) &&
      decide (s.get pSAFE (SAFE.RXC_CFG_ADDR j) = ofLE ((b.drop 4).take 2)) &&
        decide (s.get pSAFE (SAFE.RXC_CFG_CONN j) = b.getD 6 0)) = [j]) :
    exec (.safeMsgRx eth b) s = .next (s.connTake j eth b) := by
  change execSafeMsgRx eth b s = _
  have e8 : (if eth then (false, s) else s.injTake pSAFE 8) = (false, s) := by
    rw [injTake_unarmed h8, ite_self]
  have e11 : (if eth then s.injTake pSAFE 11 else (false, s)) = (false, s) := by
    rw [injTake_unarmed h11, ite_self]
  have e9 : (if eth then s.injTake pSAFE 9 else (false, s)) = (false, s) := by
    rw [injTake_unarmed h9, ite_self]
  unfold execSafeMsgRx
  extract_lets src conn seq r8 r11 s' crc tag js
  have hr8 : r8 = (false, s) := e8
  clear_value r8
  subst hr8
  have hr11 : r11 = (false, s) := e11
  clear_value r11
  subst hr11
  have hcrc : crc = true := by
    unfold crc
    rw [decide_eq_true hl, decide_eq_true hc]
    rfl
  have htag : tag = true := by
    unfold tag
    rw [show s'.msgKey = some k from hk]
    exact decide_eq_true hg
  have hjs : js = [j] := hj
  refine (if_neg (by rw [hcrc, htag]; decide)).trans (congrArg Outcome.next ?_)
  rw [hjs]
  simp only [List.foldl_cons, List.foldl_nil]
  rw [show s' = s from rfl, e9]
  rfl

theorem connTake_old {eth : Bool} {b : List Nat} (h : s.oldCopy j eth (ofLE ((b.drop 8).take 4)) = true) :
    s.connTake j eth b = s.incF pSAFE SAFE.MSG_ERR_SEQ := if_pos h

/-- Whether a copy's time is judged, and whether it is at most 10 ms old. -/
theorem age_iff {p q t now : Nat} : (2 ≤ p ∧ 2 ≤ q ∧ (!(decide (t ≤ now) && decide (now - t ≤ 10000000))) = true) ↔
    (2 ≤ p ∧ 2 ≤ q) ∧ ¬(t ≤ now ∧ now - t ≤ 10000000) := by
  rw [Bool.not_eq_true', Bool.and_eq_false_iff, decide_eq_false_iff_not, decide_eq_false_iff_not, and_assoc,
    not_and_or]

theorem connTake_age {eth : Bool} {b : List Nat} (h : ¬s.oldCopy j eth (ofLE ((b.drop 8).take 4)) = true)
    (hj : 2 ≤ b.getD 2 0 ∧ 2 ≤ s.get pBEAM BEAM.STAT_LOCK)
    (hn : ¬(ofLE ((b.drop 12).take 8) ≤ s.beam.t / 256 ∧ s.beam.t / 256 - ofLE ((b.drop 12).take 8) ≤ 10000000)) :
    s.connTake j eth b = s.incF pSAFE SAFE.MSG_ERR_AGE := (if_neg h).trans (if_pos (age_iff.mpr ⟨hj, hn⟩))

theorem connTake_accepts {eth : Bool} {b : List Nat} (h : ¬s.oldCopy j eth (ofLE ((b.drop 8).take 4)) = true)
    (hn : 2 ≤ b.getD 2 0 ∧ 2 ≤ s.get pBEAM BEAM.STAT_LOCK →
      ofLE ((b.drop 12).take 8) ≤ s.beam.t / 256 ∧ s.beam.t / 256 - ofLE ((b.drop 12).take 8) ≤ 10000000) :
    s.connTake j eth b = s.connAccept j eth b (ofLE ((b.drop 8).take 4)) (ofLE ((b.drop 20).take 2)) := by
  refine (if_neg h).trans (if_neg fun ha => ?_)
  obtain ⟨hj, hn'⟩ := age_iff.mp ha
  exact hn' (hn hj)

theorem oldCopy_iff {eth : Bool} {seq : Nat} : s.oldCopy j eth seq = true ↔ (s.sconn j).heard = true ∧
    seq ≤ (s.sconn j).seq ∧ (s.sconn j).wait.any (fun e => e.1 != eth && ofLE ((e.2.drop 8).take 4) == seq) = false := by
  rw [State.oldCopy, Bool.and_eq_true, Bool.and_eq_true, decide_eq_true_iff, Bool.not_eq_true', and_assoc]

/-! ## Connections that fall silent (R409) -/

theorem sconn_setConn {x : SafeConn} : (s.setConn j x).sconn j = x := by
  simp [State.sconn, State.setConn, State.setSafe]

/-- A connection on one network only. -/
def State.connAlone (s : State) (j : Nat) (rest : List (Bool × List Nat)) : State :=
  ((s.setConn j { s.sconn j with wait := rest, single := some ((s.sconn j).single.getD s.beam.t) }).set pSAFE
    (SAFE.RXC_STAT_SINGLE j) 1).ev pSAFE 18

theorem sconn_connAlone {rest : List (Bool × List Nat)} : (s.connAlone j rest).sconn j =
    { s.sconn j with wait := rest, single := some ((s.sconn j).single.getD s.beam.t) } := by
  rw [State.sconn, State.connAlone, State.ev_safe, State.set_safe]
  exact sconn_setConn

theorem sameMem_connAlone {rest : List (Bool × List Nat)} : SameMem s (s.connAlone j rest) :=
  keeps_State_ev (k0_sameMem s) (keeps_State_set (k0_sameMem s) (keeps_State_setSafe (k0_sameMem s) (sameMem_refl s)))

theorem single_connAlone {rest : List (Bool × List Nat)} :
    (s.connAlone j rest).flag pSAFE (SAFE.RXC_STAT_SINGLE j) = true := by
  rw [State.connAlone, flag_ev (by simp only [SAFE.RXC_STAT, PG.EV_STAT]; omega), flag_set_same (by simp) (by simp)]
  simp [Fld.width]

theorem event_connAlone {rest : List (Bool × List Nat)} : (s.connAlone j rest).bit pSAFE PG.EV_STAT 18 = true :=
  bit_ev (by decide)

theorem sameRegs_connAlone {rest : List (Bool × List Nat)} :
    SameRegs s (s.connAlone j rest) [(pSAFE, SAFE.RXC_STAT j), (pSAFE, PG.EV_STAT)] :=
  SameRegs.ev (SameRegs.set (sameRegs_of_board State.setSafe_board) (by simp)) (by simp)

theorem exec_pairWinExpire_cons {j : Fin 16} {e : Bool × List Nat} {rest : List (Bool × List Nat)}
    (h : (s.sconn j).wait = e :: rest) : exec (.pairWinExpire j) s = .next (s.connAlone j rest) := by
  change execPairWinExpire j s = _
  rw [execPairWinExpire, h]
  rfl

/-- A connection's demand after it has fallen silent. -/
def State.connSilent (s : State) (j code : Nat) : State := (s.set pSAFE (SAFE.RXC_STAT_VALID j) 0).connDemand j code

variable {code : Nat}

theorem rxcRods_ne (hj : j < 16) : ∀ e ∈ [(pSAFE, SAFE.RXC_STAT k)], bkey pSAFE (SAFE.RXC_RODS j) ≠ bkey e.1 e.2 := by
  simp only [List.mem_singleton, forall_eq, Ne, bkey_off, SAFE.RXC_RODS, SAFE.RXC_STAT]
  omega

theorem connSilent_eq (hj : j < 16) (hs : s.split = false) (hr : s.reg pSAFE (SAFE.RXC_RODS j) % 2 ^ 24 ≠ 0) :
    ∃ spd, s.connSilent j code = ((s.set pSAFE (SAFE.RXC_STAT_VALID j) 0).noteLatch (code * 2 ^ 24 + 0 * 2 ^ 16 + j)
      (s.reg pSAFE (SAFE.RXC_RODS j) % 2 ^ 24)).setSafe (s.safe.took spd (s.reg pSAFE (SAFE.RXC_RODS j) % 2 ^ 24)) := by
  have hu : SameRegs s (s.set pSAFE (SAFE.RXC_STAT_VALID j) 0) [(pSAFE, SAFE.RXC_STAT j)] := sameRegs_refl.set (by simp)
  have hsafe : (s.set pSAFE (SAFE.RXC_STAT_VALID j) 0).safe = s.safe := State.set_safe
  have hu' := hu.reg (rxcRods_ne (k := j) hj)
  have hsp : (s.set pSAFE (SAFE.RXC_STAT_VALID j) 0).split = s.split := by
    refine hu.flag ?_
    simp only [List.mem_singleton, forall_eq]
    exact bkey_page (by decide) (by decide) (by simp only [SAFE.RXC_STAT]; omega)
  rw [State.connSilent, State.connDemand]
  generalize s.set pSAFE (SAFE.RXC_STAT_VALID j) 0 = u at *
  rw [hu', demand_latching (hsp.trans hs) hr, hsafe]
  exact ⟨_, rfl⟩

/-- What a silent connection leaves: VALID = 0, its rods latched, and the first demand's cause. -/
theorem connSilent_spec (hj : j < 16) (hc : code < 16) (hs : s.split = false)
    (hr : s.reg pSAFE (SAFE.RXC_RODS j) % 2 ^ 24 ≠ 0) :
    (s.connSilent j code).flag pSAFE (SAFE.RXC_STAT_VALID j) = false ∧
      (s.connSilent j code).reg pSAFE SAFE.LATCH =
        s.reg pSAFE SAFE.LATCH ||| s.reg pSAFE (SAFE.RXC_RODS j) % 2 ^ 24 ∧
      (s.safe.recorded = false → (s.connSilent j code).reg pSAFE SAFE.CAUSE = code * 2 ^ 24 + j) ∧
      SameMem s (s.connSilent j code) := by
  obtain ⟨spd, e⟩ := connSilent_eq (code := code) hj hs hr
  have hlt : s.reg pSAFE (SAFE.RXC_RODS j) % 2 ^ 24 < 2 ^ 32 := lt_trans (Nat.mod_lt _ (by decide)) (by decide)
  have hu : SameRegs s (s.set pSAFE (SAFE.RXC_STAT_VALID j) 0) [(pSAFE, SAFE.RXC_STAT j)] := sameRegs_refl.set (by simp)
  have hsafe : (s.set pSAFE (SAFE.RXC_STAT_VALID j) 0).safe = s.safe := State.set_safe
  have hv : (s.set pSAFE (SAFE.RXC_STAT_VALID j) 0).flag pSAFE (SAFE.RXC_STAT_VALID j) = false := by
    rw [flag_set_same (by simp) (by simp), Nat.zero_mod]
    rfl
  have hm : SameMem s (s.set pSAFE (SAFE.RXC_STAT_VALID j) 0) := keeps_State_set (k0_sameMem s) (sameMem_refl s)
  have hl : (s.set pSAFE (SAFE.RXC_STAT_VALID j) 0).reg pSAFE SAFE.LATCH = s.reg pSAFE SAFE.LATCH := by
    refine hu.reg ?_
    simp only [List.mem_singleton, forall_eq, Ne, bkey_off, SAFE.LATCH, SAFE.RXC_STAT]
    omega
  have hd : ∀ e ∈ demandWords, bkey pSAFE (SAFE.RXC_STAT j) ≠ bkey e.1 e.2 := by
    intro e he
    obtain ⟨h1, h2⟩ := demandWords_pSAFE e he
    rw [h1, Ne, bkey_off]
    simp only [SAFE.RXC_STAT]
    omega
  rw [e, Nat.zero_mul, Nat.add_zero]
  generalize s.reg pSAFE (SAFE.RXC_RODS j) % 2 ^ 24 = rods at *
  generalize s.set pSAFE (SAFE.RXC_STAT_VALID j) 0 = u at *
  refine ⟨?_, ?_, fun h => ?_, ?_⟩
  · rw [flag_eq_of_board State.setSafe_board, sameRegs_noteLatch.flag hd, hv]
  · rw [reg_eq_of_board State.setSafe_board, latch_noteLatch hlt, hl]
  · rw [reg_eq_of_board State.setSafe_board, cause_noteLatch_first (by rw [hsafe, h]) (by omega)]
  · exact keeps_State_setSafe (k0_sameMem s) (sameMem_noteLatch hm)

end

/-- Settles O49: a copy's checks are taken in their order, and a silent connection's demand is read word by word. -/
theorem safeMessages : Obligations.SafeMessages := by
  unfold Obligations.SafeMessages
  intro s
  refine ⟨fun h => ?off, fun k conn seq st head b ht he hk hc hq hst hh hb => ?tx, fun b hl h8 => ?short,
    fun eth b k j src conn seq hl hsrc hconn hseq h8 h9 h11 hc hk hg hj => ?rx, fun j => ⟨fun h => ?empty,
      fun h => ⟨?wdtOff, ?singleOff⟩, fun e rest h => ?alone, fun he hs hr => ⟨?wdt, fun h1 => ?single⟩⟩⟩
  case off => exact if_pos (by rw [h]; rfl)
  case tx => exact safeMsgTx_fab ht he hk hc hq hst hh hb
  case short => exact safeMsgRx_short hl h8
  case rx =>
    subst hsrc hconn hseq
    have e := safeMsgRx_verified (eth := eth) hl h8 h9 h11 hc hk hg hj
    dsimp only
    refine ⟨fun ho => ?_, fun ho hjd hn => ?_, fun ho ht => ?_⟩
    · rw [e, connTake_old (oldCopy_iff.mpr ho)]
    · exact e.trans (congrArg Outcome.next (connTake_age (fun h => ho (oldCopy_iff.mp h)) hjd hn))
    · exact e.trans (congrArg Outcome.next (connTake_accepts (fun h => ho (oldCopy_iff.mp h)) ht))
  case empty =>
    change execPairWinExpire j s = _
    rw [execPairWinExpire, h]
  case wdtOff => exact if_neg (Bool.eq_false_iff.mp h)
  case singleOff => exact if_neg (by rw [h]; exact Bool.false_ne_true)
  case alone =>
    have e := exec_pairWinExpire_cons h
    have h1 := sconn_connAlone (s := s) (j := j) (rest := rest)
    have h2 := single_connAlone (s := s) (j := j) (rest := rest)
    have h3 := event_connAlone (s := s) (j := j) (rest := rest)
    have h4 := sameRegs_connAlone (s := s) (j := j) (rest := rest)
    have h5 := sameMem_connAlone (s := s) (j := j) (rest := rest)
    generalize s.connAlone j rest = u at *
    exact ⟨u, e, by rw [h1], by rw [h1], h2, h3, h4, h5⟩
  case wdt =>
    obtain ⟨h1, h2, h3, h4⟩ := connSilent_spec (code := 5) j.isLt (by decide) hs hr
    exact ⟨_, if_pos he, h1, h2, h3, h4⟩
  case single =>
    obtain ⟨h5, h2, h3, h4⟩ := connSilent_spec (code := 4) j.isLt (by decide) hs hr
    exact ⟨_, if_pos (by rw [he, h1]; rfl), h5, h2, h3, h4⟩

end Sys2Proof.Machine

/-! PROOFS. Processors and debug (spec/20, R496 to R508). -/

namespace Sys2Proof.Machine

open Host (Outcome)

section

variable {s t u : State} {v h : Nat} {w : Writer}

/-! ## The status page and the watchdog (R499, R508) -/

theorem sameRegs_showApc : SameRegs s s.showApc [(pAPC, APC.STAT)] :=
  ((sameRegs_refl.set (by decide)).set (by decide)).setB (by decide)

theorem proc_showApc : s.showApc.proc = s.proc := by
  rw [State.showApc, State.setB_proc, State.set_proc, State.set_proc]

theorem out_showApc : s.showApc.out = s.out := by
  rw [State.showApc, State.setB_out, State.set_out, State.set_out]

theorem sameMem_showApc (h : SameMem s t) : SameMem s t.showApc := keeps_State_showApc (k0_sameMem s) h

/-- An armed watchdog. -/
def State.wdtArmed (s : State) (v : Nat) : State :=
  ((s.set pAPC APC.WDT_CFG_PERIOD v).set pAPC APC.WDT_CFG_EN 1).wdtReload

theorem wdtCfg_arms (hv : v < 65536) (h : s.flag pAPC APC.WDT_CFG_EN = false) :
    s.wdtCfg (2 ^ 31 + v) = s.wdtArmed v := by
  have hm : (2 ^ 31 + v) % 2 ^ 16 = v := by omega
  have hb : (2 ^ 31 + v).testBit 31 = true := Nat.testBit_two_pow_add_eq v 31 ▸ by
    rw [Nat.testBit_lt_two_pow (lt_trans hv (by decide))]
    rfl
  unfold State.wdtCfg
  rw [hm]
  exact if_pos ⟨hb, by rw [h]; rfl⟩

theorem get_wdtArmed_period (hv : v < 65536) :
    ((s.set pAPC APC.WDT_CFG_PERIOD v).set pAPC APC.WDT_CFG_EN 1).get pAPC APC.WDT_CFG_PERIOD = v := by
  rw [get_set_bits (f := APC.WDT_CFG_EN) (g := APC.WDT_CFG_PERIOD) rfl (by decide) (by decide) (by decide) (by decide),
    get_set_same (by decide) (by decide)]
  exact Nat.mod_eq_of_lt hv

theorem board_wdtReload : s.wdtReload.board = (s.setReg pAPC APC.WDT_REMAIN s.wdtPeriod).board := rfl

theorem wdtPeriod_lt : s.wdtPeriod < 2 ^ 32 := by
  have h : s.get pAPC APC.WDT_CFG_PERIOD < 2 ^ 16 := get_lt
  unfold State.wdtPeriod
  extract_lets p
  split
  · decide
  · exact lt_trans h (by decide)

theorem remain_wdtReload : s.wdtReload.reg pAPC APC.WDT_REMAIN = s.wdtPeriod := by
  rw [reg_eq_of_board board_wdtReload, reg_setReg_same]
  exact Nat.mod_eq_of_lt wdtPeriod_lt

theorem sameRegs_wdtReload : SameRegs s s.wdtReload [(pAPC, APC.WDT_REMAIN)] :=
  SameRegs.of_board (sameRegs_refl.setReg (by decide)) board_wdtReload

theorem sameMem_wdtReload (h : SameMem s t) : SameMem s t.wdtReload := keeps_State_wdtReload (k0_sameMem s) h

theorem wdtArmed_spec (hv : v < 65536) : (s.wdtArmed v).flag pAPC APC.WDT_CFG_EN = true ∧
    (s.wdtArmed v).get pAPC APC.WDT_CFG_PERIOD = v ∧
    (s.wdtArmed v).reg pAPC APC.WDT_REMAIN = (if v = 0 then 1000 else v) ∧ (s.wdtArmed v).proc.wdtSub = 0 ∧
    SameRegs s (s.wdtArmed v) [(pAPC, APC.WDT_CFG), (pAPC, APC.WDT_REMAIN)] ∧ SameMem s (s.wdtArmed v) := by
  have hp := get_wdtArmed_period (s := s) hv
  have he : ((s.set pAPC APC.WDT_CFG_PERIOD v).set pAPC APC.WDT_CFG_EN 1).flag pAPC APC.WDT_CFG_EN = true := by
    rw [flag_set_same (by decide) (by decide)]
    rfl
  have hr : SameRegs s ((s.set pAPC APC.WDT_CFG_PERIOD v).set pAPC APC.WDT_CFG_EN 1)
      [(pAPC, APC.WDT_CFG), (pAPC, APC.WDT_REMAIN)] := (sameRegs_refl.set (by decide)).set (by decide)
  have hm : SameMem s ((s.set pAPC APC.WDT_CFG_PERIOD v).set pAPC APC.WDT_CFG_EN 1) :=
    keeps_State_set (k0_sameMem s) (keeps_State_set (k0_sameMem s) (sameMem_refl s))
  rw [State.wdtArmed]
  generalize (s.set pAPC APC.WDT_CFG_PERIOD v).set pAPC APC.WDT_CFG_EN 1 = u at *
  refine ⟨?_, ?_, ?_, rfl, ?_, sameMem_wdtReload hm⟩
  · rw [sameRegs_wdtReload.flag (by decide), he]
  · rw [sameRegs_wdtReload.get (by decide), hp]
  · rw [remain_wdtReload, State.wdtPeriod, hp]
  · exact hr.trans (sameRegs_wdtReload.mono (by decide))

/-! ## The release of harts (R508) -/

/-- The harts that a release lets go. -/
def State.newHarts (s : State) (en : Nat) : List Nat := (bitsSet 4 en).filter (fun h => !s.proc.released.testBit h)

/-- A release, before the harts start. -/
def State.hartsFree (s : State) (en : Nat) : State :=
  let s := s.setReg pAPC APC.CTL (en % 16 ||| 1)
  (s.setProc { s.proc with released := s.proc.released ||| en % 16 }).showApc

theorem hartRelease_eq {en : Nat} : s.hartRelease en = (s.newHarts en).foldl (fun (s : State) h =>
    s.send (.hartStart h (s.reg64 pAPC APC.ENTRY_LO))) (s.hartsFree en) := rfl

theorem foldl_hartStart {l : List Nat} :
    let t := l.foldl (fun (s : State) h => s.send (.hartStart h (s.reg64 pAPC APC.ENTRY_LO))) s
    t.board = s.board ∧ t.proc = s.proc ∧ (SameMem u s → SameMem u t) ∧
      t.out = s.out ++ l.map (fun h => .hartStart h (s.reg64 pAPC APC.ENTRY_LO)) := by
  induction l generalizing s with
  | nil => exact ⟨rfl, rfl, id, (List.append_nil _).symm⟩
  | cons h l ih =>
    obtain ⟨h1, h2, h3, h4⟩ := ih (s := s.send (.hartStart h (s.reg64 pAPC APC.ENTRY_LO)))
    refine ⟨h1.trans State.send_board, h2.trans State.send_proc,
      fun hm => h3 (keeps_State_send (k0_sameMem u) hm), h4.trans ?_⟩
    rw [out_send, List.append_assoc, State.reg64, State.reg64, reg_send, reg_send]
    rfl

theorem sameRegs_hartsFree {en : Nat} : SameRegs s (s.hartsFree en) [(pAPC, APC.CTL), (pAPC, APC.STAT)] := by
  have h : SameRegs s (s.setReg pAPC APC.CTL (en % 16 ||| 1)) [(pAPC, APC.CTL), (pAPC, APC.STAT)] :=
    sameRegs_refl.setReg (by decide)
  exact (h.of_board State.setProc_board).trans (sameRegs_showApc.mono (by decide))

theorem ctl_hartsFree {en : Nat} (he : en < 16) : (s.hartsFree en).reg pAPC APC.CTL = en ||| 1 := by
  have hl : en ||| 1 < 2 ^ 32 := lt_trans (Nat.or_lt_two_pow (n := 4) he (by decide)) (by decide)
  rw [State.hartsFree, sameRegs_showApc.reg (by decide), reg_eq_of_board State.setProc_board, reg_setReg_same,
    Nat.mod_eq_of_lt he, Nat.mod_eq_of_lt hl]

theorem released_hartsFree {en : Nat} (he : en < 16) :
    (s.hartsFree en).proc.released = s.proc.released ||| en := by
  rw [State.hartsFree, proc_showApc, Nat.mod_eq_of_lt he]
  rfl

theorem out_hartsFree {en : Nat} : (s.hartsFree en).out = s.out := by
  rw [State.hartsFree, out_showApc, State.setProc_out, State.setReg_out]

theorem sameMem_hartsFree {en : Nat} : SameMem s (s.hartsFree en) :=
  sameMem_showApc (keeps_State_setProc (k0_sameMem s) (keeps_State_setReg (k0_sameMem s) (sameMem_refl s)))

theorem mem_newHarts {en : Nat} (hh : h < 4) :
    h ∈ s.newHarts en ↔ en.testBit h = true ∧ s.proc.released.testBit h = false := by
  simp [State.newHarts, bitsSet, hh, and_comm]

theorem hartRelease_spec {en : Nat} (he : en < 16) : (s.hartRelease en).reg pAPC APC.CTL = en ||| 1 ∧
    (s.hartRelease en).proc.released = s.proc.released ||| en ∧
    (s.hartRelease en).out = s.out ++ (s.newHarts en).map (fun h => .hartStart h (s.reg64 pAPC APC.ENTRY_LO)) ∧
    SameRegs s (s.hartRelease en) [(pAPC, APC.CTL), (pAPC, APC.STAT)] ∧ SameMem s (s.hartRelease en) := by
  have hr := sameRegs_hartsFree (s := s) (en := en)
  have hc := ctl_hartsFree (s := s) he
  have hp := released_hartsFree (s := s) he
  have ho := out_hartsFree (s := s) (en := en)
  have hm := sameMem_hartsFree (s := s) (en := en)
  rw [hartRelease_eq]
  generalize s.hartsFree en = u at *
  obtain ⟨h1, h2, h3, h4⟩ := foldl_hartStart (u := s) (s := u) (l := s.newHarts en)
  refine ⟨(reg_eq_of_board h1).trans hc, (congrArg ProcX.released h2).trans hp, ?_, hr.of_board h1, h3 hm⟩
  rw [h4, ho, State.reg64, State.reg64, hr.reg (by decide), hr.reg (by decide)]

/-! ## Interrupts and memory errors (R496, R498) -/

theorem sameRegs_hartWake : SameRegs s (s.hartWake h) [(pAPC, APC.STAT)] := by
  unfold State.hartWake
  split
  · exact (sameRegs_of_board State.setProc_board).trans sameRegs_showApc
  · exact sameRegs_refl

theorem out_hartWake : (s.hartWake h).out = s.out := by
  unfold State.hartWake
  split
  · rw [out_showApc, State.setProc_out]
  · rfl

theorem mt_hartWake : (s.hartWake h).proc.mt = s.proc.mt := by
  unfold State.hartWake
  split
  · rw [proc_showApc]
    rfl
  · rfl

theorem wfi_hartWake (hd : s.dom .rd = .active) : (s.hartWake h).proc.wfi.testBit h = false := by
  unfold State.hartWake
  split
  case isTrue hw =>
    rw [proc_showApc]
    change (s.proc.wfi ^^^ 2 ^ h).testBit h = false
    rw [Nat.testBit_xor, hw.1, Nat.testBit_two_pow_self]
    rfl
  case isFalse hw => exact Bool.eq_false_iff.mpr fun hb => hw ⟨hb, hd⟩

/-- The timer's interrupt of a hart. -/
def State.timerIrq (s : State) (h : Nat) : State :=
  ((s.setProc { s.proc with mt := max s.proc.mt (16 * s.mtimecmp h) }).send (.hartIrq h 7)).hartWake h

theorem timerIrq_spec : s.mtimecmp h ≤ (s.timerIrq h).proc.mt / 16 ∧ (s.timerIrq h).out = s.out ++ [.hartIrq h 7] ∧
    (s.dom .rd = .active → (s.timerIrq h).proc.wfi.testBit h = false) ∧
    SameRegs s (s.timerIrq h) [(pAPC, APC.STAT)] ∧ SameMem s (s.timerIrq h) := by
  refine ⟨?_, ?_, fun hd => ?_, ?_, ?_⟩
  · rw [State.timerIrq, mt_hartWake]
    change _ ≤ max s.proc.mt (16 * s.mtimecmp h) / 16
    omega
  · rw [State.timerIrq, out_hartWake, out_send, State.setProc_out]
  · exact wfi_hartWake hd
  · exact (SameRegs.send (sameRegs_of_board State.setProc_board)).trans sameRegs_hartWake
  · exact keeps_State_hartWake (k0_sameMem s) (keeps_State_send (k0_sameMem s) (keeps_State_setProc (k0_sameMem s)
      (sameMem_refl s)))

/-- The words of a double-bit error: the count at `c` and the address at `a`. -/
def State.eccDoubled (s : State) (c a addr : Nat) : State :=
  (((s.incF pAPC ⟨c, 31, 16⟩).setReg64 pAPC a addr).err pAPC 16).ev pAPC 16

theorem reg64_err_ev {p o i j : Nat} (h : o ≠ PG.ERR ∧ o ≠ PG.ERRCNT ∧ o ≠ PG.EV_STAT)
    (h' : o + 4 ≠ PG.ERR ∧ o + 4 ≠ PG.ERRCNT ∧ o + 4 ≠ PG.EV_STAT) :
    ((s.err p i).ev p j).reg64 p o = s.reg64 p o := by
  rw [State.reg64, State.reg64, reg_ev h.2.2, reg_ev h'.2.2, reg_err h.1 h.2.1 h.2.2, reg_err h'.1 h'.2.1 h'.2.2]

theorem addr_eccDoubled {c a addr : Nat} (ha : addr < 2 ^ 64) (h : a ≠ PG.ERR ∧ a ≠ PG.ERRCNT ∧ a ≠ PG.EV_STAT)
    (h' : a + 4 ≠ PG.ERR ∧ a + 4 ≠ PG.ERRCNT ∧ a + 4 ≠ PG.EV_STAT) :
    (s.eccDoubled c a addr).reg64 pAPC a = addr := by
  rw [State.eccDoubled, reg64_err_ev h h', reg64_setReg64_same ha]

theorem err_eccDoubled {c a addr : Nat} : (s.eccDoubled c a addr).bit pAPC PG.ERR 16 = true := by
  rw [State.eccDoubled, State.bit, reg_ev (by decide)]
  exact bit_err (by decide)

theorem ev_eccDoubled {c a addr : Nat} : (s.eccDoubled c a addr).bit pAPC PG.EV_STAT 16 = true := bit_ev (by decide)

theorem out_eccDoubled {c a addr : Nat} : (s.eccDoubled c a addr).out = s.out := by
  rw [State.eccDoubled, State.ev_out, State.err_out, State.setReg64_out, State.incF_out]

theorem proc_eccDoubled {c a addr : Nat} : (s.eccDoubled c a addr).proc = s.proc := by
  rw [State.eccDoubled, State.ev_proc, State.err_proc, State.setReg64_proc, State.incF_proc]

theorem sameMem_eccDoubled {c a addr : Nat} : SameMem s (s.eccDoubled c a addr) :=
  keeps_State_ev (k0_sameMem s) (keeps_State_err (k0_sameMem s) (keeps_State_setReg64 (k0_sameMem s)
    (keeps_State_incF (k0_sameMem s) (sameMem_refl s))))

/-- A line is poisoned. -/
def State.poisonLine (s : State) (l : Nat) : State :=
  if s.proc.poison.contains l then s else s.setProc { s.proc with poison := s.proc.poison ++ [l] }

theorem poisonLine_spec {l : Nat} : (s.poisonLine l).board = s.board ∧ (s.poisonLine l).out = s.out ∧
    l ∈ (s.poisonLine l).proc.poison ∧ (SameMem u s → SameMem u (s.poisonLine l)) := by
  unfold State.poisonLine
  split
  case isTrue h => exact ⟨rfl, rfl, List.contains_iff_mem.mp h, id⟩
  case isFalse h =>
    exact ⟨State.setProc_board, State.setProc_out, List.mem_append_right _ (List.mem_singleton.mpr rfl),
      keeps_State_setProc (k0_sameMem u)⟩

theorem apcDouble_hart {ddr : Bool} {addr : Nat} : s.apcDouble ddr addr (some h) =
    (s.eccDoubled (if ddr then APC.DDR_ECC_CNT else APC.L2_ECC_CNT)
      (if ddr then APC.DDR_ECC_ADDR_LO else APC.L2_ECC_ADDR_LO) addr).send (.memFault h addr) := rfl

theorem apcDouble_line {ddr : Bool} {addr : Nat} : s.apcDouble ddr addr none =
    (s.eccDoubled (if ddr then APC.DDR_ECC_CNT else APC.L2_ECC_CNT)
      (if ddr then APC.DDR_ECC_ADDR_LO else APC.L2_ECC_ADDR_LO) addr).poisonLine (addr / 64) := rfl

theorem exec_wdtArm {x : State} {v : Fin 65536} (hw : s.mayAct w pAPC) (h : s.wdtCfg (2 ^ 31 + v.val) = x) :
    exec (.wdtArm w v) s = .next (x.answer w .ok) := by
  subst h
  exact congrArg Outcome.next (finish_action (f := fun s => (s.wdtCfg (2 ^ 31 + v.val), .ok)) hw rfl)

theorem exec_wdtKick {x : State} {v : Word} (hw : s.mayAct w pAPC) (h : s.wdtKick v.toNat = x) :
    exec (.wdtKick w v) s = .next (x.answer w .ok) := by
  subst h
  exact congrArg Outcome.next (finish_action (f := fun s => (s.wdtKick v.toNat, .ok)) hw rfl)

theorem wdtKick_right (h : s.flag pAPC APC.WDT_CFG_EN = true) : s.wdtKick (0x0000A5C3 : Word).toNat = s.wdtReload :=
  (if_pos rfl).trans (if_pos h)

theorem wdtKick_wrong {v : Word} (h : v ≠ 0x0000A5C3) : s.wdtKick v.toNat = s.err pAPC 17 :=
  if_neg (fun hv => h (BitVec.eq_of_toNat_eq hv))

end

theorem processors : Claims.Processors := by
  unfold Claims.Processors
  intro w s
  refine ⟨fun hw => ⟨fun v h => ?arm, fun h => ?kick, fun v h => ?badKick, fun en => ?release⟩,
    fun h => ⟨?half, ?expire⟩, fun h => ⟨?noHalf, ?noExpire⟩, fun h hd => ?timer, fun hd h => ?deep, fun a h => ?ddr,
    fun a => ?l2⟩
  case arm =>
    have e := exec_wdtArm hw (wdtCfg_arms v.isLt h)
    obtain ⟨h1, h2, h3, h4, h5, h6⟩ := wdtArmed_spec (s := s) v.isLt
    generalize s.wdtArmed v = u at *
    exact ⟨_, e, flag_answer.trans h1, get_answer.trans h2, reg_answer.trans h3, h4, h5.answer, sameMem_answer h6⟩
  case kick =>
    have e := exec_wdtKick hw (wdtKick_right h)
    have h1 := remain_wdtReload (s := s)
    have h2 := sameRegs_wdtReload (s := s)
    have h3 := sameMem_wdtReload (sameMem_refl s)
    generalize s.wdtReload = u at *
    exact ⟨_, e, reg_answer.trans h1, h2.answer, sameMem_answer h3⟩
  case badKick => exact exec_wdtKick hw (wdtKick_wrong h)
  case release =>
    have e : exec (.hartRelease w en) s = .next ((s.hartRelease en).answer w .ok) :=
      congrArg Outcome.next (finish_action (f := fun s => (s.hartRelease en, .ok)) hw rfl)
    obtain ⟨h1, h2, h3, h4, h5⟩ := hartRelease_spec (s := s) en.isLt
    generalize s.hartRelease en = u at *
    refine ⟨_, e, h1, h2, fun h hh => ?_, h4.answer, h5⟩
    rw [State.answer, out_send, h3, List.mem_append, List.mem_append, List.mem_map, List.mem_singleton]
    have hn := mem_newHarts (s := s) (en := en) hh
    constructor
    · rintro ((ho | ⟨k, hk, hk'⟩) | hr)
      · exact .inl ho
      · obtain ⟨rfl, -⟩ := Out.hartStart.inj hk'
        exact .inr (hn.mp hk)
      · exact absurd hr (by simp)
    · rintro (ho | hk)
      · exact .inl (.inl ho)
      · exact .inl (.inr ⟨h, hn.mpr hk, rfl⟩)
  case half => exact congrArg Outcome.next (if_pos h)
  case expire => exact congrArg Outcome.next (if_pos h)
  case noHalf => exact congrArg Outcome.next (if_neg (Bool.eq_false_iff.mp h))
  case noExpire => exact congrArg Outcome.next (if_neg (Bool.eq_false_iff.mp h))
  case timer =>
    have e : exec (.timerInterrupt h) s = .next (s.timerIrq h) := congrArg Outcome.next (if_neg hd)
    exact ⟨_, e, timerIrq_spec⟩
  case deep => exact congrArg Outcome.next (if_pos hd)
  case ddr =>
    have e : exec (.eccDoubleError true a (some h)) s =
        .next ((s.eccDoubled APC.DDR_ECC_CNT APC.DDR_ECC_ADDR_LO a).send (.memFault h a)) :=
      congrArg Outcome.next (apcDouble_hart (ddr := true) (addr := a))
    have h1 := addr_eccDoubled (s := s) (c := APC.DDR_ECC_CNT) (a := APC.DDR_ECC_ADDR_LO) (lt_trans a.isLt (by decide))
      (by decide) (by decide)
    have h2 := err_eccDoubled (s := s) (c := APC.DDR_ECC_CNT) (a := APC.DDR_ECC_ADDR_LO) (addr := a)
    have h3 := ev_eccDoubled (s := s) (c := APC.DDR_ECC_CNT) (a := APC.DDR_ECC_ADDR_LO) (addr := a)
    have h4 := out_eccDoubled (s := s) (c := APC.DDR_ECC_CNT) (a := APC.DDR_ECC_ADDR_LO) (addr := a)
    have h5 := proc_eccDoubled (s := s) (c := APC.DDR_ECC_CNT) (a := APC.DDR_ECC_ADDR_LO) (addr := a)
    have h6 := sameMem_eccDoubled (s := s) (c := APC.DDR_ECC_CNT) (a := APC.DDR_ECC_ADDR_LO) (addr := a)
    generalize s.eccDoubled APC.DDR_ECC_CNT APC.DDR_ECC_ADDR_LO a = u at *
    refine ⟨_, e, ?_, ?_, bit_send.trans h2, bit_send.trans h3, State.send_proc.trans h5,
      keeps_State_send (k0_sameMem s) h6⟩
    · rw [out_send, h4]
    · rw [State.reg64, reg_send, reg_send]
      exact h1
  case l2 =>
    have e : exec (.eccDoubleError false a none) s =
        .next ((s.eccDoubled APC.L2_ECC_CNT APC.L2_ECC_ADDR_LO a).poisonLine (a / 64)) :=
      congrArg Outcome.next (apcDouble_line (ddr := false) (addr := a))
    have h1 := addr_eccDoubled (s := s) (c := APC.L2_ECC_CNT) (a := APC.L2_ECC_ADDR_LO) (lt_trans a.isLt (by decide))
      (by decide) (by decide)
    have h2 := out_eccDoubled (s := s) (c := APC.L2_ECC_CNT) (a := APC.L2_ECC_ADDR_LO) (addr := a)
    have h3 := sameMem_eccDoubled (s := s) (c := APC.L2_ECC_CNT) (a := APC.L2_ECC_ADDR_LO) (addr := a)
    generalize s.eccDoubled APC.L2_ECC_CNT APC.L2_ECC_ADDR_LO a = u at *
    obtain ⟨h4, h5, h6, h7⟩ := poisonLine_spec (u := s) (s := u) (l := a.val / 64)
    refine ⟨_, e, h5.trans h2, ?_, h6, h7 h3⟩
    rw [State.reg64, reg_eq_of_board h4, reg_eq_of_board h4]
    exact h1

section

variable {s t : State} {a h code : Nat}

/-! ## The JTAG instructions (R504 to R506) -/

/-- An instruction is selected. -/
def State.tap (s : State) (code : Nat) : State := s.set pDBG ⟨DBG.STAT, 4, 0⟩ code

theorem tapSelect_open (h : s.scanOpen code = true) : s.tapSelect code = s.tap code := by
  rw [State.tapSelect, h]
  rfl

theorem tapSelect_closed (h : s.scanOpen code = false) : s.tapSelect code = s.tap 31 := by
  rw [State.tapSelect, h]
  rfl

theorem scanTake_closed (h : s.scanOpen code = false) : s.scanTake code = s.tap 31 := by
  rw [State.scanTake, h]
  exact tapSelect_closed h

/-- IDCODE and BYPASS are always taken. -/
theorem scanOpen_basic (h : code = 1 ∨ code = 31) : s.scanOpen code = true := by
  rcases h with rfl | rfl
  · simp [State.scanOpen]
  · simp [State.scanOpen]

theorem scanOpen_debug (h : code = 0x10 ∨ code = 0x11) : s.scanOpen code = true := if_pos h

theorem scanOpen_sample (h : s.lifeSt < 4) : s.scanOpen 2 = true := by
  have h4 : ¬4 ≤ s.lifeSt := Nat.not_le.mpr h
  simp [State.scanOpen, h4]

theorem scanOpen_sample_closed (h : 4 ≤ s.lifeSt) : s.scanOpen 2 = false := by
  have h2 : s.lifeSt ≠ 2 := by omega
  simp [State.scanOpen, h, h2]

/-- The instructions that drive pins are closed in FIELD, in RMA and later. -/
theorem scanOpen_drive_closed (h : s.lifeSt = 2 ∨ 4 ≤ s.lifeSt) (hc : 3 ≤ code ∧ code ≤ 7) :
    s.scanOpen code = false := by
  have hd : ¬(code = 0x10 ∨ code = 0x11) := by omega
  unfold State.scanOpen
  rw [if_neg hd]
  by_cases h2 : s.lifeSt = 2
  · rw [if_pos h2]
    simp
    omega
  · rw [if_neg h2, if_pos (by omega)]
    simp
    omega

theorem life_tap : (s.tap code).lifeSt = s.lifeSt := by
  rw [State.lifeSt, State.lifeSt, State.tap, reg_set_page (by decide) (by decide) (by decide)]

theorem tapSelect_dmi : s.tapSelect 0x11 = s.tap 17 := tapSelect_open (scanOpen_debug (.inr rfl))

/-! ## The debugger's accesses (R505, R507) -/

theorem dmiRefused_spec (ha : a < 128) : (s.dmiRefused a).reg pDBG DBG.LAST_REF = 2 ^ 31 + a ∧
    (s.dmiRefused a).bit pDBG PG.ERR 16 = true ∧
    (s.dmiRefused a).reg pDBG DBG.REFUSED = min (s.reg pDBG DBG.REFUSED + 1) 0xFFFFFFFF ∧
    (SameMem t s → SameMem t (s.dmiRefused a)) := by
  refine ⟨?_, bit_err (by decide), ?_, fun hm => ?_⟩
  · rw [State.dmiRefused, reg_err (by decide) (by decide) (by decide), reg_setReg_same]
    omega
  · rw [State.dmiRefused, reg_err (by decide) (by decide) (by decide), reg_setReg_off (by decide), reg_incSat_same]
  · exact keeps_State_dmiRefused (k0_sameMem t) hm

theorem execDmi_closed {a : Fin 128} {wr : Bool} {v : Word} (h : 4 ≤ s.lifeSt) :
    exec (.dmi a wr v none) s = .next (((s.tap 17).dmiRefused a).send (.tdo 0x11 0)) := by
  change execDmi a wr v none s = _
  have hc : (s.tap 17).dmiOpen a none = false := by
    have h4 : ¬(s.tap 17).lifeSt < 4 := by rw [life_tap]; omega
    have h2 : (s.tap 17).lifeSt ≠ 2 := by rw [life_tap]; omega
    simp [State.dmiOpen, State.dbgOpen, h4, h2]
  unfold execDmi
  rw [tapSelect_dmi]
  exact if_pos (by rw [Option.map_none, hc]; rfl)

theorem execDmi_active {v : Word} (h : s.lifeSt < 2) :
    exec (.dmi 0x10 true v none) s = .next ((s.tap 17).setB pDBG DBG.STAT_DM_ACTIVE (v.toNat.testBit 0)) := by
  change execDmi 0x10 true v none s = _
  have hc : (s.tap 17).dmiOpen 0x10 none = true := by
    have h4 : (s.tap 17).lifeSt < 4 := by rw [life_tap]; omega
    have h2 : (s.tap 17).lifeSt ≠ 2 := by rw [life_tap]; omega
    simp [State.dmiOpen, State.dbgOpen, h4, h2]
  unfold execDmi
  rw [tapSelect_dmi]
  exact if_neg (by rw [Option.map_none]; exact fun e => absurd (hc.symm.trans (by simpa using e)) (by decide))

/-- The debugger's words of a hart's state. -/
def State.dbgShow (s : State) (h : Nat) (b : Bool) : State := s.setBit pDBG DBG.STAT (8 + h) b

theorem halted_showApc (hh : h < 4) : s.showApc.bit pAPC APC.STAT (8 + h) = s.bit pAPC APC.STAT (8 + h) := by
  have hg : ∀ u : State, u.bit pAPC APC.STAT (8 + h) = (u.get pAPC ⟨APC.STAT, 8 + h, 8 + h⟩ != 0) := fun u => bit_eq_get
  rw [hg, hg, State.showApc,
    get_setB_bits (f := APC.STAT_DDR_READY) (g := ⟨APC.STAT, 8 + h, 8 + h⟩) rfl (by decide) (by decide)
      (Nat.le_refl _) (.inl (by simp only; omega)),
    get_set_bits (f := APC.STAT_RUNNING) (g := ⟨APC.STAT, 8 + h, 8 + h⟩) rfl (by decide) (by decide)
      (Nat.le_refl _) (.inr (by simp only; omega)),
    get_set_bits (f := APC.STAT_WFI) (g := ⟨APC.STAT, 8 + h, 8 + h⟩) rfl (by decide) (by decide)
      (Nat.le_refl _) (.inr (by simp only; omega))]

theorem dbgHalt_hart (hh : h < 4) :
    s.dbgHalt h = (((s.dbgShow h true).ev pDBG 16).setBit pAPC APC.STAT (8 + h) true).showApc := if_pos hh

theorem dbgResume_hart (hh : h < 4) :
    s.dbgResume h = ((s.dbgShow h false).setBit pAPC APC.STAT (8 + h) false).showApc := if_pos hh

/-- A halted main core of the pair. -/
def State.pairHalted (s : State) : State :=
  ((((s.dbgShow 4 true).ev pDBG 16).set pSPAIR SPAIR.STAT_DBG_HALTED 1).set pSPAIR SPAIR.STAT_KERNEL_RUN 0).set pSAFE
    SAFE.STAT_KERNEL 0

theorem dbgHalt_pair (hs : s.split = false) : s.dbgHalt 4 = s.pairHalted := by
  have e : ((s.dbgShow 4 true).ev pDBG 16).split = s.split := by
    rw [State.split, State.split, State.ev, State.setBit, State.dbgShow, State.setBit, State.setB, State.setB,
      flag_set_page (by decide) (by decide) (by decide), flag_set_page (by decide) (by decide) (by decide)]
  have hc : 4 = 4 ∧ (!((s.dbgShow 4 true).ev pDBG 16).split) = true := ⟨rfl, by rw [e, hs]; rfl⟩
  unfold State.dbgHalt
  extract_lets u
  rw [if_neg (Nat.lt_irrefl 4)]
  exact if_pos hc

theorem dbgHalted_spec (hh : h < 4) :
    let t := (((s.dbgShow h true).ev pDBG 16).setBit pAPC APC.STAT (8 + h) true).showApc
    t.bit pAPC APC.STAT (8 + h) = true ∧ t.bit pDBG DBG.STAT (8 + h) = true ∧ t.bit pDBG PG.EV_STAT 16 = true ∧
      SameMem s t := by
  have hp : ∀ {u : State} {o i : Nat} {b : Bool}, o < 4096 →
      (u.setBit pAPC APC.STAT (8 + h) b).bit pDBG o i = u.bit pDBG o i := fun ho =>
    bit_set_page (by decide) ho (by simp [APC.STAT])
  refine ⟨?_, ?_, ?_, ?_⟩
  · rw [halted_showApc hh, bit_setBit_same (by omega)]
  · rw [sameRegs_showApc.bit (by decide), hp (by decide), State.bit, reg_ev (by decide)]
    exact bit_setBit_same (by omega)
  · rw [sameRegs_showApc.bit (by decide), hp (by decide)]
    exact bit_ev (by decide)
  · exact sameMem_showApc (keeps_State_setBit (k0_sameMem s) (keeps_State_ev (k0_sameMem s)
      (keeps_State_setBit (k0_sameMem s) (sameMem_refl s))))

theorem dbgResumed_spec (hh : h < 4) :
    let t := ((s.dbgShow h false).setBit pAPC APC.STAT (8 + h) false).showApc
    t.bit pAPC APC.STAT (8 + h) = false ∧ t.bit pDBG DBG.STAT (8 + h) = false ∧ SameMem s t := by
  refine ⟨?_, ?_, ?_⟩
  · rw [halted_showApc hh, bit_setBit_same (by omega)]
  · rw [sameRegs_showApc.bit (by decide), State.setBit, State.setB, bit_set_page (by decide) (by decide) (by simp [APC.STAT])]
    exact bit_setBit_same (by omega)
  · exact sameMem_showApc (keeps_State_setBit (k0_sameMem s) (keeps_State_setBit (k0_sameMem s) (sameMem_refl s)))

theorem pairHalted_spec : s.pairHalted.flag pSPAIR SPAIR.STAT_DBG_HALTED = true ∧
    s.pairHalted.flag pSAFE SAFE.STAT_KERNEL = false ∧ SameMem s s.pairHalted := by
  refine ⟨?_, ?_, ?_⟩
  · rw [State.pairHalted, flag_set_page (by decide) (by decide) (by decide), flag_set_bits (f := SPAIR.STAT_KERNEL_RUN)
      (g := SPAIR.STAT_DBG_HALTED) rfl (by decide) (by decide) (by decide) (by decide),
      flag_set_same (by decide) (by decide)]
    rfl
  · rw [State.pairHalted, flag_set_same (by decide) (by decide)]
    rfl
  · exact keeps_State_set (k0_sameMem s) (keeps_State_set (k0_sameMem s) (keeps_State_set (k0_sameMem s)
      (keeps_State_ev (k0_sameMem s) (keeps_State_setBit (k0_sameMem s) (sameMem_refl s)))))

end

theorem debugPort : Claims.DebugPort := by
  unfold Claims.DebugPort
  intro s sel hsel
  subst hsel
  refine ⟨?idcode, ?bypass, fun h => ?sample, fun h => ?noSample, fun h => ⟨?d3, ?d4, ?d5, ?d6, ?d7⟩,
    fun h => ⟨rfl, rfl, rfl, rfl, rfl⟩, ?reset, ?dtmcs, fun a wr v h => ?refused, fun b h => ?active,
    fun h hd => ⟨?noHalt, ?noResume⟩, fun h hd => ⟨?halt, ?resume⟩, fun hd hs => ?pair⟩
  case idcode => exact congrArg (fun x : State => Outcome.next (x.send _)) (tapSelect_open (scanOpen_basic (.inl rfl)))
  case bypass => exact congrArg Outcome.next (tapSelect_open (scanOpen_basic (.inr rfl)))
  case sample => exact congrArg Outcome.next (tapSelect_open (scanOpen_sample h))
  case noSample => exact congrArg Outcome.next (tapSelect_closed (scanOpen_sample_closed h))
  case d3 => exact congrArg Outcome.next (scanTake_closed (scanOpen_drive_closed h (by decide)))
  case d4 => exact congrArg Outcome.next (scanTake_closed (scanOpen_drive_closed h (by decide)))
  case d5 => exact congrArg Outcome.next (scanTake_closed (scanOpen_drive_closed h (by decide)))
  case d6 => exact congrArg Outcome.next (scanTake_closed (scanOpen_drive_closed h (by decide)))
  case d7 => exact congrArg Outcome.next (scanTake_closed (scanOpen_drive_closed h (by decide)))
  case reset =>
    refine ⟨_, rfl, ?_, ?_, ?_, ?_⟩
    · rw [State.set_safe, State.set_safe]
      rfl
    · rw [flag_set_bits (f := ⟨DBG.STAT, 4, 0⟩) (g := DBG.STAT_EXT_SCAN) rfl (by decide) (by decide) (by decide)
        (by decide), flag_set_same (by decide) (by decide)]
      rfl
    · exact (SameRegs.set (sameRegs_of_board State.setSafe_board) (by decide)).set (by decide)
    · exact keeps_State_set (k0_sameMem s) (keeps_State_set (k0_sameMem s) (keeps_State_setSafe (k0_sameMem s)
        (sameMem_refl s)))
  case dtmcs =>
    refine ⟨(Config.freeWord s.freeCtr).toNat, ?_⟩
    exact congrArg (fun x : State => Outcome.next (x.free.2.send (.tdo 16 x.free.1)))
      (tapSelect_open (scanOpen_debug (.inl rfl)))
  case refused =>
    have ht : SameMem s (s.tap 17) := keeps_State_set (k0_sameMem s) (sameMem_refl s)
    have hr : (s.tap 17).reg pDBG DBG.REFUSED = s.reg pDBG DBG.REFUSED := reg_set_off (by decide)
    have e := execDmi_closed (a := a) (wr := wr) (v := v) h
    obtain ⟨h1, h2, h3, h4⟩ := dmiRefused_spec (t := s) (s := s.tap 17) a.isLt
    rw [hr] at h3
    have h5 := h4 ht
    generalize (s.tap 17).dmiRefused a = u at *
    exact ⟨_, e, reg_send.trans h1, bit_send.trans h2, reg_send.trans h3, keeps_State_send (k0_sameMem s) h5⟩
  case active =>
    refine (execDmi_active h).trans ?_
    have hb : ((if b then 1 else 0 : Word).toNat).testBit 0 = b := by cases b <;> rfl
    rw [hb]
    rfl
  case noHalt => exact congrArg Outcome.next (if_neg (Bool.eq_false_iff.mp hd))
  case noResume => exact congrArg Outcome.next (if_neg (Bool.eq_false_iff.mp hd))
  case halt =>
    have e : exec (.debugHalt ⟨h, by omega⟩) s = .next (s.dbgHalt h) := congrArg Outcome.next (if_pos hd)
    rw [dbgHalt_hart h.isLt] at e
    exact ⟨_, e, dbgHalted_spec h.isLt⟩
  case resume =>
    have e : exec (.debugResume ⟨h, by omega⟩) s = .next (s.dbgResume h) := congrArg Outcome.next (if_pos hd)
    rw [dbgResume_hart h.isLt] at e
    exact ⟨_, e, dbgResumed_spec h.isLt⟩
  case pair =>
    have e : exec (.debugHalt 4) s = .next (s.dbgHalt 4) := congrArg Outcome.next (if_pos hd)
    rw [dbgHalt_pair hs] at e
    exact ⟨_, e, pairHalted_spec⟩

/-- Settles O50: each command's words are read after each write; what a life-cycle state closes is refused. -/
theorem processorsAndDebug : Obligations.ProcessorsAndDebug := ⟨processors, debugPort⟩

end Sys2Proof.Machine

/-! PROOFS. Fabric links: their states, HELLO checks, sequence, credits and replays (spec/17, R416 to R431). -/

namespace Sys2Proof.Machine

open Host (Outcome)

section

variable {s t : State} {l v : Nat}

/-! ## Link states (R416 to R421) -/

/-- A link's lock bits. -/
def State.fabLocks (s : State) (l b f : Nat) : State :=
  (s.set (pFAB l) FAB.STAT_BLOCK_LOCK b).set (pFAB l) FAB.STAT_FEC_LOCK f

theorem fabSt_fabLocks {b f : Nat} : (s.fabLocks l b f).fabSt l = s.fabSt l := by
  rw [State.fabSt, State.fabSt, State.fabLocks,
    get_set_bits (f := FAB.STAT_FEC_LOCK) (g := FAB.STAT_STATE) rfl (by decide) (by decide) (by decide) (by decide),
    get_set_bits (f := FAB.STAT_BLOCK_LOCK) (g := FAB.STAT_STATE) rfl (by decide) (by decide) (by decide) (by decide)]

theorem setFabSt_ne (h : s.fabSt l ≠ v) : s.setFabSt l v = (s.set (pFAB l) FAB.STAT_STATE v).ev (pFAB l) 16 := if_neg h

/-- A link that has found its lock. -/
def State.fabLocked (s : State) (l : Nat) : State :=
  ((s.fabLocks l 1 (s.get (pFAB l) FAB.CFG_FEC)).set (pFAB l) FAB.STAT_STATE flHELLO).ev (pFAB l) 16

theorem execFabBlockLock_train {l : Fin 4} (h : s.fabSt l = flTRAIN) :
    exec (.fabBlockLock l) s = .next (s.fabLocked l) := by
  have hn : (s.fabLocks l 1 (s.get (pFAB l) FAB.CFG_FEC)).fabSt l ≠ flHELLO := by
    rw [fabSt_fabLocks, h]
    decide
  exact (if_pos h).trans (congrArg Outcome.next (setFabSt_ne hn))

theorem fabLocked_spec : (s.fabLocked l).fabSt l = flHELLO ∧ (s.fabLocked l).flag (pFAB l) FAB.STAT_BLOCK_LOCK = true ∧
    (s.fabLocked l).flag (pFAB l) FAB.STAT_FEC_LOCK = s.flag (pFAB l) FAB.CFG_FEC ∧
    SameRegs s (s.fabLocked l) [(pFAB l, FAB.STAT), (pFAB l, PG.EV_STAT)] ∧ SameMem s (s.fabLocked l) := by
  have hb : s.get (pFAB l) FAB.CFG_FEC < 2 ^ 1 := get_lt
  refine ⟨?_, ?_, ?_, ?_, ?_⟩
  · rw [State.fabSt, State.fabLocked, get_ev (by decide), get_set_same (by decide) (by decide)]
    rfl
  · rw [State.fabLocked, flag_ev (by decide), flag_set_bits (f := FAB.STAT_STATE) (g := FAB.STAT_BLOCK_LOCK) rfl
      (by decide) (by decide) (by decide) (by decide), State.fabLocks, flag_set_bits (f := FAB.STAT_FEC_LOCK)
      (g := FAB.STAT_BLOCK_LOCK) rfl (by decide) (by decide) (by decide) (by decide),
      flag_set_same (by decide) (by decide)]
    rfl
  · rw [State.fabLocked, flag_ev (by decide), flag_set_bits (f := FAB.STAT_STATE) (g := FAB.STAT_FEC_LOCK) rfl
      (by decide) (by decide) (by decide) (by decide), State.fabLocks, flag_set_same (by decide) (by decide)]
    rw [show FAB.STAT_FEC_LOCK.width = 1 from rfl, Nat.mod_eq_of_lt hb]
    rfl
  · exact (((sameRegs_refl.set (by simp)).set (by simp)).set (by simp)).ev (by simp)
  · exact keeps_State_ev (k0_sameMem s) (keeps_State_set (k0_sameMem s) (keeps_State_set (k0_sameMem s)
      (keeps_State_set (k0_sameMem s) (sameMem_refl s))))

theorem helloCheck_eq_zero {h : Hello} : s.helloCheck l h = 0 ↔ h.sysId = s.reg pFABR FABR.SYS_ID ∧ h.na = s.nA ∧
    h.nb = s.nB ∧ h.addr ≠ s.addr ∧ h.addr = s.neighbour l ∧ h.link = peerLink l := by
  unfold State.helloCheck
  split_ifs with h1 h2 h3 h4
  · simp [h1]
  · simp only [false_iff]
    tauto
  · simp [h3]
  · simp only [false_iff]
    tauto
  · simp only [true_iff]
    tauto

/-- A HELLO heard in HELLO. -/
def State.helloHeard (s : State) (l : Nat) (h : Hello) (c : Nat) : State :=
  s.setFab l { s.fab l with hello := some h, seen := (s.fab l).seen || decide (c = 0) }

theorem execHelloRx_hello {l : Fin 4} {h : Hello} (hs : s.fabSt l = flHELLO) : exec (.helloRx l (some h)) s =
    if s.helloCheck l h ≠ 0 then .next (((((s.helloHeard l h (s.helloCheck l h)).set (pFAB l) FAB.STAT_FAULT
      (s.helloCheck l h)).err (pFAB l) 17).setFabSt l flFAULT).coordCheck)
    else if h.seen then .next ((s.helloHeard l h (s.helloCheck l h)).linkResync l h)
    else .next (s.helloHeard l h (s.helloCheck l h)) := if_pos hs

theorem helloHeard_right {h : Hello} : s.helloHeard l h 0 = s.setFab l { s.fab l with hello := some h, seen := true } := by
  rw [State.helloHeard, decide_eq_true rfl, Bool.or_true]

theorem helloHeard_wrong {h : Hello} {c : Nat} (hc : c ≠ 0) :
    s.helloHeard l h c = s.setFab l { s.fab l with hello := some h } := by
  rw [State.helloHeard, decide_eq_false hc, Bool.or_false]

theorem execFaultRecheck_some {l : Fin 4} {h : Hello} (hh : (s.fab l).hello = some h) : exec (.faultRecheck l) s =
    if s.fabSt l = flFAULT ∧ s.helloCheck l h = 0 then .next (s.linkResync l h) else .next s := by
  change execFaultRecheck l s = _
  rw [execFaultRecheck, hh]

end

theorem fabLinkStates : Claims.FabLinkStates := by
  unfold Claims.FabLinkStates
  intro l s x p dark
  refine ⟨fun h => ⟨_, execFabBlockLock_train h, fabLocked_spec⟩, fun h => ?noLock, fun h => ?hello, fun h h' => ?noHello,
    rfl, fun h => ⟨helloCheck_eq_zero, fun hs => ⟨fun hc hn => ?right, fun hc hn => ?both, fun hc => ?wrong⟩,
      fun hs => ?fault, fun hs => ⟨fun hb => ?same, fun hb => ?other⟩, fun hh hs hc => ?recheck, fun hh hn => ?noRecheck⟩,
    fun hh => ?noneHeard, fun h => ?timeout, fun h => ?noTimeout, fun h => ?resync, fun h => ?noResync,
    fun h => ⟨?silent, ?loss⟩, fun h => ⟨?noSilent, ?noLoss⟩, fun h => ?holdEnd, fun h => ?noHold, fun h => ?down,
    fun h => ?waited⟩
  case noLock => exact if_neg h
  case hello => exact if_pos h
  case noHello => exact if_neg (by rw [h']; simp [h])
  case right =>
    refine (execHelloRx_hello hs).trans ((if_neg (not_not.mpr hc)).trans ((if_neg (Bool.eq_false_iff.mp hn)).trans ?_))
    rw [show s.helloCheck l h = 0 from hc, helloHeard_right]
  case both =>
    refine (execHelloRx_hello hs).trans ((if_neg (not_not.mpr hc)).trans ((if_pos hn).trans ?_))
    rw [show s.helloCheck l h = 0 from hc, helloHeard_right]
  case wrong =>
    refine (execHelloRx_hello hs).trans ((if_pos hc).trans ?_)
    rw [helloHeard_wrong hc]
  case fault => exact (if_neg (by rw [hs]; decide)).trans (if_pos hs)
  case same => exact (if_neg (by rw [hs]; decide)).trans ((if_neg (by rw [hs]; decide)).trans ((if_pos hs).trans (if_pos hb)))
  case other => exact (if_neg (by rw [hs]; decide)).trans ((if_neg (by rw [hs]; decide)).trans ((if_pos hs).trans (if_neg hb)))
  case recheck => exact (execFaultRecheck_some hh).trans (if_pos ⟨hs, hc⟩)
  case noRecheck => exact (execFaultRecheck_some hh).trans (if_neg (by rintro ⟨h1, h2⟩; exact hn.elim (· h1) (· h2)))
  case noneHeard =>
    change execFaultRecheck l s = _
    rw [execFaultRecheck, show (s.fab l).hello = none from hh]
  case timeout => exact if_pos h
  case noTimeout => exact if_neg h
  case resync => exact if_pos h
  case noResync => exact if_neg h
  case silent => exact if_pos h
  case loss => exact if_pos h
  case noSilent => exact if_neg (Bool.eq_false_iff.mp h)
  case noLoss => exact if_neg (Bool.eq_false_iff.mp h)
  case holdEnd => exact if_pos h
  case noHold => exact if_neg h
  case down => exact if_pos h
  case waited => exact if_neg h

section

variable {s t : State} {l : Nat}

/-! ## Sequence and credits (R423 to R427) -/

theorem fab_setFab {x : FabX} : (s.setFab l x).fab l = x := tabGet_put_same

theorem live_iff : (!s.linkLive l) = true ↔ s.linkLive l = false := by rw [Bool.not_eq_true']

/-- A parcel in its order has come. -/
def State.parcelTaken (s : State) (l : Nat) : State :=
  (s.setFab l { s.fab l with rxNext := ((s.fab l).rxNext + 1) % 4096, nak := false }).inc (pFAB l) FAB.RXCNT

theorem execParcelRx_order {l : Fin 4} {p : Parcel} (hl : s.linkLive l = true)
    (ho : p.lsn % 4096 = (s.fab l).rxNext) : exec (.parcelRx l (some p)) s =
      if p.len = 0 ∨ vcBytes p.vc < 4 * p.len then
        .next (((s.parcelTaken l).incF (pFAB l) FAB.DISCARD_LEN).discardRx l p).pump
      else if kindVc p.kind ≠ some p.vc then
        .next ((((s.parcelTaken l).incF (pFAB l) FAB.DISCARD_KIND).discardRx l p).sweep l).pump
      else .next ((((s.parcelTaken l).acceptRx l p).bulkTake l).sweep l).pump :=
  (if_neg (by rw [hl]; exact Bool.false_ne_true)).trans (if_neg (not_not.mpr ho))

theorem foldl_creditReturn_pending {q : List Nat} {f : Nat → Nat} (h : (s.fab l).resync = 15) (hq : ∀ v ∈ q, v < 4) :
    q.foldl (fun (s : State) v => s.creditReturn l v (f v)) s = s := by
  induction q with
  | nil => rfl
  | cons v q ih =>
    have hv := hq v List.mem_cons_self
    have ht : (s.fab l).resync.testBit v = true := by
      rw [h]
      interval_cases v <;> rfl
    have e : s.creditReturn l v (f v) = s := if_pos ht
    rw [List.foldl_cons, e]
    exact ih (fun k hk => hq k (List.mem_cons_of_mem v hk))

/-- A STATUS has acknowledged parcels. -/
def State.ackTaken (s : State) (l ack : Nat) : State :=
  s.setFab l { s.fab l with
    unacked := (s.fab l).unacked.filter (fun p => decide ((p.lsn + 4096 - ack % 4096) % 4096 < 2048))
    replays := if ((s.fab l).unacked.filter (fun p =>
        decide ((p.lsn + 4096 - ack % 4096) % 4096 < 2048))).length < (s.fab l).unacked.length then 0
      else (s.fab l).replays }

theorem execStatusRx_pending {l : Fin 4} {m : LinkStatus} (hl : s.linkLive l = true)
    (hi : s.injArmed (pFAB l) 1 = false) (hn : m.nak = false) (hr : (s.fab l).resync = 15) :
    exec (.statusRx l m) s = .next (s.ackTaken l m.ack).pump := by
  change execStatusRx l m s = _
  unfold execStatusRx
  rw [if_neg (by rw [hl]; exact Bool.false_ne_true), injTake_unarmed hi]
  have hf : ((s.ackTaken l m.ack).fab l).resync = 15 := by
    rw [State.ackTaken, fab_setFab]
    exact hr
  have e := foldl_creditReturn_pending (q := List.range 4) (f := fun v => m.freed.getD v 0) hf
    (fun v hv => List.mem_range.mp hv)
  refine congrArg (fun x : State => Outcome.next (if m.nak = true then x.replay l else x).pump) e |>.trans ?_
  rw [hn]
  rfl

/-- The peer's answer for VC 0. -/
def State.ackVc0 (s : State) (l : Nat) (freed : List Nat) : State :=
  (s.setFab l { s.fab l with last := (s.fab l).last.set 0 (freed.getD 0 0 % 65536) }).set (pFAB l) (credFld 0) (vcCredits 0)

/-- No VC waits for the peer's answer. -/
def State.resyncOver (s : State) (l : Nat) : State :=
  (s.setFab l { s.fab l with resync := 0 }).set (pFAB l) FAB.STAT_RESYNC_PEND 0

theorem fabSt_resyncOver {freed : List Nat} : ((s.ackVc0 l freed).resyncOver l).fabSt l = s.fabSt l := by
  rw [State.fabSt, State.fabSt, State.resyncOver,
    get_set_bits (f := FAB.STAT_RESYNC_PEND) (g := FAB.STAT_STATE) rfl (by decide) (by decide) (by decide) (by decide),
    get_eq_of_board State.setFab_board, State.ackVc0, get_set_off (f := credFld 0) (by decide),
    get_eq_of_board State.setFab_board]

theorem resync_ackVc0 {freed : List Nat} : ((s.ackVc0 l freed).fab l).resync = (s.fab l).resync := by
  have e : ∀ u : State, ∀ v : Nat, (u.set (pFAB l) (credFld 0) v).fab l = u.fab l := fun u v => by
    rw [State.fab, State.fab, State.set_flinks]
  rw [State.ackVc0, e, fab_setFab]

theorem execResyncAckRx_one {l : Fin 4} {freed : List Nat} (hl : s.linkLive l = true) (hr : (s.fab l).resync = 1) :
    exec (.resyncAckRx l 1 freed) s = if ((s.ackVc0 l freed).resyncOver l).fabSt l = flRESYNC then
      .next ((((s.ackVc0 l freed).resyncOver l).setFabSt l flUP).ev (pFAB l) 17).coordCheck.pump
    else .next ((s.ackVc0 l freed).resyncOver l).pump := by
  change execResyncAckRx l 1 freed s = _
  unfold execResyncAckRx
  rw [if_neg (by rw [hl]; exact Bool.false_ne_true), hr]
  have hx := resync_ackVc0 (s := s) (l := l) (freed := freed)
  rw [hr] at hx
  extract_lets m u x y
  have hm : m = 1 := rfl
  clear_value m
  subst hm
  have hu : u = s.ackVc0 l freed := rfl
  clear_value u
  subst hu
  have hz : x.resync - 1 = 0 := by rw [hx]
  have hy : y = (s.ackVc0 l freed).setFab l { x with resync := 0 } := by
    rw [← hz]
  clear_value y
  subst hy
  exact if_neg (not_not.mpr hz)

theorem get_creditReturn {v f : Nat} (hv : v < 4) (hr : (s.fab l).resync = 0)
    (hle : s.get (pFAB l) (credFld v) + (f + 65536 - (s.fab l).last.getD v 0) % 65536 ≤ vcCredits v) :
    (s.creditReturn l v f).get (pFAB l) (credFld v) =
      s.get (pFAB l) (credFld v) + (f + 65536 - (s.fab l).last.getD v 0) % 65536 := by
  have hc : vcCredits v ≤ 32 := by
    unfold vcCredits
    split <;> decide
  have hlo : (credFld v).lo ≤ (credFld v).hi := by simp only [credFld]; omega
  have hhi : (credFld v).hi < 32 := by simp only [credFld]; omega
  have hw : (credFld v).width = 8 := by simp only [credFld, Fld.width]; omega
  unfold State.creditReturn
  extract_lets x d c u
  rw [if_neg (by rw [hr, Nat.zero_testBit]; exact Bool.false_ne_true), if_neg (Nat.not_lt.mpr hle),
    get_set_same hlo hhi, hw]
  exact Nat.mod_eq_of_lt (lt_of_le_of_lt hle (lt_of_le_of_lt hc (by decide)))

end

theorem fabSequence : Claims.FabSequence := by
  unfold Claims.FabSequence
  intro l s
  refine ⟨fun h => ⟨fun p => ?rx, ?tx, fun m => ?status, ?replay, fun mask next => ?req, ?resend, fun mask freed => ?ack⟩,
    fun h => ⟨?txLive, ?crc, fun p hp => ?nak, fun p hp => ⟨_, rfl, fun hlen => ?len, fun h0 hlen hk => ?kind,
      fun h0 hlen hk => ?accept⟩, fun m hi hn hr => execStatusRx_pending h hi hn hr, ?replayLive,
      fun mask next => ?reqLive, fun hr => ?resendLive,
      fun freed u hr hu => ⟨fun hs => ?up, fun hs => ?resync⟩⟩, fun v f d hr hd hle => ?credit⟩
  case rx => exact if_pos (live_iff.mpr h)
  case tx => exact if_neg (Bool.eq_false_iff.mp h)
  case status => exact if_pos (live_iff.mpr h)
  case replay => exact if_neg (Bool.eq_false_iff.mp h)
  case req => exact if_neg (Bool.eq_false_iff.mp h)
  case resend => exact if_neg (fun x => Bool.false_ne_true (h.symm.trans x.1))
  case ack => exact if_pos (live_iff.mpr h)
  case txLive => exact if_pos h
  case crc => exact if_neg (by rw [h]; exact Bool.false_ne_true)
  case nak => exact (if_neg (by rw [h]; exact Bool.false_ne_true)).trans (if_pos hp)
  case len => exact (execParcelRx_order h hp).trans (if_pos hlen)
  case kind =>
    exact (execParcelRx_order h hp).trans ((if_neg (by rintro (h' | h') <;> omega)).trans (if_pos hk))
  case accept =>
    exact (execParcelRx_order h hp).trans ((if_neg (by rintro (h' | h') <;> omega)).trans (if_neg (not_not.mpr hk)))
  case replayLive => exact if_pos h
  case reqLive => exact if_pos h
  case resendLive => exact if_pos ⟨h, hr⟩
  case up =>
    subst hu
    exact (execResyncAckRx_one h hr).trans (if_neg (by rw [fabSt_resyncOver, hs]; decide))
  case resync =>
    subst hu
    exact (execResyncAckRx_one h hr).trans (if_pos (by rw [fabSt_resyncOver, hs]))
  case credit =>
    subst hd
    exact get_creditReturn v.isLt hr hle

/-- Settles O51: a link's states and sequence are the model's case distinctions; while all VCs wait for the peer's answer
no credit is taken. -/
theorem fabLinks : Obligations.FabLinks := ⟨fabLinkStates, fabSequence⟩

end Sys2Proof.Machine

/-! PROOFS. ANNOUNCE, devices that fall silent, the transaction engine, requests of other devices (spec/17, R432 to R440). -/

namespace Sys2Proof.Machine

open Host (Outcome)

section

variable {s t : State}

/-! ## Responses and requests -/

theorem execBrspRx_some {l : Fin 5} {p : Parcel} (h : s.waiting l [kdBRSP] = some p) : exec (.brspRx l) s =
    match (s.takeWaiting l [kdBRSP]).router.txns.find? (fun t => t.tag == p.tag) with
    | none => .next ((s.takeWaiting l [kdBRSP]).incF pFABR FABR.TXN_CNT_LATE)
    | some t =>
      .next ((if !t.wr ∧ (Parcel_data p).getD 0 0 % 8 = 0 then
          (s.takeWaiting l [kdBRSP]).setMemBytes t.buf (((Parcel_data p).drop 4).take (4 * t.count))
        else s.takeWaiting l [kdBRSP]).txnEnd t ((Parcel_data p).getD 0 0 % 8) ((Parcel_data p).getD 1 0)
          (ofLE (((Parcel_data p).drop 2).take 2))) := by
  change execBrspRx l s = _
  rw [execBrspRx, h] <;> rfl

/-- The access that a read request of another device asks for. -/
def reqAcc (p : Parcel) : WaitAcc :=
  { w := .remote (Fin.ofNat 4096 p.src), page := ofLE (((Parcel_data p).drop 2).take 2) % 4096
    off := ofLE (((Parcel_data p).drop 4).take 2) % 4096, data := none
    count := ofLE (((Parcel_data p).drop 6).take 2), tag := some p.tag }

theorem execBreqRx_read {l : Fin 5} {p : Parcel} {e : Ecc} (h : s.waiting l [kdBREQ] = some p)
    (hr : ((Parcel_data p).getD 0 0).testBit 0 = false) : exec (.breqRx l e) s =
      if e = .double then .next ((s.takeWaiting l [kdBREQ]).answerAcc (reqAcc p) .integrity 0 [])
      else if (ownerPage (reqAcc p).page).isNone then
        .next ((s.takeWaiting l [kdBREQ]).answerAcc (reqAcc p) .noPage 0 [])
      else if p.len ≠ 2 then .next ((s.takeWaiting l [kdBREQ]).answerAcc (reqAcc p) .badLength 0 [])
      else .next ((s.takeWaiting l [kdBREQ]).transact (reqAcc p) p.wake) := by
  change execBreqRx l e s = _
  rw [execBreqRx, h]
  simp only [hr, Bool.false_eq_true, if_false, Nat.add_zero]
  rfl

theorem execDeliverDrop_some {l : Fin 5} {p : Parcel}
    (h : s.waiting l [kdANNOUNCE, kdBREQ, kdBRSP, kdBULK] = some p) : exec (.deliverDrop l) s =
      .next (if p.kind = kdBREQ then (((s.takeWaiting l [kdANNOUNCE, kdBREQ, kdBRSP, kdBULK]).incF pFABR
        FABR.NOROUTE_CNT_DELIVER_DROP).originate (localAnswer p false true)).pump
      else (s.takeWaiting l [kdANNOUNCE, kdBREQ, kdBRSP, kdBULK]).incF pFABR FABR.NOROUTE_CNT_DELIVER_DROP) := by
  change execDeliverDrop l s = _
  unfold execDeliverDrop
  extract_lets ks
  rw [show s.waiting l ks = some p from h]

/-! ## The transaction engine's ring -/

theorem txqWrWrite_empty {v : Word} (h : s.txqSize = 0) :
    s.txqWrWrite v = s.setReg pFABR FABR.TXQ_WR (v.toNat % 65536) := by
  have e : (s.setReg pFABR FABR.TXQ_WR (v.toNat % 65536)).txqSize = s.txqSize := by
    rw [State.txqSize, State.txqSize, reg_setReg_off (by decide)]
  rw [State.txqWrWrite, State.txqRun, e, h]
  rfl

theorem exec_txqWrWrite {w : Writer} {v : Word} {x : State} (hw : s.mayAct w pFABR) (h : s.txqWrWrite v = x) :
    exec (.txqWrWrite w v) s = .next (x.answer w .ok) := by
  subst h
  exact congrArg Outcome.next (finish_action (f := fun s => (s.txqWrWrite v, .ok)) hw rfl)

end

/-- Settles O52: each command takes the parcel that waits and goes the way that its fields name. -/
theorem fabTransactions : Obligations.FabTransactions := by
  unfold Obligations.FabTransactions
  intro l s
  refine ⟨fun h => ?quiet, fun h => ⟨_, rfl, ?announces⟩, fun k p h => ?heard, fun k h => ?noneHeard, fun a h => ?kept,
    fun h => ?noResponse, fun h e => ?noRequest, fun a ha hr => ?lost, fun w v hw h => ?ring,
    fun w v hw => exec_txqWrWrite hw rfl, fun tag => ⟨fun h => ?noTxn, fun x h => ?timeout⟩, fun p u hp hu => ?response,
    fun p u b n a hp hu hb hn hr ha => ?request, fun h => ?noDrop, fun p h => ⟨fun hk => ?drop, fun hk => ?dropReq⟩⟩
  case quiet => exact if_neg (Bool.eq_false_iff.mp h)
  case announces => exact if_pos h
  case heard =>
    change execAnnounceRx k s = _
    rw [execAnnounceRx, h]
  case noneHeard =>
    change execAnnounceRx k s = _
    rw [execAnnounceRx, h]
  case kept => exact if_neg (by rintro ⟨h1, h2⟩; exact h.elim h1 (fun h' => Bool.false_ne_true (h'.symm.trans h2)))
  case noResponse =>
    change execBrspRx l s = _
    rw [execBrspRx, h]
  case noRequest =>
    change execBreqRx l e s = _
    rw [execBreqRx, h]
  case lost => exact if_pos ⟨ha, hr⟩
  case ring =>
    have e := exec_txqWrWrite hw (txqWrWrite_empty (v := v) h)
    refine ⟨_, e, ?_, ?_, ?_⟩
    · rw [reg_answer, reg_setReg_same]
      omega
    · exact (sameRegs_refl.setReg (by decide)).answer
    · exact sameMem_answer (keeps_State_setReg (k0_sameMem s) (sameMem_refl s))
  case noTxn =>
    change execTxnTimeout tag s = _
    rw [execTxnTimeout, h]
  case timeout =>
    change execTxnTimeout tag s = _
    rw [execTxnTimeout, h]
  case response =>
    subst hu
    have e := execBrspRx_some hp
    dsimp only
    refine ⟨fun h => ?_, fun x h => ?_⟩
    · rw [e, h]
    · rw [h] at e
      dsimp only at e
      refine ⟨fun hn => ?_, fun hw hc => ?_⟩
      · rw [e, if_neg]
        rintro ⟨h1, h2⟩
        rcases hn with hn | hn
        · rw [hn] at h1
          exact Bool.false_ne_true h1
        · exact hn h2
      · rw [e, if_pos ⟨by rw [hw]; rfl, hc⟩]
  case request =>
    subst hu hb hn
    subst ha
    have e := fun x => execBreqRx_read (e := x) hp hr
    have hsome : (ownerPage (reqAcc p).page).isSome = true → ¬(ownerPage (reqAcc p).page).isNone = true := fun ho => by
      rw [Option.isNone_eq_false_iff.mpr ho]
      exact Bool.false_ne_true
    refine ⟨(e _).trans (if_pos rfl), fun ho => ?_, fun ho hl => ?_, fun ho hl => ?_⟩
    · exact (e _).trans ((if_neg (by decide)).trans (if_pos (Option.isNone_iff_eq_none.mpr ho)))
    · exact (e _).trans ((if_neg (by decide)).trans ((if_neg (hsome ho)).trans (if_pos hl)))
    · exact (e _).trans ((if_neg (by decide)).trans ((if_neg (hsome ho)).trans
        (if_neg (not_not.mpr hl))))
  case noDrop =>
    change execDeliverDrop l s = _
    unfold execDeliverDrop
    extract_lets ks
    rw [show s.waiting l ks = none from h]
  case drop => exact (execDeliverDrop_some h).trans (congrArg Outcome.next (if_neg hk))
  case dropReq => exact (execDeliverDrop_some h).trans (congrArg Outcome.next (if_pos hk))

end Sys2Proof.Machine

/-! PROOFS. The gate of sessions (spec/18, R450 to R463). -/

namespace Sys2Proof.Machine

open Host (Outcome)

section

/-- A read of one word of FAB[0] past PG_STAT, with WAKE. -/
def wakingRead : List Nat := [1, 1, 0, 0, 0, 0, 0, 0] ++ leBytes 2 (pFAB 0) ++ [16, 0, 1, 0, 0, 0]

/-- The FAB domain rests; session 0 is open, holds every right on every page, and has that read waiting. -/
def wakingSession : State :=
  { State.reset.setReg 0x900 0x40 0xFFF0003F with
    doms := [(Dom.fab.idx, .resting)]
    sess := [(0, { isOpen := true, bucket := 1000, inq := [wakingRead] })] }

/-- The bit of PG_EV_STAT for a change of the domain of FAB[0], after a command. -/
def domEvent (o : Outcome State Fault Refusal) : Bool :=
  match o with
  | .next t => t.bit (pFAB 0) PG.EV_STAT 3
  | _ => false

/-- The gate passes the read and wakes the domain, which every page of the domain reports. -/
theorem domEvent_gateDecision : domEvent (exec (.gateDecision 0) wakingSession) = true := by decide +kernel

/-- Refutes O53: a request that wakes its page's domain sets the event bit of the change on the domain's pages, so
the registers do not stay as they were. -/
theorem not_sessions : ¬ Obligations.Sessions := by
  rintro ⟨-, hs⟩
  obtain ⟨-, hdecide, -⟩ := hs .spc 0 wakingSession
  obtain ⟨-, -, hgate⟩ := hdecide wakingRead [] _ _ rfl rfl rfl (by decide) rfl rfl rfl
  obtain ⟨-, -, -, hpassed⟩ := hgate (by decide) (by decide)
  obtain ⟨t, ht, -, -, -, -, hregs, -⟩ := hpassed (by decide +kernel) (by decide) (by decide)
  have h : domEvent (.next t) = wakingSession.bit (pFAB 0) PG.EV_STAT 3 := hregs.bit (by simp)
  exact absurd ((congrArg domEvent ht).symm.trans domEvent_gateDecision) (by rw [h]; decide)

end

end Sys2Proof.Machine

/-! PROOFS. Tunnels and plant Ethernet (spec/18, R449, R461 to R465, R471). -/

namespace Sys2Proof.Machine

open Host (Outcome)

section

variable {s t v : State} {n : Fin 1024} {src : Fin 4096} {m : TunMsg} {r : SessReq} {rsp : Bool}

/-! ## Requests of the entry's client (R463) -/

theorem execOpenTunnel_none (h : s.takeReq n 3 = none) : execOpenTunnel n s = .next s := by
  rw [execOpenTunnel, h]

theorem execOpenTunnel_some (h : s.takeReq n 3 = some (r, t)) : execOpenTunnel n s =
    if r.mute then .next t
    else if !t.discReach r.page then .next (t.sessReply n r .timeout 1 0 [])
    else .next ((t.setSes n { t.ses n with
      chans := (t.ses n).chans ++ [{ c := r.chan, dst := r.page, up := false, tsess := 0, tag := r.tag }] }).tunSend
      r.page topOPEN { esess := n, chan := r.chan, data := leBytes 4 (t.grantWord n 0x10) ++ leBytes 4 (t.grantWord n 0x14) }) := by
  rw [execOpenTunnel, h]
  rfl

theorem execCloseTunnel_none (h : s.takeReq n 4 = none) : execCloseTunnel n s = .next s := by
  rw [execCloseTunnel, h]

theorem execCloseTunnel_noChannel (h : s.takeReq n 4 = some (r, t)) (hc : SessX_chan (t.ses n) r.chan = none) :
    execCloseTunnel n s = .next (t.sessReply n r .noPage 0 0 []) := by
  rw [execCloseTunnel, h]
  dsimp only
  rw [hc]

theorem execCloseTunnel_channel {c : ChanX} (h : s.takeReq n 4 = some (r, t))
    (hc : SessX_chan (t.ses n) r.chan = some c) : execCloseTunnel n s = .next (((t.chanDrop n r.chan).tunSend c.dst topCLOSE
      { esess := n, chan := c.c, tsess := c.tsess }).sessReply n r .ok 0 0 []) := by
  rw [execCloseTunnel, h]
  dsimp only
  rw [hc]

/-! ## The entry's channels -/

theorem execTunnelOpenAckRx_none (h : s.openingChan (m.esess % 1024) m.chan src = none) : execTunnelOpenAckRx src m s =
    if m.code = 0 then .next (s.tunSend src topCLOSE { esess := m.esess % 1024, chan := m.chan, tsess := m.tsess })
    else .next s := by
  rw [execTunnelOpenAckRx]
  dsimp only
  rw [h]

/-- The OPEN_TUNNEL that a channel's end answers. -/
def openRequest (c : ChanX) : SessReq :=
  { ty := 3, wake := false, chan := c.c, tag := c.tag, page := 0, off := 0, count := 0, data := [] }

theorem execTunnelOpenAckRx_some {c : ChanX} (h : s.openingChan (m.esess % 1024) m.chan src = some c) :
    execTunnelOpenAckRx src m s =
    if m.code = 0 then .next ((s.setSes (m.esess % 1024) { s.ses (m.esess % 1024) with
      chans := (s.ses (m.esess % 1024)).chans.map (fun e => if e.c = c.c then { e with up := true, tsess := m.tsess }
        else e) }).sessReply (m.esess % 1024) (openRequest c) .ok 0 0 [])
    else .next ((s.chanDrop (m.esess % 1024) c.c).sessReply (m.esess % 1024) (openRequest c) .busy 0 0 []) := by
  rw [execTunnelOpenAckRx]
  dsimp only
  rw [h]
  rfl

theorem execTunnelTimeout_opening {c : Fin 16} {x : ChanX} (h : SessX_chan (s.ses n) c = some x) (hx : x.up = false) :
    execTunnelTimeout n c s = .next ((s.chanDrop n c).sessReply n
      { ty := 3, wake := false, chan := c, tag := x.tag, page := 0, off := 0, count := 0, data := [] } .timeout 0 0 []) := by
  rw [execTunnelTimeout, h]
  exact if_neg (by rw [hx]; decide)

theorem execTunnelTimeout_notOpening {c : Fin 16} (h : (SessX_chan (s.ses n) c).all (fun x => x.up) = true) :
    execTunnelTimeout n c s = .next s := by
  rw [execTunnelTimeout]
  cases hc : SessX_chan (s.ses n) c with
  | none => rfl
  | some x =>
    rw [hc] at h
    exact if_pos h

theorem execTunnelRspRx_channel {c : ChanX} (h : SessX_chan (s.ses (m.esess % 1024)) m.chan = some c) (hu : c.up = true)
    (hd : c.dst = src.val) : execTunnelRspRx src m s =
      match (s.joinFrag src m true).2 with
      | none => .next (s.joinFrag src m true).1
      | some b => .next ((s.joinFrag src m true).1.sessSend (m.esess % 1024) b) := by
  rw [execTunnelRspRx]
  dsimp only
  rw [h]
  exact if_neg (by simp [hu, hd])

theorem execTunnelRspRx_noChannel
    (h : (SessX_chan (s.ses (m.esess % 1024)) m.chan).all (fun c => !c.up || decide (c.dst ≠ src.val)) = true) :
    execTunnelRspRx src m s = .next s := by
  rw [execTunnelRspRx]
  dsimp only
  cases hc : SessX_chan (s.ses (m.esess % 1024)) m.chan with
  | none => rfl
  | some c =>
    rw [hc] at h
    exact if_pos (by simpa using h)

/-! ## The target's tunnel sessions -/

theorem execTunnelReqRx_some {k : Nat} (h : s.tunSess src m = some k) : execTunnelReqRx src m s =
      match (s.joinFrag src m false).2 with
      | none => .next (s.joinFrag src m false).1
      | some b => .next ((s.joinFrag src m false).1.setSes k { (s.joinFrag src m false).1.ses k with
          inq := ((s.joinFrag src m false).1.ses k).inq ++ [b] }) := by
  rw [execTunnelReqRx, h] <;> rfl

theorem execTunnelReqRx_none (h : s.tunSess src m = none) : execTunnelReqRx src m s = .next s := by
  rw [execTunnelReqRx, h]

theorem execTunnelCloseRx_session {k : Nat} (h : s.tunSess src m = some k) :
    execTunnelCloseRx src m s = .next (s.closeSess k 7) := by
  rw [execTunnelCloseRx, h]

theorem execTunnelCloseRx_channel {c : ChanX} (h : s.tunSess src m = none)
    (hc : SessX_chan (s.ses (m.esess % 1024)) m.chan = some c) (hd : c.dst = src.val) :
    execTunnelCloseRx src m s = .next (s.chanDrop (m.esess % 1024) c.c) := by
  rw [execTunnelCloseRx, h]
  dsimp only
  rw [hc]
  exact if_pos hd

theorem execTunnelCloseRx_nothing (h : s.tunSess src m = none)
    (hc : (SessX_chan (s.ses (m.esess % 1024)) m.chan).all (fun c => decide (c.dst ≠ src.val)) = true) :
    execTunnelCloseRx src m s = .next s := by
  rw [execTunnelCloseRx, h]
  dsimp only
  cases hx : SessX_chan (s.ses (m.esess % 1024)) m.chan with
  | none => rfl
  | some c =>
    rw [hx] at hc
    exact if_neg (by simpa using hc)

/-! ## Plant Ethernet (R471) -/

/-- A port's status as its link and block lock are. -/
def State.ethShown (s : State) (k : Nat) (link lock : Bool) : State :=
  (s.setB (pETH k) ETH.STAT_LINK link).setB (pETH k) ETH.STAT_BLOCK_LOCK lock

theorem exec_ethLinkChg {k : Fin 2} {link lock : Bool} : exec (.ethLinkChg k link lock) s = .next
    (if s.flag (pETH k) ETH.STAT_LINK = link then s.ethShown k link lock else (s.ethShown k link lock).ev (pETH k) 16) := rfl

theorem link_ethShown {k : Nat} {link lock : Bool} : (s.ethShown k link lock).flag (pETH k) ETH.STAT_LINK = link := by
  rw [State.ethShown, flag_setB_bits (f := ETH.STAT_BLOCK_LOCK) (g := ETH.STAT_LINK) rfl (by decide) (by decide)
    (by decide) (by decide)]
  exact flag_setB_same (by decide) (by decide)

theorem lock_ethShown {k : Nat} {link lock : Bool} : (s.ethShown k link lock).flag (pETH k) ETH.STAT_BLOCK_LOCK = lock :=
  flag_setB_same (by decide) (by decide)

theorem sameRegs_ethShown {k : Nat} {link lock : Bool} :
    SameRegs s (s.ethShown k link lock) [(pETH k, ETH.STAT), (pETH k, PG.EV_STAT)] :=
  SameRegs.setB (SameRegs.setB sameRegs_refl (by simp)) (by simp)

theorem sameMem_ethShown {k : Nat} {link lock : Bool} : SameMem s (s.ethShown k link lock) :=
  keeps_State_setB (k0_sameMem s) (keeps_State_setB (k0_sameMem s) (sameMem_refl s))

/-! ## Parts of a message (R464) -/

theorem joinFrag_whole {a : Nat} (h1 : m.frag ≠ 1) (h2 : m.frag ≠ 2) : s.joinFrag a m rsp = (s, some m.data) :=
  if_pos ⟨h1, h2⟩

/-- A first part as it waits for the second. -/
def firstPart (src : Nat) (m : TunMsg) (rsp : Bool) : Frag :=
  { src := src, esess := m.esess, chan := m.chan, tsess := m.tsess, tag := ofLE ((m.data.drop 4).take 4), rsp := rsp
    second := false, data := m.data }

theorem joinFrag_first {a : Nat} (h : m.frag = 1) (hg : s.gate.frags = []) :
    s.joinFrag a m rsp = (s.setGate { s.gate with frags := [firstPart a m rsp] }, none) := by
  rw [State.joinFrag, if_neg (by simp [h])]
  dsimp only
  rw [hg]
  simp [h, firstPart]

theorem joinFrag_second {a : Nat} {p : TunMsg} (h : m.frag = 2) (hg : s.gate.frags = [firstPart a p rsp])
    (he : p.esess = m.esess) (hc : p.chan = m.chan) (ht : (p.data.drop 4).take 4 = m.data.take 4) :
    s.joinFrag a m rsp = (s.setGate { s.gate with frags := [] }, some (p.data ++ m.data.drop 4)) := by
  rw [State.joinFrag, if_neg (by simp [h])]
  dsimp only
  rw [hg]
  simp [h, firstPart, he, hc, ht, List.findIdx?_cons]

theorem setGate_frags (h : s.gate.frags = []) {l : List Frag} :
    (s.setGate { s.gate with frags := l }).setGate { (s.setGate { s.gate with frags := l }).gate with frags := [] } = s := by
  rw [← h]
  rfl

end

/-- Settles O54. -/
theorem tunnels : Obligations.Tunnels := by
  unfold Obligations.Tunnels
  intro n src m s
  refine ⟨execOpenTunnel_none, execCloseTunnel_none, fun r u h hm => (execOpenTunnel_some h).trans (if_pos hm),
    fun r u h hc => execCloseTunnel_noChannel h hc, fun r u h hm => ?opened, fun r u c h hc => execCloseTunnel_channel h hc,
    fun h => if_neg (Nat.not_le.mpr h), fun h => if_pos h, fun h hm => (execTunnelOpenAckRx_none h).trans (if_pos hm),
    fun h hm => (execTunnelOpenAckRx_none h).trans (if_neg hm), fun c h hm => (execTunnelOpenAckRx_some h).trans (if_neg hm),
    fun c u h hm hu => ?acknowledged, fun c x h hx => execTunnelTimeout_opening h hx,
    fun c h => execTunnelTimeout_notOpening h, fun h => ?request, execTunnelReqRx_none, fun c h hu hd => ?response,
    execTunnelRspRx_noChannel, fun a b ha hb he hc hf rsp d e hd he' hl u hu => ?parts, execTunnelCloseRx_session,
    fun h => ⟨fun c hc hd => execTunnelCloseRx_channel h hc hd, fun hc => execTunnelCloseRx_nothing h hc⟩, rfl,
    fun k b he hl => if_pos (by rw [he, hl]; rfl), fun k b h => ?noFrame, fun k link lock => ?link⟩
  case opened =>
    have e : exec (.openTunnel n) s = _ := (execOpenTunnel_some h).trans (if_neg (by rw [hm]; decide))
    refine ⟨fun hr => e.trans (if_pos (by rw [hr]; rfl)), fun hr => ⟨_, rfl, e.trans ((if_neg (by rw [hr]; decide)).trans ?_)⟩⟩
    rfl
  case acknowledged =>
    rw [hu]
    exact (execTunnelOpenAckRx_some h).trans (if_pos hm)
  case request =>
    have e := execTunnelReqRx_some h
    refine ⟨fun h1 h2 => ?_, fun hn => ?_, fun v b hv => ?_⟩
    · rw [joinFrag_whole h1 h2] at e
      exact e
    · rw [hn] at e
      exact e
    · rw [hv] at e
      exact e
  case response =>
    have e := execTunnelRspRx_channel h hu hd
    refine ⟨fun h1 h2 => ?_, fun hn => ?_, fun v b hv => ?_⟩
    · rw [joinFrag_whole h1 h2] at e
      exact e
    · rw [hn] at e
      exact e
    · rw [hv] at e
      exact e
  case parts =>
    subst hd
    have hlen : ((a.data.drop 4).take 4).length = 4 := by
      rw [List.length_take, List.length_drop]
      omega
    have htake : b.data.take 4 = (a.data.drop 4).take 4 := by rw [he', List.take_left' hlen]
    have hdrop : b.data.drop 4 = e := by rw [he', List.drop_left' hlen]
    have h1 := joinFrag_first (a := src) (rsp := rsp) ha hf
    subst hu
    have h2 : (s.joinFrag src a rsp).1.joinFrag src b rsp = _ :=
      joinFrag_second (p := a) hb (by rw [h1]; rfl) he hc htake.symm
    refine ⟨congrArg Prod.snd h1, ?_, ?_⟩
    · rw [h2, hdrop]
    · rw [h2, h1]
      exact setGate_frags hf
  case noFrame =>
    refine if_neg ?_
    rcases h with h | h <;> simp [h]
  case link =>
    have e := exec_ethLinkChg (s := s) (k := k) (link := link) (lock := lock)
    have h1 := link_ethShown (s := s) (k := k) (link := link) (lock := lock)
    have h2 := lock_ethShown (s := s) (k := k) (link := link) (lock := lock)
    have h3 := sameRegs_ethShown (s := s) (k := k) (link := link) (lock := lock)
    have h4 := sameMem_ethShown (s := s) (k := k) (link := link) (lock := lock)
    generalize s.ethShown k link lock = u at *
    by_cases h : s.flag (pETH k) ETH.STAT_LINK = link
    · rw [if_pos h] at e
      exact ⟨u, e, h1, h2, fun hn => absurd h hn, h3, h4⟩
    · rw [if_neg h] at e
      exact ⟨_, e, (flag_ev (by decide)).trans h1, (flag_ev (by decide)).trans h2, fun _ => bit_ev (by decide),
        h3.ev (by simp), keeps_State_ev (k0_sameMem s) h4⟩

end Sys2Proof.Machine

/-! PROOFS. The commands of the crypto engine (spec/18, R467, R470). -/

namespace Sys2Proof.Machine

open Host (Outcome)

section

variable {s t : State} {w : Writer} {op k y : Nat}

/-! ## The command word -/

theorem and_two_pow_mul_add {a b c d n : Nat} (hb : b < 2 ^ n) (hd : d < 2 ^ n) :
    (2 ^ n * a + b) &&& (2 ^ n * c + d) = 2 ^ n * (a &&& c) + (b &&& d) := by
  have hbd : b &&& d < 2 ^ n := Nat.and_lt_two_pow b hd
  refine Nat.eq_of_testBit_eq fun i => ?_
  rw [Nat.testBit_and, Nat.testBit_two_pow_mul_add a hb, Nat.testBit_two_pow_mul_add c hd,
    Nat.testBit_two_pow_mul_add _ hbd]
  split
  · rw [Nat.testBit_and]
  · rw [Nat.testBit_and]

/-- CMD as it is written to start an operation. -/
def keyWord (op k y : Nat) : Nat := 2 ^ 31 + y * 2 ^ 16 + k * 2 ^ 8 + op

theorem keyWord_lt (hop : op < 16) (hk : k < 256) (hy : y < 16) : keyWord op k y < 2 ^ 32 := by
  rw [keyWord]
  omega

theorem keyWord_and (hop : op < 16) (hk : k < 256) (hy : y < 16) : keyWord op k y &&& 0x800FFF0F = keyWord op k y := by
  have e : keyWord op k y = 2 ^ 8 * (2 ^ 8 * (2 ^ 4 * 2 ^ 11 + y) + k) + op := by
    rw [keyWord]
    omega
  have hop' : op &&& 15 = op := Nat.and_two_pow_sub_one_of_lt_two_pow (n := 4) hop
  have hk' : k &&& 255 = k := Nat.and_two_pow_sub_one_of_lt_two_pow (n := 8) hk
  have hy' : y &&& 15 = y := Nat.and_two_pow_sub_one_of_lt_two_pow (n := 4) hy
  rw [e, show 0x800FFF0F = 2 ^ 8 * (2 ^ 8 * (2 ^ 4 * 2 ^ 11 + 15) + 255) + 15 by rfl,
    and_two_pow_mul_add (by omega) (by omega), and_two_pow_mul_add (by omega) (by omega),
    and_two_pow_mul_add (by omega) (by omega), Nat.and_self, hop', hk', hy']

theorem toNat_keyWord (hop : op < 16) (hk : k < 256) (hy : y < 16) : (wordOf (keyWord op k y)).toNat = keyWord op k y := by
  rw [BitVec.toNat_ofNat, Nat.mod_eq_of_lt (keyWord_lt hop hk hy)]

theorem maskW_keyWord (hop : op < 16) (hk : k < 256) (hy : y < 16) :
    maskW (wordOf (keyWord op k y)) 0x800FFF0F = wordOf (keyWord op k y) := by
  refine BitVec.eq_of_toNat_eq ?_
  rw [maskW, BitVec.toNat_and, toNat_keyWord hop hk hy]
  exact keyWord_and hop hk hy

theorem read_keyWord (hop : op < 16) (hk : k < 256) (hy : y < 16) :
    KEYS.CMD_GO.read (wordOf (keyWord op k y)) = 1 ∧ KEYS.CMD_OP.read (wordOf (keyWord op k y)) = op ∧
      KEYS.CMD_TYPE.read (wordOf (keyWord op k y)) = y ∧ KEYS.CMD_SLOT.read (wordOf (keyWord op k y)) = k := by
  simp only [Fld.read, Fld.width]
  rw [toNat_keyWord hop hk hy, keyWord]
  omega

/-! ## Starting a command -/

/-- The engine runs a command. -/
def State.keyStart (s : State) (op k y : Nat) : State :=
  ((s.setWord pKEYS KEYS.CMD (wordOf (keyWord op k y))).setKeys
    { s.keys with cmd := some { op := op, ty := y, slot := k, inp := s.reg64 pKEYS KEYS.IN_LO
                                len := s.reg pKEYS KEYS.LEN_IN % 2 ^ 25, out := s.reg64 pKEYS KEYS.OUT_LO } }).set
    pKEYS KEYS.STAT_BUSY 1

theorem keyCmdWrite_start (h : s.flag pKEYS KEYS.STAT_BUSY = false) (hop : op < 16) (hk : k < 256) (hy : y < 16) :
    s.keyCmdWrite (wordOf (keyWord op k y)) = (s.keyStart op k y, .ok) := by
  obtain ⟨hgo, hop', hty, hslot⟩ := read_keyWord hop hk hy
  have hr (o : Nat) (ho : o ≠ KEYS.CMD) : (s.setWord pKEYS KEYS.CMD (wordOf (keyWord op k y))).reg pKEYS o = s.reg pKEYS o :=
    congrArg BitVec.toNat (word_setWord_off ho)
  have hr64 (o : Nat) (ho : o ≠ KEYS.CMD) (ho' : o + 4 ≠ KEYS.CMD) :
      (s.setWord pKEYS KEYS.CMD (wordOf (keyWord op k y))).reg64 pKEYS o = s.reg64 pKEYS o := by
    rw [State.reg64, State.reg64, hr o ho, hr _ ho']
  rw [State.keyCmdWrite, if_neg (by rw [h]; decide), maskW_keyWord hop hk hy]
  dsimp only
  rw [hgo, if_neg (by decide), hop', hty, hslot, hr64 _ (by decide) (by decide), hr64 _ (by decide) (by decide),
    hr _ (by decide), State.setWord_keys, State.keyStart]

theorem keyOp_start (hw : s.mayAct w pKEYS) (h : s.flag pKEYS KEYS.STAT_BUSY = false) (hop : op < 16) (hk : k < 256)
    (hy : y < 16) : s.keyOp w op k y = (s.keyStart op k y).answer w .ok := by
  rw [State.keyOp, Nat.mod_eq_of_lt hy, Nat.mod_eq_of_lt hk]
  exact finish_action (f := fun s => s.keyCmdWrite (wordOf (keyWord op k y))) hw (keyCmdWrite_start h hop hk hy)

theorem keyOp_busy (hw : s.mayAct w pKEYS) (h : s.flag pKEYS KEYS.STAT_BUSY = true) :
    s.keyOp w op k y = ((s.err pKEYS 16).countRefused w pKEYS .writeRefused).answer w .writeRefused :=
  finish_action_code (f := fun s => s.keyCmdWrite _) hw (ownerPage_of_type (y := .keys) (by decide)) (if_pos h)

/-! ## The entropy source (R467) -/

/-- A health test has failed. -/
def State.entFailed (s : State) : State :=
  ((s.set pKEYS KEYS.STAT_ENT_FAIL 1).incSat pKEYS KEYS.ENT_CNT).err pKEYS 17

theorem flag_entFailed : s.entFailed.flag pKEYS KEYS.STAT_ENT_FAIL = true := by
  rw [State.entFailed, flag_err (by decide) (by decide) (by decide), State.flag, get_incSat_off (by decide)]
  exact flag_setB_same (f := KEYS.STAT_ENT_FAIL) (b := true) (by decide) (by decide)

theorem count_entFailed : s.entFailed.reg pKEYS KEYS.ENT_CNT = min (s.reg pKEYS KEYS.ENT_CNT + 1) 0xFFFFFFFF := by
  rw [State.entFailed, reg_err (by decide) (by decide) (by decide), reg_incSat_same, reg_set_off (by decide)]

theorem sameRegs_entFailed : SameRegs s s.entFailed [(pKEYS, KEYS.STAT), (pKEYS, KEYS.ENT_CNT), (pKEYS, PG.ERR),
    (pKEYS, PG.ERRCNT), (pKEYS, PG.EV_STAT)] :=
  SameRegs.err (SameRegs.incSat (sameRegs_refl.set (by simp)) (by simp)) (by simp) (by simp) (by simp)

theorem sameMem_entFailed : SameMem s s.entFailed :=
  keeps_State_err (k0_sameMem s) (keeps_State_incSat (k0_sameMem s) (keeps_State_set (k0_sameMem s) (sameMem_refl s)))

end

/-- Settles O55. -/
theorem cryptoCommands : Obligations.CryptoCommands := by
  unfold Obligations.CryptoCommands
  intro w sl ty s start hw hs
  subst hs
  refine ⟨fun h => ?starts, fun h => ?busy, fun h => ?idle, fun c r h hr => ?done, rfl, ?entropy⟩
  case starts =>
    have hk := sl.isLt
    have hy := ty.isLt
    have e {op k y : Nat} (hop : op < 16) (hk : k < 256) (hy : y < 16) :
        (Outcome.next (s.keyOp w op k y) : Outcome State Fault Refusal) = .next ((s.keyStart op k y).answer w .ok) :=
      congrArg Outcome.next (keyOp_start hw h hop hk hy)
    exact ⟨e (by decide) (by decide) (by decide), e (by decide) hk (by decide), e (by decide) hk (by decide),
      e (by decide) hk (by decide), e (by decide) hk (by decide), e (by decide) hk (by decide),
      e (by decide) (by decide) (by decide), e (by decide) hk hy, e (by decide) hk hy, e (by decide) hk (by decide)⟩
  case busy =>
    have e {op k y : Nat} : (Outcome.next (s.keyOp w op k y) : Outcome State Fault Refusal) =
        .next (((s.err pKEYS 16).countRefused w pKEYS .writeRefused).answer w .writeRefused) :=
      congrArg Outcome.next (keyOp_busy hw h)
    exact ⟨e, e, e, e, e, e, e, e, e, e⟩
  case idle =>
    change execCryptoDone s = _
    rw [execCryptoDone, h]
  case done =>
    subst hr
    change execCryptoDone s = _
    rw [execCryptoDone, h]
  case entropy =>
    have e : exec (.entHealth true) s = .next s.entFailed := rfl
    have h1 := flag_entFailed (s := s)
    have h2 := count_entFailed (s := s)
    have h3 := sameRegs_entFailed (s := s)
    have h4 := sameMem_entFailed (s := s)
    have h5 : s.entFailed.bit pKEYS PG.ERR 17 = true := bit_err (by decide)
    have h6 : s.entFailed.keys = s.keys := by
      rw [State.entFailed, State.err_keys, State.incSat_keys, State.set_keys]
    generalize s.entFailed = u at *
    exact ⟨u, e, h1, h2, h5, h3, h6, h4⟩

end Sys2Proof.Machine

/-! PROOFS. What AES-256 in GCM seals it opens (spec/18, R467). -/

namespace Sys2Proof.Machine

section

variable {a b k l data : List Nat} {w : List (List Nat)} {n i : Nat}

/-! ## Exclusive or and chunks -/

theorem length_xorL : (xorL a b).length = min a.length b.length := List.length_zipWith

theorem xorL_xorL (h : a.length ≤ k.length) : xorL (xorL a k) k = a := by
  refine List.ext_getElem ?_ fun i h1 h2 => ?_
  · rw [length_xorL, length_xorL]
    omega
  · simp only [xorL, List.getElem_zipWith, Nat.xor_assoc, Nat.xor_self, Nat.xor_zero]

theorem chunks_nil : chunks n i [] = [] := by
  cases i <;> simp [chunks]

theorem chunks_succ (h : l ≠ []) : chunks n (i + 1) l = l.take n :: chunks n i (l.drop n) := if_neg h

theorem chunks_getD {j : Nat} (hj : j < i) (h : n * j < l.length) : (chunks n i l).getD j [] = (l.drop (n * j)).take n := by
  induction j generalizing i l with
  | zero =>
    obtain ⟨i, rfl⟩ := Nat.exists_eq_succ_of_ne_zero (Nat.ne_of_gt hj)
    rw [chunks_succ (List.ne_nil_of_length_pos (Nat.zero_lt_of_lt h))]
    rfl
  | succ j ih =>
    obtain ⟨i, rfl⟩ := Nat.exists_eq_succ_of_ne_zero (Nat.ne_of_gt (Nat.zero_lt_of_lt hj))
    rw [Nat.mul_succ] at h
    rw [Nat.succ_eq_add_one, chunks_succ (List.ne_nil_of_length_pos (Nat.zero_lt_of_lt h)), List.getD_cons_succ,
      ih (Nat.lt_of_succ_lt_succ hj) (by rw [List.length_drop]; omega), List.drop_drop, Nat.mul_succ, Nat.add_comm]

/-! ## The key schedule -/

/-- Words of the key schedule have 4 bytes. -/
def Words (w : List (List Nat)) : Prop := ∀ x ∈ w, x.length = 4

theorem Words.getD (h : Words w) (hi : i < w.length) : (w.getD i []).length = 4 := by
  rw [List.getD_eq_getElem w [] hi]
  exact h _ (List.getElem_mem hi)

theorem Words.cons (h : Words w) (hx : a.length = 4) : Words (a :: w) := by
  intro x hm
  rcases List.mem_cons.mp hm with rfl | hm
  · exact hx
  · exact h x hm

theorem length_subL : (subL l).length = l.length := List.length_map _

theorem length_rotateLeft_one (h : l.length = 4) : (l.rotateLeft 1).length = 4 := by
  rw [List.rotateLeft]
  simp [h]

theorem aesExpand_spec (n rcon : Nat) (w : List (List Nat)) (h : Words w) (hl : 8 ≤ w.length) :
    Words (aesExpand n rcon w) ∧ (aesExpand n rcon w).length = n + w.length := by
  induction n generalizing rcon w with
  | zero => exact ⟨h, (Nat.zero_add _).symm⟩
  | succ n ih =>
    have ht := h.getD (i := 0) (by omega)
    have hold := h.getD (i := 7) (by omega)
    have next (rcon : Nat) (x : List Nat) (hx : x.length = 4) :
        Words (aesExpand n rcon (x :: w)) ∧ (aesExpand n rcon (x :: w)).length = n + 1 + w.length := by
      obtain ⟨h1, h2⟩ := ih rcon (x :: w) (h.cons hx) (by rw [List.length_cons]; omega)
      exact ⟨h1, by rw [h2, List.length_cons]; omega⟩
    rw [aesExpand]
    split_ifs
    · refine next _ _ ?_
      rw [length_xorL, length_xorL, length_subL, length_rotateLeft_one ht, hold]
      rfl
    · refine next _ _ ?_
      rw [length_xorL, length_subL, hold, ht]
      rfl
    · refine next _ _ ?_
      rw [length_xorL, hold, ht]
      rfl

theorem words_chunks (h : l.length = 32) : Words (chunks 4 8 l) ∧ (chunks 4 8 l).length = 8 := by
  have h8 (i : Nat) : ∀ m, m.length = 4 * i → Words (chunks 4 i m) ∧ (chunks 4 i m).length = i := by
    induction i with
    | zero => exact fun m _ => ⟨fun x hx => absurd hx List.not_mem_nil, rfl⟩
    | succ i ih =>
      intro m hm
      obtain ⟨h1, h2⟩ := ih (m.drop 4) (by rw [List.length_drop]; omega)
      rw [chunks_succ (List.ne_nil_of_length_pos (by omega))]
      refine ⟨h1.cons ?_, by rw [List.length_cons, h2]⟩
      rw [List.length_take]
      omega
  exact h8 8 l h

theorem Words.length_flatten (h : Words w) : w.flatten.length = 4 * w.length := by
  induction w with
  | nil => rfl
  | cons x w ih =>
    rw [List.flatten_cons, List.length_append, ih fun y hy => h y (List.mem_cons_of_mem _ hy),
      h x List.mem_cons_self, List.length_cons]
    omega

/-- The last round key of a key of 32 bytes has 16 bytes. -/
theorem length_lastKey (h : k.length = 32) : ((aesKeys k).getD 14 []).length = 16 := by
  obtain ⟨hw, hl⟩ := words_chunks h
  obtain ⟨h1, h2⟩ := aesExpand_spec 52 1 (chunks 4 8 k).reverse (fun x hx => hw x (List.mem_reverse.mp hx))
    (by rw [List.length_reverse, hl])
  have h3 : Words (aesExpand 52 1 (chunks 4 8 k).reverse).reverse := fun x hx => h1 x (List.mem_reverse.mp hx)
  have h4 := h3.length_flatten
  rw [List.length_reverse, h2, List.length_reverse, hl] at h4
  rw [aesKeys, chunks_getD (by decide) (by omega), List.length_take, List.length_drop, h4]
  rfl

theorem length_aesBlock (h : k.length = 32) : (aesBlock (aesKeys k) b).length = 16 := by
  rw [aesBlock, length_xorL, length_lastKey h, shiftRows, List.length_map, List.length_range]
  rfl

/-! ## Counter mode -/

/-- Data under a key stream of blocks. -/
def streamed (ks : Nat → List Nat) (n : Nat) (data : List Nat) : List Nat :=
  ((chunks 16 n data).mapIdx fun i b => xorL b (ks i)).flatten

theorem gcmCtr_eq {ks : List (List Nat)} {iv : List Nat} :
    gcmCtr ks iv data = streamed (fun i => aesBlock ks (iv ++ beBytes 4 (i + 2))) (data.length / 16 + 1) data := rfl

theorem streamed_nil {ks : Nat → List Nat} : streamed ks n [] = [] := by
  rw [streamed, chunks_nil]
  rfl

theorem streamed_succ {ks : Nat → List Nat} (h : data ≠ []) :
    streamed ks (n + 1) data = xorL (data.take 16) (ks 0) ++ streamed (fun i => ks (i + 1)) n (data.drop 16) := by
  rw [streamed, chunks_succ h, List.mapIdx_cons, List.flatten_cons]
  rfl

theorem length_streamed {ks : Nat → List Nat} (hk : ∀ i, (ks i).length = 16) (h : data.length ≤ 16 * n) :
    (streamed ks n data).length = data.length := by
  induction n generalizing ks data with
  | zero =>
    rw [List.length_eq_zero_iff.mp (Nat.le_zero.mp h)]
    rfl
  | succ n ih =>
    by_cases hd : data = []
    · rw [hd, streamed_nil]
    · rw [streamed_succ hd, List.length_append, length_xorL, hk, List.length_take,
        ih (fun i => hk (i + 1)) (by rw [List.length_drop]; omega), List.length_drop]
      omega

theorem streamed_streamed {ks : Nat → List Nat} (hk : ∀ i, (ks i).length = 16) (h : data.length ≤ 16 * n) :
    streamed ks n (streamed ks n data) = data := by
  induction n generalizing ks data with
  | zero =>
    rw [List.length_eq_zero_iff.mp (Nat.le_zero.mp h)]
    rfl
  | succ n ih =>
    by_cases hd : data = []
    · rw [hd, streamed_nil, streamed_nil]
    · have hrest : (data.drop 16).length ≤ 16 * n := by
        rw [List.length_drop]
        omega
      have hlen := length_streamed (ks := fun i => ks (i + 1)) (fun i => hk (i + 1)) hrest
      have hhead : (xorL (data.take 16) (ks 0)).length = min 16 data.length := by
        rw [length_xorL, hk, List.length_take]
        omega
      have hpos := List.length_pos_of_ne_nil hd
      rw [streamed_succ hd]
      generalize hr : streamed (fun i => ks (i + 1)) n (data.drop 16) = r at *
      have hne : xorL (data.take 16) (ks 0) ++ r ≠ [] := by
        refine List.ne_nil_of_length_pos ?_
        rw [List.length_append, hhead]
        omega
      have hcut : (xorL (data.take 16) (ks 0) ++ r).take 16 = xorL (data.take 16) (ks 0) ∧
          (xorL (data.take 16) (ks 0) ++ r).drop 16 = r := by
        by_cases h16 : 16 ≤ data.length
        · rw [Nat.min_eq_left h16] at hhead
          exact ⟨List.take_left' hhead, List.drop_left' hhead⟩
        · rw [List.length_drop] at hlen
          have hr0 : r = [] := List.length_eq_zero_iff.mp (by omega)
          rw [hr0, List.append_nil]
          exact ⟨List.take_of_length_le (by omega), List.drop_of_length_le (by omega)⟩
      rw [streamed_succ hne, hcut.1, hcut.2, ← hr, ih (fun i => hk (i + 1)) hrest, xorL_xorL, List.take_append_drop]
      rw [hk, List.length_take]
      omega

theorem gcmCtr_gcmCtr {iv : List Nat} (h : k.length = 32) :
    gcmCtr (aesKeys k) iv (gcmCtr (aesKeys k) iv data) = data := by
  have hks (i : Nat) : (aesBlock (aesKeys k) (iv ++ beBytes 4 (i + 2))).length = 16 := length_aesBlock h
  have hn : data.length ≤ 16 * (data.length / 16 + 1) := by omega
  have hlen : (gcmCtr (aesKeys k) iv data).length = data.length := length_streamed hks hn
  rw [gcmCtr_eq, hlen]
  exact streamed_streamed hks hn

/-- What a key of 32 bytes seals it opens. -/
theorem gcmOpen_gcmSeal {iv aad pt : List Nat} (h : k.length = 32) :
    gcmOpen k iv aad (gcmSeal k iv aad pt).1 (gcmSeal k iv aad pt).2 = some pt :=
  (if_pos rfl).trans (congrArg some (gcmCtr_gcmCtr h))

end

end Sys2Proof.Machine

/-! PROOFS. What the commands of the crypto engine do (spec/18, R466, R467). -/

namespace Sys2Proof.Machine

section

variable {s t : State} {c : KeyCmd} {k ty : Nat} {key : List Nat}

/-! ## Key slots -/

theorem find?_filter_same {l : List (Nat × Nat × List Nat)} :
    (l.filter (fun e => !(e.1 == k))).find? (fun e => e.1 == k) = none := by
  rw [List.find?_eq_none]
  intro e he
  have h := (List.mem_filter.mp he).2
  simpa using h

theorem slot_setSlot_same (h : ty ≠ 0) : (s.setSlot k ty key).slot k = (ty, key) := by
  rw [State.slot, State.setSlot, if_neg h, State.setKeys, List.find?_append, find?_filter_same]
  simp

theorem slot_setSlot_empty : (s.setSlot k 0 key).slot k = (0, []) := by
  rw [State.slot, State.setSlot, if_pos rfl, State.setKeys, find?_filter_same]
  rfl

theorem find?_filter_other {l : List (Nat × Nat × List Nat)} {j : Nat} (h : j ≠ k) :
    (l.filter (fun e => !(e.1 == k))).find? (fun e => e.1 == j) = l.find? (fun e => e.1 == j) := by
  rw [List.find?_filter]
  refine congrArg (List.find? · l) (funext fun e => ?_)
  by_cases he : e.1 = j
  · simp [he, h]
  · simp [he]

theorem slot_setSlot_other {j : Nat} (h : j ≠ k) : (s.setSlot k ty key).slot j = s.slot j := by
  have hk : k ≠ j := h.symm
  rw [State.slot, State.slot, State.setSlot]
  by_cases ht : ty = 0
  · simp only [ht, if_true, State.setKeys, find?_filter_other h]
  · simp [ht, State.setKeys, List.find?_append, find?_filter_other h, hk]

theorem keyOf_eq_some : s.keyOf k ty = some key ↔ (s.slot k).1 = ty ∧ (s.slot k).2 = key ∧ ¬ (k = 0 ∧ s.lifeSt = 4) := by
  rw [State.keyOf]
  split
  case isTrue h =>
    obtain ⟨h1, h2⟩ := h
    have h2' : ¬ (k = 0 ∧ s.lifeSt = 4) := by simpa [imp_iff_not_or] using h2
    exact ⟨fun e => ⟨h1, Option.some.inj e, h2'⟩, fun e => congrArg some e.2.1⟩
  case isFalse h =>
    refine ⟨fun e => (nomatch e), fun e => absurd ⟨e.1, ?_⟩ h⟩
    simpa [imp_iff_not_or] using e.2.2

/-! ## Free bytes -/

theorem freeBytes_spec (n : Nat) (s : State) : (s.freeBytes n).1.length = n ∧ (∀ x ∈ (s.freeBytes n).1, x < 256) ∧
    (s.freeBytes n).2 = { s with freeCtr := s.freeCtr + n } := by
  induction n generalizing s with
  | zero => exact ⟨rfl, fun x hx => absurd hx List.not_mem_nil, rfl⟩
  | succ n ih =>
    obtain ⟨h1, h2, h3⟩ := ih s.free.2
    refine ⟨congrArg Nat.succ h1, fun x hx => ?_, h3.trans ?_⟩
    · rcases List.mem_cons.mp hx with rfl | hx
      · exact Nat.mod_lt _ (by decide)
      · exact h2 x hx
    · rw [State.free, Nat.add_assoc, Nat.add_comm 1]

theorem length_memBytes {a n : Nat} : (s.memBytes a n).length = n := by
  rw [State.memBytes, List.length_map, List.length_range]

theorem sameMem_freeBytes {n : Nat} : SameMem s (s.freeBytes n).2 := by
  rw [(freeBytes_spec n s).2.2]
  exact sameMem_refl s

theorem sameRegs_freeBytes {n : Nat} : SameRegs s (s.freeBytes n).2 [] := by
  rw [(freeBytes_spec n s).2.2]
  exact sameRegs_refl

theorem slot_freeBytes {n : Nat} : (s.freeBytes n).2.slot k = s.slot k := by
  rw [(freeBytes_spec n s).2.2]
  rfl

/-! ## One command -/

/-- The engine's input. -/
def State.keyIn (s : State) (c : KeyCmd) : List Nat := s.memBytes c.inp c.len

/-- The engine's output goes to memory. -/
def State.keyPut (s : State) (c : KeyCmd) (l : List Nat) : Nat × State := (krOK, s.setMemBytes c.out l)

theorem length_keyIn : (s.keyIn c).length = c.len := length_memBytes

theorem keyRun_sha (h : c.op = 1) :
    s.keyRun c = if maxMsg < c.len then (krLEN, s) else s.keyPut c (sha256 (s.keyIn c)) := by
  rw [State.keyRun, h]
  rfl

theorem keyRun_sign (h : c.op = 2) (hk : s.keyOf c.slot 2 = some key) :
    s.keyRun c = if maxMsg < c.len then (krLEN, s) else s.keyPut c (edSign key (s.keyIn c)) := by
  rw [State.keyRun, h]
  dsimp only
  rw [hk]
  rfl

theorem keyRun_sign_none (h : c.op = 2) (hk : s.keyOf c.slot 2 = none) : s.keyRun c = (krBAD_SLOT, s) := by
  rw [State.keyRun, h]
  dsimp only
  rw [hk]
  rfl

/-- VERIFY: a signature and a message under a key. -/
def verifyResult (key b : List Nat) : Nat :=
  if b.length < 64 ∨ maxMsg + 64 < b.length then krLEN
  else if edVerify key (b.drop 64) (b.take 64) then krOK
  else krVERIFY

/-- The key and the signed bytes of VERIFY: from the input, or from a slot. -/
def State.verifyOf (s : State) (c : KeyCmd) : Option (List Nat × List Nat) :=
  if c.slot = 0xFF then (if c.len < 32 then none else some ((s.keyIn c).take 32, (s.keyIn c).drop 32))
  else (s.keyOf c.slot 4).map (fun k => (k, s.keyIn c))

theorem keyRun_verify {b : List Nat} (h : c.op = 3) (hv : s.verifyOf c = some (key, b)) :
    s.keyRun c = (verifyResult key b, s) := by
  rw [State.verifyOf, State.keyIn] at hv
  rw [State.keyRun, h]
  dsimp only
  rw [hv, verifyResult]
  by_cases hl : b.length < 64 ∨ maxMsg + 64 < b.length
  · rw [if_pos hl]
    exact if_pos hl
  · rw [if_neg hl]
    exact if_neg hl

theorem keyRun_verify_none (h : c.op = 3) (hv : s.verifyOf c = none) :
    s.keyRun c = (if c.slot = 0xFF then krLEN else krBAD_SLOT, s) := by
  rw [State.verifyOf, State.keyIn] at hv
  rw [State.keyRun, h]
  dsimp only
  rw [hv]
  rfl

theorem verifyOf_given (hs : c.slot = 0xFF) (hl : 32 ≤ c.len) :
    s.verifyOf c = some ((s.keyIn c).take 32, (s.keyIn c).drop 32) :=
  (if_pos hs).trans (if_neg (Nat.not_lt.mpr hl))

theorem verifyOf_slot (hs : c.slot ≠ 0xFF) : s.verifyOf c = (s.keyOf c.slot 4).map (fun k => (k, s.keyIn c)) := if_neg hs

theorem keyRun_x25519 (h : c.op = 4) (hk : s.keyOf c.slot 3 = some key) :
    s.keyRun c = if c.len ≠ 32 then (krLEN, s) else s.keyPut c (x25519 key (s.keyIn c)) := by
  rw [State.keyRun, h]
  dsimp only
  rw [hk]
  rfl

theorem keyRun_x25519_none (h : c.op = 4) (hk : s.keyOf c.slot 3 = none) : s.keyRun c = (krBAD_SLOT, s) := by
  rw [State.keyRun, h]
  dsimp only
  rw [hk]
  rfl

theorem keyRun_gcm_none (h : c.op = 5 ∨ c.op = 6) (hk : s.keyOf c.slot 1 = none) : s.keyRun c = (krBAD_SLOT, s) := by
  rw [State.keyRun]
  rcases h with h | h
  · rw [h]
    dsimp only
    rw [hk]
    rfl
  · rw [h]
    dsimp only
    rw [hk]
    rfl

theorem keyRun_gcm_short (h : c.op = 5 ∨ c.op = 6) (hk : s.keyOf c.slot 1 = some key) (hp : gcmParts (s.keyIn c) = none) :
    s.keyRun c = (krLEN, s) := by
  rw [State.keyIn] at hp
  rw [State.keyRun]
  rcases h with h | h
  · rw [h]
    dsimp only
    rw [hk]
    dsimp only
    rw [hp]
    rfl
  · rw [h]
    dsimp only
    rw [hk]
    dsimp only
    rw [hp]
    rfl

theorem keyRun_seal {iv aad r : List Nat} (h : c.op = 5) (hk : s.keyOf c.slot 1 = some key)
    (hp : gcmParts (s.keyIn c) = some (iv, aad, r)) :
    s.keyRun c = s.keyPut c ((gcmSeal key iv aad r).1 ++ (gcmSeal key iv aad r).2) := by
  rw [State.keyIn] at hp
  rw [State.keyRun, h]
  dsimp only
  rw [hk]
  dsimp only
  rw [hp]
  rfl

theorem keyRun_open {iv aad r : List Nat} (h : c.op = 6) (hk : s.keyOf c.slot 1 = some key)
    (hp : gcmParts (s.keyIn c) = some (iv, aad, r)) : s.keyRun c =
      if r.length < 16 then (krLEN, s)
      else match gcmOpen key iv aad (r.take (r.length - 16)) (r.drop (r.length - 16)) with
        | none => (krVERIFY, s)
        | some pt => s.keyPut c pt := by
  rw [State.keyIn] at hp
  rw [State.keyRun, h]
  dsimp only
  rw [hk]
  dsimp only
  rw [hp]
  rfl

theorem keyRun_random (h : c.op = 7) : s.keyRun c =
    if s.flag pKEYS KEYS.STAT_ENT_FAIL then (krENT, s)
    else if 65536 < c.len then (krLEN, s)
    else (s.freeBytes c.len).2.keyPut c (s.freeBytes c.len).1 := by
  rw [State.keyRun, h]
  rfl

theorem keyRun_make (h : c.op = 8) : s.keyRun c =
    if 64 ≤ c.slot ∨ (s.slot c.slot).1 ≠ 0 ∨ c.ty = 0 ∨ 3 < c.ty then (krBAD_SLOT, s)
    else if s.flag pKEYS KEYS.STAT_ENT_FAIL then (krENT, s)
    else (krOK, (s.freeBytes 32).2.setSlot c.slot c.ty (s.freeBytes 32).1) := by
  rw [State.keyRun, h]
  rfl

theorem keyRun_import (h : c.op = 9) : s.keyRun c =
    if s.lifeSt ≠ 1 ∧ s.lifeSt ≠ 2 then (krDENIED, s)
    else if 64 ≤ c.slot ∨ (s.slot c.slot).1 ≠ 0 ∨ !(c.ty = 1 ∨ c.ty = 4 ∨ c.ty = 5) then (krBAD_SLOT, s)
    else if c.len ≠ (if c.ty = 5 then 64 else 32) then (krLEN, s)
    else (krOK, s.setSlot c.slot c.ty (s.keyIn c)) := by
  rw [State.keyRun, h]
  rfl

theorem keyRun_erase (h : c.op = 10) : s.keyRun c =
    if c.slot = 0 ∨ 64 ≤ c.slot then (krBAD_SLOT, s)
    else if c.slot = 1 ∧ s.lifeSt ≠ 1 then (krDENIED, s)
    else (krOK, s.setSlot c.slot 0 []) := by
  rw [State.keyRun, h]
  rfl

/-- A key put into a slot of a state with the same slots leaves the other slots and the registers and memories. -/
theorem setSlot_frame {u : State} (hs : ∀ j, u.slot j = s.slot j) (hr : SameRegs s u []) (hm : SameMem s u) :
    (∀ j, j ≠ k → (u.setSlot k ty key).slot j = s.slot j) ∧ SameRegs s (u.setSlot k ty key) [] ∧
      SameMem s (u.setSlot k ty key) :=
  ⟨fun j hj => (slot_setSlot_other hj).trans (hs j), hr.of_board rfl, hm⟩

end

/-- Settles O56. -/
theorem cryptoResults : Obligations.CryptoResults := by
  unfold Obligations.CryptoResults
  intro c s b put
  have hb : b.length = c.len := length_keyIn
  refine ⟨fun k ty => keyOf_eq_some, fun h hl => ?tooLong, fun h hl => (keyRun_sha h).trans (if_neg (Nat.not_lt.mpr hl)),
    fun k h hl hk => (keyRun_sign h hk).trans (if_neg (Nat.not_lt.mpr hl)), fun h hs hl => ?givenShort,
    fun h hs hl hl' => ?given, fun k h hs hk => ?verify, fun k h hk => ⟨fun hl => ?x, fun hl => ?xLen⟩,
    fun k iv aad r h hk hp => ⟨fun h5 => keyRun_seal h5 hk hp, fun h6 hl => ?openShort, fun h6 hl => ?opens⟩,
    fun h hk hp => ?gcmShort, fun h => ?badSlot, fun h he => (keyRun_random h).trans (if_pos he),
    fun h he hl => ?randomLong, fun h he hl => ?random, fun h hs hn h1 h3 he => ?make,
    fun h hbad => (keyRun_make h).trans (if_pos hbad), fun h hs hn h1 h3 he => ?makeFails,
    fun h h1 h2 => (keyRun_import h).trans (if_pos ⟨h1, h2⟩), fun h hlife => ⟨fun hbad => ?importBad, fun hs hn hty => ?imports⟩,
    fun h hs hlt => ?erase, fun h hs => (keyRun_erase h).trans (if_pos hs), fun h hs hl => ?eraseDenied,
    fun key iv aad pt h => gcmOpen_gcmSeal h⟩
  case tooLong =>
    rcases h with h | ⟨h, hk⟩
    · exact (keyRun_sha h).trans (if_pos hl)
    · obtain ⟨k, hk⟩ := Option.isSome_iff_exists.mp hk
      exact (keyRun_sign h hk).trans (if_pos hl)
  case givenShort =>
    by_cases h32 : c.len < 32
    · rw [keyRun_verify_none h ((if_pos hs).trans (if_pos h32)), if_pos hs]
    · refine (keyRun_verify h (verifyOf_given hs (Nat.not_lt.mp h32))).trans (congrArg (·, s) (if_pos (.inl ?_)))
      rw [List.length_drop, length_keyIn]
      omega
  case given =>
    refine (keyRun_verify h (verifyOf_given hs (by omega))).trans (congrArg (·, s) ((if_neg ?_).trans ?_))
    · rw [List.length_drop, length_keyIn]
      omega
    · rw [List.drop_drop]
      rfl
  case verify =>
    have e : s.keyRun c = (verifyResult k (s.keyIn c), s) := keyRun_verify h (by rw [verifyOf_slot hs, hk]; rfl)
    refine ⟨fun hl => ?_, fun hl hl' => ?_⟩
    · refine e.trans (congrArg (·, s) (if_pos ?_))
      rwa [length_keyIn]
    · refine e.trans (congrArg (·, s) (if_neg ?_))
      rw [length_keyIn]
      omega
  case x => exact (keyRun_x25519 h hk).trans (if_neg (fun hn => hn hl))
  case xLen => exact (keyRun_x25519 h hk).trans (if_pos hl)
  case openShort => exact (keyRun_open h6 hk hp).trans (if_pos hl)
  case opens =>
    have e := (keyRun_open h6 hk hp).trans (if_neg (Nat.not_lt.mpr hl))
    refine ⟨fun ho => ?_, fun pt ho => ?_⟩
    · rw [e, ho]
    · rw [e, ho]
      rfl
  case gcmShort =>
    obtain ⟨k, hk⟩ := Option.isSome_iff_exists.mp hk
    exact keyRun_gcm_short h hk hp
  case badSlot =>
    rcases h with ⟨h, hk⟩ | ⟨h, hs, hk⟩ | ⟨h, hk⟩ | ⟨h, hk⟩
    · exact keyRun_sign_none h hk
    · rw [keyRun_verify_none h (by rw [verifyOf_slot hs, hk]; rfl), if_neg hs]
    · exact keyRun_x25519_none h hk
    · exact keyRun_gcm_none h hk
  case randomLong => exact (keyRun_random h).trans ((if_neg (by rw [he]; decide)).trans (if_pos hl))
  case random =>
    obtain ⟨h1, h2, h3⟩ := freeBytes_spec c.len s
    refine ⟨_, _, h1, h2, rfl, ?_⟩
    refine (keyRun_random h).trans ((if_neg (by rw [he]; decide)).trans ((if_neg (Nat.not_lt.mpr hl)).trans ?_))
    rw [h3]
    rfl
  case make =>
    rw [keyRun_make h, if_neg (by omega), if_neg (by rw [he]; decide)]
    have hty : c.ty ≠ 0 := by omega
    refine ⟨rfl, ?_, ?_, setSlot_frame (fun _ => slot_freeBytes) sameRegs_freeBytes sameMem_freeBytes⟩
    · rw [slot_setSlot_same hty]
    · rw [slot_setSlot_same hty]
      exact (freeBytes_spec 32 s).1
  case makeFails => exact (keyRun_make h).trans ((if_neg (by omega)).trans (if_pos he))
  case importBad =>
    refine (keyRun_import h).trans ((if_neg (by omega)).trans (if_pos ?_))
    simpa using hbad
  case imports =>
    have e := (keyRun_import (s := s) h).trans ((if_neg (by omega)).trans (if_neg (by
      rintro (h' | h' | h')
      · omega
      · exact h' hn
      · simp [hty] at h')))
    refine ⟨fun hl => e.trans (if_pos hl), fun hl => ?_⟩
    rw [e, if_neg (fun hn => hn hl)]
    exact ⟨rfl, slot_setSlot_same (by omega), setSlot_frame (fun _ => rfl) sameRegs_refl (sameMem_refl s)⟩
  case erase =>
    rw [keyRun_erase h, if_neg (by omega), if_neg (by omega)]
    exact ⟨rfl, congrArg Prod.fst slot_setSlot_empty, setSlot_frame (fun _ => rfl) sameRegs_refl (sameMem_refl s)⟩
  case eraseDenied => exact (keyRun_erase h).trans ((if_neg (by omega)).trans (if_pos ⟨hs, hl⟩))

end Sys2Proof.Machine

/-! PROOFS. Records, rounds and copies of the tally store (spec/19, R480 to R484, R489). -/

namespace Sys2Proof.Machine

open Host (Outcome)

section

variable {s t : State} {w : Writer} {k o : Nat}

/-! ## What is shown, and what showing leaves alone (R490) -/

/-- Words of TALLY that show no class and no P_END. -/
def notShown (o : Nat) : Prop := o < 0x05C ∨ 0x05C < o ∧ o < 0x080 ∨ 0x128 ≤ o

theorem word_showClass (hk : k < 6) (h : notShown o) : (s.showClass k).word pTALLY o = s.word pTALLY o := by
  have h' : o < 0x080 ∨ 0x128 ≤ o := by
    rcases h with h | h | h <;> omega
  rw [State.showClass]
  simp only [TALLY.HEAD_RSEQ_LO, TALLY.DUR_RSEQ_LO, TALLY.HEAD_BSEQ, TALLY.HEAD_OFS, TALLY.OLD_BSEQ, State.setReg64]
  rw [word_setReg_off (by omega), word_setReg_off (by omega), word_setReg_off (by omega), word_setReg_off (by omega),
    word_setReg_off (by omega), word_setReg_off (by omega), word_setReg_off (by omega)]

theorem word_showStore (h : notShown o) : s.showStore.word pTALLY o = s.word pTALLY o := by
  have hp : o ≠ TALLY.P_END := by
    intro e
    rw [e] at h
    exact absurd h (by unfold notShown; decide)
  rw [State.showStore, word_setReg_off hp, show List.range 6 = [0, 1, 2, 3, 4, 5] from rfl]
  simp only [List.foldl]
  rw [word_showClass (by decide) h, word_showClass (by decide) h, word_showClass (by decide) h,
    word_showClass (by decide) h, word_showClass (by decide) h, word_showClass (by decide) h]

theorem get_showStore {f : Fld} (h : notShown f.off) : s.showStore.get pTALLY f = s.get pTALLY f := by
  rw [State.get, State.get, word_showStore h]

theorem store_showClass : (s.showClass k).store = s.store := by
  rw [State.showClass]
  rw [State.setReg_store, State.setReg_store, State.setReg_store, State.setReg64_store, State.setReg64_store]

theorem store_showStore : s.showStore.store = s.store := by
  rw [State.showStore, State.setReg_store]
  exact keeps_foldl (P := fun t => t.store = s.store) rfl fun _ _ h => store_showClass.trans h

theorem hwPosts_showClass : (s.showClass k).hwPosts = s.hwPosts := by
  rw [State.showClass]
  rw [State.setReg_hwPosts, State.setReg_hwPosts, State.setReg_hwPosts, State.setReg64_hwPosts, State.setReg64_hwPosts]

theorem hwPosts_showStore : s.showStore.hwPosts = s.hwPosts := by
  rw [State.showStore, State.setReg_hwPosts]
  exact keeps_foldl (P := fun t => t.hwPosts = s.hwPosts) rfl fun _ _ h => hwPosts_showClass.trans h

theorem storeSt_setStoreSt {v : Nat} (h : v < 8) : (s.setStoreSt v).storeSt = v := by
  rw [State.setStoreSt]
  split
  case isTrue e => exact e
  case isFalse =>
    rw [State.storeSt, get_ev (by decide), get_set_same (by decide) (by decide)]
    exact Nat.mod_eq_of_lt h

/-! ## One record (R480 to R482) -/

/-- A class after a record of bytes `b` with the number `n`. -/
def ClsX.grown (x : ClsX) (n : Nat) (b : List Nat) : ClsX := { x with next := n + 1, bytes := x.bytes ++ padRec b }

/-- The bytes of a class's block go to the drives. -/
def State.stored (s : State) (x : ClsX) : State :=
  match x.idx with
  | some i => s.writeBlock i x.bytes
  | none => s

/-- A record is in its class and waits for a round. -/
def State.recorded (s : State) (k n : Nat) (b : List Nat) : State :=
  let x := (CoreX_get s.store.core k).grown n b
  let u := (s.setCore (CoreX_put s.store.core k x)).stored x
  u.setStore { u.store with wait := u.store.wait ++ [⟨k, n, b⟩] }

/-- The bytes of a class's next record. -/
def State.nextRec (s : State) (k ty flags src ref raw : Nat) (body : List Nat) : List Nat :=
  recBytes k ty flags (CoreX_get s.store.core k).next (s.beam.t / 256) src (s.get pBEAM BEAM.STAT_LOCK) ref raw body

variable {ty flags src ref raw : Nat} {body : List Nat}

theorem append_fits
    (h : needBlock (CoreX_get s.store.core k) (padRec (s.nextRec k ty flags src ref raw body)).length = false) :
    s.append k ty flags src ref raw body = ((s.recorded k (CoreX_get s.store.core k).next
      (s.nextRec k ty flags src ref raw body)).showStore, some (CoreX_get s.store.core k).next) := by
  rw [State.nextRec] at h
  rw [State.append]
  dsimp only
  rw [h]
  rfl

theorem append_opens
    (h : needBlock (CoreX_get s.store.core k) (padRec (s.nextRec k ty flags src ref raw body)).length = true)
    (ho : s.openBlock k = some t) : s.append k ty flags src ref raw body =
      ((t.recorded k (CoreX_get s.store.core k).next (s.nextRec k ty flags src ref raw body)).showStore,
        some (CoreX_get s.store.core k).next) := by
  rw [State.nextRec] at h
  rw [State.append]
  dsimp only
  rw [h, if_pos rfl, ho]
  rfl

theorem append_full
    (h : needBlock (CoreX_get s.store.core k) (padRec (s.nextRec k ty flags src ref raw body)).length = true)
    (ho : s.openBlock k = none) : s.append k ty flags src ref raw body = (s.set pTALLY TALLY.STAT_STORE_FULL 1, none) := by
  rw [State.nextRec] at h
  rw [State.append]
  dsimp only
  rw [h, if_pos rfl, ho]

theorem stored_core {x : ClsX} : (s.stored x).store.core = s.store.core := by
  rw [State.stored]
  split <;> rfl

theorem stored_wait {x : ClsX} : (s.stored x).store.wait = s.store.wait := by
  rw [State.stored]
  split <;> rfl

theorem stored_hwPosts {x : ClsX} : (s.stored x).hwPosts = s.hwPosts := by
  rw [State.stored]
  split <;> rfl

theorem stored_board {x : ClsX} : (s.stored x).board = s.board := by
  rw [State.stored]
  split <;> rfl

theorem CoreX_get_put {c : CoreX} {x : ClsX} (h : k < c.cls.length) : CoreX_get (CoreX_put c k x) k = x := by
  rw [CoreX_get, CoreX_put, List.getD_eq_getElem?_getD, List.getElem?_set_self h]
  rfl

theorem next_recorded {n : Nat} {b : List Nat} (h : k < s.store.core.cls.length) :
    (CoreX_get (s.recorded k n b).store.core k).next = n + 1 := by
  have e : (s.recorded k n b).store.core = CoreX_put s.store.core k ((CoreX_get s.store.core k).grown n b) := stored_core
  rw [e, CoreX_get_put h]
  rfl

theorem wait_recorded {n : Nat} {b : List Nat} : (s.recorded k n b).store.wait = s.store.wait ++ [⟨k, n, b⟩] :=
  congrArg (· ++ [(⟨k, n, b⟩ : TRec)]) (stored_wait (s := s.setCore _))

theorem hwPosts_recorded {n : Nat} {b : List Nat} : (s.recorded k n b).hwPosts = s.hwPosts :=
  stored_hwPosts (s := s.setCore _)

theorem board_recorded {n : Nat} {b : List Nat} : (s.recorded k n b).board = s.board := stored_board (s := s.setCore _)

/-! ## Posts (R481 to R483) -/

theorem classRefuses_closed {c : Nat} (h : s.storeSt ≠ tsOPEN) : s.classRefuses c = 5 := if_pos h

/-- The state with other posts of the device's own. -/
def State.withPosts (s : State) (l : List HwPost) : State := { s with hwPosts := l }

theorem withPosts_store {l : List HwPost} : (s.withPosts l).store = s.store := by rw [State.withPosts]

theorem withPosts_board {l : List HwPost} : (s.withPosts l).board = s.board := by rw [State.withPosts]

theorem withPosts_beam {l : List HwPost} : (s.withPosts l).beam = s.beam := by rw [State.withPosts]

theorem withPosts_hwPosts {l : List HwPost} : (s.withPosts l).hwPosts = l := by rw [State.withPosts]

theorem classRefuses_withPosts {l : List HwPost} {c : Nat} : (s.withPosts l).classRefuses c = s.classRefuses c := by
  rw [State.classRefuses, State.classRefuses, State.storeSt, State.storeSt, get_eq_of_board withPosts_board,
    flag_eq_of_board withPosts_board, flag_eq_of_board withPosts_board]

theorem nextRec_withPosts {l : List HwPost} :
    (s.withPosts l).nextRec k ty flags src ref raw body = s.nextRec k ty flags src ref raw body := by
  rw [State.nextRec, State.nextRec, withPosts_store, withPosts_beam, get_eq_of_board withPosts_board]

theorem execPostTake_own {z : Option (List Nat)} {h : HwPost} {rest : List HwPost} (e : s.hwPosts = h :: rest) :
    execPostTake z s = if s.classRefuses h.cls ≠ 0 then .next (s.withPosts rest)
      else .next ((s.withPosts rest).appendDev h.cls h.ty 0 h.body).1 := by
  rw [execPostTake, e]
  change (if (s.withPosts rest).classRefuses h.cls ≠ 0 then Outcome.next (s.withPosts rest)
    else Outcome.next ((s.withPosts rest).appendDev h.cls h.ty 0 h.body).1) = _
  rw [classRefuses_withPosts]

theorem execPostTake_ring {z : Option (List Nat)} (e : s.hwPosts = []) : execPostTake z s = .next (s.takePost z) := by
  rw [execPostTake, e]

theorem takePost_closed {z : Option (List Nat)} (h : s.postSize ≠ 0)
    (hi : s.reg pTALLY TALLY.POST_RD % 65536 ≠ s.reg pTALLY TALLY.POST_WR % 65536) (hs : s.storeSt ≠ tsOPEN) {a : Nat}
    (ha : a = s.reg64 pTALLY TALLY.POST_BASE_LO + 32 * (s.reg pTALLY TALLY.POST_RD % 65536)) :
    s.takePost z = ((((s.setReg pTALLY TALLY.POST_RD ((s.reg pTALLY TALLY.POST_RD % 65536 + 1) % s.postSize)).setMemBytes
        (a + 14) [s.memLE (a + 14) 1 ||| 128, 5]).incF pTALLY ⟨TALLY.REFUSED, 15, 0⟩).ev pTALLY 19) := by
  subst ha
  rw [State.takePost]
  dsimp only
  rw [if_neg (not_or.mpr ⟨h, hi⟩), classRefuses_closed, if_pos rfl]
  · rfl
  · rw [State.storeSt, get_setReg_off (by decide)]
    exact hs

/-! ## Rounds (R483) -/

theorem flushRound_closed (h : s.storeSt ≠ tsOPEN) : s.flushRound = s := if_pos h

theorem flushRound_starts (h : s.storeSt = tsOPEN) (hr : s.store.round = none) :
    s.flushRound = s.setStore { s.store with round := some s.store.core } := by
  rw [State.flushRound, if_neg (not_not_intro h)]
  dsimp only
  rw [hr]
  rfl

theorem flushRound_again {x : CoreX} (h : s.storeSt = tsOPEN) (hr : s.store.round = some x) :
    s.flushRound = s.setStore { s.store with again := true } := by
  rw [State.flushRound, if_neg (not_not_intro h)]
  dsimp only
  rw [hr]
  rfl

theorem execFlushRoundDone_none (h : s.storeSt ≠ tsOPEN ∨ s.store.round = none) : execFlushRoundDone s = .next s := by
  rw [execFlushRoundDone]
  cases hr : s.store.round with
  | none => rfl
  | some c =>
    rw [hr] at h
    rcases h with h | h
    · exact if_pos h
    · cases h

theorem execFlushRoundDone_some {x : CoreX} (h : s.storeSt = tsOPEN) (hr : s.store.round = some x) :
    execFlushRoundDone s = .next (if s.store.again
      then ((s.commitRound x false).setStore { (s.commitRound x false).store with again := false }).flushRound
      else (s.commitRound x false).setStore { (s.commitRound x false).store with again := false }) := by
  rw [execFlushRoundDone, hr]
  exact if_neg (not_not_intro h)

theorem store_fabBytes {kind dst : Nat} {l : List Nat} : (s.fabBytes kind dst l).store = s.store := by
  have h : (s.fabBytes kind dst l).core.store = s.core.store := congrArg State.store (routed_fabBytes s kind dst l).rest
  exact h

theorem store_sendRec {r : TRec} : (s.sendRec r).store = s.store :=
  keeps_foldl (P := fun t => t.store = s.store) rfl fun _ _ h => store_fabBytes.trans h

/-- A running state in which what another holds is durable. -/
def CoreX.durable (x c : CoreX) : CoreX :=
  { x with cls := x.cls.mapIdx (fun k y => { y with dur := max y.dur (CoreX_get c k).next }) }

/-- The drives count what a round wrote to them. -/
def State.driveWrites (s : State) (n : Nat) : State :=
  s.modeDrives.foldl (fun (s : State) k =>
    if s.driveOk k then s.setReg (pNVME k) NVME.WRITTEN ((s.reg (pNVME k) NVME.WRITTEN + n) % 2 ^ 32) else s) s

theorem store_driveWrites {n : Nat} : (s.driveWrites n).store = s.store :=
  keeps_foldl (P := fun t => t.store = s.store) rfl fun _ _ h => keeps_ite (P := fun t => t.store = s.store) h h

/-- The commit of a round, from the store's record that it leaves. -/
def State.committed (s : State) (x : StoreX) (old : Bool) (send : List TRec) (acks : List (Nat × Nat × Nat × Nat)) : State :=
  let s := s.setStore x
  let f := s.free
  let s := f.2.driveWrites f.1
  let s := if old then s.ev pTALLY 16 else s
  let s := send.foldl (fun (s : State) r => s.sendRec r) s
  let s := acks.foldl (fun (s : State) e => s.sendReplAck e.1 e.2.1 e.2.2.1) s
  s.setLag.showStore

theorem store_committed {x : StoreX} {old : Bool} {send : List TRec} {acks : List (Nat × Nat × Nat × Nat)} :
    (s.committed x old send acks).store = x := by
  rw [State.committed]
  rw [store_showStore, State.setLag, State.setReg_store]
  refine keeps_foldl (P := fun t => t.store = x) ?_ fun _ _ h => store_fabBytes.trans h
  refine keeps_foldl (P := fun t => t.store = x) ?_ fun _ _ h => store_sendRec.trans h
  have h : ((s.setStore x).free.2.driveWrites (s.setStore x).free.1).store = x := store_driveWrites
  exact keeps_ite (P := fun t => t.store = x) (State.ev_store.trans h) h

theorem commitRound_eq {c : CoreX} {clean : Bool} : ∃ x old send acks, x.core = s.store.core.durable c ∧
    s.commitRound c clean = s.committed x old send acks := ⟨_, _, _, _, rfl, rfl⟩

theorem core_commitRound {c : CoreX} {clean : Bool} : (s.commitRound c clean).store.core = s.store.core.durable c := by
  obtain ⟨x, old, send, acks, hx, e⟩ := commitRound_eq (s := s) (c := c) (clean := clean)
  rw [e, store_committed, hx]

theorem CoreX_get_durable {x c : CoreX} (h : k < x.cls.length) :
    (CoreX_get (x.durable c) k).dur = max (CoreX_get x k).dur (CoreX_get c k).next := by
  rw [CoreX_get, CoreX_get, CoreX.durable, List.getD_eq_getElem?_getD, List.getD_eq_getElem?_getD, List.getElem?_mapIdx,
    List.getElem?_eq_getElem h]
  rfl

/-! ## Copies (R489) -/

theorem execTallyReplRx_known {src : Fin 4096} {m : ReplPart} {e : Nat × Nat × Nat × Nat}
    (h : s.store.copies.find? (fun e => e.1 == src.val && e.2.1 == m.cls && e.2.2.1 == m.orig) = some e) :
    execTallyReplRx src m s = if e.2.2.2 < (CoreX_get s.store.core m.cls).dur then .next (s.sendReplAck src m.cls m.orig)
      else if s.store.acks.contains e then .next s
      else .next (s.setStore { s.store with acks := s.store.acks ++ [e] }) := by
  rw [execTallyReplRx]
  dsimp only
  rw [h]

theorem execTallyReplRx_part {src : Fin 4096} {m : ReplPart}
    (h : s.store.copies.find? (fun e => e.1 == src.val && e.2.1 == m.cls && e.2.2.1 == m.orig) = none)
    (hp : s.store.parts = []) (hn : 1 < m.nfrag) : execTallyReplRx src m s = .next (s.setStore { s.store with
      parts := [{ src := src, c := m.cls, orig := m.orig, nfrag := m.nfrag, parts := [(m.frag, m.ofs, m.data)] }] }) := by
  rw [execTallyReplRx]
  dsimp only
  rw [h, hp]
  exact if_pos hn

theorem setStore_parts (h : s.store.parts = []) : s.setStore { s.store with parts := [] } = s := by
  rw [← h]
  rfl

theorem execTallyReplRx_whole {src : Fin 4096} {m : ReplPart}
    (h : s.store.copies.find? (fun e => e.1 == src.val && e.2.1 == m.cls && e.2.2.1 == m.orig) = none)
    (hp : s.store.parts = []) (hn : m.nfrag = 1) (hf : m.frag = 0) :
    execTallyReplRx src m s = .next (s.appendCopy src m.cls m.orig m.data) := by
  rw [execTallyReplRx]
  dsimp only
  rw [h, hp, hn, hf]
  refine (if_neg (by simp)).trans (congrArg Outcome.next ?_)
  rw [show List.range 1 = [0] from rfl]
  simp only [List.filter_nil, List.find?_nil, Option.map_none, Option.getD_none, List.nil_append, List.flatMap_cons,
    List.flatMap_nil, List.append_nil, List.find?_cons, beq_self_eq_true, Option.map_some, Option.getD_some]
  rw [setStore_parts hp]

theorem execTallyReplResend_some {c : Fin 6} {q : Nat} {r : TRec}
    (h : s.store.repl.find? (fun r => r.c == c.val && r.rseq == q) = some r) :
    execTallyReplResend c q s = .next (s.sendRec r) := by
  rw [execTallyReplResend, h]

theorem execTallyReplResend_none {c : Fin 6} {q : Nat}
    (h : s.store.repl.find? (fun r => r.c == c.val && r.rseq == q) = none) : execTallyReplResend c q s = .next s := by
  rw [execTallyReplResend, h]

/-- One of the device's own posts that fits its block. -/
theorem appendDev_fits {rest : List HwPost} {ty : Nat} (hk : k < s.store.core.cls.length)
    (h : needBlock (CoreX_get s.store.core k) (padRec (s.nextRec k ty 4 s.addr 0 body.length body)).length = false) :
    ∃ t, ((s.withPosts rest).appendDev k ty 0 body).1 = t ∧ t.hwPosts = rest ∧
      (CoreX_get t.store.core k).next = (CoreX_get s.store.core k).next + 1 ∧ t.store.wait = s.store.wait ++
        [⟨k, (CoreX_get s.store.core k).next, s.nextRec k ty 4 s.addr 0 body.length body⟩] ∧ SameMem s t := by
  have hm : SameMem s ((s.withPosts rest).appendDev k ty 0 body).1 :=
    keeps_State_appendDev (k0_sameMem s) (sameMem_refl s)
  have ha : (s.withPosts rest).addr = s.addr := get_eq_of_board withPosts_board
  have hr : (s.withPosts rest).nextRec k ty 4 s.addr 0 body.length body = s.nextRec k ty 4 s.addr 0 body.length body :=
    nextRec_withPosts
  have hs : (s.withPosts rest).store = s.store := withPosts_store
  have hw : (s.withPosts rest).hwPosts = rest := withPosts_hwPosts
  generalize s.withPosts rest = u at *
  refine ⟨_, rfl, ?_, ?_, ?_, hm⟩
  all_goals rw [State.appendDev, Nat.mul_zero, Nat.add_zero, ha, append_fits (by rw [hs, hr]; exact h)]
  · rw [hwPosts_showStore, hwPosts_recorded, hw]
  · rw [store_showStore, next_recorded (by rw [hs]; exact hk), hs]
  · rw [store_showStore, wait_recorded, hr, hs]

end

theorem tallyRecords : Claims.TallyRecords := by
  unfold Claims.TallyRecords
  intro w src c s
  refine ⟨fun h rest x hp hc hr hx hn => ?own, fun h rest x hp hc hr hx hn ho => ?full, fun h rest hp hr => ?ignored,
    fun z hp => execPostTake_ring hp, fun h z => if_pos h, fun z a hn hi ha hs => takePost_closed hn hi hs ha,
    fun h => ⟨congrArg Outcome.next (flushRound_closed h), fun hf z => (if_neg hf).trans (if_pos h)⟩,
    fun h z => if_pos h, fun h hr => ⟨congrArg Outcome.next (flushRound_starts h hr), fun hw => ?flush⟩,
    fun x h hr => congrArg Outcome.next (flushRound_again h hr), execFlushRoundDone_none, fun x u h hr hu => ?done,
    fun x k _ hk => ?durable, fun h z => ?sealing, fun e m h => ⟨fun hd => ?acked, fun hd => ?waits⟩,
    fun m h hp => ⟨execTallyReplRx_part h hp, execTallyReplRx_whole h hp⟩, fun orig h => if_neg (not_not_intro h),
    fun orig h => if_pos h, fun q => ⟨fun r h => execTallyReplResend_some h, execTallyReplResend_none⟩⟩
  case own =>
    subst hx
    have e : exec (.postTake none) s = _ := (execPostTake_own hp).trans (if_neg (not_not_intro hr))
    obtain ⟨t, ht, h1, h2, h3, h4⟩ := appendDev_fits (rest := rest) hc hn
    exact ⟨t, e.trans (congrArg Outcome.next ht), h1, h2, h3, h4⟩
  case full =>
    subst hx
    refine (execPostTake_own hp).trans ((if_neg (not_not_intro hr)).trans (congrArg Outcome.next ?_))
    have ha : (s.withPosts rest).addr = s.addr := get_eq_of_board withPosts_board
    have ho' : (s.withPosts rest).openBlock h.cls = none := ho
    rw [State.appendDev, Nat.mul_zero, Nat.add_zero, ha, append_full _ ho']
    · rw [State.withPosts]
    · rw [withPosts_store, nextRec_withPosts]
      exact hn
  case ignored => exact (execPostTake_own hp).trans (if_pos hr)
  case flush =>
    exact congrArg Outcome.next (finish_action (f := fun s => (s.flushRound, .ok)) hw
      (congrArg (·, Code.ok) (flushRound_starts h hr)))
  case done =>
    subst hu
    exact execFlushRoundDone_some h hr
  case durable =>
    rw [core_commitRound]
    exact CoreX_get_durable hk
  case sealing => exact (if_neg (by rw [h]; decide)).trans (if_neg (not_not_intro h))
  case acked => exact (execTallyReplRx_known h).trans (if_pos hd)
  case waits =>
    refine (execTallyReplRx_known h).trans ((if_neg (Nat.not_lt.mpr hd)).trans ?_)
    split <;> rfl

end Sys2Proof.Machine

/-! PROOFS. FORMAT, the opening, the close and reading of the tally store (spec/19, R479, R485 to R487). -/

namespace Sys2Proof.Machine

open Host (Outcome)

section

variable {s t : State} {w : Writer} {k : Nat}

theorem word_setStoreSt_off {o v : Nat} (h : o ≠ TALLY.STAT) (he : o ≠ PG.EV_STAT) :
    (s.setStoreSt v).word pTALLY o = s.word pTALLY o := by
  rw [State.setStoreSt]
  split
  · rfl
  · rw [State.ev, State.setBit, State.setB, word_set_off (by exact he), word_set_off h]

theorem store_setStoreSt {v : Nat} : (s.setStoreSt v).store = s.store := by
  rw [State.setStoreSt]
  split
  · rfl
  · rw [State.ev_store, State.set_store]

/-! ## The state of the store over an append -/

theorem storeSt_eq_of_board (h : t.board = s.board) : t.storeSt = s.storeSt := get_eq_of_board h

theorem storeSt_showStore : s.showStore.storeSt = s.storeSt := get_showStore (.inl (by decide))

theorem storeSt_ringCheck : s.ringCheck.storeSt = s.storeSt := by
  rw [State.ringCheck]
  split
  · rw [State.storeSt, get_ev (by decide), get_set_bits (f := TALLY.STAT_TALLY_FULL) (g := TALLY.STAT_STORE) rfl
      (by decide) (by decide) (by decide) (by decide)]
    rfl
  · rfl

theorem storeSt_openBlock (h : s.openBlock k = some t) : t.storeSt = s.storeSt := by
  rw [State.openBlock] at h
  dsimp only at h
  split at h
  · cases h
  · obtain rfl := Option.some.inj h
    rw [storeSt_ringCheck]
    exact storeSt_eq_of_board rfl

theorem storeSt_recorded {n : Nat} {b : List Nat} : (s.recorded k n b).storeSt = s.storeSt :=
  storeSt_eq_of_board board_recorded

theorem storeSt_append {ty flags src ref raw : Nat} {body : List Nat} :
    (s.append k ty flags src ref raw body).1.storeSt = s.storeSt := by
  cases h : needBlock (CoreX_get s.store.core k) (padRec (s.nextRec k ty flags src ref raw body)).length with
  | false => rw [append_fits h, storeSt_showStore, storeSt_recorded]
  | true =>
    cases ho : s.openBlock k with
    | none =>
      rw [append_full h ho, State.storeSt, get_set_bits (f := TALLY.STAT_STORE_FULL) (g := TALLY.STAT_STORE) rfl
        (by decide) (by decide) (by decide) (by decide)]
      rfl
    | some t => rw [append_opens h ho, storeSt_showStore, storeSt_recorded, storeSt_openBlock ho]

/-! ## FORMAT (R479) -/

theorem format_refused (h : s.en pTALLY = true ∨ s.flag pTALLY PG.STAT_SHUTTING = true ∨ s.drivesOk = false ∨
    s.store.label.isSome = true ∧ s.lifeSt ≠ 1 ∧ s.lifeSt ≠ 3) : s.format = (s.err pTALLY 18, .writeRefused) := by
  refine if_pos ?_
  rcases h with h | h | h | ⟨h, h1, h3⟩
  · simp [h]
  · simp [h]
  · simp [h]
  · obtain ⟨l, hl⟩ := Option.isSome_iff_exists.mp h
    simp [hl, h1, h3]

/-- The label that FORMAT writes. -/
def State.newLabel (s : State) : LabelX :=
  { storeId := (s.freeBytes 8).1, sysId := (s.freeBytes 8).2.reg pFABR FABR.SYS_ID, addr := (s.freeBytes 8).2.addr
    key := ((s.freeBytes 8).2.slotPub 0).take 32, total := s.capacity
    ringMin := if s.reg pTALLY TALLY.FMT_RING_MIN % 2 ^ 29 = 0 then s.capacity / 16
      else s.reg pTALLY TALLY.FMT_RING_MIN % 2 ^ 29 }

/-- A store under a new label, empty, as its registers show it. -/
def State.labelled (s : State) (l : LabelX) : State :=
  (((((s.setStore { label := some l, nsOp := s.store.nsOp, copies := [] }).set pTALLY TALLY.STAT_TALLY_FULL 0).set pTALLY
    TALLY.STAT_STORE_FULL 0).setReg64 pTALLY TALLY.STORE_ID_LO (ofLE l.storeId)).setReg pTALLY TALLY.TOTAL l.total).setReg
    pTALLY TALLY.RING_MIN l.ringMin

theorem format_ok (h : s.en pTALLY = false) (hs : s.flag pTALLY PG.STAT_SHUTTING = false)
    (hl : s.lifeSt = 1 ∨ s.lifeSt = 3 ∨ s.store.label = none) (hd : s.drivesOk = true) :
    s.format = (((s.freeBytes 8).2.labelled s.newLabel).showStore, .ok) := by
  refine (if_neg ?_).trans ?_
  · rcases hl with hl | hl | hl
    · simp [h, hs, hd, hl]
    · simp [h, hs, hd, hl]
    · simp [h, hs, hd, hl]
  · rfl

theorem store_labelled {l : LabelX} : (s.labelled l).store = { label := some l, nsOp := s.store.nsOp, copies := [] } := by
  rw [State.labelled, State.setReg_store, State.setReg_store, State.setReg64_store, State.set_store, State.set_store,
    State.setStore]

theorem total_labelled {l : LabelX} : (s.labelled l).word pTALLY TALLY.TOTAL = wordOf l.total := by
  rw [State.labelled, word_setReg_off (by decide)]
  exact word_setWord_same

theorem flag_labelled {l : LabelX} : (s.labelled l).flag pTALLY TALLY.STAT_STORE_FULL = false ∧
    (s.labelled l).flag pTALLY TALLY.STAT_TALLY_FULL = false := by
  have e {f : Fld} (h1 : f.off ≠ TALLY.RING_MIN) (h2 : f.off ≠ TALLY.TOTAL) (h3 : f.off ≠ TALLY.STORE_ID_LO)
      (h4 : f.off ≠ TALLY.STORE_ID_LO + 4) : (s.labelled l).flag pTALLY f = (((s.setStore
      { label := some l, nsOp := s.store.nsOp, copies := [] }).set pTALLY TALLY.STAT_TALLY_FULL 0).set pTALLY
      TALLY.STAT_STORE_FULL 0).flag pTALLY f := by
    rw [State.labelled, flag_setReg_off h1, flag_setReg_off h2, State.setReg64, flag_setReg_off h4, flag_setReg_off h3]
  constructor
  · rw [e (by decide) (by decide) (by decide) (by decide)]
    exact flag_setB_same (f := TALLY.STAT_STORE_FULL) (b := false) (by decide) (by decide)
  · rw [e (by decide) (by decide) (by decide) (by decide), flag_set_bits (f := TALLY.STAT_STORE_FULL)
      (g := TALLY.STAT_TALLY_FULL) rfl (by decide) (by decide) (by decide) (by decide)]
    exact flag_setB_same (f := TALLY.STAT_TALLY_FULL) (b := false) (by decide) (by decide)

theorem newLabel_eq : s.newLabel.sysId = s.reg pFABR FABR.SYS_ID ∧ s.newLabel.addr = s.addr ∧
    s.newLabel.key = (s.slotPub 0).take 32 ∧ s.newLabel.storeId.length = 8 := by
  obtain ⟨h1, -, h3⟩ := freeBytes_spec 8 s
  have hb : (s.freeBytes 8).2.board = s.board := by rw [h3]
  have hp : (s.freeBytes 8).2.slotPub 0 = s.slotPub 0 := by rw [State.slotPub, State.slotPub, slot_freeBytes]
  refine ⟨reg_eq_of_board hb, get_eq_of_board hb, congrArg (List.take 32) hp, h1⟩

/-! ## The opening (R485) -/

theorem storeOpen_closed {a b : LabelRead} (h : s.storeSt ≠ tsOPENING) : execStoreOpen a b s = .next s := if_pos h

theorem storeOpen_noDrives {a b : LabelRead} (h : s.storeSt = tsOPENING) (hd : s.drivesOk = false) :
    execStoreOpen a b s = .next (s.setStoreSt tsFAILED) :=
  (if_neg (not_not_intro h)).trans (if_pos (by rw [hd]; rfl))

theorem storeOpen_other (h : s.storeSt = tsOPENING) (hd : s.drivesOk = true) :
    execStoreOpen .other .other s = .next ((s.err pTALLY 20).setStoreSt tsFAILED) := by
  refine (if_neg (not_not_intro h)).trans ((if_neg (by rw [hd]; decide)).trans ?_)
  refine (if_neg ?_).trans (if_pos rfl)
  cases s.store.label <;> simp

theorem storeOpen_mixed (h : s.storeSt = tsOPENING) (hd : s.drivesOk = true) (hl : s.store.label.isSome = true) :
    execStoreOpen .good .other s = .next ((s.err pTALLY 19).setStoreSt tsFAILED) := by
  refine (if_neg (not_not_intro h)).trans ((if_neg (by rw [hd]; decide)).trans (if_pos ?_))
  rw [hl]
  rfl

theorem good_not_other {b : Bool} : ¬ ((b && (LabelRead.good == LabelRead.good || LabelRead.good == LabelRead.good)) &&
    (LabelRead.good == LabelRead.other || LabelRead.good == LabelRead.other)) = true := by
  cases b <;> decide

theorem storeOpen_unformatted (h : s.storeSt = tsOPENING) (hd : s.drivesOk = true) (hl : s.store.label = none) :
    execStoreOpen .good .good s = .next (s.setStoreSt tsUNFORMATTED) := by
  refine (if_neg (not_not_intro h)).trans ((if_neg (by rw [hd]; decide)).trans ?_)
  refine (if_neg good_not_other).trans ((if_neg (by decide)).trans ?_)
  dsimp only
  rw [hl]

theorem storeOpen_foreign {l : LabelX} (h : s.storeSt = tsOPENING) (hd : s.drivesOk = true) (hl : s.store.label = some l)
    (hf : l.sysId ≠ s.reg pFABR FABR.SYS_ID ∨ l.key ≠ (s.slotPub 0).take 32) :
    execStoreOpen .good .good s = .next ((s.err pTALLY 20).setStoreSt tsFAILED) := by
  refine (if_neg (not_not_intro h)).trans ((if_neg (by rw [hd]; decide)).trans ?_)
  refine (if_neg good_not_other).trans ((if_neg (by decide)).trans ?_)
  dsimp only
  rw [hl]
  exact (if_neg (by simp)).trans (if_pos hf)

/-- The blocks of the classes go to the drives. -/
def State.blocksBack (s : State) (cls : List ClsX) : State :=
  cls.foldl (fun (s : State) y =>
    match y.idx with
    | some i => s.writeBlock i y.bytes
    | none => s) s

/-- The registers of a store that opens. -/
def State.openShown (s : State) (l : LabelX) (lost : Nat) (clean : Bool) : State :=
  let s := ((s.setReg64 pTALLY TALLY.STORE_ID_LO (ofLE l.storeId)).setReg pTALLY TALLY.TOTAL l.total).setReg pTALLY
    TALLY.RING_MIN l.ringMin
  (s.setReg pTALLY TALLY.RECOV lost).setB pTALLY TALLY.STAT_UNCLEAN (!clean)

/-- DEGRADED where a mirror has one drive. -/
def State.mirrored (s : State) : State :=
  if s.tallyMode = 2 ∧ !(s.driveOk 0 && s.driveOk 1) then s.setDegraded true else s

/-- Whether a block on the drives still holds the numbered block of a class. -/
def StoreX.keeps (x : StoreX) (k : Nat) (e : Nat × Nat) : Bool :=
  let h := tabGet (fun _ => []) x.disk e.2
  h.getD 4 99 == k && ofLE ((h.drop 8).take 8) == e.1

/-- The committed classes, with the blocks that the drives still hold. -/
def StoreX.survivors (x : StoreX) : List ClsX :=
  x.com.cls.mapIdx (fun k y => { y with
    held := y.held.filter (x.keeps k), idx := if y.held.any (fun e => e.1 == y.bseq && x.keeps k e) then y.idx else none })

/-- The committed running state, with the blocks that the drives still hold. -/
def StoreX.survivedCore (x : StoreX) : CoreX :=
  { x.com with
    cls := x.survivors, used := x.com.used.filter (fun i => x.survivors.any (fun y => y.held.any (fun e => e.2 == i))) }

/-- The store's record after what was not committed is gone. -/
def StoreX.survived (x : StoreX) : StoreX :=
  { x with core := x.survivedCore, round := none, again := false, wait := [], acks := [] }

/-- The records that were appended after the commit word. -/
def StoreX.lost (x : StoreX) : Nat :=
  (List.range 6).foldl (fun n k => n + ((CoreX_get x.core k).next - (CoreX_get x.com k).next)) 0

theorem storeOpen_good {l : LabelX} (h : s.storeSt = tsOPENING) (hd : s.drivesOk = true) (hl : s.store.label = some l)
    (hs : l.sysId = s.reg pFABR FABR.SYS_ID) (hk : l.key = (s.slotPub 0).take 32) :
    execStoreOpen .good .good s = .next (((((s.setStore s.store.survived).blocksBack s.store.survivors).openShown l
      s.store.lost s.store.clean).mirrored).showStore) := by
  refine (if_neg (not_not_intro h)).trans ((if_neg (by rw [hd]; decide)).trans ?_)
  refine (if_neg good_not_other).trans ((if_neg (by decide)).trans ?_)
  rw [hl]
  refine (if_neg (by simp)).trans ((if_neg (by simp [hs, hk])).trans ?_)
  rw [← hl]
  extract_lets lost keep cls com core s1 s2 s3 s4 s5
  have hlost : lost = s.store.lost := rfl
  have hcls : cls = s.store.survivors := rfl
  have h1 : s1 = s.setStore s.store.survived := rfl
  have h2 : s2 = s1.blocksBack cls := rfl
  have h4 : s4 = s2.openShown l lost s.store.clean := rfl
  have h5 : s5 = s4.mirrored := rfl
  rw [h5, h4, h2, h1, hcls, hlost]

/-- What an opening leaves in the store's record. -/
theorem blocksBack_spec {x : StoreX} {cls : List ClsX} (h1 : x.wait = []) (h2 : x.round = none) :
    ((s.setStore x).blocksBack cls).store.wait = [] ∧ ((s.setStore x).blocksBack cls).store.round = none ∧
      ((s.setStore x).blocksBack cls).store.com = x.com ∧ ((s.setStore x).blocksBack cls).board = s.board := by
  refine keeps_foldl (P := fun t => t.store.wait = [] ∧ t.store.round = none ∧ t.store.com = x.com ∧ t.board = s.board)
    ⟨h1, h2, rfl, rfl⟩ fun t y h => ?_
  split
  · exact h
  · exact h

theorem store_openShown {l : LabelX} {n : Nat} {b : Bool} : (s.openShown l n b).store = s.store := by
  rw [State.openShown, State.setB_store, State.setReg_store, State.setReg_store, State.setReg_store, State.setReg64_store]

theorem word_openShown {l : LabelX} {n : Nat} {b : Bool} : (s.openShown l n b).word pTALLY TALLY.TOTAL = wordOf l.total ∧
    (s.openShown l n b).word pTALLY TALLY.RING_MIN = wordOf l.ringMin := by
  rw [State.openShown]
  constructor
  · rw [State.setB, word_set_off (by decide), word_setReg_off (by decide), word_setReg_off (by decide)]
    exact word_setWord_same
  · rw [State.setB, word_set_off (by decide), word_setReg_off (by decide)]
    exact word_setWord_same

theorem unclean_openShown {l : LabelX} {n : Nat} {b : Bool} : (s.openShown l n b).flag pTALLY TALLY.STAT_UNCLEAN = !b :=
  flag_setB_same (by decide) (by decide)

theorem storeSt_openShown {l : LabelX} {n : Nat} {b : Bool} : (s.openShown l n b).storeSt = s.storeSt := by
  rw [State.storeSt, State.openShown, get_setB_bits (f := TALLY.STAT_UNCLEAN) (g := TALLY.STAT_STORE) rfl (by decide)
    (by decide) (by decide) (by decide), get_setReg_off (by decide), get_setReg_off (by decide),
    get_setReg_off (by decide), State.setReg64, get_setReg_off (by decide), get_setReg_off (by decide)]
  rfl

theorem store_mirrored : s.mirrored.store = s.store := by
  rw [State.mirrored, State.setDegraded]
  split_ifs
  · rfl
  · rw [State.ev_store, State.setB_store]
  · rfl

theorem word_mirrored {o : Nat} (h : o ≠ TALLY.STAT) (he : o ≠ PG.EV_STAT) : s.mirrored.word pTALLY o = s.word pTALLY o := by
  rw [State.mirrored, State.setDegraded]
  split_ifs
  · rfl
  · rw [State.ev, State.setBit, State.setB, word_set_off (by exact he), State.setB, word_set_off h]
  · rfl

theorem get_mirrored {f : Fld} (h : f.off = TALLY.STAT) (hl : f.lo ≤ f.hi) (hd : f.hi < 10 ∨ 10 < f.lo) :
    s.mirrored.get pTALLY f = s.get pTALLY f := by
  rw [State.mirrored, State.setDegraded]
  split_ifs
  · rfl
  · rw [get_ev (by rw [h]; decide), get_setB_bits (f := TALLY.STAT_DEGRADED) h (by decide) (by decide) hl hd]
  · rfl

theorem storeOpened_spec {l : LabelX} : ∃ t, t = (((((s.setStore s.store.survived).blocksBack s.store.survivors).openShown l
    s.store.lost s.store.clean).mirrored).showStore) ∧ t.word pTALLY TALLY.TOTAL = wordOf l.total ∧
    t.word pTALLY TALLY.RING_MIN = wordOf l.ringMin ∧ t.flag pTALLY TALLY.STAT_UNCLEAN = !s.store.clean ∧
    t.store.wait = [] ∧ t.store.round = none ∧ t.store.com = s.store.com ∧ t.storeSt = s.storeSt := by
  obtain ⟨h1, h2, h3, h4⟩ := blocksBack_spec (s := s) (x := s.store.survived) (cls := s.store.survivors) rfl rfl
  have h5 : s.store.survived.com = s.store.com := rfl
  rw [h5] at h3
  generalize (s.setStore s.store.survived).blocksBack s.store.survivors = u at *
  obtain ⟨ht, hr⟩ := word_openShown (s := u) (l := l) (n := s.store.lost) (b := s.store.clean)
  refine ⟨_, rfl, ?_, ?_, ?_, ?_, ?_, ?_, ?_⟩
  · rw [word_showStore (.inl (by decide)), word_mirrored (by decide) (by decide), ht]
  · rw [word_showStore (.inr (.inl (by decide))), word_mirrored (by decide) (by decide), hr]
  · rw [State.flag, get_showStore (.inl (by decide)), get_mirrored rfl (by decide) (by decide)]
    exact unclean_openShown
  · rw [store_showStore, store_mirrored, store_openShown, h1]
  · rw [store_showStore, store_mirrored, store_openShown, h2]
  · rw [store_showStore, store_mirrored, store_openShown, h3]
  · rw [storeSt_showStore, State.storeSt, get_mirrored rfl (by decide) (by decide)]
    exact storeSt_openShown.trans (storeSt_eq_of_board h4)

theorem storeOpenDone_closed (h : s.storeSt ≠ tsOPENING) : execStoreOpenDone s = .next s := if_pos (.inl h)

theorem storeOpenDone_opens (h : s.storeSt = tsOPENING) (hl : s.store.label.isSome = true)
    (ht : s.reg pTALLY TALLY.TOTAL ≠ 0) {u : State}
    (hu : u = ((s.setStoreSt tsOPEN).appendDev clEVENTS 2 (b2n (!s.store.clean)) s.restartBody).1) :
    execStoreOpenDone s = .next (u.setStore { u.store with clean := false }) := by
  have hb : (s.setStoreSt tsOPEN).restartBody = s.restartBody := by
    rw [State.restartBody, State.restartBody, store_setStoreSt]
  rw [execStoreOpenDone, if_neg]
  · rw [hu, ← hb, ← store_setStoreSt (s := s) (v := tsOPEN)]
  · rintro (h' | h' | h')
    · exact h' h
    · rw [Option.isNone_iff_eq_none] at h'
      rw [h'] at hl
      cases hl
    · exact ht h'

/-! ## The close (R486) -/

/-- The pages's status once the store has shut down. -/
def State.shutDown (s : State) : State :=
  ((s.set pTALLY PG.STAT_SHUTTING 0).set pTALLY PG.STAT_ENABLED 0).ev pTALLY 4

/-- The store is CLOSED, with no round. -/
def State.storeClosed (s : State) : State :=
  (s.setStore { s.store with round := none, again := false }).setStoreSt tsCLOSED

/-- The store after the final seal and round, where it is open. -/
def State.lastSealed (s : State) : State :=
  if s.storeSt = tsOPEN then s.sealNow.commitRound s.sealNow.store.core true else s

theorem storeClose_eq : s.storeClose =
    if s.lastSealed.storeClosed.flag pTALLY PG.STAT_SHUTTING then s.lastSealed.storeClosed.shutDown
    else s.lastSealed.storeClosed := rfl

theorem flag_storeClosed : s.storeClosed.flag pTALLY PG.STAT_SHUTTING = s.flag pTALLY PG.STAT_SHUTTING := by
  rw [State.flag, State.get, State.storeClosed, word_setStoreSt_off (by decide) (by decide)]
  rfl

theorem storeClose_opening (h : s.flag pTALLY PG.STAT_SHUTTING = true) (hs : s.storeSt = tsOPENING) :
    execStoreClose s = .next s.storeClosed.shutDown := by
  have hu : s.lastSealed = s := if_neg (by rw [hs]; decide)
  refine (if_pos h).trans (congrArg Outcome.next ?_)
  rw [storeClose_eq, hu, if_pos (flag_storeClosed.trans h)]

theorem storeSt_shutDown : s.shutDown.storeSt = s.storeSt := by
  rw [State.storeSt, State.shutDown, get_ev (by decide), get_set_off (by decide), get_set_off (by decide)]
  rfl

theorem flag_shutDown : s.shutDown.flag pTALLY PG.STAT_SHUTTING = false ∧ s.shutDown.flag pTALLY PG.STAT_ENABLED = false := by
  constructor
  · rw [State.shutDown, flag_ev (by decide), flag_set_bits (f := PG.STAT_ENABLED) (g := PG.STAT_SHUTTING) rfl (by decide)
      (by decide) (by decide) (by decide)]
    exact flag_setB_same (f := PG.STAT_SHUTTING) (b := false) (by decide) (by decide)
  · rw [State.shutDown, flag_ev (by decide)]
    exact flag_setB_same (f := PG.STAT_ENABLED) (b := false) (by decide) (by decide)

theorem core_shutDown : s.storeClosed.shutDown.store.core = s.store.core := by
  rw [State.shutDown, State.ev_store, State.set_store, State.set_store, State.storeClosed, store_setStoreSt, State.setStore]

/-! ## Reading (R487) -/

/-- A read's end with a code. -/
def State.readEnds (s : State) (code : Nat) : State := (s.setReg pTALLY TALLY.RD_RES (2 ^ 31 + code)).ev pTALLY 20

theorem exec_storeRead {v : Word} (hw : s.mayAct w pTALLY) (h : s.rdCtl v = t) :
    exec (.storeRead w v) s = .next (t.answer w .ok) :=
  congrArg Outcome.next (finish_action (f := fun s => (s.rdCtl v, .ok)) hw (congrArg (·, Code.ok) h))

/-- RD_CTL as it is written. -/
def State.rdWritten (s : State) (v : Word) : State := s.setWord pTALLY TALLY.RD_CTL (maskW v 0x7001FFFF)

theorem rdCtl_idle {v : Word} (h : v.toNat < 2 ^ 31) : s.rdCtl v = s.rdWritten v := if_pos (by omega)

theorem rdCtl_closed {v : Word} (h : 2 ^ 31 ≤ v.toNat) (hs : s.storeSt ≠ tsOPEN) :
    s.rdCtl v = (s.rdWritten v).readEnds 3 := by
  have hs' : (s.rdWritten v).storeSt ≠ tsOPEN := by
    rw [State.storeSt, State.get, State.rdWritten, word_setWord_off (by decide)]
    exact hs
  exact (if_neg (by omega)).trans (if_pos hs')

/-- The length of a read. -/
def readLen (v : Word) : Nat := if v.toNat % 2 ^ 17 = 0 then 65536 else v.toNat % 2 ^ 17

theorem rdCtl_open {v : Word} (h : 2 ^ 31 ≤ v.toNat) (hs : s.storeSt = tsOPEN) : s.rdCtl v =
    if 65536 < readLen v ∨ 65536 < s.reg pTALLY TALLY.RD_OFS % 65536 + readLen v then (s.rdWritten v).readEnds 2
    else match (if bitsOf v.toNat 30 28 < 6 then s.storeBytes (bitsOf v.toNat 30 28) (s.reg pTALLY TALLY.RD_BSEQ)
        (s.reg pTALLY TALLY.RD_OFS % 65536) (readLen v) else none) with
      | none => (s.rdWritten v).readEnds 1
      | some b => ((s.rdWritten v).setMemBytes ((s.rdWritten v).reg64 pTALLY TALLY.RD_DST_LO) b).readEnds 0 := by
  have hs' : ¬ (s.rdWritten v).storeSt ≠ tsOPEN := by
    rw [State.storeSt, State.get, State.rdWritten, word_setWord_off (by decide)]
    exact not_not_intro hs
  have hr (o : Nat) (ho : o ≠ TALLY.RD_CTL) : (s.rdWritten v).reg pTALLY o = s.reg pTALLY o :=
    congrArg BitVec.toNat (word_setWord_off ho)
  have hb (k q o l : Nat) : (s.rdWritten v).storeBytes k q o l = s.storeBytes k q o l := rfl
  rw [← hr TALLY.RD_OFS (by decide), ← hr TALLY.RD_BSEQ (by decide), ← hb]
  exact (if_neg (by omega)).trans (if_neg hs')

end

theorem tallyStore : Claims.TallyStore := by
  unfold Claims.TallyStore
  intro w s
  refine ⟨fun hw h => ?refused, fun hw h hs hl hd => ?formats, fun h => ⟨fun a b => storeOpen_closed h, storeOpenDone_closed h⟩,
    fun h => ?closed, fun a b h hd => storeOpen_noDrives h hd, fun h hd => ⟨storeOpen_other h hd,
      fun l hl hf => storeOpen_foreign h hd hl hf, fun hl => storeOpen_unformatted h hd hl,
      fun hl => storeOpen_mixed h hd hl, fun l hl hs hk => ?opened⟩, fun h hl ht => ?done, fun h hs => ?closes,
    fun v u hw hu => ⟨fun hv => ?idle, fun hv hs => ?notOpen, fun len hlen hv hs => ?reads⟩⟩
  case refused =>
    exact congrArg Outcome.next (finish_action_code (f := State.format) hw (ownerPage_of_type (y := .tally) (by decide))
      (format_refused h))
  case formats =>
    have e : exec (.format w) s = _ := congrArg Outcome.next (finish_action (f := State.format) hw (format_ok h hs hl hd))
    have hm := keeps_execFormat (k0_sameMem s) (sameMem_refl s) _ e
    obtain ⟨h1, h2, h3, h4⟩ := newLabel_eq (s := s)
    obtain ⟨hf1, hf2⟩ := flag_labelled (s := (s.freeBytes 8).2) (l := s.newLabel)
    have ht := total_labelled (s := (s.freeBytes 8).2) (l := s.newLabel)
    have hst := store_labelled (s := (s.freeBytes 8).2) (l := s.newLabel)
    generalize (s.freeBytes 8).2.labelled s.newLabel = u at *
    have k1 : u.showStore.store = { label := some s.newLabel, nsOp := _, copies := [] } := store_showStore.trans hst
    have k2 := (word_showStore (s := u) (o := TALLY.TOTAL) (.inl (by decide))).trans ht
    have k3 := (congrArg (· != 0) (get_showStore (s := u) (f := TALLY.STAT_STORE_FULL) (.inl (by decide)))).trans hf1
    have k4 := (congrArg (· != 0) (get_showStore (s := u) (f := TALLY.STAT_TALLY_FULL) (.inl (by decide)))).trans hf2
    generalize u.showStore = v at *
    exact ⟨_, s.newLabel, e, congrArg StoreX.label k1, rfl, h1, h2, h3, h4, rfl, k2, k3, k4, congrArg StoreX.disk k1,
      congrArg StoreX.core k1, hm⟩
  case closed => exact if_neg (by rw [h]; decide)
  case opened =>
    have e := storeOpen_good h hd hl hs hk
    have hm := keeps_execStoreOpen (k0_sameMem s) (sameMem_refl s) _ e
    obtain ⟨t, ht, h1, h2, h3, h4, h5, h6, h7⟩ := storeOpened_spec (s := s) (l := l)
    rw [← ht] at e hm
    exact ⟨t, e, h1, h2, h3, h4, h5, h6, h7.trans h, hm⟩
  case done =>
    have e := storeOpenDone_opens h hl ht rfl
    have hm := keeps_execStoreOpenDone (k0_sameMem s) (sameMem_refl s) _ e
    have hs : ((s.setStoreSt tsOPEN).appendDev clEVENTS 2 (b2n (!s.store.clean)) s.restartBody).1.storeSt = tsOPEN :=
      storeSt_append.trans (storeSt_setStoreSt (by decide))
    generalize ((s.setStoreSt tsOPEN).appendDev clEVENTS 2 (b2n (!s.store.clean)) s.restartBody).1 = u at *
    exact ⟨_, e, (storeSt_eq_of_board rfl).trans hs, rfl, rfl, hm⟩
  case closes =>
    have e := storeClose_opening h hs
    have hm := keeps_execStoreClose (k0_sameMem s) (sameMem_refl s) _ e
    have hc : s.storeClosed.shutDown.storeSt = tsCLOSED := storeSt_shutDown.trans (storeSt_setStoreSt (by decide))
    obtain ⟨h1, h2⟩ := flag_shutDown (s := s.storeClosed)
    exact ⟨_, e, hc, h1, h2, bit_ev (by decide), core_shutDown, hm⟩
  case idle =>
    subst hu
    exact exec_storeRead hw (rdCtl_idle hv)
  case notOpen =>
    subst hu
    exact exec_storeRead hw (rdCtl_closed hv hs)
  case reads =>
    subst hu hlen
    intro cls got
    have e := rdCtl_open hv hs
    have hlen : readLen v = (if v.toNat % 2 ^ 17 = 0 then 65536 else v.toNat % 2 ^ 17) := rfl
    have hgot : s.storeBytes (bitsOf v.toNat 30 28) (s.reg pTALLY TALLY.RD_BSEQ) (s.reg pTALLY TALLY.RD_OFS % 65536)
      (readLen v) = got := rfl
    clear_value got
    rw [← hlen]
    refine ⟨fun hl => ?tooLong, fun hl hb => ?absent, fun b hl hc hb => ?present⟩
    case tooLong => exact exec_storeRead hw (e.trans (if_pos (.inr (by rw [Nat.add_comm]; exact hl))))
    case absent =>
      refine exec_storeRead hw (e.trans ((if_neg (by omega)).trans ?_))
      rcases hb with hb | hb
      · rw [if_neg (Nat.not_lt.mpr hb)]
        rfl
      · rw [hgot, hb, ite_self]
        rfl
    case present =>
      refine exec_storeRead hw (e.trans ((if_neg (by omega)).trans ?_))
      rw [if_pos hc, hgot, hb]
      rfl

end Sys2Proof.Machine

/-! PROOFS. The drives of the tally store (spec/19, R472 to R475). -/

namespace Sys2Proof.Machine

open Host (Outcome)

section

variable {s t : State} {w : Writer} {k : Fin 2}

/-! ## Completions and reports -/

theorem execNvmeCompletion_away {e : NvmeEv} (h : s.en (pNVME k) = false ∨ s.driveSt k = nvABSENT ∨ s.driveSt k = nvFAILED) :
    execNvmeCompletion k e s = .next s := by
  refine if_pos ?_
  rcases h with h | h
  · exact .inl (by rw [h]; rfl)
  · exact .inr h

theorem execNvmeCompletion_done {n : Nat} (he : s.en (pNVME k) = true) (hd : s.driveSt k = nvREADY) :
    execNvmeCompletion k (.done n) s = .next (if (s.injTake (pNVME k) 0).1 ∨ n ≠ 0
      then (s.injTake (pNVME k) 0).2.nvmeError k else (s.injTake (pNVME k) 0).2) := by
  refine if_neg ?_
  rintro (h | h | h)
  · rw [he] at h
    cases h
  · rw [hd] at h
    cases h
  · rw [hd] at h
    cases h

theorem present_of_init (he : s.en (pNVME k) = true) (hd : s.driveSt k = nvINIT ∨ s.driveSt k = nvREADY) :
    ¬ ((!s.en (pNVME k)) = true ∨ s.driveSt k = nvABSENT ∨ s.driveSt k = nvFAILED) := by
  rw [he]
  rcases hd with hd | hd
  · rw [hd]
    decide
  · rw [hd]
    decide

/-- The words of a drive that becomes ready. -/
def State.driveReady (s : State) (k sp wi bl : Nat) (ok vwc : Bool) : State :=
  let p := pNVME k
  let s := (s.set p NVME.STAT_SPEED sp).set p NVME.STAT_WIDTH wi
  let s := ((s.set p NVME.STAT_LINK 1).setB p NVME.STAT_NS_BAD (!ok)).setB p NVME.STAT_VWC vwc
  (s.setReg p NVME.CAP_BLK (min bl (2 ^ 29))).set p NVME.STAT_STATE nvREADY

theorem execNvmeCompletion_ready {sp wi bl : Nat} {ok vwc : Bool} (he : s.en (pNVME k) = true)
    (hi : s.injArmed (pNVME k) 0 = false) (hd : s.driveSt k = nvINIT) :
    execNvmeCompletion k (.ready sp wi bl ok vwc) s = .next (s.driveReady k sp wi bl ok vwc) := by
  refine (if_neg (present_of_init he (.inl hd))).trans ?_
  rw [injTake_unarmed hi]
  exact (if_neg Bool.false_ne_true).trans (if_neg (not_not_intro hd))

theorem driveReady_spec {k sp wi bl : Nat} {ok vwc : Bool} : (s.driveReady k sp wi bl ok vwc).driveSt k = nvREADY ∧
    (s.driveReady k sp wi bl ok vwc).flag (pNVME k) NVME.STAT_NS_BAD = !ok ∧
    (s.driveReady k sp wi bl ok vwc).flag (pNVME k) NVME.STAT_VWC = vwc ∧
    (s.driveReady k sp wi bl ok vwc).reg (pNVME k) NVME.CAP_BLK = min bl (2 ^ 29) ∧
    SameRegs s (s.driveReady k sp wi bl ok vwc) [(pNVME k, NVME.STAT), (pNVME k, NVME.CAP_BLK)] ∧
    SameMem s (s.driveReady k sp wi bl ok vwc) := by
  rw [State.driveReady]
  refine ⟨(get_set_same (by decide) (by decide)).trans rfl, ?_, ?_, ?_, ?_, ?_⟩
  · rw [flag_set_bits (f := NVME.STAT_STATE) (g := NVME.STAT_NS_BAD) rfl (by decide) (by decide) (by decide) (by decide),
      flag_setReg_off (by decide), flag_setB_bits (f := NVME.STAT_VWC) (g := NVME.STAT_NS_BAD) rfl (by decide) (by decide)
      (by decide) (by decide)]
    exact flag_setB_same (by decide) (by decide)
  · rw [flag_set_bits (f := NVME.STAT_STATE) (g := NVME.STAT_VWC) rfl (by decide) (by decide) (by decide) (by decide),
      flag_setReg_off (by decide)]
    exact flag_setB_same (by decide) (by decide)
  · rw [reg_set_off (by decide)]
    exact (reg_setReg_same).trans (Nat.mod_eq_of_lt (by omega))
  · exact SameRegs.set (SameRegs.setReg (SameRegs.setB (SameRegs.setB (SameRegs.set (SameRegs.set (SameRegs.set
      sameRegs_refl (by simp)) (by simp)) (by simp)) (by simp)) (by simp)) (by simp)) (by simp)
  · exact keeps_State_set (k0_sameMem s) (keeps_State_setReg (k0_sameMem s) (keeps_State_setB (k0_sameMem s)
      (keeps_State_setB (k0_sameMem s) (keeps_State_set (k0_sameMem s) (keeps_State_set (k0_sameMem s)
      (keeps_State_set (k0_sameMem s) (sameMem_refl s)))))))

/-! ## Namespace commands (R474) -/

/-- A namespace command goes to the drive. -/
def State.nsSent (s : State) (k op : Nat) : State :=
  (((s.setReg (pNVME k) NVME.NS_CMD op).setReg (pNVME k) NVME.NS_RES 0).setStore { s.store with
    nsOp := s.store.nsOp.set k op }).send (.nvmeNs k op (s.reg64 (pNVME k) NVME.NS_ARG_LO))

/-- A namespace command is refused. -/
def State.nsNo (s : State) (k op : Nat) : State :=
  ((s.setReg (pNVME k) NVME.NS_CMD op).setReg (pNVME k) NVME.NS_RES (2 ^ 31 + 0xFFFF)).ev (pNVME k) 16

theorem toNat_nsWord {op : Nat} (h : op < 8) : (wordOf (2 ^ 31 + op)).toNat = 2 ^ 31 + op := by
  rw [BitVec.toNat_ofNat]
  omega

theorem nsCmd_eq {k op : Nat} (h : 1 ≤ op ∧ op ≤ 3) : s.nsCmd k (wordOf (2 ^ 31 + op)) =
    if s.en pTALLY || (op == 2 && s.lifeSt == 2) then s.nsNo k op else s.nsSent k op := by
  have hen : (s.setReg (pNVME k) NVME.NS_CMD op).en pTALLY = s.en pTALLY :=
    flag_setReg_page (by simp only [pTALLY, pNVME]; omega) (by decide) (by decide)
  have hlife : (s.setReg (pNVME k) NVME.NS_CMD op).lifeSt = s.lifeSt := by
    rw [State.lifeSt, reg_setReg_page (by simp only [pLIFE, pNVME]; omega) (by decide) (by decide), ← State.lifeSt]
  have harg : (s.setReg (pNVME k) NVME.NS_CMD op).reg64 (pNVME k) NVME.NS_ARG_LO = s.reg64 (pNVME k) NVME.NS_ARG_LO := by
    rw [State.reg64, reg_setReg_off (by decide), reg_setReg_off (by decide), ← State.reg64]
  have hop : (2 ^ 31 + op) % 8 = op := by omega
  have hgo : ¬ (2 ^ 31 + op) / 2 ^ 31 = 0 := by omega
  have hknown : (op == 1 || op == 2 || op == 3) = true := by
    obtain ⟨h1, h3⟩ := h
    interval_cases op <;> rfl
  rw [State.nsCmd]
  dsimp only
  rw [toNat_nsWord (by omega), hop, if_neg hgo, hen, hlife, hknown, harg, Bool.not_true, Bool.or_false]
  rfl

theorem nsOpCmd_eq {op : Nat} (hw : s.mayAct w (pNVME k)) (h : s.nsCmd k (wordOf (2 ^ 31 + op)) = t) :
    (Outcome.next (s.nsOpCmd w k op) : Outcome State Fault Refusal) = .next (t.answer w .ok) :=
  congrArg Outcome.next (finish_action (f := fun s => (s.nsCmd k (wordOf (2 ^ 31 + op)), .ok)) hw (congrArg (·, Code.ok) h))

end

theorem drives : Claims.Drives := by
  unfold Claims.Drives
  intro w k s
  refine ⟨fun h => ⟨if_pos h, fun e => execNvmeCompletion_away (.inr h)⟩, fun ha hf => if_neg (not_or.mpr ⟨ha, hf⟩),
    fun h e => execNvmeCompletion_away (.inl h), fun he hi => ⟨fun sp wi bl ok vwc hd => ?ready, fun hd => ?reports⟩,
    fun he hi hd => (execNvmeCompletion_done he hd).trans (congrArg Outcome.next (if_pos (.inl hi))),
    fun hw go no hgo hno => ?namespaces⟩
  case ready =>
    have e := execNvmeCompletion_ready (sp := sp) (wi := wi) (bl := bl) (ok := ok) (vwc := vwc) he hi hd
    obtain ⟨h1, h2, h3, h4, h5, h6⟩ := driveReady_spec (s := s) (k := k) (sp := sp) (wi := wi) (bl := bl) (ok := ok) (vwc := vwc)
    generalize s.driveReady k sp wi bl ok vwc = u at *
    exact ⟨u, e, h1, h2, h3, h4, h5, h6⟩
  case reports =>
    have hp := present_of_init he (.inr hd)
    have hinj : s.injTake (pNVME k) 0 = (false, s) := injTake_unarmed hi
    refine ⟨?_, fun st hst => ?_, ?_, fun wear temp => ?_, fun hn st => ?_, fun hn st u hu => ?_⟩
    · rw [show exec (.nvmeCompletion k (.done 0)) s = _ from execNvmeCompletion_done he hd, hinj]
      rfl
    · rw [show exec (.nvmeCompletion k (.done st)) s = _ from execNvmeCompletion_done he hd, hinj]
      exact congrArg Outcome.next (if_pos (.inr hst))
    · refine (if_neg hp).trans ?_
      rw [hinj]
      rfl
    · refine (if_neg hp).trans ?_
      rw [hinj]
      rfl
    · refine (if_neg hp).trans ?_
      rw [hinj]
      exact if_pos hn
    · subst hu
      refine (if_neg hp).trans ?_
      rw [hinj]
      refine (if_neg hn).trans ?_
      rfl
  case namespaces =>
    subst hgo hno
    refine ⟨fun he => ⟨?_, ?_, fun hl => ?_, fun hl => ?_⟩, fun he => ⟨?_, ?_, ?_⟩⟩
    · exact nsOpCmd_eq hw ((nsCmd_eq (by decide)).trans (if_neg (by simp [he])))
    · exact nsOpCmd_eq hw ((nsCmd_eq (by decide)).trans (if_neg (by simp [he])))
    · exact nsOpCmd_eq hw ((nsCmd_eq (by decide)).trans (if_neg (by simp [he, hl])))
    · exact nsOpCmd_eq hw ((nsCmd_eq (by decide)).trans (if_pos (by simp [hl])))
    · exact nsOpCmd_eq hw ((nsCmd_eq (by decide)).trans (if_pos (by rw [he]; rfl)))
    · exact nsOpCmd_eq hw ((nsCmd_eq (by decide)).trans (if_pos (by rw [he]; rfl)))
    · exact nsOpCmd_eq hw ((nsCmd_eq (by decide)).trans (if_pos (by rw [he]; rfl)))

/-- Settles O57. -/
theorem tallyAndDrives : Obligations.TallyAndDrives := ⟨tallyRecords, tallyStore, drives⟩

end Sys2Proof.Machine

/-! PROOFS. What a reset's side effects leave alone: sessions, keys and the boot's record (spec/22, R535). -/

namespace Sys2Proof.Machine

section

variable {s t : State} {p o n v k i l : Nat} {f : Fld} {b : Bool}

/-- Keys, the boot's record, the configuration flash and the queue. -/
def State.box (s : State) : KeysX × BootX × List (Nat × Byte) × List Instr := (s.keys, s.boot, s.cf, s.pending)

/-- Sessions beside these. -/
def State.vault (s : State) : List (Nat × SessX) × KeysX × BootX × List (Nat × Byte) × List Instr := (s.sess, s.box)

theorem vault_eq {a : List (Nat × SessX)} {b : KeysX} {c : BootX} {d : List (Nat × Byte)} {e : List Instr}
    (h1 : s.sess = a) (h2 : s.keys = b) (h3 : s.boot = c) (h4 : s.cf = d) (h5 : s.pending = e) :
    s.vault = (a, b, c, d, e) := by
  rw [State.vault, State.box, h1, h2, h3, h4, h5]

theorem vault_of (h1 : t.sess = s.sess) (h2 : t.keys = s.keys) (h3 : t.boot = s.boot) (h4 : t.cf = s.cf)
    (h5 : t.pending = s.pending) : t.vault = s.vault := by
  rw [State.vault, State.vault, State.box, State.box, h1, h2, h3, h4, h5]

theorem box_of_vault (h : t.vault = s.vault) : t.box = s.box := congrArg Prod.snd h

theorem vault_foldl {α : Type} {g : State → α → State} (h : ∀ t x, (g t x).vault = t.vault) (xs : List α) :
    (xs.foldl g s).vault = s.vault :=
  keeps_foldl (P := fun t => t.vault = s.vault) rfl fun t x ht => (h t x).trans ht

theorem vault_ite {c : Prop} [Decidable c] {a b : State} (ha : a.vault = s.vault) (hb : b.vault = s.vault) :
    (if c then a else b).vault = s.vault := keeps_ite (P := fun t => t.vault = s.vault) ha hb

/-! ## Operations on the state -/

@[simp] theorem vault_setWord {w : Word} : (s.setWord p o w).vault = s.vault := vault_of rfl rfl rfl rfl rfl
@[simp] theorem vault_setReg : (s.setReg p o v).vault = s.vault := vault_setWord
@[simp] theorem vault_set : (s.set p f v).vault = s.vault := vault_setWord
@[simp] theorem vault_setB : (s.setB p f b).vault = s.vault := vault_setWord
@[simp] theorem vault_setBit : (s.setBit p o i b).vault = s.vault := vault_setWord
@[simp] theorem vault_ev : (s.ev p i).vault = s.vault := vault_setWord
@[simp] theorem vault_inc : (s.inc p o n).vault = s.vault := vault_setWord
@[simp] theorem vault_incF : (s.incF p f n).vault = s.vault := vault_setWord
@[simp] theorem vault_incFW : (s.incFW p f n).vault = s.vault := vault_setWord
@[simp] theorem vault_send {x : Out} : (s.send x).vault = s.vault := vault_of rfl rfl rfl rfl rfl
@[simp] theorem vault_setRod {x : RodX} : (s.setRod n x).vault = s.vault := vault_of rfl rfl rfl rfl rfl
@[simp] theorem vault_setPg {x : PageX} : (s.setPg n x).vault = s.vault := vault_of rfl rfl rfl rfl rfl
@[simp] theorem vault_setBead {x : BeadX} : (s.setBead x).vault = s.vault := vault_of rfl rfl rfl rfl rfl
@[simp] theorem vault_setEisX {x : EisX} : (s.setEisX n x).vault = s.vault := vault_of rfl rfl rfl rfl rfl
@[simp] theorem vault_setSafe {x : SafeX} : (s.setSafe x).vault = s.vault := vault_of rfl rfl rfl rfl rfl
@[simp] theorem vault_setRest {x : RestX} : (s.setRest x).vault = s.vault := vault_of rfl rfl rfl rfl rfl
@[simp] theorem vault_setLink {x : LinkX} : (s.setLink n x).vault = s.vault := vault_of rfl rfl rfl rfl rfl
@[simp] theorem vault_setFab {x : FabX} : (s.setFab n x).vault = s.vault := vault_of rfl rfl rfl rfl rfl
@[simp] theorem vault_setRouter {x : RouterX} : (s.setRouter x).vault = s.vault := vault_of rfl rfl rfl rfl rfl
@[simp] theorem vault_setStepper {x : StepX} : (s.setStepper n x).vault = s.vault := vault_of rfl rfl rfl rfl rfl
@[simp] theorem vault_evtPost {l : List Nat} : (s.evtPost l).vault = s.vault := vault_of rfl rfl rfl rfl rfl
@[simp] theorem vault_free : s.free.2.vault = s.vault := vault_of rfl rfl rfl rfl rfl

theorem Routed.vault (h : Routed s t) : t.vault = s.vault := by
  have h' : t.core.vault = s.core.vault := congrArg State.vault h.rest
  exact h'

@[simp] theorem vault_setDom {d : Dom} {x : DomSt} : (s.setDom d x).vault = s.vault := by
  rw [State.setDom]
  exact vault_ite rfl (vault_foldl (fun _ _ => vault_ev) _)

/-! ## Rods -/

@[simp] theorem vault_setPrech : (s.setPrech n b).vault = s.vault := vault_ite rfl (vault_send.trans vault_setRod)

@[simp] theorem vault_setCont : (s.setCont n b).vault = s.vault := vault_ite rfl (vault_send.trans vault_setRod)

@[simp] theorem vault_setBrk : (s.setBrk n b).vault = s.vault := vault_ite rfl (vault_send.trans vault_setRod)

@[simp] theorem vault_setDisch : (s.setDisch n b).vault = s.vault := by
  simp -implicitDefEqProofs [State.setDisch, apply_ite State.vault]

@[simp] theorem vault_eisTrack : s.eisTrack.vault = s.vault := by
  refine vault_foldl (fun t r => ?_) _
  simp -implicitDefEqProofs [apply_ite State.vault]

@[simp] theorem vault_setRemain : s.setRemain.vault = s.vault := vault_setReg.trans vault_setReg

@[simp] theorem vault_placeRun : s.placeRun.vault = s.vault := by
  unfold State.placeRun
  extract_lets ps qs s1 s2 s3 x s4
  have h1 : s1.vault = s.vault := vault_foldl (fun t r => vault_setReg.trans (vault_setReg.trans vault_setReg)) _
  have h2 : s2.vault = s1.vault := vault_setReg.trans vault_setReg
  have h3 : s3.vault = s2.vault := vault_inc.trans vault_setRemain
  have h4 : s4.vault = s3.vault := vault_ite vault_setBead rfl
  exact vault_eisTrack.trans (h4.trans (h3.trans (h2.trans h1)))

@[simp] theorem vault_dieAlone : (s.dieAlone n).vault = s.vault := vault_ite vault_setDom rfl

@[simp] theorem vault_setRodSt : (s.setRodSt n v).vault = s.vault := by
  unfold State.setRodSt
  extract_lets old x s1 s2 s3 s4 s5 s6 s7
  have h1 : s1.vault = s.vault := vault_setRod
  have h2 : s2.vault = s1.vault := vault_set.trans vault_set
  have h3 : s3.vault = s2.vault := vault_ev
  have h4 : s4.vault = s3.vault := vault_setB.trans vault_setB
  have h5 : s5.vault = s4.vault := vault_ite (vault_ev.trans vault_ev) rfl
  have h6 : s6.vault = s5.vault := vault_ite vault_setBit rfl
  have h7 : s7.vault = s6.vault := vault_ite vault_dieAlone rfl
  exact (vault_ite vault_placeRun rfl).trans (h7.trans (h6.trans (h5.trans (h4.trans (h3.trans (h2.trans h1))))))

@[simp] theorem vault_setStep : (s.setStep n v).vault = s.vault := vault_set

@[simp] theorem vault_enterDischarge : (s.enterDischarge n).vault = s.vault := by
  unfold State.enterDischarge
  extract_lets s1 s2 x s3
  have h1 : s1.vault = s.vault := vault_setCont.trans (vault_setPrech.trans vault_setRodSt)
  have h2 : s2.vault = s1.vault := vault_setStep
  have h3 : s3.vault = s2.vault := vault_setRod
  exact (vault_ite vault_send rfl).trans (h3.trans (h2.trans h1))

@[simp] theorem vault_enterGatesOff : (s.enterGatesOff n).vault = s.vault :=
  vault_setRod.trans (vault_setStep.trans (vault_setBrk.trans vault_setRodSt))

@[simp] theorem vault_descentCause : (s.descentCause n v).vault = s.vault := by
  unfold State.descentCause
  refine vault_ite (vault_setRod.trans (vault_setB.trans (vault_set.trans vault_setRodSt))) (vault_ite (vault_ite
    (vault_setRod.trans (vault_set.trans vault_set)) rfl) (vault_ite vault_enterDischarge (vault_ite ?_ rfl)))
  exact vault_ite vault_enterGatesOff vault_enterDischarge

@[simp] theorem vault_beadStart : s.beadStart.vault = s.vault := by
  simp -implicitDefEqProofs [State.beadStart, State.setLstate, apply_ite State.vault]

@[simp] theorem vault_setRole : (s.setRole v).vault = s.vault := vault_ite rfl (vault_ev.trans vault_set)

@[simp] theorem vault_homeRoles : s.homeRoles.vault = s.vault := by
  simp -implicitDefEqProofs [State.homeRoles, apply_ite State.vault]

theorem vault_lockCheck : (t.lockCheck s).vault = s.vault := by
  have hdesc : (allRods.foldl (fun s n => s.descentCause n dcLOCK) s).vault = s.vault :=
    vault_foldl (fun t n => vault_descentCause) _
  unfold State.lockCheck
  exact vault_ite (vault_placeRun.trans hdesc) (vault_ite (vault_homeRoles.trans (vault_beadStart.trans vault_placeRun)) rfl)

@[simp] theorem vault_applyCommit : (s.applyCommit p).vault = s.vault := by
  have hput : ((s.pg p).pending.foldl (fun s e => { s with board := tabPut resetWord s.board e.1 e.2 }) s).vault = s.vault :=
    vault_foldl (fun t e => by exact vault_of rfl rfl rfl rfl rfl) _
  unfold State.applyCommit
  exact vault_ite (vault_ev.trans (vault_inc.trans (vault_setPg.trans hput))) rfl

@[simp] theorem vault_rodApplied : (s.rodApplied n).vault = s.vault :=
  vault_ite (vault_set.trans (vault_set.trans vault_set)) rfl

@[simp] theorem vault_loopApplied : (t.loopApplied s n).vault = s.vault := by
  unfold State.loopApplied
  extract_lets s1 p
  have h1 : s1.vault = s.vault := vault_foldl (fun u r => vault_ite (vault_foldl (fun _ _ => vault_setReg) _) rfl) _
  exact (vault_ite vault_set rfl).trans h1

theorem vault_applyStopped : s.applyStopped.vault = s.vault := by
  refine vault_foldl (fun t n => vault_ite rfl ?_) _
  extract_lets s1
  have h1 : s1.vault = t.vault := vault_ite (vault_rodApplied.trans vault_applyCommit) rfl
  exact (vault_ite (vault_loopApplied.trans vault_applyCommit) rfl).trans h1

/-! ## Links and outputs -/

@[simp] theorem vault_setLinkSt : (s.setLinkSt n p v).vault = s.vault := by
  simp -implicitDefEqProofs [State.setLinkSt, apply_ite State.vault]

@[simp] theorem vault_dieLinksOff : (s.dieLinksOff k).vault = s.vault :=
  vault_foldl (fun t n => vault_foldl (fun u p => vault_setLinkSt.trans vault_setLink) _) _

@[simp] theorem vault_dieOutsOff : (s.dieOutsOff k).vault = s.vault :=
  vault_foldl (fun t n => vault_setBrk.trans (vault_setDisch.trans (vault_setPrech.trans vault_setCont))) _

@[simp] theorem vault_setStepOut {x : StepOut} : (s.setStepOut n x).vault = s.vault :=
  vault_ite rfl (vault_send.trans vault_setStepper)

@[simp] theorem vault_setFabSt : (s.setFabSt n v).vault = s.vault := vault_ite rfl (vault_ev.trans vault_set)

@[simp] theorem vault_pump : s.pump.vault = s.vault := (routed_pump s).vault

@[simp] theorem vault_lagUpdate : s.lagUpdate.vault = s.vault := by
  simp -implicitDefEqProofs [State.lagUpdate, apply_ite State.vault]

@[simp] theorem vault_coordCheck : s.coordCheck.vault = s.vault := by
  simp -implicitDefEqProofs [State.coordCheck, apply_ite State.vault]

@[simp] theorem vault_unreach {q : Parcel} : (s.unreach q).vault = s.vault := (routed_unreach s q).vault

@[simp] theorem vault_rerouteEntry {e : FabEntry} : (s.rerouteEntry l e).1.vault = s.vault := by
  rw [State.rerouteEntry]
  have h : (s.routeVia e.p l false).1.vault = s.vault := (routed_routeVia rfl).vault
  split
  · rfl
  · dsimp only
    split
    · exact h
    · exact vault_unreach.trans h

@[simp] theorem vault_setSrc {xs : List FabEntry} : (s.setSrc n xs).vault = s.vault := (routed_setSrc s n xs).vault

@[simp] theorem vault_linkLost : (s.linkLost l).vault = s.vault := by
  unfold State.linkLost
  extract_lets x s1 s2 s3 s4
  have h1 : s1.vault = s.vault := vault_incF
  have h2 : s2.vault = s1.vault := vault_setFab
  have h3 : s3.vault = s2.vault := vault_set.trans vault_setReg
  have h4 : s4.vault = s3.vault := by
    refine vault_foldl (fun t q => ?_) _
    exact vault_ite vault_rerouteEntry (vault_setRouter.trans vault_rerouteEntry)
  refine Eq.trans (vault_foldl (fun t j => ?_) _) (h4.trans (h3.trans (h2.trans h1)))
  have moved (xs : List FabEntry) (a : State × List FabEntry) (ha : a.1.vault = t.vault) : (xs.foldl (fun a e =>
      if e.outs.contains l then ((a.1.rerouteEntry l e).1, a.2 ++ [(a.1.rerouteEntry l e).2]) else (a.1, a.2 ++ [e]))
      a).1.vault = t.vault :=
    keeps_foldl1 (P := fun u => u.vault = t.vault) ha fun a e h =>
      keeps_ite1 (P := fun u => u.vault = t.vault) (vault_rerouteEntry.trans h) h
  exact vault_ite (vault_setSrc.trans (moved _ _ rfl)) rfl

@[simp] theorem vault_linkDown : (s.linkDown l).vault = s.vault := by
  unfold State.linkDown
  refine vault_ite rfl ?_
  extract_lets up s1 s2 s3
  have h1 : s1.vault = s.vault := vault_setReg.trans vault_setFabSt
  have h2 : s2.vault = s1.vault := vault_setReg
  have h3 : s3.vault = s2.vault := vault_ite vault_ev rfl
  exact vault_pump.trans (vault_coordCheck.trans (vault_linkLost.trans (h3.trans (h2.trans h1))))

/-! ## Domains -/

theorem vault_clearPages {d : Dom} {g : Nat → Bool} : (s.clearPages d g).vault = s.vault := vault_of rfl rfl rfl rfl rfl

@[simp] theorem vault_clk : (s.clk f b).vault = s.vault := vault_ite rfl (vault_ev.trans vault_setB)

@[simp] theorem vault_pllLock : s.pllLock.vault = s.vault := by
  simp -implicitDefEqProofs [State.pllLock, apply_ite State.vault]

@[simp] theorem vault_degradeEnd : s.degradeEnd.vault = s.vault := by
  simp -implicitDefEqProofs [State.degradeEnd, apply_ite State.vault]

theorem vault_resetFd : (s.resetFd k b).vault = s.vault := by
  unfold State.resetFd
  extract_lets s1 s2 s3 s4
  have h1 : s1.vault = s.vault := vault_dieOutsOff
  have h2 : s2.vault = s1.vault := vault_foldl (fun t n => vault_setStepOut) _
  have h3 : s3.vault = s2.vault := vault_dieLinksOff
  have h4 : s4.vault = s3.vault := vault_clearPages
  refine Eq.trans ?_ (h4.trans (h3.trans (h2.trans h1)))
  exact vault_of rfl rfl rfl rfl rfl

theorem vault_resetFab : s.resetFab.vault = s.vault := by
  unfold State.resetFab
  extract_lets s1 s2
  have h1 : s1.vault = s.vault := vault_foldl (fun t l => vault_linkDown) _
  have h2 : s2.vault = s1.vault := vault_clearPages
  refine Eq.trans ?_ (h2.trans h1)
  exact vault_of rfl rfl rfl rfl rfl

theorem vault_toRun : s.toRun.vault = s.vault := by
  unfold State.toRun
  extract_lets s1 s2 s3
  have h1 : s1.vault = s.vault := vault_foldl (fun t d => vault_setDom) _
  have h2 : s2.vault = s1.vault := vault_ite rfl (vault_ev.trans vault_set)
  have h3 : s3.vault = s2.vault := vault_set.trans (vault_set.trans vault_set)
  exact vault_pllLock.trans (vault_setRest.trans (h3.trans (h2.trans h1)))

/-! ## The reset of the RD domain -/

theorem box_foldl {α : Type} {g : State → α → State} (h : ∀ t x, (g t x).box = t.box) (xs : List α) :
    (xs.foldl g s).box = s.box :=
  keeps_foldl (P := fun t => t.box = s.box) rfl fun t x ht => (h t x).trans ht

@[simp] theorem vault_endLease : (s.endLease p).vault = s.vault := by
  rw [State.endLease]
  split
  · rfl
  · exact vault_ev.trans vault_setPg

theorem vault_ownerLost {w : Writer} : (s.ownerLost w).vault = s.vault :=
  vault_foldl (fun t p => vault_ite vault_endLease rfl) _

theorem vault_tunSend {d top : Nat} {m : TunMsg} : (s.tunSend d top m).vault = s.vault := (routed_fabBytes s _ _ _).vault

theorem box_setSes {x : SessX} : (s.setSes n x).box = s.box := congrArg Prod.snd (show (s.setSes n x).vault = ((s.setSes n x).sess, s.box) from rfl)

theorem box_closeSess : (s.closeSess n v).box = s.box := by
  unfold State.closeSess
  extract_lets x s1 s2 s3
  have h1 : s1.box = s.box := box_setSes
  have h2 : s2.box = s1.box := box_of_vault (vault_ev.trans vault_ownerLost)
  have h3 : s3.box = s2.box := box_of_vault (vault_foldl (fun t c => vault_tunSend) _)
  refine keeps_ite (P := fun t => t.box = s.box) rfl ?_
  exact (box_of_vault (vault_ite vault_tunSend vault_send)).trans (h3.trans (h2.trans h1))

theorem box_closeAll : (s.closeAll v).box = s.box := box_foldl (fun t n => box_closeSess) _

/-- The boot's record over a reset of the RD domain. -/
def BootX.again (x : BootX) : BootX :=
  { due := true, low := x.low, testEn := x.testEn, spoiled := match x.op with
    | some o => if x.spoiled.contains (cfRegion o.2.1) then x.spoiled else x.spoiled ++ [cfRegion o.2.1]
    | none => x.spoiled }

theorem vault_safeRestart : s.safeRestart.vault = s.vault := vault_setSafe

theorem vault_beadsReset : (s.beadsReset n).vault = s.vault := by
  unfold State.beadsReset
  extract_lets f b
  refine vault_set.trans (Eq.trans ?_ vault_free)
  exact vault_of rfl rfl rfl rfl rfl

/-- The keys over a reset of the RD domain: the engine's command is lost. -/
def KeysX.idle (x : KeysX) : KeysX := { x with cmd := none }

theorem box_parts (h : t.box = s.box) : t.keys = s.keys ∧ t.boot = s.boot ∧ t.cf = s.cf ∧ t.pending = s.pending :=
  ⟨congrArg Prod.fst h, congrArg (fun x => x.2.1) h, congrArg (fun x => x.2.2.1) h, congrArg (fun x => x.2.2.2) h⟩

/-- The records that a reset of the RD domain clears. -/
def State.rdBlank (s : State) : State :=
  { s with
    beam := {}, gens := [], cells := [], modReps := [], tallies := [], cea := {}, eis := []
    sensors := [], crossings := [], sess := [], gate := {}, eths := [], recks := [], vsms := [], reckMem := []
    common := [], hwPosts := [], keys := s.keys.idle, proc := {}
    store := { s.store with round := none, again := false, wait := [], repl := [], parts := [], acks := [], nsOp := [0, 0] }
    bist := { fuses := s.bist.fuses, info := s.bist.info.filter (fun e => 0x44 ≤ e.1) }, boot := s.boot.again
    pairMem := [] }

theorem vault_rdBlank : s.rdBlank.vault = ([], s.keys.idle, s.boot.again, s.cf, s.pending) :=
  vault_eq rfl rfl rfl rfl rfl

theorem vault_resetRd : s.resetRd.vault = ([], s.keys.idle, s.boot.again, s.cf, s.pending) := by
  unfold State.resetRd
  extract_lets s0 boot dbg s1 s2 mon s3 s4 s5 keys store s6 s7 s8
  have h1 : s1.box = s.box := box_closeAll
  have h2 : s2.vault = s1.vault := by
    refine vault_foldl (fun t p => ?_) _
    split
    · split
      · rfl
      · exact vault_endLease
    · rfl
  have h3 : s3.vault = s2.vault := vault_clearPages
  have h4 : s4.vault = s3.vault := vault_foldl (fun t e => vault_setReg) _
  have h5 : s5.vault = s4.vault := vault_setReg
  have hbox : s5.box = s.box := Eq.trans (box_of_vault (h5.trans (h4.trans (h3.trans h2)))) h1
  obtain ⟨hk, hb, hc, hp⟩ := box_parts hbox
  have h6 : s6 = s5.rdBlank := rfl
  have h7 : s7.vault = s6.vault := vault_beadsReset.trans vault_safeRestart
  have h8 : s8.vault = s7.vault := vault_foldl (fun t k => vault_dieLinksOff) _
  rw [vault_applyStopped, vault_lockCheck, h8, h7, h6, vault_rdBlank, hk, hb, hc, hp]

/-! ## A reset of domains with the RD domain -/

variable {ds : List Dom} {cause : Nat}

/-- The domains reset, before the reset is recorded. -/
def State.domsReset (s : State) (ds : List Dom) : State :=
  let s := (List.range 4).foldl (fun (s : State) k => if ds.contains (.fd k) then s.resetFd k false else s) s
  let s := if ds.contains .rd then s.resetRd else s
  if ds.contains .fab then s.resetFab else s

/-- A reset is recorded. -/
def State.resetNoted (s : State) (ds : List Dom) (cause : Nat) : State :=
  let s := s.setReg pSYS SYS.RST_CAUSE (maskOf (ds.map Dom.idx) * 2 ^ 16 + cause)
  let s := s.incFW pSYS ⟨SYS.BOOT_CNT, 31, 16⟩
  let s := (s.setReg pSYS SYS.BOOT_STAT 0).degradeEnd
  s.evtPost (evtPayload s.aonCnt 1 (leBytes 4 (s.reg pSYS SYS.RST_CAUSE)))

theorem resetDoms_rd (h : ds.contains .rd = true) : s.resetDoms cause ds = (s.domsReset ds).resetNoted ds cause := by
  rw [State.resetDoms, State.domsReset]
  exact if_pos h

theorem vault_domsReset (h : ds.contains .rd = true) :
    (s.domsReset ds).vault = ([], s.keys.idle, s.boot.again, s.cf, s.pending) := by
  unfold State.domsReset
  extract_lets s1 s2
  have h1 : s1.vault = s.vault := vault_foldl (fun t k => vault_ite vault_resetFd rfl) _
  have h2 : s2 = s1.resetRd := if_pos h
  obtain ⟨hk, hb, hc, hp⟩ := box_parts (box_of_vault h1)
  refine (vault_ite vault_resetFab rfl).trans ?_
  rw [h2, vault_resetRd, hk, hb, hc, hp]

theorem vault_resetNoted : (s.resetNoted ds cause).vault = s.vault := by
  unfold State.resetNoted
  extract_lets s1 s2 s3
  have h1 : s1.vault = s.vault := vault_setReg
  have h2 : s2.vault = s1.vault := vault_incFW
  have h3 : s3.vault = s2.vault := vault_degradeEnd.trans vault_setReg
  exact vault_evtPost.trans (h3.trans (h2.trans h1))

theorem vault_resetDoms (h : ds.contains .rd = true) :
    (s.resetDoms cause ds).vault = ([], s.keys.idle, s.boot.again, s.cf, s.pending) := by
  rw [resetDoms_rd h, vault_resetNoted, vault_domsReset h]

end

end Sys2Proof.Machine

/-! PROOFS. Resets (spec/22, R535 to R537, R552, R590): domains, the device's state, the words a reset shows. -/

namespace Sys2Proof.Machine

open Host (Outcome)

section

variable {s t : State} {p o n v i : Nat} {f : Fld} {b : Bool} {d e : Dom} {x : DomSt} {ds : List Dom}

/-! ## Words that events leave alone -/

theorem word_ev_any (ho : o < 4096) (he : o ≠ PG.EV_STAT) {q : Nat} : (s.ev p i).word q o = s.word q o :=
  word_setWord_key fun h => he ((bkey_inj ho (show PG.EV_STAT < 4096 by decide)).mp h).2

theorem word_foldl_ev {q : Nat} (ho : o < 4096) (he : o ≠ PG.EV_STAT) (l : List Nat) :
    (l.foldl (fun s p => s.ev p i) s).word q o = s.word q o :=
  keeps_foldl (P := fun t => t.word q o = s.word q o) rfl fun _ _ h => (word_ev_any ho he).trans h

theorem word_setDom (ho : o < 4096) (he : o ≠ PG.EV_STAT) : (s.setDom d x).word p o = s.word p o :=
  keeps_ite (P := fun t => t.word p o = s.word p o) rfl (word_foldl_ev ho he _)

theorem word_foldl_setDom (ho : o < 4096) (he : o ≠ PG.EV_STAT) (ds : List Dom) :
    (ds.foldl (fun s d => s.setDom d x) s).word p o = s.word p o :=
  keeps_foldl (P := fun t => t.word p o = s.word p o) rfl fun _ _ h => (word_setDom ho he).trans h

theorem word_setRest {y : RestX} : (s.setRest y).word p o = s.word p o := rfl

theorem word_clk (hp : p ≠ pCLK) (ho : o < 4096) (hf : f.off < 4096) : (s.clk f b).word p o = s.word p o :=
  keeps_ite (P := fun t => t.word p o = s.word p o) rfl
    ((word_setWord_page hp ho (by decide)).trans (word_setWord_page hp ho hf))

theorem word_pllLock (hp : p ≠ pCLK) (ho : o < 4096) : s.pllLock.word p o = s.word p o := by
  have hclk : ∀ (u : State) (f : Fld) (b : Bool), f.off < 4096 → (u.clk f b).word p o = u.word p o :=
    fun u f b hf => word_clk hp ho hf
  unfold State.pllLock
  extract_lets s1
  have h1 : s1.word p o = s.word p o := hclk _ _ _ (by decide)
  refine keeps_ite (P := fun t => t.word p o = s.word p o) (keeps_ite (P := fun t => t.word p o = s.word p o) h1 ?_) rfl
  exact (hclk _ _ _ (by decide)).trans ((hclk _ _ _ (by decide)).trans ((hclk _ _ _ (by decide)).trans h1))

/-- The device shows RUN. -/
def State.showRun (s : State) : State :=
  let s := if s.dev = dvRUN then s else (s.set pREST REST.STAT_STATE dvRUN).ev pREST (blk 0)
  ((s.set pREST REST.STAT_PENDING 0).set pREST REST.STAT_ENTERING 0).set pREST REST.STAT_WAKING 0

theorem toRun_eq : s.toRun = ((domsDevice.foldl (fun s d => s.setDom d .active) s).showRun.setRest {}).pllLock := rfl

theorem word_showRun (hp : p ≠ pREST) (ho : o < 4096) : s.showRun.word p o = s.word p o := by
  have hset : ∀ (u : State) (f : Fld) (x : Nat), f.off < 4096 → (u.set pREST f x).word p o = u.word p o :=
    fun u f x hf => word_setWord_page hp ho hf
  unfold State.showRun
  extract_lets s1
  have h1 : s1.word p o = s.word p o := keeps_ite (P := fun t => t.word p o = s.word p o) rfl
    ((word_setWord_page hp ho (by decide)).trans (hset _ _ _ (by decide)))
  exact (hset _ _ _ (by decide)).trans ((hset _ _ _ (by decide)).trans ((hset _ _ _ (by decide)).trans h1))

theorem word_toRun (hp : p ≠ pREST) (hc : p ≠ pCLK) (ho : o < 4096) (he : o ≠ PG.EV_STAT) :
    s.toRun.word p o = s.word p o := by
  rw [toRun_eq, word_pllLock hc ho, word_setRest, word_showRun hp ho, word_foldl_setDom ho he]

theorem dev_showRun : s.showRun.dev = dvRUN := by
  have hset : ∀ (u : State) (f : Fld) (x : Nat), f.off = REST.STAT → f.lo ≤ f.hi → f.hi < 32 →
      ((REST.STAT_STATE).hi < f.lo ∨ f.hi < (REST.STAT_STATE).lo) → (u.set pREST f x).dev = u.dev :=
    fun u f x hf hl h32 hd => get_set_bits (f := f) (g := REST.STAT_STATE) hf.symm hl h32 (by decide) hd
  unfold State.showRun
  extract_lets s1
  have h1 : s1.dev = dvRUN := by
    by_cases h : s.dev = dvRUN
    · rw [show s1 = s from if_pos h, h]
    · rw [show s1 = (s.set pREST REST.STAT_STATE dvRUN).ev pREST (blk 0) from if_neg h, State.dev, get_ev (by decide),
        get_set_same (by decide) (by decide)]
      rfl
  rw [hset _ _ _ rfl (by decide) (by decide) (by decide), hset _ _ _ rfl (by decide) (by decide) (by decide),
    hset _ _ _ rfl (by decide) (by decide) (by decide), h1]

theorem dev_eq_of_word (h : t.word pREST REST.STAT = s.word pREST REST.STAT) : t.dev = s.dev := by
  rw [State.dev, State.dev, State.get, State.get]
  exact congrArg (fun w => REST.STAT_STATE.read w) h

theorem dev_toRun : s.toRun.dev = dvRUN := by
  rw [toRun_eq, dev_eq_of_word (word_pllLock (by decide) (by decide)), dev_eq_of_word word_setRest, dev_showRun]

/-! ## Domains -/

theorem boot_of_vault (h : t.vault = s.vault) : t.boot = s.boot := congrArg (fun x => x.2.2.1) h

theorem dom_eq_of_doms (h : t.doms = s.doms) : t.dom d = s.dom d := by
  rw [State.dom, State.dom, h]

theorem dom_setDom_active (ht : s.boot.testEn = false) (h : d = e ∨ s.dom d = .active) :
    (s.setDom e .active).dom d = .active := by
  unfold State.setDom
  split
  case isTrue hc =>
    refine h.elim (fun h => ?_) id
    rw [h]
    exact hc.resolve_right fun hr => Bool.false_ne_true (ht ▸ hr.2.1)
  case isFalse =>
    rw [dom_foldl_ev]
    simp only [State.dom, tabGet_put]
    split
    · rfl
    next hi => exact h.resolve_left fun h => hi (congrArg Dom.idx h)

theorem dom_setDom_other (h : d.idx ≠ e.idx) : (s.setDom e x).dom d = s.dom d := by
  unfold State.setDom
  split
  · rfl
  · rw [dom_foldl_ev]
    exact tabGet_put_other h

theorem dom_foldl_setDom_active (ht : s.boot.testEn = false) (h : d ∈ ds ∨ s.dom d = .active) :
    (ds.foldl (fun s e => s.setDom e .active) s).dom d = .active := by
  induction ds generalizing s with
  | nil => exact h.resolve_left List.not_mem_nil
  | cons e ds ih =>
    have hb : (s.setDom e .active).boot.testEn = false := by rw [boot_of_vault vault_setDom, ht]
    refine ih hb ?_
    rcases h with h | h
    · rcases List.mem_cons.mp h with h | h
      · exact .inr (dom_setDom_active ht (.inl h))
      · exact .inl h
    · exact .inr (dom_setDom_active ht (.inr h))

theorem doms_clk : (s.clk f b).doms = s.doms := by
  rw [State.clk]
  exact keeps_ite (P := fun t => t.doms = s.doms) rfl (State.ev_doms.trans State.setB_doms)

theorem doms_pllLock : s.pllLock.doms = s.doms := by
  unfold State.pllLock
  extract_lets s1
  have h1 : s1.doms = s.doms := doms_clk
  exact keeps_ite (P := fun t => t.doms = s.doms) (keeps_ite (P := fun t => t.doms = s.doms) h1
    (doms_clk.trans (doms_clk.trans (doms_clk.trans h1)))) rfl

theorem doms_showRun : s.showRun.doms = s.doms := by
  unfold State.showRun
  extract_lets s1
  have h1 : s1.doms = s.doms := keeps_ite (P := fun t => t.doms = s.doms) rfl (State.ev_doms.trans State.set_doms)
  exact State.set_doms.trans (State.set_doms.trans (State.set_doms.trans h1))

theorem dom_toRun (ht : s.boot.testEn = false) (h : d ∈ domsDevice) : s.toRun.dom d = .active := by
  rw [toRun_eq, dom_eq_of_doms doms_pllLock, dom_eq_of_doms (State.setRest_doms), dom_eq_of_doms doms_showRun,
    dom_foldl_setDom_active ht (.inl h)]

/-! ## What a recorded reset shows -/

theorem reg_eq_of_word (h : t.word p o = s.word p o) : t.reg p o = s.reg p o := congrArg BitVec.toNat h

theorem word_degradeEnd (hp : p ≠ pREST) (hc : p ≠ pCLK) (ho : o < 4096) : s.degradeEnd.word p o = s.word p o :=
  keeps_ite (P := fun t => t.word p o = s.word p o)
    ((word_pllLock hc ho).trans (word_setWord_page hp ho (by decide))) rfl

theorem reg_evtPost {l : List Nat} : (s.evtPost l).reg p o = s.reg p o := rfl

theorem reg_incFW_off (h : o ≠ f.off) : (s.incFW p f n).reg p o = s.reg p o := reg_set_off h

theorem cause_resetNoted {cause : Nat} : (s.resetNoted ds cause).reg pSYS SYS.RST_CAUSE =
    (maskOf (ds.map Dom.idx) * 2 ^ 16 + cause) % 2 ^ 32 := by
  unfold State.resetNoted
  extract_lets s1 s2 s3
  have h1 : s1.reg pSYS SYS.RST_CAUSE = (maskOf (ds.map Dom.idx) * 2 ^ 16 + cause) % 2 ^ 32 := reg_setReg_same
  have h2 : s2.reg pSYS SYS.RST_CAUSE = s1.reg pSYS SYS.RST_CAUSE := reg_incFW_off (by decide)
  have h3 : s3.reg pSYS SYS.RST_CAUSE = s2.reg pSYS SYS.RST_CAUSE :=
    (reg_eq_of_word (word_degradeEnd (by decide) (by decide) (by decide))).trans (reg_setReg_off (by decide))
  rw [reg_evtPost, h3, h2, h1]

theorem cause_domsDevice {cause : Nat} (h : cause < 2 ^ 16) :
    (s.resetDoms cause domsDevice).reg pSYS SYS.RST_CAUSE = 254 * 2 ^ 16 + cause := by
  rw [resetDoms_rd rfl, cause_resetNoted, show maskOf (domsDevice.map Dom.idx) = 254 from rfl]
  omega

/-! ## PROF_SEL and TEST_EN -/

theorem pin_profSel : (s.profSel n).get pSYS SYS.PIN_PROF_SEL = n % 4 := by
  rw [State.profSel, get_set_page (by decide) (by decide) (by decide), get_set_same (by decide) (by decide)]
  rfl

theorem next_profSel : (s.profSel n).get pPROF ⟨PROF.NEXT, 1, 0⟩ = n % 4 := by
  rw [State.profSel, get_set_same (by decide) (by decide)]
  rfl

theorem word_profSel (h : o ≠ SYS.PIN) (hp : p ≠ pPROF) (ho : o < 4096) : (s.profSel n).word p o = s.word p o := by
  rw [State.profSel, State.set, word_setWord_page hp ho (by decide)]
  exact word_setWord_key fun e => h ((bkey_inj ho (by decide)).mp e).2

theorem doms_profSel : (s.profSel n).doms = s.doms := rfl

theorem vault_profSel : (s.profSel n).vault = s.vault := vault_set.trans vault_set

/-- TEST_EN is read. -/
def State.testRead (s : State) (b : Bool) : State := s.setBoot { s.boot with testEn := b }

theorem word_testHold (ho : o < 4096) (he : o ≠ PG.EV_STAT) : (s.testHold b).word p o = s.word p o :=
  keeps_ite (P := fun t => t.word p o = s.word p o) ((word_setDom ho he).trans rfl) rfl

theorem vault_testHold : (s.testHold b).vault = (s.testRead b).vault :=
  keeps_ite (P := fun t => t.vault = (s.testRead b).vault) vault_setDom rfl

theorem rd_testHold : (s.testHold b).dom .rd = if b then .resting else s.dom .rd := by
  cases b
  · rfl
  · exact dom_setDom_resting

theorem dom_testHold (h : d.idx ≠ 2) : (s.testHold b).dom d = s.dom d :=
  keeps_ite (P := fun t => t.dom d = s.dom d) (dom_setDom_other h) rfl

theorem get_eq_of_word (h : t.word p f.off = s.word p f.off) : t.get p f = s.get p f := congrArg f.read h

/-! ## RESET_L -/

theorem vault_parts {xs : List (Nat × SessX)} {ks : KeysX} {x : BootX} {fl : List (Nat × Byte)} {q : List Instr}
    (h : s.vault = (xs, ks, x, fl, q)) : s.keys = ks ∧ s.boot = x ∧ s.cf = fl ∧ s.pending = q := by
  injection congrArg Prod.snd h with h1 h2
  injection h2 with h2 h3
  injection h3 with h3 h4
  exact ⟨h1, h2, h3, h4⟩

theorem vault_testRead {xs : List (Nat × SessX)} {ks : KeysX} {x : BootX} {fl : List (Nat × Byte)} {q : List Instr}
    (h : s.vault = (xs, ks, x, fl, q)) : (s.testRead b).vault = (xs, ks, { x with testEn := b }, fl, q) := by
  obtain ⟨hk, hb, hc, hp⟩ := vault_parts h
  exact vault_eq (congrArg Prod.fst h) hk (congrArg (fun x => ({ x with testEn := b } : BootX)) hb) hc hp

/-- The device reset by RESET_L, before TEST_EN is read. -/
def State.pinReset (s : State) (n : Nat) : State :=
  (((s.testRead false).resetDoms 2 domsDevice).toRun).profSel n

theorem exec_resetPin {sel : Fin 4} : exec (.resetPin sel b) s = .next ((s.pinReset sel).testHold b) := rfl

theorem vault_pinReset : (s.pinReset n).vault =
    ([], s.keys.idle, { s.boot.again with testEn := false }, s.cf, s.pending) := by
  rw [State.pinReset, vault_profSel, vault_toRun, vault_resetDoms rfl]
  rfl

theorem boot_resetDoms {cause : Nat} (h : ds.contains .rd = true) : (s.resetDoms cause ds).boot = s.boot.again :=
  congrArg (fun x => x.2.2.1) (vault_resetDoms (cause := cause) h)

theorem vault_resetPin : ((s.pinReset n).testHold b).vault =
    ([], s.keys.idle, { s.boot.again with testEn := b }, s.cf, s.pending) := by
  rw [vault_testHold, vault_testRead vault_pinReset]

theorem dom_pinReset (h : d ∈ domsDevice) : (s.pinReset n).dom d = .active := by
  rw [State.pinReset, dom_eq_of_doms doms_profSel]
  refine dom_toRun ?_ h
  rw [boot_resetDoms rfl]
  rfl

theorem cause_pinReset : (s.pinReset n).reg pSYS SYS.RST_CAUSE = 254 * 2 ^ 16 + 2 := by
  rw [State.pinReset, reg_eq_of_word (word_profSel (by decide) (by decide) (by decide)),
    reg_eq_of_word (word_toRun (by decide) (by decide) (by decide) (by decide)), cause_domsDevice (by decide)]

theorem dev_pinReset : (s.pinReset n).dev = dvRUN := by
  rw [State.pinReset, dev_eq_of_word (word_profSel (by decide) (by decide) (by decide)), dev_toRun]

theorem idx_ne_rd (h : d ∈ domsDevice) (hd : d ≠ .rd) : d.idx ≠ 2 := by
  revert d
  decide

end

end Sys2Proof.Machine

/-! PROOFS. O58, resets: power on, by command, and the selection of a profile (spec/22, R535, R552, R590). -/

namespace Sys2Proof.Machine

open Host (Outcome)

section

variable {s t : State} {p o n v i a b boot : Nat} {f : Fld} {d : Dom}

/-! ## Power on -/

/-- What flash, fuses, drives and key store keep; everything else as at reset. -/
def State.powerBlank (s : State) : State :=
  { State.reset with
    cf := s.cf, keys := { s.keys with cmd := none }
    store := { s.store with round := none, again := false, wait := [], repl := [], parts := [], acks := [], nsOp := [0, 0] }
    bist := { fuses := s.bist.fuses }, out := s.out, freeCtr := s.free.2.freeCtr, pending := s.pending
    boot := { spoiled := match s.boot.op with
      | some o => s.boot.spoiled ++ [cfRegion o.2.1]
      | none => s.boot.spoiled } }

/-- The words that survive a loss of power. -/
def State.powerWords (s n : State) : State :=
  let n := ((n.setWord pLIFE LIFE.STATE (s.word pLIFE LIFE.STATE)).setReg64 pLIFE LIFE.SERIAL_LO
    (s.reg64 pLIFE LIFE.SERIAL_LO)).setReg64 pLIFE LIFE.MAC_LO (s.reg64 pLIFE LIFE.MAC_LO)
  (n.setWord pSYS SYS.EVT_HEAD (s.word pSYS SYS.EVT_HEAD)).setWord pSYS SYS.EVT_OFS (s.word pSYS SYS.EVT_OFS)

/-- The cause of the reset, the profile and the supplies are shown. -/
def State.powerShown (s : State) (sel a b : Nat) : State :=
  let s := s.setReg pSYS SYS.RST_CAUSE (255 * 2 ^ 16 + 1)
  let s := (s.incFW pSYS ⟨SYS.BOOT_CNT, 31, 16⟩).profSel sel
  let s := (s.setReg pSUP SUP.VAUX a).setReg pSUP SUP.VBAK b
  (s.setB pSUP SUP.STAT_VAUX_OK (decide (1900 ≤ a))).set pSUP SUP.STAT_PATH (if decide (1900 ≤ a) then ppAUX else ppBAK)

/-- Power is on, before the event entry of the reset. -/
def State.powered (s : State) (sel a b : Nat) : State :=
  ((s.powerWords s.powerBlank).beadsReset (s.get pBEADS BEADS.DEV_STAT_BOOT)).powerShown sel a b

theorem powerOn_eq {sel : Nat} : s.powerOn sel a b = (s.powered sel a b).evtPost
    (evtPayload 0 1 (leBytes 4 ((s.powered sel a b).reg pSYS SYS.RST_CAUSE))) := by
  unfold State.powerOn
  extract_lets f z boot life ser mac head ofs spoiled ks st n0 n1 n2 n3 n4 n5 n6 ok n7
  have h0 : n0 = s.powerBlank := rfl
  have h2 : n2 = s.powerWords s.powerBlank := by rw [← h0]; rfl
  have h3 : n3 = (s.powerWords s.powerBlank).beadsReset (s.get pBEADS BEADS.DEV_STAT_BOOT) := by rw [← h2]
  have h7 : n7 = s.powered sel a b := by rw [State.powered, ← h3]; rfl
  rw [h7]

/-- The words that `powerShown` writes. -/
def powerKeys : List (Nat × Nat) :=
  [(pSYS, SYS.RST_CAUSE), (pSYS, SYS.BOOT_CNT), (pSYS, SYS.PIN), (pPROF, PROF.NEXT), (pSUP, SUP.VAUX), (pSUP, SUP.VBAK),
    (pSUP, SUP.STAT)]

theorem word_powerShown {sel : Nat} (h : ∀ k ∈ powerKeys, bkey p o ≠ bkey k.1 k.2) :
    (s.powerShown sel a b).word p o = s.word p o := by
  have hset : ∀ (u : State) (k : Nat × Nat) (w : Word), k ∈ powerKeys → (u.setWord k.1 k.2 w).word p o = u.word p o :=
    fun u k w hk => word_setWord_key (h k hk)
  unfold State.powerShown
  extract_lets s1 s2 s3
  have h1 : s1.word p o = s.word p o := hset s (pSYS, SYS.RST_CAUSE) _ (by decide)
  have h2 : s2.word p o = s1.word p o := (hset _ (pPROF, PROF.NEXT) _ (by decide)).trans
    ((hset _ (pSYS, SYS.PIN) _ (by decide)).trans (hset _ (pSYS, SYS.BOOT_CNT) _ (by decide)))
  have h3 : s3.word p o = s2.word p o :=
    (hset _ (pSUP, SUP.VBAK) _ (by decide)).trans (hset _ (pSUP, SUP.VAUX) _ (by decide))
  refine Eq.trans ?_ (h3.trans (h2.trans h1))
  exact (hset _ (pSUP, SUP.STAT) _ (by decide)).trans (hset _ (pSUP, SUP.STAT) _ (by decide))

theorem word_beadsReset (hp : p ≠ pBEADS) (ho : o < 4096) : (s.beadsReset n).word p o = s.word p o := by
  rw [State.beadsReset, State.set, word_setWord_page hp ho (by decide)]
  rfl

theorem life_powered {sel : Nat} : (s.powered sel a b).word pLIFE LIFE.STATE = s.word pLIFE LIFE.STATE := by
  rw [State.powered, word_powerShown (by decide), word_beadsReset (by decide) (by decide), State.powerWords,
    word_setWord_page (by decide) (by decide) (by decide), word_setWord_page (by decide) (by decide) (by decide),
    State.setReg64, word_setReg_off (by decide), word_setReg_off (by decide), State.setReg64, word_setReg_off (by decide),
    word_setReg_off (by decide), word_setWord_same]

theorem head_powered {sel : Nat} : (s.powered sel a b).word pSYS SYS.EVT_HEAD = s.word pSYS SYS.EVT_HEAD := by
  rw [State.powered, word_powerShown (by decide), word_beadsReset (by decide) (by decide), State.powerWords,
    word_setWord_off (by decide), word_setWord_same]

theorem cause_powerShown {sel : Nat} : (s.powerShown sel a b).reg pSYS SYS.RST_CAUSE = 255 * 2 ^ 16 + 1 := by
  unfold State.powerShown
  extract_lets s1 s2 s3
  have h1 : s1.reg pSYS SYS.RST_CAUSE = 255 * 2 ^ 16 + 1 := reg_setReg_same
  have h2 : s2.reg pSYS SYS.RST_CAUSE = s1.reg pSYS SYS.RST_CAUSE :=
    (reg_eq_of_word (word_profSel (by decide) (by decide) (by decide))).trans (reg_incFW_off (by decide))
  have h3 : s3.reg pSYS SYS.RST_CAUSE = s2.reg pSYS SYS.RST_CAUSE :=
    (reg_setReg_page (by decide) (by decide) (by decide)).trans (reg_setReg_page (by decide) (by decide) (by decide))
  rw [reg_set_page (by decide) (by decide) (by decide), State.setB, reg_set_page (by decide) (by decide) (by decide), h3,
    h2, h1]

theorem pin_powerShown {sel : Nat} : (s.powerShown sel a b).get pSYS SYS.PIN_PROF_SEL = sel % 4 := by
  unfold State.powerShown
  extract_lets s1 s2 s3
  have h2 : s2.get pSYS SYS.PIN_PROF_SEL = sel % 4 := pin_profSel
  have h3 : s3.get pSYS SYS.PIN_PROF_SEL = s2.get pSYS SYS.PIN_PROF_SEL :=
    (get_setReg_page (by decide) (by decide) (by decide)).trans (get_setReg_page (by decide) (by decide) (by decide))
  rw [get_set_page (by decide) (by decide) (by decide), State.setB, get_set_page (by decide) (by decide) (by decide), h3, h2]

theorem vaux_powerShown {sel : Nat} : (s.powerShown sel a b).reg pSUP SUP.VAUX = a % 2 ^ 32 := by
  rw [State.powerShown, reg_set_off (by decide), reg_setB_off (by decide), reg_setReg_off (by decide), reg_setReg_same]

theorem vbak_powerShown {sel : Nat} : (s.powerShown sel a b).reg pSUP SUP.VBAK = b % 2 ^ 32 := by
  rw [State.powerShown, reg_set_off (by decide), reg_setB_off (by decide), reg_setReg_same]

theorem path_powerShown {sel : Nat} : (s.powerShown sel a b).path = if 1900 ≤ a then ppAUX else ppBAK := by
  rw [State.path, State.powerShown, get_set_same (by decide) (by decide)]
  by_cases h : 1900 ≤ a
  · rw [if_pos h, if_pos (decide_eq_true h)]
    rfl
  · rw [if_neg h, if_neg (by rw [decide_eq_false h]; exact Bool.false_ne_true)]
    rfl

theorem path_eq_of_word (h : t.word pSUP SUP.STAT = s.word pSUP SUP.STAT) : t.path = s.path :=
  get_eq_of_word (f := SUP.STAT_PATH) h

/-- Rods and LPDDR5 beside the domains. -/
def State.body (s : State) : List (Nat × RodX) × List (Nat × Byte) × List (Nat × DomSt) := (s.rods, s.mem, s.doms)

theorem body_parts {x : List (Nat × RodX)} {y : List (Nat × Byte)} {z : List (Nat × DomSt)} (h : s.body = (x, y, z)) :
    s.rods = x ∧ s.mem = y ∧ s.doms = z := by
  injection h with h1 h2
  injection h2 with h2 h3
  exact ⟨h1, h2, h3⟩

theorem body_setWord {w : Word} : (s.setWord p o w).body = s.body := rfl

theorem body_setReg : (s.setReg p o v).body = s.body := body_setWord

theorem body_set : (s.set p f v).body = s.body := body_setWord

theorem body_setReg64 : (s.setReg64 p o v).body = s.body := body_setReg.trans body_setReg

theorem body_evtPost {l : List Nat} : (s.evtPost l).body = s.body := rfl

theorem word_evtPost {l : List Nat} : (s.evtPost l).word p o = s.word p o := rfl

theorem body_powerWords : (s.powerWords t).body = t.body :=
  body_setWord.trans (body_setWord.trans (body_setReg64.trans (body_setReg64.trans body_setWord)))

theorem body_setDom {x : DomSt} : (s.setDom d x).rods = s.rods ∧ (s.setDom d x).mem = s.mem :=
  keeps_ite (P := fun t => t.rods = s.rods ∧ t.mem = s.mem) ⟨rfl, rfl⟩
    (keeps_foldl (P := fun t => t.rods = s.rods ∧ t.mem = s.mem) ⟨rfl, rfl⟩ fun _ _ h => h)

theorem body_beadsReset : (s.beadsReset n).body = s.body := by
  rw [State.beadsReset, body_set]
  rfl

theorem body_powerShown {sel : Nat} : (s.powerShown sel a b).body = s.body := by
  unfold State.powerShown
  extract_lets s1 s2 s3
  have h2 : s2.body = s1.body := body_set.trans (body_set.trans body_set)
  have h3 : s3.body = s2.body := body_setReg.trans body_setReg
  exact body_set.trans (body_set.trans (h3.trans (h2.trans body_setReg)))

theorem body_powered {sel : Nat} : (s.powered sel a b).body = ([], [], []) := by
  rw [State.powered, body_powerShown, body_beadsReset, body_powerWords]
  rfl

theorem vault_powerWords : (s.powerWords t).vault = t.vault := by
  simp -implicitDefEqProofs [State.powerWords, State.setReg64]

theorem vault_powerShown {sel : Nat} : (s.powerShown sel a b).vault = s.vault := by
  unfold State.powerShown
  extract_lets s1 s2 s3
  have h2 : s2.vault = s1.vault := vault_profSel.trans vault_incFW
  have h3 : s3.vault = s2.vault := vault_setReg.trans vault_setReg
  exact vault_set.trans (vault_setB.trans (h3.trans (h2.trans vault_setReg)))

/-- The boot's record when power comes: an operation of the flash engine has left its region unknown. -/
def BootX.powered (x : BootX) : BootX :=
  { spoiled := match x.op with
    | some o => x.spoiled ++ [cfRegion o.2.1]
    | none => x.spoiled }

theorem vault_powered {sel : Nat} : (s.powered sel a b).vault = ([], s.keys.idle, s.boot.powered, s.cf, s.pending) := by
  rw [State.powered, vault_powerShown, vault_beadsReset, vault_powerWords]
  rfl

theorem vault_powerOn {sel : Nat} {high : Bool} : ((s.powerOn sel a b).testHold high).vault =
    ([], s.keys.idle, { s.boot.powered with testEn := high }, s.cf, s.pending) := by
  have h : (s.powerOn sel a b).vault = ([], s.keys.idle, s.boot.powered, s.cf, s.pending) := by
    rw [powerOn_eq, vault_evtPost, vault_powered]
  rw [vault_testHold, vault_testRead h]

theorem exec_powerOnReset {sel : Fin 4} {va vb : Fin 65536} {high : Bool} :
    exec (.powerOnReset sel va vb high) s = .next ((s.powerOn sel va vb).testHold high) := rfl

theorem body_testHold {high : Bool} : (s.testHold high).rods = s.rods ∧ (s.testHold high).mem = s.mem :=
  keeps_ite (P := fun t => t.rods = s.rods ∧ t.mem = s.mem) body_setDom ⟨rfl, rfl⟩

/-! ## By command -/

theorem rstCmd_key {k x : Nat} (h : k ≠ 0xB007) (hx : x < 16) : s.rstCmd (k * 2 ^ 16 + x) = s.err pSYS 16 := by
  rw [State.rstCmd]
  exact if_pos (by omega)

theorem rstCmd_scope {x : Nat} (hx : x < 16) : s.rstCmd (0xB007 * 2 ^ 16 + x) =
    if x = 1 then (s.resetDoms 4 domsDevice).toRun
    else if x = 2 then s.resetDoms 4 domsRd
    else if 4 ≤ x ∧ x ≤ 7 then s.resetDoms 4 [.fd (x - 4)]
    else s := by
  rw [State.rstCmd, if_neg (by omega), show (0xB007 * 2 ^ 16 + x) % 16 = x by omega]

theorem exec_softwareReset {w : Writer} {key : Fin 65536} {scope : Fin 16} (hw : s.mayAct w pSYS)
    (h : s.rstCmd (key.val * 2 ^ 16 + scope.val) = t) : exec (.softwareReset w key scope) s = .next (t.answer w .ok) :=
  congrArg Outcome.next (finish_action (f := fun s => (s.rstCmd (key.val * 2 ^ 16 + scope.val), .ok)) hw
    (congrArg (fun t => (t, Code.ok)) h))

/-! ## The profile -/

theorem exec_profileSelect {w : Writer} {sel : Fin 4} {c : Code} (hw : s.mayAct w pPROF)
    (h : s.selCmd (2 ^ 31 + sel.val) = (t, c)) :
    exec (.profileSelect w sel) s = .next ((t.countRefused w pPROF c).answer w c) :=
  congrArg Outcome.next (finish_action_code (f := fun s => s.selCmd (2 ^ 31 + sel.val)) hw
    (ownerPage_of_type (y := .prof) (by decide)) h)

theorem selCmd_go {n : Nat} (hn : n < 4) : s.selCmd (2 ^ 31 + n) =
    if s.dev ≠ dvQUIET ∨ s.flag pREST REST.STAT_WAKING then refuse s pPROF 16 .writeRefused
    else ((((s.setReg pPROF PROF.SEL_CMD n).set pPROF ⟨PROF.NEXT, 1, 0⟩ n).resetDoms 5 domsProfile).toRun, .ok) := by
  have h31 : (2 ^ 31 + n).testBit 31 = true := by
    rw [Nat.testBit_two_pow_add_eq, Nat.testBit_lt_two_pow (by omega)]
    rfl
  rw [State.selCmd, show (2 ^ 31 + n) % 4 = n by omega, h31]
  exact if_neg (by decide)

end

theorem resets : Claims.Resets := by
  intro w sel a b high s
  refine ⟨?_, ?_, ?_, ?_, ?_⟩
  · obtain ⟨hk, hb, hc, hp⟩ := vault_parts (vault_resetPin (s := s) (n := sel) (b := high))
    refine ⟨_, exec_resetPin, ?_, ?_, ?_, ?_, ?_, ?_, ?_, ?_, congrArg Prod.fst vault_resetPin, ?_, hc, hp⟩
    · rw [get_eq_of_word (word_testHold (by decide) (by decide)), State.pinReset, pin_profSel, Nat.mod_eq_of_lt sel.isLt]
    · rw [get_eq_of_word (word_testHold (by decide) (by decide)), State.pinReset, next_profSel, Nat.mod_eq_of_lt sel.isLt]
    · rw [reg_eq_of_word (word_testHold (by decide) (by decide)), cause_pinReset]
    · rw [dev_eq_of_word (word_testHold (by decide) (by decide)), dev_pinReset]
    · rw [hb]
      rfl
    · rw [hb]
    · rw [rd_testHold, dom_pinReset (by decide)]
    · intro d hd hn
      rw [dom_testHold (idx_ne_rd hd hn), dom_pinReset hd]
    · rw [hk]
      rfl
  · obtain ⟨hk, hb, hc, hp⟩ := vault_parts (vault_powerOn (s := s) (sel := sel) (a := a) (b := b) (high := high))
    obtain ⟨hrods, hmem⟩ := body_testHold (s := s.powerOn sel a b) (high := high)
    obtain ⟨hrods', hmem', hdoms⟩ : (s.powerOn sel a b).rods = [] ∧ (s.powerOn sel a b).mem = [] ∧
        (s.powerOn sel a b).doms = [] := body_parts (by rw [powerOn_eq, body_evtPost, body_powered])
    have hword : ∀ p o, o < 4096 → o ≠ PG.EV_STAT →
        ((s.powerOn sel a b).testHold high).word p o = (s.powered sel a b).word p o := fun p o ho he => by
      rw [word_testHold ho he, powerOn_eq, word_evtPost]
    refine ⟨_, exec_powerOnReset, hc, ?_, hmem.trans hmem', hrods.trans hrods', congrArg Prod.fst vault_powerOn, hp, ?_, ?_, ?_, ?_, ?_, ?_, ?_, ?_, ?_, ?_⟩
    · rw [hk]
      rfl
    · rw [hword _ _ (by decide) (by decide), life_powered]
    · rw [hword _ _ (by decide) (by decide), head_powered]
    · rw [reg_eq_of_word (hword _ _ (by decide) (by decide)), State.powered, cause_powerShown]
    · rw [reg_eq_of_word (hword _ _ (by decide) (by decide)), State.powered, vaux_powerShown]
      omega
    · rw [reg_eq_of_word (hword _ _ (by decide) (by decide)), State.powered, vbak_powerShown]
      omega
    · rw [path_eq_of_word (hword _ _ (by decide) (by decide)), State.powered, path_powerShown]
    · rw [get_eq_of_word (hword _ _ (by decide) (by decide)), State.powered, pin_powerShown, Nat.mod_eq_of_lt sel.isLt]
    · rw [hb]
      rfl
    · rw [hb]
    · rw [rd_testHold, State.dom, hdoms]
      rfl
  · exact fun v ht hv => if_pos (.inr ⟨rfl, ht, hv⟩)
  · refine fun hw scope => ⟨fun key h => exec_softwareReset hw (rstCmd_key h scope.isLt), fun h => ?_, fun h => ?_,
      fun h h' => ?_, fun h => ?_⟩
    all_goals refine exec_softwareReset hw ((rstCmd_scope scope.isLt).trans ?_)
    · exact if_pos h
    · rw [if_neg (by omega), if_pos h]
    · rw [if_neg (by omega), if_neg (by omega), if_pos ⟨h, h'⟩]
    · rw [if_neg (by omega), if_neg (by omega), if_neg (by omega)]
  · refine fun hw => ⟨fun h => ?_, fun hd hf => ?_⟩
    · exact exec_profileSelect hw ((selCmd_go sel.isLt).trans (if_pos h))
    · refine congrArg Outcome.next (finish_action (f := fun s => s.selCmd (2 ^ 31 + sel.val)) hw
        ((selCmd_go sel.isLt).trans (if_neg ?_)))
      rintro (h | h)
      · exact h hd
      · exact Bool.false_ne_true (hf ▸ h)

end Sys2Proof.Machine

/-! PROOFS. O58, the life-cycle state: its advances and their refusals (spec/18, R466; spec/22, R538). -/

namespace Sys2Proof.Machine

open Host (Outcome)

section

variable {s t : State} {w : Writer} {h : Fin 4} {key : Fin 65536} {g : Fin 8} {burn : Fin 3}

/-- What a new state does before the reset, stored. -/
def State.advanced (s : State) (g : Nat) : State := (s.advAction g).setReg pLIFE LIFE.STATE g

/-- An advance whose fuses burn: the entry, the result, the reset of the device. -/
def State.advReset (u : State) (old g : Nat) : State :=
  (((u.evtPost (evtPayload u.aonCnt 3 [old, g])).advRes 0).resetDoms 6 domsDevice).toRun

theorem advance_eq {k n b : Nat} : s.advance k n b =
    if k ≠ 0x11FE then ((s.advRes 1).err pLIFE 16, .ok)
    else if n ≠ s.lifeSt + 1 then ((s.advRes 2).err pLIFE 16, .ok)
    else if !s.advPre then ((s.advRes 3).err pLIFE 16, .ok)
    else if b = 2 then (s.advRes 4, .ok)
    else if b = 1 then (s.set pLIFE LIFE.STATE_FUSE_PART 1, .ok)
    else ((s.advanced n).advReset s.lifeSt n, .ok) := rfl

/-- An advance that the APC asks for. -/
theorem exec_lifeAdvance (hw : s.mayAct (.apc h) pLIFE) (e : s.advance key.val g.val burn.val = (t, .ok)) :
    exec (.lifeAdvance (.apc h) key g burn) s = .next (t.answer (.apc h) .ok) :=
  congrArg Outcome.next (finish_action (f := fun s => s.advance key.val g.val burn.val) hw e)

theorem advance_key {k n b : Nat} (hk : k ≠ 0x11FE) : s.advance k n b = ((s.advRes 1).err pLIFE 16, .ok) := by
  rw [advance_eq, if_pos hk]

theorem advance_target {n b : Nat} (hn : n ≠ s.lifeSt + 1) : s.advance 0x11FE n b = ((s.advRes 2).err pLIFE 16, .ok) := by
  rw [advance_eq, if_neg (not_not_intro rfl), if_pos hn]

theorem advance_pre {n b : Nat} (hn : n = s.lifeSt + 1) (hp : s.advPre = false) :
    s.advance 0x11FE n b = ((s.advRes 3).err pLIFE 16, .ok) := by
  rw [advance_eq, if_neg (not_not_intro rfl), if_neg (not_not_intro hn), hp]
  exact if_pos rfl

theorem advance_burn {n b : Nat} (hn : n = s.lifeSt + 1) (hp : s.advPre = true) : s.advance 0x11FE n b =
    if b = 2 then (s.advRes 4, .ok)
    else if b = 1 then (s.set pLIFE LIFE.STATE_FUSE_PART 1, .ok)
    else ((s.advanced n).advReset s.lifeSt n, .ok) := by
  rw [advance_eq, if_neg (not_not_intro rfl), if_neg (not_not_intro hn), hp]
  exact if_neg Bool.false_ne_true

theorem advPre_iff : s.advPre = true ↔
    (s.lifeSt = 1 ∧ s.imgOk cfLoader 3 0xFF true = true) ∨ (s.lifeSt ≠ 1 ∧ s.lifeSt < 4) := by
  rw [State.advPre]
  by_cases h1 : s.lifeSt = 1
  · simp [h1]
  · simp [h1]

/-! ## The key slots -/

theorem advAction_provision : s.advAction 1 = (State.freeBytes 32 s).2.setSlot 0 2 (State.freeBytes 32 s).1 := rfl

theorem find?_filter_zero {l : List (Nat × Nat × List Nat)} :
    (l.filter (fun e => e.1 == 0)).find? (fun e => e.1 == 0) = l.find? (fun e => e.1 == 0) := by
  have e : (fun a : Nat × Nat × List Nat => decide ((a.1 == 0) = true ∧ (a.1 == 0) = true)) = fun a => a.1 == 0 := by
    funext a
    simp [beq_eq_decide]
  rw [List.find?_filter, e]

theorem slot_eraseSlots_zero : s.eraseSlots.slot 0 = s.slot 0 := by
  rw [State.slot, State.slot, State.eraseSlots, State.setKeys, find?_filter_zero]

theorem slot_eraseSlots {k : Nat} (hk : k ≠ 0) : s.eraseSlots.slot k = (0, []) := by
  have hnone : (s.keys.slots.filter (fun e => e.1 == 0)).find? (fun e => e.1 == k) = none := by
    rw [List.find?_eq_none]
    intro e he
    have h0 : e.1 = 0 := by simpa using (List.mem_filter.mp he).2
    rw [h0]
    simpa using hk.symm
  rw [State.slot, State.eraseSlots, State.setKeys, hnone]
  rfl

theorem finish_notApc {f : State → State × Code} {p : Nat} (hw : ∀ j, w ≠ .apc j) (ho : ownerPage p = some p) :
    finish w p (apcOnly w p f s) = (s.countRefused w p .writeRefused).answer w .writeRefused := by
  have e : apcOnly w p f s = (s, .writeRefused) := by
    cases w
    case apc j => exact absurd rfl (hw j)
    all_goals rfl
  rw [e, finish_own ho]

theorem execLifeAdvance_notApc (hw : ∀ j, w ≠ .apc j) : exec (.lifeAdvance w key g burn) s =
    .next ((s.countRefused w pLIFE .writeRefused).answer w .writeRefused) :=
  congrArg Outcome.next (finish_notApc hw (ownerPage_of_type (y := .life) (by decide)))

end

theorem lifeAdvance : Claims.LifeAdvance := by
  intro h key g burn s hw
  refine ⟨fun hk => exec_lifeAdvance hw (advance_key hk),
    fun hk hg => exec_lifeAdvance hw (by rw [hk, advance_target hg]),
    fun hk hg hp => exec_lifeAdvance hw (by rw [hk, advance_pre hg hp]), fun hk hg hp => ?_, advPre_iff, ?_, ?_, ⟨rfl, rfl⟩,
    fun w hw => execLifeAdvance_notApc hw⟩
  · have hb : ∀ b, s.advance key.val g.val b = _ := fun b => by rw [hk, advance_burn hg hp]
    exact ⟨exec_lifeAdvance hw (hb 2), exec_lifeAdvance hw (hb 1), s.advanced g, rfl, exec_lifeAdvance hw (hb 0)⟩
  · rw [advAction_provision, slot_setSlot_same (by decide)]
    refine ⟨rfl, (freeBytes_spec 32 s).1, fun k hk => ?_⟩
    rw [slot_setSlot_other hk, slot_freeBytes]
  · exact ⟨slot_eraseSlots_zero, fun k hk => slot_eraseSlots hk⟩

/-- Settles O58: a reset clears what its domains hold and records its cause, and an advance of the life-cycle state is one
case of its key, its target, its precondition and its fuses. -/
theorem resetsAndLife : Obligations.ResetsAndLife := ⟨resets, lifeAdvance⟩

end Sys2Proof.Machine

/-! PROOFS. The configuration flash and the event area (spec/22, R540, R541, R554). -/

namespace Sys2Proof.Machine

open Host (Outcome)

section

variable {s t : State} {a n x k v op c : Nat} {l : List Nat} {ok : Bool}

/-! ## Bytes of the flash (R540) -/

/-- A state beside its flash. -/
def State.offFlash (s : State) : State := { s with cf := [] }

theorem boot_of_offFlash (h : t.offFlash = s.offFlash) : t.boot = s.boot :=
  show t.offFlash.boot = s.offFlash.boot from congrArg State.boot h

theorem mem_of_offFlash (h : t.offFlash = s.offFlash) : t.mem = s.mem :=
  show t.offFlash.mem = s.offFlash.mem from congrArg State.mem h

theorem board_of_offFlash (h : t.offFlash = s.offFlash) : t.board = s.board :=
  show t.offFlash.board = s.offFlash.board from congrArg State.board h

theorem evtQueue_of_offFlash (h : t.offFlash = s.offFlash) : t.evtQueue = s.evtQueue :=
  show t.offFlash.evtQueue = s.offFlash.evtQueue from congrArg State.evtQueue h

theorem cfByte_of_cf (h : t.cf = s.cf) : t.cfByte x = s.cfByte x := by
  rw [State.cfByte, State.cfByte, h]

theorem cfBytes_of_cf (h : t.cf = s.cf) : t.cfBytes a n = s.cfBytes a n := by
  rw [State.cfBytes, State.cfBytes]
  simp only [cfByte_of_cf h]

theorem memByte_of_mem (h : t.mem = s.mem) : t.memByte x = s.memByte x := by
  rw [State.memByte, State.memByte, h]

theorem offFlash_cfErase : (s.cfErase a n).offFlash = s.offFlash := rfl

theorem cfByte_cfErase_in (h : a ≤ x) (h' : x < a + n) : (s.cfErase a n).cfByte x = 0xFF :=
  congrArg BitVec.toNat (tabGet_keep_other (f := fun k => decide (k < a ∨ a + n ≤ k)) (decide_eq_false (by omega)))

theorem cfByte_cfErase_out (h : x < a ∨ a + n ≤ x) : (s.cfErase a n).cfByte x = s.cfByte x :=
  congrArg BitVec.toNat (tabGet_keep_same (f := fun k => decide (k < a ∨ a + n ≤ k)) (decide_eq_true h))

theorem offFlash_cfProg : (s.cfProg a v).offFlash = s.offFlash := rfl

theorem cfByte_cfProg_same : (s.cfProg a v).cfByte a = s.cfByte a &&& v % 256 := by
  have hlt : s.cfByte a &&& v % 256 < 2 ^ 8 := lt_of_le_of_lt Nat.and_le_right (Nat.mod_lt v (by decide))
  rw [State.cfByte, State.cfProg, tabGet_put_same, BitVec.toNat_ofNat, Nat.mod_eq_of_lt hlt]

theorem cfByte_cfProg_other (h : x ≠ a) : (s.cfProg a v).cfByte x = s.cfByte x :=
  congrArg BitVec.toNat (tabGet_put_other h)

/-- A program only clears bits. -/
theorem cfByte_cfProg_sub : (s.cfProg a v).cfByte x &&& s.cfByte x = (s.cfProg a v).cfByte x := by
  by_cases h : x = a
  · rw [h, cfByte_cfProg_same, Nat.and_right_comm, Nat.and_self]
  · rw [cfByte_cfProg_other h, Nat.and_self]

/-- Bytes programmed from an offset on. -/
def State.cfProgsAt (s : State) (a k : Nat) (l : List Nat) : State :=
  (l.zipIdx k).foldl (fun (s : State) e => s.cfProg (a + e.2) e.1) s

theorem cfProgsAt_cons {b : Nat} : s.cfProgsAt a k (b :: l) = (s.cfProg (a + k) b).cfProgsAt a (k + 1) l := rfl

theorem offFlash_cfProgs : (s.cfProgs a l).offFlash = s.offFlash :=
  keeps_foldl (P := fun t => t.offFlash = s.offFlash) rfl fun _ _ h => offFlash_cfProg.trans h

theorem cfByte_cfProgsAt_out (h : x < a + k ∨ a + k + l.length ≤ x) : (s.cfProgsAt a k l).cfByte x = s.cfByte x := by
  induction l generalizing s k with
  | nil => rfl
  | cons b l ih =>
    rw [List.length_cons] at h
    rw [cfProgsAt_cons, ih (by omega), cfByte_cfProg_other (by omega)]

theorem cfByte_cfProgs_out (h : x < a ∨ a + l.length ≤ x) : (s.cfProgs a l).cfByte x = s.cfByte x :=
  cfByte_cfProgsAt_out h

theorem cfByte_cfProgsAt_sub : (s.cfProgsAt a k l).cfByte x &&& s.cfByte x = (s.cfProgsAt a k l).cfByte x := by
  induction l generalizing s k with
  | nil => exact Nat.and_self _
  | cons b l ih =>
    rw [cfProgsAt_cons]
    rw [← ih, Nat.and_assoc, cfByte_cfProg_sub]

/-! ## The engine (R541) -/

theorem cfwRes_refused (h : c = cwDENIED ∨ c = cwRANGE) :
    s.cfwRes c = ((s.err pPROF 17).setReg pPROF PROF.CFW_RES (2 ^ 31 + c)).ev pPROF 16 := by
  rw [State.cfwRes, if_pos h]

theorem reg_cfwRes (h : c < 2 ^ 31) : (s.cfwRes c).reg pPROF PROF.CFW_RES = 2 ^ 31 + c := by
  rw [State.cfwRes, reg_ev (by decide), reg_setReg_same]
  omega

theorem evStat_cfwRes : (s.cfwRes c).bit pPROF PG.EV_STAT 16 = true := by
  rw [State.cfwRes]
  exact bit_ev (by decide)

theorem boot_cfwRes : (s.cfwRes c).boot = s.boot := by
  rw [State.cfwRes, State.ev_boot, State.setReg_boot]
  exact keeps_ite (P := fun t => t.boot = s.boot) State.err_boot rfl

theorem cf_cfwRes : (s.cfwRes c).cf = s.cf := by
  rw [State.cfwRes, State.ev_cf, State.setReg_cf]
  exact keeps_ite (P := fun t => t.cf = s.cf) State.err_cf rfl

theorem mem_cfwRes : (s.cfwRes c).mem = s.mem := by
  rw [State.cfwRes, State.ev_mem, State.setReg_mem]
  exact keeps_ite (P := fun t => t.mem = s.mem) State.err_mem rfl

theorem error_cfwRes (h : c = cwDENIED ∨ c = cwRANGE) : (s.cfwRes c).bit pPROF PG.ERR 17 = true := by
  rw [cfwRes_refused h, bit_ev_off (by decide), State.bit, reg_setReg_off (by decide)]
  exact bit_err (by decide)

/-! ## Checks (R541) -/

/-- Where an operation is denied. -/
def State.cfwDenied (s : State) (a : Nat) : Prop :=
  4 ≤ s.lifeSt ∨ (cfRegion a = cfLoader ∧ (s.lifeSt = 2 ∨ 4 ≤ s.lifeSt)) ∨ s.copyInUse = some (cfRegion a) ∨
    cfRegion a = cfEvt

/-- The bounds of an operation. -/
def cfwFits (op a n : Nat) : Prop :=
  a + n ≤ cfRegion a + cfSize (cfRegion a) ∧ a < cfEnd ∧ (op = 1 → a % 65536 = 0 ∧ n % 65536 = 0) ∧
    (op = 2 → n ≠ 0 ∧ n ≤ 65536)

theorem cfwCheck_denied (h : s.cfwDenied a) : s.cfwCheck op a n = cwDENIED := by
  rw [State.cfwCheck]
  refine if_pos (h.imp_right (Or.imp_left (And.imp_right fun h => ?_)))
  rw [decide_eq_false (by omega)]
  rfl

theorem cfwCheck_taken (h : ¬ s.cfwDenied a) : s.cfwCheck op a n =
    if cfRegion a + cfSize (cfRegion a) < a + n ∨ cfEnd ≤ a then cwRANGE
    else if op = 1 ∧ (a % 65536 ≠ 0 ∨ n % 65536 ≠ 0) then cwRANGE
    else if op = 2 ∧ (n = 0 ∨ 65536 < n) then cwRANGE
    else cwOK := by
  rw [State.cfwCheck]
  refine if_neg fun hd => h (hd.imp_right (Or.imp_left (And.imp_right fun h => ?_)))
  have h' : ¬ (s.lifeSt ≠ 2 ∧ s.lifeSt < 4) := by
    simpa only [Bool.not_eq_true', decide_eq_false_iff_not] using h
  omega

theorem cfwCheck_fits (h : ¬ s.cfwDenied a) (hf : cfwFits op a n) : s.cfwCheck op a n = cwOK := by
  obtain ⟨hr, he, h1, h2⟩ := hf
  rw [cfwCheck_taken h, if_neg (by omega), if_neg (by omega), if_neg (by omega)]

theorem cfwCheck_range (h : ¬ s.cfwDenied a) (hf : ¬ cfwFits op a n) : s.cfwCheck op a n = cwRANGE := by
  rw [cfwCheck_taken h]
  by_cases hr : cfRegion a + cfSize (cfRegion a) < a + n ∨ cfEnd ≤ a
  · exact if_pos hr
  rw [if_neg hr]
  by_cases h1 : op = 1 ∧ (a % 65536 ≠ 0 ∨ n % 65536 ≠ 0)
  · exact if_pos h1
  rw [if_neg h1]
  refine if_pos (not_not.mp fun h2 => hf ⟨by omega, by omega, ?_, ?_⟩)
  · omega
  · omega

theorem cfwCheck_eq_denied : s.cfwCheck op a n = cwDENIED ↔ s.cfwDenied a := by
  refine ⟨fun e => not_not.mp fun h => ?_, cfwCheck_denied⟩
  by_cases hf : cfwFits op a n
  · exact absurd (e.symm.trans (cfwCheck_fits h hf)) (by decide)
  · exact absurd (e.symm.trans (cfwCheck_range h hf)) (by decide)

theorem cfwCheck_eq_ok (h : s.cfwCheck op a n ≠ cwDENIED) : s.cfwCheck op a n = cwOK ↔ cfwFits op a n := by
  have hd : ¬ s.cfwDenied a := fun hd => h (cfwCheck_denied hd)
  refine ⟨fun e => not_not.mp fun hf => ?_, cfwCheck_fits hd⟩
  exact absurd (e.symm.trans (cfwCheck_range hd hf)) (by decide)

theorem cfwCheck_refused (h : s.cfwCheck op a n ≠ cwOK) :
    s.cfwCheck op a n = cwDENIED ∨ s.cfwCheck op a n = cwRANGE := by
  by_cases hd : s.cfwDenied a
  · exact .inl (cfwCheck_denied hd)
  · exact .inr (cfwCheck_range hd fun hf => h (cfwCheck_fits hd hf))

/-! ## The APC's commands (R541) -/

theorem exec_cfw {w : Writer} (h : op = 1 ∨ op = 2) :
    (if op = 1 then exec (.cfErase w) s else exec (.cfProgram w) s) = .next (s.cfwCmd w op) := by
  rcases h with rfl | rfl
  · rfl
  · rfl

theorem cfwCmd_eq {h : Fin 4} (hw : s.mayAct (.apc h) pPROF) : s.cfwCmd (.apc h) op = (s.cfwGo op).answer (.apc h) .ok :=
  finish_action (f := fun s => (s.cfwGo op, .ok)) hw rfl

/-- The operation is shown. -/
def State.cfwShown (s : State) (op : Nat) : State := s.set pPROF PROF.CFW_CMD_OP op

theorem cfwGo_eq (h : op = 1 ∨ op = 2) (ha : a = s.reg pPROF PROF.CFW_ADDR % 2 ^ 28)
    (hn : n = s.reg pPROF PROF.CFW_LEN % 2 ^ 28) : s.cfwGo op =
    if s.boot.op.isSome then (s.cfwShown op).setReg pPROF PROF.CFW_RES cwBUSY
    else if (s.cfwShown op).cfwCheck op a n ≠ cwOK then (s.cfwShown op).cfwRes ((s.cfwShown op).cfwCheck op a n)
    else ((s.cfwShown op).setReg pPROF PROF.CFW_RES 0).setBoot { s.boot with
      op := some (op, a, n, s.reg64 pPROF PROF.CFW_SRC_LO) } := by
  have hreg : ∀ {o}, o ≠ PROF.CFW_CMD → (s.cfwShown op).reg pPROF o = s.reg pPROF o := fun ho => reg_set_off ho
  have hsrc : s.reg64 pPROF PROF.CFW_SRC_LO = (s.cfwShown op).reg64 pPROF PROF.CFW_SRC_LO := by
    rw [State.reg64, State.reg64, hreg (by decide), hreg (by decide)]
  have hop : ¬ (op = 0 ∨ 2 < op) := by omega
  rw [ha, hn, hsrc, ← hreg (o := PROF.CFW_ADDR) (by decide), ← hreg (o := PROF.CFW_LEN) (by decide)]
  rw [State.cfwGo, if_neg hop]
  rfl

/-! ## The end of an operation (R541) -/

/-- The engine is free again. -/
def State.cfwFree (s : State) : State := s.setBoot { s.boot with op := none }

theorem exec_cfOpDone_none (h : s.boot.op = none) : exec (.cfOpDone ok) s = .next s := by
  change execCfOpDone ok s = _
  rw [execCfOpDone, h]

theorem exec_cfOpDone_erase {src : Nat} (h : s.boot.op = some (1, a, n, src)) : exec (.cfOpDone ok) s =
    .next ((s.cfwFree.cfwErase a n).cfwRes (if ok then cwOK else cwFAIL)) := by
  change execCfOpDone ok s = _
  rw [execCfOpDone, h]
  exact if_pos rfl

theorem exec_cfOpDone_program {src : Nat} (h : s.boot.op = some (2, a, n, src)) (hi : s.injArmed pAPC 0 = false) :
    exec (.cfOpDone ok) s = .next ((s.cfwFree.cfwProgram a (s.memBytes src n) ok).1.cfwRes
      (s.cfwFree.cfwProgram a (s.memBytes src n) ok).2) := by
  have hl2 : s.cfwFree.l2Read src = s.cfwFree := by
    have hi' : s.cfwFree.injArmed pAPC 0 = false := hi
    rw [State.l2Read, injTake_unarmed hi']
    rfl
  change execCfOpDone ok s = _
  rw [execCfOpDone, h]
  refine (if_neg (by decide)).trans ?_
  rw [show s.setBoot { s.boot with op := none } = s.cfwFree from rfl, hl2]
  rfl

theorem cfByte_cfwErase_in (h : a ≤ x) (h' : x < a + n) : (s.cfwErase a n).cfByte x = 0xFF :=
  (cfByte_of_cf rfl).trans (cfByte_cfErase_in (s := s) h h')

theorem cfByte_cfwErase_out (h : x < a ∨ a + n ≤ x) : (s.cfwErase a n).cfByte x = s.cfByte x :=
  (cfByte_of_cf rfl).trans (cfByte_cfErase_out (s := s) h)

/-- The code of a program's end. -/
theorem cfwProgram_code : (s.cfwProgram a l ok).2 =
    if ok = true ∧ (s.cfProgs a l).cfBytes a l.length = l then cwOK else cwFAIL := by
  rw [State.cfwProgram]
  simp

end

end Sys2Proof.Machine

/-! PROOFS. O59, the configuration flash: its commands, the end of an operation, the event area (spec/22, R541, R554). -/

namespace Sys2Proof.Machine

open Host (Outcome)

section

variable {s t : State} {a n x i : Nat} {l : List Nat} {ok : Bool}

/-! ## The event area (R554) -/

theorem cfByte_evtErase (h : x < cfEvt) : (s.cfErase (cfEvt + 64 * i) n).cfByte x = s.cfByte x :=
  cfByte_cfErase_out (.inl (by omega))

/-- A slot of the event area touches nothing below it. -/
theorem evtSlot_spec (n : Nat) (s : State) (i : Nat) :
    (s.evtSlot n i).1.offFlash = s.offFlash ∧ ∀ x, x < cfEvt → (s.evtSlot n i).1.cfByte x = s.cfByte x := by
  induction n generalizing s i with
  | zero => exact ⟨rfl, fun _ _ => rfl⟩
  | succ n ih =>
    unfold State.evtSlot
    extract_lets j u
    obtain ⟨hu, hx⟩ : u.offFlash = s.offFlash ∧ ∀ x, x < cfEvt → u.cfByte x = s.cfByte x :=
      keeps_ite (P := fun u => u.offFlash = s.offFlash ∧ ∀ x, x < cfEvt → u.cfByte x = s.cfByte x)
        ⟨offFlash_cfErase, fun x h => cfByte_evtErase h⟩ ⟨rfl, fun _ _ => rfl⟩
    obtain ⟨hr, hy⟩ := ih u (j + 1)
    exact keeps_ite1 (P := fun u => u.offFlash = s.offFlash ∧ ∀ x, x < cfEvt → u.cfByte x = s.cfByte x) ⟨hu, hx⟩
      ⟨hr.trans hu, fun x h => (hy x h).trans (hx x h)⟩

/-- An entry is in the flash: its number and its place are shown. -/
def State.evtDone (s : State) (seq a : Nat) : State := (s.setReg pSYS SYS.EVT_HEAD seq).setReg pSYS SYS.EVT_OFS a

theorem evtWrite_spec : ∃ (u : State) (a : Nat), s.evtWrite l = u.evtDone ((s.reg pSYS SYS.EVT_HEAD + 1) % 2 ^ 32) a ∧
    u.offFlash = s.offFlash ∧ ∀ x, x < cfEvt → u.cfByte x = s.cfByte x := by
  unfold State.evtWrite
  extract_lets ofs r s1 a seq b s2
  obtain ⟨hr, hx⟩ := evtSlot_spec 1025 s (if ofs = 0 then 0 else (ofs - cfEvt) / 64 + 1)
  have hseq : seq = (s.reg pSYS SYS.EVT_HEAD + 1) % 2 ^ 32 := by
    have : s1.reg pSYS SYS.EVT_HEAD = s.reg pSYS SYS.EVT_HEAD := reg_eq_of_board (board_of_offFlash hr)
    exact congrArg (fun v => (v + 1) % 2 ^ 32) this
  refine ⟨s2, a, by rw [State.evtDone, hseq], offFlash_cfProgs.trans hr, fun x h => ?_⟩
  exact (cfByte_cfProgs_out (.inl (by omega))).trans (hx x h)

theorem head_evtDone {q : Nat} (h : q < 2 ^ 32) : (s.evtDone q a).reg pSYS SYS.EVT_HEAD = q := by
  rw [State.evtDone, reg_setReg_off (by decide), reg_setReg_same, Nat.mod_eq_of_lt h]

theorem sameRegs_evtDone {q : Nat} : SameRegs s (s.evtDone q a) [(pSYS, SYS.EVT_HEAD), (pSYS, SYS.EVT_OFS)] :=
  (sameRegs_refl.setReg (by decide)).setReg (by decide)

/-- An entry leaves the queue. -/
def State.entryTaken (s : State) (r : List (List Nat)) : State := { s with evtQueue := r }

theorem exec_eventAreaWrite {e : List Nat} {r : List (List Nat)} (h : s.evtQueue = e :: r) :
    exec .eventAreaWrite s = .next ((s.entryTaken r).evtWrite e) := by
  change execEventAreaWrite s = _
  rw [execEventAreaWrite, h, State.entryTaken]

theorem exec_eventAreaWrite_empty (h : s.evtQueue = []) : exec .eventAreaWrite s = .next s := by
  change execEventAreaWrite s = _
  rw [execEventAreaWrite, h]

end

section

variable {s : State} {h : Fin 4} {op a n src : Nat} {ok : Bool}

/-! ## The parts of the claim -/

theorem exec_cfw_apc (hw : s.mayAct (.apc h) pPROF) (hop : op = 1 ∨ op = 2) :
    (if op = 1 then exec (.cfErase (.apc h)) s else exec (.cfProgram (.apc h)) s) =
      .next ((s.cfwGo op).answer (.apc h) .ok) := by
  rw [exec_cfw hop, cfwCmd_eq hw]

theorem cfwRes_check {u : State} (hc : u.cfwCheck op a n ≠ cwOK) :
    (u.cfwRes (u.cfwCheck op a n)).reg pPROF PROF.CFW_RES = 2 ^ 31 + u.cfwCheck op a n ∧
      (u.cfwRes (u.cfwCheck op a n)).bit pPROF PG.ERR 17 = true := by
  have hr := cfwCheck_refused hc
  exact ⟨reg_cfwRes (by rcases hr with e | e <;> rw [e] <;> decide), error_cfwRes hr⟩

theorem sameMem_cfwShown {c : Nat} : SameMem s ((s.cfwShown op).cfwRes c) :=
  keeps_State_cfwRes (k0_sameMem s) (sameMem_refl s)

theorem cfwCmd_notApc {w : Writer} (hw : ∀ j, w ≠ .apc j) :
    s.cfwCmd w op = (s.countRefused w pPROF .writeRefused).answer w .writeRefused := by
  rw [State.cfwCmd]
  exact finish_notApc hw (ownerPage_of_type (y := .prof) (by decide))

theorem exec_cfErase {w : Writer} : exec (.cfErase w) s = .next (s.cfwCmd w 1) := rfl

theorem exec_cfProgram {w : Writer} : exec (.cfProgram w) s = .next (s.cfwCmd w 2) := rfl

/-- An erase that has ended. -/
theorem cfOpDone_erase (hs : s.boot.op = some (1, a, n, src)) : ∃ t, exec (.cfOpDone ok) s = .next t ∧ t.boot.op = none ∧
    (ok = true → ∀ x, a ≤ x → x < a + n → t.cfByte x = 0xFF) ∧ (∀ x, x < a ∨ a + n ≤ x → t.cfByte x = s.cfByte x) ∧
    t.reg pPROF PROF.CFW_RES = 2 ^ 31 + (if ok then 0 else 3) ∧ t.bit pPROF PG.EV_STAT 16 = true ∧
    ∀ x, t.memByte x = s.memByte x := by
  refine ⟨_, exec_cfOpDone_erase hs, ?_, fun _ x hx hx' => ?_, fun x hx => ?_, ?_, evStat_cfwRes, fun x => ?_⟩
  · rw [boot_cfwRes]
    rfl
  · rw [cfByte_of_cf cf_cfwRes, cfByte_cfwErase_in hx hx']
  · rw [cfByte_of_cf cf_cfwRes, cfByte_cfwErase_out hx]
    rfl
  · cases ok
    · exact reg_cfwRes (by decide)
    · exact reg_cfwRes (by decide)
  · exact memByte_of_mem (mem_cfwRes.trans rfl)

/-- A program that has ended. -/
theorem cfOpDone_program (hs : s.boot.op = some (2, a, n, src)) (hi : s.injArmed pAPC 0 = false) :
    ∃ t, exec (.cfOpDone ok) s = .next t ∧ t.boot.op = none ∧ (∀ x, t.cfByte x &&& s.cfByte x = t.cfByte x) ∧
      (∀ x, x < a ∨ a + n ≤ x → t.cfByte x = s.cfByte x) ∧
      (t.reg pPROF PROF.CFW_RES = 2 ^ 31 ∨ t.reg pPROF PROF.CFW_RES = 2 ^ 31 + 3) ∧
      (t.reg pPROF PROF.CFW_RES = 2 ^ 31 ↔ ok = true ∧ t.cfBytes a n = s.memBytes src n) ∧
      t.bit pPROF PG.EV_STAT 16 = true ∧ ∀ x, t.memByte x = s.memByte x := by
  have hlen : (s.memBytes src n).length = n := length_memBytes
  have hoff : (s.cfwFree.cfwProgram a (s.memBytes src n) ok).1.offFlash = s.cfwFree.offFlash := offFlash_cfProgs
  have hcf : ∀ c, ((s.cfwFree.cfwProgram a (s.memBytes src n) ok).1.cfwRes c).cf =
      (s.cfwFree.cfProgs a (s.memBytes src n)).cf := fun c => cf_cfwRes
  have hcode := cfwProgram_code (s := s.cfwFree) (a := a) (l := s.memBytes src n) (ok := ok)
  rw [hlen] at hcode
  refine ⟨_, exec_cfOpDone_program hs hi, ?_, fun x => ?_, fun x hx => ?_, ?_, ?_, evStat_cfwRes, fun x => ?_⟩
  · rw [boot_cfwRes, boot_of_offFlash hoff]
    rfl
  · rw [cfByte_of_cf (hcf _)]
    exact cfByte_cfProgsAt_sub (s := s.cfwFree)
  · rw [cfByte_of_cf (hcf _), cfByte_cfProgs_out (by rw [hlen]; exact hx)]
    rfl
  · rw [hcode]
    split
    · exact .inl (reg_cfwRes (by decide))
    · exact .inr (reg_cfwRes (by decide))
  · rw [cfBytes_of_cf (hcf _), hcode]
    split
    next h => exact iff_of_true (reg_cfwRes (by decide)) h
    next h => exact iff_of_false (fun e => absurd (e.symm.trans (reg_cfwRes (by decide))) (by decide)) h
  · exact memByte_of_mem (mem_cfwRes.trans ((mem_of_offFlash hoff).trans State.setBoot_mem))

/-- An entry that has become durable. -/
theorem eventAreaWrite {e : List Nat} {r : List (List Nat)} (hq : s.evtQueue = e :: r) :
    ∃ t, exec .eventAreaWrite s = .next t ∧ t.evtQueue = r ∧
      t.reg pSYS SYS.EVT_HEAD = (s.reg pSYS SYS.EVT_HEAD + 1) % 2 ^ 32 ∧ (∀ x, x < cfEvt → t.cfByte x = s.cfByte x) ∧
      SameRegs s t [(pSYS, SYS.EVT_HEAD), (pSYS, SYS.EVT_OFS)] ∧ ∀ x, t.memByte x = s.memByte x := by
  obtain ⟨u, a, e, hu, hx⟩ := evtWrite_spec (s := s.entryTaken r) (l := e)
  refine ⟨_, exec_eventAreaWrite hq, ?_, ?_, ?_, ?_, ?_⟩
  · rw [e]
    exact State.setReg_evtQueue.trans (State.setReg_evtQueue.trans (evtQueue_of_offFlash hu))
  · rw [e, head_evtDone (Nat.mod_lt _ (by decide))]
    rfl
  · intro x h
    rw [e]
    exact (cfByte_of_cf (State.setReg_cf.trans State.setReg_cf)).trans (hx x h)
  · rw [e]
    exact (sameRegs_of_board (board_of_offFlash hu)).trans sameRegs_evtDone
  · intro x
    rw [e]
    exact memByte_of_mem (State.setReg_mem.trans (State.setReg_mem.trans ((mem_of_offFlash hu).trans rfl)))

end

theorem flash : Claims.Flash := by
  intro h w s
  refine ⟨fun hw => ?_, fun op a n u hw hop hu ha hn => ?_, fun op a n => ?_, fun hs ok => exec_cfOpDone_none hs,
    fun a n src ok hs => cfOpDone_erase hs, fun a n src ok hs hi => cfOpDone_program hs hi, exec_eventAreaWrite_empty,
    fun e r hq => eventAreaWrite hq⟩
  · rw [exec_cfErase, exec_cfProgram, cfwCmd_notApc hw, cfwCmd_notApc hw]
    exact ⟨rfl, rfl⟩
  · have hu' : s.cfwShown op = u := hu.symm
    have hgo := cfwGo_eq hop ha hn
    rw [hu'] at hgo
    refine ⟨fun hb => ?_, fun hb hc => ?_, fun hb hc => ?_⟩
    · rw [exec_cfw_apc hw hop, hgo, if_pos hb]
    · rw [exec_cfw_apc hw hop, hgo, hb, if_neg (by simp), if_neg (not_not_intro hc)]
    · have hg : s.cfwGo op = u.cfwRes (u.cfwCheck op a n) := by
        rw [hgo, hb, if_neg (by simp), if_pos hc]
      obtain ⟨hreg, herr⟩ := cfwRes_check hc
      refine ⟨_, exec_cfw_apc hw hop, ?_⟩
      rw [hg]
      have hb' : u.boot.op = none := by rw [hu, State.set_boot, hb]
      have hcf : u.cf = s.cf := by rw [hu, State.set_cf]
      refine ⟨reg_answer.trans hreg, ?_, bit_answer.trans herr, bit_answer.trans evStat_cfwRes, ?_, ?_⟩
      · rw [State.answer, State.send_boot, boot_cfwRes, hb']
      · rw [State.answer, State.send_cf, cf_cfwRes, hcf]
      · rw [hu]
        exact sameMem_answer sameMem_cfwShown
  · exact ⟨cfwCheck_eq_denied, cfwCheck_eq_ok⟩

end Sys2Proof.Machine

/-! PROOFS. O59, boot and the resident loader (spec/22, R537, R545, R546, R550, R551). -/

namespace Sys2Proof.Machine

open Host (Outcome)

section

variable {s t : State} {w : Writer} {us p : Nat} {r : Fin 256} {o : Word}

/-! ## Boot (R537, R546) -/

theorem exec_boot {bad : Word} {mems : List MemTest} {ddr : Option (Fin 3)} {k : Bool} {us : Fin 1048576} :
    exec (.boot bad mems ddr k us) s = .next (if s.boot.due && decide (s.dom .rd = .active) then
      s.bootRun bad.toNat mems ddr k us else s) := rfl

theorem pickCopy_first (h0 : s.copyOk p 0 = true) (h1 : s.copyOk p 1 = false) : s.pickCopy p = .ok 0 := by
  rw [State.pickCopy, h0, h1]

theorem pickCopy_second (h0 : s.copyOk p 0 = false) (h1 : s.copyOk p 1 = true) : s.pickCopy p = .ok 1 := by
  rw [State.pickCopy, h0, h1]

theorem pickCopy_none (h0 : s.copyOk p 0 = false) (h1 : s.copyOk p 1 = false) : s.pickCopy p = .error fbNO_VALID := by
  rw [State.pickCopy, h0, h1]

theorem pickCopy_both (h0 : s.copyOk p 0 = true) (h1 : s.copyOk p 1 = true) : s.pickCopy p =
    if s.copyGen p 0 = s.copyGen p 1 then (if s.copiesSame p then .ok 0 else .error fbCONFLICT)
    else .ok (if s.copyGen p 0 < s.copyGen p 1 then 1 else 0) := by
  rw [State.pickCopy, h0, h1]

/-! ## The start (R545) -/

/-- The start step is reached, with no reckoner that waits. -/
def State.startReady (s : State) : State :=
  (s.bootAt bsSTART).setBoot { s.boot with defer := [], entry := s.cfLE (cfFw + 0x18) 8 }

/-- The safety kernel's image has verified. -/
def State.kernelStarts (s : State) : State :=
  let u := s.free.2.setReg pSPAIR SPAIR.KCRC (s.free.1 % 2 ^ 32)
  (u.setSafe { u.safe with started := true }).set pSPAIR SPAIR.STAT_KVER 1

theorem pairStart_kernel (hs : s.split = false) (hf : s.pairFaulted = false) : s.pairStart true = s.kernelStarts := by
  rw [State.pairStart, hf, hs]
  rfl

/-- Hart 0 starts and boot is done. -/
def State.bootEnds (s : State) (entry us : Nat) : State :=
  ((s.send (.hartStart 0 entry)).bootAt bsDONE).setReg pSYS SYS.BOOT_TIME us

theorem bootStart_eq (hd : s.boot.defer = []) (hs : s.split = false) (hf : s.pairFaulted = false) :
    s.bootStart true us = s.startReady.kernelStarts.bootEnds (s.cfLE (cfFw + 0x18) 8) us := by
  unfold State.bootStart
  extract_lets s1 l x s2 s3 s4
  have h2 : s2 = s.startReady := rfl
  have hl : l = [] := hd
  have h3 : s3 = s.startReady := by
    rw [← h2, show s3 = l.foldl (fun s k => (s.enWrite (pRECK k) true).1) s2 from rfl, hl, List.foldl_nil]
  have hs' : s.startReady.split = false := by
    rw [← hs]
    exact flag_set_page (by decide) (by decide) (by decide)
  have hf' : s.startReady.pairFaulted = false := by
    rw [← hf]
    exact flag_set_page (by decide) (by decide) (by decide)
  have h4 : s4 = s.startReady.kernelStarts := by
    rw [← pairStart_kernel hs' hf', ← h3]
  rw [h4]
  rfl

theorem out_kernelStarts : s.kernelStarts.out = s.out := by
  rw [State.kernelStarts, State.set_out, State.setSafe_out, State.setReg_out, State.free]

theorem out_bootEnds {e : Nat} : (s.bootEnds e us).out = s.out ++ [.hartStart 0 e] := rfl

theorem out_startReady : s.startReady.out = s.out := rfl

theorem kver_kernelStarts : s.kernelStarts.flag pSPAIR SPAIR.STAT_KVER = true := by
  rw [State.kernelStarts, flag_set_same (by decide) (by decide)]
  rfl

theorem step_bootEnds {e : Nat} : (s.bootEnds e us).get pSYS SYS.BOOT_STAT_STEP = bsDONE := by
  rw [State.bootEnds, get_setReg_off (by decide), State.bootAt, get_set_same (by decide) (by decide)]
  rfl

theorem time_bootEnds {e : Nat} (h : us < 2 ^ 20) : (s.bootEnds e us).reg pSYS SYS.BOOT_TIME = us := by
  rw [State.bootEnds, reg_setReg_same]
  omega

theorem flag_bootEnds {e : Nat} {f : Fld} (h : f.off < 4096) {q : Nat} (hq : q ≠ pSYS) :
    (s.bootEnds e us).flag q f = s.flag q f := by
  rw [State.bootEnds, flag_setReg_page hq h (by decide), State.bootAt, flag_set_page hq h (by decide), flag_send]

theorem started_bootEnds {e : Nat} : (s.bootEnds e us).safe = s.safe := rfl

theorem started_kernelStarts : s.kernelStarts.safe.started = true := rfl

theorem bootStart_spec (hd : s.boot.defer = []) (hs : s.split = false) (hf : s.pairFaulted = false) (hus : us < 2 ^ 20) :
    ∃ t, s.bootStart true us = t ∧ t.out = s.out ++ [.hartStart 0 (s.cfLE (cfFw + 0x18) 8)] ∧
      t.get pSYS SYS.BOOT_STAT_STEP = bsDONE ∧ t.reg pSYS SYS.BOOT_TIME = us ∧
      t.flag pSPAIR SPAIR.STAT_KVER = true ∧ t.safe.started = true ∧ SameMem s t := by
  refine ⟨_, rfl, ?_, ?_, ?_, ?_, ?_, keeps_State_bootStart (k0_sameMem s) (sameMem_refl s)⟩
  · rw [bootStart_eq hd hs hf, out_bootEnds, out_kernelStarts, out_startReady]
  · rw [bootStart_eq hd hs hf, step_bootEnds]
  · rw [bootStart_eq hd hs hf, time_bootEnds hus]
  · rw [bootStart_eq hd hs hf, flag_bootEnds (by decide) (by decide), kver_kernelStarts]
  · rw [bootStart_eq hd hs hf, started_bootEnds, started_kernelStarts]

/-! ## The loader (R550, R551) -/

theorem loaderOn_iff : s.loaderOn w = true ↔ s.flag pSYS SYS.BOOT_STAT_LOADER = true ∧ w.isRemote = true := by
  rw [State.loaderOn, Bool.and_eq_true]

/-- An erase and a write, where the loader takes them. -/
def State.loaderErased (s : State) (w : Writer) (r : Fin 256) (o n : Word) : State :=
  s.loaderOp w 1 r o.toNat n.toNat (decide (n.toNat % 65536 ≠ 0)) (fun s a => (s.cfwErase a n.toNat, cwOK))

def State.loaderWritten (s : State) (w : Writer) (r : Fin 256) (o : Word) (l : List Nat) : State :=
  s.loaderOp w 2 r o.toNat l.length (decide (l.length = 0 ∨ 2016 < l.length)) (fun s a => s.cfwProgram a l true)

theorem exec_loaderErase {n : Word} : exec (.loaderErase w r o n) s =
    .next (if s.loaderOn w then s.loaderErased w r o n else s) := rfl

theorem exec_loaderWrite {l : List Nat} : exec (.loaderWrite w r o l) s =
    .next (if s.loaderOn w then s.loaderWritten w r o l else s) := rfl

theorem exec_loaderReset : exec (.loaderReset w) s =
    .next (if s.loaderOn w then ((s.loaderSay w 0 []).resetDoms 4 domsDevice).toRun else s) := rfl

theorem exec_loaderStatus : exec (.loaderStatus w) s = .next (if s.loaderOn w then
    s.loaderSay w 0 (leBytes 4 (s.reg pSYS SYS.BOOT_STAT) ++
      (List.range 4).flatMap (fun p => leBytes 4 (s.reg pPROF (PROF.GEN_A p))) ++
      (List.range 4).flatMap (fun p => leBytes 4 (s.reg pPROF (PROF.GEN_B p)))) else s) := rfl

section

variable {op k ofs n base c : Nat} {bad : Bool} {go : State → Nat → State × Nat}

theorem loaderOp_region (h : loaderRegion k = none) : s.loaderOp w op k ofs n bad go = s.loaderSay w cwRANGE [] := by
  rw [State.loaderOp, h]

theorem loaderOp_some (h : loaderRegion k = some base) : s.loaderOp w op k ofs n bad go =
    if bad = true ∨ 0x8000000 < ofs then s.loaderSay w cwRANGE []
    else if s.boot.op.isSome then s.loaderSay w cwBUSY []
    else if (if cfRegion (base + ofs) ≠ base then cwRANGE else s.cfwCheck op (base + ofs) n) ≠ cwOK then
      (s.cfwRes (if cfRegion (base + ofs) ≠ base then cwRANGE else s.cfwCheck op (base + ofs) n)).loaderSay w
        (if cfRegion (base + ofs) ≠ base then cwRANGE else s.cfwCheck op (base + ofs) n) []
    else ((go s (base + ofs)).1.cfwRes (go s (base + ofs)).2).loaderSay w (go s (base + ofs)).2 [] := by
  rw [State.loaderOp, h]

theorem loaderOp_bad (h : bad = true) : s.loaderOp w op k ofs n bad go = s.loaderSay w cwRANGE [] := by
  cases hr : loaderRegion k with
  | none => exact loaderOp_region hr
  | some base => rw [loaderOp_some hr, if_pos (.inl h)]

theorem loaderOp_busy (h : loaderRegion k = some base) (hb : bad = false) (ho : ofs < 0x8000000)
    (hop : s.boot.op.isSome = true) : s.loaderOp w op k ofs n bad go = s.loaderSay w cwBUSY [] := by
  have hn : ¬ (bad = true ∨ 0x8000000 < ofs) :=
    not_or.mpr ⟨fun h => Bool.false_ne_true (hb.symm.trans h), Nat.not_lt.mpr ho.le⟩
  rw [loaderOp_some h, if_neg hn, if_pos hop]

theorem loaderOp_free (h : loaderRegion k = some base) (hb : bad = false) (ho : ofs < 0x8000000) (hop : s.boot.op = none)
    (hc : c = if cfRegion (base + ofs) ≠ base then cwRANGE else s.cfwCheck op (base + ofs) n) :
    s.loaderOp w op k ofs n bad go = if c ≠ cwOK then (s.cfwRes c).loaderSay w c []
    else ((go s (base + ofs)).1.cfwRes (go s (base + ofs)).2).loaderSay w (go s (base + ofs)).2 [] := by
  have hn : ¬ (bad = true ∨ 0x8000000 < ofs) :=
    not_or.mpr ⟨fun h => Bool.false_ne_true (hb.symm.trans h), Nat.not_lt.mpr ho.le⟩
  rw [loaderOp_some h, if_neg hn, hop, if_neg (by simp), hc]

end

/-- The refusals of the loader. -/
theorem loader_refusals (hon : s.loaderOn w = true) :
    (∀ r : Fin 256, loaderRegion r = none → (∀ o n, exec (.loaderErase w r o n) s = .next (s.loaderSay w cwRANGE [])) ∧
      ∀ o l, exec (.loaderWrite w r o l) s = .next (s.loaderSay w cwRANGE [])) ∧
    ∀ (r : Fin 256) (o : Word), (∀ n : Word, n.toNat % 65536 ≠ 0 →
        exec (.loaderErase w r o n) s = .next (s.loaderSay w cwRANGE [])) ∧
      ∀ l : List Nat, (l.length = 0 ∨ 2016 < l.length) →
        exec (.loaderWrite w r o l) s = .next (s.loaderSay w cwRANGE []) := by
  refine ⟨fun r hr => ⟨fun o n => ?_, fun o l => ?_⟩, fun r o => ⟨fun n hn => ?_, fun l hl => ?_⟩⟩
  · rw [exec_loaderErase, if_pos hon, State.loaderErased, loaderOp_region hr]
  · rw [exec_loaderWrite, if_pos hon, State.loaderWritten, loaderOp_region hr]
  · rw [exec_loaderErase, if_pos hon, State.loaderErased, loaderOp_bad (decide_eq_true hn)]
  · rw [exec_loaderWrite, if_pos hon, State.loaderWritten, loaderOp_bad (decide_eq_true hl)]

theorem loader_erases (hon : s.loaderOn w = true) {base : Nat} {n : Word} (hr : loaderRegion r = some base)
    (hn : n.toNat % 65536 = 0) (ho : o.toNat < 0x8000000) :
    let c := if cfRegion (base + o.toNat) ≠ base then cwRANGE else s.cfwCheck 1 (base + o.toNat) n.toNat
    (s.boot.op.isSome = true → exec (.loaderErase w r o n) s = .next (s.loaderSay w cwBUSY [])) ∧
    (s.boot.op = none → c ≠ cwOK → exec (.loaderErase w r o n) s = .next ((s.cfwRes c).loaderSay w c [])) ∧
    (s.boot.op = none → c = cwOK → exec (.loaderErase w r o n) s = .next
      (((s.cfwErase (base + o.toNat) n.toNat).cfwRes cwOK).loaderSay w cwOK [])) := by
  intro c
  have hb : decide (n.toNat % 65536 ≠ 0) = false := decide_eq_false (not_not_intro hn)
  rw [exec_loaderErase, if_pos hon, State.loaderErased]
  refine ⟨fun h => ?_, fun h hc => ?_, fun h hc => ?_⟩
  · rw [loaderOp_busy hr hb ho h]
  · rw [loaderOp_free (c := c) hr hb ho h rfl, if_pos hc]
  · rw [loaderOp_free (c := c) hr hb ho h rfl, if_neg (not_not_intro hc)]

theorem loader_writes (hon : s.loaderOn w = true) {base : Nat} {l : List Nat} {x : State × Nat}
    (hr : loaderRegion r = some base) (hl : l ≠ []) (hl' : l.length ≤ 2016) (ho : o.toNat < 0x8000000)
    (hx : x = s.cfwProgram (base + o.toNat) l true) :
    let c := if cfRegion (base + o.toNat) ≠ base then cwRANGE else s.cfwCheck 2 (base + o.toNat) l.length
    (s.boot.op.isSome = true → exec (.loaderWrite w r o l) s = .next (s.loaderSay w cwBUSY [])) ∧
    (s.boot.op = none → c ≠ cwOK → exec (.loaderWrite w r o l) s = .next ((s.cfwRes c).loaderSay w c [])) ∧
    (s.boot.op = none → c = cwOK → exec (.loaderWrite w r o l) s = .next ((x.1.cfwRes x.2).loaderSay w x.2 [])) := by
  intro c
  have hb : decide (l.length = 0 ∨ 2016 < l.length) = false := by
    have hne : l.length ≠ 0 := fun h => hl (List.length_eq_zero_iff.mp h)
    exact decide_eq_false (by omega)
  rw [exec_loaderWrite, if_pos hon, State.loaderWritten]
  refine ⟨fun h => ?_, fun h hc => ?_, fun h hc => ?_⟩
  · rw [loaderOp_busy hr hb ho h]
  · rw [loaderOp_free (c := c) hr hb ho h rfl, if_pos hc]
  · rw [loaderOp_free (c := c) hr hb ho h rfl, if_neg (not_not_intro hc), hx]

/-- Outside loader mode, and to a local processor, nothing is answered. -/
theorem loader_off (hoff : s.loaderOn w = false) : exec (.loaderStatus w) s = .next s ∧
    exec (.loaderReset w) s = .next s ∧ (∀ r o n, exec (.loaderErase w r o n) s = .next s) ∧
    ∀ r o l, exec (.loaderWrite w r o l) s = .next s := by
  have hn : ¬ s.loaderOn w = true := by
    rw [hoff]
    exact Bool.false_ne_true
  refine ⟨?_, ?_, fun r o n => ?_, fun r o l => ?_⟩
  · rw [exec_loaderStatus, if_neg hn]
  · rw [exec_loaderReset, if_neg hn]
  · rw [exec_loaderErase, if_neg hn]
  · rw [exec_loaderWrite, if_neg hn]

end

theorem bootAndLoader : Claims.BootAndLoader := by
  intro w s
  refine ⟨fun bad mems ddr k us hd hr => ?_, fun bad mems ddr k us h => ?_, fun p => ?_, fun hd hs hf us hus =>
    bootStart_spec hd hs hf hus, loaderOn_iff, loader_off, fun hon => ⟨?_, ?_, (loader_refusals hon).1,
    (loader_refusals hon).2, fun r base o n hr hn ho => loader_erases hon hr hn ho,
    fun r base o l x hr hl hl' ho hx => loader_writes hon hr hl hl' ho hx⟩⟩
  · rw [exec_boot, hd, decide_eq_true hr]
    rfl
  · rw [exec_boot]
    rcases h with h | h
    · rw [h]
      rfl
    · rw [decide_eq_false h, Bool.and_false]
      rfl
  · refine ⟨pickCopy_first, pickCopy_second, pickCopy_none, fun h0 h1 => ⟨fun h => ?_, fun h => ?_, fun h hc => ?_,
      fun h hc => ?_⟩⟩
    all_goals rw [pickCopy_both h0 h1]
    · rw [if_neg (by omega), if_pos h]
    · rw [if_neg (by omega), if_neg (by omega)]
    · rw [if_pos h, if_pos hc]
    · rw [if_pos h, hc, if_neg Bool.false_ne_true]
  · rw [exec_loaderStatus, if_pos hon]
  · rw [exec_loaderReset, if_pos hon]

/-- Settles O59: each command of the flash engine is one case of its checks and its end, and boot, its start and the
loader's requests are one case each of their guards. -/
theorem flashAndBoot : Obligations.FlashAndBoot := ⟨flash, bootAndLoader⟩

end Sys2Proof.Machine

/-! PROOFS. O60, the rotation of the self-test: slots, skips, the end of a test (spec/23, R559 to R564). -/

namespace Sys2Proof.Machine

open Host (Outcome)

section

variable {s : State} {x : SlotX} {ok : Bool} {ms : List MemTest} {p : Nat} {n : Option Nat}

/-! ## Slots (R561, R562) -/

/-- The next core's reckoner, where it has one, stands. -/
def State.quiet (s : State) : Bool :=
  (s.logicalOn s.nextCore).all (fun k => decide (s.rkSt k = rkSTOPPED ∨ s.rkSt k = rkFATAL))

/-- The slot of the next core. -/
def State.slotTaken (s : State) (inPlace : Bool) : State :=
  s.setBist { s.bist with slot := some { core := s.nextCore, logical := s.logicalOn s.nextCore, inPlace := inPlace } }

theorem exec_lbistSlot_none (h : s.rotation = false ∨ s.lbSt ≠ lbIDLE ∨ dvREST ≤ s.dev) :
    exec .lbistSlot s = .next s :=
  if_pos (h.imp_left fun h => by rw [h]; rfl)

theorem slot_falls (hr : s.rotation = true) (hi : s.lbSt = lbIDLE) (hd : s.dev < dvREST) :
    ¬ ((!s.rotation) = true ∨ s.lbSt ≠ lbIDLE ∨ dvREST ≤ s.dev) := by
  rw [hr]
  exact not_or.mpr ⟨Bool.false_ne_true, not_or.mpr ⟨not_not_intro hi, Nat.not_le.mpr hd⟩⟩

theorem exec_lbistSlot_spare (hr : s.rotation = true) (hi : s.lbSt = lbIDLE) (hd : s.dev < dvREST)
    (hs : s.bist.spareTest = true) : exec .lbistSlot s = .next
      ((s.setBist { s.bist with slot := some { core := s.spare, logical := none, inPlace := true }
                                spareTest := false }).testBegin lbINPLACE) :=
  (if_neg (slot_falls hr hi hd)).trans (if_pos hs)

theorem exec_lbistSlot_next (hr : s.rotation = true) (hi : s.lbSt = lbIDLE) (hd : s.dev < dvREST)
    (hs : s.bist.spareTest = false) : exec .lbistSlot s = .next
      (if s.quiet then (s.slotTaken true).testBegin lbINPLACE else (s.slotTaken false).setLbSt lbWAIT) := by
  refine (if_neg (slot_falls hr hi hd)).trans ((if_neg (by rw [hs]; exact Bool.false_ne_true)).trans ?_)
  extract_lets p n runs
  have hruns : runs = !s.quiet := by
    change (match s.logicalOn s.nextCore with
      | some k => decide (s.rkSt k ≠ rkSTOPPED ∧ s.rkSt k ≠ rkFATAL)
      | none => false) = _
    rw [State.quiet]
    cases s.logicalOn s.nextCore with
    | none => rfl
    | some k => simp
  rw [hruns]
  cases s.quiet
  · rfl
  · rfl

theorem exec_slotSkip_none (h : s.lbSt ≠ lbWAIT) : exec .slotSkip s = .next s := if_pos h

/-- The slot is given up, and counted. -/
def State.slotSkipped (s : State) : State :=
  (s.setBist { s.bist with slot := none, skips := s.bist.skips + 1 }).incF pBIST BIST.LB_CNT_SKIP

theorem rotation_slotSkipped : s.slotSkipped.rotation = s.rotation := flag_set_off (by decide)

theorem exec_slotSkip (h : s.lbSt = lbWAIT) {v : State}
    (hv : v = if s.rotation then s.slotSkipped.setLbSt lbIDLE else s.slotSkipped.rotationOff) :
    exec .slotSkip s = .next (if s.bist.skips + 1 < 3 then v
      else ((v.set pBIST BIST.LB_STAT_STARVED 1).err pBIST 17).ev pBIST 16) := by
  rw [hv, ← rotation_slotSkipped]
  exact if_neg (not_not_intro h)

/-! ## The end of a test (R561, R563) -/

/-- A test that has ended: the slot ends, and the rotation goes on or stands. -/
def State.testFin (s : State) (core : Nat) (ok : Bool) : State :=
  let s := s.slotEnd core
  if !ok then s.setLbSt lbNOSPARE
  else if s.rotation then (s.setLbSt lbIDLE).showNext
  else s.rotationOff

theorem exec_lbistTestDone_none (h : s.bist.slot = none ∨ s.lbSt ≠ lbTEST ∧ s.lbSt ≠ lbINPLACE) :
    exec (.lbistTestDone ok ms) s = .next s := by
  change execLbistTestDone ok ms s = _
  rw [execLbistTestDone]
  rcases h with h | h
  · rw [h]
  · split
    · exact if_pos h
    · rfl

/-- What a slot's test does to its core. -/
def State.coreTested (s : State) (x : SlotX) (ok : Bool) : State :=
  if ok then s.corePass x.core
  else
    let s := s.coreFail x.core x.logical
    match x.logical with
    | some n => if x.inPlace then s.set (pRECK n) RECK.STATUS_PHYS s.spare else s
    | none => s

theorem coreTested_pass : s.coreTested x true = s.corePass x.core := rfl

theorem coreTested_left (hp : x.inPlace = false) : s.coreTested x false = s.coreFail x.core x.logical := by
  have hn : ¬ x.inPlace = true := by
    rw [hp]
    exact Bool.false_ne_true
  rw [State.coreTested, if_neg Bool.false_ne_true]
  cases x.logical with
  | none => rfl
  | some n => exact if_neg hn

theorem coreTested_unmapped (hl : x.logical = none) : s.coreTested x false = s.coreFail x.core none := by
  rw [State.coreTested, if_neg Bool.false_ne_true, hl]

theorem coreTested_mapped {n : Nat} (hp : x.inPlace = true) (hl : x.logical = some n) : s.coreTested x false =
    (s.coreFail x.core (some n)).set (pRECK n) RECK.STATUS_PHYS (s.coreFail x.core (some n)).spare := by
  rw [State.coreTested, if_neg Bool.false_ne_true, hl]
  exact if_pos hp

/-- The end of the test of a slot. -/
def State.slotTested (s : State) (x : SlotX) (pass : Bool) (mems : List MemTest) : State :=
  let ms := if x.inPlace then [] else mems.filter (fun t => t.id == x.core || t.id == 0x20 + x.core)
  let s := ms.foldl (fun (s : State) t => s.memTested t) s
  let s := if x.inPlace then s else (s.coreZero x.core false).coreZero x.core true
  let ok := pass && !(ms.any (fun t => s.memBad t))
  (s.coreTested x ok).testFin x.core ok

theorem exec_lbistTestDone_some (hx : s.bist.slot = some x) : exec (.lbistTestDone ok ms) s =
    if s.lbSt ≠ lbTEST ∧ s.lbSt ≠ lbINPLACE then .next s else .next (s.slotTested x ok ms) := by
  change execLbistTestDone ok ms s = _
  rw [execLbistTestDone, hx]
  rfl

theorem exec_lbistTestDone_inPlace (hx : s.bist.slot = some x) (hs : s.lbSt = lbINPLACE) (hp : x.inPlace = true) :
    exec (.lbistTestDone ok ms) s = .next ((s.coreTested x ok).testFin x.core ok) := by
  rw [exec_lbistTestDone_some hx, if_neg fun h => h.2 hs]
  unfold State.slotTested
  extract_lets l s1 s2 ok'
  have hl : l = [] := if_pos hp
  have h1 : s1 = s := by rw [show s1 = l.foldl (fun s t => s.memTested t) s from rfl, hl, List.foldl_nil]
  have h2 : s2 = s := (if_pos hp).trans h1
  have hok : ok' = ok := by
    rw [show ok' = (ok && !(l.any (fun t => s2.memBad t))) from rfl, hl, List.any_nil, Bool.not_false, Bool.and_true]
  rw [h2, hok]

theorem exec_lbistTestDone_left (hx : s.bist.slot = some x) (hs : s.lbSt = lbTEST) (hp : x.inPlace = false) :
    exec (.lbistTestDone ok []) s = .next
      ((((s.coreZero x.core false).coreZero x.core true).coreTested x ok).testFin x.core ok) := by
  have hn : ¬ x.inPlace = true := by
    rw [hp]
    exact Bool.false_ne_true
  rw [exec_lbistTestDone_some hx, if_neg fun h => h.1 hs]
  unfold State.slotTested
  extract_lets l s1 s2 ok'
  have hl : l = [] := if_neg hn
  have h1 : s1 = s := by rw [show s1 = l.foldl (fun s t => s.memTested t) s from rfl, hl, List.foldl_nil]
  have h2 : s2 = (s.coreZero x.core false).coreZero x.core true := by
    rw [← h1]
    exact if_neg hn
  have hok : ok' = ok := by
    rw [show ok' = (ok && !(l.any (fun t => s2.memBad t))) from rfl, hl, List.any_nil, Bool.not_false, Bool.and_true]
  rw [h2, hok]

end

end Sys2Proof.Machine

/-! PROOFS. O60, the direct test engine and resets of crossings (spec/23, R565, R568, R573, R574). -/

namespace Sys2Proof.Machine

open Host (Outcome)

section

variable {s t u : State} {w : Writer} {op arg k : Nat} {ok : Bool} {id : Fin 256}

theorem testFin_pass {c : Nat} : s.testFin c true =
    if (s.slotEnd c).rotation then ((s.slotEnd c).setLbSt lbIDLE).showNext else (s.slotEnd c).rotationOff := by
  rw [State.testFin]
  exact if_neg Bool.false_ne_true

theorem testFin_fail {c : Nat} : s.testFin c false = (s.slotEnd c).setLbSt lbNOSPARE := by
  rw [State.testFin]
  exact if_pos rfl

/-! ## The direct test engine (R568) -/

theorem reg_dteRes {c : Nat} (h : c < 2 ^ 31) : (s.dteRes c).reg pBIST BIST.DTE_RES = 2 ^ 31 + c := by
  rw [State.dteRes, reg_ev (by decide), reg_setReg_same]
  omega

theorem error_dteRes : (s.dteRes 1).bit pBIST PG.ERR 20 = true := by
  rw [State.dteRes, if_pos rfl, bit_ev_off (by decide), State.bit, reg_setReg_off (by decide)]
  exact bit_err (by decide)

theorem bist_dteRes {c : Nat} : (s.dteRes c).bist = s.bist := by
  rw [State.dteRes, State.ev_bist, State.setReg_bist]
  exact keeps_ite (P := fun t => t.bist = s.bist) State.err_bist rfl

/-- The command is shown. -/
def State.dteShown (s : State) (op arg : Nat) : State := (s.set pBIST BIST.DTE_CMD_OP op).set pBIST BIST.DTE_CMD_ARG arg

/-- The result of the command before it is cleared. -/
def State.dteBegun (s : State) (op arg : Nat) : State := (s.dteShown op arg).setReg pBIST BIST.DTE_RES 0

theorem lifeSt_dteShown : (s.dteShown op arg).lifeSt = s.lifeSt := by
  rw [State.lifeSt, State.lifeSt, State.dteShown, reg_set_page (by decide) (by decide) (by decide),
    reg_set_page (by decide) (by decide) (by decide)]

theorem bist_dteShown : (s.dteShown op arg).bist = s.bist := State.set_bist.trans State.set_bist

theorem bist_dteBegun : (s.dteBegun op arg).bist = s.bist := State.setReg_bist.trans bist_dteShown

theorem rotation_dteBegun : (s.dteBegun op arg).rotation = s.rotation := by
  rw [State.rotation, State.rotation, State.dteBegun, State.dteShown, flag_setReg_off (by decide),
    flag_set_off (by decide), flag_set_off (by decide)]

/-- The test that the engine runs. -/
def State.dteTest (s : State) (op arg : Nat) : State := s.setBist { s.bist with dte := some (op, arg) }

/-- Whether the reckoner of a core stands. -/
def State.coreStands (s : State) (p : Nat) : Bool :=
  ((List.range 32).find? (fun n => decide (s.phys n = p))).all (fun k => decide (s.rkSt k = rkSTOPPED))

/-- A command that the engine takes. -/
def State.dteTaken (s : State) (op arg : Nat) : State :=
  if op = 1 then
    if !memKnown arg then s.dteRes 3
    else if s.memIdle arg then s.dteTest 1 arg else s.dteRes 2
  else if op = 2 then
    if 32 ≤ arg then s.dteRes 3
    else if s.rotation || !s.coreStands (arg % 32) then s.dteRes 2
    else s.dteTest 2 arg
  else if !memKnown arg then s.dteRes 3
  else s.dteTest 3 arg

theorem dteGo_eq (h : op ≠ 0) : s.dteGo op arg =
    if (s.dteShown op arg).lifeSt ≠ 1 ∧ (s.dteShown op arg).lifeSt ≠ 3 then (s.dteShown op arg).dteRes 1
    else if (s.dteShown op arg).bist.dte.isSome then (s.dteShown op arg).dteRes 2
    else (s.dteBegun op arg).dteTaken op arg := by
  unfold State.dteGo
  extract_lets s1 s2 core x n
  have h1 : s1 = s.dteShown op arg := rfl
  have h2 : s2 = s.dteBegun op arg := rfl
  have hn : n = (List.range 32).find? (fun n => decide ((s.dteBegun op arg).phys n = arg % 32)) := rfl
  rw [h1, h2, if_neg h, State.dteTaken, State.coreStands, ← hn]
  clear_value n
  cases n with
  | none => rfl
  | some k => rfl

theorem dteCmd_eq (hw : s.mayAct w pBIST) : s.dteCmd w op arg = (s.dteGo op arg).answer w .ok :=
  finish_action (f := fun s => (s.dteGo op arg, .ok)) hw rfl

theorem dteGo_closed (h : op ≠ 0) (h1 : s.lifeSt ≠ 1) (h3 : s.lifeSt ≠ 3) :
    s.dteGo op arg = (s.dteShown op arg).dteRes 1 := by
  rw [dteGo_eq h, lifeSt_dteShown, if_pos ⟨h1, h3⟩]

theorem dteGo_busy (h : op ≠ 0) (hl : s.lifeSt = 1 ∨ s.lifeSt = 3) (hb : s.bist.dte.isSome = true) :
    s.dteGo op arg = (s.dteShown op arg).dteRes 2 := by
  rw [dteGo_eq h, lifeSt_dteShown, if_neg (by omega), bist_dteShown, if_pos hb]

theorem dteGo_free (h : op ≠ 0) (hl : s.lifeSt = 1 ∨ s.lifeSt = 3) (hb : s.bist.dte = none) :
    s.dteGo op arg = (s.dteBegun op arg).dteTaken op arg := by
  rw [dteGo_eq h, lifeSt_dteShown, if_neg (by omega), bist_dteShown, hb, if_neg (by simp)]

theorem dteTest_begun {x : Nat} : (s.dteBegun x arg).dteTest op arg =
    (s.dteBegun x arg).setBist { s.bist with dte := some (op, arg) } := by
  rw [State.dteTest, bist_dteBegun]

theorem memKnown_iff : memKnown arg = true ↔ arg < 0x4C := decide_eq_true_iff

theorem dteTaken_unknown (h : op = 1 ∨ op = 3) (hk : 0x4C ≤ arg) : s.dteTaken op arg = s.dteRes 3 := by
  have hn : memKnown arg = false := decide_eq_false (Nat.not_lt.mpr hk)
  rw [State.dteTaken, hn]
  rcases h with rfl | rfl
  · rfl
  · rfl

theorem dteTaken_memory (hk : arg < 0x4C) :
    s.dteTaken 1 arg = if s.memIdle arg then s.dteTest 1 arg else s.dteRes 2 := by
  rw [State.dteTaken, if_pos rfl, memKnown_iff.mpr hk]
  exact if_neg Bool.false_ne_true

theorem dteTaken_repair (hk : arg < 0x4C) : s.dteTaken 3 arg = s.dteTest 3 arg := by
  rw [State.dteTaken, if_neg (by decide), if_neg (by decide), memKnown_iff.mpr hk]
  exact if_neg Bool.false_ne_true

theorem dteTaken_noCore (hk : 32 ≤ arg) : s.dteTaken 2 arg = s.dteRes 3 := by
  rw [State.dteTaken, if_neg (by decide), if_pos rfl, if_pos hk]

theorem dteTaken_core (hk : arg < 32) :
    s.dteTaken 2 arg = if s.rotation || !s.coreStands arg then s.dteRes 2 else s.dteTest 2 arg := by
  rw [State.dteTaken, if_neg (by decide), if_pos rfl, if_neg (Nat.not_le.mpr hk), Nat.mod_eq_of_lt hk]

theorem exec_dteMemoryTest (hw : s.mayAct w pBIST) :
    exec (.dteMemoryTest w id) s = .next ((s.dteGo 1 id).answer w .ok) := congrArg Outcome.next (dteCmd_eq hw)

theorem exec_dteLogicTest (hw : s.mayAct w pBIST) :
    exec (.dteLogicTest w id) s = .next ((s.dteGo 2 id).answer w .ok) := congrArg Outcome.next (dteCmd_eq hw)

theorem exec_dteBurnRepair (hw : s.mayAct w pBIST) :
    exec (.dteBurnRepair w id) s = .next ((s.dteGo 3 id).answer w .ok) := congrArg Outcome.next (dteCmd_eq hw)

/-! ## The end of a direct test -/

theorem bist_setReckWord {i v : Nat} : (s.setReckWord k i v).bist = s.bist := by
  rw [State.setReckWord]
  exact keeps_ite (P := fun t => t.bist = s.bist) rfl rfl

theorem bist_reckZero {b : Bool} : (s.reckZero k b).bist = s.bist := by
  rw [State.reckZero]
  exact keeps_ite (P := fun t => t.bist = s.bist)
    (keeps_foldl (P := fun t => t.bist = s.bist) rfl fun _ _ h => bist_setReckWord.trans h) rfl

theorem bist_coreZero {b : Bool} : (s.coreZero k b).bist = s.bist := by
  rw [State.coreZero]
  split
  · exact bist_reckZero
  · rfl

theorem bist_memCleared : (s.memCleared k).bist = s.bist := by
  have hite : ∀ {c : Prop} [Decidable c] {a b : State}, a.bist = s.bist → b.bist = s.bist →
      (if c then a else b).bist = s.bist := keeps_ite (P := fun t => t.bist = s.bist)
  rw [State.memCleared]
  exact hite bist_coreZero (hite rfl (hite rfl (hite rfl (hite rfl (hite rfl rfl)))))

theorem memInfo_memCleared : (s.memCleared k).memInfo k = s.memInfo k := by
  rw [State.memInfo, State.memInfo, bist_memCleared]

/-- The engine is free again. -/
def State.dteFree (s : State) : State := s.setBist { s.bist with dte := none }

theorem exec_dteDone_none {f : Option MemTest} (h : s.bist.dte = none) : exec (.dteDone ok f) s = .next s := by
  change execDteDone ok f s = _
  rw [execDteDone, h]

theorem exec_dteDone_memory (h : s.bist.dte = some (1, k)) : exec (.dteDone ok none) s = .next
    ((s.dteFree.memCleared k).dteRes (if ok && !(s.memInfo k).unrep then 0 else 3)) := by
  have hm : (s.dteFree.memCleared k).memInfo k = s.memInfo k := memInfo_memCleared
  change execDteDone ok none s = _
  rw [execDteDone, h]
  refine (if_pos rfl).trans ?_
  rw [← hm]
  rfl

theorem exec_dteDone_logic (h : s.bist.dte = some (2, k)) : exec (.dteDone ok none) s = .next
    ((if ok then s.dteFree.corePass k
      else s.dteFree.coreFail k ((List.range 32).find? (fun n => decide (s.phys n = k)))).dteRes (if ok then 0 else 3)) := by
  change execDteDone ok none s = _
  rw [execDteDone, h]
  exact (if_neg (by decide)).trans (if_pos rfl)

theorem exec_dteDone_repair (h : s.bist.dte = some (3, k)) : exec (.dteDone ok none) s =
    if 4 < s.fuseRows k + (s.memInfo k).rows then .next (s.dteFree.dteRes 4)
    else .next ((s.dteFree.setBist { s.dteFree.bist with fuses := (s.bist.fuses.filter (fun e => !(e.1 == k))) ++
      [(k, s.fuseRows k + (s.memInfo k).rows)] }).dteRes 0) := by
  change execDteDone ok none s = _
  rw [execDteDone, h]
  exact (if_neg (by decide)).trans (if_neg (by decide))

/-! ## Resets of crossings (R573, R574) -/

theorem exec_crossingReset_lost {a b : Fin 4096} : exec (.crossingReset 3 [(w, a, b)]) s =
    .next (if w.isRemote then s.send (.resp w .timeout 0 []) else s.noPageLocal w a b) := rfl

theorem domOf_die (i : Fin 4) : domOf (4 + i.val) = .fd i.val := by
  revert i
  decide

theorem exec_crossingReset_die {i : Fin 4} :
    exec (.crossingReset ⟨4 + i, by omega⟩ []) s = .next (s.dieLinksOff i) := by
  change execCrossingReset ⟨4 + i, by omega⟩ [] s = _
  rw [execCrossingReset, domOf_die, List.foldl_nil]

theorem foldl_range_four {f : State → Nat → State} : (List.range 4).foldl f s = f (f (f (f s 0) 1) 2) 3 := rfl

theorem exec_crossingReset_rd : exec (.crossingReset 2 []) s =
    .next ((((s.dieLinksOff 0).dieLinksOff 1).dieLinksOff 2).dieLinksOff 3) := by
  change execCrossingReset 2 [] s = _
  rw [execCrossingReset, show domOf (2 : Fin 8) = .rd from rfl, List.foldl_nil]
  exact congrArg Outcome.next foldl_range_four

end

end Sys2Proof.Machine

/-! PROOFS. O60, the self-test, put together from its parts (spec/23). -/

namespace Sys2Proof.Machine

open Host (Outcome)

section

variable {s : State} {w : Writer}

/-- The commands of the engine where the life-cycle state does not allow them. -/
theorem dte_closed (hw : s.mayAct w pBIST) (h1 : s.lifeSt ≠ 1) (h3 : s.lifeSt ≠ 3) (id : Fin 256) :
    exec (.dteMemoryTest w id) s = .next (((s.dteShown 1 id).dteRes 1).answer w .ok) ∧
      exec (.dteLogicTest w id) s = .next (((s.dteShown 2 id).dteRes 1).answer w .ok) ∧
      exec (.dteBurnRepair w id) s = .next (((s.dteShown 3 id).dteRes 1).answer w .ok) := by
  refine ⟨?_, ?_, ?_⟩
  · rw [exec_dteMemoryTest hw, dteGo_closed (by decide) h1 h3]
  · rw [exec_dteLogicTest hw, dteGo_closed (by decide) h1 h3]
  · rw [exec_dteBurnRepair hw, dteGo_closed (by decide) h1 h3]

/-- The commands of the engine while it runs. -/
theorem dte_busy (hw : s.mayAct w pBIST) (hl : s.lifeSt = 1 ∨ s.lifeSt = 3) (hb : s.bist.dte.isSome = true) (id : Fin 256) :
    exec (.dteMemoryTest w id) s = .next (((s.dteShown 1 id).dteRes 2).answer w .ok) ∧
      exec (.dteLogicTest w id) s = .next (((s.dteShown 2 id).dteRes 2).answer w .ok) ∧
      exec (.dteBurnRepair w id) s = .next (((s.dteShown 3 id).dteRes 2).answer w .ok) := by
  refine ⟨?_, ?_, ?_⟩
  · rw [exec_dteMemoryTest hw, dteGo_busy (by decide) hl hb]
  · rw [exec_dteLogicTest hw, dteGo_busy (by decide) hl hb]
  · rw [exec_dteBurnRepair hw, dteGo_busy (by decide) hl hb]

/-- The commands of the engine while it is free. -/
theorem dte_free (hw : s.mayAct w pBIST) (hl : s.lifeSt = 1 ∨ s.lifeSt = 3) (hb : s.bist.dte = none) (id : Fin 256) :
    exec (.dteMemoryTest w id) s = .next (((s.dteBegun 1 id).dteTaken 1 id).answer w .ok) ∧
      exec (.dteLogicTest w id) s = .next (((s.dteBegun 2 id).dteTaken 2 id).answer w .ok) ∧
      exec (.dteBurnRepair w id) s = .next (((s.dteBegun 3 id).dteTaken 3 id).answer w .ok) := by
  refine ⟨?_, ?_, ?_⟩
  · rw [exec_dteMemoryTest hw, dteGo_free (by decide) hl hb]
  · rw [exec_dteLogicTest hw, dteGo_free (by decide) hl hb]
  · rw [exec_dteBurnRepair hw, dteGo_free (by decide) hl hb]

/-- A free engine's answers, command by command. -/
theorem dte_answers (hw : s.mayAct w pBIST) (hl : s.lifeSt = 1 ∨ s.lifeSt = 3) (hb : s.bist.dte = none) (id : Fin 256) :
    (0x4C ≤ id.val → exec (.dteMemoryTest w id) s = .next (((s.dteBegun 1 id).dteRes 3).answer w .ok) ∧
      exec (.dteBurnRepair w id) s = .next (((s.dteBegun 3 id).dteRes 3).answer w .ok)) ∧
    (32 ≤ id.val → exec (.dteLogicTest w id) s = .next (((s.dteBegun 2 id).dteRes 3).answer w .ok)) ∧
    (id.val < 0x4C → (s.dteBegun 1 id).memIdle id = false →
      exec (.dteMemoryTest w id) s = .next (((s.dteBegun 1 id).dteRes 2).answer w .ok)) ∧
    (id.val < 0x4C → (s.dteBegun 1 id).memIdle id = true → exec (.dteMemoryTest w id) s = .next
      (((s.dteBegun 1 id).setBist { s.bist with dte := some (1, id.val) }).answer w .ok)) ∧
    (id.val < 32 → (s.rotation = true ∨ (s.dteBegun 2 id).coreStands id = false) →
      exec (.dteLogicTest w id) s = .next (((s.dteBegun 2 id).dteRes 2).answer w .ok)) ∧
    (id.val < 32 → s.rotation = false → (s.dteBegun 2 id).coreStands id = true → exec (.dteLogicTest w id) s = .next
      (((s.dteBegun 2 id).setBist { s.bist with dte := some (2, id.val) }).answer w .ok)) ∧
    (id.val < 0x4C → exec (.dteBurnRepair w id) s = .next
      (((s.dteBegun 3 id).setBist { s.bist with dte := some (3, id.val) }).answer w .ok)) := by
  obtain ⟨hmem, hlog, hrep⟩ := dte_free hw hl hb id
  rw [hmem, hlog, hrep]
  refine ⟨fun hk => ?_, fun hk => ?_, fun hk hi => ?_, fun hk hi => ?_, fun hk hr => ?_, fun hk hr hs => ?_, fun hk => ?_⟩
  · rw [dteTaken_unknown (.inl rfl) hk, dteTaken_unknown (.inr rfl) hk]
    exact ⟨rfl, rfl⟩
  · rw [dteTaken_noCore hk]
  · rw [dteTaken_memory hk, hi, if_neg Bool.false_ne_true]
  · rw [dteTaken_memory hk, if_pos hi, dteTest_begun]
  · have h : ((s.dteBegun 2 id).rotation || !(s.dteBegun 2 id).coreStands id) = true := by
      rw [rotation_dteBegun]
      rcases hr with hr | hr
      · rw [hr, Bool.true_or]
      · rw [hr, Bool.not_false, Bool.or_true]
    rw [dteTaken_core hk, if_pos h]
  · have h : ((s.dteBegun 2 id).rotation || !(s.dteBegun 2 id).coreStands id) = false := by
      rw [rotation_dteBegun, hr, hs]
      rfl
    rw [dteTaken_core hk, h, if_neg Bool.false_ne_true, dteTest_begun]
  · rw [dteTaken_repair hk, dteTest_begun]

/-- The end of a test in place. -/
theorem testDone_inPlace {x : SlotX} (hx : s.bist.slot = some x) (hs : s.lbSt = lbINPLACE) (hp : x.inPlace = true) :
    let fin (v : State) : State := if v.rotation then (v.setLbSt lbIDLE).showNext else v.rotationOff
    (∀ ms, exec (.lbistTestDone true ms) s = .next (fin ((s.corePass x.core).slotEnd x.core))) ∧
    (∀ ms, x.logical = none → exec (.lbistTestDone false ms) s = .next
      (((s.coreFail x.core none).slotEnd x.core).setLbSt lbNOSPARE)) ∧
    (∀ ms n, x.logical = some n → exec (.lbistTestDone false ms) s = .next
      ((((s.coreFail x.core (some n)).set (pRECK n) RECK.STATUS_PHYS
        (s.coreFail x.core (some n)).spare).slotEnd x.core).setLbSt lbNOSPARE)) := by
  refine ⟨fun ms => ?_, fun ms hl => ?_, fun ms n hl => ?_⟩
  · rw [exec_lbistTestDone_inPlace hx hs hp, coreTested_pass, testFin_pass]
  · rw [exec_lbistTestDone_inPlace hx hs hp, coreTested_unmapped hl, testFin_fail]
  · rw [exec_lbistTestDone_inPlace hx hs hp, coreTested_mapped hp hl, testFin_fail]

/-- The end of a direct test. -/
theorem dteDone_ends :
    (∀ k ok, s.bist.dte = some (1, k) → exec (.dteDone ok none) s = .next
      ((s.dteFree.memCleared k).dteRes (if ok = true ∧ (s.memInfo k).unrep = false then 0 else 3))) ∧
    (∀ k, s.bist.dte = some (2, k) → exec (.dteDone true none) s = .next ((s.dteFree.corePass k).dteRes 0) ∧
      exec (.dteDone false none) s = .next
        ((s.dteFree.coreFail k ((List.range 32).find? (fun n => decide (s.phys n = k)))).dteRes 3)) ∧
    (∀ k ok, s.bist.dte = some (3, k) →
      (4 < s.fuseRows k + (s.memInfo k).rows → exec (.dteDone ok none) s = .next (s.dteFree.dteRes 4)) ∧
      (s.fuseRows k + (s.memInfo k).rows ≤ 4 → exec (.dteDone ok none) s = .next
        ((s.dteFree.setBist { s.dteFree.bist with fuses := (s.bist.fuses.filter (fun e => !(e.1 == k))) ++
          [(k, s.fuseRows k + (s.memInfo k).rows)] }).dteRes 0))) := by
  refine ⟨fun k ok h => ?_, fun k h => ⟨?_, ?_⟩, fun k ok h => ⟨fun hk => ?_, fun hk => ?_⟩⟩
  · have hc : (if ok && !(s.memInfo k).unrep then 0 else 3) = if ok = true ∧ (s.memInfo k).unrep = false then 0 else 3 := by
      simp
    rw [exec_dteDone_memory h, hc]
  · rw [exec_dteDone_logic h]
    rfl
  · rw [exec_dteDone_logic h]
    rfl
  · rw [exec_dteDone_repair h, if_pos hk]
  · rw [exec_dteDone_repair h, if_neg (Nat.not_lt.mpr hk)]

end

/-- Settles O60: each command of the self-test is one case of the rotation's state, the engine's state and the life-cycle
state. -/
theorem selfTest : Obligations.SelfTest := by
  intro w s
  refine ⟨exec_lbistSlot_none, exec_lbistSlot_spare, fun hr hi hd hs => ⟨fun hq => ?_, fun hq => ?_⟩,
    exec_slotSkip_none, fun hs u hu v hv => ?_, fun h ok ms => exec_lbistTestDone_none h,
    fun x hx hs hp => testDone_inPlace hx hs hp, fun x u hx hs hp hu => ?_, fun hw h1 h3 id => ?_,
    fun hw hl id u v hu hv => ?_, fun h ok f => exec_dteDone_none h, fun u hu => ?_,
    fun a b => exec_crossingReset_lost, fun i => exec_crossingReset_die, exec_crossingReset_rd⟩
  · have hq' : s.quiet = true := hq
    rw [exec_lbistSlot_next hr hi hd hs, if_pos hq', State.slotTaken]
  · have hn : ¬ s.quiet = true := fun h => Bool.false_ne_true (hq.symm.trans h)
    rw [exec_lbistSlot_next hr hi hd hs, if_neg hn, State.slotTaken]
  · have hv' : v = if s.rotation then s.slotSkipped.setLbSt lbIDLE else s.slotSkipped.rotationOff := by
      rw [hv, hu, State.slotSkipped]
    rw [exec_slotSkip hs hv']
    exact ⟨fun h => by rw [if_pos (by omega)], fun h => by rw [if_neg (by omega)]⟩
  · intro fin
    rw [exec_lbistTestDone_left hx hs hp, exec_lbistTestDone_left hx hs hp, ← hu, coreTested_pass, coreTested_left hp,
      testFin_pass, testFin_fail]
    exact ⟨rfl, rfl⟩
  · obtain ⟨hm, hl, hr⟩ := dte_closed hw h1 h3 id
    exact ⟨hm, hl, hr, reg_dteRes (by decide), error_dteRes, bist_dteRes⟩
  · have hu' : ∀ op, u op = s.dteShown op id := fun op => by rw [hu, State.dteShown]
    have hv' : ∀ op, v op = s.dteBegun op id := fun op => by rw [hv, State.dteBegun, ← hu' op]
    simp only [hu', hv']
    exact ⟨fun hb => dte_busy hw hl hb id, fun hb => dte_answers hw hl hb id⟩
  · rw [hu]
    exact dteDone_ends

end Sys2Proof.Machine
